-- ==== Sys2Proof/Word.lean ====
section
/-! DEFINITION. The word types: a byte, a 64-bit register (32-bit registers use the low half, spec/00_scope.md R6), the 256-bit
entry of a table (spec/08_exact_match.md, spec/10_actions_and_editing.md) and the 320-bit search key (spec/09_lpm_and_tcam.md). -/

namespace Sys2Proof

/-- A byte. -/
abbrev Byte := BitVec 8

/-- A register or counter value. -/
abbrev Word := BitVec 64

/-- A 256-bit entry body, microword or record. -/
abbrev Entry := BitVec 256

/-- A parser key or ternary search key of 320 bits. -/
abbrev Key := BitVec 320

end Sys2Proof
end

