-- ==== Sys2Proof/Syntax.lean ====
section
/-! DEFINITION. The commands of the block: one constructor per row of spec/opcode_table.json, and the types of their operands. -/

namespace Sys2Proof

/-- Who sends a bus access: the physical function, virtual function `n`, or control core `c` (spec/20_host_interface.md R432, R433). -/
inductive Source where
  | pf
  | vf (n : Nat)
  | core (c : Nat)
deriving DecidableEq, Repr

/-- What the strongroom's crypto engines find of a signed request: whether the signature verifies and its public key has the hash
fused in the signer's slot, and which slot that is (spec/03_boot_and_strongroom.md Table 3-5, R70). -/
structure TokenCheck where
  ok : Bool
  vendor : Bool
  slot : Nat
deriving DecidableEq, Repr

/-- A section of the image with its table entry (spec/02_configuration_image.md Table 2-2); `body` is the decrypted content. -/
structure Section where
  type : Nat
  flags : Nat
  offset : Nat
  length : Nat
  body : List Byte
deriving DecidableEq, Repr

/-- The kinds of object that an object window serves (spec/10_actions_and_editing.md R227, spec/11_mollux_fabric.md R252). -/
inductive ObjKind where
  | nextHop | group | meter | mirror | script | copy
deriving DecidableEq, Repr

/-- One entry of the first accord, section 0x08 (spec/02_configuration_image.md R43): the spec says what it holds and in which
formats, and gives no byte layout of the section, so the entries are given as the tables take them. -/
inductive TableWrite where
  /-- An exact-match entry of slice `s` as EM_INSERT takes it: CMD.state, the held first half of a pair, DATA. -/
  | em (s state : Nat) (first : Option Entry) (data : Entry)
  /-- An LPM entry of half `h` as LPM_INSERT takes it. -/
  | lpm (h state : Nat) (data : Entry)
  /-- An entry of the IPv4 or IPv6 filter of half `h`. -/
  | filter (h : Nat) (v6 : Bool) (index : Nat) (data : Entry)
  /-- A TCAM entry of slice `s`: window index, CMD.state, held parts 0 to 2 of the first half and of the second. -/
  | tcam (s index state : Nat) (parts : List Entry)
  /-- A bridge domain entry. -/
  | bd (s index : Nat) (data : Entry)
  /-- An object's part; CMD.state carries a group's size. -/
  | object (s : Nat) (kind : ObjKind) (index part state : Nat) (data : Entry)
  /-- A group head entry. -/
  | head (s index : Nat) (data : Entry)
  /-- An entry of the extended-port map (spec/04_ports_and_lanes.md). -/
  | ecid (s index : Nat) (data : Entry)
  /-- An entry of the subscriber map (spec/04_ports_and_lanes.md). -/
  | subscriber (s index : Nat) (data : Entry)
  /-- A default action: PORT_DEFAULT of a port (spec/04_ports_and_lanes.md). -/
  | dflt (port value : Nat)
deriving DecidableEq, Repr

/-- The Chaber image as the strongroom hands it over (spec/02_configuration_image.md R33): the 256-byte header, the sections in
table order, whether every padding byte outside the sections is 0x00, the entries of section 0x08, and whether section 0x07's signature
verifies under the key of the customer slot that its signature block names (check 5 of R58). -/
structure Image where
  header : List Byte
  sections : List Section
  paddingZero : Bool
  accord : List TableWrite
  customerOk : Bool
deriving DecidableEq, Repr

/-- What the strongroom's crypto engines find of an image that it reads (spec/03_boot_and_strongroom.md R58): whether the image's signature
verifies under the key of vendor slot key_index, the encrypted sections whose GCM tag fails, and the patches whose signature fails, by
their index in the section table. -/
structure ImageSigs where
  image : Bool
  tags : List Nat
  patches : List Nat
deriving DecidableEq, Repr

/-- What a lane's receiver saw in a window of 1 ms (spec/04_ports_and_lanes.md R78, R80): symbols that the FEC corrected, the codewords they
stood in, and wrong bits of a test pattern. -/
structure FecWindow where
  symbols : Nat
  words : Nat
  errors : Nat
deriving DecidableEq, Repr

/-- What the PMBus answers after a command of the set point (spec/19_housekeeper_power_ageing.md R416, R418): the voltage that READ_VOUT
gives, in millivolts, or the code of a command that was not acknowledged, came with a PEC error or showed a fault bit in STATUS_WORD. -/
inductive PmbusAnswer where
  | vout (mv : Nat)
  | failed (code : Nat)
deriving DecidableEq, Repr

/-- A 32-byte DMA descriptor as fetched from host memory (spec/20_host_interface.md Table 20-8, Table 20-9). -/
abbrev Descriptor := Entry

/-- Where the settler stands: a table of a slice or half and an index (spec/07_accords.md R166). -/
inductive SettlePlace where
  | em (s index : Nat)
  | tcam (s bank index : Nat)
  | lpm (h index : Nat)
  | head (s index : Nat)
  | ecid (s index : Nat)
  | subscriber (s index : Nat)
deriving DecidableEq, Repr

/-- The commands. Each constructor is one row of spec/opcode_table.json; its docstring names the row and its rule. -/
inductive Instr where
  /-- REGISTER_WRITE (R8): A write to a register field that has no row of its own acts according to its access code (RW, W1C, SG staging and so on). -/
  | registerWrite (src : Source) (addr size : Nat) (data : Word)
  /-- RC_FIELD_READ (R10): A read of an RC field returns the value and then clears it, keeping any hardware update from the same cycle. -/
  | rcFieldRead (src : Source) (addr size : Nat)
  /-- SUITE_QUERY (R22): A write of unit_id to GLOBAL.SUITE_QUERY makes the next read of SUITE_RESULT return that unit's suite membership. -/
  | suiteQuery (src : Source) (unit : Nat)
  /-- UNIT_RESET_RELEASE (R25): A write of start with scope 0b00 is judged by the reset controller; if accepted, it resets the unit with its nested units and then releases them. -/
  | unitResetRelease (src : Source) (unit : Nat)
  /-- UNIT_RESET_HOLD (R26): A write of start with scope 0b01 resets the named unit and holds it in reset. -/
  | unitResetHold (src : Source) (unit : Nat)
  /-- UNIT_RELEASE_HELD (R26): A write of start with scope 0b10 releases a held unit, or is refused with reason 0x07. -/
  | unitReleaseHeld (src : Source) (unit : Nat)
  /-- UNIT_RESET_COMPLETE (R27): A running reset and release reaches its release within the bound for its unit, and busy clears. -/
  | unitResetComplete (unit : Nat)
  /-- UNIT_HOLD_REACHED (R26): A unit under a scope 0b01 request is in reset; busy clears and held reads 1. -/
  | unitHoldReached (unit : Nat)
  /-- APPLY_GO (R47): A write of go to a domain's APPLY snapshots and checks the staged copy, and sets pending or apply_err. -/
  | applyGo (src : Source) (addr tag : Nat)
  /-- APPLY_REVERT (R45): A write of revert to APPLY copies the live values over the staged copy. -/
  | applyRevert (src : Source) (addr : Nat)
  /-- APPLY_TAKE_EFFECT (R47): At a domain's or suite member's safe boundary, the checked snapshot becomes live in one cycle and pending clears after the last member. -/
  | applyTakeEffect (addr : Nat)
  /-- APPLY_TIMEOUT (R49): No safe boundary comes within 10 ms of an accepted go, so the apply is withdrawn with reason 0x08. -/
  | applyTimeout (addr : Nat)
  /-- POWER_ON (R53): VDD_AON rises and the power-on reset resets everything except the fuses and the keepsake store. -/
  | powerOn
  /-- POWER_LOSS (R462): VDD_AON falls below 0.68 V for more than 1 µs, which ends every state of the device. -/
  | powerLoss
  /-- PIN_CHIP_RESET (R53): SYS_RST_N goes low and resets everything outside the AON domain. -/
  | pinChipReset
  /-- SYS_RST_N_RISE (R57): SYS_RST_N rises; the device waits for a valid 32.768 kHz clock before it releases itself. -/
  | sysRstNRise
  /-- INTERNAL_RELEASE (R57): The AON clock detector reports a valid clock, and the internal release starts the start-up sequence of Table 3-7. -/
  | internalRelease
  /-- SOFTWARE_CHIP_RESET (R53): A write of go with key 0x5AFE to GLOBAL.CHIP_RESET starts a software chip reset. -/
  | softwareChipReset (src : Source) (key : Nat)
  /-- PERST_N_ASSERT (R56): PERST_N goes low; the endpoint and DMA engine are reset and punts are dropped. -/
  | perstNAssert
  /-- PERST_N_RELEASE (R56): PERST_N rises and the endpoint answers configuration requests within 100 ms. -/
  | perstNRelease
  /-- STACK0_TRAINING_COMPLETE (R64): The housekeeper finishes training HBM stack 0 at start-up, so the strongroom can copy images. -/
  | stack0TrainingComplete
  /-- SLOT_CHECK_COMPLETE (R62): The copy and checks of a boot slot or host image end, with a pass or a failure that leads to fallback or to waiting for the host. -/
  | slotCheckComplete (read : Option Image) (sigs : ImageSigs)
  /-- IMAGE_HANDOVER (R43): At E0 the strongroom hands the verified image to the housekeeper, which checks every section and record and starts the apply sequence. -/
  | imageHandover (img : Image)
  /-- IMAGE_APPLY_COMPLETE (R44): The apply sequence ends: presets are applied, LK fields are locked, state becomes applied, innkeepers switch to quotas and the staging area is zero-filled. -/
  | imageApplyComplete
  /-- FULL_TRAINING_COMPLETE (R355): A full training of an HBM stack completes after PLL lock. -/
  | fullTrainingComplete (m : Nat) (failed : List Nat)
  /-- STRONGROOM_TAMPER (R68): A voltage or clock glitch detector fires; the strongroom zeroises and halts. -/
  | strongroomTamper
  /-- STRONGROOM_SELFTEST (R68): A known-answer test or TRNG continuous test fails; the strongroom zeroises and halts. -/
  | strongroomSelftest
  /-- TRNG_HEALTH (R69): A TRNG health failure after start-up makes GET_RANDOM and DEBUG_CHALLENGE return status 0x0B. -/
  | trngHealth
  /-- TRNG_HEALTH_RECOVER (R69): The TRNG health tests pass again and random commands are served. -/
  | trngHealthRecover
  /-- GET_INFO (R73): A mailbox command that returns versions, the unique ID, the attestation key and the fuse summary. -/
  | getInfo (ch len seq : Nat)
  /-- GET_RANDOM (R73): A mailbox command that returns the requested number of DRBG bytes. -/
  | getRandom (ch len seq : Nat)
  /-- GET_BOOT_REPORT (R73): A mailbox command that returns the applied image hash, the slot, the patch IDs and the customer-region hash. -/
  | getBootReport (ch len seq : Nat)
  /-- ENROL_CUSTOMER_KEY (R70): A mailbox command that verifies a token and blows a customer key hash, blowing the enrolled bit last. -/
  | enrolCustomerKey (ch len seq : Nat) (verdict : TokenCheck) (blown : Nat)
  /-- REVOKE_CUSTOMER_KEY (R70): A mailbox command that verifies a token and blows a customer slot's revoked bit. -/
  | revokeCustomerKey (ch len seq : Nat) (verdict : TokenCheck) (blown : Nat)
  /-- ADVANCE_EPOCH (R74): A mailbox command that blows anti-rollback bits up to the applied image's version. -/
  | advanceEpoch (ch len seq : Nat) (blown : Nat)
  /-- DEBUG_CHALLENGE (R71): A mailbox command that returns a 48-byte nonce for a debug level. -/
  | debugChallenge (ch len seq : Nat)
  /-- DEBUG_RESPONSE (R71): A mailbox command that verifies a signed response and unlocks debug level A or B until the next chip reset. -/
  | debugResponse (ch len seq : Nat) (verdict : TokenCheck)
  /-- SET_BOOT_SLOT (R74): A mailbox command that writes the preferred boot slot into the keepsake store. -/
  | setBootSlot (ch len seq : Nat)
  /-- BOOT_FROM_HOST (R74): A mailbox command that takes one chunk of a host image and, on the last chunk, starts verification. -/
  | bootFromHost (ch len seq : Nat)
  /-- SELF_TEST (R73): A mailbox command that runs the strongroom self-tests and returns the results. -/
  | selfTest (ch len seq : Nat) (pass : Bool)
  /-- ATTEST (R73): A mailbox command that signs a nonce and the boot report with the attestation key. -/
  | attest (ch len seq : Nat)
  /-- MAILBOX_COMPLETE (R72): A mailbox command finishes; the response is in the data area, busy clears and done is set. -/
  | mailboxComplete (ch : Nat)
  /-- CONTROL_FIRMWARE_CHECK (R443): The strongroom finishes copying and verifying the control firmware of a slot, or falls back to the other slot. -/
  | controlFirmwareCheck (pass : Bool)
  /-- LANE_TX_EQ_WRITE (R77): A write of transmit taps is ignored when they sum to more than 63, and otherwise takes effect within 1 µs. -/
  | laneTxEqWrite (src : Source) (q : Nat) (data : Word)
  /-- LANE_TEST_WRITE (R78): A write of prbs takes effect only while the port's enable is 0. -/
  | laneTestWrite (src : Source) (q prbs : Nat)
  /-- LANE_SIGNAL_CHANGE (R76): A lane gains or loses receive signal and starts or stops receive adaptation. -/
  | laneSignalChange (q : Nat) (present : Bool)
  /-- LANE_ADAPT_COMPLETE (R76): Receive adaptation of a lane completes. -/
  | laneAdaptComplete (q : Nat)
  /-- FEC_UNCORRECTABLE_CODEWORD (R79): RS-FEC finds a codeword uncorrectable, marks its blocks as errors and counts it. -/
  | fecUncorrectableCodeword (q : Nat)
  /-- FEC_DEGRADE_WINDOW (R80): A lane's 1 ms window ends and its corrected symbols are compared with the threshold. -/
  | fecDegradeWindow (q : Nat) (corrected : FecWindow)
  /-- PCS_STATUS_CHANGE (R81): rx_aligned, local_fault or remote_fault changes, which starts or breaks the debounce or settle time. -/
  | pcsStatusChange (p : Nat) (aligned localFault remoteFault : Bool)
  /-- LINK_DOWN (R83): Link-down is declared after debounce; the port's queues enter hold and the hold timer starts. -/
  | linkDown (p : Nat)
  /-- LINK_UP (R85): Link-up is declared after settle; hold clears and service resumes, or flushed clears. -/
  | linkUp (p : Nat)
  /-- HOLD_EXPIRY (R86): A port's hold timer expires with the link down, so every queue is flushed and flushed is set. -/
  | holdExpiry (p : Nat)
  /-- RX_FRAME_START (R128): A frame's first byte arrives; it is stamped and held in the ingress staging buffer or the wake store, or dropped when the buffer is full. -/
  | rxFrameStart (p : Nat) (head : List Byte)
  /-- RX_FRAME_END (R238): A frame's last byte arrives; frame_len, the FCS and oversize results are known and are applied to the frame, the policer and the learn request. -/
  | rxFrameEnd (p : Nat) (rest : List Byte) (good : Bool)
  /-- PAUSE_FRAME_RECEIVED (R99): A received pause or PFC frame pauses or unpauses egress classes and is consumed. -/
  | pauseFrameReceived (p : Nat) (bytes : List Byte)
  /-- PAUSE_EXPIRY (R99): A received pause's quanta run out and the class is unpaused. -/
  | pauseExpiry (p cls : Nat)
  /-- XOFF_SEND (R98): A due XOFF is sent ahead of the port's next frame. -/
  | xoffSend (p : Nat)
  /-- XON_SEND (R98): A due XON with zero quanta is sent ahead of the port's next frame. -/
  | xonSend (p : Nat)
  /-- XOFF_REFRESH (R97): refresh_quanta pass while an XOFF still stands, so the XOFF is due again. -/
  | xoffRefresh (p cls : Nat)
  /-- PFC_STORM_DETECT (R100): A class has stayed paused for storm_ms, so received pause for it is ignored for recover_ms. -/
  | pfcStormDetect (p cls : Nat)
  /-- PFC_STORM_RECOVER (R100): recover_ms ends and received pause for the class is honoured again. -/
  | pfcStormRecover (p cls : Nat)
  /-- LPI_ENTRY (R94): The port's queues have been empty for idle_us, and the transmitter enters low-power idle. -/
  | lpiEntry (p : Nat)
  /-- LPI_WAKE_COMPLETE (R95): The transmit wake time passes after an enqueue, and the first frame may start. -/
  | lpiWakeComplete (p : Nat)
  /-- PEER_LPI_CHANGE (R96): The peer enters or leaves low-power idle and rx_lpi follows. -/
  | peerLpiChange (p : Nat) (lpi : Bool)
  /-- DISPATCH (R105): A frame with 192 bytes or its whole length arrived is given to a free porter thread and stamped with the newest accord slot. -/
  | dispatch (s n th frame : Nat)
  /-- MICROWORD (R131): A porter thread issues one microword, which reads, compares, applies ops, advances the cursor, then branches or ends the thread. -/
  | microword (s n th : Nat)
  /-- THREAD_RELEASE (R108): A thread that ended enters the release queue when an entry is free, and the thread becomes free. -/
  | threadRelease (s n th : Nat)
  /-- RELEASE_TO_PIPES (R108): The release queue passes a frame to the lookup pipes once every earlier frame of its port has passed on. -/
  | releaseToPipes (s : Nat)
  /-- PORTER_STALL (R123): A porter retires no microword for 1 µs while a thread holding a frame is not waiting, so it fails with cause 0x2. -/
  | porterStall (s n : Nat)
  /-- PORTER_RETIRE (R123): A write of go to SLICE.PORTER_RETIRE retires the named active porter with cause 0x3, or is refused. -/
  | porterRetire (src : Source) (s n : Nat)
  /-- SPARE_STORE_CHECK_COMPLETE (R125): The spare's store CRC check ends; a pass continues the failover, and a fail marks the spare failed and tries the other. -/
  | spareStoreCheckComplete (s n : Nat) (upsets : List (Nat × Entry))
  /-- SPARE_TAKEOVER (R123): The failed porter's live copy has been written into the spare, which becomes active and takes dispatch. -/
  | spareTakeover (s n : Nat)
  /-- STORE_CHECK (R146): A write of go to STORE_CHECK starts a CRC check of a porter's store through its second port. -/
  | storeCheck (src : Source) (s n : Nat)
  /-- STORE_CHECK_COMPLETE (R146): A store check ends with match or mismatch; a mismatch is recorded and fails a spare. -/
  | storeCheckComplete (s : Nat) (upsets : List (Nat × Entry))
  /-- LOOKUP (R177): The pipe issues a frame's exact-match, LPM and TCAM lookups under its accord slot. -/
  | lookup (s frame : Nat) (upsets : List (Nat × Key))
  /-- TCAM_REPEAT_SEARCH (R218): After a false hit the search is repeated in the pipe's next slot with the entry excluded, and the frame is dropped after a fourth false hit. -/
  | tcamRepeatSearch (s frame : Nat)
  /-- TCAM_ROW_REWRITE (R218): A falsely hitting row is rewritten from its stored copy in the bank's next free slot. -/
  | tcamRowRewrite (s : Nat)
  /-- LPM_HELD_PROBE (R206): A held LPM lookup issues its next probe in a cycle with a probe free and completes when it matches or runs out. -/
  | lpmHeldProbe (h : Nat)
  /-- ACTION_RESOLUTION (R224): When all lookups are complete, the resolver merges the results into one verdict, colours the frame and writes the verdict into the waybill. -/
  | actionResolution (s frame : Nat)
  /-- LEARN_REQUEST (R188): A learn request, once the frame's FCS is known, is filtered, rate-limited and queued, or discarded. -/
  | learnRequest (s frame : Nat)
  /-- LEARN_INSERT (R189): The learning engine inserts a queued learn as a learned entry and posts a record to the learn FIFO. -/
  | learnInsert (s : Nat)
  /-- LEARN_MOVE (R190): A source hit on a learned entry with another destination rewrites its result in place and posts a moved record. -/
  | learnMove (s : Nat)
  /-- AGER_VISIT (R194): The ager visits a learned entry; it clears hit or ages the entry, and removes it at limit. -/
  | agerVisit (s index : Nat)
  /-- EM_READ (R179): An exact-match window READ returns an entry's body, state and sequence number. -/
  | emRead (src : Source) (s : Nat)
  /-- EM_SEARCH (R179): An exact-match window SEARCH returns the entry that the newest accord would return. -/
  | emSearch (src : Source) (s : Nat)
  /-- EM_SEARCH_PENDING (R179): An exact-match window SEARCH_PENDING searches under the pending accord. -/
  | emSearchPending (src : Source) (s : Nat)
  /-- EM_INSERT (R181): An exact-match window INSERT places an entry, with a chain of moves or overflow if needed. -/
  | emInsert (src : Source) (s : Nat)
  /-- EM_WRITE_IF_SEQ (R477): An exact-match window WRITE_IF_SEQ writes an entry in place when its sequence number matches. -/
  | emWriteIfSeq (src : Source) (s : Nat)
  /-- EM_LEARN (R191): An exact-match window LEARN hands a software learn to the learning engine. -/
  | emLearn (src : Source) (s : Nat)
  /-- EM_UNLEARN (R179): An exact-match window UNLEARN removes the learned entry of a key. -/
  | emUnlearn (src : Source) (s : Nat)
  /-- EM_FLUSH_PORT (R179): An exact-match window FLUSH_PORT removes every learned entry with the given destination. -/
  | emFlushPort (src : Source) (s : Nat)
  /-- EM_HOLD_FIRST (R179): An exact-match window HOLD_FIRST keeps a first half for the next pair operation. -/
  | emHoldFirst (src : Source) (s : Nat)
  /-- OVERFLOW_RETURN (R185): On spare cycles the engine moves an overflow entry back to a bucket with room. -/
  | overflowReturn (s index : Nat)
  /-- BD_READ (R193): A bridge domain window READ returns an entry. -/
  | bdRead (src : Source) (s : Nat)
  /-- BD_WRITE (R193): A bridge domain window WRITE writes an entry, which holds for every lookup that starts after it lands. -/
  | bdWrite (src : Source) (s : Nat)
  /-- LPM_READ (R208): An LPM entry window READ returns a slot and its sequence number. -/
  | lpmRead (src : Source) (h : Nat)
  /-- LPM_SEARCH (R208): An LPM entry window SEARCH finds an entry by context, length and prefix under the newest accord. -/
  | lpmSearch (src : Source) (h : Nat)
  /-- LPM_SEARCH_PENDING (R208): An LPM entry window SEARCH_PENDING searches under the pending accord. -/
  | lpmSearchPending (src : Source) (h : Nat)
  /-- LPM_INSERT (R208): An LPM entry window INSERT places an entry in a home line with room, without moves. -/
  | lpmInsert (src : Source) (h : Nat)
  /-- LPM_WRITE_IF_SEQ (R208): An LPM entry window WRITE_IF_SEQ writes slots in place when the line's sequence number matches. -/
  | lpmWriteIfSeq (src : Source) (h : Nat)
  /-- FILTER_READ (R209): A filter window READ returns a filter entry. -/
  | filterRead (src : Source) (h : Nat) (v6 : Bool)
  /-- FILTER_WRITE (R209): A filter window WRITE writes a filter entry whole. -/
  | filterWrite (src : Source) (h : Nat) (v6 : Bool)
  /-- SET_RANGE (R209): A filter window SET_RANGE ORs a length bit into consecutive entries. -/
  | setRange (src : Source) (h : Nat) (v6 : Bool)
  /-- CLEAR_RANGE (R209): A filter window CLEAR_RANGE clears a length bit in consecutive entries. -/
  | clearRange (src : Source) (h : Nat) (v6 : Bool)
  /-- READ_PART (R215): A TCAM window READ_PART returns one part of an entry and its sequence number. -/
  | readPart (src : Source) (s : Nat)
  /-- LOAD_PART (R215): A TCAM window LOAD_PART holds one part for the next WRITE_IF_SEQ. -/
  | loadPart (src : Source) (s : Nat)
  /-- TCAM_WRITE_IF_SEQ (R215): A TCAM window WRITE_IF_SEQ writes the held parts to an entry when the sequence number matches. -/
  | tcamWriteIfSeq (src : Source) (s : Nat)
  /-- TCAM_SEARCH (R215): A TCAM window SEARCH searches a held key in a table under the newest accord. -/
  | tcamSearch (src : Source) (s : Nat)
  /-- TCAM_WRITE_SLOT (R216): A TCAM entry write takes a search slot that no pipe needs and writes the row and its stored copy. -/
  | tcamWriteSlot (s : Nat)
  /-- TCAM_SCRUB_READ (R220): The TCAM scrubber reads a row in a free slot, compares it with its copy and rewrites it if it differs. -/
  | tcamScrubRead (s bank entry : Nat) (upset : Key)
  /-- WINDOW_COMMAND_COMPLETE (R436): An indirect window command finishes; results and code are written and busy clears. -/
  | windowCommandComplete (base : Nat)
  /-- ACCORD_OPEN (R158): An open in ACCORD_CMD binds a pending accord P to a held latchkey. -/
  | accordOpen (src : Source) (data : Word)
  /-- ACCORD_COMMIT (R161): A commit in ACCORD_CMD makes the state committing, and it stalls when no slot is free. -/
  | accordCommit (src : Source)
  /-- COMMIT_TAKE_EFFECT (R161): Once a slot is free and the 4 µs gap has passed, P takes the lowest free slot and becomes newest. -/
  | commitTakeEffect
  /-- ACCORD_WITHDRAW (R162): A withdraw of a stalled commit returns the state to open with the log intact. -/
  | accordWithdraw (src : Source)
  /-- ACCORD_DISCARD (R164): A discard from the bound latchkey's holder starts restoring the logged entries. -/
  | accordDiscard (src : Source)
  /-- DISCARD_COMPLETE (R164): The log walk ends; the log empties, discarded is set and the state returns to idle. -/
  | discardComplete
  /-- ACCORD_RETIRE (R153): An accord that is not the newest and has a zero in-flight count retires and frees its slot. -/
  | accordRetire (slot : Nat)
  /-- ACCORD_DRAIN_SLOW (R157): A draining accord exceeds alert_ms without retiring, so drain_slow is set and recorded. -/
  | accordDrainSlow (slot : Nat)
  /-- ACCORD_DRAIN_WRITE (R157): A write of alert_ms takes effect at once for every draining accord. -/
  | accordDrainWrite (src : Source) (data : Word)
  /-- ACCORD_RETIRED_READ (R10): A read of ACCORD_RETIRED pops the oldest retirement from its 32-entry FIFO. -/
  | accordRetiredRead (src : Source)
  /-- SETTLER_VISIT (R166): The settler compare-and-writes an entry, settling valid_from or clearing an ended entry. -/
  | settlerVisit (place : SettlePlace)
  /-- OBJECT_READ (R227): An object window READ returns a next-hop, group, meter, mirror session, edit script or copy entry. -/
  | objectRead (src : Source) (base : Nat)
  /-- OBJECT_WRITE (R227): An object window WRITE writes an object whole between two reads. -/
  | objectWrite (src : Source) (base : Nat)
  /-- RESET_BUCKETS (R230): A meter window RESET_BUCKETS fills both buckets to their bursts. -/
  | resetBuckets (src : Source) (s : Nat)
  /-- GROUP_HEAD_READ (R252): A group head window READ returns a head entry. -/
  | groupHeadRead (src : Source) (s : Nat)
  /-- GROUP_HEAD_WRITE_IF_SEQ (R252): A group head window WRITE_IF_SEQ writes a versioned head entry, judged by the accord engine. -/
  | groupHeadWriteIfSeq (src : Source) (s : Nat)
  /-- CELL_SEND (R242): The ingress slice sends a cell on a plane link when it holds credits for every destination. -/
  | cellSend (s k : Nat)
  /-- PLANE_CELL_ARRIVAL (R244): A plane port receives a cell, checks its crc and link_seq, and queues it for each destination output. -/
  | planeCellArrival (k s : Nat) (damaged : Bool)
  /-- PLANE_CELL_FORWARD (R243): A plane output sends a buffered cell to its slice and returns the sender's credit. -/
  | planeCellForward (k s : Nat) (poisoned : Bool)
  /-- SLICE_CELL_ARRIVAL (R251): A slice receives a cell; it checks and reassembles it, and on a first cell admits the frame, walks the copy list and places copies in queues. -/
  | sliceCellArrival (s k : Nat) (damaged : Bool)
  /-- LINK_ACK (R244): A sender receives an acknowledgement and frees replay buffer entries. -/
  | linkAck (k s : Nat) (up : Bool) (seq : Nat)
  /-- RESEND_REQUEST (R244): A sender receives a re-send request and sends again from the named link_seq. -/
  | resendRequest (k s : Nat) (up : Bool) (seq : Nat)
  /-- FABRIC_CRC_WINDOW (R244): A link direction's 1 ms window ends and its bad cells are compared with crc_alarm. -/
  | fabricCrcWindow (k s : Nat) (up : Bool)
  /-- LINK_LOSS_OF_LOCK (R245): A plane link loses lock, so the plane fails with cause 0x5. -/
  | linkLossOfLock (k s : Nat) (up : Bool)
  /-- PLANE_PLL_LOSS (R249): A plane's fabric PLL loses lock, so the plane fails with cause 0x3. -/
  | planePllLoss (k : Nat)
  /-- BARRIER_RECEIVED (R248): A barrier from a source on a draining plane arrives and may release held new-epoch frames. -/
  | barrierReceived (s src k : Nat)
  /-- BARRIER_WAIT_EXPIRY (R248): drain_us passes for held frames, so old-epoch incomplete frames are discarded and the held frames go on. -/
  | barrierWaitExpiry (s src : Nat)
  /-- PLANE_RETIRE (R250): A retire in PLANE_CMD makes the plane draining and re-pins. -/
  | planeRetire (src : Source) (k : Nat)
  /-- PLANE_RESTORE (R250): A restore in PLANE_CMD makes a failed or retired plane up and re-pins. -/
  | planeRestore (src : Source) (k : Nat)
  /-- PLANE_DRAIN_COMPLETE (R250): A draining plane holds no cell, or drain_us plus 5 µs pass, and it becomes retired. -/
  | planeDrainComplete (k : Nat)
  /-- COACH_HEAD_ENQUEUE (R257): The head of a coach FIFO becomes ready and is enqueued to its port. -/
  | coachHeadEnqueue (p : Nat)
  /-- COACH_TIMEOUT (R257): A coach copy waits beyond max_wait_us and is dropped. -/
  | coachTimeout (p : Nat)
  /-- CELL_ALLOC (R266): An ALLOC makes a free cell allocated to the requester when caps and others' minima allow. -/
  | cellAlloc (h req : Nat) (listError : Bool)
  /-- CELL_SHARE (R263): A SHARE by the lodger raises a cell's count after the pointer checks. -/
  | cellShare (h req addr n : Nat)
  /-- CELL_HANDOVER (R263): A HANDOVER by the lodger names another requester of the half as lodger. -/
  | cellHandover (h req addr dest : Nat)
  /-- CELL_FREE (R263): A FREE by the lodger lowers a cell's count and frees the cell at zero. -/
  | cellFree (h req addr : Nat)
  /-- CELL_READ (R278): A cell window READ returns a cell record. -/
  | cellRead (src : Source) (h : Nat)
  /-- RECLAIM (R278): A cell window RECLAIM frees a cell whatever its count and lodger. -/
  | reclaim (src : Source) (h : Nat)
  /-- BPM_PORT_ERR (R276): A parity error on a requester's path to the innkeeper is recorded and by default resets that requester. -/
  | bpmPortErr (h req : Nat)
  /-- REQUESTER_RECLAIM_COMPLETE (R275): After a requester's block reset, all its cells, bundles and reservations have been freed. -/
  | requesterReclaimComplete (h req : Nat)
  /-- RECOVERY_END (R265): recover_us after a release passes, and the requester or half returns from its minimum to its quota. -/
  | recoveryEnd (h req : Nat)
  /-- FREE_LIST_REBUILD (R277): In half recovery the innkeeper rebuilds the free list from the cell records. -/
  | freeListRebuild (h : Nat)
  /-- SPILL_BUNDLE_WRITE (R269): A bundle with eight cells of spillable frames is written to HBM. -/
  | spillBundleWrite (h queue : Nat)
  /-- SPILL_BUNDLE_TIMER (R269): 1 µs passes with no further spillable frame, so a partly filled bundle is padded and written. -/
  | spillBundleTimer (h queue : Nat)
  /-- SPILL_WRITE_COMPLETE (R269): A bundle write completes; its cells are freed and the bundle is charged to the requester. -/
  | spillWriteComplete (h bundle : Nat)
  /-- SPILL_FETCH (R270): A queue below its fetch mark fetches its oldest bundle, allocating cells under R266. -/
  | spillFetch (h queue : Nat)
  /-- BUNDLE_READ_COMPLETE (R273): A bundle read returns; its cells are back on die, or frames with a poisoned bundle are dropped. -/
  | bundleReadComplete (h bundle : Nat) (poisoned : Bool)
  /-- SCHEDULING_DECISION (R283): The scheduler chooses the next frame for a port down the note tree, charges tags and buckets, decides cut-through and starts transmission. -/
  | schedulingDecision (p : Nat)
  /-- SHAPER_CONFORM (R287): A shaped node's bucket refills to zero and the node becomes eligible again. -/
  | shaperConform (s node : Nat)
  /-- TX_FRAME_END (R152): A copy's last byte leaves the port; its cell references are freed and its in-flight count falls. -/
  | txFrameEnd (p : Nat)
  /-- TX_UNDERRUN (R239): A cut-through copy's next cell has not arrived when the MAC needs it, so the frame is stomped. -/
  | txUnderrun (p : Nat)
  /-- SCHED_RECORD_READ (R296): A heart, top or queue window READ returns a record's staged or live copy. -/
  | schedRecordRead (src : Source) (base : Nat)
  /-- SCHED_RECORD_WRITE (R296): A heart, top or queue window WRITE lands in the record's staged copy. -/
  | schedRecordWrite (src : Source) (base : Nat)
  /-- QUEUE_STATUS_READ (R292): A queue status window READ returns a queue's cells, frames, bundles and start tag. -/
  | queueStatusRead (src : Source) (s : Nat)
  /-- GATE_EDGE (R305): A gate control list entry ends or a cycle starts, and the gate states change. -/
  | gateEdge (p : Nat)
  /-- GATE_BASE_TIME (R314): The list's base time is reached and admin_gates give way to the list. -/
  | gateBaseTime (p : Nat)
  /-- GCL_WRITE (R311): A write to a list entry or header takes effect on the shadow list, or is ignored on the active list. -/
  | gclWrite (src : Source) (addr : Nat) (data : Word)
  /-- GATE_SWAP_ARM (R312): A write of arm = 1 checks the shadow list and arms a swap, or refuses it. -/
  | gateSwapArm (src : Source) (p : Nat)
  /-- GATE_SWAP_CANCEL (R312): A write of arm = 0 cancels an armed swap. -/
  | gateSwapCancel (src : Source) (p : Nat)
  /-- GATE_SWAP (R313): At the swap instant the shadow list becomes active. -/
  | gateSwap (p : Nat)
  /-- TIME_BASE_TICK (R322): Each 8 ns tick advances every time base by its rate. -/
  | timeBaseTick
  /-- TB_NOW_READ (R324): An 8-byte read of TB_NOW_NS returns one tick's time and latches its seconds into TB_NOW_SEC. -/
  | tbNowRead (src : Source) (t : Nat)
  /-- TB_PPS_READ (R324): A read of TB_PPS_NS returns the capture, latches its seconds and clears fresh. -/
  | tbPpsRead (src : Source) (t : Nat)
  /-- TB_HOLDOVER (R326): steer_timeout_ms passes without an accepted go, so the base enters holdover and it is recorded. -/
  | tbHoldover (t : Nat)
  /-- TB_REF_LOSS (R327): The 10 MHz input shows no edge for 1 µs, so the time-base PLL holds its frequency. -/
  | tbRefLoss
  /-- TB_REF_SELECT (R327): A write of ref_sel makes the time-base PLL lock again to the selected reference. -/
  | tbRefSelect (src : Source) (sel : Bool)
  /-- TB_PLL_LOCK (R327): The time-base PLL locks to its reference again. -/
  | tbPllLock
  /-- PPS_IN_EDGE (R338): A 1PPS input rising edge is captured in every time base. -/
  | ppsInEdge
  /-- PPS_OUT_PULSE (R337): An enabled PPS output rises comp ns before its time base's whole second. -/
  | ppsOutPulse (output : Nat)
  /-- PPS_OUT_PULSE_END (R337): width_ms passes and the PPS output falls. -/
  | ppsOutPulseEnd (output : Nat)
  /-- HBM_REQUEST (R344): A requester asks a pseudo-channel arbiter for a grant. -/
  | hbmRequest (m pc req addr : Nat) (write : Bool) (beats : Nat) (data : List Byte)
  /-- HBM_ARB_DECISION (R345): The arbiter grants the highest-priority waiting requester, or pre-empts the holder for an emergency. -/
  | hbmArbDecision (m pc : Nat)
  /-- HBM_TRANSFER_COMPLETE (R343): A transfer completes with its ECC check, and the requester drops its request. -/
  | hbmTransferComplete (m pc : Nat) (errors : List (Nat × Bool))
  /-- HBM_ARB_STARVE (R349): A requester waits longer than starve_us, and it is recorded. -/
  | hbmArbStarve (m pc req : Nat)
  /-- REFRESH_OWED_TICK (R350): Each 3.9 µs (1.95 µs when hot), every bank's owed-refresh count rises. -/
  | refreshOwedTick (m : Nat)
  /-- PER_BANK_REFRESH (R350): The refresh engine refreshes an idle bank that owes refresh. -/
  | perBankRefresh (m pc bank : Nat)
  /-- REFRESH_EMERGENCY (R352): A bank owes 8, so the refresh engine pre-empts the holder and refreshes the bank. -/
  | refreshEmergency (m pc bank : Nat)
  /-- HBM_TEMP_READ (R350): The controller reads the stack temperature every 1 ms. -/
  | hbmTempRead (m temp : Nat)
  /-- ROW_HAMMER_THROTTLE_END (R353): rh_hold_ms passes and the throttle of a requester ends. -/
  | rowHammerThrottleEnd (m pc req : Nat)
  /-- ROW_HAMMER_WINDOW (R354): A 32 ms refresh window ends and the activation counts restart. -/
  | rowHammerWindow (m : Nat)
  /-- HBM_TRAIN (R355): A go in HBM_TRAIN starts a training in service of one or all pseudo-channels. -/
  | hbmTrain (src : Source) (m : Nat) (data : Word)
  /-- TRAINING_STEP_COMPLETE (R355): A training step ends and the housekeeper drops the grant until the next step. -/
  | trainingStepComplete (m pc : Nat) (pass : Bool)
  /-- HBM_FREQ (R356): A go in HBM_FREQ starts a frequency change, or defers or refuses it. -/
  | hbmFreq (src : Source) (m : Nat) (data : Word)
  /-- FREQ_CHANGE_START (R356): A deferred frequency change starts when its training step or copy ends. -/
  | freqChangeStart (m : Nat)
  /-- FREQ_CHANGE_COMPLETE (R356): A frequency change finishes its training at the new point, and grants resume. -/
  | freqChangeComplete (m : Nat)
  /-- SELF_REFRESH_ENTER (R358): An enter op in HBM_PWR puts the stack into self-refresh, or is refused. -/
  | selfRefreshEnter (src : Source) (m : Nat)
  /-- SELF_REFRESH_EXIT (R359): An exit op in HBM_PWR, or a waking request, takes the stack out of self-refresh. -/
  | selfRefreshExit (src : Source) (m : Nat)
  /-- SELF_REFRESH_ENTRY_COMPLETE (R358): Self-refresh entry ends with the PLL and PHY stopped. -/
  | selfRefreshEntryComplete (m : Nat)
  /-- SELF_REFRESH_EXIT_COMPLETE (R358): Self-refresh exit ends; the stack is ready and waiting requesters are granted. -/
  | selfRefreshExitComplete (m : Nat)
  /-- SELF_REFRESH_IDLE (R359): A woken stack makes no grant for sr_idle_us and returns to self-refresh. -/
  | selfRefreshIdle (m : Nat)
  /-- HBM_RETIRE (R360): A retire op in HBM_RETIRE, or a UE threshold, retires a pseudo-channel in order. -/
  | hbmRetire (src : Source) (m pc : Nat)
  /-- HBM_RETIRE_CLEAR (R363): A clear op in HBM_RETIRE removes a retirement record at the next start. -/
  | hbmRetireClear (src : Source) (m pc : Nat)
  /-- RELOCATION_COPY_COMPLETE (R361): An orderly relocation copy of a stack-0 share into the reserve ends. -/
  | relocationCopyComplete (m : Nat)
  /-- HBM_PLL_LOSS (R360): A stack's PLL or PHY loses lock, so every pseudo-channel is retired abruptly. -/
  | hbmPllLoss (m : Nat)
  /-- MEM_FILL (R373): A go in MEM_FILL starts a fill of a memory group range, or is refused. -/
  | memFill (src : Source) (data : Word)
  /-- FILL_COMPLETE (R373): A fill ends and sets the filled bit of each row it completed. -/
  | fillComplete (u : Nat)
  /-- SCRUB_READ (R374): The scrubber reads a word, writes back a correctable one, and logs errors. -/
  | scrubRead (u ecc byte bitpos : Nat)
  /-- MEM_REMAP (R377): A remap op in MEM_REMAP copies a row onto a spare while the memory stays in use. -/
  | memRemap (src : Source) (data : Word)
  /-- REMAP_COMPLETE (R377): The copy ends, the row maps to the spare and the remap is recorded in the keepsake store. -/
  | remapComplete (u : Nat)
  /-- MEM_REMAP_CLEAR (R379): A clear op in MEM_REMAP deletes a row's remap record at the next start. -/
  | memRemapClear (src : Source) (data : Word)
  /-- FIFO_SWAP (R380): A ping-pong FIFO swaps banks when the filling bank is full or swap_us has passed. -/
  | fifoSwap (f : Nat)
  /-- FIFO_FLUSH (R383): A write of flush to FIFO_CTRL requests that both banks be emptied. -/
  | fifoFlush (src : Source) (f : Nat)
  /-- FIFO_FLUSH_EFFECT (R383): At the producer's next item boundary the flush empties both banks. -/
  | fifoFlushEffect (f : Nat) (partway : Bool)
  /-- LEDGER_MESSAGE_ARRIVAL (R388): A checker's message reaches the ledger input queue, or is dropped or held by its checker. -/
  | ledgerMessageArrival (count : Nat)
  /-- LEDGER_RECORD_WRITE (R388): The ledger accepts a message, writes its record to the ring or overflow FIFO, updates FIRST and CAUSE, and carries out E, I and N. -/
  | ledgerRecordWrite
  /-- LEDGER_RECORDS_LOST (R390): records_lost has risen and the ring has room, so the ledger sends one LEDGER_RECORDS_LOST message. -/
  | ledgerRecordsLost
  /-- CONDITION_CLEARED (R393): A checker reports a condition kind's end, and the record is updated or a cleared record written. -/
  | conditionCleared (source kind : Nat)
  /-- REACTION_BLOCK_RESET (R394): A record's B reaction requests a block reset of its target at the reset controller. -/
  | reactionBlockReset
  /-- REACTION_CHIP_RESET (R395): A record's C reaction starts a ledger chip reset after any journal write. -/
  | reactionChipReset
  /-- JOURNAL_WRITE (R398): A record of severity 3 or above is written into the keepsake journal. -/
  | journalWrite
  /-- ERRN_RELEASE (R396): A write of errn_release to LEDGER_CTRL releases ERROR_N. -/
  | errnRelease (src : Source)
  /-- INJECTION_ARM (R400): A write of arm to LEDGER_INJ_CTRL makes a checker invert chosen check bits, or is refused. -/
  | injectionArm (src : Source) (data : Word)
  /-- INJECTION_DISARM (R400): A write of arm = 0 disarms an armed injection. -/
  | injectionDisarm (src : Source)
  /-- LATCHKEY_TAKE (R402): A read of LATCHKEY_TAKE acquires a free latchkey or reports its owner. -/
  | latchkeyTake (src : Source) (key : Nat)
  /-- LATCHKEY_RELEASE (R403): A write of release by the owner frees a latchkey and may discard a bound pending accord. -/
  | latchkeyRelease (src : Source) (key : Nat)
  /-- LATCHKEY_SUSPECT_CLEAR (R403): A write of 1 to suspect by the owner clears the latchkey's suspect bit. -/
  | latchkeySuspectClear (src : Source) (key : Nat)
  /-- LATCHKEY_BREAK (R405): A keyed write to LATCHKEY_BREAK releases a latchkey as an orphan. -/
  | latchkeyBreak (src : Source) (data : Word)
  /-- SLEEP_ENTRY (R409): The sleep conditions hold for sleep_idle_us, so the slice stops taking work and starts to sleep. -/
  | sleepEntry (s : Nat)
  /-- SLEEP_ENTRY_COMPLETE (R409): The slice PLLs stop and asleep is set. -/
  | sleepEntryComplete (s : Nat)
  /-- SLICE_WAKE (R411): A wake cause starts the wake of a sleeping or entering slice. -/
  | sliceWake (s : Nat)
  /-- WAKE_CMD (R410): A go in WAKE_CMD wakes the slices in its mask. -/
  | wakeCmd (src : Source) (mask : Nat)
  /-- WAKE_COMPLETE (R411): The slice's clocks run and state is restored; dispatch and scheduling resume and the wake store drains first. -/
  | wakeComplete (s : Nat)
  /-- PLL_PRIMARY_TIMEOUT (R411): The primary PLL set is not locked in time, so the backup set starts. -/
  | pllPrimaryTimeout (s : Nat)
  /-- WAKE_BACKUP_TIMEOUT (R411): The backup set is not locked after 20 µs, so the slice is held in reset. -/
  | wakeBackupTimeout (s : Nat)
  /-- NIGHT_WINDOW_START (R415): TB0 enters the night window, and with hbm_sleep the innkeepers are held and bundles fetched back. -/
  | nightWindowStart
  /-- NIGHT_SELF_REFRESH_ENTRY (R415): A held stack's spill use reaches 0, so the housekeeper writes an entry op. -/
  | nightSelfRefreshEntry (m : Nat)
  /-- SELF_REFRESH_RETRY (R415): A refused night entry is retried every 1 ms. -/
  | selfRefreshRetry (m : Nat)
  /-- NIGHT_WINDOW_END (R415): The night window ends, an exit op is written and the hold is released. -/
  | nightWindowEnd
  /-- AVS_STEP (R417): The housekeeper steps the VDD_CORE set point by 5 mV towards the plan's value. -/
  | avsStep
  /-- AVS_VERIFY (R418): 200 µs after a step, READ_VOUT verifies it, with retries and a stuck state on failure. -/
  | avsVerify (readback : PmbusAnswer)
  /-- AGEING_MONITOR_READ (R419): The housekeeper reads every ageing monitor once per second. -/
  | ageingMonitorRead (values : List Nat)
  /-- REPLAN (R419): replan_days pass and the housekeeper re-plans the set point table and schedules the items. -/
  | replan
  /-- REPLAN_ITEM (R419): A deferred re-plan item runs when its condition holds, and stops if a wake cause arrives. -/
  | replanItem (item : Nat)
  /-- THERMAL_SAMPLE (R422): The die sensors sample the junction temperature every 20 µs. -/
  | thermalSample (temps : List Nat)
  /-- SUPPLY_SAG (R424): VDD_NV or VDD_CORE falls below its threshold, which stops keepsake writes. -/
  | supplySag (rail : Nat)
  /-- KEEPSAKE_WRITES_RESUME (R424): 10 ms pass with both rails above their thresholds, and keepsake writes resume. -/
  | keepsakeWritesResume
  /-- KEEPSAKE_READ (R427): A keepsake window READ returns 32 bytes of a half-line. -/
  | keepsakeRead (src : Source)
  /-- KEEPSAKE_WRITE (R427): A keepsake window WRITE writes a half-line of the software area, or is refused. -/
  | keepsakeWrite (src : Source)
  /-- KEEPSAKE_LINE_WRITE (R426): A keepsake line write completes and, every 100 writes, the region's gap moves. -/
  | keepsakeLineWrite
  /-- BAR0_MALFORMED_ACCESS (R430): A BAR0 access of another size or alignment reads zero or is discarded, and is counted. -/
  | bar0MalformedAccess (src : Source) (addr size : Nat) (write : Bool)
  /-- VF_ACCESS_DENIED (R432): A virtual function's access without a grant reads zero or is discarded, and counts in vf_denied. -/
  | vfAccessDenied (n addr : Nat) (write : Bool)
  /-- PCIE_LINK_DOWN (R431): The PCIe link goes down without PERST_N, so descriptor fetches stop and punts are dropped. -/
  | pcieLinkDown
  /-- PCIE_LINK_UP (R431): The PCIe link comes up and the PCIE_LINK_DOWN condition ends. -/
  | pcieLinkUp
  /-- VF_FLR (R431): A function-level reset of a virtual function disables its rings and releases its latchkeys. -/
  | vfFlr (n : Nat)
  /-- IRQ_LINE_RISE (R434): An interrupt group's line rises, which sends an MSI-X message and raises the routed cores' inputs. -/
  | irqLineRise (g : Nat)
  /-- IRQ_REARM (R434): A write of IRQ_REARM sends a group's message again while its line is still 1. -/
  | irqRearm (src : Source) (data : Word)
  /-- RING_ENABLE (R437): A write of RING_CFG.enable starts a ring, or stops it and clears a halt. -/
  | ringEnable (src : Source) (r : Nat) (enable : Bool)
  /-- RING_PI_WRITE (R437): The host writes a punt or inject ring's producer index, making descriptors available. -/
  | ringPiWrite (src : Source) (r pi : Nat)
  /-- RING_CI_WRITE (R437): The host writes an event ring's consumer index, freeing entries. -/
  | ringCiWrite (src : Source) (r ci : Nat)
  /-- RING_IRQ_MODERATION (R437): mod_us passes after an unsignalled completion, and the ring's interrupt is raised. -/
  | ringIrqModeration (r : Nat)
  /-- PUNT_WRITE (R438): The DMA engine writes a punted frame and its waybill into descriptors, or drops it with a punt-event record. -/
  | puntWrite (s : Nat) (descs : List Descriptor)
  /-- INJECT_DESCRIPTOR_FETCH (R440): The DMA engine fetches an inject descriptor and checks it. -/
  | injectDescriptorFetch (r : Nat) (desc : Option Descriptor)
  /-- INJECT_FRAME_READ (R439): The injected frame has been read from host memory; it is stamped and placed in direct or pipeline mode. -/
  | injectFrameRead (r : Nat) (bytes : Option (List Byte))
  /-- EVENT_RECORD_WRITE (R441): The DMA engine writes a FIFO record into its event ring when the ring has room. -/
  | eventRecordWrite (f ecc : Nat)
  /-- CORE_RELEASE (R443): A write of 1 to a core's CC_CTRL.release bit releases that core. -/
  | coreRelease (src : Source) (core : Nat)
  /-- CORE_HOLD (R443): A write of 0 to a core's CC_CTRL.release bit holds that core in reset. -/
  | coreHold (src : Source) (core : Nat)
  /-- CORE_BUS_ERROR (R442): A core access outside the map, or a refused keepsake store, raises a bus error. -/
  | coreBusError (core addr : Nat) (write : Bool)
  /-- WATCHDOG_KICK (R444): A write of kick restarts a core's watchdog count. -/
  | watchdogKick (src : Source) (core : Nat)
  /-- WATCHDOG_EXPIRY (R444): A core's watchdog runs out and sends CORE_WATCHDOG. -/
  | watchdogExpiry (core : Nat)
  /-- MGMT_FRAME_RECEIVE (R445): A management MAC receives a frame and punts it to rx_ring. -/
  | mgmtFrameReceive (mac : Nat) (bytes : List Byte) (good : Bool)
  /-- MGMT_FRAME_SEND (R445): A management MAC sends a frame taken from tx_ring. -/
  | mgmtFrameSend (mac : Nat)
  /-- SWEEP_TRIGGER (R452): A go in SWEEP_CMD triggers a sweep list, or the trigger is skipped and counted. -/
  | sweepTrigger (src : Source) (list : Nat)
  /-- SWEEP_PERIOD_TIMER (R452): period_us passes and the list is triggered. -/
  | sweepPeriodTimer (list : Nat)
  /-- SWEEP_SECOND (R452): TB0 seconds advance and each list with on_second is triggered. -/
  | sweepSecond
  /-- SWEEP_START (R448): A waiting sweep starts when no other runs and reads its items into the buffer. -/
  | sweepStart
  /-- SWEEP_COMPLETE (R448): A sweep's reads finish and its last record is marked. -/
  | sweepComplete
  /-- SERDES_REFERENCE_LOSS (R466): A SerDes reference stops and takes down the links of its port groups. -/
  | serdesReferenceLoss (j : Nat)
  /-- SYSTEM_REFERENCE_LOSS (R466): The 25 MHz reference stops, which stops every PLL and leaves the device undefined. -/
  | systemReferenceLoss
  /-- SYSTEM_PLL_LOCK (R64): The system PLL locks within 20 µs of the internal release; the register bus and global block become readable and BOOT_STATUS.stage becomes 0x1. -/
  | systemPllLock
  /-- PLANE_LINK_LOCK (R250): A plane link regains lock in both directions and its bit in PLANE_STATUS.links_up is set, which a restore requires. -/
  | planeLinkLock (k s : Nat)
  /-- SERDES_REFERENCE_RETURN (R466): A stopped SerDes reference runs again, so the lanes of its port groups can lock, adapt and bring their links up. -/
  | serdesReferenceReturn (j : Nat)
  /-- GPIO_EDGE (R445): An edge on a GPIO input pin sets that pin's edge interrupt, which raises interrupt group 14. -/
  | gpioEdge (pin : Nat) (level : Bool)
deriving DecidableEq, Repr

end Sys2Proof
end

