-- ==== Sys2Proof/Decode.lean ====
section
/-! DEFINITION. The decoder of table words: spec/opcode_table.json gives no row any bits, so no word spells a command. -/

namespace Sys2Proof

/-- The command that the low `nbits` bits of `w` spell by the opcode table: none, as no row of the table has bits
(DESIGN CHOICE, notes/assumptions/9.md). -/
def decodeTableWord (_nbits _w : Nat) : Option Instr := none

end Sys2Proof
end

