-- ==== Sys2Proof/Config.lean ====
section
/-! DEFINITION. What the spec leaves open: values that nothing constrains. Each is an opaque constant applied to a counter of the
state (or to operands), so that no proof can see what it is. -/

namespace Sys2Proof.Config

/-- Data of a memory word that was never filled, or of a read that the spec leaves undefined (spec/17_memory_protection.md R371,
spec/16_hbm_controller.md R343): the n-th free entry (DESIGN CHOICE, notes/assumptions/8.md). -/
opaque freeEntry : Nat → Entry

/-- The n-th free byte of the strongroom's random generator, of a signature or of a report whose contents the spec does not give
(spec/03_boot_and_strongroom.md Table 3-14) (DESIGN CHOICE, notes/assumptions/8.md). -/
opaque freeByte : Nat → Byte

/-- SHA-384 of a byte string: a standard function outside the spec's text. -/
opaque sha384 : List Byte → BitVec 384

/-- Rows of a memory group whose size the spec does not state (spec/17_memory_protection.md Table 17-1, Table 17-3)
(DESIGN CHOICE, notes/assumptions/15.md). -/
opaque memRows : Nat → Nat

/-- One less than the highest scrub rate that a memory group can serve, in words per µs (R374): the spec gives no number
(DESIGN CHOICE, notes/assumptions/15.md). -/
opaque scrubLimit : Nat → Nat

/-- Least wake time of low-power idle that IEEE 802.3 allows for a port type, in units of 10 ns: the value stands outside the spec
(spec/04_ports_and_lanes.md, PORT_LPI.tw_10ns) (DESIGN CHOICE, notes/assumptions/6.md). -/
opaque lpiWake : Nat → Nat

/-- Bytes of the strongroom's ROM and firmware versions, and of its attestation public key: constants of a part that the spec does not
give (spec/03_boot_and_strongroom.md Table 3-14). -/
opaque romByte : Nat → Byte
opaque attestByte : Nat → Byte

/-- What a read returns at an address that the spec gives to two counters, from the value of each (spec/16_hbm_controller.md Table 16-8:
the pseudo-channel counters run into the stack counters) (DESIGN CHOICE, notes/assumptions/7.md). -/
opaque sharedCounter : Word → Word → Word

/-- The lookup pipe, 0 or 1 as its parity, that the n-th frame takes: the spec does not say how frames are shared between the two
(spec/08_exact_match.md R177) (DESIGN CHOICE, notes/assumptions/80.md). -/
opaque lookupPipe : Nat → Nat

/-- The level of the VIO_SEL pin at the n-th free choice: the board's (spec/22_pins_and_electrical.md R467)
(DESIGN CHOICE, notes/assumptions/28.md). -/
opaque vioSel : Nat → Bool

/-- The regulator of VDD_CORE answers VOUT_MODE with the linear format: a property of the board
(spec/19_housekeeper_power_ageing.md R416) (DESIGN CHOICE, notes/assumptions/59.md). -/
opaque linearVout : Bool

end Sys2Proof.Config
end

