-- ==== Sys2Proof/Machine/Regs.lean ====
section
/-! DEFINITION. The register map: for every register and counter of the spec's register tables its offset inside its window and
the places of its fields. Offsets and fields are those of the map and field tables of spec/00_scope.md to spec/21_counters.md
(Table 0-3, 1-5 to 1-8, 2-6 to 2-8, 3-3, 3-8, 3-12, 3-13, 4-1 to 4-23, 5-7 to 5-12, 6-12, 6-13, 7-5 to 7-16, 8-12 to 8-20,
9-4 to 9-9, 9-14 to 9-18, 10-4, 10-12, 10-15, 11-6 to 11-15, 12-3 to 12-9, 13-1 to 13-9, 14-1 to 14-9, 15-1 to 15-6, 16-8 to
16-12, 17-2 to 17-10, 18-7 to 18-9, 19-6 to 19-9, 20-3 to 20-7, 20-13, 21-2, 21-3). -/

namespace Sys2Proof.Machine

/-- A field of a register: the register's byte offset inside its window and the field's bit range `[hi:lo]`. -/
structure Fld where
  off : Nat
  hi : Nat
  lo : Nat
deriving DecidableEq, Repr

/-! Register offsets (relative to the register's window) and field places. -/

namespace R

/-- DEVICE_ID, width 32. -/
def DEVICE_ID : Nat := 0x0
def DEVICE_ID_part_number : Fld := ⟨0x0, 31, 16⟩
def DEVICE_ID_step_letter : Fld := ⟨0x0, 15, 12⟩
def DEVICE_ID_step_digit : Fld := ⟨0x0, 11, 8⟩
def DEVICE_ID_grade : Fld := ⟨0x0, 7, 4⟩
/-- UNIT_RESET, width 32. -/
def UNIT_RESET : Nat := 0x100
def UNIT_RESET_start : Fld := ⟨0x100, 31, 31⟩
def UNIT_RESET_scope : Fld := ⟨0x100, 17, 16⟩
def UNIT_RESET_unit_id : Fld := ⟨0x100, 15, 0⟩
/-- UNIT_RESET_STATUS, width 32. -/
def UNIT_RESET_STATUS : Nat := 0x104
def UNIT_RESET_STATUS_busy : Fld := ⟨0x104, 31, 31⟩
def UNIT_RESET_STATUS_held : Fld := ⟨0x104, 30, 30⟩
def UNIT_RESET_STATUS_reason : Fld := ⟨0x104, 23, 16⟩
def UNIT_RESET_STATUS_target : Fld := ⟨0x104, 15, 0⟩
/-- SUITE_QUERY, width 32. -/
def SUITE_QUERY : Nat := 0x110
def SUITE_QUERY_unit_id : Fld := ⟨0x110, 15, 0⟩
/-- SUITE_RESULT, width 32. -/
def SUITE_RESULT : Nat := 0x114
def SUITE_RESULT_in_suite : Fld := ⟨0x114, 31, 31⟩
def SUITE_RESULT_member_count : Fld := ⟨0x114, 30, 23⟩
def SUITE_RESULT_position : Fld := ⟨0x114, 22, 16⟩
def SUITE_RESULT_suite_id : Fld := ⟨0x114, 15, 0⟩
/-- CHIP_RESET, width 32. -/
def CHIP_RESET : Nat := 0x120
def CHIP_RESET_key : Fld := ⟨0x120, 31, 16⟩
def CHIP_RESET_go : Fld := ⟨0x120, 0, 0⟩
/-- IMAGE_STATUS, width 32. -/
def IMAGE_STATUS : Nat := 0x200
def IMAGE_STATUS_state : Fld := ⟨0x200, 31, 29⟩
def IMAGE_STATUS_profile : Fld := ⟨0x200, 28, 27⟩
def IMAGE_STATUS_customer_state : Fld := ⟨0x200, 26, 25⟩
def IMAGE_STATUS_reason : Fld := ⟨0x200, 23, 16⟩
def IMAGE_STATUS_section : Fld := ⟨0x200, 15, 8⟩
/-- IMAGE_VERSION, width 32. -/
def IMAGE_VERSION : Nat := 0x204
def IMAGE_VERSION_version : Fld := ⟨0x204, 31, 0⟩
/-- IMAGE_ACCORD, width 32. -/
def IMAGE_ACCORD : Nat := 0x208
def IMAGE_ACCORD_first : Fld := ⟨0x208, 15, 0⟩
/-- BOOT_STATUS, width 32. -/
def BOOT_STATUS : Nat := 0x210
def BOOT_STATUS_stage : Fld := ⟨0x210, 31, 28⟩
def BOOT_STATUS_slot_used : Fld := ⟨0x210, 27, 26⟩
def BOOT_STATUS_fallback : Fld := ⟨0x210, 25, 25⟩
def BOOT_STATUS_reset_cause : Fld := ⟨0x210, 23, 20⟩
def BOOT_STATUS_debug_fused : Fld := ⟨0x210, 19, 18⟩
def BOOT_STATUS_debug_open : Fld := ⟨0x210, 17, 16⟩
def BOOT_STATUS_reason_a : Fld := ⟨0x210, 15, 8⟩
def BOOT_STATUS_reason_b : Fld := ⟨0x210, 7, 0⟩
/-- MBX_CMD, width 32. -/
def MBX_CMD : Nat := 0x0
def MBX_CMD_go : Fld := ⟨0x0, 31, 31⟩
def MBX_CMD_req_len : Fld := ⟨0x0, 27, 16⟩
def MBX_CMD_seq : Fld := ⟨0x0, 15, 8⟩
def MBX_CMD_opcode : Fld := ⟨0x0, 7, 0⟩
/-- MBX_STATUS, width 32. -/
def MBX_STATUS : Nat := 0x4
def MBX_STATUS_busy : Fld := ⟨0x4, 31, 31⟩
def MBX_STATUS_done : Fld := ⟨0x4, 30, 30⟩
def MBX_STATUS_irq_en : Fld := ⟨0x4, 29, 29⟩
def MBX_STATUS_resp_len : Fld := ⟨0x4, 27, 16⟩
def MBX_STATUS_seq : Fld := ⟨0x4, 15, 8⟩
def MBX_STATUS_status : Fld := ⟨0x4, 7, 0⟩
/-- LANE_STATUS, width 32. -/
def LANE_STATUS : Nat := 0x0
def LANE_STATUS_signal_detect : Fld := ⟨0x0, 31, 31⟩
def LANE_STATUS_cdr_lock : Fld := ⟨0x0, 30, 30⟩
def LANE_STATUS_adapt_done : Fld := ⟨0x0, 29, 29⟩
def LANE_STATUS_block_lock : Fld := ⟨0x0, 28, 28⟩
def LANE_STATUS_fec_lock : Fld := ⟨0x0, 27, 27⟩
def LANE_STATUS_in_port : Fld := ⟨0x0, 26, 26⟩
def LANE_STATUS_rate : Fld := ⟨0x0, 25, 24⟩
/-- LANE_TX_EQ, width 32. -/
def LANE_TX_EQ : Nat := 0x4
def LANE_TX_EQ_pre2 : Fld := ⟨0x4, 29, 24⟩
def LANE_TX_EQ_pre1 : Fld := ⟨0x4, 21, 16⟩
def LANE_TX_EQ_main : Fld := ⟨0x4, 13, 8⟩
def LANE_TX_EQ_post1 : Fld := ⟨0x4, 5, 0⟩
/-- LANE_TEST, width 32. -/
def LANE_TEST : Nat := 0x8
def LANE_TEST_prbs : Fld := ⟨0x8, 1, 0⟩
/-- LANE_FEC_DEGRADE, width 32. -/
def LANE_FEC_DEGRADE : Nat := 0xC
def LANE_FEC_DEGRADE_symbols_per_ms : Fld := ⟨0xC, 23, 0⟩
/-- PORT_CTRL, width 32. -/
def PORT_CTRL : Nat := 0x0
def PORT_CTRL_lpi_enable : Fld := ⟨0x0, 2, 2⟩
def PORT_CTRL_pcs_loopback : Fld := ⟨0x0, 1, 1⟩
def PORT_CTRL_enable : Fld := ⟨0x0, 0, 0⟩
/-- PORT_STATUS, width 32. -/
def PORT_STATUS : Nat := 0x4
def PORT_STATUS_link_up : Fld := ⟨0x4, 31, 31⟩
def PORT_STATUS_rx_aligned : Fld := ⟨0x4, 30, 30⟩
def PORT_STATUS_local_fault : Fld := ⟨0x4, 29, 29⟩
def PORT_STATUS_remote_fault : Fld := ⟨0x4, 28, 28⟩
def PORT_STATUS_in_hold : Fld := ⟨0x4, 27, 27⟩
def PORT_STATUS_flushed : Fld := ⟨0x4, 26, 26⟩
def PORT_STATUS_tx_lpi : Fld := ⟨0x4, 25, 25⟩
def PORT_STATUS_rx_lpi : Fld := ⟨0x4, 24, 24⟩
def PORT_STATUS_paused : Fld := ⟨0x4, 23, 16⟩
def PORT_STATUS_xoff_sent : Fld := ⟨0x4, 15, 8⟩
/-- PORT_LINK_TIMING, width 32. -/
def PORT_LINK_TIMING : Nat := 0x8
def PORT_LINK_TIMING_settle_us : Fld := ⟨0x8, 31, 16⟩
def PORT_LINK_TIMING_debounce_us : Fld := ⟨0x8, 15, 0⟩
/-- PORT_HOLD, width 32. -/
def PORT_HOLD : Nat := 0xC
def PORT_HOLD_hold_us : Fld := ⟨0xC, 19, 0⟩
/-- PORT_FRAME, width 32. -/
def PORT_FRAME : Nat := 0x10
def PORT_FRAME_max_frame : Fld := ⟨0x10, 13, 0⟩
/-- PORT_DEFAULT, width 32. -/
def PORT_DEFAULT : Nat := 0x14
def PORT_DEFAULT_action : Fld := ⟨0x14, 31, 30⟩
def PORT_DEFAULT_default_vlan : Fld := ⟨0x14, 27, 16⟩
def PORT_DEFAULT_mirror_session : Fld := ⟨0x14, 15, 12⟩
def PORT_DEFAULT_punt_ring : Fld := ⟨0x14, 11, 0⟩
/-- PORT_LPI, width 32. -/
def PORT_LPI : Nat := 0x18
def PORT_LPI_tw_10ns : Fld := ⟨0x18, 29, 16⟩
def PORT_LPI_idle_us : Fld := ⟨0x18, 15, 0⟩
/-- PORT_FLOW, width 32. -/
def PORT_FLOW : Nat := 0x1C
def PORT_FLOW_mode : Fld := ⟨0x1C, 31, 30⟩
def PORT_FLOW_rx_en : Fld := ⟨0x1C, 23, 16⟩
def PORT_FLOW_tx_en : Fld := ⟨0x1C, 15, 8⟩
/-- PORT_FLOW_TIMING, width 32. -/
def PORT_FLOW_TIMING : Nat := 0x20
def PORT_FLOW_TIMING_tx_quanta : Fld := ⟨0x20, 31, 16⟩
def PORT_FLOW_TIMING_refresh_quanta : Fld := ⟨0x20, 15, 0⟩
/-- PORT_PFC_STORM, width 32. -/
def PORT_PFC_STORM : Nat := 0x24
def PORT_PFC_STORM_storm_ms : Fld := ⟨0x24, 31, 16⟩
def PORT_PFC_STORM_recover_ms : Fld := ⟨0x24, 15, 0⟩
/-- PORT_PE, width 32. -/
def PORT_PE : Nat := 0x28
def PORT_PE_cascade : Fld := ⟨0x28, 31, 31⟩
def PORT_PE_require_etag : Fld := ⟨0x28, 30, 30⟩
/-- PORT_EVENT, width 32. -/
def PORT_EVENT : Nat := 0x2C
def PORT_EVENT_pfc_storm : Fld := ⟨0x2C, 3, 3⟩
def PORT_EVENT_hold_expired : Fld := ⟨0x2C, 2, 2⟩
def PORT_EVENT_link_up : Fld := ⟨0x2C, 1, 1⟩
def PORT_EVENT_link_down : Fld := ⟨0x2C, 0, 0⟩
/-- PORT_EVENT_EN, width 32. -/
def PORT_EVENT_EN : Nat := 0x30
def PORT_EVENT_EN_pfc_storm : Fld := ⟨0x30, 3, 3⟩
def PORT_EVENT_EN_hold_expired : Fld := ⟨0x30, 2, 2⟩
def PORT_EVENT_EN_link_up : Fld := ⟨0x30, 1, 1⟩
def PORT_EVENT_EN_link_down : Fld := ⟨0x30, 0, 0⟩
/-- PORT_PFC_THRESH, width 32. -/
def PORT_PFC_THRESH : Nat := 0x40
def PORT_PFC_THRESH_xoff_8cells : Fld := ⟨0x40, 31, 16⟩
def PORT_PFC_THRESH_xon_8cells : Fld := ⟨0x40, 15, 0⟩
/-- PORT_MEMBER_UP, width 32. -/
def PORT_MEMBER_UP : Nat := 0x60
def PORT_MEMBER_UP_up : Fld := ⟨0x60, 31, 0⟩
/-- PORTER_STATUS, width 32. -/
def PORTER_STATUS : Nat := 0x0
def PORTER_STATUS_role : Fld := ⟨0x0, 31, 30⟩
def PORTER_STATUS_busy : Fld := ⟨0x0, 27, 24⟩
def PORTER_STATUS_partner : Fld := ⟨0x0, 15, 0⟩
/-- PORTER_PARSE, width 32. -/
def PORTER_PARSE : Nat := 0x4
def PORTER_PARSE_entry : Fld := ⟨0x4, 27, 16⟩
def PORTER_PARSE_loop_limit : Fld := ⟨0x4, 7, 0⟩
/-- PORTER_CHECK, width 32. -/
def PORTER_CHECK : Nat := 0x8
def PORTER_CHECK_window_us : Fld := ⟨0x8, 31, 16⟩
def PORTER_CHECK_fail_limit : Fld := ⟨0x8, 7, 0⟩
/-- PORTER_SUMMARY, width 32. -/
def PORTER_SUMMARY : Nat := 0x400100
def PORTER_SUMMARY_last_retire : Fld := ⟨0x400100, 31, 30⟩
def PORTER_SUMMARY_active_count : Fld := ⟨0x400100, 29, 24⟩
def PORTER_SUMMARY_spares_free : Fld := ⟨0x400100, 17, 16⟩
def PORTER_SUMMARY_failed_count : Fld := ⟨0x400100, 13, 8⟩
def PORTER_SUMMARY_last_index : Fld := ⟨0x400100, 5, 0⟩
/-- PORTER_RETIRE, width 32. -/
def PORTER_RETIRE : Nat := 0x400104
def PORTER_RETIRE_go : Fld := ⟨0x400104, 31, 31⟩
def PORTER_RETIRE_index : Fld := ⟨0x400104, 5, 0⟩
/-- STORE_CHECK, width 32. -/
def STORE_CHECK : Nat := 0x400108
def STORE_CHECK_go : Fld := ⟨0x400108, 31, 31⟩
def STORE_CHECK_busy : Fld := ⟨0x400108, 30, 30⟩
def STORE_CHECK_result : Fld := ⟨0x400108, 29, 28⟩
def STORE_CHECK_index : Fld := ⟨0x400108, 5, 0⟩
/-- STORE_CRC, width 32. -/
def STORE_CRC : Nat := 0x40010C
def STORE_CRC_crc : Fld := ⟨0x40010C, 31, 0⟩
/-- STORE_CRC_LAST, width 32. -/
def STORE_CRC_LAST : Nat := 0x400110
def STORE_CRC_LAST_crc : Fld := ⟨0x400110, 31, 0⟩
/-- ACCORD_CMD, width 32. -/
def ACCORD_CMD : Nat := 0x3000
def ACCORD_CMD_go : Fld := ⟨0x3000, 31, 31⟩
def ACCORD_CMD_op : Fld := ⟨0x3000, 30, 28⟩
def ACCORD_CMD_latchkey : Fld := ⟨0x3000, 5, 0⟩
/-- ACCORD_STATUS, width 32. -/
def ACCORD_STATUS : Nat := 0x3004
def ACCORD_STATUS_state : Fld := ⟨0x3004, 31, 29⟩
def ACCORD_STATUS_commit_stalled : Fld := ⟨0x3004, 28, 28⟩
def ACCORD_STATUS_suspect : Fld := ⟨0x3004, 27, 27⟩
def ACCORD_STATUS_log_full : Fld := ⟨0x3004, 26, 26⟩
def ACCORD_STATUS_result : Fld := ⟨0x3004, 23, 16⟩
def ACCORD_STATUS_pending : Fld := ⟨0x3004, 15, 0⟩
/-- ACCORD_NEWEST, width 32. -/
def ACCORD_NEWEST : Nat := 0x3008
def ACCORD_NEWEST_slot : Fld := ⟨0x3008, 17, 16⟩
def ACCORD_NEWEST_number : Fld := ⟨0x3008, 15, 0⟩
/-- ACCORD_OLDEST, width 32. -/
def ACCORD_OLDEST : Nat := 0x300C
def ACCORD_OLDEST_slot : Fld := ⟨0x300C, 17, 16⟩
def ACCORD_OLDEST_number : Fld := ⟨0x300C, 15, 0⟩
/-- ACCORD_SLOT, width 32. -/
def ACCORD_SLOT : Nat := 0x3010
def ACCORD_SLOT_live : Fld := ⟨0x3010, 31, 31⟩
def ACCORD_SLOT_newest : Fld := ⟨0x3010, 30, 30⟩
def ACCORD_SLOT_drain_slow : Fld := ⟨0x3010, 29, 29⟩
def ACCORD_SLOT_number : Fld := ⟨0x3010, 15, 0⟩
/-- ACCORD_INFLIGHT, width 32. -/
def ACCORD_INFLIGHT : Nat := 0x3020
def ACCORD_INFLIGHT_count : Fld := ⟨0x3020, 31, 0⟩
/-- ACCORD_DRAIN, width 32. -/
def ACCORD_DRAIN : Nat := 0x3030
def ACCORD_DRAIN_alert_ms : Fld := ⟨0x3030, 31, 16⟩
/-- ACCORD_LOG, width 32. -/
def ACCORD_LOG : Nat := 0x3034
def ACCORD_LOG_bound : Fld := ⟨0x3034, 30, 30⟩
def ACCORD_LOG_latchkey : Fld := ⟨0x3034, 29, 24⟩
def ACCORD_LOG_records : Fld := ⟨0x3034, 16, 0⟩
/-- ACCORD_EVENT, width 32. -/
def ACCORD_EVENT : Nat := 0x3038
def ACCORD_EVENT_drain_slow : Fld := ⟨0x3038, 4, 4⟩
def ACCORD_EVENT_refused : Fld := ⟨0x3038, 3, 3⟩
def ACCORD_EVENT_discarded : Fld := ⟨0x3038, 2, 2⟩
def ACCORD_EVENT_committed : Fld := ⟨0x3038, 1, 1⟩
def ACCORD_EVENT_retired : Fld := ⟨0x3038, 0, 0⟩
/-- ACCORD_EVENT_EN, width 32. -/
def ACCORD_EVENT_EN : Nat := 0x303C
def ACCORD_EVENT_EN_drain_slow : Fld := ⟨0x303C, 4, 4⟩
def ACCORD_EVENT_EN_refused : Fld := ⟨0x303C, 3, 3⟩
def ACCORD_EVENT_EN_discarded : Fld := ⟨0x303C, 2, 2⟩
def ACCORD_EVENT_EN_committed : Fld := ⟨0x303C, 1, 1⟩
def ACCORD_EVENT_EN_retired : Fld := ⟨0x303C, 0, 0⟩
/-- ACCORD_RETIRED, width 32. -/
def ACCORD_RETIRED : Nat := 0x3040
def ACCORD_RETIRED_valid : Fld := ⟨0x3040, 31, 31⟩
def ACCORD_RETIRED_overrun : Fld := ⟨0x3040, 30, 30⟩
def ACCORD_RETIRED_number : Fld := ⟨0x3040, 15, 0⟩
/-- ACCORD_REFUSAL, width 32. -/
def ACCORD_REFUSAL : Nat := 0x3044
def ACCORD_REFUSAL_rule : Fld := ⟨0x3044, 31, 29⟩
def ACCORD_REFUSAL_window : Fld := ⟨0x3044, 28, 0⟩
/-- ACCORD_REFUSAL_INDEX, width 32. -/
def ACCORD_REFUSAL_INDEX : Nat := 0x3048
def ACCORD_REFUSAL_INDEX_index : Fld := ⟨0x3048, 31, 0⟩
/-- EM_CONFIG, width 32. -/
def EM_CONFIG : Nat := 0x440100
def EM_CONFIG_em_granules : Fld := ⟨0x440100, 15, 8⟩
def EM_CONFIG_ovf_present : Fld := ⟨0x440100, 7, 7⟩
/-- EM_OCC, width 32. -/
def EM_OCC : Nat := 0x440104
def EM_OCC_used : Fld := ⟨0x440104, 18, 0⟩
/-- EM_OVF, width 32. -/
def EM_OVF : Nat := 0x440108
def EM_OVF_warn_at : Fld := ⟨0x440108, 27, 16⟩
def EM_OVF_used : Fld := ⟨0x440108, 11, 0⟩
/-- LEARN_CTRL, width 32. -/
def LEARN_CTRL : Nat := 0x44010C
def LEARN_CTRL_enable : Fld := ⟨0x44010C, 31, 31⟩
def LEARN_CTRL_move_enable : Fld := ⟨0x44010C, 30, 30⟩
def LEARN_CTRL_flush_on_expiry : Fld := ⟨0x44010C, 29, 29⟩
def LEARN_CTRL_bridge_kind : Fld := ⟨0x44010C, 27, 24⟩
def LEARN_CTRL_sa_buffer : Fld := ⟨0x44010C, 23, 22⟩
def LEARN_CTRL_da_buffer : Fld := ⟨0x44010C, 21, 20⟩
def LEARN_CTRL_learn_ring : Fld := ⟨0x44010C, 11, 0⟩
/-- LEARN_LIMIT, width 32. -/
def LEARN_LIMIT : Nat := 0x440110
def LEARN_LIMIT_per_ms : Fld := ⟨0x440110, 15, 0⟩
/-- LEARN_PORT, width 32. -/
def LEARN_PORT : Nat := 0x440114
def LEARN_PORT_port_mask : Fld := ⟨0x440114, 15, 0⟩
/-- LEARN_TEMPLATE, width 32. -/
def LEARN_TEMPLATE : Nat := 0x440118
def LEARN_TEMPLATE_template : Fld := ⟨0x440118, 31, 0⟩
/-- AGE_CTRL, width 32. -/
def AGE_CTRL : Nat := 0x44011C
def AGE_CTRL_enable : Fld := ⟨0x44011C, 31, 31⟩
def AGE_CTRL_limit : Fld := ⟨0x44011C, 17, 16⟩
def AGE_CTRL_pass_s : Fld := ⟨0x44011C, 15, 0⟩
/-- EM_EVENT, width 32. -/
def EM_EVENT : Nat := 0x440120
def EM_EVENT_poison : Fld := ⟨0x440120, 4, 4⟩
def EM_EVENT_ovf_high : Fld := ⟨0x440120, 3, 3⟩
def EM_EVENT_insert_fail : Fld := ⟨0x440120, 2, 2⟩
def EM_EVENT_learn_overrun : Fld := ⟨0x440120, 1, 1⟩
def EM_EVENT_learn_rate : Fld := ⟨0x440120, 0, 0⟩
/-- EM_EVENT_EN, width 32. -/
def EM_EVENT_EN : Nat := 0x440124
def EM_EVENT_EN_poison : Fld := ⟨0x440124, 4, 4⟩
def EM_EVENT_EN_ovf_high : Fld := ⟨0x440124, 3, 3⟩
def EM_EVENT_EN_insert_fail : Fld := ⟨0x440124, 2, 2⟩
def EM_EVENT_EN_learn_overrun : Fld := ⟨0x440124, 1, 1⟩
def EM_EVENT_EN_learn_rate : Fld := ⟨0x440124, 0, 0⟩
/-- LPM_CONFIG, width 32. -/
def LPM_CONFIG : Nat := 0x400000
def LPM_CONFIG_v4_default : Fld := ⟨0x400000, 31, 31⟩
def LPM_CONFIG_lines : Fld := ⟨0x400000, 17, 0⟩
/-- LPM_BUDGET, width 32. -/
def LPM_BUDGET : Nat := 0x400004
def LPM_BUDGET_budget_en : Fld := ⟨0x400004, 31, 31⟩
def LPM_BUDGET_max_probes : Fld := ⟨0x400004, 19, 16⟩
def LPM_BUDGET_held : Fld := ⟨0x400004, 9, 0⟩
/-- LPM_EVENT, width 32. -/
def LPM_EVENT : Nat := 0x400008
def LPM_EVENT_hold_full : Fld := ⟨0x400008, 2, 2⟩
def LPM_EVENT_filter_poison : Fld := ⟨0x400008, 1, 1⟩
def LPM_EVENT_poison : Fld := ⟨0x400008, 0, 0⟩
/-- LPM_EVENT_EN, width 32. -/
def LPM_EVENT_EN : Nat := 0x40000C
def LPM_EVENT_EN_hold_full : Fld := ⟨0x40000C, 2, 2⟩
def LPM_EVENT_EN_filter_poison : Fld := ⟨0x40000C, 1, 1⟩
def LPM_EVENT_EN_poison : Fld := ⟨0x40000C, 0, 0⟩
/-- LPM_LEN_V4, width 32. -/
def LPM_LEN_V4 : Nat := 0x401000
def LPM_LEN_V4_enable : Fld := ⟨0x401000, 31, 31⟩
def LPM_LEN_V4_log2_lines : Fld := ⟨0x401000, 30, 26⟩
def LPM_LEN_V4_base_line : Fld := ⟨0x401000, 16, 0⟩
/-- LPM_LEN_V6, width 32. -/
def LPM_LEN_V6 : Nat := 0x401264
def LPM_LEN_V6_enable : Fld := ⟨0x401264, 31, 31⟩
def LPM_LEN_V6_log2_lines : Fld := ⟨0x401264, 30, 26⟩
def LPM_LEN_V6_base_line : Fld := ⟨0x401264, 16, 0⟩
/-- TCAM_SCRUB, width 32. -/
def TCAM_SCRUB : Nat := 0x450100
def TCAM_SCRUB_enable : Fld := ⟨0x450100, 31, 31⟩
def TCAM_SCRUB_scrub_ms : Fld := ⟨0x450100, 15, 0⟩
/-- TCAM_EVENT, width 32. -/
def TCAM_EVENT : Nat := 0x450104
def TCAM_EVENT_row_mismatch : Fld := ⟨0x450104, 3, 3⟩
def TCAM_EVENT_verify_drop : Fld := ⟨0x450104, 2, 2⟩
def TCAM_EVENT_poison : Fld := ⟨0x450104, 1, 1⟩
def TCAM_EVENT_false_hit : Fld := ⟨0x450104, 0, 0⟩
/-- TCAM_EVENT_EN, width 32. -/
def TCAM_EVENT_EN : Nat := 0x450108
def TCAM_EVENT_EN_row_mismatch : Fld := ⟨0x450108, 3, 3⟩
def TCAM_EVENT_EN_verify_drop : Fld := ⟨0x450108, 2, 2⟩
def TCAM_EVENT_EN_poison : Fld := ⟨0x450108, 1, 1⟩
def TCAM_EVENT_EN_false_hit : Fld := ⟨0x450108, 0, 0⟩
/-- TCAM_TABLE_A, width 32. -/
def TCAM_TABLE_A : Nat := 0x450208
def TCAM_TABLE_A_present : Fld := ⟨0x450208, 31, 31⟩
def TCAM_TABLE_A_use : Fld := ⟨0x450208, 30, 29⟩
def TCAM_TABLE_A_wide : Fld := ⟨0x450208, 28, 28⟩
def TCAM_TABLE_A_bank_mask : Fld := ⟨0x450208, 27, 24⟩
def TCAM_TABLE_A_first_entry : Fld := ⟨0x450208, 12, 0⟩
/-- TCAM_TABLE_B, width 32. -/
def TCAM_TABLE_B : Nat := 0x45020C
def TCAM_TABLE_B_entry_count : Fld := ⟨0x45020C, 12, 0⟩
/-- RES_PROFILE, width 32. -/
def RES_PROFILE : Nat := 0x470400
def RES_PROFILE_fwd_first : Fld := ⟨0x470400, 31, 28⟩
def RES_PROFILE_fwd_second : Fld := ⟨0x470400, 27, 24⟩
def RES_PROFILE_acl : Fld := ⟨0x470400, 23, 20⟩
def RES_PROFILE_qos : Fld := ⟨0x470400, 19, 16⟩
def RES_PROFILE_ct_off : Fld := ⟨0x470400, 15, 15⟩
def RES_PROFILE_default_class : Fld := ⟨0x470400, 14, 12⟩
/-- ING_OVERHEAD, width 32. -/
def ING_OVERHEAD : Nat := 0x470800
def ING_OVERHEAD_overhead : Fld := ⟨0x470800, 6, 0⟩
/-- PLANE_STATUS, width 32. -/
def PLANE_STATUS : Nat := 0x0
def PLANE_STATUS_state : Fld := ⟨0x0, 31, 29⟩
def PLANE_STATUS_links_up : Fld := ⟨0x0, 23, 16⟩
def PLANE_STATUS_cause : Fld := ⟨0x0, 15, 8⟩
/-- PLANE_CMD, width 32. -/
def PLANE_CMD : Nat := 0x4
def PLANE_CMD_go : Fld := ⟨0x4, 31, 31⟩
def PLANE_CMD_op : Fld := ⟨0x4, 30, 29⟩
def PLANE_CMD_result : Fld := ⟨0x4, 7, 0⟩
/-- PLANE_REPLAY, width 32. -/
def PLANE_REPLAY : Nat := 0x8
def PLANE_REPLAY_max_naks : Fld := ⟨0x8, 31, 24⟩
def PLANE_REPLAY_crc_alarm : Fld := ⟨0x8, 15, 0⟩
/-- PLANE_EVENT, width 32. -/
def PLANE_EVENT : Nat := 0xC
def PLANE_EVENT_link_fail : Fld := ⟨0xC, 3, 3⟩
def PLANE_EVENT_crc_alarm : Fld := ⟨0xC, 2, 2⟩
def PLANE_EVENT_restored : Fld := ⟨0xC, 1, 1⟩
def PLANE_EVENT_failed : Fld := ⟨0xC, 0, 0⟩
/-- PLANE_EVENT_EN, width 32. -/
def PLANE_EVENT_EN : Nat := 0x10
def PLANE_EVENT_EN_link_fail : Fld := ⟨0x10, 3, 3⟩
def PLANE_EVENT_EN_crc_alarm : Fld := ⟨0x10, 2, 2⟩
def PLANE_EVENT_EN_restored : Fld := ⟨0x10, 1, 1⟩
def PLANE_EVENT_EN_failed : Fld := ⟨0x10, 0, 0⟩
/-- FAB_STATUS, width 32. -/
def FAB_STATUS : Nat := 0x480000
def FAB_STATUS_planes_up : Fld := ⟨0x480000, 31, 28⟩
def FAB_STATUS_epoch : Fld := ⟨0x480000, 27, 24⟩
def FAB_STATUS_holding : Fld := ⟨0x480000, 23, 23⟩
/-- FAB_CTRL, width 32. -/
def FAB_CTRL : Nat := 0x480004
def FAB_CTRL_drain_us : Fld := ⟨0x480004, 31, 16⟩
/-- FAB_PIN, width 32. -/
def FAB_PIN : Nat := 0x480040
def FAB_PIN_pins : Fld := ⟨0x480040, 31, 0⟩
/-- COACH_STATUS, width 32. -/
def COACH_STATUS : Nat := 0x490100
def COACH_STATUS_used : Fld := ⟨0x490100, 11, 0⟩
/-- COACH_CTRL, width 32. -/
def COACH_CTRL : Nat := 0x490104
def COACH_CTRL_max_wait_us : Fld := ⟨0x490104, 31, 16⟩
/-- COACH_PORT, width 32. -/
def COACH_PORT : Nat := 0x3200
def COACH_PORT_valid : Fld := ⟨0x3200, 31, 31⟩
def COACH_PORT_port : Fld := ⟨0x3200, 6, 0⟩
/-- INNK_STATUS, width 32. -/
def INNK_STATUS : Nat := 0x0
def INNK_STATUS_mode_now : Fld := ⟨0x0, 31, 30⟩
def INNK_STATUS_spill_ready : Fld := ⟨0x0, 29, 29⟩
def INNK_STATUS_free_cells : Fld := ⟨0x0, 18, 0⟩
/-- INNK_MODE, width 32. -/
def INNK_MODE : Nat := 0x4
def INNK_MODE_mode : Fld := ⟨0x4, 31, 30⟩
def INNK_MODE_recover_us : Fld := ⟨0x4, 13, 0⟩
/-- INNK_ADMIT, width 32. -/
def INNK_ADMIT : Nat := 0x8
def INNK_ADMIT_yellow_free : Fld := ⟨0x8, 31, 16⟩
def INNK_ADMIT_red_free : Fld := ⟨0x8, 15, 0⟩
/-- INNK_SPILL, width 32. -/
def INNK_SPILL : Nat := 0xC
def INNK_SPILL_enable : Fld := ⟨0xC, 31, 31⟩
def INNK_SPILL_region_bundles : Fld := ⟨0xC, 23, 0⟩
/-- INNK_SPILL_USED, width 32. -/
def INNK_SPILL_USED : Nat := 0x10
def INNK_SPILL_USED_used : Fld := ⟨0x10, 23, 0⟩
/-- INNK_EVENT, width 32. -/
def INNK_EVENT : Nat := 0x14
def INNK_EVENT_spill_lost : Fld := ⟨0x14, 4, 4⟩
def INNK_EVENT_spill_full : Fld := ⟨0x14, 3, 3⟩
def INNK_EVENT_bad_ptr : Fld := ⟨0x14, 2, 2⟩
def INNK_EVENT_double_free : Fld := ⟨0x14, 1, 1⟩
def INNK_EVENT_not_owner : Fld := ⟨0x14, 0, 0⟩
/-- INNK_EVENT_EN, width 32. -/
def INNK_EVENT_EN : Nat := 0x18
def INNK_EVENT_EN_spill_lost : Fld := ⟨0x18, 4, 4⟩
def INNK_EVENT_EN_spill_full : Fld := ⟨0x18, 3, 3⟩
def INNK_EVENT_EN_bad_ptr : Fld := ⟨0x18, 2, 2⟩
def INNK_EVENT_EN_double_free : Fld := ⟨0x18, 1, 1⟩
def INNK_EVENT_EN_not_owner : Fld := ⟨0x18, 0, 0⟩
/-- INNK_FAULT, width 32. -/
def INNK_FAULT : Nat := 0x1C
def INNK_FAULT_kind : Fld := ⟨0x1C, 31, 30⟩
def INNK_FAULT_requester : Fld := ⟨0x1C, 15, 0⟩
/-- INNK_FAULT_ADDR, width 32. -/
def INNK_FAULT_ADDR : Nat := 0x20
def INNK_FAULT_ADDR_address : Fld := ⟨0x20, 27, 0⟩
/-- INNK_PRI_LIMIT, width 32. -/
def INNK_PRI_LIMIT : Nat := 0x40
def INNK_PRI_LIMIT_limit : Fld := ⟨0x40, 18, 0⟩
/-- INNK_REQ_ID, width 32. -/
def INNK_REQ_ID : Nat := 0x100
def INNK_REQ_ID_present : Fld := ⟨0x100, 31, 31⟩
def INNK_REQ_ID_unit_id : Fld := ⟨0x100, 15, 0⟩
/-- INNK_REQ_MIN, width 32. -/
def INNK_REQ_MIN : Nat := 0x104
def INNK_REQ_MIN_min_cells : Fld := ⟨0x104, 18, 0⟩
/-- INNK_REQ_QUOTA, width 32. -/
def INNK_REQ_QUOTA : Nat := 0x108
def INNK_REQ_QUOTA_quota_cells : Fld := ⟨0x108, 18, 0⟩
/-- INNK_REQ_SPILL_CAP, width 32. -/
def INNK_REQ_SPILL_CAP : Nat := 0x10C
def INNK_REQ_SPILL_CAP_spill_cap : Fld := ⟨0x10C, 23, 0⟩
/-- INNK_REQ_USED, width 32. -/
def INNK_REQ_USED : Nat := 0x200
def INNK_REQ_USED_recovering : Fld := ⟨0x200, 31, 31⟩
def INNK_REQ_USED_used : Fld := ⟨0x200, 18, 0⟩
/-- BASE_CFG, width 32. -/
def BASE_CFG : Nat := 0x800000
def BASE_CFG_urgent_first : Fld := ⟨0x800000, 31, 31⟩
def BASE_CFG_default_en : Fld := ⟨0x800000, 30, 30⟩
def BASE_CFG_default_sub : Fld := ⟨0x800000, 26, 16⟩
def BASE_CFG_overhead : Fld := ⟨0x800000, 6, 0⟩
/-- BASE_RATE, width 32. -/
def BASE_RATE : Nat := 0x800004
def BASE_RATE_rate : Fld := ⟨0x800004, 23, 0⟩
/-- BASE_BURST, width 32. -/
def BASE_BURST : Nat := 0x800008
def BASE_BURST_burst : Fld := ⟨0x800008, 23, 0⟩
/-- BASE_VTIME, width 64. -/
def BASE_VTIME : Nat := 0x800010
def BASE_VTIME_vtime : Fld := ⟨0x800010, 39, 0⟩
/-- SCHED_HELD, width 32. -/
def SCHED_HELD : Nat := 0x820000
def SCHED_HELD_cells : Fld := ⟨0x820000, 18, 0⟩
/-- SCHED_RESERVED, width 32. -/
def SCHED_RESERVED : Nat := 0x820004
def SCHED_RESERVED_cells : Fld := ⟨0x820004, 18, 0⟩
/-- SCHED_EVENT, width 32. -/
def SCHED_EVENT : Nat := 0x820008
def SCHED_EVENT_queue_poison : Fld := ⟨0x820008, 2, 2⟩
def SCHED_EVENT_poison : Fld := ⟨0x820008, 1, 1⟩
def SCHED_EVENT_map_err : Fld := ⟨0x820008, 0, 0⟩
/-- SCHED_EVENT_EN, width 32. -/
def SCHED_EVENT_EN : Nat := 0x82000C
def SCHED_EVENT_EN_queue_poison : Fld := ⟨0x82000C, 2, 2⟩
def SCHED_EVENT_EN_poison : Fld := ⟨0x82000C, 1, 1⟩
def SCHED_EVENT_EN_map_err : Fld := ⟨0x82000C, 0, 0⟩
/-- GATE_CTRL, width 32. -/
def GATE_CTRL : Nat := 0x80
def GATE_CTRL_enable : Fld := ⟨0x80, 31, 31⟩
def GATE_CTRL_tb : Fld := ⟨0x80, 26, 24⟩
def GATE_CTRL_admin_gates : Fld := ⟨0x80, 23, 16⟩
/-- GATE_STATUS, width 32. -/
def GATE_STATUS : Nat := 0x84
def GATE_STATUS_active_list : Fld := ⟨0x84, 31, 31⟩
def GATE_STATUS_armed : Fld := ⟨0x84, 30, 30⟩
def GATE_STATUS_before_base : Fld := ⟨0x84, 29, 29⟩
def GATE_STATUS_gates : Fld := ⟨0x84, 23, 16⟩
def GATE_STATUS_entry : Fld := ⟨0x84, 7, 0⟩
/-- GATE_SWAP, width 32. -/
def GATE_SWAP : Nat := 0x88
def GATE_SWAP_arm : Fld := ⟨0x88, 31, 31⟩
def GATE_SWAP_result : Fld := ⟨0x88, 7, 0⟩
/-- GATE_EVENT, width 32. -/
def GATE_EVENT : Nat := 0x8C
def GATE_EVENT_swapped : Fld := ⟨0x8C, 0, 0⟩
def GATE_EVENT_active_write : Fld := ⟨0x8C, 1, 1⟩
def GATE_EVENT_oversize : Fld := ⟨0x8C, 2, 2⟩
def GATE_EVENT_resync : Fld := ⟨0x8C, 3, 3⟩
def GATE_EVENT_swap_refused : Fld := ⟨0x8C, 4, 4⟩
/-- GATE_SWAP_SEC, width 64. -/
def GATE_SWAP_SEC : Nat := 0x90
def GATE_SWAP_SEC_seconds : Fld := ⟨0x90, 47, 0⟩
/-- GATE_SWAP_NS, width 32. -/
def GATE_SWAP_NS : Nat := 0x98
def GATE_SWAP_NS_ns : Fld := ⟨0x98, 29, 0⟩
/-- GATE_EVENT_EN, width 32. -/
def GATE_EVENT_EN : Nat := 0x9C
def GATE_EVENT_EN_swapped : Fld := ⟨0x9C, 0, 0⟩
def GATE_EVENT_EN_active_write : Fld := ⟨0x9C, 1, 1⟩
def GATE_EVENT_EN_oversize : Fld := ⟨0x9C, 2, 2⟩
def GATE_EVENT_EN_resync : Fld := ⟨0x9C, 3, 3⟩
def GATE_EVENT_EN_swap_refused : Fld := ⟨0x9C, 4, 4⟩
/-- GATE_GUARD, width 32. -/
def GATE_GUARD : Nat := 0xA0
def GATE_GUARD_guard_bytes : Fld := ⟨0xA0, 13, 0⟩
/-- GATE_WMAX, width 32. -/
def GATE_WMAX : Nat := 0xC0
def GATE_WMAX_wmax : Fld := ⟨0xC0, 26, 0⟩
/-- GCL_COUNT, width 32. -/
def GCL_COUNT : Nat := 0x100
def GCL_COUNT_entry_count : Fld := ⟨0x100, 8, 0⟩
/-- GCL_CYCLE, width 32. -/
def GCL_CYCLE : Nat := 0x104
def GCL_CYCLE_cycle : Fld := ⟨0x104, 26, 0⟩
/-- GCL_BASE_SEC, width 64. -/
def GCL_BASE_SEC : Nat := 0x108
def GCL_BASE_SEC_seconds : Fld := ⟨0x108, 47, 0⟩
/-- GCL_BASE_NS, width 32. -/
def GCL_BASE_NS : Nat := 0x110
def GCL_BASE_NS_ns : Fld := ⟨0x110, 29, 0⟩
/-- GCL_INTERVAL, width 32. -/
def GCL_INTERVAL : Nat := 0x2000
def GCL_INTERVAL_interval : Fld := ⟨0x2000, 26, 0⟩
/-- GCL_GATES, width 32. -/
def GCL_GATES : Nat := 0x2004
def GCL_GATES_gates : Fld := ⟨0x2004, 7, 0⟩
/-- TB_CTRL, width 32. -/
def TB_CTRL : Nat := 0x0
def TB_CTRL_action : Fld := ⟨0x0, 31, 30⟩
def TB_CTRL_steer_timeout_ms : Fld := ⟨0x0, 15, 0⟩
/-- TB_STATUS, width 32. -/
def TB_STATUS : Nat := 0x4
def TB_STATUS_holdover : Fld := ⟨0x4, 31, 31⟩
def TB_STATUS_ref_holdover : Fld := ⟨0x4, 30, 30⟩
def TB_STATUS_step_count : Fld := ⟨0x4, 23, 16⟩
/-- TB_ACCESS, width 32. -/
def TB_ACCESS : Nat := 0x8
def TB_ACCESS_owner : Fld := ⟨0x8, 4, 0⟩
/-- TB_EVENT, width 32. -/
def TB_EVENT : Nat := 0xC
def TB_EVENT_holdover : Fld := ⟨0xC, 0, 0⟩
def TB_EVENT_stepped : Fld := ⟨0xC, 1, 1⟩
def TB_EVENT_pps_in : Fld := ⟨0xC, 2, 2⟩
def TB_EVENT_foreign_write : Fld := ⟨0xC, 3, 3⟩
/-- TB_EVENT_EN, width 32. -/
def TB_EVENT_EN : Nat := 0x10
def TB_EVENT_EN_holdover : Fld := ⟨0x10, 0, 0⟩
def TB_EVENT_EN_stepped : Fld := ⟨0x10, 1, 1⟩
def TB_EVENT_EN_pps_in : Fld := ⟨0x10, 2, 2⟩
def TB_EVENT_EN_foreign_write : Fld := ⟨0x10, 3, 3⟩
/-- TB_RATE, width 64. -/
def TB_RATE : Nat := 0x18
def TB_RATE_rate : Fld := ⟨0x18, 38, 0⟩
/-- TB_OFFSET, width 64. -/
def TB_OFFSET : Nat := 0x20
def TB_OFFSET_offset : Fld := ⟨0x20, 63, 0⟩
/-- TB_SET_SEC, width 64. -/
def TB_SET_SEC : Nat := 0x28
def TB_SET_SEC_seconds : Fld := ⟨0x28, 47, 0⟩
/-- TB_SET_NS, width 64. -/
def TB_SET_NS : Nat := 0x30
def TB_SET_NS_ns : Fld := ⟨0x30, 47, 16⟩
def TB_SET_NS_frac : Fld := ⟨0x30, 15, 0⟩
/-- TB_NOW_NS, width 64. -/
def TB_NOW_NS : Nat := 0x38
def TB_NOW_NS_now : Fld := ⟨0x38, 47, 0⟩
/-- TB_NOW_SEC, width 64. -/
def TB_NOW_SEC : Nat := 0x40
def TB_NOW_SEC_seconds : Fld := ⟨0x40, 47, 0⟩
/-- TB_PPS_NS, width 64. -/
def TB_PPS_NS : Nat := 0x48
def TB_PPS_NS_fresh : Fld := ⟨0x48, 63, 63⟩
def TB_PPS_NS_capture : Fld := ⟨0x48, 47, 0⟩
/-- TB_PPS_SEC, width 64. -/
def TB_PPS_SEC : Nat := 0x50
def TB_PPS_SEC_seconds : Fld := ⟨0x50, 47, 0⟩
/-- TB_REF, width 32. -/
def TB_REF : Nat := 0x40800
def TB_REF_ref_sel : Fld := ⟨0x40800, 31, 31⟩
def TB_REF_ref_lost : Fld := ⟨0x40800, 30, 30⟩
def TB_REF_locked : Fld := ⟨0x40800, 29, 29⟩
/-- PPS_OUT, width 32. -/
def PPS_OUT : Nat := 0x40810
def PPS_OUT_enable : Fld := ⟨0x40810, 31, 31⟩
def PPS_OUT_tb : Fld := ⟨0x40810, 30, 28⟩
def PPS_OUT_width_ms : Fld := ⟨0x40810, 27, 18⟩
/-- PPS_COMP, width 32. -/
def PPS_COMP : Nat := 0x40818
def PPS_COMP_comp : Fld := ⟨0x40818, 15, 0⟩
/-- PORT_TS, width 32. -/
def PORT_TS : Nat := 0x140
def PORT_TS_tb : Fld := ⟨0x140, 31, 29⟩
def PORT_TS_capture_inj : Fld := ⟨0x140, 26, 26⟩
def PORT_TS_one_step : Fld := ⟨0x140, 25, 25⟩
def PORT_TS_tc : Fld := ⟨0x140, 24, 24⟩
/-- PORT_TS_COMP, width 32. -/
def PORT_TS_COMP : Nat := 0x144
def PORT_TS_COMP_rx_corr : Fld := ⟨0x144, 31, 16⟩
def PORT_TS_COMP_tx_corr : Fld := ⟨0x144, 15, 0⟩
/-- PORT_TS_TC, width 32. -/
def PORT_TS_TC : Nat := 0x148
def PORT_TS_TC_tc_max_us : Fld := ⟨0x148, 19, 0⟩
/-- TS_FIFO_CTRL, width 32. -/
def TS_FIFO_CTRL : Nat := 0x4A0000
def TS_FIFO_CTRL_ts_ring : Fld := ⟨0x4A0000, 11, 0⟩
/-- HBM_STATUS, width 32. -/
def HBM_STATUS : Nat := 0x0
def HBM_STATUS_state : Fld := ⟨0x0, 31, 29⟩
def HBM_STATUS_point : Fld := ⟨0x0, 28, 27⟩
def HBM_STATUS_compat : Fld := ⟨0x0, 26, 26⟩
def HBM_STATUS_temp : Fld := ⟨0x0, 23, 16⟩
def HBM_STATUS_step : Fld := ⟨0x0, 2, 0⟩
/-- HBM_CTRL, width 32. -/
def HBM_CTRL : Nat := 0x4
def HBM_CTRL_compat : Fld := ⟨0x4, 31, 31⟩
def HBM_CTRL_sr_wake : Fld := ⟨0x4, 30, 30⟩
def HBM_CTRL_sr_idle_us : Fld := ⟨0x4, 15, 0⟩
/-- HBM_FREQ, width 32. -/
def HBM_FREQ : Nat := 0x8
def HBM_FREQ_go : Fld := ⟨0x8, 31, 31⟩
def HBM_FREQ_state : Fld := ⟨0x8, 30, 28⟩
def HBM_FREQ_point : Fld := ⟨0x8, 1, 0⟩
/-- HBM_TRAIN, width 32. -/
def HBM_TRAIN : Nat := 0xC
def HBM_TRAIN_go : Fld := ⟨0xC, 31, 31⟩
def HBM_TRAIN_state : Fld := ⟨0xC, 30, 28⟩
def HBM_TRAIN_all : Fld := ⟨0xC, 5, 5⟩
def HBM_TRAIN_channel : Fld := ⟨0xC, 4, 0⟩
/-- HBM_PWR, width 32. -/
def HBM_PWR : Nat := 0x10
def HBM_PWR_go : Fld := ⟨0x10, 31, 31⟩
def HBM_PWR_op : Fld := ⟨0x10, 30, 30⟩
def HBM_PWR_result : Fld := ⟨0x10, 29, 28⟩
/-- HBM_RETIRE, width 32. -/
def HBM_RETIRE : Nat := 0x14
def HBM_RETIRE_go : Fld := ⟨0x14, 31, 31⟩
def HBM_RETIRE_force : Fld := ⟨0x14, 30, 30⟩
def HBM_RETIRE_op : Fld := ⟨0x14, 29, 29⟩
def HBM_RETIRE_result : Fld := ⟨0x14, 23, 16⟩
def HBM_RETIRE_channel : Fld := ⟨0x14, 4, 0⟩
/-- HBM_RETIRED, width 32. -/
def HBM_RETIRED : Nat := 0x18
def HBM_RETIRED_mask : Fld := ⟨0x18, 31, 0⟩
/-- HBM_RELOC, width 32. -/
def HBM_RELOC : Nat := 0x1C
def HBM_RELOC_used : Fld := ⟨0x1C, 31, 31⟩
def HBM_RELOC_copying : Fld := ⟨0x1C, 30, 30⟩
def HBM_RELOC_channel : Fld := ⟨0x1C, 4, 0⟩
/-- HBM_ROWGUARD, width 32. -/
def HBM_ROWGUARD : Nat := 0x20
def HBM_ROWGUARD_rh_acts : Fld := ⟨0x20, 31, 16⟩
def HBM_ROWGUARD_rh_idle : Fld := ⟨0x20, 15, 8⟩
def HBM_ROWGUARD_rh_hold_ms : Fld := ⟨0x20, 7, 0⟩
/-- HBM_LIMITS, width 32. -/
def HBM_LIMITS : Nat := 0x24
def HBM_LIMITS_starve_us : Fld := ⟨0x24, 31, 16⟩
def HBM_LIMITS_unc_limit : Fld := ⟨0x24, 15, 8⟩
/-- HBM_EVENT, width 32. -/
def HBM_EVENT : Nat := 0x28
def HBM_EVENT_hammer : Fld := ⟨0x28, 0, 0⟩
def HBM_EVENT_starve : Fld := ⟨0x28, 1, 1⟩
def HBM_EVENT_uncorrectable : Fld := ⟨0x28, 2, 2⟩
def HBM_EVENT_retired : Fld := ⟨0x28, 3, 3⟩
def HBM_EVENT_freq_done : Fld := ⟨0x28, 4, 4⟩
def HBM_EVENT_train_done : Fld := ⟨0x28, 5, 5⟩
def HBM_EVENT_region_lost : Fld := ⟨0x28, 6, 6⟩
def HBM_EVENT_sr_change : Fld := ⟨0x28, 7, 7⟩
/-- HBM_EVENT_EN, width 32. -/
def HBM_EVENT_EN : Nat := 0x2C
def HBM_EVENT_EN_hammer : Fld := ⟨0x2C, 0, 0⟩
def HBM_EVENT_EN_starve : Fld := ⟨0x2C, 1, 1⟩
def HBM_EVENT_EN_uncorrectable : Fld := ⟨0x2C, 2, 2⟩
def HBM_EVENT_EN_retired : Fld := ⟨0x2C, 3, 3⟩
def HBM_EVENT_EN_freq_done : Fld := ⟨0x2C, 4, 4⟩
def HBM_EVENT_EN_train_done : Fld := ⟨0x2C, 5, 5⟩
def HBM_EVENT_EN_region_lost : Fld := ⟨0x2C, 6, 6⟩
def HBM_EVENT_EN_sr_change : Fld := ⟨0x2C, 7, 7⟩
/-- HBM_FAULT_ADDR, width 32. -/
def HBM_FAULT_ADDR : Nat := 0x30
def HBM_FAULT_ADDR_channel : Fld := ⟨0x30, 31, 27⟩
def HBM_FAULT_ADDR_bank : Fld := ⟨0x30, 26, 22⟩
def HBM_FAULT_ADDR_row : Fld := ⟨0x30, 21, 8⟩
def HBM_FAULT_ADDR_beat : Fld := ⟨0x30, 7, 4⟩
def HBM_FAULT_ADDR_requester : Fld := ⟨0x30, 2, 0⟩
/-- HBM_PRIO, width 32. -/
def HBM_PRIO : Nat := 0x48
def HBM_PRIO_priority : Fld := ⟨0x48, 3, 0⟩
/-- MEM_SEL, width 32. -/
def MEM_SEL : Nat := 0x5000
def MEM_SEL_unit_id : Fld := ⟨0x5000, 15, 0⟩
/-- MEM_INFO, width 32. -/
def MEM_INFO : Nat := 0x5004
def MEM_INFO_present : Fld := ⟨0x5004, 31, 31⟩
def MEM_INFO_spares_free : Fld := ⟨0x5004, 30, 22⟩
def MEM_INFO_rows : Fld := ⟨0x5004, 19, 0⟩
/-- MEM_SCRUB, width 32. -/
def MEM_SCRUB : Nat := 0x5008
def MEM_SCRUB_enable : Fld := ⟨0x5008, 31, 31⟩
def MEM_SCRUB_recur_passes : Fld := ⟨0x5008, 27, 24⟩
def MEM_SCRUB_pass : Fld := ⟨0x5008, 23, 16⟩
def MEM_SCRUB_rate : Fld := ⟨0x5008, 15, 0⟩
/-- MEM_FILL, width 32. -/
def MEM_FILL : Nat := 0x500C
def MEM_FILL_go : Fld := ⟨0x500C, 31, 31⟩
def MEM_FILL_busy : Fld := ⟨0x500C, 30, 30⟩
def MEM_FILL_result : Fld := ⟨0x500C, 7, 0⟩
/-- MEM_FILL_START, width 32. -/
def MEM_FILL_START : Nat := 0x5010
def MEM_FILL_START_word : Fld := ⟨0x5010, 23, 0⟩
/-- MEM_FILL_COUNT, width 32. -/
def MEM_FILL_COUNT : Nat := 0x5014
def MEM_FILL_COUNT_count : Fld := ⟨0x5014, 23, 0⟩
/-- MEM_FILL_PATTERN, width 32. -/
def MEM_FILL_PATTERN : Nat := 0x5018
def MEM_FILL_PATTERN_pattern : Fld := ⟨0x5018, 31, 0⟩
/-- MEM_REMAP, width 32. -/
def MEM_REMAP : Nat := 0x501C
def MEM_REMAP_go : Fld := ⟨0x501C, 31, 31⟩
def MEM_REMAP_op : Fld := ⟨0x501C, 30, 30⟩
def MEM_REMAP_busy : Fld := ⟨0x501C, 29, 29⟩
def MEM_REMAP_result : Fld := ⟨0x501C, 25, 24⟩
def MEM_REMAP_row : Fld := ⟨0x501C, 17, 0⟩
/-- MEM_LOG_INDEX, width 32. -/
def MEM_LOG_INDEX : Nat := 0x5020
def MEM_LOG_INDEX_entry : Fld := ⟨0x5020, 4, 0⟩
/-- MEM_LOG_ENTRY, width 64. -/
def MEM_LOG_ENTRY : Nat := 0x5028
def MEM_LOG_ENTRY_valid : Fld := ⟨0x5028, 63, 63⟩
def MEM_LOG_ENTRY_recurrent : Fld := ⟨0x5028, 62, 62⟩
def MEM_LOG_ENTRY_pass : Fld := ⟨0x5028, 47, 40⟩
def MEM_LOG_ENTRY_hits : Fld := ⟨0x5028, 39, 32⟩
def MEM_LOG_ENTRY_byte : Fld := ⟨0x5028, 31, 29⟩
def MEM_LOG_ENTRY_bit : Fld := ⟨0x5028, 28, 24⟩
def MEM_LOG_ENTRY_word : Fld := ⟨0x5028, 23, 0⟩
/-- MEM_EVENT, width 32. -/
def MEM_EVENT : Nat := 0x5030
def MEM_EVENT_spare_exhausted : Fld := ⟨0x5030, 3, 3⟩
def MEM_EVENT_hard_cell : Fld := ⟨0x5030, 2, 2⟩
def MEM_EVENT_uncorrectable : Fld := ⟨0x5030, 1, 1⟩
def MEM_EVENT_corrected : Fld := ⟨0x5030, 0, 0⟩
/-- MEM_EVENT_EN, width 32. -/
def MEM_EVENT_EN : Nat := 0x5034
def MEM_EVENT_EN_spare_exhausted : Fld := ⟨0x5034, 3, 3⟩
def MEM_EVENT_EN_hard_cell : Fld := ⟨0x5034, 2, 2⟩
def MEM_EVENT_EN_uncorrectable : Fld := ⟨0x5034, 1, 1⟩
def MEM_EVENT_EN_corrected : Fld := ⟨0x5034, 0, 0⟩
/-- FIFO_CTRL, width 32. -/
def FIFO_CTRL : Nat := 0x0
def FIFO_CTRL_flush : Fld := ⟨0x0, 31, 31⟩
def FIFO_CTRL_swap_us : Fld := ⟨0x0, 15, 0⟩
/-- FIFO_STATUS, width 32. -/
def FIFO_STATUS : Nat := 0x0
def FIFO_STATUS_full : Fld := ⟨0x0, 31, 31⟩
def FIFO_STATUS_overrun : Fld := ⟨0x0, 30, 30⟩
def FIFO_STATUS_partial_discarded : Fld := ⟨0x0, 29, 29⟩
def FIFO_STATUS_filling_bank : Fld := ⟨0x0, 28, 28⟩
def FIFO_STATUS_items : Fld := ⟨0x0, 12, 0⟩
/-- PUNT_EVT_RING, width 32. -/
def PUNT_EVT_RING : Nat := 0x4A00FC
def PUNT_EVT_RING_ring : Fld := ⟨0x4A00FC, 11, 0⟩
/-- LEDGER_CTRL, width 32. -/
def LEDGER_CTRL : Nat := 0x6000
def LEDGER_CTRL_errn_release : Fld := ⟨0x6000, 31, 31⟩
/-- LEDGER_STATUS, width 32. -/
def LEDGER_STATUS : Nat := 0x6004
def LEDGER_STATUS_errn : Fld := ⟨0x6004, 31, 31⟩
def LEDGER_STATUS_first_valid : Fld := ⟨0x6004, 30, 30⟩
def LEDGER_STATUS_ring_full : Fld := ⟨0x6004, 29, 29⟩
def LEDGER_STATUS_jrn_stopped : Fld := ⟨0x6004, 28, 28⟩
def LEDGER_STATUS_unread : Fld := ⟨0x6004, 10, 0⟩
/-- LEDGER_CAUSE, width 32. -/
def LEDGER_CAUSE : Nat := 0x6008
def LEDGER_CAUSE_sev : Fld := ⟨0x6008, 5, 0⟩
/-- LEDGER_IRQ, width 32. -/
def LEDGER_IRQ : Nat := 0x600C
def LEDGER_IRQ_pending : Fld := ⟨0x600C, 31, 31⟩
def LEDGER_IRQ_enable : Fld := ⟨0x600C, 30, 30⟩
/-- LEDGER_RD_PTR, width 32. -/
def LEDGER_RD_PTR : Nat := 0x6010
def LEDGER_RD_PTR_ptr : Fld := ⟨0x6010, 10, 0⟩
/-- LEDGER_WR_PTR, width 32. -/
def LEDGER_WR_PTR : Nat := 0x6014
def LEDGER_WR_PTR_ptr : Fld := ⟨0x6014, 10, 0⟩
/-- LEDGER_REC_SEL, width 32. -/
def LEDGER_REC_SEL : Nat := 0x6018
def LEDGER_REC_SEL_jrn : Fld := ⟨0x6018, 31, 31⟩
def LEDGER_REC_SEL_index : Fld := ⟨0x6018, 15, 0⟩
/-- LEDGER_REC, width 32. -/
def LEDGER_REC : Nat := 0x6020
def LEDGER_REC_word : Fld := ⟨0x6020, 31, 0⟩
/-- LEDGER_FIRST, width 32. -/
def LEDGER_FIRST : Nat := 0x6030
def LEDGER_FIRST_word : Fld := ⟨0x6030, 31, 0⟩
/-- LEDGER_OVF_RING, width 32. -/
def LEDGER_OVF_RING : Nat := 0x6040
def LEDGER_OVF_RING_ring : Fld := ⟨0x6040, 11, 0⟩
/-- LEDGER_JRN_PTR, width 32. -/
def LEDGER_JRN_PTR : Nat := 0x6044
def LEDGER_JRN_PTR_ptr : Fld := ⟨0x6044, 15, 0⟩
/-- LEDGER_REACT_SEL, width 32. -/
def LEDGER_REACT_SEL : Nat := 0x6050
def LEDGER_REACT_SEL_kind : Fld := ⟨0x6050, 11, 0⟩
/-- LEDGER_REACT, width 32. -/
def LEDGER_REACT : Nat := 0x6054
def LEDGER_REACT_react_hi : Fld := ⟨0x6054, 15, 8⟩
def LEDGER_REACT_react_lo : Fld := ⟨0x6054, 7, 0⟩
/-- LEDGER_OVR_SEL, width 32. -/
def LEDGER_OVR_SEL : Nat := 0x6058
def LEDGER_OVR_SEL_entry : Fld := ⟨0x6058, 7, 0⟩
/-- LEDGER_OVR, width 32. -/
def LEDGER_OVR : Nat := 0x605C
def LEDGER_OVR_valid : Fld := ⟨0x605C, 31, 31⟩
def LEDGER_OVR_kind : Fld := ⟨0x605C, 27, 16⟩
def LEDGER_OVR_unit_id : Fld := ⟨0x605C, 15, 0⟩
/-- LEDGER_OVR_REACT, width 32. -/
def LEDGER_OVR_REACT : Nat := 0x6060
def LEDGER_OVR_REACT_react_hi : Fld := ⟨0x6060, 15, 8⟩
def LEDGER_OVR_REACT_react_lo : Fld := ⟨0x6060, 7, 0⟩
/-- LEDGER_INJ_UNIT, width 32. -/
def LEDGER_INJ_UNIT : Nat := 0x6070
def LEDGER_INJ_UNIT_unit_id : Fld := ⟨0x6070, 15, 0⟩
/-- LEDGER_INJ_CTRL, width 32. -/
def LEDGER_INJ_CTRL : Nat := 0x6074
def LEDGER_INJ_CTRL_arm : Fld := ⟨0x6074, 31, 31⟩
def LEDGER_INJ_CTRL_react : Fld := ⟨0x6074, 30, 30⟩
def LEDGER_INJ_CTRL_result : Fld := ⟨0x6074, 23, 16⟩
def LEDGER_INJ_CTRL_count : Fld := ⟨0x6074, 15, 8⟩
def LEDGER_INJ_CTRL_class : Fld := ⟨0x6074, 3, 0⟩
/-- LEDGER_INJ_MASK, width 32. -/
def LEDGER_INJ_MASK : Nat := 0x6078
def LEDGER_INJ_MASK_mask : Fld := ⟨0x6078, 15, 0⟩
/-- LEDGER_INJ_ADDR, width 32. -/
def LEDGER_INJ_ADDR : Nat := 0x607C
def LEDGER_INJ_ADDR_addr : Fld := ⟨0x607C, 31, 0⟩
/-- LATCHKEY_TAKE, width 32. -/
def LATCHKEY_TAKE : Nat := 0x4000
def LATCHKEY_TAKE_got : Fld := ⟨0x4000, 31, 31⟩
def LATCHKEY_TAKE_suspect : Fld := ⟨0x4000, 30, 30⟩
def LATCHKEY_TAKE_fn : Fld := ⟨0x4000, 20, 16⟩
def LATCHKEY_TAKE_owner : Fld := ⟨0x4000, 15, 0⟩
/-- LATCHKEY, width 32. -/
def LATCHKEY : Nat := 0x4100
def LATCHKEY_release : Fld := ⟨0x4100, 31, 31⟩
def LATCHKEY_suspect : Fld := ⟨0x4100, 30, 30⟩
def LATCHKEY_held : Fld := ⟨0x4100, 29, 29⟩
def LATCHKEY_fnowner : Fld := ⟨0x4100, 20, 0⟩
/-- LATCHKEY_BREAK, width 32. -/
def LATCHKEY_BREAK : Nat := 0x4200
def LATCHKEY_BREAK_key : Fld := ⟨0x4200, 31, 16⟩
def LATCHKEY_BREAK_go : Fld := ⟨0x4200, 15, 15⟩
def LATCHKEY_BREAK_index : Fld := ⟨0x4200, 5, 0⟩
/-- HK_STATUS, width 32. -/
def HK_STATUS : Nat := 0x7000
def HK_STATUS_night : Fld := ⟨0x7000, 31, 31⟩
def HK_STATUS_hbm_held : Fld := ⟨0x7000, 30, 30⟩
def HK_STATUS_writes_stopped : Fld := ⟨0x7000, 29, 29⟩
def HK_STATUS_replan : Fld := ⟨0x7000, 28, 28⟩
/-- SLEEP_CTRL, width 32. -/
def SLEEP_CTRL : Nat := 0x7004
def SLEEP_CTRL_enable : Fld := ⟨0x7004, 31, 31⟩
def SLEEP_CTRL_sleep_idle_us : Fld := ⟨0x7004, 15, 0⟩
/-- SLEEP_MASK, width 32. -/
def SLEEP_MASK : Nat := 0x7008
def SLEEP_MASK_allow : Fld := ⟨0x7008, 7, 0⟩
/-- SLEEP_STATE, width 32. -/
def SLEEP_STATE : Nat := 0x700C
def SLEEP_STATE_waking : Fld := ⟨0x700C, 15, 8⟩
def SLEEP_STATE_asleep : Fld := ⟨0x700C, 7, 0⟩
/-- WAKE_CMD, width 32. -/
def WAKE_CMD : Nat := 0x7010
def WAKE_CMD_go : Fld := ⟨0x7010, 31, 31⟩
def WAKE_CMD_mask : Fld := ⟨0x7010, 7, 0⟩
/-- NIGHT_CTRL, width 32. -/
def NIGHT_CTRL : Nat := 0x7014
def NIGHT_CTRL_enable : Fld := ⟨0x7014, 31, 31⟩
def NIGHT_CTRL_hbm_sleep : Fld := ⟨0x7014, 30, 30⟩
def NIGHT_CTRL_start_min : Fld := ⟨0x7014, 26, 16⟩
def NIGHT_CTRL_end_min : Fld := ⟨0x7014, 10, 0⟩
/-- NIGHT_OFFSET, width 32. -/
def NIGHT_OFFSET : Nat := 0x7018
def NIGHT_OFFSET_offset_min : Fld := ⟨0x7018, 15, 0⟩
/-- AVS_CTRL, width 32. -/
def AVS_CTRL : Nat := 0x7020
def AVS_CTRL_enable : Fld := ⟨0x7020, 31, 31⟩
def AVS_CTRL_floor_mv : Fld := ⟨0x7020, 27, 16⟩
def AVS_CTRL_ceil_mv : Fld := ⟨0x7020, 11, 0⟩
/-- AVS_PMBUS, width 32. -/
def AVS_PMBUS : Nat := 0x7024
def AVS_PMBUS_address : Fld := ⟨0x7024, 22, 16⟩
def AVS_PMBUS_page : Fld := ⟨0x7024, 15, 8⟩
/-- AVS_GUARD, width 32. -/
def AVS_GUARD : Nat := 0x7028
def AVS_GUARD_slack_target_ps : Fld := ⟨0x7028, 23, 16⟩
def AVS_GUARD_guard_mv : Fld := ⟨0x7028, 7, 0⟩
/-- AVS_STATUS, width 32. -/
def AVS_STATUS : Nat := 0x702C
def AVS_STATUS_stuck : Fld := ⟨0x702C, 31, 31⟩
def AVS_STATUS_band : Fld := ⟨0x702C, 30, 28⟩
def AVS_STATUS_set_mv : Fld := ⟨0x702C, 27, 16⟩
def AVS_STATUS_read_mv : Fld := ⟨0x702C, 11, 0⟩
/-- HK_AGE_CTRL, width 32. -/
def HK_AGE_CTRL : Nat := 0x7030
def HK_AGE_CTRL_replan_days : Fld := ⟨0x7030, 31, 24⟩
def HK_AGE_CTRL_slack_warn_ps : Fld := ⟨0x7030, 15, 8⟩
/-- AGE_STATUS, width 32. -/
def AGE_STATUS : Nat := 0x7034
def AGE_STATUS_days_since : Fld := ⟨0x7034, 31, 24⟩
def AGE_STATUS_deferred : Fld := ⟨0x7034, 7, 0⟩
/-- AGE_SEL, width 32. -/
def AGE_SEL : Nat := 0x7038
def AGE_SEL_monitor : Fld := ⟨0x7038, 6, 0⟩
/-- AGE_DATA, width 64. -/
def AGE_DATA : Nat := 0x7040
def AGE_DATA_loss_ppm : Fld := ⟨0x7040, 47, 32⟩
def AGE_DATA_slack_ps : Fld := ⟨0x7040, 31, 16⟩
def AGE_DATA_vmin_mv : Fld := ⟨0x7040, 15, 0⟩
/-- SAG_CTRL, width 32. -/
def SAG_CTRL : Nat := 0x7048
def SAG_CTRL_nv_mv : Fld := ⟨0x7048, 31, 16⟩
def SAG_CTRL_core_mv : Fld := ⟨0x7048, 15, 0⟩
/-- SAG_STATUS, width 32. -/
def SAG_STATUS : Nat := 0x704C
def SAG_STATUS_stopped : Fld := ⟨0x704C, 31, 31⟩
def SAG_STATUS_nv_low : Fld := ⟨0x704C, 30, 30⟩
def SAG_STATUS_core_low : Fld := ⟨0x704C, 29, 29⟩
/-- THERM_CTRL, width 32. -/
def THERM_CTRL : Nat := 0x7050
def THERM_CTRL_warn_c : Fld := ⟨0x7050, 31, 24⟩
def THERM_CTRL_trip_c : Fld := ⟨0x7050, 23, 16⟩
/-- THERM_STATUS, width 32. -/
def THERM_STATUS : Nat := 0x7054
def THERM_STATUS_hottest_c : Fld := ⟨0x7054, 31, 24⟩
def THERM_STATUS_sensor : Fld := ⟨0x7054, 21, 16⟩
def THERM_STATUS_trip_fused : Fld := ⟨0x7054, 15, 8⟩
/-- THERM_SEL, width 32. -/
def THERM_SEL : Nat := 0x7058
def THERM_SEL_sensor : Fld := ⟨0x7058, 5, 0⟩
/-- THERM_DATA, width 32. -/
def THERM_DATA : Nat := 0x705C
def THERM_DATA_temp_c : Fld := ⟨0x705C, 7, 0⟩
/-- HK_EVENT, width 32. -/
def HK_EVENT : Nat := 0x7060
def HK_EVENT_replan_done : Fld := ⟨0x7060, 5, 5⟩
def HK_EVENT_ageing : Fld := ⟨0x7060, 4, 4⟩
def HK_EVENT_pmbus_fail : Fld := ⟨0x7060, 3, 3⟩
def HK_EVENT_sag : Fld := ⟨0x7060, 2, 2⟩
def HK_EVENT_therm_warn : Fld := ⟨0x7060, 1, 1⟩
def HK_EVENT_wake_fail : Fld := ⟨0x7060, 0, 0⟩
/-- HK_EVENT_EN, width 32. -/
def HK_EVENT_EN : Nat := 0x7064
def HK_EVENT_EN_replan_done : Fld := ⟨0x7064, 5, 5⟩
def HK_EVENT_EN_ageing : Fld := ⟨0x7064, 4, 4⟩
def HK_EVENT_EN_pmbus_fail : Fld := ⟨0x7064, 3, 3⟩
def HK_EVENT_EN_sag : Fld := ⟨0x7064, 2, 2⟩
def HK_EVENT_EN_therm_warn : Fld := ⟨0x7064, 1, 1⟩
def HK_EVENT_EN_wake_fail : Fld := ⟨0x7064, 0, 0⟩
/-- ENDPOINT_STATUS, width 32. -/
def ENDPOINT_STATUS : Nat := 0x80000
def ENDPOINT_STATUS_link_up : Fld := ⟨0x80000, 31, 31⟩
def ENDPOINT_STATUS_speed : Fld := ⟨0x80000, 30, 28⟩
def ENDPOINT_STATUS_width : Fld := ⟨0x80000, 27, 24⟩
/-- VF_GRANT_BASE, width 32. -/
def VF_GRANT_BASE : Nat := 0x90080
def VF_GRANT_BASE_base : Fld := ⟨0x90080, 28, 12⟩
/-- VF_GRANT_CTRL, width 32. -/
def VF_GRANT_CTRL : Nat := 0x90084
def VF_GRANT_CTRL_read : Fld := ⟨0x90084, 31, 31⟩
def VF_GRANT_CTRL_write : Fld := ⟨0x90084, 30, 30⟩
def VF_GRANT_CTRL_log2_size : Fld := ⟨0x90084, 4, 0⟩
/-- VF_PORTS, width 32. -/
def VF_PORTS : Nat := 0x90810
def VF_PORTS_ports : Fld := ⟨0x90810, 31, 0⟩
/-- IRQ_ROUTE, width 32. -/
def IRQ_ROUTE : Nat := 0x80100
def IRQ_ROUTE_pf_en : Fld := ⟨0x80100, 31, 31⟩
def IRQ_ROUTE_core_en : Fld := ⟨0x80100, 30, 30⟩
def IRQ_ROUTE_core_mask : Fld := ⟨0x80100, 27, 24⟩
def IRQ_ROUTE_pf_vector : Fld := ⟨0x80100, 10, 0⟩
/-- IRQ_PENDING, width 32. -/
def IRQ_PENDING : Nat := 0x80140
def IRQ_PENDING_line : Fld := ⟨0x80140, 15, 0⟩
/-- IRQ_REARM, width 32. -/
def IRQ_REARM : Nat := 0x80144
def IRQ_REARM_rearm : Fld := ⟨0x80144, 15, 0⟩
/-- RING_BASE_LO, width 32. -/
def RING_BASE_LO : Nat := 0x0
def RING_BASE_LO_base : Fld := ⟨0x0, 31, 12⟩
/-- RING_BASE_HI, width 32. -/
def RING_BASE_HI : Nat := 0x4
def RING_BASE_HI_base : Fld := ⟨0x4, 31, 0⟩
/-- RING_CFG, width 32. -/
def RING_CFG : Nat := 0x8
def RING_CFG_enable : Fld := ⟨0x8, 31, 31⟩
def RING_CFG_kind : Fld := ⟨0x8, 30, 29⟩
def RING_CFG_owner : Fld := ⟨0x8, 28, 24⟩
def RING_CFG_log2_size : Fld := ⟨0x8, 23, 20⟩
def RING_CFG_vector : Fld := ⟨0x8, 10, 0⟩
/-- RING_PI, width 32. -/
def RING_PI : Nat := 0xC
def RING_PI_pi : Fld := ⟨0xC, 16, 0⟩
/-- RING_CI, width 32. -/
def RING_CI : Nat := 0x10
def RING_CI_ci : Fld := ⟨0x10, 16, 0⟩
/-- RING_WB_LO, width 32. -/
def RING_WB_LO : Nat := 0x14
def RING_WB_LO_wb : Fld := ⟨0x14, 31, 0⟩
/-- RING_WB_HI, width 32. -/
def RING_WB_HI : Nat := 0x18
def RING_WB_HI_wb : Fld := ⟨0x18, 31, 0⟩
/-- RING_IRQ, width 32. -/
def RING_IRQ : Nat := 0x1C
def RING_IRQ_enable : Fld := ⟨0x1C, 31, 31⟩
def RING_IRQ_pending : Fld := ⟨0x1C, 30, 30⟩
def RING_IRQ_mod_count : Fld := ⟨0x1C, 23, 16⟩
def RING_IRQ_mod_us : Fld := ⟨0x1C, 15, 0⟩
/-- RING_STATUS, width 32. -/
def RING_STATUS : Nat := 0x20
def RING_STATUS_active : Fld := ⟨0x20, 31, 31⟩
def RING_STATUS_halted : Fld := ⟨0x20, 30, 30⟩
def RING_STATUS_last_err : Fld := ⟨0x20, 23, 16⟩
/-- RING_RATE, width 32. -/
def RING_RATE : Nat := 0x24
def RING_RATE_rate : Fld := ⟨0x24, 19, 0⟩
/-- CC_STATUS, width 32. -/
def CC_STATUS : Nat := 0xA0000
def CC_STATUS_fw_state : Fld := ⟨0xA0000, 31, 30⟩
def CC_STATUS_fw_slot : Fld := ⟨0xA0000, 29, 28⟩
def CC_STATUS_running : Fld := ⟨0xA0000, 3, 0⟩
/-- CC_CTRL, width 32. -/
def CC_CTRL : Nat := 0xA0004
def CC_CTRL_release : Fld := ⟨0xA0004, 3, 0⟩
/-- CC_WDOG, width 32. -/
def CC_WDOG : Nat := 0xA0010
def CC_WDOG_enable : Fld := ⟨0xA0010, 31, 31⟩
def CC_WDOG_kick : Fld := ⟨0xA0010, 30, 30⟩
def CC_WDOG_timeout_ms : Fld := ⟨0xA0010, 15, 0⟩
/-- MGMT_CTRL, width 32. -/
def MGMT_CTRL : Nat := 0x0
def MGMT_CTRL_enable : Fld := ⟨0x0, 31, 31⟩
def MGMT_CTRL_link_up : Fld := ⟨0x0, 30, 30⟩
def MGMT_CTRL_rx_ring : Fld := ⟨0x0, 23, 12⟩
def MGMT_CTRL_tx_ring : Fld := ⟨0x0, 11, 0⟩
/-- SWEEP_CMD, width 32. -/
def SWEEP_CMD : Nat := 0x8000
def SWEEP_CMD_go : Fld := ⟨0x8000, 31, 31⟩
def SWEEP_CMD_list : Fld := ⟨0x8000, 3, 0⟩
/-- SWEEP_STATUS, width 32. -/
def SWEEP_STATUS : Nat := 0x8004
def SWEEP_STATUS_busy : Fld := ⟨0x8004, 31, 31⟩
def SWEEP_STATUS_list : Fld := ⟨0x8004, 30, 27⟩
def SWEEP_STATUS_buffer_free : Fld := ⟨0x8004, 13, 0⟩
/-- SWEEP_RING, width 32. -/
def SWEEP_RING : Nat := 0x8008
def SWEEP_RING_ring : Fld := ⟨0x8008, 11, 0⟩
/-- SWEEP_LIST, width 32. -/
def SWEEP_LIST : Nat := 0x8100
def SWEEP_LIST_enable : Fld := ⟨0x8100, 31, 31⟩
def SWEEP_LIST_on_second : Fld := ⟨0x8100, 30, 30⟩
def SWEEP_LIST_first_item : Fld := ⟨0x8100, 29, 20⟩
def SWEEP_LIST_item_count : Fld := ⟨0x8100, 19, 10⟩
/-- SWEEP_PERIOD, width 32. -/
def SWEEP_PERIOD : Nat := 0x8104
def SWEEP_PERIOD_period_us : Fld := ⟨0x8104, 23, 0⟩
/-- SWEEP_ITEM_ADDR, width 32. -/
def SWEEP_ITEM_ADDR : Nat := 0x9000
def SWEEP_ITEM_ADDR_wide : Fld := ⟨0x9000, 31, 31⟩
def SWEEP_ITEM_ADDR_offset : Fld := ⟨0x9000, 28, 0⟩
/-- SWEEP_ITEM_RUN, width 32. -/
def SWEEP_ITEM_RUN : Nat := 0x9004
def SWEEP_ITEM_RUN_stride : Fld := ⟨0x9004, 31, 16⟩
def SWEEP_ITEM_RUN_count : Fld := ⟨0x9004, 15, 0⟩
/-- APPLY, width 32. -/
def APPLY : Nat := 0x0
def APPLY_go : Fld := ⟨0x0, 31, 31⟩
def APPLY_revert : Fld := ⟨0x0, 30, 30⟩
def APPLY_live_view : Fld := ⟨0x0, 29, 29⟩
def APPLY_tag : Fld := ⟨0x0, 15, 0⟩
/-- APPLY_STATUS, width 32. -/
def APPLY_STATUS : Nat := 0x0
def APPLY_STATUS_pending : Fld := ⟨0x0, 31, 31⟩
def APPLY_STATUS_apply_err : Fld := ⟨0x0, 30, 30⟩
def APPLY_STATUS_dirty : Fld := ⟨0x0, 29, 29⟩
def APPLY_STATUS_err_irq : Fld := ⟨0x0, 28, 28⟩
def APPLY_STATUS_reason : Fld := ⟨0x0, 23, 16⟩
def APPLY_STATUS_tag : Fld := ⟨0x0, 15, 0⟩
/-- WIN_ADDR, width 32. -/
def WIN_ADDR : Nat := 0x0
def WIN_ADDR_index : Fld := ⟨0x0, 23, 0⟩
/-- WIN_CMD, width 32. -/
def WIN_CMD : Nat := 0x0
def WIN_CMD_go : Fld := ⟨0x0, 31, 31⟩
def WIN_CMD_op : Fld := ⟨0x0, 30, 27⟩
def WIN_CMD_part : Fld := ⟨0x0, 26, 25⟩
def WIN_CMD_half : Fld := ⟨0x0, 24, 24⟩
def WIN_CMD_table : Fld := ⟨0x0, 23, 20⟩
def WIN_CMD_state : Fld := ⟨0x0, 15, 8⟩
/-- WIN_STATUS, width 32. -/
def WIN_STATUS : Nat := 0x0
def WIN_STATUS_busy : Fld := ⟨0x0, 31, 31⟩
def WIN_STATUS_poison : Fld := ⟨0x0, 30, 30⟩
def WIN_STATUS_code : Fld := ⟨0x0, 27, 24⟩
def WIN_STATUS_state : Fld := ⟨0x0, 23, 16⟩
def WIN_STATUS_seq : Fld := ⟨0x0, 15, 0⟩
/-- WIN_DATA, width 32. -/
def WIN_DATA : Nat := 0x0
def WIN_DATA_data : Fld := ⟨0x0, 31, 0⟩

end R

/-! Counters (64 bits each): offset relative to the window. -/

namespace C

def fec_corrected_cw : Nat := 0x100
def fec_uncorrected_cw : Nat := 0x108
def fec_symbol_err : Nat := 0x110
def prbs_err : Nat := 0x118
def rx_frames : Nat := 0x1000
def rx_bytes : Nat := 0x1008
def tx_frames : Nat := 0x1010
def tx_bytes : Nat := 0x1018
def rx_fcs_err : Nat := 0x1020
def rx_runt : Nat := 0x1028
def rx_oversize : Nat := 0x1030
def tx_stomped : Nat := 0x1038
def tx_oversize : Nat := 0x1040
def link_down_flush : Nat := 0x1048
def link_down_drop : Nat := 0x1050
def reset_discard : Nat := 0x1058
def link_down_events : Nat := 0x1060
def tx_lpi_entries : Nat := 0x1068
def rx_pause : Nat := 0x1070
def rx_pfc : Nat := 0x1080
def tx_pfc : Nat := 0x10C0
def default_action : Nat := 0x1100
def gate_swaps : Nat := 0x1200
def gate_resync : Nat := 0x1208
def gate_window_wait : Nat := 0x1210
def gate_oversize : Nat := 0x1218
def gcl_active_write : Nat := 0x1220
def ptp_one_step : Nat := 0x1240
def ptp_captured : Nat := 0x1248
def ptp_tc : Nat := 0x1250
def ptp_tb_mismatch : Nat := 0x1258
def ptp_resid_skip : Nat := 0x1260
def ptp_parse_skip : Nat := 0x1268
def frames_parsed : Nat := 0x800
def waybill_invalid : Nat := 0x808
def parse_fail : Nat := 0x818
def porter_fail_discard : Nat := 0x830
def slot_total : Nat := 0x840
def slot_retired : Nat := 0x848
def slot_wasted : Nat := 0x850
def slot_back : Nat := 0x858
def slot_front : Nat := 0x860
def isb_drop : Nat := 0x400180
def commits : Nat := 0x3080
def discards : Nat := 0x3088
def stalls : Nat := 0x3090
def refused_writes : Nat := 0x3098
def settle_passes : Nat := 0x30A0
def settle_freed : Nat := 0x30A8
def em_probes : Nat := 0x440800
def em_hits : Nat := 0x440808
def em_chain_probes : Nat := 0x440810
def em_chain_loop : Nat := 0x440818
def em_poison_drop : Nat := 0x440820
def em_duplicate : Nat := 0x440828
def inserts : Nat := 0x440830
def insert_fail : Nat := 0x440838
def relocations : Nat := 0x440840
def ovf_returns : Nat := 0x440848
def learns : Nat := 0x440850
def learn_moves : Nat := 0x440858
def learn_dup : Nat := 0x440860
def learn_rate_drop : Nat := 0x440868
def learn_queue_drop : Nat := 0x440870
def learn_bad_fcs : Nat := 0x440878
def learn_bad_sa : Nat := 0x440880
def learn_static_conflict : Nat := 0x440888
def learn_shadowed : Nat := 0x440890
def aged : Nat := 0x440898
def flushed : Nat := 0x4408A0
def flood_unknown : Nat := 0x4408A8
def unknown_drop : Nat := 0x4408B0
def lpm_lookups : Nat := 0x403000
def lpm_probes : Nat := 0x403008
def lpm_hits : Nat := 0x403010
def lpm_short_hits : Nat := 0x403018
def lpm_misses : Nat := 0x403020
def lpm_held : Nat := 0x403028
def lpm_hold_full : Nat := 0x403030
def lpm_poison_drop : Nat := 0x403038
def lpm_filter_poison : Nat := 0x403040
def lpm_key_err : Nat := 0x403048
def tcam_search_a : Nat := 0x450800
def tcam_search_b : Nat := 0x450808
def tcam_search_short : Nat := 0x450810
def tcam_hit_a : Nat := 0x450818
def tcam_hit_b : Nat := 0x450820
def tcam_hit_short : Nat := 0x450828
def tcam_false_hit : Nat := 0x450830
def tcam_verify_drop : Nat := 0x450838
def tcam_poison : Nat := 0x450840
def tcam_row_repair : Nat := 0x450848
def tcam_write_slots : Nat := 0x450850
def tcam_scrub_rows : Nat := 0x450858
def verdicts : Nat := 0x470C00
def unicast : Nat := 0x470C08
def multicast : Nat := 0x470C10
def punts : Nat := 0x470C18
def drop_acl : Nat := 0x470C20
def drop_null : Nat := 0x470C28
def drop_red : Nat := 0x470C30
def drop_yellow : Nat := 0x470C38
def bad_result : Nat := 0x470C40
def nh_invalid : Nat := 0x470C48
def object_poison_drop : Nat := 0x470C50
def green : Nat := 0x470C58
def yellow : Nat := 0x470C60
def red : Nat := 0x470C68
def mirror_copies : Nat := 0x470C70
def ct_frames : Nat := 0x470C78
def sf_frames : Nat := 0x470C80
def egress_bad_drop : Nat := 0x470C88
def edit_err_drop : Nat := 0x470C90
def ttl_expired : Nat := 0x470C98
def underrun_stomp : Nat := 0x470CA0
def cells_in : Nat := 0x800
def cells_out : Nat := 0x808
def plane_crc_err : Nat := 0x810
def plane_resends : Nat := 0x818
def cells_discarded : Nat := 0xA00
def barriers : Nat := 0xA08
def cells_tx : Nat := 0x480800
def cells_rx : Nat := 0x480808
def fab_crc_err : Nat := 0x480810
def fab_resends : Nat := 0x480818
def fab_plane_discard : Nat := 0x480820
def fab_reasm_drop : Nat := 0x480828
def held_frames : Nat := 0x480830
def repins : Nat := 0x480838
def mc_frames : Nat := 0x490800
def mc_slice_copies : Nat := 0x490808
def mc_port_copies : Nat := 0x490810
def mc_suppressed : Nat := 0x490818
def mc_list_err : Nat := 0x490820
def coach_direct : Nat := 0x490828
def coach_queued : Nat := 0x490830
def coach_timeout_drop : Nat := 0x490838
def coach_full_drop : Nat := 0x490840
def alloc_cells : Nat := 0x800
def free_cells : Nat := 0x808
def refused_admit : Nat := 0x810
def not_owner : Nat := 0x818
def double_free : Nat := 0x820
def bad_ptr : Nat := 0x828
def reclaimed : Nat := 0x830
def bundles_spilled : Nat := 0x838
def bundles_written : Nat := 0xC00
def bundles_fetched : Nat := 0xC08
def spill_full : Nat := 0xC10
def spill_lost : Nat := 0xC18
def spill_poison_drop : Nat := 0xC20
def pri_limit_drop : Nat := 0xC28
def colour_drop : Nat := 0xC30
def q_tx_frames : Nat := 0x900000
def q_tx_bytes : Nat := 0x900008
def q_drop_frames : Nat := 0x900010
def q_drop_bytes : Nat := 0x900018
def decisions : Nat := 0xA00000
def default_sub_frames : Nat := 0xA00008
def sched_no_queue : Nat := 0xA00010
def drop_disabled : Nat := 0xA00018
def drop_top_limit : Nat := 0xA00020
def drop_limit : Nat := 0xA00028
def drop_colour_limit : Nat := 0xA00030
def record_repair : Nat := 0xA00038
def sched_poison_flush : Nat := 0xA00040
def tb_steps : Nat := 0x80
def tb_foreign_write : Nat := 0x88
def tb_pps_captures : Nat := 0x90
def beats_read : Nat := 0x800
def beats_written : Nat := 0x808
def hbm_ce : Nat := 0x810
def hbm_ue : Nat := 0x818
def refresh_emergency : Nat := 0x820
def preemptions : Nat := 0x828
def restarts : Nat := 0x830
def hammer_events : Nat := 0x838
/-- The spec gives the stack counters addresses that pseudo-channel counters already have; the model holds them 0x10_0000 higher, where
nothing is mapped, so that neither counts for the other (DESIGN CHOICE, notes/assumptions/7.md). -/
def grants : Nat := 0x100C00
def starve_events : Nat := 0x100C40
def sr_entries : Nat := 0x100C48
def freq_changes : Nat := 0x100C50
def trainings : Nat := 0x100C58
def ce_bytes : Nat := 0x5080
def ue_reads : Nat := 0x5088
def scrub_passes : Nat := 0x5090
def scrub_corrected : Nat := 0x5098
def scrub_ue : Nat := 0x50A0
def remaps : Nat := 0x50A8
def log_lost : Nat := 0x50B0
def learn_fifo_ce : Nat := 0x440180
def learn_fifo_ue_drop : Nat := 0x440188
def learn_overrun_items : Nat := 0x440190
def ts_fifo_ce : Nat := 0x4A0080
def ts_fifo_ue_drop : Nat := 0x4A0088
def ts_overrun_items : Nat := 0x4A0090
def punt_fifo_ce : Nat := 0x4A0140
def punt_fifo_ue_drop : Nat := 0x4A0148
def punt_overrun_items : Nat := 0x4A0150
def ovf_fifo_ce : Nat := 0x6F40
def ovf_fifo_ue_drop : Nat := 0x6F48
def ovf_overrun_items : Nat := 0x6F50
def ledger_records : Nat := 0x6800
def records_lost : Nat := 0x6830
def journal_written : Nat := 0x6838
def journal_lost : Nat := 0x6840
def injections : Nat := 0x6848
def latch_busy : Nat := 0x6850
def latch_foreign : Nat := 0x6858
def sleep_entries : Nat := 0x7800
def asleep_us : Nat := 0x7808
def wake_store_drop : Nat := 0x7810
def wake_fallback : Nat := 0x7818
def avs_steps : Nat := 0x7900
def pmbus_retries : Nat := 0x7908
def replans : Nat := 0x7910
def replan_deferred : Nat := 0x7918
def sag_events : Nat := 0x7920
def keepsake_line_writes : Nat := 0x7928
def bar_bad_access : Nat := 0x80080
def vf_denied : Nat := 0x80088
def ring_frames : Nat := 0x28
def ring_bytes : Nat := 0x30
def ring_drops : Nat := 0x38
def mg_rx_frames : Nat := 0x80
def mg_rx_bytes : Nat := 0x88
def mg_tx_frames : Nat := 0x90
def mg_tx_bytes : Nat := 0x98
def mg_rx_fcs_err : Nat := 0xA0
def sweeps : Nat := 0x8800
def sweep_records : Nat := 0x8808
def sweep_overrun : Nat := 0x8810
def sweep_skipped : Nat := 0x8818

end C

end Sys2Proof.Machine
end

