-- ==== Sys2Proof/Machine/RegTable.lean ====
section
/-! DEFINITION. The register table: one row per register (or array of registers) of BAR0, with its reset value and, as masks, the
access codes of its fields (spec/00_scope.md R8, Table 0-5). A bit in no mask is read only (RO, LK) or write only. -/

namespace Sys2Proof.Machine

/-- One row of the register table: the byte offset in its region, the array dimensions (count, stride) from the outermost in,
whether it is 64 bits wide, its reset value, the masks of its RW, SG, W1C, RC, named (not reserved) and WO bits, whether it holds an
LK field; `counter` marks a counter (R446). -/
structure RegRow where
  off : Nat
  dims : List (Nat × Nat)
  wide : Bool
  rst : Nat
  rw : Nat
  sg : Nat
  w1c : Nat
  rc : Nat
  named : Nat
  wo : Nat
  lk : Bool
  counter : Bool
deriving DecidableEq, Repr

namespace RegTable

def global0 : List RegRow := [
  ⟨0, [], false, 0x64802100, 0, 0, 0, 0, 0xFFFFFFF0, 0, false, false⟩,
  ⟨0x100, [], false, 0, 0x3FFFF, 0, 0, 0, 0x8003FFFF, 0x80000000, false, false⟩,
  ⟨0x104, [], false, 0, 0, 0, 0, 0, 0xC0FFFFFF, 0, false, false⟩,
  ⟨0x110, [], false, 0, 0xFFFF, 0, 0, 0, 0xFFFF, 0, false, false⟩,
  ⟨0x114, [], false, 0, 0, 0, 0, 0, 0xFFFFFFFF, 0, false, false⟩,
  ⟨0x120, [], false, 0, 0, 0, 0, 0, 0xFFFF0001, 0xFFFF0001, false, false⟩,
  ⟨0x200, [], false, 0, 0, 0, 0, 0, 0xFEFFFF00, 0, false, false⟩,
  ⟨0x204, [], false, 0, 0, 0, 0, 0, 0xFFFFFFFF, 0, true, false⟩,
  ⟨0x208, [], false, 0, 0, 0, 0, 0, 0xFFFF, 0, true, false⟩,
  ⟨0x210, [], false, 0xC000000, 0, 0, 0, 0, 0xFEFFFFFF, 0, false, false⟩,
  ⟨0x3000, [], false, 0, 0x7000003F, 0, 0, 0, 0xF000003F, 0x80000000, false, false⟩,
  ⟨0x3004, [], false, 0, 0, 0, 0x8000000, 0, 0xFCFFFFFF, 0, false, false⟩,
  ⟨0x3008, [], false, 0, 0, 0, 0, 0, 0x3FFFF, 0, false, false⟩,
  ⟨0x300C, [], false, 0, 0, 0, 0, 0, 0x3FFFF, 0, false, false⟩,
  ⟨0x3010, [(4, 4)], false, 0, 0, 0, 0, 0, 0xE000FFFF, 0, false, false⟩,
  ⟨0x3020, [(4, 4)], false, 0, 0, 0, 0, 0, 0xFFFFFFFF, 0, false, false⟩,
  ⟨0x3030, [], false, 0x640000, 0xFFFF0000, 0, 0, 0, 0xFFFF0000, 0, false, false⟩,
  ⟨0x3034, [], false, 0, 0, 0, 0, 0, 0x7F01FFFF, 0, false, false⟩,
  ⟨0x3038, [], false, 0, 0, 0, 0x1F, 0, 0x1F, 0, false, false⟩,
  ⟨0x303C, [], false, 0, 0x1F, 0, 0, 0, 0x1F, 0, false, false⟩,
  ⟨0x3040, [], false, 0, 0, 0, 0, 0xC000FFFF, 0xC000FFFF, 0, false, false⟩,
  ⟨0x3044, [], false, 0, 0, 0, 0, 0, 0xFFFFFFFF, 0, false, false⟩,
  ⟨0x3048, [], false, 0, 0, 0, 0, 0, 0xFFFFFFFF, 0, false, false⟩,
  ⟨0x3080, [], true, 0, 0, 0, 0, 0, 0, 0, false, true⟩,
  ⟨0x3088, [], true, 0, 0, 0, 0, 0, 0, 0, false, true⟩,
  ⟨0x3090, [], true, 0, 0, 0, 0, 0, 0, 0, false, true⟩,
  ⟨0x3098, [], true, 0, 0, 0, 0, 0, 0, 0, false, true⟩,
  ⟨0x30A0, [], true, 0, 0, 0, 0, 0, 0, 0, false, true⟩,
  ⟨0x30A8, [], true, 0, 0, 0, 0, 0, 0, 0, false, true⟩,
  ⟨0x3200, [(8, 4)], false, 0, 0, 0x8000007F, 0, 0, 0x8000007F, 0, false, false⟩,
  ⟨0x32F8, [], false, 0, 0x2000FFFF, 0, 0, 0, 0xE000FFFF, 0xC0000000, false, false⟩,
  ⟨0x32FC, [], false, 0, 0, 0, 0x10000000, 0, 0xF0FFFFFF, 0, false, false⟩,
  ⟨0x4000, [(64, 4)], false, 0, 0, 0, 0, 0, 0xC01FFFFF, 0, false, false⟩,
  ⟨0x4100, [(64, 4)], false, 0, 0, 0, 0x40000000, 0, 0xE01FFFFF, 0x80000000, false, false⟩,
  ⟨0x4200, [], false, 0, 0, 0, 0, 0, 0xFFFF803F, 0xFFFF803F, false, false⟩,
  ⟨0x5000, [], false, 0, 0xFFFF, 0, 0, 0, 0xFFFF, 0, false, false⟩,
  ⟨0x6000, [], false, 0, 0, 0, 0, 0, 0x80000000, 0x80000000, false, false⟩,
  ⟨0x6004, [], false, 0, 0, 0, 0x40000000, 0, 0xF00007FF, 0, false, false⟩,
  ⟨0x6008, [], false, 0, 0, 0, 0x3F, 0, 0x3F, 0, false, false⟩,
  ⟨0x600C, [], false, 0x40000000, 0x40000000, 0, 0x80000000, 0, 0xC0000000, 0, false, false⟩,
  ⟨0x6010, [], false, 0, 0x7FF, 0, 0, 0, 0x7FF, 0, false, false⟩,
  ⟨0x6014, [], false, 0, 0, 0, 0, 0, 0x7FF, 0, false, false⟩,
  ⟨0x6018, [], false, 0, 0x8000FFFF, 0, 0, 0, 0x8000FFFF, 0, false, false⟩,
  ⟨0x6020, [(4, 4)], false, 0, 0, 0, 0, 0, 0xFFFFFFFF, 0, false, false⟩,
  ⟨0x6030, [(4, 4)], false, 0, 0, 0, 0, 0, 0xFFFFFFFF, 0, false, false⟩,
  ⟨0x6040, [], false, 0, 0xFFF, 0, 0, 0, 0xFFF, 0, false, false⟩,
  ⟨0x6044, [], false, 0, 0, 0, 0, 0, 0xFFFF, 0, false, false⟩,
  ⟨0x6050, [], false, 0, 0xFFF, 0, 0, 0, 0xFFF, 0, false, false⟩,
  ⟨0x6054, [], false, 0, 0xFFFF, 0, 0, 0, 0xFFFF, 0, false, false⟩,
  ⟨0x6058, [], false, 0, 0xFF, 0, 0, 0, 0xFF, 0, false, false⟩,
  ⟨0x605C, [], false, 0, 0x8FFFFFFF, 0, 0, 0, 0x8FFFFFFF, 0, false, false⟩,
  ⟨0x6060, [], false, 0, 0xFFFF, 0, 0, 0, 0xFFFF, 0, false, false⟩,
  ⟨0x6070, [], false, 0, 0xFFFF, 0, 0, 0, 0xFFFF, 0, false, false⟩,
  ⟨0x6074, [], false, 0x100, 0xC000FF0F, 0, 0, 0, 0xC0FFFF0F, 0, false, false⟩,
  ⟨0x6078, [], false, 0, 0xFFFF, 0, 0, 0, 0xFFFF, 0, false, false⟩,
  ⟨0x607C, [], false, 0, 0xFFFFFFFF, 0, 0, 0, 0xFFFFFFFF, 0, false, false⟩,
  ⟨0x6800, [(6, 8)], true, 0, 0, 0, 0, 0, 0, 0, false, true⟩,
  ⟨0x6830, [], true, 0, 0, 0, 0, 0, 0, 0, false, true⟩,
  ⟨0x6838, [], true, 0, 0, 0, 0, 0, 0, 0, false, true⟩,
  ⟨0x6840, [], true, 0, 0, 0, 0, 0, 0, 0, false, true⟩]
def global1 : List RegRow := [
  ⟨0x6848, [], true, 0, 0, 0, 0, 0, 0, 0, false, true⟩,
  ⟨0x6850, [], true, 0, 0, 0, 0, 0, 0, 0, false, true⟩,
  ⟨0x6858, [], true, 0, 0, 0, 0, 0, 0, 0, false, true⟩,
  ⟨0x6F00, [], false, 0xA, 0xFFFF, 0, 0, 0, 0x8000FFFF, 0x80000000, false, false⟩,
  ⟨0x6F04, [], false, 0, 0, 0, 0x60000000, 0, 0xF0001FFF, 0, false, false⟩,
  ⟨0x6F40, [], true, 0, 0, 0, 0, 0, 0, 0, false, true⟩,
  ⟨0x6F48, [], true, 0, 0, 0, 0, 0, 0, 0, false, true⟩,
  ⟨0x6F50, [], true, 0, 0, 0, 0, 0, 0, 0, false, true⟩,
  ⟨0x7000, [], false, 0, 0, 0, 0, 0, 0xF0000000, 0, false, false⟩,
  ⟨0x7004, [], false, 0x3E8, 0, 0x8000FFFF, 0, 0, 0x8000FFFF, 0, false, false⟩,
  ⟨0x7008, [], false, 0, 0, 0xFF, 0, 0, 0xFF, 0, false, false⟩,
  ⟨0x700C, [], false, 0, 0, 0, 0, 0, 0xFFFF, 0, false, false⟩,
  ⟨0x7010, [], false, 0, 0xFF, 0, 0, 0, 0x800000FF, 0x80000000, false, false⟩,
  ⟨0x7014, [], false, 0, 0, 0xC7FF07FF, 0, 0, 0xC7FF07FF, 0, false, false⟩,
  ⟨0x7018, [], false, 0, 0, 0xFFFF, 0, 0, 0xFFFF, 0, false, false⟩,
  ⟨0x7020, [], false, 0x2D00334, 0, 0x8FFF0FFF, 0, 0, 0x8FFF0FFF, 0, false, false⟩,
  ⟨0x7024, [], false, 0x400000, 0, 0x7FFF00, 0, 0, 0x7FFF00, 0, false, false⟩,
  ⟨0x7028, [], false, 0x14000A, 0, 0xFF00FF, 0, 0, 0xFF00FF, 0, false, false⟩,
  ⟨0x702C, [], false, 0x2EE0000, 0, 0, 0, 0, 0xFFFF0FFF, 0, false, false⟩,
  ⟨0x7030, [], false, 0x7000A00, 0, 0xFF00FF00, 0, 0, 0xFF00FF00, 0, false, false⟩,
  ⟨0x7034, [], false, 0, 0, 0, 0, 0, 0xFF0000FF, 0, false, false⟩,
  ⟨0x7038, [], false, 0, 0x7F, 0, 0, 0, 0x7F, 0, false, false⟩,
  ⟨0x7040, [], true, 0, 0, 0, 0, 0, 0xFFFFFFFFFFFF, 0, false, false⟩,
  ⟨0x7048, [], false, 0x65402A8, 0, 0xFFFFFFFF, 0, 0, 0xFFFFFFFF, 0, false, false⟩,
  ⟨0x704C, [], false, 0, 0, 0, 0, 0, 0xE0000000, 0, false, false⟩,
  ⟨0x7050, [], false, 0x64700000, 0, 0xFFFF0000, 0, 0, 0xFFFF0000, 0, false, false⟩,
  ⟨0x7054, [], false, 0x7000, 0, 0, 0, 0, 0xFF3FFF00, 0, false, false⟩,
  ⟨0x7058, [], false, 0, 0x3F, 0, 0, 0, 0x3F, 0, false, false⟩,
  ⟨0x705C, [], false, 0, 0, 0, 0, 0, 0xFF, 0, false, false⟩,
  ⟨0x7060, [], false, 0, 0, 0, 0x3F, 0, 0x3F, 0, false, false⟩,
  ⟨0x7064, [], false, 0, 0x3F, 0, 0, 0, 0x3F, 0, false, false⟩,
  ⟨0x7100, [], false, 0, 0xFFFFFF, 0, 0, 0, 0xFFFFFF, 0, false, false⟩,
  ⟨0x7104, [], false, 0, 0x7FF0FF00, 0, 0, 0, 0xFFF0FF00, 0x80000000, false, false⟩,
  ⟨0x7108, [], false, 0, 0xFFFF, 0, 0, 0, 0xCFFFFFFF, 0, false, false⟩,
  ⟨0x7110, [(8, 4)], false, 0, 0xFFFFFFFF, 0, 0, 0, 0xFFFFFFFF, 0, false, false⟩,
  ⟨0x7800, [(8, 0x20)], true, 0, 0, 0, 0, 0, 0, 0, false, true⟩,
  ⟨0x7808, [(8, 0x20)], true, 0, 0, 0, 0, 0, 0, 0, false, true⟩,
  ⟨0x7810, [(8, 0x20)], true, 0, 0, 0, 0, 0, 0, 0, false, true⟩,
  ⟨0x7818, [(8, 0x20)], true, 0, 0, 0, 0, 0, 0, 0, false, true⟩,
  ⟨0x7900, [], true, 0, 0, 0, 0, 0, 0, 0, false, true⟩,
  ⟨0x7908, [], true, 0, 0, 0, 0, 0, 0, 0, false, true⟩,
  ⟨0x7910, [], true, 0, 0, 0, 0, 0, 0, 0, false, true⟩,
  ⟨0x7918, [], true, 0, 0, 0, 0, 0, 0, 0, false, true⟩,
  ⟨0x7920, [], true, 0, 0, 0, 0, 0, 0, 0, false, true⟩,
  ⟨0x7928, [], true, 0, 0, 0, 0, 0, 0, 0, false, true⟩,
  ⟨0x7FF8, [], false, 0, 0x2000FFFF, 0, 0, 0, 0xE000FFFF, 0xC0000000, false, false⟩,
  ⟨0x7FFC, [], false, 0, 0, 0, 0x10000000, 0, 0xF0FFFFFF, 0, false, false⟩,
  ⟨0x8000, [], false, 0, 0xF, 0, 0, 0, 0x8000000F, 0x80000000, false, false⟩,
  ⟨0x8004, [], false, 0x2000, 0, 0, 0, 0, 0xF8003FFF, 0, false, false⟩,
  ⟨0x8008, [], false, 0, 0xFFF, 0, 0, 0, 0xFFF, 0, false, false⟩,
  ⟨0x8100, [(16, 8)], false, 0, 0xFFFFFC00, 0, 0, 0, 0xFFFFFC00, 0, false, false⟩,
  ⟨0x8104, [(16, 8)], false, 0, 0xFFFFFF, 0, 0, 0, 0xFFFFFF, 0, false, false⟩,
  ⟨0x8800, [], true, 0, 0, 0, 0, 0, 0, 0, false, true⟩,
  ⟨0x8808, [], true, 0, 0, 0, 0, 0, 0, 0, false, true⟩,
  ⟨0x8810, [], true, 0, 0, 0, 0, 0, 0, 0, false, true⟩,
  ⟨0x8818, [], true, 0, 0, 0, 0, 0, 0, 0, false, true⟩,
  ⟨0x9000, [(1024, 8)], false, 0x80000000, 0x9FFFFFFF, 0, 0, 0, 0x9FFFFFFF, 0, false, false⟩,
  ⟨0x9004, [(1024, 8)], false, 0x80001, 0xFFFFFFFF, 0, 0, 0, 0xFFFFFFFF, 0, false, false⟩,
  ⟨0x40000, [(8, 0x100)], false, 0, 0, 0xC000FFFF, 0, 0, 0xC000FFFF, 0, false, false⟩,
  ⟨0x40004, [(8, 0x100)], false, 0, 0, 0, 0, 0, 0xC0FF0000, 0, false, false⟩]
def global2 : List RegRow := [
  ⟨0x40008, [(8, 0x100)], false, 0, 0x1F, 0, 0, 0, 0x1F, 0, false, false⟩,
  ⟨0x4000C, [(8, 0x100)], false, 0, 0, 0, 0xF, 0, 0xF, 0, false, false⟩,
  ⟨0x40010, [(8, 0x100)], false, 0, 0xF, 0, 0, 0, 0xF, 0, false, false⟩,
  ⟨0x40018, [(8, 0x100)], true, 0, 0, 0x7FFFFFFFFF, 0, 0, 0x7FFFFFFFFF, 0, false, false⟩,
  ⟨0x40020, [(8, 0x100)], true, 0, 0, 0xFFFFFFFFFFFFFFFF, 0, 0, 0xFFFFFFFFFFFFFFFF, 0, false, false⟩,
  ⟨0x40028, [(8, 0x100)], true, 0, 0, 0xFFFFFFFFFFFF, 0, 0, 0xFFFFFFFFFFFF, 0, false, false⟩,
  ⟨0x40030, [(8, 0x100)], true, 0, 0, 0xFFFFFFFFFFFF, 0, 0, 0xFFFFFFFFFFFF, 0, false, false⟩,
  ⟨0x40038, [(8, 0x100)], true, 0, 0, 0, 0, 0, 0xFFFFFFFFFFFF, 0, false, false⟩,
  ⟨0x40040, [(8, 0x100)], true, 0, 0, 0, 0, 0, 0xFFFFFFFFFFFF, 0, false, false⟩,
  ⟨0x40048, [(8, 0x100)], true, 0, 0, 0, 0, 0x8000000000000000, 0x8000FFFFFFFFFFFF, 0, false, false⟩,
  ⟨0x40050, [(8, 0x100)], true, 0, 0, 0, 0, 0, 0xFFFFFFFFFFFF, 0, false, false⟩,
  ⟨0x40080, [(8, 0x100)], true, 0, 0, 0, 0, 0, 0, 0, false, true⟩,
  ⟨0x40088, [(8, 0x100)], true, 0, 0, 0, 0, 0, 0, 0, false, true⟩,
  ⟨0x40090, [(8, 0x100)], true, 0, 0, 0, 0, 0, 0, 0, false, true⟩,
  ⟨0x400F8, [(8, 0x100)], false, 0, 0x2000FFFF, 0, 0, 0, 0xE000FFFF, 0xC0000000, false, false⟩,
  ⟨0x400FC, [(8, 0x100)], false, 0, 0, 0, 0x10000000, 0, 0xF0FFFFFF, 0, false, false⟩,
  ⟨0x40800, [], false, 0, 0x80000000, 0, 0, 0, 0xE0000000, 0, false, false⟩,
  ⟨0x40810, [(2, 4)], false, 0x1900000, 0xFFFC0000, 0, 0, 0, 0xFFFC0000, 0, false, false⟩,
  ⟨0x40818, [(2, 4)], false, 0, 0xFFFF, 0, 0, 0, 0xFFFF, 0, false, false⟩,
  ⟨0x80000, [], false, 0, 0, 0, 0, 0, 0xFF000000, 0, false, false⟩,
  ⟨0x80080, [], true, 0, 0, 0, 0, 0, 0, 0, false, true⟩,
  ⟨0x80088, [(15, 8)], true, 0, 0, 0, 0, 0, 0, 0, false, true⟩,
  ⟨0x80100, [], false, 0x1000000, 0xCF0007FF, 0, 0, 0, 0xCF0007FF, 0, false, false⟩,
  ⟨0x80104, [], false, 0x1000001, 0xCF0007FF, 0, 0, 0, 0xCF0007FF, 0, false, false⟩,
  ⟨0x80108, [], false, 0x1000002, 0xCF0007FF, 0, 0, 0, 0xCF0007FF, 0, false, false⟩,
  ⟨0x8010C, [], false, 0x1000003, 0xCF0007FF, 0, 0, 0, 0xCF0007FF, 0, false, false⟩,
  ⟨0x80110, [], false, 0x1000004, 0xCF0007FF, 0, 0, 0, 0xCF0007FF, 0, false, false⟩,
  ⟨0x80114, [], false, 0x1000005, 0xCF0007FF, 0, 0, 0, 0xCF0007FF, 0, false, false⟩,
  ⟨0x80118, [], false, 0x1000006, 0xCF0007FF, 0, 0, 0, 0xCF0007FF, 0, false, false⟩,
  ⟨0x8011C, [], false, 0x1000007, 0xCF0007FF, 0, 0, 0, 0xCF0007FF, 0, false, false⟩,
  ⟨0x80120, [], false, 0x1000008, 0xCF0007FF, 0, 0, 0, 0xCF0007FF, 0, false, false⟩,
  ⟨0x80124, [], false, 0x1000009, 0xCF0007FF, 0, 0, 0, 0xCF0007FF, 0, false, false⟩,
  ⟨0x80128, [], false, 0x100000A, 0xCF0007FF, 0, 0, 0, 0xCF0007FF, 0, false, false⟩,
  ⟨0x8012C, [], false, 0x100000B, 0xCF0007FF, 0, 0, 0, 0xCF0007FF, 0, false, false⟩,
  ⟨0x80130, [], false, 0x100000C, 0xCF0007FF, 0, 0, 0, 0xCF0007FF, 0, false, false⟩,
  ⟨0x80134, [], false, 0x100000D, 0xCF0007FF, 0, 0, 0, 0xCF0007FF, 0, false, false⟩,
  ⟨0x80138, [], false, 0x100000E, 0xCF0007FF, 0, 0, 0, 0xCF0007FF, 0, false, false⟩,
  ⟨0x8013C, [], false, 0x100000F, 0xCF0007FF, 0, 0, 0, 0xCF0007FF, 0, false, false⟩,
  ⟨0x80140, [], false, 0, 0, 0, 0, 0, 0xFFFF, 0, false, false⟩,
  ⟨0x80144, [], false, 0, 0, 0, 0, 0, 0xFFFF, 0xFFFF, false, false⟩,
  ⟨0x90080, [(15, 0x80), (8, 8)], false, 0, 0x1FFFF000, 0, 0, 0, 0x1FFFF000, 0, false, false⟩,
  ⟨0x90084, [(15, 0x80), (8, 8)], false, 0xC, 0xC000001F, 0, 0, 0, 0xC000001F, 0, false, false⟩,
  ⟨0x90810, [(15, 0x10), (4, 4)], false, 0, 0xFFFFFFFF, 0, 0, 0, 0xFFFFFFFF, 0, false, false⟩,
  ⟨0xA0000, [], false, 0x30000000, 0, 0, 0, 0, 0xF000000F, 0, false, false⟩,
  ⟨0xA0004, [], false, 0, 0xF, 0, 0, 0, 0xF, 0, false, false⟩,
  ⟨0xA0010, [(4, 4)], false, 0x3E8, 0x8000FFFF, 0, 0, 0, 0xC000FFFF, 0x40000000, false, false⟩,
  ⟨0xB0000, [(2, 0x100)], false, 0, 0x80FFFFFF, 0, 0, 0, 0xC0FFFFFF, 0, false, false⟩,
  ⟨0xB0080, [(2, 0x100)], true, 0, 0, 0, 0, 0, 0, 0, false, true⟩,
  ⟨0xB0088, [(2, 0x100)], true, 0, 0, 0, 0, 0, 0, 0, false, true⟩,
  ⟨0xB0090, [(2, 0x100)], true, 0, 0, 0, 0, 0, 0, 0, false, true⟩,
  ⟨0xB0098, [(2, 0x100)], true, 0, 0, 0, 0, 0, 0, 0, false, true⟩,
  ⟨0xB00A0, [(2, 0x100)], true, 0, 0, 0, 0, 0, 0, 0, false, true⟩,
  ⟨0x100000, [(4096, 0x40)], false, 0, 0xFFFFF000, 0, 0, 0, 0xFFFFF000, 0, false, false⟩,
  ⟨0x100004, [(4096, 0x40)], false, 0, 0xFFFFFFFF, 0, 0, 0, 0xFFFFFFFF, 0, false, false⟩,
  ⟨0x100008, [(4096, 0x40)], false, 0x600000, 0xFFF007FF, 0, 0, 0, 0xFFF007FF, 0, false, false⟩,
  ⟨0x10000C, [(4096, 0x40)], false, 0, 0x1FFFF, 0, 0, 0, 0x1FFFF, 0, false, false⟩,
  ⟨0x100010, [(4096, 0x40)], false, 0, 0x1FFFF, 0, 0, 0, 0x1FFFF, 0, false, false⟩,
  ⟨0x100014, [(4096, 0x40)], false, 0, 0xFFFFFFFF, 0, 0, 0, 0xFFFFFFFF, 0, false, false⟩,
  ⟨0x100018, [(4096, 0x40)], false, 0, 0xFFFFFFFF, 0, 0, 0, 0xFFFFFFFF, 0, false, false⟩,
  ⟨0x10001C, [(4096, 0x40)], false, 0, 0x80FFFFFF, 0, 0x40000000, 0, 0xC0FFFFFF, 0, false, false⟩]
def global3 : List RegRow := [
  ⟨0x100020, [(4096, 0x40)], false, 0, 0, 0, 0, 0, 0xC0FF0000, 0, false, false⟩,
  ⟨0x100024, [(4096, 0x40)], false, 0, 0xFFFFF, 0, 0, 0, 0xFFFFF, 0, false, false⟩,
  ⟨0x100028, [(4096, 0x40)], true, 0, 0, 0, 0, 0, 0, 0, false, true⟩,
  ⟨0x100030, [(4096, 0x40)], true, 0, 0, 0, 0, 0, 0, 0, false, true⟩,
  ⟨0x100038, [(4096, 0x40)], true, 0, 0, 0, 0, 0, 0, 0, false, true⟩]
/-- The registers of the global region. -/
def globalRows : List RegRow := global0 ++ global1 ++ global2 ++ global3

def slice0 : List RegRow := [
  ⟨0x100000, [(16, 0x4000)], false, 1, 0, 7, 0, 0, 7, 0, false, false⟩,
  ⟨0x100004, [(16, 0x4000)], false, 0, 0, 0, 0, 0, 0xFFFFFF00, 0, false, false⟩,
  ⟨0x100008, [(16, 0x4000)], false, 0x32000A, 0, 0xFFFFFFFF, 0, 0, 0xFFFFFFFF, 0, false, false⟩,
  ⟨0x10000C, [(16, 0x4000)], false, 0x7D0, 0, 0xFFFFF, 0, 0, 0xFFFFF, 0, false, false⟩,
  ⟨0x100010, [(16, 0x4000)], false, 0x2800, 0, 0x3FFF, 0, 0, 0x3FFF, 0, false, false⟩,
  ⟨0x100014, [(16, 0x4000)], false, 0x10000, 0, 0xCFFFFFFF, 0, 0, 0xCFFFFFFF, 0, false, false⟩,
  ⟨0x100018, [(16, 0x4000)], false, 0x14, 0, 0x3FFFFFFF, 0, 0, 0x3FFFFFFF, 0, false, false⟩,
  ⟨0x10001C, [(16, 0x4000)], false, 0, 0, 0xC0FFFF00, 0, 0, 0xC0FFFF00, 0, false, false⟩,
  ⟨0x100020, [(16, 0x4000)], false, 0xFFFF8000, 0, 0xFFFFFFFF, 0, 0, 0xFFFFFFFF, 0, false, false⟩,
  ⟨0x100024, [(16, 0x4000)], false, 0x64, 0, 0xFFFFFFFF, 0, 0, 0xFFFFFFFF, 0, false, false⟩,
  ⟨0x100028, [(16, 0x4000)], false, 0, 0, 0xC0000000, 0, 0, 0xC0000000, 0, false, false⟩,
  ⟨0x10002C, [(16, 0x4000)], false, 0, 0, 0, 0xF, 0, 0xF, 0, false, false⟩,
  ⟨0x100030, [(16, 0x4000)], false, 0, 0xF, 0, 0, 0, 0xF, 0, false, false⟩,
  ⟨0x100040, [(16, 0x4000), (8, 4)], false, 0x4000300, 0, 0xFFFFFFFF, 0, 0, 0xFFFFFFFF, 0, false, false⟩,
  ⟨0x100060, [(16, 0x4000), (4, 4)], false, 0, 0, 0, 0, 0, 0xFFFFFFFF, 0, false, false⟩,
  ⟨0x100080, [(16, 0x4000)], false, 0xFF0000, 0, 0x87FF0000, 0, 0, 0x87FF0000, 0, false, false⟩,
  ⟨0x100084, [(16, 0x4000)], false, 0xFF0000, 0, 0, 0, 0, 0xE0FF00FF, 0, false, false⟩,
  ⟨0x100088, [(16, 0x4000)], false, 0, 0x80000000, 0, 0, 0, 0x800000FF, 0, false, false⟩,
  ⟨0x10008C, [(16, 0x4000)], false, 0, 0, 0, 0x1F, 0, 0x1F, 0, false, false⟩,
  ⟨0x100090, [(16, 0x4000)], true, 0, 0xFFFFFFFFFFFF, 0, 0, 0, 0xFFFFFFFFFFFF, 0, false, false⟩,
  ⟨0x100098, [(16, 0x4000)], false, 0, 0x3FFFFFFF, 0, 0, 0, 0x3FFFFFFF, 0, false, false⟩,
  ⟨0x10009C, [(16, 0x4000)], false, 0, 0x1F, 0, 0, 0, 0x1F, 0, false, false⟩,
  ⟨0x1000A0, [(16, 0x4000), (8, 4)], false, 0x2800, 0, 0x3FFF, 0, 0, 0x3FFF, 0, false, false⟩,
  ⟨0x1000C0, [(16, 0x4000), (8, 4)], false, 0x7FFFFFF, 0, 0, 0, 0, 0x7FFFFFF, 0, false, false⟩,
  ⟨0x100100, [(16, 0x4000), (2, 0x20)], false, 0, 0x1FF, 0, 0, 0, 0x1FF, 0, false, false⟩,
  ⟨0x100104, [(16, 0x4000), (2, 0x20)], false, 0, 0x7FFFFFF, 0, 0, 0, 0x7FFFFFF, 0, false, false⟩,
  ⟨0x100108, [(16, 0x4000), (2, 0x20)], true, 0, 0xFFFFFFFFFFFF, 0, 0, 0, 0xFFFFFFFFFFFF, 0, false, false⟩,
  ⟨0x100110, [(16, 0x4000), (2, 0x20)], false, 0, 0x3FFFFFFF, 0, 0, 0, 0x3FFFFFFF, 0, false, false⟩,
  ⟨0x100140, [(16, 0x4000)], false, 0, 0, 0xE7000000, 0, 0, 0xE7000000, 0, false, false⟩,
  ⟨0x100144, [(16, 0x4000)], false, 0, 0, 0xFFFFFFFF, 0, 0, 0xFFFFFFFF, 0, false, false⟩,
  ⟨0x100148, [(16, 0x4000)], false, 0x3E8, 0, 0xFFFFF, 0, 0, 0xFFFFF, 0, false, false⟩,
  ⟨0x101000, [(16, 0x4000)], true, 0, 0, 0, 0, 0, 0, 0, false, true⟩,
  ⟨0x101008, [(16, 0x4000)], true, 0, 0, 0, 0, 0, 0, 0, false, true⟩,
  ⟨0x101010, [(16, 0x4000)], true, 0, 0, 0, 0, 0, 0, 0, false, true⟩,
  ⟨0x101018, [(16, 0x4000)], true, 0, 0, 0, 0, 0, 0, 0, false, true⟩,
  ⟨0x101020, [(16, 0x4000)], true, 0, 0, 0, 0, 0, 0, 0, false, true⟩,
  ⟨0x101028, [(16, 0x4000)], true, 0, 0, 0, 0, 0, 0, 0, false, true⟩,
  ⟨0x101030, [(16, 0x4000)], true, 0, 0, 0, 0, 0, 0, 0, false, true⟩,
  ⟨0x101038, [(16, 0x4000)], true, 0, 0, 0, 0, 0, 0, 0, false, true⟩,
  ⟨0x101040, [(16, 0x4000)], true, 0, 0, 0, 0, 0, 0, 0, false, true⟩,
  ⟨0x101048, [(16, 0x4000)], true, 0, 0, 0, 0, 0, 0, 0, false, true⟩,
  ⟨0x101050, [(16, 0x4000)], true, 0, 0, 0, 0, 0, 0, 0, false, true⟩,
  ⟨0x101058, [(16, 0x4000)], true, 0, 0, 0, 0, 0, 0, 0, false, true⟩,
  ⟨0x101060, [(16, 0x4000)], true, 0, 0, 0, 0, 0, 0, 0, false, true⟩,
  ⟨0x101068, [(16, 0x4000)], true, 0, 0, 0, 0, 0, 0, 0, false, true⟩,
  ⟨0x101070, [(16, 0x4000)], true, 0, 0, 0, 0, 0, 0, 0, false, true⟩,
  ⟨0x101080, [(16, 0x4000), (8, 8)], true, 0, 0, 0, 0, 0, 0, 0, false, true⟩,
  ⟨0x1010C0, [(16, 0x4000), (8, 8)], true, 0, 0, 0, 0, 0, 0, 0, false, true⟩,
  ⟨0x101100, [(16, 0x4000), (8, 8)], true, 0, 0, 0, 0, 0, 0, 0, false, true⟩,
  ⟨0x101200, [(16, 0x4000)], true, 0, 0, 0, 0, 0, 0, 0, false, true⟩,
  ⟨0x101208, [(16, 0x4000)], true, 0, 0, 0, 0, 0, 0, 0, false, true⟩,
  ⟨0x101210, [(16, 0x4000)], true, 0, 0, 0, 0, 0, 0, 0, false, true⟩,
  ⟨0x101218, [(16, 0x4000)], true, 0, 0, 0, 0, 0, 0, 0, false, true⟩,
  ⟨0x101220, [(16, 0x4000)], true, 0, 0, 0, 0, 0, 0, 0, false, true⟩,
  ⟨0x101240, [(16, 0x4000)], true, 0, 0, 0, 0, 0, 0, 0, false, true⟩,
  ⟨0x101248, [(16, 0x4000)], true, 0, 0, 0, 0, 0, 0, 0, false, true⟩,
  ⟨0x101250, [(16, 0x4000)], true, 0, 0, 0, 0, 0, 0, 0, false, true⟩,
  ⟨0x101258, [(16, 0x4000)], true, 0, 0, 0, 0, 0, 0, 0, false, true⟩,
  ⟨0x101260, [(16, 0x4000)], true, 0, 0, 0, 0, 0, 0, 0, false, true⟩,
  ⟨0x101268, [(16, 0x4000)], true, 0, 0, 0, 0, 0, 0, 0, false, true⟩]
def slice1 : List RegRow := [
  ⟨0x102000, [(16, 0x4000), (2, 0x800), (256, 8)], false, 0, 0x7FFFFFF, 0, 0, 0, 0x7FFFFFF, 0, false, false⟩,
  ⟨0x102004, [(16, 0x4000), (2, 0x800), (256, 8)], false, 0, 0xFF, 0, 0, 0, 0xFF, 0, false, false⟩,
  ⟨0x103FF8, [(16, 0x4000)], false, 0, 0x2000FFFF, 0, 0, 0, 0xE000FFFF, 0xC0000000, false, false⟩,
  ⟨0x103FFC, [(16, 0x4000)], false, 0, 0, 0, 0x10000000, 0, 0xF0FFFFFF, 0, false, false⟩,
  ⟨0x200000, [(32, 0x1000)], false, 0, 0, 0, 0, 0, 0xCF00FFFF, 0, false, false⟩,
  ⟨0x200004, [(34, 0x1000)], false, 0x60, 0, 0xFFF00FF, 0, 0, 0xFFF00FF, 0, false, false⟩,
  ⟨0x200008, [(34, 0x1000)], false, 0x3E80004, 0, 0xFFFF00FF, 0, 0, 0xFFFF00FF, 0, false, false⟩,
  ⟨0x200800, [(34, 0x1000)], true, 0, 0, 0, 0, 0, 0, 0, false, true⟩,
  ⟨0x200808, [(34, 0x1000)], true, 0, 0, 0, 0, 0, 0, 0, false, true⟩,
  ⟨0x200818, [(34, 0x1000), (3, 8)], true, 0, 0, 0, 0, 0, 0, 0, false, true⟩,
  ⟨0x200830, [(34, 0x1000)], true, 0, 0, 0, 0, 0, 0, 0, false, true⟩,
  ⟨0x200840, [(34, 0x1000)], true, 0, 0, 0, 0, 0, 0, 0, false, true⟩,
  ⟨0x200848, [(34, 0x1000)], true, 0, 0, 0, 0, 0, 0, 0, false, true⟩,
  ⟨0x200850, [(34, 0x1000)], true, 0, 0, 0, 0, 0, 0, 0, false, true⟩,
  ⟨0x200858, [(34, 0x1000)], true, 0, 0, 0, 0, 0, 0, 0, false, true⟩,
  ⟨0x200860, [(34, 0x1000)], true, 0, 0, 0, 0, 0, 0, 0, false, true⟩,
  ⟨0x200FF8, [(34, 0x1000)], false, 0, 0x2000FFFF, 0, 0, 0, 0xE000FFFF, 0xC0000000, false, false⟩,
  ⟨0x200FFC, [(34, 0x1000)], false, 0, 0, 0, 0x10000000, 0, 0xF0FFFFFF, 0, false, false⟩,
  ⟨0x220000, [(2, 0x1000)], false, 0x40000000, 0, 0, 0, 0, 0xCF00FFFF, 0, false, false⟩,
  ⟨0x300000, [(16, 0x400)], false, 0, 0, 0, 0, 0, 0xFF000000, 0, false, false⟩,
  ⟨0x300004, [(16, 0x400)], false, 0x43308, 0x3F3F3F3F, 0, 0, 0, 0x3F3F3F3F, 0, false, false⟩,
  ⟨0x300008, [(16, 0x400)], false, 0, 3, 0, 0, 0, 3, 0, false, false⟩,
  ⟨0x30000C, [(16, 0x400)], false, 0, 0xFFFFFF, 0, 0, 0, 0xFFFFFF, 0, false, false⟩,
  ⟨0x300100, [(16, 0x400)], true, 0, 0, 0, 0, 0, 0, 0, false, true⟩,
  ⟨0x300108, [(16, 0x400)], true, 0, 0, 0, 0, 0, 0, 0, false, true⟩,
  ⟨0x300110, [(16, 0x400)], true, 0, 0, 0, 0, 0, 0, 0, false, true⟩,
  ⟨0x300118, [(16, 0x400)], true, 0, 0, 0, 0, 0, 0, 0, false, true⟩,
  ⟨0x400100, [], false, 0x20020000, 0, 0, 0, 0, 0xFF033F3F, 0, false, false⟩,
  ⟨0x400104, [], false, 0, 0x3F, 0, 0, 0, 0x8000003F, 0x80000000, false, false⟩,
  ⟨0x400108, [], false, 0, 0x3F, 0, 0, 0, 0xF000003F, 0x80000000, false, false⟩,
  ⟨0x40010C, [], false, 0, 0, 0, 0, 0, 0xFFFFFFFF, 0, true, false⟩,
  ⟨0x400110, [], false, 0, 0, 0, 0, 0, 0xFFFFFFFF, 0, false, false⟩,
  ⟨0x400180, [], true, 0, 0, 0, 0, 0, 0, 0, false, true⟩,
  ⟨0x440000, [], false, 0, 0xFFFFFF, 0, 0, 0, 0xFFFFFF, 0, false, false⟩,
  ⟨0x440004, [], false, 0, 0x7FF0FF00, 0, 0, 0, 0xFFF0FF00, 0x80000000, false, false⟩,
  ⟨0x440008, [], false, 0, 0xFFFF, 0, 0, 0, 0xCFFFFFFF, 0, false, false⟩,
  ⟨0x440010, [(8, 4)], false, 0, 0xFFFFFFFF, 0, 0, 0, 0xFFFFFFFF, 0, false, false⟩,
  ⟨0x440100, [], false, 0, 0, 0, 0, 0, 0xFF80, 0, true, false⟩,
  ⟨0x440104, [], false, 0, 0, 0, 0, 0, 0x7FFFF, 0, false, false⟩,
  ⟨0x440108, [], false, 0x6000000, 0, 0xFFF0000, 0, 0, 0xFFF0FFF, 0, false, false⟩,
  ⟨0x44010C, [], false, 0x61400000, 0, 0xEFF00FFF, 0, 0, 0xEFF00FFF, 0, false, false⟩,
  ⟨0x440110, [], false, 0x3E8, 0, 0xFFFF, 0, 0, 0xFFFF, 0, false, false⟩,
  ⟨0x440114, [], false, 0, 0, 0xFFFF, 0, 0, 0xFFFF, 0, false, false⟩,
  ⟨0x440118, [], false, 0, 0, 0xFFFFFFFF, 0, 0, 0xFFFFFFFF, 0, false, false⟩,
  ⟨0x44011C, [], false, 0x80020096, 0, 0x8003FFFF, 0, 0, 0x8003FFFF, 0, false, false⟩,
  ⟨0x440120, [], false, 0, 0, 0, 0x1F, 0, 0x1F, 0, false, false⟩,
  ⟨0x440124, [], false, 0, 0x1F, 0, 0, 0, 0x1F, 0, false, false⟩,
  ⟨0x440140, [], false, 0xA, 0xFFFF, 0, 0, 0, 0x8000FFFF, 0x80000000, false, false⟩,
  ⟨0x440144, [], false, 0, 0, 0, 0x60000000, 0, 0xF0001FFF, 0, false, false⟩,
  ⟨0x440180, [], true, 0, 0, 0, 0, 0, 0, 0, false, true⟩,
  ⟨0x440188, [], true, 0, 0, 0, 0, 0, 0, 0, false, true⟩,
  ⟨0x440190, [], true, 0, 0, 0, 0, 0, 0, 0, false, true⟩,
  ⟨0x440800, [], true, 0, 0, 0, 0, 0, 0, 0, false, true⟩,
  ⟨0x440808, [], true, 0, 0, 0, 0, 0, 0, 0, false, true⟩,
  ⟨0x440810, [], true, 0, 0, 0, 0, 0, 0, 0, false, true⟩,
  ⟨0x440818, [], true, 0, 0, 0, 0, 0, 0, 0, false, true⟩,
  ⟨0x440820, [], true, 0, 0, 0, 0, 0, 0, 0, false, true⟩,
  ⟨0x440828, [], true, 0, 0, 0, 0, 0, 0, 0, false, true⟩,
  ⟨0x440830, [], true, 0, 0, 0, 0, 0, 0, 0, false, true⟩,
  ⟨0x440838, [], true, 0, 0, 0, 0, 0, 0, 0, false, true⟩]
def slice2 : List RegRow := [
  ⟨0x440840, [], true, 0, 0, 0, 0, 0, 0, 0, false, true⟩,
  ⟨0x440848, [], true, 0, 0, 0, 0, 0, 0, 0, false, true⟩,
  ⟨0x440850, [], true, 0, 0, 0, 0, 0, 0, 0, false, true⟩,
  ⟨0x440858, [], true, 0, 0, 0, 0, 0, 0, 0, false, true⟩,
  ⟨0x440860, [], true, 0, 0, 0, 0, 0, 0, 0, false, true⟩,
  ⟨0x440868, [], true, 0, 0, 0, 0, 0, 0, 0, false, true⟩,
  ⟨0x440870, [], true, 0, 0, 0, 0, 0, 0, 0, false, true⟩,
  ⟨0x440878, [], true, 0, 0, 0, 0, 0, 0, 0, false, true⟩,
  ⟨0x440880, [], true, 0, 0, 0, 0, 0, 0, 0, false, true⟩,
  ⟨0x440888, [], true, 0, 0, 0, 0, 0, 0, 0, false, true⟩,
  ⟨0x440890, [], true, 0, 0, 0, 0, 0, 0, 0, false, true⟩,
  ⟨0x440898, [], true, 0, 0, 0, 0, 0, 0, 0, false, true⟩,
  ⟨0x4408A0, [], true, 0, 0, 0, 0, 0, 0, 0, false, true⟩,
  ⟨0x4408A8, [], true, 0, 0, 0, 0, 0, 0, 0, false, true⟩,
  ⟨0x4408B0, [], true, 0, 0, 0, 0, 0, 0, 0, false, true⟩,
  ⟨0x441000, [], false, 0, 0xFFFFFF, 0, 0, 0, 0xFFFFFF, 0, false, false⟩,
  ⟨0x441004, [], false, 0, 0x7FF0FF00, 0, 0, 0, 0xFFF0FF00, 0x80000000, false, false⟩,
  ⟨0x441008, [], false, 0, 0xFFFF, 0, 0, 0, 0xCFFFFFFF, 0, false, false⟩,
  ⟨0x441010, [(8, 4)], false, 0, 0xFFFFFFFF, 0, 0, 0, 0xFFFFFFFF, 0, false, false⟩,
  ⟨0x450000, [], false, 0, 0xFFFFFF, 0, 0, 0, 0xFFFFFF, 0, false, false⟩,
  ⟨0x450004, [], false, 0, 0x7FF0FF00, 0, 0, 0, 0xFFF0FF00, 0x80000000, false, false⟩,
  ⟨0x450008, [], false, 0, 0xFFFF, 0, 0, 0, 0xCFFFFFFF, 0, false, false⟩,
  ⟨0x450010, [(8, 4)], false, 0, 0xFFFFFFFF, 0, 0, 0, 0xFFFFFFFF, 0, false, false⟩,
  ⟨0x450100, [], false, 0x80000064, 0, 0x8000FFFF, 0, 0, 0x8000FFFF, 0, false, false⟩,
  ⟨0x450104, [], false, 0, 0, 0, 0xF, 0, 0xF, 0, false, false⟩,
  ⟨0x450108, [], false, 0, 0xF, 0, 0, 0, 0xF, 0, false, false⟩,
  ⟨0x450208, [(15, 8)], false, 0, 0, 0, 0, 0, 0xFF001FFF, 0, true, false⟩,
  ⟨0x45020C, [(15, 8)], false, 0, 0, 0, 0, 0, 0x1FFF, 0, true, false⟩,
  ⟨0x450800, [], true, 0, 0, 0, 0, 0, 0, 0, false, true⟩,
  ⟨0x450808, [], true, 0, 0, 0, 0, 0, 0, 0, false, true⟩,
  ⟨0x450810, [], true, 0, 0, 0, 0, 0, 0, 0, false, true⟩,
  ⟨0x450818, [], true, 0, 0, 0, 0, 0, 0, 0, false, true⟩,
  ⟨0x450820, [], true, 0, 0, 0, 0, 0, 0, 0, false, true⟩,
  ⟨0x450828, [], true, 0, 0, 0, 0, 0, 0, 0, false, true⟩,
  ⟨0x450830, [], true, 0, 0, 0, 0, 0, 0, 0, false, true⟩,
  ⟨0x450838, [], true, 0, 0, 0, 0, 0, 0, 0, false, true⟩,
  ⟨0x450840, [], true, 0, 0, 0, 0, 0, 0, 0, false, true⟩,
  ⟨0x450848, [], true, 0, 0, 0, 0, 0, 0, 0, false, true⟩,
  ⟨0x450850, [], true, 0, 0, 0, 0, 0, 0, 0, false, true⟩,
  ⟨0x450858, [], true, 0, 0, 0, 0, 0, 0, 0, false, true⟩,
  ⟨0x460000, [], false, 0, 0xFFFFFF, 0, 0, 0, 0xFFFFFF, 0, false, false⟩,
  ⟨0x460004, [], false, 0, 0x7FF0FF00, 0, 0, 0, 0xFFF0FF00, 0x80000000, false, false⟩,
  ⟨0x460008, [], false, 0, 0xFFFF, 0, 0, 0, 0xCFFFFFFF, 0, false, false⟩,
  ⟨0x460010, [(8, 4)], false, 0, 0xFFFFFFFF, 0, 0, 0, 0xFFFFFFFF, 0, false, false⟩,
  ⟨0x461000, [], false, 0, 0xFFFFFF, 0, 0, 0, 0xFFFFFF, 0, false, false⟩,
  ⟨0x461004, [], false, 0, 0x7FF0FF00, 0, 0, 0, 0xFFF0FF00, 0x80000000, false, false⟩,
  ⟨0x461008, [], false, 0, 0xFFFF, 0, 0, 0, 0xCFFFFFFF, 0, false, false⟩,
  ⟨0x461010, [(8, 4)], false, 0, 0xFFFFFFFF, 0, 0, 0, 0xFFFFFFFF, 0, false, false⟩,
  ⟨0x470000, [], false, 0, 0xFFFFFF, 0, 0, 0, 0xFFFFFF, 0, false, false⟩,
  ⟨0x470004, [], false, 0, 0x7FF0FF00, 0, 0, 0, 0xFFF0FF00, 0x80000000, false, false⟩,
  ⟨0x470008, [], false, 0, 0xFFFF, 0, 0, 0, 0xCFFFFFFF, 0, false, false⟩,
  ⟨0x470010, [(8, 4)], false, 0, 0xFFFFFFFF, 0, 0, 0, 0xFFFFFFFF, 0, false, false⟩,
  ⟨0x470040, [], false, 0, 0xFFFFFF, 0, 0, 0, 0xFFFFFF, 0, false, false⟩,
  ⟨0x470044, [], false, 0, 0x7FF0FF00, 0, 0, 0, 0xFFF0FF00, 0x80000000, false, false⟩,
  ⟨0x470048, [], false, 0, 0xFFFF, 0, 0, 0, 0xCFFFFFFF, 0, false, false⟩,
  ⟨0x470050, [(8, 4)], false, 0, 0xFFFFFFFF, 0, 0, 0, 0xFFFFFFFF, 0, false, false⟩,
  ⟨0x470080, [], false, 0, 0xFFFFFF, 0, 0, 0, 0xFFFFFF, 0, false, false⟩,
  ⟨0x470084, [], false, 0, 0x7FF0FF00, 0, 0, 0, 0xFFF0FF00, 0x80000000, false, false⟩,
  ⟨0x470088, [], false, 0, 0xFFFF, 0, 0, 0, 0xCFFFFFFF, 0, false, false⟩,
  ⟨0x470090, [(8, 4)], false, 0, 0xFFFFFFFF, 0, 0, 0, 0xFFFFFFFF, 0, false, false⟩]
def slice3 : List RegRow := [
  ⟨0x4700C0, [], false, 0, 0xFFFFFF, 0, 0, 0, 0xFFFFFF, 0, false, false⟩,
  ⟨0x4700C4, [], false, 0, 0x7FF0FF00, 0, 0, 0, 0xFFF0FF00, 0x80000000, false, false⟩,
  ⟨0x4700C8, [], false, 0, 0xFFFF, 0, 0, 0, 0xCFFFFFFF, 0, false, false⟩,
  ⟨0x4700D0, [(8, 4)], false, 0, 0xFFFFFFFF, 0, 0, 0, 0xFFFFFFFF, 0, false, false⟩,
  ⟨0x470100, [], false, 0, 0xFFFFFF, 0, 0, 0, 0xFFFFFF, 0, false, false⟩,
  ⟨0x470104, [], false, 0, 0x7FF0FF00, 0, 0, 0, 0xFFF0FF00, 0x80000000, false, false⟩,
  ⟨0x470108, [], false, 0, 0xFFFF, 0, 0, 0, 0xCFFFFFFF, 0, false, false⟩,
  ⟨0x470110, [(8, 4)], false, 0, 0xFFFFFFFF, 0, 0, 0, 0xFFFFFFFF, 0, false, false⟩,
  ⟨0x470400, [(256, 4)], false, 0, 0, 0xFFFFF000, 0, 0, 0xFFFFF000, 0, false, false⟩,
  ⟨0x470800, [(16, 4)], false, 0, 0, 0x7F, 0, 0, 0x7F, 0, false, false⟩,
  ⟨0x470C00, [], true, 0, 0, 0, 0, 0, 0, 0, false, true⟩,
  ⟨0x470C08, [], true, 0, 0, 0, 0, 0, 0, 0, false, true⟩,
  ⟨0x470C10, [], true, 0, 0, 0, 0, 0, 0, 0, false, true⟩,
  ⟨0x470C18, [], true, 0, 0, 0, 0, 0, 0, 0, false, true⟩,
  ⟨0x470C20, [], true, 0, 0, 0, 0, 0, 0, 0, false, true⟩,
  ⟨0x470C28, [], true, 0, 0, 0, 0, 0, 0, 0, false, true⟩,
  ⟨0x470C30, [], true, 0, 0, 0, 0, 0, 0, 0, false, true⟩,
  ⟨0x470C38, [], true, 0, 0, 0, 0, 0, 0, 0, false, true⟩,
  ⟨0x470C40, [], true, 0, 0, 0, 0, 0, 0, 0, false, true⟩,
  ⟨0x470C48, [], true, 0, 0, 0, 0, 0, 0, 0, false, true⟩,
  ⟨0x470C50, [], true, 0, 0, 0, 0, 0, 0, 0, false, true⟩,
  ⟨0x470C58, [], true, 0, 0, 0, 0, 0, 0, 0, false, true⟩,
  ⟨0x470C60, [], true, 0, 0, 0, 0, 0, 0, 0, false, true⟩,
  ⟨0x470C68, [], true, 0, 0, 0, 0, 0, 0, 0, false, true⟩,
  ⟨0x470C70, [], true, 0, 0, 0, 0, 0, 0, 0, false, true⟩,
  ⟨0x470C78, [], true, 0, 0, 0, 0, 0, 0, 0, false, true⟩,
  ⟨0x470C80, [], true, 0, 0, 0, 0, 0, 0, 0, false, true⟩,
  ⟨0x470C88, [], true, 0, 0, 0, 0, 0, 0, 0, false, true⟩,
  ⟨0x470C90, [], true, 0, 0, 0, 0, 0, 0, 0, false, true⟩,
  ⟨0x470C98, [], true, 0, 0, 0, 0, 0, 0, 0, false, true⟩,
  ⟨0x470CA0, [], true, 0, 0, 0, 0, 0, 0, 0, false, true⟩,
  ⟨0x480000, [], false, 0xF0000000, 0, 0, 0, 0, 0xFF800000, 0, false, false⟩,
  ⟨0x480004, [], false, 0x280000, 0, 0xFFFF0000, 0, 0, 0xFFFF0000, 0, false, false⟩,
  ⟨0x480040, [(16, 4)], false, 0xE4E4E4E4, 0, 0, 0, 0, 0xFFFFFFFF, 0, false, false⟩,
  ⟨0x480800, [], true, 0, 0, 0, 0, 0, 0, 0, false, true⟩,
  ⟨0x480808, [], true, 0, 0, 0, 0, 0, 0, 0, false, true⟩,
  ⟨0x480810, [], true, 0, 0, 0, 0, 0, 0, 0, false, true⟩,
  ⟨0x480818, [], true, 0, 0, 0, 0, 0, 0, 0, false, true⟩,
  ⟨0x480820, [], true, 0, 0, 0, 0, 0, 0, 0, false, true⟩,
  ⟨0x480828, [], true, 0, 0, 0, 0, 0, 0, 0, false, true⟩,
  ⟨0x480830, [], true, 0, 0, 0, 0, 0, 0, 0, false, true⟩,
  ⟨0x480838, [], true, 0, 0, 0, 0, 0, 0, 0, false, true⟩,
  ⟨0x490000, [], false, 0, 0xFFFFFF, 0, 0, 0, 0xFFFFFF, 0, false, false⟩,
  ⟨0x490004, [], false, 0, 0x7FF0FF00, 0, 0, 0, 0xFFF0FF00, 0x80000000, false, false⟩,
  ⟨0x490008, [], false, 0, 0xFFFF, 0, 0, 0, 0xCFFFFFFF, 0, false, false⟩,
  ⟨0x490010, [(8, 4)], false, 0, 0xFFFFFFFF, 0, 0, 0, 0xFFFFFFFF, 0, false, false⟩,
  ⟨0x490040, [], false, 0, 0xFFFFFF, 0, 0, 0, 0xFFFFFF, 0, false, false⟩,
  ⟨0x490044, [], false, 0, 0x7FF0FF00, 0, 0, 0, 0xFFF0FF00, 0x80000000, false, false⟩,
  ⟨0x490048, [], false, 0, 0xFFFF, 0, 0, 0, 0xCFFFFFFF, 0, false, false⟩,
  ⟨0x490050, [(8, 4)], false, 0, 0xFFFFFFFF, 0, 0, 0, 0xFFFFFFFF, 0, false, false⟩,
  ⟨0x490100, [], false, 0, 0, 0, 0, 0, 0xFFF, 0, false, false⟩,
  ⟨0x490104, [], false, 0x3E80000, 0, 0xFFFF0000, 0, 0, 0xFFFF0000, 0, false, false⟩,
  ⟨0x490800, [], true, 0, 0, 0, 0, 0, 0, 0, false, true⟩,
  ⟨0x490808, [], true, 0, 0, 0, 0, 0, 0, 0, false, true⟩,
  ⟨0x490810, [], true, 0, 0, 0, 0, 0, 0, 0, false, true⟩,
  ⟨0x490818, [], true, 0, 0, 0, 0, 0, 0, 0, false, true⟩,
  ⟨0x490820, [], true, 0, 0, 0, 0, 0, 0, 0, false, true⟩,
  ⟨0x490828, [], true, 0, 0, 0, 0, 0, 0, 0, false, true⟩,
  ⟨0x490830, [], true, 0, 0, 0, 0, 0, 0, 0, false, true⟩,
  ⟨0x490838, [], true, 0, 0, 0, 0, 0, 0, 0, false, true⟩]
def slice4 : List RegRow := [
  ⟨0x490840, [], true, 0, 0, 0, 0, 0, 0, 0, false, true⟩,
  ⟨0x4A0000, [], false, 0, 0, 0xFFF, 0, 0, 0xFFF, 0, false, false⟩,
  ⟨0x4A0040, [], false, 0xA, 0xFFFF, 0, 0, 0, 0x8000FFFF, 0x80000000, false, false⟩,
  ⟨0x4A0044, [], false, 0, 0, 0, 0x60000000, 0, 0xF0001FFF, 0, false, false⟩,
  ⟨0x4A0080, [], true, 0, 0, 0, 0, 0, 0, 0, false, true⟩,
  ⟨0x4A0088, [], true, 0, 0, 0, 0, 0, 0, 0, false, true⟩,
  ⟨0x4A0090, [], true, 0, 0, 0, 0, 0, 0, 0, false, true⟩,
  ⟨0x4A00FC, [], false, 0, 0, 0xFFF, 0, 0, 0xFFF, 0, false, false⟩,
  ⟨0x4A0100, [], false, 0xA, 0xFFFF, 0, 0, 0, 0x8000FFFF, 0x80000000, false, false⟩,
  ⟨0x4A0104, [], false, 0, 0, 0, 0x60000000, 0, 0xF0001FFF, 0, false, false⟩,
  ⟨0x4A0140, [], true, 0, 0, 0, 0, 0, 0, 0, false, true⟩,
  ⟨0x4A0148, [], true, 0, 0, 0, 0, 0, 0, 0, false, true⟩,
  ⟨0x4A0150, [], true, 0, 0, 0, 0, 0, 0, 0, false, true⟩,
  ⟨0x4FFFF8, [], false, 0, 0x2000FFFF, 0, 0, 0, 0xE000FFFF, 0xC0000000, false, false⟩,
  ⟨0x4FFFFC, [], false, 0, 0, 0, 0x10000000, 0, 0xF0FFFFFF, 0, false, false⟩,
  ⟨0x800000, [(16, 0x20)], false, 0x14, 0, 0xC7FF007F, 0, 0, 0xC7FF007F, 0, false, false⟩,
  ⟨0x800004, [(16, 0x20)], false, 0, 0, 0xFFFFFF, 0, 0, 0xFFFFFF, 0, false, false⟩,
  ⟨0x800008, [(16, 0x20)], false, 0x4000, 0, 0xFFFFFF, 0, 0, 0xFFFFFF, 0, false, false⟩,
  ⟨0x800010, [(16, 0x20)], true, 0, 0, 0, 0, 0, 0xFFFFFFFFFF, 0, false, false⟩,
  ⟨0x810000, [], false, 0, 0xFFFFFF, 0, 0, 0, 0xFFFFFF, 0, false, false⟩,
  ⟨0x810004, [], false, 0, 0x7FF0FF00, 0, 0, 0, 0xFFF0FF00, 0x80000000, false, false⟩,
  ⟨0x810008, [], false, 0, 0xFFFF, 0, 0, 0, 0xCFFFFFFF, 0, false, false⟩,
  ⟨0x810010, [(8, 4)], false, 0, 0xFFFFFFFF, 0, 0, 0, 0xFFFFFFFF, 0, false, false⟩,
  ⟨0x810040, [], false, 0, 0xFFFFFF, 0, 0, 0, 0xFFFFFF, 0, false, false⟩,
  ⟨0x810044, [], false, 0, 0x7FF0FF00, 0, 0, 0, 0xFFF0FF00, 0x80000000, false, false⟩,
  ⟨0x810048, [], false, 0, 0xFFFF, 0, 0, 0, 0xCFFFFFFF, 0, false, false⟩,
  ⟨0x810050, [(8, 4)], false, 0, 0xFFFFFFFF, 0, 0, 0, 0xFFFFFFFF, 0, false, false⟩,
  ⟨0x810080, [], false, 0, 0xFFFFFF, 0, 0, 0, 0xFFFFFF, 0, false, false⟩,
  ⟨0x810084, [], false, 0, 0x7FF0FF00, 0, 0, 0, 0xFFF0FF00, 0x80000000, false, false⟩,
  ⟨0x810088, [], false, 0, 0xFFFF, 0, 0, 0, 0xCFFFFFFF, 0, false, false⟩,
  ⟨0x810090, [(8, 4)], false, 0, 0xFFFFFFFF, 0, 0, 0, 0xFFFFFFFF, 0, false, false⟩,
  ⟨0x8100C0, [], false, 0, 0xFFFFFF, 0, 0, 0, 0xFFFFFF, 0, false, false⟩,
  ⟨0x8100C4, [], false, 0, 0x7FF0FF00, 0, 0, 0, 0xFFF0FF00, 0x80000000, false, false⟩,
  ⟨0x8100C8, [], false, 0, 0xFFFF, 0, 0, 0, 0xCFFFFFFF, 0, false, false⟩,
  ⟨0x8100D0, [(8, 4)], false, 0, 0xFFFFFFFF, 0, 0, 0, 0xFFFFFFFF, 0, false, false⟩,
  ⟨0x820000, [], false, 0, 0, 0, 0, 0, 0x7FFFF, 0, false, false⟩,
  ⟨0x820004, [], false, 0, 0, 0, 0, 0, 0x7FFFF, 0, false, false⟩,
  ⟨0x820008, [], false, 0, 0, 0, 7, 0, 7, 0, false, false⟩,
  ⟨0x82000C, [], false, 0, 7, 0, 0, 0, 7, 0, false, false⟩,
  ⟨0x900000, [(16384, 0x20)], true, 0, 0, 0, 0, 0, 0, 0, false, true⟩,
  ⟨0x900008, [(16384, 0x20)], true, 0, 0, 0, 0, 0, 0, 0, false, true⟩,
  ⟨0x900010, [(16384, 0x20)], true, 0, 0, 0, 0, 0, 0, 0, false, true⟩,
  ⟨0x900018, [(16384, 0x20)], true, 0, 0, 0, 0, 0, 0, 0, false, true⟩,
  ⟨0xA00000, [], true, 0, 0, 0, 0, 0, 0, 0, false, true⟩,
  ⟨0xA00008, [], true, 0, 0, 0, 0, 0, 0, 0, false, true⟩,
  ⟨0xA00010, [], true, 0, 0, 0, 0, 0, 0, 0, false, true⟩,
  ⟨0xA00018, [], true, 0, 0, 0, 0, 0, 0, 0, false, true⟩,
  ⟨0xA00020, [], true, 0, 0, 0, 0, 0, 0, 0, false, true⟩,
  ⟨0xA00028, [], true, 0, 0, 0, 0, 0, 0, 0, false, true⟩,
  ⟨0xA00030, [], true, 0, 0, 0, 0, 0, 0, 0, false, true⟩,
  ⟨0xA00038, [], true, 0, 0, 0, 0, 0, 0, 0, false, true⟩,
  ⟨0xA00040, [], true, 0, 0, 0, 0, 0, 0, 0, false, true⟩,
  ⟨0xBFFFF8, [], false, 0, 0x2000FFFF, 0, 0, 0, 0xE000FFFF, 0xC0000000, false, false⟩,
  ⟨0xBFFFFC, [], false, 0, 0, 0, 0x10000000, 0, 0xF0FFFFFF, 0, false, false⟩]
/-- The registers of the slice region. -/
def sliceRows : List RegRow := slice0 ++ slice1 ++ slice2 ++ slice3 ++ slice4

def half0 : List RegRow := [
  ⟨0, [], false, 0, 0, 0, 0, 0, 0xE007FFFF, 0, false, false⟩,
  ⟨4, [], false, 0x40000064, 0, 0xC0003FFF, 0, 0, 0xC0003FFF, 0, false, false⟩,
  ⟨8, [], false, 0x1000200, 0, 0xFFFFFFFF, 0, 0, 0xFFFFFFFF, 0, false, false⟩,
  ⟨0xC, [], false, 0x80000000, 0, 0x80000000, 0, 0, 0x80FFFFFF, 0, true, false⟩,
  ⟨0x10, [], false, 0, 0, 0, 0, 0, 0xFFFFFF, 0, false, false⟩,
  ⟨0x14, [], false, 0, 0, 0, 0x1F, 0, 0x1F, 0, false, false⟩,
  ⟨0x18, [], false, 0, 0x1F, 0, 0, 0, 0x1F, 0, false, false⟩,
  ⟨0x1C, [], false, 0, 0, 0, 0, 0, 0xC000FFFF, 0, false, false⟩,
  ⟨0x20, [], false, 0, 0, 0, 0, 0, 0xFFFFFFF, 0, false, false⟩,
  ⟨0x40, [(8, 4)], false, 0x60000, 0, 0x7FFFF, 0, 0, 0x7FFFF, 0, false, false⟩,
  ⟨0x100, [(16, 0x10)], false, 0, 0, 0, 0, 0, 0x8000FFFF, 0, true, false⟩,
  ⟨0x104, [(16, 0x10)], false, 0, 0, 0, 0, 0, 0x7FFFF, 0, true, false⟩,
  ⟨0x108, [(16, 0x10)], false, 0, 0, 0x7FFFF, 0, 0, 0x7FFFF, 0, false, false⟩,
  ⟨0x10C, [(16, 0x10)], false, 0, 0, 0xFFFFFF, 0, 0, 0xFFFFFF, 0, false, false⟩,
  ⟨0x200, [(16, 4)], false, 0, 0, 0, 0, 0, 0x8007FFFF, 0, false, false⟩,
  ⟨0x400, [], false, 0, 0xFFFFFF, 0, 0, 0, 0xFFFFFF, 0, false, false⟩,
  ⟨0x404, [], false, 0, 0x7FF0FF00, 0, 0, 0, 0xFFF0FF00, 0x80000000, false, false⟩,
  ⟨0x408, [], false, 0, 0xFFFF, 0, 0, 0, 0xCFFFFFFF, 0, false, false⟩,
  ⟨0x410, [(8, 4)], false, 0, 0xFFFFFFFF, 0, 0, 0, 0xFFFFFFFF, 0, false, false⟩,
  ⟨0x800, [(16, 0x40)], true, 0, 0, 0, 0, 0, 0, 0, false, true⟩,
  ⟨0x808, [(16, 0x40)], true, 0, 0, 0, 0, 0, 0, 0, false, true⟩,
  ⟨0x810, [(16, 0x40)], true, 0, 0, 0, 0, 0, 0, 0, false, true⟩,
  ⟨0x818, [(16, 0x40)], true, 0, 0, 0, 0, 0, 0, 0, false, true⟩,
  ⟨0x820, [(16, 0x40)], true, 0, 0, 0, 0, 0, 0, 0, false, true⟩,
  ⟨0x828, [(16, 0x40)], true, 0, 0, 0, 0, 0, 0, 0, false, true⟩,
  ⟨0x830, [(16, 0x40)], true, 0, 0, 0, 0, 0, 0, 0, false, true⟩,
  ⟨0x838, [(16, 0x40)], true, 0, 0, 0, 0, 0, 0, 0, false, true⟩,
  ⟨0xC00, [], true, 0, 0, 0, 0, 0, 0, 0, false, true⟩,
  ⟨0xC08, [], true, 0, 0, 0, 0, 0, 0, 0, false, true⟩,
  ⟨0xC10, [], true, 0, 0, 0, 0, 0, 0, 0, false, true⟩,
  ⟨0xC18, [], true, 0, 0, 0, 0, 0, 0, 0, false, true⟩,
  ⟨0xC20, [], true, 0, 0, 0, 0, 0, 0, 0, false, true⟩,
  ⟨0xC28, [], true, 0, 0, 0, 0, 0, 0, 0, false, true⟩,
  ⟨0xC30, [], true, 0, 0, 0, 0, 0, 0, 0, false, true⟩,
  ⟨0xFFFF8, [], false, 0, 0x2000FFFF, 0, 0, 0, 0xE000FFFF, 0xC0000000, false, false⟩,
  ⟨0xFFFFC, [], false, 0, 0, 0, 0x10000000, 0, 0xF0FFFFFF, 0, false, false⟩,
  ⟨0x400000, [], false, 0, 0, 0x80000000, 0, 0, 0x8003FFFF, 0, true, false⟩,
  ⟨0x400004, [], false, 0x20000, 0, 0x800F0000, 0, 0, 0x800F03FF, 0, false, false⟩,
  ⟨0x400008, [], false, 0, 0, 0, 7, 0, 7, 0, false, false⟩,
  ⟨0x40000C, [], false, 0, 7, 0, 0, 0, 7, 0, false, false⟩,
  ⟨0x401000, [(33, 4)], false, 0, 0, 0xFC01FFFF, 0, 0, 0xFC01FFFF, 0, false, false⟩,
  ⟨0x401264, [(104, 4)], false, 0, 0, 0xFC01FFFF, 0, 0, 0xFC01FFFF, 0, false, false⟩,
  ⟨0x402000, [], false, 0, 0xFFFFFF, 0, 0, 0, 0xFFFFFF, 0, false, false⟩,
  ⟨0x402004, [], false, 0, 0x7FF0FF00, 0, 0, 0, 0xFFF0FF00, 0x80000000, false, false⟩,
  ⟨0x402008, [], false, 0, 0xFFFF, 0, 0, 0, 0xCFFFFFFF, 0, false, false⟩,
  ⟨0x402010, [(8, 4)], false, 0, 0xFFFFFFFF, 0, 0, 0, 0xFFFFFFFF, 0, false, false⟩,
  ⟨0x402040, [], false, 0, 0xFFFFFF, 0, 0, 0, 0xFFFFFF, 0, false, false⟩,
  ⟨0x402044, [], false, 0, 0x7FF0FF00, 0, 0, 0, 0xFFF0FF00, 0x80000000, false, false⟩,
  ⟨0x402048, [], false, 0, 0xFFFF, 0, 0, 0, 0xCFFFFFFF, 0, false, false⟩,
  ⟨0x402050, [(8, 4)], false, 0, 0xFFFFFFFF, 0, 0, 0, 0xFFFFFFFF, 0, false, false⟩,
  ⟨0x402080, [], false, 0, 0xFFFFFF, 0, 0, 0, 0xFFFFFF, 0, false, false⟩,
  ⟨0x402084, [], false, 0, 0x7FF0FF00, 0, 0, 0, 0xFFF0FF00, 0x80000000, false, false⟩,
  ⟨0x402088, [], false, 0, 0xFFFF, 0, 0, 0, 0xCFFFFFFF, 0, false, false⟩,
  ⟨0x402090, [(8, 4)], false, 0, 0xFFFFFFFF, 0, 0, 0, 0xFFFFFFFF, 0, false, false⟩,
  ⟨0x403000, [], true, 0, 0, 0, 0, 0, 0, 0, false, true⟩,
  ⟨0x403008, [], true, 0, 0, 0, 0, 0, 0, 0, false, true⟩,
  ⟨0x403010, [], true, 0, 0, 0, 0, 0, 0, 0, false, true⟩,
  ⟨0x403018, [], true, 0, 0, 0, 0, 0, 0, 0, false, true⟩,
  ⟨0x403020, [], true, 0, 0, 0, 0, 0, 0, 0, false, true⟩,
  ⟨0x403028, [], true, 0, 0, 0, 0, 0, 0, 0, false, true⟩]
def half1 : List RegRow := [
  ⟨0x403030, [], true, 0, 0, 0, 0, 0, 0, 0, false, true⟩,
  ⟨0x403038, [], true, 0, 0, 0, 0, 0, 0, 0, false, true⟩,
  ⟨0x403040, [], true, 0, 0, 0, 0, 0, 0, 0, false, true⟩,
  ⟨0x403048, [], true, 0, 0, 0, 0, 0, 0, 0, false, true⟩,
  ⟨0x4FFFF8, [], false, 0, 0x2000FFFF, 0, 0, 0, 0xE000FFFF, 0xC0000000, false, false⟩,
  ⟨0x4FFFFC, [], false, 0, 0, 0, 0x10000000, 0, 0xF0FFFFFF, 0, false, false⟩]
/-- The registers of the half region. -/
def halfRows : List RegRow := half0 ++ half1

def plane0 : List RegRow := [
  ⟨0, [], false, 0, 0, 0, 0, 0, 0xE0FFFF00, 0, false, false⟩,
  ⟨4, [], false, 0, 0x60000000, 0, 0, 0, 0xE00000FF, 0x80000000, false, false⟩,
  ⟨8, [], false, 0x8000010, 0, 0xFF00FFFF, 0, 0, 0xFF00FFFF, 0, false, false⟩,
  ⟨0xC, [], false, 0, 0, 0, 0xF, 0, 0xF, 0, false, false⟩,
  ⟨0x10, [], false, 0, 0xF, 0, 0, 0, 0xF, 0, false, false⟩,
  ⟨0x800, [(8, 0x40)], true, 0, 0, 0, 0, 0, 0, 0, false, true⟩,
  ⟨0x808, [(8, 0x40)], true, 0, 0, 0, 0, 0, 0, 0, false, true⟩,
  ⟨0x810, [(8, 0x40)], true, 0, 0, 0, 0, 0, 0, 0, false, true⟩,
  ⟨0x818, [(8, 0x40)], true, 0, 0, 0, 0, 0, 0, 0, false, true⟩,
  ⟨0xA00, [], true, 0, 0, 0, 0, 0, 0, 0, false, true⟩,
  ⟨0xA08, [], true, 0, 0, 0, 0, 0, 0, 0, false, true⟩,
  ⟨0xFFFF8, [], false, 0, 0x2000FFFF, 0, 0, 0, 0xE000FFFF, 0xC0000000, false, false⟩,
  ⟨0xFFFFC, [], false, 0, 0, 0, 0x10000000, 0, 0xF0FFFFFF, 0, false, false⟩]
/-- The registers of the plane region. -/
def planeRows : List RegRow := plane0

def hbm0 : List RegRow := [
  ⟨0, [], false, 0, 0, 0, 0, 0, 0xFCFF0007, 0, false, false⟩,
  ⟨4, [], false, 0x400003E8, 0, 0xC000FFFF, 0, 0, 0xC000FFFF, 0, false, false⟩,
  ⟨8, [], false, 0, 3, 0, 0, 0, 0xF0000003, 0x80000000, false, false⟩,
  ⟨0xC, [], false, 0, 0x3F, 0, 0, 0, 0xF000003F, 0x80000000, false, false⟩,
  ⟨0x10, [], false, 0, 0x40000000, 0, 0, 0, 0xF0000000, 0x80000000, false, false⟩,
  ⟨0x14, [], false, 0, 0x6000001F, 0, 0, 0, 0xE0FF001F, 0x80000000, false, false⟩,
  ⟨0x18, [], false, 0, 0, 0, 0, 0, 0xFFFFFFFF, 0, false, false⟩,
  ⟨0x1C, [], false, 0, 0, 0, 0, 0, 0xC000001F, 0, false, false⟩,
  ⟨0x20, [], false, 0x40002040, 0, 0xFFFFFFFF, 0, 0, 0xFFFFFFFF, 0, false, false⟩,
  ⟨0x24, [], false, 0x641000, 0, 0xFFFFFF00, 0, 0, 0xFFFFFF00, 0, false, false⟩,
  ⟨0x28, [], false, 0, 0, 0, 0xFF, 0, 0xFF, 0, false, false⟩,
  ⟨0x2C, [], false, 0, 0xFF, 0, 0, 0, 0xFF, 0, false, false⟩,
  ⟨0x30, [], false, 0, 0, 0, 0, 0, 0xFFFFFFF7, 0, false, false⟩,
  ⟨0x48, [], false, 8, 0xF, 0, 0, 0, 0xF, 0, false, false⟩,
  ⟨0x4C, [], false, 8, 0xF, 0, 0, 0, 0xF, 0, false, false⟩,
  ⟨0x50, [], false, 6, 0xF, 0, 0, 0, 0xF, 0, false, false⟩,
  ⟨0x54, [], false, 0xA, 0xF, 0, 0, 0, 0xF, 0, false, false⟩,
  ⟨0x58, [], false, 4, 0xF, 0, 0, 0, 0xF, 0, false, false⟩,
  ⟨0x800, [(32, 0x40)], true, 0, 0, 0, 0, 0, 0, 0, false, true⟩,
  ⟨0x808, [(32, 0x40)], true, 0, 0, 0, 0, 0, 0, 0, false, true⟩,
  ⟨0x810, [(32, 0x40)], true, 0, 0, 0, 0, 0, 0, 0, false, true⟩,
  ⟨0x818, [(32, 0x40)], true, 0, 0, 0, 0, 0, 0, 0, false, true⟩,
  ⟨0x820, [(32, 0x40)], true, 0, 0, 0, 0, 0, 0, 0, false, true⟩,
  ⟨0x828, [(32, 0x40)], true, 0, 0, 0, 0, 0, 0, 0, false, true⟩,
  ⟨0x830, [(32, 0x40)], true, 0, 0, 0, 0, 0, 0, 0, false, true⟩,
  ⟨0x838, [(32, 0x40)], true, 0, 0, 0, 0, 0, 0, 0, false, true⟩,
  ⟨0x100C00, [(7, 8)], true, 0, 0, 0, 0, 0, 0, 0, false, true⟩,
  ⟨0x100C40, [], true, 0, 0, 0, 0, 0, 0, 0, false, true⟩,
  ⟨0x100C48, [], true, 0, 0, 0, 0, 0, 0, 0, false, true⟩,
  ⟨0x100C50, [], true, 0, 0, 0, 0, 0, 0, 0, false, true⟩,
  ⟨0x100C58, [], true, 0, 0, 0, 0, 0, 0, 0, false, true⟩,
  ⟨0x3FFFF8, [], false, 0, 0x2000FFFF, 0, 0, 0, 0xE000FFFF, 0xC0000000, false, false⟩,
  ⟨0x3FFFFC, [], false, 0, 0, 0, 0x10000000, 0, 0xF0FFFFFF, 0, false, false⟩]
/-- The registers of the hbm region. -/
def hbmRows : List RegRow := hbm0

def mbox0 : List RegRow := [
  ⟨0, [(2, 0x1000)], false, 0, 0xFFFFFFF, 0, 0, 0, 0x8FFFFFFF, 0x80000000, false, false⟩,
  ⟨4, [(2, 0x1000)], false, 0, 0x20000000, 0, 0x40000000, 0, 0xEFFFFFFF, 0, false, false⟩]
/-- The registers of the mbox region. -/
def mboxRows : List RegRow := mbox0

def group0 : List RegRow := [
  ⟨0x5004, [], false, 0, 0, 0, 0, 0, 0xFFCFFFFF, 0, false, false⟩,
  ⟨0x5008, [], false, 0x3000010, 0x8F00FFFF, 0, 0, 0, 0x8FFFFFFF, 0, false, false⟩,
  ⟨0x500C, [], false, 0, 0, 0, 0, 0, 0xC00000FF, 0x80000000, false, false⟩,
  ⟨0x5010, [], false, 0, 0xFFFFFF, 0, 0, 0, 0xFFFFFF, 0, false, false⟩,
  ⟨0x5014, [], false, 0, 0xFFFFFF, 0, 0, 0, 0xFFFFFF, 0, false, false⟩,
  ⟨0x5018, [], false, 0, 0xFFFFFFFF, 0, 0, 0, 0xFFFFFFFF, 0, false, false⟩,
  ⟨0x501C, [], false, 0, 0x4003FFFF, 0, 0, 0, 0xE303FFFF, 0x80000000, false, false⟩,
  ⟨0x5020, [], false, 0, 0x1F, 0, 0, 0, 0x1F, 0, false, false⟩,
  ⟨0x5028, [], true, 0, 0x8000000000000000, 0, 0, 0, 0xC000FFFFFFFFFFFF, 0, false, false⟩,
  ⟨0x5030, [], false, 0, 0, 0, 0xF, 0, 0xF, 0, false, false⟩,
  ⟨0x5034, [], false, 0, 0xF, 0, 0, 0, 0xF, 0, false, false⟩,
  ⟨0x5080, [], true, 0, 0, 0, 0, 0, 0, 0, false, true⟩,
  ⟨0x5088, [], true, 0, 0, 0, 0, 0, 0, 0, false, true⟩,
  ⟨0x5090, [], true, 0, 0, 0, 0, 0, 0, 0, false, true⟩,
  ⟨0x5098, [], true, 0, 0, 0, 0, 0, 0, 0, false, true⟩,
  ⟨0x50A0, [], true, 0, 0, 0, 0, 0, 0, 0, false, true⟩,
  ⟨0x50A8, [], true, 0, 0, 0, 0, 0, 0, 0, false, true⟩,
  ⟨0x50B0, [], true, 0, 0, 0, 0, 0, 0, 0, false, true⟩]
/-- The registers of the group region. -/
def groupRows : List RegRow := group0

end RegTable

end Sys2Proof.Machine
end

