-- ==== Sys2Proof/Machine/Tbl.lean ====
section
/-! DEFINITION. Sparse tables in one canonical form, the reading and writing of bit fields, byte-order helpers and the CRC-32C of
spec/00_scope.md R473. -/

namespace Sys2Proof.Machine

/-- A sparse table: pairs of key and value, keys strictly rising, no value equal to what its key reads as when unlisted. -/
abbrev Tbl (α : Type) := List (Nat × α)

/-- The listed value of a key. -/
def Tbl.find {α : Type} : Tbl α → Nat → Option α
  | [], _ => none
  | (k', v) :: t, k => if k' = k then some v else Tbl.find t k

/-- The table without the pairs of a key. -/
def Tbl.without {α : Type} (t : Tbl α) (k : Nat) : Tbl α := t.filter fun x => x.1 != k

/-- Put a pair before the first larger key. -/
def Tbl.place {α : Type} : Tbl α → Nat → α → Tbl α
  | [], k, v => [(k, v)]
  | (k', v') :: t, k, v => if k < k' then (k, v) :: (k', v') :: t else (k', v') :: Tbl.place t k v

/-- Write `v` at key `k`, where an unlisted `k` reads as `d`: writing `d` removes the pair, so that equal tables are equal data. -/
def Tbl.put {α : Type} [DecidableEq α] (d : α) (t : Tbl α) (k : Nat) (v : α) : Tbl α :=
  if v = d then t.without k else (t.without k).place k v

/-- Read a table whose unlisted keys read as the type's default. -/
def Tbl.look {α : Type} [Inhabited α] (t : Tbl α) (k : Nat) : α := (t.find k).getD default

/-- Write a table whose unlisted keys read as the type's default. -/
def Tbl.set {α : Type} [Inhabited α] [DecidableEq α] (t : Tbl α) (k : Nat) (v : α) : Tbl α := Tbl.put default t k v

/-- Change one entry. -/
def Tbl.upd {α : Type} [Inhabited α] [DecidableEq α] (t : Tbl α) (k : Nat) (f : α → α) : Tbl α := t.set k (f (t.look k))

/-- Return one entry to its default. -/
def Tbl.clear {α : Type} [Inhabited α] [DecidableEq α] (t : Tbl α) (k : Nat) : Tbl α := t.set k default

/-- Every key of `t` is above `k`. -/
def Tbl.above {α : Type} (k : Nat) : Tbl α → Bool
  | [] => true
  | (k', _) :: _ => k < k'

/-- The canonical form, where an unlisted key `k` reads as `d k`. -/
def Tbl.wf {α : Type} [DecidableEq α] (d : Nat → α) : Tbl α → Bool
  | [] => true
  | (k, v) :: t => decide (v ≠ d k) && (Tbl.above k t && Tbl.wf d t)

/-- An addressed store of bytes whose unlisted bytes read as 0. -/
abbrev Memory := Tbl Byte

/-- The canonical form of a byte store. -/
def Memory.wf (m : Memory) : Bool := Tbl.wf (fun _ => (0 : Byte)) m

/-- Read one byte. -/
def Memory.byte (m : Memory) (a : Nat) : Byte := (Tbl.find m a).getD 0

/-- Write one byte. -/
def Memory.setByte (m : Memory) (a : Nat) (b : Byte) : Memory := Tbl.put 0 m a b

/-- Write bytes from an address on. -/
def Memory.setBytes (m : Memory) (a : Nat) : List Byte → Memory
  | [] => m
  | b :: bs => Memory.setBytes (Memory.setByte m a b) (a + 1) bs

/-- Read `n` bytes from an address on. -/
def Memory.bytes (m : Memory) (a n : Nat) : List Byte := (List.range n).map fun i => Memory.byte m (a + i)

/-- Bits `[hi:lo]` of a bit vector as a number. -/
def bits {w : Nat} (v : BitVec w) (hi lo : Nat) : Nat := (v.toNat >>> lo) % 2 ^ (hi + 1 - lo)

/-- Bit `i`. -/
def bit {w : Nat} (v : BitVec w) (i : Nat) : Bool := v.getLsbD i

/-- `v` with bits `[hi:lo]` replaced by `n` (its low bits). -/
def putBits {w : Nat} (v : BitVec w) (hi lo n : Nat) : BitVec w :=
  BitVec.ofNat w (v.toNat - (bits v hi lo <<< lo) + ((n % 2 ^ (hi + 1 - lo)) <<< lo))

/-- Bits `[hi:lo]` of a number. -/
def nbits (v hi lo : Nat) : Nat := (v >>> lo) % 2 ^ (hi + 1 - lo)

/-- 1 for true. -/
def b2n (b : Bool) : Nat := if b then 1 else 0

/-- A byte list, most significant byte first, as a number. -/
def ofBE (bs : List Byte) : Nat := bs.foldl (fun n b => n * 256 + b.toNat) 0

/-- A byte list, least significant byte first, as a number. -/
def ofLE : List Byte → Nat
  | [] => 0
  | b :: bs => b.toNat + 256 * ofLE bs

/-- `n` bytes of `v`, least significant first. -/
def toLE : Nat → Nat → List Byte
  | 0, _ => []
  | n + 1, v => BitVec.ofNat 8 v :: toLE n (v / 256)

/-- `n` bytes of `v`, most significant first. -/
def toBE (n v : Nat) : List Byte := (toLE n v).reverse

/-- One bit step of the reflected CRC-32C register. -/
def crcStep (r : Nat) : Nat := if r % 2 = 1 then (r / 2) ^^^ 0x82F63B78 else r / 2

/-- One byte into the CRC-32C register, least significant bit first (R473). -/
def crcByte (r : Nat) (b : Byte) : Nat :=
  crcStep (crcStep (crcStep (crcStep (crcStep (crcStep (crcStep (crcStep (r ^^^ b.toNat))))))))

/-- The CRC-32C register after the bytes, without the final inversion (R473). -/
def crcRaw (seed : Nat) (bs : List Byte) : Nat := bs.foldl crcByte seed

/-- CRC-32C with seed and final inversion (R473). -/
def crc32c (seed : Nat) (bs : List Byte) : Nat := (crcRaw seed bs) ^^^ 0xFFFFFFFF

/-- Replace element `i` of a list. -/
def setAt {α : Type} : List α → Nat → α → List α
  | [], _, _ => []
  | _ :: t, 0, v => v :: t
  | x :: t, i + 1, v => x :: setAt t i v

/-- Insert into a list kept in the order of `le`, after equals. -/
def insertBy {α : Type} (le : α → α → Bool) (x : α) : List α → List α
  | [] => [x]
  | y :: t => if le y x then y :: insertBy le x t else x :: y :: t

/-- Stable sort by `le`. -/
def sortBy {α : Type} (le : α → α → Bool) (l : List α) : List α := l.foldl (fun acc x => insertBy le x acc) []

/-- The first `n` below `m` that satisfies `p`. -/
def firstBelow (m : Nat) (p : Nat → Bool) : Option Nat := (List.range m).find? p

end Sys2Proof.Machine
end

