-- ==== Sys2Proof/Machine/State.lean ====
section
/-! DEFINITION. The state of the block: the registers and counters of BAR0 (live and staged), every buffer, table, queue and timer of
the spec, the keepsake store, the fuses, and the queue of waiting commands; the fault and refusal reasons; the state after reset. -/

namespace Sys2Proof.Machine

open Sys2Proof

/-- Why the machine stops. -/
inductive Fault where
  /-- Raised by every command but the power and reset pins after a loss of the 25 MHz reference: the spec leaves the device undefined
  until a chip reset (spec/22_pins_and_electrical.md R466). Safe: the model stops where the device may do anything. -/
  | behaviourUndefined
deriving DecidableEq, Repr

/-- Why a command has no meaning. -/
inductive Refusal where
  /-- Raised by an arm of `exec` whose command has no meaning yet. Safe: nothing is claimed of such a command. -/
  | notModelled (mnemonic : String)
deriving DecidableEq, Repr

/-- What the device sends out while it carries out one command (DESIGN CHOICE, notes/assumptions/63.md). -/
inductive Out where
  /-- A frame on the wire of a port. -/
  | tx (port : Nat) (bytes : List Byte)
  /-- A pause or PFC frame: per-class enable bits and quanta (spec/04_ports_and_lanes.md R97). -/
  | pause (port : Nat) (enables : Nat) (quanta : Nat)
  /-- An MSI-X message of a function's vector (spec/20_host_interface.md R434). -/
  | msix (fn vector : Nat)
  /-- An interrupt input of a core. -/
  | coreIrq (core : Nat)
  /-- An NMI pulse of a core (spec/18_ledger_and_faults.md R394). -/
  | nmi (core : Nat)
  /-- A DMA write of one 32-byte entry of a ring: ring, index, entry. -/
  | dmaEntry (ring index : Nat) (entry : Entry)
  /-- A DMA write of frame bytes into a host buffer. -/
  | dmaBuf (ring addr : Nat) (bytes : List Byte)
  /-- An index write-back (spec/20_host_interface.md R437). -/
  | writeBack (ring value : Nat)
  /-- A management MAC sends a frame. -/
  | mgmtTx (mac : Nat) (bytes : List Byte)
  /-- A bus error in a core (spec/20_host_interface.md R442). -/
  | busError (core : Nat)
  /-- A PMBus command of the housekeeper (spec/19_housekeeper_power_ageing.md R416). -/
  | pmbus (command value : Nat)
  /-- THERMTRIP_N driven low (R423). -/
  | thermTrip
  /-- A PPS output changes level (spec/15_time_bases.md R337). -/
  | pps (output : Nat) (level : Bool)
  /-- A cell on a plane link: plane, slice, upward, link sequence number. -/
  | cell (plane slice : Nat) (up : Bool) (seq : Nat)
  /-- Data that an HBM read returns to its requester: stack, pseudo-channel, requester, marked poisoned, bytes (spec/16 R343). -/
  | hbm (m pc req : Nat) (poisoned : Bool) (bytes : List Byte)
  /-- An HBM write reported to its requester as failed (R364). -/
  | hbmFailed (m pc req : Nat)
  /-- A message to the peer of a plane link: plane, slice, kind (0 acknowledge, 1 re-send request, 2 credit), value. -/
  | link (plane slice kind value : Nat)
deriving DecidableEq, Repr

/-- Power, pins and clocks (spec/03_boot_and_strongroom.md Table 3-1, R53 to R57; spec/22_pins_and_electrical.md R466). -/
structure Power where
  vddAon : Bool := true
  sysRstHigh : Bool := false
  perstHigh : Bool := false
  /-- The internal release of R57 has happened. -/
  released : Bool := false
  sysPll : Bool := false
  /-- The 25 MHz reference stopped (R466). -/
  refLost : Bool := false
  /-- Halted by a thermal trip (R423). -/
  halted : Bool := false
  /-- SerDes references running, bit j. -/
  serdesRef : BitVec 4 := 0xF
  /-- The PCIe link is up. -/
  pcieUp : Bool := false
  /-- VIO_SEL as sampled when VDDIO came up: 0 for 1.8 V, 1 for 3.3 V; kept until power-on (R467). -/
  vioSel : Bool := false
deriving DecidableEq, Repr, Inhabited

/-- A running request of the reset controller (spec/01_architecture.md R25, R26): 0 reset and release, 1 reset and hold, 2 release. -/
structure RunReset where
  unit : Nat
  kind : Nat
deriving DecidableEq, Repr, Inhabited

/-- The reset controller (R23 to R27). -/
structure ResetCtl where
  running : List RunReset := []
  held : List Nat := []
  /-- Running resets that a larger unit's extended: the larger unit and the smaller, released as one when the larger completes (R25). -/
  merged : List (Nat × Nat) := []
  /-- Software's last accepted request. -/
  last : Option RunReset := none
deriving DecidableEq, Repr, Inhabited

/-- A port record of the image (spec/02_configuration_image.md R35). -/
structure PortRec where
  first : Nat
  lanes : Nat
  type : Nat
  fec : Nat
  lpi : Bool
deriving DecidableEq, Repr, Inhabited

/-- A table-split record (R38). -/
structure Split where
  em : Nat
  lpm : Nat
  ovf : Nat
deriving DecidableEq, Repr, Inhabited

/-- A TCAM table record (R39). -/
structure TcamTab where
  slice : Nat
  id : Nat
  kind : Nat
  banks : Nat
  first : Nat
  count : Nat
deriving DecidableEq, Repr, Inhabited

/-- A requester record of the cell-buffer split (R40). -/
structure Requester where
  unit : Nat
  min : Nat
  quota : Nat
deriving DecidableEq, Repr, Inhabited

/-- A half record of the cell-buffer split (R40). -/
structure HalfRec where
  half : Nat
  spillGib : Nat
  reqs : List Requester
deriving DecidableEq, Repr, Inhabited

/-- What the applied image fixed (R44). `applied` is `IMAGE_STATUS.state` = applied. -/
structure ImageState where
  applied : Bool := false
  profile : Nat := 0
  version : Nat := 0
  firstAccord : Nat := 0
  ports : List PortRec := []
  suites : List (List Nat) := []
  splits : Tbl Split := []
  tcams : List TcamTab := []
  halves : List HalfRec := []
  /-- IMAGE_STATUS.customer_state of the applied image (Table 2-6). -/
  customerState : Nat := 0
  /-- The image held by the apply sequence between E0 and its end. -/
  held : Option Image := none
  /-- SHA-384 of the applied image and of its customer region (spec/03_boot_and_strongroom.md Table 3-14). -/
  hash : BitVec 384 := 0
  customerHash : BitVec 384 := 0
  /-- Halves whose innkeepers the apply sequence released: those below this (spec/03_boot_and_strongroom.md R65). -/
  runHalves : Nat := 0
deriving DecidableEq, Repr, Inhabited

/-- One pending apply of a staging domain (R47 to R51). -/
structure Apply where
  /-- The snapshot: address and staged value of every staged register of the domain. -/
  snap : Tbl Word := []
  /-- Window bases of the members that have not yet taken it, and of those of them whose live copy has changed while a direction of a port or
  a thread of a porter still acts on the old one. -/
  left : List Nat := []
  taken : List Nat := []
  since : Nat := 0
deriving DecidableEq, Repr, Inhabited

/-- A mailbox command waiting or being served (spec/03_boot_and_strongroom.md R72): opcode, request, what the crypto engines and the fuse
controller find of it, and whether the other channel's fuse command excluded it. -/
structure MailCmd where
  op : Nat
  seq : Nat
  len : Nat
  req : List Byte
  verdict : Option TokenCheck
  /-- Fuse bits that read back right before one did not (R70). -/
  blown : Nat
  /-- A self-test passes. -/
  pass : Bool
  excluded : Bool
deriving DecidableEq, Repr

/-- The strongroom (R58 to R75). -/
structure Strongroom where
  halted : Bool := false
  trngBad : Bool := false
  /-- Debug level unlocked: 0 none, 1 A, 2 B (R71). -/
  debugOpen : Nat := 0
  /-- The last challenge: level and nonce. -/
  nonce : Option (Nat × List Byte) := none
  /-- The image was handed over (E0). -/
  e0 : Bool := false
  /-- Stack 0 is trained, so images can be copied. -/
  stack0 : Bool := false
  /-- Slots tried so far in this start, and the one being tried. -/
  tried : List Nat := []
  trying : Option Nat := none
  /-- A verified image waits for the handover; 0, 1 flash slot, 2 host. -/
  verified : Option Nat := none
  /-- The verified image in the staging area, with the outcome of check 5 (R58). -/
  staged : Option Image := none
  /-- Host image transfer: bytes received, and whether the transfer runs. -/
  hostBytes : Nat := 0
  hostImage : List Byte := []
  /-- Channels with a command, in order of their go. -/
  order : List Nat := []
  cmds : Tbl (Option MailCmd) := []
  /-- The data areas: channel × 0x400 + byte. -/
  data : Memory := []
  /-- Patch IDs of the applied image. -/
  patches : List Nat := []
  /-- Control firmware: slots tried (R443). -/
  fwTried : List Nat := []
deriving DecidableEq, Repr, Inhabited

/-- A message of a checker (spec/18_ledger_and_faults.md R385). -/
structure Msg where
  source : Nat
  kind : Nat
  sev : Nat
  pos : Nat := 0
  addr : Nat := 0
  inj : Bool := false
  /-- The injection that caused it had react at 1 (R400). -/
  injReact : Bool := false
  /-- The record's time field, taken on arrival. -/
  time : Nat := 0
deriving DecidableEq, Repr, Inhabited

/-- An override entry (R394, Table 18-8). -/
structure Ovr where
  valid : Bool := false
  kind : Nat := 0
  unit : Nat := 0
  react : Nat := 0
deriving DecidableEq, Repr, Inhabited

/-- The newest record of a condition kind (R393): source, kind, ring pointer where it stands, when it was recorded. -/
structure Cond where
  source : Nat
  kind : Nat
  ptr : Option Nat
  at_ : Nat
  data : BitVec 128
deriving DecidableEq, Repr, Inhabited

/-- An armed injection (R400). -/
structure Injection where
  unit : Nat
  cls : Nat
  mask : Nat
  addr : Nat
  count : Nat
  react : Bool
deriving DecidableEq, Repr, Inhabited

/-- A latchkey (R402 to R405): owner unit 0 is free. -/
structure Latch where
  owner : Nat := 0
  fn : Nat := 0
  suspect : Bool := false
deriving DecidableEq, Repr, Inhabited

/-- The ledger and the latchkeys. -/
structure Ledger where
  /-- Sent by checkers, not yet at the ledger, oldest first. -/
  transit : List Msg := []
  /-- Held at their checkers (R388). -/
  held : List Msg := []
  /-- The input queue of 64. -/
  queue : List Msg := []
  ring : Tbl (BitVec 128) := []
  /-- records_lost at the last LEDGER_RECORDS_LOST record, and whether such a message is on its way. -/
  lostBase : Nat := 0
  lostSent : Bool := false
  /-- Rewritten default reactions (R394): kind to react_hi × 256 + react_lo. -/
  reacts : Tbl (Option Nat) := []
  ovrs : Tbl Ovr := []
  conds : List Cond := []
  /-- Ends of conditions reported and not yet handled: source and kind. -/
  ended : List (Nat × Nat) := []
  /-- Block resets due (targets) and a chip reset due. -/
  blocks : List Nat := []
  chipDue : Bool := false
  /-- Records due for the journal, and whether LEDGER_JOURNAL_STOP was sent since writes last resumed. -/
  jrnQueue : List (BitVec 128) := []
  jrnLost : Bool := false
  inj : Option Injection := none
  latches : Tbl Latch := []
deriving DecidableEq, Repr, Inhabited

/-- A ping-pong FIFO (spec/17_memory_protection.md R380 to R383). -/
structure Fifo where
  filling : List Entry := []
  draining : List Entry := []
  bank : Nat := 0
  since : Nat := 0
  flush : Bool := false
  /-- When FIFO_OVERRUN was last sent. -/
  sent : Option Nat := none
  /-- Items that an injection spoilt (spec/18_ledger_and_faults.md R400): how many items are to be taken out before, and 1 for a
  correctable or 2 for an uncorrectable error, 4 more where the injection had react at 1. -/
  hurt : List (Nat × Nat) := []
deriving DecidableEq, Repr, Inhabited

/-- Where a record of the housekeeper's own area of the keepsake store comes from (spec/19_housekeeper_power_ageing.md R425). -/
inductive HkRec where
  | retire (m pc : Nat)
  | unretire (m pc : Nat)
  | remap (unit row spare : Nat)
  | unmap (unit row : Nat)
  | plan (mv : List Nat)
  | boot (slot : Nat)
  | line (half : Nat) (data : Entry)
deriving DecidableEq, Repr, Inhabited

/-- The keepsake store (R424 to R427, spec/18_ledger_and_faults.md R398): what survives power loss (DESIGN CHOICE, notes/assumptions/5.md). -/
structure Nv where
  /-- The bytes of the software area and below (byte = line × 64 + offset). -/
  mem : Memory := []
  /-- Half-lines written at least once. -/
  written : Tbl Bool := []
  journal : Tbl (BitVec 128) := []
  jrnPtr : Nat := 0
  bootSlot : Nat := 0
  retired : List (Nat × Nat) := []
  remaps : List (Nat × Nat × Nat) := []
  plan : List Nat := []
  /-- Line writes into each region of 4,096 lines since its gap last moved, and the gap's place (R426). -/
  writes : Tbl Nat := []
  gap : Tbl Nat := []
deriving DecidableEq, Repr, Inhabited

/-- The fuses (spec/03_boot_and_strongroom.md Table 3-10) (DESIGN CHOICE, notes/assumptions/5.md). -/
structure Fuses where
  vendorHash : List Nat := [0, 0, 0, 0]
  customerHash : List Nat := [0, 0, 0, 0]
  vendorRevoked : BitVec 4 := 0
  customerRevoked : BitVec 4 := 0
  enrolled : BitVec 4 := 0
  /-- Hash bits blown and the slot not enrolled: such a slot can never be enrolled (R70). -/
  partly : BitVec 4 := 0
  /-- 0 open, 1 challenge, 3 closed. -/
  debug : Nat := 1
  rollback : Nat := 0
  imageKey : BitVec 256 := 0
  seed : BitVec 384 := 0
  uniqueId : BitVec 128 := 0
  /-- 0 C, 1 I (spec/00_scope.md Table 0-3). -/
  grade : Nat := 0
deriving DecidableEq, Repr, Inhabited

/-- A time base (spec/15_time_bases.md R321 to R324): time, fraction in units of 2^-48 ns, the seconds latched by reads. -/
structure Tb where
  sec : Nat := 0
  ns : Nat := 0
  frac : Nat := 0
  /-- Seconds of the last 1PPS capture. -/
  ppsSec : Nat := 0
  /-- When a go was last accepted in the window (R326). -/
  steered : Nat := 0
deriving DecidableEq, Repr, Inhabited

/-- A PPS output (R337): whole second of the next pulse's predecessor, and when the pulse in progress rose. -/
structure PpsOut where
  last : Nat := 0
  rose : Option Nat := none
deriving DecidableEq, Repr, Inhabited

/-- A log record of the accord engine (spec/07_accords.md R160): the entry and its validity before the write. -/
structure LogRec where
  place : SettlePlace
  valid : Bool
  vfrom : Nat
  vuntil : Nat
deriving DecidableEq, Repr

/-- The accord engine's state outside its registers (R147 to R168). -/
structure Accord where
  /-- Newest record first. -/
  log : List LogRec := []
  /-- Retirements not yet read, oldest first, at most 32. -/
  retired : List Nat := []
  overrun : Bool := false
  /-- When slot i stopped being the newest. -/
  drainFrom : Tbl Nat := []
  lastCommit : Option Nat := none
  /-- Where the settler stands in its walk, plus 1 (R166). -/
  settleAt : Nat := 0
deriving DecidableEq, Repr, Inhabited

/-- A cell on a plane link (spec/11_mollux_fabric.md Table 11-1). The header's crc always fits what was sent; `damaged` operands of the
arrivals stand for a check that fails. `stream` names the frame stream whose bytes and waybill the cell carries. -/
structure Cell where
  seq : Nat := 0
  barrier : Bool := false
  first : Bool := false
  last : Bool := false
  bad : Bool := false
  mcast : Bool := false
  len : Nat := 0
  src : Nat := 0
  dst : Nat := 0
  epoch : Nat := 0
  tag : Nat := 0
  group : Nat := 0
  slot : Nat := 0
  cls : Nat := 0
  mask : Nat := 0
  stream : Nat := 0
  index : Nat := 0
  /-- A cell of its frame was uncorrectable in the plane: the frame ends where this cell arrives (R251). -/
  lost : Bool := false
deriving DecidableEq, Repr, Inhabited

/-- Something held in a wake store (spec/19_housekeeper_power_ageing.md R412): a line frame, or a cell of a plane. -/
inductive WakeItem where
  | frame (id : Nat)
  | cell (plane : Nat) (c : Cell)
deriving DecidableEq, Repr, Inhabited

/-- One reading of an ageing monitor: loss in ppm, slack in ps now and at the ceiling voltage, lowest voltage per band in mV. -/
structure AgeReading where
  loss : Nat
  slack : Int
  slackCeil : Int
  vmin : List Nat
deriving DecidableEq, Repr, Inhabited

/-- The housekeeper (spec/19_housekeeper_power_ageing.md). -/
structure House where
  /-- Slice s: 0 awake, 1 entering sleep, 2 asleep, 3 waking, 4 waking on the backup PLL set (R409, R411). -/
  sleep : Tbl Nat := []
  /-- Bit s: a wake cause of slice s has come (R410) and its wake has not begun. -/
  cause : BitVec 8 := 0
  wakeStore : Tbl (List WakeItem) := []
  /-- Stack m is held for the night, and when its last entry op was written (R415). -/
  nightHeld : Tbl Bool := []
  nightOp : Tbl (Option Nat) := []
  /-- Set points per band; empty before the first plan. -/
  plan : List Nat := []
  /-- A step waiting for its verification: set point before, tries, since when. -/
  avsWait : Option (Nat × Nat × Nat) := none
  avsLast : Nat := 0
  /-- The regulator's VOUT_MODE is not linear (R416). -/
  unsteered : Bool := false
  monitors : Tbl (Option AgeReading) := []
  /-- When the last re-plan point was, and the items due: row of Table 19-3, unit, deferred now. -/
  replanAt : Option Nat := none
  items : List (Nat × Nat × Bool) := []
  /-- When the last re-plan completed, and how often in a row an item was deferred, by row × 256 + unit. -/
  replanDone : Option Nat := none
  deferRuns : Tbl Nat := []
  /-- THERMAL_WARN stands. -/
  warned : Bool := false
  temps : List Int := []
  /-- Records of the housekeeper waiting to be written, at most 16 (R425). -/
  queue : List HkRec := []
deriving DecidableEq, Repr, Inhabited

/-- A memory group's state outside its registers (spec/17_memory_protection.md). -/
structure MemGroup where
  /-- Rows whose filled bit is 1, as ranges of rows (first, count). -/
  filled : List (Nat × Nat) := []
  /-- Poisoned words. -/
  poison : List Nat := []
  /-- Words whose error an injection planted, and its react bit (spec/18_ledger_and_faults.md R400, R401). -/
  planted : List (Nat × Bool) := []
  /-- Words with a byte that has one wrong bit, and byte × 32 + bit (spec/17_memory_protection.md R366, R375). -/
  soft : List (Nat × Nat) := []
  /-- Next word of the scrubber. -/
  scrubAt : Nat := 0
  /-- The logged-address table: 64-bit entries by index, and HARD_CELL sent. -/
  log : Tbl Word := []
  /-- Order of entry, oldest first. -/
  logOrder : List Nat := []
  /-- Rows mapped to spares (row, spare), spares used up (block, how many). -/
  remaps : List (Nat × Nat) := []
  sparesUsed : Tbl Nat := []
  /-- A remap in progress: the row. -/
  remapping : Option (Nat × Nat) := none
  /-- A fill in progress: first word, words, pattern. -/
  filling : Option (Nat × Nat × Nat) := none
  /-- When MEM_CORRECTED was last sent. -/
  sent : Option Nat := none
deriving DecidableEq, Repr, Inhabited

/-- A DMA ring's state outside its registers (spec/20_host_interface.md R437). -/
structure Ring where
  /-- Completions not yet signalled, and when the first happened. -/
  unsignalled : Nat := 0
  since : Nat := 0
  /-- An inject descriptor being served, and the bytes read for it where a management MAC is to send them. -/
  desc : Option Entry := none
  read : Option (List Byte) := none
  /-- Punt rate bucket in units of 10^-4 bit (64 KiB when full), and when last filled. -/
  bucket : Int := 5242880000
  filled : Nat := 0
deriving DecidableEq, Repr, Inhabited

/-- Where a punt comes from (Table 20-8): the frame, the ring, source and reason. -/
structure Punt where
  frame : Nat
  ring : Nat
  source : Nat
  reason : Nat
  /-- trunc_cells of a mirror session (spec/10_actions_and_editing.md Table 10-11); 0 for whole. -/
  trunc : Nat := 0
deriving DecidableEq, Repr, Inhabited

/-- The host side outside registers (R429 to R445) (DESIGN CHOICE, notes/assumptions/28.md). -/
structure HostSide where
  /-- Lines that rose, were signalled and are still 1: bit g for group g, 16 + t for time base t, 24 for mailbox channel 1. -/
  irqSeen : BitVec 32 := 0
  rings : Tbl Ring := []
  /-- Punted frames of slice s, oldest first; a slice of management MACs is 8 + m. -/
  punts : Tbl (List Punt) := []
  /-- When core c's watchdog was last restarted. -/
  kicked : Tbl Nat := []
  gpioDir : BitVec 32 := 0
  gpioLevel : BitVec 32 := 0
  gpioEdge : BitVec 32 := 0
deriving DecidableEq, Repr, Inhabited

/-- The sweep engine outside registers (spec/21_counters.md). -/
structure Sweep where
  waiting : List Nat := []
  running : Option Nat := none
  buffer : List Entry := []
  passes : Tbl Nat := []
  /-- When list l was last triggered by its period, and the last TB0 second seen. -/
  period : Tbl Nat := []
  second : Nat := 0
deriving DecidableEq, Repr, Inhabited

/-- The result that an indirect window writes when its command completes (spec/20_host_interface.md R436). -/
structure WinRes where
  code : Nat
  data : Option Entry := none
  state : Option Nat := none
  seq : Option Nat := none
  index : Option Nat := none
  poison : Bool := false
deriving DecidableEq, Repr, Inhabited

/-- An exact-match entry: 256-bit body and 8-bit state (spec/08_exact_match.md Table 8-3, 8-4). -/
structure EmEntry where
  body : Entry := 0
  state : BitVec 8 := 0
deriving DecidableEq, Repr, Inhabited

/-- A learn request (R187): source key and destination result; `window` when it comes from the LEARN operation. -/
structure LearnReq where
  key : Nat
  dest : Nat
deriving DecidableEq, Repr, Inhabited

/-- An insert whose plan has moves (R182 to R184): the entry, the plan (places to move, last first, and the free target of the last), the
sequence numbers of the sources at the plan, and the plans broken so far. -/
structure EmJob where
  entry : EmEntry
  path : List Nat
  target : Nat
  seqs : List Nat
  broken : Nat := 0
deriving DecidableEq, Repr, Inhabited

/-- The exact-match table of a slice with its engines (R169 to R196). In a slice suite each member's own entries, sequence numbers and
bridge domains count (spec/01_architecture.md R476); the engines' state is the first member's. -/
structure EmTable where
  /-- Entries by the index of Table 8-1. -/
  entries : Tbl EmEntry := []
  /-- Sequence numbers: index / 4 for a bucket, the index for an overflow position (R180). -/
  seqs : Tbl Nat := []
  rot : Nat := 0
  hold : Option Entry := none
  queue : List LearnReq := []
  recent : List Nat := []
  /-- The current 1 ms window of R188: its number and the requests accepted in it. -/
  window : Nat := 0
  accepted : Nat := 0
  bd : Tbl Entry := []
  /-- An insert whose moves are to be carried out. -/
  job : Option EmJob := none
  /-- When the ager last visited an index (R194). -/
  visited : Tbl (Option Nat) := []
deriving DecidableEq, Repr, Inhabited

/-- An LPM slot (spec/09_lpm_and_tcam.md R207). -/
structure LpmSlot where
  data : BitVec 128 := 0
  state : BitVec 8 := 0
deriving DecidableEq, Repr, Inhabited

/-- A lookup in the hold queue (R206): slice, frame, lengths still to probe. -/
structure HeldLookup where
  slice : Nat
  frame : Nat
  lengths : List Nat
deriving DecidableEq, Repr, Inhabited

/-- The LPM copy of a half. -/
structure LpmCopy where
  slots : Tbl LpmSlot := []
  seqs : Tbl Nat := []
  filter4 : Tbl (BitVec 32) := []
  filter6 : Tbl (BitVec 128) := []
  held : List HeldLookup := []
deriving DecidableEq, Repr, Inhabited

/-- A TCAM entry (Table 9-11). -/
structure TcamEntry where
  value : Key := 0
  care : Key := 0
  prio : Nat := 0
  result : Word := 0
  vfrom : Nat := 0
  vuntil : Nat := 0
  state : BitVec 8 := 0
deriving DecidableEq, Repr, Inhabited

/-- A TCAM entry write waiting for a search slot (R216). -/
structure TcamWrite where
  index : Nat
  state : Nat
  seq : Nat
  first : TcamEntry
  second : TcamEntry
  /-- The accord engine accepted it as a write that it logs (spec/07_accords.md R159). -/
  logged : Bool
deriving DecidableEq, Repr

/-- The TCAM of a slice: array rows and stored copies by bank × 5,120 + entry (R214 to R220). In a slice suite the held parts and waiting
writes are the first member's. -/
structure Tcam where
  rows : Tbl TcamEntry := []
  copies : Tbl TcamEntry := []
  seqs : Tbl Nat := []
  /-- Held parts: 0 to 2 of the first half, 3 to 5 of the second. -/
  parts : Tbl (Option Entry) := []
  /-- Entries excluded until software writes them (R219). -/
  excluded : List Nat := []
  writes : List TcamWrite := []
  /-- Rows due to be rewritten from their copies. -/
  repairs : List Nat := []
  /-- When the scrubber last read a row (R220). -/
  scrubbed : Tbl (Option Nat) := []
deriving DecidableEq, Repr, Inhabited

/-- A key buffer of a thread (spec/05_porters.md R114): value, the bits written, the bits that came from L4 headers, and which kind of
segment wrote it. -/
structure KeyBuf where
  val : Key := 0
  written : Key := 0
  l4 : Key := 0
  byMember : Bool := false
  byPair : Bool := false
deriving DecidableEq, Repr, Inhabited

/-- A hardware thread of a porter (R104 to R118). -/
structure Thread where
  frame : Option Nat := none
  pc : Nat := 0
  cursor : Nat := 0
  /-- Cycles retired for the frame (R120). -/
  retired : Nat := 0
  trunc : Bool := false
  /-- The thread has ended and waits for the release queue (R108). -/
  ended : Bool := false
  bufs : Tbl KeyBuf := []
  /-- Register of the flow hash, and the held L4 folds (R115). -/
  crc : Nat := 0xFFFFFFFF
  l4 : List Byte := []
  /-- Order of the pair folds: swapped or not; none while no unequal operands decided it (R116). -/
  order : Option Bool := none
  /-- PORTER_PARSE and PORTER_CHECK as they stood at the frame's start (spec/02_configuration_image.md R46, Table 2-10); the live copy has
  changed since. -/
  parse : Word := 0
  check : Word := 0
  older : Bool := false
  /-- Wasted slots charged to the frame (R127). -/
  waste : Nat := 0
deriving DecidableEq, Repr, Inhabited

/-- A porter outside its registers. -/
structure Porter where
  threads : Tbl Thread := []
  /-- Times of the waybill failures within the window (R123). -/
  fails : List Nat := []
  /-- When the porter last retired a microword or took a frame. -/
  lastRetire : Nat := 0
  /-- The thread whose turn is next (R107), and the thread whose taken branch was the last microword. -/
  turn : Nat := 0
  branched : Option Nat := none
  /-- Cycles charged to slots whose time has not yet passed (R127). -/
  ahead : Nat := 0
deriving DecidableEq, Repr, Inhabited

/-- The porters' side of a slice: failovers in progress (failed porter, spare, its store check passed) and the release queue. -/
structure Front where
  failovers : List (Nat × Nat × Bool) := []
  release : List Nat := []
  /-- The porter that STORE_CHECK is checking. -/
  checking : Nat := 0
  /-- Failed and retired porters whose store is checked after a reset (R126). -/
  recheck : List Nat := []
deriving DecidableEq, Repr, Inhabited

/-- Where a frame stands between its arrival and its verdict. -/
inductive Stage where
  /-- In the ingress staging buffer, not yet dispatched. -/
  | waiting
  /-- In the wake store (spec/19_housekeeper_power_ageing.md R412). -/
  | wakeStore
  /-- In a thread of a porter. -/
  | thread (porter thread : Nat)
  /-- In the release queue. -/
  | release
  /-- Passed to the lookup pipes, lookups not issued. -/
  | pipes
  /-- Lookups issued; some may be outstanding. -/
  | lookups
  /-- The verdict is formed. -/
  | judged
deriving DecidableEq, Repr, Inhabited

/-- What a policer debited for a frame, to be put right when its length is known (spec/10_actions_and_editing.md R231). -/
structure Debit where
  slice : Nat
  meter : Nat
  estimate : Nat
  committed : Bool
  peak : Bool
deriving DecidableEq, Repr, Inhabited

/-- A TCAM search that has to be repeated (spec/09_lpm_and_tcam.md R218): use 0 A, 1 B, 2 short-prefix store; entries excluded. -/
structure TcamSearch where
  use : Nat
  excluded : List Nat
  falseHits : Nat
deriving DecidableEq, Repr, Inhabited

/-- A copy that ended before its frame_len was written and is charged for the difference then (spec/13_hierarchical_scheduling.md R288):
port, queue, what it was charged, by how much its outgoing length differs from the frame's, and the most bytes it could have (0: all). -/
structure LateCharge where
  port : Nat
  queue : Nat
  charged : Nat
  delta : Int
  cap : Nat
deriving DecidableEq, Repr, Inhabited

/-- What waits for a frame's last byte, the frame itself forwarded or gone: the policer's debit (R231), the learn request and what the
receive path found of the FCS (spec/08_exact_match.md R188). -/
structure Tail where
  slice : Nat := 0
  debit : Option Debit := none
  learn : Option LearnReq := none
  good : Option Bool := none
  /-- drop_bytes counters that take the frame's length when it is known, each with the most bytes the copy could have (0: all). -/
  drops : List (Nat × Nat) := []
  charges : List LateCharge := []
deriving DecidableEq, Repr, Inhabited

/-- A frame in the device. -/
structure Frame where
  /-- Ingress slice, and ingress port (255 = injected by the host). -/
  slice : Nat := 0
  port : Nat := 0
  /-- The port whose PORT_DEFAULT and order apply: the ingress port, or the arrival port of an injection in pipeline mode. -/
  home : Nat := 0
  /-- max_frame of that port at the frame's start. -/
  maxIn : Nat := 0
  /-- Bytes arrived, FCS included once whole. -/
  bytes : List Byte := []
  whole : Bool := false
  bad : Bool := false
  /-- The accord slot stamped at dispatch or injection (R106, spec/07_accords.md R152). -/
  slot : Option Nat := none
  /-- The waybill, word w in bits [32w+31:32w] (Table 5-2, Table 10-6). -/
  wb : BitVec 512 := 0
  stage : Stage := .waiting
  /-- Key buffers EM0 EM1 EM2 LPM TA TB as the thread left them. -/
  keys : Tbl Key := []
  /-- Results by source code 1 to 6 (Table 10-5), and bit 8 + b for a probe of exact-match buffer b that hit. -/
  hits : Tbl (Option Word) := []
  /-- Lookups still outstanding: LPM in the hold queue, TCAM searches to repeat. -/
  lpmHeld : Bool := false
  searches : List TcamSearch := []
  /-- The E-CID map's subscriber of an E-tagged frame, and the frame's E-CID (spec/04_ports_and_lanes.md R101). -/
  extSub : Option Nat := none
  ecid : Nat := 0
  /-- PORT_DEFAULT when the porter finished (R103). -/
  dflt : Word := 0
  /-- Tag of the inject descriptor (spec/20_host_interface.md Table 20-9). -/
  hostTag : Nat := 0
  injected : Bool := false
  /-- The frame holds its bytes in the ingress staging buffer (R128). -/
  staged : Bool := true
  /-- Copies, streams and punts that still need the frame. -/
  holders : Nat := 1
  /-- A first cell has left the ingress slice (R238). -/
  started : Bool := false
deriving DecidableEq, Repr, Inhabited

/-- A frame stream: the cells of a frame, or of its mirror copy, from the ingress slice across the fabric (spec/11_mollux_fabric.md). -/
structure Stream where
  frame : Nat := 0
  slice : Nat := 0
  /-- Waybill with the verdict the stream carries. -/
  wb : BitVec 512 := 0
  mirror : Bool := false
  mcast : Bool := false
  /-- Destination slices, one bit each. -/
  mask : Nat := 0
  /-- trunc_cells of a mirror session; 0 for whole. -/
  trunc : Nat := 0
  plane : Option Nat := none
  epoch : Nat := 0
  /-- The frame_tag that its cells carry, once the first is sent. -/
  tag : Nat := 0
  sent : Nat := 0
  /-- Destination slices that have not yet made their copies; while one has not, the stream counts as in flight (R152). -/
  left : Nat := 0
  /-- Destination slices that have not yet taken or discarded the last cell. -/
  openAt : Nat := 0
deriving DecidableEq, Repr, Inhabited

/-- One direction of a plane link (R244, R245). -/
structure Link where
  next : Nat := 0
  replay : List Cell := []
  flight : List Cell := []
  expect : Nat := 0
  /-- The receiver asked for a re-send and still waits for the expected cell. -/
  asked : Bool := false
  acks : List Nat := []
  naks : List Nat := []
  lastNak : Nat := 0
  nakRun : Nat := 0
  /-- Bad cells in the current 1 ms window, and whether the last window was over the threshold. -/
  badCells : Nat := 0
  alarmed : Bool := false
deriving DecidableEq, Repr, Inhabited

/-- A plane (R242, R249, R250). -/
structure Plane where
  /-- Cells buffered towards slice s; loopback cells of slice s. -/
  outs : Tbl (List Cell) := []
  loop : Tbl (List Cell) := []
  /-- Credits in use: sender × 8 + destination. -/
  used : Tbl Nat := []
  /-- Times of uncorrectable errors in its cell memory. -/
  errors : List Nat := []
  /-- Reset as a unit since it failed. -/
  wasReset : Bool := false
  drainAt : Nat := 0
deriving DecidableEq, Repr, Inhabited

/-- Where the bytes of one cell of a frame lie in the egress half: in a cell, or in a spill bundle. -/
inductive Place where
  | die (ptr : Nat)
  | bundle (b : Nat)
deriving DecidableEq, Repr, Inhabited

/-- A frame stream as its egress slice reassembles and holds it (R251, spec/12_innkeeper_buffers.md R267, R268). -/
structure Arrival where
  slice : Nat := 0
  src : Nat := 0
  plane : Nat := 0
  tag : Nat := 0
  stream : Nat := 0
  frame : Nat := 0
  wb : BitVec 512 := 0
  mirror : Bool := false
  /-- trunc_cells of a mirror copy; 0 for whole. -/
  trunc : Nat := 0
  places : List Place := []
  bytesHeld : Nat := 0
  reserved : Nat := 0
  /-- The last cell has arrived. -/
  closed : Bool := false
  bad : Bool := false
  /-- Refused or dropped: further cells are discarded. -/
  dead : Bool := false
  /-- Unit ID of the requester charged. -/
  lodger : Nat := 0
  /-- Ids of its copies that have not ended. -/
  copies : List Nat := []
deriving DecidableEq, Repr, Inhabited

/-- How a copy leaves (spec/10_actions_and_editing.md R236, R237). -/
inductive CopyMode where
  | undecided
  | cut
  | stored
deriving DecidableEq, Repr, Inhabited

/-- A copy in a queue or in the coach queue. -/
structure Copy where
  arrival : Nat := 0
  slice : Nat := 0
  port : Nat := 0
  sub : Nat := 0
  cls : Nat := 0
  /-- The subscriber slot that the verdict, copy entry or mirror session named. -/
  named : Nat := 0
  script : Nat := 0
  /-- E-tag of a group entry: GRP and E-CID_base (spec/11_mollux_fabric.md Table 11-4). -/
  etag : Option (Nat × Nat) := none
  /-- A copy of a multicast frame, whose Ingress_E-CID R102 gives. -/
  mcast : Bool := false
  mode : CopyMode := .undecided
  /-- Counted bytes charged so far, without the overhead (R288). -/
  charged : Nat := 0
  /-- When it joined the coach queue. -/
  coachAt : Nat := 0
  /-- Counted once in gate_window_wait (spec/14_time_gates.md R308). -/
  waited : Bool := false
deriving DecidableEq, Repr, Inhabited

/-- A frame chosen for the line: what of it is already edited. -/
structure Tx where
  copy : Nat := 0
  cut : Bool := false
  /-- Edited front, without FCS, and how many of the frame's bytes it stands for. -/
  front : List Byte := []
  used : Nat := 0
  /-- max_frame at the frame's start, and whether the live copy has changed since (spec/02_configuration_image.md Table 2-10). -/
  maxFrame : Nat := 0
  older : Bool := false
deriving DecidableEq, Repr, Inhabited

/-- A frame whose end is still to come: its number, the bytes so far, and whether RS-FEC marked blocks of it (R79). -/
structure Rx where
  id : Nat
  len : Nat
  marked : Bool := false
  /-- max_frame at the frame's start, and whether the live copy has changed since (spec/02_configuration_image.md Table 2-10). -/
  maxFrame : Nat := 0
  older : Bool := false
deriving DecidableEq, Repr, Inhabited

/-- A port outside its registers (spec/04_ports_and_lanes.md). -/
structure Port where
  /-- Since when each link-down condition of R81, and the absence of all, has persisted. -/
  unalignedSince : Option Nat := none
  localSince : Option Nat := none
  remoteSince : Option Nat := none
  goodSince : Option Nat := none
  /-- Start and hold_us of a hold in progress (R83, R87). -/
  hold : Option (Nat × Nat) := none
  /-- Classes' pause ends, and starts of the unbroken pause, where paused. -/
  pauseEnd : Tbl Nat := []
  pausedAt : Tbl Nat := []
  /-- The peer sends low-power idle (R96). -/
  peerLpi : Bool := false
  /-- Ends of the storm state, by class (R100). -/
  stormEnd : Tbl Nat := []
  xoffDue : BitVec 8 := 0
  xoffAt : Tbl Nat := []
  /-- Since when every queue has been empty. -/
  idleAt : Nat := 0
  waking : Option Nat := none
  /-- The frame being received; its number may name a frame that was dropped. -/
  rx : Option Rx := none
  /-- Frames that wait for dispatch, and frames dispatched and not yet passed on or dropped, both in order (R105, R108). -/
  wait : List Nat := []
  parsing : List Nat := []
  seq : Nat := 0
  tx : Option Tx := none
  /-- Time on the gate's time base when a swap was last armed (spec/14_time_gates.md R313). -/
  armedAt : Nat := 0
  /-- When GATE_OVERSIZE was last sent (R309). -/
  oversizeAt : Option Nat := none
deriving DecidableEq, Repr, Inhabited

/-- A bucket (spec/10_actions_and_editing.md R230, spec/13_hierarchical_scheduling.md R287): its level in units of 1/256 byte, and the part
of a unit that its fill has yet to complete, in millionths. -/
structure Bucket where
  level : Int := 0
  rest : Nat := 0
deriving DecidableEq, Repr, Inhabited

/-- A meter (spec/10_actions_and_editing.md Table 10-10): the record, the buckets, and when they were filled. -/
structure Meter where
  record : BitVec 128 := 0
  tc : Bucket := default
  tp : Bucket := default
  filled : Nat := 0
deriving DecidableEq, Repr, Inhabited

/-- The objects and versioned side tables of a slice (Table 10-8, Table 11-3, Table 11-4, Table 4-19, Table 4-20). -/
structure Objects where
  nextHops : Tbl Word := []
  groupSize : Tbl Nat := []
  /-- Sixteen members of group g, part p, at 4g + p. -/
  groupPart : Tbl Entry := []
  meters : Tbl Meter := []
  mirrors : Tbl Word := []
  /-- Frames selected per mirror session. -/
  mirrored : Tbl Nat := []
  /-- Bytes 32p to 32p + 31 of script i at 4i + p. -/
  scripts : Tbl Entry := []
  /-- Parts 0 to 2 held for the next write of a whole group or script (spec/10_actions_and_editing.md R227, Table 10-8). -/
  heldGroup : Tbl (Option Entry) := []
  heldScript : Tbl (Option Entry) := []
  copies : Tbl Word := []
  heads : Tbl Word := []
  headSeq : Tbl Nat := []
  ecids : Tbl Word := []
  ecidSeq : Tbl Nat := []
  subs : Tbl Word := []
  subSeq : Tbl Nat := []
deriving DecidableEq, Repr, Inhabited

/-- The running state of a node or queue (spec/13_hierarchical_scheduling.md R284 to R287): virtual time, tags, bucket (none: full), when
it was filled, and whether it was eligible when last looked at. -/
structure Node where
  v : Nat := 0
  s : Nat := 0
  f : Nat := 0
  bucket : Option Bucket := none
  filled : Nat := 0
  elig : Bool := false
deriving DecidableEq, Repr, Inhabited

/-- The level of a record. -/
inductive Level where
  | heart | top | queue
deriving DecidableEq, Repr, Inhabited

/-- The scheduler's records of a slice, live and staged, and the records written since the last accepted go (R296). -/
structure Records where
  heart : Tbl (BitVec 128) := []
  top : Tbl (BitVec 128) := []
  queue : Tbl Entry := []
  heartStaged : Tbl (Option (BitVec 128)) := []
  topStaged : Tbl (Option (BitVec 128)) := []
  queueStaged : Tbl (Option Entry) := []
  written : List (Level × Nat) := []
  /-- The snapshot of a go: level, index, record. -/
  snap : List (Level × Nat × Entry) := []
deriving DecidableEq, Repr, Inhabited

/-- The scheduler of a slice. -/
structure Sched where
  base : Tbl Node := []
  heart : Tbl Node := []
  top : Tbl Node := []
  queue : Tbl Node := []
  /-- Copies in queue 8s + c, head first. -/
  copies : Tbl (List Nat) := []
  /-- Coach FIFOs by port (spec/11_mollux_fabric.md R256). -/
  coach : Tbl (List Nat) := []
deriving DecidableEq, Repr, Inhabited

/-- A cell record (spec/12_innkeeper_buffers.md Table 12-1): allocated while count is not 0. -/
structure CellRec where
  count : Nat := 0
  lodger : Nat := 0
  next : Nat := 0
  first : Bool := false
  last : Bool := false
  bad : Bool := false
deriving DecidableEq, Repr, Inhabited

/-- A spill bundle (R269): requester, queue, the cells in it as arrival and position, and its place in the order of writes (R270);
written once its write completed. -/
structure Bundle where
  req : Nat := 0
  queue : Nat := 0
  cells : List (Nat × Nat) := []
  order : Nat := 0
  written : Bool := false
  fetching : Bool := false
deriving DecidableEq, Repr, Inhabited

/-- An innkeeper. -/
structure Innkeeper where
  cells : Tbl CellRec := []
  /-- What a cell holds that was given to a frame while another frame still named it (R278), by pointer. -/
  content : Tbl (List Byte) := []
  /-- Cells taken out of the free list (R277). -/
  lost : List Nat := []
  bundles : Tbl (Option Bundle) := []
  /-- When the newest spillable frame of a queue came (R269), by queue number. -/
  spillable : Tbl Nat := []
  /-- Requesters in recovery: index and time of release once released; the half's own. -/
  recover : Tbl (Option Nat) := []
  inRecovery : List Nat := []
  halfRecover : Bool := false
  halfReleased : Option Nat := none
  rebuilt : Bool := true
  /-- The housekeeper holds spill and fetches every bundle back (spec/19 R415). -/
  nightHold : Bool := false
deriving DecidableEq, Repr, Inhabited

/-- A request at a pseudo-channel arbiter (spec/16_hbm_controller.md R344): requester, channel address, direction, beats, beats done. -/
structure HbmReq where
  req : Nat := 0
  addr : Nat := 0
  write : Bool := false
  beats : Nat := 0
  data : List Byte := []
  since : Nat := 0
  starved : Bool := false
  began : Bool := false
  compat : Bool := false
deriving DecidableEq, Repr, Inhabited

/-- A pseudo-channel. -/
structure HbmPc where
  waiting : List HbmReq := []
  holder : Option HbmReq := none
  /-- Holders that an emergency suspended, innermost first. -/
  suspended : List HbmReq := []
  /-- The bank for which the refresh engine is the emergency holder. -/
  emergency : Option Nat := none
  owed : Tbl Nat := []
  /-- Activations in this window by bank × 16,384 + row; banks that sent HBM_ROW_HAMMER in it. -/
  acts : Tbl Nat := []
  hammered : List Nat := []
  /-- Rows due for a disturbance refresh, by bank × 16,384 + row, and since when. -/
  victims : List (Nat × Nat) := []
  /-- Throttled requesters: until when, and when the last transfer ended. -/
  throttle : Tbl Nat := []
  lastEnd : Tbl Nat := []
  errors : List Nat := []
  correctedAt : Option Nat := none
  /-- The training step that this pseudo-channel waits to run or runs; 0 none. -/
  step : Nat := 0
  stepHeld : Bool := false
deriving DecidableEq, Repr, Inhabited

/-- An HBM controller outside its registers. -/
structure Hbm where
  pcs : Tbl HbmPc := []
  /-- Bytes of the stack that were written, by stack offset. -/
  mem : Tbl (Option Byte) := []
  /-- 64-bit words with an error that an injection planted (spec/18_ledger_and_faults.md R401), by stack offset: 1 correctable, 2 not;
  4 more where the injection had react at 1. -/
  planted : Tbl Nat := []
  /-- The relocated share's granules of 2 KiB read as poisoned until written, and those written since (R361). -/
  lost : Bool := false
  rewritten : List Nat := []
  /-- Pseudo-channels whose share is unmapped (R362). -/
  unmapped : List Nat := []
  /-- A training in service runs, and some pseudo-channel failed in it. -/
  serving : Bool := false
  failed : Bool := false
  /-- The operating point that an accepted go in HBM_FREQ asked for (R356). -/
  freqPoint : Nat := 0
  /-- When the owed refreshes last rose (R350). -/
  owedAt : Nat := 0
  /-- Woken by a request, and no exit op written since the last entry (R359). -/
  wokenByRequest : Bool := false
  exitWritten : Bool := false
  wakeDue : Bool := false
  lastGrant : Nat := 0
deriving DecidableEq, Repr, Inhabited

/-- The device but for the fuses, the keepsake store and the queue of commands (DESIGN CHOICE, notes/assumptions/3.md). -/
structure Chip where
  /-- Device time in ns (R322). -/
  now : Nat := 0
  /-- How many free values were taken (the model's own). -/
  fresh : Nat := 0
  /-- What the last command sent out (the model's own). -/
  out : List Out := []
  /-- The data that the last read returned (the model's own). -/
  busData : Word := 0
  /-- Live registers and counters by BAR0 offset; an unlisted one holds its reset value. -/
  regs : Tbl Word := []
  /-- Staged values; an unlisted register's staged fields equal its live ones. -/
  staged : Tbl (Option Word) := []
  /-- Staging domains written since their last snapshot, by window base. -/
  since : Tbl Bool := []
  applies : Tbl (Option Apply) := []
  power : Power := default
  rst : ResetCtl := default
  image : ImageState := default
  room : Strongroom := default
  ledger : Ledger := default
  /-- FIFOs: learn s, 8 + s time stamps, 16 + s punt events, 24 ledger overflow. -/
  fifos : Tbl Fifo := []
  tbs : Tbl Tb := []
  pps : Tbl PpsOut := []
  accord : Accord := default
  house : House := default
  /-- Memory groups by unit ID. -/
  mem : Tbl MemGroup := []
  host : HostSide := default
  sweep : Sweep := default
  /-- Results of window commands that are due, by window base; `none` inside means that the command still runs. -/
  wins : Tbl (Option WinRes) := []
  /-- Tables by slice or half: each member of a suite keeps its own copy (spec/01_architecture.md R476). -/
  em : Tbl EmTable := []
  lpm : Tbl LpmCopy := []
  tcam : Tbl Tcam := []
  /-- The microcode store, the same in every porter (spec/06_microword_reference.md R143). -/
  store : Tbl Entry := []
  /-- Porters by slice × 34 + index. -/
  porters : Tbl Porter := []
  fronts : Tbl Front := []
  ports : Tbl Port := []
  /-- Frames, streams, arrivals and copies by the number they were given. -/
  nextId : Nat := 0
  frames : Tbl (Option Frame) := []
  /-- By frame number. -/
  tails : Tbl Tail := []
  streams : Tbl (Option Stream) := []
  arrivals : Tbl (Option Arrival) := []
  copies : Tbl (Option Copy) := []
  /-- Links by plane × 16 + slice × 2, + 1 from the plane to the slice. -/
  links : Tbl Link := []
  /-- Lanes whose last 1 ms window was over its threshold (spec/04_ports_and_lanes.md R80). -/
  fecAlarm : Tbl Bool := []
  planes : Tbl Plane := []
  /-- Barriers that slice s still has to send on plane k, by s × 4 + k: the destinations (R248). -/
  barriersDue : Tbl (List Nat) := []
  /-- By destination × 8 + source: planes whose barrier is awaited, each with the source's epoch before that wait began, and the cells
  held, with their plane. -/
  awaited : Tbl (List (Nat × Nat)) := []
  heldCells : Tbl (List (Nat × Cell)) := []
  heldSince : Tbl (Option Nat) := []
  objects : Tbl Objects := []
  records : Tbl Records := []
  scheds : Tbl Sched := []
  innkeepers : Tbl Innkeeper := []
  hbms : Tbl Hbm := []
deriving DecidableEq, Repr, Inhabited

/-- The state of the block: the device, the keepsake store, the fuses, and the commands waiting, first in first out
(DESIGN CHOICE, notes/assumptions/3.md) (DESIGN CHOICE, notes/assumptions/78.md). -/
structure State where
  chip : Chip
  nv : Nv
  fuses : Fuses
  pending : List Instr
deriving DecidableEq, Repr

/-- Right after power-on reset (spec/03_boot_and_strongroom.md R53): every register at its reset value, nothing started, SYS_RST_N
low, and no command waiting (DESIGN CHOICE, notes/assumptions/3.md; DESIGN CHOICE, notes/assumptions/5.md). -/
def State.reset : State := ⟨{}, {}, {}, []⟩

end Sys2Proof.Machine
end

