-- ==== Sys2Proof/Machine/Ops.lean ====
section
/-! DEFINITION. The operations every family shares: register and counter access, unit IDs and the nest of units, suites and presence,
reports to the ledger, interrupts, and how a command runs. -/

namespace Sys2Proof.Machine

open Sys2Proof

/-! ### Addresses (spec/00_scope.md Table 0-6) -/

def A.slice (s : Nat) : Nat := 0x08000000 + s * 0x01000000
def A.half (h : Nat) : Nat := 0x10000000 + h * 0x02000000
def A.plane (k : Nat) : Nat := 0x14000000 + k * 0x00100000
def A.hbm (m : Nat) : Nat := 0x15000000 + m * 0x00400000
def A.mbox (ch : Nat) : Nat := 0x18000000 + ch * 0x1000
/-- Port number 0 to 127. -/
def A.port (p : Nat) : Nat := A.slice (p / 16) + 0x100000 + (p % 16) * 0x4000
def A.lane (q : Nat) : Nat := A.slice (q / 16) + 0x300000 + (q % 16) * 0x400
def A.porter (s n : Nat) : Nat := A.slice s + 0x200000 + n * 0x1000
def A.tb (t : Nat) : Nat := 0x40000 + t * 0x100
def A.ring (r : Nat) : Nat := 0x100000 + r * 0x40
def A.mgmt (m : Nat) : Nat := 0xB0000 + m * 0x100
/-- The registers of one memory group, which the bus reaches at 0x5004 on through MEM_SEL (spec/17_memory_protection.md). -/
def A.group (unit : Nat) : Nat := 0x20000000 + unit * 0x10000

/-! ### The register table -/

/-- `d` bytes into an array of the dimensions: a register starts there. -/
def dimsHit : List (Nat × Nat) → Nat → Bool
  | [], d => d == 0
  | (c, st) :: ds, d => decide (d / st < c) && dimsHit ds (d % st)

def RegRow.hits (r : RegRow) (o : Nat) : Bool := decide (r.off ≤ o) && dimsHit r.dims (o - r.off)

/-- The rows of the region that holds an address, and the offset inside it. -/
def regRegion (a : Nat) : List RegRow × Nat :=
  if a < 0x01000000 then (RegTable.globalRows, a)
  else if a < 0x08000000 then ([], 0)
  else if a < 0x10000000 then (RegTable.sliceRows, a % 0x01000000)
  else if a < 0x14000000 then (RegTable.halfRows, a % 0x02000000)
  else if a < 0x14400000 then (RegTable.planeRows, a % 0x00100000)
  else if a < 0x15000000 then ([], 0)
  else if a < 0x15800000 then (RegTable.hbmRows, a % 0x00400000)
  else if a < 0x18000000 then ([], 0)
  else if a < 0x18002000 then (RegTable.mboxRows, a % 0x18000000)
  else if a < 0x20000000 then ([], 0)
  else (RegTable.groupRows, a % 0x10000)

/-- The register that starts at an address. -/
def regRow (a : Nat) : Option RegRow := (regRegion a).1.find? fun r => r.hits (regRegion a).2

/-- The reset value of a register (0 where no register starts). -/
def regReset (a : Nat) : Word := BitVec.ofNat 64 (((regRow a).map RegRow.rst).getD 0)

/-- A field of a register's value. -/
def Fld.of (f : Fld) (v : Word) : Nat := bits v f.hi f.lo

namespace Chip

/-- Read a register. -/
def reg (c : Chip) (a : Nat) : Word := (Tbl.find c.regs a).getD (regReset a)

/-- Write a register. -/
def setReg (c : Chip) (a : Nat) (v : Word) : Chip := { c with regs := Tbl.put (regReset a) c.regs a v }

/-- Read a field of the register block at `base`. -/
def get (c : Chip) (base : Nat) (f : Fld) : Nat := bits (c.reg (base + f.off)) f.hi f.lo

/-- A one-bit field reads 1. -/
def on (c : Chip) (base : Nat) (f : Fld) : Bool := c.get base f != 0

/-- Write a field of the register block at `base`. -/
def put (c : Chip) (base : Nat) (f : Fld) (n : Nat) : Chip :=
  c.setReg (base + f.off) (putBits (c.reg (base + f.off)) f.hi f.lo n)

/-- Add to a counter, which wraps modulo 2^64 (spec/21_counters.md R446). -/
def cnt (c : Chip) (a n : Nat) : Chip := c.setReg a (c.reg a + BitVec.ofNat 64 n)

/-- Send something out. -/
def emit (c : Chip) (o : Out) : Chip := { c with out := c.out ++ [o] }

/-- Take a free entry (DESIGN CHOICE, notes/assumptions/4.md; DESIGN CHOICE, notes/assumptions/8.md). -/
def freeEntry (c : Chip) : Entry × Chip := (Config.freeEntry c.fresh, { c with fresh := c.fresh + 1 })

/-- Take `n` free bytes (DESIGN CHOICE, notes/assumptions/8.md). -/
def freeBytes (c : Chip) (n : Nat) : List Byte × Chip :=
  ((List.range n).map fun i => Config.freeByte (c.fresh + i), { c with fresh := c.fresh + n })

/-- Change the list of chips by a list of steps. -/
def each {α : Type} (c : Chip) (l : List α) (f : Chip → α → Chip) : Chip := l.foldl f c

/-- Apply `f` when `b`. -/
def when (c : Chip) (b : Bool) (f : Chip → Chip) : Chip := if b then f c else c

end Chip

/-! ### Unit IDs (spec/01_architecture.md Table 1-2 to 1-4) -/

namespace U

def lane (q : Nat) : Nat := 0x2000 + q
def port (p : Nat) : Nat := 0x4000 + p
def group (g : Nat) : Nat := 0x6000 + g
def slice (s : Nat) : Nat := 0x8000 + s
def half (h : Nat) : Nat := 0xA000 + h
def device : Nat := 0xC000
/-- Block units of port group, slice, half and device. -/
def groupBlk (g code : Nat) : Nat := 0x7000 + g * 16 + code
def sliceBlk (s code : Nat) : Nat := 0x9000 + s * 0x200 + code
def halfBlk (h code : Nat) : Nat := 0xB000 + h * 0x800 + code
def devBlk (code : Nat) : Nat := 0xD000 + code

def level (u : Nat) : Nat := u / 0x2000
def isBlk (u : Nat) : Bool := u / 0x1000 % 2 == 1
def index (u : Nat) : Nat := u % 0x1000

/-- The ID names a unit of Table 1-3 or 1-4. -/
def used (u : Nat) : Bool :=
  let i := index u
  match level u, isBlk u with
  | 1, false => decide (i < 128)
  | 2, false => decide (i < 130)
  | 3, false => decide (i < 16)
  | 3, true => decide (i / 16 < 16) && decide (i % 16 < 2)
  | 4, false => decide (i < 8)
  | 4, true =>
    let b := i % 0x200
    decide (b < 0x22) || [0x40, 0x41, 0x48, 0x49, 0x50, 0x51, 0x52, 0x53, 0x58, 0x60, 0x68, 0x70, 0x78, 0x80, 0x88, 0x90, 0x98,
      0x99, 0x9A, 0x9B].contains b
  | 5, false => decide (i < 2)
  | 5, true => let b := i % 0x800; [0, 8, 0x10, 0x20, 0x60].contains b || (decide (0x40 ≤ b) && decide (b < 0x60))
  | 6, false => i == 0
  | 6, true =>
    decide (i < 4) || (decide (0x10 ≤ i) && decide (i < 0x14)) || (decide (0x50 ≤ i) && decide (i < 0x58)) ||
      [0x18, 0x20, 0x28, 0x30, 0x38, 0x40, 0x48, 0x60, 0x68, 0x70, 0x78].contains i
  | _, _ => false

/-- The slice that contains a unit. -/
def sliceOf (u : Nat) : Option Nat :=
  match level u, isBlk u with
  | 1, false => some (index u / 16)
  | 2, false => if index u < 128 then some (index u / 16) else none
  | 3, false => some (index u / 2)
  | 3, true => some (index u / 16 / 2)
  | 4, false => some (index u)
  | 4, true => some (index u / 0x200)
  | _, _ => none

/-- The half that contains a unit. -/
def halfOf (u : Nat) : Option Nat :=
  match sliceOf u with
  | some s => some (s / 4)
  | none => if level u = 5 then some (if isBlk u then index u / 0x800 else index u) else none

end U

namespace Chip

/-- The port record that covers a lane. -/
def portOfLane (c : Chip) (q : Nat) : Option PortRec :=
  c.image.ports.find? fun r => decide (r.first ≤ q) && decide (q < r.first + r.lanes)

/-- The record of a port. -/
def portRec (c : Chip) (p : Nat) : Option PortRec := c.image.ports.find? fun r => r.first == p

/-- The units that contain a unit, itself included (spec/01_architecture.md "The nest of units"). -/
def parents (c : Chip) (u : Nat) : List Nat :=
  let g : List Nat :=
    match U.level u, U.isBlk u with
    | 1, false => (match c.portOfLane (U.index u) with
        | some r => [U.port r.first]
        | none => []) ++ [U.group (U.index u / 8)]
    | 2, false => if U.index u < 128 then [U.group (U.index u / 8)] else []
    | 3, true => [U.group (U.index u / 16)]
    | _, _ => []
  let sl := match U.sliceOf u with
    | some s => [U.slice s]
    | none => []
  let hf := match U.halfOf u with
    | some h => [U.half h]
    | none => []
  (u :: (g ++ sl ++ hf ++ [U.device])).dedup

/-- The suite that a unit is a leaf member of, members in ascending order (R14, R15). -/
def suiteOf (c : Chip) (u : Nat) : Option (List Nat) := c.image.suites.find? fun m => m.contains u

/-- The unit ID that reports and requests use for a unit: its suite's, or its own (R15, R17) (DESIGN CHOICE, notes/assumptions/11.md). -/
def suiteUnit (c : Chip) (u : Nat) : Nat := ((c.suiteOf u).bind List.head?).getD u

/-- The member position of a unit (R17), of seven bits: a suite has at most 128 members (R14). -/
def suitePos (c : Chip) (u : Nat) : Nat :=
  match c.suiteOf u with
  | some m => m.idxOf u % 128
  | none => 0

/-- The leaf members that a request naming `u` acts on. -/
def members (c : Chip) (u : Nat) : List Nat := (c.suiteOf u).getD [u]

/-- `u` lies in `v` or in a member of the suite `v` (R17, R23); a suite `u` lies where its first member does, also when other members
lie elsewhere: the spec does not say how a partial overlap is taken (DESIGN CHOICE, notes/assumptions/20.md). -/
def inside (c : Chip) (u v : Nat) : Bool := (c.members v).any fun m => (c.parents u).contains m

/-- Slices of the profile (spec/00_scope.md Table 0-1). -/
def sliceEnabled (c : Chip) (s : Nat) : Bool :=
  c.image.applied && decide (s < (if c.image.profile = 0 then 8 else if c.image.profile = 1 then 4 else 2))

def halfEnabled (c : Chip) (h : Nat) : Bool :=
  c.image.applied && decide (h < (if c.image.profile = 0 then 2 else 1))

/-- A unit is present (R475, R1). -/
def present (c : Chip) (u : Nat) : Bool :=
  U.used u &&
  (if U.level u = 6 then true
   else c.image.applied &&
    (match U.sliceOf u, U.halfOf u with
      | some s, _ => c.sliceEnabled s
      | none, some h => c.halfEnabled h
      | none, none => true) &&
    (if U.level u = 2 && !(U.isBlk u) && decide (U.index u < 128) then (c.portRec (U.index u)).isSome else true))

/-- A unit is in reset: running or held (R25, R26). -/
def inReset (c : Chip) (u : Nat) : Bool :=
  (c.rst.running.any fun r => c.inside u r.unit) || c.rst.held.any fun v => c.inside u v

/-- A unit is there and not in reset. -/
def alive (c : Chip) (u : Nat) : Bool := c.present u && !(c.inReset u)

/-- A block unit of slice `s` is not in reset (R23) (DESIGN CHOICE, notes/assumptions/26.md). -/
def blockUp (c : Chip) (s code : Nat) : Bool := !(c.inReset (U.sliceBlk s code))

/-- The slices of a slice's suite, or the slice alone; each keeps its own copy of the tables (R476). -/
def sliceMates (c : Chip) (s : Nat) : List Nat := (c.members (U.slice s)).map U.index

/-- The halves of a half's suite, or the half alone (R476). -/
def halfMates (c : Chip) (h : Nat) : List Nat := (c.members (U.half h)).map U.index

/-- The base of the window of a port's counters: the suite's first member's (R16, R18) (DESIGN CHOICE, notes/assumptions/11.md). -/
def portCnt (c : Chip) (p : Nat) : Nat := A.port (U.index (c.suiteUnit (U.port p)))
def laneCnt (c : Chip) (q : Nat) : Nat := A.lane (U.index (c.suiteUnit (U.lane q)))
def sliceCnt (c : Chip) (s : Nat) : Nat := A.slice (U.index (c.suiteUnit (U.slice s)))
def halfCnt (c : Chip) (h : Nat) : Nat := A.half (U.index (c.suiteUnit (U.half h)))

/-! ### Reports -/

/-- A checker sends a message (spec/18_ledger_and_faults.md R385), under the suite's unit ID (R17). Block units keep their IDs (R19). -/
def report (c : Chip) (unit kind sev : Nat) (addr : Nat := 0) (inj : Bool := false) : Chip :=
  { c with ledger := { c.ledger with
      transit := c.ledger.transit ++ [{ source := c.suiteUnit unit, kind, sev, pos := c.suitePos unit, addr, inj }] } }

/-- A checker reports the end of a condition (R393). -/
def endCond (c : Chip) (unit kind : Nat) : Chip :=
  { c with ledger := { c.ledger with ended := c.ledger.ended ++ [(c.suiteUnit unit, kind)] } }

end Chip

/-! ### Time -/

def Chip.us (c : Chip) : Nat := c.now / 1000
/-- `n` microseconds have passed since `t` (DESIGN CHOICE, notes/assumptions/10.md). -/
def Chip.passedUs (c : Chip) (t n : Nat) : Bool := decide (t + n * 1000 ≤ c.now)

/-! ### Buckets (spec/10_actions_and_editing.md R230, spec/13_hierarchical_scheduling.md R287) -/

/-- A full bucket of `burst` bytes. -/
def Bucket.full (burst : Nat) : Bucket := { level := (burst * 256 : Nat) }

/-- A bucket never stands above its burst. -/
def Bucket.clamp (b : Bucket) (burst : Nat) : Bucket := if ((burst * 256 : Nat) : Int) ≤ b.level then Bucket.full burst else b

/-- A bucket filled for `ns` at a rate in units of 64 kb/s, which are 2,048 millionths of 1/256 byte per ns, up to its burst
(DESIGN CHOICE, notes/assumptions/44.md). -/
def Bucket.fill (b : Bucket) (rate burst ns : Nat) : Bucket :=
  let n := b.rest + rate * 2048 * ns
  ({ level := b.level + (n / 1000000 : Nat), rest := n % 1000000 } : Bucket).clamp burst

/-- Take bytes out of a bucket, below zero too; a negative number gives bytes back. -/
def Bucket.debit (b : Bucket) (bytes : Int) : Bucket := { b with level := b.level - 256 * bytes }

/-- The bucket holds at least so many bytes. -/
def Bucket.has (b : Bucket) (bytes : Int) : Bool := decide (256 * bytes ≤ b.level)

/-! ### Who is asking -/

/-- Function code of a sender (spec/20_host_interface.md Table 20-2, R433). -/
def srcFn : Source → Nat
  | .pf => 0
  | .vf n => n
  | .core _ => 0x10

/-- Owner unit of a sender (R433). -/
def srcUnit : Source → Nat
  | .pf => 0xD020
  | .vf _ => 0xD020
  | .core k => 0xD010 + k

/-! ### Running a command -/

/-- What must run before a command can happen. -/
inductive Need where
  /-- Nothing: the power and reset pins. -/
  | always
  /-- VDD_AON and the AON domain. -/
  | aon
  /-- The system PLL and register bus. -/
  | core
deriving DecidableEq, Repr

namespace Chip

/-- The part of the device that a command needs runs (spec/03_boot_and_strongroom.md Table 3-7, spec/19 Table 19-4)
(DESIGN CHOICE, notes/assumptions/2.md). -/
def ready (c : Chip) : Need → Bool
  | .always => true
  | .aon => c.power.vddAon
  | .core => c.power.vddAon && c.power.released && c.power.sysPll && !(c.power.halted)

/-- The device is undefined until a chip reset (R466) (DEDUCED, notes/assumptions/12.md). -/
def undef (c : Chip) (n : Need) : Bool := c.power.refLost && n != .always

end Chip

/-- The device with the outputs of the command before taken away (DESIGN CHOICE, notes/assumptions/3.md). -/
def Chip.quiet (c : Chip) : Chip := { c with out := [] }

/-- Run a command on the device alone: the outputs of the command before are taken away; where what it needs does not run, nothing
happens (DESIGN CHOICE, notes/assumptions/2.md). -/
def State.run (s : State) (n : Need) (f : Chip → Chip) : Host.Outcome State Fault Refusal :=
  if s.chip.undef n then .fault .behaviourUndefined
  else if s.chip.ready n then .next { s with chip := f s.chip.quiet }
  else .next { s with chip := s.chip.quiet }

/-- Run a command that also writes the keepsake store or the fuses (DESIGN CHOICE, notes/assumptions/2.md). -/
def State.runNv (s : State) (n : Need) (f : Nv → Fuses → Chip → Chip × Nv × Fuses) : Host.Outcome State Fault Refusal :=
  if s.chip.undef n then .fault .behaviourUndefined
  else if s.chip.ready n then
    let r := f s.nv s.fuses s.chip.quiet
    .next { s with chip := r.1, nv := r.2.1, fuses := r.2.2 }
  else .next { s with chip := s.chip.quiet }

/-! ### The register bus as a sender sees it -/

namespace Chip

/-- A unit is its suite's first member, or in none (R16). -/
def firstOf (c : Chip) (u : Nat) : Bool := c.suiteUnit u == u

/-- An address is served: its window's unit is present and not a suite member other than the first (R3, R16, R20, R56, R475)
(DESIGN CHOICE, notes/assumptions/11.md). -/
def visible (c : Chip) (a : Nat) : Bool :=
  if a < 0x01000000 then true
  else if 0x18000000 ≤ a && a < 0x18002000 then true
  else if !c.image.applied then false
  else if 0x08000000 ≤ a && a < 0x10000000 then
    let s := (a - 0x08000000) / 0x01000000
    let o := a % 0x01000000
    c.sliceEnabled s &&
      (if 0x100000 ≤ o && o < 0x140000 then
        let u := U.port (s * 16 + (o - 0x100000) / 0x4000)
        c.present u && c.firstOf u
      else if 0x200000 ≤ o && o < 0x222000 then true
      else if 0x300000 ≤ o && o < 0x304000 then c.firstOf (U.lane (s * 16 + (o - 0x300000) / 0x400))
      else if 0x400100 ≤ o && o < 0x400114 then true
      else c.firstOf (U.slice s))
  else if 0x10000000 ≤ a && a < 0x14000000 then
    let h := (a - 0x10000000) / 0x02000000
    c.halfEnabled h && c.firstOf (U.half h)
  else if 0x14000000 ≤ a && a < 0x14400000 then true
  else if 0x15000000 ≤ a && a < 0x15800000 then c.halfEnabled ((a - 0x15000000) / 0x400000)
  else false

/-- A grant of virtual function `n` covers an address with the right that the access needs (spec/20_host_interface.md Table 20-3). -/
def granted (c : Chip) (n a : Nat) (write : Bool) : Bool :=
  !(0x80000 ≤ a && a < 0x140000) && !(0x18000000 ≤ a && a < 0x18002000) &&
  (List.range 8).any fun g =>
    let base := (n - 1) * 0x80 + 8 * g
    let b := c.get base R.VF_GRANT_BASE_base * 4096
    let k := c.get base R.VF_GRANT_CTRL_log2_size
    decide (12 ≤ k) && decide (k ≤ 28) && b % 2 ^ k == 0 && decide (b ≤ a) && decide (a < b + 2 ^ k) &&
      c.on base (if write then R.VF_GRANT_CTRL_write else R.VF_GRANT_CTRL_read)

/-- A sender's access is served (R432). -/
def allowed (c : Chip) (src : Source) (a : Nat) (write : Bool) : Bool :=
  match src with
  | .vf n =>
    decide (a < 4) || (decide (0x4000 ≤ a) && decide (a < 0x4200)) || (decide (0x40000 ≤ a) && decide (a < 0x40800)) ||
      (decide (0x100000 ≤ a) && decide (a < 0x140000) && c.get (A.ring ((a - 0x100000) / 0x40)) R.RING_CFG_owner == n) ||
      c.granted n a write
  | _ => true

/-- A discarded or zero-answered access of a virtual function is counted (R432). -/
def denied (c : Chip) (src : Source) : Chip :=
  match src with
  | .vf n => if 1 ≤ n && n ≤ 15 then c.cnt (C.vf_denied + 8 * (n - 1)) 1 else c
  | _ => c

end Chip

/-- Run a bus access of `src` to address `a`: it is served when R432 allows it and the address is present (R3). A read of an absent
register returns 0 (DESIGN CHOICE, notes/assumptions/2.md). -/
def State.bus (s : State) (src : Source) (a : Nat) (write : Bool) (f : Chip → Chip) : Host.Outcome State Fault Refusal :=
  s.run .core fun c =>
    if c.allowed src a write then (if c.visible a then f c else if write then c else { c with busData := 0 })
    else if write then c.denied src else { c.denied src with busData := 0 }

/-- The part of the device that a command needs runs, and the device is not undefined (R466). -/
def State.runs (s : State) (n : Need) : Bool := !(s.chip.undef n) && s.chip.ready n

/-- The bus serves an access of `src` to address `a`. -/
def State.serves (s : State) (src : Source) (a : Nat) (write : Bool) : Bool :=
  s.runs .core && s.chip.allowed src a write && s.chip.visible a

end Sys2Proof.Machine
end

