-- ==== Sys2Proof/Machine/Ledger.lean ====
section
/-! DEFINITION. The ledger and the latchkeys (spec/18_ledger_and_faults.md R385 to R405), and the start of an accord's discard, which
a latchkey's release causes (spec/07_accords.md R164). The reactions that reset units stand in Reset.lean. -/

namespace Sys2Proof.Machine

open Sys2Proof

/-! ### Kinds -/

namespace K

def imageApplyFail := 0x001
def bootAuthFail := 0x002
def bootRollback := 0x003
def strongroomTamper := 0x004
def strongroomSelftest := 0x005
def trngHealth := 0x006
def fuseProgramFail := 0x007
def debugUnlocked := 0x008
def lockOrphan := 0x010
def accordUnderflow := 0x011
def accordDrainSlow := 0x012
def recordsLost := 0x018
def journalStop := 0x019
def fecDegrade := 0x100
def pfcStorm := 0x101
def gateOversize := 0x102
def gclActiveWrite := 0x103
def porterIllegal := 0x200
def waybillInvalid := 0x201
def porterFail := 0x202
def porterNoSpare := 0x203
def storeMismatch := 0x204
def emDuplicate := 0x300
def emPoison := 0x301
def lpmDuplicate := 0x302
def lpmPoison := 0x303
def lpmFilterPoison := 0x304
def tcamFalseHit := 0x305
def tcamPoison := 0x306
def tcamRowMismatch := 0x307
def actBadResult := 0x400
def nexthopInvalid := 0x401
def objectPoison := 0x402
def scriptErr := 0x403
def fabricCrc := 0x500
def fabricLinkFail := 0x501
def planeFail := 0x502
def fabricDown := 0x503
def cellPoison := 0x504
def mcListErr := 0x505
def mcPoison := 0x506
def bpmBadPtr := 0x600
def bpmDoubleFree := 0x601
def bpmNotOwner := 0x602
def bpmPortErr := 0x603
def freeListErr := 0x604
def innkCellPoison := 0x605
def spillPoison := 0x606
def schedMapErr := 0x700
def schedPoison := 0x701
def schedQueuePoison := 0x702
def tbHoldover := 0x710
def tbRefLoss := 0x711
def hbmCorrected := 0x800
def hbmUncorrectable := 0x801
def hbmStarve := 0x802
def hbmHammer := 0x803
def hbmTrainFail := 0x804
def hbmRetired := 0x805
def hbmPllLoss := 0x806
def hbmRegionLost := 0x807
def memCorrected := 0x900
def memUncorrectable := 0x901
def hardCell := 0x902
def spareExhausted := 0x903
def fifoUncorrectable := 0x908
def fifoOverrun := 0x909
def thermalWarn := 0xA00
def thermalTrip := 0xA01
def supplySag := 0xA02
def pmbusFail := 0xA03
def ageingMargin := 0xA04
def sliceWakeFail := 0xA05
def pcieLinkDown := 0xA08
def dmaDescErr := 0xA09
def coreWatchdog := 0xA0A
def sweepOverrun := 0xA0B

/-- Kinds whose default reaction has E beside I: react_lo × 1 and react_hi (Table 18-3). -/
def withE : List Nat := [imageApplyFail, strongroomTamper, strongroomSelftest, fabricDown, thermalTrip]

/-- Kinds with no default reaction. -/
def silent : List Nat := [debugUnlocked, gateOversize, gclActiveWrite, porterIllegal]

/-- Kinds of Table 18-3. -/
def all : List Nat :=
  [0x001, 0x002, 0x003, 0x004, 0x005, 0x006, 0x007, 0x008, 0x010, 0x011, 0x012, 0x018, 0x019, 0x100, 0x101, 0x102, 0x103] ++
  [0x200, 0x201, 0x202, 0x203, 0x204, 0x300, 0x301, 0x302, 0x303, 0x304, 0x305, 0x306, 0x307, 0x400, 0x401, 0x402, 0x403] ++
  [0x500, 0x501, 0x502, 0x503, 0x504, 0x505, 0x506, 0x600, 0x601, 0x602, 0x603, 0x604, 0x605, 0x606, 0x700, 0x701, 0x702] ++
  [0x710, 0x711, 0x800, 0x801, 0x802, 0x803, 0x804, 0x805, 0x806, 0x807, 0x900, 0x901, 0x902, 0x903, 0x908, 0x909] ++
  [0xA00, 0xA01, 0xA02, 0xA03, 0xA04, 0xA05, 0xA08, 0xA09, 0xA0A, 0xA0B]

/-- The default entry: react_hi × 256 + react_lo (Table 18-3, Table 18-4). -/
def default (k : Nat) : Nat :=
  if withE.contains k then 0x1111
  else if k = bootAuthFail || k = bootRollback then 0x1101
  else if silent.contains k then 0
  else if k = accordUnderflow || k = hbmRegionLost then 0x0301
  else if k = bpmPortErr || k = coreWatchdog then 0x0501
  else if all.contains k then 0x0101
  else 0

/-- Condition kinds (R393). -/
def conditions : List Nat := [fecDegrade, pfcStorm, tbHoldover, tbRefLoss, thermalWarn, supplySag, pcieLinkDown]

end K

/-! ### Accord discard (R164) -/

/-- Outcome code in ACCORD_STATUS.result. -/
def Chip.accordResult (c : Chip) (r : Nat) : Chip := c.put 0 R.ACCORD_STATUS_result r

/-- The state of the accord engine (Table 7-7). -/
def Chip.accordState (c : Chip) : Nat := c.get 0 R.ACCORD_STATUS_state

/-- The pending accord begins to be discarded with an outcome code; an orphaned one sets suspect (R164). -/
def Chip.discardAccord (c : Chip) (result : Nat) : Chip :=
  if c.accordState = 1 || c.accordState = 2 || c.accordState = 3 then
    let c := ((c.put 0 R.ACCORD_STATUS_state 4).put 0 R.ACCORD_STATUS_commit_stalled 0).accordResult result
    if result = 7 then c.put 0 R.ACCORD_STATUS_suspect 1 else c
  else c

/-- The pending accord is bound to latchkey `k`. -/
def Chip.accordBoundTo (c : Chip) (k : Nat) : Bool := c.on 0 R.ACCORD_LOG_bound && c.get 0 R.ACCORD_LOG_latchkey == k

/-! ### Latchkeys (R402 to R405) -/

def Chip.latch (c : Chip) (k : Nat) : Latch := c.ledger.latches.look k

def Chip.setLatch (c : Chip) (k : Nat) (l : Latch) : Chip :=
  { c with ledger := { c.ledger with latches := c.ledger.latches.set k l } }

def Latch.heldBy (l : Latch) (src : Source) : Bool := l.owner == srcUnit src && l.fn == srcFn src

/-- Release as an orphan (R404): suspect is set, LOCK_ORPHAN is sent, and a pending accord bound to it is discarded. -/
def Chip.orphan (c : Chip) (k : Nat) : Chip :=
  let l := c.latch k
  if l.owner = 0 then c
  else
    let c := (c.setLatch k { owner := 0, fn := 0, suspect := true }).report 0xD068 K.lockOrphan 2 (k * 2 ^ 21 + l.fn * 2 ^ 16 + l.owner)
    c.when (c.accordBoundTo k) fun c => c.discardAccord 7

/-- Orphan every latchkey whose holder satisfies `p`. -/
def Chip.orphanWhere (c : Chip) (p : Latch → Bool) : Chip :=
  c.each (List.range 64) fun c k => c.when ((c.latch k).owner != 0 && p (c.latch k)) fun c => c.orphan k

/-! ### Records -/

/-- Time field of a record: TB0 seconds [11:0] and microseconds (Table 18-1). -/
def Chip.recTime (c : Chip) : Nat :=
  let t := c.tbs.look 0
  (t.sec % 4096) * 2 ^ 20 + t.ns / 1000

/-- Table 18-1. -/
def mkRecord (m : Msg) (cleared : Bool := false) (after : Nat := 0) : BitVec 128 :=
  BitVec.ofNat 128 (m.source * 2 ^ 112 + m.kind * 2 ^ 100 + m.sev * 2 ^ 97 + m.pos * 2 ^ 90 + b2n cleared * 2 ^ 89 +
    b2n m.inj * 2 ^ 88 + after * 2 ^ 76 + m.time * 2 ^ 44 + m.addr % 2 ^ 44)

def Chip.unread (c : Chip) : Nat := (c.get 0 R.LEDGER_WR_PTR_ptr + 2048 - c.get 0 R.LEDGER_RD_PTR_ptr) % 2048

/-- LEDGER_STATUS.unread and ring_full follow the pointers (R389). -/
def Chip.syncRing (c : Chip) : Chip :=
  (c.put 0 R.LEDGER_STATUS_unread c.unread).put 0 R.LEDGER_STATUS_ring_full (b2n (c.unread == 1024))

/-- Capacity of FIFO `f` in items, both banks together: learn 4,096, time stamps 2,048, punt events 1,024, ledger overflow 512. -/
def fifoCap (f : Nat) : Nat := if f < 8 then 4096 else if f < 16 then 2048 else if f < 24 then 1024 else 512

/-- Address of FIFO_CTRL of FIFO `f` (spec/17_memory_protection.md, spec/20_host_interface.md R441). -/
def fifoBase (f : Nat) : Nat :=
  if f < 8 then A.slice f + 0x440140 else if f < 16 then A.slice (f - 8) + 0x4A0040
  else if f < 24 then A.slice (f - 16) + 0x4A0100 else 0x6F00

/-- Owner unit of FIFO `f`. -/
def fifoUnit (f : Nat) : Nat :=
  if f < 8 then U.sliceBlk f 0x78 else if f < 16 then U.slice (f - 8) else if f < 24 then U.slice (f - 16) else U.devBlk 0x38

/-- Where the counters and flags of FIFO `f` show: in a slice suite, at the first member's FIFO of its kind (spec/01_architecture.md R16,
R18). -/
def Chip.fifoTop (c : Chip) (f : Nat) : Nat :=
  if f < 24 then fifoBase (f / 8 * 8 + U.index (c.suiteUnit (U.slice (f % 8)))) else fifoBase f

/-- The unit that an injection into FIFO `f` names (spec/01_architecture.md R15). -/
def Chip.fifoInjUnit (c : Chip) (f : Nat) : Nat := c.suiteUnit (fifoUnit f)

/-- FIFO_STATUS.full, filling_bank and items follow the FIFO (R382). -/
def Chip.syncFifo (c : Chip) (f : Nat) : Chip :=
  let q := c.fifos.look f
  ((c.put (fifoBase f) ⟨4, 31, 31⟩ (b2n (decide (fifoCap f / 2 ≤ q.filling.length) && !(q.draining.isEmpty)))).put
    (fifoBase f) ⟨4, 28, 28⟩ q.bank).put (fifoBase f) ⟨4, 12, 0⟩ (q.filling.length + q.draining.length)

/-- An injection of a class at a unit acts on one transfer: the armed injection is used up after `count` transfers (R400). Answers the
mask, or 0 (DESIGN CHOICE, notes/assumptions/57.md). -/
def Chip.injected (c : Chip) (u cls : Nat) : Nat :=
  match c.ledger.inj with
  | some i => if i.unit == u && i.cls == cls then i.mask else 0
  | none => 0

/-- One transfer of an armed injection has passed (DESIGN CHOICE, notes/assumptions/57.md). -/
def Chip.injectStep (c : Chip) (u cls : Nat) : Chip :=
  match c.ledger.inj with
  | some i =>
    if i.unit == u && i.cls == cls then
      if (cls == 2 || cls == 3) && decide (1 < i.count) then
        { c with ledger := { c.ledger with inj := some { i with count := i.count - 1 } } }
      else (({ c with ledger := { c.ledger with inj := none } }).put 0 R.LEDGER_INJ_CTRL_arm 0).cnt C.injections 1
    else c
  | none => c

/-- Bits of an injection mask. -/
def maskOnes (m : Nat) : Nat := ((List.range 16).filter fun i => m / 2 ^ i % 2 == 1).length

/-- A FIFO whose next word an injection spoils: the item that comes after `n` others (R400, Table 18-6 class 0x1)
(DESIGN CHOICE, notes/assumptions/57.md). -/
def Chip.hurtItem (c : Chip) (f n : Nat) : Chip :=
  let m := c.injected (c.fifoInjUnit f) 1
  if m = 0 then c
  else ({ c with fifos := c.fifos.upd f fun q => { q with hurt := q.hurt ++ [(n, (if maskOnes m = 1 then 1 else 2) + if c.ledger.inj.any Injection.react then 4 else 0)] } }).injectStep (c.fifoInjUnit f) 1

/-- Put an item into a ping-pong FIFO; a full one ignores it whole, counts it, sets OVERRUN and sends FIFO_OVERRUN at most once per
1 ms; the ledger's own FIFO sends none (R382, R390). `true` when the item was stored. -/
def Chip.pushFifo (c : Chip) (f : Nat) (item : Entry) : Chip × Bool :=
  let q := c.fifos.look f
  if q.filling.length < fifoCap f / 2 then
    ((({ c with fifos := c.fifos.set f { q with filling := q.filling ++ [item], since := if q.filling.isEmpty then c.now else q.since } }).hurtItem
      f (q.filling.length + q.draining.length)).syncFifo f, true)
  else if q.draining.isEmpty then
    -- the filling bank is full and the other empty: the banks swap (R380)
    (({ c with fifos := c.fifos.set f { q with draining := q.filling, filling := [item], bank := 1 - q.bank, since := c.now } }).hurtItem f
      q.filling.length |>.syncFifo f, true)
  else
    let c := (c.cnt (c.fifoTop f + 0x50) 1).put (c.fifoTop f) ⟨4, 30, 30⟩ 1
    if f < 24 && (match q.sent with
        | none => true
        | some t => c.passedUs t 1000) then
      (({ c with fifos := c.fifos.set f { q with sent := some c.now } }).report (fifoUnit f) K.fifoOverrun 1, false)
    else (c, false)

/-- Store an accepted record in the ring, else in the overflow FIFO, else count it lost (R389, R390). Answers the ring pointer
(DESIGN CHOICE, notes/assumptions/17.md). -/
def Chip.storeRecord (c : Chip) (r : BitVec 128) : Chip × Option Nat :=
  if c.unread < 1024 then
    let p := c.get 0 R.LEDGER_WR_PTR_ptr
    ((({ c with ledger := { c.ledger with ring := c.ledger.ring.set (p % 1024) r } }).put 0 R.LEDGER_WR_PTR_ptr ((p + 1) % 2048)).syncRing, some p)
  else
    let q := c.pushFifo 24 (BitVec.ofNat 256 r.toNat)
    (if q.2 then q.1 else q.1.cnt C.records_lost 1, none)

/-- Override entries in order (R394). -/
def Chip.ovrOf (c : Chip) (m : Msg) : Option Ovr :=
  ((List.range 256).map fun i => c.ledger.ovrs.look i).find? fun o => o.valid && o.kind == m.kind && o.unit == m.source

/-- The pair of reaction bytes of a message (R394): hi × 256 + lo. -/
def Chip.reactPair (c : Chip) (m : Msg) : Nat :=
  match c.ovrOf m with
  | some o => o.react
  | none => (c.ledger.reacts.look m.kind).getD (K.default m.kind)

/-- The reaction byte: react_hi for severities 4 and 5 (R394); an injected record without react keeps only I (R400). -/
def Chip.reaction (c : Chip) (m : Msg) : Nat :=
  let b := if 4 ≤ m.sev then c.reactPair m / 256 % 256 else c.reactPair m % 256
  if m.inj && !m.injReact then b % 2 else b

/-- Targets of a block reset (Table 18-4): the source, or the slices or halves of every member of its suite
(spec/01_architecture.md R17). -/
def Chip.blockTargets (c : Chip) (scope source : Nat) : List Nat :=
  match scope, U.sliceOf source, U.halfOf source with
  | 1, some _, _ => ((c.members source).filterMap fun u => (U.sliceOf u).map U.slice).dedup
  | 2, _, some _ => ((c.members source).filterMap fun u => (U.halfOf u).map U.half).dedup
  | _, _, _ => [source]

/-- Units that no block reset may name (spec/01_architecture.md Table 1-9, reason 0x04). -/
def protectedUnits : List Nat := [0xD040, 0xD038, 0xD030, 0xD078, 0xD068]

/-- Assert ERROR_N (R396). -/
def Chip.errorN (c : Chip) : Chip := c.put 0 R.LEDGER_STATUS_errn 1

/-- Carry out a reaction byte (Table 18-4); block and chip resets become due. -/
def Chip.react (c : Chip) (m : Msg) (b : Nat) : Chip :=
  let c := c.when (nbits b 4 4 == 1) Chip.errorN
  let c := c.when (nbits b 0 0 == 1) fun c => c.put 0 R.LEDGER_IRQ_pending 1
  let c := c.when (nbits b 1 1 == 1) fun c => c.each (List.range 4) fun c k =>
    c.when (c.get 0 R.CC_STATUS_running / 2 ^ k % 2 == 1) fun c => c.emit (.nmi k)
  let ts := (c.blockTargets (nbits b 6 5) m.source).filter fun t => !(protectedUnits.contains t)
  let c := c.when (nbits b 2 2 == 1) fun c => { c with ledger := { c.ledger with blocks := c.ledger.blocks ++ ts } }
  c.when (nbits b 3 3 == 1) fun c => { c with ledger := { c.ledger with chipDue := true } }

/-- A record of severity 3 or above becomes due for the journal; while writes are stopped the queue holds 64 (R399). A thermal trip
goes ahead of the others (Table 19-4) (DESIGN CHOICE, notes/assumptions/18.md). -/
def Chip.journalDue (c : Chip) (m : Msg) (r : BitVec 128) : Chip :=
  if m.sev < 3 then c
  else if c.on 0 R.SAG_STATUS_stopped && decide (64 ≤ c.ledger.jrnQueue.length) then
    (c.cnt C.journal_lost 1).when (!c.ledger.jrnLost) fun c =>
      ({ c with ledger := { c.ledger with jrnLost := true } }).report 0xD038 K.journalStop 2
  else
    let q := if m.kind = K.thermalTrip then r :: c.ledger.jrnQueue else c.ledger.jrnQueue ++ [r]
    ({ c with ledger := { c.ledger with jrnQueue := q } }).put 0 R.LEDGER_STATUS_jrn_stopped (b2n (c.on 0 R.SAG_STATUS_stopped))

/-- LEDGER_FIRST takes the first accepted record after first_valid was cleared (R391). -/
def Chip.takeFirst (c : Chip) (r : BitVec 128) : Chip :=
  if c.on 0 R.LEDGER_STATUS_first_valid then c
  else
    (c.each (List.range 4) fun c w => c.setReg (R.LEDGER_FIRST + 4 * w) (BitVec.ofNat 64 (bits r (32 * w + 31) (32 * w)))).put 0
      R.LEDGER_STATUS_first_valid 1

/-- Accept one message (R388): write its record, set FIRST and CAUSE, carry out those parts of its reaction byte that `part` has. -/
def Chip.acceptPart (c : Chip) (m : Msg) (part : Nat) : Chip :=
  let lost := (c.reg C.records_lost).toNat
  let m := if m.kind = K.recordsLost && m.source = 0xD038 then { m with addr := Nat.min (lost - c.ledger.lostBase) 0xFFFFFFFFFFF } else m
  let c := if m.kind = K.recordsLost && m.source = 0xD038 then
    { c with ledger := { c.ledger with lostBase := lost, lostSent := false } } else c
  let r := mkRecord m
  let b := c.reaction m &&& part
  let st := c.storeRecord r
  let c := ((st.1.cnt (C.ledger_records + 8 * m.sev) 1).takeFirst r).put 0 ⟨R.LEDGER_CAUSE_sev.off, m.sev, m.sev⟩ 1
  let c := c.when (K.conditions.contains m.kind) fun c =>
    { c with ledger := { c.ledger with
        conds := { source := m.source, kind := m.kind, ptr := st.2, at_ := c.now, data := r } ::
          c.ledger.conds.filter (fun k => !(k.source == m.source && k.kind == m.kind)) } }
  let c := (c.react m b).journalDue m r
  c.when (decide (4 ≤ m.sev)) fun c => c.orphanWhere fun l => l.owner == m.source

/-- Accept one message with its whole reaction. -/
def Chip.accept (c : Chip) (m : Msg) : Chip := c.acceptPart m 0xFF

/-- Descending severity, then ascending source (R388) (DESIGN CHOICE, notes/assumptions/19.md). -/
def Msg.le (a b : Msg) : Bool := decide (b.sev < a.sev) || (a.sev == b.sev && decide (a.source ≤ b.source))

def Msg.same (a b : Msg) : Bool := a.source == b.source && a.kind == b.kind

/-- Judge one arriving message against the queue as the messages before it left it (R388) (DESIGN CHOICE, notes/assumptions/19.md). -/
def Chip.arrive (c : Chip) (m : Msg) : Chip :=
  let n := c.ledger.queue.length
  if 48 ≤ n && m.sev ≤ 1 then c.cnt C.records_lost 1
  else if 64 ≤ n then
    if c.ledger.held.any (Msg.same m) then c.cnt C.records_lost 1
    else { c with ledger := { c.ledger with held := c.ledger.held ++ [m] } }
  else { c with ledger := { c.ledger with queue := c.ledger.queue ++ [{ m with time := c.recTime }] } }

/-! ### Meanings -/

/-- LEDGER_MESSAGE_ARRIVAL (R388): the first `count` messages in transit arrive in one cycle, with the messages that checkers hold when
a place is free (DESIGN CHOICE, notes/assumptions/19.md). -/
def execLedgerMessageArrival (count : Nat) (s : State) : Host.Outcome State Fault Refusal :=
  s.run .aon fun c =>
    let now := c.ledger.transit.take count
    let free := decide (c.ledger.queue.length < 64)
    let again := if free then c.ledger.held else []
    let stay := if free then [] else c.ledger.held
    let c1 := { c with ledger := { c.ledger with transit := c.ledger.transit.drop count, held := stay } }
    c1.each (sortBy Msg.le (again ++ now)) Chip.arrive

/-- LEDGER_RECORD_WRITE (R388): the ledger accepts the oldest waiting message. -/
def execLedgerRecordWrite (s : State) : Host.Outcome State Fault Refusal :=
  s.run .aon fun c =>
    match c.ledger.queue with
    | [] => c
    | m :: q => ({ c with ledger := { c.ledger with queue := q } }).accept m

/-- LEDGER_RECORDS_LOST (R390): one message when records_lost has risen and the ring has room. -/
def execLedgerRecordsLost (s : State) : Host.Outcome State Fault Refusal :=
  s.run .aon fun c =>
    if c.ledger.lostBase < (c.reg C.records_lost).toNat && c.unread < 1024 && !c.ledger.lostSent then
      ({ c with ledger := { c.ledger with lostSent := true } }).report 0xD038 K.recordsLost 2
    else c

/-- A ring place holds a record that software has not read (R389) (DESIGN CHOICE, notes/assumptions/17.md). -/
def Chip.stillUnread (c : Chip) (p : Nat) : Bool := decide ((p + 2048 - c.get 0 R.LEDGER_RD_PTR_ptr) % 2048 < c.unread)

/-- CONDITION_CLEARED (R393): an end whose record is still to be written waits for it. The new record of severity 0 is an accepted record (DEDUCED, notes/assumptions/24.md)
(DESIGN CHOICE, notes/assumptions/17.md). -/
def execConditionCleared (source kind : Nat) (s : State) : Host.Outcome State Fault Refusal :=
  s.run .aon fun c =>
    match c.ledger.conds.find? (fun k => k.source == source && k.kind == kind) with
    | none =>
      if (c.ledger.transit ++ c.ledger.held ++ c.ledger.queue).any fun m => m.source == source && m.kind == kind then c
      else { c with ledger := { c.ledger with ended := c.ledger.ended.filter (· != (source, kind)) } }
    | some k =>
      if c.ledger.ended.contains (source, kind) then
        let after := Nat.min ((c.now - k.at_) / 16000) 0xFFF
        let c := { c with ledger := { c.ledger with
          ended := c.ledger.ended.filter (· != (source, kind))
          conds := c.ledger.conds.filter fun x => !(x.source == source && x.kind == kind) } }
        match k.ptr.filter (fun p => c.stillUnread p) with
        | some p =>
          { c with ledger := { c.ledger with ring := c.ledger.ring.upd (p % 1024) fun r => putBits (putBits r 89 89 1) 87 76 after } }
        | none =>
          let m : Msg := { source, kind, sev := 0, pos := bits k.data 96 90, addr := bits k.data 43 0, time := c.recTime }
          let r := mkRecord m true after
          let c := (((c.storeRecord r).1.cnt C.ledger_records 1).takeFirst r).put 0 ⟨R.LEDGER_CAUSE_sev.off, 0, 0⟩ 1
          c.react m (c.reaction m)
      else c

/-- One line write into the keepsake store: after every 100 into a region the region's gap moves (R426). -/
def nvLine (nv : Nv) (line : Nat) : Nv :=
  let g := line / 4096
  if nv.writes.look g + 1 < 100 then { nv with writes := nv.writes.set g (nv.writes.look g + 1) }
  else { nv with writes := nv.writes.set g 0, gap := nv.gap.set g ((nv.gap.look g + 1) % 4097) }

/-- One line write made and counted; a move of the gap is one line write more (R426) (DESIGN CHOICE, notes/assumptions/62.md). -/
def Chip.lineWrite (c : Chip) (nv : Nv) (line : Nat) : Chip × Nv :=
  (c.cnt C.keepsake_line_writes (if nv.writes.look (line / 4096) + 1 < 100 then 1 else 2), nvLine nv line)

/-- JOURNAL_WRITE (R398, R399): the oldest due record goes to the next journal place, four to a line
(DESIGN CHOICE, notes/assumptions/18.md). -/
def execJournalWrite (s : State) : Host.Outcome State Fault Refusal :=
  s.runNv .aon fun nv fu c =>
    match c.ledger.jrnQueue with
    | [] => (c, nv, fu)
    | r :: q =>
      if c.on 0 R.SAG_STATUS_stopped then (c, nv, fu)
      else
        let c := ({ c with ledger := { c.ledger with jrnQueue := q, jrnLost := false } }).cnt C.journal_written 1
        let w := (c.put 0 R.LEDGER_STATUS_jrn_stopped 0).lineWrite
          { nv with journal := nv.journal.set nv.jrnPtr r, jrnPtr := (nv.jrnPtr + 1) % 65536 } (nv.jrnPtr / 4)
        (w.1, w.2, fu)

/-- ERRN_RELEASE (R396). -/
def Chip.errnRelease (c : Chip) : Chip :=
  c.put 0 R.LEDGER_STATUS_errn 0

/-- ERRN_RELEASE (R396). -/
def execErrnRelease (src : Source) (s : State) : Host.Outcome State Fault Refusal :=
  s.bus src R.LEDGER_CTRL true Chip.errnRelease

/-- Width of the mask of an injection class (Table 18-6); none for a reserved class. -/
def injWidth : Nat → Option Nat
  | 0 => some 5
  | 1 => some 7
  | 2 => some 1
  | 3 => some 16
  | 4 => some 8
  | _ => none

/-- Owners of memory groups (spec/17_memory_protection.md Table 17-1). -/
def isMemGroup (u : Nat) : Bool :=
  U.used u && U.isBlk u &&
  match U.level u with
  | 4 => [0x48, 0x49, 0x50, 0x51, 0x52, 0x53, 0x58, 0x60, 0x68, 0x70, 0x80, 0x88].contains (U.index u % 0x200)
  | 5 => [0, 8, 0x10].contains (U.index u % 0x800)
  | 6 => [0x10, 0x11, 0x12, 0x13, 0x18, 0x38, 0x48].contains (U.index u)
  | _ => false

/-- A unit has a checker of a class (Table 18-6). -/
def hasChecker (u cls : Nat) : Bool :=
  match cls with
  | 0 => isMemGroup u
  | 1 => (U.level u == 4 && (!(U.isBlk u) || U.index u % 0x200 == 0x78)) || u == 0xD038
  | 2 => U.level u == 4 || u == 0xD028 || u == 0xD078
  | 3 => U.level u == 6 && U.isBlk u && decide (U.index u < 4)
  | 4 => U.level u == 5 && U.isBlk u && decide (0x40 ≤ U.index u % 0x800) && decide (U.index u % 0x800 < 0x60)
  | _ => false

/-- INJECTION_ARM (R400): `data` is the value written to LEDGER_INJ_CTRL with arm = 1. -/
def Chip.injArm (c : Chip) (data : Word) : Chip :=
  let cls := bits data 3 0
  let u := c.get 0 R.LEDGER_INJ_UNIT_unit_id
  let mask := c.get 0 R.LEDGER_INJ_MASK_mask
  let count := bits data 15 8
  let c := (((c.put 0 R.LEDGER_INJ_CTRL_react (bits data 30 30)).put 0 R.LEDGER_INJ_CTRL_count count).put 0 R.LEDGER_INJ_CTRL_class cls)
  if c.ledger.inj.isSome then c.put 0 R.LEDGER_INJ_CTRL_result 2
  else if c.present u && hasChecker u cls && (match injWidth cls with
      | some w => decide (mask < 2 ^ w)
      | none => false) then
    (({ c with ledger := { c.ledger with inj := some { unit := u, cls, mask, addr := c.get 0 R.LEDGER_INJ_ADDR_addr, count, react := bits data 30 30 == 1 } } }).put 0
      R.LEDGER_INJ_CTRL_arm 1).put 0 R.LEDGER_INJ_CTRL_result 0
  else c.put 0 R.LEDGER_INJ_CTRL_result 1

/-- INJECTION_ARM (R400). -/
def execInjectionArm (src : Source) (data : Word) (s : State) : Host.Outcome State Fault Refusal :=
  s.bus src R.LEDGER_INJ_CTRL true fun c => c.injArm data

/-- INJECTION_DISARM (R400). -/
def Chip.injDisarm (c : Chip) : Chip :=
  ({ c with ledger := { c.ledger with inj := none } }).put 0 R.LEDGER_INJ_CTRL_arm 0

/-- INJECTION_DISARM (R400). -/
def execInjectionDisarm (src : Source) (s : State) : Host.Outcome State Fault Refusal :=
  s.bus src R.LEDGER_INJ_CTRL true Chip.injDisarm

/-- A report that an injected check caused (R400) (DESIGN CHOICE, notes/assumptions/57.md). -/
def Chip.reportInj (c : Chip) (unit kind sev addr : Nat) (inj : Bool) : Chip :=
  let react := match c.ledger.inj with
    | some i => i.react
    | none => true
  { c with ledger := { c.ledger with
      transit := c.ledger.transit ++ [{ source := c.suiteUnit unit, kind, sev, pos := c.suitePos unit, addr, inj, injReact := react }] } }

/-- LATCHKEY_TAKE read layout (Table 18-9). -/
def latchWord (l : Latch) (got : Bool) : Word :=
  BitVec.ofNat 64 (b2n got * 2 ^ 31 + b2n l.suspect * 2 ^ 30 + l.fn * 2 ^ 16 + l.owner)

/-- A read of LATCHKEY_TAKE[key] (R402). -/
def Chip.latchTake (c : Chip) (src : Source) (key : Nat) : Chip :=
  let l := c.latch key
  if l.owner = 0 then
    let l' := { l with owner := srcUnit src, fn := srcFn src }
    { c.setLatch key l' with busData := latchWord l' true }
  else if l.heldBy src then { c with busData := latchWord l true }
  else { c.cnt C.latch_busy 1 with busData := latchWord l false }

/-- LATCHKEY_TAKE (R402). -/
def execLatchkeyTake (src : Source) (key : Nat) (s : State) : Host.Outcome State Fault Refusal :=
  s.bus src (R.LATCHKEY_TAKE + 4 * (key % 64)) false fun c => if 64 ≤ key then { c with busData := 0 } else c.latchTake src key

/-- LATCHKEY_RELEASE (R403): by the owner it frees the latchkey, and a pending accord bound to it is discarded (R164); any other write
is counted. -/
def Chip.latchRelease (c : Chip) (src : Source) (key : Nat) : Chip :=
  if 64 ≤ key then c
  else
    let l := c.latch key
    if l.owner != 0 && l.heldBy src then
      (c.setLatch key { l with owner := 0, fn := 0 }).when (c.accordBoundTo key) fun c => c.discardAccord 8
    else c.cnt C.latch_foreign 1

/-- LATCHKEY_RELEASE (R403). -/
def execLatchkeyRelease (src : Source) (key : Nat) (s : State) : Host.Outcome State Fault Refusal :=
  s.bus src (R.LATCHKEY + 4 * (key % 64)) true fun c => c.latchRelease src key

/-- LATCHKEY_SUSPECT_CLEAR (R403). -/
def Chip.latchClear (c : Chip) (src : Source) (key : Nat) : Chip :=
  if 64 ≤ key then c
  else
    let l := c.latch key
    if l.owner != 0 && l.heldBy src then c.setLatch key { l with suspect := false } else c.cnt C.latch_foreign 1

/-- LATCHKEY_SUSPECT_CLEAR (R403). -/
def execLatchkeySuspectClear (src : Source) (key : Nat) (s : State) : Host.Outcome State Fault Refusal :=
  s.bus src (R.LATCHKEY + 4 * (key % 64)) true fun c => c.latchClear src key

/-- LATCHKEY_BREAK (R405): `data` is the value written. -/
def Chip.latchBreak (c : Chip) (src : Source) (data : Word) : Chip :=
  let vf := match src with
    | .vf _ => true
    | _ => false
  if !vf && bits data 31 16 == 0x5AFE && bits data 15 15 == 1 then c.orphan (bits data 5 0) else c

/-- LATCHKEY_BREAK (R405). -/
def execLatchkeyBreak (src : Source) (data : Word) (s : State) : Host.Outcome State Fault Refusal :=
  s.bus src R.LATCHKEY_BREAK true fun c => c.latchBreak src data

end Sys2Proof.Machine
end

