-- ==== Sys2Proof/Machine/Accord.lean ====
section
/-! DEFINITION. The accord engine (spec/07_accords.md R147 to R165): numbers, slots, in-flight counts, open, commit, withdraw, discard,
retirement and the judging of versioned writes. The end of a discard and the settler, which touch every table, stand in Settle.lean. -/

namespace Sys2Proof.Machine

open Sys2Proof

/-! ### Numbers and validity -/

/-- R147. -/
def nextAccord (n : Nat) : Nat := if n = 0xFFFF then 1 else n + 1

/-- R148. -/
def precedes (a b : Nat) : Bool :=
  let d := (b + 65536 - a % 65536) % 65536
  decide (1 ≤ d) && decide (d ≤ 32767)

/-- R150: an entry with these validity fields holds under accord `a`. -/
def holdsUnder (valid : Bool) (vfrom vuntil a : Nat) : Bool :=
  valid && (vfrom == 0 || vfrom == a || precedes vfrom a) && (vuntil == 0 || precedes a vuntil)

namespace Chip

def slotReg (i : Nat) : Nat := R.ACCORD_SLOT + 4 * i

/-- The number in a slot, 0 when it is not live. -/
def slotNumber (c : Chip) (i : Nat) : Nat := bits (c.reg (slotReg i)) 15 0

def slotLive (c : Chip) (i : Nat) : Bool := bit (c.reg (slotReg i)) 31

def slotNewest (c : Chip) (i : Nat) : Bool := bit (c.reg (slotReg i)) 30

def newestSlot (c : Chip) : Nat := c.get 0 R.ACCORD_NEWEST_slot

def newest (c : Chip) : Nat := c.get 0 R.ACCORD_NEWEST_number

/-- Slots that are live. -/
def liveSlots (c : Chip) : List Nat := (List.range 4).filter fun i => c.slotLive i

/-- The live accords. -/
def liveAccords (c : Chip) : List Nat := c.liveSlots.map fun i => c.slotNumber i

/-- The pending accord's number while one is open, else 0. -/
def pendingAccord (c : Chip) : Nat := c.get 0 R.ACCORD_STATUS_pending

/-- ACCORD_OLDEST names the lowest live number in the order of R148. -/
def syncOldest (c : Chip) : Chip :=
  match c.liveSlots.find? fun i => c.liveSlots.all fun j => i == j || precedes (c.slotNumber i) (c.slotNumber j) with
  | some i => (c.put 0 R.ACCORD_OLDEST_number (c.slotNumber i)).put 0 R.ACCORD_OLDEST_slot i
  | none => (c.put 0 R.ACCORD_OLDEST_number 0).put 0 R.ACCORD_OLDEST_slot 0

/-- Put an accord into a slot as the newest; the gap of R163 counts from here, for the image's first accord too (R149). -/
def installAccord (c : Chip) (i number : Nat) : Chip :=
  let c := c.each (c.liveSlots.filter fun j => c.slotNewest j) fun c j =>
    ({ c with accord := { c.accord with drainFrom := c.accord.drainFrom.set j c.now } }).setReg (slotReg j) (putBits (c.reg (slotReg j)) 30 30 0)
  let c := { c with accord := { c.accord with lastCommit := some c.now } }
  ((((c.setReg (slotReg i) (BitVec.ofNat 64 (3 * 2 ^ 30 + number))).put 0 R.ACCORD_NEWEST_number number).put 0 R.ACCORD_NEWEST_slot i)).syncOldest

/-! ### In flight (R152, R156) -/

def inflightReg (i : Nat) : Nat := R.ACCORD_INFLIGHT + 4 * (i % 4)

def inflight (c : Chip) (i : Nat) : Nat := bits (c.reg (inflightReg i)) 31 0

def inflightUp (c : Chip) (i n : Nat) : Chip := c.setReg (inflightReg i) (BitVec.ofNat 64 (c.inflight i + n))

def inflightDown (c : Chip) (i : Nat) : Chip :=
  if c.inflight i = 0 then c.report U.device K.accordUnderflow 4 i
  else c.setReg (inflightReg i) (BitVec.ofNat 64 (c.inflight i - 1))

/-! ### Judging versioned writes (R159) -/

/-- The writer holds the latchkey that the pending accord is bound to. -/
def holdsBound (c : Chip) (src : Source) : Bool :=
  c.on 0 R.ACCORD_LOG_bound && (c.latch (c.get 0 R.ACCORD_LOG_latchkey)).heldBy src

end Chip

/-- Validity of an entry: valid, valid_from, valid_until. -/
structure Validity where
  valid : Bool
  vfrom : Nat
  vuntil : Nat
deriving DecidableEq, Repr

def Validity.holds (v : Validity) (a : Nat) : Bool := holdsUnder v.valid v.vfrom v.vuntil a

/-- What the accord engine answers: accepted (and whether it is logged), or refused with a rule of Table 7-3. -/
inductive Verdict where
  | accept (logged : Bool)
  | refuse (rule : Nat)
deriving DecidableEq, Repr

/-- The log holds at most this many records (R160). -/
def accordLogCap : Nat := 65536

/-- Records that the log holds or that accepted writes on their way will add (R160). -/
def Chip.logUsed (c : Chip) : Nat :=
  c.accord.log.length +
    ((List.range 8).map fun s => ((c.tcam.look s).writes.filter TcamWrite.logged).length + b2n (c.em.look s).job.isSome).sum

/-- Judge a write of a versioned entry (Table 7-2 and the order of R159). `same` says that the write changes no field but the validity
fields and valid bit (DESIGN CHOICE, notes/assumptions/39.md; DEDUCED, notes/assumptions/74.md). -/
def Chip.judge (c : Chip) (src : Source) (old new : Validity) (same : Bool) : Verdict :=
  let p := c.pendingAccord
  let opened := c.accordState = 1
  let deadNow := !(c.liveAccords.any old.holds)
  let dead := deadNow && !(p != 0 && old.holds p)
  -- Clear dead needs no open accord
  if dead && !new.valid then .accept false
  else if !opened || !c.holdsBound src then .refuse 1
  else
    let kind :=
      (new.valid && (!old.valid || dead) && new.vfrom == p && new.vuntil == 0) ||
      (old.valid && old.holds c.newest && old.vuntil == 0 && new.valid && same && new.vfrom == old.vfrom && new.vuntil == p) ||
      (old.valid && old.vfrom == p && ((new.valid && new.vfrom == p) || !new.valid)) ||
      (old.valid && old.vuntil == p && new.valid && same && new.vfrom == old.vfrom && new.vuntil == 0)
    if kind then (if accordLogCap ≤ c.logUsed then .refuse 4 else .accept true)
    else if old.valid && !deadNow && !(same && new.valid) then .refuse 2
    else .refuse 3

/-- A versioned write was refused: rule, window and index are kept, refused is set, refused_writes counts (R159). -/
def Chip.refuseWrite (c : Chip) (rule window index : Nat) : Chip :=
  ((((c.put 0 R.ACCORD_REFUSAL_rule rule).put 0 R.ACCORD_REFUSAL_window window).put 0 R.ACCORD_REFUSAL_INDEX_index index).put 0
    R.ACCORD_EVENT_refused 1).cnt C.refused_writes 1

/-- No latchkey is bound any more: ACCORD_LOG shows none (DESIGN CHOICE, notes/assumptions/21.md). -/
def Chip.unbindLog (c : Chip) : Chip := (c.put 0 R.ACCORD_LOG_bound 0).put 0 R.ACCORD_LOG_latchkey 0

/-- ACCORD_LOG.records and log_full follow the log. -/
def Chip.syncLog (c : Chip) : Chip :=
  (c.put 0 R.ACCORD_LOG_records c.accord.log.length).put 0 R.ACCORD_STATUS_log_full (b2n (decide (accordLogCap ≤ c.accord.log.length)))

/-- Log the entry as it stood before a write (R160). -/
def Chip.logWrite (c : Chip) (place : SettlePlace) (old : Validity) : Chip :=
  ({ c with accord := { c.accord with log := { place, valid := old.valid, vfrom := old.vfrom, vuntil := old.vuntil } :: c.accord.log } }).syncLog

/-- A relocated entry's records follow it (R160). -/
def Chip.moveLog (c : Chip) (was is_ : SettlePlace) : Chip :=
  { c with accord := { c.accord with log := c.accord.log.map fun r => if r.place = was then { r with place := is_ } else r } }

/-! ### Meanings -/

/-- Before the image is applied, and after it fails, every op is refused with 0x04 (R158). -/
def Chip.accordUp (c : Chip) : Bool := c.image.applied

/-- ACCORD_OPEN (R158, R165): `data` is the value written to ACCORD_CMD. -/
def Chip.openAccord (c : Chip) (src : Source) (data : Word) : Chip :=
  let k := bits data 5 0
  let c := (c.put 0 R.ACCORD_CMD_latchkey k).put 0 R.ACCORD_CMD_op 1
  if !c.accordUp then c.accordResult 4
  else if c.accordState != 0 then c.accordResult 2
  else if c.on 0 R.ACCORD_STATUS_suspect then c.accordResult 6
  else if !(c.latch k).heldBy src || (c.latch k).owner == 0 then c.accordResult 3
  else
    ((((c.put 0 R.ACCORD_STATUS_state 1).put 0 R.ACCORD_STATUS_pending (nextAccord c.newest)).put 0 R.ACCORD_LOG_bound 1).put 0
      R.ACCORD_LOG_latchkey k).accordResult 0

/-- ACCORD_OPEN (R158, R165). -/
def execAccordOpen (src : Source) (data : Word) (s : State) : Host.Outcome State Fault Refusal :=
  s.bus src R.ACCORD_CMD true fun c => c.openAccord src data

/-- A slot is free. -/
def Chip.freeSlot (c : Chip) : Option Nat := firstBelow 4 fun i => !(c.slotLive i)

/-- ACCORD_COMMIT (R161). -/
def Chip.commitAccord (c : Chip) (src : Source) : Chip :=
  let c := c.put 0 R.ACCORD_CMD_op 2
  let st := c.accordState
  if !c.accordUp then c.accordResult 4
  else if st = 0 || st = 4 then c.accordResult 5
  else if st = 2 || st = 3 then c.accordResult 4
  else if !c.holdsBound src then c.accordResult 3
  else if c.freeSlot.isSome then (c.put 0 R.ACCORD_STATUS_state 2).accordResult 0
  else (((c.put 0 R.ACCORD_STATUS_state 3).put 0 R.ACCORD_STATUS_commit_stalled 1).cnt C.stalls 1).accordResult 0

/-- ACCORD_COMMIT (R161). -/
def execAccordCommit (src : Source) (s : State) : Host.Outcome State Fault Refusal :=
  s.bus src R.ACCORD_CMD true fun c => c.commitAccord src

/-- The 4 µs gap of R163 has passed. -/
def Chip.gapPassed (c : Chip) : Bool :=
  match c.accord.lastCommit with
  | none => true
  | some t => c.passedUs t 4

/-- Every window write that was accepted has landed in its table (Table 7-4): no TCAM write waits for a search slot and no insert for its
moves. -/
def Chip.writesLanded (c : Chip) : Bool :=
  (List.range 8).all fun s => (c.tcam.look s).writes.isEmpty && (c.em.look s).job.isNone

/-- COMMIT_TAKE_EFFECT (R161, R163). -/
def execCommitTakeEffect (s : State) : Host.Outcome State Fault Refusal :=
  s.run .core fun c =>
    if (c.accordState = 2 || c.accordState = 3) && c.gapPassed && c.writesLanded then
      match c.freeSlot with
      | none => c
      | some i =>
        let c := c.installAccord i c.pendingAccord
        let c := { c with accord := { c.accord with log := [] } }
        ((((c.syncLog.put 0 R.ACCORD_STATUS_state 0).put 0 R.ACCORD_STATUS_pending 0).put 0 R.ACCORD_STATUS_commit_stalled 0).unbindLog.put 0
          R.ACCORD_EVENT_committed 1).cnt C.commits 1
    else c

/-- ACCORD_WITHDRAW (R162). -/
def Chip.withdrawAccord (c : Chip) (src : Source) : Chip :=
  let c := c.put 0 R.ACCORD_CMD_op 4
  if !c.accordUp || c.accordState != 3 then c.accordResult 4
  else if !c.holdsBound src then c.accordResult 3
  else ((c.put 0 R.ACCORD_STATUS_state 1).put 0 R.ACCORD_STATUS_commit_stalled 0).accordResult 0

/-- ACCORD_WITHDRAW (R162). -/
def execAccordWithdraw (src : Source) (s : State) : Host.Outcome State Fault Refusal :=
  s.bus src R.ACCORD_CMD true fun c => c.withdrawAccord src

/-- ACCORD_DISCARD (R164). -/
def Chip.dropAccord (c : Chip) (src : Source) : Chip :=
  let c := c.put 0 R.ACCORD_CMD_op 3
  if !c.accordUp || !(c.accordState == 1 || c.accordState == 3) then c.accordResult 4
  else if !c.holdsBound src then c.accordResult 3
  else c.discardAccord 9

/-- ACCORD_DISCARD (R164). -/
def execAccordDiscard (src : Source) (s : State) : Host.Outcome State Fault Refusal :=
  s.bus src R.ACCORD_CMD true fun c => c.dropAccord src

/-- ACCORD_RETIRE (R153): the slot becomes free, and the number enters the FIFO of 32. -/
def execAccordRetire (slot : Nat) (s : State) : Host.Outcome State Fault Refusal :=
  s.run .core fun c =>
    if slot < 4 && c.slotLive slot && !(c.slotNewest slot) && c.inflight slot == 0 then
      let n := c.slotNumber slot
      let c := if c.accord.retired.length < 32 then { c with accord := { c.accord with retired := c.accord.retired ++ [n] } }
        else { c with accord := { c.accord with overrun := true } }
      ((c.setReg (Chip.slotReg slot) 0).syncOldest).put 0 R.ACCORD_EVENT_retired 1
    else c

/-- R157 fires for the accord of a slot, once. -/
def Chip.drainSlow (c : Chip) (slot : Nat) : Chip :=
  let ms := c.get 0 R.ACCORD_DRAIN_alert_ms
  if c.slotLive slot && !(c.slotNewest slot) && !(bit (c.reg (Chip.slotReg slot)) 29) && ms != 0 &&
      c.passedUs (c.accord.drainFrom.look slot) (ms * 1000) then
    ((c.setReg (Chip.slotReg slot) (putBits (c.reg (Chip.slotReg slot)) 29 29 1)).put 0 R.ACCORD_EVENT_drain_slow 1).report U.device
      K.accordDrainSlow 1 (slot * 65536 + c.slotNumber slot)
  else c

/-- ACCORD_DRAIN_SLOW (R157). -/
def execAccordDrainSlow (slot : Nat) (s : State) : Host.Outcome State Fault Refusal :=
  s.run .core fun c => if slot < 4 then c.drainSlow slot else c

/-- ACCORD_DRAIN_WRITE (R157): takes effect at once for every draining accord. -/
def Chip.accordDrain (c : Chip) (data : Word) : Chip :=
  (c.put 0 R.ACCORD_DRAIN_alert_ms (bits data 31 16)).each (List.range 4) Chip.drainSlow

/-- ACCORD_DRAIN_WRITE (R157). -/
def execAccordDrainWrite (src : Source) (data : Word) (s : State) : Host.Outcome State Fault Refusal :=
  s.bus src R.ACCORD_DRAIN true fun c => c.accordDrain data

/-- What ACCORD_RETIRED reads as (Table 7-15). -/
def Chip.retiredWord (c : Chip) : Word :=
  match c.accord.retired with
  | [] => BitVec.ofNat 64 (b2n c.accord.overrun * 2 ^ 30)
  | n :: _ => BitVec.ofNat 64 (2 ^ 31 + b2n c.accord.overrun * 2 ^ 30 + n)

/-- A read of ACCORD_RETIRED takes its entry and clears overrun (R10). -/
def Chip.retiredRead (c : Chip) : Chip :=
  { c with busData := c.retiredWord, accord := { c.accord with retired := c.accord.retired.tail, overrun := false } }

/-- ACCORD_RETIRED_READ (R10, Table 7-15). -/
def execAccordRetiredRead (src : Source) (s : State) : Host.Outcome State Fault Refusal :=
  s.bus src R.ACCORD_RETIRED false Chip.retiredRead

end Sys2Proof.Machine
end

