-- ==== Sys2Proof/Machine/Mem.lean ====
section
/-! DEFINITION. Stored-data protection (spec/17_memory_protection.md R366 to R384): memory groups, the fill engine, the scrubber and its
logged-address table, spare rows, and the swap and flush of ping-pong FIFOs. -/

namespace Sys2Proof.Machine

open Sys2Proof

/-- Rows of a group (Table 17-1): from the sizes that the spec states; the other groups' sizes are open
(DESIGN CHOICE, notes/assumptions/15.md). -/
def Chip.groupRows (c : Chip) (u : Nat) : Nat :=
  let sp := c.image.splits.look (U.index u / 0x200)
  match U.level u, U.isBlk u with
  | 4, true =>
    match U.index u % 0x200 with
    | 0x48 => 512 * (sp.em + sp.lpm)
    | 0x49 => 128 * sp.ovf
    | 0x80 => 128
    | 0x88 => 512
    | _ => Config.memRows u
  | 5, true => if U.index u % 0x800 = 8 then 196608 else Config.memRows u
  | 6, true =>
    match U.index u with
    | 0x10 => 2048
    | 0x11 => 2048
    | 0x12 => 2048
    | 0x13 => 2048
    | 0x18 => 16384
    | 0x48 => 65536
    | _ => Config.memRows u
  | _, _ => 0

def Chip.grp (c : Chip) (u : Nat) : MemGroup := c.mem.look u

def Chip.setGrp (c : Chip) (u : Nat) (g : MemGroup) : Chip := { c with mem := c.mem.set u g }

/-- The group that MEM_SEL names, when it is present. -/
def Chip.selGroup (c : Chip) : Option Nat :=
  let u := c.get 0 R.MEM_SEL_unit_id
  if isMemGroup u && c.present u then some u else none

/-- A row is filled (R371). -/
def MemGroup.isFilled (g : MemGroup) (row : Nat) : Bool := g.filled.any fun r => decide (r.1 ≤ row) && decide (row < r.1 + r.2)

/-- Every row of a group filled (R372). -/
def Chip.fillAll (c : Chip) (u : Nat) : Chip :=
  c.setGrp u { c.grp u with filled := [(0, c.groupRows u)], poison := [], planted := [], soft := [] }

/-- The group's word is poisoned. -/
def Chip.poisoned (c : Chip) (u word : Nat) : Bool := (c.grp u).poison.contains word

/-- A write covers a word: its errors go (R369); an armed injection of two bits or more plants new poison, of one bit a correctable
error in the byte that it names, at a bit of the codeword that is a free value (R400, R401) (DESIGN CHOICE, notes/assumptions/57.md). -/
def Chip.coverWord (c : Chip) (u word : Nat) : Chip :=
  let m := c.injected u 0
  if m != 0 && c.get 0 R.LEDGER_INJ_ADDR_addr % 2 ^ 24 = word then
    let g := c.grp u
    let two := decide (2 ≤ ((List.range 5).filter fun i => m / 2 ^ i % 2 = 1).length)
    let react := c.ledger.inj.any Injection.react
    let at_ := c.get 0 R.LEDGER_INJ_ADDR_addr / 2 ^ 24 % 8 * 32 + (Config.freeByte c.fresh).toNat % 13
    let soft := g.soft.filter (·.1 != word)
    ({ c with fresh := c.fresh + 1 }.setGrp u { g with
      poison := if two then word :: g.poison.filter (· != word) else g.poison.filter (· != word)
      soft := if two then soft else (word, at_) :: soft
      planted := (word, react) :: g.planted.filter (·.1 != word) }).injectStep u 0
  else if c.poisoned u word || (c.grp u).planted.any (·.1 == word) then
    c.setGrp u { c.grp u with
      poison := (c.grp u).poison.filter (· != word)
      soft := (c.grp u).soft.filter (·.1 != word)
      planted := (c.grp u).planted.filter (·.1 != word) }
  else c

/-- Some of `n` words of a group from word `w` on are poisoned. -/
def Chip.anyPoison (c : Chip) (u w n : Nat) : Bool := (List.range n).any fun j => c.poisoned u (w + j)

/-- A range of words is written (DESIGN CHOICE, notes/assumptions/14.md). -/
def Chip.coverWords (c : Chip) (u w n : Nat) : Chip := c.each (List.range n) fun c j => c.coverWord u (w + j)

/-- A report that an error in memory groups causes: an injected one where only planted errors stand there (R400, R401). -/
def Chip.reportPoison (c : Chip) (groups : List Nat) (unit kind sev addr : Nat) : Chip :=
  let p := groups.flatMap fun u => (c.grp u).planted
  let real := groups.any fun u => (c.grp u).poison.any fun w => !((c.grp u).planted.any (·.1 == w))
  if p.isEmpty || real then c.report unit kind sev addr
  else { c with ledger := { c.ledger with
    transit := c.ledger.transit ++ [{ source := c.suiteUnit unit, kind, sev, pos := c.suitePos unit, addr, inj := true, injReact := p.any Prod.snd }] } }

/-- Any reader without a kind of its own meets a poisoned word (R368). -/
def Chip.memUncorrectable (c : Chip) (u word sev : Nat) : Chip :=
  ((c.reportPoison [u] u K.memUncorrectable sev word).put (A.group u) R.MEM_EVENT_uncorrectable 1).cnt (A.group u + C.ue_reads) 1

/-! ### The logged-address table (R375, R376) -/

/-- A group's MEM_LOG_ENTRY of an index. -/
def Chip.logEntry (c : Chip) (u i : Nat) : Word := (c.grp u).log.look i

/-- An entry of the table (Table 17-8). -/
def mkLog (recurrent : Bool) (pass hits byte bitpos word : Nat) : Word :=
  BitVec.ofNat 64 (2 ^ 63 + b2n recurrent * 2 ^ 62 + pass % 256 * 2 ^ 40 + Nat.min hits 255 * 2 ^ 32 + byte % 8 * 2 ^ 29 +
    bitpos % 32 * 2 ^ 24 + word % 2 ^ 24)

/-- Enter a corrected byte (R375, R376). -/
def Chip.logCorrected (c : Chip) (u word byte bitpos : Nat) : Chip :=
  let g := c.grp u
  let pass := c.get (A.group u) R.MEM_SCRUB_pass
  let valid (i : Nat) : Bool := bit (g.log.look i) 63
  match firstBelow 32 fun i => valid i && bits (g.log.look i) 23 0 == word with
  | some i =>
    let e := g.log.look i
    let age := (pass + 256 - bits e 47 40) % 256
    let was := bit e 62
    let near := decide (age < c.get (A.group u) R.MEM_SCRUB_recur_passes)
    let rec_ := was || near
    let c := c.setGrp u { g with log := g.log.set i (mkLog rec_ (if near then bits e 47 40 else pass) (bits e 39 32 + 1) byte bitpos word) }
    if rec_ && !was then (c.reportPoison [u] u K.hardCell 2 (byte * 2 ^ 24 + word)).put (A.group u) R.MEM_EVENT_hard_cell 1 else c
  | none =>
    let e := mkLog false pass 1 byte bitpos word
    match firstBelow 32 fun i => !(valid i) with
    | some i => c.setGrp u { g with log := g.log.set i e, logOrder := g.logOrder.filter (· != i) ++ [i] }
    | none =>
      match g.logOrder.find? fun i => !(bit (g.log.look i) 62) with
      | some i => c.setGrp u { g with log := g.log.set i e, logOrder := g.logOrder.filter (· != i) ++ [i] }
      | none => c.cnt (A.group u + C.log_lost) 1

/-- A corrected byte, found by a reader or the scrubber (R375). -/
def Chip.corrected (c : Chip) (u word byte bitpos : Nat) : Chip :=
  let c := (c.cnt (A.group u + C.ce_bytes) 1).logCorrected u word byte bitpos
  if (match (c.grp u).sent with
      | none => true
      | some t => c.passedUs t 1000) then
    ((c.setGrp u { c.grp u with sent := some c.now }).reportPoison [u] u K.memCorrected 1 0).put (A.group u) R.MEM_EVENT_corrected 1
  else c

/-- A reader reads `n` words of a group from word `w` on: each correctable one is corrected for it, counted and logged, and stays as it
stands (R368, R375). -/
def Chip.seeWords (c : Chip) (u w n : Nat) : Chip :=
  c.each ((c.grp u).soft.filter fun x => decide (w ≤ x.1) && decide (x.1 < w + n)) fun c x => c.corrected u x.1 (x.2 / 32) (x.2 % 32)

/-- A reader without a kind of its own reads `n` words of a group from word `w` on: correctable ones are counted and logged, the first
poisoned one is reported (R368). -/
def Chip.readPoison (c : Chip) (u w n : Nat) : Chip :=
  let c := c.seeWords u w n
  match (List.range n).find? fun j => c.poisoned u (w + j) with
  | some j => c.memUncorrectable u (w + j) 3
  | none => c

/-! ### Meanings -/

/-- The owning unit of a group is held in reset (R373). -/
def Chip.ownerHeld (c : Chip) (u : Nat) : Bool := c.rst.held.any fun v => c.inside u v

/-- Result of a fill (Table 17-5); none when it is accepted (DESIGN CHOICE, notes/assumptions/16.md). -/
def Chip.fillResult (c : Chip) (u start count : Nat) : Option Nat :=
  if start % 64 != 0 || count % 64 != 0 || count < 64 || c.groupRows u * 64 < start + count then some 1
  else if !(c.ownerHeld u) then some 2
  else if u = 0xD048 && start < 0x10000 * 8 then some 3
  else if (c.grp u).remapping.isSome || (c.grp u).filling.isSome then some 4
  else none

/-- MEM_FILL (R373). `data` is the value written to MEM_FILL. -/
def Chip.memFill (c : Chip) (data : Word) : Chip :=
  match c.selGroup with
  | none => c
  | some u =>
    if !(bit data 31) then c
    else
      let start := c.get (A.group u) R.MEM_FILL_START_word
      let count := c.get (A.group u) R.MEM_FILL_COUNT_count
      match c.fillResult u start count with
      | some r => c.put (A.group u) R.MEM_FILL_result r
      | none =>
        (c.setGrp u { c.grp u with filling := some (start, count, c.get (A.group u) R.MEM_FILL_PATTERN_pattern) }).put (A.group u)
          R.MEM_FILL_busy 1

/-- MEM_FILL (R373). -/
def execMemFill (src : Source) (data : Word) (s : State) : Host.Outcome State Fault Refusal :=
  s.bus src 0x500C true fun c => c.memFill data

/-- SCRUB_READ (R374): the next word in ascending order in a filled row; `ecc` 0 clean, 1 one bit wrong (byte and bit given), 2 poisoned.
A correctable word is written back corrected. -/
def Chip.scrubStep (c : Chip) (u ecc byte bitpos : Nat) : Chip :=
  let g := c.grp u
  let next := (g.filled.filterMap fun r =>
    if g.scrubAt < (r.1 + r.2) * 64 then some (Nat.max g.scrubAt (r.1 * 64)) else none).foldl
      (fun (a : Option Nat) w => match a with
        | none => some w
        | some x => some (Nat.min x w)) none
  match next with
  | none =>
    -- the walk wraps: one pass is complete
    if g.filled.isEmpty then c
    else
      ((c.setGrp u { g with scrubAt := 0 }).put (A.group u) R.MEM_SCRUB_pass ((c.get (A.group u) R.MEM_SCRUB_pass + 1) % 256)).cnt
        (A.group u + C.scrub_passes) 1
  | some w =>
    let c := c.setGrp u { g with scrubAt := w + 1 }
    if g.remapping.any fun r => r.1 == w / 64 then c
    else if ecc = 2 || c.poisoned u w then
      let g := c.grp u
      ((((c.setGrp u { g with poison := if g.poison.contains w then g.poison else w :: g.poison }).cnt (A.group u + C.scrub_ue) 1).reportPoison [u] u
        K.memUncorrectable 2 w).put (A.group u) R.MEM_EVENT_uncorrectable 1)
    else
      match g.soft.find? fun x => x.1 == w with
      | some x =>
        let c := (c.corrected u w (x.2 / 32) (x.2 % 32)).cnt (A.group u + C.scrub_corrected) 1
        c.setGrp u { c.grp u with
          soft := (c.grp u).soft.filter (·.1 != w)
          planted := (c.grp u).planted.filter (·.1 != w) }
      | none => if ecc = 1 then (c.corrected u w byte bitpos).cnt (A.group u + C.scrub_corrected) 1 else c

/-- SCRUB_READ (R374). The scrubbers of a sleeping slice pause (spec/19 R414). -/
def execScrubRead (u ecc byte bitpos : Nat) (s : State) : Host.Outcome State Fault Refusal :=
  s.run .aon fun c =>
    if isMemGroup u && c.present u && c.on (A.group u) R.MEM_SCRUB_enable &&
        (match U.sliceOf u with
          | some k => c.house.sleep.look k == 0
          | none => true) then c.scrubStep u ecc byte bitpos
    else c

/-- Put a record of the housekeeper in line for the keepsake store; the queue holds 16 (spec/19 R425)
(DESIGN CHOICE, notes/assumptions/62.md). -/
def Chip.hkRecord (c : Chip) (r : HkRec) : Chip :=
  if c.house.queue.length < 16 then { c with house := { c.house with queue := c.house.queue ++ [r] } } else c

/-- MEM_REMAP (R377, R378). -/
def Chip.memRemap (c : Chip) (data : Word) : Chip :=
  match c.selGroup with
  | none => c
  | some u =>
    let row := bits data 17 0
    let c := (c.put (A.group u) R.MEM_REMAP_row row).put (A.group u) R.MEM_REMAP_op (bits data 30 30)
    if !(bit data 31) || bit data 30 then c
    else
      let used := (c.grp u).sparesUsed.look (row / 1024)
      if c.groupRows u ≤ row then c.put (A.group u) R.MEM_REMAP_result 1
      else if (c.grp u).remapping.isSome || (c.grp u).filling.isSome then c.put (A.group u) R.MEM_REMAP_result 3
      else if 2 ≤ used then
        ((c.put (A.group u) R.MEM_REMAP_result 2).report u K.spareExhausted 2).put (A.group u) R.MEM_EVENT_spare_exhausted 1
      else
        (c.setGrp u { c.grp u with remapping := some (row, used), sparesUsed := (c.grp u).sparesUsed.set (row / 1024) (used + 1) }).put
          (A.group u) R.MEM_REMAP_busy 1

/-- MEM_REMAP (R377, R378). -/
def execMemRemap (src : Source) (data : Word) (s : State) : Host.Outcome State Fault Refusal :=
  s.bus src 0x501C true fun c => c.memRemap data

/-- REMAP_COMPLETE (R377): the row maps to the spare; its logged entries go; the remap is recorded. -/
def execRemapComplete (u : Nat) (s : State) : Host.Outcome State Fault Refusal :=
  s.run .core fun c =>
    match (c.grp u).remapping with
    | none => c
    | some (row, spare) =>
      let g := c.grp u
      let gone := (List.range 32).filter fun i => bit (g.log.look i) 63 && bits (g.log.look i) 23 0 / 64 == row
      let g := { g with remapping := none, remaps := (row, row / 1024 * 2 + spare) :: g.remaps.filter (fun r => r.1 != row),
                        log := gone.foldl (fun t i => t.set i 0) g.log, logOrder := g.logOrder.filter fun i => !(gone.contains i) }
      (((c.setGrp u g).put (A.group u) R.MEM_REMAP_busy 0).put (A.group u) R.MEM_REMAP_result 0 |>.cnt (A.group u + C.remaps) 1).hkRecord
        (.remap u row (row / 1024 * 2 + spare))

/-- MEM_REMAP_CLEAR (R379): the record of the row goes at the next start. -/
def Chip.memUnmap (c : Chip) (data : Word) : Chip :=
  match c.selGroup with
  | none => c
  | some u =>
    let row := bits data 17 0
    let c := (c.put (A.group u) R.MEM_REMAP_row row).put (A.group u) R.MEM_REMAP_op (bits data 30 30)
    if !(bit data 31) || !(bit data 30) then c
    else if c.groupRows u ≤ row then c.put (A.group u) R.MEM_REMAP_result 1
      else (c.put (A.group u) R.MEM_REMAP_result 0).hkRecord (.unmap u row)

/-- MEM_REMAP_CLEAR (R379). -/
def execMemRemapClear (src : Source) (data : Word) (s : State) : Host.Outcome State Fault Refusal :=
  s.bus src 0x501C true fun c => c.memUnmap data

/-- A FIFO of the device is there: learn, time stamp and punt-event FIFOs of present slices, and the ledger's. -/
def Chip.fifoThere (c : Chip) (f : Nat) : Bool := f == 24 || (decide (f < 24) && c.sliceEnabled (f % 8))

/-- FIFO_SWAP (R380). -/
def execFifoSwap (f : Nat) (s : State) : Host.Outcome State Fault Refusal :=
  s.run .core fun c =>
    let q := c.fifos.look f
    if c.fifoThere f && q.draining.isEmpty && !(q.filling.isEmpty) &&
        (decide (fifoCap f / 2 ≤ q.filling.length) || c.passedUs q.since (c.get (fifoBase f) ⟨0, 15, 0⟩)) then
      ({ c with fifos := c.fifos.set f { q with draining := q.filling, filling := [], bank := 1 - q.bank } }).syncFifo f
    else c

/-- The FIFOs that a write to the registers of FIFO `f` reaches: that kind's in every member of a slice suite
(spec/01_architecture.md R16). -/
def Chip.fifoMembers (c : Chip) (f : Nat) : List Nat :=
  if f < 24 then (c.members (U.slice (f % 8))).map fun u => f / 8 * 8 + U.index u else [f]

/-- FIFO_FLUSH (R383): a flush is requested, in every member of a suite. -/
def Chip.fifoFlush (c : Chip) (f : Nat) : Chip :=
  if c.fifoThere f then
    { c with fifos := (c.fifoMembers f).foldl (fun t g => t.upd g fun q => { q with flush := true }) c.fifos }
  else c

/-- FIFO_FLUSH (R383). -/
def execFifoFlush (src : Source) (f : Nat) (s : State) : Host.Outcome State Fault Refusal :=
  s.bus src (fifoBase f) true fun c => c.fifoFlush f

/-- FIFO_FLUSH_EFFECT (R383): both banks are empty; `partway` says that the producer was inside an item. -/
def execFifoFlushEffect (f : Nat) (partway : Bool) (s : State) : Host.Outcome State Fault Refusal :=
  s.run .core fun c =>
    let q := c.fifos.look f
    if c.fifoThere f && q.flush then
      (({ c with fifos := c.fifos.set f { q with filling := [], draining := [], hurt := [], flush := false } }).syncFifo f).when partway fun c =>
        c.put (c.fifoTop f) ⟨4, 29, 29⟩ 1
    else c

end Sys2Proof.Machine
end

