-- ==== Sys2Proof/Machine/Cells.lean ====
section
/-! DEFINITION. The innkeepers' cells (spec/12_innkeeper_buffers.md R260 to R268, R275 to R278): records, used figures, caps, allocation,
the checked operations and admission. Spill stands in Innkeeper.lean. -/

namespace Sys2Proof.Machine

open Sys2Proof

/-- Cells of a half. -/
def halfCells : Nat := 393216

namespace Chip

def innk (c : Chip) (h : Nat) : Innkeeper := c.innkeepers.look h

def setInnk (c : Chip) (h : Nat) (i : Innkeeper) : Chip := { c with innkeepers := c.innkeepers.set h i }

/-- Base of requester i's ID, minimum, quota and spill cap. -/
def reqBase (h i : Nat) : Nat := A.half h + 0x10 * i

def reqThere (c : Chip) (h i : Nat) : Bool := c.on (reqBase h i) R.INNK_REQ_ID_present

def reqUnit (c : Chip) (h i : Nat) : Nat := c.get (reqBase h i) R.INNK_REQ_ID_unit_id

/-- Requesters of a half, by index. -/
def reqs (c : Chip) (h : Nat) : List Nat := (List.range 16).filter fun i => c.reqThere h i

/-- Index of a requester by its unit ID. -/
def reqOf (c : Chip) (h unit : Nat) : Option Nat := (c.reqs h).find? fun i => c.reqUnit h i == unit

def used (c : Chip) (h i : Nat) : Nat := c.get (A.half h + 4 * i) R.INNK_REQ_USED_used

/-- The innkeeper of a half is released: the half is enabled, or the apply sequence has come so far that it allocates against the image's
minima (spec/03_boot_and_strongroom.md R65). -/
def innkReleased (c : Chip) (h : Nat) : Bool := c.halfEnabled h || (!c.image.applied && decide (h < c.image.runHalves))

/-- Free cells of the half: cells that no used figure counts and that the free list has not lost (DESIGN CHOICE, notes/assumptions/49.md). -/
def freeCells (c : Chip) (h : Nat) : Nat :=
  if c.image.applied || c.innkReleased h then halfCells - ((c.reqs h).map (c.used h)).sum - (c.innk h).lost.length else 0

/-- The stack of a half is trained and not in self-refresh (R274). -/
def stackReady (c : Chip) (h : Nat) : Bool :=
  let st := c.get (A.hbm h) R.HBM_STATUS_state
  st == 2 || st == 6 || (st == 1 && (c.hbms.look h).pcs.any fun p => p.2.step != 0)

/-- Spill may run (R274): the stack is ready, spill is enabled, and the housekeeper does not hold it. -/
def spillReady (c : Chip) (h : Nat) : Bool := c.stackReady h && c.on (A.half h) R.INNK_SPILL_enable && !(c.innk h).nightHold

/-- INNK_STATUS and INNK_SPILL_USED follow (Table 12-4, 12-6). -/
def syncInnk (c : Chip) (h : Nat) : Chip :=
  let k := c.innk h
  let mode := if !c.image.applied then 0 else if k.halfRecover then 3 else if c.get (A.half h) R.INNK_MODE_mode = 2 then 2 else 1
  let c := ((c.put (A.half h) R.INNK_STATUS_mode_now mode).put (A.half h) R.INNK_STATUS_spill_ready (b2n (c.spillReady h))).put (A.half h)
    R.INNK_STATUS_free_cells (c.freeCells h)
  c.put (A.half h) R.INNK_SPILL_USED_used k.bundles.length

/-- A used figure rises or falls. -/
def useAdd (c : Chip) (h i : Nat) (d : Int) : Chip :=
  (c.put (A.half h + 4 * i) R.INNK_REQ_USED_used ((c.used h i : Int) + d).toNat).syncInnk h

def minCells (c : Chip) (h i : Nat) : Nat := c.get (reqBase h i) R.INNK_REQ_MIN_min_cells

/-- A requester is limited to its minimum (R265). -/
def limited (c : Chip) (h i : Nat) : Bool :=
  !c.image.applied || c.get (A.half h) R.INNK_MODE_mode == 2 || c.on (A.half h + 4 * i) R.INNK_REQ_USED_recovering || (c.innk h).halfRecover

/-- The cap of a requester. -/
def cap (c : Chip) (h i : Nat) : Nat := if c.limited h i then c.minCells h i else c.get (reqBase h i) R.INNK_REQ_QUOTA_quota_cells

/-- What the other requesters may still claim of their minima. -/
def unmet (c : Chip) (h i : Nat) : Nat := (((c.reqs h).filter (· != i)).map fun o => c.minCells h o - c.used h o).sum

/-- R266: `n` cells for requester i. -/
def canAlloc (c : Chip) (h i n : Nat) : Bool :=
  decide (c.used h i + n ≤ c.cap h i) && decide (c.unmet h i + n ≤ c.freeCells h)

def cellRec (c : Chip) (h p : Nat) : CellRec := (c.innk h).cells.look p

/-- Write a cell's record: word p of the innkeeper's group (DESIGN CHOICE, notes/assumptions/14.md). -/
def setCellRec (c : Chip) (h p : Nat) (r : CellRec) : Chip :=
  (c.setInnk h { c.innk h with cells := (c.innk h).cells.set p r }).coverWord (U.halfBlk h 0) p

/-- The innkeeper reads the record of a cell for an operation (DESIGN CHOICE, notes/assumptions/49.md). -/
def seeCell (c : Chip) (h addr : Nat) : Chip :=
  if addr % 256 = 0 && addr / 256 < halfCells then c.readPoison (U.halfBlk h 0) (addr / 256) 1 else c

/-- The word of the innkeeper's group that holds a pointer's place in the free list (DESIGN CHOICE, notes/assumptions/14.md). -/
def listWord (p : Nat) : Nat := halfCells + p

/-- The lowest free pointer that the free list holds (DESIGN CHOICE, notes/assumptions/49.md). -/
def lowestFree (c : Chip) (h : Nat) : Nat :=
  let k := c.innk h
  (firstBelow (k.cells.length + k.lost.length + 1) fun p => (k.cells.look p).count == 0 && !(k.lost.contains p)).getD 0

/-- The entry of the free list that is next is uncorrectable: it is taken out of the list (R277). -/
def loseEntry (c : Chip) (h : Nat) : Chip :=
  ((c.setInnk h { c.innk h with lost := c.lowestFree h :: (c.innk h).lost }).reportPoison [U.halfBlk h 0] (U.halfBlk h 0) K.freeListErr 2 0).syncInnk h

/-- Uncorrectable entries at the front of the free list are taken out of it (R277); at most `n`. -/
def shedBad (h : Nat) : Nat → Chip → Chip
  | 0, c => c
  | n + 1, c => if c.poisoned (U.halfBlk h 0) (listWord (c.lowestFree h)) then shedBad h n (c.loseEntry h) else c

/-- The free list is read: what is uncorrectable at its front goes, and a correctable entry is counted (R277, R368). -/
def readList (c : Chip) (h : Nat) : Chip :=
  let c := shedBad h (c.grp (U.halfBlk h 0)).poison.length c
  c.seeWords (U.halfBlk h 0) (listWord (c.lowestFree h)) 1

/-- Take a free cell for a requester with count 1; the used figure is the caller's (DESIGN CHOICE, notes/assumptions/49.md). -/
def takeCell (c : Chip) (h i : Nat) (first last bad : Bool) : Chip × Nat :=
  let c := c.readList h
  let p := c.lowestFree h
  ((((c.setCellRec h p { count := 1, lodger := c.reqUnit h i, first, last, bad }).cnt (A.half h + 0x40 * i + C.alloc_cells) 1).syncInnk h), p)

/-- A cell is free again: its record, and its place in the free list (R277). -/
def putBack (c : Chip) (h p : Nat) : Chip := (c.setCellRec h p {}).coverWord (U.halfBlk h 0) (listWord p)

/-! ### Checked operations (R263, R264) -/

/-- Which check refuses an operation of `unit` on a buffer address: 1 bad pointer, 2 double free, 3 not owner. -/
def cellCheck (c : Chip) (h unit addr : Nat) : Nat :=
  if addr % 256 != 0 || 0x6000000 ≤ addr then 1
  else if (c.cellRec h (addr / 256)).count = 0 then 2
  else if (c.cellRec h (addr / 256)).lodger != unit then 3
  else 0

/-- Record a refusal. -/
def cellRefuse (c : Chip) (h unit addr k : Nat) : Chip :=
  let addr := addr % 2 ^ 28
  let b := A.half h
  let kind := if k = 1 then K.bpmBadPtr else if k = 2 then K.bpmDoubleFree else K.bpmNotOwner
  let c := c.report (U.halfBlk h 0) kind (if k = 1 then 3 else 2) (addr * 65536 + unit)
  let c := match c.reqOf h unit with
    | some i => c.cnt (b + 0x40 * i + (if k = 1 then C.bad_ptr else if k = 2 then C.double_free else C.not_owner)) 1
    | none => c
  let c := c.put b (if k = 1 then R.INNK_EVENT_bad_ptr else if k = 2 then R.INNK_EVENT_double_free else R.INNK_EVENT_not_owner) 1
  ((c.put b R.INNK_FAULT_kind k).put b R.INNK_FAULT_requester unit).put b R.INNK_FAULT_ADDR_address addr

/-- SHARE n. -/
def cellShare (c : Chip) (h unit addr n : Nat) : Chip :=
  let c := c.seeCell h addr
  let k := c.cellCheck h unit addr
  if k = 0 then let r := c.cellRec h (addr / 256); c.setCellRec h (addr / 256) { r with count := r.count + n, lodger := unit }
  else c.cellRefuse h unit addr k

/-- HANDOVER: the lodger becomes another requester of the half; both used figures follow. -/
def cellHandover (c : Chip) (h unit addr next : Nat) : Chip :=
  let c := c.seeCell h addr
  let k := c.cellCheck h unit addr
  if k = 0 then
    match c.reqOf h unit, c.reqOf h next with
    | some i, some j => ((c.setCellRec h (addr / 256) { c.cellRec h (addr / 256) with lodger := next }).useAdd h i (-1)).useAdd h j 1
    | _, _ => c
  else c.cellRefuse h unit addr k

/-- FREE: count falls by 1, and at 0 the cell is free. -/
def cellFree (c : Chip) (h unit addr : Nat) : Chip :=
  let c := c.seeCell h addr
  let k := c.cellCheck h unit addr
  if k = 0 then
    let r := c.cellRec h (addr / 256)
    if r.count = 1 then
      let c := c.putBack h (addr / 256)
      match c.reqOf h unit with
      | some i => (c.cnt (A.half h + 0x40 * i + C.free_cells) 1).useAdd h i (-1)
      | none => c.syncInnk h
    else c.setCellRec h (addr / 256) { r with count := r.count - 1 }
  else c.cellRefuse h unit addr k

/-- Free a cell whatever its count and lodger, and count it as reclaimed (DESIGN CHOICE, notes/assumptions/49.md). -/
def reclaimCell (c : Chip) (h p : Nat) : Chip :=
  let r := c.cellRec h p
  let c := c.putBack h p
  match c.reqOf h r.lodger with
  | some i => (c.cnt (A.half h + 0x40 * i + C.reclaimed) 1).useAdd h i (-1)
  | none => c.syncInnk h

/-! ### Requester recovery (R265, R275) -/

/-- A block reset covers requester i: it is limited to its minimum from the reset's start. -/
def recoverStart (c : Chip) (h i : Nat) : Chip :=
  let k := c.innk h
  ((c.setInnk h { k with inRecovery := if k.inRecovery.contains i then k.inRecovery else i :: k.inRecovery, recover := k.recover.set i none }).put
    (A.half h + 4 * i) R.INNK_REQ_USED_recovering 1).syncInnk h

/-- The records of cells and their places in the free list are written. -/
def coverRecords (c : Chip) (h : Nat) (ps : List Nat) : Chip :=
  let u := U.halfBlk h 0
  if (c.grp u).planted.isEmpty && (c.grp u).poison.isEmpty && c.ledger.inj.isNone then c
  else c.each ps fun c p => (c.coverWord u p).coverWord u (listWord p)

/-- Free every cell, bundle and reservation of requester i (R275). -/
def reclaimAll (c : Chip) (h i : Nat) : Chip :=
  let k := c.innk h
  let u := c.reqUnit h i
  let mine := (k.cells.filter fun p => p.2.lodger == u && p.2.count != 0).map Prod.fst
  let k := { k with
    cells := k.cells.filter fun p => !(p.2.lodger == u && p.2.count != 0)
    bundles := k.bundles.filter fun p => !(p.2.any fun b => b.req == i) }
  ((((c.setInnk h k).coverRecords h mine).cnt (A.half h + 0x40 * i + C.reclaimed) mine.length).put (A.half h + 4 * i) R.INNK_REQ_USED_used 0).syncInnk h

/-- The release of a reset that covered requester i. -/
def recoverRelease (c : Chip) (h i : Nat) : Chip :=
  if (c.innk h).inRecovery.contains i then c.setInnk h { c.innk h with recover := (c.innk h).recover.set i (some c.now) } else c

end Chip

/-! ### Meanings -/

/-- An innkeeper serves operations. -/
def Chip.innkUp (c : Chip) (h : Nat) : Bool := decide (h < 2) && c.innkReleased h && !(c.inReset (U.halfBlk h 0))

/-- An operation of `req` reaches the innkeeper, unless an injected parity error on the requester's path stops it (R276,
spec/18_ledger_and_faults.md R400). -/
def Chip.innkPath (c : Chip) (h req : Nat) (f : Chip → Chip) : Chip :=
  if !(c.innkUp h) then c
  else if c.injected req 2 = 0 then f c
  else (c.reportInj req K.bpmPortErr 4 req true).injectStep req 2

/-- CELL_ALLOC (R266): lowest free cell; `listError` says that the free-list entry taken is uncorrectable (R277). -/
def execCellAlloc (h req : Nat) (listError : Bool) (s : State) : Host.Outcome State Fault Refusal :=
  s.run .core fun c =>
    c.innkPath h req fun c =>
      match c.reqOf h req with
      | none => c
      | some i =>
        if !(c.canAlloc h i 1) then c
        else
          let c := (c.when listError fun c => c.loseEntry h).readList h
          if c.canAlloc h i 1 then ((c.takeCell h i false false false).1).useAdd h i 1 else c

/-- CELL_SHARE (R263). -/
def execCellShare (h req addr n : Nat) (s : State) : Host.Outcome State Fault Refusal :=
  s.run .core fun c => c.innkPath h req fun c => c.cellShare h req addr n

/-- CELL_HANDOVER (R263). -/
def execCellHandover (h req addr next : Nat) (s : State) : Host.Outcome State Fault Refusal :=
  s.run .core fun c => c.innkPath h req fun c => c.cellHandover h req addr next

/-- CELL_FREE (R263). -/
def execCellFree (h req addr : Nat) (s : State) : Host.Outcome State Fault Refusal :=
  s.run .core fun c => c.innkPath h req fun c => c.cellFree h req addr

end Sys2Proof.Machine
end

