-- ==== Sys2Proof/Machine/TimeBase.lean ====
section
/-! DEFINITION. The time bases, the 10 MHz reference and the 1PPS input and outputs (spec/15_time_bases.md R321 to R339). -/

namespace Sys2Proof.Machine

open Sys2Proof

/-- A field read as a two's complement number of `w` bits. -/
def signed (w n : Nat) : Int := if n < 2 ^ (w - 1) then (n : Int) else (n : Int) - 2 ^ w

/-- Time of a base in ns, fraction dropped. -/
def Tb.time (t : Tb) : Nat := t.sec * 1000000000 + t.ns

/-- A time in units of 2^-48 ns. -/
def Tb.fine (t : Tb) : Nat := t.time * 2 ^ 48 + t.frac

/-- The base that stands at a time in units of 2^-48 ns; seconds have 48 bits (R321), and a step below zero wraps with them
(DESIGN CHOICE, notes/assumptions/53.md). -/
def Tb.setFine (t : Tb) (f : Int) : Tb :=
  let n := (if f < 0 then f + 2 ^ 96 * 1000000000 else f).toNat
  let ns := n / 2 ^ 48
  { t with sec := ns / 1000000000 % 2 ^ 48, ns := ns % 1000000000, frac := n % 2 ^ 48 }

def Chip.tb (c : Chip) (t : Nat) : Tb := c.tbs.look t

def Chip.setTb (c : Chip) (t : Nat) (b : Tb) : Chip := { c with tbs := c.tbs.set t b }

/-- Signed rate in units of 2^-48 ns per ns (Table 15-2). -/
def Chip.tbRate (c : Chip) (t : Nat) : Int := signed 39 (c.get (A.tb t) R.TB_RATE_rate)

/-- One tick of one base: 8 ns × (1 + rate × 2^-48) (R322). -/
def Chip.tickTb (c : Chip) (t : Nat) : Chip :=
  c.setTb t ((c.tb t).setFine ((c.tb t).fine + 8 * 2 ^ 48 + 8 * c.tbRate t))

/-- 48-bit fields of TB_NOW_NS: nanoseconds and 16 fractional bits. -/
def Tb.nowNs (t : Tb) : Nat := t.ns * 2 ^ 16 + t.frac / 2 ^ 32

/-- A time base stepped or set: outputs that follow it make no pulse of their own (R337) (DESIGN CHOICE, notes/assumptions/53.md). -/
def Chip.ppsRebase (c : Chip) (t : Nat) : Chip :=
  c.each [0, 1] fun c i =>
    if c.get (4 * i) R.PPS_OUT_tb = t then
      let comp := signed 16 (c.get (4 * i) R.PPS_COMP_comp)
      { c with pps := c.pps.upd i fun o => { o with last := (((c.tb t).time : Int) + comp).toNat / 1000000000 } }
    else c

/-- The action of a snapshot is carried out and reads 0b00 in both copies (R323). -/
def Chip.tbAction (c : Chip) (t : Nat) : Chip :=
  let b := A.tb t
  let act := c.get b R.TB_CTRL_action
  if act = 1 || act = 2 then
    let tb := c.tb t
    let off : Int := signed 64 (c.get b R.TB_OFFSET_offset)
    let tb' := if act = 1 then tb.setFine (tb.fine + off * 2 ^ 32)
      else { tb with sec := c.get b R.TB_SET_SEC_seconds, ns := c.get b R.TB_SET_NS_ns, frac := c.get b R.TB_SET_NS_frac * 2 ^ 32 }
    let c := (c.setTb t tb').put b R.TB_CTRL_action 0
    let c := { c with staged := match c.staged.look b with
      | some v => c.staged.set b (some (putBits v 31 30 0))
      | none => c.staged }
    (((c.put b R.TB_STATUS_step_count ((c.get b R.TB_STATUS_step_count + 1) % 256)).put b R.TB_EVENT_stepped 1).cnt (b + C.tb_steps) 1).ppsRebase t
  else c

/-- An accepted go ends a holdover (R326) (DESIGN CHOICE, notes/assumptions/53.md). -/
def Chip.tbSteered (c : Chip) (t : Nat) : Chip :=
  let c := c.setTb t { c.tb t with steered := c.now }
  c.when (c.on (A.tb t) R.TB_STATUS_holdover) fun c => (c.put (A.tb t) R.TB_STATUS_holdover 0).endCond (0xD050 + t) K.tbHoldover

/-- A sender may write the window of base `t` (R325) (DESIGN CHOICE, notes/assumptions/53.md). -/
def Chip.tbMayWrite (c : Chip) (src : Source) (t : Nat) : Bool :=
  let o := c.get (A.tb t) R.TB_ACCESS_owner
  o == 0x1F || o == srcFn src

/-- An ignored write of a window is counted (R325) (DESIGN CHOICE, notes/assumptions/53.md). -/
def Chip.tbForeign (c : Chip) (t : Nat) : Chip := (c.cnt (A.tb t + C.tb_foreign_write) 1).put (A.tb t) R.TB_EVENT_foreign_write 1

/-! ### Meanings -/

/-- Sleeping slices count the µs asleep (spec/19_housekeeper_power_ageing.md Table 19-9). -/
def Chip.countAsleep (c : Chip) : Chip :=
  if c.now % 1000 < 8 then
    c.each (List.range 8) fun c s => c.when (c.get 0 R.SLEEP_STATE_asleep / 2 ^ s % 2 == 1) fun c => c.cnt (C.asleep_us + 0x20 * s) 1
  else c


/-- A read of TB_NOW_NS latches TB_NOW_SEC (R324). -/
def Chip.tbNowRead (c : Chip) (t : Nat) : Chip :=
  { c.setReg (A.tb t + R.TB_NOW_SEC) (BitVec.ofNat 64 (c.tb t).sec) with busData := BitVec.ofNat 64 (c.tb t).nowNs }

/-- The seconds of the last capture are latched (R324). -/
def Chip.tbPpsLatch (c : Chip) (t : Nat) : Chip := c.setReg (A.tb t + R.TB_PPS_SEC) (BitVec.ofNat 64 (c.tb t).ppsSec)

/-- A read of TB_PPS_NS: the capture, its seconds latched, fresh cleared (R324). -/
def Chip.tbPpsRead (c : Chip) (t : Nat) : Chip :=
  { (c.put (A.tb t) R.TB_PPS_NS_fresh 0).tbPpsLatch t with busData := c.reg (A.tb t + R.TB_PPS_NS) }

/-- TB_NOW_READ (R324). -/
def execTbNowRead (src : Source) (t : Nat) (s : State) : Host.Outcome State Fault Refusal :=
  s.bus src (A.tb t + 0x38) false fun c => if t < 8 then c.tbNowRead t else { c with busData := 0 }

/-- TB_PPS_READ (R324). -/
def execTbPpsRead (src : Source) (t : Nat) (s : State) : Host.Outcome State Fault Refusal :=
  s.bus src (A.tb t + 0x48) false fun c => if t < 8 then c.tbPpsRead t else { c with busData := 0 }

/-- The holdover timeout of a base has passed (R326) (DESIGN CHOICE, notes/assumptions/53.md). -/
def Chip.holdoverDue (c : Chip) (t : Nat) : Bool :=
  decide (t < 8) && c.get (A.tb t) R.TB_CTRL_steer_timeout_ms != 0 && !(c.on (A.tb t) R.TB_STATUS_holdover) &&
    c.passedUs (c.tb t).steered (c.get (A.tb t) R.TB_CTRL_steer_timeout_ms * 1000)

/-- TB_HOLDOVER (R326). -/
def execTbHoldover (t : Nat) (s : State) : Host.Outcome State Fault Refusal :=
  s.run .aon fun c =>
    if c.holdoverDue t then
      ((c.put (A.tb t) R.TB_STATUS_holdover 1).put (A.tb t) R.TB_EVENT_holdover 1).report (0xD050 + t) K.tbHoldover 1
    else c

/-- ref_holdover in every time base (R327). -/
def Chip.refHoldover (c : Chip) (b : Bool) : Chip :=
  c.each (List.range 8) fun c t => c.put (A.tb t) R.TB_STATUS_ref_holdover (b2n b)

/-- TB_REF_LOSS (R327): the 10 MHz input is selected and stops. -/
def execTbRefLoss (s : State) : Host.Outcome State Fault Refusal :=
  s.run .aon fun c =>
    if c.on 0 R.TB_REF_ref_sel && !(c.on 0 R.TB_REF_ref_lost) then
      (((c.put 0 R.TB_REF_ref_lost 1).put 0 R.TB_REF_locked 0).refHoldover true).report 0xD030 K.tbRefLoss 2
    else c

/-- TB_REF_SELECT (R327): any write of ref_sel makes the PLL lock again, and meanwhile it runs at its held frequency; a loss ends with it
(DESIGN CHOICE, notes/assumptions/53.md). -/
def Chip.tbRefSelect (c : Chip) (sel : Bool) : Chip :=
  let d := (((c.put 0 R.TB_REF_ref_sel (b2n sel)).put 0 R.TB_REF_ref_lost 0).put 0 R.TB_REF_locked 0).refHoldover true
  d.when (c.on 0 R.TB_REF_ref_lost) fun d => d.endCond 0xD030 K.tbRefLoss

/-- TB_REF_SELECT (R327). -/
def execTbRefSelect (src : Source) (sel : Bool) (s : State) : Host.Outcome State Fault Refusal :=
  s.bus src R.TB_REF true fun c => c.tbRefSelect sel

/-- TB_PLL_LOCK (R327): the PLL is locked and ref_holdover ends; after a loss it stays held until a write of ref_sel. -/
def execTbPllLock (s : State) : Host.Outcome State Fault Refusal :=
  s.run .aon fun c => if c.on 0 R.TB_REF_ref_lost then c else (c.put 0 R.TB_REF_locked 1).refHoldover false

/-- PPS_IN_EDGE (R338): captured in every time base at the same instant. -/
def execPpsInEdge (s : State) : Host.Outcome State Fault Refusal :=
  s.run .aon fun c => c.each (List.range 8) fun c t =>
    let tb := c.tb t
    (((c.setTb t { tb with ppsSec := tb.sec }).setReg (A.tb t + R.TB_PPS_NS) (BitVec.ofNat 64 (2 ^ 63 + tb.nowNs))).put (A.tb t)
      R.TB_EVENT_pps_in 1).cnt (A.tb t + C.tb_pps_captures) 1

/-- The whole second that output `i` stands in, its advance included. -/
def Chip.ppsSecond (c : Chip) (i : Nat) : Nat :=
  (((c.tb (c.get (4 * i) R.PPS_OUT_tb)).time : Int) + signed 16 (c.get (4 * i) R.PPS_COMP_comp)).toNat / 1000000000

/-- PPS_OUT_PULSE (R337); the outputs drive low while SYS_RST_N is low (spec/22_pins_and_electrical.md R468). -/
def execPpsOutPulse (output : Nat) (s : State) : Host.Outcome State Fault Refusal :=
  s.run .aon fun c =>
    if output < 2 && c.power.sysRstHigh && c.on (4 * output) R.PPS_OUT_enable && (c.pps.look output).rose.isNone &&
        decide ((c.pps.look output).last < c.ppsSecond output) then
      ({ c with pps := c.pps.set output { last := c.ppsSecond output, rose := some c.now } }).emit (.pps output true)
    else c

/-- PPS_OUT_PULSE_END (R337): width_ms after the rise. -/
def execPpsOutPulseEnd (output : Nat) (s : State) : Host.Outcome State Fault Refusal :=
  s.run .aon fun c =>
    match (c.pps.look output).rose with
    | some t =>
      if output < 2 && c.passedUs t (c.get (4 * output) R.PPS_OUT_width_ms * 1000) then
        ({ c with pps := c.pps.upd output fun o => { o with rose := none } }).emit (.pps output false)
      else c
    | none => c

end Sys2Proof.Machine
end

