-- ==== Sys2Proof/Machine/Gates.lean ====
section
/-! DEFINITION. The time gates as functions of time (spec/14_time_gates.md R303 to R316): the lists, the gate states, remaining open
time, longest window, swap instant and the counted transmission time. The gate commands stand in GateCmd.lean. -/

namespace Sys2Proof.Machine

open Sys2Proof

namespace Chip

def gclCount (c : Chip) (p l : Nat) : Nat := c.get (A.port p + 0x20 * l) R.GCL_COUNT_entry_count
def gclCycle (c : Chip) (p l : Nat) : Nat := c.get (A.port p + 0x20 * l) R.GCL_CYCLE_cycle
def gclInterval (c : Chip) (p l i : Nat) : Nat := c.get (A.port p + 0x800 * l + 8 * i) R.GCL_INTERVAL_interval
def gclGates (c : Chip) (p l i : Nat) : Nat := c.get (A.port p + 0x800 * l + 8 * i) R.GCL_GATES_gates
/-- Base time of a list in ns. -/
def gclBase (c : Chip) (p l : Nat) : Nat :=
  c.get (A.port p + 0x20 * l) R.GCL_BASE_SEC_seconds * 1000000000 + c.get (A.port p + 0x20 * l) R.GCL_BASE_NS_ns

/-- The check of R304 on a list. -/
def gclOk (c : Chip) (p l : Nat) : Bool :=
  let n := c.gclCount p l
  let ns := c.get (A.port p + 0x20 * l) R.GCL_BASE_NS_ns
  decide (1 ≤ n) && decide (n ≤ 256) && decide (1 ≤ c.gclCycle p l) && decide (c.gclCycle p l ≤ 125000000) &&
    decide (ns < 1000000000) && ns % 8 == 0 &&
    (List.range n).all fun i => decide (1 ≤ c.gclInterval p l i) && decide (c.gclInterval p l i ≤ 125000000)

end Chip

/-- Cut a list of (interval, gates) to a cycle: the last entry lasts to the end, and what lies beyond is not used (R305). -/
def cutCycle : Nat → List (Nat × Nat) → List (Nat × Nat)
  | _, [] => []
  | left, [(_, g)] => if left = 0 then [] else [(left, g)]
  | left, (d, g) :: t => if left ≤ d then (if left = 0 then [] else [(left, g)]) else (d, g) :: cutCycle (left - d) t

/-- The entries of a list as they run, in units of 8 ns. -/
def Chip.gclRun (c : Chip) (p l : Nat) : List (Nat × Nat) :=
  cutCycle (c.gclCycle p l) ((List.range (c.gclCount p l)).map fun i => (c.gclInterval p l i, c.gclGates p l i))

/-- The entry in force `off` units into a cycle: index, gates, units left in it (DEDUCED, notes/assumptions/52.md). -/
def entryAt : List (Nat × Nat) → Nat → Nat → Nat × Nat × Nat
  | [], i, _ => (i, 0xFF, 0)
  | (d, g) :: t, i, off => if off < d then (i, g, d - off) else entryAt t (i + 1) (off - d)

/-- Time on the port's time base, in ns (DEDUCED, notes/assumptions/52.md). -/
def Chip.gateNow (c : Chip) (p : Nat) : Nat := (c.tb (c.get (A.port p) R.GATE_CTRL_tb)).time

def Chip.activeList (c : Chip) (p : Nat) : Nat := c.get (A.port p) R.GATE_STATUS_active_list

/-- Position of list `l` at a time: before base, gates, entry (R305). -/
def Chip.gatePos (c : Chip) (p l time : Nat) : Bool × Nat × Nat :=
  let base := c.gclBase p l
  let cyc := c.gclCycle p l
  if time < base || cyc = 0 then (true, c.get (A.port p) R.GATE_CTRL_admin_gates, 0)
  else
    let e := entryAt (c.gclRun p l) 0 ((time - base) / 8 % cyc)
    (false, e.2.1, e.1)

/-- The gate states now: all open while disabled (R304). -/
def Chip.gatesNow (c : Chip) (p : Nat) : Nat :=
  if c.on (A.port p) R.GATE_CTRL_enable then (c.gatePos p (c.activeList p) (c.gateNow p)).2.1 else 0xFF

/-- Units for which gate `k` stays open along a run of entries: the sum up to the first closed entry, and whether one is met. -/
def openRun (k : Nat) : List (Nat × Nat) → Nat × Bool
  | [] => (0, false)
  | (d, g) :: t => if g / 2 ^ k % 2 = 1 then let r := openRun k t; (d + r.1, r.2) else (0, true)

/-- R(c) in ns inside one list from a time on; none is unbounded. -/
def Chip.openInList (c : Chip) (p l k time : Nat) : Option Nat :=
  let run := c.gclRun p l
  let base := c.gclBase p l
  let cyc := c.gclCycle p l
  if time < base || cyc = 0 then
    if c.get (A.port p) R.GATE_CTRL_admin_gates / 2 ^ k % 2 = 0 then some 0
    else
      let r := openRun k run
      if r.2 then some (base - time + 8 * r.1) else none
  else
    let off := (time - base) / 8 % cyc
    let e := entryAt run 0 off
    if e.2.1 / 2 ^ k % 2 = 0 then some 0
    else
      let r := openRun k ((e.2.2, e.2.1) :: (run.drop (e.1 + 1) ++ run))
      if r.2 then some (8 * r.1 - (time - base) % 8) else none

/-- The swap time. -/
def Chip.swapTime (c : Chip) (p : Nat) : Nat :=
  bits (c.reg (A.port p + R.GATE_SWAP_SEC)) 47 0 * 1000000000 + c.get (A.port p) R.GATE_SWAP_NS_ns

/-- The swap instant (R313): a swap time that had passed when the swap was armed counts from then, since the old list completes the cycle
in progress. -/
def Chip.swapInstant (c : Chip) (p : Nat) : Nat :=
  let st := c.swapTime p
  let l := c.activeList p
  let base := c.gclBase p l
  let cyc := 8 * c.gclCycle p l
  let from_ := Nat.max st (c.ports.look p).armedAt
  if !(c.on (A.port p) R.GATE_CTRL_enable) || c.gateNow p < base || cyc = 0 then (st + 7) / 8 * 8
  else if from_ ≤ base then base
  else base + (from_ - base + cyc - 1) / cyc * cyc

/-- R(c), following an armed swap into the new list. -/
def Chip.openTime (c : Chip) (p k : Nat) : Option Nat :=
  if !(c.on (A.port p) R.GATE_CTRL_enable) then none
  else
    let l := c.activeList p
    let t := c.gateNow p
    let r := c.openInList p l k t
    if c.on (A.port p) R.GATE_STATUS_armed then
      let i := c.swapInstant p
      if i ≤ t then c.openInList p (1 - l) k t
      else if (match r with
        | none => true
        | some n => decide (i ≤ t + n)) then (c.openInList p (1 - l) k i).map fun n => n + (i - t)
      else r
    else r

/-- Longest run of open units along a list, given the run in progress. -/
def longestOpen (k : Nat) : Nat → Nat → List (Nat × Nat) → Nat
  | best, cur, [] => Nat.max best cur
  | best, cur, (d, g) :: t => if g / 2 ^ k % 2 = 1 then longestOpen k best (cur + d) t else longestOpen k (Nat.max best cur) 0 t

/-- W(c) of a list in units of 8 ns, 0x7FFFFFF when gate `k` never closes. -/
def Chip.wmax (c : Chip) (p l k : Nat) : Nat :=
  let run := c.gclRun p l
  if run.all fun e => e.2 / 2 ^ k % 2 == 1 then 0x7FFFFFF
  else
    let r := openRun k run
    -- the last entry of one cycle is joined to entry 0 of the next
    longestOpen k 0 0 (run ++ [(r.1, 2 ^ k)])

/-- GATE_STATUS and GATE_WMAX follow the list in force. -/
def Chip.gateSync (c : Chip) (p : Nat) : Chip :=
  if c.on (A.port p) R.GATE_CTRL_enable then
    let q := c.gatePos p (c.activeList p) (c.gateNow p)
    let c := ((c.put (A.port p) R.GATE_STATUS_before_base (b2n q.1)).put (A.port p) R.GATE_STATUS_gates q.2.1).put (A.port p)
      R.GATE_STATUS_entry q.2.2
    c.each (List.range 8) fun c k => c.put (A.port p + 4 * k) R.GATE_WMAX_wmax (c.wmax p (c.activeList p) k)
  else
    let c := ((c.put (A.port p) R.GATE_STATUS_before_base 0).put (A.port p) R.GATE_STATUS_gates 0xFF).put (A.port p) R.GATE_STATUS_entry 0
    c.each (List.range 8) fun c k => c.put (A.port p + 4 * k) R.GATE_WMAX_wmax 0x7FFFFFF

/-- Rate of a port in Mb/s (spec/02_configuration_image.md Table 2-4). -/
def portMbps (type : Nat) : Nat :=
  match type with
  | 1 => 10000
  | 2 => 25000
  | 3 => 50000
  | 4 => 100000
  | 5 => 200000
  | 6 => 400000
  | 7 => 800000
  | _ => 10000

def Chip.rateMbps (c : Chip) (p : Nat) : Nat := portMbps (((c.portRec p).map PortRec.type).getD 1)

/-- Counted transmission time in ns of `bytes` bytes, overhead included (R306). -/
def txTime (bytes mbps : Nat) : Nat := ((bytes * 8000 + mbps - 1) / mbps + 7) / 8 * 8

end Sys2Proof.Machine
end

