-- ==== Sys2Proof/Machine/Window.lean ====
section
/-! DEFINITION. Indirect windows (spec/20_host_interface.md Table 20-6, R436): the snapshot that a go takes, the result written at
completion, and the completion command. -/

namespace Sys2Proof.Machine

open Sys2Proof

/-- What a go snapshots. -/
structure WinIn where
  base : Nat
  src : Source
  index : Nat
  state : Nat
  part : Nat
  half : Nat
  table : Nat
  seq : Nat
  data : Entry
deriving DecidableEq, Repr

/-- DATA0 to DATA7 as one 256-bit entry, DATA0 the lowest. -/
def Chip.winData (c : Chip) (base : Nat) : Entry :=
  BitVec.ofNat 256 ((List.range 8).foldl (fun n i => n + bits (c.reg (base + 0x10 + 4 * i)) 31 0 * 2 ^ (32 * i)) 0)

def Chip.setWinData (c : Chip) (base : Nat) (e : Entry) : Chip :=
  c.each (List.range 8) fun c i => c.setReg (base + 0x10 + 4 * i) (BitVec.ofNat 64 (bits e (32 * i + 31) (32 * i)))

def Chip.winIn (c : Chip) (src : Source) (base : Nat) : WinIn :=
  { base, src, index := c.get base R.WIN_ADDR_index, state := c.get (base + 4) R.WIN_CMD_state, part := c.get (base + 4) R.WIN_CMD_part,
    half := c.get (base + 4) R.WIN_CMD_half, table := c.get (base + 4) R.WIN_CMD_table, seq := c.get (base + 8) R.WIN_STATUS_seq,
    data := c.winData base }

def Chip.winBusy (c : Chip) (base : Nat) : Bool := c.on (base + 8) R.WIN_STATUS_busy

/-- Unit that owns a window, by its base. -/
def winOwner (base : Nat) : Nat :=
  if 0x08000000 ≤ base && base < 0x10000000 then
    let s := (base - 0x08000000) / 0x01000000
    let o := base % 0x01000000
    if o < 0x441000 then U.sliceBlk s 0x48 else if o < 0x442000 then U.sliceBlk s 0x58
    else if o < 0x460000 then U.sliceBlk s 0x50 else if o < 0x480000 then U.sliceBlk s 0x58
    else if o < 0x800000 then U.slice s else U.sliceBlk s 0x70
  else if 0x10000000 ≤ base && base < 0x14000000 then
    let h := (base - 0x10000000) / 0x02000000
    if base % 0x02000000 < 0x400000 then U.halfBlk h 0 else U.halfBlk h 0x10
  else 0xD030

/-- A wake cause of slice `s` has come (spec/19_housekeeper_power_ageing.md R410). -/
def Chip.wakeCause (c : Chip) (s : Nat) : Chip :=
  if s < 8 && (c.house.sleep.look s == 1 || c.house.sleep.look s == 2) then
    { c with house := { c.house with cause := c.house.cause ||| BitVec.ofNat 8 (2 ^ s) } }
  else c

/-- A window command wakes its slice (R414). -/
def Chip.winWake (c : Chip) (base : Nat) : Chip :=
  match U.sliceOf (winOwner base) with
  | some s => c.wakeCause s
  | none => c

/-- A go with an op (R436): ignored while busy; completes at once with code 0x07 while the owner is in reset; else the operation is
carried out on the snapshot and its result, where it has one yet, waits for completion (DESIGN CHOICE, notes/assumptions/73.md). -/
def Chip.winLater (c : Chip) (src : Source) (base op : Nat) (f : WinIn → Chip → Chip × Option WinRes) : Chip :=
  if c.winBusy base then c
  else
    let c := c.put (base + 4) R.WIN_CMD_op op
    if c.inReset (winOwner base) then c.put (base + 8) R.WIN_STATUS_code 7
    else
      let r := f (c.winIn src base) (c.winWake base)
      { r.1.put (base + 8) R.WIN_STATUS_busy 1 with wins := r.1.wins.set base r.2 }

/-- A go whose operation has its result at once (DESIGN CHOICE, notes/assumptions/73.md). -/
def Chip.winGo (c : Chip) (src : Source) (base op : Nat) (f : WinIn → Chip → Chip × WinRes) : Chip :=
  c.winLater src base op fun w c => ((f w c).1, some (f w c).2)

/-- Write a result: data, state, sequence number and index where the operation returns them, the code, and busy clears
(DESIGN CHOICE, notes/assumptions/73.md). -/
def Chip.winFinish (c : Chip) (base : Nat) (r : WinRes) : Chip :=
  let c := match r.data with
    | some e => c.setWinData base e
    | none => c
  let c := match r.state with
    | some v => c.put (base + 8) R.WIN_STATUS_state v
    | none => c
  let c := match r.seq with
    | some v => c.put (base + 8) R.WIN_STATUS_seq v
    | none => c
  let c := match r.index with
    | some v => c.put base R.WIN_ADDR_index v
    | none => c
  let c := ((c.put (base + 8) R.WIN_STATUS_poison (b2n r.poison)).put (base + 8) R.WIN_STATUS_code r.code).put (base + 8) R.WIN_STATUS_busy 0
  { c with wins := c.wins.set base none }

/-- A sleeping slice completes a window command after its wake (spec/19 R414). -/
def Chip.winAwake (c : Chip) (base : Nat) : Bool :=
  match U.sliceOf (winOwner base) with
  | some s => c.house.sleep.look s == 0
  | none => true


/-- A block reset of the window's owner completes its command with code 0x07 (R436) (DESIGN CHOICE, notes/assumptions/73.md). -/
def Chip.winAbandon (c : Chip) (base : Nat) : Chip := if c.winBusy base then c.winFinish base { code := 7 } else c

/-- Run a window command: the go is a write of CMD (DESIGN CHOICE, notes/assumptions/73.md). -/
def State.winGo (s : State) (src : Source) (base op : Nat) (f : WinIn → Chip → Chip × WinRes) : Host.Outcome State Fault Refusal :=
  s.bus src (base + 4) true fun c => c.winGo src base op f

/-- A completion code that the spec does not state: a free value. -/
def Chip.freeCode (c : Chip) : Chip × WinRes := (c.freeEntry.2, { code := c.freeEntry.1.toNat % 256 })

end Sys2Proof.Machine
end

