-- ==== Sys2Proof/Machine/ExactMatch.lean ====
section
/-! DEFINITION. The exact-match table of a slice (spec/08_exact_match.md R169 to R195, R477): placement, probes, insertion with its chain
of moves, learning, ageing, and the operations of the exact-match and bridge domain windows, and the completion of window commands. Each
member of a slice suite has its own copy; the first member's window and engines change every copy at the same index
(spec/01_architecture.md R476), and a lookup reads its own slice's. -/

namespace Sys2Proof.Machine

open Sys2Proof

/-! ### Entries -/

namespace EmEntry

def key (e : EmEntry) : Nat := bits e.body 255 96
def result (e : EmEntry) : Nat := bits e.body 95 32
def vfrom (e : EmEntry) : Nat := bits e.body 31 16
def vuntil (e : EmEntry) : Nat := bits e.body 15 0
def valid (e : EmEntry) : Bool := bit e.state 7
def pair (e : EmEntry) : Nat := bits e.state 6 5
def learned (e : EmEntry) : Bool := bit e.state 4
def static_ (e : EmEntry) : Bool := bit e.state 3
def hit (e : EmEntry) : Bool := bit e.state 2
def age (e : EmEntry) : Nat := bits e.state 1 0
def validity (e : EmEntry) : Validity := ⟨e.valid, e.vfrom, e.vuntil⟩

end EmEntry

/-- Bit 18 of an index: the overflow store. -/
def emOvf (i : Nat) : Bool := decide (0x40000 ≤ i)

/-- Key of a sequence number: the bucket's, or the overflow position's (R180). -/
def emSeqKey (i : Nat) : Nat := if emOvf i then i else i / 4

namespace Chip

/-- The first member of slice `s`'s suite, whose window and engines act for every member (R16, R476). -/
def emHome (c : Chip) (s : Nat) : Nat := U.index (c.suiteUnit (U.slice s))

def emTab (c : Chip) (s : Nat) : EmTable := c.em.look s

def setEm (c : Chip) (s : Nat) (t : EmTable) : Chip := { c with em := c.em.set s t }

def emAt (c : Chip) (s i : Nat) : EmEntry := (c.emTab s).entries.look i

def emSeq (c : Chip) (s i : Nat) : Nat := (c.emTab s).seqs.look (emSeqKey i)

def emGranules (c : Chip) (s : Nat) : Nat := (c.image.splits.look s).em

/-- Buckets in each bank (R169). -/
def emBuckets (c : Chip) (s : Nat) : Nat := 1024 * c.emGranules s

def emOvfSize (c : Chip) (s : Nat) : Nat := 2048 * (c.image.splits.look s).ovf

/-- An index names a place of the table (Table 8-1). -/
def emIndexOk (c : Chip) (s i : Nat) : Bool :=
  if emOvf i then decide (i - 0x40000 < c.emOvfSize s) else decide (i / 4 % 0x8000 < c.emBuckets s)

/-- EM_OCC.used and EM_OVF.used, and the ovf_high event (Table 8-14, 8-15). -/
def syncEm (c : Chip) (s : Nat) : Chip :=
  let es := (c.emTab (c.emHome s)).entries
  let used := (es.filter fun p => !(emOvf p.1) && p.2.valid).length
  let ovf := (es.filter fun p => emOvf p.1 && p.2.valid).length
  let b := A.slice (c.emHome s)
  let was := c.get b R.EM_OVF_used
  let warn := c.get b R.EM_OVF_warn_at
  let c := (c.put b R.EM_OCC_used used).put b R.EM_OVF_used ovf
  c.when (warn != 0 && decide (was ≤ warn) && decide (warn < ovf)) fun c => c.put b R.EM_EVENT_ovf_high 1

/-- First word of an entry in its memory group (spec/17_memory_protection.md): bank 1 follows bank 0. -/
def emWord (c : Chip) (s i : Nat) : Nat :=
  if emOvf i then (i - 0x40000) * 4 else ((i / 0x20000) * c.emBuckets s * 4 + i % 0x20000) * 4

def emGroup (s i : Nat) : Nat := U.sliceBlk s (if emOvf i then 0x49 else 0x48)

/-- Write entries whole into slice `m`'s copy: the table, one step of each sequence number, the errors that the write covers (R173, R180,
R369). -/
def emStore (c : Chip) (m : Nat) (ws : List (Nat × EmEntry)) : Chip :=
  let t := c.emTab m
  let keys := (ws.map fun w => emSeqKey w.1).dedup
  let t := { t with entries := ws.foldl (fun es w => es.set w.1 w.2) t.entries
                    seqs := keys.foldl (fun q k => q.set k ((q.look k + 1) % 65536)) t.seqs }
  (c.setEm m t).each ws fun c w => c.each (List.range 4) fun c j => c.coverWord (Chip.emGroup m w.1) (c.emWord m w.1 + j)

/-- Write entries whole at the same index of every member's copy (R476); `f` gives a member's. -/
def emStoreAll (c : Chip) (s : Nat) (f : Chip → Nat → List (Nat × EmEntry)) : Chip :=
  (c.each (c.sliceMates s) fun c m => c.emStore m (f c m)).syncEm s

/-- Write the same entries into every member's copy. -/
def emWriteMany (c : Chip) (s : Nat) (ws : List (Nat × EmEntry)) : Chip := c.emStoreAll s fun _ _ => ws

/-- Set or clear a hit bit: no write, no sequence step (R180). -/
def emTouch (c : Chip) (s i : Nat) (e : EmEntry) : Chip :=
  c.setEm s { c.emTab s with entries := (c.emTab s).entries.set i e }

end Chip

/-! ### Placement (R170) -/

/-- CRC-32C of a key, most significant byte first, `n` bytes. -/
def emHash (seed n key : Nat) : Nat := crc32c seed (toBE n key)

/-- Index of position 0 of the candidate bucket of a key in a bank. -/
def Chip.emBucket (c : Chip) (s bank : Nat) (wide : Bool) (key : Nat) : Nat :=
  let h := emHash (if bank = 0 then 0xFFFFFFFF else 0x8F3AC561) (if wide then 40 else 20) key
  bank * 0x20000 + h % (Nat.max 1 (c.emBuckets s)) * 4

/-- The whole key of an entry: of 320 bits at the first half of a pair (R172). -/
def Chip.emKeyAt (c : Chip) (s i : Nat) : Nat :=
  let e := c.emAt s i
  if e.pair = 1 then e.key * 2 ^ 160 + (c.emAt s (i + 1)).key else e.key

/-- Every place where an entry of the key can stand, in the order of R174: bank 0, bank 1, overflow store. -/
def Chip.emPlaces (c : Chip) (s : Nat) (wide : Bool) (key : Nat) : List Nat :=
  let ovf := ((c.emTab s).entries.filter fun p => emOvf p.1).map Prod.fst
  if c.emGranules s = 0 then ovf
  else
    (List.range 4).map (fun j => c.emBucket s 0 wide key + j) ++ (List.range 4).map (fun j => c.emBucket s 1 wide key + j) ++ ovf

/-- An entry holds the key and width, whatever its accords. -/
def Chip.emKeyIs (c : Chip) (s : Nat) (wide : Bool) (key i : Nat) : Bool :=
  let e := c.emAt s i
  e.valid && e.pair == (if wide then 1 else 0) && c.emKeyAt s i == key

/-- The entries of the key that hold under an accord (R174), versioned before learned. -/
def Chip.emHolding (c : Chip) (s : Nat) (wide : Bool) (key accord : Nat) : List Nat :=
  let m := (c.emPlaces s wide key).filter fun i => c.emKeyIs s wide key i && (c.emAt s i).validity.holds accord
  m.filter (fun i => !((c.emAt s i).learned)) ++ m.filter fun i => (c.emAt s i).learned

/-- The entries that match a probe under an accord (R174); without granules every probe misses (R169). -/
def Chip.emMatches (c : Chip) (s : Nat) (wide : Bool) (key accord : Nat) : List Nat :=
  if c.emGranules s = 0 then [] else c.emHolding s wide key accord

/-- The learned entry of a key. -/
def Chip.emLearned (c : Chip) (s key : Nat) : Option Nat :=
  (c.emPlaces s false key).find? fun i => c.emKeyIs s false key i && (c.emAt s i).learned

/-- A versioned entry of a key that holds under an accord. -/
def Chip.emVersioned (c : Chip) (s : Nat) (wide : Bool) (key accord : Nat) : Option Nat :=
  (c.emPlaces s wide key).find? fun i => c.emKeyIs s wide key i && !((c.emAt s i).learned) && (c.emAt s i).validity.holds accord

/-! ### Insertion (R181 to R183) -/

/-- Entries that hold under no live accord and not under the pending accord are free (R181) (DESIGN CHOICE, notes/assumptions/39.md). -/
def Chip.deadValidity (c : Chip) (v : Validity) : Bool :=
  !(c.liveAccords.any v.holds) && !(c.pendingAccord != 0 && v.holds c.pendingAccord)

def Chip.emFree (c : Chip) (s i : Nat) : Bool :=
  let e := c.emAt s i
  !e.valid || (!e.learned && c.deadValidity e.validity)

/-- Free positions of a bucket (DESIGN CHOICE, notes/assumptions/39.md). -/
def Chip.emFreeIn (c : Chip) (s b : Nat) : List Nat := ((List.range 4).map fun j => b + j).filter fun i => c.emFree s i

/-- The candidate buckets, the one with more free positions first, bank 0 on a tie. -/
def Chip.emTwo (c : Chip) (s : Nat) (wide : Bool) (key : Nat) : List Nat :=
  let a := c.emBucket s 0 wide key
  let b := c.emBucket s 1 wide key
  if (c.emFreeIn s a).length < (c.emFreeIn s b).length then [b, a] else [a, b]

/-- A free place for a single entry in its buckets. -/
def Chip.emSpot (c : Chip) (s key : Nat) : Option Nat :=
  if c.emGranules s = 0 then none else (c.emTwo s false key).findSome? fun b => (c.emFreeIn s b).head?

/-- A free even and odd pair in a bucket. -/
def Chip.emPairIn (c : Chip) (s b : Nat) : Option Nat := [b, b + 2].find? fun i => c.emFree s i && c.emFree s (i + 1)

def Chip.emPairSpot (c : Chip) (s key : Nat) : Option Nat :=
  if c.emGranules s = 0 then none else (c.emTwo s true key).findSome? fun b => c.emPairIn s b

/-- A free overflow position, or a free even and odd pair of them. -/
def Chip.emOvfSpot (c : Chip) (s : Nat) (wide : Bool) : Option Nat :=
  if wide then
    (firstBelow (c.emOvfSize s / 2) fun i => c.emFree s (0x40000 + 2 * i) && c.emFree s (0x40000 + 2 * i + 1)).map fun i => 0x40000 + 2 * i
  else (firstBelow (c.emOvfSize s) fun i => c.emFree s (0x40000 + i)).map fun i => 0x40000 + i

/-- The bucket of an entry's key in the other bank. -/
def Chip.emAlt (c : Chip) (s i : Nat) : Nat := c.emBucket s (1 - i / 0x20000 % 2) false (c.emAt s i).key

/-- Valid single entries of a bucket, in position order (R182). -/
def Chip.emMovable (c : Chip) (s b : Nat) : List Nat :=
  ((List.range 4).map fun j => b + j).filter fun i => (c.emAt s i).valid && (c.emAt s i).pair == 0

/-- The plan of R182: `path` holds the places to move, last first, and the free target of the last. -/
def Chip.emPlan (c : Chip) (s rot : Nat) : Nat → Nat → Nat → List Nat → Option (Nat × List Nat)
  | 0, _, _, _ => none
  | fuel + 1, depth, b, path =>
    match (c.emMovable s b).findSome? fun e =>
        if path.contains e then none else (c.emFreeIn s (c.emAlt s e)).head?.map fun f => (f, e :: path) with
    | some r => some r
    | none =>
      let start := (rot + depth) % 4
      match ((List.range 4).map fun j => b + (start + j) % 4).find? fun i => (c.emMovable s b).contains i && !(path.contains i) with
      | some e => c.emPlan s rot fuel (depth + 1) (c.emAlt s e) (e :: path)
      | none => none

/-- Move one entry: it is copied, then cleared, in every member's copy, and its log record moves (R183). -/
def Chip.emMove (c : Chip) (s e f : Nat) : Chip :=
  let c := c.emStoreAll s fun c m => [(f, c.emAt m e)]
  let c := c.emStoreAll s fun c m => [(e, { c.emAt m e with state := putBits (c.emAt m e).state 7 7 0 })]
  c.moveLog (.em s e) (.em s f)

/-- Carry out the moves, the last of the path first. -/
def Chip.emMoves (c : Chip) (s : Nat) : Nat → List Nat → Chip
  | _, [] => c
  | f, e :: rest => ((c.emMove s e f).cnt (c.sliceCnt s + C.relocations) 1).emMoves s e rest

/-- The chain of moves that makes room for a key (R182): the free target of the last, and the places to move, last first. -/
def Chip.emMoveChain (c : Chip) (s rot key : Nat) : Option (Nat × List Nat) :=
  if c.emGranules s = 0 then none else c.emPlan s rot 8 1 (c.emBucket s (rot % 2) false key) []

/-- Where a new single entry goes (R181, R182), the moves made. -/
def Chip.emPlaceSingle (c : Chip) (s key : Nat) : Chip × Option Nat :=
  match c.emSpot s key with
  | some i => (c, some i)
  | none =>
    let t := c.emTab s
    let c' := c.setEm s { t with rot := t.rot + 1 }
    match c.emMoveChain s t.rot key with
    | some (f, path) => (c'.emMoves s f path, path.getLast?)
    | none => (c', c'.emOvfSpot s false)

/-- Place and write a single entry; none when the table is full (DESIGN CHOICE, notes/assumptions/39.md). -/
def Chip.emInsert (c : Chip) (s : Nat) (e : EmEntry) : Chip × Option Nat :=
  let p := c.emPlaceSingle s e.key
  match p.2 with
  | some i => (p.1.emWriteMany s [(i, e)], some i)
  | none => p

/-- Place and write a pair, which never causes a move (R181). -/
def Chip.emInsertPair (c : Chip) (s : Nat) (a b : EmEntry) : Chip × Option Nat :=
  match (c.emPairSpot s (a.key * 2 ^ 160 + b.key)).orElse fun _ => c.emOvfSpot s true with
  | some i => (c.emWriteMany s [(i, a), (i + 1, b)], some i)
  | none => (c, none)

/-- The index of an entry, and of its other half (R172). -/
def Chip.emWhole (c : Chip) (s i : Nat) : List Nat :=
  if (c.emAt s i).pair = 1 then [i, i + 1] else if (c.emAt s i).pair = 2 then [i, i - 1] else [i]

/-- Free an entry, or both halves of a pair, in one whole write. -/
def Chip.emRemove (c : Chip) (s i : Nat) : Chip :=
  c.emStoreAll s fun c m => (c.emWhole m i).map fun j => (j, { c.emAt m j with state := putBits (c.emAt m j).state 7 7 0 })

/-! ### Learn records (R191, Table 8-9) -/

def Chip.learnRecord (c : Chip) (s event index key result old : Nat) : Chip :=
  let t := c.tbs.look 0
  let e := BitVec.ofNat 256 ((event * 2 ^ 28 + index % 2 ^ 19) + nbits key 159 128 * 2 ^ 32 + nbits key 127 96 * 2 ^ 64 +
    result / 2 ^ 32 % 2 ^ 32 * 2 ^ 96 + result % 2 ^ 32 * 2 ^ 128 + t.ns * 2 ^ 160 + t.sec % 2 ^ 32 * 2 ^ 192 + old % 2 ^ 20 * 2 ^ 224)
  let r := c.pushFifo (c.emHome s) e
  r.1.when (!r.2) fun c => c.put (A.slice (c.emHome s)) R.EM_EVENT_learn_overrun 1

/-- Result of a learned entry (Table 8-10): destination bits [59:40] and the template. -/
def Chip.learnResult (c : Chip) (s dest : Nat) : Nat := 2 ^ 60 + dest * 2 ^ 40 + c.get (A.slice (c.emHome s)) R.LEARN_TEMPLATE_template

def learnedEntry (key result : Nat) (stat : Bool) : EmEntry :=
  { body := BitVec.ofNat 256 (key * 2 ^ 96 + result * 2 ^ 32), state := BitVec.ofNat 8 (0x90 + b2n stat * 8) }

/-- Insert a learned entry under R181 to R183 and post its record, learned or failed (R189). -/
def Chip.doLearn (c : Chip) (s key dest : Nat) (stat : Bool) : Chip × Option Nat :=
  let res := c.learnResult s dest
  let r := c.emInsert s (learnedEntry key res stat)
  match r.2 with
  | some i => ((r.1.cnt (r.1.sliceCnt s + C.learns) 1).learnRecord s 1 i key res 0, some i)
  | none =>
    (((r.1.cnt (r.1.sliceCnt s + C.insert_fail) 1).put (A.slice (r.1.emHome s)) R.EM_EVENT_insert_fail 1).learnRecord s 5 0x7FFFF key res 0, none)

/-- Rewrite a learned entry's result in place (R190). -/
def Chip.doMove (c : Chip) (s i dest : Nat) : Chip :=
  let e := c.emAt s i
  let old := nbits e.result 59 40
  let res := c.learnResult s dest
  ((c.emStoreAll s fun c m => [(i, { c.emAt m i with body := putBits (c.emAt m i).body 95 32 res })]).cnt (c.sliceCnt s + C.learn_moves)
    1).learnRecord s 2 i e.key res old

/-- A key leaves the recent-learn filter (R188). -/
def Chip.learnDone (c : Chip) (s key : Nat) : Chip := c.setEm s { c.emTab s with recent := (c.emTab s).recent.filter (· != key) }

/-- Remove a learned entry and post a record of an event. -/
def Chip.unlearn (c : Chip) (s i event : Nat) : Chip :=
  let e := c.emAt s i
  (c.emRemove s i).learnRecord s event i e.key e.result 0

/-- Remove every learned entry whose destination satisfies `p` (FLUSH_PORT, R195): counted in flushed. -/
def Chip.flushWhere (c : Chip) (s : Nat) (p : Nat → Bool) : Chip :=
  let gone := ((c.emTab s).entries.filter fun x => x.2.valid && x.2.learned && p x.2.result).map Prod.fst
  c.each gone fun c i => (c.unlearn s i 4).cnt (c.sliceCnt s + C.flushed) 1

/-- FLUSH_PORT with all at 1 for a port (R195). -/
def Chip.flushPortAll (c : Chip) (s port : Nat) : Chip := c.flushWhere s fun r => nbits r 57 51 == port

/-! ### Meanings of the window operations (Table 8-6) -/

def emWin (s : Nat) : Nat := A.slice s + 0x440000

/-- The validity of what a write overwrites, which its log record keeps (R160). -/
def Chip.emWas (c : Chip) (s : Nat) (i : Option Nat) : Validity :=
  match i with
  | some i => (c.emAt s i).validity
  | none => ⟨false, 0, 0⟩

/-- What READ and SEARCH return of an entry. -/
def Chip.emReturn (c : Chip) (s i : Nat) : WinRes :=
  let e := c.emAt s i
  { code := 0, data := some e.body, state := some e.state.toNat, seq := some (c.emSeq s i),
    poison := (List.range 4).any fun j => c.poisoned (Chip.emGroup s i) (c.emWord s i + j) }

/-- EM_READ. -/
def Chip.emReadOp (sl : Nat) (w : WinIn) (c : Chip) : Chip × WinRes :=
  if c.emIndexOk sl w.index then ((c.readPoison (Chip.emGroup sl w.index) (c.emWord sl w.index) 4), c.emReturn sl w.index) else (c, { code := 6 })

/-- EM_READ. -/
def execEmRead (src : Source) (sl : Nat) (s : State) : Host.Outcome State Fault Refusal :=
  s.winGo src (emWin sl) 1 (Chip.emReadOp sl)

/-- The key of a search or insert: single, or with the held first half (R179). -/
def WinIn.emKey (w : WinIn) (t : EmTable) : Option (Bool × Nat) :=
  if w.state / 32 % 4 = 2 then t.hold.map fun f => (true, bits f 255 96 * 2 ^ 160 + bits w.data 255 96)
  else some (false, bits w.data 255 96)

def Chip.emSearch (c : Chip) (s accord : Nat) (w : WinIn) : Chip × WinRes :=
  match w.emKey (c.emTab s) with
  | none => (c, { code := 6 })
  | some (wide, key) =>
    let c := c.when wide fun c => c.setEm s { c.emTab s with hold := none }
    match (c.emMatches s wide key accord).head? with
    | some i => (c, { c.emReturn s i with index := some i })
    | none => (c, { code := 1 })

/-- EM_SEARCH, under the newest accord. -/
def Chip.emSearchOp (sl : Nat) (w : WinIn) (c : Chip) : Chip × WinRes :=
  c.emSearch sl c.newest w

/-- EM_SEARCH. -/
def execEmSearch (src : Source) (sl : Nat) (s : State) : Host.Outcome State Fault Refusal :=
  s.winGo src (emWin sl) 2 (Chip.emSearchOp sl)

/-- EM_SEARCH_PENDING, under the pending accord; code 0x04 when none is open. -/
def Chip.emSearchPendingOp (sl : Nat) (w : WinIn) (c : Chip) : Chip × WinRes :=
  if c.accordState = 0 then (c, { code := 4 }) else c.emSearch sl c.pendingAccord w

/-- EM_SEARCH_PENDING. -/
def execEmSearchPending (src : Source) (sl : Nat) (s : State) : Host.Outcome State Fault Refusal :=
  s.winGo src (emWin sl) 3 (Chip.emSearchPendingOp sl)

/-- An insert lands: its entries are written at `i`, it is counted, and what they overwrite is logged (R160)
(DESIGN CHOICE, notes/assumptions/39.md). -/
def Chip.emLand (c : Chip) (s i : Nat) (ws : List (Nat × EmEntry)) : Chip × Option WinRes :=
  let was := c.emWas s (some i)
  (((c.emWriteMany s ws).cnt (c.sliceCnt s + C.inserts) 1).logWrite (.em s i) was, some { code := 0, index := some i })

/-- No place for an insert (R182). -/
def Chip.emFull (c : Chip) (s : Nat) : Chip × Option WinRes :=
  ((c.cnt (c.sliceCnt s + C.insert_fail) 1).put (A.slice s) R.EM_EVENT_insert_fail 1, some { code := 3 })

/-- Plan an insert of a single entry (R181, R182): it lands where a place is free, or waits for its chain of moves, `broken` plans of it
having failed. -/
def Chip.emPlanInsert (c : Chip) (s broken : Nat) (e : EmEntry) : Chip × Option WinRes :=
  match c.emSpot s e.key with
  | some i => c.emLand s i [(i, e)]
  | none =>
    let t := c.emTab s
    let c := c.setEm s { t with rot := t.rot + 1 }
    match c.emMoveChain s t.rot e.key with
    | some (f, path) => (c.setEm s { c.emTab s with job := some ⟨e, path, f, path.map (c.emSeq s), broken⟩ }, none)
    | none =>
      match c.emOvfSpot s false with
      | some i => c.emLand s i [(i, e)]
      | none => c.emFull s

/-- Carry out a plan's moves, the last first, each after the check of its source's sequence number against the plan, the engine's own
writes (of the buckets `mine`) allowed for (R183); `false` when a check fails, the completed moves standing (R184). -/
def Chip.emRun (c : Chip) (s : Nat) : Nat → List Nat → List (Nat × Nat) → Chip × Bool
  | _, _, [] => (c, true)
  | f, mine, (e, q) :: rest =>
    if c.emSeq s e != (q + mine.count (emSeqKey e)) % 65536 then (c, false)
    else ((c.emMove s e f).cnt (c.sliceCnt s + C.relocations) 1).emRun s e (emSeqKey e :: emSeqKey f :: mine) rest

/-- The moves of a waiting insert run, and the entry lands in the position that the first move of the chain freed; a broken plan is made
again, and after four the insert is abandoned with code 0x09 (R184). -/
def Chip.emJobStep (c : Chip) (s : Nat) (j : EmJob) : Chip × Option WinRes :=
  let c := c.setEm s { c.emTab s with job := none }
  let r := c.emRun s j.target [] (j.path.zip j.seqs)
  match r.2, j.path.getLast? with
  | true, some i => r.1.emLand s i [(i, j.entry)]
  | _, _ => if 4 ≤ j.broken + 1 then (r.1, some { code := 9 }) else r.1.emPlanInsert s (j.broken + 1) j.entry

/-- EM_INSERT (R179, R181): judged first, then placed. -/
def Chip.emInsertOp (sl : Nat) (w : WinIn) (c : Chip) : Chip × Option WinRes :=
  match w.emKey (c.emTab sl) with
  | none => (c, some { code := 6 })
  | some (wide, key) =>
    if w.state / 32 % 4 = 1 || w.state / 32 % 4 = 3 then (c, some { code := 6 })
    else
      let new : Validity := ⟨true, bits w.data 31 16, bits w.data 15 0⟩
      match c.judge w.src ⟨false, 0, 0⟩ new false with
      | .refuse r => (c.refuseWrite r (emWin sl) w.index, some { code := 5 })
      | .accept _ =>
        let first := (c.emTab sl).hold.getD 0
        let c := c.when wide fun c => c.setEm sl { c.emTab sl with hold := none }
        if !(c.emHolding sl wide key c.pendingAccord).isEmpty then (c, some { code := 2 })
        else if wide then
          match (c.emPairSpot sl key).orElse fun _ => c.emOvfSpot sl true with
          | some i =>
            c.emLand sl i [(i, { body := putBits first 31 0 (bits w.data 31 0), state := 0xA0 }),
              (i + 1, { body := putBits w.data 95 32 0, state := 0xC0 })]
          | none => c.emFull sl
        else c.emPlanInsert sl 0 { body := w.data, state := 0x80 }

/-- EM_INSERT (R179, R181). -/
def execEmInsert (src : Source) (sl : Nat) (s : State) : Host.Outcome State Fault Refusal :=
  s.bus src (emWin sl + 4) true fun c => c.winLater src (emWin sl) 4 (Chip.emInsertOp sl)

/-- The insert that a window still works on. -/
def Chip.emJobAt (c : Chip) (base : Nat) : Option (Nat × EmJob) :=
  ((List.range 8).find? fun s => base == emWin s).bind fun s => (c.emTab s).job.map fun j => (s, j)

/-- WINDOW_COMMAND_COMPLETE (R436): the result is written; an insert that waits for its moves carries them out first. -/
def execWindowCommandComplete (base : Nat) (s : State) : Host.Outcome State Fault Refusal :=
  s.run .core fun c =>
    if !(c.winBusy base && c.winAwake base) then c
    else
      match c.wins.look base, c.emJobAt base with
      | some r, _ => c.winFinish base r
      | none, some (sl, j) =>
        if c.inReset (winOwner base) then c
        else
          match c.emJobStep sl j with
          | (c, some r) => c.winFinish base r
          | (c, none) => c
      | none, none => c

/-- EM_WRITE_IF_SEQ (R180, R477). -/
def Chip.emWriteOp (sl : Nat) (w : WinIn) (c : Chip) : Chip × WinRes :=
  if !(c.emIndexOk sl w.index) then (c, { code := 6 })
  else
    let e := c.emAt sl w.index
    let v := w.state / 128 % 2 = 1
    let data := if e.pair = 2 then putBits w.data 95 32 0 else w.data
    if w.seq != c.emSeq sl w.index then (c, { code := 4 })
    else if v && !e.valid then (c, { code := 6 })
    else if e.valid && e.learned then (c, { code := 8 })
    else
      let new : Validity := ⟨v, bits w.data 31 16, bits w.data 15 0⟩
      match c.judge w.src e.validity new (bits e.body 255 32 == bits data 255 32) with
      | .refuse r => (c.refuseWrite r (emWin sl) w.index, { code := 5 })
      | .accept logged =>
        let c := c.when logged fun c => c.logWrite (.em sl w.index) e.validity
        let new (x : EmEntry) (j : Nat) : EmEntry :=
          { body := if j = w.index then data else putBits x.body 31 0 (bits data 31 0), state := putBits x.state 7 7 (b2n v) }
        (c.emStoreAll sl fun c m => (c.emWhole m w.index).map fun j => (j, new (c.emAt m j) j), { code := 0 })

/-- EM_WRITE_IF_SEQ (R180, R477). -/
def execEmWriteIfSeq (src : Source) (sl : Nat) (s : State) : Host.Outcome State Fault Refusal :=
  s.winGo src (emWin sl) 5 (Chip.emWriteOp sl)

/-- The checks of R187 that a LEARN operation can fail (R169, R191): learning on, a bridge key of a valid bridge domain that learns, the
I/G bit 0 (DESIGN CHOICE, notes/assumptions/39.md). -/
def Chip.learnOpOk (c : Chip) (s key : Nat) : Bool :=
  let bd := (c.emTab s).bd.look (nbits key 155 144)
  c.emGranules s != 0 && c.on (A.slice s) R.LEARN_CTRL_enable && nbits key 159 156 == c.get (A.slice s) R.LEARN_CTRL_bridge_kind &&
    bit bd 31 && bit bd 30 && nbits key 136 136 == 0

/-- EM_LEARN (R191): the learning engine takes the request with its checks but those of R188; where one of them fails it learns nothing and
the spec states no completion code (DESIGN CHOICE, notes/assumptions/39.md). -/
def Chip.emLearnOp (sl : Nat) (w : WinIn) (c : Chip) : Chip × WinRes :=
  let key := bits w.data 255 96
  let dest := bits w.data 91 72
  if !(c.learnOpOk sl key) then c.freeCode
  else if (c.emVersioned sl false key c.newest).isSome then (c, { code := 8 })
  else
    match c.emLearned sl key with
    | some i =>
      if nbits (c.emAt sl i).result 59 40 = dest then (c, { code := 2 })
      else if (c.emAt sl i).static_ || !(c.on (A.slice (c.emHome sl)) R.LEARN_CTRL_move_enable) then (c, { code := 2 })
      else (c.doMove sl i dest, { code := 0, index := some i })
    | none =>
      let r := c.doLearn sl key dest (w.state / 8 % 2 = 1)
      (r.1, if r.2.isSome then { code := 0, index := r.2 } else { code := 3 })

/-- EM_LEARN (R191). -/
def execEmLearn (src : Source) (sl : Nat) (s : State) : Host.Outcome State Fault Refusal :=
  s.winGo src (emWin sl) 6 (Chip.emLearnOp sl)

/-- EM_UNLEARN. -/
def Chip.emUnlearnOp (sl : Nat) (w : WinIn) (c : Chip) : Chip × WinRes :=
  match c.emLearned sl (bits w.data 255 96) with
  | some i => (c.unlearn sl i 6, { code := 0 })
  | none => (c, { code := 1 })

/-- EM_UNLEARN. -/
def execEmUnlearn (src : Source) (sl : Nat) (s : State) : Host.Outcome State Fault Refusal :=
  s.winGo src (emWin sl) 7 (Chip.emUnlearnOp sl)

/-- EM_FLUSH_PORT: DATA0 names all, subscriber and port. -/
def Chip.emFlushOp (sl : Nat) (w : WinIn) (c : Chip) : Chip × WinRes :=
  let port := bits w.data 6 0
  if bit w.data 31 then (c.flushPortAll sl port, { code := 0 })
  else
    let sub := bits w.data 18 8
    (c.flushWhere sl fun r => nbits r 57 51 == port && nbits r 50 40 == sub && (nbits r 59 58 == 1 || sub == 0), { code := 0 })

/-- EM_FLUSH_PORT. -/
def execEmFlushPort (src : Source) (sl : Nat) (s : State) : Host.Outcome State Fault Refusal :=
  s.winGo src (emWin sl) 8 (Chip.emFlushOp sl)

/-- EM_HOLD_FIRST. -/
def Chip.emHoldOp (sl : Nat) (w : WinIn) (c : Chip) : Chip × WinRes :=
  (c.setEm sl { c.emTab sl with hold := some w.data }, { code := 0 })

/-- EM_HOLD_FIRST. -/
def execEmHoldFirst (src : Source) (sl : Nat) (s : State) : Host.Outcome State Fault Refusal :=
  s.winGo src (emWin sl) 9 (Chip.emHoldOp sl)

/-- The insertion engine of slice `s` runs and is at no insert: the first member's, awake, its slice and exact-match unit out of reset
(R16, R23, R30, R476). -/
def Chip.emEngine (c : Chip) (s : Nat) : Bool :=
  c.firstOf (U.slice s) && c.alive (U.slice s) && c.blockUp s 0x48 && c.house.sleep.look s == 0 && (c.emTab s).job.isNone

/-- OVERFLOW_RETURN (R185): the overflow entry at a position goes back to a bucket with room (DESIGN CHOICE, notes/assumptions/39.md). -/
def execOverflowReturn (sl index : Nat) (s : State) : Host.Outcome State Fault Refusal :=
  s.run .core fun c =>
    if c.emEngine sl && emOvf index && (c.emAt sl index).valid then
      let e := c.emAt sl index
      if e.pair = 0 then
        match c.emSpot sl e.key with
        | some f => (c.emMove sl index f).cnt (c.sliceCnt sl + C.ovf_returns) 1
        | none => c
      else if e.pair = 1 then
        match c.emPairSpot sl (c.emKeyAt sl index) with
        | some f =>
          let c := (c.emStoreAll sl fun c m => [(f, c.emAt m index), (f + 1, c.emAt m (index + 1))]).emRemove sl index
          ((c.moveLog (.em sl index) (.em sl f)).moveLog (.em sl (index + 1)) (.em sl (f + 1))).cnt (c.sliceCnt sl + C.ovf_returns) 1
        | none => c
      else c
    else c

/-- The window of the bridge domain table (R193). -/
def bdWin (s : Nat) : Nat := A.slice s + 0x441000

/-- BD_READ. -/
def Chip.bdReadOp (sl : Nat) (w : WinIn) (c : Chip) : Chip × WinRes :=
  if w.index < 4096 then (c, { code := 0, data := some ((c.emTab sl).bd.look w.index) }) else (c, { code := 6 })

/-- BD_READ. -/
def execBdRead (src : Source) (sl : Nat) (s : State) : Host.Outcome State Fault Refusal :=
  s.winGo src (bdWin sl) 1 (Chip.bdReadOp sl)

/-- A bridge domain entry changes in every member's copy (R476). -/
def Chip.bdSet (c : Chip) (s i v : Nat) : Chip :=
  c.each (c.sliceMates s) fun c m => c.setEm m { c.emTab m with bd := (c.emTab m).bd.set i (BitVec.ofNat 256 v) }

/-- BD_WRITE (R193). -/
def Chip.bdWriteOp (sl : Nat) (w : WinIn) (c : Chip) : Chip × WinRes :=
  if 4096 ≤ w.index || bits w.data 29 28 = 3 || bits w.data 27 16 != 0 then (c, { code := 6 })
  else (c.bdSet sl w.index (bits w.data 31 0), { code := 0 })

/-- BD_WRITE (R193). -/
def execBdWrite (src : Source) (sl : Nat) (s : State) : Host.Outcome State Fault Refusal :=
  s.winGo src (bdWin sl) 2 (Chip.bdWriteOp sl)

/-! ### Learning and ageing engines -/

/-- LEARN_INSERT (R189): the oldest queued request is inserted; a key that meanwhile has an entry is let go. -/
def execLearnInsert (sl : Nat) (s : State) : Host.Outcome State Fault Refusal :=
  s.run .core fun c =>
    if !(c.emEngine sl) then c
    else
      match (c.emTab sl).queue with
      | [] => c
      | q :: rest =>
        if (c.emLearned sl q.key).isSome then c
        else
          let c := (c.setEm sl { c.emTab sl with queue := rest }).learnDone sl q.key
          if (c.emVersioned sl false q.key c.newest).isSome then c else (c.doLearn sl q.key q.dest false).1

/-- LEARN_MOVE (R190): the oldest queued request names a learned entry, whose result is rewritten in place. -/
def execLearnMove (sl : Nat) (s : State) : Host.Outcome State Fault Refusal :=
  s.run .core fun c =>
    if !(c.emEngine sl) then c
    else
      match (c.emTab sl).queue with
      | [] => c
      | q :: rest =>
        match c.emLearned sl q.key with
        | none => c
        | some i =>
          let c := (c.setEm sl { c.emTab sl with queue := rest }).learnDone sl q.key
          if (c.emAt sl i).static_ then c.cnt (c.sliceCnt sl + C.learn_static_conflict) 1
          else if nbits (c.emAt sl i).result 59 40 != q.dest && c.on (A.slice (c.emHome sl)) R.LEARN_CTRL_move_enable then c.doMove sl i q.dest
          else c

/-- The ager's next visit of an index is due: pass_s seconds after the one before (R194). -/
def Chip.agerDue (c : Chip) (s i : Nat) : Bool :=
  match (c.emTab s).visited.look i with
  | none => true
  | some t => c.passedUs t (c.get (A.slice s) R.AGE_CTRL_pass_s * 1000000)

/-- The ager changes the hit bit and the age of an entry in every member's copy (R476). -/
def Chip.agerPut (c : Chip) (s i age : Nat) : Chip :=
  c.emStoreAll s fun c m => [(i, { c.emAt m i with state := putBits (putBits (c.emAt m i).state 2 2 0) 1 0 age })]

/-- AGER_VISIT (R194, R195): an entry counts as hit when its hit bit is set in any member's copy (R476). -/
def execAgerVisit (sl index : Nat) (s : State) : Host.Outcome State Fault Refusal :=
  s.run .core fun c =>
    let e := c.emAt sl index
    let b := A.slice sl
    if c.emEngine sl && c.on b R.AGE_CTRL_enable && e.valid && e.learned && !e.static_ && c.agerDue sl index then
      let hit := (c.sliceMates sl).any fun m => (c.emAt m index).hit
      let c := c.setEm sl { c.emTab sl with visited := (c.emTab sl).visited.set index (some c.now) }
      if hit then c.agerPut sl index 0
      else if c.get b R.AGE_CTRL_limit ≤ e.age + 1 then (c.unlearn sl index 3).cnt (c.sliceCnt sl + C.aged) 1
      else c.agerPut sl index (e.age + 1)
    else c

end Sys2Proof.Machine
end

