-- ==== Sys2Proof/Machine/LpmTcam.lean ====
section
/-! DEFINITION. The LPM copies and the TCAMs (spec/09_lpm_and_tcam.md R197 to R220): tables, probes and searches, and the operations of
the LPM entry, filter and TCAM windows. -/

namespace Sys2Proof.Machine

open Sys2Proof

/-! ### LPM -/

namespace LpmSlot

def valid (e : LpmSlot) : Bool := bit e.state 7
def v6 (e : LpmSlot) : Bool := bit e.state 6
def second (e : LpmSlot) : Bool := bit e.state 5

end LpmSlot

/-- Fields of an entry, one slot (IPv4) or two (Table 9-1, 9-2). -/
structure LpmEntry where
  v6 : Bool
  ctx : Nat
  prefix_ : Nat
  length : Nat
  result : Nat
  validity : Validity
deriving DecidableEq, Repr

/-- Read an entry out of its slot and the next. -/
def lpmEntry (a b : LpmSlot) : LpmEntry :=
  if a.v6 then
    { v6 := true, ctx := bits b.data 127 112, prefix_ := a.data.toNat, length := bits b.data 111 104, result := bits b.data 103 64,
      validity := ⟨a.valid, bits b.data 31 16, bits b.data 15 0⟩ }
  else
    { v6 := false, ctx := bits a.data 127 112, prefix_ := bits a.data 111 80, length := bits a.data 39 32, result := bits a.data 79 40,
      validity := ⟨a.valid, bits a.data 31 16, bits a.data 15 0⟩ }

/-- Address width of a family. -/
def famBits (v6 : Bool) : Nat := if v6 then 128 else 32

/-- An address truncated to `n` bits (R198). -/
def truncTo (v6 : Bool) (n addr : Nat) : Nat := addr / 2 ^ (famBits v6 - n) * 2 ^ (famBits v6 - n)

/-- Lengths that a family has (R198). -/
def lenOk (v6 : Bool) (n : Nat) : Bool := if v6 then decide (25 ≤ n) && decide (n ≤ 128) else decide (n ≤ 32)

namespace Chip

/-- The first member of half `h`'s suite, whose registers and windows act for every member (spec/01_architecture.md R16, R476). -/
def lpmHome (c : Chip) (h : Nat) : Nat := U.index (c.suiteUnit (U.half h))

def lpmTab (c : Chip) (h : Nat) : LpmCopy := c.lpm.look h

def setLpm (c : Chip) (h : Nat) (t : LpmCopy) : Chip := { c with lpm := c.lpm.set h t }

/-- Address of a length's descriptor, less the offset of LPM_LEN_V4 or LPM_LEN_V6. -/
def lenBase (c : Chip) (h : Nat) (v6 : Bool) (n : Nat) : Nat :=
  A.half (c.lpmHome h) + (if v6 then R.LPM_LEN_V6 - R.LPM_LEN_V4 + 4 * (n - 25) else 4 * n)

def lenEnabled (c : Chip) (h : Nat) (v6 : Bool) (n : Nat) : Bool := lenOk v6 n && c.on (c.lenBase h v6 n) R.LPM_LEN_V4_enable

def lpmLines (c : Chip) (h : Nat) : Nat := c.get (A.half (c.lpmHome h)) R.LPM_CONFIG_lines

/-- Home line in a bank (R198). -/
def lpmLine (c : Chip) (h bank : Nat) (v6 : Bool) (n ctx pfx : Nat) : Nat :=
  let k := c.get (c.lenBase h v6 n) R.LPM_LEN_V4_log2_lines
  let bytes := toBE 2 ctx ++ (toBE (famBits v6 / 8) (truncTo v6 n pfx)).take ((n + 7) / 8)
  c.get (c.lenBase h v6 n) R.LPM_LEN_V4_base_line + crc32c (if bank = 0 then 0xFFFFFFFF else 0x8F3AC561) bytes % 2 ^ k

/-- Index of slot 0 of a line. -/
def lpmIndex (bank line : Nat) : Nat := bank * 2 ^ 20 + line % 2 ^ 17 * 8

def lpmSlotAt (c : Chip) (h i : Nat) : LpmSlot := (c.lpmTab h).slots.look i

def lpmAt (c : Chip) (h i : Nat) : LpmEntry := lpmEntry (c.lpmSlotAt h i) (c.lpmSlotAt h (i + 1))

def lpmSeq (c : Chip) (h i : Nat) : Nat := (c.lpmTab h).seqs.look (i / 8)

/-- Where a slot's words lie: granules in slice order, after the exact-match granules (spec/17_memory_protection.md example). -/
def lpmWord (c : Chip) (h i : Nat) : Nat × Nat :=
  let line := i / 8 % 2 ^ 17
  let slices := [4 * h, 4 * h + 1, 4 * h + 2, 4 * h + 3]
  let rec go : List Nat → Nat → Nat × Nat
    | [], g => (4 * h, g)
    | s :: t, g => if g < (c.image.splits.look s).lpm then (s, g) else go t (g - (c.image.splits.look s).lpm)
  let p := go slices (line / 1024)
  (U.sliceBlk p.1 0x48, ((c.image.splits.look p.1).em + p.2) * 32768 + (i / 2 ^ 20 * 1024 + line % 1024) * 16 + i % 8 * 2)

/-- Write slots of one line whole in half `h`'s copy (R199, R208). -/
def lpmStore (c : Chip) (h : Nat) (ws : List (Nat × LpmSlot)) : Chip :=
  let t := c.lpmTab h
  let lines := (ws.map fun w => w.1 / 8).dedup
  let t := { t with slots := ws.foldl (fun m w => m.set w.1 w.2) t.slots
                    seqs := lines.foldl (fun q k => q.set k ((q.look k + 1) % 65536)) t.seqs }
  (c.setLpm h t).each ws fun c w => c.each [0, 1] fun c j => c.coverWord (c.lpmWord h w.1).1 ((c.lpmWord h w.1).2 + j)

/-- Write slots of one line whole in every member's copy (R476). -/
def lpmWrite (c : Chip) (h : Nat) (ws : List (Nat × LpmSlot)) : Chip := c.each (c.halfMates h) fun c m => c.lpmStore m ws

/-- Slots of the two home lines of a length, bank 0 first. -/
def lpmPlaces (c : Chip) (h : Nat) (v6 : Bool) (n ctx addr : Nat) : List Nat :=
  [0, 1].flatMap fun b => ((List.range 8).filter fun j => !v6 || j % 2 == 0).map fun j => lpmIndex b (c.lpmLine h b v6 n ctx addr) + j

/-- An entry has this family, length, context and truncated prefix, whatever its accords. -/
def lpmKeyIs (c : Chip) (h : Nat) (v6 : Bool) (n ctx addr i : Nat) : Bool :=
  let s := c.lpmSlotAt h i
  let e := c.lpmAt h i
  s.valid && !s.second && e.v6 == v6 && e.length == n && e.ctx == ctx && e.prefix_ == truncTo v6 n addr

/-- The entries that a probe of one length matches under an accord (R199). -/
def lpmMatches (c : Chip) (h : Nat) (v6 : Bool) (n ctx addr accord : Nat) : List Nat :=
  (c.lpmPlaces h v6 n ctx addr).filter fun i => c.lpmKeyIs h v6 n ctx addr i && (c.lpmAt h i).validity.holds accord

/-- The index of the first home line, bank 0 before bank 1, with a poisoned word (R200). -/
def lpmPoisoned (c : Chip) (h : Nat) (v6 : Bool) (n ctx addr : Nat) : Option Nat :=
  ([0, 1].map fun b => lpmIndex b (c.lpmLine h b v6 n ctx addr)).find? fun i => (List.range 16).any fun j =>
    c.poisoned (c.lpmWord h i).1 ((c.lpmWord h i).2 + j)

/-- A probe reads the two home lines: correctable bytes are corrected for it (spec/17_memory_protection.md R375). -/
def lpmSee (c : Chip) (h : Nat) (v6 : Bool) (n ctx addr : Nat) : Chip :=
  c.each ([0, 1].map fun b => lpmIndex b (c.lpmLine h b v6 n ctx addr)) fun c i => c.seeWords (c.lpmWord h i).1 (c.lpmWord h i).2 16

/-- Index of the IPv6 filter: 16 bits of the CRC of address bits [127:104] (R201). -/
def h6 (addr : Nat) : Nat := crc32c 0xFFFFFFFF (toBE 3 (nbits addr 127 104)) % 65536

/-- The lengths that a lookup probes, longest first (R202): set in the filter entry and enabled; `all` when the entry is poisoned (R203). -/
def lpmLengths (c : Chip) (h : Nat) (v6 : Bool) (addr : Nat) (all : Bool) : List Nat :=
  let has (n : Nat) : Bool :=
    all || (if v6 then bit ((c.lpmTab h).filter6.look (h6 addr)) (n - 1) else bit ((c.lpmTab h).filter4.look (nbits addr 31 16)) (n - 1))
  ((List.range 129).reverse.filter fun n => decide (1 ≤ n) && lenOk v6 n && c.lenEnabled h v6 n && has n)

/-- A length's table holds a valid entry (R210). -/
def lenHolds (c : Chip) (h : Nat) (v6 : Bool) (n : Nat) : Bool :=
  (c.lpmTab h).slots.any fun p => p.2.valid && !p.2.second && p.2.v6 == v6 && (c.lpmAt h p.1).length == n

end Chip

def lpmWin (h : Nat) : Nat := A.half h + 0x402080
def filterWin (h : Nat) (v6 : Bool) : Nat := A.half h + (if v6 then 0x402040 else 0x402000)

/-- The slots that DATA and CMD.state give; reserved bits of the odd slot are zero (Table 9-2). -/
def WinIn.lpmSlots (w : WinIn) : LpmSlot × LpmSlot :=
  let st := BitVec.ofNat 8 w.state
  ({ data := BitVec.ofNat 128 (bits w.data 127 0), state := putBits (putBits st 5 5 0) 4 0 0 },
   { data := putBits (BitVec.ofNat 128 (bits w.data 255 128)) 63 32 0, state := putBits (putBits st 5 5 1) 4 0 0 })

def WinIn.lpmEntry (w : WinIn) : LpmEntry := Sys2Proof.Machine.lpmEntry w.lpmSlots.1 w.lpmSlots.2

/-- Prefix bits beyond the length are 0 (R207). -/
def LpmEntry.cut (e : LpmEntry) : Bool := e.prefix_ == truncTo e.v6 e.length e.prefix_

/-- The entry is cut to its length, and that is one of the family (R207). -/
def LpmEntry.ok (e : LpmEntry) : Bool := lenOk e.v6 e.length && e.cut

/-- Words of the entry at a slot: both slots' of an IPv6 entry. -/
def Chip.lpmWords (c : Chip) (h i : Nat) : Nat := if (c.lpmSlotAt h i).v6 && !(c.lpmSlotAt h i).second then 4 else 2

def Chip.lpmReturn (c : Chip) (h i : Nat) : WinRes :=
  let a := c.lpmSlotAt h i
  let b := c.lpmSlotAt h (i + 1)
  { code := 0, data := some (BitVec.ofNat 256 (a.data.toNat + (if a.v6 && !a.second then b.data.toNat * 2 ^ 128 else 0))),
    state := some a.state.toNat, seq := some (c.lpmSeq h i),
    poison := (List.range (c.lpmWords h i)).any fun j => c.poisoned (c.lpmWord h i).1 ((c.lpmWord h i).2 + j) }

/-- An index names a slot that is present. -/
def Chip.lpmIndexOk (c : Chip) (h i : Nat) : Bool := decide (i < 2 ^ 21) && decide (i / 8 % 2 ^ 17 < c.lpmLines h)

/-- LPM_READ (R208). -/
def Chip.lpmReadOp (h : Nat) (w : WinIn) (c : Chip) : Chip × WinRes :=
  if c.lpmIndexOk h w.index then
    (c.readPoison (c.lpmWord h w.index).1 (c.lpmWord h w.index).2 (c.lpmWords h w.index), c.lpmReturn h w.index)
  else (c, { code := 6 })

/-- LPM_READ (R208). -/
def execLpmRead (src : Source) (h : Nat) (s : State) : Host.Outcome State Fault Refusal :=
  s.winGo src (lpmWin h) 1 (Chip.lpmReadOp h)

def Chip.lpmSearch (c : Chip) (h accord : Nat) (w : WinIn) : Chip × WinRes :=
  let e := w.lpmEntry
  if !(lenOk e.v6 e.length) || !(c.lenEnabled h e.v6 e.length) then (c, { code := 1 })
  else
    match (c.lpmMatches h e.v6 e.length e.ctx e.prefix_ accord).head? with
    | some i => (c, { c.lpmReturn h i with index := some i })
    | none => (c, { code := 1 })

/-- LPM_SEARCH (R208). -/
def Chip.lpmSearchOp (h : Nat) (w : WinIn) (c : Chip) : Chip × WinRes :=
  c.lpmSearch h c.newest w

/-- LPM_SEARCH (R208). -/
def execLpmSearch (src : Source) (h : Nat) (s : State) : Host.Outcome State Fault Refusal :=
  s.winGo src (lpmWin h) 2 (Chip.lpmSearchOp h)

/-- LPM_SEARCH_PENDING (R208). -/
def Chip.lpmSearchPendingOp (h : Nat) (w : WinIn) (c : Chip) : Chip × WinRes :=
  if c.accordState = 0 then (c, { code := 4 }) else c.lpmSearch h c.pendingAccord w

/-- LPM_SEARCH_PENDING (R208). -/
def execLpmSearchPending (src : Source) (h : Nat) (s : State) : Host.Outcome State Fault Refusal :=
  s.winGo src (lpmWin h) 3 (Chip.lpmSearchPendingOp h)

/-- A slot is free under the terms of R181; an IPv6 second half goes with its first. -/
def Chip.lpmFree (c : Chip) (h i : Nat) : Bool :=
  let a := c.lpmSlotAt h i
  let first := if a.second then i - 1 else i
  !a.valid || c.deadValidity (c.lpmAt h first).validity

/-- Free places of a line for an entry: slots, or even and odd pairs (DESIGN CHOICE, notes/assumptions/41.md). -/
def Chip.lpmFreeIn (c : Chip) (h line0 : Nat) (v6 : Bool) : List Nat :=
  if v6 then ([0, 2, 4, 6].map fun j => line0 + j).filter fun i => c.lpmFree h i && c.lpmFree h (i + 1)
  else ((List.range 8).map fun j => line0 + j).filter fun i => c.lpmFree h i

/-- Free slots of a line, for the choice between the home lines. -/
def Chip.lpmRoom (c : Chip) (h line0 : Nat) : Nat := ((List.range 8).filter fun j => c.lpmFree h (line0 + j)).length

/-- Where INSERT places an entry (R208) (DESIGN CHOICE, notes/assumptions/41.md). -/
def Chip.lpmSpot (c : Chip) (h : Nat) (e : LpmEntry) : Option Nat :=
  let l0 := Chip.lpmIndex 0 (c.lpmLine h 0 e.v6 e.length e.ctx e.prefix_)
  let l1 := Chip.lpmIndex 1 (c.lpmLine h 1 e.v6 e.length e.ctx e.prefix_)
  (if c.lpmRoom h l0 < c.lpmRoom h l1 then [l1, l0] else [l0, l1]).findSome? fun l => (c.lpmFreeIn h l e.v6).head?

/-- A free slot that is half of a dead IPv6 entry frees the other half with it. -/
def Chip.lpmPlace (c : Chip) (h i : Nat) (a b : LpmSlot) : Chip :=
  if a.v6 then c.lpmWrite h [(i, a), (i + 1, b)]
  else
    let old := c.lpmSlotAt h i
    if old.valid && old.v6 then
      let j := if old.second then i - 1 else i + 1
      c.lpmWrite h [(i, a), (j, { c.lpmSlotAt h j with state := 0 })]
    else c.lpmWrite h [(i, a)]

/-- The validity of what a write at a slot overwrites (R160): an IPv6 entry's stands in its first slot's valid bit and its odd slot. -/
def Chip.lpmWas (c : Chip) (h i : Nat) : Validity :=
  let first := if (c.lpmSlotAt h i).second then i - 1 else i
  { (c.lpmAt h first).validity with valid := (c.lpmSlotAt h i).valid }

/-- LPM_INSERT (R208). -/
def Chip.lpmInsertOp (h : Nat) (w : WinIn) (c : Chip) : Chip × WinRes :=
  let e := w.lpmEntry
  if !e.ok || !(c.lenEnabled h e.v6 e.length) then (c, { code := 6 })
  else
    match c.judge w.src ⟨false, 0, 0⟩ { e.validity with valid := true } false with
    | .refuse r => (c.refuseWrite r (lpmWin h) w.index, { code := 5 })
    | .accept _ =>
      if !(c.lpmMatches h e.v6 e.length e.ctx e.prefix_ c.pendingAccord).isEmpty then (c, { code := 2 })
      else
        match c.lpmSpot h e with
        | none => (c, { code := 3 })
        | some i =>
          let a := { w.lpmSlots.1 with state := putBits w.lpmSlots.1.state 7 7 1 }
          let b := { w.lpmSlots.2 with state := putBits w.lpmSlots.2.state 7 7 1 }
          ((c.lpmPlace h i a b).logWrite (.lpm h i) (c.lpmWas h i), { code := 0, index := some i })

/-- LPM_INSERT (R208). -/
def execLpmInsert (src : Source) (h : Nat) (s : State) : Host.Outcome State Fault Refusal :=
  s.winGo src (lpmWin h) 4 (Chip.lpmInsertOp h)

/-- LPM_WRITE_IF_SEQ (R208). -/
def Chip.lpmWriteOp (h : Nat) (w : WinIn) (c : Chip) : Chip × WinRes :=
  let e := w.lpmEntry
  let v := w.state / 128 % 2 = 1
  let old := c.lpmSlotAt h w.index
  let cur := c.lpmAt h w.index
  let home := [0, 1].any fun b => w.index / 8 * 8 == Chip.lpmIndex b (c.lpmLine h b e.v6 e.length e.ctx e.prefix_)
  if !(c.lpmIndexOk h w.index) then (c, { code := 6 })
  else if w.seq != c.lpmSeq h w.index then (c, { code := 4 })
  else if v && !old.valid then (c, { code := 6 })
  else if old.valid && (old.second || old.v6 != e.v6) then (c, { code := 6 })
  else if e.v6 && w.index % 2 == 1 then (c, { code := 6 })
  else if !e.cut then (c, { code := 6 })
  else if v && (!e.ok || !(c.lenEnabled h e.v6 e.length) || !home) then (c, { code := 6 })
  else
    let same := cur.ctx == e.ctx && cur.prefix_ == e.prefix_ && cur.length == e.length && cur.result == e.result
    match c.judge w.src { cur.validity with valid := old.valid } ⟨v, e.validity.vfrom, e.validity.vuntil⟩ same with
    | .refuse r => (c.refuseWrite r (lpmWin h) w.index, { code := 5 })
    | .accept logged =>
      let c := c.when logged fun c => c.logWrite (.lpm h w.index) { cur.validity with valid := old.valid }
      if e.v6 then (c.lpmWrite h [(w.index, w.lpmSlots.1), (w.index + 1, w.lpmSlots.2)], { code := 0 })
      else (c.lpmWrite h [(w.index, w.lpmSlots.1)], { code := 0 })

/-- LPM_WRITE_IF_SEQ (R208). -/
def execLpmWriteIfSeq (src : Source) (h : Nat) (s : State) : Host.Outcome State Fault Refusal :=
  s.winGo src (lpmWin h) 5 (Chip.lpmWriteOp h)

/-! ### Filter windows (R209) -/

def Chip.filterEntry (c : Chip) (h : Nat) (v6 : Bool) (i : Nat) : Nat :=
  if v6 then ((c.lpmTab h).filter6.look i).toNat else ((c.lpmTab h).filter4.look i).toNat

/-- Words of a filter entry in the half's filter group (spec/17_memory_protection.md Table 17-1), IPv4 entries first: the first, and how
many. -/
def filterWords (v6 : Bool) (i : Nat) : Nat × Nat := if v6 then (32768 + 2 * i, 2) else (i / 2, 1)

/-- Write a filter entry whole in half `h`'s copy. -/
def Chip.filterStore (c : Chip) (h : Nat) (v6 : Bool) (i v : Nat) : Chip :=
  let t := c.lpmTab h
  if v6 then
    ((c.setLpm h { t with filter6 := t.filter6.set i (BitVec.ofNat 128 v) }).coverWord (U.halfBlk h 0x10) (32768 + 2 * i)).coverWord
      (U.halfBlk h 0x10) (32768 + 2 * i + 1)
  else (c.setLpm h { t with filter4 := t.filter4.set i (BitVec.ofNat 32 v) }).coverWord (U.halfBlk h 0x10) (i / 2)

/-- Write a filter entry in every member's copy (R476). -/
def Chip.setFilter (c : Chip) (h : Nat) (v6 : Bool) (i v : Nat) : Chip := c.each (c.halfMates h) fun c m => c.filterStore m v6 i v

/-- The filter entry that a lookup reads is poisoned (R203). -/
def Chip.filterPoisoned (c : Chip) (h : Nat) (v6 : Bool) (i : Nat) : Bool :=
  if v6 then c.poisoned (U.halfBlk h 0x10) (32768 + 2 * i) || c.poisoned (U.halfBlk h 0x10) (32768 + 2 * i + 1)
  else c.poisoned (U.halfBlk h 0x10) (i / 2)

/-- FILTER_READ. -/
def Chip.filterReadOp (h : Nat) (v6 : Bool) (w : WinIn) (c : Chip) : Chip × WinRes :=
  if 65536 ≤ w.index then (c, { code := 6 })
  else
    (c.readPoison (U.halfBlk h 0x10) (filterWords v6 w.index).1 (filterWords v6 w.index).2,
      { code := 0, data := some (BitVec.ofNat 256 (c.filterEntry h v6 w.index)), poison := c.filterPoisoned h v6 w.index })

/-- FILTER_READ. -/
def execFilterRead (src : Source) (h : Nat) (v6 : Bool) (s : State) : Host.Outcome State Fault Refusal :=
  s.winGo src (filterWin h v6) 1 (Chip.filterReadOp h v6)

/-- FILTER_WRITE. -/
def Chip.filterWriteOp (h : Nat) (v6 : Bool) (w : WinIn) (c : Chip) : Chip × WinRes :=
  if 65536 ≤ w.index || (v6 && bits w.data 23 0 != 0) then (c, { code := 6 })
  else (c.setFilter h v6 w.index (if v6 then bits w.data 127 0 else bits w.data 31 0), { code := 0 })

/-- FILTER_WRITE. -/
def execFilterWrite (src : Source) (h : Nat) (v6 : Bool) (s : State) : Host.Outcome State Fault Refusal :=
  s.winGo src (filterWin h v6) 2 (Chip.filterWriteOp h v6)

/-- A range operation's operands are accepted (R209). -/
def rangeOk (v6 : Bool) (first b count : Nat) : Bool :=
  (if v6 then decide (24 ≤ b) && decide (b ≤ 127) else decide (b ≤ 31)) && decide (1 ≤ count) && decide (first + count ≤ 65536)

/-- A range operation sets or clears one bit of each entry of the range, in every member's copy (R209, R476). -/
def Chip.rangeOp (c : Chip) (h : Nat) (v6 set : Bool) (w : WinIn) : Chip × WinRes :=
  let first := bits w.data 31 16
  let b := bits w.data 6 0
  let count := bits w.data 63 32
  if rangeOk v6 first b count then
    (c.each (c.halfMates h) fun c m => c.each (List.range count) fun c j =>
      let e := c.filterEntry m v6 (first + j)
      let has := e / 2 ^ b % 2 == 1
      if set then (if has then c else c.filterStore m v6 (first + j) (e + 2 ^ b))
      else (if has then c.filterStore m v6 (first + j) (e - 2 ^ b) else c), { code := 0 })
  else (c, { code := 6 })

/-- SET_RANGE. -/
def Chip.setRangeOp (h : Nat) (v6 : Bool) (w : WinIn) (c : Chip) : Chip × WinRes :=
  c.rangeOp h v6 true w

/-- SET_RANGE. -/
def execSetRange (src : Source) (h : Nat) (v6 : Bool) (s : State) : Host.Outcome State Fault Refusal :=
  s.winGo src (filterWin h v6) 3 (Chip.setRangeOp h v6)

/-- CLEAR_RANGE. -/
def Chip.clearRangeOp (h : Nat) (v6 : Bool) (w : WinIn) (c : Chip) : Chip × WinRes :=
  c.rangeOp h v6 false w

/-- CLEAR_RANGE. -/
def execClearRange (src : Source) (h : Nat) (v6 : Bool) (s : State) : Host.Outcome State Fault Refusal :=
  s.winGo src (filterWin h v6) 4 (Chip.clearRangeOp h v6)

/-! ### TCAM -/

namespace TcamEntry

def valid (e : TcamEntry) : Bool := bit e.state 7
def pair (e : TcamEntry) : Nat := bits e.state 6 5
def validity (e : TcamEntry) : Validity := ⟨e.valid, e.vfrom, e.vuntil⟩

/-- An array row matches a key (R212). -/
def hits (e : TcamEntry) (k : Key) : Bool := ((k ^^^ e.value) &&& e.care) == 0

/-- A stored copy agrees with a key (R218). -/
def agrees (e : TcamEntry) (k : Key) : Bool := (k &&& e.care) == e.value

/-- Part of an entry in DATA0 to DATA7 (Table 9-12). -/
def part (e : TcamEntry) (p : Nat) : Entry :=
  match p with
  | 0 => BitVec.ofNat 256 (bits e.value 255 0)
  | 1 => BitVec.ofNat 256 (bits e.value 319 256 + bits e.care 191 0 * 2 ^ 64)
  | _ => BitVec.ofNat 256 (bits e.care 319 192 + e.result.toNat * 2 ^ 128 + e.prio * 2 ^ 192 + e.vuntil * 2 ^ 224 + e.vfrom * 2 ^ 240)

/-- An entry out of three parts; value bits under a care bit of 0 are stored as 0 (R214). -/
def ofParts (a b d : Entry) (state : BitVec 8) : TcamEntry :=
  let care := BitVec.ofNat 320 (bits b 255 64 + bits d 127 0 * 2 ^ 192)
  { value := BitVec.ofNat 320 (bits a 255 0 + bits b 63 0 * 2 ^ 256) &&& care, care,
    prio := bits d 199 192, result := BitVec.ofNat 64 (bits d 191 128), vfrom := bits d 255 240, vuntil := bits d 239 224, state }

end TcamEntry

/-- Physical index of an entry (R217). -/
def tcamPhys (bank entry : Nat) : Nat := bank * 5120 + entry

namespace Chip

def tcamTab (c : Chip) (s : Nat) : Tcam := c.tcam.look s

def setTcam (c : Chip) (s : Nat) (t : Tcam) : Chip := { c with tcam := c.tcam.set s t }

/-- The tables of a slice (R39). -/
def tcamTables (c : Chip) (s : Nat) : List TcamTab := c.image.tcams.filter fun t => t.slice == c.emHome s

end Chip

def TcamTab.wide (t : TcamTab) : Bool := t.kind / 16 % 4 == 1
/-- 0 search A, 1 search B, 2 short-prefix store. -/
def TcamTab.use (t : TcamTab) : Nat := t.kind % 4
def TcamTab.holds (t : TcamTab) (i : Nat) : Bool :=
  t.banks / 2 ^ (i / 5120) % 2 == 1 && decide (t.first ≤ i % 5120) && decide (i % 5120 < t.first + t.count)

/-- The table that an entry lies in. -/
def Chip.tcamTableAt (c : Chip) (s i : Nat) : Option TcamTab := (c.tcamTables s).find? fun t => t.holds i

/-- Entries that match a key pair in a table under an accord, by the array rows (R212, R217). -/
def Chip.tcamHits (c : Chip) (s : Nat) (t : TcamTab) (ka kb : Key) (accord : Nat) (skip : List Nat) : List (Nat × TcamEntry) :=
  let m := c.tcamTab s
  m.rows.filter fun p =>
    t.holds p.1 && p.2.valid && p.2.pair == (if t.wide then 1 else 0) && p.2.validity.holds accord && !(skip.contains p.1) &&
      !(m.excluded.contains p.1) && (if t.wide then p.2.hits ka && (m.rows.look (p.1 + 1)).hits kb else p.2.hits ka)

/-- The winner: highest priority, then lowest physical index (R217). -/
def tcamBest (l : List (Nat × TcamEntry)) : Option (Nat × TcamEntry) :=
  l.foldl (fun b p => match b with
    | none => some p
    | some q => if q.2.prio < p.2.prio || (q.2.prio == p.2.prio && decide (p.1 < q.1)) then some p else b) none

/-- First of the words of a stored copy in the bank's memory group: three parts of four words (DESIGN CHOICE, notes/assumptions/14.md). -/
def tcamWord (i : Nat) : Nat × Nat := (0x50 + i / 5120, i % 5120 * 12)

def Chip.tcamCopyPoisoned (c : Chip) (s i : Nat) : Bool :=
  (List.range 12).any fun j => c.poisoned (U.sliceBlk s (tcamWord i).1) ((tcamWord i).2 + j)

/-- Write entries in slice `s`'s copy, rows and stored copies alike, and lift exclusions (R216, R219). -/
def Chip.tcamPut (c : Chip) (s : Nat) (ws : List (Nat × TcamEntry)) : Chip :=
  let t := c.tcamTab s
  let t := { t with
    rows := ws.foldl (fun m w => m.set w.1 w.2) t.rows
    copies := ws.foldl (fun m w => m.set w.1 w.2) t.copies
    seqs := ws.foldl (fun q w => q.set w.1 ((q.look w.1 + 1) % 65536)) t.seqs
    excluded := t.excluded.filter fun i => !(ws.any fun w => w.1 == i)
    repairs := t.repairs.filter fun i => !(ws.any fun w => w.1 == i) }
  (c.setTcam s t).each ws fun c w => c.each (List.range 12) fun c j => c.coverWord (U.sliceBlk s (tcamWord w.1).1) ((tcamWord w.1).2 + j)

/-- Software writes entries: in every member's copy (spec/01_architecture.md R476). -/
def Chip.tcamStore (c : Chip) (s : Nat) (ws : List (Nat × TcamEntry)) : Chip := c.each (c.sliceMates s) fun c m => c.tcamPut m ws

/-- The settler or a discard changes fields of entries in every member's copy: no exclusion is lifted, and no poison, since only software's
write of an entry covers its words (R219, spec/17_memory_protection.md R369). -/
def Chip.tcamAmend (c : Chip) (s : Nat) (is_ : List Nat) (f : TcamEntry → TcamEntry) : Chip :=
  c.each (c.sliceMates s) fun c m =>
    let t := c.tcamTab m
    c.setTcam m { t with
      rows := is_.foldl (fun x i => x.upd i f) t.rows
      copies := is_.foldl (fun x i => x.upd i f) t.copies
      seqs := is_.foldl (fun x i => x.set i ((x.look i + 1) % 65536)) t.seqs }

def tcamWin (s : Nat) : Nat := A.slice s + 0x450000

/-- Window index to physical index: bank in [14:13], entry in [12:0]. -/
def tcamOfWin (i : Nat) : Option Nat := if i < 2 ^ 15 && i % 8192 < 5120 then some (tcamPhys (i / 8192) (i % 8192)) else none

def tcamToWin (i : Nat) : Nat := i / 5120 * 8192 + i % 5120

/-- READ_PART (R215). -/
def Chip.readPartOp (sl : Nat) (w : WinIn) (c : Chip) : Chip × WinRes :=
  match tcamOfWin w.index with
  | some i =>
    if w.part = 3 then (c, { code := 6 })
    else
      let e := (c.tcamTab sl).copies.look i
      (c.readPoison (U.sliceBlk sl (tcamWord i).1) ((tcamWord i).2 + 4 * w.part) 4,
        { code := 0, data := some (e.part w.part), state := some e.state.toNat, seq := some ((c.tcamTab sl).seqs.look i),
          poison := c.tcamCopyPoisoned sl i })
  | none => (c, { code := 6 })

/-- READ_PART (R215). -/
def execReadPart (src : Source) (sl : Nat) (s : State) : Host.Outcome State Fault Refusal :=
  s.winGo src (tcamWin sl) 1 (Chip.readPartOp sl)

/-- LOAD_PART (R215). -/
def Chip.loadPartOp (sl : Nat) (w : WinIn) (c : Chip) : Chip × WinRes :=
  if w.part = 3 then (c, { code := 6 })
  else
    let t := c.tcamTab sl
    (c.setTcam sl { t with parts := t.parts.set (3 * w.half + w.part) (some w.data) }, { code := 0 })

/-- LOAD_PART (R215). -/
def execLoadPart (src : Source) (sl : Nat) (s : State) : Host.Outcome State Fault Refusal :=
  s.winGo src (tcamWin sl) 2 (Chip.loadPartOp sl)

/-- The entry that the held parts of a half give. -/
def Tcam.heldEntry (t : Tcam) (half : Nat) (state : Nat) : TcamEntry :=
  TcamEntry.ofParts ((t.parts.look (3 * half)).getD 0) ((t.parts.look (3 * half + 1)).getD 0) ((t.parts.look (3 * half + 2)).getD 0)
    (BitVec.ofNat 8 (state / 32 * 32))

/-- A write to an index is in the table's form (R215). -/
def Chip.tcamFormOk (c : Chip) (s i state : Nat) : Bool :=
  match c.tcamTableAt s i with
  | none => false
  | some t => if t.wide then state / 32 % 4 == 1 && i % 2 == 0 else state / 32 % 4 == 0

/-- A TCAM write changes no field but the validity and the valid bit, in either half of a pair (Table 7-2). -/
def Tcam.sameBut (t : Tcam) (i : Nat) (first second : TcamEntry) : Bool :=
  let old := t.copies.look i
  let mate := t.copies.look (i + 1)
  old.value == first.value && old.care == first.care && old.prio == first.prio && old.result == first.result &&
    (first.pair != 1 || (mate.value == second.value && mate.care == second.care))

/-- TCAM_WRITE_IF_SEQ (R215, R216): the accord engine judges it (R159), and an accepted write waits for a search slot
(DESIGN CHOICE, notes/assumptions/41.md). -/
def Chip.tcamWriteOp (sl : Nat) (w : WinIn) (c : Chip) : Chip × Option WinRes :=
  match tcamOfWin w.index with
  | none => (c, some { code := 6 })
  | some i =>
    let t := c.tcamTab sl
    if !(c.tcamFormOk sl i w.state) then (c, some { code := 6 })
    else if w.seq != t.seqs.look i then (c, some { code := 4 })
    else
      let first := t.heldEntry 0 w.state
      let second := { t.heldEntry 1 (w.state / 128 * 128 + 64) with
        prio := first.prio, result := first.result, vfrom := first.vfrom, vuntil := first.vuntil }
      match c.judge w.src (t.copies.look i).validity first.validity (t.sameBut i first second) with
      | .refuse r => (c.refuseWrite r (tcamWin sl) w.index, some { code := 5 })
      | .accept logged =>
        (c.setTcam sl { t with writes := t.writes ++ [{ index := i, state := w.state, seq := w.seq, first, second, logged }] }, none)

/-- TCAM_WRITE_IF_SEQ (R215, R216). -/
def execTcamWriteIfSeq (src : Source) (sl : Nat) (s : State) : Host.Outcome State Fault Refusal :=
  s.bus src (tcamWin sl + 4) true fun c => c.winLater src (tcamWin sl) 3 (Chip.tcamWriteOp sl)

/-- TCAM_WRITE_SLOT (R216): the oldest waiting write lands in a slot of its bank, in the row and the stored copy, if its sequence number
still matches (DESIGN CHOICE, notes/assumptions/41.md). -/
def execTcamWriteSlot (sl : Nat) (s : State) : Host.Outcome State Fault Refusal :=
  s.run .core fun c =>
    if !(c.alive (U.slice sl)) then c
    else
      let t := c.tcamTab sl
      match t.writes with
      | [] => c
      | w :: rest =>
        if !(c.blockUp sl (0x50 + w.index / 5120)) then c
        else
          let c := c.setTcam sl { t with writes := rest }
          let done (c : Chip) (r : WinRes) : Chip := { c with wins := c.wins.set (tcamWin sl) (some r) }
          if w.seq != t.seqs.look w.index then done c { code := 4 }
          else
            let c := c.when w.logged fun c => c.logWrite (.tcam sl (w.index / 5120) (w.index % 5120)) (t.copies.look w.index).validity
            let ws := if w.first.pair = 1 then [(w.index, w.first), (w.index + 1, w.second)] else [(w.index, w.first)]
            done ((c.tcamStore sl ws).cnt (c.sliceCnt sl + C.tcam_write_slots) 1) { code := 0 }

/-- TCAM_SEARCH (R215): the key stands in held parts 0 and 1; for a 640-bit table the second key stands in the second half's parts
(DESIGN CHOICE, notes/assumptions/41.md). -/
def Chip.tcamSearchOp (sl : Nat) (w : WinIn) (c : Chip) : Chip × WinRes :=
  match (c.tcamTables sl).find? fun t => t.id == w.table with
  | none => (c, { code := 6 })
  | some t =>
    let key (h : Nat) : Key :=
      BitVec.ofNat 320 (((c.tcamTab sl).parts.look (3 * h)).getD 0).toNat +
        BitVec.ofNat 320 (bits (((c.tcamTab sl).parts.look (3 * h + 1)).getD 0) 63 0 * 2 ^ 256)
    match tcamBest (c.tcamHits sl t (key 0) (key 1) c.newest []) with
    | some p => (c, { code := 0, index := some (tcamToWin p.1), seq := some ((c.tcamTab sl).seqs.look p.1) })
    | none => (c, { code := 1 })

/-- TCAM_SEARCH (R215) (DESIGN CHOICE, notes/assumptions/41.md). -/
def execTcamSearch (src : Source) (sl : Nat) (s : State) : Host.Outcome State Fault Refusal :=
  s.winGo src (tcamWin sl) 4 (Chip.tcamSearchOp sl)

/-- TCAM_ROW_REWRITE (R218): the oldest row due is rewritten from its stored copy. -/
def execTcamRowRewrite (sl : Nat) (s : State) : Host.Outcome State Fault Refusal :=
  s.run .core fun c =>
    let t := c.tcamTab sl
    match t.repairs with
    | [] => c
    | i :: rest =>
      if c.alive (U.slice sl) && c.blockUp sl (0x50 + i / 5120) then
        (c.setTcam sl { t with repairs := rest, rows := t.rows.set i (t.copies.look i) }).cnt (c.sliceCnt sl + C.tcam_row_repair) 1
      else c

/-- Upset bits of a row's care cells; the stored copy is untouched. -/
def Chip.tcamUpset (c : Chip) (s i : Nat) (x : Key) : Chip :=
  if x = 0 then c
  else
    let t := c.tcamTab s
    c.setTcam s { t with rows := t.rows.set i { t.rows.look i with care := (t.rows.look i).care ^^^ x } }

/-- The scrubber's next read of a row is due: scrub_ms after the one before (R220). -/
def Chip.tcamScrubDue (c : Chip) (s i : Nat) : Bool :=
  match (c.tcamTab s).scrubbed.look i with
  | none => true
  | some t => c.passedUs t (c.get (A.slice (c.emHome s)) R.TCAM_SCRUB_scrub_ms * 1000)

/-- TCAM_SCRUB_READ (R220): a row of a range is read and compared with its copy; `upset` are the care cells of the row that changed
since the model last saw it. -/
def execTcamScrubRead (sl bank entry : Nat) (upset : Key) (s : State) : Host.Outcome State Fault Refusal :=
  s.run .core fun c =>
    let i := tcamPhys bank entry
    if bank < 4 && entry < 5120 && c.alive (U.slice sl) && c.blockUp sl (0x50 + bank) && c.house.sleep.look sl == 0 &&
        c.on (A.slice (c.emHome sl)) R.TCAM_SCRUB_enable && (c.tcamTableAt sl i).isSome && c.tcamScrubDue sl i then
      let c := (c.tcamUpset sl i upset).cnt (c.sliceCnt sl + C.tcam_scrub_rows) 1
      let t := { c.tcamTab sl with scrubbed := (c.tcamTab sl).scrubbed.set i (some c.now) }
      let c := c.setTcam sl t
      if t.rows.look i == t.copies.look i then c
      else
        (((c.setTcam sl { t with rows := t.rows.set i (t.copies.look i) }).cnt (c.sliceCnt sl + C.tcam_row_repair) 1).report
          (U.sliceBlk sl (0x50 + bank)) K.tcamRowMismatch 1 i).put (A.slice (c.emHome sl)) R.TCAM_EVENT_row_mismatch 1
    else c

end Sys2Proof.Machine
end

