-- ==== Sys2Proof/Machine/Objects.lean ====
section
/-! DEFINITION. The objects of a slice (spec/10_actions_and_editing.md R227 to R233) and the small versioned tables: group heads
(spec/11_mollux_fabric.md R252), the E-CID map and the subscriber map (spec/04_ports_and_lanes.md Table 4-19, 4-20). -/

namespace Sys2Proof.Machine

open Sys2Proof

namespace Chip

/-- The objects that slice `s` reads: its own copy (spec/01_architecture.md R476). -/
def obj (c : Chip) (s : Nat) : Objects := c.objects.look s

def setObj (c : Chip) (s : Nat) (o : Objects) : Chip := { c with objects := c.objects.set s o }

end Chip

/-! ### Where objects lie in their memory groups (the order of Table 17-1's list; DESIGN CHOICE, notes/assumptions/14.md) -/

/-- Block code, first word and words of an object's part (DESIGN CHOICE, notes/assumptions/14.md). -/
def objWords (k : ObjKind) (i part : Nat) : Nat × Nat × Nat :=
  match k with
  | .nextHop => (0x58, i, 1)
  | .group => (0x58, 65536 + 17 * i + 1 + 4 * part, 4)
  | .mirror => (0x58, 135168 + i, 1)
  | .copy => (0x58, 135312 + i, 1)
  | .script => (0x60, 16 * i + 4 * part, 4)
  | .meter => (0x68, 4 * i, 4)

/-- A word of an object is poisoned. -/
def Chip.objPoison (c : Chip) (s : Nat) (k : ObjKind) (i part : Nat) : Bool :=
  let w := objWords k i part
  (List.range w.2.2).any fun j => c.poisoned (U.sliceBlk s w.1) (w.2.1 + j)

/-- A reader reads an object's part: correctable bytes are corrected for it (spec/17_memory_protection.md R375). -/
def Chip.objSee (c : Chip) (s : Nat) (k : ObjKind) (i part : Nat) : Chip :=
  let w := objWords k i part
  c.seeWords (U.sliceBlk s w.1) w.2.1 w.2.2

/-- A group's size word or any member word is poisoned. -/
def Chip.groupPoison (c : Chip) (s i : Nat) : Bool :=
  c.poisoned (U.sliceBlk s 0x58) (65536 + 17 * i) || (List.range 4).any fun p => c.objPoison s .group i p

def Chip.objCover (c : Chip) (s : Nat) (k : ObjKind) (i part : Nat) : Chip :=
  let w := objWords k i part
  c.each (List.range w.2.2) fun c j => c.coverWord (U.sliceBlk s w.1) (w.2.1 + j)

/-! ### Meters -/

namespace Meter

def cir (m : Meter) : Nat := bits m.record 127 104
def pir (m : Meter) : Nat := bits m.record 103 80
def cbs (m : Meter) : Nat := bits m.record 79 56
def pbs (m : Meter) : Nat := bits m.record 55 32
def aware (m : Meter) : Bool := bit m.record 31
def yellowDrop (m : Meter) : Bool := bit m.record 30
def redForward (m : Meter) : Bool := bit m.record 29

/-- The buckets filled up to a time (R230). -/
def fill (m : Meter) (now : Nat) : Meter :=
  { m with tc := m.tc.fill m.cir m.cbs (now - m.filled)
           tp := m.tp.fill m.pir m.pbs (now - m.filled)
           filled := now }

/-- A bucket as DATA4 or DATA5 shows it: signed 32-bit bytes. -/
def shown (b : Bucket) : Nat := (BitVec.ofInt 32 (b.level.fdiv 256)).toNat

end Meter

def Chip.meter (c : Chip) (s i : Nat) : Meter := ((c.obj s).meters.look i).fill c.now

def Chip.setMeter (c : Chip) (s i : Nat) (m : Meter) : Chip := c.setObj s { c.obj s with meters := (c.obj s).meters.set i m }

/-! ### Windows -/

/-- The slice and kind of an object window, by its base (Table 10-8, spec/11_mollux_fabric.md Table 11-11). -/
def objWindow (base : Nat) : Option (Nat × ObjKind) :=
  if base < 0x08000000 || 0x10000000 ≤ base then none
  else
    let s := (base - 0x08000000) / 0x01000000
    match base % 0x01000000 with
    | 0x470000 => some (s, .nextHop)
    | 0x470040 => some (s, .group)
    | 0x470080 => some (s, .meter)
    | 0x4700C0 => some (s, .mirror)
    | 0x470100 => some (s, .script)
    | 0x490040 => some (s, .copy)
    | _ => none

def objCount : ObjKind → Nat
  | .nextHop => 65536
  | .group => 4096
  | .meter => 8192
  | .mirror => 16
  | .script => 16384
  | .copy => 65536

/-- The record that READ returns, and a group's size in the state field (DESIGN CHOICE, notes/assumptions/22.md). -/
def Chip.objRead (c : Chip) (s : Nat) (k : ObjKind) (i part : Nat) : WinRes :=
  let o := c.obj s
  let p := c.objPoison s k i part
  match k with
  | .nextHop => { code := 0, data := some (BitVec.ofNat 256 (o.nextHops.look i).toNat), poison := p }
  | .group => { code := 0, data := some (o.groupPart.look (4 * i + part)), state := some (o.groupSize.look i), poison := p }
  | .meter =>
    let m := c.meter s i
    { code := 0, data := some (BitVec.ofNat 256 (m.record.toNat + Meter.shown m.tc * 2 ^ 128 + Meter.shown m.tp * 2 ^ 160)), poison := p }
  | .mirror => { code := 0, data := some (BitVec.ofNat 256 (o.mirrors.look i).toNat), poison := p }
  | .script => { code := 0, data := some (o.scripts.look (4 * i + part)), poison := p }
  | .copy => { code := 0, data := some (BitVec.ofNat 256 (o.copies.look i).toNat), poison := p }

/-! ### Edit scripts (R233) -/

/-- One operation (Table 10-13). -/
structure EditOp where
  op : Nat
  off : Nat
  len : Nat
  data : Nat
  arg : Nat
deriving DecidableEq, Repr

def EditOp.ofWord (w : Nat) : EditOp :=
  { op := nbits w 31 28, off := nbits w 27 20, len := nbits w 19 13, data := nbits w 12 6, arg := nbits w 5 0 }

/-- The eight operations of part 0, op k in bits [32k+31:32k]. -/
def editOps (part0 : Entry) : List EditOp := (List.range 8).map fun k => EditOp.ofWord (bits part0 (32 * k + 31) (32 * k))

/-- The operations up to END. -/
def runOps (part0 : Entry) : List EditOp := (editOps part0).takeWhile fun o => o.op != 0

/-- The frame byte after the last that an operation reaches. -/
def EditOp.reach (o : EditOp) : Nat :=
  match o.op with
  | 1 => o.off + o.len
  | 2 => o.off + o.len
  | 3 => o.off + o.len
  | 4 => o.off + 2
  | 5 => o.off + 1
  | 6 => o.off + 20
  | 7 => o.off + 8
  | 8 => o.off + 2
  | 9 => o.off + 1
  | _ => 0

def EditOp.ok (o : EditOp) : Bool :=
  decide (o.op ≤ 9) && decide (o.reach ≤ 256) &&
  (match o.op with
    | 1 => decide (1 ≤ o.len) && decide (o.len ≤ 64)
    | 2 => decide (1 ≤ o.len) && decide (o.len ≤ 96) && decide (o.data + o.len ≤ 96)
    | 3 => decide (1 ≤ o.len) && decide (o.len ≤ 96) && decide (o.data + o.len ≤ 96)
    | _ => true)

/-- R233: the window accepts the operations. -/
def scriptOk (part0 : Entry) : Bool :=
  let ops := editOps part0
  let run := runOps part0
  run.all EditOp.ok &&
  ((ops.drop run.length).all fun o => o == EditOp.ofWord 0) &&
  decide (((run.filter fun o => o.op == 1).map EditOp.len).sum ≤ 64) &&
  decide (((run.filter fun o => o.op == 2).map EditOp.len).sum ≤ 96)

/-- The part that a write stores for part `p` of a whole object: the last part's own data, a held part, or what is stored
(DESIGN CHOICE, notes/assumptions/22.md). -/
def wholePart (held : Tbl (Option Entry)) (stored : Nat → Entry) (e : Entry) (p : Nat) : Entry :=
  if p = 3 then e else (held.look p).getD (stored p)

/-- A record keeps its own limits (R227, R232, R233, Table 10-8 to 10-11, 11-4). -/
def Chip.objOk (c : Chip) (s : Nat) (k : ObjKind) (i part state : Nat) (e : Entry) : Bool :=
  match k with
  | .nextHop => bits e 11 0 == 0
  | .group => part != 3 || decide (state ≤ 64)
  | .meter => decide (bits e 127 104 ≤ bits e 103 80) && bits e 28 0 == 0
  | .mirror => true
  | .script => i != 0 && (part != 3 || scriptOk (wholePart (c.obj s).heldScript (fun p => (c.obj s).scripts.look (4 * i + p)) e 0))
  | .copy => !(bit e 30) || bits e 29 28 != 0

/-- Write an object whole in slice `m`'s copy; `held` are the parts held for a group or script (notes/assumptions/22.md). A meter keeps its
buckets, clamped to the new bursts (R232). -/
def Chip.objStore (c : Chip) (m : Nat) (k : ObjKind) (i part state : Nat) (held : Tbl (Option Entry)) (e : Entry) : Chip :=
  let o := c.obj m
  let ps := (List.range 4).filter fun p => p == 3 || (held.look p).isSome
  let parts (t : Tbl Entry) : Tbl Entry := ps.foldl (fun t p => t.set (4 * i + p) (wholePart held (fun _ => 0) e p)) t
  match k with
  | .nextHop => (c.setObj m { o with nextHops := o.nextHops.set i (BitVec.ofNat 64 (bits e 63 0)) }).objCover m k i part
  | .group =>
    ((c.setObj m { o with groupSize := o.groupSize.set i state, groupPart := parts o.groupPart }).coverWord (U.sliceBlk m 0x58)
      (65536 + 17 * i)).each ps fun c p => c.objCover m k i p
  | .meter => (c.setMeter m i (({ c.meter m i with record := BitVec.ofNat 128 (bits e 127 0) } : Meter).fill c.now)).objCover m k i part
  | .mirror => (c.setObj m { o with mirrors := o.mirrors.set i (BitVec.ofNat 64 (bits e 63 0)) }).objCover m k i part
  | .script => (c.setObj m { o with scripts := parts o.scripts }).each ps fun c p => c.objCover m k i p
  | .copy => (c.setObj m { o with copies := o.copies.set i (BitVec.ofNat 64 (bits e 63 0)) }).objCover m k i part

/-- Write an object (R227): parts 0 to 2 of a group or script are held, and its part 3 writes all four (notes/assumptions/22.md), in every
member's copy (spec/01_architecture.md R476). -/
def Chip.objWrite (c : Chip) (s : Nat) (k : ObjKind) (i part state : Nat) (e : Entry) : Chip :=
  let o := c.obj s
  let all (c : Chip) (held : Tbl (Option Entry)) : Chip := c.each (c.sliceMates s) fun c m => c.objStore m k i part state held e
  match k with
  | .group =>
    if part != 3 then c.setObj s { o with heldGroup := o.heldGroup.set part (some e) }
    else all (c.setObj s { o with heldGroup := [] }) o.heldGroup
  | .script =>
    if part != 3 then c.setObj s { o with heldScript := o.heldScript.set part (some e) }
    else all (c.setObj s { o with heldScript := [] }) o.heldScript
  | _ => all c []

/-- A refused write of a whole group or script drops the parts held for it (DESIGN CHOICE, notes/assumptions/22.md). -/
def Chip.objUnhold (c : Chip) (s : Nat) (k : ObjKind) (part : Nat) : Chip :=
  let o := c.obj s
  match k with
  | .group => if part = 3 then c.setObj s { o with heldGroup := [] } else c
  | .script => if part = 3 then c.setObj s { o with heldScript := [] } else c
  | _ => c

/-- OBJECT_READ (R227): READ in the object window at `base`. -/
def Chip.objReadOp (base : Nat) (w : WinIn) (c : Chip) : Chip × WinRes :=
  match objWindow base with
  | none => (c, { code := 6 })
  | some (sl, k) =>
    if objCount k ≤ w.index then (c, { code := 6 })
    else
      let o := objWords k w.index w.part
      (c.readPoison (U.sliceBlk sl o.1) o.2.1 o.2.2, c.objRead sl k w.index w.part)

/-- OBJECT_READ (R227). -/
def execObjectRead (src : Source) (base : Nat) (s : State) : Host.Outcome State Fault Refusal :=
  s.winGo src base 1 (Chip.objReadOp base)

/-- OBJECT_WRITE (R227, R233). -/
def Chip.objWriteOp (base : Nat) (w : WinIn) (c : Chip) : Chip × WinRes :=
  match objWindow base with
  | none => (c, { code := 6 })
  | some (sl, k) =>
    if objCount k ≤ w.index || !(c.objOk sl k w.index w.part w.state w.data) then (c.objUnhold sl k w.part, { code := 6 })
    else (c.objWrite sl k w.index w.part w.state w.data, { code := 0 })

/-- OBJECT_WRITE (R227, R233). -/
def execObjectWrite (src : Source) (base : Nat) (s : State) : Host.Outcome State Fault Refusal :=
  s.winGo src base 2 (Chip.objWriteOp base)

def meterWin (s : Nat) : Nat := A.slice s + 0x470080

/-- RESET_BUCKETS (R230): both buckets are filled to their bursts. -/
def Chip.resetBucketsOp (sl : Nat) (w : WinIn) (c : Chip) : Chip × WinRes :=
  if 8192 ≤ w.index then (c, { code := 6 })
  else
    (c.each (c.sliceMates sl) fun c k =>
      let m := c.meter k w.index
      c.setMeter k w.index { m with tc := Bucket.full m.cbs, tp := Bucket.full m.pbs }, { code := 0 })

/-- RESET_BUCKETS (R230). -/
def execResetBuckets (src : Source) (sl : Nat) (s : State) : Host.Outcome State Fault Refusal :=
  s.winGo src (meterWin sl) 3 (Chip.resetBucketsOp sl)

/-! ### The small versioned tables -/

/-- Group heads, E-CID map, subscriber map. -/
inductive VTab where
  | head | ecid | sub
deriving DecidableEq, Repr

namespace VTab

def count : VTab → Nat
  | .head => 131072
  | .ecid => 32768
  | .sub => 2048

def win : VTab → Nat → Nat
  | .head, s => A.slice s + 0x490000
  | .ecid, s => A.slice s + 0x460000
  | .sub, s => A.slice s + 0x461000

def place : VTab → Nat → Nat → SettlePlace
  | .head, s, i => .head s i
  | .ecid, s, i => .ecid s i
  | .sub, s, i => .subscriber s i

/-- Bits that are reserved zero. -/
def reserved : VTab → Word → Bool
  | .head, w => bits w 22 16 != 0
  | _, _ => false

end VTab

/-- Validity fields of an entry: they stand alike in all three tables. -/
def vValidity (w : Word) : Validity := ⟨bit w 31, bits w 63 48, bits w 47 32⟩

namespace Chip

def vGet (c : Chip) (t : VTab) (s i : Nat) : Word :=
  match t with
  | .head => (c.obj s).heads.look i
  | .ecid => (c.obj s).ecids.look i
  | .sub => (c.obj s).subs.look i

def vSeq (c : Chip) (t : VTab) (s i : Nat) : Nat :=
  match t with
  | .head => (c.obj s).headSeq.look i
  | .ecid => (c.obj s).ecidSeq.look i
  | .sub => (c.obj s).subSeq.look i

/-- First word of a group head in group 0x058. -/
def headWord (i : Nat) : Nat := 200848 + i

/-- Write an entry whole in slice `s`'s copy and step its sequence number. -/
def vStore (c : Chip) (t : VTab) (s i : Nat) (w : Word) : Chip :=
  let o := c.obj s
  match t with
  | .head =>
    (c.setObj s { o with heads := o.heads.set i w, headSeq := o.headSeq.set i ((o.headSeq.look i + 1) % 65536) }).coverWord
      (U.sliceBlk s 0x58) (headWord i)
  | .ecid => c.setObj s { o with ecids := o.ecids.set i w, ecidSeq := o.ecidSeq.set i ((o.ecidSeq.look i + 1) % 65536) }
  | .sub => c.setObj s { o with subs := o.subs.set i w, subSeq := o.subSeq.set i ((o.subSeq.look i + 1) % 65536) }

/-- Write an entry in every member's copy (spec/01_architecture.md R476). -/
def vSet (c : Chip) (t : VTab) (s i : Nat) (w : Word) : Chip := c.each (c.sliceMates s) fun c m => c.vStore t m i w

/-- READ of a versioned entry. -/
def vRead (c : Chip) (t : VTab) (s : Nat) (w : WinIn) : Chip × WinRes :=
  if t.count ≤ w.index then (c, { code := 6 })
  else
    let p := t == .head && c.poisoned (U.sliceBlk s 0x58) (headWord w.index)
    (c.when (t == .head) fun c => c.readPoison (U.sliceBlk s 0x58) (headWord w.index) 1,
      { code := 0, data := some (BitVec.ofNat 256 (c.vGet t s w.index).toNat), seq := some (c.vSeq t s w.index), poison := p })

/-- WRITE_IF_SEQ of a versioned entry, judged under R159. -/
def vWrite (c : Chip) (t : VTab) (s : Nat) (w : WinIn) : Chip × WinRes :=
  let e : Word := BitVec.ofNat 64 (bits w.data 63 0)
  let old := c.vGet t s w.index
  if t.count ≤ w.index || t.reserved e then (c, { code := 6 })
  else if w.seq != c.vSeq t s w.index then (c, { code := 4 })
  else
    match c.judge w.src (vValidity old) (vValidity e) (bits old 30 0 == bits e 30 0) with
    | .refuse r => (c.refuseWrite r w.base w.index, { code := 5 })
    | .accept logged =>
      ((c.when logged fun c => c.logWrite (t.place s w.index) (vValidity old)).vSet t s w.index e, { code := 0 })

/-- The entry of a group that holds under an accord (R252), with its index. -/
def headFor (c : Chip) (s g accord : Nat) : Option (Nat × Word) :=
  ([2 * g, 2 * g + 1].map fun i => (i, c.vGet .head s i)).find? fun p => (vValidity p.2).holds accord

end Chip

def headWin (s : Nat) : Nat := A.slice s + 0x490000

/-- GROUP_HEAD_READ (R252). -/
def execGroupHeadRead (src : Source) (sl : Nat) (s : State) : Host.Outcome State Fault Refusal :=
  s.winGo src (headWin sl) 1 fun w c => c.vRead .head sl w

/-- GROUP_HEAD_WRITE_IF_SEQ (R252). -/
def execGroupHeadWriteIfSeq (src : Source) (sl : Nat) (s : State) : Host.Outcome State Fault Refusal :=
  s.winGo src (headWin sl) 5 fun w c => c.vWrite .head sl w

end Sys2Proof.Machine
end

