-- ==== Sys2Proof/Machine/Frames.lean ====
section
/-! DEFINITION. Frames and what carries them: the waybill's fields (spec/05_porters.md Table 5-2, spec/10_actions_and_editing.md Table
10-6), in-flight counting (spec/07_accords.md R152), the ingress staging buffer (R128), frame streams, arrivals and copies in queues, and the
admission tests (spec/12_innkeeper_buffers.md R267, spec/13_hierarchical_scheduling.md R281, R292). -/

namespace Sys2Proof.Machine

open Sys2Proof

/-! ### The waybill -/

namespace Wb

def get (w : BitVec 512) (n hi lo : Nat) : Nat := bits w (32 * n + hi) (32 * n + lo)
def put (w : BitVec 512) (n hi lo v : Nat) : BitVec 512 := putBits w (32 * n + hi) (32 * n + lo) v

def inPort (w : BitVec 512) : Nat := get w 0 31 24
def inPri (w : BitVec 512) : Nat := get w 0 7 5
def frameLen (w : BitVec 512) : Nat := get w 0 21 8
def hash (w : BitVec 512) : Nat := get w 3 31 0
def classTag (w : BitVec 512) : Nat := get w 5 15 0
def etag (w : BitVec 512) : Bool := get w 5 31 31 == 1
def failReason (w : BitVec 512) : Nat := get w 5 20 18
def keyValid (w : BitVec 512) : Nat := get w 6 31 24
def action (w : BitVec 512) : Nat := get w 6 31 29
def suppress (w : BitVec 512) : Bool := get w 6 28 28 == 1
def colour (w : BitVec 512) : Nat := get w 6 27 26
def ctOk (w : BitVec 512) : Bool := get w 6 25 25 == 1
def cls (w : BitVec 512) : Nat := get w 6 24 22
def mirrorValid (w : BitVec 512) : Bool := get w 6 21 21 == 1
def session (w : BitVec 512) : Nat := get w 6 20 17
def group (w : BitVec 512) : Nat := get w 6 15 0
def port (w : BitVec 512) : Nat := get w 7 31 25
def subscriber (w : BitVec 512) : Nat := get w 7 24 14
def script (w : BitVec 512) : Nat := get w 7 13 0
def ring (w : BitVec 512) : Nat := get w 7 11 0
/-- Field slot F0 to F15. -/
def slot (w : BitVec 512) (i : Nat) : Nat := if i % 2 = 0 then get w (8 + i / 2) 31 16 else get w (8 + i / 2) 15 0
def setSlot (w : BitVec 512) (i v : Nat) : BitVec 512 := if i % 2 = 0 then put w (8 + i / 2) 31 16 v else put w (8 + i / 2) 15 0 v

end Wb

/-- Cells of 256 bytes for `n` bytes (spec/11_mollux_fabric.md R240). -/
def cellsOf (n : Nat) : Nat := (n + 255) / 256

namespace Chip

/-! ### Ports and frames -/

def prt (c : Chip) (p : Nat) : Port := c.ports.look p

def setPrt (c : Chip) (p : Nat) (v : Port) : Chip := { c with ports := c.ports.set p v }

def updPrt (c : Chip) (p : Nat) (f : Port → Port) : Chip := c.setPrt p (f (c.prt p))

def fr (c : Chip) (id : Nat) : Frame := (c.frames.look id).getD default

def setFr (c : Chip) (id : Nat) (f : Frame) : Chip := { c with frames := c.frames.set id (some f) }

def updFr (c : Chip) (id : Nat) (g : Frame → Frame) : Chip :=
  match c.frames.look id with
  | some f => c.setFr id (g f)
  | none => c

/-- A new number. -/
def newId (c : Chip) : Nat × Chip := (c.nextId, { c with nextId := c.nextId + 1 })

/-- Live max_frame of a port. -/
def maxFrame (c : Chip) (p : Nat) : Nat := c.get (A.port p) R.PORT_FRAME_max_frame

/-- The max_frame that a frame entered under (spec/02_configuration_image.md R46, Table 2-10). -/
def frameMax (c : Chip) (f : Frame) : Nat := if f.maxIn = 0 then c.maxFrame f.home else f.maxIn

/-- A frame's, or one of its copies', in-flight count falls (R152). -/
def unstamp (c : Chip) (slot : Option Nat) : Chip :=
  match slot with
  | some i => c.inflightDown i
  | none => c

/-- Copies made by replication count (R152). -/
def stampCopies (c : Chip) (slot : Option Nat) (n : Nat) : Chip :=
  match slot with
  | some i => c.inflightUp i n
  | none => c

def porter (c : Chip) (s n : Nat) : Porter := c.porters.look (s * 34 + n)

def setPorter (c : Chip) (s n : Nat) (p : Porter) : Chip := { c with porters := c.porters.set (s * 34 + n) p }

/-- PORTER_STATUS.busy shows the threads that hold a frame. -/
def syncBusy (c : Chip) (s n : Nat) : Chip :=
  c.put (A.porter s n) R.PORTER_STATUS_busy
    (((List.range 4).map fun t => if ((c.porter s n).threads.look t).frame.isSome then 2 ^ t else 0).sum)

/-- A thread becomes free. -/
def clearThread (c : Chip) (s n t : Nat) : Chip :=
  (c.setPorter s n { c.porter s n with threads := (c.porter s n).threads.set t {} }).syncBusy s n

/-- Take a frame out of every place that names it, and forget it (DESIGN CHOICE, notes/assumptions/76.md). -/
def forget (c : Chip) (id : Nat) : Chip :=
  match c.frames.look id with
  | none => c
  | some f =>
    let c := c.updPrt f.home fun q => { q with wait := q.wait.filter (· != id), parsing := q.parsing.filter (· != id) }
    let c := match f.stage with
      | .thread n t => c.clearThread f.slice n t
      | .release => { c with fronts := c.fronts.upd f.slice fun q => { q with release := q.release.filter (· != id) } }
      | .wakeStore => { c with house := { c.house with
          wakeStore := c.house.wakeStore.upd f.slice fun l => l.filter (· != WakeItem.frame id) } }
      | .lookups => c.setLpm (f.slice / 4) { c.lpmTab (f.slice / 4) with held := (c.lpmTab (f.slice / 4)).held.filter fun x => x.frame != id }
      | _ => c
    { c with frames := c.frames.set id none }

/-- A frame ends before its verdict, or by it, with nothing else to carry it. -/
def endFrame (c : Chip) (id : Nat) : Chip := (c.unstamp (c.fr id).slot).forget id

/-- One that needed the frame needs it no longer (DESIGN CHOICE, notes/assumptions/76.md). -/
def unhold (c : Chip) (id : Nat) : Chip :=
  match c.frames.look id with
  | none => c
  | some f => if f.holders ≤ 1 then c.forget id else c.setFr id { f with holders := f.holders - 1 }

/-- One more needs the frame (DESIGN CHOICE, notes/assumptions/76.md). -/
def hold (c : Chip) (id : Nat) : Chip := c.updFr id fun f => { f with holders := f.holders + 1 }

/-- Bytes of a frame that are ever sent (R92): those beyond the ingress port's max_frame are not. -/
def sendable (c : Chip) (f : Frame) : Nat := if f.injected then f.bytes.length else Nat.min f.bytes.length (c.frameMax f)

/-- Bytes that slice `s` holds in its ingress staging buffer. -/
def isbBytes (c : Chip) (s : Nat) : Nat :=
  (c.frames.map fun p => match p.2 with
    | some f => if f.slice = s && f.staged && f.stage != .wakeStore then f.bytes.length else 0
    | none => 0).sum

/-- Size of the buffer: 256 KiB (spec/05_porters.md example). -/
def isbSize : Nat := 262144

/-- Cells that the wake store of slice `s` holds, and those of them that came from the fabric (R412). -/
def wakeCells (c : Chip) (s : Nat) : Nat × Nat :=
  ((c.house.wakeStore.look s).foldl (fun (a : Nat × Nat) w => match w with
    | .frame id => (a.1 + cellsOf (c.fr id).bytes.length, a.2)
    | .cell _ _ => (a.1 + 1, a.2 + 1)) (0, 0))

/-- A slice takes no new work: it enters sleep, sleeps or wakes (spec/19_housekeeper_power_ageing.md R409). -/
def asleep (c : Chip) (s : Nat) : Bool := c.house.sleep.look s != 0

/-! ### Streams -/

def strm (c : Chip) (id : Nat) : Stream := (c.streams.look id).getD default

def setStrm (c : Chip) (id : Nat) (v : Stream) : Chip := { c with streams := c.streams.set id (some v) }

/-- Bytes that a stream carries, as far as they have arrived. -/
def streamBytes (c : Chip) (v : Stream) : Nat :=
  let n := c.sendable (c.fr v.frame)
  if v.trunc = 0 then n else Nat.min n (256 * v.trunc)

/-- No further byte will come: the frame is whole, or a truncated copy is full. -/
def streamWhole (c : Chip) (v : Stream) : Bool :=
  (c.fr v.frame).whole || (v.trunc != 0 && decide (256 * v.trunc ≤ c.streamBytes v)) ||
    (!(c.fr v.frame).injected && decide (c.frameMax (c.fr v.frame) < (c.fr v.frame).bytes.length))

def streamSentAll (c : Chip) (v : Stream) : Bool := c.streamWhole v && decide (cellsOf (c.streamBytes v) ≤ v.sent)

/-- A punt of the frame waits for the DMA engine. -/
def puntWaits (c : Chip) (id : Nat) : Bool := c.host.punts.any fun p => p.2.any fun q => q.frame == id

/-- The frame leaves the staging buffer once its last cell is sent and no punt waits (R128). -/
def unstage (c : Chip) (id : Nat) : Chip :=
  let busy := c.streams.any fun p => match p.2 with
    | some v => v.frame == id && !(c.streamSentAll v)
    | none => false
  if busy || c.puntWaits id then c else c.updFr id fun f => { f with staged := false }

/-- Forget a stream and let the frame go. -/
def closeStream (c : Chip) (id : Nat) : Chip :=
  match c.streams.look id with
  | none => c
  | some v => (({ c with streams := c.streams.set id none }).unstage v.frame).unhold v.frame

/-- Slice `s` has completed its walk with `n` copies: its share of the in-flight count becomes theirs, or ends (R255). -/
def streamCopied (c : Chip) (id s n : Nat) : Chip :=
  match c.streams.look id with
  | none => c
  | some v =>
    if v.left / 2 ^ s % 2 = 1 then
      let c := c.setStrm id { v with left := v.left - 2 ^ s }
      if n = 0 then c.unstamp (c.fr v.frame).slot else c.stampCopies (c.fr v.frame).slot (n - 1)
    else c

/-- Slice `s` has taken or discarded the stream's last cell. -/
def streamClosedAt (c : Chip) (id s : Nat) : Chip :=
  match c.streams.look id with
  | none => c
  | some v =>
    if v.openAt / 2 ^ s % 2 = 1 then
      if v.openAt = 2 ^ s then c.closeStream id else c.setStrm id { v with openAt := v.openAt - 2 ^ s }
    else c

/-- A stream ends where it stands: nothing more of it is sent. -/
def killStream (c : Chip) (id : Nat) : Chip :=
  match c.streams.look id with
  | none => c
  | some v =>
    let shares := if v.sent = 0 then 1 else ((List.range 8).filter fun d => v.left / 2 ^ d % 2 == 1).length
    (c.each (List.range shares) fun c _ => c.unstamp (c.fr v.frame).slot).closeStream id

/-! ### Scheduler records (spec/13_hierarchical_scheduling.md Table 13-3 to 13-5) -/

/-- A slice's own live records (spec/01_architecture.md R476). The staged copies and the records of a go are the first member's. -/
def recs (c : Chip) (s : Nat) : Records := c.records.look s

def setRecs (c : Chip) (s : Nat) (r : Records) : Chip := { c with records := c.records.set s r }

def heartRec (c : Chip) (s i : Nat) : BitVec 128 := (c.recs s).heart.look i
def topRec (c : Chip) (s i : Nat) : BitVec 128 := (c.recs s).top.look i
def queueRec (c : Chip) (s i : Nat) : Entry := (c.recs s).queue.look i

def sch (c : Chip) (s : Nat) : Sched := c.scheds.look s

def setSch (c : Chip) (s : Nat) (v : Sched) : Chip := { c with scheds := c.scheds.set s v }

def baseAt (s q : Nat) : Nat := A.slice s + 0x20 * q

end Chip

namespace HeartRec

def enable (r : BitVec 128) : Bool := bit r 127
def port (r : BitVec 128) : Nat := bits r 123 120
def urgent (r : BitVec 128) : Bool := bit r 119
def overhead (r : BitVec 128) : Int := signed 7 (bits r 118 112)
def weight (r : BitVec 128) : Nat := bits r 111 100
def rate (r : BitVec 128) : Nat := bits r 95 72
def burst (r : BitVec 128) : Nat := bits r 71 48

end HeartRec

namespace TopRec

def enable (r : BitVec 128) : Bool := bit r 127
def heart (r : BitVec 128) : Nat := bits r 126 116
def strict (r : BitVec 128) : Nat := bits r 115 108
def weight (r : BitVec 128) : Nat := bits r 107 96
def rate (r : BitVec 128) : Nat := bits r 95 72
def burst (r : BitVec 128) : Nat := bits r 71 48
def limit (r : BitVec 128) : Nat := bits r 47 24

end TopRec

namespace QueueRec

def enable (r : Entry) : Bool := bit r 255
def weight (r : Entry) : Nat := bits r 254 243
def rate (r : Entry) : Nat := bits r 242 219
def burst (r : Entry) : Nat := bits r 218 195
def limit (r : Entry) : Nat := bits r 194 171
def yellow (r : Entry) : Nat := bits r 170 163
def red (r : Entry) : Nat := bits r 162 155
def spillDepth (r : Entry) : Nat := bits r 154 139
def fetchMark (r : Entry) : Nat := bits r 138 123

end QueueRec

namespace Chip

/-! ### Arrivals and copies -/

def arr (c : Chip) (id : Nat) : Arrival := (c.arrivals.look id).getD default

def setArr (c : Chip) (id : Nat) (v : Arrival) : Chip := { c with arrivals := c.arrivals.set id (some v) }

def cpy (c : Chip) (id : Nat) : Copy := (c.copies.look id).getD default

def setCpy (c : Chip) (id : Nat) (v : Copy) : Chip := { c with copies := c.copies.set id (some v) }

end Chip

/-- The arrival was cut to its first cells by trunc_cells (spec/10_actions_and_editing.md Table 10-11). -/
def Chip.truncated (c : Chip) (a : Arrival) : Bool :=
  a.trunc != 0 && (decide (256 * a.trunc < (c.fr a.frame).bytes.length) || (!(c.fr a.frame).whole && decide (256 * a.trunc ≤ a.bytesHeld)))

/-- Queue number of a copy in its slice (DESIGN CHOICE, notes/assumptions/51.md). -/
def Copy.queue (k : Copy) : Nat := 8 * k.sub + k.cls

/-- Cells of an arrival on die. -/
def Arrival.die (a : Arrival) : Nat := (a.places.filter fun p => match p with
  | .die _ => true
  | .bundle _ => false).length

namespace Chip

/-- Copies in queue `n` of slice `s`, head first. -/
def queueCopies (c : Chip) (s n : Nat) : List Nat := (c.sch s).copies.look n

/-- Cells of a queue, on die, spilled and reserved (R292). -/
def queueCells (c : Chip) (s n : Nat) : Nat :=
  ((c.queueCopies s n).map fun k => (c.arr (c.cpy k).arrival).places.length + (c.arr (c.cpy k).arrival).reserved).sum

/-- Cells of a queue on die. -/
def queueDie (c : Chip) (s n : Nat) : Nat := ((c.queueCopies s n).map fun k => (c.arr (c.cpy k).arrival).die).sum

/-- Queues of slice `s` that hold copies for port `p`. -/
def portQueues (c : Chip) (p : Nat) : List Nat :=
  ((c.sch (p / 16)).copies.filter fun x => match x.2.head? with
    | some k => (c.cpy k).port == p
    | none => false).map Prod.fst

/-- Copies queued for a port, in queue order. -/
def portCopies (c : Chip) (p : Nat) : List Nat := (c.portQueues p).flatMap fun n => c.queueCopies (p / 16) n

/-! ### What may spill (spec/12_innkeeper_buffers.md R269) -/

/-- A cell of an arrival is already on its way to HBM. -/
def bundling (c : Chip) (h aid pos : Nat) : Bool :=
  (c.innk h).bundles.any fun b => b.2.any fun v => !v.written && v.cells.contains (aid, pos)

/-- Positions of an arrival's cells that lie on die and are not on their way to HBM. -/
def onDie (c : Chip) (h aid : Nat) : List Nat :=
  ((c.arr aid).places.zipIdx.filter fun w => match w.1 with
    | .die _ => !(c.bundling h aid w.2)
    | .bundle _ => false).map Prod.snd

/-- A copy is chosen for the line. -/
def chosen (c : Chip) (id p : Nat) : Bool := (c.prt p).tx.any fun t => t.copy == id

/-- A frame may spill (R269): whole, every cell with one reference, not chosen for the line (DESIGN CHOICE, notes/assumptions/50.md). -/
def maySpill (c : Chip) (h id : Nat) : Bool :=
  let a := c.arr (c.cpy id).arrival
  a.closed && !a.dead && !(c.chosen id (c.cpy id).port) && a.places.all fun w => match w with
    | .die p => (c.cellRec h p).count == 1
    | .bundle _ => true

/-- A frame's spill has begun. -/
def spilling (c : Chip) (h id : Nat) : Bool :=
  let aid := (c.cpy id).arrival
  decide ((c.onDie h aid).length < (c.arr aid).places.length)

/-- The cells of a queue that may spill, in queue order: those of whole frames beyond `depth` cells on die. -/
def spillList (c : Chip) (h depth : Nat) : Nat → List Nat → List (Nat × Nat)
  | _, [] => []
  | n, id :: l =>
    let aid := (c.cpy id).arrival
    let d := (c.onDie h aid).map fun pos => (aid, pos)
    if c.maySpill h id && (decide (depth ≤ n) || c.spilling h id) then d ++ spillList c h depth n l
    else spillList c h depth (n + d.length) l

/-- The cells of queue `n` of slice `s` that wait for a bundle; none while its port is in hold, or for a spill_depth
of 0 (spec/13_hierarchical_scheduling.md R294). -/
def spillable (c : Chip) (s n : Nat) : List (Nat × Nat) :=
  let l := c.queueCopies s n
  match l.head? with
  | none => []
  | some id =>
    if QueueRec.spillDepth (c.queueRec s n) = 0 || c.on (A.port (c.cpy id).port) R.PORT_STATUS_in_hold then []
    else c.spillList (s / 4) (QueueRec.spillDepth (c.queueRec s n) * 8) 0 l

/-- Queue `n` of slice `s` has cells that may spill now: the time of R269 starts again. -/
def noteQueue (c : Chip) (s n : Nat) : Chip :=
  if (c.spillable s n).isEmpty then c
  else
    let h := s / 4
    c.setInnk h { c.innk h with spillable := (c.innk h).spillable.set (s * 16384 + n) c.now }

/-- A frame may have become spillable in the queue that holds its copy. -/
def noteSpill (c : Chip) (aid : Nat) : Chip :=
  c.each (c.arr aid).copies fun c id =>
    let k := c.cpy id
    if (c.spillable k.slice k.queue).any fun x => x.1 == aid then c.noteQueue k.slice k.queue else c

/-- Take a copy out of its queue and out of the coach queue. -/
def dequeue (c : Chip) (id : Nat) : Chip :=
  let k := c.cpy id
  let t := c.sch k.slice
  let was := !(c.portQueues k.port).isEmpty
  let c := c.setSch k.slice { t with copies := t.copies.upd k.queue fun l => l.filter (· != id)
                                     coach := t.coach.upd k.port fun l => l.filter (· != id) }
  c.when (was && (c.portQueues k.port).isEmpty) fun c => c.updPrt k.port fun q => { q with idleAt := c.now }

/-- A copy gives back its reference to one cell of its frame. -/
def freePlace (c : Chip) (h unit aid pos : Nat) (w : Place) : Chip :=
  match w with
  | .die p => c.cellFree h unit (p * 256)
  | .bundle b =>
    match (c.innk h).bundles.look b with
    | none => c
    | some v =>
      let v' := { v with cells := v.cells.filter (· != (aid, pos)) }
      let c := c.setInnk h { c.innk h with
        bundles := (c.innk h).bundles.set b (if v'.cells.isEmpty && !v.fetching then none else some v') }
      if v.fetching then c.useAdd h v.req (-1) else c.syncInnk h

/-- A cell that is being written to HBM leaves its bundle. -/
def unbundle (c : Chip) (h aid : Nat) : Chip :=
  let k := c.innk h
  if k.bundles.any fun b => b.2.any fun v => !v.written && v.cells.any fun x => x.1 == aid then
    (c.setInnk h { k with bundles := (k.bundles.map fun b => (b.1, b.2.map fun v =>
      if v.written then v else { v with cells := v.cells.filter fun x => x.1 != aid })).filter fun b => b.2.any fun v => !v.cells.isEmpty }).syncInnk h
  else c

/-- Return an arrival's reserved cells. -/
def unreserve (c : Chip) (aid : Nat) : Chip :=
  match c.arrivals.look aid with
  | none => c
  | some a =>
    if a.reserved = 0 then c
    else
      let c := c.setArr aid { a with reserved := 0 }
      match c.reqOf (a.slice / 4) a.lodger with
      | some i => c.useAdd (a.slice / 4) i (-(a.reserved : Int))
      | none => c

/-- An arrival is done with: its frame may go. -/
def dropArrival (c : Chip) (aid : Nat) : Chip :=
  match c.arrivals.look aid with
  | none => c
  | some a => ({ (c.unreserve aid) with arrivals := (c.unreserve aid).arrivals.set aid none }).unhold a.frame

/-- The last copy of an arrival has ended: it goes when its last cell has come, else its further cells are discarded (R293). -/
def settleArrival (c : Chip) (aid : Nat) : Chip :=
  match c.arrivals.look aid with
  | none => c
  | some a =>
    if !a.copies.isEmpty then c
    else if a.closed then c.dropArrival aid
    else (c.setArr aid { a with dead := true, places := [] }).unreserve aid

/-- A copy ends: it leaves its queue, gives back its references, and its in-flight count falls (R152, R261). -/
def endCopy (c : Chip) (id : Nat) : Chip :=
  match c.copies.look id with
  | none => c
  | some k =>
    let c := c.dequeue id
    let a := c.arr k.arrival
    let c := (c.unbundle (k.slice / 4) k.arrival)
    let c := c.each (a.places.zipIdx) fun c w => c.freePlace (k.slice / 4) a.lodger k.arrival w.2 w.1
    let c := (c.unstamp (c.fr a.frame).slot).setArr k.arrival { c.arr k.arrival with copies := (c.arr k.arrival).copies.filter (· != id) }
    (({ c with copies := c.copies.set id none }).settleArrival k.arrival).noteSpill k.arrival

/-- What waits for a frame's length and FCS result. -/
def tail (c : Chip) (id : Nat) : Tail := c.tails.look id

def setTail (c : Chip) (id : Nat) (t : Tail) : Chip := { c with tails := c.tails.set id t }

/-- Counter block of queue `n` of slice `s`. -/
def queueCnt (c : Chip) (s n : Nat) : Nat := c.sliceCnt s + 0x20 * (n % 16384)

/-- A copy dropped by R292, flushed or emptied is counted in its queue. Its bytes are the frame's length as received, counted when
that is known (DESIGN CHOICE, notes/assumptions/23.md). -/
def countQueueDrop (c : Chip) (s n id : Nat) : Chip :=
  let a := c.arr (c.cpy id).arrival
  let f := c.fr a.frame
  let cap := 256 * a.trunc
  let at_ := c.queueCnt s n + C.q_drop_bytes
  let c := c.cnt (c.queueCnt s n + C.q_drop_frames) 1
  if a.closed then c.cnt at_ a.bytesHeld
  else if f.whole then c.cnt at_ (if cap = 0 then f.bytes.length else Nat.min cap f.bytes.length)
  else c.setTail a.frame { c.tail a.frame with slice := f.slice, drops := (c.tail a.frame).drops ++ [(at_, cap)] }

/-- Drop a queued copy, counted in its queue. -/
def dropQueued (c : Chip) (id : Nat) : Chip :=
  let k := c.cpy id
  (c.countQueueDrop k.slice k.queue id).endCopy id

/-- Flush every queue of a port, each frame counted once more at `counter` of the port (R86, R290). -/
def flushPort (c : Chip) (p counter : Nat) : Chip :=
  c.each (c.portCopies p) fun c id => (c.cnt (c.portCnt p + counter) 1).dropQueued id

/-! ### Admission -/

/-- Cells that a half holds for frames of an ingress priority. -/
def priCells (c : Chip) (h pri : Nat) : Nat :=
  (c.arrivals.map fun x => match x.2 with
    | some a => if a.slice / 4 = h && Wb.inPri a.wb = pri then a.die + a.reserved else 0
    | none => 0).sum

/-- Headroom of a frame (R266): its cells when it has only one, else those of the largest frame of its ingress port. -/
def headroom (c : Chip) (frame : Nat) (single : Bool) : Nat := if single then 1 else cellsOf (c.frameMax (c.fr frame))

/-- The innkeeper's test of a frame in its egress slice (R267); on success the headroom is reserved. -/
def takeIn (c : Chip) (s n : Nat) (wb : BitVec 512) : Chip × Bool :=
  let h := s / 4
  let b := A.half h
  if c.get (b + 4 * Wb.inPri wb) R.INNK_PRI_LIMIT_limit < c.priCells h (Wb.inPri wb) + n then (c.cnt (c.halfCnt h + C.pri_limit_drop) 1, false)
  else if (Wb.colour wb = 1 && decide (c.freeCells h < c.get b R.INNK_ADMIT_yellow_free * 64)) ||
      (Wb.colour wb = 2 && decide (c.freeCells h < c.get b R.INNK_ADMIT_red_free * 64)) then (c.cnt (c.halfCnt h + C.colour_drop) 1, false)
  else
    match c.reqOf h (U.slice s) with
    | none => (c, false)
    | some i =>
      if c.canAlloc h i n then (c.useAdd h i n, true) else (c.cnt (b + 0x40 * i + C.refused_admit) 1, false)

/-- The queue that a copy for port `p`, subscriber slot and class joins (R281). -/
def queueFor (c : Chip) (p sub cls : Nat) : Chip × Option Nat :=
  let s := p / 16
  let q := p % 16
  let t := c.topRec s sub
  let hr := c.heartRec s (TopRec.heart t)
  if TopRec.enable t && HeartRec.enable hr && HeartRec.port hr = q then (c, some (8 * sub + cls))
  else if c.on (baseAt s q) R.BASE_CFG_default_en then
    (c.cnt (c.sliceCnt s + C.default_sub_frames) 1, some (8 * c.get (baseAt s q) R.BASE_CFG_default_sub + cls))
  else
    (((c.cnt (c.sliceCnt s + C.sched_no_queue) 1).report (U.sliceBlk s 0x70) K.schedMapErr 1 (q * 2 ^ 24 + sub)).put (c.sliceCnt s)
      R.SCHED_EVENT_map_err 1, none)

/-- The queue tests (R292): the counter of the first that fails, 0 when all pass. -/
def queueTest (c : Chip) (s n room colour : Nat) : Nat :=
  let r := c.queueRec s n
  let t := c.topRec s (n / 8)
  let cells := c.queueCells s n
  let top := ((List.range 8).map fun j => c.queueCells s (n / 8 * 8 + j)).sum
  if !(QueueRec.enable r) then C.drop_disabled
  else if TopRec.limit t != 0 && decide (TopRec.limit t < top + room) then C.drop_top_limit
  else if QueueRec.limit r < cells + room then C.drop_limit
  else if (colour = 1 && decide (QueueRec.limit r * QueueRec.yellow r / 256 < cells + room)) ||
      (colour = 2 && decide (QueueRec.limit r * QueueRec.red r / 256 < cells + room)) then C.drop_colour_limit
  else 0

/-- A copy that arrives for the port now is stored, never cut through: the port is in hold, or its transmitter is in low-power idle or
waking (spec/04_ports_and_lanes.md R84, R95). -/
def mustStore (c : Chip) (p : Nat) : Bool :=
  c.on (A.port p) R.PORT_STATUS_in_hold || c.on (A.port p) R.PORT_STATUS_tx_lpi || (c.prt p).waking.isSome

/-- Put a copy at the end of a queue; a port in low-power idle begins to wake (R95). -/
def enqueue (c : Chip) (id n : Nat) : Chip :=
  let k := c.cpy id
  let t := c.sch k.slice
  let mode := if c.mustStore k.port then .stored else k.mode
  let c := (c.setCpy id { k with sub := n / 8, cls := n % 8, mode }).setSch k.slice { t with copies := t.copies.upd n fun l => l ++ [id] }
  c.when (c.on (A.port k.port) R.PORT_STATUS_tx_lpi && (c.prt k.port).waking.isNone) fun c =>
    c.updPrt k.port fun q => { q with waking := some c.now }

/-- The queue that R281 gives a copy, nothing counted. -/
def queueSeen (c : Chip) (p sub cls : Nat) : Option Nat :=
  let s := p / 16
  let q := p % 16
  let t := c.topRec s sub
  let hr := c.heartRec s (TopRec.heart t)
  if TopRec.enable t && HeartRec.enable hr && HeartRec.port hr = q then some (8 * sub + cls)
  else if c.on (baseAt s q) R.BASE_CFG_default_en then some (8 * c.get (baseAt s q) R.BASE_CFG_default_sub + cls) else none

/-- A copy is ready for its port (spec/11_mollux_fabric.md R256). -/
def copyReady (c : Chip) (id room : Nat) : Bool :=
  let k := c.cpy id
  !(c.on (A.port k.port) R.PORT_STATUS_in_hold) && !(c.on (A.port k.port) R.PORT_STATUS_flushed) &&
    match c.queueSeen k.port k.named k.cls with
    | some n => c.queueTest k.slice n room (Wb.colour (c.arr k.arrival).wb) == 0
    | none => false

end Chip

end Sys2Proof.Machine
end

