-- ==== Sys2Proof/Machine/Edit.lean ====
section
/-! DEFINITION. The editor and the egress MAC: edit scripts (spec/10_actions_and_editing.md R233 to R235, R478), the E-tag of an extended
port (spec/04_ports_and_lanes.md R102), PTP event messages (spec/15_time_bases.md R331 to R335) and the frame check sequence. The CRC-32 of
the FCS, the E-tag's layout and the PTP header's layout are those of IEEE 802.3, 802.1BR and 1588 (PRESUMED, notes/assumptions/13.md). -/

namespace Sys2Proof.Machine

open Sys2Proof

/-! ### Frame check sequence -/

def fcsStep (r : Nat) : Nat := if r % 2 = 1 then (r / 2) ^^^ 0xEDB88320 else r / 2

def fcsByte (r : Nat) (b : Byte) : Nat := fcsStep (fcsStep (fcsStep (fcsStep (fcsStep (fcsStep (fcsStep (fcsStep (r ^^^ b.toNat))))))))

/-- CRC-32 of IEEE 802.3 (PRESUMED, notes/assumptions/13.md). -/
def crc32 (bs : List Byte) : Nat := (bs.foldl fcsByte 0xFFFFFFFF) ^^^ 0xFFFFFFFF

/-- The frame with its FCS; a stomped one carries the complement (R239) (PRESUMED, notes/assumptions/13.md). -/
def withFcs (body : List Byte) (stomp : Bool) : List Byte := body ++ toLE 4 (if stomp then crc32 body ^^^ 0xFFFFFFFF else crc32 body)

/-! ### Bytes of a frame -/

def byteAt (bs : List Byte) (i : Nat) : Nat := (bs.getD i 0).toNat

/-- 16 bits, most significant byte first. -/
def be16 (bs : List Byte) (i : Nat) : Nat := byteAt bs i * 256 + byteAt bs (i + 1)

/-- Overwrite bytes from a place on. -/
def overwrite (bs : List Byte) (i : Nat) (w : List Byte) : List Byte := bs.take i ++ w ++ bs.drop (i + w.length)

/-- One's complement sum folded to 16 bits. -/
def fold16 (n : Nat) : Nat :=
  let a := n % 65536 + n / 65536
  let b := a % 65536 + a / 65536
  b % 65536 + b / 65536

/-- Sum of the 16-bit words of a byte list. -/
def words16 : List Byte → Nat
  | a :: b :: t => a.toNat * 256 + b.toNat + words16 t
  | [a] => a.toNat * 256
  | [] => 0

/-- Sum of the complements of the 16-bit words. -/
def compl16 : List Byte → Nat
  | a :: b :: t => 65535 - (a.toNat * 256 + b.toNat) + compl16 t
  | [a] => 65535 - a.toNat * 256
  | [] => 0

/-- RFC 1624: a checksum after the bytes `old` became `new`; 0 is written as 0xFFFF (R235) (DEDUCED, notes/assumptions/46.md). -/
def csumUpdate (sum : Nat) (old new : List Byte) : Nat :=
  let r := 65535 - fold16 (65535 - sum + compl16 old + words16 new)
  if r = 0 then 65535 else r

/-! ### The script -/

/-- A frame under edit: bytes with the place each held in the received frame, the tracked L3 header for 20 and 40 bytes of it, and the
LEN_FIX fields still to be written: place, arg, len. -/
structure Editing where
  bytes : List (Byte × Option Nat)
  l3 : Option Nat
  l3v6 : Option Nat
  fixes : List (Nat × Nat × Nat)
deriving DecidableEq, Repr

/-- How an edit ends. -/
inductive Edited where
  | ok (bytes : List Byte)
  | err
  | ttl
deriving DecidableEq, Repr

/-- The tracked header after INSERT of `n` at `o` (R235). -/
def trackInsert (span : Nat) (t : Option Nat) (o n : Nat) : Option Nat :=
  t.bind fun t => if o ≤ t then some (t + n) else if o < t + span then none else some t

/-- The tracked header after DELETE of `n` at `o` (R235). -/
def trackDelete (span : Nat) (t : Option Nat) (o n : Nat) : Option Nat :=
  t.bind fun t => if o + n ≤ t then some (t - n) else if o < t + span then none else some t

namespace Editing

def plain (e : Editing) : List Byte := e.bytes.map Prod.fst

/-- Overwrite bytes; their places at the start stay. -/
def write (e : Editing) (o : Nat) (w : List Byte) : Editing :=
  { e with bytes := e.bytes.take o ++ (w.zip ((e.bytes.drop o).map Prod.snd)) ++ e.bytes.drop (o + w.length) }

def insert (e : Editing) (o : Nat) (w : List Byte) : Editing :=
  { bytes := e.bytes.take o ++ w.map (fun b => (b, none)) ++ e.bytes.drop o
    l3 := trackInsert 20 e.l3 o w.length
    l3v6 := trackInsert 40 e.l3v6 o w.length
    fixes := e.fixes.map fun f => if o ≤ f.1 then (f.1 + w.length, f.2) else f }

/-- DELETE; none when it removes a byte of a LEN_FIX field (R478). -/
def delete (e : Editing) (o n : Nat) : Option Editing :=
  if e.fixes.any fun f => decide (o < f.1 + 2) && decide (f.1 < o + n) then none
  else some { bytes := e.bytes.take o ++ e.bytes.drop (o + n)
              l3 := trackDelete 20 e.l3 o n
              l3v6 := trackDelete 40 e.l3v6 o n
              fixes := e.fixes.map fun f => if o + n ≤ f.1 then (f.1 - n, f.2) else f }

/-- IPV4_CSUM at `o`; none beyond the frame's end. -/
def ipv4Csum (e : Editing) (o : Nat) : Option Editing :=
  let n := byteAt e.plain o % 16 * 4
  if e.bytes.length < o + Nat.max n 12 then none
  else
    let h := overwrite ((e.plain.drop o).take n) 10 [0, 0]
    some (e.write (o + 10) (toBE 2 (65535 - fold16 (words16 h))))

/-- L4_CSUM at `o` against the received bytes; none for a script error (DEDUCED, notes/assumptions/46.md). -/
def l4Csum (e : Editing) (orig : List Byte) (l3off o : Nat) (v6 : Bool) : Option Editing :=
  let span := if v6 then 40 else 20
  let first := if v6 then 8 else 12
  match (if v6 then e.l3v6 else e.l3), (e.bytes.getD o (0, none)).2, (e.bytes.getD (o + 4) (0, none)).2 with
  | some t, some po, some lo =>
    if e.bytes.length < t + span || ((e.bytes.drop o).take 6).any fun b => b.2.isNone then none
    else
      let sum := be16 e.plain (o + 6)
      if !v6 && sum == 0 then some e
      else
        let cut (bs : List Byte) (i n : Nat) := (bs.drop i).take n
        -- the UDP length stands in the header and in the pseudo-header
        let old := cut orig (l3off + first) (span - first) ++ cut orig po 4 ++ cut orig lo 2 ++ cut orig lo 2
        let new := cut e.plain (t + first) (span - first) ++ cut e.plain o 4 ++ cut e.plain (o + 4) 2 ++ cut e.plain (o + 4) 2
        some (e.write (o + 6) (toBE 2 (csumUpdate sum old new)))
  | _, _, _ => none

/-- Write the LEN_FIX fields: L - 4 - (off - arg) - len, L the length with FCS (R478). -/
def writeFixes (e : Editing) : Editing :=
  e.fixes.foldl (fun e f =>
    let v : Int := (e.bytes.length : Int) - ((f.1 : Int) - f.2.1) - f.2.2
    e.write f.1 (toBE 2 (v % 65536).toNat)) e

end Editing

/-- What a script needs of the frame: received bytes, waybill, data area. -/
structure EditCtx where
  orig : List Byte
  wb : BitVec 512
  data : List Byte
deriving DecidableEq, Repr

/-- One operation; the error or the expiry of a TTL end the edit. -/
def EditCtx.step (x : EditCtx) (e : Editing) (o : EditOp) : Editing ⊕ Edited :=
  let len := e.bytes.length
  let opt (r : Option Editing) : Editing ⊕ Edited := match r with
    | some e => .inl e
    | none => .inr .err
  let src := (x.data.drop o.data).take o.len
  match o.op with
  | 1 => if len < o.off + o.len then .inr .err else opt (e.delete o.off o.len)
  | 2 => if len < o.off then .inr .err else .inl (e.insert o.off src)
  | 3 => if len < o.off + o.len then .inr .err else .inl (e.write o.off src)
  | 4 => if len < o.off + 2 then .inr .err else .inl (e.write o.off (toBE 2 (Wb.slot x.wb (o.arg % 16))))
  | 5 =>
    if len < o.off + 1 then .inr .err
    else
      let v := byteAt e.plain o.off
      if v ≤ 1 then .inr .ttl else .inl (e.write o.off [BitVec.ofNat 8 (v - 1)])
  | 6 => if len < o.off + 1 then .inr .err else opt (e.ipv4Csum o.off)
  | 7 => if len < o.off + 8 then .inr .err else opt (e.l4Csum x.orig (Wb.get x.wb 4 31 24) o.off (o.arg % 2 = 1))
  | 8 => if len < o.off + 2 then .inr .err else .inl { e with fixes := e.fixes ++ [(o.off, o.arg, o.len)] }
  | 9 =>
    if len < o.off + 1 then .inr .err
    else if Wb.colour x.wb = 0 then .inl e
    else .inl (e.write o.off [BitVec.ofNat 8 (byteAt e.plain o.off) ||| 0x10])
  | _ => .inr .err

/-- Run operations in order. -/
def EditCtx.run (x : EditCtx) (e : Editing) : List EditOp → Editing ⊕ Edited
  | [] => .inl e
  | o :: t => match x.step e o with
    | .inl e => x.run e t
    | .inr r => .inr r

/-- The edit of the frame's front (without FCS): the script, the LEN_FIX fields, the E-tag (R234). -/
def editFront (wb : BitVec 512) (ops : List EditOp) (data body : List Byte) (etag : Option (List Byte)) : Edited :=
  let x : EditCtx := { orig := body, wb, data }
  let off := Wb.get wb 4 31 24
  let l3 := if off = 255 then none else some off
  let e : Editing := { bytes := body.zipIdx.map fun b => (b.1, some b.2), l3, l3v6 := l3, fixes := [] }
  let ins := ((ops.filter fun o => o.op == 2).map EditOp.len).sum
  if 96 < ins + (if etag.isSome then 8 else 0) then .err
  else
    match x.run e ops with
    | .inr r => r
    | .inl e =>
      let bs := e.writeFixes.plain
      match etag with
      | none => .ok bs
      | some t => if bs.length < 12 then .err else .ok (bs.take 12 ++ t ++ bs.drop 12)

/-- By how much a script changes the length (R286). -/
def editDelta (ops : List EditOp) : Int :=
  (((ops.filter fun o => o.op == 2).map fun o => (o.len : Int)).sum) - ((ops.filter fun o => o.op == 1).map fun o => (o.len : Int)).sum

/-! ### E-tags (R101, R102) -/

/-- The eight bytes of an E-tag (PRESUMED, notes/assumptions/13.md). -/
def etagBytes (pcp inBase inExt grp base ext : Nat) : List Byte :=
  [0x89, 0x3F] ++ toBE 2 (pcp % 8 * 8192 + inBase % 4096) ++ toBE 2 (grp % 4 * 4096 + base % 4096) ++
    [BitVec.ofNat 8 inExt, BitVec.ofNat 8 ext]

/-- The E-tag of a frame: E-PCP, Ingress_E-CID, GRP, E-CID_base, E-CID_ext. -/
structure ETag where
  pcp : Nat
  inBase : Nat
  inExt : Nat
  grp : Nat
  base : Nat
  ext : Nat
deriving DecidableEq, Repr

/-- Read the E-tag at byte 12 (PRESUMED, notes/assumptions/13.md; DESIGN CHOICE, notes/assumptions/37.md). -/
def readETag (bs : List Byte) : Option ETag :=
  if bs.length < 20 || be16 bs 12 != 0x893F then none
  else some { pcp := byteAt bs 14 / 32, inBase := be16 bs 14 % 4096, inExt := byteAt bs 18, grp := be16 bs 16 / 4096 % 4,
              base := be16 bs 16 % 4096, ext := byteAt bs 19 }

/-- Ingress priority of a frame (R97): PCP of its outer VLAN tag; on a cascade port the E-PCP of its E-tag; 0 with neither
(DESIGN CHOICE, notes/assumptions/37.md). -/
def ingressPri (cascade : Bool) (bs : List Byte) : Nat :=
  match (if cascade then readETag bs else none) with
  | some t => t.pcp
  | none =>
    let i := if (readETag bs).isSome then 20 else 12
    let t := be16 bs i
    if (t = 0x8100 || t = 0x88A8) && i + 4 ≤ bs.length then byteAt bs (i + 2) / 32 else 0

namespace Chip

/-- Number of a frame's accord. -/
def frameAccord (c : Chip) (f : Frame) : Nat := match f.slot with
  | some i => c.slotNumber i
  | none => 0

/-- The valid subscriber map entry of a slot under a frame's accord, when it is an extended port of port `p`
(DESIGN CHOICE, notes/assumptions/37.md). -/
def extPort (c : Chip) (p slot : Nat) (f : Frame) : Option Word :=
  let w := c.vGet .sub (p / 16) slot
  if (vValidity w).holds (c.frameAccord f) && bits w 30 27 == p % 16 then some w else none

/-- The E-tag that the editor inserts for a copy (R102, R252) (DESIGN CHOICE, notes/assumptions/37.md). -/
def copyETag (c : Chip) (k : Copy) : Option (List Byte) :=
  let f := c.fr (c.arr k.arrival).frame
  let same := k.mcast && f.port == k.port && f.extSub.isSome
  let inBase := if same then f.ecid % 4096 else 0
  let inExt := if same then f.ecid / 4096 else 0
  match k.etag with
  | some (grp, base) => some (etagBytes 0 inBase inExt grp base 0)
  | none =>
    match c.extPort k.port k.named f with
    | some w => some (etagBytes (bits w 11 9) inBase inExt 0 (bits w 23 12) (bits w 26 24))
    | none => none

/-- Operations and data area of a script of a slice; script 0 is empty. -/
def scriptOps (c : Chip) (s i : Nat) : List EditOp := if i = 0 then [] else runOps ((c.obj s).scripts.look (4 * i))

def scriptData (c : Chip) (s i : Nat) : List Byte :=
  [1, 2, 3].flatMap fun p => toLE 32 ((c.obj s).scripts.look (4 * i + p)).toNat

def scriptPoison (c : Chip) (s i : Nat) : Bool := i != 0 && [0, 1, 2, 3].any fun p => c.objPoison s .script i p

/-! ### PTP on egress (R329 to R335) -/

/-- A stamp in units of 2^-16 ns on the time base of a port, with a signed correction in 1/16 ns. -/
def stamp (c : Chip) (p : Nat) (f : Fld) : Nat :=
  (((c.tb (c.get (A.port p) R.PORT_TS_tb)).fine / 2 ^ 32 : Nat) + signed 16 (c.get (A.port p) f) * 4096 : Int).toNat

end Chip

/-- Where the PTP header of an event message starts, and its UDP header: some (ptp, udp). -/
def ptpAt (bs : List Byte) : Option (Nat × Option Nat) :=
  let i := if be16 bs 12 = 0x893F then 20 else 12
  let vlan (i : Nat) : Nat := if be16 bs i = 0x8100 || be16 bs i = 0x88A8 then i + 4 else i
  let i := vlan (vlan i)
  let t := be16 bs i
  let l3 := i + 2
  if t = 0x88F7 then some (l3, none)
  else if t = 0x0800 && byteAt bs l3 / 16 = 4 && byteAt bs (l3 + 9) = 17 then
    let u := l3 + byteAt bs l3 % 16 * 4
    if be16 bs (u + 2) = 319 then some (u + 8, some u) else none
  else if t = 0x86DD && byteAt bs (l3 + 6) = 17 then
    if be16 bs (l3 + 42) = 319 then some (l3 + 48, some (l3 + 40)) else none
  else none

/-- Overwrite bytes of a PTP message and keep a non-zero UDP checksum right (PRESUMED, notes/assumptions/13.md). -/
def ptpWrite (bs : List Byte) (udp : Option Nat) (i : Nat) (w : List Byte) : List Byte :=
  let out := overwrite bs i w
  match udp with
  | none => out
  | some u =>
    let sum := be16 bs (u + 6)
    if sum = 0 then out else overwrite out (u + 6) (toBE 2 (csumUpdate sum ((bs.drop i).take w.length) w))

/-- Add to correctionField, modulo 2^64 (PRESUMED, notes/assumptions/13.md). -/
def ptpCorrect (bs : List Byte) (udp : Option Nat) (ptp d : Nat) : List Byte :=
  ptpWrite bs udp (ptp + 8) (toBE 8 ((ofBE ((bs.drop (ptp + 8)).take 8) + d) % 2 ^ 64))

/-- What the egress MAC of port `p` does to the outgoing front of a frame as it starts. -/
def Chip.ptpEgress (c : Chip) (p : Nat) (f : Frame) (bs : List Byte) : Chip × List Byte :=
  match ptpAt bs with
  | none => (c, bs)
  | some (o, udp) =>
    let mt := byteAt bs o % 16
    if 4 ≤ mt then (c, bs)
    else if 256 < o + 44 || bs.length < o + 44 then (c.cnt (c.portCnt p + C.ptp_parse_skip) 1, bs)
    else
      let t := c.stamp p R.PORT_TS_COMP_tx_corr
      let sec := t / 65536 / 1000000000
      let ns := t / 65536 % 1000000000
      let frac := t % 65536
      if f.injected then
        if c.on (A.port p) R.PORT_TS_one_step && mt = 0 && byteAt bs (o + 6) / 2 % 2 = 0 then
          let bs := ptpWrite bs udp (o + 34) (toBE 6 (sec % 2 ^ 48) ++ toBE 4 ns)
          (c.cnt (c.portCnt p + C.ptp_one_step) 1, ptpCorrect bs udp o frac)
        else if c.on (A.port p) R.PORT_TS_capture_inj then
          let id := bs.drop (o + 20)
          let rec_ : Nat := (2 ^ 28 + c.get (A.port p) R.PORT_TS_tb * 2 ^ 25 + p * 2 ^ 18 + byteAt bs (o + 4)) +
            (mt * 2 ^ 28 + be16 bs (o + 30)) * 2 ^ 32 + ofBE (id.take 4) * 2 ^ 64 + ofBE ((id.drop 4).take 4) * 2 ^ 96 +
            (be16 bs (o + 28) * 65536 + f.hostTag) * 2 ^ 128 + (frac * 65536 + sec / 2 ^ 32 % 65536) * 2 ^ 160 +
            sec % 2 ^ 32 * 2 ^ 192 + ns * 2 ^ 224
          ((c.cnt (c.portCnt p + C.ptp_captured) 1).pushFifo (8 + p / 16) (BitVec.ofNat 256 rec_) |>.1, bs)
        else (c, bs)
      else if c.on (A.port p) R.PORT_TS_tc then
        let m := 65536 * 1000000000 * 65536
        let rx := (Wb.get f.wb 2 31 16 * 1000000000 + Wb.get f.wb 1 31 0) * 65536 + Wb.get f.wb 2 15 0
        let d := (t % m + m - rx % m) % m
        if c.get (A.port f.port) R.PORT_TS_tb != c.get (A.port p) R.PORT_TS_tb then (c.cnt (c.portCnt p + C.ptp_tb_mismatch) 1, bs)
        else if m / 2 ≤ d || c.get (A.port p) R.PORT_TS_TC_tc_max_us * 1000 * 65536 < d then (c.cnt (c.portCnt p + C.ptp_resid_skip) 1, bs)
        else (c.cnt (c.portCnt p + C.ptp_tc) 1, ptpCorrect bs udp o d)
      else (c, bs)

end Sys2Proof.Machine
end

