-- ==== Sys2Proof/Machine/Sched.lean ====
section
/-! DEFINITION. The egress scheduler (spec/13_hierarchical_scheduling.md R280 to R302), what starts a frame on the line
(spec/10_actions_and_editing.md R236 to R239, spec/14_time_gates.md R306 to R309) and its end. -/

namespace Sys2Proof.Machine

open Sys2Proof

/-! ### Tags and buckets -/

/-- `v` at or after `s` modulo 2^40: the later of the two (R284, R285). -/
def tagMax (s v : Nat) : Nat := if (v + 2 ^ 40 - s) % 2 ^ 40 < 2 ^ 39 then v else s

/-- `a` before `b` modulo 2^40. -/
def tagLt (a b : Nat) : Bool := a != b && decide ((b + 2 ^ 40 - a) % 2 ^ 40 < 2 ^ 39)

/-- A node's bucket filled up to a time (R287). An unshaped node's stays at burst (DESIGN CHOICE, notes/assumptions/25.md). -/
def bucketNow (rate burst : Nat) (n : Node) (now : Nat) : Bucket :=
  match n.bucket with
  | none => Bucket.full burst
  | some b => if rate = 0 then Bucket.full burst else b.fill rate burst (now - n.filled)

/-- A node conforms: it is unshaped, or its bucket stands at or above zero (R287). -/
def conforms (rate burst : Nat) (n : Node) (now : Nat) : Bool := rate == 0 || decide (0 ≤ (bucketNow rate burst n now).level)

/-- Debit a bucket. -/
def debit (rate burst : Nat) (n : Node) (now : Nat) (bytes : Int) : Node :=
  { n with bucket := if rate = 0 then none else some ((bucketNow rate burst n now).debit bytes), filled := now }

/-- Finish and next start tag after `L` counted bytes (R284). -/
def chargeTags (weight : Nat) (n : Node) (len : Int) : Node :=
  let f := (n.s + (len.toNat * 4096 + weight - 1) / Nat.max 1 weight) % 2 ^ 40
  { n with f, s := f }

/-! ### Records (Table 13-3 to 13-5) -/

/-- Slice and level of a scheduler record window. -/
def schedWindow (base : Nat) : Option (Nat × Level) :=
  if base < 0x08000000 || 0x10000000 ≤ base then none
  else
    let s := (base - 0x08000000) / 0x01000000
    match base % 0x01000000 with
    | 0x810000 => some (s, .heart)
    | 0x810040 => some (s, .top)
    | 0x810080 => some (s, .queue)
    | _ => none

def Level.count : Level → Nat
  | .queue => 16384
  | _ => 2048

/-- A record's live copy. -/
def Records.live (r : Records) (l : Level) (i : Nat) : Entry :=
  match l with
  | .heart => BitVec.ofNat 256 (r.heart.look i).toNat
  | .top => BitVec.ofNat 256 (r.top.look i).toNat
  | .queue => r.queue.look i

/-- What is staged for a record, where it differs from the live copy. -/
def Records.stagedOf (r : Records) (l : Level) (i : Nat) : Option Entry :=
  match l with
  | .heart => (r.heartStaged.look i).map fun x => BitVec.ofNat 256 x.toNat
  | .top => (r.topStaged.look i).map fun x => BitVec.ofNat 256 x.toNat
  | .queue => r.queueStaged.look i

/-- A record's staged copy. -/
def Records.staged (r : Records) (l : Level) (i : Nat) : Entry := (r.stagedOf l i).getD (r.live l i)

/-- Write a staged copy. -/
def Records.stage (r : Records) (l : Level) (i : Nat) (e : Entry) : Records :=
  let r := { r with written := if r.written.contains (l, i) then r.written else r.written ++ [(l, i)] }
  match l with
  | .heart => { r with heartStaged := r.heartStaged.set i (some (BitVec.ofNat 128 e.toNat)) }
  | .top => { r with topStaged := r.topStaged.set i (some (BitVec.ofNat 128 e.toNat)) }
  | .queue => { r with queueStaged := r.queueStaged.set i (some e) }

/-- Every record with a staged copy of its own, and that copy. -/
def Records.allStaged (r : Records) : List (Level × Nat × Entry) :=
  (r.heartStaged.filterMap fun p => p.2.map fun x => (Level.heart, p.1, BitVec.ofNat 256 x.toNat)) ++
  (r.topStaged.filterMap fun p => p.2.map fun x => (Level.top, p.1, BitVec.ofNat 256 x.toNat)) ++
  (r.queueStaged.filterMap fun p => p.2.map fun x => (Level.queue, p.1, x))

/-- A staged record differs from its live copy. -/
def Records.differs (r : Records) : Bool := r.allStaged.any fun x => x.2.2 != r.live x.1 x.2.1

/-- Write a live copy. -/
def Records.setLive (r : Records) (l : Level) (i : Nat) (e : Entry) : Records :=
  match l with
  | .heart => { r with heart := r.heart.set i (BitVec.ofNat 128 e.toNat) }
  | .top => { r with top := r.top.set i (BitVec.ofNat 128 e.toNat) }
  | .queue => { r with queue := r.queue.set i e }

/-- Staged copies that equal their live ones are one with them again. -/
def Records.settled (r : Records) : Records :=
  { r with
    heartStaged := r.heartStaged.filter fun p => p.2 != some (r.heart.look p.1)
    topStaged := r.topStaged.filter fun p => p.2 != some (r.top.look p.1)
    queueStaged := r.queueStaged.filter fun p => p.2 != some (r.queue.look p.1) }

/-- The live copies go over the staged ones; those of a pending snapshot stay staged as they are, since the snapshot will change the live
copies (spec/02_configuration_image.md R45, R48). -/
def Records.reverted (r : Records) : Records :=
  { r with
    heartStaged := (r.snap.filter (·.1 == .heart)).foldl (fun t x => t.set x.2.1 (some (r.heart.look x.2.1))) []
    topStaged := (r.snap.filter (·.1 == .top)).foldl (fun t x => t.set x.2.1 (some (r.top.look x.2.1))) []
    queueStaged := (r.snap.filter (·.1 == .queue)).foldl (fun t x => t.set x.2.1 (some (r.queue.look x.2.1))) []
    written := r.snap.map fun x => (x.1, x.2.1) }

def Level.code : Level → Nat
  | .heart => 1
  | .top => 2
  | .queue => 3

def Level.ofCode : Nat → Level
  | 1 => .heart
  | 2 => .top
  | _ => .queue

namespace Chip

/-! ### Lengths and modes -/

/-- Editing operations of a copy. -/
def copyOps (c : Chip) (k : Copy) : List EditOp := c.scriptOps k.slice k.script

/-- Outgoing length of a copy of which `len` bytes count: inserts, deletes and E-tag are added, but for a truncated mirror copy (R286). -/
def editedLen (c : Chip) (k : Copy) (len : Nat) : Nat :=
  if c.truncated (c.arr k.arrival) then Nat.min len (256 * (c.arr k.arrival).trunc)
  else ((len : Int) + editDelta (c.copyOps k) + (if (c.copyETag k).isSome then 8 else 0)).toNat

/-- Outgoing length of a copy (R286): from frame_len once that is written, until then from the bytes that the egress holds, at least 64
(R288). -/
def outLen (c : Chip) (id : Nat) : Nat :=
  let k := c.cpy id
  let a := c.arr k.arrival
  let f := c.fr a.frame
  c.editedLen k (if f.whole then f.bytes.length else if a.closed then a.bytesHeld else Nat.max 64 a.bytesHeld)

def baseOverhead (c : Chip) (p : Nat) : Int := signed 7 (c.get (baseAt (p / 16) (p % 16)) R.BASE_CFG_overhead)

/-- Counted transmission time of `bytes` outgoing bytes on a port (R306). -/
def countedTime (c : Chip) (p bytes : Nat) : Nat := txTime ((bytes : Int) + c.baseOverhead p).toNat (c.rateMbps p)

/-- A gate lets the head copy of its queue start (R307). -/
def gateAllows (c : Chip) (id : Nat) : Bool :=
  let k := c.cpy id
  let p := k.port
  if !(c.on (A.port p) R.GATE_CTRL_enable) then true
  else if c.gatesNow p / 2 ^ k.cls % 2 = 0 then false
  else
    let fits (n : Nat) : Bool := match c.openTime p k.cls with
      | none => true
      | some r => decide (c.countedTime p n ≤ r)
    if (c.arr k.arrival).closed then fits (c.outLen id)
    else
      let g := c.get (A.port p + 4 * k.cls) R.GATE_GUARD_guard_bytes
      decide (c.frameMax (c.fr (c.arr k.arrival).frame) ≤ g) && fits g

/-- Every cell of an arrival that has come is on die, none on its way to HBM (spec/12_innkeeper_buffers.md R270)
(DESIGN CHOICE, notes/assumptions/50.md). -/
def allDie (c : Chip) (aid : Nat) : Bool :=
  (c.arr aid).die == (c.arr aid).places.length && (c.onDie ((c.arr aid).slice / 4) aid).length == (c.arr aid).places.length

/-- The conditions of R236 but the last (DESIGN CHOICE, notes/assumptions/51.md). -/
def cutAllowed (c : Chip) (id : Nat) : Bool :=
  let k := c.cpy id
  let a := c.arr k.arrival
  let f := c.fr a.frame
  Wb.ctOk a.wb && !((c.copyOps k).any fun o => o.op == 8) && !f.injected && decide (c.rateMbps f.port ≤ c.rateMbps k.port) &&
    (c.queueCopies k.slice k.queue).head? == some id && !(c.on (A.port k.port) R.PORT_STATUS_in_hold) &&
    !(c.on (A.port k.port) R.PORT_STATUS_flushed) && !(c.on (A.port k.port) R.PORT_STATUS_tx_lpi) && (c.prt k.port).waking.isNone &&
    c.get (A.port k.port) R.PORT_STATUS_paused / 2 ^ k.cls % 2 == 0 && c.gateAllows id && c.allDie k.arrival

/-- S of R236: bytes that a cut-through copy needs. -/
def cutBytes (c : Chip) (id : Nat) : Nat :=
  let k := c.cpy id
  let f := c.fr (c.arr k.arrival).frame
  let i := c.rateMbps f.port
  let o := c.rateMbps k.port
  512 + (c.frameMax f * (o - i) + o - 1) / o

/-- The head copy may start under R236 and R237, or is stored whole. -/
def headReady (c : Chip) (id : Nat) : Bool :=
  let k := c.cpy id
  let a := c.arr k.arrival
  let die := c.allDie k.arrival
  let stored := a.closed && die
  match k.mode with
  | .stored => stored
  | .cut => die && (a.closed || decide (c.cutBytes id ≤ a.bytesHeld))
  | .undecided => stored || (c.cutAllowed id && decide (c.cutBytes id ≤ a.bytesHeld))

/-- The first scheduling decision of every undecided copy of a port (R236) (DESIGN CHOICE, notes/assumptions/51.md). -/
def decideModes (c : Chip) (p : Nat) : Chip :=
  c.each (c.portCopies p) fun c id =>
    if (c.cpy id).mode = .undecided then c.setCpy id { c.cpy id with mode := if c.cutAllowed id then .cut else .stored } else c

/-! ### Eligibility (R282, R285) -/

/-- The port sends frames: up, neither in hold nor flushed, its slice running, its transmitter awake (DEDUCED, notes/assumptions/75.md). -/
def portServes (c : Chip) (p : Nat) : Bool :=
  c.alive (U.slice (p / 16)) && !(c.asleep (p / 16)) && !(c.inReset (U.port p)) && c.on (A.port p) R.PORT_STATUS_link_up &&
    !(c.on (A.port p) R.PORT_STATUS_in_hold) && !(c.on (A.port p) R.PORT_STATUS_flushed)

def queueElig (c : Chip) (p n : Nat) : Bool :=
  let s := p / 16
  match (c.queueCopies s n).head? with
  | none => false
  | some id =>
    let r := c.queueRec s n
    c.headReady id && c.get (A.port p) R.PORT_STATUS_paused / 2 ^ (n % 8) % 2 == 0 && c.gateAllows id &&
      conforms (QueueRec.rate r) (QueueRec.burst r) ((c.sch s).queue.look n) c.now

/-- Base note of a queue, by the live records. -/
def queueBase (c : Chip) (s n : Nat) : Nat := HeartRec.port (c.heartRec s (TopRec.heart (c.topRec s (n / 8))))

/-- Eligible queues, top notes and heart notes under a port's base note. -/
def eligSets (c : Chip) (p : Nat) : List Nat × List Nat × List Nat :=
  if !(c.portServes p) then ([], [], [])
  else
    let s := p / 16
    let qs := (c.portQueues p).filter fun n => c.queueElig p n
    let ts := ((qs.map (· / 8)).dedup).filter fun t =>
      let r := c.topRec s t
      TopRec.enable r && conforms (TopRec.rate r) (TopRec.burst r) ((c.sch s).top.look t) c.now
    let hs := ((ts.map fun t => TopRec.heart (c.topRec s t)).dedup).filter fun h =>
      let r := c.heartRec s h
      HeartRec.enable r && HeartRec.port r == p % 16 && conforms (HeartRec.rate r) (HeartRec.burst r) ((c.sch s).heart.look h) c.now
    (qs, ts, hs)

end Chip

/-- Mark the nodes that are eligible; one that becomes so starts at the later of its tag and its parent's time (R285). -/
def markNodes (t : Tbl Node) (under : Nat → Bool) (now : List Nat) (v : Nat → Nat) : Tbl Node :=
  let t' := (t.filter fun x => x.2.elig && under x.1 && !(now.contains x.1)).foldl (fun t x => t.set x.1 { x.2 with elig := false }) t
  now.foldl (fun t i => let n := t.look i; if n.elig then t else t.set i { n with elig := true, s := tagMax n.s (v i) }) t'

namespace Chip

/-- Mark what is eligible under a port's base note (R285). -/
def markPort (c : Chip) (p : Nat) : Chip :=
  let s := p / 16
  let q := p % 16
  let e := c.eligSets p
  let k := c.sch s
  c.setSch s { k with
    queue := markNodes k.queue (fun n => c.queueBase s n == q) e.1 fun n => (k.top.look (n / 8)).v
    top := markNodes k.top (fun t => HeartRec.port (c.heartRec s (TopRec.heart (c.topRec s t))) == q) e.2.1 fun t =>
      (k.heart.look (TopRec.heart (c.topRec s t))).v
    heart := markNodes k.heart (fun h => HeartRec.port (c.heartRec s h) == q) e.2.2 fun _ => (k.base.look q).v }

/-- Child with the smallest start tag, lowest index on a tie (R283). -/
def pickChild (tag : Nat → Nat) (l : List Nat) : Option Nat :=
  l.foldl (fun b x => match b with
    | none => some x
    | some y => if tagLt (tag x) (tag y) || (tag x == tag y && decide (x < y)) then some x else b) none

/-- With urgency, only the urgent children count when there is one. -/
def urgentOf (on : Bool) (urgent : Nat → Bool) (l : List Nat) : List Nat :=
  if on && l.any urgent then l.filter urgent else l

/-- The queue that a port sends from next (R283): heart, top, queue. -/
def choose (c : Chip) (p : Nat) : Option (Nat × Nat × Nat) :=
  let s := p / 16
  let k := c.sch s
  let e := c.eligSets p
  let baseOk := conforms (c.get (baseAt s (p % 16)) R.BASE_RATE_rate) (c.get (baseAt s (p % 16)) R.BASE_BURST_burst) (k.base.look (p % 16)) c.now
  let strict (n : Nat) : Bool := TopRec.strict (c.topRec s (n / 8)) / 2 ^ (n % 8) % 2 == 1
  let urgTop (t : Nat) : Bool := e.1.any fun n => n / 8 == t && strict n
  let urgHeart (h : Nat) : Bool := e.2.1.any fun t => TopRec.heart (c.topRec s t) == h && urgTop t
  if !baseOk then none
  else
    match pickChild (fun h => (k.heart.look h).s) (urgentOf (c.on (baseAt s (p % 16)) R.BASE_CFG_urgent_first) urgHeart e.2.2) with
    | none => none
    | some h =>
      let ts := e.2.1.filter fun t => TopRec.heart (c.topRec s t) == h
      match pickChild (fun t => (k.top.look t).s) (urgentOf (HeartRec.urgent (c.heartRec s h)) urgTop ts) with
      | none => none
      | some t =>
        let ns := e.1.filter fun n => n / 8 == t
        match (ns.filter strict).max? with
        | some n => some (h, t, n)
        | none => (pickChild (fun n => (k.queue.look n).s) ns).map fun n => (h, t, n)

/-- Charge a chosen frame down its path: virtual times, tags and buckets (R284, R287). -/
def chargePath (c : Chip) (p h t n : Nat) (len : Int) : Chip :=
  let s := p / 16
  let q := p % 16
  let k := c.sch s
  let hr := c.heartRec s h
  let tr := c.topRec s t
  let qr := c.queueRec s n
  let b := len + c.baseOverhead p
  let i := len + HeartRec.overhead hr
  let base := debit (c.get (baseAt s q) R.BASE_RATE_rate) (c.get (baseAt s q) R.BASE_BURST_burst) (k.base.look q) c.now b
  let heart := debit (HeartRec.rate hr) (HeartRec.burst hr) (k.heart.look h) c.now i
  let top := debit (TopRec.rate tr) (TopRec.burst tr) (k.top.look t) c.now i
  let queue := debit (QueueRec.rate qr) (QueueRec.burst qr) (k.queue.look n) c.now i
  let c := c.setSch s { k with
    base := k.base.set q { base with v := (k.heart.look h).s }
    heart := k.heart.set h (chargeTags (HeartRec.weight hr) { heart with v := (k.top.look t).s } b)
    top := k.top.set t (chargeTags (TopRec.weight tr) { top with v := (k.queue.look n).s } i)
    queue := k.queue.set n (chargeTags (QueueRec.weight qr) queue i) }
  c.put (baseAt s q) R.BASE_VTIME_vtime (k.heart.look h).s

/-- Charge more of a frame whose length is now known (R288). -/
def chargeMore (c : Chip) (p n : Nat) (was now : Int) : Chip :=
  let s := p / 16
  let q := p % 16
  let k := c.sch s
  let t := n / 8
  let h := TopRec.heart (c.topRec s t)
  let hr := c.heartRec s h
  let tr := c.topRec s t
  let qr := c.queueRec s n
  let tagOf (w : Nat) (len : Int) : Nat := (len.toNat * 4096 + w - 1) / Nat.max 1 w
  let more (w : Nat) (o : Int) (x : Node) : Node :=
    let d := tagOf w (now + o) + 2 ^ 40 - tagOf w (was + o)
    { x with s := (x.s + d) % 2 ^ 40, f := (x.f + d) % 2 ^ 40 }
  let b := c.baseOverhead p
  let o := HeartRec.overhead hr
  c.setSch s { k with
    base := k.base.upd q fun x => debit (c.get (baseAt s q) R.BASE_RATE_rate) (c.get (baseAt s q) R.BASE_BURST_burst) x c.now (now - was)
    heart := k.heart.upd h fun x => more (HeartRec.weight hr) b (debit (HeartRec.rate hr) (HeartRec.burst hr) x c.now (now - was))
    top := k.top.upd t fun x => more (TopRec.weight tr) o (debit (TopRec.rate tr) (TopRec.burst tr) x c.now (now - was))
    queue := k.queue.upd n fun x => more (QueueRec.weight qr) o (debit (QueueRec.rate qr) (QueueRec.burst qr) x c.now (now - was)) }

/-! ### Damaged records (R298, R299) -/

/-- Words of a node in the scheduler's group: live record, staged record, tags; level 1 heart, 2 top, 3 queue
(DESIGN CHOICE, notes/assumptions/14.md). -/
def nodeWords (level i : Nat) : Nat × Nat × Nat × Nat :=
  match level with
  | 1 => (2 * i, 4096 + 2 * i, 147456 + i, 2)
  | 2 => (8192 + 2 * i, 12288 + 2 * i, 149504 + i, 2)
  | _ => (16384 + 4 * i, 81920 + 4 * i, 151552 + i, 4)

def schedGroup (s : Nat) : Nat := U.sliceBlk s 0x70


/-- Empty a queue whose state is damaged or whose node acts as disabled. -/
def emptyQueue (c : Chip) (s n : Nat) : Chip :=
  c.each (c.queueCopies s n) fun c id => (c.cnt (c.sliceCnt s + C.sched_poison_flush) 1).dropQueued id

def schedPoison (c : Chip) (s level i sev : Nat) : Chip :=
  (c.reportPoison [schedGroup s] (schedGroup s) K.schedPoison sev (level * 2 ^ 14 + i)).put (c.sliceCnt s) R.SCHED_EVENT_poison 1

/-- A changed rate or burst keeps the bucket as it stands, clamped to the new burst; a node that was not enabled starts at its burst
(R297) (DESIGN CHOICE, notes/assumptions/25.md). -/
def keepBucket (was : Bool) (rate burst new now : Nat) (n : Node) : Node :=
  { n with bucket := if was then some ((bucketNow rate burst n now).clamp new) else none, filled := now }

/-- A node's new record: the bucket is kept, and a top note that moved takes S = V of its new parent (R297)
(DESIGN CHOICE, notes/assumptions/25.md). -/
def nodeTake (c : Chip) (s : Nat) (l : Level) (i : Nat) (was now : Entry) : Chip :=
  let k := c.sch s
  let w : BitVec 128 := BitVec.ofNat 128 was.toNat
  let r : BitVec 128 := BitVec.ofNat 128 now.toNat
  match l with
  | .heart => c.setSch s { k with heart := k.heart.upd i (keepBucket (HeartRec.enable w) (HeartRec.rate w) (HeartRec.burst w) (HeartRec.burst r) c.now) }
  | .top =>
    let n := keepBucket (TopRec.enable w) (TopRec.rate w) (TopRec.burst w) (TopRec.burst r) c.now (k.top.look i)
    c.setSch s { k with top := k.top.set i (if TopRec.heart r = TopRec.heart w then n else { n with s := (k.heart.look (TopRec.heart r)).v }) }
  | .queue =>
    (c.setSch s { k with queue := k.queue.upd i (keepBucket (QueueRec.enable was) (QueueRec.rate was) (QueueRec.burst was) (QueueRec.burst now) c.now) }).when
      (QueueRec.spillDepth was != QueueRec.spillDepth now) fun c => c.noteQueue s i

/-- A record's staged copy: the suite's, or the slice's own live record where nothing is staged. -/
def stagedRec (c : Chip) (s : Nat) (l : Level) (i : Nat) : Entry :=
  ((c.recs (c.emHome s)).stagedOf l i).getD ((c.recs s).live l i)

/-- A node's staged record becomes its live one alone, as a go for it would make it (R298). -/
def takeStaged (c : Chip) (s : Nat) (l : Level) (i : Nat) : Chip :=
  let was := (c.recs s).live l i
  let now := c.stagedRec s l i
  let r := (c.recs s).setLive l i now
  (c.setRecs s { r with written := r.written.filter (· != (l, i)) }).nodeTake s l i was now

/-- Queues under a node that hold copies. -/
def queuesUnder (c : Chip) (s level i : Nat) : List Nat :=
  ((c.sch s).copies.map Prod.fst).filter fun n =>
    match level with
    | 1 => TopRec.heart (c.topRec s (n / 8)) == i
    | 2 => n / 8 == i
    | _ => n == i

/-- Check one node as the scheduler reads it, and repair it. -/
def schedRepair (c : Chip) (s level i : Nat) : Chip :=
  let u := schedGroup s
  let w := nodeWords level i
  let c :=
    if c.anyPoison u w.1 w.2.2.2 then
      let lv := Level.ofCode level
      if c.anyPoison u w.2.1 w.2.2.2 then
        let c := c.each (c.queuesUnder s level i) fun c n => c.emptyQueue s n
        ((c.setRecs s ((c.recs s).setLive lv i 0)).coverWords u w.1 w.2.2.2).schedPoison s level i 3
      else if (c.recs (c.emHome s)).written.contains (lv, i) then
        ((c.takeStaged s lv i).coverWords u w.1 w.2.2.2).schedPoison s level i 2
      else ((c.coverWords u w.1 w.2.2.2).cnt (c.sliceCnt s + C.record_repair) 1).schedPoison s level i 1
    else c
  let c :=
    if c.poisoned u w.2.2.1 then
      let k := c.sch s
      let k := match level with
        | 1 => { k with heart := k.heart.upd i fun x => { x with s := (k.base.look (HeartRec.port (c.heartRec s i))).v, bucket := none } }
        | 2 => { k with top := k.top.upd i fun x => { x with s := (k.heart.look (TopRec.heart (c.topRec s i))).v, bucket := none } }
        | _ => { k with queue := k.queue.upd i fun x => { x with s := (k.top.look (i / 8)).v, bucket := none } }
      (((c.setSch s k).coverWords u w.2.2.1 1).cnt (c.sliceCnt s + C.record_repair) 1).schedPoison s level i 1
    else c
  if level = 3 && c.poisoned u (167936 + i) then
    (((c.emptyQueue s i).coverWords u (167936 + i) 1).reportPoison [u] u K.schedQueuePoison 3 (s * 16384 + i)).put (c.sliceCnt s) R.SCHED_EVENT_queue_poison 1
  else c

/-- Check every node that a port's decision reads. -/
def schedCheck (c : Chip) (p : Nat) : Chip :=
  if (c.grp (schedGroup (p / 16))).poison.isEmpty then c
  else
    let s := p / 16
    c.each (c.portQueues p) fun c n =>
      let t := n / 8
      ((c.schedRepair s 1 (TopRec.heart (c.topRec s t))).schedRepair s 2 t).schedRepair s 3 n

/-- Check every node that the admission of a copy reads (R298). -/
def admitCheck (c : Chip) (s sub p cls : Nat) : Chip :=
  if (c.grp (schedGroup s)).poison.isEmpty then c
  else
    let c := c.schedRepair s 2 sub
    let c := c.schedRepair s 1 (TopRec.heart (c.topRec s sub))
    match c.queueSeen p sub cls with
    | some n => (c.schedRepair s 2 (n / 8)).schedRepair s 3 n
    | none => c

/-- Test a copy for its port and queue, and enqueue it; a copy that fails ends (R86, R281, R292, R293). -/
def offerCopy (c : Chip) (id room : Nat) : Chip :=
  let k := c.cpy id
  if c.on (A.port k.port) R.PORT_STATUS_flushed then (c.cnt (c.portCnt k.port + C.link_down_drop) 1).endCopy id
  else
    let q := (c.admitCheck k.slice k.named k.port k.cls).queueFor k.port k.named k.cls
    match q.2 with
    | none => q.1.endCopy id
    | some n =>
      let f := q.1.queueTest k.slice n room (Wb.colour (c.arr k.arrival).wb)
      if f = 0 then q.1.enqueue id n
      else ((q.1.cnt (q.1.sliceCnt k.slice + f) 1).countQueueDrop k.slice n id).endCopy id

/-! ### Gates over head frames (R308, R309) -/

/-- A head frame of known length that no window fits is dropped, with at most one record per 1 ms; one that waits for a window is counted
once (R308, R309). -/
def gateHead (c : Chip) (p n id : Nat) : Chip :=
  let k := c.cpy id
  if (c.queueCopies (p / 16) n).head? != some id || !((c.arr k.arrival).closed) then c
  else
    let t := c.countedTime p (c.outLen id)
    let w := c.wmax p (c.activeList p) k.cls
    if w != 0x7FFFFFF && decide (8 * w < t) then
      let c := ((c.cnt (c.portCnt p + C.gate_oversize) 1).put (c.portCnt p) R.GATE_EVENT_oversize 1).dropQueued id
      if (match (c.prt p).oversizeAt with
          | none => true
          | some t => c.passedUs t 1000) then
        (c.updPrt p fun q => { q with oversizeAt := some c.now }).report (U.port p) K.gateOversize 0 (p / 16 * 16384 + n)
      else c
    else if !k.waited && c.gatesNow p / 2 ^ k.cls % 2 == 1 && !(c.gateAllows id) then
      (c.setCpy id { k with waited := true }).cnt (c.portCnt p + C.gate_window_wait) 1
    else c

/-- Every head frame of a port, and each that becomes one. -/
def gateHeads (c : Chip) (p : Nat) : Chip :=
  if !(c.on (A.port p) R.GATE_CTRL_enable) then c
  else c.each (c.portQueues p) fun c n => c.each (c.queueCopies (p / 16) n) fun c id => c.gateHead p n id

/-- Bring a port up to date after an event: its head frames against the windows, then what is eligible
(DESIGN CHOICE, notes/assumptions/51.md). -/
def schedSync (c : Chip) (p : Nat) : Chip := (c.gateHeads p).markPort p

/-! ### Transmission -/

/-- Address of the first cell of a frame on die whose data is uncorrectable: 32 words of a cell (DESIGN CHOICE, notes/assumptions/14.md). -/
def cellPoisoned (c : Chip) (h : Nat) (a : Arrival) : Option Nat :=
  if (c.grp (U.halfBlk h 8)).poison.isEmpty then none
  else a.places.findSome? fun w => match w with
    | .die p => if c.anyPoison (U.halfBlk h 8) (32 * p) 32 then some p else none
    | .bundle _ => none

/-- Every copy of an arrival that has not started is dropped for a bad frame (R238). -/
def dropBad (c : Chip) (aid : Nat) : Chip :=
  c.each ((c.arr aid).copies) fun c id =>
    if c.chosen id (c.cpy id).port then c else (c.cnt (c.sliceCnt (c.cpy id).slice + C.egress_bad_drop) 1).endCopy id

/-- A frame's cell on die is uncorrectable where it is read: the frame is bad, stomped if it has started and dropped otherwise
(spec/12_innkeeper_buffers.md R273). -/
def badCell (c : Chip) (aid p : Nat) : Chip :=
  let h := (c.arr aid).slice / 4
  ((c.setArr aid { c.arr aid with bad := true }).reportPoison [U.halfBlk h 8] (U.halfBlk h 0) K.innkCellPoison 3 (p * 256)).dropBad aid

/-- A frame's cells on die are read: correctable words are counted (spec/17_memory_protection.md R375), and the first cell that is
uncorrectable makes the frame bad (R273). -/
def readCells (c : Chip) (aid : Nat) : Chip :=
  let a := c.arr aid
  let h := a.slice / 4
  let c := if (c.grp (U.halfBlk h 8)).soft.isEmpty then c
    else c.each a.places fun c w => match w with
      | .die p => c.seeWords (U.halfBlk h 8) (32 * p) 32
      | .bundle _ => c
  match c.cellPoisoned h a with
  | some p => c.badCell aid p
  | none => c

/-- A chosen frame begins on the line: the MAC recognises PTP event messages. -/
def startTx (c : Chip) (p : Nat) (t : Tx) : Chip :=
  let r := c.ptpEgress p (c.fr (c.arr (c.cpy t.copy).arrival).frame) t.front
  r.1.updPrt p fun q => { q with tx := some { t with front := r.2 } }

/-- Bytes of cell `i` of a frame that the egress holds: what was written to it, or what a later frame wrote there
(spec/12_innkeeper_buffers.md R278). -/
def cellBytes (c : Chip) (a : Arrival) (i : Nat) (w : Place) : List Byte :=
  let own := (((c.fr a.frame).bytes.take a.bytesHeld).drop (256 * i)).take 256
  match w with
  | .die p =>
    let later := (c.innk (a.slice / 4)).content.look p
    (later ++ own.drop later.length).take own.length
  | .bundle _ => own

/-- The frame's bytes that the egress holds, without the last four, which are or may be its FCS. -/
def heldBody (c : Chip) (a : Arrival) : List Byte :=
  if (c.innk (a.slice / 4)).content.isEmpty then (c.fr a.frame).bytes.take (a.bytesHeld - 4)
  else (a.places.zipIdx.flatMap fun w => c.cellBytes a w.2 w.1).take (a.bytesHeld - 4)

/-- Send the head of a chosen queue: edit it and give it to the MAC, or drop it; one that is too long with what has come of it, too
(spec/04_ports_and_lanes.md R93). -/
def sendHead (c : Chip) (p id : Nat) : Chip :=
  let k := c.cpy id
  let a := c.arr k.arrival
  let s := p / 16
  let body := c.heldBody a
  if c.scriptPoison s k.script then
    ((c.cnt (c.sliceCnt s + C.object_poison_drop) 1).reportPoison [U.sliceBlk s 0x60] (U.sliceBlk s 0x60) K.objectPoison 3 k.script).endCopy id
  else
    match editFront a.wb (c.copyOps k) (c.scriptData s k.script) body (c.copyETag k) with
    | .err => ((c.cnt (c.sliceCnt s + C.edit_err_drop) 1).report (U.sliceBlk s 0x60) K.scriptErr 1 k.script).endCopy id
    | .ttl => (c.cnt (c.sliceCnt s + C.ttl_expired) 1).endCopy id
    | .ok bs =>
      if c.maxFrame p < bs.length + 4 then (c.cnt (c.portCnt p + C.tx_oversize) 1).endCopy id
      else
        let c := c.dequeue id
        let cut := !a.closed
        let c := (c.setCpy id { k with charged := c.outLen id }).cnt (c.sliceCnt s + (if k.mode = .cut then C.ct_frames else C.sf_frames)) 1
        c.startTx p { copy := id, cut, front := bs, used := body.length, maxFrame := c.maxFrame p }

/-- Ingress priority of a frame of a port. -/
def framePri (c : Chip) (f : Frame) : Nat := ingressPri (c.on (A.port f.home) R.PORT_PE_cascade) f.bytes

/-- Cells on the plane links, in the planes, held back for a barrier and in the wake stores; a cell that is sent again counts once. -/
def fabricCells (c : Chip) : List Cell :=
  (c.planes.flatMap fun x => (x.2.outs ++ x.2.loop).flatMap fun (y : Nat × List Cell) => y.2) ++ (c.links.flatMap fun x => x.2.flight.dedup) ++
    (c.heldCells.flatMap fun x => x.2.map Prod.snd) ++ (c.house.wakeStore.flatMap fun x => x.2.filterMap fun w => match w with
      | .cell _ y => some y
      | .frame _ => none)

/-- Cells held anywhere for frames that entered port `p` with a priority (R97) (DESIGN CHOICE, notes/assumptions/35.md). -/
def pfcCells (c : Chip) (p pri : Nat) : Nat :=
  let mine (id : Nat) : Bool := match c.frames.look id with
    | some f => f.port == p && c.framePri f == pri
    | none => false
  (c.frames.map fun x => match x.2 with
    | some f => if f.staged && mine x.1 then cellsOf f.bytes.length else 0
    | none => 0).sum +
  (c.fabricCells.filter fun y => !y.barrier && mine (c.strm y.stream).frame).length +
  (c.arrivals.map fun x => match x.2 with
    | some a => if mine a.frame then a.places.length else 0
    | none => 0).sum

/-- Pause is sent for a priority (R97) (DESIGN CHOICE, notes/assumptions/35.md). -/
def txEn (c : Chip) (p k : Nat) : Bool :=
  let m := c.get (A.port p) R.PORT_FLOW_mode
  (m == 2 || (m == 1 && k == 0)) && c.get (A.port p) R.PORT_FLOW_tx_en / 2 ^ k % 2 == 1

def xoffSent (c : Chip) (p k : Nat) : Bool := c.get (A.port p) R.PORT_STATUS_xoff_sent / 2 ^ k % 2 == 1

/-- An XOFF is due for a priority: its count is over the threshold, or a standing XOFF must be sent again (R97)
(DESIGN CHOICE, notes/assumptions/35.md). -/
def xoffNeeded (c : Chip) (p k : Nat) : Bool :=
  c.txEn p k &&
    (if c.xoffSent p k then bit (c.prt p).xoffDue k
     else bit (c.prt p).xoffDue k || decide (c.get (A.port p + 4 * k) R.PORT_PFC_THRESH_xoff_8cells * 8 < c.pfcCells p k))

/-- An XON is due (R97) (DESIGN CHOICE, notes/assumptions/35.md). -/
def xonNeeded (c : Chip) (p k : Nat) : Bool :=
  c.xoffSent p k && decide (c.pfcCells p k ≤ c.get (A.port p + 4 * k) R.PORT_PFC_THRESH_xon_8cells * 8)

/-- A pause message waits to be sent ahead of the next frame (R98). -/
def pauseWaits (c : Chip) (p : Nat) : Bool := (List.range 8).any fun k => c.xoffNeeded p k || c.xonNeeded p k

/-! ### Records that take effect (R297) -/

/-- One record of a snapshot becomes live in slice `s` (spec/01_architecture.md R476). -/
def recordTake (c : Chip) (s : Nat) (x : Level × Nat × Entry) : Chip :=
  let was := (c.recs s).live x.1 x.2.1
  let c := c.setRecs s ((c.recs s).setLive x.1 x.2.1 x.2.2)
  let w := nodeWords x.1.code x.2.1
  (c.coverWords (schedGroup s) w.1 w.2.2.2).nodeTake s x.1 x.2.1 was x.2.2

/-- The snapshot's records whose node `which` names become live. -/
def takeRecords (c : Chip) (s : Nat) (which : Level → Nat → Bool) : Chip :=
  let due := (c.recs s).snap.filter fun x => which x.1 x.2.1
  if due.isEmpty then c
  else
    let c := due.foldl (fun c x => c.recordTake s x) c
    c.setRecs s { c.recs s with snap := (c.recs s).snap.filter fun x => !(which x.1 x.2.1) }

/-- Staging domain of the scheduler that slice `s` answers to. -/
def schedBase (c : Chip) (s : Nat) : Nat := A.slice (c.emHome s) + 0x800000

/-- The snapshot's registers of base note `q` become live in slice `s`; its bucket is kept. -/
def baseTake (c : Chip) (s q : Nat) : Chip :=
  let b := c.schedBase s
  match c.applies.look b with
  | none => c
  | some a =>
    let due := a.snap.filter fun x => (x.1 - b) / 0x20 == q && x.2 != c.reg (x.1 - b + (A.slice s + 0x800000))
    if due.isEmpty then c
    else
      let rate := c.get (baseAt s q) R.BASE_RATE_rate
      let burst := c.get (baseAt s q) R.BASE_BURST_burst
      let c := due.foldl (fun c x => c.setReg (x.1 - b + (A.slice s + 0x800000)) x.2) c
      c.setSch s { c.sch s with base := (c.sch s).base.upd q (keepBucket true rate burst (c.get (baseAt s q) R.BASE_BURST_burst) c.now) }

/-- The nodes of a path decide now: their changed records become live first. -/
def pathTake (c : Chip) (p h t n : Nat) : Chip :=
  let s := p / 16
  ((c.takeRecords s fun l i => match l with
    | .heart => i == h
    | .top => i == t
    | .queue => i == n).baseTake s (p % 16)).schedSync p

/-- The choice of a port with every changed record on its path live; at most `n` changes of path. -/
def settlePath (p : Nat) : Nat → Chip → Chip
  | 0, c => c
  | n + 1, c =>
    match c.choose p with
    | none => c
    | some (h, t, q) =>
      let d := c.pathTake p h t q
      if d.choose p == some (h, t, q) then d else settlePath p n d

/-- Nodes of slice `s` without an eligible child take their change at once. -/
def idleTake (c : Chip) (s : Nat) : Chip :=
  let es := (List.range 16).map fun q => if (c.portRec (16 * s + q)).isSome then c.eligSets (16 * s + q) else ([], [], [])
  let c := c.takeRecords s fun l i => !(es.any fun e => match l with
    | .heart => e.2.1.any fun t => TopRec.heart (c.topRec s t) == i
    | .top => e.1.any fun n => n / 8 == i
    | .queue => e.1.contains i)
  c.each es.zipIdx fun c e => if e.1.2.2.isEmpty then c.baseTake s e.2 else c

/-- Every node of slice `s` has taken its change. -/
def allTaken (c : Chip) (s : Nat) : Bool :=
  let b := c.schedBase s
  (c.recs s).snap.isEmpty && match c.applies.look b with
  | none => false
  | some a => a.snap.all fun x => x.2 == c.reg (x.1 - b + (A.slice s + 0x800000))

/-- What a decision needs beside an eligible frame: the port serves, is awake, has no frame on the line and no pause message due. -/
def decisionReady (c : Chip) (p : Nat) : Bool :=
  decide (p < 128) && (c.portRec p).isSome && c.portServes p && (c.prt p).tx.isNone && !(c.on (A.port p) R.PORT_STATUS_tx_lpi) &&
    (c.prt p).waking.isNone && !(c.pauseWaits p)

/-- One scheduling decision of a port, with the start of the frame that it chooses (DESIGN CHOICE, notes/assumptions/18.md). -/
def schedDecide (c : Chip) (p : Nat) : Chip :=
  let c := ((c.schedCheck p).decideModes p).schedSync p
  let c := if (c.applies.look (c.schedBase (p / 16))).isNone then c else settlePath p ((c.recs (p / 16)).snap.length + 2) c
  match c.choose p with
  | none => c
  | some (h, t, n) =>
    match (c.queueCopies (p / 16) n).head? with
    | none => c
    | some id =>
      let c := c.readCells (c.cpy id).arrival
      if (c.copies.look id).isNone then c.schedSync p
      else (((c.cnt (c.sliceCnt (p / 16) + C.decisions) 1).chargePath p h t n (c.outLen id)).sendHead p id).schedSync p

/-- A copy on the line ends; while frame_len is not written, its charge is put right later (R288). -/
def endSent (c : Chip) (id : Nat) : Chip :=
  let k := c.cpy id
  let a := c.arr k.arrival
  let f := c.fr a.frame
  let delta : Int := editDelta (c.copyOps k) + (if (c.copyETag k).isSome then 8 else 0)
  (c.when (k.charged != 0 && !f.whole) fun c =>
    let t := c.tail a.frame
    c.setTail a.frame { t with slice := f.slice, charges := t.charges ++ [{ port := k.port, queue := k.queue, charged := k.charged, delta, cap := 256 * a.trunc }] }).endCopy id

end Chip

/-! ### Meanings -/

/-- SCHEDULING_DECISION (R283) (DESIGN CHOICE, notes/assumptions/18.md). -/
def execSchedulingDecision (p : Nat) (s : State) : Host.Outcome State Fault Refusal :=
  s.run .core fun c => if c.decisionReady p then c.schedDecide p else c

/-- SHAPER_CONFORM (R287): `node` is level × 16,384 + index, level 0 base, 1 heart, 2 top, 3 queue
(DESIGN CHOICE, notes/assumptions/51.md). -/
def execShaperConform (sl node : Nat) (s : State) : Host.Outcome State Fault Refusal :=
  s.run .core fun c =>
    if sl < 8 && c.alive (U.slice sl) then
      let i := node % 16384
      let q := match node / 16384 with
        | 0 => i % 16
        | 1 => HeartRec.port (c.heartRec sl i)
        | 2 => HeartRec.port (c.heartRec sl (TopRec.heart (c.topRec sl i)))
        | _ => c.queueBase sl i
      c.schedSync (16 * sl + q)
    else c

/-- The frame on the line of a port ends: the whole frame with its FCS goes out, a bad or over-long one stomped (R92, R93, R239), its
references are freed and its in-flight count falls (R152). -/
def Chip.finishTx (c : Chip) (p : Nat) (t : Tx) (underrun : Bool) : Chip :=
  let k := c.cpy t.copy
  let a := c.arr k.arrival
  let rest := (c.heldBody a).drop t.used
  let whole := t.front ++ rest
  let cap := t.maxFrame - 4
  let long := decide (cap < whole.length)
  let out := if long then whole.take cap else whole
  let stomp := underrun || a.bad || long
  let bs := withFcs out stomp
  let s := p / 16
  let c := ((c.cnt (c.portCnt p + C.tx_frames) 1).cnt (c.portCnt p + C.tx_bytes) bs.length).when stomp fun c => c.cnt (c.portCnt p + C.tx_stomped) 1
  let c := c.when underrun fun c => c.cnt (c.sliceCnt s + C.underrun_stomp) 1
  let c := (c.cnt (c.queueCnt s k.queue + C.q_tx_frames) 1).cnt (c.queueCnt s k.queue + C.q_tx_bytes) bs.length
  (((c.emit (.tx p bs)).updPrt p fun q => { q with tx := none, idleAt := c.now }).endSent t.copy).schedSync p

/-- TX_FRAME_END (R152): the frame on the line has ended; a cut-through one only once its last cell has come, or none can come: then the
next cell is missing when the MAC needs it (R239). -/
def execTxFrameEnd (p : Nat) (s : State) : Host.Outcome State Fault Refusal :=
  s.run .core fun c =>
    match (c.prt p).tx with
    | some t =>
      let aid := (c.cpy t.copy).arrival
      if (c.arr aid).closed || (c.arr aid).dead then (c.readCells aid).finishTx p t (t.cut && (c.arr aid).dead) else c
    | none => c

/-- TX_UNDERRUN (R239): the next cell of a cut-through copy is late. -/
def execTxUnderrun (p : Nat) (s : State) : Host.Outcome State Fault Refusal :=
  s.run .core fun c =>
    match (c.prt p).tx with
    | some t =>
      let aid := (c.cpy t.copy).arrival
      if t.cut && (!((c.arr aid).closed) || (c.arr aid).dead) then (c.readCells aid).finishTx p t true else c
    | none => c

/-! ### Windows (R296, Table 13-1) -/

/-- APPLY of the slice scheduler domain. -/
def schedApply (s : Nat) : Nat := A.slice s + 0xBFFFF8

/-- SCHED_RECORD_READ (R296). -/
def Chip.recordReadOp (base : Nat) (w : WinIn) (c : Chip) : Chip × WinRes :=
  match schedWindow base with
  | none => (c, { code := 6 })
  | some (sl, l) =>
    if l.count ≤ w.index then (c, { code := 6 })
    else
      let live := c.on (schedApply sl) R.APPLY_live_view
      let x := Chip.nodeWords l.code w.index
      let at_ := if live then x.1 else x.2.1
      (c.readPoison (Chip.schedGroup sl) at_ x.2.2.2,
        { code := 0, data := some (if live then (c.recs sl).live l w.index else (c.recs sl).staged l w.index),
          poison := c.anyPoison (Chip.schedGroup sl) at_ x.2.2.2 })

/-- SCHED_RECORD_READ (R296). -/
def execSchedRecordRead (src : Source) (base : Nat) (s : State) : Host.Outcome State Fault Refusal :=
  s.winGo src base 1 (Chip.recordReadOp base)

/-- SCHED_RECORD_WRITE (R296). -/
def Chip.recordWriteOp (base : Nat) (w : WinIn) (c : Chip) : Chip × WinRes :=
  match schedWindow base with
  | none => (c, { code := 6 })
  | some (sl, l) =>
    if l.count ≤ w.index then (c, { code := 6 })
    else
      let x := Chip.nodeWords l.code w.index
      let base := A.slice sl + 0x800000
      let c := if (c.applies.look base).isSome then { c with since := c.since.set base true } else c
      let c := c.setRecs sl ((c.recs sl).stage l w.index w.data)
      (c.each (c.sliceMates sl) fun c m => c.coverWords (Chip.schedGroup m) x.2.1 x.2.2.2, { code := 0 })

/-- SCHED_RECORD_WRITE (R296). -/
def execSchedRecordWrite (src : Source) (base : Nat) (s : State) : Host.Outcome State Fault Refusal :=
  s.winGo src base 2 (Chip.recordWriteOp base)

/-- Table 13-6. -/
def Chip.queueStatus (c : Chip) (s n : Nat) : Entry :=
  let ids := c.queueCopies s n
  let bundles := ((c.innk (s / 4)).bundles.filter fun b => b.2.any fun v => v.queue == s * 16384 + n && v.written).length
  BitVec.ofNat 256 (c.queueCells s n % 2 ^ 24 * 2 ^ 104 + c.queueDie s n % 2 ^ 19 * 2 ^ 85 + ids.length % 2 ^ 24 * 2 ^ 61 +
    bundles % 2 ^ 21 * 2 ^ 40 + ((c.sch s).queue.look n).s)

/-- QUEUE_STATUS_READ (R292, Table 13-6). -/
def Chip.queueStatusOp (sl : Nat) (w : WinIn) (c : Chip) : Chip × WinRes :=
  if 16384 ≤ w.index then (c, { code := 6 }) else (c, { code := 0, data := some (c.queueStatus sl w.index) })

/-- QUEUE_STATUS_READ (R292, Table 13-6). -/
def execQueueStatusRead (src : Source) (sl : Nat) (s : State) : Host.Outcome State Fault Refusal :=
  s.winGo src (A.slice sl + 0x8100C0) 1 (Chip.queueStatusOp sl)

/-- SCHED_HELD and SCHED_RESERVED (R301). -/
def Chip.schedHeld (c : Chip) (s : Nat) : Nat :=
  (c.arrivals.map fun x => match x.2 with
    | some a => if a.slice = s then a.die else 0
    | none => 0).sum

def Chip.schedReserved (c : Chip) (s : Nat) : Nat :=
  (c.arrivals.map fun x => match x.2 with
    | some a => if a.slice = s then a.reserved else 0
    | none => 0).sum

end Sys2Proof.Machine
end

