-- ==== Sys2Proof/Machine/Fabric.lean ====
section
/-! DEFINITION. The Mollux fabric and multicast (spec/11_mollux_fabric.md R240 to R258): pinning, cells and credits, re-send, plane
failure, draining and restore, reassembly and admission in the egress slice, copy lists and coach replication. -/

namespace Sys2Proof.Machine

open Sys2Proof

/-- Unit ID of a plane. -/
def planeUnit (k : Nat) : Nat := U.devBlk k

/-- Slices of a mask. -/
def maskList (m : Nat) : List Nat := (List.range 8).filter fun s => m / 2 ^ s % 2 == 1

/-- Depth of a replay buffer, open frames per source and plane, credits per sender, cells of an output buffer. -/
def replayDepth : Nat := 512
def openFrames : Nat := 64
def creditsEach : Nat := 12

namespace Chip

def planeState (c : Chip) (k : Nat) : Nat := c.get (A.plane k) R.PLANE_STATUS_state

def planesUp (c : Chip) : List Nat := (List.range 4).filter fun k => c.planeState k == 0

def enabledSlices (c : Chip) : List Nat := (List.range 8).filter fun s => c.sliceEnabled s

def pl (c : Chip) (k : Nat) : Plane := c.planes.look k

def setPl (c : Chip) (k : Nat) (v : Plane) : Chip := { c with planes := c.planes.set k v }

def lnk (c : Chip) (k s : Nat) (up : Bool) : Link := c.links.look (k * 16 + s * 2 + b2n (!up))

def setLnk (c : Chip) (k s : Nat) (up : Bool) (v : Link) : Chip := { c with links := c.links.set (k * 16 + s * 2 + b2n (!up)) v }

def fabEpoch (c : Chip) (s : Nat) : Nat := c.get (A.slice s) R.FAB_STATUS_epoch

def drainUs (c : Chip) (s : Nat) : Nat := c.get (A.slice s) R.FAB_CTRL_drain_us

/-! ### Pinning (R246, R247) -/

/-- The plane that pin entry `i` names; none while no plane is up. -/
def pinPlane (c : Chip) (i : Nat) : Option Nat :=
  let up := c.planesUp
  if up.contains (i % 4) then some (i % 4) else up[(i / 4) % Nat.max 1 up.length]?

/-- Every enabled slice takes a new epoch and pin table; frames not begun move (R247). -/
def repin (c : Chip) : Chip :=
  let up := ((List.range 4).map fun k => if c.planeState k = 0 then 2 ^ k else 0).sum
  let c := c.each c.enabledSlices fun c s =>
    let b := A.slice s
    let c := (((c.put b R.FAB_STATUS_planes_up up).put b R.FAB_STATUS_epoch ((c.fabEpoch s + 1) % 16)).cnt (c.sliceCnt s + C.repins) 1)
    c.each (List.range 16) fun c i =>
      c.setReg (b + R.FAB_PIN + 4 * i) (BitVec.ofNat 64 (((List.range 16).map fun j => (c.pinPlane (16 * i + j)).getD (j % 4) * 4 ^ j).sum))
  { c with streams := c.streams.map fun x => (x.1, x.2.map fun v =>
      if v.sent = 0 then { v with plane := c.pinPlane (Wb.hash v.wb % 256) } else v) }

/-! ### Frames that end in the fabric -/

/-- Copies of an arrival that are not on the line end. -/
def dropUnstarted (c : Chip) (aid : Nat) : Chip :=
  c.each ((c.arr aid).copies) fun c id =>
    let k := c.cpy id
    if c.chosen id k.port then c else c.endCopy id

/-- A frame that a slice was receiving is discarded; `more` says that cells of it may still come. -/
def abortArrival (c : Chip) (aid : Nat) (more : Bool) : Chip :=
  match c.arrivals.look aid with
  | none => c
  | some a => ((((c.setArr aid { a with dead := true, bad := true, closed := !more }).unreserve aid).dropUnstarted aid).settleArrival aid)

/-- The open arrival of a tag. -/
def openArrival (c : Chip) (s src k tag : Nat) : Option Nat :=
  (c.arrivals.find? fun x => match x.2 with
    | some a => a.slice == s && a.src == src && a.plane == k && a.tag == tag && !a.closed
    | none => false).map Prod.fst

/-- Open arrivals of a slice from a source over a plane. -/
def openFrom (c : Chip) (s src k : Nat) : List Nat :=
  (c.arrivals.filter fun x => match x.2 with
    | some a => a.slice == s && a.src == src && a.plane == k && !a.closed
    | none => false).map Prod.fst

/-- A frame lost its cells on a plane: it ends in every slice that was still to receive it (R249) (DESIGN CHOICE, notes/assumptions/47.md). -/
def losePlaneStream (c : Chip) (id k : Nat) : Chip :=
  match c.streams.look id with
  | none => c
  | some v =>
    let c := c.each (maskList v.openAt) fun c d =>
      let c := c.cnt (c.sliceCnt d + C.fab_plane_discard) 1
      match c.openArrival d v.slice k v.tag with
      | some a => c.abortArrival a false
      | none => c
    c.killStream id

/-- Streams that have begun on a plane. -/
def begunOn (c : Chip) (k : Nat) : List Nat :=
  (c.streams.filter fun x => match x.2 with
    | some v => v.plane == some k && v.sent != 0
    | none => false).map Prod.fst

/-- A plane holds these cells, in its buffers and on its links. -/
def planeCells (c : Chip) (k : Nat) : Nat :=
  (((c.pl k).outs ++ (c.pl k).loop).map fun (x : Nat × List Cell) => x.2.length).sum +
    ((List.range 8).map fun s => (c.lnk k s true).flight.length + (c.lnk k s false).flight.length).sum

/-- A table of lists with only the elements that satisfy `p`. -/
def thin {α : Type} (t : Tbl (List α)) (p : α → Bool) : Tbl (List α) :=
  (t.map fun (x : Nat × List α) => (x.1, x.2.filter p)).filter fun x => !x.2.isEmpty

/-- FAB_STATUS.holding. -/
def syncHolding (c : Chip) (s : Nat) : Chip :=
  c.put (A.slice s) R.FAB_STATUS_holding (b2n ((List.range 8).any fun x => !(c.heldCells.look (s * 8 + x)).isEmpty))

/-- A plane's cells, links and credits are emptied, and the frames that they belonged to end. -/
def clearPlane (c : Chip) (k : Nat) : Chip :=
  let n := c.planeCells k
  let c := c.each (c.begunOn k) fun c id => c.losePlaneStream id k
  let c := c.cnt (A.plane k + C.cells_discarded) n
  let c := c.each (List.range 8) fun c s => (c.setLnk k s true {}).setLnk k s false {}
  let c := c.setPl k { c.pl k with outs := [], loop := [], used := [] }
  let c := { c with house := { c.house with wakeStore := thin c.house.wakeStore fun w => match w with
    | .cell p _ => p != k
    | .frame _ => true } }
  let c := { c with
    barriersDue := (List.range 8).foldl (fun t s => t.clear (s * 4 + k)) c.barriersDue
    heldCells := thin c.heldCells fun y => y.1 != k }
  c.each c.enabledSlices syncHolding

end Chip

/-! ### Copies (R252 to R257) -/

/-- Where a copy goes. -/
structure CopySpec where
  port : Nat
  sub : Nat
  cls : Nat
  script : Nat
  etag : Option (Nat × Nat)
  mcast : Bool
deriving DecidableEq, Repr

namespace Chip

/-- The member of a port suite that a frame uses (R225); the port itself outside a suite. -/
def suiteMember (c : Chip) (p hash : Nat) : Nat :=
  match c.suiteOf (U.port p) with
  | none => p
  | some ms =>
    let up := ms.filter fun u => c.on (A.port (U.index u)) R.PORT_STATUS_link_up
    match up[(hash % 65536) * up.length / 65536]? with
    | some u => U.index u
    | none => p

/-- A copy entry names the frame's source (R254). -/
def isSource (c : Chip) (f : Frame) (port sub : Nat) : Bool :=
  decide (f.port < 128) && c.suiteUnit (U.port port) == c.suiteUnit (U.port f.port) &&
    match f.extSub with
    | some x => x == sub
    | none => true

/-- The walk of a copy list: specs, skips, whether it was cut, the index of a poisoned entry (DESIGN CHOICE, notes/assumptions/45.md). -/
def walkList (c : Chip) (s : Nat) (f : Frame) (wb : BitVec 512) : Nat → Nat → List CopySpec × Nat × Bool × Option Nat
  | 0, _ => ([], 0, true, none)
  | fuel + 1, i =>
    if c.objPoison s .copy i 0 then ([], 0, false, some i)
    else
      let e := (c.obj s).copies.look i
      let port := bits e 62 56
      let sub := bits e 55 45
      let r := if bit e 63 then ([], 0, false, none) else c.walkList s f wb fuel (bits e 15 0)
      if Wb.suppress wb && c.isSource f port sub then (r.1, r.2.1 + 1, r.2.2)
      else
        let m := c.suiteMember port (Wb.hash wb)
        if m / 16 = s then
          ({ port := m, sub, cls := Wb.cls wb, script := bits e 44 31,
             etag := if bit e 30 then some (bits e 29 28, bits e 27 16) else none, mcast := true } :: r.1, r.2)
        else r

/-- The entries that a walk reads. -/
def walkSeen (c : Chip) (s : Nat) : Nat → Nat → List Nat
  | 0, _ => []
  | fuel + 1, i =>
    let e := (c.obj s).copies.look i
    if c.objPoison s .copy i 0 || bit e 63 then [i] else i :: c.walkSeen s fuel (bits e 15 0)

/-- A list is read: correctable entries are counted (spec/17_memory_protection.md R375). -/
def seeList (c : Chip) (s i : Nat) : Chip :=
  if (c.grp (U.sliceBlk s (objWords .copy 0 0).1)).soft.isEmpty then c
  else c.each (c.walkSeen s 1024 i) fun c j => c.objSee s .copy j 0

/-- The copies that a slice makes of a stream (DESIGN CHOICE, notes/assumptions/48.md). -/
def copySpecs (c : Chip) (s : Nat) (v : Stream) : Chip × List CopySpec :=
  let wb := v.wb
  if !v.mcast then
    (c, [{ port := Wb.port wb, sub := Wb.subscriber wb, cls := Wb.cls wb, script := Wb.script wb, etag := none, mcast := false }])
  else
    let f := c.fr v.frame
    let u := U.sliceBlk s 0x58
    let c := c.seeWords u (Chip.headWord (2 * Wb.group wb)) 2
    match [2 * Wb.group wb, 2 * Wb.group wb + 1].find? fun i => c.poisoned u (Chip.headWord i) with
    | some i => ((c.cnt (c.sliceCnt s + C.object_poison_drop) 1).reportPoison [u] (U.sliceBlk s 0x58) K.mcPoison 3 i, [])
    | none =>
      match c.headFor s (Wb.group wb) (c.frameAccord f) with
      | none => (c, [])
      | some (_, h) =>
        if bits h 30 23 / 2 ^ s % 2 = 0 then (c, [])
        else
          let c := c.seeList s (bits h 15 0)
          let r := c.walkList s f wb 1024 (bits h 15 0)
          match r.2.2.2 with
          | some i => ((c.cnt (c.sliceCnt s + C.object_poison_drop) 1).reportPoison [u] (U.sliceBlk s 0x58) K.mcPoison 3 i, [])
          | none =>
            let c := c.cnt (c.sliceCnt s + C.mc_suppressed) r.2.1
            (c.when r.2.2.1 fun c => (c.cnt (c.sliceCnt s + C.mc_list_err) 1).report (U.sliceBlk s 0x58) K.mcListErr 1 (Wb.group wb), r.1)

/-- A port belongs to the coach set (R256). -/
def isCoach (c : Chip) (p : Nat) : Bool :=
  (List.range 8).any fun i => c.on (4 * i) R.COACH_PORT_valid && U.port (c.get (4 * i) R.COACH_PORT_port) == c.suiteUnit (U.port p)

def coachUsed (c : Chip) (s : Nat) : Nat := ((c.sch s).coach.map fun x => x.2.length).sum

def syncCoach (c : Chip) (s : Nat) : Chip := c.put (A.slice s) R.COACH_STATUS_used (c.coachUsed s)

/-- Give a fresh copy to its queue, or to the coach queue (R254, R256). -/
def giveCopy (c : Chip) (id room : Nat) : Chip :=
  let k := c.cpy id
  let s := k.slice
  let fifo := (c.sch s).coach.look k.port
  if k.mcast && (c.isCoach k.port || !fifo.isEmpty) then
    if fifo.isEmpty && c.copyReady id room then (c.cnt (c.sliceCnt s + C.coach_direct) 1).offerCopy id room
    else if c.coachUsed s < 2048 then
      let c := (c.setCpy id { k with coachAt := c.now }).setSch s { c.sch s with coach := (c.sch s).coach.upd k.port fun l => l ++ [id] }
      (c.cnt (c.sliceCnt s + C.coach_queued) 1).syncCoach s
    else (c.cnt (c.sliceCnt s + C.coach_full_drop) 1).endCopy id
  else c.offerCopy id room

/-- The copy of a specification. -/
def copyOf (x : CopySpec) (aid s : Nat) : Copy :=
  { arrival := aid, slice := s, port := x.port, sub := x.sub, named := x.sub, cls := x.cls, script := x.script, etag := x.etag,
    mcast := x.mcast }

/-- Make the copies of an arrival and give them to their queues. -/
def makeCopies (c : Chip) (aid s room : Nat) (specs : List CopySpec) : Chip :=
  let first := c.nextId
  let ids := (List.range specs.length).map (first + ·)
  let c := { c with
    nextId := first + specs.length
    copies := (ids.zip specs).foldl (fun t (x : Nat × CopySpec) => t.set x.1 (some (copyOf x.2 aid s))) c.copies }
  (c.setArr aid { c.arr aid with copies := ids }).each ids fun c id => c.giveCopy id room

/-- Ports that an arrival's copies are for. -/
def arrivalPorts (c : Chip) (aid : Nat) : List Nat := ((c.arr aid).copies.map fun id => (c.cpy id).port).dedup

/-- The length of an arrival's frame is known: copies chosen before are charged for the rest (R288). -/
def trueUp (c : Chip) (aid : Nat) : Chip :=
  c.each (c.arr aid).copies fun c id =>
    let k := c.cpy id
    if k.charged != 0 && k.charged != c.outLen id then (c.chargeMore k.port k.queue k.charged (c.outLen id)).setCpy id { k with charged := c.outLen id }
    else c

/-- frame_len of a frame is written: every copy chosen before is charged for the rest (R288). -/
def trueUpFrame (c : Chip) (id : Nat) : Chip :=
  c.each (c.arrivals.filter fun x => match x.2 with
    | some a => a.frame == id
    | none => false) fun c x => c.trueUp x.1

/-- The data of a cell on die is written: words 32p to 32p + 31 of its group lose their errors. -/
def coverCell (c : Chip) (h p : Nat) : Chip :=
  let g := c.grp (U.halfBlk h 8)
  if g.poison.isEmpty && g.planted.isEmpty && g.soft.isEmpty && c.ledger.inj.isNone then c else c.coverWords (U.halfBlk h 8) (32 * p) 32

/-- Bytes are written into a cell that another frame still names, or did: they are what the cell holds (spec/12_innkeeper_buffers.md R278)
(DESIGN CHOICE, notes/assumptions/49.md). -/
def keepContent (c : Chip) (h aid p : Nat) (bytes : List Byte) : Chip :=
  let k := c.innk h
  let named := (k.content.find p).isSome || c.arrivals.any fun x => match x.2 with
    | some a => x.1 != aid && a.slice / 4 == h && a.places.contains (.die p)
    | none => false
  if named then c.setInnk h { k with content := k.content.set p bytes } else c

/-- The last cell of a discarded frame has come. -/
def swallow (c : Chip) (aid : Nat) (x : Cell) : Chip :=
  if x.last then (c.setArr aid { c.arr aid with closed := true }).settleArrival aid else c

/-- One cell of an admitted frame lands in the half's buffer (R268); a frame that finds no pointer in the free list is dropped
(DESIGN CHOICE, notes/assumptions/49.md). -/
def landCell (c : Chip) (aid s : Nat) (x : Cell) : Chip :=
  let h := s / 4
  let a := c.arr aid
  let c := c.when (c.injected a.lodger 2 != 0) fun c => (c.reportInj a.lodger K.bpmPortErr 4 a.lodger true).injectStep a.lodger 2
  let c := c.readList h
  match c.reqOf h a.lodger with
  | none => c
  | some i =>
    if halfCells ≤ c.lowestFree h then (c.abortArrival aid true).swallow aid x
    else
      let t := c.takeCell h i x.first x.last (x.last && x.bad)
      let c := t.1
      let p := t.2
      let c := if a.reserved = 0 then c.useAdd h i 1 else c
      let c := match a.places.getLast? with
        | some (.die q) => c.setCellRec h q { c.cellRec h q with next := p }
        | _ => c
      let c := (c.coverCell h p).keepContent h aid p (((c.fr a.frame).bytes.drop (256 * x.index)).take x.len)
      let c := if a.copies.length ≤ 1 then c else c.cellShare h a.lodger (p * 256) (a.copies.length - 1)
      let c := c.setArr aid { a with places := a.places ++ [.die p], bytesHeld := a.bytesHeld + x.len, reserved := a.reserved - 1
                                     closed := x.last, bad := a.bad || (x.last && x.bad) }
      if x.last then
        let c := (c.unreserve aid).noteSpill aid
        (c.when (x.bad) fun c => c.dropBad aid).settleArrival aid
      else c

/-- A dead arrival that swallows the rest of a frame. -/
def deadArrival (c : Chip) (s k : Nat) (x : Cell) (v : Stream) : Chip :=
  if x.last then c
  else
    let n := c.newId
    (n.2.setArr n.1 { slice := s, src := x.src, plane := k, tag := x.tag, stream := x.stream, frame := v.frame, wb := v.wb, dead := true,
                      lodger := U.slice s }).hold v.frame

/-- A frame's first cell: the innkeeper's test, the walk, the queue tests, and the cell (R251, R254, R267, R292)
(DESIGN CHOICE, notes/assumptions/48.md). -/
def beginArrival (c : Chip) (s k : Nat) (x : Cell) : Chip :=
  let v := c.strm x.stream
  let r := c.copySpecs s v
  let c := r.1
  let room := c.headroom v.frame x.last
  let specs := r.2
  let ok := if specs.isEmpty then (c, false) else c.takeIn s room v.wb
  let c := ok.1
  if !ok.2 then (c.streamCopied x.stream s 0).deadArrival s k x v
  else
    let n := c.newId
    let c := (n.2.setArr n.1 { slice := s, src := x.src, plane := k, tag := x.tag, stream := x.stream, frame := v.frame, wb := v.wb,
                               mirror := v.mirror, trunc := v.trunc, reserved := room, lodger := U.slice s }).hold v.frame
    let c := (c.streamCopied x.stream s specs.length).when v.mcast fun c => c.cnt (c.sliceCnt s + C.mc_port_copies) specs.length
    let c := c.makeCopies n.1 s room specs
    if (c.arr n.1).copies.isEmpty then (match c.arrivals.look n.1 with
      | some _ => c.swallow n.1 x
      | none => c)
    else c.landCell n.1 s x

/-- A slice takes a data cell out of a plane (R251). A cell of a frame that its source's reset ended is discarded: that frame was counted
when the reset began. A cell that was held when a later one of its frame was found uncorrectable drops its frame. -/
def takeCellIn (c : Chip) (s k : Nat) (x : Cell) : Chip :=
  if (c.streams.look x.stream).isNone then c else
  let v := c.strm x.stream
  let ports (c : Chip) (l : List Nat) : Chip := c.each l fun c p => c.schedSync p
  let c :=
    match c.openArrival s x.src k x.tag with
    | some a =>
      if x.first then
        ((c.cnt (c.sliceCnt s + C.fab_reasm_drop) 1).streamCopied x.stream s 0 |>.abortArrival a true).swallow a x
      else if (c.arr a).dead then c.swallow a x
      else if x.lost then (c.abortArrival a true).swallow a x
      else
        let ps := c.arrivalPorts a
        ports (c.landCell a s x) ps
    | none =>
      if x.first then
        if x.lost then (c.streamCopied x.stream s 0).deadArrival s k x v
        else if openFrames ≤ (c.openFrom s x.src k).length then
          ((c.cnt (c.sliceCnt s + C.fab_reasm_drop) 1).streamCopied x.stream s 0).deadArrival s k x v
        else
          let id := c.nextId
          let c := c.beginArrival s k x
          ports c (c.arrivalPorts id)
      else ((c.cnt (c.sliceCnt s + C.fab_reasm_drop) 1).streamCopied x.stream s 0).deadArrival s k x v
  c.when x.last fun c => c.streamClosedAt x.stream s

/-- Slice `s` waits for barriers of `src`. -/
def waits (c : Chip) (s src : Nat) : Bool := !(c.awaited.look (s * 8 + src)).isEmpty

/-- A cell's frame was formed after a re-pin whose barriers slice `s` still awaits from its source (R248). -/
def newEpoch (c : Chip) (s : Nat) (x : Cell) : Bool :=
  (c.awaited.look (s * 8 + x.src)).any fun w =>
    decide ((x.epoch + 31 - w.2) % 16 < (c.fabEpoch x.src + 16 - w.2) % 16)

/-- A data cell arrives: one of a new epoch of its source is held while the source's barriers are awaited (R248). -/
def cellIn (c : Chip) (s k : Nat) (x : Cell) : Chip :=
  if c.newEpoch s x then
    let i := s * 8 + x.src
    let c := { c with heldCells := c.heldCells.upd i fun l => l ++ [(k, x)]
                      heldSince := if (c.heldSince.look i).isNone then c.heldSince.set i (some c.now) else c.heldSince }
    (c.when x.first fun c => c.cnt (c.sliceCnt s + C.held_frames) 1).syncHolding s
  else c.takeCellIn s k x

/-- The held frames of a source go on, in arrival order. -/
def releaseHeld (c : Chip) (s src : Nat) : Chip :=
  let i := s * 8 + src
  let l := c.heldCells.look i
  let c := { c with heldCells := c.heldCells.clear i, heldSince := c.heldSince.clear i, awaited := c.awaited.clear i }
  (c.each l fun c x => c.takeCellIn s x.1 x.2).syncHolding s

/-- A source's barrier on a plane has come. -/
def barrierIn (c : Chip) (s src k : Nat) : Chip :=
  let i := s * 8 + src
  let l := (c.awaited.look i).filter (·.1 != k)
  let was := c.waits s src
  let c := { c with awaited := c.awaited.set i l }
  if was && l.isEmpty then c.releaseHeld s src else c

/-! ### Plane failure and re-pin (R249, R250) -/

/-- Nothing of plane `k` is awaited any more. -/
def forgetBarriers (c : Chip) (k : Nat) : Chip :=
  c.each (List.range 64) fun c i => if (c.awaited.look i).any (·.1 == k) then c.barrierIn (i / 8) (i % 8) k else c

/-- A plane fails (R249); one that failed before has failed already (DESIGN CHOICE, notes/assumptions/47.md). -/
def failPlane (c : Chip) (k cause : Nat) : Chip :=
  let st := c.planeState k
  if st = 2 then c
  else
    let c := (((c.put (A.plane k) R.PLANE_STATUS_state 2).put (A.plane k) R.PLANE_STATUS_cause cause).put (A.plane k) R.PLANE_EVENT_failed 1).report
      (planeUnit k) K.planeFail 2 cause
    let c := (c.setPl k { c.pl k with wasReset := false }).clearPlane k |>.forgetBarriers k
    let c := c.when (st == 0 && c.planesUp.isEmpty) fun c => c.report (planeUnit k) K.fabricDown 5
    c.when (st == 0) Chip.repin

/-- A link fails (R245). -/
def failLink (c : Chip) (k s cause : Nat) : Chip :=
  ((c.report (planeUnit k) K.fabricLinkFail 3 s).put (A.plane k) R.PLANE_EVENT_link_fail 1).failPlane k cause

/-- The receiver of a link direction asks for its expected cell again (R244, R245). -/
def askAgain (c : Chip) (k s : Nat) (up : Bool) : Chip :=
  let l := c.lnk k s up
  let run := if l.nakRun != 0 && l.lastNak = l.expect then l.nakRun + 1 else 1
  let c := (c.setLnk k s up { l with asked := true, naks := l.naks ++ [l.expect], lastNak := l.expect, nakRun := run }).emit (.link k s 1 l.expect)
  if c.get (A.plane k) R.PLANE_REPLAY_max_naks ≤ run then c.failLink k s 1 else c

/-- What the receiver of a link direction makes of the next cell: good, or discarded. -/
def receive (c : Chip) (k s : Nat) (up damaged : Bool) : Chip × Option Cell :=
  let l := c.lnk k s up
  match l.flight with
  | [] => (c, none)
  | x :: rest =>
    let c := c.setLnk k s up { l with flight := rest, badCells := l.badCells + b2n damaged }
    if damaged then
      let c := if up then c.cnt (A.plane k + 0x40 * s + C.plane_crc_err) 1 else c.cnt (c.sliceCnt s + C.fab_crc_err) 1
      (c.askAgain k s up, none)
    else if x.seq != l.expect then (if l.asked then (c, none) else (c.askAgain k s up, none))
    else
      let l := c.lnk k s up
      ((c.setLnk k s up { l with expect := (l.expect + 1) % 65536, asked := false, nakRun := 0, acks := l.acks ++ [x.seq] }).emit (.link k s 0 x.seq),
        some x)

/-- Put a cell on a link direction. -/
def sendOn (c : Chip) (k s : Nat) (up : Bool) (x : Cell) : Chip :=
  let l := c.lnk k s up
  let x := { x with seq := l.next }
  (c.setLnk k s up { l with next := (l.next + 1) % 65536, replay := l.replay ++ [x], flight := l.flight ++ [x] }).emit (.cell k s up x.seq)

def linkRoom (c : Chip) (k s : Nat) (up : Bool) : Bool := decide ((c.lnk k s up).replay.length < replayDepth)

/-! ### Sending (R242) -/

/-- The sender holds a credit for each destination but itself. -/
def credits (c : Chip) (k s : Nat) (ds : List Nat) : Bool :=
  ds.all fun d => d == s || decide ((c.pl k).used.look (s * 8 + d) < creditsEach)

def takeCredits (c : Chip) (k s : Nat) (ds : List Nat) : Chip :=
  c.setPl k { c.pl k with used := (ds.filter (· != s)).foldl (fun t d => t.set (s * 8 + d) (t.look (s * 8 + d) + 1)) (c.pl k).used }

/-- The next cell of a stream is there. -/
def cellThere (c : Chip) (v : Stream) : Bool :=
  let n := c.streamBytes v
  if c.streamWhole v then decide (v.sent < cellsOf n) else decide (256 * (v.sent + 1) ≤ n)

/-- Streams of slice `s` pinned to plane `k` that are not all sent, oldest first. -/
def pinned (c : Chip) (s k : Nat) : List (Nat × Stream) :=
  c.streams.filterMap fun x => match x.2 with
    | some v => if v.slice = s && v.plane = some k && !(c.streamSentAll v) then some (x.1, v) else none
    | none => none

/-- The stream whose cell goes next: oldest with a cell there and credits; a first cell also needs a free frame place and no older
stream not begun that shares a destination (DESIGN CHOICE, notes/assumptions/47.md). -/
def pickStream (c : Chip) (k s : Nat) : List (Nat × Stream) → Nat → Nat → Option (Nat × Stream)
  | [], _, _ => none
  | (id, v) :: t, blocked, begun =>
    if c.cellThere v && c.credits k s (maskList v.mask) &&
        (v.sent != 0 || (v.mask &&& blocked == 0 && decide (begun < openFrames))) then some (id, v)
    else c.pickStream k s t (if v.sent = 0 then blocked ||| v.mask else blocked) begun

/-- Tags of the frame streams that slice `s` has open on plane `k`. -/
def openTags (c : Chip) (s k : Nat) : List Nat :=
  c.streams.filterMap fun x => match x.2 with
    | some v => if v.slice = s && v.plane = some k && v.sent != 0 then some v.tag else none
    | none => none

/-- A tag that no open stream of slice `s` on plane `k` has (Table 11-1) (DESIGN CHOICE, notes/assumptions/47.md). -/
def freeTag (c : Chip) (s k id : Nat) : Nat :=
  let l := c.openTags s k
  (id + (firstBelow (l.length + 1) fun j => !(l.contains ((id + j) % 65536))).getD 0) % 65536

/-- Send one cell of a stream. -/
def sendCell (c : Chip) (k s id : Nat) (v : Stream) : Chip :=
  let f := c.fr v.frame
  let n := c.streamBytes v
  let i := v.sent
  let last := c.streamWhole v && decide (cellsOf n ≤ i + 1)
  let ds := maskList v.mask
  let epoch := if i = 0 then c.fabEpoch s else v.epoch
  let tag := if i = 0 then c.freeTag s k id else v.tag
  let x : Cell := { first := i == 0, last, bad := last && f.bad, mcast := v.mcast, len := Nat.min 256 (n - 256 * i), src := s,
                    dst := if v.mcast then 0 else ds.headD 0, epoch, tag, group := if v.mcast then Wb.group v.wb else 0,
                    slot := f.slot.getD 0, cls := Wb.cls v.wb, mask := if v.mcast then v.mask else 0, stream := id, index := i }
  let c := ((c.takeCredits k s ds).sendOn k s true x).cnt (c.sliceCnt s + C.cells_tx) 1
  let c := c.when (i == 0) fun c =>
    (c.stampCopies f.slot (ds.length - 1)).when v.mcast fun c =>
      (c.cnt (c.sliceCnt s + C.mc_frames) 1).cnt (c.sliceCnt s + C.mc_slice_copies) ds.length
  let c := (c.setStrm id { v with sent := i + 1, epoch, tag }).updFr v.frame fun f => { f with started := true }
  c.when last fun c => c.unstage v.frame

/-- Send a barrier that is due, once no frame of the slice is under way on the plane (R248). -/
def sendBarrier (c : Chip) (k s : Nat) : Option Chip :=
  match c.barriersDue.look (s * 4 + k) with
  | [] => none
  | d :: rest =>
    if (c.pinned s k).any (fun x => x.2.sent != 0) || !(c.credits k s [d]) then none
    else
      let c := (c.takeCredits k s [d]).sendOn k s true { barrier := true, src := s, dst := d, epoch := c.fabEpoch s }
      some ({ c with barriersDue := c.barriersDue.set (s * 4 + k) rest }.cnt (c.sliceCnt s + C.cells_tx) 1)

/-- The plane works: up or draining, and not in reset. -/
def planeRuns (c : Chip) (k : Nat) : Bool := decide (k < 4) && decide (c.planeState k ≤ 1) && !(c.inReset (planeUnit k)) && c.image.applied

end Chip

/-! ### Meanings -/

/-- CELL_SEND (R242): slice `sl` sends a barrier that is due, or the next cell, on plane `k` (DESIGN CHOICE, notes/assumptions/47.md). -/
def execCellSend (sl k : Nat) (s : State) : Host.Outcome State Fault Refusal :=
  s.run .core fun c =>
    if sl < 8 && c.alive (U.slice sl) && !(c.asleep sl) && c.planeRuns k && c.linkRoom k sl true then
      match c.sendBarrier k sl with
      | some c => c
      | none =>
        let l := c.pinned sl k
        match c.pickStream k sl l 0 (l.filter fun x => x.2.sent != 0).length with
        | some x => c.sendCell k sl x.1 x.2
        | none => c
    else c

/-- PLANE_CELL_ARRIVAL (R244). -/
def execPlaneCellArrival (k sl : Nat) (damaged : Bool) (s : State) : Host.Outcome State Fault Refusal :=
  s.run .core fun c =>
    if sl < 8 && c.sliceEnabled sl && c.planeRuns k then
      let hit := (c.lnk k sl true).flight != [] && c.injected (planeUnit k) 3 != 0 && (c.ledger.inj.any fun i => i.addr % 8 == sl)
      let r := (c.when hit fun c => c.injectStep (planeUnit k) 3).receive k sl true (damaged || hit)
      match r.2 with
      | none => r.1
      | some x =>
        let c := (r.1.cnt (A.plane k + 0x40 * sl + C.cells_in) 1).when x.barrier fun c => c.cnt (A.plane k + C.barriers) 1
        let ds := if x.mcast then maskList x.mask else [x.dst]
        c.each ds fun c d =>
          let p := c.pl k
          if d = sl then c.setPl k { p with loop := p.loop.upd d fun l => l ++ [x] } else c.setPl k { p with outs := p.outs.upd d fun l => l ++ [x] }
    else c

/-- Cells of a frame that left plane `k` for slice `s` and that the slice has not taken: on the link, held for a barrier or in the wake
store. -/
def Chip.cellsAhead (c : Chip) (k s : Nat) (x : Cell) : List Cell :=
  let l := c.lnk k s false
  ((l.replay.filter fun y => decide ((y.seq + 65536 - l.expect) % 65536 < (l.next + 65536 - l.expect) % 65536)) ++
    ((c.heldCells.look (s * 8 + x.src)).map Prod.snd) ++ ((c.house.wakeStore.look s).filterMap fun w => match w with
      | .cell _ y => some y
      | .frame _ => none)).filter fun y => !y.barrier && y.stream == x.stream

/-- The frame of a cell ends where the cells of it that are ahead arrive; where the cell was the last, the last of those stands for it. -/
def Chip.loseAhead (c : Chip) (k s : Nat) (x : Cell) : Chip :=
  let top := ((c.cellsAhead k s x).map Cell.index).foldl Nat.max 0
  let mark (y : Cell) : Cell :=
    if !y.barrier && y.stream == x.stream then { y with lost := true, last := y.last || (x.last && y.index == top) } else y
  let l := c.lnk k s false
  let c := c.setLnk k s false { l with flight := l.flight.map mark, replay := l.replay.map mark }
  { c with
    heldCells := c.heldCells.upd (s * 8 + x.src) fun t => t.map fun y => (y.1, mark y.2)
    house := { c.house with wakeStore := c.house.wakeStore.upd s fun t => t.map fun w => match w with
      | .cell p y => .cell p (mark y)
      | .frame f => .frame f } }

/-- A cell is uncorrectable in the plane's memory: its frame is lost in slice `s` (R251). -/
def Chip.poisonCell (c : Chip) (k s : Nat) (x : Cell) : Chip :=
  let c := (c.cnt (A.plane k + C.cells_discarded) 1).report (planeUnit k) K.cellPoison 3
  let c := if x.barrier then c
    else if !(c.cellsAhead k s x).isEmpty then c.loseAhead k s x
    else
      let c := c.when x.first fun c => c.streamCopied x.stream s 0
      let c := match c.openArrival s x.src k x.tag with
        | some a => (c.abortArrival a true).swallow a x
        | none => c
      c.when x.last fun c => c.streamClosedAt x.stream s
  let p := c.pl k
  let recent := p.errors.filter fun t => !(c.passedUs t 1000)
  let c := c.setPl k { p with errors := recent ++ [c.now] }
  if 4 < recent.length + 1 then c.failPlane k 2 else c

/-- PLANE_CELL_FORWARD (R243): loopback cells first, then the output buffer, in arrival order. -/
def execPlaneCellForward (k sl : Nat) (poisoned : Bool) (s : State) : Host.Outcome State Fault Refusal :=
  s.run .core fun c =>
    if sl < 8 && c.sliceEnabled sl && c.planeRuns k && c.linkRoom k sl false then
      let p := c.pl k
      let go (c : Chip) (x : Cell) : Chip :=
        if poisoned then c.poisonCell k sl x else (c.sendOn k sl false x).cnt (A.plane k + 0x40 * sl + C.cells_out) 1
      match p.loop.look sl with
      | x :: rest => go (c.setPl k { p with loop := p.loop.set sl rest }) x
      | [] =>
        match p.outs.look sl with
        | x :: rest =>
          let c := (c.setPl k { p with outs := p.outs.set sl rest, used := p.used.upd (x.src * 8 + sl) fun n => n - 1 }).emit (.link k x.src 2 sl)
          go c x
        | [] => c
    else c

/-- The wake store of slice `s` has no room for a cell from the fabric (spec/19_housekeeper_power_ageing.md R412). -/
def Chip.wakeFull (c : Chip) (s : Nat) : Bool := decide (192 ≤ (c.wakeCells s).2 || 256 ≤ (c.wakeCells s).1)

/-- A cell from plane `k` goes into the wake store of slice `s`, and wakes it (R412). -/
def Chip.wakeCell (c : Chip) (s k : Nat) (x : Cell) : Chip :=
  ({ c with house := { c.house with wakeStore := c.house.wakeStore.upd s fun l => l ++ [WakeItem.cell k x] } }).wakeCause s

/-- SLICE_CELL_ARRIVAL (R251): a data cell at a slice's plane port; a sleeping slice's wake store takes it (R412). -/
def execSliceCellArrival (sl k : Nat) (damaged : Bool) (s : State) : Host.Outcome State Fault Refusal :=
  s.run .core fun c =>
    if sl < 8 && c.sliceEnabled sl && c.planeRuns k then
      match (c.lnk k sl false).flight with
      | [] => c
      | x :: _ =>
        let good := !damaged && x.seq == (c.lnk k sl false).expect
        if good && x.barrier then c
        else if good && c.asleep sl && c.wakeFull sl then c.wakeCause sl
        else
          let r := c.receive k sl false damaged
          match r.2 with
          | none => r.1
          | some x =>
            let c := r.1.cnt (r.1.sliceCnt sl + C.cells_rx) 1
            if c.inReset (U.slice sl) then
              (c.when x.first fun c => c.streamCopied x.stream sl 0).when x.last fun c => c.streamClosedAt x.stream sl
            else if c.asleep sl then c.wakeCell sl k x
            else c.cellIn sl k x
    else c

/-- LINK_ACK (R244): the replay buffer lets go of the cells up to `seq`. -/
def execLinkAck (k sl : Nat) (up : Bool) (seq : Nat) (s : State) : Host.Outcome State Fault Refusal :=
  s.run .core fun c =>
    let l := c.lnk k sl up
    if sl < 8 && c.sliceEnabled sl && c.planeRuns k && l.acks.contains seq then
      c.setLnk k sl up { l with acks := (l.acks.dropWhile (· != seq)).drop 1
                                replay := if l.replay.any fun x => x.seq == seq then (l.replay.dropWhile fun x => x.seq != seq).drop 1 else l.replay }
    else c

/-- RESEND_REQUEST (R244): the sender sends again from `seq`, in order. -/
def execResendRequest (k sl : Nat) (up : Bool) (seq : Nat) (s : State) : Host.Outcome State Fault Refusal :=
  s.run .core fun c =>
    let l := c.lnk k sl up
    if sl < 8 && c.sliceEnabled sl && c.planeRuns k && l.naks.contains seq then
      let again := l.replay.dropWhile fun x => x.seq != seq
      let c := c.setLnk k sl up { l with naks := (l.naks.dropWhile (· != seq)).drop 1, flight := l.flight ++ again }
      if up then c.cnt (c.sliceCnt sl + C.fab_resends) again.length else c.cnt (A.plane k + 0x40 * sl + C.plane_resends) again.length
    else c

/-- FABRIC_CRC_WINDOW (R244). -/
def execFabricCrcWindow (k sl : Nat) (up : Bool) (s : State) : Host.Outcome State Fault Refusal :=
  s.run .core fun c =>
    if sl < 8 && c.sliceEnabled sl && c.planeRuns k then
      let l := c.lnk k sl up
      let t := c.get (A.plane k) R.PLANE_REPLAY_crc_alarm
      let tooMany := t != 0 && decide (t < l.badCells)
      (c.setLnk k sl up { l with badCells := 0, alarmed := tooMany }).when (tooMany && !l.alarmed) fun c =>
        (c.report (planeUnit k) K.fabricCrc 1 sl).put (A.plane k) R.PLANE_EVENT_crc_alarm 1
    else c

/-- Bit of a slice in PLANE_STATUS.links_up. -/
def Chip.linkUp (c : Chip) (k s : Nat) : Bool := c.get (A.plane k) R.PLANE_STATUS_links_up / 2 ^ s % 2 == 1

def Chip.setLinkUp (c : Chip) (k s : Nat) (b : Bool) : Chip :=
  let v := c.get (A.plane k) R.PLANE_STATUS_links_up
  c.put (A.plane k) R.PLANE_STATUS_links_up (if b == c.linkUp k s then v else if b then v + 2 ^ s else v - 2 ^ s)

/-- LINK_LOSS_OF_LOCK (R245). -/
def execLinkLossOfLock (k sl : Nat) (_up : Bool) (s : State) : Host.Outcome State Fault Refusal :=
  s.run .core fun c =>
    if k < 4 && c.sliceEnabled sl && c.linkUp k sl then (c.setLinkUp k sl false).failLink k sl 5 else c

/-- PLANE_PLL_LOSS (R249): cause 0x3; without its PLL no link of the plane is locked (DESIGN CHOICE, notes/assumptions/47.md). -/
def execPlanePllLoss (k : Nat) (s : State) : Host.Outcome State Fault Refusal :=
  s.run .core fun c =>
    if k < 4 && c.image.applied && !(c.inReset (planeUnit k)) then (c.put (A.plane k) R.PLANE_STATUS_links_up 0).failPlane k 3 else c

/-- PLANE_LINK_LOCK (R250). -/
def execPlaneLinkLock (k sl : Nat) (s : State) : Host.Outcome State Fault Refusal :=
  s.run .core fun c => if k < 4 && sl < 8 && c.sliceEnabled sl && !(c.inReset (planeUnit k)) then c.setLinkUp k sl true else c

/-- BARRIER_RECEIVED (R248): the next cell that plane `k` brings slice `sl` is a barrier of `src`. -/
def execBarrierReceived (sl from_ k : Nat) (s : State) : Host.Outcome State Fault Refusal :=
  s.run .core fun c =>
    if sl < 8 && c.sliceEnabled sl && c.planeRuns k then
      match (c.lnk k sl false).flight with
      | x :: _ =>
        if x.barrier && x.src == from_ && x.seq == (c.lnk k sl false).expect then
          if c.asleep sl && c.wakeFull sl then c.wakeCause sl
          else
            let r := c.receive k sl false false
            let c := r.1.cnt (r.1.sliceCnt sl + C.cells_rx) 1
            if c.asleep sl then c.wakeCell sl k x else c.barrierIn sl from_ k
        else c
      | [] => c
    else c

/-- BARRIER_WAIT_EXPIRY (R248). -/
def execBarrierWaitExpiry (sl from_ : Nat) (s : State) : Host.Outcome State Fault Refusal :=
  s.run .core fun c =>
    match c.heldSince.look (sl * 8 + from_) with
    | some t =>
      if sl < 8 && from_ < 8 && c.passedUs t (c.drainUs sl) then
        let ks := c.awaited.look (sl * 8 + from_)
        let c := c.each (ks.flatMap fun w => c.openFrom sl from_ w.1) fun c a =>
          (c.cnt (c.sliceCnt sl + C.fab_plane_discard) 1).abortArrival a true
        c.releaseHeld sl from_
      else c
    | none => c

/-- A re-pin is in progress: a plane drains. -/
def Chip.repinRuns (c : Chip) : Bool := (List.range 4).any fun k => c.planeState k == 1

/-- PLANE_RETIRE (R250) (DESIGN CHOICE, notes/assumptions/47.md). -/
def Chip.planeRetire (c : Chip) (k : Nat) : Chip :=
  let c := c.put (A.plane k) R.PLANE_CMD_op 1
  let res (r : Nat) : Chip := c.put (A.plane k) R.PLANE_CMD_result r
  if c.repinRuns then res 4
  else if c.planeState k != 0 then res 0
  else if c.planesUp.length ≤ 1 then res 2
  else
    let ss := c.enabledSlices
    let c := (((res 0).put (A.plane k) R.PLANE_STATUS_state 1).put (A.plane k) R.PLANE_STATUS_cause 4).setPl k { c.pl k with drainAt := c.now }
    let c := { c with
      barriersDue := ss.foldl (fun t x => t.set (x * 4 + k) ss) c.barriersDue
      awaited := (ss.flatMap fun d => ss.map fun x => d * 8 + x).foldl (fun t i => t.upd i fun l => l ++ [(k, c.fabEpoch (i % 8))]) c.awaited }
    c.repin

/-- PLANE_RETIRE (R250) (DESIGN CHOICE, notes/assumptions/47.md). -/
def execPlaneRetire (src : Source) (k : Nat) (s : State) : Host.Outcome State Fault Refusal :=
  s.bus src (A.plane k + R.PLANE_CMD) true fun c => c.planeRetire k

/-- PLANE_RESTORE (R250). -/
def Chip.planeRestore (c : Chip) (k : Nat) : Chip :=
  let c := c.put (A.plane k) R.PLANE_CMD_op 2
  let st := c.planeState k
  let res (r : Nat) : Chip := c.put (A.plane k) R.PLANE_CMD_result r
  if c.repinRuns then res 4
  else if (st = 2 && (c.pl k).wasReset || st = 3) && c.enabledSlices.all (fun s => c.linkUp k s) && !(c.inReset (planeUnit k)) then
    (((res 0).put (A.plane k) R.PLANE_STATUS_state 0).put (A.plane k) R.PLANE_EVENT_restored 1).repin
  else res 3

/-- PLANE_RESTORE (R250). -/
def execPlaneRestore (src : Source) (k : Nat) (s : State) : Host.Outcome State Fault Refusal :=
  s.bus src (A.plane k + R.PLANE_CMD) true fun c => c.planeRestore k

/-- PLANE_DRAIN_COMPLETE (R250): the plane holds no cell, or drain_us + 5 µs have passed (DESIGN CHOICE, notes/assumptions/47.md). -/
def execPlaneDrainComplete (k : Nat) (s : State) : Host.Outcome State Fault Refusal :=
  s.run .core fun c =>
    if k < 4 && c.planeState k == 1 then
      let empty := c.planeCells k == 0 && (c.begunOn k).isEmpty && (List.range 8).all fun x => (c.barriersDue.look (x * 4 + k)).isEmpty
      let us := (c.enabledSlices.map c.drainUs).foldl Nat.max 0
      if empty || c.passedUs (c.pl k).drainAt (us + 5) then
        ((c.clearPlane k).put (A.plane k) R.PLANE_STATUS_state 3).put (A.plane k) R.PLANE_EVENT_failed 1
      else c
    else c

/-- COACH_HEAD_ENQUEUE (R257) (DESIGN CHOICE, notes/assumptions/48.md). -/
def execCoachHeadEnqueue (p : Nat) (s : State) : Host.Outcome State Fault Refusal :=
  s.run .core fun c =>
    let sl := p / 16
    match (c.sch sl).coach.look p with
    | id :: rest =>
      let a := c.arr (c.cpy id).arrival
      if p < 128 && c.alive (U.slice sl) && c.copyReady id (a.places.length + a.reserved) then
        let c := c.setSch sl { c.sch sl with coach := (c.sch sl).coach.set p rest }
        ((c.offerCopy id (a.places.length + a.reserved)).syncCoach sl).schedSync p
      else c
    | [] => c

/-- COACH_TIMEOUT (R257). -/
def execCoachTimeout (p : Nat) (s : State) : Host.Outcome State Fault Refusal :=
  s.run .core fun c =>
    let sl := p / 16
    match (c.sch sl).coach.look p with
    | id :: _ =>
      if p < 128 && c.alive (U.slice sl) && decide ((c.cpy id).coachAt + c.get (A.slice sl) R.COACH_CTRL_max_wait_us * 1000 < c.now) then
        ((c.cnt (c.sliceCnt sl + C.coach_timeout_drop) 1).endCopy id).syncCoach sl
      else c
    | [] => c

end Sys2Proof.Machine
end

