-- ==== Sys2Proof/Machine/Innkeeper.lean ====
section
/-! DEFINITION. The innkeepers' spill and recovery (spec/12_innkeeper_buffers.md R265, R269 to R278): bundles to HBM and back, the cell
window, requester and half recovery. -/

namespace Sys2Proof.Machine

open Sys2Proof

/-! ### The cell window (R278) -/

def cellWin (h : Nat) : Nat := A.half h + 0x400

/-- A cell record as the window returns it (Table 12-1). -/
def CellRec.word (r : CellRec) : Nat :=
  b2n (r.count != 0) * 2 ^ 63 + r.count * 2 ^ 52 + r.lodger * 2 ^ 36 + r.next * 2 ^ 16 + b2n r.first * 4 + b2n r.last * 2 + b2n r.bad

/-- CELL_READ (R260, R278): an uncorrectable record is marked as such (spec/17_memory_protection.md R368). -/
def Chip.cellReadOp (h : Nat) (w : WinIn) (c : Chip) : Chip × WinRes :=
  if halfCells ≤ w.index then (c, { code := 6 })
  else (c.readPoison (U.halfBlk h 0) w.index 1,
    { code := 0, data := some (BitVec.ofNat 256 (c.cellRec h w.index).word), poison := c.anyPoison (U.halfBlk h 0) w.index 1 })

/-- CELL_READ (R278). -/
def execCellRead (src : Source) (h : Nat) (s : State) : Host.Outcome State Fault Refusal :=
  s.winGo src (cellWin h) 1 (Chip.cellReadOp h)

/-- RECLAIM (R278). -/
def Chip.reclaimOp (h : Nat) (w : WinIn) (c : Chip) : Chip × WinRes :=
  if halfCells ≤ w.index then (c, { code := 6 })
  else
    let c := c.seeCell h (w.index * 256)
    if (c.cellRec h w.index).count = 0 then (c, { code := 1 }) else (c.reclaimCell h w.index, { code := 0 })

/-- RECLAIM (R278). -/
def execReclaim (src : Source) (h : Nat) (s : State) : Host.Outcome State Fault Refusal :=
  s.winGo src (cellWin h) 2 (Chip.reclaimOp h)

/-! ### Failures and recovery -/

/-- BPM_PORT_ERR (R276): the record names the requester. -/
def execBpmPortErr (h req : Nat) (s : State) : Host.Outcome State Fault Refusal :=
  s.run .core fun c =>
    if c.innkUp h && (c.reqOf h req).isSome && !(c.inReset req) then c.report req K.bpmPortErr 4 req else c

/-- REQUESTER_RECLAIM_COMPLETE (R275): between the start of the reset and its release. -/
def execRequesterReclaimComplete (h req : Nat) (s : State) : Host.Outcome State Fault Refusal :=
  s.run .core fun c =>
    if c.innkUp h then
      match c.reqOf h req with
      | some i => if (c.innk h).inRecovery.contains i && ((c.innk h).recover.look i).isNone then c.reclaimAll h i else c
      | none => c
    else c

/-- recover_us have passed since a release. -/
def Chip.recovered (c : Chip) (h : Nat) (t : Option Nat) : Bool :=
  match t with
  | some t => c.passedUs t (c.get (A.half h) R.INNK_MODE_recover_us)
  | none => false

/-- RECOVERY_END (R265): of a requester, or of the half when `req` names it or its innkeeper. -/
def execRecoveryEnd (h req : Nat) (s : State) : Host.Outcome State Fault Refusal :=
  s.run .core fun c =>
    if c.innkUp h then
      let k := c.innk h
      if req = U.half h || req = U.halfBlk h 0 then
        if k.halfRecover && c.recovered h k.halfReleased then (c.setInnk h { k with halfRecover := false, halfReleased := none }).syncInnk h
        else c
      else
        match c.reqOf h req with
        | none => c
        | some i =>
          if k.inRecovery.contains i && c.recovered h (k.recover.look i) then
            ((c.setInnk h { k with inRecovery := k.inRecovery.filter (· != i), recover := k.recover.clear i }).put (A.half h + 4 * i)
              R.INNK_REQ_USED_recovering 0).syncInnk h
          else c
    else c

/-- The words of a group from word `w` on are written anew: their errors go (spec/17_memory_protection.md R369). -/
def Chip.liftFrom (c : Chip) (u w : Nat) : Chip :=
  let g := c.grp u
  if g.poison.isEmpty && g.planted.isEmpty then c
  else c.setGrp u { g with
    poison := g.poison.filter (· < w)
    soft := g.soft.filter (·.1 < w)
    planted := g.planted.filter (·.1 < w) }

/-- FREE_LIST_REBUILD (R277): every cell whose record is free is in the list again, and the list is written anew. -/
def execFreeListRebuild (h : Nat) (s : State) : Host.Outcome State Fault Refusal :=
  s.run .core fun c =>
    if c.innkUp h && !(c.innk h).rebuilt then
      ((c.setInnk h { c.innk h with lost := [], rebuilt := true }).liftFrom (U.halfBlk h 0) halfCells).syncInnk h
    else c

/-! ### Spill -/

namespace Chip

/-- Bundles of the region as the image gives it (R40). -/
def regionAll (c : Chip) (h : Nat) : Nat :=
  match c.image.halves.find? fun r => r.half == h with
  | some r => r.spillGib * 524288
  | none => 0

/-- Bundle b lies in a retired pseudo-channel (R272). -/
def bundleGone (c : Chip) (h b : Nat) : Bool := c.get (A.hbm h) R.HBM_RETIRED_mask / 2 ^ (b % 32) % 2 == 1

/-- The lowest free bundle (DESIGN CHOICE, notes/assumptions/50.md). -/
def freeBundle (c : Chip) (h : Nat) : Option Nat :=
  let t := (c.innk h).bundles
  firstBelow (Nat.min (c.regionAll h) ((t.length + 1) * 32)) fun b => (t.look b).isNone && !(c.bundleGone h b)

/-- A cell on die is read for a bundle: an uncorrectable one makes its frame bad (R273). -/
def readForSpill (c : Chip) (h : Nat) (x : Nat × Nat) : Chip :=
  match (c.arr x.1).places[x.2]? with
  | some (.die p) =>
    let c := c.seeWords (U.halfBlk h 8) (32 * p) 32
    if c.anyPoison (U.halfBlk h 8) (32 * p) 32 then c.badCell x.1 p else c
  | _ => c

/-- The cells of a bundle are read; none is written when a frame among them was dropped. -/
def readBundle (c : Chip) (h : Nat) (cells : List (Nat × Nat)) : Chip × Bool :=
  if (c.grp (U.halfBlk h 8)).poison.isEmpty && (c.grp (U.halfBlk h 8)).soft.isEmpty then (c, true)
  else
    let d := c.each cells fun c x => c.readForSpill h x
    (d, cells.all fun x => !(d.arr x.1).copies.isEmpty)

/-- The next place in the order of writes of a half's bundles. -/
def nextOrder (k : Innkeeper) : Nat := (k.bundles.map fun b => (b.2.map Bundle.order).getD 0).foldl Nat.max 0 + 1

/-- Start the write of one bundle, or count its refusal (R271). -/
def spillWrite (c : Chip) (h queue : Nat) (cells : List (Nat × Nat)) : Chip :=
  match c.reqOf h (U.slice (queue / 16384)) with
  | none => c
  | some i =>
    let k := c.innk h
    let mine := (k.bundles.filter fun b => b.2.any fun v => v.req == i).length
    let refused := (c.cnt (c.halfCnt h + C.spill_full) 1).put (A.half h) R.INNK_EVENT_spill_full 1
    if c.get (reqBase h i) R.INNK_REQ_SPILL_CAP_spill_cap ≤ mine || c.get (A.half h) R.INNK_SPILL_region_bundles ≤ k.bundles.length then refused
    else
      match c.freeBundle h with
      | none => refused
      | some b =>
        let r := c.readBundle h cells
        if r.2 then
          let k := r.1.innk h
          (r.1.setInnk h { k with bundles := k.bundles.set b (some { req := i, queue, cells, order := nextOrder k }) }).syncInnk h
        else r.1

/-- A half may spill, and a queue number is one of its own. -/
def spillOk (c : Chip) (h queue : Nat) : Bool :=
  c.innkUp h && c.spillReady h && decide (queue / 16384 / 4 = h) && c.alive (U.slice (queue / 16384))

end Chip

/-- SPILL_BUNDLE_WRITE (R269). -/
def execSpillBundleWrite (h queue : Nat) (s : State) : Host.Outcome State Fault Refusal :=
  s.run .core fun c =>
    let l := c.spillable (queue / 16384) (queue % 16384)
    if c.spillOk h queue && decide (8 ≤ l.length) then c.spillWrite h queue (l.take 8) else c

/-- SPILL_BUNDLE_TIMER (R269): 1 µs without a further spillable frame, and the bundle is padded. -/
def execSpillBundleTimer (h queue : Nat) (s : State) : Host.Outcome State Fault Refusal :=
  s.run .core fun c =>
    let l := c.spillable (queue / 16384) (queue % 16384)
    if c.spillOk h queue && !l.isEmpty && decide (l.length < 8) && c.passedUs ((c.innk h).spillable.look queue) 1 then c.spillWrite h queue l
    else c

namespace Chip

/-- One cell of an arrival stands elsewhere. -/
def movePlace (c : Chip) (aid pos : Nat) (w : Place) : Chip :=
  match c.arrivals.look aid with
  | none => c
  | some a => c.setArr aid { a with places := setAt a.places pos w }

/-- A written bundle's cell leaves the die (DESIGN CHOICE, notes/assumptions/50.md). -/
def spillOut (c : Chip) (h b : Nat) (x : Nat × Nat) : Chip :=
  match (c.arr x.1).places[x.2]? with
  | some (.die p) => (c.cellFree h (c.arr x.1).lodger (p * 256)).movePlace x.1 x.2 (.bundle b)
  | _ => c

/-- The records of a frame's cells name the next cell (Table 12-1), as far as both are on die. -/
def linkPlace (c : Chip) (h aid pos : Nat) : Chip :=
  match (c.arr aid).places[pos]?, (c.arr aid).places[pos + 1]? with
  | some (.die p), some (.die q) => c.setCellRec h p { c.cellRec h p with next := q }
  | _, _ => c

/-- A fetched cell is on die again; its requester's used figure already counts it. A frame that finds no pointer in the free list is
dropped (DESIGN CHOICE, notes/assumptions/49.md). -/
def spillIn (c : Chip) (h req : Nat) (x : Nat × Nat) : Chip :=
  match c.arrivals.look x.1 with
  | none => c.useAdd h req (-1)
  | some a =>
    let c := c.readList h
    if halfCells ≤ c.lowestFree h then (c.each a.copies fun c id => c.endCopy id).useAdd h req (-1)
    else
      let t := c.takeCell h req (x.2 == 0) (x.2 + 1 == a.places.length) (x.2 + 1 == a.places.length && a.bad)
      let c := ((t.1.coverCell h t.2).keepContent h x.1 t.2 ((((c.fr a.frame).bytes.take a.bytesHeld).drop (256 * x.2)).take 256)).movePlace
        x.1 x.2 (.die t.2)
      let c := c.linkPlace h x.1 x.2
      if x.2 = 0 then c else c.linkPlace h x.1 (x.2 - 1)

/-- Drop every frame with a cell in a bundle, each counted at `counter` of the half (R272, R273). -/
def dropBundle (c : Chip) (h b counter : Nat) : Chip :=
  match (c.innk h).bundles.look b with
  | none => c
  | some v =>
    let aids := (v.cells.map Prod.fst).dedup
    let c := c.each aids fun c aid =>
      ((c.each (c.arr aid).copies fun c id => c.endCopy id).cnt (c.halfCnt h + counter) 1).put (A.half h) R.INNK_EVENT_spill_lost 1
    (c.setInnk h { c.innk h with bundles := (c.innk h).bundles.clear b }).syncInnk h

/-- A pseudo-channel of the stack is retired: the innkeeper loses its bundles (R272). A bundle still being written keeps its cells on die. -/
def innkRetirePc (c : Chip) (h pc : Nat) : Chip :=
  let c := c.each (((c.innk h).bundles.map Prod.fst).filter fun b => b % 32 == pc) fun c b =>
    match (c.innk h).bundles.look b with
    | some v => if v.written then c.dropBundle h b C.spill_lost
                else (c.setInnk h { c.innk h with bundles := (c.innk h).bundles.clear b }).syncInnk h
    | none => c
  c.put (A.half h) R.INNK_SPILL_region_bundles (c.get (A.half h) R.INNK_SPILL_region_bundles - c.regionAll h / 32)

end Chip

/-- SPILL_WRITE_COMPLETE (R269). -/
def execSpillWriteComplete (h bundle : Nat) (s : State) : Host.Outcome State Fault Refusal :=
  s.run .core fun c =>
    if c.innkUp h then
      match (c.innk h).bundles.look bundle with
      | none => c
      | some v =>
        if v.written then c
        else
          let c := c.each v.cells fun c x => c.spillOut h bundle x
          (((c.setInnk h { c.innk h with bundles := (c.innk h).bundles.set bundle (some { v with written := true }) }).cnt
            (c.halfCnt h + C.bundles_written) 1).cnt (A.half h + 0x40 * v.req + C.bundles_spilled) 1).syncInnk h
    else c

/-- The bundle that a queue fetches next: the first of those it wrote and has not fetched, once it is written (R270). -/
def Chip.oldestBundle (c : Chip) (s n : Nat) : Option Nat :=
  let due := (c.innk (s / 4)).bundles.filterMap fun b => match b.2 with
    | some v => if v.queue = s * 16384 + n && !v.fetching then some (v.order, b.1, v.written) else none
    | none => none
  match due.find? fun x => due.all fun y => decide (x.1 ≤ y.1) with
  | some x => if x.2.2 then some x.2.1 else none
  | none => none

/-- SPILL_FETCH (R270): below the fetch mark, or whatever the mark while the housekeeper empties the stack (spec/19 R415). -/
def execSpillFetch (h queue : Nat) (s : State) : Host.Outcome State Fault Refusal :=
  s.run .core fun c =>
    let sl := queue / 16384
    let n := queue % 16384
    if c.innkUp h && c.stackReady h && sl / 4 = h && c.alive (U.slice sl) &&
        (decide (c.queueDie sl n < QueueRec.fetchMark (c.queueRec sl n) * 8) || (c.innk h).nightHold) then
      match c.oldestBundle sl n with
      | none => c
      | some b =>
        match (c.innk h).bundles.look b with
        | none => c
        | some v =>
          if c.canAlloc h v.req v.cells.length then
            (c.setInnk h { c.innk h with bundles := (c.innk h).bundles.set b (some { v with fetching := true }) }).useAdd h v.req v.cells.length
          else c
    else c

/-- BUNDLE_READ_COMPLETE (R270, R273). -/
def execBundleReadComplete (h bundle : Nat) (poisoned : Bool) (s : State) : Host.Outcome State Fault Refusal :=
  s.run .core fun c =>
    if c.innkUp h then
      match (c.innk h).bundles.look bundle with
      | none => c
      | some v =>
        if !v.fetching then c
        else if poisoned then (c.dropBundle h bundle C.spill_poison_drop).report (U.halfBlk h 0) K.spillPoison 3 bundle
        else
          let c := c.setInnk h { c.innk h with bundles := (c.innk h).bundles.clear bundle }
          ((c.each v.cells fun c x => c.spillIn h v.req x).cnt (c.halfCnt h + C.bundles_fetched) 1).syncInnk h
    else c

end Sys2Proof.Machine
end

