-- ==== Sys2Proof/Machine/Ports.lean ====
section
/-! DEFINITION. Lanes and ports (spec/04_ports_and_lanes.md R75 to R103): lane state, FEC, link state and hold, frame reception, low-power
idle, pause and PFC. The pause frame's layout is that of IEEE 802.3 and 802.1Qbb (PRESUMED, notes/assumptions/13.md). -/

namespace Sys2Proof.Machine

open Sys2Proof

namespace Chip

/-! ### Lanes -/

/-- A lane exists for its commands: its slice is enabled. -/
def laneThere (c : Chip) (q : Nat) : Bool := decide (q < 128) && c.sliceEnabled (q / 16)

/-- A reset that names a lane, a port, a port group or a block unit of one covers lane `q`; a reset of a larger unit leaves the lanes
running (spec/01_architecture.md R23). -/
def lineReset (c : Chip) (q : Nat) : Bool :=
  (c.rst.running.map RunReset.unit ++ c.rst.held ++ c.rst.merged.map Prod.snd).any fun v => decide (U.level v ≤ 3) && (c.members v).any fun w =>
    (c.parents (U.lane q)).contains (if U.isBlk w then U.group (U.index w / 16) else w)

/-- The lane serves a port, its SerDes reference runs, and no reset of its own covers it. -/
def laneRuns (c : Chip) (q : Nat) : Bool :=
  c.laneThere q && (c.portOfLane q).isSome && bit c.power.serdesRef (q / 32) && !(c.lineReset q)

/-- Lanes of a port. -/
def portLanes (c : Chip) (p : Nat) : List Nat :=
  match c.portRec p with
  | some r => (List.range r.lanes).map (r.first + ·)
  | none => []

/-- Every lane of a port is locked (Table 4-8) (DESIGN CHOICE, notes/assumptions/36.md). -/
def lanesLocked (c : Chip) (p : Nat) : Bool :=
  (c.portLanes p).all fun q => c.on (A.lane q) R.LANE_STATUS_block_lock && c.on (A.lane q) R.LANE_STATUS_fec_lock

/-- A port's receive side stands as PORT_STATUS shows. -/
def rxBad (c : Chip) (p : Nat) : Bool :=
  !(c.on (A.port p) R.PORT_STATUS_rx_aligned) || c.on (A.port p) R.PORT_STATUS_local_fault || c.on (A.port p) R.PORT_STATUS_remote_fault

/-- Since when a condition has held without a break: kept while it holds, none while it does not. -/
def lastsSince (now : Nat) (holds : Bool) (old : Option Nat) : Option Nat := if holds then some (old.getD now) else none

/-- The receive PCS of a port changes, which starts or breaks the debounce or settle time (R81, R82)
(DESIGN CHOICE, notes/assumptions/36.md). -/
def pcsSet (c : Chip) (p : Nat) (aligned lf rf : Bool) : Chip :=
  let b := A.port p
  let c := ((c.put b R.PORT_STATUS_rx_aligned (b2n (aligned && c.lanesLocked p))).put b R.PORT_STATUS_local_fault (b2n lf)).put b
    R.PORT_STATUS_remote_fault (b2n rf)
  c.updPrt p fun q =>
    { q with unalignedSince := lastsSince c.now (!(c.on b R.PORT_STATUS_rx_aligned)) q.unalignedSince
             localSince := lastsSince c.now lf q.localSince
             remoteSince := lastsSince c.now rf q.remoteSince
             goodSince := lastsSince c.now (!(c.rxBad p)) q.goodSince }

/-- A lane's receive signal is there or not; its locks go with it (R76) (DESIGN CHOICE, notes/assumptions/36.md). -/
def laneSignal (c : Chip) (q : Nat) (present : Bool) : Chip :=
  let b := A.lane q
  let c := (c.put b R.LANE_STATUS_signal_detect (b2n present)).put b R.LANE_STATUS_cdr_lock (b2n present)
  if present then c
  else
    let c := ((c.put b R.LANE_STATUS_adapt_done 0).put b R.LANE_STATUS_block_lock 0).put b R.LANE_STATUS_fec_lock 0
    match c.portOfLane q with
    | some r => c.pcsSet r.first false (c.on (A.port r.first) R.PORT_STATUS_local_fault) (c.on (A.port r.first) R.PORT_STATUS_remote_fault)
    | none => c

/-! ### Link state and hold -/

/-- A port that the image gives. -/
def portThere (c : Chip) (p : Nat) : Bool := decide (p < 128) && c.sliceEnabled (p / 16) && (c.portRec p).isSome

/-- PORT_MEMBER_UP of the port or its suite (R89). -/
def syncMember (c : Chip) (p : Nat) : Chip :=
  let i := c.suitePos (U.port p)
  let a := c.portCnt p + R.PORT_MEMBER_UP + 4 * (i / 32)
  c.setReg a (putBits (c.reg a) (i % 32) (i % 32) (c.get (A.port p) R.PORT_STATUS_link_up))

/-- Flush every queue of a port and its coach queue (R86, spec/11_mollux_fabric.md R256). -/
def flushLink (c : Chip) (p : Nat) : Chip :=
  let c := c.flushPort p C.link_down_flush
  let c := c.each ((c.sch (p / 16)).coach.look p) fun c id => (c.cnt (c.sliceCnt (p / 16) + C.coach_full_drop) 1).endCopy id
  c.syncCoach (p / 16)

/-- The hold of a port expires with the link down (R86); learned entries whose destination is that port go with flush_on_expiry
(spec/08_exact_match.md R195). -/
def expireHold (c : Chip) (p : Nat) : Chip :=
  let c := c.flushLink p
  let c := ((c.put (A.port p) R.PORT_STATUS_in_hold 0).put (A.port p) R.PORT_STATUS_flushed 1).put (c.portCnt p) R.PORT_EVENT_hold_expired 1
  let c := c.updPrt p fun q => { q with hold := none }
  let c := c.each c.enabledSlices fun c s =>
    c.when (c.emHome s == s && c.on (A.slice s) R.LEARN_CTRL_flush_on_expiry) fun c => c.flushPortAll s p
  c.schedSync p

/-- Link-down is declared (R83, R86, R88). -/
def declareDown (c : Chip) (p : Nat) : Chip :=
  let b := A.port p
  let held := c.on b R.PORT_STATUS_in_hold
  let c := (c.put b R.PORT_STATUS_link_up 0).syncMember p
  let c := (c.put (c.portCnt p) R.PORT_EVENT_link_down 1).cnt (c.portCnt p + C.link_down_events) 1
  let c := (c.put b R.PORT_STATUS_paused 0).put b R.PORT_STATUS_xoff_sent 0
  let c := (c.put b R.PORT_STATUS_tx_lpi 0).updPrt p fun q =>
    { q with pauseEnd := [], pausedAt := [], xoffDue := 0, xoffAt := [], waking := none }
  let us := c.get b R.PORT_HOLD_hold_us
  if held then c
  else
    let c := (c.put b R.PORT_STATUS_in_hold 1).updPrt p fun q => { q with hold := some (c.now, us) }
    if us = 0 then c.expireHold p else c.schedSync p

/-- The hold timer of a port has run out (R86). -/
def holdOver (c : Chip) (p : Nat) : Bool :=
  match (c.prt p).hold with
  | some (t, us) => c.passedUs t us
  | none => false

/-- The settle time of a port has passed by time `t` (R82); it runs whatever enable is, which is tested at link-up alone
(DESIGN CHOICE, notes/assumptions/36.md). -/
def settledBy (c : Chip) (p t : Nat) : Bool :=
  (c.prt p).goodSince.any fun g => decide (g + c.get (A.port p) R.PORT_LINK_TIMING_settle_us * 1000 ≤ t)

/-- The hold timer ran out before link-up was due: link-up at the expiry still wins (R85). -/
def holdPast (c : Chip) (p : Nat) : Bool :=
  match (c.prt p).hold with
  | some (t, us) => decide (t + us * 1000 < c.now) && !(c.settledBy p (t + us * 1000))
  | none => false

/-- Link-up is due at or before the expiry of the hold timer, and wins (R85). -/
def upWins (c : Chip) (p : Nat) : Bool :=
  match (c.prt p).hold with
  | some (t, us) => c.on (A.port p) R.PORT_CTRL_enable && c.settledBy p (t + us * 1000)
  | none => false

/-- No class of a port is paused (R88). -/
def unpauseAll (c : Chip) (p : Nat) : Chip :=
  (c.put (A.port p) R.PORT_STATUS_paused 0).updPrt p fun q => { q with pauseEnd := [], pausedAt := [] }

end Chip

/-! ### Meanings: lanes -/

/-- A write of transmit taps (R77): ignored when they sum to more than 63; it reaches every member of a lane suite. -/
def Chip.laneTaps (c : Chip) (q : Nat) (data : Word) : Chip :=
  let pre2 := bits data 29 24
  let pre1 := bits data 21 16
  let main := bits data 13 8
  let post1 := bits data 5 0
  if q < 128 && pre2 + pre1 + main + post1 ≤ 63 then
    c.each (c.members (U.lane q)) fun c u =>
      let b := A.lane (U.index u)
      (((c.put b R.LANE_TX_EQ_pre2 pre2).put b R.LANE_TX_EQ_pre1 pre1).put b R.LANE_TX_EQ_main main).put b R.LANE_TX_EQ_post1 post1
  else c

/-- A write of the test pattern (R78): other than 0b00 only while the lane's port is disabled. -/
def Chip.lanePattern (c : Chip) (q prbs : Nat) : Chip :=
  if 128 ≤ q then c
  else
    c.each (c.members (U.lane q)) fun c u =>
      let off := match c.portOfLane (U.index u) with
        | some r => !(c.on (A.port r.first) R.PORT_CTRL_enable)
        | none => false
      if prbs % 4 = 0 || off then c.put (A.lane (U.index u)) R.LANE_TEST_prbs prbs else c

/-- LANE_TX_EQ_WRITE (R77). -/
def execLaneTxEqWrite (src : Source) (q : Nat) (data : Word) (s : State) : Host.Outcome State Fault Refusal :=
  s.bus src (A.lane q + R.LANE_TX_EQ) true fun c => c.laneTaps q data

/-- LANE_TEST_WRITE (R78). -/
def execLaneTestWrite (src : Source) (q prbs : Nat) (s : State) : Host.Outcome State Fault Refusal :=
  s.bus src (A.lane q + R.LANE_TEST) true fun c => c.lanePattern q prbs

/-- LANE_SIGNAL_CHANGE (R76). -/
def execLaneSignalChange (q : Nat) (present : Bool) (s : State) : Host.Outcome State Fault Refusal :=
  s.run .core fun c => if c.laneRuns q then c.laneSignal q present else c

/-- LANE_ADAPT_COMPLETE (R76): the receiver is adapted, and the lane's PCS and FEC lock (Table 4-2). -/
def execLaneAdaptComplete (q : Nat) (s : State) : Host.Outcome State Fault Refusal :=
  s.run .core fun c =>
    if c.laneRuns q && c.on (A.lane q) R.LANE_STATUS_signal_detect then
      ((c.put (A.lane q) R.LANE_STATUS_adapt_done 1).put (A.lane q) R.LANE_STATUS_block_lock 1).put (A.lane q) R.LANE_STATUS_fec_lock 1
    else c

/-- FEC_UNCORRECTABLE_CODEWORD (R79): the frame that spans it fails its FCS. -/
def execFecUncorrectableCodeword (q : Nat) (s : State) : Host.Outcome State Fault Refusal :=
  s.run .core fun c =>
    match (if c.laneRuns q then c.portOfLane q else none) with
    | some r =>
      if r.fec = 0 then c
      else (c.cnt (c.laneCnt q + C.fec_uncorrected_cw) 1).updPrt r.first fun v => { v with rx := v.rx.map fun x => { x with marked := true } }
    | none => c

/-- FEC_DEGRADE_WINDOW (R80): what the lane corrected in the window; its wrong bits count while a pattern runs (R78)
(DESIGN CHOICE, notes/assumptions/34.md). -/
def execFecDegradeWindow (q : Nat) (corrected : FecWindow) (s : State) : Host.Outcome State Fault Refusal :=
  s.run .core fun c =>
    if c.laneRuns q then
      let c := (c.cnt (c.laneCnt q + C.fec_symbol_err) corrected.symbols).cnt (c.laneCnt q + C.fec_corrected_cw) corrected.words
      let c := c.when (c.on (A.lane q) R.LANE_TEST_prbs) fun c => c.cnt (c.laneCnt q + C.prbs_err) corrected.errors
      let t := c.get (A.lane q) R.LANE_FEC_DEGRADE_symbols_per_ms
      let bad := t != 0 && decide (t < corrected.symbols)
      let was := c.fecAlarm.look q
      let c := { c with fecAlarm := c.fecAlarm.set q bad }
      if bad && !was then c.report (U.lane q) K.fecDegrade 2 else if was && !bad then c.endCond (U.lane q) K.fecDegrade else c
    else c

/-! ### Meanings: links -/

/-- PCS_STATUS_CHANGE (R81, R82). -/
def execPcsStatusChange (p : Nat) (aligned localFault remoteFault : Bool) (s : State) : Host.Outcome State Fault Refusal :=
  s.run .core fun c =>
    if c.portThere p then c.pcsSet p (aligned && !((c.portLanes p).any c.lineReset)) localFault remoteFault else c

/-- LINK_DOWN (R81, R83). -/
def execLinkDown (p : Nat) (s : State) : Host.Outcome State Fault Refusal :=
  s.run .core fun c =>
    let q := c.prt p
    let long := [q.unalignedSince, q.localSince, q.remoteSince].any fun t => t.any fun t =>
      c.passedUs t (c.get (A.port p) R.PORT_LINK_TIMING_debounce_us)
    if c.portThere p && c.on (A.port p) R.PORT_STATUS_link_up && (long || !(c.on (A.port p) R.PORT_CTRL_enable)) then c.declareDown p else c

/-- LINK_UP (R82, R85, R88): what was in hold may spill from now on (spec/12_innkeeper_buffers.md R269). -/
def execLinkUp (p : Nat) (s : State) : Host.Outcome State Fault Refusal :=
  s.run .core fun c =>
    let b := A.port p
    if c.portThere p && !(c.on b R.PORT_STATUS_link_up) && c.on b R.PORT_CTRL_enable && c.settledBy p c.now && !(c.holdPast p) then
      let held := c.on b R.PORT_STATUS_in_hold
      let c := (((c.put b R.PORT_STATUS_link_up 1).put b R.PORT_STATUS_in_hold 0).put b R.PORT_STATUS_flushed 0).syncMember p
      let c := ((c.put (c.portCnt p) R.PORT_EVENT_link_up 1).updPrt p fun q => { q with hold := none }).unpauseAll p
      let c := if held then c.each (c.portQueues p) fun c n => c.noteQueue (p / 16) n else c
      (c.wakeCause (p / 16)).schedSync p
    else c

/-- HOLD_EXPIRY (R86). -/
def execHoldExpiry (p : Nat) (s : State) : Host.Outcome State Fault Refusal :=
  s.run .core fun c =>
    if c.portThere p && c.holdOver p && !(c.on (A.port p) R.PORT_STATUS_link_up) && !(c.upWins p) then c.expireHold p else c

/-! ### Reception -/

namespace Chip

/-- A frame ends for everything that still carries it, nothing of it having left the slice (R238, spec/07_accords.md R152). -/
def killFrame (c : Chip) (id : Nat) : Chip :=
  match c.frames.look id with
  | none => c
  | some f =>
    if f.stage != .judged then c.endFrame id
    else
      let ss := (c.streams.filter fun x => x.2.any fun v => v.frame == id).map Prod.fst
      let c := c.each ss fun c x => c.killStream x
      let mine := (c.host.punts.look f.slice).filter fun x => x.frame == id
      let c := { c with host := { c.host with punts := c.host.punts.upd f.slice fun l => l.filter fun x => x.frame != id } }
      c.each mine fun c _ => (c.unstamp f.slot).unhold id

/-- Ingress time-stamp fields of a waybill (spec/15_time_bases.md R329, R330). -/
def rxStamp (c : Chip) (p : Nat) (wb : BitVec 512) : BitVec 512 :=
  let t := c.stamp p R.PORT_TS_COMP_rx_corr
  let ns := t / 65536
  Wb.put (Wb.put (Wb.put wb 1 31 0 (ns % 1000000000)) 2 31 16 (ns / 1000000000)) 2 15 0 t

/-- The waybill as the receive path starts it: absent offsets read 0xFF (spec/05_porters.md R113). -/
def rxWaybill (c : Chip) (p : Nat) : BitVec 512 := c.rxStamp p (Wb.put (Wb.put 0 0 31 24 p) 4 31 0 0xFFFFFFFF)

/-- The receive path sees frames: enabled and aligned (DESIGN CHOICE, notes/assumptions/34.md). -/
def rxOpen (c : Chip) (p : Nat) : Bool := c.portThere p && c.on (A.port p) R.PORT_CTRL_enable && c.on (A.port p) R.PORT_STATUS_rx_aligned

/-- A frame's bytes do not fit the ingress staging buffer (DESIGN CHOICE, notes/assumptions/34.md). -/
def isbOver (c : Chip) (s n : Nat) : Bool := decide (isbSize < c.isbBytes s + n)

/-- Take in a frame's first bytes (DESIGN CHOICE, notes/assumptions/34.md). -/
def rxStart (c : Chip) (p : Nat) (head : List Byte) : Chip :=
  let s := p / 16
  let n := c.newId
  let id := n.1
  let c := n.2.updPrt p fun q => { q with rx := some { id, len := head.length, maxFrame := c.maxFrame p } }
  let f : Frame := { slice := s, port := p, home := p, maxIn := c.maxFrame p, bytes := head, wb := c.rxWaybill p }
  if c.maxFrame p < head.length then c
  else if c.asleep s then
    let c := c.wakeCause s
    if 256 < (c.wakeCells s).1 + Nat.max 1 (cellsOf head.length) then c.cnt (C.wake_store_drop + 0x20 * s) 1
    else
      let c := (c.setFr id { f with stage := .wakeStore }).updPrt p fun q => { q with wait := q.wait ++ [id] }
      { c with house := { c.house with wakeStore := c.house.wakeStore.upd s fun l => l ++ [.frame id] } }
  else if c.isbOver s head.length then c.cnt (c.sliceCnt s + C.isb_drop) 1
  else (c.setFr id f).updPrt p fun q => { q with wait := q.wait ++ [id] }

/-- Put right what a policer debited, now that the length is known (spec/10_actions_and_editing.md R231)
(DESIGN CHOICE, notes/assumptions/44.md). -/
def settleDebit (c : Chip) (d : Debit) (bytes : Nat) : Chip :=
  let m := c.meter d.slice d.meter
  let more : Int := (bytes : Int) - d.estimate
  c.setMeter d.slice d.meter { m with tc := if d.committed then m.tc.debit more else m.tc, tp := if d.peak then m.tp.debit more else m.tp }

/-- Policer overhead of a port, in bytes. -/
def ingOverhead (c : Chip) (p : Nat) : Int := signed 7 (c.get (A.slice (p / 16) + 4 * (p % 16)) R.ING_OVERHEAD_overhead)

/-- The length and FCS of a frame are known: the policer and the learn request learn them, drop counters take their bytes, and copies that
have ended are charged for the difference (spec/13_hierarchical_scheduling.md R288) (DESIGN CHOICE, notes/assumptions/23.md). -/
def settleTail (c : Chip) (p id len : Nat) (good : Bool) : Chip :=
  let t := c.tail id
  let c := match t.debit with
    | some d => c.settleDebit d ((len : Int) + c.ingOverhead p).toNat
    | none => c
  let c := c.each t.drops fun c x => c.cnt x.1 (if x.2 = 0 then len else Nat.min x.2 len)
  let c := c.each t.charges fun c x =>
    c.chargeMore x.port x.queue x.charged (if x.cap != 0 && decide (x.cap < len) then (x.cap : Int) else Int.toNat ((len : Int) + x.delta))
  c.setTail id (if t.learn.isSome then { t with debit := none, drops := [], charges := [], good := some good } else {})

/-- The last bytes of a frame that is still in the device (DESIGN CHOICE, notes/assumptions/34.md). -/
def rxEnd (c : Chip) (id : Nat) (f : Frame) (rest : List Byte) (bad : Bool) : Chip :=
  let bs := f.bytes ++ rest
  let done := c.setFr id { f with bytes := bs, whole := true, bad := f.bad || bad, wb := Wb.put f.wb 0 21 8 bs.length }
  if f.stage == .wakeStore && decide (256 < (done.wakeCells f.slice).1) then (c.cnt (C.wake_store_drop + 0x20 * f.slice) 1).endFrame id
  else if f.stage != .wakeStore && c.isbOver f.slice rest.length then
    let c := c.cnt (c.sliceCnt f.slice + C.isb_drop) 1
    if f.started then (c.setFr id { f with bytes := bs, whole := true, bad := true, wb := Wb.put f.wb 0 21 8 bs.length }).trueUpFrame id
    else c.killFrame id
  else if f.bad || bad then (if f.started then done.trueUpFrame id else done.killFrame id)
  else done.trueUpFrame id

end Chip

/-- RX_FRAME_START (R128): the first bytes of a frame; a port that takes no frames discards them, and a frame that arrives during a
reset is discarded and counted (spec/01_architecture.md R23). -/
def execRxFrameStart (p : Nat) (head : List Byte) (s : State) : Host.Outcome State Fault Refusal :=
  s.run .core fun c =>
    if c.rxOpen p && (c.prt p).rx.isNone && !head.isEmpty then
      (if c.inReset (U.port p) then c.cnt (c.portCnt p + C.reset_discard) 1 else c.rxStart p head)
    else c

/-- RX_FRAME_END (R92, R238): `good` says that the FCS fits and no block of the frame is an error block
(DESIGN CHOICE, notes/assumptions/34.md). -/
def execRxFrameEnd (p : Nat) (rest : List Byte) (good : Bool) (s : State) : Host.Outcome State Fault Refusal :=
  s.run .core fun c =>
    match (c.prt p).rx with
    | none => c
    | some x =>
      let len := x.len + rest.length
      let b := c.portCnt p
      let c := c.updPrt p fun q => { q with rx := none }
      if len < 64 then (c.cnt (b + C.rx_runt) 1).endFrame x.id
      else
        let fcs := good && !x.marked
        let long := decide (x.maxFrame < len)
        let c := (c.cnt (b + C.rx_frames) 1).cnt (b + C.rx_bytes) len
        let c := (c.when (!fcs) fun c => c.cnt (b + C.rx_fcs_err) 1).when long fun c => c.cnt (b + C.rx_oversize) 1
        let c := c.settleTail p x.id len (fcs && !long)
        match c.frames.look x.id with
        | some f => c.rxEnd x.id f rest (!fcs || long)
        | none => c

/-! ### Pause and PFC -/

namespace Chip

/-- A class of a port is unpaused. -/
def unpause (c : Chip) (p k : Nat) : Chip :=
  let v := c.get (A.port p) R.PORT_STATUS_paused
  (c.put (A.port p) R.PORT_STATUS_paused (if v / 2 ^ k % 2 = 1 then v - 2 ^ k else v)).updPrt p fun q =>
    { q with pauseEnd := q.pauseEnd.clear k, pausedAt := q.pausedAt.clear k }

def isPaused (c : Chip) (p k : Nat) : Bool := c.get (A.port p) R.PORT_STATUS_paused / 2 ^ k % 2 == 1

def inStorm (c : Chip) (p k : Nat) : Bool := (c.prt p).stormEnd.look k != 0

/-- A received pause of `quanta` for a class: 512 bit times each (Table 4-15). -/
def pauseClass (c : Chip) (p k quanta : Nat) : Chip :=
  if c.inStorm p k then c
  else if quanta = 0 then c.unpause p k
  else
    let v := c.get (A.port p) R.PORT_STATUS_paused
    let was := c.isPaused p k
    (c.put (A.port p) R.PORT_STATUS_paused (if was then v else v + 2 ^ k)).updPrt p fun q =>
      { q with pauseEnd := q.pauseEnd.set k (c.now + (quanta * 512000 + c.rateMbps p - 1) / c.rateMbps p)
               pausedAt := if was then q.pausedAt else q.pausedAt.set k c.now }

def rxEn (c : Chip) (p k : Nat) : Bool := c.get (A.port p) R.PORT_FLOW_rx_en / 2 ^ k % 2 == 1

/-- A pause or PFC frame is counted, acts, and is consumed (R99) (PRESUMED, notes/assumptions/13.md)
(DESIGN CHOICE, notes/assumptions/35.md). -/
def pauseIn (c : Chip) (p : Nat) (bs : List Byte) : Chip :=
  let mode := c.get (A.port p) R.PORT_FLOW_mode
  if be16 bs 12 != 0x8808 then c
  else if be16 bs 14 = 0x0001 then
    let c := c.cnt (c.portCnt p + C.rx_pause) 1
    if mode = 1 && c.rxEn p 0 then (c.each (List.range 8) fun c k => c.pauseClass p k (be16 bs 16)).schedSync p else c
  else if be16 bs 14 = 0x0101 then
    let named := (List.range 8).filter fun k => byteAt bs 17 / 2 ^ k % 2 == 1
    let c := c.each named fun c k => c.cnt (c.portCnt p + C.rx_pfc + 8 * k) 1
    if mode = 2 then (c.each (named.filter fun k => c.rxEn p k) fun c k => c.pauseClass p k (be16 bs (18 + 2 * k))).schedSync p else c
  else c

/-- The port can put a pause message on the wire: link up, no frame on it, its transmitter awake. -/
def pauseOpen (c : Chip) (p : Nat) : Bool :=
  c.portThere p && c.on (A.port p) R.PORT_STATUS_link_up && (c.prt p).tx.isNone && !(c.on (A.port p) R.PORT_STATUS_tx_lpi)

/-- A transmitter in low-power idle begins to wake (R98) (DESIGN CHOICE, notes/assumptions/6.md). -/
def lpiWake (c : Chip) (p : Nat) : Chip :=
  if c.on (A.port p) R.PORT_STATUS_tx_lpi && (c.prt p).waking.isNone then c.updPrt p fun q => { q with waking := some c.now } else c

/-- Send one pause message for priorities `ks` with `quanta` (R97, R98). -/
def pauseOut (c : Chip) (p : Nat) (ks : List Nat) (quanta : Nat) : Chip :=
  let m := (ks.map fun k => 2 ^ k).sum
  (c.each ks fun c k => c.cnt (c.portCnt p + C.tx_pfc + 8 * k) 1).emit (.pause p m quanta)

end Chip

/-- PAUSE_FRAME_RECEIVED (R99). -/
def execPauseFrameReceived (p : Nat) (bytes : List Byte) (s : State) : Host.Outcome State Fault Refusal :=
  s.run .core fun c =>
    if c.rxOpen p && (c.prt p).rx.isNone then
      (if c.inReset (U.port p) then c.cnt (c.portCnt p + C.reset_discard) 1 else c.pauseIn p bytes)
    else c

/-- PAUSE_EXPIRY (R99). -/
def execPauseExpiry (p cls : Nat) (s : State) : Host.Outcome State Fault Refusal :=
  s.run .core fun c =>
    if c.portThere p && cls < 8 && c.isPaused p cls && decide ((c.prt p).pauseEnd.look cls ≤ c.now) then (c.unpause p cls).schedSync p else c

/-- XOFF_SEND (R97, R98). -/
def execXoffSend (p : Nat) (s : State) : Host.Outcome State Fault Refusal :=
  s.run .core fun c =>
    let ks := (List.range 8).filter fun k => c.xoffNeeded p k
    if !(c.portThere p) || ks.isEmpty then c
    else if c.pauseOpen p then
      let v := ks.foldl (fun v k => if v / 2 ^ k % 2 = 1 then v else v + 2 ^ k) (c.get (A.port p) R.PORT_STATUS_xoff_sent)
      let c := (c.put (A.port p) R.PORT_STATUS_xoff_sent v).pauseOut p ks (c.get (A.port p) R.PORT_FLOW_TIMING_tx_quanta)
      c.updPrt p fun q => { q with xoffDue := ks.foldl (fun d k => putBits d k k 0) q.xoffDue
                                   xoffAt := ks.foldl (fun t k => t.set k c.now) q.xoffAt }
    else c.lpiWake p

/-- XON_SEND (R97, R98). -/
def execXonSend (p : Nat) (s : State) : Host.Outcome State Fault Refusal :=
  s.run .core fun c =>
    let ks := (List.range 8).filter fun k => c.xonNeeded p k
    if !(c.portThere p) || ks.isEmpty then c
    else if c.pauseOpen p then
      let v := ks.foldl (fun v k => v - 2 ^ k) (c.get (A.port p) R.PORT_STATUS_xoff_sent)
      let c := (c.put (A.port p) R.PORT_STATUS_xoff_sent v).pauseOut p ks 0
      c.updPrt p fun q => { q with xoffDue := ks.foldl (fun d k => putBits d k k 0) q.xoffDue }
    else c.lpiWake p

/-- XOFF_REFRESH (R97): refresh_quanta of 512 bit times have passed since the XOFF. -/
def execXoffRefresh (p cls : Nat) (s : State) : Host.Outcome State Fault Refusal :=
  s.run .core fun c =>
    let n := c.get (A.port p) R.PORT_FLOW_TIMING_refresh_quanta * 512000 / c.rateMbps p
    if c.portThere p && cls < 8 && c.xoffSent p cls && c.txEn p cls && decide ((c.prt p).xoffAt.look cls + n ≤ c.now) then
      c.updPrt p fun q => { q with xoffDue := putBits q.xoffDue cls cls 1 }
    else c

/-- PFC_STORM_DETECT (R100): the class is unpaused, and received pause for it is ignored (DESIGN CHOICE, notes/assumptions/35.md). -/
def execPfcStormDetect (p cls : Nat) (s : State) : Host.Outcome State Fault Refusal :=
  s.run .core fun c =>
    let ms := c.get (A.port p) R.PORT_PFC_STORM_storm_ms
    if c.portThere p && cls < 8 && ms != 0 && c.isPaused p cls && c.passedUs ((c.prt p).pausedAt.look cls) (ms * 1000) then
      let c := (c.unpause p cls).updPrt p fun q =>
        { q with stormEnd := q.stormEnd.set cls (c.now + c.get (A.port p) R.PORT_PFC_STORM_recover_ms * 1000000) }
      ((c.put (c.portCnt p) R.PORT_EVENT_pfc_storm 1).report (U.port p) K.pfcStorm 2).schedSync p
    else c

/-- PFC_STORM_RECOVER (R100); the condition ends with the last class in the storm state. -/
def execPfcStormRecover (p cls : Nat) (s : State) : Host.Outcome State Fault Refusal :=
  s.run .core fun c =>
    if c.portThere p && cls < 8 && c.inStorm p cls && decide ((c.prt p).stormEnd.look cls ≤ c.now) then
      let c := c.updPrt p fun q => { q with stormEnd := q.stormEnd.clear cls }
      if (c.prt p).stormEnd.isEmpty then c.endCond (U.port p) K.pfcStorm else c
    else c

/-! ### Low-power idle -/

/-- LPI_ENTRY (R94). -/
def execLpiEntry (p : Nat) (s : State) : Host.Outcome State Fault Refusal :=
  s.run .core fun c =>
    let b := A.port p
    let q := c.prt p
    if c.portThere p && c.on b R.PORT_CTRL_lpi_enable && c.on b R.PORT_STATUS_link_up && !(c.on b R.PORT_STATUS_tx_lpi) &&
        (c.portQueues p).isEmpty && q.tx.isNone && c.passedUs q.idleAt (c.get b R.PORT_LPI_idle_us) && !(c.pauseWaits p) then
      (c.put b R.PORT_STATUS_tx_lpi 1).cnt (c.portCnt p + C.tx_lpi_entries) 1
    else c

/-- LPI_WAKE_COMPLETE (R95). -/
def execLpiWakeComplete (p : Nat) (s : State) : Host.Outcome State Fault Refusal :=
  s.run .core fun c =>
    match (c.prt p).waking with
    | some t =>
      if c.portThere p && decide (t + c.get (A.port p) R.PORT_LPI_tw_10ns * 10 ≤ c.now) then
        ((c.put (A.port p) R.PORT_STATUS_tx_lpi 0).updPrt p fun q => { q with waking := none }).schedSync p
      else c
    | none => c

/-- rx_lpi shows the peer's low-power idle while lpi_enable is 1 (R96). -/
def Chip.syncPeerLpi (c : Chip) (p : Nat) : Chip :=
  c.put (A.port p) R.PORT_STATUS_rx_lpi (b2n ((c.prt p).peerLpi && c.on (A.port p) R.PORT_CTRL_lpi_enable))

/-- PEER_LPI_CHANGE (R96); a fall of rx_lpi is a wake cause (spec/19_housekeeper_power_ageing.md R410). -/
def execPeerLpiChange (p : Nat) (lpi : Bool) (s : State) : Host.Outcome State Fault Refusal :=
  s.run .core fun c =>
    if c.portThere p then
      let was := c.on (A.port p) R.PORT_STATUS_rx_lpi
      ((c.updPrt p fun q => { q with peerLpi := lpi }).syncPeerLpi p).when (was && !lpi) fun c => c.wakeCause (p / 16)
    else c

end Sys2Proof.Machine
end

