-- ==== Sys2Proof/Machine/Micro.lean ====
section
/-! DEFINITION. The porter's microword (spec/06_microword_reference.md R129 to R142): its fields, its reserved encodings, and what one word
does to a thread and its frame's waybill, keys and hash (spec/05_porters.md R109 to R118). -/

namespace Sys2Proof.Machine

open Sys2Proof

/-! ### Fields (Table 6-1, 6-2) -/

namespace Mw

def cyc (w : Entry) : Nat := bits w 255 254 + 1
def valid (w : Entry) : Bool := bit w 253
def end_ (w : Entry) : Bool := bit w 252
def brCond (w : Entry) : Nat := bits w 251 249
def brTarget (w : Entry) : Nat := bits w 248 237
def cmpOp (w : Entry) : Nat := bits w 236 235
def cmpOff (w : Entry) : Nat := bits w 234 227
def cmpWide (w : Entry) : Bool := bit w 226
def cmpImm (w : Entry) : Nat := bits w 225 210
def cmpMask (w : Entry) : Nat := bits w 209 194
def advMode (w : Entry) : Nat := bits w 193 192
def advImm (w : Entry) : Nat := bits w 191 184
def advOff (w : Entry) : Nat := bits w 183 176
def flagSet (w : Entry) : Nat := bits w 175 168
def cond (w : Entry) : Bool := bit w 167
def mark (w : Entry) : Nat := bits w 166 164
def zero (w : Entry) : Nat := bits w 163 160

end Mw

/-- An op slot. -/
structure OpSlot where
  type : Nat
  src : Nat
  l4 : Bool
  width : Nat
  source : Nat
  dest : Nat
deriving DecidableEq, Repr

/-- Op slot k of a word. -/
def opSlot (w : Entry) (k : Nat) : OpSlot :=
  { type := bits w (40 * k + 39) (40 * k + 37), src := bits w (40 * k + 36) (40 * k + 35), l4 := bit w (40 * k + 34),
    width := bits w (40 * k + 33) (40 * k + 27) + 1, source := bits w (40 * k + 26) (40 * k + 11), dest := bits w (40 * k + 10) (40 * k) }

def opSlots (w : Entry) : List OpSlot := (List.range 4).map (opSlot w)

/-- Width of a key buffer code (Table 6-8). -/
def bufWidth (code : Nat) : Nat :=
  match code with
  | 3 => 144
  | 4 => 320
  | 5 => 320
  | 6 => 320
  | 7 => 640
  | _ => 160

/-- Where a set field stands in the waybill: word, high bit, low bit (Table 6-9, Table 5-2); none for a reserved code or a hardware field. -/
def setField (code : Nat) : Option (Nat × Nat × Nat) :=
  match code with
  | 0x01 => some (0, 7, 5)
  | 0x02 => some (0, 4, 2)
  | 0x03 => some (0, 1, 1)
  | 0x04 => some (4, 31, 24)
  | 0x05 => some (4, 23, 16)
  | 0x06 => some (4, 15, 8)
  | 0x07 => some (4, 7, 0)
  | 0x08 => some (5, 30, 29)
  | 0x09 => some (5, 15, 0)
  | 0x10 => some (5, 31, 31)
  | 0x11 => some (5, 28, 28)
  | 0x12 => some (5, 27, 27)
  | 0x13 => some (5, 26, 26)
  | 0x14 => some (5, 25, 25)
  | 0x15 => some (5, 24, 24)
  | 0x16 => some (5, 23, 23)
  | 0x17 => some (5, 22, 22)
  | _ => none

namespace OpSlot

/-- A source form is well formed for the type and width (Table 6-6). Bits of an immediate above its width may hold anything
(DESIGN CHOICE, notes/assumptions/38.md). -/
def srcOk (o : OpSlot) : Bool :=
  match o.src with
  | 0 => decide (o.source / 256 ≤ 191) && o.source % 32 == 0
  | 1 => o.source % 256 == 0 && decide (16 * (o.source / 4096) + o.source / 256 % 16 + o.width ≤ 256)
  | 2 => decide (o.width ≤ 16) && (o.type == 1 || o.type == 2 || o.type == 3 || o.type == 4)
  | _ =>
    if o.type = 3 then o.width == 8 && decide (o.source / 256 ≤ 192) && o.source % 256 == 0
    else (o.type == 2 || o.type == 4) && [16, 32, 48, 64].contains o.width && o.source % 2 ^ (16 - 4 * (o.width / 16)) == 0

/-- A slot is no reserved encoding (R137 to R142). -/
def ok (o : OpSlot) : Bool :=
  match o.type with
  | 0 => o.src == 0 && !o.l4 && o.width == 1 && o.source == 0 && o.dest == 0
  | 1 => o.srcOk && o.src != 3 && !o.l4 && decide (o.width ≤ 32) && o.dest % 128 == 0 && !(decide (16 < o.width) && o.dest / 128 == 15)
  | 2 => o.srcOk && decide (4 * (o.dest % 256) + o.width ≤ bufWidth (o.dest / 256))
  | 3 =>
    o.srcOk && !o.l4 && o.dest % 32 == 0 &&
      (match setField (o.dest / 32) with
        | some f => o.width == f.2.1 + 1 - f.2.2
        | none => false)
  | 4 => o.srcOk && o.width % 8 == 0 && o.dest == 0
  | 5 => pair o
  | 6 => pair o
  | _ => false
where
  /-- A pair fold: two window or two field operands. -/
  pair (o : OpSlot) : Bool :=
    o.srcOk && decide (o.src ≤ 1) && o.width % 8 == 0 &&
      (if o.src = 0 then decide (o.dest / 8 ≤ 191) else o.dest % 8 == 0 && decide (16 * (o.dest / 128) + o.dest / 8 % 16 + o.width ≤ 256))

/-- Key buffers that an emit writes: a pair code counts as two. -/
def buffers (o : OpSlot) : List Nat :=
  if o.type != 2 then [] else match o.dest / 256 with
    | 6 => [0, 1]
    | 7 => [4, 5]
    | b => [b]

end OpSlot

/-- Minimum duration of a word (R130). -/
def Mw.minCyc (w : Entry) : Nat :=
  let ops := opSlots w
  let reads := (ops.filter fun o => (o.type == 1 || o.type == 3) && o.src == 0).length
  let foldBits := (ops.map fun o => if o.type = 4 then o.width else if o.type = 5 || o.type = 6 then 2 * o.width else 0).sum
  Nat.max (Nat.max 1 ((reads + 1) / 2)) (Nat.max ((foldBits + 127) / 128) (((ops.flatMap OpSlot.buffers).dedup).length))

/-- A word is no reserved encoding and names no hardware field (R121, R129 to R142). -/
def Mw.ok (w : Entry) : Bool :=
  valid w && zero w == 0 && decide (minCyc w ≤ cyc w) && (opSlots w).all OpSlot.ok &&
    decide (cmpOff w ≤ 191) && decide (advOff w ≤ 191) && decide (advImm w ≤ 192) && (advMode w != 0 || advOff w == 0) &&
    (!(end_ w) || (brCond w == 0 && brTarget w == 0)) && brCond w != 7 && (brCond w != 0 || brTarget w == 0) &&
    (match cmpOp w with
      | 0 => cmpOff w == 0 && !(cmpWide w) && cmpImm w == 0 && cmpMask w == 0 && !(cond w) && !([2, 3, 6].contains (brCond w))
      | 3 => cmpImm w == 0
      | _ => true) &&
    (cmpWide w || (decide (cmpImm w < 256) && decide (cmpMask w < 256)))

/-! ### Reads -/

/-- What a word reads at its start: the window, how many of its bytes count (R111), the cursor, the waybill. -/
structure MwEnv where
  win : List Byte
  lim : Nat
  cursor : Nat
  wb : BitVec 512
deriving DecidableEq, Repr

/-- A value read: the value, whether it touched a byte beyond the frame, whether it went beyond byte 191 (R112). -/
structure Rd where
  val : Nat
  trunc : Bool := false
  beyond : Bool := false
deriving DecidableEq, Repr

/-- Bits of the window, the first the most significant. -/
def MwEnv.window (e : MwEnv) (off first width : Nat) : Rd :=
  let lo := (e.cursor + off) * 8 + first
  let hi := lo + width - 1
  let bytes := (List.range (hi / 8 + 1 - lo / 8)).map fun i => if lo / 8 + i < e.lim then e.win.getD (lo / 8 + i) 0 else 0
  { val := (ofBE bytes >>> (7 - hi % 8)) % 2 ^ width, trunc := decide (e.lim ≤ hi / 8), beyond := decide (191 < hi / 8) }

/-- Bits of the field slots, F0 the most significant. -/
def MwEnv.field (e : MwEnv) (slot first width : Nat) : Nat :=
  let all := (List.range 16).foldl (fun n i => n * 65536 + Wb.slot e.wb i) 0
  (all >>> (256 - (16 * slot + first + width))) % 2 ^ width

/-- The source operand of a slot. -/
def MwEnv.operand (e : MwEnv) (o : OpSlot) : Rd :=
  match o.src with
  | 0 => e.window (o.source / 256) (o.source / 32 % 8) o.width
  | 1 => { val := e.field (o.source / 4096) (o.source / 256 % 16) o.width }
  | 2 => { val := o.source % 2 ^ o.width }
  | _ =>
    if o.type = 3 then { val := e.cursor + o.source / 256 }
    else { val := (List.range (o.width / 16)).foldl (fun n i => n * 65536 + Wb.slot e.wb (o.source / 16 ^ (3 - i) % 16)) 0 }

/-- The second operand of a pair fold. -/
def MwEnv.second (e : MwEnv) (o : OpSlot) : Rd :=
  if o.src = 0 then e.window (o.dest / 8) (o.dest % 8) o.width else { val := e.field (o.dest / 128) (o.dest / 8 % 16) o.width }

/-- The compare (R133, Table 6-3). -/
def MwEnv.compare (e : MwEnv) (w : Entry) : Rd × Bool :=
  if Mw.cmpOp w = 0 then ({ val := 0 }, false)
  else
    let r := e.window (Mw.cmpOff w) 0 (if Mw.cmpWide w then 16 else 8)
    let v := r.val &&& Mw.cmpMask w
    (r, match Mw.cmpOp w with
      | 1 => v == Mw.cmpImm w
      | 2 => decide (v < Mw.cmpImm w)
      | _ => v != 0)

/-- The advance (R135, Table 6-5). -/
def MwEnv.advance (e : MwEnv) (w : Entry) : Rd :=
  if Mw.advMode w = 0 then { val := Mw.advImm w }
  else
    let r := e.window (Mw.advOff w) 0 8
    { r with val := Mw.advImm w + (match Mw.advMode w with
        | 1 => 4 * (r.val % 16)
        | 2 => 8 * (r.val + 1)
        | _ => 4 * (r.val / 16)) }

/-! ### Effects -/

/-- A word's running effect: waybill, key buffers, hash, and whether it broke R114, R115 or R140. -/
structure MwRun where
  wb : BitVec 512
  bufs : Tbl KeyBuf
  crc : Nat
  l4 : List Byte
  order : Option Bool
  illegal : Bool := false
deriving DecidableEq, Repr

/-- A value of 17 to 32 bits fills two slots (R138). -/
def extractInto (wb : BitVec 512) (slot width v : Nat) : BitVec 512 :=
  if width ≤ 16 then Wb.setSlot wb slot v else Wb.setSlot (Wb.setSlot wb slot (v / 65536)) (slot + 1) (v % 65536)

/-- The parts of a segment by buffer: index, low bit, width, value. -/
def emitParts (code pos width v : Nat) : List (Nat × Nat × Nat × Nat) :=
  match code with
  | 6 => split 0 1 160
  | 7 => split 4 5 320
  | b => [(b, pos, width, v)]
where
  /-- The high member takes the bits from `at_` on. -/
  split (hi lo at_ : Nat) : List (Nat × Nat × Nat × Nat) :=
    (if pos < at_ then [(lo, pos, Nat.min width (at_ - pos), v % 2 ^ (at_ - pos))] else []) ++
      (if at_ < pos + width then
        (if at_ ≤ pos then [(hi, pos - at_, width, v)] else [(hi, 0, pos + width - at_, v >>> (at_ - pos))]) else [])

/-- The other members of a buffer's pair, itself included. -/
def pairOf (b : Nat) : List Nat := if b ≤ 1 then [0, 1] else if b = 4 || b = 5 then [4, 5] else []

/-- Bits of key_valid that a code sets (Table 6-8). -/
def validBits (code : Nat) : List Nat :=
  match code with
  | 6 => [0, 1, 6]
  | 7 => [4, 5, 7]
  | b => [b]

/-- An emit (R114, R139). -/
def MwRun.emit (r : MwRun) (code pos width : Nat) (l4 : Bool) (v : Nat) : MwRun :=
  let pair := decide (6 ≤ code)
  let parts := emitParts code pos width v
  let mask (p : Nat × Nat × Nat × Nat) : Key := BitVec.ofNat 320 ((2 ^ p.2.2.1 - 1) * 2 ^ p.2.1)
  let twice := parts.any fun p => ((r.bufs.look p.1).written &&& mask p) != 0
  let mixed := if pair then (pairOf (if code = 6 then 0 else 4)).any fun b => (r.bufs.look b).byMember
    else (pairOf code).any fun b => (r.bufs.look b).byPair
  if twice || mixed then { r with illegal := true }
  else
    let bufs := parts.foldl (fun t p => t.upd p.1 fun b =>
      { b with val := b.val ||| BitVec.ofNat 320 (p.2.2.2 * 2 ^ p.2.1), written := b.written ||| mask p,
               l4 := if l4 then b.l4 ||| mask p else b.l4, byMember := b.byMember || !pair }) r.bufs
    let bufs := if pair then (pairOf (if code = 6 then 0 else 4)).foldl (fun t b => t.upd b fun k => { k with byPair := true }) bufs else bufs
    { r with bufs, wb := (validBits code).foldl (fun wb i => Wb.put wb 6 (24 + i) (24 + i) 1) r.wb }

/-- Feed bytes to the hash, or to the L4 fold buffer of 16 (R115). -/
def MwRun.feed (r : MwRun) (l4 : Bool) (bs : List Byte) : MwRun :=
  if l4 then (if 16 < r.l4.length + bs.length then { r with illegal := true } else { r with l4 := r.l4 ++ bs })
  else { r with crc := crcRaw r.crc bs }

/-- A pair fold (R116). -/
def MwRun.pairFold (r : MwRun) (linked l4 : Bool) (n a b : Nat) : MwRun :=
  let decided : Option Bool := if a = b then none else some (decide (b < a))
  let order := if linked then (if r.order.isSome then r.order else decided) else decided
  let swap := order.getD false
  { r with order }.feed l4 (if swap then toBE n b ++ toBE n a else toBE n a ++ toBE n b)

/-- One op slot (R131 step 3); sets obey cond. -/
def MwRun.op (r : MwRun) (e : MwEnv) (sets : Bool) (o : OpSlot) : MwRun :=
  let v := (e.operand o).val
  match o.type with
  | 1 => { r with wb := extractInto r.wb (o.dest / 128) o.width v }
  | 2 => r.emit (o.dest / 256) (4 * (o.dest % 256)) o.width o.l4 v
  | 3 =>
    if o.src = 3 && 192 < v then { r with illegal := true }
    else if sets then (match setField (o.dest / 32) with
      | some f => { r with wb := Wb.put r.wb f.1 f.2.1 f.2.2 v }
      | none => r)
    else r
  | 4 => r.feed o.l4 (toBE (o.width / 8) v)
  | 5 => r.pairFold false o.l4 (o.width / 8) v (e.second o).val
  | 6 => r.pairFold true o.l4 (o.width / 8) v (e.second o).val
  | _ => r

/-- flag_set and mark (R131 step 2, R136). -/
def applyFlags (wb : BitVec 512) (w : Entry) (cursor : Nat) : BitVec 512 :=
  let flag (wb : BitVec 512) (i at_ : Nat) : BitVec 512 := if Mw.flagSet w / 2 ^ i % 2 = 1 then Wb.put wb 5 at_ at_ 1 else wb
  let wb := flag (flag (flag (flag (flag (flag (flag (flag wb 7 31) 6 28) 5 27) 4 26) 3 25) 2 24) 1 23) 0 22
  let mark (wb : BitVec 512) (i hi lo : Nat) : BitVec 512 := if Mw.mark w / 2 ^ i % 2 = 1 then Wb.put wb 4 hi lo cursor else wb
  mark (mark (mark wb 2 31 24) 1 23 16) 0 15 8

/-- Every value that a word reads. -/
def MwEnv.reads (e : MwEnv) (w : Entry) : List Rd :=
  (e.compare w).1 :: e.advance w ::
    (opSlots w).flatMap fun o => if o.type = 0 then [] else e.operand o :: (if o.type = 5 || o.type = 6 then [e.second o] else [])

/-- What a word does to its thread: a parse failure of a reason, or the thread's next state. -/
inductive MwOut where
  | fail (reason : Nat)
  | next (t : Thread) (wb : BitVec 512) (ended taken : Bool)
deriving DecidableEq, Repr

/-- Whether the branch is taken (Table 6-4). -/
def branchTaken (w : Entry) (cmp trunc : Bool) : Bool :=
  match Mw.brCond w with
  | 1 => true
  | 2 => cmp
  | 3 => !cmp
  | 4 => trunc
  | 5 => !trunc
  | 6 => cmp && !trunc
  | _ => false

/-- One microword of a thread (R131, R132): the lowest reason of R120 that it meets, or its effects in order
(DESIGN CHOICE, notes/assumptions/38.md). -/
def runWord (w : Entry) (t : Thread) (win : List Byte) (lim : Nat) (wb : BitVec 512) (limit : Nat) : MwOut :=
  if !(Mw.ok w) then .fail 1
  else
    let e : MwEnv := { win, lim, cursor := t.cursor, wb }
    let cmp := (e.compare w).2
    let rds := e.reads w
    let trunc := t.trunc || rds.any Rd.trunc
    let act := !(Mw.cond w) || cmp
    let r : MwRun := { wb := if act then applyFlags wb w t.cursor else wb, bufs := t.bufs, crc := t.crc, l4 := t.l4, order := t.order }
    let r := (opSlots w).foldl (fun r o => r.op e act o) r
    let taken := branchTaken w cmp trunc
    let cursor := t.cursor + (e.advance w).val
    if r.illegal || (t.pc == 4095 && !(Mw.end_ w) && !taken) then .fail 1
    else if rds.any Rd.beyond || decide (192 < cursor) then .fail 2
    else if limit < t.retired + Mw.cyc w then .fail 3
    else
      .next { t with pc := if taken then Mw.brTarget w else t.pc + 1, cursor, retired := t.retired + Mw.cyc w, trunc, bufs := r.bufs, crc := r.crc,
                     l4 := r.l4, order := r.order }
        (if trunc then Wb.put r.wb 5 21 21 1 else r.wb) (Mw.end_ w) taken

/-- The symmetric flow hash at thread end: unmarked folds, then the L4 folds unless the datagram is a fragment (R115, R118)
(DESIGN CHOICE, notes/assumptions/38.md). -/
def flowHash (t : Thread) (frag : Bool) : Nat := (crcRaw t.crc (if frag then [] else t.l4)) ^^^ 0xFFFFFFFF

/-- The keys that a thread leaves: a fragment's L4-marked bits are zero (R118). -/
def leftKeys (t : Thread) (frag : Bool) : Tbl Key :=
  (List.range 6).foldl (fun k b => k.set b (if frag then (t.bufs.look b).val &&& ~~~(t.bufs.look b).l4 else (t.bufs.look b).val)) []

/-- CRC-32C of the store, words 0 to 4,095 (R144). -/
def storeCrc (st : Tbl Entry) : Nat := crc32c 0xFFFFFFFF ((List.range 4096).flatMap fun w => toLE 32 (st.look w).toNat)

/-- The waybill validity check (R122) (DESIGN CHOICE, notes/assumptions/38.md). -/
def waybillOk (wb : BitVec 512) : Bool :=
  let offs := [Wb.get wb 4 31 24, Wb.get wb 4 23 16, Wb.get wb 4 15 8, Wb.get wb 4 7 0]
  let l3 := Wb.get wb 4 31 24
  let l4 := Wb.get wb 4 23 16
  let kv := Wb.keyValid wb
  offs.all (fun o => decide (o ≤ 192) || o == 255) && (l3 == 255 || l4 == 255 || decide (l3 < l4)) &&
    !(Wb.get wb 5 22 22 == 1 && l4 == 255) && !(Wb.get wb 5 24 24 == 1 && Wb.get wb 5 25 25 == 0) &&
    !(kv / 64 % 2 == 1 && kv % 4 != 3) && !(kv / 128 % 2 == 1 && kv / 16 % 4 != 3)

end Sys2Proof.Machine
end

