-- ==== Sys2Proof/Machine/Porters.lean ====
section
/-! DEFINITION. Porters (spec/05_porters.md R104 to R128, spec/06_microword_reference.md R143 to R146): dispatch, the issue of a microword,
release to the lookup pipes, failover to a spare, and store checks. -/

namespace Sys2Proof.Machine

open Sys2Proof

/-- Unit ID of a porter. -/
def porterUnit (s n : Nat) : Nat := U.sliceBlk s n

namespace Chip

def role (c : Chip) (s n : Nat) : Nat := c.get (A.porter s n) R.PORTER_STATUS_role

def front (c : Chip) (s : Nat) : Front := c.fronts.look s

def setFront (c : Chip) (s : Nat) (f : Front) : Chip := { c with fronts := c.fronts.set s f }

/-- A spare that no failover uses. -/
def freeSpare (c : Chip) (s n : Nat) : Bool := c.role s n == 1 && !((c.front s).failovers.any fun x => x.2.1 == n)

/-- PORTER_SUMMARY follows the roles (Table 5-11). -/
def syncPorters (c : Chip) (s : Nat) : Chip :=
  let count (p : Nat → Bool) : Nat := ((List.range 34).filter p).length
  let b := A.slice s
  ((c.put b R.PORTER_SUMMARY_active_count (count fun n => c.role s n == 0)).put b R.PORTER_SUMMARY_spares_free (count fun n => c.freeSpare s n)).put b
    R.PORTER_SUMMARY_failed_count (count fun n => c.role s n == 2 || c.role s n == 3)

/-- The porters of a slice run: enabled, not in reset, awake. -/
def portersRun (c : Chip) (s : Nat) : Bool := decide (s < 8) && c.alive (U.slice s) && !(c.asleep s)

/-! ### Dispatch and release -/

def threadOf (c : Chip) (s n th : Nat) : Thread := (c.porter s n).threads.look th

def setThread (c : Chip) (s n th : Nat) (t : Thread) : Chip :=
  c.setPorter s n { c.porter s n with threads := (c.porter s n).threads.set th t }

/-- Free threads of a porter. -/
def freeThreads (c : Chip) (s n : Nat) : Nat := ((List.range 4).filter fun th => (c.threadOf s n th).frame.isNone).length

/-- The porter takes frames. -/
def takes (c : Chip) (s n : Nat) : Bool := decide (n < 34) && c.role s n == 0 && !(c.inReset (porterUnit s n))

/-- The dispatcher's choice (R105): most free threads, lowest index on a tie. -/
def dispatchTo (c : Chip) (s : Nat) : Option Nat :=
  (List.range 34).foldl (fun b n =>
    if !(c.takes s n) || c.freeThreads s n = 0 then b
    else match b with
      | some m => if c.freeThreads s m < c.freeThreads s n then some n else b
      | none => some n) none

/-- A thread holds a frame and does not wait for the release queue; no thread waits for the key unit or for a microword
(DESIGN CHOICE, notes/assumptions/38.md). -/
def threadReady (c : Chip) (s n th : Nat) : Bool := (c.threadOf s n th).frame.isSome && !(c.threadOf s n th).ended

/-- Some thread is ready. -/
def threadBusy (c : Chip) (s n : Nat) : Bool := (List.range 4).any fun th => c.threadReady s n th

/-- The thread that issues next: the ready threads take turns (R107). -/
def nextThread (c : Chip) (s n : Nat) : Option Nat :=
  ((List.range 4).map fun i => ((c.porter s n).turn + i) % 4).find? fun th => c.threadReady s n th

/-- A frame may be dispatched: next of its port, 192 bytes or its whole length there (R105). -/
def dispatchable (c : Chip) (s id : Nat) : Bool :=
  match c.frames.look id with
  | none => false
  | some f => f.slice == s && f.stage == .waiting && (f.whole || decide (192 ≤ f.bytes.length)) && (c.prt f.home).wait.head? == some id

/-- Give a frame to a thread (R106), which acts on the live copy of this moment until its next frame (spec/02_configuration_image.md
Table 2-10); an injected frame has its stamp already (spec/20_host_interface.md R439). A port's first dispatch_seq is 0
(DESIGN CHOICE, notes/assumptions/38.md). -/
def giveThread (c : Chip) (s n th id : Nat) : Chip :=
  let f := c.fr id
  let slot := f.slot.getD c.newestSlot
  let seq := (c.prt f.home).seq
  let wb := Wb.put (Wb.put (Wb.put (Wb.put f.wb 0 23 22 slot) 6 15 10 n) 6 9 8 th) 6 7 0 seq
  let idle := !(c.threadBusy s n)
  let c := (c.when f.slot.isNone fun c => c.inflightUp slot 1).setFr id { f with slot := some slot, stage := .thread n th, wb }
  let c := c.updPrt f.home fun q => { q with wait := q.wait.filter (· != id), parsing := q.parsing ++ [id], seq := (q.seq + 1) % 256 }
  let c := c.setThread s n th
    { frame := some id, pc := c.get (A.porter s n) R.PORTER_PARSE_entry, parse := c.reg (A.porter s n + R.PORTER_PARSE)
      check := c.reg (A.porter s n + R.PORTER_CHECK) }
  (c.when idle fun c => c.setPorter s n { c.porter s n with lastRetire := c.now }).syncBusy s n

end Chip

/-- DISPATCH (R105, R106). -/
def execDispatch (sl n th frame : Nat) (s : State) : Host.Outcome State Fault Refusal :=
  s.run .core fun c =>
    if c.portersRun sl && c.dispatchTo sl == some n && th < 4 && (c.threadOf sl n th).frame.isNone && c.dispatchable sl frame then
      c.giveThread sl n th frame
    else c

namespace Chip

/-! ### Failover (R123 to R126) -/

/-- A pending apply of a window ends with a reason (spec/02_configuration_image.md R49, R50, Table 2-8). -/
def withdrawApply (c : Chip) (base at_ reason : Nat) : Chip :=
  match c.applies.look base with
  | none => c
  | some _ =>
    let c := { c with applies := c.applies.set base none }
    (((c.put (at_ + 4) R.APPLY_STATUS_pending 0).put (at_ + 4) R.APPLY_STATUS_apply_err 1).put (at_ + 4) R.APPLY_STATUS_err_irq 1).put (at_ + 4)
      R.APPLY_STATUS_reason reason

/-- A spare is looked for; without one the slice goes on with fewer porters (R125). -/
def seekSpare (c : Chip) (s failed : Nat) : Chip :=
  match (List.range 34).find? fun n => c.freeSpare s n with
  | some n => (c.setFront s { c.front s with failovers := (c.front s).failovers ++ [(failed, n, false)] }).syncPorters s
  | none => (c.report (U.slice s) K.porterNoSpare 3).syncPorters s

/-- Drop the frames of a porter's threads; each ends its in-flight count. -/
def dropThreads (c : Chip) (s n counter : Nat) : Chip :=
  let ids := (List.range 4).filterMap fun th => (c.threadOf s n th).frame
  let c := c.each ids fun c id => (c.cnt (A.porter s n + counter) 1).endFrame id
  (c.setPorter s n {}).syncBusy s n

/-- A porter fails (Table 5-5). -/
def failPorter (c : Chip) (s n cause : Nat) : Chip :=
  let c := (c.put (A.porter s n) R.PORTER_STATUS_role (if cause = 3 then 3 else 2)).report (porterUnit s n) K.porterFail 2 cause
  ((c.dropThreads s n C.porter_fail_discard).withdrawApply (A.porter s n) (A.porter s n + 0xFF8) 6).seekSpare s n

/-- A spare fails its store check: the other spare is tried for whichever porter it was to replace (R125). -/
def failSpare (c : Chip) (s n : Nat) : Chip :=
  let was := (c.front s).failovers.filter fun x => x.2.1 == n
  let c := (c.put (A.porter s n) R.PORTER_STATUS_role 2).report (porterUnit s n) K.porterFail 2 4
  let c := (c.setFront s { c.front s with failovers := (c.front s).failovers.filter fun x => x.2.1 != n }).syncPorters s
  c.each was fun c x => c.seekSpare s x.1

/-- A waybill fails its check: the frame is dropped, and the porter with it at the limit that `check` gives (R122, R123)
(DESIGN CHOICE, notes/assumptions/38.md). -/
def waybillFail (c : Chip) (s n id : Nat) (check : Word) (inj : Bool) : Chip :=
  let b := A.porter s n
  let win := R.PORTER_CHECK_window_us.of check * 1000
  let fails := (c.porter s n).fails.filter (fun t => decide (c.now < t + win)) ++ [c.now]
  let c := (c.cnt (b + C.waybill_invalid) 1).reportInj (porterUnit s n) K.waybillInvalid 3 0 inj
  let c := (c.endFrame id).setPorter s n { (c.endFrame id).porter s n with fails }
  if R.PORTER_CHECK_fail_limit.of check ≤ fails.length then c.failPorter s n 1 else c

/-! ### The issue of a word -/

/-- The header window of a frame, and how many of its bytes count (R109, R111). -/
def headerWindow (_c : Chip) (f : Frame) : List Byte × Nat :=
  (f.bytes.take 192, if f.whole && decide (f.bytes.length < 192) then f.bytes.length - 4 else 192)

/-- A thread ends: waybill, keys and default action are fixed, and it waits for the release queue (DESIGN CHOICE, notes/assumptions/38.md). -/
def endThread (c : Chip) (s n th id : Nat) (t : Thread) (wb : BitVec 512) (reason slots : Nat) : Chip :=
  let f := c.fr id
  let frag := Wb.get wb 5 25 25 == 1
  let wb := Wb.put (Wb.put wb 3 31 0 (flowHash t frag)) 6 23 16 (Nat.min 255 slots)
  let wb := if reason = 0 then wb else Wb.put (Wb.put wb 5 20 18 reason) 6 31 24 0
  let keys := if reason = 0 then leftKeys t frag else []
  let c := c.setFr id { f with wb, keys, dflt := c.reg (A.port f.home + R.PORT_DEFAULT) }
  (c.cnt (A.porter s n + C.frames_parsed) 1).setThread s n th { t with ended := true }

/-- Charge slots to a category (R127). -/
def chargeSlots (c : Chip) (s n counter cycles : Nat) : Chip :=
  (c.cnt (A.porter s n + C.slot_total) cycles).cnt (A.porter s n + counter) cycles

/-- Charge the slots of a word, ahead of the passing of their time (R127) (DESIGN CHOICE, notes/assumptions/10.md). -/
def chargeWord (c : Chip) (s n counter cycles : Nat) : Chip :=
  (c.chargeSlots s n counter cycles).setPorter s n { c.porter s n with ahead := (c.porter s n).ahead + cycles }

/-- 8 ns pass for a porter: 16 cycles, of which those that no word has taken are wasted while a thread is ready, back-starved while every
thread with a frame waits for the release queue, and front-starved while no thread has one (R127) (DESIGN CHOICE, notes/assumptions/10.md). -/
def tickPorter (c : Chip) (s n : Nat) : Chip :=
  if !(c.takes s n) then c
  else
    let p := c.porter s n
    if 16 ≤ p.ahead then c.setPorter s n { p with ahead := p.ahead - 16 }
    else
      let k := if c.freeThreads s n = 4 then C.slot_front else if c.threadBusy s n then C.slot_wasted else C.slot_back
      (c.setPorter s n { p with ahead := 0 }).chargeSlots s n k (16 - p.ahead)

/-- 8 ns pass for the porters of every slice whose clock runs. -/
def tickPorters (c : Chip) : Chip :=
  c.each (List.range 8) fun c s => if c.portersRun s then c.each (List.range 34) fun c n => c.tickPorter s n else c

/-- The cycle in which a thread that branched is not ready passes with no word of another thread (R107, R127). -/
def redirect (c : Chip) (s n th : Nat) : Chip :=
  if (c.porter s n).branched = some th then
    (c.chargeWord s n C.slot_wasted 1).setThread s n th { c.threadOf s n th with waste := (c.threadOf s n th).waste + 1 }
  else c

/-- The turn passes on after a word of a thread. -/
def passTurn (c : Chip) (s n th : Nat) (taken : Bool) : Chip :=
  c.setPorter s n { c.porter s n with turn := (th + 1) % 4, branched := if taken then some th else none }

/-- One microword of a thread. -/
def issue (c : Chip) (s n th id : Nat) : Chip :=
  let c := c.redirect s n th
  let t := c.threadOf s n th
  let f := c.fr id
  let win := c.headerWindow f
  let w := c.store.look t.pc
  match runWord w t win.1 win.2 f.wb (R.PORTER_PARSE_loop_limit.of t.parse) with
  | .fail r =>
    let c := ((c.chargeWord s n C.slot_wasted (Mw.cyc w)).passTurn s n th false).cnt (A.porter s n + C.parse_fail + 8 * (r - 1)) 1
    let c := if r = 1 then c.report (porterUnit s n) K.porterIllegal 0 t.pc else c
    c.endThread s n th id t f.wb r (t.retired + t.waste + Mw.cyc w)
  | .next t' wb ended taken =>
    let c := (c.chargeWord s n C.slot_retired (Mw.cyc w)).passTurn s n th taken
    let c := c.setPorter s n { c.porter s n with lastRetire := c.now }
    let c := (c.setFr id { f with wb }).setThread s n th t'
    if !ended then c
    else
      let u := porterUnit s n
      let inj := c.injected u 2 != 0
      let c := (c.endThread s n th id t' wb 0 (t'.retired + t'.waste)).when inj fun c => c.injectStep u 2
      if inj || !(waybillOk wb) then c.waybillFail s n id t.check inj else c

end Chip

/-- MICROWORD (R107, R131): the thread whose turn it is. -/
def execMicroword (sl n th : Nat) (s : State) : Host.Outcome State Fault Refusal :=
  s.run .core fun c =>
    match (c.threadOf sl n th).frame with
    | some id => if c.portersRun sl && c.takes sl n && c.nextThread sl n == some th then c.issue sl n th id else c
    | none => c

/-- THREAD_RELEASE (R108): the release queue holds 256 entries. -/
def execThreadRelease (sl n th : Nat) (s : State) : Host.Outcome State Fault Refusal :=
  s.run .core fun c =>
    let t := c.threadOf sl n th
    match t.frame with
    | some id =>
      if c.portersRun sl && th < 4 && t.ended && decide ((c.front sl).release.length < 256) then
        ((c.clearThread sl n th).updFr id fun f => { f with stage := .release }).setFront sl
          { c.front sl with release := (c.front sl).release ++ [id] }
      else c
    | none => c

/-- RELEASE_TO_PIPES (R108): the oldest entry whose earlier frames of the same port have all gone on. -/
def execReleaseToPipes (sl : Nat) (s : State) : Host.Outcome State Fault Refusal :=
  s.run .core fun c =>
    if c.portersRun sl then
      match (c.front sl).release.find? fun id => (c.prt (c.fr id).home).parsing.head? == some id with
      | some id =>
        let c := c.setFront sl { c.front sl with release := (c.front sl).release.filter (· != id) }
        (c.updPrt (c.fr id).home fun q => { q with parsing := q.parsing.filter (· != id) }).updFr id fun f => { f with stage := .pipes }
      | none => c
    else c

/-- PORTER_STALL (R123). -/
def execPorterStall (sl n : Nat) (s : State) : Host.Outcome State Fault Refusal :=
  s.run .core fun c =>
    if c.portersRun sl && c.takes sl n && c.threadBusy sl n && c.passedUs (c.porter sl n).lastRetire 1 then c.failPorter sl n 2 else c

/-- PORTER_RETIRE (R123, Table 5-11) (DESIGN CHOICE, notes/assumptions/38.md). -/
def Chip.porterRetireGo (c : Chip) (sl n : Nat) : Chip :=
  let n := n % 64
  let b := A.slice sl
  let c := (c.put b R.PORTER_RETIRE_index n).put b R.PORTER_SUMMARY_last_index n
  if 34 ≤ n || c.role sl n != 0 then c.put b R.PORTER_SUMMARY_last_retire 3
  else if !((List.range 34).any fun m => c.freeSpare sl m) then c.put b R.PORTER_SUMMARY_last_retire 2
  else (c.put b R.PORTER_SUMMARY_last_retire 1).failPorter sl n 3

/-- PORTER_RETIRE (R123, Table 5-11) (DESIGN CHOICE, notes/assumptions/38.md). -/
def execPorterRetire (src : Source) (sl n : Nat) (s : State) : Host.Outcome State Fault Refusal :=
  s.bus src (A.slice sl + R.PORTER_RETIRE) true fun c => c.porterRetireGo sl n

/-- CRC-32C that a check of a porter's store computes (R144, R146): `upsets` are the words that a fault has changed in that store, which
executes as it was loaded (DESIGN CHOICE, notes/assumptions/38.md). -/
def Chip.checkCrc (c : Chip) (upsets : List (Nat × Entry)) : Nat := storeCrc (upsets.foldl (fun t u => t.set (u.1 % 4096) u.2) c.store)

/-- SPARE_STORE_CHECK_COMPLETE (R123, R125, R126): of the spare of a failover, or of a porter that a reset returned. -/
def execSpareStoreCheckComplete (sl n : Nat) (upsets : List (Nat × Entry)) (s : State) : Host.Outcome State Fault Refusal :=
  s.run .core fun c =>
    let ok := c.checkCrc upsets == c.get (A.slice sl) R.STORE_CRC_crc
    let f := c.front sl
    if !(decide (sl < 8) && c.alive (U.slice sl)) then c
    else if f.recheck.contains n then
      let c := c.setFront sl { f with recheck := f.recheck.filter (· != n) }
      if ok then ((c.put (A.porter sl n) R.PORTER_STATUS_role 1).put (A.porter sl n) R.PORTER_STATUS_partner 0).syncPorters sl else c
    else if f.failovers.any fun x => x.2.1 == n && !x.2.2 then
      if ok then c.setFront sl { f with failovers := f.failovers.map fun x => if x.2.1 = n then (x.1, n, true) else x } else c.failSpare sl n
    else c

/-- SPARE_TAKEOVER (R123, R124): the failed porter's live copy becomes the spare's live and staged copies. -/
def execSpareTakeover (sl n : Nat) (s : State) : Host.Outcome State Fault Refusal :=
  s.run .core fun c =>
    let f := c.front sl
    match f.failovers.find? fun x => x.2.1 == n && x.2.2 with
    | none => c
    | some x =>
      if !(decide (sl < 8) && c.alive (U.slice sl)) then c
      else
        let c := c.each [R.PORTER_PARSE, R.PORTER_CHECK] fun c o =>
          { c.setReg (A.porter sl n + o) (c.reg (A.porter sl x.1 + o)) with staged := c.staged.clear (A.porter sl n + o) }
        let c := (c.put (A.porter sl n) R.PORTER_STATUS_role 0).put (A.porter sl n) R.PORTER_STATUS_partner (porterUnit sl x.1)
        let c := c.put (A.porter sl x.1) R.PORTER_STATUS_partner (porterUnit sl n)
        let c := ({ c with since := c.since.clear (A.porter sl n) }).setFront sl { f with failovers := f.failovers.filter fun y => y.2.1 != n }
        ((c.setPorter sl n {}).syncBusy sl n).syncPorters sl

/-- STORE_CHECK (R146); it also wakes a sleeping slice (spec/19_housekeeper_power_ageing.md R410). A go while busy writes nothing, its
index neither, and result reads none while a check runs (DESIGN CHOICE, notes/assumptions/38.md). -/
def Chip.storeCheckGo (c : Chip) (sl n : Nat) : Chip :=
  let n := n % 64
  let b := A.slice sl
  if c.on b R.STORE_CHECK_busy then c
  else
    let c := (c.put b R.STORE_CHECK_index n).wakeCause sl
    if 34 ≤ n then c.put b R.STORE_CHECK_result 3
    else ((c.put b R.STORE_CHECK_busy 1).put b R.STORE_CHECK_result 0).setFront sl { c.front sl with checking := n }

/-- STORE_CHECK (R146). -/
def execStoreCheck (src : Source) (sl n : Nat) (s : State) : Host.Outcome State Fault Refusal :=
  s.bus src (A.slice sl + R.STORE_CHECK) true fun c => c.storeCheckGo sl n

/-- STORE_CHECK_COMPLETE (R146). -/
def execStoreCheckComplete (sl : Nat) (upsets : List (Nat × Entry)) (s : State) : Host.Outcome State Fault Refusal :=
  s.run .core fun c =>
    let b := A.slice sl
    if decide (sl < 8) && c.sliceEnabled sl && !(c.asleep sl) && c.on b R.STORE_CHECK_busy then
      let n := (c.front sl).checking
      let crc := c.checkCrc upsets
      let ok := crc == c.get b R.STORE_CRC_crc
      let c := ((c.put b R.STORE_CRC_LAST_crc crc).put b R.STORE_CHECK_busy 0).put b R.STORE_CHECK_result (if ok then 1 else 2)
      if ok then c
      else
        let c := c.report (porterUnit sl n) K.storeMismatch 3
        if c.role sl n = 1 then c.failSpare sl n else c
    else c

end Sys2Proof.Machine
end

