-- ==== Sys2Proof/Machine/Lookup.lean ====
section
/-! DEFINITION. A frame's lookups (spec/08_exact_match.md R173 to R178, R187, R188; spec/09_lpm_and_tcam.md R197 to R206, R212 to R219):
exact-match probes and chains, the LPM walk and its hold queue, TCAM searches with their check, and learn requests. -/

namespace Sys2Proof.Machine

open Sys2Proof

/-- A frame's key_valid bit. -/
def Frame.keyOn (f : Frame) (i : Nat) : Bool := Wb.keyValid f.wb / 2 ^ i % 2 == 1

/-- The key in an exact-match buffer. -/
def Frame.emKey (f : Frame) (b : Nat) : Nat := (f.keys.look b).toNat % 2 ^ 160

/-- A buffer's probe is a single one: emitted, and no half of a pair key. -/
def Frame.single (f : Frame) (b : Nat) : Bool := f.keyOn b && !(decide (b ≤ 1) && f.keyOn 6)

namespace Chip

/-! ### Extended ports (spec/04_ports_and_lanes.md R101) -/

/-- What R101 finds of a frame: the reason of its default action (0 none, 4, 5), the subscriber slot of its E-CID, and the E-CID
(DESIGN CHOICE, notes/assumptions/37.md). -/
def extJudge (c : Chip) (f : Frame) : Nat × Option Nat × Nat :=
  let b := A.port f.home
  if f.injected || !(c.on b R.PORT_PE_cascade) then (0, none, 0)
  else
    match readETag f.bytes with
    | none => (if c.on b R.PORT_PE_require_etag then 4 else 0, none, 0)
    | some t =>
      let ecid := t.ext % 8 * 4096 + t.base
      let w := c.vGet .ecid f.slice ecid
      if t.ext < 8 && (vValidity w).holds (c.frameAccord f) && bits w 30 27 == f.home % 16 then (0, some (bits w 26 16), ecid) else (5, none, ecid)

/-! ### Exact-match probes -/

/-- A probe reads both candidate buckets and the overflow store: correctable bytes are corrected for it
(spec/17_memory_protection.md R375). -/
def emSee (c : Chip) (s : Nat) (wide : Bool) (key : Nat) : Chip :=
  if c.emGranules s = 0 then c
  else
    ((c.seeWords (U.sliceBlk s 0x48) (c.emWord s (c.emBucket s 0 wide key)) 16).seeWords (U.sliceBlk s 0x48)
      (c.emWord s (c.emBucket s 1 wide key)) 16).seeWords (U.sliceBlk s 0x49) 0 (4 * c.emOvfSize s)

/-- A probe meets an uncorrectable word (R175): the first place of the bucket, or the overflow store
(DESIGN CHOICE, notes/assumptions/39.md). -/
def emProbePoison (c : Chip) (s : Nat) (wide : Bool) (key : Nat) : Option Nat :=
  let b := [0, 1].find? fun k => c.emGranules s != 0 && (List.range 16).any fun j =>
    c.poisoned (U.sliceBlk s 0x48) (c.emWord s (c.emBucket s k wide key) + j)
  match b with
  | some k => some (c.emBucket s k wide key)
  | none => if (c.grp (U.sliceBlk s 0x49)).poison.isEmpty then none else some 0x40000

/-- A probe of one key under an accord (R174): none when it is poisoned; else the place that it returns. Duplicates are reported, and a
learned entry behind a versioned one is deleted. -/
def emProbe (c : Chip) (s : Nat) (wide : Bool) (key accord : Nat) : Chip × Option (Option Nat) :=
  match c.emProbePoison s wide key with
  | some i =>
    (((c.cnt (c.sliceCnt s + C.em_poison_drop) 1).put (A.slice (c.emHome s)) R.EM_EVENT_poison 1).reportPoison [U.sliceBlk s 0x48, U.sliceBlk s 0x49] (U.sliceBlk s 0x48) K.emPoison 3 i, none)
  | none =>
    let m := c.emMatches s wide key accord
    match m with
    | [] => (c, some none)
    | i :: rest =>
      let e := c.emAt s i
      let c := c.when (rest.any fun j => (c.emAt s j).learned == e.learned && (c.emAt s j).result != e.result) fun c =>
        (c.cnt (c.sliceCnt s + C.em_duplicate) 1).report (U.sliceBlk s 0x48) K.emDuplicate 1
          ((rest.find? fun j => (c.emAt s j).learned == e.learned && (c.emAt s j).result != e.result).getD 0)
      let c := match (if e.learned then none else rest.find? fun j => (c.emAt s j).learned) with
        | some j => (c.emRemove s j).cnt (c.sliceCnt s + C.learn_shadowed) 1
        | none => c
      (c, some (some i))

/-- A probe with its chain (R176): none when poisoned; the first probe's place, and the result. -/
def emChain (c : Chip) (s : Nat) (wide : Bool) (key accord : Nat) : Chip × Option (Option Nat × Option Word) :=
  let c := (c.cnt (c.sliceCnt s + C.em_probes) 1).emSee s wide key
  let p := c.emProbe s wide key accord
  match p.2 with
  | none => (p.1, none)
  | some none => (p.1, some (none, none))
  | some (some i) =>
    let r := (c.emAt s i).result
    let c := p.1.cnt (p.1.sliceCnt s + C.em_hits) 1
    if nbits r 63 60 != 0xE then (c, some (some i, some (BitVec.ofNat 64 r)))
    else
      let c := (c.cnt (c.sliceCnt s + C.em_chain_probes) 1).cnt (c.sliceCnt s + C.em_probes) 1
      let key := nbits r 59 56 * 2 ^ 156 + nbits r 55 0 * 2 ^ 100
      let q := (c.emSee s false key).emProbe s false key accord
      match q.2 with
      | none => (q.1, none)
      | some none => (q.1, some (some i, none))
      | some (some j) =>
        let r' := (c.emAt s j).result
        let c := q.1.cnt (q.1.sliceCnt s + C.em_hits) 1
        if nbits r' 63 60 = 0xE then (c.cnt (c.sliceCnt s + C.em_chain_loop) 1, some (some i, none))
        else (c, some (some i, some (BitVec.ofNat 64 r')))

/-! ### Learning (R187, R188) -/

/-- Destination of what a frame teaches: result bits [59:40] of Table 8-10. -/
def learnDest (c : Chip) (f : Frame) : Nat :=
  match (c.extJudge f).2.1 with
  | some sub => 2 ^ 18 + f.home * 2 ^ 11 + sub
  | none => U.index (c.suiteUnit (U.port f.home)) * 2 ^ 11

/-- The source probe hit a versioned entry with another destination than the frame's (R187). -/
def learnConflict (c : Chip) (s : Nat) (f : Frame) (hit : Option Nat) : Bool :=
  hit.any fun i => !((c.emAt s i).learned) && nbits (c.emAt s i).result 59 40 != c.learnDest f

/-- The source probe missed, or hit a learned entry with another destination than the frame's (R187). -/
def learnWanted (c : Chip) (s : Nat) (f : Frame) (hit : Option Nat) : Bool :=
  match hit with
  | none => true
  | some i => (c.emAt s i).learned && nbits (c.emAt s i).result 59 40 != c.learnDest f

/-- The source probe of a frame found place `hit`: it may ask for a learn, which is off without granules (R169, R187)
(DESIGN CHOICE, notes/assumptions/40.md). -/
def learnAsk (c : Chip) (s id : Nat) (f : Frame) (key : Nat) (hit : Option Nat) : Chip :=
  let b := A.slice (c.emHome s)
  let bd := (c.emTab s).bd.look (nbits key 155 144)
  if !(c.on b R.LEARN_CTRL_enable) || f.injected || Wb.failReason f.wb != 0 || c.emGranules s == 0 then c
  else
    let c := c.when (c.learnConflict s f hit) fun c => c.cnt (c.sliceCnt s + C.learn_static_conflict) 1
    if nbits key 136 136 = 1 then c.cnt (c.sliceCnt s + C.learn_bad_sa) 1
    else if c.get b R.LEARN_PORT_port_mask / 2 ^ (f.home % 16) % 2 = 0 || !(bit bd 31) || !(bit bd 30) || !(c.learnWanted s f hit) then c
    else
      c.setTail id { c.tail id with
        slice := s
        learn := some { key, dest := c.learnDest f }
        good := if f.whole then some (!f.bad) else none }

/-- Keep the result of an exact-match probe, and do what a source probe does (DESIGN CHOICE, notes/assumptions/40.md). -/
def emKeep (c : Chip) (s id b : Nat) (place : Option Nat) (res : Option Word) : Chip :=
  let f := c.fr id
  let k := A.slice (c.emHome s)
  let c := match res with
    | some w => c.setFr id { f with hits := f.hits.set (1 + b) (some w) }
    | none => c
  if f.single b && c.get k R.LEARN_CTRL_sa_buffer = b && nbits (f.emKey b) 159 156 = c.get k R.LEARN_CTRL_bridge_kind then
    let c := match place with
      | some i => c.emTouch s i { c.emAt s i with state := putBits (c.emAt s i).state 2 2 1 }
      | none => c
    c.learnAsk s id f (f.emKey b) place
  else c

/-- The exact-match probes of a frame; `false` when one was poisoned and the frame dropped. -/
def emLookups (c : Chip) (s id accord : Nat) : Chip × Bool :=
  let f := c.fr id
  let probes : List (Nat × Bool × Nat) :=
    (if f.keyOn 6 then [(0, true, f.emKey 0 * 2 ^ 160 + f.emKey 1)]
     else ([0, 1].filter fun b => f.keyOn b).map fun b => (b, false, f.emKey b)) ++ (if f.keyOn 2 then [(2, false, f.emKey 2)] else [])
  probes.foldl (fun r p =>
    if !r.2 then r
    else
      let q := r.1.emChain s p.2.1 p.2.2 accord
      match q.2 with
      | none => (q.1.endFrame id, false)
      | some v => (q.1.emKeep s id p.1 v.1 v.2, true)) (c, true)

/-! ### LPM -/

/-- How a walk over lengths ends after the probes it was allowed. -/
inductive LpmEnd where
  | hit (result : Nat)
  | miss
  | more (lengths : List Nat)
  | poison (line : Nat)
deriving DecidableEq, Repr

/-- Probe lengths in order, at most `fuel` of them: the end, the probes made, and the losing entries of duplicates. -/
def lpmWalk (c : Chip) (h : Nat) (v6 : Bool) (ctx addr accord : Nat) : Nat → List Nat → LpmEnd × Nat × List Nat
  | _, [] => (.miss, 0, [])
  | 0, l => (.more l, 0, [])
  | fuel + 1, n :: l =>
    match c.lpmPoisoned h v6 n ctx addr with
    | some i => (.poison (i / 8), 1, [])
    | none =>
      match c.lpmMatches h v6 n ctx addr accord with
      | i :: dup => (.hit (c.lpmAt h i).result, 1, dup.take 1)
      | [] =>
        let r := c.lpmWalk h v6 ctx addr accord fuel l
        (r.1, r.2.1 + 1, r.2.2)

def lpmCtx (f : Frame) : Nat := nbits (f.keys.look 3).toNat 143 128
def lpmAddr (f : Frame) : Nat := nbits (f.keys.look 3).toNat 127 0
def lpmV6 (f : Frame) : Bool := Wb.get f.wb 5 26 26 == 1

/-- LPM_BUDGET.held counts the lookups held in every member's half (R206, spec/01_architecture.md R16). -/
def syncHeld (c : Chip) (h : Nat) : Chip :=
  c.put (A.half (c.lpmHome h)) R.LPM_BUDGET_held ((c.halfMates h).map fun m => (c.lpmTab m).held.length).sum

/-- The hit and miss counters, once both the walk and the short-prefix search are done. -/
def lpmCount (c : Chip) (s id : Nat) : Chip :=
  let f := c.fr id
  let h := c.halfCnt (s / 4)
  if (f.hits.look 4).isSome then c.cnt (h + C.lpm_hits) 1
  else if (f.hits.look 7).isSome then c.cnt (h + C.lpm_short_hits) 1 else c.cnt (h + C.lpm_misses) 1

/-- The LPM lookup of a frame is complete. -/
def lpmDone (f : Frame) : Bool := !f.lpmHeld && !(f.searches.any fun x => x.use == 2)

/-- Account for the probes of a walk over the lengths `l`: counted, correctable bytes corrected, duplicates reported. -/
def lpmProbed (c : Chip) (h : Nat) (f : Frame) (l : List Nat) (r : LpmEnd × Nat × List Nat) : Chip :=
  ((c.cnt (c.halfCnt h + C.lpm_probes) r.2.1).each (l.take r.2.1) fun c n => c.lpmSee h (lpmV6 f) n (lpmCtx f) (lpmAddr f)).each r.2.2
    fun c i => c.report (U.halfBlk h 0x10) K.lpmDuplicate 1 i

/-- Take what a walk over the lengths `l` found: `false` when the frame was dropped. -/
def lpmTake (c : Chip) (s id : Nat) (l : List Nat) (r : LpmEnd × Nat × List Nat) : Chip × Bool :=
  let h := s / 4
  let c := c.lpmProbed h (c.fr id) l r
  match r.1 with
  | .hit v => (c.updFr id fun f => { f with hits := f.hits.set 4 (some (BitVec.ofNat 64 v)), lpmHeld := false }, true)
  | .miss => (c.updFr id fun f => { f with lpmHeld := false }, true)
  | .more l =>
    let t := c.lpmTab h
    (((c.setLpm h { t with held := t.held ++ [{ slice := s, frame := id, lengths := l }] }).updFr id fun f => { f with lpmHeld := true }).syncHeld h, true)
  | .poison line =>
    (((c.cnt (c.halfCnt h + C.lpm_poison_drop) 1).put (A.half (c.lpmHome h)) R.LPM_EVENT_poison 1).reportPoison ((List.range 4).map fun k => U.sliceBlk (4 * h + k) 0x48) (U.halfBlk h 0x10) K.lpmPoison 3 line
      |>.endFrame id, false)

/-- Index of a frame's filter entry (R201). -/
def lpmFilterIndex (f : Frame) : Nat := if lpmV6 f then Chip.h6 (lpmAddr f) else nbits (lpmAddr f) 31 16

/-- Lengths and probe budget of a frame's LPM lookup; none when it makes no probe because its key is wrong (R197). -/
def lpmPlan (c : Chip) (h : Nat) (f : Frame) : Option (Bool × List Nat) :=
  let v6 := lpmV6 f
  let addr := lpmAddr f
  if !v6 && decide (2 ^ 32 ≤ addr) then none
  else
    let p := c.filterPoisoned h v6 (lpmFilterIndex f)
    let l := c.lpmLengths h v6 addr p
    let b := A.half (c.lpmHome h)
    some (p, if !v6 && c.on b R.LPM_CONFIG_v4_default && c.lenEnabled h false 0 then l ++ [0] else l)

/-- Probes that a lookup may issue as it arrives (R205, R206). -/
def lpmBudget (c : Chip) (h : Nat) : Nat :=
  let b := A.half (c.lpmHome h)
  if c.on b R.LPM_BUDGET_budget_en then c.get b R.LPM_BUDGET_max_probes else 200

/-- The LPM lookup of a frame as it arrives; `false` when the frame was dropped. -/
def lpmLookup (c : Chip) (s id accord : Nat) : Chip × Bool :=
  let h := s / 4
  let f := c.fr id
  let n := c.halfCnt h
  let c := c.cnt (n + C.lpm_lookups) 1
  match c.lpmPlan h f with
  | none => (c.cnt (n + C.lpm_key_err) 1, true)
  | some (p, l) =>
    let q := filterWords (lpmV6 f) (lpmFilterIndex f)
    let c := (c.seeWords (U.halfBlk h 0x10) q.1 q.2).when p fun c =>
      ((c.cnt (n + C.lpm_filter_poison) 1).put (A.half (c.lpmHome h)) R.LPM_EVENT_filter_poison 1).reportPoison [U.halfBlk h 0x10] (U.halfBlk h 0x10) K.lpmFilterPoison 2
        (lpmFilterIndex f)
    let w := c.lpmWalk h (lpmV6 f) (lpmCtx f) (lpmAddr f) accord (c.lpmBudget h) l
    let c := match w.1 with
      | .more _ => c.cnt (n + C.lpm_held) 1
      | _ => c
    c.lpmTake s id l w

/-- The lookup would have to be held while the hold queue of 512 is full (R206). -/
def lpmBlocked (c : Chip) (s : Nat) (f : Frame) (accord : Nat) : Bool :=
  let h := s / 4
  f.keyOn 3 && decide (512 ≤ (c.lpmTab h).held.length) &&
    match c.lpmPlan h f with
    | none => false
    | some (_, l) => match (c.lpmWalk h (lpmV6 f) (lpmCtx f) (lpmAddr f) accord (c.lpmBudget h) l).1 with
      | .more _ => true
      | _ => false

/-! ### TCAM searches -/

/-- The keys of a use: first and second, and whether narrow and wide tables take part (R212). -/
def tcamKeys (f : Frame) (use : Nat) : Key × Key × Bool × Bool :=
  match use with
  | 0 => (f.keys.look 4, f.keys.look 5, f.keyOn 4, f.keyOn 7)
  | 1 => (f.keys.look 5, 0, f.keyOn 5, f.keyOn 7)
  | _ => (BitVec.ofNat 320 ((f.keys.look 3).toNat % 2 ^ 144), 0, f.keyOn 3, false)

/-- Entries that a search matches, over every table of its use; a wide table compares TA with TB (Table 9-10). -/
def tcamFound (c : Chip) (s : Nat) (f : Frame) (use accord : Nat) (skip : List Nat) : List (Nat × TcamEntry) :=
  let k := tcamKeys f use
  (c.tcamTables s).flatMap fun t =>
    if t.use != use then []
    else if t.wide then (if k.2.2.2 then c.tcamHits s t (f.keys.look 4) (f.keys.look 5) accord skip else [])
    else if k.2.2.1 then c.tcamHits s t k.1 0 accord skip else []

/-- A frame makes the search of a use. -/
def tcamSearches (f : Frame) (use : Nat) : Bool := (tcamKeys f use).2.2.1 || (tcamKeys f use).2.2.2

/-- Key that each half of a winner is checked against (R218). -/
def tcamAgrees (c : Chip) (s : Nat) (f : Frame) (use i : Nat) : Bool :=
  let t := c.tcamTab s
  let e := t.copies.look i
  if (t.rows.look i).pair = 1 then e.agrees (f.keys.look 4) && (t.copies.look (i + 1)).agrees (f.keys.look 5) else e.agrees (tcamKeys f use).1

/-- Drop a search from the list of those outstanding. -/
def tcamForget (c : Chip) (id use : Nat) : Chip := c.updFr id fun f => { f with searches := f.searches.filter fun x => x.use != use }

/-- One search of a use (R217 to R219): a hit, a miss, a repeat to come, or the frame's end. -/
def tcamSearch1 (c : Chip) (s id : Nat) (x : TcamSearch) : Chip :=
  let f := c.fr id
  let b := A.slice (c.emHome s)
  let n := c.sliceCnt s
  let c := (c.cnt (n + (match x.use with
    | 0 => C.tcam_search_a
    | 1 => C.tcam_search_b
    | _ => C.tcam_search_short)) 1).tcamForget id x.use
  match tcamBest (c.tcamFound s f x.use (c.frameAccord f) x.excluded) with
  | none => c
  | some (i, e) =>
    let bank := U.sliceBlk s (0x50 + i / 5120)
    let c := c.seeWords bank (tcamWord i).2 (if e.pair = 1 then 24 else 12)
    let again (y : TcamSearch) (c : Chip) : Chip := c.updFr id fun f => { f with searches := f.searches ++ [y] }
    if c.tcamCopyPoisoned s i || (e.pair == 1 && c.tcamCopyPoisoned s (i + 1)) then
      let c := ((c.cnt (n + C.tcam_poison) 1).put b R.TCAM_EVENT_poison 1).reportPoison [bank] bank K.tcamPoison 3 i
      again x (c.setTcam s { c.tcamTab s with excluded := i :: (c.tcamTab s).excluded })
    else if c.tcamAgrees s f x.use i then
      (c.cnt (n + (match x.use with
        | 0 => C.tcam_hit_a
        | 1 => C.tcam_hit_b
        | _ => C.tcam_hit_short)) 1).updFr id fun f => { f with hits := f.hits.set (5 + x.use) (some ((c.tcamTab s).copies.look i).result) }
    else
      let c := ((c.cnt (n + C.tcam_false_hit) 1).put b R.TCAM_EVENT_false_hit 1).report bank K.tcamFalseHit 1 i
      let t := c.tcamTab s
      let rows := if e.pair = 1 then [i, i + 1] else [i]
      let c := c.setTcam s { t with repairs := t.repairs ++ rows.filter fun j => !(t.repairs.contains j) }
      if 3 ≤ x.falseHits then ((c.cnt (n + C.tcam_verify_drop) 1).put b R.TCAM_EVENT_verify_drop 1).endFrame id
      else again { x with excluded := i :: x.excluded, falseHits := x.falseHits + 1 } c

/-! ### The lookup of a frame -/

/-- Issue every lookup of a frame. -/
def lookupFrame (c : Chip) (s id : Nat) : Chip :=
  let f := c.fr id
  let accord := c.frameAccord f
  let e := c.emLookups s id accord
  if !e.2 then e.1
  else
    let l := if f.keyOn 3 then e.1.lpmLookup s id accord else (e.1, true)
    if !l.2 then l.1
    else
      let c := l.1.each ([0, 1, 2].filter (tcamSearches f)) fun c use => if (c.frames.look id).isSome then c.tcamSearch1 s id { use, excluded := [], falseHits := 0 } else c
      let c := c.updFr id fun f => { f with stage := .lookups }
      c.when (f.keyOn 3 && (c.frames.look id).isSome && lpmDone (c.fr id)) fun c => c.lpmCount s id

/-- A frame of slice `s` stands at a stage. -/
def frameAt (c : Chip) (s id : Nat) (st : Stage) : Bool := (c.frames.look id).any fun f => f.slice == s && f.stage == st

/-- No older frame of the same port and flow stands at one of these stages: frames of one flow that enter on one port keep their order
(spec/01_architecture.md R29) (DEDUCED, notes/assumptions/77.md). -/
def flowTurn (c : Chip) (id : Nat) (st : List Stage) : Bool :=
  let f := c.fr id
  !(c.frames.any fun p => decide (p.1 < id) && p.2.any fun g => g.home == f.home && Wb.hash g.wb == Wb.hash f.wb && st.contains g.stage)

/-- The TCAM banks of a use are out of reset. -/
def tcamUp (c : Chip) (s use : Nat) : Bool :=
  (c.tcamTables s).all fun t => t.use != use || (List.range 4).all fun b => t.banks / 2 ^ b % 2 == 0 || c.blockUp s (0x50 + b)

/-- The units that a frame's lookups need are out of reset: its lookup pipe, and the tables that its keys are for
(spec/01_architecture.md R23) (DESIGN CHOICE, notes/assumptions/26.md) (DESIGN CHOICE, notes/assumptions/80.md). -/
def lookupUp (c : Chip) (s id : Nat) : Bool :=
  let f := c.fr id
  c.blockUp s (0x40 + Config.lookupPipe id % 2) &&
    (([0, 1, 2, 6].all fun b => !(f.keyOn b)) || (c.blockUp s 0x48 && c.blockUp s 0x49)) &&
    (!(f.keyOn 3) || !(c.inReset (U.halfBlk (s / 4) 0x10))) && [0, 1, 2].all fun u => !(tcamSearches f u) || c.tcamUp s u

end Chip

/-! ### Meanings -/

/-- LOOKUP (R177): `upsets` are the care cells of array rows that changed since the model last saw them. -/
def execLookup (sl frame : Nat) (upsets : List (Nat × Key)) (s : State) : Host.Outcome State Fault Refusal :=
  s.run .core fun c =>
    if c.portersRun sl && c.frameAt sl frame .pipes && c.flowTurn frame [.pipes] && c.lookupUp sl frame then
      let c := c.each upsets fun c u => c.tcamUpset sl u.1 u.2
      let f := c.fr frame
      if c.lpmBlocked sl f (c.frameAccord f) then
        (c.cnt (c.halfCnt (sl / 4) + C.lpm_hold_full) 1).put (A.half (c.lpmHome (sl / 4))) R.LPM_EVENT_hold_full 1
      else c.lookupFrame sl frame
    else c

/-- TCAM_REPEAT_SEARCH (R218): the frame's first outstanding search. -/
def execTcamRepeatSearch (sl frame : Nat) (s : State) : Host.Outcome State Fault Refusal :=
  s.run .core fun c =>
    if c.portersRun sl && c.frameAt sl frame .lookups then
      match (c.fr frame).searches with
      | [] => c
      | x :: _ =>
        if c.tcamUp sl x.use then
          let c := c.tcamSearch1 sl frame x
          c.when ((c.frames.look frame).isSome && x.use == 2 && Chip.lpmDone (c.fr frame)) fun c => c.lpmCount sl frame
        else c
    else c

/-- LPM_HELD_PROBE (R206): the lookup held first issues its next probe (DESIGN CHOICE, notes/assumptions/41.md). -/
def execLpmHeldProbe (h : Nat) (s : State) : Host.Outcome State Fault Refusal :=
  s.run .core fun c =>
    let t := c.lpmTab h
    match t.held with
    | [] => c
    | x :: rest =>
      if h < 2 && c.alive (U.half h) && !(c.inReset (U.halfBlk h 0x10)) then
        let f := c.fr x.frame
        let c := c.setLpm h { t with held := rest }
        match c.lpmWalk h (Chip.lpmV6 f) (Chip.lpmCtx f) (Chip.lpmAddr f) (c.frameAccord f) 1 x.lengths with
        | (.more l, n, d) =>
          let c := c.lpmProbed h f x.lengths (.more l, n, d)
          c.setLpm h { c.lpmTab h with held := { x with lengths := l } :: rest }
        | r =>
          let q := (c.syncHeld h).lpmTake x.slice x.frame x.lengths r
          q.1.when (q.2 && Chip.lpmDone (q.1.fr x.frame)) fun c => c.lpmCount x.slice x.frame
      else c

/-- LEARN_REQUEST (R188): a request whose frame's FCS is known is filtered, limited and queued (DESIGN CHOICE, notes/assumptions/40.md). -/
def execLearnRequest (sl frame : Nat) (s : State) : Host.Outcome State Fault Refusal :=
  s.run .core fun c =>
    let t := c.tail frame
    match t.learn, t.good with
    | some r, some good =>
      if t.slice != sl || !(c.portersRun sl) then c
      else
        let c := c.setTail frame {}
        let n := c.sliceCnt sl
        let home := c.emHome sl
        let b := A.slice home
        let e := c.emTab home
        let per := c.get b R.LEARN_LIMIT_per_ms
        let now := c.now / 1000000
        let used := if e.window = now then e.accepted else 0
        if !good then c.cnt (n + C.learn_bad_fcs) 1
        else if e.recent.contains r.key then c.cnt (n + C.learn_dup) 1
        else if per != 0 && decide (per ≤ used) then (c.cnt (n + C.learn_rate_drop) 1).put b R.EM_EVENT_learn_rate 1
        else if 64 ≤ e.queue.length then c.cnt (n + C.learn_queue_drop) 1
        else
          let recent := (if 64 ≤ e.recent.length then e.recent.drop 1 else e.recent) ++ [r.key]
          c.setEm home { e with queue := e.queue ++ [r], recent, window := now, accepted := used + 1 }
    | _, _ => c

end Sys2Proof.Machine
end

