-- ==== Sys2Proof/Machine/Resolve.lean ====
section
/-! DEFINITION. The action resolver (spec/10_actions_and_editing.md R222 to R232; spec/08_exact_match.md R192; spec/04_ports_and_lanes.md
R101, R103): results, forwarding, policing, mirroring, and the verdict in waybill words 6 and 7. -/

namespace Sys2Proof.Machine

open Sys2Proof

/-- A lookup result as a step of R224 reads it: the source code, the action word (or a bridge result's template), and the rest. -/
structure Result where
  code : Nat
  kind : Nat
  word : Nat
  /-- The whole 64-bit result. -/
  full : Nat
  bad : Bool
deriving DecidableEq, Repr

namespace Result

def index (r : Result) : Nat := nbits r.word 35 20
/-- The policer and the pre-colour, where the result sets them. -/
def meter (r : Result) : Option (Nat × Nat) := if nbits r.word 6 6 = 1 then some (nbits r.word 19 7, nbits r.word 1 0) else none
def cls (r : Result) : Option Nat := if nbits r.word 5 5 = 1 then some (nbits r.word 4 2) else none
/-- The mirror session of a TCAM result (Table 10-3). -/
def mirror (r : Result) : Option Nat := if nbits r.full 63 63 = 1 then some (nbits r.full 62 59) else none

/-- An action word's kind is reserved, or names what only bits [63:60] of an exact-match result can (R223). -/
def badKind (k : Nat) : Bool := k == 1 || decide (8 ≤ k)

/-- A result of the exact-match table: a bridge destination, or an action word (Table 8-10, R222). -/
def ofEm (code w : Nat) : Result :=
  if nbits w 63 60 = 1 then { code, kind := 1, word := nbits w 19 0, full := w, bad := decide (2 ≤ nbits w 59 58) }
  else { code, kind := nbits w 39 36, word := nbits w 39 0, full := w, bad := badKind (nbits w 39 36) }

/-- A result of the LPM table or a TCAM table. -/
def ofWord (code w : Nat) : Result := { code, kind := nbits w 39 36, word := nbits w 39 0, full := w, bad := badKind (nbits w 39 36) }

end Result

/-- What the resolver decides on the way to a verdict. -/
inductive Way where
  /-- A unicast port, subscriber and script, the next-hop's class, and whether it forbids cut-through. -/
  | unicast (port sub script : Nat) (cls : Option Nat) (ctOff : Bool)
  | multicast (group : Nat) (suppress : Bool)
  /-- A punt to a ring; source and reason of Table 20-8; the class of the next-hop record that punts (R224 step 3). -/
  | punt (ring source reason : Nat) (cls : Option Nat)
  /-- A drop with its reason of Table 10-7, and the report of kind, severity and address that goes with it. -/
  | drop (reason : Nat) (note : Option (Nat × Nat × Nat))
deriving DecidableEq, Repr

def Way.isDrop : Way → Bool
  | .drop .. => true
  | _ => false

namespace Chip

/-! ### Sources (Table 10-5) -/

/-- The frame makes a destination probe (R192). -/
def bridgeProbe (c : Chip) (f : Frame) : Bool :=
  let b := A.slice (c.emHome f.slice)
  let d := c.get b R.LEARN_CTRL_da_buffer
  decide (d < 3) && f.single d && nbits (f.emKey d) 159 156 == c.get b R.LEARN_CTRL_bridge_kind

/-- The result of a source, where it hit. -/
def sourceHit (c : Chip) (f : Frame) (code : Nat) : Option Result :=
  match code with
  | 1 | 2 | 3 => (f.hits.look code).map fun w => Result.ofEm code w.toNat
  | 4 => ((f.hits.look 4).orElse fun _ => f.hits.look 7).map fun w => Result.ofWord 4 w.toNat
  | 5 | 6 => (f.hits.look code).map fun w => Result.ofWord code w.toNat
  | 7 => if c.bridgeProbe f then
      (f.hits.look (1 + c.get (A.slice (c.emHome f.slice)) R.LEARN_CTRL_da_buffer)).map fun w => Result.ofEm 7 w.toNat
    else none
  | _ => none

def profile (c : Chip) (f : Frame) : Nat := A.slice (c.emHome f.slice) + 4 * (Wb.classTag f.wb / 256)

/-! ### Ways -/

def badWay (code : Nat) : Way := .drop 5 (some (K.actBadResult, 1, code))

/-- An egress port that is absent, or a port-suite member other than the first (R225). -/
def noPort (c : Chip) (p : Nat) : Bool := !(c.present (U.port p)) || !(c.firstOf (U.port p))

/-- The next-hop record of an index (R225, Table 10-9) (DEDUCED, notes/assumptions/42.md). -/
def nextHopWay (c : Chip) (f : Frame) (i : Nat) : Way :=
  if c.objPoison f.slice .nextHop i 0 then .drop 7 (some (K.objectPoison, 3, i))
  else
    let w := (c.obj f.slice).nextHops.look i
    if !(bit w 63) then .drop 6 (some (K.nexthopInvalid, 1, i))
    else if bits w 62 61 = 3 then .drop 2 none
    else if bits w 62 61 = 2 then .punt (bits w 23 12) 0 0 (if bit w 28 then some (bits w 27 25) else none)
    else if c.noPort (bits w 60 54) then .drop 6 (some (K.nexthopInvalid, 1, i))
    else .unicast (c.suiteMember (bits w 60 54) (Wb.hash f.wb)) (bits w 53 43) (bits w 42 29)
      (if bit w 28 then some (bits w 27 25) else none) (bit w 24)

/-- The next-hop record that the flow hash takes of a group of size `n` (R225). -/
def groupMember (c : Chip) (f : Frame) (g n : Nat) : Nat :=
  let m := (Wb.hash f.wb / 65536 * n) / 65536
  bits ((c.obj f.slice).groupPart.look (4 * g + m / 16)) (16 * (m % 16) + 15) (16 * (m % 16))

/-- A next-hop group takes a member by the flow hash (R225) (DEDUCED, notes/assumptions/42.md). -/
def groupWay (c : Chip) (f : Frame) (g : Nat) : Way :=
  if c.groupPoison f.slice g then .drop 7 (some (K.objectPoison, 3, g))
  else
    let n := (c.obj f.slice).groupSize.look g
    if n = 0 then .drop 6 none else c.nextHopWay f (c.groupMember f g n)

/-- A bridge result (Table 8-10) (DEDUCED, notes/assumptions/42.md). -/
def bridgeWay (c : Chip) (f : Frame) (r : Result) : Way :=
  let p := nbits r.full 57 51
  if c.noPort p then .drop 6 (some (K.nexthopInvalid, 1, 0))
  else .unicast (c.suiteMember p (Wb.hash f.wb)) (nbits r.full 50 40) 0 none false

/-- How a forwarding result forwards. -/
def resultWay (c : Chip) (f : Frame) (r : Result) : Way :=
  match r.kind with
  | 1 => c.bridgeWay f r
  | 2 => c.nextHopWay f r.index
  | 3 => c.groupWay f (r.index / 16)
  | 4 => .multicast r.index false
  | 5 => .drop 1 none
  | _ => .punt (r.index / 16) 0 0 none

/-- The objects that a forwarding result reads: correctable bytes are corrected for the resolver (spec/17_memory_protection.md R375). -/
def seeResult (c : Chip) (f : Frame) (r : Result) : Chip :=
  let s := f.slice
  match r.kind with
  | 2 => c.objSee s .nextHop r.index 0
  | 3 =>
    let g := r.index / 16
    let n := (c.obj s).groupSize.look g
    (c.seeWords (U.sliceBlk s 0x58) (65536 + 17 * g) 17).when (!(c.groupPoison s g) && n != 0) fun c => c.objSee s .nextHop (c.groupMember f g n) 0
  | _ => c

/-- What R192 does with an unknown destination of a bridge domain: the counter, and the way (DEDUCED, notes/assumptions/42.md). -/
def unknownWay (c : Chip) (f : Frame) (domain : Nat) : Nat × Way :=
  let e := (c.emTab f.slice).bd.look domain
  if !(bit e 31) || bits e 29 28 = 1 || bits e 29 28 = 3 then (C.unknown_drop, .drop 8 none)
  else if bits e 29 28 = 0 then (C.flood_unknown, .multicast (bits e 15 0) true)
  else (0, .punt (bits f.dflt 11 0) 2 0 none)

/-- A source gives a forwarding result (R224 step 2): its result, or what R192 gives on a miss. -/
def forwardOf (c : Chip) (f : Frame) (code : Nat) : Option (Option Result × Nat × Way) :=
  match c.sourceHit f code with
  | some r =>
    if r.bad then some (some r, 0, badWay r.code)
    else if 1 ≤ r.kind && r.kind ≤ 6 then some (some r, 0, c.resultWay f r) else none
  | none =>
    if code = 7 && c.bridgeProbe f then
      let u := c.unknownWay f (nbits (f.emKey (c.get (A.slice (c.emHome f.slice)) R.LEARN_CTRL_da_buffer)) 155 144)
      some (none, u.1, u.2)
    else none

/-- What the resolver reads of a forwarding source's result (spec/17_memory_protection.md R375). -/
def seeWay (c : Chip) (f : Frame) (r : Option Result) : Chip :=
  match r with
  | some r => if r.bad then c else c.seeResult f r
  | none => c

/-- The default action (Table 4-21); `forward to default_vlan` treats the frame as unknown in the bridge domain of that number
(DEDUCED, notes/assumptions/42.md). -/
def defaultWay (c : Chip) (f : Frame) (reason : Nat) : Nat × Way :=
  match bits f.dflt 31 30 with
  | 1 => (0, .punt (bits f.dflt 11 0) 1 reason none)
  | 2 => c.unknownWay f (bits f.dflt 27 16)
  | _ => (0, .drop 0 none)

/-! ### Policers -/

/-- What a policer did: the colour and the debit, or a poisoned record. -/
inductive Policed where
  | colour (n : Nat) (drop : Option Nat) (debit : Debit)
  | poison
deriving DecidableEq, Repr

/-- Colour a frame by meter `i` (R231) (DESIGN CHOICE, notes/assumptions/44.md). -/
def police (c : Chip) (f : Frame) (i pre : Nat) : Chip × Policed :=
  let c := c.objSee f.slice .meter i 0
  if c.objPoison f.slice .meter i 0 then (c, .poison)
  else
    let m := c.meter f.slice i
    let e : Int := (f.bytes.length : Int) + c.ingOverhead f.home
    let pre := if m.aware then pre else 0
    let col := if pre = 3 || !(m.tp.has e) then 2 else if !(m.tc.has e) || pre == 2 then 1 else 0
    let m' := { m with tp := if col ≤ 1 then m.tp.debit e else m.tp, tc := if col = 0 then m.tc.debit e else m.tc }
    let drop := if col = 2 && !m.redForward then some 3 else if col = 1 && m.yellowDrop then some 4 else none
    ((c.setMeter f.slice i m').cnt (c.sliceCnt f.slice + (if col = 0 then C.green else if col = 1 then C.yellow else C.red)) 1,
      .colour col drop { slice := f.slice, meter := i, estimate := e.toNat, committed := col == 0, peak := decide (col ≤ 1) })

/-! ### Mirror sessions (Table 10-11) -/

def mirrorRec (c : Chip) (s i : Nat) : Word := (c.obj s).mirrors.look i

/-- A session takes a frame: `true` when this one is the one in 2^k that is copied (DESIGN CHOICE, notes/assumptions/43.md). -/
def mirrorTake (c : Chip) (s i : Nat) : Chip × Bool :=
  let w := c.mirrorRec s i
  let o := c.obj s
  let n := o.mirrored.look i
  (c.setObj s { o with mirrored := o.mirrored.set i ((n + 1) % 2 ^ bits w 25 22) }, n == 0)

/-! ### What carries a frame on -/

/-- A stream of a frame begins (spec/11_mollux_fabric.md R246). -/
def openStream (c : Chip) (frame : Nat) (wb : BitVec 512) (mirror mcast : Bool) (mask trunc : Nat) : Chip :=
  let n := c.newId
  n.2.setStrm n.1 { frame, slice := (c.fr frame).slice, wb, mirror, mcast, mask, trunc, plane := c.pinPlane (Wb.hash wb % 256), left := mask, openAt := mask }

/-- Bytes of punted frames that a slice holds (spec/20_host_interface.md R438) (DESIGN CHOICE, notes/assumptions/65.md). -/
def puntBacklog (c : Chip) (s : Nat) : Nat := ((c.host.punts.look s).map fun p => (c.fr p.frame).bytes.length).sum

/-- The punt-event record (spec/20_host_interface.md Table 20-11). -/
def puntEvent (f : Frame) (ring cause : Nat) : Entry :=
  let w (i hi lo : Nat) : Nat := Wb.get f.wb i hi lo
  BitVec.ofNat 256 (2 ^ 28 + cause * 2 ^ 24 + w 0 31 24 * 2 ^ 16 + ring % 4096 + f.bytes.length % 2 ^ 14 * 2 ^ 32 + Wb.hash f.wb % 2 ^ 32 * 2 ^ 64 +
    w 1 31 0 * 2 ^ 96 + w 2 31 16 * 2 ^ 128)

/-- A punt is dropped: counted in the ring, posted to the slice's punt-event FIFO, and its share of the frame ends (R438)
(DESIGN CHOICE, notes/assumptions/65.md). -/
def dropPunt (c : Chip) (frame ring cause : Nat) : Chip :=
  let f := c.fr frame
  let c := c.cnt (A.ring ring + C.ring_drops) 1
  let c := if f.slice < 8 then (c.pushFifo (16 + f.slice) (puntEvent f ring cause)).1 else c
  (c.unstamp f.slot).unhold frame

/-- A punt of a frame waits for the DMA engine, unless the slice's backlog of 64 KiB is full (R438). -/
def openPunt (c : Chip) (frame ring source reason trunc : Nat) : Chip :=
  let s := (c.fr frame).slice
  if s < 8 && decide (65536 < c.puntBacklog s + (c.fr frame).bytes.length) then c.dropPunt frame ring 6
  else { c with host := { c.host with punts := c.host.punts.upd s fun l => l ++ [{ frame, ring, source, reason, trunc }] } }

/-- The verdict of a way with its modifiers (Table 10-6). -/
def verdictWords (wb : BitVec 512) (w : Way) (colour cls : Nat) (ctOk : Bool) (mirror : Option Nat) : BitVec 512 :=
  let sup := match w with
    | .multicast _ s => b2n s
    | _ => 0
  let act := match w with
    | .unicast .. => 0
    | .multicast .. => 1
    | .drop .. => 2
    | .punt .. => 3
  let low := match w with
    | .multicast g _ => g
    | .drop r _ => r
    | _ => 0
  let w7 := match w with
    | .unicast p s k _ _ => p * 2 ^ 25 + s * 2 ^ 14 + k
    | .punt r _ _ _ => r
    | _ => 0
  let w6 := act * 2 ^ 29 + sup * 2 ^ 28 + colour * 2 ^ 26 + b2n ctOk * 2 ^ 25 + cls * 2 ^ 22 + b2n mirror.isSome * 2 ^ 21 +
    mirror.getD 0 * 2 ^ 17 + low
  Wb.put (Wb.put wb 6 31 0 w6) 7 31 0 w7

/-- The mirror copy's waybill: a unicast verdict to the collector (Table 10-11) (DESIGN CHOICE, notes/assumptions/43.md). -/
def mirrorWords (c : Chip) (wb : BitVec 512) (w : Word) : BitVec 512 :=
  let p := c.suiteMember (bits w 61 55) (Wb.hash wb)
  verdictWords wb (.unicast p (bits w 54 44) (bits w 43 30) none false) (Wb.colour wb) (bits w 28 26) (Wb.ctOk wb) none

/-- Counter of a drop reason (Table 10-7); reason 8 is counted where R192 says. -/
def dropCounter (reason : Nat) : Nat :=
  match reason with
  | 1 => C.drop_acl
  | 2 => C.drop_null
  | 3 => C.drop_red
  | 4 => C.drop_yellow
  | 5 => C.bad_result
  | 6 => C.nh_invalid
  | 7 => C.object_poison_drop
  | _ => 0

/-- Everything R224 decides before the verdict is written. -/
structure Judged where
  way : Way
  colour : Nat := 0
  cls : Nat := 0
  ctOk : Bool := false
  /-- A session whose copy is made if the session is valid and its turn has come; of a frame that the verdict drops, only where its
  mirror_dropped says so, or where the default action is to mirror and drop. -/
  mirror : Option Nat := none
  always : Bool := false
  debit : Option Debit := none
deriving DecidableEq, Repr

/-- The slices of a mask that the profile has (spec/00_scope.md R1). -/
def presentSlices (c : Chip) (mask : Nat) : Nat := ((List.range 8).map fun s => if mask / 2 ^ s % 2 = 1 && c.sliceEnabled s then 2 ^ s else 0).sum

/-- A multicast verdict's group needs a head entry that holds and a slice_mask (spec/11_mollux_fabric.md R253): the mask, of which slices
that the profile lacks take no cell, or the drop (DESIGN CHOICE, notes/assumptions/45.md). -/
def groupMask (c : Chip) (f : Frame) (g : Nat) : Nat ⊕ Way :=
  let u := U.sliceBlk f.slice 0x58
  match [2 * g, 2 * g + 1].find? fun i => c.poisoned u (headWord i) with
  | some i => .inr (.drop 7 (some (K.mcPoison, 3, i)))
  | none =>
    match c.headFor f.slice g (c.frameAccord f) with
    | none => .inr (.drop 6 none)
    | some (_, h) => if c.presentSlices (bits h 30 23) = 0 then .inr (.drop 6 none) else .inl (c.presentSlices (bits h 30 23))

/-- A session copies frames that the verdict drops (Table 10-11) (DESIGN CHOICE, notes/assumptions/43.md). -/
def mirrorDropped (c : Chip) (s : Nat) (i : Nat) : Bool := bit (c.mirrorRec s i) 18

/-- The slices a verdict's frame goes to, and the verdict once its group's head has been read (spec/11_mollux_fabric.md R253). -/
def verdictWay (c : Chip) (f : Frame) (w : Way) : Nat × Way :=
  match w with
  | .multicast g _ => match c.groupMask f g with
    | .inl m => (m, w)
    | .inr d => (0, d)
  | .unicast p _ _ _ _ => (2 ^ (p / 16), w)
  | _ => (0, w)

/-- The words that a verdict's group and mirror session read: correctable bytes are corrected (spec/17_memory_protection.md R375). -/
def seeVerdict (c : Chip) (s : Nat) (w : Way) (mirror : Option Nat) : Chip :=
  let c := match w with
    | .multicast g _ => c.seeWords (U.sliceBlk s 0x58) (headWord (2 * g)) 2
    | _ => c
  match mirror with
  | some i => c.objSee s .mirror i 0
  | none => c


/-- Send the report of a drop: of an uncorrectable error as its group's (R228), else as it is. -/
def dropReport (c : Chip) (s : Nat) (x : Nat × Nat × Nat) : Chip :=
  if x.2.1 = 3 then c.reportPoison [U.sliceBlk s 0x58, U.sliceBlk s 0x68] (U.sliceBlk s 0x58) x.1 x.2.1 x.2.2
  else c.report (U.sliceBlk s 0x58) x.1 x.2.1 x.2.2

/-- Write the verdict, count it, and start what carries the frame on; a frame that nothing carries ends
(DESIGN CHOICE, notes/assumptions/18.md; DESIGN CHOICE, notes/assumptions/43.md). -/
def giveVerdict (c : Chip) (s id : Nat) (j : Judged) : Chip :=
  let n := c.sliceCnt s
  let c := (c.cnt (n + C.verdicts) 1).seeVerdict s j.way j.mirror
  let f := c.fr id
  let v := c.verdictWay f j.way
  let poison := j.mirror.any fun i => c.objPoison s .mirror i 0
  let bad : Nat × Nat × Nat := (K.objectPoison, 3, j.mirror.getD 0)
  let w := if poison && !v.2.isDrop then .drop 7 (some bad) else v.2
  let c := c.when (poison && v.2.isDrop) fun c => c.dropReport s bad
  let session := if poison then none else j.mirror.filter fun i =>
    bit (c.mirrorRec s i) 63 && (!(w.isDrop) || j.always || c.mirrorDropped s i)
  let t := match session with
    | some i => c.mirrorTake s i
    | none => (c, false)
  let r := c.mirrorRec s (session.getD 0)
  let copyTo := t.2 && (bit r 62 || c.present (U.port (bits r 61 55)))
  let wb := verdictWords f.wb w j.colour j.cls j.ctOk (if copyTo then session else none)
  let c := t.1.setFr id { f with wb, stage := .judged }
  let c := match w with
    | .drop r note => (c.when (dropCounter r != 0) fun c => c.cnt (n + dropCounter r) 1).each note.toList fun c x => c.dropReport s x
    | .unicast .. => c.cnt (n + C.unicast) 1
    | .multicast .. => c.cnt (n + C.multicast) 1
    | .punt .. => c.cnt (n + C.punts) 1
  -- what carries the frame on
  let main := b2n (!(w.isDrop))
  let c := match j.debit with
    | some d => if f.whole then c else c.setTail id { c.tail id with slice := s, debit := some d }
    | none => c
  if main + b2n copyTo = 0 then c.endFrame id
  else
    let c := (c.stampCopies f.slot (main + b2n copyTo - 1)).updFr id fun f => { f with holders := main + b2n copyTo }
    let c := match w with
      | .unicast .. => c.openStream id wb false false v.1 0
      | .multicast .. => c.openStream id wb false true v.1 0
      | .punt ring source reason _ => c.openPunt id ring source reason 0
      | .drop .. => c
    let c := if copyTo then
        let c := c.cnt (n + C.mirror_copies) 1
        if bit r 62 then c.openPunt id (bits r 17 6) 3 0 (bits r 21 19)
        else
          let mw := c.mirrorWords wb r
          c.openStream id mw true false (2 ^ (Wb.port mw / 16)) (bits r 21 19)
      else c
    c.unstage id

/-- The first of a list of results that sets something. -/
def firstSet {α : Type} (l : List (Option Result)) (g : Result → Option α) : Option α :=
  (l.filterMap id).findSome? g

/-- The mirror session among sources: TCAM results only, TA before TB (R224 step 3) (DESIGN CHOICE, notes/assumptions/43.md). -/
def mirrorOf (l : List (Option Result)) : Option Nat :=
  let t := (l.filterMap id).filter fun r => r.code == 5 || r.code == 6
  ((t.filter fun r => r.code == 5) ++ t.filter fun r => r.code == 6).findSome? Result.mirror

/-- Cut-through is allowed by profile, next-hop and TCAM results (Table 10-6). -/
def ctAllowed (c : Chip) (f : Frame) (w : Way) : Bool :=
  !(c.on (c.profile f) R.RES_PROFILE_ct_off) &&
  (match w with
    | .unicast _ _ _ _ off => !off
    | _ => true) &&
  ([5, 6].all fun k => match f.hits.look k with
    | some w => !(bit w 58)
    | none => true)


/-- A default action, counted by the frame's port under its reason (R103) (DEDUCED, notes/assumptions/42.md). -/
def defaultCount (c : Chip) (f : Frame) (reason : Nat) : Chip := c.cnt (c.portCnt f.home + C.default_action + 8 * reason) 1

/-- Steps 3 and 4 of R224 for a frame that goes on: class, meter, mirror, and the policer. -/
def finishWay (c : Chip) (f : Frame) (w : Way) (srcs : List (Option Result)) (mirror : Option Nat) : Chip × Judged :=
  match w with
  | .drop .. => (c, { way := w, mirror, always := true })
  | _ =>
    let nh := match w with
      | .unicast _ _ _ k _ => k
      | .punt _ _ _ k => k
      | _ => none
    let cls := ((firstSet srcs Result.cls).orElse fun _ => nh).getD (c.get (c.profile f) R.RES_PROFILE_default_class)
    let ctOk := c.ctAllowed f w
    let mir := mirror.orElse fun _ => mirrorOf srcs
    match firstSet srcs Result.meter with
    | none => (c, { way := w, cls, ctOk, mirror := mir })
    | some (i, pre) =>
      let p := c.police f i pre
      match p.2 with
      | .poison => (p.1, { way := .drop 7 (some (K.objectPoison, 3, i)), cls, ctOk, mirror := mir })
      | .colour n (some r) d => (p.1, { way := .drop r none, colour := n, cls, ctOk, mirror := mir, debit := some d })
      | .colour n none d => (p.1, { way := w, colour := n, cls, ctOk, mirror := mir, debit := some d })

/-- Resolve a frame that no earlier default action took (R224) (DESIGN CHOICE, notes/assumptions/43.md). -/
def resolve (c : Chip) (f : Frame) : Chip × Judged :=
  let b := c.profile f
  let acl := c.sourceHit f (c.get b R.RES_PROFILE_acl)
  if acl.any Result.bad then (c, { way := badWay ((acl.map Result.code).getD 0) })
  else
    let k := (acl.map Result.kind).getD 0
    let qos := c.sourceHit f (c.get b R.RES_PROFILE_qos)
    if k = 5 then
      (c, { way := .drop 1 none, mirror := mirrorOf [acl, qos.filter fun r => !r.bad] })
    else
      let badQos := qos.any Result.bad
      let go (c : Chip) (w : Way) (r : Option Result) (mir : Option Nat) : Chip × Judged :=
        match w with
        | .drop .. => (c, { way := w, mirror := mir, always := true })
        | _ => if badQos then (c, { way := badWay ((qos.map Result.code).getD 0) }) else c.finishWay f w [acl, qos, r] mir
      if k = 2 || k = 3 || k = 4 || k = 6 then go (c.seeWay f acl) ((acl.map (c.resultWay f)).getD (.drop 1 none)) acl none
      else
        match (c.forwardOf f (c.get b R.RES_PROFILE_fwd_first)).orElse fun _ => c.forwardOf f (c.get b R.RES_PROFILE_fwd_second) with
        | some (r, n, w) => go ((c.seeWay f r).when (n != 0) fun c => c.cnt (c.sliceCnt f.slice + n) 1) w r none
        | none =>
          let d := c.defaultWay f 0
          let mir := if bits f.dflt 31 30 = 3 then some (bits f.dflt 15 12) else none
          go ((c.defaultCount f 0).when (d.1 != 0) fun c => c.cnt (c.sliceCnt f.slice + d.1) 1) d.2 none mir

/-- The default action of a frame that a parse failure or R101 took, with its reason (R103) (DEDUCED, notes/assumptions/42.md). -/
def resolveDefault (c : Chip) (f : Frame) (reason : Nat) : Chip × Judged :=
  let d := c.defaultWay f reason
  let c := (c.defaultCount f reason).when (d.1 != 0) fun c => c.cnt (c.sliceCnt f.slice + d.1) 1
  (c, { way := d.2, cls := c.get (c.profile f) R.RES_PROFILE_default_class, ctOk := c.ctAllowed f d.2, always := true
        mirror := if bits f.dflt 31 30 = 3 then some (bits f.dflt 15 12) else none })

/-- The resolver forms a frame's verdict. -/
def judgeFrame (c : Chip) (s id : Nat) : Chip :=
  let x := c.extJudge (c.fr id)
  let c := c.updFr id fun f => { f with extSub := x.2.1, ecid := x.2.2 }
  let f := c.fr id
  let reason := if Wb.failReason f.wb != 0 then Wb.failReason f.wb else x.1
  let r := if reason = 0 then c.resolve f else c.resolveDefault f reason
  r.1.giveVerdict s id r.2

end Chip

/-- ACTION_RESOLUTION (R224): a frame whose lookups are all complete gets its verdict, frames of one flow of a port in their order
(spec/01_architecture.md R29), while the resolver and the policers are out of reset (DESIGN CHOICE, notes/assumptions/26.md). -/
def execActionResolution (sl frame : Nat) (s : State) : Host.Outcome State Fault Refusal :=
  s.run .core fun c =>
    if c.portersRun sl && c.frameAt sl frame .lookups && !(c.fr frame).lpmHeld && (c.fr frame).searches.isEmpty &&
        c.flowTurn frame [.pipes, .lookups] && c.blockUp sl 0x58 && c.blockUp sl 0x68 then c.judgeFrame sl frame
    else c

end Sys2Proof.Machine
end

