-- ==== Sys2Proof/Machine/Settle.lean ====
section
/-! DEFINITION. What touches every versioned table or every memory group: the end of an accord's discard and the settler
(spec/07_accords.md R164, R166), and the end of a fill (spec/17_memory_protection.md R373). -/

namespace Sys2Proof.Machine

open Sys2Proof

namespace Chip

/-! ### Validity fields of an entry, wherever it lies -/

def emValid (e : EmEntry) (v : Validity) : EmEntry :=
  { e with body := putBits (putBits e.body 31 16 v.vfrom) 15 0 v.vuntil, state := putBits e.state 7 7 (b2n v.valid) }

def lpmValid (e : LpmSlot) (v : Validity) : LpmSlot := { e with state := putBits e.state 7 7 (b2n v.valid) }

/-- A slot's validity numbers (Table 9-1; Table 9-2 for the second half). -/
def lpmNumbers (e : LpmSlot) (v : Validity) : LpmSlot := { e with data := putBits (putBits e.data 31 16 v.vfrom) 15 0 v.vuntil }

def tcamValid (e : TcamEntry) (v : Validity) : TcamEntry :=
  { e with vfrom := v.vfrom, vuntil := v.vuntil, state := putBits e.state 7 7 (b2n v.valid) }

def vtabValid (w : Word) (v : Validity) : Word := putBits (putBits (putBits w 63 48 v.vfrom) 47 32 v.vuntil) 31 31 (b2n v.valid)

/-- The validity fields at a place. -/
def placeValidity (c : Chip) (p : SettlePlace) : Validity :=
  match p with
  | .em s i => (c.emAt s i).validity
  | .tcam s b i => ((c.tcamTab s).copies.look (tcamPhys b i)).validity
  | .lpm h i => (c.lpmAt h i).validity
  | .head s i => vValidity (c.vGet .head s i)
  | .ecid s i => vValidity (c.vGet .ecid s i)
  | .subscriber s i => vValidity (c.vGet .sub s i)

/-- Write the validity fields at a place, both halves of a pair at once. -/
def setValidity (c : Chip) (p : SettlePlace) (v : Validity) : Chip :=
  match p with
  | .em s i => c.emStoreAll s fun c m => (c.emWhole m i).map fun j => (j, emValid (c.emAt m j) v)
  | .tcam s b i =>
    let k := tcamPhys b i
    let e := (c.tcamTab s).copies.look k
    c.tcamAmend s (if e.pair = 1 then [k, k + 1] else if e.pair = 2 then [k, k - 1] else [k]) (tcamValid · v)
  | .lpm h i =>
    let first := if (c.lpmSlotAt h i).second then i - 1 else i
    let a := c.lpmSlotAt h first
    if a.v6 then c.lpmWrite h [(first, lpmValid a v), (first + 1, lpmNumbers (lpmValid (c.lpmSlotAt h (first + 1)) v) v)]
    else c.lpmWrite h [(first, lpmNumbers (lpmValid a v) v)]
  | .head s i => c.vSet .head s i (vtabValid (c.vGet .head s i) v)
  | .ecid s i => c.vSet .ecid s i (vtabValid (c.vGet .ecid s i) v)
  | .subscriber s i => c.vSet .sub s i (vtabValid (c.vGet .sub s i) v)

/-- The slice or half that a place lies in. -/
def placeUnit (p : SettlePlace) : Nat :=
  match p with
  | .em s _ | .tcam s _ _ | .head s _ | .ecid s _ | .subscriber s _ => U.slice s
  | .lpm h _ => U.half h

/-- A place names an entry that begins there (not the second half of a pair). -/
def placeOk (c : Chip) (p : SettlePlace) : Bool :=
  c.present (placeUnit p) && c.firstOf (placeUnit p) &&
  match p with
  | .em s i => c.emIndexOk s i && (c.emAt s i).pair != 2
  | .tcam s b i => decide (b < 4) && decide (i < 5120) && (c.tcamTableAt s (tcamPhys b i)).isSome && ((c.tcamTab s).copies.look (tcamPhys b i)).pair != 2
  | .lpm h i => decide (i < 2 ^ 21) && decide (i / 8 % 2 ^ 17 < c.lpmLines h) && !(c.lpmSlotAt h i).second
  | .head _ i => decide (i < VTab.head.count)
  | .ecid _ i => decide (i < VTab.ecid.count)
  | .subscriber _ i => decide (i < VTab.sub.count)

/-- Where a place stands in the settler's walk: the tables in the order of Table 7-1, each in ascending order
(DEDUCED, notes/assumptions/74.md). -/
def placeRank (p : SettlePlace) : Nat :=
  match p with
  | .em s i => s * 2 ^ 32 + i
  | .lpm h i => 2 ^ 40 + h * 2 ^ 32 + i
  | .tcam s b i => 2 * 2 ^ 40 + s * 2 ^ 32 + tcamPhys b i
  | .head s i => 3 * 2 ^ 40 + s * 2 ^ 32 + i
  | .ecid s i => 4 * 2 ^ 40 + s * 2 ^ 32 + i
  | .subscriber s i => 5 * 2 ^ 40 + s * 2 ^ 32 + i

def oldest (c : Chip) : Nat := c.get 0 R.ACCORD_OLDEST_number

/-- A number equals or precedes the oldest live accord. -/
def isSettled (c : Chip) (n : Nat) : Bool := n != 0 && (n == c.oldest || precedes n c.oldest)

/-- What the settler makes of an entry (R166). -/
def settle (c : Chip) (v : Validity) : Validity :=
  { valid := v.valid && !(c.isSettled v.vuntil), vfrom := if c.isSettled v.vfrom then 0 else v.vfrom, vuntil := v.vuntil }

/-- One visit of the settler; a walk that starts again has completed a pass (DEDUCED, notes/assumptions/74.md). -/
def settleVisit (c : Chip) (p : SettlePlace) : Chip :=
  let c := c.when (c.accord.settleAt != 0 && decide (placeRank p + 1 ≤ c.accord.settleAt)) fun c => c.cnt C.settle_passes 1
  let c := { c with accord := { c.accord with settleAt := placeRank p + 1 } }
  let v := c.placeValidity p
  let w := c.settle v
  if w = v then c
  else (c.setValidity p w).when (v.valid && !w.valid) fun c => c.cnt C.settle_freed 1

end Chip

/-- DISCARD_COMPLETE (R164): once the writes accepted before the discard have landed, the log is walked from its newest record to its
oldest, and each entry gets back what the record gives (DEDUCED, notes/assumptions/74.md). -/
def execDiscardComplete (s : State) : Host.Outcome State Fault Refusal :=
  s.run .core fun c =>
    if c.accordState = 4 && c.writesLanded then
      let c := c.each c.accord.log fun c r => c.setValidity r.place ⟨r.valid, r.vfrom, r.vuntil⟩
      let c := { c with accord := { c.accord with log := [] } }
      (((c.syncLog.put 0 R.ACCORD_STATUS_state 0).put 0 R.ACCORD_STATUS_pending 0).unbindLog.put 0 R.ACCORD_EVENT_discarded 1).cnt C.discards 1
    else c

/-- SETTLER_VISIT (R166): a sleeping slice is woken first (spec/19_housekeeper_power_ageing.md R414). -/
def execSettlerVisit (p : SettlePlace) (s : State) : Host.Outcome State Fault Refusal :=
  s.run .core fun c =>
    if !(c.placeOk p) || c.inReset (Chip.placeUnit p) || c.oldest = 0 then c
    else if U.level (Chip.placeUnit p) = 4 && c.asleep (U.index (Chip.placeUnit p)) then c.wakeCause (U.index (Chip.placeUnit p))
    else c.settleVisit p

/-! ### The end of a fill -/

/-- A fill's words: first, one past the last, and the pattern. -/
structure FillRange where
  lo : Nat
  hi : Nat
  pat : Nat
deriving DecidableEq, Repr

namespace FillRange

def has (r : FillRange) (w : Nat) : Bool := decide (r.lo ≤ w) && decide (w < r.hi)

/-- `n` words of 64 bits from word `base`, each replaced where the fill covers it. -/
def cover (r : FillRange) (base n v : Nat) : Nat :=
  (List.range n).foldl (fun (acc : Nat) j =>
    let old := v / 2 ^ (64 * j) % 2 ^ 64
    acc + (if r.has (base + j) then r.pat * 2 ^ 32 + r.pat else old) * 2 ^ (64 * j)) 0

/-- The fill touches one of `n` words from `base`. -/
def meets (r : FillRange) (base n : Nat) : Bool := decide (r.lo < base + n) && decide (base < r.hi)

/-- Fill the values of the keys below `n`, value `k` lying in `m` words from `word k`. -/
def table {α : Type} [Inhabited α] [DecidableEq α] (r : FillRange) (t : Tbl α) (n m : Nat) (word : Nat → Nat) (f : Nat → α → α) : Tbl α :=
  ((List.range n).filter fun k => r.meets (word k) m).foldl (fun t k => t.upd k (f (word k))) t

end FillRange

namespace Chip

/-- A state byte that a fill leaves: 0 under a pattern of zero; else the spec states none, and it is a free value
(DESIGN CHOICE, notes/assumptions/16.md). -/
def fillByte (c : Chip) (r : FillRange) (k : Nat) : BitVec 8 := if r.pat = 0 then 0 else Config.freeByte (c.fresh + k)

def fillEntry (r : FillRange) (w : Nat) (e : Entry) : Entry := BitVec.ofNat 256 (r.cover w 4 e.toNat)
def fillWord (r : FillRange) (w : Nat) (e : Word) : Word := BitVec.ofNat 64 (r.cover w 1 e.toNat)
def fillHalf (r : FillRange) (w : Nat) (e : BitVec 128) : BitVec 128 := BitVec.ofNat 128 (r.cover w 2 e.toNat)

/-- Exact-match and LPM granules, and the overflow store (DESIGN CHOICE, notes/assumptions/16.md). -/
def fillGranules (c : Chip) (s : Nat) (ovf : Bool) (r : FillRange) : Chip :=
  let keys : List Nat := if ovf then (List.range (c.emOvfSize s)).map (0x40000 + ·)
    else [0, 1].flatMap fun b => (List.range (4 * c.emBuckets s)).map (0x20000 * b + ·)
  let t := c.emTab s
  let es := (keys.filter fun i => r.meets (c.emWord s i) 4).foldl (fun (t : Tbl EmEntry) i =>
    t.upd i fun e => { body := fillEntry r (c.emWord s i) e.body, state := c.fillByte r i }) t.entries
  let h := s / 4
  let lines : List Nat := if ovf then [] else [0, 1].flatMap fun b => (List.range (8 * c.lpmLines h)).map (2 ^ 20 * b + ·)
  let m := c.lpmTab h
  let ls := (lines.filter fun i => (c.lpmWord h i).1 == U.sliceBlk s 0x48 && r.meets (c.lpmWord h i).2 2).foldl (fun (t : Tbl LpmSlot) i =>
    t.upd i fun e => { data := fillHalf r (c.lpmWord h i).2 e.data, state := c.fillByte r (2 ^ 20 + i) }) m.slots
  ((c.setEm s { t with entries := es }).syncEm s).setLpm h { m with slots := ls }

/-- Stored copies of a TCAM bank. -/
def fillTcam (c : Chip) (s bank : Nat) (r : FillRange) : Chip :=
  let t := c.tcamTab s
  let keys := ((List.range 5120).map (5120 * bank + ·)).filter fun i => r.meets (tcamWord i).2 12
  c.setTcam s { t with copies := keys.foldl (fun m i => m.upd i fun e =>
    let w := (tcamWord i).2
    TcamEntry.ofParts (fillEntry r w (e.part 0)) (fillEntry r (w + 4) (e.part 1)) (fillEntry r (w + 8) (e.part 2))
      (if r.has w then c.fillByte r i else e.state)) t.copies }

/-- Resolver objects (group 0x058). -/
def fillObjects (c : Chip) (s : Nat) (r : FillRange) : Chip :=
  let o := c.obj s
  let c := c.setObj s { o with
    nextHops := r.table o.nextHops 65536 1 (fun i => (objWords .nextHop i 0).2.1) (fillWord r)
    groupSize := r.table o.groupSize 4096 1 (fun i => 65536 + 17 * i) fun w n => r.cover w 1 n % 128
    groupPart := r.table o.groupPart 16384 4 (fun k => (objWords .group (k / 4) (k % 4)).2.1) (fillEntry r)
    mirrors := r.table o.mirrors 16 1 (fun i => (objWords .mirror i 0).2.1) (fillWord r)
    copies := r.table o.copies 65536 1 (fun i => (objWords .copy i 0).2.1) (fillWord r)
    heads := r.table o.heads 131072 1 headWord (fillWord r) }
  c.each ((List.range 256).filter fun i => r.has (135184 + i / 2)) fun c i =>
    c.setReg (A.slice s + R.RES_PROFILE + 4 * i) (BitVec.ofNat 64 (r.pat / 4096 * 4096))

/-- Scheduler records, tags and queue state (group 0x070); what a non-zero pattern makes of a tag is open
(DESIGN CHOICE, notes/assumptions/16.md). -/
def fillSched (c : Chip) (s : Nat) (r : FillRange) : Chip :=
  let q := c.recs s
  let half (w : Nat) (e : Option (BitVec 128)) : Option (BitVec 128) := some (fillHalf r w (e.getD 0))
  let whole (w : Nat) (e : Option Entry) : Option Entry := some (fillEntry r w (e.getD 0))
  let c := c.setRecs s { q with
    heart := r.table q.heart 2048 2 (2 * ·) (fillHalf r)
    top := r.table q.top 2048 2 (8192 + 2 * ·) (fillHalf r)
    queue := r.table q.queue 16384 4 (16384 + 4 * ·) (fillEntry r)
    heartStaged := r.table q.heartStaged 2048 2 (4096 + 2 * ·) half
    topStaged := r.table q.topStaged 2048 2 (12288 + 2 * ·) half
    queueStaged := r.table q.queueStaged 16384 4 (81920 + 4 * ·) whole }
  let v := c.sch s
  let node (w : Nat) (_ : Node) : Node :=
    if r.pat = 0 then {} else { v := (Config.freeByte (c.fresh + w)).toNat, s := (Config.freeByte (c.fresh + w + 1)).toNat, f := (Config.freeByte (c.fresh + w + 2)).toNat }
  c.setSch s { v with
    heart := r.table v.heart 2048 1 (147456 + ·) node
    top := r.table v.top 2048 1 (149504 + ·) node
    queue := r.table v.queue 16384 1 (151552 + ·) node }

/-- LPM filters of a half. -/
def fillFilters (c : Chip) (h : Nat) (r : FillRange) : Chip :=
  let t := c.lpmTab h
  c.setLpm h { t with
    filter4 := r.table t.filter4 65536 1 (· / 2) fun w e => if r.has w then BitVec.ofNat 32 r.pat else e
    filter6 := r.table t.filter6 65536 2 (32768 + 2 * ·) (fillHalf r) }

/-- The contents of a memory group after a fill (DESIGN CHOICE, notes/assumptions/16.md). -/
def fillContents (c : Chip) (u : Nat) (r : FillRange) : Chip :=
  let s := U.index u / 0x200
  let o := c.obj s
  match U.level u, (if U.level u = 4 then U.index u % 0x200 else U.index u % 0x800) with
  | 4, 0x48 => c.fillGranules s false r
  | 4, 0x49 => c.fillGranules s true r
  | 4, 0x50 => c.fillTcam s 0 r
  | 4, 0x51 => c.fillTcam s 1 r
  | 4, 0x52 => c.fillTcam s 2 r
  | 4, 0x53 => c.fillTcam s 3 r
  | 4, 0x58 => c.fillObjects s r
  | 4, 0x60 => c.setObj s { o with scripts := r.table o.scripts 65536 4 (fun k => (objWords .script (k / 4) (k % 4)).2.1) (fillEntry r) }
  | 4, 0x68 =>
    let b : Bucket := { level := (BitVec.ofNat 32 r.pat).toInt * 256 }
    c.setObj s { o with meters := r.table o.meters 8192 4 (4 * ·) fun w m => { record := fillHalf r w m.record, tc := b, tp := b, filled := c.now } }
  | 4, 0x70 => c.fillSched s r
  | 5, 0 => c.setInnk (U.index u / 0x800) { c.innk (U.index u / 0x800) with
      cells := r.table (c.innk (U.index u / 0x800)).cells 393216 1 id fun _ _ => {} }
  | 5, 0x10 => c.fillFilters (U.index u / 0x800) r
  | _, _ => c

end Chip

/-- A fill of the keepsake store (8 words to a line of 64 bytes) (DESIGN CHOICE, notes/assumptions/16.md). -/
def Nv.fill (nv : Nv) (r : FillRange) : Nv :=
  let bytes := (List.range (8 * (r.hi - r.lo))).map fun i => BitVec.ofNat 8 (r.pat / 256 ^ (i % 4) % 256)
  { nv with mem := nv.mem.setBytes (8 * r.lo) bytes
            journal := nv.journal.filter fun p => !(decide (r.lo ≤ 2 * p.1) && decide (2 * p.1 + 1 < r.hi))
            written := (List.range ((r.hi - r.lo) / 4)).foldl (fun (t : Tbl Bool) i => t.set (r.lo / 4 + i) true) nv.written }

/-- FILL_COMPLETE (R373): the pattern stands in every word, poison is gone, and the rows' filled bits are set
(DESIGN CHOICE, notes/assumptions/16.md). -/
def execFillComplete (u : Nat) (s : State) : Host.Outcome State Fault Refusal :=
  s.runNv .core fun nv fu c =>
    let g := c.grp u
    match g.filling with
    | none => (c, nv, fu)
    | some (start, count, pat) =>
      let r : FillRange := { lo := start, hi := start + count, pat := pat % 2 ^ 32 }
      let c := c.setGrp u { g with
        filling := none
        filled := g.filled ++ [(start / 64, count / 64)]
        poison := g.poison.filter fun w => !(r.has w)
        planted := g.planted.filter fun w => !(r.has w.1)
        soft := g.soft.filter fun w => !(r.has w.1) }
      let c := (c.put (A.group u) R.MEM_FILL_busy 0).put (A.group u) R.MEM_FILL_result 0
      if u = 0xD048 then
        let w := (List.range (count / 8)).foldl (fun x i => x.1.lineWrite x.2 (start / 8 + i)) (c, nv.fill r)
        (w.1, w.2, fu)
      else ((c.fillContents u r), nv, fu)

end Sys2Proof.Machine
end

