-- ==== Sys2Proof/Machine/GateCmd.lean ====
section
/-! DEFINITION. The gate commands (spec/14_time_gates.md R305 to R318): edges, base time, list writes, swaps. Every member of a port
suite runs the first member's lists (R318). -/

namespace Sys2Proof.Machine

open Sys2Proof

namespace Chip

/-- The ports that a command naming port `p` drives. -/
def portSet (c : Chip) (p : Nat) : List Nat := (c.members (U.port p)).map U.index

/-- The gates of a port's set take the states of the time now; the scheduler sees them. -/
def gatesFollow (c : Chip) (p : Nat) : Chip := c.each (c.portSet p) fun c q => (c.gateSync q).schedSync q

/-- The gate engine finds its position anew (R316); an armed swap is placed by the new time. -/
def gateResync (c : Chip) (p : Nat) : Chip :=
  let c := c.each (c.portSet p) fun c q => { c with ports := c.ports.upd q fun x => { x with armedAt := Nat.min x.armedAt (c.gateNow q) } }
  ((c.cnt (c.portCnt p + C.gate_resync) 1).put (c.portCnt p) R.GATE_EVENT_resync 1).gatesFollow p

/-- A swap takes place (R313). -/
def gateSwap (c : Chip) (p : Nat) : Chip :=
  let c := c.each (c.portSet p) fun c q =>
    let b := A.port q
    (((c.put b R.GATE_STATUS_active_list (1 - c.activeList q)).put b R.GATE_STATUS_armed 0).put b R.GATE_SWAP_arm 0).put b R.GATE_SWAP_result 5
  let c := (c.cnt (c.portCnt p + C.gate_swaps) 1).put (c.portCnt p) R.GATE_EVENT_swapped 1
  (c.gatesFollow p).each (c.portSet p) Chip.gateHeads |>.gatesFollow p

/-- The swap instant of an armed swap has come. -/
def swapDue (c : Chip) (p : Nat) : Bool := c.on (A.port p) R.GATE_STATUS_armed && decide (c.swapInstant p ≤ c.gateNow p)

/-- Time base `t` was stepped or set: the ports that follow it find their place, and swaps whose instant has passed take effect (R316). -/
def gatesStepped (c : Chip) (t : Nat) : Chip :=
  c.each (c.image.ports.map PortRec.first) fun c p =>
    if c.firstOf (U.port p) && c.get (A.port p) R.GATE_CTRL_tb = t then
      (c.gateResync p).when ((c.gateResync p).swapDue p) fun c => c.gateSwap p
    else c

/-- The port number and offset of an address in a port window. -/
def portAddr (a : Nat) : Option (Nat × Nat) :=
  if 0x08000000 ≤ a && a < 0x10000000 && 0x100000 ≤ a % 0x01000000 && a % 0x01000000 < 0x140000 then
    some ((a - 0x08000000) / 0x01000000 * 16 + (a % 0x01000000 - 0x100000) / 0x4000, a % 0x4000)
  else none

/-- The list that a port window offset belongs to: a header or an entry. -/
def gclList (o : Nat) : Option Nat :=
  if 0x100 ≤ o && o < 0x140 && o % 0x20 < 0x14 then some ((o - 0x100) / 0x20)
  else if 0x2000 ≤ o && o < 0x3000 then some ((o - 0x2000) / 0x800)
  else none

/-- GATE_SWAP_SEC or GATE_SWAP_NS. -/
def gclSwapReg (o : Nat) : Bool := decide (0x90 ≤ o) && decide (o < 0x9C)

/-- A write that R311 ignores: to the active list, or while a swap is armed. -/
def gclIgnored (c : Chip) (p o : Nat) : Bool :=
  let armed := c.on (A.port p) R.GATE_STATUS_armed
  match gclList o with
  | some l => l == c.activeList p || armed
  | none => gclSwapReg o && armed

/-- Write the RW bits of a register. -/
def rwStore (c : Chip) (a : Nat) (v : Word) : Chip :=
  match regRow a with
  | some r => c.setReg a ((c.reg a &&& ~~~(BitVec.ofNat 64 r.rw)) ||| (v &&& BitVec.ofNat 64 r.rw))
  | none => c

/-- A write of a list field or of the swap time at offset `o` of a port's window; `wrote` is the offset written, which lies in the upper
half of a 64-bit register where that half alone was (R311). -/
def gclWrite (c : Chip) (p o wrote : Nat) (v : Word) : Chip :=
  if c.gclIgnored p o then
    ((c.cnt (c.portCnt p + C.gcl_active_write) 1).put (c.portCnt p) R.GATE_EVENT_active_write 1).report (U.port p) K.gclActiveWrite 0
      (A.port p + wrote)
  else c.each (c.portSet p) fun c q => c.rwStore (A.port q + o) v

end Chip

/-! ### Meanings -/

/-- GATE_EDGE (R305) (DEDUCED, notes/assumptions/52.md). -/
def execGateEdge (p : Nat) (s : State) : Host.Outcome State Fault Refusal :=
  s.run .core fun c => if c.portThere p && c.on (A.port p) R.GATE_CTRL_enable then c.gatesFollow p else c

/-- GATE_BASE_TIME (R314). -/
def execGateBaseTime (p : Nat) (s : State) : Host.Outcome State Fault Refusal :=
  s.run .core fun c =>
    if c.portThere p && c.on (A.port p) R.GATE_STATUS_before_base && c.gclBase p (c.activeList p) ≤ c.gateNow p then c.gatesFollow p else c

/-- GCL_WRITE (R311). -/
def execGclWrite (src : Source) (addr : Nat) (data : Word) (s : State) : Host.Outcome State Fault Refusal :=
  s.bus src addr true fun c =>
    match Chip.portAddr addr with
    | some (p, o) => if (Chip.gclList o).isSome then c.gclWrite p o o data else c
    | none => c

/-- GATE_SWAP_ARM (R312). -/
def Chip.gateArm (c : Chip) (p : Nat) : Chip :=
  if !(c.portThere p) then c
  else if c.on (A.port p) R.GATE_STATUS_armed then c.each (c.portSet p) fun c q => c.put (A.port q) R.GATE_SWAP_result 3
  else if c.gclOk p (1 - c.activeList p) then
    (c.each (c.portSet p) fun c q =>
      { c with ports := c.ports.upd q fun x => { x with armedAt := c.gateNow q } }).each (c.portSet p) fun c q =>
        ((c.put (A.port q) R.GATE_STATUS_armed 1).put (A.port q) R.GATE_SWAP_arm 1).put (A.port q) R.GATE_SWAP_result 1
  else (c.each (c.portSet p) fun c q => c.put (A.port q) R.GATE_SWAP_result 2).put (c.portCnt p) R.GATE_EVENT_swap_refused 1

/-- GATE_SWAP_ARM (R312). -/
def execGateSwapArm (src : Source) (p : Nat) (s : State) : Host.Outcome State Fault Refusal :=
  s.bus src (A.port p + 0x88) true fun c => c.gateArm p

/-- GATE_SWAP_CANCEL (R312): a cancel in the cycle of the swap instant leaves the swap to stand. -/
def Chip.gateCancel (c : Chip) (p : Nat) : Chip :=
  if c.portThere p && c.on (A.port p) R.GATE_STATUS_armed then
    if c.swapDue p then c
    else c.each (c.portSet p) fun c q => ((c.put (A.port q) R.GATE_STATUS_armed 0).put (A.port q) R.GATE_SWAP_arm 0).put (A.port q) R.GATE_SWAP_result 4
  else c

/-- GATE_SWAP_CANCEL (R312). -/
def execGateSwapCancel (src : Source) (p : Nat) (s : State) : Host.Outcome State Fault Refusal :=
  s.bus src (A.port p + 0x88) true fun c => c.gateCancel p

/-- GATE_SWAP (R313). -/
def execGateSwap (p : Nat) (s : State) : Host.Outcome State Fault Refusal :=
  s.run .core fun c => if c.portThere p && c.swapDue p then c.gateSwap p else c

end Sys2Proof.Machine
end

