-- ==== Sys2Proof/Machine/Hbm.lean ====
section
/-! DEFINITION. The HBM controllers (spec/16_hbm_controller.md R340 to R365): geometry, arbitration, transfers and their checks, refresh,
row disturbance, training, frequency, self-refresh, and retirement. -/

namespace Sys2Proof.Machine

open Sys2Proof

/-- Unit of a pseudo-channel, of the controller and of the PHY (R340). -/
def pcUnit (m pc : Nat) : Nat := U.halfBlk m (0x40 + pc)
def hbmUnit (m : Nat) : Nat := U.halfBlk m 0x20
def phyUnit (m : Nat) : Nat := U.halfBlk m 0x60

/-- Stack offset of a channel address (R341). -/
def stackOffset (pc a : Nat) : Nat := a / 2048 * 65536 + pc * 2048 + a % 2048

def chanBank (a : Nat) : Nat := a / 1024 % 32
def chanRow (a : Nat) : Nat := a / 32768 % 16384

/-- The layout of HBM_FAULT_ADDR (DESIGN CHOICE, notes/assumptions/54.md). -/
def faultAddr (pc a req : Nat) : Nat := pc * 2 ^ 27 + chanBank a * 2 ^ 22 + chanRow a * 2 ^ 8 + a % 1024 / 64 * 2 ^ 4 + req

/-- Accesses of a transfer: its rows of 1 KiB, by bank × 16,384 + row (R340). -/
def accesses (a beats : Nat) : List Nat :=
  let first := a / 1024
  (List.range ((a + 64 * beats + 1023) / 1024 - first)).map fun i => chanBank ((first + i) * 1024) * 16384 + chanRow ((first + i) * 1024)

namespace Chip

def hb (c : Chip) (m : Nat) : Hbm := c.hbms.look m

def setHb (c : Chip) (m : Nat) (v : Hbm) : Chip := { c with hbms := c.hbms.set m v }

def hpc (c : Chip) (m pc : Nat) : HbmPc := (c.hb m).pcs.look pc

def setHpc (c : Chip) (m pc : Nat) (v : HbmPc) : Chip := c.setHb m { c.hb m with pcs := (c.hb m).pcs.set pc v }

def updHpc (c : Chip) (m pc : Nat) (f : HbmPc → HbmPc) : Chip := c.setHpc m pc (f (c.hpc m pc))

def hbmState (c : Chip) (m : Nat) : Nat := c.get (A.hbm m) R.HBM_STATUS_state

def setHbmState (c : Chip) (m n : Nat) : Chip := c.put (A.hbm m) R.HBM_STATUS_state n

def hbmRetired (c : Chip) (m pc : Nat) : Bool := c.get (A.hbm m) R.HBM_RETIRED_mask / 2 ^ pc % 2 == 1

def hbmCopying (c : Chip) (m : Nat) : Bool := c.on (A.hbm m) R.HBM_RELOC_copying

/-- Pseudo-channels in service. -/
def hbmPcs (c : Chip) (m : Nat) : List Nat := (List.range 32).filter fun pc => !(c.hbmRetired m pc)

/-- The stack is one of an enabled half. -/
def hbmThere (c : Chip) (m : Nat) : Bool := decide (m < 2) && c.halfEnabled m

/-- The controller is there, its clocks run and it is not in reset. -/
def hbmUp (c : Chip) (m : Nat) : Bool := c.hbmThere m && !(c.inReset (hbmUnit m)) && !(c.inReset (phyUnit m))

/-- The state after a training, an exit or a frequency change: ready, unless nothing is left in service. -/
def hbmReady (c : Chip) (m : Nat) : Chip :=
  ((c.setHbmState m (if (c.hbmPcs m).isEmpty then 7 else 2)).setHb m { c.hb m with lastGrant := c.now }).syncInnk m

/-- A training in service runs; some pseudo-channel has steps of it left; some holds the grant for a step. -/
def trainingOn (c : Chip) (m : Nat) : Bool := (c.hb m).serving
def stepsLeft (c : Chip) (m : Nat) : Bool := (List.range 32).any fun pc => (c.hpc m pc).step != 0
def stepOn (c : Chip) (m : Nat) : Bool := (List.range 32).any fun pc => (c.hpc m pc).stepHeld

/-- A frequency change waits for the end of a step or of a copy (R356). -/
def freqDeferred (c : Chip) (m : Nat) : Bool := c.get (A.hbm m) R.HBM_FREQ_state == 1

/-- HBM_STATUS.step: the step that runs, of the lowest pseudo-channel that holds its grant for one; 0 between steps (R355)
(DESIGN CHOICE, notes/assumptions/55.md). -/
def syncStep (c : Chip) (m : Nat) : Chip :=
  c.put (A.hbm m) R.HBM_STATUS_step (match (List.range 32).find? fun pc => (c.hpc m pc).stepHeld with
    | some pc => (c.hpc m pc).step
    | none => 0)

/-- New grants are made (Table 16-4, 16-5): ready, or a training in service. -/
def hbmGrants (c : Chip) (m : Nat) : Bool := c.hbmState m == 2 || (c.hbmState m == 1 && c.trainingOn m)

/-- The arbiter of a pseudo-channel makes grants; while its share is copied, the control complex is still served there (R361). No
training step starts before a deferred frequency change (R356). -/
def pcGrants (c : Chip) (m pc : Nat) (r : HbmReq) : Bool :=
  c.hbmGrants m && (!(c.hbmRetired m pc) || (c.hbmCopying m && r.req == 4 && c.get (A.hbm m) R.HBM_RELOC_channel == pc)) &&
  !(r.req == 6 && c.freqDeferred m)

/-! ### Remapped shares (R361) -/

/-- The channel and address that hold granule `k` of the share of channel `pc`. -/
def reservePlace (pc k : Nat) : Nat × Nat :=
  let r := k % 31
  (if r < pc then r else r + 1, k / 31 * 2048)

/-- Granule of the share that a channel address lies in (region offsets of 64 MiB up to 2 GiB). -/
def shareGranule (a : Nat) : Option Nat := if 1024 ≤ a / 2048 && a / 2048 < 32768 then some (a / 2048 - 1024) else none

/-- Where an access of the control complex goes: the channel and address, and the granule where it was moved. -/
def remap (c : Chip) (m pc a : Nat) : Nat × Nat × Option Nat :=
  if m = 0 && c.hbmRetired m pc && c.on (A.hbm m) R.HBM_RELOC_used && c.get (A.hbm m) R.HBM_RELOC_channel == pc && !(c.hbmCopying m) then
    match shareGranule a with
    | some k => ((reservePlace pc k).1, (reservePlace pc k).2 + a % 2048, some k)
    | none => (pc, a, none)
  else (pc, a, none)

/-- The granule of the relocated share that lies at a place of the reserve. -/
def reserveGranule (c : Chip) (m pc a : Nat) : Option Nat :=
  let q := c.get (A.hbm m) R.HBM_RELOC_channel
  if m = 0 && c.on (A.hbm m) R.HBM_RELOC_used && a < 2 ^ 21 && pc != q then some (a / 2048 * 31 + (if pc < q then pc else pc - 1)) else none

/-! ### Memory -/

/-- The image staging area of stack 0 was filled with zeros before its first reader (R342, spec/03_boot_and_strongroom.md R59), but for
what the relocation put there (DEDUCED, notes/assumptions/56.md). -/
def zeroArea (c : Chip) (m pc a : Nat) : Bool := m == 0 && decide (a < 2 ^ 21) && (c.reserveGranule m pc a).isNone

/-- Bytes read from a place; unwritten ones are free values (R343) (DEDUCED, notes/assumptions/56.md). -/
def hbmRead (c : Chip) (m pc a n : Nat) : Chip × List Byte :=
  let f := c.freeBytes n
  (f.2, (List.range n).map fun i =>
    ((c.hb m).mem.look (stackOffset pc (a + i))).getD (if c.zeroArea m pc (a + i) then 0 else f.1.getD i 0))

/-- Words of 8 bytes of a range. -/
def wordsOf (a n : Nat) : List Nat := (List.range ((a % 8 + n + 7) / 8)).map fun i => (a / 8 + i) * 8

/-- Write bytes: planted errors are covered, an armed injection plants a new one (spec/18_ledger_and_faults.md R400, R401). -/
def hbmWrite (c : Chip) (m pc a : Nat) (bs : List Byte) : Chip :=
  let v := c.hb m
  let ws := wordsOf a bs.length
  let mem := ((List.range bs.length).zip bs).foldl (fun (t : Tbl (Option Byte)) x => t.set (stackOffset pc (a + x.1)) (some x.2)) v.mem
  let planted := ws.foldl (fun (t : Tbl Nat) w => t.clear (stackOffset pc w)) v.planted
  let k := c.injected (pcUnit m pc) 4
  let at_ := (c.get 0 R.LEDGER_INJ_ADDR_addr) % 2 ^ 29 / 8 * 8
  let gran := (c.reserveGranule m pc a).filter fun g => v.lost && !(v.rewritten.contains g)
  let v := { v with mem, planted, rewritten := gran.toList ++ v.rewritten }
  if k != 0 && ws.contains at_ && !bs.isEmpty then
    let kind := (if maskOnes k = 1 then 1 else 2) + (if c.ledger.inj.any Injection.react then 4 else 0)
    (c.setHb m { v with planted := v.planted.set (stackOffset pc at_) kind }).injectStep (pcUnit m pc) 4
  else c.setHb m v

/-- A range lies in a granule that was lost and not written since (R361). -/
def hbmLost (c : Chip) (m pc a : Nat) : Bool :=
  (c.hb m).lost && (c.reserveGranule m pc a).any fun g => !((c.hb m).rewritten.contains g)

/-- The words of a read transfer that hold an error, in address order: the address in the channel, whether it is uncorrectable, and the
code of a planted error, 0 for one of the stack's own (R343). `errors` names words of the transfer by their number in it
(DESIGN CHOICE, notes/assumptions/57.md). -/
def hbmErrors (c : Chip) (m pc a n : Nat) (errors : List (Nat × Bool)) : List (Nat × Bool × Nat) :=
  (wordsOf a n).filterMap fun w =>
    let p := (c.hb m).planted.look (stackOffset pc w)
    match errors.find? fun x => a / 8 * 8 + 8 * x.1 == w with
    | some x => some (w, x.2 || p % 4 == 2, if x.2 || p % 4 != 2 then 0 else p)
    | none => if p = 0 then none else some (w, p % 4 == 2, p)

/-! ### Reports -/

/-- A report of a read error; an injected one where a planted error `p` was met (DESIGN CHOICE, notes/assumptions/54.md). -/
def hbmReport (c : Chip) (m pc kind sev addr p : Nat) : Chip :=
  if p = 0 then c.report (pcUnit m pc) kind sev addr
  else { c with ledger := { c.ledger with
    transit := c.ledger.transit ++ [{ source := pcUnit m pc, kind, sev, addr, inj := true, injReact := decide (4 < p) }] } }

/-- A corrected word (R343). -/
def hbmCorrected (c : Chip) (m pc a req p : Nat) : Chip :=
  let c := c.cnt (A.hbm m + 0x40 * pc + C.hbm_ce) 1
  if (match (c.hpc m pc).correctedAt with
      | none => true
      | some t => c.passedUs t 1000) then
    (c.updHpc m pc fun p => { p with correctedAt := some c.now }).hbmReport m pc K.hbmCorrected 1 (faultAddr pc a req) p
  else c

def setFaultAddr (c : Chip) (m pc a req : Nat) : Chip := c.setReg (A.hbm m + R.HBM_FAULT_ADDR) (BitVec.ofNat 64 (faultAddr pc a req))

/-- An uncorrectable word (R343). -/
def hbmUncorrectable (c : Chip) (m pc a req p : Nat) : Chip :=
  let c := ((c.cnt (A.hbm m + 0x40 * pc + C.hbm_ue) 1).setFaultAddr m pc a req).put (A.hbm m) R.HBM_EVENT_uncorrectable 1
  let recent := (c.hpc m pc).errors.filter fun t => !(c.passedUs t 1000000)
  (c.updHpc m pc fun p => { p with errors := recent ++ [c.now] }).hbmReport m pc K.hbmUncorrectable 3 (faultAddr pc a req) p

/-! ### Retirement (R360 to R362) -/

/-- A request is abandoned: a read returns poisoned, a write is reported as failed (R364) (DESIGN CHOICE, notes/assumptions/54.md). -/
def abandonReq (c : Chip) (m pc : Nat) (r : HbmReq) : Chip :=
  if r.req = 6 then c else if r.write then c.emit (.hbmFailed m pc r.req) else c.emit (.hbm m pc r.req true [])

/-- Put a request in line at its arbiter. -/
def queueReq (c : Chip) (m pc : Nat) (r : HbmReq) : Chip := c.updHpc m pc fun p => { p with waiting := p.waiting ++ [r] }

/-- Requests waiting at a channel that went out of service: the control complex's follow its share; the others are abandoned. -/
def rehomeWaiting (c : Chip) (m pc : Nat) : Chip :=
  let l := (c.hpc m pc).waiting
  let c := c.updHpc m pc fun p => { p with waiting := [] }
  c.each l fun c r =>
    let t := c.remap m pc r.addr
    if r.req = 4 && t.2.2.isSome then c.queueReq m t.1 { r with addr := t.2.1 }
    else if r.req = 4 && c.hbmCopying m && c.get (A.hbm m) R.HBM_RELOC_channel == pc then c.queueReq m pc r
    else c.abandonReq m pc r

/-- The control region loses a share: 3 poisoned, 4 unmapped. -/
def regionLost (c : Chip) (m pc sev : Nat) : Chip := (c.report (hbmUnit m) K.hbmRegionLost sev pc).put (A.hbm m) R.HBM_EVENT_region_lost 1

/-- The share of a retired stack-0 channel; `cause` 1 and 2 are orderly. -/
def retireShare (c : Chip) (m pc cause : Nat) : Chip :=
  if m != 0 then c
  else if cause = 4 || c.on (A.hbm m) R.HBM_RELOC_used then (c.setHb m { c.hb m with unmapped := pc :: (c.hb m).unmapped }).regionLost m pc 4
  else
    let c := (c.put (A.hbm m) R.HBM_RELOC_used 1).put (A.hbm m) R.HBM_RELOC_channel pc
    if cause ≤ 2 then c.put (A.hbm m) R.HBM_RELOC_copying 1
    else (c.setHb m { c.hb m with lost := true, rewritten := [] }).regionLost m pc 3

/-- Mark a channel retired; nothing in service makes the stack's state 0b111. -/
def markRetired (c : Chip) (m pc : Nat) : Chip :=
  let c := c.put (A.hbm m) R.HBM_RETIRED_mask (c.get (A.hbm m) R.HBM_RETIRED_mask ||| 2 ^ pc)
  c.when ((c.hbmPcs m).isEmpty && c.hbmState m == 2) fun c => c.setHbmState m 7


/-! ### Arbitration (R344 to R349) -/

def hbmPrio (c : Chip) (m r : Nat) : Nat := if 2 ≤ r then c.get (A.hbm m + 4 * (r - 2)) R.HBM_PRIO_priority else 15

/-- A requester's throttle keeps it from a grant now (R353). -/
def throttled (c : Chip) (m pc r : Nat) : Bool :=
  let p := c.hpc m pc
  p.throttle.look r != 0 && decide (c.now < p.lastEnd.look r + 8 * c.get (A.hbm m) R.HBM_ROWGUARD_rh_idle)

/-- Better of two waiting requests: priority, then longest wait, then lowest code (R345). -/
def beats (c : Chip) (m : Nat) (a b : HbmReq) : Bool :=
  let x := c.hbmPrio m a.req
  let y := c.hbmPrio m b.req
  decide (y < x) || (x == y && (decide (a.since < b.since) || (a.since == b.since && decide (a.req < b.req))))

/-- The request that a decision grants. -/
def pickReq (c : Chip) (m pc : Nat) : Option HbmReq :=
  ((c.hpc m pc).waiting.filter fun r => c.pcGrants m pc r && !(c.throttled m pc r.req)).foldl (fun (b : Option HbmReq) r => match b with
    | none => some r
    | some x => if c.beats m r x then some r else some x) none

/-- A row reaches rh_acts (R353). -/
def rowHammer (c : Chip) (m pc key : Nat) (r : HbmReq) : Chip :=
  let p := c.hpc m pc
  let bank := key / 16384
  let row := key % 16384
  let hold := c.now + c.get (A.hbm m) R.HBM_ROWGUARD_rh_hold_ms * 1000000
  let near := ([2, 1].filterMap fun d => if d ≤ row then some (row - d) else none) ++ ([1, 2].filterMap fun d => if row + d < 16384 then some (row + d) else none)
  let said := p.hammered.contains bank
  let a := row * 32768 + bank * 1024
  let c := c.setHpc m pc { p with
    throttle := p.throttle.set r.req hold
    victims := p.victims ++ near.map fun x => (bank * 16384 + x, c.now)
    hammered := if said then p.hammered else bank :: p.hammered }
  let c := ((c.cnt (A.hbm m + 0x40 * pc + C.hammer_events) 1).setFaultAddr m pc a r.req).put (A.hbm m) R.HBM_EVENT_hammer 1
  c.when (!said) fun c => c.report (pcUnit m pc) K.hbmHammer 1 (faultAddr pc a r.req)

/-- Count the activations of a granted transfer. -/
def activate (c : Chip) (m pc : Nat) (r : HbmReq) : Chip :=
  c.each (accesses r.addr r.beats) fun c key =>
    let p := c.hpc m pc
    let n := p.acts.look key + 1
    let c := c.setHpc m pc { p with acts := p.acts.set key n }
    c.when (n == c.get (A.hbm m) R.HBM_ROWGUARD_rh_acts) fun c => c.rowHammer m pc key r

/-- Grant a pseudo-channel to a request. -/
def grantReq (c : Chip) (m pc : Nat) (r : HbmReq) : Chip :=
  let c := c.updHpc m pc fun p => { p with waiting := p.waiting.filter (· != r)
                                           holder := some { r with began := true, compat := c.on (A.hbm m) R.HBM_STATUS_compat }
                                           stepHeld := p.stepHeld || r.req == 6 }
  let c := c.when (r.began && r.req != 6) fun c => c.cnt (A.hbm m + 0x40 * pc + C.restarts) 1
  let c := (c.cnt (A.hbm m + C.grants + 8 * r.req) 1).setHb m { c.hb m with lastGrant := c.now }
  (c.when (r.req == 6) fun c => c.syncStep m).activate m pc r

/-- The holder loses its place: suspended in native mode, and whenever it is the debug port or the housekeeper; else abandoned, to
restart from its first beat (R346, R347). How many write beats had landed by then is open: a free value. -/
def preempt (c : Chip) (m pc : Nat) : Chip :=
  match (c.hpc m pc).holder with
  | none => c
  | some r =>
    let c := c.cnt (A.hbm m + 0x40 * pc + C.preemptions) 1
    if !r.compat || r.req = 1 || r.req = 6 then c.updHpc m pc fun p => { p with holder := none, suspended := r :: p.suspended }
    else
      let n := (Config.freeByte c.fresh).toNat % (r.beats + 1)
      let c := { c with fresh := c.fresh + 1 }.updHpc m pc fun p => { p with holder := none, waiting := { r with since := c.now, starved := false } :: p.waiting }
      if r.write then c.hbmWrite m pc r.addr (r.data.take (64 * n)) else c

/-- The channel falls to the holder that was suspended last, if no emergency stands. -/
def resumeReq (c : Chip) (m pc : Nat) : Chip :=
  let p := c.hpc m pc
  match p.holder, p.emergency, p.suspended with
  | none, none, r :: rest => c.setHpc m pc { p with holder := some r, suspended := rest }
  | _, _, _ => c

/-- Drop the holder's request; a throttled requester's idle begins. -/
def dropHolder (c : Chip) (m pc : Nat) : Chip :=
  match (c.hpc m pc).holder with
  | none => c
  | some r => (c.updHpc m pc fun p => { p with holder := none, lastEnd := p.lastEnd.set r.req c.now }).resumeReq m pc

/-! ### Training (R355 to R357) -/

/-- The housekeeper asks for the grant of its next step. -/
def askStep (c : Chip) (m pc step : Nat) : Chip :=
  (c.updHpc m pc fun p => { p with step, stepHeld := false }).queueReq m pc { req := 6, since := c.now }

/-- A pseudo-channel leaves the training in service: the housekeeper asks for no more of its steps and holds nothing there. -/
def leaveTraining (c : Chip) (m pc : Nat) : Chip :=
  let p := c.hpc m pc
  if p.step = 0 then c
  else
    (c.setHpc m pc { p with step := 0, stepHeld := false, waiting := p.waiting.filter (·.req != 6), suspended := p.suspended.filter (·.req != 6)
                            holder := p.holder.filter (·.req != 6) }).resumeReq m pc

/-- A training in service is over. -/
def trainDone (c : Chip) (m result : Nat) : Chip :=
  let c := c.each (List.range 32) fun c pc => c.leaveTraining m pc
  let c := ((c.put (A.hbm m) R.HBM_TRAIN_state result).put (A.hbm m) R.HBM_EVENT_train_done 1).put (A.hbm m) R.HBM_STATUS_step 0
  c.setHb m { c.hb m with failed := false, serving := false }

/-- A training in service starts on pseudo-channels (R355). -/
def trainStart (c : Chip) (m : Nat) (pcs : List Nat) : Chip :=
  let c := (((c.put (A.hbm m) R.HBM_TRAIN_state 1).setHbmState m 1).cnt (A.hbm m + C.trainings) 1).setHb m
    { c.hb m with failed := false, serving := true }
  c.each pcs fun c pc => c.askStep m pc 1

/-- A training in service ends when no step of it is left, unless a frequency change waits to discard it (R356). -/
def trainCheck (c : Chip) (m : Nat) : Chip :=
  if c.trainingOn m && !(c.stepsLeft m) && !(c.freqDeferred m) then (c.trainDone m (if (c.hb m).failed then 3 else 2)).hbmReady m
  else c.syncStep m

/-- Retire a pseudo-channel (R360). -/
def retirePc (c : Chip) (m pc cause : Nat) : Chip :=
  if c.hbmRetired m pc then c
  else
    let c := (c.innkRetirePc m pc).markRetired m pc
    let c := ((c.retireShare m pc cause).put (A.hbm m) R.HBM_EVENT_retired 1).report (pcUnit m pc) K.hbmRetired 2 cause
    let c := (c.leaveTraining m pc).updHpc m pc fun p => { p with emergency := none, victims := [] }
    (((c.hkRecord (.retire m pc)).rehomeWaiting m pc).trainCheck m).syncInnk m

/-- Start a frequency change (Table 16-4) (DESIGN CHOICE, notes/assumptions/55.md). -/
def freqStart (c : Chip) (m : Nat) : Chip :=
  let c := c.when (c.trainingOn m) fun c => c.trainDone m 5
  ((c.put (A.hbm m) R.HBM_FREQ_state 2).setHbmState m 6).syncInnk m

/-- A training step of any kind runs: in service, or the training at start. -/
def stepRuns (c : Chip) (m : Nat) : Bool := c.stepOn m || (c.hbmState m == 1 && !(c.trainingOn m))

/-! ### Resets (R364) -/

/-- A block reset of a pseudo-channel unit abandons its transfers; a training step that it cut is asked for again
(DESIGN CHOICE, notes/assumptions/55.md). -/
def pcReset (c : Chip) (m pc : Nat) : Chip :=
  let p := c.hpc m pc
  let c := c.each (p.holder.toList ++ p.suspended ++ p.waiting) fun c r => c.abandonReq m pc r
  let c := c.setHpc m pc { p with holder := none, suspended := [], waiting := [], emergency := none, stepHeld := false }
  (c.when (p.step != 0) fun c => c.askStep m pc p.step).syncStep m

/-- A block reset of the controller, its PHY or its half puts the stack into self-refresh; the requests wait throughout, and a frequency
change that waited or ran is given up (DESIGN CHOICE, notes/assumptions/26.md). -/
def hbmReset (c : Chip) (m : Nat) : Chip :=
  if c.hbmState m = 0 || c.hbmState m = 7 then c
  else
    let c := c.when (c.trainingOn m) fun c => c.trainDone m 3
    let c := c.each (List.range 32) fun c pc =>
      let p := c.hpc m pc
      let l := (p.holder.toList ++ p.suspended ++ p.waiting).map fun r => { r with began := false }
      c.setHpc m pc { p with holder := none, suspended := [], waiting := l, emergency := none, owed := [] }
    let f := c.get (A.hbm m) R.HBM_FREQ_state
    ((c.when (f == 1 || f == 2) fun c => c.put (A.hbm m) R.HBM_FREQ_state 0).setHbmState m 4).syncInnk m

/-- After the release a full training runs. -/
def hbmRelease (c : Chip) (m : Nat) : Chip := if c.hbmState m = 4 then c.setHbmState m 1 else c

end Chip

/-! ### Meanings -/

/-- A request that its requester may make (Table 16-2); the debug port's while level A of debug access is open, which it always is at the
fused level open (spec/03_boot_and_strongroom.md Table 3-11). -/
def hbmFits (c : Chip) (m req addr beats : Nat) : Bool :=
  decide (addr + 64 * beats ≤ 2 ^ 29) && addr % 64 == 0 && decide (1 ≤ beats) &&
  match req with
  | 1 => c.room.debugOpen != 0 || c.get 0 R.BOOT_STATUS_debug_fused == 0
  | 2 => beats == 32
  | 3 => beats == 32
  | 4 => m == 0 && decide (addr % 2048 + 64 * beats ≤ 2048)
  | 5 => m == 0 && beats == 32
  | _ => false

/-- A request wakes a stack in self-refresh (R359): the control complex's and the debug port's, with sr_wake at 1. -/
def Chip.hbmWake (c : Chip) (m req : Nat) : Chip :=
  if c.hbmUp m && c.on (A.hbm m) R.HBM_CTRL_sr_wake && (req = 4 || req = 1) then
    if c.hbmState m = 4 then (c.setHbmState m 5).setHb m { c.hb m with wokenByRequest := true }
    else if c.hbmState m = 3 then c.setHb m { c.hb m with wakeDue := true, wokenByRequest := true }
    else c
  else c

/-- HBM_REQUEST (R344): one request at a time of a requester at a pseudo-channel (DESIGN CHOICE, notes/assumptions/54.md). The control
complex reads zeros below 64 MiB of its region, and its writes there are ignored (spec/03_boot_and_strongroom.md R59,
spec/20_host_interface.md Table 20-12). A request in a block reset of the controller waits through it (R364). A granule that was moved to a channel that is retired itself
is unmapped as R362 says (DESIGN CHOICE, notes/assumptions/55.md). -/
def execHbmRequest (m pc req addr : Nat) (write : Bool) (beats : Nat) (data : List Byte) (s : State) : Host.Outcome State Fault Refusal :=
  s.run .core fun c =>
    if req = 4 && decide (pc < 32) && hbmFits c m req addr beats && decide (addr < 2 ^ 21) then
      (if write then c else c.emit (.hbm m pc req false (List.replicate (64 * beats) 0)))
    else if pc < 32 && c.hbmThere m && hbmFits c m req addr beats then
      let p := c.hpc m pc
      let t := if req = 4 then c.remap m pc addr else (pc, addr, none)
      if (p.holder.toList ++ p.suspended ++ p.waiting).any fun r => r.req == req then c
      else if req = 4 && (((c.hb m).unmapped.contains pc && (Chip.shareGranule addr).isSome) || (t.2.2.isSome && c.hbmRetired m t.1)) then
        if write then c else c.emit (.hbm m pc req true [])
      else
        (c.hbmWake m req).queueReq m t.1 { req, addr := t.2.1, write, beats, data := data.take (64 * beats), since := c.now }
    else c

/-- HBM_ARB_DECISION (R345 to R347). -/
def execHbmArbDecision (m pc : Nat) (s : State) : Host.Outcome State Fault Refusal :=
  s.run .core fun c =>
    if pc < 32 && c.hbmUp m && !(c.inReset (pcUnit m pc)) then
      let p := c.hpc m pc
      if p.emergency.isSome then c
      else
        match p.waiting.find? fun r => r.req == 1 && c.pcGrants m pc r && !(c.throttled m pc 1) with
        | some r => if p.holder.any fun h => h.req == 1 then c else (c.preempt m pc).grantReq m pc r
        | none =>
          match p.holder with
          | none => (match p.suspended with
            | _ :: _ => c.resumeReq m pc
            | [] => match c.pickReq m pc with
              | some r => c.grantReq m pc r
              | none => c)
          | some h =>
            if h.compat && h.req != 1 && h.req != 6 then
              match c.pickReq m pc with
              | some r => if c.hbmPrio m h.req < c.hbmPrio m r.req then (c.preempt m pc).grantReq m pc r else c
              | none => c
            else c
    else c

/-- HBM_TRANSFER_COMPLETE (R343): `errors` names the words of a read, by number in the transfer, in which the stack has an error, and
whether it is uncorrectable (DESIGN CHOICE, notes/assumptions/54.md). -/
def execHbmTransferComplete (m pc : Nat) (errors : List (Nat × Bool)) (s : State) : Host.Outcome State Fault Refusal :=
  s.run .core fun c =>
    if pc < 32 && c.hbmUp m then
      match (c.hpc m pc).holder with
      | none => c
      | some r =>
        if r.req = 6 then c
        else if r.write then
          let c := (c.cnt (A.hbm m + 0x40 * pc + C.beats_written) r.beats).hbmWrite m pc r.addr r.data
          let c := if r.req = 4 && c.hbmCopying m && c.get (A.hbm m) R.HBM_RELOC_channel = pc then
              (match Chip.shareGranule r.addr with
              | some k => c.hbmWrite m (Chip.reservePlace pc k).1 ((Chip.reservePlace pc k).2 + r.addr % 2048) r.data
              | none => c)
            else c
          c.dropHolder m pc
        else
          let c := c.cnt (A.hbm m + 0x40 * pc + C.beats_read) r.beats
          let es := c.hbmErrors m pc r.addr (64 * r.beats) errors
          let lost := c.hbmLost m pc r.addr
          let bad := es.any fun e => e.2.1
          let c := c.each es fun c e =>
            if e.2.1 then c.hbmUncorrectable m pc e.1 r.req e.2.2 else c.hbmCorrected m pc e.1 r.req e.2.2
          let b := c.hbmRead m pc r.addr (64 * r.beats)
          let c := (b.1.emit (.hbm m pc r.req (bad || lost) b.2)).dropHolder m pc
          let lim := c.get (A.hbm m) R.HBM_LIMITS_unc_limit
          c.when (bad && lim != 0 && decide (lim < (c.hpc m pc).errors.length)) fun c => c.retirePc m pc 2
    else c

/-- HBM_ARB_STARVE (R349). -/
def execHbmArbStarve (m pc req : Nat) (s : State) : Host.Outcome State Fault Refusal :=
  s.run .core fun c =>
    if pc < 32 && c.hbmUp m then
      let lim := c.get (A.hbm m) R.HBM_LIMITS_starve_us
      match (c.hpc m pc).waiting.find? fun r => r.req == req with
      | none => c
      | some r =>
        if lim != 0 && !r.starved && decide (r.since + lim * 1000 < c.now) then
          let c := c.updHpc m pc fun p => { p with waiting := p.waiting.map fun x => if x = r then { x with starved := true } else x }
          ((c.cnt (A.hbm m + C.starve_events) 1).put (A.hbm m) R.HBM_EVENT_starve 1).report (pcUnit m pc) K.hbmStarve 1 req
        else c
    else c

/-- The stack is powered through its controller: not untrained, not in self-refresh. -/
def Chip.hbmRuns (c : Chip) (m : Nat) : Bool := c.hbmUp m && c.hbmState m != 0 && c.hbmState m != 4

/-- Time between two rises of the owed refreshes in ns: 3.9 µs, or 1.95 µs at 85 °C or more (R350). -/
def Chip.refreshPeriod (c : Chip) (m : Nat) : Nat :=
  let t := c.get (A.hbm m) R.HBM_STATUS_temp
  if 85 ≤ t && t < 128 then 1950 else 3900

/-- REFRESH_OWED_TICK (R350, R351): due each period, on the grid of the last one. -/
def execRefreshOwedTick (m : Nat) (s : State) : Host.Outcome State Fault Refusal :=
  s.run .core fun c =>
    let p := c.refreshPeriod m
    let t := (c.hb m).owedAt
    if c.hbmRuns m && decide (t + p ≤ c.now) then
      (c.setHb m { c.hb m with owedAt := c.now - (c.now - t) % p }).each (List.range 32) fun c pc => c.updHpc m pc fun p =>
        { p with owed := (List.range 32).foldl (fun (t : Tbl Nat) b => t.set b (Nat.min 8 (t.look b + 1))) p.owed }
    else c

/-- The holder keeps a bank open or comes to it with its next access. -/
def Chip.bankBusy (c : Chip) (m pc bank : Nat) : Bool := (c.hpc m pc).holder.any fun r => (accesses r.addr r.beats).any fun k => k / 16384 == bank

/-- PER_BANK_REFRESH (R350 to R352, R354): a disturbance refresh goes ahead of an owed one; the last refresh of an emergency ends it. -/
def execPerBankRefresh (m pc bank : Nat) (s : State) : Host.Outcome State Fault Refusal :=
  s.run .core fun c =>
    if pc < 32 && bank < 32 && c.hbmRuns m then
      let p := c.hpc m pc
      if !(p.emergency == some bank) && (p.emergency.isSome || c.bankBusy m pc bank) then c
      else
        let p := match p.victims.find? fun v => v.1 / 16384 == bank with
          | some v => { p with victims := p.victims.filter (· != v) }
          | none => { p with owed := p.owed.set bank (p.owed.look bank - 1) }
        let done := p.emergency == some bank && p.owed.look bank == 0 && !(p.victims.any fun v => v.1 / 16384 == bank)
        (c.setHpc m pc { p with emergency := if done then none else p.emergency }).resumeReq m pc
    else c

/-- REFRESH_EMERGENCY (R352): a bank owes 8, or its disturbance refreshes were not done within 3.9 µs (R353). -/
def execRefreshEmergency (m pc bank : Nat) (s : State) : Host.Outcome State Fault Refusal :=
  s.run .core fun c =>
    if pc < 32 && bank < 32 && c.hbmRuns m then
      let p := c.hpc m pc
      let late := p.victims.any fun v => v.1 / 16384 == bank && decide (v.2 + 3900 < c.now)
      if p.emergency.isNone && (p.owed.look bank == 8 || late) then
        let c := (c.preempt m pc).updHpc m pc fun p => { p with emergency := some bank }
        (c.cnt (A.hbm m + 0x40 * pc + C.refresh_emergency) 1).cnt (A.hbm m + C.grants) 1
      else c
    else c

/-- HBM_TEMP_READ (R350) (DESIGN CHOICE, notes/assumptions/54.md). -/
def execHbmTempRead (m temp : Nat) (s : State) : Host.Outcome State Fault Refusal :=
  s.run .core fun c => if c.hbmUp m && c.hbmState m != 4 then c.put (A.hbm m) R.HBM_STATUS_temp temp else c

/-- ROW_HAMMER_THROTTLE_END (R353). -/
def execRowHammerThrottleEnd (m pc req : Nat) (s : State) : Host.Outcome State Fault Refusal :=
  s.run .core fun c =>
    let t := (c.hpc m pc).throttle.look req
    if pc < 32 && c.hbmUp m && t != 0 && t ≤ c.now then c.updHpc m pc fun p => { p with throttle := p.throttle.clear req } else c

/-- ROW_HAMMER_WINDOW (R354). -/
def execRowHammerWindow (m : Nat) (s : State) : Host.Outcome State Fault Refusal :=
  s.run .core fun c =>
    if c.hbmUp m then c.each (List.range 32) fun c pc => c.updHpc m pc fun p => { p with acts := [], hammered := [] } else c

/-- HBM_TRAIN (R355): `data` is the value written (DESIGN CHOICE, notes/assumptions/55.md). -/
def Chip.hbmTrainGo (c : Chip) (m : Nat) (data : Word) : Chip :=
  let all := bits data 5 5
  let ch := bits data 4 0
  let c := (c.put (A.hbm m) R.HBM_TRAIN_all all).put (A.hbm m) R.HBM_TRAIN_channel ch
  if !(bit data 31) || !(c.hbmUp m) then c
  else if c.hbmState m != 2 || (all == 0 && c.hbmRetired m ch) then c.put (A.hbm m) R.HBM_TRAIN_state 4
  else
    c.trainStart m (if all = 1 then c.hbmPcs m else [ch])

/-- HBM_TRAIN (R355) (DESIGN CHOICE, notes/assumptions/55.md). -/
def execHbmTrain (src : Source) (m : Nat) (data : Word) (s : State) : Host.Outcome State Fault Refusal :=
  s.bus src (A.hbm m + R.HBM_TRAIN) true fun c => c.hbmTrainGo m data

/-- TRAINING_STEP_COMPLETE (R355, R357): `pass` says that no lane failed beyond repair (DESIGN CHOICE, notes/assumptions/55.md). -/
def execTrainingStepComplete (m pc : Nat) (pass : Bool) (s : State) : Host.Outcome State Fault Refusal :=
  s.run .core fun c =>
    let p := c.hpc m pc
    if pc < 32 && c.hbmUp m && p.stepHeld && p.holder.any fun r => r.req == 6 then
      let c := (c.updHpc m pc fun p => { p with stepHeld := false }).dropHolder m pc
      let c := if !pass then
          let n := (Config.freeByte c.fresh).toNat
          let c := ({ c with fresh := c.fresh + 1 }.report (pcUnit m pc) K.hbmTrainFail 2 (p.step * 256 + n)).setHb m { c.hb m with failed := true }
          c.retirePc m pc 3
        else if c.freqDeferred m then c
        else if p.step < 5 then c.askStep m pc (p.step + 1)
        else c.updHpc m pc fun p => { p with step := 0 }
      c.trainCheck m
    else c

/-- HBM_FREQ (R356): `data` is the value written (DESIGN CHOICE, notes/assumptions/55.md). -/
def Chip.hbmFreqGo (c : Chip) (m : Nat) (data : Word) : Chip :=
  let point := bits data 1 0
  let c := c.put (A.hbm m) R.HBM_FREQ_point point
  if !(bit data 31) || !(c.hbmUp m) then c
  else
    let st := c.hbmState m
    if point = 3 || st = 3 || st = 4 || st = 5 || st = 6 then c.put (A.hbm m) R.HBM_FREQ_state 4
    else
      let c := c.setHb m { c.hb m with freqPoint := point }
      if c.stepRuns m || c.hbmCopying m then c.put (A.hbm m) R.HBM_FREQ_state 1 else c.freqStart m

/-- HBM_FREQ (R356) (DESIGN CHOICE, notes/assumptions/55.md). -/
def execHbmFreq (src : Source) (m : Nat) (data : Word) (s : State) : Host.Outcome State Fault Refusal :=
  s.bus src (A.hbm m + R.HBM_FREQ) true fun c => c.hbmFreqGo m data

/-- FREQ_CHANGE_START (R356). -/
def execFreqChangeStart (m : Nat) (s : State) : Host.Outcome State Fault Refusal :=
  s.run .core fun c =>
    if c.hbmUp m && c.get (A.hbm m) R.HBM_FREQ_state = 1 && !(c.stepRuns m) && !(c.hbmCopying m) then c.freqStart m else c

/-- FREQ_CHANGE_COMPLETE (Table 16-4): transfers in progress have completed, owed refreshes are paid, the full training is done. -/
def execFreqChangeComplete (m : Nat) (s : State) : Host.Outcome State Fault Refusal :=
  s.run .core fun c =>
    if c.hbmUp m && c.hbmState m = 6 && !((List.range 32).any fun pc => (c.hpc m pc).holder.isSome) then
      let c := c.each (List.range 32) fun c pc => c.updHpc m pc fun p => { p with owed := [] }
      let c := ((c.put (A.hbm m) R.HBM_STATUS_point (c.hb m).freqPoint).put (A.hbm m) R.HBM_FREQ_state 3).put (A.hbm m)
        R.HBM_EVENT_freq_done 1
      ((c.cnt (A.hbm m + C.freq_changes) 1).cnt (A.hbm m + C.trainings) 1).hbmReady m
    else c

/-- Enter self-refresh, or the reason why not (R358). -/
def Chip.selfRefresh (c : Chip) (m : Nat) : Chip × Nat :=
  if !((c.innk m).bundles.isEmpty) then (c, 1)
  else if c.trainingOn m || c.hbmState m = 1 || c.hbmState m = 6 || c.hbmCopying m then (c, 2)
  else if c.hbmState m != 2 then (c, 3)
  else (((c.setHbmState m 3).setHb m { c.hb m with exitWritten := false, wokenByRequest := false, wakeDue := false }).syncInnk m, 0)

/-- SELF_REFRESH_ENTER (R358). -/
def Chip.selfRefreshAsk (c : Chip) (m : Nat) : Chip :=
  let c := c.put (A.hbm m) R.HBM_PWR_op 0
  if c.hbmUp m then let r := c.selfRefresh m; r.1.put (A.hbm m) R.HBM_PWR_result r.2 else c

/-- SELF_REFRESH_ENTER (R358). -/
def execSelfRefreshEnter (src : Source) (m : Nat) (s : State) : Host.Outcome State Fault Refusal :=
  s.bus src (A.hbm m + R.HBM_PWR) true fun c => c.selfRefreshAsk m

/-- Leave self-refresh (R359). -/
def Chip.selfRefreshLeave (c : Chip) (m : Nat) : Chip :=
  let c := c.setHb m { c.hb m with exitWritten := true }
  if c.hbmState m = 4 then c.setHbmState m 5 else if c.hbmState m = 3 then c.setHb m { c.hb m with wakeDue := true } else c

/-- SELF_REFRESH_EXIT (R359). -/
def Chip.selfRefreshQuit (c : Chip) (m : Nat) : Chip :=
  let c := c.put (A.hbm m) R.HBM_PWR_op 1
  if c.hbmUp m then
    if c.hbmState m = 0 || c.hbmState m = 7 then c.put (A.hbm m) R.HBM_PWR_result 3 else (c.selfRefreshLeave m).put (A.hbm m) R.HBM_PWR_result 0
  else c

/-- SELF_REFRESH_EXIT (R359). -/
def execSelfRefreshExit (src : Source) (m : Nat) (s : State) : Host.Outcome State Fault Refusal :=
  s.bus src (A.hbm m + R.HBM_PWR) true fun c => c.selfRefreshQuit m

/-- SELF_REFRESH_ENTRY_COMPLETE (Table 16-5). -/
def execSelfRefreshEntryComplete (m : Nat) (s : State) : Host.Outcome State Fault Refusal :=
  s.run .core fun c =>
    if c.hbmUp m && c.hbmState m = 3 && !((List.range 32).any fun pc => (c.hpc m pc).holder.isSome) then
      let c := c.each (List.range 32) fun c pc => c.updHpc m pc fun p => { p with owed := [], emergency := none }
      let due := (c.hb m).wakeDue
      let c := ((c.setHbmState m (if due then 5 else 4)).put (A.hbm m) R.HBM_EVENT_sr_change 1).cnt (A.hbm m + C.sr_entries) 1
      (c.setHb m { c.hb m with wakeDue := false }).syncInnk m
    else c

/-- SELF_REFRESH_EXIT_COMPLETE (Table 16-5). -/
def execSelfRefreshExitComplete (m : Nat) (s : State) : Host.Outcome State Fault Refusal :=
  s.run .core fun c => if c.hbmUp m && c.hbmState m = 5 then (c.hbmReady m).put (A.hbm m) R.HBM_EVENT_sr_change 1 else c

/-- SELF_REFRESH_IDLE (R359). -/
def execSelfRefreshIdle (m : Nat) (s : State) : Host.Outcome State Fault Refusal :=
  s.run .core fun c =>
    let us := c.get (A.hbm m) R.HBM_CTRL_sr_idle_us
    if c.hbmUp m && (c.hb m).wokenByRequest && !(c.hb m).exitWritten && us != 0 && c.passedUs (c.hb m).lastGrant us then (c.selfRefresh m).1 else c

/-- HBM_RETIRE (R360, R362): the op retire with go; force stands in HBM_RETIRE (DESIGN CHOICE, notes/assumptions/55.md). -/
def Chip.hbmRetireGo (c : Chip) (m pc : Nat) : Chip :=
  let c := (c.put (A.hbm m) R.HBM_RETIRE_channel pc).put (A.hbm m) R.HBM_RETIRE_op 0
  if !(c.hbmUp m) || 32 ≤ pc then c
  else
    let res (c : Chip) (n : Nat) : Chip := c.put (A.hbm m) R.HBM_RETIRE_result n
    if c.hbmRetired m pc then res c 1
    else if !(c.hbmState m == 2 || c.hbmState m == 1) || c.hbmCopying m then res c 3
    else if m = 0 && c.on (A.hbm m) R.HBM_RELOC_used && !(c.on (A.hbm m) R.HBM_RETIRE_force) then res c 2
    else res (c.retirePc m pc 1) 0

/-- HBM_RETIRE (R360, R362) (DESIGN CHOICE, notes/assumptions/55.md). -/
def execHbmRetire (src : Source) (m pc : Nat) (s : State) : Host.Outcome State Fault Refusal :=
  s.bus src (A.hbm m + R.HBM_RETIRE) true fun c => c.hbmRetireGo m pc

/-- HBM_RETIRE_CLEAR (R363). -/
def Chip.hbmRetireClear (c : Chip) (m pc : Nat) : Chip :=
  let c := (c.put (A.hbm m) R.HBM_RETIRE_channel pc).put (A.hbm m) R.HBM_RETIRE_op 1
  if m < 2 && pc < 32 then (c.put (A.hbm m) R.HBM_RETIRE_result 0).hkRecord (.unretire m pc) else c

/-- HBM_RETIRE_CLEAR (R363). -/
def execHbmRetireClear (src : Source) (m pc : Nat) (s : State) : Host.Outcome State Fault Refusal :=
  s.bus src (A.hbm m + R.HBM_RETIRE) true fun c => c.hbmRetireClear m pc

/-- RELOCATION_COPY_COMPLETE (R361): the share stands in the reserve, uncorrectable words as poisoned; the channel serves no more. No
transfer of the control complex is in progress there, whose write would miss the new place. -/
def execRelocationCopyComplete (m : Nat) (s : State) : Host.Outcome State Fault Refusal :=
  s.run .core fun c =>
    let q := c.get (A.hbm m) R.HBM_RELOC_channel
    if c.hbmUp m && c.hbmCopying m && !(((c.hpc m q).holder.toList ++ (c.hpc m q).suspended).any fun r => r.req == 4) then
      let v := c.hb m
      let dest (o : Nat) : Option Nat :=
        if o / 2048 % 32 != q then none
        else (Chip.shareGranule (o / 65536 * 2048 + o % 2048)).map fun k => stackOffset (Chip.reservePlace q k).1 ((Chip.reservePlace q k).2 + o % 2048)
      let mem := v.mem.foldl (fun (t : Tbl (Option Byte)) x => match dest x.1 with
        | some o => t.set o x.2
        | none => t) v.mem
      let planted := v.planted.foldl (fun (t : Tbl Nat) x => match dest x.1 with
        | some o => t.set o x.2
        | none => t) v.planted
      ((c.setHb m { v with mem, planted }).put (A.hbm m) R.HBM_RELOC_copying 0).rehomeWaiting m q
    else c

/-- HBM_PLL_LOSS (R360): every pseudo-channel of the stack is retired abruptly (DESIGN CHOICE, notes/assumptions/55.md). -/
def execHbmPllLoss (m : Nat) (s : State) : Host.Outcome State Fault Refusal :=
  s.run .core fun c =>
    if c.hbmUp m && c.hbmState m != 0 && c.hbmState m != 7 then
      let c := c.report (phyUnit m) K.hbmPllLoss 3
      let c := (c.when (c.trainingOn m) fun c => c.trainDone m 3).put (A.hbm m) R.HBM_RELOC_copying 0
      let c := c.each (List.range 32) fun c pc =>
        let p := c.hpc m pc
        let c := c.each (p.holder.toList ++ p.suspended) fun c r => c.abandonReq m pc r
        ((c.setHpc m pc { p with holder := none, suspended := [] }).rehomeWaiting m pc).retirePc m pc 4
      (c.setHbmState m 7).syncInnk m
    else c

end Sys2Proof.Machine
end

