-- ==== Sys2Proof/Machine/House.lean ====
section
/-! DEFINITION. The housekeeper (spec/19_housekeeper_power_ageing.md R407 to R428): slice sleep and wake, the night window, adaptive
voltage, ageing monitors and re-planning, temperature, supply sag, and the keepsake window. -/

namespace Sys2Proof.Machine

open Sys2Proof

/-! ### Slice sleep -/

namespace Chip

def setHouse (c : Chip) (v : House) : Chip := { c with house := v }

/-- Window bases of a slice. -/
def sliceWins (s : Nat) : List Nat :=
  [0x440000, 0x441000, 0x450000, 0x460000, 0x461000, 0x470000, 0x470040, 0x470080, 0x4700C0, 0x470100, 0x490000, 0x490040, 0x810000,
    0x810040, 0x810080, 0x8100C0].map (A.slice s + ·)

/-- A reset that runs or is held covers a part of slice `s`. -/
def sliceReset (c : Chip) (s : Nat) : Bool :=
  (c.rst.running.map RunReset.unit ++ c.rst.held).any fun u =>
    (c.members u).any fun v => U.sliceOf v == some s || (c.parents (U.slice s)).contains v

/-- A port keeps its slice from sleeping neither by its link nor by a hold (R408). -/
def portQuiet (c : Chip) (p : Nat) : Bool :=
  let b := A.port p
  if c.on b R.PORT_STATUS_link_up then c.on b R.PORT_STATUS_tx_lpi && c.on b R.PORT_STATUS_rx_lpi else (c.prt p).hold.isNone

/-- No frame and no copy in the slice (R408). -/
def sliceEmpty (c : Chip) (s : Nat) : Bool :=
  ((c.sch s).copies.all fun x => x.2.isEmpty) && c.coachUsed s == 0 && c.schedHeld s == 0 && c.schedReserved s == 0 &&
    !(c.frames.any fun x => match x.2 with
      | some f => f.slice == s && f.staged
      | none => false) && (c.front s).release.isEmpty

/-- No work of a command runs in the slice (R408). -/
def sliceIdle (c : Chip) (s : Nat) : Bool :=
  !((sliceWins s).any c.winBusy) && !(c.applies.any fun x => x.2.isSome && x.1 / 0x01000000 == A.slice s / 0x01000000) && !(c.sliceReset s) &&
    (c.front s).failovers.isEmpty && !(c.on (A.slice s) R.STORE_CHECK_busy) &&
    !(c.mem.any fun x => x.2.filling.isSome && U.sliceOf x.1 == some s)

/-- The conditions of R408 hold for one slice. -/
def maySleep (c : Chip) (s : Nat) : Bool :=
  c.sliceEnabled s && c.house.sleep.look s == 0 && c.on 0 R.SLEEP_CTRL_enable && c.get 0 R.SLEEP_MASK_allow / 2 ^ s % 2 == 1 &&
    ((List.range 16).all fun q => !((c.portRec (16 * s + q)).isSome) || c.portQuiet (16 * s + q)) && c.sliceEmpty s && c.sliceIdle s

/-- Slices that sleep together with slice `s` (DESIGN CHOICE, notes/assumptions/58.md). -/
def sleepers (c : Chip) (s : Nat) : List Nat := (c.members (U.slice s)).map U.index

/-- Set the phase of a slice and its bits of SLEEP_STATE (Table 19-7): waking while it enters sleep or wakes; asleep until it resumes. -/
def setPhase (c : Chip) (s phase : Nat) : Chip :=
  let b := fun (old : Nat) (v : Bool) => old - (old / 2 ^ s % 2) * 2 ^ s + b2n v * 2 ^ s
  let down := c.get 0 R.SLEEP_STATE_asleep / 2 ^ s % 2 == 1
  let c := c.setHouse { c.house with sleep := c.house.sleep.set s phase }
  let c := c.put 0 R.SLEEP_STATE_waking (b (c.get 0 R.SLEEP_STATE_waking) (phase == 1 || phase == 3 || phase == 4))
  c.put 0 R.SLEEP_STATE_asleep (b (c.get 0 R.SLEEP_STATE_asleep) (phase == 2 || (down && phase != 0)))

def causeOf (c : Chip) (s : Nat) : Bool := c.house.cause.getLsbD s

end Chip

/-- SLEEP_ENTRY (R408, R409): the conditions have held for sleep_idle_us; the members of a suite sleep together
(DESIGN CHOICE, notes/assumptions/10.md; DESIGN CHOICE, notes/assumptions/58.md). -/
def execSleepEntry (sl : Nat) (s : State) : Host.Outcome State Fault Refusal :=
  s.run .core fun c =>
    if sl < 8 && (c.sleepers sl).all c.maySleep then
      c.each (c.sleepers sl) fun c k => (c.setHouse { c.house with cause := c.house.cause &&& ~~~(BitVec.ofNat 8 (2 ^ k)) }).setPhase k 1
    else c

/-- SLEEP_ENTRY_COMPLETE (Table 19-1). -/
def execSleepEntryComplete (sl : Nat) (s : State) : Host.Outcome State Fault Refusal :=
  s.run .core fun c =>
    if sl < 8 && c.house.sleep.look sl == 1 && !(c.causeOf sl) then
      (c.setPhase sl 2).cnt (C.sleep_entries + 0x20 * sl) 1
    else c

/-- SLICE_WAKE (R409, R411): a cause has come; the members of a suite wake together (DESIGN CHOICE, notes/assumptions/58.md). -/
def execSliceWake (sl : Nat) (s : State) : Host.Outcome State Fault Refusal :=
  s.run .core fun c =>
    if sl < 8 && (c.sleepers sl).any c.causeOf then
      c.each (c.sleepers sl) fun c k =>
        if c.house.sleep.look k == 1 || c.house.sleep.look k == 2 then
          (c.setHouse { c.house with cause := c.house.cause &&& ~~~(BitVec.ofNat 8 (2 ^ k)) }).setPhase k 3
        else c
    else c

/-- WAKE_CMD (R410). -/
def Chip.wakeGo (c : Chip) (mask : Nat) : Chip :=
  (c.put 0 R.WAKE_CMD_mask mask).each ((List.range 8).filter fun k => mask / 2 ^ k % 2 == 1) fun c k => c.wakeCause k

/-- WAKE_CMD (R410). -/
def execWakeCmd (src : Source) (mask : Nat) (s : State) : Host.Outcome State Fault Refusal :=
  s.bus src R.WAKE_CMD true fun c => c.wakeGo mask

/-- At resume the wake store drains first, in order of arrival (R412) (DESIGN CHOICE, notes/assumptions/58.md). -/
def Chip.drainWake (c : Chip) (s : Nat) : Chip :=
  let l := c.house.wakeStore.look s
  (c.setHouse { c.house with wakeStore := c.house.wakeStore.clear s }).each l fun c w =>
    match w with
    | .frame id => c.updFr id fun f => { f with stage := .waiting }
    | .cell k x => if x.barrier then c.barrierIn s x.src k else c.cellIn s k x

/-- WAKE_COMPLETE (Table 19-2). -/
def execWakeComplete (sl : Nat) (s : State) : Host.Outcome State Fault Refusal :=
  s.run .core fun c =>
    if sl < 8 && (c.house.sleep.look sl == 3 || c.house.sleep.look sl == 4) then
      ((c.setPhase sl 0).drainWake sl).each (List.range 16) fun c q => c.when (c.portRec (16 * sl + q)).isSome fun c => c.schedSync (16 * sl + q)
    else c

/-- PLL_PRIMARY_TIMEOUT (R411): the backup set starts. -/
def execPllPrimaryTimeout (sl : Nat) (s : State) : Host.Outcome State Fault Refusal :=
  s.run .core fun c =>
    if sl < 8 && c.house.sleep.look sl == 3 then
      (((c.setPhase sl 4).cnt (C.wake_fallback + 0x20 * sl) 1).report (U.sliceBlk sl 0x90) K.sliceWakeFail 3 1).put 0 R.HK_EVENT_wake_fail 1
    else c

/-! ### The night window (R415) -/

namespace Chip

/-- TB0 stands in the night window, and the window is enabled. -/
def nightDue (c : Chip) : Bool :=
  let m := (((c.tb 0).sec % 86400 / 60 : Nat) + signed 16 (c.get 0 R.NIGHT_OFFSET_offset_min)) % 1440
  let a : Int := c.get 0 R.NIGHT_CTRL_start_min
  let b : Int := c.get 0 R.NIGHT_CTRL_end_min
  c.on 0 R.NIGHT_CTRL_enable && (if a ≤ b then decide (a ≤ m) && decide (m < b) else decide (a ≤ m) || decide (m < b))

/-- Hold the innkeeper of an enabled stack: it spills nothing and fetches every bundle back. -/
def nightHold (c : Chip) (m : Nat) : Chip :=
  if c.halfEnabled m && !(c.house.nightHeld.look m) then
    let c := c.setHouse { c.house with nightHeld := c.house.nightHeld.set m true }
    ((c.setInnk m { c.innk m with nightHold := true }).syncInnk m).put 0 R.HK_STATUS_hbm_held 1
  else c

/-- The housekeeper writes an entry op to HBM_PWR. -/
def nightEntry (c : Chip) (m : Nat) : Chip :=
  let r := (c.put (A.hbm m) R.HBM_PWR_op 0).selfRefresh m
  (r.1.put (A.hbm m) R.HBM_PWR_result r.2).setHouse { r.1.house with nightOp := r.1.house.nightOp.set m (some c.now) }

/-- At the end of the window: an exit op, and the hold is released. -/
def nightRelease (c : Chip) (m : Nat) : Chip :=
  if !(c.house.nightHeld.look m) then c
  else
    let st := c.hbmState m
    let c := c.put (A.hbm m) R.HBM_PWR_op 1
    let c := if !(c.hbmUp m) then c else if st = 0 || st = 7 then c.put (A.hbm m) R.HBM_PWR_result 3
      else (c.selfRefreshLeave m).put (A.hbm m) R.HBM_PWR_result 0
    let c := c.setHouse { c.house with nightHeld := c.house.nightHeld.clear m, nightOp := c.house.nightOp.clear m }
    (c.setInnk m { c.innk m with nightHold := false }).syncInnk m

end Chip

/-- NIGHT_WINDOW_START (DESIGN CHOICE, notes/assumptions/58.md). -/
def execNightWindowStart (s : State) : Host.Outcome State Fault Refusal :=
  s.run .core fun c =>
    if c.nightDue then
      (c.put 0 R.HK_STATUS_night 1).when (c.on 0 R.NIGHT_CTRL_hbm_sleep) fun c => (c.nightHold 0).nightHold 1
    else c

/-- NIGHT_SELF_REFRESH_ENTRY: the stack's bundles are all back. -/
def execNightSelfRefreshEntry (m : Nat) (s : State) : Host.Outcome State Fault Refusal :=
  s.run .core fun c =>
    if m < 2 && c.house.nightHeld.look m && (c.house.nightOp.look m).isNone && (c.innk m).bundles.isEmpty && c.hbmUp m then c.nightEntry m else c

/-- SELF_REFRESH_RETRY: an entry that was refused, 1 ms later. -/
def execSelfRefreshRetry (m : Nat) (s : State) : Host.Outcome State Fault Refusal :=
  s.run .core fun c =>
    match c.house.nightOp.look m with
    | some t =>
      if m < 2 && c.house.nightHeld.look m && c.get (A.hbm m) R.HBM_PWR_result != 0 && c.hbmUp m && c.passedUs t 1000 then c.nightEntry m else c
    | none => c

/-- NIGHT_WINDOW_END. -/
def execNightWindowEnd (s : State) : Host.Outcome State Fault Refusal :=
  s.run .core fun c =>
    if c.on 0 R.HK_STATUS_night && !(c.nightDue) then
      (((c.put 0 R.HK_STATUS_night 0).nightRelease 0).nightRelease 1).put 0 R.HK_STATUS_hbm_held 0
    else c

/-! ### Adaptive voltage (R416 to R418) -/

/-- VOUT_COMMAND (PRESUMED, notes/assumptions/59.md). -/
def voutCommand : Nat := 0x21

/-- Temperature band of a temperature (R417). -/
def tempBand (t : Int) : Nat := if t < 25 then 0 else if t < 55 then 1 else if t < 85 then 2 else if t < 100 then 3 else 4

/-- The value that the plan gives for the band in force, within floor_mv and ceil_mv (PRESUMED, notes/assumptions/59.md). -/
def Chip.avsTarget (c : Chip) : Option Nat :=
  (c.house.plan[c.get 0 R.AVS_STATUS_band]?).map fun v => Nat.max (c.get 0 R.AVS_CTRL_floor_mv) (Nat.min v (c.get 0 R.AVS_CTRL_ceil_mv))

/-- Command a set point (PRESUMED, notes/assumptions/59.md). -/
def Chip.avsCommand (c : Chip) (old new tries : Nat) : Chip :=
  ((c.put 0 R.AVS_STATUS_set_mv new).emit (.pmbus voutCommand new)).setHouse
    { c.house with avsWait := some (old, tries, c.now), avsLast := if tries = 0 then c.now else c.house.avsLast }

/-- A command failed for the fourth time: stuck at the set point before, and PMBUS_FAIL with the command's code (R418). -/
def Chip.avsFail (c : Chip) (old code : Nat) : Chip :=
  let c := ((c.setHouse { c.house with avsWait := none }).put 0 R.AVS_STATUS_set_mv old).put 0 R.AVS_STATUS_stuck 1
  (c.report 0xD030 K.pmbusFail 2 code).put 0 R.HK_EVENT_pmbus_fail 1

/-- AVS_STEP (R417): 5 mV towards the target, up every 100 µs and down every 1 ms at most, down not while a sag stands
(PRESUMED, notes/assumptions/59.md). -/
def execAvsStep (s : State) : Host.Outcome State Fault Refusal :=
  s.run .aon fun c =>
    match c.avsTarget with
    | none => c
    | some t =>
      let now := c.get 0 R.AVS_STATUS_set_mv
      if !(c.on 0 R.AVS_CTRL_enable) || c.on 0 R.AVS_STATUS_stuck || c.house.avsWait.isSome || c.house.unsteered then c
      else if now + 5 ≤ t && c.passedUs c.house.avsLast 100 then (c.avsCommand now (now + 5) 0).cnt C.avs_steps 1
      else if t + 5 ≤ now && c.passedUs c.house.avsLast 1000 && !(c.on 0 R.SAG_STATUS_nv_low) && !(c.on 0 R.SAG_STATUS_core_low) then
        (c.avsCommand now (now - 5) 0).cnt C.avs_steps 1
      else c

/-- AVS_VERIFY (R417, R418): READ_VOUT 200 µs after the command; up to three repeats, then stuck at the set point before. After a command
that failed no READ_VOUT is read (PRESUMED, notes/assumptions/59.md). -/
def execAvsVerify (readback : PmbusAnswer) (s : State) : Host.Outcome State Fault Refusal :=
  s.run .aon fun c =>
    match c.house.avsWait with
    | none => c
    | some (old, tries, t) =>
      let now := c.get 0 R.AVS_STATUS_set_mv
      let again (c : Chip) (code : Nat) : Chip :=
        if tries < 3 then (c.avsCommand old now (tries + 1)).cnt C.pmbus_retries 1 else c.avsFail old code
      match readback with
      | .failed code => again c code
      | .vout mv =>
        if !(c.passedUs t 200) then c
        else
          let c := c.put 0 R.AVS_STATUS_read_mv mv
          if mv ≤ now + 10 && now ≤ mv + 10 then c.setHouse { c.house with avsWait := none } else again c voutCommand

/-! ### Ageing (R419 to R421) -/

/-- Nanoseconds of a day. -/
def dayNs : Nat := 86400000000000

/-- Monitors that are read. -/
def monitorCount : Nat := 96

/-- The eight numbers of a monitor's reading as it is passed: loss in ppm, slack and slack at the ceiling voltage in ps (16-bit signed),
and the lowest voltage of each band in mV, without guard. -/
def mkReading (l : List Nat) : AgeReading :=
  { loss := l.getD 0 0, slack := signed 16 (l.getD 1 0), slackCeil := signed 16 (l.getD 2 0), vmin := (List.range 5).map fun b => l.getD (3 + b) 0 }

namespace Chip

/-- AGEING_MARGIN is sent (R421) (DEDUCED, notes/assumptions/60.md). -/
def ageingMargin (c : Chip) (addr : Nat) : Chip := (c.report 0xD030 K.ageingMargin 2 addr).put 0 R.HK_EVENT_ageing 1

/-- One monitor's new reading; a slack that falls below the warning is sent (R421). -/
def takeReading (c : Chip) (i : Nat) (r : AgeReading) : Chip :=
  let warn : Int := c.get 0 R.HK_AGE_CTRL_slack_warn_ps
  let fell := decide (r.slackCeil < warn) && (match c.house.monitors.look i with
    | some o => decide (warn ≤ o.slackCeil)
    | none => true)
  (c.setHouse { c.house with monitors := c.house.monitors.set i (some r) }).when fell fun c => c.ageingMargin i

/-- AGE_STATUS follows. -/
def syncAge (c : Chip) : Chip :=
  let days := match c.house.replanDone with
    | some t => Nat.min 255 ((c.now - t) / dayNs)
    | none => 0
  (c.put 0 R.AGE_STATUS_days_since days).put 0 R.AGE_STATUS_deferred (c.house.items.filter fun x => x.2.2).length

/-- The largest lowest voltage of every monitor in a band, guard added, rounded up to 5 mV. -/
def planBand (c : Chip) (b : Nat) : Nat :=
  let g := c.get 0 R.AVS_GUARD_guard_mv
  ((c.house.monitors.foldl (fun n x => match x.2 with
    | some r => Nat.max n (r.vmin.getD b 0 + g)
    | none => n) 0) + 4) / 5 * 5

/-- The set point table (R419, R421). -/
def replanVoltage (c : Chip) : Chip :=
  let ceil := c.get 0 R.AVS_CTRL_ceil_mv
  let raw := (List.range 5).map c.planBand
  let plan := raw.map fun v => Nat.min v ceil
  let c := (c.setHouse { c.house with plan }).hkRecord (.plan plan)
  c.each ((List.range 5).filter fun b => decide (ceil < raw.getD b 0)) fun c b => c.ageingMargin (2 ^ 11 + b * 256)

/-- A re-plan has completed. -/
def replanDone (c : Chip) : Chip := ((c.setHouse { c.house with replanDone := some c.now }).put 0 R.HK_EVENT_replan_done 1).syncAge

/-- The items of a re-plan besides the set point table: row of Table 19-3 and unit (DEDUCED, notes/assumptions/60.md). -/
def replanItems (c : Chip) : List (Nat × Nat × Bool) :=
  let slices := (List.range 8).filter c.sliceEnabled
  let lanes := (List.range 128).filter fun q => (c.portOfLane q).isSome
  let hbmUnits := (List.range 2).filter c.halfEnabled
  (slices.map fun k => (1, k, false)) ++ (slices.map fun k => (2, k, false)) ++ (lanes.map fun q => (3, q, false)) ++
    hbmUnits.map fun m => (4, m, false)

/-- The condition of Table 19-3 for an item (DEDUCED, notes/assumptions/60.md). -/
def itemReady (c : Chip) (row unit : Nat) : Bool :=
  match row with
  | 3 =>
    match c.portOfLane unit with
    | some r =>
      let b := A.port r.first
      !(c.on b R.PORT_STATUS_link_up) || (c.on b R.PORT_STATUS_tx_lpi && c.on b R.PORT_STATUS_rx_lpi) || c.house.sleep.look (unit / 16) == 2
    | none => true
  | 4 => c.on 0 R.HK_STATUS_night && c.hbmUp unit && c.hbmState unit == 2
  | _ => c.house.sleep.look unit == 2 && !(c.causeOf unit)

/-- What an item does beyond its trims: training in service of each pseudo-channel of a stack (R355) (DEDUCED, notes/assumptions/60.md). -/
def itemRun (c : Chip) (row m : Nat) : Chip :=
  if row = 4 then
    c.trainStart m (c.hbmPcs m)
  else c

end Chip

/-- AGEING_MONITOR_READ (R419): eight numbers for each monitor, as `mkReading` reads them. -/
def execAgeingMonitorRead (values : List Nat) (s : State) : Host.Outcome State Fault Refusal :=
  s.run .aon fun c =>
    (c.each ((List.range monitorCount).filter fun i => decide (8 * i + 8 ≤ values.length)) fun c i =>
      c.takeReading i (mkReading ((values.drop (8 * i)).take 8))).syncAge

/-- REPLAN (R419): the first plan for the set point alone, then every replan_days (DEDUCED, notes/assumptions/60.md). -/
def execReplan (s : State) : Host.Outcome State Fault Refusal :=
  s.run .aon fun c =>
    if !c.image.applied || c.house.monitors.isEmpty then c
    else
      match c.house.replanAt with
      | none => (((c.replanVoltage.setHouse { c.replanVoltage.house with replanAt := some c.now }).cnt C.replans 1)).replanDone
      | some t =>
        if t + c.get 0 R.HK_AGE_CTRL_replan_days * dayNs ≤ c.now then
          let c := c.replanVoltage
          ((c.setHouse { c.house with replanAt := some c.now, items := c.replanItems }).cnt C.replans 1).syncAge
        else c

/-- REPLAN_ITEM (R419 to R421): item `item` of those due runs when its condition holds, a deferred one in the night window; one whose
condition has not come within 24 h is deferred (DEDUCED, notes/assumptions/60.md). -/
def execReplanItem (item : Nat) (s : State) : Host.Outcome State Fault Refusal :=
  s.run .aon fun c =>
    match c.house.items[item]?, c.house.replanAt with
    | some (row, unit, deferred), some t =>
      let key := row * 256 + unit
      if c.itemReady row unit && (!deferred || c.on 0 R.HK_STATUS_night) then
        let items := c.house.items.eraseIdx item
        let runs := if deferred then c.house.deferRuns else c.house.deferRuns.clear key
        let c := (c.itemRun row unit).setHouse { (c.itemRun row unit).house with items, deferRuns := runs }
        if items.isEmpty then c.replanDone else c.syncAge
      else if !deferred && decide (t + dayNs ≤ c.now) then
        let n := c.house.deferRuns.look key + 1
        let c := c.setHouse { c.house with items := setAt c.house.items item (row, unit, true), deferRuns := c.house.deferRuns.set key n }
        (((c.cnt C.replan_deferred 1).when (n == 4) fun c => c.ageingMargin (2 ^ 12 + row * 2 ^ 13))).syncAge
      else c
    | _, _ => c

/-! ### Temperature (R422, R423) -/

/-- The hottest of a list of readings and its index (DESIGN CHOICE, notes/assumptions/61.md). -/
def hottest (l : List Int) : Int × Nat :=
  ((List.range l.length).zip l).foldl (fun (a : Int × Nat) x => if a.1 < x.2 then (x.2, x.1) else a) (l.headD 0, 0)

/-- THERMAL_SAMPLE (R422, R423): the readings of the die sensors as signed bytes (DESIGN CHOICE, notes/assumptions/61.md). -/
def execThermalSample (temps : List Nat) (s : State) : Host.Outcome State Fault Refusal :=
  s.run .aon fun c =>
    if temps.isEmpty then c
    else
      let l := temps.map (signed 8)
      let h := hottest l
      let warn : Int := signed 8 (c.get 0 R.THERM_CTRL_warn_c)
      let trip : Int := signed 8 (c.get 0 R.THERM_CTRL_trip_c)
      let c := c.setHouse { c.house with temps := l }
      let c := ((c.put 0 R.THERM_STATUS_hottest_c (h.1 % 256).toNat).put 0 R.THERM_STATUS_sensor h.2).put 0 R.AVS_STATUS_band (tempBand h.1)
      let c :=
        if !c.house.warned && decide (warn ≤ h.1) then
          ((c.setHouse { c.house with warned := true }).report 0xD030 K.thermalWarn 2 h.2).put 0 R.HK_EVENT_therm_warn 1
        else if c.house.warned && decide (h.1 ≤ warn - 5) then (c.setHouse { c.house with warned := false }).endCond 0xD030 K.thermalWarn
        else c
      if decide (trip ≤ h.1) && !c.power.halted then
        let c := (c.emit .thermTrip).report 0xD030 K.thermalTrip 5
        { c with power := { c.power with halted := true } }
      else c

/-! ### Supply sag and the keepsake store (R424 to R427) -/

/-- Base of the keepsake window. -/
def keepWin : Nat := 0x7100

/-- SUPPLY_SAG (R424): rail 0 is VDD_NV, 1 VDD_CORE. Line writes stop; one that waits in the window is not made (R425)
(DESIGN CHOICE, notes/assumptions/61.md). -/
def execSupplySag (rail : Nat) (s : State) : Host.Outcome State Fault Refusal :=
  s.run .aon fun c =>
    let f := if rail = 0 then R.SAG_STATUS_nv_low else R.SAG_STATUS_core_low
    if 2 ≤ rail || c.on 0 f then c
    else
      let c := ((c.put 0 f 1).put 0 R.SAG_STATUS_stopped 1).put 0 R.HK_STATUS_writes_stopped 1
      let waits := c.house.queue.any fun r => match r with
        | .line _ _ => true
        | _ => false
      let c := c.when waits fun c =>
        { c.setHouse { c.house with queue := c.house.queue.filter fun r => match r with
            | .line _ _ => false
            | _ => true } with
          wins := c.wins.set keepWin (some { code := 0x0A }) }
      let addr := b2n (c.on 0 R.SAG_STATUS_nv_low) + 2 * b2n (c.on 0 R.SAG_STATUS_core_low)
      (((c.cnt C.sag_events 1).put 0 R.HK_EVENT_sag 1).put 0 R.LEDGER_STATUS_jrn_stopped (b2n (!c.ledger.jrnQueue.isEmpty))).report 0xD030
        K.supplySag 2 addr

/-- KEEPSAKE_WRITES_RESUME (R424): both rails have stood above for 10 ms without a break (DESIGN CHOICE, notes/assumptions/61.md). -/
def execKeepsakeWritesResume (s : State) : Host.Outcome State Fault Refusal :=
  s.run .aon fun c =>
    if c.on 0 R.SAG_STATUS_stopped then
      let c := (((c.put 0 R.SAG_STATUS_stopped 0).put 0 R.SAG_STATUS_nv_low 0).put 0 R.SAG_STATUS_core_low 0).put 0 R.HK_STATUS_writes_stopped 0
      ({ c with ledger := { c.ledger with jrnLost := false } }.put 0 R.LEDGER_STATUS_jrn_stopped 0).endCond 0xD030 K.supplySag
    else c

/-- Run a bus access that reads or writes the keepsake store. -/
def State.busNv (s : State) (src : Source) (a : Nat) (write : Bool) (f : Nv → Fuses → Chip → Chip × Nv × Fuses) :
    Host.Outcome State Fault Refusal :=
  s.runNv .core fun nv fu c =>
    if c.allowed src a write then (if c.visible a then f nv fu c else if write then (c, nv, fu) else ({ c with busData := 0 }, nv, fu))
    else if write then (c.denied src, nv, fu) else ({ c.denied src with busData := 0 }, nv, fu)

/-- What a half-line of the keepsake store reads as (R427, Table 19-5): journal records, four to a line; software's bytes; a free value
where nothing was written or where the layout is the housekeeper's own (DESIGN CHOICE, notes/assumptions/4.md). -/
def Nv.half (nv : Nv) (free : Entry) (h : Nat) : Entry :=
  let rec_ (i : Nat) : Option (BitVec 128) := Tbl.find nv.journal i
  if h < 0x8000 && ((rec_ (2 * h)).isSome || (rec_ (2 * h + 1)).isSome) then
    BitVec.ofNat 256 (((rec_ (2 * h)).getD 0).toNat + ((rec_ (2 * h + 1)).getD 0).toNat * 2 ^ 128)
  else if nv.written.look h then BitVec.ofNat 256 (ofLE (nv.mem.bytes (32 * h) 32))
  else free

/-- READ of the window: words 4h to 4h + 3 of group 0xD048 (DESIGN CHOICE, notes/assumptions/4.md). -/
def Chip.keepRead (c : Chip) (src : Source) (nv : Nv) : Chip :=
  c.winGo src keepWin 1 fun w c =>
    if 0x100000 ≤ w.index then (c, { code := 6 })
    else
      let f := c.freeEntry
      let bad := (List.range 4).any fun j => f.2.poisoned 0xD048 (4 * w.index + j)
      (f.2.readPoison 0xD048 (4 * w.index) 4, { code := 0, data := some (nv.half f.1 w.index), poison := bad })

/-- WRITE of the window: refused below line 0x1_0000, and while writes are stopped; else the line write is queued (R425, R427). -/
def Chip.keepWrite (c : Chip) (src : Source) : Chip :=
  let i := c.get keepWin R.WIN_ADDR_index
  if i < 0x20000 || 0x100000 ≤ i || c.on 0 R.SAG_STATUS_stopped then
    c.winGo src keepWin 2 fun _ c => (c, { code := if i < 0x20000 || 0x100000 ≤ i then 6 else 0x0A })
  else c.winLater src keepWin 2 fun w c => (c.setHouse { c.house with queue := c.house.queue ++ [.line w.index w.data] }, none)

/-- KEEPSAKE_READ (R427) (DESIGN CHOICE, notes/assumptions/4.md). -/
def execKeepsakeRead (src : Source) (s : State) : Host.Outcome State Fault Refusal :=
  s.busNv src (keepWin + 4) true fun nv fu c => (c.keepRead src nv, nv, fu)

/-- KEEPSAKE_WRITE (R427). -/
def execKeepsakeWrite (src : Source) (s : State) : Host.Outcome State Fault Refusal :=
  s.busNv src (keepWin + 4) true fun nv fu c => (c.keepWrite src, nv, fu)

/-- The store after a record of the housekeeper, and the line written (Table 19-5) (DESIGN CHOICE, notes/assumptions/62.md). -/
def Nv.store (nv : Nv) (r : HkRec) : Nv × Nat :=
  match r with
  | .retire m pc => ({ nv with retired := if nv.retired.contains (m, pc) then nv.retired else nv.retired ++ [(m, pc)] }, 0x4000)
  | .unretire m pc => ({ nv with retired := nv.retired.filter (· != (m, pc)) }, 0x4000)
  | .remap u row spare => ({ nv with remaps := (nv.remaps.filter fun x => !(x.1 == u && x.2.1 == row)) ++ [(u, row, spare)] }, 0x4000)
  | .unmap u row => ({ nv with remaps := nv.remaps.filter fun x => !(x.1 == u && x.2.1 == row) }, 0x4000)
  | .plan mv => ({ nv with plan := mv }, 0x4400)
  | .boot slot => ({ nv with bootSlot := slot }, 0x4000)
  | .line h e => ({ nv with mem := nv.mem.setBytes (32 * h) (toLE 32 e.toNat), written := nv.written.set h true }, h / 2)

/-- KEEPSAKE_LINE_WRITE (R424 to R426): the oldest record that waits is written; none while writes are stopped
(DESIGN CHOICE, notes/assumptions/62.md). -/
def execKeepsakeLineWrite (s : State) : Host.Outcome State Fault Refusal :=
  s.runNv .aon fun nv fu c =>
    match c.house.queue with
    | [] => (c, nv, fu)
    | r :: q =>
      if c.on 0 R.SAG_STATUS_stopped then (c, nv, fu)
      else
        let w := nv.store r
        let c := c.setHouse { c.house with queue := q }
        let c := match r with
          | .line h _ =>
            let c := c.each (List.range 4) fun c j => c.coverWord 0xD048 (4 * h + j)
            { c with wins := c.wins.set keepWin (some { code := 0 }) }
          | _ => c
        let x := c.lineWrite w.1 w.2
        (x.1, x.2, fu)

end Sys2Proof.Machine
end

