-- ==== Sys2Proof/Machine/HostIf.lean ====
section
/-! DEFINITION. The host interface and control complex (spec/20_host_interface.md R429 to R445): endpoint, virtual functions, interrupt
lines, DMA rings (punt, inject, event), control cores and their watchdogs, and the management MACs. -/

namespace Sys2Proof.Machine

open Sys2Proof

namespace Chip

/-! ### Rings (R437) -/

/-- The PCIe link is up and PERST_N is high. -/
def hostUp (c : Chip) : Bool := c.power.pcieUp && c.power.perstHigh

def ring (c : Chip) (r : Nat) : Ring := c.host.rings.look r

def setRing (c : Chip) (r : Nat) (v : Ring) : Chip := { c with host := { c.host with rings := c.host.rings.set r v } }

def ringOn (c : Chip) (r kind : Nat) : Bool := c.on (A.ring r) R.RING_CFG_enable && c.get (A.ring r) R.RING_CFG_kind == kind

def ringHalted (c : Chip) (r : Nat) : Bool := c.on (A.ring r) R.RING_STATUS_halted

/-- Entries of a ring: 2^log2_size, 64 to 65,536. -/
def ringSize (c : Chip) (r : Nat) : Nat := 2 ^ Nat.min 16 (Nat.max 6 (c.get (A.ring r) R.RING_CFG_log2_size))

/-- PI − CI, modulo twice the size. -/
def ringUsed (c : Chip) (r : Nat) : Nat :=
  let n := 2 * c.ringSize r
  (c.get (A.ring r) R.RING_PI_pi % n + n - c.get (A.ring r) R.RING_CI_ci % n) % n

/-- Send the interrupt of a ring's owner (R437): an MSI-X vector of its function, or the core that bits [1:0] name. -/
def ringMessage (c : Chip) (r : Nat) : Chip :=
  let v := c.get (A.ring r) R.RING_CFG_vector
  let o := c.get (A.ring r) R.RING_CFG_owner
  if o = 0x10 then c.emit (.coreIrq (v % 4)) else c.emit (.msix o v)

/-- Write the index that the engine advances to RING_WB, where that is not 0. -/
def writeBack (c : Chip) (r index : Nat) : Chip :=
  let b := A.ring r
  if c.get b R.RING_WB_LO_wb = 0 && c.get b R.RING_WB_HI_wb = 0 then c else c.emit (.writeBack r index)

/-- The index that the engine advances: PI of an event ring, CI of the others. -/
def engineIndex (c : Chip) (r : Nat) : Nat :=
  if c.get (A.ring r) R.RING_CFG_kind = 2 then c.get (A.ring r) R.RING_PI_pi else c.get (A.ring r) R.RING_CI_ci

/-- The ring's interrupt is raised. -/
def ringIrq (c : Chip) (r : Nat) : Chip :=
  let c := (c.setRing r { c.ring r with unsignalled := 0 }).writeBack r (c.engineIndex r)
  (c.put (A.ring r) R.RING_IRQ_pending 1).when (c.on (A.ring r) R.RING_IRQ_enable) fun c => c.ringMessage r

/-- The engine advances its index past one entry, and the completion is signalled now or later. -/
def ringDone (c : Chip) (r : Nat) : Chip :=
  let b := A.ring r
  let f := if c.get b R.RING_CFG_kind = 2 then R.RING_PI_pi else R.RING_CI_ci
  let c := c.put b f ((c.get b f + 1) % (2 * c.ringSize r))
  let g := c.ring r
  let c := c.setRing r { g with unsignalled := g.unsignalled + 1, since := if g.unsignalled = 0 then c.now else g.since }
  let us := c.get b R.RING_IRQ_mod_us
  let n := c.get b R.RING_IRQ_mod_count
  if (us = 0 && n = 0) || (n != 0 && decide (n ≤ g.unsignalled + 1)) then c.ringIrq r else c.writeBack r (c.engineIndex r)

/-- Place of the entry that an index names. -/
def ringPlace (c : Chip) (r i : Nat) : Nat := i % c.ringSize r

/-- A descriptor with a status that completes it with an error, or halts the ring (R440) (DESIGN CHOICE, notes/assumptions/64.md). -/
def descError (c : Chip) (r status : Nat) : Chip :=
  let c := c.report 0xD028 K.dmaDescErr 1 (status * 4096 + r)
  if status = 3 then
    ((c.put (A.ring r) R.RING_STATUS_halted 1).put (A.ring r) R.RING_STATUS_active 0).put (A.ring r) R.RING_STATUS_last_err 3
  else c

/-- The ring is disabled: a descriptor in service completes with status 0x05 (Table 20-10) (DESIGN CHOICE, notes/assumptions/66.md). -/
def ringDisable (c : Chip) (r : Nat) : Chip :=
  let b := A.ring r
  let c := match (c.ring r).desc with
    | some d =>
      let e := putBits (putBits d 127 127 0) 191 184 5
      ((c.emit (.dmaEntry r (c.ringPlace r (c.get b R.RING_CI_ci)) e)).setRing r { c.ring r with desc := none, read := none }).ringDone r
    | none => c
  (c.put b R.RING_CFG_enable 0).put b R.RING_STATUS_active 0

/-- The ring is enabled; a halt ends (R440), and a reserved kind stays idle (DESIGN CHOICE, notes/assumptions/64.md). -/
def ringEnable (c : Chip) (r : Nat) : Chip :=
  let b := A.ring r
  let c := ((c.put b R.RING_CFG_enable 1).put b R.RING_STATUS_halted 0).put b R.RING_STATUS_last_err 0
  c.put b R.RING_STATUS_active (b2n (c.get b R.RING_CFG_kind != 3))

/-! ### Endpoint resets (R431) -/

/-- Disable every ring that a function owns. -/
def ringsOff (c : Chip) (fn : Nat) : Chip :=
  let rs := (c.regs.filter fun p => decide (0x100000 ≤ p.1) && decide (p.1 < 0x140000) && p.1 % 0x40 == 8 && bit p.2 31 &&
    bits p.2 28 24 == fn).map fun p => (p.1 - 0x100000) / 0x40
  c.each rs fun c r => c.ringDisable r

/-- Registers in a range return to their reset values. -/
def resetRange (c : Chip) (lo hi : Nat) : Chip :=
  { c with regs := c.regs.filter fun p => !(decide (lo ≤ p.1) && decide (p.1 < hi)) }

/-- An endpoint reset: rings, grants and latchkeys of PCIe functions. Counters keep R24. -/
def endpointReset (c : Chip) : Chip :=
  let isReg (a : Nat) : Bool := decide (0x100000 ≤ a) && decide (a < 0x140000) && a % 0x40 != 0x28 && a % 0x40 != 0x30 && a % 0x40 != 0x38
  let c := { c with regs := c.regs.filter fun p => !(isReg p.1), host := { c.host with rings := [] } }
  (c.resetRange 0x90000 0x91000).orphanWhere fun l => l.owner == 0xD020

/-! ### Interrupt lines (R434, R435) -/

/-- Some event bit is 1 with its enable bit. -/
def eventOn (c : Chip) (base ev en : Nat) : Bool := c.reg (base + ev) &&& c.reg (base + en) != 0

/-- A register address is an APPLY_STATUS (spec/02_configuration_image.md Table 2-10, 2-11). -/
def isApplyStatus (a : Nat) : Bool :=
  if a < 0x01000000 then a == 0x32FC || a == 0x7FFC || (decide (0x40000 ≤ a) && decide (a < 0x40800) && a % 0x100 == 0xFC)
  else if 0x08000000 ≤ a && a < 0x10000000 then
    let o := a % 0x01000000
    (decide (0x100000 ≤ o) && decide (o < 0x140000) && o % 0x4000 == 0x3FFC) || (decide (0x200000 ≤ o) && decide (o < 0x222000) && o % 0x1000 == 0xFFC)
      || o == 0x4FFFFC || o == 0xBFFFFC
  else if 0x10000000 ≤ a && a < 0x14000000 then a % 0x02000000 == 0xFFFFC || a % 0x02000000 == 0x4FFFFC
  else if 0x14000000 ≤ a && a < 0x14400000 then a % 0x100000 == 0xFFFFC
  else decide (0x15000000 ≤ a) && decide (a < 0x15800000) && a % 0x400000 == 0x3FFFFC

def tbIrq (c : Chip) (t : Nat) : Bool := c.eventOn (A.tb t) R.TB_EVENT R.TB_EVENT_EN

/-- The line of an interrupt group (Table 20-4) (DEDUCED, notes/assumptions/69.md). -/
def irqLine (c : Chip) (g : Nat) : Bool :=
  let slices (f : Nat → Bool) : Bool := (List.range 8).any f
  match g with
  | 0 => c.on 0 R.LEDGER_IRQ_pending && c.on 0 R.LEDGER_IRQ_enable
  | 1 => (List.range 128).any fun p => c.eventOn (A.port p) R.PORT_EVENT R.PORT_EVENT_EN || c.eventOn (A.port p) R.GATE_EVENT R.GATE_EVENT_EN
  | 2 => c.eventOn 0 R.ACCORD_EVENT R.ACCORD_EVENT_EN
  | 3 => slices fun s => c.eventOn (A.slice s) R.EM_EVENT R.EM_EVENT_EN
  | 4 => (List.range 2).any fun h => c.eventOn (A.half h) R.LPM_EVENT R.LPM_EVENT_EN
  | 5 => slices fun s => c.eventOn (A.slice s) R.TCAM_EVENT R.TCAM_EVENT_EN
  | 6 => (List.range 4).any fun k => c.eventOn (A.plane k) R.PLANE_EVENT R.PLANE_EVENT_EN
  | 7 => (List.range 2).any fun h => c.eventOn (A.half h) R.INNK_EVENT R.INNK_EVENT_EN
  | 8 => slices fun s => c.eventOn (A.slice s) R.SCHED_EVENT R.SCHED_EVENT_EN
  | 9 => slices c.tbIrq
  | 10 => (List.range 2).any fun m => c.eventOn (A.hbm m) R.HBM_EVENT R.HBM_EVENT_EN
  | 11 => c.regs.any fun p => decide (0x20000000 ≤ p.1) && p.1 % 0x10000 == R.MEM_EVENT && (p.2 &&& c.reg (p.1 + 4) != 0)
  | 12 => c.eventOn 0 R.HK_EVENT R.HK_EVENT_EN
  | 13 => c.regs.any fun p => isApplyStatus p.1 && bit p.2 28
  | 14 => c.host.gpioEdge != 0
  | 15 => c.on (A.mbox 0) R.MBX_STATUS_done && c.on (A.mbox 0) R.MBX_STATUS_irq_en
  | _ => false

/-- Lines by the numbering of `irqSeen`. -/
def lineOf (c : Chip) (i : Nat) : Bool :=
  if i < 16 then c.irqLine i else if i < 24 then c.tbIrq (i - 16)
  else c.on (A.mbox 1) R.MBX_STATUS_done && c.on (A.mbox 1) R.MBX_STATUS_irq_en

/-- A line that has fallen may rise again (DEDUCED, notes/assumptions/69.md). -/
def irqSettle (c : Chip) : Chip :=
  if c.host.irqSeen = 0 then c
  else
    let gone := (((List.range 25).filter fun i => c.host.irqSeen.getLsbD i && !(c.lineOf i)).map fun i => 2 ^ i).sum
    { c with host := { c.host with irqSeen := c.host.irqSeen &&& ~~~(BitVec.ofNat 32 gone) } }

def irqMark (c : Chip) (i : Nat) : Chip := { c with host := { c.host with irqSeen := c.host.irqSeen ||| BitVec.ofNat 32 (2 ^ i) } }

/-- Raise the inputs of the cores in a mask. -/
def coreInputs (c : Chip) (mask : Nat) : Chip := c.each ((List.range 4).filter fun k => mask / 2 ^ k % 2 == 1) fun c k => c.emit (.coreIrq k)

/-- Send a group's message where it is routed (R434) (DESIGN CHOICE, notes/assumptions/63.md). -/
def irqSend (c : Chip) (g : Nat) : Chip :=
  let c := c.when (c.on (4 * g) R.IRQ_ROUTE_pf_en) fun c => c.emit (.msix 0 (c.get (4 * g) R.IRQ_ROUTE_pf_vector))
  c.when (c.on (4 * g) R.IRQ_ROUTE_core_en) fun c => c.coreInputs (c.get (4 * g) R.IRQ_ROUTE_core_mask)

/-- A time base's interrupt also goes to vector 0 of the virtual function that owns it (R434) (DEDUCED, notes/assumptions/69.md). -/
def tbRise (c : Chip) (t : Nat) : Chip :=
  if c.tbIrq t && !(c.host.irqSeen.getLsbD (16 + t)) then
    let o := c.get (A.tb t) R.TB_ACCESS_owner
    (c.irqMark (16 + t)).when (decide (1 ≤ o) && decide (o ≤ 15)) fun c => c.emit (.msix o 0)
  else c

/-- Mailbox channel 1 raises the cores' inputs alone (R435) (DEDUCED, notes/assumptions/69.md). -/
def mailRise (c : Chip) : Chip :=
  if c.lineOf 24 && !(c.host.irqSeen.getLsbD 24) then (c.irqMark 24).coreInputs (c.get 60 R.IRQ_ROUTE_core_mask) else c

end Chip

/-- BAR0_MALFORMED_ACCESS (R430): another size or alignment. -/
def execBar0MalformedAccess (src : Source) (addr size : Nat) (write : Bool) (s : State) : Host.Outcome State Fault Refusal :=
  s.run .core fun c =>
    let good := (size == 4 && addr % 4 == 0) || (size == 8 && addr % 8 == 0)
    match src with
    | .core _ => c
    | _ => if good then c else (if write then c else { c with busData := 0 }).cnt C.bar_bad_access 1

/-- VF_ACCESS_DENIED (R432). -/
def execVfAccessDenied (n addr : Nat) (write : Bool) (s : State) : Host.Outcome State Fault Refusal :=
  s.run .core fun c =>
    if c.allowed (.vf n) addr write then c else (if write then c else { c with busData := 0 }).denied (.vf n)

/-- The speed and the lanes to which the PCIe link trains, the n-th free choice among those of R429
(DESIGN CHOICE, notes/assumptions/63.md). -/
def linkSpeed (n : Nat) : Nat := 1 + (Config.freeByte n).toNat % 5

def linkWidth (n : Nat) : Nat := 2 ^ ((Config.freeByte n).toNat / 5 % 4)

/-- PCIE_LINK_DOWN (R431): a link-down without PERST_N. -/
def execPcieLinkDown (s : State) : Host.Outcome State Fault Refusal :=
  s.run .core fun c =>
    if c.power.pcieUp then
      ({ c with power := { c.power with pcieUp := false } }.setReg R.ENDPOINT_STATUS 0).report 0xD020 K.pcieLinkDown 2
    else c

/-- PCIE_LINK_UP (R429, R431): the link is up at the speed (1 to 5 for 2.5 to 32 GT/s) and over the lanes (1, 2, 4 or 8) to which it
trained: free values (DESIGN CHOICE, notes/assumptions/63.md). -/
def execPcieLinkUp (s : State) : Host.Outcome State Fault Refusal :=
  s.run .core fun c =>
    if c.power.pcieUp || !c.power.perstHigh then c
    else
      let n := c.fresh
      let c := { c with fresh := n + 1, power := { c.power with pcieUp := true } }
      (((c.put 0 R.ENDPOINT_STATUS_link_up 1).put 0 R.ENDPOINT_STATUS_speed (linkSpeed n)).put 0 R.ENDPOINT_STATUS_width (linkWidth n)).endCond 0xD020 K.pcieLinkDown

/-- VF_FLR (R431). -/
def execVfFlr (n : Nat) (s : State) : Host.Outcome State Fault Refusal :=
  s.run .core fun c =>
    if 1 ≤ n && n ≤ 15 then (c.ringsOff n).orphanWhere fun l => l.owner == 0xD020 && l.fn == n else c

/-- IRQ_LINE_RISE (R434, R435): a line that is 1 and was not signalled (DEDUCED, notes/assumptions/69.md). -/
def execIrqLineRise (g : Nat) (s : State) : Host.Outcome State Fault Refusal :=
  s.run .aon fun c =>
    let c := c.irqSettle
    if 16 ≤ g then c
    else
      let c := c.when (c.irqLine g && !(c.host.irqSeen.getLsbD g)) fun c => (c.irqMark g).irqSend g
      if g = 9 then c.each (List.range 8) Chip.tbRise else if g = 15 then c.mailRise else c

/-- IRQ_REARM (R434): each group whose line is still 1 sends again. -/
def Chip.irqRearm (c : Chip) (data : Word) : Chip :=
  c.each ((List.range 16).filter fun g => bit data g && c.irqLine g) fun c g => (c.irqMark g).irqSend g

/-- IRQ_REARM (R434). -/
def execIrqRearm (src : Source) (data : Word) (s : State) : Host.Outcome State Fault Refusal :=
  s.bus src R.IRQ_REARM true fun c => c.irqRearm data

/-! ### Ring registers -/

/-- Write of a ring's enable. -/
def Chip.ringSet (c : Chip) (r : Nat) (enable : Bool) : Chip :=
  if 4096 ≤ r || c.on (A.ring r) R.RING_CFG_enable == enable then c else if enable then c.ringEnable r else c.ringDisable r

/-- Write of a ring's producer index: RO in an event ring. -/
def Chip.ringPi (c : Chip) (r pi : Nat) : Chip :=
  if r < 4096 && c.get (A.ring r) R.RING_CFG_kind != 2 then c.put (A.ring r) R.RING_PI_pi pi else c

/-- Write of a ring's consumer index: RW in an event ring alone. -/
def Chip.ringCi (c : Chip) (r ci : Nat) : Chip :=
  if r < 4096 && c.get (A.ring r) R.RING_CFG_kind == 2 then c.put (A.ring r) R.RING_CI_ci ci else c

/-- RING_ENABLE (R437, R440). -/
def execRingEnable (src : Source) (r : Nat) (enable : Bool) (s : State) : Host.Outcome State Fault Refusal :=
  s.bus src (A.ring r + R.RING_CFG) true fun c => c.ringSet r enable

/-- RING_PI_WRITE (R437). -/
def execRingPiWrite (src : Source) (r pi : Nat) (s : State) : Host.Outcome State Fault Refusal :=
  s.bus src (A.ring r + R.RING_PI) true fun c => c.ringPi r pi

/-- RING_CI_WRITE (R437). -/
def execRingCiWrite (src : Source) (r ci : Nat) (s : State) : Host.Outcome State Fault Refusal :=
  s.bus src (A.ring r + R.RING_CI) true fun c => c.ringCi r ci

/-- RING_IRQ_MODERATION (R437): mod_us after the first completion not yet signalled. -/
def execRingIrqModeration (r : Nat) (s : State) : Host.Outcome State Fault Refusal :=
  s.run .core fun c =>
    let us := c.get (A.ring r) R.RING_IRQ_mod_us
    if r < 4096 && (c.ring r).unsignalled != 0 && us != 0 && c.passedUs (c.ring r).since us then c.ringIrq r else c

/-! ### Punt (R438) -/

namespace Chip

/-- Status of a punt descriptor: 0 good (R440, Table 20-8) (DESIGN CHOICE, notes/assumptions/65.md). -/
def puntDesc (d : Descriptor) : Nat :=
  let n := bits d 79 64
  if n < 256 || 16384 < n || n % 64 != 0 then 1
  else if bits d 95 80 != 0 || bits d 126 96 != 0 || bits d 255 192 != 0 then 6 else 0

/-- Bytes that a list of descriptors takes, bad ones none (DESIGN CHOICE, notes/assumptions/65.md). -/
def puntRoom (l : List Descriptor) : Nat := (l.map fun d => if puntDesc d = 0 then bits d 79 64 else 0).sum

/-- Fill a punt ring's descriptors with the bytes of a frame; bad descriptors complete with their status and are skipped. -/
def puntFill (c : Chip) (r head len : Nat) (first : Bool) : List Byte → List Descriptor → Chip
  | _, [] => c
  | bs, d :: ds =>
    if bs.isEmpty then c
    else
      let at_ := c.ringPlace r (c.get (A.ring r) R.RING_CI_ci)
      let st := puntDesc d
      let d := putBits d 127 127 0
      if st != 0 then
        let c := ((c.emit (.dmaEntry r at_ (putBits d 159 152 st))).descError r st).ringDone r
        puntFill c r head len first bs ds
      else
        let n := bits d 79 64
        let now := bs.take n
        let rest := bs.drop n
        let w4 := b2n first * 2 ^ 23 + b2n (!rest.isEmpty) * 2 ^ 22 + now.length
        let e := putBits (putBits d 159 128 w4) 191 160 (head + len % 2 ^ 14)
        let c := (c.emit (.dmaBuf r (bits d 63 0) now)).emit (.dmaEntry r at_ e)
        puntFill (c.ringDone r) r head len false rest ds

/-- The punt rate bucket of a ring, filled up to now (DESIGN CHOICE, notes/assumptions/64.md). -/
def puntBucket (c : Chip) (r : Nat) : Int :=
  let g := c.ring r
  let x := g.bucket + ((c.get (A.ring r) R.RING_RATE_rate * (c.now - g.filled) : Nat) : Int)
  if x < 5242880000 then x else 5242880000

/-- The next punt of slice `q` (or of management MAC q − 8) is written or dropped. `descs` are the ring's descriptors from CI on, as
fetched; fewer than the frame needs and the ring holds stand for a host access that failed
(DESIGN CHOICE, notes/assumptions/64.md; DESIGN CHOICE, notes/assumptions/65.md). -/
def puntWrite (c : Chip) (q : Nat) (p : Punt) (descs : List Descriptor) : Chip :=
  let f := c.fr p.frame
  let r := p.ring % 4096
  let c := { c with host := { c.host with punts := c.host.punts.upd q List.tail } }
  let body := if p.trunc = 0 then f.bytes else f.bytes.take (256 * p.trunc)
  let data := toLE 64 f.wb.toNat ++ body
  let avail := c.ringUsed r
  let ds := descs.take avail
  let cost : Int := ((f.bytes.length * 80000 : Nat) : Int)
  let unlimited := c.get (A.ring r) R.RING_RATE_rate == 0
  let drop (c : Chip) (cause : Nat) : Chip := (c.dropPunt p.frame r cause).unstage p.frame
  if !(c.ringOn r 0) then drop c 1
  else if c.ringHalted r then drop c 2
  else if !c.hostUp then drop c 3
  else if avail = 0 || (decide (avail ≤ descs.length) && (decide (puntRoom ds < data.length) || ds.any fun d => !(bit d 127))) then drop c 4
  else if !unlimited && decide (c.puntBucket r < cost) then drop c 5
  else if puntRoom ds < data.length || ds.any (fun d => !(bit d 127)) then drop (c.descError r 3) 2
  else
    let c := c.when (!unlimited) fun c => c.setRing r { c.ring r with bucket := c.puntBucket r - cost, filled := c.now }
    let c := c.puntFill r (p.source * 2 ^ 28 + p.reason * 2 ^ 25) f.bytes.length true data ds
    let c := (c.cnt (A.ring r + C.ring_frames) 1).cnt (A.ring r + C.ring_bytes) f.bytes.length
    ((c.unstamp f.slot).unstage p.frame).unhold p.frame

end Chip

/-- PUNT_WRITE (R438): `q` is the slice, or 8 + m for the punts of management MAC m. -/
def execPuntWrite (q : Nat) (descs : List Descriptor) (s : State) : Host.Outcome State Fault Refusal :=
  s.run .core fun c =>
    match c.host.punts.look q with
    | [] => c
    | p :: _ => if (c.fr p.frame).whole && !(c.inReset 0xD028) then c.puntWrite q p descs else c

/-! ### Inject (R439, R440) -/

namespace Inj

def mode (d : Descriptor) : Bool := bit d 95
def len (d : Descriptor) : Nat := bits d 77 64
def own (d : Descriptor) : Bool := bit d 127
def port (d : Descriptor) : Nat := bits d 126 120
def cls (d : Descriptor) : Nat := bits d 119 117
def subscriber (d : Descriptor) : Nat := bits d 116 106
def script (d : Descriptor) : Nat := bits d 157 144
def tag (d : Descriptor) : Nat := bits d 143 128
/-- Reserved fields: word 2 [30:14], word 3 [9:0], word 4 [31:30], words 6 and 7. -/
def reserved (d : Descriptor) : Bool := bits d 94 78 != 0 || bits d 105 96 != 0 || bits d 159 158 != 0 || bits d 255 192 != 0

end Inj

namespace Chip

/-- The management MAC that sends from a ring. -/
def macOf (c : Chip) (r : Nat) : Option Nat :=
  (List.range 2).find? fun m => c.on (A.mgmt m) R.MGMT_CTRL_enable && c.get (A.mgmt m) R.MGMT_CTRL_tx_ring == r

/-- Port `p` is allowed to a ring's owner. -/
def portAllowed (c : Chip) (r p : Nat) : Bool :=
  let o := c.get (A.ring r) R.RING_CFG_owner
  if 1 ≤ o && o ≤ 15 then c.get (0x10 * (o - 1) + 4 * (p / 32)) R.VF_PORTS_ports / 2 ^ (p % 32) % 2 == 1 else true

/-- Status of a fetched inject descriptor: 0 when the frame may be read (Table 20-9, 20-10); a management MAC ignores the port
(DESIGN CHOICE, notes/assumptions/66.md). -/
def injectCheck (c : Chip) (r : Nat) (d : Descriptor) : Nat :=
  if Inj.len d < 60 || 10236 < Inj.len d then 1
  else if (c.macOf r).isNone && (c.noPort (Inj.port d) || !(c.portAllowed r (Inj.port d))) then 2
  else if Inj.reserved d then 6 else 0

/-- Complete the descriptor in service: word 5 is written and own cleared in one entry, and CI advances
(DESIGN CHOICE, notes/assumptions/64.md). -/
def descDone (c : Chip) (r : Nat) (d : Descriptor) (status : Nat) : Chip :=
  let e := putBits (putBits d 127 127 0) 191 184 status
  let c := (c.emit (.dmaEntry r (c.ringPlace r (c.get (A.ring r) R.RING_CI_ci)) e)).setRing r { c.ring r with desc := none, read := none }
  let c := if status = 0 then (c.cnt (A.ring r + C.ring_frames) 1).cnt (A.ring r + C.ring_bytes) (Inj.len d)
    else if status = 4 then c.cnt (A.ring r + C.ring_drops) 1
    else c.descError r status
  c.ringDone r

/-- Cells of a whole frame as they come from the fabric. -/
def frameCells (n : Nat) : List Cell :=
  (List.range (cellsOf n)).map fun i =>
    { first := i == 0, last := i + 1 == cellsOf n, len := if i + 1 = cellsOf n then n - 256 * i else 256, index := i }

/-- R267 for a frame whose cells requester `i` of half `h` allocates: its cells are reserved (DESIGN CHOICE, notes/assumptions/66.md). -/
def admitFor (c : Chip) (h i n : Nat) (wb : BitVec 512) : Chip × Bool :=
  let b := A.half h
  if c.get (b + 4 * Wb.inPri wb) R.INNK_PRI_LIMIT_limit < c.priCells h (Wb.inPri wb) + n then (c.cnt (c.halfCnt h + C.pri_limit_drop) 1, false)
  else if c.canAlloc h i n then (c.useAdd h i n, true) else (c.cnt (b + 0x40 * i + C.refused_admit) 1, false)

/-- Direct mode with the DMA engine as requester `i` of the port's half: it allocates the cells and hands them over (R439, R261).
`true` when a copy joined its queue (DESIGN CHOICE, notes/assumptions/66.md). -/
def injectDirect (c : Chip) (i id : Nat) (wb : BitVec 512) : Chip × Bool :=
  let f := c.fr id
  let s := f.slice
  let n := cellsOf f.bytes.length
  let ok := c.admitFor (s / 4) i n wb
  if !ok.2 then (ok.1.endFrame id, false)
  else
    let a := ok.1.newId
    let c := a.2.setArr a.1 { slice := s, src := s, plane := 4, stream := a.1, frame := id, wb, reserved := n, lodger := 0xD028 }
    let c := c.makeCopies a.1 s n [{ port := Wb.port wb, sub := Wb.subscriber wb, cls := Wb.cls wb, script := Wb.script wb, etag := none, mcast := false }]
    if (c.arr a.1).copies.isEmpty then (c.swallow a.1 { last := true }, false)
    else
      let c := c.each (frameCells f.bytes.length) fun c x => c.landCell a.1 s x
      let c := c.each (c.arr a.1).places fun c w => match w with
        | .die q => c.cellHandover (s / 4) 0xD028 (q * 256) (U.slice s)
        | .bundle _ => c
      ((c.setArr a.1 { c.arr a.1 with lodger := U.slice s }).schedSync (Wb.port wb), true)

/-- The injected frame: FCS appended, stamped with the newest accord slot, in_port 0xFF (R439) (DESIGN CHOICE, notes/assumptions/66.md). -/
def injectFrame (c : Chip) (r : Nat) (d : Descriptor) (bytes : List Byte) : Chip :=
  let p := Inj.port d
  let s := p / 16
  let slot := c.newestSlot
  let bs := withFcs bytes false
  let n := c.newId
  let id := n.1
  let wb := Wb.put (Wb.put (Wb.put (Wb.put 0 0 31 24 0xFF) 4 31 0 0xFFFFFFFF) 0 21 8 bs.length) 0 23 22 slot
  let f : Frame := { slice := s, port := 255, home := p, bytes := bs, whole := true, slot := some slot, wb, hostTag := Inj.tag d, injected := true }
  if !(c.alive (U.slice s)) then c.descDone r d 4
  else
    let c := (n.2.wakeCause s)
    if Inj.mode d then
      if c.isbOver s bs.length then (c.cnt (c.sliceCnt s + C.isb_drop) 1).descDone r d 4
      else (((c.inflightUp slot 1).setFr id f).updPrt p fun q => { q with wait := q.wait ++ [id] }).descDone r d 0
    else
      let wb := verdictWords wb (.unicast (c.suiteMember p (Wb.hash wb)) (Inj.subscriber d) (Inj.script d) none false) 0 (Inj.cls d) false none
      let f := { f with wb, stage := .judged }
      match c.reqOf (s / 4) 0xD028 with
      | some i =>
        let x : Chip × Bool := ((c.inflightUp slot 1).setFr id { f with staged := false }).injectDirect i id wb
        x.1.descDone r d (if x.2 then 0 else 4)
      | none =>
        if c.isbOver s bs.length then (c.cnt (c.sliceCnt s + C.isb_drop) 1).descDone r d 4
        else (((c.inflightUp slot 1).setFr id f).openStream id wb false false (2 ^ (Wb.port wb / 16)) 0).descDone r d 0

end Chip

/-- INJECT_DESCRIPTOR_FETCH (R439, R440): the descriptor at CI as read from host memory; none when that read failed. -/
def execInjectDescriptorFetch (r : Nat) (desc : Option Descriptor) (s : State) : Host.Outcome State Fault Refusal :=
  s.run .core fun c =>
    if r < 4096 && c.ringOn r 1 && !(c.ringHalted r) && c.hostUp && c.ringUsed r != 0 && (c.ring r).desc.isNone && !(c.inReset 0xD028) then
      match desc with
      | none => (c.descError r 3).ringDone r
      | some d =>
        if !(Inj.own d) then c
        else
          let st := c.injectCheck r d
          if st = 0 then c.setRing r { c.ring r with desc := some d } else c.descDone r d st
    else c

/-- INJECT_FRAME_READ (R439, R440): the frame's bytes, none when the read failed. A ring of a management MAC holds them for it
(DESIGN CHOICE, notes/assumptions/64.md). -/
def execInjectFrameRead (r : Nat) (bytes : Option (List Byte)) (s : State) : Host.Outcome State Fault Refusal :=
  s.run .core fun c =>
    match (c.ring r).desc with
    | none => c
    | some d =>
      if 4096 ≤ r || (c.ring r).read.isSome || c.inReset 0xD028 then c
      else
        match bytes with
        | none => c.descDone r d 3
        | some bs =>
          if bs.length != Inj.len d then c.descDone r d 3
          else if (c.macOf r).isSome then c.setRing r { c.ring r with read := some bs }
          else c.injectFrame r d bs

/-! ### Event rings (R441) -/

namespace Chip

/-- The event ring of FIFO `f`; 25 is the sweep buffer (spec/21_counters.md R453). -/
def eventRing (c : Chip) (f : Nat) : Nat :=
  if f < 8 then c.get (A.slice f) R.LEARN_CTRL_learn_ring else if f < 16 then c.get (A.slice (f - 8)) R.TS_FIFO_CTRL_ts_ring
  else if f < 24 then c.get (A.slice (f - 16)) R.PUNT_EVT_RING_ring else if f = 24 then c.get 0 R.LEDGER_OVF_RING_ring else c.get 0 R.SWEEP_RING_ring

/-- The ring takes a record: event kind, enabled, not full, and the host is there. -/
def eventRoom (c : Chip) (r : Nat) : Bool := c.ringOn r 2 && decide (c.ringUsed r < c.ringSize r) && c.hostUp && !(c.inReset 0xD028)

/-- Write one record at PI. -/
def eventWrite (c : Chip) (r : Nat) (e : Entry) : Chip :=
  let c := c.emit (.dmaEntry r (c.ringPlace r (c.get (A.ring r) R.RING_PI_pi)) e)
  ((c.cnt (A.ring r + C.ring_frames) 1).cnt (A.ring r + C.ring_bytes) 32).ringDone r

/-- The injected error that meets the item taken out now: 1 correctable, 2 not; 4 more where the injection had react at 1. -/
def itemHurt (q : Fifo) : Nat := (q.hurt.filter fun x => x.1 == 0).foldl (fun n x => if n % 4 < x.2 % 4 then x.2 else n) 0

/-- One item leaves FIFO `f` (R381). -/
def fifoItem (c : Chip) (f ecc r : Nat) : Chip :=
  let q := c.fifos.look f
  match q.draining with
  | [] => c
  | e :: rest =>
    let hurt := itemHurt q
    let bad := Nat.max ecc (hurt % 4)
    let left : List (Nat × Nat) := (q.hurt.filter fun x => x.1 != 0).map fun x => (x.1 - 1, x.2)
    let c : Chip := ({ c with fifos := c.fifos.set f { q with draining := rest, hurt := left } }).syncFifo f
    let c := c.when (bad == 1) fun c => c.cnt (c.fifoTop f + 0x40) 1
    if bad = 2 then
      let c := c.cnt (c.fifoTop f + 0x48) 1
      if ecc = 2 then c.report (fifoUnit f) K.fifoUncorrectable 1
      else { c with ledger := { c.ledger with
        transit := c.ledger.transit ++ [{ source := c.suiteUnit (fifoUnit f), kind := K.fifoUncorrectable, sev := 1
                                          pos := c.suitePos (fifoUnit f), inj := true, injReact := decide (4 < hurt) }] } }
    else c.eventWrite r e

end Chip

/-- EVENT_RECORD_WRITE (R381, R441): the oldest item of the draining bank; `ecc` 1 a corrected word, 2 an uncorrectable one. The newest
record of a running sweep waits for its mark (spec/21_counters.md R449). -/
def execEventRecordWrite (f ecc : Nat) (s : State) : Host.Outcome State Fault Refusal :=
  s.run .core fun c =>
    let r := c.eventRing f
    if 25 < f || !(c.eventRoom r) then c
    else if f = 25 then
      match c.sweep.buffer with
      | [] => c
      | e :: rest =>
        if rest.isEmpty && c.sweep.running.isSome then c
        else
          ({ c with sweep := { c.sweep with buffer := rest } }.put 0 R.SWEEP_STATUS_buffer_free (8192 - rest.length)).eventWrite r e
    else c.fifoItem f ecc r

/-! ### Control complex (R442 to R444) -/

namespace Chip

def coreBit (c : Chip) (f : Fld) (k : Nat) (b : Bool) : Chip :=
  let v := c.get 0 f
  c.put 0 f (v - v / 2 ^ k % 2 * 2 ^ k + b2n b * 2 ^ k)

def coreRuns (c : Chip) (k : Nat) : Bool := c.get 0 R.CC_STATUS_running / 2 ^ k % 2 == 1

/-- A core leaves reset: it starts at region offset 64 MiB with its watchdog's count restarted. -/
def coreStart (c : Chip) (k : Nat) : Chip :=
  { c.coreBit R.CC_STATUS_running k true with host := { c.host with kicked := c.host.kicked.set k c.now } }

/-- A core is held: its latchkeys are orphaned (R404) (DESIGN CHOICE, notes/assumptions/68.md). -/
def coreStop (c : Chip) (k : Nat) : Chip := (c.coreBit R.CC_STATUS_running k false).orphanWhere fun l => l.owner == 0xD010 + k

/-- A core's physical address lies in Table 20-12 (DESIGN CHOICE, notes/assumptions/68.md). -/
def coreMapped (a : Nat) : Bool :=
  decide (a < 0x80000000) || (decide (0x000100000000 ≤ a) && decide (a < 0x000120000000)) ||
    (decide (0x000200000000 ≤ a) && decide (a < 0x000202000000)) || (decide (0x010000000000 ≤ a) && decide (a < 0x020000000000))

/-- An access of a core raises a bus error (R442) (DESIGN CHOICE, notes/assumptions/68.md). -/
def coreRefused (c : Chip) (a : Nat) (write : Bool) : Bool :=
  !(coreMapped a) || (write && decide (0x000200000000 ≤ a) && decide (a < 0x000202000000) &&
    (decide (a < 0x000200400000) || c.on 0 R.SAG_STATUS_stopped))

end Chip

/-- Release bit of a core (Table 20-13): ignored unless the firmware is loaded. -/
def Chip.coreSet (c : Chip) (core : Nat) (on : Bool) : Chip :=
  if core < 4 && c.get 0 R.CC_STATUS_fw_state == 2 then
    let c := c.coreBit R.CC_CTRL_release core on
    if on then (if c.coreRuns core || c.inReset (0xD010 + core) then c else c.coreStart core)
    else if c.coreRuns core then c.coreStop core else c
  else c

/-- CORE_RELEASE (R443). -/
def execCoreRelease (src : Source) (core : Nat) (s : State) : Host.Outcome State Fault Refusal :=
  s.bus src R.CC_CTRL true fun c => c.coreSet core true

/-- CORE_HOLD (Table 20-13). -/
def execCoreHold (src : Source) (core : Nat) (s : State) : Host.Outcome State Fault Refusal :=
  s.bus src R.CC_CTRL true fun c => c.coreSet core false

/-- CORE_BUS_ERROR (R442): nothing is written. -/
def execCoreBusError (core addr : Nat) (write : Bool) (s : State) : Host.Outcome State Fault Refusal :=
  s.run .core fun c => if core < 4 && c.coreRefused addr write then c.emit (.busError core) else c

/-- WATCHDOG_KICK. -/
def Chip.watchdogKick (c : Chip) (core : Nat) : Chip :=
  if core < 4 then { c with host := { c.host with kicked := c.host.kicked.set core c.now } } else c

/-- WATCHDOG_KICK. -/
def execWatchdogKick (src : Source) (core : Nat) (s : State) : Host.Outcome State Fault Refusal :=
  s.bus src (R.CC_WDOG + 4 * core) true fun c => c.watchdogKick core

/-- WATCHDOG_EXPIRY (R444) (DESIGN CHOICE, notes/assumptions/68.md). -/
def execWatchdogExpiry (core : Nat) (s : State) : Host.Outcome State Fault Refusal :=
  s.run .core fun c =>
    let b := 4 * core
    if core < 4 && c.on b R.CC_WDOG_enable && c.coreRuns core &&
        c.passedUs (c.host.kicked.look core) (c.get b R.CC_WDOG_timeout_ms * 1000) then
      { c with host := { c.host with kicked := c.host.kicked.set core c.now } }.report (0xD010 + core) K.coreWatchdog 4
    else c

/-! ### Management MACs (R445) -/

/-- MGMT_FRAME_RECEIVE (R445): the frame with its FCS; a bad one is counted alone
(DESIGN CHOICE, notes/assumptions/65.md; DESIGN CHOICE, notes/assumptions/67.md). -/
def execMgmtFrameReceive (mac : Nat) (bytes : List Byte) (good : Bool) (s : State) : Host.Outcome State Fault Refusal :=
  s.run .core fun c =>
    if mac < 2 && c.on (A.mgmt mac) R.MGMT_CTRL_enable && !(c.inReset (0x4080 + mac)) then
      let b := A.mgmt mac
      if !good then c.cnt (b + C.mg_rx_fcs_err) 1
      else
        let c := (c.cnt (b + C.mg_rx_frames) 1).cnt (b + C.mg_rx_bytes) bytes.length
        let x : List Byte × Chip := c.freeBytes 1
        let n := x.2.newId
        let wb := Wb.put (Wb.put (Wb.put 0 0 31 24 (ofLE x.1)) 4 31 0 0xFFFFFFFF) 0 21 8 bytes.length
        let c := n.2.setFr n.1 { slice := 8 + mac, port := 128 + mac, home := 128 + mac, bytes, whole := true, wb, stage := .judged, staged := false }
        c.openPunt n.1 (c.get b R.MGMT_CTRL_rx_ring) 4 0 0
    else c

/-- MGMT_FRAME_SEND (R445): the frame read from tx_ring leaves with its FCS (DESIGN CHOICE, notes/assumptions/67.md). -/
def execMgmtFrameSend (mac : Nat) (s : State) : Host.Outcome State Fault Refusal :=
  s.run .core fun c =>
    let b := A.mgmt mac
    let r := c.get b R.MGMT_CTRL_tx_ring
    if mac < 2 && c.on b R.MGMT_CTRL_enable && !(c.inReset (0x4080 + mac)) then
      match (c.ring r).desc, (c.ring r).read with
      | some d, some bs =>
        let f := withFcs bs false
        (((c.emit (.mgmtTx mac f)).cnt (b + C.mg_tx_frames) 1).cnt (b + C.mg_tx_bytes) f.length).descDone r d 0
      | _, _ => c
    else c

end Sys2Proof.Machine
end

