-- ==== Sys2Proof/Machine/Read.lean ====
section
/-! DEFINITION. What a plain bus read returns (spec/00_scope.md R6, R11; spec/21_counters.md R450): the live or staged value of a register,
and the registers that show other state. -/

namespace Sys2Proof.Machine

open Sys2Proof

/-! ### Staging domains (spec/02_configuration_image.md Table 2-10 and the owning chapters) -/

/-- Window base and size of the staging domain that an address lies in. -/
def domainOf (a : Nat) : Option (Nat × Nat) :=
  if a < 0x01000000 then
    if 0x3200 ≤ a && a < 0x3300 then some (0x3200, 0x100)
    else if 0x7000 ≤ a && a < 0x8000 then some (0x7000, 0x1000)
    else if 0x40000 ≤ a && a < 0x40800 then some (a / 0x100 * 0x100, 0x100) else none
  else if 0x08000000 ≤ a && a < 0x10000000 then
    let o := a % 0x01000000
    if 0x100000 ≤ o && o < 0x140000 then some (a / 0x4000 * 0x4000, 0x4000)
    else if 0x200000 ≤ o && o < 0x222000 then some (a / 0x1000 * 0x1000, 0x1000)
    else if 0x400000 ≤ o && o < 0x500000 then some (a - o + 0x400000, 0x100000)
    else if 0x800000 ≤ o && o < 0xC00000 then some (a - o + 0x800000, 0x400000) else none
  else if 0x10000000 ≤ a && a < 0x14000000 then
    let o := a % 0x02000000
    if o < 0x100000 then some (a - o, 0x100000) else if 0x400000 ≤ o && o < 0x500000 then some (a - o + 0x400000, 0x100000) else none
  else if 0x14000000 ≤ a && a < 0x14400000 then some (a / 0x100000 * 0x100000, 0x100000)
  else if 0x15000000 ≤ a && a < 0x15800000 then some (a / 0x400000 * 0x400000, 0x400000)
  else none

/-- Slice of a scheduler domain. -/
def schedDomain (base : Nat) : Option Nat :=
  if 0x08000000 ≤ base && base < 0x10000000 && base % 0x01000000 == 0x800000 then some ((base - 0x08000000) / 0x01000000) else none

namespace Chip

/-- Staged value of a register. -/
def stagedReg (c : Chip) (a : Nat) : Word := (c.staged.look a).getD (c.reg a)

/-- Staged registers of a domain whose staged copy differs from the live one. -/
def stagedDiff (c : Chip) (base size : Nat) : Tbl Word :=
  c.staged.filterMap fun p =>
    match p.2 with
    | some v => if base ≤ p.1 && p.1 < base + size && v != c.reg p.1 then some (p.1, v) else none
    | none => none

/-- APPLY_STATUS.dirty: the staged copy differs, or was written between the last go and its effect (R48). -/
def dirty (c : Chip) (base size : Nat) : Bool :=
  c.since.look base && (c.applies.look base).isNone || !(c.stagedDiff base size).isEmpty ||
    match schedDomain base with
    | some s => (c.recs s).differs
    | none => false

/-! ### Registers that show other state -/

/-- LATCHKEY[k] (Table 18-9). -/
def latchReg (l : Latch) : Word :=
  BitVec.ofNat 64 (b2n l.suspect * 2 ^ 30 + b2n (l.owner != 0) * 2 ^ 29 + l.fn * 2 ^ 16 + l.owner)

/-- The record that LEDGER_REC_SEL names. -/
def selRecord (c : Chip) (nv : Nv) : BitVec 128 :=
  let i := c.get 0 R.LEDGER_REC_SEL_index
  if c.on 0 R.LEDGER_REC_SEL_jrn then (Tbl.find nv.journal i).getD 0 else c.ledger.ring.look (i % 1024)

/-- LEDGER_REACT of the selected kind: hi in [15:8], lo in [7:0]. -/
def reactReg (c : Chip) : Word :=
  let k := c.get 0 R.LEDGER_REACT_SEL_kind
  BitVec.ofNat 64 ((c.ledger.reacts.look k).getD (K.default k))

def selOvr (c : Chip) : Ovr := c.ledger.ovrs.look (c.get 0 R.LEDGER_OVR_SEL_entry)

/-- MEM_INFO of a group (Table 17-3): two spare rows to a block of 1,024 rows. -/
def memInfo (c : Chip) (u : Nat) : Word :=
  let rows := c.groupRows u
  let free := (rows + 1023) / 1024 * 2 - ((c.grp u).sparesUsed.map Prod.snd).sum
  BitVec.ofNat 64 (2 ^ 31 + free % 512 * 2 ^ 22 + rows % 2 ^ 20)

/-- A register of the group that MEM_SEL names. -/
def groupReg (c : Chip) (o : Nat) : Word :=
  match c.selGroup with
  | none => 0
  | some u =>
    if o = 0x5004 then c.memInfo u
    else if o = 0x5028 then c.logEntry u (c.get (A.group u) R.MEM_LOG_INDEX_entry)
    else c.reg (A.group u + o)

/-- AGE_DATA of the selected monitor (Table 19-7). -/
def ageData (c : Chip) : Word :=
  match c.house.monitors.look (c.get 0 R.AGE_SEL_monitor) with
  | none => 0
  | some r => BitVec.ofNat 64 (r.loss % 2 ^ 16 * 2 ^ 32 + (r.slack % 2 ^ 16).toNat * 2 ^ 16 +
      (r.vmin.getD (c.get 0 R.AVS_STATUS_band) 0 + c.get 0 R.AVS_GUARD_guard_mv) % 2 ^ 16)

/-- IRQ_PENDING (Table 20-5). -/
def irqPending (c : Chip) : Word := BitVec.ofNat 64 (((List.range 16).filter c.irqLine).map fun g => 2 ^ g).sum

/-- PORT_STATUS of a port suite (spec/04_ports_and_lanes.md R89). -/
def portStatus (c : Chip) (p : Nat) : Word :=
  let ms := (c.members (U.port p)).map fun u => c.reg (A.port (U.index u) + R.PORT_STATUS)
  let any (i : Nat) : Nat := b2n (ms.any fun v => bit v i) * 2 ^ i
  let all (i : Nat) : Nat := b2n (ms.all fun v => bit v i) * 2 ^ i
  BitVec.ofNat 64 (any 31 + all 30 + any 29 + any 28 + any 27 + any 26 + all 25 + all 24 + ((List.range 16).map fun i => any (8 + i)).sum)

/-- SCHED_HELD and SCHED_RESERVED of a slice, or the sums over a suite's members (spec/13_hierarchical_scheduling.md R301). -/
def schedSum (c : Chip) (s : Nat) (f : Nat → Nat) : Word := BitVec.ofNat 64 (((c.members (U.slice s)).map fun u => f (U.index u)).sum)

/-- Registers of the global block that show other state. -/
def globalReg (c : Chip) (nv : Nv) (a : Nat) : Word :=
  if a < 0x4000 then (if a = R.ACCORD_RETIRED then c.retiredWord else c.reg a)
  else if a < 0x4100 then latchWord (c.latch ((a - 0x4000) / 4)) false
  else if a < 0x4200 then latchReg (c.latch ((a - 0x4100) / 4))
  else if 0x5004 ≤ a && a < 0x5100 then c.groupReg a
  else if 0x6020 ≤ a && a < 0x6030 then BitVec.ofNat 64 (bits (c.selRecord nv) (32 * ((a - 0x6020) / 4) + 31) (32 * ((a - 0x6020) / 4)))
  else if a = R.LEDGER_JRN_PTR then BitVec.ofNat 64 nv.jrnPtr
  else if a = R.LEDGER_REACT then c.reactReg
  else if a = R.LEDGER_OVR then BitVec.ofNat 64 (b2n c.selOvr.valid * 2 ^ 31 + c.selOvr.kind * 2 ^ 16 + c.selOvr.unit)
  else if a = R.LEDGER_OVR_REACT then BitVec.ofNat 64 c.selOvr.react
  else if a = R.AGE_DATA then c.ageData
  else if a = R.THERM_DATA then BitVec.ofNat 64 ((c.house.temps.getD (c.get 0 R.THERM_SEL_sensor) 0) % 256).toNat
  else if 0x40000 ≤ a && a < 0x40800 && a % 0x100 = R.TB_NOW_NS then BitVec.ofNat 64 (c.tb ((a - 0x40000) / 0x100)).nowNs
  else if a = R.IRQ_PENDING then c.irqPending
  else c.reg a

/-- An address of Table 16-8 that belongs to two counters: those of pseudo-channels 16 and 17, and the stack's
(DESIGN CHOICE, notes/assumptions/7.md). -/
def twoCounters (a : Nat) : Bool :=
  decide (0x15000000 ≤ a) && decide (a < 0x15800000) &&
    ((decide (0xC00 ≤ a % 0x400000) && decide (a % 0x400000 < 0xC38)) || (decide (0xC40 ≤ a % 0x400000) && decide (a % 0x400000 < 0xC60)))

/-- What the register that starts at `a` reads as, without side effects: a staged field's staged value, or its live one with live_view
(DESIGN CHOICE, notes/assumptions/7.md). -/
def peek (c : Chip) (nv : Nv) (a : Nat) : Word :=
  let raw := if a < 0x01000000 then c.globalReg nv a
    else if 0x08000000 ≤ a && a < 0x10000000 then
      let s := (a - 0x08000000) / 0x01000000
      let o := a % 0x01000000
      if o = 0x820000 then c.schedSum s c.schedHeld else if o = 0x820004 then c.schedSum s c.schedReserved
      else if 0x100000 ≤ o && o < 0x140000 && o % 0x4000 = R.PORT_STATUS then c.portStatus (s * 16 + (o - 0x100000) / 0x4000)
      else c.reg a
    else if twoCounters a then Config.sharedCounter (c.reg a) (c.reg (a + 0x100000))
    else c.reg a
  match domainOf a with
  | none => raw
  | some (base, size) =>
    if a = base + size - 4 then putBits raw 29 29 (b2n (c.dirty base size))
    else
      match regRow a with
      | some r => if r.sg = 0 || bit (c.reg (base + size - 8)) 29 then raw
        else (raw &&& ~~~(BitVec.ofNat 64 r.sg)) ||| (c.stagedReg a &&& BitVec.ofNat 64 r.sg)
      | none => raw

/-- A byte of a mailbox's data area. -/
def mailByte (c : Chip) (a : Nat) : Byte :=
  let o := a - 0x18000000
  c.room.data.byte (o / 0x1000 * 0x400 + (o % 0x1000 - 0x400))

/-- Whether an address lies in a mailbox's data area. -/
def isMailData (a : Nat) : Bool := decide (0x18000000 ≤ a) && decide (a < 0x18002000) && decide (0x400 ≤ a % 0x1000) && decide (a % 0x1000 < 0x800)

/-- A group's registers are reached through MEM_SEL alone, and those of the group tables' own place, and the place where the
stack counters of Table 16-12 are held, are no addresses of BAR0. -/
def rowAt (a : Nat) : Option RegRow :=
  if 0x5004 ≤ a && a < 0x5100 then regRow (A.group 0 + a)
  else if 0x20000000 ≤ a || (decide (0x100000 ≤ a % 0x400000) && twoCounters (a - 0x100000)) then none else regRow a

/-- Four bytes of BAR0; an unimplemented offset reads 0 (R11). -/
def peek32 (c : Chip) (nv : Nv) (a : Nat) : Nat :=
  if isMailData a then ofLE ((List.range 4).map fun i => c.mailByte (a + i))
  else
    match rowAt a with
    | some _ => bits (c.peek nv a) 31 0
    | none =>
      match (if 4 ≤ a then rowAt (a - 4) else none) with
      | some r => if r.wide then bits (c.peek nv (a - 4)) 63 32 else 0
      | none => 0

/-- An aligned access of 4 or 8 bytes. -/
def peekSize (c : Chip) (nv : Nv) (a size : Nat) : Word :=
  if size = 8 then BitVec.ofNat 64 (c.peek32 nv a + c.peek32 nv (a + 4) * 2 ^ 32) else BitVec.ofNat 64 (c.peek32 nv a)

end Chip

end Sys2Proof.Machine
end

