-- ==== Sys2Proof/Machine/SweepEng.lean ====
section
/-! DEFINITION. The sweep engine (spec/21_counters.md R448 to R454). -/

namespace Sys2Proof.Machine

open Sys2Proof

namespace Chip

/-- Registers of an item in ascending order: offset and width (Table 21-3) (DESIGN CHOICE, notes/assumptions/70.md). -/
def itemRegs (c : Chip) (i : Nat) : List (Nat × Bool) :=
  let wide := c.on (8 * i) R.SWEEP_ITEM_ADDR_wide
  let w := if wide then 8 else 4
  let off := c.get (8 * i) R.SWEEP_ITEM_ADDR_offset / w * w
  let st := c.get (8 * i) R.SWEEP_ITEM_RUN_stride / w * w
  (List.range (Nat.max 1 (c.get (8 * i) R.SWEEP_ITEM_RUN_count))).map fun j => ((off + st * j) % 2 ^ 29, wide)

/-- Items of a list, none beyond 1,023. -/
def listItems (c : Chip) (l : Nat) : List Nat :=
  ((List.range (c.get (8 * l) R.SWEEP_LIST_item_count)).map (c.get (8 * l) R.SWEEP_LIST_first_item + ·)).filter fun i => decide (i < 1024)

/-- Registers that a list reads, by its item counts. -/
def listSize (c : Chip) (l : Nat) : Nat := ((c.listItems l).map fun i => Nat.max 1 (c.get (8 * i) R.SWEEP_ITEM_RUN_count)).sum

/-- A trigger skipped for want of room (R452). -/
def sweepOver (c : Chip) (l extra : Nat) : Chip := (c.cnt C.sweep_overrun 1).report 0xD060 K.sweepOverrun 1 (extra + l)

/-- A trigger of a list (R452). -/
def sweepTrigger (c : Chip) (l : Nat) : Chip :=
  if !(c.on (8 * l) R.SWEEP_LIST_enable) || c.get (8 * l) R.SWEEP_LIST_item_count = 0 then c
  else if c.sweep.running = some l || c.sweep.waiting.contains l then c.cnt C.sweep_skipped 1
  else if 8192 < c.listSize l then c.sweepOver l 16
  else { c with sweep := { c.sweep with waiting := c.sweep.waiting ++ [l] } }

/-- The slice whose register an address is sleeps (R453). -/
def sleepsAt (c : Chip) (a : Nat) : Bool := decide (0x08000000 ≤ a) && decide (a < 0x10000000) && c.house.sleep.look ((a - 0x08000000) / 0x01000000) == 2

/-- Record of one register (Table 21-1) (DESIGN CHOICE, notes/assumptions/70.md). -/
def sweepRecord (c : Chip) (nv : Nv) (l pass : Nat) (first : Bool) (x : Nat × Bool) : Entry :=
  let t := c.tb 0
  let v := if c.visible x.1 then (c.peekSize nv x.1 (if x.2 then 8 else 4)).toNat else 0
  BitVec.ofNat 256 (b2n first * 2 ^ 30 + b2n (c.sleepsAt x.1) * 2 ^ 28 + l * 2 ^ 24 + pass + (b2n x.2 * 2 ^ 31 + x.1) * 2 ^ 32 + v * 2 ^ 64 +
    t.ns * 2 ^ 128 + (t.frac / 2 ^ 32 * 2 ^ 16 + t.sec % 2 ^ 16) * 2 ^ 160)

/-- A sweep starts: its reads go into the buffer (DESIGN CHOICE, notes/assumptions/70.md). -/
def sweepRun (c : Chip) (nv : Nv) (l : Nat) : Chip :=
  let xs := (c.listItems l).flatMap c.itemRegs
  let pass := c.sweep.passes.look l
  let recs := xs.zipIdx.map fun x => c.sweepRecord nv l pass (x.2 == 0) x.1
  let c := { c with sweep := { c.sweep with running := some l, buffer := c.sweep.buffer ++ recs, passes := c.sweep.passes.set l ((pass + 1) % 65536) } }
  (((c.put 0 R.SWEEP_STATUS_busy 1).put 0 R.SWEEP_STATUS_list l).put 0 R.SWEEP_STATUS_buffer_free (8192 - c.sweep.buffer.length)).cnt C.sweep_records
    recs.length

end Chip

/-- SWEEP_TRIGGER (R452). -/
def Chip.sweepGo (c : Chip) (list : Nat) : Chip :=
  (c.put 0 R.SWEEP_CMD_list list).sweepTrigger (list % 16)

/-- SWEEP_TRIGGER (R452). -/
def execSweepTrigger (src : Source) (list : Nat) (s : State) : Host.Outcome State Fault Refusal :=
  s.bus src R.SWEEP_CMD true fun c => c.sweepGo list

/-- SWEEP_PERIOD_TIMER (R452): period_us has passed. -/
def execSweepPeriodTimer (list : Nat) (s : State) : Host.Outcome State Fault Refusal :=
  s.run .core fun c =>
    let us := c.get (8 * list) R.SWEEP_PERIOD_period_us
    if list < 16 && us != 0 && c.passedUs (c.sweep.period.look list) us then
      ({ c with sweep := { c.sweep with period := c.sweep.period.set list c.now } }).sweepTrigger list
    else c

/-- SWEEP_SECOND (R452): TB0 seconds have advanced; lists in ascending order. Seconds that a step of TB0 turned back trigger nothing
(DESIGN CHOICE, notes/assumptions/70.md). -/
def execSweepSecond (s : State) : Host.Outcome State Fault Refusal :=
  s.run .core fun c =>
    let n := (c.tb 0).sec
    ({ c with sweep := { c.sweep with second := n } }).when (decide (c.sweep.second < n)) fun d =>
      d.each ((List.range 16).filter fun l => d.on (8 * l) R.SWEEP_LIST_on_second) Chip.sweepTrigger

/-- SWEEP_START (R448, R452): the first list that waits, when none runs; without room for all its records it is skipped. -/
def execSweepStart (s : State) : Host.Outcome State Fault Refusal :=
  s.runNv .core fun nv fu c =>
    match c.sweep.running, c.sweep.waiting with
    | none, l :: rest =>
      let c := { c with sweep := { c.sweep with waiting := rest } }
      (if 8192 < c.sweep.buffer.length + c.listSize l then c.sweepOver l (if 8192 < c.listSize l then 16 else 0) else c.sweepRun nv l, nv, fu)
    | _, _ => (c, nv, fu)

/-- SWEEP_COMPLETE (R448): the newest record is the last. -/
def execSweepComplete (s : State) : Host.Outcome State Fault Refusal :=
  s.run .core fun c =>
    match c.sweep.running with
    | none => c
    | some _ =>
      let n := c.sweep.buffer.length
      let b := match c.sweep.buffer.getLast? with
        | some e => setAt c.sweep.buffer (n - 1) (putBits e 31 31 1)
        | none => []
      ({ c with sweep := { c.sweep with running := none, buffer := b } }.put 0 R.SWEEP_STATUS_busy 0).cnt C.sweeps 1

end Sys2Proof.Machine
end

