-- ==== Sys2Proof/Machine/Apply.lean ====
section
/-! DEFINITION. Staged registers and APPLY (spec/02_configuration_image.md R45 to R52): the checks of every domain, a go, its effect at
the safe boundary, its withdrawal, and revert. -/

namespace Sys2Proof.Machine

open Sys2Proof

namespace Chip

/-! ### Domains and their members -/

/-- The addresses of a register in every member that a write to it reaches (spec/01_architecture.md R16, R20)
(DESIGN CHOICE, notes/assumptions/11.md). -/
def copiesOf (c : Chip) (a : Nat) : List Nat :=
  if 0x08000000 ≤ a && a < 0x10000000 then
    let s := (a - 0x08000000) / 0x01000000
    let o := a % 0x01000000
    if 0x100000 ≤ o && o < 0x140000 then (c.members (U.port (s * 16 + (o - 0x100000) / 0x4000))).map fun u => A.port (U.index u) + o % 0x4000
    else if 0x200000 ≤ o && o < 0x222000 then [a]
    else if 0x300000 ≤ o && o < 0x304000 then (c.members (U.lane (s * 16 + (o - 0x300000) / 0x400))).map fun u => A.lane (U.index u) + o % 0x400
    else if 0x400100 ≤ o && o < 0x400114 then [a]
    else (c.members (U.slice s)).map fun u => A.slice (U.index u) + o
  else if 0x10000000 ≤ a && a < 0x14000000 then
    (c.members (U.half ((a - 0x10000000) / 0x02000000))).map fun u => A.half (U.index u) + a % 0x02000000
  else [a]

end Chip

/-- The unit that owns the domain at a window base. -/
def domainUnit (b : Nat) : Nat :=
  if b < 0x01000000 then (if b = 0x3200 then U.device else if b = 0x7000 then 0xD030 else 0xD050 + (b - 0x40000) / 0x100)
  else if b < 0x10000000 then
    let s := (b - 0x08000000) / 0x01000000
    let o := b % 0x01000000
    if o < 0x200000 then U.port (s * 16 + (o - 0x100000) / 0x4000)
    else if o < 0x400000 then U.sliceBlk s ((o - 0x200000) / 0x1000)
    else if o < 0x800000 then U.slice s else U.sliceBlk s 0x70
  else if b < 0x14000000 then
    let h := (b - 0x10000000) / 0x02000000
    if b % 0x02000000 = 0 then U.halfBlk h 0 else U.halfBlk h 0x10
  else if b < 0x15000000 then U.devBlk ((b - 0x14000000) / 0x100000)
  else U.halfBlk ((b - 0x15000000) / 0x400000) 0x20

/-- A reason when a check is broken. -/
def reasonIf (broken : Bool) (r : Nat) : List Nat := if broken then [r] else []

/-- A value lies outside a range. -/
def outside (v lo hi : Nat) : Bool := decide (v < lo) || decide (hi < v)

namespace Chip

/-- A field's staged value. -/
def sget (c : Chip) (base : Nat) (f : Fld) : Nat := bits (c.stagedReg (base + f.off)) f.hi f.lo

def son (c : Chip) (base : Nat) (f : Fld) : Bool := c.sget base f != 0

/-! ### Checks (the field tables of each chapter) -/

/-- Port domain of port `p` (Table 4-4 to 4-14, 14-1 to 14-3, 15-4) (DESIGN CHOICE, notes/assumptions/6.md). -/
def portReasons (c : Chip) (p : Nat) : List Nat :=
  let b := A.port p
  let recs := (c.portSet p).filterMap c.portRec
  let low := recs.filter fun r => r.type == 1 || r.type == 2
  reasonIf (c.son b R.PORT_CTRL_lpi_enable && (c.portSet p).any fun q => !((c.portRec q).any PortRec.lpi)) 2 ++
  reasonIf (outside (c.sget b R.PORT_LINK_TIMING_debounce_us) 0 1000) 1 ++
  reasonIf (outside (c.sget b R.PORT_HOLD_hold_us) 0 1000000) 1 ++
  reasonIf (outside (c.sget b R.PORT_FRAME_max_frame) 64 10240) 1 ++
  reasonIf (c.sget b R.PORT_DEFAULT_action == 2 && outside (c.sget b R.PORT_DEFAULT_default_vlan) 1 4094) 1 ++
  reasonIf (low.any fun r => decide (c.sget b R.PORT_LPI_tw_10ns < Config.lpiWake r.type % 2 ^ 14)) 1 ++
  reasonIf (c.sget b R.PORT_LPI_idle_us == 0) 1 ++
  reasonIf (c.sget b R.PORT_FLOW_mode == 3) 1 ++
  reasonIf (decide (c.sget b R.PORT_FLOW_TIMING_tx_quanta ≤ c.sget b R.PORT_FLOW_TIMING_refresh_quanta)) 2 ++
  reasonIf (outside (c.sget b R.PORT_PFC_STORM_storm_ms) 0 1000 || c.sget b R.PORT_PFC_STORM_recover_ms == 0) 1 ++
  reasonIf ((List.range 8).any fun k => decide (c.sget (b + 4 * k) R.PORT_PFC_THRESH_xoff_8cells < c.sget (b + 4 * k) R.PORT_PFC_THRESH_xon_8cells)) 2 ++
  reasonIf ((List.range 8).any fun k => outside (c.sget (b + 4 * k) R.GATE_GUARD_guard_bytes) 64 10240) 1 ++
  reasonIf (c.son b R.GATE_CTRL_enable && !(c.gclOk p (c.activeList p))) 2 ++
  reasonIf (outside (c.sget b R.PORT_TS_TC_tc_max_us) 1 1000000) 1

/-- Porter domain (Table 5-9, 5-10). -/
def porterReasons (c : Chip) (b : Nat) : List Nat :=
  reasonIf (c.image.profile != 0 && c.image.customerState != 1 && decide (3072 ≤ c.sget b R.PORTER_PARSE_entry)) 2 ++
  reasonIf (decide (c.sget b R.PORTER_PARSE_loop_limit < 16)) 1 ++
  reasonIf (c.sget b R.PORTER_CHECK_window_us == 0 || c.sget b R.PORTER_CHECK_fail_limit == 0) 1

/-- Slice lookup and actions domain. -/
def lookupReasons (c : Chip) (s : Nat) : List Nat :=
  let b := A.slice s
  reasonIf (outside (c.sget b R.EM_OVF_warn_at) 0 2048) 1 ++
  reasonIf (c.sget b R.LEARN_CTRL_sa_buffer == 3 || c.sget b R.LEARN_CTRL_da_buffer == 3) 1 ++
  reasonIf (c.sget b R.LEARN_CTRL_sa_buffer == c.sget b R.LEARN_CTRL_da_buffer) 2 ++
  reasonIf (c.sget b R.AGE_CTRL_limit == 0 || c.sget b R.AGE_CTRL_pass_s == 0) 1 ++
  reasonIf (c.sget b R.TCAM_SCRUB_scrub_ms == 0) 1 ++
  reasonIf ((List.range 256).any fun i =>
    decide (8 ≤ c.sget (b + 4 * i) R.RES_PROFILE_fwd_first) || decide (8 ≤ c.sget (b + 4 * i) R.RES_PROFILE_fwd_second) ||
      decide (8 ≤ c.sget (b + 4 * i) R.RES_PROFILE_acl) || decide (8 ≤ c.sget (b + 4 * i) R.RES_PROFILE_qos)) 1 ++
  reasonIf ((List.range 16).any fun q => !(outside (c.sget (b + 4 * q) R.ING_OVERHEAD_overhead) 64 95)) 1 ++
  reasonIf (outside (c.sget b R.FAB_CTRL_drain_us) 1 45) 1 ++
  reasonIf (c.sget b R.COACH_CTRL_max_wait_us == 0) 1

def heartNew (c : Chip) (s i : Nat) : BitVec 128 := BitVec.ofNat 128 (c.stagedRec s .heart i).toNat
def topNew (c : Chip) (s i : Nat) : BitVec 128 := BitVec.ofNat 128 (c.stagedRec s .top i).toNat

/-- Some queue under a node of slice `s` holds a frame. -/
def nodeBusy (c : Chip) (s : Nat) (l : Level) (i : Nat) : Bool :=
  (c.queuesUnder s l.code i).any fun n => !((c.sch s).copies.look n).isEmpty

/-- An enabled top note of slice `s` names heart note `h`, once the snapshot is live. -/
def heartNamed (c : Chip) (s h : Nat) : Bool :=
  (((c.recs s).top.map Prod.fst) ++ ((c.recs (c.emHome s)).topStaged.map Prod.fst)).any fun t =>
    TopRec.enable (c.topNew s t) && TopRec.heart (c.topNew s t) == h

/-- R295 and R296 on one written record, in slice `s` (DEDUCED, notes/assumptions/75.md). -/
def recReasons (c : Chip) (s : Nat) (x : Level × Nat) : List Nat :=
  let i := x.2
  match x.1 with
  | .heart =>
    let r := c.heartNew s i
    let old := c.heartRec s i
    let on := HeartRec.enable r
    let p := 16 * s + HeartRec.port r
    reasonIf (on && HeartRec.weight r == 0 || !(outside (bits r 118 112) 64 95)) 1 ++
    reasonIf (on && !(c.present (U.port p))) 3 ++
    reasonIf (on && c.present (U.port p) && !(c.firstOf (U.port p))) 2 ++
    reasonIf (!on && c.heartNamed s i) 2 ++
    reasonIf ((HeartRec.enable old && !on || HeartRec.port old != HeartRec.port r) && c.nodeBusy s .heart i) 2
  | .top =>
    let r := c.topNew s i
    let old := c.topRec s i
    let on := TopRec.enable r
    reasonIf (on && TopRec.weight r == 0) 1 ++
    reasonIf (on && !(HeartRec.enable (c.heartNew s (TopRec.heart r)))) 2 ++
    reasonIf ((TopRec.enable old && !on ||
      HeartRec.port (c.heartRec s (TopRec.heart old)) != HeartRec.port (c.heartNew s (TopRec.heart r))) && c.nodeBusy s .top i) 2
  | .queue =>
    let r := c.stagedRec s .queue i
    reasonIf (QueueRec.enable r && QueueRec.weight r == 0) 1 ++
    reasonIf (decide (QueueRec.spillDepth r < QueueRec.fetchMark r) || decide (QueueRec.yellow r < QueueRec.red r)) 2

/-- Slice scheduler domain, checked against every member (spec/13_hierarchical_scheduling.md R295, R296; R51). -/
def schedReasons (c : Chip) (s : Nat) : List Nat :=
  let w := (c.recs s).written
  reasonIf (decide (1024 < w.length)) 5 ++ ((c.sliceMates s).flatMap fun m => w.flatMap fun x => c.recReasons m x) ++
  reasonIf ((List.range 16).any fun q => !(outside (c.sget (Chip.baseAt s q) R.BASE_CFG_overhead) 64 95)) 1 ++
  reasonIf ((c.sliceMates s).any fun m => (List.range 16).any fun q =>
    let t := c.topNew m (c.sget (Chip.baseAt s q) R.BASE_CFG_default_sub)
    let h := c.heartNew m (TopRec.heart t)
    c.son (Chip.baseAt s q) R.BASE_CFG_default_en && !(TopRec.enable t && HeartRec.enable h && HeartRec.port h == q)) 2

/-- Coach set (spec/11_mollux_fabric.md R258). -/
def coachReasons (c : Chip) : List Nat :=
  let ps := ((List.range 8).filter fun i => c.son (4 * i) R.COACH_PORT_valid).map fun i => c.sget (4 * i) R.COACH_PORT_port
  reasonIf (ps.any fun p => !(c.present (U.port p)) || !(c.firstOf (U.port p))) 3 ++ reasonIf (!(decide ps.Nodup)) 2

/-- A quota of the staged copy fits the minima of half `h` (spec/02_configuration_image.md R40). -/
def quotaBad (c : Chip) (first h : Nat) : Bool :=
  let sum := ((c.reqs h).map (c.minCells h)).sum
  (c.reqs h).any fun i =>
    let q := c.sget (Chip.reqBase first i) R.INNK_REQ_QUOTA_quota_cells
    decide (q < c.minCells h i) || decide (393216 < q + (sum - c.minCells h i))

/-- Innkeeper domain (Table 12-5 to 12-7, spec/02_configuration_image.md R40), checked against every member (R51). -/
def innkReasons (c : Chip) (h : Nat) : List Nat :=
  let b := A.half h
  let m := c.sget b R.INNK_MODE_mode
  reasonIf (m != 1 && m != 2) 1 ++
  reasonIf (outside (c.sget b R.INNK_MODE_recover_us) 1 10000) 1 ++
  reasonIf (outside (c.sget b R.INNK_ADMIT_yellow_free) 0 6144 || outside (c.sget b R.INNK_ADMIT_red_free) 0 6144) 1 ++
  reasonIf (decide (c.sget b R.INNK_ADMIT_red_free < c.sget b R.INNK_ADMIT_yellow_free)) 2 ++
  reasonIf ((List.range 8).any fun k => outside (c.sget (b + 4 * k) R.INNK_PRI_LIMIT_limit) 0 393216) 1 ++
  reasonIf ((c.halfMates h).any (c.quotaBad h)) 5

/-- Every prefix length with a descriptor. -/
def allLens : List (Bool × Nat) := (List.range 33).map (fun n => (false, n)) ++ (List.range 104).map fun n => (true, 25 + n)

/-- LPM domain (spec/09_lpm_and_tcam.md R210, Table 9-5 to 9-7). -/
def lpmReasons (c : Chip) (h : Nat) : List Nat :=
  let b := A.half h
  let f (g : Fld) (x : Bool × Nat) : Nat := c.sget (c.lenBase h x.1 x.2) g
  let on := allLens.filter fun x => f R.LPM_LEN_V4_enable x != 0
  let lo := f R.LPM_LEN_V4_base_line
  let size (x : Bool × Nat) : Nat := 2 ^ f R.LPM_LEN_V4_log2_lines x
  let moved (x : Bool × Nat) : Bool :=
    c.lenEnabled h x.1 x.2 && (f R.LPM_LEN_V4_enable x == 0 || lo x != c.get (c.lenBase h x.1 x.2) R.LPM_LEN_V4_base_line ||
      f R.LPM_LEN_V4_log2_lines x != c.get (c.lenBase h x.1 x.2) R.LPM_LEN_V4_log2_lines) && (c.halfMates h).any fun m => c.lenHolds m x.1 x.2
  reasonIf (allLens.any fun x => decide (17 < f R.LPM_LEN_V4_log2_lines x) || lo x % size x != 0) 1 ++
  reasonIf (on.any fun x => on.any fun y => x != y && decide (lo x ≤ lo y) && decide (lo y < lo x + size x)) 4 ++
  reasonIf (on.any fun x => decide (c.lpmLines h < lo x + size x)) 5 ++
  reasonIf (allLens.any moved) 2 ++
  reasonIf (c.son b R.LPM_CONFIG_v4_default && !(on.contains (false, 0))) 2 ++
  reasonIf (c.sget b R.LPM_BUDGET_max_probes == 0) 1

/-- Time base domain (Table 15-1). -/
def tbReasons (c : Chip) (t : Nat) : List Nat :=
  let b := A.tb t
  let act := c.sget b R.TB_CTRL_action
  reasonIf (act == 3) 1 ++
  reasonIf (act == 1 && decide (1000000000 * 65536 < (signed 64 (c.sget b R.TB_OFFSET_offset)).natAbs)) 1 ++
  reasonIf (act == 2 && decide (1000000000 ≤ c.sget b R.TB_SET_NS_ns)) 1

/-- Housekeeper domain (Table 19-6 to 19-8). -/
def houseReasons (c : Chip) : List Nat :=
  reasonIf (outside (c.sget 0 R.SLEEP_CTRL_sleep_idle_us) 10 65535) 1 ++
  reasonIf ((List.range 8).any fun s => c.sget 0 R.SLEEP_MASK_allow / 2 ^ s % 2 == 1 && !(c.sliceEnabled s)) 3 ++
  reasonIf (outside (c.sget 0 R.NIGHT_CTRL_start_min) 0 1439 || outside (c.sget 0 R.NIGHT_CTRL_end_min) 0 1439) 1 ++
  reasonIf (decide (1439 < (signed 16 (c.sget 0 R.NIGHT_OFFSET_offset_min)).natAbs)) 1 ++
  reasonIf (outside (c.sget 0 R.AVS_CTRL_floor_mv) 720 820 || outside (c.sget 0 R.AVS_CTRL_ceil_mv) 720 820) 1 ++
  reasonIf (decide (c.sget 0 R.AVS_CTRL_ceil_mv < c.sget 0 R.AVS_CTRL_floor_mv)) 2 ++
  reasonIf (c.sget 0 R.AVS_GUARD_slack_target_ps == 0 || outside (c.sget 0 R.AVS_GUARD_guard_mv) 0 50) 1 ++
  reasonIf (c.sget 0 R.HK_AGE_CTRL_replan_days == 0) 1 ++
  reasonIf (outside (c.sget 0 R.SAG_CTRL_nv_mv) 1500 1750 || outside (c.sget 0 R.SAG_CTRL_core_mv) 650 715) 1 ++
  reasonIf (decide (c.sget 0 R.AVS_CTRL_floor_mv ≤ c.sget 0 R.SAG_CTRL_core_mv)) 2 ++
  reasonIf (decide (c.get 0 R.THERM_STATUS_trip_fused < c.sget 0 R.THERM_CTRL_trip_c)) 1 ++
  reasonIf (decide (c.sget 0 R.THERM_CTRL_trip_c < c.sget 0 R.THERM_CTRL_warn_c + 5)) 2

/-- Every check that the staged copy of the domain at a window base breaks (DESIGN CHOICE, notes/assumptions/71.md). -/
def applyReasons (c : Chip) (b : Nat) : List Nat :=
  if b < 0x01000000 then
    (if b = 0x3200 then c.coachReasons else if b = 0x7000 then c.houseReasons else c.tbReasons ((b - 0x40000) / 0x100))
  else if b < 0x10000000 then
    let s := (b - 0x08000000) / 0x01000000
    let o := b % 0x01000000
    if o < 0x200000 then c.portReasons (s * 16 + (o - 0x100000) / 0x4000)
    else if o < 0x400000 then c.porterReasons b
    else if o < 0x800000 then c.lookupReasons s else c.schedReasons s
  else if b < 0x14000000 then
    let h := (b - 0x10000000) / 0x02000000
    if b % 0x02000000 = 0 then c.innkReasons h else c.lpmReasons h
  else if b < 0x15000000 then reasonIf (c.sget b R.PLANE_REPLAY_max_naks == 0) 1
  else reasonIf (decide (c.sget b R.HBM_ROWGUARD_rh_acts < 256) || c.sget b R.HBM_ROWGUARD_rh_hold_ms == 0) 1

/-! ### A go -/

/-- A field of APPLY_STATUS of a domain; Table 2-8's fields stand at `base + size − 4`. -/
def statusPut (c : Chip) (base size : Nat) (hi lo v : Nat) : Chip := c.put (base + size - 4) ⟨0, hi, lo⟩ v

def applyPending (c : Chip) (base : Nat) : Bool := (c.applies.look base).isSome

/-- A go is refused, or an apply withdrawn: apply_err, err_irq and reason (DESIGN CHOICE, notes/assumptions/71.md). -/
def applyRefuse (c : Chip) (base size reason : Nat) : Chip :=
  ((c.statusPut base size 30 30 1).statusPut base size 28 28 1).statusPut base size 23 16 reason

/-- Every staged value of a domain. -/
def stagedAll (c : Chip) (base size : Nat) : Tbl Word :=
  c.staged.filterMap fun p =>
    match p.2 with
    | some v => if base ≤ p.1 && p.1 < base + size then some (p.1, v) else none
    | none => none

/-- A pending apply is withdrawn with a reason (R49, R50) (DESIGN CHOICE, notes/assumptions/71.md). -/
def applyWithdraw (c : Chip) (base reason : Nat) : Chip :=
  match domainOf base, c.applies.look base with
  | some (_, size), some _ =>
    let c := match schedDomain base with
      | some s => c.each (c.sliceMates s) fun c m => c.setRecs m { c.recs m with snap := [] }
      | none => c
    (({ c with applies := c.applies.set base none }.statusPut base size 31 31 0)).applyRefuse base size reason
  | _, _ => c

/-! ### What an apply does beyond its registers -/

/-- The scheduler records of a snapshot that are not yet live in slice `s` become so. -/
def schedTake (c : Chip) (s : Nat) : Chip :=
  (c.takeRecords s fun _ _ => true).each ((List.range 16).filter fun q => (c.portRec (16 * s + q)).isSome) fun c q => c.schedSync (16 * s + q)

/-- What the new values of a port do at once, given the port before (spec/04_ports_and_lanes.md R81, R96, spec/14_time_gates.md R315,
R316). A transmitter that idles in LPI as lpi_enable falls stays there until a frame wakes it: the spec does not say
(DESIGN CHOICE, notes/assumptions/35.md). -/
def portTake (old c : Chip) (p : Nat) : Chip :=
  let b := A.port p
  let c := c.syncPeerLpi p
  let c := c.when (old.on b R.PORT_CTRL_enable && !(c.on b R.PORT_CTRL_enable) && c.on b R.PORT_STATUS_link_up) fun c => c.declareDown p
  let c := c.when (old.get b R.GATE_CTRL_tb != c.get b R.GATE_CTRL_tb && c.firstOf (U.port p)) fun c => c.gateResync p
  let c := c.when (old.reg (b + R.GATE_CTRL) != c.reg (b + R.GATE_CTRL)) fun c =>
    ((c.gateSync p).when (!(old.on b R.GATE_CTRL_enable)) fun c => c.gateHeads p)
  c.schedSync p

/-- A slice whose sleep the new values forbid wakes (spec/19_housekeeper_power_ageing.md R410). -/
def sleepTake (old c : Chip) : Chip :=
  c.each (List.range 8) fun c s =>
    let ok (x : Chip) : Bool := x.on 0 R.SLEEP_CTRL_enable && x.get 0 R.SLEEP_MASK_allow / 2 ^ s % 2 == 1
    c.when (ok old && !(ok c)) fun c => c.wakeCause s

/-- What follows in the member at window base `b` once its registers changed; `old` is the device before. -/
def afterTake (old c : Chip) (b : Nat) : Chip :=
  if b < 0x01000000 then
    if b = 0x3200 then c
    else if b = 0x7000 then old.sleepTake c
    else
      let t := (b - 0x40000) / 0x100
      let act := c.get b R.TB_CTRL_action
      (c.tbAction t).when (act == 1 || act == 2) fun c => c.gatesStepped t
  else if b < 0x10000000 then
    let s := (b - 0x08000000) / 0x01000000
    let o := b % 0x01000000
    if o < 0x200000 then old.portTake c (s * 16 + (o - 0x100000) / 0x4000)
    else if o < 0x800000 then c else c.schedTake s
  else if b < 0x14000000 then (if b % 0x02000000 = 0 then c.syncInnk ((b - 0x10000000) / 0x02000000) else c)
  else if b < 0x15000000 then c
  else c.put b R.HBM_STATUS_compat (c.get b R.HBM_CTRL_compat)

/-- The port of a port window's base, and the slice and number of a porter window's. -/
def portAt (b : Nat) : Option Nat :=
  if 0x08000000 ≤ b && b < 0x10000000 && 0x100000 ≤ b % 0x01000000 && b % 0x01000000 < 0x140000 then
    some ((b - 0x08000000) / 0x01000000 * 16 + (b % 0x01000000 - 0x100000) / 0x4000)
  else none

def porterAt (b : Nat) : Option (Nat × Nat) :=
  if 0x08000000 ≤ b && b < 0x10000000 && 0x200000 ≤ b % 0x01000000 && b % 0x01000000 < 0x222000 then
    some ((b - 0x08000000) / 0x01000000, (b % 0x01000000 - 0x200000) / 0x1000)
  else none

/-- What a port or a porter has begun goes on under the values it began with (R46, Table 2-10). -/
def markOlder (c : Chip) (b : Nat) : Chip :=
  match portAt b, porterAt b with
  | some p, _ => c.updPrt p fun q => { q with tx := q.tx.map fun t => { t with older := true }, rx := q.rx.map fun x => { x with older := true } }
  | none, some (s, n) => c.each ((List.range 4).filter fun th => (c.threadOf s n th).frame.isSome) fun c th =>
    c.setThread s n th { c.threadOf s n th with older := true }
  | none, none => c

/-- A direction of the port, or a thread of the porter, still acts on the values before (Table 2-10). -/
def actsOlder (c : Chip) (b : Nat) : Bool :=
  match portAt b, porterAt b with
  | some p, _ => (c.prt p).tx.any Tx.older || (c.prt p).rx.any Rx.older
  | none, some (s, n) => (List.range 4).any fun th => (c.threadOf s n th).older
  | none, none => false

/-- The snapshot's registers become live in the member whose window base is `b`. -/
def takeRegs (c : Chip) (base b : Nat) (snap : Tbl Word) : Chip :=
  let c := match schedDomain b with
    | some s => c.each (List.range 16) fun c q => c.baseTake s q
    | none => c
  c.each snap fun c x =>
    let at_ := x.1 - base + b
    match regRow x.1 with
    | some r => c.setReg at_ ((c.reg at_ &&& ~~~(BitVec.ofNat 64 r.sg)) ||| (x.2 &&& BitVec.ofNat 64 r.sg))
    | none => c

/-- The member with window base `b` has taken the snapshot wholly; pending clears after the last, and staged values that the snapshot made
live are one with the live ones again (R47, R51). -/
def memberTaken (c : Chip) (base size b : Nat) (a : Apply) : Chip :=
  let left := a.left.filter (· != b)
  if left.isEmpty then
    let c := { c.statusPut base size 31 31 0 with
      applies := c.applies.set base none
      staged := a.snap.foldl (fun st x => if st.look x.1 = some x.2 then st.set x.1 none else st) c.staged }
    match schedDomain base with
    | some s => c.setRecs s (c.recs s).settled
    | none => c
  else { c with applies := c.applies.set base (some { a with left, taken := a.taken.filter (· != b) }) }

/-- The member whose window base is `b` takes the snapshot of the domain at `base`: the live copy changes, and the member has taken it once
nothing acts on the values before (R47, R51) (DESIGN CHOICE, notes/assumptions/71.md). -/
def takeEffect (c : Chip) (base size b : Nat) : Chip :=
  match c.applies.look base with
  | none => c
  | some a =>
    if !(a.left.contains b) then c
    else if a.taken.contains b then (if c.actsOlder b then c else c.memberTaken base size b a)
    else
      let d := c.afterTake ((c.takeRegs base b a.snap).markOlder b) b
      if d.actsOlder b then { d with applies := d.applies.set base (some { a with taken := b :: a.taken }) } else d.memberTaken base size b a

/-- The window base of the first member of the domain that an address lies in, and its size. -/
def domainFirst (c : Chip) (a : Nat) : Option (Nat × Nat) :=
  (domainOf a).map fun d => (((c.copiesOf d.1).head?).getD d.1, d.2)

/-- The domain of a member of a suite is held in reset: its unit is in reset, or it is a failed or retired porter's (R50, R51,
spec/05_porters.md R123). -/
def domainHeld (c : Chip) (b : Nat) : Bool :=
  c.inReset (domainUnit b) || (porterAt b).any fun x => decide (2 ≤ c.role x.1 x.2)

/-- A write of go (R47 to R51) (DESIGN CHOICE, notes/assumptions/71.md). -/
def applyGo (c : Chip) (base size tag : Nat) : Chip :=
  let bad := if c.applyPending base then some 7 else if (c.copiesOf base).any c.domainHeld then some 6 else (c.applyReasons base).min?
  let c := ((c.put (base + size - 8) ⟨0, 15, 0⟩ tag).statusPut base size 15 0 tag)
  match bad with
    | some r => c.applyRefuse base size r
    | none =>
      let c := ((c.statusPut base size 30 30 0).statusPut base size 23 16 0).statusPut base size 31 31 1
      let c := c.when (base == 0x7000 && (c.staged.look R.AVS_CTRL).isSome) fun c => c.put 0 R.AVS_STATUS_stuck 0
      let c := c.when (0x40000 ≤ base && base < 0x40800) fun c => c.tbSteered ((base - 0x40000) / 0x100)
      let c := match schedDomain base with
        | some s =>
          let snap := (c.recs s).allStaged
          (c.setRecs s { c.recs s with written := [] }).each (c.sliceMates s) fun c m => c.setRecs m { c.recs m with snap }
        | none => c
      let c := { c with
        since := c.since.set base false
        applies := c.applies.set base (some { snap := c.stagedAll base size, left := c.copiesOf base, since := c.now }) }
      -- a sleeping slice takes it at once (spec/19_housekeeper_power_ageing.md R414)
      let sleeps (b : Nat) : Bool := (U.sliceOf (domainUnit b)).any fun s => c.house.sleep.look s == 2
      c.each ((c.copiesOf base).filter sleeps) fun c b => c.takeEffect base size b

/-- A write of revert: the live values go over the staged copy. While a go is pending they stay the staged copy when it takes effect (R45,
R48). -/
def applyRevert (c : Chip) (base size : Nat) : Chip :=
  let snap := ((c.applies.look base).map Apply.snap).getD []
  let staged := c.staged.filter fun p => !(decide (base ≤ p.1) && decide (p.1 < base + size))
  let c := { c with
    since := c.since.set base (c.applyPending base)
    staged := snap.foldl (fun t x => t.set x.1 (some (c.reg x.1))) staged }
  match schedDomain base with
  | some s => c.setRecs s (c.recs s).reverted
  | none => c

/-- A time base's window takes writes of its owner alone (spec/15_time_bases.md R325). -/
def tbGuard (c : Chip) (src : Source) (a : Nat) (f : Chip → Chip) : Chip :=
  if 0x40000 ≤ a && a < 0x40800 then
    let t := (a - 0x40000) / 0x100
    if c.tbMayWrite src t then f c else c.tbForeign t
  else f c

end Chip

/-! ### Meanings -/

/-- APPLY_GO (R47 to R51): `addr` is the address of the domain's APPLY register. -/
def execApplyGo (src : Source) (addr tag : Nat) (s : State) : Host.Outcome State Fault Refusal :=
  s.bus src addr true fun c =>
    match domainOf addr with
    | some (base, size) => if addr = base + size - 8 then c.tbGuard src addr fun c => c.applyGo base size tag else c
    | none => c

/-- APPLY_REVERT (R45). -/
def execApplyRevert (src : Source) (addr : Nat) (s : State) : Host.Outcome State Fault Refusal :=
  s.bus src addr true fun c =>
    match domainOf addr with
    | some (base, size) => if addr = base + size - 8 then c.tbGuard src addr fun c => c.applyRevert base size else c
    | none => c

/-- The member with window base `b` stands at its safe boundary as far as the state tells (Table 2-10): a direction of a port is between
frames, no frame is being looked up, a node with an eligible child has had its decision, and no refresh or training step of an HBM stack
runs; a porter's threads come to theirs one by one (DESIGN CHOICE, notes/assumptions/71.md). -/
def Chip.atBoundary (c : Chip) (b : Nat) : Bool :=
  if 0x15000000 ≤ b && b < 0x15800000 then
    let m := (b - 0x15000000) / 0x400000
    !(c.stepOn m) && !((List.range 32).any fun pc => (c.hpc m pc).emergency.isSome)
  else if b < 0x08000000 || 0x10000000 ≤ b then true
  else
    let s := (b - 0x08000000) / 0x01000000
    let o := b % 0x01000000
    if o < 0x200000 then
      let q := c.prt (s * 16 + (o - 0x100000) / 0x4000)
      q.tx.isNone || q.rx.isNone || !(c.on b R.PORT_STATUS_link_up)
    else if o < 0x400000 then true
    else if o < 0x800000 then !(c.frames.any fun x => x.2.any fun f => f.slice == s && f.stage == .lookups)
    else c.allTaken s

/-- APPLY_TAKE_EFFECT (R47, R51, R297): the member whose APPLY register would stand at `addr` reaches its safe boundary, or the last
direction or thread of one that has the new values comes to its own. -/
def execApplyTakeEffect (addr : Nat) (s : State) : Host.Outcome State Fault Refusal :=
  s.run .core fun c =>
    match domainOf addr, c.domainFirst addr with
    | some (b, _), some (base, size) =>
      if (c.applies.look base).isNone then c
      else
        let c := match schedDomain b with
          | some s => c.idleTake s
          | none => c
        if c.atBoundary b || (c.applies.look base).any (fun a => a.taken.contains b) then c.takeEffect base size b else c
    | _, _ => c

/-- APPLY_TIMEOUT (R49): 10 ms after the go. -/
def execApplyTimeout (addr : Nat) (s : State) : Host.Outcome State Fault Refusal :=
  s.run .core fun c =>
    match c.domainFirst addr with
    | some (base, _) =>
      match c.applies.look base with
      | some a => if c.passedUs a.since 10000 then c.applyWithdraw base 8 else c
      | none => c
    | none => c

end Sys2Proof.Machine
end

