-- ==== Sys2Proof/Machine/Reset.lean ====
section
/-! DEFINITION. Resets of units: the reset controller and block resets (spec/01_architecture.md R23 to R27), the ledger's block resets
(spec/18_ledger_and_faults.md R394), and a wake that fails (spec/19_housekeeper_power_ageing.md R411). -/

namespace Sys2Proof.Machine

open Sys2Proof

namespace Chip

/-! ### The judgement of a request (Table 1-9) -/

/-- The unit whose running or held reset absorbs a request that names `u` (R25, R26). -/
def absorber (c : Chip) (u : Nat) : Option Nat :=
  (c.rst.running.map RunReset.unit ++ c.rst.held).find? fun v => c.inside u v

/-- Reason of a request (Table 1-9); `soft` for software's. Refusals 0x01 to 0x04 are judged before 0x06, and 0x06 before 0x05 and
0x07 (DESIGN CHOICE, notes/assumptions/20.md). -/
def resetReason (c : Chip) (u kind : Nat) (soft : Bool) : Nat :=
  if 3 ≤ kind || !(c.present u) then 1
  else if c.suiteUnit u != u then 2
  else if u = U.device then 3
  else if protectedUnits.contains u then 4
  else if soft && c.on 0 R.UNIT_RESET_STATUS_busy then 6
  else if kind = 2 then
    (if !(c.rst.held.contains u) || c.rst.held.any (fun v => v != u && c.inside u v) then 7
     else if c.rst.running.any (fun r => c.inside u r.unit) then 5 else 0)
  else if (c.absorber u).isSome then 5 else 0

/-- UNIT_RESET_STATUS.held: the unit of software's last accepted request is held (R26). -/
def syncRstHeld (c : Chip) : Chip :=
  c.put 0 R.UNIT_RESET_STATUS_held (match c.rst.last with
    | some r => b2n (c.rst.held.any fun v => c.inside r.unit v)
    | none => 0)

/-! ### What a reset ends (R23) -/

/-- `u` came into reset between `old` and `c`. -/
def fell (old c : Chip) (u : Nat) : Bool := !(old.inReset u) && c.inReset u

/-- `u` left reset between `old` and `c`. -/
def rose (old c : Chip) (u : Nat) : Bool := old.inReset u && !(c.inReset u)

/-- Windows whose command is waiting or running (spec/20_host_interface.md R436). -/
def busyWins (c : Chip) : List Nat :=
  ((List.range 8).flatMap sliceWins ++ (List.range 2).flatMap fun h => [0x400, 0x402000, 0x402040, 0x402080].map (A.half h + ·)).filter
    c.winBusy

/-- Commands of covered windows complete with code 0x07, and pending applies of covered domains are withdrawn with reason 0x06
(spec/02_configuration_image.md R50). -/
def resetWindows (c : Chip) : Chip :=
  let c := c.each (c.busyWins.filter fun b => c.inReset (winOwner b)) Chip.winAbandon
  let due := c.applies.filterMap fun x =>
    if x.2.isSome && (c.copiesOf x.1).any fun b => c.inReset (domainUnit b) then some x.1 else none
  c.each due fun c b => c.applyWithdraw b 6

/-- A frame that a reset discards is counted at its port (R90). -/
def countDiscard (c : Chip) (p : Nat) : Chip := if p < 128 then c.cnt (c.portCnt p + C.reset_discard) 1 else c

/-- A frame before its verdict ends. -/
def resetFrame (c : Chip) (id : Nat) : Chip :=
  match c.frames.look id with
  | some f => (c.countDiscard f.port).endFrame id
  | none => c

/-- A copy in the slice ends; its cells are left to the innkeeper's reclaim (spec/12_innkeeper_buffers.md R275). -/
def resetCopy (c : Chip) (id : Nat) : Chip :=
  match c.copies.look id with
  | none => c
  | some k =>
    let c := (c.countDiscard k.port).unstamp (c.fr (c.arr k.arrival).frame).slot
    { c with copies := c.copies.set id none }

/-- The scheduler of a slice at its reset values: no frame on a line, empty queues, full buckets, tags and virtual times 0
(spec/13_hierarchical_scheduling.md R300). -/
def clearSched (c : Chip) (s : Nat) : Chip :=
  let c := c.each (List.range 16) fun c q => (c.updPrt (16 * s + q) fun v => { v with tx := none, idleAt := c.now }).put (baseAt s q)
    R.BASE_VTIME_vtime 0
  (c.setSch s {}).syncCoach s

/-- A slice's arrivals and copies end (R90, R275) (DESIGN CHOICE, notes/assumptions/26.md). -/
def resetEgress (c : Chip) (s : Nat) : Chip :=
  let mine := (c.arrivals.filter fun x => x.2.any fun a => a.slice == s).map Prod.fst
  let c := c.each mine fun c aid => ((c.arr aid).copies.foldl Chip.resetCopy c)
  let c := c.each mine fun c aid => { c with arrivals := c.arrivals.set aid none }.unhold (c.arr aid).frame
  c.clearSched s

/-- Cells that slice `s` holds back for a barrier are discarded. -/
def resetHeld (c : Chip) (s : Nat) : Chip :=
  let drop (c : Chip) (x : Cell) : Chip :=
    (c.when x.first fun c => c.streamCopied x.stream s 0).when x.last fun c => c.streamClosedAt x.stream s
  let c := c.each (List.range 8) fun c src =>
    let i := s * 8 + src
    let l := c.heldCells.look i
    { c with heldCells := c.heldCells.clear i, heldSince := c.heldSince.clear i }.each (l.map Prod.snd) drop
  let l := c.house.wakeStore.look s
  let c := c.setHouse { c.house with wakeStore := c.house.wakeStore.clear s }
  (c.each (l.filterMap fun w => match w with
    | .cell _ x => some x
    | .frame _ => none) drop).syncHolding s

/-- The source slice's reset ends a stream: destinations drop the frame if it is open there (spec/11_mollux_fabric.md R251); a stream not
wholly sent ends. -/
def resetStream (c : Chip) (id : Nat) : Chip :=
  match c.streams.look id with
  | none => c
  | some v =>
    let all := c.streamSentAll v
    let c := c.each (maskList v.openAt) fun c d =>
      match c.openArrival d v.slice (v.plane.getD 4) v.tag with
      | some a => if (c.arr a).dead then c else (c.cnt (c.sliceCnt d + C.fab_reasm_drop) 1).abortArrival a all
      | none => c
    if all then c else (c.countDiscard (c.fr v.frame).port).killStream id

/-- A slice's ingress side ends: frames before their verdict, streams, punts, and what waits for frames' ends (R23, R90)
(DESIGN CHOICE, notes/assumptions/26.md). -/
def resetIngress (c : Chip) (s : Nat) : Chip :=
  let early := (c.frames.filter fun x => x.2.any fun f => f.slice == s && f.stage != .judged).map Prod.fst
  let c := c.each early Chip.resetFrame
  let c := c.each ((c.streams.filter fun x => x.2.any fun v => v.slice == s).map Prod.fst) Chip.resetStream
  let ps := c.host.punts.look s
  let c := { c with host := { c.host with punts := c.host.punts.clear s } }
  let c := c.each ps fun c p => ((c.countDiscard (c.fr p.frame).port).unstamp (c.fr p.frame).slot).unhold p.frame
  let c := { c with
    frames := c.frames.map fun (x : Nat × Option Frame) => (x.1, x.2.map fun (f : Frame) => if f.slice = s then { f with staged := false } else f)
    tails := c.tails.filter fun x => x.2.slice != s || (c.frames.look x.1).isSome }
  c.each (List.range 16) fun c q => c.updPrt (16 * s + q) fun v => { v with rx := none, wait := [], parsing := [] }

/-- A failed or retired porter whose reset has come is checked for the return to spare (spec/05_porters.md R126); a spare that was
taking over is checked again (DESIGN CHOICE, notes/assumptions/26.md). -/
def resetPorter (c : Chip) (s n : Nat) : Chip :=
  let c := c.each ((List.range 4).filterMap fun th => (c.threadOf s n th).frame) Chip.resetFrame
  let c := (c.setPorter s n {}).syncBusy s n
  let f := c.front s
  let out := c.role s n == 2 || c.role s n == 3
  c.setFront s { f with
    recheck := if out && !(f.recheck.contains n) then f.recheck ++ [n] else f.recheck
    failovers := f.failovers.map fun x => if x.2.1 = n then (x.1, n, false) else x }

/-- The exact-match engines forget what they were doing (spec/08_exact_match.md R186). -/
def resetEm (c : Chip) (s : Nat) : Chip := c.setEm s { c.emTab s with queue := [], recent := [], job := none }

/-- TCAM writes that wait for a slot are abandoned with their command (spec/20_host_interface.md R436). -/
def resetTcam (c : Chip) (s : Nat) : Chip := c.setTcam s { c.tcamTab s with writes := [] }

/-- A ping-pong FIFO is emptied with its owner (DESIGN CHOICE, notes/assumptions/26.md). -/
def resetFifo (c : Chip) (f : Nat) : Chip :=
  { c with fifos := c.fifos.set f { sent := (c.fifos.look f).sent } }.syncFifo f

/-- The egress scheduler of a slice (spec/13_hierarchical_scheduling.md R300): queued frames, tags, virtual times and buckets. -/
def resetSched (c : Chip) (s : Nat) : Chip :=
  let ids := (c.copies.filter fun x => x.2.any fun k => k.slice == s).map Prod.fst
  let c := c.each ids fun c id => (c.countDiscard (c.cpy id).port).endCopy id
  c.clearSched s

/-- A requester's reset begins in every half that holds it (spec/12_innkeeper_buffers.md R265, R275). -/
def resetLodger (c : Chip) (u : Nat) : Chip :=
  c.each (List.range 2) fun c h => match c.reqOf h u with
    | some i => c.recoverStart h i
    | none => c

/-- Reclaim ends before the release, and the recovery time starts (R265, R275). -/
def releaseLodger (c : Chip) (u : Nat) : Chip :=
  c.each (List.range 2) fun c h => match c.reqOf h u with
    | some i => (c.reclaimAll h i).recoverRelease h i
    | none => c

/-- A slice's reset begins (R23) (DESIGN CHOICE, notes/assumptions/26.md). -/
def resetSlice (c : Chip) (s : Nat) : Chip :=
  let c := ((c.wakeCause s).resetIngress s).resetHeld s
  let c := (c.resetEgress s).resetLodger (U.slice s)
  let h := s / 4
  c.setInnk h { c.innk h with spillable := (c.innk h).spillable.filter fun x => x.1 / 16384 != s }

/-- The innkeeper's reset begins: the half is in recovery, and its free list is to be rebuilt (spec/12_innkeeper_buffers.md R265,
R277). -/
def resetInnk (c : Chip) (h : Nat) : Chip :=
  (c.setInnk h { c.innk h with halfRecover := true, halfReleased := none, rebuilt := false }).syncInnk h

/-- A plane's reset: it discards what it holds, and the condition of R250 for a restore is met (DESIGN CHOICE, notes/assumptions/26.md). -/
def resetPlane (c : Chip) (k : Nat) : Chip := (c.setPl k { c.pl k with wasReset := true }).clearPlane k

/-- A control core stops (DESIGN CHOICE, notes/assumptions/26.md). -/
def resetCore (c : Chip) (k : Nat) : Chip := if c.coreRuns k then c.coreStop k else c

/-- The DMA engine abandons the descriptors that it serves; they are fetched again (DESIGN CHOICE, notes/assumptions/26.md). -/
def resetDma (c : Chip) : Chip :=
  let rs := (c.host.rings.map fun (x : Nat × Ring) => (x.1, { x.2 with desc := none, read := none })).filter fun x => x.2 != default
  { c with host := { c.host with rings := rs } }.resetLodger 0xD028

/-- The sweep engine forgets its sweeps (DESIGN CHOICE, notes/assumptions/26.md). -/
def resetSweep (c : Chip) : Chip :=
  { c with sweep := { c.sweep with waiting := [], running := none, buffer := [] } }.setReg R.SWEEP_STATUS (regReset R.SWEEP_STATUS)

/-- The effects on every unit that came into reset (DESIGN CHOICE, notes/assumptions/26.md). -/
def resetBegin (old c : Chip) : Chip :=
  let on (c : Chip) (u : Nat) (f : Chip → Chip) : Chip := c.when (fell old c u) f
  let c := c.resetWindows
  let c := c.each (List.range 8) fun c s => on c (U.slice s) fun c => c.resetSlice s
  let c := c.each (List.range 8) fun c s =>
    let c := c.each (List.range 34) fun c n => on c (porterUnit s n) fun c => c.resetPorter s n
    let c := on c (U.sliceBlk s 0x48) fun c => c.resetEm s
    let c := on c (U.sliceBlk s 0x50) fun c => c.resetTcam s
    let c := on c (U.sliceBlk s 0x70) fun c => c.resetSched s
    let c := on c (U.sliceBlk s 0x80) fun c => (c.each ((c.house.wakeStore.look s).filterMap fun w => match w with
      | .frame id => some id
      | .cell _ _ => none) Chip.resetFrame).resetHeld s
    on c (U.sliceBlk s 0x88) fun c => c.each ((c.frames.filter fun x => x.2.any fun f => f.slice == s && f.stage == .waiting).map Prod.fst)
      Chip.resetFrame
  let c := c.each (List.range 24) fun c f => on c (fifoUnit f) fun c => c.resetFifo f
  let c := c.each (List.range 2) fun c h =>
    let c := on c (U.halfBlk h 0) fun c => c.resetInnk h
    let c := c.when (fell old c (hbmUnit h) || fell old c (phyUnit h)) fun c => c.hbmReset h
    c.each (List.range 32) fun c pc => c.when (fell old c (pcUnit h pc) && !(c.inReset (U.half h))) fun c => c.pcReset h pc
  let c := c.each (List.range 4) fun c k => on c (planeUnit k) fun c => c.resetPlane k
  let c := c.each (List.range 4) fun c k => on c (0xD010 + k) fun c => c.resetCore k
  let c := on c 0xD020 Chip.endpointReset
  let c := on c 0xD028 Chip.resetDma
  let c := on c 0xD060 Chip.resetSweep
  c.orphanWhere fun l => fell old c l.owner

/-- The effects on every unit that left reset (R27, R444) (DESIGN CHOICE, notes/assumptions/26.md). -/
def resetEnd (old c : Chip) : Chip :=
  let on (c : Chip) (u : Nat) (f : Chip → Chip) : Chip := c.when (rose old c u) f
  let c := c.each (List.range 8) fun c s => on c (U.slice s) fun c =>
    (c.releaseLodger (U.slice s)).each ((List.range 16).filter fun q => (c.portRec (16 * s + q)).isSome) fun c q => c.schedSync (16 * s + q)
  let c := on c 0xD028 fun c => c.releaseLodger 0xD028
  let c := c.each (List.range 2) fun c h =>
    let c := on c (U.halfBlk h 0) fun c => (c.setInnk h { c.innk h with halfReleased := some c.now }).syncInnk h
    c.when ((rose old c (hbmUnit h) || rose old c (phyUnit h)) && c.hbmUp h) fun c => c.hbmRelease h
  let c := on c 0xD018 fun c => c.fillAll 0xD018
  let c := c.each (List.range 4) fun c k => on c (0xD010 + k) fun c =>
    if c.get 0 R.CC_CTRL_release / 2 ^ k % 2 = 1 then (c.fillAll (0xD010 + k)).coreStart k else c
  c.each (List.range 128) fun c q =>
    c.when (old.lineReset q && !(c.lineReset q)) fun c => c.put (A.lane q) R.LANE_STATUS_cdr_lock (c.get (A.lane q) R.LANE_STATUS_signal_detect)

/-! ### Link state (R23) -/

/-- A lane that a reset of its own covers loses its lock (DESIGN CHOICE, notes/assumptions/26.md). -/
def resetLane (c : Chip) (q : Nat) : Chip :=
  let sig := c.get (A.lane q) R.LANE_STATUS_signal_detect
  (c.laneSignal q false).put (A.lane q) R.LANE_STATUS_signal_detect sig

/-- A port whose link state is reset: the frame being received and those on the line end, and its link goes down. -/
def resetPort (c : Chip) (p : Nat) : Chip :=
  let c := match (c.prt p).rx with
    | some x =>
      let c := c.updPrt p fun v => { v with rx := none }
      match c.frames.look x.id with
      | some f =>
        if f.started then (c.setFr x.id { f with whole := true, bad := true }).setTail x.id {} else (c.countDiscard p).killFrame x.id
      | none => c.setTail x.id {}
    | none => c
  let c := c.each ((c.prt p).tx.toList.map Tx.copy) fun c id => (c.countDiscard p).endCopy id
  let c := c.updPrt p fun v => { v with tx := none, idleAt := c.now }
  if c.on (A.port p) R.PORT_STATUS_link_up then c.declareDown p else c

/-- Lanes that a reset of their own now covers, and their ports. -/
def resetLines (old c : Chip) : Chip :=
  let qs := (List.range 128).filter fun q => !(old.lineReset q) && c.lineReset q
  let c := c.each qs Chip.resetLane
  c.each ((qs.filterMap fun q => (c.portOfLane q).map PortRec.first).dedup) Chip.resetPort

/-! ### Requests -/

/-- A reset of `u` starts: running resets inside it go into it and release as one with it, holds among them stay holds, and releases among
them end with it (R25, R26). -/
def resetStart (c : Chip) (u kind : Nat) : Chip :=
  let inner := c.rst.running.filter fun r => c.inside r.unit u
  let held := (c.rst.held.filter fun v => !(inner.any fun r => r.kind == 2 && r.unit == v)) ++ (inner.filter fun r => r.kind == 1).map RunReset.unit
  let was := inner.any fun r => r.kind == 1 && c.rst.last == some r
  let merged := (c.rst.merged.map fun x => if c.inside x.1 u then (u, x.2) else x) ++
    (inner.filter fun r => r.kind != 1 && r.unit != u).map fun r => (u, r.unit)
  let new := { c with rst := { c.rst with running := c.rst.running.filter (fun r => !(c.inside r.unit u)) ++ [⟨u, kind⟩], held, merged } }
  let new := (resetLines c (resetBegin c new)).syncRstHeld
  new.when was fun c => c.put 0 R.UNIT_RESET_STATUS_busy 0

/-- A held unit's release starts (R26, R27). -/
def releaseStart (c : Chip) (u : Nat) : Chip := { c with rst := { c.rst with running := c.rst.running ++ [⟨u, 2⟩] } }

/-- Software's write of start (R25, R26, Table 1-8) (DESIGN CHOICE, notes/assumptions/20.md). -/
def resetRequest (c : Chip) (u kind : Nat) : Chip :=
  let c := (c.put 0 R.UNIT_RESET_scope kind).put 0 R.UNIT_RESET_unit_id u
  let r := c.resetReason u kind true
  let target := if r = 0 then u else if r = 5 then (c.absorber u).getD 0 else 0
  let c := (c.put 0 R.UNIT_RESET_STATUS_reason r).put 0 R.UNIT_RESET_STATUS_target target
  if r = 0 then
    let c := { c with rst := { c.rst with last := some ⟨u, kind⟩ } }.put 0 R.UNIT_RESET_STATUS_busy 1
    if kind = 2 then (c.releaseStart u).syncRstHeld else c.resetStart u kind
  else c

/-- Suites of slices with members inside and outside of `u`: a reaction that resets a slice resets its whole suite (R21). -/
def splitSuites (c : Chip) (u : Nat) : List Nat :=
  (c.image.suites.filterMap fun m => match m with
    | v :: _ => if U.level v = 4 && m.any (fun x => c.inside x u) && !(m.all fun x => c.inside x u) then some v else none
    | [] => none)

/-- The ledger's request for a target (R394), and for the suites whose slices it resets in part (R21). -/
def ledgerReset (c : Chip) (t : Nat) : Chip :=
  let ask (c : Chip) (u : Nat) : Chip := if c.resetReason u 0 false = 0 then c.resetStart u 0 else c
  (ask c (c.suiteUnit t)).each (c.splitSuites (c.suiteUnit t)) ask

/-- A running reset or release ends (R27). -/
def resetComplete (c : Chip) (u : Nat) : Chip :=
  match c.rst.running.find? fun r => r.unit == u && r.kind != 1 with
  | none => c
  | some r =>
    let new := { c with rst := { c.rst with
      running := c.rst.running.filter (· != r)
      merged := c.rst.merged.filter fun x => x.1 != u
      held := if r.kind = 2 then c.rst.held.filter (· != u) else c.rst.held } }
    let mine := c.rst.last.any fun l => l.kind != 1 && c.inside l.unit u
    ((resetEnd c new).when mine fun c => c.put 0 R.UNIT_RESET_STATUS_busy 0).syncRstHeld

/-- A unit under scope 0b01 is in reset (R26). -/
def holdReached (c : Chip) (u : Nat) : Chip :=
  if c.rst.running.contains (RunReset.mk u 1) then
    let c := { c with rst := { c.rst with running := c.rst.running.filter (· != RunReset.mk u 1), held := c.rst.held ++ [u] } }
    (c.when (c.rst.last == some (RunReset.mk u 1)) fun c => c.put 0 R.UNIT_RESET_STATUS_busy 0).syncRstHeld
  else c

/-! ### A wake that fails -/

/-- A wake on the backup set fails (spec/19_housekeeper_power_ageing.md R411) (DESIGN CHOICE, notes/assumptions/29.md). -/
def wakeFails (c : Chip) (s : Nat) : Chip :=
  let c := c.each (c.house.wakeStore.look s) fun c w =>
    let c := c.cnt (C.wake_store_drop + 0x20 * s) 1
    match w with
    | .frame id => c.endFrame id
    | .cell _ x => (c.when x.first fun c => c.streamCopied x.stream s 0).when x.last fun c => c.streamClosedAt x.stream s
  let c := (c.setHouse { c.house with wakeStore := c.house.wakeStore.clear s }).setPhase s 0
  let u := c.suiteUnit (U.slice s)
  let c := if c.inReset u then c else (c.resetStart u 1).holdReached u
  (c.report (U.sliceBlk s 0x90) K.sliceWakeFail 3 2).put 0 R.HK_EVENT_wake_fail 1

end Chip

/-! ### Meanings: the reset controller -/

/-- UNIT_RESET_RELEASE (R23, R25): scope 0b00. -/
def execUnitResetRelease (src : Source) (unit : Nat) (s : State) : Host.Outcome State Fault Refusal :=
  s.bus src R.UNIT_RESET true fun c => c.resetRequest (unit % 65536) 0

/-- UNIT_RESET_HOLD (R26): scope 0b01. -/
def execUnitResetHold (src : Source) (unit : Nat) (s : State) : Host.Outcome State Fault Refusal :=
  s.bus src R.UNIT_RESET true fun c => c.resetRequest (unit % 65536) 1

/-- UNIT_RELEASE_HELD (R26): scope 0b10. -/
def execUnitReleaseHeld (src : Source) (unit : Nat) (s : State) : Host.Outcome State Fault Refusal :=
  s.bus src R.UNIT_RESET true fun c => c.resetRequest (unit % 65536) 2

/-- UNIT_RESET_COMPLETE (R27). -/
def execUnitResetComplete (unit : Nat) (s : State) : Host.Outcome State Fault Refusal := s.run .core fun c => c.resetComplete unit

/-- UNIT_HOLD_REACHED (R26). -/
def execUnitHoldReached (unit : Nat) (s : State) : Host.Outcome State Fault Refusal := s.run .core fun c => c.holdReached unit

/-- REACTION_BLOCK_RESET (spec/18_ledger_and_faults.md R394): the oldest block reset that is due. -/
def execReactionBlockReset (s : State) : Host.Outcome State Fault Refusal :=
  s.run .core fun c =>
    match c.ledger.blocks with
    | [] => c
    | t :: rest => { c with ledger := { c.ledger with blocks := rest } }.ledgerReset t

/-- WAKE_BACKUP_TIMEOUT (spec/19_housekeeper_power_ageing.md R411). -/
def execWakeBackupTimeout (sl : Nat) (s : State) : Host.Outcome State Fault Refusal :=
  s.run .core fun c => if sl < 8 && c.house.sleep.look sl == 4 then c.wakeFails sl else c

end Sys2Proof.Machine
end

