-- ==== Sys2Proof/Machine/Trigger.lean ====
section
/-! DEFINITION. The operation that a window's go carries out, by the window and op (spec/20_host_interface.md Table 20-6, R436): the
operation of the command that the chapter of that window names, so that a preset (spec/02_configuration_image.md R42) or a plain register
write of CMD does the same. -/

namespace Sys2Proof.Machine

open Sys2Proof

/-- What a window's operation does with its snapshot; the result where it has one at once. -/
abbrev WinOp := WinIn → Chip → Chip × Option WinRes

/-- An operation that has its result at once. -/
def atOnce (f : WinIn → Chip → Chip × WinRes) : WinOp := fun w c => ((f w c).1, some (f w c).2)

/-- Operations of the exact-match window of slice `sl` (spec/08_exact_match.md Table 8-6). -/
def emOp (sl : Nat) : Nat → Option WinOp
  | 1 => some (atOnce (Chip.emReadOp sl))
  | 2 => some (atOnce (Chip.emSearchOp sl))
  | 3 => some (atOnce (Chip.emSearchPendingOp sl))
  | 4 => some (Chip.emInsertOp sl)
  | 5 => some (atOnce (Chip.emWriteOp sl))
  | 6 => some (atOnce (Chip.emLearnOp sl))
  | 7 => some (atOnce (Chip.emUnlearnOp sl))
  | 8 => some (atOnce (Chip.emFlushOp sl))
  | 9 => some (atOnce (Chip.emHoldOp sl))
  | _ => none

/-- Operations of the bridge-domain window. -/
def bdOp (sl : Nat) : Nat → Option WinOp
  | 1 => some (atOnce (Chip.bdReadOp sl))
  | 2 => some (atOnce (Chip.bdWriteOp sl))
  | _ => none

/-- Operations of the TCAM window (spec/09_lpm_and_tcam.md Table 9-13). -/
def tcamOp (sl : Nat) : Nat → Option WinOp
  | 1 => some (atOnce (Chip.readPartOp sl))
  | 2 => some (atOnce (Chip.loadPartOp sl))
  | 3 => some (Chip.tcamWriteOp sl)
  | 4 => some (atOnce (Chip.tcamSearchOp sl))
  | _ => none

/-- Operations of the LPM window (spec/09_lpm_and_tcam.md R208). -/
def lpmOp (h : Nat) : Nat → Option WinOp
  | 1 => some (atOnce (Chip.lpmReadOp h))
  | 2 => some (atOnce (Chip.lpmSearchOp h))
  | 3 => some (atOnce (Chip.lpmSearchPendingOp h))
  | 4 => some (atOnce (Chip.lpmInsertOp h))
  | 5 => some (atOnce (Chip.lpmWriteOp h))
  | _ => none

/-- Operations of a prefilter window (spec/09_lpm_and_tcam.md Table 9-3). -/
def filterOp (h : Nat) (v6 : Bool) : Nat → Option WinOp
  | 1 => some (atOnce (Chip.filterReadOp h v6))
  | 2 => some (atOnce (Chip.filterWriteOp h v6))
  | 3 => some (atOnce (Chip.setRangeOp h v6))
  | 4 => some (atOnce (Chip.clearRangeOp h v6))
  | _ => none

/-- Operations of the cell window (spec/12_innkeeper_buffers.md R260, R278). -/
def cellOp (h : Nat) : Nat → Option WinOp
  | 1 => some (atOnce (Chip.cellReadOp h))
  | 2 => some (atOnce (Chip.reclaimOp h))
  | _ => none

/-- Operations of a small versioned table's window (spec/11_mollux_fabric.md R252, spec/04_ports_and_lanes.md Table 4-19, 4-20). -/
def vOp (t : VTab) (sl : Nat) : Nat → Option WinOp
  | 1 => some (atOnce fun w c => c.vRead t sl w)
  | 5 => some (atOnce fun w c => c.vWrite t sl w)
  | _ => none

/-- Operations of an object window (spec/10_actions_and_editing.md R227, R230). -/
def objOp (sl base : Nat) : Nat → Option WinOp
  | 1 => some (atOnce (Chip.objReadOp base))
  | 2 => some (atOnce (Chip.objWriteOp base))
  | 3 => if base = meterWin sl then some (atOnce (Chip.resetBucketsOp sl)) else none
  | _ => none

/-- Operations of a scheduler record window (spec/13_hierarchical_scheduling.md R296). -/
def recordOp (base : Nat) : Nat → Option WinOp
  | 1 => some (atOnce (Chip.recordReadOp base))
  | 2 => some (atOnce (Chip.recordWriteOp base))
  | _ => none

/-- The windows of slice `sl` by their offset. -/
def sliceOp (sl base o : Nat) : Nat → Option WinOp :=
  if o = 0x440000 then emOp sl
  else if o = 0x441000 then bdOp sl
  else if o = 0x450000 then tcamOp sl
  else if o = 0x460000 then vOp .ecid sl
  else if o = 0x461000 then vOp .sub sl
  else if o = 0x490000 then vOp .head sl
  else if (objWindow base).isSome then objOp sl base
  else if (schedWindow base).isSome then recordOp base
  else if o = 0x8100C0 then fun op => if op = 1 then some (atOnce (Chip.queueStatusOp sl)) else none
  else fun _ => none

/-- The windows of half `h` by their offset. -/
def halfOp (h o : Nat) : Nat → Option WinOp :=
  if o = 0x400 then cellOp h
  else if o = 0x402000 then filterOp h false
  else if o = 0x402040 then filterOp h true
  else if o = 0x402080 then lpmOp h
  else fun _ => none

/-- The operation of `op` in the window at `base`; none for a reserved op (the keepsake window's are `Chip.keepRead` and
`Chip.keepWrite`). -/
def winOp (base : Nat) : Nat → Option WinOp :=
  if 0x08000000 ≤ base && base < 0x10000000 then sliceOp ((base - 0x08000000) / 0x01000000) base (base % 0x01000000)
  else if 0x10000000 ≤ base && base < 0x14000000 then halfOp ((base - 0x10000000) / 0x02000000) (base % 0x02000000)
  else fun _ => none

/-- Offsets of the indirect windows of a slice and of a half. -/
def winOffs : List Nat :=
  [0x440000, 0x441000, 0x450000, 0x460000, 0x461000, 0x470000, 0x470040, 0x470080, 0x4700C0, 0x470100, 0x490000, 0x490040, 0x810000,
    0x810040, 0x810080, 0x8100C0]

def halfWinOffs : List Nat := [0x400, 0x402000, 0x402040, 0x402080]

/-- The base of the window that an address lies in. -/
def winAt (a : Nat) : Option Nat :=
  let among (l : List Nat) (o : Nat) : Option Nat := (l.find? fun w => decide (w ≤ o) && decide (o < w + 0x30)).map (a - o + ·)
  if 0x7100 ≤ a && a < 0x7130 then some keepWin
  else if 0x08000000 ≤ a && a < 0x10000000 then among winOffs (a % 0x01000000)
  else if 0x10000000 ≤ a && a < 0x14000000 then among halfWinOffs (a % 0x02000000)
  else none

namespace Chip

/-- A go with `op` in the window at `base` (R436): a reserved op completes with code 0x06. -/
def winFire (c : Chip) (nv : Nv) (src : Source) (base op : Nat) : Chip :=
  if base = keepWin && op = 1 then c.keepRead src nv
  else if base = keepWin && op = 2 then c.keepWrite src
  else
    match winOp base op with
    | some f => c.winLater src base op f
    | none => c.winGo src base op fun _ c => (c, { code := 6 })

end Chip

end Sys2Proof.Machine
end

