-- ==== Sys2Proof/Machine/Bus.lean ====
section
/-! DEFINITION. Register writes and reads (spec/00_scope.md R6 to R11, Table 0-5): a write acts on each field by its access code, the
registers that a chapter treats otherwise do what that chapter says; a go or another one-shot field does what the command of its own does
(spec/02_configuration_image.md R42). -/

namespace Sys2Proof.Machine

open Sys2Proof

/-- `v` under the mask, the rest from `old`. -/
def merge (old v mask : Word) : Word := (old &&& ~~~mask) ||| (v &&& mask)

namespace Chip

/-- Plain effect of a write on one register: RW bits take the value, W1C bits written 1 clear (Table 0-5). -/
def plainWrite (c : Chip) (r : RegRow) (a : Nat) (v mask : Word) : Chip :=
  c.setReg a (merge (c.reg a) v (BitVec.ofNat 64 r.rw &&& mask) &&& ~~~(v &&& mask &&& BitVec.ofNat 64 r.w1c))

/-- Staged fields take the value in the staged copy alone (R46, R48). -/
def stageWrite (c : Chip) (r : RegRow) (a : Nat) (v mask : Word) : Chip :=
  if r.sg = 0 || BitVec.ofNat 64 r.sg &&& mask = 0 then c
  else
    let c := { c with staged := c.staged.set a (some (merge (c.stagedReg a) v (BitVec.ofNat 64 r.sg &&& mask))) }
    match domainOf a with
    | some (base, _) => { c with since := c.since.set base (c.applyPending base) }
    | none => c

/-- A write of one register by its access codes, in every member of a suite. -/
def codeWrite (c : Chip) (r : RegRow) (a : Nat) (v mask : Word) : Chip :=
  (c.each (c.copiesOf a) fun c b => c.plainWrite r b v mask).stageWrite r a v mask

/-- Writes that a register of the group addressed by MEM_SEL takes (Table 17-4 to 17-8). -/
def groupWrite (c : Chip) (o : Nat) (v mask : Word) : Chip :=
  match c.selGroup with
  | none => c
  | some u =>
    let a := A.group u + o
    if o = R.MEM_LOG_ENTRY then
      -- a write of valid = 0 frees the entry that MEM_LOG_INDEX names
      if bit mask 63 && !(bit v 63) then
        let i := c.get (A.group u) R.MEM_LOG_INDEX_entry
        let g := c.grp u
        c.setGrp u { g with log := g.log.set i 0, logOrder := g.logOrder.filter (· != i) }
      else c
    else if o = R.MEM_FILL then c.memFill v
    else if o = R.MEM_REMAP && bit v 31 then (if bit v 30 then c.memUnmap v else c.memRemap v)
    else
      match regRow a with
      | none => c
      | some r =>
        if o = R.MEM_SCRUB then
          let m := if bits v 27 24 = 0 then mask &&& ~~~(0xF000000 : Word) else mask
          let m := if bits v 15 0 = 0 then m &&& ~~~(0xFFFF : Word) else m
          let c := c.plainWrite r a v m
          c.put (A.group u) R.MEM_SCRUB_rate (Nat.min (c.get (A.group u) R.MEM_SCRUB_rate) (1 + Config.scrubLimit u))
        else c.plainWrite r a v mask

/-- Writes to a ring's registers (spec/20_host_interface.md R437, R432). -/
def ringWrite (c : Chip) (src : Source) (r : RegRow) (a : Nat) (v mask : Word) : Chip :=
  let q := (a - 0x100000) / 0x40
  let o := a % 0x40
  let fixed := c.on (A.ring q) R.RING_CFG_enable
  if o = R.RING_PI then c.ringPi q (bits v 16 0)
  else if o = R.RING_CI then c.ringCi q (bits v 16 0)
  else if o = R.RING_BASE_LO || o = R.RING_BASE_HI then (if fixed then c else c.plainWrite r a v mask)
  else if o = R.RING_CFG then
    let vf := match src with
      | .vf _ => true
      | _ => false
    let m := mask &&& ~~~(0x80000000 : Word)
    let m := if vf then m &&& ~~~(0x1F000000 : Word) else m
    (if fixed then c else c.plainWrite r a v m).ringSet q (bit v 31)
  else c.plainWrite r a v mask

/-- Writes to the ledger's registers (Table 18-7, 18-8) (DESIGN CHOICE, notes/assumptions/18.md). -/
def ledgerWrite (c : Chip) (r : RegRow) (a : Nat) (v mask : Word) : Chip :=
  if a = R.LEDGER_RD_PTR then
    let p := bits v 10 0
    if (p + 2048 - c.get 0 R.LEDGER_RD_PTR_ptr) % 2048 ≤ c.unread then (c.put 0 R.LEDGER_RD_PTR_ptr p).syncRing else c
  else if a = R.LEDGER_REACT then
    let k := c.get 0 R.LEDGER_REACT_SEL_kind
    if K.all.contains k then { c with ledger := { c.ledger with reacts := c.ledger.reacts.set k (some (bits v 15 0)) } } else c
  else if a = R.LEDGER_OVR then
    { c with ledger := { c.ledger with ovrs := c.ledger.ovrs.upd (c.get 0 R.LEDGER_OVR_SEL_entry) fun o =>
        { o with valid := bit v 31, kind := bits v 27 16, unit := bits v 15 0 } } }
  else if a = R.LEDGER_OVR_REACT then
    { c with ledger := { c.ledger with ovrs := c.ledger.ovrs.upd (c.get 0 R.LEDGER_OVR_SEL_entry) fun o => { o with react := bits v 15 0 } } }
  else if a = R.LEDGER_CTRL then (if bit v 31 then c.errnRelease else c)
  else if a = R.LEDGER_INJ_CTRL then
    (if bit v 31 then c.injArm v else (c.plainWrite r a v (mask &&& ~~~(0x80000000 : Word))).injDisarm)
  else c.plainWrite r a v mask

/-- The side that may write a mailbox channel (spec/03_boot_and_strongroom.md R72): 0 the physical function, 1 the cores. -/
def mailSide (src : Source) (ch : Nat) : Bool :=
  match src with
  | .pf => ch == 0
  | .core _ => ch == 1
  | .vf _ => false

/-- Opcodes of Table 3-14. -/
def mailOps : List Nat := [1, 2, 3, 4, 5, 6, 7, 8, 9, 0xA, 0xD, 0xE]

/-- Opcodes that program fuses. -/
def fuseOps : List Nat := [4, 5, 6]

/-- A channel's command programs fuses and is not complete. -/
def programming (c : Chip) (ch : Nat) : Bool :=
  match c.room.cmds.look ch with
  | some m => fuseOps.contains m.op && !m.excluded
  | none => false

/-- A go of a mailbox channel (R72): the request stands in the data area; a busy channel ignores it. -/
def mailGo (c : Chip) (ch op len seq : Nat) (verdict : Option TokenCheck) (blown : Nat) (pass : Bool) : Chip :=
  let b := A.mbox ch
  if 2 ≤ ch || c.on b R.MBX_STATUS_busy then c
  else
    let c := (((c.put b R.MBX_CMD_req_len len).put b R.MBX_CMD_seq seq).put b R.MBX_CMD_opcode op).put b R.MBX_STATUS_busy 1
    let m : MailCmd := { op, seq := seq % 256, req := c.room.data.bytes (ch * 0x400) (Nat.min (len % 4096) 1024), len := len % 4096
                         verdict, blown, pass, excluded := fuseOps.contains op && c.programming (1 - ch) }
    { c with room := { c.room with order := c.room.order ++ [ch], cmds := c.room.cmds.set ch (some m) } }

/-- Writes to a mailbox channel's registers. -/
def mailWrite (c : Chip) (src : Source) (r : RegRow) (a : Nat) (v mask : Word) : Chip :=
  let ch := (a - 0x18000000) / 0x1000
  if !(mailSide src ch) then c
  else if a % 0x1000 = R.MBX_CMD then
    if c.on (A.mbox ch) R.MBX_STATUS_busy then c
    else
      let c := c.plainWrite r a v mask
      if bit v 31 && !(mailOps.contains (bits v 7 0)) then c.mailGo ch (bits v 7 0) (bits v 27 16) (bits v 15 8) none 0 true else c
  else c.plainWrite r a v mask

/-- Four bytes of a mailbox's data area. -/
def mailData (c : Chip) (src : Source) (a v : Nat) : Chip :=
  let o := a - 0x18000000
  let ch := o / 0x1000
  if !(mailSide src ch) || c.on (A.mbox ch) R.MBX_STATUS_busy then c
  else { c with room := { c.room with data := c.room.data.setBytes (ch * 0x400 + (o % 0x1000 - 0x400)) (toLE 4 v) } }

/-- Writes to a window's registers (spec/20_host_interface.md R436): ignored while busy (DESIGN CHOICE, notes/assumptions/72.md). -/
def winWrite (c : Chip) (nv : Nv) (src : Source) (base : Nat) (r : RegRow) (a : Nat) (v mask : Word) : Chip :=
  if c.winBusy base then c
  else
    let c := c.plainWrite r a v mask
    if a = base + 4 && bit v 31 then c.winFire nv src base (bits v 30 27) else c

/-- A write of a domain's APPLY register at its address (Table 2-7): revert counts only without go. -/
def applyWrite (c : Chip) (r : RegRow) (base size : Nat) (v mask : Word) : Chip :=
  let c := c.plainWrite r (base + size - 8) v mask
  if bit v 31 then c.applyGo base size (bits v 15 0) else if bit v 30 then c.applyRevert base size else c

/-- A write of LATCHKEY[key] (Table 18-9); one that neither releases nor clears suspect counts as one of R403's others. -/
def latchWrite (c : Chip) (src : Source) (key : Nat) (v : Word) : Chip :=
  if (bit v 31 || bit v 30) && (c.latch key).owner != 0 && (c.latch key).heldBy src then
    (c.when (bit v 30) fun c => c.latchClear src key).when (bit v 31) fun c => c.latchRelease src key
  else c.cnt C.latch_foreign 1

/-- A write of ACCORD_CMD (Table 7-6). -/
def accordWrite (c : Chip) (src : Source) (r : RegRow) (v mask : Word) : Chip :=
  let plain := c.plainWrite r R.ACCORD_CMD v mask
  if !(bit v 31) then plain
  else
    match bits v 30 28 with
    | 1 => c.openAccord src v
    | 2 => plain.commitAccord src
    | 3 => plain.dropAccord src
    | 4 => plain.withdrawAccord src
    | _ => plain.accordResult (if c.accordUp then 1 else 4)

/-- A write of PLANE_CMD (spec/11_mollux_fabric.md Table 11-7). -/
def planeWrite (c : Chip) (r : RegRow) (k : Nat) (v mask : Word) : Chip :=
  let plain := c.plainWrite r (A.plane k + R.PLANE_CMD) v mask
  if !(bit v 31) then plain
  else
    match bits v 30 29 with
    | 1 => plain.planeRetire k
    | 2 => plain.planeRestore k
    | _ => plain.put (A.plane k) R.PLANE_CMD_result 1

/-- A write of a register of stack `m` with a go (spec/16_hbm_controller.md Table 16-3 to 16-7); none for the others. -/
def stackWrite (c : Chip) (r : RegRow) (m : Nat) (v mask : Word) (o : Nat) : Option Chip :=
  let plain := c.plainWrite r (A.hbm m + o) v mask
  if o = R.HBM_TRAIN then some (c.hbmTrainGo m v)
  else if o = R.HBM_FREQ then some (c.hbmFreqGo m v)
  else if o = R.HBM_PWR then some (if !(bit v 31) then plain else if bit v 30 then plain.selfRefreshQuit m else plain.selfRefreshAsk m)
  else if o = R.HBM_RETIRE then
    some (if !(bit v 31) then plain else if bit v 29 then plain.hbmRetireClear m (bits v 4 0) else plain.hbmRetireGo m (bits v 4 0))
  else none

/-- A write of the FIFO_CTRL of FIFO `f` (spec/17_memory_protection.md Table 17-10): a swap_us of 0 is ignored. -/
def fifoWrite (c : Chip) (r : RegRow) (f : Nat) (v mask : Word) : Chip :=
  (c.codeWrite r (fifoBase f) v (if bits v 15 0 = 0 then 0 else mask)).when (bit v 31) fun c => c.fifoFlush f

/-- A write of CC_WDOG[k] (spec/20_host_interface.md Table 20-13): a timeout of 0 is ignored; a kick, or the enable's rise, starts the
count again. -/
def watchdogWrite (c : Chip) (r : RegRow) (k : Nat) (v mask : Word) : Chip :=
  let was := c.on (4 * k) R.CC_WDOG_enable
  let c := c.plainWrite r (R.CC_WDOG + 4 * k) v (if bits v 15 0 = 0 then mask &&& ~~~(0xFFFF : Word) else mask)
  c.when (bit v 30 || (bit v 31 && !was)) fun c => c.watchdogKick k

/-- The answer of SUITE_QUERY for a unit (spec/01_architecture.md R22, Table 1-6). -/
def suiteAnswer (c : Chip) (u : Nat) : Word :=
  if !(c.present u) then 0
  else
    match c.suiteOf u with
    | some m => BitVec.ofNat 64 (2 ^ 31 + m.length % 256 * 2 ^ 23 + m.idxOf u % 128 * 2 ^ 16 + c.suiteUnit u)
    | none => BitVec.ofNat 64 u

def suiteAsk (c : Chip) (u : Nat) : Chip := (c.put 0 R.SUITE_QUERY_unit_id u).setReg R.SUITE_RESULT (c.suiteAnswer (u % 65536))

/-- Output `i` follows its time base anew: its next pulse falls at the next whole second (spec/15_time_bases.md R337). -/
def ppsFollow (c : Chip) (i : Nat) : Chip := { c with pps := c.pps.upd i fun o => { o with last := c.ppsSecond i } }

/-- Writes to the registers of the global block that a chapter treats on its own; none for the others
(DESIGN CHOICE, notes/assumptions/72.md). -/
def globalWrite (c : Chip) (src : Source) (r : RegRow) (a : Nat) (v mask : Word) : Option Chip :=
  let plain := c.plainWrite r a v mask
  if a = R.SUITE_QUERY then some (c.suiteAsk (bits v 15 0))
  else if a = R.UNIT_RESET then some (if bit v 31 then c.resetRequest (bits v 15 0) (bits v 17 16) else plain)
  else if a = R.ACCORD_CMD then some (c.accordWrite src r v mask)
  else if a = R.ACCORD_DRAIN then some (c.accordDrain v)
  else if 0x4100 ≤ a && a < 0x4200 then some (c.latchWrite src ((a - 0x4100) / 4) v)
  else if a = R.LATCHKEY_BREAK then some (c.latchBreak src v)
  else if 0x6000 ≤ a && a < 0x6F00 then some (c.ledgerWrite r a v mask)
  else if a = 0x6F00 then some (c.fifoWrite r 24 v mask)
  else if a = R.WAKE_CMD then some (if bit v 31 then c.wakeGo (bits v 7 0) else plain)
  else if a = R.SWEEP_CMD then some (if bit v 31 then c.sweepGo (bits v 3 0) else plain)
  else if a = R.IRQ_REARM then some (c.irqRearm v)
  else if 0x40810 ≤ a && a < 0x40818 then
    let i := (a - 0x40810) / 4
    let c' := c.plainWrite r a v (if outside (bits v 27 18) 1 500 then mask &&& ~~~(0xFFC0000 : Word) else mask)
    let moved := !(c.on (4 * i) R.PPS_OUT_enable) || c.get (4 * i) R.PPS_OUT_tb != c'.get (4 * i) R.PPS_OUT_tb
    some (if bit v 31 && moved then c'.ppsFollow i else c')
  else if 0x40818 ≤ a && a < 0x40820 then some ((c.plainWrite r a v mask).ppsFollow ((a - 0x40818) / 4))
  else if a = R.TB_REF then some (c.tbRefSelect (bit v 31))
  else if 0x40000 ≤ a && a < 0x40800 then
    let t := (a - 0x40000) / 0x100
    if a % 0x100 = R.TB_ACCESS then
      let o := bits v 4 0
      let vf := match src with
        | .vf _ => true
        | _ => false
      some (if vf then c.tbForeign t else if o ≤ 0x10 || o = 0x1F then plain else c)
    else some (c.tbGuard src a fun c => c.codeWrite r a v mask)
  else if 0xA0010 ≤ a && a < 0xA0020 then some (c.watchdogWrite r ((a - 0xA0010) / 4) v mask)
  else if a = R.CC_CTRL then some (c.each (List.range 4) fun c k => if bit v k == (c.get 0 R.CC_CTRL_release / 2 ^ k % 2 == 1) then c else c.coreSet k (bit v k))
  else if 0x100000 ≤ a && a < 0x140000 then some (c.ringWrite src r a v mask)
  else none

/-- Writes to the registers of a slice, plane or stack that a chapter treats on its own (DESIGN CHOICE, notes/assumptions/72.md). -/
def localWrite (c : Chip) (r : RegRow) (a : Nat) (v mask : Word) : Option Chip :=
  if 0x08000000 ≤ a && a < 0x10000000 then
    let s := (a - 0x08000000) / 0x01000000
    let o := a % 0x01000000
    if 0x300000 ≤ o && o < 0x304000 then
      let q := s * 16 + (o - 0x300000) / 0x400
      if o % 0x400 = R.LANE_TX_EQ then some (c.laneTaps q v) else if o % 0x400 = R.LANE_TEST then some (c.lanePattern q (bits v 1 0)) else none
    else if 0x100000 ≤ o && o < 0x140000 then
      let f := o % 0x4000
      let p := s * 16 + (o - 0x100000) / 0x4000
      if (Chip.gclList f).isSome || Chip.gclSwapReg f then
        some (c.gclWrite p f (if bits mask 31 0 = 0 then f + 4 else f) (merge (c.reg a) v mask))
      else if f = R.GATE_SWAP then some (if bit v 31 then c.gateArm p else c.gateCancel p)
      else none
    else if o = 0x440140 then some (c.fifoWrite r s v mask)
    else if o = 0x4A0040 then some (c.fifoWrite r (8 + s) v mask)
    else if o = 0x4A0100 then some (c.fifoWrite r (16 + s) v mask)
    else if o = R.PORTER_RETIRE && bit v 31 then some (c.porterRetireGo s (bits v 5 0))
    else if o = R.STORE_CHECK && bit v 31 then some (c.storeCheckGo s (bits v 5 0))
    else none
  else if 0x14000000 ≤ a && a < 0x14400000 && a % 0x100000 = R.PLANE_CMD then some (c.planeWrite r ((a - 0x14000000) / 0x100000) v mask)
  else if 0x15000000 ≤ a && a < 0x15800000 then c.stackWrite r ((a - 0x15000000) / 0x400000) v mask (a % 0x400000)
  else none

/-- A write of a register outside the windows and mailboxes. -/
def fieldWrite (c : Chip) (src : Source) (r : RegRow) (a : Nat) (v mask : Word) : Chip :=
  match (if a < 0x01000000 then c.globalWrite src r a v mask else c.localWrite r a v mask) with
  | some c => c
  | none => c.codeWrite r a v mask

/-- A write of a register that starts at `a`; `mask` marks the bits that the access carries (DESIGN CHOICE, notes/assumptions/72.md). -/
def regWrite (c : Chip) (nv : Nv) (src : Source) (a : Nat) (v mask : Word) : Chip :=
  if 0x5004 ≤ a && a < 0x5100 then c.groupWrite a v mask
  else if 0x20000000 ≤ a then c
  else
    match regRow a with
    | none => c
    | some r =>
      if r.counter then c
      else
        match winAt a with
        | some w => c.winWrite nv src w r a v mask
        | none =>
          if 0x18000000 ≤ a then c.mailWrite src r a v mask
          else
            match domainOf a with
            | some (base, size) =>
              if a = base + size - 8 then c.tbGuard src a fun c => c.applyWrite r base size v mask else c.fieldWrite src r a v mask
            | none => c.fieldWrite src r a v mask

/-- A write of four bytes. -/
def write32 (c : Chip) (nv : Nv) (src : Source) (a v : Nat) : Chip :=
  if isMailData a then c.mailData src a v
  else
    match rowAt a with
    | some _ => c.regWrite nv src a (BitVec.ofNat 64 (v % 2 ^ 32)) 0xFFFFFFFF
    | none =>
      match (if 4 ≤ a then rowAt (a - 4) else none) with
      | some r => if r.wide then c.regWrite nv src (a - 4) (BitVec.ofNat 64 (v % 2 ^ 32 * 2 ^ 32)) 0xFFFFFFFF00000000 else c
      | none => c

/-- An aligned write of 4 or 8 bytes (DESIGN CHOICE, notes/assumptions/72.md). -/
def writeSize (c : Chip) (nv : Nv) (src : Source) (a size : Nat) (v : Word) : Chip :=
  if size = 8 then
    match rowAt a with
    | some r =>
      if r.wide then c.regWrite nv src a v (~~~(0 : Word)) else (c.write32 nv src a (bits v 31 0)).write32 nv src (a + 4) (bits v 63 32)
    | none => (c.write32 nv src a (bits v 31 0)).write32 nv src (a + 4) (bits v 63 32)
  else c.write32 nv src a (bits v 31 0)

/-- A read of four bytes: it returns them, and what it returns of an RC field clears, latches follow (R10); TB_PPS_NS's fresh stands in
its upper half (DESIGN CHOICE, notes/assumptions/53.md). -/
def read32 (c : Chip) (nv : Nv) (src : Source) (a : Nat) : Chip :=
  let v := BitVec.ofNat 64 (c.peek32 nv a)
  let d :=
    if a = R.ACCORD_RETIRED then c.retiredRead
    else if 0x4000 ≤ a && a < 0x4100 then c.latchTake src ((a - 0x4000) / 4)
    else if 0x40000 ≤ a && a < 0x40800 && a % 0x100 = R.TB_NOW_NS then { c.tbNowRead ((a - 0x40000) / 0x100) with busData := v }
    else if 0x40000 ≤ a && a < 0x40800 && a % 0x100 = R.TB_PPS_NS then { c.tbPpsLatch ((a - 0x40000) / 0x100) with busData := v }
    else if 0x40000 ≤ a && a < 0x40800 && a % 0x100 = R.TB_PPS_NS + 4 then { c.tbPpsRead ((a - 0x40000) / 0x100) with busData := v }
    else { c with busData := v }
  d

/-- An aligned read of 4 or 8 bytes, the lower half first. -/
def readSize (c : Chip) (nv : Nv) (src : Source) (a size : Nat) : Chip :=
  let lo := c.read32 nv src a
  if size = 8 then
    let hi := lo.read32 nv src (a + 4)
    { hi with busData := lo.busData + hi.busData <<< 32 }
  else lo

end Chip

/-! ### Meanings -/

/-- An access is an aligned one of 4 or 8 bytes (spec/20_host_interface.md R430). -/
def sizeOk (a size : Nat) : Bool := (size == 4 || size == 8) && a % size == 0


/-- RC_FIELD_READ (R10): a read returns the value and clears RC fields; a read of any other register returns its value alone. -/
def execRcFieldRead (src : Source) (addr size : Nat) (s : State) : Host.Outcome State Fault Refusal :=
  s.busNv src addr false fun nv fu c =>
    (if sizeOk addr size then c.readSize nv src addr size else { c with busData := 0 }, nv, fu)

/-- SUITE_QUERY (spec/01_architecture.md R22). -/
def execSuiteQuery (src : Source) (unit : Nat) (s : State) : Host.Outcome State Fault Refusal :=
  s.bus src R.SUITE_QUERY true fun c => c.suiteAsk unit

end Sys2Proof.Machine
end

