-- ==== Sys2Proof/Machine/ImageChecks.lean ====
section
/-! DEFINITION. The checks of the Chaber image (spec/02_configuration_image.md R33 to R43): header, section table, and the structure
records, each with its reason code and the index of its section. -/

namespace Sys2Proof.Machine

open Sys2Proof

/-- Why an image is refused: reason (Table 2-9) and IMAGE_STATUS.section (DESIGN CHOICE, notes/assumptions/30.md). -/
abbrev Refused := Nat × Nat

/-- The section that IMAGE_STATUS names for the header. -/
def headerSection : Nat := 0xFF

/-- Pieces of `n` bytes, the last perhaps shorter; `fuel` bounds their number. -/
def pieces (n : Nat) : Nat → List Byte → List (List Byte)
  | 0, _ => []
  | _ + 1, [] => []
  | fuel + 1, l => l.take n :: pieces n fuel (l.drop n)

/-- The records of `n` bytes of a section. -/
def recordsOf (n : Nat) (b : List Byte) : List (List Byte) := pieces n b.length b

/-- A little-endian field of `n` bytes at offset `o` (R33). -/
def fieldAt (l : List Byte) (o n : Nat) : Nat := ofLE ((l.drop o).take n)

namespace Img

def magic (i : Image) : Nat := fieldAt i.header 0 4
def format (i : Image) : Nat := fieldAt i.header 4 2
def part (i : Image) : Nat := fieldAt i.header 6 2
def profile (i : Image) : Nat := fieldAt i.header 8 1
def stepping (i : Image) : Nat := fieldAt i.header 9 1
def count (i : Image) : Nat := fieldAt i.header 0xA 2
def length (i : Image) : Nat := fieldAt i.header 0xC 4
def version (i : Image) : Nat := fieldAt i.header 0x10 4
def firstAccord (i : Image) : Nat := fieldAt i.header 0x14 2

/-- The first section of a type and its index. -/
def sect (i : Image) (t : Nat) : Option (Nat × Section) := (i.sections.zipIdx.find? fun p => p.1.type == t).map fun p => (p.2, p.1)

/-- Body of a section; empty where the image carries none. -/
def body (i : Image) (t : Nat) : List Byte := ((sect i t).map fun p => p.2.body).getD []

/-- Index of a section. -/
def idx (i : Image) (t : Nat) : Nat := ((sect i t).map Prod.fst).getD headerSection

/-- Sections of a type, with their indices. -/
def all (i : Image) (t : Nat) : List (Nat × Section) := (i.sections.zipIdx.filter fun p => p.1.type == t).map fun p => (p.2, p.1)

/-- Slices and halves that a profile enables (spec/00_scope.md Table 0-1). -/
def slices (i : Image) : Nat := if profile i = 0 then 8 else if profile i = 1 then 4 else 2
def halves (i : Image) : Nat := if profile i = 0 then 2 else 1

/-! ### Header and section table (Table 2-1, 2-2, R33, R34) -/

/-- The first fault of the header (R43) (DESIGN CHOICE, notes/assumptions/30.md). -/
def headerFault (i : Image) : Option Refused :=
  if magic i != 0x43484252 || format i != 2 then some (0x10, headerSection)
  else if part i != 0x6480 || decide (0x21 < stepping i) then some (0x11, headerSection)
  else if 2 < profile i || firstAccord i = 0 then some (0x01, headerSection)
  else if (i.header.drop 0x24).any (· != 0) || !(i.paddingZero) || decide (0x4000000 < length i) || count i = 0 || decide (64 < count i) ||
      count i != i.sections.length then some (0x12, headerSection)
  else none

/-- Section types of Table 2-3. -/
def sectionTypes : List Nat := [1, 2, 3, 4, 5, 6, 7, 8, 9, 0xA]

/-- The reason of one section's table entry, given the entries before it. -/
def entryReason (i : Image) (before : List Section) (s : Section) : Option Nat :=
  if !(sectionTypes.contains s.type) || decide (4 ≤ s.flags) then some 0x01
  else if (before.any fun b => decide (s.type < b.type)) || decide ((if s.type = 0xA then 8 else 1) ≤ (before.filter fun b => b.type == s.type).length) ||
      s.offset % 64 != 0 || decide (s.offset < 0x100 + 16 * count i) || decide (length i < s.offset + s.length + 128) ||
      (before.any fun b => decide (s.offset < b.offset + b.length) && decide (b.offset < s.offset + s.length)) then some 0x12
  else none

/-- The first faulty entry of the section table (DESIGN CHOICE, notes/assumptions/30.md). -/
def tableFault (i : Image) : Option Refused :=
  (i.sections.zipIdx.findSome? fun p => (entryReason i (i.sections.take p.2) p.1).map fun r => (r, p.2)) <|>
    if [1, 3, 5, 6, 8].all fun t => (sect i t).isSome then none else some (0x13, headerSection)

/-! ### Ports (R35, R36) -/

def portOf (r : List Byte) : PortRec :=
  { first := fieldAt r 0 1, lanes := fieldAt r 1 1, type := fieldAt r 2 1, fec := fieldAt r 3 1, lpi := fieldAt r 4 1 % 2 == 1 }

def ports (i : Image) : List PortRec := (recordsOf 8 (body i 1)).map portOf

/-- Lanes and fec values of Table 2-4. -/
def portShape (r : PortRec) : Bool :=
  match r.type with
  | 1 => r.lanes == 1 && r.fec == 0
  | 2 => r.lanes == 1 && (r.fec == 0 || r.fec == 1)
  | 3 => r.lanes == 1 && r.fec == 2
  | 4 => r.lanes == 1 && r.fec == 2
  | 5 => (r.lanes == 2 || r.lanes == 4) && r.fec == 2
  | 6 => (r.lanes == 4 || r.lanes == 8) && r.fec == 2
  | 7 => r.lanes == 8 && r.fec == 2
  | _ => false

def lanesOf (r : PortRec) : List Nat := (List.range r.lanes).map fun k => r.first + k

def portReasons (i : Image) (before : List PortRec) (b : List Byte) : List Nat :=
  let r := portOf b
  reasonIf (b.length != 8) 0x12 ++
  reasonIf (r.type == 0 || decide (7 < r.type) || !([1, 2, 4, 8].contains r.lanes) || decide (2 < r.fec) || decide (1 < fieldAt b 4 1) ||
    fieldAt b 5 3 != 0) 0x01 ++
  reasonIf (!(portShape r) || r.first % r.lanes != 0 || (r.lpi && !(r.type == 1 || r.type == 2))) 0x02 ++
  reasonIf (decide (16 * slices i < r.first + r.lanes)) 0x03 ++
  reasonIf ((lanesOf r).any fun q => before.any fun o => (lanesOf o).contains q) 0x04

def portsReasons (i : Image) : List Nat :=
  ((recordsOf 8 (body i 1)).zipIdx.map fun p => portReasons i ((ports i).take p.2) p.1).flatten

/-! ### Table split (R38) -/

def splitRecs (i : Image) : List (List Byte) := recordsOf 4 (body i 3)

/-- The split of a slice. -/
def splitOf (i : Image) (s : Nat) : Split :=
  match (splitRecs i).find? fun r => fieldAt r 0 1 == s with
  | some r => ⟨fieldAt r 1 1, fieldAt r 2 1, fieldAt r 3 1⟩
  | none => ⟨0, 0, 0⟩

/-- LPM granules of a half (R38). -/
def lpmSum (i : Image) (h : Nat) : Nat := (((List.range (slices i)).filter fun s => s / 4 == h).map fun s => (splitOf i s).lpm).sum

def splitReasons (i : Image) : List Nat :=
  let rs := splitRecs i
  reasonIf (rs.any fun r => r.length != 4) 0x12 ++
  reasonIf (!((List.range (slices i)).all fun s => rs.any fun r => fieldAt r 0 1 == s)) 0x02 ++
  reasonIf (!(decide ((rs.map fun r => fieldAt r 0 1).Nodup))) 0x04 ++
  reasonIf (rs.any fun r => decide (slices i ≤ fieldAt r 0 1)) 0x03 ++
  reasonIf (rs.any fun r => !([0, 2, 4, 8, 16, 32].contains (fieldAt r 1 1)) || decide (64 < fieldAt r 2 1) || decide (1 < fieldAt r 3 1)) 0x01 ++
  reasonIf ((rs.any fun r => decide (65 < fieldAt r 1 1 + fieldAt r 2 1 + fieldAt r 3 1)) || (List.range 2).any fun h => decide (128 < lpmSum i h)) 0x05

/-! ### TCAM partition (R39, spec/09_lpm_and_tcam.md R213) -/

def tcamOf (r : List Byte) : TcamTab :=
  { slice := fieldAt r 0 1, id := fieldAt r 1 1, kind := fieldAt r 2 1, banks := fieldAt r 3 1, first := fieldAt r 4 2, count := fieldAt r 6 2 }

def tcams (i : Image) : List TcamTab := (recordsOf 8 (body i 4)).map tcamOf

/-- Which key of Table 9-10 a table compares. -/
def keyClass (t : TcamTab) : Nat := if t.wide then 3 else t.use

/-- Banks of a table. -/
def banksOf (t : TcamTab) : List Nat := (List.range 4).filter fun b => t.banks / 2 ^ b % 2 == 1

/-- Two tables of a slice share an entry of a bank. -/
def tcamOverlap (a b : TcamTab) : Bool :=
  a.slice == b.slice && ((banksOf a).any fun k => (banksOf b).contains k) && decide (a.first < b.first + b.count) && decide (b.first < a.first + a.count)

/-- Two tables of a slice that compare different keys share a block of 1,024 entries. -/
def blockClash (a b : TcamTab) : Bool :=
  a.slice == b.slice && keyClass a != keyClass b && decide (0 < a.count) && decide (0 < b.count) &&
    ((banksOf a).any fun k => (banksOf b).contains k) &&
    decide (a.first / 1024 ≤ (b.first + b.count - 1) / 1024) && decide (b.first / 1024 ≤ (a.first + a.count - 1) / 1024)

/-- The first accord holds an IPv6 LPM prefix (R39). -/
def holdsV6 (i : Image) : Bool := i.accord.any fun w => match w with
  | .lpm _ st _ => st / 64 % 2 == 1
  | _ => false

/-- Exactly one short-prefix table, of 4,096 entries. -/
def shortTable (i : Image) (s : Nat) : Bool :=
  match (tcams i).filter fun t => t.slice == s && t.use == 2 with
  | [t] => (banksOf t).length * t.count == 4096
  | _ => false

/-- Every fault of the TCAM records (R43) (DESIGN CHOICE, notes/assumptions/30.md). -/
def tcamReasons (i : Image) : List Nat :=
  let ts := tcams i
  reasonIf ((recordsOf 8 (body i 4)).any fun r => r.length != 8) 0x12 ++
  reasonIf (ts.any fun t => t.id == 0 || decide (15 < t.id) || t.kind / 64 != 0 || t.kind / 4 % 4 != 0 || decide (1 < t.kind / 16 % 4) || t.use == 3 ||
    decide (15 < t.banks)) 0x01 ++
  reasonIf ((ts.any fun t => t.wide && (t.first % 2 != 0 || t.count % 2 != 0 || t.use == 2)) ||
    (holdsV6 i && !((List.range (slices i)).all (shortTable i)))) 0x02 ++
  reasonIf (ts.any fun t => decide (slices i ≤ t.slice)) 0x03 ++
  reasonIf ((ts.zipIdx.any fun p => (ts.take p.2).any fun o => tcamOverlap o p.1 || blockClash o p.1 || (o.slice == p.1.slice && o.id == p.1.id))) 0x04 ++
  reasonIf (ts.any fun t => decide (5120 < t.first + t.count)) 0x05

/-! ### Cell buffer (R40) -/

/-- The half records, each after its requester_count; `fuel` bounds their number. `none` stands for a record that the section cuts off. -/
def halfRecs : Nat → List Byte → List (Nat × Option HalfRec)
  | 0, _ => []
  | _ + 1, [] => []
  | fuel + 1, l =>
    let n := fieldAt l 1 1
    if l.length < 4 + 12 * n then [(n, none)]
    else
      let rs := (recordsOf 12 ((l.drop 4).take (12 * n))).map fun r => { unit := fieldAt r 0 2, min := fieldAt r 4 4, quota := fieldAt r 8 4 : Requester }
      (n, some { half := fieldAt l 0 1, spillGib := fieldAt l 2 1, reqs := rs }) :: halfRecs fuel (l.drop (4 + 12 * n))

def halfList (i : Image) : List HalfRec := (halfRecs (body i 5).length (body i 5)).filterMap Prod.snd

/-- A requester of a half: one of its slices, or the DMA engine. -/
def requesterOk (i : Image) (h u : Nat) : Bool := u == 0xD028 || (List.range (slices i)).any fun s => s / 4 == h && u == U.slice s

/-- R40's conditions on one half. -/
def halfFits (r : HalfRec) : Bool :=
  let sum := (r.reqs.map Requester.min).sum
  decide (sum ≤ 393216) && r.reqs.all fun q => decide (q.min ≤ q.quota) && decide (q.quota + (sum - q.min) ≤ 393216)

def halfReasons (i : Image) : List Nat :=
  let hs := halfList i
  let all := halfRecs (body i 5).length (body i 5)
  reasonIf (all.any fun x => x.2.isNone) 0x12 ++
  reasonIf (!((List.range (halves i)).all fun h => hs.any fun r => r.half == h)) 0x02 ++
  reasonIf (!(decide ((hs.map HalfRec.half).Nodup)) || hs.any fun r => !(decide ((r.reqs.map Requester.unit).Nodup))) 0x04 ++
  reasonIf (hs.any fun r => decide (halves i ≤ r.half) || r.reqs.any fun q => !(requesterOk i r.half q.unit)) 0x03 ++
  reasonIf ((all.any fun x => x.1 == 0 || decide (16 < x.1)) || hs.any fun r => decide ((if r.half = 0 then 14 else 16) < r.spillGib)) 0x01 ++
  reasonIf (!(hs.all halfFits)) 0x05

/-! ### Suites (R37, spec/01_architecture.md R14, R15, R476) -/

/-- A unit is there under the profile and R475. -/
def unitThere (i : Image) (u : Nat) : Bool :=
  U.used u && (match U.sliceOf u, U.halfOf u with
    | some s, _ => decide (s < slices i)
    | none, some h => decide (h < halves i)
    | none, none => true) &&
    (if U.level u = 2 && U.index u < 128 then (ports i).any fun r => r.first == U.index u else true)

/-- Ports of a suite agree; a suite of slices or halves agrees in its tables. A member that is absent has nothing to agree in. -/
def suiteAgrees (i : Image) (level : Nat) (members : List Nat) : Bool :=
  let leaves := members.filter fun u => unitThere i u
  let same {α : Type} [DecidableEq α] (f : Nat → α) : Bool := match leaves with
    | [] => true
    | a :: t => t.all fun b => decide (f a = f b)
  match level with
  | 2 =>
    let rec_ (u : Nat) : Option PortRec := (ports i).find? fun r => r.first == U.index u
    (members.all fun u => decide (U.index u < 128)) && same fun u => (rec_ u).map fun r => (r.type, r.fec)
  | 4 =>
    let parts (u : Nat) : List (List Nat) := ((tcams i).filter fun t => t.slice == U.index u).map fun t => [t.id, t.kind, t.banks, t.first, t.count]
    (same fun u => splitOf i (U.index u)) && leaves.all fun u => (parts u).isPerm (parts (leaves.headD 0))
  | 5 => same fun u => lpmSum i (U.index u)
  | _ => true

/-- What the suites section has defined so far: every suite by unit ID, newest first, and the suites that belong to no larger one. -/
structure Suites where
  named : List (Nat × List Nat) := []
  tops : List (List Nat) := []

/-- Leaf members of a member ID: of the earlier suite with that ID, or the unit itself. -/
def Suites.leaves (x : Suites) (u : Nat) : List Nat := ((x.named.find? fun p => p.1 == u).map Prod.snd).getD [u]

/-- One suite record: its reasons and the suites with it. -/
def suiteStep (i : Image) (x : Suites) (level : Nat) (ids : List Nat) : List Nat × Suites :=
  let ls := ids.flatMap x.leaves
  let named := ids.filterMap fun u => (x.named.find? fun p => p.1 == u).map Prod.snd
  let sorted := sortBy (fun a b => decide (a ≤ b)) ls
  (reasonIf (level == 0 || decide (5 < level) || decide (ids.length < 2) || decide (128 < ids.length)) 0x01 ++
    reasonIf ((ls.any fun u => U.isBlk u || U.level u != level) || !(suiteAgrees i level ls)) 0x02 ++
    reasonIf (ls.any fun u => !(unitThere i u)) 0x03 ++
    reasonIf (!(decide ls.Nodup) || x.tops.any fun t => (t.any fun u => ls.contains u) && !(named.contains t)) 0x04 ++
    reasonIf (decide (128 < ls.length)) 0x05,
   { named := (sorted.headD 0, sorted) :: x.named, tops := x.tops.filter (fun t => !(named.contains t)) ++ [sorted] })

/-- Every suite record; `fuel` bounds their number. -/
def suiteWalk (i : Image) : Nat → List Byte → Suites → List Nat × Suites
  | 0, _, x => ([], x)
  | _ + 1, [], x => ([], x)
  | fuel + 1, l, x =>
    let n := fieldAt l 1 1
    let size := (4 + 2 * n + 3) / 4 * 4
    if l.length < size then
      (reasonIf (decide (4 ≤ l.length) && (fieldAt l 0 1 == 0 || decide (5 < fieldAt l 0 1) || decide (n < 2) || decide (128 < n))) 0x01 ++ [0x12], x)
    else
      let ids := (List.range n).map fun k => fieldAt l (4 + 2 * k) 2
      let r := suiteStep i x (fieldAt l 0 1) ids
      let t := suiteWalk i fuel (l.drop size) r.2
      (reasonIf (fieldAt l 2 2 != 0) 0x01 ++ reasonIf (fieldAt l (4 + 2 * n) (size - (4 + 2 * n)) != 0) 0x12 ++ r.1 ++ t.1, t.2)

/-- Every fault of the suite records (R43) (DESIGN CHOICE, notes/assumptions/30.md). -/
def suiteReasons (i : Image) : List Nat := (suiteWalk i (body i 2).length (body i 2) {}).1

def suites (i : Image) : List (List Nat) := (suiteWalk i (body i 2).length (body i 2) {}).2.tops

/-! ### Microcode (R41, R61, spec/06_microword_reference.md R143, R144) -/

/-- Words of section 0x06. -/
def mainWords (i : Image) : Nat := if profile i = 0 then 4096 else 3072

/-- The parts of a decrypted patch: ID, steppings, records (word index, word). -/
def patchId (b : List Byte) : Nat := fieldAt b 0 4
def patchCount (b : List Byte) : Nat := fieldAt b 6 2
def patchRecs (b : List Byte) : List (List Byte) := recordsOf 36 ((b.drop 16).take (36 * patchCount b))

/-- Every fault of a patch section (R43) (DESIGN CHOICE, notes/assumptions/30.md). -/
def patchReasons (i : Image) (b : List Byte) : List Nat :=
  reasonIf (decide (b.length < 16 + 36 * patchCount b)) 0x12 ++
  reasonIf (decide (0x21 < fieldAt b 4 1) || decide (fieldAt b 5 1 < 0x21)) 0x11 ++
  reasonIf (fieldAt b 8 8 != 0 || (patchRecs b).any fun r => decide (4096 ≤ fieldAt r 0 2) || fieldAt r 2 2 != 0) 0x01 ++
  reasonIf (profile i != 0 && (patchRecs b).any fun r => decide (3072 ≤ fieldAt r 0 2) && decide (fieldAt r 0 2 < 4096)) 0x09

/-- Section 0x07 is loaded (R41). -/
def customerLoaded (i : Image) : Bool := profile i != 0 && (sect i 7).isSome && i.customerOk

/-- IMAGE_STATUS.customer_state (Table 2-6). -/
def customerState (i : Image) : Nat := if profile i = 0 then 0 else if (sect i 7).isNone then 2 else if i.customerOk then 1 else 3

/-- Write words of 32 bytes into the store from a word on. -/
def storeWords (st : Tbl Entry) (first : Nat) (b : List Byte) : Tbl Entry :=
  (recordsOf 32 b).zipIdx.foldl (fun t p => t.set (first + p.2) (BitVec.ofNat 256 (ofLE p.1))) st

/-- The microcode store after the load (R144). -/
def storeOf (i : Image) : Tbl Entry :=
  let st := storeWords [] 0 (body i 6)
  let st := if customerLoaded i then storeWords st 3072 ((body i 7).take 32768) else st
  (all i 0xA).foldl (fun st p => (patchRecs p.2.body).foldl (fun t r => t.set (fieldAt r 0 2) (BitVec.ofNat 256 (fieldAt r 4 32))) st) st


/-! ### All sections but the first accord and the presets -/

/-- The reasons of one section by its place in the table (DESIGN CHOICE, notes/assumptions/30.md). -/
def sectionReasons (i : Image) (s : Section) : List Nat :=
  match s.type with
  | 1 => portsReasons i
  | 2 => suiteReasons i
  | 3 => splitReasons i
  | 4 => tcamReasons i
  | 5 => halfReasons i
  | 6 => reasonIf (s.body.length != 32 * mainWords i) 0x12
  | 7 => reasonIf (profile i == 0) 0x09 ++ reasonIf (decide (s.body.length < 32768)) 0x12
  | 9 => reasonIf (s.body.length % 8 != 0) 0x12
  | 0xA => patchReasons i s.body
  | _ => []

/-- The first faulty section, with its lowest reason. An image with IPv6 prefixes and no TCAM partition names its first accord (R39)
(DESIGN CHOICE, notes/assumptions/30.md). -/
def structureFault (i : Image) : Option Refused :=
  (i.sections.zipIdx.findSome? fun p => (sectionReasons i p.1).min?.map fun r => (r, p.2)) <|>
    if holdsV6 i && (sect i 4).isNone then some (0x02, idx i 8) else none

end Img

end Sys2Proof.Machine
end

