-- ==== Sys2Proof/Machine/ImageApply.lean ====
section
/-! DEFINITION. What the apply sequence writes (spec/02_configuration_image.md R40 to R44, Table 2-5): structure, fill, microcode, first
accord and presets. One function plans it at the handover and carries it out at the end. -/

namespace Sys2Proof.Machine

open Sys2Proof

/-- Rate code of a port's lanes (Table 2-4, spec/04_ports_and_lanes.md Table 4-1). -/
def laneRate (r : PortRec) : Nat :=
  match r.type with
  | 1 => 0
  | 2 => 1
  | 3 => 2
  | 5 => if r.lanes = 4 then 2 else 3
  | 6 => if r.lanes = 8 then 2 else 3
  | _ => 3

/-- Memory groups that the apply sequence fills (spec/17_memory_protection.md R372, Table 17-1). -/
def fillGroups (i : Image) : List Nat :=
  ((List.range (Img.slices i)).flatMap fun s =>
    [0x48, 0x49, 0x50, 0x51, 0x52, 0x53, 0x58, 0x60, 0x68, 0x70, 0x80, 0x88].map fun b => U.sliceBlk s b) ++
  (List.range (Img.halves i)).flatMap fun h => [0, 8, 0x10].map fun b => U.halfBlk h b

namespace Chip

/-- Ports and their lanes (R35, R36) (DESIGN CHOICE, notes/assumptions/6.md). -/
def putPort (c : Chip) (r : PortRec) : Chip :=
  let c := c.each (Img.lanesOf r) fun c q => (c.put (A.lane q) R.LANE_STATUS_in_port 1).put (A.lane q) R.LANE_STATUS_rate (laneRate r)
  c.put (A.port r.first) R.PORT_LPI_tw_10ns (if r.type = 1 || r.type = 2 then Config.lpiWake r.type % 2 ^ 14 else 0)

/-- Table sizes of a slice (R38, R39). -/
def putSlice (c : Chip) (i : Image) (s : Nat) : Chip :=
  let p := Img.splitOf i s
  let c := (c.put (A.slice s) R.EM_CONFIG_em_granules p.em).put (A.slice s) R.EM_CONFIG_ovf_present p.ovf
  c.each ((Img.tcams i).filter fun t => t.slice == s) fun c t =>
    let b := A.slice s + 8 * (t.id - 1)
    let c := ((c.put b R.TCAM_TABLE_A_present 1).put b R.TCAM_TABLE_A_use t.use).put b R.TCAM_TABLE_A_wide (b2n t.wide)
    ((c.put b R.TCAM_TABLE_A_bank_mask t.banks).put b R.TCAM_TABLE_A_first_entry t.first).put b R.TCAM_TABLE_B_entry_count t.count

/-- The cell-buffer split of a half (R40, spec/12_innkeeper_buffers.md Table 12-6, 12-7); bundles of retired pseudo-channels are gone. -/
def putHalf (c : Chip) (i : Image) (r : HalfRec) : Chip :=
  let h := r.half
  let gone := ((List.range 32).filter fun pc => c.hbmRetired h pc).length
  let region := r.spillGib * 524288 - gone * (r.spillGib * 524288 / 32)
  let c := (c.put (A.half h) R.LPM_CONFIG_lines (1024 * Img.lpmSum i h)).put (A.half h) R.INNK_SPILL_region_bundles region
  c.each r.reqs.zipIdx fun c p =>
    let b := reqBase h p.2
    let c := (c.put b R.INNK_REQ_ID_present 1).put b R.INNK_REQ_ID_unit_id p.1.unit
    ((c.put b R.INNK_REQ_MIN_min_cells p.1.min).put b R.INNK_REQ_QUOTA_quota_cells p.1.quota).put b R.INNK_REQ_SPILL_CAP_spill_cap region

/-- Structure, filled memories and microcode (Table 2-5 up to 15 ms). -/
def putStructure (c : Chip) (i : Image) : Chip :=
  let splits : Tbl Split := (List.range (Img.slices i)).foldl (fun t s => t.put ⟨0, 0, 0⟩ s (Img.splitOf i s)) []
  let c := { c with image := { c.image with
    applied := true, profile := Img.profile i, version := Img.version i, firstAccord := Img.firstAccord i, ports := Img.ports i
    suites := Img.suites i, splits, tcams := Img.tcams i, halves := Img.halfList i, customerState := Img.customerState i } }
  let c := c.each (Img.ports i) Chip.putPort
  let c := c.each (List.range (Img.slices i)) fun c s => c.putSlice i s
  let c := c.each (Img.halfList i) fun c r => c.putHalf i r
  let c := c.each (fillGroups i) Chip.fillAll
  let st := Img.storeOf i
  let c := { c with store := st }
  let c := c.each (List.range (Img.slices i)) fun c s => ((c.put (A.slice s) R.STORE_CRC_crc (storeCrc st)).syncPorters s).syncEm s
  c.each (List.range (Img.halves i)) Chip.syncInnk

/-! ### Presets (R42) -/

def presets (i : Image) : List (Nat × Nat) := (recordsOf 8 (Img.body i 9)).map fun r => (fieldAt r 0 4, fieldAt r 4 4)

/-- A preset breaks R42 (DESIGN CHOICE, notes/assumptions/30.md). -/
def presetBad (c : Chip) (p : Nat × Nat) : Bool :=
  let low := rowAt p.1
  let high := if 4 ≤ p.1 then (rowAt (p.1 - 4)).filter RegRow.wide else none
  match low.orElse (fun _ => high) with
  | none => true
  | some r =>
    let named := if low.isSome then r.named else r.named / 2 ^ 32
    p.1 % 4 != 0 || !(c.visible p.1) || r.lk || r.counter || (r.rw == 0 && r.sg == 0 && r.w1c == 0 && r.rc == 0 && r.wo == 0) ||
      (BitVec.ofNat 32 p.2 &&& ~~~(BitVec.ofNat 32 named)) != 0

/-- Presets are written in order, each as a plain write is, then every touched domain is applied once; the housekeeper stands as the
physical function does. An apply that its domain's checks refuse leaves the presets staged with apply_err, and the image applies all the
same: the spec does not say what then becomes of it (DESIGN CHOICE, notes/assumptions/79.md). -/
def putPresets (c : Chip) (nv : Nv) (ps : List (Nat × Nat)) : Chip :=
  let c := c.each ps fun c p => c.write32 nv .pf p.1 p.2
  let ds := (ps.filterMap fun p => c.domainFirst p.1).dedup
  c.each ds fun c d =>
    let c := c.applyGo d.1 d.2 (c.get (d.1 + d.2 - 8) ⟨0, 15, 0⟩)
    c.each (c.copiesOf d.1) fun c b => c.takeEffect d.1 d.2 b

/-! ### The first accord (R43) -/

/-- A slice's window takes an entry: the slice is enabled and its window's own. -/
def firstSlice (c : Chip) (s : Nat) : Bool := c.sliceEnabled s && c.firstOf (U.slice s)

def firstHalf (c : Chip) (h : Nat) : Bool := c.halfEnabled h && c.firstOf (U.half h)

/-- An accord's entry: valid from the first accord, its end open. -/
def firstValid (c : Chip) (v : Validity) : Bool := v.valid && v.vfrom == c.image.firstAccord && v.vuntil == 0

/-- An answer with a reason, or the table with the entry in it. -/
def placed (r : Chip × Option Nat) : Chip × Option Nat := (r.1, if r.2.isSome then none else some 0x05)

def placeEm (c : Chip) (s state : Nat) (first : Option Entry) (data : Entry) : Chip × Option Nat :=
  let wide := state / 32 % 4 == 2
  let f := first.getD 0
  let key := if wide then bits f 255 96 * 2 ^ 160 + bits data 255 96 else bits data 255 96
  if !(c.firstSlice s) || state / 32 % 4 == 1 || state / 32 % 4 == 3 || (wide && first.isNone) ||
      !(c.firstValid ⟨true, bits data 31 16, bits data 15 0⟩) || !(c.emHolding s wide key c.image.firstAccord).isEmpty then (c, some 0x01)
  else if wide then
    placed (c.emInsertPair s { body := putBits f 31 0 (bits data 31 0), state := 0xA0 } { body := putBits data 95 32 0, state := 0xC0 })
  else placed (c.emInsert s { body := data, state := 0x80 })

def placeLpm (c : Chip) (h state : Nat) (data : Entry) : Chip × Option Nat :=
  let w : WinIn := { base := lpmWin h, src := .pf, index := 0, state := state, part := 0, half := 0, table := 0, seq := 0, data := data }
  let e := w.lpmEntry
  if !(c.firstHalf h) || !e.ok || !(c.lenEnabled h e.v6 e.length) || !(c.firstValid { e.validity with valid := true }) ||
      !((c.lpmMatches h e.v6 e.length e.ctx e.prefix_ c.image.firstAccord).isEmpty) then (c, some 0x01)
  else
    match c.lpmSpot h e with
    | none => (c, some 0x05)
    | some i =>
      (c.lpmPlace h i { w.lpmSlots.1 with state := putBits w.lpmSlots.1.state 7 7 1 } { w.lpmSlots.2 with state := putBits w.lpmSlots.2.state 7 7 1 }, none)

def placeTcam (c : Chip) (s index state : Nat) (parts : List Entry) : Chip × Option Nat :=
  let held (k st : Nat) : TcamEntry := TcamEntry.ofParts (parts.getD k 0) (parts.getD (k + 1) 0) (parts.getD (k + 2) 0) (BitVec.ofNat 8 (st / 32 * 32))
  let a := held 0 state
  match tcamOfWin index with
  | none => (c, some 0x01)
  | some i =>
    if !(c.firstSlice s) || !(c.tcamFormOk s i state) || !(c.firstValid a.validity) then (c, some 0x01)
    else if a.pair = 1 then
      let b := { held 3 (state / 128 * 128 + 64) with prio := a.prio, result := a.result, vfrom := a.vfrom, vuntil := a.vuntil }
      (c.tcamStore s [(i, a), (i + 1, b)], none)
    else (c.tcamStore s [(i, a)], none)

def placeV (c : Chip) (t : VTab) (s index : Nat) (data : Entry) : Chip × Option Nat :=
  let e : Word := BitVec.ofNat 64 (bits data 63 0)
  if !(c.firstSlice s) || decide (t.count ≤ index) || t.reserved e || !(c.firstValid (vValidity e)) then (c, some 0x01)
  else (c.vSet t s index e, none)

/-- Place one entry as its table's window would; the reason where it is refused. -/
def placeEntry (c : Chip) (w : TableWrite) : Chip × Option Nat :=
  match w with
  | .em s state first data => c.placeEm s state first data
  | .lpm h state data => c.placeLpm h state data
  | .filter h v6 index data =>
    if !(c.firstHalf h) || decide (65536 ≤ index) || (v6 && bits data 23 0 != 0) then (c, some 0x01)
    else (c.setFilter h v6 index (if v6 then bits data 127 0 else bits data 31 0), none)
  | .tcam s index state parts => c.placeTcam s index state parts
  | .bd s index data =>
    if !(c.firstSlice s) || decide (4096 ≤ index) || bits data 29 28 == 3 || bits data 27 16 != 0 then (c, some 0x01)
    else (c.bdSet s index (bits data 31 0), none)
  | .object s kind index part state data =>
    if !(c.firstSlice s) || decide (objCount kind ≤ index) || decide (4 ≤ part) || !(c.objOk s kind index part state data) then (c, some 0x01)
    else (c.objWrite s kind index part state data, none)
  | .head s index data => c.placeV .head s index data
  | .ecid s index data => c.placeV .ecid s index data
  | .subscriber s index data => c.placeV .sub s index data
  | .dflt port value =>
    let a := A.port port + R.PORT_DEFAULT
    if !(decide (port < 128) && c.present (U.port port) && c.firstOf (U.port port)) then (c, some 0x01)
    else
      match regRow a with
      | none => (c, some 0x01)
      | some r =>
        let v := BitVec.ofNat 64 value &&& BitVec.ofNat 64 r.sg
        let b : Chip := c.setReg a v
        if b.get (A.port port) R.PORT_DEFAULT_action = 2 && outside (b.get (A.port port) R.PORT_DEFAULT_default_vlan) 1 4094 then (c, some 0x01)
        else (c.each (c.copiesOf a) fun c x => c.setReg x v, none)

/-- Presets of the LPM domains: the prefix lengths that the first accord's LPM entries need (DEDUCED, notes/assumptions/31.md). -/
def lpmPresets (i : Image) : List (Nat × Nat) :=
  (presets i).filter fun p => decide (0x10000000 ≤ p.1) && decide (p.1 < 0x14000000) && decide (0x400000 ≤ p.1 % 0x02000000)

/-- Place every entry; stops at the first that fails (DEDUCED, notes/assumptions/31.md). -/
def placeAll (c : Chip) : List TableWrite → Chip × Option Nat
  | [] => (c, none)
  | w :: ws =>
    match c.placeEntry w with
    | (c', none) => placeAll c' ws
    | (_, some r) => (c, some r)

/-! ### The whole image -/

/-- The device with the image in it, or why the image is refused (R43): structure, microcode, the first accord committed, then the presets
(Table 2-5) (DEDUCED, notes/assumptions/31.md). -/
def buildImage (c : Chip) (nv : Nv) (i : Image) : Chip × Option Refused :=
  match Img.headerFault i <|> Img.tableFault i <|> Img.structureFault i with
  | some r => (c, some r)
  | none =>
    let b := c.putStructure i
    if (presets i).any b.presetBad then (c, some (0x16, Img.idx i 9))
    else
      let r := ((b.putPresets nv (lpmPresets i)).installAccord 0 (Img.firstAccord i)).placeAll i.accord
      (r.1.putPresets nv (presets i), r.2.map fun n => (n, Img.idx i 8))

end Chip

end Sys2Proof.Machine
end

