-- ==== Sys2Proof/Machine/Mailbox.lean ====
section
/-! DEFINITION. The strongroom's mailbox (spec/03_boot_and_strongroom.md R67 to R74, Table 3-12 to 3-15): requests, what each command
does, and its completion. -/

namespace Sys2Proof.Machine

open Sys2Proof

/-- The strongroom's unit (spec/01_architecture.md Table 1-4). -/
def roomUnit : Nat := 0xD040

/-- What a command leaves behind: status (Table 3-15), response, and the device. -/
structure MailAns where
  status : Nat
  resp : List Byte := []
  chip : Chip
  nv : Nv
  fuses : Fuses

/-- Ones of a number of `w` bits. -/
def onesOf (w n : Nat) : Nat := ((List.range w).filter fun i => n / 2 ^ i % 2 == 1).length

namespace Chip

def stage (c : Chip) : Nat := c.get 0 R.BOOT_STATUS_stage
def setStage (c : Chip) (n : Nat) : Chip := c.put 0 R.BOOT_STATUS_stage n
def setRoom (c : Chip) (r : Strongroom) : Chip := { c with room := r }

/-- IMAGE_STATUS while no image is applied. -/
def imageState (c : Chip) (state reason sect : Nat) : Chip :=
  ((c.put 0 R.IMAGE_STATUS_state state).put 0 R.IMAGE_STATUS_reason reason).put 0 R.IMAGE_STATUS_section sect

/-- The strongroom zeroises and halts (R68). IMAGE_STATUS.section after a halt before E0 is 0xFF: the spec gives state and reason alone
(DESIGN CHOICE, notes/assumptions/29.md). -/
def roomHalt (c : Chip) (kind : Nat) : Chip :=
  if c.room.halted then c
  else
    let c := ((c.setRoom { c.room with halted := true, nonce := none }).report roomUnit kind 5).setStage 0xF
    c.when (!c.room.e0) fun c => c.imageState 4 0x14 headerSection

/-- Debug level B is open (R71, Table 3-11). -/
def levelB (c : Chip) (fu : Fuses) : Bool := fu.debug == 0 || c.room.debugOpen == 2

end Chip

/-- A token's signer may sign (R70): a vendor slot not revoked, or an enrolled customer slot not revoked. -/
def tokenOk (fu : Fuses) (t : Option TokenCheck) : Bool :=
  match t with
  | none => false
  | some t => t.ok && decide (t.slot < 4) &&
      (if t.vendor then !(bit fu.vendorRevoked t.slot) else bit fu.enrolled t.slot && !(bit fu.customerRevoked t.slot))

/-- A token of a vendor slot. -/
def byVendor (t : Option TokenCheck) : Bool := t.any TokenCheck.vendor

/-- Length of slot, public key and signature block (Table 3-5, Table 3-14). -/
def tokenLen : Nat := 1 + 97 + 128

/-- req_len fits the opcode (Table 3-14) (DESIGN CHOICE, notes/assumptions/32.md). -/
def mailLenOk (op len : Nat) : Bool :=
  match op with
  | 2 => len == 2
  | 4 => len == tokenLen
  | 5 => len == tokenLen
  | 7 => len == 1
  | 8 => len == tokenLen
  | 9 => len == 1
  | 0xA => decide (5 ≤ len) && decide (len ≤ 1021)
  | 0xE => len == 48
  | _ => len == 0

namespace MailCmd

/-- First byte of the request. -/
def arg (m : MailCmd) : Nat := (m.req.headD 0).toNat

end MailCmd

namespace Chip

/-- Why a command is turned away before its own arguments count (R68, R71, R72) (DESIGN CHOICE, notes/assumptions/32.md). -/
def mailRefused (c : Chip) (fu : Fuses) (m : MailCmd) : Option Nat :=
  if c.room.halted then some 0x09
  else if !(mailOps.contains m.op) then some 0x01
  else if (m.op == 0xA && c.stage != 7) || (!c.room.e0 && !([1, 2, 0xD, 0xA].contains m.op)) || (fuseOps.contains m.op && c.levelB fu) ||
      ((m.op == 7 || m.op == 8) && fu.debug == 3) then some 0x05
  else if !(mailLenOk m.op m.len) then some 0x02
  else if m.excluded then some 0x06
  else none

/-- GET_INFO (DESIGN CHOICE, notes/assumptions/32.md). -/
def infoBytes (fu : Fuses) : List Byte :=
  (List.range 8).map Config.romByte ++ toLE 16 fu.uniqueId.toNat ++ (List.range 97).map Config.attestByte ++
    [BitVec.ofNat 8 (fu.vendorRevoked.toNat + 16 * fu.customerRevoked.toNat), BitVec.ofNat 8 fu.enrolled.toNat, BitVec.ofNat 8 fu.debug] ++ toLE 2 fu.rollback

/-- GET_BOOT_REPORT (DESIGN CHOICE, notes/assumptions/32.md). -/
def reportBytes (c : Chip) : List Byte :=
  toBE 48 c.image.hash.toNat ++ toLE 1 (c.get 0 R.BOOT_STATUS_slot_used) ++ c.room.patches.flatMap (toLE 4) ++ toBE 48 c.image.customerHash.toNat

/-- FUSE_PROGRAM_FAIL (Table 3-15) (DESIGN CHOICE, notes/assumptions/33.md). -/
def fuseFail (c : Chip) : Chip := c.report roomUnit K.fuseProgramFail 2

end Chip

/-- The hash bits of a new key: the SHA-384 of its 97 bytes. -/
def enrolHash (m : MailCmd) : Nat := (Config.sha384 ((m.req.drop 1).take 97)).toNat

/-- Fuses of a customer slot with hash bits blown, where any is, and the enrolled bit still clear
(DESIGN CHOICE, notes/assumptions/33.md). -/
def partlyBlown (fu : Fuses) (slot hash : Nat) (blown : Bool) : Fuses :=
  if blown then { fu with customerHash := setAt fu.customerHash slot hash, partly := fu.partly ||| BitVec.ofNat 4 (2 ^ slot) } else fu

/-- Status of ENROL_CUSTOMER_KEY before a fuse is blown (R70) (DESIGN CHOICE, notes/assumptions/32.md). -/
def enrolStatus (fu : Fuses) (m : MailCmd) : Nat :=
  if 4 ≤ m.arg then 3
  else if bit fu.enrolled m.arg || bit fu.partly m.arg then 8
  else if !(tokenOk fu m.verdict) then 4
  else 0

/-- Status of REVOKE_CUSTOMER_KEY before its fuse is blown. -/
def revokeStatus (fu : Fuses) (m : MailCmd) : Nat :=
  if 4 ≤ m.arg then 3
  else if !(tokenOk fu m.verdict) || !(bit fu.enrolled m.arg) || bit fu.customerRevoked m.arg then 4
  else 0

/-- Anti-rollback bits that ADVANCE_EPOCH has to blow (R74). -/
def advanceNeed (c : Chip) (fu : Fuses) : Nat := c.image.version / 2 ^ 24 % 256 - fu.rollback

namespace Chip

/-- ENROL_CUSTOMER_KEY (R70): hash bits first, the enrolled bit last; a bit that does not read back ends it
(DESIGN CHOICE, notes/assumptions/33.md). -/
def enrol (c : Chip) (nv : Nv) (fu : Fuses) (m : MailCmd) : MailAns :=
  if enrolStatus fu m != 0 then { status := enrolStatus fu m, chip := c, nv, fuses := fu }
  else
    let h := enrolHash m
    if onesOf 384 h + 1 ≤ m.blown then
      { status := 0, chip := c, nv, fuses := { fu with customerHash := setAt fu.customerHash m.arg h, enrolled := fu.enrolled ||| BitVec.ofNat 4 (2 ^ m.arg) } }
    else
      let free := c.freeBytes 48
      let part := if m.blown = onesOf 384 h then h else h &&& ofLE free.1
      { status := 7, chip := free.2.fuseFail, nv, fuses := partlyBlown fu m.arg part (m.blown != 0) }

/-- REVOKE_CUSTOMER_KEY (R70) (DESIGN CHOICE, notes/assumptions/33.md). -/
def revoke (c : Chip) (nv : Nv) (fu : Fuses) (m : MailCmd) : MailAns :=
  if revokeStatus fu m != 0 then { status := revokeStatus fu m, chip := c, nv, fuses := fu }
  else if m.blown = 0 then { status := 7, chip := c.fuseFail, nv, fuses := fu }
  else { status := 0, chip := c, nv, fuses := { fu with customerRevoked := fu.customerRevoked ||| BitVec.ofNat 4 (2 ^ m.arg) } }

/-- ADVANCE_EPOCH (R74) (DESIGN CHOICE, notes/assumptions/33.md). -/
def advance (c : Chip) (nv : Nv) (fu : Fuses) (m : MailCmd) : MailAns :=
  let need := advanceNeed c fu
  let fu' := { fu with rollback := fu.rollback + Nat.min m.blown need }
  if m.blown < need then { status := 7, chip := c.fuseFail, nv, fuses := fu' }
  else { status := 0, resp := toLE 2 fu'.rollback, chip := c, nv, fuses := fu' }

/-- DEBUG_RESPONSE (R71): the challenge is used up. -/
def debugResponse (c : Chip) (nv : Nv) (fu : Fuses) (m : MailCmd) : MailAns :=
  if m.arg != 1 && m.arg != 2 then { status := 3, chip := c, nv, fuses := fu }
  else
    let asked := c.room.nonce.any fun n => n.1 == m.arg
    let c := c.setRoom { c.room with nonce := none }
    if !asked || !(tokenOk fu m.verdict) || (m.arg == 2 && !(byVendor m.verdict)) then { status := 4, chip := c, nv, fuses := fu }
    else
      let level := Nat.max c.room.debugOpen m.arg
      { status := 0, nv, fuses := fu
        chip := ((c.setRoom { c.room with debugOpen := level }).put 0 R.BOOT_STATUS_debug_open level).report roomUnit K.debugUnlocked 0 m.arg }

/-- A host image fails (R62, R66, R74): the transfer starts again. -/
def hostFail (c : Chip) (reason sect : Nat) : Chip :=
  ((c.setRoom { c.room with hostBytes := 0, hostImage := [], trying := none }).imageState 4 reason sect).report roomUnit
    K.bootAuthFail 5

/-- BOOT_FROM_HOST (R74). A chunk out of sequence lies in no section of an image: IMAGE_STATUS.section reads 0xFF, which the spec does not
say (DESIGN CHOICE, notes/assumptions/33.md). -/
def hostChunk (c : Chip) (nv : Nv) (fu : Fuses) (m : MailCmd) : MailAns :=
  if fieldAt m.req 0 4 != c.room.hostBytes then { status := 0xA, chip := c.hostFail 0x18 headerSection, nv, fuses := fu }
  else
    let data := m.req.drop 5
    let n := c.room.hostBytes + data.length
    let c := c.setRoom { c.room with hostBytes := n, hostImage := c.room.hostImage ++ data }
    let c := if fieldAt m.req 4 1 = 0 then c
      else ((c.setRoom { c.room with trying := some 2 }).setStage 4).imageState 1 0 0
    { status := 0, resp := toLE 4 n, chip := c, nv, fuses := fu }

/-- What a command that was not turned away does (DESIGN CHOICE, notes/assumptions/32.md). -/
def mailServe (c : Chip) (nv : Nv) (fu : Fuses) (m : MailCmd) : MailAns :=
  let answer (c : Chip) (status : Nat) (resp : List Byte) : MailAns := { status, resp, chip := c, nv, fuses := fu }
  match m.op with
  | 1 => answer c 0 (infoBytes fu)
  | 2 =>
    let n := fieldAt m.req 0 2
    if n = 0 || 1024 < n then answer c 3 []
    else if c.room.trngBad then answer c 0xB []
    else let r := c.freeBytes n; answer r.2 0 r.1
  | 3 => answer c 0 c.reportBytes
  | 4 => c.enrol nv fu m
  | 5 => c.revoke nv fu m
  | 6 => c.advance nv fu m
  | 7 =>
    if m.arg != 1 && m.arg != 2 then answer c 3 []
    else if c.room.trngBad then answer c 0xB []
    else let r := c.freeBytes 48; answer (r.2.setRoom { r.2.room with nonce := some (m.arg, r.1) }) 0 r.1
  | 8 => c.debugResponse nv fu m
  | 9 => if 1 < m.arg then answer c 3 [] else answer (c.hkRecord (.boot m.arg)) 0 []
  | 0xA => c.hostChunk nv fu m
  | 0xD => if m.pass then let r := c.freeBytes 1; answer r.2 0 r.1 else answer (c.roomHalt K.strongroomSelftest) 9 []
  | 0xE => let r := c.freeBytes 100; answer r.2 0 (r.1 ++ List.replicate 28 0)
  | _ => answer c 1 []

/-- A channel's command completes: response, status and done (R72, R73). -/
def mailDone (c : Chip) (ch : Nat) (m : MailCmd) (a : MailAns) : Chip :=
  let b := A.mbox ch
  let r := a.chip.room
  let c := a.chip.setRoom { r with data := r.data.setBytes (ch * 0x400) a.resp, order := r.order.filter (· != ch), cmds := c.room.cmds.set ch none }
  ((((c.put b R.MBX_STATUS_resp_len a.resp.length).put b R.MBX_STATUS_seq m.seq).put b R.MBX_STATUS_status a.status).put b R.MBX_STATUS_busy 0).put b
    R.MBX_STATUS_done 1

/-- The strongroom answers the oldest command. -/
def mailAnswer (c : Chip) (nv : Nv) (fu : Fuses) (ch : Nat) : Chip × Nv × Fuses :=
  if c.room.order.head? = some ch then
    match c.room.cmds.look ch with
    | none => (c, nv, fu)
    | some m =>
      let a : MailAns := match c.mailRefused fu m with
        | some st => { status := st, chip := c, nv, fuses := fu }
        | none => c.mailServe nv fu m
      (c.mailDone ch m a, a.nv, a.fuses)
  else (c, nv, fu)

/-- A chip reset or a power loss cuts off the command in service (R55, R70): a fuse command may have blown some of its bits
(DESIGN CHOICE, notes/assumptions/33.md). -/
def cutFuses (c : Chip) (fu : Fuses) : Chip × Fuses :=
  match c.room.order.head?.bind fun ch => c.room.cmds.look ch with
  | none => (c, fu)
  | some m =>
    let free := c.freeBytes 48
    if (c.mailRefused fu m).isSome then (c, fu)
    else
      match m.op with
      | 4 =>
        if enrolStatus fu m = 0 then
          (free.2, partlyBlown fu m.arg (enrolHash m &&& ofLE free.1) (enrolHash m &&& ofLE free.1 != 0))
        else (c, fu)
      | 5 => if revokeStatus fu m = 0 && ofLE free.1 % 2 = 1 then (free.2, { fu with customerRevoked := fu.customerRevoked ||| BitVec.ofNat 4 (2 ^ m.arg) })
             else (free.2, fu)
      | 6 => (free.2, { fu with rollback := fu.rollback + ofLE free.1 % (advanceNeed c fu + 1) })
      | _ => (c, fu)

end Chip

/-! ### Meanings -/

/-- A mailbox command: the go of its channel, by the channel's side (R72). -/
def State.mail (s : State) (ch op len seq : Nat) (verdict : Option TokenCheck) (blown : Nat) (pass : Bool) : Host.Outcome State Fault Refusal :=
  s.run .core fun c => c.mailGo ch op len seq verdict blown pass

/-- GET_INFO. -/
def execGetInfo (ch len seq : Nat) (s : State) : Host.Outcome State Fault Refusal := s.mail ch 1 len seq none 0 true

/-- GET_RANDOM. -/
def execGetRandom (ch len seq : Nat) (s : State) : Host.Outcome State Fault Refusal := s.mail ch 2 len seq none 0 true

/-- GET_BOOT_REPORT. -/
def execGetBootReport (ch len seq : Nat) (s : State) : Host.Outcome State Fault Refusal := s.mail ch 3 len seq none 0 true

/-- ENROL_CUSTOMER_KEY (R70). -/
def execEnrolCustomerKey (ch len seq : Nat) (verdict : TokenCheck) (blown : Nat) (s : State) : Host.Outcome State Fault Refusal :=
  s.mail ch 4 len seq (some verdict) blown true

/-- REVOKE_CUSTOMER_KEY (R70). -/
def execRevokeCustomerKey (ch len seq : Nat) (verdict : TokenCheck) (blown : Nat) (s : State) : Host.Outcome State Fault Refusal :=
  s.mail ch 5 len seq (some verdict) blown true

/-- ADVANCE_EPOCH (R74). -/
def execAdvanceEpoch (ch len seq blown : Nat) (s : State) : Host.Outcome State Fault Refusal := s.mail ch 6 len seq none blown true

/-- DEBUG_CHALLENGE (R71). -/
def execDebugChallenge (ch len seq : Nat) (s : State) : Host.Outcome State Fault Refusal := s.mail ch 7 len seq none 0 true

/-- DEBUG_RESPONSE (R71). -/
def execDebugResponse (ch len seq : Nat) (verdict : TokenCheck) (s : State) : Host.Outcome State Fault Refusal :=
  s.mail ch 8 len seq (some verdict) 0 true

/-- SET_BOOT_SLOT (R74). -/
def execSetBootSlot (ch len seq : Nat) (s : State) : Host.Outcome State Fault Refusal := s.mail ch 9 len seq none 0 true

/-- BOOT_FROM_HOST (R74). -/
def execBootFromHost (ch len seq : Nat) (s : State) : Host.Outcome State Fault Refusal := s.mail ch 0xA len seq none 0 true

/-- SELF_TEST (R68): `pass` says that every known-answer test passes. -/
def execSelfTest (ch len seq : Nat) (pass : Bool) (s : State) : Host.Outcome State Fault Refusal := s.mail ch 0xD len seq none 0 pass

/-- ATTEST. -/
def execAttest (ch len seq : Nat) (s : State) : Host.Outcome State Fault Refusal := s.mail ch 0xE len seq none 0 true

/-- MAILBOX_COMPLETE (R72, R73) (DESIGN CHOICE, notes/assumptions/32.md). -/
def execMailboxComplete (ch : Nat) (s : State) : Host.Outcome State Fault Refusal :=
  s.runNv .core fun nv fu c => c.mailAnswer nv fu ch

end Sys2Proof.Machine
end

