-- ==== Sys2Proof/Machine/Boot.lean ====
section
/-! DEFINITION. Start-up (spec/03_boot_and_strongroom.md R58 to R69): training, slot checks, the handover and the apply sequence
(spec/02_configuration_image.md R43, R44), control firmware (spec/20_host_interface.md R443), and the strongroom's halts. -/

namespace Sys2Proof.Machine

open Sys2Proof

namespace Chip

/-! ### Training at start (spec/16_hbm_controller.md R355, R357, R363) -/

/-- The recorded pseudo-channels of a stack are retired before training; the first of stack 0 takes the relocation reserve
(DESIGN CHOICE, notes/assumptions/29.md). -/
def retireRecorded (c : Chip) (nv : Nv) (m : Nat) : Chip :=
  c.each ((nv.retired.filter fun r => r.1 == m && decide (r.2 < 32)).map Prod.snd) fun c pc =>
    if c.hbmRetired m pc then c
    else
      let c := c.markRetired m pc
      if m != 0 then c
      else if c.on (A.hbm m) R.HBM_RELOC_used then c.setHb m { c.hb m with unmapped := pc :: (c.hb m).unmapped }
      else (c.put (A.hbm m) R.HBM_RELOC_used 1).put (A.hbm m) R.HBM_RELOC_channel pc

/-- A pseudo-channel fails step 5 of a full training (R357); the lane count of the record's address is open (DESIGN CHOICE,
notes/assumptions/29.md). -/
def trainFails (c : Chip) (m pc : Nat) : Chip :=
  if c.hbmRetired m pc || 32 ≤ pc then c
  else
    let n := (Config.freeByte c.fresh).toNat
    ({ c with fresh := c.fresh + 1 }.report (pcUnit m pc) K.hbmTrainFail 2 (5 * 256 + n)).retirePc m pc 3

/-- A full training is over (DESIGN CHOICE, notes/assumptions/29.md). -/
def fullTraining (c : Chip) (m : Nat) (failed : List Nat) : Chip :=
  (((c.each failed fun c pc => c.trainFails m pc).cnt (A.hbm m + C.trainings) 1).put (A.hbm m) R.HBM_EVENT_train_done 1).hbmReady m

/-- Stack 0 is trained at start: the strongroom turns to the preferred slot (R62, R64). -/
def stack0Ready (c : Chip) (nv : Nv) : Chip :=
  let c := (c.setRoom { c.room with stack0 := true, tried := [], trying := some nv.bootSlot }).setStage 3
  c.imageState 1 0 0

/-- Stack 0 may finish its training at start. -/
def stack0Due (c : Chip) : Bool := !c.room.stack0 && !c.room.e0 && !c.room.halted && (c.stage == 1 || c.stage == 2)

/-! ### Slots (R62, R66) -/

/-- The outcome of a flash slot in BOOT_STATUS. -/
def slotReason (c : Chip) (slot reason : Nat) : Chip :=
  c.put 0 (if slot = 0 then R.BOOT_STATUS_reason_a else R.BOOT_STATUS_reason_b) reason

/-- A flash slot fails: its record, and the other slot or the wait for the host. -/
def slotFail (c : Chip) (nv : Nv) (slot reason sect : Nat) : Chip :=
  let tried := slot :: c.room.tried
  let other := 1 - slot
  let last := tried.contains other
  let c := ((c.slotReason slot reason).when (slot == nv.bootSlot) fun c => c.put 0 R.BOOT_STATUS_fallback 1).report roomUnit
    (if reason = 0x15 then K.bootRollback else K.bootAuthFail) (if last then 5 else 3)
  if last then ((c.setRoom { c.room with tried, trying := none }).imageState 4 reason sect).setStage 7
  else ((c.setRoom { c.room with tried, trying := some other }).imageState 1 0 0).setStage 3

end Chip

/-- The vendor slot that signs an image (Table 2-1). -/
def Img.keyIndex (i : Image) : Nat := fieldAt i.header 0x16 2

/-- A section of an image is encrypted (Table 2-2). -/
def encrypted (s : Section) : Bool := s.flags % 2 == 1

/-- The first section, by its index in the table, that `bad` picks. -/
def badSection (i : Image) (bad : Section → Nat → Bool) : Option Nat := (i.sections.zipIdx.find? fun p => bad p.1 p.2).map Prod.snd

/-- Why an image fails the strongroom's checks 1 to 4 (R58, R60, R62): reason and failing section. The section flags are judged after the
anti-rollback fuses and before the tags (DESIGN CHOICE, notes/assumptions/29.md). -/
def slotFault (fu : Fuses) (i : Image) (sigs : ImageSigs) : Option Refused :=
  let k := Img.keyIndex i
  if !sigs.image || decide (4 ≤ k) || bit fu.vendorRevoked k then some (0x14, headerSection)
  else if Img.version i / 2 ^ 24 % 256 < fu.rollback then some (0x15, headerSection)
  else
    match badSection i fun s _ => (s.type == 6 && !(encrypted s)) || (s.type == 7 && encrypted s) with
    | some n => some (0x19, n)
    | none =>
      match badSection i fun s n => encrypted s && sigs.tags.contains n with
      | some n => some (0x14, n)
      | none => (badSection i fun s n => s.type == 0xA && sigs.patches.contains n).map fun n => (0x14, n)

/-- The customer slot that section 0x07's signature block names (R58, Table 3-5). -/
def Img.customerSigner (i : Image) : Nat := fieldAt (Img.body i 7) ((Img.body i 7).length - 128 + 0x60) 2

/-- Check 5 of R58: section 0x07's signature verifies under a customer slot that is enrolled and not revoked. -/
def customerPass (fu : Fuses) (i : Image) : Bool :=
  let k := Img.customerSigner i
  i.customerOk && decide (k < 4) && bit fu.enrolled k && !(bit fu.customerRevoked k)

namespace Chip

/-- What the checks of slot `slot` find (R58, R63): no image read is 0x17 from the flash, and 0x18 from the host, as is a host image that
is not all there. -/
def slotOutcome (c : Chip) (fu : Fuses) (slot : Nat) (read : Option Image) (sigs : ImageSigs) : Option Refused :=
  match read with
  | none => some (if slot = 2 then 0x18 else 0x17, headerSection)
  | some i => if slot = 2 && decide (c.room.hostBytes < Img.length i) then some (0x18, headerSection) else slotFault fu i sigs

/-- An image can be what the strongroom reads: a host image begins with the bytes that the host sent. -/
def readable (c : Chip) (slot : Nat) (read : Option Image) : Bool :=
  match read with
  | none => true
  | some i => slot != 2 || i.header == c.room.hostImage.take 256

/-- The checks of the slot or host image in hand end (R58): an image that passes stands in the staging area, with the outcome of check 5. -/
def slotCheck (c : Chip) (nv : Nv) (fu : Fuses) (read : Option Image) (sigs : ImageSigs) : Chip :=
  match c.room.trying with
  | none => c
  | some slot =>
    if c.room.halted || !(c.readable slot read) then c
    else
      match c.slotOutcome fu slot read sigs with
      | some r => if slot = 2 then (c.hostFail r.1 r.2).setStage 7 else c.slotFail nv slot r.1 r.2
      | none =>
        let staged := read.map fun (i : Image) => { i with customerOk := customerPass fu i }
        (((c.setRoom { c.room with trying := none, verified := some slot, staged }).put 0 R.BOOT_STATUS_slot_used slot).imageState 1 0 0).setStage 5

/-! ### Handover and apply -/

/-- The housekeeper refuses the image (R43). -/
def imageRefuse (c : Chip) (r : Refused) : Chip := (c.imageState 4 r.1 r.2).report 0xD030 K.imageApplyFail 5

/-- The apply sequence releases the innkeepers, on the minima of the image (R65). -/
def innkStart (c : Chip) (i : Image) : Chip :=
  let c := c.each (Img.halfList i) fun c r => c.putHalf i r
  { c with image := { c.image with runHalves := Img.halves i } }.each (List.range (Img.halves i)) Chip.syncInnk

/-- E0: the checks of the whole image (R43); an image that passes is held for the apply sequence, and firmware is verified (R443). -/
def handover (c : Chip) (nv : Nv) : Chip :=
  match c.room.verified, c.room.staged with
  | some _, some i =>
    if c.room.e0 || c.room.halted then c
    else
      let c := (c.setRoom { c.room with e0 := true, verified := none, staged := none }).setStage 6
      match (c.buildImage nv i).2 with
      | some r => c.imageRefuse r
      | none => (({ c with image := { c.image with held := some i } }.innkStart i).imageState 2 0 0).put 0 R.CC_STATUS_fw_state 1
  | _, _ => c

/-- The housekeeper fills L2 and L3 and releases core 0, once the image is applied and the firmware verified (R443,
spec/17_memory_protection.md R372) (DESIGN CHOICE, notes/assumptions/29.md). -/
def releaseCore0 (c : Chip) : Chip :=
  if c.image.applied && c.get 0 R.CC_STATUS_fw_state = 2 && !(c.coreRuns 0) then
    let c := c.each [0xD010, 0xD011, 0xD012, 0xD013, 0xD018] Chip.fillAll
    (c.coreBit R.CC_CTRL_release 0 true).coreStart 0
  else c

/-- SHA-384 of the customer region as loaded (DESIGN CHOICE, notes/assumptions/8.md). -/
def customerHash (st : Tbl Entry) : BitVec 384 := Config.sha384 ((List.range 1024).flatMap fun w => toLE 32 (st.look (3072 + w)).toNat)

/-- The image is applied: status, LK registers, hashes (Table 2-5). The image's own hash covers its encrypted form: a free value. -/
def imageApplied (c : Chip) (i : Image) : Chip :=
  let h := c.freeBytes 48
  let c := h.2
  let c := { c with image := { c.image with held := none, hash := BitVec.ofNat 384 (ofBE h.1), customerHash := customerHash c.store } }
  let c := c.setRoom { c.room with patches := (Img.all i 0xA).map fun p => Img.patchId p.2.body, hostImage := [] }
  let c := (c.put 0 R.IMAGE_VERSION_version (Img.version i)).put 0 R.IMAGE_ACCORD_first (Img.firstAccord i)
  (((c.imageState 3 0 0).put 0 R.IMAGE_STATUS_profile (Img.profile i)).put 0 R.IMAGE_STATUS_customer_state (Img.customerState i)).releaseCore0

/-- The apply sequence ends (DEDUCED, notes/assumptions/31.md). -/
def imageApply (c : Chip) (nv : Nv) : Chip :=
  match c.image.held with
  | none => c
  | some i =>
    if c.image.applied then c
    else
      match c.buildImage nv i with
      | (_, some r) => { c with image := { c.image with held := none } }.imageRefuse r
      | (b, none) => b.imageApplied i

/-! ### Control firmware (spec/20_host_interface.md R443) -/

/-- The slot whose firmware is in hand: that of the image first (the preferred one after a host image), then the other
(DESIGN CHOICE, notes/assumptions/29.md). -/
def fwSlot (c : Chip) (nv : Nv) : Nat :=
  let u := c.get 0 R.BOOT_STATUS_slot_used
  let first := if u ≤ 1 then u else nv.bootSlot
  if c.room.fwTried.contains first then 1 - first else first

/-- The check of the firmware slot in hand ends (R443) (DESIGN CHOICE, notes/assumptions/29.md). -/
def firmware (c : Chip) (nv : Nv) (pass : Bool) : Chip :=
  if c.get 0 R.CC_STATUS_fw_state != 1 || c.room.halted then c
  else
    let slot := c.fwSlot nv
    if pass then ((c.put 0 R.CC_STATUS_fw_state 2).put 0 R.CC_STATUS_fw_slot slot).releaseCore0
    else if c.room.fwTried.isEmpty then c.setRoom { c.room with fwTried := [slot] }
    else ((c.setRoom { c.room with fwTried := slot :: c.room.fwTried }).put 0 R.CC_STATUS_fw_state 3).report roomUnit K.bootAuthFail 3 2

end Chip

/-! ### Meanings -/

/-- STACK0_TRAINING_COMPLETE (R64, spec/16_hbm_controller.md R355). -/
def execStack0TrainingComplete (s : State) : Host.Outcome State Fault Refusal :=
  s.runNv .core fun nv fu c =>
    (if c.stack0Due then (if c.hbmState 0 = 0 then (c.retireRecorded nv 0).fullTraining 0 [] else c).stack0Ready nv else c, nv, fu)

/-- SLOT_CHECK_COMPLETE (R58 to R63): `read` is the image that the slot or the transfer holds, `sigs` what the crypto engines find of it. -/
def execSlotCheckComplete (read : Option Image) (sigs : ImageSigs) (s : State) : Host.Outcome State Fault Refusal :=
  s.runNv .core fun nv fu c => (c.slotCheck nv fu read sigs, nv, fu)

/-- IMAGE_HANDOVER (R43): `img` is the image handed over, the one in the staging area; another names nothing
(DESIGN CHOICE, notes/assumptions/2.md). -/
def execImageHandover (img : Image) (s : State) : Host.Outcome State Fault Refusal :=
  s.runNv .core fun nv fu c => (if c.room.staged = some img then c.handover nv else c, nv, fu)

/-- IMAGE_APPLY_COMPLETE (R44, R59, R65). -/
def execImageApplyComplete (s : State) : Host.Outcome State Fault Refusal := s.runNv .core fun nv fu c => (c.imageApply nv, nv, fu)

/-- FULL_TRAINING_COMPLETE (R355): at start for stack 0 before the images are read, for stack 1 of the Full profile after E0; later after
a reset's release. `failed` are the pseudo-channels whose lanes failed beyond repair. -/
def execFullTrainingComplete (m : Nat) (failed : List Nat) (s : State) : Host.Outcome State Fault Refusal :=
  s.runNv .core fun nv fu c =>
    let start := c.hbmState m == 0 && ((m == 0 && c.stack0Due) ||
      (m == 1 && c.room.e0 && (c.halfEnabled 1 || c.image.held.any fun i => Img.profile i == 0)))
    (if start then (c.retireRecorded nv m).fullTraining m failed
     else if c.hbmUp m && c.hbmState m == 1 && !(c.trainingOn m) then c.fullTraining m failed
     else c, nv, fu)

/-- STRONGROOM_TAMPER (R68). -/
def execStrongroomTamper (s : State) : Host.Outcome State Fault Refusal :=
  s.run .aon fun c => if c.power.released then c.roomHalt K.strongroomTamper else c

/-- STRONGROOM_SELFTEST (R68). -/
def execStrongroomSelftest (s : State) : Host.Outcome State Fault Refusal :=
  s.run .aon fun c => if c.power.released then c.roomHalt K.strongroomSelftest else c

/-- TRNG_HEALTH (R69). -/
def execTrngHealth (s : State) : Host.Outcome State Fault Refusal :=
  s.run .aon fun c =>
    if c.power.released && !c.room.halted && !c.room.trngBad then (c.setRoom { c.room with trngBad := true }).report roomUnit K.trngHealth 2 else c

/-- TRNG_HEALTH_RECOVER (R69). -/
def execTrngHealthRecover (s : State) : Host.Outcome State Fault Refusal :=
  s.run .aon fun c => c.setRoom { c.room with trngBad := false }

/-- CONTROL_FIRMWARE_CHECK (spec/20_host_interface.md R443). -/
def execControlFirmwareCheck (pass : Bool) (s : State) : Host.Outcome State Fault Refusal :=
  s.runNv .core fun nv fu c => (c.firmware nv pass, nv, fu)

end Sys2Proof.Machine
end

