-- ==== Sys2Proof/Machine/ChipReset.lean ====
section
/-! DEFINITION. Power, the reset pins and chip resets (spec/03_boot_and_strongroom.md R53 to R57, spec/18_ledger_and_faults.md R395,
R474). -/

namespace Sys2Proof.Machine

open Sys2Proof

namespace Chip

/-! ### Chip resets and power -/

/-- Checkers of the AON domain: their messages survive a chip reset (R388, spec/19 R407) (DESIGN CHOICE, notes/assumptions/27.md). -/
def aonUnit (u : Nat) : Bool := u == 0xD030 || u == 0xD038 || (decide (0xD050 ≤ u) && decide (u < 0xD058))

/-- The housekeeper's registers that show its state; its staged fields do not survive (spec/02_configuration_image.md R50)
(DESIGN CHOICE, notes/assumptions/27.md). -/
def keptHouse (a : Nat) (v : Word) : Word :=
  let sg := BitVec.ofNat 64 (((regRow a).map RegRow.sg).getD 0)
  if a = R.SLEEP_STATE then 0
  else if a = R.HK_STATUS then putBits v 31 30 0
  else (v &&& ~~~sg) ||| (regReset a &&& sg)

/-- Ledger registers that a chip reset keeps (R474). -/
def keptLedger (a : Nat) : Bool :=
  [R.LEDGER_STATUS, R.LEDGER_CAUSE, R.LEDGER_RD_PTR, R.LEDGER_WR_PTR].contains a ||
    (decide (R.LEDGER_FIRST ≤ a) && decide (a < R.LEDGER_FIRST + 16))

/-- What a chip reset leaves of a register: every counter (R24), the time bases (R321), the ledger's (R474), the housekeeper's
(R407), and the ledger SRAM's group; every other register returns to its reset value (DESIGN CHOICE, notes/assumptions/27.md). -/
def keptReg (a : Nat) (v : Word) : Word :=
  if (regRow a).any RegRow.counter then v
  else if 0x40000 ≤ a && a < 0x41000 then v
  else if keptLedger a then v
  else if A.group 0xD038 ≤ a && a < A.group 0xD038 + 0x10000 then v
  else if (0x7000 ≤ a && a < 0x7100) || (0x7800 ≤ a && a < 0x7FF8) then keptHouse a v
  else regReset a

/-- Registers after a chip reset, in canonical form. -/
def keptRegs (t : Tbl Word) : Tbl Word :=
  t.filterMap fun p => if keptReg p.1 p.2 = regReset p.1 then none else some (p.1, keptReg p.1 p.2)

/-- Values that the fused grade gives (spec/00_scope.md Table 0-3, spec/19 R423) (DESIGN CHOICE, notes/assumptions/5.md). -/
def gradeRegs (c : Chip) (fu : Fuses) : Chip :=
  if fu.grade = 0 then c
  else (((c.put 0 R.DEVICE_ID_grade fu.grade).put 0 R.THERM_STATUS_trip_fused 117).put 0 R.THERM_CTRL_warn_c 105).put 0 R.THERM_CTRL_trip_c 117

/-- The ledger writes what waits in its queue and carries out the E reactions (R388). -/
def lastRecords (c : Chip) : Chip :=
  let q := c.ledger.queue
  { c with ledger := { c.ledger with queue := [] } }.each q fun c m => c.acceptPart m 0x10

/-- The ledger after a chip reset (R388, R474) (DESIGN CHOICE, notes/assumptions/27.md). -/
def keptLedgerState (l : Ledger) : Ledger :=
  { transit := l.transit.filter fun m => aonUnit m.source
    held := l.held.filter fun m => aonUnit m.source
    ring := l.ring, lostBase := l.lostBase, lostSent := l.lostSent
    conds := l.conds
    ended := l.ended.filter fun x => aonUnit x.1
    jrnQueue := l.jrnQueue, jrnLost := l.jrnLost }

end Chip

/-- A record of the housekeeper's queue is a line write of the keepsake window. -/
def HkRec.isLine : HkRec → Bool
  | .line _ _ => true
  | _ => false

namespace Chip

/-- The housekeeper after a chip reset (R407): no slice sleeps any more, and while writes are stopped its queue is discarded (R425)
(DESIGN CHOICE, notes/assumptions/27.md). -/
def keptHouseState (c : Chip) : House :=
  { c.house with
    sleep := [], cause := 0, wakeStore := [], nightHeld := [], nightOp := []
    queue := if c.on 0 R.SAG_STATUS_stopped then [] else (c.house.queue.filter fun r => !r.isLine) }

/-- What a chip reset keeps: the AON domain and every counter; everything else is as at power-on (Table 3-2, R474). `pin` when SYS_RST_N
is its trigger; `cause` for BOOT_STATUS.reset_cause (DESIGN CHOICE, notes/assumptions/27.md). -/
def afterReset (c : Chip) (fu : Fuses) (pin : Bool) (cause : Nat) : Chip :=
  let new : Chip := {
    now := c.now, fresh := c.fresh, out := c.out, busData := c.busData
    regs := keptRegs c.regs
    staged := c.staged.filter fun p => decide (0x40000 ≤ p.1) && decide (p.1 < 0x41000)
    since := c.since.filter fun p => decide (0x40000 ≤ p.1) && decide (p.1 < 0x41000)
    applies := c.applies.filter fun p => decide (0x40000 ≤ p.1) && decide (p.1 < 0x41000)
    tbs := c.tbs, pps := c.pps
    power := { vddAon := true, sysRstHigh := !pin && c.power.sysRstHigh, perstHigh := c.power.perstHigh, serdesRef := c.power.serdesRef
               refLost := !pin && c.power.refLost, halted := !pin && c.power.halted, vioSel := c.power.vioSel }
    ledger := keptLedgerState c.ledger
    house := c.keptHouseState
    mem := c.mem.filter fun p => p.1 == 0xD038
    nextId := c.nextId }
  ((new.gradeRegs fu).put 0 R.BOOT_STATUS_reset_cause cause)

/-- A window's line write in progress lands before the reset (R55). -/
def lastLine (c : Chip) (nv : Nv) : Chip × Nv :=
  if c.on 0 R.SAG_STATUS_stopped then (c, nv)
  else (c.house.queue.filter HkRec.isLine).foldl (fun x r => x.1.lineWrite (x.2.store r).1 (x.2.store r).2) (c, nv)

/-- A chip reset begins (R53 to R55, R388, R474): the ledger's last records, the lost ones counted, the window's line write made, a fuse
command cut off, and the reset (DESIGN CHOICE, notes/assumptions/27.md). -/
def chipReset (c : Chip) (nv : Nv) (fu : Fuses) (pin : Bool) (cause : Nat) : Chip × Nv × Fuses :=
  let c := c.lastRecords
  let q := c.fifos.look 24
  let lost := ((c.ledger.transit ++ c.ledger.held).filter fun m => !(aonUnit m.source)).length + q.filling.length + q.draining.length
  let w := (c.cnt C.records_lost lost).lastLine nv
  let x := w.1.cutFuses fu
  (x.1.afterReset x.2 pin cause, w.2, x.2)

/-- The remaps that the keepsake store records apply from the start (spec/17_memory_protection.md R379). -/
def applyRemaps (c : Chip) (nv : Nv) : Chip :=
  c.each nv.remaps fun c r =>
    let g := c.grp r.1
    let block := r.2.1 / 1024
    c.setGrp r.1 { g with
      remaps := (r.2.1, r.2.2) :: g.remaps.filter (fun x => x.1 != r.2.1)
      sparesUsed := g.sparesUsed.set block (Nat.max (g.sparesUsed.look block) (r.2.2 % 2 + 1)) }

/-- The internal release: start-up begins (Table 3-7). The ledger SRAM is filled once per power-on (spec/17 Table 17-1)
(DESIGN CHOICE, notes/assumptions/27.md). -/
def startUp (c : Chip) (nv : Nv) : Chip :=
  let c := { c with power := { c.power with released := true } }
  (c.when (c.grp 0xD038).filled.isEmpty fun c => c.fillAll 0xD038).applyRemaps nv

/-- PERST_N is low: the endpoint and the DMA engine are reset (R56, spec/20_host_interface.md R431). -/
def perstLow (c : Chip) : Chip :=
  let live := c.ready .core
  let c := { c with power := { c.power with perstHigh := false, pcieUp := false } }
  if live then (c.setReg R.ENDPOINT_STATUS 0).endpointReset else c

end Chip

/-! ### Meanings: chip resets and power -/

/-- The device as VDD_AON rises: VIO_SEL is sampled (spec/22_pins_and_electrical.md R467); the housekeeper takes the set point table that
the keepsake store holds (spec/19_housekeeper_power_ageing.md R419), and does not steer a regulator whose VOUT_MODE is not linear (R416)
(PRESUMED, notes/assumptions/59.md) (DEDUCED, notes/assumptions/60.md). -/
def Chip.powered (c : Chip) (nv : Nv) (fu : Fuses) : Chip :=
  let c := Chip.gradeRegs {
    now := c.now, fresh := c.fresh + 1
    power := { serdesRef := c.power.serdesRef, vioSel := Config.vioSel c.fresh }
    house := { plan := nv.plan, replanAt := if nv.plan.isEmpty then none else some c.now, unsteered := !Config.linearVout } } fu
  c.when (!Config.linearVout) fun c => (c.report 0xD030 K.pmbusFail 2 1).put 0 R.HK_EVENT_pmbus_fail 1

/-- POWER_ON (R53, R462): everything but the fuses and the keepsake store is reset. -/
def execPowerOn (s : State) : Host.Outcome State Fault Refusal :=
  s.runNv .always fun nv fu c => (if c.power.vddAon then c else c.powered nv fu, nv, fu)

/-- POWER_LOSS (R462, R463): every state of the device ends; a fuse command in service is cut off (R70). -/
def execPowerLoss (s : State) : Host.Outcome State Fault Refusal :=
  s.runNv .always fun nv fu c =>
    let x := c.cutFuses fu
    ({ now := c.now, fresh := x.1.fresh, power := { vddAon := false, serdesRef := c.power.serdesRef } }, nv, x.2)

/-- PIN_CHIP_RESET (R53, R468): SYS_RST_N goes low; it also ends a thermal halt (spec/19 R423) and the undefined behaviour of a lost
reference (spec/22 R466); the PPS outputs drive low. -/
def execPinChipReset (s : State) : Host.Outcome State Fault Refusal :=
  s.runNv .always fun nv fu c =>
    if c.power.vddAon && c.power.sysRstHigh then
      let x := c.chipReset nv fu true (if c.power.halted then 4 else 1)
      let c := x.1.each [0, 1] fun c i =>
        if (c.pps.look i).rose.isSome then
          { c with pps := c.pps.upd i fun o => { o with rose := none } }.emit (.pps i false)
        else c
      (c, x.2)
    else (c, nv, fu)

/-- SYS_RST_N_RISE (R57). -/
def execSysRstNRise (s : State) : Host.Outcome State Fault Refusal :=
  s.run .always fun c => if c.power.vddAon then { c with power := { c.power with sysRstHigh := true } } else c

/-- INTERNAL_RELEASE (R57, R64). -/
def execInternalRelease (s : State) : Host.Outcome State Fault Refusal :=
  s.runNv .aon fun nv fu c =>
    (if c.power.sysRstHigh && !c.power.released && !c.power.halted then c.startUp nv else c, nv, fu)

/-- SOFTWARE_CHIP_RESET (Table 3-3): a write of go; another key is ignored. -/
def execSoftwareChipReset (src : Source) (key : Nat) (s : State) : Host.Outcome State Fault Refusal :=
  s.busNv src R.CHIP_RESET true fun nv fu c =>
    if key = 0x5AFE then c.chipReset nv fu false 2 else (c, nv, fu)

/-- A write reaches GLOBAL.CHIP_RESET with its key and go (Table 3-3). -/
def resetKey (addr : Nat) (data : Word) : Bool := addr == R.CHIP_RESET && bits data 31 16 == 0x5AFE && bit data 0

/-- REGISTER_WRITE (spec/00_scope.md R8): each field acts by its access code, a one-shot field as its own command does. -/
def execRegisterWrite (src : Source) (addr size : Nat) (data : Word) (s : State) : Host.Outcome State Fault Refusal :=
  s.busNv src addr true fun nv fu c =>
    if !(sizeOk addr size) then (c, nv, fu)
    else if resetKey addr data then c.chipReset nv fu false 2
    else ((c.writeSize nv src addr size data).irqSettle, nv, fu)

/-- REACTION_CHIP_RESET (spec/18_ledger_and_faults.md R395): due after the journal writes, unless those are stopped
(DESIGN CHOICE, notes/assumptions/27.md). -/
def execReactionChipReset (s : State) : Host.Outcome State Fault Refusal :=
  s.runNv .aon fun nv fu c =>
    if c.ledger.chipDue && (c.ledger.jrnQueue.isEmpty || c.on 0 R.SAG_STATUS_stopped) then
      c.chipReset nv fu false 3
    else (c, nv, fu)

/-- PERST_N_ASSERT (R56). -/
def execPerstNAssert (s : State) : Host.Outcome State Fault Refusal := s.run .always fun c => c.perstLow

/-- PERST_N_RELEASE (R56). -/
def execPerstNRelease (s : State) : Host.Outcome State Fault Refusal :=
  s.run .always fun c => { c with power := { c.power with perstHigh := true } }

end Sys2Proof.Machine
end

