-- ==== Sys2Proof/Machine/Pins.lean ====
section
/-! DEFINITION. Reference clocks and GPIO pins (spec/22_pins_and_electrical.md R466, spec/03_boot_and_strongroom.md R64,
spec/20_host_interface.md R445). -/

namespace Sys2Proof.Machine

open Sys2Proof

namespace Chip

/-- SerDes reference `j` serves port groups 4j to 4j + 3: lanes 32j to 32j + 31 (spec/01_architecture.md Table 1-11). -/
def refLanes (j : Nat) : List Nat := (List.range 32).map (32 * j + ·)

/-- A SerDes reference stops: its lanes lose signal and lock, and their links go down under R81 (DESIGN CHOICE, notes/assumptions/28.md). -/
def serdesLoss (c : Chip) (j : Nat) : Chip :=
  let c := c.each ((refLanes j).filter fun q => c.laneThere q && (c.portOfLane q).isSome) fun c q => c.laneSignal q false
  { c with power := { c.power with serdesRef := c.power.serdesRef &&& ~~~(BitVec.ofNat 4 (2 ^ j)) } }

end Chip

/-- BOOT_STATUS.stage goes from 0x1 to 0x2 and from 0x3 to 0x4 with the next tick: no row marks the end of the self-tests or of a slot's
copy (spec/03_boot_and_strongroom.md R64) (DESIGN CHOICE, notes/assumptions/29.md). -/
def Chip.tickStage (c : Chip) : Chip := if c.stage = 1 || c.stage = 3 then c.setStage (c.stage + 1) else c

/-- TIME_BASE_TICK (spec/15_time_bases.md R322): 8 ns of device time (DESIGN CHOICE, notes/assumptions/10.md). -/
def execTimeBaseTick (s : State) : Host.Outcome State Fault Refusal :=
  s.run .aon fun c => ((({ c with now := c.now + 8 }).each (List.range 8) Chip.tickTb).countAsleep.tickPorters).tickStage

/-- SERDES_REFERENCE_LOSS (R466). -/
def execSerdesReferenceLoss (j : Nat) (s : State) : Host.Outcome State Fault Refusal :=
  s.run .always fun c => if j < 4 then c.serdesLoss j else c

/-- SERDES_REFERENCE_RETURN (R466). -/
def execSerdesReferenceReturn (j : Nat) (s : State) : Host.Outcome State Fault Refusal :=
  s.run .always fun c =>
    if j < 4 then { c with power := { c.power with serdesRef := c.power.serdesRef ||| BitVec.ofNat 4 (2 ^ j) } } else c

/-- SYSTEM_REFERENCE_LOSS (R466): every PLL stops, and from now on the device's behaviour is undefined until SYS_RST_N is driven low
(DEDUCED, notes/assumptions/12.md). -/
def execSystemReferenceLoss (s : State) : Host.Outcome State Fault Refusal :=
  s.run .always fun c =>
    if c.power.vddAon && c.power.sysRstHigh then { c with power := { c.power with refLost := true, sysPll := false } } else c

/-- SYSTEM_PLL_LOCK (R64): register bus and global block readable, stage 0x1 unless the strongroom halted. -/
def execSystemPllLock (s : State) : Host.Outcome State Fault Refusal :=
  s.runNv .aon fun nv fu c =>
    (if c.power.released && !c.power.sysPll && !c.power.halted then
      let c := { c with power := { c.power with sysPll := true } }.put 0 R.BOOT_STATUS_debug_fused fu.debug
      if c.room.halted then c else c.setStage 1
     else c, nv, fu)

/-- GPIO_EDGE (R445): an input pin changes level, which sets its edge interrupt (DESIGN CHOICE, notes/assumptions/28.md). -/
def execGpioEdge (pin : Nat) (level : Bool) (s : State) : Host.Outcome State Fault Refusal :=
  s.run .core fun c =>
    if pin < 32 && !(c.host.gpioDir.getLsbD pin) && c.host.gpioLevel.getLsbD pin != level then
      let m : BitVec 32 := BitVec.ofNat 32 (2 ^ pin)
      { c with host := { c.host with
        gpioLevel := if level then c.host.gpioLevel ||| m else c.host.gpioLevel &&& ~~~m
        gpioEdge := c.host.gpioEdge ||| m } }
    else c

end Sys2Proof.Machine
end

