-- ==== Sys2Proof/Machine/Dispatch.lean ====
section
/-! DEFINITION. The dispatcher: one arm per command, each a direct call of its meaning. -/

namespace Sys2Proof.Machine

open Sys2Proof

def exec (i : Instr) (s : State) : Host.Outcome State Fault Refusal :=
  match i with
  | .registerWrite src addr size data => Sys2Proof.Machine.execRegisterWrite src addr size data s
  | .rcFieldRead src addr size => Sys2Proof.Machine.execRcFieldRead src addr size s
  | .suiteQuery src unit => Sys2Proof.Machine.execSuiteQuery src unit s
  | .unitResetRelease src unit => Sys2Proof.Machine.execUnitResetRelease src unit s
  | .unitResetHold src unit => Sys2Proof.Machine.execUnitResetHold src unit s
  | .unitReleaseHeld src unit => Sys2Proof.Machine.execUnitReleaseHeld src unit s
  | .unitResetComplete unit => Sys2Proof.Machine.execUnitResetComplete unit s
  | .unitHoldReached unit => Sys2Proof.Machine.execUnitHoldReached unit s
  | .applyGo src addr tag => Sys2Proof.Machine.execApplyGo src addr tag s
  | .applyRevert src addr => Sys2Proof.Machine.execApplyRevert src addr s
  | .applyTakeEffect addr => Sys2Proof.Machine.execApplyTakeEffect addr s
  | .applyTimeout addr => Sys2Proof.Machine.execApplyTimeout addr s
  | .powerOn => Sys2Proof.Machine.execPowerOn s
  | .powerLoss => Sys2Proof.Machine.execPowerLoss s
  | .pinChipReset => Sys2Proof.Machine.execPinChipReset s
  | .sysRstNRise => Sys2Proof.Machine.execSysRstNRise s
  | .internalRelease => Sys2Proof.Machine.execInternalRelease s
  | .softwareChipReset src key => Sys2Proof.Machine.execSoftwareChipReset src key s
  | .perstNAssert => Sys2Proof.Machine.execPerstNAssert s
  | .perstNRelease => Sys2Proof.Machine.execPerstNRelease s
  | .stack0TrainingComplete => Sys2Proof.Machine.execStack0TrainingComplete s
  | .slotCheckComplete read sigs => Sys2Proof.Machine.execSlotCheckComplete read sigs s
  | .imageHandover img => Sys2Proof.Machine.execImageHandover img s
  | .imageApplyComplete => Sys2Proof.Machine.execImageApplyComplete s
  | .fullTrainingComplete m failed => Sys2Proof.Machine.execFullTrainingComplete m failed s
  | .strongroomTamper => Sys2Proof.Machine.execStrongroomTamper s
  | .strongroomSelftest => Sys2Proof.Machine.execStrongroomSelftest s
  | .trngHealth => Sys2Proof.Machine.execTrngHealth s
  | .trngHealthRecover => Sys2Proof.Machine.execTrngHealthRecover s
  | .getInfo ch len seq => Sys2Proof.Machine.execGetInfo ch len seq s
  | .getRandom ch len seq => Sys2Proof.Machine.execGetRandom ch len seq s
  | .getBootReport ch len seq => Sys2Proof.Machine.execGetBootReport ch len seq s
  | .enrolCustomerKey ch len seq verdict blown => Sys2Proof.Machine.execEnrolCustomerKey ch len seq verdict blown s
  | .revokeCustomerKey ch len seq verdict blown => Sys2Proof.Machine.execRevokeCustomerKey ch len seq verdict blown s
  | .advanceEpoch ch len seq blown => Sys2Proof.Machine.execAdvanceEpoch ch len seq blown s
  | .debugChallenge ch len seq => Sys2Proof.Machine.execDebugChallenge ch len seq s
  | .debugResponse ch len seq verdict => Sys2Proof.Machine.execDebugResponse ch len seq verdict s
  | .setBootSlot ch len seq => Sys2Proof.Machine.execSetBootSlot ch len seq s
  | .bootFromHost ch len seq => Sys2Proof.Machine.execBootFromHost ch len seq s
  | .selfTest ch len seq pass => Sys2Proof.Machine.execSelfTest ch len seq pass s
  | .attest ch len seq => Sys2Proof.Machine.execAttest ch len seq s
  | .mailboxComplete ch => Sys2Proof.Machine.execMailboxComplete ch s
  | .controlFirmwareCheck pass => Sys2Proof.Machine.execControlFirmwareCheck pass s
  | .laneTxEqWrite src q data => Sys2Proof.Machine.execLaneTxEqWrite src q data s
  | .laneTestWrite src q prbs => Sys2Proof.Machine.execLaneTestWrite src q prbs s
  | .laneSignalChange q present => Sys2Proof.Machine.execLaneSignalChange q present s
  | .laneAdaptComplete q => Sys2Proof.Machine.execLaneAdaptComplete q s
  | .fecUncorrectableCodeword q => Sys2Proof.Machine.execFecUncorrectableCodeword q s
  | .fecDegradeWindow q corrected => Sys2Proof.Machine.execFecDegradeWindow q corrected s
  | .pcsStatusChange p aligned localFault remoteFault => Sys2Proof.Machine.execPcsStatusChange p aligned localFault remoteFault s
  | .linkDown p => Sys2Proof.Machine.execLinkDown p s
  | .linkUp p => Sys2Proof.Machine.execLinkUp p s
  | .holdExpiry p => Sys2Proof.Machine.execHoldExpiry p s
  | .rxFrameStart p head => Sys2Proof.Machine.execRxFrameStart p head s
  | .rxFrameEnd p rest good => Sys2Proof.Machine.execRxFrameEnd p rest good s
  | .pauseFrameReceived p bytes => Sys2Proof.Machine.execPauseFrameReceived p bytes s
  | .pauseExpiry p cls => Sys2Proof.Machine.execPauseExpiry p cls s
  | .xoffSend p => Sys2Proof.Machine.execXoffSend p s
  | .xonSend p => Sys2Proof.Machine.execXonSend p s
  | .xoffRefresh p cls => Sys2Proof.Machine.execXoffRefresh p cls s
  | .pfcStormDetect p cls => Sys2Proof.Machine.execPfcStormDetect p cls s
  | .pfcStormRecover p cls => Sys2Proof.Machine.execPfcStormRecover p cls s
  | .lpiEntry p => Sys2Proof.Machine.execLpiEntry p s
  | .lpiWakeComplete p => Sys2Proof.Machine.execLpiWakeComplete p s
  | .peerLpiChange p lpi => Sys2Proof.Machine.execPeerLpiChange p lpi s
  | .dispatch sl n th frame => Sys2Proof.Machine.execDispatch sl n th frame s
  | .microword sl n th => Sys2Proof.Machine.execMicroword sl n th s
  | .threadRelease sl n th => Sys2Proof.Machine.execThreadRelease sl n th s
  | .releaseToPipes sl => Sys2Proof.Machine.execReleaseToPipes sl s
  | .porterStall sl n => Sys2Proof.Machine.execPorterStall sl n s
  | .porterRetire src sl n => Sys2Proof.Machine.execPorterRetire src sl n s
  | .spareStoreCheckComplete sl n upsets => Sys2Proof.Machine.execSpareStoreCheckComplete sl n upsets s
  | .spareTakeover sl n => Sys2Proof.Machine.execSpareTakeover sl n s
  | .storeCheck src sl n => Sys2Proof.Machine.execStoreCheck src sl n s
  | .storeCheckComplete sl upsets => Sys2Proof.Machine.execStoreCheckComplete sl upsets s
  | .lookup sl frame upsets => Sys2Proof.Machine.execLookup sl frame upsets s
  | .tcamRepeatSearch sl frame => Sys2Proof.Machine.execTcamRepeatSearch sl frame s
  | .tcamRowRewrite sl => Sys2Proof.Machine.execTcamRowRewrite sl s
  | .lpmHeldProbe h => Sys2Proof.Machine.execLpmHeldProbe h s
  | .actionResolution sl frame => Sys2Proof.Machine.execActionResolution sl frame s
  | .learnRequest sl frame => Sys2Proof.Machine.execLearnRequest sl frame s
  | .learnInsert sl => Sys2Proof.Machine.execLearnInsert sl s
  | .learnMove sl => Sys2Proof.Machine.execLearnMove sl s
  | .agerVisit sl index => Sys2Proof.Machine.execAgerVisit sl index s
  | .emRead src sl => Sys2Proof.Machine.execEmRead src sl s
  | .emSearch src sl => Sys2Proof.Machine.execEmSearch src sl s
  | .emSearchPending src sl => Sys2Proof.Machine.execEmSearchPending src sl s
  | .emInsert src sl => Sys2Proof.Machine.execEmInsert src sl s
  | .emWriteIfSeq src sl => Sys2Proof.Machine.execEmWriteIfSeq src sl s
  | .emLearn src sl => Sys2Proof.Machine.execEmLearn src sl s
  | .emUnlearn src sl => Sys2Proof.Machine.execEmUnlearn src sl s
  | .emFlushPort src sl => Sys2Proof.Machine.execEmFlushPort src sl s
  | .emHoldFirst src sl => Sys2Proof.Machine.execEmHoldFirst src sl s
  | .overflowReturn sl index => Sys2Proof.Machine.execOverflowReturn sl index s
  | .bdRead src sl => Sys2Proof.Machine.execBdRead src sl s
  | .bdWrite src sl => Sys2Proof.Machine.execBdWrite src sl s
  | .lpmRead src h => Sys2Proof.Machine.execLpmRead src h s
  | .lpmSearch src h => Sys2Proof.Machine.execLpmSearch src h s
  | .lpmSearchPending src h => Sys2Proof.Machine.execLpmSearchPending src h s
  | .lpmInsert src h => Sys2Proof.Machine.execLpmInsert src h s
  | .lpmWriteIfSeq src h => Sys2Proof.Machine.execLpmWriteIfSeq src h s
  | .filterRead src h v6 => Sys2Proof.Machine.execFilterRead src h v6 s
  | .filterWrite src h v6 => Sys2Proof.Machine.execFilterWrite src h v6 s
  | .setRange src h v6 => Sys2Proof.Machine.execSetRange src h v6 s
  | .clearRange src h v6 => Sys2Proof.Machine.execClearRange src h v6 s
  | .readPart src sl => Sys2Proof.Machine.execReadPart src sl s
  | .loadPart src sl => Sys2Proof.Machine.execLoadPart src sl s
  | .tcamWriteIfSeq src sl => Sys2Proof.Machine.execTcamWriteIfSeq src sl s
  | .tcamSearch src sl => Sys2Proof.Machine.execTcamSearch src sl s
  | .tcamWriteSlot sl => Sys2Proof.Machine.execTcamWriteSlot sl s
  | .tcamScrubRead sl bank entry upset => Sys2Proof.Machine.execTcamScrubRead sl bank entry upset s
  | .windowCommandComplete base => Sys2Proof.Machine.execWindowCommandComplete base s
  | .accordOpen src data => Sys2Proof.Machine.execAccordOpen src data s
  | .accordCommit src => Sys2Proof.Machine.execAccordCommit src s
  | .commitTakeEffect => Sys2Proof.Machine.execCommitTakeEffect s
  | .accordWithdraw src => Sys2Proof.Machine.execAccordWithdraw src s
  | .accordDiscard src => Sys2Proof.Machine.execAccordDiscard src s
  | .discardComplete => Sys2Proof.Machine.execDiscardComplete s
  | .accordRetire slot => Sys2Proof.Machine.execAccordRetire slot s
  | .accordDrainSlow slot => Sys2Proof.Machine.execAccordDrainSlow slot s
  | .accordDrainWrite src data => Sys2Proof.Machine.execAccordDrainWrite src data s
  | .accordRetiredRead src => Sys2Proof.Machine.execAccordRetiredRead src s
  | .settlerVisit place => Sys2Proof.Machine.execSettlerVisit place s
  | .objectRead src base => Sys2Proof.Machine.execObjectRead src base s
  | .objectWrite src base => Sys2Proof.Machine.execObjectWrite src base s
  | .resetBuckets src sl => Sys2Proof.Machine.execResetBuckets src sl s
  | .groupHeadRead src sl => Sys2Proof.Machine.execGroupHeadRead src sl s
  | .groupHeadWriteIfSeq src sl => Sys2Proof.Machine.execGroupHeadWriteIfSeq src sl s
  | .cellSend sl k => Sys2Proof.Machine.execCellSend sl k s
  | .planeCellArrival k sl damaged => Sys2Proof.Machine.execPlaneCellArrival k sl damaged s
  | .planeCellForward k sl poisoned => Sys2Proof.Machine.execPlaneCellForward k sl poisoned s
  | .sliceCellArrival sl k damaged => Sys2Proof.Machine.execSliceCellArrival sl k damaged s
  | .linkAck k sl up seq => Sys2Proof.Machine.execLinkAck k sl up seq s
  | .resendRequest k sl up seq => Sys2Proof.Machine.execResendRequest k sl up seq s
  | .fabricCrcWindow k sl up => Sys2Proof.Machine.execFabricCrcWindow k sl up s
  | .linkLossOfLock k sl up => Sys2Proof.Machine.execLinkLossOfLock k sl up s
  | .planePllLoss k => Sys2Proof.Machine.execPlanePllLoss k s
  | .barrierReceived sl src k => Sys2Proof.Machine.execBarrierReceived sl src k s
  | .barrierWaitExpiry sl src => Sys2Proof.Machine.execBarrierWaitExpiry sl src s
  | .planeRetire src k => Sys2Proof.Machine.execPlaneRetire src k s
  | .planeRestore src k => Sys2Proof.Machine.execPlaneRestore src k s
  | .planeDrainComplete k => Sys2Proof.Machine.execPlaneDrainComplete k s
  | .coachHeadEnqueue p => Sys2Proof.Machine.execCoachHeadEnqueue p s
  | .coachTimeout p => Sys2Proof.Machine.execCoachTimeout p s
  | .cellAlloc h req listError => Sys2Proof.Machine.execCellAlloc h req listError s
  | .cellShare h req addr n => Sys2Proof.Machine.execCellShare h req addr n s
  | .cellHandover h req addr dest => Sys2Proof.Machine.execCellHandover h req addr dest s
  | .cellFree h req addr => Sys2Proof.Machine.execCellFree h req addr s
  | .cellRead src h => Sys2Proof.Machine.execCellRead src h s
  | .reclaim src h => Sys2Proof.Machine.execReclaim src h s
  | .bpmPortErr h req => Sys2Proof.Machine.execBpmPortErr h req s
  | .requesterReclaimComplete h req => Sys2Proof.Machine.execRequesterReclaimComplete h req s
  | .recoveryEnd h req => Sys2Proof.Machine.execRecoveryEnd h req s
  | .freeListRebuild h => Sys2Proof.Machine.execFreeListRebuild h s
  | .spillBundleWrite h queue => Sys2Proof.Machine.execSpillBundleWrite h queue s
  | .spillBundleTimer h queue => Sys2Proof.Machine.execSpillBundleTimer h queue s
  | .spillWriteComplete h bundle => Sys2Proof.Machine.execSpillWriteComplete h bundle s
  | .spillFetch h queue => Sys2Proof.Machine.execSpillFetch h queue s
  | .bundleReadComplete h bundle poisoned => Sys2Proof.Machine.execBundleReadComplete h bundle poisoned s
  | .schedulingDecision p => Sys2Proof.Machine.execSchedulingDecision p s
  | .shaperConform sl node => Sys2Proof.Machine.execShaperConform sl node s
  | .txFrameEnd p => Sys2Proof.Machine.execTxFrameEnd p s
  | .txUnderrun p => Sys2Proof.Machine.execTxUnderrun p s
  | .schedRecordRead src base => Sys2Proof.Machine.execSchedRecordRead src base s
  | .schedRecordWrite src base => Sys2Proof.Machine.execSchedRecordWrite src base s
  | .queueStatusRead src sl => Sys2Proof.Machine.execQueueStatusRead src sl s
  | .gateEdge p => Sys2Proof.Machine.execGateEdge p s
  | .gateBaseTime p => Sys2Proof.Machine.execGateBaseTime p s
  | .gclWrite src addr data => Sys2Proof.Machine.execGclWrite src addr data s
  | .gateSwapArm src p => Sys2Proof.Machine.execGateSwapArm src p s
  | .gateSwapCancel src p => Sys2Proof.Machine.execGateSwapCancel src p s
  | .gateSwap p => Sys2Proof.Machine.execGateSwap p s
  | .timeBaseTick => Sys2Proof.Machine.execTimeBaseTick s
  | .tbNowRead src t => Sys2Proof.Machine.execTbNowRead src t s
  | .tbPpsRead src t => Sys2Proof.Machine.execTbPpsRead src t s
  | .tbHoldover t => Sys2Proof.Machine.execTbHoldover t s
  | .tbRefLoss => Sys2Proof.Machine.execTbRefLoss s
  | .tbRefSelect src sel => Sys2Proof.Machine.execTbRefSelect src sel s
  | .tbPllLock => Sys2Proof.Machine.execTbPllLock s
  | .ppsInEdge => Sys2Proof.Machine.execPpsInEdge s
  | .ppsOutPulse output => Sys2Proof.Machine.execPpsOutPulse output s
  | .ppsOutPulseEnd output => Sys2Proof.Machine.execPpsOutPulseEnd output s
  | .hbmRequest m pc req addr write beats data => Sys2Proof.Machine.execHbmRequest m pc req addr write beats data s
  | .hbmArbDecision m pc => Sys2Proof.Machine.execHbmArbDecision m pc s
  | .hbmTransferComplete m pc errors => Sys2Proof.Machine.execHbmTransferComplete m pc errors s
  | .hbmArbStarve m pc req => Sys2Proof.Machine.execHbmArbStarve m pc req s
  | .refreshOwedTick m => Sys2Proof.Machine.execRefreshOwedTick m s
  | .perBankRefresh m pc bank => Sys2Proof.Machine.execPerBankRefresh m pc bank s
  | .refreshEmergency m pc bank => Sys2Proof.Machine.execRefreshEmergency m pc bank s
  | .hbmTempRead m temp => Sys2Proof.Machine.execHbmTempRead m temp s
  | .rowHammerThrottleEnd m pc req => Sys2Proof.Machine.execRowHammerThrottleEnd m pc req s
  | .rowHammerWindow m => Sys2Proof.Machine.execRowHammerWindow m s
  | .hbmTrain src m data => Sys2Proof.Machine.execHbmTrain src m data s
  | .trainingStepComplete m pc pass => Sys2Proof.Machine.execTrainingStepComplete m pc pass s
  | .hbmFreq src m data => Sys2Proof.Machine.execHbmFreq src m data s
  | .freqChangeStart m => Sys2Proof.Machine.execFreqChangeStart m s
  | .freqChangeComplete m => Sys2Proof.Machine.execFreqChangeComplete m s
  | .selfRefreshEnter src m => Sys2Proof.Machine.execSelfRefreshEnter src m s
  | .selfRefreshExit src m => Sys2Proof.Machine.execSelfRefreshExit src m s
  | .selfRefreshEntryComplete m => Sys2Proof.Machine.execSelfRefreshEntryComplete m s
  | .selfRefreshExitComplete m => Sys2Proof.Machine.execSelfRefreshExitComplete m s
  | .selfRefreshIdle m => Sys2Proof.Machine.execSelfRefreshIdle m s
  | .hbmRetire src m pc => Sys2Proof.Machine.execHbmRetire src m pc s
  | .hbmRetireClear src m pc => Sys2Proof.Machine.execHbmRetireClear src m pc s
  | .relocationCopyComplete m => Sys2Proof.Machine.execRelocationCopyComplete m s
  | .hbmPllLoss m => Sys2Proof.Machine.execHbmPllLoss m s
  | .memFill src data => Sys2Proof.Machine.execMemFill src data s
  | .fillComplete u => Sys2Proof.Machine.execFillComplete u s
  | .scrubRead u ecc byte bitpos => Sys2Proof.Machine.execScrubRead u ecc byte bitpos s
  | .memRemap src data => Sys2Proof.Machine.execMemRemap src data s
  | .remapComplete u => Sys2Proof.Machine.execRemapComplete u s
  | .memRemapClear src data => Sys2Proof.Machine.execMemRemapClear src data s
  | .fifoSwap f => Sys2Proof.Machine.execFifoSwap f s
  | .fifoFlush src f => Sys2Proof.Machine.execFifoFlush src f s
  | .fifoFlushEffect f partway => Sys2Proof.Machine.execFifoFlushEffect f partway s
  | .ledgerMessageArrival count => Sys2Proof.Machine.execLedgerMessageArrival count s
  | .ledgerRecordWrite => Sys2Proof.Machine.execLedgerRecordWrite s
  | .ledgerRecordsLost => Sys2Proof.Machine.execLedgerRecordsLost s
  | .conditionCleared source kind => Sys2Proof.Machine.execConditionCleared source kind s
  | .reactionBlockReset => Sys2Proof.Machine.execReactionBlockReset s
  | .reactionChipReset => Sys2Proof.Machine.execReactionChipReset s
  | .journalWrite => Sys2Proof.Machine.execJournalWrite s
  | .errnRelease src => Sys2Proof.Machine.execErrnRelease src s
  | .injectionArm src data => Sys2Proof.Machine.execInjectionArm src data s
  | .injectionDisarm src => Sys2Proof.Machine.execInjectionDisarm src s
  | .latchkeyTake src key => Sys2Proof.Machine.execLatchkeyTake src key s
  | .latchkeyRelease src key => Sys2Proof.Machine.execLatchkeyRelease src key s
  | .latchkeySuspectClear src key => Sys2Proof.Machine.execLatchkeySuspectClear src key s
  | .latchkeyBreak src data => Sys2Proof.Machine.execLatchkeyBreak src data s
  | .sleepEntry sl => Sys2Proof.Machine.execSleepEntry sl s
  | .sleepEntryComplete sl => Sys2Proof.Machine.execSleepEntryComplete sl s
  | .sliceWake sl => Sys2Proof.Machine.execSliceWake sl s
  | .wakeCmd src mask => Sys2Proof.Machine.execWakeCmd src mask s
  | .wakeComplete sl => Sys2Proof.Machine.execWakeComplete sl s
  | .pllPrimaryTimeout sl => Sys2Proof.Machine.execPllPrimaryTimeout sl s
  | .wakeBackupTimeout sl => Sys2Proof.Machine.execWakeBackupTimeout sl s
  | .nightWindowStart => Sys2Proof.Machine.execNightWindowStart s
  | .nightSelfRefreshEntry m => Sys2Proof.Machine.execNightSelfRefreshEntry m s
  | .selfRefreshRetry m => Sys2Proof.Machine.execSelfRefreshRetry m s
  | .nightWindowEnd => Sys2Proof.Machine.execNightWindowEnd s
  | .avsStep => Sys2Proof.Machine.execAvsStep s
  | .avsVerify readback => Sys2Proof.Machine.execAvsVerify readback s
  | .ageingMonitorRead values => Sys2Proof.Machine.execAgeingMonitorRead values s
  | .replan => Sys2Proof.Machine.execReplan s
  | .replanItem item => Sys2Proof.Machine.execReplanItem item s
  | .thermalSample temps => Sys2Proof.Machine.execThermalSample temps s
  | .supplySag rail => Sys2Proof.Machine.execSupplySag rail s
  | .keepsakeWritesResume => Sys2Proof.Machine.execKeepsakeWritesResume s
  | .keepsakeRead src => Sys2Proof.Machine.execKeepsakeRead src s
  | .keepsakeWrite src => Sys2Proof.Machine.execKeepsakeWrite src s
  | .keepsakeLineWrite => Sys2Proof.Machine.execKeepsakeLineWrite s
  | .bar0MalformedAccess src addr size write => Sys2Proof.Machine.execBar0MalformedAccess src addr size write s
  | .vfAccessDenied n addr write => Sys2Proof.Machine.execVfAccessDenied n addr write s
  | .pcieLinkDown => Sys2Proof.Machine.execPcieLinkDown s
  | .pcieLinkUp => Sys2Proof.Machine.execPcieLinkUp s
  | .vfFlr n => Sys2Proof.Machine.execVfFlr n s
  | .irqLineRise g => Sys2Proof.Machine.execIrqLineRise g s
  | .irqRearm src data => Sys2Proof.Machine.execIrqRearm src data s
  | .ringEnable src r enable => Sys2Proof.Machine.execRingEnable src r enable s
  | .ringPiWrite src r pi => Sys2Proof.Machine.execRingPiWrite src r pi s
  | .ringCiWrite src r ci => Sys2Proof.Machine.execRingCiWrite src r ci s
  | .ringIrqModeration r => Sys2Proof.Machine.execRingIrqModeration r s
  | .puntWrite sl descs => Sys2Proof.Machine.execPuntWrite sl descs s
  | .injectDescriptorFetch r desc => Sys2Proof.Machine.execInjectDescriptorFetch r desc s
  | .injectFrameRead r bytes => Sys2Proof.Machine.execInjectFrameRead r bytes s
  | .eventRecordWrite f ecc => Sys2Proof.Machine.execEventRecordWrite f ecc s
  | .coreRelease src core => Sys2Proof.Machine.execCoreRelease src core s
  | .coreHold src core => Sys2Proof.Machine.execCoreHold src core s
  | .coreBusError core addr write => Sys2Proof.Machine.execCoreBusError core addr write s
  | .watchdogKick src core => Sys2Proof.Machine.execWatchdogKick src core s
  | .watchdogExpiry core => Sys2Proof.Machine.execWatchdogExpiry core s
  | .mgmtFrameReceive mac bytes good => Sys2Proof.Machine.execMgmtFrameReceive mac bytes good s
  | .mgmtFrameSend mac => Sys2Proof.Machine.execMgmtFrameSend mac s
  | .sweepTrigger src list => Sys2Proof.Machine.execSweepTrigger src list s
  | .sweepPeriodTimer list => Sys2Proof.Machine.execSweepPeriodTimer list s
  | .sweepSecond => Sys2Proof.Machine.execSweepSecond s
  | .sweepStart => Sys2Proof.Machine.execSweepStart s
  | .sweepComplete => Sys2Proof.Machine.execSweepComplete s
  | .serdesReferenceLoss j => Sys2Proof.Machine.execSerdesReferenceLoss j s
  | .systemReferenceLoss => Sys2Proof.Machine.execSystemReferenceLoss s
  | .systemPllLock => Sys2Proof.Machine.execSystemPllLock s
  | .planeLinkLock k sl => Sys2Proof.Machine.execPlaneLinkLock k sl s
  | .serdesReferenceReturn j => Sys2Proof.Machine.execSerdesReferenceReturn j s
  | .gpioEdge pin level => Sys2Proof.Machine.execGpioEdge pin level s

end Sys2Proof.Machine
end

