-- ==== Sys2Proof/Machine/Step.lean ====
section
/-! DEFINITION. The step: the command at the front of the queue runs. -/

namespace Sys2Proof.Machine

open Sys2Proof

/-- Put a command at the front of the queue (DESIGN CHOICE, notes/assumptions/9.md). -/
def State.push (s : State) (c : Instr) : State := { s with pending := c :: s.pending }

/-- Take the command at the front of the queue and run it on the state with the queue's rest; on an empty queue the block idles
(DESIGN CHOICE, notes/assumptions/1.md). -/
def step (s : State) : Host.Outcome State Fault Refusal :=
  match s.pending with
  | [] => .next s
  | c :: rest => exec c { s with pending := rest }

/-- `s` with the command that a table word spells at the front of its queue (DESIGN CHOICE, notes/assumptions/9.md). -/
def State.withFetchWord (s : State) (nbits w : Nat) : State :=
  match decodeTableWord nbits w with
  | some c => s.push c
  | none => s

end Sys2Proof.Machine
end

