-- ==== Sys2Proof/Safety.lean ====
section
/-! DEFINITION. What counts as a safe run, and the terms that statements use: when a command's part of the device runs, when the bus
serves an access, what a command does, and what it leaves. -/

namespace Sys2Proof.Machine

open Sys2Proof

/-- A step goes on: neither fault nor refusal. -/
def Goes (o : Host.Outcome State Fault Refusal) : Bool :=
  match o with
  | .next _ => true
  | _ => false

/-- The command runs to a next state, and `P` holds of that state. -/
def Does (c : Instr) (s : State) (P : State → Prop) : Prop := ∃ t, exec c s = .next t ∧ P t

/-- Every register and counter but the listed ones reads as before. -/
def RegsKept (s t : State) (l : List Nat) : Prop := ∀ a, a ∉ l → t.chip.reg a = s.chip.reg a

/-- The device without its registers, its last outputs and the data of the last read. -/
def Chip.bare (c : Chip) : Chip := { c with regs := [], out := [], busData := 0 }

/-- The device without those and without the ledger's side (messages, conditions, latchkeys). -/
def Chip.bareLedger (c : Chip) : Chip := { c with regs := [], out := [], busData := 0, ledger := default }

/-- Nothing changes but the listed registers and counters, what is sent out, and the data that a read returned. -/
def OnlyRegs (s t : State) (l : List Nat) : Prop :=
  RegsKept s t l ∧ t.chip.bare = s.chip.bare ∧ t.nv = s.nv ∧ t.fuses = s.fuses ∧ t.pending = s.pending

/-- Nothing changes but those and the ledger's side: messages, ends of conditions, latchkeys. -/
def OnlyLedger (s t : State) (l : List Nat) : Prop :=
  RegsKept s t l ∧ t.chip.bareLedger = s.chip.bareLedger ∧ t.nv = s.nv ∧ t.fuses = s.fuses ∧ t.pending = s.pending

/-- A part of the device other than its registers. -/
inductive Part where
  | now | fresh | staged | since | applies | power | rst | image | room | ledger | fifos | tbs | pps | accord | house | mem | host | sweep | wins | em
  | lpm | tcam | store | porters | fronts | ports | nextId | frames | tails | streams | arrivals | copies | links | fecAlarm | planes | barriersDue | awaited | heldCells
  | heldSince | objects | records | scheds | innkeepers | hbms
deriving DecidableEq, Repr

/-- The device with a part taken out. -/
def Chip.drop (c : Chip) : Part → Chip
  | .now => { c with now := 0 }
  | .fresh => { c with fresh := 0 }
  | .staged => { c with staged := [] }
  | .since => { c with since := [] }
  | .applies => { c with applies := [] }
  | .power => { c with power := default }
  | .rst => { c with rst := default }
  | .image => { c with image := default }
  | .room => { c with room := default }
  | .ledger => { c with ledger := default }
  | .fifos => { c with fifos := [] }
  | .tbs => { c with tbs := [] }
  | .pps => { c with pps := [] }
  | .accord => { c with accord := default }
  | .house => { c with house := default }
  | .mem => { c with mem := [] }
  | .host => { c with host := default }
  | .sweep => { c with sweep := default }
  | .wins => { c with wins := [] }
  | .em => { c with em := [] }
  | .lpm => { c with lpm := [] }
  | .tcam => { c with tcam := [] }
  | .store => { c with store := [] }
  | .porters => { c with porters := [] }
  | .fronts => { c with fronts := [] }
  | .ports => { c with ports := [] }
  | .nextId => { c with nextId := 0 }
  | .frames => { c with frames := [] }
  | .tails => { c with tails := [] }
  | .streams => { c with streams := [] }
  | .arrivals => { c with arrivals := [] }
  | .copies => { c with copies := [] }
  | .links => { c with links := [] }
  | .fecAlarm => { c with fecAlarm := [] }
  | .planes => { c with planes := [] }
  | .barriersDue => { c with barriersDue := [] }
  | .awaited => { c with awaited := [] }
  | .heldCells => { c with heldCells := [] }
  | .heldSince => { c with heldSince := [] }
  | .objects => { c with objects := [] }
  | .records => { c with records := [] }
  | .scheds => { c with scheds := [] }
  | .innkeepers => { c with innkeepers := [] }
  | .hbms => { c with hbms := [] }

/-- What is left of the device beside registers, outputs, read data, and some parts. -/
def Chip.rest (c : Chip) (l : List Part) : Chip := l.foldl Chip.drop c.bare

/-- Nothing on the device changes but the listed registers and counters, the listed parts, what is sent out and read data; the queue
stays. -/
def OnlyDev (s t : State) (l : List Nat) (ps : List Part) : Prop :=
  RegsKept s t l ∧ t.chip.rest ps = s.chip.rest ps ∧ t.pending = s.pending

/-- Nothing changes but those. -/
def OnlyParts (s t : State) (l : List Nat) (ps : List Part) : Prop := OnlyDev s t l ps ∧ t.nv = s.nv ∧ t.fuses = s.fuses

/-! ### Registers and parts that several commands keep up to date -/

/-- What a planted error uses up (spec/18_ledger_and_faults.md R400). -/
def injRegs : List Nat := [R.LEDGER_INJ_CTRL, C.injections]

/-- Registers of FIFO `f` that an item stored or lost can change. -/
def Chip.fifoRegs (c : Chip) (f : Nat) : List Nat := [fifoBase f + 4, c.fifoTop f + 4, c.fifoTop f + 0x50] ++ injRegs

/-- Occupancy and event registers that follow the exact-match table of slice `g`. -/
def Chip.emRegs (c : Chip) (g : Nat) : List Nat :=
  [A.slice (c.emHome g) + R.EM_OCC, A.slice (c.emHome g) + R.EM_OVF, A.slice (c.emHome g) + R.EM_EVENT]

/-- What a write of an entry at a place changes beside the tables: occupancy in every member of the suite. -/
def Chip.placeRegs (c : Chip) (p : SettlePlace) : List Nat :=
  match p with
  | .em g _ => (c.sliceMates g).flatMap c.emRegs
  | _ => []

/-- The tables of Table 7-1, and what protects their words. -/
def tableParts : List Part := [.em, .lpm, .tcam, .objects, .mem, .fresh, .ledger]

/-- LEDGER_FIRST. -/
def firstRegs : List Nat := (List.range 4).map fun w => R.LEDGER_FIRST + 4 * w

/-- The registers of the indirect window at `base`. -/
def winRegs (base : Nat) : List Nat := [base, base + 4, base + 8] ++ (List.range 8).map fun i => base + 0x10 + 4 * i

/-- The registers of memory group `u` that an error met in it changes. -/
def errRegs (u : Nat) : List Nat := [A.group u + R.MEM_EVENT, A.group u + C.ce_bytes, A.group u + C.ue_reads, A.group u + C.log_lost]

/-- A write of the register at `a` has no effect beyond the access codes of its fields: it is no register to which a chapter gives an
effect of its own, no APPLY register, and stands in no window of a time base, of an indirect command or of a mailbox. -/
def codeOnly (a : Nat) : Bool :=
  decide (a < 0x18000000) && (winAt a).isNone && ((domainOf a).all fun d => a != d.1 + d.2 - 8) &&
  if a < 0x01000000 then
    !([R.SUITE_QUERY, R.UNIT_RESET, R.CHIP_RESET, R.ACCORD_CMD, R.ACCORD_DRAIN, R.LATCHKEY_BREAK, R.WAKE_CMD, R.SWEEP_CMD, R.IRQ_REARM,
      R.CC_CTRL].contains a) &&
    !([(0x4100, 0x4200), (0x5004, 0x5100), (0x6000, 0x6F04), (0x40000, 0x40820), (0xA0010, 0xA0020), (0x100000, 0x140000)].any fun x =>
      decide (x.1 ≤ a) && decide (a < x.2))
  else if 0x08000000 ≤ a && a < 0x10000000 then
    let o := a % 0x01000000
    !(decide (0x300000 ≤ o) && decide (o < 0x304000) && (o % 0x400 == R.LANE_TX_EQ || o % 0x400 == R.LANE_TEST)) &&
    !(decide (0x100000 ≤ o) && decide (o < 0x140000) &&
      ((Chip.gclList (o % 0x4000)).isSome || Chip.gclSwapReg (o % 0x4000) || o % 0x4000 == R.GATE_SWAP)) &&
    !([0x440140, 0x4A0040, 0x4A0100, R.PORTER_RETIRE, R.STORE_CHECK].contains o)
  else
    !(decide (0x14000000 ≤ a) && decide (a < 0x14400000) && a % 0x100000 == R.PLANE_CMD) &&
    !(decide (0x15000000 ≤ a) && [R.HBM_TRAIN, R.HBM_FREQ, R.HBM_PWR, R.HBM_RETIRE].contains (a % 0x400000))

/-- What the access codes make of a register that holds `old`, when `v` is written to the bits in `mask` (spec/00_scope.md Table 0-5). -/
def coded (r : RegRow) (old v mask : Word) : Word :=
  merge old v (BitVec.ofNat 64 r.rw &&& mask) &&& ~~~(v &&& mask &&& BitVec.ofNat 64 r.w1c)

/-- A read of the four bytes at `a` has an effect beside the value that it returns (spec/00_scope.md R10). -/
def readEffect (a : Nat) : Bool :=
  a == R.ACCORD_RETIRED || (decide (0x4000 ≤ a) && decide (a < 0x4100)) ||
  (decide (0x40000 ≤ a) && decide (a < 0x40800) && [R.TB_NOW_NS, R.TB_PPS_NS, R.TB_PPS_NS + 4].contains (a % 0x100))

/-- A message as a checker of a unit sends it now. -/
def Chip.msgOf (c : Chip) (unit kind sev : Nat) (addr : Nat := 0) : Msg :=
  { source := c.suiteUnit unit, kind, sev, pos := c.suitePos unit, addr }

/-- The ledger with those messages on their way. -/
def Chip.sent (c : Chip) (l : List Msg) : Ledger := { c.ledger with transit := c.ledger.transit ++ l }

/-- A go of `src` at the window at `base` is served, finds the window free and its owner out of reset. -/
def State.mayGo (s : State) (src : Source) (base : Nat) : Bool :=
  s.serves src (base + 4) true && !(s.chip.winBusy base) && !(s.chip.inReset (winOwner base))

/-- The command `op` of the window at `base` is in hand, and completes with `r`. -/
abbrev WinDone (t : State) (base op : Nat) (r : WinRes) : Prop :=
  t.chip.wins.look base = some r ∧ t.chip.get (base + 8) R.WIN_STATUS_busy = 1 ∧ t.chip.get (base + 4) R.WIN_CMD_op = op

/-- The keepsake store is in form: its tables list nothing twice and nothing that an unlisted place reads as, the journal pointer names
one of 65,536 records, and of each region fewer than 100 writes are counted and the gap stands at one of its 4,097 lines. -/
def Nv.ok (nv : Nv) : Prop :=
  nv.mem.wf = true ∧ Tbl.wf (fun _ => (0 : BitVec 128)) nv.journal = true ∧ Tbl.wf (fun _ => false) nv.written = true ∧ nv.jrnPtr < 65536 ∧
  (∀ g, nv.writes.look g < 100) ∧ ∀ g, nv.gap.look g < 4097

/-- The command is a chip reset, or may be one: SYS_RST_N, the ledger's reaction, software's command, a register write that reaches
GLOBAL.CHIP_RESET with its key. -/
def IsChipReset (c : Instr) : Prop :=
  c = .pinChipReset ∨ c = .reactionChipReset ∨ (∃ src key, c = .softwareChipReset src key) ∨
    ∃ src addr size data, c = .registerWrite src addr size data ∧ resetKey addr data = true

/-- Every bit that is 1 in `a` is 1 in `b`. -/
def BitsRise {w : Nat} (a b : BitVec w) : Prop := ∀ i, a.getLsbD i = true → b.getLsbD i = true

end Sys2Proof.Machine
end

