-- ==== Sys2Proof/Certificates/Slice0/Obligations.lean ====
section
/-! DEFINITION. The statements for the provers: one obligation for the commands of a kind, one clause for each case of a command. -/

open Sys2Proof Sys2Proof.Machine

/-- For every command c and state s, step of s with c at the front of its queue is exec of c on s with the queue's rest; on an empty queue a step changes nothing, which is the model's choice (log entry 1).
The second clause is the model's own choice (DESIGN CHOICE, notes/assumptions/1.md). -/
def Obligations.StepRunsTheFrontCommand : Prop :=
  (∀ (c : Instr) (s : State), step { s with pending := c :: s.pending } = exec c s) ∧
  (∀ s : State, s.pending = [] → step s = .next s)

/-- For every command and state, exec leaves the queue of waiting commands as it was. -/
def Obligations.CommandsKeepTheQueue : Prop :=
  ∀ (c : Instr) (s t : State), exec c s = .next t → t.pending = s.pending

/-- While the 25 MHz reference has not stopped, every command answers a next state. After it stopped, every command ends in the fault behaviourUndefined but the power supply, SYS_RST_N, PERST_N and reference pins, which still complete; a chip reset by SYS_RST_N ends the undefined behaviour. -/
def Obligations.OnlyALostReferenceStops : Prop :=
  (∀ (c : Instr) (s : State), s.chip.power.refLost = false → ∃ t, exec c s = .next t) ∧
  (∀ (c : Instr) (s : State), s.chip.power.refLost = true →
    exec c s = .fault .behaviourUndefined ∨ c = .powerOn ∨ c = .powerLoss ∨ c = .pinChipReset ∨ c = .sysRstNRise ∨ c = .perstNAssert ∨
      c = .perstNRelease ∨ c = .systemReferenceLoss ∨ (∃ j, c = .serdesReferenceLoss j) ∨ ∃ j, c = .serdesReferenceReturn j) ∧
  (∀ s : State, Goes (exec .powerOn s) = true ∧ Goes (exec .powerLoss s) = true ∧ Goes (exec .pinChipReset s) = true ∧
    Goes (exec .sysRstNRise s) = true ∧ Goes (exec .perstNAssert s) = true ∧ Goes (exec .perstNRelease s) = true ∧
    Goes (exec .systemReferenceLoss s) = true ∧ ∀ j, Goes (exec (.serdesReferenceLoss j) s) = true ∧ Goes (exec (.serdesReferenceReturn j) s) = true) ∧
  (∀ s t : State, exec .pinChipReset s = .next t → s.chip.power.vddAon = true → s.chip.power.sysRstHigh = true → t.chip.power.refLost = false)

/-- At reset every register reads its reset value and every counter 0, every latchkey is free, the HBM and image registers read the values of their tables, nothing is released, no image is applied, no frame is in the device and no command waits. The keepsake store is in form; that it is empty and the fuses are unblown is the model's choice (log entry 5).
That the keepsake store is empty and no fuse is blown is the model's own choice (DESIGN CHOICE, notes/assumptions/5.md). -/
def Obligations.ResetState : Prop :=
  (∀ a, State.reset.chip.reg a = regReset a) ∧
  (∀ a r, regRow a = some r → r.counter = true → State.reset.chip.reg a = 0) ∧
  (∀ k, (State.reset.chip.latch k).owner = 0 ∧ (State.reset.chip.latch k).suspect = false) ∧
  State.reset.chip.get (A.hbm 0 + 12) R.HBM_PRIO_priority = 10 ∧ State.reset.chip.get (A.hbm 1) R.HBM_LIMITS_starve_us = 100 ∧
  State.reset.chip.get (A.hbm 0) R.HBM_CTRL_sr_wake = 1 ∧ State.reset.chip.get 0 R.IMAGE_STATUS_state = 0 ∧
  State.reset.chip.power.sysRstHigh = false ∧ State.reset.chip.power.released = false ∧ State.reset.chip.image.applied = false ∧
  State.reset.chip.frames = [] ∧ State.reset.chip.out = [] ∧ State.reset.pending = [] ∧ State.reset.nv.ok

/-- If the keepsake store is in form (its byte store, journal and written marks canonical, the journal pointer below 65,536, fewer than 100 writes counted and a gap below 4,097 in every region) and a step answers a next state, it is in form there too. -/
def Obligations.KeepsakeStoreStaysInForm : Prop :=
  ∀ s t : State, s.nv.ok → step s = .next t → t.nv.ok

/-- Every step leaves the fuses that no command blows; enrolled, revoked and partly-blown bits and the anti-rollback count only rise; the hash of an enrolled slot stays; and a slot whose hash bits were partly blown keeps its enrolled bit as it is. -/
def Obligations.FusesOnlyRise : Prop :=
  ∀ s t : State, step s = .next t →
    t.fuses.vendorHash = s.fuses.vendorHash ∧ t.fuses.vendorRevoked = s.fuses.vendorRevoked ∧ t.fuses.debug = s.fuses.debug ∧
    t.fuses.imageKey = s.fuses.imageKey ∧ t.fuses.seed = s.fuses.seed ∧ t.fuses.uniqueId = s.fuses.uniqueId ∧ t.fuses.grade = s.fuses.grade ∧
    BitsRise s.fuses.customerRevoked t.fuses.customerRevoked ∧ BitsRise s.fuses.enrolled t.fuses.enrolled ∧
    BitsRise s.fuses.partly t.fuses.partly ∧ s.fuses.rollback ≤ t.fuses.rollback ∧
    (∀ i, i < 4 → s.fuses.enrolled.getLsbD i = true → t.fuses.customerHash.getD i 0 = s.fuses.customerHash.getD i 0) ∧
    ∀ i, i < 4 → s.fuses.partly.getLsbD i = true → t.fuses.enrolled.getLsbD i = s.fuses.enrolled.getLsbD i

/-- The keepsake store is changed by no command but JOURNAL_WRITE, KEEPSAKE_LINE_WRITE, FILL_COMPLETE and a chip reset (by SYS_RST_N, by the ledger, by software's CHIP_RESET or a write of that register), which completes a window's line write in progress; the fuses by no command but MAILBOX_COMPLETE, and a chip reset or a power loss that cuts a fuse command off. -/
def Obligations.OnlyTheseWriteWhatLasts : Prop :=
  ∀ (c : Instr) (s t : State), exec c s = .next t →
    (t.nv = s.nv ∨ c = .journalWrite ∨ c = .keepsakeLineWrite ∨ (∃ u, c = .fillComplete u) ∨ IsChipReset c) ∧
    (t.fuses = s.fuses ∨ IsChipReset c ∨ c = .powerLoss ∨ ∃ ch, c = .mailboxComplete ch)

/-- ACCORD_OPEN while an image is applied, the engine idle and not suspect, by the holder of the latchkey it names, makes the number after
the newest pending, binds the latchkey and reads state open with result 0; before the image is applied, while another accord is pending,
while suspect, or from a writer that does not hold the latchkey it is refused with 0x04, 0x02, 0x06 or 0x03 and the state stays.
ACCORD_COMMIT by the holder while open goes to committing with a free slot; with every slot live it goes to stalled, sets commit_stalled
and counts the stall; from another writer it is refused with 0x03, and in idle or discarding with 0x05, while committing or stalled with
0x04. ACCORD_DISCARD by the holder while open or stalled begins the discard with outcome 0x09; from another writer it is refused with
0x03. ACCORD_WITHDRAW by the holder while stalled returns to open with the log intact; in another state it is refused with 0x04, while
stalled from another writer with 0x03. Beside the registers named nothing changes. -/
def Obligations.AccordOpenAndCommit : Prop :=
  -- 1: accordOpen
  (∀ (s : State) (src : Source) (data : Word),
    s.serves src R.ACCORD_CMD true = true →
    s.chip.image.applied = true →
    s.chip.get 0 R.ACCORD_STATUS_state = 0 →
    s.chip.get 0 R.ACCORD_STATUS_suspect = 0 →
    (s.chip.latch (bits data 5 0)).owner = srcUnit src →
    (s.chip.latch (bits data 5 0)).fn = srcFn src →
    Does (.accordOpen src data) s fun t =>
      t.chip.get 0 R.ACCORD_STATUS_state = 1 ∧ t.chip.get 0 R.ACCORD_STATUS_result = 0 ∧
      t.chip.get 0 R.ACCORD_STATUS_pending = nextAccord (s.chip.get 0 R.ACCORD_NEWEST_number) ∧
      t.chip.get 0 R.ACCORD_LOG_bound = 1 ∧ t.chip.get 0 R.ACCORD_LOG_latchkey = bits data 5 0 ∧
      OnlyRegs s t [R.ACCORD_CMD, R.ACCORD_STATUS, R.ACCORD_LOG]) ∧
  -- 2: accordOpen
  (∀ (s : State) (src : Source) (data : Word) (r : Nat),
    s.serves src R.ACCORD_CMD true = true →
    (r = (if !s.chip.image.applied then 4 else if s.chip.get 0 R.ACCORD_STATUS_state ≠ 0 then 2 else if s.chip.get 0 R.ACCORD_STATUS_suspect
      = 1 then 6 else if (s.chip.latch (bits data 5 0)).owner ≠ srcUnit src ∨
      (s.chip.latch (bits data 5 0)).fn ≠ srcFn src then 3 else 0)) →
    r ≠ 0 →
    Does (.accordOpen src data) s fun t =>
      t.chip.get 0 R.ACCORD_STATUS_result = r ∧ t.chip.get 0 R.ACCORD_STATUS_state = s.chip.get 0 R.ACCORD_STATUS_state ∧
      t.chip.get 0 R.ACCORD_STATUS_pending = s.chip.get 0 R.ACCORD_STATUS_pending ∧ OnlyRegs s t [R.ACCORD_CMD, R.ACCORD_STATUS]) ∧
  -- 3: accordCommit
  (∀ (s : State) (src : Source) (i : Nat),
    s.serves src R.ACCORD_CMD true = true →
    s.chip.image.applied = true →
    s.chip.get 0 R.ACCORD_STATUS_state = 1 →
    s.chip.holdsBound src = true →
    i < 4 →
    s.chip.get (4 * i) R.ACCORD_SLOT_live = 0 →
    Does (.accordCommit src) s fun t =>
      t.chip.get 0 R.ACCORD_STATUS_state = 2 ∧ t.chip.get 0 R.ACCORD_STATUS_result = 0 ∧
      OnlyRegs s t [R.ACCORD_CMD, R.ACCORD_STATUS]) ∧
  -- 4: accordCommit
  (∀ (s : State) (src : Source),
    s.serves src R.ACCORD_CMD true = true →
    s.chip.image.applied = true →
    s.chip.get 0 R.ACCORD_STATUS_state = 1 →
    s.chip.holdsBound src = true →
    s.chip.liveSlots = [0, 1, 2, 3] →
    Does (.accordCommit src) s fun t =>
      t.chip.get 0 R.ACCORD_STATUS_state = 3 ∧ t.chip.get 0 R.ACCORD_STATUS_result = 0 ∧ t.chip.get 0 R.ACCORD_STATUS_commit_stalled = 1 ∧
      t.chip.reg C.stalls = s.chip.reg C.stalls + 1 ∧ OnlyRegs s t [R.ACCORD_CMD, R.ACCORD_STATUS, C.stalls]) ∧
  -- 5: accordCommit
  (∀ (s : State) (src : Source),
    s.serves src R.ACCORD_CMD true = true →
    s.chip.image.applied = true →
    (s.chip.get 0 R.ACCORD_STATUS_state ≠ 1 ∨ s.chip.holdsBound src = false) →
    s.chip.get 0 R.ACCORD_STATUS_state < 5 →
    Does (.accordCommit src) s fun t =>
      t.chip.get 0 R.ACCORD_STATUS_result = (if s.chip.get 0 R.ACCORD_STATUS_state = 1 then 3 else if s.chip.get 0 R.ACCORD_STATUS_state =
        2 ∨ s.chip.get 0 R.ACCORD_STATUS_state = 3 then 4 else 5) ∧
      t.chip.get 0 R.ACCORD_STATUS_state = s.chip.get 0 R.ACCORD_STATUS_state ∧ OnlyRegs s t [R.ACCORD_CMD, R.ACCORD_STATUS]) ∧
  -- 6: accordDiscard
  (∀ (s : State) (src : Source),
    s.serves src R.ACCORD_CMD true = true →
    s.chip.image.applied = true →
    s.chip.get 0 R.ACCORD_STATUS_state = 1 ∨ s.chip.get 0 R.ACCORD_STATUS_state = 3 →
    s.chip.holdsBound src = true →
    Does (.accordDiscard src) s fun t =>
      t.chip.get 0 R.ACCORD_STATUS_state = 4 ∧ t.chip.get 0 R.ACCORD_STATUS_result = 9 ∧ t.chip.get 0 R.ACCORD_STATUS_commit_stalled = 0 ∧
      OnlyRegs s t [R.ACCORD_CMD, R.ACCORD_STATUS]) ∧
  -- 7: accordDiscard
  (∀ (s : State) (src : Source),
    s.serves src R.ACCORD_CMD true = true →
    s.chip.image.applied = true →
    s.chip.get 0 R.ACCORD_STATUS_state = 1 ∨ s.chip.get 0 R.ACCORD_STATUS_state = 3 →
    s.chip.holdsBound src = false →
    Does (.accordDiscard src) s fun t =>
      t.chip.get 0 R.ACCORD_STATUS_result = 3 ∧ t.chip.get 0 R.ACCORD_STATUS_state = s.chip.get 0 R.ACCORD_STATUS_state ∧
      OnlyRegs s t [R.ACCORD_CMD, R.ACCORD_STATUS]) ∧
  -- 8: accordWithdraw
  (∀ (s : State) (src : Source),
    s.serves src R.ACCORD_CMD true = true →
    s.chip.image.applied = true →
    s.chip.get 0 R.ACCORD_STATUS_state = 3 →
    s.chip.holdsBound src = true →
    Does (.accordWithdraw src) s fun t =>
      t.chip.get 0 R.ACCORD_STATUS_state = 1 ∧ t.chip.get 0 R.ACCORD_STATUS_commit_stalled = 0 ∧ t.chip.get 0 R.ACCORD_STATUS_result = 0 ∧
      t.chip.accord.log = s.chip.accord.log ∧ OnlyRegs s t [R.ACCORD_CMD, R.ACCORD_STATUS]) ∧
  -- 9: accordWithdraw
  (∀ (s : State) (src : Source),
    s.serves src R.ACCORD_CMD true = true →
    s.chip.get 0 R.ACCORD_STATUS_state ≠ 3 →
    Does (.accordWithdraw src) s fun t =>
      t.chip.get 0 R.ACCORD_STATUS_result = 4 ∧ t.chip.get 0 R.ACCORD_STATUS_state = s.chip.get 0 R.ACCORD_STATUS_state ∧
      OnlyRegs s t [R.ACCORD_CMD, R.ACCORD_STATUS]) ∧
  -- 10: accordWithdraw
  (∀ (s : State) (src : Source),
    s.serves src R.ACCORD_CMD true = true →
    s.chip.image.applied = true →
    s.chip.get 0 R.ACCORD_STATUS_state = 3 →
    s.chip.holdsBound src = false →
    Does (.accordWithdraw src) s fun t =>
      t.chip.get 0 R.ACCORD_STATUS_result = 3 ∧ t.chip.get 0 R.ACCORD_STATUS_state = 3 ∧ OnlyRegs s t [R.ACCORD_CMD, R.ACCORD_STATUS])

/-- COMMIT_TAKE_EFFECT while committing or stalled, with every accepted window write landed, the 4 microsecond gap passed and slot i the
lowest free one, makes the pending accord live and newest in slot i, empties the log, unbinds the latchkey, counts and returns to idle;
before the gap has passed it changes nothing. DISCARD_COMPLETE while discarding, with every accepted write landed, gives each logged
entry its former validity (stated for a table head), empties the log, unbinds the latchkey, counts and returns to idle, and changes
nothing else but the tables. ACCORD_RETIRE of a live slot that is neither newest nor in flight frees it and appends its number to the
FIFO, or sets overrun where 32 stand there. ACCORD_DRAIN_SLOW, and ACCORD_DRAIN_WRITE at once for every slot, set drain_slow of a live
slot that is not newest and was not marked once alert_ms (not 0) has passed; ACCORD_DRAIN_SLOW reports it. ACCORD_RETIRED_READ returns
the oldest number with valid and overrun, takes it and clears overrun; an empty FIFO returns no valid bit. -/
def Obligations.AccordTakesEffectAndEnds : Prop :=
  -- 1: commitTakeEffect
  (∀ (s : State) (i : Nat),
    s.runs .core = true →
    s.chip.get 0 R.ACCORD_STATUS_state = 2 ∨ s.chip.get 0 R.ACCORD_STATUS_state = 3 →
    s.chip.gapPassed = true →
    s.chip.writesLanded = true →
    s.chip.freeSlot = some i →
    Does .commitTakeEffect s fun t =>
      t.chip.slotLive i = true ∧ t.chip.slotNewest i = true ∧ t.chip.slotNumber i = s.chip.get 0 R.ACCORD_STATUS_pending ∧
      t.chip.get 0 R.ACCORD_NEWEST_number = s.chip.get 0 R.ACCORD_STATUS_pending ∧ t.chip.get 0 R.ACCORD_NEWEST_slot = i ∧
      t.chip.get 0 R.ACCORD_STATUS_state = 0 ∧ t.chip.get 0 R.ACCORD_STATUS_pending = 0 ∧ t.chip.get 0 R.ACCORD_STATUS_commit_stalled = 0 ∧
      t.chip.get 0 R.ACCORD_LOG_bound = 0 ∧ t.chip.get 0 R.ACCORD_EVENT_committed = 1 ∧ t.chip.reg C.commits = s.chip.reg C.commits + 1 ∧
      t.chip.accord.log = [] ∧ t.chip.accord.lastCommit = some s.chip.now ∧
      OnlyParts s t ([R.ACCORD_STATUS, R.ACCORD_NEWEST, R.ACCORD_OLDEST, R.ACCORD_LOG, R.ACCORD_EVENT,
        C.commits] ++ (List.range 4).map (R.ACCORD_SLOT + 4 * ·)) [.accord]) ∧
  -- 2: commitTakeEffect
  (∀ (s : State),
    s.runs .core = true →
    s.chip.gapPassed = false →
    Does .commitTakeEffect s fun t => OnlyRegs s t []) ∧
  -- 3: discardComplete
  (∀ (s : State),
    s.runs .core = true →
    s.chip.get 0 R.ACCORD_STATUS_state = 4 →
    s.chip.writesLanded = true →
    Does .discardComplete s fun t =>
      t.chip.get 0 R.ACCORD_STATUS_state = 0 ∧ t.chip.get 0 R.ACCORD_STATUS_pending = 0 ∧ t.chip.get 0 R.ACCORD_LOG_bound = 0 ∧
      t.chip.get 0 R.ACCORD_EVENT_discarded = 1 ∧ t.chip.reg C.discards = s.chip.reg C.discards + 1 ∧
        t.chip.accord = { s.chip.accord with log := [] } ∧
      OnlyParts s t ([R.ACCORD_STATUS, R.ACCORD_LOG, R.ACCORD_EVENT,
        C.discards] ++ injRegs ++ s.chip.accord.log.flatMap fun r => s.chip.placeRegs r.place) (.accord :: tableParts)) ∧
  -- 4: discardComplete
  (∀ (s : State) (g n : Nat) (x : Validity),
    s.runs .core = true →
    s.chip.get 0 R.ACCORD_STATUS_state = 4 →
    s.chip.writesLanded = true →
    s.chip.accord.log = [{ place := .head g n, valid := x.valid, vfrom := x.vfrom, vuntil := x.vuntil }] →
    s.chip.members (U.slice g) = [U.slice g] →
    g < 8 →
    n < VTab.head.count →
    x.vfrom < 65536 →
    x.vuntil < 65536 →
    Does .discardComplete s fun t =>
      t.chip.placeValidity (.head g n) = x ∧ t.chip.accord.log = [] ∧ t.chip.get 0 R.ACCORD_STATUS_state = 0 ∧
      t.chip.get 0 R.ACCORD_EVENT_discarded = 1) ∧
  -- 5: accordRetire
  (∀ (s : State) (i : Nat),
    s.runs .core = true →
    i < 4 →
    s.chip.slotLive i = true →
    s.chip.slotNewest i = false →
    s.chip.inflight i = 0 →
    Does (.accordRetire i) s fun t =>
      (s.chip.accord.retired.length < 32 → t.chip.accord = { s.chip.accord with retired := s.chip.accord.retired ++ [s.chip.slotNumber i] })
        ∧
      (32 ≤ s.chip.accord.retired.length → t.chip.accord = { s.chip.accord with overrun := true }) ∧
      t.chip.reg (R.ACCORD_SLOT + 4 * i) = 0 ∧ t.chip.get 0 R.ACCORD_EVENT_retired = 1 ∧
      OnlyParts s t [R.ACCORD_SLOT + 4 * i, R.ACCORD_OLDEST, R.ACCORD_EVENT] [.accord]) ∧
  -- 6: accordDrainSlow
  (∀ (s : State) (i : Nat),
    s.runs .core = true →
    i < 4 →
    s.chip.slotLive i = true →
    s.chip.slotNewest i = false →
    s.chip.get (4 * i) R.ACCORD_SLOT_drain_slow = 0 →
    s.chip.get 0 R.ACCORD_DRAIN_alert_ms ≠ 0 →
    s.chip.passedUs (s.chip.accord.drainFrom.look i) (s.chip.get 0 R.ACCORD_DRAIN_alert_ms * 1000) = true →
    Does (.accordDrainSlow i) s fun t =>
      t.chip.get (4 * i) R.ACCORD_SLOT_drain_slow = 1 ∧ t.chip.get 0 R.ACCORD_EVENT_drain_slow = 1 ∧
      t.chip.ledger = s.chip.sent [s.chip.msgOf U.device K.accordDrainSlow 1 (i * 65536 + s.chip.slotNumber i)] ∧
      OnlyLedger s t [R.ACCORD_SLOT + 4 * i, R.ACCORD_EVENT]) ∧
  -- 7: accordDrainWrite
  (∀ (s : State) (src : Source) (data : Word),
    s.serves src R.ACCORD_DRAIN true = true →
    Does (.accordDrainWrite src data) s fun t =>
      t.chip.get 0 R.ACCORD_DRAIN_alert_ms = bits data 31 16 ∧
      (∀ i, i < 4 → s.chip.slotLive i = true → s.chip.slotNewest i = false → bits data 31 16 ≠ 0 →
        s.chip.passedUs (s.chip.accord.drainFrom.look i) (bits data 31 16 * 1000) = true →
        t.chip.get (4 * i) R.ACCORD_SLOT_drain_slow = 1) ∧
      OnlyLedger s t ([R.ACCORD_DRAIN, R.ACCORD_EVENT] ++ (List.range 4).map (R.ACCORD_SLOT + 4 * ·))) ∧
  -- 8: accordRetiredRead
  (∀ (s : State) (src : Source) (n : Nat) (l : List Nat),
    s.serves src R.ACCORD_RETIRED false = true →
    s.chip.accord.retired = n :: l →
    Does (.accordRetiredRead src) s fun t =>
      t.chip.accord = { s.chip.accord with retired := l, overrun := false } ∧
      t.chip.busData = BitVec.ofNat 64 (2 ^ 31 + b2n s.chip.accord.overrun * 2 ^ 30 + n) ∧ OnlyParts s t [] [.accord]) ∧
  -- 9: accordRetiredRead
  (∀ (s : State) (src : Source),
    s.serves src R.ACCORD_RETIRED false = true →
    s.chip.accord.retired = [] →
    Does (.accordRetiredRead src) s fun t =>
      t.chip.accord = { s.chip.accord with overrun := false } ∧ t.chip.busData = BitVec.ofNat 64 (b2n s.chip.accord.overrun * 2 ^ 30) ∧
      OnlyParts s t [] [.accord])

/-- A read of LATCHKEY_TAKE[k] of a free latchkey makes the reader its owner, keeps suspect, and returns got = 1 with the reader, its
function and suspect. A read by the owner returns got = 1 and changes nothing. A read by anyone else returns got = 0 with the owner, and
counts latch_busy. No other latchkey, register or part of the device changes. -/
def Obligations.LatchkeyTakeRule : Prop :=
  -- 1: latchkeyTake
  (∀ (s : State) (src : Source) (k : Nat),
    s.serves src (R.LATCHKEY_TAKE + 4 * k) false = true →
    k < 64 →
    (s.chip.latch k).owner = 0 →
    Does (.latchkeyTake src k) s fun t =>
      t.chip.latch k = { s.chip.latch k with owner := srcUnit src, fn := srcFn src } ∧
      t.chip.busData = latchWord { s.chip.latch k with owner := srcUnit src, fn := srcFn src } true ∧
      (∀ j, j ≠ k → t.chip.latch j = s.chip.latch j) ∧
      t.chip.ledger = { s.chip.ledger with latches := t.chip.ledger.latches } ∧ OnlyLedger s t []) ∧
  -- 2: latchkeyTake
  (∀ (s : State) (src : Source) (k : Nat),
    s.serves src (R.LATCHKEY_TAKE + 4 * k) false = true →
    k < 64 →
    (s.chip.latch k).owner = srcUnit src →
    (s.chip.latch k).fn = srcFn src →
    Does (.latchkeyTake src k) s fun t => t.chip.busData = latchWord (s.chip.latch k) true ∧ OnlyRegs s t []) ∧
  -- 3: latchkeyTake
  (∀ (s : State) (src : Source) (k : Nat),
    s.serves src (R.LATCHKEY_TAKE + 4 * k) false = true →
    k < 64 →
    (s.chip.latch k).owner ≠ 0 →
    (s.chip.latch k).heldBy src = false →
    Does (.latchkeyTake src k) s fun t =>
      t.chip.busData = latchWord (s.chip.latch k) false ∧ t.chip.reg C.latch_busy = s.chip.reg C.latch_busy + 1 ∧
        OnlyRegs s t [C.latch_busy])

/-- A release by the owner frees the latchkey; where the pending accord is bound to it and the engine is open, committing or stalled, the
discard of that accord begins with result 0x08. A suspect clear by the owner clears suspect. Either one by another writer, or of a free
latchkey, changes nothing but latch_foreign. No other latchkey, register or part of the device changes. -/
def Obligations.LatchkeysComeFree : Prop :=
  -- 1: latchkeyRelease
  (∀ (s : State) (src : Source) (k : Nat),
    s.serves src (R.LATCHKEY + 4 * k) true = true →
    k < 64 →
    (s.chip.latch k).owner = srcUnit src →
    (s.chip.latch k).fn = srcFn src →
    s.chip.accordBoundTo k = false ∨ (s.chip.accordState ≠ 1 ∧ s.chip.accordState ≠ 2 ∧ s.chip.accordState ≠ 3) →
    Does (.latchkeyRelease src k) s fun t =>
      t.chip.latch k = { s.chip.latch k with owner := 0, fn := 0 } ∧ (∀ j, j ≠ k → t.chip.latch j = s.chip.latch j) ∧
      t.chip.ledger = { s.chip.ledger with latches := t.chip.ledger.latches } ∧ OnlyLedger s t []) ∧
  -- 2: latchkeyRelease
  (∀ (s : State) (src : Source) (k : Nat),
    s.serves src (R.LATCHKEY + 4 * k) true = true →
    k < 64 →
    (s.chip.latch k).owner = srcUnit src →
    (s.chip.latch k).fn = srcFn src →
    s.chip.accordBoundTo k = true →
    s.chip.accordState = 1 ∨ s.chip.accordState = 2 ∨ s.chip.accordState = 3 →
    Does (.latchkeyRelease src k) s fun t =>
      t.chip.latch k = { s.chip.latch k with owner := 0, fn := 0 } ∧ (∀ j, j ≠ k → t.chip.latch j = s.chip.latch j) ∧
      t.chip.get 0 R.ACCORD_STATUS_state = 4 ∧ t.chip.get 0 R.ACCORD_STATUS_result = 8 ∧ t.chip.get 0 R.ACCORD_STATUS_commit_stalled = 0 ∧
      t.chip.ledger = { s.chip.ledger with latches := t.chip.ledger.latches } ∧ OnlyLedger s t [R.ACCORD_STATUS]) ∧
  -- 3: latchkeySuspectClear
  (∀ (s : State) (src : Source) (k : Nat),
    s.serves src (R.LATCHKEY + 4 * k) true = true →
    k < 64 →
    (s.chip.latch k).owner = srcUnit src →
    (s.chip.latch k).fn = srcFn src →
    Does (.latchkeySuspectClear src k) s fun t =>
      t.chip.latch k = { s.chip.latch k with suspect := false } ∧ (∀ j, j ≠ k → t.chip.latch j = s.chip.latch j) ∧
      t.chip.ledger = { s.chip.ledger with latches := t.chip.ledger.latches } ∧ OnlyLedger s t []) ∧
  -- 4: latchkeyRelease
  (∀ (s : State) (src : Source) (k : Nat),
    s.serves src (R.LATCHKEY + 4 * k) true = true →
    k < 64 →
    (s.chip.latch k).heldBy src = false →
    Does (.latchkeyRelease src k) s fun t => t.chip.reg C.latch_foreign = s.chip.reg C.latch_foreign + 1 ∧ OnlyRegs s t [C.latch_foreign]) ∧
  -- 5: latchkeySuspectClear
  (∀ (s : State) (src : Source) (k : Nat),
    s.serves src (R.LATCHKEY + 4 * k) true = true →
    k < 64 →
    (s.chip.latch k).heldBy src = false →
    Does (.latchkeySuspectClear src k) s fun t => t.chip.reg C.latch_foreign = s.chip.reg C.latch_foreign + 1 ∧
      OnlyRegs s t [C.latch_foreign])

/-- LATCHKEY_BREAK with key 0x5AFE and go, from the physical function or a control core, frees a held latchkey, sets its suspect bit and
sends LOCK_ORPHAN at severity 2 with the latchkey and its former holder; a pending accord bound to it begins to be discarded with result
0x07 and suspect. The write of a virtual function changes nothing, and neither does one without the key or go, or one that names a free
latchkey. No other latchkey, register or part of the device changes. -/
def Obligations.LatchkeyBreakRule : Prop :=
  -- 1: latchkeyBreak
  (∀ (s : State) (src : Source) (data : Word),
    s.serves src R.LATCHKEY_BREAK true = true →
    ((match src with | .vf _ => false | _ => true) = true) →
    bits data 31 16 = 0x5AFE →
    bits data 15 15 = 1 →
    (s.chip.latch (bits data 5 0)).owner ≠ 0 →
    s.chip.accordBoundTo (bits data 5 0) = false ∨ (s.chip.accordState ≠ 1 ∧ s.chip.accordState ≠ 2 ∧ s.chip.accordState ≠ 3) →
    Does (.latchkeyBreak src data) s fun t =>
      t.chip.latch (bits data 5 0) = { owner := 0, fn := 0, suspect := true } ∧ (∀ j, j ≠ bits data 5 0 → t.chip.latch j = s.chip.latch j) ∧
      t.chip.ledger = { s.chip.sent [s.chip.msgOf 0xD068 K.lockOrphan 2 (bits data 5 0 * 2 ^ 21 + (s.chip.latch (bits data 5 0)).fn * 2 ^ 16 + (s.chip.latch (bits data 5 0)).owner)] with latches := t.chip.ledger.latches }
        ∧
      OnlyLedger s t []) ∧
  -- 2: latchkeyBreak
  (∀ (s : State) (src : Source) (data : Word),
    s.serves src R.LATCHKEY_BREAK true = true →
    ((match src with | .vf _ => false | _ => true) = true) →
    bits data 31 16 = 0x5AFE →
    bits data 15 15 = 1 →
    (s.chip.latch (bits data 5 0)).owner ≠ 0 →
    s.chip.accordBoundTo (bits data 5 0) = true →
    s.chip.accordState = 1 ∨ s.chip.accordState = 2 ∨ s.chip.accordState = 3 →
    Does (.latchkeyBreak src data) s fun t =>
      t.chip.latch (bits data 5 0) = { owner := 0, fn := 0, suspect := true } ∧ (∀ j, j ≠ bits data 5 0 → t.chip.latch j = s.chip.latch j) ∧
      t.chip.ledger = { s.chip.sent [s.chip.msgOf 0xD068 K.lockOrphan 2 (bits data 5 0 * 2 ^ 21 + (s.chip.latch (bits data 5 0)).fn * 2 ^ 16 + (s.chip.latch (bits data 5 0)).owner)] with latches := t.chip.ledger.latches }
        ∧
      t.chip.get 0 R.ACCORD_STATUS_state = 4 ∧ t.chip.get 0 R.ACCORD_STATUS_result = 7 ∧ t.chip.get 0 R.ACCORD_STATUS_suspect = 1 ∧
      t.chip.get 0 R.ACCORD_STATUS_commit_stalled = 0 ∧ OnlyLedger s t [R.ACCORD_STATUS]) ∧
  -- 3: latchkeyBreak
  (∀ (s : State) (src : Source) (data : Word),
    s.serves src R.LATCHKEY_BREAK true = true →
    ((match src with | .vf _ => true | _ => false) = true ∨ bits data 31 16 ≠ 0x5AFE ∨ bits data 15 15 = 0 ∨
      (s.chip.latch (bits data 5 0)).owner = 0) →
    Does (.latchkeyBreak src data) s fun t => OnlyRegs s t [])

/-- LEDGER_MESSAGE_ARRIVAL of one message appends it to the input queue with the ledger's time while fewer than 48 wait, or 64 for severity 2
and above; a message of severity 0 or 1 that finds 48 waiting is dropped and counted; one of severity 2 and above that finds 64 waiting
stays held at its checker, or is counted where the checker already holds one of its kind. A held message is queued once a place is free.
Of two messages that arrive together the one of higher severity is queued first. LEDGER_RECORDS_LOST sends one LEDGER_RECORDS_LOST of
severity 2 from unit 0xD038 when the count of lost records has risen, the ring has a free place and none is on its way; else it changes
nothing. No other register or part of the device changes. -/
def Obligations.LedgerTakesMessages : Prop :=
  -- 1: ledgerMessageArrival
  (∀ (s : State) (m : Msg) (l : List Msg),
    s.runs .aon = true →
    s.chip.ledger.transit = m :: l →
    s.chip.ledger.held = [] →
    s.chip.ledger.queue.length < 48 ∨ (s.chip.ledger.queue.length < 64 ∧ 2 ≤ m.sev) →
    Does (.ledgerMessageArrival 1) s fun t =>
      t.chip.ledger = { s.chip.ledger with transit := l, queue := s.chip.ledger.queue ++ [{ m with time := s.chip.recTime }] } ∧
        OnlyLedger s t []) ∧
  -- 2: ledgerMessageArrival
  (∀ (s : State) (m : Msg) (l : List Msg),
    s.runs .aon = true →
    s.chip.ledger.transit = m :: l →
    s.chip.ledger.held = [] ∨ 64 ≤ s.chip.ledger.queue.length →
    48 ≤ s.chip.ledger.queue.length →
    m.sev ≤ 1 →
    Does (.ledgerMessageArrival 1) s fun t =>
      t.chip.ledger = { s.chip.ledger with transit := l } ∧ t.chip.reg C.records_lost = s.chip.reg C.records_lost + 1 ∧
        OnlyLedger s t [C.records_lost]) ∧
  -- 3: ledgerMessageArrival
  (∀ (s : State) (m : Msg) (l : List Msg),
    s.runs .aon = true →
    s.chip.ledger.transit = m :: l →
    64 ≤ s.chip.ledger.queue.length →
    2 ≤ m.sev →
    s.chip.ledger.held.any (Msg.same m) = false →
    Does (.ledgerMessageArrival 1) s fun t =>
      t.chip.ledger = { s.chip.ledger with transit := l, held := s.chip.ledger.held ++ [m] } ∧ OnlyLedger s t []) ∧
  -- 4: ledgerMessageArrival
  (∀ (s : State) (m : Msg) (l : List Msg),
    s.runs .aon = true →
    s.chip.ledger.transit = m :: l →
    64 ≤ s.chip.ledger.queue.length →
    2 ≤ m.sev →
    s.chip.ledger.held.any (Msg.same m) = true →
    Does (.ledgerMessageArrival 1) s fun t =>
      t.chip.ledger = { s.chip.ledger with transit := l } ∧ t.chip.reg C.records_lost = s.chip.reg C.records_lost + 1 ∧
        OnlyLedger s t [C.records_lost]) ∧
  -- 5: ledgerMessageArrival
  (∀ (s : State) (m : Msg),
    s.runs .aon = true →
    s.chip.ledger.transit = [] →
    s.chip.ledger.held = [m] →
    s.chip.ledger.queue.length < 64 →
    2 ≤ m.sev →
    Does (.ledgerMessageArrival 1) s fun t =>
      t.chip.ledger = { s.chip.ledger with held := [], queue := s.chip.ledger.queue ++ [{ m with time := s.chip.recTime }] } ∧
        OnlyLedger s t []) ∧
  -- 6: ledgerMessageArrival
  (∀ (s : State) (m n : Msg) (l : List Msg),
    s.runs .aon = true →
    s.chip.ledger.transit = m :: n :: l →
    s.chip.ledger.held = [] →
    s.chip.ledger.queue.length < 47 →
    m.sev < n.sev →
    Does (.ledgerMessageArrival 2) s fun t =>
      t.chip.ledger = { s.chip.ledger with transit := l, queue := s.chip.ledger.queue ++ [{ n with time := s.chip.recTime }, { m with time := s.chip.recTime }] }
        ∧
      OnlyLedger s t []) ∧
  -- 7: ledgerRecordsLost
  (∀ (s : State),
    s.runs .aon = true →
    s.chip.ledger.lostBase < (s.chip.reg C.records_lost).toNat →
    s.chip.unread < 1024 →
    s.chip.ledger.lostSent = false →
    Does .ledgerRecordsLost s fun t =>
      t.chip.ledger = { s.chip.sent [s.chip.msgOf 0xD038 0x018 2] with lostSent := true } ∧ OnlyLedger s t []) ∧
  -- 8: ledgerRecordsLost
  (∀ (s : State),
    s.runs .aon = true →
    (s.chip.reg C.records_lost).toNat ≤ s.chip.ledger.lostBase ∨ 1024 ≤ s.chip.unread ∨ s.chip.ledger.lostSent = true →
    Does .ledgerRecordsLost s fun t => OnlyRegs s t [])

/-- LEDGER_RECORD_WRITE takes the oldest message from the input queue. While the ring has a free place its record is written at
LEDGER_WR_PTR, which moves on modulo 2,048; else it goes to the overflow FIFO, or, where both banks hold items and the filling one is
full, counts in records_lost. In every case it is counted by its severity, sets its bit of LEDGER_CAUSE, becomes LEDGER_FIRST where
first_valid was 0, sets LEDGER_IRQ.pending, ERROR_N, the block resets and the chip reset due where its reaction byte says so, and joins
the records due for the journal at severity 3 and above while writes run, a thermal trip first; at severity 4 and above each latchkey of
its source becomes an orphan. A message of lost records carries the records lost since the last. CONDITION_CLEARED of a condition that
ended sets the cleared bit and clear_after of its unread record, or writes a record of severity 0 with them where it has been read; where
the condition has not ended it changes nothing. Beside the ledger, the overflow FIFO and their registers, nothing changes but an orphaned
latchkey's accord (ACCORD_STATUS). -/
def Obligations.LedgerWritesRecords : Prop :=
  -- 1: ledgerRecordWrite
  (∀ (s : State) (m : Msg) (q : List Msg),
    s.runs .aon = true →
    s.chip.ledger.queue = m :: q →
    s.chip.unread < 1024 →
    m.sev ≤ 5 →
    ¬(m.kind = 0x018 ∧ m.source = 0xD038) →
    Does .ledgerRecordWrite s fun t =>
      t.chip.ledger.ring.look (s.chip.get 0 R.LEDGER_WR_PTR_ptr % 1024) = mkRecord m ∧
      (∀ p, p ≠ s.chip.get 0 R.LEDGER_WR_PTR_ptr % 1024 → t.chip.ledger.ring.look p = s.chip.ledger.ring.look p) ∧
      t.chip.get 0 R.LEDGER_WR_PTR_ptr = (s.chip.get 0 R.LEDGER_WR_PTR_ptr + 1) % 2048 ∧
      t.chip.ledger.queue = q ∧ bit (t.chip.reg R.LEDGER_CAUSE) m.sev = true ∧
        t.chip.reg (C.ledger_records + 8 * m.sev) = s.chip.reg (C.ledger_records + 8 * m.sev) + 1 ∧
      OnlyLedger s t ([R.LEDGER_STATUS, R.LEDGER_CAUSE, R.LEDGER_IRQ, R.LEDGER_WR_PTR, R.ACCORD_STATUS, C.ledger_records + 8 * m.sev,
        C.journal_lost] ++ firstRegs)) ∧
  -- 2: ledgerRecordWrite
  (∀ (s : State) (m : Msg) (q : List Msg),
    s.runs .aon = true →
    s.chip.ledger.queue = m :: q →
    1024 ≤ s.chip.unread →
    m.sev ≤ 5 →
    ¬(m.kind = 0x018 ∧ m.source = 0xD038) →
    Does .ledgerRecordWrite s fun t =>
      t.chip.ledger.ring = s.chip.ledger.ring ∧
      (t.chip.fifos.look 24).filling = (if (s.chip.fifos.look 24).filling.length < 256 then (s.chip.fifos.look 24).filling ++ [BitVec.ofNat
        256 (mkRecord m).toNat] else if (s.chip.fifos.look 24).draining =
        [] then [BitVec.ofNat 256 (mkRecord m).toNat] else (s.chip.fifos.look 24).filling) ∧
      (t.chip.fifos.look 24).draining = (if 256 ≤ (s.chip.fifos.look 24).filling.length ∧
        (s.chip.fifos.look 24).draining = [] then (s.chip.fifos.look 24).filling else (s.chip.fifos.look 24).draining) ∧
      t.chip.reg C.records_lost = s.chip.reg C.records_lost + (if 256 ≤ (s.chip.fifos.look 24).filling.length ∧
        (s.chip.fifos.look 24).draining ≠ [] then 1 else 0) ∧
      t.chip.ledger.queue = q ∧ bit (t.chip.reg R.LEDGER_CAUSE) m.sev = true ∧
        t.chip.reg (C.ledger_records + 8 * m.sev) = s.chip.reg (C.ledger_records + 8 * m.sev) + 1 ∧
      OnlyParts s t ([R.LEDGER_STATUS, R.LEDGER_CAUSE, R.LEDGER_IRQ, R.LEDGER_WR_PTR, R.ACCORD_STATUS, C.ledger_records + 8 * m.sev,
        C.journal_lost] ++ firstRegs ++ [C.records_lost] ++ s.chip.fifoRegs 24) [.ledger, .fifos]) ∧
  -- 3: ledgerRecordWrite
  (∀ (s : State) (m : Msg) (q : List Msg),
    s.runs .aon = true →
    s.chip.ledger.queue = m :: q →
    s.chip.unread < 1024 →
    m.sev ≤ 5 →
    m.kind = 0x018 →
    m.source = 0xD038 →
    Does .ledgerRecordWrite s fun t =>
      t.chip.ledger.ring.look (s.chip.get 0 R.LEDGER_WR_PTR_ptr % 1024) =
        mkRecord { m with addr := Nat.min ((s.chip.reg C.records_lost).toNat - s.chip.ledger.lostBase) 0xFFFFFFFFFFF } ∧
      t.chip.ledger.lostBase = (s.chip.reg C.records_lost).toNat ∧ t.chip.ledger.lostSent = false ∧
      t.chip.ledger.queue = q ∧ bit (t.chip.reg R.LEDGER_CAUSE) m.sev = true ∧
        t.chip.reg (C.ledger_records + 8 * m.sev) = s.chip.reg (C.ledger_records + 8 * m.sev) + 1 ∧
      OnlyLedger s t ([R.LEDGER_STATUS, R.LEDGER_CAUSE, R.LEDGER_IRQ, R.LEDGER_WR_PTR, R.ACCORD_STATUS, C.ledger_records + 8 * m.sev,
        C.journal_lost] ++ firstRegs)) ∧
  -- 4: ledgerRecordWrite
  (∀ (s : State) (m : Msg) (q : List Msg),
    s.runs .aon = true →
    s.chip.ledger.queue = m :: q →
    s.chip.unread < 1024 →
    m.sev ≤ 5 →
    ¬(m.kind = 0x018 ∧ m.source = 0xD038) →
    Does .ledgerRecordWrite s fun t =>
      (s.chip.get 0 R.LEDGER_STATUS_first_valid = 0 → t.chip.get 0 R.LEDGER_STATUS_first_valid = 1 ∧ ∀ w, w < 4 →
        (t.chip.reg (R.LEDGER_FIRST + 4 * w)).toNat = bits (mkRecord m) (32 * w + 31) (32 * w)) ∧
      (s.chip.get 0 R.LEDGER_STATUS_first_valid = 1 → ∀ w, w < 4 →
        t.chip.reg (R.LEDGER_FIRST + 4 * w) = s.chip.reg (R.LEDGER_FIRST + 4 * w)) ∧
      (nbits (s.chip.reaction m) 0 0 = 1 → t.chip.get 0 R.LEDGER_IRQ_pending = 1) ∧
      (nbits (s.chip.reaction m) 0 0 = 0 → t.chip.get 0 R.LEDGER_IRQ_pending = s.chip.get 0 R.LEDGER_IRQ_pending) ∧
      (nbits (s.chip.reaction m) 4 4 = 1 → t.chip.get 0 R.LEDGER_STATUS_errn = 1) ∧
      (nbits (s.chip.reaction m) 4 4 = 0 → t.chip.get 0 R.LEDGER_STATUS_errn = s.chip.get 0 R.LEDGER_STATUS_errn) ∧
      t.chip.ledger.chipDue = (s.chip.ledger.chipDue || nbits (s.chip.reaction m) 3 3 == 1) ∧
      t.chip.ledger.blocks = s.chip.ledger.blocks ++ (if nbits (s.chip.reaction m) 2 2 =
        1 then (s.chip.blockTargets (nbits (s.chip.reaction m) 6 5) m.source).filter (fun u => !(protectedUnits.contains u)) else [])) ∧
  -- 5: ledgerRecordWrite
  (∀ (s : State) (m : Msg) (q : List Msg),
    s.runs .aon = true →
    s.chip.ledger.queue = m :: q →
    s.chip.get 0 R.SAG_STATUS_stopped = 0 →
    s.chip.unread < 1024 →
    m.sev ≤ 5 →
    ¬(m.kind = 0x018 ∧ m.source = 0xD038) →
    Does .ledgerRecordWrite s fun t =>
      t.chip.ledger.jrnQueue = (if m.sev < 3 then s.chip.ledger.jrnQueue else if m.kind =
        K.thermalTrip then mkRecord m :: s.chip.ledger.jrnQueue else s.chip.ledger.jrnQueue ++ [mkRecord m]) ∧
      (∀ k, k < 64 → 4 ≤ m.sev → (s.chip.latch k).owner ≠ 0 → (s.chip.latch k).owner = m.source →
        t.chip.latch k = { owner := 0, fn := 0, suspect := true }) ∧
      (∀ k, (m.sev < 4 ∨ (s.chip.latch k).owner ≠ m.source) → t.chip.latch k = s.chip.latch k)) ∧
  -- 6: conditionCleared
  (∀ (s : State) (k : Cond) (p : Nat),
    s.runs .aon = true →
    (s.chip.ledger.conds.find? (fun x => x.source == k.source && x.kind == k.kind) = some k) →
    s.chip.ledger.ended.contains (k.source, k.kind) = true →
    k.ptr = some p →
    s.chip.stillUnread p = true →
    Does (.conditionCleared k.source k.kind) s fun t =>
      bit (t.chip.ledger.ring.look (p % 1024)) 89 = true ∧
      bits (t.chip.ledger.ring.look (p % 1024)) 87 76 = Nat.min ((s.chip.now - k.at_) / 16000) 0xFFF ∧
      (∀ j, j ≠ p % 1024 → t.chip.ledger.ring.look j = s.chip.ledger.ring.look j) ∧ (k.source, k.kind) ∉ t.chip.ledger.ended ∧
      (t.chip.ledger.conds.all fun x => !(x.source == k.source && x.kind == k.kind)) = true ∧ OnlyLedger s t []) ∧
  -- 7: conditionCleared
  (∀ (s : State) (k : Cond),
    s.runs .aon = true →
    (s.chip.ledger.conds.find? (fun x => x.source == k.source && x.kind == k.kind) = some k) →
    s.chip.ledger.ended.contains (k.source, k.kind) = true →
    (k.ptr.filter (fun p => s.chip.stillUnread p) = none) →
    s.chip.unread < 1024 →
    Does (.conditionCleared k.source k.kind) s fun t =>
      t.chip.ledger.ring.look (s.chip.get 0 R.LEDGER_WR_PTR_ptr % 1024) =
        mkRecord { source := k.source, kind := k.kind, sev := 0, pos := bits k.data 96 90, addr := bits k.data 43 0, time := s.chip.recTime }
          true (Nat.min ((s.chip.now - k.at_) / 16000) 0xFFF) ∧
      t.chip.get 0 R.LEDGER_WR_PTR_ptr = (s.chip.get 0 R.LEDGER_WR_PTR_ptr + 1) % 2048 ∧ (k.source, k.kind) ∉ t.chip.ledger.ended ∧
      bit (t.chip.reg R.LEDGER_CAUSE) 0 = true ∧ t.chip.reg C.ledger_records = s.chip.reg C.ledger_records + 1 ∧
      OnlyLedger s t ([R.LEDGER_STATUS, R.LEDGER_CAUSE, R.LEDGER_IRQ, R.LEDGER_WR_PTR, C.ledger_records] ++ firstRegs)) ∧
  -- 8: conditionCleared
  (∀ (s : State) (u k : Nat),
    s.runs .aon = true →
    s.chip.ledger.ended.contains (u, k) = false →
    Does (.conditionCleared u k) s fun t => OnlyRegs s t [])

/-- JOURNAL_WRITE while keepsake writes run puts the oldest due record at the journal pointer, moves the pointer on modulo 65,536 and counts
it; the other journal places, the byte store and the fuses stay; while writes are stopped, or with no record due, it changes nothing.
ERRN_RELEASE releases ERROR_N and changes nothing else. INJECTION_ARM of a present unit that has a checker of the class, with a mask in
its width and none armed, arms it with result 0; without such a checker, or with a bit of the mask outside its width, it arms nothing and
gives result 1; while one is armed it leaves that one armed and gives result 2. INJECTION_DISARM leaves none armed. The injection
commands change nothing beside LEDGER_INJ_CTRL and the armed injection. -/
def Obligations.JournalErrorAndInjection : Prop :=
  -- 1: journalWrite
  (∀ (s : State) (r : BitVec 128) (q : List (BitVec 128)),
    s.runs .aon = true →
    s.chip.ledger.jrnQueue = r :: q →
    s.chip.get 0 R.SAG_STATUS_stopped = 0 →
    Does .journalWrite s fun t =>
      t.nv.journal.look s.nv.jrnPtr = r ∧ (∀ p, p ≠ s.nv.jrnPtr → t.nv.journal.look p = s.nv.journal.look p) ∧
        t.nv.jrnPtr = (s.nv.jrnPtr + 1) % 65536 ∧
      t.chip.ledger = { s.chip.ledger with jrnQueue := q, jrnLost := false } ∧
      t.chip.reg C.journal_written = s.chip.reg C.journal_written + 1 ∧ t.nv.mem = s.nv.mem ∧ t.nv.written = s.nv.written ∧
        t.fuses = s.fuses ∧
      OnlyDev s t [C.journal_written, C.keepsake_line_writes, R.LEDGER_STATUS] [.ledger]) ∧
  -- 2: journalWrite
  (∀ (s : State),
    s.runs .aon = true →
    s.chip.ledger.jrnQueue = [] ∨ s.chip.get 0 R.SAG_STATUS_stopped = 1 →
    Does .journalWrite s fun t => OnlyRegs s t []) ∧
  -- 3: errnRelease
  (∀ (s : State) (src : Source),
    s.serves src R.LEDGER_CTRL true = true →
    Does (.errnRelease src) s fun t => t.chip.get 0 R.LEDGER_STATUS_errn = 0 ∧
      t.chip.get 0 R.LEDGER_STATUS_first_valid = s.chip.get 0 R.LEDGER_STATUS_first_valid ∧
      t.chip.get 0 R.LEDGER_STATUS_unread = s.chip.get 0 R.LEDGER_STATUS_unread ∧ OnlyRegs s t [R.LEDGER_STATUS]) ∧
  -- 4: injectionArm
  (∀ (s : State) (src : Source) (data : Word) (w : Nat),
    s.serves src R.LEDGER_INJ_CTRL true = true →
    s.chip.ledger.inj = none →
    s.chip.present (s.chip.get 0 R.LEDGER_INJ_UNIT_unit_id) = true →
    hasChecker (s.chip.get 0 R.LEDGER_INJ_UNIT_unit_id) (bits data 3 0) = true →
    injWidth (bits data 3 0) = some w →
    s.chip.get 0 R.LEDGER_INJ_MASK_mask < 2 ^ w →
    Does (.injectionArm src data) s fun t =>
      t.chip.ledger = { s.chip.ledger with inj := some { unit := s.chip.get 0 R.LEDGER_INJ_UNIT_unit_id, cls := bits data 3 0, mask := s.chip.get 0 R.LEDGER_INJ_MASK_mask, addr := s.chip.get 0 R.LEDGER_INJ_ADDR_addr, count := bits data 15 8, react := bits data 30 30 == 1 } }
        ∧
      t.chip.get 0 R.LEDGER_INJ_CTRL_arm = 1 ∧ t.chip.get 0 R.LEDGER_INJ_CTRL_result = 0 ∧ OnlyLedger s t [R.LEDGER_INJ_CTRL]) ∧
  -- 5: injectionArm
  (∀ (s : State) (src : Source) (data : Word),
    s.serves src R.LEDGER_INJ_CTRL true = true →
    s.chip.ledger.inj = none →
    (hasChecker (s.chip.get 0 R.LEDGER_INJ_UNIT_unit_id) (bits data 3 0) = false ∨ ∃ w, injWidth (bits data 3 0) = some w ∧
      2 ^ w ≤ s.chip.get 0 R.LEDGER_INJ_MASK_mask) →
    Does (.injectionArm src data) s fun t => t.chip.get 0 R.LEDGER_INJ_CTRL_result = 1 ∧ OnlyRegs s t [R.LEDGER_INJ_CTRL]) ∧
  -- 6: injectionArm
  (∀ (s : State) (src : Source) (data : Word),
    s.serves src R.LEDGER_INJ_CTRL true = true →
    s.chip.ledger.inj.isSome = true →
    Does (.injectionArm src data) s fun t => t.chip.get 0 R.LEDGER_INJ_CTRL_result = 2 ∧ OnlyRegs s t [R.LEDGER_INJ_CTRL]) ∧
  -- 7: injectionDisarm
  (∀ (s : State) (src : Source),
    s.serves src R.LEDGER_INJ_CTRL true = true →
    Does (.injectionDisarm src) s fun t =>
      t.chip.ledger = { s.chip.ledger with inj := none } ∧ t.chip.get 0 R.LEDGER_INJ_CTRL_arm = 0 ∧ OnlyLedger s t [R.LEDGER_INJ_CTRL])

/-- TIME_BASE_TICK adds 8 ns × (1 + rate × 2^-48) to every time base, and beside the time bases and the device's own time changes only the
sleep counters, the porters' slot counters and BOOT_STATUS. TB_NOW_READ returns nanoseconds and fraction and latches the seconds;
TB_PPS_READ returns the capture, latches its seconds and clears fresh. PPS_OUT_PULSE raises an enabled low output whose whole second has
come, and PPS_OUT_PULSE_END lowers it after its width. TB_HOLDOVER of a base not steered for its timeout sets holdover and its event and
reports TB_HOLDOVER at severity 1; before then it changes nothing. TB_REF_LOSS while the 10 MHz input is selected sets ref_lost, clears
locked, puts every base in reference holdover and reports TB_REF_LOSS at severity 2. TB_REF_SELECT selects the reference, clears ref_lost
and locked and puts every base in reference holdover; a loss ends with it. TB_PLL_LOCK sets locked and ends the reference holdover, and
while ref_lost is 1 changes nothing. PPS_IN_EDGE captures every time base at once: TB_PPS_NS takes its nanoseconds with fresh, its
seconds wait for the read of TB_PPS_SEC, pps_in is set and tb_pps_captures counts, whatever capture stood there. Nothing else changes. -/
def Obligations.TimeAdvances : Prop :=
  -- 1: timeBaseTick
  (∀ (s : State),
    s.runs .aon = true →
    Does .timeBaseTick s fun t =>
      t.chip.now = s.chip.now + 8 ∧
      (∀ k, k < 8 → t.chip.tb k = (s.chip.tb k).setFine ((s.chip.tb k).fine + 8 * 2 ^ 48 + 8 * s.chip.tbRate k)) ∧
      OnlyParts s t (R.BOOT_STATUS :: (List.range 8).flatMap fun g => (C.asleep_us + 0x20 * g) :: (List.range 34).flatMap fun n =>
        [C.slot_total, C.slot_wasted, C.slot_back, C.slot_front].map fun x => A.porter g n + x) [.now, .tbs, .porters]) ∧
  -- 2: timeBaseTick
  (∀ (s : State) (k : Nat),
    s.runs .aon = true →
    k < 8 →
    0 ≤ ((s.chip.tb k).fine : Int) + 8 * 2 ^ 48 + 8 * s.chip.tbRate k →
    ((s.chip.tb k).fine : Int) + 8 * 2 ^ 48 + 8 * s.chip.tbRate k < 2 ^ 48 * 1000000000 * 2 ^ 48 →
    Does .timeBaseTick s fun t => ((t.chip.tb k).fine : Int) = (s.chip.tb k).fine + 8 * 2 ^ 48 + 8 * s.chip.tbRate k) ∧
  -- 3: tbNowRead
  (∀ (s : State) (src : Source) (k : Nat),
    s.serves src (A.tb k + 0x38) false = true →
    k < 8 →
    Does (.tbNowRead src k) s fun t =>
      t.chip.busData = BitVec.ofNat 64 (s.chip.tb k).nowNs ∧ t.chip.reg (A.tb k + R.TB_NOW_SEC) = BitVec.ofNat 64 (s.chip.tb k).sec ∧
      OnlyRegs s t [A.tb k + R.TB_NOW_SEC]) ∧
  -- 4: tbPpsRead
  (∀ (s : State) (src : Source) (k : Nat),
    s.serves src (A.tb k + 0x48) false = true →
    k < 8 →
    Does (.tbPpsRead src k) s fun t =>
      t.chip.busData = s.chip.reg (A.tb k + R.TB_PPS_NS) ∧ t.chip.reg (A.tb k + R.TB_PPS_SEC) = BitVec.ofNat 64 (s.chip.tb k).ppsSec ∧
      t.chip.reg (A.tb k + R.TB_PPS_NS) = putBits (s.chip.reg (A.tb k + R.TB_PPS_NS)) 63 63 0 ∧
        OnlyRegs s t [A.tb k + R.TB_PPS_NS, A.tb k + R.TB_PPS_SEC]) ∧
  -- 5: ppsOutPulse
  (∀ (s : State) (i : Nat),
    s.runs .aon = true →
    i < 2 →
    s.chip.power.sysRstHigh = true →
    s.chip.get (4 * i) R.PPS_OUT_enable = 1 →
    (s.chip.pps.look i).rose = none →
    (s.chip.pps.look i).last < s.chip.ppsSecond i →
    Does (.ppsOutPulse i) s fun t =>
      t.chip.pps.look i = { last := s.chip.ppsSecond i, rose := some s.chip.now } ∧ (∀ j, j ≠ i → t.chip.pps.look j = s.chip.pps.look j) ∧
      t.chip.out = [.pps i true] ∧ OnlyParts s t [] [.pps]) ∧
  -- 6: ppsOutPulseEnd
  (∀ (s : State) (i r : Nat),
    s.runs .aon = true →
    i < 2 →
    (s.chip.pps.look i).rose = some r →
    r + s.chip.get (4 * i) R.PPS_OUT_width_ms * 1000000 ≤ s.chip.now →
    Does (.ppsOutPulseEnd i) s fun t =>
      t.chip.pps.look i = { s.chip.pps.look i with rose := none } ∧ (∀ j, j ≠ i → t.chip.pps.look j = s.chip.pps.look j) ∧
      t.chip.out = [.pps i false] ∧ OnlyParts s t [] [.pps]) ∧
  -- 7: tbHoldover
  (∀ (s : State) (k : Nat),
    s.runs .aon = true →
    k < 8 →
    s.chip.get (A.tb k) R.TB_CTRL_steer_timeout_ms ≠ 0 →
    s.chip.get (A.tb k) R.TB_STATUS_holdover = 0 →
    (s.chip.tb k).steered + s.chip.get (A.tb k) R.TB_CTRL_steer_timeout_ms * 1000000 ≤ s.chip.now →
    Does (.tbHoldover k) s fun t =>
      t.chip.get (A.tb k) R.TB_STATUS_holdover = 1 ∧ t.chip.get (A.tb k) R.TB_EVENT_holdover = 1 ∧
      t.chip.ledger = s.chip.sent [s.chip.msgOf (0xD050 + k) K.tbHoldover 1] ∧ OnlyLedger s t [A.tb k + R.TB_STATUS, A.tb k + R.TB_EVENT]) ∧
  -- 8: tbHoldover
  (∀ (s : State) (k : Nat),
    s.runs .aon = true →
    s.chip.get (A.tb k) R.TB_CTRL_steer_timeout_ms = 0 ∨ s.chip.now < (s.chip.tb k).steered + s.chip.get (A.tb k) R.TB_CTRL_steer_timeout_ms
      * 1000000 →
    Does (.tbHoldover k) s fun t => OnlyRegs s t []) ∧
  -- 9: tbRefLoss
  (∀ (s : State),
    s.runs .aon = true →
    s.chip.get 0 R.TB_REF_ref_sel = 1 →
    s.chip.get 0 R.TB_REF_ref_lost = 0 →
    Does .tbRefLoss s fun t =>
      t.chip.get 0 R.TB_REF_ref_lost = 1 ∧ t.chip.get 0 R.TB_REF_locked = 0 ∧ t.chip.get 0 R.TB_REF_ref_sel = 1 ∧
      (∀ k, k < 8 → t.chip.get (A.tb k) R.TB_STATUS_ref_holdover = 1) ∧
      t.chip.ledger = s.chip.sent [s.chip.msgOf 0xD030 K.tbRefLoss 2] ∧
        OnlyLedger s t (R.TB_REF :: (List.range 8).map fun j => A.tb j + R.TB_STATUS)) ∧
  -- 10: tbRefSelect
  (∀ (s : State) (src : Source) (sel : Bool),
    s.serves src R.TB_REF true = true →
    Does (.tbRefSelect src sel) s fun t =>
      t.chip.get 0 R.TB_REF_ref_sel = b2n sel ∧ t.chip.get 0 R.TB_REF_ref_lost = 0 ∧ t.chip.get 0 R.TB_REF_locked = 0 ∧
      (∀ k, k < 8 → t.chip.get (A.tb k) R.TB_STATUS_ref_holdover = 1) ∧
      t.chip.ledger = (if s.chip.get 0 R.TB_REF_ref_lost = 1 then
        { s.chip.ledger with ended := s.chip.ledger.ended ++ [(s.chip.suiteUnit 0xD030, K.tbRefLoss)] } else s.chip.ledger) ∧
      OnlyLedger s t (R.TB_REF :: (List.range 8).map fun j => A.tb j + R.TB_STATUS)) ∧
  -- 11: tbPllLock
  (∀ (s : State),
    s.runs .aon = true →
    s.chip.get 0 R.TB_REF_ref_lost = 0 →
    Does .tbPllLock s fun t =>
      t.chip.get 0 R.TB_REF_locked = 1 ∧ t.chip.get 0 R.TB_REF_ref_sel = s.chip.get 0 R.TB_REF_ref_sel ∧
        t.chip.get 0 R.TB_REF_ref_lost = 0 ∧
      (∀ k, k < 8 → t.chip.get (A.tb k) R.TB_STATUS_ref_holdover = 0) ∧
        OnlyRegs s t (R.TB_REF :: (List.range 8).map fun j => A.tb j + R.TB_STATUS)) ∧
  -- 12: tbPllLock
  (∀ (s : State),
    s.runs .aon = true →
    s.chip.get 0 R.TB_REF_ref_lost = 1 →
    Does .tbPllLock s fun t => OnlyRegs s t []) ∧
  -- 13: ppsInEdge
  (∀ (s : State),
    s.runs .aon = true →
    Does .ppsInEdge s fun t =>
      (∀ k, k < 8 → t.chip.reg (A.tb k + R.TB_PPS_NS) = BitVec.ofNat 64 (2 ^ 63 + (s.chip.tb k).nowNs) ∧
        t.chip.get (A.tb k) R.TB_PPS_NS_fresh = 1 ∧
        t.chip.tb k = { s.chip.tb k with ppsSec := (s.chip.tb k).sec } ∧ t.chip.get (A.tb k) R.TB_EVENT_pps_in = 1 ∧
        t.chip.reg (A.tb k + C.tb_pps_captures) = s.chip.reg (A.tb k + C.tb_pps_captures) + 1) ∧
      (∀ k, 8 ≤ k → t.chip.tb k = s.chip.tb k) ∧
      OnlyParts s t ((List.range 8).flatMap fun k => [A.tb k + R.TB_PPS_NS, A.tb k + R.TB_EVENT, A.tb k + C.tb_pps_captures]) [.tbs])

/-- On every member of the port's suite: GATE_EDGE while gates are enabled, and GATE_BASE_TIME once the base time has come, set the gate
states of the entry in force. GCL_WRITE of the shadow list while no swap is armed stores the register's writable bits; a write of the
active list, or of either while a swap is armed, changes no list and is counted, sets active_write and is reported with the port and the
offset written. GATE_SWAP_ARM with a shadow list that passes the check arms with result 0x01, with one that fails it is refused with 0x02
and swap_refused, and while armed with 0x03; GATE_SWAP_CANCEL before the instant disarms with 0x04. GATE_SWAP at the instant makes the
shadow list active, disarms with result 0x05, counts the swap and sets swapped, and the gates take the new list's position; before the
instant it changes nothing. The effect of an edge, a base time and a swap is stated for ports of slices with no copy queued: what they do
to queued frames the statements on scheduling say. Nothing else changes. -/
def Obligations.GatesFollowTheirList : Prop :=
  -- 1: gateEdge
  (∀ (s : State) (p : Nat),
    s.runs .core = true →
    s.chip.portThere p = true →
    s.chip.get (A.port p) R.GATE_CTRL_enable = 1 →
    (∀ q ∈ s.chip.portSet p, (s.chip.sch (q / 16)).copies = []) →
    Does (.gateEdge p) s fun t =>
      (∀ q ∈ s.chip.portSet p, t.chip.get (A.port q) R.GATE_STATUS_gates = s.chip.gatesNow q % 256) ∧
        OnlyParts s t ((s.chip.portSet p).flatMap (fun q => (A.port q + R.GATE_STATUS) :: (List.range 8).map fun k => A.port q + 4 * k +
        R.GATE_WMAX)) [.scheds]) ∧
  -- 2: gateBaseTime
  (∀ (s : State) (p : Nat),
    s.runs .core = true →
    s.chip.portThere p = true →
    s.chip.get (A.port p) R.GATE_STATUS_before_base = 1 →
    s.chip.gclBase p (s.chip.activeList p) ≤ s.chip.gateNow p →
    (∀ q ∈ s.chip.portSet p, (s.chip.sch (q / 16)).copies = []) →
    Does (.gateBaseTime p) s fun t =>
      (∀ q ∈ s.chip.portSet p, t.chip.get (A.port q) R.GATE_STATUS_gates = s.chip.gatesNow q % 256) ∧
      (p ∈ s.chip.portSet p → s.chip.gclCycle p (s.chip.activeList p) ≠ 0 → t.chip.get (A.port p) R.GATE_STATUS_before_base = 0) ∧
        OnlyParts s t ((s.chip.portSet p).flatMap (fun q => (A.port q + R.GATE_STATUS) :: (List.range 8).map fun k => A.port q + 4 * k +
        R.GATE_WMAX)) [.scheds]) ∧
  -- 3: gclWrite
  (∀ (s : State) (src : Source) (addr p o l : Nat) (data : Word) (r : RegRow),
    s.serves src addr true = true →
    Chip.portAddr addr = some (p, o) →
    Chip.gclList o = some l →
    l ≠ s.chip.activeList p →
    s.chip.get (A.port p) R.GATE_STATUS_armed = 0 →
    (∀ q ∈ s.chip.portSet p, regRow (A.port q + o) = some r) →
    Does (.gclWrite src addr data) s fun t =>
      (∀ q ∈ s.chip.portSet p, t.chip.reg (A.port q + o) = (s.chip.reg (A.port q + o) &&& ~~~(BitVec.ofNat 64 r.rw)) ||| (data &&&
        BitVec.ofNat 64 r.rw)) ∧
      OnlyRegs s t ((s.chip.portSet p).map (A.port · + o))) ∧
  -- 4: gclWrite
  (∀ (s : State) (src : Source) (addr p o l : Nat) (data : Word),
    s.serves src addr true = true →
    Chip.portAddr addr = some (p, o) →
    Chip.gclList o = some l →
    l = s.chip.activeList p ∨ s.chip.get (A.port p) R.GATE_STATUS_armed = 1 →
    Does (.gclWrite src addr data) s fun t =>
      t.chip.reg (s.chip.portCnt p + C.gcl_active_write) = s.chip.reg (s.chip.portCnt p + C.gcl_active_write) + 1 ∧
      t.chip.get (s.chip.portCnt p) R.GATE_EVENT_active_write = 1 ∧
      t.chip.ledger = s.chip.sent [s.chip.msgOf (U.port p) K.gclActiveWrite 0 (A.port p + o)] ∧
      OnlyLedger s t [s.chip.portCnt p + C.gcl_active_write, s.chip.portCnt p + R.GATE_EVENT]) ∧
  -- 5: gateSwapArm
  (∀ (s : State) (src : Source) (p : Nat),
    s.serves src (A.port p + 0x88) true = true →
    s.chip.portThere p = true →
    s.chip.get (A.port p) R.GATE_STATUS_armed = 0 →
    s.chip.gclOk p (1 - s.chip.activeList p) = true →
    Does (.gateSwapArm src p) s fun t =>
      (∀ q ∈ s.chip.portSet p, t.chip.get (A.port q) R.GATE_STATUS_armed = 1 ∧ t.chip.get (A.port q) R.GATE_SWAP_arm = 1 ∧
        t.chip.get (A.port q) R.GATE_SWAP_result = 1) ∧
      OnlyParts s t ((s.chip.portSet p).flatMap fun q => [A.port q + R.GATE_STATUS, A.port q + R.GATE_SWAP]) [.ports]) ∧
  -- 6: gateSwapArm
  (∀ (s : State) (src : Source) (p : Nat),
    s.serves src (A.port p + 0x88) true = true →
    s.chip.portThere p = true →
    s.chip.get (A.port p) R.GATE_STATUS_armed = 0 →
    s.chip.gclOk p (1 - s.chip.activeList p) = false →
    Does (.gateSwapArm src p) s fun t =>
      (∀ q ∈ s.chip.portSet p, t.chip.get (A.port q) R.GATE_SWAP_result = 2) ∧ t.chip.get (s.chip.portCnt p) R.GATE_EVENT_swap_refused = 1 ∧
      OnlyRegs s t ((s.chip.portCnt p + R.GATE_EVENT) :: (s.chip.portSet p).map (A.port · + R.GATE_SWAP))) ∧
  -- 7: gateSwapArm
  (∀ (s : State) (src : Source) (p : Nat),
    s.serves src (A.port p + 0x88) true = true →
    s.chip.portThere p = true →
    s.chip.get (A.port p) R.GATE_STATUS_armed = 1 →
    Does (.gateSwapArm src p) s fun t =>
      (∀ q ∈ s.chip.portSet p, t.chip.get (A.port q) R.GATE_SWAP_result = 3) ∧
        OnlyRegs s t ((s.chip.portSet p).map (A.port · + R.GATE_SWAP))) ∧
  -- 8: gateSwapCancel
  (∀ (s : State) (src : Source) (p : Nat),
    s.serves src (A.port p + 0x88) true = true →
    s.chip.portThere p = true →
    s.chip.get (A.port p) R.GATE_STATUS_armed = 1 →
    s.chip.gateNow p < s.chip.swapInstant p →
    Does (.gateSwapCancel src p) s fun t =>
      (∀ q ∈ s.chip.portSet p, t.chip.get (A.port q) R.GATE_STATUS_armed = 0 ∧ t.chip.get (A.port q) R.GATE_SWAP_arm = 0 ∧
        t.chip.get (A.port q) R.GATE_SWAP_result = 4) ∧
      OnlyRegs s t ((s.chip.portSet p).flatMap fun q => [A.port q + R.GATE_STATUS, A.port q + R.GATE_SWAP])) ∧
  -- 9: gateSwap
  (∀ (s : State) (p : Nat),
    s.runs .core = true →
    s.chip.portThere p = true →
    s.chip.get (A.port p) R.GATE_STATUS_armed = 1 →
    s.chip.swapInstant p ≤ s.chip.gateNow p →
    (s.chip.portSet p).Nodup →
    (∀ q ∈ s.chip.portSet p, (s.chip.sch (q / 16)).copies = []) →
    Does (.gateSwap p) s fun t =>
      (∀ q ∈ s.chip.portSet p, t.chip.activeList q = 1 - s.chip.activeList q ∧ t.chip.get (A.port q) R.GATE_STATUS_armed = 0 ∧
        t.chip.get (A.port q) R.GATE_SWAP_arm = 0 ∧
        t.chip.get (A.port q) R.GATE_SWAP_result = 5 ∧ t.chip.get (A.port q) R.GATE_STATUS_gates = t.chip.gatesNow q % 256) ∧
      t.chip.reg (s.chip.portCnt p + C.gate_swaps) = s.chip.reg (s.chip.portCnt p + C.gate_swaps) + 1 ∧
        t.chip.get (s.chip.portCnt p) R.GATE_EVENT_swapped = 1 ∧
      OnlyParts s t ([s.chip.portCnt p + C.gate_swaps, s.chip.portCnt p + R.GATE_EVENT] ++ (s.chip.portSet p).map (A.port · + R.GATE_SWAP)
        ++ (s.chip.portSet p).flatMap (fun q => (A.port q + R.GATE_STATUS) :: (List.range 8).map fun k => A.port q + 4 * k + R.GATE_WMAX))
        [.scheds]) ∧
  -- 10: gateSwap
  (∀ (s : State) (p : Nat),
    s.runs .core = true →
    s.chip.get (A.port p) R.GATE_STATUS_armed = 0 ∨ s.chip.gateNow p < s.chip.swapInstant p →
    Does (.gateSwap p) s fun t => OnlyRegs s t [])

/-- MEM_FILL with go, of a row-aligned range inside the selected group whose owner is held in reset, outside the housekeeper's areas of the
keepsake store and with no remap or fill running, starts the fill; else it is refused with result 0x01, 0x02, 0x03 or 0x04, and without
go it changes nothing. FILL_COMPLETE ends it with result 0: the range's rows are filled, its poison is gone, and in the keepsake store
its bytes hold the pattern; every other memory group keeps its errors, and beside the contents of memories nothing changes. SCRUB_READ
moves on to the next word: an uncorrectable one is poisoned, counted in scrub_ue and reported at severity 2; a correctable one is counted
in ce_bytes and scrub_corrected; a clean one, or one whose row is being remapped, changes nothing else; past the last filled row the walk
starts again and counts a pass. -/
def Obligations.MemoryGroupsAreFilledAndScrubbed : Prop :=
  -- 1: memFill
  (∀ (s : State) (src : Source) (data : Word) (u start count : Nat),
    s.serves src 0x500C true = true →
    s.chip.selGroup = some u →
    bit data 31 = true →
    start = s.chip.get (A.group u) R.MEM_FILL_START_word →
    count = s.chip.get (A.group u) R.MEM_FILL_COUNT_count →
    start % 64 = 0 ∧ count % 64 = 0 ∧ 64 ≤ count ∧ start + count ≤ s.chip.groupRows u * 64 →
    s.chip.ownerHeld u = true →
    (u = 0xD048 → 0x10000 * 8 ≤ start) →
    (s.chip.grp u).remapping = none →
    (s.chip.grp u).filling = none →
    Does (.memFill src data) s fun t =>
      t.chip.grp u = { s.chip.grp u with filling := some (start, count, s.chip.get (A.group u) R.MEM_FILL_PATTERN_pattern) } ∧
      (∀ v, v ≠ u → t.chip.grp v = s.chip.grp v) ∧
      t.chip.get (A.group u) R.MEM_FILL_busy = 1 ∧ OnlyParts s t [A.group u + R.MEM_FILL] [.mem]) ∧
  -- 2: memFill
  (∀ (s : State) (src : Source) (data : Word) (u start count r : Nat),
    s.serves src 0x500C true = true →
    s.chip.selGroup = some u →
    bit data 31 = true →
    start = s.chip.get (A.group u) R.MEM_FILL_START_word →
    count = s.chip.get (A.group u) R.MEM_FILL_COUNT_count →
    (r = (if start % 64 ≠ 0 ∨ count % 64 ≠ 0 ∨ count < 64 ∨ s.chip.groupRows u * 64 < start + count then 1 else if s.chip.ownerHeld u =
      false then 2 else if u = 0xD048 ∧ start < 0x10000 * 8 then 3 else if (s.chip.grp u).remapping ≠ none ∨
      (s.chip.grp u).filling ≠ none then 4 else 0)) →
    r ≠ 0 →
    Does (.memFill src data) s fun t => t.chip.get (A.group u) R.MEM_FILL_result = r ∧ OnlyRegs s t [A.group u + R.MEM_FILL]) ∧
  -- 3: memFill
  (∀ (s : State) (src : Source) (data : Word),
    s.serves src 0x500C true = true →
    bit data 31 = false ∨ s.chip.selGroup = none →
    Does (.memFill src data) s fun t => OnlyRegs s t []) ∧
  -- 4: fillComplete
  (∀ (s : State) (u start count pat : Nat),
    s.runs .core = true →
    (s.chip.grp u).filling = some (start, count, pat) →
    Does (.fillComplete u) s fun t =>
      (t.chip.grp u).filling = none ∧ (t.chip.grp u).filled = (s.chip.grp u).filled ++ [(start / 64, count / 64)] ∧
      (t.chip.grp u).poison = (s.chip.grp u).poison.filter (fun w => !(decide (start ≤ w) && decide (w < start + count))) ∧
      (t.chip.grp u).soft = (s.chip.grp u).soft.filter (fun w => !(decide (start ≤ w.1) && decide (w.1 < start + count))) ∧
      (∀ v, v ≠ u → t.chip.grp v = s.chip.grp v) ∧
      t.chip.get (A.group u) R.MEM_FILL_busy = 0 ∧ t.chip.get (A.group u) R.MEM_FILL_result = 0 ∧ t.fuses = s.fuses ∧ (u ≠ 0xD048 →
        t.nv = s.nv) ∧
      OnlyDev s t ([A.group u + R.MEM_FILL, C.keepsake_line_writes] ++ s.chip.emRegs (U.index u / 0x200) ++ (List.range 256).map fun i =>
        A.slice (U.index u / 0x200) + R.RES_PROFILE + 4 * i)
        [.mem, .em, .lpm, .tcam, .objects, .records, .scheds, .innkeepers]) ∧
  -- 5: fillComplete
  (∀ (s : State) (start count pat i : Nat),
    s.runs .core = true →
    (s.chip.grp 0xD048).filling = some (start, count, pat) →
    i < 8 * count →
    Memory.wf s.nv.mem = true →
    Does (.fillComplete 0xD048) s fun t => t.nv.mem.look (8 * start + i) = BitVec.ofNat 8 (pat % 2 ^ 32 / 256 ^ (i % 4) % 256)) ∧
  -- 6: scrubRead
  (∀ (s : State) (u w ecc byte pos : Nat),
    s.runs .aon = true →
    isMemGroup u = true ∧ s.chip.present u = true ∧ s.chip.get (A.group u) R.MEM_SCRUB_enable = 1 →
    ((match U.sliceOf u with | some k => s.chip.house.sleep.look k == 0 | none => true) = true) →
    (s.chip.grp u).isFilled (w / 64) = true →
    (s.chip.grp u).scrubAt = w →
    (((s.chip.grp u).remapping.any fun r => r.1 == w / 64) = false) →
    ecc = 2 ∨ s.chip.poisoned u w = true →
    Does (.scrubRead u ecc byte pos) s fun t =>
      w ∈ (t.chip.grp u).poison ∧ (t.chip.grp u).scrubAt = w + 1 ∧
        t.chip.reg (A.group u + C.scrub_ue) = s.chip.reg (A.group u + C.scrub_ue) + 1 ∧
      t.chip.get (A.group u) R.MEM_EVENT_uncorrectable = 1 ∧ (t.chip.ledger.transit.getLast?.map fun m => (m.source, m.kind, m.sev,
        m.addr)) = some (s.chip.suiteUnit u, K.memUncorrectable, 2, w) ∧
      t.chip.ledger.transit.length = s.chip.ledger.transit.length + 1 ∧ (∀ v, v ≠ u → t.chip.grp v = s.chip.grp v) ∧
      OnlyParts s t [A.group u + C.scrub_ue, A.group u + R.MEM_EVENT] [.mem, .ledger]) ∧
  -- 7: scrubRead
  (∀ (s : State) (u w byte pos : Nat),
    s.runs .aon = true →
    isMemGroup u = true ∧ s.chip.present u = true ∧ s.chip.get (A.group u) R.MEM_SCRUB_enable = 1 →
    ((match U.sliceOf u with | some k => s.chip.house.sleep.look k == 0 | none => true) = true) →
    (s.chip.grp u).isFilled (w / 64) = true →
    (s.chip.grp u).scrubAt = w →
    (((s.chip.grp u).remapping.any fun r => r.1 == w / 64) = false) →
    s.chip.poisoned u w = false →
    (((s.chip.grp u).soft.any fun x => x.1 == w) = false) →
    Does (.scrubRead u 1 byte pos) s fun t =>
      (t.chip.grp u).scrubAt = w + 1 ∧ (t.chip.grp u).poison = (s.chip.grp u).poison ∧
      t.chip.reg (A.group u + C.ce_bytes) = s.chip.reg (A.group u + C.ce_bytes) + 1 ∧
      t.chip.reg (A.group u + C.scrub_corrected) = s.chip.reg (A.group u + C.scrub_corrected) + 1 ∧
      (∀ v, v ≠ u → t.chip.grp v = s.chip.grp v) ∧
      OnlyParts s t (errRegs u ++ [A.group u + C.scrub_corrected]) [.mem, .ledger]) ∧
  -- 8: scrubRead
  (∀ (s : State) (u w x byte pos : Nat),
    s.runs .aon = true →
    isMemGroup u = true ∧ s.chip.present u = true ∧ s.chip.get (A.group u) R.MEM_SCRUB_enable = 1 →
    ((match U.sliceOf u with | some k => s.chip.house.sleep.look k == 0 | none => true) = true) →
    (s.chip.grp u).isFilled (w / 64) = true →
    (s.chip.grp u).scrubAt = w →
    (((s.chip.grp u).remapping.any fun r => r.1 == w / 64) = false) →
    s.chip.poisoned u w = false →
    ((s.chip.grp u).soft.find? (fun y => y.1 == w) = some (w, x)) →
    Does (.scrubRead u 0 byte pos) s fun t =>
      (t.chip.grp u).scrubAt = w + 1 ∧ (∀ y ∈ (t.chip.grp u).soft, y.1 ≠ w) ∧
      t.chip.reg (A.group u + C.ce_bytes) = s.chip.reg (A.group u + C.ce_bytes) + 1 ∧
      t.chip.reg (A.group u + C.scrub_corrected) = s.chip.reg (A.group u + C.scrub_corrected) + 1 ∧
      OnlyParts s t (errRegs u ++ [A.group u + C.scrub_corrected]) [.mem, .ledger]) ∧
  -- 9: scrubRead
  (∀ (s : State) (u w byte pos : Nat),
    s.runs .aon = true →
    isMemGroup u = true ∧ s.chip.present u = true ∧ s.chip.get (A.group u) R.MEM_SCRUB_enable = 1 →
    ((match U.sliceOf u with | some k => s.chip.house.sleep.look k == 0 | none => true) = true) →
    (s.chip.grp u).isFilled (w / 64) = true →
    (s.chip.grp u).scrubAt = w →
    (((s.chip.grp u).remapping.any fun r => r.1 == w / 64) = true ∨ (s.chip.poisoned u w = false ∧
      ((s.chip.grp u).soft.any fun x => x.1 == w) = false)) →
    Does (.scrubRead u 0 byte pos) s fun t => t.chip.grp u = { s.chip.grp u with scrubAt := w + 1 } ∧ (∀ v, v ≠ u →
      t.chip.grp v = s.chip.grp v) ∧ OnlyParts s t [] [.mem]) ∧
  -- 10: scrubRead
  (∀ (s : State) (u ecc byte pos : Nat),
    s.runs .aon = true →
    isMemGroup u = true ∧ s.chip.present u = true ∧ s.chip.get (A.group u) R.MEM_SCRUB_enable = 1 →
    ((match U.sliceOf u with | some k => s.chip.house.sleep.look k == 0 | none => true) = true) →
    (s.chip.grp u).filled ≠ [] →
    (∀ r ∈ (s.chip.grp u).filled, (r.1 + r.2) * 64 ≤ (s.chip.grp u).scrubAt) →
    Does (.scrubRead u ecc byte pos) s fun t =>
      t.chip.grp u = { s.chip.grp u with scrubAt := 0 } ∧ t.chip.get (A.group u) R.MEM_SCRUB_pass =
        (s.chip.get (A.group u) R.MEM_SCRUB_pass + 1) % 256 ∧
      t.chip.reg (A.group u + C.scrub_passes) = s.chip.reg (A.group u + C.scrub_passes) + 1 ∧
        OnlyParts s t [A.group u + R.MEM_SCRUB, A.group u + C.scrub_passes] [.mem])

/-- MEM_REMAP with go and op remap starts the move of a row of the selected group to the next spare of its block; a row out of range gives
result 1, a running remap or fill result 3, a block without a free spare result 2 with the spare_exhausted event and MEM_SPARE_EXHAUSTED
at severity 2. REMAP_COMPLETE maps the row to the spare, clears its entries of the logged-address table, counts the remap, gives result 0
and puts its record in line for the keepsake store while fewer than 16 wait. MEM_REMAP_CLEAR with go and op clear puts the deletion of
the row's record in line and gives result 0, or result 1 for a row out of range; the row stays mapped. The other groups and the rest of
the device stay. -/
def Obligations.RowsMoveToSpares : Prop :=
  -- 1: memRemap
  (∀ (s : State) (src : Source) (data : Word) (u row : Nat),
    s.serves src 0x501C true = true →
    s.chip.selGroup = some u →
    bit data 31 = true →
    bit data 30 = false →
    row = bits data 17 0 →
    row < s.chip.groupRows u →
    (s.chip.grp u).remapping = none →
    (s.chip.grp u).filling = none →
    (s.chip.grp u).sparesUsed.look (row / 1024) < 2 →
    Does (.memRemap src data) s fun t =>
      t.chip.grp u = { s.chip.grp u with remapping := some (row, (s.chip.grp u).sparesUsed.look (row / 1024)), sparesUsed := (s.chip.grp u).sparesUsed.set (row / 1024) ((s.chip.grp u).sparesUsed.look (row / 1024) + 1) }
        ∧
      (∀ v, v ≠ u → t.chip.grp v = s.chip.grp v) ∧
      t.chip.get (A.group u) R.MEM_REMAP_busy = 1 ∧ t.chip.get (A.group u) R.MEM_REMAP_row = row ∧
        OnlyParts s t [A.group u + R.MEM_REMAP] [.mem]) ∧
  -- 2: memRemap
  (∀ (s : State) (src : Source) (data : Word) (u row : Nat),
    s.serves src 0x501C true = true →
    s.chip.selGroup = some u →
    bit data 31 = true →
    bit data 30 = false →
    row = bits data 17 0 →
    s.chip.groupRows u ≤ row ∨ (s.chip.grp u).remapping ≠ none ∨ (s.chip.grp u).filling ≠ none →
    Does (.memRemap src data) s fun t =>
      t.chip.get (A.group u) R.MEM_REMAP_result = (if s.chip.groupRows u ≤ row then 1 else 3) ∧ OnlyRegs s t [A.group u + R.MEM_REMAP]) ∧
  -- 3: memRemap
  (∀ (s : State) (src : Source) (data : Word) (u row : Nat),
    s.serves src 0x501C true = true →
    s.chip.selGroup = some u →
    bit data 31 = true →
    bit data 30 = false →
    row = bits data 17 0 →
    row < s.chip.groupRows u →
    (s.chip.grp u).remapping = none →
    (s.chip.grp u).filling = none →
    2 ≤ (s.chip.grp u).sparesUsed.look (row / 1024) →
    Does (.memRemap src data) s fun t =>
      t.chip.get (A.group u) R.MEM_REMAP_result = 2 ∧ t.chip.get (A.group u) R.MEM_EVENT_spare_exhausted = 1 ∧
      t.chip.ledger = s.chip.sent [s.chip.msgOf u K.spareExhausted 2] ∧ OnlyLedger s t [A.group u + R.MEM_REMAP, A.group u + R.MEM_EVENT]) ∧
  -- 4: remapComplete
  (∀ (s : State) (u row spare : Nat),
    s.runs .core = true →
    (s.chip.grp u).remapping = some (row, spare) →
    Does (.remapComplete u) s fun t =>
      (t.chip.grp u).remapping = none ∧ (t.chip.grp u).remaps = (row,
        row / 1024 * 2 + spare) :: (s.chip.grp u).remaps.filter (fun r => r.1 != row) ∧
      (t.chip.grp u).poison = (s.chip.grp u).poison ∧ (t.chip.grp u).filled = (s.chip.grp u).filled ∧
      (∀ i, i < 32 → bit (t.chip.logEntry u i) 63 = true → bits (t.chip.logEntry u i) 23 0 / 64 ≠ row) ∧ (∀ v, v ≠ u →
        t.chip.grp v = s.chip.grp v) ∧
      t.chip.house = { s.chip.house with queue := if s.chip.house.queue.length < 16 then s.chip.house.queue ++ [.remap u row (row / 1024 * 2 + spare)] else s.chip.house.queue }
        ∧
      t.chip.get (A.group u) R.MEM_REMAP_busy = 0 ∧ t.chip.get (A.group u) R.MEM_REMAP_result = 0 ∧
      t.chip.reg (A.group u + C.remaps) = s.chip.reg (A.group u + C.remaps) + 1 ∧
        OnlyParts s t [A.group u + R.MEM_REMAP, A.group u + C.remaps] [.mem, .house]) ∧
  -- 5: memRemapClear
  (∀ (s : State) (src : Source) (data : Word) (u : Nat),
    s.serves src 0x501C true = true →
    s.chip.selGroup = some u →
    bit data 31 = true →
    bit data 30 = true →
    bits data 17 0 < s.chip.groupRows u →
    Does (.memRemapClear src data) s fun t =>
      t.chip.house = { s.chip.house with queue := if s.chip.house.queue.length < 16 then s.chip.house.queue ++ [.unmap u (bits data 17 0)] else s.chip.house.queue }
        ∧
      t.chip.get (A.group u) R.MEM_REMAP_result = 0 ∧ OnlyParts s t [A.group u + R.MEM_REMAP] [.house]) ∧
  -- 6: memRemapClear
  (∀ (s : State) (src : Source) (data : Word) (u : Nat),
    s.serves src 0x501C true = true →
    s.chip.selGroup = some u →
    bit data 31 = true →
    bit data 30 = true →
    s.chip.groupRows u ≤ bits data 17 0 →
    Does (.memRemapClear src data) s fun t => t.chip.get (A.group u) R.MEM_REMAP_result = 1 ∧ OnlyRegs s t [A.group u + R.MEM_REMAP])

/-- FIFO_SWAP with the draining bank empty and the filling bank full, or not empty and waited out, makes the filled bank the draining one;
else it changes nothing. FIFO_FLUSH asks for a flush of the FIFO, in every member of a slice suite, and FIFO_FLUSH_EFFECT empties both
banks and, where the producer was partway through an item, sets PARTIAL_DISCARDED. WINDOW_COMMAND_COMPLETE of a busy window whose slice
is awake and whose result is known writes its code, poison and, where it has them, data, state, sequence number and index, and clears
busy; a window that is not busy or whose slice sleeps is left. No other FIFO, window or part of the device changes. -/
def Obligations.FifosSwapAndFlush : Prop :=
  -- 1: fifoSwap
  (∀ (s : State) (f : Nat),
    s.runs .core = true →
    s.chip.fifoThere f = true →
    (s.chip.fifos.look f).draining = [] →
    (s.chip.fifos.look f).filling ≠ [] →
    fifoCap f / 2 ≤ (s.chip.fifos.look f).filling.length ∨ s.chip.passedUs (s.chip.fifos.look f).since (s.chip.get (fifoBase f) ⟨0, 15,
      0⟩) = true →
    Does (.fifoSwap f) s fun t =>
      t.chip.fifos.look f =
        { s.chip.fifos.look f with draining := (s.chip.fifos.look f).filling, filling := [], bank := 1 - (s.chip.fifos.look f).bank } ∧
      (∀ g, g ≠ f → t.chip.fifos.look g = s.chip.fifos.look g) ∧ OnlyParts s t [fifoBase f + 4] [.fifos]) ∧
  -- 2: fifoSwap
  (∀ (s : State) (f : Nat),
    s.runs .core = true →
    (s.chip.fifos.look f).draining ≠ [] ∨ (s.chip.fifos.look f).filling = [] →
    Does (.fifoSwap f) s fun t => OnlyRegs s t []) ∧
  -- 3: fifoFlush
  (∀ (s : State) (src : Source) (f : Nat),
    s.serves src (fifoBase f) true = true →
    s.chip.fifoThere f = true →
    Does (.fifoFlush src f) s fun t =>
      (∀ g ∈ s.chip.fifoMembers f, t.chip.fifos.look g = { s.chip.fifos.look g with flush := true }) ∧
      (∀ g, g ∉ s.chip.fifoMembers f → t.chip.fifos.look g = s.chip.fifos.look g) ∧ OnlyParts s t [] [.fifos]) ∧
  -- 4: fifoFlushEffect
  (∀ (s : State) (f : Nat) (partway : Bool),
    s.runs .core = true →
    s.chip.fifoThere f = true →
    (s.chip.fifos.look f).flush = true →
    Does (.fifoFlushEffect f partway) s fun t =>
      t.chip.fifos.look f = { s.chip.fifos.look f with filling := [], draining := [], hurt := [], flush := false } ∧
      (∀ g, g ≠ f → t.chip.fifos.look g = s.chip.fifos.look g) ∧
      (partway = true → t.chip.get (s.chip.fifoTop f) ⟨4, 29, 29⟩ = 1) ∧
      t.chip.get (fifoBase f) ⟨4, 12, 0⟩ = 0 ∧ OnlyParts s t [fifoBase f + 4, s.chip.fifoTop f + 4] [.fifos]) ∧
  -- 5: fifoFlushEffect
  (∀ (s : State) (f : Nat) (partway : Bool),
    s.runs .core = true →
    (s.chip.fifos.look f).flush = false →
    Does (.fifoFlushEffect f partway) s fun t => OnlyRegs s t []) ∧
  -- 6: windowCommandComplete
  (∀ (s : State) (base : Nat) (r : WinRes),
    s.runs .core = true →
    s.chip.wins.look base = some r →
    s.chip.winBusy base = true →
    s.chip.winAwake base = true →
    Does (.windowCommandComplete base) s fun t =>
      t.chip.get (base + 8) R.WIN_STATUS_busy = 0 ∧ t.chip.get (base + 8) R.WIN_STATUS_code = r.code % 16 ∧
      t.chip.get (base + 8) R.WIN_STATUS_poison = b2n r.poison ∧ (∀ v, r.state = some v →
        t.chip.get (base + 8) R.WIN_STATUS_state = v % 256) ∧
      (∀ v, r.seq = some v → t.chip.get (base + 8) R.WIN_STATUS_seq = v % 65536) ∧ (∀ v, r.index = some v →
        t.chip.get base R.WIN_ADDR_index = v % 2 ^ 24) ∧
      (∀ e, r.data = some e → t.chip.winData base = e) ∧
      t.chip.wins.look base = none ∧ (∀ b, b ≠ base → t.chip.wins.look b = s.chip.wins.look b) ∧ OnlyParts s t (winRegs base) [.wins]) ∧
  -- 7: windowCommandComplete
  (∀ (s : State) (base : Nat),
    s.runs .core = true →
    s.chip.winBusy base = false ∨ s.chip.winAwake base = false →
    Does (.windowCommandComplete base) s fun t => OnlyRegs s t [])

/-- REGISTER_WRITE of four bytes to a register with no effect beyond the access codes of its fields: RW bits take the value, W1C bits written
1 clear, in every member of a suite, staged bits change in the staged copy alone, and nothing else changes. A write of a counter, of an
address without a register, or one that is not aligned, changes nothing. A write of a time base's register by its owner, of four bytes,
of all eight of a 64-bit register or of its upper half, acts by the codes; by another source it is ignored and counted. A write of
CHIP_RESET with its key does what SOFTWARE_CHIP_RESET does. RC_FIELD_READ of registers without a read effect returns their bytes and
changes nothing; a read of ACCORD_RETIRED takes the oldest retirement, one of a free LATCHKEY_TAKE takes it, one of TB_NOW_NS latches the
seconds, and one of the upper half of TB_PPS_NS clears fresh and latches its seconds. SUITE_QUERY answers for the unit: 0 if absent,
itself if in no suite, else the suite with its member count and the unit's position. In the model a time base owner's ignored write is
counted by the design choice of log entry 53. -/
def Obligations.RegisterAccesses : Prop :=
  -- 1: registerWrite
  (∀ (s : State) (src : Source) (a : Nat) (r : RegRow) (v : Word),
    s.serves src a true = true →
    a % 4 = 0 →
    Chip.rowAt a = some r →
    regRow a = some r →
    r.counter = false →
    codeOnly a = true →
    Does (.registerWrite src a 4 v) s fun t =>
      (∀ b ∈ s.chip.copiesOf a, t.chip.reg b = coded r (s.chip.reg b) (BitVec.ofNat 64 (bits v 31 0)) 0xFFFFFFFF) ∧
      (BitVec.ofNat 64 r.sg &&& 0xFFFFFFFF ≠ 0 →
        t.chip.staged.look a = some (merge ((s.chip.staged.look a).getD (t.chip.reg a)) (BitVec.ofNat 64 (bits v 31 0)) (BitVec.ofNat 64
          r.sg &&& 0xFFFFFFFF))) ∧
      (∀ b, b ≠ a → t.chip.staged.look b = s.chip.staged.look b) ∧
      OnlyParts s t (s.chip.copiesOf a) [.staged, .since, .host]) ∧
  -- 2: registerWrite
  (∀ (s : State) (src : Source) (k o : Nat) (r : RegRow) (v : Word),
    s.serves src (A.tb k + o) true = true →
    k < 8 ∧ o % 8 = 0 ∧ o < 0xF8 →
    Chip.rowAt (A.tb k + o) = some r →
    regRow (A.tb k + o) = some r →
    r.counter = false →
    r.wide = true →
    s.chip.tbMayWrite src k = true →
    Does (.registerWrite src (A.tb k + o) 8 v) s fun t =>
      t.chip.reg (A.tb k + o) = coded r (s.chip.reg (A.tb k + o)) v (~~~(0 : Word)) ∧
      (r.sg ≠ 0 → r.sg < 2 ^ 64 →
        t.chip.staged.look (A.tb k + o) = some (merge ((s.chip.staged.look (A.tb k + o)).getD (t.chip.reg (A.tb k + o))) v (BitVec.ofNat 64
          r.sg))) ∧
      (∀ b, b ≠ A.tb k + o → t.chip.staged.look b = s.chip.staged.look b) ∧
      OnlyParts s t [A.tb k + o] [.staged, .since, .host]) ∧
  -- 3: registerWrite
  (∀ (s : State) (src : Source) (k o : Nat) (r : RegRow) (v : Word),
    s.serves src (A.tb k + o + 4) true = true →
    k < 8 ∧ o % 8 = 0 ∧ o < 0xF8 →
    Chip.rowAt (A.tb k + o + 4) = none →
    Chip.rowAt (A.tb k + o) = some r →
    regRow (A.tb k + o) = some r →
    r.counter = false →
    r.wide = true →
    s.chip.tbMayWrite src k = true →
    Does (.registerWrite src (A.tb k + o + 4) 4 v) s fun t =>
      t.chip.reg (A.tb k + o) = coded r (s.chip.reg (A.tb k + o)) (BitVec.ofNat 64 (bits v 31 0 * 2 ^ 32)) 0xFFFFFFFF00000000 ∧
      (∀ b, b ≠ A.tb k + o → t.chip.staged.look b = s.chip.staged.look b) ∧
      OnlyParts s t [A.tb k + o] [.staged, .since, .host]) ∧
  -- 4: registerWrite
  (∀ (s : State) (src : Source) (a n : Nat) (v : Word),
    s.serves src a true = true →
    resetKey a v = false →
    sizeOk a n = false ∨ (n = 4 ∧ Chip.isMailData a = false ∧ Chip.rowAt a = none ∧ Chip.rowAt (a - 4) = none) ∨ (n = 4 ∧ (a < 0x5004 ∨
      0x5100 ≤ a) ∧ Chip.isMailData a = false ∧ (Chip.rowAt a).any RegRow.counter = true) →
    Does (.registerWrite src a n v) s fun t => OnlyParts s t [] [.host]) ∧
  -- 5: registerWrite
  (∀ (s : State) (src : Source) (k o : Nat) (r : RegRow) (v : Word),
    s.serves src (A.tb k + o) true = true →
    k < 8 →
    o % 4 = 0 ∧ o < 0x100 ∧ o ≠ R.TB_ACCESS ∧ o ≠ 0xF8 →
    Chip.rowAt (A.tb k + o) = some r →
    regRow (A.tb k + o) = some r →
    r.counter = false →
    Does (.registerWrite src (A.tb k + o) 4 v) s fun t =>
      (s.chip.tbMayWrite src k = true →
        t.chip.reg (A.tb k + o) = coded r (s.chip.reg (A.tb k + o)) (BitVec.ofNat 64 (bits v 31 0)) 0xFFFFFFFF ∧
          OnlyParts s t [A.tb k + o] [.staged, .since, .host]) ∧
      (s.chip.tbMayWrite src k = false →
        t.chip.reg (A.tb k + C.tb_foreign_write) = s.chip.reg (A.tb k + C.tb_foreign_write) + 1 ∧
          t.chip.get (A.tb k) R.TB_EVENT_foreign_write = 1 ∧
        OnlyParts s t [A.tb k + C.tb_foreign_write, A.tb k + R.TB_EVENT] [.host])) ∧
  -- 6: registerWrite
  (∀ (s : State) (src : Source) (v : Word),
    s.serves src R.CHIP_RESET true = true →
    bits v 31 16 = 0x5AFE →
    bit v 0 = true →
    Does (.registerWrite src R.CHIP_RESET 4 v) s fun t => exec (.softwareChipReset src 0x5AFE) s = .next t) ∧
  -- 7: rcFieldRead
  (∀ (s : State) (src : Source) (a n : Nat),
    s.serves src a false = true →
    sizeOk a n = true →
    readEffect a = false →
    (n = 8 → readEffect (a + 4) = false) →
    Does (.rcFieldRead src a n) s fun t =>
      (n = 4 → t.chip.busData = BitVec.ofNat 64 (s.chip.quiet.peek32 s.nv a)) ∧
      (n = 8 → t.chip.busData = BitVec.ofNat 64 (s.chip.quiet.peek32 s.nv a) + BitVec.ofNat 64 (s.chip.quiet.peek32 s.nv (a + 4)) <<< 32) ∧
        OnlyParts s t [] []) ∧
  -- 8: rcFieldRead
  (∀ (s : State) (src : Source) (a n : Nat),
    s.serves src a false = true →
    sizeOk a n = false →
    Does (.rcFieldRead src a n) s fun t => t.chip.busData = 0 ∧ OnlyRegs s t []) ∧
  -- 9: rcFieldRead
  (∀ (s : State) (src : Source) (n : Nat) (l : List Nat),
    s.serves src R.ACCORD_RETIRED false = true →
    s.chip.accord.retired = n :: l →
    n < 65536 →
    Does (.rcFieldRead src R.ACCORD_RETIRED 4) s fun t =>
      t.chip.accord = { s.chip.accord with retired := l, overrun := false } ∧ bits t.chip.busData 15 0 = n ∧ bits t.chip.busData 31 31 = 1 ∧
      OnlyParts s t [] [.accord]) ∧
  -- 10: rcFieldRead
  (∀ (s : State) (src : Source) (k : Nat),
    s.serves src (R.LATCHKEY_TAKE + 4 * k) false = true →
    k < 64 →
    (s.chip.latch k).owner = 0 →
    Does (.rcFieldRead src (R.LATCHKEY_TAKE + 4 * k) 4) s fun t =>
      t.chip.latch k = { s.chip.latch k with owner := srcUnit src, fn := srcFn src } ∧
      t.chip.busData = latchWord { s.chip.latch k with owner := srcUnit src, fn := srcFn src } true ∧
      (∀ j, j ≠ k → t.chip.latch j = s.chip.latch j) ∧ OnlyLedger s t []) ∧
  -- 11: rcFieldRead
  (∀ (s : State) (src : Source) (k n : Nat),
    s.serves src (A.tb k + R.TB_NOW_NS) false = true →
    k < 8 →
    n = 4 ∨ n = 8 →
    Does (.rcFieldRead src (A.tb k + R.TB_NOW_NS) n) s fun t =>
      t.chip.reg (A.tb k + R.TB_NOW_SEC) = BitVec.ofNat 64 (s.chip.tb k).sec ∧ OnlyRegs s t [A.tb k + R.TB_NOW_SEC]) ∧
  -- 12: rcFieldRead
  (∀ (s : State) (src : Source) (k n : Nat),
    (s.serves src (A.tb k + R.TB_PPS_NS + (if n = 4 then 4 else 0)) false = true) →
    k < 8 →
    n = 4 ∨ n = 8 →
    Does (.rcFieldRead src (A.tb k + R.TB_PPS_NS + (if n = 4 then 4 else 0)) n) s fun t =>
      t.chip.get (A.tb k) R.TB_PPS_NS_fresh = 0 ∧ t.chip.reg (A.tb k + R.TB_PPS_SEC) = BitVec.ofNat 64 (s.chip.tb k).ppsSec ∧
      OnlyRegs s t [A.tb k + R.TB_PPS_NS, A.tb k + R.TB_PPS_SEC]) ∧
  -- 13: suiteQuery
  (∀ (s : State) (src : Source) (u : Nat),
    s.serves src R.SUITE_QUERY true = true →
    u < 65536 →
    Does (.suiteQuery src u) s fun t =>
      (s.chip.present u = false → t.chip.reg R.SUITE_RESULT = 0) ∧
      (s.chip.present u = true → s.chip.suiteOf u = none → t.chip.reg R.SUITE_RESULT = BitVec.ofNat 64 u) ∧
      (∀ m, s.chip.present u = true → s.chip.suiteOf u = some m →
        t.chip.reg R.SUITE_RESULT = BitVec.ofNat 64 (2 ^ 31 + m.length % 256 * 2 ^ 23 + m.idxOf u % 128 * 2 ^ 16 + s.chip.suiteUnit u)) ∧
      t.chip.get 0 R.SUITE_QUERY_unit_id = u ∧ OnlyRegs s t [R.SUITE_QUERY, R.SUITE_RESULT])

/-- APPLY_GO of a domain whose staged values break no check, with no apply pending, no member's domain held in reset and none of its slices
asleep, takes the snapshot for every member, clears apply_err and sets pending and the tag; it is refused with reason 0x07 while an apply
is pending, else 0x06 where a member's domain is held in reset, else with the lowest reason of the checks its staged values break, sets
apply_err and err_irq, and the staged and live copies stay. APPLY_TAKE_EFFECT of a plane makes the snapshot live and one with the staged
copy and clears pending; of an HBM stack at its boundary it clears pending. APPLY_TIMEOUT 10 ms after the go withdraws it with reason
0x08, before then it changes nothing. APPLY_REVERT leaves no staged value that differs from the live one; while a go is pending the live
values stay staged. Nothing else changes. -/
def Obligations.StagedRegistersApply : Prop :=
  -- 1: applyGo
  (∀ (s : State) (src : Source) (b z tag : Nat),
    s.serves src (b + z - 8) true = true →
    domainOf (b + z - 8) = some (b, z) →
    b + z - 8 < 0x40000 ∨ 0x40800 ≤ b + z - 8 ∨ s.chip.tbMayWrite src ((b + z - 8 - 0x40000) / 0x100) = true →
    tag < 65536 →
    s.chip.applies.look b = none →
    (s.chip.copiesOf b).any s.chip.domainHeld = false →
    s.chip.applyReasons b = [] →
    (((s.chip.copiesOf b).any fun x => (U.sliceOf (domainUnit x)).any fun k => s.chip.house.sleep.look k == 2) = false) →
    Does (.applyGo src (b + z - 8) tag) s fun t =>
      (t.chip.applies.look b = some { snap := s.chip.stagedAll b z, left := s.chip.copiesOf b, since := s.chip.now }) ∧
      (∀ x, x ≠ b → t.chip.applies.look x = s.chip.applies.look x) ∧
      bits (t.chip.reg (b + z - 4)) 31 30 = 2 ∧ bits (t.chip.reg (b + z - 4)) 23 0 = tag ∧
      OnlyParts s t [b + z - 8, b + z - 4, b + R.TB_STATUS, R.AVS_STATUS] [.applies, .since, .records, .tbs, .ledger]) ∧
  -- 2: applyGo
  (∀ (s : State) (src : Source) (b z tag r : Nat),
    s.serves src (b + z - 8) true = true →
    domainOf (b + z - 8) = some (b, z) →
    b + z - 8 < 0x40000 ∨ 0x40800 ≤ b + z - 8 ∨ s.chip.tbMayWrite src ((b + z - 8 - 0x40000) / 0x100) = true →
    tag < 65536 →
    ((if s.chip.applyPending b then some 7 else if (s.chip.copiesOf b).any s.chip.domainHeld then some 6 else (s.chip.applyReasons b).min?)
      = some r) →
    Does (.applyGo src (b + z - 8) tag) s fun t =>
      bits (t.chip.reg (b + z - 4)) 30 30 = 1 ∧ bits (t.chip.reg (b + z - 4)) 28 28 = 1 ∧ bits (t.chip.reg (b + z - 4)) 23 16 = r % 256 ∧
      bits (t.chip.reg (b + z - 4)) 15 0 = tag ∧ OnlyRegs s t [b + z - 8, b + z - 4]) ∧
  -- 3: applyTakeEffect
  (∀ (s : State) (k x since : Nat) (v : Word) (r : RegRow),
    s.runs .core = true →
    k < 4 →
    s.chip.applies.look (A.plane k) = some { snap := [(x, v)], left := [A.plane k], since } →
    A.plane k ≤ x →
    x < A.plane k + 0xFFFF8 →
    regRow x = some r →
    Does (.applyTakeEffect (A.plane k)) s fun t =>
      t.chip.reg x = (s.chip.reg x &&& ~~~(BitVec.ofNat 64 r.sg)) ||| (v &&& BitVec.ofNat 64 r.sg) ∧
        t.chip.applies.look (A.plane k) = none ∧
      bits (t.chip.reg (A.plane k + 0xFFFFC)) 31 31 = 0 ∧ (s.chip.staged.look x = some v → t.chip.staged.look x = none) ∧
      OnlyParts s t [x, A.plane k + 0xFFFFC] [.applies, .staged]) ∧
  -- 4: applyTakeEffect
  (∀ (s : State) (m : Nat) (d : Apply),
    s.runs .core = true →
    m < 2 →
    s.chip.applies.look (A.hbm m) = some d →
    d.left = [A.hbm m] ∧ d.taken = [] ∧ d.snap = [] →
    s.chip.quiet.atBoundary (A.hbm m) = true →
    Does (.applyTakeEffect (A.hbm m)) s fun t =>
      t.chip.applies.look (A.hbm m) = none ∧ bits (t.chip.reg (A.hbm m + 0x3FFFFC)) 31 31 = 0 ∧
      t.chip.get (A.hbm m) R.HBM_STATUS_compat = s.chip.get (A.hbm m) R.HBM_CTRL_compat ∧
      OnlyParts s t [A.hbm m + 0x3FFFFC, A.hbm m + R.HBM_STATUS] [.applies, .staged]) ∧
  -- 5: applyTimeout
  (∀ (s : State) (a base z : Nat) (d : Apply),
    s.runs .core = true →
    s.chip.domainFirst a = some (base, z) →
    domainOf base = some (base, z) →
    s.chip.applies.look base = some d →
    s.chip.passedUs d.since 10000 = true →
    Does (.applyTimeout a) s fun t =>
      t.chip.applies.look base = none ∧ (∀ x, x ≠ base → t.chip.applies.look x = s.chip.applies.look x) ∧
      bits (t.chip.reg (base + z - 4)) 31 31 = 0 ∧ bits (t.chip.reg (base + z - 4)) 30 30 = 1 ∧
      bits (t.chip.reg (base + z - 4)) 28 28 = 1 ∧ bits (t.chip.reg (base + z - 4)) 23 16 = 8 ∧
      OnlyParts s t [base + z - 4] [.applies, .records]) ∧
  -- 6: applyTimeout
  (∀ (s : State) (a base z : Nat),
    s.runs .core = true →
    s.chip.domainFirst a = some (base, z) →
    (((s.chip.applies.look base).all fun d => decide (s.chip.now < d.since + 10000000)) = true) →
    Does (.applyTimeout a) s fun t => OnlyRegs s t []) ∧
  -- 7: applyRevert
  (∀ (s : State) (src : Source) (b z : Nat),
    s.serves src (b + z - 8) true = true →
    domainOf (b + z - 8) = some (b, z) →
    b + z - 8 < 0x40000 ∨ 0x40800 ≤ b + z - 8 ∨ s.chip.tbMayWrite src ((b + z - 8 - 0x40000) / 0x100) = true →
    s.chip.applies.look b = none →
    Does (.applyRevert src (b + z - 8)) s fun t =>
      (∀ x, b ≤ x → x < b + z → t.chip.staged.look x = none) ∧ (∀ x, (x < b ∨ b + z ≤ x) → t.chip.staged.look x = s.chip.staged.look x) ∧
      OnlyParts s t [] [.since, .staged, .records]) ∧
  -- 8: applyRevert
  (∀ (s : State) (src : Source) (b z x : Nat) (v : Word) (d : Apply),
    s.serves src (b + z - 8) true = true →
    domainOf (b + z - 8) = some (b, z) →
    b + z - 8 < 0x40000 ∨ 0x40800 ≤ b + z - 8 ∨ s.chip.tbMayWrite src ((b + z - 8 - 0x40000) / 0x100) = true →
    s.chip.applies.look b = some d →
    d.snap = [(x, v)] →
    Does (.applyRevert src (b + z - 8)) s fun t =>
      t.chip.staged.look x = some (s.chip.reg x) ∧ (∀ y, y ≠ x → b ≤ y → y < b + z → t.chip.staged.look y = none) ∧
      t.chip.applies.look b = some d ∧ OnlyParts s t [] [.since, .staged, .records])

/-- UNIT_RESET_RELEASE, UNIT_RESET_HOLD and UNIT_RELEASE_HELD with no reason of Table 1-9 against them show reason 0, the target and busy,
and the unit is in reset, or its release runs; with a reason against them they show the reason, start nothing and change nothing but
UNIT_RESET and its status. UNIT_HOLD_REACHED of a unit whose hold was asked for makes it held; UNIT_RESET_COMPLETE ends the running
request, a release with its hold, and with the request of software its busy; of a unit with no such request either changes nothing.
REACTION_BLOCK_RESET takes the oldest target due and, where no reason stands against it, its suite is in reset. None of them changes the
keepsake store or the fuses. -/
def Obligations.UnitResetsRun : Prop :=
  -- 1: unitResetRelease
  (∀ (s : State) (src : Source) (u : Nat),
    s.serves src R.UNIT_RESET true = true →
    u < 65536 →
    s.chip.resetReason u 0 true = 0 →
    Does (.unitResetRelease src u) s fun t =>
      t.chip.get 0 R.UNIT_RESET_STATUS_reason = 0 ∧ t.chip.get 0 R.UNIT_RESET_STATUS_target = u ∧
        t.chip.get 0 R.UNIT_RESET_STATUS_busy = 1 ∧ RunReset.mk u 0 ∈ t.chip.rst.running ∧ t.chip.inReset u = true ∧
        t.chip.rst.last = some ⟨u, 0⟩ ∧ t.nv = s.nv ∧ t.fuses = s.fuses ∧ t.pending = s.pending) ∧
  -- 2: unitResetHold
  (∀ (s : State) (src : Source) (u : Nat),
    s.serves src R.UNIT_RESET true = true →
    u < 65536 →
    s.chip.resetReason u 1 true = 0 →
    Does (.unitResetHold src u) s fun t =>
      t.chip.get 0 R.UNIT_RESET_STATUS_reason = 0 ∧ t.chip.get 0 R.UNIT_RESET_STATUS_target = u ∧
        t.chip.get 0 R.UNIT_RESET_STATUS_busy = 1 ∧ RunReset.mk u 1 ∈ t.chip.rst.running ∧ t.chip.inReset u = true ∧
        t.chip.rst.last = some ⟨u, 1⟩ ∧ t.nv = s.nv ∧ t.fuses = s.fuses ∧ t.pending = s.pending) ∧
  -- 3: unitReleaseHeld
  (∀ (s : State) (src : Source) (u : Nat),
    s.serves src R.UNIT_RESET true = true →
    u < 65536 →
    s.chip.resetReason u 2 true = 0 →
    Does (.unitReleaseHeld src u) s fun t =>
      t.chip.get 0 R.UNIT_RESET_STATUS_reason = 0 ∧ t.chip.get 0 R.UNIT_RESET_STATUS_target = u ∧
        t.chip.get 0 R.UNIT_RESET_STATUS_busy = 1 ∧ t.chip.rst =
        { s.chip.rst with running := s.chip.rst.running ++ [⟨u, 2⟩], last := some ⟨u, 2⟩ } ∧
      OnlyParts s t [R.UNIT_RESET, R.UNIT_RESET_STATUS] [.rst]) ∧
  -- 4: unitResetRelease
  (∀ (s : State) (src : Source) (u r : Nat),
    s.serves src R.UNIT_RESET true = true →
    u < 65536 →
    s.chip.resetReason u 0 true = r →
    r ≠ 0 →
    Does (.unitResetRelease src u) s fun t => t.chip.get 0 R.UNIT_RESET_STATUS_reason = r ∧
      t.chip.get 0 R.UNIT_RESET_STATUS_target = (if r = 5 then (s.chip.absorber u).getD 0 % 65536 else 0) ∧
      OnlyRegs s t [R.UNIT_RESET, R.UNIT_RESET_STATUS]) ∧
  -- 5: unitResetHold
  (∀ (s : State) (src : Source) (u r : Nat),
    s.serves src R.UNIT_RESET true = true →
    u < 65536 →
    s.chip.resetReason u 1 true = r →
    r ≠ 0 →
    Does (.unitResetHold src u) s fun t => t.chip.get 0 R.UNIT_RESET_STATUS_reason = r ∧
      t.chip.get 0 R.UNIT_RESET_STATUS_target = (if r = 5 then (s.chip.absorber u).getD 0 % 65536 else 0) ∧
      OnlyRegs s t [R.UNIT_RESET, R.UNIT_RESET_STATUS]) ∧
  -- 6: unitReleaseHeld
  (∀ (s : State) (src : Source) (u r : Nat),
    s.serves src R.UNIT_RESET true = true →
    u < 65536 →
    s.chip.resetReason u 2 true = r →
    r ≠ 0 →
    Does (.unitReleaseHeld src u) s fun t => t.chip.get 0 R.UNIT_RESET_STATUS_reason = r ∧
      t.chip.get 0 R.UNIT_RESET_STATUS_target = (if r = 5 then (s.chip.absorber u).getD 0 % 65536 else 0) ∧
      OnlyRegs s t [R.UNIT_RESET, R.UNIT_RESET_STATUS]) ∧
  -- 7: unitHoldReached
  (∀ (s : State) (u : Nat),
    s.runs .core = true →
    RunReset.mk u 1 ∈ s.chip.rst.running →
    Does (.unitHoldReached u) s fun t =>
      t.chip.rst = { s.chip.rst with running := s.chip.rst.running.filter (· != RunReset.mk u 1), held := s.chip.rst.held ++ [u] } ∧
      (s.chip.rst.last = some ⟨u, 1⟩ → t.chip.get 0 R.UNIT_RESET_STATUS_busy = 0) ∧ OnlyParts s t [R.UNIT_RESET_STATUS] [.rst]) ∧
  -- 8: unitHoldReached
  (∀ (s : State) (u : Nat),
    s.runs .core = true →
    RunReset.mk u 1 ∉ s.chip.rst.running →
    Does (.unitHoldReached u) s fun t => OnlyRegs s t []) ∧
  -- 9: unitResetComplete
  (∀ (s : State) (u k : Nat),
    s.runs .core = true →
    (s.chip.rst.running.find? (fun r => r.unit == u && r.kind != 1) = some ⟨u, k⟩) →
    Does (.unitResetComplete u) s fun t =>
      t.chip.rst.running = s.chip.rst.running.filter (· != RunReset.mk u k) ∧
      t.chip.rst.held = (if k = 2 then s.chip.rst.held.filter (· != u) else s.chip.rst.held) ∧
      ((s.chip.rst.last = some ⟨u, k⟩ ∧ s.chip.inside u u = true) → t.chip.get 0 R.UNIT_RESET_STATUS_busy = 0) ∧ t.nv = s.nv ∧
        t.fuses = s.fuses ∧ t.pending = s.pending) ∧
  -- 10: unitResetComplete
  (∀ (s : State) (u : Nat),
    s.runs .core = true →
    (∀ r ∈ s.chip.rst.running, r.unit = u → r.kind = 1) →
    Does (.unitResetComplete u) s fun t => OnlyRegs s t []) ∧
  -- 11: reactionBlockReset
  (∀ (s : State) (u : Nat) (l : List Nat),
    s.runs .core = true →
    s.chip.ledger.blocks = u :: l →
    s.chip.resetReason (s.chip.suiteUnit u) 0 false = 0 →
    Does .reactionBlockReset s fun t =>
      t.chip.ledger.blocks = l ∧ t.chip.inReset (s.chip.suiteUnit u) = true ∧ t.nv = s.nv ∧ t.fuses = s.fuses ∧ t.pending = s.pending)

/-- POWER_ON of a dark device gives every register its reset value but those of the fused grade and, on a regulator that is not linear, its
event, samples VIO_SEL (a free value, log 28) and takes the kept set point table; the keepsake store and the fuses stay. POWER_LOSS ends
every state but the keepsake store and the fuses, in which a fuse command in service is cut off. PIN_CHIP_RESET of a powered device with
SYS_RST_N high, SOFTWARE_CHIP_RESET with the key, and a due REACTION_CHIP_RESET whose journal writes are done or stopped leave a device
that is not released, with no image, frame, stream, copy, accord or reset of a unit, every latchkey free, and show their cause; the time
bases run on; every register outside the time bases, the ledger and the housekeeper is at its reset value, while counters keep their
values; the keepsake store changes only by a window's line write in progress, the fuses only by a fuse command in service. SYS_RST_N_RISE
raises the pin; INTERNAL_RELEASE releases the device and applies the recorded remaps; SYSTEM_PLL_LOCK starts the register bus, shows the
fused debug level and, unless the strongroom halted, stage 0x1. -/
def Obligations.ChipResetsAndPower : Prop :=
  -- 1: powerOn
  (∀ (s : State),
    s.chip.power.vddAon = false →
    Does .powerOn s fun t =>
      (∀ a, a ≠ R.DEVICE_ID → a ≠ R.THERM_STATUS → a ≠ R.THERM_CTRL → a ≠ R.HK_EVENT → t.chip.reg a = regReset a) ∧
      (s.fuses.grade = 0 → Config.linearVout = true → ∀ a, t.chip.reg a = regReset a) ∧
      t.chip.power = { serdesRef := s.chip.power.serdesRef, vioSel := Config.vioSel s.chip.fresh } ∧
        t.chip.house.unsteered = (!Config.linearVout) ∧ t.chip.house.plan = s.nv.plan ∧ t.chip.image = {} ∧ t.chip.frames = [] ∧
      t.nv = s.nv ∧ t.fuses = s.fuses ∧ t.pending = s.pending) ∧
  -- 2: powerLoss
  (∀ (s : State),
    Does .powerLoss s fun t =>
      t.chip = { now := s.chip.now, fresh := t.chip.fresh, power := { vddAon := false, serdesRef := s.chip.power.serdesRef } } ∧
      t.nv = s.nv ∧ (s.chip.room.order = [] → t.fuses = s.fuses) ∧ t.pending = s.pending) ∧
  -- 3: pinChipReset
  (∀ (s : State),
    s.chip.power.vddAon = true →
    s.chip.power.sysRstHigh = true →
    Does .pinChipReset s fun t =>
      t.chip.power = { perstHigh := s.chip.power.perstHigh, serdesRef := s.chip.power.serdesRef, vioSel := s.chip.power.vioSel } ∧
      t.chip.get 0 R.BOOT_STATUS_reset_cause = (if s.chip.power.halted then 4 else 1) ∧ t.chip.image = {} ∧ t.chip.frames = [] ∧
        t.chip.streams = [] ∧ t.chip.arrivals = [] ∧ t.chip.copies = [] ∧ t.chip.scheds = [] ∧ t.chip.accord = {} ∧ t.chip.rst = {} ∧
        t.chip.tbs = s.chip.tbs ∧ (∀ k, t.chip.latch k = {}) ∧ (∀ a, (regRow a).any RegRow.counter = false → (a < 0x40000 ∨ 0x41000 ≤ a) →
        (a < 0x6000 ∨ 0x8000 ≤ a) → (a < A.group 0xD038 ∨ A.group 0xD038 + 0x10000 ≤ a) → a ≠ R.BOOT_STATUS → a ≠ R.DEVICE_ID →
        t.chip.reg a = regReset a) ∧ (s.chip.ledger.queue = [] → ∀ a, (regRow a).any RegRow.counter = true → a ≠ C.records_lost →
        a ≠ C.keepsake_line_writes → t.chip.reg a = s.chip.reg a) ∧ (s.chip.house.queue.filter HkRec.isLine = [] → t.nv = s.nv) ∧
        (s.chip.room.order = [] → t.fuses = s.fuses) ∧ t.nv.journal = s.nv.journal ∧ t.pending = s.pending) ∧
  -- 4: softwareChipReset
  (∀ (s : State) (src : Source),
    s.serves src R.CHIP_RESET true = true →
    Does (.softwareChipReset src 0x5AFE) s fun t =>
      t.chip.power.released = false ∧ t.chip.power.sysPll = false ∧ t.chip.power.sysRstHigh = s.chip.power.sysRstHigh ∧
        t.chip.get 0 R.BOOT_STATUS_reset_cause = 2 ∧ t.chip.image = {} ∧ t.chip.frames = [] ∧ t.chip.streams = [] ∧ t.chip.arrivals = [] ∧
        t.chip.copies = [] ∧ t.chip.scheds = [] ∧ t.chip.accord = {} ∧ t.chip.rst = {} ∧ t.chip.tbs = s.chip.tbs ∧
        (∀ k, t.chip.latch k = {}) ∧ (∀ a, (regRow a).any RegRow.counter = false → (a < 0x40000 ∨ 0x41000 ≤ a) → (a < 0x6000 ∨ 0x8000 ≤ a) →
        (a < A.group 0xD038 ∨ A.group 0xD038 + 0x10000 ≤ a) → a ≠ R.BOOT_STATUS → a ≠ R.DEVICE_ID → t.chip.reg a = regReset a) ∧
        (s.chip.ledger.queue = [] → ∀ a, (regRow a).any RegRow.counter = true → a ≠ C.records_lost → a ≠ C.keepsake_line_writes →
        t.chip.reg a = s.chip.reg a) ∧ (s.chip.house.queue.filter HkRec.isLine = [] → t.nv = s.nv) ∧ (s.chip.room.order = [] →
        t.fuses = s.fuses) ∧ t.nv.journal = s.nv.journal ∧ t.pending = s.pending) ∧
  -- 5: softwareChipReset
  (∀ (s : State) (src : Source) (key : Nat),
    s.serves src R.CHIP_RESET true = true →
    key ≠ 0x5AFE →
    Does (.softwareChipReset src key) s fun t => OnlyRegs s t []) ∧
  -- 6: reactionChipReset
  (∀ (s : State),
    s.runs .aon = true →
    s.chip.ledger.chipDue = true →
    s.chip.ledger.jrnQueue = [] ∨ s.chip.get 0 R.SAG_STATUS_stopped = 1 →
    Does .reactionChipReset s fun t =>
      t.chip.power.released = false ∧ t.chip.power.sysPll = false ∧ t.chip.power.sysRstHigh = s.chip.power.sysRstHigh ∧
        t.chip.get 0 R.BOOT_STATUS_reset_cause = 3 ∧ t.chip.ledger.chipDue = false ∧ t.chip.image = {} ∧ t.chip.frames = [] ∧
        t.chip.streams = [] ∧ t.chip.arrivals = [] ∧ t.chip.copies = [] ∧ t.chip.scheds = [] ∧ t.chip.accord = {} ∧ t.chip.rst = {} ∧
        t.chip.tbs = s.chip.tbs ∧ (∀ k, t.chip.latch k = {}) ∧ (∀ a, (regRow a).any RegRow.counter = false → (a < 0x40000 ∨ 0x41000 ≤ a) →
        (a < 0x6000 ∨ 0x8000 ≤ a) → (a < A.group 0xD038 ∨ A.group 0xD038 + 0x10000 ≤ a) → a ≠ R.BOOT_STATUS → a ≠ R.DEVICE_ID →
        t.chip.reg a = regReset a) ∧ (s.chip.ledger.queue = [] → ∀ a, (regRow a).any RegRow.counter = true → a ≠ C.records_lost →
        a ≠ C.keepsake_line_writes → t.chip.reg a = s.chip.reg a) ∧ (s.chip.house.queue.filter HkRec.isLine = [] → t.nv = s.nv) ∧
        (s.chip.room.order = [] → t.fuses = s.fuses) ∧ t.nv.journal = s.nv.journal ∧ t.pending = s.pending) ∧
  -- 7: reactionChipReset
  (∀ (s : State),
    s.runs .aon = true →
    s.chip.ledger.chipDue = false ∨ (s.chip.ledger.jrnQueue ≠ [] ∧ s.chip.get 0 R.SAG_STATUS_stopped = 0) →
    Does .reactionChipReset s fun t => OnlyRegs s t []) ∧
  -- 8: sysRstNRise
  (∀ (s : State),
    s.chip.power.vddAon = true →
    Does .sysRstNRise s fun t => t.chip.power = { s.chip.power with sysRstHigh := true } ∧ OnlyParts s t [] [.power]) ∧
  -- 9: internalRelease
  (∀ (s : State),
    s.runs .aon = true →
    s.chip.power.sysRstHigh = true →
    s.chip.power.released = false →
    s.chip.power.halted = false →
    Does .internalRelease s fun t =>
      t.chip.power = { s.chip.power with released := true } ∧
      (∀ u row spare, s.nv.remaps = [(u, row, spare)] → (t.chip.grp u).remaps.head? = some (row, spare)) ∧
        OnlyParts s t [] [.power, .mem]) ∧
  -- 10: systemPllLock
  (∀ (s : State),
    s.runs .aon = true →
    s.chip.power.released = true →
    s.chip.power.sysPll = false →
    s.chip.power.halted = false →
    s.fuses.debug < 4 →
    Does .systemPllLock s fun t =>
      t.chip.power = { s.chip.power with sysPll := true } ∧
      t.chip.get 0 R.BOOT_STATUS_stage = (if s.chip.room.halted then s.chip.get 0 R.BOOT_STATUS_stage else 1) ∧
        t.chip.get 0 R.BOOT_STATUS_debug_fused = s.fuses.debug ∧
      OnlyParts s t [R.BOOT_STATUS] [.power])

/-- STACK0_TRAINING_COMPLETE turns the strongroom to the preferred slot in stage 0x3. SLOT_CHECK_COMPLETE stages an image whose signature
verifies under a vendor slot not revoked, whose version is not below the rollback fuses, whose sections carry the right flags and tags:
stage 0x5, with the outcome of the customer key. A flash slot that cannot be read fails with 0x17, one whose signature or key does not
hold with 0x14, one below the fuses with 0x15 and BOOT_ROLLBACK, one with wrong flags with 0x19; the strongroom then turns to the other
slot, after both to the host in stage 0x7. A host image that is not all there fails with 0x18. IMAGE_HANDOVER of an image that passes the
housekeeper's checks holds it for the apply sequence in stage 0x6, one that does not is refused with its reason; IMAGE_APPLY_COMPLETE
applies the held image. FULL_TRAINING_COMPLETE makes a stack ready, at start and after a reset, and retires the pseudo-channels that
failed. CONTROL_FIRMWARE_CHECK records the verified slot and releases core 0 once an image is applied, tries the other slot after the
first failure, and ends in failed state after the second. -/
def Obligations.StartUpAdvances : Prop :=
  -- 1: stack0TrainingComplete
  (∀ (s : State),
    s.runs .core = true →
    s.chip.stack0Due = true →
    Does .stack0TrainingComplete s fun t =>
      t.chip.room.stack0 = true ∧ t.chip.room.trying = some s.nv.bootSlot ∧ t.chip.room.tried = [] ∧ t.chip.get 0 R.BOOT_STATUS_stage = 3 ∧
      t.chip.get 0 R.IMAGE_STATUS_state = 1 ∧ t.nv = s.nv ∧ t.fuses = s.fuses ∧ t.pending = s.pending) ∧
  -- 2: slotCheckComplete
  (∀ (s : State) (slot : Nat) (i : Image) (sigs : ImageSigs),
    s.runs .core = true →
    s.chip.room.trying = some slot →
    s.chip.room.halted = false →
    slot < 3 →
    (slot = 2 → Img.length i ≤ s.chip.room.hostBytes ∧ i.header = s.chip.room.hostImage.take 256) →
    sigs.image = true ∧ Img.keyIndex i < 4 ∧ bit s.fuses.vendorRevoked (Img.keyIndex i) = false →
    s.fuses.rollback ≤ Img.version i / 2 ^ 24 % 256 →
    ((i.sections.all fun x => !(x.type == 6 && !(encrypted x)) && !(x.type == 7 && encrypted x)) = true) →
    ((i.sections.zipIdx.all fun x => !(encrypted x.1 && sigs.tags.contains x.2) && !(x.1.type == 0xA && sigs.patches.contains x.2)) =
      true) →
    Does (.slotCheckComplete (some i) sigs) s fun t =>
      t.chip.room = { s.chip.room with trying := none, verified := some slot, staged := some { i with customerOk := i.customerOk && decide (Img.customerSigner i < 4) && bit s.fuses.enrolled (Img.customerSigner i) && !(bit s.fuses.customerRevoked (Img.customerSigner i)) } }
        ∧
      t.chip.get 0 R.BOOT_STATUS_stage = 5 ∧ t.chip.get 0 R.BOOT_STATUS_slot_used = slot ∧ t.chip.get 0 R.IMAGE_STATUS_state = 1 ∧
      OnlyParts s t [R.BOOT_STATUS, R.IMAGE_STATUS] [.room]) ∧
  -- 3: slotCheckComplete
  (∀ (s : State) (slot : Nat) (sigs : ImageSigs),
    s.runs .core = true →
    s.chip.room.trying = some slot →
    s.chip.room.halted = false →
    slot < 2 ∧ (1 - slot) ∉ s.chip.room.tried →
    Does (.slotCheckComplete none sigs) s fun t =>
      t.chip.get 0 (if slot = 0 then R.BOOT_STATUS_reason_a else R.BOOT_STATUS_reason_b) = 0x17 ∧
        t.chip.ledger = s.chip.sent [s.chip.msgOf roomUnit K.bootAuthFail 3] ∧
        t.chip.room = { s.chip.room with trying := some (1 - slot), tried := slot :: s.chip.room.tried } ∧
        t.chip.get 0 R.BOOT_STATUS_stage = 3 ∧ t.chip.get 0 R.IMAGE_STATUS_state = 1 ∧
        OnlyParts s t [R.BOOT_STATUS, R.IMAGE_STATUS] [.room, .ledger]) ∧
  -- 4: slotCheckComplete
  (∀ (s : State) (slot : Nat) (i : Image) (sigs : ImageSigs),
    s.runs .core = true →
    s.chip.room.trying = some slot →
    s.chip.room.halted = false →
    slot < 2 ∧ (1 - slot) ∉ s.chip.room.tried →
    sigs.image = false ∨ 4 ≤ Img.keyIndex i ∨ bit s.fuses.vendorRevoked (Img.keyIndex i) = true →
    Does (.slotCheckComplete (some i) sigs) s fun t =>
      t.chip.get 0 (if slot = 0 then R.BOOT_STATUS_reason_a else R.BOOT_STATUS_reason_b) = 0x14 ∧
        t.chip.ledger = s.chip.sent [s.chip.msgOf roomUnit K.bootAuthFail 3] ∧
        t.chip.room = { s.chip.room with trying := some (1 - slot), tried := slot :: s.chip.room.tried } ∧
        t.chip.get 0 R.BOOT_STATUS_stage = 3 ∧ t.chip.get 0 R.IMAGE_STATUS_state = 1 ∧
        OnlyParts s t [R.BOOT_STATUS, R.IMAGE_STATUS] [.room, .ledger]) ∧
  -- 5: slotCheckComplete
  (∀ (s : State) (slot : Nat) (i : Image) (sigs : ImageSigs),
    s.runs .core = true →
    s.chip.room.trying = some slot →
    s.chip.room.halted = false →
    slot < 2 ∧ (1 - slot) ∉ s.chip.room.tried →
    sigs.image = true ∧ Img.keyIndex i < 4 ∧ bit s.fuses.vendorRevoked (Img.keyIndex i) = false →
    Img.version i / 2 ^ 24 % 256 < s.fuses.rollback →
    Does (.slotCheckComplete (some i) sigs) s fun t =>
      t.chip.get 0 (if slot = 0 then R.BOOT_STATUS_reason_a else R.BOOT_STATUS_reason_b) = 0x15 ∧
        t.chip.ledger = s.chip.sent [s.chip.msgOf roomUnit K.bootRollback 3] ∧
        t.chip.room = { s.chip.room with trying := some (1 - slot), tried := slot :: s.chip.room.tried } ∧
        t.chip.get 0 R.BOOT_STATUS_stage = 3 ∧ t.chip.get 0 R.IMAGE_STATUS_state = 1 ∧
        OnlyParts s t [R.BOOT_STATUS, R.IMAGE_STATUS] [.room, .ledger]) ∧
  -- 6: slotCheckComplete
  (∀ (s : State) (slot : Nat) (i : Image) (sigs : ImageSigs),
    s.runs .core = true →
    s.chip.room.trying = some slot →
    s.chip.room.halted = false →
    slot < 2 ∧ (1 - slot) ∉ s.chip.room.tried →
    sigs.image = true ∧ Img.keyIndex i < 4 ∧ bit s.fuses.vendorRevoked (Img.keyIndex i) = false →
    s.fuses.rollback ≤ Img.version i / 2 ^ 24 % 256 →
    ((i.sections.all fun x => !(x.type == 6 && !(encrypted x)) && !(x.type == 7 && encrypted x)) = false) →
    Does (.slotCheckComplete (some i) sigs) s fun t =>
      t.chip.get 0 (if slot = 0 then R.BOOT_STATUS_reason_a else R.BOOT_STATUS_reason_b) = 0x19 ∧
        t.chip.ledger = s.chip.sent [s.chip.msgOf roomUnit K.bootAuthFail 3] ∧
        t.chip.room = { s.chip.room with trying := some (1 - slot), tried := slot :: s.chip.room.tried } ∧
        t.chip.get 0 R.BOOT_STATUS_stage = 3 ∧ t.chip.get 0 R.IMAGE_STATUS_state = 1 ∧
        OnlyParts s t [R.BOOT_STATUS, R.IMAGE_STATUS] [.room, .ledger]) ∧
  -- 7: slotCheckComplete
  (∀ (s : State) (slot : Nat) (sigs : ImageSigs),
    s.runs .core = true →
    s.chip.room.trying = some slot →
    s.chip.room.halted = false →
    slot < 2 ∧ (1 - slot) ∈ s.chip.room.tried →
    Does (.slotCheckComplete none sigs) s fun t =>
      t.chip.room = { s.chip.room with trying := none, tried := slot :: s.chip.room.tried } ∧ t.chip.get 0 R.BOOT_STATUS_stage = 7 ∧
      t.chip.get 0 R.IMAGE_STATUS_state = 4 ∧ t.chip.get 0 R.IMAGE_STATUS_reason = 0x17 ∧
      t.chip.ledger = s.chip.sent [s.chip.msgOf roomUnit K.bootAuthFail 5] ∧
        OnlyParts s t [R.BOOT_STATUS, R.IMAGE_STATUS] [.room, .ledger]) ∧
  -- 8: slotCheckComplete
  (∀ (s : State) (i : Image) (sigs : ImageSigs),
    s.runs .core = true →
    s.chip.room.trying = some 2 →
    s.chip.room.halted = false →
    i.header = s.chip.room.hostImage.take 256 →
    s.chip.room.hostBytes < Img.length i →
    Does (.slotCheckComplete (some i) sigs) s fun t =>
      t.chip.room = { s.chip.room with trying := none, hostBytes := 0, hostImage := [] } ∧ t.chip.get 0 R.BOOT_STATUS_stage = 7 ∧
      t.chip.get 0 R.IMAGE_STATUS_state = 4 ∧ t.chip.get 0 R.IMAGE_STATUS_reason = 0x18 ∧
      t.chip.ledger = s.chip.sent [s.chip.msgOf roomUnit K.bootAuthFail 5] ∧
        OnlyParts s t [R.BOOT_STATUS, R.IMAGE_STATUS] [.room, .ledger]) ∧
  -- 9: imageHandover
  (∀ (s : State) (img : Image) (v : Nat),
    s.runs .core = true →
    s.chip.room.verified = some v →
    s.chip.room.staged = some img →
    s.chip.room.e0 = false →
    s.chip.room.halted = false →
    (((s.chip.setRoom { s.chip.room with e0 := true, verified := none, staged := none }).setStage 6).quiet.buildImage s.nv img).2 = none →
    Does (.imageHandover img) s fun t =>
      t.chip.image = { s.chip.image with held := some img, runHalves := Img.halves img } ∧
      t.chip.room = { s.chip.room with e0 := true, verified := none, staged := none } ∧
      t.chip.get 0 R.BOOT_STATUS_stage = 6 ∧ t.chip.get 0 R.IMAGE_STATUS_state = 2 ∧ t.chip.get 0 R.CC_STATUS_fw_state = 1 ∧
      t.chip.rest [.room, .image] = s.chip.rest [.room, .image] ∧ t.nv = s.nv ∧ t.fuses = s.fuses ∧ t.pending = s.pending) ∧
  -- 10: imageHandover
  (∀ (s : State) (img : Image) (v : Nat) (r : Refused),
    s.runs .core = true →
    s.chip.room.verified = some v →
    s.chip.room.staged = some img →
    s.chip.room.e0 = false →
    s.chip.room.halted = false →
    (((s.chip.setRoom { s.chip.room with e0 := true, verified := none, staged := none }).setStage 6).quiet.buildImage s.nv img).2 = some r →
    r.1 < 256 ∧ r.2 < 256 →
    Does (.imageHandover img) s fun t =>
      t.chip.room = { s.chip.room with e0 := true, verified := none, staged := none } ∧ t.chip.get 0 R.BOOT_STATUS_stage = 6 ∧
      t.chip.get 0 R.IMAGE_STATUS_state = 4 ∧ t.chip.get 0 R.IMAGE_STATUS_reason = r.1 ∧ t.chip.get 0 R.IMAGE_STATUS_section = r.2 ∧
      t.chip.ledger = s.chip.sent [s.chip.msgOf 0xD030 K.imageApplyFail 5] ∧
        OnlyParts s t [R.BOOT_STATUS, R.IMAGE_STATUS] [.room, .ledger]) ∧
  -- 11: imageHandover
  (∀ (s : State) (img : Image),
    s.runs .core = true →
    s.chip.room.staged ≠ some img ∨ s.chip.room.verified = none ∨ s.chip.room.e0 = true ∨ s.chip.room.halted = true →
    Does (.imageHandover img) s fun t => OnlyRegs s t []) ∧
  -- 12: imageApplyComplete
  (∀ (s : State) (img : Image),
    s.runs .core = true →
    s.chip.image.held = some img →
    s.chip.image.applied = false →
    (s.chip.quiet.buildImage s.nv img).2 = none →
    Does .imageApplyComplete s fun t =>
      t.chip.image.held = none ∧ t.chip.image.applied = true ∧ t.chip.get 0 R.IMAGE_STATUS_state = 3 ∧
        t.chip.image.profile = Img.profile img ∧
      t.chip.image.ports = Img.ports img ∧ t.chip.store = Img.storeOf img ∧ t.nv = s.nv ∧ t.fuses = s.fuses ∧ t.pending = s.pending) ∧
  -- 13: fullTrainingComplete
  (∀ (s : State) (m : Nat),
    s.runs .core = true →
    s.chip.hbmUp m = true →
    s.chip.hbmState m = 1 →
    s.chip.trainingOn m = false →
    Does (.fullTrainingComplete m []) s fun t =>
      t.chip.hbmState m = (if (s.chip.hbmPcs m).isEmpty then 7 else 2) ∧
        t.chip.reg (A.hbm m + C.trainings) = s.chip.reg (A.hbm m + C.trainings) + 1 ∧
      t.chip.get (A.hbm m) R.HBM_EVENT_train_done = 1 ∧ t.chip.ledger = s.chip.ledger ∧ t.nv = s.nv ∧ t.fuses = s.fuses ∧
        t.pending = s.pending) ∧
  -- 14: fullTrainingComplete
  (∀ (s : State),
    s.runs .core = true →
    s.chip.stack0Due = true →
    s.chip.hbmState 0 = 0 →
    s.nv.retired = [] →
    Does (.fullTrainingComplete 0 []) s fun t =>
      t.chip.hbmState 0 = (if (s.chip.hbmPcs 0).isEmpty then 7 else 2) ∧
        t.chip.reg (A.hbm 0 + C.trainings) = s.chip.reg (A.hbm 0 + C.trainings) + 1 ∧
      t.chip.get (A.hbm 0) R.HBM_EVENT_train_done = 1 ∧ t.chip.ledger = s.chip.ledger ∧ t.nv = s.nv ∧ t.fuses = s.fuses ∧
        t.pending = s.pending) ∧
  -- 15: fullTrainingComplete
  (∀ (s : State) (m pc : Nat),
    s.runs .core = true →
    m < 2 →
    s.chip.hbmUp m = true →
    s.chip.hbmState m = 1 →
    s.chip.trainingOn m = false →
    pc < 32 →
    s.chip.hbmRetired m pc = false →
    Does (.fullTrainingComplete m [pc]) s fun t =>
      t.chip.hbmRetired m pc = true ∧ t.chip.get (A.hbm m) R.HBM_EVENT_retired = 1 ∧
      t.chip.reg (A.hbm m + C.trainings) = s.chip.reg (A.hbm m + C.trainings) + 1 ∧ t.chip.get (A.hbm m) R.HBM_EVENT_train_done = 1 ∧
        t.nv = s.nv ∧ t.fuses = s.fuses ∧ t.pending = s.pending) ∧
  -- 16: controlFirmwareCheck
  (∀ (s : State),
    s.runs .core = true →
    s.chip.get 0 R.CC_STATUS_fw_state = 1 →
    s.chip.room.halted = false →
    s.chip.image.applied = false →
    s.chip.fwSlot s.nv < 4 →
    Does (.controlFirmwareCheck true) s fun t =>
      t.chip.get 0 R.CC_STATUS_fw_state = 2 ∧ t.chip.get 0 R.CC_STATUS_fw_slot = s.chip.fwSlot s.nv ∧ OnlyParts s t [R.CC_STATUS] []) ∧
  -- 17: controlFirmwareCheck
  (∀ (s : State),
    s.runs .core = true →
    s.chip.get 0 R.CC_STATUS_fw_state = 1 →
    s.chip.room.halted = false →
    s.chip.image.applied = true →
    s.chip.coreRuns 0 = false →
    s.chip.fwSlot s.nv < 4 →
    Does (.controlFirmwareCheck true) s fun t =>
      t.chip.get 0 R.CC_STATUS_fw_state = 2 ∧ t.chip.get 0 R.CC_STATUS_fw_slot = s.chip.fwSlot s.nv ∧ t.chip.coreRuns 0 = true ∧
      t.chip.host = { s.chip.host with kicked := s.chip.host.kicked.set 0 s.chip.now } ∧
        OnlyParts s t [R.CC_STATUS, R.CC_CTRL] [.mem, .host]) ∧
  -- 18: controlFirmwareCheck
  (∀ (s : State),
    s.runs .core = true →
    s.chip.get 0 R.CC_STATUS_fw_state = 1 →
    s.chip.room.halted = false →
    s.chip.room.fwTried = [] →
    Does (.controlFirmwareCheck false) s fun t => t.chip.room = { s.chip.room with fwTried := [s.chip.fwSlot s.nv] } ∧
      OnlyParts s t [] [.room]) ∧
  -- 19: controlFirmwareCheck
  (∀ (s : State) (x : Nat) (l : List Nat),
    s.runs .core = true →
    s.chip.get 0 R.CC_STATUS_fw_state = 1 →
    s.chip.room.halted = false →
    s.chip.room.fwTried = x :: l →
    Does (.controlFirmwareCheck false) s fun t =>
      t.chip.room = { s.chip.room with fwTried := s.chip.fwSlot s.nv :: x :: l } ∧ t.chip.get 0 R.CC_STATUS_fw_state = 3 ∧
      t.chip.ledger = s.chip.sent [s.chip.msgOf roomUnit K.bootAuthFail 3 2] ∧ OnlyParts s t [R.CC_STATUS] [.room, .ledger])

/-- STRONGROOM_TAMPER and STRONGROOM_SELFTEST of a released device halt the strongroom, use up its challenge, report and show stage 0xF;
before E0 the image reads failed with reason 0x14, after it IMAGE_STATUS stays. TRNG_HEALTH reports once and marks the generator,
TRNG_HEALTH_RECOVER clears the mark. Of a strongroom that has halted, or of a device not released, the first three change nothing. -/
def Obligations.StrongroomHalts : Prop :=
  -- 1: strongroomTamper
  (∀ (s : State),
    s.runs .aon = true →
    s.chip.power.released = true →
    s.chip.room.halted = false →
    Does .strongroomTamper s fun t =>
      t.chip.room = { s.chip.room with halted := true, nonce := none } ∧ t.chip.get 0 R.BOOT_STATUS_stage = 15 ∧ (s.chip.room.e0 = true →
        t.chip.reg R.IMAGE_STATUS = s.chip.reg R.IMAGE_STATUS) ∧ (s.chip.room.e0 = false → t.chip.get 0 R.IMAGE_STATUS_state = 4 ∧
        t.chip.get 0 R.IMAGE_STATUS_reason = 0x14) ∧
      t.chip.ledger = s.chip.sent [s.chip.msgOf roomUnit K.strongroomTamper 5] ∧
        OnlyParts s t [R.BOOT_STATUS, R.IMAGE_STATUS] [.room, .ledger]) ∧
  -- 2: strongroomSelftest
  (∀ (s : State),
    s.runs .aon = true →
    s.chip.power.released = true →
    s.chip.room.halted = false →
    Does .strongroomSelftest s fun t =>
      t.chip.room = { s.chip.room with halted := true, nonce := none } ∧ t.chip.get 0 R.BOOT_STATUS_stage = 15 ∧ (s.chip.room.e0 = true →
        t.chip.reg R.IMAGE_STATUS = s.chip.reg R.IMAGE_STATUS) ∧ (s.chip.room.e0 = false → t.chip.get 0 R.IMAGE_STATUS_state = 4 ∧
        t.chip.get 0 R.IMAGE_STATUS_reason = 0x14) ∧
      t.chip.ledger = s.chip.sent [s.chip.msgOf roomUnit K.strongroomSelftest 5] ∧
        OnlyParts s t [R.BOOT_STATUS, R.IMAGE_STATUS] [.room, .ledger]) ∧
  -- 3: trngHealth
  (∀ (s : State),
    s.runs .aon = true →
    s.chip.power.released = true →
    s.chip.room.halted = false →
    s.chip.room.trngBad = false →
    Does .trngHealth s fun t =>
      t.chip.room = { s.chip.room with trngBad := true } ∧ t.chip.ledger = s.chip.sent [s.chip.msgOf roomUnit K.trngHealth 2] ∧
        OnlyParts s t [] [.room, .ledger]) ∧
  -- 4: trngHealthRecover
  (∀ (s : State),
    s.runs .aon = true →
    Does .trngHealthRecover s fun t => t.chip.room = { s.chip.room with trngBad := false } ∧ OnlyParts s t [] [.room]) ∧
  -- 5: strongroomTamper
  (∀ (s : State),
    s.runs .aon = true →
    s.chip.power.released = false ∨ s.chip.room.halted = true →
    Does .strongroomTamper s fun t => OnlyRegs s t []) ∧
  -- 6: strongroomSelftest
  (∀ (s : State),
    s.runs .aon = true →
    s.chip.power.released = false ∨ s.chip.room.halted = true →
    Does .strongroomSelftest s fun t => OnlyRegs s t []) ∧
  -- 7: trngHealth
  (∀ (s : State),
    s.runs .aon = true →
    s.chip.power.released = false ∨ s.chip.room.halted = true ∨ s.chip.room.trngBad = true →
    Does .trngHealth s fun t => OnlyRegs s t [])

/-- A command written to a free channel sets busy, shows its opcode, length and sequence number and joins the order with the request bytes of
the data area; nothing else changes. A fuse command written while the other channel programs fuses is marked to be excluded. A command
written to a busy channel, or to a channel that does not exist, changes nothing. What a command answers in its turn is the next
statement. -/
def Obligations.MailboxCommandsArePosted : Prop :=
  -- 1: getInfo
  (∀ (s : State) (ch len seq : Nat),
    s.runs .core = true →
    ch < 2 ∧ s.chip.get (A.mbox ch) R.MBX_STATUS_busy = 0 ∧ len < 4096 ∧ seq < 256 →
    Does (.getInfo ch len seq) s fun t =>
      t.chip.get (A.mbox ch) R.MBX_CMD_req_len = len ∧ t.chip.get (A.mbox ch) R.MBX_CMD_seq = seq ∧
        t.chip.get (A.mbox ch) R.MBX_STATUS_busy = 1 ∧ t.chip.get (A.mbox ch) R.MBX_CMD_opcode = 1 ∧
      t.chip.room = { s.chip.room with order := s.chip.room.order ++ [ch], cmds := s.chip.room.cmds.set ch (some { op := 1, seq, len, req := s.chip.room.data.bytes (ch * 0x400) (Nat.min len 1024), verdict := none, blown := 0, pass := true, excluded := false }) }
        ∧ OnlyParts s t [A.mbox ch + R.MBX_CMD, A.mbox ch + R.MBX_STATUS] [.room]) ∧
  -- 2: getRandom
  (∀ (s : State) (ch len seq : Nat),
    s.runs .core = true →
    ch < 2 ∧ s.chip.get (A.mbox ch) R.MBX_STATUS_busy = 0 ∧ len < 4096 ∧ seq < 256 →
    Does (.getRandom ch len seq) s fun t =>
      t.chip.get (A.mbox ch) R.MBX_CMD_req_len = len ∧ t.chip.get (A.mbox ch) R.MBX_CMD_seq = seq ∧
        t.chip.get (A.mbox ch) R.MBX_STATUS_busy = 1 ∧ t.chip.get (A.mbox ch) R.MBX_CMD_opcode = 2 ∧
      t.chip.room = { s.chip.room with order := s.chip.room.order ++ [ch], cmds := s.chip.room.cmds.set ch (some { op := 2, seq, len, req := s.chip.room.data.bytes (ch * 0x400) (Nat.min len 1024), verdict := none, blown := 0, pass := true, excluded := false }) }
        ∧ OnlyParts s t [A.mbox ch + R.MBX_CMD, A.mbox ch + R.MBX_STATUS] [.room]) ∧
  -- 3: getBootReport
  (∀ (s : State) (ch len seq : Nat),
    s.runs .core = true →
    ch < 2 ∧ s.chip.get (A.mbox ch) R.MBX_STATUS_busy = 0 ∧ len < 4096 ∧ seq < 256 →
    Does (.getBootReport ch len seq) s fun t =>
      t.chip.get (A.mbox ch) R.MBX_CMD_req_len = len ∧ t.chip.get (A.mbox ch) R.MBX_CMD_seq = seq ∧
        t.chip.get (A.mbox ch) R.MBX_STATUS_busy = 1 ∧ t.chip.get (A.mbox ch) R.MBX_CMD_opcode = 3 ∧
      t.chip.room = { s.chip.room with order := s.chip.room.order ++ [ch], cmds := s.chip.room.cmds.set ch (some { op := 3, seq, len, req := s.chip.room.data.bytes (ch * 0x400) (Nat.min len 1024), verdict := none, blown := 0, pass := true, excluded := false }) }
        ∧ OnlyParts s t [A.mbox ch + R.MBX_CMD, A.mbox ch + R.MBX_STATUS] [.room]) ∧
  -- 4: enrolCustomerKey
  (∀ (s : State) (ch len seq : Nat) (v : TokenCheck) (n : Nat),
    s.runs .core = true →
    ch < 2 ∧ s.chip.get (A.mbox ch) R.MBX_STATUS_busy = 0 ∧ len < 4096 ∧ seq < 256 →
    Does (.enrolCustomerKey ch len seq v n) s fun t =>
      t.chip.get (A.mbox ch) R.MBX_CMD_req_len = len ∧ t.chip.get (A.mbox ch) R.MBX_CMD_seq = seq ∧
        t.chip.get (A.mbox ch) R.MBX_STATUS_busy = 1 ∧ t.chip.get (A.mbox ch) R.MBX_CMD_opcode = 4 ∧
      t.chip.room = { s.chip.room with order := s.chip.room.order ++ [ch], cmds := s.chip.room.cmds.set ch (some { op := 4, seq, len, req := s.chip.room.data.bytes (ch * 0x400) (Nat.min len 1024), verdict := some v, blown := n, pass := true, excluded := s.chip.programming (1 - ch) }) }
        ∧ OnlyParts s t [A.mbox ch + R.MBX_CMD, A.mbox ch + R.MBX_STATUS] [.room]) ∧
  -- 5: revokeCustomerKey
  (∀ (s : State) (ch len seq : Nat) (v : TokenCheck) (n : Nat),
    s.runs .core = true →
    ch < 2 ∧ s.chip.get (A.mbox ch) R.MBX_STATUS_busy = 0 ∧ len < 4096 ∧ seq < 256 →
    Does (.revokeCustomerKey ch len seq v n) s fun t =>
      t.chip.get (A.mbox ch) R.MBX_CMD_req_len = len ∧ t.chip.get (A.mbox ch) R.MBX_CMD_seq = seq ∧
        t.chip.get (A.mbox ch) R.MBX_STATUS_busy = 1 ∧ t.chip.get (A.mbox ch) R.MBX_CMD_opcode = 5 ∧
      t.chip.room = { s.chip.room with order := s.chip.room.order ++ [ch], cmds := s.chip.room.cmds.set ch (some { op := 5, seq, len, req := s.chip.room.data.bytes (ch * 0x400) (Nat.min len 1024), verdict := some v, blown := n, pass := true, excluded := s.chip.programming (1 - ch) }) }
        ∧ OnlyParts s t [A.mbox ch + R.MBX_CMD, A.mbox ch + R.MBX_STATUS] [.room]) ∧
  -- 6: advanceEpoch
  (∀ (s : State) (ch len seq : Nat) (n : Nat),
    s.runs .core = true →
    ch < 2 ∧ s.chip.get (A.mbox ch) R.MBX_STATUS_busy = 0 ∧ len < 4096 ∧ seq < 256 →
    Does (.advanceEpoch ch len seq n) s fun t =>
      t.chip.get (A.mbox ch) R.MBX_CMD_req_len = len ∧ t.chip.get (A.mbox ch) R.MBX_CMD_seq = seq ∧
        t.chip.get (A.mbox ch) R.MBX_STATUS_busy = 1 ∧ t.chip.get (A.mbox ch) R.MBX_CMD_opcode = 6 ∧
      t.chip.room = { s.chip.room with order := s.chip.room.order ++ [ch], cmds := s.chip.room.cmds.set ch (some { op := 6, seq, len, req := s.chip.room.data.bytes (ch * 0x400) (Nat.min len 1024), verdict := none, blown := n, pass := true, excluded := s.chip.programming (1 - ch) }) }
        ∧ OnlyParts s t [A.mbox ch + R.MBX_CMD, A.mbox ch + R.MBX_STATUS] [.room]) ∧
  -- 7: debugChallenge
  (∀ (s : State) (ch len seq : Nat),
    s.runs .core = true →
    ch < 2 ∧ s.chip.get (A.mbox ch) R.MBX_STATUS_busy = 0 ∧ len < 4096 ∧ seq < 256 →
    Does (.debugChallenge ch len seq) s fun t =>
      t.chip.get (A.mbox ch) R.MBX_CMD_req_len = len ∧ t.chip.get (A.mbox ch) R.MBX_CMD_seq = seq ∧
        t.chip.get (A.mbox ch) R.MBX_STATUS_busy = 1 ∧ t.chip.get (A.mbox ch) R.MBX_CMD_opcode = 7 ∧
      t.chip.room = { s.chip.room with order := s.chip.room.order ++ [ch], cmds := s.chip.room.cmds.set ch (some { op := 7, seq, len, req := s.chip.room.data.bytes (ch * 0x400) (Nat.min len 1024), verdict := none, blown := 0, pass := true, excluded := false }) }
        ∧ OnlyParts s t [A.mbox ch + R.MBX_CMD, A.mbox ch + R.MBX_STATUS] [.room]) ∧
  -- 8: debugResponse
  (∀ (s : State) (ch len seq : Nat) (v : TokenCheck),
    s.runs .core = true →
    ch < 2 ∧ s.chip.get (A.mbox ch) R.MBX_STATUS_busy = 0 ∧ len < 4096 ∧ seq < 256 →
    Does (.debugResponse ch len seq v) s fun t =>
      t.chip.get (A.mbox ch) R.MBX_CMD_req_len = len ∧ t.chip.get (A.mbox ch) R.MBX_CMD_seq = seq ∧
        t.chip.get (A.mbox ch) R.MBX_STATUS_busy = 1 ∧ t.chip.get (A.mbox ch) R.MBX_CMD_opcode = 8 ∧
      t.chip.room = { s.chip.room with order := s.chip.room.order ++ [ch], cmds := s.chip.room.cmds.set ch (some { op := 8, seq, len, req := s.chip.room.data.bytes (ch * 0x400) (Nat.min len 1024), verdict := some v, blown := 0, pass := true, excluded := false }) }
        ∧ OnlyParts s t [A.mbox ch + R.MBX_CMD, A.mbox ch + R.MBX_STATUS] [.room]) ∧
  -- 9: setBootSlot
  (∀ (s : State) (ch len seq : Nat),
    s.runs .core = true →
    ch < 2 ∧ s.chip.get (A.mbox ch) R.MBX_STATUS_busy = 0 ∧ len < 4096 ∧ seq < 256 →
    Does (.setBootSlot ch len seq) s fun t =>
      t.chip.get (A.mbox ch) R.MBX_CMD_req_len = len ∧ t.chip.get (A.mbox ch) R.MBX_CMD_seq = seq ∧
        t.chip.get (A.mbox ch) R.MBX_STATUS_busy = 1 ∧ t.chip.get (A.mbox ch) R.MBX_CMD_opcode = 9 ∧
      t.chip.room = { s.chip.room with order := s.chip.room.order ++ [ch], cmds := s.chip.room.cmds.set ch (some { op := 9, seq, len, req := s.chip.room.data.bytes (ch * 0x400) (Nat.min len 1024), verdict := none, blown := 0, pass := true, excluded := false }) }
        ∧ OnlyParts s t [A.mbox ch + R.MBX_CMD, A.mbox ch + R.MBX_STATUS] [.room]) ∧
  -- 10: bootFromHost
  (∀ (s : State) (ch len seq : Nat),
    s.runs .core = true →
    ch < 2 ∧ s.chip.get (A.mbox ch) R.MBX_STATUS_busy = 0 ∧ len < 4096 ∧ seq < 256 →
    Does (.bootFromHost ch len seq) s fun t =>
      t.chip.get (A.mbox ch) R.MBX_CMD_req_len = len ∧ t.chip.get (A.mbox ch) R.MBX_CMD_seq = seq ∧
        t.chip.get (A.mbox ch) R.MBX_STATUS_busy = 1 ∧ t.chip.get (A.mbox ch) R.MBX_CMD_opcode = 10 ∧
      t.chip.room = { s.chip.room with order := s.chip.room.order ++ [ch], cmds := s.chip.room.cmds.set ch (some { op := 10, seq, len, req := s.chip.room.data.bytes (ch * 0x400) (Nat.min len 1024), verdict := none, blown := 0, pass := true, excluded := false }) }
        ∧ OnlyParts s t [A.mbox ch + R.MBX_CMD, A.mbox ch + R.MBX_STATUS] [.room]) ∧
  -- 11: selfTest
  (∀ (s : State) (ch len seq : Nat) (b : Bool),
    s.runs .core = true →
    ch < 2 ∧ s.chip.get (A.mbox ch) R.MBX_STATUS_busy = 0 ∧ len < 4096 ∧ seq < 256 →
    Does (.selfTest ch len seq b) s fun t =>
      t.chip.get (A.mbox ch) R.MBX_CMD_req_len = len ∧ t.chip.get (A.mbox ch) R.MBX_CMD_seq = seq ∧
        t.chip.get (A.mbox ch) R.MBX_STATUS_busy = 1 ∧ t.chip.get (A.mbox ch) R.MBX_CMD_opcode = 13 ∧
      t.chip.room = { s.chip.room with order := s.chip.room.order ++ [ch], cmds := s.chip.room.cmds.set ch (some { op := 13, seq, len, req := s.chip.room.data.bytes (ch * 0x400) (Nat.min len 1024), verdict := none, blown := 0, pass := b, excluded := false }) }
        ∧ OnlyParts s t [A.mbox ch + R.MBX_CMD, A.mbox ch + R.MBX_STATUS] [.room]) ∧
  -- 12: attest
  (∀ (s : State) (ch len seq : Nat),
    s.runs .core = true →
    ch < 2 ∧ s.chip.get (A.mbox ch) R.MBX_STATUS_busy = 0 ∧ len < 4096 ∧ seq < 256 →
    Does (.attest ch len seq) s fun t =>
      t.chip.get (A.mbox ch) R.MBX_CMD_req_len = len ∧ t.chip.get (A.mbox ch) R.MBX_CMD_seq = seq ∧
        t.chip.get (A.mbox ch) R.MBX_STATUS_busy = 1 ∧ t.chip.get (A.mbox ch) R.MBX_CMD_opcode = 14 ∧
      t.chip.room = { s.chip.room with order := s.chip.room.order ++ [ch], cmds := s.chip.room.cmds.set ch (some { op := 14, seq, len, req := s.chip.room.data.bytes (ch * 0x400) (Nat.min len 1024), verdict := none, blown := 0, pass := true, excluded := false }) }
        ∧ OnlyParts s t [A.mbox ch + R.MBX_CMD, A.mbox ch + R.MBX_STATUS] [.room]) ∧
  -- 13: 
  (∀ (s : State) (ch len seq n : Nat) (v : TokenCheck) (b : Bool),
    s.runs .core = true →
    2 ≤ ch ∨ s.chip.get (A.mbox ch) R.MBX_STATUS_busy = 1 →
    ∀ x ∈ ([.getInfo ch len seq, .getRandom ch len seq, .getBootReport ch len seq, .enrolCustomerKey ch len seq v n,
      .revokeCustomerKey ch len seq v n, .advanceEpoch ch len seq n, .debugChallenge ch len seq, .debugResponse ch len seq v,
      .setBootSlot ch len seq, .bootFromHost ch len seq, .selfTest ch len seq b, .attest ch len seq] : List Instr),
      Does x s fun t => OnlyRegs s t [])

/-- MAILBOX_COMPLETE of the channel whose turn it is clears busy, sets done, shows the sequence number and status, leaves the response in the
data area and takes the command out of the order. GET_INFO answers the device's identity and fuses; GET_RANDOM so many random bytes, or
0x0B while the health test fails; GET_BOOT_REPORT hash, slot, patches and customer hash; an enrolment whose fuses all read back stores
the hash and the enrolled bit, one of which no fuse is blown ends with 0x07 and a report; a revocation revokes; ADVANCE_EPOCH raises the
rollback count to the image's; DEBUG_CHALLENGE answers a nonce and keeps it; DEBUG_RESPONSE to it opens the level, and without one
answers 0x04; SET_BOOT_SLOT gives the slot to the keepsake store's queue; BOOT_FROM_HOST takes a chunk in sequence, the last one sends
the image to be checked, and a chunk out of sequence starts the transfer again; SELF_TEST passes, or halts the strongroom; ATTEST answers
128 bytes, the last 28 zero. A halted strongroom answers 0x09 and changes nothing else. Random and signature bytes are free values. -/
def Obligations.MailboxCommandsAnswer : Prop :=
  -- 1: mailboxComplete
  (∀ (s : State) (ch : Nat) (m : MailCmd),
    s.runs .core = true →
    ch < 2 ∧ s.chip.room.order.head? = some ch ∧ m.seq < 256 →
    s.chip.room.cmds.look ch = some m →
    s.chip.room.halted = false ∧ m.excluded = false →
    m.op = 1 ∧ m.len = 0 →
    Does (.mailboxComplete ch) s fun t => t.chip.get (A.mbox ch) R.MBX_STATUS_busy = 0 ∧ t.chip.get (A.mbox ch) R.MBX_STATUS_done = 1 ∧
      t.chip.get (A.mbox ch) R.MBX_STATUS_seq = m.seq ∧
      t.chip.get (A.mbox ch) R.MBX_STATUS_status = 0 ∧ t.chip.room =
        { s.chip.room with data := s.chip.room.data.setBytes (ch * 0x400) (Chip.infoBytes s.fuses), order := s.chip.room.order.filter (· != ch), cmds := s.chip.room.cmds.set ch none }
        ∧ OnlyParts s t [A.mbox ch + R.MBX_STATUS] [.room]) ∧
  -- 2: mailboxComplete
  (∀ (s : State) (ch : Nat) (m : MailCmd),
    s.runs .core = true →
    ch < 2 ∧ s.chip.room.order.head? = some ch ∧ m.seq < 256 →
    s.chip.room.cmds.look ch = some m →
    s.chip.room.halted = false ∧ m.excluded = false ∧ s.chip.room.trngBad = false →
    m.op = 2 ∧ m.len = 2 ∧ fieldAt m.req 0 2 ≠ 0 ∧ fieldAt m.req 0 2 ≤ 1024 →
    Does (.mailboxComplete ch) s fun t => t.chip.get (A.mbox ch) R.MBX_STATUS_busy = 0 ∧ t.chip.get (A.mbox ch) R.MBX_STATUS_done = 1 ∧
      t.chip.get (A.mbox ch) R.MBX_STATUS_seq = m.seq ∧
      t.chip.get (A.mbox ch) R.MBX_STATUS_status = 0 ∧ t.chip.get (A.mbox ch) R.MBX_STATUS_resp_len = fieldAt m.req 0 2 ∧
        t.chip.room = { s.chip.room with data := s.chip.room.data.setBytes (ch * 0x400) ((s.chip.quiet.freeBytes (fieldAt m.req 0 2)).1), order := s.chip.room.order.filter (· != ch), cmds := s.chip.room.cmds.set ch none }
        ∧ OnlyParts s t [A.mbox ch + R.MBX_STATUS] [.room, .fresh]) ∧
  -- 3: mailboxComplete
  (∀ (s : State) (ch : Nat) (m : MailCmd),
    s.runs .core = true →
    ch < 2 ∧ s.chip.room.order.head? = some ch ∧ m.seq < 256 →
    s.chip.room.cmds.look ch = some m →
    s.chip.room.halted = false ∧ m.excluded = false ∧ s.chip.room.trngBad = true →
    m.op = 2 ∧ m.len = 2 ∧ fieldAt m.req 0 2 ≠ 0 ∧ fieldAt m.req 0 2 ≤ 1024 →
    Does (.mailboxComplete ch) s fun t => t.chip.get (A.mbox ch) R.MBX_STATUS_busy = 0 ∧ t.chip.get (A.mbox ch) R.MBX_STATUS_done = 1 ∧
      t.chip.get (A.mbox ch) R.MBX_STATUS_seq = m.seq ∧
      t.chip.get (A.mbox ch) R.MBX_STATUS_status = 0xB ∧ t.chip.get (A.mbox ch) R.MBX_STATUS_resp_len = 0 ∧
        OnlyParts s t [A.mbox ch + R.MBX_STATUS] [.room]) ∧
  -- 4: mailboxComplete
  (∀ (s : State) (ch : Nat) (m : MailCmd),
    s.runs .core = true →
    ch < 2 ∧ s.chip.room.order.head? = some ch ∧ m.seq < 256 →
    s.chip.room.cmds.look ch = some m →
    s.chip.room.halted = false ∧ s.chip.room.e0 = true ∧ m.excluded = false →
    m.op = 3 ∧ m.len = 0 →
    Does (.mailboxComplete ch) s fun t => t.chip.get (A.mbox ch) R.MBX_STATUS_busy = 0 ∧ t.chip.get (A.mbox ch) R.MBX_STATUS_done = 1 ∧
      t.chip.get (A.mbox ch) R.MBX_STATUS_seq = m.seq ∧
      t.chip.get (A.mbox ch) R.MBX_STATUS_status = 0 ∧ t.chip.room =
        { s.chip.room with data := s.chip.room.data.setBytes (ch * 0x400) (s.chip.reportBytes), order := s.chip.room.order.filter (· != ch), cmds := s.chip.room.cmds.set ch none }
        ∧ OnlyParts s t [A.mbox ch + R.MBX_STATUS] [.room]) ∧
  -- 5: mailboxComplete
  (∀ (s : State) (ch : Nat) (m : MailCmd),
    s.runs .core = true →
    ch < 2 ∧ s.chip.room.order.head? = some ch ∧ m.seq < 256 →
    s.chip.room.cmds.look ch = some m →
    s.chip.room.halted = false ∧ s.chip.room.e0 = true ∧ m.excluded = false →
    s.fuses.debug ≠ 0 ∧ s.chip.room.debugOpen ≠ 2 →
    m.op = 4 ∧ m.len = 226 →
    m.arg < 4 ∧ bit s.fuses.enrolled m.arg = false ∧ bit s.fuses.partly m.arg = false ∧ tokenOk s.fuses m.verdict = true →
    onesOf 384 (enrolHash m) < m.blown →
    Does (.mailboxComplete ch) s fun t => t.chip.get (A.mbox ch) R.MBX_STATUS_busy = 0 ∧ t.chip.get (A.mbox ch) R.MBX_STATUS_done = 1 ∧
      t.chip.get (A.mbox ch) R.MBX_STATUS_seq = m.seq ∧
      t.chip.get (A.mbox ch) R.MBX_STATUS_status = 0 ∧ t.fuses =
        { s.fuses with customerHash := setAt s.fuses.customerHash m.arg (enrolHash m), enrolled := s.fuses.enrolled ||| BitVec.ofNat 4 (2 ^ m.arg) }
        ∧
      OnlyDev s t [A.mbox ch + R.MBX_STATUS] [.room] ∧ t.nv = s.nv) ∧
  -- 6: mailboxComplete
  (∀ (s : State) (ch : Nat) (m : MailCmd),
    s.runs .core = true →
    ch < 2 ∧ s.chip.room.order.head? = some ch ∧ m.seq < 256 →
    s.chip.room.cmds.look ch = some m →
    s.chip.room.halted = false ∧ s.chip.room.e0 = true ∧ m.excluded = false →
    s.fuses.debug ≠ 0 ∧ s.chip.room.debugOpen ≠ 2 →
    m.op = 4 ∧ m.len = 226 →
    m.arg < 4 ∧ bit s.fuses.enrolled m.arg = false ∧ bit s.fuses.partly m.arg = false ∧ tokenOk s.fuses m.verdict = true →
    m.blown = 0 →
    Does (.mailboxComplete ch) s fun t => t.chip.get (A.mbox ch) R.MBX_STATUS_busy = 0 ∧ t.chip.get (A.mbox ch) R.MBX_STATUS_done = 1 ∧
      t.chip.get (A.mbox ch) R.MBX_STATUS_seq = m.seq ∧
      t.chip.get (A.mbox ch) R.MBX_STATUS_status = 7 ∧ t.chip.ledger = s.chip.sent [s.chip.msgOf roomUnit K.fuseProgramFail 2] ∧
        OnlyParts s t [A.mbox ch + R.MBX_STATUS] [.room, .ledger, .fresh]) ∧
  -- 7: mailboxComplete
  (∀ (s : State) (ch : Nat) (m : MailCmd),
    s.runs .core = true →
    ch < 2 ∧ s.chip.room.order.head? = some ch ∧ m.seq < 256 →
    s.chip.room.cmds.look ch = some m →
    s.chip.room.halted = false ∧ s.chip.room.e0 = true ∧ m.excluded = false →
    s.fuses.debug ≠ 0 ∧ s.chip.room.debugOpen ≠ 2 →
    m.op = 5 ∧ m.len = 226 →
    m.arg < 4 ∧ bit s.fuses.enrolled m.arg = true ∧ bit s.fuses.customerRevoked m.arg = false ∧ tokenOk s.fuses m.verdict = true →
    0 < m.blown →
    Does (.mailboxComplete ch) s fun t => t.chip.get (A.mbox ch) R.MBX_STATUS_busy = 0 ∧ t.chip.get (A.mbox ch) R.MBX_STATUS_done = 1 ∧
      t.chip.get (A.mbox ch) R.MBX_STATUS_seq = m.seq ∧
      t.chip.get (A.mbox ch) R.MBX_STATUS_status = 0 ∧ t.fuses =
        { s.fuses with customerRevoked := s.fuses.customerRevoked ||| BitVec.ofNat 4 (2 ^ m.arg) } ∧
        OnlyDev s t [A.mbox ch + R.MBX_STATUS] [.room] ∧ t.nv = s.nv) ∧
  -- 8: mailboxComplete
  (∀ (s : State) (ch : Nat) (m : MailCmd),
    s.runs .core = true →
    ch < 2 ∧ s.chip.room.order.head? = some ch ∧ m.seq < 256 →
    s.chip.room.cmds.look ch = some m →
    s.chip.room.halted = false ∧ s.chip.room.e0 = true ∧ m.excluded = false →
    s.fuses.debug ≠ 0 ∧ s.chip.room.debugOpen ≠ 2 →
    m.op = 6 ∧ m.len = 0 →
    s.chip.image.version / 2 ^ 24 % 256 - s.fuses.rollback ≤ m.blown →
    Does (.mailboxComplete ch) s fun t => t.chip.get (A.mbox ch) R.MBX_STATUS_busy = 0 ∧ t.chip.get (A.mbox ch) R.MBX_STATUS_done = 1 ∧
      t.chip.get (A.mbox ch) R.MBX_STATUS_seq = m.seq ∧
      t.chip.get (A.mbox ch) R.MBX_STATUS_status = 0 ∧ t.fuses =
        { s.fuses with rollback := s.fuses.rollback + (s.chip.image.version / 2 ^ 24 % 256 - s.fuses.rollback) } ∧
      OnlyDev s t [A.mbox ch + R.MBX_STATUS] [.room] ∧ t.nv = s.nv) ∧
  -- 9: mailboxComplete
  (∀ (s : State) (ch : Nat) (m : MailCmd),
    s.runs .core = true →
    ch < 2 ∧ s.chip.room.order.head? = some ch ∧ m.seq < 256 →
    s.chip.room.cmds.look ch = some m →
    s.chip.room.halted = false ∧ s.chip.room.e0 = true ∧ m.excluded = false →
    s.fuses.debug ≠ 3 ∧ s.chip.room.trngBad = false →
    m.op = 7 ∧ m.len = 1 ∧ (m.arg = 1 ∨ m.arg = 2) →
    Does (.mailboxComplete ch) s fun t => t.chip.get (A.mbox ch) R.MBX_STATUS_busy = 0 ∧ t.chip.get (A.mbox ch) R.MBX_STATUS_done = 1 ∧
      t.chip.get (A.mbox ch) R.MBX_STATUS_seq = m.seq ∧
      t.chip.get (A.mbox ch) R.MBX_STATUS_status = 0 ∧ t.chip.get (A.mbox ch) R.MBX_STATUS_resp_len = 48 ∧
        t.chip.room.nonce = some (m.arg, (s.chip.quiet.freeBytes 48).1) ∧ OnlyParts s t [A.mbox ch + R.MBX_STATUS] [.room, .fresh]) ∧
  -- 10: mailboxComplete
  (∀ (s : State) (ch : Nat) (m : MailCmd),
    s.runs .core = true →
    ch < 2 ∧ s.chip.room.order.head? = some ch ∧ m.seq < 256 →
    s.chip.room.cmds.look ch = some m →
    s.chip.room.halted = false ∧ s.chip.room.e0 = true ∧ m.excluded = false →
    s.fuses.debug ≠ 3 →
    m.op = 8 ∧ m.len = 226 ∧ (m.arg = 1 ∨ (m.arg = 2 ∧ byVendor m.verdict = true)) ∧ tokenOk s.fuses m.verdict = true →
    ((s.chip.room.nonce.any fun n => n.1 == m.arg) = true) →
    Does (.mailboxComplete ch) s fun t => t.chip.get (A.mbox ch) R.MBX_STATUS_busy = 0 ∧ t.chip.get (A.mbox ch) R.MBX_STATUS_done = 1 ∧
      t.chip.get (A.mbox ch) R.MBX_STATUS_seq = m.seq ∧
      t.chip.get (A.mbox ch) R.MBX_STATUS_status = 0 ∧ t.chip.room =
        { s.chip.room with debugOpen := Nat.max s.chip.room.debugOpen m.arg, nonce := none, data := s.chip.room.data.setBytes (ch * 0x400) [], order := s.chip.room.order.filter (· != ch), cmds := s.chip.room.cmds.set ch none }
        ∧
      t.chip.get 0 R.BOOT_STATUS_debug_open = Nat.max s.chip.room.debugOpen m.arg % 4 ∧
        t.chip.ledger = s.chip.sent [s.chip.msgOf roomUnit K.debugUnlocked 0 m.arg] ∧
        OnlyParts s t [A.mbox ch + R.MBX_STATUS, R.BOOT_STATUS] [.room, .ledger]) ∧
  -- 11: mailboxComplete
  (∀ (s : State) (ch : Nat) (m : MailCmd),
    s.runs .core = true →
    ch < 2 ∧ s.chip.room.order.head? = some ch ∧ m.seq < 256 →
    s.chip.room.cmds.look ch = some m →
    s.chip.room.halted = false ∧ s.chip.room.e0 = true ∧ m.excluded = false →
    s.fuses.debug ≠ 3 →
    m.op = 8 ∧ m.len = 226 ∧ (m.arg = 1 ∨ m.arg = 2) →
    ((s.chip.room.nonce.any fun n => n.1 == m.arg) = false ∨ tokenOk s.fuses m.verdict = false ∨ (m.arg = 2 ∧ byVendor m.verdict = false)) →
    Does (.mailboxComplete ch) s fun t => t.chip.get (A.mbox ch) R.MBX_STATUS_busy = 0 ∧ t.chip.get (A.mbox ch) R.MBX_STATUS_done = 1 ∧
      t.chip.get (A.mbox ch) R.MBX_STATUS_seq = m.seq ∧
      t.chip.get (A.mbox ch) R.MBX_STATUS_status = 4 ∧ t.chip.room =
        { s.chip.room with nonce := none, data := s.chip.room.data.setBytes (ch * 0x400) [], order := s.chip.room.order.filter (· != ch), cmds := s.chip.room.cmds.set ch none }
        ∧ OnlyParts s t [A.mbox ch + R.MBX_STATUS] [.room]) ∧
  -- 12: mailboxComplete
  (∀ (s : State) (ch : Nat) (m : MailCmd),
    s.runs .core = true →
    ch < 2 ∧ s.chip.room.order.head? = some ch ∧ m.seq < 256 →
    s.chip.room.cmds.look ch = some m →
    s.chip.room.halted = false ∧ s.chip.room.e0 = true ∧ m.excluded = false →
    m.op = 9 ∧ m.len = 1 ∧ m.arg ≤ 1 →
    Does (.mailboxComplete ch) s fun t => t.chip.get (A.mbox ch) R.MBX_STATUS_busy = 0 ∧ t.chip.get (A.mbox ch) R.MBX_STATUS_done = 1 ∧
      t.chip.get (A.mbox ch) R.MBX_STATUS_seq = m.seq ∧
      t.chip.get (A.mbox ch) R.MBX_STATUS_status = 0 ∧ t.chip.get (A.mbox ch) R.MBX_STATUS_resp_len = 0 ∧
        t.chip.house.queue = s.chip.house.queue ++ [.boot m.arg] ∧ OnlyParts s t [A.mbox ch + R.MBX_STATUS] [.room, .house]) ∧
  -- 13: mailboxComplete
  (∀ (s : State) (ch : Nat) (m : MailCmd),
    s.runs .core = true →
    ch < 2 ∧ s.chip.room.order.head? = some ch ∧ m.seq < 256 →
    s.chip.room.cmds.look ch = some m →
    s.chip.room.halted = false ∧ m.excluded = false ∧ s.chip.stage = 7 →
    m.op = 10 ∧ 5 ≤ m.len ∧ m.len ≤ 1021 ∧ fieldAt m.req 0 4 = s.chip.room.hostBytes →
    fieldAt m.req 4 1 = 0 →
    Does (.mailboxComplete ch) s fun t => t.chip.get (A.mbox ch) R.MBX_STATUS_busy = 0 ∧ t.chip.get (A.mbox ch) R.MBX_STATUS_done = 1 ∧
      t.chip.get (A.mbox ch) R.MBX_STATUS_seq = m.seq ∧
      t.chip.get (A.mbox ch) R.MBX_STATUS_status = 0 ∧ t.chip.room =
        { s.chip.room with hostBytes := s.chip.room.hostBytes + (m.req.drop 5).length, hostImage := s.chip.room.hostImage ++ m.req.drop 5, data := s.chip.room.data.setBytes (ch * 0x400) (toLE 4 (s.chip.room.hostBytes + (m.req.drop 5).length)), order := s.chip.room.order.filter (· != ch), cmds := s.chip.room.cmds.set ch none }
        ∧ OnlyParts s t [A.mbox ch + R.MBX_STATUS] [.room]) ∧
  -- 14: mailboxComplete
  (∀ (s : State) (ch : Nat) (m : MailCmd),
    s.runs .core = true →
    ch < 2 ∧ s.chip.room.order.head? = some ch ∧ m.seq < 256 →
    s.chip.room.cmds.look ch = some m →
    s.chip.room.halted = false ∧ m.excluded = false ∧ s.chip.stage = 7 →
    m.op = 10 ∧ 5 ≤ m.len ∧ m.len ≤ 1021 ∧ fieldAt m.req 0 4 = s.chip.room.hostBytes →
    fieldAt m.req 4 1 ≠ 0 →
    Does (.mailboxComplete ch) s fun t => t.chip.get (A.mbox ch) R.MBX_STATUS_busy = 0 ∧ t.chip.get (A.mbox ch) R.MBX_STATUS_done = 1 ∧
      t.chip.get (A.mbox ch) R.MBX_STATUS_seq = m.seq ∧
      t.chip.get (A.mbox ch) R.MBX_STATUS_status = 0 ∧ t.chip.room.trying = some 2 ∧
        t.chip.room.hostImage = s.chip.room.hostImage ++ m.req.drop 5 ∧ t.chip.stage = 4 ∧ t.chip.get 0 R.IMAGE_STATUS_state = 1 ∧
        OnlyParts s t [A.mbox ch + R.MBX_STATUS, R.BOOT_STATUS, R.IMAGE_STATUS] [.room]) ∧
  -- 15: mailboxComplete
  (∀ (s : State) (ch : Nat) (m : MailCmd),
    s.runs .core = true →
    ch < 2 ∧ s.chip.room.order.head? = some ch ∧ m.seq < 256 →
    s.chip.room.cmds.look ch = some m →
    s.chip.room.halted = false ∧ m.excluded = false ∧ s.chip.stage = 7 →
    m.op = 10 ∧ 5 ≤ m.len ∧ m.len ≤ 1021 ∧ fieldAt m.req 0 4 ≠ s.chip.room.hostBytes →
    Does (.mailboxComplete ch) s fun t => t.chip.get (A.mbox ch) R.MBX_STATUS_busy = 0 ∧ t.chip.get (A.mbox ch) R.MBX_STATUS_done = 1 ∧
      t.chip.get (A.mbox ch) R.MBX_STATUS_seq = m.seq ∧
      t.chip.get (A.mbox ch) R.MBX_STATUS_status = 10 ∧ t.chip.room.hostBytes = 0 ∧ t.chip.room.hostImage = [] ∧
        t.chip.get 0 R.IMAGE_STATUS_state = 4 ∧ t.chip.get 0 R.IMAGE_STATUS_reason = 0x18 ∧
      t.chip.ledger = s.chip.sent [s.chip.msgOf roomUnit K.bootAuthFail 5] ∧
        OnlyParts s t [A.mbox ch + R.MBX_STATUS, R.IMAGE_STATUS] [.room, .ledger]) ∧
  -- 16: mailboxComplete
  (∀ (s : State) (ch : Nat) (m : MailCmd),
    s.runs .core = true →
    ch < 2 ∧ s.chip.room.order.head? = some ch ∧ m.seq < 256 →
    s.chip.room.cmds.look ch = some m →
    s.chip.room.halted = false ∧ m.excluded = false →
    m.op = 13 ∧ m.len = 0 ∧ m.pass = true →
    Does (.mailboxComplete ch) s fun t => t.chip.get (A.mbox ch) R.MBX_STATUS_busy = 0 ∧ t.chip.get (A.mbox ch) R.MBX_STATUS_done = 1 ∧
      t.chip.get (A.mbox ch) R.MBX_STATUS_seq = m.seq ∧
      t.chip.get (A.mbox ch) R.MBX_STATUS_status = 0 ∧ t.chip.get (A.mbox ch) R.MBX_STATUS_resp_len = 1 ∧ t.chip.room.halted = false ∧
        OnlyParts s t [A.mbox ch + R.MBX_STATUS] [.room, .fresh]) ∧
  -- 17: mailboxComplete
  (∀ (s : State) (ch : Nat) (m : MailCmd),
    s.runs .core = true →
    ch < 2 ∧ s.chip.room.order.head? = some ch ∧ m.seq < 256 →
    s.chip.room.cmds.look ch = some m →
    s.chip.room.halted = false ∧ m.excluded = false →
    m.op = 13 ∧ m.len = 0 ∧ m.pass = false →
    Does (.mailboxComplete ch) s fun t => t.chip.get (A.mbox ch) R.MBX_STATUS_busy = 0 ∧ t.chip.get (A.mbox ch) R.MBX_STATUS_done = 1 ∧
      t.chip.get (A.mbox ch) R.MBX_STATUS_seq = m.seq ∧
      t.chip.get (A.mbox ch) R.MBX_STATUS_status = 9 ∧ t.chip.room.halted = true ∧ t.chip.room.nonce = none ∧ t.chip.stage = 15 ∧
      t.chip.ledger = s.chip.sent [s.chip.msgOf roomUnit K.strongroomSelftest 5] ∧
        OnlyParts s t [A.mbox ch + R.MBX_STATUS, R.BOOT_STATUS, R.IMAGE_STATUS] [.room, .ledger]) ∧
  -- 18: mailboxComplete
  (∀ (s : State) (ch : Nat) (m : MailCmd),
    s.runs .core = true →
    ch < 2 ∧ s.chip.room.order.head? = some ch ∧ m.seq < 256 →
    s.chip.room.cmds.look ch = some m →
    s.chip.room.halted = false ∧ s.chip.room.e0 = true ∧ m.excluded = false →
    m.op = 14 ∧ m.len = 48 →
    Does (.mailboxComplete ch) s fun t => t.chip.get (A.mbox ch) R.MBX_STATUS_busy = 0 ∧ t.chip.get (A.mbox ch) R.MBX_STATUS_done = 1 ∧
      t.chip.get (A.mbox ch) R.MBX_STATUS_seq = m.seq ∧
      t.chip.get (A.mbox ch) R.MBX_STATUS_status = 0 ∧ t.chip.get (A.mbox ch) R.MBX_STATUS_resp_len = 128 ∧
        t.chip.room = { s.chip.room with data := s.chip.room.data.setBytes (ch * 0x400) ((s.chip.quiet.freeBytes 100).1 ++ List.replicate 28 0), order := s.chip.room.order.filter (· != ch), cmds := s.chip.room.cmds.set ch none }
        ∧ OnlyParts s t [A.mbox ch + R.MBX_STATUS] [.room, .fresh]) ∧
  -- 19: mailboxComplete
  (∀ (s : State) (ch : Nat) (m : MailCmd),
    s.runs .core = true →
    ch < 2 ∧ s.chip.room.order.head? = some ch ∧ m.seq < 256 →
    s.chip.room.cmds.look ch = some m →
    s.chip.room.halted = true →
    Does (.mailboxComplete ch) s fun t => t.chip.get (A.mbox ch) R.MBX_STATUS_busy = 0 ∧ t.chip.get (A.mbox ch) R.MBX_STATUS_done = 1 ∧
      t.chip.get (A.mbox ch) R.MBX_STATUS_seq = m.seq ∧
      t.chip.get (A.mbox ch) R.MBX_STATUS_status = 9 ∧ t.chip.get (A.mbox ch) R.MBX_STATUS_resp_len = 0 ∧
        t.chip.room = { s.chip.room with data := s.chip.room.data.setBytes (ch * 0x400) ([]), order := s.chip.room.order.filter (· != ch), cmds := s.chip.room.cmds.set ch none }
        ∧ OnlyParts s t [A.mbox ch + R.MBX_STATUS] [.room])

/-- LANE_TX_EQ_WRITE whose taps sum to at most 63 sets them in every member of the lane's suite, and is ignored otherwise. LANE_TEST_WRITE
sets the pattern where the port is disabled or the pattern is off, and is ignored while the port is enabled. A signal gained sets
signal_detect and cdr_lock; lost, it clears every lock and the port's alignment. LANE_ADAPT_COMPLETE of a lane with a signal locks it, of
one without changes nothing. An uncorrectable codeword is counted and marks the frame being received; without FEC there is none.
FEC_DEGRADE_WINDOW counts the corrected symbols and codewords, and the wrong bits while a pattern runs; the first 1 ms window over the
threshold reports FEC_DEGRADE, the first at or under it ends the condition. -/
def Obligations.LanesFollowTheirSignals : Prop :=
  -- 1: laneTxEqWrite
  (∀ (s : State) (src : Source) (q : Nat) (data : Word),
    s.serves src (A.lane q + R.LANE_TX_EQ) true = true →
    q < 128 →
    bits data 29 24 + bits data 21 16 + bits data 13 8 + bits data 5 0 ≤ 63 →
    Does (.laneTxEqWrite src q data) s fun t =>
      (∀ u, u ∈ s.chip.members (U.lane q) →
        t.chip.get (A.lane (U.index u)) R.LANE_TX_EQ_pre2 = bits data 29 24 ∧
          t.chip.get (A.lane (U.index u)) R.LANE_TX_EQ_pre1 = bits data 21 16 ∧
        t.chip.get (A.lane (U.index u)) R.LANE_TX_EQ_main = bits data 13 8 ∧
          t.chip.get (A.lane (U.index u)) R.LANE_TX_EQ_post1 = bits data 5 0) ∧
      OnlyRegs s t ((s.chip.members (U.lane q)).map fun u => A.lane (U.index u) + R.LANE_TX_EQ)) ∧
  -- 2: laneTestWrite
  (∀ (s : State) (src : Source) (q prbs : Nat),
    s.serves src (A.lane q + R.LANE_TEST) true = true →
    q < 128 →
    prbs < 4 →
    ((prbs = 0 ∨ ((s.chip.members (U.lane q)).all fun u => (s.chip.portOfLane (U.index u)).any fun r => !(s.chip.on (A.port r.first)
      R.PORT_CTRL_enable)) = true)) →
    Does (.laneTestWrite src q prbs) s fun t =>
      (∀ u, u ∈ s.chip.members (U.lane q) → t.chip.get (A.lane (U.index u)) R.LANE_TEST_prbs = prbs) ∧
      OnlyRegs s t ((s.chip.members (U.lane q)).map fun u => A.lane (U.index u) + R.LANE_TEST)) ∧
  -- 3: laneSignalChange
  (∀ (s : State) (q : Nat),
    s.runs .core = true →
    s.chip.laneRuns q = true →
    Does (.laneSignalChange q true) s fun t =>
      t.chip.get (A.lane q) R.LANE_STATUS_signal_detect = 1 ∧ t.chip.get (A.lane q) R.LANE_STATUS_cdr_lock = 1 ∧
        OnlyRegs s t [A.lane q + R.LANE_STATUS]) ∧
  -- 4: laneSignalChange
  (∀ (s : State) (q : Nat) (r : PortRec),
    s.runs .core = true →
    s.chip.laneRuns q = true →
    s.chip.portOfLane q = some r →
    Does (.laneSignalChange q false) s fun t =>
      t.chip.get (A.lane q) R.LANE_STATUS_signal_detect = 0 ∧ t.chip.get (A.lane q) R.LANE_STATUS_cdr_lock = 0 ∧
      t.chip.get (A.lane q) R.LANE_STATUS_adapt_done = 0 ∧ t.chip.get (A.lane q) R.LANE_STATUS_block_lock = 0 ∧
      t.chip.get (A.lane q) R.LANE_STATUS_fec_lock = 0 ∧ t.chip.get (A.port r.first) R.PORT_STATUS_rx_aligned = 0 ∧
      OnlyParts s t [A.lane q + R.LANE_STATUS, A.port r.first + R.PORT_STATUS] [.ports]) ∧
  -- 5: laneAdaptComplete
  (∀ (s : State) (q : Nat),
    s.runs .core = true →
    s.chip.laneRuns q = true →
    s.chip.get (A.lane q) R.LANE_STATUS_signal_detect = 1 →
    Does (.laneAdaptComplete q) s fun t =>
      t.chip.get (A.lane q) R.LANE_STATUS_adapt_done = 1 ∧ t.chip.get (A.lane q) R.LANE_STATUS_block_lock = 1 ∧
      t.chip.get (A.lane q) R.LANE_STATUS_fec_lock = 1 ∧ OnlyRegs s t [A.lane q + R.LANE_STATUS]) ∧
  -- 6: fecUncorrectableCodeword
  (∀ (s : State) (q : Nat) (r : PortRec),
    s.runs .core = true →
    s.chip.laneRuns q = true →
    s.chip.portOfLane q = some r →
    r.fec ≠ 0 →
    Does (.fecUncorrectableCodeword q) s fun t =>
      t.chip.reg (s.chip.laneCnt q + C.fec_uncorrected_cw) = s.chip.reg (s.chip.laneCnt q + C.fec_uncorrected_cw) + 1 ∧
      (t.chip.prt r.first).rx = (s.chip.prt r.first).rx.map (fun x => { x with marked := true }) ∧
      (∀ p, p ≠ r.first → t.chip.prt p = s.chip.prt p) ∧ OnlyParts s t [s.chip.laneCnt q + C.fec_uncorrected_cw] [.ports]) ∧
  -- 7: laneTxEqWrite
  (∀ (s : State) (src : Source) (q : Nat) (data : Word),
    s.serves src (A.lane q + R.LANE_TX_EQ) true = true →
    63 < bits data 29 24 + bits data 21 16 + bits data 13 8 + bits data 5 0 →
    Does (.laneTxEqWrite src q data) s fun t => OnlyRegs s t []) ∧
  -- 8: laneTestWrite
  (∀ (s : State) (src : Source) (q prbs : Nat),
    s.serves src (A.lane q + R.LANE_TEST) true = true →
    q < 128 →
    prbs % 4 ≠ 0 →
    (((s.chip.members (U.lane q)).all fun u => (s.chip.portOfLane (U.index u)).all fun r => s.chip.on (A.port r.first) R.PORT_CTRL_enable) =
      true) →
    Does (.laneTestWrite src q prbs) s fun t => OnlyRegs s t []) ∧
  -- 9: laneAdaptComplete
  (∀ (s : State) (q : Nat),
    s.runs .core = true →
    s.chip.get (A.lane q) R.LANE_STATUS_signal_detect = 0 ∨ s.chip.laneRuns q = false →
    Does (.laneAdaptComplete q) s fun t => OnlyRegs s t []) ∧
  -- 10: fecDegradeWindow
  (∀ (s : State) (q n w e : Nat),
    s.runs .core = true →
    s.chip.laneRuns q = true →
    s.chip.fecAlarm.look q = false →
    s.chip.get (A.lane q) R.LANE_FEC_DEGRADE_symbols_per_ms ≠ 0 ∧ s.chip.get (A.lane q) R.LANE_FEC_DEGRADE_symbols_per_ms < n →
    Does (.fecDegradeWindow q { symbols := n, words := w, errors := e }) s fun t =>
      t.chip.reg (s.chip.laneCnt q + C.fec_symbol_err) = s.chip.reg (s.chip.laneCnt q + C.fec_symbol_err) + BitVec.ofNat 64 n ∧
        t.chip.reg (s.chip.laneCnt q + C.fec_corrected_cw) = s.chip.reg (s.chip.laneCnt q + C.fec_corrected_cw) + BitVec.ofNat 64 w ∧
        t.chip.reg (s.chip.laneCnt q + C.prbs_err) = s.chip.reg (s.chip.laneCnt q + C.prbs_err) + (if s.chip.get (A.lane q) R.LANE_TEST_prbs
        = 0 then 0 else BitVec.ofNat 64 e) ∧ t.chip.fecAlarm.look q = true ∧
        t.chip.ledger = s.chip.sent [s.chip.msgOf (U.lane q) K.fecDegrade 2] ∧
        OnlyParts s t [s.chip.laneCnt q + C.fec_symbol_err, s.chip.laneCnt q + C.fec_corrected_cw,
        s.chip.laneCnt q + C.prbs_err] [.fecAlarm, .ledger]) ∧
  -- 11: fecDegradeWindow
  (∀ (s : State) (q n w e : Nat),
    s.runs .core = true →
    s.chip.laneRuns q = true →
    s.chip.fecAlarm.look q = true →
    s.chip.get (A.lane q) R.LANE_FEC_DEGRADE_symbols_per_ms = 0 ∨ n ≤ s.chip.get (A.lane q) R.LANE_FEC_DEGRADE_symbols_per_ms →
    Does (.fecDegradeWindow q { symbols := n, words := w, errors := e }) s fun t =>
      t.chip.reg (s.chip.laneCnt q + C.fec_symbol_err) = s.chip.reg (s.chip.laneCnt q + C.fec_symbol_err) + BitVec.ofNat 64 n ∧
        t.chip.reg (s.chip.laneCnt q + C.fec_corrected_cw) = s.chip.reg (s.chip.laneCnt q + C.fec_corrected_cw) + BitVec.ofNat 64 w ∧
        t.chip.reg (s.chip.laneCnt q + C.prbs_err) = s.chip.reg (s.chip.laneCnt q + C.prbs_err) + (if s.chip.get (A.lane q) R.LANE_TEST_prbs
        = 0 then 0 else BitVec.ofNat 64 e) ∧ t.chip.fecAlarm.look q = false ∧
        t.chip.ledger = { s.chip.ledger with ended := s.chip.ledger.ended ++ [(s.chip.suiteUnit (U.lane q), K.fecDegrade)] } ∧
      OnlyParts s t [s.chip.laneCnt q + C.fec_symbol_err, s.chip.laneCnt q + C.fec_corrected_cw, s.chip.laneCnt q + C.prbs_err] [.fecAlarm,
        .ledger]) ∧
  -- 12: fecDegradeWindow
  (∀ (s : State) (q n w e : Nat),
    s.runs .core = true →
    s.chip.laneRuns q = true →
    (s.chip.fecAlarm.look q = true ∧ s.chip.get (A.lane q) R.LANE_FEC_DEGRADE_symbols_per_ms ≠ 0 ∧
      s.chip.get (A.lane q) R.LANE_FEC_DEGRADE_symbols_per_ms < n) ∨ (s.chip.fecAlarm.look q = false ∧
      (s.chip.get (A.lane q) R.LANE_FEC_DEGRADE_symbols_per_ms = 0 ∨ n ≤ s.chip.get (A.lane q) R.LANE_FEC_DEGRADE_symbols_per_ms)) →
    Does (.fecDegradeWindow q { symbols := n, words := w, errors := e }) s fun t =>
      t.chip.reg (s.chip.laneCnt q + C.fec_symbol_err) = s.chip.reg (s.chip.laneCnt q + C.fec_symbol_err) + BitVec.ofNat 64 n ∧
        t.chip.reg (s.chip.laneCnt q + C.fec_corrected_cw) = s.chip.reg (s.chip.laneCnt q + C.fec_corrected_cw) + BitVec.ofNat 64 w ∧
        t.chip.reg (s.chip.laneCnt q + C.prbs_err) = s.chip.reg (s.chip.laneCnt q + C.prbs_err) + (if s.chip.get (A.lane q) R.LANE_TEST_prbs
        = 0 then 0 else BitVec.ofNat 64 e) ∧ t.chip.fecAlarm.look q = s.chip.fecAlarm.look q ∧
        OnlyParts s t [s.chip.laneCnt q + C.fec_symbol_err, s.chip.laneCnt q + C.fec_corrected_cw,
        s.chip.laneCnt q + C.prbs_err] [.fecAlarm])

/-- PCS_STATUS_CHANGE shows alignment (with every lane locked and none in reset) and faults, and starts or ends the time of each link-down
condition and of the absence of all. LINK_DOWN of a link one of whose conditions lasted debounce_us, or that is disabled, clears link_up,
paused, xoff_sent and tx_lpi, sets its event, counts, and starts the hold with the present hold_us; in a hold already running the timer
stays; with hold_us 0 it expires at once. LINK_UP of an enabled port that was good for settle_us, in no hold or in one whose expiry it
does not miss, sets link_up, ends hold, flush and pauses and sets its event. HOLD_EXPIRY ends the hold, sets flushed and its event; it
does nothing when link-up was due by then, nor before its time. What else may change is stated for a port whose gates are off or whose
queues are empty, and for an expiry with nothing to flush. -/
def Obligations.LinksGoDownAndUp : Prop :=
  -- 1: pcsStatusChange
  (∀ (s : State) (p : Nat) (al lf rf : Bool),
    s.runs .core = true →
    s.chip.portThere p = true →
    Does (.pcsStatusChange p al lf rf) s fun t =>
      t.chip.get (A.port p) R.PORT_STATUS_rx_aligned = b2n (al && !((s.chip.portLanes p).any s.chip.lineReset) && s.chip.lanesLocked p) ∧
      t.chip.get (A.port p) R.PORT_STATUS_local_fault = b2n lf ∧ t.chip.get (A.port p) R.PORT_STATUS_remote_fault = b2n rf ∧
      (t.chip.prt p).unalignedSince = Chip.lastsSince s.chip.now (t.chip.get (A.port p) R.PORT_STATUS_rx_aligned ==
        0) (s.chip.prt p).unalignedSince ∧
      (t.chip.prt p).localSince = Chip.lastsSince s.chip.now lf (s.chip.prt p).localSince ∧
      (t.chip.prt p).remoteSince = Chip.lastsSince s.chip.now rf (s.chip.prt p).remoteSince ∧
      (t.chip.prt p).goodSince = Chip.lastsSince s.chip.now (t.chip.get (A.port p) R.PORT_STATUS_rx_aligned !=
        0 && !lf && !rf) (s.chip.prt p).goodSince ∧
      (∀ q, q ≠ p → t.chip.prt q = s.chip.prt q) ∧ OnlyParts s t [A.port p + R.PORT_STATUS] [.ports]) ∧
  -- 2: linkDown
  (∀ (s : State) (p : Nat),
    s.runs .core = true →
    s.chip.portThere p = true →
    s.chip.get (A.port p) R.PORT_STATUS_link_up = 1 →
    (s.chip.get (A.port p) R.PORT_CTRL_enable = 0 ∨ ([(s.chip.prt p).unalignedSince, (s.chip.prt p).localSince,
      (s.chip.prt p).remoteSince].any fun x => x.any fun x => decide (x + s.chip.get (A.port p) R.PORT_LINK_TIMING_debounce_us * 1000 ≤
      s.chip.now)) = true) →
    s.chip.get (A.port p) R.PORT_STATUS_in_hold = 0 →
    s.chip.get (A.port p) R.PORT_HOLD_hold_us ≠ 0 →
    Does (.linkDown p) s fun t =>
      t.chip.get (A.port p) R.PORT_STATUS_link_up = 0 ∧ t.chip.get (A.port p) R.PORT_STATUS_paused = 0 ∧
        t.chip.get (A.port p) R.PORT_STATUS_xoff_sent = 0 ∧ t.chip.get (A.port p) R.PORT_STATUS_tx_lpi = 0 ∧
        t.chip.get (s.chip.portCnt p) R.PORT_EVENT_link_down = 1 ∧
        t.chip.reg (s.chip.portCnt p + C.link_down_events) = s.chip.reg (s.chip.portCnt p + C.link_down_events) + 1 ∧
        t.chip.get (A.port p) R.PORT_STATUS_in_hold = 1 ∧
      (s.chip.get (A.port p) R.GATE_CTRL_enable = 0 ∨ s.chip.portQueues p = [] →
        (t.chip.prt p).hold = some (s.chip.now, s.chip.get (A.port p) R.PORT_HOLD_hold_us) ∧ (t.chip.prt p).pauseEnd = [] ∧ (∀ q, q ≠ p →
        t.chip.prt q = s.chip.prt q) ∧ OnlyParts s t [A.port p + R.PORT_STATUS, s.chip.portCnt p + R.PORT_EVENT,
        s.chip.portCnt p + C.link_down_events, s.chip.portCnt p + R.PORT_MEMBER_UP + 4 * (s.chip.suitePos (U.port p) / 32)] [.ports,
        .scheds])) ∧
  -- 3: linkDown
  (∀ (s : State) (p : Nat),
    s.runs .core = true →
    s.chip.portThere p = true →
    s.chip.get (A.port p) R.PORT_STATUS_link_up = 1 →
    (s.chip.get (A.port p) R.PORT_CTRL_enable = 0 ∨ ([(s.chip.prt p).unalignedSince, (s.chip.prt p).localSince,
      (s.chip.prt p).remoteSince].any fun x => x.any fun x => decide (x + s.chip.get (A.port p) R.PORT_LINK_TIMING_debounce_us * 1000 ≤
      s.chip.now)) = true) →
    s.chip.get (A.port p) R.PORT_STATUS_in_hold = 1 →
    Does (.linkDown p) s fun t =>
      t.chip.get (A.port p) R.PORT_STATUS_link_up = 0 ∧ t.chip.get (A.port p) R.PORT_STATUS_paused = 0 ∧
        t.chip.get (A.port p) R.PORT_STATUS_xoff_sent = 0 ∧ t.chip.get (A.port p) R.PORT_STATUS_tx_lpi = 0 ∧
        t.chip.get (s.chip.portCnt p) R.PORT_EVENT_link_down = 1 ∧
        t.chip.reg (s.chip.portCnt p + C.link_down_events) = s.chip.reg (s.chip.portCnt p + C.link_down_events) + 1 ∧
        t.chip.get (A.port p) R.PORT_STATUS_in_hold = 1 ∧ (t.chip.prt p).hold = (s.chip.prt p).hold ∧ (t.chip.prt p).pauseEnd = [] ∧
      (∀ q, q ≠ p → t.chip.prt q = s.chip.prt q) ∧ OnlyParts s t [A.port p + R.PORT_STATUS, s.chip.portCnt p + R.PORT_EVENT,
        s.chip.portCnt p + C.link_down_events, s.chip.portCnt p + R.PORT_MEMBER_UP + 4 * (s.chip.suitePos (U.port p) / 32)] [.ports]) ∧
  -- 4: linkDown
  (∀ (s : State) (p : Nat),
    s.runs .core = true →
    s.chip.portThere p = true →
    s.chip.get (A.port p) R.PORT_STATUS_link_up = 1 →
    (s.chip.get (A.port p) R.PORT_CTRL_enable = 0 ∨ ([(s.chip.prt p).unalignedSince, (s.chip.prt p).localSince,
      (s.chip.prt p).remoteSince].any fun x => x.any fun x => decide (x + s.chip.get (A.port p) R.PORT_LINK_TIMING_debounce_us * 1000 ≤
      s.chip.now)) = true) →
    s.chip.get (A.port p) R.PORT_STATUS_in_hold = 0 →
    s.chip.get (A.port p) R.PORT_HOLD_hold_us = 0 →
    Does (.linkDown p) s fun t =>
      t.chip.get (A.port p) R.PORT_STATUS_link_up = 0 ∧ t.chip.get (A.port p) R.PORT_STATUS_paused = 0 ∧
        t.chip.get (A.port p) R.PORT_STATUS_xoff_sent = 0 ∧ t.chip.get (A.port p) R.PORT_STATUS_tx_lpi = 0 ∧
        t.chip.get (s.chip.portCnt p) R.PORT_EVENT_link_down = 1 ∧
        t.chip.reg (s.chip.portCnt p + C.link_down_events) = s.chip.reg (s.chip.portCnt p + C.link_down_events) + 1 ∧
        t.chip.get (A.port p) R.PORT_STATUS_in_hold = 0 ∧ t.chip.get (A.port p) R.PORT_STATUS_flushed = 1 ∧ (t.chip.prt p).hold = none ∧
      t.chip.get (s.chip.portCnt p) R.PORT_EVENT_hold_expired = 1 ∧ (s.chip.portQueues p = [] ∧ (s.chip.sch (p / 16)).coach.look p = [] ∧
        (s.chip.enabledSlices.all fun x => !(s.chip.on (A.slice x) R.LEARN_CTRL_flush_on_expiry)) = true →
        OnlyParts s t ([A.slice (p / 16) + R.COACH_STATUS] ++ [A.port p + R.PORT_STATUS, s.chip.portCnt p + R.PORT_EVENT,
        s.chip.portCnt p + C.link_down_events, s.chip.portCnt p + R.PORT_MEMBER_UP + 4 * (s.chip.suitePos (U.port p) / 32)]) [.ports,
        .scheds]) ∧
      t.nv = s.nv ∧ t.fuses = s.fuses ∧ t.pending = s.pending) ∧
  -- 5: linkDown
  (∀ (s : State) (p : Nat),
    s.runs .core = true →
    (s.chip.portThere p = false ∨ s.chip.get (A.port p) R.PORT_STATUS_link_up = 0 ∨ (s.chip.get (A.port p) R.PORT_CTRL_enable = 1 ∧
      ([(s.chip.prt p).unalignedSince, (s.chip.prt p).localSince,
      (s.chip.prt p).remoteSince].all fun x => x.all fun x => decide (s.chip.now < x + s.chip.get (A.port p) R.PORT_LINK_TIMING_debounce_us
      * 1000)) = true)) →
    Does (.linkDown p) s fun t => OnlyRegs s t []) ∧
  -- 6: linkUp
  (∀ (s : State) (p since : Nat),
    s.runs .core = true →
    s.chip.portThere p = true →
    s.chip.get (A.port p) R.PORT_STATUS_link_up = 0 →
    s.chip.get (A.port p) R.PORT_CTRL_enable = 1 →
    (s.chip.prt p).goodSince = some since →
    since + s.chip.get (A.port p) R.PORT_LINK_TIMING_settle_us * 1000 ≤ s.chip.now →
    (s.chip.prt p).hold = none →
    Does (.linkUp p) s fun t => t.chip.get (A.port p) R.PORT_STATUS_link_up = 1 ∧ t.chip.get (A.port p) R.PORT_STATUS_in_hold = 0 ∧
      t.chip.get (A.port p) R.PORT_STATUS_flushed = 0 ∧ t.chip.get (A.port p) R.PORT_STATUS_paused = 0 ∧
      t.chip.get (s.chip.portCnt p) R.PORT_EVENT_link_up = 1 ∧ (s.chip.get (A.port p) R.GATE_CTRL_enable = 0 ∨ s.chip.portQueues p = [] →
      (t.chip.prt p).hold = none ∧ (t.chip.prt p).pauseEnd = [] ∧
      OnlyParts s t [A.port p + R.PORT_STATUS, s.chip.portCnt p + R.PORT_EVENT,
      s.chip.portCnt p + R.PORT_MEMBER_UP + 4 * (s.chip.suitePos (U.port p) / 32)] [.ports, .house, .scheds, .innkeepers])) ∧
  -- 7: linkUp
  (∀ (s : State) (p since at_ us : Nat),
    s.runs .core = true →
    s.chip.portThere p = true →
    s.chip.get (A.port p) R.PORT_STATUS_link_up = 0 →
    s.chip.get (A.port p) R.PORT_CTRL_enable = 1 →
    (s.chip.prt p).goodSince = some since →
    since + s.chip.get (A.port p) R.PORT_LINK_TIMING_settle_us * 1000 ≤ s.chip.now →
    (s.chip.prt p).hold = some (at_, us) →
    s.chip.now ≤ at_ + us * 1000 ∨ since + s.chip.get (A.port p) R.PORT_LINK_TIMING_settle_us * 1000 ≤ at_ + us * 1000 →
    Does (.linkUp p) s fun t => t.chip.get (A.port p) R.PORT_STATUS_link_up = 1 ∧ t.chip.get (A.port p) R.PORT_STATUS_in_hold = 0 ∧
      t.chip.get (A.port p) R.PORT_STATUS_flushed = 0 ∧ t.chip.get (A.port p) R.PORT_STATUS_paused = 0 ∧
      t.chip.get (s.chip.portCnt p) R.PORT_EVENT_link_up = 1 ∧ (s.chip.get (A.port p) R.GATE_CTRL_enable = 0 ∨ s.chip.portQueues p = [] →
      (t.chip.prt p).hold = none ∧ (t.chip.prt p).pauseEnd = [] ∧
      OnlyParts s t [A.port p + R.PORT_STATUS, s.chip.portCnt p + R.PORT_EVENT,
      s.chip.portCnt p + R.PORT_MEMBER_UP + 4 * (s.chip.suitePos (U.port p) / 32)] [.ports, .house, .scheds, .innkeepers])) ∧
  -- 8: linkUp
  (∀ (s : State) (p : Nat),
    s.runs .core = true →
    (s.chip.portThere p = false ∨ s.chip.get (A.port p) R.PORT_STATUS_link_up = 1 ∨ s.chip.get (A.port p) R.PORT_CTRL_enable = 0 ∨
      ((s.chip.prt p).goodSince.all fun x => decide (s.chip.now < x + s.chip.get (A.port p) R.PORT_LINK_TIMING_settle_us * 1000)) = true) →
    Does (.linkUp p) s fun t => OnlyRegs s t []) ∧
  -- 9: holdExpiry
  (∀ (s : State) (p at_ us : Nat),
    s.runs .core = true →
    s.chip.portThere p = true →
    s.chip.get (A.port p) R.PORT_STATUS_link_up = 0 →
    (s.chip.prt p).hold = some (at_, us) →
    at_ + us * 1000 ≤ s.chip.now →
    (s.chip.get (A.port p) R.PORT_CTRL_enable = 0 ∨ ((s.chip.prt p).goodSince.all fun x => decide (at_ + us * 1000 < x + s.chip.get (A.port
      p) R.PORT_LINK_TIMING_settle_us * 1000)) = true) →
    Does (.holdExpiry p) s fun t => t.chip.get (A.port p) R.PORT_STATUS_in_hold = 0 ∧ t.chip.get (A.port p) R.PORT_STATUS_flushed = 1 ∧
      t.chip.get (s.chip.portCnt p) R.PORT_EVENT_hold_expired = 1 ∧ (t.chip.prt p).hold = none ∧ (s.chip.portQueues p = [] ∧
      (s.chip.sch (p / 16)).coach.look p = [] ∧ (s.chip.enabledSlices.all fun x => !(s.chip.on (A.slice x) R.LEARN_CTRL_flush_on_expiry)) =
      true → (∀ q, q ≠ p → t.chip.prt q = s.chip.prt q) ∧ OnlyParts s t [A.slice (p / 16) + R.COACH_STATUS, A.port p + R.PORT_STATUS,
      s.chip.portCnt p + R.PORT_EVENT] [.ports, .scheds]) ∧ t.nv = s.nv ∧ t.fuses = s.fuses ∧ t.pending = s.pending) ∧
  -- 10: holdExpiry
  (∀ (s : State) (p at_ us since : Nat),
    s.runs .core = true →
    (s.chip.prt p).hold = some (at_, us) →
    s.chip.now < at_ + us * 1000 ∨ (s.chip.get (A.port p) R.PORT_CTRL_enable = 1 ∧ (s.chip.prt p).goodSince = some since ∧
      since + s.chip.get (A.port p) R.PORT_LINK_TIMING_settle_us * 1000 ≤ at_ + us * 1000) →
    Does (.holdExpiry p) s fun t => OnlyRegs s t [])

/-- RX_FRAME_START at an open port stages a frame with a new number and a fresh waybill behind the port's waiting frames; it goes to the wake
store of a sleeping slice; without room in the staging buffer it is counted in isb_drop; at a port in reset it is counted in
reset_discard; at a port that is not open nothing happens. RX_FRAME_END of a frame of 64 bytes or more counts it and its bytes; with a
good FCS, no uncorrectable codeword and no more than max_frame bytes the frame becomes whole with its length in the waybill; a bad FCS
and an excess over max_frame are counted, and a frame that has not started to leave is dropped; a frame under 64 bytes is counted as a
runt alone and ends. Drop counters that waited for the length take it. What else may change is stated for a frame without copies (the
reading of the staging buffer is log entry 34). -/
def Obligations.FramesArrive : Prop :=
  -- 1: rxFrameStart
  (∀ (s : State) (p : Nat) (head : List Byte),
    s.runs .core = true →
    s.chip.rxOpen p = true ∧ (s.chip.prt p).rx = none →
    head ≠ [] ∧ head.length ≤ s.chip.maxFrame p →
    s.chip.inReset (U.port p) = false →
    s.chip.asleep (p / 16) = false →
    s.chip.isbOver (p / 16) head.length = false →
    Does (.rxFrameStart p head) s fun t =>
      t.chip.frames.look s.chip.nextId = some
        { slice := p / 16, port := p, home := p, maxIn := s.chip.maxFrame p, bytes := head, wb := s.chip.rxWaybill p } ∧
      (∀ i, i ≠ s.chip.nextId → t.chip.frames.look i = s.chip.frames.look i) ∧ t.chip.nextId = s.chip.nextId + 1 ∧
      t.chip.prt p = { s.chip.prt p with rx := some { id := s.chip.nextId, len := head.length, maxFrame := s.chip.maxFrame p }, wait := (s.chip.prt p).wait ++ [s.chip.nextId] }
        ∧ (∀ q, q ≠ p → t.chip.prt q = s.chip.prt q) ∧ OnlyParts s t [] [.ports, .frames, .nextId]) ∧
  -- 2: rxFrameStart
  (∀ (s : State) (p : Nat) (head : List Byte),
    s.runs .core = true →
    s.chip.rxOpen p = true ∧ (s.chip.prt p).rx = none →
    head ≠ [] ∧ head.length ≤ s.chip.maxFrame p →
    s.chip.inReset (U.port p) = false →
    s.chip.asleep (p / 16) = true →
    (s.chip.wakeCells (p / 16)).1 + Nat.max 1 (cellsOf head.length) ≤ 256 →
    Does (.rxFrameStart p head) s fun t =>
      t.chip.frames.look s.chip.nextId = some
        { ({ slice := p / 16, port := p, home := p, maxIn := s.chip.maxFrame p, bytes := head, wb := s.chip.rxWaybill p } : Frame) with stage := .wakeStore }
        ∧ t.chip.nextId = s.chip.nextId + 1 ∧
      t.chip.house.wakeStore.look (p / 16) = s.chip.house.wakeStore.look (p / 16) ++ [.frame s.chip.nextId] ∧
        t.chip.prt p = { s.chip.prt p with rx := some { id := s.chip.nextId, len := head.length, maxFrame := s.chip.maxFrame p }, wait := (s.chip.prt p).wait ++ [s.chip.nextId] }
        ∧
      OnlyParts s t [] [.ports, .frames, .nextId, .house]) ∧
  -- 3: rxFrameStart
  (∀ (s : State) (p : Nat) (head : List Byte),
    s.runs .core = true →
    s.chip.rxOpen p = true ∧ (s.chip.prt p).rx = none →
    head ≠ [] ∧ head.length ≤ s.chip.maxFrame p →
    s.chip.inReset (U.port p) = false →
    s.chip.asleep (p / 16) = false →
    s.chip.isbOver (p / 16) head.length = true →
    Does (.rxFrameStart p head) s fun t =>
      t.chip.reg (s.chip.sliceCnt (p / 16) + C.isb_drop) = s.chip.reg (s.chip.sliceCnt (p / 16) + C.isb_drop) + 1 ∧
      t.chip.nextId = s.chip.nextId + 1 ∧ OnlyParts s t [s.chip.sliceCnt (p / 16) + C.isb_drop] [.ports, .nextId]) ∧
  -- 4: rxFrameStart
  (∀ (s : State) (p : Nat) (head : List Byte),
    s.runs .core = true →
    s.chip.rxOpen p = true ∧ (s.chip.prt p).rx = none →
    head ≠ [] →
    s.chip.inReset (U.port p) = true →
    Does (.rxFrameStart p head) s fun t =>
      t.chip.reg (s.chip.portCnt p + C.reset_discard) = s.chip.reg (s.chip.portCnt p + C.reset_discard) + 1 ∧
        OnlyRegs s t [s.chip.portCnt p + C.reset_discard]) ∧
  -- 5: rxFrameStart
  (∀ (s : State) (p : Nat) (head : List Byte),
    s.runs .core = true →
    s.chip.rxOpen p = false →
    Does (.rxFrameStart p head) s fun t => OnlyRegs s t []) ∧
  -- 6: rxFrameEnd
  (∀ (s : State) (p : Nat) (rest : List Byte) (x : Rx) (f : Frame),
    s.runs .core = true →
    (s.chip.prt p).rx = some x →
    p < 128 →
    x.marked = false →
    64 ≤ x.len + rest.length ∧ x.len + rest.length ≤ x.maxFrame →
    (([s.chip.portCnt p + C.rx_frames, s.chip.portCnt p + C.rx_bytes, s.chip.portCnt p + C.rx_fcs_err,
      s.chip.portCnt p + C.rx_oversize].all fun a => !((s.chip.tail x.id).drops.map (·.1)).contains a) = true) →
    s.chip.frames.look x.id = some f →
    f.stage ≠ .wakeStore ∧ f.bad = false →
    s.chip.isbOver f.slice rest.length = false →
    Does (.rxFrameEnd p rest true) s fun t =>
      t.chip.reg (s.chip.portCnt p + C.rx_frames) = s.chip.reg (s.chip.portCnt p + C.rx_frames) + 1 ∧
        t.chip.reg (s.chip.portCnt p + C.rx_bytes) = s.chip.reg (s.chip.portCnt p + C.rx_bytes) + BitVec.ofNat 64 (x.len + rest.length) ∧
        (t.chip.prt p).rx = none ∧
      t.chip.frames.look x.id = some { f with bytes := f.bytes ++ rest, whole := true, wb := Wb.put f.wb 0 21 8 (f.bytes ++ rest).length } ∧
      ((s.chip.tail x.id).charges = [] ∧ (s.chip.arrivals.all fun a => a.2.all fun a => a.frame != x.id) = true →
        OnlyParts s t ([s.chip.portCnt p + C.rx_frames, s.chip.portCnt p + C.rx_bytes] ++ ((s.chip.tail x.id).drops.map (·.1))) [.ports,
        .frames, .tails, .objects]) ∧ t.nv = s.nv ∧ t.fuses = s.fuses ∧ t.pending = s.pending) ∧
  -- 7: rxFrameEnd
  (∀ (s : State) (p : Nat) (rest : List Byte) (x : Rx),
    s.runs .core = true →
    (s.chip.prt p).rx = some x →
    p < 128 →
    64 ≤ x.len + rest.length ∧ x.len + rest.length ≤ x.maxFrame →
    (([s.chip.portCnt p + C.rx_frames, s.chip.portCnt p + C.rx_bytes, s.chip.portCnt p + C.rx_fcs_err,
      s.chip.portCnt p + C.rx_oversize].all fun a => !((s.chip.tail x.id).drops.map (·.1)).contains a) = true) →
    s.chip.frames.look x.id = none →
    Does (.rxFrameEnd p rest false) s fun t =>
      t.chip.reg (s.chip.portCnt p + C.rx_frames) = s.chip.reg (s.chip.portCnt p + C.rx_frames) + 1 ∧
        t.chip.reg (s.chip.portCnt p + C.rx_bytes) = s.chip.reg (s.chip.portCnt p + C.rx_bytes) + BitVec.ofNat 64 (x.len + rest.length) ∧
        (t.chip.prt p).rx = none ∧ t.chip.reg (s.chip.portCnt p + C.rx_fcs_err) = s.chip.reg (s.chip.portCnt p + C.rx_fcs_err) + 1 ∧
      ((s.chip.tail x.id).charges = [] → OnlyParts s t ([s.chip.portCnt p + C.rx_frames, s.chip.portCnt p + C.rx_bytes,
        s.chip.portCnt p + C.rx_fcs_err] ++ ((s.chip.tail x.id).drops.map (·.1))) [.ports, .tails, .objects]) ∧ t.nv = s.nv ∧
        t.fuses = s.fuses ∧ t.pending = s.pending) ∧
  -- 8: rxFrameEnd
  (∀ (s : State) (p : Nat) (rest : List Byte) (good : Bool) (x : Rx) (f : Frame),
    s.runs .core = true →
    (s.chip.prt p).rx = some x →
    p < 128 →
    64 ≤ x.len + rest.length →
    good = false ∨ x.marked = true ∨ x.maxFrame < x.len + rest.length →
    (([s.chip.portCnt p + C.rx_frames, s.chip.portCnt p + C.rx_bytes, s.chip.portCnt p + C.rx_fcs_err,
      s.chip.portCnt p + C.rx_oversize].all fun a => !((s.chip.tail x.id).drops.map (·.1)).contains a) = true) →
    s.chip.frames.look x.id = some f →
    f.stage = .waiting ∧ f.started = false →
    Does (.rxFrameEnd p rest good) s fun t =>
      t.chip.reg (s.chip.portCnt p + C.rx_frames) = s.chip.reg (s.chip.portCnt p + C.rx_frames) + 1 ∧
        t.chip.reg (s.chip.portCnt p + C.rx_bytes) = s.chip.reg (s.chip.portCnt p + C.rx_bytes) + BitVec.ofNat 64 (x.len + rest.length) ∧
        (t.chip.prt p).rx = none ∧ t.chip.reg (s.chip.portCnt p + C.rx_fcs_err) = s.chip.reg (s.chip.portCnt p + C.rx_fcs_err) + (if good =
        false ∨ x.marked = true then 1 else 0) ∧
      t.chip.reg (s.chip.portCnt p + C.rx_oversize) = s.chip.reg (s.chip.portCnt p + C.rx_oversize) + (if x.maxFrame < x.len + rest.length
        then 1 else 0) ∧
      t.chip.frames.look x.id = none ∧ t.nv = s.nv ∧ t.fuses = s.fuses ∧ t.pending = s.pending) ∧
  -- 9: rxFrameEnd
  (∀ (s : State) (p : Nat) (rest : List Byte) (good : Bool) (x : Rx),
    s.runs .core = true →
    (s.chip.prt p).rx = some x →
    p < 128 →
    x.len + rest.length < 64 →
    Does (.rxFrameEnd p rest good) s fun t =>
      t.chip.reg (s.chip.portCnt p + C.rx_runt) = s.chip.reg (s.chip.portCnt p + C.rx_runt) + 1 ∧ t.chip.frames.look x.id = none ∧
      (∀ i, i ≠ x.id → t.chip.frames.look i = s.chip.frames.look i) ∧ (s.chip.portCnt p + C.rx_frames ≠ s.chip.portCnt p + C.rx_runt →
        t.chip.reg (s.chip.portCnt p + C.rx_frames) = s.chip.reg (s.chip.portCnt p + C.rx_frames)) ∧ t.nv = s.nv ∧ t.fuses = s.fuses ∧
        t.pending = s.pending) ∧
  -- 10: rxFrameEnd
  (∀ (s : State) (p : Nat) (rest : List Byte) (good : Bool),
    s.runs .core = true →
    (s.chip.prt p).rx = none →
    Does (.rxFrameEnd p rest good) s fun t => OnlyRegs s t [])

/-- A PFC frame in mode 2 is counted per class and pauses each enabled class it names for its quanta; quanta of 0 end the pause; a class in
the storm state is counted and not paused. A pause frame in mode 1 is counted and pauses every class. A frame of another type changes
nothing. PAUSE_EXPIRY at the pause's end unpauses the class alone, before it changes nothing. XOFF_SEND and XON_SEND put one message for
every class that needs it on the wire, counted per class; in low-power idle they start the wake instead; with no class in need they
change nothing. XOFF_REFRESH marks a class for another after its quanta. PFC_STORM_DETECT unpauses the class, starts the storm state,
sets its event and reports; PFC_STORM_RECOVER ends it, and with the last class the condition. LPI_ENTRY of an idle port that may sets
tx_lpi and counts. LPI_WAKE_COMPLETE after the wake time clears it. PEER_LPI_CHANGE keeps the peer's state, which rx_lpi shows while
lpi_enable is 1. Where an event may let a gate drop a frame, what else changes is stated for a port whose gates are off or whose queues
are empty. The frame layout of pause and PFC is that of IEEE 802.3 (log entry 13). -/
def Obligations.PauseAndLowPowerIdle : Prop :=
  -- 1: pauseFrameReceived
  (∀ (s : State) (p k : Nat) (bytes : List Byte),
    s.runs .core = true →
    s.chip.rxOpen p = true ∧ (s.chip.prt p).rx = none →
    s.chip.inReset (U.port p) = false →
    be16 bytes 12 = 0x8808 →
    be16 bytes 14 = 0x0101 ∧ s.chip.get (A.port p) R.PORT_FLOW_mode = 2 →
    k < 8 ∧ byteAt bytes 17 / 2 ^ k % 2 = 1 ∧ s.chip.rxEn p k = true →
    s.chip.inStorm p k = false →
    be16 bytes (18 + 2 * k) ≠ 0 →
    Does (.pauseFrameReceived p bytes) s fun t =>
      t.chip.reg (s.chip.portCnt p + C.rx_pfc + 8 * k) = s.chip.reg (s.chip.portCnt p + C.rx_pfc + 8 * k) + 1 ∧ t.chip.isPaused p k = true ∧
      (t.chip.prt p).pauseEnd.look k = s.chip.now + (be16 bytes (18 + 2 * k) * 512000 + s.chip.rateMbps p - 1) / s.chip.rateMbps p ∧
      (s.chip.get (A.port p) R.GATE_CTRL_enable = 0 ∨ s.chip.portQueues p = [] → (∀ q, q ≠ p → t.chip.prt q = s.chip.prt q) ∧
        OnlyParts s t ([A.port p + R.PORT_STATUS] ++ (List.range 8).map (fun k => s.chip.portCnt p + C.rx_pfc + 8 * k)) [.ports,
        .scheds])) ∧
  -- 2: pauseFrameReceived
  (∀ (s : State) (p k : Nat) (bytes : List Byte),
    s.runs .core = true →
    s.chip.rxOpen p = true ∧ (s.chip.prt p).rx = none →
    s.chip.inReset (U.port p) = false →
    be16 bytes 12 = 0x8808 →
    be16 bytes 14 = 0x0101 ∧ s.chip.get (A.port p) R.PORT_FLOW_mode = 2 →
    k < 8 ∧ byteAt bytes 17 / 2 ^ k % 2 = 1 ∧ s.chip.rxEn p k = true →
    s.chip.inStorm p k = true ∨ be16 bytes (18 + 2 * k) = 0 →
    Does (.pauseFrameReceived p bytes) s fun t =>
      t.chip.reg (s.chip.portCnt p + C.rx_pfc + 8 * k) = s.chip.reg (s.chip.portCnt p + C.rx_pfc + 8 * k) + 1 ∧
        t.chip.isPaused p k = (s.chip.inStorm p k && s.chip.isPaused p k) ∧ (s.chip.get (A.port p) R.GATE_CTRL_enable = 0 ∨
        s.chip.portQueues p = [] → (∀ q, q ≠ p → t.chip.prt q = s.chip.prt q) ∧
        OnlyParts s t ([A.port p + R.PORT_STATUS] ++ (List.range 8).map (fun k => s.chip.portCnt p + C.rx_pfc + 8 * k)) [.ports,
        .scheds])) ∧
  -- 3: pauseFrameReceived
  (∀ (s : State) (p : Nat) (bytes : List Byte),
    s.runs .core = true →
    s.chip.rxOpen p = true ∧ (s.chip.prt p).rx = none →
    s.chip.inReset (U.port p) = false →
    be16 bytes 12 = 0x8808 →
    be16 bytes 14 = 0x0001 ∧ s.chip.get (A.port p) R.PORT_FLOW_mode = 1 ∧ s.chip.rxEn p 0 = true →
    be16 bytes 16 ≠ 0 →
    (s.chip.prt p).stormEnd = [] →
    Does (.pauseFrameReceived p bytes) s fun t =>
      t.chip.reg (s.chip.portCnt p + C.rx_pause) = s.chip.reg (s.chip.portCnt p + C.rx_pause) + 1 ∧
        t.chip.get (A.port p) R.PORT_STATUS_paused = 255 ∧
      (s.chip.get (A.port p) R.GATE_CTRL_enable = 0 ∨ s.chip.portQueues p = [] → (∀ q, q ≠ p → t.chip.prt q = s.chip.prt q) ∧
        OnlyParts s t [A.port p + R.PORT_STATUS, s.chip.portCnt p + C.rx_pause] [.ports, .scheds])) ∧
  -- 4: pauseFrameReceived
  (∀ (s : State) (p : Nat) (bytes : List Byte),
    s.runs .core = true →
    s.chip.inReset (U.port p) = false →
    s.chip.rxOpen p = false ∨ be16 bytes 12 ≠ 0x8808 →
    Does (.pauseFrameReceived p bytes) s fun t => OnlyRegs s t []) ∧
  -- 5: pauseExpiry
  (∀ (s : State) (p k : Nat),
    s.runs .core = true →
    s.chip.portThere p = true →
    k < 8 →
    s.chip.isPaused p k = true →
    (s.chip.prt p).pauseEnd.look k ≤ s.chip.now →
    Does (.pauseExpiry p k) s fun t =>
      t.chip.isPaused p k = false ∧ (∀ j, j ≠ k → t.chip.isPaused p j = s.chip.isPaused p j) ∧ (t.chip.prt p).pausedAt.look k = 0 ∧
      (s.chip.get (A.port p) R.GATE_CTRL_enable = 0 ∨ s.chip.portQueues p = [] → (∀ q, q ≠ p → t.chip.prt q = s.chip.prt q) ∧
        OnlyParts s t [A.port p + R.PORT_STATUS] [.ports, .scheds])) ∧
  -- 6: pauseExpiry
  (∀ (s : State) (p k : Nat),
    s.runs .core = true →
    s.chip.isPaused p k = false ∨ s.chip.now < (s.chip.prt p).pauseEnd.look k →
    Does (.pauseExpiry p k) s fun t => OnlyRegs s t []) ∧
  -- 7: xoffSend
  (∀ (s : State) (p k : Nat),
    s.runs .core = true →
    s.chip.portThere p = true →
    s.chip.pauseOpen p = true →
    k < 8 →
    s.chip.xoffNeeded p k = true →
    Does (.xoffSend p) s fun t =>
      t.chip.xoffSent p k = true ∧ t.chip.reg (s.chip.portCnt p + C.tx_pfc + 8 * k) = s.chip.reg (s.chip.portCnt p + C.tx_pfc + 8 * k) + 1 ∧
      Out.pause p (((List.range 8).filter (s.chip.xoffNeeded p)).map (2 ^ ·)).sum (s.chip.get (A.port p) R.PORT_FLOW_TIMING_tx_quanta) ∈
        t.chip.out ∧
      (t.chip.prt p).xoffAt.look k = s.chip.now ∧ (∀ q, q ≠ p → t.chip.prt q = s.chip.prt q) ∧
        OnlyParts s t ([A.port p + R.PORT_STATUS] ++ (List.range 8).map (fun k => s.chip.portCnt p + C.tx_pfc + 8 * k)) [.ports]) ∧
  -- 8: xoffSend
  (∀ (s : State) (p : Nat),
    s.runs .core = true →
    s.chip.portThere p = true →
    (((List.range 8).any fun k => s.chip.xoffNeeded p k) = true) →
    s.chip.get (A.port p) R.PORT_STATUS_tx_lpi = 1 ∧ (s.chip.prt p).waking = none →
    Does (.xoffSend p) s fun t =>
      t.chip.prt p = { s.chip.prt p with waking := some s.chip.now } ∧ (∀ q, q ≠ p → t.chip.prt q = s.chip.prt q) ∧
        OnlyParts s t [] [.ports]) ∧
  -- 9: xoffSend
  (∀ (s : State) (p : Nat),
    s.runs .core = true →
    (((List.range 8).any fun k => s.chip.xoffNeeded p k) = false) →
    Does (.xoffSend p) s fun t => OnlyRegs s t []) ∧
  -- 10: xonSend
  (∀ (s : State) (p k : Nat),
    s.runs .core = true →
    s.chip.portThere p = true →
    s.chip.pauseOpen p = true →
    k < 8 →
    s.chip.xonNeeded p k = true →
    Does (.xonSend p) s fun t =>
      t.chip.xoffSent p k = false ∧ t.chip.reg (s.chip.portCnt p + C.tx_pfc + 8 * k) =
        s.chip.reg (s.chip.portCnt p + C.tx_pfc + 8 * k) + 1 ∧
      Out.pause p (((List.range 8).filter (s.chip.xonNeeded p)).map (2 ^ ·)).sum 0 ∈ t.chip.out ∧ (∀ q, q ≠ p →
        t.chip.prt q = s.chip.prt q) ∧ OnlyParts s t ([A.port p + R.PORT_STATUS] ++ (List.range 8).map (fun k => s.chip.portCnt p + C.tx_pfc
        + 8 * k)) [.ports]) ∧
  -- 11: xonSend
  (∀ (s : State) (p : Nat),
    s.runs .core = true →
    (((List.range 8).any fun k => s.chip.xonNeeded p k) = false) →
    Does (.xonSend p) s fun t => OnlyRegs s t []) ∧
  -- 12: xoffRefresh
  (∀ (s : State) (p k : Nat),
    s.runs .core = true →
    s.chip.portThere p = true →
    k < 8 →
    s.chip.xoffSent p k = true →
    s.chip.txEn p k = true →
    (s.chip.prt p).xoffAt.look k + s.chip.get (A.port p) R.PORT_FLOW_TIMING_refresh_quanta * 512000 / s.chip.rateMbps p ≤ s.chip.now →
    Does (.xoffRefresh p k) s fun t =>
      t.chip.prt p = { s.chip.prt p with xoffDue := putBits (s.chip.prt p).xoffDue k k 1 } ∧ (∀ q, q ≠ p → t.chip.prt q = s.chip.prt q) ∧
      t.chip.xoffNeeded p k = true ∧ OnlyParts s t [] [.ports]) ∧
  -- 13: pfcStormDetect
  (∀ (s : State) (p k : Nat),
    s.runs .core = true →
    s.chip.portThere p = true →
    k < 8 →
    s.chip.get (A.port p) R.PORT_PFC_STORM_storm_ms ≠ 0 →
    s.chip.isPaused p k = true →
    (s.chip.prt p).pausedAt.look k + s.chip.get (A.port p) R.PORT_PFC_STORM_storm_ms * 1000000 ≤ s.chip.now →
    0 < s.chip.now →
    Does (.pfcStormDetect p k) s fun t =>
      t.chip.isPaused p k = false ∧ t.chip.inStorm p k = true ∧ t.chip.get (s.chip.portCnt p) R.PORT_EVENT_pfc_storm = 1 ∧
      (t.chip.prt p).stormEnd.look k = s.chip.now + s.chip.get (A.port p) R.PORT_PFC_STORM_recover_ms * 1000000 ∧
      s.chip.msgOf (U.port p) K.pfcStorm 2 ∈ t.chip.ledger.transit ∧
      (s.chip.get (A.port p) R.GATE_CTRL_enable = 0 ∨ s.chip.portQueues p = [] → (∀ q, q ≠ p → t.chip.prt q = s.chip.prt q) ∧
        t.chip.ledger = s.chip.sent [s.chip.msgOf (U.port p) K.pfcStorm 2] ∧
        OnlyParts s t [A.port p + R.PORT_STATUS, s.chip.portCnt p + R.PORT_EVENT] [.ports, .scheds, .ledger])) ∧
  -- 14: pfcStormRecover
  (∀ (s : State) (p k : Nat),
    s.runs .core = true →
    s.chip.portThere p = true →
    k < 8 →
    s.chip.inStorm p k = true →
    (s.chip.prt p).stormEnd.look k ≤ s.chip.now →
    Does (.pfcStormRecover p k) s fun t =>
      t.chip.inStorm p k = false ∧ (∀ q, q ≠ p → t.chip.prt q = s.chip.prt q) ∧
      t.chip.ledger = (if ((s.chip.prt p).stormEnd.clear k).isEmpty then
        { s.chip.ledger with ended := s.chip.ledger.ended ++ [(s.chip.suiteUnit (U.port p), K.pfcStorm)] } else s.chip.ledger) ∧
      OnlyParts s t [] [.ports, .ledger]) ∧
  -- 15: lpiEntry
  (∀ (s : State) (p : Nat),
    s.runs .core = true →
    s.chip.portThere p = true →
    s.chip.get (A.port p) R.PORT_CTRL_lpi_enable = 1 →
    s.chip.get (A.port p) R.PORT_STATUS_link_up = 1 →
    s.chip.get (A.port p) R.PORT_STATUS_tx_lpi = 0 →
    s.chip.portQueues p = [] ∧ (s.chip.prt p).tx = none →
    (s.chip.prt p).idleAt + s.chip.get (A.port p) R.PORT_LPI_idle_us * 1000 ≤ s.chip.now →
    s.chip.pauseWaits p = false →
    Does (.lpiEntry p) s fun t =>
      t.chip.get (A.port p) R.PORT_STATUS_tx_lpi = 1 ∧ t.chip.reg (s.chip.portCnt p + C.tx_lpi_entries) =
        s.chip.reg (s.chip.portCnt p + C.tx_lpi_entries) + 1 ∧
      OnlyRegs s t [A.port p + R.PORT_STATUS, s.chip.portCnt p + C.tx_lpi_entries]) ∧
  -- 16: lpiEntry
  (∀ (s : State) (p : Nat),
    s.runs .core = true →
    s.chip.get (A.port p) R.PORT_CTRL_lpi_enable = 0 ∨ s.chip.get (A.port p) R.PORT_STATUS_link_up = 0 ∨ s.chip.portQueues p ≠ [] ∨
      (s.chip.prt p).tx.isSome = true ∨ s.chip.now < (s.chip.prt p).idleAt + s.chip.get (A.port p) R.PORT_LPI_idle_us * 1000 →
    Does (.lpiEntry p) s fun t => OnlyRegs s t []) ∧
  -- 17: lpiWakeComplete
  (∀ (s : State) (p x : Nat),
    s.runs .core = true →
    s.chip.portThere p = true →
    (s.chip.prt p).waking = some x →
    x + s.chip.get (A.port p) R.PORT_LPI_tw_10ns * 10 ≤ s.chip.now →
    Does (.lpiWakeComplete p) s fun t =>
      t.chip.get (A.port p) R.PORT_STATUS_tx_lpi = 0 ∧ (t.chip.prt p).waking = none ∧
      (s.chip.get (A.port p) R.GATE_CTRL_enable = 0 ∨ s.chip.portQueues p = [] → t.chip.prt p = { s.chip.prt p with waking := none } ∧
        (∀ q, q ≠ p → t.chip.prt q = s.chip.prt q) ∧ OnlyParts s t [A.port p + R.PORT_STATUS] [.ports, .scheds])) ∧
  -- 18: peerLpiChange
  (∀ (s : State) (p : Nat) (lpi : Bool),
    s.runs .core = true →
    s.chip.portThere p = true →
    Does (.peerLpiChange p lpi) s fun t =>
      t.chip.get (A.port p) R.PORT_STATUS_rx_lpi = b2n (lpi && s.chip.get (A.port p) R.PORT_CTRL_lpi_enable != 0) ∧
      t.chip.prt p = { s.chip.prt p with peerLpi := lpi } ∧ (∀ q, q ≠ p → t.chip.prt q = s.chip.prt q) ∧
        OnlyParts s t [A.port p + R.PORT_STATUS] [.ports, .house])

/-- DISPATCH to the porter with the most free threads stamps the frame with the newest accord's slot (an injected frame keeps its stamp),
numbers it at its port and gives it to the thread at the live parse entry. MICROWORD runs the word of the thread whose turn it is and
charges its cycles: the thread goes on and the turn passes; or the parse fails with a reason, counted, an illegal word reported, and the
thread ends without keys; or it ends with its keys, flow hash and the port's default action, and a waybill that fails its check is
counted, reported and its frame dropped. A cycle that a taken branch left unready is wasted first. THREAD_RELEASE moves an ended thread's
frame to the release queue unless it holds 256 entries, RELEASE_TO_PIPES the oldest frame in its port's order to the pipes. The effect of
one word is runWord, Table 6-1 to 6-5. A dispatch to another porter or of a frame that is not next, and a word out of turn, change
nothing. -/
def Obligations.PortersParseFrames : Prop :=
  -- 1: dispatch
  (∀ (s : State) (sl n th id k : Nat) (f : Frame),
    s.runs .core = true →
    s.chip.portersRun sl = true →
    th < 4 ∧ (s.chip.threadOf sl n th).frame = none ∧ s.chip.dispatchTo sl = some n ∧ s.chip.dispatchable sl id = true ∧
      s.chip.frames.look id = some f →
    f.slot = none ∧ k = s.chip.newestSlot →
    Does (.dispatch sl n th id) s fun t =>
      t.chip.frames.look id = some
        { f with slot := some k, stage := .thread n th, wb := Wb.put (Wb.put (Wb.put (Wb.put f.wb 0 23 22 k) 6 15 10 n) 6 9 8 th) 6 7 0 (s.chip.prt f.home).seq }
        ∧ t.chip.prt f.home =
        { s.chip.prt f.home with wait := (s.chip.prt f.home).wait.filter (· != id), parsing := (s.chip.prt f.home).parsing ++ [id], seq := ((s.chip.prt f.home).seq + 1) % 256 }
        ∧ t.chip.threadOf sl n th
        = { frame := some id, pc := s.chip.get (A.porter sl n) R.PORTER_PARSE_entry, parse := s.chip.reg (A.porter sl n + R.PORTER_PARSE), check := s.chip.reg (A.porter sl n + R.PORTER_CHECK) }
        ∧ (s.chip.threadBusy sl n = false → (t.chip.porter sl n).lastRetire = s.chip.now) ∧
      t.chip.reg (Chip.inflightReg k) = BitVec.ofNat 64 (s.chip.inflight k + 1) ∧
      OnlyParts s t [Chip.inflightReg k, A.porter sl n + R.PORTER_STATUS] [.frames, .ports, .porters]) ∧
  -- 2: dispatch
  (∀ (s : State) (sl n th id k : Nat) (f : Frame),
    s.runs .core = true →
    s.chip.portersRun sl = true →
    th < 4 ∧ (s.chip.threadOf sl n th).frame = none ∧ s.chip.dispatchTo sl = some n ∧ s.chip.dispatchable sl id = true ∧
      s.chip.frames.look id = some f →
    f.slot = some k →
    Does (.dispatch sl n th id) s fun t =>
      t.chip.frames.look id = some
        { f with stage := .thread n th, wb := Wb.put (Wb.put (Wb.put (Wb.put f.wb 0 23 22 k) 6 15 10 n) 6 9 8 th) 6 7 0 (s.chip.prt f.home).seq }
        ∧ t.chip.prt f.home =
        { s.chip.prt f.home with wait := (s.chip.prt f.home).wait.filter (· != id), parsing := (s.chip.prt f.home).parsing ++ [id], seq := ((s.chip.prt f.home).seq + 1) % 256 }
        ∧ t.chip.threadOf sl n th
        = { frame := some id, pc := s.chip.get (A.porter sl n) R.PORTER_PARSE_entry, parse := s.chip.reg (A.porter sl n + R.PORTER_PARSE), check := s.chip.reg (A.porter sl n + R.PORTER_CHECK) }
        ∧ (s.chip.threadBusy sl n = false → (t.chip.porter sl n).lastRetire = s.chip.now) ∧
      OnlyParts s t [A.porter sl n + R.PORTER_STATUS] [.frames, .ports, .porters]) ∧
  -- 3: dispatch
  (∀ (s : State) (sl n th id : Nat),
    s.runs .core = true →
    s.chip.dispatchTo sl ≠ some n ∨ s.chip.dispatchable sl id = false ∨ (s.chip.threadOf sl n th).frame.isSome = true →
    Does (.dispatch sl n th id) s fun t => OnlyRegs s t []) ∧
  -- 4: microword
  (∀ (s : State) (sl n th id : Nat) (f : Frame) (w : BitVec 512) (v : Thread) (taken : Bool),
    s.runs .core = true →
    s.chip.portersRun sl = true →
    s.chip.takes sl n = true ∧ s.chip.nextThread sl n = some th ∧ (s.chip.threadOf sl n th).frame = some id ∧
      s.chip.frames.look id = some f →
    (s.chip.porter sl n).branched ≠ some th →
    runWord (s.chip.store.look (s.chip.threadOf sl n th).pc) (s.chip.threadOf sl n th) (s.chip.headerWindow f).1 (s.chip.headerWindow f).2
      f.wb (R.PORTER_PARSE_loop_limit.of (s.chip.threadOf sl n th).parse) = .next v w false taken →
    Does (.microword sl n th) s fun t =>
      t.chip.porter sl n = { s.chip.porter sl n with ahead := (s.chip.porter sl n).ahead + Mw.cyc (s.chip.store.look (s.chip.threadOf sl n th).pc), turn := (th + 1) % 4, branched := (if taken then some th else none), lastRetire := s.chip.now, threads := (s.chip.porter sl n).threads.set th v }
        ∧ t.chip.frames.look id = some { f with wb := w } ∧ t.chip.reg (A.porter sl n + C.slot_retired) =
        s.chip.reg (A.porter sl n + C.slot_retired) + BitVec.ofNat 64 (Mw.cyc (s.chip.store.look (s.chip.threadOf sl n th).pc)) ∧
        t.chip.reg (A.porter sl n + C.slot_total) = s.chip.reg (A.porter sl n + C.slot_total) + BitVec.ofNat 64 (Mw.cyc (s.chip.store.look
        (s.chip.threadOf sl n th).pc)) ∧
      OnlyParts s t [A.porter sl n + C.slot_total, A.porter sl n + C.slot_retired] [.frames, .porters]) ∧
  -- 5: microword
  (∀ (s : State) (sl n th id : Nat) (f : Frame),
    s.runs .core = true →
    s.chip.portersRun sl = true →
    s.chip.takes sl n = true ∧ s.chip.nextThread sl n = some th ∧ (s.chip.threadOf sl n th).frame = some id ∧
      s.chip.frames.look id = some f →
    (s.chip.porter sl n).branched = some th →
    Does (.microword sl n th) s fun t =>
      t.chip.reg (A.porter sl n + C.slot_total) = s.chip.reg (A.porter sl n + C.slot_total) + BitVec.ofNat 64 (Mw.cyc (s.chip.store.look
        (s.chip.threadOf sl n th).pc)) + 1 ∧ t.nv = s.nv ∧ t.fuses = s.fuses ∧ t.pending = s.pending) ∧
  -- 6: microword
  (∀ (s : State) (sl n th id r : Nat) (f : Frame),
    s.runs .core = true →
    s.chip.portersRun sl = true →
    s.chip.takes sl n = true ∧ s.chip.nextThread sl n = some th ∧ (s.chip.threadOf sl n th).frame = some id ∧
      s.chip.frames.look id = some f →
    (s.chip.porter sl n).branched ≠ some th →
    runWord (s.chip.store.look (s.chip.threadOf sl n th).pc) (s.chip.threadOf sl n th) (s.chip.headerWindow f).1 (s.chip.headerWindow f).2
      f.wb (R.PORTER_PARSE_loop_limit.of (s.chip.threadOf sl n th).parse) = .fail r →
    1 ≤ r ∧ r ≤ 3 →
    Does (.microword sl n th) s fun t =>
      t.chip.threadOf sl n th = { s.chip.threadOf sl n th with ended := true } ∧
      t.chip.reg (A.porter sl n + C.parse_fail + 8 * (r - 1)) = s.chip.reg (A.porter sl n + C.parse_fail + 8 * (r - 1)) + 1 ∧
      t.chip.reg (A.porter sl n + C.frames_parsed) = s.chip.reg (A.porter sl n + C.frames_parsed) + 1 ∧
        t.chip.reg (A.porter sl n + C.slot_wasted) = s.chip.reg (A.porter sl n + C.slot_wasted) + BitVec.ofNat 64 (Mw.cyc (s.chip.store.look
        (s.chip.threadOf sl n th).pc)) ∧ t.chip.reg (A.porter sl n + C.slot_total) =
        s.chip.reg (A.porter sl n + C.slot_total) + BitVec.ofNat 64 (Mw.cyc (s.chip.store.look (s.chip.threadOf sl n th).pc)) ∧
      (t.chip.fr id).keys = [] ∧ Wb.failReason (t.chip.fr id).wb = r ∧ Wb.keyValid (t.chip.fr id).wb = 0 ∧
      t.chip.ledger = (if r = 1 then s.chip.sent [s.chip.msgOf (porterUnit sl n) K.porterIllegal 0 (s.chip.threadOf sl n th).pc] else
        s.chip.ledger) ∧
      OnlyParts s t [A.porter sl n + C.slot_total, A.porter sl n + C.slot_wasted, A.porter sl n + C.parse_fail + 8 * (r - 1),
        A.porter sl n + C.frames_parsed] [.frames, .porters, .ledger]) ∧
  -- 7: microword
  (∀ (s : State) (sl n th id : Nat) (f : Frame) (w : BitVec 512) (v : Thread) (taken : Bool),
    s.runs .core = true →
    s.chip.portersRun sl = true →
    s.chip.takes sl n = true ∧ s.chip.nextThread sl n = some th ∧ (s.chip.threadOf sl n th).frame = some id ∧
      s.chip.frames.look id = some f →
    (s.chip.porter sl n).branched ≠ some th →
    runWord (s.chip.store.look (s.chip.threadOf sl n th).pc) (s.chip.threadOf sl n th) (s.chip.headerWindow f).1 (s.chip.headerWindow f).2
      f.wb (R.PORTER_PARSE_loop_limit.of (s.chip.threadOf sl n th).parse) = .next v w true taken →
    waybillOk w = true →
    s.chip.injected (porterUnit sl n) 2 = 0 →
    Does (.microword sl n th) s fun t =>
      t.chip.threadOf sl n th = { v with ended := true } ∧ (t.chip.fr id).keys = leftKeys v (Wb.get w 5 25 25 == 1) ∧
      Wb.hash (t.chip.fr id).wb = flowHash v (Wb.get w 5 25 25 == 1) % 2 ^ 32 ∧
        (t.chip.fr id).dflt = s.chip.reg (A.port f.home + R.PORT_DEFAULT) ∧
      t.chip.reg (A.porter sl n + C.frames_parsed) = s.chip.reg (A.porter sl n + C.frames_parsed) + 1 ∧
        t.chip.reg (A.porter sl n + C.slot_retired) = s.chip.reg (A.porter sl n + C.slot_retired) + BitVec.ofNat 64 (Mw.cyc
        (s.chip.store.look (s.chip.threadOf sl n th).pc)) ∧ t.chip.reg (A.porter sl n + C.slot_total) =
        s.chip.reg (A.porter sl n + C.slot_total) + BitVec.ofNat 64 (Mw.cyc (s.chip.store.look (s.chip.threadOf sl n th).pc)) ∧
      OnlyParts s t [A.porter sl n + C.slot_total, A.porter sl n + C.slot_retired, A.porter sl n + C.frames_parsed] [.frames, .porters]) ∧
  -- 8: microword
  (∀ (s : State) (sl n th id : Nat) (f : Frame) (w : BitVec 512) (v : Thread) (taken : Bool),
    s.runs .core = true →
    s.chip.portersRun sl = true →
    s.chip.takes sl n = true ∧ s.chip.nextThread sl n = some th ∧ (s.chip.threadOf sl n th).frame = some id ∧
      s.chip.frames.look id = some f →
    (s.chip.porter sl n).branched ≠ some th →
    runWord (s.chip.store.look (s.chip.threadOf sl n th).pc) (s.chip.threadOf sl n th) (s.chip.headerWindow f).1 (s.chip.headerWindow f).2
      f.wb (R.PORTER_PARSE_loop_limit.of (s.chip.threadOf sl n th).parse) = .next v w true taken →
    waybillOk w = false →
    Does (.microword sl n th) s fun t =>
      t.chip.frames.look id = none ∧ t.chip.reg (A.porter sl n + C.waybill_invalid) = s.chip.reg (A.porter sl n + C.waybill_invalid) + 1 ∧
      (t.chip.ledger.transit.any fun m => m.kind == K.waybillInvalid && m.sev == 3) = true ∧ t.nv = s.nv ∧ t.fuses = s.fuses ∧
        t.pending = s.pending) ∧
  -- 9: microword
  (∀ (s : State) (sl n th : Nat),
    s.runs .core = true →
    s.chip.nextThread sl n ≠ some th ∨ (s.chip.threadOf sl n th).frame = none →
    Does (.microword sl n th) s fun t => OnlyRegs s t []) ∧
  -- 10: threadRelease
  (∀ (s : State) (sl n th id : Nat) (f : Frame),
    s.runs .core = true →
    s.chip.portersRun sl = true →
    th < 4 ∧ (s.chip.threadOf sl n th).frame = some id ∧ (s.chip.threadOf sl n th).ended = true →
    (s.chip.front sl).release.length < 256 →
    s.chip.frames.look id = some f →
    Does (.threadRelease sl n th) s fun t =>
      t.chip.threadOf sl n th = {} ∧ t.chip.frames.look id = some { f with stage := .release } ∧
      t.chip.front sl = { s.chip.front sl with release := (s.chip.front sl).release ++ [id] } ∧
      OnlyParts s t [A.porter sl n + R.PORTER_STATUS] [.frames, .porters, .fronts]) ∧
  -- 11: threadRelease
  (∀ (s : State) (sl n th : Nat),
    s.runs .core = true →
    (s.chip.threadOf sl n th).frame = none ∨ (s.chip.threadOf sl n th).ended = false ∨ 256 ≤ (s.chip.front sl).release.length →
    Does (.threadRelease sl n th) s fun t => OnlyRegs s t []) ∧
  -- 12: releaseToPipes
  (∀ (s : State) (sl id : Nat) (f : Frame),
    s.runs .core = true →
    s.chip.portersRun sl = true →
    ((s.chip.front sl).release.find? (fun id => (s.chip.prt (s.chip.fr id).home).parsing.head? == some id) = some id) →
    s.chip.frames.look id = some f →
    Does (.releaseToPipes sl) s fun t =>
      t.chip.frames.look id = some { f with stage := .pipes } ∧
      t.chip.front sl = { s.chip.front sl with release := (s.chip.front sl).release.filter (· != id) } ∧
      t.chip.prt f.home = { s.chip.prt f.home with parsing := (s.chip.prt f.home).parsing.filter (· != id) } ∧
        OnlyParts s t [] [.frames, .ports, .fronts])

/-- PORTER_STALL makes a porter that has a ready thread and retired nothing for 1 µs failed: its frames are dropped and counted, a pending
apply of its window ends with reason 6, PORTER_FAIL is sent with cause 2, and a free spare is assigned; without one PORTER_NO_SPARE is
sent. Before 1 µs nothing changes. PORTER_RETIRE of an active porter with a free spare does the same with cause 3 and result 1; without
one it is refused with 2, of another porter with 3. SPARE_STORE_CHECK_COMPLETE with the right CRC makes the spare of a failover ready,
and a porter that a reset returned a spare; with a wrong one the spare fails with cause 4. SPARE_TAKEOVER gives a ready spare the failed
porter's settings and the active role. STORE_CHECK starts a check of a porter, shows 3 for one that does not exist and is ignored while
one runs; STORE_CHECK_COMPLETE shows the CRC and result and reports a mismatch. The CRC is that of the store with the words that a fault
has changed. -/
def Obligations.PortersFailAndAreChecked : Prop :=
  -- 1: porterStall
  (∀ (s : State) (sl n : Nat),
    s.runs .core = true →
    s.chip.portersRun sl = true →
    s.chip.takes sl n = true →
    s.chip.threadBusy sl n = true →
    (s.chip.porter sl n).lastRetire + 1000 ≤ s.chip.now →
    Does (.porterStall sl n) s fun t =>
      t.chip.role sl n = 2 ∧ t.chip.porter sl n = {} ∧ (∀ i ∈ ((List.range 4).filterMap fun th => (s.chip.threadOf sl n th).frame),
        t.chip.frames.look i = none) ∧ t.chip.reg (A.porter sl n + C.porter_fail_discard) =
        s.chip.reg (A.porter sl n + C.porter_fail_discard) + BitVec.ofNat 64 ((List.range 4).filterMap fun th => (s.chip.threadOf sl n
        th).frame).length ∧ (s.chip.applies.look (A.porter sl n) ≠ none → t.chip.applies.look (A.porter sl n) = none ∧
        t.chip.get (A.porter sl n + 0xFFC) R.APPLY_STATUS_reason = 6) ∧ (∀ m, (List.range 34).find? (s.chip.freeSpare sl) = some m →
        (t.chip.front sl).failovers = (s.chip.front sl).failovers ++ [(n, m, false)]) ∧
        s.chip.msgOf (porterUnit sl n) K.porterFail 2 2 ∈ t.chip.ledger.transit ∧
      (((List.range 34).any fun m => s.chip.freeSpare sl m) = false → s.chip.msgOf (U.slice sl) K.porterNoSpare 3 ∈ t.chip.ledger.transit) ∧
        t.nv = s.nv ∧ t.fuses = s.fuses ∧ t.pending = s.pending) ∧
  -- 2: porterStall
  (∀ (s : State) (sl n : Nat),
    s.runs .core = true →
    s.chip.threadBusy sl n = false ∨ s.chip.now < (s.chip.porter sl n).lastRetire + 1000 ∨ s.chip.role sl n ≠ 0 →
    Does (.porterStall sl n) s fun t => OnlyRegs s t []) ∧
  -- 3: porterRetire
  (∀ (s : State) (src : Source) (sl n : Nat),
    s.serves src (A.slice sl + R.PORTER_RETIRE) true = true →
    sl < 8 →
    n < 34 →
    s.chip.role sl n = 0 →
    (((List.range 34).any fun m => s.chip.freeSpare sl m) = true) →
    Does (.porterRetire src sl n) s fun t =>
      t.chip.role sl n = 3 ∧ t.chip.porter sl n = {} ∧ (∀ i ∈ ((List.range 4).filterMap fun th => (s.chip.threadOf sl n th).frame),
        t.chip.frames.look i = none) ∧ t.chip.reg (A.porter sl n + C.porter_fail_discard) =
        s.chip.reg (A.porter sl n + C.porter_fail_discard) + BitVec.ofNat 64 ((List.range 4).filterMap fun th => (s.chip.threadOf sl n
        th).frame).length ∧ (s.chip.applies.look (A.porter sl n) ≠ none → t.chip.applies.look (A.porter sl n) = none ∧
        t.chip.get (A.porter sl n + 0xFFC) R.APPLY_STATUS_reason = 6) ∧ (∀ m, (List.range 34).find? (s.chip.freeSpare sl) = some m →
        (t.chip.front sl).failovers = (s.chip.front sl).failovers ++ [(n, m, false)]) ∧
        t.chip.get (A.slice sl) R.PORTER_SUMMARY_last_retire = 1 ∧
      t.chip.get (A.slice sl) R.PORTER_SUMMARY_last_index = n ∧ s.chip.msgOf (porterUnit sl n) K.porterFail 2 3 ∈ t.chip.ledger.transit ∧
        t.nv = s.nv ∧ t.fuses = s.fuses ∧ t.pending = s.pending) ∧
  -- 4: porterRetire
  (∀ (s : State) (src : Source) (sl n : Nat),
    s.serves src (A.slice sl + R.PORTER_RETIRE) true = true →
    n < 64 →
    (34 ≤ n ∨ s.chip.role sl n ≠ 0 ∨ ((List.range 34).any fun m => s.chip.freeSpare sl m) = false) →
    Does (.porterRetire src sl n) s fun t =>
      t.chip.get (A.slice sl) R.PORTER_SUMMARY_last_retire = (if 34 ≤ n ∨ s.chip.role sl n ≠ 0 then 3 else 2) ∧
      t.chip.get (A.slice sl) R.PORTER_SUMMARY_last_index = n ∧
        OnlyRegs s t [A.slice sl + R.PORTER_RETIRE, A.slice sl + R.PORTER_SUMMARY]) ∧
  -- 5: spareStoreCheckComplete
  (∀ (s : State) (sl n : Nat) (upsets : List (Nat × Entry)),
    s.runs .core = true →
    sl < 8 ∧ n < 34 ∧ s.chip.alive (U.slice sl) = true →
    n ∈ (s.chip.front sl).recheck →
    Does (.spareStoreCheckComplete sl n upsets) s fun t =>
      (s.chip.checkCrc upsets = s.chip.get (A.slice sl) R.STORE_CRC_crc → t.chip.role sl n = 1 ∧
        t.chip.get (A.porter sl n) R.PORTER_STATUS_partner = 0) ∧
      (s.chip.checkCrc upsets ≠ s.chip.get (A.slice sl) R.STORE_CRC_crc →
        t.chip.reg (A.porter sl n + R.PORTER_STATUS) = s.chip.reg (A.porter sl n + R.PORTER_STATUS)) ∧
      t.chip.front sl = { s.chip.front sl with recheck := (s.chip.front sl).recheck.filter (· != n) } ∧
      OnlyParts s t [A.porter sl n + R.PORTER_STATUS, A.slice sl + R.PORTER_SUMMARY] [.fronts]) ∧
  -- 6: spareStoreCheckComplete
  (∀ (s : State) (sl n : Nat) (upsets : List (Nat × Entry)),
    s.runs .core = true →
    sl < 8 ∧ n < 34 ∧ s.chip.alive (U.slice sl) = true →
    n ∉ (s.chip.front sl).recheck →
    (((s.chip.front sl).failovers.any fun x => x.2.1 == n && !x.2.2) = true) →
    Does (.spareStoreCheckComplete sl n upsets) s fun t =>
      (s.chip.checkCrc upsets = s.chip.get (A.slice sl) R.STORE_CRC_crc →
        t.chip.front sl = { s.chip.front sl with failovers := (s.chip.front sl).failovers.map fun x => if x.2.1 = n then (x.1, n, true) else x }
        ∧ OnlyParts s t [] [.fronts]) ∧
      (s.chip.checkCrc upsets ≠ s.chip.get (A.slice sl) R.STORE_CRC_crc → t.chip.role sl n = 2 ∧
        s.chip.msgOf (porterUnit sl n) K.porterFail 2 4 ∈ t.chip.ledger.transit ∧
        OnlyParts s t [A.porter sl n + R.PORTER_STATUS, A.slice sl + R.PORTER_SUMMARY] [.fronts, .ledger])) ∧
  -- 7: spareTakeover
  (∀ (s : State) (sl n m : Nat),
    s.runs .core = true →
    sl < 8 ∧ n < 34 ∧ m < 34 ∧ n ≠ m ∧ s.chip.alive (U.slice sl) = true →
    ((s.chip.front sl).failovers.find? (fun x => x.2.1 == n && x.2.2) = some (m, n, true)) →
    Does (.spareTakeover sl n) s fun t =>
      t.chip.role sl n = 0 ∧ t.chip.get (A.porter sl n) R.PORTER_STATUS_partner = porterUnit sl m ∧
        t.chip.get (A.porter sl m) R.PORTER_STATUS_partner = porterUnit sl n ∧
      t.chip.reg (A.porter sl n + R.PORTER_PARSE) = s.chip.reg (A.porter sl m + R.PORTER_PARSE) ∧
      t.chip.reg (A.porter sl n + R.PORTER_CHECK) = s.chip.reg (A.porter sl m + R.PORTER_CHECK) ∧ t.chip.porter sl n = {} ∧
      t.chip.staged.look (A.porter sl n + R.PORTER_PARSE) = none ∧ t.chip.staged.look (A.porter sl n + R.PORTER_CHECK) = none ∧
      t.chip.front sl = { s.chip.front sl with failovers := (s.chip.front sl).failovers.filter fun y => y.2.1 != n } ∧
      OnlyParts s t [A.porter sl n + R.PORTER_PARSE, A.porter sl n + R.PORTER_CHECK, A.porter sl n + R.PORTER_STATUS,
        A.porter sl m + R.PORTER_STATUS, A.slice sl + R.PORTER_SUMMARY] [.staged, .since, .fronts, .porters]) ∧
  -- 8: spareTakeover
  (∀ (s : State) (sl n : Nat),
    s.runs .core = true →
    (((s.chip.front sl).failovers.any fun x => x.2.1 == n && x.2.2) = false) →
    Does (.spareTakeover sl n) s fun t => OnlyRegs s t []) ∧
  -- 9: storeCheck
  (∀ (s : State) (src : Source) (sl n : Nat),
    s.serves src (A.slice sl + R.STORE_CHECK) true = true →
    sl < 8 →
    n < 34 →
    s.chip.get (A.slice sl) R.STORE_CHECK_busy = 0 →
    Does (.storeCheck src sl n) s fun t =>
      t.chip.get (A.slice sl) R.STORE_CHECK_busy = 1 ∧ t.chip.get (A.slice sl) R.STORE_CHECK_index = n ∧
        t.chip.get (A.slice sl) R.STORE_CHECK_result = 0 ∧
      t.chip.front sl = { s.chip.front sl with checking := n } ∧ OnlyParts s t [A.slice sl + R.STORE_CHECK] [.fronts, .house]) ∧
  -- 10: storeCheck
  (∀ (s : State) (src : Source) (sl n : Nat),
    s.serves src (A.slice sl + R.STORE_CHECK) true = true →
    34 ≤ n ∧ n < 64 →
    s.chip.get (A.slice sl) R.STORE_CHECK_busy = 0 →
    Does (.storeCheck src sl n) s fun t =>
      t.chip.get (A.slice sl) R.STORE_CHECK_result = 3 ∧ t.chip.get (A.slice sl) R.STORE_CHECK_busy = 0 ∧
        OnlyParts s t [A.slice sl + R.STORE_CHECK] [.house]) ∧
  -- 11: storeCheck
  (∀ (s : State) (src : Source) (sl n : Nat),
    s.serves src (A.slice sl + R.STORE_CHECK) true = true →
    s.chip.get (A.slice sl) R.STORE_CHECK_busy = 1 →
    Does (.storeCheck src sl n) s fun t => OnlyRegs s t []) ∧
  -- 12: storeCheckComplete
  (∀ (s : State) (sl : Nat) (upsets : List (Nat × Entry)),
    s.runs .core = true →
    sl < 8 →
    s.chip.sliceEnabled sl = true ∧ s.chip.asleep sl = false →
    s.chip.get (A.slice sl) R.STORE_CHECK_busy = 1 →
    Does (.storeCheckComplete sl upsets) s fun t =>
      t.chip.get (A.slice sl) R.STORE_CHECK_busy = 0 ∧ t.chip.get (A.slice sl) R.STORE_CRC_LAST_crc = s.chip.checkCrc upsets % 2 ^ 32 ∧
      t.chip.get (A.slice sl) R.STORE_CHECK_result = (if s.chip.checkCrc upsets = s.chip.get (A.slice sl) R.STORE_CRC_crc then 1 else 2) ∧
      (s.chip.checkCrc upsets ≠ s.chip.get (A.slice sl) R.STORE_CRC_crc →
        s.chip.msgOf (porterUnit sl (s.chip.front sl).checking) K.storeMismatch 3 ∈ t.chip.ledger.transit) ∧
      (s.chip.checkCrc upsets = s.chip.get (A.slice sl) R.STORE_CRC_crc →
        OnlyRegs s t [A.slice sl + R.STORE_CHECK, A.slice sl + R.STORE_CRC_LAST]) ∧ t.nv = s.nv ∧ t.fuses = s.fuses ∧
        t.pending = s.pending) ∧
  -- 13: storeCheckComplete
  (∀ (s : State) (sl : Nat) (upsets : List (Nat × Entry)),
    s.runs .core = true →
    s.chip.get (A.slice sl) R.STORE_CHECK_busy = 0 →
    Does (.storeCheckComplete sl upsets) s fun t => OnlyRegs s t [])

/-- EM_READ of a place of the table ends with its body, state, sequence number and poison flag, and meets the errors of its words; of another
index with code 0x06. EM_SEARCH and EM_SEARCH_PENDING return the first match under the newest or the pending accord, else code 0x01; a
pair's search without a held first half ends with 0x06, one with it uses it up; without an open accord the pending search ends with 0x04.
EM_HOLD_FIRST keeps DATA. BD_READ gives the record, BD_WRITE of a record without reserved values stores it in every member's copy; both
end with 0x06 otherwise. The result stands when the window completes. -/
def Obligations.ExactMatchWindowReads : Prop :=
  -- 1: emRead
  (∀ (s : State) (src : Source) (sl : Nat),
    sl < 8 →
    s.mayGo src (emWin sl) = true →
    s.chip.emIndexOk sl (s.chip.winIn src (emWin sl)).index = true →
    Does (.emRead src sl) s fun t =>
      WinDone t (emWin sl) 1
        { code := 0, data := some (s.chip.emAt sl (s.chip.winIn src (emWin sl)).index).body, state := some (s.chip.emAt sl (s.chip.winIn src (emWin sl)).index).state.toNat, seq := some (s.chip.emSeq sl (s.chip.winIn src (emWin sl)).index), poison := (List.range 4).any fun j => s.chip.poisoned (Chip.emGroup sl (s.chip.winIn src (emWin sl)).index) (s.chip.emWord sl (s.chip.winIn src (emWin sl)).index + j) }
        ∧
      t.chip.em = s.chip.em ∧ OnlyParts s t ([emWin sl + 4, emWin sl + 8] ++ errRegs (Chip.emGroup sl (s.chip.winIn src (emWin sl)).index))
        [.wins, .house, .mem, .ledger]) ∧
  -- 2: emRead
  (∀ (s : State) (src : Source) (sl : Nat),
    sl < 8 →
    s.mayGo src (emWin sl) = true →
    s.chip.emIndexOk sl (s.chip.winIn src (emWin sl)).index = false →
    Does (.emRead src sl) s fun t => WinDone t (emWin sl) 1 { code := 6 } ∧ OnlyParts s t [emWin sl + 4, emWin sl + 8] [.wins, .house]) ∧
  -- 3: emSearch
  (∀ (s : State) (src : Source) (sl key i : Nat) (wide : Bool),
    sl < 8 →
    s.mayGo src (emWin sl) = true →
    (s.chip.winIn src (emWin sl)).emKey (s.chip.emTab sl) = some (wide, key) →
    (s.chip.emMatches sl wide key s.chip.newest).head? = some i →
    Does (.emSearch src sl) s fun t =>
      WinDone t (emWin sl) 2 { s.chip.emReturn sl i with index := some i } ∧
        t.chip.em = (if wide then s.chip.em.set sl { (s.chip.emTab sl) with hold := none } else s.chip.em) ∧
        OnlyParts s t [emWin sl + 4, emWin sl + 8] [.wins, .house, .em]) ∧
  -- 4: emSearch
  (∀ (s : State) (src : Source) (sl key : Nat) (wide : Bool),
    sl < 8 →
    s.mayGo src (emWin sl) = true →
    (s.chip.winIn src (emWin sl)).emKey (s.chip.emTab sl) = some (wide, key) →
    s.chip.emMatches sl wide key s.chip.newest = [] →
    Does (.emSearch src sl) s fun t => WinDone t (emWin sl) 2 { code := 1 } ∧
      t.chip.em = (if wide then s.chip.em.set sl { (s.chip.emTab sl) with hold := none } else s.chip.em) ∧
      OnlyParts s t [emWin sl + 4, emWin sl + 8] [.wins, .house, .em]) ∧
  -- 5: emSearch
  (∀ (s : State) (src : Source) (sl : Nat),
    sl < 8 →
    s.mayGo src (emWin sl) = true →
    (s.chip.winIn src (emWin sl)).state / 32 % 4 = 2 ∧ (s.chip.emTab sl).hold = none →
    Does (.emSearch src sl) s fun t => WinDone t (emWin sl) 2 { code := 6 } ∧ OnlyParts s t [emWin sl + 4, emWin sl + 8] [.wins, .house]) ∧
  -- 6: emSearchPending
  (∀ (s : State) (src : Source) (sl key i : Nat) (wide : Bool),
    sl < 8 →
    s.mayGo src (emWin sl) = true →
    s.chip.get 0 R.ACCORD_STATUS_state ≠ 0 →
    (s.chip.winIn src (emWin sl)).emKey (s.chip.emTab sl) = some (wide, key) →
    (s.chip.emMatches sl wide key s.chip.pendingAccord).head? = some i →
    Does (.emSearchPending src sl) s fun t =>
      WinDone t (emWin sl) 3 { s.chip.emReturn sl i with index := some i } ∧
        t.chip.em = (if wide then s.chip.em.set sl { (s.chip.emTab sl) with hold := none } else s.chip.em) ∧
        OnlyParts s t [emWin sl + 4, emWin sl + 8] [.wins, .house, .em]) ∧
  -- 7: emSearchPending
  (∀ (s : State) (src : Source) (sl key : Nat) (wide : Bool),
    sl < 8 →
    s.mayGo src (emWin sl) = true →
    s.chip.get 0 R.ACCORD_STATUS_state ≠ 0 →
    (s.chip.winIn src (emWin sl)).emKey (s.chip.emTab sl) = some (wide, key) →
    s.chip.emMatches sl wide key s.chip.pendingAccord = [] →
    Does (.emSearchPending src sl) s fun t => WinDone t (emWin sl) 3 { code := 1 } ∧
      t.chip.em = (if wide then s.chip.em.set sl { (s.chip.emTab sl) with hold := none } else s.chip.em) ∧
      OnlyParts s t [emWin sl + 4, emWin sl + 8] [.wins, .house, .em]) ∧
  -- 8: emSearchPending
  (∀ (s : State) (src : Source) (sl : Nat),
    sl < 8 →
    s.mayGo src (emWin sl) = true →
    s.chip.get 0 R.ACCORD_STATUS_state = 0 →
    Does (.emSearchPending src sl) s fun t => WinDone t (emWin sl) 3 { code := 4 } ∧
      OnlyParts s t [emWin sl + 4, emWin sl + 8] [.wins, .house]) ∧
  -- 9: emHoldFirst
  (∀ (s : State) (src : Source) (sl : Nat),
    sl < 8 →
    s.mayGo src (emWin sl) = true →
    Does (.emHoldFirst src sl) s fun t =>
      WinDone t (emWin sl) 9 { code := 0 } ∧ t.chip.em = s.chip.em.set sl
        { (s.chip.emTab sl) with hold := some (s.chip.winIn src (emWin sl)).data } ∧
        OnlyParts s t [emWin sl + 4, emWin sl + 8] [.wins, .house, .em]) ∧
  -- 10: bdRead
  (∀ (s : State) (src : Source) (sl : Nat),
    sl < 8 →
    s.mayGo src (bdWin sl) = true →
    Does (.bdRead src sl) s fun t =>
      WinDone t (bdWin sl) 1 (if (s.chip.winIn src (bdWin sl)).index < 4096 then
        { code := 0, data := some ((s.chip.emTab sl).bd.look (s.chip.winIn src (bdWin sl)).index) } else { code := 6 }) ∧
        OnlyParts s t [bdWin sl + 4, bdWin sl + 8] [.wins, .house]) ∧
  -- 11: bdWrite
  (∀ (s : State) (src : Source) (sl : Nat),
    sl < 8 →
    s.mayGo src (bdWin sl) = true →
    (s.chip.sliceMates sl).Nodup ∧ sl ∈ s.chip.sliceMates sl →
    (s.chip.winIn src (bdWin sl)).index < 4096 →
    bits (s.chip.winIn src (bdWin sl)).data 29 28 ≠ 3 ∧ bits (s.chip.winIn src (bdWin sl)).data 27 16 = 0 →
    Does (.bdWrite src sl) s fun t =>
      WinDone t (bdWin sl) 2 { code := 0 } ∧
      (∀ m ∈ s.chip.sliceMates sl, t.chip.emTab m
        = { s.chip.emTab m with bd := (s.chip.emTab m).bd.set (s.chip.winIn src (bdWin sl)).index (BitVec.ofNat 256 (bits (s.chip.winIn src (bdWin sl)).data 31 0)) })
        ∧
      (∀ m, m ∉ s.chip.sliceMates sl → t.chip.emTab m = s.chip.emTab m) ∧ OnlyParts s t [bdWin sl + 4, bdWin sl + 8] [.wins, .house, .em]) ∧
  -- 12: bdWrite
  (∀ (s : State) (src : Source) (sl : Nat),
    sl < 8 →
    s.mayGo src (bdWin sl) = true →
    4096 ≤ (s.chip.winIn src (bdWin sl)).index ∨ bits (s.chip.winIn src (bdWin sl)).data 29 28 = 3 ∨
      bits (s.chip.winIn src (bdWin sl)).data 27 16 ≠ 0 →
    Does (.bdWrite src sl) s fun t => WinDone t (bdWin sl) 2 { code := 6 } ∧ OnlyParts s t [bdWin sl + 4, bdWin sl + 8] [.wins, .house])

/-- An EM_INSERT that the accord in hand accepts writes a single entry, or with the held half a pair, at a free place of its buckets in every
member's copy, steps the place's sequence number, logs what it overwrites and counts; without a free place but with a chain of moves it
waits for the moves; without either, and without an overflow position, it ends with 0x03 and is counted; with a key that already holds it
ends with 0x02, without an accord in hand with 0x05, of a bad pair state with 0x06. EM_WRITE_IF_SEQ that R159 accepts rewrites the entry,
its validity and its partner's; one that it refuses leaves the rule and changes no table; a changed sequence number gives 0x04, a learned
entry 0x08, a place without an entry 0x06. EM_LEARN of a new key writes a learned entry, of a key with another destination moves it, of
one with the same 0x02, of a versioned key 0x08. EM_UNLEARN and EM_FLUSH_PORT free learned entries with their records. OVERFLOW_RETURN
moves an overflow entry to a bucket with room. -/
def Obligations.ExactMatchWindowWrites : Prop :=
  -- 1: emInsert
  (∀ (s : State) (src : Source) (sl key i : Nat) (e : EmEntry),
    sl < 8 →
    s.mayGo src (emWin sl) = true →
    (s.chip.sliceMates sl).Nodup ∧ sl ∈ s.chip.sliceMates sl →
    s.chip.get 0 R.ACCORD_STATUS_state = 1 ∧ s.chip.holdsBound src = true ∧ s.chip.logUsed < 65536 →
    bits (s.chip.winIn src (emWin sl)).data 31 16 = s.chip.pendingAccord ∧ bits (s.chip.winIn src (emWin sl)).data 15 0 = 0 →
    (s.chip.winIn src (emWin sl)).state / 32 % 4 = 0 ∧ key = (bits (s.chip.winIn src (emWin sl)).data 255 96) ∧
      e = { body := (s.chip.winIn src (emWin sl)).data, state := 0x80 } →
    s.chip.emHolding sl false key s.chip.pendingAccord = [] →
    s.chip.emSpot sl key = some i →
    Does (.emInsert src sl) s fun t =>
      WinDone t (emWin sl) 4 { code := 0, index := some i } ∧
        (∀ m ∈ s.chip.sliceMates sl, t.chip.emTab m
        = { s.chip.emTab m with entries := (s.chip.emTab m).entries.set i e, seqs := (s.chip.emTab m).seqs.set (emSeqKey i) (((s.chip.emTab m).seqs.look (emSeqKey i) + 1) % 65536) })
        ∧ (∀ m, m ∉ s.chip.sliceMates sl → t.chip.emTab m = s.chip.emTab m) ∧
      t.chip.accord = { s.chip.accord with log := { place := .em sl i, valid := (s.chip.emAt sl i).valid, vfrom := (s.chip.emAt sl i).vfrom, vuntil := (s.chip.emAt sl i).vuntil } :: s.chip.accord.log }
        ∧
      t.chip.reg (s.chip.sliceCnt sl + C.inserts) = s.chip.reg (s.chip.sliceCnt sl + C.inserts) + 1 ∧
      OnlyParts s t ([emWin sl + 4, emWin sl + 8] ++ s.chip.emRegs sl ++ injRegs ++ [R.ACCORD_LOG,
        R.ACCORD_STATUS] ++ [s.chip.sliceCnt sl + C.inserts]) ([.wins, .house, .em, .mem, .fresh, .ledger] ++ [.accord])) ∧
  -- 2: emInsert
  (∀ (s : State) (src : Source) (sl key i : Nat) (h : Entry) (e e' : EmEntry),
    sl < 8 →
    s.mayGo src (emWin sl) = true →
    (s.chip.sliceMates sl).Nodup ∧ sl ∈ s.chip.sliceMates sl →
    s.chip.get 0 R.ACCORD_STATUS_state = 1 ∧ s.chip.holdsBound src = true ∧ s.chip.logUsed < 65536 →
    bits (s.chip.winIn src (emWin sl)).data 31 16 = s.chip.pendingAccord ∧ bits (s.chip.winIn src (emWin sl)).data 15 0 = 0 →
    (s.chip.winIn src (emWin sl)).state / 32 % 4 = 2 ∧ (s.chip.emTab sl).hold = some h ∧
      key = bits h 255 96 * 2 ^ 160 + (bits (s.chip.winIn src (emWin sl)).data 255 96) →
    e = { body := putBits h 31 0 (bits (s.chip.winIn src (emWin sl)).data 31 0), state := 0xA0 } ∧
      e' = { body := putBits (s.chip.winIn src (emWin sl)).data 95 32 0, state := 0xC0 } →
    s.chip.emHolding sl true key s.chip.pendingAccord = [] →
    s.chip.emPairSpot sl key = some i →
    emSeqKey (i + 1) = emSeqKey i →
    Does (.emInsert src sl) s fun t =>
      WinDone t (emWin sl) 4 { code := 0, index := some i } ∧
      (∀ m ∈ s.chip.sliceMates sl, m ≠ sl → t.chip.emTab m
        = { s.chip.emTab m with entries := ((s.chip.emTab m).entries.set i e).set (i + 1) e', seqs := (s.chip.emTab m).seqs.set (emSeqKey i) (((s.chip.emTab m).seqs.look (emSeqKey i) + 1) % 65536) })
        ∧ t.chip.emAt sl i = e ∧ t.chip.emAt sl (i + 1) = e' ∧ (t.chip.emTab sl).hold = none ∧ (∀ m, m ∉ s.chip.sliceMates sl →
        t.chip.emTab m = s.chip.emTab m) ∧
      t.chip.reg (s.chip.sliceCnt sl + C.inserts) = s.chip.reg (s.chip.sliceCnt sl + C.inserts) + 1 ∧
        OnlyParts s t ([emWin sl + 4, emWin sl + 8] ++ s.chip.emRegs sl ++ injRegs ++ [R.ACCORD_LOG,
        R.ACCORD_STATUS] ++ [s.chip.sliceCnt sl + C.inserts]) ([.wins, .house, .em, .mem, .fresh, .ledger] ++ [.accord])) ∧
  -- 3: emInsert
  (∀ (s : State) (src : Source) (sl x : Nat) (path : List Nat),
    sl < 8 →
    s.mayGo src (emWin sl) = true →
    s.chip.get 0 R.ACCORD_STATUS_state = 1 ∧ s.chip.holdsBound src = true ∧ s.chip.logUsed < 65536 →
    bits (s.chip.winIn src (emWin sl)).data 31 16 = s.chip.pendingAccord ∧ bits (s.chip.winIn src (emWin sl)).data 15 0 = 0 →
    (s.chip.winIn src (emWin sl)).state / 32 % 4 = 0 →
    s.chip.emHolding sl false (bits (s.chip.winIn src (emWin sl)).data 255 96) s.chip.pendingAccord = [] →
    s.chip.emSpot sl (bits (s.chip.winIn src (emWin sl)).data 255 96) = none →
    s.chip.emMoveChain sl (s.chip.emTab sl).rot (bits (s.chip.winIn src (emWin sl)).data 255 96) = some (x, path) →
    Does (.emInsert src sl) s fun t =>
      t.chip.get (emWin sl + 8) R.WIN_STATUS_busy = 1 ∧ t.chip.wins.look (emWin sl) = none ∧
      t.chip.emTab sl = { (s.chip.emTab sl) with rot := (s.chip.emTab sl).rot + 1, job := some { entry := { body := (s.chip.winIn src (emWin sl)).data, state := 0x80 }, path := path, target := x, seqs := path.map (s.chip.emSeq sl) } }
        ∧
      (∀ m, m ≠ sl → t.chip.emTab m = s.chip.emTab m) ∧ OnlyParts s t [emWin sl + 4, emWin sl + 8] [.wins, .house, .em]) ∧
  -- 4: emInsert
  (∀ (s : State) (src : Source) (sl : Nat),
    sl < 8 →
    s.mayGo src (emWin sl) = true →
    s.chip.get 0 R.ACCORD_STATUS_state = 1 ∧ s.chip.holdsBound src = true ∧ s.chip.logUsed < 65536 →
    bits (s.chip.winIn src (emWin sl)).data 31 16 = s.chip.pendingAccord ∧ bits (s.chip.winIn src (emWin sl)).data 15 0 = 0 →
    (s.chip.winIn src (emWin sl)).state / 32 % 4 = 0 →
    s.chip.emHolding sl false (bits (s.chip.winIn src (emWin sl)).data 255 96) s.chip.pendingAccord = [] →
    s.chip.emSpot sl (bits (s.chip.winIn src (emWin sl)).data 255 96) = none ∧
      s.chip.emMoveChain sl (s.chip.emTab sl).rot (bits (s.chip.winIn src (emWin sl)).data 255 96) = none ∧
      s.chip.emOvfSpot sl false = none →
    Does (.emInsert src sl) s fun t =>
      WinDone t (emWin sl) 4 { code := 3 } ∧ t.chip.reg (s.chip.sliceCnt sl + C.insert_fail) =
        s.chip.reg (s.chip.sliceCnt sl + C.insert_fail) + 1 ∧ t.chip.get (A.slice sl) R.EM_EVENT_insert_fail = 1 ∧
      t.chip.emTab sl = { (s.chip.emTab sl) with rot := (s.chip.emTab sl).rot + 1 } ∧
        OnlyParts s t ([emWin sl + 4, emWin sl + 8] ++ [s.chip.sliceCnt sl + C.insert_fail, A.slice sl + R.EM_EVENT]) [.wins, .house,
        .em]) ∧
  -- 5: emInsert
  (∀ (s : State) (src : Source) (sl key : Nat) (wide : Bool),
    sl < 8 →
    s.mayGo src (emWin sl) = true →
    s.chip.get 0 R.ACCORD_STATUS_state = 1 ∧ s.chip.holdsBound src = true ∧ s.chip.logUsed < 65536 →
    bits (s.chip.winIn src (emWin sl)).data 31 16 = s.chip.pendingAccord ∧ bits (s.chip.winIn src (emWin sl)).data 15 0 = 0 →
    (s.chip.winIn src (emWin sl)).state / 32 % 2 = 0 ∧ (s.chip.winIn src (emWin sl)).emKey (s.chip.emTab sl) = some (wide, key) →
    s.chip.emHolding sl wide key s.chip.pendingAccord ≠ [] →
    Does (.emInsert src sl) s fun t => WinDone t (emWin sl) 4 { code := 2 } ∧
      t.chip.em = (if wide then s.chip.em.set sl { (s.chip.emTab sl) with hold := none } else s.chip.em) ∧
      OnlyParts s t [emWin sl + 4, emWin sl + 8] [.wins, .house, .em]) ∧
  -- 6: emInsert
  (∀ (s : State) (src : Source) (sl : Nat),
    sl < 8 →
    s.mayGo src (emWin sl) = true →
    (s.chip.winIn src (emWin sl)).state / 32 % 4 = 0 →
    s.chip.get 0 R.ACCORD_STATUS_state ≠ 1 ∨ s.chip.holdsBound src = false →
    Does (.emInsert src sl) s fun t =>
      WinDone t (emWin sl) 4 { code := 5 } ∧ t.chip.get 0 R.ACCORD_REFUSAL_rule = 1 ∧ t.chip.get 0 R.ACCORD_EVENT_refused = 1 ∧
      t.chip.reg C.refused_writes = s.chip.reg C.refused_writes + 1 ∧
        OnlyParts s t ([emWin sl + 4, emWin sl + 8] ++ [R.ACCORD_REFUSAL, R.ACCORD_REFUSAL_INDEX, R.ACCORD_EVENT, C.refused_writes]) [.wins,
        .house]) ∧
  -- 7: emInsert
  (∀ (s : State) (src : Source) (sl : Nat),
    sl < 8 →
    s.mayGo src (emWin sl) = true →
    (s.chip.winIn src (emWin sl)).state / 32 % 4 = 1 ∨ (s.chip.winIn src (emWin sl)).state / 32 % 4 = 3 ∨
      ((s.chip.winIn src (emWin sl)).state / 32 % 4 = 2 ∧ (s.chip.emTab sl).hold = none) →
    Does (.emInsert src sl) s fun t => WinDone t (emWin sl) 4 { code := 6 } ∧ OnlyParts s t [emWin sl + 4, emWin sl + 8] [.wins, .house]) ∧
  -- 8: emWriteIfSeq
  (∀ (s : State) (src : Source) (sl i : Nat) (lg : Bool),
    sl < 8 →
    s.mayGo src (emWin sl) = true →
    (s.chip.sliceMates sl).Nodup ∧ sl ∈ s.chip.sliceMates sl →
    s.chip.emIndexOk sl (s.chip.winIn src (emWin sl)).index = true →
    (s.chip.winIn src (emWin sl)).seq = s.chip.emSeq sl (s.chip.winIn src (emWin sl)).index →
    (s.chip.emAt sl (s.chip.winIn src (emWin sl)).index).valid = true ∧
      (s.chip.emAt sl (s.chip.winIn src (emWin sl)).index).learned = false →
    i = (s.chip.winIn src (emWin sl)).index →
    (s.chip.judge src (s.chip.emAt sl (s.chip.winIn src (emWin sl)).index).validity ⟨(s.chip.winIn src (emWin sl)).state / 128 % 2 = 1,
      bits (s.chip.winIn src (emWin sl)).data 31 16, bits (s.chip.winIn src (emWin sl)).data 15 0⟩ (bits (s.chip.emAt sl (s.chip.winIn src
      (emWin sl)).index).body 255 32 == bits (if (s.chip.emAt sl (s.chip.winIn src (emWin sl)).index).pair =
      2 then putBits (s.chip.winIn src (emWin sl)).data 95 32 0 else (s.chip.winIn src (emWin sl)).data) 255 32) = .accept lg) →
    Does (.emWriteIfSeq src sl) s fun t =>
      WinDone t (emWin sl) 5 { code := 0 } ∧
      (∀ m ∈ s.chip.sliceMates sl, (t.chip.emAt m i).body = (if (s.chip.emAt sl (s.chip.winIn src (emWin sl)).index).pair =
        2 then putBits (s.chip.winIn src (emWin sl)).data 95 32 0 else (s.chip.winIn src (emWin sl)).data) ∧
        (t.chip.emAt m i).state = putBits (s.chip.emAt m i).state 7 7 ((s.chip.winIn src (emWin sl)).state / 128 % 2) ∧
        t.chip.emSeq m i = (s.chip.emSeq m i + 1) % 65536) ∧
      (∀ m ∈ s.chip.sliceMates sl, ∀ j ∉ s.chip.emWhole m i, t.chip.emAt m j = s.chip.emAt m j) ∧ (∀ m, m ∉ s.chip.sliceMates sl →
        t.chip.emTab m = s.chip.emTab m) ∧
      t.chip.accord.log = (if lg then
        { place := .em sl i, valid := true, vfrom := (s.chip.emAt sl (s.chip.winIn src (emWin sl)).index).vfrom, vuntil := (s.chip.emAt sl (s.chip.winIn src (emWin sl)).index).vuntil }
        :: s.chip.accord.log else s.chip.accord.log) ∧
      OnlyParts s t ([emWin sl + 4, emWin sl + 8] ++ s.chip.emRegs sl ++ injRegs ++ [R.ACCORD_LOG, R.ACCORD_STATUS]) ([.wins, .house, .em,
        .mem, .fresh, .ledger] ++ [.accord])) ∧
  -- 9: emWriteIfSeq
  (∀ (s : State) (src : Source) (sl r : Nat),
    sl < 8 →
    s.mayGo src (emWin sl) = true →
    s.chip.emIndexOk sl (s.chip.winIn src (emWin sl)).index = true →
    (s.chip.winIn src (emWin sl)).seq = s.chip.emSeq sl (s.chip.winIn src (emWin sl)).index →
    (s.chip.emAt sl (s.chip.winIn src (emWin sl)).index).valid = true ∧
      (s.chip.emAt sl (s.chip.winIn src (emWin sl)).index).learned = false →
    (s.chip.judge src (s.chip.emAt sl (s.chip.winIn src (emWin sl)).index).validity ⟨(s.chip.winIn src (emWin sl)).state / 128 % 2 = 1,
      bits (s.chip.winIn src (emWin sl)).data 31 16, bits (s.chip.winIn src (emWin sl)).data 15 0⟩ (bits (s.chip.emAt sl (s.chip.winIn src
      (emWin sl)).index).body 255 32 == bits (if (s.chip.emAt sl (s.chip.winIn src (emWin sl)).index).pair =
      2 then putBits (s.chip.winIn src (emWin sl)).data 95 32 0 else (s.chip.winIn src (emWin sl)).data) 255 32) = .refuse r) →
    1 ≤ r ∧ r ≤ 4 →
    Does (.emWriteIfSeq src sl) s fun t =>
      WinDone t (emWin sl) 5 { code := 5 } ∧ t.chip.get 0 R.ACCORD_REFUSAL_rule = r ∧ t.chip.get 0 R.ACCORD_EVENT_refused = 1 ∧
      t.chip.reg C.refused_writes = s.chip.reg C.refused_writes + 1 ∧
      OnlyParts s t ([emWin sl + 4, emWin sl + 8] ++ [R.ACCORD_REFUSAL, R.ACCORD_REFUSAL_INDEX, R.ACCORD_EVENT, C.refused_writes]) [.wins,
        .house]) ∧
  -- 10: emWriteIfSeq
  (∀ (s : State) (src : Source) (sl : Nat),
    sl < 8 →
    s.mayGo src (emWin sl) = true →
    s.chip.emIndexOk sl (s.chip.winIn src (emWin sl)).index = false ∨
      (s.chip.winIn src (emWin sl)).seq ≠ s.chip.emSeq sl (s.chip.winIn src (emWin sl)).index ∨
      ((s.chip.winIn src (emWin sl)).state / 128 % 2 = 1 ∧ (s.chip.emAt sl (s.chip.winIn src (emWin sl)).index).valid = false) ∨
      ((s.chip.emAt sl (s.chip.winIn src (emWin sl)).index).valid = true ∧
      (s.chip.emAt sl (s.chip.winIn src (emWin sl)).index).learned = true) →
    Does (.emWriteIfSeq src sl) s fun t =>
      WinDone t (emWin sl) 5
        { code := if s.chip.emIndexOk sl (s.chip.winIn src (emWin sl)).index = false then 6 else if (s.chip.winIn src (emWin sl)).seq ≠ s.chip.emSeq sl (s.chip.winIn src (emWin sl)).index then 4 else if (s.chip.emAt sl (s.chip.winIn src (emWin sl)).index).valid = false then 6 else 8 }
        ∧ OnlyParts s t [emWin sl + 4, emWin sl + 8] [.wins, .house]) ∧
  -- 11: emLearn
  (∀ (s : State) (src : Source) (sl i : Nat) (e : EmEntry),
    sl < 8 →
    s.mayGo src (emWin sl) = true →
    (s.chip.sliceMates sl).Nodup ∧ sl ∈ s.chip.sliceMates sl →
    s.chip.learnOpOk sl (bits (s.chip.winIn src (emWin sl)).data 255 96) = true →
    s.chip.emVersioned sl false (bits (s.chip.winIn src (emWin sl)).data 255 96) s.chip.newest = none ∧
      s.chip.emLearned sl (bits (s.chip.winIn src (emWin sl)).data 255 96) = none →
    s.chip.emSpot sl (bits (s.chip.winIn src (emWin sl)).data 255 96) = some i →
    e = learnedEntry (bits (s.chip.winIn src (emWin sl)).data 255 96) (s.chip.learnResult sl (bits (s.chip.winIn src (emWin sl)).data 91
      72)) ((s.chip.winIn src (emWin sl)).state / 8 % 2 = 1) →
    Does (.emLearn src sl) s fun t =>
      WinDone t (emWin sl) 6 { code := 0, index := some i } ∧
        (∀ m ∈ s.chip.sliceMates sl, t.chip.emTab m
        = { s.chip.emTab m with entries := (s.chip.emTab m).entries.set i e, seqs := (s.chip.emTab m).seqs.set (emSeqKey i) (((s.chip.emTab m).seqs.look (emSeqKey i) + 1) % 65536) })
        ∧ (∀ m, m ∉ s.chip.sliceMates sl → t.chip.emTab m = s.chip.emTab m) ∧
      t.chip.reg (s.chip.sliceCnt sl + C.learns) = s.chip.reg (s.chip.sliceCnt sl + C.learns) + 1 ∧
        OnlyParts s t ([emWin sl + 4, emWin sl + 8] ++ s.chip.emRegs sl ++ injRegs ++ s.chip.fifoRegs (s.chip.emHome sl) ++ [s.chip.sliceCnt
        sl + C.learns]) [.wins, .house, .em, .mem, .fresh, .ledger, .fifos]) ∧
  -- 12: emLearn
  (∀ (s : State) (src : Source) (sl i : Nat),
    sl < 8 →
    s.mayGo src (emWin sl) = true →
    (s.chip.sliceMates sl).Nodup ∧ sl ∈ s.chip.sliceMates sl →
    s.chip.learnOpOk sl (bits (s.chip.winIn src (emWin sl)).data 255 96) = true →
    s.chip.emVersioned sl false (bits (s.chip.winIn src (emWin sl)).data 255 96) s.chip.newest = none ∧
      s.chip.emLearned sl (bits (s.chip.winIn src (emWin sl)).data 255 96) = some i →
    nbits (s.chip.emAt sl i).result 59 40 ≠ bits (s.chip.winIn src (emWin sl)).data 91 72 ∧ (s.chip.emAt sl i).static_ = false ∧
      s.chip.get (A.slice (s.chip.emHome sl)) R.LEARN_CTRL_move_enable = 1 →
    Does (.emLearn src sl) s fun t =>
      WinDone t (emWin sl) 6 { code := 0, index := some i } ∧
      (∀ m ∈ s.chip.sliceMates sl, t.chip.emAt m i
        = { s.chip.emAt m i with body := putBits (s.chip.emAt m i).body 95 32 (s.chip.learnResult sl (bits (s.chip.winIn src (emWin sl)).data 91 72)) }
        ∧ t.chip.emSeq m i = (s.chip.emSeq m i + 1) % 65536) ∧ (∀ m, m ∉ s.chip.sliceMates sl → t.chip.emTab m = s.chip.emTab m) ∧
      t.chip.reg (s.chip.sliceCnt sl + C.learn_moves) = s.chip.reg (s.chip.sliceCnt sl + C.learn_moves) + 1 ∧
        OnlyParts s t ([emWin sl + 4, emWin sl + 8] ++ s.chip.emRegs sl ++ injRegs ++ s.chip.fifoRegs (s.chip.emHome sl) ++ [s.chip.sliceCnt
        sl + C.learn_moves]) [.wins, .house, .em, .mem, .fresh, .ledger, .fifos]) ∧
  -- 13: emLearn
  (∀ (s : State) (src : Source) (sl : Nat),
    sl < 8 →
    s.mayGo src (emWin sl) = true →
    s.chip.learnOpOk sl (bits (s.chip.winIn src (emWin sl)).data 255 96) = true →
    ((s.chip.emVersioned sl false (bits (s.chip.winIn src (emWin sl)).data 255 96) s.chip.newest).isSome = true ∨
      (s.chip.emLearned sl (bits (s.chip.winIn src (emWin sl)).data 255 96)).any (fun i => nbits (s.chip.emAt sl i).result 59 40 ==
      bits (s.chip.winIn src (emWin sl)).data 91 72 || (s.chip.emAt sl i).static_) = true) →
    Does (.emLearn src sl) s fun t =>
      WinDone t (emWin sl) 6
        { code := if (s.chip.emVersioned sl false (bits (s.chip.winIn src (emWin sl)).data 255 96) s.chip.newest).isSome then 8 else 2 } ∧
        OnlyParts s t [emWin sl + 4, emWin sl + 8] [.wins, .house]) ∧
  -- 14: emLearn
  (∀ (s : State) (src : Source) (sl : Nat),
    sl < 8 →
    s.mayGo src (emWin sl) = true →
    s.chip.learnOpOk sl (bits (s.chip.winIn src (emWin sl)).data 255 96) = false →
    Does (.emLearn src sl) s fun t => t.chip.em = s.chip.em ∧ OnlyParts s t [emWin sl + 4, emWin sl + 8] [.wins, .house, .fresh]) ∧
  -- 15: emUnlearn
  (∀ (s : State) (src : Source) (sl i : Nat),
    sl < 8 →
    s.mayGo src (emWin sl) = true →
    (s.chip.sliceMates sl).Nodup ∧ sl ∈ s.chip.sliceMates sl →
    s.chip.emLearned sl (bits (s.chip.winIn src (emWin sl)).data 255 96) = some i →
    Does (.emUnlearn src sl) s fun t =>
      WinDone t (emWin sl) 7 { code := 0 } ∧ (∀ m ∈ s.chip.sliceMates sl, (t.chip.emAt m i).valid = false ∧
        t.chip.emSeq m i = (s.chip.emSeq m i + 1) % 65536) ∧ (∀ m, m ∉ s.chip.sliceMates sl → t.chip.emTab m = s.chip.emTab m) ∧
        OnlyParts s t ([emWin sl + 4, emWin sl + 8] ++ s.chip.emRegs sl ++ injRegs ++ s.chip.fifoRegs (s.chip.emHome sl)) [.wins, .house,
        .em, .mem, .fresh, .ledger, .fifos]) ∧
  -- 16: emUnlearn
  (∀ (s : State) (src : Source) (sl : Nat),
    sl < 8 →
    s.mayGo src (emWin sl) = true →
    s.chip.emLearned sl (bits (s.chip.winIn src (emWin sl)).data 255 96) = none →
    Does (.emUnlearn src sl) s fun t => WinDone t (emWin sl) 7 { code := 1 } ∧ OnlyParts s t [emWin sl + 4, emWin sl + 8] [.wins, .house]) ∧
  -- 17: emFlushPort
  (∀ (s : State) (src : Source) (sl : Nat),
    sl < 8 →
    s.mayGo src (emWin sl) = true →
    (((s.chip.emTab sl).entries.all fun x => !(x.2.valid && x.2.learned && nbits x.2.result 57 51 ==
      bits (s.chip.winIn src (emWin sl)).data 6 0)) = true) →
    Does (.emFlushPort src sl) s fun t => WinDone t (emWin sl) 8 { code := 0 } ∧
      OnlyParts s t [emWin sl + 4, emWin sl + 8] [.wins, .house]) ∧
  -- 18: emFlushPort
  (∀ (s : State) (src : Source) (sl i : Nat) (e : EmEntry),
    sl < 8 →
    s.mayGo src (emWin sl) = true →
    (s.chip.sliceMates sl).Nodup ∧ sl ∈ s.chip.sliceMates sl →
    (s.chip.emTab sl).entries = [(i, e)] →
    e.valid = true ∧ e.learned = true ∧ nbits e.result 57 51 = bits (s.chip.winIn src (emWin sl)).data 6 0 →
    Does (.emFlushPort src sl) s fun t =>
      WinDone t (emWin sl) 8 { code := 0 } ∧ ((bit (s.chip.winIn src (emWin sl)).data 31 || (nbits e.result 50 40 ==
        bits (s.chip.winIn src (emWin sl)).data 18 8 && (nbits e.result 59 58 == 1 || bits (s.chip.winIn src (emWin sl)).data 18 8 == 0))) =
        true → (∀ m ∈ s.chip.sliceMates sl, (t.chip.emAt m i).valid = false ∧ t.chip.emSeq m i = (s.chip.emSeq m i + 1) % 65536) ∧
        t.chip.reg (s.chip.sliceCnt sl + C.flushed) = s.chip.reg (s.chip.sliceCnt sl + C.flushed) + 1) ∧
      ((bit (s.chip.winIn src (emWin sl)).data 31 || (nbits e.result 50 40 ==
        bits (s.chip.winIn src (emWin sl)).data 18 8 && (nbits e.result 59 58 == 1 || bits (s.chip.winIn src (emWin sl)).data 18 8 == 0))) =
        false → t.chip.em = s.chip.em) ∧ (∀ m, m ∉ s.chip.sliceMates sl → t.chip.emTab m = s.chip.emTab m) ∧
        OnlyParts s t ([emWin sl + 4, emWin sl + 8] ++ s.chip.emRegs sl ++ injRegs ++ s.chip.fifoRegs (s.chip.emHome sl) ++ [s.chip.sliceCnt
        sl + C.flushed]) [.wins, .house, .em, .mem, .fresh, .ledger, .fifos]) ∧
  -- 19: overflowReturn
  (∀ (s : State) (sl i f : Nat),
    s.runs .core = true →
    sl < 8 →
    s.chip.emEngine sl = true →
    (s.chip.sliceMates sl).Nodup ∧ sl ∈ s.chip.sliceMates sl →
    emOvf i = true ∧ (s.chip.emAt sl i).valid = true ∧ (s.chip.emAt sl i).pair = 0 →
    s.chip.emSpot sl (s.chip.emAt sl i).key = some f →
    f < 0x40000 →
    Does (.overflowReturn sl i) s fun t =>
      (∀ m ∈ s.chip.sliceMates sl, t.chip.emAt m f = s.chip.emAt m i ∧ (t.chip.emAt m i).valid = false ∧
        t.chip.emSeq m i = (s.chip.emSeq m i + 1) % 65536 ∧ t.chip.emSeq m f = (s.chip.emSeq m f + 1) % 65536) ∧
        (∀ m, m ∉ s.chip.sliceMates sl → t.chip.emTab m = s.chip.emTab m) ∧
      t.chip.reg (s.chip.sliceCnt sl + C.ovf_returns) = s.chip.reg (s.chip.sliceCnt sl + C.ovf_returns) + 1 ∧
      OnlyParts s t (s.chip.emRegs sl ++ injRegs ++ [s.chip.sliceCnt sl + C.ovf_returns]) [.em, .mem, .fresh, .ledger, .accord]) ∧
  -- 20: overflowReturn
  (∀ (s : State) (sl i : Nat),
    s.runs .core = true →
    emOvf i = false ∨ (s.chip.emAt sl i).valid = false →
    Does (.overflowReturn sl i) s fun t => OnlyRegs s t [])

/-- LEARN_REQUEST of a frame with a good FCS queues its key and destination; a bad FCS, a key in the recent filter, the rate of the present
ms and a full queue each drop it with a count of their own. LEARN_INSERT inserts the oldest request's key as a learned entry in every
member's copy, LEARN_MOVE rewrites the destination of a learned one where moves are enabled and the entry is not static; the key leaves
the filter. AGER_VISIT of a learned, not static entry that is due clears its hit bit and age, or steps the age, and frees the entry at
the limit; an entry that is not due, and one of a stopped engine, stays. -/
def Obligations.LearningAndAgeing : Prop :=
  -- 1: learnRequest
  (∀ (s : State) (sl id : Nat) (r : LearnReq),
    s.runs .core = true →
    s.chip.portersRun sl = true →
    (s.chip.tail id).learn = some r ∧ (s.chip.tail id).slice = sl →
    (s.chip.tail id).good = some true →
    r.key ∉ (s.chip.emTab (s.chip.emHome sl)).recent ∧ (s.chip.emTab (s.chip.emHome sl)).recent.length < 64 ∧
      (s.chip.emTab (s.chip.emHome sl)).queue.length < 64 →
    (s.chip.get (A.slice (s.chip.emHome sl)) R.LEARN_LIMIT_per_ms = 0 ∨
      (if (s.chip.emTab (s.chip.emHome sl)).window = s.chip.now / 1000000 then (s.chip.emTab (s.chip.emHome sl)).accepted else 0) <
      s.chip.get (A.slice (s.chip.emHome sl)) R.LEARN_LIMIT_per_ms) →
    Does (.learnRequest sl id) s fun t =>
      t.chip.em = s.chip.em.set (s.chip.emHome sl)
        { (s.chip.emTab (s.chip.emHome sl)) with queue := (s.chip.emTab (s.chip.emHome sl)).queue ++ [r], recent := (s.chip.emTab (s.chip.emHome sl)).recent ++ [r.key], window := s.chip.now / 1000000, accepted := (if (s.chip.emTab (s.chip.emHome sl)).window = s.chip.now / 1000000 then (s.chip.emTab (s.chip.emHome sl)).accepted else 0) + 1 }
        ∧
      t.chip.tail id = {} ∧ (∀ j, j ≠ id → t.chip.tail j = s.chip.tail j) ∧ OnlyParts s t [] [.em, .tails]) ∧
  -- 2: learnRequest
  (∀ (s : State) (sl id : Nat) (r : LearnReq),
    s.runs .core = true →
    s.chip.portersRun sl = true →
    (s.chip.tail id).learn = some r ∧ (s.chip.tail id).slice = sl →
    (s.chip.tail id).good.isSome = true →
    ((s.chip.tail id).good = some false ∨ r.key ∈ (s.chip.emTab (s.chip.emHome sl)).recent ∨
      (s.chip.get (A.slice (s.chip.emHome sl)) R.LEARN_LIMIT_per_ms ≠ 0 ∧
      s.chip.get (A.slice (s.chip.emHome sl)) R.LEARN_LIMIT_per_ms ≤ (if (s.chip.emTab (s.chip.emHome sl)).window =
      s.chip.now / 1000000 then (s.chip.emTab (s.chip.emHome sl)).accepted else 0)) ∨ 64 ≤ (s.chip.emTab (s.chip.emHome sl)).queue.length) →
    Does (.learnRequest sl id) s fun t =>
      t.chip.reg (s.chip.sliceCnt sl + C.learn_bad_fcs) = s.chip.reg (s.chip.sliceCnt sl + C.learn_bad_fcs) + (if (s.chip.tail id).good =
        some false then 1 else 0) ∧
      t.chip.reg (s.chip.sliceCnt sl + C.learn_dup) = s.chip.reg (s.chip.sliceCnt sl + C.learn_dup) + (if (s.chip.tail id).good =
        some true ∧ r.key ∈ (s.chip.emTab (s.chip.emHome sl)).recent then 1 else 0) ∧
      t.chip.reg (s.chip.sliceCnt sl + C.learn_rate_drop) = s.chip.reg (s.chip.sliceCnt sl + C.learn_rate_drop) + (if (s.chip.tail id).good
        = some true ∧ r.key ∉ (s.chip.emTab (s.chip.emHome sl)).recent ∧ s.chip.get (A.slice (s.chip.emHome sl)) R.LEARN_LIMIT_per_ms ≠ 0 ∧
        s.chip.get (A.slice (s.chip.emHome sl)) R.LEARN_LIMIT_per_ms ≤ (if (s.chip.emTab (s.chip.emHome sl)).window =
        s.chip.now / 1000000 then (s.chip.emTab (s.chip.emHome sl)).accepted else 0) then 1 else 0) ∧
      t.chip.reg (s.chip.sliceCnt sl + C.learn_queue_drop) = s.chip.reg (s.chip.sliceCnt sl + C.learn_queue_drop) + (if (s.chip.tail
        id).good = some true ∧ r.key ∉ (s.chip.emTab (s.chip.emHome sl)).recent ∧
        (s.chip.get (A.slice (s.chip.emHome sl)) R.LEARN_LIMIT_per_ms = 0 ∨
        (if (s.chip.emTab (s.chip.emHome sl)).window = s.chip.now / 1000000 then (s.chip.emTab (s.chip.emHome sl)).accepted else 0) <
        s.chip.get (A.slice (s.chip.emHome sl)) R.LEARN_LIMIT_per_ms) then 1 else 0) ∧
      t.chip.tail id = {} ∧ OnlyParts s t [s.chip.sliceCnt sl + C.learn_bad_fcs, s.chip.sliceCnt sl + C.learn_dup,
        s.chip.sliceCnt sl + C.learn_rate_drop, s.chip.sliceCnt sl + C.learn_queue_drop,
        A.slice (s.chip.emHome sl) + R.EM_EVENT] [.tails]) ∧
  -- 3: learnInsert
  (∀ (s : State) (sl f : Nat) (q : LearnReq) (l : List LearnReq),
    s.runs .core = true →
    sl < 8 →
    s.chip.emEngine sl = true →
    (s.chip.sliceMates sl).Nodup ∧ sl ∈ s.chip.sliceMates sl →
    (s.chip.emTab sl).queue = q :: l →
    s.chip.emLearned sl q.key = none ∧ s.chip.emVersioned sl false q.key s.chip.newest = none →
    s.chip.emSpot sl q.key = some f →
    Does (.learnInsert sl) s fun t =>
      (∀ m ∈ s.chip.sliceMates sl, t.chip.emAt m f = learnedEntry q.key (s.chip.learnResult sl q.dest) false ∧
        t.chip.emSeq m f = (s.chip.emSeq m f + 1) % 65536 ∧ (∀ j, j ≠ f → t.chip.emAt m j = s.chip.emAt m j)) ∧
        (∀ m, m ∉ s.chip.sliceMates sl → t.chip.emTab m = s.chip.emTab m) ∧
      (t.chip.emTab sl).queue = l ∧ (t.chip.emTab sl).recent = (s.chip.emTab sl).recent.filter (· != q.key) ∧
      t.chip.reg (s.chip.sliceCnt sl + C.learns) = s.chip.reg (s.chip.sliceCnt sl + C.learns) + 1 ∧
        OnlyParts s t (s.chip.emRegs sl ++ injRegs ++ s.chip.fifoRegs (s.chip.emHome sl) ++ [s.chip.sliceCnt sl + C.learns]) [.em, .mem,
        .fresh, .ledger, .fifos]) ∧
  -- 4: learnMove
  (∀ (s : State) (sl i : Nat) (q : LearnReq) (l : List LearnReq),
    s.runs .core = true →
    sl < 8 →
    s.chip.emEngine sl = true →
    (s.chip.sliceMates sl).Nodup ∧ sl ∈ s.chip.sliceMates sl →
    (s.chip.emTab sl).queue = q :: l →
    s.chip.emLearned sl q.key = some i →
    (s.chip.emAt sl i).static_ = false ∧ nbits (s.chip.emAt sl i).result 59 40 ≠ q.dest ∧
      s.chip.get (A.slice (s.chip.emHome sl)) R.LEARN_CTRL_move_enable = 1 →
    Does (.learnMove sl) s fun t =>
      (∀ m ∈ s.chip.sliceMates sl, t.chip.emAt m i
        = { s.chip.emAt m i with body := putBits (s.chip.emAt m i).body 95 32 (s.chip.learnResult sl q.dest) } ∧
        t.chip.emSeq m i = (s.chip.emSeq m i + 1) % 65536 ∧ (∀ j, j ≠ i → t.chip.emAt m j = s.chip.emAt m j)) ∧
        (∀ m, m ∉ s.chip.sliceMates sl → t.chip.emTab m = s.chip.emTab m) ∧
      (t.chip.emTab sl).queue = l ∧ (t.chip.emTab sl).recent = (s.chip.emTab sl).recent.filter (· != q.key) ∧
      t.chip.reg (s.chip.sliceCnt sl + C.learn_moves) = s.chip.reg (s.chip.sliceCnt sl + C.learn_moves) + 1 ∧
        OnlyParts s t (s.chip.emRegs sl ++ injRegs ++ s.chip.fifoRegs (s.chip.emHome sl) ++ [s.chip.sliceCnt sl + C.learn_moves]) [.em,
        .mem, .fresh, .ledger, .fifos]) ∧
  -- 5: learnMove
  (∀ (s : State) (sl i : Nat) (q : LearnReq) (l : List LearnReq),
    s.runs .core = true →
    sl < 8 →
    s.chip.emEngine sl = true →
    (s.chip.emTab sl).queue = q :: l →
    s.chip.emLearned sl q.key = some i →
    (s.chip.emAt sl i).static_ = true ∨ nbits (s.chip.emAt sl i).result 59 40 = q.dest ∨
      s.chip.get (A.slice (s.chip.emHome sl)) R.LEARN_CTRL_move_enable = 0 →
    Does (.learnMove sl) s fun t =>
      t.chip.em = s.chip.em.set sl { (s.chip.emTab sl) with queue := l, recent := (s.chip.emTab sl).recent.filter (· != q.key) } ∧
      t.chip.reg (s.chip.sliceCnt sl + C.learn_static_conflict) =
        s.chip.reg (s.chip.sliceCnt sl + C.learn_static_conflict) + (if (s.chip.emAt sl i).static_ then 1 else 0) ∧
        OnlyParts s t [s.chip.sliceCnt sl + C.learn_static_conflict] [.em]) ∧
  -- 6: learnInsert
  (∀ (s : State) (sl : Nat),
    s.runs .core = true →
    s.chip.emEngine sl = false ∨ (s.chip.emTab sl).queue = [] →
    Does (.learnInsert sl) s fun t => OnlyRegs s t []) ∧
  -- 7: learnMove
  (∀ (s : State) (sl : Nat),
    s.runs .core = true →
    s.chip.emEngine sl = false ∨ (s.chip.emTab sl).queue = [] →
    Does (.learnMove sl) s fun t => OnlyRegs s t []) ∧
  -- 8: agerVisit
  (∀ (s : State) (sl i : Nat),
    s.runs .core = true →
    sl < 8 →
    s.chip.emEngine sl = true →
    (s.chip.sliceMates sl).Nodup ∧ sl ∈ s.chip.sliceMates sl →
    (s.chip.emAt sl i).valid = true ∧ (s.chip.emAt sl i).learned = true ∧ (s.chip.emAt sl i).static_ = false →
    s.chip.get (A.slice sl) R.AGE_CTRL_enable = 1 →
    (((s.chip.emTab sl).visited.look i).all (fun x => decide (x + s.chip.get (A.slice sl) R.AGE_CTRL_pass_s * 1000000 * 1000 ≤ s.chip.now))
      = true) →
    (((s.chip.sliceMates sl).any fun m => (s.chip.emAt m i).hit) = true ∨
      (s.chip.emAt sl i).age + 1 < s.chip.get (A.slice sl) R.AGE_CTRL_limit) →
    Does (.agerVisit sl i) s fun t =>
      (∀ m ∈ s.chip.sliceMates sl, (t.chip.emAt m i).hit = false ∧
        (t.chip.emAt m i).age = (if ((s.chip.sliceMates sl).any fun m => (s.chip.emAt m i).hit) then 0 else (s.chip.emAt sl i).age + 1) % 4
        ∧ (t.chip.emAt m i).body = (s.chip.emAt m i).body ∧ t.chip.emSeq m i = (s.chip.emSeq m i + 1) % 65536) ∧
        (∀ m, m ∉ s.chip.sliceMates sl → t.chip.emTab m = s.chip.emTab m) ∧
      (t.chip.emTab sl).visited.look i = some s.chip.now ∧ OnlyParts s t (s.chip.emRegs sl ++ injRegs) [.em, .mem, .fresh, .ledger]) ∧
  -- 9: agerVisit
  (∀ (s : State) (sl i : Nat),
    s.runs .core = true →
    sl < 8 →
    s.chip.emEngine sl = true →
    (s.chip.sliceMates sl).Nodup ∧ sl ∈ s.chip.sliceMates sl →
    (s.chip.emAt sl i).valid = true ∧ (s.chip.emAt sl i).learned = true ∧ (s.chip.emAt sl i).static_ = false →
    s.chip.get (A.slice sl) R.AGE_CTRL_enable = 1 →
    (((s.chip.emTab sl).visited.look i).all (fun x => decide (x + s.chip.get (A.slice sl) R.AGE_CTRL_pass_s * 1000000 * 1000 ≤ s.chip.now))
      = true) →
    (((s.chip.sliceMates sl).any fun m => (s.chip.emAt m i).hit) = false ∧
      s.chip.get (A.slice sl) R.AGE_CTRL_limit ≤ (s.chip.emAt sl i).age + 1) →
    Does (.agerVisit sl i) s fun t =>
      (∀ m ∈ s.chip.sliceMates sl, (t.chip.emAt m i).valid = false ∧ t.chip.emSeq m i = (s.chip.emSeq m i + 1) % 65536) ∧
        (∀ m, m ∉ s.chip.sliceMates sl → t.chip.emTab m = s.chip.emTab m) ∧
        t.chip.reg (s.chip.sliceCnt sl + C.aged) = s.chip.reg (s.chip.sliceCnt sl + C.aged) + 1 ∧
        OnlyParts s t (s.chip.emRegs sl ++ injRegs ++ s.chip.fifoRegs (s.chip.emHome sl) ++ [s.chip.sliceCnt sl + C.aged]) [.em, .mem,
        .fresh, .ledger, .fifos]) ∧
  -- 10: agerVisit
  (∀ (s : State) (sl i : Nat),
    s.runs .core = true →
    s.chip.emEngine sl = false ∨ s.chip.get (A.slice sl) R.AGE_CTRL_enable = 0 ∨ (s.chip.emAt sl i).valid = false ∨
      (s.chip.emAt sl i).learned = false ∨ (s.chip.emAt sl i).static_ = true →
    Does (.agerVisit sl i) s fun t => OnlyRegs s t [])

/-- LOOKUP of the first frame of its flow, its units out of reset: with no key it passes the frame on, the upset rows changed. An exact-match
probe that hits keeps the result, one that misses keeps none; a chain result is followed; both count; a source probe sets the hit bit; a
poisoned probe drops the frame, counts and sets the event. An LPM walk that hits keeps its result, one that misses keeps none, one whose
budget is used up waits in the hold queue; all count, and the short-prefix search is made beside; a walk that meets poison drops the
frame; with the hold queue full only lpm_hold_full counts. A frame whose turn it is not, or whose units are in reset, waits.
LPM_HELD_PROBE ends the hold with a hit, or keeps it. TCAM_REPEAT_SEARCH that finds nothing ends the search; a winner that agrees with
its stored copy gives its result; a poisoned copy is excluded and the search made again; a false hit counts, queues the row for repair
and repeats, and the fourth drops the frame. TCAM_ROW_REWRITE restores the oldest row of the repairs. A reader of a correctable word
counts and logs it. Nothing else changes. -/
def Obligations.LookupsOfAFrame : Prop :=
  -- 1: lookup
  (∀ (s : State) (sl id : Nat) (l : List (Nat × Key)) (f : Frame),
    s.runs .core = true →
    s.chip.portersRun sl = true ∧ s.chip.flowTurn id [.pipes] = true ∧ s.chip.lookupUp sl id = true →
    s.chip.frames.look id = some f ∧ f.slice = sl ∧ f.stage = .pipes →
    Wb.keyValid f.wb = 0 →
    Does (.lookup sl id l) s fun t =>
      t.chip.frames.look id = some { f with stage := .lookups } ∧ t.chip.tcam = (s.chip.each l fun c u => c.tcamUpset sl u.1 u.2).tcam ∧
      OnlyParts s t [] [.frames, .tcam]) ∧
  -- 2: lookup
  (∀ (s : State) (sl id b i : Nat) (f : Frame),
    s.runs .core = true →
    s.chip.portersRun sl = true ∧ s.chip.flowTurn id [.pipes] = true ∧ s.chip.lookupUp sl id = true →
    s.chip.frames.look id = some f ∧ f.slice = sl ∧ f.stage = .pipes →
    b < 3 ∧ Wb.keyValid f.wb = 2 ^ b →
    s.chip.get (A.slice (s.chip.emHome sl)) R.LEARN_CTRL_sa_buffer ≠ b →
    s.chip.emProbePoison sl false (f.emKey b) = none →
    s.chip.emMatches sl false (f.emKey b) (s.chip.frameAccord f) = [i] →
    nbits (s.chip.emAt sl i).result 63 60 ≠ 0xE →
    Does (.lookup sl id []) s fun t =>
      t.chip.frames.look id = some
        { f with stage := .lookups, hits := f.hits.set (1 + b) (some (BitVec.ofNat 64 (s.chip.emAt sl i).result)) } ∧
      t.chip.reg (s.chip.sliceCnt sl + C.em_probes) = s.chip.reg (s.chip.sliceCnt sl + C.em_probes) + 1 ∧
        t.chip.reg (s.chip.sliceCnt sl + C.em_hits) = s.chip.reg (s.chip.sliceCnt sl + C.em_hits) + 1 ∧
      OnlyParts s t ([s.chip.sliceCnt sl + C.em_probes, s.chip.sliceCnt sl + C.em_hits] ++ (errRegs (U.sliceBlk sl 0x48) ++ errRegs
        (U.sliceBlk sl 0x49))) [.frames, .mem, .ledger]) ∧
  -- 3: lookup
  (∀ (s : State) (sl id b : Nat) (f : Frame),
    s.runs .core = true →
    s.chip.portersRun sl = true ∧ s.chip.flowTurn id [.pipes] = true ∧ s.chip.lookupUp sl id = true →
    s.chip.frames.look id = some f ∧ f.slice = sl ∧ f.stage = .pipes →
    b < 3 ∧ Wb.keyValid f.wb = 2 ^ b →
    s.chip.get (A.slice (s.chip.emHome sl)) R.LEARN_CTRL_sa_buffer ≠ b →
    s.chip.emProbePoison sl false (f.emKey b) = none →
    s.chip.emMatches sl false (f.emKey b) (s.chip.frameAccord f) = [] →
    Does (.lookup sl id []) s fun t =>
      t.chip.frames.look id = some { f with stage := .lookups } ∧
        t.chip.reg (s.chip.sliceCnt sl + C.em_probes) = s.chip.reg (s.chip.sliceCnt sl + C.em_probes) + 1 ∧
      OnlyParts s t ([s.chip.sliceCnt sl + C.em_probes] ++ (errRegs (U.sliceBlk sl 0x48) ++ errRegs (U.sliceBlk sl 0x49))) [.frames, .mem,
        .ledger]) ∧
  -- 4: lookup
  (∀ (s : State) (sl id b i j key : Nat) (f : Frame),
    s.runs .core = true →
    s.chip.portersRun sl = true ∧ s.chip.flowTurn id [.pipes] = true ∧ s.chip.lookupUp sl id = true →
    s.chip.frames.look id = some f ∧ f.slice = sl ∧ f.stage = .pipes →
    b < 3 ∧ Wb.keyValid f.wb = 2 ^ b →
    s.chip.get (A.slice (s.chip.emHome sl)) R.LEARN_CTRL_sa_buffer ≠ b →
    s.chip.emProbePoison sl false (f.emKey b) = none →
    s.chip.emMatches sl false (f.emKey b) (s.chip.frameAccord f) = [i] →
    nbits (s.chip.emAt sl i).result 63 60 = 0xE →
    key = nbits (s.chip.emAt sl i).result 59 56 * 2 ^ 156 + nbits (s.chip.emAt sl i).result 55 0 * 2 ^ 100 →
    s.chip.emProbePoison sl false key = none →
    s.chip.emMatches sl false key (s.chip.frameAccord f) = [j] →
    Does (.lookup sl id []) s fun t =>
      (nbits (s.chip.emAt sl j).result 63 60 ≠ 0xE → t.chip.frames.look id =
        some { f with stage := .lookups, hits := f.hits.set (1 + b) (some (BitVec.ofNat 64 (s.chip.emAt sl j).result)) }) ∧
      (nbits (s.chip.emAt sl j).result 63 60 = 0xE → t.chip.frames.look id = some { f with stage := .lookups } ∧
        t.chip.reg (s.chip.sliceCnt sl + C.em_chain_loop) = s.chip.reg (s.chip.sliceCnt sl + C.em_chain_loop) + 1) ∧
      t.chip.reg (s.chip.sliceCnt sl + C.em_probes) = s.chip.reg (s.chip.sliceCnt sl + C.em_probes) + 2 ∧
        t.chip.reg (s.chip.sliceCnt sl + C.em_hits) = s.chip.reg (s.chip.sliceCnt sl + C.em_hits) + 2 ∧
      t.chip.reg (s.chip.sliceCnt sl + C.em_chain_probes) = s.chip.reg (s.chip.sliceCnt sl + C.em_chain_probes) + 1 ∧
      OnlyParts s t ([s.chip.sliceCnt sl + C.em_probes, s.chip.sliceCnt sl + C.em_hits, s.chip.sliceCnt sl + C.em_chain_probes,
        s.chip.sliceCnt sl + C.em_chain_loop] ++ (errRegs (U.sliceBlk sl 0x48) ++ errRegs (U.sliceBlk sl 0x49))) [.frames, .mem, .ledger]) ∧
  -- 5: lookup
  (∀ (s : State) (sl id b i : Nat) (f : Frame),
    s.runs .core = true →
    s.chip.portersRun sl = true ∧ s.chip.flowTurn id [.pipes] = true ∧ s.chip.lookupUp sl id = true →
    s.chip.frames.look id = some f ∧ f.slice = sl ∧ f.stage = .pipes →
    b < 2 ∧ Wb.keyValid f.wb = 2 ^ b →
    s.chip.get (A.slice (s.chip.emHome sl)) R.LEARN_CTRL_sa_buffer = b ∧ s.chip.get (A.slice (s.chip.emHome sl)) R.LEARN_CTRL_enable = 0 →
    nbits (f.emKey b) 159 156 = s.chip.get (A.slice (s.chip.emHome sl)) R.LEARN_CTRL_bridge_kind →
    s.chip.emProbePoison sl false (f.emKey b) = none →
    s.chip.emMatches sl false (f.emKey b) (s.chip.frameAccord f) = [i] →
    nbits (s.chip.emAt sl i).result 63 60 ≠ 0xE →
    Does (.lookup sl id []) s fun t =>
      t.chip.emAt sl i = { s.chip.emAt sl i with state := putBits (s.chip.emAt sl i).state 2 2 1 } ∧ t.chip.emSeq sl i = s.chip.emSeq sl i ∧
      t.chip.frames.look id = some
        { f with stage := .lookups, hits := f.hits.set (1 + b) (some (BitVec.ofNat 64 (s.chip.emAt sl i).result)) } ∧
      OnlyParts s t ([s.chip.sliceCnt sl + C.em_probes, s.chip.sliceCnt sl + C.em_hits] ++ (errRegs (U.sliceBlk sl 0x48) ++ errRegs
        (U.sliceBlk sl 0x49))) [.frames, .em, .mem, .ledger]) ∧
  -- 6: lookup
  (∀ (s : State) (sl id b i : Nat) (f : Frame),
    s.runs .core = true →
    s.chip.portersRun sl = true ∧ s.chip.flowTurn id [.pipes] = true ∧ s.chip.lookupUp sl id = true →
    s.chip.frames.look id = some f ∧ f.slice = sl ∧ f.stage = .pipes →
    b < 3 ∧ Wb.keyValid f.wb = 2 ^ b →
    s.chip.emProbePoison sl false (f.emKey b) = some i →
    Does (.lookup sl id []) s fun t =>
      t.chip.frames.look id = none ∧ t.chip.reg (s.chip.sliceCnt sl + C.em_poison_drop) =
        s.chip.reg (s.chip.sliceCnt sl + C.em_poison_drop) + 1 ∧
      t.chip.get (A.slice (s.chip.emHome sl)) R.EM_EVENT_poison = 1 ∧
      OnlyParts s t ([s.chip.sliceCnt sl + C.em_probes, s.chip.sliceCnt sl + C.em_poison_drop,
        A.slice (s.chip.emHome sl) + R.EM_EVENT] ++ (f.slot.toList.map Chip.inflightReg) ++ (errRegs (U.sliceBlk sl 0x48) ++ errRegs
        (U.sliceBlk sl 0x49))) [.frames, .ports, .mem, .ledger]) ∧
  -- 7: lookup
  (∀ (s : State) (sl id v n : Nat) (l d : List Nat) (p : Bool) (f : Frame),
    s.runs .core = true →
    s.chip.portersRun sl = true ∧ s.chip.flowTurn id [.pipes] = true ∧ s.chip.lookupUp sl id = true →
    s.chip.frames.look id = some f ∧ f.slice = sl ∧ f.stage = .pipes →
    Wb.keyValid f.wb = 8 ∧ s.chip.lpmBlocked sl f (s.chip.frameAccord f) = false →
    tcamBest (s.chip.tcamFound sl f 2 (s.chip.frameAccord f) []) = none →
    f.lpmHeld = false ∧ f.searches = [] →
    s.chip.lpmPlan (sl / 4) f = some (p, l) →
    s.chip.lpmWalk (sl / 4) (Chip.lpmV6 f) (Chip.lpmCtx f) (Chip.lpmAddr f) (s.chip.frameAccord f) (s.chip.lpmBudget (sl / 4)) l = (.hit v,
      n, d) →
    Does (.lookup sl id []) s fun t =>
      t.chip.frames.look id = some { f with stage := .lookups, hits := f.hits.set 4 (some (BitVec.ofNat 64 v)) } ∧
      t.chip.reg (s.chip.halfCnt (sl / 4) + C.lpm_lookups) = s.chip.reg (s.chip.halfCnt (sl / 4) + C.lpm_lookups) + 1 ∧
      t.chip.reg (s.chip.halfCnt (sl / 4) + C.lpm_probes) = s.chip.reg (s.chip.halfCnt (sl / 4) + C.lpm_probes) + BitVec.ofNat 64 n ∧
        t.chip.reg (s.chip.halfCnt (sl / 4) + C.lpm_hits) = s.chip.reg (s.chip.halfCnt (sl / 4) + C.lpm_hits) + 1 ∧
      OnlyParts s t ([s.chip.halfCnt (sl / 4) + C.lpm_lookups, s.chip.halfCnt (sl / 4) + C.lpm_probes,
        s.chip.sliceCnt sl + C.tcam_search_short] ++ [s.chip.halfCnt (sl / 4) + C.lpm_hits, s.chip.halfCnt (sl / 4) + C.lpm_filter_poison,
        A.half (s.chip.lpmHome (sl / 4)) + R.LPM_EVENT] ++ (((List.range 4).flatMap fun k => errRegs (U.sliceBlk (4 * (sl / 4) + k) 0x48))
        ++ errRegs (U.halfBlk (sl / 4) 0x10))) [.frames, .mem, .ledger]) ∧
  -- 8: lookup
  (∀ (s : State) (sl id n : Nat) (l d : List Nat) (p : Bool) (f : Frame),
    s.runs .core = true →
    s.chip.portersRun sl = true ∧ s.chip.flowTurn id [.pipes] = true ∧ s.chip.lookupUp sl id = true →
    s.chip.frames.look id = some f ∧ f.slice = sl ∧ f.stage = .pipes →
    Wb.keyValid f.wb = 8 ∧ s.chip.lpmBlocked sl f (s.chip.frameAccord f) = false →
    tcamBest (s.chip.tcamFound sl f 2 (s.chip.frameAccord f) []) = none →
    f.lpmHeld = false ∧ f.searches = [] ∧ f.hits = [] →
    s.chip.lpmPlan (sl / 4) f = some (p, l) →
    s.chip.lpmWalk (sl / 4) (Chip.lpmV6 f) (Chip.lpmCtx f) (Chip.lpmAddr f) (s.chip.frameAccord f) (s.chip.lpmBudget (sl / 4)) l = (.miss,
      n, d) →
    Does (.lookup sl id []) s fun t =>
      t.chip.frames.look id = some { f with stage := .lookups } ∧
      t.chip.reg (s.chip.halfCnt (sl / 4) + C.lpm_lookups) = s.chip.reg (s.chip.halfCnt (sl / 4) + C.lpm_lookups) + 1 ∧
      t.chip.reg (s.chip.halfCnt (sl / 4) + C.lpm_probes) = s.chip.reg (s.chip.halfCnt (sl / 4) + C.lpm_probes) + BitVec.ofNat 64 n ∧
        t.chip.reg (s.chip.halfCnt (sl / 4) + C.lpm_misses) = s.chip.reg (s.chip.halfCnt (sl / 4) + C.lpm_misses) + 1 ∧
      OnlyParts s t ([s.chip.halfCnt (sl / 4) + C.lpm_lookups, s.chip.halfCnt (sl / 4) + C.lpm_probes,
        s.chip.sliceCnt sl + C.tcam_search_short] ++ [s.chip.halfCnt (sl / 4) + C.lpm_misses, s.chip.halfCnt (sl / 4) + C.lpm_filter_poison,
        A.half (s.chip.lpmHome (sl / 4)) + R.LPM_EVENT] ++ (((List.range 4).flatMap fun k => errRegs (U.sliceBlk (4 * (sl / 4) + k) 0x48))
        ++ errRegs (U.halfBlk (sl / 4) 0x10))) [.frames, .mem, .ledger]) ∧
  -- 9: lookup
  (∀ (s : State) (sl id n : Nat) (l m d : List Nat) (p : Bool) (f : Frame),
    s.runs .core = true →
    s.chip.portersRun sl = true ∧ s.chip.flowTurn id [.pipes] = true ∧ s.chip.lookupUp sl id = true →
    s.chip.frames.look id = some f ∧ f.slice = sl ∧ f.stage = .pipes →
    Wb.keyValid f.wb = 8 ∧ s.chip.lpmBlocked sl f (s.chip.frameAccord f) = false →
    tcamBest (s.chip.tcamFound sl f 2 (s.chip.frameAccord f) []) = none →
    f.searches = [] →
    s.chip.lpmPlan (sl / 4) f = some (p, l) →
    s.chip.lpmWalk (sl / 4) (Chip.lpmV6 f) (Chip.lpmCtx f) (Chip.lpmAddr f) (s.chip.frameAccord f) (s.chip.lpmBudget (sl / 4)) l = (.more m,
      n, d) →
    Does (.lookup sl id []) s fun t =>
      t.chip.frames.look id = some { f with stage := .lookups, lpmHeld := true } ∧
      (t.chip.lpmTab (sl / 4)).held = (s.chip.lpmTab (sl / 4)).held ++ [{ slice := sl, frame := id, lengths := m }] ∧
      t.chip.reg (s.chip.halfCnt (sl / 4) + C.lpm_held) = s.chip.reg (s.chip.halfCnt (sl / 4) + C.lpm_held) + 1 ∧
      t.chip.reg (s.chip.halfCnt (sl / 4) + C.lpm_probes) = s.chip.reg (s.chip.halfCnt (sl / 4) + C.lpm_probes) + BitVec.ofNat 64 n ∧
      OnlyParts s t ([s.chip.halfCnt (sl / 4) + C.lpm_lookups, s.chip.halfCnt (sl / 4) + C.lpm_probes,
        s.chip.sliceCnt sl + C.tcam_search_short] ++ [s.chip.halfCnt (sl / 4) + C.lpm_held, s.chip.halfCnt (sl / 4) + C.lpm_filter_poison,
        A.half (s.chip.lpmHome (sl / 4)) + R.LPM_EVENT, A.half (s.chip.lpmHome (sl / 4)) + R.LPM_BUDGET] ++ (((List.range 4).flatMap fun k
        => errRegs (U.sliceBlk (4 * (sl / 4) + k) 0x48)) ++ errRegs (U.halfBlk (sl / 4) 0x10))) [.frames, .lpm, .mem, .ledger]) ∧
  -- 10: lookup
  (∀ (s : State) (sl id i n : Nat) (l d : List Nat) (p : Bool) (f : Frame),
    s.runs .core = true →
    s.chip.portersRun sl = true ∧ s.chip.flowTurn id [.pipes] = true ∧ s.chip.lookupUp sl id = true →
    s.chip.frames.look id = some f ∧ f.slice = sl ∧ f.stage = .pipes →
    Wb.keyValid f.wb = 8 ∧ s.chip.lpmBlocked sl f (s.chip.frameAccord f) = false →
    s.chip.lpmPlan (sl / 4) f = some (p, l) →
    s.chip.lpmWalk (sl / 4) (Chip.lpmV6 f) (Chip.lpmCtx f) (Chip.lpmAddr f) (s.chip.frameAccord f) (s.chip.lpmBudget (sl / 4)) l =
      (.poison i, n, d) →
    Does (.lookup sl id []) s fun t =>
      t.chip.frames.look id = none ∧ t.chip.reg (s.chip.halfCnt (sl / 4) + C.lpm_poison_drop) =
        s.chip.reg (s.chip.halfCnt (sl / 4) + C.lpm_poison_drop) + 1 ∧
      t.chip.get (A.half (s.chip.lpmHome (sl / 4))) R.LPM_EVENT_poison = 1 ∧
      OnlyParts s t ([s.chip.halfCnt (sl / 4) + C.lpm_lookups, s.chip.halfCnt (sl / 4) + C.lpm_probes,
        s.chip.halfCnt (sl / 4) + C.lpm_poison_drop, s.chip.halfCnt (sl / 4) + C.lpm_filter_poison,
        A.half (s.chip.lpmHome (sl / 4)) + R.LPM_EVENT] ++ (f.slot.toList.map Chip.inflightReg) ++ (((List.range 4).flatMap fun k => errRegs
        (U.sliceBlk (4 * (sl / 4) + k) 0x48)) ++ errRegs (U.halfBlk (sl / 4) 0x10))) [.frames, .ports, .mem, .ledger]) ∧
  -- 11: lookup
  (∀ (s : State) (sl id : Nat) (f : Frame),
    s.runs .core = true →
    s.chip.portersRun sl = true ∧ s.chip.flowTurn id [.pipes] = true ∧ s.chip.lookupUp sl id = true →
    s.chip.frames.look id = some f ∧ f.slice = sl ∧ f.stage = .pipes →
    s.chip.lpmBlocked sl f (s.chip.frameAccord f) = true →
    Does (.lookup sl id []) s fun t =>
      t.chip.reg (s.chip.halfCnt (sl / 4) + C.lpm_hold_full) = s.chip.reg (s.chip.halfCnt (sl / 4) + C.lpm_hold_full) + 1 ∧
      t.chip.get (A.half (s.chip.lpmHome (sl / 4))) R.LPM_EVENT_hold_full = 1 ∧
      OnlyParts s t [s.chip.halfCnt (sl / 4) + C.lpm_hold_full, A.half (s.chip.lpmHome (sl / 4)) + R.LPM_EVENT] []) ∧
  -- 12: lookup
  (∀ (s : State) (sl id : Nat) (l : List (Nat × Key)),
    s.runs .core = true →
    s.chip.portersRun sl = false ∨ s.chip.frameAt sl id .pipes = false ∨ s.chip.flowTurn id [.pipes] = false ∨
      s.chip.lookupUp sl id = false →
    Does (.lookup sl id l) s fun t => OnlyRegs s t []) ∧
  -- 13: lpmHeldProbe
  (∀ (s : State) (h v n : Nat) (x : HeldLookup) (l : List HeldLookup) (d : List Nat) (f : Frame),
    s.runs .core = true →
    h < 2 ∧ s.chip.alive (U.half h) = true ∧ s.chip.inReset (U.halfBlk h 0x10) = false →
    (s.chip.lpmTab h).held = x :: l ∧ x.slice / 4 = h →
    s.chip.frames.look x.frame = some f ∧ f.searches = [] →
    s.chip.lpmWalk h (Chip.lpmV6 f) (Chip.lpmCtx f) (Chip.lpmAddr f) (s.chip.frameAccord f) 1 x.lengths = (.hit v, n, d) →
    Does (.lpmHeldProbe h) s fun t =>
      t.chip.frames.look x.frame = some { f with lpmHeld := false, hits := f.hits.set 4 (some (BitVec.ofNat 64 v)) } ∧
      (t.chip.lpmTab h).held = l ∧ t.chip.reg (s.chip.halfCnt h + C.lpm_probes) =
        s.chip.reg (s.chip.halfCnt h + C.lpm_probes) + BitVec.ofNat 64 n ∧
      t.chip.reg (s.chip.halfCnt h + C.lpm_hits) = s.chip.reg (s.chip.halfCnt h + C.lpm_hits) + 1 ∧
      OnlyParts s t ([s.chip.halfCnt h + C.lpm_probes, s.chip.halfCnt h + C.lpm_hits,
        A.half (s.chip.lpmHome h) + R.LPM_BUDGET] ++ (((List.range 4).flatMap fun k => errRegs (U.sliceBlk (4 * h + k) 0x48)) ++ errRegs
        (U.halfBlk h 0x10))) [.frames, .lpm, .mem, .ledger]) ∧
  -- 14: lpmHeldProbe
  (∀ (s : State) (h n : Nat) (x : HeldLookup) (l : List HeldLookup) (m d : List Nat),
    s.runs .core = true →
    h < 2 ∧ s.chip.alive (U.half h) = true ∧ s.chip.inReset (U.halfBlk h 0x10) = false →
    (s.chip.lpmTab h).held = x :: l →
    s.chip.lpmWalk h (Chip.lpmV6 (s.chip.fr x.frame)) (Chip.lpmCtx (s.chip.fr x.frame)) (Chip.lpmAddr (s.chip.fr x.frame))
      (s.chip.frameAccord (s.chip.fr x.frame)) 1 x.lengths = (.more m, n, d) →
    Does (.lpmHeldProbe h) s fun t =>
      (t.chip.lpmTab h).held = { x with lengths := m } :: l ∧
      t.chip.reg (s.chip.halfCnt h + C.lpm_probes) = s.chip.reg (s.chip.halfCnt h + C.lpm_probes) + BitVec.ofNat 64 n ∧
      OnlyParts s t ([s.chip.halfCnt h + C.lpm_probes] ++ (((List.range 4).flatMap fun k => errRegs (U.sliceBlk (4 * h + k) 0x48)) ++
        errRegs (U.halfBlk h 0x10))) [.lpm, .mem, .ledger]) ∧
  -- 15: tcamRepeatSearch
  (∀ (s : State) (sl id : Nat) (f : Frame) (x : TcamSearch),
    s.runs .core = true →
    s.chip.frames.look id = some f ∧ f.slice = sl ∧ f.stage = .lookups →
    s.chip.portersRun sl = true ∧ s.chip.tcamUp sl x.use = true →
    f.searches = [x] ∧ x.use = 0 →
    tcamBest (s.chip.tcamFound sl f 0 (s.chip.frameAccord f) x.excluded) = none →
    Does (.tcamRepeatSearch sl id) s fun t =>
      t.chip.frames.look id = some { f with searches := [] } ∧
        t.chip.reg (s.chip.sliceCnt sl + C.tcam_search_a) = s.chip.reg (s.chip.sliceCnt sl + C.tcam_search_a) + 1 ∧
      OnlyParts s t [s.chip.sliceCnt sl + C.tcam_search_a] [.frames]) ∧
  -- 16: tcamRepeatSearch
  (∀ (s : State) (sl id i : Nat) (f : Frame) (x : TcamSearch) (e : TcamEntry),
    s.runs .core = true →
    s.chip.frames.look id = some f ∧ f.slice = sl ∧ f.stage = .lookups →
    s.chip.portersRun sl = true ∧ s.chip.tcamUp sl 1 = true →
    f.searches = [x] ∧ x.use = 1 →
    tcamBest (s.chip.tcamFound sl f 1 (s.chip.frameAccord f) x.excluded) = some (i, e) ∧ e.pair = 0 →
    s.chip.tcamCopyPoisoned sl i = false →
    s.chip.tcamAgrees sl f 1 i = true →
    Does (.tcamRepeatSearch sl id) s fun t =>
      t.chip.frames.look id = some { f with searches := [], hits := f.hits.set 6 (some ((s.chip.tcamTab sl).copies.look i).result) } ∧
      t.chip.reg (s.chip.sliceCnt sl + C.tcam_search_b) = s.chip.reg (s.chip.sliceCnt sl + C.tcam_search_b) + 1 ∧
        t.chip.reg (s.chip.sliceCnt sl + C.tcam_hit_b) = s.chip.reg (s.chip.sliceCnt sl + C.tcam_hit_b) + 1 ∧
      OnlyParts s t ([s.chip.sliceCnt sl + C.tcam_search_b, s.chip.sliceCnt sl + C.tcam_hit_b] ++ errRegs (U.sliceBlk sl (0x50 + i / 5120)))
        [.frames, .mem, .ledger]) ∧
  -- 17: tcamRepeatSearch
  (∀ (s : State) (sl id i : Nat) (f : Frame) (x : TcamSearch) (e : TcamEntry),
    s.runs .core = true →
    s.chip.frames.look id = some f ∧ f.slice = sl ∧ f.stage = .lookups →
    s.chip.portersRun sl = true ∧ s.chip.tcamUp sl 1 = true →
    f.searches = [x] ∧ x.use = 1 →
    tcamBest (s.chip.tcamFound sl f 1 (s.chip.frameAccord f) x.excluded) = some (i, e) ∧ e.pair = 0 →
    s.chip.tcamCopyPoisoned sl i = true →
    Does (.tcamRepeatSearch sl id) s fun t =>
      t.chip.frames.look id = some f ∧ (t.chip.tcamTab sl).excluded = i :: (s.chip.tcamTab sl).excluded ∧
      t.chip.reg (s.chip.sliceCnt sl + C.tcam_poison) = s.chip.reg (s.chip.sliceCnt sl + C.tcam_poison) + 1 ∧
        t.chip.get (A.slice (s.chip.emHome sl)) R.TCAM_EVENT_poison = 1 ∧
      OnlyParts s t ([s.chip.sliceCnt sl + C.tcam_search_b, s.chip.sliceCnt sl + C.tcam_poison,
        A.slice (s.chip.emHome sl) + R.TCAM_EVENT] ++ errRegs (U.sliceBlk sl (0x50 + i / 5120))) [.frames, .tcam, .mem, .ledger]) ∧
  -- 18: tcamRepeatSearch
  (∀ (s : State) (sl id i : Nat) (f : Frame) (x : TcamSearch) (e : TcamEntry),
    s.runs .core = true →
    s.chip.frames.look id = some f ∧ f.slice = sl ∧ f.stage = .lookups →
    s.chip.portersRun sl = true ∧ s.chip.tcamUp sl 1 = true →
    f.searches = [x] ∧ x.use = 1 →
    tcamBest (s.chip.tcamFound sl f 1 (s.chip.frameAccord f) x.excluded) = some (i, e) ∧ e.pair = 0 →
    s.chip.tcamCopyPoisoned sl i = false →
    s.chip.tcamAgrees sl f 1 i = false →
    x.falseHits < 3 →
    Does (.tcamRepeatSearch sl id) s fun t =>
      t.chip.frames.look id = some { f with searches := [{ x with excluded := i :: x.excluded, falseHits := x.falseHits + 1 }] } ∧
      (t.chip.tcamTab sl).repairs = (s.chip.tcamTab sl).repairs ++ (if (s.chip.tcamTab sl).repairs.contains i then [] else [i]) ∧
      t.chip.reg (s.chip.sliceCnt sl + C.tcam_false_hit) = s.chip.reg (s.chip.sliceCnt sl + C.tcam_false_hit) + 1 ∧
        t.chip.get (A.slice (s.chip.emHome sl)) R.TCAM_EVENT_false_hit = 1 ∧
      OnlyParts s t ([s.chip.sliceCnt sl + C.tcam_search_b, s.chip.sliceCnt sl + C.tcam_false_hit,
        A.slice (s.chip.emHome sl) + R.TCAM_EVENT] ++ errRegs (U.sliceBlk sl (0x50 + i / 5120))) [.frames, .tcam, .mem, .ledger]) ∧
  -- 19: tcamRepeatSearch
  (∀ (s : State) (sl id i : Nat) (f : Frame) (x : TcamSearch) (e : TcamEntry),
    s.runs .core = true →
    s.chip.frames.look id = some f ∧ f.slice = sl ∧ f.stage = .lookups →
    s.chip.portersRun sl = true ∧ s.chip.tcamUp sl 1 = true →
    f.searches = [x] ∧ x.use = 1 →
    tcamBest (s.chip.tcamFound sl f 1 (s.chip.frameAccord f) x.excluded) = some (i, e) ∧ e.pair = 0 →
    s.chip.tcamCopyPoisoned sl i = false →
    s.chip.tcamAgrees sl f 1 i = false →
    3 ≤ x.falseHits →
    Does (.tcamRepeatSearch sl id) s fun t =>
      t.chip.frames.look id = none ∧ t.chip.reg (s.chip.sliceCnt sl + C.tcam_verify_drop) =
        s.chip.reg (s.chip.sliceCnt sl + C.tcam_verify_drop) + 1 ∧
      t.chip.get (A.slice (s.chip.emHome sl)) R.TCAM_EVENT_verify_drop = 1 ∧
      OnlyParts s t ([s.chip.sliceCnt sl + C.tcam_search_b, s.chip.sliceCnt sl + C.tcam_false_hit, s.chip.sliceCnt sl + C.tcam_verify_drop,
        A.slice (s.chip.emHome sl) + R.TCAM_EVENT] ++ (f.slot.toList.map Chip.inflightReg) ++ errRegs (U.sliceBlk sl (0x50 + i / 5120)))
        [.frames, .ports, .lpm, .tcam, .mem, .ledger]) ∧
  -- 20: tcamRowRewrite
  (∀ (s : State) (sl i : Nat) (l : List Nat),
    s.runs .core = true →
    s.chip.alive (U.slice sl) = true →
    (s.chip.tcamTab sl).repairs = i :: l →
    Does (.tcamRowRewrite sl) s fun t =>
      (t.chip.tcamTab sl).rows.look i = (s.chip.tcamTab sl).copies.look i ∧ (t.chip.tcamTab sl).repairs = l ∧
      t.chip.reg (s.chip.sliceCnt sl + C.tcam_row_repair) = s.chip.reg (s.chip.sliceCnt sl + C.tcam_row_repair) + 1 ∧
        OnlyParts s t [s.chip.sliceCnt sl + C.tcam_row_repair] [.tcam])

/-- ACTION_RESOLUTION of a frame whose first forwarding source names an egress port, with no other result, writes the unicast verdict with
the profile's class, opens a stream to the port's slice and counts it. A parse failure whose default action punts queues the punt; one
whose default action drops counts the default action, ends the frame and takes it from its accord. A frame with lookups still out, one
behind an older frame of its flow, or one whose resolver or policers are in reset waits. Readers of correctable words count and log them.
Nothing else changes. -/
def Obligations.ResolverGivesTheVerdict : Prop :=
  -- 1: actionResolution
  (∀ (s : State) (sl id p sub k : Nat) (f : Frame) (r : Result) (off : Bool),
    s.runs .core = true →
    s.chip.portersRun sl = true ∧ s.chip.flowTurn id [.pipes, .lookups] = true ∧ s.chip.blockUp sl 0x58 = true ∧
      s.chip.blockUp sl 0x68 = true →
    s.chip.frames.look id = some f ∧ f.slice = sl ∧ f.stage = .lookups →
    f.lpmHeld = false ∧ f.searches = [] →
    f.slot = some 0 ∧ f.extSub = none ∧ f.ecid = 0 →
    Wb.failReason f.wb = 0 →
    s.chip.extJudge f = (0, none, 0) →
    s.chip.sourceHit f (s.chip.get (s.chip.profile f) R.RES_PROFILE_acl) = none →
    s.chip.sourceHit f (s.chip.get (s.chip.profile f) R.RES_PROFILE_qos) = none →
    s.chip.forwardOf f (s.chip.get (s.chip.profile f) R.RES_PROFILE_fwd_first) = some (some r, 0, .unicast p sub k none off) →
    r.meter = none ∧ r.cls = none ∧ Chip.mirrorOf [some r] = none →
    Does (.actionResolution sl id) s fun t =>
      (t.chip.fr id).wb = Chip.verdictWords f.wb (.unicast p sub k none off) 0 (s.chip.get (s.chip.profile f) R.RES_PROFILE_default_class)
        (s.chip.ctAllowed f (.unicast p sub k none off)) none ∧
      (t.chip.fr id).stage = .judged ∧ (t.chip.fr id).holders = 1 ∧ t.chip.nextId = s.chip.nextId + 1 ∧
      (t.chip.strm s.chip.nextId)
        = { frame := id, slice := sl, wb := (t.chip.fr id).wb, mask := 2 ^ (p / 16), plane := s.chip.pinPlane (Wb.hash (t.chip.fr id).wb % 256), left := 2 ^ (p / 16), openAt := 2 ^ (p / 16) }
        ∧
      t.chip.reg (s.chip.sliceCnt sl + C.verdicts) = s.chip.reg (s.chip.sliceCnt sl + C.verdicts) + 1 ∧
        t.chip.reg (s.chip.sliceCnt sl + C.unicast) = s.chip.reg (s.chip.sliceCnt sl + C.unicast) + 1 ∧
      OnlyParts s t ([s.chip.sliceCnt sl + C.verdicts, s.chip.sliceCnt sl + C.unicast,
        Chip.inflightReg 0] ++ (errRegs (U.sliceBlk sl 0x58) ++ errRegs (U.sliceBlk sl 0x60) ++ errRegs (U.sliceBlk sl 0x68))) [.frames,
        .streams, .nextId, .mem, .ledger]) ∧
  -- 2: actionResolution
  (∀ (s : State) (sl id r : Nat) (f : Frame),
    s.runs .core = true →
    s.chip.portersRun sl = true ∧ s.chip.flowTurn id [.pipes, .lookups] = true ∧ s.chip.blockUp sl 0x58 = true ∧
      s.chip.blockUp sl 0x68 = true →
    s.chip.frames.look id = some f ∧ f.slice = sl ∧ f.stage = .lookups →
    f.lpmHeld = false ∧ f.searches = [] →
    f.slot = some 0 →
    Wb.failReason f.wb = r ∧ 1 ≤ r ∧ r ≤ 5 →
    bits f.dflt 31 30 = 1 →
    s.chip.puntBacklog sl + f.bytes.length ≤ 65536 →
    Does (.actionResolution sl id) s fun t =>
      Wb.action (t.chip.fr id).wb = 3 ∧ Wb.ring (t.chip.fr id).wb = bits f.dflt 11 0 ∧ (t.chip.fr id).stage = .judged ∧
      t.chip.host.punts.look sl = s.chip.host.punts.look sl ++ [{ frame := id, ring := bits f.dflt 11 0, source := 1, reason := r }] ∧
      t.chip.reg (s.chip.portCnt f.home + C.default_action + 8 * r) = s.chip.reg (s.chip.portCnt f.home + C.default_action + 8 * r) + 1 ∧
      t.chip.reg (s.chip.sliceCnt sl + C.punts) = s.chip.reg (s.chip.sliceCnt sl + C.punts) + 1 ∧
      OnlyParts s t [(s.chip.portCnt f.home + C.default_action + 8 * r), s.chip.sliceCnt sl + C.verdicts, s.chip.sliceCnt sl + C.punts,
        Chip.inflightReg 0] [.frames, .host]) ∧
  -- 3: actionResolution
  (∀ (s : State) (sl id r : Nat) (f : Frame),
    s.runs .core = true →
    s.chip.portersRun sl = true ∧ s.chip.flowTurn id [.pipes, .lookups] = true ∧ s.chip.blockUp sl 0x58 = true ∧
      s.chip.blockUp sl 0x68 = true →
    s.chip.frames.look id = some f ∧ f.slice = sl ∧ f.stage = .lookups →
    f.lpmHeld = false ∧ f.searches = [] →
    f.slot = some 0 ∧ 0 < s.chip.inflight 0 →
    Wb.failReason f.wb = r ∧ 1 ≤ r ∧ r ≤ 5 →
    bits f.dflt 31 30 = 0 →
    Does (.actionResolution sl id) s fun t =>
      t.chip.frames.look id = none ∧ t.chip.inflight 0 = s.chip.inflight 0 - 1 ∧
      t.chip.reg (s.chip.portCnt f.home + C.default_action + 8 * r) = s.chip.reg (s.chip.portCnt f.home + C.default_action + 8 * r) + 1 ∧
      t.chip.reg (s.chip.sliceCnt sl + C.verdicts) = s.chip.reg (s.chip.sliceCnt sl + C.verdicts) + 1 ∧
      OnlyParts s t [(s.chip.portCnt f.home + C.default_action + 8 * r), s.chip.sliceCnt sl + C.verdicts, Chip.inflightReg 0] [.frames,
        .ports, .lpm]) ∧
  -- 4: actionResolution
  (∀ (s : State) (sl id : Nat),
    s.runs .core = true →
    s.chip.portersRun sl = false ∨ s.chip.frameAt sl id .lookups = false ∨ (s.chip.fr id).lpmHeld = true ∨ (s.chip.fr id).searches ≠ [] ∨
      s.chip.flowTurn id [.pipes, .lookups] = false ∨ s.chip.blockUp sl 0x58 = false ∨ s.chip.blockUp sl 0x68 = false →
    Does (.actionResolution sl id) s fun t => OnlyRegs s t [])

/-- LPM_READ gives a slot, or an IPv6 entry, with its line's sequence number and whether it is poisoned, and meets the errors of its words.
LPM_SEARCH and LPM_SEARCH_PENDING give the first match under the newest or the pending accord; without one, or of a length that is not
enabled, 0x01; without an open accord the pending one gives 0x04. An accepted LPM_INSERT writes an IPv4 slot, or an IPv6 pair of slots,
in every member's copy, steps the line's sequence number and logs what stood there; it gives 0x02 where the key holds already, 0x03
without a free place, 0x05 where R159 refuses it, 0x06 for an entry that is not allowed. An accepted LPM_WRITE_IF_SEQ rewrites the entry;
a changed sequence number gives 0x04, a refusal 0x05, another slot or form 0x06. FILTER_READ gives an entry; FILTER_WRITE writes one,
SET_RANGE and CLEAR_RANGE change one bit of each entry of a range, in every member's copy; each gives 0x06 for operands out of range. The
result stands when the window completes. Nothing else changes. -/
def Obligations.LpmWindowOperations : Prop :=
  -- 1: lpmRead
  (∀ (s : State) (src : Source) (h : Nat),
    h < 2 ∧ s.mayGo src (lpmWin h) = true →
    s.chip.lpmIndexOk h ((s.chip.winIn src (lpmWin h)).index) = true →
    Does (.lpmRead src h) s fun t => WinDone t (lpmWin h) 1 (s.chip.lpmReturn h ((s.chip.winIn src (lpmWin h)).index)) ∧
      OnlyParts s t ([lpmWin h + 4, lpmWin h + 8] ++ errRegs (s.chip.lpmWord h ((s.chip.winIn src (lpmWin h)).index)).1) ([.wins,
      .house] ++ [.mem, .ledger])) ∧
  -- 2: lpmRead
  (∀ (s : State) (src : Source) (h : Nat),
    h < 2 ∧ s.mayGo src (lpmWin h) = true →
    s.chip.lpmIndexOk h ((s.chip.winIn src (lpmWin h)).index) = false →
    Does (.lpmRead src h) s fun t => WinDone t (lpmWin h) 1 { code := 6 } ∧ OnlyParts s t [lpmWin h + 4, lpmWin h + 8] [.wins, .house]) ∧
  -- 3: lpmSearch
  (∀ (s : State) (src : Source) (h i : Nat),
    h < 2 ∧ s.mayGo src (lpmWin h) = true →
    lenOk (s.chip.winIn src (lpmWin h)).lpmEntry.v6 (s.chip.winIn src (lpmWin h)).lpmEntry.length = true ∧
      s.chip.lenEnabled h (s.chip.winIn src (lpmWin h)).lpmEntry.v6 (s.chip.winIn src (lpmWin h)).lpmEntry.length = true →
    (s.chip.lpmMatches h (s.chip.winIn src (lpmWin h)).lpmEntry.v6 (s.chip.winIn src (lpmWin h)).lpmEntry.length (s.chip.winIn src (lpmWin
      h)).lpmEntry.ctx (s.chip.winIn src (lpmWin h)).lpmEntry.prefix_ s.chip.newest).head? = some i →
    Does (.lpmSearch src h) s fun t => WinDone t (lpmWin h) 2 { s.chip.lpmReturn h i with index := some i } ∧
      OnlyParts s t [lpmWin h + 4, lpmWin h + 8] [.wins, .house]) ∧
  -- 4: lpmSearch
  (∀ (s : State) (src : Source) (h : Nat),
    h < 2 ∧ s.mayGo src (lpmWin h) = true →
    lenOk (s.chip.winIn src (lpmWin h)).lpmEntry.v6 (s.chip.winIn src (lpmWin h)).lpmEntry.length = false ∨
      s.chip.lenEnabled h (s.chip.winIn src (lpmWin h)).lpmEntry.v6 (s.chip.winIn src (lpmWin h)).lpmEntry.length = false ∨
      s.chip.lpmMatches h (s.chip.winIn src (lpmWin h)).lpmEntry.v6 (s.chip.winIn src (lpmWin h)).lpmEntry.length (s.chip.winIn src (lpmWin
      h)).lpmEntry.ctx (s.chip.winIn src (lpmWin h)).lpmEntry.prefix_ s.chip.newest = [] →
    Does (.lpmSearch src h) s fun t => WinDone t (lpmWin h) 2 { code := 1 } ∧ OnlyParts s t [lpmWin h + 4, lpmWin h + 8] [.wins, .house]) ∧
  -- 5: lpmSearchPending
  (∀ (s : State) (src : Source) (h i : Nat),
    h < 2 ∧ s.mayGo src (lpmWin h) = true →
    s.chip.get 0 R.ACCORD_STATUS_state ≠ 0 →
    lenOk (s.chip.winIn src (lpmWin h)).lpmEntry.v6 (s.chip.winIn src (lpmWin h)).lpmEntry.length = true ∧
      s.chip.lenEnabled h (s.chip.winIn src (lpmWin h)).lpmEntry.v6 (s.chip.winIn src (lpmWin h)).lpmEntry.length = true →
    (s.chip.lpmMatches h (s.chip.winIn src (lpmWin h)).lpmEntry.v6 (s.chip.winIn src (lpmWin h)).lpmEntry.length (s.chip.winIn src (lpmWin
      h)).lpmEntry.ctx (s.chip.winIn src (lpmWin h)).lpmEntry.prefix_ s.chip.pendingAccord).head? = some i →
    Does (.lpmSearchPending src h) s fun t => WinDone t (lpmWin h) 3 { s.chip.lpmReturn h i with index := some i } ∧
      OnlyParts s t [lpmWin h + 4, lpmWin h + 8] [.wins, .house]) ∧
  -- 6: lpmSearchPending
  (∀ (s : State) (src : Source) (h : Nat),
    h < 2 ∧ s.mayGo src (lpmWin h) = true →
    s.chip.get 0 R.ACCORD_STATUS_state = 0 ∨ lenOk (s.chip.winIn src (lpmWin h)).lpmEntry.v6 (s.chip.winIn src (lpmWin h)).lpmEntry.length =
      false ∨ s.chip.lenEnabled h (s.chip.winIn src (lpmWin h)).lpmEntry.v6 (s.chip.winIn src (lpmWin h)).lpmEntry.length = false ∨
      s.chip.lpmMatches h (s.chip.winIn src (lpmWin h)).lpmEntry.v6 (s.chip.winIn src (lpmWin h)).lpmEntry.length (s.chip.winIn src (lpmWin
      h)).lpmEntry.ctx (s.chip.winIn src (lpmWin h)).lpmEntry.prefix_ s.chip.pendingAccord = [] →
    Does (.lpmSearchPending src h) s fun t => WinDone t (lpmWin h) 3 { code := if s.chip.get 0 R.ACCORD_STATUS_state = 0 then 4 else 1 } ∧
      OnlyParts s t [lpmWin h + 4, lpmWin h + 8] [.wins, .house]) ∧
  -- 7: lpmInsert
  (∀ (s : State) (src : Source) (h i : Nat) (lg : Bool),
    h < 2 ∧ s.mayGo src (lpmWin h) = true →
    (s.chip.halfMates h).Nodup ∧ h ∈ s.chip.halfMates h →
    (s.chip.winIn src (lpmWin h)).lpmEntry.ok = true ∧ s.chip.lenEnabled h (s.chip.winIn src (lpmWin h)).lpmEntry.v6 (s.chip.winIn src
      (lpmWin h)).lpmEntry.length = true →
    (s.chip.winIn src (lpmWin h)).lpmEntry.v6 = false ∧ s.chip.judge src ⟨false, 0,
      0⟩ { (s.chip.winIn src (lpmWin h)).lpmEntry.validity with valid := true } false = .accept lg →
    s.chip.lpmMatches h (s.chip.winIn src (lpmWin h)).lpmEntry.v6 (s.chip.winIn src (lpmWin h)).lpmEntry.length (s.chip.winIn src (lpmWin
      h)).lpmEntry.ctx (s.chip.winIn src (lpmWin h)).lpmEntry.prefix_ s.chip.pendingAccord = [] →
    s.chip.lpmSpot h (s.chip.winIn src (lpmWin h)).lpmEntry = some i →
    (s.chip.lpmSlotAt h i).valid = false ∨ (s.chip.lpmSlotAt h i).v6 = false →
    Does (.lpmInsert src h) s fun t =>
      WinDone t (lpmWin h) 4 { code := 0, index := some i } ∧
      (∀ m ∈ s.chip.halfMates h, t.chip.lpmTab m
        = { s.chip.lpmTab m with slots := (s.chip.lpmTab m).slots.set i { (s.chip.winIn src (lpmWin h)).lpmSlots.1 with state := putBits (s.chip.winIn src (lpmWin h)).lpmSlots.1.state 7 7 1 }, seqs := (s.chip.lpmTab m).seqs.set (i / 8) ((s.chip.lpmSeq m i + 1) % 65536) })
        ∧ (∀ m, m ∉ s.chip.halfMates h → t.chip.lpmTab m = s.chip.lpmTab m) ∧
      t.chip.accord.log = { place := .lpm h i, valid := (s.chip.lpmWas h i).valid, vfrom := (s.chip.lpmWas h i).vfrom, vuntil := (s.chip.lpmWas h i).vuntil }
        :: s.chip.accord.log ∧ OnlyParts s t ([lpmWin h + 4, lpmWin h + 8] ++ [R.ACCORD_LOG, R.ACCORD_STATUS] ++ injRegs) ([.wins, .house,
        .lpm, .accord] ++ [.mem, .fresh, .ledger])) ∧
  -- 8: lpmInsert
  (∀ (s : State) (src : Source) (h i : Nat) (lg : Bool),
    h < 2 ∧ s.mayGo src (lpmWin h) = true →
    (s.chip.halfMates h).Nodup ∧ h ∈ s.chip.halfMates h →
    (s.chip.winIn src (lpmWin h)).lpmEntry.ok = true ∧ s.chip.lenEnabled h (s.chip.winIn src (lpmWin h)).lpmEntry.v6 (s.chip.winIn src
      (lpmWin h)).lpmEntry.length = true →
    (s.chip.winIn src (lpmWin h)).lpmEntry.v6 = true ∧ s.chip.judge src ⟨false, 0,
      0⟩ { (s.chip.winIn src (lpmWin h)).lpmEntry.validity with valid := true } false = .accept lg →
    s.chip.lpmMatches h (s.chip.winIn src (lpmWin h)).lpmEntry.v6 (s.chip.winIn src (lpmWin h)).lpmEntry.length (s.chip.winIn src (lpmWin
      h)).lpmEntry.ctx (s.chip.winIn src (lpmWin h)).lpmEntry.prefix_ s.chip.pendingAccord = [] →
    s.chip.lpmSpot h (s.chip.winIn src (lpmWin h)).lpmEntry = some i →
    i % 2 = 0 →
    Does (.lpmInsert src h) s fun t =>
      WinDone t (lpmWin h) 4 { code := 0, index := some i } ∧
      (∀ m ∈ s.chip.halfMates h, t.chip.lpmSlotAt m i
        = { (s.chip.winIn src (lpmWin h)).lpmSlots.1 with state := putBits (s.chip.winIn src (lpmWin h)).lpmSlots.1.state 7 7 1 } ∧
        t.chip.lpmSlotAt m (i + 1)
        = { (s.chip.winIn src (lpmWin h)).lpmSlots.2 with state := putBits (s.chip.winIn src (lpmWin h)).lpmSlots.2.state 7 7 1 } ∧
        t.chip.lpmSeq m i = (s.chip.lpmSeq m i + 1) % 65536 ∧ ∀ j, j ≠ i → j ≠ i + 1 → t.chip.lpmSlotAt m j = s.chip.lpmSlotAt m j) ∧
          (∀ m, m ∉ s.chip.halfMates h → t.chip.lpmTab m = s.chip.lpmTab m) ∧
      t.chip.accord.log = { place := .lpm h i, valid := (s.chip.lpmWas h i).valid, vfrom := (s.chip.lpmWas h i).vfrom, vuntil := (s.chip.lpmWas h i).vuntil }
        :: s.chip.accord.log ∧ OnlyParts s t ([lpmWin h + 4, lpmWin h + 8] ++ [R.ACCORD_LOG, R.ACCORD_STATUS] ++ injRegs) ([.wins, .house,
        .lpm, .accord] ++ [.mem, .fresh, .ledger])) ∧
  -- 9: lpmInsert
  (∀ (s : State) (src : Source) (h : Nat),
    h < 2 ∧ s.mayGo src (lpmWin h) = true →
    (s.chip.winIn src (lpmWin h)).lpmEntry.ok = false ∨ s.chip.lenEnabled h (s.chip.winIn src (lpmWin h)).lpmEntry.v6 (s.chip.winIn src
      (lpmWin h)).lpmEntry.length = false →
    Does (.lpmInsert src h) s fun t => WinDone t (lpmWin h) 4 { code := 6 } ∧ OnlyParts s t [lpmWin h + 4, lpmWin h + 8] [.wins, .house]) ∧
  -- 10: lpmInsert
  (∀ (s : State) (src : Source) (h r : Nat),
    h < 2 ∧ s.mayGo src (lpmWin h) = true →
    (s.chip.winIn src (lpmWin h)).lpmEntry.ok = true ∧ s.chip.lenEnabled h (s.chip.winIn src (lpmWin h)).lpmEntry.v6 (s.chip.winIn src
      (lpmWin h)).lpmEntry.length = true →
    s.chip.judge src ⟨false, 0, 0⟩ { (s.chip.winIn src (lpmWin h)).lpmEntry.validity with valid := true } false = .refuse r ∧ r < 8 →
    Does (.lpmInsert src h) s fun t => WinDone t (lpmWin h) 4 { code := 5 } ∧ t.chip.get 0 R.ACCORD_REFUSAL_rule = r ∧
      t.chip.get 0 R.ACCORD_EVENT_refused = 1 ∧ t.chip.reg C.refused_writes = s.chip.reg C.refused_writes + 1 ∧
      OnlyParts s t ([lpmWin h + 4, lpmWin h + 8] ++ [R.ACCORD_REFUSAL, R.ACCORD_REFUSAL_INDEX, R.ACCORD_EVENT, C.refused_writes]) [.wins,
      .house]) ∧
  -- 11: lpmInsert
  (∀ (s : State) (src : Source) (h : Nat) (lg : Bool),
    h < 2 ∧ s.mayGo src (lpmWin h) = true →
    (s.chip.winIn src (lpmWin h)).lpmEntry.ok = true ∧ s.chip.lenEnabled h (s.chip.winIn src (lpmWin h)).lpmEntry.v6 (s.chip.winIn src
      (lpmWin h)).lpmEntry.length = true →
    s.chip.judge src ⟨false, 0, 0⟩ { (s.chip.winIn src (lpmWin h)).lpmEntry.validity with valid := true } false = .accept lg →
    s.chip.lpmMatches h (s.chip.winIn src (lpmWin h)).lpmEntry.v6 (s.chip.winIn src (lpmWin h)).lpmEntry.length (s.chip.winIn src (lpmWin
      h)).lpmEntry.ctx (s.chip.winIn src (lpmWin h)).lpmEntry.prefix_ s.chip.pendingAccord ≠ [] ∨
      s.chip.lpmSpot h (s.chip.winIn src (lpmWin h)).lpmEntry = none →
    Does (.lpmInsert src h) s fun t =>
      WinDone t (lpmWin h) 4
        { code := if s.chip.lpmMatches h (s.chip.winIn src (lpmWin h)).lpmEntry.v6 (s.chip.winIn src (lpmWin h)).lpmEntry.length (s.chip.winIn src (lpmWin h)).lpmEntry.ctx (s.chip.winIn src (lpmWin h)).lpmEntry.prefix_ s.chip.pendingAccord = [] then 3 else 2 }
        ∧ OnlyParts s t [lpmWin h + 4, lpmWin h + 8] [.wins, .house]) ∧
  -- 12: lpmWriteIfSeq
  (∀ (s : State) (src : Source) (h : Nat) (lg : Bool),
    h < 2 ∧ s.mayGo src (lpmWin h) = true →
    (s.chip.halfMates h).Nodup ∧ h ∈ s.chip.halfMates h →
    s.chip.lpmIndexOk h ((s.chip.winIn src (lpmWin h)).index) = true ∧
      (s.chip.winIn src (lpmWin h)).seq = s.chip.lpmSeq h ((s.chip.winIn src (lpmWin h)).index) →
    ((s.chip.lpmSlotAt h ((s.chip.winIn src (lpmWin h)).index)).valid = false ∨
      ((s.chip.lpmSlotAt h ((s.chip.winIn src (lpmWin h)).index)).second = false ∧
      (s.chip.lpmSlotAt h ((s.chip.winIn src (lpmWin h)).index)).v6 = (s.chip.winIn src (lpmWin h)).lpmEntry.v6)) ∧
      ((s.chip.winIn src (lpmWin h)).lpmEntry.v6 = false ∨ ((s.chip.winIn src (lpmWin h)).index) % 2 = 0) ∧
      (s.chip.winIn src (lpmWin h)).lpmEntry.cut = true →
    ((s.chip.winIn src (lpmWin h)).state / 128 % 2 = 0 ∨ ((s.chip.lpmSlotAt h ((s.chip.winIn src (lpmWin h)).index)).valid = true ∧
      (s.chip.winIn src (lpmWin h)).lpmEntry.ok = true ∧ s.chip.lenEnabled h (s.chip.winIn src (lpmWin h)).lpmEntry.v6 (s.chip.winIn src
      (lpmWin h)).lpmEntry.length = true ∧ ([0, 1].any fun b => ((s.chip.winIn src (lpmWin h)).index) / 8 * 8 ==
      Chip.lpmIndex b (s.chip.lpmLine h b (s.chip.winIn src (lpmWin h)).lpmEntry.v6 (s.chip.winIn src (lpmWin h)).lpmEntry.length
      (s.chip.winIn src (lpmWin h)).lpmEntry.ctx (s.chip.winIn src (lpmWin h)).lpmEntry.prefix_)) = true)) →
    s.chip.judge src { (s.chip.lpmAt h ((s.chip.winIn src (lpmWin h)).index)).validity with valid := (s.chip.lpmSlotAt h ((s.chip.winIn src (lpmWin h)).index)).valid }
      ⟨(s.chip.winIn src (lpmWin h)).state / 128 % 2 = 1, (s.chip.winIn src (lpmWin h)).lpmEntry.validity.vfrom,
      (s.chip.winIn src (lpmWin h)).lpmEntry.validity.vuntil⟩ ((s.chip.lpmAt h ((s.chip.winIn src (lpmWin h)).index)).ctx ==
      (s.chip.winIn src (lpmWin h)).lpmEntry.ctx && (s.chip.lpmAt h ((s.chip.winIn src (lpmWin h)).index)).prefix_ ==
      (s.chip.winIn src (lpmWin h)).lpmEntry.prefix_ && (s.chip.lpmAt h ((s.chip.winIn src (lpmWin h)).index)).length ==
      (s.chip.winIn src (lpmWin h)).lpmEntry.length && (s.chip.lpmAt h ((s.chip.winIn src (lpmWin h)).index)).result ==
      (s.chip.winIn src (lpmWin h)).lpmEntry.result) = .accept lg →
    Does (.lpmWriteIfSeq src h) s fun t =>
      WinDone t (lpmWin h) 5 { code := 0 } ∧
      (∀ m ∈ s.chip.halfMates h, t.chip.lpmSlotAt m ((s.chip.winIn src (lpmWin h)).index) = (s.chip.winIn src (lpmWin h)).lpmSlots.1 ∧
        ((s.chip.winIn src (lpmWin h)).lpmEntry.v6 = true → t.chip.lpmSlotAt m (((s.chip.winIn src (lpmWin h)).index) + 1) =
        (s.chip.winIn src (lpmWin h)).lpmSlots.2) ∧
        t.chip.lpmSeq m ((s.chip.winIn src (lpmWin h)).index) = (s.chip.lpmSeq m ((s.chip.winIn src (lpmWin h)).index) + 1) % 65536 ∧
          ∀ j, j ≠ ((s.chip.winIn src (lpmWin h)).index) → ((s.chip.winIn src (lpmWin h)).lpmEntry.v6 = false ∨
          j ≠ ((s.chip.winIn src (lpmWin h)).index) + 1) → t.chip.lpmSlotAt m j = s.chip.lpmSlotAt m j) ∧ (∀ m, m ∉ s.chip.halfMates h →
          t.chip.lpmTab m = s.chip.lpmTab m) ∧
      t.chip.accord.log = (if lg then
        { place := .lpm h ((s.chip.winIn src (lpmWin h)).index), valid := (s.chip.lpmSlotAt h ((s.chip.winIn src (lpmWin h)).index)).valid, vfrom := (s.chip.lpmAt h ((s.chip.winIn src (lpmWin h)).index)).validity.vfrom, vuntil := (s.chip.lpmAt h ((s.chip.winIn src (lpmWin h)).index)).validity.vuntil }
        :: s.chip.accord.log else s.chip.accord.log) ∧
      OnlyParts s t ([lpmWin h + 4, lpmWin h + 8] ++ [R.ACCORD_LOG, R.ACCORD_STATUS] ++ injRegs) ([.wins, .house, .lpm, .accord] ++ [.mem,
        .fresh, .ledger])) ∧
  -- 13: lpmWriteIfSeq
  (∀ (s : State) (src : Source) (h r : Nat),
    h < 2 ∧ s.mayGo src (lpmWin h) = true →
    s.chip.lpmIndexOk h ((s.chip.winIn src (lpmWin h)).index) = true ∧
      (s.chip.winIn src (lpmWin h)).seq = s.chip.lpmSeq h ((s.chip.winIn src (lpmWin h)).index) →
    ((s.chip.lpmSlotAt h ((s.chip.winIn src (lpmWin h)).index)).valid = false ∨
      ((s.chip.lpmSlotAt h ((s.chip.winIn src (lpmWin h)).index)).second = false ∧
      (s.chip.lpmSlotAt h ((s.chip.winIn src (lpmWin h)).index)).v6 = (s.chip.winIn src (lpmWin h)).lpmEntry.v6)) ∧
      ((s.chip.winIn src (lpmWin h)).lpmEntry.v6 = false ∨ ((s.chip.winIn src (lpmWin h)).index) % 2 = 0) ∧
      (s.chip.winIn src (lpmWin h)).lpmEntry.cut = true →
    ((s.chip.winIn src (lpmWin h)).state / 128 % 2 = 0 ∨ ((s.chip.lpmSlotAt h ((s.chip.winIn src (lpmWin h)).index)).valid = true ∧
      (s.chip.winIn src (lpmWin h)).lpmEntry.ok = true ∧ s.chip.lenEnabled h (s.chip.winIn src (lpmWin h)).lpmEntry.v6 (s.chip.winIn src
      (lpmWin h)).lpmEntry.length = true ∧ ([0, 1].any fun b => ((s.chip.winIn src (lpmWin h)).index) / 8 * 8 ==
      Chip.lpmIndex b (s.chip.lpmLine h b (s.chip.winIn src (lpmWin h)).lpmEntry.v6 (s.chip.winIn src (lpmWin h)).lpmEntry.length
      (s.chip.winIn src (lpmWin h)).lpmEntry.ctx (s.chip.winIn src (lpmWin h)).lpmEntry.prefix_)) = true)) →
    s.chip.judge src { (s.chip.lpmAt h ((s.chip.winIn src (lpmWin h)).index)).validity with valid := (s.chip.lpmSlotAt h ((s.chip.winIn src (lpmWin h)).index)).valid }
      ⟨(s.chip.winIn src (lpmWin h)).state / 128 % 2 = 1, (s.chip.winIn src (lpmWin h)).lpmEntry.validity.vfrom,
      (s.chip.winIn src (lpmWin h)).lpmEntry.validity.vuntil⟩ ((s.chip.lpmAt h ((s.chip.winIn src (lpmWin h)).index)).ctx ==
      (s.chip.winIn src (lpmWin h)).lpmEntry.ctx && (s.chip.lpmAt h ((s.chip.winIn src (lpmWin h)).index)).prefix_ ==
      (s.chip.winIn src (lpmWin h)).lpmEntry.prefix_ && (s.chip.lpmAt h ((s.chip.winIn src (lpmWin h)).index)).length ==
      (s.chip.winIn src (lpmWin h)).lpmEntry.length && (s.chip.lpmAt h ((s.chip.winIn src (lpmWin h)).index)).result ==
      (s.chip.winIn src (lpmWin h)).lpmEntry.result) = .refuse r ∧ r < 8 →
    Does (.lpmWriteIfSeq src h) s fun t => WinDone t (lpmWin h) 5 { code := 5 } ∧ t.chip.get 0 R.ACCORD_REFUSAL_rule = r ∧
      t.chip.get 0 R.ACCORD_EVENT_refused = 1 ∧ t.chip.reg C.refused_writes = s.chip.reg C.refused_writes + 1 ∧
      OnlyParts s t ([lpmWin h + 4, lpmWin h + 8] ++ [R.ACCORD_REFUSAL, R.ACCORD_REFUSAL_INDEX, R.ACCORD_EVENT, C.refused_writes]) [.wins,
      .house]) ∧
  -- 14: lpmWriteIfSeq
  (∀ (s : State) (src : Source) (h : Nat),
    h < 2 ∧ s.mayGo src (lpmWin h) = true →
    (s.chip.lpmIndexOk h ((s.chip.winIn src (lpmWin h)).index) = false ∨
      (s.chip.winIn src (lpmWin h)).seq ≠ s.chip.lpmSeq h ((s.chip.winIn src (lpmWin h)).index) ∨
      ((s.chip.winIn src (lpmWin h)).state / 128 % 2 = 1 ∧ (s.chip.lpmSlotAt h ((s.chip.winIn src (lpmWin h)).index)).valid = false) ∨
      ((s.chip.lpmSlotAt h ((s.chip.winIn src (lpmWin h)).index)).valid = true ∧
      ((s.chip.lpmSlotAt h ((s.chip.winIn src (lpmWin h)).index)).second = true ∨
      (s.chip.lpmSlotAt h ((s.chip.winIn src (lpmWin h)).index)).v6 ≠ (s.chip.winIn src (lpmWin h)).lpmEntry.v6)) ∨
      ((s.chip.winIn src (lpmWin h)).lpmEntry.v6 = true ∧ ((s.chip.winIn src (lpmWin h)).index) % 2 = 1) ∨
      (s.chip.winIn src (lpmWin h)).lpmEntry.cut = false ∨ ((s.chip.winIn src (lpmWin h)).state / 128 % 2 = 1 ∧
      ((s.chip.winIn src (lpmWin h)).lpmEntry.ok = false ∨ s.chip.lenEnabled h (s.chip.winIn src (lpmWin h)).lpmEntry.v6 (s.chip.winIn src
      (lpmWin h)).lpmEntry.length = false ∨ ([0, 1].any fun b => ((s.chip.winIn src (lpmWin h)).index) / 8 * 8 ==
      Chip.lpmIndex b (s.chip.lpmLine h b (s.chip.winIn src (lpmWin h)).lpmEntry.v6 (s.chip.winIn src (lpmWin h)).lpmEntry.length
      (s.chip.winIn src (lpmWin h)).lpmEntry.ctx (s.chip.winIn src (lpmWin h)).lpmEntry.prefix_)) = false))) →
    Does (.lpmWriteIfSeq src h) s fun t =>
      WinDone t (lpmWin h) 5
        { code := if s.chip.lpmIndexOk h ((s.chip.winIn src (lpmWin h)).index) = true ∧ (s.chip.winIn src (lpmWin h)).seq ≠ s.chip.lpmSeq h ((s.chip.winIn src (lpmWin h)).index) then 4 else 6 }
        ∧ OnlyParts s t [lpmWin h + 4, lpmWin h + 8] [.wins, .house]) ∧
  -- 15: filterRead
  (∀ (s : State) (src : Source) (h : Nat) (v6 : Bool),
    h < 2 ∧ s.mayGo src (filterWin h v6) = true →
    (s.chip.winIn src (filterWin h v6)).index < 65536 →
    Does (.filterRead src h v6) s fun t =>
      WinDone t (filterWin h v6) 1
        { code := 0, data := some (BitVec.ofNat 256 (s.chip.filterEntry h v6 (s.chip.winIn src (filterWin h v6)).index)), poison := s.chip.filterPoisoned h v6 (s.chip.winIn src (filterWin h v6)).index }
        ∧
      OnlyParts s t ([filterWin h v6 + 4, filterWin h v6 + 8] ++ errRegs (U.halfBlk h 0x10)) ([.wins, .house] ++ [.mem, .ledger])) ∧
  -- 16: filterRead
  (∀ (s : State) (src : Source) (h : Nat) (v6 : Bool),
    h < 2 ∧ s.mayGo src (filterWin h v6) = true →
    65536 ≤ (s.chip.winIn src (filterWin h v6)).index →
    Does (.filterRead src h v6) s fun t => WinDone t (filterWin h v6) 1 { code := 6 } ∧
      OnlyParts s t [filterWin h v6 + 4, filterWin h v6 + 8] [.wins, .house]) ∧
  -- 17: filterWrite
  (∀ (s : State) (src : Source) (h : Nat) (v6 : Bool),
    h < 2 ∧ s.mayGo src (filterWin h v6) = true →
    (s.chip.halfMates h).Nodup ∧ h ∈ s.chip.halfMates h →
    (s.chip.winIn src (filterWin h v6)).index < 65536 →
    v6 = false ∨ bits (s.chip.winIn src (filterWin h v6)).data 23 0 = 0 →
    Does (.filterWrite src h v6) s fun t =>
      WinDone t (filterWin h v6) 2 { code := 0 } ∧
      (∀ m ∈ s.chip.halfMates h, (∀ j, t.chip.filterEntry m v6 j = if j =
        (s.chip.winIn src (filterWin h v6)).index then (if v6 then bits (s.chip.winIn src (filterWin h v6)).data 127 0 else bits
        (s.chip.winIn src (filterWin h v6)).data 31 0) else s.chip.filterEntry m v6 j) ∧
        ∀ j, t.chip.filterEntry m (!v6) j = s.chip.filterEntry m (!v6) j) ∧ (∀ m, m ∉ s.chip.halfMates h →
          t.chip.lpmTab m = s.chip.lpmTab m) ∧ (∀ m, (t.chip.lpmTab m).slots = (s.chip.lpmTab m).slots) ∧
      OnlyParts s t ([filterWin h v6 + 4, filterWin h v6 + 8] ++ injRegs) ([.wins, .house, .lpm] ++ [.mem, .fresh, .ledger])) ∧
  -- 18: filterWrite
  (∀ (s : State) (src : Source) (h : Nat) (v6 : Bool),
    h < 2 ∧ s.mayGo src (filterWin h v6) = true →
    65536 ≤ (s.chip.winIn src (filterWin h v6)).index ∨ (v6 = true ∧ bits (s.chip.winIn src (filterWin h v6)).data 23 0 ≠ 0) →
    Does (.filterWrite src h v6) s fun t => WinDone t (filterWin h v6) 2 { code := 6 } ∧
      OnlyParts s t [filterWin h v6 + 4, filterWin h v6 + 8] [.wins, .house]) ∧
  -- 19: setRange
  (∀ (s : State) (src : Source) (h first b n : Nat) (v6 : Bool),
    h < 2 ∧ s.mayGo src (filterWin h v6) = true →
    (s.chip.halfMates h).Nodup ∧ h ∈ s.chip.halfMates h →
    first = bits (s.chip.winIn src (filterWin h v6)).data 31 16 ∧ b = bits (s.chip.winIn src (filterWin h v6)).data 6 0 ∧
      n = bits (s.chip.winIn src (filterWin h v6)).data 63 32 →
    rangeOk v6 first b n = true →
    Does (.setRange src h v6) s fun t =>
      WinDone t (filterWin h v6) 3 { code := 0 } ∧
      (∀ m ∈ s.chip.halfMates h, (∀ j, t.chip.filterEntry m v6 j = if first ≤ j ∧
        j < first + n then s.chip.filterEntry m v6 j ||| 2 ^ b else s.chip.filterEntry m v6 j) ∧
        ∀ j, t.chip.filterEntry m (!v6) j = s.chip.filterEntry m (!v6) j) ∧ (∀ m, m ∉ s.chip.halfMates h →
          t.chip.lpmTab m = s.chip.lpmTab m) ∧ (∀ m, (t.chip.lpmTab m).slots = (s.chip.lpmTab m).slots) ∧
      OnlyParts s t ([filterWin h v6 + 4, filterWin h v6 + 8] ++ injRegs) ([.wins, .house, .lpm] ++ [.mem, .fresh, .ledger])) ∧
  -- 20: clearRange
  (∀ (s : State) (src : Source) (h first b n : Nat) (v6 : Bool),
    h < 2 ∧ s.mayGo src (filterWin h v6) = true →
    (s.chip.halfMates h).Nodup ∧ h ∈ s.chip.halfMates h →
    first = bits (s.chip.winIn src (filterWin h v6)).data 31 16 ∧ b = bits (s.chip.winIn src (filterWin h v6)).data 6 0 ∧
      n = bits (s.chip.winIn src (filterWin h v6)).data 63 32 →
    rangeOk v6 first b n = true →
    Does (.clearRange src h v6) s fun t =>
      WinDone t (filterWin h v6) 4 { code := 0 } ∧
      (∀ m ∈ s.chip.halfMates h, (∀ j, (t.chip.filterEntry m v6 j).testBit b = if first ≤ j ∧
        j < first + n then false else (s.chip.filterEntry m v6 j).testBit b) ∧
        (∀ j k, k ≠ b → (t.chip.filterEntry m v6 j).testBit k = (s.chip.filterEntry m v6 j).testBit k) ∧
        ∀ j, t.chip.filterEntry m (!v6) j = s.chip.filterEntry m (!v6) j) ∧ (∀ m, m ∉ s.chip.halfMates h →
          t.chip.lpmTab m = s.chip.lpmTab m) ∧ (∀ m, (t.chip.lpmTab m).slots = (s.chip.lpmTab m).slots) ∧
      OnlyParts s t ([filterWin h v6 + 4, filterWin h v6 + 8] ++ injRegs) ([.wins, .house, .lpm] ++ [.mem, .fresh, .ledger])) ∧
  -- 21: setRange
  (∀ (s : State) (src : Source) (h : Nat) (v6 : Bool),
    h < 2 ∧ s.mayGo src (filterWin h v6) = true →
    rangeOk v6 (bits (s.chip.winIn src (filterWin h v6)).data 31 16) (bits (s.chip.winIn src (filterWin h v6)).data 6 0) (bits (s.chip.winIn
      src (filterWin h v6)).data 63 32) = false →
    Does (.setRange src h v6) s fun t => WinDone t (filterWin h v6) 3 { code := 6 } ∧
      OnlyParts s t [filterWin h v6 + 4, filterWin h v6 + 8] [.wins, .house]) ∧
  -- 22: clearRange
  (∀ (s : State) (src : Source) (h : Nat) (v6 : Bool),
    h < 2 ∧ s.mayGo src (filterWin h v6) = true →
    rangeOk v6 (bits (s.chip.winIn src (filterWin h v6)).data 31 16) (bits (s.chip.winIn src (filterWin h v6)).data 6 0) (bits (s.chip.winIn
      src (filterWin h v6)).data 63 32) = false →
    Does (.clearRange src h v6) s fun t => WinDone t (filterWin h v6) 4 { code := 6 } ∧
      OnlyParts s t [filterWin h v6 + 4, filterWin h v6 + 8] [.wins, .house])

/-- READ_PART gives a part of a stored copy and whether it is poisoned, and meets the errors of its words; LOAD_PART holds a part; both give
0x06 for another part or index. TCAM_WRITE_IF_SEQ in the table's form with the entry's sequence number, which R159 accepts, waits for a
slot; a refused one gives 0x05, a changed sequence number 0x04, another form or index 0x06. TCAM_WRITE_SLOT writes row and stored copy of
the oldest waiting write in every member's copy, lifts its exclusion, steps its sequence number, logs it where R159 asks for it, counts
and ends the command; with a sequence number that has changed since it gives 0x04. TCAM_SEARCH gives the winner of a table of the
window's slice, 0x01 without one, 0x06 for a table that does not exist. TCAM_SCRUB_READ that is due of a row that differs from its copy
restores it, counts and reports; of one that agrees it only counts; else nothing changes. -/
def Obligations.TcamWindowOperations : Prop :=
  -- 1: readPart
  (∀ (s : State) (src : Source) (sl i : Nat),
    sl < 8 ∧ s.mayGo src (tcamWin sl) = true →
    tcamOfWin (s.chip.winIn src (tcamWin sl)).index = some i ∧ (s.chip.winIn src (tcamWin sl)).part ≠ 3 →
    Does (.readPart src sl) s fun t =>
      WinDone t (tcamWin sl) 1
        { code := 0, data := some (((s.chip.tcamTab sl).copies.look i).part (s.chip.winIn src (tcamWin sl)).part), state := some ((s.chip.tcamTab sl).copies.look i).state.toNat, seq := some ((s.chip.tcamTab sl).seqs.look i), poison := s.chip.tcamCopyPoisoned sl i }
        ∧
      OnlyParts s t ([tcamWin sl + 4, tcamWin sl + 8] ++ errRegs (U.sliceBlk sl (tcamWord i).1)) ([.wins, .house] ++ [.mem, .ledger])) ∧
  -- 2: readPart
  (∀ (s : State) (src : Source) (sl : Nat),
    sl < 8 ∧ s.mayGo src (tcamWin sl) = true →
    tcamOfWin (s.chip.winIn src (tcamWin sl)).index = none ∨ (s.chip.winIn src (tcamWin sl)).part = 3 →
    Does (.readPart src sl) s fun t => WinDone t (tcamWin sl) 1 { code := 6 } ∧
      OnlyParts s t [tcamWin sl + 4, tcamWin sl + 8] [.wins, .house]) ∧
  -- 3: loadPart
  (∀ (s : State) (src : Source) (sl : Nat),
    sl < 8 ∧ s.mayGo src (tcamWin sl) = true →
    (s.chip.winIn src (tcamWin sl)).part ≠ 3 →
    Does (.loadPart src sl) s fun t =>
      WinDone t (tcamWin sl) 2 { code := 0 } ∧ t.chip.tcam = s.chip.tcam.set sl
        { (s.chip.tcamTab sl) with parts := (s.chip.tcamTab sl).parts.set (3 * (s.chip.winIn src (tcamWin sl)).half + (s.chip.winIn src (tcamWin sl)).part) (some (s.chip.winIn src (tcamWin sl)).data) }
        ∧ OnlyParts s t [tcamWin sl + 4, tcamWin sl + 8] [.wins, .house, .tcam]) ∧
  -- 4: loadPart
  (∀ (s : State) (src : Source) (sl : Nat),
    sl < 8 ∧ s.mayGo src (tcamWin sl) = true →
    (s.chip.winIn src (tcamWin sl)).part = 3 →
    Does (.loadPart src sl) s fun t => WinDone t (tcamWin sl) 2 { code := 6 } ∧
      OnlyParts s t [tcamWin sl + 4, tcamWin sl + 8] [.wins, .house]) ∧
  -- 5: tcamWriteIfSeq
  (∀ (s : State) (src : Source) (sl i : Nat) (x y : TcamEntry) (lg : Bool),
    sl < 8 ∧ s.mayGo src (tcamWin sl) = true →
    tcamOfWin (s.chip.winIn src (tcamWin sl)).index = some i ∧ s.chip.tcamFormOk sl i (s.chip.winIn src (tcamWin sl)).state = true ∧
      (s.chip.winIn src (tcamWin sl)).seq = (s.chip.tcamTab sl).seqs.look i →
    x = (s.chip.tcamTab sl).heldEntry 0 (s.chip.winIn src (tcamWin sl)).state ∧
      y = { (s.chip.tcamTab sl).heldEntry 1 ((s.chip.winIn src (tcamWin sl)).state / 128 * 128 + 64) with prio := x.prio, result := x.result, vfrom := x.vfrom, vuntil := x.vuntil }
      →
    s.chip.judge src ((s.chip.tcamTab sl).copies.look i).validity x.validity ((s.chip.tcamTab sl).sameBut i x y) = .accept lg →
    Does (.tcamWriteIfSeq src sl) s fun t =>
      t.chip.wins.look (tcamWin sl) = none ∧ t.chip.get (tcamWin sl + 8) R.WIN_STATUS_busy = 1 ∧
        t.chip.get (tcamWin sl + 4) R.WIN_CMD_op = 3 ∧
      t.chip.tcam = s.chip.tcam.set sl
        { (s.chip.tcamTab sl) with writes := (s.chip.tcamTab sl).writes ++ [{ index := i, state := (s.chip.winIn src (tcamWin sl)).state, seq := (s.chip.winIn src (tcamWin sl)).seq, first := x, second := y, logged := lg }] }
        ∧ OnlyParts s t [tcamWin sl + 4, tcamWin sl + 8] [.wins, .house, .tcam]) ∧
  -- 6: tcamWriteIfSeq
  (∀ (s : State) (src : Source) (sl i r : Nat) (x y : TcamEntry),
    sl < 8 ∧ s.mayGo src (tcamWin sl) = true →
    tcamOfWin (s.chip.winIn src (tcamWin sl)).index = some i ∧ s.chip.tcamFormOk sl i (s.chip.winIn src (tcamWin sl)).state = true ∧
      (s.chip.winIn src (tcamWin sl)).seq = (s.chip.tcamTab sl).seqs.look i →
    x = (s.chip.tcamTab sl).heldEntry 0 (s.chip.winIn src (tcamWin sl)).state ∧
      y = { (s.chip.tcamTab sl).heldEntry 1 ((s.chip.winIn src (tcamWin sl)).state / 128 * 128 + 64) with prio := x.prio, result := x.result, vfrom := x.vfrom, vuntil := x.vuntil }
      →
    s.chip.judge src ((s.chip.tcamTab sl).copies.look i).validity x.validity ((s.chip.tcamTab sl).sameBut i x y) = .refuse r ∧ r < 8 →
    Does (.tcamWriteIfSeq src sl) s fun t => WinDone t (tcamWin sl) 3 { code := 5 } ∧ t.chip.get 0 R.ACCORD_REFUSAL_rule = r ∧
      t.chip.get 0 R.ACCORD_EVENT_refused = 1 ∧ t.chip.reg C.refused_writes = s.chip.reg C.refused_writes + 1 ∧
      OnlyParts s t ([tcamWin sl + 4, tcamWin sl + 8] ++ [R.ACCORD_REFUSAL, R.ACCORD_REFUSAL_INDEX, R.ACCORD_EVENT,
      C.refused_writes]) [.wins, .house]) ∧
  -- 7: tcamWriteIfSeq
  (∀ (s : State) (src : Source) (sl : Nat),
    sl < 8 ∧ s.mayGo src (tcamWin sl) = true →
    ((tcamOfWin (s.chip.winIn src (tcamWin sl)).index).any (fun i => s.chip.tcamFormOk sl i (s.chip.winIn src (tcamWin sl)).state &&
      (s.chip.winIn src (tcamWin sl)).seq == (s.chip.tcamTab sl).seqs.look i) = false) →
    Does (.tcamWriteIfSeq src sl) s fun t =>
      WinDone t (tcamWin sl) 3
        { code := if (tcamOfWin (s.chip.winIn src (tcamWin sl)).index).any (fun i => s.chip.tcamFormOk sl i (s.chip.winIn src (tcamWin sl)).state) then 4 else 6 }
        ∧ OnlyParts s t [tcamWin sl + 4, tcamWin sl + 8] [.wins, .house]) ∧
  -- 8: tcamWriteSlot
  (∀ (s : State) (sl : Nat) (w : TcamWrite) (l : List TcamWrite),
    s.runs .core = true →
    s.chip.alive (U.slice sl) = true ∧ (s.chip.tcamTab sl).writes = w :: l ∧ s.chip.blockUp sl (0x50 + w.index / 5120) = true →
    (s.chip.sliceMates sl).Nodup ∧ sl ∈ s.chip.sliceMates sl →
    w.seq = (s.chip.tcamTab sl).seqs.look w.index →
    Does (.tcamWriteSlot sl) s fun t =>
      t.chip.wins.look (tcamWin sl) = some { code := 0 } ∧ (t.chip.tcamTab sl).writes = l ∧
      (∀ m ∈ s.chip.sliceMates sl,
        (t.chip.tcamTab m).rows.look w.index = w.first ∧ (t.chip.tcamTab m).copies.look w.index = w.first ∧
        (w.first.pair = 1 → (t.chip.tcamTab m).rows.look (w.index + 1) = w.second ∧
          (t.chip.tcamTab m).copies.look (w.index + 1) = w.second) ∧
        (∀ j, j ≠ w.index → (w.first.pair ≠ 1 ∨ j ≠ w.index + 1) → (t.chip.tcamTab m).rows.look j = (s.chip.tcamTab m).rows.look j ∧
          (t.chip.tcamTab m).copies.look j = (s.chip.tcamTab m).copies.look j) ∧
        (t.chip.tcamTab m).seqs.look w.index = ((s.chip.tcamTab m).seqs.look w.index + 1) % 65536 ∧ w.index ∉ (t.chip.tcamTab m).excluded) ∧
      (∀ m, m ∉ s.chip.sliceMates sl → t.chip.tcamTab m = s.chip.tcamTab m) ∧
      t.chip.reg (s.chip.sliceCnt sl + C.tcam_write_slots) = s.chip.reg (s.chip.sliceCnt sl + C.tcam_write_slots) + 1 ∧
      t.chip.accord.log = (if w.logged then
        { place := .tcam sl (w.index / 5120) (w.index % 5120), valid := ((s.chip.tcamTab sl).copies.look w.index).valid, vfrom := ((s.chip.tcamTab sl).copies.look w.index).vfrom, vuntil := ((s.chip.tcamTab sl).copies.look w.index).vuntil }
        :: s.chip.accord.log else s.chip.accord.log) ∧
      OnlyParts s t ([s.chip.sliceCnt sl + C.tcam_write_slots] ++ [R.ACCORD_LOG, R.ACCORD_STATUS] ++ injRegs) ([.wins, .tcam,
        .accord] ++ [.mem, .fresh, .ledger])) ∧
  -- 9: tcamWriteSlot
  (∀ (s : State) (sl : Nat) (w : TcamWrite) (l : List TcamWrite),
    s.runs .core = true →
    s.chip.alive (U.slice sl) = true ∧ (s.chip.tcamTab sl).writes = w :: l ∧ s.chip.blockUp sl (0x50 + w.index / 5120) = true →
    w.seq ≠ (s.chip.tcamTab sl).seqs.look w.index →
    Does (.tcamWriteSlot sl) s fun t =>
      t.chip.wins.look (tcamWin sl) = some { code := 4 } ∧ t.chip.tcam = s.chip.tcam.set sl { (s.chip.tcamTab sl) with writes := l } ∧
        OnlyParts s t [] [.wins, .tcam]) ∧
  -- 10: tcamWriteSlot
  (∀ (s : State) (sl : Nat),
    s.runs .core = true →
    s.chip.alive (U.slice sl) = false ∨ (s.chip.tcamTab sl).writes = [] →
    Does (.tcamWriteSlot sl) s fun t => OnlyRegs s t []) ∧
  -- 11: tcamSearch
  (∀ (s : State) (src : Source) (sl : Nat),
    sl < 8 ∧ s.mayGo src (tcamWin sl) = true →
    ((s.chip.tcamTables sl).all (fun x => x.id != (s.chip.winIn src (tcamWin sl)).table) = true) →
    Does (.tcamSearch src sl) s fun t => WinDone t (tcamWin sl) 4 { code := 6 } ∧
      OnlyParts s t [tcamWin sl + 4, tcamWin sl + 8] [.wins, .house]) ∧
  -- 12: tcamSearch
  (∀ (s : State) (src : Source) (sl i : Nat) (e : TcamEntry) (x : TcamTab) (ka kb : Key),
    sl < 8 ∧ s.mayGo src (tcamWin sl) = true →
    ((s.chip.tcamTables sl).find? (fun x => x.id == (s.chip.winIn src (tcamWin sl)).table) = some x) →
    ka = BitVec.ofNat 320 (((s.chip.tcamTab sl).parts.look 0).getD 0).toNat + BitVec.ofNat 320 (bits (((s.chip.tcamTab sl).parts.look
      1).getD 0) 63 0 * 2 ^ 256) ∧ kb = BitVec.ofNat 320 (((s.chip.tcamTab sl).parts.look 3).getD 0).toNat + BitVec.ofNat 320 (bits
      (((s.chip.tcamTab sl).parts.look 4).getD 0) 63 0 * 2 ^ 256) →
    tcamBest (s.chip.tcamHits sl x ka kb s.chip.newest []) = some (i, e) →
    Does (.tcamSearch src sl) s fun t => WinDone t (tcamWin sl) 4
      { code := 0, index := some (tcamToWin i), seq := some ((s.chip.tcamTab sl).seqs.look i) } ∧
      OnlyParts s t [tcamWin sl + 4, tcamWin sl + 8] [.wins, .house]) ∧
  -- 13: tcamSearch
  (∀ (s : State) (src : Source) (sl : Nat) (x : TcamTab) (ka kb : Key),
    sl < 8 ∧ s.mayGo src (tcamWin sl) = true →
    ((s.chip.tcamTables sl).find? (fun x => x.id == (s.chip.winIn src (tcamWin sl)).table) = some x) →
    ka = BitVec.ofNat 320 (((s.chip.tcamTab sl).parts.look 0).getD 0).toNat + BitVec.ofNat 320 (bits (((s.chip.tcamTab sl).parts.look
      1).getD 0) 63 0 * 2 ^ 256) ∧ kb = BitVec.ofNat 320 (((s.chip.tcamTab sl).parts.look 3).getD 0).toNat + BitVec.ofNat 320 (bits
      (((s.chip.tcamTab sl).parts.look 4).getD 0) 63 0 * 2 ^ 256) →
    tcamBest (s.chip.tcamHits sl x ka kb s.chip.newest []) = none →
    Does (.tcamSearch src sl) s fun t => WinDone t (tcamWin sl) 4 { code := 1 } ∧
      OnlyParts s t [tcamWin sl + 4, tcamWin sl + 8] [.wins, .house]) ∧
  -- 14: tcamScrubRead
  (∀ (s : State) (sl bank entry : Nat) (x : Key),
    s.runs .core = true →
    bank < 4 ∧ entry < 5120 ∧ s.chip.alive (U.slice sl) = true ∧ s.chip.blockUp sl (0x50 + bank) = true ∧ s.chip.house.sleep.look sl = 0 ∧
      s.chip.get (A.slice (s.chip.emHome sl)) R.TCAM_SCRUB_enable = 1 ∧ (s.chip.tcamTableAt sl (tcamPhys bank entry)).isSome = true ∧
      s.chip.tcamScrubDue sl (tcamPhys bank entry) = true →
    ((s.chip.tcamUpset sl (tcamPhys bank entry) x).tcamTab sl).rows.look (tcamPhys bank entry) ≠ (s.chip.tcamTab sl).copies.look (tcamPhys
      bank entry) →
    Does (.tcamScrubRead sl bank entry x) s fun t =>
      (t.chip.tcamTab sl).rows.look (tcamPhys bank entry) = (s.chip.tcamTab sl).copies.look (tcamPhys bank entry) ∧
        (t.chip.tcamTab sl).copies = (s.chip.tcamTab sl).copies ∧
        (t.chip.tcamTab sl).scrubbed.look (tcamPhys bank entry) = some s.chip.now ∧
      t.chip.reg (s.chip.sliceCnt sl + C.tcam_scrub_rows) = s.chip.reg (s.chip.sliceCnt sl + C.tcam_scrub_rows) + 1 ∧
        t.chip.reg (s.chip.sliceCnt sl + C.tcam_row_repair) = s.chip.reg (s.chip.sliceCnt sl + C.tcam_row_repair) + 1 ∧
      t.chip.get (A.slice (s.chip.emHome sl)) R.TCAM_EVENT_row_mismatch = 1 ∧
        t.chip.ledger = s.chip.sent [s.chip.msgOf (U.sliceBlk sl (0x50 + bank)) K.tcamRowMismatch 1 (tcamPhys bank entry)] ∧
      OnlyParts s t [s.chip.sliceCnt sl + C.tcam_scrub_rows, s.chip.sliceCnt sl + C.tcam_row_repair,
        A.slice (s.chip.emHome sl) + R.TCAM_EVENT] [.tcam, .ledger]) ∧
  -- 15: tcamScrubRead
  (∀ (s : State) (sl bank entry : Nat),
    s.runs .core = true →
    bank < 4 ∧ entry < 5120 ∧ s.chip.alive (U.slice sl) = true ∧ s.chip.blockUp sl (0x50 + bank) = true ∧ s.chip.house.sleep.look sl = 0 ∧
      s.chip.get (A.slice (s.chip.emHome sl)) R.TCAM_SCRUB_enable = 1 ∧ (s.chip.tcamTableAt sl (tcamPhys bank entry)).isSome = true ∧
      s.chip.tcamScrubDue sl (tcamPhys bank entry) = true →
    (s.chip.tcamTab sl).rows.look (tcamPhys bank entry) = (s.chip.tcamTab sl).copies.look (tcamPhys bank entry) →
    Does (.tcamScrubRead sl bank entry 0) s fun t =>
      t.chip.tcam = s.chip.tcam.set sl
        { (s.chip.tcamTab sl) with scrubbed := (s.chip.tcamTab sl).scrubbed.set (tcamPhys bank entry) (some s.chip.now) } ∧
        t.chip.reg (s.chip.sliceCnt sl + C.tcam_scrub_rows) = s.chip.reg (s.chip.sliceCnt sl + C.tcam_scrub_rows) + 1 ∧
      OnlyParts s t [s.chip.sliceCnt sl + C.tcam_scrub_rows] [.tcam]) ∧
  -- 16: tcamScrubRead
  (∀ (s : State) (sl bank entry : Nat) (x : Key),
    s.runs .core = true →
    4 ≤ bank ∨ 5120 ≤ entry ∨ s.chip.alive (U.slice sl) = false ∨ s.chip.blockUp sl (0x50 + bank) = false ∨ s.chip.house.sleep.look sl ≠ 0 ∨
      s.chip.get (A.slice (s.chip.emHome sl)) R.TCAM_SCRUB_enable = 0 ∨ (s.chip.tcamTableAt sl (tcamPhys bank entry)).isSome = false ∨
      s.chip.tcamScrubDue sl (tcamPhys bank entry) = false →
    Does (.tcamScrubRead sl bank entry x) s fun t => OnlyRegs s t [])

/-- OBJECT_READ gives the object's record and whether it is poisoned, and meets the errors of its words; OBJECT_WRITE of an accepted record
writes it whole in every member's copy, parts 0 to 2 of a group or script being held until part 3 comes (the model's choice, log entry
22); a meter keeps its buckets, clamped to its new bursts; a refused record, an index past the last or a window of no object gives 0x06.
RESET_BUCKETS fills a meter's buckets to its bursts. GROUP_HEAD_READ gives the entry and its sequence number; a GROUP_HEAD_WRITE_IF_SEQ
that R159 accepts writes it and steps the sequence number, a refused one gives 0x05, another sequence number 0x04, a bad index or
reserved bits 0x06. SETTLER_VISIT of a place, in the order of the tables, writes what R166 makes of its validity and counts an entry that
it frees; it leaves a settled one alone; of a sleeping slice it is a wake cause; without a live accord, of no entry, or under reset it
does nothing. Nothing else changes. -/
def Obligations.ObjectsGroupHeadsAndSettler : Prop :=
  -- 1: objectRead
  (∀ (s : State) (src : Source) (base sl : Nat) (k : ObjKind),
    s.mayGo src base = true →
    objWindow base = some (sl, k) ∧ (s.chip.winIn src base).index < objCount k →
    Does (.objectRead src base) s fun t => WinDone t base 1 (s.chip.objRead sl k (s.chip.winIn src base).index (s.chip.winIn src base).part)
      ∧ OnlyParts s t ([base + 4, base + 8] ++ errRegs (U.sliceBlk sl (objWords k (s.chip.winIn src base).index (s.chip.winIn src
      base).part).1)) ([.wins, .house] ++ [.mem, .ledger])) ∧
  -- 2: objectRead
  (∀ (s : State) (src : Source) (base : Nat),
    s.mayGo src base = true →
    ((objWindow base).all (fun x => decide (objCount x.2 ≤ (s.chip.winIn src base).index)) = true) →
    Does (.objectRead src base) s fun t => WinDone t base 1 { code := 6 } ∧ OnlyParts s t [base + 4, base + 8] [.wins, .house]) ∧
  -- 3: objectWrite
  (∀ (s : State) (src : Source) (base sl : Nat) (k : ObjKind),
    s.mayGo src base = true →
    objWindow base = some (sl, k) ∧ (s.chip.winIn src base).index < objCount k →
    (s.chip.sliceMates sl).Nodup ∧ sl ∈ s.chip.sliceMates sl →
    s.chip.objOk sl k (s.chip.winIn src base).index (s.chip.winIn src base).part (s.chip.winIn src base).state (s.chip.winIn src base).data
      = true →
    k = .nextHop ∨ k = .mirror ∨ k = .copy →
    Does (.objectWrite src base) s fun t =>
      WinDone t base 2 { code := 0 } ∧
      (∀ m ∈ s.chip.sliceMates sl, t.chip.obj m = match k with
        | .nextHop => { s.chip.obj m with nextHops := (s.chip.obj m).nextHops.set (s.chip.winIn src base).index (BitVec.ofNat 64 (bits (s.chip.winIn src base).data 63 0)) }
        | .mirror => { s.chip.obj m with mirrors := (s.chip.obj m).mirrors.set (s.chip.winIn src base).index (BitVec.ofNat 64 (bits (s.chip.winIn src base).data 63 0)) }
        | _ => { s.chip.obj m with copies := (s.chip.obj m).copies.set (s.chip.winIn src base).index (BitVec.ofNat 64 (bits (s.chip.winIn src base).data 63 0)) })
          ∧ (∀ m, m ∉ s.chip.sliceMates sl → t.chip.obj m = s.chip.obj m) ∧
      OnlyParts s t ([base + 4, base + 8] ++ injRegs) [.wins, .house, .objects, .mem, .fresh, .ledger]) ∧
  -- 4: objectWrite
  (∀ (s : State) (src : Source) (base sl : Nat) (k : ObjKind),
    s.mayGo src base = true →
    objWindow base = some (sl, k) ∧ (s.chip.winIn src base).index < objCount k →
    (s.chip.sliceMates sl).Nodup ∧ sl ∈ s.chip.sliceMates sl →
    s.chip.objOk sl k (s.chip.winIn src base).index (s.chip.winIn src base).part (s.chip.winIn src base).state (s.chip.winIn src base).data
      = true →
    k = .meter →
    Does (.objectWrite src base) s fun t =>
      WinDone t base 2 { code := 0 } ∧
      (∀ m ∈ s.chip.sliceMates sl, t.chip.obj m
        = { s.chip.obj m with meters := (s.chip.obj m).meters.set (s.chip.winIn src base).index (Meter.fill { s.chip.meter m (s.chip.winIn src base).index with record := BitVec.ofNat 128 (bits (s.chip.winIn src base).data 127 0) } s.chip.now) })
        ∧ (∀ m, m ∉ s.chip.sliceMates sl → t.chip.obj m = s.chip.obj m) ∧
      OnlyParts s t ([base + 4, base + 8] ++ injRegs) [.wins, .house, .objects, .mem, .fresh, .ledger]) ∧
  -- 5: objectWrite
  (∀ (s : State) (src : Source) (base sl : Nat) (k : ObjKind),
    s.mayGo src base = true →
    objWindow base = some (sl, k) ∧ (s.chip.winIn src base).index < objCount k →
    s.chip.objOk sl k (s.chip.winIn src base).index (s.chip.winIn src base).part (s.chip.winIn src base).state (s.chip.winIn src base).data
      = true →
    (k = .group ∨ k = .script) ∧ (s.chip.winIn src base).part ≠ 3 →
    Does (.objectWrite src base) s fun t =>
      WinDone t base 2 { code := 0 } ∧
      t.chip.objects = s.chip.objects.set sl (if k = .group then
        { (s.chip.obj sl) with heldGroup := (s.chip.obj sl).heldGroup.set (s.chip.winIn src base).part (some (s.chip.winIn src base).data) }
        else { (s.chip.obj sl) with heldScript := (s.chip.obj sl).heldScript.set (s.chip.winIn src base).part (some (s.chip.winIn src base).data) })
        ∧
      OnlyParts s t [base + 4, base + 8] [.wins, .house, .objects]) ∧
  -- 6: objectWrite
  (∀ (s : State) (src : Source) (base sl : Nat) (k : ObjKind),
    s.mayGo src base = true →
    objWindow base = some (sl, k) ∧ (s.chip.winIn src base).index < objCount k →
    (s.chip.sliceMates sl).Nodup ∧ sl ∈ s.chip.sliceMates sl →
    s.chip.objOk sl k (s.chip.winIn src base).index (s.chip.winIn src base).part (s.chip.winIn src base).state (s.chip.winIn src base).data
      = true →
    k = .group ∧ (s.chip.winIn src base).part = 3 →
    Does (.objectWrite src base) s fun t =>
      WinDone t base 2 { code := 0 } ∧ (t.chip.obj sl).heldGroup = [] ∧
      (∀ m ∈ s.chip.sliceMates sl, (t.chip.obj m).groupSize.look (s.chip.winIn src base).index = (s.chip.winIn src base).state ∧
        (t.chip.obj m).groupPart.look (4 * (s.chip.winIn src base).index + 3) = (s.chip.winIn src base).data ∧
        ∀ p, p < 3 → (t.chip.obj m).groupPart.look (4 * (s.chip.winIn src base).index + p) =
          ((s.chip.obj sl).heldGroup.look p).getD ((s.chip.obj m).groupPart.look (4 * (s.chip.winIn src base).index + p))) ∧
          (∀ m, m ∉ s.chip.sliceMates sl → t.chip.obj m = s.chip.obj m) ∧
      OnlyParts s t ([base + 4, base + 8] ++ injRegs) [.wins, .house, .objects, .mem, .fresh, .ledger]) ∧
  -- 7: objectWrite
  (∀ (s : State) (src : Source) (base sl : Nat) (k : ObjKind),
    s.mayGo src base = true →
    objWindow base = some (sl, k) ∧ (s.chip.winIn src base).index < objCount k →
    (s.chip.sliceMates sl).Nodup ∧ sl ∈ s.chip.sliceMates sl →
    s.chip.objOk sl k (s.chip.winIn src base).index (s.chip.winIn src base).part (s.chip.winIn src base).state (s.chip.winIn src base).data
      = true →
    k = .script ∧ (s.chip.winIn src base).part = 3 →
    Does (.objectWrite src base) s fun t =>
      WinDone t base 2 { code := 0 } ∧ (t.chip.obj sl).heldScript = [] ∧
      (∀ m ∈ s.chip.sliceMates sl, (t.chip.obj m).scripts.look (4 * (s.chip.winIn src base).index + 3) = (s.chip.winIn src base).data ∧
        ∀ p, p < 3 → (t.chip.obj m).scripts.look (4 * (s.chip.winIn src base).index + p) =
          ((s.chip.obj sl).heldScript.look p).getD ((s.chip.obj m).scripts.look (4 * (s.chip.winIn src base).index + p))) ∧
          (∀ m, m ∉ s.chip.sliceMates sl → t.chip.obj m = s.chip.obj m) ∧
      OnlyParts s t ([base + 4, base + 8] ++ injRegs) [.wins, .house, .objects, .mem, .fresh, .ledger]) ∧
  -- 8: objectWrite
  (∀ (s : State) (src : Source) (base sl : Nat) (k : ObjKind),
    s.mayGo src base = true →
    objWindow base = some (sl, k) →
    objCount k ≤ (s.chip.winIn src base).index ∨ s.chip.objOk sl k (s.chip.winIn src base).index (s.chip.winIn src base).part (s.chip.winIn
      src base).state (s.chip.winIn src base).data = false →
    Does (.objectWrite src base) s fun t =>
      WinDone t base 2 { code := 6 } ∧ (k = .group ∧ (s.chip.winIn src base).part = 3 → (t.chip.obj sl).heldGroup = []) ∧ (k = .script ∧
        (s.chip.winIn src base).part = 3 → (t.chip.obj sl).heldScript = []) ∧
      (∀ m, t.chip.obj m = { s.chip.obj m with heldGroup := (t.chip.obj m).heldGroup, heldScript := (t.chip.obj m).heldScript }) ∧
        OnlyParts s t [base + 4, base + 8] [.wins, .house, .objects]) ∧
  -- 9: objectWrite
  (∀ (s : State) (src : Source) (base : Nat),
    s.mayGo src base = true →
    objWindow base = none →
    Does (.objectWrite src base) s fun t => WinDone t base 2 { code := 6 } ∧ OnlyParts s t [base + 4, base + 8] [.wins, .house]) ∧
  -- 10: resetBuckets
  (∀ (s : State) (src : Source) (sl : Nat),
    sl < 8 ∧ s.mayGo src (meterWin sl) = true →
    (s.chip.sliceMates sl).Nodup ∧ sl ∈ s.chip.sliceMates sl →
    (s.chip.winIn src (meterWin sl)).index < 8192 →
    Does (.resetBuckets src sl) s fun t =>
      WinDone t (meterWin sl) 3 { code := 0 } ∧
      (∀ m ∈ s.chip.sliceMates sl, t.chip.obj m
        = { s.chip.obj m with meters := (s.chip.obj m).meters.set (s.chip.winIn src (meterWin sl)).index { s.chip.meter m (s.chip.winIn src (meterWin sl)).index with tc := Bucket.full (s.chip.meter m (s.chip.winIn src (meterWin sl)).index).cbs, tp := Bucket.full (s.chip.meter m (s.chip.winIn src (meterWin sl)).index).pbs } })
        ∧ (∀ m, m ∉ s.chip.sliceMates sl → t.chip.obj m = s.chip.obj m) ∧
      OnlyParts s t [meterWin sl + 4, meterWin sl + 8] [.wins, .house, .objects]) ∧
  -- 11: resetBuckets
  (∀ (s : State) (src : Source) (sl : Nat),
    sl < 8 ∧ s.mayGo src (meterWin sl) = true →
    8192 ≤ (s.chip.winIn src (meterWin sl)).index →
    Does (.resetBuckets src sl) s fun t => WinDone t (meterWin sl) 3 { code := 6 } ∧
      OnlyParts s t [meterWin sl + 4, meterWin sl + 8] [.wins, .house]) ∧
  -- 12: groupHeadRead
  (∀ (s : State) (src : Source) (sl : Nat),
    sl < 8 ∧ s.mayGo src (headWin sl) = true →
    (s.chip.winIn src (headWin sl)).index < 131072 →
    Does (.groupHeadRead src sl) s fun t =>
      WinDone t (headWin sl) 1
        { code := 0, data := some (BitVec.ofNat 256 ((s.chip.obj sl).heads.look (s.chip.winIn src (headWin sl)).index).toNat), seq := some ((s.chip.obj sl).headSeq.look (s.chip.winIn src (headWin sl)).index), poison := s.chip.poisoned (U.sliceBlk sl 0x58) (Chip.headWord (s.chip.winIn src (headWin sl)).index) }
        ∧
      OnlyParts s t ([headWin sl + 4, headWin sl + 8] ++ errRegs (U.sliceBlk sl 0x58)) ([.wins, .house] ++ [.mem, .ledger])) ∧
  -- 13: groupHeadRead
  (∀ (s : State) (src : Source) (sl : Nat),
    sl < 8 ∧ s.mayGo src (headWin sl) = true →
    131072 ≤ (s.chip.winIn src (headWin sl)).index →
    Does (.groupHeadRead src sl) s fun t => WinDone t (headWin sl) 1 { code := 6 } ∧
      OnlyParts s t [headWin sl + 4, headWin sl + 8] [.wins, .house]) ∧
  -- 14: groupHeadWriteIfSeq
  (∀ (s : State) (src : Source) (sl i : Nat) (e : Word) (lg : Bool),
    sl < 8 ∧ s.mayGo src (headWin sl) = true →
    (s.chip.sliceMates sl).Nodup ∧ sl ∈ s.chip.sliceMates sl →
    i = (s.chip.winIn src (headWin sl)).index ∧ e = BitVec.ofNat 64 (bits (s.chip.winIn src (headWin sl)).data 63 0) →
    i < 131072 ∧ bits e 22 16 = 0 ∧ (s.chip.winIn src (headWin sl)).seq = (s.chip.obj sl).headSeq.look i →
    s.chip.judge src (vValidity (s.chip.vGet .head sl i)) (vValidity e) (bits (s.chip.vGet .head sl i) 30 0 == bits e 30 0) = .accept lg →
    Does (.groupHeadWriteIfSeq src sl) s fun t =>
      WinDone t (headWin sl) 5 { code := 0 } ∧
      (∀ m ∈ s.chip.sliceMates sl, t.chip.obj m
        = { s.chip.obj m with heads := (s.chip.obj m).heads.set i e, headSeq := (s.chip.obj m).headSeq.set i (((s.chip.obj m).headSeq.look i + 1) % 65536) })
        ∧ (∀ m, m ∉ s.chip.sliceMates sl → t.chip.obj m = s.chip.obj m) ∧
      t.chip.accord.log = (if lg then
        { place := .head sl i, valid := (vValidity (s.chip.vGet .head sl i)).valid, vfrom := (vValidity (s.chip.vGet .head sl i)).vfrom, vuntil := (vValidity (s.chip.vGet .head sl i)).vuntil }
        :: s.chip.accord.log else s.chip.accord.log) ∧
      OnlyParts s t ([headWin sl + 4, headWin sl + 8] ++ [R.ACCORD_LOG, R.ACCORD_STATUS] ++ injRegs) ([.wins, .house, .objects, .mem,
        .fresh, .ledger] ++ [.accord])) ∧
  -- 15: groupHeadWriteIfSeq
  (∀ (s : State) (src : Source) (sl i r : Nat) (e : Word),
    sl < 8 ∧ s.mayGo src (headWin sl) = true →
    i = (s.chip.winIn src (headWin sl)).index ∧ e = BitVec.ofNat 64 (bits (s.chip.winIn src (headWin sl)).data 63 0) →
    i < 131072 ∧ bits e 22 16 = 0 ∧ (s.chip.winIn src (headWin sl)).seq = (s.chip.obj sl).headSeq.look i →
    s.chip.judge src (vValidity (s.chip.vGet .head sl i)) (vValidity e) (bits (s.chip.vGet .head sl i) 30 0 == bits e 30 0) = .refuse r ∧
      r < 8 →
    Does (.groupHeadWriteIfSeq src sl) s fun t => WinDone t (headWin sl) 5 { code := 5 } ∧ t.chip.get 0 R.ACCORD_REFUSAL_rule = r ∧
      t.chip.get 0 R.ACCORD_EVENT_refused = 1 ∧ t.chip.reg C.refused_writes = s.chip.reg C.refused_writes + 1 ∧
      OnlyParts s t ([headWin sl + 4, headWin sl + 8] ++ [R.ACCORD_REFUSAL, R.ACCORD_REFUSAL_INDEX, R.ACCORD_EVENT,
      C.refused_writes]) [.wins, .house]) ∧
  -- 16: groupHeadWriteIfSeq
  (∀ (s : State) (src : Source) (sl i : Nat) (e : Word),
    sl < 8 ∧ s.mayGo src (headWin sl) = true →
    i = (s.chip.winIn src (headWin sl)).index ∧ e = BitVec.ofNat 64 (bits (s.chip.winIn src (headWin sl)).data 63 0) →
    131072 ≤ i ∨ bits e 22 16 ≠ 0 ∨ (s.chip.winIn src (headWin sl)).seq ≠ (s.chip.obj sl).headSeq.look i →
    Does (.groupHeadWriteIfSeq src sl) s fun t => WinDone t (headWin sl) 5 { code := if i < 131072 ∧ bits e 22 16 = 0 then 4 else 6 } ∧
      OnlyParts s t [headWin sl + 4, headWin sl + 8] [.wins, .house]) ∧
  -- 17: settlerVisit
  (∀ (s : State) (p : SettlePlace),
    s.runs .core = true →
    s.chip.placeOk p = true ∧ s.chip.inReset (Chip.placeUnit p) = false ∧ s.chip.get 0 R.ACCORD_OLDEST_number ≠ 0 →
    U.level (Chip.placeUnit p) ≠ 4 ∨ s.chip.house.sleep.look (U.index (Chip.placeUnit p)) = 0 →
    s.chip.settle (s.chip.placeValidity p) ≠ s.chip.placeValidity p →
    Does (.settlerVisit p) s fun t =>
      t.chip.accord = { s.chip.accord with settleAt := Chip.placeRank p + 1 } ∧
        t.chip.reg C.settle_passes = s.chip.reg C.settle_passes + (if s.chip.accord.settleAt ≠ 0 ∧
        Chip.placeRank p + 1 ≤ s.chip.accord.settleAt then 1 else 0) ∧
      t.chip.reg C.settle_freed = s.chip.reg C.settle_freed + (if (s.chip.placeValidity p).valid = true ∧
        (s.chip.settle (s.chip.placeValidity p)).valid = false then 1 else 0) ∧
      OnlyParts s t ([C.settle_freed, C.settle_passes] ++ injRegs ++ s.chip.placeRegs p) ([.accord] ++ tableParts)) ∧
  -- 18: settlerVisit
  (∀ (s : State) (sl i : Nat) (p : SettlePlace) (v : Validity),
    s.runs .core = true →
    (s.chip.sliceMates sl).Nodup ∧ sl ∈ s.chip.sliceMates sl →
    p = .head sl i →
    s.chip.placeOk p = true ∧ s.chip.inReset (Chip.placeUnit p) = false ∧ s.chip.get 0 R.ACCORD_OLDEST_number ≠ 0 →
    s.chip.house.sleep.look sl = 0 ∧ sl < 8 →
    vValidity (s.chip.vGet .head sl i) = v ∧ s.chip.settle v ≠ v →
    Does (.settlerVisit p) s fun t =>
      (∀ m ∈ s.chip.sliceMates sl, vValidity (t.chip.vGet .head m i) = s.chip.settle v ∧
        bits (t.chip.vGet .head m i) 30 0 = bits (s.chip.vGet .head sl i) 30 0 ∧
        t.chip.vSeq .head m i = (s.chip.vSeq .head m i + 1) % 65536 ∧
        ∀ j, j ≠ i → t.chip.vGet .head m j = s.chip.vGet .head m j) ∧
      OnlyParts s t ([C.settle_freed, C.settle_passes] ++ injRegs) [.accord, .objects, .mem, .fresh, .ledger]) ∧
  -- 19: settlerVisit
  (∀ (s : State) (p : SettlePlace),
    s.runs .core = true →
    s.chip.placeOk p = true ∧ s.chip.inReset (Chip.placeUnit p) = false ∧ s.chip.get 0 R.ACCORD_OLDEST_number ≠ 0 →
    U.level (Chip.placeUnit p) ≠ 4 ∨ s.chip.house.sleep.look (U.index (Chip.placeUnit p)) = 0 →
    s.chip.settle (s.chip.placeValidity p) = s.chip.placeValidity p →
    Does (.settlerVisit p) s fun t => t.chip.accord = { s.chip.accord with settleAt := Chip.placeRank p + 1 } ∧
      t.chip.reg C.settle_passes = s.chip.reg C.settle_passes + (if s.chip.accord.settleAt ≠ 0 ∧
      Chip.placeRank p + 1 ≤ s.chip.accord.settleAt then 1 else 0) ∧ OnlyParts s t [C.settle_passes] [.accord]) ∧
  -- 20: settlerVisit
  (∀ (s : State) (p : SettlePlace),
    s.runs .core = true →
    s.chip.placeOk p = true ∧ s.chip.inReset (Chip.placeUnit p) = false ∧ s.chip.get 0 R.ACCORD_OLDEST_number ≠ 0 →
    U.level (Chip.placeUnit p) = 4 ∧ (s.chip.house.sleep.look (U.index (Chip.placeUnit p)) = 1 ∨
      s.chip.house.sleep.look (U.index (Chip.placeUnit p)) = 2) ∧ U.index (Chip.placeUnit p) < 8 →
    Does (.settlerVisit p) s fun t =>
      t.chip.house = { s.chip.house with cause := s.chip.house.cause ||| BitVec.ofNat 8 (2 ^ U.index (Chip.placeUnit p)) } ∧
        OnlyParts s t [] [.house]) ∧
  -- 21: settlerVisit
  (∀ (s : State) (p : SettlePlace),
    s.runs .core = true →
    s.chip.placeOk p = false ∨ s.chip.inReset (Chip.placeUnit p) = true ∨ s.chip.get 0 R.ACCORD_OLDEST_number = 0 →
    Does (.settlerVisit p) s fun t => OnlyRegs s t [])

/-- CELL_SEND puts the next cell of the stream picked, or a barrier that is due, at the end of the link with the next sequence number, and
takes a credit for each other slice. PLANE_CELL_ARRIVAL and SLICE_CELL_ARRIVAL take the cell expected, with an acknowledgement; of a
damaged one, or of the first out of order, they ask again, and a further one is discarded; too many requests in a row fail the link. A
plane puts the cell taken into the buffer of each destination; PLANE_CELL_FORWARD sends the oldest down, loopback cells first, and
returns the credit; an uncorrectable one is discarded, counted and reported. A slice lands the cell in the half's buffer; in the wake
store while it sleeps, in the hold for barriers while its epoch is new to it, nowhere in reset. LINK_ACK frees the replay buffer up to
the cell, RESEND_REQUEST sends again from it, one without a request does nothing. FABRIC_CRC_WINDOW reports once over the threshold.
COACH_HEAD_ENQUEUE of a head copy that its port and queue take moves it to the end of its queue, COACH_TIMEOUT after the longest wait
ends it and counts it; else they do nothing. A plane that does not run, or a slice that the profile lacks, does nothing. -/
def Obligations.FabricCarriesCells : Prop :=
  -- 1: cellSend
  (∀ (s : State) (sl k id : Nat) (v : Stream),
    s.runs .core = true →
    s.chip.alive (U.slice sl) = true ∧ s.chip.house.sleep.look sl = 0 ∧ sl < 8 ∧ s.chip.planeRuns k = true ∧
      s.chip.linkRoom k sl true = true →
    (s.chip.barriersDue.look (sl * 4 + k) = [] ∨ (s.chip.pinned sl k).any (fun x => x.2.sent != 0) = true ∨
      s.chip.credits k sl [((s.chip.barriersDue.look (sl * 4 + k)).headD 0)] = false) →
    (s.chip.pickStream k sl (s.chip.pinned sl k) 0 ((s.chip.pinned sl k).filter fun x => x.2.sent != 0).length = some (id, v)) →
    Does (.cellSend sl k) s fun t =>
      (t.chip.lnk k sl true)
        = { (s.chip.lnk k sl true) with next := ((s.chip.lnk k sl true).next + 1) % 65536, replay := (s.chip.lnk k sl true).replay ++ [{ seq := (s.chip.lnk k sl true).next, first := v.sent == 0, last := (s.chip.streamWhole v && decide (cellsOf (s.chip.streamBytes v) ≤ v.sent + 1)), bad := (s.chip.streamWhole v && decide (cellsOf (s.chip.streamBytes v) ≤ v.sent + 1)) && (s.chip.fr v.frame).bad, mcast := v.mcast, len := Nat.min 256 (s.chip.streamBytes v - 256 * v.sent), src := sl, dst := if v.mcast then 0 else (maskList v.mask).headD 0, epoch := (if v.sent = 0 then s.chip.fabEpoch sl else v.epoch), tag := (if v.sent = 0 then s.chip.freeTag sl k id else v.tag), group := if v.mcast then Wb.group v.wb else 0, slot := ((s.chip.fr v.frame).slot).getD 0, cls := Wb.cls v.wb, mask := if v.mcast then v.mask else 0, stream := id, index := v.sent }], flight := (s.chip.lnk k sl true).flight ++ [{ seq := (s.chip.lnk k sl true).next, first := v.sent == 0, last := (s.chip.streamWhole v && decide (cellsOf (s.chip.streamBytes v) ≤ v.sent + 1)), bad := (s.chip.streamWhole v && decide (cellsOf (s.chip.streamBytes v) ≤ v.sent + 1)) && (s.chip.fr v.frame).bad, mcast := v.mcast, len := Nat.min 256 (s.chip.streamBytes v - 256 * v.sent), src := sl, dst := if v.mcast then 0 else (maskList v.mask).headD 0, epoch := (if v.sent = 0 then s.chip.fabEpoch sl else v.epoch), tag := (if v.sent = 0 then s.chip.freeTag sl k id else v.tag), group := if v.mcast then Wb.group v.wb else 0, slot := ((s.chip.fr v.frame).slot).getD 0, cls := Wb.cls v.wb, mask := if v.mcast then v.mask else 0, stream := id, index := v.sent }] }
        ∧
      t.chip.strm id = { v with sent := v.sent + 1, epoch := (if v.sent = 0 then s.chip.fabEpoch sl else v.epoch), tag := (if v.sent = 0 then s.chip.freeTag sl k id else v.tag) }
        ∧
      (∀ d ∈ maskList v.mask, d ≠ sl → (t.chip.pl k).used.look (sl * 8 + d) = (s.chip.pl k).used.look (sl * 8 + d) + 1) ∧
      t.chip.reg (s.chip.sliceCnt sl + C.cells_tx) = s.chip.reg (s.chip.sliceCnt sl + C.cells_tx) + 1 ∧
      OnlyParts s t ([s.chip.sliceCnt sl + C.cells_tx, s.chip.sliceCnt sl + C.mc_frames,
        s.chip.sliceCnt sl + C.mc_slice_copies] ++ ((s.chip.fr v.frame).slot.toList.map Chip.inflightReg)) [.links, .planes, .streams,
        .frames]) ∧
  -- 2: cellSend
  (∀ (s : State) (sl k d : Nat) (l : List Nat),
    s.runs .core = true →
    s.chip.alive (U.slice sl) = true ∧ s.chip.house.sleep.look sl = 0 ∧ sl < 8 ∧ s.chip.planeRuns k = true ∧
      s.chip.linkRoom k sl true = true →
    (s.chip.barriersDue.look (sl * 4 + k) = d :: l ∧ (s.chip.pinned sl k).any (fun x => x.2.sent != 0) = false ∧
      s.chip.credits k sl [d] = true) →
    Does (.cellSend sl k) s fun t =>
      (t.chip.lnk k sl true).flight = (s.chip.lnk k sl true).flight ++
        [{ seq := (s.chip.lnk k sl true).next, barrier := true, src := sl, dst := d, epoch := s.chip.fabEpoch sl }] ∧
      t.chip.barriersDue.look (sl * 4 + k) = l ∧ t.chip.reg (s.chip.sliceCnt sl + C.cells_tx) =
        s.chip.reg (s.chip.sliceCnt sl + C.cells_tx) + 1 ∧
      OnlyParts s t [s.chip.sliceCnt sl + C.cells_tx] [.links, .planes, .barriersDue]) ∧
  -- 3: cellSend
  (∀ (s : State) (sl k : Nat),
    s.runs .core = true →
    ((s.chip.alive (U.slice sl) = false ∨ s.chip.house.sleep.look sl ≠ 0 ∨ 8 ≤ sl ∨ s.chip.planeRuns k = false ∨
      s.chip.linkRoom k sl true = false) ∨ ((s.chip.barriersDue.look (sl * 4 + k) = [] ∨
      (s.chip.pinned sl k).any (fun x => x.2.sent != 0) = true) ∧
      s.chip.pickStream k sl (s.chip.pinned sl k) 0 ((s.chip.pinned sl k).filter fun x => x.2.sent != 0).length = none)) →
    Does (.cellSend sl k) s fun t => OnlyRegs s t []) ∧
  -- 4: planeCellArrival
  (∀ (s : State) (k sl : Nat) (x : Cell) (l : List Cell),
    s.runs .core = true →
    s.chip.sliceEnabled sl = true ∧ sl < 8 ∧ s.chip.planeRuns k = true →
    ((s.chip.injected (planeUnit k) 3 != 0 && s.chip.ledger.inj.any fun i => i.addr % 8 == sl) = false) →
    (s.chip.lnk k sl true).flight = x :: l ∧ x.seq = (s.chip.lnk k sl true).expect →
    Does (.planeCellArrival k sl false) s fun t =>
      (t.chip.lnk k sl true)
        = { (s.chip.lnk k sl true) with flight := l, expect := ((s.chip.lnk k sl true).expect + 1) % 65536, asked := false, nakRun := 0, acks := (s.chip.lnk k sl true).acks ++ [x.seq] }
        ∧
      (∀ d, (t.chip.pl k).loop.look d = (s.chip.pl k).loop.look d ++ (if d = sl ∧
        d ∈ (if x.mcast then maskList x.mask else [x.dst]) then [x] else [])) ∧
      (∀ d, (t.chip.pl k).outs.look d = (s.chip.pl k).outs.look d ++ (if d ≠ sl ∧
        d ∈ (if x.mcast then maskList x.mask else [x.dst]) then [x] else [])) ∧
      t.chip.reg (A.plane k + 0x40 * sl + C.cells_in) = s.chip.reg (A.plane k + 0x40 * sl + C.cells_in) + 1 ∧
      t.chip.reg (A.plane k + C.barriers) = s.chip.reg (A.plane k + C.barriers) + (if x.barrier then 1 else 0) ∧
      OnlyParts s t [A.plane k + 0x40 * sl + C.cells_in, A.plane k + C.barriers] [.links, .planes]) ∧
  -- 5: planeCellArrival
  (∀ (s : State) (k sl : Nat) (damaged : Bool) (x : Cell) (l : List Cell),
    s.runs .core = true →
    s.chip.sliceEnabled sl = true ∧ sl < 8 ∧ s.chip.planeRuns k = true →
    (damaged = true ∨ (s.chip.injected (planeUnit k) 3 != 0 && s.chip.ledger.inj.any fun i => i.addr % 8 == sl) = true) →
    (s.chip.lnk k sl true).flight = x :: l →
    ((if (s.chip.lnk k sl true).nakRun ≠ 0 ∧ (s.chip.lnk k sl true).lastNak =
      (s.chip.lnk k sl true).expect then (s.chip.lnk k sl true).nakRun + 1 else 1) < s.chip.get (A.plane k) R.PLANE_REPLAY_max_naks) →
    Does (.planeCellArrival k sl damaged) s fun t =>
      (t.chip.lnk k sl true)
        = { (s.chip.lnk k sl true) with flight := l, badCells := (s.chip.lnk k sl true).badCells + 1, asked := true, naks := (s.chip.lnk k sl true).naks ++ [(s.chip.lnk k sl true).expect], lastNak := (s.chip.lnk k sl true).expect, nakRun := (if (s.chip.lnk k sl true).nakRun ≠ 0 ∧ (s.chip.lnk k sl true).lastNak = (s.chip.lnk k sl true).expect then (s.chip.lnk k sl true).nakRun + 1 else 1) }
        ∧
      t.chip.reg (A.plane k + 0x40 * sl + C.plane_crc_err) = s.chip.reg (A.plane k + 0x40 * sl + C.plane_crc_err) + 1 ∧
      OnlyParts s t ([A.plane k + 0x40 * sl + C.plane_crc_err] ++ injRegs) [.links, .ledger]) ∧
  -- 6: planeCellArrival
  (∀ (s : State) (k sl : Nat) (x : Cell) (l : List Cell),
    s.runs .core = true →
    s.chip.sliceEnabled sl = true ∧ sl < 8 ∧ s.chip.planeRuns k = true →
    ((s.chip.injected (planeUnit k) 3 != 0 && s.chip.ledger.inj.any fun i => i.addr % 8 == sl) = false) →
    (s.chip.lnk k sl true).flight = x :: l ∧ x.seq ≠ (s.chip.lnk k sl true).expect →
    ((s.chip.lnk k sl true).asked = true ∨ (if (s.chip.lnk k sl true).nakRun ≠ 0 ∧
      (s.chip.lnk k sl true).lastNak = (s.chip.lnk k sl true).expect then (s.chip.lnk k sl true).nakRun + 1 else 1) < s.chip.get (A.plane k)
      R.PLANE_REPLAY_max_naks) →
    Does (.planeCellArrival k sl false) s fun t =>
      (t.chip.lnk k sl true) = (if (s.chip.lnk k sl true).asked then { (s.chip.lnk k sl true) with flight := l } else
        { (s.chip.lnk k sl true) with flight := l, asked := true, naks := (s.chip.lnk k sl true).naks ++ [(s.chip.lnk k sl true).expect], lastNak := (s.chip.lnk k sl true).expect, nakRun := (if (s.chip.lnk k sl true).nakRun ≠ 0 ∧ (s.chip.lnk k sl true).lastNak = (s.chip.lnk k sl true).expect then (s.chip.lnk k sl true).nakRun + 1 else 1) })
        ∧
      OnlyParts s t [] [.links]) ∧
  -- 7: planeCellArrival
  (∀ (s : State) (k sl : Nat) (x : Cell) (l : List Cell),
    s.runs .core = true →
    s.chip.sliceEnabled sl = true ∧ sl < 8 ∧ s.chip.planeRuns k = true →
    (s.chip.lnk k sl true).flight = x :: l →
    (s.chip.get (A.plane k) R.PLANE_REPLAY_max_naks ≤ (if (s.chip.lnk k sl true).nakRun ≠ 0 ∧
      (s.chip.lnk k sl true).lastNak = (s.chip.lnk k sl true).expect then (s.chip.lnk k sl true).nakRun + 1 else 1)) →
    Does (.planeCellArrival k sl true) s fun t =>
      t.chip.planeState k = 2 ∧ t.chip.get (A.plane k) R.PLANE_STATUS_cause = 1 ∧ t.chip.get (A.plane k) R.PLANE_EVENT_link_fail = 1 ∧
        (t.chip.pl k).outs = [] ∧ (t.chip.lnk k sl true) = {} ∧
      t.nv = s.nv ∧ t.fuses = s.fuses ∧ t.pending = s.pending) ∧
  -- 8: planeCellArrival
  (∀ (s : State) (k sl : Nat) (damaged : Bool),
    s.runs .core = true →
    (s.chip.sliceEnabled sl = false ∨ 8 ≤ sl ∨ s.chip.planeRuns k = false) ∨ (s.chip.lnk k sl true).flight = [] →
    Does (.planeCellArrival k sl damaged) s fun t => OnlyRegs s t []) ∧
  -- 9: planeCellForward
  (∀ (s : State) (k sl : Nat) (x : Cell) (l m : List Cell),
    s.runs .core = true →
    s.chip.sliceEnabled sl = true ∧ sl < 8 ∧ s.chip.planeRuns k = true →
    s.chip.linkRoom k sl false = true →
    ((s.chip.pl k).loop.look sl = x :: l ∧ m = (s.chip.pl k).outs.look sl) ∨ ((s.chip.pl k).loop.look sl = [] ∧ l = [] ∧
      (s.chip.pl k).outs.look sl = x :: m) →
    Does (.planeCellForward k sl false) s fun t =>
      (t.chip.lnk k sl false)
        = { (s.chip.lnk k sl false) with next := ((s.chip.lnk k sl false).next + 1) % 65536, flight := (s.chip.lnk k sl false).flight ++ [{ x with seq := (s.chip.lnk k sl false).next }], replay := (s.chip.lnk k sl false).replay ++ [{ x with seq := (s.chip.lnk k sl false).next }] }
        ∧
      (t.chip.pl k).loop.look sl = l ∧ (t.chip.pl k).outs.look sl = m ∧
      ((s.chip.pl k).loop.look sl = [] → (t.chip.pl k).used.look (x.src * 8 + sl) = (s.chip.pl k).used.look (x.src * 8 + sl) - 1) ∧
      t.chip.reg (A.plane k + 0x40 * sl + C.cells_out) = s.chip.reg (A.plane k + 0x40 * sl + C.cells_out) + 1 ∧
      OnlyParts s t [A.plane k + 0x40 * sl + C.cells_out] [.links, .planes]) ∧
  -- 10: planeCellForward
  (∀ (s : State) (k sl : Nat) (x : Cell) (l m : List Cell),
    s.runs .core = true →
    s.chip.sliceEnabled sl = true ∧ sl < 8 ∧ s.chip.planeRuns k = true →
    s.chip.linkRoom k sl false = true →
    ((s.chip.pl k).loop.look sl = x :: l ∧ m = (s.chip.pl k).outs.look sl) ∨ ((s.chip.pl k).loop.look sl = [] ∧ l = [] ∧
      (s.chip.pl k).outs.look sl = x :: m) →
    x.barrier = true ∨ s.chip.cellsAhead k sl x ≠ [] →
    (((s.chip.pl k).errors.filter fun t => !(s.chip.passedUs t 1000)).length < 4) →
    Does (.planeCellForward k sl true) s fun t =>
      (t.chip.pl k).loop.look sl = l ∧ (t.chip.pl k).outs.look sl = m ∧
        (t.chip.pl k).errors = ((s.chip.pl k).errors.filter fun t => !(s.chip.passedUs t 1000)) ++ [s.chip.now] ∧
      (x.barrier = true → t.chip.links = s.chip.links) ∧ (x.barrier = false →
        (t.chip.lnk k sl false).flight.all (fun y => y.barrier || y.stream != x.stream || y.lost) = true) ∧
      t.chip.reg (A.plane k + C.cells_discarded) = s.chip.reg (A.plane k + C.cells_discarded) + 1 ∧
      t.chip.ledger = s.chip.sent [s.chip.msgOf (planeUnit k) K.cellPoison 3] ∧
        OnlyParts s t [A.plane k + C.cells_discarded] [.links, .planes, .heldCells, .house, .ledger]) ∧
  -- 11: planeCellForward
  (∀ (s : State) (k sl : Nat) (x : Cell) (m : List Cell),
    s.runs .core = true →
    s.chip.sliceEnabled sl = true ∧ sl < 8 ∧ s.chip.planeRuns k = true →
    s.chip.linkRoom k sl false = true →
    (s.chip.pl k).loop.look sl = [] ∧ (s.chip.pl k).outs.look sl = x :: m →
    x.barrier = false ∧ x.first = false ∧ x.last = false ∧ s.chip.cellsAhead k sl x = [] ∧ s.chip.openArrival sl x.src k x.tag = none →
    (((s.chip.pl k).errors.filter fun t => !(s.chip.passedUs t 1000)).length < 4) →
    Does (.planeCellForward k sl true) s fun t =>
      (t.chip.pl k).outs.look sl = m ∧ t.chip.reg (A.plane k + C.cells_discarded) = s.chip.reg (A.plane k + C.cells_discarded) + 1 ∧
      t.chip.ledger = s.chip.sent [s.chip.msgOf (planeUnit k) K.cellPoison 3] ∧
        OnlyParts s t [A.plane k + C.cells_discarded] [.planes, .ledger]) ∧
  -- 12: planeCellForward
  (∀ (s : State) (k sl : Nat) (poisoned : Bool),
    s.runs .core = true →
    (s.chip.sliceEnabled sl = false ∨ 8 ≤ sl ∨ s.chip.planeRuns k = false) ∨ s.chip.linkRoom k sl false = false ∨
      ((s.chip.pl k).loop.look sl = [] ∧ (s.chip.pl k).outs.look sl = []) →
    Does (.planeCellForward k sl poisoned) s fun t => OnlyRegs s t []) ∧
  -- 13: sliceCellArrival
  (∀ (s : State) (sl k a i p : Nat) (x : Cell) (l : List Cell) (v : Arrival),
    s.runs .core = true →
    s.chip.sliceEnabled sl = true ∧ sl < 8 ∧ s.chip.planeRuns k = true →
    (s.chip.lnk k sl false).flight = x :: l ∧ x.seq = (s.chip.lnk k sl false).expect ∧ x.barrier = false →
    x.first = false ∧ x.last = false ∧ x.lost = false →
    s.chip.house.sleep.look sl = 0 ∧ s.chip.inReset (U.slice sl) = false ∧ s.chip.newEpoch sl x = false →
    (s.chip.streams.look x.stream).isSome = true ∧ s.chip.openArrival sl x.src k x.tag = some a ∧ v = s.chip.arr a ∧
      p = s.chip.lowestFree (sl / 4) →
    v.dead = false ∧ 0 < v.reserved ∧ v.copies.length ≤ 1 ∧ s.chip.reqOf (sl / 4) v.lodger = some i →
    (s.chip.grp (U.halfBlk (sl / 4) 0)).poison = [] ∧ s.chip.lowestFree (sl / 4) < halfCells ∧ s.chip.injected (s.chip.arr a).lodger 2 = 0 →
    ((s.chip.arrivalPorts a).all (fun q => s.chip.get (A.port q) R.GATE_CTRL_enable == 0) = true) →
    Does (.sliceCellArrival sl k false) s fun t =>
      (t.chip.lnk k sl false)
        = { (s.chip.lnk k sl false) with flight := l, expect := ((s.chip.lnk k sl false).expect + 1) % 65536, asked := false, nakRun := 0, acks := (s.chip.lnk k sl false).acks ++ [x.seq] }
        ∧ t.chip.reg (s.chip.sliceCnt sl + C.cells_rx) = s.chip.reg (s.chip.sliceCnt sl + C.cells_rx) + 1 ∧
        t.chip.arr a = { v with places := v.places ++ [.die p], bytesHeld := v.bytesHeld + x.len, reserved := v.reserved - 1, closed := false }
        ∧
      (t.chip.cellRec (sl / 4) p).count = 1 ∧ (t.chip.cellRec (sl / 4) p).lodger = s.chip.reqUnit (sl / 4) i ∧
      t.chip.reg (A.half (sl / 4) + 0x40 * i + C.alloc_cells) = s.chip.reg (A.half (sl / 4) + 0x40 * i + C.alloc_cells) + 1 ∧
      OnlyParts s t ([s.chip.sliceCnt sl + C.cells_rx, A.half (sl / 4) + 0x40 * i + C.alloc_cells, A.half (sl / 4) + R.INNK_STATUS,
        A.half (sl / 4) + R.INNK_SPILL_USED] ++ errRegs (U.halfBlk (sl / 4) 0) ++ injRegs) [.links, .arrivals, .innkeepers, .scheds, .mem,
        .fresh, .ledger]) ∧
  -- 14: sliceCellArrival
  (∀ (s : State) (sl k : Nat) (x : Cell) (l : List Cell),
    s.runs .core = true →
    s.chip.sliceEnabled sl = true ∧ sl < 8 ∧ s.chip.planeRuns k = true →
    (s.chip.lnk k sl false).flight = x :: l ∧ x.seq = (s.chip.lnk k sl false).expect ∧ x.barrier = false →
    s.chip.house.sleep.look sl ≠ 0 ∧ s.chip.inReset (U.slice sl) = false →
    Does (.sliceCellArrival sl k false) s fun t =>
      (s.chip.wakeFull sl = true → t.chip.links = s.chip.links ∧ t.chip.house = (s.chip.wakeCause sl).house) ∧
      (s.chip.wakeFull sl = false → (t.chip.lnk k sl false) =
        { (s.chip.lnk k sl false) with flight := l, expect := ((s.chip.lnk k sl false).expect + 1) % 65536, asked := false, nakRun := 0, acks := (s.chip.lnk k sl false).acks ++ [x.seq] }
        ∧ t.chip.reg (s.chip.sliceCnt sl + C.cells_rx) = s.chip.reg (s.chip.sliceCnt sl + C.cells_rx) + 1 ∧
        t.chip.house.wakeStore.look sl = s.chip.house.wakeStore.look sl ++ [.cell k x] ∧
        t.chip.house.cause = (s.chip.wakeCause sl).house.cause) ∧
      OnlyParts s t [s.chip.sliceCnt sl + C.cells_rx] [.links, .house]) ∧
  -- 15: sliceCellArrival
  (∀ (s : State) (sl k : Nat) (x : Cell) (l : List Cell),
    s.runs .core = true →
    s.chip.sliceEnabled sl = true ∧ sl < 8 ∧ s.chip.planeRuns k = true →
    (s.chip.lnk k sl false).flight = x :: l ∧ x.seq = (s.chip.lnk k sl false).expect ∧ x.barrier = false →
    s.chip.house.sleep.look sl = 0 ∧ s.chip.inReset (U.slice sl) = false ∧ s.chip.newEpoch sl x = true ∧ x.src < 8 →
    Does (.sliceCellArrival sl k false) s fun t =>
      (t.chip.lnk k sl false)
        = { (s.chip.lnk k sl false) with flight := l, expect := ((s.chip.lnk k sl false).expect + 1) % 65536, asked := false, nakRun := 0, acks := (s.chip.lnk k sl false).acks ++ [x.seq] }
        ∧ t.chip.reg (s.chip.sliceCnt sl + C.cells_rx) = s.chip.reg (s.chip.sliceCnt sl + C.cells_rx) + 1 ∧
        t.chip.heldCells.look (sl * 8 + x.src) = s.chip.heldCells.look (sl * 8 + x.src) ++ [(k, x)] ∧
        t.chip.get (A.slice sl) R.FAB_STATUS_holding = 1 ∧
      t.chip.heldSince.look (sl * 8 + x.src) = some ((s.chip.heldSince.look (sl * 8 + x.src)).getD s.chip.now) ∧
      t.chip.reg (s.chip.sliceCnt sl + C.held_frames) = s.chip.reg (s.chip.sliceCnt sl + C.held_frames) + (if x.first then 1 else 0) ∧
      OnlyParts s t [s.chip.sliceCnt sl + C.cells_rx, s.chip.sliceCnt sl + C.held_frames, A.slice sl + R.FAB_STATUS] [.links, .heldCells,
        .heldSince]) ∧
  -- 16: sliceCellArrival
  (∀ (s : State) (sl k : Nat) (x : Cell) (l : List Cell),
    s.runs .core = true →
    s.chip.sliceEnabled sl = true ∧ sl < 8 ∧ s.chip.planeRuns k = true →
    (s.chip.lnk k sl false).flight = x :: l ∧ x.seq = (s.chip.lnk k sl false).expect ∧ x.barrier = false →
    x.first = false ∧ x.last = false →
    (s.chip.inReset (U.slice sl) = true ∧ (s.chip.house.sleep.look sl = 0 ∨ s.chip.wakeFull sl = false)) ∨
      (s.chip.inReset (U.slice sl) = false ∧ s.chip.house.sleep.look sl = 0 ∧ s.chip.newEpoch sl x = false ∧
      s.chip.streams.look x.stream = none) →
    Does (.sliceCellArrival sl k false) s fun t => (t.chip.lnk k sl false) =
      { (s.chip.lnk k sl false) with flight := l, expect := ((s.chip.lnk k sl false).expect + 1) % 65536, asked := false, nakRun := 0, acks := (s.chip.lnk k sl false).acks ++ [x.seq] }
      ∧ t.chip.reg (s.chip.sliceCnt sl + C.cells_rx) = s.chip.reg (s.chip.sliceCnt sl + C.cells_rx) + 1 ∧
      OnlyParts s t [s.chip.sliceCnt sl + C.cells_rx] [.links]) ∧
  -- 17: sliceCellArrival
  (∀ (s : State) (sl k : Nat) (x : Cell) (l : List Cell),
    s.runs .core = true →
    s.chip.sliceEnabled sl = true ∧ sl < 8 ∧ s.chip.planeRuns k = true →
    (s.chip.lnk k sl false).flight = x :: l →
    ((if (s.chip.lnk k sl false).nakRun ≠ 0 ∧ (s.chip.lnk k sl false).lastNak =
      (s.chip.lnk k sl false).expect then (s.chip.lnk k sl false).nakRun + 1 else 1) < s.chip.get (A.plane k) R.PLANE_REPLAY_max_naks) →
    Does (.sliceCellArrival sl k true) s fun t =>
      (t.chip.lnk k sl false)
        = { (s.chip.lnk k sl false) with flight := l, badCells := (s.chip.lnk k sl false).badCells + 1, asked := true, naks := (s.chip.lnk k sl false).naks ++ [(s.chip.lnk k sl false).expect], lastNak := (s.chip.lnk k sl false).expect, nakRun := (if (s.chip.lnk k sl false).nakRun ≠ 0 ∧ (s.chip.lnk k sl false).lastNak = (s.chip.lnk k sl false).expect then (s.chip.lnk k sl false).nakRun + 1 else 1) }
        ∧
      t.chip.reg (s.chip.sliceCnt sl + C.fab_crc_err) = s.chip.reg (s.chip.sliceCnt sl + C.fab_crc_err) + 1 ∧
        OnlyParts s t [s.chip.sliceCnt sl + C.fab_crc_err] [.links]) ∧
  -- 18: sliceCellArrival
  (∀ (s : State) (sl k : Nat) (damaged : Bool),
    s.runs .core = true →
    (s.chip.sliceEnabled sl = false ∨ 8 ≤ sl ∨ s.chip.planeRuns k = false) ∨ (s.chip.lnk k sl false).flight = [] →
    Does (.sliceCellArrival sl k damaged) s fun t => OnlyRegs s t []) ∧
  -- 19: linkAck
  (∀ (s : State) (k sl n : Nat) (up : Bool) (a m : List Nat) (b r : List Cell) (x : Cell),
    s.runs .core = true →
    s.chip.sliceEnabled sl = true ∧ sl < 8 ∧ s.chip.planeRuns k = true →
    (s.chip.lnk k sl up).acks = a ++ n :: m ∧ n ∉ a →
    ((s.chip.lnk k sl up).replay = b ++ x :: r ∧ b.all (fun y => y.seq != n) = true ∧ x.seq = n) →
    Does (.linkAck k sl up n) s fun t => (t.chip.lnk k sl up) = { (s.chip.lnk k sl up) with acks := m, replay := r } ∧
      OnlyParts s t [] [.links]) ∧
  -- 20: linkAck
  (∀ (s : State) (k sl n : Nat) (up : Bool),
    s.runs .core = true →
    (s.chip.sliceEnabled sl = false ∨ 8 ≤ sl ∨ s.chip.planeRuns k = false) ∨ n ∉ (s.chip.lnk k sl up).acks →
    Does (.linkAck k sl up n) s fun t => OnlyRegs s t []) ∧
  -- 21: resendRequest
  (∀ (s : State) (k sl n : Nat) (up : Bool) (a m : List Nat) (b r : List Cell) (x : Cell),
    s.runs .core = true →
    s.chip.sliceEnabled sl = true ∧ sl < 8 ∧ s.chip.planeRuns k = true →
    (s.chip.lnk k sl up).naks = a ++ n :: m ∧ n ∉ a →
    ((s.chip.lnk k sl up).replay = b ++ x :: r ∧ b.all (fun y => y.seq != n) = true ∧ x.seq = n) →
    Does (.resendRequest k sl up n) s fun t =>
      (t.chip.lnk k sl up) = { (s.chip.lnk k sl up) with naks := m, flight := (s.chip.lnk k sl up).flight ++ x :: r } ∧
      t.chip.reg (if up then s.chip.sliceCnt sl + C.fab_resends else A.plane k + 0x40 * sl + C.plane_resends) =
        s.chip.reg (if up then s.chip.sliceCnt sl + C.fab_resends else A.plane k + 0x40 * sl + C.plane_resends) + BitVec.ofNat 64 (r.length
        + 1) ∧ OnlyParts s t [(if up then s.chip.sliceCnt sl + C.fab_resends else A.plane k + 0x40 * sl + C.plane_resends)] [.links]) ∧
  -- 22: resendRequest
  (∀ (s : State) (k sl n : Nat) (up : Bool),
    s.runs .core = true →
    (s.chip.sliceEnabled sl = false ∨ 8 ≤ sl ∨ s.chip.planeRuns k = false) ∨ n ∉ (s.chip.lnk k sl up).naks →
    Does (.resendRequest k sl up n) s fun t => OnlyRegs s t []) ∧
  -- 23: fabricCrcWindow
  (∀ (s : State) (k sl : Nat) (up : Bool),
    s.runs .core = true →
    s.chip.sliceEnabled sl = true ∧ sl < 8 ∧ s.chip.planeRuns k = true →
    s.chip.get (A.plane k) R.PLANE_REPLAY_crc_alarm ≠ 0 ∧ s.chip.get (A.plane k) R.PLANE_REPLAY_crc_alarm < (s.chip.lnk k sl up).badCells →
    Does (.fabricCrcWindow k sl up) s fun t =>
      (t.chip.lnk k sl up) = { (s.chip.lnk k sl up) with badCells := 0, alarmed := true } ∧
      ((s.chip.lnk k sl up).alarmed = false → t.chip.get (A.plane k) R.PLANE_EVENT_crc_alarm = 1) ∧
      t.chip.ledger = s.chip.sent (if (s.chip.lnk k sl up).alarmed then [] else [s.chip.msgOf (planeUnit k) K.fabricCrc 1 sl]) ∧
        OnlyParts s t (if (s.chip.lnk k sl up).alarmed then [] else [A.plane k + R.PLANE_EVENT]) [.links, .ledger]) ∧
  -- 24: fabricCrcWindow
  (∀ (s : State) (k sl : Nat) (up : Bool),
    s.runs .core = true →
    s.chip.sliceEnabled sl = true ∧ sl < 8 ∧ s.chip.planeRuns k = true →
    s.chip.get (A.plane k) R.PLANE_REPLAY_crc_alarm = 0 ∨ (s.chip.lnk k sl up).badCells ≤ s.chip.get (A.plane k) R.PLANE_REPLAY_crc_alarm →
    Does (.fabricCrcWindow k sl up) s fun t => (t.chip.lnk k sl up) = { (s.chip.lnk k sl up) with badCells := 0, alarmed := false } ∧
      OnlyParts s t [] [.links]) ∧
  -- 25: fabricCrcWindow
  (∀ (s : State) (k sl : Nat) (up : Bool),
    s.runs .core = true →
    s.chip.sliceEnabled sl = false ∨ 8 ≤ sl ∨ s.chip.planeRuns k = false →
    Does (.fabricCrcWindow k sl up) s fun t => OnlyRegs s t []) ∧
  -- 26: coachHeadEnqueue
  (∀ (s : State) (p id n : Nat) (l : List Nat) (v : Copy),
    s.runs .core = true →
    p < 128 ∧ s.chip.alive (U.slice (p / 16)) = true ∧ (s.chip.sch (p / 16)).coach.look p = id :: l →
    s.chip.copies.look id = some v ∧ v.port = p ∧ v.slice = p / 16 →
    s.chip.copyReady id ((s.chip.arr v.arrival).places.length + (s.chip.arr v.arrival).reserved) = true ∧
      s.chip.queueSeen p v.named v.cls = some n →
    (s.chip.grp (Chip.schedGroup (p / 16))).poison = [] ∧ s.chip.get (A.port p) R.GATE_CTRL_enable = 0 →
    Does (.coachHeadEnqueue p) s fun t =>
      (t.chip.sch (p / 16)).coach.look p = l ∧ t.chip.queueCopies (p / 16) n = s.chip.queueCopies (p / 16) n ++ [id] ∧
      (t.chip.cpy id).queue = n ∧ t.chip.get (A.slice (p / 16)) R.COACH_STATUS_used =
        (((t.chip.sch (p / 16)).coach).map fun x => x.2.length).sum % 4096 ∧
      t.chip.accord = s.chip.accord ∧ t.nv = s.nv ∧ t.fuses = s.fuses ∧ t.pending = s.pending) ∧
  -- 27: coachHeadEnqueue
  (∀ (s : State) (p : Nat),
    s.runs .core = true →
    (128 ≤ p ∨ s.chip.alive (U.slice (p / 16)) = false ∨ (s.chip.sch (p / 16)).coach.look p = [] ∨
      ((s.chip.sch (p / 16)).coach.look p).all (fun id => !(s.chip.copyReady id ((s.chip.arr (s.chip.cpy id).arrival).places.length +
      (s.chip.arr (s.chip.cpy id).arrival).reserved))) = true) →
    Does (.coachHeadEnqueue p) s fun t => OnlyRegs s t []) ∧
  -- 28: coachTimeout
  (∀ (s : State) (p id : Nat) (l : List Nat) (v : Copy),
    s.runs .core = true →
    p < 128 ∧ s.chip.alive (U.slice (p / 16)) = true ∧ (s.chip.sch (p / 16)).coach.look p = id :: l →
    s.chip.copies.look id = some v ∧ v.port = p ∧ v.slice = p / 16 →
    id ∉ l →
    v.coachAt + (s.chip.get (A.slice (p / 16)) R.COACH_CTRL_max_wait_us * 1000) < s.chip.now →
    Does (.coachTimeout p) s fun t =>
      (t.chip.sch (p / 16)).coach.look p = l ∧ t.chip.copies.look id = none ∧
      t.chip.reg (s.chip.sliceCnt (p / 16) + C.coach_timeout_drop) = s.chip.reg (s.chip.sliceCnt (p / 16) + C.coach_timeout_drop) + 1 ∧
      t.chip.accord = s.chip.accord ∧ t.nv = s.nv ∧ t.fuses = s.fuses ∧ t.pending = s.pending) ∧
  -- 29: coachTimeout
  (∀ (s : State) (p : Nat),
    s.runs .core = true →
    (128 ≤ p ∨ s.chip.alive (U.slice (p / 16)) = false ∨ (s.chip.sch (p / 16)).coach.look p = [] ∨
      ((s.chip.sch (p / 16)).coach.look p).all (fun id => decide (s.chip.now ≤ (s.chip.cpy id).coachAt + (s.chip.get (A.slice (p / 16))
      R.COACH_CTRL_max_wait_us * 1000))) = true) →
    Does (.coachTimeout p) s fun t => OnlyRegs s t [])

/-- LINK_LOSS_OF_LOCK and PLANE_PLL_LOSS of a plane that is up, draining or retired with no frame begun fail it with their cause, clear it
and report; while it was up every enabled slice takes the next epoch, and FABRIC_DOWN is reported where no plane is left up. A failed
plane's lost link is reported and shown. PLANE_RETIRE of a plane that is up starts the drain with barriers due; of the last one it is
refused with 2, during a re-pin with 4, and of a plane that is not up it has nothing to do. PLANE_RESTORE of a drained plane, or of a
failed one that was reset, its links locked, puts it up; else it is refused with 3 or 4. PLANE_DRAIN_COMPLETE of an empty plane, or after
the longest time, ends the drain; else it does nothing. PLANE_LINK_LOCK sets the slice's bit. BARRIER_RECEIVED takes a plane off the
awaited ones, and into the wake store of a sleeping slice. BARRIER_WAIT_EXPIRY ends the wait once the time is up. Nothing else changes. -/
def Obligations.PlanesFailDrainAndReturn : Prop :=
  -- 1: linkLossOfLock
  (∀ (s : State) (k sl : Nat) (up : Bool),
    s.runs .core = true →
    k < 4 ∧ sl < 8 ∧ s.chip.sliceEnabled sl = true ∧ s.chip.linkUp k sl = true →
    s.chip.planeState k = 0 →
    (s.chip.begunOn k = [] ∧ (List.range 64).all (fun i => !((s.chip.awaited.look i).any fun w => w.1 == k)) = true) →
    Does (.linkLossOfLock k sl up) s fun t =>
      t.chip.planeState k = 2 ∧ t.chip.get (A.plane k) R.PLANE_STATUS_cause = 5 ∧ t.chip.get (A.plane k) R.PLANE_EVENT_failed = 1 ∧
      t.chip.get (A.plane k) R.PLANE_EVENT_link_fail = 1 ∧ t.chip.linkUp k sl = false ∧ (t.chip.pl k).outs = [] ∧ (t.chip.pl k).loop = [] ∧
        (t.chip.pl k).used = [] ∧
      t.chip.ledger = s.chip.sent ([s.chip.msgOf (planeUnit k) K.fabricLinkFail 3 sl,
        s.chip.msgOf (planeUnit k) K.planeFail 2 5] ++ if (s.chip.planesUp =
        [k]) then [s.chip.msgOf (planeUnit k) K.fabricDown 5] else []) ∧
      (∀ d, d < 8 → s.chip.sliceEnabled d = true → t.chip.fabEpoch d = (s.chip.fabEpoch d + 1) % 16) ∧
        OnlyParts s t ([A.plane k + R.PLANE_STATUS, A.plane k + R.PLANE_EVENT,
        A.plane k + C.cells_discarded] ++ (s.chip.enabledSlices.flatMap fun d => [A.slice d + R.FAB_STATUS,
        s.chip.sliceCnt d + C.repins] ++ (List.range 16).map fun i => A.slice d + R.FAB_PIN + 4 * i)) [.links, .planes, .streams,
        .barriersDue, .heldCells, .house, .ledger]) ∧
  -- 2: linkLossOfLock
  (∀ (s : State) (k sl : Nat) (up : Bool),
    s.runs .core = true →
    k < 4 ∧ sl < 8 ∧ s.chip.sliceEnabled sl = true ∧ s.chip.linkUp k sl = true →
    s.chip.planeState k = 1 ∨ s.chip.planeState k = 3 →
    (s.chip.begunOn k = [] ∧ (List.range 64).all (fun i => !((s.chip.awaited.look i).any fun w => w.1 == k)) = true) →
    Does (.linkLossOfLock k sl up) s fun t =>
      t.chip.planeState k = 2 ∧ t.chip.get (A.plane k) R.PLANE_STATUS_cause = 5 ∧ t.chip.linkUp k sl = false ∧ (t.chip.pl k).outs = [] ∧
        (t.chip.pl k).loop = [] ∧ (t.chip.pl k).used = [] ∧ t.chip.ledger = s.chip.sent [s.chip.msgOf (planeUnit k) K.fabricLinkFail 3 sl,
        s.chip.msgOf (planeUnit k) K.planeFail 2 5] ∧
      OnlyParts s t ([A.plane k + R.PLANE_STATUS, A.plane k + R.PLANE_EVENT,
        A.plane k + C.cells_discarded] ++ (s.chip.enabledSlices.map fun d => A.slice d + R.FAB_STATUS)) [.links, .planes, .streams,
        .barriersDue, .heldCells, .house, .ledger]) ∧
  -- 3: linkLossOfLock
  (∀ (s : State) (k sl : Nat) (up : Bool),
    s.runs .core = true →
    k < 4 ∧ sl < 8 ∧ s.chip.sliceEnabled sl = true ∧ s.chip.linkUp k sl = true →
    s.chip.planeState k = 2 →
    Does (.linkLossOfLock k sl up) s fun t =>
      t.chip.linkUp k sl = false ∧ t.chip.get (A.plane k) R.PLANE_EVENT_link_fail = 1 ∧
        t.chip.ledger = s.chip.sent [s.chip.msgOf (planeUnit k) K.fabricLinkFail 3 sl] ∧
      OnlyParts s t [A.plane k + R.PLANE_STATUS, A.plane k + R.PLANE_EVENT] [.ledger]) ∧
  -- 4: linkLossOfLock
  (∀ (s : State) (k sl : Nat) (up : Bool),
    s.runs .core = true →
    4 ≤ k ∨ s.chip.sliceEnabled sl = false ∨ s.chip.linkUp k sl = false →
    Does (.linkLossOfLock k sl up) s fun t => OnlyRegs s t []) ∧
  -- 5: planePllLoss
  (∀ (s : State) (k : Nat),
    s.runs .core = true →
    k < 4 ∧ s.chip.image.applied = true ∧ s.chip.inReset (planeUnit k) = false →
    s.chip.planeState k ≠ 2 →
    (s.chip.begunOn k = [] ∧ (List.range 64).all (fun i => !((s.chip.awaited.look i).any fun w => w.1 == k)) = true) →
    Does (.planePllLoss k) s fun t =>
      t.chip.planeState k = 2 ∧ t.chip.get (A.plane k) R.PLANE_STATUS_cause = 3 ∧ t.chip.get (A.plane k) R.PLANE_STATUS_links_up = 0 ∧
        (t.chip.pl k).outs = [] ∧ (t.chip.pl k).loop = [] ∧ (t.chip.pl k).used = [] ∧
      t.chip.ledger = s.chip.sent ([s.chip.msgOf (planeUnit k) K.planeFail 2 3] ++ if (s.chip.planesUp =
        [k]) then [s.chip.msgOf (planeUnit k) K.fabricDown 5] else []) ∧
      (s.chip.planeState k = 0 → (∀ d, d < 8 → s.chip.sliceEnabled d = true → t.chip.fabEpoch d = (s.chip.fabEpoch d + 1) % 16)) ∧
        OnlyParts s t ([A.plane k + R.PLANE_STATUS, A.plane k + R.PLANE_EVENT,
        A.plane k + C.cells_discarded] ++ (s.chip.enabledSlices.map fun d => A.slice d + R.FAB_STATUS) ++ (if s.chip.planeState k =
        0 then (s.chip.enabledSlices.flatMap fun d => [A.slice d + R.FAB_STATUS,
        s.chip.sliceCnt d + C.repins] ++ (List.range 16).map fun i => A.slice d + R.FAB_PIN + 4 * i) else [])) [.links, .planes, .streams,
        .barriersDue, .heldCells, .house, .ledger]) ∧
  -- 6: planePllLoss
  (∀ (s : State) (k : Nat),
    s.runs .core = true →
    (4 ≤ k ∨ s.chip.image.applied = false ∨ s.chip.inReset (planeUnit k) = true) ∨ s.chip.planeState k = 2 →
    Does (.planePllLoss k) s fun t =>
      (k < 4 ∧ s.chip.image.applied = true ∧ s.chip.inReset (planeUnit k) = false → t.chip.get (A.plane k) R.PLANE_STATUS_links_up = 0) ∧
        OnlyRegs s t [A.plane k + R.PLANE_STATUS]) ∧
  -- 7: planeRetire
  (∀ (s : State) (src : Source) (k : Nat),
    k < 4 ∧ s.serves src (A.plane k + R.PLANE_CMD) true = true →
    s.chip.repinRuns = false ∧ s.chip.planeState k = 0 ∧ 2 ≤ s.chip.planesUp.length →
    Does (.planeRetire src k) s fun t =>
      t.chip.planeState k = 1 ∧ t.chip.get (A.plane k) R.PLANE_STATUS_cause = 4 ∧ t.chip.get (A.plane k) R.PLANE_CMD_result = 0 ∧
      (t.chip.pl k).drainAt = s.chip.now ∧ (∀ x, x ∈ s.chip.enabledSlices → t.chip.barriersDue.look (x * 4 + k) = s.chip.enabledSlices) ∧
      (∀ d x, d ∈ s.chip.enabledSlices → x ∈ s.chip.enabledSlices →
        t.chip.awaited.look (d * 8 + x) = s.chip.awaited.look (d * 8 + x) ++ [(k, s.chip.fabEpoch x)]) ∧
      (∀ d, d < 8 → s.chip.sliceEnabled d = true → t.chip.fabEpoch d = (s.chip.fabEpoch d + 1) % 16) ∧
        OnlyParts s t ([A.plane k + R.PLANE_STATUS, A.plane k + R.PLANE_CMD] ++ (s.chip.enabledSlices.flatMap fun d => [A.slice d +
        R.FAB_STATUS, s.chip.sliceCnt d + C.repins] ++ (List.range 16).map fun i => A.slice d + R.FAB_PIN + 4 * i)) [.planes, .streams,
        .barriersDue, .awaited]) ∧
  -- 8: planeRetire
  (∀ (s : State) (src : Source) (k : Nat),
    k < 4 ∧ s.serves src (A.plane k + R.PLANE_CMD) true = true →
    s.chip.repinRuns = true ∨ s.chip.planeState k ≠ 0 ∨ s.chip.planesUp.length ≤ 1 →
    Does (.planeRetire src k) s fun t =>
      t.chip.get (A.plane k) R.PLANE_CMD_op = 1 ∧ t.chip.get (A.plane k) R.PLANE_CMD_result =
        (if s.chip.repinRuns then 4 else if s.chip.planeState k ≠ 0 then 0 else 2) ∧ OnlyRegs s t [A.plane k + R.PLANE_CMD]) ∧
  -- 9: planeRestore
  (∀ (s : State) (src : Source) (k : Nat),
    k < 4 ∧ s.serves src (A.plane k + R.PLANE_CMD) true = true →
    (s.chip.repinRuns = false ∧ ((s.chip.planeState k = 3 ∨ (s.chip.planeState k = 2 ∧ (s.chip.pl k).wasReset = true)) ∧
      s.chip.inReset (planeUnit k) = false ∧ s.chip.enabledSlices.all (fun x => s.chip.linkUp k x) = true)) →
    Does (.planeRestore src k) s fun t =>
      t.chip.planeState k = 0 ∧ t.chip.get (A.plane k) R.PLANE_CMD_result = 0 ∧ t.chip.get (A.plane k) R.PLANE_EVENT_restored = 1 ∧
      (∀ d, d < 8 → s.chip.sliceEnabled d = true → t.chip.fabEpoch d = (s.chip.fabEpoch d + 1) % 16) ∧
        OnlyParts s t ([A.plane k + R.PLANE_STATUS, A.plane k + R.PLANE_CMD,
        A.plane k + R.PLANE_EVENT] ++ (s.chip.enabledSlices.flatMap fun d => [A.slice d + R.FAB_STATUS,
        s.chip.sliceCnt d + C.repins] ++ (List.range 16).map fun i => A.slice d + R.FAB_PIN + 4 * i)) [.streams]) ∧
  -- 10: planeRestore
  (∀ (s : State) (src : Source) (k : Nat),
    k < 4 ∧ s.serves src (A.plane k + R.PLANE_CMD) true = true →
    (s.chip.repinRuns = true ∨ ¬ ((s.chip.planeState k = 3 ∨ (s.chip.planeState k = 2 ∧ (s.chip.pl k).wasReset = true)) ∧
      s.chip.inReset (planeUnit k) = false ∧ s.chip.enabledSlices.all (fun x => s.chip.linkUp k x) = true)) →
    Does (.planeRestore src k) s fun t =>
      t.chip.get (A.plane k) R.PLANE_CMD_op = 2 ∧ t.chip.get (A.plane k) R.PLANE_CMD_result = (if s.chip.repinRuns then 4 else 3) ∧
        OnlyRegs s t [A.plane k + R.PLANE_CMD]) ∧
  -- 11: planeDrainComplete
  (∀ (s : State) (k : Nat),
    s.runs .core = true →
    k < 4 ∧ s.chip.planeState k = 1 →
    s.chip.begunOn k = [] →
    ((s.chip.planeCells k = 0 ∧ s.chip.begunOn k = [] ∧ (List.range 8).all (fun x => (s.chip.barriersDue.look (x * 4 + k)).isEmpty) =
      true) ∨ s.chip.passedUs (s.chip.pl k).drainAt ((s.chip.enabledSlices.map s.chip.drainUs).foldl Nat.max 0 + 5) = true) →
    Does (.planeDrainComplete k) s fun t =>
      t.chip.planeState k = 3 ∧ t.chip.get (A.plane k) R.PLANE_EVENT_failed = 1 ∧ (t.chip.pl k).outs = [] ∧ (t.chip.pl k).loop = [] ∧
        (t.chip.pl k).used = [] ∧
      t.chip.reg (A.plane k + C.cells_discarded) = s.chip.reg (A.plane k + C.cells_discarded) + BitVec.ofNat 64 (s.chip.planeCells k) ∧
      OnlyParts s t ([A.plane k + R.PLANE_STATUS, A.plane k + R.PLANE_EVENT,
        A.plane k + C.cells_discarded] ++ (s.chip.enabledSlices.map fun d => A.slice d + R.FAB_STATUS)) [.links, .planes, .house,
        .barriersDue, .heldCells]) ∧
  -- 12: planeDrainComplete
  (∀ (s : State) (k : Nat),
    s.runs .core = true →
    (4 ≤ k ∨ s.chip.planeState k ≠ 1 ∨ (¬ (s.chip.planeCells k = 0 ∧ s.chip.begunOn k = [] ∧
      (List.range 8).all (fun x => (s.chip.barriersDue.look (x * 4 + k)).isEmpty) = true) ∧
      s.chip.passedUs (s.chip.pl k).drainAt ((s.chip.enabledSlices.map s.chip.drainUs).foldl Nat.max 0 + 5) = false)) →
    Does (.planeDrainComplete k) s fun t => OnlyRegs s t []) ∧
  -- 13: planeLinkLock
  (∀ (s : State) (k sl : Nat),
    s.runs .core = true →
    k < 4 ∧ sl < 8 ∧ s.chip.sliceEnabled sl = true ∧ s.chip.inReset (planeUnit k) = false →
    Does (.planeLinkLock k sl) s fun t =>
      t.chip.linkUp k sl = true ∧ (∀ x, x < 8 → x ≠ sl → t.chip.linkUp k x = s.chip.linkUp k x) ∧
        t.chip.planeState k = s.chip.planeState k ∧
      OnlyRegs s t [A.plane k + R.PLANE_STATUS]) ∧
  -- 14: planeLinkLock
  (∀ (s : State) (k sl : Nat),
    s.runs .core = true →
    4 ≤ k ∨ 8 ≤ sl ∨ s.chip.sliceEnabled sl = false ∨ s.chip.inReset (planeUnit k) = true →
    Does (.planeLinkLock k sl) s fun t => OnlyRegs s t []) ∧
  -- 15: barrierReceived
  (∀ (s : State) (sl src k : Nat) (x : Cell) (l : List Cell),
    s.runs .core = true →
    s.chip.sliceEnabled sl = true ∧ sl < 8 ∧ s.chip.planeRuns k = true →
    src < 8 ∧ (s.chip.lnk k sl false).flight = x :: l ∧ x.barrier = true ∧ x.src = src ∧ x.seq = (s.chip.lnk k sl false).expect →
    s.chip.house.sleep.look sl = 0 →
    ((s.chip.awaited.look (sl * 8 + src)).filter (fun w => w.1 != k) ≠ [] ∨ (s.chip.awaited.look (sl * 8 + src)) = []) →
    Does (.barrierReceived sl src k) s fun t =>
      (t.chip.lnk k sl false)
        = { (s.chip.lnk k sl false) with flight := l, expect := ((s.chip.lnk k sl false).expect + 1) % 65536, asked := false, nakRun := 0, acks := (s.chip.lnk k sl false).acks ++ [x.seq] }
        ∧ t.chip.reg (s.chip.sliceCnt sl + C.cells_rx) = s.chip.reg (s.chip.sliceCnt sl + C.cells_rx) + 1 ∧
        t.chip.awaited.look (sl * 8 + src) = (s.chip.awaited.look (sl * 8 + src)).filter (fun w => w.1 != k) ∧
        OnlyParts s t [s.chip.sliceCnt sl + C.cells_rx] [.links, .awaited]) ∧
  -- 16: barrierReceived
  (∀ (s : State) (sl src k : Nat) (x : Cell) (l : List Cell),
    s.runs .core = true →
    s.chip.sliceEnabled sl = true ∧ sl < 8 ∧ s.chip.planeRuns k = true →
    src < 8 ∧ (s.chip.lnk k sl false).flight = x :: l ∧ x.barrier = true ∧ x.src = src ∧ x.seq = (s.chip.lnk k sl false).expect →
    s.chip.house.sleep.look sl = 0 →
    ((s.chip.awaited.look (sl * 8 + src)) ≠ [] ∧ (s.chip.awaited.look (sl * 8 + src)).filter (fun w => w.1 != k) = [] ∧
      s.chip.heldCells.look (sl * 8 + src) = []) →
    Does (.barrierReceived sl src k) s fun t =>
      (t.chip.lnk k sl false)
        = { (s.chip.lnk k sl false) with flight := l, expect := ((s.chip.lnk k sl false).expect + 1) % 65536, asked := false, nakRun := 0, acks := (s.chip.lnk k sl false).acks ++ [x.seq] }
        ∧ t.chip.reg (s.chip.sliceCnt sl + C.cells_rx) = s.chip.reg (s.chip.sliceCnt sl + C.cells_rx) + 1 ∧
        t.chip.awaited.look (sl * 8 + src) = [] ∧ t.chip.heldSince.look (sl * 8 + src) = none ∧
      OnlyParts s t [s.chip.sliceCnt sl + C.cells_rx, A.slice sl + R.FAB_STATUS] [.links, .awaited, .heldCells, .heldSince]) ∧
  -- 17: barrierReceived
  (∀ (s : State) (sl src k : Nat) (x : Cell) (l : List Cell),
    s.runs .core = true →
    s.chip.sliceEnabled sl = true ∧ sl < 8 ∧ s.chip.planeRuns k = true →
    src < 8 ∧ (s.chip.lnk k sl false).flight = x :: l ∧ x.barrier = true ∧ x.src = src ∧ x.seq = (s.chip.lnk k sl false).expect →
    s.chip.house.sleep.look sl ≠ 0 →
    Does (.barrierReceived sl src k) s fun t =>
      (s.chip.wakeFull sl = true → t.chip.links = s.chip.links ∧ t.chip.house = (s.chip.wakeCause sl).house) ∧
      (s.chip.wakeFull sl = false → (t.chip.lnk k sl false) =
        { (s.chip.lnk k sl false) with flight := l, expect := ((s.chip.lnk k sl false).expect + 1) % 65536, asked := false, nakRun := 0, acks := (s.chip.lnk k sl false).acks ++ [x.seq] }
        ∧ t.chip.reg (s.chip.sliceCnt sl + C.cells_rx) = s.chip.reg (s.chip.sliceCnt sl + C.cells_rx) + 1 ∧
        t.chip.house.wakeStore.look sl = s.chip.house.wakeStore.look sl ++ [.cell k x]) ∧
        OnlyParts s t [s.chip.sliceCnt sl + C.cells_rx] [.links, .house]) ∧
  -- 18: barrierReceived
  (∀ (s : State) (sl src k : Nat),
    s.runs .core = true →
    ((s.chip.sliceEnabled sl = false ∨ 8 ≤ sl ∨ s.chip.planeRuns k = false) ∨
      (s.chip.lnk k sl false).flight.head?.all (fun x => !x.barrier || x.src != src || x.seq != (s.chip.lnk k sl false).expect) = true) →
    Does (.barrierReceived sl src k) s fun t => OnlyRegs s t []) ∧
  -- 19: barrierWaitExpiry
  (∀ (s : State) (sl src t0 : Nat),
    s.runs .core = true →
    sl < 8 ∧ src < 8 ∧ s.chip.heldSince.look (sl * 8 + src) = some t0 →
    s.chip.passedUs t0 (s.chip.drainUs sl) = true →
    Does (.barrierWaitExpiry sl src) s fun t =>
      t.chip.awaited.look (sl * 8 + src) = [] ∧ t.chip.heldCells.look (sl * 8 + src) = [] ∧ t.chip.heldSince.look (sl * 8 + src) = none ∧
        t.nv = s.nv ∧ t.fuses = s.fuses ∧ t.pending = s.pending ∧
      (s.chip.heldCells.look (sl * 8 + src) = [] ∧ (s.chip.awaited.look (sl * 8 + src)).all (fun w => (s.chip.openFrom sl src w.1).isEmpty)
        = true → OnlyParts s t [A.slice sl + R.FAB_STATUS] [.awaited, .heldCells, .heldSince])) ∧
  -- 20: barrierWaitExpiry
  (∀ (s : State) (sl src : Nat),
    s.runs .core = true →
    ((8 ≤ sl ∨ 8 ≤ src) ∨ (s.chip.heldSince.look (sl * 8 + src)).all (fun t0 => !(s.chip.passedUs t0 (s.chip.drainUs sl))) = true) →
    Does (.barrierWaitExpiry sl src) s fun t => OnlyRegs s t [])

/-- CELL_ALLOC within the caps takes the lowest free cell in the list, with count 1 and the requester as lodger, and raises the used figure;
an uncorrectable list entry in front of it is lost and reported; beyond the caps, or of no requester, nothing happens. CELL_SHARE adds to
the count, CELL_HANDOVER moves the cell and both used figures, CELL_FREE lowers the count and at 0 frees the cell. A bad pointer, a free
cell or another's cell is refused: counted, reported, recorded. An injected error on the requester's path stops any of them and is
reported; an innkeeper that is not up does nothing. CELL_READ gives the record and whether it is poisoned, RECLAIM frees a cell whatever
its count, gives 0x01 for a free one; both give 0x06 beyond the cells. BPM_PORT_ERR reports for a requester out of reset. Beside that
only the errors met in the innkeeper's records and what an armed injection plants change. That the lowest free cell is taken is log 49,
that parity errors reach only these operations log 57. -/
def Obligations.InnkeeperServesCells : Prop :=
  -- 1: cellAlloc
  (∀ (s : State) (h req i : Nat),
    s.runs .core = true →
    s.chip.innkUp h = true →
    s.chip.injected req 2 = 0 →
    s.chip.reqOf h req = some i →
    s.chip.canAlloc h i 1 = true →
    (s.chip.grp (U.halfBlk h 0)).poison = [] →
    Does (.cellAlloc h req false) s fun t =>
      t.chip.cellRec h (s.chip.lowestFree h) = { count := 1, lodger := req } ∧ t.chip.used h i = s.chip.used h i + 1 ∧
      t.chip.reg (A.half h + 0x40 * i + C.alloc_cells) = s.chip.reg (A.half h + 0x40 * i + C.alloc_cells) + 1 ∧
      OnlyParts s t ([A.half h + 4 * i + R.INNK_REQ_USED, A.half h + R.INNK_STATUS, A.half h + R.INNK_SPILL_USED,
        A.half h + 0x40 * i + C.alloc_cells] ++ errRegs (U.halfBlk h 0) ++ injRegs) [.innkeepers, .mem, .fresh, .ledger]) ∧
  -- 2: cellAlloc
  (∀ (s : State) (h req i : Nat) (listError : Bool),
    s.runs .core = true →
    s.chip.innkUp h = true →
    s.chip.injected req 2 = 0 →
    s.chip.reqOf h req = some i →
    s.chip.used h i + 1 ≤ s.chip.cap h i ∧ s.chip.unmet h i + 2 ≤ s.chip.freeCells h →
    (listError = true ∧ (s.chip.grp (U.halfBlk h 0)).poison = []) ∨ (listError = false ∧
      (s.chip.grp (U.halfBlk h 0)).poison = [Chip.listWord (s.chip.lowestFree h)]) →
    Does (.cellAlloc h req listError) s fun t =>
      (t.chip.innk h).lost = s.chip.lowestFree h :: (s.chip.innk h).lost ∧
        t.chip.cellRec h (s.chip.lowestFree h) = s.chip.cellRec h (s.chip.lowestFree h) ∧
      (∃ p, p ≠ s.chip.lowestFree h ∧ (s.chip.cellRec h p).count = 0 ∧ t.chip.cellRec h p = { count := 1, lodger := req }) ∧
        t.chip.used h i = s.chip.used h i + 1 ∧
      t.chip.ledger.transit.any (fun m => m.source == s.chip.suiteUnit (U.halfBlk h 0) && m.kind == K.freeListErr && m.sev == 2 && m.addr ==
        0) = true ∧
      OnlyParts s t ([A.half h + 4 * i + R.INNK_REQ_USED, A.half h + R.INNK_STATUS, A.half h + R.INNK_SPILL_USED,
        A.half h + 0x40 * i + C.alloc_cells] ++ errRegs (U.halfBlk h 0) ++ injRegs) [.innkeepers, .mem, .fresh, .ledger]) ∧
  -- 3: cellAlloc
  (∀ (s : State) (h req : Nat) (listError : Bool),
    s.runs .core = true →
    (s.chip.innkUp h = false ∨ (s.chip.injected req 2 = 0 ∧ (s.chip.reqOf h req).all (fun i => !(s.chip.canAlloc h i 1)) = true)) →
    Does (.cellAlloc h req listError) s fun t => OnlyRegs s t []) ∧
  -- 4: cellAlloc
  (∀ (s : State) (h req : Nat) (listError : Bool) (j : Injection),
    s.runs .core = true →
    s.chip.innkUp h = true →
    s.chip.ledger.inj = some j ∧ j.unit = req ∧ j.cls = 2 ∧ j.mask ≠ 0 →
    Does (.cellAlloc h req listError) s fun t => t.chip.ledger.transit.getLast?.map (fun m => (m.source, m.kind, m.sev, m.addr, m.inj)) =
      some (s.chip.suiteUnit req, K.bpmPortErr, 4, req, true) ∧ OnlyParts s t injRegs [.ledger]) ∧
  -- 5: cellShare
  (∀ (s : State) (h req addr n : Nat) (j : Injection),
    s.runs .core = true →
    s.chip.innkUp h = true →
    s.chip.ledger.inj = some j ∧ j.unit = req ∧ j.cls = 2 ∧ j.mask ≠ 0 →
    Does (.cellShare h req addr n) s fun t => t.chip.ledger.transit.getLast?.map (fun m => (m.source, m.kind, m.sev, m.addr, m.inj)) =
      some (s.chip.suiteUnit req, K.bpmPortErr, 4, req, true) ∧ OnlyParts s t injRegs [.ledger]) ∧
  -- 6: cellHandover
  (∀ (s : State) (h req addr next : Nat) (j : Injection),
    s.runs .core = true →
    s.chip.innkUp h = true →
    s.chip.ledger.inj = some j ∧ j.unit = req ∧ j.cls = 2 ∧ j.mask ≠ 0 →
    Does (.cellHandover h req addr next) s fun t => t.chip.ledger.transit.getLast?.map (fun m => (m.source, m.kind, m.sev, m.addr, m.inj)) =
      some (s.chip.suiteUnit req, K.bpmPortErr, 4, req, true) ∧ OnlyParts s t injRegs [.ledger]) ∧
  -- 7: cellFree
  (∀ (s : State) (h req addr : Nat) (j : Injection),
    s.runs .core = true →
    s.chip.innkUp h = true →
    s.chip.ledger.inj = some j ∧ j.unit = req ∧ j.cls = 2 ∧ j.mask ≠ 0 →
    Does (.cellFree h req addr) s fun t => t.chip.ledger.transit.getLast?.map (fun m => (m.source, m.kind, m.sev, m.addr, m.inj)) =
      some (s.chip.suiteUnit req, K.bpmPortErr, 4, req, true) ∧ OnlyParts s t injRegs [.ledger]) ∧
  -- 8: cellShare
  (∀ (s : State) (h req addr n : Nat),
    s.runs .core = true →
    s.chip.innkUp h = true →
    s.chip.injected req 2 = 0 →
    s.chip.cellCheck h req addr = 0 →
    Does (.cellShare h req addr n) s fun t =>
      t.chip.cellRec h (addr / 256) = { (s.chip.cellRec h (addr / 256)) with count := (s.chip.cellRec h (addr / 256)).count + n } ∧
        OnlyParts s t (errRegs (U.halfBlk h 0) ++ injRegs) [.innkeepers, .mem, .fresh, .ledger]) ∧
  -- 9: cellShare
  (∀ (s : State) (h req addr n : Nat),
    s.runs .core = true →
    s.chip.innkUp h = false →
    Does (.cellShare h req addr n) s fun t => OnlyRegs s t []) ∧
  -- 10: cellHandover
  (∀ (s : State) (h req addr next i j : Nat),
    s.runs .core = true →
    s.chip.innkUp h = true →
    s.chip.injected req 2 = 0 →
    s.chip.cellCheck h req addr = 0 →
    s.chip.reqOf h req = some i →
    s.chip.reqOf h next = some j →
    s.chip.used h j + 1 < 2 ^ 19 →
    Does (.cellHandover h req addr next) s fun t =>
      t.chip.cellRec h (addr / 256) = { (s.chip.cellRec h (addr / 256)) with lodger := next } ∧
        t.chip.used h j = (if i = j then s.chip.used h j - 1 else s.chip.used h j) + 1 ∧
      t.chip.used h i = (if i = j then s.chip.used h i - 1 + 1 else s.chip.used h i - 1) ∧
      OnlyParts s t ([A.half h + 4 * i + R.INNK_REQ_USED, A.half h + 4 * j + R.INNK_REQ_USED, A.half h + R.INNK_STATUS,
        A.half h + R.INNK_SPILL_USED] ++ errRegs (U.halfBlk h 0) ++ injRegs) [.innkeepers, .mem, .fresh, .ledger]) ∧
  -- 11: cellHandover
  (∀ (s : State) (h req addr next : Nat),
    s.runs .core = true →
    s.chip.innkUp h = true →
    s.chip.injected req 2 = 0 →
    s.chip.cellCheck h req addr = 0 →
    s.chip.reqOf h req = none ∨ s.chip.reqOf h next = none →
    Does (.cellHandover h req addr next) s fun t => OnlyParts s t (errRegs (U.halfBlk h 0)) [.mem, .ledger]) ∧
  -- 12: cellHandover
  (∀ (s : State) (h req addr next : Nat),
    s.runs .core = true →
    s.chip.innkUp h = false →
    Does (.cellHandover h req addr next) s fun t => OnlyRegs s t []) ∧
  -- 13: cellFree
  (∀ (s : State) (h req addr : Nat),
    s.runs .core = true →
    s.chip.innkUp h = true →
    s.chip.injected req 2 = 0 →
    s.chip.cellCheck h req addr = 0 →
    (s.chip.cellRec h (addr / 256)).count = 1 →
    Does (.cellFree h req addr) s fun t =>
      t.chip.cellRec h (addr / 256) = {} ∧
      (∀ i, s.chip.reqOf h req = some i → t.chip.used h i = s.chip.used h i - 1 ∧
        t.chip.reg (A.half h + 0x40 * i + C.free_cells) = s.chip.reg (A.half h + 0x40 * i + C.free_cells) + 1) ∧
      OnlyParts s t ([A.half h + R.INNK_STATUS, A.half h + R.INNK_SPILL_USED] ++ ((s.chip.reqOf h req).toList.flatMap fun i => [A.half h + 4
        * i + R.INNK_REQ_USED, A.half h + 0x40 * i + C.free_cells]) ++ errRegs (U.halfBlk h 0) ++ injRegs) [.innkeepers, .mem, .fresh,
        .ledger]) ∧
  -- 14: cellFree
  (∀ (s : State) (h req addr : Nat),
    s.runs .core = true →
    s.chip.innkUp h = true →
    s.chip.injected req 2 = 0 →
    s.chip.cellCheck h req addr = 0 →
    (s.chip.cellRec h (addr / 256)).count ≠ 1 →
    Does (.cellFree h req addr) s fun t => t.chip.cellRec h (addr / 256) =
      { (s.chip.cellRec h (addr / 256)) with count := (s.chip.cellRec h (addr / 256)).count - 1 } ∧
      OnlyParts s t (errRegs (U.halfBlk h 0) ++ injRegs) [.innkeepers, .mem, .fresh, .ledger]) ∧
  -- 15: cellFree
  (∀ (s : State) (h req addr : Nat),
    s.runs .core = true →
    s.chip.innkUp h = false →
    Does (.cellFree h req addr) s fun t => OnlyRegs s t []) ∧
  -- 16: cellShare
  (∀ (s : State) (h req addr k n : Nat),
    s.runs .core = true →
    s.chip.innkUp h = true →
    s.chip.injected req 2 = 0 →
    s.chip.cellCheck h req addr = k ∧ k ≠ 0 ∧ addr < 2 ^ 28 ∧ req < 65536 →
    (s.chip.grp (U.halfBlk h 0)).poison = [] ∧ (s.chip.grp (U.halfBlk h 0)).soft = [] →
    Does (.cellShare h req addr n) s fun t => t.chip.get (A.half h) R.INNK_FAULT_kind = k ∧
      t.chip.get (A.half h) R.INNK_FAULT_requester = req ∧ t.chip.get (A.half h) R.INNK_FAULT_ADDR_address = addr ∧
      t.chip.get (A.half h) (if k = 1 then R.INNK_EVENT_bad_ptr else if k = 2 then R.INNK_EVENT_double_free else R.INNK_EVENT_not_owner) =
      1 ∧
      (∀ i, s.chip.reqOf h req = some i → t.chip.reg (A.half h + 0x40 * i + (if k = 1 then C.bad_ptr else if k =
        2 then C.double_free else C.not_owner)) = s.chip.reg (A.half h + 0x40 * i + (if k = 1 then C.bad_ptr else if k =
        2 then C.double_free else C.not_owner)) + 1) ∧ t.chip.ledger = s.chip.sent [s.chip.msgOf (U.halfBlk h 0) (if k =
        1 then K.bpmBadPtr else if k = 2 then K.bpmDoubleFree else K.bpmNotOwner) (if k = 1 then 3 else 2) (addr * 65536 + req)] ∧
        OnlyParts s t ([A.half h + R.INNK_EVENT, A.half h + R.INNK_FAULT,
        A.half h + R.INNK_FAULT_ADDR] ++ (s.chip.reqOf h req).toList.map fun i => A.half h + 0x40 * i + (if k = 1 then C.bad_ptr else if k =
        2 then C.double_free else C.not_owner)) [.ledger]) ∧
  -- 17: cellHandover
  (∀ (s : State) (h req addr k next : Nat),
    s.runs .core = true →
    s.chip.innkUp h = true →
    s.chip.injected req 2 = 0 →
    s.chip.cellCheck h req addr = k ∧ k ≠ 0 ∧ addr < 2 ^ 28 ∧ req < 65536 →
    (s.chip.grp (U.halfBlk h 0)).poison = [] ∧ (s.chip.grp (U.halfBlk h 0)).soft = [] →
    Does (.cellHandover h req addr next) s fun t => t.chip.get (A.half h) R.INNK_FAULT_kind = k ∧
      t.chip.get (A.half h) R.INNK_FAULT_requester = req ∧ t.chip.get (A.half h) R.INNK_FAULT_ADDR_address = addr ∧
      t.chip.get (A.half h) (if k = 1 then R.INNK_EVENT_bad_ptr else if k = 2 then R.INNK_EVENT_double_free else R.INNK_EVENT_not_owner) =
      1 ∧
      (∀ i, s.chip.reqOf h req = some i → t.chip.reg (A.half h + 0x40 * i + (if k = 1 then C.bad_ptr else if k =
        2 then C.double_free else C.not_owner)) = s.chip.reg (A.half h + 0x40 * i + (if k = 1 then C.bad_ptr else if k =
        2 then C.double_free else C.not_owner)) + 1) ∧ t.chip.ledger = s.chip.sent [s.chip.msgOf (U.halfBlk h 0) (if k =
        1 then K.bpmBadPtr else if k = 2 then K.bpmDoubleFree else K.bpmNotOwner) (if k = 1 then 3 else 2) (addr * 65536 + req)] ∧
        OnlyParts s t ([A.half h + R.INNK_EVENT, A.half h + R.INNK_FAULT,
        A.half h + R.INNK_FAULT_ADDR] ++ (s.chip.reqOf h req).toList.map fun i => A.half h + 0x40 * i + (if k = 1 then C.bad_ptr else if k =
        2 then C.double_free else C.not_owner)) [.ledger]) ∧
  -- 18: cellFree
  (∀ (s : State) (h req addr k : Nat),
    s.runs .core = true →
    s.chip.innkUp h = true →
    s.chip.injected req 2 = 0 →
    s.chip.cellCheck h req addr = k ∧ k ≠ 0 ∧ addr < 2 ^ 28 ∧ req < 65536 →
    (s.chip.grp (U.halfBlk h 0)).poison = [] ∧ (s.chip.grp (U.halfBlk h 0)).soft = [] →
    Does (.cellFree h req addr) s fun t => t.chip.get (A.half h) R.INNK_FAULT_kind = k ∧
      t.chip.get (A.half h) R.INNK_FAULT_requester = req ∧ t.chip.get (A.half h) R.INNK_FAULT_ADDR_address = addr ∧
      t.chip.get (A.half h) (if k = 1 then R.INNK_EVENT_bad_ptr else if k = 2 then R.INNK_EVENT_double_free else R.INNK_EVENT_not_owner) =
      1 ∧
      (∀ i, s.chip.reqOf h req = some i → t.chip.reg (A.half h + 0x40 * i + (if k = 1 then C.bad_ptr else if k =
        2 then C.double_free else C.not_owner)) = s.chip.reg (A.half h + 0x40 * i + (if k = 1 then C.bad_ptr else if k =
        2 then C.double_free else C.not_owner)) + 1) ∧ t.chip.ledger = s.chip.sent [s.chip.msgOf (U.halfBlk h 0) (if k =
        1 then K.bpmBadPtr else if k = 2 then K.bpmDoubleFree else K.bpmNotOwner) (if k = 1 then 3 else 2) (addr * 65536 + req)] ∧
        OnlyParts s t ([A.half h + R.INNK_EVENT, A.half h + R.INNK_FAULT,
        A.half h + R.INNK_FAULT_ADDR] ++ (s.chip.reqOf h req).toList.map fun i => A.half h + 0x40 * i + (if k = 1 then C.bad_ptr else if k =
        2 then C.double_free else C.not_owner)) [.ledger]) ∧
  -- 19: cellRead
  (∀ (s : State) (src : Source) (h p : Nat),
    h < 2 ∧ s.mayGo src (cellWin h) = true →
    (s.chip.winIn src (cellWin h)).index = p ∧ p < halfCells →
    Does (.cellRead src h) s fun t =>
      WinDone t (cellWin h) 1
        { code := 0, data := some (BitVec.ofNat 256 (s.chip.cellRec h p).word), poison := s.chip.poisoned (U.halfBlk h 0) p } ∧
      OnlyParts s t ([cellWin h + 4, cellWin h + 8] ++ errRegs (U.halfBlk h 0)) [.wins, .house, .mem, .ledger]) ∧
  -- 20: cellRead
  (∀ (s : State) (src : Source) (h : Nat),
    h < 2 ∧ s.mayGo src (cellWin h) = true →
    halfCells ≤ (s.chip.winIn src (cellWin h)).index →
    Does (.cellRead src h) s fun t => WinDone t (cellWin h) 1 { code := 6 } ∧
      OnlyParts s t [cellWin h + 4, cellWin h + 8] [.wins, .house]) ∧
  -- 21: reclaim
  (∀ (s : State) (src : Source) (h p : Nat),
    h < 2 ∧ s.mayGo src (cellWin h) = true →
    (s.chip.winIn src (cellWin h)).index = p ∧ p < halfCells →
    (s.chip.cellRec h p).count ≠ 0 →
    Does (.reclaim src h) s fun t =>
      WinDone t (cellWin h) 2 { code := 0 } ∧ t.chip.cellRec h p = {} ∧
      (∀ i, s.chip.reqOf h (s.chip.cellRec h p).lodger = some i → t.chip.used h i = s.chip.used h i - 1 ∧
        t.chip.reg (A.half h + 0x40 * i + C.reclaimed) = s.chip.reg (A.half h + 0x40 * i + C.reclaimed) + 1) ∧
      OnlyParts s t ([cellWin h + 4, cellWin h + 8, A.half h + R.INNK_STATUS,
        A.half h + R.INNK_SPILL_USED] ++ ((s.chip.reqOf h (s.chip.cellRec h p).lodger).toList.flatMap fun i => [A.half h + 4 * i +
        R.INNK_REQ_USED, A.half h + 0x40 * i + C.reclaimed]) ++ errRegs (U.halfBlk h 0) ++ injRegs) ([.wins, .house] ++ [.innkeepers, .mem,
        .fresh, .ledger])) ∧
  -- 22: reclaim
  (∀ (s : State) (src : Source) (h p : Nat),
    h < 2 ∧ s.mayGo src (cellWin h) = true →
    (s.chip.winIn src (cellWin h)).index = p →
    halfCells ≤ p ∨ (s.chip.cellRec h p).count = 0 →
    Does (.reclaim src h) s fun t =>
      WinDone t (cellWin h) 2 { code := if halfCells ≤ p then 6 else 1 } ∧ t.chip.innkeepers = s.chip.innkeepers ∧
      OnlyParts s t ([cellWin h + 4, cellWin h + 8] ++ errRegs (U.halfBlk h 0)) [.wins, .house, .mem, .ledger]) ∧
  -- 23: bpmPortErr
  (∀ (s : State) (h req : Nat),
    s.runs .core = true →
    s.chip.innkUp h = true →
    (s.chip.reqOf h req).isSome = true →
    s.chip.inReset req = false →
    Does (.bpmPortErr h req) s fun t => t.chip.ledger = s.chip.sent [s.chip.msgOf req K.bpmPortErr 4 req] ∧ OnlyLedger s t []) ∧
  -- 24: bpmPortErr
  (∀ (s : State) (h req : Nat),
    s.runs .core = true →
    s.chip.innkUp h = false ∨ s.chip.reqOf h req = none ∨ s.chip.inReset req = true →
    Does (.bpmPortErr h req) s fun t => OnlyRegs s t [])

/-- SPILL_BUNDLE_WRITE of eight spillable cells, or SPILL_BUNDLE_TIMER of fewer 1 microsecond after the last came, takes a free bundle; at a
cap, or without one, it is counted as refused; a cell read as uncorrectable makes its frame bad, which is dropped, and no bundle is
taken. SPILL_WRITE_COMPLETE frees the cells, marks the bundle written and counts it. SPILL_FETCH below the fetch mark marks the queue's
oldest bundle as being fetched and charges its cells; BUNDLE_READ_COMPLETE brings its cells back to die, a poisoned one ends its frames
and is counted and reported. REQUESTER_RECLAIM_COMPLETE, before the release, frees every cell and bundle of a requester, counts them and
sets its used figure to 0. RECOVERY_END, recover_us after the release, lifts the limit of a requester or of a half. FREE_LIST_REBUILD
returns the lost cells and writes the list anew. Each does nothing where its condition does not hold. Which bundle is free is log 50. -/
def Obligations.InnkeeperSpillsAndRecovers : Prop :=
  -- 1: spillBundleWrite
  (∀ (s : State) (h q i b : Nat) (l : List (Nat × Nat)),
    s.runs .core = true →
    s.chip.spillOk h q = true →
    8 ≤ (s.chip.spillable (q / 16384) (q % 16384)).length ∧ l = (s.chip.spillable (q / 16384) (q % 16384)).take 8 →
    s.chip.reqOf h (U.slice (q / 16384)) = some i →
    (((s.chip.innk h).bundles.filter fun b => b.2.any fun v => v.req ==
      i).length < s.chip.get (Chip.reqBase h i) R.INNK_REQ_SPILL_CAP_spill_cap ∧
      (s.chip.innk h).bundles.length < s.chip.get (A.half h) R.INNK_SPILL_region_bundles) →
    s.chip.freeBundle h = some b →
    (s.chip.grp (U.halfBlk h 8)).poison = [] ∧ (s.chip.grp (U.halfBlk h 8)).soft = [] →
    Does (.spillBundleWrite h q) s fun t => t.chip.innk h
      = { s.chip.innk h with bundles := (s.chip.innk h).bundles.set b (some { req := i, queue := q, cells := l, order := Chip.nextOrder (s.chip.innk h) }) }
      ∧ OnlyParts s t [A.half h + R.INNK_STATUS, A.half h + R.INNK_SPILL_USED] [.innkeepers]) ∧
  -- 2: spillBundleWrite
  (∀ (s : State) (h q i : Nat),
    s.runs .core = true →
    s.chip.spillOk h q = true →
    8 ≤ (s.chip.spillable (q / 16384) (q % 16384)).length →
    s.chip.reqOf h (U.slice (q / 16384)) = some i →
    (s.chip.get (Chip.reqBase h i) R.INNK_REQ_SPILL_CAP_spill_cap ≤ ((s.chip.innk h).bundles.filter fun b => b.2.any fun v => v.req ==
      i).length ∨ s.chip.get (A.half h) R.INNK_SPILL_region_bundles ≤ (s.chip.innk h).bundles.length ∨ s.chip.freeBundle h = none) →
    Does (.spillBundleWrite h q) s fun t => t.chip.reg (s.chip.halfCnt h + C.spill_full) =
      s.chip.reg (s.chip.halfCnt h + C.spill_full) + 1 ∧ t.chip.get (A.half h) R.INNK_EVENT_spill_full = 1 ∧
      OnlyParts s t [s.chip.halfCnt h + C.spill_full, A.half h + R.INNK_EVENT] []) ∧
  -- 3: spillBundleWrite
  (∀ (s : State) (h q : Nat),
    s.runs .core = true →
    s.chip.spillOk h q = false ∨ (s.chip.spillable (q / 16384) (q % 16384)).length < 8 ∨ s.chip.reqOf h (U.slice (q / 16384)) = none →
    Does (.spillBundleWrite h q) s fun t => OnlyRegs s t []) ∧
  -- 4: spillBundleTimer
  (∀ (s : State) (h q i b : Nat) (l : List (Nat × Nat)),
    s.runs .core = true →
    s.chip.spillOk h q = true →
    (s.chip.spillable (q / 16384) (q % 16384)).length < 8 ∧ l = (s.chip.spillable (q / 16384) (q % 16384)) ∧ l ≠ [] →
    s.chip.passedUs ((s.chip.innk h).spillable.look q) 1 = true →
    s.chip.reqOf h (U.slice (q / 16384)) = some i →
    (((s.chip.innk h).bundles.filter fun b => b.2.any fun v => v.req ==
      i).length < s.chip.get (Chip.reqBase h i) R.INNK_REQ_SPILL_CAP_spill_cap ∧
      (s.chip.innk h).bundles.length < s.chip.get (A.half h) R.INNK_SPILL_region_bundles) →
    s.chip.freeBundle h = some b →
    (s.chip.grp (U.halfBlk h 8)).poison = [] ∧ (s.chip.grp (U.halfBlk h 8)).soft = [] →
    Does (.spillBundleTimer h q) s fun t => t.chip.innk h
      = { s.chip.innk h with bundles := (s.chip.innk h).bundles.set b (some { req := i, queue := q, cells := l, order := Chip.nextOrder (s.chip.innk h) }) }
      ∧ OnlyParts s t [A.half h + R.INNK_STATUS, A.half h + R.INNK_SPILL_USED] [.innkeepers]) ∧
  -- 5: spillBundleTimer
  (∀ (s : State) (h q i : Nat),
    s.runs .core = true →
    s.chip.spillOk h q = true →
    (s.chip.spillable (q / 16384) (q % 16384)).length < 8 ∧ (s.chip.spillable (q / 16384) (q % 16384)) ≠ [] →
    s.chip.passedUs ((s.chip.innk h).spillable.look q) 1 = true →
    s.chip.reqOf h (U.slice (q / 16384)) = some i →
    (s.chip.get (Chip.reqBase h i) R.INNK_REQ_SPILL_CAP_spill_cap ≤ ((s.chip.innk h).bundles.filter fun b => b.2.any fun v => v.req ==
      i).length ∨ s.chip.get (A.half h) R.INNK_SPILL_region_bundles ≤ (s.chip.innk h).bundles.length ∨ s.chip.freeBundle h = none) →
    Does (.spillBundleTimer h q) s fun t => t.chip.reg (s.chip.halfCnt h + C.spill_full) =
      s.chip.reg (s.chip.halfCnt h + C.spill_full) + 1 ∧ t.chip.get (A.half h) R.INNK_EVENT_spill_full = 1 ∧
      OnlyParts s t [s.chip.halfCnt h + C.spill_full, A.half h + R.INNK_EVENT] []) ∧
  -- 6: spillBundleTimer
  (∀ (s : State) (h q i b aid pos p : Nat),
    s.runs .core = true →
    s.chip.spillOk h q = true →
    (s.chip.spillable (q / 16384) (q % 16384)).length < 8 →
    s.chip.passedUs ((s.chip.innk h).spillable.look q) 1 = true →
    s.chip.reqOf h (U.slice (q / 16384)) = some i →
    (((s.chip.innk h).bundles.filter fun b => b.2.any fun v => v.req ==
      i).length < s.chip.get (Chip.reqBase h i) R.INNK_REQ_SPILL_CAP_spill_cap ∧
      (s.chip.innk h).bundles.length < s.chip.get (A.half h) R.INNK_SPILL_region_bundles) →
    s.chip.freeBundle h = some b →
    (aid, pos) ∈ (s.chip.spillable (q / 16384) (q % 16384)) ∧ (s.chip.arr aid).places[pos]? = some (.die p) ∧
      s.chip.anyPoison (U.halfBlk h 8) (32 * p) 32 = true →
    Does (.spillBundleTimer h q) s fun t =>
      (t.chip.arr aid).copies = [] ∧ (∀ b, (s.chip.innk h).bundles.look b = none → (t.chip.innk h).bundles.look b = none) ∧
      t.chip.ledger.transit.any (fun m => m.source == s.chip.suiteUnit (U.halfBlk h 0) && m.kind == K.innkCellPoison && m.sev ==
        3 && m.addr == p * 256) = true ∧
      t.nv = s.nv ∧ t.fuses = s.fuses ∧ t.pending = s.pending) ∧
  -- 7: spillBundleTimer
  (∀ (s : State) (h q : Nat),
    s.runs .core = true →
    s.chip.spillOk h q = false ∨ (s.chip.spillable (q / 16384) (q % 16384)) = [] ∨ 8 ≤ (s.chip.spillable (q / 16384) (q % 16384)).length ∨
      s.chip.passedUs ((s.chip.innk h).spillable.look q) 1 = false ∨ s.chip.reqOf h (U.slice (q / 16384)) = none →
    Does (.spillBundleTimer h q) s fun t => OnlyRegs s t []) ∧
  -- 8: spillWriteComplete
  (∀ (s : State) (h b : Nat) (v : Bundle),
    s.runs .core = true →
    s.chip.innkUp h = true →
    (s.chip.innk h).bundles.look b = some v ∧ v.written = false →
    (v.cells.Nodup ∧ (v.cells.map fun x => (s.chip.arr x.1).places[x.2]?).Nodup ∧
      (v.cells.all fun x => match (s.chip.arr x.1).places[x.2]? with | some (.die p) => decide (p < halfCells) && (s.chip.cellRec h p).count
      == 1 && (s.chip.cellRec h p).lodger == (s.chip.arr x.1).lodger | _ => false) = true) →
    Does (.spillWriteComplete h b) s fun t =>
      (∀ x ∈ v.cells, (t.chip.arr x.1).places[x.2]? = some (.bundle b)) ∧
      (∀ x ∈ v.cells, ∀ p, (s.chip.arr x.1).places[x.2]? = some (.die p) → t.chip.cellRec h p = {}) ∧
      (∀ u i, s.chip.reqOf h u = some i → t.chip.used h i = s.chip.used h i - (v.cells.filter fun x => (s.chip.arr x.1).lodger ==
        u).length) ∧
      (t.chip.innk h).bundles.look b = some { v with written := true } ∧
      t.chip.reg (s.chip.halfCnt h + C.bundles_written) = s.chip.reg (s.chip.halfCnt h + C.bundles_written) + 1 ∧
      t.chip.reg (A.half h + 0x40 * v.req + C.bundles_spilled) = s.chip.reg (A.half h + 0x40 * v.req + C.bundles_spilled) + 1 ∧
      OnlyParts s t ([s.chip.halfCnt h + C.bundles_written, A.half h + 0x40 * v.req + C.bundles_spilled, A.half h + R.INNK_STATUS,
        A.half h + R.INNK_SPILL_USED] ++ ((List.range 16).flatMap fun i => [A.half h + 4 * i + R.INNK_REQ_USED,
        A.half h + 0x40 * i + C.free_cells]) ++ errRegs (U.halfBlk h 0) ++ injRegs) ([.arrivals] ++ [.innkeepers, .mem, .fresh, .ledger])) ∧
  -- 9: spillWriteComplete
  (∀ (s : State) (h b : Nat),
    s.runs .core = true →
    (s.chip.innkUp h = false ∨ ((s.chip.innk h).bundles.look b).all (fun v => v.written) = true) →
    Does (.spillWriteComplete h b) s fun t => OnlyRegs s t []) ∧
  -- 10: spillFetch
  (∀ (s : State) (h q b : Nat) (v : Bundle),
    s.runs .core = true →
    s.chip.innkUp h = true ∧ s.chip.stackReady h = true ∧ q / 16384 / 4 = h ∧ s.chip.alive (U.slice (q / 16384)) = true ∧
      (s.chip.queueDie (q / 16384) (q % 16384) < QueueRec.fetchMark (s.chip.queueRec (q / 16384) (q % 16384)) * 8 ∨
      (s.chip.innk h).nightHold = true) →
    s.chip.oldestBundle (q / 16384) (q % 16384) = some b →
    (s.chip.innk h).bundles.look b = some v ∧ v.req < 16 →
    s.chip.canAlloc h v.req v.cells.length = true →
    Does (.spillFetch h q) s fun t =>
      (t.chip.innk h).bundles.look b = some { v with fetching := true } ∧ t.chip.used h v.req = s.chip.used h v.req + v.cells.length ∧
      OnlyParts s t [A.half h + 4 * v.req + R.INNK_REQ_USED, A.half h + R.INNK_STATUS, A.half h + R.INNK_SPILL_USED] [.innkeepers]) ∧
  -- 11: spillFetch
  (∀ (s : State) (h q : Nat),
    s.runs .core = true →
    (¬(s.chip.innkUp h = true ∧ s.chip.stackReady h = true ∧ q / 16384 / 4 = h ∧ s.chip.alive (U.slice (q / 16384)) = true ∧
      (s.chip.queueDie (q / 16384) (q % 16384) < QueueRec.fetchMark (s.chip.queueRec (q / 16384) (q % 16384)) * 8 ∨
      (s.chip.innk h).nightHold = true)) ∨ s.chip.oldestBundle (q / 16384) (q % 16384) = none ∨
      (s.chip.oldestBundle (q / 16384) (q % 16384)).any (fun b => ((s.chip.innk h).bundles.look b).any fun v => !(s.chip.canAlloc h v.req
      v.cells.length)) = true) →
    Does (.spillFetch h q) s fun t => OnlyRegs s t []) ∧
  -- 12: bundleReadComplete
  (∀ (s : State) (h b : Nat) (v : Bundle),
    s.runs .core = true →
    s.chip.innkUp h = true →
    (s.chip.innk h).bundles.look b = some v ∧ v.fetching = true →
    (v.cells.Nodup ∧ v.cells.all (fun x => (s.chip.arrivals.look x.1).any fun a => decide (x.2 < a.places.length)) = true) →
    (s.chip.grp (U.halfBlk h 0)).poison = [] ∧ (s.chip.innk h).cells.length + (s.chip.innk h).lost.length + v.cells.length < halfCells →
    Does (.bundleReadComplete h b false) s fun t =>
      (t.chip.innk h).bundles.look b = none ∧
      (∀ x ∈ v.cells, ∃ p, (t.chip.arr x.1).places[x.2]? = some (.die p) ∧ (t.chip.cellRec h p).count = 1 ∧
        (t.chip.cellRec h p).lodger = s.chip.reqUnit h v.req) ∧
      t.chip.reg (A.half h + 0x40 * v.req + C.alloc_cells) = s.chip.reg (A.half h + 0x40 * v.req + C.alloc_cells) + BitVec.ofNat 64
        v.cells.length ∧
      t.chip.reg (s.chip.halfCnt h + C.bundles_fetched) = s.chip.reg (s.chip.halfCnt h + C.bundles_fetched) + 1 ∧
      OnlyParts s t ([s.chip.halfCnt h + C.bundles_fetched, A.half h + 0x40 * v.req + C.alloc_cells, A.half h + R.INNK_STATUS,
        A.half h + R.INNK_SPILL_USED] ++ errRegs (U.halfBlk h 0) ++ injRegs) ([.arrivals] ++ [.innkeepers, .mem, .fresh, .ledger])) ∧
  -- 13: bundleReadComplete
  (∀ (s : State) (h b : Nat) (v : Bundle),
    s.runs .core = true →
    s.chip.innkUp h = true →
    (s.chip.innk h).bundles.look b = some v ∧ v.fetching = true →
    Does (.bundleReadComplete h b true) s fun t =>
      (t.chip.innk h).bundles.look b = none ∧ (∀ aid ∈ v.cells.map Prod.fst,
        (t.chip.arr aid).copies.all (fun id => (s.chip.copies.look id).isNone) = true) ∧
      t.chip.reg (s.chip.halfCnt h + C.spill_poison_drop) = s.chip.reg (s.chip.halfCnt h + C.spill_poison_drop) + BitVec.ofNat 64
        (v.cells.map Prod.fst).dedup.length ∧
      t.chip.ledger.transit.getLast? = some (s.chip.msgOf (U.halfBlk h 0) K.spillPoison 3 b) ∧
      t.nv = s.nv ∧ t.fuses = s.fuses ∧ t.pending = s.pending) ∧
  -- 14: bundleReadComplete
  (∀ (s : State) (h b : Nat) (poisoned : Bool),
    s.runs .core = true →
    (s.chip.innkUp h = false ∨ ((s.chip.innk h).bundles.look b).all (fun v => !v.fetching) = true) →
    Does (.bundleReadComplete h b poisoned) s fun t => OnlyRegs s t []) ∧
  -- 15: requesterReclaimComplete
  (∀ (s : State) (h req i : Nat),
    s.runs .core = true →
    s.chip.innkUp h = true →
    s.chip.reqOf h req = some i →
    (s.chip.innk h).inRecovery.contains i = true ∧ (s.chip.innk h).recover.look i = none →
    Does (.requesterReclaimComplete h req) s fun t =>
      (t.chip.innk h).cells = (s.chip.innk h).cells.filter (fun x => !(x.2.lodger == s.chip.reqUnit h i && x.2.count != 0)) ∧
      (t.chip.innk h).bundles = (s.chip.innk h).bundles.filter (fun x => !(x.2.any fun v => v.req == i)) ∧ t.chip.used h i = 0 ∧
      t.chip.reg (A.half h + 0x40 * i + C.reclaimed) = s.chip.reg (A.half h + 0x40 * i + C.reclaimed) + BitVec.ofNat 64 ((s.chip.innk
        h).cells.filter fun x => x.2.lodger == s.chip.reqUnit h i && x.2.count != 0).length ∧
      OnlyParts s t ([A.half h + 4 * i + R.INNK_REQ_USED, A.half h + R.INNK_STATUS, A.half h + R.INNK_SPILL_USED,
        A.half h + 0x40 * i + C.reclaimed] ++ injRegs) [.innkeepers, .mem, .fresh, .ledger]) ∧
  -- 16: requesterReclaimComplete
  (∀ (s : State) (h req : Nat),
    s.runs .core = true →
    (s.chip.innkUp h = false ∨ (s.chip.reqOf h req).all (fun i => !((s.chip.innk h).inRecovery.contains i) || ((s.chip.innk h).recover.look
      i).isSome) = true) →
    Does (.requesterReclaimComplete h req) s fun t => OnlyRegs s t []) ∧
  -- 17: recoveryEnd
  (∀ (s : State) (h req i t0 : Nat),
    s.runs .core = true →
    s.chip.innkUp h = true →
    s.chip.reqOf h req = some i →
    req ≠ U.half h ∧ req ≠ U.halfBlk h 0 →
    (s.chip.innk h).inRecovery.contains i = true ∧ (s.chip.innk h).recover.look i = some t0 →
    s.chip.passedUs t0 (s.chip.get (A.half h) R.INNK_MODE_recover_us) = true →
    Does (.recoveryEnd h req) s fun t =>
      i ∉ (t.chip.innk h).inRecovery ∧ (t.chip.innk h).recover.look i = none ∧
        t.chip.get (A.half h + 4 * i) R.INNK_REQ_USED_recovering = 0 ∧
      t.chip.used h i = s.chip.used h i ∧ OnlyParts s t [A.half h + 4 * i + R.INNK_REQ_USED, A.half h + R.INNK_STATUS,
        A.half h + R.INNK_SPILL_USED] [.innkeepers]) ∧
  -- 18: recoveryEnd
  (∀ (s : State) (h req t0 : Nat),
    s.runs .core = true →
    s.chip.innkUp h = true →
    req = U.half h ∨ req = U.halfBlk h 0 →
    (s.chip.innk h).halfRecover = true ∧ (s.chip.innk h).halfReleased = some t0 →
    s.chip.passedUs t0 (s.chip.get (A.half h) R.INNK_MODE_recover_us) = true →
    Does (.recoveryEnd h req) s fun t =>
      t.chip.innk h = { s.chip.innk h with halfRecover := false, halfReleased := none } ∧ t.chip.get (A.half h) R.INNK_STATUS_mode_now ≠ 3 ∧
        OnlyParts s t [A.half h + R.INNK_STATUS, A.half h + R.INNK_SPILL_USED] [.innkeepers]) ∧
  -- 19: recoveryEnd
  (∀ (s : State) (h req : Nat),
    s.runs .core = true →
    (s.chip.innkUp h = false ∨ ((req = U.half h ∨ req = U.halfBlk h 0) ∧ ((s.chip.innk h).halfRecover = false ∨
      s.chip.recovered h (s.chip.innk h).halfReleased = false)) ∨ (req ≠ U.half h ∧ req ≠ U.halfBlk h 0 ∧
      (s.chip.reqOf h req).all (fun i => !((s.chip.innk h).inRecovery.contains i) || !(s.chip.recovered h ((s.chip.innk h).recover.look i)))
      = true)) →
    Does (.recoveryEnd h req) s fun t => OnlyRegs s t []) ∧
  -- 20: freeListRebuild
  (∀ (s : State) (h : Nat),
    s.runs .core = true →
    s.chip.innkUp h = true →
    (s.chip.innk h).rebuilt = false →
    Does (.freeListRebuild h) s fun t =>
      t.chip.innk h = { s.chip.innk h with lost := [], rebuilt := true } ∧
        (t.chip.grp (U.halfBlk h 0)).poison = (s.chip.grp (U.halfBlk h 0)).poison.filter (· < halfCells) ∧
      OnlyParts s t [A.half h + R.INNK_STATUS, A.half h + R.INNK_SPILL_USED] [.innkeepers, .mem]) ∧
  -- 21: freeListRebuild
  (∀ (s : State) (h : Nat),
    s.runs .core = true →
    s.chip.innkUp h = false ∨ (s.chip.innk h).rebuilt = true →
    Does (.freeListRebuild h) s fun t => OnlyRegs s t [])

/-- SCHEDULING_DECISION of a ready port with no gates, poison or change due counts, takes the head copy of the chosen queue out of it, edits
it and starts it; virtual times of the path take the start tags, and the finish tags move by its length over the weight. A copy whose
edit fails, or that is too long, is dropped and counted instead. With nothing eligible only what is eligible is marked; a port that is
not ready does nothing. SHAPER_CONFORM makes a queue that became eligible start at the later of its tag and its parent's time.
TX_FRAME_END sends the frame with its FCS, counts it and frees the line; a bad or over-long one is stomped, as is a cut-through frame
whose arrival is dead; TX_UNDERRUN of a cut-through frame sends it stomped. Without a frame that can end they do nothing. The record
windows read live or staged records, with their poison, and write staged ones; QUEUE_STATUS_READ gives a queue's status; 0x06 beyond the
range. When a decision falls is log 18, what is brought up to date with it log 51. -/
def Obligations.SchedulerDecidesAndSends : Prop :=
  -- 1: schedulingDecision
  (∀ (s : State) (p h t0 n id : Nat) (bs : List Byte) (v : Copy) (a : Arrival),
    s.runs .core = true →
    (s.chip.decisionReady p = true ∧ (s.chip.grp (Chip.schedGroup (p / 16))).poison = [] ∧
      (s.chip.portCopies p).all (fun x => decide ((s.chip.cpy x).mode ≠ .undecided)) = true ∧
      s.chip.applies.look (s.chip.schedBase (p / 16)) = none) →
    s.chip.on (A.port p) R.GATE_CTRL_enable = false →
    (s.chip.schedSync p).choose p = some (h, t0, n) ∧ (s.chip.queueCopies (p / 16) n).head? = some id ∧ s.chip.copies.look id = some v ∧
      s.chip.arrivals.look v.arrival = some a ∧ v.slice = (p / 16) ∧ v.queue = n →
    a.slice = (p / 16) ∧ (s.chip.grp (U.halfBlk (p / 64) 8)).poison = [] ∧ (s.chip.grp (U.halfBlk (p / 64) 8)).soft = [] →
    a.closed = true ∧ s.chip.scriptPoison (p / 16) v.script = false →
    editFront a.wb (s.chip.copyOps v) (s.chip.scriptData (p / 16) v.script) (s.chip.heldBody a) (s.chip.copyETag v) = .ok bs ∧
      ptpAt bs = none →
    bs.length + 4 ≤ s.chip.maxFrame p →
    Does (.schedulingDecision p) s fun t =>
      (t.chip.prt p).tx = some { copy := id, front := bs, used := (s.chip.heldBody a).length, maxFrame := s.chip.maxFrame p } ∧
      t.chip.queueCopies (p / 16) n = (s.chip.queueCopies (p / 16) n).filter (· != id) ∧
        t.chip.reg (s.chip.sliceCnt (p / 16) + C.decisions) = s.chip.reg (s.chip.sliceCnt (p / 16) + C.decisions) + 1 ∧
        t.chip.arrivals = s.chip.arrivals ∧
      (((t.chip.sch (p / 16)).base.look (p % 16)).v = (((s.chip.schedSync p).sch (p / 16)).heart.look h).s ∧
        ((t.chip.sch (p / 16)).heart.look h).v = (((s.chip.schedSync p).sch (p / 16)).top.look t0).s ∧
        ((t.chip.sch (p / 16)).top.look t0).v = (((s.chip.schedSync p).sch (p / 16)).queue.look n).s) ∧
      ((t.chip.sch (p / 16)).heart.look h).f = (chargeTags (HeartRec.weight (s.chip.heartRec (p / 16) h)) (((s.chip.schedSync p).sch (p /
        16)).heart.look h) (((s.chip.outLen id : Nat) : Int) + (s.chip.baseOverhead p))).f ∧
        ((t.chip.sch (p / 16)).top.look t0).f = (chargeTags (TopRec.weight (s.chip.topRec (p / 16) t0)) (((s.chip.schedSync p).sch (p /
        16)).top.look t0) (((s.chip.outLen id : Nat) : Int) + (HeartRec.overhead (s.chip.heartRec (p / 16) h)))).f ∧
        ((t.chip.sch (p / 16)).queue.look n).f = (chargeTags (QueueRec.weight (s.chip.queueRec (p / 16) n)) (((s.chip.schedSync p).sch (p /
        16)).queue.look n) (((s.chip.outLen id : Nat) : Int) + (HeartRec.overhead (s.chip.heartRec (p / 16) h)))).f ∧
      t.chip.get (Chip.baseAt (p / 16) (p % 16)) R.BASE_VTIME_vtime = (((s.chip.schedSync p).sch (p / 16)).heart.look h).s ∧
      OnlyParts s t [s.chip.sliceCnt (p / 16) + C.decisions, s.chip.sliceCnt (p / 16) + C.sf_frames, s.chip.sliceCnt (p / 16) + C.ct_frames,
        Chip.baseAt (p / 16) (p % 16) + R.BASE_VTIME] [.scheds, .ports, .copies]) ∧
  -- 2: schedulingDecision
  (∀ (s : State) (p h t0 n id : Nat) (v : Copy) (a : Arrival),
    s.runs .core = true →
    (s.chip.decisionReady p = true ∧ (s.chip.grp (Chip.schedGroup (p / 16))).poison = [] ∧
      (s.chip.portCopies p).all (fun x => decide ((s.chip.cpy x).mode ≠ .undecided)) = true ∧
      s.chip.applies.look (s.chip.schedBase (p / 16)) = none) →
    s.chip.on (A.port p) R.GATE_CTRL_enable = false →
    (s.chip.schedSync p).choose p = some (h, t0, n) ∧ (s.chip.queueCopies (p / 16) n).head? = some id ∧ s.chip.copies.look id = some v ∧
      s.chip.arrivals.look v.arrival = some a ∧ v.slice = (p / 16) ∧ v.queue = n →
    a.slice = (p / 16) ∧ (s.chip.grp (U.halfBlk (p / 64) 8)).poison = [] ∧ (s.chip.grp (U.halfBlk (p / 64) 8)).soft = [] →
    s.chip.scriptPoison (p / 16) v.script = false →
    editFront a.wb (s.chip.copyOps v) (s.chip.scriptData (p / 16) v.script) (s.chip.heldBody a) (s.chip.copyETag v) = .err →
    Does (.schedulingDecision p) s fun t =>
      t.chip.copies.look id = none ∧ (t.chip.prt p).tx = none ∧
        t.chip.reg (s.chip.sliceCnt (p / 16) + C.decisions) = s.chip.reg (s.chip.sliceCnt (p / 16) + C.decisions) + 1 ∧
      t.chip.reg (s.chip.sliceCnt (p / 16) + C.edit_err_drop) = s.chip.reg (s.chip.sliceCnt (p / 16) + C.edit_err_drop) + 1 ∧
      t.chip.ledger.transit.any (fun m => m.source == s.chip.suiteUnit (U.sliceBlk (p / 16) 0x60) && m.kind == K.scriptErr && m.sev ==
        1 && m.addr == v.script) = true ∧ t.nv = s.nv ∧ t.fuses = s.fuses ∧ t.pending = s.pending) ∧
  -- 3: schedulingDecision
  (∀ (s : State) (p h t0 n id : Nat) (bs : List Byte) (v : Copy) (a : Arrival),
    s.runs .core = true →
    (s.chip.decisionReady p = true ∧ (s.chip.grp (Chip.schedGroup (p / 16))).poison = [] ∧
      (s.chip.portCopies p).all (fun x => decide ((s.chip.cpy x).mode ≠ .undecided)) = true ∧
      s.chip.applies.look (s.chip.schedBase (p / 16)) = none) →
    s.chip.on (A.port p) R.GATE_CTRL_enable = false →
    (s.chip.schedSync p).choose p = some (h, t0, n) ∧ (s.chip.queueCopies (p / 16) n).head? = some id ∧ s.chip.copies.look id = some v ∧
      s.chip.arrivals.look v.arrival = some a ∧ v.slice = (p / 16) ∧ v.queue = n →
    a.slice = (p / 16) ∧ (s.chip.grp (U.halfBlk (p / 64) 8)).poison = [] ∧ (s.chip.grp (U.halfBlk (p / 64) 8)).soft = [] →
    s.chip.scriptPoison (p / 16) v.script = false →
    editFront a.wb (s.chip.copyOps v) (s.chip.scriptData (p / 16) v.script) (s.chip.heldBody a) (s.chip.copyETag v) = .ok bs ∧
      s.chip.maxFrame p < bs.length + 4 →
    Does (.schedulingDecision p) s fun t =>
      t.chip.copies.look id = none ∧ (t.chip.prt p).tx = none ∧
        t.chip.reg (s.chip.sliceCnt (p / 16) + C.decisions) = s.chip.reg (s.chip.sliceCnt (p / 16) + C.decisions) + 1 ∧
      t.chip.reg (s.chip.portCnt p + C.tx_oversize) = s.chip.reg (s.chip.portCnt p + C.tx_oversize) + 1 ∧ t.nv = s.nv ∧ t.fuses = s.fuses ∧
        t.pending = s.pending) ∧
  -- 4: schedulingDecision
  (∀ (s : State) (p : Nat),
    s.runs .core = true →
    (s.chip.decisionReady p = true ∧ (s.chip.grp (Chip.schedGroup (p / 16))).poison = [] ∧
      (s.chip.portCopies p).all (fun x => decide ((s.chip.cpy x).mode ≠ .undecided)) = true ∧
      s.chip.applies.look (s.chip.schedBase (p / 16)) = none) →
    s.chip.on (A.port p) R.GATE_CTRL_enable = false →
    (s.chip.schedSync p).choose p = none →
    Does (.schedulingDecision p) s fun t => OnlyParts s t [] [.scheds]) ∧
  -- 5: schedulingDecision
  (∀ (s : State) (p : Nat),
    s.runs .core = true →
    s.chip.decisionReady p = false →
    Does (.schedulingDecision p) s fun t => OnlyRegs s t []) ∧
  -- 6: shaperConform
  (∀ (s : State) (sl n : Nat),
    s.runs .core = true →
    sl < 8 ∧ s.chip.alive (U.slice sl) = true ∧ n < 16384 →
    s.chip.on (A.port (16 * sl + s.chip.queueBase sl n)) R.GATE_CTRL_enable = false →
    n ∈ (s.chip.eligSets (16 * sl + s.chip.queueBase sl n)).1 →
    ((s.chip.sch sl).queue.look n).elig = false →
    Does (.shaperConform sl (3 * 16384 + n)) s fun t =>
      (t.chip.sch sl).queue.look n
        = { (s.chip.sch sl).queue.look n with elig := true, s := tagMax ((s.chip.sch sl).queue.look n).s ((s.chip.sch sl).top.look (n / 8)).v }
        ∧ OnlyParts s t [] [.scheds]) ∧
  -- 7: shaperConform
  (∀ (s : State) (sl node : Nat),
    s.runs .core = true →
    (sl < 8 ∧ (List.range 16).all (fun q => !(s.chip.on (A.port (16 * sl + q)) R.GATE_CTRL_enable)) = true) →
    Does (.shaperConform sl node) s fun t => OnlyParts s t [] [.scheds]) ∧
  -- 8: shaperConform
  (∀ (s : State) (sl node : Nat),
    s.runs .core = true →
    8 ≤ sl ∨ s.chip.alive (U.slice sl) = false →
    Does (.shaperConform sl node) s fun t => OnlyRegs s t []) ∧
  -- 9: txFrameEnd
  (∀ (s : State) (p : Nat) (x : Tx) (a : Arrival) (v : Copy),
    s.runs .core = true →
    p < 128 →
    (s.chip.prt p).tx = some x ∧ s.chip.copies.look x.copy = some v ∧ s.chip.arrivals.look v.arrival = some a →
    (s.chip.grp (U.halfBlk (a.slice / 4) 8)).poison = [] →
    x.cut = false ∧ a.closed = true ∧ a.bad = false →
    (x.front ++ (s.chip.heldBody a).drop x.used).length + 4 ≤ x.maxFrame →
    Does (.txFrameEnd p) s fun t =>
      t.chip.out.head? = some (.tx p (withFcs (x.front ++ (s.chip.heldBody a).drop x.used) false)) ∧ (t.chip.prt p).tx = none ∧
        (t.chip.prt p).idleAt = s.chip.now ∧ t.chip.copies.look x.copy = none ∧
        t.chip.reg (s.chip.portCnt p + C.tx_frames) = s.chip.reg (s.chip.portCnt p + C.tx_frames) + 1 ∧
      t.chip.reg ((s.chip.queueCnt (p / 16) v.queue) + C.q_tx_frames) =
        s.chip.reg ((s.chip.queueCnt (p / 16) v.queue) + C.q_tx_frames) + 1 ∧
        t.chip.reg (s.chip.portCnt p + C.tx_stomped) = s.chip.reg (s.chip.portCnt p + C.tx_stomped) ∧ t.nv = s.nv ∧ t.fuses = s.fuses ∧
        t.pending = s.pending) ∧
  -- 10: txFrameEnd
  (∀ (s : State) (p : Nat) (x : Tx) (a : Arrival) (v : Copy),
    s.runs .core = true →
    p < 128 →
    (s.chip.prt p).tx = some x ∧ s.chip.copies.look x.copy = some v ∧ s.chip.arrivals.look v.arrival = some a →
    (s.chip.grp (U.halfBlk (a.slice / 4) 8)).poison = [] →
    a.closed = true ∧ a.dead = false →
    a.bad = true ∨ x.maxFrame < (x.front ++ (s.chip.heldBody a).drop x.used).length + 4 →
    4 ≤ x.maxFrame →
    Does (.txFrameEnd p) s fun t =>
      t.chip.out.head? = some (.tx p (withFcs ((x.front ++ (s.chip.heldBody a).drop x.used).take (x.maxFrame - 4)) true)) ∧
        (t.chip.prt p).tx = none ∧ (t.chip.prt p).idleAt = s.chip.now ∧ t.chip.copies.look x.copy = none ∧
        t.chip.reg (s.chip.portCnt p + C.tx_frames) = s.chip.reg (s.chip.portCnt p + C.tx_frames) + 1 ∧
      t.chip.reg ((s.chip.queueCnt (p / 16) v.queue) + C.q_tx_frames) =
        s.chip.reg ((s.chip.queueCnt (p / 16) v.queue) + C.q_tx_frames) + 1 ∧
        t.chip.reg (s.chip.portCnt p + C.tx_stomped) = s.chip.reg (s.chip.portCnt p + C.tx_stomped) + 1 ∧ t.nv = s.nv ∧ t.fuses = s.fuses ∧
        t.pending = s.pending) ∧
  -- 11: txFrameEnd
  (∀ (s : State) (p : Nat) (x : Tx) (a : Arrival) (v : Copy),
    s.runs .core = true →
    p < 128 →
    (s.chip.prt p).tx = some x ∧ s.chip.copies.look x.copy = some v ∧ s.chip.arrivals.look v.arrival = some a →
    (s.chip.grp (U.halfBlk (a.slice / 4) 8)).poison = [] →
    x.cut = true ∧ a.dead = true →
    (x.front ++ (s.chip.heldBody a).drop x.used).length + 4 ≤ x.maxFrame →
    Does (.txFrameEnd p) s fun t =>
      t.chip.out.head? = some (.tx p (withFcs (x.front ++ (s.chip.heldBody a).drop x.used) true)) ∧ (t.chip.prt p).tx = none ∧
        (t.chip.prt p).idleAt = s.chip.now ∧ t.chip.copies.look x.copy = none ∧
        t.chip.reg (s.chip.portCnt p + C.tx_frames) = s.chip.reg (s.chip.portCnt p + C.tx_frames) + 1 ∧
      t.chip.reg (s.chip.portCnt p + C.tx_stomped) = s.chip.reg (s.chip.portCnt p + C.tx_stomped) + 1 ∧
        t.chip.reg (s.chip.sliceCnt (p / 16) + C.underrun_stomp) = s.chip.reg (s.chip.sliceCnt (p / 16) + C.underrun_stomp) + 1 ∧
        t.nv = s.nv ∧ t.fuses = s.fuses ∧ t.pending = s.pending) ∧
  -- 12: txFrameEnd
  (∀ (s : State) (p : Nat),
    s.runs .core = true →
    ((s.chip.prt p).tx.all (fun x => !((s.chip.arr (s.chip.cpy x.copy).arrival).closed || (s.chip.arr (s.chip.cpy x.copy).arrival).dead)) =
      true) →
    Does (.txFrameEnd p) s fun t => OnlyRegs s t []) ∧
  -- 13: txUnderrun
  (∀ (s : State) (p : Nat) (x : Tx) (a : Arrival) (v : Copy),
    s.runs .core = true →
    p < 128 →
    (s.chip.prt p).tx = some x ∧ s.chip.copies.look x.copy = some v ∧ s.chip.arrivals.look v.arrival = some a →
    (s.chip.grp (U.halfBlk (a.slice / 4) 8)).poison = [] →
    x.cut = true ∧ (a.closed = false ∨ a.dead = true) →
    (x.front ++ (s.chip.heldBody a).drop x.used).length + 4 ≤ x.maxFrame →
    Does (.txUnderrun p) s fun t =>
      t.chip.out.head? = some (.tx p (withFcs (x.front ++ (s.chip.heldBody a).drop x.used) true)) ∧ (t.chip.prt p).tx = none ∧
        (t.chip.prt p).idleAt = s.chip.now ∧ t.chip.copies.look x.copy = none ∧
        t.chip.reg (s.chip.portCnt p + C.tx_frames) = s.chip.reg (s.chip.portCnt p + C.tx_frames) + 1 ∧
      t.chip.reg ((s.chip.queueCnt (p / 16) v.queue) + C.q_tx_frames) =
        s.chip.reg ((s.chip.queueCnt (p / 16) v.queue) + C.q_tx_frames) + 1 ∧
        t.chip.reg (s.chip.portCnt p + C.tx_stomped) = s.chip.reg (s.chip.portCnt p + C.tx_stomped) + 1 ∧
        t.chip.reg (s.chip.sliceCnt (p / 16) + C.underrun_stomp) = s.chip.reg (s.chip.sliceCnt (p / 16) + C.underrun_stomp) + 1 ∧
        t.nv = s.nv ∧ t.fuses = s.fuses ∧ t.pending = s.pending) ∧
  -- 14: txUnderrun
  (∀ (s : State) (p : Nat),
    s.runs .core = true →
    ((s.chip.prt p).tx.all (fun x => !x.cut || ((s.chip.arr (s.chip.cpy x.copy).arrival).closed && !((s.chip.arr (s.chip.cpy
      x.copy).arrival).dead))) = true) →
    Does (.txUnderrun p) s fun t => OnlyRegs s t []) ∧
  -- 15: schedRecordRead
  (∀ (s : State) (src : Source) (base sl : Nat) (l : Level),
    s.mayGo src base = true →
    schedWindow base = some (sl, l) →
    (s.chip.winIn src base).index < l.count →
    Does (.schedRecordRead src base) s fun t =>
      WinDone t base 1 { code := 0, data := some (if s.chip.on (schedApply sl) R.APPLY_live_view then (s.chip.recs sl).live l (s.chip.winIn src base).index else (s.chip.recs sl).staged l (s.chip.winIn src base).index), poison := s.chip.anyPoison (Chip.schedGroup sl) (if s.chip.on (schedApply sl) R.APPLY_live_view then (Chip.nodeWords l.code (s.chip.winIn src base).index).1 else (Chip.nodeWords l.code (s.chip.winIn src base).index).2.1) (Chip.nodeWords l.code (s.chip.winIn src base).index).2.2.2 }
        ∧
      OnlyParts s t ([base + 4, base + 8] ++ errRegs (Chip.schedGroup sl)) [.wins, .house, .mem, .ledger]) ∧
  -- 16: schedRecordRead
  (∀ (s : State) (src : Source) (base sl : Nat) (l : Level),
    s.mayGo src base = true →
    schedWindow base = some (sl, l) →
    l.count ≤ (s.chip.winIn src base).index →
    Does (.schedRecordRead src base) s fun t => WinDone t base 1 { code := 6 } ∧ OnlyParts s t [base + 4, base + 8] [.wins, .house]) ∧
  -- 17: schedRecordWrite
  (∀ (s : State) (src : Source) (base sl : Nat) (l : Level),
    s.mayGo src base = true →
    schedWindow base = some (sl, l) →
    (s.chip.winIn src base).index < l.count →
    Does (.schedRecordWrite src base) s fun t =>
      WinDone t base 2 { code := 0 } ∧
      (t.chip.recs sl).staged l (s.chip.winIn src base).index = (if l =
        .queue then (s.chip.winIn src base).data else BitVec.ofNat 256 ((s.chip.winIn src base).data.toNat % 2 ^ 128)) ∧
      (t.chip.recs sl).heart = (s.chip.recs sl).heart ∧ (t.chip.recs sl).top = (s.chip.recs sl).top ∧
        (t.chip.recs sl).queue = (s.chip.recs sl).queue ∧
      (l, (s.chip.winIn src base).index) ∈ (t.chip.recs sl).written ∧
        OnlyParts s t ([base + 4, base + 8] ++ injRegs) [.wins, .house, .records, .since, .mem, .fresh, .ledger]) ∧
  -- 18: schedRecordWrite
  (∀ (s : State) (src : Source) (base sl : Nat) (l : Level),
    s.mayGo src base = true →
    schedWindow base = some (sl, l) →
    l.count ≤ (s.chip.winIn src base).index →
    Does (.schedRecordWrite src base) s fun t => WinDone t base 2 { code := 6 } ∧ OnlyParts s t [base + 4, base + 8] [.wins, .house]) ∧
  -- 19: queueStatusRead
  (∀ (s : State) (src : Source) (sl : Nat),
    sl < 8 →
    s.mayGo src (A.slice sl + 0x8100C0) = true →
    (s.chip.winIn src (A.slice sl + 0x8100C0)).index < 16384 →
    Does (.queueStatusRead src sl) s fun t =>
      WinDone t (A.slice sl + 0x8100C0) 1
        { code := 0, data := some (s.chip.queueStatus sl (s.chip.winIn src (A.slice sl + 0x8100C0)).index) } ∧
      OnlyParts s t [(A.slice sl + 0x8100C0) + 4, (A.slice sl + 0x8100C0) + 8] [.wins, .house]) ∧
  -- 20: queueStatusRead
  (∀ (s : State) (src : Source) (sl : Nat),
    sl < 8 →
    s.mayGo src (A.slice sl + 0x8100C0) = true →
    16384 ≤ (s.chip.winIn src (A.slice sl + 0x8100C0)).index →
    Does (.queueStatusRead src sl) s fun t => WinDone t (A.slice sl + 0x8100C0) 1 { code := 6 } ∧
      OnlyParts s t [(A.slice sl + 0x8100C0) + 4, (A.slice sl + 0x8100C0) + 8] [.wins, .house])

/-- HBM_REQUEST of a requester with none at that arbiter puts it in line, at the place its share was moved to, and by sr_wake wakes a stack
in self-refresh for the control complex and the debug port. Of the control complex, the staging area reads zeros and drops writes, an
unmapped share reads poisoned and drops writes. HBM_ARB_DECISION grants the best waiting requester by priority, wait and code, counts its
activations, and has a row that reaches rh_acts throttle it; the debug port goes before a holder, which is suspended in native mode, and
a higher priority before one of compatibility mode, which starts again; a suspended holder goes on when the channel is free.
HBM_TRANSFER_COMPLETE stores the written bytes and no others, during a copy in the reserve too, or returns the read bytes, where the
memory holds them; a corrected word is counted and reported once per 1 ms, an uncorrectable one poisons the read, is recorded and
reported, and beyond unc_limit retires the channel. HBM_TEMP_READ records the temperature. What meets none of these changes nothing.
Which words err is log 54, where the command falls log 55. -/
def Obligations.HbmServesRequests : Prop :=
  -- 1: hbmRequest
  (∀ (s : State) (m pc req addr beats : Nat) (write : Bool) (data : List Byte),
    s.runs .core = true →
    hbmFits s.chip m req addr beats = true ∧ s.chip.hbmThere m = true ∧ pc < 32 →
    (((s.chip.hpc m pc).holder.toList ++ (s.chip.hpc m pc).suspended ++ (s.chip.hpc m pc).waiting).any (fun r => r.req == req) = false) →
    req ≠ 4 ∨ (2 ^ 21 ≤ addr ∧ ¬((pc ∈ (s.chip.hb m).unmapped ∧ (Chip.shareGranule addr).isSome = true) ∨
      ((s.chip.remap m pc addr).2.2.isSome = true ∧ s.chip.hbmRetired m (s.chip.remap m pc addr).1 = true))) →
    ¬(s.chip.hbmUp m = true ∧ s.chip.get (A.hbm m) R.HBM_CTRL_sr_wake = 1 ∧ (req = 4 ∨ req = 1)) ∨ (s.chip.hbmState m ≠ 3 ∧
      s.chip.hbmState m ≠ 4) →
    Does (.hbmRequest m pc req addr write beats data) s fun t => (t.chip.hpc m (if req = 4 then s.chip.remap m pc addr else (pc, addr,
      none)).1).waiting = (s.chip.hpc m (if req = 4 then s.chip.remap m pc addr else (pc, addr,
      none)).1).waiting ++ [{ req, addr := (if req = 4 then s.chip.remap m pc addr else (pc, addr, none)).2.1, write, beats, data := data.take (64 * beats), since := s.chip.now }]
      ∧ OnlyParts s t [] [.hbms]) ∧
  -- 2: hbmRequest
  (∀ (s : State) (m pc req addr beats : Nat) (write : Bool) (data : List Byte),
    s.runs .core = true →
    hbmFits s.chip m req addr beats = true ∧ s.chip.hbmThere m = true ∧ pc < 32 →
    (((s.chip.hpc m pc).holder.toList ++ (s.chip.hpc m pc).suspended ++ (s.chip.hpc m pc).waiting).any (fun r => r.req == req) = false) →
    req ≠ 4 ∨ (2 ^ 21 ≤ addr ∧ ¬((pc ∈ (s.chip.hb m).unmapped ∧ (Chip.shareGranule addr).isSome = true) ∨
      ((s.chip.remap m pc addr).2.2.isSome = true ∧ s.chip.hbmRetired m (s.chip.remap m pc addr).1 = true))) →
    s.chip.hbmUp m = true ∧ s.chip.get (A.hbm m) R.HBM_CTRL_sr_wake = 1 ∧ (req = 4 ∨ req = 1) →
    s.chip.hbmState m = 3 ∨ s.chip.hbmState m = 4 →
    Does (.hbmRequest m pc req addr write beats data) s fun t =>
      (t.chip.hpc m (if req = 4 then s.chip.remap m pc addr else (pc, addr, none)).1).waiting = (s.chip.hpc m (if req =
        4 then s.chip.remap m pc addr else (pc, addr, none)).1).waiting ++
        [{ req, addr := (if req = 4 then s.chip.remap m pc addr else (pc, addr, none)).2.1, write, beats, data := data.take (64 * beats), since := s.chip.now }]
        ∧ (t.chip.hb m).wokenByRequest = true ∧ t.chip.hbmState m = (if s.chip.hbmState m = 4 then 5 else 3) ∧ (s.chip.hbmState m = 3 →
        (t.chip.hb m).wakeDue = true) ∧
      OnlyParts s t [A.hbm m + R.HBM_STATUS] [.hbms]) ∧
  -- 3: hbmRequest
  (∀ (s : State) (m pc addr beats : Nat) (write : Bool) (data : List Byte),
    s.runs .core = true →
    hbmFits s.chip m 4 addr beats = true ∧ pc < 32 ∧ addr < 2 ^ 21 →
    Does (.hbmRequest m pc 4 addr write beats data) s fun t =>
      (write = false → t.chip.out = [.hbm m pc 4 false (List.replicate (64 * beats) 0)]) ∧ OnlyRegs s t []) ∧
  -- 4: hbmRequest
  (∀ (s : State) (m pc addr beats req : Nat) (write : Bool) (data : List Byte),
    s.runs .core = true →
    req = 4 →
    hbmFits s.chip m req addr beats = true ∧ s.chip.hbmThere m = true ∧ pc < 32 →
    (((s.chip.hpc m pc).holder.toList ++ (s.chip.hpc m pc).suspended ++ (s.chip.hpc m pc).waiting).any (fun r => r.req == req) = false) →
    2 ^ 21 ≤ addr ∧ ((pc ∈ (s.chip.hb m).unmapped ∧ (Chip.shareGranule addr).isSome = true) ∨ ((s.chip.remap m pc addr).2.2.isSome = true ∧
      s.chip.hbmRetired m (s.chip.remap m pc addr).1 = true)) →
    Does (.hbmRequest m pc 4 addr write beats data) s fun t => (write = false → t.chip.out = [.hbm m pc 4 true []]) ∧ OnlyRegs s t []) ∧
  -- 5: hbmRequest
  (∀ (s : State) (m pc req addr beats : Nat) (write : Bool) (data : List Byte),
    s.runs .core = true →
    req ≠ 4 ∨ 2 ^ 21 ≤ addr →
    (32 ≤ pc ∨ s.chip.hbmThere m = false ∨ hbmFits s.chip m req addr beats = false ∨
      ((s.chip.hpc m pc).holder.toList ++ (s.chip.hpc m pc).suspended ++ (s.chip.hpc m pc).waiting).any (fun r => r.req == req) = true) →
    Does (.hbmRequest m pc req addr write beats data) s fun t => OnlyRegs s t []) ∧
  -- 6: hbmArbDecision
  (∀ (s : State) (m pc : Nat) (r : HbmReq),
    s.runs .core = true →
    s.chip.hbmUp m = true ∧ pc < 32 ∧ s.chip.inReset (pcUnit m pc) = false ∧ (s.chip.hpc m pc).emergency = none →
    ((s.chip.hpc m pc).waiting.any (fun x => x.req == 1 && s.chip.pcGrants m pc x && !(s.chip.throttled m pc 1)) = false) →
    (s.chip.hpc m pc).holder = none ∧ (s.chip.hpc m pc).suspended = [] →
    (r ∈ (s.chip.hpc m pc).waiting ∧ s.chip.pcGrants m pc r = true ∧ s.chip.throttled m pc r.req = false ∧
      (s.chip.hpc m pc).waiting.all (fun x => x == r || !(s.chip.pcGrants m pc x) || s.chip.throttled m pc x.req || s.chip.beats m r x) =
      true) →
    ((accesses r.addr r.beats).Nodup ∧ ∀ k ∈ accesses r.addr r.beats,
      (s.chip.hpc m pc).acts.look k + 1 ≠ s.chip.get (A.hbm m) R.HBM_ROWGUARD_rh_acts) →
    Does (.hbmArbDecision m pc) s fun t =>
      (t.chip.hpc m pc).holder = some { r with began := true, compat := s.chip.on (A.hbm m) R.HBM_STATUS_compat } ∧
        (t.chip.hpc m pc).waiting = (s.chip.hpc m pc).waiting.filter (· != r) ∧
        (t.chip.hpc m pc).stepHeld = ((s.chip.hpc m pc).stepHeld || r.req == 6) ∧
        t.chip.reg (A.hbm m + C.grants + 8 * r.req) = s.chip.reg (A.hbm m + C.grants + 8 * r.req) + 1 ∧
      (∀ k ∈ accesses r.addr r.beats, (t.chip.hpc m pc).acts.look k = (s.chip.hpc m pc).acts.look k + 1) ∧
      OnlyParts s t [A.hbm m + C.grants + 8 * r.req, A.hbm m + 0x40 * pc + C.restarts, A.hbm m + R.HBM_STATUS] [.hbms]) ∧
  -- 7: hbmArbDecision
  (∀ (s : State) (m pc k : Nat) (r : HbmReq),
    s.runs .core = true →
    s.chip.hbmUp m = true ∧ pc < 32 ∧ s.chip.inReset (pcUnit m pc) = false ∧ (s.chip.hpc m pc).emergency = none →
    ((s.chip.hpc m pc).waiting.any (fun x => x.req == 1 && s.chip.pcGrants m pc x && !(s.chip.throttled m pc 1)) = false) →
    (s.chip.hpc m pc).holder = none ∧ (s.chip.hpc m pc).suspended = [] →
    (r ∈ (s.chip.hpc m pc).waiting ∧ s.chip.pcGrants m pc r = true ∧ s.chip.throttled m pc r.req = false ∧
      (s.chip.hpc m pc).waiting.all (fun x => x == r || !(s.chip.pcGrants m pc x) || s.chip.throttled m pc x.req || s.chip.beats m r x) =
      true) →
    r.req < 6 →
    accesses r.addr r.beats = [k] →
    (s.chip.hpc m pc).acts.look k + 1 = s.chip.get (A.hbm m) R.HBM_ROWGUARD_rh_acts →
    2 ≤ k % 16384 ∧ k % 16384 + 2 < 16384 →
    Does (.hbmArbDecision m pc) s fun t =>
      (t.chip.hpc m pc).throttle.look r.req = s.chip.now + s.chip.get (A.hbm m) R.HBM_ROWGUARD_rh_hold_ms * 1000000 ∧
      (t.chip.hpc m pc).victims = (s.chip.hpc m pc).victims ++ [(k - 2, s.chip.now), (k - 1, s.chip.now), (k + 1, s.chip.now), (k + 2,
        s.chip.now)] ∧
      t.chip.get (A.hbm m) R.HBM_EVENT_hammer = 1 ∧
      t.chip.reg (A.hbm m + 0x40 * pc + C.hammer_events) = s.chip.reg (A.hbm m + 0x40 * pc + C.hammer_events) + 1 ∧
      t.chip.ledger = s.chip.sent (if (s.chip.hpc m pc).hammered.contains (k / 16384) then [] else [s.chip.msgOf (pcUnit m pc) K.hbmHammer 1
        (faultAddr pc (k % 16384 * 32768 + k / 16384 * 1024) r.req)]) ∧
      OnlyParts s t [A.hbm m + C.grants + 8 * r.req, A.hbm m + 0x40 * pc + C.restarts, A.hbm m + 0x40 * pc + C.hammer_events,
        A.hbm m + R.HBM_FAULT_ADDR, A.hbm m + R.HBM_EVENT] [.hbms, .ledger]) ∧
  -- 8: hbmArbDecision
  (∀ (s : State) (m pc : Nat) (r h : HbmReq),
    s.runs .core = true →
    s.chip.hbmUp m = true ∧ pc < 32 ∧ s.chip.inReset (pcUnit m pc) = false ∧ (s.chip.hpc m pc).emergency = none →
    ((s.chip.hpc m pc).waiting.find? (fun x => x.req == 1 && s.chip.pcGrants m pc x && !(s.chip.throttled m pc 1)) = some r) →
    (s.chip.hpc m pc).holder = some h ∧ h.req ≠ 1 ∧ (h.compat = false ∨ h.req = 6) →
    ((accesses r.addr r.beats).Nodup ∧ ∀ k ∈ accesses r.addr r.beats,
      (s.chip.hpc m pc).acts.look k + 1 ≠ s.chip.get (A.hbm m) R.HBM_ROWGUARD_rh_acts) →
    Does (.hbmArbDecision m pc) s fun t =>
      (t.chip.hpc m pc).holder = some { r with began := true, compat := s.chip.on (A.hbm m) R.HBM_STATUS_compat } ∧
        (t.chip.hpc m pc).suspended = h :: (s.chip.hpc m pc).suspended ∧
        (t.chip.hpc m pc).waiting = (s.chip.hpc m pc).waiting.filter (· != r) ∧
        t.chip.reg (A.hbm m + C.grants + 8 * r.req) = s.chip.reg (A.hbm m + C.grants + 8 * r.req) + 1 ∧
      t.chip.reg (A.hbm m + 0x40 * pc + C.preemptions) = s.chip.reg (A.hbm m + 0x40 * pc + C.preemptions) + 1 ∧
      OnlyParts s t [A.hbm m + C.grants + 8 * r.req, A.hbm m + 0x40 * pc + C.restarts, A.hbm m + 0x40 * pc + C.preemptions,
        A.hbm m + R.HBM_STATUS] [.hbms]) ∧
  -- 9: hbmArbDecision
  (∀ (s : State) (m pc : Nat) (r h : HbmReq),
    s.runs .core = true →
    s.chip.hbmUp m = true ∧ pc < 32 ∧ s.chip.inReset (pcUnit m pc) = false ∧ (s.chip.hpc m pc).emergency = none →
    ((s.chip.hpc m pc).waiting.any (fun x => x.req == 1 && s.chip.pcGrants m pc x && !(s.chip.throttled m pc 1)) = false) →
    (s.chip.hpc m pc).holder = some h ∧ h.compat = true ∧ h.write = false ∧ h.req ≠ 1 ∧ h.req ≠ 6 →
    (r ∈ (s.chip.hpc m pc).waiting ∧ s.chip.pcGrants m pc r = true ∧ s.chip.throttled m pc r.req = false ∧
      (s.chip.hpc m pc).waiting.all (fun x => x == r || !(s.chip.pcGrants m pc x) || s.chip.throttled m pc x.req || s.chip.beats m r x) =
      true) →
    r.req < 6 ∧ s.chip.hbmPrio m h.req < s.chip.hbmPrio m r.req →
    ((accesses r.addr r.beats).Nodup ∧ ∀ k ∈ accesses r.addr r.beats,
      (s.chip.hpc m pc).acts.look k + 1 ≠ s.chip.get (A.hbm m) R.HBM_ROWGUARD_rh_acts) →
    Does (.hbmArbDecision m pc) s fun t =>
      (t.chip.hpc m pc).holder = some { r with began := true, compat := s.chip.on (A.hbm m) R.HBM_STATUS_compat } ∧
        (t.chip.hpc m pc).suspended = (s.chip.hpc m pc).suspended ∧
        (t.chip.hpc m pc).waiting = ({ h with since := s.chip.now, starved := false } :: (s.chip.hpc m pc).waiting).filter (· != r) ∧
        t.chip.reg (A.hbm m + C.grants + 8 * r.req) = s.chip.reg (A.hbm m + C.grants + 8 * r.req) + 1 ∧
      t.chip.reg (A.hbm m + 0x40 * pc + C.preemptions) = s.chip.reg (A.hbm m + 0x40 * pc + C.preemptions) + 1 ∧
      OnlyParts s t [A.hbm m + C.grants + 8 * r.req, A.hbm m + 0x40 * pc + C.restarts, A.hbm m + 0x40 * pc + C.preemptions] [.fresh,
        .hbms]) ∧
  -- 10: hbmArbDecision
  (∀ (s : State) (m pc : Nat) (r : HbmReq) (l : List HbmReq),
    s.runs .core = true →
    s.chip.hbmUp m = true ∧ pc < 32 ∧ s.chip.inReset (pcUnit m pc) = false ∧ (s.chip.hpc m pc).emergency = none →
    ((s.chip.hpc m pc).waiting.any (fun x => x.req == 1 && s.chip.pcGrants m pc x && !(s.chip.throttled m pc 1)) = false) →
    (s.chip.hpc m pc).holder = none ∧ (s.chip.hpc m pc).suspended = r :: l →
    Does (.hbmArbDecision m pc) s fun t => (t.chip.hpc m pc) = { (s.chip.hpc m pc) with holder := some r, suspended := l } ∧
      OnlyParts s t [] [.hbms]) ∧
  -- 11: hbmArbDecision
  (∀ (s : State) (m pc : Nat),
    s.runs .core = true →
    ((32 ≤ pc ∨ s.chip.hbmUp m = false ∨ s.chip.inReset (pcUnit m pc) = true ∨ (s.chip.hpc m pc).emergency ≠ none) ∨
      ((s.chip.hpc m pc).waiting.any (fun x => x.req == 1 && s.chip.pcGrants m pc x && !(s.chip.throttled m pc 1)) = false ∧
      ((s.chip.hpc m pc).holder.any (fun h => !h.compat || h.req == 1 || h.req == 6) = true ∨ ((s.chip.hpc m pc).suspended = [] ∧
      (s.chip.hpc m pc).waiting.all (fun x => !(s.chip.pcGrants m pc x) || s.chip.throttled m pc x.req) = true)))) →
    Does (.hbmArbDecision m pc) s fun t => OnlyRegs s t []) ∧
  -- 12: hbmTransferComplete
  (∀ (s : State) (m pc : Nat) (errors : List (Nat × Bool)) (r : HbmReq),
    s.runs .core = true →
    s.chip.hbmUp m = true ∧ pc < 32 ∧ (s.chip.hpc m pc).holder = some r ∧ r.write = true ∧ r.req ≠ 6 →
    ¬(s.chip.hbmCopying m = true ∧ r.req = 4 ∧ s.chip.get (A.hbm m) R.HBM_RELOC_channel = pc) →
    s.chip.ledger.inj = none →
    Does (.hbmTransferComplete m pc errors) s fun t =>
      (t.chip.hpc m pc).holder = (if (s.chip.hpc m pc).emergency = none then (s.chip.hpc m pc).suspended.head? else none) ∧
      (∀ i < r.data.length, (t.chip.hb m).mem.look (stackOffset pc (r.addr + i)) = r.data[i]?) ∧
      (∀ o, (∀ i < r.data.length, o ≠ stackOffset pc (r.addr + i)) → (t.chip.hb m).mem.look o = (s.chip.hb m).mem.look o) ∧
      t.chip.reg (A.hbm m + 0x40 * pc + C.beats_written) = s.chip.reg (A.hbm m + 0x40 * pc + C.beats_written) + BitVec.ofNat 64 r.beats ∧
      OnlyParts s t [A.hbm m + 0x40 * pc + C.beats_written] [.hbms]) ∧
  -- 13: hbmTransferComplete
  (∀ (s : State) (m pc k : Nat) (errors : List (Nat × Bool)) (r : HbmReq),
    s.runs .core = true →
    s.chip.hbmUp m = true ∧ pc < 32 ∧ (s.chip.hpc m pc).holder = some r ∧ r.write = true ∧ r.req ≠ 6 →
    (s.chip.hbmCopying m = true ∧ r.req = 4 ∧ s.chip.get (A.hbm m) R.HBM_RELOC_channel = pc) ∧ Chip.shareGranule r.addr = some k ∧
      r.addr % 2048 + r.data.length ≤ 2048 →
    s.chip.ledger.inj = none →
    Does (.hbmTransferComplete m pc errors) s fun t =>
      (∀ i < r.data.length, (t.chip.hb m).mem.look (stackOffset pc (r.addr + i)) = r.data[i]? ∧
        (t.chip.hb m).mem.look (stackOffset (Chip.reservePlace pc k).1 ((Chip.reservePlace pc k).2 + r.addr % 2048 + i)) = r.data[i]?) ∧
      (t.chip.hpc m pc).holder = (if (s.chip.hpc m pc).emergency = none then (s.chip.hpc m pc).suspended.head? else none) ∧
        OnlyParts s t [A.hbm m + 0x40 * pc + C.beats_written] [.hbms]) ∧
  -- 14: hbmTransferComplete
  (∀ (s : State) (m pc : Nat) (r : HbmReq),
    s.runs .core = true →
    s.chip.hbmUp m = true ∧ pc < 32 ∧ (s.chip.hpc m pc).holder = some r ∧ r.write = false ∧ r.req ≠ 6 →
    ((Chip.wordsOf r.addr (64 * r.beats)).all (fun w => (s.chip.hb m).planted.look (stackOffset pc w) == 0) = true ∧
      s.chip.hbmLost m pc r.addr = false) →
    Does (.hbmTransferComplete m pc []) s fun t =>
      (∃ bs, t.chip.out = [.hbm m pc r.req false bs] ∧ bs.length = 64 * r.beats ∧
        (∀ i < bs.length, (∀ b, (s.chip.hb m).mem.look (stackOffset pc (r.addr + i)) = some b → bs[i]? = some b) ∧
        ((s.chip.hb m).mem.look (stackOffset pc (r.addr + i)) = none → s.chip.zeroArea m pc (r.addr + i) = true → bs[i]? = some 0))) ∧
        (t.chip.hpc m pc).holder = (if (s.chip.hpc m pc).emergency = none then (s.chip.hpc m pc).suspended.head? else none) ∧
      t.chip.reg (A.hbm m + 0x40 * pc + C.beats_read) = s.chip.reg (A.hbm m + 0x40 * pc + C.beats_read) + BitVec.ofNat 64 r.beats ∧
      OnlyParts s t [A.hbm m + 0x40 * pc + C.beats_read] [.fresh, .hbms]) ∧
  -- 15: hbmTransferComplete
  (∀ (s : State) (m pc k : Nat) (r : HbmReq),
    s.runs .core = true →
    s.chip.hbmUp m = true ∧ pc < 32 ∧ (s.chip.hpc m pc).holder = some r ∧ r.write = false ∧ r.req ≠ 6 →
    ((Chip.wordsOf r.addr (64 * r.beats)).all (fun w => (s.chip.hb m).planted.look (stackOffset pc w) == 0) = true ∧
      s.chip.hbmLost m pc r.addr = false) →
    k < 8 * r.beats ∧ r.addr % 8 = 0 →
    Does (.hbmTransferComplete m pc [(k, false)]) s fun t =>
      (∃ bs, t.chip.out = [.hbm m pc r.req false bs] ∧ bs.length = 64 * r.beats ∧
        (∀ i < bs.length, (∀ b, (s.chip.hb m).mem.look (stackOffset pc (r.addr + i)) = some b → bs[i]? = some b) ∧
        ((s.chip.hb m).mem.look (stackOffset pc (r.addr + i)) = none → s.chip.zeroArea m pc (r.addr + i) = true → bs[i]? = some 0))) ∧
        (t.chip.hpc m pc).holder = (if (s.chip.hpc m pc).emergency = none then (s.chip.hpc m pc).suspended.head? else none) ∧
      t.chip.reg (A.hbm m + 0x40 * pc + C.hbm_ce) = s.chip.reg (A.hbm m + 0x40 * pc + C.hbm_ce) + 1 ∧
      t.chip.ledger = s.chip.sent (if (s.chip.hpc m pc).correctedAt.all (fun t => s.chip.passedUs t 1000) then [s.chip.msgOf (pcUnit m pc)
        K.hbmCorrected 1 (faultAddr pc (r.addr / 8 * 8 + 8 * k) r.req)] else []) ∧
      OnlyParts s t [A.hbm m + 0x40 * pc + C.beats_read, A.hbm m + 0x40 * pc + C.hbm_ce] [.fresh, .hbms, .ledger]) ∧
  -- 16: hbmTransferComplete
  (∀ (s : State) (m pc k : Nat) (r : HbmReq),
    s.runs .core = true →
    s.chip.hbmUp m = true ∧ pc < 32 ∧ (s.chip.hpc m pc).holder = some r ∧ r.write = false ∧ r.req ≠ 6 →
    ((Chip.wordsOf r.addr (64 * r.beats)).all (fun w => (s.chip.hb m).planted.look (stackOffset pc w) == 0) = true ∧
      s.chip.hbmLost m pc r.addr = false) →
    k < 8 * r.beats ∧ r.addr % 8 = 0 →
    (s.chip.get (A.hbm m) R.HBM_LIMITS_unc_limit = 0 ∨ ((s.chip.hpc m pc).errors.filter fun t => !(s.chip.passedUs t 1000000)).length + 1 ≤
      s.chip.get (A.hbm m) R.HBM_LIMITS_unc_limit) →
    Does (.hbmTransferComplete m pc [(k, true)]) s fun t =>
      (∃ bs, t.chip.out = [.hbm m pc r.req true bs]) ∧ (t.chip.hpc m pc).holder = (if (s.chip.hpc m pc).emergency =
        none then (s.chip.hpc m pc).suspended.head? else none) ∧ t.chip.get (A.hbm m) R.HBM_EVENT_uncorrectable = 1 ∧
      t.chip.reg (A.hbm m + 0x40 * pc + C.hbm_ue) = s.chip.reg (A.hbm m + 0x40 * pc + C.hbm_ue) + 1 ∧
      t.chip.reg (A.hbm m + R.HBM_FAULT_ADDR) = BitVec.ofNat 64 (faultAddr pc (r.addr / 8 * 8 + 8 * k) r.req) ∧
      t.chip.ledger = s.chip.sent [s.chip.msgOf (pcUnit m pc) K.hbmUncorrectable 3 (faultAddr pc (r.addr / 8 * 8 + 8 * k) r.req)] ∧
      OnlyParts s t [A.hbm m + 0x40 * pc + C.beats_read, A.hbm m + 0x40 * pc + C.hbm_ue, A.hbm m + R.HBM_FAULT_ADDR,
        A.hbm m + R.HBM_EVENT] [.fresh, .hbms, .ledger]) ∧
  -- 17: hbmTransferComplete
  (∀ (s : State) (m pc k : Nat) (r : HbmReq),
    s.runs .core = true →
    s.chip.hbmUp m = true ∧ pc < 32 ∧ (s.chip.hpc m pc).holder = some r ∧ r.write = false ∧ r.req ≠ 6 →
    ((Chip.wordsOf r.addr (64 * r.beats)).all (fun w => (s.chip.hb m).planted.look (stackOffset pc w) == 0) = true ∧
      s.chip.hbmLost m pc r.addr = false) →
    k < 8 * r.beats ∧ r.addr % 8 = 0 →
    (s.chip.get (A.hbm m) R.HBM_LIMITS_unc_limit ≠ 0 ∧ s.chip.get (A.hbm m) R.HBM_LIMITS_unc_limit ≤ ((s.chip.hpc m pc).errors.filter fun t
      => !(s.chip.passedUs t 1000000)).length ∧ s.chip.hbmRetired m pc = false) →
    Does (.hbmTransferComplete m pc [(k, true)]) s fun t =>
      t.chip.hbmRetired m pc = true ∧ t.chip.get (A.hbm m) R.HBM_EVENT_retired = 1 ∧
      t.chip.ledger.transit.any (fun x => x.kind == K.hbmRetired && x.source == s.chip.suiteUnit (pcUnit m pc) && x.sev == 2 && x.addr ==
        2) = true ∧
      t.nv = s.nv ∧ t.fuses = s.fuses ∧ t.pending = s.pending) ∧
  -- 18: hbmTransferComplete
  (∀ (s : State) (m pc : Nat) (errors : List (Nat × Bool)),
    s.runs .core = true →
    (32 ≤ pc ∨ s.chip.hbmUp m = false ∨ (s.chip.hpc m pc).holder.all (fun r => r.req == 6) = true) →
    Does (.hbmTransferComplete m pc errors) s fun t => OnlyRegs s t []) ∧
  -- 19: hbmTempRead
  (∀ (s : State) (m temp : Nat),
    s.runs .core = true →
    s.chip.hbmUp m = true →
    s.chip.hbmState m ≠ 4 ∧ temp < 256 →
    Does (.hbmTempRead m temp) s fun t => t.chip.get (A.hbm m) R.HBM_STATUS_temp = temp ∧ t.chip.hbmState m = s.chip.hbmState m ∧
      OnlyRegs s t [A.hbm m + R.HBM_STATUS]) ∧
  -- 20: hbmTempRead
  (∀ (s : State) (m temp : Nat),
    s.runs .core = true →
    s.chip.hbmUp m = false ∨ s.chip.hbmState m = 4 →
    Does (.hbmTempRead m temp) s fun t => OnlyRegs s t [])

/-- HBM_ARB_STARVE for a requester that has waited longer than starve_us (not 0) and is not yet reported sends the message of severity 1 with
its code, sets the event, counts, and marks that wait as reported; holder, waiting requests with all else of them, and every other
pseudo-channel stay. For a wait already reported, not yet longer than starve_us, or with starve_us 0, nothing changes. -/
def Obligations.HbmStarveRule : Prop :=
  -- 1: hbmArbStarve
  (∀ (s : State) (m pc req : Nat) (r : HbmReq),
    s.runs .core = true →
    s.chip.hbmUp m = true →
    pc < 32 →
    ((s.chip.hpc m pc).waiting.find? (fun r => r.req == req) = some r) →
    r.starved = false →
    s.chip.get (A.hbm m) R.HBM_LIMITS_starve_us ≠ 0 →
    r.since + s.chip.get (A.hbm m) R.HBM_LIMITS_starve_us * 1000 < s.chip.now →
    Does (.hbmArbStarve m pc req) s fun t =>
      t.chip.reg (A.hbm m + C.starve_events) = s.chip.reg (A.hbm m + C.starve_events) + 1 ∧ t.chip.get (A.hbm m) R.HBM_EVENT_starve = 1 ∧
      (t.chip.hpc m pc) = { (s.chip.hpc m pc) with waiting := (s.chip.hpc m pc).waiting.map fun x => if x = r then { x with starved := true } else x }
        ∧
      (∀ n q, (n, q) ≠ (m, pc) → t.chip.hpc n q = s.chip.hpc n q) ∧
      t.chip.ledger = s.chip.sent [s.chip.msgOf (pcUnit m pc) K.hbmStarve 1 req] ∧
      OnlyParts s t [A.hbm m + C.starve_events, A.hbm m + R.HBM_EVENT] [.hbms, .ledger]) ∧
  -- 2: hbmArbStarve
  (∀ (s : State) (m pc req : Nat),
    s.runs .core = true →
    (32 ≤ pc ∨ s.chip.hbmUp m = false ∨ ((s.chip.hpc m pc).waiting.find? (fun r => r.req ==
      req)).all (fun r => r.starved || s.chip.get (A.hbm m) R.HBM_LIMITS_starve_us ==
      0 || decide (s.chip.now ≤ r.since + s.chip.get (A.hbm m) R.HBM_LIMITS_starve_us * 1000)) = true) →
    Does (.hbmArbStarve m pc req) s fun t => OnlyRegs s t [])

/-- REFRESH_OWED_TICK, when its period has passed, adds 1 to every owed count up to 8. PER_BANK_REFRESH of a bank that is free, or for which
an emergency stands, runs a disturbance refresh first, else pays one owed refresh, and the last one of an emergency ends it and gives the
grant back. REFRESH_EMERGENCY of a bank that owes 8, or whose disturbance refresh is 3.9 microseconds late, suspends the holder in native
mode, and in compatibility mode sends it back to wait. ROW_HAMMER_THROTTLE_END and ROW_HAMMER_WINDOW end a throttle and restart the
counts. Each does nothing where its condition does not hold. -/
def Obligations.HbmRefreshesAndGuardsRows : Prop :=
  -- 1: refreshOwedTick
  (∀ (s : State) (m : Nat),
    s.runs .core = true →
    s.chip.hbmRuns m = true →
    (s.chip.hb m).owedAt + s.chip.refreshPeriod m ≤ s.chip.now →
    Does (.refreshOwedTick m) s fun t =>
      (∀ pc b, pc < 32 → b < 32 → (t.chip.hpc m pc).owed.look b = Nat.min 8 ((s.chip.hpc m pc).owed.look b + 1)) ∧
        OnlyParts s t [] [.hbms]) ∧
  -- 2: refreshOwedTick
  (∀ (s : State) (m : Nat),
    s.runs .core = true →
    s.chip.hbmRuns m = false ∨ s.chip.now < (s.chip.hb m).owedAt + s.chip.refreshPeriod m →
    Does (.refreshOwedTick m) s fun t => OnlyRegs s t []) ∧
  -- 3: perBankRefresh
  (∀ (s : State) (m pc bank : Nat),
    s.runs .core = true →
    s.chip.hbmRuns m = true ∧ pc < 32 ∧ bank < 32 →
    (s.chip.hpc m pc).emergency = none ∧ s.chip.bankBusy m pc bank = false →
    ((∀ v ∈ (s.chip.hpc m pc).victims, v.1 / 16384 ≠ bank)) →
    (s.chip.hpc m pc).holder ≠ none ∨ (s.chip.hpc m pc).suspended = [] →
    Does (.perBankRefresh m pc bank) s fun t => (t.chip.hpc m pc) =
      { (s.chip.hpc m pc) with owed := (s.chip.hpc m pc).owed.set bank ((s.chip.hpc m pc).owed.look bank - 1) } ∧
      OnlyParts s t [] [.hbms]) ∧
  -- 4: perBankRefresh
  (∀ (s : State) (m pc bank : Nat) (v : Nat × Nat) (l : List (Nat × Nat)),
    s.runs .core = true →
    s.chip.hbmRuns m = true ∧ pc < 32 ∧ bank < 32 →
    (s.chip.hpc m pc).emergency = none ∧ s.chip.bankBusy m pc bank = false →
    (s.chip.hpc m pc).victims = v :: l ∧ v.1 / 16384 = bank ∧ v ∉ l →
    (s.chip.hpc m pc).holder ≠ none ∨ (s.chip.hpc m pc).suspended = [] →
    Does (.perBankRefresh m pc bank) s fun t => (t.chip.hpc m pc) = { (s.chip.hpc m pc) with victims := l } ∧ OnlyParts s t [] [.hbms]) ∧
  -- 5: perBankRefresh
  (∀ (s : State) (m pc bank : Nat),
    s.runs .core = true →
    s.chip.hbmRuns m = true ∧ pc < 32 ∧ bank < 32 →
    ((s.chip.hpc m pc).emergency = some bank ∧ (∀ v ∈ (s.chip.hpc m pc).victims, v.1 / 16384 ≠ bank)) →
    Does (.perBankRefresh m pc bank) s fun t =>
      (t.chip.hpc m pc).owed.look bank = (s.chip.hpc m pc).owed.look bank - 1 ∧
        (t.chip.hpc m pc).emergency = (if (s.chip.hpc m pc).owed.look bank ≤ 1 then none else some bank) ∧
      (t.chip.hpc m pc).holder = (if (s.chip.hpc m pc).owed.look bank ≤ 1 ∧
        (s.chip.hpc m pc).holder = none then (s.chip.hpc m pc).suspended.head? else (s.chip.hpc m pc).holder) ∧ OnlyParts s t [] [.hbms]) ∧
  -- 6: perBankRefresh
  (∀ (s : State) (m pc bank : Nat),
    s.runs .core = true →
    (s.chip.hbmRuns m = false ∨ 32 ≤ pc ∨ 32 ≤ bank) ∨ ((s.chip.hpc m pc).emergency ≠ some bank ∧ ((s.chip.hpc m pc).emergency ≠ none ∨
      s.chip.bankBusy m pc bank = true)) →
    Does (.perBankRefresh m pc bank) s fun t => OnlyRegs s t []) ∧
  -- 7: refreshEmergency
  (∀ (s : State) (m pc bank : Nat) (r : HbmReq),
    s.runs .core = true →
    s.chip.hbmRuns m = true ∧ pc < 32 ∧ bank < 32 →
    ((s.chip.hpc m pc).emergency = none ∧ ((s.chip.hpc m pc).owed.look bank = 8 ∨
      (s.chip.hpc m pc).victims.any (fun v => v.1 / 16384 == bank && decide (v.2 + 3900 < s.chip.now)) = true)) →
    (s.chip.hpc m pc).holder = some r ∧ (r.compat = false ∨ r.req = 1 ∨ r.req = 6) →
    Does (.refreshEmergency m pc bank) s fun t =>
      (t.chip.hpc m pc) = { (s.chip.hpc m pc) with emergency := some bank, holder := none, suspended := r :: (s.chip.hpc m pc).suspended } ∧
        t.chip.reg (A.hbm m + 0x40 * pc + C.refresh_emergency) = s.chip.reg (A.hbm m + 0x40 * pc + C.refresh_emergency) + 1 ∧
        t.chip.reg (A.hbm m + C.grants) = s.chip.reg (A.hbm m + C.grants) + 1 ∧
        OnlyParts s t [A.hbm m + 0x40 * pc + C.refresh_emergency, A.hbm m + 0x40 * pc + C.preemptions, A.hbm m + C.grants] [.hbms]) ∧
  -- 8: refreshEmergency
  (∀ (s : State) (m pc bank : Nat) (r : HbmReq),
    s.runs .core = true →
    s.chip.hbmRuns m = true ∧ pc < 32 ∧ bank < 32 →
    ((s.chip.hpc m pc).emergency = none ∧ ((s.chip.hpc m pc).owed.look bank = 8 ∨
      (s.chip.hpc m pc).victims.any (fun v => v.1 / 16384 == bank && decide (v.2 + 3900 < s.chip.now)) = true)) →
    (s.chip.hpc m pc).holder = some r ∧ r.compat = true ∧ r.write = false ∧ r.req ≠ 1 ∧ r.req ≠ 6 →
    Does (.refreshEmergency m pc bank) s fun t =>
      (t.chip.hpc m pc) = { (s.chip.hpc m pc) with emergency := some bank, holder := none, waiting := { r with since := s.chip.now, starved := false } :: (s.chip.hpc m pc).waiting }
        ∧ t.chip.reg (A.hbm m + 0x40 * pc + C.refresh_emergency) = s.chip.reg (A.hbm m + 0x40 * pc + C.refresh_emergency) + 1 ∧
        t.chip.reg (A.hbm m + C.grants) = s.chip.reg (A.hbm m + C.grants) + 1 ∧
      OnlyParts s t [A.hbm m + 0x40 * pc + C.refresh_emergency, A.hbm m + 0x40 * pc + C.preemptions, A.hbm m + C.grants] [.fresh, .hbms]) ∧
  -- 9: refreshEmergency
  (∀ (s : State) (m pc bank : Nat),
    s.runs .core = true →
    s.chip.hbmRuns m = true ∧ pc < 32 ∧ bank < 32 →
    ((s.chip.hpc m pc).emergency = none ∧ ((s.chip.hpc m pc).owed.look bank = 8 ∨
      (s.chip.hpc m pc).victims.any (fun v => v.1 / 16384 == bank && decide (v.2 + 3900 < s.chip.now)) = true)) →
    (s.chip.hpc m pc).holder = none →
    Does (.refreshEmergency m pc bank) s fun t => (t.chip.hpc m pc) = { (s.chip.hpc m pc) with emergency := some bank } ∧
      t.chip.reg (A.hbm m + 0x40 * pc + C.refresh_emergency) = s.chip.reg (A.hbm m + 0x40 * pc + C.refresh_emergency) + 1 ∧
      t.chip.reg (A.hbm m + C.grants) = s.chip.reg (A.hbm m + C.grants) + 1 ∧
      OnlyParts s t [A.hbm m + 0x40 * pc + C.refresh_emergency, A.hbm m + 0x40 * pc + C.preemptions, A.hbm m + C.grants] [.hbms]) ∧
  -- 10: refreshEmergency
  (∀ (s : State) (m pc bank : Nat),
    s.runs .core = true →
    ((s.chip.hbmRuns m = false ∨ 32 ≤ pc ∨ 32 ≤ bank) ∨ (s.chip.hpc m pc).emergency ≠ none ∨ ¬((s.chip.hpc m pc).owed.look bank = 8 ∨
      (s.chip.hpc m pc).victims.any (fun v => v.1 / 16384 == bank && decide (v.2 + 3900 < s.chip.now)) = true)) →
    Does (.refreshEmergency m pc bank) s fun t => OnlyRegs s t []) ∧
  -- 11: rowHammerThrottleEnd
  (∀ (s : State) (m pc req : Nat),
    s.runs .core = true →
    s.chip.hbmUp m = true →
    pc < 32 →
    (s.chip.hpc m pc).throttle.look req ≠ 0 ∧ (s.chip.hpc m pc).throttle.look req ≤ s.chip.now →
    Does (.rowHammerThrottleEnd m pc req) s fun t =>
      (t.chip.hpc m pc).throttle.look req = 0 ∧ (∀ q, q ≠ req → (t.chip.hpc m pc).throttle.look q = (s.chip.hpc m pc).throttle.look q) ∧
        OnlyParts s t [] [.hbms]) ∧
  -- 12: rowHammerThrottleEnd
  (∀ (s : State) (m pc req : Nat),
    s.runs .core = true →
    s.chip.hbmUp m = false ∨ 32 ≤ pc ∨ (s.chip.hpc m pc).throttle.look req = 0 ∨ s.chip.now < (s.chip.hpc m pc).throttle.look req →
    Does (.rowHammerThrottleEnd m pc req) s fun t => OnlyRegs s t []) ∧
  -- 13: rowHammerWindow
  (∀ (s : State) (m : Nat),
    s.runs .core = true →
    s.chip.hbmUp m = true →
    Does (.rowHammerWindow m) s fun t => (∀ pc < 32, t.chip.hpc m pc = { s.chip.hpc m pc with acts := [], hammered := [] }) ∧
      OnlyParts s t [] [.hbms]) ∧
  -- 14: rowHammerWindow
  (∀ (s : State) (m : Nat),
    s.runs .core = true →
    s.chip.hbmUp m = false →
    Does (.rowHammerWindow m) s fun t => OnlyRegs s t [])

/-- HBM_TRAIN of a ready stack asks for step 1 of the channel named, or of all; TRAINING_STEP_COMPLETE asks for the next step and ends the
training after step 5; a failed step reports and retires. HBM_FREQ starts a change, ending a training of which no step runs, or waits for
a step or a copy, or is refused; FREQ_CHANGE_START and FREQ_CHANGE_COMPLETE run and end it. SELF_REFRESH_ENTER and EXIT give the results
of R358, their completions change the state, SELF_REFRESH_IDLE re-enters. HBM_RETIRE retires, counts and records, of stack 0 with a copy
into the reserve, or with force an unmapped share; or refuses with 1, 2, 3. HBM_RETIRE_CLEAR has the record removed.
RELOCATION_COPY_COMPLETE puts the share into the reserve. HBM_PLL_LOSS retires every channel. Without go, of a controller that is not up,
or in another state, only the written fields change, or nothing. Log 55 says which values refused writes leave. -/
def Obligations.HbmTrainsSleepsAndRetires : Prop :=
  -- 1: hbmTrain
  (∀ (s : State) (src : Source) (m : Nat) (data : Word),
    s.serves src (A.hbm m + R.HBM_TRAIN) true = true →
    s.chip.hbmUp m = true →
    bit data 31 = true ∧ s.chip.hbmState m = 2 ∧ (bits data 5 5 = 1 ∨ s.chip.hbmRetired m (bits data 4 0) = false) →
    Does (.hbmTrain src m data) s fun t =>
      t.chip.get (A.hbm m) R.HBM_TRAIN_state = 1 ∧ t.chip.get (A.hbm m) R.HBM_TRAIN_all = bits data 5 5 ∧
        t.chip.get (A.hbm m) R.HBM_TRAIN_channel = bits data 4 0 ∧ t.chip.hbmState m = 1 ∧
      t.chip.reg (A.hbm m + C.trainings) = s.chip.reg (A.hbm m + C.trainings) + 1 ∧
      (∀ pc < 32, t.chip.hpc m pc = if pc ∈ (if bits data 5 5 =
        1 then s.chip.hbmPcs m else [bits data 4 0]) then
        { (s.chip.hpc m pc) with step := 1, stepHeld := false, waiting := (s.chip.hpc m pc).waiting ++ [{ req := 6, since := s.chip.now }] }
        else (s.chip.hpc m pc)) ∧
      OnlyParts s t [A.hbm m + R.HBM_TRAIN, A.hbm m + R.HBM_STATUS, A.hbm m + C.trainings] [.hbms]) ∧
  -- 2: hbmTrain
  (∀ (s : State) (src : Source) (m : Nat) (data : Word),
    s.serves src (A.hbm m + R.HBM_TRAIN) true = true →
    s.chip.hbmUp m = true →
    bit data 31 = true ∧ (s.chip.hbmState m ≠ 2 ∨ (bits data 5 5 = 0 ∧ s.chip.hbmRetired m (bits data 4 0) = true)) →
    Does (.hbmTrain src m data) s fun t => t.chip.get (A.hbm m) R.HBM_TRAIN_state = 4 ∧
      t.chip.get (A.hbm m) R.HBM_TRAIN_all = bits data 5 5 ∧ t.chip.get (A.hbm m) R.HBM_TRAIN_channel = bits data 4 0 ∧
      OnlyRegs s t [A.hbm m + R.HBM_TRAIN]) ∧
  -- 3: hbmTrain
  (∀ (s : State) (src : Source) (m : Nat) (data : Word),
    s.serves src (A.hbm m + R.HBM_TRAIN) true = true →
    bit data 31 = false ∨ s.chip.hbmUp m = false →
    Does (.hbmTrain src m data) s fun t => t.chip.get (A.hbm m) R.HBM_TRAIN_all = bits data 5 5 ∧
      t.chip.get (A.hbm m) R.HBM_TRAIN_channel = bits data 4 0 ∧ OnlyRegs s t [A.hbm m + R.HBM_TRAIN]) ∧
  -- 4: trainingStepComplete
  (∀ (s : State) (m pc : Nat) (r : HbmReq),
    s.runs .core = true →
    s.chip.hbmUp m = true ∧ pc < 32 ∧ (s.chip.hpc m pc).stepHeld = true ∧ (s.chip.hpc m pc).holder = some r ∧ r.req = 6 →
    (s.chip.hpc m pc).step < 5 ∧ s.chip.freqDeferred m = false →
    Does (.trainingStepComplete m pc true) s fun t =>
      (t.chip.hpc m pc).step = (s.chip.hpc m pc).step + 1 ∧ (t.chip.hpc m pc).stepHeld = false ∧
        (t.chip.hpc m pc).holder = (if (s.chip.hpc m pc).emergency = none then (s.chip.hpc m pc).suspended.head? else none) ∧
        (t.chip.hpc m pc).waiting = (s.chip.hpc m pc).waiting ++ [{ req := 6, since := s.chip.now }] ∧
      OnlyParts s t [A.hbm m + R.HBM_STATUS] [.hbms]) ∧
  -- 5: trainingStepComplete
  (∀ (s : State) (m pc : Nat) (r : HbmReq),
    s.runs .core = true →
    s.chip.hbmUp m = true ∧ pc < 32 ∧ (s.chip.hpc m pc).stepHeld = true ∧ (s.chip.hpc m pc).holder = some r ∧ r.req = 6 →
    s.chip.freqDeferred m = true →
    Does (.trainingStepComplete m pc true) s fun t =>
      (t.chip.hpc m pc).step = (s.chip.hpc m pc).step ∧ (t.chip.hpc m pc).stepHeld = false ∧
        (t.chip.hpc m pc).holder = (if (s.chip.hpc m pc).emergency = none then (s.chip.hpc m pc).suspended.head? else none) ∧
        (t.chip.hpc m pc).waiting = (s.chip.hpc m pc).waiting ∧ OnlyParts s t [A.hbm m + R.HBM_STATUS] [.hbms]) ∧
  -- 6: trainingStepComplete
  (∀ (s : State) (m pc : Nat) (r : HbmReq),
    s.runs .core = true →
    s.chip.hbmUp m = true ∧ pc < 32 ∧ (s.chip.hpc m pc).stepHeld = true ∧ (s.chip.hpc m pc).holder = some r ∧ r.req = 6 →
    (s.chip.hpc m pc).step = 5 ∧ s.chip.freqDeferred m = false →
    ((s.chip.hb m).serving = true ∧ (s.chip.hb m).failed = false ∧ s.chip.hbmPcs m ≠ [] ∧ ∀ q < 32, q ≠ pc → (s.chip.hpc m q).step = 0) →
    Does (.trainingStepComplete m pc true) s fun t =>
      (t.chip.hpc m pc).step = 0 ∧ t.chip.get (A.hbm m) R.HBM_TRAIN_state = 2 ∧ t.chip.hbmState m = 2 ∧
        t.chip.get (A.hbm m) R.HBM_EVENT_train_done = 1 ∧
      OnlyParts s t [A.hbm m + R.HBM_TRAIN, A.hbm m + R.HBM_STATUS, A.hbm m + R.HBM_EVENT, A.half m + R.INNK_STATUS,
        A.half m + R.INNK_SPILL_USED] [.hbms]) ∧
  -- 7: trainingStepComplete
  (∀ (s : State) (m pc : Nat) (r : HbmReq),
    s.runs .core = true →
    s.chip.hbmUp m = true ∧ pc < 32 ∧ (s.chip.hpc m pc).stepHeld = true ∧ (s.chip.hpc m pc).holder = some r ∧ r.req = 6 →
    s.chip.hbmRetired m pc = false →
    Does (.trainingStepComplete m pc false) s fun t =>
      t.chip.hbmRetired m pc = true ∧ (t.chip.hpc m pc).step = 0 ∧
      t.chip.ledger.transit.any (fun x => x.kind == K.hbmTrainFail && x.source == s.chip.suiteUnit (pcUnit m pc) && x.sev ==
        2 && x.addr / 256 == (s.chip.hpc m pc).step) = true ∧
      t.chip.ledger.transit.any (fun x => x.kind == K.hbmRetired && x.source == s.chip.suiteUnit (pcUnit m pc) && x.sev == 2 && x.addr ==
        3) = true ∧ t.nv = s.nv ∧ t.fuses = s.fuses ∧ t.pending = s.pending) ∧
  -- 8: trainingStepComplete
  (∀ (s : State) (m pc : Nat) (pass : Bool),
    s.runs .core = true →
    (s.chip.hbmUp m = false ∨ 32 ≤ pc ∨ (s.chip.hpc m pc).stepHeld = false ∨ (s.chip.hpc m pc).holder.all (fun r => r.req != 6) = true) →
    Does (.trainingStepComplete m pc pass) s fun t => OnlyRegs s t []) ∧
  -- 9: hbmFreq
  (∀ (s : State) (src : Source) (m : Nat) (data : Word),
    s.serves src (A.hbm m + R.HBM_FREQ) true = true →
    s.chip.hbmUp m = true →
    bit data 31 = true ∧ bits data 1 0 ≠ 3 ∧ s.chip.hbmState m ∉ [3, 4, 5, 6] →
    s.chip.stepRuns m = false ∧ s.chip.hbmCopying m = false ∧ s.chip.trainingOn m = false →
    Does (.hbmFreq src m data) s fun t =>
      t.chip.get (A.hbm m) R.HBM_FREQ_state = 2 ∧ t.chip.get (A.hbm m) R.HBM_FREQ_point = bits data 1 0 ∧ t.chip.hbmState m = 6 ∧
        t.chip.hb m = { s.chip.hb m with freqPoint := bits data 1 0 } ∧
      OnlyParts s t [A.hbm m + R.HBM_FREQ, A.hbm m + R.HBM_STATUS, A.half m + R.INNK_STATUS, A.half m + R.INNK_SPILL_USED] [.hbms]) ∧
  -- 10: hbmFreq
  (∀ (s : State) (src : Source) (m : Nat) (data : Word),
    s.serves src (A.hbm m + R.HBM_FREQ) true = true →
    s.chip.hbmUp m = true →
    bit data 31 = true ∧ bits data 1 0 ≠ 3 ∧ s.chip.hbmState m ∉ [3, 4, 5, 6] →
    s.chip.stepRuns m = false ∧ s.chip.hbmCopying m = false ∧ s.chip.trainingOn m = true →
    Does (.hbmFreq src m data) s fun t =>
      t.chip.get (A.hbm m) R.HBM_FREQ_state = 2 ∧ t.chip.get (A.hbm m) R.HBM_FREQ_point = bits data 1 0 ∧ t.chip.hbmState m = 6 ∧
        t.chip.get (A.hbm m) R.HBM_TRAIN_state = 5 ∧ t.chip.trainingOn m = false ∧
      (∀ pc < 32, (t.chip.hpc m pc).step = 0) ∧ OnlyParts s t [A.hbm m + R.HBM_FREQ, A.hbm m + R.HBM_TRAIN, A.hbm m + R.HBM_EVENT,
        A.hbm m + R.HBM_STATUS, A.half m + R.INNK_STATUS, A.half m + R.INNK_SPILL_USED] [.hbms]) ∧
  -- 11: hbmFreq
  (∀ (s : State) (src : Source) (m : Nat) (data : Word),
    s.serves src (A.hbm m + R.HBM_FREQ) true = true →
    s.chip.hbmUp m = true →
    bit data 31 = true ∧ bits data 1 0 ≠ 3 ∧ s.chip.hbmState m ∉ [3, 4, 5, 6] →
    s.chip.stepRuns m = true ∨ s.chip.hbmCopying m = true →
    Does (.hbmFreq src m data) s fun t =>
      t.chip.get (A.hbm m) R.HBM_FREQ_state = 1 ∧ t.chip.get (A.hbm m) R.HBM_FREQ_point = bits data 1 0 ∧
        t.chip.hb m = { s.chip.hb m with freqPoint := bits data 1 0 } ∧ OnlyParts s t [A.hbm m + R.HBM_FREQ] [.hbms]) ∧
  -- 12: hbmFreq
  (∀ (s : State) (src : Source) (m : Nat) (data : Word),
    s.serves src (A.hbm m + R.HBM_FREQ) true = true →
    s.chip.hbmUp m = true →
    bit data 31 = true ∧ (bits data 1 0 = 3 ∨ s.chip.hbmState m ∈ [3, 4, 5, 6]) →
    Does (.hbmFreq src m data) s fun t => t.chip.get (A.hbm m) R.HBM_FREQ_state = 4 ∧
      t.chip.get (A.hbm m) R.HBM_FREQ_point = bits data 1 0 ∧ OnlyRegs s t [A.hbm m + R.HBM_FREQ]) ∧
  -- 13: hbmFreq
  (∀ (s : State) (src : Source) (m : Nat) (data : Word),
    s.serves src (A.hbm m + R.HBM_FREQ) true = true →
    bit data 31 = false ∨ s.chip.hbmUp m = false →
    Does (.hbmFreq src m data) s fun t => t.chip.get (A.hbm m) R.HBM_FREQ_point = bits data 1 0 ∧ OnlyRegs s t [A.hbm m + R.HBM_FREQ]) ∧
  -- 14: freqChangeStart
  (∀ (s : State) (m : Nat),
    s.runs .core = true →
    s.chip.hbmUp m = true →
    s.chip.get (A.hbm m) R.HBM_FREQ_state = 1 ∧ s.chip.stepRuns m = false ∧ s.chip.hbmCopying m = false →
    Does (.freqChangeStart m) s fun t =>
      t.chip.get (A.hbm m) R.HBM_FREQ_state = 2 ∧ t.chip.hbmState m = 6 ∧ t.chip.trainingOn m = false ∧
      (s.chip.trainingOn m = true → t.chip.get (A.hbm m) R.HBM_TRAIN_state = 5) ∧
      OnlyParts s t [A.hbm m + R.HBM_FREQ, A.hbm m + R.HBM_TRAIN, A.hbm m + R.HBM_EVENT, A.hbm m + R.HBM_STATUS, A.half m + R.INNK_STATUS,
        A.half m + R.INNK_SPILL_USED] [.hbms]) ∧
  -- 15: freqChangeStart
  (∀ (s : State) (m : Nat),
    s.runs .core = true →
    s.chip.hbmUp m = false ∨ s.chip.get (A.hbm m) R.HBM_FREQ_state ≠ 1 ∨ ¬(s.chip.stepRuns m = false ∧ s.chip.hbmCopying m = false) →
    Does (.freqChangeStart m) s fun t => OnlyRegs s t []) ∧
  -- 16: freqChangeComplete
  (∀ (s : State) (m : Nat),
    s.runs .core = true →
    s.chip.hbmUp m = true →
    s.chip.hbmState m = 6 ∧ s.chip.hbmPcs m ≠ [] ∧ (s.chip.hb m).freqPoint < 4 →
    (∀ pc < 32, (s.chip.hpc m pc).holder = none) →
    Does (.freqChangeComplete m) s fun t =>
      t.chip.get (A.hbm m) R.HBM_STATUS_point = (s.chip.hb m).freqPoint ∧ t.chip.get (A.hbm m) R.HBM_FREQ_state = 3 ∧
      t.chip.hbmState m = 2 ∧ t.chip.get (A.hbm m) R.HBM_EVENT_freq_done = 1 ∧
        (∀ pc < 32, (t.chip.hpc m pc) = { (s.chip.hpc m pc) with owed := [] }) ∧
      t.chip.reg (A.hbm m + C.freq_changes) = s.chip.reg (A.hbm m + C.freq_changes) + 1 ∧
      OnlyParts s t [A.hbm m + R.HBM_FREQ, A.hbm m + R.HBM_STATUS, A.hbm m + R.HBM_EVENT, A.hbm m + C.freq_changes, A.hbm m + C.trainings,
        A.half m + R.INNK_STATUS, A.half m + R.INNK_SPILL_USED] [.hbms]) ∧
  -- 17: freqChangeComplete
  (∀ (s : State) (m : Nat),
    s.runs .core = true →
    (s.chip.hbmUp m = false ∨ s.chip.hbmState m ≠ 6 ∨ ¬(∀ pc < 32, (s.chip.hpc m pc).holder = none)) →
    Does (.freqChangeComplete m) s fun t => OnlyRegs s t []) ∧
  -- 18: selfRefreshEnter
  (∀ (s : State) (src : Source) (m : Nat),
    s.serves src (A.hbm m + R.HBM_PWR) true = true →
    s.chip.hbmUp m = true →
    (s.chip.innk m).bundles = [] ∧ s.chip.trainingOn m = false ∧ s.chip.hbmCopying m = false ∧ s.chip.hbmState m = 2 →
    Does (.selfRefreshEnter src m) s fun t =>
      t.chip.hbmState m = 3 ∧ t.chip.get (A.hbm m) R.HBM_PWR_result = 0 ∧ t.chip.get (A.hbm m) R.HBM_PWR_op = 0 ∧
      t.chip.hb m = { s.chip.hb m with exitWritten := false, wokenByRequest := false, wakeDue := false } ∧
      OnlyParts s t [A.hbm m + R.HBM_PWR, A.hbm m + R.HBM_STATUS, A.half m + R.INNK_STATUS, A.half m + R.INNK_SPILL_USED] [.hbms]) ∧
  -- 19: selfRefreshEnter
  (∀ (s : State) (src : Source) (m : Nat),
    s.serves src (A.hbm m + R.HBM_PWR) true = true →
    s.chip.hbmUp m = true →
    ¬((s.chip.innk m).bundles = [] ∧ s.chip.trainingOn m = false ∧ s.chip.hbmCopying m = false ∧ s.chip.hbmState m = 2) →
    Does (.selfRefreshEnter src m) s fun t =>
      t.chip.get (A.hbm m) R.HBM_PWR_result = (if (s.chip.innk m).bundles ≠ [] then 1 else if s.chip.trainingOn m = true ∨
        s.chip.hbmState m ∈ [1, 6] ∨ s.chip.hbmCopying m = true then 2 else 3) ∧
      t.chip.get (A.hbm m) R.HBM_PWR_op = 0 ∧ OnlyRegs s t [A.hbm m + R.HBM_PWR]) ∧
  -- 20: selfRefreshExit
  (∀ (s : State) (src : Source) (m : Nat),
    s.serves src (A.hbm m + R.HBM_PWR) true = true →
    s.chip.hbmUp m = true →
    s.chip.hbmState m ≠ 0 ∧ s.chip.hbmState m ≠ 7 →
    Does (.selfRefreshExit src m) s fun t =>
      t.chip.hbmState m = (if s.chip.hbmState m = 4 then 5 else s.chip.hbmState m) ∧ t.chip.get (A.hbm m) R.HBM_PWR_result = 0 ∧
        t.chip.get (A.hbm m) R.HBM_PWR_op = 1 ∧
      t.chip.hb m = { s.chip.hb m with exitWritten := true, wakeDue := (s.chip.hb m).wakeDue || s.chip.hbmState m == 3 } ∧
      OnlyParts s t [A.hbm m + R.HBM_PWR, A.hbm m + R.HBM_STATUS] [.hbms]) ∧
  -- 21: selfRefreshExit
  (∀ (s : State) (src : Source) (m : Nat),
    s.serves src (A.hbm m + R.HBM_PWR) true = true →
    s.chip.hbmUp m = true →
    s.chip.hbmState m = 0 ∨ s.chip.hbmState m = 7 →
    Does (.selfRefreshExit src m) s fun t => t.chip.get (A.hbm m) R.HBM_PWR_result = 3 ∧ t.chip.get (A.hbm m) R.HBM_PWR_op = 1 ∧
      OnlyRegs s t [A.hbm m + R.HBM_PWR]) ∧
  -- 22: selfRefreshExit
  (∀ (s : State) (src : Source) (m : Nat),
    s.serves src (A.hbm m + R.HBM_PWR) true = true →
    s.chip.hbmUp m = false →
    Does (.selfRefreshExit src m) s fun t => t.chip.get (A.hbm m) R.HBM_PWR_op = 1 ∧ OnlyRegs s t [A.hbm m + R.HBM_PWR]) ∧
  -- 23: selfRefreshEnter
  (∀ (s : State) (src : Source) (m : Nat),
    s.serves src (A.hbm m + R.HBM_PWR) true = true →
    s.chip.hbmUp m = false →
    Does (.selfRefreshEnter src m) s fun t => t.chip.get (A.hbm m) R.HBM_PWR_op = 0 ∧ OnlyRegs s t [A.hbm m + R.HBM_PWR]) ∧
  -- 24: selfRefreshEntryComplete
  (∀ (s : State) (m : Nat),
    s.runs .core = true →
    s.chip.hbmUp m = true →
    s.chip.hbmState m = 3 →
    (∀ pc < 32, (s.chip.hpc m pc).holder = none) →
    Does (.selfRefreshEntryComplete m) s fun t =>
      t.chip.hbmState m = (if (s.chip.hb m).wakeDue then 5 else 4) ∧ t.chip.get (A.hbm m) R.HBM_EVENT_sr_change = 1 ∧
      (∀ pc < 32, (t.chip.hpc m pc) = { (s.chip.hpc m pc) with owed := [], emergency := none }) ∧
      t.chip.reg (A.hbm m + C.sr_entries) = s.chip.reg (A.hbm m + C.sr_entries) + 1 ∧
      OnlyParts s t [A.hbm m + R.HBM_EVENT, A.hbm m + R.HBM_STATUS, A.hbm m + C.sr_entries, A.half m + R.INNK_STATUS,
        A.half m + R.INNK_SPILL_USED] [.hbms]) ∧
  -- 25: selfRefreshEntryComplete
  (∀ (s : State) (m : Nat),
    s.runs .core = true →
    (s.chip.hbmUp m = false ∨ s.chip.hbmState m ≠ 3 ∨ ¬(∀ pc < 32, (s.chip.hpc m pc).holder = none)) →
    Does (.selfRefreshEntryComplete m) s fun t => OnlyRegs s t []) ∧
  -- 26: selfRefreshExitComplete
  (∀ (s : State) (m : Nat),
    s.runs .core = true →
    s.chip.hbmUp m = true →
    s.chip.hbmState m = 5 ∧ s.chip.hbmPcs m ≠ [] →
    Does (.selfRefreshExitComplete m) s fun t =>
      t.chip.hbmState m = 2 ∧ t.chip.get (A.hbm m) R.HBM_EVENT_sr_change = 1 ∧ t.chip.hb m = { s.chip.hb m with lastGrant := s.chip.now } ∧
      OnlyParts s t [A.hbm m + R.HBM_EVENT, A.hbm m + R.HBM_STATUS, A.half m + R.INNK_STATUS, A.half m + R.INNK_SPILL_USED] [.hbms]) ∧
  -- 27: selfRefreshExitComplete
  (∀ (s : State) (m : Nat),
    s.runs .core = true →
    s.chip.hbmUp m = false ∨ s.chip.hbmState m ≠ 5 →
    Does (.selfRefreshExitComplete m) s fun t => OnlyRegs s t []) ∧
  -- 28: selfRefreshIdle
  (∀ (s : State) (m : Nat),
    s.runs .core = true →
    s.chip.hbmUp m = true →
    (s.chip.hb m).wokenByRequest = true ∧ (s.chip.hb m).exitWritten = false →
    s.chip.get (A.hbm m) R.HBM_CTRL_sr_idle_us ≠ 0 ∧ s.chip.passedUs (s.chip.hb m).lastGrant (s.chip.get (A.hbm m) R.HBM_CTRL_sr_idle_us) =
      true →
    (s.chip.innk m).bundles = [] ∧ s.chip.trainingOn m = false ∧ s.chip.hbmCopying m = false ∧ s.chip.hbmState m = 2 →
    Does (.selfRefreshIdle m) s fun t => t.chip.hbmState m = 3 ∧
      OnlyParts s t [A.hbm m + R.HBM_STATUS, A.half m + R.INNK_STATUS, A.half m + R.INNK_SPILL_USED] [.hbms]) ∧
  -- 29: selfRefreshIdle
  (∀ (s : State) (m : Nat),
    s.runs .core = true →
    s.chip.hbmUp m = false ∨ (s.chip.hb m).wokenByRequest = false ∨ (s.chip.hb m).exitWritten = true ∨
      s.chip.get (A.hbm m) R.HBM_CTRL_sr_idle_us = 0 ∨ s.chip.passedUs (s.chip.hb m).lastGrant (s.chip.get (A.hbm m) R.HBM_CTRL_sr_idle_us)
      = false ∨ ¬((s.chip.innk m).bundles = [] ∧ s.chip.trainingOn m = false ∧ s.chip.hbmCopying m = false ∧ s.chip.hbmState m = 2) →
    Does (.selfRefreshIdle m) s fun t => OnlyRegs s t []) ∧
  -- 30: hbmRetire
  (∀ (s : State) (src : Source) (m pc : Nat),
    s.serves src (A.hbm m + R.HBM_RETIRE) true = true →
    s.chip.hbmUp m = true →
    pc < 32 →
    (¬(s.chip.hbmRetired m pc = true ∨ s.chip.hbmState m ∉ [1, 2] ∨ s.chip.hbmCopying m = true ∨ (m = 0 ∧
      s.chip.get (A.hbm m) R.HBM_RELOC_used = 1 ∧ s.chip.get (A.hbm m) R.HBM_RETIRE_force = 0)) ∧ (m = 0 →
      s.chip.get (A.hbm m) R.HBM_RELOC_used = 0)) →
    s.chip.trainingOn m = false ∧ (s.chip.hpc m pc).step = 0 ∧ (s.chip.hpc m pc).waiting = [] ∧ (s.chip.innk m).bundles = [] →
    Does (.hbmRetire src m pc) s fun t =>
      t.chip.get (A.hbm m) R.HBM_RETIRE_result = 0 ∧ t.chip.get (A.hbm m) R.HBM_RETIRED_mask =
        s.chip.get (A.hbm m) R.HBM_RETIRED_mask ||| 2 ^ pc ∧ t.chip.get (A.hbm m) R.HBM_EVENT_retired = 1 ∧
        t.chip.house = (s.chip.hkRecord (.retire m pc)).house ∧
      (m = 0 → t.chip.get (A.hbm m) R.HBM_RELOC_used = 1 ∧ t.chip.get (A.hbm m) R.HBM_RELOC_channel = pc ∧ t.chip.hbmCopying m = true) ∧
      t.chip.ledger = s.chip.sent [s.chip.msgOf (pcUnit m pc) K.hbmRetired 2 1] ∧
        OnlyParts s t [A.hbm m + R.HBM_RETIRE, A.hbm m + R.HBM_RETIRED, A.hbm m + R.HBM_EVENT, A.hbm m + R.HBM_STATUS,
        A.hbm m + R.HBM_RELOC, A.half m + R.INNK_SPILL, A.half m + R.INNK_STATUS, A.half m + R.INNK_SPILL_USED] [.hbms, .house, .ledger]) ∧
  -- 31: hbmRetire
  (∀ (s : State) (src : Source) (pc m : Nat),
    m = 0 →
    s.serves src (A.hbm m + R.HBM_RETIRE) true = true →
    s.chip.hbmUp m = true →
    pc < 32 →
    ¬(s.chip.hbmRetired m pc = true ∨ s.chip.hbmState m ∉ [1, 2] ∨ s.chip.hbmCopying m = true ∨ (m = 0 ∧
      s.chip.get (A.hbm m) R.HBM_RELOC_used = 1 ∧ s.chip.get (A.hbm m) R.HBM_RETIRE_force = 0)) ∧
      s.chip.get (A.hbm m) R.HBM_RELOC_used = 1 →
    s.chip.trainingOn m = false ∧ (s.chip.hpc m pc).step = 0 ∧ (s.chip.hpc m pc).waiting = [] ∧ (s.chip.innk m).bundles = [] →
    Does (.hbmRetire src m pc) s fun t =>
      t.chip.get (A.hbm m) R.HBM_RETIRE_result = 0 ∧ t.chip.get (A.hbm m) R.HBM_RETIRED_mask =
        s.chip.get (A.hbm m) R.HBM_RETIRED_mask ||| 2 ^ pc ∧ t.chip.get (A.hbm m) R.HBM_EVENT_retired = 1 ∧
        (t.chip.hb m).unmapped = pc :: (s.chip.hb m).unmapped ∧ t.chip.get (A.hbm m) R.HBM_EVENT_region_lost = 1 ∧
      t.chip.ledger = s.chip.sent [s.chip.msgOf (hbmUnit m) K.hbmRegionLost 4 pc, s.chip.msgOf (pcUnit m pc) K.hbmRetired 2 1] ∧
        OnlyParts s t [A.hbm m + R.HBM_RETIRE, A.hbm m + R.HBM_RETIRED, A.hbm m + R.HBM_EVENT, A.hbm m + R.HBM_STATUS,
        A.hbm m + R.HBM_RELOC, A.half m + R.INNK_SPILL, A.half m + R.INNK_STATUS, A.half m + R.INNK_SPILL_USED] [.hbms, .house, .ledger]) ∧
  -- 32: hbmRetire
  (∀ (s : State) (src : Source) (m pc : Nat),
    s.serves src (A.hbm m + R.HBM_RETIRE) true = true →
    s.chip.hbmUp m = true →
    pc < 32 →
    s.chip.hbmRetired m pc = true ∨ s.chip.hbmState m ∉ [1, 2] ∨ s.chip.hbmCopying m = true ∨ (m = 0 ∧
      s.chip.get (A.hbm m) R.HBM_RELOC_used = 1 ∧ s.chip.get (A.hbm m) R.HBM_RETIRE_force = 0) →
    Does (.hbmRetire src m pc) s fun t =>
      t.chip.get (A.hbm m) R.HBM_RETIRE_result = (if s.chip.hbmRetired m pc then 1 else if s.chip.hbmState m ∉ [1, 2] ∨
        s.chip.hbmCopying m = true then 3 else 2) ∧
      t.chip.get (A.hbm m) R.HBM_RETIRE_channel = pc ∧ OnlyRegs s t [A.hbm m + R.HBM_RETIRE]) ∧
  -- 33: hbmRetire
  (∀ (s : State) (src : Source) (m pc : Nat),
    s.serves src (A.hbm m + R.HBM_RETIRE) true = true →
    s.chip.hbmUp m = false ∨ 32 ≤ pc →
    Does (.hbmRetire src m pc) s fun t => t.chip.get (A.hbm m) R.HBM_RETIRE_op = 0 ∧ OnlyRegs s t [A.hbm m + R.HBM_RETIRE]) ∧
  -- 34: hbmRetireClear
  (∀ (s : State) (src : Source) (m pc : Nat),
    s.serves src (A.hbm m + R.HBM_RETIRE) true = true →
    m < 2 ∧ pc < 32 →
    Does (.hbmRetireClear src m pc) s fun t =>
      t.chip.get (A.hbm m) R.HBM_RETIRE_result = 0 ∧ t.chip.get (A.hbm m) R.HBM_RETIRE_op = 1 ∧
        t.chip.get (A.hbm m) R.HBM_RETIRE_channel = pc ∧
      t.chip.house = (s.chip.hkRecord (.unretire m pc)).house ∧ OnlyParts s t [A.hbm m + R.HBM_RETIRE] [.house]) ∧
  -- 35: relocationCopyComplete
  (∀ (s : State) (m a k : Nat) (b : Byte),
    s.runs .core = true →
    (s.chip.hbmUp m = true ∧ s.chip.hbmCopying m = true ∧ ((s.chip.hpc m (s.chip.get (A.hbm m) R.HBM_RELOC_channel)).holder.toList ++
      (s.chip.hpc m (s.chip.get (A.hbm m) R.HBM_RELOC_channel)).suspended).all (fun r => r.req != 4) = true) →
    (s.chip.hpc m (s.chip.get (A.hbm m) R.HBM_RELOC_channel)).waiting = [] →
    (Tbl.wf (fun _ => none) (s.chip.hb m).mem = true) →
    Chip.shareGranule a = some k →
    (s.chip.hb m).mem.look (stackOffset (s.chip.get (A.hbm m) R.HBM_RELOC_channel) a) = some b →
    Does (.relocationCopyComplete m) s fun t =>
      (t.chip.hb m).mem.look (stackOffset (Chip.reservePlace (s.chip.get (A.hbm m) R.HBM_RELOC_channel) k).1 ((Chip.reservePlace (s.chip.get
        (A.hbm m) R.HBM_RELOC_channel) k).2 + a % 2048)) = some b ∧
      (t.chip.hb m).mem.look (stackOffset (s.chip.get (A.hbm m) R.HBM_RELOC_channel) a) = some b ∧ t.chip.hbmCopying m = false ∧
        OnlyParts s t [A.hbm m + R.HBM_RELOC] [.hbms]) ∧
  -- 36: relocationCopyComplete
  (∀ (s : State) (m : Nat),
    s.runs .core = true →
    (¬(s.chip.hbmUp m = true ∧ s.chip.hbmCopying m = true ∧ ((s.chip.hpc m (s.chip.get (A.hbm m) R.HBM_RELOC_channel)).holder.toList ++
      (s.chip.hpc m (s.chip.get (A.hbm m) R.HBM_RELOC_channel)).suspended).all (fun r => r.req != 4) = true)) →
    Does (.relocationCopyComplete m) s fun t => OnlyRegs s t []) ∧
  -- 37: hbmPllLoss
  (∀ (s : State) (m : Nat),
    s.runs .core = true →
    s.chip.hbmUp m = true →
    s.chip.hbmState m ≠ 0 ∧ s.chip.hbmState m ≠ 7 →
    Does (.hbmPllLoss m) s fun t =>
      t.chip.hbmState m = 7 ∧ (∀ pc < 32, t.chip.hbmRetired m pc = true ∧ (t.chip.hpc m pc).holder = none ∧
        (t.chip.hpc m pc).suspended = []) ∧
      t.chip.ledger.transit.any (fun x => x.kind == K.hbmPllLoss && x.source == s.chip.suiteUnit (phyUnit m) && x.sev == 3) = true ∧
        t.nv = s.nv ∧ t.fuses = s.fuses ∧ t.pending = s.pending) ∧
  -- 38: hbmPllLoss
  (∀ (s : State) (m : Nat),
    s.runs .core = true →
    s.chip.hbmUp m = false ∨ s.chip.hbmState m = 0 ∨ s.chip.hbmState m = 7 →
    Does (.hbmPllLoss m) s fun t => OnlyRegs s t [])

/-- SLEEP_ENTRY of a slice whose suite's members may all sleep starts their entry, without a cause; SLEEP_ENTRY_COMPLETE without a cause
makes the slice asleep and counts; SLICE_WAKE, when a member has a cause, starts the wake of the members that sleep or go to sleep;
WAKE_CMD gives every sleeping slice of the mask a cause; PLL_PRIMARY_TIMEOUT starts the backup set, counts and reports;
WAKE_BACKUP_TIMEOUT drops the wake store, counts its items, holds the slice in reset and reports; WAKE_COMPLETE resumes the slice and
drains the wake store, its line frames to the porters. In another phase each does nothing. That members sleep and wake together is log
58. -/
def Obligations.SlicesSleepAndWake : Prop :=
  -- 1: sleepEntry
  (∀ (s : State) (sl : Nat),
    s.runs .core = true →
    sl < 8 →
    (s.chip.sleepers sl).Nodup ∧ (s.chip.sleepers sl).all (· < 8) = true →
    (s.chip.sleepers sl).all s.chip.maySleep = true →
    Does (.sleepEntry sl) s fun t =>
      (∀ k ∈ s.chip.sleepers sl, t.chip.house.sleep.look k = 1 ∧ t.chip.get 0 R.SLEEP_STATE_waking / 2 ^ k % 2 = 1 ∧
        t.chip.causeOf k = false) ∧ (∀ k, k ∉ s.chip.sleepers sl → t.chip.house.sleep.look k = s.chip.house.sleep.look k) ∧
      OnlyParts s t [R.SLEEP_STATE] [.house]) ∧
  -- 2: sleepEntry
  (∀ (s : State) (sl : Nat),
    s.runs .core = true →
    8 ≤ sl ∨ (s.chip.sleepers sl).all s.chip.maySleep = false →
    Does (.sleepEntry sl) s fun t => OnlyRegs s t []) ∧
  -- 3: sleepEntryComplete
  (∀ (s : State) (sl : Nat),
    s.runs .core = true →
    sl < 8 ∧ s.chip.house.sleep.look sl = 1 ∧ s.chip.causeOf sl = false →
    Does (.sleepEntryComplete sl) s fun t =>
      t.chip.house.sleep.look sl = 2 ∧ (t.chip.get 0 R.SLEEP_STATE_asleep / 2 ^ sl % 2) = 1 ∧
        (t.chip.get 0 R.SLEEP_STATE_waking / 2 ^ sl % 2) = 0 ∧
        t.chip.reg (C.sleep_entries + 0x20 * sl) = s.chip.reg (C.sleep_entries + 0x20 * sl) + 1 ∧
      (∀ k, k ≠ sl → t.chip.house.sleep.look k = s.chip.house.sleep.look k) ∧
        OnlyParts s t [R.SLEEP_STATE, C.sleep_entries + 0x20 * sl] [.house]) ∧
  -- 4: sleepEntryComplete
  (∀ (s : State) (sl : Nat),
    s.runs .core = true →
    8 ≤ sl ∨ s.chip.house.sleep.look sl ≠ 1 ∨ s.chip.causeOf sl = true →
    Does (.sleepEntryComplete sl) s fun t => OnlyRegs s t []) ∧
  -- 5: sliceWake
  (∀ (s : State) (sl : Nat),
    s.runs .core = true →
    sl < 8 →
    (s.chip.sleepers sl).Nodup ∧ (s.chip.sleepers sl).all (· < 8) = true →
    (s.chip.sleepers sl).any s.chip.causeOf = true →
    Does (.sliceWake sl) s fun t =>
      (∀ k ∈ s.chip.sleepers sl, (s.chip.house.sleep.look k = 1 ∨ s.chip.house.sleep.look k = 2 → t.chip.house.sleep.look k = 3 ∧
        t.chip.get 0 R.SLEEP_STATE_waking / 2 ^ k % 2 = 1 ∧ t.chip.causeOf k = false) ∧
        (s.chip.house.sleep.look k ≠ 1 → s.chip.house.sleep.look k ≠ 2 → t.chip.house.sleep.look k = s.chip.house.sleep.look k)) ∧
      (∀ k, k ∉ s.chip.sleepers sl → t.chip.house.sleep.look k = s.chip.house.sleep.look k) ∧
        t.chip.get 0 R.SLEEP_STATE_asleep = s.chip.get 0 R.SLEEP_STATE_asleep ∧ OnlyParts s t [R.SLEEP_STATE] [.house]) ∧
  -- 6: sliceWake
  (∀ (s : State) (sl : Nat),
    s.runs .core = true →
    8 ≤ sl ∨ (s.chip.sleepers sl).any s.chip.causeOf = false →
    Does (.sliceWake sl) s fun t => OnlyRegs s t []) ∧
  -- 7: wakeCmd
  (∀ (s : State) (src : Source) (mask : Nat),
    s.serves src R.WAKE_CMD true = true →
    mask < 256 →
    Does (.wakeCmd src mask) s fun t =>
      t.chip.get 0 R.WAKE_CMD_mask = mask ∧
      (∀ k, k < 8 → t.chip.causeOf k = (s.chip.causeOf k || (mask / 2 ^ k % 2 == 1 && (s.chip.house.sleep.look k ==
        1 || s.chip.house.sleep.look k == 2)))) ∧
      t.chip.house = { s.chip.house with cause := t.chip.house.cause } ∧ OnlyParts s t [R.WAKE_CMD] [.house]) ∧
  -- 8: pllPrimaryTimeout
  (∀ (s : State) (sl : Nat),
    s.runs .core = true →
    sl < 8 ∧ s.chip.house.sleep.look sl = 3 →
    Does (.pllPrimaryTimeout sl) s fun t =>
      t.chip.house.sleep.look sl = 4 ∧ (t.chip.get 0 R.SLEEP_STATE_waking / 2 ^ sl % 2) = 1 ∧
        t.chip.reg (C.wake_fallback + 0x20 * sl) = s.chip.reg (C.wake_fallback + 0x20 * sl) + 1 ∧ t.chip.get 0 R.HK_EVENT_wake_fail = 1 ∧
      t.chip.ledger = s.chip.sent [s.chip.msgOf (U.sliceBlk sl 0x90) K.sliceWakeFail 3 1] ∧
      OnlyParts s t [R.SLEEP_STATE, C.wake_fallback + 0x20 * sl, R.HK_EVENT] [.house, .ledger]) ∧
  -- 9: pllPrimaryTimeout
  (∀ (s : State) (sl : Nat),
    s.runs .core = true →
    8 ≤ sl ∨ s.chip.house.sleep.look sl ≠ 3 →
    Does (.pllPrimaryTimeout sl) s fun t => OnlyRegs s t []) ∧
  -- 10: wakeComplete
  (∀ (s : State) (sl : Nat),
    s.runs .core = true →
    sl < 8 ∧ (s.chip.house.sleep.look sl = 3 ∨ s.chip.house.sleep.look sl = 4) →
    s.chip.house.wakeStore.look sl = [] →
    ((List.range 16).all (fun q => !(s.chip.on (A.port (16 * sl + q)) R.GATE_CTRL_enable)) = true) →
    Does (.wakeComplete sl) s fun t =>
      t.chip.house.sleep.look sl = 0 ∧ (t.chip.get 0 R.SLEEP_STATE_asleep / 2 ^ sl % 2) = 0 ∧
        (t.chip.get 0 R.SLEEP_STATE_waking / 2 ^ sl % 2) = 0 ∧ (∀ k, k ≠ sl → t.chip.house.sleep.look k = s.chip.house.sleep.look k) ∧
      OnlyParts s t [R.SLEEP_STATE] [.house, .scheds]) ∧
  -- 11: wakeComplete
  (∀ (s : State) (sl : Nat),
    s.runs .core = true →
    sl < 8 ∧ (s.chip.house.sleep.look sl = 3 ∨ s.chip.house.sleep.look sl = 4) →
    ((s.chip.house.wakeStore.look sl).all (fun w => match w with | .frame _ => true | _ => false) = true) →
    ((List.range 16).all (fun q => !(s.chip.on (A.port (16 * sl + q)) R.GATE_CTRL_enable)) = true) →
    Does (.wakeComplete sl) s fun t =>
      t.chip.house.sleep.look sl = 0 ∧ t.chip.house.wakeStore.look sl = [] ∧
      (∀ id f, WakeItem.frame id ∈ s.chip.house.wakeStore.look sl → s.chip.frames.look id = some f →
        t.chip.fr id = { f with stage := .waiting }) ∧
      OnlyParts s t [R.SLEEP_STATE] [.house, .scheds, .frames]) ∧
  -- 12: wakeComplete
  (∀ (s : State) (sl : Nat),
    s.runs .core = true →
    sl < 8 ∧ (s.chip.house.sleep.look sl = 3 ∨ s.chip.house.sleep.look sl = 4) →
    Does (.wakeComplete sl) s fun t => t.chip.house.sleep.look sl = 0 ∧ t.chip.house.wakeStore.look sl = [] ∧ t.nv = s.nv ∧
      t.fuses = s.fuses ∧ t.pending = s.pending) ∧
  -- 13: wakeComplete
  (∀ (s : State) (sl : Nat),
    s.runs .core = true →
    8 ≤ sl ∨ (s.chip.house.sleep.look sl ≠ 3 ∧ s.chip.house.sleep.look sl ≠ 4) →
    Does (.wakeComplete sl) s fun t => OnlyRegs s t []) ∧
  -- 14: wakeBackupTimeout
  (∀ (s : State) (sl : Nat),
    s.runs .core = true →
    sl < 8 ∧ s.chip.house.sleep.look sl = 4 ∧ s.chip.sliceEnabled sl = true →
    Does (.wakeBackupTimeout sl) s fun t =>
      t.chip.house.sleep.look sl = 0 ∧ t.chip.house.wakeStore.look sl = [] ∧ t.chip.inReset (s.chip.suiteUnit (U.slice sl)) = true ∧
        t.chip.get 0 R.HK_EVENT_wake_fail = 1 ∧
      t.chip.reg (C.wake_store_drop + 0x20 * sl) = s.chip.reg (C.wake_store_drop + 0x20 * sl) + BitVec.ofNat 64 (s.chip.house.wakeStore.look
        sl).length ∧
      t.chip.ledger.transit.getLast? = some (s.chip.msgOf (U.sliceBlk sl 0x90) K.sliceWakeFail 3 2) ∧
      t.nv = s.nv ∧ t.fuses = s.fuses ∧ t.pending = s.pending) ∧
  -- 15: wakeBackupTimeout
  (∀ (s : State) (sl : Nat),
    s.runs .core = true →
    8 ≤ sl ∨ s.chip.house.sleep.look sl ≠ 4 →
    Does (.wakeBackupTimeout sl) s fun t => OnlyRegs s t [])

/-- NIGHT_WINDOW_START in the window sets night and, when hbm_sleep is 1, holds the innkeepers of the enabled halves;
NIGHT_SELF_REFRESH_ENTRY and SELF_REFRESH_RETRY write the entry op, which takes the stack to self-refresh or leaves R358's result;
NIGHT_WINDOW_END clears night, releases the holds and writes the exit op. AVS_STEP moves the set point 5 mV towards the plan's value for
the band, up every 100 microseconds, down every 1 ms and not in a sag; AVS_VERIFY accepts a readback within 10 mV, repeats up to three
times, and then goes back, stays there and reports the command. Where a condition does not hold nothing changes. Log 58 says which
commands the night takes, log 59 what PMBus carries. -/
def Obligations.NightWindowAndVoltage : Prop :=
  -- 1: nightWindowStart
  (∀ (s : State),
    s.runs .core = true →
    s.chip.nightDue = true →
    s.chip.get 0 R.NIGHT_CTRL_hbm_sleep = 0 →
    Does .nightWindowStart s fun t => t.chip.get 0 R.HK_STATUS_night = 1 ∧ OnlyRegs s t [R.HK_STATUS]) ∧
  -- 2: nightWindowStart
  (∀ (s : State),
    s.runs .core = true →
    s.chip.nightDue = true →
    s.chip.get 0 R.NIGHT_CTRL_hbm_sleep = 1 →
    Does .nightWindowStart s fun t =>
      t.chip.get 0 R.HK_STATUS_night = 1 ∧
      (∀ m < 2, if s.chip.halfEnabled m = true ∧ s.chip.house.nightHeld.look m = false then
        t.chip.house.nightHeld.look m = true ∧ t.chip.innk m = { s.chip.innk m with nightHold := true } ∧
          t.chip.get 0 R.HK_STATUS_hbm_held = 1 ∧
          t.chip.get (A.half m) R.INNK_STATUS_spill_ready = 0
        else t.chip.house.nightHeld.look m = s.chip.house.nightHeld.look m ∧ t.chip.innk m = s.chip.innk m) ∧
      OnlyParts s t [R.HK_STATUS, A.half 0 + R.INNK_STATUS, A.half 0 + R.INNK_SPILL_USED, A.half 1 + R.INNK_STATUS,
        A.half 1 + R.INNK_SPILL_USED] [.house, .innkeepers]) ∧
  -- 3: nightWindowStart
  (∀ (s : State),
    s.runs .core = true →
    s.chip.nightDue = false →
    Does .nightWindowStart s fun t => OnlyRegs s t []) ∧
  -- 4: nightSelfRefreshEntry
  (∀ (s : State) (m : Nat),
    s.runs .core = true →
    m < 2 ∧ s.chip.house.nightHeld.look m = true ∧ s.chip.house.nightOp.look m = none ∧ (s.chip.innk m).bundles = [] ∧
      s.chip.hbmUp m = true →
    s.chip.trainingOn m = false ∧ s.chip.hbmCopying m = false ∧ s.chip.hbmState m = 2 →
    Does (.nightSelfRefreshEntry m) s fun t => t.chip.hbmState m = 3 ∧ t.chip.get (A.hbm m) R.HBM_PWR_result = 0 ∧
      t.chip.get (A.hbm m) R.HBM_PWR_op = 0 ∧ t.chip.house = { s.chip.house with nightOp := s.chip.house.nightOp.set m (some s.chip.now) } ∧
      OnlyParts s t [A.hbm m + R.HBM_PWR, A.hbm m + R.HBM_STATUS, A.half m + R.INNK_STATUS, A.half m + R.INNK_SPILL_USED] [.house, .hbms]) ∧
  -- 5: nightSelfRefreshEntry
  (∀ (s : State) (m : Nat),
    s.runs .core = true →
    m < 2 ∧ s.chip.house.nightHeld.look m = true ∧ s.chip.house.nightOp.look m = none ∧ (s.chip.innk m).bundles = [] ∧
      s.chip.hbmUp m = true →
    ¬(s.chip.trainingOn m = false ∧ s.chip.hbmCopying m = false ∧ s.chip.hbmState m = 2) →
    Does (.nightSelfRefreshEntry m) s fun t => t.chip.hbmState m = s.chip.hbmState m ∧
      t.chip.get (A.hbm m) R.HBM_PWR_result = (if (s.chip.innk m).bundles ≠ [] then 1 else if s.chip.trainingOn m = true ∨
      s.chip.hbmState m ∈ [1, 6] ∨ s.chip.hbmCopying m = true then 2 else 3) ∧
      t.chip.house = { s.chip.house with nightOp := s.chip.house.nightOp.set m (some s.chip.now) } ∧
      OnlyParts s t [A.hbm m + R.HBM_PWR] [.house]) ∧
  -- 6: nightSelfRefreshEntry
  (∀ (s : State) (m : Nat),
    s.runs .core = true →
    ¬(m < 2 ∧ s.chip.house.nightHeld.look m = true ∧ s.chip.house.nightOp.look m = none ∧ (s.chip.innk m).bundles = [] ∧
      s.chip.hbmUp m = true) →
    Does (.nightSelfRefreshEntry m) s fun t => OnlyRegs s t []) ∧
  -- 7: selfRefreshRetry
  (∀ (s : State) (m : Nat),
    s.runs .core = true →
    (m < 2 ∧ s.chip.house.nightHeld.look m = true ∧ (s.chip.house.nightOp.look m).any (fun at_ => s.chip.passedUs at_ 1000) = true ∧
      s.chip.get (A.hbm m) R.HBM_PWR_result ≠ 0 ∧ s.chip.hbmUp m = true) →
    (s.chip.innk m).bundles = [] ∧ s.chip.trainingOn m = false ∧ s.chip.hbmCopying m = false ∧ s.chip.hbmState m = 2 →
    Does (.selfRefreshRetry m) s fun t => t.chip.hbmState m = 3 ∧ t.chip.get (A.hbm m) R.HBM_PWR_result = 0 ∧
      t.chip.get (A.hbm m) R.HBM_PWR_op = 0 ∧ t.chip.house = { s.chip.house with nightOp := s.chip.house.nightOp.set m (some s.chip.now) } ∧
      OnlyParts s t [A.hbm m + R.HBM_PWR, A.hbm m + R.HBM_STATUS, A.half m + R.INNK_STATUS, A.half m + R.INNK_SPILL_USED] [.house, .hbms]) ∧
  -- 8: selfRefreshRetry
  (∀ (s : State) (m : Nat),
    s.runs .core = true →
    (m < 2 ∧ s.chip.house.nightHeld.look m = true ∧ (s.chip.house.nightOp.look m).any (fun at_ => s.chip.passedUs at_ 1000) = true ∧
      s.chip.get (A.hbm m) R.HBM_PWR_result ≠ 0 ∧ s.chip.hbmUp m = true) →
    (s.chip.innk m).bundles ≠ [] ∨ ¬(s.chip.trainingOn m = false ∧ s.chip.hbmCopying m = false ∧ s.chip.hbmState m = 2) →
    Does (.selfRefreshRetry m) s fun t => t.chip.hbmState m = s.chip.hbmState m ∧
      t.chip.get (A.hbm m) R.HBM_PWR_result = (if (s.chip.innk m).bundles ≠ [] then 1 else if s.chip.trainingOn m = true ∨
      s.chip.hbmState m ∈ [1, 6] ∨ s.chip.hbmCopying m = true then 2 else 3) ∧
      t.chip.house = { s.chip.house with nightOp := s.chip.house.nightOp.set m (some s.chip.now) } ∧
      OnlyParts s t [A.hbm m + R.HBM_PWR] [.house]) ∧
  -- 9: selfRefreshRetry
  (∀ (s : State) (m : Nat),
    s.runs .core = true →
    (¬(m < 2 ∧ s.chip.house.nightHeld.look m = true ∧ (s.chip.house.nightOp.look m).any (fun at_ => s.chip.passedUs at_ 1000) = true ∧
      s.chip.get (A.hbm m) R.HBM_PWR_result ≠ 0 ∧ s.chip.hbmUp m = true)) →
    Does (.selfRefreshRetry m) s fun t => OnlyRegs s t []) ∧
  -- 10: nightWindowEnd
  (∀ (s : State),
    s.runs .core = true →
    s.chip.get 0 R.HK_STATUS_night = 1 →
    s.chip.nightDue = false →
    Does .nightWindowEnd s fun t =>
      t.chip.get 0 R.HK_STATUS_night = 0 ∧ t.chip.get 0 R.HK_STATUS_hbm_held = 0 ∧
      (∀ m < 2, s.chip.house.nightHeld.look m = true → t.chip.house.nightHeld.look m = false ∧ t.chip.house.nightOp.look m = none ∧
        t.chip.innk m = { s.chip.innk m with nightHold := false } ∧
        (s.chip.hbmUp m = true → t.chip.get (A.hbm m) R.HBM_PWR_op = 1 ∧ t.chip.get (A.hbm m) R.HBM_PWR_result = (if s.chip.hbmState m = 0 ∨
          s.chip.hbmState m = 7 then 3 else 0) ∧
          t.chip.hbmState m = (if s.chip.hbmState m = 4 then 5 else s.chip.hbmState m))) ∧
      OnlyParts s t ([R.HK_STATUS] ++ (List.range 2).flatMap fun m => [A.hbm m + R.HBM_PWR, A.hbm m + R.HBM_STATUS,
        A.half m + R.INNK_STATUS, A.half m + R.INNK_SPILL_USED]) [.house, .hbms, .innkeepers]) ∧
  -- 11: nightWindowEnd
  (∀ (s : State),
    s.runs .core = true →
    s.chip.get 0 R.HK_STATUS_night = 0 ∨ s.chip.nightDue = true →
    Does .nightWindowEnd s fun t => OnlyRegs s t []) ∧
  -- 12: avsStep
  (∀ (s : State) (v : Nat),
    s.runs .aon = true →
    s.chip.avsTarget = some v →
    s.chip.get 0 R.AVS_CTRL_enable = 1 ∧ s.chip.get 0 R.AVS_STATUS_stuck = 0 ∧ s.chip.house.avsWait = none ∧
      s.chip.house.unsteered = false →
    s.chip.get 0 R.AVS_STATUS_set_mv + 5 ≤ v ∧ s.chip.passedUs s.chip.house.avsLast 100 = true →
    Does .avsStep s fun t =>
      t.chip.get 0 R.AVS_STATUS_set_mv = s.chip.get 0 R.AVS_STATUS_set_mv + 5 ∧
        t.chip.out = [.pmbus 0x21 (s.chip.get 0 R.AVS_STATUS_set_mv + 5)] ∧
      t.chip.house = { s.chip.house with avsWait := some (s.chip.get 0 R.AVS_STATUS_set_mv, 0, s.chip.now), avsLast := s.chip.now } ∧
      t.chip.reg C.avs_steps = s.chip.reg C.avs_steps + 1 ∧ OnlyParts s t [R.AVS_STATUS, C.avs_steps] [.house]) ∧
  -- 13: avsStep
  (∀ (s : State) (v : Nat),
    s.runs .aon = true →
    s.chip.avsTarget = some v →
    s.chip.get 0 R.AVS_CTRL_enable = 1 ∧ s.chip.get 0 R.AVS_STATUS_stuck = 0 ∧ s.chip.house.avsWait = none ∧
      s.chip.house.unsteered = false →
    v + 5 ≤ s.chip.get 0 R.AVS_STATUS_set_mv ∧ s.chip.passedUs s.chip.house.avsLast 1000 = true ∧ s.chip.get 0 R.SAG_STATUS_nv_low = 0 ∧
      s.chip.get 0 R.SAG_STATUS_core_low = 0 →
    Does .avsStep s fun t =>
      t.chip.get 0 R.AVS_STATUS_set_mv = s.chip.get 0 R.AVS_STATUS_set_mv - 5 ∧
        t.chip.out = [.pmbus 0x21 (s.chip.get 0 R.AVS_STATUS_set_mv - 5)] ∧
      t.chip.house = { s.chip.house with avsWait := some (s.chip.get 0 R.AVS_STATUS_set_mv, 0, s.chip.now), avsLast := s.chip.now } ∧
      t.chip.reg C.avs_steps = s.chip.reg C.avs_steps + 1 ∧ OnlyParts s t [R.AVS_STATUS, C.avs_steps] [.house]) ∧
  -- 14: avsStep
  (∀ (s : State),
    s.runs .aon = true →
    (¬(s.chip.get 0 R.AVS_CTRL_enable = 1 ∧ s.chip.get 0 R.AVS_STATUS_stuck = 0 ∧ s.chip.house.avsWait = none ∧
      s.chip.house.unsteered = false) ∨ s.chip.avsTarget.all (fun v => decide (¬(s.chip.get 0 R.AVS_STATUS_set_mv + 5 ≤ v ∧
      s.chip.passedUs s.chip.house.avsLast 100 = true) ∧ ¬(v + 5 ≤ s.chip.get 0 R.AVS_STATUS_set_mv ∧
      s.chip.passedUs s.chip.house.avsLast 1000 = true ∧ s.chip.get 0 R.SAG_STATUS_nv_low = 0 ∧
      s.chip.get 0 R.SAG_STATUS_core_low = 0))) = true) →
    Does .avsStep s fun t => OnlyRegs s t []) ∧
  -- 15: avsVerify
  (∀ (s : State) (readback old tries at_ : Nat),
    s.runs .aon = true →
    s.chip.house.avsWait = some (old, tries, at_) ∧ s.chip.passedUs at_ 200 = true →
    readback < 4096 ∧ readback ≤ s.chip.get 0 R.AVS_STATUS_set_mv + 10 ∧ s.chip.get 0 R.AVS_STATUS_set_mv ≤ readback + 10 →
    Does (.avsVerify (.vout readback)) s fun t =>
      t.chip.get 0 R.AVS_STATUS_read_mv = readback ∧ t.chip.get 0 R.AVS_STATUS_set_mv = s.chip.get 0 R.AVS_STATUS_set_mv ∧
        t.chip.house = { s.chip.house with avsWait := none } ∧
      OnlyParts s t [R.AVS_STATUS] [.house]) ∧
  -- 16: avsVerify
  (∀ (s : State) (a : PmbusAnswer) (old tries at_ code : Nat),
    s.runs .aon = true →
    s.chip.house.avsWait = some (old, tries, at_) →
    ((match a with | .failed k => k = code | .vout mv => mv < 4096 ∧ s.chip.passedUs at_ 200 = true ∧
      ¬(mv ≤ s.chip.get 0 R.AVS_STATUS_set_mv + 10 ∧ s.chip.get 0 R.AVS_STATUS_set_mv ≤ mv + 10) ∧ code = 0x21)) →
    tries < 3 →
    Does (.avsVerify a) s fun t =>
      t.chip.get 0 R.AVS_STATUS_read_mv = (match a with | .failed _ => s.chip.get 0 R.AVS_STATUS_read_mv | .vout mv => mv) ∧
        t.chip.house = { s.chip.house with avsWait := some (old, tries + 1, s.chip.now) } ∧
        t.chip.out = [.pmbus 0x21 (s.chip.get 0 R.AVS_STATUS_set_mv)] ∧
      t.chip.reg C.pmbus_retries = s.chip.reg C.pmbus_retries + 1 ∧ OnlyParts s t [R.AVS_STATUS, C.pmbus_retries] [.house]) ∧
  -- 17: avsVerify
  (∀ (s : State) (a : PmbusAnswer) (old tries at_ code : Nat),
    s.runs .aon = true →
    s.chip.house.avsWait = some (old, tries, at_) →
    ((match a with | .failed k => k = code | .vout mv => mv < 4096 ∧ s.chip.passedUs at_ 200 = true ∧
      ¬(mv ≤ s.chip.get 0 R.AVS_STATUS_set_mv + 10 ∧ s.chip.get 0 R.AVS_STATUS_set_mv ≤ mv + 10) ∧ code = 0x21)) →
    3 ≤ tries ∧ old < 4096 →
    Does (.avsVerify a) s fun t =>
      t.chip.get 0 R.AVS_STATUS_read_mv = (match a with | .failed _ => s.chip.get 0 R.AVS_STATUS_read_mv | .vout mv => mv) ∧
        t.chip.get 0 R.AVS_STATUS_set_mv = old ∧ t.chip.get 0 R.AVS_STATUS_stuck = 1 ∧ t.chip.get 0 R.HK_EVENT_pmbus_fail = 1 ∧
        t.chip.house = { s.chip.house with avsWait := none } ∧
      t.chip.ledger = s.chip.sent [s.chip.msgOf 0xD030 K.pmbusFail 2 code] ∧ OnlyParts s t [R.AVS_STATUS, R.HK_EVENT] [.house, .ledger]) ∧
  -- 18: avsVerify
  (∀ (s : State) (a : PmbusAnswer),
    s.runs .aon = true →
    (s.chip.house.avsWait.all (fun w => (match a with | .vout _ => true | .failed _ => false) && !(s.chip.passedUs w.2.2 200)) = true) →
    Does (.avsVerify a) s fun t => OnlyRegs s t [])

/-- AGEING_MONITOR_READ stores the reading of every monitor it gives. The first REPLAN plans the set points alone and is done; one that is
due plans them and lists its items; a plan beyond ceil_mv is clamped and reported. REPLAN_ITEM runs an item whose condition holds, a
deferred one at night, and the last one completes the re-plan; an item of a stack trains it; one that waited 24 h is deferred, counted,
and reported the fourth time. THERMAL_SAMPLE records the hottest reading, its sensor and its band, warns at warn_c, ends the warning 5
degrees below, and trips at trip_c, which stops the device. Without readings, or before its time, each does nothing. Which items there
are is log 60, where the sensors stand log 61. -/
def Obligations.AgeingAndTemperature : Prop :=
  -- 1: ageingMonitorRead
  (∀ (s : State) (values : List Nat),
    s.runs .aon = true →
    Does (.ageingMonitorRead values) s fun t =>
      (∀ i < 96, t.chip.house.monitors.look i = if 8 * i + 8 ≤ values.length then some (mkReading ((values.drop (8 * i)).take 8)) else
        s.chip.house.monitors.look i) ∧
      t.chip.house = { s.chip.house with monitors := t.chip.house.monitors } ∧
      OnlyParts s t [R.HK_EVENT, R.AGE_STATUS] [.house, .ledger]) ∧
  -- 2: ageingMonitorRead
  (∀ (s : State) (values : List Nat) (i : Nat),
    s.runs .aon = true →
    i < 96 ∧ 8 * i + 8 ≤ values.length →
    (((mkReading ((values.drop (8 * i)).take 8))).slackCeil < (s.chip.get 0 R.HK_AGE_CTRL_slack_warn_ps : Int) ∧
      (s.chip.house.monitors.look i).all (fun o => decide ((s.chip.get 0 R.HK_AGE_CTRL_slack_warn_ps : Int) ≤ o.slackCeil)) = true) →
    Does (.ageingMonitorRead values) s fun t =>
      t.chip.get 0 R.HK_EVENT_ageing = 1 ∧ t.chip.ledger.transit.any (fun x => x.source == s.chip.suiteUnit 0xD030 && x.kind ==
        K.ageingMargin && x.sev == 2 && x.addr == i) = true) ∧
  -- 3: replan
  (∀ (s : State),
    s.runs .aon = true →
    s.chip.image.applied = true ∧ s.chip.house.monitors ≠ [] →
    s.chip.house.replanAt = none →
    Does .replan s fun t =>
      t.chip.house.plan = ((List.range 5).map fun b => Nat.min (s.chip.planBand b) (s.chip.get 0 R.AVS_CTRL_ceil_mv)) ∧
        t.chip.house.queue = (s.chip.hkRecord (.plan ((List.range 5).map fun b => Nat.min (s.chip.planBand b) (s.chip.get 0
        R.AVS_CTRL_ceil_mv)))).house.queue ∧ (∀ b < 5, s.chip.get 0 R.AVS_CTRL_ceil_mv < s.chip.planBand b →
        t.chip.ledger.transit.any (fun x => x.kind == K.ageingMargin && x.sev == 2 && x.addr == 2 ^ 11 + b * 256) = true) ∧
        t.chip.house.replanAt = some s.chip.now ∧ t.chip.reg C.replans = s.chip.reg C.replans + 1 ∧
        t.chip.house.replanDone = some s.chip.now ∧ t.chip.house.items = s.chip.house.items ∧ t.chip.get 0 R.HK_EVENT_replan_done = 1 ∧
      OnlyParts s t [R.HK_EVENT, R.AGE_STATUS, C.replans] [.house, .ledger]) ∧
  -- 4: replan
  (∀ (s : State) (at_ : Nat),
    s.runs .aon = true →
    s.chip.image.applied = true ∧ s.chip.house.monitors ≠ [] →
    s.chip.house.replanAt = some at_ ∧ at_ + s.chip.get 0 R.HK_AGE_CTRL_replan_days * dayNs ≤ s.chip.now →
    Does .replan s fun t =>
      t.chip.house.plan = ((List.range 5).map fun b => Nat.min (s.chip.planBand b) (s.chip.get 0 R.AVS_CTRL_ceil_mv)) ∧
        t.chip.house.queue = (s.chip.hkRecord (.plan ((List.range 5).map fun b => Nat.min (s.chip.planBand b) (s.chip.get 0
        R.AVS_CTRL_ceil_mv)))).house.queue ∧ (∀ b < 5, s.chip.get 0 R.AVS_CTRL_ceil_mv < s.chip.planBand b →
        t.chip.ledger.transit.any (fun x => x.kind == K.ageingMargin && x.sev == 2 && x.addr == 2 ^ 11 + b * 256) = true) ∧
        t.chip.house.replanAt = some s.chip.now ∧ t.chip.reg C.replans = s.chip.reg C.replans + 1 ∧
        t.chip.house.items = s.chip.replanItems ∧ t.chip.house.replanDone = s.chip.house.replanDone ∧
      OnlyParts s t [R.HK_EVENT, R.AGE_STATUS, C.replans] [.house, .ledger]) ∧
  -- 5: replan
  (∀ (s : State),
    s.runs .aon = true →
    (s.chip.image.applied = false ∨ s.chip.house.monitors = [] ∨
      s.chip.house.replanAt.any (fun at_ => decide (s.chip.now < at_ + s.chip.get 0 R.HK_AGE_CTRL_replan_days * dayNs)) = true) →
    Does .replan s fun t => OnlyRegs s t []) ∧
  -- 6: replanItem
  (∀ (s : State) (item row unit at_ : Nat) (deferred : Bool),
    s.runs .aon = true →
    s.chip.house.items[item]? = some (row, unit, deferred) ∧ s.chip.house.replanAt = some at_ →
    s.chip.itemReady row unit = true ∧ (deferred = false ∨ s.chip.get 0 R.HK_STATUS_night = 1) →
    row ≠ 4 ∧ 1 < s.chip.house.items.length →
    Does (.replanItem item) s fun t =>
      t.chip.house.items = s.chip.house.items.eraseIdx item ∧ t.chip.house.replanDone = s.chip.house.replanDone ∧
        OnlyParts s t [R.AGE_STATUS] [.house]) ∧
  -- 7: replanItem
  (∀ (s : State) (item row unit at_ : Nat) (deferred : Bool),
    s.runs .aon = true →
    s.chip.house.items[item]? = some (row, unit, deferred) ∧ s.chip.house.replanAt = some at_ →
    s.chip.itemReady row unit = true ∧ (deferred = false ∨ s.chip.get 0 R.HK_STATUS_night = 1) →
    row ≠ 4 ∧ s.chip.house.items.length = 1 →
    Does (.replanItem item) s fun t =>
      t.chip.house.items = [] ∧ t.chip.house.replanDone = some s.chip.now ∧ t.chip.get 0 R.HK_EVENT_replan_done = 1 ∧
      OnlyParts s t [R.AGE_STATUS, R.HK_EVENT] [.house]) ∧
  -- 8: replanItem
  (∀ (s : State) (item row unit at_ : Nat) (deferred : Bool),
    s.runs .aon = true →
    s.chip.house.items[item]? = some (row, unit, deferred) ∧ s.chip.house.replanAt = some at_ →
    s.chip.itemReady row unit = true ∧ (deferred = false ∨ s.chip.get 0 R.HK_STATUS_night = 1) →
    row = 4 →
    Does (.replanItem item) s fun t =>
      t.chip.house.items = s.chip.house.items.eraseIdx item ∧ t.chip.hbmState unit = 1 ∧ t.chip.get (A.hbm unit) R.HBM_TRAIN_state = 1 ∧
        t.chip.trainingOn unit = true ∧
      t.chip.reg (A.hbm unit + C.trainings) = s.chip.reg (A.hbm unit + C.trainings) + 1 ∧
        (∀ pc ∈ s.chip.hbmPcs unit, (t.chip.hpc unit pc).step = 1) ∧
      OnlyParts s t [R.AGE_STATUS, R.HK_EVENT, A.hbm unit + R.HBM_TRAIN, A.hbm unit + R.HBM_STATUS, A.hbm unit + C.trainings] [.house,
        .hbms]) ∧
  -- 9: replanItem
  (∀ (s : State) (item row unit at_ n : Nat) (deferred : Bool),
    s.runs .aon = true →
    s.chip.house.items[item]? = some (row, unit, deferred) ∧ s.chip.house.replanAt = some at_ ∧ deferred = false →
    s.chip.itemReady row unit = false ∧ at_ + dayNs ≤ s.chip.now →
    n = s.chip.house.deferRuns.look (row * 256 + unit) + 1 →
    Does (.replanItem item) s fun t =>
      t.chip.house.items[item]? = some (row, unit, true) ∧ t.chip.house.deferRuns.look (row * 256 + unit) = n ∧
      t.chip.reg C.replan_deferred = s.chip.reg C.replan_deferred + 1 ∧
      t.chip.ledger = s.chip.sent (if n = 4 then [s.chip.msgOf 0xD030 K.ageingMargin 2 (2 ^ 12 + row * 2 ^ 13)] else []) ∧
      OnlyParts s t ([R.AGE_STATUS, C.replan_deferred] ++ (if n = 4 then [R.HK_EVENT] else [])) [.house, .ledger]) ∧
  -- 10: replanItem
  (∀ (s : State) (item : Nat),
    s.runs .aon = true →
    (s.chip.house.replanAt = none ∨ s.chip.house.items[item]? = none ∨
      (∃ row unit at_ deferred, (s.chip.house.items[item]? = some (row, unit, deferred) ∧ s.chip.house.replanAt = some at_) ∧
      ¬(s.chip.itemReady row unit = true ∧ (deferred = false ∨ s.chip.get 0 R.HK_STATUS_night = 1)) ∧ (deferred = true ∨
      s.chip.now < at_ + dayNs))) →
    Does (.replanItem item) s fun t => OnlyRegs s t []) ∧
  -- 11: thermalSample
  (∀ (s : State) (temps : List Nat),
    s.runs .aon = true →
    temps ≠ [] ∧ temps.length ≤ 64 →
    Does (.thermalSample temps) s fun t =>
      t.chip.get 0 R.THERM_STATUS_hottest_c = ((hottest (temps.map (signed 8))).1 % 256).toNat ∧
        t.chip.get 0 R.THERM_STATUS_sensor = (hottest (temps.map (signed 8))).2 ∧
        t.chip.get 0 R.AVS_STATUS_band = tempBand (hottest (temps.map (signed 8))).1 ∧
        t.chip.house = { s.chip.house with temps := temps.map (signed 8), warned := if (s.chip.house.warned = false ∧ signed 8 (s.chip.get 0 R.THERM_CTRL_warn_c) ≤ (hottest (temps.map (signed 8))).1) then true else if (s.chip.house.warned = true ∧ (hottest (temps.map (signed 8))).1 ≤ signed 8 (s.chip.get 0 R.THERM_CTRL_warn_c) - 5) then false else s.chip.house.warned }
        ∧
      ((s.chip.house.warned = false ∧ signed 8 (s.chip.get 0 R.THERM_CTRL_warn_c) ≤ (hottest (temps.map (signed 8))).1) →
        t.chip.get 0 R.HK_EVENT_therm_warn = 1) ∧
      t.chip.ledger.transit = s.chip.ledger.transit ++ (if (s.chip.house.warned = false ∧
        signed 8 (s.chip.get 0 R.THERM_CTRL_warn_c) ≤ (hottest (temps.map (signed 8))).1) then [s.chip.msgOf 0xD030 K.thermalWarn 2 (hottest
        (temps.map (signed 8))).2] else []) ++ (if (signed 8 (s.chip.get 0 R.THERM_CTRL_trip_c) ≤ (hottest (temps.map (signed 8))).1 ∧
        s.chip.power.halted = false) then [s.chip.msgOf 0xD030 K.thermalTrip 5] else []) ∧
      t.chip.ledger.ended = s.chip.ledger.ended ++ (if (s.chip.house.warned = true ∧
        (hottest (temps.map (signed 8))).1 ≤ signed 8 (s.chip.get 0 R.THERM_CTRL_warn_c) - 5) then [(s.chip.suiteUnit 0xD030,
        K.thermalWarn)] else []) ∧
      t.chip.out = (if (signed 8 (s.chip.get 0 R.THERM_CTRL_trip_c) ≤ (hottest (temps.map (signed 8))).1 ∧
        s.chip.power.halted = false) then [.thermTrip] else []) ∧
        t.chip.power = { s.chip.power with halted := if (signed 8 (s.chip.get 0 R.THERM_CTRL_trip_c) ≤ (hottest (temps.map (signed 8))).1 ∧ s.chip.power.halted = false) then true else s.chip.power.halted }
        ∧
      OnlyParts s t ([R.THERM_STATUS, R.AVS_STATUS] ++ (if (s.chip.house.warned = false ∧
        signed 8 (s.chip.get 0 R.THERM_CTRL_warn_c) ≤ (hottest (temps.map (signed 8))).1) then [R.HK_EVENT] else [])) [.house, .ledger,
        .power]) ∧
  -- 12: thermalSample
  (∀ (s : State),
    s.runs .aon = true →
    Does (.thermalSample []) s fun t => OnlyRegs s t [])

/-- SUPPLY_SAG of a rail that did not sag stops line writes, fails a waiting window write with 0x0A and reports; KEEPSAKE_WRITES_RESUME lets
them go on and ends the condition. KEEPSAKE_READ returns a half-line and whether it is poisoned, 0x06 beyond the store; KEEPSAKE_WRITE
queues a half-line of software's part, and refuses another place with 0x06 and any while writes are stopped with 0x0A;
KEEPSAKE_LINE_WRITE writes the oldest record that waits, of a window write exactly the 32 bytes of its half-line, of the housekeeper's
own the list that it keeps, and counts one line write, or two where the gap moves. With none to write, or while writes are stopped,
nothing changes. What an unwritten half-line reads is log 4, where the housekeeper's lines lie log 62. -/
def Obligations.SagAndKeepsakeStore : Prop :=
  -- 1: supplySag
  (∀ (s : State) (rail : Nat),
    s.runs .aon = true →
    (rail < 2 ∧ s.chip.get 0 (if rail = 0 then R.SAG_STATUS_nv_low else R.SAG_STATUS_core_low) = 0) →
    Does (.supplySag rail) s fun t =>
      t.chip.get 0 (if rail = 0 then R.SAG_STATUS_nv_low else R.SAG_STATUS_core_low) = 1 ∧
        t.chip.get 0 (if rail = 0 then R.SAG_STATUS_core_low else R.SAG_STATUS_nv_low) = (s.chip.get 0 (if rail =
        0 then R.SAG_STATUS_core_low else R.SAG_STATUS_nv_low)) ∧
      t.chip.get 0 R.SAG_STATUS_stopped = 1 ∧ t.chip.get 0 R.HK_STATUS_writes_stopped = 1 ∧ t.chip.get 0 R.HK_EVENT_sag = 1 ∧
      t.chip.reg C.sag_events = s.chip.reg C.sag_events + 1 ∧
        t.chip.get 0 R.LEDGER_STATUS_jrn_stopped = b2n (!s.chip.ledger.jrnQueue.isEmpty) ∧
      t.chip.house = { s.chip.house with queue := s.chip.house.queue.filter fun r => !((fun r => match r with | .line _ _ => true | _ => false) r) }
        ∧
      t.chip.wins = (if s.chip.house.queue.any (fun r => match r with | .line _ _ => true | _ => false) then s.chip.wins.set keepWin (some
        { code := 0x0A }) else s.chip.wins) ∧
      t.chip.ledger = s.chip.sent [s.chip.msgOf 0xD030 K.supplySag 2 (if rail = 0 then 1 + 2 * (s.chip.get 0 (if rail =
        0 then R.SAG_STATUS_core_low else R.SAG_STATUS_nv_low)) else (s.chip.get 0 (if rail =
        0 then R.SAG_STATUS_core_low else R.SAG_STATUS_nv_low)) + 2)] ∧
      OnlyParts s t [R.SAG_STATUS, R.HK_STATUS, R.HK_EVENT, C.sag_events, R.LEDGER_STATUS] [.ledger, .house, .wins]) ∧
  -- 2: supplySag
  (∀ (s : State) (rail : Nat),
    s.runs .aon = true →
    (2 ≤ rail ∨ s.chip.get 0 (if rail = 0 then R.SAG_STATUS_nv_low else R.SAG_STATUS_core_low) = 1) →
    Does (.supplySag rail) s fun t => OnlyRegs s t []) ∧
  -- 3: keepsakeWritesResume
  (∀ (s : State),
    s.runs .aon = true →
    s.chip.get 0 R.SAG_STATUS_stopped = 1 →
    Does .keepsakeWritesResume s fun t =>
      t.chip.get 0 R.SAG_STATUS_stopped = 0 ∧ t.chip.get 0 R.SAG_STATUS_nv_low = 0 ∧ t.chip.get 0 R.SAG_STATUS_core_low = 0 ∧
        t.chip.get 0 R.HK_STATUS_writes_stopped = 0 ∧
      t.chip.get 0 R.LEDGER_STATUS_jrn_stopped = 0 ∧
      t.chip.ledger = { s.chip.ledger with jrnLost := false, ended := s.chip.ledger.ended ++ [(s.chip.suiteUnit 0xD030, K.supplySag)] } ∧
      OnlyParts s t [R.SAG_STATUS, R.HK_STATUS, R.LEDGER_STATUS] [.ledger]) ∧
  -- 4: keepsakeWritesResume
  (∀ (s : State),
    s.runs .aon = true →
    s.chip.get 0 R.SAG_STATUS_stopped = 0 →
    Does .keepsakeWritesResume s fun t => OnlyRegs s t []) ∧
  -- 5: keepsakeRead
  (∀ (s : State) (src : Source),
    s.mayGo src keepWin = true →
    (s.chip.winIn src keepWin).index < 0x100000 →
    Does (.keepsakeRead src) s fun t =>
      WinDone t keepWin 1 { code := 0, data := some (s.nv.half (Config.freeEntry s.chip.fresh) (s.chip.winIn src keepWin).index), poison := s.chip.anyPoison 0xD048 (4 * (s.chip.winIn src keepWin).index) 4 }
        ∧
      OnlyParts s t ([keepWin + 4, keepWin + 8] ++ errRegs 0xD048) [.fresh, .wins, .mem, .ledger]) ∧
  -- 6: keepsakeRead
  (∀ (s : State) (src : Source),
    s.mayGo src keepWin = true →
    0x100000 ≤ (s.chip.winIn src keepWin).index →
    Does (.keepsakeRead src) s fun t => WinDone t keepWin 1 { code := 6 } ∧ OnlyParts s t [keepWin + 4, keepWin + 8] [.wins]) ∧
  -- 7: keepsakeWrite
  (∀ (s : State) (src : Source),
    s.mayGo src keepWin = true →
    0x20000 ≤ (s.chip.winIn src keepWin).index ∧ (s.chip.winIn src keepWin).index < 0x100000 →
    s.chip.get 0 R.SAG_STATUS_stopped = 0 →
    Does (.keepsakeWrite src) s fun t =>
      t.chip.get (keepWin + 8) R.WIN_STATUS_busy = 1 ∧ t.chip.get (keepWin + 4) R.WIN_CMD_op = 2 ∧ t.chip.wins.look keepWin = none ∧
      t.chip.house = { s.chip.house with queue := s.chip.house.queue ++ [.line (s.chip.winIn src keepWin).index (s.chip.winIn src keepWin).data] }
        ∧
      OnlyParts s t [keepWin + 4, keepWin + 8] [.house, .wins]) ∧
  -- 8: keepsakeWrite
  (∀ (s : State) (src : Source),
    s.mayGo src keepWin = true →
    (s.chip.winIn src keepWin).index < 0x20000 ∨ 0x100000 ≤ (s.chip.winIn src keepWin).index ∨ s.chip.get 0 R.SAG_STATUS_stopped = 1 →
    Does (.keepsakeWrite src) s fun t =>
      WinDone t keepWin 2 { code := if (s.chip.winIn src keepWin).index < 0x20000 ∨ 0x100000 ≤ (s.chip.winIn src keepWin).index then 6 else 0x0A }
        ∧ OnlyParts s t [keepWin + 4, keepWin + 8] [.wins]) ∧
  -- 9: keepsakeLineWrite
  (∀ (s : State) (h w : Nat) (e : Entry) (r : HkRec) (q : List HkRec),
    s.runs .aon = true →
    s.chip.house.queue = r :: q ∧ s.chip.get 0 R.SAG_STATUS_stopped = 0 →
    r = .line h e ∧ w = h / 2 →
    Does .keepsakeLineWrite s fun t =>
      (∀ i < 32, t.nv.mem.byte (32 * h + i) = (toLE 32 e.toNat).getD i 0) ∧ (∀ a, (a < 32 * h ∨ 32 * h + 32 ≤ a) →
        t.nv.mem.byte a = s.nv.mem.byte a) ∧
      t.nv.written.look h = true ∧ t.nv = { s.nv with mem := t.nv.mem, written := t.nv.written, writes := t.nv.writes, gap := t.nv.gap } ∧
      t.chip.house = { s.chip.house with queue := q } ∧ t.chip.wins.look keepWin = some { code := 0 } ∧
      t.chip.reg C.keepsake_line_writes = s.chip.reg C.keepsake_line_writes + (if s.nv.writes.look (w / 4096) + 1 < 100 then 1 else 2) ∧
        OnlyDev s t ([C.keepsake_line_writes] ++ injRegs) [.house, .wins, .mem, .fresh, .ledger] ∧ t.fuses = s.fuses) ∧
  -- 10: keepsakeLineWrite
  (∀ (s : State) (w : Nat) (r : HkRec) (q : List HkRec),
    s.runs .aon = true →
    s.chip.house.queue = r :: q ∧ s.chip.get 0 R.SAG_STATUS_stopped = 0 →
    ((fun r => match r with | .line _ _ => true | _ => false) r = false ∧ w = (s.nv.store r).2) →
    Does .keepsakeLineWrite s fun t =>
      (∀ m pc, r = .retire m pc → (m, pc) ∈ t.nv.retired) ∧ (∀ m pc, r = .unretire m pc → (m, pc) ∉ t.nv.retired) ∧
      (∀ u row x, r = .remap u row x → (u, row, x) ∈ t.nv.remaps) ∧ (∀ u row x, r = .unmap u row → (u, row, x) ∉ t.nv.remaps) ∧
      (∀ mv, r = .plan mv → t.nv.plan = mv) ∧ (∀ slot, r = .boot slot → t.nv.bootSlot = slot) ∧
      t.nv.mem = s.nv.mem ∧ t.nv.journal = s.nv.journal ∧ t.nv.jrnPtr = s.nv.jrnPtr ∧ t.nv.written = s.nv.written ∧
        t.chip.house = { s.chip.house with queue := q } ∧
      t.chip.reg C.keepsake_line_writes = s.chip.reg C.keepsake_line_writes + (if s.nv.writes.look (w / 4096) + 1 < 100 then 1 else 2) ∧
        OnlyDev s t [C.keepsake_line_writes] [.house] ∧ t.fuses = s.fuses) ∧
  -- 11: keepsakeLineWrite
  (∀ (s : State),
    s.runs .aon = true →
    s.chip.house.queue = [] ∨ s.chip.get 0 R.SAG_STATUS_stopped = 1 →
    Does .keepsakeLineWrite s fun t => OnlyRegs s t [])

/-- A BAR0 access of another size or alignment, and one that a virtual function may not make, change nothing but a counter; a read returns 0.
PCIE_LINK_DOWN clears ENDPOINT_STATUS and reports; PCIE_LINK_UP sets it, with a speed and width that R429 allows (free values, log 63),
and ends the condition. VF_FLR disables the function's rings and releases its latchkeys as orphans. A line that rises sends its messages
once, to the routed MSI-X vector and core inputs; a time base's also to vector 0 of the virtual function that owns it; mailbox channel 1
raises core inputs alone. IRQ_REARM sends again for the named lines that are 1. SYSTEM_REFERENCE_LOSS of a powered device out of reset
stops the system PLL and leaves the device undefined. SERDES_REFERENCE_LOSS clears the reference's bit and takes the signal of its lanes;
SERDES_REFERENCE_RETURN sets the bit. PERST_N_ASSERT takes the PCIe link down and, where the device runs, resets the endpoint;
PERST_N_RELEASE raises the pin. GPIO_EDGE of an input pin takes the level and sets its edge interrupt. In other states nothing happens.
When a line counts as fallen is log 69's reading. -/
def Obligations.EndpointAndInterrupts : Prop :=
  -- 1: bar0MalformedAccess
  (∀ (s : State) (src : Source) (addr size : Nat) (write : Bool),
    s.runs .core = true →
    ((match src with | .core _ => false | _ => true) = true) →
    ¬(size = 4 ∧ addr % 4 = 0) ∧ ¬(size = 8 ∧ addr % 8 = 0) →
    Does (.bar0MalformedAccess src addr size write) s fun t =>
      t.chip.reg C.bar_bad_access = s.chip.reg C.bar_bad_access + 1 ∧ t.chip.busData = (if write then s.chip.busData else 0) ∧
        OnlyRegs s t [C.bar_bad_access]) ∧
  -- 2: bar0MalformedAccess
  (∀ (s : State) (src : Source) (addr size : Nat) (write : Bool),
    s.runs .core = true →
    ((match src with | .core _ => true | _ => false) = true ∨ (size = 4 ∧ addr % 4 = 0) ∨ (size = 8 ∧ addr % 8 = 0)) →
    Does (.bar0MalformedAccess src addr size write) s fun t => OnlyRegs s t []) ∧
  -- 3: vfAccessDenied
  (∀ (s : State) (n addr : Nat) (write : Bool),
    s.runs .core = true →
    1 ≤ n ∧ n ≤ 15 →
    s.chip.allowed (.vf n) addr write = false →
    Does (.vfAccessDenied n addr write) s fun t =>
      t.chip.reg (C.vf_denied + 8 * (n - 1)) = s.chip.reg (C.vf_denied + 8 * (n - 1)) + 1 ∧
        t.chip.busData = (if write then s.chip.busData else 0) ∧
      OnlyRegs s t [C.vf_denied + 8 * (n - 1)]) ∧
  -- 4: vfAccessDenied
  (∀ (s : State) (n addr : Nat) (write : Bool),
    s.runs .core = true →
    s.chip.allowed (.vf n) addr write = true →
    Does (.vfAccessDenied n addr write) s fun t => OnlyRegs s t []) ∧
  -- 5: pcieLinkDown
  (∀ (s : State),
    s.runs .core = true →
    s.chip.power.pcieUp = true →
    Does .pcieLinkDown s fun t =>
      t.chip.power = { s.chip.power with pcieUp := false } ∧ t.chip.reg R.ENDPOINT_STATUS = 0 ∧
      t.chip.ledger = s.chip.sent [s.chip.msgOf 0xD020 K.pcieLinkDown 2] ∧ OnlyParts s t [R.ENDPOINT_STATUS] [.power, .ledger]) ∧
  -- 6: pcieLinkDown
  (∀ (s : State),
    s.runs .core = true →
    s.chip.power.pcieUp = false →
    Does .pcieLinkDown s fun t => OnlyRegs s t []) ∧
  -- 7: pcieLinkUp
  (∀ (s : State),
    s.runs .core = true →
    s.chip.power.pcieUp = false ∧ s.chip.power.perstHigh = true →
    Does .pcieLinkUp s fun t =>
      t.chip.power = { s.chip.power with pcieUp := true } ∧ t.chip.get 0 R.ENDPOINT_STATUS_link_up = 1 ∧
        1 ≤ t.chip.get 0 R.ENDPOINT_STATUS_speed ∧ t.chip.get 0 R.ENDPOINT_STATUS_speed ≤ 5 ∧
      t.chip.get 0 R.ENDPOINT_STATUS_width ∈ [1, 2, 4, 8] ∧
      t.chip.ledger = { s.chip.ledger with ended := s.chip.ledger.ended ++ [(s.chip.suiteUnit 0xD020, K.pcieLinkDown)] } ∧
      OnlyParts s t [R.ENDPOINT_STATUS] [.fresh, .power, .ledger]) ∧
  -- 8: pcieLinkUp
  (∀ (s : State),
    s.runs .core = true →
    s.chip.power.pcieUp = true ∨ s.chip.power.perstHigh = false →
    Does .pcieLinkUp s fun t => OnlyRegs s t []) ∧
  -- 9: vfFlr
  (∀ (s : State) (n : Nat),
    s.runs .core = true →
    1 ≤ n ∧ n ≤ 15 →
    Does (.vfFlr n) s fun t =>
      (∀ k, k < 64 → (s.chip.latch k).owner = 0xD020 → (s.chip.latch k).fn = n →
        t.chip.latch k = { owner := 0, fn := 0, suspect := true }) ∧
      (∀ k, k < 64 → ((s.chip.latch k).owner ≠ 0xD020 ∨ (s.chip.latch k).fn ≠ n) → t.chip.latch k = s.chip.latch k) ∧
      (∀ r, r < 4096 → s.chip.get (A.ring r) R.RING_CFG_enable = 1 → s.chip.get (A.ring r) R.RING_CFG_owner = n →
        t.chip.get (A.ring r) R.RING_CFG_enable = 0 ∧ t.chip.get (A.ring r) R.RING_STATUS_active = 0 ∧ (t.chip.ring r).desc = none) ∧
      (∀ p, t.chip.prt p = s.chip.prt p) ∧ t.nv = s.nv ∧ t.fuses = s.fuses ∧ t.pending = s.pending) ∧
  -- 10: vfFlr
  (∀ (s : State) (n : Nat),
    s.runs .core = true →
    n = 0 ∨ 15 < n →
    Does (.vfFlr n) s fun t => OnlyRegs s t []) ∧
  -- 11: irqLineRise
  (∀ (s : State) (g : Nat),
    s.runs .aon = true →
    g < 16 ∧ g ≠ 9 ∧ g ≠ 15 →
    Does (.irqLineRise g) s fun t =>
      t.chip.out = (if s.chip.irqLine g = true ∧ s.chip.host.irqSeen.getLsbD g = false then ((if s.chip.get (4 * g) R.IRQ_ROUTE_pf_en =
        1 then [Out.msix 0 (s.chip.get (4 * g) R.IRQ_ROUTE_pf_vector)] else []) ++ (if s.chip.get (4 * g) R.IRQ_ROUTE_core_en =
        1 then ((List.range 4).filter fun k => s.chip.get (4 * g) R.IRQ_ROUTE_core_mask / 2 ^ k % 2 ==
        1).map Out.coreIrq else [])) else []) ∧
      (∀ i, i < 25 → t.chip.host.irqSeen.getLsbD i = (s.chip.lineOf i && (s.chip.host.irqSeen.getLsbD i || i == g))) ∧
        t.chip.host = { s.chip.host with irqSeen := t.chip.host.irqSeen } ∧ OnlyParts s t [] [.host]) ∧
  -- 12: irqLineRise
  (∀ (s : State) (g : Nat),
    s.runs .aon = true →
    g = 9 →
    Does (.irqLineRise g) s fun t =>
      t.chip.out = (if s.chip.irqLine g = true ∧ s.chip.host.irqSeen.getLsbD g = false then ((if s.chip.get (4 * g) R.IRQ_ROUTE_pf_en =
        1 then [Out.msix 0 (s.chip.get (4 * g) R.IRQ_ROUTE_pf_vector)] else []) ++ (if s.chip.get (4 * g) R.IRQ_ROUTE_core_en =
        1 then ((List.range 4).filter fun k => s.chip.get (4 * g) R.IRQ_ROUTE_core_mask / 2 ^ k % 2 ==
        1).map Out.coreIrq else [])) else []) ++ ((List.range 8).filter fun x => s.chip.tbIrq x && !(s.chip.host.irqSeen.getLsbD (16 + x))
        && decide (1 ≤ s.chip.get (A.tb x) R.TB_ACCESS_owner) && decide (s.chip.get (A.tb x) R.TB_ACCESS_owner ≤ 15)).map (fun x => Out.msix
        (s.chip.get (A.tb x) R.TB_ACCESS_owner) 0) ∧
      (∀ i, i < 25 → t.chip.host.irqSeen.getLsbD i = (s.chip.lineOf i && (s.chip.host.irqSeen.getLsbD i || i ==
        9 || (decide (16 ≤ i) && decide (i < 24))))) ∧ t.chip.host = { s.chip.host with irqSeen := t.chip.host.irqSeen } ∧
        OnlyParts s t [] [.host]) ∧
  -- 13: irqLineRise
  (∀ (s : State) (g : Nat),
    s.runs .aon = true →
    g = 15 →
    Does (.irqLineRise g) s fun t =>
      t.chip.out = (if s.chip.irqLine g = true ∧ s.chip.host.irqSeen.getLsbD g = false then ((if s.chip.get (4 * g) R.IRQ_ROUTE_pf_en =
        1 then [Out.msix 0 (s.chip.get (4 * g) R.IRQ_ROUTE_pf_vector)] else []) ++ (if s.chip.get (4 * g) R.IRQ_ROUTE_core_en =
        1 then ((List.range 4).filter fun k => s.chip.get (4 * g) R.IRQ_ROUTE_core_mask / 2 ^ k % 2 ==
        1).map Out.coreIrq else [])) else []) ++ (if s.chip.lineOf 24 = true ∧
        s.chip.host.irqSeen.getLsbD 24 = false then ((List.range 4).filter fun k => s.chip.get 60 R.IRQ_ROUTE_core_mask / 2 ^ k % 2 ==
        1).map Out.coreIrq else []) ∧
      (∀ i, i < 25 → t.chip.host.irqSeen.getLsbD i = (s.chip.lineOf i && (s.chip.host.irqSeen.getLsbD i || i == 15 || i == 24))) ∧
        t.chip.host = { s.chip.host with irqSeen := t.chip.host.irqSeen } ∧ OnlyParts s t [] [.host]) ∧
  -- 14: irqLineRise
  (∀ (s : State) (g : Nat),
    s.runs .aon = true →
    16 ≤ g →
    Does (.irqLineRise g) s fun t => t.chip.out = [] ∧ (∀ i, i < 25 →
      t.chip.host.irqSeen.getLsbD i = (s.chip.lineOf i && s.chip.host.irqSeen.getLsbD i)) ∧
      t.chip.host = { s.chip.host with irqSeen := t.chip.host.irqSeen } ∧ OnlyParts s t [] [.host]) ∧
  -- 15: irqRearm
  (∀ (s : State) (src : Source) (data : Word),
    s.serves src R.IRQ_REARM true = true →
    Does (.irqRearm src data) s fun t =>
      t.chip.out = ((List.range 16).filter fun g => bit data g && s.chip.irqLine g).flatMap (fun g => ((if s.chip.get (4 * g)
        R.IRQ_ROUTE_pf_en = 1 then [Out.msix 0 (s.chip.get (4 * g) R.IRQ_ROUTE_pf_vector)] else []) ++ (if s.chip.get (4 * g)
        R.IRQ_ROUTE_core_en = 1 then ((List.range 4).filter fun k => s.chip.get (4 * g) R.IRQ_ROUTE_core_mask / 2 ^ k % 2 ==
        1).map Out.coreIrq else []))) ∧
      (∀ i, i < 32 → t.chip.host.irqSeen.getLsbD i = (s.chip.host.irqSeen.getLsbD i || (decide (i < 16) && bit data i && s.chip.irqLine i)))
        ∧ t.chip.host = { s.chip.host with irqSeen := t.chip.host.irqSeen } ∧ OnlyParts s t [] [.host]) ∧
  -- 16: systemReferenceLoss
  (∀ (s : State),
    s.chip.power.vddAon = true →
    s.chip.power.sysRstHigh = true →
    Does .systemReferenceLoss s fun t => t.chip.power = { s.chip.power with refLost := true, sysPll := false } ∧
      OnlyParts s t [] [.power]) ∧
  -- 17: serdesReferenceLoss
  (∀ (s : State) (j : Nat),
    j < 4 →
    Does (.serdesReferenceLoss j) s fun t =>
      t.chip.power = { s.chip.power with serdesRef := s.chip.power.serdesRef &&& ~~~(BitVec.ofNat 4 (2 ^ j)) } ∧
      (∀ q, q / 32 = j → s.chip.laneThere q = true → (s.chip.portOfLane q).isSome = true →
        t.chip.get (A.lane q) R.LANE_STATUS_signal_detect = 0) ∧ t.nv = s.nv ∧ t.fuses = s.fuses ∧ t.pending = s.pending) ∧
  -- 18: systemReferenceLoss
  (∀ (s : State),
    s.chip.power.vddAon = false ∨ s.chip.power.sysRstHigh = false →
    Does .systemReferenceLoss s fun t => OnlyRegs s t []) ∧
  -- 19: serdesReferenceLoss
  (∀ (s : State) (j : Nat),
    4 ≤ j →
    Does (.serdesReferenceLoss j) s fun t => OnlyRegs s t []) ∧
  -- 20: serdesReferenceReturn
  (∀ (s : State) (j : Nat),
    4 ≤ j →
    Does (.serdesReferenceReturn j) s fun t => OnlyRegs s t []) ∧
  -- 21: serdesReferenceReturn
  (∀ (s : State) (j : Nat),
    j < 4 →
    Does (.serdesReferenceReturn j) s fun t =>
      t.chip.power = { s.chip.power with serdesRef := s.chip.power.serdesRef ||| BitVec.ofNat 4 (2 ^ j) } ∧ OnlyParts s t [] [.power]) ∧
  -- 22: perstNAssert
  (∀ (s : State),
    s.chip.ready .core = true →
    Does .perstNAssert s fun t =>
      t.chip.power = { s.chip.power with perstHigh := false, pcieUp := false } ∧ t.chip.reg R.ENDPOINT_STATUS = 0 ∧
        t.chip.host = { s.chip.host with rings := [] } ∧
      (∀ r, r < 4096 → ∀ o, o < 0x28 → t.chip.reg (A.ring r + o) = regReset (A.ring r + o)) ∧
      (∀ r, r < 4096 → ∀ o ∈ [C.ring_frames, C.ring_bytes, C.ring_drops], t.chip.reg (A.ring r + o) = s.chip.reg (A.ring r + o)) ∧
      (∀ a, 0x90000 ≤ a → a < 0x91000 → t.chip.reg a = regReset a) ∧
      (∀ k, k < 64 → (s.chip.latch k).owner = 0xD020 → t.chip.latch k = { owner := 0, fn := 0, suspect := true }) ∧
      (∀ k, k < 64 → (s.chip.latch k).owner ≠ 0xD020 → t.chip.latch k = s.chip.latch k) ∧
      (∀ a, a < 0x80000 → a ≠ R.ACCORD_STATUS → t.chip.reg a = s.chip.reg a) ∧ (∀ a, 0x140000 ≤ a → t.chip.reg a = s.chip.reg a) ∧
      t.chip.rest [.power, .host, .ledger] = s.chip.rest [.power, .host, .ledger] ∧ t.nv = s.nv ∧ t.fuses = s.fuses ∧
        t.pending = s.pending) ∧
  -- 23: perstNAssert
  (∀ (s : State),
    s.chip.ready .core = false →
    Does .perstNAssert s fun t => t.chip.power = { s.chip.power with perstHigh := false, pcieUp := false } ∧ OnlyParts s t [] [.power]) ∧
  -- 24: perstNRelease
  (∀ (s : State),
    Does .perstNRelease s fun t => t.chip.power = { s.chip.power with perstHigh := true } ∧ OnlyParts s t [] [.power]) ∧
  -- 25: gpioEdge
  (∀ (s : State) (pin : Nat) (level : Bool),
    s.runs .core = true →
    pin < 32 →
    s.chip.host.gpioDir.getLsbD pin = false →
    s.chip.host.gpioLevel.getLsbD pin ≠ level →
    Does (.gpioEdge pin level) s fun t =>
      t.chip.host.gpioLevel.getLsbD pin = level ∧ t.chip.host.gpioEdge.getLsbD pin = true ∧
      (∀ q, q ≠ pin → t.chip.host.gpioLevel.getLsbD q = s.chip.host.gpioLevel.getLsbD q ∧
        t.chip.host.gpioEdge.getLsbD q = s.chip.host.gpioEdge.getLsbD q) ∧
      OnlyParts s t [] [.host]) ∧
  -- 26: gpioEdge
  (∀ (s : State) (pin : Nat) (level : Bool),
    s.runs .core = true →
    32 ≤ pin ∨ s.chip.host.gpioDir.getLsbD pin = true ∨ s.chip.host.gpioLevel.getLsbD pin = level →
    Does (.gpioEdge pin level) s fun t => OnlyRegs s t [])

/-- RING_ENABLE sets enable and ends a halt, or clears it and completes a descriptor in service with status 5; the index writes reach the
index that software owns; RING_IRQ_MODERATION raises the interrupt mod_us after the first completion not signalled.
INJECT_DESCRIPTOR_FETCH takes a good descriptor, completes a bad one with status 1, 2 or 6 and DMA_DESC_ERR, and halts the ring on a
failed read. INJECT_FRAME_READ appends the FCS and gives the frame to its slice's dispatcher, to the staging buffer with its verdict, or
to the innkeeper; holds it for a management MAC; drops it with status 4; or fails with status 3. Each completion advances CI, writes it
back where wb is not 0, and signals by the moderation. In other states nothing happens. Status before ring halts and the order of the
checks are log 64 and 66. -/
def Obligations.RingsTurn : Prop :=
  -- 1: ringEnable
  (∀ (s : State) (src : Source) (r : Nat),
    s.serves src (A.ring r + R.RING_CFG) true = true →
    r < 4096 →
    s.chip.get (A.ring r) R.RING_CFG_enable = 0 →
    Does (.ringEnable src r true) s fun t =>
      t.chip.get (A.ring r) R.RING_CFG_enable = 1 ∧ t.chip.get (A.ring r) R.RING_STATUS_halted = 0 ∧
        t.chip.get (A.ring r) R.RING_STATUS_last_err = 0 ∧
      t.chip.get (A.ring r) R.RING_STATUS_active = (if s.chip.get (A.ring r) R.RING_CFG_kind = 3 then 0 else 1) ∧
        s.chip.get (A.ring r) R.RING_CFG_kind = t.chip.get (A.ring r) R.RING_CFG_kind ∧
      OnlyRegs s t [A.ring r + R.RING_CFG, A.ring r + R.RING_STATUS]) ∧
  -- 2: ringEnable
  (∀ (s : State) (src : Source) (r : Nat),
    s.serves src (A.ring r + R.RING_CFG) true = true →
    r < 4096 →
    s.chip.get (A.ring r) R.RING_CFG_enable = 1 →
    (s.chip.ring r).desc = none →
    Does (.ringEnable src r false) s fun t =>
      t.chip.get (A.ring r) R.RING_CFG_enable = 0 ∧ t.chip.get (A.ring r) R.RING_STATUS_active = 0 ∧
        OnlyRegs s t [A.ring r + R.RING_CFG, A.ring r + R.RING_STATUS]) ∧
  -- 3: ringEnable
  (∀ (s : State) (src : Source) (r : Nat) (d : Descriptor),
    s.serves src (A.ring r + R.RING_CFG) true = true →
    r < 4096 →
    s.chip.get (A.ring r) R.RING_CFG_enable = 1 ∧ s.chip.get (A.ring r) R.RING_CFG_kind ≠ 2 →
    (s.chip.ring r).desc = some d →
    Does (.ringEnable src r false) s fun t =>
      t.chip.get (A.ring r) R.RING_CFG_enable = 0 ∧ t.chip.get (A.ring r) R.RING_STATUS_active = 0 ∧
        t.chip.get (A.ring r) R.RING_CI_ci = ((s.chip.get (A.ring r) R.RING_CI_ci + 1) % (2 * s.chip.ringSize r)) ∧
      t.chip.out = [.dmaEntry r (s.chip.ringPlace r (s.chip.get (A.ring r) R.RING_CI_ci)) (putBits (putBits d 127 127 0) 191 184 5)] ++ ((if
        (s.chip.get (A.ring r) R.RING_WB_LO_wb = 0 ∧ s.chip.get (A.ring r) R.RING_WB_HI_wb =
        0) then [] else [Out.writeBack r ((s.chip.get (A.ring r) R.RING_CI_ci + 1) % (2 * s.chip.ringSize r))]) ++ (if ((s.chip.get (A.ring
        r) R.RING_IRQ_mod_us = 0 ∧ s.chip.get (A.ring r) R.RING_IRQ_mod_count = 0) ∨ (s.chip.get (A.ring r) R.RING_IRQ_mod_count ≠ 0 ∧
        s.chip.get (A.ring r) R.RING_IRQ_mod_count ≤ (s.chip.ring r).unsignalled + 1)) then (if s.chip.get (A.ring r) R.RING_IRQ_enable =
        1 then [if s.chip.get (A.ring r) R.RING_CFG_owner = 16 then Out.coreIrq (s.chip.get (A.ring r) R.RING_CFG_vector % 4) else Out.msix
        (s.chip.get (A.ring r) R.RING_CFG_owner) (s.chip.get (A.ring r) R.RING_CFG_vector)] else []) else [])) ∧
        ((((s.chip.get (A.ring r) R.RING_IRQ_mod_us = 0 ∧ s.chip.get (A.ring r) R.RING_IRQ_mod_count = 0) ∨
        (s.chip.get (A.ring r) R.RING_IRQ_mod_count ≠ 0 ∧ s.chip.get (A.ring r) R.RING_IRQ_mod_count ≤ (s.chip.ring r).unsignalled + 1)) →
        t.chip.get (A.ring r) R.RING_IRQ_pending = 1) ∧ (¬ ((s.chip.get (A.ring r) R.RING_IRQ_mod_us = 0 ∧
        s.chip.get (A.ring r) R.RING_IRQ_mod_count = 0) ∨ (s.chip.get (A.ring r) R.RING_IRQ_mod_count ≠ 0 ∧
        s.chip.get (A.ring r) R.RING_IRQ_mod_count ≤ (s.chip.ring r).unsignalled + 1)) →
        t.chip.get (A.ring r) R.RING_IRQ_pending = s.chip.get (A.ring r) R.RING_IRQ_pending)) ∧
      t.chip.ring r = { (s.chip.ring r) with desc := none, read := none, unsignalled := if ((s.chip.get (A.ring r) R.RING_IRQ_mod_us = 0 ∧ s.chip.get (A.ring r) R.RING_IRQ_mod_count = 0) ∨ (s.chip.get (A.ring r) R.RING_IRQ_mod_count ≠ 0 ∧ s.chip.get (A.ring r) R.RING_IRQ_mod_count ≤ (s.chip.ring r).unsignalled + 1)) then 0 else (s.chip.ring r).unsignalled + 1, since := if (s.chip.ring r).unsignalled = 0 then s.chip.now else (s.chip.ring r).since }
        ∧ (∀ k, k ≠ r → t.chip.ring k = s.chip.ring k) ∧
      OnlyParts s t [A.ring r + R.RING_CFG, A.ring r + R.RING_STATUS, A.ring r + R.RING_CI, A.ring r + R.RING_IRQ] [.host]) ∧
  -- 4: ringEnable
  (∀ (s : State) (src : Source) (r : Nat) (enable : Bool),
    s.serves src (A.ring r + R.RING_CFG) true = true →
    (4096 ≤ r ∨ s.chip.get (A.ring r) R.RING_CFG_enable = (if enable then 1 else 0)) →
    Does (.ringEnable src r enable) s fun t => OnlyRegs s t []) ∧
  -- 5: ringPiWrite
  (∀ (s : State) (src : Source) (r pi : Nat),
    s.serves src (A.ring r + R.RING_PI) true = true →
    r < 4096 →
    pi < 2 ^ 17 ∧ s.chip.get (A.ring r) R.RING_CFG_kind ≠ 2 →
    Does (.ringPiWrite src r pi) s fun t => t.chip.get (A.ring r) R.RING_PI_pi = pi ∧ OnlyRegs s t [A.ring r + R.RING_PI]) ∧
  -- 6: ringPiWrite
  (∀ (s : State) (src : Source) (r pi : Nat),
    s.serves src (A.ring r + R.RING_PI) true = true →
    4096 ≤ r ∨ s.chip.get (A.ring r) R.RING_CFG_kind = 2 →
    Does (.ringPiWrite src r pi) s fun t => OnlyRegs s t []) ∧
  -- 7: ringCiWrite
  (∀ (s : State) (src : Source) (r ci : Nat),
    s.serves src (A.ring r + R.RING_CI) true = true →
    r < 4096 →
    ci < 2 ^ 17 ∧ s.chip.get (A.ring r) R.RING_CFG_kind = 2 →
    Does (.ringCiWrite src r ci) s fun t => t.chip.get (A.ring r) R.RING_CI_ci = ci ∧ OnlyRegs s t [A.ring r + R.RING_CI]) ∧
  -- 8: ringCiWrite
  (∀ (s : State) (src : Source) (r ci : Nat),
    s.serves src (A.ring r + R.RING_CI) true = true →
    4096 ≤ r ∨ s.chip.get (A.ring r) R.RING_CFG_kind ≠ 2 →
    Does (.ringCiWrite src r ci) s fun t => OnlyRegs s t []) ∧
  -- 9: ringIrqModeration
  (∀ (s : State) (r : Nat),
    s.runs .core = true →
    r < 4096 →
    ((s.chip.ring r).unsignalled ≠ 0 ∧ s.chip.get (A.ring r) R.RING_IRQ_mod_us ≠ 0 ∧
      s.chip.passedUs (s.chip.ring r).since (s.chip.get (A.ring r) R.RING_IRQ_mod_us) = true) →
    Does (.ringIrqModeration r) s fun t =>
      t.chip.out = (if (s.chip.get (A.ring r) R.RING_WB_LO_wb = 0 ∧
        s.chip.get (A.ring r) R.RING_WB_HI_wb = 0) then [] else [Out.writeBack r (if s.chip.get (A.ring r) R.RING_CFG_kind =
        2 then s.chip.get (A.ring r) R.RING_PI_pi else s.chip.get (A.ring r) R.RING_CI_ci)]) ++ (if s.chip.get (A.ring r) R.RING_IRQ_enable
        = 1 then [if s.chip.get (A.ring r) R.RING_CFG_owner =
        16 then Out.coreIrq (s.chip.get (A.ring r) R.RING_CFG_vector % 4) else Out.msix (s.chip.get (A.ring r) R.RING_CFG_owner) (s.chip.get
        (A.ring r) R.RING_CFG_vector)] else []) ∧
      t.chip.get (A.ring r) R.RING_IRQ_pending = 1 ∧ t.chip.ring r = { (s.chip.ring r) with unsignalled := 0 } ∧ (∀ k, k ≠ r →
        t.chip.ring k = s.chip.ring k) ∧ OnlyParts s t [A.ring r + R.RING_IRQ] [.host]) ∧
  -- 10: ringIrqModeration
  (∀ (s : State) (r : Nat),
    s.runs .core = true →
    4096 ≤ r ∨ ¬ ((s.chip.ring r).unsignalled ≠ 0 ∧ s.chip.get (A.ring r) R.RING_IRQ_mod_us ≠ 0 ∧
      s.chip.passedUs (s.chip.ring r).since (s.chip.get (A.ring r) R.RING_IRQ_mod_us) = true) →
    Does (.ringIrqModeration r) s fun t => OnlyRegs s t []) ∧
  -- 11: injectDescriptorFetch
  (∀ (s : State) (r : Nat) (d : Descriptor),
    s.runs .core = true →
    r < 4096 →
    (s.chip.ringOn r 1 = true ∧ s.chip.ringHalted r = false ∧ s.chip.hostUp = true ∧ (s.chip.ringUsed r) ≠ 0 ∧ (s.chip.ring r).desc = none ∧
      s.chip.inReset 0xD028 = false) →
    Inj.own d = true →
    ¬ (Inj.len d < 60 ∨ 10236 < Inj.len d) ∧ ¬ ((s.chip.macOf r = none) ∧ (s.chip.noPort (Inj.port d) = true ∨
      s.chip.portAllowed r (Inj.port d) = false)) ∧ Inj.reserved d = false →
    Does (.injectDescriptorFetch r (some d)) s fun t => t.chip.out = [] ∧ t.chip.ring r = { (s.chip.ring r) with desc := some d } ∧
      (∀ k, k ≠ r → t.chip.ring k = s.chip.ring k) ∧ OnlyParts s t [] [.host]) ∧
  -- 12: injectDescriptorFetch
  (∀ (s : State) (r n : Nat) (d : Descriptor),
    s.runs .core = true →
    r < 4096 →
    (s.chip.ringOn r 1 = true ∧ s.chip.ringHalted r = false ∧ s.chip.hostUp = true ∧ (s.chip.ringUsed r) ≠ 0 ∧ (s.chip.ring r).desc = none ∧
      s.chip.inReset 0xD028 = false) →
    Inj.own d = true →
    (n = 1 ∧ (Inj.len d < 60 ∨ 10236 < Inj.len d)) ∨ (n = 2 ∧ ¬ (Inj.len d < 60 ∨ 10236 < Inj.len d) ∧ ((s.chip.macOf r = none) ∧
      (s.chip.noPort (Inj.port d) = true ∨ s.chip.portAllowed r (Inj.port d) = false))) ∨ (n = 6 ∧ ¬ (Inj.len d < 60 ∨ 10236 < Inj.len d) ∧
      ¬ ((s.chip.macOf r = none) ∧ (s.chip.noPort (Inj.port d) = true ∨ s.chip.portAllowed r (Inj.port d) = false)) ∧
      Inj.reserved d = true) →
    Does (.injectDescriptorFetch r (some d)) s fun t =>
      t.chip.out = [.dmaEntry r (s.chip.ringPlace r (s.chip.get (A.ring r) R.RING_CI_ci)) (putBits (putBits d 127 127 0) 191 184 n)] ++ ((if
        (s.chip.get (A.ring r) R.RING_WB_LO_wb = 0 ∧ s.chip.get (A.ring r) R.RING_WB_HI_wb =
        0) then [] else [Out.writeBack r ((s.chip.get (A.ring r) R.RING_CI_ci + 1) % (2 * s.chip.ringSize r))]) ++ (if ((s.chip.get (A.ring
        r) R.RING_IRQ_mod_us = 0 ∧ s.chip.get (A.ring r) R.RING_IRQ_mod_count = 0) ∨ (s.chip.get (A.ring r) R.RING_IRQ_mod_count ≠ 0 ∧
        s.chip.get (A.ring r) R.RING_IRQ_mod_count ≤ (s.chip.ring r).unsignalled + 1)) then (if s.chip.get (A.ring r) R.RING_IRQ_enable =
        1 then [if s.chip.get (A.ring r) R.RING_CFG_owner = 16 then Out.coreIrq (s.chip.get (A.ring r) R.RING_CFG_vector % 4) else Out.msix
        (s.chip.get (A.ring r) R.RING_CFG_owner) (s.chip.get (A.ring r) R.RING_CFG_vector)] else []) else [])) ∧
        t.chip.get (A.ring r) R.RING_CI_ci = ((s.chip.get (A.ring r) R.RING_CI_ci + 1) % (2 * s.chip.ringSize r)) ∧
        ((((s.chip.get (A.ring r) R.RING_IRQ_mod_us = 0 ∧ s.chip.get (A.ring r) R.RING_IRQ_mod_count = 0) ∨
        (s.chip.get (A.ring r) R.RING_IRQ_mod_count ≠ 0 ∧ s.chip.get (A.ring r) R.RING_IRQ_mod_count ≤ (s.chip.ring r).unsignalled + 1)) →
        t.chip.get (A.ring r) R.RING_IRQ_pending = 1) ∧ (¬ ((s.chip.get (A.ring r) R.RING_IRQ_mod_us = 0 ∧
        s.chip.get (A.ring r) R.RING_IRQ_mod_count = 0) ∨ (s.chip.get (A.ring r) R.RING_IRQ_mod_count ≠ 0 ∧
        s.chip.get (A.ring r) R.RING_IRQ_mod_count ≤ (s.chip.ring r).unsignalled + 1)) →
        t.chip.get (A.ring r) R.RING_IRQ_pending = s.chip.get (A.ring r) R.RING_IRQ_pending)) ∧
      t.chip.ring r = { (s.chip.ring r) with desc := none, read := none, unsignalled := if ((s.chip.get (A.ring r) R.RING_IRQ_mod_us = 0 ∧ s.chip.get (A.ring r) R.RING_IRQ_mod_count = 0) ∨ (s.chip.get (A.ring r) R.RING_IRQ_mod_count ≠ 0 ∧ s.chip.get (A.ring r) R.RING_IRQ_mod_count ≤ (s.chip.ring r).unsignalled + 1)) then 0 else (s.chip.ring r).unsignalled + 1, since := if (s.chip.ring r).unsignalled = 0 then s.chip.now else (s.chip.ring r).since }
        ∧ (∀ k, k ≠ r → t.chip.ring k = s.chip.ring k) ∧
      t.chip.ledger = s.chip.sent [s.chip.msgOf 0xD028 K.dmaDescErr 1 (n * 4096 + r)] ∧
        OnlyParts s t [A.ring r + R.RING_CI, A.ring r + R.RING_IRQ] [.host, .ledger]) ∧
  -- 13: injectDescriptorFetch
  (∀ (s : State) (r : Nat),
    s.runs .core = true →
    r < 4096 →
    (s.chip.ringOn r 1 = true ∧ s.chip.ringHalted r = false ∧ s.chip.hostUp = true ∧ (s.chip.ringUsed r) ≠ 0 ∧ (s.chip.ring r).desc = none ∧
      s.chip.inReset 0xD028 = false) →
    Does (.injectDescriptorFetch r none) s fun t =>
      t.chip.get (A.ring r) R.RING_STATUS_halted = 1 ∧ t.chip.get (A.ring r) R.RING_STATUS_active = 0 ∧
        t.chip.get (A.ring r) R.RING_STATUS_last_err = 3 ∧
      t.chip.out = ((if (s.chip.get (A.ring r) R.RING_WB_LO_wb = 0 ∧
        s.chip.get (A.ring r) R.RING_WB_HI_wb = 0) then [] else [Out.writeBack r ((s.chip.get (A.ring r) R.RING_CI_ci + 1) % (2 *
        s.chip.ringSize r))]) ++ (if ((s.chip.get (A.ring r) R.RING_IRQ_mod_us = 0 ∧ s.chip.get (A.ring r) R.RING_IRQ_mod_count = 0) ∨
        (s.chip.get (A.ring r) R.RING_IRQ_mod_count ≠ 0 ∧ s.chip.get (A.ring r) R.RING_IRQ_mod_count ≤ (s.chip.ring r).unsignalled + 1))
        then (if s.chip.get (A.ring r) R.RING_IRQ_enable = 1 then [if s.chip.get (A.ring r) R.RING_CFG_owner =
        16 then Out.coreIrq (s.chip.get (A.ring r) R.RING_CFG_vector % 4) else Out.msix (s.chip.get (A.ring r) R.RING_CFG_owner) (s.chip.get
        (A.ring r) R.RING_CFG_vector)] else []) else [])) ∧ t.chip.get (A.ring r) R.RING_CI_ci =
        ((s.chip.get (A.ring r) R.RING_CI_ci + 1) % (2 * s.chip.ringSize r)) ∧ ((((s.chip.get (A.ring r) R.RING_IRQ_mod_us = 0 ∧
        s.chip.get (A.ring r) R.RING_IRQ_mod_count = 0) ∨ (s.chip.get (A.ring r) R.RING_IRQ_mod_count ≠ 0 ∧
        s.chip.get (A.ring r) R.RING_IRQ_mod_count ≤ (s.chip.ring r).unsignalled + 1)) → t.chip.get (A.ring r) R.RING_IRQ_pending = 1) ∧
        (¬ ((s.chip.get (A.ring r) R.RING_IRQ_mod_us = 0 ∧ s.chip.get (A.ring r) R.RING_IRQ_mod_count = 0) ∨
        (s.chip.get (A.ring r) R.RING_IRQ_mod_count ≠ 0 ∧ s.chip.get (A.ring r) R.RING_IRQ_mod_count ≤ (s.chip.ring r).unsignalled + 1)) →
        t.chip.get (A.ring r) R.RING_IRQ_pending = s.chip.get (A.ring r) R.RING_IRQ_pending)) ∧
        t.chip.ring r = { (s.chip.ring r) with unsignalled := if ((s.chip.get (A.ring r) R.RING_IRQ_mod_us = 0 ∧ s.chip.get (A.ring r) R.RING_IRQ_mod_count = 0) ∨ (s.chip.get (A.ring r) R.RING_IRQ_mod_count ≠ 0 ∧ s.chip.get (A.ring r) R.RING_IRQ_mod_count ≤ (s.chip.ring r).unsignalled + 1)) then 0 else (s.chip.ring r).unsignalled + 1, since := if (s.chip.ring r).unsignalled = 0 then s.chip.now else (s.chip.ring r).since }
        ∧ (∀ k, k ≠ r → t.chip.ring k = s.chip.ring k) ∧
      t.chip.ledger = s.chip.sent [s.chip.msgOf 0xD028 K.dmaDescErr 1 (3 * 4096 + r)] ∧
        OnlyParts s t [A.ring r + R.RING_CI, A.ring r + R.RING_STATUS, A.ring r + R.RING_IRQ] [.host, .ledger]) ∧
  -- 14: injectDescriptorFetch
  (∀ (s : State) (r : Nat) (d : Option Descriptor),
    s.runs .core = true →
    (4096 ≤ r ∨ ¬ (s.chip.ringOn r 1 = true ∧ s.chip.ringHalted r = false ∧ s.chip.hostUp = true ∧ (s.chip.ringUsed r) ≠ 0 ∧
      (s.chip.ring r).desc = none ∧ s.chip.inReset 0xD028 = false) ∨ d.any (fun x => !(Inj.own x)) = true) →
    Does (.injectDescriptorFetch r d) s fun t => OnlyRegs s t []) ∧
  -- 15: injectFrameRead
  (∀ (s : State) (r : Nat) (d : Descriptor) (bs : List Byte),
    s.runs .core = true →
    r < 4096 →
    (s.chip.ring r).desc = some d ∧ (s.chip.ring r).read = none ∧ s.chip.inReset 0xD028 = false →
    bs.length = Inj.len d ∧ (s.chip.macOf r = none) →
    s.chip.get (A.ring r) R.RING_CFG_kind ≠ 2 ∧ Inj.port d < 128 ∧ s.chip.alive (U.slice (Inj.port d / 16)) = true →
    Inj.mode d = true ∧ s.chip.isbOver (Inj.port d / 16) (bs.length + 4) = false →
    Does (.injectFrameRead r (some bs)) s fun t =>
      (∃ f, t.chip.frames.look s.chip.nextId = some f ∧ f.bytes = withFcs bs false ∧ f.whole = true ∧ f.injected = true ∧
        f.slice = (Inj.port d / 16) ∧ f.hostTag = Inj.tag d ∧
        f.slot = some s.chip.newestSlot ∧ f.stage = .waiting ∧ Wb.get f.wb 0 31 24 = 0xFF ∧ Wb.get f.wb 0 23 22 = s.chip.newestSlot) ∧
      (t.chip.prt (Inj.port d)).wait = (s.chip.prt (Inj.port d)).wait ++ [s.chip.nextId] ∧
        t.chip.reg (A.ring r + C.ring_frames) = s.chip.reg (A.ring r + C.ring_frames) + 1 ∧
        t.chip.reg (A.ring r + C.ring_bytes) = s.chip.reg (A.ring r + C.ring_bytes) + BitVec.ofNat 64 (Inj.len d) ∧
        t.chip.out = [.dmaEntry r (s.chip.ringPlace r (s.chip.get (A.ring r) R.RING_CI_ci)) (putBits (putBits d 127 127 0) 191 184 0)] ++
        ((if (s.chip.get (A.ring r) R.RING_WB_LO_wb = 0 ∧ s.chip.get (A.ring r) R.RING_WB_HI_wb =
        0) then [] else [Out.writeBack r ((s.chip.get (A.ring r) R.RING_CI_ci + 1) % (2 * s.chip.ringSize r))]) ++ (if ((s.chip.get (A.ring
        r) R.RING_IRQ_mod_us = 0 ∧ s.chip.get (A.ring r) R.RING_IRQ_mod_count = 0) ∨ (s.chip.get (A.ring r) R.RING_IRQ_mod_count ≠ 0 ∧
        s.chip.get (A.ring r) R.RING_IRQ_mod_count ≤ (s.chip.ring r).unsignalled + 1)) then (if s.chip.get (A.ring r) R.RING_IRQ_enable =
        1 then [if s.chip.get (A.ring r) R.RING_CFG_owner = 16 then Out.coreIrq (s.chip.get (A.ring r) R.RING_CFG_vector % 4) else Out.msix
        (s.chip.get (A.ring r) R.RING_CFG_owner) (s.chip.get (A.ring r) R.RING_CFG_vector)] else []) else [])) ∧
        t.chip.get (A.ring r) R.RING_CI_ci = ((s.chip.get (A.ring r) R.RING_CI_ci + 1) % (2 * s.chip.ringSize r)) ∧
        ((((s.chip.get (A.ring r) R.RING_IRQ_mod_us = 0 ∧ s.chip.get (A.ring r) R.RING_IRQ_mod_count = 0) ∨
        (s.chip.get (A.ring r) R.RING_IRQ_mod_count ≠ 0 ∧ s.chip.get (A.ring r) R.RING_IRQ_mod_count ≤ (s.chip.ring r).unsignalled + 1)) →
        t.chip.get (A.ring r) R.RING_IRQ_pending = 1) ∧ (¬ ((s.chip.get (A.ring r) R.RING_IRQ_mod_us = 0 ∧
        s.chip.get (A.ring r) R.RING_IRQ_mod_count = 0) ∨ (s.chip.get (A.ring r) R.RING_IRQ_mod_count ≠ 0 ∧
        s.chip.get (A.ring r) R.RING_IRQ_mod_count ≤ (s.chip.ring r).unsignalled + 1)) →
        t.chip.get (A.ring r) R.RING_IRQ_pending = s.chip.get (A.ring r) R.RING_IRQ_pending)) ∧
        t.chip.ring r = { (s.chip.ring r) with desc := none, read := none, unsignalled := if ((s.chip.get (A.ring r) R.RING_IRQ_mod_us = 0 ∧ s.chip.get (A.ring r) R.RING_IRQ_mod_count = 0) ∨ (s.chip.get (A.ring r) R.RING_IRQ_mod_count ≠ 0 ∧ s.chip.get (A.ring r) R.RING_IRQ_mod_count ≤ (s.chip.ring r).unsignalled + 1)) then 0 else (s.chip.ring r).unsignalled + 1, since := if (s.chip.ring r).unsignalled = 0 then s.chip.now else (s.chip.ring r).since }
        ∧ (∀ k, k ≠ r → t.chip.ring k = s.chip.ring k) ∧ t.chip.inflight s.chip.newestSlot =
        (s.chip.inflight s.chip.newestSlot + 1) % 2 ^ 32 ∧
      t.chip.house = (s.chip.wakeCause (Inj.port d / 16)).house ∧
      OnlyParts s t [A.ring r + R.RING_CI, A.ring r + R.RING_IRQ, A.ring r + C.ring_frames, A.ring r + C.ring_bytes,
        Chip.inflightReg s.chip.newestSlot] [.host, .nextId, .house, .frames, .ports]) ∧
  -- 16: injectFrameRead
  (∀ (s : State) (r : Nat) (d : Descriptor) (bs : List Byte),
    s.runs .core = true →
    r < 4096 →
    (s.chip.ring r).desc = some d ∧ (s.chip.ring r).read = none ∧ s.chip.inReset 0xD028 = false →
    bs.length = Inj.len d ∧ (s.chip.macOf r = none) →
    s.chip.get (A.ring r) R.RING_CFG_kind ≠ 2 ∧ Inj.port d < 128 ∧ s.chip.alive (U.slice (Inj.port d / 16)) = true →
    Inj.mode d = false ∧ s.chip.isbOver (Inj.port d / 16) (bs.length + 4) = false ∧ s.chip.reqOf ((Inj.port d / 16) / 4) 0xD028 = none →
    Does (.injectFrameRead r (some bs)) s fun t =>
      (∃ f v, t.chip.frames.look s.chip.nextId = some f ∧ f.bytes = withFcs bs false ∧ f.whole = true ∧ f.injected = true ∧
        f.staged = true ∧ f.slice = (Inj.port d / 16) ∧
        f.stage = .judged ∧ f.slot = some s.chip.newestSlot ∧ f.hostTag = Inj.tag d ∧ Wb.port f.wb = s.chip.suiteMember (Inj.port d) 0 ∧
        Wb.cls f.wb = Inj.cls d ∧ Wb.subscriber f.wb = Inj.subscriber d ∧ Wb.script f.wb = Inj.script d ∧
        t.chip.streams.look (s.chip.nextId + 1) = some v ∧ v.frame = s.chip.nextId ∧ v.slice = (Inj.port d / 16) ∧ v.wb = f.wb ∧
          v.mirror = false ∧ v.mcast = false ∧
        v.mask = 2 ^ (Wb.port f.wb / 16)) ∧ t.chip.reg (A.ring r + C.ring_frames) = s.chip.reg (A.ring r + C.ring_frames) + 1 ∧
          t.chip.reg (A.ring r + C.ring_bytes) = s.chip.reg (A.ring r + C.ring_bytes) + BitVec.ofNat 64 (Inj.len d) ∧
          t.chip.out = [.dmaEntry r (s.chip.ringPlace r (s.chip.get (A.ring r) R.RING_CI_ci)) (putBits (putBits d 127 127 0) 191 184 0)] ++
          ((if (s.chip.get (A.ring r) R.RING_WB_LO_wb = 0 ∧ s.chip.get (A.ring r) R.RING_WB_HI_wb =
          0) then [] else [Out.writeBack r ((s.chip.get (A.ring r) R.RING_CI_ci + 1) % (2 * s.chip.ringSize r))]) ++ (if ((s.chip.get
          (A.ring r) R.RING_IRQ_mod_us = 0 ∧ s.chip.get (A.ring r) R.RING_IRQ_mod_count = 0) ∨
          (s.chip.get (A.ring r) R.RING_IRQ_mod_count ≠ 0 ∧ s.chip.get (A.ring r) R.RING_IRQ_mod_count ≤ (s.chip.ring r).unsignalled + 1))
          then (if s.chip.get (A.ring r) R.RING_IRQ_enable = 1 then [if s.chip.get (A.ring r) R.RING_CFG_owner =
          16 then Out.coreIrq (s.chip.get (A.ring r) R.RING_CFG_vector % 4) else Out.msix (s.chip.get (A.ring r) R.RING_CFG_owner)
          (s.chip.get (A.ring r) R.RING_CFG_vector)] else []) else [])) ∧
          t.chip.get (A.ring r) R.RING_CI_ci = ((s.chip.get (A.ring r) R.RING_CI_ci + 1) % (2 * s.chip.ringSize r)) ∧
          ((((s.chip.get (A.ring r) R.RING_IRQ_mod_us = 0 ∧ s.chip.get (A.ring r) R.RING_IRQ_mod_count = 0) ∨
          (s.chip.get (A.ring r) R.RING_IRQ_mod_count ≠ 0 ∧ s.chip.get (A.ring r) R.RING_IRQ_mod_count ≤ (s.chip.ring r).unsignalled + 1)) →
          t.chip.get (A.ring r) R.RING_IRQ_pending = 1) ∧ (¬ ((s.chip.get (A.ring r) R.RING_IRQ_mod_us = 0 ∧
          s.chip.get (A.ring r) R.RING_IRQ_mod_count = 0) ∨ (s.chip.get (A.ring r) R.RING_IRQ_mod_count ≠ 0 ∧
          s.chip.get (A.ring r) R.RING_IRQ_mod_count ≤ (s.chip.ring r).unsignalled + 1)) →
          t.chip.get (A.ring r) R.RING_IRQ_pending = s.chip.get (A.ring r) R.RING_IRQ_pending)) ∧
          t.chip.ring r = { (s.chip.ring r) with desc := none, read := none, unsignalled := if ((s.chip.get (A.ring r) R.RING_IRQ_mod_us = 0 ∧ s.chip.get (A.ring r) R.RING_IRQ_mod_count = 0) ∨ (s.chip.get (A.ring r) R.RING_IRQ_mod_count ≠ 0 ∧ s.chip.get (A.ring r) R.RING_IRQ_mod_count ≤ (s.chip.ring r).unsignalled + 1)) then 0 else (s.chip.ring r).unsignalled + 1, since := if (s.chip.ring r).unsignalled = 0 then s.chip.now else (s.chip.ring r).since }
          ∧ (∀ k, k ≠ r → t.chip.ring k = s.chip.ring k) ∧ t.chip.inflight s.chip.newestSlot =
          (s.chip.inflight s.chip.newestSlot + 1) % 2 ^ 32 ∧
      OnlyParts s t [A.ring r + R.RING_CI, A.ring r + R.RING_IRQ, A.ring r + C.ring_frames, A.ring r + C.ring_bytes,
        Chip.inflightReg s.chip.newestSlot] [.host, .nextId, .house, .frames, .streams]) ∧
  -- 17: injectFrameRead
  (∀ (s : State) (r i : Nat) (d : Descriptor) (bs : List Byte),
    s.runs .core = true →
    r < 4096 →
    (s.chip.ring r).desc = some d ∧ (s.chip.ring r).read = none ∧ s.chip.inReset 0xD028 = false →
    bs.length = Inj.len d ∧ (s.chip.macOf r = none) →
    s.chip.get (A.ring r) R.RING_CFG_kind ≠ 2 ∧ Inj.port d < 128 ∧ s.chip.alive (U.slice (Inj.port d / 16)) = true →
    Inj.mode d = false ∧ s.chip.reqOf ((Inj.port d / 16) / 4) 0xD028 = some i →
    Does (.injectFrameRead r (some bs)) s fun t =>
      ((t.chip.reg (A.ring r + C.ring_drops) = s.chip.reg (A.ring r + C.ring_drops) ∧
        t.chip.reg (A.ring r + C.ring_frames) = s.chip.reg (A.ring r + C.ring_frames) + 1 ∧
        t.chip.reg (A.ring r + C.ring_bytes) = s.chip.reg (A.ring r + C.ring_bytes) + BitVec.ofNat 64 (Inj.len d) ∧
        (t.chip.fr s.chip.nextId).bytes = withFcs bs false ∧ (t.chip.fr s.chip.nextId).staged = false ∧
          (∃ v, t.chip.arrivals.look (s.chip.nextId + 1) = some v ∧ v.frame = s.chip.nextId ∧ v.lodger = U.slice (Inj.port d / 16) ∧
            v.copies ≠ []) ∧
          t.chip.out.head? = some (.dmaEntry r (s.chip.ringPlace r (s.chip.get (A.ring r) R.RING_CI_ci)) (putBits (putBits d 127 127 0) 191
            184 0))) ∨
       (t.chip.reg (A.ring r + C.ring_drops) = s.chip.reg (A.ring r + C.ring_drops) + 1 ∧
         t.chip.reg (A.ring r + C.ring_frames) = s.chip.reg (A.ring r + C.ring_frames) ∧
          t.chip.out.head? = some (.dmaEntry r (s.chip.ringPlace r (s.chip.get (A.ring r) R.RING_CI_ci)) (putBits (putBits d 127 127 0) 191
            184 4)))) ∧
      t.chip.get (A.ring r) R.RING_CI_ci = ((s.chip.get (A.ring r) R.RING_CI_ci + 1) % (2 * s.chip.ringSize r)) ∧
        (t.chip.ring r).desc = none ∧ (∀ k, k ≠ r → t.chip.ring k = s.chip.ring k) ∧ t.nv = s.nv ∧ t.fuses = s.fuses ∧
        t.pending = s.pending) ∧
  -- 18: injectFrameRead
  (∀ (s : State) (r : Nat) (d : Descriptor) (bs : List Byte),
    s.runs .core = true →
    r < 4096 →
    (s.chip.ring r).desc = some d ∧ (s.chip.ring r).read = none ∧ s.chip.inReset 0xD028 = false →
    bs.length = Inj.len d ∧ (s.chip.macOf r = none) →
    s.chip.get (A.ring r) R.RING_CFG_kind ≠ 2 ∧ Inj.port d < 128 ∧ s.chip.alive (U.slice (Inj.port d / 16)) = true →
    s.chip.isbOver (Inj.port d / 16) (bs.length + 4) = true →
    Inj.mode d = true ∨ s.chip.reqOf ((Inj.port d / 16) / 4) 0xD028 = none →
    Does (.injectFrameRead r (some bs)) s fun t =>
      t.chip.reg (s.chip.sliceCnt (Inj.port d / 16) + C.isb_drop) = s.chip.reg (s.chip.sliceCnt (Inj.port d / 16) + C.isb_drop) + 1 ∧
        t.chip.reg (A.ring r + C.ring_drops) = s.chip.reg (A.ring r + C.ring_drops) + 1 ∧
        t.chip.out = [.dmaEntry r (s.chip.ringPlace r (s.chip.get (A.ring r) R.RING_CI_ci)) (putBits (putBits d 127 127 0) 191 184 4)] ++
        ((if (s.chip.get (A.ring r) R.RING_WB_LO_wb = 0 ∧ s.chip.get (A.ring r) R.RING_WB_HI_wb =
        0) then [] else [Out.writeBack r ((s.chip.get (A.ring r) R.RING_CI_ci + 1) % (2 * s.chip.ringSize r))]) ++ (if ((s.chip.get (A.ring
        r) R.RING_IRQ_mod_us = 0 ∧ s.chip.get (A.ring r) R.RING_IRQ_mod_count = 0) ∨ (s.chip.get (A.ring r) R.RING_IRQ_mod_count ≠ 0 ∧
        s.chip.get (A.ring r) R.RING_IRQ_mod_count ≤ (s.chip.ring r).unsignalled + 1)) then (if s.chip.get (A.ring r) R.RING_IRQ_enable =
        1 then [if s.chip.get (A.ring r) R.RING_CFG_owner = 16 then Out.coreIrq (s.chip.get (A.ring r) R.RING_CFG_vector % 4) else Out.msix
        (s.chip.get (A.ring r) R.RING_CFG_owner) (s.chip.get (A.ring r) R.RING_CFG_vector)] else []) else [])) ∧
        t.chip.get (A.ring r) R.RING_CI_ci = ((s.chip.get (A.ring r) R.RING_CI_ci + 1) % (2 * s.chip.ringSize r)) ∧
        ((((s.chip.get (A.ring r) R.RING_IRQ_mod_us = 0 ∧ s.chip.get (A.ring r) R.RING_IRQ_mod_count = 0) ∨
        (s.chip.get (A.ring r) R.RING_IRQ_mod_count ≠ 0 ∧ s.chip.get (A.ring r) R.RING_IRQ_mod_count ≤ (s.chip.ring r).unsignalled + 1)) →
        t.chip.get (A.ring r) R.RING_IRQ_pending = 1) ∧ (¬ ((s.chip.get (A.ring r) R.RING_IRQ_mod_us = 0 ∧
        s.chip.get (A.ring r) R.RING_IRQ_mod_count = 0) ∨ (s.chip.get (A.ring r) R.RING_IRQ_mod_count ≠ 0 ∧
        s.chip.get (A.ring r) R.RING_IRQ_mod_count ≤ (s.chip.ring r).unsignalled + 1)) →
        t.chip.get (A.ring r) R.RING_IRQ_pending = s.chip.get (A.ring r) R.RING_IRQ_pending)) ∧
        t.chip.ring r = { (s.chip.ring r) with desc := none, read := none, unsignalled := if ((s.chip.get (A.ring r) R.RING_IRQ_mod_us = 0 ∧ s.chip.get (A.ring r) R.RING_IRQ_mod_count = 0) ∨ (s.chip.get (A.ring r) R.RING_IRQ_mod_count ≠ 0 ∧ s.chip.get (A.ring r) R.RING_IRQ_mod_count ≤ (s.chip.ring r).unsignalled + 1)) then 0 else (s.chip.ring r).unsignalled + 1, since := if (s.chip.ring r).unsignalled = 0 then s.chip.now else (s.chip.ring r).since }
        ∧ (∀ k, k ≠ r → t.chip.ring k = s.chip.ring k) ∧
      OnlyParts s t [A.ring r + R.RING_CI, A.ring r + R.RING_IRQ, A.ring r + C.ring_drops,
        s.chip.sliceCnt (Inj.port d / 16) + C.isb_drop] [.host, .nextId, .house]) ∧
  -- 19: injectFrameRead
  (∀ (s : State) (r : Nat) (d : Descriptor) (bs : List Byte),
    s.runs .core = true →
    r < 4096 →
    (s.chip.ring r).desc = some d ∧ (s.chip.ring r).read = none ∧ s.chip.inReset 0xD028 = false →
    bs.length = Inj.len d ∧ (s.chip.macOf r = none) →
    s.chip.get (A.ring r) R.RING_CFG_kind ≠ 2 ∧ s.chip.alive (U.slice (Inj.port d / 16)) = false →
    Does (.injectFrameRead r (some bs)) s fun t => t.chip.reg (A.ring r + C.ring_drops) = s.chip.reg (A.ring r + C.ring_drops) + 1 ∧
      t.chip.out = [.dmaEntry r (s.chip.ringPlace r (s.chip.get (A.ring r) R.RING_CI_ci)) (putBits (putBits d 127 127 0) 191 184 4)] ++ ((if
      (s.chip.get (A.ring r) R.RING_WB_LO_wb = 0 ∧ s.chip.get (A.ring r) R.RING_WB_HI_wb =
      0) then [] else [Out.writeBack r ((s.chip.get (A.ring r) R.RING_CI_ci + 1) % (2 * s.chip.ringSize r))]) ++ (if ((s.chip.get (A.ring r)
      R.RING_IRQ_mod_us = 0 ∧ s.chip.get (A.ring r) R.RING_IRQ_mod_count = 0) ∨ (s.chip.get (A.ring r) R.RING_IRQ_mod_count ≠ 0 ∧
      s.chip.get (A.ring r) R.RING_IRQ_mod_count ≤ (s.chip.ring r).unsignalled + 1)) then (if s.chip.get (A.ring r) R.RING_IRQ_enable =
      1 then [if s.chip.get (A.ring r) R.RING_CFG_owner = 16 then Out.coreIrq (s.chip.get (A.ring r) R.RING_CFG_vector % 4) else Out.msix
      (s.chip.get (A.ring r) R.RING_CFG_owner) (s.chip.get (A.ring r) R.RING_CFG_vector)] else []) else [])) ∧
      t.chip.get (A.ring r) R.RING_CI_ci = ((s.chip.get (A.ring r) R.RING_CI_ci + 1) % (2 * s.chip.ringSize r)) ∧
      ((((s.chip.get (A.ring r) R.RING_IRQ_mod_us = 0 ∧ s.chip.get (A.ring r) R.RING_IRQ_mod_count = 0) ∨
      (s.chip.get (A.ring r) R.RING_IRQ_mod_count ≠ 0 ∧ s.chip.get (A.ring r) R.RING_IRQ_mod_count ≤ (s.chip.ring r).unsignalled + 1)) →
      t.chip.get (A.ring r) R.RING_IRQ_pending = 1) ∧ (¬ ((s.chip.get (A.ring r) R.RING_IRQ_mod_us = 0 ∧
      s.chip.get (A.ring r) R.RING_IRQ_mod_count = 0) ∨ (s.chip.get (A.ring r) R.RING_IRQ_mod_count ≠ 0 ∧
      s.chip.get (A.ring r) R.RING_IRQ_mod_count ≤ (s.chip.ring r).unsignalled + 1)) →
      t.chip.get (A.ring r) R.RING_IRQ_pending = s.chip.get (A.ring r) R.RING_IRQ_pending)) ∧
      t.chip.ring r = { (s.chip.ring r) with desc := none, read := none, unsignalled := if ((s.chip.get (A.ring r) R.RING_IRQ_mod_us = 0 ∧ s.chip.get (A.ring r) R.RING_IRQ_mod_count = 0) ∨ (s.chip.get (A.ring r) R.RING_IRQ_mod_count ≠ 0 ∧ s.chip.get (A.ring r) R.RING_IRQ_mod_count ≤ (s.chip.ring r).unsignalled + 1)) then 0 else (s.chip.ring r).unsignalled + 1, since := if (s.chip.ring r).unsignalled = 0 then s.chip.now else (s.chip.ring r).since }
      ∧ (∀ k, k ≠ r → t.chip.ring k = s.chip.ring k) ∧ OnlyParts s t [A.ring r + R.RING_CI, A.ring r + R.RING_IRQ,
      A.ring r + C.ring_drops] [.host]) ∧
  -- 20: injectFrameRead
  (∀ (s : State) (r : Nat) (d : Descriptor) (bs : Option (List Byte)),
    s.runs .core = true →
    r < 4096 →
    (s.chip.ring r).desc = some d ∧ (s.chip.ring r).read = none ∧ s.chip.inReset 0xD028 = false →
    (s.chip.get (A.ring r) R.RING_CFG_kind ≠ 2 ∧ bs.all (fun l => l.length != Inj.len d) = true) →
    Does (.injectFrameRead r bs) s fun t =>
      t.chip.get (A.ring r) R.RING_STATUS_halted = 1 ∧ t.chip.get (A.ring r) R.RING_STATUS_active = 0 ∧
        t.chip.get (A.ring r) R.RING_STATUS_last_err = 3 ∧
      t.chip.out = [.dmaEntry r (s.chip.ringPlace r (s.chip.get (A.ring r) R.RING_CI_ci)) (putBits (putBits d 127 127 0) 191 184 3)] ++ ((if
        (s.chip.get (A.ring r) R.RING_WB_LO_wb = 0 ∧ s.chip.get (A.ring r) R.RING_WB_HI_wb =
        0) then [] else [Out.writeBack r ((s.chip.get (A.ring r) R.RING_CI_ci + 1) % (2 * s.chip.ringSize r))]) ++ (if ((s.chip.get (A.ring
        r) R.RING_IRQ_mod_us = 0 ∧ s.chip.get (A.ring r) R.RING_IRQ_mod_count = 0) ∨ (s.chip.get (A.ring r) R.RING_IRQ_mod_count ≠ 0 ∧
        s.chip.get (A.ring r) R.RING_IRQ_mod_count ≤ (s.chip.ring r).unsignalled + 1)) then (if s.chip.get (A.ring r) R.RING_IRQ_enable =
        1 then [if s.chip.get (A.ring r) R.RING_CFG_owner = 16 then Out.coreIrq (s.chip.get (A.ring r) R.RING_CFG_vector % 4) else Out.msix
        (s.chip.get (A.ring r) R.RING_CFG_owner) (s.chip.get (A.ring r) R.RING_CFG_vector)] else []) else [])) ∧
        t.chip.get (A.ring r) R.RING_CI_ci = ((s.chip.get (A.ring r) R.RING_CI_ci + 1) % (2 * s.chip.ringSize r)) ∧
        ((((s.chip.get (A.ring r) R.RING_IRQ_mod_us = 0 ∧ s.chip.get (A.ring r) R.RING_IRQ_mod_count = 0) ∨
        (s.chip.get (A.ring r) R.RING_IRQ_mod_count ≠ 0 ∧ s.chip.get (A.ring r) R.RING_IRQ_mod_count ≤ (s.chip.ring r).unsignalled + 1)) →
        t.chip.get (A.ring r) R.RING_IRQ_pending = 1) ∧ (¬ ((s.chip.get (A.ring r) R.RING_IRQ_mod_us = 0 ∧
        s.chip.get (A.ring r) R.RING_IRQ_mod_count = 0) ∨ (s.chip.get (A.ring r) R.RING_IRQ_mod_count ≠ 0 ∧
        s.chip.get (A.ring r) R.RING_IRQ_mod_count ≤ (s.chip.ring r).unsignalled + 1)) →
        t.chip.get (A.ring r) R.RING_IRQ_pending = s.chip.get (A.ring r) R.RING_IRQ_pending)) ∧
      t.chip.ring r = { (s.chip.ring r) with desc := none, read := none, unsignalled := if ((s.chip.get (A.ring r) R.RING_IRQ_mod_us = 0 ∧ s.chip.get (A.ring r) R.RING_IRQ_mod_count = 0) ∨ (s.chip.get (A.ring r) R.RING_IRQ_mod_count ≠ 0 ∧ s.chip.get (A.ring r) R.RING_IRQ_mod_count ≤ (s.chip.ring r).unsignalled + 1)) then 0 else (s.chip.ring r).unsignalled + 1, since := if (s.chip.ring r).unsignalled = 0 then s.chip.now else (s.chip.ring r).since }
        ∧ (∀ k, k ≠ r → t.chip.ring k = s.chip.ring k) ∧
      t.chip.ledger = s.chip.sent [s.chip.msgOf 0xD028 K.dmaDescErr 1 (3 * 4096 + r)] ∧
        OnlyParts s t [A.ring r + R.RING_CI, A.ring r + R.RING_IRQ, A.ring r + R.RING_STATUS] [.host, .ledger]) ∧
  -- 21: injectFrameRead
  (∀ (s : State) (r mac : Nat) (d : Descriptor) (bs : List Byte),
    s.runs .core = true →
    r < 4096 →
    (s.chip.ring r).desc = some d ∧ (s.chip.ring r).read = none ∧ s.chip.inReset 0xD028 = false →
    bs.length = Inj.len d ∧ s.chip.macOf r = some mac →
    Does (.injectFrameRead r (some bs)) s fun t => t.chip.out = [] ∧ t.chip.ring r = { (s.chip.ring r) with read := some bs } ∧
      (∀ k, k ≠ r → t.chip.ring k = s.chip.ring k) ∧ OnlyParts s t [] [.host]) ∧
  -- 22: injectFrameRead
  (∀ (s : State) (r : Nat) (bs : Option (List Byte)),
    s.runs .core = true →
    4096 ≤ r ∨ (s.chip.ring r).desc = none ∨ (s.chip.ring r).read ≠ none ∨ s.chip.inReset 0xD028 = true →
    Does (.injectFrameRead r bs) s fun t => OnlyRegs s t [])

/-- PUNT_WRITE takes the oldest punt of a slice or management MAC. With descriptors for it the engine writes the waybill and the frame, in
one buffer or on into the next, and completes each descriptor; otherwise it drops the punt, counts it in the ring's drops, posts cause 1
to 5 to the punt-event FIFO and ends the frame's share; a failed read halts the ring. EVENT_RECORD_WRITE writes the oldest record of a
FIFO's draining bank, or of the sweep buffer, at PI: a corrected word counts, an uncorrectable one is dropped, counted and reported; the
newest record of a running sweep waits. In other states nothing happens. What counts as a failed host access is log 64, how descriptors
are filled log 65. -/
def Obligations.PuntsAndEventRecords : Prop :=
  -- 1: puntWrite
  (∀ (s : State) (q r cause : Nat) (p : Punt) (l : List Punt) (descs : List Descriptor) (f : Frame),
    s.runs .core = true →
    s.chip.host.punts.look q = p :: l ∧ s.chip.frames.look p.frame = some f ∧ f.whole = true ∧ f.stage = .judged ∧
      s.chip.inReset 0xD028 = false ∧ p.ring % 4096 = r →
    ((cause = 1 ∧ s.chip.ringOn r 0 = false) ∨
        (cause = 2 ∧ s.chip.ringOn r 0 = true ∧ s.chip.ringHalted r = true) ∨
        (cause = 3 ∧ s.chip.ringOn r 0 = true ∧ s.chip.ringHalted r = false ∧ s.chip.hostUp = false) ∨
        (cause = 4 ∧ (s.chip.ringOn r 0 = true ∧ s.chip.ringHalted r = false ∧ s.chip.hostUp = true) ∧ ((s.chip.ringUsed r) = 0 ∨
          ((s.chip.ringUsed r) ≤ descs.length ∧ ((Chip.puntRoom (descs.take (s.chip.ringUsed r)) < ((toLE 64 f.wb.toNat ++ (if p.trunc =
          0 then f.bytes else f.bytes.take (256 * p.trunc)))).length) ∨
          ((descs.take (s.chip.ringUsed r))).any (fun d => !(bit d 127)) = true)))) ∨ (cause = 5 ∧ (s.chip.ringOn r 0 = true ∧
          s.chip.ringHalted r = false ∧ s.chip.hostUp = true) ∧ ¬ ((s.chip.ringUsed r) = 0 ∨ ((s.chip.ringUsed r) ≤ descs.length ∧
          ((Chip.puntRoom (descs.take (s.chip.ringUsed r)) < ((toLE 64 f.wb.toNat ++ (if p.trunc =
          0 then f.bytes else f.bytes.take (256 * p.trunc)))).length) ∨
          ((descs.take (s.chip.ringUsed r))).any (fun d => !(bit d 127)) = true))) ∧ (s.chip.get (A.ring r) R.RING_RATE_rate ≠ 0 ∧
          s.chip.puntBucket r < ((f.bytes.length * 80000 : Nat) : Int)))) →
    Does (.puntWrite q descs) s fun t =>
      t.chip.out = [] ∧ t.chip.host.punts.look q = l ∧ t.chip.reg (A.ring r + C.ring_drops) = s.chip.reg (A.ring r + C.ring_drops) + 1 ∧
        (f.slice < 8 → ((s.chip.fifos.look (16 + f.slice)).filling).length < 512 →
        (t.chip.fifos.look (16 + f.slice)).filling = (s.chip.fifos.look (16 + f.slice)).filling ++ [Chip.puntEvent f r cause]) ∧
        ((f.holders ≤ 1 → t.chip.frames.look p.frame = none) ∧ (1 < f.holders → (t.chip.fr p.frame).holders = f.holders - 1) ∧
        (∀ i, f.slot = some i → s.chip.inflight i ≠ 0 → t.chip.inflight i = s.chip.inflight i - 1)) ∧
      OnlyParts s t ([A.ring r + C.ring_drops, Chip.inflightReg (f.slot.getD 0)] ++ (if f.slice < 8 then s.chip.fifoRegs (16 + f.slice) else
        [])) [.host, .fifos, .ledger, .frames, .ports]) ∧
  -- 2: puntWrite
  (∀ (s : State) (q r cause : Nat) (p : Punt) (l : List Punt) (descs : List Descriptor) (f : Frame),
    s.runs .core = true →
    s.chip.host.punts.look q = p :: l ∧ s.chip.frames.look p.frame = some f ∧ f.whole = true ∧ f.stage = .judged ∧
      s.chip.inReset 0xD028 = false ∧ p.ring % 4096 = r →
    (cause = 2 ∧ (s.chip.ringOn r 0 = true ∧ s.chip.ringHalted r = false ∧ s.chip.hostUp = true) ∧ ¬ ((s.chip.ringUsed r) = 0 ∨
      ((s.chip.ringUsed r) ≤ descs.length ∧ ((Chip.puntRoom (descs.take (s.chip.ringUsed r)) < ((toLE 64 f.wb.toNat ++ (if p.trunc =
      0 then f.bytes else f.bytes.take (256 * p.trunc)))).length) ∨
      ((descs.take (s.chip.ringUsed r))).any (fun d => !(bit d 127)) = true))) ∧ ¬ (s.chip.get (A.ring r) R.RING_RATE_rate ≠ 0 ∧
      s.chip.puntBucket r < ((f.bytes.length * 80000 : Nat) : Int)) ∧
      ((Chip.puntRoom (descs.take (s.chip.ringUsed r)) < ((toLE 64 f.wb.toNat ++ (if p.trunc =
      0 then f.bytes else f.bytes.take (256 * p.trunc)))).length) ∨
      ((descs.take (s.chip.ringUsed r))).any (fun d => !(bit d 127)) = true)) →
    Does (.puntWrite q descs) s fun t =>
      t.chip.get (A.ring r) R.RING_STATUS_halted = 1 ∧ t.chip.get (A.ring r) R.RING_STATUS_active = 0 ∧
        t.chip.get (A.ring r) R.RING_STATUS_last_err = 3 ∧
      s.chip.msgOf 0xD028 K.dmaDescErr 1 (3 * 4096 + r) ∈ t.chip.ledger.transit ∧
      t.chip.out = [] ∧ t.chip.host.punts.look q = l ∧ t.chip.reg (A.ring r + C.ring_drops) = s.chip.reg (A.ring r + C.ring_drops) + 1 ∧
        (f.slice < 8 → ((s.chip.fifos.look (16 + f.slice)).filling).length < 512 →
        (t.chip.fifos.look (16 + f.slice)).filling = (s.chip.fifos.look (16 + f.slice)).filling ++ [Chip.puntEvent f r cause]) ∧
        ((f.holders ≤ 1 → t.chip.frames.look p.frame = none) ∧ (1 < f.holders → (t.chip.fr p.frame).holders = f.holders - 1) ∧
        (∀ i, f.slot = some i → s.chip.inflight i ≠ 0 → t.chip.inflight i = s.chip.inflight i - 1)) ∧
      OnlyParts s t ([A.ring r + C.ring_drops, A.ring r + R.RING_STATUS,
        Chip.inflightReg (f.slot.getD 0)] ++ (if f.slice < 8 then s.chip.fifoRegs (16 + f.slice) else [])) [.host, .fifos, .ledger, .frames,
        .ports]) ∧
  -- 3: puntWrite
  (∀ (s : State) (q r : Nat) (p : Punt) (l : List Punt) (d : Descriptor) (f : Frame),
    s.runs .core = true →
    s.chip.host.punts.look q = p :: l ∧ s.chip.frames.look p.frame = some f ∧ f.whole = true ∧ f.stage = .judged ∧
      s.chip.inReset 0xD028 = false ∧ p.ring % 4096 = r →
    (s.chip.ringOn r 0 = true ∧ s.chip.ringHalted r = false ∧ s.chip.hostUp = true) ∧ (s.chip.ringUsed r) ≠ 0 ∧
      ¬ (s.chip.get (A.ring r) R.RING_RATE_rate ≠ 0 ∧ s.chip.puntBucket r < ((f.bytes.length * 80000 : Nat) : Int)) →
    (Chip.puntDesc d = 0 ∧ bit d 127 = true ∧ ((toLE 64 f.wb.toNat ++ (if p.trunc =
      0 then f.bytes else f.bytes.take (256 * p.trunc)))).length ≤ bits d 79 64) →
    Does (.puntWrite q [d]) s fun t =>
      t.chip.out = [.dmaBuf r (bits d 63 0) (toLE 64 f.wb.toNat ++ (if p.trunc = 0 then f.bytes else f.bytes.take (256 * p.trunc))),
        .dmaEntry r (s.chip.ringPlace r (s.chip.get (A.ring r) R.RING_CI_ci)) (putBits (putBits (putBits d 127 127 0) 159 128 (2 ^ 23 +
        ((toLE 64 f.wb.toNat ++ (if p.trunc = 0 then f.bytes else f.bytes.take (256 * p.trunc)))).length)) 191 160 (p.source * 2 ^ 28 +
        p.reason * 2 ^ 25 + f.bytes.length % 2 ^ 14))] ++ ((if (s.chip.get (A.ring r) R.RING_WB_LO_wb = 0 ∧
        s.chip.get (A.ring r) R.RING_WB_HI_wb = 0) then [] else [Out.writeBack r ((s.chip.get (A.ring r) R.RING_CI_ci + 1) % (2 *
        s.chip.ringSize r))]) ++ (if ((s.chip.get (A.ring r) R.RING_IRQ_mod_us = 0 ∧ s.chip.get (A.ring r) R.RING_IRQ_mod_count = 0) ∨
        (s.chip.get (A.ring r) R.RING_IRQ_mod_count ≠ 0 ∧ s.chip.get (A.ring r) R.RING_IRQ_mod_count ≤ (s.chip.ring r).unsignalled + 1))
        then (if s.chip.get (A.ring r) R.RING_IRQ_enable = 1 then [if s.chip.get (A.ring r) R.RING_CFG_owner =
        16 then Out.coreIrq (s.chip.get (A.ring r) R.RING_CFG_vector % 4) else Out.msix (s.chip.get (A.ring r) R.RING_CFG_owner) (s.chip.get
        (A.ring r) R.RING_CFG_vector)] else []) else [])) ∧
      t.chip.host.punts.look q = l ∧ t.chip.get (A.ring r) R.RING_CI_ci =
        ((s.chip.get (A.ring r) R.RING_CI_ci + 1) % (2 * s.chip.ringSize r)) ∧ ((((s.chip.get (A.ring r) R.RING_IRQ_mod_us = 0 ∧
        s.chip.get (A.ring r) R.RING_IRQ_mod_count = 0) ∨ (s.chip.get (A.ring r) R.RING_IRQ_mod_count ≠ 0 ∧
        s.chip.get (A.ring r) R.RING_IRQ_mod_count ≤ (s.chip.ring r).unsignalled + 1)) → t.chip.get (A.ring r) R.RING_IRQ_pending = 1) ∧
        (¬ ((s.chip.get (A.ring r) R.RING_IRQ_mod_us = 0 ∧ s.chip.get (A.ring r) R.RING_IRQ_mod_count = 0) ∨
        (s.chip.get (A.ring r) R.RING_IRQ_mod_count ≠ 0 ∧ s.chip.get (A.ring r) R.RING_IRQ_mod_count ≤ (s.chip.ring r).unsignalled + 1)) →
        t.chip.get (A.ring r) R.RING_IRQ_pending = s.chip.get (A.ring r) R.RING_IRQ_pending)) ∧
        t.chip.reg (A.ring r + C.ring_frames) = s.chip.reg (A.ring r + C.ring_frames) + 1 ∧
        t.chip.reg (A.ring r + C.ring_bytes) = s.chip.reg (A.ring r + C.ring_bytes) + BitVec.ofNat 64 f.bytes.length ∧ (∀ k, k ≠ r →
        t.chip.ring k = s.chip.ring k) ∧ (s.chip.get (A.ring r) R.RING_RATE_rate ≠ 0 →
        (t.chip.ring r).bucket = s.chip.puntBucket r - ((f.bytes.length * 80000 : Nat) : Int) ∧ (t.chip.ring r).filled = s.chip.now) ∧
        ((f.holders ≤ 1 → t.chip.frames.look p.frame = none) ∧ (1 < f.holders → (t.chip.fr p.frame).holders = f.holders - 1) ∧
        (∀ i, f.slot = some i → s.chip.inflight i ≠ 0 → t.chip.inflight i = s.chip.inflight i - 1)) ∧
      OnlyParts s t [A.ring r + R.RING_CI, A.ring r + R.RING_IRQ, A.ring r + C.ring_frames, A.ring r + C.ring_bytes,
        Chip.inflightReg (f.slot.getD 0)] [.host, .ledger, .frames, .ports]) ∧
  -- 4: puntWrite
  (∀ (s : State) (q r n : Nat) (p : Punt) (l : List Punt) (d e : Descriptor) (f : Frame),
    s.runs .core = true →
    s.chip.host.punts.look q = p :: l ∧ s.chip.frames.look p.frame = some f ∧ f.whole = true ∧ f.stage = .judged ∧
      s.chip.inReset 0xD028 = false ∧ p.ring % 4096 = r →
    (s.chip.get (A.ring r) R.RING_WB_LO_wb = 0 ∧ s.chip.get (A.ring r) R.RING_WB_HI_wb = 0) ∧ s.chip.get (A.ring r) R.RING_IRQ_mod_us ≠ 0 ∧
      s.chip.get (A.ring r) R.RING_IRQ_mod_count = 0 →
    (s.chip.ringOn r 0 = true ∧ s.chip.ringHalted r = false ∧ s.chip.hostUp = true) ∧ 2 ≤ (s.chip.ringUsed r) ∧
      ¬ (s.chip.get (A.ring r) R.RING_RATE_rate ≠ 0 ∧ s.chip.puntBucket r < ((f.bytes.length * 80000 : Nat) : Int)) →
    Chip.puntDesc d = 0 ∧ Chip.puntDesc e = 0 ∧ bit d 127 = true ∧ bit e 127 = true →
    (n = bits d 79 64 ∧ n < ((toLE 64 f.wb.toNat ++ (if p.trunc = 0 then f.bytes else f.bytes.take (256 * p.trunc)))).length ∧
      ((toLE 64 f.wb.toNat ++ (if p.trunc = 0 then f.bytes else f.bytes.take (256 * p.trunc)))).length ≤ n + bits e 79 64) →
    Does (.puntWrite q [d, e]) s fun t =>
      t.chip.out = [.dmaBuf r (bits d 63 0) (((toLE 64 f.wb.toNat ++ (if p.trunc =
        0 then f.bytes else f.bytes.take (256 * p.trunc)))).take n),
        .dmaEntry r (s.chip.ringPlace r (s.chip.get (A.ring r) R.RING_CI_ci)) (putBits (putBits (putBits d 127 127 0) 159 128 (2 ^ 23 + 2 ^
        22 + n)) 191 160 (p.source * 2 ^ 28 + p.reason * 2 ^ 25 + f.bytes.length % 2 ^ 14)),
        .dmaBuf r (bits e 63 0) (((toLE 64 f.wb.toNat ++ (if p.trunc = 0 then f.bytes else f.bytes.take (256 * p.trunc)))).drop n),
          .dmaEntry r (s.chip.ringPlace r ((s.chip.get (A.ring r) R.RING_CI_ci + 1) % (2 * s.chip.ringSize r))) (putBits (putBits (putBits e
          127 127 0) 159 128 (((toLE 64 f.wb.toNat ++ (if p.trunc =
          0 then f.bytes else f.bytes.take (256 * p.trunc)))).length - n)) 191 160 (p.source * 2 ^ 28 + p.reason * 2 ^ 25 + f.bytes.length %
          2 ^ 14))] ∧
      t.chip.host.punts.look q = l ∧ t.chip.get (A.ring r) R.RING_CI_ci =
        (((s.chip.get (A.ring r) R.RING_CI_ci + 1) % (2 * s.chip.ringSize r)) + 1) % (2 * s.chip.ringSize r) ∧
        t.chip.reg (A.ring r + C.ring_frames) = s.chip.reg (A.ring r + C.ring_frames) + 1 ∧
        t.chip.reg (A.ring r + C.ring_bytes) = s.chip.reg (A.ring r + C.ring_bytes) + BitVec.ofNat 64 f.bytes.length ∧ (∀ k, k ≠ r →
        t.chip.ring k = s.chip.ring k) ∧ (s.chip.get (A.ring r) R.RING_RATE_rate ≠ 0 →
        (t.chip.ring r).bucket = s.chip.puntBucket r - ((f.bytes.length * 80000 : Nat) : Int) ∧ (t.chip.ring r).filled = s.chip.now) ∧
        ((f.holders ≤ 1 → t.chip.frames.look p.frame = none) ∧ (1 < f.holders → (t.chip.fr p.frame).holders = f.holders - 1) ∧
        (∀ i, f.slot = some i → s.chip.inflight i ≠ 0 → t.chip.inflight i = s.chip.inflight i - 1)) ∧
      OnlyParts s t [A.ring r + R.RING_CI, A.ring r + C.ring_frames, A.ring r + C.ring_bytes, Chip.inflightReg (f.slot.getD 0)] [.host,
        .ledger, .frames, .ports]) ∧
  -- 5: puntWrite
  (∀ (s : State) (q r : Nat) (p : Punt) (l : List Punt) (d e : Descriptor) (f : Frame),
    s.runs .core = true →
    s.chip.host.punts.look q = p :: l ∧ s.chip.frames.look p.frame = some f ∧ f.whole = true ∧ f.stage = .judged ∧
      s.chip.inReset 0xD028 = false ∧ p.ring % 4096 = r →
    (s.chip.get (A.ring r) R.RING_WB_LO_wb = 0 ∧ s.chip.get (A.ring r) R.RING_WB_HI_wb = 0) ∧ s.chip.get (A.ring r) R.RING_IRQ_mod_us ≠ 0 ∧
      s.chip.get (A.ring r) R.RING_IRQ_mod_count = 0 →
    (s.chip.ringOn r 0 = true ∧ s.chip.ringHalted r = false ∧ s.chip.hostUp = true) ∧ 2 ≤ (s.chip.ringUsed r) ∧
      ¬ (s.chip.get (A.ring r) R.RING_RATE_rate ≠ 0 ∧ s.chip.puntBucket r < ((f.bytes.length * 80000 : Nat) : Int)) →
    Chip.puntDesc d ≠ 0 ∧ Chip.puntDesc e = 0 ∧ bit d 127 = true ∧ bit e 127 = true →
    (((toLE 64 f.wb.toNat ++ (if p.trunc = 0 then f.bytes else f.bytes.take (256 * p.trunc)))).length ≤ bits e 79 64) →
    Does (.puntWrite q [d, e]) s fun t =>
      t.chip.out = [.dmaEntry r (s.chip.ringPlace r (s.chip.get (A.ring r) R.RING_CI_ci)) (putBits (putBits d 127 127 0) 159 152
        (Chip.puntDesc d)),
        .dmaBuf r (bits e 63 0) (toLE 64 f.wb.toNat ++ (if p.trunc = 0 then f.bytes else f.bytes.take (256 * p.trunc))),
          .dmaEntry r (s.chip.ringPlace r ((s.chip.get (A.ring r) R.RING_CI_ci + 1) % (2 * s.chip.ringSize r))) (putBits (putBits (putBits e
          127 127 0) 159 128 (2 ^ 23 + ((toLE 64 f.wb.toNat ++ (if p.trunc =
          0 then f.bytes else f.bytes.take (256 * p.trunc)))).length)) 191 160 (p.source * 2 ^ 28 + p.reason * 2 ^ 25 + f.bytes.length % 2 ^
          14))] ∧
      s.chip.msgOf 0xD028 K.dmaDescErr 1 (Chip.puntDesc d * 4096 + r) ∈ t.chip.ledger.transit ∧
      t.chip.host.punts.look q = l ∧ t.chip.get (A.ring r) R.RING_CI_ci =
        (((s.chip.get (A.ring r) R.RING_CI_ci + 1) % (2 * s.chip.ringSize r)) + 1) % (2 * s.chip.ringSize r) ∧
        t.chip.reg (A.ring r + C.ring_frames) = s.chip.reg (A.ring r + C.ring_frames) + 1 ∧
        t.chip.reg (A.ring r + C.ring_bytes) = s.chip.reg (A.ring r + C.ring_bytes) + BitVec.ofNat 64 f.bytes.length ∧ (∀ k, k ≠ r →
        t.chip.ring k = s.chip.ring k) ∧ (s.chip.get (A.ring r) R.RING_RATE_rate ≠ 0 →
        (t.chip.ring r).bucket = s.chip.puntBucket r - ((f.bytes.length * 80000 : Nat) : Int) ∧ (t.chip.ring r).filled = s.chip.now) ∧
        ((f.holders ≤ 1 → t.chip.frames.look p.frame = none) ∧ (1 < f.holders → (t.chip.fr p.frame).holders = f.holders - 1) ∧
        (∀ i, f.slot = some i → s.chip.inflight i ≠ 0 → t.chip.inflight i = s.chip.inflight i - 1)) ∧
      OnlyParts s t [A.ring r + R.RING_CI, A.ring r + C.ring_frames, A.ring r + C.ring_bytes, Chip.inflightReg (f.slot.getD 0)] [.host,
        .ledger, .frames, .ports]) ∧
  -- 6: puntWrite
  (∀ (s : State) (q : Nat) (descs : List Descriptor),
    s.runs .core = true →
    (s.chip.inReset 0xD028 = true ∨ (s.chip.host.punts.look q).head?.all (fun p => !(s.chip.fr p.frame).whole) = true) →
    Does (.puntWrite q descs) s fun t => OnlyRegs s t []) ∧
  -- 7: eventRecordWrite
  (∀ (s : State) (f r ecc : Nat) (e : Entry) (l : List Entry),
    s.runs .core = true →
    r < 4096 →
    s.chip.eventRing f = r ∧ s.chip.eventRoom r = true →
    f < 25 ∧ (s.chip.fifos.look f).draining = e :: l ∧ (s.chip.fifos.look f).hurt = [] →
    ecc < 2 →
    Does (.eventRecordWrite f ecc) s fun t =>
      t.chip.out = [.dmaEntry r (s.chip.ringPlace r (s.chip.get (A.ring r) R.RING_PI_pi)) e] ++ ((if (s.chip.get (A.ring r) R.RING_WB_LO_wb
        = 0 ∧ s.chip.get (A.ring r) R.RING_WB_HI_wb = 0) then [] else [Out.writeBack r ((s.chip.get (A.ring r) R.RING_PI_pi + 1) % (2 *
        s.chip.ringSize r))]) ++ (if ((s.chip.get (A.ring r) R.RING_IRQ_mod_us = 0 ∧ s.chip.get (A.ring r) R.RING_IRQ_mod_count = 0) ∨
        (s.chip.get (A.ring r) R.RING_IRQ_mod_count ≠ 0 ∧ s.chip.get (A.ring r) R.RING_IRQ_mod_count ≤ (s.chip.ring r).unsignalled + 1))
        then (if s.chip.get (A.ring r) R.RING_IRQ_enable = 1 then [if s.chip.get (A.ring r) R.RING_CFG_owner =
        16 then Out.coreIrq (s.chip.get (A.ring r) R.RING_CFG_vector % 4) else Out.msix (s.chip.get (A.ring r) R.RING_CFG_owner) (s.chip.get
        (A.ring r) R.RING_CFG_vector)] else []) else [])) ∧ t.chip.get (A.ring r) R.RING_PI_pi =
        ((s.chip.get (A.ring r) R.RING_PI_pi + 1) % (2 * s.chip.ringSize r)) ∧ ((((s.chip.get (A.ring r) R.RING_IRQ_mod_us = 0 ∧
        s.chip.get (A.ring r) R.RING_IRQ_mod_count = 0) ∨ (s.chip.get (A.ring r) R.RING_IRQ_mod_count ≠ 0 ∧
        s.chip.get (A.ring r) R.RING_IRQ_mod_count ≤ (s.chip.ring r).unsignalled + 1)) → t.chip.get (A.ring r) R.RING_IRQ_pending = 1) ∧
        (¬ ((s.chip.get (A.ring r) R.RING_IRQ_mod_us = 0 ∧ s.chip.get (A.ring r) R.RING_IRQ_mod_count = 0) ∨
        (s.chip.get (A.ring r) R.RING_IRQ_mod_count ≠ 0 ∧ s.chip.get (A.ring r) R.RING_IRQ_mod_count ≤ (s.chip.ring r).unsignalled + 1)) →
        t.chip.get (A.ring r) R.RING_IRQ_pending = s.chip.get (A.ring r) R.RING_IRQ_pending)) ∧
        t.chip.ring r = { (s.chip.ring r) with unsignalled := if ((s.chip.get (A.ring r) R.RING_IRQ_mod_us = 0 ∧ s.chip.get (A.ring r) R.RING_IRQ_mod_count = 0) ∨ (s.chip.get (A.ring r) R.RING_IRQ_mod_count ≠ 0 ∧ s.chip.get (A.ring r) R.RING_IRQ_mod_count ≤ (s.chip.ring r).unsignalled + 1)) then 0 else (s.chip.ring r).unsignalled + 1, since := if (s.chip.ring r).unsignalled = 0 then s.chip.now else (s.chip.ring r).since }
        ∧ t.chip.reg (A.ring r + C.ring_frames) = s.chip.reg (A.ring r + C.ring_frames) + 1 ∧
        t.chip.reg (A.ring r + C.ring_bytes) = s.chip.reg (A.ring r + C.ring_bytes) + 32 ∧
        t.chip.fifos.look f = { s.chip.fifos.look f with draining := l } ∧
      (∀ k, k ≠ f → t.chip.fifos.look k = s.chip.fifos.look k) ∧
      t.chip.reg (s.chip.fifoTop f + 0x40) = s.chip.reg (s.chip.fifoTop f + 0x40) + BitVec.ofNat 64 ecc ∧
      OnlyParts s t [A.ring r + R.RING_PI, A.ring r + R.RING_IRQ, A.ring r + C.ring_frames, A.ring r + C.ring_bytes, fifoBase f + 4,
        s.chip.fifoTop f + 0x40] [.host, .fifos]) ∧
  -- 8: eventRecordWrite
  (∀ (s : State) (f r : Nat) (e : Entry) (l : List Entry),
    s.runs .core = true →
    r < 4096 →
    s.chip.eventRing f = r ∧ s.chip.eventRoom r = true →
    f < 25 ∧ (s.chip.fifos.look f).draining = e :: l ∧ (s.chip.fifos.look f).hurt = [] →
    Does (.eventRecordWrite f 2) s fun t =>
      t.chip.out = [] ∧ t.chip.fifos.look f = { s.chip.fifos.look f with draining := l } ∧ (∀ k, k ≠ f →
        t.chip.fifos.look k = s.chip.fifos.look k) ∧
      t.chip.reg (s.chip.fifoTop f + 0x48) = s.chip.reg (s.chip.fifoTop f + 0x48) + 1 ∧
      t.chip.ledger = s.chip.sent [s.chip.msgOf (fifoUnit f) K.fifoUncorrectable 1] ∧
        OnlyParts s t [fifoBase f + 4, s.chip.fifoTop f + 0x48] [.fifos, .ledger]) ∧
  -- 9: eventRecordWrite
  (∀ (s : State) (f r ecc : Nat) (e : Entry) (l : List Entry),
    s.runs .core = true →
    r < 4096 →
    s.chip.eventRing f = r ∧ s.chip.eventRoom r = true →
    f = 25 ∧ s.chip.sweep.buffer = e :: l →
    l ≠ [] ∨ s.chip.sweep.running = none →
    Does (.eventRecordWrite f ecc) s fun t =>
      t.chip.out = [.dmaEntry r (s.chip.ringPlace r (s.chip.get (A.ring r) R.RING_PI_pi)) e] ++ ((if (s.chip.get (A.ring r) R.RING_WB_LO_wb
        = 0 ∧ s.chip.get (A.ring r) R.RING_WB_HI_wb = 0) then [] else [Out.writeBack r ((s.chip.get (A.ring r) R.RING_PI_pi + 1) % (2 *
        s.chip.ringSize r))]) ++ (if ((s.chip.get (A.ring r) R.RING_IRQ_mod_us = 0 ∧ s.chip.get (A.ring r) R.RING_IRQ_mod_count = 0) ∨
        (s.chip.get (A.ring r) R.RING_IRQ_mod_count ≠ 0 ∧ s.chip.get (A.ring r) R.RING_IRQ_mod_count ≤ (s.chip.ring r).unsignalled + 1))
        then (if s.chip.get (A.ring r) R.RING_IRQ_enable = 1 then [if s.chip.get (A.ring r) R.RING_CFG_owner =
        16 then Out.coreIrq (s.chip.get (A.ring r) R.RING_CFG_vector % 4) else Out.msix (s.chip.get (A.ring r) R.RING_CFG_owner) (s.chip.get
        (A.ring r) R.RING_CFG_vector)] else []) else [])) ∧ t.chip.get (A.ring r) R.RING_PI_pi =
        ((s.chip.get (A.ring r) R.RING_PI_pi + 1) % (2 * s.chip.ringSize r)) ∧ ((((s.chip.get (A.ring r) R.RING_IRQ_mod_us = 0 ∧
        s.chip.get (A.ring r) R.RING_IRQ_mod_count = 0) ∨ (s.chip.get (A.ring r) R.RING_IRQ_mod_count ≠ 0 ∧
        s.chip.get (A.ring r) R.RING_IRQ_mod_count ≤ (s.chip.ring r).unsignalled + 1)) → t.chip.get (A.ring r) R.RING_IRQ_pending = 1) ∧
        (¬ ((s.chip.get (A.ring r) R.RING_IRQ_mod_us = 0 ∧ s.chip.get (A.ring r) R.RING_IRQ_mod_count = 0) ∨
        (s.chip.get (A.ring r) R.RING_IRQ_mod_count ≠ 0 ∧ s.chip.get (A.ring r) R.RING_IRQ_mod_count ≤ (s.chip.ring r).unsignalled + 1)) →
        t.chip.get (A.ring r) R.RING_IRQ_pending = s.chip.get (A.ring r) R.RING_IRQ_pending)) ∧
        t.chip.ring r = { (s.chip.ring r) with unsignalled := if ((s.chip.get (A.ring r) R.RING_IRQ_mod_us = 0 ∧ s.chip.get (A.ring r) R.RING_IRQ_mod_count = 0) ∨ (s.chip.get (A.ring r) R.RING_IRQ_mod_count ≠ 0 ∧ s.chip.get (A.ring r) R.RING_IRQ_mod_count ≤ (s.chip.ring r).unsignalled + 1)) then 0 else (s.chip.ring r).unsignalled + 1, since := if (s.chip.ring r).unsignalled = 0 then s.chip.now else (s.chip.ring r).since }
        ∧ t.chip.reg (A.ring r + C.ring_frames) = s.chip.reg (A.ring r + C.ring_frames) + 1 ∧
        t.chip.reg (A.ring r + C.ring_bytes) = s.chip.reg (A.ring r + C.ring_bytes) + 32 ∧
        t.chip.sweep = { s.chip.sweep with buffer := l } ∧ t.chip.get 0 R.SWEEP_STATUS_buffer_free = (8192 - l.length) % 2 ^ 14 ∧
      OnlyParts s t [A.ring r + R.RING_PI, A.ring r + R.RING_IRQ, A.ring r + C.ring_frames, A.ring r + C.ring_bytes, R.SWEEP_STATUS] [.host,
        .sweep]) ∧
  -- 10: eventRecordWrite
  (∀ (s : State) (f ecc : Nat),
    s.runs .core = true →
    25 < f ∨ s.chip.eventRoom (s.chip.eventRing f) = false ∨ (f < 25 ∧ (s.chip.fifos.look f).draining = []) ∨ (f = 25 ∧
      (s.chip.sweep.buffer = [] ∨ (s.chip.sweep.buffer.length = 1 ∧ s.chip.sweep.running ≠ none))) →
    Does (.eventRecordWrite f ecc) s fun t => OnlyRegs s t [])

/-- With loaded firmware, CORE_RELEASE sets the release bit and runs a core that is not in reset, its watchdog restarted; CORE_HOLD clears
the bit, stops the core and orphans its latchkeys; both are ignored without firmware. CORE_BUS_ERROR raises a bus error for an access
outside Table 20-12 and for a keepsake store below line 0x1_0000 or while writes are stopped. WATCHDOG_KICK restarts the count;
WATCHDOG_EXPIRY reports at severity 4. MGMT_FRAME_RECEIVE counts a frame and makes a punt of source 4, a bad one is counted alone;
MGMT_FRAME_SEND sends the frame with its FCS and completes its descriptor. In other states nothing happens. That the count restarts at
the expiry is log 68, the bad frame's fate log 67. -/
def Obligations.CoresAndManagementMacs : Prop :=
  -- 1: coreRelease
  (∀ (s : State) (src : Source) (core : Nat),
    s.serves src R.CC_CTRL true = true →
    core < 4 ∧ s.chip.get 0 R.CC_STATUS_fw_state = 2 →
    s.chip.coreRuns core = false ∧ s.chip.inReset (0xD010 + core) = false →
    Does (.coreRelease src core) s fun t =>
      t.chip.coreRuns core = true ∧ t.chip.get 0 R.CC_CTRL_release / 2 ^ core % 2 = 1 ∧
        t.chip.host = { s.chip.host with kicked := s.chip.host.kicked.set core s.chip.now } ∧
      (∀ k, k < 4 → k ≠ core → t.chip.coreRuns k = s.chip.coreRuns k ∧
        t.chip.get 0 R.CC_CTRL_release / 2 ^ k % 2 = s.chip.get 0 R.CC_CTRL_release / 2 ^ k % 2) ∧
        OnlyParts s t [R.CC_CTRL, R.CC_STATUS] [.host]) ∧
  -- 2: coreRelease
  (∀ (s : State) (src : Source) (core : Nat),
    s.serves src R.CC_CTRL true = true →
    core < 4 ∧ s.chip.get 0 R.CC_STATUS_fw_state = 2 →
    s.chip.coreRuns core = true ∨ s.chip.inReset (0xD010 + core) = true →
    Does (.coreRelease src core) s fun t => t.chip.coreRuns core = s.chip.coreRuns core ∧
      t.chip.get 0 R.CC_CTRL_release / 2 ^ core % 2 = 1 ∧ (∀ k, k < 4 → k ≠ core → t.chip.coreRuns k = s.chip.coreRuns k ∧
      t.chip.get 0 R.CC_CTRL_release / 2 ^ k % 2 = s.chip.get 0 R.CC_CTRL_release / 2 ^ k % 2) ∧ OnlyRegs s t [R.CC_CTRL]) ∧
  -- 3: coreHold
  (∀ (s : State) (src : Source) (core : Nat),
    s.serves src R.CC_CTRL true = true →
    core < 4 ∧ s.chip.get 0 R.CC_STATUS_fw_state = 2 →
    s.chip.coreRuns core = true →
    Does (.coreHold src core) s fun t =>
      t.chip.coreRuns core = false ∧ t.chip.get 0 R.CC_CTRL_release / 2 ^ core % 2 = 0 ∧ (∀ k, k < 4 → k ≠ core →
        t.chip.coreRuns k = s.chip.coreRuns k ∧ t.chip.get 0 R.CC_CTRL_release / 2 ^ k % 2 = s.chip.get 0 R.CC_CTRL_release / 2 ^ k % 2) ∧
      (∀ k, k < 64 → (s.chip.latch k).owner = 0xD010 + core → t.chip.latch k = { owner := 0, fn := 0, suspect := true }) ∧
      (∀ k, k < 64 → (s.chip.latch k).owner ≠ 0xD010 + core → t.chip.latch k = s.chip.latch k) ∧
      OnlyLedger s t [R.CC_CTRL, R.CC_STATUS, R.ACCORD_STATUS]) ∧
  -- 4: coreHold
  (∀ (s : State) (src : Source) (core : Nat),
    s.serves src R.CC_CTRL true = true →
    core < 4 ∧ s.chip.get 0 R.CC_STATUS_fw_state = 2 →
    s.chip.coreRuns core = false →
    Does (.coreHold src core) s fun t => t.chip.coreRuns core = false ∧ t.chip.get 0 R.CC_CTRL_release / 2 ^ core % 2 = 0 ∧ (∀ k, k < 4 →
      k ≠ core → t.chip.coreRuns k = s.chip.coreRuns k ∧ t.chip.get 0 R.CC_CTRL_release / 2 ^ k % 2 =
      s.chip.get 0 R.CC_CTRL_release / 2 ^ k % 2) ∧ OnlyRegs s t [R.CC_CTRL]) ∧
  -- 5: coreRelease
  (∀ (s : State) (src : Source) (core : Nat),
    s.serves src R.CC_CTRL true = true →
    4 ≤ core ∨ s.chip.get 0 R.CC_STATUS_fw_state ≠ 2 →
    Does (.coreRelease src core) s fun t => OnlyRegs s t []) ∧
  -- 6: coreHold
  (∀ (s : State) (src : Source) (core : Nat),
    s.serves src R.CC_CTRL true = true →
    4 ≤ core ∨ s.chip.get 0 R.CC_STATUS_fw_state ≠ 2 →
    Does (.coreHold src core) s fun t => OnlyRegs s t []) ∧
  -- 7: coreBusError
  (∀ (s : State) (core addr : Nat) (write : Bool),
    s.runs .core = true →
    core < 4 →
    ¬ (addr < 0x80000000 ∨ (0x000100000000 ≤ addr ∧ addr < 0x000120000000) ∨ (0x000200000000 ≤ addr ∧ addr < 0x000202000000) ∨
      (0x010000000000 ≤ addr ∧ addr < 0x020000000000)) ∨ (write = true ∧ 0x000200000000 ≤ addr ∧ addr < 0x000202000000 ∧
      (addr < 0x000200400000 ∨ s.chip.get 0 R.SAG_STATUS_stopped = 1)) →
    Does (.coreBusError core addr write) s fun t => t.chip.out = [.busError core] ∧ OnlyParts s t [] []) ∧
  -- 8: coreBusError
  (∀ (s : State) (core addr : Nat) (write : Bool),
    s.runs .core = true →
    4 ≤ core ∨ ((addr < 0x80000000 ∨ (0x000100000000 ≤ addr ∧ addr < 0x000120000000) ∨ (0x000200000000 ≤ addr ∧ addr < 0x000202000000) ∨
      (0x010000000000 ≤ addr ∧ addr < 0x020000000000)) ∧ ¬ (write = true ∧ 0x000200000000 ≤ addr ∧ addr < 0x000202000000 ∧
      (addr < 0x000200400000 ∨ s.chip.get 0 R.SAG_STATUS_stopped = 1))) →
    Does (.coreBusError core addr write) s fun t => t.chip.out = [] ∧ OnlyParts s t [] []) ∧
  -- 9: watchdogKick
  (∀ (s : State) (src : Source) (core : Nat),
    s.serves src (R.CC_WDOG + 4 * core) true = true →
    core < 4 →
    Does (.watchdogKick src core) s fun t =>
      t.chip.host = { s.chip.host with kicked := s.chip.host.kicked.set core s.chip.now } ∧ OnlyParts s t [] [.host]) ∧
  -- 10: watchdogKick
  (∀ (s : State) (src : Source) (core : Nat),
    s.serves src (R.CC_WDOG + 4 * core) true = true →
    4 ≤ core →
    Does (.watchdogKick src core) s fun t => OnlyRegs s t []) ∧
  -- 11: watchdogExpiry
  (∀ (s : State) (core : Nat),
    s.runs .core = true →
    (core < 4 ∧ s.chip.get (4 * core) R.CC_WDOG_enable = 1 ∧ s.chip.coreRuns core = true ∧
      s.chip.passedUs (s.chip.host.kicked.look core) (s.chip.get (4 * core) R.CC_WDOG_timeout_ms * 1000) = true) →
    Does (.watchdogExpiry core) s fun t =>
      t.chip.ledger = s.chip.sent [s.chip.msgOf (0xD010 + core) K.coreWatchdog 4] ∧
      t.chip.host = { s.chip.host with kicked := s.chip.host.kicked.set core s.chip.now } ∧ OnlyParts s t [] [.host, .ledger]) ∧
  -- 12: watchdogExpiry
  (∀ (s : State) (core : Nat),
    s.runs .core = true →
    ¬ (core < 4 ∧ s.chip.get (4 * core) R.CC_WDOG_enable = 1 ∧ s.chip.coreRuns core = true ∧
      s.chip.passedUs (s.chip.host.kicked.look core) (s.chip.get (4 * core) R.CC_WDOG_timeout_ms * 1000) = true) →
    Does (.watchdogExpiry core) s fun t => OnlyRegs s t []) ∧
  -- 13: mgmtFrameReceive
  (∀ (s : State) (mac : Nat) (bytes : List Byte),
    s.runs .core = true →
    (mac < 2 ∧ s.chip.get (A.mgmt mac) R.MGMT_CTRL_enable = 1 ∧ s.chip.inReset (0x4080 + mac) = false) →
    Does (.mgmtFrameReceive mac bytes false) s fun t =>
      t.chip.reg (A.mgmt mac + C.mg_rx_fcs_err) = s.chip.reg (A.mgmt mac + C.mg_rx_fcs_err) + 1 ∧
        OnlyRegs s t [A.mgmt mac + C.mg_rx_fcs_err]) ∧
  -- 14: mgmtFrameReceive
  (∀ (s : State) (mac : Nat) (bytes : List Byte),
    s.runs .core = true →
    (mac < 2 ∧ s.chip.get (A.mgmt mac) R.MGMT_CTRL_enable = 1 ∧ s.chip.inReset (0x4080 + mac) = false) →
    Does (.mgmtFrameReceive mac bytes true) s fun t =>
      t.chip.reg (A.mgmt mac + C.mg_rx_frames) = s.chip.reg (A.mgmt mac + C.mg_rx_frames) + 1 ∧
      t.chip.reg (A.mgmt mac + C.mg_rx_bytes) = s.chip.reg (A.mgmt mac + C.mg_rx_bytes) + BitVec.ofNat 64 bytes.length ∧
      t.chip.host.punts.look (8 + mac) = s.chip.host.punts.look (8 + mac) ++
        [{ frame := s.chip.nextId, ring := s.chip.get (A.mgmt mac) R.MGMT_CTRL_rx_ring, source := 4, reason := 0 }] ∧
      (t.chip.fr s.chip.nextId).bytes = bytes ∧ (t.chip.fr s.chip.nextId).whole = true ∧ (t.chip.fr s.chip.nextId).staged = false ∧
      OnlyParts s t [A.mgmt mac + C.mg_rx_frames, A.mgmt mac + C.mg_rx_bytes] [.fresh, .nextId, .frames, .host]) ∧
  -- 15: mgmtFrameReceive
  (∀ (s : State) (mac : Nat) (bytes : List Byte) (good : Bool),
    s.runs .core = true →
    ¬ (mac < 2 ∧ s.chip.get (A.mgmt mac) R.MGMT_CTRL_enable = 1 ∧ s.chip.inReset (0x4080 + mac) = false) →
    Does (.mgmtFrameReceive mac bytes good) s fun t => OnlyRegs s t []) ∧
  -- 16: mgmtFrameSend
  (∀ (s : State) (mac r : Nat) (d : Descriptor) (bs : List Byte),
    s.runs .core = true →
    (mac < 2 ∧ s.chip.get (A.mgmt mac) R.MGMT_CTRL_enable = 1 ∧ s.chip.inReset (0x4080 + mac) = false) ∧
      s.chip.get (A.mgmt mac) R.MGMT_CTRL_tx_ring = r →
    s.chip.get (A.ring r) R.RING_CFG_kind = 1 ∧ (s.chip.ring r).desc = some d ∧ (s.chip.ring r).read = some bs →
    Does (.mgmtFrameSend mac) s fun t =>
      t.chip.out = [.mgmtTx mac (withFcs bs false), .dmaEntry r (s.chip.ringPlace r (s.chip.get (A.ring r) R.RING_CI_ci)) (putBits (putBits
        d 127 127 0) 191 184 0)] ++ ((if (s.chip.get (A.ring r) R.RING_WB_LO_wb = 0 ∧
        s.chip.get (A.ring r) R.RING_WB_HI_wb = 0) then [] else [Out.writeBack r ((s.chip.get (A.ring r) R.RING_CI_ci + 1) % (2 *
        s.chip.ringSize r))]) ++ (if ((s.chip.get (A.ring r) R.RING_IRQ_mod_us = 0 ∧ s.chip.get (A.ring r) R.RING_IRQ_mod_count = 0) ∨
        (s.chip.get (A.ring r) R.RING_IRQ_mod_count ≠ 0 ∧ s.chip.get (A.ring r) R.RING_IRQ_mod_count ≤ (s.chip.ring r).unsignalled + 1))
        then (if s.chip.get (A.ring r) R.RING_IRQ_enable = 1 then [if s.chip.get (A.ring r) R.RING_CFG_owner =
        16 then Out.coreIrq (s.chip.get (A.ring r) R.RING_CFG_vector % 4) else Out.msix (s.chip.get (A.ring r) R.RING_CFG_owner) (s.chip.get
        (A.ring r) R.RING_CFG_vector)] else []) else [])) ∧
      t.chip.reg (A.mgmt mac + C.mg_tx_frames) = s.chip.reg (A.mgmt mac + C.mg_tx_frames) + 1 ∧
      t.chip.reg (A.mgmt mac + C.mg_tx_bytes) = s.chip.reg (A.mgmt mac + C.mg_tx_bytes) + BitVec.ofNat 64 (bs.length + 4) ∧
      t.chip.get (A.ring r) R.RING_CI_ci = ((s.chip.get (A.ring r) R.RING_CI_ci + 1) % (2 * s.chip.ringSize r)) ∧
        t.chip.reg (A.ring r + C.ring_frames) = s.chip.reg (A.ring r + C.ring_frames) + 1 ∧
        t.chip.reg (A.ring r + C.ring_bytes) = s.chip.reg (A.ring r + C.ring_bytes) + BitVec.ofNat 64 (Inj.len d) ∧
        ((((s.chip.get (A.ring r) R.RING_IRQ_mod_us = 0 ∧ s.chip.get (A.ring r) R.RING_IRQ_mod_count = 0) ∨
        (s.chip.get (A.ring r) R.RING_IRQ_mod_count ≠ 0 ∧ s.chip.get (A.ring r) R.RING_IRQ_mod_count ≤ (s.chip.ring r).unsignalled + 1)) →
        t.chip.get (A.ring r) R.RING_IRQ_pending = 1) ∧ (¬ ((s.chip.get (A.ring r) R.RING_IRQ_mod_us = 0 ∧
        s.chip.get (A.ring r) R.RING_IRQ_mod_count = 0) ∨ (s.chip.get (A.ring r) R.RING_IRQ_mod_count ≠ 0 ∧
        s.chip.get (A.ring r) R.RING_IRQ_mod_count ≤ (s.chip.ring r).unsignalled + 1)) →
        t.chip.get (A.ring r) R.RING_IRQ_pending = s.chip.get (A.ring r) R.RING_IRQ_pending)) ∧
        t.chip.ring r = { (s.chip.ring r) with desc := none, read := none, unsignalled := if ((s.chip.get (A.ring r) R.RING_IRQ_mod_us = 0 ∧ s.chip.get (A.ring r) R.RING_IRQ_mod_count = 0) ∨ (s.chip.get (A.ring r) R.RING_IRQ_mod_count ≠ 0 ∧ s.chip.get (A.ring r) R.RING_IRQ_mod_count ≤ (s.chip.ring r).unsignalled + 1)) then 0 else (s.chip.ring r).unsignalled + 1, since := if (s.chip.ring r).unsignalled = 0 then s.chip.now else (s.chip.ring r).since }
        ∧ (∀ k, k ≠ r → t.chip.ring k = s.chip.ring k) ∧
      OnlyParts s t [A.mgmt mac + C.mg_tx_frames, A.mgmt mac + C.mg_tx_bytes, A.ring r + R.RING_CI, A.ring r + R.RING_IRQ,
        A.ring r + C.ring_frames, A.ring r + C.ring_bytes] [.host]) ∧
  -- 17: mgmtFrameSend
  (∀ (s : State) (mac : Nat),
    s.runs .core = true →
    ¬ (mac < 2 ∧ s.chip.get (A.mgmt mac) R.MGMT_CTRL_enable = 1 ∧ s.chip.inReset (0x4080 + mac) = false) ∨
      (s.chip.ring (s.chip.get (A.mgmt mac) R.MGMT_CTRL_tx_ring)).desc = none ∨
      (s.chip.ring (s.chip.get (A.mgmt mac) R.MGMT_CTRL_tx_ring)).read = none →
    Does (.mgmtFrameSend mac) s fun t => OnlyRegs s t [])

/-- A trigger of an enabled list that is not empty puts it in line; one of a list that waits or runs is skipped and counted; one of a list of
more than 8,192 registers is skipped with SWEEP_OVERRUN; one of another list does nothing. A period that has passed, and TB0's new
second, trigger lists so. SWEEP_START runs the first waiting list when none runs: one record for each of its registers joins the buffer,
or, without room, the trigger is skipped with SWEEP_OVERRUN. SWEEP_COMPLETE marks the newest record as the last and counts the sweep. A
record's time and the free bits of the overrun's address are log 70. -/
def Obligations.SweepEngineReadsCounters : Prop :=
  -- 1: sweepTrigger
  (∀ (s : State) (src : Source) (l : Nat),
    s.serves src R.SWEEP_CMD true = true →
    l < 16 ∧ s.chip.get (8 * l) R.SWEEP_LIST_enable = 1 ∧ s.chip.get (8 * l) R.SWEEP_LIST_item_count ≠ 0 →
    s.chip.sweep.running ≠ some l ∧ l ∉ s.chip.sweep.waiting →
    s.chip.listSize l ≤ 8192 →
    Does (.sweepTrigger src l) s fun t => t.chip.sweep = { s.chip.sweep with waiting := s.chip.sweep.waiting ++ [l] } ∧
      t.chip.get 0 R.SWEEP_CMD_list = l ∧ OnlyParts s t [R.SWEEP_CMD] [.sweep]) ∧
  -- 2: sweepTrigger
  (∀ (s : State) (src : Source) (l : Nat),
    s.serves src R.SWEEP_CMD true = true →
    l < 16 ∧ s.chip.get (8 * l) R.SWEEP_LIST_enable = 1 ∧ s.chip.get (8 * l) R.SWEEP_LIST_item_count ≠ 0 →
    s.chip.sweep.running ≠ some l ∧ l ∉ s.chip.sweep.waiting →
    8192 < s.chip.listSize l →
    Does (.sweepTrigger src l) s fun t => t.chip.reg C.sweep_overrun = s.chip.reg C.sweep_overrun + 1 ∧
      t.chip.ledger = s.chip.sent [s.chip.msgOf 0xD060 K.sweepOverrun 1 (16 + l)] ∧ t.chip.get 0 R.SWEEP_CMD_list = l ∧
      OnlyLedger s t [R.SWEEP_CMD, C.sweep_overrun]) ∧
  -- 3: sweepTrigger
  (∀ (s : State) (src : Source) (l : Nat),
    s.serves src R.SWEEP_CMD true = true →
    l < 16 ∧ s.chip.get (8 * l) R.SWEEP_LIST_enable = 1 ∧ s.chip.get (8 * l) R.SWEEP_LIST_item_count ≠ 0 →
    s.chip.sweep.running = some l ∨ l ∈ s.chip.sweep.waiting →
    Does (.sweepTrigger src l) s fun t =>
      t.chip.reg C.sweep_skipped = s.chip.reg C.sweep_skipped + 1 ∧ t.chip.get 0 R.SWEEP_CMD_list = l ∧
        OnlyRegs s t [R.SWEEP_CMD, C.sweep_skipped]) ∧
  -- 4: sweepTrigger
  (∀ (s : State) (src : Source) (l : Nat),
    s.serves src R.SWEEP_CMD true = true →
    l < 16 ∧ (s.chip.get (8 * l) R.SWEEP_LIST_enable = 0 ∨ s.chip.get (8 * l) R.SWEEP_LIST_item_count = 0) →
    Does (.sweepTrigger src l) s fun t => t.chip.get 0 R.SWEEP_CMD_list = l ∧ OnlyRegs s t [R.SWEEP_CMD]) ∧
  -- 5: sweepPeriodTimer
  (∀ (s : State) (l : Nat),
    s.runs .core = true →
    s.chip.get (8 * l) R.SWEEP_PERIOD_period_us ≠ 0 ∧ s.chip.passedUs (s.chip.sweep.period.look l) (s.chip.get (8 * l)
      R.SWEEP_PERIOD_period_us) = true →
    l < 16 ∧ s.chip.get (8 * l) R.SWEEP_LIST_enable = 1 ∧ s.chip.get (8 * l) R.SWEEP_LIST_item_count ≠ 0 →
    s.chip.sweep.running ≠ some l ∧ l ∉ s.chip.sweep.waiting →
    s.chip.listSize l ≤ 8192 →
    Does (.sweepPeriodTimer l) s fun t => t.chip.sweep
      = { s.chip.sweep with waiting := s.chip.sweep.waiting ++ [l], period := s.chip.sweep.period.set l s.chip.now } ∧
      OnlyParts s t [] [.sweep]) ∧
  -- 6: sweepPeriodTimer
  (∀ (s : State) (l : Nat),
    s.runs .core = true →
    s.chip.get (8 * l) R.SWEEP_PERIOD_period_us ≠ 0 ∧ s.chip.passedUs (s.chip.sweep.period.look l) (s.chip.get (8 * l)
      R.SWEEP_PERIOD_period_us) = true →
    l < 16 ∧ s.chip.get (8 * l) R.SWEEP_LIST_enable = 1 ∧ s.chip.get (8 * l) R.SWEEP_LIST_item_count ≠ 0 →
    s.chip.sweep.running ≠ some l ∧ l ∉ s.chip.sweep.waiting →
    8192 < s.chip.listSize l →
    Does (.sweepPeriodTimer l) s fun t => t.chip.sweep = { s.chip.sweep with period := s.chip.sweep.period.set l s.chip.now } ∧
      t.chip.reg C.sweep_overrun = s.chip.reg C.sweep_overrun + 1 ∧
      t.chip.ledger = s.chip.sent [s.chip.msgOf 0xD060 K.sweepOverrun 1 (16 + l)] ∧ OnlyParts s t [C.sweep_overrun] [.sweep, .ledger]) ∧
  -- 7: sweepPeriodTimer
  (∀ (s : State) (l : Nat),
    s.runs .core = true →
    s.chip.get (8 * l) R.SWEEP_PERIOD_period_us ≠ 0 ∧ s.chip.passedUs (s.chip.sweep.period.look l) (s.chip.get (8 * l)
      R.SWEEP_PERIOD_period_us) = true →
    l < 16 ∧ s.chip.get (8 * l) R.SWEEP_LIST_enable = 1 ∧ s.chip.get (8 * l) R.SWEEP_LIST_item_count ≠ 0 →
    s.chip.sweep.running = some l ∨ l ∈ s.chip.sweep.waiting →
    Does (.sweepPeriodTimer l) s fun t =>
      t.chip.sweep = { s.chip.sweep with period := s.chip.sweep.period.set l s.chip.now } ∧
        t.chip.reg C.sweep_skipped = s.chip.reg C.sweep_skipped + 1 ∧ OnlyParts s t [C.sweep_skipped] [.sweep]) ∧
  -- 8: sweepPeriodTimer
  (∀ (s : State) (l : Nat),
    s.runs .core = true →
    16 ≤ l ∨ ¬ (s.chip.get (8 * l) R.SWEEP_PERIOD_period_us ≠ 0 ∧
      s.chip.passedUs (s.chip.sweep.period.look l) (s.chip.get (8 * l) R.SWEEP_PERIOD_period_us) = true) →
    Does (.sweepPeriodTimer l) s fun t => OnlyRegs s t []) ∧
  -- 9: sweepSecond
  (∀ (s : State) (l : Nat),
    s.runs .core = true →
    s.chip.sweep.second < (s.chip.tb 0).sec →
    (∀ k, k < 16 → (s.chip.on (8 * k) R.SWEEP_LIST_on_second = true ↔ k = l)) →
    l < 16 ∧ s.chip.get (8 * l) R.SWEEP_LIST_enable = 1 ∧ s.chip.get (8 * l) R.SWEEP_LIST_item_count ≠ 0 →
    s.chip.sweep.running ≠ some l ∧ l ∉ s.chip.sweep.waiting →
    s.chip.listSize l ≤ 8192 →
    Does .sweepSecond s fun t => t.chip.sweep = { s.chip.sweep with waiting := s.chip.sweep.waiting ++ [l], second := (s.chip.tb 0).sec } ∧
      OnlyParts s t [] [.sweep]) ∧
  -- 10: sweepSecond
  (∀ (s : State),
    s.runs .core = true →
    s.chip.sweep.second < (s.chip.tb 0).sec →
    Does .sweepSecond s fun t =>
      (∀ l, l < 16 → s.chip.get (8 * l) R.SWEEP_LIST_on_second = 1 → s.chip.get (8 * l) R.SWEEP_LIST_enable = 1 →
        s.chip.get (8 * l) R.SWEEP_LIST_item_count ≠ 0 →
        s.chip.listSize l ≤ 8192 → l ∈ t.chip.sweep.waiting ∨ s.chip.sweep.running = some l) ∧
      (∀ l, s.chip.get (8 * l) R.SWEEP_LIST_on_second = 0 → l ∉ s.chip.sweep.waiting → l ∉ t.chip.sweep.waiting) ∧
      t.chip.sweep = { s.chip.sweep with second := (s.chip.tb 0).sec, waiting := t.chip.sweep.waiting } ∧
        s.chip.sweep.waiting <+: t.chip.sweep.waiting ∧
      OnlyParts s t [C.sweep_skipped, C.sweep_overrun] [.sweep, .ledger]) ∧
  -- 11: sweepSecond
  (∀ (s : State),
    s.runs .core = true →
    (s.chip.tb 0).sec ≤ s.chip.sweep.second →
    Does .sweepSecond s fun t => t.chip.sweep = { s.chip.sweep with second := (s.chip.tb 0).sec } ∧ OnlyParts s t [] [.sweep]) ∧
  -- 12: sweepStart
  (∀ (s : State) (l : Nat) (w : List Nat),
    s.runs .core = true →
    s.chip.sweep.running = none ∧ s.chip.sweep.waiting = l :: w →
    l < 16 →
    s.chip.sweep.buffer.length + s.chip.listSize l ≤ 8192 →
    Does .sweepStart s fun t =>
      t.chip.sweep.running = some l ∧ t.chip.sweep.waiting = w ∧
      t.chip.sweep.buffer = s.chip.sweep.buffer ++ (((s.chip.listItems l).flatMap s.chip.itemRegs).zipIdx.map fun x =>
        ({ s.chip with out := [], sweep := { s.chip.sweep with waiting := w } } : Chip).sweepRecord s.nv l (s.chip.sweep.passes.look l) (x.2
        == 0) x.1) ∧
      t.chip.sweep.buffer.length = s.chip.sweep.buffer.length + s.chip.listSize l ∧
      t.chip.sweep.passes = s.chip.sweep.passes.set l ((s.chip.sweep.passes.look l + 1) % 65536) ∧
        t.chip.sweep.period = s.chip.sweep.period ∧ t.chip.sweep.second = s.chip.sweep.second ∧
      t.chip.get 0 R.SWEEP_STATUS_busy = 1 ∧ t.chip.get 0 R.SWEEP_STATUS_list = l ∧
        t.chip.get 0 R.SWEEP_STATUS_buffer_free = 8192 - t.chip.sweep.buffer.length ∧
      t.chip.reg C.sweep_records = s.chip.reg C.sweep_records + BitVec.ofNat 64 (s.chip.listSize l) ∧
        OnlyParts s t [R.SWEEP_STATUS, C.sweep_records] [.sweep]) ∧
  -- 13: sweepStart
  (∀ (s : State) (l : Nat) (w : List Nat),
    s.runs .core = true →
    s.chip.sweep.running = none ∧ s.chip.sweep.waiting = l :: w →
    8192 < s.chip.sweep.buffer.length + s.chip.listSize l →
    Does .sweepStart s fun t =>
      t.chip.sweep = { s.chip.sweep with waiting := w } ∧ t.chip.reg C.sweep_overrun = s.chip.reg C.sweep_overrun + 1 ∧
      t.chip.ledger = s.chip.sent [s.chip.msgOf 0xD060 K.sweepOverrun 1 (if 8192 < s.chip.listSize l then 16 + l else l)] ∧
        OnlyParts s t [C.sweep_overrun] [.sweep, .ledger]) ∧
  -- 14: sweepStart
  (∀ (s : State),
    s.runs .core = true →
    s.chip.sweep.running ≠ none ∨ s.chip.sweep.waiting = [] →
    Does .sweepStart s fun t => OnlyRegs s t []) ∧
  -- 15: sweepComplete
  (∀ (s : State) (l : Nat) (e : Entry) (b : List Entry),
    s.runs .core = true →
    s.chip.sweep.running = some l →
    s.chip.sweep.buffer = b ++ [e] →
    Does .sweepComplete s fun t =>
      t.chip.sweep = { s.chip.sweep with running := none, buffer := b ++ [putBits e 31 31 1] } ∧ t.chip.get 0 R.SWEEP_STATUS_busy = 0 ∧
      t.chip.reg C.sweeps = s.chip.reg C.sweeps + 1 ∧ OnlyParts s t [R.SWEEP_STATUS, C.sweeps] [.sweep]) ∧
  -- 16: sweepComplete
  (∀ (s : State),
    s.runs .core = true →
    s.chip.sweep.running ≠ none →
    s.chip.sweep.buffer = [] →
    Does .sweepComplete s fun t =>
      t.chip.sweep = { s.chip.sweep with running := none } ∧ t.chip.get 0 R.SWEEP_STATUS_busy = 0 ∧
      t.chip.reg C.sweeps = s.chip.reg C.sweeps + 1 ∧ OnlyParts s t [R.SWEEP_STATUS, C.sweeps] [.sweep]) ∧
  -- 17: sweepComplete
  (∀ (s : State),
    s.runs .core = true →
    s.chip.sweep.running = none →
    Does .sweepComplete s fun t => OnlyRegs s t [])
end

