-- ==== Sys2Proof/Laws/Dispatch.lean ====
section
/-! SUPPORT. Each command runs its meaning: one lemma per arm of the dispatcher. -/

namespace Sys2Proof.Machine

open Sys2Proof

variable (s : State)

theorem exec_registerWrite (src : Source) (addr : Nat) (size : Nat) (data : Word) : exec (.registerWrite src addr size data) s = execRegisterWrite src addr size data s := rfl
theorem exec_rcFieldRead (src : Source) (addr : Nat) (size : Nat) : exec (.rcFieldRead src addr size) s = execRcFieldRead src addr size s := rfl
theorem exec_suiteQuery (src : Source) (unit : Nat) : exec (.suiteQuery src unit) s = execSuiteQuery src unit s := rfl
theorem exec_unitResetRelease (src : Source) (unit : Nat) : exec (.unitResetRelease src unit) s = execUnitResetRelease src unit s := rfl
theorem exec_unitResetHold (src : Source) (unit : Nat) : exec (.unitResetHold src unit) s = execUnitResetHold src unit s := rfl
theorem exec_unitReleaseHeld (src : Source) (unit : Nat) : exec (.unitReleaseHeld src unit) s = execUnitReleaseHeld src unit s := rfl
theorem exec_unitResetComplete (unit : Nat) : exec (.unitResetComplete unit) s = execUnitResetComplete unit s := rfl
theorem exec_unitHoldReached (unit : Nat) : exec (.unitHoldReached unit) s = execUnitHoldReached unit s := rfl
theorem exec_applyGo (src : Source) (addr : Nat) (tag : Nat) : exec (.applyGo src addr tag) s = execApplyGo src addr tag s := rfl
theorem exec_applyRevert (src : Source) (addr : Nat) : exec (.applyRevert src addr) s = execApplyRevert src addr s := rfl
theorem exec_applyTakeEffect (addr : Nat) : exec (.applyTakeEffect addr) s = execApplyTakeEffect addr s := rfl
theorem exec_applyTimeout (addr : Nat) : exec (.applyTimeout addr) s = execApplyTimeout addr s := rfl
theorem exec_powerOn : exec .powerOn s = execPowerOn s := rfl
theorem exec_powerLoss : exec (.powerLoss) s = execPowerLoss s := rfl
theorem exec_pinChipReset : exec (.pinChipReset) s = execPinChipReset s := rfl
theorem exec_sysRstNRise : exec (.sysRstNRise) s = execSysRstNRise s := rfl
theorem exec_internalRelease : exec (.internalRelease) s = execInternalRelease s := rfl
theorem exec_softwareChipReset (src : Source) (key : Nat) : exec (.softwareChipReset src key) s = execSoftwareChipReset src key s := rfl
theorem exec_perstNAssert : exec (.perstNAssert) s = execPerstNAssert s := rfl
theorem exec_perstNRelease : exec (.perstNRelease) s = execPerstNRelease s := rfl
theorem exec_stack0TrainingComplete : exec (.stack0TrainingComplete) s = execStack0TrainingComplete s := rfl
theorem exec_slotCheckComplete (read : Option Image) (sigs : ImageSigs) : exec (.slotCheckComplete read sigs) s = execSlotCheckComplete read sigs s := rfl
theorem exec_imageHandover (img : Image) : exec (.imageHandover img) s = execImageHandover img s := rfl
theorem exec_imageApplyComplete : exec (.imageApplyComplete) s = execImageApplyComplete s := rfl
theorem exec_fullTrainingComplete (m : Nat) (failed : List Nat) : exec (.fullTrainingComplete m failed) s = execFullTrainingComplete m failed s := rfl
theorem exec_strongroomTamper : exec (.strongroomTamper) s = execStrongroomTamper s := rfl
theorem exec_strongroomSelftest : exec (.strongroomSelftest) s = execStrongroomSelftest s := rfl
theorem exec_trngHealth : exec (.trngHealth) s = execTrngHealth s := rfl
theorem exec_trngHealthRecover : exec (.trngHealthRecover) s = execTrngHealthRecover s := rfl
theorem exec_getInfo (ch : Nat) (len : Nat) (seq : Nat) : exec (.getInfo ch len seq) s = execGetInfo ch len seq s := rfl
theorem exec_getRandom (ch : Nat) (len : Nat) (seq : Nat) : exec (.getRandom ch len seq) s = execGetRandom ch len seq s := rfl
theorem exec_getBootReport (ch : Nat) (len : Nat) (seq : Nat) : exec (.getBootReport ch len seq) s = execGetBootReport ch len seq s := rfl
theorem exec_enrolCustomerKey (ch : Nat) (len : Nat) (seq : Nat) (verdict : TokenCheck) (blown : Nat) : exec (.enrolCustomerKey ch len seq verdict blown) s = execEnrolCustomerKey ch len seq verdict blown s := rfl
theorem exec_revokeCustomerKey (ch : Nat) (len : Nat) (seq : Nat) (verdict : TokenCheck) (blown : Nat) : exec (.revokeCustomerKey ch len seq verdict blown) s = execRevokeCustomerKey ch len seq verdict blown s := rfl
theorem exec_advanceEpoch (ch : Nat) (len : Nat) (seq : Nat) (blown : Nat) : exec (.advanceEpoch ch len seq blown) s = execAdvanceEpoch ch len seq blown s := rfl
theorem exec_debugChallenge (ch : Nat) (len : Nat) (seq : Nat) : exec (.debugChallenge ch len seq) s = execDebugChallenge ch len seq s := rfl
theorem exec_debugResponse (ch : Nat) (len : Nat) (seq : Nat) (verdict : TokenCheck) : exec (.debugResponse ch len seq verdict) s = execDebugResponse ch len seq verdict s := rfl
theorem exec_setBootSlot (ch : Nat) (len : Nat) (seq : Nat) : exec (.setBootSlot ch len seq) s = execSetBootSlot ch len seq s := rfl
theorem exec_bootFromHost (ch : Nat) (len : Nat) (seq : Nat) : exec (.bootFromHost ch len seq) s = execBootFromHost ch len seq s := rfl
theorem exec_selfTest (ch : Nat) (len : Nat) (seq : Nat) (pass : Bool) : exec (.selfTest ch len seq pass) s = execSelfTest ch len seq pass s := rfl
theorem exec_attest (ch : Nat) (len : Nat) (seq : Nat) : exec (.attest ch len seq) s = execAttest ch len seq s := rfl
theorem exec_mailboxComplete (ch : Nat) : exec (.mailboxComplete ch) s = execMailboxComplete ch s := rfl
theorem exec_controlFirmwareCheck (pass : Bool) : exec (.controlFirmwareCheck pass) s = execControlFirmwareCheck pass s := rfl
theorem exec_laneTxEqWrite (src : Source) (q : Nat) (data : Word) : exec (.laneTxEqWrite src q data) s = execLaneTxEqWrite src q data s := rfl
theorem exec_laneTestWrite (src : Source) (q : Nat) (prbs : Nat) : exec (.laneTestWrite src q prbs) s = execLaneTestWrite src q prbs s := rfl
theorem exec_laneSignalChange (q : Nat) (present : Bool) : exec (.laneSignalChange q present) s = execLaneSignalChange q present s := rfl
theorem exec_laneAdaptComplete (q : Nat) : exec (.laneAdaptComplete q) s = execLaneAdaptComplete q s := rfl
theorem exec_fecUncorrectableCodeword (q : Nat) : exec (.fecUncorrectableCodeword q) s = execFecUncorrectableCodeword q s := rfl
theorem exec_fecDegradeWindow (q : Nat) (corrected : FecWindow) :
    exec (.fecDegradeWindow q corrected) s = execFecDegradeWindow q corrected s := rfl
theorem exec_pcsStatusChange (p : Nat) (aligned : Bool) (localFault : Bool) (remoteFault : Bool) : exec (.pcsStatusChange p aligned localFault remoteFault) s = execPcsStatusChange p aligned localFault remoteFault s := rfl
theorem exec_linkDown (p : Nat) : exec (.linkDown p) s = execLinkDown p s := rfl
theorem exec_linkUp (p : Nat) : exec (.linkUp p) s = execLinkUp p s := rfl
theorem exec_holdExpiry (p : Nat) : exec (.holdExpiry p) s = execHoldExpiry p s := rfl
theorem exec_rxFrameStart (p : Nat) (head : List Byte) : exec (.rxFrameStart p head) s = execRxFrameStart p head s := rfl
theorem exec_rxFrameEnd (p : Nat) (rest : List Byte) (good : Bool) : exec (.rxFrameEnd p rest good) s = execRxFrameEnd p rest good s := rfl
theorem exec_pauseFrameReceived (p : Nat) (bytes : List Byte) : exec (.pauseFrameReceived p bytes) s = execPauseFrameReceived p bytes s := rfl
theorem exec_pauseExpiry (p : Nat) (cls : Nat) : exec (.pauseExpiry p cls) s = execPauseExpiry p cls s := rfl
theorem exec_xoffSend (p : Nat) : exec (.xoffSend p) s = execXoffSend p s := rfl
theorem exec_xonSend (p : Nat) : exec (.xonSend p) s = execXonSend p s := rfl
theorem exec_xoffRefresh (p : Nat) (cls : Nat) : exec (.xoffRefresh p cls) s = execXoffRefresh p cls s := rfl
theorem exec_pfcStormDetect (p : Nat) (cls : Nat) : exec (.pfcStormDetect p cls) s = execPfcStormDetect p cls s := rfl
theorem exec_pfcStormRecover (p : Nat) (cls : Nat) : exec (.pfcStormRecover p cls) s = execPfcStormRecover p cls s := rfl
theorem exec_lpiEntry (p : Nat) : exec (.lpiEntry p) s = execLpiEntry p s := rfl
theorem exec_lpiWakeComplete (p : Nat) : exec (.lpiWakeComplete p) s = execLpiWakeComplete p s := rfl
theorem exec_peerLpiChange (p : Nat) (lpi : Bool) : exec (.peerLpiChange p lpi) s = execPeerLpiChange p lpi s := rfl
theorem exec_dispatch (sl : Nat) (n : Nat) (th : Nat) (frame : Nat) : exec (.dispatch sl n th frame) s = execDispatch sl n th frame s := rfl
theorem exec_microword (sl : Nat) (n : Nat) (th : Nat) : exec (.microword sl n th) s = execMicroword sl n th s := rfl
theorem exec_threadRelease (sl : Nat) (n : Nat) (th : Nat) : exec (.threadRelease sl n th) s = execThreadRelease sl n th s := rfl
theorem exec_releaseToPipes (sl : Nat) : exec (.releaseToPipes sl) s = execReleaseToPipes sl s := rfl
theorem exec_porterStall (sl : Nat) (n : Nat) : exec (.porterStall sl n) s = execPorterStall sl n s := rfl
theorem exec_porterRetire (src : Source) (sl : Nat) (n : Nat) : exec (.porterRetire src sl n) s = execPorterRetire src sl n s := rfl
theorem exec_spareStoreCheckComplete (sl : Nat) (n : Nat) (upsets : List (Nat × Entry)) : exec (.spareStoreCheckComplete sl n upsets) s = execSpareStoreCheckComplete sl n upsets s := rfl
theorem exec_spareTakeover (sl : Nat) (n : Nat) : exec (.spareTakeover sl n) s = execSpareTakeover sl n s := rfl
theorem exec_storeCheck (src : Source) (sl : Nat) (n : Nat) : exec (.storeCheck src sl n) s = execStoreCheck src sl n s := rfl
theorem exec_storeCheckComplete (sl : Nat) (upsets : List (Nat × Entry)) : exec (.storeCheckComplete sl upsets) s = execStoreCheckComplete sl upsets s := rfl
theorem exec_lookup (sl : Nat) (frame : Nat) (upsets : List (Nat × Key)) : exec (.lookup sl frame upsets) s = execLookup sl frame upsets s := rfl
theorem exec_tcamRepeatSearch (sl : Nat) (frame : Nat) : exec (.tcamRepeatSearch sl frame) s = execTcamRepeatSearch sl frame s := rfl
theorem exec_tcamRowRewrite (sl : Nat) : exec (.tcamRowRewrite sl) s = execTcamRowRewrite sl s := rfl
theorem exec_lpmHeldProbe (h : Nat) : exec (.lpmHeldProbe h) s = execLpmHeldProbe h s := rfl
theorem exec_actionResolution (sl : Nat) (frame : Nat) : exec (.actionResolution sl frame) s = execActionResolution sl frame s := rfl
theorem exec_learnRequest (sl : Nat) (frame : Nat) : exec (.learnRequest sl frame) s = execLearnRequest sl frame s := rfl
theorem exec_learnInsert (sl : Nat) : exec (.learnInsert sl) s = execLearnInsert sl s := rfl
theorem exec_learnMove (sl : Nat) : exec (.learnMove sl) s = execLearnMove sl s := rfl
theorem exec_agerVisit (sl : Nat) (index : Nat) : exec (.agerVisit sl index) s = execAgerVisit sl index s := rfl
theorem exec_emRead (src : Source) (sl : Nat) : exec (.emRead src sl) s = execEmRead src sl s := rfl
theorem exec_emSearch (src : Source) (sl : Nat) : exec (.emSearch src sl) s = execEmSearch src sl s := rfl
theorem exec_emSearchPending (src : Source) (sl : Nat) : exec (.emSearchPending src sl) s = execEmSearchPending src sl s := rfl
theorem exec_emInsert (src : Source) (sl : Nat) : exec (.emInsert src sl) s = execEmInsert src sl s := rfl
theorem exec_emWriteIfSeq (src : Source) (sl : Nat) : exec (.emWriteIfSeq src sl) s = execEmWriteIfSeq src sl s := rfl
theorem exec_emLearn (src : Source) (sl : Nat) : exec (.emLearn src sl) s = execEmLearn src sl s := rfl
theorem exec_emUnlearn (src : Source) (sl : Nat) : exec (.emUnlearn src sl) s = execEmUnlearn src sl s := rfl
theorem exec_emFlushPort (src : Source) (sl : Nat) : exec (.emFlushPort src sl) s = execEmFlushPort src sl s := rfl
theorem exec_emHoldFirst (src : Source) (sl : Nat) : exec (.emHoldFirst src sl) s = execEmHoldFirst src sl s := rfl
theorem exec_overflowReturn (sl : Nat) (index : Nat) : exec (.overflowReturn sl index) s = execOverflowReturn sl index s := rfl
theorem exec_bdRead (src : Source) (sl : Nat) : exec (.bdRead src sl) s = execBdRead src sl s := rfl
theorem exec_bdWrite (src : Source) (sl : Nat) : exec (.bdWrite src sl) s = execBdWrite src sl s := rfl
theorem exec_lpmRead (src : Source) (h : Nat) : exec (.lpmRead src h) s = execLpmRead src h s := rfl
theorem exec_lpmSearch (src : Source) (h : Nat) : exec (.lpmSearch src h) s = execLpmSearch src h s := rfl
theorem exec_lpmSearchPending (src : Source) (h : Nat) : exec (.lpmSearchPending src h) s = execLpmSearchPending src h s := rfl
theorem exec_lpmInsert (src : Source) (h : Nat) : exec (.lpmInsert src h) s = execLpmInsert src h s := rfl
theorem exec_lpmWriteIfSeq (src : Source) (h : Nat) : exec (.lpmWriteIfSeq src h) s = execLpmWriteIfSeq src h s := rfl
theorem exec_filterRead (src : Source) (h : Nat) (v6 : Bool) : exec (.filterRead src h v6) s = execFilterRead src h v6 s := rfl
theorem exec_filterWrite (src : Source) (h : Nat) (v6 : Bool) : exec (.filterWrite src h v6) s = execFilterWrite src h v6 s := rfl
theorem exec_setRange (src : Source) (h : Nat) (v6 : Bool) : exec (.setRange src h v6) s = execSetRange src h v6 s := rfl
theorem exec_clearRange (src : Source) (h : Nat) (v6 : Bool) : exec (.clearRange src h v6) s = execClearRange src h v6 s := rfl
theorem exec_readPart (src : Source) (sl : Nat) : exec (.readPart src sl) s = execReadPart src sl s := rfl
theorem exec_loadPart (src : Source) (sl : Nat) : exec (.loadPart src sl) s = execLoadPart src sl s := rfl
theorem exec_tcamWriteIfSeq (src : Source) (sl : Nat) : exec (.tcamWriteIfSeq src sl) s = execTcamWriteIfSeq src sl s := rfl
theorem exec_tcamSearch (src : Source) (sl : Nat) : exec (.tcamSearch src sl) s = execTcamSearch src sl s := rfl
theorem exec_tcamWriteSlot (sl : Nat) : exec (.tcamWriteSlot sl) s = execTcamWriteSlot sl s := rfl
theorem exec_tcamScrubRead (sl : Nat) (bank : Nat) (entry : Nat) (upset : Key) : exec (.tcamScrubRead sl bank entry upset) s = execTcamScrubRead sl bank entry upset s := rfl
theorem exec_windowCommandComplete (base : Nat) : exec (.windowCommandComplete base) s = execWindowCommandComplete base s := rfl
theorem exec_accordOpen (src : Source) (data : Word) : exec (.accordOpen src data) s = execAccordOpen src data s := rfl
theorem exec_accordCommit (src : Source) : exec (.accordCommit src) s = execAccordCommit src s := rfl
theorem exec_commitTakeEffect : exec (.commitTakeEffect) s = execCommitTakeEffect s := rfl
theorem exec_accordWithdraw (src : Source) : exec (.accordWithdraw src) s = execAccordWithdraw src s := rfl
theorem exec_accordDiscard (src : Source) : exec (.accordDiscard src) s = execAccordDiscard src s := rfl
theorem exec_discardComplete : exec (.discardComplete) s = execDiscardComplete s := rfl
theorem exec_accordRetire (slot : Nat) : exec (.accordRetire slot) s = execAccordRetire slot s := rfl
theorem exec_accordDrainSlow (slot : Nat) : exec (.accordDrainSlow slot) s = execAccordDrainSlow slot s := rfl
theorem exec_accordDrainWrite (src : Source) (data : Word) : exec (.accordDrainWrite src data) s = execAccordDrainWrite src data s := rfl
theorem exec_accordRetiredRead (src : Source) : exec (.accordRetiredRead src) s = execAccordRetiredRead src s := rfl
theorem exec_settlerVisit (place : SettlePlace) : exec (.settlerVisit place) s = execSettlerVisit place s := rfl
theorem exec_objectRead (src : Source) (base : Nat) : exec (.objectRead src base) s = execObjectRead src base s := rfl
theorem exec_objectWrite (src : Source) (base : Nat) : exec (.objectWrite src base) s = execObjectWrite src base s := rfl
theorem exec_resetBuckets (src : Source) (sl : Nat) : exec (.resetBuckets src sl) s = execResetBuckets src sl s := rfl
theorem exec_groupHeadRead (src : Source) (sl : Nat) : exec (.groupHeadRead src sl) s = execGroupHeadRead src sl s := rfl
theorem exec_groupHeadWriteIfSeq (src : Source) (sl : Nat) : exec (.groupHeadWriteIfSeq src sl) s = execGroupHeadWriteIfSeq src sl s := rfl
theorem exec_cellSend (sl : Nat) (k : Nat) : exec (.cellSend sl k) s = execCellSend sl k s := rfl
theorem exec_planeCellArrival (k : Nat) (sl : Nat) (damaged : Bool) : exec (.planeCellArrival k sl damaged) s = execPlaneCellArrival k sl damaged s := rfl
theorem exec_planeCellForward (k : Nat) (sl : Nat) (poisoned : Bool) : exec (.planeCellForward k sl poisoned) s = execPlaneCellForward k sl poisoned s := rfl
theorem exec_sliceCellArrival (sl : Nat) (k : Nat) (damaged : Bool) : exec (.sliceCellArrival sl k damaged) s = execSliceCellArrival sl k damaged s := rfl
theorem exec_linkAck (k : Nat) (sl : Nat) (up : Bool) (seq : Nat) : exec (.linkAck k sl up seq) s = execLinkAck k sl up seq s := rfl
theorem exec_resendRequest (k : Nat) (sl : Nat) (up : Bool) (seq : Nat) : exec (.resendRequest k sl up seq) s = execResendRequest k sl up seq s := rfl
theorem exec_fabricCrcWindow (k : Nat) (sl : Nat) (up : Bool) : exec (.fabricCrcWindow k sl up) s = execFabricCrcWindow k sl up s := rfl
theorem exec_linkLossOfLock (k : Nat) (sl : Nat) (up : Bool) : exec (.linkLossOfLock k sl up) s = execLinkLossOfLock k sl up s := rfl
theorem exec_planePllLoss (k : Nat) : exec (.planePllLoss k) s = execPlanePllLoss k s := rfl
theorem exec_barrierReceived (sl : Nat) (src : Nat) (k : Nat) : exec (.barrierReceived sl src k) s = execBarrierReceived sl src k s := rfl
theorem exec_barrierWaitExpiry (sl : Nat) (src : Nat) : exec (.barrierWaitExpiry sl src) s = execBarrierWaitExpiry sl src s := rfl
theorem exec_planeRetire (src : Source) (k : Nat) : exec (.planeRetire src k) s = execPlaneRetire src k s := rfl
theorem exec_planeRestore (src : Source) (k : Nat) : exec (.planeRestore src k) s = execPlaneRestore src k s := rfl
theorem exec_planeDrainComplete (k : Nat) : exec (.planeDrainComplete k) s = execPlaneDrainComplete k s := rfl
theorem exec_coachHeadEnqueue (p : Nat) : exec (.coachHeadEnqueue p) s = execCoachHeadEnqueue p s := rfl
theorem exec_coachTimeout (p : Nat) : exec (.coachTimeout p) s = execCoachTimeout p s := rfl
theorem exec_cellAlloc (h : Nat) (req : Nat) (listError : Bool) : exec (.cellAlloc h req listError) s = execCellAlloc h req listError s := rfl
theorem exec_cellShare (h : Nat) (req : Nat) (addr : Nat) (n : Nat) : exec (.cellShare h req addr n) s = execCellShare h req addr n s := rfl
theorem exec_cellHandover (h : Nat) (req : Nat) (addr : Nat) (dest : Nat) : exec (.cellHandover h req addr dest) s = execCellHandover h req addr dest s := rfl
theorem exec_cellFree (h : Nat) (req : Nat) (addr : Nat) : exec (.cellFree h req addr) s = execCellFree h req addr s := rfl
theorem exec_cellRead (src : Source) (h : Nat) : exec (.cellRead src h) s = execCellRead src h s := rfl
theorem exec_reclaim (src : Source) (h : Nat) : exec (.reclaim src h) s = execReclaim src h s := rfl
theorem exec_bpmPortErr (h : Nat) (req : Nat) : exec (.bpmPortErr h req) s = execBpmPortErr h req s := rfl
theorem exec_requesterReclaimComplete (h : Nat) (req : Nat) : exec (.requesterReclaimComplete h req) s = execRequesterReclaimComplete h req s := rfl
theorem exec_recoveryEnd (h : Nat) (req : Nat) : exec (.recoveryEnd h req) s = execRecoveryEnd h req s := rfl
theorem exec_freeListRebuild (h : Nat) : exec (.freeListRebuild h) s = execFreeListRebuild h s := rfl
theorem exec_spillBundleWrite (h : Nat) (queue : Nat) : exec (.spillBundleWrite h queue) s = execSpillBundleWrite h queue s := rfl
theorem exec_spillBundleTimer (h : Nat) (queue : Nat) : exec (.spillBundleTimer h queue) s = execSpillBundleTimer h queue s := rfl
theorem exec_spillWriteComplete (h : Nat) (bundle : Nat) : exec (.spillWriteComplete h bundle) s = execSpillWriteComplete h bundle s := rfl
theorem exec_spillFetch (h : Nat) (queue : Nat) : exec (.spillFetch h queue) s = execSpillFetch h queue s := rfl
theorem exec_bundleReadComplete (h : Nat) (bundle : Nat) (poisoned : Bool) : exec (.bundleReadComplete h bundle poisoned) s = execBundleReadComplete h bundle poisoned s := rfl
theorem exec_schedulingDecision (p : Nat) : exec (.schedulingDecision p) s = execSchedulingDecision p s := rfl
theorem exec_shaperConform (sl : Nat) (node : Nat) : exec (.shaperConform sl node) s = execShaperConform sl node s := rfl
theorem exec_txFrameEnd (p : Nat) : exec (.txFrameEnd p) s = execTxFrameEnd p s := rfl
theorem exec_txUnderrun (p : Nat) : exec (.txUnderrun p) s = execTxUnderrun p s := rfl
theorem exec_schedRecordRead (src : Source) (base : Nat) : exec (.schedRecordRead src base) s = execSchedRecordRead src base s := rfl
theorem exec_schedRecordWrite (src : Source) (base : Nat) : exec (.schedRecordWrite src base) s = execSchedRecordWrite src base s := rfl
theorem exec_queueStatusRead (src : Source) (sl : Nat) : exec (.queueStatusRead src sl) s = execQueueStatusRead src sl s := rfl
theorem exec_gateEdge (p : Nat) : exec (.gateEdge p) s = execGateEdge p s := rfl
theorem exec_gateBaseTime (p : Nat) : exec (.gateBaseTime p) s = execGateBaseTime p s := rfl
theorem exec_gclWrite (src : Source) (addr : Nat) (data : Word) : exec (.gclWrite src addr data) s = execGclWrite src addr data s := rfl
theorem exec_gateSwapArm (src : Source) (p : Nat) : exec (.gateSwapArm src p) s = execGateSwapArm src p s := rfl
theorem exec_gateSwapCancel (src : Source) (p : Nat) : exec (.gateSwapCancel src p) s = execGateSwapCancel src p s := rfl
theorem exec_gateSwap (p : Nat) : exec (.gateSwap p) s = execGateSwap p s := rfl
theorem exec_timeBaseTick : exec (.timeBaseTick) s = execTimeBaseTick s := rfl
theorem exec_tbNowRead (src : Source) (t : Nat) : exec (.tbNowRead src t) s = execTbNowRead src t s := rfl
theorem exec_tbPpsRead (src : Source) (t : Nat) : exec (.tbPpsRead src t) s = execTbPpsRead src t s := rfl
theorem exec_tbHoldover (t : Nat) : exec (.tbHoldover t) s = execTbHoldover t s := rfl
theorem exec_tbRefLoss : exec (.tbRefLoss) s = execTbRefLoss s := rfl
theorem exec_tbRefSelect (src : Source) (sel : Bool) : exec (.tbRefSelect src sel) s = execTbRefSelect src sel s := rfl
theorem exec_tbPllLock : exec (.tbPllLock) s = execTbPllLock s := rfl
theorem exec_ppsInEdge : exec (.ppsInEdge) s = execPpsInEdge s := rfl
theorem exec_ppsOutPulse (output : Nat) : exec (.ppsOutPulse output) s = execPpsOutPulse output s := rfl
theorem exec_ppsOutPulseEnd (output : Nat) : exec (.ppsOutPulseEnd output) s = execPpsOutPulseEnd output s := rfl
theorem exec_hbmRequest (m : Nat) (pc : Nat) (req : Nat) (addr : Nat) (write : Bool) (beats : Nat) (data : List Byte) : exec (.hbmRequest m pc req addr write beats data) s = execHbmRequest m pc req addr write beats data s := rfl
theorem exec_hbmArbDecision (m : Nat) (pc : Nat) : exec (.hbmArbDecision m pc) s = execHbmArbDecision m pc s := rfl
theorem exec_hbmTransferComplete (m : Nat) (pc : Nat) (errors : List (Nat × Bool)) : exec (.hbmTransferComplete m pc errors) s = execHbmTransferComplete m pc errors s := rfl
theorem exec_hbmArbStarve (m : Nat) (pc : Nat) (req : Nat) : exec (.hbmArbStarve m pc req) s = execHbmArbStarve m pc req s := rfl
theorem exec_refreshOwedTick (m : Nat) : exec (.refreshOwedTick m) s = execRefreshOwedTick m s := rfl
theorem exec_perBankRefresh (m : Nat) (pc : Nat) (bank : Nat) : exec (.perBankRefresh m pc bank) s = execPerBankRefresh m pc bank s := rfl
theorem exec_refreshEmergency (m : Nat) (pc : Nat) (bank : Nat) : exec (.refreshEmergency m pc bank) s = execRefreshEmergency m pc bank s := rfl
theorem exec_hbmTempRead (m : Nat) (temp : Nat) : exec (.hbmTempRead m temp) s = execHbmTempRead m temp s := rfl
theorem exec_rowHammerThrottleEnd (m : Nat) (pc : Nat) (req : Nat) : exec (.rowHammerThrottleEnd m pc req) s = execRowHammerThrottleEnd m pc req s := rfl
theorem exec_rowHammerWindow (m : Nat) : exec (.rowHammerWindow m) s = execRowHammerWindow m s := rfl
theorem exec_hbmTrain (src : Source) (m : Nat) (data : Word) : exec (.hbmTrain src m data) s = execHbmTrain src m data s := rfl
theorem exec_trainingStepComplete (m : Nat) (pc : Nat) (pass : Bool) : exec (.trainingStepComplete m pc pass) s = execTrainingStepComplete m pc pass s := rfl
theorem exec_hbmFreq (src : Source) (m : Nat) (data : Word) : exec (.hbmFreq src m data) s = execHbmFreq src m data s := rfl
theorem exec_freqChangeStart (m : Nat) : exec (.freqChangeStart m) s = execFreqChangeStart m s := rfl
theorem exec_freqChangeComplete (m : Nat) : exec (.freqChangeComplete m) s = execFreqChangeComplete m s := rfl
theorem exec_selfRefreshEnter (src : Source) (m : Nat) : exec (.selfRefreshEnter src m) s = execSelfRefreshEnter src m s := rfl
theorem exec_selfRefreshExit (src : Source) (m : Nat) : exec (.selfRefreshExit src m) s = execSelfRefreshExit src m s := rfl
theorem exec_selfRefreshEntryComplete (m : Nat) : exec (.selfRefreshEntryComplete m) s = execSelfRefreshEntryComplete m s := rfl
theorem exec_selfRefreshExitComplete (m : Nat) : exec (.selfRefreshExitComplete m) s = execSelfRefreshExitComplete m s := rfl
theorem exec_selfRefreshIdle (m : Nat) : exec (.selfRefreshIdle m) s = execSelfRefreshIdle m s := rfl
theorem exec_hbmRetire (src : Source) (m : Nat) (pc : Nat) : exec (.hbmRetire src m pc) s = execHbmRetire src m pc s := rfl
theorem exec_hbmRetireClear (src : Source) (m : Nat) (pc : Nat) : exec (.hbmRetireClear src m pc) s = execHbmRetireClear src m pc s := rfl
theorem exec_relocationCopyComplete (m : Nat) : exec (.relocationCopyComplete m) s = execRelocationCopyComplete m s := rfl
theorem exec_hbmPllLoss (m : Nat) : exec (.hbmPllLoss m) s = execHbmPllLoss m s := rfl
theorem exec_memFill (src : Source) (data : Word) : exec (.memFill src data) s = execMemFill src data s := rfl
theorem exec_fillComplete (u : Nat) : exec (.fillComplete u) s = execFillComplete u s := rfl
theorem exec_scrubRead (u : Nat) (ecc : Nat) (byte : Nat) (bitpos : Nat) : exec (.scrubRead u ecc byte bitpos) s = execScrubRead u ecc byte bitpos s := rfl
theorem exec_memRemap (src : Source) (data : Word) : exec (.memRemap src data) s = execMemRemap src data s := rfl
theorem exec_remapComplete (u : Nat) : exec (.remapComplete u) s = execRemapComplete u s := rfl
theorem exec_memRemapClear (src : Source) (data : Word) : exec (.memRemapClear src data) s = execMemRemapClear src data s := rfl
theorem exec_fifoSwap (f : Nat) : exec (.fifoSwap f) s = execFifoSwap f s := rfl
theorem exec_fifoFlush (src : Source) (f : Nat) : exec (.fifoFlush src f) s = execFifoFlush src f s := rfl
theorem exec_fifoFlushEffect (f : Nat) (partway : Bool) : exec (.fifoFlushEffect f partway) s = execFifoFlushEffect f partway s := rfl
theorem exec_ledgerMessageArrival (count : Nat) : exec (.ledgerMessageArrival count) s = execLedgerMessageArrival count s := rfl
theorem exec_ledgerRecordWrite : exec (.ledgerRecordWrite) s = execLedgerRecordWrite s := rfl
theorem exec_ledgerRecordsLost : exec (.ledgerRecordsLost) s = execLedgerRecordsLost s := rfl
theorem exec_conditionCleared (source : Nat) (kind : Nat) : exec (.conditionCleared source kind) s = execConditionCleared source kind s := rfl
theorem exec_reactionBlockReset : exec (.reactionBlockReset) s = execReactionBlockReset s := rfl
theorem exec_reactionChipReset : exec (.reactionChipReset) s = execReactionChipReset s := rfl
theorem exec_journalWrite : exec (.journalWrite) s = execJournalWrite s := rfl
theorem exec_errnRelease (src : Source) : exec (.errnRelease src) s = execErrnRelease src s := rfl
theorem exec_injectionArm (src : Source) (data : Word) : exec (.injectionArm src data) s = execInjectionArm src data s := rfl
theorem exec_injectionDisarm (src : Source) : exec (.injectionDisarm src) s = execInjectionDisarm src s := rfl
theorem exec_latchkeyTake (src : Source) (key : Nat) : exec (.latchkeyTake src key) s = execLatchkeyTake src key s := rfl
theorem exec_latchkeyRelease (src : Source) (key : Nat) : exec (.latchkeyRelease src key) s = execLatchkeyRelease src key s := rfl
theorem exec_latchkeySuspectClear (src : Source) (key : Nat) : exec (.latchkeySuspectClear src key) s = execLatchkeySuspectClear src key s := rfl
theorem exec_latchkeyBreak (src : Source) (data : Word) : exec (.latchkeyBreak src data) s = execLatchkeyBreak src data s := rfl
theorem exec_sleepEntry (sl : Nat) : exec (.sleepEntry sl) s = execSleepEntry sl s := rfl
theorem exec_sleepEntryComplete (sl : Nat) : exec (.sleepEntryComplete sl) s = execSleepEntryComplete sl s := rfl
theorem exec_sliceWake (sl : Nat) : exec (.sliceWake sl) s = execSliceWake sl s := rfl
theorem exec_wakeCmd (src : Source) (mask : Nat) : exec (.wakeCmd src mask) s = execWakeCmd src mask s := rfl
theorem exec_wakeComplete (sl : Nat) : exec (.wakeComplete sl) s = execWakeComplete sl s := rfl
theorem exec_pllPrimaryTimeout (sl : Nat) : exec (.pllPrimaryTimeout sl) s = execPllPrimaryTimeout sl s := rfl
theorem exec_wakeBackupTimeout (sl : Nat) : exec (.wakeBackupTimeout sl) s = execWakeBackupTimeout sl s := rfl
theorem exec_nightWindowStart : exec (.nightWindowStart) s = execNightWindowStart s := rfl
theorem exec_nightSelfRefreshEntry (m : Nat) : exec (.nightSelfRefreshEntry m) s = execNightSelfRefreshEntry m s := rfl
theorem exec_selfRefreshRetry (m : Nat) : exec (.selfRefreshRetry m) s = execSelfRefreshRetry m s := rfl
theorem exec_nightWindowEnd : exec (.nightWindowEnd) s = execNightWindowEnd s := rfl
theorem exec_avsStep : exec (.avsStep) s = execAvsStep s := rfl
theorem exec_avsVerify (readback : PmbusAnswer) : exec (.avsVerify readback) s = execAvsVerify readback s := rfl
theorem exec_ageingMonitorRead (values : List Nat) : exec (.ageingMonitorRead values) s = execAgeingMonitorRead values s := rfl
theorem exec_replan : exec (.replan) s = execReplan s := rfl
theorem exec_replanItem (item : Nat) : exec (.replanItem item) s = execReplanItem item s := rfl
theorem exec_thermalSample (temps : List Nat) : exec (.thermalSample temps) s = execThermalSample temps s := rfl
theorem exec_supplySag (rail : Nat) : exec (.supplySag rail) s = execSupplySag rail s := rfl
theorem exec_keepsakeWritesResume : exec (.keepsakeWritesResume) s = execKeepsakeWritesResume s := rfl
theorem exec_keepsakeRead (src : Source) : exec (.keepsakeRead src) s = execKeepsakeRead src s := rfl
theorem exec_keepsakeWrite (src : Source) : exec (.keepsakeWrite src) s = execKeepsakeWrite src s := rfl
theorem exec_keepsakeLineWrite : exec (.keepsakeLineWrite) s = execKeepsakeLineWrite s := rfl
theorem exec_bar0MalformedAccess (src : Source) (addr : Nat) (size : Nat) (write : Bool) : exec (.bar0MalformedAccess src addr size write) s = execBar0MalformedAccess src addr size write s := rfl
theorem exec_vfAccessDenied (n : Nat) (addr : Nat) (write : Bool) : exec (.vfAccessDenied n addr write) s = execVfAccessDenied n addr write s := rfl
theorem exec_pcieLinkDown : exec (.pcieLinkDown) s = execPcieLinkDown s := rfl
theorem exec_pcieLinkUp : exec .pcieLinkUp s = execPcieLinkUp s := rfl
theorem exec_vfFlr (n : Nat) : exec (.vfFlr n) s = execVfFlr n s := rfl
theorem exec_irqLineRise (g : Nat) : exec (.irqLineRise g) s = execIrqLineRise g s := rfl
theorem exec_irqRearm (src : Source) (data : Word) : exec (.irqRearm src data) s = execIrqRearm src data s := rfl
theorem exec_ringEnable (src : Source) (r : Nat) (enable : Bool) : exec (.ringEnable src r enable) s = execRingEnable src r enable s := rfl
theorem exec_ringPiWrite (src : Source) (r : Nat) (pi : Nat) : exec (.ringPiWrite src r pi) s = execRingPiWrite src r pi s := rfl
theorem exec_ringCiWrite (src : Source) (r : Nat) (ci : Nat) : exec (.ringCiWrite src r ci) s = execRingCiWrite src r ci s := rfl
theorem exec_ringIrqModeration (r : Nat) : exec (.ringIrqModeration r) s = execRingIrqModeration r s := rfl
theorem exec_puntWrite (sl : Nat) (descs : List Descriptor) : exec (.puntWrite sl descs) s = execPuntWrite sl descs s := rfl
theorem exec_injectDescriptorFetch (r : Nat) (desc : Option Descriptor) : exec (.injectDescriptorFetch r desc) s = execInjectDescriptorFetch r desc s := rfl
theorem exec_injectFrameRead (r : Nat) (bytes : Option (List Byte)) : exec (.injectFrameRead r bytes) s = execInjectFrameRead r bytes s := rfl
theorem exec_eventRecordWrite (f : Nat) (ecc : Nat) : exec (.eventRecordWrite f ecc) s = execEventRecordWrite f ecc s := rfl
theorem exec_coreRelease (src : Source) (core : Nat) : exec (.coreRelease src core) s = execCoreRelease src core s := rfl
theorem exec_coreHold (src : Source) (core : Nat) : exec (.coreHold src core) s = execCoreHold src core s := rfl
theorem exec_coreBusError (core : Nat) (addr : Nat) (write : Bool) : exec (.coreBusError core addr write) s = execCoreBusError core addr write s := rfl
theorem exec_watchdogKick (src : Source) (core : Nat) : exec (.watchdogKick src core) s = execWatchdogKick src core s := rfl
theorem exec_watchdogExpiry (core : Nat) : exec (.watchdogExpiry core) s = execWatchdogExpiry core s := rfl
theorem exec_mgmtFrameReceive (mac : Nat) (bytes : List Byte) (good : Bool) : exec (.mgmtFrameReceive mac bytes good) s = execMgmtFrameReceive mac bytes good s := rfl
theorem exec_mgmtFrameSend (mac : Nat) : exec (.mgmtFrameSend mac) s = execMgmtFrameSend mac s := rfl
theorem exec_sweepTrigger (src : Source) (list : Nat) : exec (.sweepTrigger src list) s = execSweepTrigger src list s := rfl
theorem exec_sweepPeriodTimer (list : Nat) : exec (.sweepPeriodTimer list) s = execSweepPeriodTimer list s := rfl
theorem exec_sweepSecond : exec (.sweepSecond) s = execSweepSecond s := rfl
theorem exec_sweepStart : exec (.sweepStart) s = execSweepStart s := rfl
theorem exec_sweepComplete : exec (.sweepComplete) s = execSweepComplete s := rfl
theorem exec_serdesReferenceLoss (j : Nat) : exec (.serdesReferenceLoss j) s = execSerdesReferenceLoss j s := rfl
theorem exec_systemReferenceLoss : exec (.systemReferenceLoss) s = execSystemReferenceLoss s := rfl
theorem exec_systemPllLock : exec (.systemPllLock) s = execSystemPllLock s := rfl
theorem exec_planeLinkLock (k : Nat) (sl : Nat) : exec (.planeLinkLock k sl) s = execPlaneLinkLock k sl s := rfl
theorem exec_serdesReferenceReturn (j : Nat) : exec (.serdesReferenceReturn j) s = execSerdesReferenceReturn j s := rfl
theorem exec_gpioEdge (pin : Nat) (level : Bool) : exec (.gpioEdge pin level) s = execGpioEdge pin level s := rfl

end Sys2Proof.Machine
end

