-- ==== Sys2Proof/Laws/State.lean ====
section
/-! SUPPORT. What each basic update of the device leaves of every field of the state: one lemma per field and update, so that no proof
unfolds a record update. -/

namespace Sys2Proof.Machine

variable (c : Chip)

@[simp] theorem Chip.setReg_now (a : Nat) (v : Word) : (c.setReg a v).now = c.now := rfl
@[simp] theorem Chip.setReg_fresh (a : Nat) (v : Word) : (c.setReg a v).fresh = c.fresh := rfl
@[simp] theorem Chip.setReg_out (a : Nat) (v : Word) : (c.setReg a v).out = c.out := rfl
@[simp] theorem Chip.setReg_busData (a : Nat) (v : Word) : (c.setReg a v).busData = c.busData := rfl
@[simp] theorem Chip.setReg_staged (a : Nat) (v : Word) : (c.setReg a v).staged = c.staged := rfl
@[simp] theorem Chip.setReg_since (a : Nat) (v : Word) : (c.setReg a v).since = c.since := rfl
@[simp] theorem Chip.setReg_applies (a : Nat) (v : Word) : (c.setReg a v).applies = c.applies := rfl
@[simp] theorem Chip.setReg_power (a : Nat) (v : Word) : (c.setReg a v).power = c.power := rfl
@[simp] theorem Chip.setReg_rst (a : Nat) (v : Word) : (c.setReg a v).rst = c.rst := rfl
@[simp] theorem Chip.setReg_image (a : Nat) (v : Word) : (c.setReg a v).image = c.image := rfl
@[simp] theorem Chip.setReg_room (a : Nat) (v : Word) : (c.setReg a v).room = c.room := rfl
@[simp] theorem Chip.setReg_ledger (a : Nat) (v : Word) : (c.setReg a v).ledger = c.ledger := rfl
@[simp] theorem Chip.setReg_fifos (a : Nat) (v : Word) : (c.setReg a v).fifos = c.fifos := rfl
@[simp] theorem Chip.setReg_tbs (a : Nat) (v : Word) : (c.setReg a v).tbs = c.tbs := rfl
@[simp] theorem Chip.setReg_pps (a : Nat) (v : Word) : (c.setReg a v).pps = c.pps := rfl
@[simp] theorem Chip.setReg_accord (a : Nat) (v : Word) : (c.setReg a v).accord = c.accord := rfl
@[simp] theorem Chip.setReg_house (a : Nat) (v : Word) : (c.setReg a v).house = c.house := rfl
@[simp] theorem Chip.setReg_mem (a : Nat) (v : Word) : (c.setReg a v).mem = c.mem := rfl
@[simp] theorem Chip.setReg_host (a : Nat) (v : Word) : (c.setReg a v).host = c.host := rfl
@[simp] theorem Chip.setReg_sweep (a : Nat) (v : Word) : (c.setReg a v).sweep = c.sweep := rfl
@[simp] theorem Chip.setReg_wins (a : Nat) (v : Word) : (c.setReg a v).wins = c.wins := rfl
@[simp] theorem Chip.setReg_em (a : Nat) (v : Word) : (c.setReg a v).em = c.em := rfl
@[simp] theorem Chip.setReg_lpm (a : Nat) (v : Word) : (c.setReg a v).lpm = c.lpm := rfl
@[simp] theorem Chip.setReg_tcam (a : Nat) (v : Word) : (c.setReg a v).tcam = c.tcam := rfl
@[simp] theorem Chip.setReg_store (a : Nat) (v : Word) : (c.setReg a v).store = c.store := rfl
@[simp] theorem Chip.setReg_porters (a : Nat) (v : Word) : (c.setReg a v).porters = c.porters := rfl
@[simp] theorem Chip.setReg_fronts (a : Nat) (v : Word) : (c.setReg a v).fronts = c.fronts := rfl
@[simp] theorem Chip.setReg_ports (a : Nat) (v : Word) : (c.setReg a v).ports = c.ports := rfl
@[simp] theorem Chip.setReg_nextId (a : Nat) (v : Word) : (c.setReg a v).nextId = c.nextId := rfl
@[simp] theorem Chip.setReg_frames (a : Nat) (v : Word) : (c.setReg a v).frames = c.frames := rfl
@[simp] theorem Chip.setReg_tails (a : Nat) (v : Word) : (c.setReg a v).tails = c.tails := rfl
@[simp] theorem Chip.setReg_streams (a : Nat) (v : Word) : (c.setReg a v).streams = c.streams := rfl
@[simp] theorem Chip.setReg_arrivals (a : Nat) (v : Word) : (c.setReg a v).arrivals = c.arrivals := rfl
@[simp] theorem Chip.setReg_copies (a : Nat) (v : Word) : (c.setReg a v).copies = c.copies := rfl
@[simp] theorem Chip.setReg_links (a : Nat) (v : Word) : (c.setReg a v).links = c.links := rfl
@[simp] theorem Chip.setReg_fecAlarm (a : Nat) (v : Word) : (c.setReg a v).fecAlarm = c.fecAlarm := rfl
@[simp] theorem Chip.setReg_planes (a : Nat) (v : Word) : (c.setReg a v).planes = c.planes := rfl
@[simp] theorem Chip.setReg_barriersDue (a : Nat) (v : Word) : (c.setReg a v).barriersDue = c.barriersDue := rfl
@[simp] theorem Chip.setReg_awaited (a : Nat) (v : Word) : (c.setReg a v).awaited = c.awaited := rfl
@[simp] theorem Chip.setReg_heldCells (a : Nat) (v : Word) : (c.setReg a v).heldCells = c.heldCells := rfl
@[simp] theorem Chip.setReg_heldSince (a : Nat) (v : Word) : (c.setReg a v).heldSince = c.heldSince := rfl
@[simp] theorem Chip.setReg_objects (a : Nat) (v : Word) : (c.setReg a v).objects = c.objects := rfl
@[simp] theorem Chip.setReg_records (a : Nat) (v : Word) : (c.setReg a v).records = c.records := rfl
@[simp] theorem Chip.setReg_scheds (a : Nat) (v : Word) : (c.setReg a v).scheds = c.scheds := rfl
@[simp] theorem Chip.setReg_innkeepers (a : Nat) (v : Word) : (c.setReg a v).innkeepers = c.innkeepers := rfl
@[simp] theorem Chip.setReg_hbms (a : Nat) (v : Word) : (c.setReg a v).hbms = c.hbms := rfl

@[simp] theorem Chip.put_now (b : Nat) (f : Fld) (n : Nat) : (c.put b f n).now = c.now := rfl
@[simp] theorem Chip.put_fresh (b : Nat) (f : Fld) (n : Nat) : (c.put b f n).fresh = c.fresh := rfl
@[simp] theorem Chip.put_out (b : Nat) (f : Fld) (n : Nat) : (c.put b f n).out = c.out := rfl
@[simp] theorem Chip.put_busData (b : Nat) (f : Fld) (n : Nat) : (c.put b f n).busData = c.busData := rfl
@[simp] theorem Chip.put_staged (b : Nat) (f : Fld) (n : Nat) : (c.put b f n).staged = c.staged := rfl
@[simp] theorem Chip.put_since (b : Nat) (f : Fld) (n : Nat) : (c.put b f n).since = c.since := rfl
@[simp] theorem Chip.put_applies (b : Nat) (f : Fld) (n : Nat) : (c.put b f n).applies = c.applies := rfl
@[simp] theorem Chip.put_power (b : Nat) (f : Fld) (n : Nat) : (c.put b f n).power = c.power := rfl
@[simp] theorem Chip.put_rst (b : Nat) (f : Fld) (n : Nat) : (c.put b f n).rst = c.rst := rfl
@[simp] theorem Chip.put_image (b : Nat) (f : Fld) (n : Nat) : (c.put b f n).image = c.image := rfl
@[simp] theorem Chip.put_room (b : Nat) (f : Fld) (n : Nat) : (c.put b f n).room = c.room := rfl
@[simp] theorem Chip.put_ledger (b : Nat) (f : Fld) (n : Nat) : (c.put b f n).ledger = c.ledger := rfl
@[simp] theorem Chip.put_fifos (b : Nat) (f : Fld) (n : Nat) : (c.put b f n).fifos = c.fifos := rfl
@[simp] theorem Chip.put_tbs (b : Nat) (f : Fld) (n : Nat) : (c.put b f n).tbs = c.tbs := rfl
@[simp] theorem Chip.put_pps (b : Nat) (f : Fld) (n : Nat) : (c.put b f n).pps = c.pps := rfl
@[simp] theorem Chip.put_accord (b : Nat) (f : Fld) (n : Nat) : (c.put b f n).accord = c.accord := rfl
@[simp] theorem Chip.put_house (b : Nat) (f : Fld) (n : Nat) : (c.put b f n).house = c.house := rfl
@[simp] theorem Chip.put_mem (b : Nat) (f : Fld) (n : Nat) : (c.put b f n).mem = c.mem := rfl
@[simp] theorem Chip.put_host (b : Nat) (f : Fld) (n : Nat) : (c.put b f n).host = c.host := rfl
@[simp] theorem Chip.put_sweep (b : Nat) (f : Fld) (n : Nat) : (c.put b f n).sweep = c.sweep := rfl
@[simp] theorem Chip.put_wins (b : Nat) (f : Fld) (n : Nat) : (c.put b f n).wins = c.wins := rfl
@[simp] theorem Chip.put_em (b : Nat) (f : Fld) (n : Nat) : (c.put b f n).em = c.em := rfl
@[simp] theorem Chip.put_lpm (b : Nat) (f : Fld) (n : Nat) : (c.put b f n).lpm = c.lpm := rfl
@[simp] theorem Chip.put_tcam (b : Nat) (f : Fld) (n : Nat) : (c.put b f n).tcam = c.tcam := rfl
@[simp] theorem Chip.put_store (b : Nat) (f : Fld) (n : Nat) : (c.put b f n).store = c.store := rfl
@[simp] theorem Chip.put_porters (b : Nat) (f : Fld) (n : Nat) : (c.put b f n).porters = c.porters := rfl
@[simp] theorem Chip.put_fronts (b : Nat) (f : Fld) (n : Nat) : (c.put b f n).fronts = c.fronts := rfl
@[simp] theorem Chip.put_ports (b : Nat) (f : Fld) (n : Nat) : (c.put b f n).ports = c.ports := rfl
@[simp] theorem Chip.put_nextId (b : Nat) (f : Fld) (n : Nat) : (c.put b f n).nextId = c.nextId := rfl
@[simp] theorem Chip.put_frames (b : Nat) (f : Fld) (n : Nat) : (c.put b f n).frames = c.frames := rfl
@[simp] theorem Chip.put_tails (b : Nat) (f : Fld) (n : Nat) : (c.put b f n).tails = c.tails := rfl
@[simp] theorem Chip.put_streams (b : Nat) (f : Fld) (n : Nat) : (c.put b f n).streams = c.streams := rfl
@[simp] theorem Chip.put_arrivals (b : Nat) (f : Fld) (n : Nat) : (c.put b f n).arrivals = c.arrivals := rfl
@[simp] theorem Chip.put_copies (b : Nat) (f : Fld) (n : Nat) : (c.put b f n).copies = c.copies := rfl
@[simp] theorem Chip.put_links (b : Nat) (f : Fld) (n : Nat) : (c.put b f n).links = c.links := rfl
@[simp] theorem Chip.put_fecAlarm (b : Nat) (f : Fld) (n : Nat) : (c.put b f n).fecAlarm = c.fecAlarm := rfl
@[simp] theorem Chip.put_planes (b : Nat) (f : Fld) (n : Nat) : (c.put b f n).planes = c.planes := rfl
@[simp] theorem Chip.put_barriersDue (b : Nat) (f : Fld) (n : Nat) : (c.put b f n).barriersDue = c.barriersDue := rfl
@[simp] theorem Chip.put_awaited (b : Nat) (f : Fld) (n : Nat) : (c.put b f n).awaited = c.awaited := rfl
@[simp] theorem Chip.put_heldCells (b : Nat) (f : Fld) (n : Nat) : (c.put b f n).heldCells = c.heldCells := rfl
@[simp] theorem Chip.put_heldSince (b : Nat) (f : Fld) (n : Nat) : (c.put b f n).heldSince = c.heldSince := rfl
@[simp] theorem Chip.put_objects (b : Nat) (f : Fld) (n : Nat) : (c.put b f n).objects = c.objects := rfl
@[simp] theorem Chip.put_records (b : Nat) (f : Fld) (n : Nat) : (c.put b f n).records = c.records := rfl
@[simp] theorem Chip.put_scheds (b : Nat) (f : Fld) (n : Nat) : (c.put b f n).scheds = c.scheds := rfl
@[simp] theorem Chip.put_innkeepers (b : Nat) (f : Fld) (n : Nat) : (c.put b f n).innkeepers = c.innkeepers := rfl
@[simp] theorem Chip.put_hbms (b : Nat) (f : Fld) (n : Nat) : (c.put b f n).hbms = c.hbms := rfl

@[simp] theorem Chip.cnt_now (a n : Nat) : (c.cnt a n).now = c.now := rfl
@[simp] theorem Chip.cnt_fresh (a n : Nat) : (c.cnt a n).fresh = c.fresh := rfl
@[simp] theorem Chip.cnt_out (a n : Nat) : (c.cnt a n).out = c.out := rfl
@[simp] theorem Chip.cnt_busData (a n : Nat) : (c.cnt a n).busData = c.busData := rfl
@[simp] theorem Chip.cnt_staged (a n : Nat) : (c.cnt a n).staged = c.staged := rfl
@[simp] theorem Chip.cnt_since (a n : Nat) : (c.cnt a n).since = c.since := rfl
@[simp] theorem Chip.cnt_applies (a n : Nat) : (c.cnt a n).applies = c.applies := rfl
@[simp] theorem Chip.cnt_power (a n : Nat) : (c.cnt a n).power = c.power := rfl
@[simp] theorem Chip.cnt_rst (a n : Nat) : (c.cnt a n).rst = c.rst := rfl
@[simp] theorem Chip.cnt_image (a n : Nat) : (c.cnt a n).image = c.image := rfl
@[simp] theorem Chip.cnt_room (a n : Nat) : (c.cnt a n).room = c.room := rfl
@[simp] theorem Chip.cnt_ledger (a n : Nat) : (c.cnt a n).ledger = c.ledger := rfl
@[simp] theorem Chip.cnt_fifos (a n : Nat) : (c.cnt a n).fifos = c.fifos := rfl
@[simp] theorem Chip.cnt_tbs (a n : Nat) : (c.cnt a n).tbs = c.tbs := rfl
@[simp] theorem Chip.cnt_pps (a n : Nat) : (c.cnt a n).pps = c.pps := rfl
@[simp] theorem Chip.cnt_accord (a n : Nat) : (c.cnt a n).accord = c.accord := rfl
@[simp] theorem Chip.cnt_house (a n : Nat) : (c.cnt a n).house = c.house := rfl
@[simp] theorem Chip.cnt_mem (a n : Nat) : (c.cnt a n).mem = c.mem := rfl
@[simp] theorem Chip.cnt_host (a n : Nat) : (c.cnt a n).host = c.host := rfl
@[simp] theorem Chip.cnt_sweep (a n : Nat) : (c.cnt a n).sweep = c.sweep := rfl
@[simp] theorem Chip.cnt_wins (a n : Nat) : (c.cnt a n).wins = c.wins := rfl
@[simp] theorem Chip.cnt_em (a n : Nat) : (c.cnt a n).em = c.em := rfl
@[simp] theorem Chip.cnt_lpm (a n : Nat) : (c.cnt a n).lpm = c.lpm := rfl
@[simp] theorem Chip.cnt_tcam (a n : Nat) : (c.cnt a n).tcam = c.tcam := rfl
@[simp] theorem Chip.cnt_store (a n : Nat) : (c.cnt a n).store = c.store := rfl
@[simp] theorem Chip.cnt_porters (a n : Nat) : (c.cnt a n).porters = c.porters := rfl
@[simp] theorem Chip.cnt_fronts (a n : Nat) : (c.cnt a n).fronts = c.fronts := rfl
@[simp] theorem Chip.cnt_ports (a n : Nat) : (c.cnt a n).ports = c.ports := rfl
@[simp] theorem Chip.cnt_nextId (a n : Nat) : (c.cnt a n).nextId = c.nextId := rfl
@[simp] theorem Chip.cnt_frames (a n : Nat) : (c.cnt a n).frames = c.frames := rfl
@[simp] theorem Chip.cnt_tails (a n : Nat) : (c.cnt a n).tails = c.tails := rfl
@[simp] theorem Chip.cnt_streams (a n : Nat) : (c.cnt a n).streams = c.streams := rfl
@[simp] theorem Chip.cnt_arrivals (a n : Nat) : (c.cnt a n).arrivals = c.arrivals := rfl
@[simp] theorem Chip.cnt_copies (a n : Nat) : (c.cnt a n).copies = c.copies := rfl
@[simp] theorem Chip.cnt_links (a n : Nat) : (c.cnt a n).links = c.links := rfl
@[simp] theorem Chip.cnt_fecAlarm (a n : Nat) : (c.cnt a n).fecAlarm = c.fecAlarm := rfl
@[simp] theorem Chip.cnt_planes (a n : Nat) : (c.cnt a n).planes = c.planes := rfl
@[simp] theorem Chip.cnt_barriersDue (a n : Nat) : (c.cnt a n).barriersDue = c.barriersDue := rfl
@[simp] theorem Chip.cnt_awaited (a n : Nat) : (c.cnt a n).awaited = c.awaited := rfl
@[simp] theorem Chip.cnt_heldCells (a n : Nat) : (c.cnt a n).heldCells = c.heldCells := rfl
@[simp] theorem Chip.cnt_heldSince (a n : Nat) : (c.cnt a n).heldSince = c.heldSince := rfl
@[simp] theorem Chip.cnt_objects (a n : Nat) : (c.cnt a n).objects = c.objects := rfl
@[simp] theorem Chip.cnt_records (a n : Nat) : (c.cnt a n).records = c.records := rfl
@[simp] theorem Chip.cnt_scheds (a n : Nat) : (c.cnt a n).scheds = c.scheds := rfl
@[simp] theorem Chip.cnt_innkeepers (a n : Nat) : (c.cnt a n).innkeepers = c.innkeepers := rfl
@[simp] theorem Chip.cnt_hbms (a n : Nat) : (c.cnt a n).hbms = c.hbms := rfl

@[simp] theorem Chip.emit_now (o : Out) : (c.emit o).now = c.now := rfl
@[simp] theorem Chip.emit_fresh (o : Out) : (c.emit o).fresh = c.fresh := rfl
@[simp] theorem Chip.emit_busData (o : Out) : (c.emit o).busData = c.busData := rfl
@[simp] theorem Chip.emit_regs (o : Out) : (c.emit o).regs = c.regs := rfl
@[simp] theorem Chip.emit_staged (o : Out) : (c.emit o).staged = c.staged := rfl
@[simp] theorem Chip.emit_since (o : Out) : (c.emit o).since = c.since := rfl
@[simp] theorem Chip.emit_applies (o : Out) : (c.emit o).applies = c.applies := rfl
@[simp] theorem Chip.emit_power (o : Out) : (c.emit o).power = c.power := rfl
@[simp] theorem Chip.emit_rst (o : Out) : (c.emit o).rst = c.rst := rfl
@[simp] theorem Chip.emit_image (o : Out) : (c.emit o).image = c.image := rfl
@[simp] theorem Chip.emit_room (o : Out) : (c.emit o).room = c.room := rfl
@[simp] theorem Chip.emit_ledger (o : Out) : (c.emit o).ledger = c.ledger := rfl
@[simp] theorem Chip.emit_fifos (o : Out) : (c.emit o).fifos = c.fifos := rfl
@[simp] theorem Chip.emit_tbs (o : Out) : (c.emit o).tbs = c.tbs := rfl
@[simp] theorem Chip.emit_pps (o : Out) : (c.emit o).pps = c.pps := rfl
@[simp] theorem Chip.emit_accord (o : Out) : (c.emit o).accord = c.accord := rfl
@[simp] theorem Chip.emit_house (o : Out) : (c.emit o).house = c.house := rfl
@[simp] theorem Chip.emit_mem (o : Out) : (c.emit o).mem = c.mem := rfl
@[simp] theorem Chip.emit_host (o : Out) : (c.emit o).host = c.host := rfl
@[simp] theorem Chip.emit_sweep (o : Out) : (c.emit o).sweep = c.sweep := rfl
@[simp] theorem Chip.emit_wins (o : Out) : (c.emit o).wins = c.wins := rfl
@[simp] theorem Chip.emit_em (o : Out) : (c.emit o).em = c.em := rfl
@[simp] theorem Chip.emit_lpm (o : Out) : (c.emit o).lpm = c.lpm := rfl
@[simp] theorem Chip.emit_tcam (o : Out) : (c.emit o).tcam = c.tcam := rfl
@[simp] theorem Chip.emit_store (o : Out) : (c.emit o).store = c.store := rfl
@[simp] theorem Chip.emit_porters (o : Out) : (c.emit o).porters = c.porters := rfl
@[simp] theorem Chip.emit_fronts (o : Out) : (c.emit o).fronts = c.fronts := rfl
@[simp] theorem Chip.emit_ports (o : Out) : (c.emit o).ports = c.ports := rfl
@[simp] theorem Chip.emit_nextId (o : Out) : (c.emit o).nextId = c.nextId := rfl
@[simp] theorem Chip.emit_frames (o : Out) : (c.emit o).frames = c.frames := rfl
@[simp] theorem Chip.emit_tails (o : Out) : (c.emit o).tails = c.tails := rfl
@[simp] theorem Chip.emit_streams (o : Out) : (c.emit o).streams = c.streams := rfl
@[simp] theorem Chip.emit_arrivals (o : Out) : (c.emit o).arrivals = c.arrivals := rfl
@[simp] theorem Chip.emit_copies (o : Out) : (c.emit o).copies = c.copies := rfl
@[simp] theorem Chip.emit_links (o : Out) : (c.emit o).links = c.links := rfl
@[simp] theorem Chip.emit_fecAlarm (o : Out) : (c.emit o).fecAlarm = c.fecAlarm := rfl
@[simp] theorem Chip.emit_planes (o : Out) : (c.emit o).planes = c.planes := rfl
@[simp] theorem Chip.emit_barriersDue (o : Out) : (c.emit o).barriersDue = c.barriersDue := rfl
@[simp] theorem Chip.emit_awaited (o : Out) : (c.emit o).awaited = c.awaited := rfl
@[simp] theorem Chip.emit_heldCells (o : Out) : (c.emit o).heldCells = c.heldCells := rfl
@[simp] theorem Chip.emit_heldSince (o : Out) : (c.emit o).heldSince = c.heldSince := rfl
@[simp] theorem Chip.emit_objects (o : Out) : (c.emit o).objects = c.objects := rfl
@[simp] theorem Chip.emit_records (o : Out) : (c.emit o).records = c.records := rfl
@[simp] theorem Chip.emit_scheds (o : Out) : (c.emit o).scheds = c.scheds := rfl
@[simp] theorem Chip.emit_innkeepers (o : Out) : (c.emit o).innkeepers = c.innkeepers := rfl
@[simp] theorem Chip.emit_hbms (o : Out) : (c.emit o).hbms = c.hbms := rfl

@[simp] theorem Chip.report_now (u k v a : Nat) (i : Bool) : (c.report u k v a i).now = c.now := rfl
@[simp] theorem Chip.report_fresh (u k v a : Nat) (i : Bool) : (c.report u k v a i).fresh = c.fresh := rfl
@[simp] theorem Chip.report_out (u k v a : Nat) (i : Bool) : (c.report u k v a i).out = c.out := rfl
@[simp] theorem Chip.report_busData (u k v a : Nat) (i : Bool) : (c.report u k v a i).busData = c.busData := rfl
@[simp] theorem Chip.report_regs (u k v a : Nat) (i : Bool) : (c.report u k v a i).regs = c.regs := rfl
@[simp] theorem Chip.report_staged (u k v a : Nat) (i : Bool) : (c.report u k v a i).staged = c.staged := rfl
@[simp] theorem Chip.report_since (u k v a : Nat) (i : Bool) : (c.report u k v a i).since = c.since := rfl
@[simp] theorem Chip.report_applies (u k v a : Nat) (i : Bool) : (c.report u k v a i).applies = c.applies := rfl
@[simp] theorem Chip.report_power (u k v a : Nat) (i : Bool) : (c.report u k v a i).power = c.power := rfl
@[simp] theorem Chip.report_rst (u k v a : Nat) (i : Bool) : (c.report u k v a i).rst = c.rst := rfl
@[simp] theorem Chip.report_image (u k v a : Nat) (i : Bool) : (c.report u k v a i).image = c.image := rfl
@[simp] theorem Chip.report_room (u k v a : Nat) (i : Bool) : (c.report u k v a i).room = c.room := rfl
@[simp] theorem Chip.report_fifos (u k v a : Nat) (i : Bool) : (c.report u k v a i).fifos = c.fifos := rfl
@[simp] theorem Chip.report_tbs (u k v a : Nat) (i : Bool) : (c.report u k v a i).tbs = c.tbs := rfl
@[simp] theorem Chip.report_pps (u k v a : Nat) (i : Bool) : (c.report u k v a i).pps = c.pps := rfl
@[simp] theorem Chip.report_accord (u k v a : Nat) (i : Bool) : (c.report u k v a i).accord = c.accord := rfl
@[simp] theorem Chip.report_house (u k v a : Nat) (i : Bool) : (c.report u k v a i).house = c.house := rfl
@[simp] theorem Chip.report_mem (u k v a : Nat) (i : Bool) : (c.report u k v a i).mem = c.mem := rfl
@[simp] theorem Chip.report_host (u k v a : Nat) (i : Bool) : (c.report u k v a i).host = c.host := rfl
@[simp] theorem Chip.report_sweep (u k v a : Nat) (i : Bool) : (c.report u k v a i).sweep = c.sweep := rfl
@[simp] theorem Chip.report_wins (u k v a : Nat) (i : Bool) : (c.report u k v a i).wins = c.wins := rfl
@[simp] theorem Chip.report_em (u k v a : Nat) (i : Bool) : (c.report u k v a i).em = c.em := rfl
@[simp] theorem Chip.report_lpm (u k v a : Nat) (i : Bool) : (c.report u k v a i).lpm = c.lpm := rfl
@[simp] theorem Chip.report_tcam (u k v a : Nat) (i : Bool) : (c.report u k v a i).tcam = c.tcam := rfl
@[simp] theorem Chip.report_store (u k v a : Nat) (i : Bool) : (c.report u k v a i).store = c.store := rfl
@[simp] theorem Chip.report_porters (u k v a : Nat) (i : Bool) : (c.report u k v a i).porters = c.porters := rfl
@[simp] theorem Chip.report_fronts (u k v a : Nat) (i : Bool) : (c.report u k v a i).fronts = c.fronts := rfl
@[simp] theorem Chip.report_ports (u k v a : Nat) (i : Bool) : (c.report u k v a i).ports = c.ports := rfl
@[simp] theorem Chip.report_nextId (u k v a : Nat) (i : Bool) : (c.report u k v a i).nextId = c.nextId := rfl
@[simp] theorem Chip.report_frames (u k v a : Nat) (i : Bool) : (c.report u k v a i).frames = c.frames := rfl
@[simp] theorem Chip.report_tails (u k v a : Nat) (i : Bool) : (c.report u k v a i).tails = c.tails := rfl
@[simp] theorem Chip.report_streams (u k v a : Nat) (i : Bool) : (c.report u k v a i).streams = c.streams := rfl
@[simp] theorem Chip.report_arrivals (u k v a : Nat) (i : Bool) : (c.report u k v a i).arrivals = c.arrivals := rfl
@[simp] theorem Chip.report_copies (u k v a : Nat) (i : Bool) : (c.report u k v a i).copies = c.copies := rfl
@[simp] theorem Chip.report_links (u k v a : Nat) (i : Bool) : (c.report u k v a i).links = c.links := rfl
@[simp] theorem Chip.report_fecAlarm (u k v a : Nat) (i : Bool) : (c.report u k v a i).fecAlarm = c.fecAlarm := rfl
@[simp] theorem Chip.report_planes (u k v a : Nat) (i : Bool) : (c.report u k v a i).planes = c.planes := rfl
@[simp] theorem Chip.report_barriersDue (u k v a : Nat) (i : Bool) : (c.report u k v a i).barriersDue = c.barriersDue := rfl
@[simp] theorem Chip.report_awaited (u k v a : Nat) (i : Bool) : (c.report u k v a i).awaited = c.awaited := rfl
@[simp] theorem Chip.report_heldCells (u k v a : Nat) (i : Bool) : (c.report u k v a i).heldCells = c.heldCells := rfl
@[simp] theorem Chip.report_heldSince (u k v a : Nat) (i : Bool) : (c.report u k v a i).heldSince = c.heldSince := rfl
@[simp] theorem Chip.report_objects (u k v a : Nat) (i : Bool) : (c.report u k v a i).objects = c.objects := rfl
@[simp] theorem Chip.report_records (u k v a : Nat) (i : Bool) : (c.report u k v a i).records = c.records := rfl
@[simp] theorem Chip.report_scheds (u k v a : Nat) (i : Bool) : (c.report u k v a i).scheds = c.scheds := rfl
@[simp] theorem Chip.report_innkeepers (u k v a : Nat) (i : Bool) : (c.report u k v a i).innkeepers = c.innkeepers := rfl
@[simp] theorem Chip.report_hbms (u k v a : Nat) (i : Bool) : (c.report u k v a i).hbms = c.hbms := rfl

@[simp] theorem Chip.endCond_now (u k : Nat) : (c.endCond u k).now = c.now := rfl
@[simp] theorem Chip.endCond_fresh (u k : Nat) : (c.endCond u k).fresh = c.fresh := rfl
@[simp] theorem Chip.endCond_out (u k : Nat) : (c.endCond u k).out = c.out := rfl
@[simp] theorem Chip.endCond_busData (u k : Nat) : (c.endCond u k).busData = c.busData := rfl
@[simp] theorem Chip.endCond_regs (u k : Nat) : (c.endCond u k).regs = c.regs := rfl
@[simp] theorem Chip.endCond_staged (u k : Nat) : (c.endCond u k).staged = c.staged := rfl
@[simp] theorem Chip.endCond_since (u k : Nat) : (c.endCond u k).since = c.since := rfl
@[simp] theorem Chip.endCond_applies (u k : Nat) : (c.endCond u k).applies = c.applies := rfl
@[simp] theorem Chip.endCond_power (u k : Nat) : (c.endCond u k).power = c.power := rfl
@[simp] theorem Chip.endCond_rst (u k : Nat) : (c.endCond u k).rst = c.rst := rfl
@[simp] theorem Chip.endCond_image (u k : Nat) : (c.endCond u k).image = c.image := rfl
@[simp] theorem Chip.endCond_room (u k : Nat) : (c.endCond u k).room = c.room := rfl
@[simp] theorem Chip.endCond_fifos (u k : Nat) : (c.endCond u k).fifos = c.fifos := rfl
@[simp] theorem Chip.endCond_tbs (u k : Nat) : (c.endCond u k).tbs = c.tbs := rfl
@[simp] theorem Chip.endCond_pps (u k : Nat) : (c.endCond u k).pps = c.pps := rfl
@[simp] theorem Chip.endCond_accord (u k : Nat) : (c.endCond u k).accord = c.accord := rfl
@[simp] theorem Chip.endCond_house (u k : Nat) : (c.endCond u k).house = c.house := rfl
@[simp] theorem Chip.endCond_mem (u k : Nat) : (c.endCond u k).mem = c.mem := rfl
@[simp] theorem Chip.endCond_host (u k : Nat) : (c.endCond u k).host = c.host := rfl
@[simp] theorem Chip.endCond_sweep (u k : Nat) : (c.endCond u k).sweep = c.sweep := rfl
@[simp] theorem Chip.endCond_wins (u k : Nat) : (c.endCond u k).wins = c.wins := rfl
@[simp] theorem Chip.endCond_em (u k : Nat) : (c.endCond u k).em = c.em := rfl
@[simp] theorem Chip.endCond_lpm (u k : Nat) : (c.endCond u k).lpm = c.lpm := rfl
@[simp] theorem Chip.endCond_tcam (u k : Nat) : (c.endCond u k).tcam = c.tcam := rfl
@[simp] theorem Chip.endCond_store (u k : Nat) : (c.endCond u k).store = c.store := rfl
@[simp] theorem Chip.endCond_porters (u k : Nat) : (c.endCond u k).porters = c.porters := rfl
@[simp] theorem Chip.endCond_fronts (u k : Nat) : (c.endCond u k).fronts = c.fronts := rfl
@[simp] theorem Chip.endCond_ports (u k : Nat) : (c.endCond u k).ports = c.ports := rfl
@[simp] theorem Chip.endCond_nextId (u k : Nat) : (c.endCond u k).nextId = c.nextId := rfl
@[simp] theorem Chip.endCond_frames (u k : Nat) : (c.endCond u k).frames = c.frames := rfl
@[simp] theorem Chip.endCond_tails (u k : Nat) : (c.endCond u k).tails = c.tails := rfl
@[simp] theorem Chip.endCond_streams (u k : Nat) : (c.endCond u k).streams = c.streams := rfl
@[simp] theorem Chip.endCond_arrivals (u k : Nat) : (c.endCond u k).arrivals = c.arrivals := rfl
@[simp] theorem Chip.endCond_copies (u k : Nat) : (c.endCond u k).copies = c.copies := rfl
@[simp] theorem Chip.endCond_links (u k : Nat) : (c.endCond u k).links = c.links := rfl
@[simp] theorem Chip.endCond_fecAlarm (u k : Nat) : (c.endCond u k).fecAlarm = c.fecAlarm := rfl
@[simp] theorem Chip.endCond_planes (u k : Nat) : (c.endCond u k).planes = c.planes := rfl
@[simp] theorem Chip.endCond_barriersDue (u k : Nat) : (c.endCond u k).barriersDue = c.barriersDue := rfl
@[simp] theorem Chip.endCond_awaited (u k : Nat) : (c.endCond u k).awaited = c.awaited := rfl
@[simp] theorem Chip.endCond_heldCells (u k : Nat) : (c.endCond u k).heldCells = c.heldCells := rfl
@[simp] theorem Chip.endCond_heldSince (u k : Nat) : (c.endCond u k).heldSince = c.heldSince := rfl
@[simp] theorem Chip.endCond_objects (u k : Nat) : (c.endCond u k).objects = c.objects := rfl
@[simp] theorem Chip.endCond_records (u k : Nat) : (c.endCond u k).records = c.records := rfl
@[simp] theorem Chip.endCond_scheds (u k : Nat) : (c.endCond u k).scheds = c.scheds := rfl
@[simp] theorem Chip.endCond_innkeepers (u k : Nat) : (c.endCond u k).innkeepers = c.innkeepers := rfl
@[simp] theorem Chip.endCond_hbms (u k : Nat) : (c.endCond u k).hbms = c.hbms := rfl

@[simp] theorem Chip.quiet_now : (c.quiet).now = c.now := rfl
@[simp] theorem Chip.quiet_fresh : (c.quiet).fresh = c.fresh := rfl
@[simp] theorem Chip.quiet_busData : (c.quiet).busData = c.busData := rfl
@[simp] theorem Chip.quiet_regs : (c.quiet).regs = c.regs := rfl
@[simp] theorem Chip.quiet_staged : (c.quiet).staged = c.staged := rfl
@[simp] theorem Chip.quiet_since : (c.quiet).since = c.since := rfl
@[simp] theorem Chip.quiet_applies : (c.quiet).applies = c.applies := rfl
@[simp] theorem Chip.quiet_power : (c.quiet).power = c.power := rfl
@[simp] theorem Chip.quiet_rst : (c.quiet).rst = c.rst := rfl
@[simp] theorem Chip.quiet_image : (c.quiet).image = c.image := rfl
@[simp] theorem Chip.quiet_room : (c.quiet).room = c.room := rfl
@[simp] theorem Chip.quiet_ledger : (c.quiet).ledger = c.ledger := rfl
@[simp] theorem Chip.quiet_fifos : (c.quiet).fifos = c.fifos := rfl
@[simp] theorem Chip.quiet_tbs : (c.quiet).tbs = c.tbs := rfl
@[simp] theorem Chip.quiet_pps : (c.quiet).pps = c.pps := rfl
@[simp] theorem Chip.quiet_accord : (c.quiet).accord = c.accord := rfl
@[simp] theorem Chip.quiet_house : (c.quiet).house = c.house := rfl
@[simp] theorem Chip.quiet_mem : (c.quiet).mem = c.mem := rfl
@[simp] theorem Chip.quiet_host : (c.quiet).host = c.host := rfl
@[simp] theorem Chip.quiet_sweep : (c.quiet).sweep = c.sweep := rfl
@[simp] theorem Chip.quiet_wins : (c.quiet).wins = c.wins := rfl
@[simp] theorem Chip.quiet_em : (c.quiet).em = c.em := rfl
@[simp] theorem Chip.quiet_lpm : (c.quiet).lpm = c.lpm := rfl
@[simp] theorem Chip.quiet_tcam : (c.quiet).tcam = c.tcam := rfl
@[simp] theorem Chip.quiet_store : (c.quiet).store = c.store := rfl
@[simp] theorem Chip.quiet_porters : (c.quiet).porters = c.porters := rfl
@[simp] theorem Chip.quiet_fronts : (c.quiet).fronts = c.fronts := rfl
@[simp] theorem Chip.quiet_ports : (c.quiet).ports = c.ports := rfl
@[simp] theorem Chip.quiet_nextId : (c.quiet).nextId = c.nextId := rfl
@[simp] theorem Chip.quiet_frames : (c.quiet).frames = c.frames := rfl
@[simp] theorem Chip.quiet_tails : (c.quiet).tails = c.tails := rfl
@[simp] theorem Chip.quiet_streams : (c.quiet).streams = c.streams := rfl
@[simp] theorem Chip.quiet_arrivals : (c.quiet).arrivals = c.arrivals := rfl
@[simp] theorem Chip.quiet_copies : (c.quiet).copies = c.copies := rfl
@[simp] theorem Chip.quiet_links : (c.quiet).links = c.links := rfl
@[simp] theorem Chip.quiet_fecAlarm : (c.quiet).fecAlarm = c.fecAlarm := rfl
@[simp] theorem Chip.quiet_planes : (c.quiet).planes = c.planes := rfl
@[simp] theorem Chip.quiet_barriersDue : (c.quiet).barriersDue = c.barriersDue := rfl
@[simp] theorem Chip.quiet_awaited : (c.quiet).awaited = c.awaited := rfl
@[simp] theorem Chip.quiet_heldCells : (c.quiet).heldCells = c.heldCells := rfl
@[simp] theorem Chip.quiet_heldSince : (c.quiet).heldSince = c.heldSince := rfl
@[simp] theorem Chip.quiet_objects : (c.quiet).objects = c.objects := rfl
@[simp] theorem Chip.quiet_records : (c.quiet).records = c.records := rfl
@[simp] theorem Chip.quiet_scheds : (c.quiet).scheds = c.scheds := rfl
@[simp] theorem Chip.quiet_innkeepers : (c.quiet).innkeepers = c.innkeepers := rfl
@[simp] theorem Chip.quiet_hbms : (c.quiet).hbms = c.hbms := rfl

@[simp] theorem Chip.quiet_out : c.quiet.out = [] := rfl
@[simp] theorem Chip.emit_out (o : Out) : (c.emit o).out = c.out ++ [o] := rfl

end Sys2Proof.Machine
end

