-- ==== Sys2Proof/Laws/Tbl.lean ====
section
/-! SUPPORT. Laws of the sparse tables and of bit fields: a read after a write, the canonical form, field after field. -/

namespace Sys2Proof.Machine

variable {α : Type}

theorem Tbl.find_without (t : Tbl α) (k j : Nat) : Tbl.find (Tbl.without t k) j = if j = k then none else Tbl.find t j := by
  induction t with
  | nil => simp [Tbl.without, Tbl.find]
  | cons x t ih =>
    obtain ⟨a, v⟩ := x
    simp only [Tbl.without, List.filter_cons, bne_iff_ne, ne_eq] at ih ⊢
    by_cases ha : a = k
    · subst ha
      simp only [not_true_eq_false, if_false, ih, Tbl.find]
      by_cases hj : j = a
      · simp [hj]
      · simp [hj, Ne.symm hj]
    · simp only [ha, not_false_eq_true, if_true, Tbl.find, ih]
      by_cases hj : a = j
      · subst hj; simp [ha]
      · simp [hj]

theorem Tbl.find_place (t : Tbl α) (k j : Nat) (v : α) (h : Tbl.find t k = none) :
    Tbl.find (Tbl.place t k v) j = if j = k then some v else Tbl.find t j := by
  induction t with
  | nil => by_cases hj : k = j <;> simp [Tbl.place, Tbl.find, hj, eq_comm]
  | cons x t ih =>
    obtain ⟨a, w⟩ := x
    have ha : a ≠ k := by rintro rfl; simp [Tbl.find] at h
    have ht : Tbl.find t k = none := by simpa [Tbl.find, ha] using h
    simp only [Tbl.place]
    split
    · by_cases hj : k = j <;> simp [Tbl.find, hj, eq_comm]
    · simp only [Tbl.find, ih ht]
      by_cases hj : a = j
      · subst hj; simp [ha]
      · simp [hj]

/-- A read after a write. -/
theorem Tbl.find_put [DecidableEq α] (d : α) (t : Tbl α) (k j : Nat) (v : α) :
    Tbl.find (Tbl.put d t k v) j = if j = k then (if v = d then none else some v) else Tbl.find t j := by
  unfold Tbl.put
  split
  · rw [Tbl.find_without]
  · rw [Tbl.find_place _ _ _ _ (by simp [Tbl.find_without]), Tbl.find_without]; split <;> simp_all

@[simp] theorem Tbl.look_set [Inhabited α] [DecidableEq α] (t : Tbl α) (k j : Nat) (v : α) :
    (Tbl.set t k v).look j = if j = k then v else t.look j := by
  unfold Tbl.look Tbl.set
  rw [Tbl.find_put]
  split
  · split <;> simp_all
  · rfl

@[simp] theorem Tbl.look_upd [Inhabited α] [DecidableEq α] (t : Tbl α) (k j : Nat) (f : α → α) :
    (Tbl.upd t k f).look j = if j = k then f (t.look k) else t.look j := Tbl.look_set ..

@[simp] theorem Tbl.look_clear [Inhabited α] [DecidableEq α] (t : Tbl α) (k j : Nat) :
    (Tbl.clear t k).look j = if j = k then default else t.look j := Tbl.look_set ..

@[simp] theorem Tbl.look_nil [Inhabited α] (k : Nat) : Tbl.look ([] : Tbl α) k = default := rfl

@[simp] theorem Memory.byte_setByte (m : Memory) (a b : Nat) (v : Byte) :
    (Memory.setByte m a v).byte b = if b = a then v else m.byte b := by
  unfold Memory.setByte Memory.byte
  rw [Tbl.find_put]
  split
  · split <;> simp_all
  · rfl

/-- A byte outside the written ones reads as before. -/
theorem Memory.byte_setBytes_outside (bs : List Byte) (m : Memory) (a b : Nat) (h : b < a ∨ a + bs.length ≤ b) :
    (m.setBytes a bs).byte b = m.byte b := by
  induction bs generalizing m a with
  | nil => rfl
  | cons x t ih =>
    rw [List.length_cons] at h
    rw [Memory.setBytes, ih _ _ (by omega), Memory.byte_setByte, if_neg (by omega)]

/-- A written byte reads as what was written. -/
theorem Memory.byte_setBytes_inside (bs : List Byte) (m : Memory) (a i : Nat) (h : i < bs.length) :
    (m.setBytes a bs).byte (a + i) = bs[i] := by
  induction bs generalizing m a i with
  | nil => exact absurd h (by simp)
  | cons x t ih =>
    cases i with
    | zero => rw [Memory.setBytes, Memory.byte_setBytes_outside _ _ _ _ (by omega)]; simp
    | succ i =>
      have := ih (m.setByte a x) (a + 1) i (by simpa using h)
      rw [Memory.setBytes, show a + (i + 1) = a + 1 + i by omega, this]; rfl

/-! ### The canonical form -/

/-- Keys above `k`, strictly rising, and no value equal to what its key reads as. -/
theorem Tbl.above_without {k : Nat} {t : Tbl α} (j : Nat) [DecidableEq α] {d : Nat → α} (h : Tbl.wf d t = true)
    (ha : Tbl.above k t = true) : Tbl.above k (Tbl.without t j) = true ∧ Tbl.wf d (Tbl.without t j) = true := by
  induction t generalizing k with
  | nil => exact ⟨rfl, rfl⟩
  | cons x t ih =>
    obtain ⟨a, v⟩ := x
    simp only [Tbl.wf, Bool.and_eq_true, decide_eq_true_eq, Tbl.above] at h ha
    obtain ⟨h1, h2, h3⟩ := h
    have hk : Tbl.above k t = true := by
      cases t with
      | nil => rfl
      | cons y t => simp only [Tbl.above, decide_eq_true_eq] at h2 ⊢; omega
    simp only [Tbl.without, List.filter_cons]
    split
    · refine ⟨by simpa [Tbl.above] using ha, ?_⟩
      simp only [Tbl.wf, Bool.and_eq_true, decide_eq_true_eq]
      exact ⟨h1, ih h3 h2⟩
    · exact ih h3 hk

theorem Tbl.above_place {k j : Nat} {t : Tbl α} {v : α} (ha : Tbl.above k t = true) (h : k < j) :
    Tbl.above k (Tbl.place t j v) = true := by
  cases t with
  | nil => simpa [Tbl.place, Tbl.above] using h
  | cons x t => simp only [Tbl.place]; split <;> simp_all [Tbl.above]

theorem Tbl.wf_place {d : Nat → α} [DecidableEq α] {t : Tbl α} {k : Nat} {v : α} (h : Tbl.wf d t = true) (hv : v ≠ d k)
    (hk : Tbl.find t k = none) : Tbl.wf d (Tbl.place t k v) = true := by
  induction t with
  | nil => simp [Tbl.place, Tbl.wf, Tbl.above, hv]
  | cons x t ih =>
    obtain ⟨a, w⟩ := x
    have hak : a ≠ k := by rintro rfl; simp [Tbl.find] at hk
    simp only [Tbl.wf, Bool.and_eq_true, decide_eq_true_eq] at h
    simp only [Tbl.place]
    split
    · simp_all [Tbl.wf, Tbl.above]
    · simp only [Tbl.wf, Bool.and_eq_true, decide_eq_true_eq]
      exact ⟨h.1, Tbl.above_place h.2.1 (by omega), ih h.2.2 (by simpa [Tbl.find, hak] using hk)⟩

/-- Every write keeps the canonical form. -/
theorem Tbl.wf_put {d : Nat → α} [DecidableEq α] {t : Tbl α} (k : Nat) (v : α) (h : Tbl.wf d t = true) :
    Tbl.wf d (Tbl.put (d k) t k v) = true := by
  have hw : Tbl.wf d (Tbl.without t k) = true := by
    cases t with
    | nil => rfl
    | cons x t =>
      obtain ⟨a, w⟩ := x
      have h' := h
      simp only [Tbl.wf, Bool.and_eq_true, decide_eq_true_eq] at h
      simp only [Tbl.without, List.filter_cons]
      split
      · simp only [Tbl.wf, Bool.and_eq_true, decide_eq_true_eq]
        exact ⟨h.1, Tbl.above_without k h.2.2 h.2.1⟩
      · exact (Tbl.above_without k h.2.2 h.2.1).2
  unfold Tbl.put
  split
  · exact hw
  · exact Tbl.wf_place hw (by assumption) (by simp [Tbl.find_without])

theorem Memory.wf_setByte {m : Memory} (a : Nat) (v : Byte) (h : m.wf = true) : (m.setByte a v).wf = true :=
  Tbl.wf_put (d := fun _ => 0) a v h

theorem Memory.wf_setBytes (bs : List Byte) {m : Memory} (a : Nat) (h : m.wf = true) : (m.setBytes a bs).wf = true := by
  induction bs generalizing m a with
  | nil => exact h
  | cons x t ih => exact ih _ (Memory.wf_setByte a x h)

/-! ### Bit fields -/

theorem bits_lt {w : Nat} (v : BitVec w) (hi lo : Nat) : bits v hi lo < 2 ^ (hi + 1 - lo) := Nat.mod_lt _ (Nat.two_pow_pos _)

theorem bits_testBit {w : Nat} (v : BitVec w) (hi lo i : Nat) :
    (bits v hi lo).testBit i = (decide (i < hi + 1 - lo) && v.getLsbD (lo + i)) := by
  simp [bits, BitVec.getLsbD, Nat.testBit_mod_two_pow, Nat.testBit_shiftRight]

theorem putBits_getLsbD {w : Nat} (v : BitVec w) (hi lo n i : Nat) (h : lo ≤ hi) :
    (putBits v hi lo n).getLsbD i = (decide (i < w) && if lo ≤ i ∧ i ≤ hi then n.testBit (i - lo) else v.getLsbD i) := by
  have hm : hi + 1 = lo + (hi + 1 - lo) := by omega
  have key : v.toNat - (bits v hi lo <<< lo) + ((n % 2 ^ (hi + 1 - lo)) <<< lo) =
      2 ^ lo * (2 ^ (hi + 1 - lo) * (v.toNat >>> (hi + 1)) + n % 2 ^ (hi + 1 - lo)) + v.toNat % 2 ^ lo := by
    have e1 : v.toNat = 2 ^ lo * (v.toNat >>> lo) + v.toNat % 2 ^ lo := by
      rw [Nat.shiftRight_eq_div_pow]; exact (Nat.div_add_mod _ _).symm
    have e2 : v.toNat >>> lo = 2 ^ (hi + 1 - lo) * (v.toNat >>> (hi + 1)) + bits v hi lo := by
      unfold bits
      conv_rhs => rw [hm, Nat.shiftRight_add, Nat.shiftRight_eq_div_pow (v.toNat >>> lo)]
      rw [← hm]; exact (Nat.div_add_mod _ _).symm
    simp only [Nat.shiftLeft_eq]
    generalize bits v hi lo = f at e2
    generalize v.toNat >>> (hi + 1) = q at e2
    generalize 2 ^ (hi + 1 - lo) = m at *
    generalize v.toNat % 2 ^ lo = r at *
    rw [e2] at e1
    rw [e1]
    have e3 : 2 ^ lo * (m * q + f) = 2 ^ lo * (m * q) + f * 2 ^ lo := by ring
    have e4 : 2 ^ lo * (m * q + n % m) = 2 ^ lo * (m * q) + n % m * 2 ^ lo := by ring
    rw [e3, e4]; omega
  unfold putBits
  rw [key, BitVec.getLsbD_ofNat, Nat.testBit_two_pow_mul_add _ (Nat.mod_lt _ (Nat.two_pow_pos _)),
    Nat.testBit_two_pow_mul_add _ (Nat.mod_lt _ (Nat.two_pow_pos _))]
  congr 1
  by_cases h1 : i < lo
  · rw [if_pos h1, if_neg (by omega), Nat.testBit_mod_two_pow]; simp [h1, BitVec.getLsbD]
  · rw [if_neg h1]
    by_cases h2 : i ≤ hi
    · rw [if_pos (by omega), if_pos (by omega), Nat.testBit_mod_two_pow]; simp; omega
    · rw [if_neg (by omega), if_neg (by omega), Nat.testBit_shiftRight]; simp [BitVec.getLsbD]; congr 1; omega

/-- A field reads back what was written to it. -/
theorem bits_putBits_same {w : Nat} (v : BitVec w) (hi lo n : Nat) (h : lo ≤ hi) (hw : hi < w) :
    bits (putBits v hi lo n) hi lo = n % 2 ^ (hi + 1 - lo) := by
  apply Nat.eq_of_testBit_eq
  intro i
  rw [bits_testBit, putBits_getLsbD _ _ _ _ _ h, Nat.testBit_mod_two_pow]
  by_cases hi' : i < hi + 1 - lo
  · simp [hi', show lo + i < w by omega, show lo + i ≤ hi by omega]
  · simp [hi']

/-- A field keeps its value while another one is written. -/
theorem bits_putBits_other {w : Nat} (v : BitVec w) (hi lo n hi' lo' : Nat) (h : lo ≤ hi) (hw : hi' < w)
    (hd : hi' < lo ∨ hi < lo') : bits (putBits v hi lo n) hi' lo' = bits v hi' lo' := by
  apply Nat.eq_of_testBit_eq
  intro i
  rw [bits_testBit, bits_testBit, putBits_getLsbD _ _ _ _ _ h]
  by_cases hi2 : i < hi' + 1 - lo'
  · rw [if_neg (by omega)]; simp [show lo' + i < w by omega]
  · simp [hi2]

end Sys2Proof.Machine
end

