-- ==== Sys2Proof/Laws/Ops.lean ====
section
/-! SUPPORT. Laws of the shared operations: registers and fields, counters, outputs, reports, and how a command runs. -/

namespace Sys2Proof.Machine

variable (c : Chip)

/-! ### Registers -/

/-- Registers follow the register table alone. -/
theorem Chip.reg_of_regs {c d : Chip} (h : d.regs = c.regs) (a : Nat) : d.reg a = c.reg a := by unfold Chip.reg; rw [h]

/-- A register after a write. -/
@[simp] theorem Chip.reg_setReg (a b : Nat) (v : Word) : (c.setReg a v).reg b = if b = a then v else c.reg b := by
  unfold Chip.reg Chip.setReg
  rw [Tbl.find_put]
  split
  · subst_vars; split <;> simp_all
  · rfl

theorem Chip.reg_put (b : Nat) (f : Fld) (n a : Nat) :
    (c.put b f n).reg a = if a = b + f.off then putBits (c.reg (b + f.off)) f.hi f.lo n else c.reg a := Chip.reg_setReg ..

theorem Chip.reg_cnt (a n b : Nat) : (c.cnt a n).reg b = if b = a then c.reg a + BitVec.ofNat 64 n else c.reg b := Chip.reg_setReg ..

@[simp] theorem Chip.reg_quiet (a : Nat) : c.quiet.reg a = c.reg a := rfl
@[simp] theorem Chip.reg_emit (o : Out) (a : Nat) : (c.emit o).reg a = c.reg a := rfl
@[simp] theorem Chip.reg_report (u k v x : Nat) (i : Bool) (a : Nat) : (c.report u k v x i).reg a = c.reg a := rfl
@[simp] theorem Chip.reg_endCond (u k a : Nat) : (c.endCond u k).reg a = c.reg a := rfl
@[simp] theorem Chip.get_quiet (b : Nat) (f : Fld) : c.quiet.get b f = c.get b f := rfl
@[simp] theorem Chip.get_emit (o : Out) (b : Nat) (f : Fld) : (c.emit o).get b f = c.get b f := rfl
@[simp] theorem Chip.get_report (u k v x : Nat) (i : Bool) (b : Nat) (f : Fld) : (c.report u k v x i).get b f = c.get b f := rfl
@[simp] theorem Chip.get_endCond (u k b : Nat) (f : Fld) : (c.endCond u k).get b f = c.get b f := rfl

/-- A field reads back what was written to it. -/
theorem Chip.get_put_same (b : Nat) (f : Fld) (n : Nat) (h : f.lo ≤ f.hi ∧ f.hi < 64) :
    (c.put b f n).get b f = n % 2 ^ (f.hi + 1 - f.lo) := by
  rw [Chip.get, Chip.reg_put, if_pos rfl, bits_putBits_same _ _ _ _ h.1 h.2]

/-- A field of another register keeps its value. -/
theorem Chip.get_put_reg (b : Nat) (f : Fld) (n b' : Nat) (f' : Fld) (h : b' + f'.off ≠ b + f.off) :
    (c.put b f n).get b' f' = c.get b' f' := by rw [Chip.get, Chip.reg_put, if_neg h, Chip.get]

/-- Another field of the same register keeps its value. -/
theorem Chip.get_put_field (b : Nat) (f : Fld) (n b' : Nat) (f' : Fld) (h : f.lo ≤ f.hi ∧ f'.hi < 64 ∧ (f'.hi < f.lo ∨ f.hi < f'.lo)) :
    (c.put b f n).get b' f' = c.get b' f' := by
  rw [Chip.get, Chip.reg_put]
  split
  · rename_i e; rw [bits_putBits_other _ _ _ _ _ _ h.1 h.2.1 h.2.2, Chip.get, e]
  · rfl

/-- A counter does not touch a field of another register. -/
theorem Chip.get_cnt (a n b : Nat) (f : Fld) (h : b + f.off ≠ a) : (c.cnt a n).get b f = c.get b f := by
  rw [Chip.get, Chip.reg_cnt, if_neg h, Chip.get]

theorem Chip.get_setReg (a b : Nat) (v : Word) (f : Fld) (h : b + f.off ≠ a) : (c.setReg a v).get b f = c.get b f := by
  rw [Chip.get, Chip.reg_setReg, if_neg h, Chip.get]

/-- The registers that a write leaves. -/
theorem Chip.reg_setReg_ne (a b : Nat) (v : Word) (h : b ≠ a) : (c.setReg a v).reg b = c.reg b := by rw [Chip.reg_setReg, if_neg h]
theorem Chip.reg_put_ne (b : Nat) (f : Fld) (n a : Nat) (h : a ≠ b + f.off) : (c.put b f n).reg a = c.reg a := Chip.reg_setReg_ne _ _ _ _ h
theorem Chip.reg_cnt_ne (a n b : Nat) (h : b ≠ a) : (c.cnt a n).reg b = c.reg b := Chip.reg_setReg_ne _ _ _ _ h

/-- A counter after it counted. -/
theorem Chip.reg_cnt_same (a n : Nat) : (c.cnt a n).reg a = c.reg a + BitVec.ofNat 64 n := by rw [Chip.reg_cnt, if_pos rfl]

/-! A register of a device written out field by field. -/

/-- A register of a register table. -/
def regsAt (r : Tbl Word) (a : Nat) : Word := (Tbl.find r a).getD (regReset a)

/-- A field of a register table. -/
def getAt (r : Tbl Word) (b : Nat) (f : Fld) : Nat := bits (regsAt r (b + f.off)) f.hi f.lo

@[simp] theorem regsAt_regs (a : Nat) : regsAt c.regs a = c.reg a := rfl
@[simp] theorem getAt_regs (b : Nat) (f : Fld) : getAt c.regs b f = c.get b f := rfl

@[simp] theorem Chip.reg_mk (now : Nat) (fresh : Nat) (out : List Out) (busData : Word) (regs : Tbl Word) (staged : Tbl (Option Word)) (since : Tbl
    Bool) (applies : Tbl (Option Apply)) (power : Power) (rst : ResetCtl) (image : ImageState) (room : Strongroom) (ledger : Ledger) (fifos : Tbl Fifo)
    (tbs : Tbl Tb) (pps : Tbl PpsOut) (accord : Accord) (house : House) (mem : Tbl MemGroup) (host : HostSide) (sweep : Sweep) (wins : Tbl (Option
    WinRes)) (em : Tbl EmTable) (lpm : Tbl LpmCopy) (tcam : Tbl Tcam) (store : Tbl Entry) (porters : Tbl Porter) (fronts : Tbl Front) (ports : Tbl
    Port) (nextId : Nat) (frames : Tbl (Option Frame)) (tails : Tbl Tail) (streams : Tbl (Option Stream)) (arrivals : Tbl (Option Arrival)) (copies :
    Tbl (Option Copy)) (links : Tbl Link) (fecAlarm : Tbl Bool) (planes : Tbl Plane) (barriersDue : Tbl (List Nat)) (awaited : Tbl (List (Nat × Nat)))
    (heldCells : Tbl (List (Nat × Cell))) (heldSince : Tbl (Option Nat)) (objects : Tbl Objects) (records : Tbl Records) (scheds : Tbl Sched)
    (innkeepers : Tbl Innkeeper) (hbms : Tbl Hbm) (a : Nat) : Chip.reg (Chip.mk now fresh out busData regs staged since applies power rst image room
    ledger fifos tbs pps accord house mem host sweep wins em lpm tcam store porters fronts ports nextId frames tails streams arrivals copies links
    fecAlarm planes barriersDue awaited heldCells heldSince objects records scheds innkeepers hbms) a = regsAt regs a := rfl

@[simp] theorem Chip.get_mk (now : Nat) (fresh : Nat) (out : List Out) (busData : Word) (regs : Tbl Word) (staged : Tbl (Option Word)) (since : Tbl
    Bool) (applies : Tbl (Option Apply)) (power : Power) (rst : ResetCtl) (image : ImageState) (room : Strongroom) (ledger : Ledger) (fifos : Tbl Fifo)
    (tbs : Tbl Tb) (pps : Tbl PpsOut) (accord : Accord) (house : House) (mem : Tbl MemGroup) (host : HostSide) (sweep : Sweep) (wins : Tbl (Option
    WinRes)) (em : Tbl EmTable) (lpm : Tbl LpmCopy) (tcam : Tbl Tcam) (store : Tbl Entry) (porters : Tbl Porter) (fronts : Tbl Front) (ports : Tbl
    Port) (nextId : Nat) (frames : Tbl (Option Frame)) (tails : Tbl Tail) (streams : Tbl (Option Stream)) (arrivals : Tbl (Option Arrival)) (copies :
    Tbl (Option Copy)) (links : Tbl Link) (fecAlarm : Tbl Bool) (planes : Tbl Plane) (barriersDue : Tbl (List Nat)) (awaited : Tbl (List (Nat × Nat)))
    (heldCells : Tbl (List (Nat × Cell))) (heldSince : Tbl (Option Nat)) (objects : Tbl Objects) (records : Tbl Records) (scheds : Tbl Sched)
    (innkeepers : Tbl Innkeeper) (hbms : Tbl Hbm) (b : Nat) (f : Fld) : Chip.get (Chip.mk now fresh out busData regs staged since applies power rst
    image room ledger fifos tbs pps accord house mem host sweep wins em lpm tcam store porters fronts ports nextId frames tails streams arrivals copies
    links fecAlarm planes barriersDue awaited heldCells heldSince objects records scheds innkeepers hbms) b f = getAt regs b f := rfl

/-! ### Reports -/

@[simp] theorem Chip.report_ledger (u k v x : Nat) (i : Bool) : (c.report u k v x i).ledger =
    { c.ledger with transit := c.ledger.transit ++ [{ source := c.suiteUnit u, kind := k, sev := v, pos := c.suitePos u, addr := x, inj := i }] } := rfl

@[simp] theorem Chip.endCond_ledger (u k : Nat) :
    (c.endCond u k).ledger = { c.ledger with ended := c.ledger.ended ++ [(c.suiteUnit u, k)] } := rfl

/-! ### Small steps -/

@[simp] theorem Chip.when_true (f : Chip → Chip) : c.when true f = f c := rfl
@[simp] theorem Chip.when_false (f : Chip → Chip) : c.when false f = c := rfl
@[simp] theorem Chip.each_nil {α : Type} (f : Chip → α → Chip) : c.each [] f = c := rfl
@[simp] theorem Chip.each_cons {α : Type} (x : α) (l : List α) (f : Chip → α → Chip) : c.each (x :: l) f = (f c x).each l f := rfl

/-! ### What is left of the device -/

@[simp] theorem Chip.bare_setReg (a : Nat) (v : Word) : (c.setReg a v).bare = c.bare := rfl
@[simp] theorem Chip.bare_put (b : Nat) (f : Fld) (n : Nat) : (c.put b f n).bare = c.bare := rfl
@[simp] theorem Chip.bare_cnt (a n : Nat) : (c.cnt a n).bare = c.bare := rfl
@[simp] theorem Chip.bare_emit (o : Out) : (c.emit o).bare = c.bare := rfl
@[simp] theorem Chip.bare_quiet : c.quiet.bare = c.bare := rfl
@[simp] theorem Chip.bareLedger_setReg (a : Nat) (v : Word) : (c.setReg a v).bareLedger = c.bareLedger := rfl
@[simp] theorem Chip.bareLedger_put (b : Nat) (f : Fld) (n : Nat) : (c.put b f n).bareLedger = c.bareLedger := rfl
@[simp] theorem Chip.bareLedger_cnt (a n : Nat) : (c.cnt a n).bareLedger = c.bareLedger := rfl
@[simp] theorem Chip.bareLedger_emit (o : Out) : (c.emit o).bareLedger = c.bareLedger := rfl
@[simp] theorem Chip.bareLedger_quiet : c.quiet.bareLedger = c.bareLedger := rfl
@[simp] theorem Chip.bareLedger_report (u k v x : Nat) (i : Bool) : (c.report u k v x i).bareLedger = c.bareLedger := rfl
@[simp] theorem Chip.bareLedger_endCond (u k : Nat) : (c.endCond u k).bareLedger = c.bareLedger := rfl

/-! ### How a command runs -/

/-- A command on the device runs where its part of the device does. -/
theorem State.run_of_runs {s : State} {n : Need} (h : s.runs n = true) (f : Chip → Chip) : s.run n f = .next { s with chip := f s.chip.quiet } := by
  simp only [State.runs, Bool.and_eq_true, Bool.not_eq_true'] at h
  unfold State.run; rw [h.1, h.2]; rfl

/-- A command that also writes what survives power loss. -/
theorem State.runNv_of_runs {s : State} {n : Need} (h : s.runs n = true) (f : Nv → Fuses → Chip → Chip × Nv × Fuses) :
    s.runNv n f = .next { s with chip := (f s.nv s.fuses s.chip.quiet).1, nv := (f s.nv s.fuses s.chip.quiet).2.1,
                                 fuses := (f s.nv s.fuses s.chip.quiet).2.2 } := by
  simp only [State.runs, Bool.and_eq_true, Bool.not_eq_true'] at h
  unfold State.runNv; rw [h.1, h.2]; rfl

theorem Chip.allowed_of_regs {c d : Chip} (h : c.get = d.get) (src : Source) (a : Nat) (w : Bool) : c.allowed src a w = d.allowed src a w := by
  unfold Chip.allowed Chip.granted Chip.on
  rw [h]

/-- What the bus serves depends on the applied image alone. -/
theorem Chip.visible_of_image {c d : Chip} (h : c.image = d.image) (a : Nat) : c.visible a = d.visible a := by
  have hs : ∀ s, c.sliceEnabled s = d.sliceEnabled s := fun s => by unfold Chip.sliceEnabled; rw [h]
  have hh : ∀ s, c.halfEnabled s = d.halfEnabled s := fun s => by unfold Chip.halfEnabled; rw [h]
  have hf : ∀ u, c.firstOf u = d.firstOf u := fun u => by unfold Chip.firstOf Chip.suiteUnit Chip.suiteOf; rw [h]
  have hp : ∀ u, c.present u = d.present u := fun u => by unfold Chip.present Chip.portRec; simp only [hs, hh, h]
  unfold Chip.visible
  simp only [hs, hh, hf, hp, h]

/-- A served bus access runs. -/
theorem State.bus_of_serves {s : State} {src : Source} {a : Nat} {w : Bool} (h : s.serves src a w = true) (f : Chip → Chip) :
    s.bus src a w f = .next { s with chip := f s.chip.quiet } := by
  simp only [State.serves, Bool.and_eq_true] at h
  obtain ⟨⟨h, ha⟩, hv⟩ := h
  unfold State.bus
  rw [State.run_of_runs h]
  have ha' := Chip.allowed_of_regs (c := s.chip.quiet) (d := s.chip) rfl src a w
  have hv' := Chip.visible_of_image (c := s.chip.quiet) (d := s.chip) rfl a
  simp only [ha', hv', ha, hv, if_true]

/-- Whatever runs or does not, a command on the device leaves the keepsake store, the fuses and the queue. -/
theorem State.run_frame {s t : State} {n : Need} {f : Chip → Chip} (h : s.run n f = .next t) :
    t.nv = s.nv ∧ t.fuses = s.fuses ∧ t.pending = s.pending := by
  unfold State.run at h
  split at h
  · cases h
  · split at h <;> cases h <;> exact ⟨rfl, rfl, rfl⟩

theorem State.runNv_pending {s t : State} {n : Need} {f : Nv → Fuses → Chip → Chip × Nv × Fuses} (h : s.runNv n f = .next t) :
    t.pending = s.pending := by
  unfold State.runNv at h
  split at h
  · cases h
  · split at h <;> cases h <;> rfl

theorem State.bus_frame {s t : State} {src : Source} {a : Nat} {w : Bool} {f : Chip → Chip} (h : s.bus src a w f = .next t) :
    t.nv = s.nv ∧ t.fuses = s.fuses ∧ t.pending = s.pending := State.run_frame h

/-- What a command on the device does, from its meaning. -/
theorem Does.of_run {c : Instr} {s : State} {n : Need} {f : Chip → Chip} {P : State → Prop} (e : exec c s = s.run n f)
    (h : s.runs n = true) (hp : P { s with chip := f s.chip.quiet }) : Does c s P := ⟨_, e.trans (State.run_of_runs h f), hp⟩

theorem Does.of_bus {c : Instr} {s : State} {src : Source} {a : Nat} {w : Bool} {f : Chip → Chip} {P : State → Prop}
    (e : exec c s = s.bus src a w f) (h : s.serves src a w = true) (hp : P { s with chip := f s.chip.quiet }) : Does c s P :=
  ⟨_, e.trans (State.bus_of_serves h f), hp⟩

theorem Does.of_runNv {c : Instr} {s : State} {n : Need} {f : Nv → Fuses → Chip → Chip × Nv × Fuses} {P : State → Prop}
    (e : exec c s = s.runNv n f) (h : s.runs n = true)
    (hp : P { s with chip := (f s.nv s.fuses s.chip.quiet).1, nv := (f s.nv s.fuses s.chip.quiet).2.1,
                     fuses := (f s.nv s.fuses s.chip.quiet).2.2 }) : Does c s P := ⟨_, e.trans (State.runNv_of_runs h f), hp⟩

end Sys2Proof.Machine
end

