-- ==== Sys2Proof/WellFormed.lean ====
section
/-! DEFINITION. Which commands name things that the device can have: each operand in the range the spec gives it. The meanings are
total and do not need it; a command outside it changes nothing but what its meaning says. -/

namespace Sys2Proof

/-- A sender that exists (spec/20_host_interface.md R432): virtual functions are 1 to 15, control cores 0 to 3. -/
def Source.wf : Source → Bool
  | .pf => true
  | .vf n => decide (1 ≤ n) && decide (n < 16)
  | .core c => decide (c < 4)

/-- The sender of a bus access; none for an event of the device itself. -/
def Instr.source : Instr → Option Source
  | .registerWrite src _ _ _ => some src
  | .rcFieldRead src _ _ => some src
  | .suiteQuery src _ => some src
  | .unitResetRelease src _ => some src
  | .unitResetHold src _ => some src
  | .unitReleaseHeld src _ => some src
  | .unitResetComplete _ => none
  | .unitHoldReached _ => none
  | .applyGo src _ _ => some src
  | .applyRevert src _ => some src
  | .applyTakeEffect _ => none
  | .applyTimeout _ => none
  | .powerOn => none
  | .powerLoss => none
  | .pinChipReset => none
  | .sysRstNRise => none
  | .internalRelease => none
  | .softwareChipReset src _ => some src
  | .perstNAssert => none
  | .perstNRelease => none
  | .stack0TrainingComplete => none
  | .slotCheckComplete _ _ => none
  | .imageHandover _ => none
  | .imageApplyComplete => none
  | .fullTrainingComplete _ _ => none
  | .strongroomTamper => none
  | .strongroomSelftest => none
  | .trngHealth => none
  | .trngHealthRecover => none
  | .getInfo _ _ _ => none
  | .getRandom _ _ _ => none
  | .getBootReport _ _ _ => none
  | .enrolCustomerKey _ _ _ _ _ => none
  | .revokeCustomerKey _ _ _ _ _ => none
  | .advanceEpoch _ _ _ _ => none
  | .debugChallenge _ _ _ => none
  | .debugResponse _ _ _ _ => none
  | .setBootSlot _ _ _ => none
  | .bootFromHost _ _ _ => none
  | .selfTest _ _ _ _ => none
  | .attest _ _ _ => none
  | .mailboxComplete _ => none
  | .controlFirmwareCheck _ => none
  | .laneTxEqWrite src _ _ => some src
  | .laneTestWrite src _ _ => some src
  | .laneSignalChange _ _ => none
  | .laneAdaptComplete _ => none
  | .fecUncorrectableCodeword _ => none
  | .fecDegradeWindow _ _ => none
  | .pcsStatusChange _ _ _ _ => none
  | .linkDown _ => none
  | .linkUp _ => none
  | .holdExpiry _ => none
  | .rxFrameStart _ _ => none
  | .rxFrameEnd _ _ _ => none
  | .pauseFrameReceived _ _ => none
  | .pauseExpiry _ _ => none
  | .xoffSend _ => none
  | .xonSend _ => none
  | .xoffRefresh _ _ => none
  | .pfcStormDetect _ _ => none
  | .pfcStormRecover _ _ => none
  | .lpiEntry _ => none
  | .lpiWakeComplete _ => none
  | .peerLpiChange _ _ => none
  | .dispatch _ _ _ _ => none
  | .microword _ _ _ => none
  | .threadRelease _ _ _ => none
  | .releaseToPipes _ => none
  | .porterStall _ _ => none
  | .porterRetire src _ _ => some src
  | .spareStoreCheckComplete _ _ _ => none
  | .spareTakeover _ _ => none
  | .storeCheck src _ _ => some src
  | .storeCheckComplete _ _ => none
  | .lookup _ _ _ => none
  | .tcamRepeatSearch _ _ => none
  | .tcamRowRewrite _ => none
  | .lpmHeldProbe _ => none
  | .actionResolution _ _ => none
  | .learnRequest _ _ => none
  | .learnInsert _ => none
  | .learnMove _ => none
  | .agerVisit _ _ => none
  | .emRead src _ => some src
  | .emSearch src _ => some src
  | .emSearchPending src _ => some src
  | .emInsert src _ => some src
  | .emWriteIfSeq src _ => some src
  | .emLearn src _ => some src
  | .emUnlearn src _ => some src
  | .emFlushPort src _ => some src
  | .emHoldFirst src _ => some src
  | .overflowReturn _ _ => none
  | .bdRead src _ => some src
  | .bdWrite src _ => some src
  | .lpmRead src _ => some src
  | .lpmSearch src _ => some src
  | .lpmSearchPending src _ => some src
  | .lpmInsert src _ => some src
  | .lpmWriteIfSeq src _ => some src
  | .filterRead src _ _ => some src
  | .filterWrite src _ _ => some src
  | .setRange src _ _ => some src
  | .clearRange src _ _ => some src
  | .readPart src _ => some src
  | .loadPart src _ => some src
  | .tcamWriteIfSeq src _ => some src
  | .tcamSearch src _ => some src
  | .tcamWriteSlot _ => none
  | .tcamScrubRead _ _ _ _ => none
  | .windowCommandComplete _ => none
  | .accordOpen src _ => some src
  | .accordCommit src => some src
  | .commitTakeEffect => none
  | .accordWithdraw src => some src
  | .accordDiscard src => some src
  | .discardComplete => none
  | .accordRetire _ => none
  | .accordDrainSlow _ => none
  | .accordDrainWrite src _ => some src
  | .accordRetiredRead src => some src
  | .settlerVisit _ => none
  | .objectRead src _ => some src
  | .objectWrite src _ => some src
  | .resetBuckets src _ => some src
  | .groupHeadRead src _ => some src
  | .groupHeadWriteIfSeq src _ => some src
  | .cellSend _ _ => none
  | .planeCellArrival _ _ _ => none
  | .planeCellForward _ _ _ => none
  | .sliceCellArrival _ _ _ => none
  | .linkAck _ _ _ _ => none
  | .resendRequest _ _ _ _ => none
  | .fabricCrcWindow _ _ _ => none
  | .linkLossOfLock _ _ _ => none
  | .planePllLoss _ => none
  | .barrierReceived _ _ _ => none
  | .barrierWaitExpiry _ _ => none
  | .planeRetire src _ => some src
  | .planeRestore src _ => some src
  | .planeDrainComplete _ => none
  | .coachHeadEnqueue _ => none
  | .coachTimeout _ => none
  | .cellAlloc _ _ _ => none
  | .cellShare _ _ _ _ => none
  | .cellHandover _ _ _ _ => none
  | .cellFree _ _ _ => none
  | .cellRead src _ => some src
  | .reclaim src _ => some src
  | .bpmPortErr _ _ => none
  | .requesterReclaimComplete _ _ => none
  | .recoveryEnd _ _ => none
  | .freeListRebuild _ => none
  | .spillBundleWrite _ _ => none
  | .spillBundleTimer _ _ => none
  | .spillWriteComplete _ _ => none
  | .spillFetch _ _ => none
  | .bundleReadComplete _ _ _ => none
  | .schedulingDecision _ => none
  | .shaperConform _ _ => none
  | .txFrameEnd _ => none
  | .txUnderrun _ => none
  | .schedRecordRead src _ => some src
  | .schedRecordWrite src _ => some src
  | .queueStatusRead src _ => some src
  | .gateEdge _ => none
  | .gateBaseTime _ => none
  | .gclWrite src _ _ => some src
  | .gateSwapArm src _ => some src
  | .gateSwapCancel src _ => some src
  | .gateSwap _ => none
  | .timeBaseTick => none
  | .tbNowRead src _ => some src
  | .tbPpsRead src _ => some src
  | .tbHoldover _ => none
  | .tbRefLoss => none
  | .tbRefSelect src _ => some src
  | .tbPllLock => none
  | .ppsInEdge => none
  | .ppsOutPulse _ => none
  | .ppsOutPulseEnd _ => none
  | .hbmRequest _ _ _ _ _ _ _ => none
  | .hbmArbDecision _ _ => none
  | .hbmTransferComplete _ _ _ => none
  | .hbmArbStarve _ _ _ => none
  | .refreshOwedTick _ => none
  | .perBankRefresh _ _ _ => none
  | .refreshEmergency _ _ _ => none
  | .hbmTempRead _ _ => none
  | .rowHammerThrottleEnd _ _ _ => none
  | .rowHammerWindow _ => none
  | .hbmTrain src _ _ => some src
  | .trainingStepComplete _ _ _ => none
  | .hbmFreq src _ _ => some src
  | .freqChangeStart _ => none
  | .freqChangeComplete _ => none
  | .selfRefreshEnter src _ => some src
  | .selfRefreshExit src _ => some src
  | .selfRefreshEntryComplete _ => none
  | .selfRefreshExitComplete _ => none
  | .selfRefreshIdle _ => none
  | .hbmRetire src _ _ => some src
  | .hbmRetireClear src _ _ => some src
  | .relocationCopyComplete _ => none
  | .hbmPllLoss _ => none
  | .memFill src _ => some src
  | .fillComplete _ => none
  | .scrubRead _ _ _ _ => none
  | .memRemap src _ => some src
  | .remapComplete _ => none
  | .memRemapClear src _ => some src
  | .fifoSwap _ => none
  | .fifoFlush src _ => some src
  | .fifoFlushEffect _ _ => none
  | .ledgerMessageArrival _ => none
  | .ledgerRecordWrite => none
  | .ledgerRecordsLost => none
  | .conditionCleared _ _ => none
  | .reactionBlockReset => none
  | .reactionChipReset => none
  | .journalWrite => none
  | .errnRelease src => some src
  | .injectionArm src _ => some src
  | .injectionDisarm src => some src
  | .latchkeyTake src _ => some src
  | .latchkeyRelease src _ => some src
  | .latchkeySuspectClear src _ => some src
  | .latchkeyBreak src _ => some src
  | .sleepEntry _ => none
  | .sleepEntryComplete _ => none
  | .sliceWake _ => none
  | .wakeCmd src _ => some src
  | .wakeComplete _ => none
  | .pllPrimaryTimeout _ => none
  | .wakeBackupTimeout _ => none
  | .nightWindowStart => none
  | .nightSelfRefreshEntry _ => none
  | .selfRefreshRetry _ => none
  | .nightWindowEnd => none
  | .avsStep => none
  | .avsVerify _ => none
  | .ageingMonitorRead _ => none
  | .replan => none
  | .replanItem _ => none
  | .thermalSample _ => none
  | .supplySag _ => none
  | .keepsakeWritesResume => none
  | .keepsakeRead src => some src
  | .keepsakeWrite src => some src
  | .keepsakeLineWrite => none
  | .bar0MalformedAccess src _ _ _ => some src
  | .vfAccessDenied _ _ _ => none
  | .pcieLinkDown => none
  | .pcieLinkUp => none
  | .vfFlr _ => none
  | .irqLineRise _ => none
  | .irqRearm src _ => some src
  | .ringEnable src _ _ => some src
  | .ringPiWrite src _ _ => some src
  | .ringCiWrite src _ _ => some src
  | .ringIrqModeration _ => none
  | .puntWrite _ _ => none
  | .injectDescriptorFetch _ _ => none
  | .injectFrameRead _ _ => none
  | .eventRecordWrite _ _ => none
  | .coreRelease src _ => some src
  | .coreHold src _ => some src
  | .coreBusError _ _ _ => none
  | .watchdogKick src _ => some src
  | .watchdogExpiry _ => none
  | .mgmtFrameReceive _ _ _ => none
  | .mgmtFrameSend _ => none
  | .sweepTrigger src _ => some src
  | .sweepPeriodTimer _ => none
  | .sweepSecond => none
  | .sweepStart => none
  | .sweepComplete => none
  | .serdesReferenceLoss _ => none
  | .systemReferenceLoss => none
  | .systemPllLock => none
  | .planeLinkLock _ _ => none
  | .serdesReferenceReturn _ => none
  | .gpioEdge _ _ => none

/-- Every operand is in its range. -/
def Instr.wf : Instr → Bool
  | .registerWrite src _ size _ => src.wf && (size == 4 || size == 8)
  | .rcFieldRead src _ size => src.wf && (size == 4 || size == 8)
  | .suiteQuery src unit => src.wf && decide (unit < 65536)
  | .unitResetRelease src unit => src.wf && decide (unit < 65536)
  | .unitResetHold src unit => src.wf && decide (unit < 65536)
  | .unitReleaseHeld src unit => src.wf && decide (unit < 65536)
  | .unitResetComplete unit => decide (unit < 65536)
  | .unitHoldReached unit => decide (unit < 65536)
  | .applyGo src _ _ => src.wf
  | .applyRevert src _ => src.wf
  | .applyTakeEffect _ => true
  | .applyTimeout _ => true
  | .powerOn => true
  | .powerLoss => true
  | .pinChipReset => true
  | .sysRstNRise => true
  | .internalRelease => true
  | .softwareChipReset src _ => src.wf
  | .perstNAssert => true
  | .perstNRelease => true
  | .stack0TrainingComplete => true
  | .slotCheckComplete _ _ => true
  | .imageHandover _ => true
  | .imageApplyComplete => true
  | .fullTrainingComplete m _ => decide (m < 2)
  | .strongroomTamper => true
  | .strongroomSelftest => true
  | .trngHealth => true
  | .trngHealthRecover => true
  | .getInfo ch _ _ => decide (ch < 2)
  | .getRandom ch _ _ => decide (ch < 2)
  | .getBootReport ch _ _ => decide (ch < 2)
  | .enrolCustomerKey ch _ _ _ _ => decide (ch < 2)
  | .revokeCustomerKey ch _ _ _ _ => decide (ch < 2)
  | .advanceEpoch ch _ _ _ => decide (ch < 2)
  | .debugChallenge ch _ _ => decide (ch < 2)
  | .debugResponse ch _ _ _ => decide (ch < 2)
  | .setBootSlot ch _ _ => decide (ch < 2)
  | .bootFromHost ch _ _ => decide (ch < 2)
  | .selfTest ch _ _ _ => decide (ch < 2)
  | .attest ch _ _ => decide (ch < 2)
  | .mailboxComplete ch => decide (ch < 2)
  | .controlFirmwareCheck _ => true
  | .laneTxEqWrite src q _ => src.wf && decide (q < 128)
  | .laneTestWrite src q prbs => src.wf && decide (q < 128) && decide (prbs < 8)
  | .laneSignalChange q _ => decide (q < 128)
  | .laneAdaptComplete q => decide (q < 128)
  | .fecUncorrectableCodeword q => decide (q < 128)
  | .fecDegradeWindow q _ => decide (q < 128)
  | .pcsStatusChange p _ _ _ => decide (p < 128)
  | .linkDown p => decide (p < 128)
  | .linkUp p => decide (p < 128)
  | .holdExpiry p => decide (p < 128)
  | .rxFrameStart p _ => decide (p < 128)
  | .rxFrameEnd p _ _ => decide (p < 128)
  | .pauseFrameReceived p _ => decide (p < 128)
  | .pauseExpiry p cls => decide (p < 128) && decide (cls < 8)
  | .xoffSend p => decide (p < 128)
  | .xonSend p => decide (p < 128)
  | .xoffRefresh p cls => decide (p < 128) && decide (cls < 8)
  | .pfcStormDetect p cls => decide (p < 128) && decide (cls < 8)
  | .pfcStormRecover p cls => decide (p < 128) && decide (cls < 8)
  | .lpiEntry p => decide (p < 128)
  | .lpiWakeComplete p => decide (p < 128)
  | .peerLpiChange p _ => decide (p < 128)
  | .dispatch s n th _ => decide (s < 8) && decide (n < 34) && decide (th < 4)
  | .microword s n th => decide (s < 8) && decide (n < 34) && decide (th < 4)
  | .threadRelease s n th => decide (s < 8) && decide (n < 34) && decide (th < 4)
  | .releaseToPipes s => decide (s < 8)
  | .porterStall s n => decide (s < 8) && decide (n < 34)
  | .porterRetire src s n => src.wf && decide (s < 8) && decide (n < 34)
  | .spareStoreCheckComplete s n _ => decide (s < 8) && decide (n < 34)
  | .spareTakeover s n => decide (s < 8) && decide (n < 34)
  | .storeCheck src s n => src.wf && decide (s < 8) && decide (n < 34)
  | .storeCheckComplete s _ => decide (s < 8)
  | .lookup s _ _ => decide (s < 8)
  | .tcamRepeatSearch s _ => decide (s < 8)
  | .tcamRowRewrite s => decide (s < 8)
  | .lpmHeldProbe h => decide (h < 2)
  | .actionResolution s _ => decide (s < 8)
  | .learnRequest s _ => decide (s < 8)
  | .learnInsert s => decide (s < 8)
  | .learnMove s => decide (s < 8)
  | .agerVisit s _ => decide (s < 8)
  | .emRead src s => src.wf && decide (s < 8)
  | .emSearch src s => src.wf && decide (s < 8)
  | .emSearchPending src s => src.wf && decide (s < 8)
  | .emInsert src s => src.wf && decide (s < 8)
  | .emWriteIfSeq src s => src.wf && decide (s < 8)
  | .emLearn src s => src.wf && decide (s < 8)
  | .emUnlearn src s => src.wf && decide (s < 8)
  | .emFlushPort src s => src.wf && decide (s < 8)
  | .emHoldFirst src s => src.wf && decide (s < 8)
  | .overflowReturn s _ => decide (s < 8)
  | .bdRead src s => src.wf && decide (s < 8)
  | .bdWrite src s => src.wf && decide (s < 8)
  | .lpmRead src h => src.wf && decide (h < 2)
  | .lpmSearch src h => src.wf && decide (h < 2)
  | .lpmSearchPending src h => src.wf && decide (h < 2)
  | .lpmInsert src h => src.wf && decide (h < 2)
  | .lpmWriteIfSeq src h => src.wf && decide (h < 2)
  | .filterRead src h _ => src.wf && decide (h < 2)
  | .filterWrite src h _ => src.wf && decide (h < 2)
  | .setRange src h _ => src.wf && decide (h < 2)
  | .clearRange src h _ => src.wf && decide (h < 2)
  | .readPart src s => src.wf && decide (s < 8)
  | .loadPart src s => src.wf && decide (s < 8)
  | .tcamWriteIfSeq src s => src.wf && decide (s < 8)
  | .tcamSearch src s => src.wf && decide (s < 8)
  | .tcamWriteSlot s => decide (s < 8)
  | .tcamScrubRead s _ _ _ => decide (s < 8)
  | .windowCommandComplete _ => true
  | .accordOpen src _ => src.wf
  | .accordCommit src => src.wf
  | .commitTakeEffect => true
  | .accordWithdraw src => src.wf
  | .accordDiscard src => src.wf
  | .discardComplete => true
  | .accordRetire slot => decide (slot < 4)
  | .accordDrainSlow slot => decide (slot < 4)
  | .accordDrainWrite src _ => src.wf
  | .accordRetiredRead src => src.wf
  | .settlerVisit _ => true
  | .objectRead src _ => src.wf
  | .objectWrite src _ => src.wf
  | .resetBuckets src s => src.wf && decide (s < 8)
  | .groupHeadRead src s => src.wf && decide (s < 8)
  | .groupHeadWriteIfSeq src s => src.wf && decide (s < 8)
  | .cellSend s k => decide (s < 8) && decide (k < 4)
  | .planeCellArrival k s _ => decide (k < 4) && decide (s < 8)
  | .planeCellForward k s _ => decide (k < 4) && decide (s < 8)
  | .sliceCellArrival s k _ => decide (s < 8) && decide (k < 4)
  | .linkAck k s _ _ => decide (k < 4) && decide (s < 8)
  | .resendRequest k s _ _ => decide (k < 4) && decide (s < 8)
  | .fabricCrcWindow k s _ => decide (k < 4) && decide (s < 8)
  | .linkLossOfLock k s _ => decide (k < 4) && decide (s < 8)
  | .planePllLoss k => decide (k < 4)
  | .barrierReceived s _ k => decide (s < 8) && decide (k < 4)
  | .barrierWaitExpiry s _ => decide (s < 8)
  | .planeRetire src k => src.wf && decide (k < 4)
  | .planeRestore src k => src.wf && decide (k < 4)
  | .planeDrainComplete k => decide (k < 4)
  | .coachHeadEnqueue p => decide (p < 128)
  | .coachTimeout p => decide (p < 128)
  | .cellAlloc h _ _ => decide (h < 2)
  | .cellShare h _ _ _ => decide (h < 2)
  | .cellHandover h _ _ _ => decide (h < 2)
  | .cellFree h _ _ => decide (h < 2)
  | .cellRead src h => src.wf && decide (h < 2)
  | .reclaim src h => src.wf && decide (h < 2)
  | .bpmPortErr h _ => decide (h < 2)
  | .requesterReclaimComplete h _ => decide (h < 2)
  | .recoveryEnd h _ => decide (h < 2)
  | .freeListRebuild h => decide (h < 2)
  | .spillBundleWrite h _ => decide (h < 2)
  | .spillBundleTimer h _ => decide (h < 2)
  | .spillWriteComplete h _ => decide (h < 2)
  | .spillFetch h _ => decide (h < 2)
  | .bundleReadComplete h _ _ => decide (h < 2)
  | .schedulingDecision p => decide (p < 128)
  | .shaperConform s _ => decide (s < 8)
  | .txFrameEnd p => decide (p < 128)
  | .txUnderrun p => decide (p < 128)
  | .schedRecordRead src _ => src.wf
  | .schedRecordWrite src _ => src.wf
  | .queueStatusRead src s => src.wf && decide (s < 8)
  | .gateEdge p => decide (p < 128)
  | .gateBaseTime p => decide (p < 128)
  | .gclWrite src _ _ => src.wf
  | .gateSwapArm src p => src.wf && decide (p < 128)
  | .gateSwapCancel src p => src.wf && decide (p < 128)
  | .gateSwap p => decide (p < 128)
  | .timeBaseTick => true
  | .tbNowRead src t => src.wf && decide (t < 8)
  | .tbPpsRead src t => src.wf && decide (t < 8)
  | .tbHoldover t => decide (t < 8)
  | .tbRefLoss => true
  | .tbRefSelect src _ => src.wf
  | .tbPllLock => true
  | .ppsInEdge => true
  | .ppsOutPulse output => decide (output < 2)
  | .ppsOutPulseEnd output => decide (output < 2)
  | .hbmRequest m pc req _ _ _ _ => decide (m < 2) && decide (pc < 32) && decide (req < 8)
  | .hbmArbDecision m pc => decide (m < 2) && decide (pc < 32)
  | .hbmTransferComplete m pc _ => decide (m < 2) && decide (pc < 32)
  | .hbmArbStarve m pc req => decide (m < 2) && decide (pc < 32) && decide (req < 8)
  | .refreshOwedTick m => decide (m < 2)
  | .perBankRefresh m pc bank => decide (m < 2) && decide (pc < 32) && decide (bank < 32)
  | .refreshEmergency m pc bank => decide (m < 2) && decide (pc < 32) && decide (bank < 32)
  | .hbmTempRead m _ => decide (m < 2)
  | .rowHammerThrottleEnd m pc req => decide (m < 2) && decide (pc < 32) && decide (req < 8)
  | .rowHammerWindow m => decide (m < 2)
  | .hbmTrain src m _ => src.wf && decide (m < 2)
  | .trainingStepComplete m pc _ => decide (m < 2) && decide (pc < 32)
  | .hbmFreq src m _ => src.wf && decide (m < 2)
  | .freqChangeStart m => decide (m < 2)
  | .freqChangeComplete m => decide (m < 2)
  | .selfRefreshEnter src m => src.wf && decide (m < 2)
  | .selfRefreshExit src m => src.wf && decide (m < 2)
  | .selfRefreshEntryComplete m => decide (m < 2)
  | .selfRefreshExitComplete m => decide (m < 2)
  | .selfRefreshIdle m => decide (m < 2)
  | .hbmRetire src m pc => src.wf && decide (m < 2) && decide (pc < 32)
  | .hbmRetireClear src m pc => src.wf && decide (m < 2) && decide (pc < 32)
  | .relocationCopyComplete m => decide (m < 2)
  | .hbmPllLoss m => decide (m < 2)
  | .memFill src _ => src.wf
  | .fillComplete u => decide (u < 65536)
  | .scrubRead u _ _ _ => decide (u < 65536)
  | .memRemap src _ => src.wf
  | .remapComplete u => decide (u < 65536)
  | .memRemapClear src _ => src.wf
  | .fifoSwap f => decide (f < 25)
  | .fifoFlush src f => src.wf && decide (f < 25)
  | .fifoFlushEffect f _ => decide (f < 25)
  | .ledgerMessageArrival _ => true
  | .ledgerRecordWrite => true
  | .ledgerRecordsLost => true
  | .conditionCleared _ _ => true
  | .reactionBlockReset => true
  | .reactionChipReset => true
  | .journalWrite => true
  | .errnRelease src => src.wf
  | .injectionArm src _ => src.wf
  | .injectionDisarm src => src.wf
  | .latchkeyTake src key => src.wf && decide (key < 64)
  | .latchkeyRelease src key => src.wf && decide (key < 64)
  | .latchkeySuspectClear src key => src.wf && decide (key < 64)
  | .latchkeyBreak src _ => src.wf
  | .sleepEntry s => decide (s < 8)
  | .sleepEntryComplete s => decide (s < 8)
  | .sliceWake s => decide (s < 8)
  | .wakeCmd src mask => src.wf && decide (mask < 256)
  | .wakeComplete s => decide (s < 8)
  | .pllPrimaryTimeout s => decide (s < 8)
  | .wakeBackupTimeout s => decide (s < 8)
  | .nightWindowStart => true
  | .nightSelfRefreshEntry m => decide (m < 2)
  | .selfRefreshRetry m => decide (m < 2)
  | .nightWindowEnd => true
  | .avsStep => true
  | .avsVerify a => match a with
    | .vout mv => decide (mv < 4096)
    | .failed k => decide (k < 256)
  | .ageingMonitorRead _ => true
  | .replan => true
  | .replanItem _ => true
  | .thermalSample _ => true
  | .supplySag _ => true
  | .keepsakeWritesResume => true
  | .keepsakeRead src => src.wf
  | .keepsakeWrite src => src.wf
  | .keepsakeLineWrite => true
  | .bar0MalformedAccess src _ size _ => src.wf && [1, 2, 4, 8, 16, 32, 64].contains size
  | .vfAccessDenied n _ _ => decide (1 ≤ n) && decide (n < 16)
  | .pcieLinkDown => true
  | .pcieLinkUp => true
  | .vfFlr n => decide (1 ≤ n) && decide (n < 16)
  | .irqLineRise g => decide (g < 16)
  | .irqRearm src _ => src.wf
  | .ringEnable src r _ => src.wf && decide (r < 4096)
  | .ringPiWrite src r _ => src.wf && decide (r < 4096)
  | .ringCiWrite src r _ => src.wf && decide (r < 4096)
  | .ringIrqModeration r => decide (r < 4096)
  | .puntWrite s _ => decide (s < 10)
  | .injectDescriptorFetch r _ => decide (r < 4096)
  | .injectFrameRead r _ => decide (r < 4096)
  | .eventRecordWrite f _ => decide (f < 26)
  | .coreRelease src core => src.wf && decide (core < 4)
  | .coreHold src core => src.wf && decide (core < 4)
  | .coreBusError core _ _ => decide (core < 4)
  | .watchdogKick src core => src.wf && decide (core < 4)
  | .watchdogExpiry core => decide (core < 4)
  | .mgmtFrameReceive mac _ _ => decide (mac < 2)
  | .mgmtFrameSend mac => decide (mac < 2)
  | .sweepTrigger src list => src.wf && decide (list < 16)
  | .sweepPeriodTimer list => decide (list < 16)
  | .sweepSecond => true
  | .sweepStart => true
  | .sweepComplete => true
  | .serdesReferenceLoss j => decide (j < 4)
  | .systemReferenceLoss => true
  | .systemPllLock => true
  | .planeLinkLock k s => decide (k < 4) && decide (s < 8)
  | .serdesReferenceReturn j => decide (j < 4)
  | .gpioEdge pin _ => decide (pin < 32)

end Sys2Proof
end

