-- ==== Sys2Proof/Laws/PerInstr.lean ====
section
/-! SUPPORT. The statements made per command. -/

namespace Sys2Proof.Laws.Wf

/-- The sender of a well-formed command exists (spec/20_host_interface.md R432). -/
def Statement (i : Instr) : Prop := i.wf = true → ∀ x, i.source = some x → x.wf = true

theorem noSender {x : Source} (h : (none : Option Source) = some x) : False := by cases h

theorem left {a b : Bool} (h : (a && b) = true) : a = true := by cases a <;> simp_all

theorem registerWrite (a0 : Source) (a1 : Nat) (a2 : Nat) (a3 : Word) : Statement (.registerWrite a0 a1 a2 a3) := fun h _ hx => Option.some.inj hx ▸ (left h)
theorem rcFieldRead (a0 : Source) (a1 : Nat) (a2 : Nat) : Statement (.rcFieldRead a0 a1 a2) := fun h _ hx => Option.some.inj hx ▸ (left h)
theorem suiteQuery (a0 : Source) (a1 : Nat) : Statement (.suiteQuery a0 a1) := fun h _ hx => Option.some.inj hx ▸ (left h)
theorem unitResetRelease (a0 : Source) (a1 : Nat) : Statement (.unitResetRelease a0 a1) := fun h _ hx => Option.some.inj hx ▸ (left h)
theorem unitResetHold (a0 : Source) (a1 : Nat) : Statement (.unitResetHold a0 a1) := fun h _ hx => Option.some.inj hx ▸ (left h)
theorem unitReleaseHeld (a0 : Source) (a1 : Nat) : Statement (.unitReleaseHeld a0 a1) := fun h _ hx => Option.some.inj hx ▸ (left h)
theorem unitResetComplete (a0 : Nat) : Statement (.unitResetComplete a0) := fun _ _ hx => (noSender hx).elim
theorem unitHoldReached (a0 : Nat) : Statement (.unitHoldReached a0) := fun _ _ hx => (noSender hx).elim
theorem applyGo (a0 : Source) (a1 : Nat) (a2 : Nat) : Statement (.applyGo a0 a1 a2) := fun h _ hx => Option.some.inj hx ▸ h
theorem applyRevert (a0 : Source) (a1 : Nat) : Statement (.applyRevert a0 a1) := fun h _ hx => Option.some.inj hx ▸ h
theorem applyTakeEffect (a0 : Nat) : Statement (.applyTakeEffect a0) := fun _ _ hx => (noSender hx).elim
theorem applyTimeout (a0 : Nat) : Statement (.applyTimeout a0) := fun _ _ hx => (noSender hx).elim
theorem powerOn : Statement (.powerOn) := fun _ _ hx => (noSender hx).elim
theorem powerLoss : Statement (.powerLoss) := fun _ _ hx => (noSender hx).elim
theorem pinChipReset : Statement (.pinChipReset) := fun _ _ hx => (noSender hx).elim
theorem sysRstNRise : Statement (.sysRstNRise) := fun _ _ hx => (noSender hx).elim
theorem internalRelease : Statement (.internalRelease) := fun _ _ hx => (noSender hx).elim
theorem softwareChipReset (a0 : Source) (a1 : Nat) : Statement (.softwareChipReset a0 a1) := fun h _ hx => Option.some.inj hx ▸ h
theorem perstNAssert : Statement (.perstNAssert) := fun _ _ hx => (noSender hx).elim
theorem perstNRelease : Statement (.perstNRelease) := fun _ _ hx => (noSender hx).elim
theorem stack0TrainingComplete : Statement (.stack0TrainingComplete) := fun _ _ hx => (noSender hx).elim
theorem slotCheckComplete (a0 : Option Image) (a1 : ImageSigs) : Statement (.slotCheckComplete a0 a1) := fun _ _ hx => (noSender hx).elim
theorem imageHandover (a0 : Image) : Statement (.imageHandover a0) := fun _ _ hx => (noSender hx).elim
theorem imageApplyComplete : Statement (.imageApplyComplete) := fun _ _ hx => (noSender hx).elim
theorem fullTrainingComplete (a0 : Nat) (a1 : List Nat) : Statement (.fullTrainingComplete a0 a1) := fun _ _ hx => (noSender hx).elim
theorem strongroomTamper : Statement (.strongroomTamper) := fun _ _ hx => (noSender hx).elim
theorem strongroomSelftest : Statement (.strongroomSelftest) := fun _ _ hx => (noSender hx).elim
theorem trngHealth : Statement (.trngHealth) := fun _ _ hx => (noSender hx).elim
theorem trngHealthRecover : Statement (.trngHealthRecover) := fun _ _ hx => (noSender hx).elim
theorem getInfo (a0 : Nat) (a1 : Nat) (a2 : Nat) : Statement (.getInfo a0 a1 a2) := fun _ _ hx => (noSender hx).elim
theorem getRandom (a0 : Nat) (a1 : Nat) (a2 : Nat) : Statement (.getRandom a0 a1 a2) := fun _ _ hx => (noSender hx).elim
theorem getBootReport (a0 : Nat) (a1 : Nat) (a2 : Nat) : Statement (.getBootReport a0 a1 a2) := fun _ _ hx => (noSender hx).elim
theorem enrolCustomerKey (a0 : Nat) (a1 : Nat) (a2 : Nat) (a3 : TokenCheck) (a4 : Nat) : Statement (.enrolCustomerKey a0 a1 a2 a3 a4) := fun _ _ hx => (noSender hx).elim
theorem revokeCustomerKey (a0 : Nat) (a1 : Nat) (a2 : Nat) (a3 : TokenCheck) (a4 : Nat) : Statement (.revokeCustomerKey a0 a1 a2 a3 a4) := fun _ _ hx => (noSender hx).elim
theorem advanceEpoch (a0 : Nat) (a1 : Nat) (a2 : Nat) (a3 : Nat) : Statement (.advanceEpoch a0 a1 a2 a3) := fun _ _ hx => (noSender hx).elim
theorem debugChallenge (a0 : Nat) (a1 : Nat) (a2 : Nat) : Statement (.debugChallenge a0 a1 a2) := fun _ _ hx => (noSender hx).elim
theorem debugResponse (a0 : Nat) (a1 : Nat) (a2 : Nat) (a3 : TokenCheck) : Statement (.debugResponse a0 a1 a2 a3) := fun _ _ hx => (noSender hx).elim
theorem setBootSlot (a0 : Nat) (a1 : Nat) (a2 : Nat) : Statement (.setBootSlot a0 a1 a2) := fun _ _ hx => (noSender hx).elim
theorem bootFromHost (a0 : Nat) (a1 : Nat) (a2 : Nat) : Statement (.bootFromHost a0 a1 a2) := fun _ _ hx => (noSender hx).elim
theorem selfTest (a0 : Nat) (a1 : Nat) (a2 : Nat) (a3 : Bool) : Statement (.selfTest a0 a1 a2 a3) := fun _ _ hx => (noSender hx).elim
theorem attest (a0 : Nat) (a1 : Nat) (a2 : Nat) : Statement (.attest a0 a1 a2) := fun _ _ hx => (noSender hx).elim
theorem mailboxComplete (a0 : Nat) : Statement (.mailboxComplete a0) := fun _ _ hx => (noSender hx).elim
theorem controlFirmwareCheck (a0 : Bool) : Statement (.controlFirmwareCheck a0) := fun _ _ hx => (noSender hx).elim
theorem laneTxEqWrite (a0 : Source) (a1 : Nat) (a2 : Word) : Statement (.laneTxEqWrite a0 a1 a2) := fun h _ hx => Option.some.inj hx ▸ (left h)
theorem laneTestWrite (a0 : Source) (a1 : Nat) (a2 : Nat) : Statement (.laneTestWrite a0 a1 a2) := fun h _ hx => Option.some.inj hx ▸ (left (left h))
theorem laneSignalChange (a0 : Nat) (a1 : Bool) : Statement (.laneSignalChange a0 a1) := fun _ _ hx => (noSender hx).elim
theorem laneAdaptComplete (a0 : Nat) : Statement (.laneAdaptComplete a0) := fun _ _ hx => (noSender hx).elim
theorem fecUncorrectableCodeword (a0 : Nat) : Statement (.fecUncorrectableCodeword a0) := fun _ _ hx => (noSender hx).elim
theorem fecDegradeWindow (a0 : Nat) (a1 : FecWindow) : Statement (.fecDegradeWindow a0 a1) := fun _ _ hx => (noSender hx).elim
theorem pcsStatusChange (a0 : Nat) (a1 : Bool) (a2 : Bool) (a3 : Bool) : Statement (.pcsStatusChange a0 a1 a2 a3) := fun _ _ hx => (noSender hx).elim
theorem linkDown (a0 : Nat) : Statement (.linkDown a0) := fun _ _ hx => (noSender hx).elim
theorem linkUp (a0 : Nat) : Statement (.linkUp a0) := fun _ _ hx => (noSender hx).elim
theorem holdExpiry (a0 : Nat) : Statement (.holdExpiry a0) := fun _ _ hx => (noSender hx).elim
theorem rxFrameStart (a0 : Nat) (a1 : List Byte) : Statement (.rxFrameStart a0 a1) := fun _ _ hx => (noSender hx).elim
theorem rxFrameEnd (a0 : Nat) (a1 : List Byte) (a2 : Bool) : Statement (.rxFrameEnd a0 a1 a2) := fun _ _ hx => (noSender hx).elim
theorem pauseFrameReceived (a0 : Nat) (a1 : List Byte) : Statement (.pauseFrameReceived a0 a1) := fun _ _ hx => (noSender hx).elim
theorem pauseExpiry (a0 : Nat) (a1 : Nat) : Statement (.pauseExpiry a0 a1) := fun _ _ hx => (noSender hx).elim
theorem xoffSend (a0 : Nat) : Statement (.xoffSend a0) := fun _ _ hx => (noSender hx).elim
theorem xonSend (a0 : Nat) : Statement (.xonSend a0) := fun _ _ hx => (noSender hx).elim
theorem xoffRefresh (a0 : Nat) (a1 : Nat) : Statement (.xoffRefresh a0 a1) := fun _ _ hx => (noSender hx).elim
theorem pfcStormDetect (a0 : Nat) (a1 : Nat) : Statement (.pfcStormDetect a0 a1) := fun _ _ hx => (noSender hx).elim
theorem pfcStormRecover (a0 : Nat) (a1 : Nat) : Statement (.pfcStormRecover a0 a1) := fun _ _ hx => (noSender hx).elim
theorem lpiEntry (a0 : Nat) : Statement (.lpiEntry a0) := fun _ _ hx => (noSender hx).elim
theorem lpiWakeComplete (a0 : Nat) : Statement (.lpiWakeComplete a0) := fun _ _ hx => (noSender hx).elim
theorem peerLpiChange (a0 : Nat) (a1 : Bool) : Statement (.peerLpiChange a0 a1) := fun _ _ hx => (noSender hx).elim
theorem dispatch (a0 : Nat) (a1 : Nat) (a2 : Nat) (a3 : Nat) : Statement (.dispatch a0 a1 a2 a3) := fun _ _ hx => (noSender hx).elim
theorem microword (a0 : Nat) (a1 : Nat) (a2 : Nat) : Statement (.microword a0 a1 a2) := fun _ _ hx => (noSender hx).elim
theorem threadRelease (a0 : Nat) (a1 : Nat) (a2 : Nat) : Statement (.threadRelease a0 a1 a2) := fun _ _ hx => (noSender hx).elim
theorem releaseToPipes (a0 : Nat) : Statement (.releaseToPipes a0) := fun _ _ hx => (noSender hx).elim
theorem porterStall (a0 : Nat) (a1 : Nat) : Statement (.porterStall a0 a1) := fun _ _ hx => (noSender hx).elim
theorem porterRetire (a0 : Source) (a1 : Nat) (a2 : Nat) : Statement (.porterRetire a0 a1 a2) := fun h _ hx => Option.some.inj hx ▸ (left (left h))
theorem spareStoreCheckComplete (a0 : Nat) (a1 : Nat) (a2 : List (Nat × Entry)) : Statement (.spareStoreCheckComplete a0 a1 a2) := fun _ _ hx => (noSender hx).elim
theorem spareTakeover (a0 : Nat) (a1 : Nat) : Statement (.spareTakeover a0 a1) := fun _ _ hx => (noSender hx).elim
theorem storeCheck (a0 : Source) (a1 : Nat) (a2 : Nat) : Statement (.storeCheck a0 a1 a2) := fun h _ hx => Option.some.inj hx ▸ (left (left h))
theorem storeCheckComplete (a0 : Nat) (a1 : List (Nat × Entry)) : Statement (.storeCheckComplete a0 a1) := fun _ _ hx => (noSender hx).elim
theorem lookup (a0 : Nat) (a1 : Nat) (a2 : List (Nat × Key)) : Statement (.lookup a0 a1 a2) := fun _ _ hx => (noSender hx).elim
theorem tcamRepeatSearch (a0 : Nat) (a1 : Nat) : Statement (.tcamRepeatSearch a0 a1) := fun _ _ hx => (noSender hx).elim
theorem tcamRowRewrite (a0 : Nat) : Statement (.tcamRowRewrite a0) := fun _ _ hx => (noSender hx).elim
theorem lpmHeldProbe (a0 : Nat) : Statement (.lpmHeldProbe a0) := fun _ _ hx => (noSender hx).elim
theorem actionResolution (a0 : Nat) (a1 : Nat) : Statement (.actionResolution a0 a1) := fun _ _ hx => (noSender hx).elim
theorem learnRequest (a0 : Nat) (a1 : Nat) : Statement (.learnRequest a0 a1) := fun _ _ hx => (noSender hx).elim
theorem learnInsert (a0 : Nat) : Statement (.learnInsert a0) := fun _ _ hx => (noSender hx).elim
theorem learnMove (a0 : Nat) : Statement (.learnMove a0) := fun _ _ hx => (noSender hx).elim
theorem agerVisit (a0 : Nat) (a1 : Nat) : Statement (.agerVisit a0 a1) := fun _ _ hx => (noSender hx).elim
theorem emRead (a0 : Source) (a1 : Nat) : Statement (.emRead a0 a1) := fun h _ hx => Option.some.inj hx ▸ (left h)
theorem emSearch (a0 : Source) (a1 : Nat) : Statement (.emSearch a0 a1) := fun h _ hx => Option.some.inj hx ▸ (left h)
theorem emSearchPending (a0 : Source) (a1 : Nat) : Statement (.emSearchPending a0 a1) := fun h _ hx => Option.some.inj hx ▸ (left h)
theorem emInsert (a0 : Source) (a1 : Nat) : Statement (.emInsert a0 a1) := fun h _ hx => Option.some.inj hx ▸ (left h)
theorem emWriteIfSeq (a0 : Source) (a1 : Nat) : Statement (.emWriteIfSeq a0 a1) := fun h _ hx => Option.some.inj hx ▸ (left h)
theorem emLearn (a0 : Source) (a1 : Nat) : Statement (.emLearn a0 a1) := fun h _ hx => Option.some.inj hx ▸ (left h)
theorem emUnlearn (a0 : Source) (a1 : Nat) : Statement (.emUnlearn a0 a1) := fun h _ hx => Option.some.inj hx ▸ (left h)
theorem emFlushPort (a0 : Source) (a1 : Nat) : Statement (.emFlushPort a0 a1) := fun h _ hx => Option.some.inj hx ▸ (left h)
theorem emHoldFirst (a0 : Source) (a1 : Nat) : Statement (.emHoldFirst a0 a1) := fun h _ hx => Option.some.inj hx ▸ (left h)
theorem overflowReturn (a0 : Nat) (a1 : Nat) : Statement (.overflowReturn a0 a1) := fun _ _ hx => (noSender hx).elim
theorem bdRead (a0 : Source) (a1 : Nat) : Statement (.bdRead a0 a1) := fun h _ hx => Option.some.inj hx ▸ (left h)
theorem bdWrite (a0 : Source) (a1 : Nat) : Statement (.bdWrite a0 a1) := fun h _ hx => Option.some.inj hx ▸ (left h)
theorem lpmRead (a0 : Source) (a1 : Nat) : Statement (.lpmRead a0 a1) := fun h _ hx => Option.some.inj hx ▸ (left h)
theorem lpmSearch (a0 : Source) (a1 : Nat) : Statement (.lpmSearch a0 a1) := fun h _ hx => Option.some.inj hx ▸ (left h)
theorem lpmSearchPending (a0 : Source) (a1 : Nat) : Statement (.lpmSearchPending a0 a1) := fun h _ hx => Option.some.inj hx ▸ (left h)
theorem lpmInsert (a0 : Source) (a1 : Nat) : Statement (.lpmInsert a0 a1) := fun h _ hx => Option.some.inj hx ▸ (left h)
theorem lpmWriteIfSeq (a0 : Source) (a1 : Nat) : Statement (.lpmWriteIfSeq a0 a1) := fun h _ hx => Option.some.inj hx ▸ (left h)
theorem filterRead (a0 : Source) (a1 : Nat) (a2 : Bool) : Statement (.filterRead a0 a1 a2) := fun h _ hx => Option.some.inj hx ▸ (left h)
theorem filterWrite (a0 : Source) (a1 : Nat) (a2 : Bool) : Statement (.filterWrite a0 a1 a2) := fun h _ hx => Option.some.inj hx ▸ (left h)
theorem setRange (a0 : Source) (a1 : Nat) (a2 : Bool) : Statement (.setRange a0 a1 a2) := fun h _ hx => Option.some.inj hx ▸ (left h)
theorem clearRange (a0 : Source) (a1 : Nat) (a2 : Bool) : Statement (.clearRange a0 a1 a2) := fun h _ hx => Option.some.inj hx ▸ (left h)
theorem readPart (a0 : Source) (a1 : Nat) : Statement (.readPart a0 a1) := fun h _ hx => Option.some.inj hx ▸ (left h)
theorem loadPart (a0 : Source) (a1 : Nat) : Statement (.loadPart a0 a1) := fun h _ hx => Option.some.inj hx ▸ (left h)
theorem tcamWriteIfSeq (a0 : Source) (a1 : Nat) : Statement (.tcamWriteIfSeq a0 a1) := fun h _ hx => Option.some.inj hx ▸ (left h)
theorem tcamSearch (a0 : Source) (a1 : Nat) : Statement (.tcamSearch a0 a1) := fun h _ hx => Option.some.inj hx ▸ (left h)
theorem tcamWriteSlot (a0 : Nat) : Statement (.tcamWriteSlot a0) := fun _ _ hx => (noSender hx).elim
theorem tcamScrubRead (a0 : Nat) (a1 : Nat) (a2 : Nat) (a3 : Key) : Statement (.tcamScrubRead a0 a1 a2 a3) := fun _ _ hx => (noSender hx).elim
theorem windowCommandComplete (a0 : Nat) : Statement (.windowCommandComplete a0) := fun _ _ hx => (noSender hx).elim
theorem accordOpen (a0 : Source) (a1 : Word) : Statement (.accordOpen a0 a1) := fun h _ hx => Option.some.inj hx ▸ h
theorem accordCommit (a0 : Source) : Statement (.accordCommit a0) := fun h _ hx => Option.some.inj hx ▸ h
theorem commitTakeEffect : Statement (.commitTakeEffect) := fun _ _ hx => (noSender hx).elim
theorem accordWithdraw (a0 : Source) : Statement (.accordWithdraw a0) := fun h _ hx => Option.some.inj hx ▸ h
theorem accordDiscard (a0 : Source) : Statement (.accordDiscard a0) := fun h _ hx => Option.some.inj hx ▸ h
theorem discardComplete : Statement (.discardComplete) := fun _ _ hx => (noSender hx).elim
theorem accordRetire (a0 : Nat) : Statement (.accordRetire a0) := fun _ _ hx => (noSender hx).elim
theorem accordDrainSlow (a0 : Nat) : Statement (.accordDrainSlow a0) := fun _ _ hx => (noSender hx).elim
theorem accordDrainWrite (a0 : Source) (a1 : Word) : Statement (.accordDrainWrite a0 a1) := fun h _ hx => Option.some.inj hx ▸ h
theorem accordRetiredRead (a0 : Source) : Statement (.accordRetiredRead a0) := fun h _ hx => Option.some.inj hx ▸ h
theorem settlerVisit (a0 : SettlePlace) : Statement (.settlerVisit a0) := fun _ _ hx => (noSender hx).elim
theorem objectRead (a0 : Source) (a1 : Nat) : Statement (.objectRead a0 a1) := fun h _ hx => Option.some.inj hx ▸ h
theorem objectWrite (a0 : Source) (a1 : Nat) : Statement (.objectWrite a0 a1) := fun h _ hx => Option.some.inj hx ▸ h
theorem resetBuckets (a0 : Source) (a1 : Nat) : Statement (.resetBuckets a0 a1) := fun h _ hx => Option.some.inj hx ▸ (left h)
theorem groupHeadRead (a0 : Source) (a1 : Nat) : Statement (.groupHeadRead a0 a1) := fun h _ hx => Option.some.inj hx ▸ (left h)
theorem groupHeadWriteIfSeq (a0 : Source) (a1 : Nat) : Statement (.groupHeadWriteIfSeq a0 a1) := fun h _ hx => Option.some.inj hx ▸ (left h)
theorem cellSend (a0 : Nat) (a1 : Nat) : Statement (.cellSend a0 a1) := fun _ _ hx => (noSender hx).elim
theorem planeCellArrival (a0 : Nat) (a1 : Nat) (a2 : Bool) : Statement (.planeCellArrival a0 a1 a2) := fun _ _ hx => (noSender hx).elim
theorem planeCellForward (a0 : Nat) (a1 : Nat) (a2 : Bool) : Statement (.planeCellForward a0 a1 a2) := fun _ _ hx => (noSender hx).elim
theorem sliceCellArrival (a0 : Nat) (a1 : Nat) (a2 : Bool) : Statement (.sliceCellArrival a0 a1 a2) := fun _ _ hx => (noSender hx).elim
theorem linkAck (a0 : Nat) (a1 : Nat) (a2 : Bool) (a3 : Nat) : Statement (.linkAck a0 a1 a2 a3) := fun _ _ hx => (noSender hx).elim
theorem resendRequest (a0 : Nat) (a1 : Nat) (a2 : Bool) (a3 : Nat) : Statement (.resendRequest a0 a1 a2 a3) := fun _ _ hx => (noSender hx).elim
theorem fabricCrcWindow (a0 : Nat) (a1 : Nat) (a2 : Bool) : Statement (.fabricCrcWindow a0 a1 a2) := fun _ _ hx => (noSender hx).elim
theorem linkLossOfLock (a0 : Nat) (a1 : Nat) (a2 : Bool) : Statement (.linkLossOfLock a0 a1 a2) := fun _ _ hx => (noSender hx).elim
theorem planePllLoss (a0 : Nat) : Statement (.planePllLoss a0) := fun _ _ hx => (noSender hx).elim
theorem barrierReceived (a0 : Nat) (a1 : Nat) (a2 : Nat) : Statement (.barrierReceived a0 a1 a2) := fun _ _ hx => (noSender hx).elim
theorem barrierWaitExpiry (a0 : Nat) (a1 : Nat) : Statement (.barrierWaitExpiry a0 a1) := fun _ _ hx => (noSender hx).elim
theorem planeRetire (a0 : Source) (a1 : Nat) : Statement (.planeRetire a0 a1) := fun h _ hx => Option.some.inj hx ▸ (left h)
theorem planeRestore (a0 : Source) (a1 : Nat) : Statement (.planeRestore a0 a1) := fun h _ hx => Option.some.inj hx ▸ (left h)
theorem planeDrainComplete (a0 : Nat) : Statement (.planeDrainComplete a0) := fun _ _ hx => (noSender hx).elim
theorem coachHeadEnqueue (a0 : Nat) : Statement (.coachHeadEnqueue a0) := fun _ _ hx => (noSender hx).elim
theorem coachTimeout (a0 : Nat) : Statement (.coachTimeout a0) := fun _ _ hx => (noSender hx).elim
theorem cellAlloc (a0 : Nat) (a1 : Nat) (a2 : Bool) : Statement (.cellAlloc a0 a1 a2) := fun _ _ hx => (noSender hx).elim
theorem cellShare (a0 : Nat) (a1 : Nat) (a2 : Nat) (a3 : Nat) : Statement (.cellShare a0 a1 a2 a3) := fun _ _ hx => (noSender hx).elim
theorem cellHandover (a0 : Nat) (a1 : Nat) (a2 : Nat) (a3 : Nat) : Statement (.cellHandover a0 a1 a2 a3) := fun _ _ hx => (noSender hx).elim
theorem cellFree (a0 : Nat) (a1 : Nat) (a2 : Nat) : Statement (.cellFree a0 a1 a2) := fun _ _ hx => (noSender hx).elim
theorem cellRead (a0 : Source) (a1 : Nat) : Statement (.cellRead a0 a1) := fun h _ hx => Option.some.inj hx ▸ (left h)
theorem reclaim (a0 : Source) (a1 : Nat) : Statement (.reclaim a0 a1) := fun h _ hx => Option.some.inj hx ▸ (left h)
theorem bpmPortErr (a0 : Nat) (a1 : Nat) : Statement (.bpmPortErr a0 a1) := fun _ _ hx => (noSender hx).elim
theorem requesterReclaimComplete (a0 : Nat) (a1 : Nat) : Statement (.requesterReclaimComplete a0 a1) := fun _ _ hx => (noSender hx).elim
theorem recoveryEnd (a0 : Nat) (a1 : Nat) : Statement (.recoveryEnd a0 a1) := fun _ _ hx => (noSender hx).elim
theorem freeListRebuild (a0 : Nat) : Statement (.freeListRebuild a0) := fun _ _ hx => (noSender hx).elim
theorem spillBundleWrite (a0 : Nat) (a1 : Nat) : Statement (.spillBundleWrite a0 a1) := fun _ _ hx => (noSender hx).elim
theorem spillBundleTimer (a0 : Nat) (a1 : Nat) : Statement (.spillBundleTimer a0 a1) := fun _ _ hx => (noSender hx).elim
theorem spillWriteComplete (a0 : Nat) (a1 : Nat) : Statement (.spillWriteComplete a0 a1) := fun _ _ hx => (noSender hx).elim
theorem spillFetch (a0 : Nat) (a1 : Nat) : Statement (.spillFetch a0 a1) := fun _ _ hx => (noSender hx).elim
theorem bundleReadComplete (a0 : Nat) (a1 : Nat) (a2 : Bool) : Statement (.bundleReadComplete a0 a1 a2) := fun _ _ hx => (noSender hx).elim
theorem schedulingDecision (a0 : Nat) : Statement (.schedulingDecision a0) := fun _ _ hx => (noSender hx).elim
theorem shaperConform (a0 : Nat) (a1 : Nat) : Statement (.shaperConform a0 a1) := fun _ _ hx => (noSender hx).elim
theorem txFrameEnd (a0 : Nat) : Statement (.txFrameEnd a0) := fun _ _ hx => (noSender hx).elim
theorem txUnderrun (a0 : Nat) : Statement (.txUnderrun a0) := fun _ _ hx => (noSender hx).elim
theorem schedRecordRead (a0 : Source) (a1 : Nat) : Statement (.schedRecordRead a0 a1) := fun h _ hx => Option.some.inj hx ▸ h
theorem schedRecordWrite (a0 : Source) (a1 : Nat) : Statement (.schedRecordWrite a0 a1) := fun h _ hx => Option.some.inj hx ▸ h
theorem queueStatusRead (a0 : Source) (a1 : Nat) : Statement (.queueStatusRead a0 a1) := fun h _ hx => Option.some.inj hx ▸ (left h)
theorem gateEdge (a0 : Nat) : Statement (.gateEdge a0) := fun _ _ hx => (noSender hx).elim
theorem gateBaseTime (a0 : Nat) : Statement (.gateBaseTime a0) := fun _ _ hx => (noSender hx).elim
theorem gclWrite (a0 : Source) (a1 : Nat) (a2 : Word) : Statement (.gclWrite a0 a1 a2) := fun h _ hx => Option.some.inj hx ▸ h
theorem gateSwapArm (a0 : Source) (a1 : Nat) : Statement (.gateSwapArm a0 a1) := fun h _ hx => Option.some.inj hx ▸ (left h)
theorem gateSwapCancel (a0 : Source) (a1 : Nat) : Statement (.gateSwapCancel a0 a1) := fun h _ hx => Option.some.inj hx ▸ (left h)
theorem gateSwap (a0 : Nat) : Statement (.gateSwap a0) := fun _ _ hx => (noSender hx).elim
theorem timeBaseTick : Statement (.timeBaseTick) := fun _ _ hx => (noSender hx).elim
theorem tbNowRead (a0 : Source) (a1 : Nat) : Statement (.tbNowRead a0 a1) := fun h _ hx => Option.some.inj hx ▸ (left h)
theorem tbPpsRead (a0 : Source) (a1 : Nat) : Statement (.tbPpsRead a0 a1) := fun h _ hx => Option.some.inj hx ▸ (left h)
theorem tbHoldover (a0 : Nat) : Statement (.tbHoldover a0) := fun _ _ hx => (noSender hx).elim
theorem tbRefLoss : Statement (.tbRefLoss) := fun _ _ hx => (noSender hx).elim
theorem tbRefSelect (a0 : Source) (a1 : Bool) : Statement (.tbRefSelect a0 a1) := fun h _ hx => Option.some.inj hx ▸ h
theorem tbPllLock : Statement (.tbPllLock) := fun _ _ hx => (noSender hx).elim
theorem ppsInEdge : Statement (.ppsInEdge) := fun _ _ hx => (noSender hx).elim
theorem ppsOutPulse (a0 : Nat) : Statement (.ppsOutPulse a0) := fun _ _ hx => (noSender hx).elim
theorem ppsOutPulseEnd (a0 : Nat) : Statement (.ppsOutPulseEnd a0) := fun _ _ hx => (noSender hx).elim
theorem hbmRequest (a0 : Nat) (a1 : Nat) (a2 : Nat) (a3 : Nat) (a4 : Bool) (a5 : Nat) (a6 : List Byte) : Statement (.hbmRequest a0 a1 a2 a3 a4 a5 a6) := fun _ _ hx => (noSender hx).elim
theorem hbmArbDecision (a0 : Nat) (a1 : Nat) : Statement (.hbmArbDecision a0 a1) := fun _ _ hx => (noSender hx).elim
theorem hbmTransferComplete (a0 : Nat) (a1 : Nat) (a2 : List (Nat × Bool)) : Statement (.hbmTransferComplete a0 a1 a2) := fun _ _ hx => (noSender hx).elim
theorem hbmArbStarve (a0 : Nat) (a1 : Nat) (a2 : Nat) : Statement (.hbmArbStarve a0 a1 a2) := fun _ _ hx => (noSender hx).elim
theorem refreshOwedTick (a0 : Nat) : Statement (.refreshOwedTick a0) := fun _ _ hx => (noSender hx).elim
theorem perBankRefresh (a0 : Nat) (a1 : Nat) (a2 : Nat) : Statement (.perBankRefresh a0 a1 a2) := fun _ _ hx => (noSender hx).elim
theorem refreshEmergency (a0 : Nat) (a1 : Nat) (a2 : Nat) : Statement (.refreshEmergency a0 a1 a2) := fun _ _ hx => (noSender hx).elim
theorem hbmTempRead (a0 : Nat) (a1 : Nat) : Statement (.hbmTempRead a0 a1) := fun _ _ hx => (noSender hx).elim
theorem rowHammerThrottleEnd (a0 : Nat) (a1 : Nat) (a2 : Nat) : Statement (.rowHammerThrottleEnd a0 a1 a2) := fun _ _ hx => (noSender hx).elim
theorem rowHammerWindow (a0 : Nat) : Statement (.rowHammerWindow a0) := fun _ _ hx => (noSender hx).elim
theorem hbmTrain (a0 : Source) (a1 : Nat) (a2 : Word) : Statement (.hbmTrain a0 a1 a2) := fun h _ hx => Option.some.inj hx ▸ (left h)
theorem trainingStepComplete (a0 : Nat) (a1 : Nat) (a2 : Bool) : Statement (.trainingStepComplete a0 a1 a2) := fun _ _ hx => (noSender hx).elim
theorem hbmFreq (a0 : Source) (a1 : Nat) (a2 : Word) : Statement (.hbmFreq a0 a1 a2) := fun h _ hx => Option.some.inj hx ▸ (left h)
theorem freqChangeStart (a0 : Nat) : Statement (.freqChangeStart a0) := fun _ _ hx => (noSender hx).elim
theorem freqChangeComplete (a0 : Nat) : Statement (.freqChangeComplete a0) := fun _ _ hx => (noSender hx).elim
theorem selfRefreshEnter (a0 : Source) (a1 : Nat) : Statement (.selfRefreshEnter a0 a1) := fun h _ hx => Option.some.inj hx ▸ (left h)
theorem selfRefreshExit (a0 : Source) (a1 : Nat) : Statement (.selfRefreshExit a0 a1) := fun h _ hx => Option.some.inj hx ▸ (left h)
theorem selfRefreshEntryComplete (a0 : Nat) : Statement (.selfRefreshEntryComplete a0) := fun _ _ hx => (noSender hx).elim
theorem selfRefreshExitComplete (a0 : Nat) : Statement (.selfRefreshExitComplete a0) := fun _ _ hx => (noSender hx).elim
theorem selfRefreshIdle (a0 : Nat) : Statement (.selfRefreshIdle a0) := fun _ _ hx => (noSender hx).elim
theorem hbmRetire (a0 : Source) (a1 : Nat) (a2 : Nat) : Statement (.hbmRetire a0 a1 a2) := fun h _ hx => Option.some.inj hx ▸ (left (left h))
theorem hbmRetireClear (a0 : Source) (a1 : Nat) (a2 : Nat) : Statement (.hbmRetireClear a0 a1 a2) := fun h _ hx => Option.some.inj hx ▸ (left (left h))
theorem relocationCopyComplete (a0 : Nat) : Statement (.relocationCopyComplete a0) := fun _ _ hx => (noSender hx).elim
theorem hbmPllLoss (a0 : Nat) : Statement (.hbmPllLoss a0) := fun _ _ hx => (noSender hx).elim
theorem memFill (a0 : Source) (a1 : Word) : Statement (.memFill a0 a1) := fun h _ hx => Option.some.inj hx ▸ h
theorem fillComplete (a0 : Nat) : Statement (.fillComplete a0) := fun _ _ hx => (noSender hx).elim
theorem scrubRead (a0 : Nat) (a1 : Nat) (a2 : Nat) (a3 : Nat) : Statement (.scrubRead a0 a1 a2 a3) := fun _ _ hx => (noSender hx).elim
theorem memRemap (a0 : Source) (a1 : Word) : Statement (.memRemap a0 a1) := fun h _ hx => Option.some.inj hx ▸ h
theorem remapComplete (a0 : Nat) : Statement (.remapComplete a0) := fun _ _ hx => (noSender hx).elim
theorem memRemapClear (a0 : Source) (a1 : Word) : Statement (.memRemapClear a0 a1) := fun h _ hx => Option.some.inj hx ▸ h
theorem fifoSwap (a0 : Nat) : Statement (.fifoSwap a0) := fun _ _ hx => (noSender hx).elim
theorem fifoFlush (a0 : Source) (a1 : Nat) : Statement (.fifoFlush a0 a1) := fun h _ hx => Option.some.inj hx ▸ (left h)
theorem fifoFlushEffect (a0 : Nat) (a1 : Bool) : Statement (.fifoFlushEffect a0 a1) := fun _ _ hx => (noSender hx).elim
theorem ledgerMessageArrival (a0 : Nat) : Statement (.ledgerMessageArrival a0) := fun _ _ hx => (noSender hx).elim
theorem ledgerRecordWrite : Statement (.ledgerRecordWrite) := fun _ _ hx => (noSender hx).elim
theorem ledgerRecordsLost : Statement (.ledgerRecordsLost) := fun _ _ hx => (noSender hx).elim
theorem conditionCleared (a0 : Nat) (a1 : Nat) : Statement (.conditionCleared a0 a1) := fun _ _ hx => (noSender hx).elim
theorem reactionBlockReset : Statement (.reactionBlockReset) := fun _ _ hx => (noSender hx).elim
theorem reactionChipReset : Statement (.reactionChipReset) := fun _ _ hx => (noSender hx).elim
theorem journalWrite : Statement (.journalWrite) := fun _ _ hx => (noSender hx).elim
theorem errnRelease (a0 : Source) : Statement (.errnRelease a0) := fun h _ hx => Option.some.inj hx ▸ h
theorem injectionArm (a0 : Source) (a1 : Word) : Statement (.injectionArm a0 a1) := fun h _ hx => Option.some.inj hx ▸ h
theorem injectionDisarm (a0 : Source) : Statement (.injectionDisarm a0) := fun h _ hx => Option.some.inj hx ▸ h
theorem latchkeyTake (a0 : Source) (a1 : Nat) : Statement (.latchkeyTake a0 a1) := fun h _ hx => Option.some.inj hx ▸ (left h)
theorem latchkeyRelease (a0 : Source) (a1 : Nat) : Statement (.latchkeyRelease a0 a1) := fun h _ hx => Option.some.inj hx ▸ (left h)
theorem latchkeySuspectClear (a0 : Source) (a1 : Nat) : Statement (.latchkeySuspectClear a0 a1) := fun h _ hx => Option.some.inj hx ▸ (left h)
theorem latchkeyBreak (a0 : Source) (a1 : Word) : Statement (.latchkeyBreak a0 a1) := fun h _ hx => Option.some.inj hx ▸ h
theorem sleepEntry (a0 : Nat) : Statement (.sleepEntry a0) := fun _ _ hx => (noSender hx).elim
theorem sleepEntryComplete (a0 : Nat) : Statement (.sleepEntryComplete a0) := fun _ _ hx => (noSender hx).elim
theorem sliceWake (a0 : Nat) : Statement (.sliceWake a0) := fun _ _ hx => (noSender hx).elim
theorem wakeCmd (a0 : Source) (a1 : Nat) : Statement (.wakeCmd a0 a1) := fun h _ hx => Option.some.inj hx ▸ (left h)
theorem wakeComplete (a0 : Nat) : Statement (.wakeComplete a0) := fun _ _ hx => (noSender hx).elim
theorem pllPrimaryTimeout (a0 : Nat) : Statement (.pllPrimaryTimeout a0) := fun _ _ hx => (noSender hx).elim
theorem wakeBackupTimeout (a0 : Nat) : Statement (.wakeBackupTimeout a0) := fun _ _ hx => (noSender hx).elim
theorem nightWindowStart : Statement (.nightWindowStart) := fun _ _ hx => (noSender hx).elim
theorem nightSelfRefreshEntry (a0 : Nat) : Statement (.nightSelfRefreshEntry a0) := fun _ _ hx => (noSender hx).elim
theorem selfRefreshRetry (a0 : Nat) : Statement (.selfRefreshRetry a0) := fun _ _ hx => (noSender hx).elim
theorem nightWindowEnd : Statement (.nightWindowEnd) := fun _ _ hx => (noSender hx).elim
theorem avsStep : Statement (.avsStep) := fun _ _ hx => (noSender hx).elim
theorem avsVerify (a0 : PmbusAnswer) : Statement (.avsVerify a0) := fun _ _ hx => (noSender hx).elim
theorem ageingMonitorRead (a0 : List Nat) : Statement (.ageingMonitorRead a0) := fun _ _ hx => (noSender hx).elim
theorem replan : Statement (.replan) := fun _ _ hx => (noSender hx).elim
theorem replanItem (a0 : Nat) : Statement (.replanItem a0) := fun _ _ hx => (noSender hx).elim
theorem thermalSample (a0 : List Nat) : Statement (.thermalSample a0) := fun _ _ hx => (noSender hx).elim
theorem supplySag (a0 : Nat) : Statement (.supplySag a0) := fun _ _ hx => (noSender hx).elim
theorem keepsakeWritesResume : Statement (.keepsakeWritesResume) := fun _ _ hx => (noSender hx).elim
theorem keepsakeRead (a0 : Source) : Statement (.keepsakeRead a0) := fun h _ hx => Option.some.inj hx ▸ h
theorem keepsakeWrite (a0 : Source) : Statement (.keepsakeWrite a0) := fun h _ hx => Option.some.inj hx ▸ h
theorem keepsakeLineWrite : Statement (.keepsakeLineWrite) := fun _ _ hx => (noSender hx).elim
theorem bar0MalformedAccess (a0 : Source) (a1 : Nat) (a2 : Nat) (a3 : Bool) : Statement (.bar0MalformedAccess a0 a1 a2 a3) := fun h _ hx => Option.some.inj hx ▸ (left h)
theorem vfAccessDenied (a0 : Nat) (a1 : Nat) (a2 : Bool) : Statement (.vfAccessDenied a0 a1 a2) := fun _ _ hx => (noSender hx).elim
theorem pcieLinkDown : Statement (.pcieLinkDown) := fun _ _ hx => (noSender hx).elim
theorem pcieLinkUp : Statement (.pcieLinkUp) := fun _ _ hx => (noSender hx).elim
theorem vfFlr (a0 : Nat) : Statement (.vfFlr a0) := fun _ _ hx => (noSender hx).elim
theorem irqLineRise (a0 : Nat) : Statement (.irqLineRise a0) := fun _ _ hx => (noSender hx).elim
theorem irqRearm (a0 : Source) (a1 : Word) : Statement (.irqRearm a0 a1) := fun h _ hx => Option.some.inj hx ▸ h
theorem ringEnable (a0 : Source) (a1 : Nat) (a2 : Bool) : Statement (.ringEnable a0 a1 a2) := fun h _ hx => Option.some.inj hx ▸ (left h)
theorem ringPiWrite (a0 : Source) (a1 : Nat) (a2 : Nat) : Statement (.ringPiWrite a0 a1 a2) := fun h _ hx => Option.some.inj hx ▸ (left h)
theorem ringCiWrite (a0 : Source) (a1 : Nat) (a2 : Nat) : Statement (.ringCiWrite a0 a1 a2) := fun h _ hx => Option.some.inj hx ▸ (left h)
theorem ringIrqModeration (a0 : Nat) : Statement (.ringIrqModeration a0) := fun _ _ hx => (noSender hx).elim
theorem puntWrite (a0 : Nat) (a1 : List Descriptor) : Statement (.puntWrite a0 a1) := fun _ _ hx => (noSender hx).elim
theorem injectDescriptorFetch (a0 : Nat) (a1 : Option Descriptor) : Statement (.injectDescriptorFetch a0 a1) := fun _ _ hx => (noSender hx).elim
theorem injectFrameRead (a0 : Nat) (a1 : Option (List Byte)) : Statement (.injectFrameRead a0 a1) := fun _ _ hx => (noSender hx).elim
theorem eventRecordWrite (a0 : Nat) (a1 : Nat) : Statement (.eventRecordWrite a0 a1) := fun _ _ hx => (noSender hx).elim
theorem coreRelease (a0 : Source) (a1 : Nat) : Statement (.coreRelease a0 a1) := fun h _ hx => Option.some.inj hx ▸ (left h)
theorem coreHold (a0 : Source) (a1 : Nat) : Statement (.coreHold a0 a1) := fun h _ hx => Option.some.inj hx ▸ (left h)
theorem coreBusError (a0 : Nat) (a1 : Nat) (a2 : Bool) : Statement (.coreBusError a0 a1 a2) := fun _ _ hx => (noSender hx).elim
theorem watchdogKick (a0 : Source) (a1 : Nat) : Statement (.watchdogKick a0 a1) := fun h _ hx => Option.some.inj hx ▸ (left h)
theorem watchdogExpiry (a0 : Nat) : Statement (.watchdogExpiry a0) := fun _ _ hx => (noSender hx).elim
theorem mgmtFrameReceive (a0 : Nat) (a1 : List Byte) (a2 : Bool) : Statement (.mgmtFrameReceive a0 a1 a2) := fun _ _ hx => (noSender hx).elim
theorem mgmtFrameSend (a0 : Nat) : Statement (.mgmtFrameSend a0) := fun _ _ hx => (noSender hx).elim
theorem sweepTrigger (a0 : Source) (a1 : Nat) : Statement (.sweepTrigger a0 a1) := fun h _ hx => Option.some.inj hx ▸ (left h)
theorem sweepPeriodTimer (a0 : Nat) : Statement (.sweepPeriodTimer a0) := fun _ _ hx => (noSender hx).elim
theorem sweepSecond : Statement (.sweepSecond) := fun _ _ hx => (noSender hx).elim
theorem sweepStart : Statement (.sweepStart) := fun _ _ hx => (noSender hx).elim
theorem sweepComplete : Statement (.sweepComplete) := fun _ _ hx => (noSender hx).elim
theorem serdesReferenceLoss (a0 : Nat) : Statement (.serdesReferenceLoss a0) := fun _ _ hx => (noSender hx).elim
theorem systemReferenceLoss : Statement (.systemReferenceLoss) := fun _ _ hx => (noSender hx).elim
theorem systemPllLock : Statement (.systemPllLock) := fun _ _ hx => (noSender hx).elim
theorem planeLinkLock (a0 : Nat) (a1 : Nat) : Statement (.planeLinkLock a0 a1) := fun _ _ hx => (noSender hx).elim
theorem serdesReferenceReturn (a0 : Nat) : Statement (.serdesReferenceReturn a0) := fun _ _ hx => (noSender hx).elim
theorem gpioEdge (a0 : Nat) (a1 : Bool) : Statement (.gpioEdge a0 a1) := fun _ _ hx => (noSender hx).elim

end Sys2Proof.Laws.Wf
end

