-- ==== Sys2Proof/Tests/Slice0.lean ====
section
/-! SUPPORT. The model's own tests: ill-formed commands that the checks refuse, the spec's worked examples, single steps, and one witness
for every statement with hypotheses (wit_<statement>_<clause>): a state and operands that meet all of them together. -/

namespace Sys2Proof.Tests

open Sys2Proof Sys2Proof.Machine

set_option Elab.async false
set_option linter.unusedVariables false

/-! ### Ill-formed commands, one for each check of WellFormed -/

theorem test_wf_source_vf : (Instr.accordCommit (.vf 16)).wf = false ∧ (Instr.accordCommit (.vf 0)).wf = false ∧ (Instr.accordCommit (.vf 15)).wf = true := by
  decide
theorem test_wf_source_core : (Instr.accordCommit (.core 4)).wf = false ∧ (Instr.accordCommit (.core 3)).wf = true := by decide
theorem test_wf_access_size : (Instr.registerWrite .pf 0 2 0).wf = false ∧ (Instr.rcFieldRead .pf 0 16).wf = false ∧ (Instr.registerWrite .pf 0 8 0).wf = true := by
  decide
theorem test_wf_unit : (Instr.unitResetComplete 65536).wf = false ∧ (Instr.fillComplete 65536).wf = false := by decide
theorem test_wf_slice : (Instr.emRead .pf 8).wf = false ∧ (Instr.emRead .pf 7).wf = true := by decide
theorem test_wf_port : (Instr.linkDown 128).wf = false ∧ (Instr.linkDown 127).wf = true := by decide
theorem test_wf_lane : (Instr.laneAdaptComplete 128).wf = false ∧ (Instr.laneTestWrite .pf 0 8).wf = false := by decide
theorem test_wf_class : (Instr.pauseExpiry 0 8).wf = false ∧ (Instr.pauseExpiry 0 7).wf = true := by decide
theorem test_wf_half : (Instr.lpmHeldProbe 2).wf = false ∧ (Instr.hbmTempRead 2 0).wf = false := by decide
theorem test_wf_channel : (Instr.hbmArbDecision 0 32).wf = false ∧ (Instr.perBankRefresh 0 0 32).wf = false ∧ (Instr.hbmArbStarve 0 0 8).wf = false := by
  decide
theorem test_wf_mailbox : (Instr.mailboxComplete 2).wf = false ∧ (Instr.mailboxComplete 1).wf = true := by decide
theorem test_wf_plane : (Instr.planePllLoss 4).wf = false ∧ (Instr.planePllLoss 3).wf = true := by decide
theorem test_wf_porter : (Instr.porterStall 0 34).wf = false ∧ (Instr.microword 0 0 4).wf = false ∧ (Instr.microword 0 33 3).wf = true := by decide
theorem test_wf_slot : (Instr.accordRetire 4).wf = false ∧ (Instr.accordRetire 3).wf = true := by decide
theorem test_wf_time : (Instr.tbHoldover 8).wf = false ∧ (Instr.ppsOutPulse 2).wf = false := by decide
theorem test_wf_fifo : (Instr.fifoSwap 25).wf = false ∧ (Instr.eventRecordWrite 26 0).wf = false ∧ (Instr.eventRecordWrite 25 0).wf = true := by decide
theorem test_wf_latchkey : (Instr.latchkeyTake .pf 64).wf = false ∧ (Instr.latchkeyTake .pf 63).wf = true := by decide
theorem test_wf_wake_mask : (Instr.wakeCmd .pf 256).wf = false ∧ (Instr.wakeCmd .pf 255).wf = true := by decide
theorem test_wf_function : (Instr.vfFlr 0).wf = false ∧ (Instr.vfFlr 16).wf = false ∧ (Instr.vfFlr 15).wf = true := by decide
theorem test_wf_group : (Instr.irqLineRise 16).wf = false ∧ (Instr.irqLineRise 15).wf = true := by decide
theorem test_wf_ring : (Instr.ringIrqModeration 4096).wf = false ∧ (Instr.puntWrite 10 []).wf = false := by decide
theorem test_wf_core : (Instr.watchdogExpiry 4).wf = false ∧ (Instr.mgmtFrameSend 2).wf = false ∧ (Instr.sweepPeriodTimer 16).wf = false := by decide
theorem test_wf_pins : (Instr.serdesReferenceLoss 4).wf = false ∧ (Instr.gpioEdge 32 true).wf = false := by decide

/-! ### Worked examples of the spec -/

/-- spec/00_scope.md R473: the nine ASCII bytes "123456789". -/
theorem test_crc32c : crc32c 0xFFFFFFFF [0x31, 0x32, 0x33, 0x34, 0x35, 0x36, 0x37, 0x38, 0x39] = 0xE3069283 := by decide +kernel

/-- spec/01_architecture.md, the example after Table 1-4. -/
theorem test_unit_ids : U.lane 37 = 0x2025 ∧ U.port 37 = 0x4025 ∧ U.group 4 = 0x6004 ∧ U.slice 2 = 0x8002 ∧ U.sliceBlk 2 0x21 = 0x9421 ∧
    U.halfBlk 1 0 = 0xB800 ∧ U.halfBlk 0 0x47 = 0xB047 ∧ U.devBlk 2 = 0xD002 ∧ U.devBlk 0x38 = 0xD038 := by decide

/-- spec/06_microword_reference.md, the encoding of word 0xC02. -/
def word0xC02 : Entry := BitVec.ofNat 256 (0x27812804 * 2 ^ 224 + 0x2003FFFC * 2 ^ 192 + 0x02000000 * 2 ^ 160)
theorem test_microword_fields : Mw.ok word0xC02 = true ∧ Mw.cyc word0xC02 = 1 ∧ Mw.end_ word0xC02 = false ∧ Mw.brCond word0xC02 = 3 ∧ Mw.brTarget word0xC02 = 0xC09 ∧
    Mw.cmpOp word0xC02 = 1 ∧ Mw.cmpOff word0xC02 = 0 ∧ Mw.cmpWide word0xC02 = true ∧ Mw.cmpImm word0xC02 = 0x0800 ∧ Mw.cmpMask word0xC02 = 0xFFFF ∧
    Mw.advMode word0xC02 = 0 ∧ Mw.advImm word0xC02 = 2 ∧ Mw.flagSet word0xC02 = 0 ∧ Mw.mark word0xC02 = 0 := by decide +kernel
/-- spec/06_microword_reference.md, the emit in slot 2 of word 0xC05. -/
theorem test_microword_slot : opSlot (BitVec.ofNat 256 (0x44F8000412 * 2 ^ 80)) 2 = { type := 2, src := 0, l4 := true, width := 32, source := 0, dest := 0x412 } := by
  decide +kernel

/-- spec/20_host_interface.md, descriptor 37 of tenant 2's inject ring. -/
def descriptor37 : Descriptor := BitVec.ofNat 256 (0x8C210040 + 4 * 2 ^ 32 + 0x56 * 2 ^ 64 + 0x83FDB000 * 2 ^ 96 + 0x0A17 * 2 ^ 128)
theorem test_inject_descriptor : Inj.len descriptor37 = 86 ∧ Inj.mode descriptor37 = false ∧ Inj.own descriptor37 = true ∧ Inj.port descriptor37 = 3 ∧
    Inj.cls descriptor37 = 7 ∧ Inj.subscriber descriptor37 = 1900 ∧ Inj.tag descriptor37 = 0x0A17 ∧ Inj.reserved descriptor37 = false := by decide +kernel

/-- spec/16_hbm_controller.md R341, R361: stack offset 64 KiB + 2 KiB × 9 lies in pseudo-channel 9 at channel address 2 KiB, and the last
granule of a share lies in the last row of the reserve. -/
theorem test_stack_offset : stackOffset 9 2048 = 65536 + 9 * 2048 ∧ Chip.reservePlace 9 31743 = (31, 1023 * 2048) := by decide

/-- spec/16_hbm_controller.md Table 16-8: the address of grants[0] is also beats_read[16]'s; neither counts for the other. -/
theorem test_two_counters : ((({} : Chip).cnt (A.hbm 0 + C.grants) 1).reg (A.hbm 0 + 0x40 * 16 + C.beats_read)) = 0 ∧ Chip.twoCounters (A.hbm 0 + 0xC00) = true ∧
    Chip.twoCounters (A.hbm 0 + 0xC38) = false := by decide +kernel

/-! ### Witnesses of the statements about every command -/

theorem wit_CommandsKeepTheQueue : ∃ c s t, exec c s = .next t := ⟨.perstNRelease, State.reset, _, rfl⟩
theorem wit_StepRunsTheFrontCommand : ∃ s : State, s.pending = [] := ⟨State.reset, rfl⟩
theorem wit_OnlyALostReferenceStops_1 : State.reset.chip.power.refLost = false := rfl
theorem wit_OnlyALostReferenceStops_2 : ({ State.reset with chip := { power := { refLost := true } } } : State).chip.power.refLost = true := rfl
theorem wit_OnlyALostReferenceStops_4 : ∃ s t : State, exec .pinChipReset s = .next t ∧ s.chip.power.vddAon = true ∧ s.chip.power.sysRstHigh = true :=
  ⟨{ State.reset with chip := { power := { refLost := true, sysRstHigh := true } } }, _, rfl, rfl, rfl⟩
theorem wit_ResetState : ∃ a r, regRow a = some r ∧ r.counter = true := ⟨A.plane 0 + 0xA00, (regRow (A.plane 0 + 0xA00)).get (by decide), by decide +kernel, by decide +kernel⟩
theorem wit_KeepsakeStoreStaysInForm : ∃ s t : State, s.nv.ok ∧ step s = .next t :=
  ⟨State.reset.push .perstNRelease, _, ⟨rfl, rfl, rfl, by decide, fun _ => (by decide : 0 < 100), fun _ => (by decide : 0 < 4097)⟩, rfl⟩
theorem wit_FusesOnlyRise : ∃ s t : State, step s = .next t ∧ s.fuses.enrolled.getLsbD 2 = true ∧ s.fuses.partly.getLsbD 1 = true :=
  ⟨{ State.reset.push .perstNRelease with fuses := { enrolled := 4, partly := 2 } }, _, rfl, rfl, rfl⟩
theorem wit_OnlyTheseWriteWhatLasts : ∃ c s t, exec c s = .next t := ⟨.journalWrite, State.reset, _, rfl⟩

/-! ### Witnesses of the clauses -/

/-- A device that runs with an applied image of the Full profile and two 25G ports, 0 and 16. -/
def Witness.chip : Chip :=
  { power := { sysRstHigh := true, perstHigh := true, released := true, sysPll := true, pcieUp := true }
    image := { applied := true, ports := [{ first := 0, lanes := 1, type := 2, fec := 0, lpi := true }, { first := 16, lanes := 1, type := 2, fec := 0, lpi := false }] } }
/-- That device after some changes. -/
def Witness.st (f : Chip → Chip) : State := { State.reset with chip := f Witness.chip }
open Witness
/-- A small image of the smallest profile: one port, no LPM, microcode of zeros. -/
def Witness.img : Image :=
  { header := [0x52, 0x42, 0x48, 0x43, 2, 0, 0x80, 0x64, 2, 0x21, 5, 0] ++ toLE 4 0x20000 ++ [1, 0, 0, 0, 1, 0] ++ List.replicate 234 0
    sections := [{ type := 1, flags := 0, offset := 0x180, length := 8, body := [0, 1, 2, 0, 0, 0, 0, 0] },
                 { type := 3, flags := 0, offset := 0x1C0, length := 8, body := [0, 32, 0, 0, 1, 32, 0, 0] },
                 { type := 5, flags := 0, offset := 0x200, length := 16, body := [0, 1, 0, 0, 0, 0x80, 0, 0, 64, 0, 0, 0, 0, 1, 0, 0] },
                 { type := 6, flags := 0, offset := 0x240, length := 98304, body := List.replicate 98304 0 },
                 { type := 8, flags := 0, offset := 0x18280, length := 0, body := [] }]
    paddingZero := true, accord := [], customerOk := false }
/-- A frame of 200 bytes in thread 0 of porter 0. -/
def Witness.frame : Frame := { bytes := List.replicate 200 0, stage := .thread 0 0, slot := some 0, wb := Wb.put 0 4 31 0 0xFFFFFFFF }
/-- A thread with that frame and a loop limit of 16. -/
def Witness.thread : Thread := { frame := some 7, parse := 16 }
/-- The device with that frame and a word of microcode at 0. -/
def Witness.parsing (w : Entry) : State :=
  st fun c => { c with store := [(0, w)], frames := [(7, some Witness.frame)], porters := [(0, { threads := [(0, Witness.thread)] })] }
/-- What the word does to that thread. -/
def Witness.ran (w : Entry) : MwOut := runWord w Witness.thread (List.replicate 192 0) 192 Witness.frame.wb 16
/-- The waybill and the thread after a word that goes on. -/
def Witness.outWb : MwOut → BitVec 512
  | .next _ w _ _ => w
  | .fail _ => 0
def Witness.outThread : MwOut → Thread
  | .next t _ _ _ => t
  | .fail _ => {}
/-- Tables of slice 0, accord 6 the newest, accord 7 open on latchkey 5 of the PF. -/
def Witness.tables (c : Chip) : Chip :=
  let c := { c with image := { c.image with splits := [(0, { em := 2, lpm := 2, ovf := 1 })] } }
  let c := (((c.setLatch 5 { owner := 0xD020 }).put 0 R.ACCORD_STATUS_state 1).put 0 R.ACCORD_LOG_bound 1).put 0 R.ACCORD_LOG_latchkey 5
  let c := ((c.setReg R.ACCORD_SLOT 0xC0000006).put 0 R.ACCORD_NEWEST_number 6).put 0 R.ACCORD_OLDEST_number 6
  c.put 0 R.ACCORD_STATUS_pending 7
/-- A single exact-match entry of a key. -/
def Witness.entry (key result : Nat) (state : Nat) : EmEntry := { body := BitVec.ofNat 256 (key * 2 ^ 96 + result * 2 ^ 32), state := BitVec.ofNat 8 state }
/-- A frame that stands at a stage with key_valid and keys. -/
def Witness.looking (stage : Stage) (valid : Nat) (keys : Tbl Key) : Frame :=
  { bytes := List.replicate 100 0, whole := true, slot := some 0, stage, keys, wb := Wb.put 0 5 25 16 0 }
/-- A frame of slice 0 with the IPv4 key 10.1.0.0 of context 0. -/
def Witness.lpmFrame : Frame := { looking .pipes 0 [(3, 0x0A010000)] with wb := Wb.put 0 6 31 24 8 }
/-- The device with lengths 8 and 16 of IPv4 enabled, 10.0.0.0/8 inserted with result 66, that frame, a probe budget, and lookups held. -/
def Witness.lpmSt (budget held : Nat) : State :=
  st fun c =>
    let c := tables c
    let c := ((((c.setReg (c.lenBase 0 false 8) 0).put (c.lenBase 0 false 8) R.LPM_LEN_V4_enable 1).put (c.lenBase 0 false 16) R.LPM_LEN_V4_enable 1).put
      (c.lenBase 0 false 16) R.LPM_LEN_V4_base_line 1)
    let c := ((c.put (A.half 0) R.LPM_BUDGET_budget_en 1).put (A.half 0) R.LPM_BUDGET_max_probes budget).put (A.half 0) R.LPM_CONFIG_lines 2048
    { c with frames := [(9, some lpmFrame)]
             lpm := [(0, { slots := [(0, { data := BitVec.ofNat 128 (0x0A000000 * 2 ^ 80 + 66 * 2 ^ 40 + 8 * 2 ^ 32), state := 0x80 })],
                           filter4 := [(0x0A01, 0x8080)], held := List.replicate held { slice := 0, frame := 1, lengths := [] } })] }
/-- A TCAM entry of use search B with every bit of the key cared for. -/
def Witness.tcamEntry : TcamEntry := { value := 5, care := BitVec.allOnes 320, prio := 9, result := 77, state := 0x80 }
def Witness.tcamFrame : Frame :=
  { looking .lookups 0 [(5, 5)] with wb := Wb.put 0 6 31 24 0x20, searches := [{ use := 1, excluded := [2], falseHits := 1 }] }
/-- The device with one TCAM table of search B, that entry at 2 and 3, and the frame. -/
def Witness.tcamSt : State :=
  st fun c => { tables c with
    image := { (tables c).image with tcams := [{ slice := 0, id := 2, kind := 1, banks := 1, first := 0, count := 64 }] }
    frames := [(9, some tcamFrame)]
    tcam := [(0, { rows := [(2, tcamEntry), (3, tcamEntry)], copies := [(2, tcamEntry), (3, tcamEntry)] })] }
/-- A frame whose LPM result names next-hop 3. -/
def Witness.resFrame : Frame := { looking .lookups 0 [] with wb := 0, hits := [(4, some (BitVec.ofNat 64 (2 * 2 ^ 36 + 3 * 2 ^ 20)))] }
/-- The device with next-hop 3 to port 16, the LPM result forwarding first, and the frame. -/
def Witness.resSt : State :=
  st fun c => { (tables c).put (A.slice 0) R.RES_PROFILE_fwd_first 4 with
    frames := [(9, some resFrame)], nextId := 10
    objects := [(0, { nextHops := [(3, BitVec.ofNat 64 (2 ^ 63 + 16 * 2 ^ 54))] })] }
/-- The LPM and the TCAM device after some changes. -/
def Witness.lpmWith (f : Chip → Chip) : State := { lpmSt 4 0 with chip := f (lpmSt 4 0).chip }
def Witness.tcamWith (f : Chip → Chip) : State := { tcamSt with chip := f tcamSt.chip }
/-- The device with subscriber 2 of port 0 (heart 1, top 2, queue 19 enabled), a whole frame 9 that arrival 11 holds in cell 0, and copy 12
of class 3, after some changes. -/
def Witness.sched (f : Chip → Chip) : State :=
  st fun c =>
    let c := { (tables c).put (A.port 0) R.PORT_STATUS_link_up 1 with
      frames := [(9, some { looking .judged 0 [] with bytes := List.replicate 64 0 })]
      arrivals := [(11, some { frame := 9, places := [.die 0], bytesHeld := 64, closed := true, lodger := 0x8000, copies := [12] })]
      copies := [(12, some { arrival := 11, sub := 2, named := 2, cls := 3, mcast := true })]
      innkeepers := [(0, { cells := [(0, { count := 1, lodger := 0x8000, first := true, last := true })] })]
      records := [(0, { heart := [(1, BitVec.ofNat 128 (2 ^ 127 + 2 ^ 100))], top := [(2, BitVec.ofNat 128 (2 ^ 127 + 2 ^ 116 + 2 ^ 96))],
                        queue := [(19, BitVec.ofNat 256 (2 ^ 255 + 2 ^ 243 + 100 * 2 ^ 171))] })] }
    f (((c.put (A.half 0) R.INNK_REQ_ID_present 1).put (A.half 0) R.INNK_REQ_ID_unit_id 0x8000).put (A.half 0) R.INNK_REQ_USED_used 1)
/-- That device with requesters 0x8000 and 0x8001 of half 0, each with a minimum and a quota, after some changes. -/
def Witness.innk (f : Chip → Chip) : State :=
  sched fun c =>
    let c := ((c.put (A.half 0) R.INNK_REQ_MIN_min_cells 100).put (A.half 0) R.INNK_REQ_QUOTA_quota_cells 1000)
    let c := ((c.put (A.half 0 + 0x10) R.INNK_REQ_ID_present 1).put (A.half 0 + 0x10) R.INNK_REQ_ID_unit_id 0x8001)
    f ((c.put (A.half 0 + 0x10) R.INNK_REQ_MIN_min_cells 100).put (A.half 0 + 0x10) R.INNK_REQ_QUOTA_quota_cells 1000)
/-- That device with the stack ready, spill on, a frame of 8 cells at the head of queue 19, whose spill depth that is, copy 12 behind it with a
frame of `n` cells, after some changes. -/
def Witness.spill (n : Nat) (f : Chip → Chip) : State :=
  innk fun c =>
    let c := (((c.put (A.hbm 0) R.HBM_STATUS_state 2).put (A.half 0) R.INNK_SPILL_enable 1).put (A.half 0) R.INNK_SPILL_region_bundles 524288).put (A.half 0)
      R.INNK_REQ_SPILL_CAP_spill_cap 100
    f { c with
      image := { c.image with halves := [{ half := 0, spillGib := 1, reqs := [] }] }
      records := [(0, { (c.recs 0) with queue := [(19, BitVec.ofNat 256 (2 ^ 255 + 2 ^ 243 + 100 * 2 ^ 171 + 2 ^ 139))] })]
      scheds := [(0, { copies := [(19, [13, 12])] })]
      copies := c.copies ++ [(13, some { arrival := 14, sub := 2, named := 2, cls := 3, mcast := true })]
      arrivals := [(11, some { frame := 9, places := (List.range n).map Place.die, bytesHeld := 64, closed := true, lodger := 0x8000, copies := [12] }),
                   (14, some { frame := 9, places := (List.range 8).map fun p => Place.die (p + 100), bytesHeld := 64, closed := true, lodger := 0x8000, copies := [13] })]
      innkeepers := [(0, { cells := (List.range n).map (fun p => (p, { count := 1, lodger := 0x8000 })) ++ (List.range 8).map fun p => (p + 100, { count := 1, lodger := 0x8000 }) })] }
/-- The device with both stacks ready, after some changes. -/
def Witness.hbm (f : Chip → Chip) : State :=
  st fun c => f ((c.put (A.hbm 0) R.HBM_STATUS_state 2).put (A.hbm 1) R.HBM_STATUS_state 2)

theorem wit_AccordOpenAndCommit_1 : ∃ (s : State) (src : Source) (data : Word), 
    (s.serves src R.ACCORD_CMD true = true) ∧
    (s.chip.image.applied = true) ∧
    (s.chip.get 0 R.ACCORD_STATUS_state = 0) ∧
    (s.chip.get 0 R.ACCORD_STATUS_suspect = 0) ∧
    ((s.chip.latch (bits data 5 0)).owner = srcUnit src) ∧
    ((s.chip.latch (bits data 5 0)).fn = srcFn src) := ⟨st fun c => c.setLatch 5 { owner := 0xD020 }, .pf, 0x90000005, by decide +kernel⟩

theorem wit_AccordOpenAndCommit_2 : ∃ (s : State) (src : Source) (data : Word) (r : Nat), 
    (s.serves src R.ACCORD_CMD true = true) ∧
    (r = (if !s.chip.image.applied then 4 else if s.chip.get 0 R.ACCORD_STATUS_state ≠ 0 then 2 else if s.chip.get 0 R.ACCORD_STATUS_suspect
      = 1 then 6 else if (s.chip.latch (bits data 5 0)).owner ≠ srcUnit src ∨
      (s.chip.latch (bits data 5 0)).fn ≠ srcFn src then 3 else 0)) ∧
    (r ≠ 0) := ⟨st id, .pf, 0x90000005, 3, by decide +kernel⟩

theorem wit_AccordOpenAndCommit_3 : ∃ (s : State) (src : Source) (i : Nat), 
    (s.serves src R.ACCORD_CMD true = true) ∧
    (s.chip.image.applied = true) ∧
    (s.chip.get 0 R.ACCORD_STATUS_state = 1) ∧
    (s.chip.holdsBound src = true) ∧
    (i < 4) ∧
    (s.chip.get (4 * i) R.ACCORD_SLOT_live = 0) := ⟨st fun c => (((c.setLatch 5 { owner := 0xD020 }).put 0 R.ACCORD_STATUS_state 1).put 0
      R.ACCORD_LOG_bound 1).put 0 R.ACCORD_LOG_latchkey 5, .pf, 2, by decide +kernel⟩

theorem wit_AccordOpenAndCommit_4 : ∃ (s : State) (src : Source), 
    (s.serves src R.ACCORD_CMD true = true) ∧
    (s.chip.image.applied = true) ∧
    (s.chip.get 0 R.ACCORD_STATUS_state = 1) ∧
    (s.chip.holdsBound src = true) ∧
    (s.chip.liveSlots = [0, 1, 2, 3]) := ⟨st fun c => ((((c.each [0, 1, 2,
      3] fun c i => c.put (4 * i) R.ACCORD_SLOT_live 1).setLatch 5 { owner := 0xD020 }).put 0 R.ACCORD_STATUS_state 1).put 0
      R.ACCORD_LOG_bound 1).put 0 R.ACCORD_LOG_latchkey 5, .pf, by decide +kernel⟩

theorem wit_AccordOpenAndCommit_5 : ∃ (s : State) (src : Source), 
    (s.serves src R.ACCORD_CMD true = true) ∧
    (s.chip.image.applied = true) ∧
    ((s.chip.get 0 R.ACCORD_STATUS_state ≠ 1 ∨ s.chip.holdsBound src = false)) ∧
    (s.chip.get 0 R.ACCORD_STATUS_state < 5) := ⟨st fun c => c.put 0 R.ACCORD_STATUS_state 3, .pf, by decide +kernel⟩

theorem wit_AccordOpenAndCommit_6 : ∃ (s : State) (src : Source), 
    (s.serves src R.ACCORD_CMD true = true) ∧
    (s.chip.image.applied = true) ∧
    (s.chip.get 0 R.ACCORD_STATUS_state = 1 ∨ s.chip.get 0 R.ACCORD_STATUS_state = 3) ∧
    (s.chip.holdsBound src = true) := ⟨st fun c => (((c.setLatch 5 { owner := 0xD020 }).put 0 R.ACCORD_STATUS_state 1).put 0
      R.ACCORD_LOG_bound 1).put 0 R.ACCORD_LOG_latchkey 5, .pf, by decide +kernel⟩

theorem wit_AccordOpenAndCommit_7 : ∃ (s : State) (src : Source), 
    (s.serves src R.ACCORD_CMD true = true) ∧
    (s.chip.image.applied = true) ∧
    (s.chip.get 0 R.ACCORD_STATUS_state = 1 ∨ s.chip.get 0 R.ACCORD_STATUS_state = 3) ∧
    (s.chip.holdsBound src = false) := ⟨st fun c => c.put 0 R.ACCORD_STATUS_state 1, .pf, by decide +kernel⟩

theorem wit_AccordOpenAndCommit_8 : ∃ (s : State) (src : Source), 
    (s.serves src R.ACCORD_CMD true = true) ∧
    (s.chip.image.applied = true) ∧
    (s.chip.get 0 R.ACCORD_STATUS_state = 3) ∧
    (s.chip.holdsBound src = true) := ⟨st fun c => (((c.setLatch 5 { owner := 0xD020 }).put 0 R.ACCORD_STATUS_state 3).put 0
      R.ACCORD_LOG_bound 1).put 0 R.ACCORD_LOG_latchkey 5, .pf, by decide +kernel⟩

theorem wit_AccordOpenAndCommit_9 : ∃ (s : State) (src : Source), 
    (s.serves src R.ACCORD_CMD true = true) ∧
    (s.chip.get 0 R.ACCORD_STATUS_state ≠ 3) := ⟨st id, .pf, by decide +kernel⟩

theorem wit_AccordOpenAndCommit_10 : ∃ (s : State) (src : Source), 
    (s.serves src R.ACCORD_CMD true = true) ∧
    (s.chip.image.applied = true) ∧
    (s.chip.get 0 R.ACCORD_STATUS_state = 3) ∧
    (s.chip.holdsBound src = false) := ⟨st fun c => c.put 0 R.ACCORD_STATUS_state 3, .pf, by decide +kernel⟩

theorem wit_AccordTakesEffectAndEnds_1 : ∃ (s : State) (i : Nat), 
    (s.runs .core = true) ∧
    (s.chip.get 0 R.ACCORD_STATUS_state = 2 ∨ s.chip.get 0 R.ACCORD_STATUS_state = 3) ∧
    (s.chip.gapPassed = true) ∧
    (s.chip.writesLanded = true) ∧
    (s.chip.freeSlot = some i) := ⟨st fun c => ((c.put 0 R.ACCORD_STATUS_state 2).put 0 R.ACCORD_STATUS_pending 7).setReg R.ACCORD_SLOT
      0xC0000006, 1, by decide +kernel⟩

theorem wit_AccordTakesEffectAndEnds_2 : ∃ (s : State), 
    (s.runs .core = true) ∧
    (s.chip.gapPassed = false) := ⟨st fun c => { c with accord := { c.accord with lastCommit := some 0 } }, by decide +kernel⟩

theorem wit_AccordTakesEffectAndEnds_3 : ∃ (s : State), 
    (s.runs .core = true) ∧
    (s.chip.get 0 R.ACCORD_STATUS_state = 4) ∧
    (s.chip.writesLanded = true) := ⟨st fun c =>
      { (c.put 0 R.ACCORD_STATUS_state 4) with accord := { c.accord with log := [{ place := .em 1 8, valid := true, vfrom := 5, vuntil := 9 }] } },
      by decide +kernel⟩

theorem wit_AccordTakesEffectAndEnds_4 : ∃ (s : State) (g n : Nat) (x : Validity), 
    (s.runs .core = true) ∧
    (s.chip.get 0 R.ACCORD_STATUS_state = 4) ∧
    (s.chip.writesLanded = true) ∧
    (s.chip.accord.log = [{ place := .head g n, valid := x.valid, vfrom := x.vfrom, vuntil := x.vuntil }]) ∧
    (s.chip.members (U.slice g) = [U.slice g]) ∧
    (g < 8) ∧
    (n < VTab.head.count) ∧
    (x.vfrom < 65536) ∧
    (x.vuntil < 65536) := ⟨st fun c =>
      { (c.put 0 R.ACCORD_STATUS_state 4) with accord := { c.accord with log := [{ place := .head 1 8, valid := true, vfrom := 5, vuntil := 9 }] } },
      1, 8, ⟨true, 5, 9⟩, by decide +kernel⟩

theorem wit_AccordTakesEffectAndEnds_5 : ∃ (s : State) (i : Nat), 
    (s.runs .core = true) ∧
    (i < 4) ∧
    (s.chip.slotLive i = true) ∧
    (s.chip.slotNewest i = false) ∧
    (s.chip.inflight i = 0) := ⟨st fun c => c.setReg (R.ACCORD_SLOT + 4) 0x80000007, 1, by decide +kernel⟩

theorem wit_AccordTakesEffectAndEnds_6 : ∃ (s : State) (i : Nat), 
    (s.runs .core = true) ∧
    (i < 4) ∧
    (s.chip.slotLive i = true) ∧
    (s.chip.slotNewest i = false) ∧
    (s.chip.get (4 * i) R.ACCORD_SLOT_drain_slow = 0) ∧
    (s.chip.get 0 R.ACCORD_DRAIN_alert_ms ≠ 0) ∧
    (s.chip.passedUs (s.chip.accord.drainFrom.look i) (s.chip.get 0 R.ACCORD_DRAIN_alert_ms * 1000) = true) :=
      ⟨st fun c => { (c.setReg (R.ACCORD_SLOT + 4) 0x80000007).put 0 R.ACCORD_DRAIN_alert_ms 1 with now := 2000000 }, 1, by decide +kernel⟩

theorem wit_AccordTakesEffectAndEnds_7 : ∃ (s : State) (src : Source) (data : Word), 
    (s.serves src R.ACCORD_DRAIN true = true) := ⟨st fun c => { (c.setReg (R.ACCORD_SLOT + 4) 0x80000007) with now := 20000000 }, .pf,
      0x50000, by decide +kernel⟩

theorem wit_AccordTakesEffectAndEnds_8 : ∃ (s : State) (src : Source) (n : Nat) (l : List Nat), 
    (s.serves src R.ACCORD_RETIRED false = true) ∧
    (s.chip.accord.retired = n :: l) := ⟨st fun c => { c with accord := { c.accord with retired := [7, 8] } }, .pf, 7, [8],
      by decide +kernel⟩

theorem wit_AccordTakesEffectAndEnds_9 : ∃ (s : State) (src : Source), 
    (s.serves src R.ACCORD_RETIRED false = true) ∧
    (s.chip.accord.retired = []) := ⟨st id, .pf, by decide +kernel⟩

theorem wit_LatchkeyTakeRule_1 : ∃ (s : State) (src : Source) (k : Nat), 
    (s.serves src (R.LATCHKEY_TAKE + 4 * k) false = true) ∧
    (k < 64) ∧
    ((s.chip.latch k).owner = 0) := ⟨st fun c => c.setLatch 9 { suspect := true }, .core 2, 9, by decide +kernel⟩

theorem wit_LatchkeyTakeRule_2 : ∃ (s : State) (src : Source) (k : Nat), 
    (s.serves src (R.LATCHKEY_TAKE + 4 * k) false = true) ∧
    (k < 64) ∧
    ((s.chip.latch k).owner = srcUnit src) ∧
    ((s.chip.latch k).fn = srcFn src) := ⟨st fun c => c.setLatch 9 { owner := 0xD012, fn := 0x10 }, .core 2, 9, by decide +kernel⟩

theorem wit_LatchkeyTakeRule_3 : ∃ (s : State) (src : Source) (k : Nat), 
    (s.serves src (R.LATCHKEY_TAKE + 4 * k) false = true) ∧
    (k < 64) ∧
    ((s.chip.latch k).owner ≠ 0) ∧
    ((s.chip.latch k).heldBy src = false) := ⟨st fun c => c.setLatch 9 { owner := 0xD012, fn := 0x10 }, .pf, 9, by decide +kernel⟩

theorem wit_LatchkeysComeFree_1 : ∃ (s : State) (src : Source) (k : Nat), 
    (s.serves src (R.LATCHKEY + 4 * k) true = true) ∧
    (k < 64) ∧
    ((s.chip.latch k).owner = srcUnit src) ∧
    ((s.chip.latch k).fn = srcFn src) ∧
    (s.chip.accordBoundTo k = false ∨ (s.chip.accordState ≠ 1 ∧ s.chip.accordState ≠ 2 ∧
      s.chip.accordState ≠ 3)) := ⟨st fun c => c.setLatch 9 { owner := 0xD012, fn := 0x10 }, .core 2, 9, by decide +kernel⟩

theorem wit_LatchkeysComeFree_2 : ∃ (s : State) (src : Source) (k : Nat), 
    (s.serves src (R.LATCHKEY + 4 * k) true = true) ∧
    (k < 64) ∧
    ((s.chip.latch k).owner = srcUnit src) ∧
    ((s.chip.latch k).fn = srcFn src) ∧
    (s.chip.accordBoundTo k = true) ∧
    (s.chip.accordState = 1 ∨ s.chip.accordState = 2 ∨ s.chip.accordState = 3) :=
      ⟨st fun c => (((c.setLatch 9 { owner := 0xD012, fn := 0x10 }).put 0 R.ACCORD_LOG_bound 1).put 0 R.ACCORD_LOG_latchkey 9).put 0
      R.ACCORD_STATUS_state 1, .core 2, 9, by decide +kernel⟩

theorem wit_LatchkeysComeFree_3 : ∃ (s : State) (src : Source) (k : Nat), 
    (s.serves src (R.LATCHKEY + 4 * k) true = true) ∧
    (k < 64) ∧
    ((s.chip.latch k).owner = srcUnit src) ∧
    ((s.chip.latch k).fn = srcFn src) := ⟨st fun c => c.setLatch 9 { owner := 0xD012, fn := 0x10, suspect := true }, .core 2, 9,
      by decide +kernel⟩

theorem wit_LatchkeysComeFree_4 : ∃ (s : State) (src : Source) (k : Nat), 
    (s.serves src (R.LATCHKEY + 4 * k) true = true) ∧
    (k < 64) ∧
    ((s.chip.latch k).heldBy src = false) := ⟨st fun c => c.setLatch 9 { owner := 0xD012, fn := 0x10 }, .core 1, 9, by decide +kernel⟩

theorem wit_LatchkeysComeFree_5 : ∃ (s : State) (src : Source) (k : Nat), 
    (s.serves src (R.LATCHKEY + 4 * k) true = true) ∧
    (k < 64) ∧
    ((s.chip.latch k).heldBy src = false) := ⟨st fun c => c.setLatch 9 { owner := 0xD012, fn := 0x10 }, .core 1, 9, by decide +kernel⟩

theorem wit_LatchkeyBreakRule_1 : ∃ (s : State) (src : Source) (data : Word), 
    (s.serves src R.LATCHKEY_BREAK true = true) ∧
    ((match src with | .vf _ => false | _ => true) = true) ∧
    (bits data 31 16 = 0x5AFE) ∧
    (bits data 15 15 = 1) ∧
    ((s.chip.latch (bits data 5 0)).owner ≠ 0) ∧
    (s.chip.accordBoundTo (bits data 5 0) = false ∨ (s.chip.accordState ≠ 1 ∧ s.chip.accordState ≠ 2 ∧
      s.chip.accordState ≠ 3)) := ⟨st fun c => c.setLatch 9 { owner := 0xD012, fn := 0x10 }, .core 1, 0x5AFE8009, by decide +kernel⟩

theorem wit_LatchkeyBreakRule_2 : ∃ (s : State) (src : Source) (data : Word), 
    (s.serves src R.LATCHKEY_BREAK true = true) ∧
    ((match src with | .vf _ => false | _ => true) = true) ∧
    (bits data 31 16 = 0x5AFE) ∧
    (bits data 15 15 = 1) ∧
    ((s.chip.latch (bits data 5 0)).owner ≠ 0) ∧
    (s.chip.accordBoundTo (bits data 5 0) = true) ∧
    (s.chip.accordState = 1 ∨ s.chip.accordState = 2 ∨ s.chip.accordState = 3) :=
      ⟨st fun c => (((c.setLatch 9 { owner := 0xD012, fn := 0x10 }).put 0 R.ACCORD_LOG_bound 1).put 0 R.ACCORD_LOG_latchkey 9).put 0
      R.ACCORD_STATUS_state 1, .pf, 0x5AFE8009, by decide +kernel⟩

theorem wit_LatchkeyBreakRule_3 : ∃ (s : State) (src : Source) (data : Word), 
    (s.serves src R.LATCHKEY_BREAK true = true) ∧
    ((match src with | .vf _ => true | _ => false) = true ∨ bits data 31 16 ≠ 0x5AFE ∨ bits data 15 15 = 0 ∨
      (s.chip.latch (bits data 5 0)).owner = 0) := ⟨st fun c => (((c.setLatch 9 { owner := 0xD012, fn := 0x10 }).put 0 R.VF_GRANT_BASE_base
      0).put 0 R.VF_GRANT_CTRL_log2_size 12), .pf, 0x5AFE0009, by decide +kernel⟩

theorem wit_LedgerTakesMessages_1 : ∃ (s : State) (m : Msg) (l : List Msg), 
    (s.runs .aon = true) ∧
    (s.chip.ledger.transit = m :: l) ∧
    (s.chip.ledger.held = []) ∧
    (s.chip.ledger.queue.length < 48 ∨ (s.chip.ledger.queue.length < 64 ∧
      2 ≤ m.sev)) := ⟨st fun c => c.report 0x4000 0x100 1 3, { source := 0x4000, kind := 0x100, sev := 1, addr := 3 }, [],
      by decide +kernel⟩

theorem wit_LedgerTakesMessages_2 : ∃ (s : State) (m : Msg) (l : List Msg), 
    (s.runs .aon = true) ∧
    (s.chip.ledger.transit = m :: l) ∧
    (s.chip.ledger.held = [] ∨ 64 ≤ s.chip.ledger.queue.length) ∧
    (48 ≤ s.chip.ledger.queue.length) ∧
    (m.sev ≤ 1) := ⟨st fun c =>
      { c.report 0x4000 0x100 1 3 with ledger := { (c.report 0x4000 0x100 1 3).ledger with queue := List.replicate 48 { source := 1, kind := 2, sev := 3 } } },
      { source := 0x4000, kind := 0x100, sev := 1, addr := 3 }, [], by decide +kernel⟩

theorem wit_LedgerTakesMessages_3 : ∃ (s : State) (m : Msg) (l : List Msg), 
    (s.runs .aon = true) ∧
    (s.chip.ledger.transit = m :: l) ∧
    (64 ≤ s.chip.ledger.queue.length) ∧
    (2 ≤ m.sev) ∧
    (s.chip.ledger.held.any (Msg.same m) = false) := ⟨st fun c =>
      { c.report 0x4000 0x100 2 3 with ledger := { (c.report 0x4000 0x100 2 3).ledger with queue := List.replicate 64 { source := 1, kind := 2, sev := 3 } } },
      { source := 0x4000, kind := 0x100, sev := 2, addr := 3 }, [], by decide +kernel⟩

theorem wit_LedgerTakesMessages_4 : ∃ (s : State) (m : Msg) (l : List Msg), 
    (s.runs .aon = true) ∧
    (s.chip.ledger.transit = m :: l) ∧
    (64 ≤ s.chip.ledger.queue.length) ∧
    (2 ≤ m.sev) ∧
    (s.chip.ledger.held.any (Msg.same m) = true) := ⟨st fun c =>
      { c.report 0x4000 0x100 2 3 with ledger := { (c.report 0x4000 0x100 2 3).ledger with queue := List.replicate 64 { source := 1, kind := 2, sev := 3 }, held := [{ source := 0x4000, kind := 0x100, sev := 2 }] } },
      { source := 0x4000, kind := 0x100, sev := 2, addr := 3 }, [], by decide +kernel⟩

theorem wit_LedgerTakesMessages_5 : ∃ (s : State) (m : Msg), 
    (s.runs .aon = true) ∧
    (s.chip.ledger.transit = []) ∧
    (s.chip.ledger.held = [m]) ∧
    (s.chip.ledger.queue.length < 64) ∧
    (2 ≤ m.sev) := ⟨st fun c => { c with ledger := { c.ledger with held := [{ source := 0x4000, kind := 0x100, sev := 2 }] } },
      { source := 0x4000, kind := 0x100, sev := 2 }, by decide +kernel⟩

theorem wit_LedgerTakesMessages_6 : ∃ (s : State) (m n : Msg) (l : List Msg), 
    (s.runs .aon = true) ∧
    (s.chip.ledger.transit = m :: n :: l) ∧
    (s.chip.ledger.held = []) ∧
    (s.chip.ledger.queue.length < 47) ∧
    (m.sev < n.sev) := ⟨st fun c => (c.report 0x4000 0x100 1 3).report 0x4001 0x100 4 3,
      { source := 0x4000, kind := 0x100, sev := 1, addr := 3 }, { source := 0x4001, kind := 0x100, sev := 4, addr := 3 }, [],
      by decide +kernel⟩

theorem wit_LedgerTakesMessages_7 : ∃ (s : State), 
    (s.runs .aon = true) ∧
    (s.chip.ledger.lostBase < (s.chip.reg C.records_lost).toNat) ∧
    (s.chip.unread < 1024) ∧
    (s.chip.ledger.lostSent = false) := ⟨st fun c => c.cnt C.records_lost 3, by decide +kernel⟩

theorem wit_LedgerTakesMessages_8 : ∃ (s : State), 
    (s.runs .aon = true) ∧
    ((s.chip.reg C.records_lost).toNat ≤ s.chip.ledger.lostBase ∨ 1024 ≤ s.chip.unread ∨
      s.chip.ledger.lostSent = true) := ⟨st id, by decide +kernel⟩

theorem wit_LedgerWritesRecords_1 : ∃ (s : State) (m : Msg) (q : List Msg), 
    (s.runs .aon = true) ∧
    (s.chip.ledger.queue = m :: q) ∧
    (s.chip.unread < 1024) ∧
    (m.sev ≤ 5) ∧
    (¬(m.kind = 0x018 ∧ m.source = 0xD038)) := ⟨st fun c =>
      { c with ledger := { c.ledger with queue := [{ source := 0x4000, kind := 0x100, sev := 4, addr := 3 }] } },
      { source := 0x4000, kind := 0x100, sev := 4, addr := 3 }, [], by decide +kernel⟩

theorem wit_LedgerWritesRecords_2 : ∃ (s : State) (m : Msg) (q : List Msg), 
    (s.runs .aon = true) ∧
    (s.chip.ledger.queue = m :: q) ∧
    (1024 ≤ s.chip.unread) ∧
    (m.sev ≤ 5) ∧
    (¬(m.kind = 0x018 ∧ m.source = 0xD038)) := ⟨st fun c =>
      { c.put 0 R.LEDGER_WR_PTR_ptr 1024 with ledger := { c.ledger with queue := [{ source := 0x4000, kind := 0x100, sev := 4, addr := 3 }] } },
      { source := 0x4000, kind := 0x100, sev := 4, addr := 3 }, [], by decide +kernel⟩

theorem wit_LedgerWritesRecords_3 : ∃ (s : State) (m : Msg) (q : List Msg), 
    (s.runs .aon = true) ∧
    (s.chip.ledger.queue = m :: q) ∧
    (s.chip.unread < 1024) ∧
    (m.sev ≤ 5) ∧
    (m.kind = 0x018) ∧
    (m.source = 0xD038) := ⟨st fun c =>
      { c.cnt C.records_lost 3 with ledger := { c.ledger with lostSent := true, queue := [{ source := 0xD038, kind := 0x018, sev := 2 }] } },
      { source := 0xD038, kind := 0x018, sev := 2 }, [], by decide +kernel⟩

theorem wit_LedgerWritesRecords_4 : ∃ (s : State) (m : Msg) (q : List Msg), 
    (s.runs .aon = true) ∧
    (s.chip.ledger.queue = m :: q) ∧
    (s.chip.unread < 1024) ∧
    (m.sev ≤ 5) ∧
    (¬(m.kind = 0x018 ∧ m.source = 0xD038)) := ⟨st fun c =>
      { c with ledger := { c.ledger with queue := [{ source := 0x8005, kind := 0x603, sev := 4, addr := 3 }] } },
      { source := 0x8005, kind := 0x603, sev := 4, addr := 3 }, [], by decide +kernel⟩

theorem wit_LedgerWritesRecords_5 : ∃ (s : State) (m : Msg) (q : List Msg), 
    (s.runs .aon = true) ∧
    (s.chip.ledger.queue = m :: q) ∧
    (s.chip.get 0 R.SAG_STATUS_stopped = 0) ∧
    (s.chip.unread < 1024) ∧
    (m.sev ≤ 5) ∧
    (¬(m.kind = 0x018 ∧ m.source = 0xD038)) := ⟨st fun c =>
      { c.setLatch 3 { owner := 0x4000 } with ledger := { (c.setLatch 3 { owner := 0x4000 }).ledger with queue := [{ source := 0x4000, kind := 0x100, sev := 4, addr := 3 }] } },
      { source := 0x4000, kind := 0x100, sev := 4, addr := 3 }, [], by decide +kernel⟩

theorem wit_LedgerWritesRecords_6 : ∃ (s : State) (k : Cond) (p : Nat), 
    (s.runs .aon = true) ∧
    (s.chip.ledger.conds.find? (fun x => x.source == k.source && x.kind == k.kind) = some k) ∧
    (s.chip.ledger.ended.contains (k.source, k.kind) = true) ∧
    (k.ptr = some p) ∧
    (s.chip.stillUnread p = true) := ⟨st fun c =>
      { c.put 0 R.LEDGER_WR_PTR_ptr 1 with now := 40000, ledger := { c.ledger with conds := [⟨0x4000, 0x100, some 0, 0, 0⟩], ended := [(0x4000, 0x100)] } },
      ⟨0x4000, 0x100, some 0, 0, 0⟩, 0, by decide +kernel⟩

theorem wit_LedgerWritesRecords_7 : ∃ (s : State) (k : Cond), 
    (s.runs .aon = true) ∧
    (s.chip.ledger.conds.find? (fun x => x.source == k.source && x.kind == k.kind) = some k) ∧
    (s.chip.ledger.ended.contains (k.source, k.kind) = true) ∧
    (k.ptr.filter (fun p => s.chip.stillUnread p) = none) ∧
    (s.chip.unread < 1024) := ⟨st fun c =>
      { (c.put 0 R.LEDGER_WR_PTR_ptr 1).put 0 R.LEDGER_RD_PTR_ptr 1 with ledger := { c.ledger with conds := [⟨0x4000, 0x100, some 0, 0, 0⟩], ended := [(0x4000, 0x100)] } },
      ⟨0x4000, 0x100, some 0, 0, 0⟩, by decide +kernel⟩

theorem wit_LedgerWritesRecords_8 : ∃ (s : State) (u k : Nat), 
    (s.runs .aon = true) ∧
    (s.chip.ledger.ended.contains (u, k) = false) := ⟨st id, 0x4000, 0x100, by decide +kernel⟩

theorem wit_JournalErrorAndInjection_1 : ∃ (s : State) (r : BitVec 128) (q : List (BitVec 128)), 
    (s.runs .aon = true) ∧
    (s.chip.ledger.jrnQueue = r :: q) ∧
    (s.chip.get 0 R.SAG_STATUS_stopped = 0) := ⟨st fun c => { c with ledger := { c.ledger with jrnQueue := [5, 6] } }, 5, [6],
      by decide +kernel⟩

theorem wit_JournalErrorAndInjection_2 : ∃ (s : State), 
    (s.runs .aon = true) ∧
    (s.chip.ledger.jrnQueue = [] ∨ s.chip.get 0 R.SAG_STATUS_stopped = 1) := ⟨st id, by decide +kernel⟩

theorem wit_JournalErrorAndInjection_3 : ∃ (s : State) (src : Source), 
    (s.serves src R.LEDGER_CTRL true = true) := ⟨st fun c => c.put 0 R.LEDGER_STATUS_errn 1, .pf, by decide +kernel⟩

theorem wit_JournalErrorAndInjection_4 : ∃ (s : State) (src : Source) (data : Word) (w : Nat), 
    (s.serves src R.LEDGER_INJ_CTRL true = true) ∧
    (s.chip.ledger.inj = none) ∧
    (s.chip.present (s.chip.get 0 R.LEDGER_INJ_UNIT_unit_id) = true) ∧
    (hasChecker (s.chip.get 0 R.LEDGER_INJ_UNIT_unit_id) (bits data 3 0) = true) ∧
    (injWidth (bits data 3 0) = some w) ∧
    (s.chip.get 0 R.LEDGER_INJ_MASK_mask < 2 ^ w) := ⟨st fun c => (c.put 0 R.LEDGER_INJ_UNIT_unit_id 0x9048).put 0 R.LEDGER_INJ_MASK_mask 3,
      .pf, 0xC0000100, 5, by decide +kernel⟩

theorem wit_JournalErrorAndInjection_5 : ∃ (s : State) (src : Source) (data : Word), 
    (s.serves src R.LEDGER_INJ_CTRL true = true) ∧
    (s.chip.ledger.inj = none) ∧
    (hasChecker (s.chip.get 0 R.LEDGER_INJ_UNIT_unit_id) (bits data 3 0) = false ∨ ∃ w, injWidth (bits data 3 0) = some w ∧
      2 ^ w ≤ s.chip.get 0 R.LEDGER_INJ_MASK_mask) := ⟨st fun c => (c.put 0 R.LEDGER_INJ_UNIT_unit_id 0x9048).put 0 R.LEDGER_INJ_MASK_mask
      32, .pf, 0xC0000100, by decide +kernel, by decide +kernel, Or.inr ⟨5, by decide +kernel⟩⟩

theorem wit_JournalErrorAndInjection_6 : ∃ (s : State) (src : Source) (data : Word), 
    (s.serves src R.LEDGER_INJ_CTRL true = true) ∧
    (s.chip.ledger.inj.isSome = true) := ⟨st fun c =>
      { c with ledger := { c.ledger with inj := some { unit := 0x9048, cls := 0, mask := 1, addr := 0, count := 1, react := false } } },
      .pf, 0xC0000100, by decide +kernel⟩

theorem wit_JournalErrorAndInjection_7 : ∃ (s : State) (src : Source), 
    (s.serves src R.LEDGER_INJ_CTRL true = true) := ⟨st fun c =>
      { c with ledger := { c.ledger with inj := some { unit := 0x9048, cls := 0, mask := 1, addr := 0, count := 1, react := false } } },
      .pf, by decide +kernel⟩

theorem wit_TimeAdvances_1 : ∃ (s : State), 
    (s.runs .aon = true) := ⟨st fun c => c.put (A.tb 3) R.TB_RATE_rate 0x2000000000, by decide +kernel⟩

theorem wit_TimeAdvances_2 : ∃ (s : State) (k : Nat), 
    (s.runs .aon = true) ∧
    (k < 8) ∧
    (0 ≤ ((s.chip.tb k).fine : Int) + 8 * 2 ^ 48 + 8 * s.chip.tbRate k) ∧
    (((s.chip.tb k).fine : Int) + 8 * 2 ^ 48 + 8 * s.chip.tbRate k < 2 ^ 48 * 1000000000 * 2 ^ 48) :=
      ⟨st fun c => c.put (A.tb 3) R.TB_RATE_rate 0x2000000000, 3, by decide +kernel⟩

theorem wit_TimeAdvances_3 : ∃ (s : State) (src : Source) (k : Nat), 
    (s.serves src (A.tb k + 0x38) false = true) ∧
    (k < 8) := ⟨st fun c => c.setTb 3 { sec := 5, ns := 7 }, .pf, 3, by decide +kernel⟩

theorem wit_TimeAdvances_4 : ∃ (s : State) (src : Source) (k : Nat), 
    (s.serves src (A.tb k + 0x48) false = true) ∧
    (k < 8) := ⟨st fun c => (c.setTb 3 { sec := 5, ns := 7, ppsSec := 4 }).setReg (A.tb 3 + R.TB_PPS_NS) 0x8000000000000001, .pf, 3,
      by decide +kernel⟩

theorem wit_TimeAdvances_5 : ∃ (s : State) (i : Nat), 
    (s.runs .aon = true) ∧
    (i < 2) ∧
    (s.chip.power.sysRstHigh = true) ∧
    (s.chip.get (4 * i) R.PPS_OUT_enable = 1) ∧
    ((s.chip.pps.look i).rose = none) ∧
    ((s.chip.pps.look i).last < s.chip.ppsSecond i) := ⟨st fun c => (c.setTb 0 { sec := 5 }).put 4 R.PPS_OUT_enable 1, 1, by decide +kernel⟩

theorem wit_TimeAdvances_6 : ∃ (s : State) (i r : Nat), 
    (s.runs .aon = true) ∧
    (i < 2) ∧
    ((s.chip.pps.look i).rose = some r) ∧
    (r + s.chip.get (4 * i) R.PPS_OUT_width_ms * 1000000 ≤ s.chip.now) :=
      ⟨st fun c => { c with now := 600000000, pps := c.pps.set 1 { last := 1, rose := some 5 } }, 1, 5, by decide +kernel⟩

theorem wit_TimeAdvances_7 : ∃ (s : State) (k : Nat), 
    (s.runs .aon = true) ∧
    (k < 8) ∧
    (s.chip.get (A.tb k) R.TB_CTRL_steer_timeout_ms ≠ 0) ∧
    (s.chip.get (A.tb k) R.TB_STATUS_holdover = 0) ∧
    ((s.chip.tb k).steered + s.chip.get (A.tb k) R.TB_CTRL_steer_timeout_ms * 1000000 ≤ s.chip.now) :=
      ⟨st fun c => { c.put (A.tb 3) R.TB_CTRL_steer_timeout_ms 2 with now := 3000000 }, 3, by decide +kernel⟩

theorem wit_TimeAdvances_8 : ∃ (s : State) (k : Nat), 
    (s.runs .aon = true) ∧
    (s.chip.get (A.tb k) R.TB_CTRL_steer_timeout_ms = 0 ∨ s.chip.now < (s.chip.tb k).steered + s.chip.get (A.tb k)
      R.TB_CTRL_steer_timeout_ms * 1000000) := ⟨st id, 3, by decide +kernel⟩

theorem wit_TimeAdvances_9 : ∃ (s : State), 
    (s.runs .aon = true) ∧
    (s.chip.get 0 R.TB_REF_ref_sel = 1) ∧
    (s.chip.get 0 R.TB_REF_ref_lost = 0) := ⟨st fun c => c.put 0 R.TB_REF_ref_sel 1, by decide +kernel⟩

theorem wit_TimeAdvances_10 : ∃ (s : State) (src : Source) (sel : Bool), 
    (s.serves src R.TB_REF true = true) := ⟨st fun c => c.put 0 R.TB_REF_ref_lost 1, .pf, true, by decide +kernel⟩

theorem wit_TimeAdvances_11 : ∃ (s : State), 
    (s.runs .aon = true) ∧
    (s.chip.get 0 R.TB_REF_ref_lost = 0) := ⟨st fun c => (c.put 0 R.TB_REF_locked 0).put (A.tb 3) R.TB_STATUS_ref_holdover 1,
      by decide +kernel⟩

theorem wit_TimeAdvances_12 : ∃ (s : State), 
    (s.runs .aon = true) ∧
    (s.chip.get 0 R.TB_REF_ref_lost = 1) := ⟨st fun c => c.put 0 R.TB_REF_ref_lost 1, by decide +kernel⟩

theorem wit_TimeAdvances_13 : ∃ (s : State), 
    (s.runs .aon = true) := ⟨st fun c => (c.setTb 3 { sec := 5, ns := 7, ppsSec := 4 }).setReg (A.tb 3 + R.TB_PPS_NS) 0x8000000000000001,
      by decide +kernel⟩

theorem wit_GatesFollowTheirList_1 : ∃ (s : State) (p : Nat), 
    (s.runs .core = true) ∧
    (s.chip.portThere p = true) ∧
    (s.chip.get (A.port p) R.GATE_CTRL_enable = 1) ∧
    (∀ q ∈ s.chip.portSet p, (s.chip.sch (q / 16)).copies = []) := ⟨st fun c => c.put (A.port 0) R.GATE_CTRL_enable 1, 0, by decide +kernel⟩

theorem wit_GatesFollowTheirList_2 : ∃ (s : State) (p : Nat), 
    (s.runs .core = true) ∧
    (s.chip.portThere p = true) ∧
    (s.chip.get (A.port p) R.GATE_STATUS_before_base = 1) ∧
    (s.chip.gclBase p (s.chip.activeList p) ≤ s.chip.gateNow p) ∧
    (∀ q ∈ s.chip.portSet p, (s.chip.sch (q / 16)).copies = []) :=
      ⟨st fun c => ((c.put (A.port 0) R.GATE_CTRL_enable 1).put (A.port 0) R.GATE_STATUS_before_base 1).put (A.port 0) R.GCL_CYCLE_cycle 5,
      0, by decide +kernel⟩

theorem wit_GatesFollowTheirList_3 : ∃ (s : State) (src : Source) (addr p o l : Nat) (data : Word) (r : RegRow), 
    (s.serves src addr true = true) ∧
    (Chip.portAddr addr = some (p, o)) ∧
    (Chip.gclList o = some l) ∧
    (l ≠ s.chip.activeList p) ∧
    (s.chip.get (A.port p) R.GATE_STATUS_armed = 0) ∧
    (∀ q ∈ s.chip.portSet p, regRow (A.port q + o) = some r) := ⟨st id, .pf, A.port 0 + 0x2810, 0, 0x2810, 1, 77,
      (regRow (A.port 0 + 0x2810)).getD ⟨0, [], false, 0, 0, 0, 0, 0, 0, 0, false, false⟩, by decide +kernel⟩

theorem wit_GatesFollowTheirList_4 : ∃ (s : State) (src : Source) (addr p o l : Nat) (data : Word), 
    (s.serves src addr true = true) ∧
    (Chip.portAddr addr = some (p, o)) ∧
    (Chip.gclList o = some l) ∧
    (l = s.chip.activeList p ∨ s.chip.get (A.port p) R.GATE_STATUS_armed = 1) := ⟨st id, .pf, A.port 0 + 0x2010, 0, 0x2010, 0, 77,
      by decide +kernel⟩

theorem wit_GatesFollowTheirList_5 : ∃ (s : State) (src : Source) (p : Nat), 
    (s.serves src (A.port p + 0x88) true = true) ∧
    (s.chip.portThere p = true) ∧
    (s.chip.get (A.port p) R.GATE_STATUS_armed = 0) ∧
    (s.chip.gclOk p (1 - s.chip.activeList p) = true) := ⟨st fun c => ((c.put (A.port 0 + 0x20) R.GCL_COUNT_entry_count 1).put (A.port 0 +
      0x20) R.GCL_CYCLE_cycle 5).put (A.port 0 + 0x800) R.GCL_INTERVAL_interval 5, .pf, 0, by decide +kernel⟩

theorem wit_GatesFollowTheirList_6 : ∃ (s : State) (src : Source) (p : Nat), 
    (s.serves src (A.port p + 0x88) true = true) ∧
    (s.chip.portThere p = true) ∧
    (s.chip.get (A.port p) R.GATE_STATUS_armed = 0) ∧
    (s.chip.gclOk p (1 - s.chip.activeList p) = false) := ⟨st id, .pf, 0, by decide +kernel⟩

theorem wit_GatesFollowTheirList_7 : ∃ (s : State) (src : Source) (p : Nat), 
    (s.serves src (A.port p + 0x88) true = true) ∧
    (s.chip.portThere p = true) ∧
    (s.chip.get (A.port p) R.GATE_STATUS_armed = 1) := ⟨st fun c => c.put (A.port 0) R.GATE_STATUS_armed 1, .pf, 0, by decide +kernel⟩

theorem wit_GatesFollowTheirList_8 : ∃ (s : State) (src : Source) (p : Nat), 
    (s.serves src (A.port p + 0x88) true = true) ∧
    (s.chip.portThere p = true) ∧
    (s.chip.get (A.port p) R.GATE_STATUS_armed = 1) ∧
    (s.chip.gateNow p < s.chip.swapInstant p) := ⟨st fun c => (c.put (A.port 0) R.GATE_STATUS_armed 1).put (A.port 0) R.GATE_SWAP_NS_ns
      5000, .pf, 0, by decide +kernel⟩

theorem wit_GatesFollowTheirList_9 : ∃ (s : State) (p : Nat), 
    (s.runs .core = true) ∧
    (s.chip.portThere p = true) ∧
    (s.chip.get (A.port p) R.GATE_STATUS_armed = 1) ∧
    (s.chip.swapInstant p ≤ s.chip.gateNow p) ∧
    ((s.chip.portSet p).Nodup) ∧
    (∀ q ∈ s.chip.portSet p, (s.chip.sch (q / 16)).copies = []) := ⟨st fun c => c.put (A.port 0) R.GATE_STATUS_armed 1, 0,
      by decide +kernel⟩

theorem wit_GatesFollowTheirList_10 : ∃ (s : State) (p : Nat), 
    (s.runs .core = true) ∧
    (s.chip.get (A.port p) R.GATE_STATUS_armed = 0 ∨ s.chip.gateNow p < s.chip.swapInstant p) := ⟨st id, 0, by decide +kernel⟩

theorem wit_MemoryGroupsAreFilledAndScrubbed_1 : ∃ (s : State) (src : Source) (data : Word) (u start count : Nat), 
    (s.serves src 0x500C true = true) ∧
    (s.chip.selGroup = some u) ∧
    (bit data 31 = true) ∧
    (start = s.chip.get (A.group u) R.MEM_FILL_START_word) ∧
    (count = s.chip.get (A.group u) R.MEM_FILL_COUNT_count) ∧
    (start % 64 = 0 ∧ count % 64 = 0 ∧ 64 ≤ count ∧ start + count ≤ s.chip.groupRows u * 64) ∧
    (s.chip.ownerHeld u = true) ∧
    (u = 0xD048 → 0x10000 * 8 ≤ start) ∧
    ((s.chip.grp u).remapping = none) ∧
    ((s.chip.grp u).filling = none) := ⟨st fun c =>
      { ((c.put 0 R.MEM_SEL_unit_id 0xD018).put (A.group 0xD018) R.MEM_FILL_COUNT_count 64) with rst := { c.rst with held := [0xD018] } },
      .pf, 0x80000000, 0xD018, 0, 64, by decide +kernel⟩

theorem wit_MemoryGroupsAreFilledAndScrubbed_2 : ∃ (s : State) (src : Source) (data : Word) (u start count r : Nat), 
    (s.serves src 0x500C true = true) ∧
    (s.chip.selGroup = some u) ∧
    (bit data 31 = true) ∧
    (start = s.chip.get (A.group u) R.MEM_FILL_START_word) ∧
    (count = s.chip.get (A.group u) R.MEM_FILL_COUNT_count) ∧
    (r = (if start % 64 ≠ 0 ∨ count % 64 ≠ 0 ∨ count < 64 ∨ s.chip.groupRows u * 64 < start + count then 1 else if s.chip.ownerHeld u =
      false then 2 else if u = 0xD048 ∧ start < 0x10000 * 8 then 3 else if (s.chip.grp u).remapping ≠ none ∨
      (s.chip.grp u).filling ≠ none then 4 else 0)) ∧
    (r ≠ 0) := ⟨st fun c => (c.put 0 R.MEM_SEL_unit_id 0xD018).put (A.group 0xD018) R.MEM_FILL_COUNT_count 64, .pf, 0x80000000, 0xD018, 0,
      64, 2, by decide +kernel⟩

theorem wit_MemoryGroupsAreFilledAndScrubbed_3 : ∃ (s : State) (src : Source) (data : Word), 
    (s.serves src 0x500C true = true) ∧
    (bit data 31 = false ∨ s.chip.selGroup = none) := ⟨st id, .pf, 5, by decide +kernel⟩

theorem wit_MemoryGroupsAreFilledAndScrubbed_4 : ∃ (s : State) (u start count pat : Nat), 
    (s.runs .core = true) ∧
    ((s.chip.grp u).filling = some (start, count, pat)) := ⟨st fun c => c.setGrp 0xD018 { filling := some (0, 64, 0), poison := [3, 70] },
      0xD018, 0, 64, 0, by decide +kernel⟩

theorem wit_MemoryGroupsAreFilledAndScrubbed_5 : ∃ (s : State) (start count pat i : Nat), 
    (s.runs .core = true) ∧
    ((s.chip.grp 0xD048).filling = some (start, count, pat)) ∧
    (i < 8 * count) ∧
    (Memory.wf s.nv.mem = true) := ⟨st fun c => c.setGrp 0xD048 { filling := some (640000, 1, 0x12345678) }, 640000, 1, 0x12345678, 2,
      by decide +kernel⟩

theorem wit_MemoryGroupsAreFilledAndScrubbed_6 : ∃ (s : State) (u w ecc byte pos : Nat), 
    (s.runs .aon = true) ∧
    (isMemGroup u = true ∧ s.chip.present u = true ∧ s.chip.get (A.group u) R.MEM_SCRUB_enable = 1) ∧
    ((match U.sliceOf u with | some k => s.chip.house.sleep.look k == 0 | none => true) = true) ∧
    ((s.chip.grp u).isFilled (w / 64) = true) ∧
    ((s.chip.grp u).scrubAt = w) ∧
    (((s.chip.grp u).remapping.any fun r => r.1 == w / 64) = false) ∧
    (ecc = 2 ∨ s.chip.poisoned u w = true) := ⟨st fun c => (c.setGrp 0xD018 { filled := [(1, 1)], scrubAt := 70 }).put (A.group 0xD018)
      R.MEM_SCRUB_enable 1, 0xD018, 70, 2, 0, 0, by decide +kernel⟩

theorem wit_MemoryGroupsAreFilledAndScrubbed_7 : ∃ (s : State) (u w byte pos : Nat), 
    (s.runs .aon = true) ∧
    (isMemGroup u = true ∧ s.chip.present u = true ∧ s.chip.get (A.group u) R.MEM_SCRUB_enable = 1) ∧
    ((match U.sliceOf u with | some k => s.chip.house.sleep.look k == 0 | none => true) = true) ∧
    ((s.chip.grp u).isFilled (w / 64) = true) ∧
    ((s.chip.grp u).scrubAt = w) ∧
    (((s.chip.grp u).remapping.any fun r => r.1 == w / 64) = false) ∧
    (s.chip.poisoned u w = false) ∧
    (((s.chip.grp u).soft.any fun x => x.1 == w) = false) := ⟨st fun c => (c.setGrp 0xD018 { filled := [(1, 1)], scrubAt := 70 }).put
      (A.group 0xD018) R.MEM_SCRUB_enable 1, 0xD018, 70, 5, 3, by decide +kernel⟩

theorem wit_MemoryGroupsAreFilledAndScrubbed_8 : ∃ (s : State) (u w x byte pos : Nat), 
    (s.runs .aon = true) ∧
    (isMemGroup u = true ∧ s.chip.present u = true ∧ s.chip.get (A.group u) R.MEM_SCRUB_enable = 1) ∧
    ((match U.sliceOf u with | some k => s.chip.house.sleep.look k == 0 | none => true) = true) ∧
    ((s.chip.grp u).isFilled (w / 64) = true) ∧
    ((s.chip.grp u).scrubAt = w) ∧
    (((s.chip.grp u).remapping.any fun r => r.1 == w / 64) = false) ∧
    (s.chip.poisoned u w = false) ∧
    ((s.chip.grp u).soft.find? (fun y => y.1 == w) = some (w, x)) :=
      ⟨st fun c => (c.setGrp 0xD018 { filled := [(1, 1)], scrubAt := 70, soft := [(70, 37)] }).put (A.group 0xD018) R.MEM_SCRUB_enable 1,
      0xD018, 70, 37, 5, 3, by decide +kernel⟩

theorem wit_MemoryGroupsAreFilledAndScrubbed_9 : ∃ (s : State) (u w byte pos : Nat), 
    (s.runs .aon = true) ∧
    (isMemGroup u = true ∧ s.chip.present u = true ∧ s.chip.get (A.group u) R.MEM_SCRUB_enable = 1) ∧
    ((match U.sliceOf u with | some k => s.chip.house.sleep.look k == 0 | none => true) = true) ∧
    ((s.chip.grp u).isFilled (w / 64) = true) ∧
    ((s.chip.grp u).scrubAt = w) ∧
    (((s.chip.grp u).remapping.any fun r => r.1 == w / 64) = true ∨ (s.chip.poisoned u w = false ∧
      ((s.chip.grp u).soft.any fun x => x.1 == w) = false)) :=
      ⟨st fun c => (c.setGrp 0xD018 { filled := [(1, 1)], scrubAt := 70 }).put (A.group 0xD018) R.MEM_SCRUB_enable 1, 0xD018, 70, 5, 3,
      by decide +kernel⟩

theorem wit_MemoryGroupsAreFilledAndScrubbed_10 : ∃ (s : State) (u ecc byte pos : Nat), 
    (s.runs .aon = true) ∧
    (isMemGroup u = true ∧ s.chip.present u = true ∧ s.chip.get (A.group u) R.MEM_SCRUB_enable = 1) ∧
    ((match U.sliceOf u with | some k => s.chip.house.sleep.look k == 0 | none => true) = true) ∧
    ((s.chip.grp u).filled ≠ []) ∧
    (∀ r ∈ (s.chip.grp u).filled, (r.1 + r.2) * 64 ≤ (s.chip.grp u).scrubAt) :=
      ⟨st fun c => (c.setGrp 0xD018 { filled := [(1, 1)], scrubAt := 128 }).put (A.group 0xD018) R.MEM_SCRUB_enable 1, 0xD018, 0, 5, 3,
      by decide +kernel⟩

theorem wit_RowsMoveToSpares_1 : ∃ (s : State) (src : Source) (data : Word) (u row : Nat), 
    (s.serves src 0x501C true = true) ∧
    (s.chip.selGroup = some u) ∧
    (bit data 31 = true) ∧
    (bit data 30 = false) ∧
    (row = bits data 17 0) ∧
    (row < s.chip.groupRows u) ∧
    ((s.chip.grp u).remapping = none) ∧
    ((s.chip.grp u).filling = none) ∧
    ((s.chip.grp u).sparesUsed.look (row / 1024) < 2) := ⟨st fun c => c.put 0 R.MEM_SEL_unit_id 0xD018, .pf, 0x80000401, 0xD018, 0x401,
      by decide +kernel⟩

theorem wit_RowsMoveToSpares_2 : ∃ (s : State) (src : Source) (data : Word) (u row : Nat), 
    (s.serves src 0x501C true = true) ∧
    (s.chip.selGroup = some u) ∧
    (bit data 31 = true) ∧
    (bit data 30 = false) ∧
    (row = bits data 17 0) ∧
    (s.chip.groupRows u ≤ row ∨ (s.chip.grp u).remapping ≠ none ∨
      (s.chip.grp u).filling ≠ none) := ⟨st fun c => c.put 0 R.MEM_SEL_unit_id 0xD018, .pf, 0x8003ffff, 0xD018, 0x3ffff, by decide +kernel⟩

theorem wit_RowsMoveToSpares_3 : ∃ (s : State) (src : Source) (data : Word) (u row : Nat), 
    (s.serves src 0x501C true = true) ∧
    (s.chip.selGroup = some u) ∧
    (bit data 31 = true) ∧
    (bit data 30 = false) ∧
    (row = bits data 17 0) ∧
    (row < s.chip.groupRows u) ∧
    ((s.chip.grp u).remapping = none) ∧
    ((s.chip.grp u).filling = none) ∧
    (2 ≤ (s.chip.grp u).sparesUsed.look (row / 1024)) := ⟨st fun c => (c.put 0 R.MEM_SEL_unit_id 0xD018).setGrp 0xD018
      { sparesUsed := [(1, 2)] }, .pf, 0x80000401, 0xD018, 0x401, by decide +kernel⟩

theorem wit_RowsMoveToSpares_4 : ∃ (s : State) (u row spare : Nat), 
    (s.runs .core = true) ∧
    ((s.chip.grp u).remapping = some (row, spare)) := ⟨st fun c => c.setGrp 0xD018 { remapping := some (1025, 1) }, 0xD018, 1025, 1,
      by decide +kernel⟩

theorem wit_RowsMoveToSpares_5 : ∃ (s : State) (src : Source) (data : Word) (u : Nat), 
    (s.serves src 0x501C true = true) ∧
    (s.chip.selGroup = some u) ∧
    (bit data 31 = true) ∧
    (bit data 30 = true) ∧
    (bits data 17 0 < s.chip.groupRows u) := ⟨st fun c => c.put 0 R.MEM_SEL_unit_id 0xD018, .pf, 0xC0000401, 0xD018, by decide +kernel⟩

theorem wit_RowsMoveToSpares_6 : ∃ (s : State) (src : Source) (data : Word) (u : Nat), 
    (s.serves src 0x501C true = true) ∧
    (s.chip.selGroup = some u) ∧
    (bit data 31 = true) ∧
    (bit data 30 = true) ∧
    (s.chip.groupRows u ≤ bits data 17 0) := ⟨st fun c => c.put 0 R.MEM_SEL_unit_id 0xD018, .pf, 0xC003ffff, 0xD018, by decide +kernel⟩

theorem wit_FifosSwapAndFlush_1 : ∃ (s : State) (f : Nat), 
    (s.runs .core = true) ∧
    (s.chip.fifoThere f = true) ∧
    ((s.chip.fifos.look f).draining = []) ∧
    ((s.chip.fifos.look f).filling ≠ []) ∧
    (fifoCap f / 2 ≤ (s.chip.fifos.look f).filling.length ∨ s.chip.passedUs (s.chip.fifos.look f).since (s.chip.get (fifoBase f) ⟨0, 15,
      0⟩) = true) := ⟨st fun c => { c with now := 100000, fifos := c.fifos.set 3 { filling := [5] } }, 3, by decide +kernel⟩

theorem wit_FifosSwapAndFlush_2 : ∃ (s : State) (f : Nat), 
    (s.runs .core = true) ∧
    ((s.chip.fifos.look f).draining ≠ [] ∨ (s.chip.fifos.look f).filling = []) := ⟨st id, 3, by decide +kernel⟩

theorem wit_FifosSwapAndFlush_3 : ∃ (s : State) (src : Source) (f : Nat), 
    (s.serves src (fifoBase f) true = true) ∧
    (s.chip.fifoThere f = true) := ⟨st id, .pf, 24, by decide +kernel⟩

theorem wit_FifosSwapAndFlush_4 : ∃ (s : State) (f : Nat) (partway : Bool), 
    (s.runs .core = true) ∧
    (s.chip.fifoThere f = true) ∧
    ((s.chip.fifos.look f).flush = true) := ⟨st fun c => { c with fifos := c.fifos.set 3 { filling := [5], flush := true } }, 3, true,
      by decide +kernel⟩

theorem wit_FifosSwapAndFlush_5 : ∃ (s : State) (f : Nat) (partway : Bool), 
    (s.runs .core = true) ∧
    ((s.chip.fifos.look f).flush = false) := ⟨st id, 3, true, by decide +kernel⟩

theorem wit_FifosSwapAndFlush_6 : ∃ (s : State) (base : Nat) (r : WinRes), 
    (s.runs .core = true) ∧
    (s.chip.wins.look base = some r) ∧
    (s.chip.winBusy base = true) ∧
    (s.chip.winAwake base = true) := ⟨st fun c =>
      { c.put 0x08440008 R.WIN_STATUS_busy 1 with wins := c.wins.set 0x08440000 (some { code := 3, data := some 77 }) }, 0x08440000,
      { code := 3, data := some 77 }, by decide +kernel⟩

theorem wit_FifosSwapAndFlush_7 : ∃ (s : State) (base : Nat), 
    (s.runs .core = true) ∧
    (s.chip.winBusy base = false ∨ s.chip.winAwake base = false) := ⟨st id, 0x08440000, by decide +kernel⟩

theorem wit_RegisterAccesses_1 : ∃ (s : State) (src : Source) (a : Nat) (r : RegRow) (v : Word), 
    (s.serves src a true = true) ∧
    (a % 4 = 0) ∧
    (Chip.rowAt a = some r) ∧
    (regRow a = some r) ∧
    (r.counter = false) ∧
    (codeOnly a = true) := ⟨st id, .pf, A.port 0 + R.PORT_LPI, (regRow (A.port 0 + R.PORT_LPI)).getD ⟨0, [], false, 0, 0, 0, 0, 0, 0, 0,
      false, false⟩, 0x12345678, by decide +kernel⟩

theorem wit_RegisterAccesses_2 : ∃ (s : State) (src : Source) (k o : Nat) (r : RegRow) (v : Word), 
    (s.serves src (A.tb k + o) true = true) ∧
    (k < 8 ∧ o % 8 = 0 ∧ o < 0xF8) ∧
    (Chip.rowAt (A.tb k + o) = some r) ∧
    (regRow (A.tb k + o) = some r) ∧
    (r.counter = false) ∧
    (r.wide = true) ∧
    (s.chip.tbMayWrite src k = true) := ⟨st id, .pf, 3, R.TB_RATE, (regRow (A.tb 3 + R.TB_RATE)).getD ⟨0, [], false, 0, 0, 0, 0, 0, 0, 0,
      false, false⟩, 0x12345678, by decide +kernel⟩

theorem wit_RegisterAccesses_3 : ∃ (s : State) (src : Source) (k o : Nat) (r : RegRow) (v : Word), 
    (s.serves src (A.tb k + o + 4) true = true) ∧
    (k < 8 ∧ o % 8 = 0 ∧ o < 0xF8) ∧
    (Chip.rowAt (A.tb k + o + 4) = none) ∧
    (Chip.rowAt (A.tb k + o) = some r) ∧
    (regRow (A.tb k + o) = some r) ∧
    (r.counter = false) ∧
    (r.wide = true) ∧
    (s.chip.tbMayWrite src k = true) := ⟨st id, .pf, 3, R.TB_SET_SEC, (regRow (A.tb 3 + R.TB_SET_SEC)).getD ⟨0, [], false, 0, 0, 0, 0, 0, 0,
      0, false, false⟩, 0x12, by decide +kernel⟩

theorem wit_RegisterAccesses_4 : ∃ (s : State) (src : Source) (a n : Nat) (v : Word), 
    (s.serves src a true = true) ∧
    (resetKey a v = false) ∧
    (sizeOk a n = false ∨ (n = 4 ∧ Chip.isMailData a = false ∧ Chip.rowAt a = none ∧ Chip.rowAt (a - 4) = none) ∨ (n = 4 ∧ (a < 0x5004 ∨
      0x5100 ≤ a) ∧ Chip.isMailData a = false ∧ (Chip.rowAt a).any RegRow.counter = true)) := ⟨st id, .pf, C.commits, 4, 5,
      by decide +kernel⟩

theorem wit_RegisterAccesses_5 : ∃ (s : State) (src : Source) (k o : Nat) (r : RegRow) (v : Word), 
    (s.serves src (A.tb k + o) true = true) ∧
    (k < 8) ∧
    (o % 4 = 0 ∧ o < 0x100 ∧ o ≠ R.TB_ACCESS ∧ o ≠ 0xF8) ∧
    (Chip.rowAt (A.tb k + o) = some r) ∧
    (regRow (A.tb k + o) = some r) ∧
    (r.counter = false) := ⟨st id, .core 0, 3, R.TB_EVENT_EN, (regRow (A.tb 3 + R.TB_EVENT_EN)).getD ⟨0, [], false, 0, 0, 0, 0, 0, 0, 0,
      false, false⟩, 5, by decide +kernel⟩

theorem wit_RegisterAccesses_6 : ∃ (s : State) (src : Source) (v : Word), 
    (s.serves src R.CHIP_RESET true = true) ∧
    (bits v 31 16 = 0x5AFE) ∧
    (bit v 0 = true) := ⟨st id, .pf, 0x5AFE0001, by decide +kernel⟩

theorem wit_RegisterAccesses_7 : ∃ (s : State) (src : Source) (a n : Nat), 
    (s.serves src a false = true) ∧
    (sizeOk a n = true) ∧
    (readEffect a = false) ∧
    (n = 8 → readEffect (a + 4) = false) := ⟨st id, .pf, R.BOOT_STATUS, 4, by decide +kernel⟩

theorem wit_RegisterAccesses_8 : ∃ (s : State) (src : Source) (a n : Nat), 
    (s.serves src a false = true) ∧
    (sizeOk a n = false) := ⟨st id, .pf, R.BOOT_STATUS, 3, by decide +kernel⟩

theorem wit_RegisterAccesses_9 : ∃ (s : State) (src : Source) (n : Nat) (l : List Nat), 
    (s.serves src R.ACCORD_RETIRED false = true) ∧
    (s.chip.accord.retired = n :: l) ∧
    (n < 65536) := ⟨st fun c => { c with accord := { c.accord with retired := [7, 8] } }, .pf, 7, [8], by decide +kernel⟩

theorem wit_RegisterAccesses_10 : ∃ (s : State) (src : Source) (k : Nat), 
    (s.serves src (R.LATCHKEY_TAKE + 4 * k) false = true) ∧
    (k < 64) ∧
    ((s.chip.latch k).owner = 0) := ⟨st id, .core 2, 9, by decide +kernel⟩

theorem wit_RegisterAccesses_11 : ∃ (s : State) (src : Source) (k n : Nat), 
    (s.serves src (A.tb k + R.TB_NOW_NS) false = true) ∧
    (k < 8) ∧
    (n = 4 ∨ n = 8) := ⟨st fun c => c.setTb 3 { sec := 5, ns := 7 }, .pf, 3, 8, by decide +kernel⟩

theorem wit_RegisterAccesses_12 : ∃ (s : State) (src : Source) (k n : Nat), 
    (s.serves src (A.tb k + R.TB_PPS_NS + (if n = 4 then 4 else 0)) false = true) ∧
    (k < 8) ∧
    (n = 4 ∨ n = 8) := ⟨st fun c => (c.setTb 3 { ppsSec := 5, ns := 7 }).put (A.tb 3) R.TB_PPS_NS_fresh 1, .pf, 3, 4, by decide +kernel⟩

theorem wit_RegisterAccesses_13 : ∃ (s : State) (src : Source) (u : Nat), 
    (s.serves src R.SUITE_QUERY true = true) ∧
    (u < 65536) := ⟨st id, .pf, 0x4000, by decide +kernel⟩

theorem wit_StagedRegistersApply_1 : ∃ (s : State) (src : Source) (b z tag : Nat), 
    (s.serves src (b + z - 8) true = true) ∧
    (domainOf (b + z - 8) = some (b, z)) ∧
    (b + z - 8 < 0x40000 ∨ 0x40800 ≤ b + z - 8 ∨ s.chip.tbMayWrite src ((b + z - 8 - 0x40000) / 0x100) = true) ∧
    (tag < 65536) ∧
    (s.chip.applies.look b = none) ∧
    ((s.chip.copiesOf b).any s.chip.domainHeld = false) ∧
    (s.chip.applyReasons b = []) ∧
    (((s.chip.copiesOf b).any fun x => (U.sliceOf (domainUnit x)).any fun k => s.chip.house.sleep.look k == 2) = false) := ⟨st id, .pf,
      A.hbm 0, 0x400000, 5, by decide +kernel⟩

theorem wit_StagedRegistersApply_2 : ∃ (s : State) (src : Source) (b z tag r : Nat), 
    (s.serves src (b + z - 8) true = true) ∧
    (domainOf (b + z - 8) = some (b, z)) ∧
    (b + z - 8 < 0x40000 ∨ 0x40800 ≤ b + z - 8 ∨ s.chip.tbMayWrite src ((b + z - 8 - 0x40000) / 0x100) = true) ∧
    (tag < 65536) ∧
    ((if s.chip.applyPending b then some 7 else if (s.chip.copiesOf b).any s.chip.domainHeld then some 6 else (s.chip.applyReasons b).min?)
      = some r) := ⟨st fun c => { c with applies := [(A.hbm 0, some {})] }, .pf, A.hbm 0, 0x400000, 5, 7, by decide +kernel⟩

theorem wit_StagedRegistersApply_3 : ∃ (s : State) (k x since : Nat) (v : Word) (r : RegRow), 
    (s.runs .core = true) ∧
    (k < 4) ∧
    (s.chip.applies.look (A.plane k) = some { snap := [(x, v)], left := [A.plane k], since }) ∧
    (A.plane k ≤ x) ∧
    (x < A.plane k + 0xFFFF8) ∧
    (regRow x = some r) := ⟨st fun c =>
      { c with staged := [(A.plane 1 + R.PLANE_REPLAY, some 9)], applies := [(A.plane 1, some { snap := [(A.plane 1 + R.PLANE_REPLAY, 9)], left := [A.plane 1] })] },
      1, A.plane 1 + R.PLANE_REPLAY, 0, 9, (regRow (A.plane 1 + R.PLANE_REPLAY)).getD ⟨0, [], false, 0, 0, 0, 0, 0, 0, 0, false, false⟩,
      by decide +kernel⟩

theorem wit_StagedRegistersApply_4 : ∃ (s : State) (m : Nat) (d : Apply), 
    (s.runs .core = true) ∧
    (m < 2) ∧
    (s.chip.applies.look (A.hbm m) = some d) ∧
    (d.left = [A.hbm m] ∧ d.taken = [] ∧ d.snap = []) ∧
    (s.chip.quiet.atBoundary (A.hbm m) = true) := ⟨st fun c =>
      { (c.put (A.hbm 0 + 0x3ffffc) ⟨0, 31, 31⟩ 1) with applies := [(A.hbm 0, some { left := [A.hbm 0] })] }, 0, { left := [A.hbm 0] },
      by decide +kernel⟩

theorem wit_StagedRegistersApply_5 : ∃ (s : State) (a base z : Nat) (d : Apply), 
    (s.runs .core = true) ∧
    (s.chip.domainFirst a = some (base, z)) ∧
    (domainOf base = some (base, z)) ∧
    (s.chip.applies.look base = some d) ∧
    (s.chip.passedUs d.since 10000 = true) := ⟨st fun c => { c with now := 10000000, applies := [(A.hbm 0, some { left := [A.hbm 0] })] },
      A.hbm 0 + 0x3ffff8, A.hbm 0, 0x400000, { left := [A.hbm 0] }, by decide +kernel⟩

theorem wit_StagedRegistersApply_6 : ∃ (s : State) (a base z : Nat), 
    (s.runs .core = true) ∧
    (s.chip.domainFirst a = some (base, z)) ∧
    (((s.chip.applies.look base).all fun d => decide (s.chip.now < d.since + 10000000)) = true) := ⟨st id, A.hbm 0 + 0x3ffff8, A.hbm 0,
      0x400000, by decide +kernel⟩

theorem wit_StagedRegistersApply_7 : ∃ (s : State) (src : Source) (b z : Nat), 
    (s.serves src (b + z - 8) true = true) ∧
    (domainOf (b + z - 8) = some (b, z)) ∧
    (b + z - 8 < 0x40000 ∨ 0x40800 ≤ b + z - 8 ∨ s.chip.tbMayWrite src ((b + z - 8 - 0x40000) / 0x100) = true) ∧
    (s.chip.applies.look b = none) := ⟨st fun c => { c with staged := [(A.hbm 0 + R.HBM_ROWGUARD, some 5)] }, .pf, A.hbm 0, 0x400000,
      by decide +kernel⟩

theorem wit_StagedRegistersApply_8 : ∃ (s : State) (src : Source) (b z x : Nat) (v : Word) (d : Apply), 
    (s.serves src (b + z - 8) true = true) ∧
    (domainOf (b + z - 8) = some (b, z)) ∧
    (b + z - 8 < 0x40000 ∨ 0x40800 ≤ b + z - 8 ∨ s.chip.tbMayWrite src ((b + z - 8 - 0x40000) / 0x100) = true) ∧
    (s.chip.applies.look b = some d) ∧
    (d.snap = [(x, v)]) := ⟨st fun c =>
      { c with staged := [(A.hbm 0 + R.HBM_ROWGUARD, some 5)], applies := [(A.hbm 0, some { snap := [(A.hbm 0 + R.HBM_ROWGUARD, 5)] })] },
      .pf, A.hbm 0, 0x400000, A.hbm 0 + R.HBM_ROWGUARD, 5, { snap := [(A.hbm 0 + R.HBM_ROWGUARD, 5)] }, by decide +kernel⟩

theorem wit_UnitResetsRun_1 : ∃ (s : State) (src : Source) (u : Nat), 
    (s.serves src R.UNIT_RESET true = true) ∧
    (u < 65536) ∧
    (s.chip.resetReason u 0 true = 0) := ⟨st id, .pf, U.sliceBlk 0 0x48, by decide +kernel⟩

theorem wit_UnitResetsRun_2 : ∃ (s : State) (src : Source) (u : Nat), 
    (s.serves src R.UNIT_RESET true = true) ∧
    (u < 65536) ∧
    (s.chip.resetReason u 1 true = 0) := ⟨st id, .pf, U.sliceBlk 0 0x48, by decide +kernel⟩

theorem wit_UnitResetsRun_3 : ∃ (s : State) (src : Source) (u : Nat), 
    (s.serves src R.UNIT_RESET true = true) ∧
    (u < 65536) ∧
    (s.chip.resetReason u 2 true = 0) := ⟨st fun c => { c with rst := { held := [U.sliceBlk 0 0x48] } }, .pf, U.sliceBlk 0 0x48,
      by decide +kernel⟩

theorem wit_UnitResetsRun_4 : ∃ (s : State) (src : Source) (u r : Nat), 
    (s.serves src R.UNIT_RESET true = true) ∧
    (u < 65536) ∧
    (s.chip.resetReason u 0 true = r) ∧
    (r ≠ 0) := ⟨st id, .pf, 0xD040, 4, by decide +kernel⟩

theorem wit_UnitResetsRun_5 : ∃ (s : State) (src : Source) (u r : Nat), 
    (s.serves src R.UNIT_RESET true = true) ∧
    (u < 65536) ∧
    (s.chip.resetReason u 1 true = r) ∧
    (r ≠ 0) := ⟨st fun c => { c with rst := { held := [U.slice 0] } }, .pf, U.sliceBlk 0 0x48, 5, by decide +kernel⟩

theorem wit_UnitResetsRun_6 : ∃ (s : State) (src : Source) (u r : Nat), 
    (s.serves src R.UNIT_RESET true = true) ∧
    (u < 65536) ∧
    (s.chip.resetReason u 2 true = r) ∧
    (r ≠ 0) := ⟨st id, .pf, U.sliceBlk 0 0x48, 7, by decide +kernel⟩

theorem wit_UnitResetsRun_7 : ∃ (s : State) (u : Nat), 
    (s.runs .core = true) ∧
    (RunReset.mk u 1 ∈ s.chip.rst.running) := ⟨st fun c =>
      { c with rst := { running := [⟨U.sliceBlk 0 0x48, 1⟩], last := some ⟨U.sliceBlk 0 0x48, 1⟩ } }, U.sliceBlk 0 0x48, by decide +kernel⟩

theorem wit_UnitResetsRun_8 : ∃ (s : State) (u : Nat), 
    (s.runs .core = true) ∧
    (RunReset.mk u 1 ∉ s.chip.rst.running) := ⟨st id, U.sliceBlk 0 0x48, by decide +kernel⟩

theorem wit_UnitResetsRun_9 : ∃ (s : State) (u k : Nat), 
    (s.runs .core = true) ∧
    (s.chip.rst.running.find? (fun r => r.unit == u && r.kind != 1) = some ⟨u, k⟩) :=
      ⟨st fun c => { c with rst := { running := [⟨U.sliceBlk 0 0x48, 0⟩], last := some ⟨U.sliceBlk 0 0x48, 0⟩ } }, U.sliceBlk 0 0x48, 0,
      by decide +kernel⟩

theorem wit_UnitResetsRun_10 : ∃ (s : State) (u : Nat), 
    (s.runs .core = true) ∧
    (∀ r ∈ s.chip.rst.running, r.unit = u → r.kind = 1) := ⟨st id, U.sliceBlk 0 0x48, by decide +kernel⟩

theorem wit_UnitResetsRun_11 : ∃ (s : State) (u : Nat) (l : List Nat), 
    (s.runs .core = true) ∧
    (s.chip.ledger.blocks = u :: l) ∧
    (s.chip.resetReason (s.chip.suiteUnit u) 0 false = 0) := ⟨st fun c =>
      { c with ledger := { c.ledger with blocks := [U.sliceBlk 0 0x48] } }, U.sliceBlk 0 0x48, [], by decide +kernel⟩

theorem wit_ChipResetsAndPower_1 : ∃ (s : State), 
    (s.chip.power.vddAon = false) := ⟨{ State.reset with chip := { power := { vddAon := false } } }, by decide +kernel⟩

theorem wit_ChipResetsAndPower_3 : ∃ (s : State), 
    (s.chip.power.vddAon = true) ∧
    (s.chip.power.sysRstHigh = true) := ⟨st id, by decide +kernel⟩

theorem wit_ChipResetsAndPower_4 : ∃ (s : State) (src : Source), 
    (s.serves src R.CHIP_RESET true = true) := ⟨st id, .pf, by decide +kernel⟩

theorem wit_ChipResetsAndPower_5 : ∃ (s : State) (src : Source) (key : Nat), 
    (s.serves src R.CHIP_RESET true = true) ∧
    (key ≠ 0x5AFE) := ⟨st id, .pf, 7, by decide +kernel⟩

theorem wit_ChipResetsAndPower_6 : ∃ (s : State), 
    (s.runs .aon = true) ∧
    (s.chip.ledger.chipDue = true) ∧
    (s.chip.ledger.jrnQueue = [] ∨ s.chip.get 0 R.SAG_STATUS_stopped = 1) :=
      ⟨st fun c => { c with ledger := { c.ledger with chipDue := true } }, by decide +kernel⟩

theorem wit_ChipResetsAndPower_7 : ∃ (s : State), 
    (s.runs .aon = true) ∧
    (s.chip.ledger.chipDue = false ∨ (s.chip.ledger.jrnQueue ≠ [] ∧ s.chip.get 0 R.SAG_STATUS_stopped = 0)) := ⟨st id, by decide +kernel⟩

theorem wit_ChipResetsAndPower_8 : ∃ (s : State), 
    (s.chip.power.vddAon = true) := ⟨st fun c => { c with power := { c.power with sysRstHigh := false } }, by decide +kernel⟩

theorem wit_ChipResetsAndPower_9 : ∃ (s : State), 
    (s.runs .aon = true) ∧
    (s.chip.power.sysRstHigh = true) ∧
    (s.chip.power.released = false) ∧
    (s.chip.power.halted = false)
      := ⟨{ st (fun c => { c with power := { c.power with released := false } }) with nv := { remaps := [(0x9048, 5, 1)] } },
      by decide +kernel⟩

theorem wit_ChipResetsAndPower_10 : ∃ (s : State), 
    (s.runs .aon = true) ∧
    (s.chip.power.released = true) ∧
    (s.chip.power.sysPll = false) ∧
    (s.chip.power.halted = false) ∧
    (s.fuses.debug < 4) := ⟨st fun c => { c with power := { c.power with sysPll := false } }, by decide +kernel⟩

theorem wit_StartUpAdvances_1 : ∃ (s : State), 
    (s.runs .core = true) ∧
    (s.chip.stack0Due = true) := ⟨st fun c => c.put 0 R.BOOT_STATUS_stage 1, by decide +kernel⟩

theorem wit_StartUpAdvances_2 : ∃ (s : State) (slot : Nat) (i : Image) (sigs : ImageSigs), 
    (s.runs .core = true) ∧
    (s.chip.room.trying = some slot) ∧
    (s.chip.room.halted = false) ∧
    (slot < 3) ∧
    (slot = 2 → Img.length i ≤ s.chip.room.hostBytes ∧ i.header = s.chip.room.hostImage.take 256) ∧
    (sigs.image = true ∧ Img.keyIndex i < 4 ∧ bit s.fuses.vendorRevoked (Img.keyIndex i) = false) ∧
    (s.fuses.rollback ≤ Img.version i / 2 ^ 24 % 256) ∧
    ((i.sections.all fun x => !(x.type == 6 && !(encrypted x)) && !(x.type == 7 && encrypted x)) = true) ∧
    ((i.sections.zipIdx.all fun x => !(encrypted x.1 && sigs.tags.contains x.2) && !(x.1.type == 0xA && sigs.patches.contains x.2)) =
      true) := ⟨st fun c => { c with room := { c.room with trying := some 1 } }, 1,
      { Witness.img with sections := Witness.img.sections.map fun x => if x.type = 6 then { x with flags := 1 } else x }, ⟨true, [], []⟩,
      by decide +kernel⟩

theorem wit_StartUpAdvances_3 : ∃ (s : State) (slot : Nat) (sigs : ImageSigs), 
    (s.runs .core = true) ∧
    (s.chip.room.trying = some slot) ∧
    (s.chip.room.halted = false) ∧
    (slot < 2 ∧ (1 - slot) ∉ s.chip.room.tried) := ⟨st fun c => { c with room := { c.room with trying := some 0 } }, 0, ⟨true, [], []⟩,
      by decide +kernel⟩

theorem wit_StartUpAdvances_4 : ∃ (s : State) (slot : Nat) (i : Image) (sigs : ImageSigs), 
    (s.runs .core = true) ∧
    (s.chip.room.trying = some slot) ∧
    (s.chip.room.halted = false) ∧
    (slot < 2 ∧ (1 - slot) ∉ s.chip.room.tried) ∧
    (sigs.image = false ∨ 4 ≤ Img.keyIndex i ∨ bit s.fuses.vendorRevoked (Img.keyIndex i) = true) :=
      ⟨st fun c => { c with room := { c.room with trying := some 1 } }, 1, Witness.img, ⟨false, [], []⟩, by decide +kernel⟩

theorem wit_StartUpAdvances_5 : ∃ (s : State) (slot : Nat) (i : Image) (sigs : ImageSigs), 
    (s.runs .core = true) ∧
    (s.chip.room.trying = some slot) ∧
    (s.chip.room.halted = false) ∧
    (slot < 2 ∧ (1 - slot) ∉ s.chip.room.tried) ∧
    (sigs.image = true ∧ Img.keyIndex i < 4 ∧ bit s.fuses.vendorRevoked (Img.keyIndex i) = false) ∧
    (Img.version i / 2 ^ 24 % 256 < s.fuses.rollback)
      := ⟨{ st (fun c => { c with room := { c.room with trying := some 0 } }) with fuses := { State.reset.fuses with rollback := 200 } }, 0,
      Witness.img, ⟨true, [], []⟩, by decide +kernel⟩

theorem wit_StartUpAdvances_6 : ∃ (s : State) (slot : Nat) (i : Image) (sigs : ImageSigs), 
    (s.runs .core = true) ∧
    (s.chip.room.trying = some slot) ∧
    (s.chip.room.halted = false) ∧
    (slot < 2 ∧ (1 - slot) ∉ s.chip.room.tried) ∧
    (sigs.image = true ∧ Img.keyIndex i < 4 ∧ bit s.fuses.vendorRevoked (Img.keyIndex i) = false) ∧
    (s.fuses.rollback ≤ Img.version i / 2 ^ 24 % 256) ∧
    ((i.sections.all fun x => !(x.type == 6 && !(encrypted x)) && !(x.type == 7 && encrypted x)) = false) :=
      ⟨st fun c => { c with room := { c.room with trying := some 0 } }, 0, Witness.img, ⟨true, [], []⟩, by decide +kernel⟩

theorem wit_StartUpAdvances_7 : ∃ (s : State) (slot : Nat) (sigs : ImageSigs), 
    (s.runs .core = true) ∧
    (s.chip.room.trying = some slot) ∧
    (s.chip.room.halted = false) ∧
    (slot < 2 ∧ (1 - slot) ∈ s.chip.room.tried) := ⟨st fun c => { c with room := { c.room with trying := some 0, tried := [1] } }, 0, ⟨true,
      [], []⟩, by decide +kernel⟩

theorem wit_StartUpAdvances_8 : ∃ (s : State) (i : Image) (sigs : ImageSigs), 
    (s.runs .core = true) ∧
    (s.chip.room.trying = some 2) ∧
    (s.chip.room.halted = false) ∧
    (i.header = s.chip.room.hostImage.take 256) ∧
    (s.chip.room.hostBytes < Img.length i) := ⟨st fun c =>
      { c with room := { c.room with trying := some 2, hostBytes := 256, hostImage := Witness.img.header } }, Witness.img, ⟨true, [], []⟩,
      by decide +kernel⟩

theorem wit_StartUpAdvances_9 : ∃ (s : State) (img : Image) (v : Nat), 
    (s.runs .core = true) ∧
    (s.chip.room.verified = some v) ∧
    (s.chip.room.staged = some img) ∧
    (s.chip.room.e0 = false) ∧
    (s.chip.room.halted = false) ∧
    ((((s.chip.setRoom { s.chip.room with e0 := true, verified := none, staged := none }).setStage 6).quiet.buildImage s.nv img).2 =
      none) := ⟨{ State.reset with chip := { power := Witness.chip.power, room := { verified := some 0, staged := some Witness.img } } },
      Witness.img, 0, by decide +kernel, by decide +kernel, rfl, by decide +kernel, by decide +kernel, by decide +kernel⟩

theorem wit_StartUpAdvances_10 : ∃ (s : State) (img : Image) (v : Nat) (r : Refused), 
    (s.runs .core = true) ∧
    (s.chip.room.verified = some v) ∧
    (s.chip.room.staged = some img) ∧
    (s.chip.room.e0 = false) ∧
    (s.chip.room.halted = false) ∧
    ((((s.chip.setRoom { s.chip.room with e0 := true, verified := none, staged := none }).setStage 6).quiet.buildImage s.nv img).2 =
      some r) ∧
    (r.1 < 256 ∧ r.2 < 256)
      := ⟨{ State.reset with chip := { power := Witness.chip.power, room := { verified := some 0, staged := some { Witness.img with sections := Witness.img.sections.take 4 } } } },
      { Witness.img with sections := Witness.img.sections.take 4 }, 0, (18, 0xFF), by decide +kernel, by decide +kernel, rfl,
      by decide +kernel, by decide +kernel, by decide +kernel, by decide +kernel⟩

theorem wit_StartUpAdvances_11 : ∃ (s : State) (img : Image), 
    (s.runs .core = true) ∧
    (s.chip.room.staged ≠ some img ∨ s.chip.room.verified = none ∨ s.chip.room.e0 = true ∨
      s.chip.room.halted = true) := ⟨st id, { header := [], sections := [], paddingZero := true, accord := [], customerOk := false },
      by decide +kernel⟩

theorem wit_StartUpAdvances_12 : ∃ (s : State) (img : Image), 
    (s.runs .core = true) ∧
    (s.chip.image.held = some img) ∧
    (s.chip.image.applied = false) ∧
    ((s.chip.quiet.buildImage s.nv img).2 = none)
      := ⟨{ State.reset with chip := { power := Witness.chip.power, image := { held := some Witness.img } } }, Witness.img,
      by decide +kernel, rfl, by decide +kernel⟩

theorem wit_StartUpAdvances_13 : ∃ (s : State) (m : Nat), 
    (s.runs .core = true) ∧
    (s.chip.hbmUp m = true) ∧
    (s.chip.hbmState m = 1) ∧
    (s.chip.trainingOn m = false) := ⟨st fun c => c.setHbmState 0 1, 0, by decide +kernel⟩

theorem wit_StartUpAdvances_14 : ∃ (s : State), 
    (s.runs .core = true) ∧
    (s.chip.stack0Due = true) ∧
    (s.chip.hbmState 0 = 0) ∧
    (s.nv.retired = []) := ⟨st fun c => c.put 0 R.BOOT_STATUS_stage 1, by decide +kernel⟩

theorem wit_StartUpAdvances_15 : ∃ (s : State) (m pc : Nat), 
    (s.runs .core = true) ∧
    (m < 2) ∧
    (s.chip.hbmUp m = true) ∧
    (s.chip.hbmState m = 1) ∧
    (s.chip.trainingOn m = false) ∧
    (pc < 32) ∧
    (s.chip.hbmRetired m pc = false) := ⟨st fun c => c.setHbmState 0 1, 0, 4, by decide +kernel⟩

theorem wit_StartUpAdvances_16 : ∃ (s : State), 
    (s.runs .core = true) ∧
    (s.chip.get 0 R.CC_STATUS_fw_state = 1) ∧
    (s.chip.room.halted = false) ∧
    (s.chip.image.applied = false) ∧
    (s.chip.fwSlot s.nv < 4) := ⟨st fun c => { c.put 0 R.CC_STATUS_fw_state 1 with image := {} }, by decide +kernel⟩

theorem wit_StartUpAdvances_17 : ∃ (s : State), 
    (s.runs .core = true) ∧
    (s.chip.get 0 R.CC_STATUS_fw_state = 1) ∧
    (s.chip.room.halted = false) ∧
    (s.chip.image.applied = true) ∧
    (s.chip.coreRuns 0 = false) ∧
    (s.chip.fwSlot s.nv < 4) := ⟨st fun c => c.put 0 R.CC_STATUS_fw_state 1, by decide +kernel⟩

theorem wit_StartUpAdvances_18 : ∃ (s : State), 
    (s.runs .core = true) ∧
    (s.chip.get 0 R.CC_STATUS_fw_state = 1) ∧
    (s.chip.room.halted = false) ∧
    (s.chip.room.fwTried = []) := ⟨st fun c => c.put 0 R.CC_STATUS_fw_state 1, by decide +kernel⟩

theorem wit_StartUpAdvances_19 : ∃ (s : State) (x : Nat) (l : List Nat), 
    (s.runs .core = true) ∧
    (s.chip.get 0 R.CC_STATUS_fw_state = 1) ∧
    (s.chip.room.halted = false) ∧
    (s.chip.room.fwTried = x :: l) := ⟨st fun c => { c.put 0 R.CC_STATUS_fw_state 1 with room := { c.room with fwTried := [0] } }, 0, [],
      by decide +kernel⟩

theorem wit_StrongroomHalts_1 : ∃ (s : State), 
    (s.runs .aon = true) ∧
    (s.chip.power.released = true) ∧
    (s.chip.room.halted = false) := ⟨st id, by decide +kernel⟩

theorem wit_StrongroomHalts_2 : ∃ (s : State), 
    (s.runs .aon = true) ∧
    (s.chip.power.released = true) ∧
    (s.chip.room.halted = false) := ⟨st fun c => { c with room := { c.room with e0 := true } }, by decide +kernel⟩

theorem wit_StrongroomHalts_3 : ∃ (s : State), 
    (s.runs .aon = true) ∧
    (s.chip.power.released = true) ∧
    (s.chip.room.halted = false) ∧
    (s.chip.room.trngBad = false) := ⟨st id, by decide +kernel⟩

theorem wit_StrongroomHalts_4 : ∃ (s : State), 
    (s.runs .aon = true) := ⟨st fun c => { c with room := { c.room with trngBad := true } }, by decide +kernel⟩

theorem wit_StrongroomHalts_5 : ∃ (s : State), 
    (s.runs .aon = true) ∧
    (s.chip.power.released = false ∨ s.chip.room.halted = true) := ⟨st fun c => { c with room := { c.room with halted := true } },
      by decide +kernel⟩

theorem wit_StrongroomHalts_6 : ∃ (s : State), 
    (s.runs .aon = true) ∧
    (s.chip.power.released = false ∨ s.chip.room.halted = true) := ⟨st fun c => { c with room := { c.room with halted := true } },
      by decide +kernel⟩

theorem wit_StrongroomHalts_7 : ∃ (s : State), 
    (s.runs .aon = true) ∧
    (s.chip.power.released = false ∨ s.chip.room.halted = true ∨
      s.chip.room.trngBad = true) := ⟨st fun c => { c with room := { c.room with halted := true } }, by decide +kernel⟩

theorem wit_MailboxCommandsArePosted_1 : ∃ (s : State) (ch len seq : Nat), 
    (s.runs .core = true) ∧
    (ch < 2 ∧ s.chip.get (A.mbox ch) R.MBX_STATUS_busy = 0 ∧ len < 4096 ∧ seq < 256) := ⟨st id, 0, 0, 7, by decide +kernel⟩

theorem wit_MailboxCommandsArePosted_2 : ∃ (s : State) (ch len seq : Nat), 
    (s.runs .core = true) ∧
    (ch < 2 ∧ s.chip.get (A.mbox ch) R.MBX_STATUS_busy = 0 ∧ len < 4096 ∧ seq < 256) := ⟨st id, 0, 2, 7, by decide +kernel⟩

theorem wit_MailboxCommandsArePosted_3 : ∃ (s : State) (ch len seq : Nat), 
    (s.runs .core = true) ∧
    (ch < 2 ∧ s.chip.get (A.mbox ch) R.MBX_STATUS_busy = 0 ∧ len < 4096 ∧ seq < 256) := ⟨st id, 0, 0, 7, by decide +kernel⟩

theorem wit_MailboxCommandsArePosted_4 : ∃ (s : State) (ch len seq : Nat) (v : TokenCheck) (n : Nat), 
    (s.runs .core = true) ∧
    (ch < 2 ∧ s.chip.get (A.mbox ch) R.MBX_STATUS_busy = 0 ∧ len < 4096 ∧
      seq < 256) := ⟨st id, 0, 226, 7, { ok := true, vendor := true, slot := 0 }, 3, by decide +kernel⟩

theorem wit_MailboxCommandsArePosted_5 : ∃ (s : State) (ch len seq : Nat) (v : TokenCheck) (n : Nat), 
    (s.runs .core = true) ∧
    (ch < 2 ∧ s.chip.get (A.mbox ch) R.MBX_STATUS_busy = 0 ∧ len < 4096 ∧
      seq < 256) := ⟨st id, 0, 226, 7, { ok := true, vendor := true, slot := 0 }, 3, by decide +kernel⟩

theorem wit_MailboxCommandsArePosted_6 : ∃ (s : State) (ch len seq : Nat) (n : Nat), 
    (s.runs .core = true) ∧
    (ch < 2 ∧ s.chip.get (A.mbox ch) R.MBX_STATUS_busy = 0 ∧ len < 4096 ∧ seq < 256) := ⟨st id, 0, 0, 7, 3, by decide +kernel⟩

theorem wit_MailboxCommandsArePosted_7 : ∃ (s : State) (ch len seq : Nat), 
    (s.runs .core = true) ∧
    (ch < 2 ∧ s.chip.get (A.mbox ch) R.MBX_STATUS_busy = 0 ∧ len < 4096 ∧ seq < 256) := ⟨st id, 0, 1, 7, by decide +kernel⟩

theorem wit_MailboxCommandsArePosted_8 : ∃ (s : State) (ch len seq : Nat) (v : TokenCheck), 
    (s.runs .core = true) ∧
    (ch < 2 ∧ s.chip.get (A.mbox ch) R.MBX_STATUS_busy = 0 ∧ len < 4096 ∧
      seq < 256) := ⟨st id, 0, 226, 7, { ok := true, vendor := true, slot := 0 }, by decide +kernel⟩

theorem wit_MailboxCommandsArePosted_9 : ∃ (s : State) (ch len seq : Nat), 
    (s.runs .core = true) ∧
    (ch < 2 ∧ s.chip.get (A.mbox ch) R.MBX_STATUS_busy = 0 ∧ len < 4096 ∧ seq < 256) := ⟨st id, 0, 1, 7, by decide +kernel⟩

theorem wit_MailboxCommandsArePosted_10 : ∃ (s : State) (ch len seq : Nat), 
    (s.runs .core = true) ∧
    (ch < 2 ∧ s.chip.get (A.mbox ch) R.MBX_STATUS_busy = 0 ∧ len < 4096 ∧ seq < 256) := ⟨st id, 0, 5, 7, by decide +kernel⟩

theorem wit_MailboxCommandsArePosted_11 : ∃ (s : State) (ch len seq : Nat) (b : Bool), 
    (s.runs .core = true) ∧
    (ch < 2 ∧ s.chip.get (A.mbox ch) R.MBX_STATUS_busy = 0 ∧ len < 4096 ∧ seq < 256) := ⟨st id, 0, 0, 7, true, by decide +kernel⟩

theorem wit_MailboxCommandsArePosted_12 : ∃ (s : State) (ch len seq : Nat), 
    (s.runs .core = true) ∧
    (ch < 2 ∧ s.chip.get (A.mbox ch) R.MBX_STATUS_busy = 0 ∧ len < 4096 ∧ seq < 256) := ⟨st id, 0, 48, 7, by decide +kernel⟩

theorem wit_MailboxCommandsArePosted_13 : ∃ (s : State) (ch len seq n : Nat) (v : TokenCheck) (b : Bool), 
    (s.runs .core = true) ∧
    (2 ≤ ch ∨ s.chip.get (A.mbox ch) R.MBX_STATUS_busy = 1) := ⟨st id, 2, 0, 7, 3, { ok := true, vendor := true, slot := 0 }, true,
      by decide +kernel⟩

theorem wit_MailboxCommandsAnswer_1 : ∃ (s : State) (ch : Nat) (m : MailCmd), 
    (s.runs .core = true) ∧
    (ch < 2 ∧ s.chip.room.order.head? = some ch ∧ m.seq < 256) ∧
    (s.chip.room.cmds.look ch = some m) ∧
    (s.chip.room.halted = false ∧ m.excluded = false) ∧
    (m.op = 1 ∧ m.len = 0) := ⟨st fun c =>
      { c with room := { e0 := true, order := [0], cmds := [(0, some { op := 1, seq := 9, len := 0, req := [], verdict := none, blown := 0, pass := true, excluded := false })] } },
      0, { op := 1, seq := 9, len := 0, req := [], verdict := none, blown := 0, pass := true, excluded := false }, by decide +kernel⟩

theorem wit_MailboxCommandsAnswer_2 : ∃ (s : State) (ch : Nat) (m : MailCmd), 
    (s.runs .core = true) ∧
    (ch < 2 ∧ s.chip.room.order.head? = some ch ∧ m.seq < 256) ∧
    (s.chip.room.cmds.look ch = some m) ∧
    (s.chip.room.halted = false ∧ m.excluded = false ∧ s.chip.room.trngBad = false) ∧
    (m.op = 2 ∧ m.len = 2 ∧ fieldAt m.req 0 2 ≠ 0 ∧ fieldAt m.req 0 2 ≤ 1024) :=
      ⟨st fun c => { c with room := { e0 := true, order := [0], cmds := [(0, some { op := 2, seq := 9, len := 2, req := [4, 0], verdict := none, blown := 0, pass := true, excluded := false })] } },
      0, { op := 2, seq := 9, len := 2, req := [4, 0], verdict := none, blown := 0, pass := true, excluded := false }, by decide +kernel⟩

theorem wit_MailboxCommandsAnswer_3 : ∃ (s : State) (ch : Nat) (m : MailCmd), 
    (s.runs .core = true) ∧
    (ch < 2 ∧ s.chip.room.order.head? = some ch ∧ m.seq < 256) ∧
    (s.chip.room.cmds.look ch = some m) ∧
    (s.chip.room.halted = false ∧ m.excluded = false ∧ s.chip.room.trngBad = true) ∧
    (m.op = 2 ∧ m.len = 2 ∧ fieldAt m.req 0 2 ≠ 0 ∧ fieldAt m.req 0 2 ≤ 1024) :=
      ⟨st fun c => { c with room := { e0 := true, trngBad := true, order := [0], cmds := [(0, some { op := 2, seq := 9, len := 2, req := [4, 0], verdict := none, blown := 0, pass := true, excluded := false })] } },
      0, { op := 2, seq := 9, len := 2, req := [4, 0], verdict := none, blown := 0, pass := true, excluded := false }, by decide +kernel⟩

theorem wit_MailboxCommandsAnswer_4 : ∃ (s : State) (ch : Nat) (m : MailCmd), 
    (s.runs .core = true) ∧
    (ch < 2 ∧ s.chip.room.order.head? = some ch ∧ m.seq < 256) ∧
    (s.chip.room.cmds.look ch = some m) ∧
    (s.chip.room.halted = false ∧ s.chip.room.e0 = true ∧ m.excluded = false) ∧
    (m.op = 3 ∧ m.len = 0) := ⟨st fun c =>
      { c with room := { e0 := true, order := [0], cmds := [(0, some { op := 3, seq := 9, len := 0, req := [], verdict := none, blown := 0, pass := true, excluded := false })] } },
      0, { op := 3, seq := 9, len := 0, req := [], verdict := none, blown := 0, pass := true, excluded := false }, by decide +kernel⟩

theorem wit_MailboxCommandsAnswer_5 : ∃ (s : State) (ch : Nat) (m : MailCmd), 
    (s.runs .core = true) ∧
    (ch < 2 ∧ s.chip.room.order.head? = some ch ∧ m.seq < 256) ∧
    (s.chip.room.cmds.look ch = some m) ∧
    (s.chip.room.halted = false ∧ s.chip.room.e0 = true ∧ m.excluded = false) ∧
    (s.fuses.debug ≠ 0 ∧ s.chip.room.debugOpen ≠ 2) ∧
    (m.op = 4 ∧ m.len = 226) ∧
    (m.arg < 4 ∧ bit s.fuses.enrolled m.arg = false ∧ bit s.fuses.partly m.arg = false ∧ tokenOk s.fuses m.verdict = true) ∧
    (onesOf 384 (enrolHash m) < m.blown) := ⟨st fun c =>
      { c with room := { e0 := true, order := [0], cmds := [(0, some { op := 4, seq := 9, len := 226, req := [], verdict := some { ok := true, vendor := true, slot := 0 }, blown := 400, pass := true, excluded := false })] } },
      0, { op := 4, seq := 9, len := 226, req := [], verdict := some { ok := true, vendor := true, slot := 0 }, blown := 400, pass := true, excluded := false },
      by decide +kernel, by decide +kernel, by decide +kernel, by decide +kernel, by decide +kernel, by decide +kernel, by decide +kernel,
      Nat.lt_of_le_of_lt (List.length_filter_le _ _) (by decide +kernel)⟩

theorem wit_MailboxCommandsAnswer_6 : ∃ (s : State) (ch : Nat) (m : MailCmd), 
    (s.runs .core = true) ∧
    (ch < 2 ∧ s.chip.room.order.head? = some ch ∧ m.seq < 256) ∧
    (s.chip.room.cmds.look ch = some m) ∧
    (s.chip.room.halted = false ∧ s.chip.room.e0 = true ∧ m.excluded = false) ∧
    (s.fuses.debug ≠ 0 ∧ s.chip.room.debugOpen ≠ 2) ∧
    (m.op = 4 ∧ m.len = 226) ∧
    (m.arg < 4 ∧ bit s.fuses.enrolled m.arg = false ∧ bit s.fuses.partly m.arg = false ∧ tokenOk s.fuses m.verdict = true) ∧
    (m.blown = 0) := ⟨st fun c =>
      { c with room := { e0 := true, order := [0], cmds := [(0, some { op := 4, seq := 9, len := 226, req := [], verdict := some { ok := true, vendor := true, slot := 0 }, blown := 0, pass := true, excluded := false })] } },
      0, { op := 4, seq := 9, len := 226, req := [], verdict := some { ok := true, vendor := true, slot := 0 }, blown := 0, pass := true, excluded := false },
      by decide +kernel⟩

theorem wit_MailboxCommandsAnswer_7 : ∃ (s : State) (ch : Nat) (m : MailCmd), 
    (s.runs .core = true) ∧
    (ch < 2 ∧ s.chip.room.order.head? = some ch ∧ m.seq < 256) ∧
    (s.chip.room.cmds.look ch = some m) ∧
    (s.chip.room.halted = false ∧ s.chip.room.e0 = true ∧ m.excluded = false) ∧
    (s.fuses.debug ≠ 0 ∧ s.chip.room.debugOpen ≠ 2) ∧
    (m.op = 5 ∧ m.len = 226) ∧
    (m.arg < 4 ∧ bit s.fuses.enrolled m.arg = true ∧ bit s.fuses.customerRevoked m.arg = false ∧ tokenOk s.fuses m.verdict = true) ∧
    (0 < m.blown) := ⟨(fun x : State => { x with fuses := { x.fuses with enrolled := 1 } }) (st fun c =>
      { c with room := { e0 := true, order := [0], cmds := [(0, some { op := 5, seq := 9, len := 226, req := [], verdict := some { ok := true, vendor := true, slot := 0 }, blown := 1, pass := true, excluded := false })] } }),
      0, { op := 5, seq := 9, len := 226, req := [], verdict := some { ok := true, vendor := true, slot := 0 }, blown := 1, pass := true, excluded := false },
      by decide +kernel⟩

theorem wit_MailboxCommandsAnswer_8 : ∃ (s : State) (ch : Nat) (m : MailCmd), 
    (s.runs .core = true) ∧
    (ch < 2 ∧ s.chip.room.order.head? = some ch ∧ m.seq < 256) ∧
    (s.chip.room.cmds.look ch = some m) ∧
    (s.chip.room.halted = false ∧ s.chip.room.e0 = true ∧ m.excluded = false) ∧
    (s.fuses.debug ≠ 0 ∧ s.chip.room.debugOpen ≠ 2) ∧
    (m.op = 6 ∧ m.len = 0) ∧
    (s.chip.image.version / 2 ^ 24 % 256 - s.fuses.rollback ≤ m.blown) :=
      ⟨st fun c => { c with image := { c.image with version := 0x5000000 }, room := { e0 := true, order := [0], cmds := [(0, some { op := 6, seq := 9, len := 0, req := [], verdict := none, blown := 5, pass := true, excluded := false })] } },
      0, { op := 6, seq := 9, len := 0, req := [], verdict := none, blown := 5, pass := true, excluded := false }, by decide +kernel⟩

theorem wit_MailboxCommandsAnswer_9 : ∃ (s : State) (ch : Nat) (m : MailCmd), 
    (s.runs .core = true) ∧
    (ch < 2 ∧ s.chip.room.order.head? = some ch ∧ m.seq < 256) ∧
    (s.chip.room.cmds.look ch = some m) ∧
    (s.chip.room.halted = false ∧ s.chip.room.e0 = true ∧ m.excluded = false) ∧
    (s.fuses.debug ≠ 3 ∧ s.chip.room.trngBad = false) ∧
    (m.op = 7 ∧ m.len = 1 ∧ (m.arg = 1 ∨ m.arg = 2)) := ⟨st fun c =>
      { c with room := { e0 := true, order := [0], cmds := [(0, some { op := 7, seq := 9, len := 1, req := [1], verdict := none, blown := 0, pass := true, excluded := false })] } },
      0, { op := 7, seq := 9, len := 1, req := [1], verdict := none, blown := 0, pass := true, excluded := false }, by decide +kernel⟩

theorem wit_MailboxCommandsAnswer_10 : ∃ (s : State) (ch : Nat) (m : MailCmd), 
    (s.runs .core = true) ∧
    (ch < 2 ∧ s.chip.room.order.head? = some ch ∧ m.seq < 256) ∧
    (s.chip.room.cmds.look ch = some m) ∧
    (s.chip.room.halted = false ∧ s.chip.room.e0 = true ∧ m.excluded = false) ∧
    (s.fuses.debug ≠ 3) ∧
    (m.op = 8 ∧ m.len = 226 ∧ (m.arg = 1 ∨ (m.arg = 2 ∧ byVendor m.verdict = true)) ∧ tokenOk s.fuses m.verdict = true) ∧
    ((s.chip.room.nonce.any fun n => n.1 == m.arg) = true) :=
      ⟨st fun c => { c with room := { e0 := true, nonce := some (1, []), order := [0], cmds := [(0, some { op := 8, seq := 9, len := 226, req := [1], verdict := some { ok := true, vendor := true, slot := 0 }, blown := 0, pass := true, excluded := false })] } },
      0, { op := 8, seq := 9, len := 226, req := [1], verdict := some { ok := true, vendor := true, slot := 0 }, blown := 0, pass := true, excluded := false },
      by decide +kernel⟩

theorem wit_MailboxCommandsAnswer_11 : ∃ (s : State) (ch : Nat) (m : MailCmd), 
    (s.runs .core = true) ∧
    (ch < 2 ∧ s.chip.room.order.head? = some ch ∧ m.seq < 256) ∧
    (s.chip.room.cmds.look ch = some m) ∧
    (s.chip.room.halted = false ∧ s.chip.room.e0 = true ∧ m.excluded = false) ∧
    (s.fuses.debug ≠ 3) ∧
    (m.op = 8 ∧ m.len = 226 ∧ (m.arg = 1 ∨ m.arg = 2)) ∧
    ((s.chip.room.nonce.any fun n => n.1 == m.arg) = false ∨ tokenOk s.fuses m.verdict = false ∨ (m.arg = 2 ∧
      byVendor m.verdict = false)) := ⟨st fun c =>
      { c with room := { e0 := true, order := [0], cmds := [(0, some { op := 8, seq := 9, len := 226, req := [1], verdict := some { ok := true, vendor := true, slot := 0 }, blown := 0, pass := true, excluded := false })] } },
      0, { op := 8, seq := 9, len := 226, req := [1], verdict := some { ok := true, vendor := true, slot := 0 }, blown := 0, pass := true, excluded := false },
      by decide +kernel⟩

theorem wit_MailboxCommandsAnswer_12 : ∃ (s : State) (ch : Nat) (m : MailCmd), 
    (s.runs .core = true) ∧
    (ch < 2 ∧ s.chip.room.order.head? = some ch ∧ m.seq < 256) ∧
    (s.chip.room.cmds.look ch = some m) ∧
    (s.chip.room.halted = false ∧ s.chip.room.e0 = true ∧ m.excluded = false) ∧
    (m.op = 9 ∧ m.len = 1 ∧ m.arg ≤ 1) := ⟨st fun c =>
      { c with room := { e0 := true, order := [0], cmds := [(0, some { op := 9, seq := 9, len := 1, req := [1], verdict := none, blown := 0, pass := true, excluded := false })] } },
      0, { op := 9, seq := 9, len := 1, req := [1], verdict := none, blown := 0, pass := true, excluded := false }, by decide +kernel⟩

theorem wit_MailboxCommandsAnswer_13 : ∃ (s : State) (ch : Nat) (m : MailCmd), 
    (s.runs .core = true) ∧
    (ch < 2 ∧ s.chip.room.order.head? = some ch ∧ m.seq < 256) ∧
    (s.chip.room.cmds.look ch = some m) ∧
    (s.chip.room.halted = false ∧ m.excluded = false ∧ s.chip.stage = 7) ∧
    (m.op = 10 ∧ 5 ≤ m.len ∧ m.len ≤ 1021 ∧ fieldAt m.req 0 4 = s.chip.room.hostBytes) ∧
    (fieldAt m.req 4 1 = 0) := ⟨st fun c =>
      { c.setStage 7 with room := { e0 := false, order := [0], cmds := [(0, some { op := 10, seq := 9, len := 6, req := [0, 0, 0, 0, 0, 7], verdict := none, blown := 0, pass := true, excluded := false })] } },
      0, { op := 10, seq := 9, len := 6, req := [0, 0, 0, 0, 0, 7], verdict := none, blown := 0, pass := true, excluded := false },
      by decide +kernel⟩

theorem wit_MailboxCommandsAnswer_14 : ∃ (s : State) (ch : Nat) (m : MailCmd), 
    (s.runs .core = true) ∧
    (ch < 2 ∧ s.chip.room.order.head? = some ch ∧ m.seq < 256) ∧
    (s.chip.room.cmds.look ch = some m) ∧
    (s.chip.room.halted = false ∧ m.excluded = false ∧ s.chip.stage = 7) ∧
    (m.op = 10 ∧ 5 ≤ m.len ∧ m.len ≤ 1021 ∧ fieldAt m.req 0 4 = s.chip.room.hostBytes) ∧
    (fieldAt m.req 4 1 ≠ 0) := ⟨st fun c =>
      { c.setStage 7 with room := { e0 := false, order := [0], cmds := [(0, some { op := 10, seq := 9, len := 6, req := [0, 0, 0, 0, 1, 7], verdict := none, blown := 0, pass := true, excluded := false })] } },
      0, { op := 10, seq := 9, len := 6, req := [0, 0, 0, 0, 1, 7], verdict := none, blown := 0, pass := true, excluded := false },
      by decide +kernel⟩

theorem wit_MailboxCommandsAnswer_15 : ∃ (s : State) (ch : Nat) (m : MailCmd), 
    (s.runs .core = true) ∧
    (ch < 2 ∧ s.chip.room.order.head? = some ch ∧ m.seq < 256) ∧
    (s.chip.room.cmds.look ch = some m) ∧
    (s.chip.room.halted = false ∧ m.excluded = false ∧ s.chip.stage = 7) ∧
    (m.op = 10 ∧ 5 ≤ m.len ∧ m.len ≤ 1021 ∧ fieldAt m.req 0 4 ≠ s.chip.room.hostBytes) :=
      ⟨st fun c => { c.setStage 7 with room := { e0 := false, order := [0], cmds := [(0, some { op := 10, seq := 9, len := 6, req := [8, 0, 0, 0, 1, 7], verdict := none, blown := 0, pass := true, excluded := false })] } },
      0, { op := 10, seq := 9, len := 6, req := [8, 0, 0, 0, 1, 7], verdict := none, blown := 0, pass := true, excluded := false },
      by decide +kernel⟩

theorem wit_MailboxCommandsAnswer_16 : ∃ (s : State) (ch : Nat) (m : MailCmd), 
    (s.runs .core = true) ∧
    (ch < 2 ∧ s.chip.room.order.head? = some ch ∧ m.seq < 256) ∧
    (s.chip.room.cmds.look ch = some m) ∧
    (s.chip.room.halted = false ∧ m.excluded = false) ∧
    (m.op = 13 ∧ m.len = 0 ∧ m.pass = true) := ⟨st fun c =>
      { c with room := { e0 := true, order := [0], cmds := [(0, some { op := 13, seq := 9, len := 0, req := [], verdict := none, blown := 0, pass := true, excluded := false })] } },
      0, { op := 13, seq := 9, len := 0, req := [], verdict := none, blown := 0, pass := true, excluded := false }, by decide +kernel⟩

theorem wit_MailboxCommandsAnswer_17 : ∃ (s : State) (ch : Nat) (m : MailCmd), 
    (s.runs .core = true) ∧
    (ch < 2 ∧ s.chip.room.order.head? = some ch ∧ m.seq < 256) ∧
    (s.chip.room.cmds.look ch = some m) ∧
    (s.chip.room.halted = false ∧ m.excluded = false) ∧
    (m.op = 13 ∧ m.len = 0 ∧ m.pass = false) := ⟨st fun c =>
      { c with room := { e0 := true, order := [0], cmds := [(0, some { op := 13, seq := 9, len := 0, req := [], verdict := none, blown := 0, pass := false, excluded := false })] } },
      0, { op := 13, seq := 9, len := 0, req := [], verdict := none, blown := 0, pass := false, excluded := false }, by decide +kernel⟩

theorem wit_MailboxCommandsAnswer_18 : ∃ (s : State) (ch : Nat) (m : MailCmd), 
    (s.runs .core = true) ∧
    (ch < 2 ∧ s.chip.room.order.head? = some ch ∧ m.seq < 256) ∧
    (s.chip.room.cmds.look ch = some m) ∧
    (s.chip.room.halted = false ∧ s.chip.room.e0 = true ∧ m.excluded = false) ∧
    (m.op = 14 ∧ m.len = 48) := ⟨st fun c =>
      { c with room := { e0 := true, order := [0], cmds := [(0, some { op := 14, seq := 9, len := 48, req := [], verdict := none, blown := 0, pass := true, excluded := false })] } },
      0, { op := 14, seq := 9, len := 48, req := [], verdict := none, blown := 0, pass := true, excluded := false }, by decide +kernel⟩

theorem wit_MailboxCommandsAnswer_19 : ∃ (s : State) (ch : Nat) (m : MailCmd), 
    (s.runs .core = true) ∧
    (ch < 2 ∧ s.chip.room.order.head? = some ch ∧ m.seq < 256) ∧
    (s.chip.room.cmds.look ch = some m) ∧
    (s.chip.room.halted = true) := ⟨st fun c =>
      { c with room := { halted := true, order := [0], cmds := [(0, some { op := 6, seq := 9, len := 0, req := [], verdict := none, blown := 5, pass := true, excluded := false })] } },
      0, { op := 6, seq := 9, len := 0, req := [], verdict := none, blown := 5, pass := true, excluded := false }, by decide +kernel⟩

theorem wit_LanesFollowTheirSignals_1 : ∃ (s : State) (src : Source) (q : Nat) (data : Word), 
    (s.serves src (A.lane q + R.LANE_TX_EQ) true = true) ∧
    (q < 128) ∧
    (bits data 29 24 + bits data 21 16 + bits data 13 8 + bits data 5 0 ≤ 63) := ⟨st id, .pf, 5, 0x01020304, by decide +kernel⟩

theorem wit_LanesFollowTheirSignals_2 : ∃ (s : State) (src : Source) (q prbs : Nat), 
    (s.serves src (A.lane q + R.LANE_TEST) true = true) ∧
    (q < 128) ∧
    (prbs < 4) ∧
    ((prbs = 0 ∨ ((s.chip.members (U.lane q)).all fun u => (s.chip.portOfLane (U.index u)).any fun r => !(s.chip.on (A.port r.first)
      R.PORT_CTRL_enable)) = true)) := ⟨st fun c => c.put (A.port 0) R.PORT_CTRL_enable 0, .pf, 0, 2, by decide +kernel⟩

theorem wit_LanesFollowTheirSignals_3 : ∃ (s : State) (q : Nat), 
    (s.runs .core = true) ∧
    (s.chip.laneRuns q = true) := ⟨st id, 0, by decide +kernel⟩

theorem wit_LanesFollowTheirSignals_4 : ∃ (s : State) (q : Nat) (r : PortRec), 
    (s.runs .core = true) ∧
    (s.chip.laneRuns q = true) ∧
    (s.chip.portOfLane q = some r) := ⟨st fun c => c.put (A.lane 0) R.LANE_STATUS_block_lock 1, 0,
      { first := 0, lanes := 1, type := 2, fec := 0, lpi := true }, by decide +kernel⟩

theorem wit_LanesFollowTheirSignals_5 : ∃ (s : State) (q : Nat), 
    (s.runs .core = true) ∧
    (s.chip.laneRuns q = true) ∧
    (s.chip.get (A.lane q) R.LANE_STATUS_signal_detect = 1) := ⟨st fun c => c.put (A.lane 0) R.LANE_STATUS_signal_detect 1, 0,
      by decide +kernel⟩

theorem wit_LanesFollowTheirSignals_6 : ∃ (s : State) (q : Nat) (r : PortRec), 
    (s.runs .core = true) ∧
    (s.chip.laneRuns q = true) ∧
    (s.chip.portOfLane q = some r) ∧
    (r.fec ≠ 0) := ⟨st fun c =>
      { c with image := { c.image with ports := [{ first := 0, lanes := 1, type := 3, fec := 2, lpi := false }] } }, 0,
      { first := 0, lanes := 1, type := 3, fec := 2, lpi := false }, by decide +kernel⟩

theorem wit_LanesFollowTheirSignals_7 : ∃ (s : State) (src : Source) (q : Nat) (data : Word), 
    (s.serves src (A.lane q + R.LANE_TX_EQ) true = true) ∧
    (63 < bits data 29 24 + bits data 21 16 + bits data 13 8 + bits data 5 0) := ⟨st id, .pf, 5, 0x3F000001, by decide +kernel⟩

theorem wit_LanesFollowTheirSignals_8 : ∃ (s : State) (src : Source) (q prbs : Nat), 
    (s.serves src (A.lane q + R.LANE_TEST) true = true) ∧
    (q < 128) ∧
    (prbs % 4 ≠ 0) ∧
    (((s.chip.members (U.lane q)).all fun u => (s.chip.portOfLane (U.index u)).all fun r => s.chip.on (A.port r.first) R.PORT_CTRL_enable) =
      true) := ⟨st fun c => c.put (A.port 0) R.PORT_CTRL_enable 1, .pf, 0, 2, by decide +kernel⟩

theorem wit_LanesFollowTheirSignals_9 : ∃ (s : State) (q : Nat), 
    (s.runs .core = true) ∧
    (s.chip.get (A.lane q) R.LANE_STATUS_signal_detect = 0 ∨ s.chip.laneRuns q = false) := ⟨st id, 0, by decide +kernel⟩

theorem wit_LanesFollowTheirSignals_10 : ∃ (s : State) (q n w e : Nat), 
    (s.runs .core = true) ∧
    (s.chip.laneRuns q = true) ∧
    (s.chip.fecAlarm.look q = false) ∧
    (s.chip.get (A.lane q) R.LANE_FEC_DEGRADE_symbols_per_ms ≠ 0 ∧
      s.chip.get (A.lane q) R.LANE_FEC_DEGRADE_symbols_per_ms < n) := ⟨st fun c => c.put (A.lane 0) R.LANE_FEC_DEGRADE_symbols_per_ms 9, 0,
      10, 3, 7, by decide +kernel⟩

theorem wit_LanesFollowTheirSignals_11 : ∃ (s : State) (q n w e : Nat), 
    (s.runs .core = true) ∧
    (s.chip.laneRuns q = true) ∧
    (s.chip.fecAlarm.look q = true) ∧
    (s.chip.get (A.lane q) R.LANE_FEC_DEGRADE_symbols_per_ms = 0 ∨
      n ≤ s.chip.get (A.lane q) R.LANE_FEC_DEGRADE_symbols_per_ms) :=
      ⟨st fun c => { ((c.put (A.lane 0) R.LANE_TEST_prbs 1).put (A.lane 0) R.LANE_FEC_DEGRADE_symbols_per_ms 9) with fecAlarm := [(0, true)] },
      0, 9, 3, 7, by decide +kernel⟩

theorem wit_LanesFollowTheirSignals_12 : ∃ (s : State) (q n w e : Nat), 
    (s.runs .core = true) ∧
    (s.chip.laneRuns q = true) ∧
    ((s.chip.fecAlarm.look q = true ∧ s.chip.get (A.lane q) R.LANE_FEC_DEGRADE_symbols_per_ms ≠ 0 ∧
      s.chip.get (A.lane q) R.LANE_FEC_DEGRADE_symbols_per_ms < n) ∨ (s.chip.fecAlarm.look q = false ∧
      (s.chip.get (A.lane q) R.LANE_FEC_DEGRADE_symbols_per_ms = 0 ∨
      n ≤ s.chip.get (A.lane q) R.LANE_FEC_DEGRADE_symbols_per_ms))) := ⟨st id, 0, 9, 3, 7, by decide +kernel⟩

theorem wit_LinksGoDownAndUp_1 : ∃ (s : State) (p : Nat) (al lf rf : Bool), 
    (s.runs .core = true) ∧
    (s.chip.portThere p = true) := ⟨st fun c => (c.put (A.lane 0) R.LANE_STATUS_block_lock 1).put (A.lane 0) R.LANE_STATUS_fec_lock 1, 0,
      true, false, true, by decide +kernel⟩

theorem wit_LinksGoDownAndUp_2 : ∃ (s : State) (p : Nat), 
    (s.runs .core = true) ∧
    (s.chip.portThere p = true) ∧
    (s.chip.get (A.port p) R.PORT_STATUS_link_up = 1) ∧
    (s.chip.get (A.port p) R.PORT_CTRL_enable = 0 ∨ ([(s.chip.prt p).unalignedSince, (s.chip.prt p).localSince,
      (s.chip.prt p).remoteSince].any fun x => x.any fun x => decide (x + s.chip.get (A.port p) R.PORT_LINK_TIMING_debounce_us * 1000 ≤
      s.chip.now)) = true) ∧
    (s.chip.get (A.port p) R.PORT_STATUS_in_hold = 0) ∧
    (s.chip.get (A.port p) R.PORT_HOLD_hold_us ≠ 0) := ⟨st fun c => ((c.put (A.port 0) R.PORT_CTRL_enable 0).put (A.port 0)
      R.PORT_STATUS_link_up 1).put (A.port 0) R.PORT_HOLD_hold_us 50, 0, by decide +kernel⟩

theorem wit_LinksGoDownAndUp_3 : ∃ (s : State) (p : Nat), 
    (s.runs .core = true) ∧
    (s.chip.portThere p = true) ∧
    (s.chip.get (A.port p) R.PORT_STATUS_link_up = 1) ∧
    (s.chip.get (A.port p) R.PORT_CTRL_enable = 0 ∨ ([(s.chip.prt p).unalignedSince, (s.chip.prt p).localSince,
      (s.chip.prt p).remoteSince].any fun x => x.any fun x => decide (x + s.chip.get (A.port p) R.PORT_LINK_TIMING_debounce_us * 1000 ≤
      s.chip.now)) = true) ∧
    (s.chip.get (A.port p) R.PORT_STATUS_in_hold = 1) := ⟨st fun c =>
      { ((c.put (A.port 0) R.PORT_CTRL_enable 1).put (A.port 0) R.PORT_STATUS_link_up 1).put (A.port 0) R.PORT_STATUS_in_hold 1 with now := 100000000, ports := [(0, { localSince := some 0, hold := some (5, 7) })] },
      0, by decide +kernel⟩

theorem wit_LinksGoDownAndUp_4 : ∃ (s : State) (p : Nat), 
    (s.runs .core = true) ∧
    (s.chip.portThere p = true) ∧
    (s.chip.get (A.port p) R.PORT_STATUS_link_up = 1) ∧
    (s.chip.get (A.port p) R.PORT_CTRL_enable = 0 ∨ ([(s.chip.prt p).unalignedSince, (s.chip.prt p).localSince,
      (s.chip.prt p).remoteSince].any fun x => x.any fun x => decide (x + s.chip.get (A.port p) R.PORT_LINK_TIMING_debounce_us * 1000 ≤
      s.chip.now)) = true) ∧
    (s.chip.get (A.port p) R.PORT_STATUS_in_hold = 0) ∧
    (s.chip.get (A.port p) R.PORT_HOLD_hold_us = 0) := ⟨st fun c => ((c.put (A.port 0) R.PORT_CTRL_enable 0).put (A.port 0)
      R.PORT_STATUS_link_up 1).put (A.port 0) R.PORT_HOLD_hold_us 0, 0, by decide +kernel⟩

theorem wit_LinksGoDownAndUp_5 : ∃ (s : State) (p : Nat), 
    (s.runs .core = true) ∧
    (s.chip.portThere p = false ∨ s.chip.get (A.port p) R.PORT_STATUS_link_up = 0 ∨ (s.chip.get (A.port p) R.PORT_CTRL_enable = 1 ∧
      ([(s.chip.prt p).unalignedSince, (s.chip.prt p).localSince,
      (s.chip.prt p).remoteSince].all fun x => x.all fun x => decide (s.chip.now < x + s.chip.get (A.port p) R.PORT_LINK_TIMING_debounce_us
      * 1000)) = true)) := ⟨st id, 0, by decide +kernel⟩

theorem wit_LinksGoDownAndUp_6 : ∃ (s : State) (p since : Nat), 
    (s.runs .core = true) ∧
    (s.chip.portThere p = true) ∧
    (s.chip.get (A.port p) R.PORT_STATUS_link_up = 0) ∧
    (s.chip.get (A.port p) R.PORT_CTRL_enable = 1) ∧
    ((s.chip.prt p).goodSince = some since) ∧
    (since + s.chip.get (A.port p) R.PORT_LINK_TIMING_settle_us * 1000 ≤ s.chip.now) ∧
    ((s.chip.prt p).hold = none) := ⟨st fun c =>
      { (c.put (A.port 0) R.PORT_CTRL_enable 1) with now := 100000000000, ports := [(0, { goodSince := some 0 })] }, 0, 0,
      by decide +kernel⟩

theorem wit_LinksGoDownAndUp_7 : ∃ (s : State) (p since at_ us : Nat), 
    (s.runs .core = true) ∧
    (s.chip.portThere p = true) ∧
    (s.chip.get (A.port p) R.PORT_STATUS_link_up = 0) ∧
    (s.chip.get (A.port p) R.PORT_CTRL_enable = 1) ∧
    ((s.chip.prt p).goodSince = some since) ∧
    (since + s.chip.get (A.port p) R.PORT_LINK_TIMING_settle_us * 1000 ≤ s.chip.now) ∧
    ((s.chip.prt p).hold = some (at_, us)) ∧
    (s.chip.now ≤ at_ + us * 1000 ∨ since + s.chip.get (A.port p) R.PORT_LINK_TIMING_settle_us * 1000 ≤ at_ + us * 1000) :=
      ⟨st fun c => { (c.put (A.port 0) R.PORT_CTRL_enable 1).put (A.port 0) R.PORT_STATUS_in_hold 1 with now := 100000000000, ports := [(0, { goodSince := some 0, hold := some (0, 100000000) })] },
      0, 0, 0, 100000000, by decide +kernel⟩

theorem wit_LinksGoDownAndUp_8 : ∃ (s : State) (p : Nat), 
    (s.runs .core = true) ∧
    (s.chip.portThere p = false ∨ s.chip.get (A.port p) R.PORT_STATUS_link_up = 1 ∨ s.chip.get (A.port p) R.PORT_CTRL_enable = 0 ∨
      ((s.chip.prt p).goodSince.all fun x => decide (s.chip.now < x + s.chip.get (A.port p) R.PORT_LINK_TIMING_settle_us * 1000)) = true) :=
      ⟨st id, 0, by decide +kernel⟩

theorem wit_LinksGoDownAndUp_9 : ∃ (s : State) (p at_ us : Nat), 
    (s.runs .core = true) ∧
    (s.chip.portThere p = true) ∧
    (s.chip.get (A.port p) R.PORT_STATUS_link_up = 0) ∧
    ((s.chip.prt p).hold = some (at_, us)) ∧
    (at_ + us * 1000 ≤ s.chip.now) ∧
    (s.chip.get (A.port p) R.PORT_CTRL_enable = 0 ∨ ((s.chip.prt p).goodSince.all fun x => decide (at_ + us * 1000 < x + s.chip.get (A.port
      p) R.PORT_LINK_TIMING_settle_us * 1000)) = true) := ⟨st fun c =>
      { (c.put (A.port 0) R.PORT_STATUS_in_hold 1) with ports := [(0, { hold := some (0, 0) })] }, 0, 0, 0, by decide +kernel⟩

theorem wit_LinksGoDownAndUp_10 : ∃ (s : State) (p at_ us since : Nat), 
    (s.runs .core = true) ∧
    ((s.chip.prt p).hold = some (at_, us)) ∧
    (s.chip.now < at_ + us * 1000 ∨ (s.chip.get (A.port p) R.PORT_CTRL_enable = 1 ∧ (s.chip.prt p).goodSince = some since ∧
      since + s.chip.get (A.port p) R.PORT_LINK_TIMING_settle_us * 1000 ≤ at_ + us * 1000)) :=
      ⟨st fun c => { (c.put (A.port 0) R.PORT_STATUS_in_hold 1) with ports := [(0, { hold := some (0, 5) })] }, 0, 0, 5, 0,
      by decide +kernel⟩

theorem wit_FramesArrive_1 : ∃ (s : State) (p : Nat) (head : List Byte), 
    (s.runs .core = true) ∧
    (s.chip.rxOpen p = true ∧ (s.chip.prt p).rx = none) ∧
    (head ≠ [] ∧ head.length ≤ s.chip.maxFrame p) ∧
    (s.chip.inReset (U.port p) = false) ∧
    (s.chip.asleep (p / 16) = false) ∧
    (s.chip.isbOver (p / 16) head.length = false) := ⟨st fun c => (c.put (A.port 0) R.PORT_CTRL_enable 1).put (A.port 0)
      R.PORT_STATUS_rx_aligned 1, 0, [1, 2, 3], by decide +kernel⟩

theorem wit_FramesArrive_2 : ∃ (s : State) (p : Nat) (head : List Byte), 
    (s.runs .core = true) ∧
    (s.chip.rxOpen p = true ∧ (s.chip.prt p).rx = none) ∧
    (head ≠ [] ∧ head.length ≤ s.chip.maxFrame p) ∧
    (s.chip.inReset (U.port p) = false) ∧
    (s.chip.asleep (p / 16) = true) ∧
    ((s.chip.wakeCells (p / 16)).1 + Nat.max 1 (cellsOf head.length) ≤ 256) :=
      ⟨st fun c => { ((c.put (A.port 0) R.PORT_CTRL_enable 1).put (A.port 0) R.PORT_STATUS_rx_aligned 1).put 0 R.SLEEP_STATE_asleep 1 with house := { c.house with sleep := [(0, 2)] } },
      0, [1, 2, 3], by decide +kernel⟩

theorem wit_FramesArrive_3 : ∃ (s : State) (p : Nat) (head : List Byte), 
    (s.runs .core = true) ∧
    (s.chip.rxOpen p = true ∧ (s.chip.prt p).rx = none) ∧
    (head ≠ [] ∧ head.length ≤ s.chip.maxFrame p) ∧
    (s.chip.inReset (U.port p) = false) ∧
    (s.chip.asleep (p / 16) = false) ∧
    (s.chip.isbOver (p / 16) head.length = true) := ⟨st fun c =>
      { ((c.put (A.port 0) R.PORT_CTRL_enable 1).put (A.port 0) R.PORT_STATUS_rx_aligned 1) with frames := (List.range 256).map fun i => (i, some { bytes := List.replicate 1024 0 }) },
      0, [1], by decide +kernel⟩

theorem wit_FramesArrive_4 : ∃ (s : State) (p : Nat) (head : List Byte), 
    (s.runs .core = true) ∧
    (s.chip.rxOpen p = true ∧ (s.chip.prt p).rx = none) ∧
    (head ≠ []) ∧
    (s.chip.inReset (U.port p) = true) := ⟨st fun c =>
      { ((c.put (A.port 0) R.PORT_CTRL_enable 1).put (A.port 0) R.PORT_STATUS_rx_aligned 1) with rst := { c.rst with held := [U.slice 0] } },
      0, [1], by decide +kernel⟩

theorem wit_FramesArrive_5 : ∃ (s : State) (p : Nat) (head : List Byte), 
    (s.runs .core = true) ∧
    (s.chip.rxOpen p = false) := ⟨st id, 0, [1], by decide +kernel⟩

theorem wit_FramesArrive_6 : ∃ (s : State) (p : Nat) (rest : List Byte) (x : Rx) (f : Frame), 
    (s.runs .core = true) ∧
    ((s.chip.prt p).rx = some x) ∧
    (p < 128) ∧
    (x.marked = false) ∧
    (64 ≤ x.len + rest.length ∧ x.len + rest.length ≤ x.maxFrame) ∧
    (([s.chip.portCnt p + C.rx_frames, s.chip.portCnt p + C.rx_bytes, s.chip.portCnt p + C.rx_fcs_err,
      s.chip.portCnt p + C.rx_oversize].all fun a => !((s.chip.tail x.id).drops.map (·.1)).contains a) = true) ∧
    (s.chip.frames.look x.id = some f) ∧
    (f.stage ≠ .wakeStore ∧ f.bad = false) ∧
    (s.chip.isbOver f.slice rest.length = false) := ⟨st fun c =>
      { c with ports := [(0, { rx := some { id := 7, len := 3, maxFrame := 1518 } })], frames := [(7, some { bytes := [1, 2, 3] })] }, 0,
      List.replicate 61 9, { id := 7, len := 3, maxFrame := 1518 }, { bytes := [1, 2, 3] }, by decide +kernel⟩

theorem wit_FramesArrive_7 : ∃ (s : State) (p : Nat) (rest : List Byte) (x : Rx), 
    (s.runs .core = true) ∧
    ((s.chip.prt p).rx = some x) ∧
    (p < 128) ∧
    (64 ≤ x.len + rest.length ∧ x.len + rest.length ≤ x.maxFrame) ∧
    (([s.chip.portCnt p + C.rx_frames, s.chip.portCnt p + C.rx_bytes, s.chip.portCnt p + C.rx_fcs_err,
      s.chip.portCnt p + C.rx_oversize].all fun a => !((s.chip.tail x.id).drops.map (·.1)).contains a) = true) ∧
    (s.chip.frames.look x.id = none) := ⟨st fun c => { c with ports := [(0, { rx := some { id := 7, len := 3, maxFrame := 1518 } })] }, 0,
      List.replicate 61 9, { id := 7, len := 3, maxFrame := 1518 }, by decide +kernel⟩

theorem wit_FramesArrive_8 : ∃ (s : State) (p : Nat) (rest : List Byte) (good : Bool) (x : Rx) (f : Frame), 
    (s.runs .core = true) ∧
    ((s.chip.prt p).rx = some x) ∧
    (p < 128) ∧
    (64 ≤ x.len + rest.length) ∧
    (good = false ∨ x.marked = true ∨ x.maxFrame < x.len + rest.length) ∧
    (([s.chip.portCnt p + C.rx_frames, s.chip.portCnt p + C.rx_bytes, s.chip.portCnt p + C.rx_fcs_err,
      s.chip.portCnt p + C.rx_oversize].all fun a => !((s.chip.tail x.id).drops.map (·.1)).contains a) = true) ∧
    (s.chip.frames.look x.id = some f) ∧
    (f.stage = .waiting ∧ f.started = false) := ⟨st fun c =>
      { c with ports := [(0, { rx := some { id := 7, len := 3, maxFrame := 70, marked := true }, wait := [7] })], frames := [(7, some { bytes := [1, 2, 3] })] },
      0, List.replicate 71 9, true, { id := 7, len := 3, maxFrame := 70, marked := true }, { bytes := [1, 2, 3] }, by decide +kernel⟩

theorem wit_FramesArrive_9 : ∃ (s : State) (p : Nat) (rest : List Byte) (good : Bool) (x : Rx), 
    (s.runs .core = true) ∧
    ((s.chip.prt p).rx = some x) ∧
    (p < 128) ∧
    (x.len + rest.length < 64) := ⟨st fun c =>
      { c with ports := [(0, { rx := some { id := 7, len := 3 }, wait := [7] })], frames := [(7, some { bytes := [1, 2, 3] })] }, 0, [9],
      true, { id := 7, len := 3 }, by decide +kernel⟩

theorem wit_FramesArrive_10 : ∃ (s : State) (p : Nat) (rest : List Byte) (good : Bool), 
    (s.runs .core = true) ∧
    ((s.chip.prt p).rx = none) := ⟨st id, 0, [9], true, by decide +kernel⟩

theorem wit_PauseAndLowPowerIdle_1 : ∃ (s : State) (p k : Nat) (bytes : List Byte), 
    (s.runs .core = true) ∧
    (s.chip.rxOpen p = true ∧ (s.chip.prt p).rx = none) ∧
    (s.chip.inReset (U.port p) = false) ∧
    (be16 bytes 12 = 0x8808) ∧
    (be16 bytes 14 = 0x0101 ∧ s.chip.get (A.port p) R.PORT_FLOW_mode = 2) ∧
    (k < 8 ∧ byteAt bytes 17 / 2 ^ k % 2 = 1 ∧ s.chip.rxEn p k = true) ∧
    (s.chip.inStorm p k = false) ∧
    (be16 bytes (18 + 2 * k) ≠ 0) := ⟨st fun c => ((((c.put (A.port 0) R.PORT_CTRL_enable 1).put (A.port 0) R.PORT_STATUS_rx_aligned 1).put
      (A.port 0) R.PORT_FLOW_mode 2).put (A.port 0) R.PORT_FLOW_rx_en 255), 0, 3, [1, 0x80, 0xC2, 0, 0, 1, 0, 0, 0, 0, 0, 0, 0x88, 8,  1, 1,
      0, 9, 0, 5, 0, 0, 0, 0, 0, 7, 0, 0, 0, 0, 0, 0, 0, 0], by decide +kernel⟩

theorem wit_PauseAndLowPowerIdle_2 : ∃ (s : State) (p k : Nat) (bytes : List Byte), 
    (s.runs .core = true) ∧
    (s.chip.rxOpen p = true ∧ (s.chip.prt p).rx = none) ∧
    (s.chip.inReset (U.port p) = false) ∧
    (be16 bytes 12 = 0x8808) ∧
    (be16 bytes 14 = 0x0101 ∧ s.chip.get (A.port p) R.PORT_FLOW_mode = 2) ∧
    (k < 8 ∧ byteAt bytes 17 / 2 ^ k % 2 = 1 ∧ s.chip.rxEn p k = true) ∧
    (s.chip.inStorm p k = true ∨ be16 bytes (18 + 2 * k) = 0) :=
      ⟨st fun c => (((((c.put (A.port 0) R.PORT_CTRL_enable 1).put (A.port 0) R.PORT_STATUS_rx_aligned 1).put (A.port 0) R.PORT_FLOW_mode
      2).put (A.port 0) R.PORT_FLOW_rx_en 255)).put (A.port 0) R.PORT_STATUS_paused 2, 0, 1, [1, 0x80, 0xC2, 0, 0, 1, 0, 0, 0, 0, 0, 0,
      0x88, 8,  1, 1, 0, 2, 0, 0, 0, 0, 0, 0, 0, 0, 0, 0, 0, 0, 0, 0, 0, 0], by decide +kernel⟩

theorem wit_PauseAndLowPowerIdle_3 : ∃ (s : State) (p : Nat) (bytes : List Byte), 
    (s.runs .core = true) ∧
    (s.chip.rxOpen p = true ∧ (s.chip.prt p).rx = none) ∧
    (s.chip.inReset (U.port p) = false) ∧
    (be16 bytes 12 = 0x8808) ∧
    (be16 bytes 14 = 0x0001 ∧ s.chip.get (A.port p) R.PORT_FLOW_mode = 1 ∧ s.chip.rxEn p 0 = true) ∧
    (be16 bytes 16 ≠ 0) ∧
    ((s.chip.prt p).stormEnd = []) := ⟨st fun c => (((c.put (A.port 0) R.PORT_CTRL_enable 1).put (A.port 0) R.PORT_STATUS_rx_aligned 1).put
      (A.port 0) R.PORT_FLOW_mode 1).put (A.port 0) R.PORT_FLOW_rx_en 1, 0, [1, 0x80, 0xC2, 0, 0, 1, 0, 0, 0, 0, 0, 0, 0x88, 8,  0, 1, 0,
      9], by decide +kernel⟩

theorem wit_PauseAndLowPowerIdle_4 : ∃ (s : State) (p : Nat) (bytes : List Byte), 
    (s.runs .core = true) ∧
    (s.chip.inReset (U.port p) = false) ∧
    (s.chip.rxOpen p = false ∨ be16 bytes 12 ≠ 0x8808) := ⟨st id, 0, [1, 2, 3], by decide +kernel⟩

theorem wit_PauseAndLowPowerIdle_5 : ∃ (s : State) (p k : Nat), 
    (s.runs .core = true) ∧
    (s.chip.portThere p = true) ∧
    (k < 8) ∧
    (s.chip.isPaused p k = true) ∧
    ((s.chip.prt p).pauseEnd.look k ≤ s.chip.now) := ⟨st fun c => c.put (A.port 0) R.PORT_STATUS_paused 5, 0, 2, by decide +kernel⟩

theorem wit_PauseAndLowPowerIdle_6 : ∃ (s : State) (p k : Nat), 
    (s.runs .core = true) ∧
    (s.chip.isPaused p k = false ∨ s.chip.now < (s.chip.prt p).pauseEnd.look k) := ⟨st id, 0, 2, by decide +kernel⟩

theorem wit_PauseAndLowPowerIdle_7 : ∃ (s : State) (p k : Nat), 
    (s.runs .core = true) ∧
    (s.chip.portThere p = true) ∧
    (s.chip.pauseOpen p = true) ∧
    (k < 8) ∧
    (s.chip.xoffNeeded p k = true) := ⟨st fun c =>
      { (((c.put (A.port 0) R.PORT_STATUS_link_up 1).put (A.port 0) R.PORT_FLOW_mode 2).put (A.port 0) R.PORT_FLOW_tx_en 255) with ports := [(0, { xoffDue := 4 })] },
      0, 2, by decide +kernel⟩

theorem wit_PauseAndLowPowerIdle_8 : ∃ (s : State) (p : Nat), 
    (s.runs .core = true) ∧
    (s.chip.portThere p = true) ∧
    (((List.range 8).any fun k => s.chip.xoffNeeded p k) = true) ∧
    (s.chip.get (A.port p) R.PORT_STATUS_tx_lpi = 1 ∧ (s.chip.prt p).waking = none) :=
      ⟨st fun c => { ((((c.put (A.port 0) R.PORT_STATUS_tx_lpi 1).put (A.port 0) R.PORT_STATUS_link_up 1).put (A.port 0) R.PORT_FLOW_mode 2).put (A.port 0) R.PORT_FLOW_tx_en 255) with ports := [(0, { xoffDue := 4 })] },
      0, by decide +kernel⟩

theorem wit_PauseAndLowPowerIdle_9 : ∃ (s : State) (p : Nat), 
    (s.runs .core = true) ∧
    (((List.range 8).any fun k => s.chip.xoffNeeded p k) = false) := ⟨st id, 0, by decide +kernel⟩

theorem wit_PauseAndLowPowerIdle_10 : ∃ (s : State) (p k : Nat), 
    (s.runs .core = true) ∧
    (s.chip.portThere p = true) ∧
    (s.chip.pauseOpen p = true) ∧
    (k < 8) ∧
    (s.chip.xonNeeded p k = true) := ⟨st fun c => (c.put (A.port 0) R.PORT_STATUS_link_up 1).put (A.port 0) R.PORT_STATUS_xoff_sent 6, 0, 2,
      by decide +kernel⟩

theorem wit_PauseAndLowPowerIdle_11 : ∃ (s : State) (p : Nat), 
    (s.runs .core = true) ∧
    (((List.range 8).any fun k => s.chip.xonNeeded p k) = false) := ⟨st id, 0, by decide +kernel⟩

theorem wit_PauseAndLowPowerIdle_12 : ∃ (s : State) (p k : Nat), 
    (s.runs .core = true) ∧
    (s.chip.portThere p = true) ∧
    (k < 8) ∧
    (s.chip.xoffSent p k = true) ∧
    (s.chip.txEn p k = true) ∧
    ((s.chip.prt p).xoffAt.look k + s.chip.get (A.port p) R.PORT_FLOW_TIMING_refresh_quanta * 512000 / s.chip.rateMbps p ≤ s.chip.now) :=
      ⟨st fun c => { (((c.put (A.port 0) R.PORT_STATUS_xoff_sent 6).put (A.port 0) R.PORT_FLOW_mode 2).put (A.port 0) R.PORT_FLOW_tx_en 255) with now := 1000000000000 },
      0, 2, by decide +kernel⟩

theorem wit_PauseAndLowPowerIdle_13 : ∃ (s : State) (p k : Nat), 
    (s.runs .core = true) ∧
    (s.chip.portThere p = true) ∧
    (k < 8) ∧
    (s.chip.get (A.port p) R.PORT_PFC_STORM_storm_ms ≠ 0) ∧
    (s.chip.isPaused p k = true) ∧
    ((s.chip.prt p).pausedAt.look k + s.chip.get (A.port p) R.PORT_PFC_STORM_storm_ms * 1000000 ≤ s.chip.now) ∧
    (0 < s.chip.now) := ⟨st fun c =>
      { ((c.put (A.port 0) R.PORT_STATUS_paused 6).put (A.port 0) R.PORT_PFC_STORM_storm_ms 1) with now := 1000000000000 }, 0, 2,
      by decide +kernel⟩

theorem wit_PauseAndLowPowerIdle_14 : ∃ (s : State) (p k : Nat), 
    (s.runs .core = true) ∧
    (s.chip.portThere p = true) ∧
    (k < 8) ∧
    (s.chip.inStorm p k = true) ∧
    ((s.chip.prt p).stormEnd.look k ≤ s.chip.now) := ⟨st fun c => { c with now := 9, ports := [(0, { stormEnd := [(2, 5)] })] }, 0, 2,
      by decide +kernel⟩

theorem wit_PauseAndLowPowerIdle_15 : ∃ (s : State) (p : Nat), 
    (s.runs .core = true) ∧
    (s.chip.portThere p = true) ∧
    (s.chip.get (A.port p) R.PORT_CTRL_lpi_enable = 1) ∧
    (s.chip.get (A.port p) R.PORT_STATUS_link_up = 1) ∧
    (s.chip.get (A.port p) R.PORT_STATUS_tx_lpi = 0) ∧
    (s.chip.portQueues p = [] ∧ (s.chip.prt p).tx = none) ∧
    ((s.chip.prt p).idleAt + s.chip.get (A.port p) R.PORT_LPI_idle_us * 1000 ≤ s.chip.now) ∧
    (s.chip.pauseWaits p = false) := ⟨st fun c =>
      { ((c.put (A.port 0) R.PORT_CTRL_lpi_enable 1).put (A.port 0) R.PORT_STATUS_link_up 1) with now := 1000000000000 }, 0,
      by decide +kernel⟩

theorem wit_PauseAndLowPowerIdle_16 : ∃ (s : State) (p : Nat), 
    (s.runs .core = true) ∧
    (s.chip.get (A.port p) R.PORT_CTRL_lpi_enable = 0 ∨ s.chip.get (A.port p) R.PORT_STATUS_link_up = 0 ∨ s.chip.portQueues p ≠ [] ∨
      (s.chip.prt p).tx.isSome = true ∨ s.chip.now < (s.chip.prt p).idleAt + s.chip.get (A.port p) R.PORT_LPI_idle_us * 1000) := ⟨st id, 0,
      by decide +kernel⟩

theorem wit_PauseAndLowPowerIdle_17 : ∃ (s : State) (p x : Nat), 
    (s.runs .core = true) ∧
    (s.chip.portThere p = true) ∧
    ((s.chip.prt p).waking = some x) ∧
    (x + s.chip.get (A.port p) R.PORT_LPI_tw_10ns * 10 ≤ s.chip.now) :=
      ⟨st fun c => { (c.put (A.port 0) R.PORT_STATUS_tx_lpi 1) with now := 1000000, ports := [(0, { waking := some 5 })] }, 0, 5,
      by decide +kernel⟩

theorem wit_PauseAndLowPowerIdle_18 : ∃ (s : State) (p : Nat) (lpi : Bool), 
    (s.runs .core = true) ∧
    (s.chip.portThere p = true) := ⟨st fun c => c.put (A.port 0) R.PORT_CTRL_lpi_enable 1, 0, true, by decide +kernel⟩

theorem wit_PortersParseFrames_1 : ∃ (s : State) (sl n th id k : Nat) (f : Frame), 
    (s.runs .core = true) ∧
    (s.chip.portersRun sl = true) ∧
    (th < 4 ∧ (s.chip.threadOf sl n th).frame = none ∧ s.chip.dispatchTo sl = some n ∧ s.chip.dispatchable sl id = true ∧
      s.chip.frames.look id = some f) ∧
    (f.slot = none ∧ k = s.chip.newestSlot) := ⟨st fun c =>
      { c with frames := [(7, some { bytes := List.replicate 192 0 })], ports := [(0, { wait := [7] })] }, 0, 0, 0, 7, 0,
      { bytes := List.replicate 192 0 }, by decide +kernel⟩

theorem wit_PortersParseFrames_2 : ∃ (s : State) (sl n th id k : Nat) (f : Frame), 
    (s.runs .core = true) ∧
    (s.chip.portersRun sl = true) ∧
    (th < 4 ∧ (s.chip.threadOf sl n th).frame = none ∧ s.chip.dispatchTo sl = some n ∧ s.chip.dispatchable sl id = true ∧
      s.chip.frames.look id = some f) ∧
    (f.slot = some k) := ⟨st fun c =>
      { c with frames := [(7, some { bytes := List.replicate 192 0, slot := some 2 })], ports := [(0, { wait := [7] })] }, 0, 0, 0, 7, 2,
      { bytes := List.replicate 192 0, slot := some 2 }, by decide +kernel⟩

theorem wit_PortersParseFrames_3 : ∃ (s : State) (sl n th id : Nat), 
    (s.runs .core = true) ∧
    (s.chip.dispatchTo sl ≠ some n ∨ s.chip.dispatchable sl id = false ∨
      (s.chip.threadOf sl n th).frame.isSome = true) := ⟨st id, 0, 0, 0, 7, by decide +kernel⟩

theorem wit_PortersParseFrames_4 : ∃ (s : State) (sl n th id : Nat) (f : Frame) (w : BitVec 512) (v : Thread) (taken : Bool), 
    (s.runs .core = true) ∧
    (s.chip.portersRun sl = true) ∧
    (s.chip.takes sl n = true ∧ s.chip.nextThread sl n = some th ∧ (s.chip.threadOf sl n th).frame = some id ∧
      s.chip.frames.look id = some f) ∧
    ((s.chip.porter sl n).branched ≠ some th) ∧
    (runWord (s.chip.store.look (s.chip.threadOf sl n th).pc) (s.chip.threadOf sl n th) (s.chip.headerWindow f).1 (s.chip.headerWindow f).2
      f.wb (R.PORTER_PARSE_loop_limit.of (s.chip.threadOf sl n th).parse) = .next v w false taken) :=
      ⟨Witness.parsing (BitVec.ofNat 256 (2 ^ 253)), 0, 0, 0, 7, Witness.frame,
      (match Witness.ran (BitVec.ofNat 256 (2 ^ 253)) with | .next _ w _ _ => w | .fail _ => 0),
      (match Witness.ran (BitVec.ofNat 256 (2 ^ 253)) with | .next t _ _ _ => t | .fail _ => {}),
      (match Witness.ran (BitVec.ofNat 256 (2 ^ 253)) with | .next _ _ _ b => b | .fail _ => false), by decide +kernel⟩

theorem wit_PortersParseFrames_5 : ∃ (s : State) (sl n th id : Nat) (f : Frame), 
    (s.runs .core = true) ∧
    (s.chip.portersRun sl = true) ∧
    (s.chip.takes sl n = true ∧ s.chip.nextThread sl n = some th ∧ (s.chip.threadOf sl n th).frame = some id ∧
      s.chip.frames.look id = some f) ∧
    ((s.chip.porter sl n).branched = some th) := ⟨(fun x : State =>
      { x with chip := x.chip.setPorter 0 0 { x.chip.porter 0 0 with branched := some 0 } }) (Witness.parsing (BitVec.ofNat 256 (2 ^ 253))),
      0, 0, 0, 7, Witness.frame, by decide +kernel⟩

theorem wit_PortersParseFrames_6 : ∃ (s : State) (sl n th id r : Nat) (f : Frame), 
    (s.runs .core = true) ∧
    (s.chip.portersRun sl = true) ∧
    (s.chip.takes sl n = true ∧ s.chip.nextThread sl n = some th ∧ (s.chip.threadOf sl n th).frame = some id ∧
      s.chip.frames.look id = some f) ∧
    ((s.chip.porter sl n).branched ≠ some th) ∧
    (runWord (s.chip.store.look (s.chip.threadOf sl n th).pc) (s.chip.threadOf sl n th) (s.chip.headerWindow f).1 (s.chip.headerWindow f).2
      f.wb (R.PORTER_PARSE_loop_limit.of (s.chip.threadOf sl n th).parse) = .fail r) ∧
    (1 ≤ r ∧ r ≤ 3) := ⟨Witness.parsing 0, 0, 0, 0, 7, 1, Witness.frame, by decide +kernel⟩

theorem wit_PortersParseFrames_7 : ∃ (s : State) (sl n th id : Nat) (f : Frame) (w : BitVec 512) (v : Thread) (taken : Bool), 
    (s.runs .core = true) ∧
    (s.chip.portersRun sl = true) ∧
    (s.chip.takes sl n = true ∧ s.chip.nextThread sl n = some th ∧ (s.chip.threadOf sl n th).frame = some id ∧
      s.chip.frames.look id = some f) ∧
    ((s.chip.porter sl n).branched ≠ some th) ∧
    (runWord (s.chip.store.look (s.chip.threadOf sl n th).pc) (s.chip.threadOf sl n th) (s.chip.headerWindow f).1 (s.chip.headerWindow f).2
      f.wb (R.PORTER_PARSE_loop_limit.of (s.chip.threadOf sl n th).parse) = .next v w true taken) ∧
    (waybillOk w = true) ∧
    (s.chip.injected (porterUnit sl n) 2 = 0) := ⟨Witness.parsing (BitVec.ofNat 256 (2 ^ 253 + 2 ^ 252)), 0, 0, 0, 7, Witness.frame,
      (match Witness.ran (BitVec.ofNat 256 (2 ^ 253 + 2 ^ 252)) with | .next _ w _ _ => w | .fail _ => 0),
      (match Witness.ran (BitVec.ofNat 256 (2 ^ 253 + 2 ^ 252)) with | .next t _ _ _ => t | .fail _ => {}),
      (match Witness.ran (BitVec.ofNat 256 (2 ^ 253 + 2 ^ 252)) with | .next _ _ _ b => b | .fail _ => false), by decide +kernel⟩

theorem wit_PortersParseFrames_8 : ∃ (s : State) (sl n th id : Nat) (f : Frame) (w : BitVec 512) (v : Thread) (taken : Bool), 
    (s.runs .core = true) ∧
    (s.chip.portersRun sl = true) ∧
    (s.chip.takes sl n = true ∧ s.chip.nextThread sl n = some th ∧ (s.chip.threadOf sl n th).frame = some id ∧
      s.chip.frames.look id = some f) ∧
    ((s.chip.porter sl n).branched ≠ some th) ∧
    (runWord (s.chip.store.look (s.chip.threadOf sl n th).pc) (s.chip.threadOf sl n th) (s.chip.headerWindow f).1 (s.chip.headerWindow f).2
      f.wb (R.PORTER_PARSE_loop_limit.of (s.chip.threadOf sl n th).parse) = .next v w true taken) ∧
    (waybillOk w = false) := ⟨(fun x : State => { x with chip := { x.chip with frames := [(7, some { Witness.frame with wb := 0 })] } })
      (Witness.parsing (BitVec.ofNat 256 (2 ^ 253 + 2 ^ 252))), 0, 0, 0, 7, { Witness.frame with wb := 0 },
      Witness.outWb (runWord (BitVec.ofNat 256 (2 ^ 253 + 2 ^ 252)) Witness.thread (List.replicate 192 0) 192 0 16),
      Witness.outThread (runWord (BitVec.ofNat 256 (2 ^ 253 + 2 ^ 252)) Witness.thread (List.replicate 192 0) 192 0 16), false,
      by decide +kernel⟩

theorem wit_PortersParseFrames_9 : ∃ (s : State) (sl n th : Nat), 
    (s.runs .core = true) ∧
    (s.chip.nextThread sl n ≠ some th ∨ (s.chip.threadOf sl n th).frame = none) := ⟨st id, 0, 0, 0, by decide +kernel⟩

theorem wit_PortersParseFrames_10 : ∃ (s : State) (sl n th id : Nat) (f : Frame), 
    (s.runs .core = true) ∧
    (s.chip.portersRun sl = true) ∧
    (th < 4 ∧ (s.chip.threadOf sl n th).frame = some id ∧ (s.chip.threadOf sl n th).ended = true) ∧
    ((s.chip.front sl).release.length < 256) ∧
    (s.chip.frames.look id = some f) := ⟨st fun c =>
      { c with frames := [(7, some { stage := .thread 0 0 })], porters := [(0, { threads := [(0, { frame := some 7, ended := true })] })] },
      0, 0, 0, 7, { stage := .thread 0 0 }, by decide +kernel⟩

theorem wit_PortersParseFrames_11 : ∃ (s : State) (sl n th : Nat), 
    (s.runs .core = true) ∧
    ((s.chip.threadOf sl n th).frame = none ∨ (s.chip.threadOf sl n th).ended = false ∨
      256 ≤ (s.chip.front sl).release.length) := ⟨st id, 0, 0, 0, by decide +kernel⟩

theorem wit_PortersParseFrames_12 : ∃ (s : State) (sl id : Nat) (f : Frame), 
    (s.runs .core = true) ∧
    (s.chip.portersRun sl = true) ∧
    ((s.chip.front sl).release.find? (fun id => (s.chip.prt (s.chip.fr id).home).parsing.head? == some id) = some id) ∧
    (s.chip.frames.look id = some f) := ⟨st fun c =>
      { c with frames := [(7, some { stage := .release })], ports := [(0, { parsing := [7] })], fronts := [(0, { release := [7] })] }, 0, 7,
      { stage := .release }, by decide +kernel⟩

theorem wit_PortersFailAndAreChecked_1 : ∃ (s : State) (sl n : Nat), 
    (s.runs .core = true) ∧
    (s.chip.portersRun sl = true) ∧
    (s.chip.takes sl n = true) ∧
    (s.chip.threadBusy sl n = true) ∧
    ((s.chip.porter sl n).lastRetire + 1000 ≤ s.chip.now) := ⟨(fun x : State =>
      { x with chip := { x.chip with now := 5000, applies := [(A.porter 0 0, some {})] } }) (Witness.parsing 0), 0, 0, by decide +kernel⟩

theorem wit_PortersFailAndAreChecked_2 : ∃ (s : State) (sl n : Nat), 
    (s.runs .core = true) ∧
    (s.chip.threadBusy sl n = false ∨ s.chip.now < (s.chip.porter sl n).lastRetire + 1000 ∨
      s.chip.role sl n ≠ 0) := ⟨st id, 0, 0, by decide +kernel⟩

theorem wit_PortersFailAndAreChecked_3 : ∃ (s : State) (src : Source) (sl n : Nat), 
    (s.serves src (A.slice sl + R.PORTER_RETIRE) true = true) ∧
    (sl < 8) ∧
    (n < 34) ∧
    (s.chip.role sl n = 0) ∧
    (((List.range 34).any fun m => s.chip.freeSpare sl m) = true) := ⟨st id, .pf, 0, 3, by decide +kernel⟩

theorem wit_PortersFailAndAreChecked_4 : ∃ (s : State) (src : Source) (sl n : Nat), 
    (s.serves src (A.slice sl + R.PORTER_RETIRE) true = true) ∧
    (n < 64) ∧
    (34 ≤ n ∨ s.chip.role sl n ≠ 0 ∨ ((List.range 34).any fun m => s.chip.freeSpare sl m) = false) := ⟨st id, .pf, 0, 40, by decide +kernel⟩

theorem wit_PortersFailAndAreChecked_5 : ∃ (s : State) (sl n : Nat) (upsets : List (Nat × Entry)), 
    (s.runs .core = true) ∧
    (sl < 8 ∧ n < 34 ∧ s.chip.alive (U.slice sl) = true) ∧
    (n ∈ (s.chip.front sl).recheck) := ⟨st fun c => { c with fronts := [(0, { recheck := [3] })] }, 0, 3, [], by decide +kernel⟩

theorem wit_PortersFailAndAreChecked_6 : ∃ (s : State) (sl n : Nat) (upsets : List (Nat × Entry)), 
    (s.runs .core = true) ∧
    (sl < 8 ∧ n < 34 ∧ s.chip.alive (U.slice sl) = true) ∧
    (n ∉ (s.chip.front sl).recheck) ∧
    (((s.chip.front sl).failovers.any fun x => x.2.1 == n && !x.2.2) = true) :=
      ⟨st fun c => { c with fronts := [(0, { failovers := [(3, 32, false)] })] }, 0, 32, [(5, 1)], by decide +kernel⟩

theorem wit_PortersFailAndAreChecked_7 : ∃ (s : State) (sl n m : Nat), 
    (s.runs .core = true) ∧
    (sl < 8 ∧ n < 34 ∧ m < 34 ∧ n ≠ m ∧ s.chip.alive (U.slice sl) = true) ∧
    ((s.chip.front sl).failovers.find? (fun x => x.2.1 == n && x.2.2) = some (m, n, true)) :=
      ⟨st fun c => { (c.put (A.porter 0 3) R.PORTER_PARSE_entry 77) with fronts := [(0, { failovers := [(3, 32, true)] })] }, 0, 32, 3,
      by decide +kernel⟩

theorem wit_PortersFailAndAreChecked_8 : ∃ (s : State) (sl n : Nat), 
    (s.runs .core = true) ∧
    (((s.chip.front sl).failovers.any fun x => x.2.1 == n && x.2.2) = false) := ⟨st id, 0, 32, by decide +kernel⟩

theorem wit_PortersFailAndAreChecked_9 : ∃ (s : State) (src : Source) (sl n : Nat), 
    (s.serves src (A.slice sl + R.STORE_CHECK) true = true) ∧
    (sl < 8) ∧
    (n < 34) ∧
    (s.chip.get (A.slice sl) R.STORE_CHECK_busy = 0) := ⟨st id, .pf, 0, 3, by decide +kernel⟩

theorem wit_PortersFailAndAreChecked_10 : ∃ (s : State) (src : Source) (sl n : Nat), 
    (s.serves src (A.slice sl + R.STORE_CHECK) true = true) ∧
    (34 ≤ n ∧ n < 64) ∧
    (s.chip.get (A.slice sl) R.STORE_CHECK_busy = 0) := ⟨st id, .pf, 0, 34, by decide +kernel⟩

theorem wit_PortersFailAndAreChecked_11 : ∃ (s : State) (src : Source) (sl n : Nat), 
    (s.serves src (A.slice sl + R.STORE_CHECK) true = true) ∧
    (s.chip.get (A.slice sl) R.STORE_CHECK_busy = 1) := ⟨st fun c => c.put (A.slice 0) R.STORE_CHECK_busy 1, .pf, 0, 34, by decide +kernel⟩

theorem wit_PortersFailAndAreChecked_12 : ∃ (s : State) (sl : Nat) (upsets : List (Nat × Entry)), 
    (s.runs .core = true) ∧
    (sl < 8) ∧
    (s.chip.sliceEnabled sl = true ∧ s.chip.asleep sl = false) ∧
    (s.chip.get (A.slice sl) R.STORE_CHECK_busy = 1) := ⟨st fun c => c.put (A.slice 0) R.STORE_CHECK_busy 1, 0, [(5, 1)], by decide +kernel⟩

theorem wit_PortersFailAndAreChecked_13 : ∃ (s : State) (sl : Nat) (upsets : List (Nat × Entry)), 
    (s.runs .core = true) ∧
    (s.chip.get (A.slice sl) R.STORE_CHECK_busy = 0) := ⟨st id, 0, [(5, 1)], by decide +kernel⟩

theorem wit_ExactMatchWindowReads_1 : ∃ (s : State) (src : Source) (sl : Nat), 
    (sl < 8) ∧
    (s.mayGo src (emWin sl) = true) ∧
    (s.chip.emIndexOk sl (s.chip.winIn src (emWin sl)).index = true) :=
      ⟨st fun c => { (tables c).setReg (emWin 0) 3 with em := [(0, { entries := [(3, Witness.entry 5 6 0x80)] })] }, .pf, 0,
      by decide +kernel⟩

theorem wit_ExactMatchWindowReads_2 : ∃ (s : State) (src : Source) (sl : Nat), 
    (sl < 8) ∧
    (s.mayGo src (emWin sl) = true) ∧
    (s.chip.emIndexOk sl (s.chip.winIn src (emWin sl)).index = false) := ⟨st fun c => (tables c).setReg (emWin 0) 0x7FFFF, .pf, 0,
      by decide +kernel⟩

theorem wit_ExactMatchWindowReads_3 : ∃ (s : State) (src : Source) (sl key i : Nat) (wide : Bool), 
    (sl < 8) ∧
    (s.mayGo src (emWin sl) = true) ∧
    ((s.chip.winIn src (emWin sl)).emKey (s.chip.emTab sl) = some (wide, key)) ∧
    ((s.chip.emMatches sl wide key s.chip.newest).head? = some i) :=
      ⟨st fun c => { (tables c).setWinData (emWin 0) (Witness.entry 5 0 0).body with em := [(0, { entries := [(0x40000, Witness.entry 5 6 0x80)] })] },
      .pf, 0, 5, 0x40000, false, by decide +kernel⟩

theorem wit_ExactMatchWindowReads_4 : ∃ (s : State) (src : Source) (sl key : Nat) (wide : Bool), 
    (sl < 8) ∧
    (s.mayGo src (emWin sl) = true) ∧
    ((s.chip.winIn src (emWin sl)).emKey (s.chip.emTab sl) = some (wide, key)) ∧
    (s.chip.emMatches sl wide key s.chip.newest = []) := ⟨st fun c =>
      { ((tables c).setWinData (emWin 0) (Witness.entry 5 0 0).body).put (emWin 0 + 4) R.WIN_CMD_state 0x40 with em := [(0, { entries := [(0x40000, Witness.entry 5 6 0x80)], hold := some 9 })] },
      .pf, 0, 5, true, by decide +kernel⟩

theorem wit_ExactMatchWindowReads_5 : ∃ (s : State) (src : Source) (sl : Nat), 
    (sl < 8) ∧
    (s.mayGo src (emWin sl) = true) ∧
    ((s.chip.winIn src (emWin sl)).state / 32 % 4 = 2 ∧ (s.chip.emTab sl).hold = none) :=
      ⟨st fun c => (tables c).put (emWin 0 + 4) R.WIN_CMD_state 0x40, .pf, 0, by decide +kernel⟩

theorem wit_ExactMatchWindowReads_6 : ∃ (s : State) (src : Source) (sl key i : Nat) (wide : Bool), 
    (sl < 8) ∧
    (s.mayGo src (emWin sl) = true) ∧
    (s.chip.get 0 R.ACCORD_STATUS_state ≠ 0) ∧
    ((s.chip.winIn src (emWin sl)).emKey (s.chip.emTab sl) = some (wide, key)) ∧
    ((s.chip.emMatches sl wide key s.chip.pendingAccord).head? = some i) :=
      ⟨st fun c => { (tables c).setWinData (emWin 0) (Witness.entry 5 0 0).body with em := [(0, { entries := [(0x40000, Witness.entry 5 6 0x80)] })] },
      .pf, 0, 5, 0x40000, false, by decide +kernel⟩

theorem wit_ExactMatchWindowReads_7 : ∃ (s : State) (src : Source) (sl key : Nat) (wide : Bool), 
    (sl < 8) ∧
    (s.mayGo src (emWin sl) = true) ∧
    (s.chip.get 0 R.ACCORD_STATUS_state ≠ 0) ∧
    ((s.chip.winIn src (emWin sl)).emKey (s.chip.emTab sl) = some (wide, key)) ∧
    (s.chip.emMatches sl wide key s.chip.pendingAccord = []) := ⟨st fun c => (tables c).setWinData (emWin 0) (Witness.entry 5 0 0).body,
      .pf, 0, 5, false, by decide +kernel⟩

theorem wit_ExactMatchWindowReads_8 : ∃ (s : State) (src : Source) (sl : Nat), 
    (sl < 8) ∧
    (s.mayGo src (emWin sl) = true) ∧
    (s.chip.get 0 R.ACCORD_STATUS_state = 0) := ⟨st id, .pf, 0, by decide +kernel⟩

theorem wit_ExactMatchWindowReads_9 : ∃ (s : State) (src : Source) (sl : Nat), 
    (sl < 8) ∧
    (s.mayGo src (emWin sl) = true) := ⟨st fun c => (tables c).setWinData (emWin 0) 77, .pf, 0, by decide +kernel⟩

theorem wit_ExactMatchWindowReads_10 : ∃ (s : State) (src : Source) (sl : Nat), 
    (sl < 8) ∧
    (s.mayGo src (bdWin sl) = true) := ⟨st fun c => { (tables c).setReg (bdWin 0) 3 with em := [(0, { bd := [(3, 0xC0000000)] })] }, .pf, 0,
      by decide +kernel⟩

theorem wit_ExactMatchWindowReads_11 : ∃ (s : State) (src : Source) (sl : Nat), 
    (sl < 8) ∧
    (s.mayGo src (bdWin sl) = true) ∧
    ((s.chip.sliceMates sl).Nodup ∧ sl ∈ s.chip.sliceMates sl) ∧
    ((s.chip.winIn src (bdWin sl)).index < 4096) ∧
    (bits (s.chip.winIn src (bdWin sl)).data 29 28 ≠ 3 ∧ bits (s.chip.winIn src (bdWin sl)).data 27 16 = 0) :=
      ⟨st fun c => ((tables c).setReg (bdWin 0) 3).setWinData (bdWin 0) 0xC0000000, .pf, 0, by decide +kernel⟩

theorem wit_ExactMatchWindowReads_12 : ∃ (s : State) (src : Source) (sl : Nat), 
    (sl < 8) ∧
    (s.mayGo src (bdWin sl) = true) ∧
    (4096 ≤ (s.chip.winIn src (bdWin sl)).index ∨ bits (s.chip.winIn src (bdWin sl)).data 29 28 = 3 ∨
      bits (s.chip.winIn src (bdWin sl)).data 27 16 ≠ 0) := ⟨st fun c => ((tables c).setReg (bdWin 0) 3).setWinData (bdWin 0) 0xF0000000,
      .pf, 0, by decide +kernel⟩

theorem wit_ExactMatchWindowWrites_1 : ∃ (s : State) (src : Source) (sl key i : Nat) (e : EmEntry), 
    (sl < 8) ∧
    (s.mayGo src (emWin sl) = true) ∧
    ((s.chip.sliceMates sl).Nodup ∧ sl ∈ s.chip.sliceMates sl) ∧
    (s.chip.get 0 R.ACCORD_STATUS_state = 1 ∧ s.chip.holdsBound src = true ∧ s.chip.logUsed < 65536) ∧
    (bits (s.chip.winIn src (emWin sl)).data 31 16 = s.chip.pendingAccord ∧ bits (s.chip.winIn src (emWin sl)).data 15 0 = 0) ∧
    ((s.chip.winIn src (emWin sl)).state / 32 % 4 = 0 ∧ key = (bits (s.chip.winIn src (emWin sl)).data 255 96) ∧
      e = { body := (s.chip.winIn src (emWin sl)).data, state := 0x80 }) ∧
    (s.chip.emHolding sl false key s.chip.pendingAccord = []) ∧
    (s.chip.emSpot sl key = some i) := ⟨st fun c => ((tables c).setWinData (emWin 0) (BitVec.ofNat 256 (5 * 2 ^ 96 + 7 * 2 ^ 16))), .pf, 0,
      5, 2184, { body := BitVec.ofNat 256 (5 * 2 ^ 96 + 7 * 2 ^ 16), state := 0x80 }, by decide +kernel⟩

theorem wit_ExactMatchWindowWrites_2 : ∃ (s : State) (src : Source) (sl key i : Nat) (h : Entry) (e e' : EmEntry), 
    (sl < 8) ∧
    (s.mayGo src (emWin sl) = true) ∧
    ((s.chip.sliceMates sl).Nodup ∧ sl ∈ s.chip.sliceMates sl) ∧
    (s.chip.get 0 R.ACCORD_STATUS_state = 1 ∧ s.chip.holdsBound src = true ∧ s.chip.logUsed < 65536) ∧
    (bits (s.chip.winIn src (emWin sl)).data 31 16 = s.chip.pendingAccord ∧ bits (s.chip.winIn src (emWin sl)).data 15 0 = 0) ∧
    ((s.chip.winIn src (emWin sl)).state / 32 % 4 = 2 ∧ (s.chip.emTab sl).hold = some h ∧
      key = bits h 255 96 * 2 ^ 160 + (bits (s.chip.winIn src (emWin sl)).data 255 96)) ∧
    (e = { body := putBits h 31 0 (bits (s.chip.winIn src (emWin sl)).data 31 0), state := 0xA0 } ∧
      e' = { body := putBits (s.chip.winIn src (emWin sl)).data 95 32 0, state := 0xC0 }) ∧
    (s.chip.emHolding sl true key s.chip.pendingAccord = []) ∧
    (s.chip.emPairSpot sl key = some i) ∧
    (emSeqKey (i + 1) = emSeqKey i) := ⟨st fun c =>
      { ((tables c).setWinData (emWin 0) (BitVec.ofNat 256 (5 * 2 ^ 96 + 7 * 2 ^ 16))).put (emWin 0 + 4) R.WIN_CMD_state 0x40 with em := [(0, { hold := some 9 })] },
      .pf, 0, 5, (((tables Witness.chip).emPairSpot 0 5).getD 0), 9, { body := putBits (9 : Entry) 31 0 (7 * 2 ^ 16), state := 0xA0 },
      { body := BitVec.ofNat 256 (5 * 2 ^ 96 + 7 * 2 ^ 16), state := 0xC0 }, by decide +kernel⟩

theorem wit_ExactMatchWindowWrites_3 : ∃ (s : State) (src : Source) (sl x : Nat) (path : List Nat), 
    (sl < 8) ∧
    (s.mayGo src (emWin sl) = true) ∧
    (s.chip.get 0 R.ACCORD_STATUS_state = 1 ∧ s.chip.holdsBound src = true ∧ s.chip.logUsed < 65536) ∧
    (bits (s.chip.winIn src (emWin sl)).data 31 16 = s.chip.pendingAccord ∧ bits (s.chip.winIn src (emWin sl)).data 15 0 = 0) ∧
    ((s.chip.winIn src (emWin sl)).state / 32 % 4 = 0) ∧
    (s.chip.emHolding sl false (bits (s.chip.winIn src (emWin sl)).data 255 96) s.chip.pendingAccord = []) ∧
    (s.chip.emSpot sl (bits (s.chip.winIn src (emWin sl)).data 255 96) = none) ∧
    (s.chip.emMoveChain sl (s.chip.emTab sl).rot (bits (s.chip.winIn src (emWin sl)).data 255 96) = some (x, path)) :=
      ⟨st fun c => { ((tables c).setWinData (emWin 0) (BitVec.ofNat 256 (5 * 2 ^ 96 + 7 * 2 ^ 16))) with em := [(0, { entries := ((List.range 4).flatMap fun j => [(((tables Witness.chip).emBucket 0 0 false 5) + j, Witness.entry (100 + j) 0 0x80), (((tables Witness.chip).emBucket 0 1 false 5) + j, Witness.entry (200 + j) 0 0x80)]) })] },
      .pf, 0, ((((tables { Witness.chip with em := [(0, { entries := ((List.range 4).flatMap fun j => [(((tables Witness.chip).emBucket 0 0 false 5) + j, Witness.entry (100 + j) 0 0x80), (((tables Witness.chip).emBucket 0 1 false 5) + j, Witness.entry (200 + j) 0 0x80)]) })] }).emMoveChain
      0 0 5).getD (0, [])).1), ((((tables
      { Witness.chip with em := [(0, { entries := ((List.range 4).flatMap fun j => [(((tables Witness.chip).emBucket 0 0 false 5) + j, Witness.entry (100 + j) 0 0x80), (((tables Witness.chip).emBucket 0 1 false 5) + j, Witness.entry (200 + j) 0 0x80)]) })] }).emMoveChain
      0 0 5).getD (0, [])).2), by decide +kernel⟩

theorem wit_ExactMatchWindowWrites_4 : ∃ (s : State) (src : Source) (sl : Nat), 
    (sl < 8) ∧
    (s.mayGo src (emWin sl) = true) ∧
    (s.chip.get 0 R.ACCORD_STATUS_state = 1 ∧ s.chip.holdsBound src = true ∧ s.chip.logUsed < 65536) ∧
    (bits (s.chip.winIn src (emWin sl)).data 31 16 = s.chip.pendingAccord ∧ bits (s.chip.winIn src (emWin sl)).data 15 0 = 0) ∧
    ((s.chip.winIn src (emWin sl)).state / 32 % 4 = 0) ∧
    (s.chip.emHolding sl false (bits (s.chip.winIn src (emWin sl)).data 255 96) s.chip.pendingAccord = []) ∧
    (s.chip.emSpot sl (bits (s.chip.winIn src (emWin sl)).data 255 96) = none ∧
      s.chip.emMoveChain sl (s.chip.emTab sl).rot (bits (s.chip.winIn src (emWin sl)).data 255 96) = none ∧
      s.chip.emOvfSpot sl false = none) := ⟨st fun c =>
      { ((tables c).setWinData (emWin 0) (BitVec.ofNat 256 (5 * 2 ^ 96 + 7 * 2 ^ 16))) with image := { (tables c).image with splits := [] } },
      .pf, 0, by decide +kernel⟩

theorem wit_ExactMatchWindowWrites_5 : ∃ (s : State) (src : Source) (sl key : Nat) (wide : Bool), 
    (sl < 8) ∧
    (s.mayGo src (emWin sl) = true) ∧
    (s.chip.get 0 R.ACCORD_STATUS_state = 1 ∧ s.chip.holdsBound src = true ∧ s.chip.logUsed < 65536) ∧
    (bits (s.chip.winIn src (emWin sl)).data 31 16 = s.chip.pendingAccord ∧ bits (s.chip.winIn src (emWin sl)).data 15 0 = 0) ∧
    ((s.chip.winIn src (emWin sl)).state / 32 % 2 = 0 ∧ (s.chip.winIn src (emWin sl)).emKey (s.chip.emTab sl) = some (wide, key)) ∧
    (s.chip.emHolding sl wide key s.chip.pendingAccord ≠ []) :=
      ⟨st fun c => { ((tables c).setWinData (emWin 0) (BitVec.ofNat 256 (5 * 2 ^ 96 + 7 * 2 ^ 16))) with em := [(0, { entries := [(0x40000, Witness.entry 5 6 0x90)] })] },
      .pf, 0, 5, false, by decide +kernel⟩

theorem wit_ExactMatchWindowWrites_6 : ∃ (s : State) (src : Source) (sl : Nat), 
    (sl < 8) ∧
    (s.mayGo src (emWin sl) = true) ∧
    ((s.chip.winIn src (emWin sl)).state / 32 % 4 = 0) ∧
    (s.chip.get 0 R.ACCORD_STATUS_state ≠ 1 ∨ s.chip.holdsBound src = false) := ⟨st fun c => c.setWinData (emWin 0) 77, .pf, 0,
      by decide +kernel⟩

theorem wit_ExactMatchWindowWrites_7 : ∃ (s : State) (src : Source) (sl : Nat), 
    (sl < 8) ∧
    (s.mayGo src (emWin sl) = true) ∧
    ((s.chip.winIn src (emWin sl)).state / 32 % 4 = 1 ∨ (s.chip.winIn src (emWin sl)).state / 32 % 4 = 3 ∨
      ((s.chip.winIn src (emWin sl)).state / 32 % 4 = 2 ∧ (s.chip.emTab sl).hold = none)) :=
      ⟨st fun c => c.put (emWin 0 + 4) R.WIN_CMD_state 0x20, .pf, 0, by decide +kernel⟩

theorem wit_ExactMatchWindowWrites_8 : ∃ (s : State) (src : Source) (sl i : Nat) (lg : Bool), 
    (sl < 8) ∧
    (s.mayGo src (emWin sl) = true) ∧
    ((s.chip.sliceMates sl).Nodup ∧ sl ∈ s.chip.sliceMates sl) ∧
    (s.chip.emIndexOk sl (s.chip.winIn src (emWin sl)).index = true) ∧
    ((s.chip.winIn src (emWin sl)).seq = s.chip.emSeq sl (s.chip.winIn src (emWin sl)).index) ∧
    ((s.chip.emAt sl (s.chip.winIn src (emWin sl)).index).valid = true ∧
      (s.chip.emAt sl (s.chip.winIn src (emWin sl)).index).learned = false) ∧
    (i = (s.chip.winIn src (emWin sl)).index) ∧
    (s.chip.judge src (s.chip.emAt sl (s.chip.winIn src (emWin sl)).index).validity ⟨(s.chip.winIn src (emWin sl)).state / 128 % 2 = 1,
      bits (s.chip.winIn src (emWin sl)).data 31 16, bits (s.chip.winIn src (emWin sl)).data 15 0⟩ (bits (s.chip.emAt sl (s.chip.winIn src
      (emWin sl)).index).body 255 32 == bits (if (s.chip.emAt sl (s.chip.winIn src (emWin sl)).index).pair =
      2 then putBits (s.chip.winIn src (emWin sl)).data 95 32 0 else (s.chip.winIn src (emWin sl)).data) 255 32) = .accept lg) :=
      ⟨st fun c => { ((((tables c).setReg (emWin 0) 0x40000).put (emWin 0 + 4) R.WIN_CMD_state 0x80).put (emWin 0 + 8) R.WIN_STATUS_seq 3).setWinData (emWin 0) (BitVec.ofNat 256 (5 * 2 ^ 96 + 6 * 2 ^ 32 + 7)) with em := [(0, { entries := [(0x40000, Witness.entry 5 6 0x80)], seqs := [(0x40000, 3)] })] },
      .pf, 0, 0x40000, true, by decide +kernel⟩

theorem wit_ExactMatchWindowWrites_9 : ∃ (s : State) (src : Source) (sl r : Nat), 
    (sl < 8) ∧
    (s.mayGo src (emWin sl) = true) ∧
    (s.chip.emIndexOk sl (s.chip.winIn src (emWin sl)).index = true) ∧
    ((s.chip.winIn src (emWin sl)).seq = s.chip.emSeq sl (s.chip.winIn src (emWin sl)).index) ∧
    ((s.chip.emAt sl (s.chip.winIn src (emWin sl)).index).valid = true ∧
      (s.chip.emAt sl (s.chip.winIn src (emWin sl)).index).learned = false) ∧
    (s.chip.judge src (s.chip.emAt sl (s.chip.winIn src (emWin sl)).index).validity ⟨(s.chip.winIn src (emWin sl)).state / 128 % 2 = 1,
      bits (s.chip.winIn src (emWin sl)).data 31 16, bits (s.chip.winIn src (emWin sl)).data 15 0⟩ (bits (s.chip.emAt sl (s.chip.winIn src
      (emWin sl)).index).body 255 32 == bits (if (s.chip.emAt sl (s.chip.winIn src (emWin sl)).index).pair =
      2 then putBits (s.chip.winIn src (emWin sl)).data 95 32 0 else (s.chip.winIn src (emWin sl)).data) 255 32) = .refuse r) ∧
    (1 ≤ r ∧ r ≤ 4) := ⟨st fun c =>
      { ((((tables c).setReg (emWin 0) 0x40000).put (emWin 0 + 4) R.WIN_CMD_state 0x80).put (emWin 0 + 8) R.WIN_STATUS_seq 3).setWinData (emWin 0) (BitVec.ofNat 256 (5 * 2 ^ 96 + 6 * 2 ^ 32 + 9)) with em := [(0, { entries := [(0x40000, Witness.entry 5 6 0x80)], seqs := [(0x40000, 3)] })] },
      .pf, 0, 3, by decide +kernel⟩

theorem wit_ExactMatchWindowWrites_10 : ∃ (s : State) (src : Source) (sl : Nat), 
    (sl < 8) ∧
    (s.mayGo src (emWin sl) = true) ∧
    (s.chip.emIndexOk sl (s.chip.winIn src (emWin sl)).index = false ∨
      (s.chip.winIn src (emWin sl)).seq ≠ s.chip.emSeq sl (s.chip.winIn src (emWin sl)).index ∨
      ((s.chip.winIn src (emWin sl)).state / 128 % 2 = 1 ∧ (s.chip.emAt sl (s.chip.winIn src (emWin sl)).index).valid = false) ∨
      ((s.chip.emAt sl (s.chip.winIn src (emWin sl)).index).valid = true ∧
      (s.chip.emAt sl (s.chip.winIn src (emWin sl)).index).learned = true)) :=
      ⟨st fun c => { ((((tables c).setReg (emWin 0) 0x40000).put (emWin 0 + 4) R.WIN_CMD_state 0x80).put (emWin 0 + 8) R.WIN_STATUS_seq 3).setWinData (emWin 0) 9 with em := [(0, { entries := [(0x40000, Witness.entry 5 6 0x90)], seqs := [(0x40000, 3)] })] },
      .pf, 0, by decide +kernel⟩

theorem wit_ExactMatchWindowWrites_11 : ∃ (s : State) (src : Source) (sl i : Nat) (e : EmEntry), 
    (sl < 8) ∧
    (s.mayGo src (emWin sl) = true) ∧
    ((s.chip.sliceMates sl).Nodup ∧ sl ∈ s.chip.sliceMates sl) ∧
    (s.chip.learnOpOk sl (bits (s.chip.winIn src (emWin sl)).data 255 96) = true) ∧
    (s.chip.emVersioned sl false (bits (s.chip.winIn src (emWin sl)).data 255 96) s.chip.newest = none ∧
      s.chip.emLearned sl (bits (s.chip.winIn src (emWin sl)).data 255 96) = none) ∧
    (s.chip.emSpot sl (bits (s.chip.winIn src (emWin sl)).data 255 96) = some i) ∧
    (e = learnedEntry (bits (s.chip.winIn src (emWin sl)).data 255 96) (s.chip.learnResult sl (bits (s.chip.winIn src (emWin sl)).data 91
      72)) ((s.chip.winIn src (emWin sl)).state / 8 % 2 = 1)) :=
      ⟨st fun c => { ((((tables c).put (A.slice 0) R.LEARN_CTRL_enable 1).put (A.slice 0) R.LEARN_CTRL_bridge_kind 0).setWinData (emWin 0) (BitVec.ofNat 256 (5 * 2 ^ 96 + 6 * 2 ^ 72))) with em := [(0, { bd := [(0, 0xC0000000)] })] },
      .pf, 0, (((tables Witness.chip).emSpot 0 5).getD 0), learnedEntry 5 ((tables Witness.chip).learnResult 0 6) false, by decide +kernel⟩

theorem wit_ExactMatchWindowWrites_12 : ∃ (s : State) (src : Source) (sl i : Nat), 
    (sl < 8) ∧
    (s.mayGo src (emWin sl) = true) ∧
    ((s.chip.sliceMates sl).Nodup ∧ sl ∈ s.chip.sliceMates sl) ∧
    (s.chip.learnOpOk sl (bits (s.chip.winIn src (emWin sl)).data 255 96) = true) ∧
    (s.chip.emVersioned sl false (bits (s.chip.winIn src (emWin sl)).data 255 96) s.chip.newest = none ∧
      s.chip.emLearned sl (bits (s.chip.winIn src (emWin sl)).data 255 96) = some i) ∧
    (nbits (s.chip.emAt sl i).result 59 40 ≠ bits (s.chip.winIn src (emWin sl)).data 91 72 ∧ (s.chip.emAt sl i).static_ = false ∧
      s.chip.get (A.slice (s.chip.emHome sl)) R.LEARN_CTRL_move_enable = 1) :=
      ⟨st fun c => { ((((tables c).put (A.slice 0) R.LEARN_CTRL_enable 1).put (A.slice 0) R.LEARN_CTRL_bridge_kind 0).setWinData (emWin 0) (BitVec.ofNat 256 (5 * 2 ^ 96 + 6 * 2 ^ 72))).put (A.slice 0) R.LEARN_CTRL_move_enable 1 with em := [(0, { bd := [(0, 0xC0000000)], entries := [(0x40000, Witness.entry 5 7 0x90)] })] },
      .pf, 0, 0x40000, by decide +kernel⟩

theorem wit_ExactMatchWindowWrites_13 : ∃ (s : State) (src : Source) (sl : Nat), 
    (sl < 8) ∧
    (s.mayGo src (emWin sl) = true) ∧
    (s.chip.learnOpOk sl (bits (s.chip.winIn src (emWin sl)).data 255 96) = true) ∧
    ((s.chip.emVersioned sl false (bits (s.chip.winIn src (emWin sl)).data 255 96) s.chip.newest).isSome = true ∨
      (s.chip.emLearned sl (bits (s.chip.winIn src (emWin sl)).data 255 96)).any (fun i => nbits (s.chip.emAt sl i).result 59 40 ==
      bits (s.chip.winIn src (emWin sl)).data 91 72 || (s.chip.emAt sl i).static_) = true) :=
      ⟨st fun c => { ((((tables c).put (A.slice 0) R.LEARN_CTRL_enable 1).put (A.slice 0) R.LEARN_CTRL_bridge_kind 0).setWinData (emWin 0) (BitVec.ofNat 256 (5 * 2 ^ 96 + 6 * 2 ^ 72))) with em := [(0, { bd := [(0, 0xC0000000)], entries := [(0x40000, Witness.entry 5 (6 * 2 ^ 40) 0x90)] })] },
      .pf, 0, by decide +kernel⟩

theorem wit_ExactMatchWindowWrites_14 : ∃ (s : State) (src : Source) (sl : Nat), 
    (sl < 8) ∧
    (s.mayGo src (emWin sl) = true) ∧
    (s.chip.learnOpOk sl (bits (s.chip.winIn src (emWin sl)).data 255 96) = false) := ⟨st id, .pf, 0, by decide +kernel⟩

theorem wit_ExactMatchWindowWrites_15 : ∃ (s : State) (src : Source) (sl i : Nat), 
    (sl < 8) ∧
    (s.mayGo src (emWin sl) = true) ∧
    ((s.chip.sliceMates sl).Nodup ∧ sl ∈ s.chip.sliceMates sl) ∧
    (s.chip.emLearned sl (bits (s.chip.winIn src (emWin sl)).data 255 96) = some i) :=
      ⟨st fun c => { (tables c).setWinData (emWin 0) (Witness.entry 5 0 0).body with em := [(0, { entries := [(0x40000, Witness.entry 5 6 0x90)] })] },
      .pf, 0, 0x40000, by decide +kernel⟩

theorem wit_ExactMatchWindowWrites_16 : ∃ (s : State) (src : Source) (sl : Nat), 
    (sl < 8) ∧
    (s.mayGo src (emWin sl) = true) ∧
    (s.chip.emLearned sl (bits (s.chip.winIn src (emWin sl)).data 255 96) = none) := ⟨st id, .pf, 0, by decide +kernel⟩

theorem wit_ExactMatchWindowWrites_17 : ∃ (s : State) (src : Source) (sl : Nat), 
    (sl < 8) ∧
    (s.mayGo src (emWin sl) = true) ∧
    (((s.chip.emTab sl).entries.all fun x => !(x.2.valid && x.2.learned && nbits x.2.result 57 51 ==
      bits (s.chip.winIn src (emWin sl)).data 6 0)) = true) := ⟨st fun c => (tables c).setWinData (emWin 0) 0x80000003, .pf, 0,
      by decide +kernel⟩

theorem wit_ExactMatchWindowWrites_18 : ∃ (s : State) (src : Source) (sl i : Nat) (e : EmEntry), 
    (sl < 8) ∧
    (s.mayGo src (emWin sl) = true) ∧
    ((s.chip.sliceMates sl).Nodup ∧ sl ∈ s.chip.sliceMates sl) ∧
    ((s.chip.emTab sl).entries = [(i, e)]) ∧
    (e.valid = true ∧ e.learned = true ∧ nbits e.result 57 51 = bits (s.chip.winIn src (emWin sl)).data 6 0) :=
      ⟨st fun c => { (tables c).setWinData (emWin 0) 0x80000003 with em := [(0, { entries := [(0x40000, Witness.entry 5 (3 * 2 ^ 51) 0x90)] })] },
      .pf, 0, 0x40000, Witness.entry 5 (3 * 2 ^ 51) 0x90, by decide +kernel⟩

theorem wit_ExactMatchWindowWrites_19 : ∃ (s : State) (sl i f : Nat), 
    (s.runs .core = true) ∧
    (sl < 8) ∧
    (s.chip.emEngine sl = true) ∧
    ((s.chip.sliceMates sl).Nodup ∧ sl ∈ s.chip.sliceMates sl) ∧
    (emOvf i = true ∧ (s.chip.emAt sl i).valid = true ∧ (s.chip.emAt sl i).pair = 0) ∧
    (s.chip.emSpot sl (s.chip.emAt sl i).key = some f) ∧
    (f < 0x40000) := ⟨st fun c => { tables c with em := [(0, { entries := [(0x40000, Witness.entry 5 6 0x80)] })] }, 0, 0x40000, 2184,
      by decide +kernel⟩

theorem wit_ExactMatchWindowWrites_20 : ∃ (s : State) (sl i : Nat), 
    (s.runs .core = true) ∧
    (emOvf i = false ∨ (s.chip.emAt sl i).valid = false) := ⟨st id, 0, 0x40000, by decide +kernel⟩

theorem wit_LearningAndAgeing_1 : ∃ (s : State) (sl id : Nat) (r : LearnReq), 
    (s.runs .core = true) ∧
    (s.chip.portersRun sl = true) ∧
    ((s.chip.tail id).learn = some r ∧ (s.chip.tail id).slice = sl) ∧
    ((s.chip.tail id).good = some true) ∧
    (r.key ∉ (s.chip.emTab (s.chip.emHome sl)).recent ∧ (s.chip.emTab (s.chip.emHome sl)).recent.length < 64 ∧
      (s.chip.emTab (s.chip.emHome sl)).queue.length < 64) ∧
    (s.chip.get (A.slice (s.chip.emHome sl)) R.LEARN_LIMIT_per_ms = 0 ∨
      (if (s.chip.emTab (s.chip.emHome sl)).window = s.chip.now / 1000000 then (s.chip.emTab (s.chip.emHome sl)).accepted else 0) <
      s.chip.get (A.slice (s.chip.emHome sl)) R.LEARN_LIMIT_per_ms) :=
      ⟨st fun c => { tables c with tails := [(9, { slice := 0, learn := some { key := 5, dest := 2048 }, good := some true })] }, 0, 9,
      { key := 5, dest := 2048 }, by decide +kernel⟩

theorem wit_LearningAndAgeing_2 : ∃ (s : State) (sl id : Nat) (r : LearnReq), 
    (s.runs .core = true) ∧
    (s.chip.portersRun sl = true) ∧
    ((s.chip.tail id).learn = some r ∧ (s.chip.tail id).slice = sl) ∧
    ((s.chip.tail id).good.isSome = true) ∧
    ((s.chip.tail id).good = some false ∨ r.key ∈ (s.chip.emTab (s.chip.emHome sl)).recent ∨
      (s.chip.get (A.slice (s.chip.emHome sl)) R.LEARN_LIMIT_per_ms ≠ 0 ∧
      s.chip.get (A.slice (s.chip.emHome sl)) R.LEARN_LIMIT_per_ms ≤ (if (s.chip.emTab (s.chip.emHome sl)).window =
      s.chip.now / 1000000 then (s.chip.emTab (s.chip.emHome sl)).accepted else 0)) ∨
      64 ≤ (s.chip.emTab (s.chip.emHome sl)).queue.length) :=
      ⟨st fun c => { tables c with tails := [(9, { slice := 0, learn := some { key := 5, dest := 2048 }, good := some true })], em := [(0, { recent := [5] })] },
      0, 9, { key := 5, dest := 2048 }, by decide +kernel⟩

theorem wit_LearningAndAgeing_3 : ∃ (s : State) (sl f : Nat) (q : LearnReq) (l : List LearnReq), 
    (s.runs .core = true) ∧
    (sl < 8) ∧
    (s.chip.emEngine sl = true) ∧
    ((s.chip.sliceMates sl).Nodup ∧ sl ∈ s.chip.sliceMates sl) ∧
    ((s.chip.emTab sl).queue = q :: l) ∧
    (s.chip.emLearned sl q.key = none ∧ s.chip.emVersioned sl false q.key s.chip.newest = none) ∧
    (s.chip.emSpot sl q.key = some f) := ⟨st fun c =>
      { tables c with em := [(0, { queue := [{ key := 5, dest := 2048 }], recent := [5] })] }, 0, 2184, { key := 5, dest := 2048 }, [],
      by decide +kernel⟩

theorem wit_LearningAndAgeing_4 : ∃ (s : State) (sl i : Nat) (q : LearnReq) (l : List LearnReq), 
    (s.runs .core = true) ∧
    (sl < 8) ∧
    (s.chip.emEngine sl = true) ∧
    ((s.chip.sliceMates sl).Nodup ∧ sl ∈ s.chip.sliceMates sl) ∧
    ((s.chip.emTab sl).queue = q :: l) ∧
    (s.chip.emLearned sl q.key = some i) ∧
    ((s.chip.emAt sl i).static_ = false ∧ nbits (s.chip.emAt sl i).result 59 40 ≠ q.dest ∧
      s.chip.get (A.slice (s.chip.emHome sl)) R.LEARN_CTRL_move_enable = 1) :=
      ⟨st fun c => { (tables c).put (A.slice 0) R.LEARN_CTRL_move_enable 1 with em := [(0, { entries := [(0x40000, Witness.entry 5 6 0x90)], queue := [{ key := 5, dest := 2048 }], recent := [5] })] },
      0, 0x40000, { key := 5, dest := 2048 }, [], by decide +kernel⟩

theorem wit_LearningAndAgeing_5 : ∃ (s : State) (sl i : Nat) (q : LearnReq) (l : List LearnReq), 
    (s.runs .core = true) ∧
    (sl < 8) ∧
    (s.chip.emEngine sl = true) ∧
    ((s.chip.emTab sl).queue = q :: l) ∧
    (s.chip.emLearned sl q.key = some i) ∧
    ((s.chip.emAt sl i).static_ = true ∨ nbits (s.chip.emAt sl i).result 59 40 = q.dest ∨
      s.chip.get (A.slice (s.chip.emHome sl)) R.LEARN_CTRL_move_enable = 0) :=
      ⟨st fun c => { tables c with em := [(0, { entries := [(0x40000, Witness.entry 5 6 0x98)], queue := [{ key := 5, dest := 2048 }], recent := [5] })] },
      0, 0x40000, { key := 5, dest := 2048 }, [], by decide +kernel⟩

theorem wit_LearningAndAgeing_6 : ∃ (s : State) (sl : Nat), 
    (s.runs .core = true) ∧
    (s.chip.emEngine sl = false ∨ (s.chip.emTab sl).queue = []) := ⟨st id, 0, by decide +kernel⟩

theorem wit_LearningAndAgeing_7 : ∃ (s : State) (sl : Nat), 
    (s.runs .core = true) ∧
    (s.chip.emEngine sl = false ∨ (s.chip.emTab sl).queue = []) := ⟨st id, 0, by decide +kernel⟩

theorem wit_LearningAndAgeing_8 : ∃ (s : State) (sl i : Nat), 
    (s.runs .core = true) ∧
    (sl < 8) ∧
    (s.chip.emEngine sl = true) ∧
    ((s.chip.sliceMates sl).Nodup ∧ sl ∈ s.chip.sliceMates sl) ∧
    ((s.chip.emAt sl i).valid = true ∧ (s.chip.emAt sl i).learned = true ∧ (s.chip.emAt sl i).static_ = false) ∧
    (s.chip.get (A.slice sl) R.AGE_CTRL_enable = 1) ∧
    (((s.chip.emTab sl).visited.look i).all (fun x => decide (x + s.chip.get (A.slice sl) R.AGE_CTRL_pass_s * 1000000 * 1000 ≤ s.chip.now))
      = true) ∧
    (((s.chip.sliceMates sl).any fun m => (s.chip.emAt m i).hit) = true ∨
      (s.chip.emAt sl i).age + 1 < s.chip.get (A.slice sl) R.AGE_CTRL_limit) :=
      ⟨st fun c => { ((tables c).put (A.slice 0) R.AGE_CTRL_enable 1).put (A.slice 0) R.AGE_CTRL_limit 3 with em := [(0, { entries := [(0x40000, Witness.entry 5 6 0x91)] })] },
      0, 0x40000, by decide +kernel⟩

theorem wit_LearningAndAgeing_9 : ∃ (s : State) (sl i : Nat), 
    (s.runs .core = true) ∧
    (sl < 8) ∧
    (s.chip.emEngine sl = true) ∧
    ((s.chip.sliceMates sl).Nodup ∧ sl ∈ s.chip.sliceMates sl) ∧
    ((s.chip.emAt sl i).valid = true ∧ (s.chip.emAt sl i).learned = true ∧ (s.chip.emAt sl i).static_ = false) ∧
    (s.chip.get (A.slice sl) R.AGE_CTRL_enable = 1) ∧
    (((s.chip.emTab sl).visited.look i).all (fun x => decide (x + s.chip.get (A.slice sl) R.AGE_CTRL_pass_s * 1000000 * 1000 ≤ s.chip.now))
      = true) ∧
    (((s.chip.sliceMates sl).any fun m => (s.chip.emAt m i).hit) = false ∧
      s.chip.get (A.slice sl) R.AGE_CTRL_limit ≤ (s.chip.emAt sl i).age + 1) :=
      ⟨st fun c => { ((tables c).put (A.slice 0) R.AGE_CTRL_enable 1).put (A.slice 0) R.AGE_CTRL_limit 3 with em := [(0, { entries := [(0x40000, Witness.entry 5 6 0x92)] })] },
      0, 0x40000, by decide +kernel⟩

theorem wit_LearningAndAgeing_10 : ∃ (s : State) (sl i : Nat), 
    (s.runs .core = true) ∧
    (s.chip.emEngine sl = false ∨ s.chip.get (A.slice sl) R.AGE_CTRL_enable = 0 ∨ (s.chip.emAt sl i).valid = false ∨
      (s.chip.emAt sl i).learned = false ∨ (s.chip.emAt sl i).static_ = true) := ⟨st id, 0, 0x40000, by decide +kernel⟩

theorem wit_LookupsOfAFrame_1 : ∃ (s : State) (sl id : Nat) (l : List (Nat × Key)) (f : Frame), 
    (s.runs .core = true) ∧
    (s.chip.portersRun sl = true ∧ s.chip.flowTurn id [.pipes] = true ∧ s.chip.lookupUp sl id = true) ∧
    (s.chip.frames.look id = some f ∧ f.slice = sl ∧ f.stage = .pipes) ∧
    (Wb.keyValid f.wb = 0) := ⟨st fun c => { tables c with frames := [(9, some (looking .pipes 0 []))] }, 0, 9, [(5, 1)],
      looking .pipes 0 [], by decide +kernel⟩

theorem wit_LookupsOfAFrame_2 : ∃ (s : State) (sl id b i : Nat) (f : Frame), 
    (s.runs .core = true) ∧
    (s.chip.portersRun sl = true ∧ s.chip.flowTurn id [.pipes] = true ∧ s.chip.lookupUp sl id = true) ∧
    (s.chip.frames.look id = some f ∧ f.slice = sl ∧ f.stage = .pipes) ∧
    (b < 3 ∧ Wb.keyValid f.wb = 2 ^ b) ∧
    (s.chip.get (A.slice (s.chip.emHome sl)) R.LEARN_CTRL_sa_buffer ≠ b) ∧
    (s.chip.emProbePoison sl false (f.emKey b) = none) ∧
    (s.chip.emMatches sl false (f.emKey b) (s.chip.frameAccord f) = [i]) ∧
    (nbits (s.chip.emAt sl i).result 63 60 ≠ 0xE) := ⟨st fun c =>
      { (tables c).put (A.slice 0) R.LEARN_CTRL_sa_buffer 3 with frames := [(9, some { looking .pipes 0 [(1, 5)] with wb := Wb.put 0 6 31 24 2 })], em := [(0, { entries := [(0x40000, Witness.entry 5 6 0x80)] })] },
      0, 9, 1, 0x40000, { looking .pipes 0 [(1, 5)] with wb := Wb.put 0 6 31 24 2 }, by decide +kernel⟩

theorem wit_LookupsOfAFrame_3 : ∃ (s : State) (sl id b : Nat) (f : Frame), 
    (s.runs .core = true) ∧
    (s.chip.portersRun sl = true ∧ s.chip.flowTurn id [.pipes] = true ∧ s.chip.lookupUp sl id = true) ∧
    (s.chip.frames.look id = some f ∧ f.slice = sl ∧ f.stage = .pipes) ∧
    (b < 3 ∧ Wb.keyValid f.wb = 2 ^ b) ∧
    (s.chip.get (A.slice (s.chip.emHome sl)) R.LEARN_CTRL_sa_buffer ≠ b) ∧
    (s.chip.emProbePoison sl false (f.emKey b) = none) ∧
    (s.chip.emMatches sl false (f.emKey b) (s.chip.frameAccord f) = []) :=
      ⟨st fun c => { (tables c).put (A.slice 0) R.LEARN_CTRL_sa_buffer 3 with frames := [(9, some { looking .pipes 0 [(1, 5)] with wb := Wb.put 0 6 31 24 2 })] },
      0, 9, 1, { looking .pipes 0 [(1, 5)] with wb := Wb.put 0 6 31 24 2 }, by decide +kernel⟩

theorem wit_LookupsOfAFrame_4 : ∃ (s : State) (sl id b i j key : Nat) (f : Frame), 
    (s.runs .core = true) ∧
    (s.chip.portersRun sl = true ∧ s.chip.flowTurn id [.pipes] = true ∧ s.chip.lookupUp sl id = true) ∧
    (s.chip.frames.look id = some f ∧ f.slice = sl ∧ f.stage = .pipes) ∧
    (b < 3 ∧ Wb.keyValid f.wb = 2 ^ b) ∧
    (s.chip.get (A.slice (s.chip.emHome sl)) R.LEARN_CTRL_sa_buffer ≠ b) ∧
    (s.chip.emProbePoison sl false (f.emKey b) = none) ∧
    (s.chip.emMatches sl false (f.emKey b) (s.chip.frameAccord f) = [i]) ∧
    (nbits (s.chip.emAt sl i).result 63 60 = 0xE) ∧
    (key = nbits (s.chip.emAt sl i).result 59 56 * 2 ^ 156 + nbits (s.chip.emAt sl i).result 55 0 * 2 ^ 100) ∧
    (s.chip.emProbePoison sl false key = none) ∧
    (s.chip.emMatches sl false key (s.chip.frameAccord f) = [j]) :=
      ⟨st fun c => { (tables c).put (A.slice 0) R.LEARN_CTRL_sa_buffer 3 with frames := [(9, some { looking .pipes 0 [(1, 5)] with wb := Wb.put 0 6 31 24 2 })], em := [(0, { entries := [(0x40000, Witness.entry 5 (0xE * 2 ^ 60) 0x80), (0x40001, Witness.entry 0 6 0x80)] })] },
      0, 9, 1, 0x40000, 0x40001, 0, { looking .pipes 0 [(1, 5)] with wb := Wb.put 0 6 31 24 2 }, by decide +kernel⟩

theorem wit_LookupsOfAFrame_5 : ∃ (s : State) (sl id b i : Nat) (f : Frame), 
    (s.runs .core = true) ∧
    (s.chip.portersRun sl = true ∧ s.chip.flowTurn id [.pipes] = true ∧ s.chip.lookupUp sl id = true) ∧
    (s.chip.frames.look id = some f ∧ f.slice = sl ∧ f.stage = .pipes) ∧
    (b < 2 ∧ Wb.keyValid f.wb = 2 ^ b) ∧
    (s.chip.get (A.slice (s.chip.emHome sl)) R.LEARN_CTRL_sa_buffer = b ∧ s.chip.get (A.slice (s.chip.emHome sl)) R.LEARN_CTRL_enable = 0) ∧
    (nbits (f.emKey b) 159 156 = s.chip.get (A.slice (s.chip.emHome sl)) R.LEARN_CTRL_bridge_kind) ∧
    (s.chip.emProbePoison sl false (f.emKey b) = none) ∧
    (s.chip.emMatches sl false (f.emKey b) (s.chip.frameAccord f) = [i]) ∧
    (nbits (s.chip.emAt sl i).result 63 60 ≠ 0xE) := ⟨st fun c =>
      { ((tables c).put (A.slice 0) R.LEARN_CTRL_sa_buffer 1).put (A.slice 0) R.LEARN_CTRL_bridge_kind 0 with frames := [(9, some { looking .pipes 0 [(1, 5)] with wb := Wb.put 0 6 31 24 2 })], em := [(0, { entries := [(0x40000, Witness.entry 5 6 0x80)] })] },
      0, 9, 1, 0x40000, { looking .pipes 0 [(1, 5)] with wb := Wb.put 0 6 31 24 2 }, by decide +kernel⟩

theorem wit_LookupsOfAFrame_6 : ∃ (s : State) (sl id b i : Nat) (f : Frame), 
    (s.runs .core = true) ∧
    (s.chip.portersRun sl = true ∧ s.chip.flowTurn id [.pipes] = true ∧ s.chip.lookupUp sl id = true) ∧
    (s.chip.frames.look id = some f ∧ f.slice = sl ∧ f.stage = .pipes) ∧
    (b < 3 ∧ Wb.keyValid f.wb = 2 ^ b) ∧
    (s.chip.emProbePoison sl false (f.emKey b) = some i) := ⟨st fun c =>
      { (tables c).put (A.slice 0) R.LEARN_CTRL_sa_buffer 3 with frames := [(9, some { looking .pipes 0 [(1, 5)] with wb := Wb.put 0 6 31 24 2 })], mem := [(U.sliceBlk 0 0x49, { poison := [3] })] },
      0, 9, 1, 0x40000, { looking .pipes 0 [(1, 5)] with wb := Wb.put 0 6 31 24 2 }, by decide +kernel⟩

theorem wit_LookupsOfAFrame_7 : ∃ (s : State) (sl id v n : Nat) (l d : List Nat) (p : Bool) (f : Frame), 
    (s.runs .core = true) ∧
    (s.chip.portersRun sl = true ∧ s.chip.flowTurn id [.pipes] = true ∧ s.chip.lookupUp sl id = true) ∧
    (s.chip.frames.look id = some f ∧ f.slice = sl ∧ f.stage = .pipes) ∧
    (Wb.keyValid f.wb = 8 ∧ s.chip.lpmBlocked sl f (s.chip.frameAccord f) = false) ∧
    (tcamBest (s.chip.tcamFound sl f 2 (s.chip.frameAccord f) []) = none) ∧
    (f.lpmHeld = false ∧ f.searches = []) ∧
    (s.chip.lpmPlan (sl / 4) f = some (p, l)) ∧
    (s.chip.lpmWalk (sl / 4) (Chip.lpmV6 f) (Chip.lpmCtx f) (Chip.lpmAddr f) (s.chip.frameAccord f) (s.chip.lpmBudget (sl / 4)) l = (.hit v,
      n, d)) := ⟨lpmSt 15 0, 0, 9, 66, 2, [16, 8], [], false, lpmFrame, by decide +kernel⟩

theorem wit_LookupsOfAFrame_8 : ∃ (s : State) (sl id n : Nat) (l d : List Nat) (p : Bool) (f : Frame), 
    (s.runs .core = true) ∧
    (s.chip.portersRun sl = true ∧ s.chip.flowTurn id [.pipes] = true ∧ s.chip.lookupUp sl id = true) ∧
    (s.chip.frames.look id = some f ∧ f.slice = sl ∧ f.stage = .pipes) ∧
    (Wb.keyValid f.wb = 8 ∧ s.chip.lpmBlocked sl f (s.chip.frameAccord f) = false) ∧
    (tcamBest (s.chip.tcamFound sl f 2 (s.chip.frameAccord f) []) = none) ∧
    (f.lpmHeld = false ∧ f.searches = [] ∧ f.hits = []) ∧
    (s.chip.lpmPlan (sl / 4) f = some (p, l)) ∧
    (s.chip.lpmWalk (sl / 4) (Chip.lpmV6 f) (Chip.lpmCtx f) (Chip.lpmAddr f) (s.chip.frameAccord f) (s.chip.lpmBudget (sl / 4)) l = (.miss,
      n, d)) := ⟨lpmWith fun c => c.setLpm 0 { c.lpmTab 0 with slots := [] }, 0, 9, 2, [16, 8], [], false, lpmFrame, by decide +kernel⟩

theorem wit_LookupsOfAFrame_9 : ∃ (s : State) (sl id n : Nat) (l m d : List Nat) (p : Bool) (f : Frame), 
    (s.runs .core = true) ∧
    (s.chip.portersRun sl = true ∧ s.chip.flowTurn id [.pipes] = true ∧ s.chip.lookupUp sl id = true) ∧
    (s.chip.frames.look id = some f ∧ f.slice = sl ∧ f.stage = .pipes) ∧
    (Wb.keyValid f.wb = 8 ∧ s.chip.lpmBlocked sl f (s.chip.frameAccord f) = false) ∧
    (tcamBest (s.chip.tcamFound sl f 2 (s.chip.frameAccord f) []) = none) ∧
    (f.searches = []) ∧
    (s.chip.lpmPlan (sl / 4) f = some (p, l)) ∧
    (s.chip.lpmWalk (sl / 4) (Chip.lpmV6 f) (Chip.lpmCtx f) (Chip.lpmAddr f) (s.chip.frameAccord f) (s.chip.lpmBudget (sl / 4)) l =
      (.more m, n, d)) := ⟨lpmSt 1 0, 0, 9, 1, [16, 8], [8], [], false, lpmFrame, by decide +kernel⟩

theorem wit_LookupsOfAFrame_10 : ∃ (s : State) (sl id i n : Nat) (l d : List Nat) (p : Bool) (f : Frame), 
    (s.runs .core = true) ∧
    (s.chip.portersRun sl = true ∧ s.chip.flowTurn id [.pipes] = true ∧ s.chip.lookupUp sl id = true) ∧
    (s.chip.frames.look id = some f ∧ f.slice = sl ∧ f.stage = .pipes) ∧
    (Wb.keyValid f.wb = 8 ∧ s.chip.lpmBlocked sl f (s.chip.frameAccord f) = false) ∧
    (s.chip.lpmPlan (sl / 4) f = some (p, l)) ∧
    (s.chip.lpmWalk (sl / 4) (Chip.lpmV6 f) (Chip.lpmCtx f) (Chip.lpmAddr f) (s.chip.frameAccord f) (s.chip.lpmBudget (sl / 4)) l =
      (.poison i, n, d)) := ⟨lpmWith fun c =>
      { c with mem := [((c.lpmWord 0 (Chip.lpmIndex 0 (c.lpmLine 0 0 false 16 0 0x0A010000))).1, { poison := [(c.lpmWord 0 (Chip.lpmIndex 0 (c.lpmLine 0 0 false 16 0 0x0A010000))).2] })] },
      0, 9, ((lpmSt 4 0).chip.lpmLine 0 0 false 16 0 0x0A010000), 1, [16, 8], [], false, lpmFrame, by decide +kernel⟩

theorem wit_LookupsOfAFrame_11 : ∃ (s : State) (sl id : Nat) (f : Frame), 
    (s.runs .core = true) ∧
    (s.chip.portersRun sl = true ∧ s.chip.flowTurn id [.pipes] = true ∧ s.chip.lookupUp sl id = true) ∧
    (s.chip.frames.look id = some f ∧ f.slice = sl ∧ f.stage = .pipes) ∧
    (s.chip.lpmBlocked sl f (s.chip.frameAccord f) = true) := ⟨lpmSt 1 512, 0, 9, lpmFrame, by decide +kernel⟩

theorem wit_LookupsOfAFrame_12 : ∃ (s : State) (sl id : Nat) (l : List (Nat × Key)), 
    (s.runs .core = true) ∧
    (s.chip.portersRun sl = false ∨ s.chip.frameAt sl id .pipes = false ∨ s.chip.flowTurn id [.pipes] = false ∨
      s.chip.lookupUp sl id = false) := ⟨st fun c =>
      { tables c with frames := [(9, some (looking .pipes 0 [])), (8, some (looking .pipes 0 []))] }, 0, 9, [], by decide +kernel⟩

theorem wit_LookupsOfAFrame_13 : ∃ (s : State) (h v n : Nat) (x : HeldLookup) (l : List HeldLookup) (d : List Nat) (f : Frame), 
    (s.runs .core = true) ∧
    (h < 2 ∧ s.chip.alive (U.half h) = true ∧ s.chip.inReset (U.halfBlk h 0x10) = false) ∧
    ((s.chip.lpmTab h).held = x :: l ∧ x.slice / 4 = h) ∧
    (s.chip.frames.look x.frame = some f ∧ f.searches = []) ∧
    (s.chip.lpmWalk h (Chip.lpmV6 f) (Chip.lpmCtx f) (Chip.lpmAddr f) (s.chip.frameAccord f) 1 x.lengths = (.hit v, n, d)) :=
      ⟨{ lpmSt 1 0 with chip := { (lpmSt 1 0).chip with frames := [(9, some { lpmFrame with stage := .lookups, lpmHeld := true })], lpm := [(0, { (lpmSt 1 0).chip.lpmTab 0 with held := [{ slice := 0, frame := 9, lengths := [8] }] })] } },
      0, 66, 1, { slice := 0, frame := 9, lengths := [8] }, [], [], { lpmFrame with stage := .lookups, lpmHeld := true }, by decide +kernel⟩

theorem wit_LookupsOfAFrame_14 : ∃ (s : State) (h n : Nat) (x : HeldLookup) (l : List HeldLookup) (m d : List Nat), 
    (s.runs .core = true) ∧
    (h < 2 ∧ s.chip.alive (U.half h) = true ∧ s.chip.inReset (U.halfBlk h 0x10) = false) ∧
    ((s.chip.lpmTab h).held = x :: l) ∧
    (s.chip.lpmWalk h (Chip.lpmV6 (s.chip.fr x.frame)) (Chip.lpmCtx (s.chip.fr x.frame)) (Chip.lpmAddr (s.chip.fr x.frame))
      (s.chip.frameAccord (s.chip.fr x.frame)) 1 x.lengths = (.more m, n, d)) :=
      ⟨{ lpmSt 1 0 with chip := { (lpmSt 1 0).chip with frames := [(9, some { lpmFrame with stage := .lookups, lpmHeld := true })], lpm := [(0, { (lpmSt 1 0).chip.lpmTab 0 with held := [{ slice := 0, frame := 9, lengths := [16, 8] }] })] } },
      0, 1, { slice := 0, frame := 9, lengths := [16, 8] }, [], [8], [], by decide +kernel⟩

theorem wit_LookupsOfAFrame_15 : ∃ (s : State) (sl id : Nat) (f : Frame) (x : TcamSearch), 
    (s.runs .core = true) ∧
    (s.chip.frames.look id = some f ∧ f.slice = sl ∧ f.stage = .lookups) ∧
    (s.chip.portersRun sl = true ∧ s.chip.tcamUp sl x.use = true) ∧
    (f.searches = [x] ∧ x.use = 0) ∧
    (tcamBest (s.chip.tcamFound sl f 0 (s.chip.frameAccord f) x.excluded) = none) :=
      ⟨st fun c => { tables c with frames := [(9, some { looking .lookups 0 [] with searches := [{ use := 0, excluded := [], falseHits := 0 }] })] },
      0, 9, { looking .lookups 0 [] with searches := [{ use := 0, excluded := [], falseHits := 0 }] },
      { use := 0, excluded := [], falseHits := 0 }, by decide +kernel⟩

theorem wit_LookupsOfAFrame_16 : ∃ (s : State) (sl id i : Nat) (f : Frame) (x : TcamSearch) (e : TcamEntry), 
    (s.runs .core = true) ∧
    (s.chip.frames.look id = some f ∧ f.slice = sl ∧ f.stage = .lookups) ∧
    (s.chip.portersRun sl = true ∧ s.chip.tcamUp sl 1 = true) ∧
    (f.searches = [x] ∧ x.use = 1) ∧
    (tcamBest (s.chip.tcamFound sl f 1 (s.chip.frameAccord f) x.excluded) = some (i, e) ∧ e.pair = 0) ∧
    (s.chip.tcamCopyPoisoned sl i = false) ∧
    (s.chip.tcamAgrees sl f 1 i = true) := ⟨tcamSt, 0, 9, 3, tcamFrame, { use := 1, excluded := [2], falseHits := 1 }, tcamEntry,
      by decide +kernel⟩

theorem wit_LookupsOfAFrame_17 : ∃ (s : State) (sl id i : Nat) (f : Frame) (x : TcamSearch) (e : TcamEntry), 
    (s.runs .core = true) ∧
    (s.chip.frames.look id = some f ∧ f.slice = sl ∧ f.stage = .lookups) ∧
    (s.chip.portersRun sl = true ∧ s.chip.tcamUp sl 1 = true) ∧
    (f.searches = [x] ∧ x.use = 1) ∧
    (tcamBest (s.chip.tcamFound sl f 1 (s.chip.frameAccord f) x.excluded) = some (i, e) ∧ e.pair = 0) ∧
    (s.chip.tcamCopyPoisoned sl i = true) := ⟨tcamWith fun c =>
      { c with mem := [(U.sliceBlk 0 0x50, { poison := (List.range 12).map fun j => (tcamWord 3).2 + j })] }, 0, 9, 3, tcamFrame,
      { use := 1, excluded := [2], falseHits := 1 }, tcamEntry, by decide +kernel⟩

theorem wit_LookupsOfAFrame_18 : ∃ (s : State) (sl id i : Nat) (f : Frame) (x : TcamSearch) (e : TcamEntry), 
    (s.runs .core = true) ∧
    (s.chip.frames.look id = some f ∧ f.slice = sl ∧ f.stage = .lookups) ∧
    (s.chip.portersRun sl = true ∧ s.chip.tcamUp sl 1 = true) ∧
    (f.searches = [x] ∧ x.use = 1) ∧
    (tcamBest (s.chip.tcamFound sl f 1 (s.chip.frameAccord f) x.excluded) = some (i, e) ∧ e.pair = 0) ∧
    (s.chip.tcamCopyPoisoned sl i = false) ∧
    (s.chip.tcamAgrees sl f 1 i = false) ∧
    (x.falseHits < 3) := ⟨tcamWith fun c => c.setTcam 0
      { (tcamSt.chip.tcamTab 0) with copies := [(2, tcamEntry), (3, { tcamEntry with value := 6 })] }, 0, 9, 3, tcamFrame,
      { use := 1, excluded := [2], falseHits := 1 }, tcamEntry, by decide +kernel⟩

theorem wit_LookupsOfAFrame_19 : ∃ (s : State) (sl id i : Nat) (f : Frame) (x : TcamSearch) (e : TcamEntry), 
    (s.runs .core = true) ∧
    (s.chip.frames.look id = some f ∧ f.slice = sl ∧ f.stage = .lookups) ∧
    (s.chip.portersRun sl = true ∧ s.chip.tcamUp sl 1 = true) ∧
    (f.searches = [x] ∧ x.use = 1) ∧
    (tcamBest (s.chip.tcamFound sl f 1 (s.chip.frameAccord f) x.excluded) = some (i, e) ∧ e.pair = 0) ∧
    (s.chip.tcamCopyPoisoned sl i = false) ∧
    (s.chip.tcamAgrees sl f 1 i = false) ∧
    (3 ≤ x.falseHits) := ⟨tcamWith fun c =>
      { c.setTcam 0 { (tcamSt.chip.tcamTab 0) with copies := [(2, tcamEntry), (3, { tcamEntry with value := 6 })] } with frames := [(9, some { tcamFrame with searches := [{ use := 1, excluded := [2], falseHits := 3 }] })] },
      0, 9, 3, { tcamFrame with searches := [{ use := 1, excluded := [2], falseHits := 3 }] },
      { use := 1, excluded := [2], falseHits := 3 }, tcamEntry, by decide +kernel⟩

theorem wit_LookupsOfAFrame_20 : ∃ (s : State) (sl i : Nat) (l : List Nat), 
    (s.runs .core = true) ∧
    (s.chip.alive (U.slice sl) = true) ∧
    ((s.chip.tcamTab sl).repairs = i :: l) := ⟨st fun c => { tables c with tcam := [(0, { repairs := [3], copies := [(3, tcamEntry)] })] },
      0, 3, [], by decide +kernel⟩

theorem wit_ResolverGivesTheVerdict_1 : ∃ (s : State) (sl id p sub k : Nat) (f : Frame) (r : Result) (off : Bool), 
    (s.runs .core = true) ∧
    (s.chip.portersRun sl = true ∧ s.chip.flowTurn id [.pipes, .lookups] = true ∧ s.chip.blockUp sl 0x58 = true ∧
      s.chip.blockUp sl 0x68 = true) ∧
    (s.chip.frames.look id = some f ∧ f.slice = sl ∧ f.stage = .lookups) ∧
    (f.lpmHeld = false ∧ f.searches = []) ∧
    (f.slot = some 0 ∧ f.extSub = none ∧ f.ecid = 0) ∧
    (Wb.failReason f.wb = 0) ∧
    (s.chip.extJudge f = (0, none, 0)) ∧
    (s.chip.sourceHit f (s.chip.get (s.chip.profile f) R.RES_PROFILE_acl) = none) ∧
    (s.chip.sourceHit f (s.chip.get (s.chip.profile f) R.RES_PROFILE_qos) = none) ∧
    (s.chip.forwardOf f (s.chip.get (s.chip.profile f) R.RES_PROFILE_fwd_first) = some (some r, 0, .unicast p sub k none off)) ∧
    (r.meter = none ∧ r.cls = none ∧ Chip.mirrorOf [some r] = none) := ⟨resSt, 0, 9, 16, 0, 0, resFrame,
      { code := 4, kind := 2, word := 2 * 2 ^ 36 + 3 * 2 ^ 20, full := 2 * 2 ^ 36 + 3 * 2 ^ 20, bad := false }, false, by decide +kernel⟩

theorem wit_ResolverGivesTheVerdict_2 : ∃ (s : State) (sl id r : Nat) (f : Frame), 
    (s.runs .core = true) ∧
    (s.chip.portersRun sl = true ∧ s.chip.flowTurn id [.pipes, .lookups] = true ∧ s.chip.blockUp sl 0x58 = true ∧
      s.chip.blockUp sl 0x68 = true) ∧
    (s.chip.frames.look id = some f ∧ f.slice = sl ∧ f.stage = .lookups) ∧
    (f.lpmHeld = false ∧ f.searches = []) ∧
    (f.slot = some 0) ∧
    (Wb.failReason f.wb = r ∧ 1 ≤ r ∧ r ≤ 5) ∧
    (bits f.dflt 31 30 = 1) ∧
    (s.chip.puntBacklog sl + f.bytes.length ≤ 65536) := ⟨st fun c =>
      { tables c with frames := [(9, some { { looking .lookups 0 [] with wb := Wb.put 0 5 20 18 2 } with dflt := 0x40000003 })] }, 0, 9, 2,
      { { looking .lookups 0 [] with wb := Wb.put 0 5 20 18 2 } with dflt := 0x40000003 }, by decide +kernel⟩

theorem wit_ResolverGivesTheVerdict_3 : ∃ (s : State) (sl id r : Nat) (f : Frame), 
    (s.runs .core = true) ∧
    (s.chip.portersRun sl = true ∧ s.chip.flowTurn id [.pipes, .lookups] = true ∧ s.chip.blockUp sl 0x58 = true ∧
      s.chip.blockUp sl 0x68 = true) ∧
    (s.chip.frames.look id = some f ∧ f.slice = sl ∧ f.stage = .lookups) ∧
    (f.lpmHeld = false ∧ f.searches = []) ∧
    (f.slot = some 0 ∧ 0 < s.chip.inflight 0) ∧
    (Wb.failReason f.wb = r ∧ 1 ≤ r ∧ r ≤ 5) ∧
    (bits f.dflt 31 30 = 0) := ⟨st fun c =>
      { (tables c).setReg R.ACCORD_INFLIGHT 1 with frames := [(9, some { looking .lookups 0 [] with wb := Wb.put 0 5 20 18 2 })] }, 0, 9, 2,
      { looking .lookups 0 [] with wb := Wb.put 0 5 20 18 2 }, by decide +kernel⟩

theorem wit_ResolverGivesTheVerdict_4 : ∃ (s : State) (sl id : Nat), 
    (s.runs .core = true) ∧
    (s.chip.portersRun sl = false ∨ s.chip.frameAt sl id .lookups = false ∨ (s.chip.fr id).lpmHeld = true ∨ (s.chip.fr id).searches ≠ [] ∨
      s.chip.flowTurn id [.pipes, .lookups] = false ∨ s.chip.blockUp sl 0x58 = false ∨
      s.chip.blockUp sl 0x68 = false) := ⟨st fun c =>
      { tables c with frames := [(9, some (looking .lookups 0 [])), (8, some (looking .pipes 0 []))] }, 0, 9, by decide +kernel⟩

theorem wit_LpmWindowOperations_1 : ∃ (s : State) (src : Source) (h : Nat), 
    (h < 2 ∧ s.mayGo src (lpmWin h) = true) ∧
    (s.chip.lpmIndexOk h ((s.chip.winIn src (lpmWin h)).index) = true) := ⟨lpmSt 4 0, .pf, 0, by decide +kernel⟩

theorem wit_LpmWindowOperations_2 : ∃ (s : State) (src : Source) (h : Nat), 
    (h < 2 ∧ s.mayGo src (lpmWin h) = true) ∧
    (s.chip.lpmIndexOk h ((s.chip.winIn src (lpmWin h)).index) = false) := ⟨lpmWith (fun c => c.setReg (lpmWin 0) 0x1FFFFF), .pf, 0,
      by decide +kernel⟩

theorem wit_LpmWindowOperations_3 : ∃ (s : State) (src : Source) (h i : Nat), 
    (h < 2 ∧ s.mayGo src (lpmWin h) = true) ∧
    (lenOk (s.chip.winIn src (lpmWin h)).lpmEntry.v6 (s.chip.winIn src (lpmWin h)).lpmEntry.length = true ∧
      s.chip.lenEnabled h (s.chip.winIn src (lpmWin h)).lpmEntry.v6 (s.chip.winIn src (lpmWin h)).lpmEntry.length = true) ∧
    ((s.chip.lpmMatches h (s.chip.winIn src (lpmWin h)).lpmEntry.v6 (s.chip.winIn src (lpmWin h)).lpmEntry.length (s.chip.winIn src (lpmWin
      h)).lpmEntry.ctx (s.chip.winIn src (lpmWin h)).lpmEntry.prefix_ s.chip.newest).head? = some i) :=
      ⟨lpmWith (fun c => c.setWinData (lpmWin 0) (BitVec.ofNat 256 (0x0A000000 * 2 ^ 80 + 8 * 2 ^ 32))), .pf, 0, 0, by decide +kernel⟩

theorem wit_LpmWindowOperations_4 : ∃ (s : State) (src : Source) (h : Nat), 
    (h < 2 ∧ s.mayGo src (lpmWin h) = true) ∧
    (lenOk (s.chip.winIn src (lpmWin h)).lpmEntry.v6 (s.chip.winIn src (lpmWin h)).lpmEntry.length = false ∨
      s.chip.lenEnabled h (s.chip.winIn src (lpmWin h)).lpmEntry.v6 (s.chip.winIn src (lpmWin h)).lpmEntry.length = false ∨
      s.chip.lpmMatches h (s.chip.winIn src (lpmWin h)).lpmEntry.v6 (s.chip.winIn src (lpmWin h)).lpmEntry.length (s.chip.winIn src (lpmWin
      h)).lpmEntry.ctx (s.chip.winIn src (lpmWin h)).lpmEntry.prefix_ s.chip.newest = []) :=
      ⟨lpmWith (fun c => c.setWinData (lpmWin 0) (BitVec.ofNat 256 (0x0B000000 * 2 ^ 80 + 55 * 2 ^ 40 + 8 * 2 ^ 32 + 7 * 2 ^ 16))), .pf, 0,
      by decide +kernel⟩

theorem wit_LpmWindowOperations_5 : ∃ (s : State) (src : Source) (h i : Nat), 
    (h < 2 ∧ s.mayGo src (lpmWin h) = true) ∧
    (s.chip.get 0 R.ACCORD_STATUS_state ≠ 0) ∧
    (lenOk (s.chip.winIn src (lpmWin h)).lpmEntry.v6 (s.chip.winIn src (lpmWin h)).lpmEntry.length = true ∧
      s.chip.lenEnabled h (s.chip.winIn src (lpmWin h)).lpmEntry.v6 (s.chip.winIn src (lpmWin h)).lpmEntry.length = true) ∧
    ((s.chip.lpmMatches h (s.chip.winIn src (lpmWin h)).lpmEntry.v6 (s.chip.winIn src (lpmWin h)).lpmEntry.length (s.chip.winIn src (lpmWin
      h)).lpmEntry.ctx (s.chip.winIn src (lpmWin h)).lpmEntry.prefix_ s.chip.pendingAccord).head? = some i) :=
      ⟨lpmWith (fun c => c.setWinData (lpmWin 0) (BitVec.ofNat 256 (0x0A000000 * 2 ^ 80 + 8 * 2 ^ 32))), .pf, 0, 0, by decide +kernel⟩

theorem wit_LpmWindowOperations_6 : ∃ (s : State) (src : Source) (h : Nat), 
    (h < 2 ∧ s.mayGo src (lpmWin h) = true) ∧
    (s.chip.get 0 R.ACCORD_STATUS_state = 0 ∨ lenOk (s.chip.winIn src (lpmWin h)).lpmEntry.v6 (s.chip.winIn src (lpmWin h)).lpmEntry.length
      = false ∨ s.chip.lenEnabled h (s.chip.winIn src (lpmWin h)).lpmEntry.v6 (s.chip.winIn src (lpmWin h)).lpmEntry.length = false ∨
      s.chip.lpmMatches h (s.chip.winIn src (lpmWin h)).lpmEntry.v6 (s.chip.winIn src (lpmWin h)).lpmEntry.length (s.chip.winIn src (lpmWin
      h)).lpmEntry.ctx (s.chip.winIn src (lpmWin h)).lpmEntry.prefix_ s.chip.pendingAccord = []) :=
      ⟨lpmWith (fun c => c.put 0 R.ACCORD_STATUS_state 0), .pf, 0, by decide +kernel⟩

theorem wit_LpmWindowOperations_7 : ∃ (s : State) (src : Source) (h i : Nat) (lg : Bool), 
    (h < 2 ∧ s.mayGo src (lpmWin h) = true) ∧
    ((s.chip.halfMates h).Nodup ∧ h ∈ s.chip.halfMates h) ∧
    ((s.chip.winIn src (lpmWin h)).lpmEntry.ok = true ∧ s.chip.lenEnabled h (s.chip.winIn src (lpmWin h)).lpmEntry.v6 (s.chip.winIn src
      (lpmWin h)).lpmEntry.length = true) ∧
    ((s.chip.winIn src (lpmWin h)).lpmEntry.v6 = false ∧ s.chip.judge src ⟨false, 0,
      0⟩ { (s.chip.winIn src (lpmWin h)).lpmEntry.validity with valid := true } false = .accept lg) ∧
    (s.chip.lpmMatches h (s.chip.winIn src (lpmWin h)).lpmEntry.v6 (s.chip.winIn src (lpmWin h)).lpmEntry.length (s.chip.winIn src (lpmWin
      h)).lpmEntry.ctx (s.chip.winIn src (lpmWin h)).lpmEntry.prefix_ s.chip.pendingAccord = []) ∧
    (s.chip.lpmSpot h (s.chip.winIn src (lpmWin h)).lpmEntry = some i) ∧
    ((s.chip.lpmSlotAt h i).valid = false ∨ (s.chip.lpmSlotAt h i).v6 = false) :=
      ⟨lpmWith (fun c => c.setWinData (lpmWin 0) (BitVec.ofNat 256 (0x0B000000 * 2 ^ 80 + 55 * 2 ^ 40 + 8 * 2 ^ 32 + 7 * 2 ^ 16))), .pf, 0,
      1048576, true, by decide +kernel⟩

theorem wit_LpmWindowOperations_8 : ∃ (s : State) (src : Source) (h i : Nat) (lg : Bool), 
    (h < 2 ∧ s.mayGo src (lpmWin h) = true) ∧
    ((s.chip.halfMates h).Nodup ∧ h ∈ s.chip.halfMates h) ∧
    ((s.chip.winIn src (lpmWin h)).lpmEntry.ok = true ∧ s.chip.lenEnabled h (s.chip.winIn src (lpmWin h)).lpmEntry.v6 (s.chip.winIn src
      (lpmWin h)).lpmEntry.length = true) ∧
    ((s.chip.winIn src (lpmWin h)).lpmEntry.v6 = true ∧ s.chip.judge src ⟨false, 0,
      0⟩ { (s.chip.winIn src (lpmWin h)).lpmEntry.validity with valid := true } false = .accept lg) ∧
    (s.chip.lpmMatches h (s.chip.winIn src (lpmWin h)).lpmEntry.v6 (s.chip.winIn src (lpmWin h)).lpmEntry.length (s.chip.winIn src (lpmWin
      h)).lpmEntry.ctx (s.chip.winIn src (lpmWin h)).lpmEntry.prefix_ s.chip.pendingAccord = []) ∧
    (s.chip.lpmSpot h (s.chip.winIn src (lpmWin h)).lpmEntry = some i) ∧
    (i % 2 = 0) := ⟨lpmWith (fun c => (((c.setReg (c.lenBase 0 true 32) 0).put (c.lenBase 0 true 32) R.LPM_LEN_V4_enable 1).setWinData
      (lpmWin 0) (BitVec.ofNat 256 (0x20010DB8 * 2 ^ 96 + (32 * 2 ^ 104 + 55 * 2 ^ 64 + 7 * 2 ^ 16) * 2 ^ 128))).put (lpmWin 0 + 4)
      R.WIN_CMD_state 0x40), .pf, 0, 1048576, true, by decide +kernel⟩

theorem wit_LpmWindowOperations_9 : ∃ (s : State) (src : Source) (h : Nat), 
    (h < 2 ∧ s.mayGo src (lpmWin h) = true) ∧
    ((s.chip.winIn src (lpmWin h)).lpmEntry.ok = false ∨ s.chip.lenEnabled h (s.chip.winIn src (lpmWin h)).lpmEntry.v6 (s.chip.winIn src
      (lpmWin h)).lpmEntry.length = false) := ⟨lpmSt 4 0, .pf, 0, by decide +kernel⟩

theorem wit_LpmWindowOperations_10 : ∃ (s : State) (src : Source) (h r : Nat), 
    (h < 2 ∧ s.mayGo src (lpmWin h) = true) ∧
    ((s.chip.winIn src (lpmWin h)).lpmEntry.ok = true ∧ s.chip.lenEnabled h (s.chip.winIn src (lpmWin h)).lpmEntry.v6 (s.chip.winIn src
      (lpmWin h)).lpmEntry.length = true) ∧
    (s.chip.judge src ⟨false, 0, 0⟩ { (s.chip.winIn src (lpmWin h)).lpmEntry.validity with valid := true } false = .refuse r ∧
      r < 8) := ⟨lpmWith (fun c => c.setWinData (lpmWin 0) (BitVec.ofNat 256 (0x0A000000 * 2 ^ 80 + 8 * 2 ^ 32))), .pf, 0, 3,
      by decide +kernel⟩

theorem wit_LpmWindowOperations_11 : ∃ (s : State) (src : Source) (h : Nat) (lg : Bool), 
    (h < 2 ∧ s.mayGo src (lpmWin h) = true) ∧
    ((s.chip.winIn src (lpmWin h)).lpmEntry.ok = true ∧ s.chip.lenEnabled h (s.chip.winIn src (lpmWin h)).lpmEntry.v6 (s.chip.winIn src
      (lpmWin h)).lpmEntry.length = true) ∧
    (s.chip.judge src ⟨false, 0, 0⟩ { (s.chip.winIn src (lpmWin h)).lpmEntry.validity with valid := true } false = .accept lg) ∧
    (s.chip.lpmMatches h (s.chip.winIn src (lpmWin h)).lpmEntry.v6 (s.chip.winIn src (lpmWin h)).lpmEntry.length (s.chip.winIn src (lpmWin
      h)).lpmEntry.ctx (s.chip.winIn src (lpmWin h)).lpmEntry.prefix_ s.chip.pendingAccord ≠ [] ∨
      s.chip.lpmSpot h (s.chip.winIn src (lpmWin h)).lpmEntry = none) :=
      ⟨lpmWith (fun c => c.setWinData (lpmWin 0) (BitVec.ofNat 256 (0x0A000000 * 2 ^ 80 + 55 * 2 ^ 40 + 8 * 2 ^ 32 + 7 * 2 ^ 16))), .pf, 0,
      true, by decide +kernel⟩

theorem wit_LpmWindowOperations_12 : ∃ (s : State) (src : Source) (h : Nat) (lg : Bool), 
    (h < 2 ∧ s.mayGo src (lpmWin h) = true) ∧
    ((s.chip.halfMates h).Nodup ∧ h ∈ s.chip.halfMates h) ∧
    (s.chip.lpmIndexOk h ((s.chip.winIn src (lpmWin h)).index) = true ∧
      (s.chip.winIn src (lpmWin h)).seq = s.chip.lpmSeq h ((s.chip.winIn src (lpmWin h)).index)) ∧
    (((s.chip.lpmSlotAt h ((s.chip.winIn src (lpmWin h)).index)).valid = false ∨
      ((s.chip.lpmSlotAt h ((s.chip.winIn src (lpmWin h)).index)).second = false ∧
      (s.chip.lpmSlotAt h ((s.chip.winIn src (lpmWin h)).index)).v6 = (s.chip.winIn src (lpmWin h)).lpmEntry.v6)) ∧
      ((s.chip.winIn src (lpmWin h)).lpmEntry.v6 = false ∨ ((s.chip.winIn src (lpmWin h)).index) % 2 = 0) ∧
      (s.chip.winIn src (lpmWin h)).lpmEntry.cut = true) ∧
    ((s.chip.winIn src (lpmWin h)).state / 128 % 2 = 0 ∨ ((s.chip.lpmSlotAt h ((s.chip.winIn src (lpmWin h)).index)).valid = true ∧
      (s.chip.winIn src (lpmWin h)).lpmEntry.ok = true ∧ s.chip.lenEnabled h (s.chip.winIn src (lpmWin h)).lpmEntry.v6 (s.chip.winIn src
      (lpmWin h)).lpmEntry.length = true ∧ ([0, 1].any fun b => ((s.chip.winIn src (lpmWin h)).index) / 8 * 8 ==
      Chip.lpmIndex b (s.chip.lpmLine h b (s.chip.winIn src (lpmWin h)).lpmEntry.v6 (s.chip.winIn src (lpmWin h)).lpmEntry.length
      (s.chip.winIn src (lpmWin h)).lpmEntry.ctx (s.chip.winIn src (lpmWin h)).lpmEntry.prefix_)) = true)) ∧
    (s.chip.judge src { (s.chip.lpmAt h ((s.chip.winIn src (lpmWin h)).index)).validity with valid := (s.chip.lpmSlotAt h ((s.chip.winIn src (lpmWin h)).index)).valid }
      ⟨(s.chip.winIn src (lpmWin h)).state / 128 % 2 = 1, (s.chip.winIn src (lpmWin h)).lpmEntry.validity.vfrom,
      (s.chip.winIn src (lpmWin h)).lpmEntry.validity.vuntil⟩ ((s.chip.lpmAt h ((s.chip.winIn src (lpmWin h)).index)).ctx ==
      (s.chip.winIn src (lpmWin h)).lpmEntry.ctx && (s.chip.lpmAt h ((s.chip.winIn src (lpmWin h)).index)).prefix_ ==
      (s.chip.winIn src (lpmWin h)).lpmEntry.prefix_ && (s.chip.lpmAt h ((s.chip.winIn src (lpmWin h)).index)).length ==
      (s.chip.winIn src (lpmWin h)).lpmEntry.length && (s.chip.lpmAt h ((s.chip.winIn src (lpmWin h)).index)).result ==
      (s.chip.winIn src (lpmWin h)).lpmEntry.result) = .accept lg) :=
      ⟨lpmWith (fun c => { (c.setWinData (lpmWin 0) (BitVec.ofNat 256 (0x0A000000 * 2 ^ 80 + 8 * 2 ^ 32))) with lpm := [(0, { c.lpmTab 0 with slots := [(0, { data := BitVec.ofNat 128 (0x0A000000 * 2 ^ 80 + 66 * 2 ^ 40 + 8 * 2 ^ 32 + 7 * 2 ^ 16), state := 0x80 })] })] }),
      .pf, 0, true, by decide +kernel⟩

theorem wit_LpmWindowOperations_13 : ∃ (s : State) (src : Source) (h r : Nat), 
    (h < 2 ∧ s.mayGo src (lpmWin h) = true) ∧
    (s.chip.lpmIndexOk h ((s.chip.winIn src (lpmWin h)).index) = true ∧
      (s.chip.winIn src (lpmWin h)).seq = s.chip.lpmSeq h ((s.chip.winIn src (lpmWin h)).index)) ∧
    (((s.chip.lpmSlotAt h ((s.chip.winIn src (lpmWin h)).index)).valid = false ∨
      ((s.chip.lpmSlotAt h ((s.chip.winIn src (lpmWin h)).index)).second = false ∧
      (s.chip.lpmSlotAt h ((s.chip.winIn src (lpmWin h)).index)).v6 = (s.chip.winIn src (lpmWin h)).lpmEntry.v6)) ∧
      ((s.chip.winIn src (lpmWin h)).lpmEntry.v6 = false ∨ ((s.chip.winIn src (lpmWin h)).index) % 2 = 0) ∧
      (s.chip.winIn src (lpmWin h)).lpmEntry.cut = true) ∧
    ((s.chip.winIn src (lpmWin h)).state / 128 % 2 = 0 ∨ ((s.chip.lpmSlotAt h ((s.chip.winIn src (lpmWin h)).index)).valid = true ∧
      (s.chip.winIn src (lpmWin h)).lpmEntry.ok = true ∧ s.chip.lenEnabled h (s.chip.winIn src (lpmWin h)).lpmEntry.v6 (s.chip.winIn src
      (lpmWin h)).lpmEntry.length = true ∧ ([0, 1].any fun b => ((s.chip.winIn src (lpmWin h)).index) / 8 * 8 ==
      Chip.lpmIndex b (s.chip.lpmLine h b (s.chip.winIn src (lpmWin h)).lpmEntry.v6 (s.chip.winIn src (lpmWin h)).lpmEntry.length
      (s.chip.winIn src (lpmWin h)).lpmEntry.ctx (s.chip.winIn src (lpmWin h)).lpmEntry.prefix_)) = true)) ∧
    (s.chip.judge src { (s.chip.lpmAt h ((s.chip.winIn src (lpmWin h)).index)).validity with valid := (s.chip.lpmSlotAt h ((s.chip.winIn src (lpmWin h)).index)).valid }
      ⟨(s.chip.winIn src (lpmWin h)).state / 128 % 2 = 1, (s.chip.winIn src (lpmWin h)).lpmEntry.validity.vfrom,
      (s.chip.winIn src (lpmWin h)).lpmEntry.validity.vuntil⟩ ((s.chip.lpmAt h ((s.chip.winIn src (lpmWin h)).index)).ctx ==
      (s.chip.winIn src (lpmWin h)).lpmEntry.ctx && (s.chip.lpmAt h ((s.chip.winIn src (lpmWin h)).index)).prefix_ ==
      (s.chip.winIn src (lpmWin h)).lpmEntry.prefix_ && (s.chip.lpmAt h ((s.chip.winIn src (lpmWin h)).index)).length ==
      (s.chip.winIn src (lpmWin h)).lpmEntry.length && (s.chip.lpmAt h ((s.chip.winIn src (lpmWin h)).index)).result ==
      (s.chip.winIn src (lpmWin h)).lpmEntry.result) = .refuse r ∧
      r < 8) := ⟨lpmWith (fun c => (c.setWinData (lpmWin 0) (BitVec.ofNat 256 (0x0A000000 * 2 ^ 80 + 67 * 2 ^ 40 + 8 * 2 ^ 32))).put (lpmWin
      0 + 4) R.WIN_CMD_state 0x80), .pf, 0, 2, by decide +kernel⟩

theorem wit_LpmWindowOperations_14 : ∃ (s : State) (src : Source) (h : Nat), 
    (h < 2 ∧ s.mayGo src (lpmWin h) = true) ∧
    (s.chip.lpmIndexOk h ((s.chip.winIn src (lpmWin h)).index) = false ∨
      (s.chip.winIn src (lpmWin h)).seq ≠ s.chip.lpmSeq h ((s.chip.winIn src (lpmWin h)).index) ∨
      ((s.chip.winIn src (lpmWin h)).state / 128 % 2 = 1 ∧ (s.chip.lpmSlotAt h ((s.chip.winIn src (lpmWin h)).index)).valid = false) ∨
      ((s.chip.lpmSlotAt h ((s.chip.winIn src (lpmWin h)).index)).valid = true ∧
      ((s.chip.lpmSlotAt h ((s.chip.winIn src (lpmWin h)).index)).second = true ∨
      (s.chip.lpmSlotAt h ((s.chip.winIn src (lpmWin h)).index)).v6 ≠ (s.chip.winIn src (lpmWin h)).lpmEntry.v6)) ∨
      ((s.chip.winIn src (lpmWin h)).lpmEntry.v6 = true ∧ ((s.chip.winIn src (lpmWin h)).index) % 2 = 1) ∨
      (s.chip.winIn src (lpmWin h)).lpmEntry.cut = false ∨ ((s.chip.winIn src (lpmWin h)).state / 128 % 2 = 1 ∧
      ((s.chip.winIn src (lpmWin h)).lpmEntry.ok = false ∨ s.chip.lenEnabled h (s.chip.winIn src (lpmWin h)).lpmEntry.v6 (s.chip.winIn src
      (lpmWin h)).lpmEntry.length = false ∨ ([0, 1].any fun b => ((s.chip.winIn src (lpmWin h)).index) / 8 * 8 ==
      Chip.lpmIndex b (s.chip.lpmLine h b (s.chip.winIn src (lpmWin h)).lpmEntry.v6 (s.chip.winIn src (lpmWin h)).lpmEntry.length
      (s.chip.winIn src (lpmWin h)).lpmEntry.ctx (s.chip.winIn src (lpmWin h)).lpmEntry.prefix_)) = false))) :=
      ⟨lpmWith (fun c => c.put (lpmWin 0 + 8) R.WIN_STATUS_seq 9), .pf, 0, by decide +kernel⟩

theorem wit_LpmWindowOperations_15 : ∃ (s : State) (src : Source) (h : Nat) (v6 : Bool), 
    (h < 2 ∧ s.mayGo src (filterWin h v6) = true) ∧
    ((s.chip.winIn src (filterWin h v6)).index < 65536) := ⟨lpmWith (fun c => c.setReg (filterWin 0 false) 0x0A01), .pf, 0, false,
      by decide +kernel⟩

theorem wit_LpmWindowOperations_16 : ∃ (s : State) (src : Source) (h : Nat) (v6 : Bool), 
    (h < 2 ∧ s.mayGo src (filterWin h v6) = true) ∧
    (65536 ≤ (s.chip.winIn src (filterWin h v6)).index) := ⟨lpmWith (fun c => c.setReg (filterWin 0 false) 0x10A01), .pf, 0, false,
      by decide +kernel⟩

theorem wit_LpmWindowOperations_17 : ∃ (s : State) (src : Source) (h : Nat) (v6 : Bool), 
    (h < 2 ∧ s.mayGo src (filterWin h v6) = true) ∧
    ((s.chip.halfMates h).Nodup ∧ h ∈ s.chip.halfMates h) ∧
    ((s.chip.winIn src (filterWin h v6)).index < 65536) ∧
    (v6 = false ∨ bits (s.chip.winIn src (filterWin h v6)).data 23 0 = 0) :=
      ⟨lpmWith (fun c => (c.setReg (filterWin 0 true) 5).setWinData (filterWin 0 true) 0xFF000000), .pf, 0, true, by decide +kernel⟩

theorem wit_LpmWindowOperations_18 : ∃ (s : State) (src : Source) (h : Nat) (v6 : Bool), 
    (h < 2 ∧ s.mayGo src (filterWin h v6) = true) ∧
    (65536 ≤ (s.chip.winIn src (filterWin h v6)).index ∨ (v6 = true ∧
      bits (s.chip.winIn src (filterWin h v6)).data 23 0 ≠ 0)) := ⟨lpmWith (fun c => c.setWinData (filterWin 0 true) 1), .pf, 0, true,
      by decide +kernel⟩

theorem wit_LpmWindowOperations_19 : ∃ (s : State) (src : Source) (h first b n : Nat) (v6 : Bool), 
    (h < 2 ∧ s.mayGo src (filterWin h v6) = true) ∧
    ((s.chip.halfMates h).Nodup ∧ h ∈ s.chip.halfMates h) ∧
    (first = bits (s.chip.winIn src (filterWin h v6)).data 31 16 ∧ b = bits (s.chip.winIn src (filterWin h v6)).data 6 0 ∧
      n = bits (s.chip.winIn src (filterWin h v6)).data 63 32) ∧
    (rangeOk v6 first b n = true) := ⟨lpmWith (fun c => c.setWinData (filterWin 0 false) (BitVec.ofNat 256 (2 * 2 ^ 32 + 0x0A00 * 2 ^ 16 +
      20))), .pf, 0, 0x0A00, 20, 2, false, by decide +kernel⟩

theorem wit_LpmWindowOperations_20 : ∃ (s : State) (src : Source) (h first b n : Nat) (v6 : Bool), 
    (h < 2 ∧ s.mayGo src (filterWin h v6) = true) ∧
    ((s.chip.halfMates h).Nodup ∧ h ∈ s.chip.halfMates h) ∧
    (first = bits (s.chip.winIn src (filterWin h v6)).data 31 16 ∧ b = bits (s.chip.winIn src (filterWin h v6)).data 6 0 ∧
      n = bits (s.chip.winIn src (filterWin h v6)).data 63 32) ∧
    (rangeOk v6 first b n = true) := ⟨lpmWith (fun c => c.setWinData (filterWin 0 false) (BitVec.ofNat 256 (2 * 2 ^ 32 + 0x0A00 * 2 ^ 16 +
      7))), .pf, 0, 0x0A00, 7, 2, false, by decide +kernel⟩

theorem wit_LpmWindowOperations_21 : ∃ (s : State) (src : Source) (h : Nat) (v6 : Bool), 
    (h < 2 ∧ s.mayGo src (filterWin h v6) = true) ∧
    (rangeOk v6 (bits (s.chip.winIn src (filterWin h v6)).data 31 16) (bits (s.chip.winIn src (filterWin h v6)).data 6 0) (bits
      (s.chip.winIn src (filterWin h v6)).data 63 32) = false) := ⟨lpmSt 4 0, .pf, 0, false, by decide +kernel⟩

theorem wit_LpmWindowOperations_22 : ∃ (s : State) (src : Source) (h : Nat) (v6 : Bool), 
    (h < 2 ∧ s.mayGo src (filterWin h v6) = true) ∧
    (rangeOk v6 (bits (s.chip.winIn src (filterWin h v6)).data 31 16) (bits (s.chip.winIn src (filterWin h v6)).data 6 0) (bits
      (s.chip.winIn src (filterWin h v6)).data 63 32) = false) := ⟨lpmSt 4 0, .pf, 0, true, by decide +kernel⟩

theorem wit_TcamWindowOperations_1 : ∃ (s : State) (src : Source) (sl i : Nat), 
    (sl < 8 ∧ s.mayGo src (tcamWin sl) = true) ∧
    (tcamOfWin (s.chip.winIn src (tcamWin sl)).index = some i ∧
      (s.chip.winIn src (tcamWin sl)).part ≠ 3) := ⟨tcamWith (fun c => (c.setReg (tcamWin 0) 2).put (tcamWin 0 + 4) R.WIN_CMD_part 2), .pf,
      0, 2, by decide +kernel⟩

theorem wit_TcamWindowOperations_2 : ∃ (s : State) (src : Source) (sl : Nat), 
    (sl < 8 ∧ s.mayGo src (tcamWin sl) = true) ∧
    (tcamOfWin (s.chip.winIn src (tcamWin sl)).index = none ∨
      (s.chip.winIn src (tcamWin sl)).part = 3) := ⟨tcamWith (fun c => c.put (tcamWin 0 + 4) R.WIN_CMD_part 3), .pf, 0, by decide +kernel⟩

theorem wit_TcamWindowOperations_3 : ∃ (s : State) (src : Source) (sl : Nat), 
    (sl < 8 ∧ s.mayGo src (tcamWin sl) = true) ∧
    ((s.chip.winIn src (tcamWin sl)).part ≠ 3) := ⟨tcamWith (fun c => (c.setWinData (tcamWin 0) 9).put (tcamWin 0 + 4) R.WIN_CMD_part 1),
      .pf, 0, by decide +kernel⟩

theorem wit_TcamWindowOperations_4 : ∃ (s : State) (src : Source) (sl : Nat), 
    (sl < 8 ∧ s.mayGo src (tcamWin sl) = true) ∧
    ((s.chip.winIn src (tcamWin sl)).part = 3) := ⟨tcamWith (fun c => c.put (tcamWin 0 + 4) R.WIN_CMD_part 3), .pf, 0, by decide +kernel⟩

theorem wit_TcamWindowOperations_5 : ∃ (s : State) (src : Source) (sl i : Nat) (x y : TcamEntry) (lg : Bool), 
    (sl < 8 ∧ s.mayGo src (tcamWin sl) = true) ∧
    (tcamOfWin (s.chip.winIn src (tcamWin sl)).index = some i ∧ s.chip.tcamFormOk sl i (s.chip.winIn src (tcamWin sl)).state = true ∧
      (s.chip.winIn src (tcamWin sl)).seq = (s.chip.tcamTab sl).seqs.look i) ∧
    (x = (s.chip.tcamTab sl).heldEntry 0 (s.chip.winIn src (tcamWin sl)).state ∧
      y = { (s.chip.tcamTab sl).heldEntry 1 ((s.chip.winIn src (tcamWin sl)).state / 128 * 128 + 64) with prio := x.prio, result := x.result, vfrom := x.vfrom, vuntil := x.vuntil })
      ∧
    (s.chip.judge src ((s.chip.tcamTab sl).copies.look i).validity x.validity ((s.chip.tcamTab sl).sameBut i x y) = .accept lg) :=
      ⟨tcamWith (fun c => { ((c.setReg (tcamWin 0) 2).put (tcamWin 0 + 4) R.WIN_CMD_state 0x80) with tcam := [(0, { parts := [(2, some (BitVec.ofNat 256 (7 * 2 ^ 240)))] })] }),
      .pf, 0, 2, { value := 0, care := 0, prio := 0, result := 0, vfrom := 7, state := 0x80 },
      { value := 0, care := 0, prio := 0, result := 0, vfrom := 7, state := 0xC0 }, true, by decide +kernel⟩

theorem wit_TcamWindowOperations_6 : ∃ (s : State) (src : Source) (sl i r : Nat) (x y : TcamEntry), 
    (sl < 8 ∧ s.mayGo src (tcamWin sl) = true) ∧
    (tcamOfWin (s.chip.winIn src (tcamWin sl)).index = some i ∧ s.chip.tcamFormOk sl i (s.chip.winIn src (tcamWin sl)).state = true ∧
      (s.chip.winIn src (tcamWin sl)).seq = (s.chip.tcamTab sl).seqs.look i) ∧
    (x = (s.chip.tcamTab sl).heldEntry 0 (s.chip.winIn src (tcamWin sl)).state ∧
      y = { (s.chip.tcamTab sl).heldEntry 1 ((s.chip.winIn src (tcamWin sl)).state / 128 * 128 + 64) with prio := x.prio, result := x.result, vfrom := x.vfrom, vuntil := x.vuntil })
      ∧
    (s.chip.judge src ((s.chip.tcamTab sl).copies.look i).validity x.validity ((s.chip.tcamTab sl).sameBut i x y) = .refuse r ∧
      r < 8) := ⟨tcamWith (fun c => { ((c.setReg (tcamWin 0) 2).put (tcamWin 0 + 4) R.WIN_CMD_state 0x80) with tcam := [] }), .pf, 0, 2, 3,
      { value := 0, care := 0, prio := 0, result := 0, vfrom := 0, state := 0x80 },
      { value := 0, care := 0, prio := 0, result := 0, vfrom := 0, state := 0xC0 }, by decide +kernel⟩

theorem wit_TcamWindowOperations_7 : ∃ (s : State) (src : Source) (sl : Nat), 
    (sl < 8 ∧ s.mayGo src (tcamWin sl) = true) ∧
    ((tcamOfWin (s.chip.winIn src (tcamWin sl)).index).any (fun i => s.chip.tcamFormOk sl i (s.chip.winIn src (tcamWin sl)).state &&
      (s.chip.winIn src (tcamWin sl)).seq == (s.chip.tcamTab sl).seqs.look i) = false) :=
      ⟨tcamWith (fun c => (c.setReg (tcamWin 0) 2).put (tcamWin 0 + 8) R.WIN_STATUS_seq 9), .pf, 0, by decide +kernel⟩

theorem wit_TcamWindowOperations_8 : ∃ (s : State) (sl : Nat) (w : TcamWrite) (l : List TcamWrite), 
    (s.runs .core = true) ∧
    (s.chip.alive (U.slice sl) = true ∧ (s.chip.tcamTab sl).writes = w :: l ∧ s.chip.blockUp sl (0x50 + w.index / 5120) = true) ∧
    ((s.chip.sliceMates sl).Nodup ∧ sl ∈ s.chip.sliceMates sl) ∧
    (w.seq = (s.chip.tcamTab sl).seqs.look w.index) := ⟨tcamWith (fun c =>
      { c with tcam := [(0, { excluded := [2], writes := [{ index := 2, state := 0x80, seq := 0, first := { tcamEntry with vfrom := 7 }, second := {}, logged := true }] })] }),
      0, { index := 2, state := 0x80, seq := 0, first := { tcamEntry with vfrom := 7 }, second := {}, logged := true }, [],
      by decide +kernel⟩

theorem wit_TcamWindowOperations_9 : ∃ (s : State) (sl : Nat) (w : TcamWrite) (l : List TcamWrite), 
    (s.runs .core = true) ∧
    (s.chip.alive (U.slice sl) = true ∧ (s.chip.tcamTab sl).writes = w :: l ∧ s.chip.blockUp sl (0x50 + w.index / 5120) = true) ∧
    (w.seq ≠ (s.chip.tcamTab sl).seqs.look w.index) := ⟨tcamWith (fun c =>
      { c with tcam := [(0, { seqs := [(2, 9)], writes := [{ index := 2, state := 0x80, seq := 0, first := { tcamEntry with vfrom := 7 }, second := {}, logged := true }] })] }),
      0, { index := 2, state := 0x80, seq := 0, first := { tcamEntry with vfrom := 7 }, second := {}, logged := true }, [],
      by decide +kernel⟩

theorem wit_TcamWindowOperations_10 : ∃ (s : State) (sl : Nat), 
    (s.runs .core = true) ∧
    (s.chip.alive (U.slice sl) = false ∨ (s.chip.tcamTab sl).writes = []) := ⟨tcamSt, 0, by decide +kernel⟩

theorem wit_TcamWindowOperations_11 : ∃ (s : State) (src : Source) (sl : Nat), 
    (sl < 8 ∧ s.mayGo src (tcamWin sl) = true) ∧
    ((s.chip.tcamTables sl).all (fun x => x.id != (s.chip.winIn src (tcamWin sl)).table) = true) := ⟨tcamWith id, .pf, 0, by decide +kernel⟩

theorem wit_TcamWindowOperations_12 : ∃ (s : State) (src : Source) (sl i : Nat) (e : TcamEntry) (x : TcamTab) (ka kb : Key), 
    (sl < 8 ∧ s.mayGo src (tcamWin sl) = true) ∧
    ((s.chip.tcamTables sl).find? (fun x => x.id == (s.chip.winIn src (tcamWin sl)).table) = some x) ∧
    (ka = BitVec.ofNat 320 (((s.chip.tcamTab sl).parts.look 0).getD 0).toNat + BitVec.ofNat 320 (bits (((s.chip.tcamTab sl).parts.look
      1).getD 0) 63 0 * 2 ^ 256) ∧ kb = BitVec.ofNat 320 (((s.chip.tcamTab sl).parts.look 3).getD 0).toNat + BitVec.ofNat 320 (bits
      (((s.chip.tcamTab sl).parts.look 4).getD 0) 63 0 * 2 ^ 256)) ∧
    (tcamBest (s.chip.tcamHits sl x ka kb s.chip.newest []) = some (i, e)) :=
      ⟨tcamWith (fun c => { (c.put (tcamWin 0 + 4) R.WIN_CMD_table 2) with tcam := [(0, { c.tcamTab 0 with parts := [(0, some 5)] })] }),
      .pf, 0, 2, tcamEntry, { slice := 0, id := 2, kind := 1, banks := 1, first := 0, count := 64 }, 5, 0, by decide +kernel⟩

theorem wit_TcamWindowOperations_13 : ∃ (s : State) (src : Source) (sl : Nat) (x : TcamTab) (ka kb : Key), 
    (sl < 8 ∧ s.mayGo src (tcamWin sl) = true) ∧
    ((s.chip.tcamTables sl).find? (fun x => x.id == (s.chip.winIn src (tcamWin sl)).table) = some x) ∧
    (ka = BitVec.ofNat 320 (((s.chip.tcamTab sl).parts.look 0).getD 0).toNat + BitVec.ofNat 320 (bits (((s.chip.tcamTab sl).parts.look
      1).getD 0) 63 0 * 2 ^ 256) ∧ kb = BitVec.ofNat 320 (((s.chip.tcamTab sl).parts.look 3).getD 0).toNat + BitVec.ofNat 320 (bits
      (((s.chip.tcamTab sl).parts.look 4).getD 0) 63 0 * 2 ^ 256)) ∧
    (tcamBest (s.chip.tcamHits sl x ka kb s.chip.newest []) = none) :=
      ⟨tcamWith (fun c => { (c.put (tcamWin 0 + 4) R.WIN_CMD_table 2) with tcam := [(0, { c.tcamTab 0 with parts := [(0, some 4)] })] }),
      .pf, 0, { slice := 0, id := 2, kind := 1, banks := 1, first := 0, count := 64 }, 4, 0, by decide +kernel⟩

theorem wit_TcamWindowOperations_14 : ∃ (s : State) (sl bank entry : Nat) (x : Key), 
    (s.runs .core = true) ∧
    (bank < 4 ∧ entry < 5120 ∧ s.chip.alive (U.slice sl) = true ∧ s.chip.blockUp sl (0x50 + bank) = true ∧ s.chip.house.sleep.look sl = 0 ∧
      s.chip.get (A.slice (s.chip.emHome sl)) R.TCAM_SCRUB_enable = 1 ∧ (s.chip.tcamTableAt sl (tcamPhys bank entry)).isSome = true ∧
      s.chip.tcamScrubDue sl (tcamPhys bank entry) = true) ∧
    (((s.chip.tcamUpset sl (tcamPhys bank entry) x).tcamTab sl).rows.look (tcamPhys bank entry) ≠ (s.chip.tcamTab sl).copies.look (tcamPhys
      bank entry)) := ⟨tcamWith (fun c =>
      { (c.put (A.slice 0) R.TCAM_SCRUB_enable 1) with tcam := [(0, { rows := [(2, tcamEntry)], copies := [(2, tcamEntry)] })] }), 0, 0, 2,
      7, by decide +kernel⟩

theorem wit_TcamWindowOperations_15 : ∃ (s : State) (sl bank entry : Nat), 
    (s.runs .core = true) ∧
    (bank < 4 ∧ entry < 5120 ∧ s.chip.alive (U.slice sl) = true ∧ s.chip.blockUp sl (0x50 + bank) = true ∧ s.chip.house.sleep.look sl = 0 ∧
      s.chip.get (A.slice (s.chip.emHome sl)) R.TCAM_SCRUB_enable = 1 ∧ (s.chip.tcamTableAt sl (tcamPhys bank entry)).isSome = true ∧
      s.chip.tcamScrubDue sl (tcamPhys bank entry) = true) ∧
    ((s.chip.tcamTab sl).rows.look (tcamPhys bank entry) = (s.chip.tcamTab sl).copies.look (tcamPhys bank entry)) :=
      ⟨tcamWith (fun c => c.put (A.slice 0) R.TCAM_SCRUB_enable 1), 0, 0, 2, by decide +kernel⟩

theorem wit_TcamWindowOperations_16 : ∃ (s : State) (sl bank entry : Nat) (x : Key), 
    (s.runs .core = true) ∧
    (4 ≤ bank ∨ 5120 ≤ entry ∨ s.chip.alive (U.slice sl) = false ∨ s.chip.blockUp sl (0x50 + bank) = false ∨
      s.chip.house.sleep.look sl ≠ 0 ∨ s.chip.get (A.slice (s.chip.emHome sl)) R.TCAM_SCRUB_enable = 0 ∨
      (s.chip.tcamTableAt sl (tcamPhys bank entry)).isSome = false ∨
      s.chip.tcamScrubDue sl (tcamPhys bank entry) = false) := ⟨tcamWith (fun c => c.put (A.slice 0) R.TCAM_SCRUB_enable 0), 0, 0, 2, 0,
      by decide +kernel⟩

theorem wit_ObjectsGroupHeadsAndSettler_1 : ∃ (s : State) (src : Source) (base sl : Nat) (k : ObjKind), 
    (s.mayGo src base = true) ∧
    (objWindow base = some (sl, k) ∧ (s.chip.winIn src base).index < objCount k) :=
      ⟨st fun c => { tables c with objects := [(0, { nextHops := [(0, 77)] })] }, .pf, 0x08470000, 0, .nextHop, by decide +kernel⟩

theorem wit_ObjectsGroupHeadsAndSettler_2 : ∃ (s : State) (src : Source) (base : Nat), 
    (s.mayGo src base = true) ∧
    ((objWindow base).all (fun x => decide (objCount x.2 ≤ (s.chip.winIn src base).index)) = true) :=
      ⟨st fun c => (tables c).setReg 0x08470040 5000, .pf, 0x08470040, by decide +kernel⟩

theorem wit_ObjectsGroupHeadsAndSettler_3 : ∃ (s : State) (src : Source) (base sl : Nat) (k : ObjKind), 
    (s.mayGo src base = true) ∧
    (objWindow base = some (sl, k) ∧ (s.chip.winIn src base).index < objCount k) ∧
    ((s.chip.sliceMates sl).Nodup ∧ sl ∈ s.chip.sliceMates sl) ∧
    (s.chip.objOk sl k (s.chip.winIn src base).index (s.chip.winIn src base).part (s.chip.winIn src base).state (s.chip.winIn src base).data
      = true) ∧
    (k = .nextHop ∨ k = .mirror ∨ k = .copy) := ⟨st fun c => ((tables c).setReg 0x08470000 3).setWinData 0x08470000 (BitVec.ofNat 256 (2 ^
      63 + 16 * 2 ^ 54)), .pf, 0x08470000, 0, .nextHop, by decide +kernel⟩

theorem wit_ObjectsGroupHeadsAndSettler_4 : ∃ (s : State) (src : Source) (base sl : Nat) (k : ObjKind), 
    (s.mayGo src base = true) ∧
    (objWindow base = some (sl, k) ∧ (s.chip.winIn src base).index < objCount k) ∧
    ((s.chip.sliceMates sl).Nodup ∧ sl ∈ s.chip.sliceMates sl) ∧
    (s.chip.objOk sl k (s.chip.winIn src base).index (s.chip.winIn src base).part (s.chip.winIn src base).state (s.chip.winIn src base).data
      = true) ∧
    (k = .meter) := ⟨st fun c => ((tables c).setReg 0x08470080 3).setWinData 0x08470080 (BitVec.ofNat 256 (2 * 2 ^ 104 + 3 * 2 ^ 80 + 9 * 2
      ^ 56 + 9 * 2 ^ 32)), .pf, 0x08470080, 0, .meter, by decide +kernel⟩

theorem wit_ObjectsGroupHeadsAndSettler_5 : ∃ (s : State) (src : Source) (base sl : Nat) (k : ObjKind), 
    (s.mayGo src base = true) ∧
    (objWindow base = some (sl, k) ∧ (s.chip.winIn src base).index < objCount k) ∧
    (s.chip.objOk sl k (s.chip.winIn src base).index (s.chip.winIn src base).part (s.chip.winIn src base).state (s.chip.winIn src base).data
      = true) ∧
    ((k = .group ∨ k = .script) ∧ (s.chip.winIn src base).part ≠ 3) :=
      ⟨st fun c => ((tables c).setReg 0x08470040 3).setWinData 0x08470040 5, .pf, 0x08470040, 0, .group, by decide +kernel⟩

theorem wit_ObjectsGroupHeadsAndSettler_6 : ∃ (s : State) (src : Source) (base sl : Nat) (k : ObjKind), 
    (s.mayGo src base = true) ∧
    (objWindow base = some (sl, k) ∧ (s.chip.winIn src base).index < objCount k) ∧
    ((s.chip.sliceMates sl).Nodup ∧ sl ∈ s.chip.sliceMates sl) ∧
    (s.chip.objOk sl k (s.chip.winIn src base).index (s.chip.winIn src base).part (s.chip.winIn src base).state (s.chip.winIn src base).data
      = true) ∧
    (k = .group ∧ (s.chip.winIn src base).part = 3) := ⟨st fun c =>
      { (((tables c).setReg 0x08470040 3).setWinData 0x08470040 5).setReg 0x08470044 0x06002100 with objects := [(0, { heldGroup := [(1, some 6)] })] },
      .pf, 0x08470040, 0, .group, by decide +kernel⟩

theorem wit_ObjectsGroupHeadsAndSettler_7 : ∃ (s : State) (src : Source) (base sl : Nat) (k : ObjKind), 
    (s.mayGo src base = true) ∧
    (objWindow base = some (sl, k) ∧ (s.chip.winIn src base).index < objCount k) ∧
    ((s.chip.sliceMates sl).Nodup ∧ sl ∈ s.chip.sliceMates sl) ∧
    (s.chip.objOk sl k (s.chip.winIn src base).index (s.chip.winIn src base).part (s.chip.winIn src base).state (s.chip.winIn src base).data
      = true) ∧
    (k = .script ∧ (s.chip.winIn src base).part = 3) := ⟨st fun c =>
      { (((tables c).setReg 0x08470100 3).setWinData 0x08470100 5).setReg 0x08470104 0x06002100 with objects := [(0, { heldScript := [(0, some 0x10004000)] })] },
      .pf, 0x08470100, 0, .script, by decide +kernel⟩

theorem wit_ObjectsGroupHeadsAndSettler_8 : ∃ (s : State) (src : Source) (base sl : Nat) (k : ObjKind), 
    (s.mayGo src base = true) ∧
    (objWindow base = some (sl, k)) ∧
    (objCount k ≤ (s.chip.winIn src base).index ∨ s.chip.objOk sl k (s.chip.winIn src base).index (s.chip.winIn src base).part (s.chip.winIn
      src base).state (s.chip.winIn src base).data = false) := ⟨st fun c => (tables c).setWinData 0x08470000 1, .pf, 0x08470000, 0,
      .nextHop, by decide +kernel⟩

theorem wit_ObjectsGroupHeadsAndSettler_9 : ∃ (s : State) (src : Source) (base : Nat), 
    (s.mayGo src base = true) ∧
    (objWindow base = none) := ⟨st tables, .pf, 0x08450000, by decide +kernel⟩

theorem wit_ObjectsGroupHeadsAndSettler_10 : ∃ (s : State) (src : Source) (sl : Nat), 
    (sl < 8 ∧ s.mayGo src (meterWin sl) = true) ∧
    ((s.chip.sliceMates sl).Nodup ∧ sl ∈ s.chip.sliceMates sl) ∧
    ((s.chip.winIn src (meterWin sl)).index < 8192) := ⟨st fun c =>
      { (tables c).setReg (meterWin 0) 3 with objects := [(0, { meters := [(3, { record := BitVec.ofNat 128 (9 * 2 ^ 56 + 8 * 2 ^ 32) })] })] },
      .pf, 0, by decide +kernel⟩

theorem wit_ObjectsGroupHeadsAndSettler_11 : ∃ (s : State) (src : Source) (sl : Nat), 
    (sl < 8 ∧ s.mayGo src (meterWin sl) = true) ∧
    (8192 ≤ (s.chip.winIn src (meterWin sl)).index) := ⟨st fun c => (tables c).setReg (meterWin 0) 8192, .pf, 0, by decide +kernel⟩

theorem wit_ObjectsGroupHeadsAndSettler_12 : ∃ (s : State) (src : Source) (sl : Nat), 
    (sl < 8 ∧ s.mayGo src (headWin sl) = true) ∧
    ((s.chip.winIn src (headWin sl)).index < 131072) := ⟨st fun c =>
      { (tables c).setReg (headWin 0) 3 with objects := [(0, { heads := [(3, 0x80800000)], headSeq := [(3, 8)] })] }, .pf, 0,
      by decide +kernel⟩

theorem wit_ObjectsGroupHeadsAndSettler_13 : ∃ (s : State) (src : Source) (sl : Nat), 
    (sl < 8 ∧ s.mayGo src (headWin sl) = true) ∧
    (131072 ≤ (s.chip.winIn src (headWin sl)).index) := ⟨st fun c => (tables c).setReg (headWin 0) 131072, .pf, 0, by decide +kernel⟩

theorem wit_ObjectsGroupHeadsAndSettler_14 : ∃ (s : State) (src : Source) (sl i : Nat) (e : Word) (lg : Bool), 
    (sl < 8 ∧ s.mayGo src (headWin sl) = true) ∧
    ((s.chip.sliceMates sl).Nodup ∧ sl ∈ s.chip.sliceMates sl) ∧
    (i = (s.chip.winIn src (headWin sl)).index ∧ e = BitVec.ofNat 64 (bits (s.chip.winIn src (headWin sl)).data 63 0)) ∧
    (i < 131072 ∧ bits e 22 16 = 0 ∧ (s.chip.winIn src (headWin sl)).seq = (s.chip.obj sl).headSeq.look i) ∧
    (s.chip.judge src (vValidity (s.chip.vGet .head sl i)) (vValidity e) (bits (s.chip.vGet .head sl i) 30 0 == bits e 30 0) =
      .accept lg) := ⟨st fun c => ((tables c).setReg (headWin 0) 3).setWinData (headWin 0) (BitVec.ofNat 256 (7 * 2 ^ 48 + 0x80800000)),
      .pf, 0, 3, 0x7000080800000, true, by decide +kernel⟩

theorem wit_ObjectsGroupHeadsAndSettler_15 : ∃ (s : State) (src : Source) (sl i r : Nat) (e : Word), 
    (sl < 8 ∧ s.mayGo src (headWin sl) = true) ∧
    (i = (s.chip.winIn src (headWin sl)).index ∧ e = BitVec.ofNat 64 (bits (s.chip.winIn src (headWin sl)).data 63 0)) ∧
    (i < 131072 ∧ bits e 22 16 = 0 ∧ (s.chip.winIn src (headWin sl)).seq = (s.chip.obj sl).headSeq.look i) ∧
    (s.chip.judge src (vValidity (s.chip.vGet .head sl i)) (vValidity e) (bits (s.chip.vGet .head sl i) 30 0 == bits e 30 0) = .refuse r ∧
      r < 8) := ⟨st fun c => ((tables c).setReg (headWin 0) 3).setWinData (headWin 0) (BitVec.ofNat 256 (6 * 2 ^ 48 + 0x80800000)), .pf, 0,
      3, 3, 0x6000080800000, by decide +kernel⟩

theorem wit_ObjectsGroupHeadsAndSettler_16 : ∃ (s : State) (src : Source) (sl i : Nat) (e : Word), 
    (sl < 8 ∧ s.mayGo src (headWin sl) = true) ∧
    (i = (s.chip.winIn src (headWin sl)).index ∧ e = BitVec.ofNat 64 (bits (s.chip.winIn src (headWin sl)).data 63 0)) ∧
    (131072 ≤ i ∨ bits e 22 16 ≠ 0 ∨ (s.chip.winIn src (headWin sl)).seq ≠ (s.chip.obj sl).headSeq.look i) :=
      ⟨st fun c => ((tables c).setReg (headWin 0) 3).setWinData (headWin 0) 0x10000, .pf, 0, 3, 0x10000, by decide +kernel⟩

theorem wit_ObjectsGroupHeadsAndSettler_17 : ∃ (s : State) (p : SettlePlace), 
    (s.runs .core = true) ∧
    (s.chip.placeOk p = true ∧ s.chip.inReset (Chip.placeUnit p) = false ∧ s.chip.get 0 R.ACCORD_OLDEST_number ≠ 0) ∧
    (U.level (Chip.placeUnit p) ≠ 4 ∨ s.chip.house.sleep.look (U.index (Chip.placeUnit p)) = 0) ∧
    (s.chip.settle (s.chip.placeValidity p) ≠ s.chip.placeValidity p) :=
      ⟨st fun c => { tables c with objects := [(0, { heads := [(3, BitVec.ofNat 64 (5 * 2 ^ 32 + 0x80800000))] })] }, .head 0 3,
      by decide +kernel⟩

theorem wit_ObjectsGroupHeadsAndSettler_18 : ∃ (s : State) (sl i : Nat) (p : SettlePlace) (v : Validity), 
    (s.runs .core = true) ∧
    ((s.chip.sliceMates sl).Nodup ∧ sl ∈ s.chip.sliceMates sl) ∧
    (p = .head sl i) ∧
    (s.chip.placeOk p = true ∧ s.chip.inReset (Chip.placeUnit p) = false ∧ s.chip.get 0 R.ACCORD_OLDEST_number ≠ 0) ∧
    (s.chip.house.sleep.look sl = 0 ∧ sl < 8) ∧
    (vValidity (s.chip.vGet .head sl i) = v ∧ s.chip.settle v ≠ v) :=
      ⟨st fun c => { tables c with objects := [(0, { heads := [(3, BitVec.ofNat 64 (5 * 2 ^ 32 + 0x80800000))] })] }, 0, 3, .head 0 3,
      ⟨true, 0, 5⟩, by decide +kernel⟩

theorem wit_ObjectsGroupHeadsAndSettler_19 : ∃ (s : State) (p : SettlePlace), 
    (s.runs .core = true) ∧
    (s.chip.placeOk p = true ∧ s.chip.inReset (Chip.placeUnit p) = false ∧ s.chip.get 0 R.ACCORD_OLDEST_number ≠ 0) ∧
    (U.level (Chip.placeUnit p) ≠ 4 ∨ s.chip.house.sleep.look (U.index (Chip.placeUnit p)) = 0) ∧
    (s.chip.settle (s.chip.placeValidity p) = s.chip.placeValidity p) := ⟨st tables, .em 0 5, by decide +kernel⟩

theorem wit_ObjectsGroupHeadsAndSettler_20 : ∃ (s : State) (p : SettlePlace), 
    (s.runs .core = true) ∧
    (s.chip.placeOk p = true ∧ s.chip.inReset (Chip.placeUnit p) = false ∧ s.chip.get 0 R.ACCORD_OLDEST_number ≠ 0) ∧
    (U.level (Chip.placeUnit p) = 4 ∧ (s.chip.house.sleep.look (U.index (Chip.placeUnit p)) = 1 ∨
      s.chip.house.sleep.look (U.index (Chip.placeUnit p)) = 2) ∧
      U.index (Chip.placeUnit p) < 8) := ⟨st fun c => { tables c with house := { (tables c).house with sleep := [(0, 2)] } }, .em 0 5,
      by decide +kernel⟩

theorem wit_ObjectsGroupHeadsAndSettler_21 : ∃ (s : State) (p : SettlePlace), 
    (s.runs .core = true) ∧
    (s.chip.placeOk p = false ∨ s.chip.inReset (Chip.placeUnit p) = true ∨
      s.chip.get 0 R.ACCORD_OLDEST_number = 0) := ⟨st fun c => (tables c).put 0 R.ACCORD_OLDEST_number 0, .em 0 5, by decide +kernel⟩

theorem wit_FabricCarriesCells_1 : ∃ (s : State) (sl k id : Nat) (v : Stream), 
    (s.runs .core = true) ∧
    (s.chip.alive (U.slice sl) = true ∧ s.chip.house.sleep.look sl = 0 ∧ sl < 8 ∧ s.chip.planeRuns k = true ∧
      s.chip.linkRoom k sl true = true) ∧
    (s.chip.barriersDue.look (sl * 4 + k) = [] ∨ (s.chip.pinned sl k).any (fun x => x.2.sent != 0) = true ∨
      s.chip.credits k sl [((s.chip.barriersDue.look (sl * 4 + k)).headD 0)] = false) ∧
    (s.chip.pickStream k sl (s.chip.pinned sl k) 0 ((s.chip.pinned sl k).filter fun x => x.2.sent != 0).length = some (id, v)) :=
      ⟨st fun c => { c with frames := [(9, some (looking .judged 0 []))], streams := [(10, some { frame := 9, mask := 2, plane := some 1, left := 2, openAt := 2 })] },
      0, 1, 10, { frame := 9, mask := 2, plane := some 1, left := 2, openAt := 2 }, by decide +kernel⟩

theorem wit_FabricCarriesCells_2 : ∃ (s : State) (sl k d : Nat) (l : List Nat), 
    (s.runs .core = true) ∧
    (s.chip.alive (U.slice sl) = true ∧ s.chip.house.sleep.look sl = 0 ∧ sl < 8 ∧ s.chip.planeRuns k = true ∧
      s.chip.linkRoom k sl true = true) ∧
    (s.chip.barriersDue.look (sl * 4 + k) = d :: l ∧ (s.chip.pinned sl k).any (fun x => x.2.sent != 0) = false ∧
      s.chip.credits k sl [d] = true) := ⟨st fun c => { c with barriersDue := [(1, [3, 4])] }, 0, 1, 3, [4], by decide +kernel⟩

theorem wit_FabricCarriesCells_3 : ∃ (s : State) (sl k : Nat), 
    (s.runs .core = true) ∧
    ((s.chip.alive (U.slice sl) = false ∨ s.chip.house.sleep.look sl ≠ 0 ∨ 8 ≤ sl ∨ s.chip.planeRuns k = false ∨
      s.chip.linkRoom k sl true = false) ∨ ((s.chip.barriersDue.look (sl * 4 + k) = [] ∨
      (s.chip.pinned sl k).any (fun x => x.2.sent != 0) = true) ∧
      s.chip.pickStream k sl (s.chip.pinned sl k) 0 ((s.chip.pinned sl k).filter fun x => x.2.sent != 0).length = none)) := ⟨st fun c => c,
      0, 1, by decide +kernel⟩

theorem wit_FabricCarriesCells_4 : ∃ (s : State) (k sl : Nat) (x : Cell) (l : List Cell), 
    (s.runs .core = true) ∧
    (s.chip.sliceEnabled sl = true ∧ sl < 8 ∧ s.chip.planeRuns k = true) ∧
    ((s.chip.injected (planeUnit k) 3 != 0 && s.chip.ledger.inj.any fun i => i.addr % 8 == sl) = false) ∧
    ((s.chip.lnk k sl true).flight = x :: l ∧ x.seq = (s.chip.lnk k sl true).expect) :=
      ⟨st fun c => c.setLnk 1 2 true { expect := 7, flight := [{ seq := 7, mcast := true, mask := 12 }] }, 1, 2,
      { seq := 7, mcast := true, mask := 12 }, [], by decide +kernel⟩

theorem wit_FabricCarriesCells_5 : ∃ (s : State) (k sl : Nat) (damaged : Bool) (x : Cell) (l : List Cell), 
    (s.runs .core = true) ∧
    (s.chip.sliceEnabled sl = true ∧ sl < 8 ∧ s.chip.planeRuns k = true) ∧
    (damaged = true ∨ (s.chip.injected (planeUnit k) 3 != 0 && s.chip.ledger.inj.any fun i => i.addr % 8 == sl) = true) ∧
    ((s.chip.lnk k sl true).flight = x :: l) ∧
    ((if (s.chip.lnk k sl true).nakRun ≠ 0 ∧ (s.chip.lnk k sl true).lastNak =
      (s.chip.lnk k sl true).expect then (s.chip.lnk k sl true).nakRun + 1 else 1) < s.chip.get (A.plane k) R.PLANE_REPLAY_max_naks) :=
      ⟨st fun c => c.setLnk 1 2 true { expect := 7, flight := [{ seq := 7, dst := 3 }] }, 1, 2, true, { seq := 7, dst := 3 }, [],
      by decide +kernel⟩

theorem wit_FabricCarriesCells_6 : ∃ (s : State) (k sl : Nat) (x : Cell) (l : List Cell), 
    (s.runs .core = true) ∧
    (s.chip.sliceEnabled sl = true ∧ sl < 8 ∧ s.chip.planeRuns k = true) ∧
    ((s.chip.injected (planeUnit k) 3 != 0 && s.chip.ledger.inj.any fun i => i.addr % 8 == sl) = false) ∧
    ((s.chip.lnk k sl true).flight = x :: l ∧ x.seq ≠ (s.chip.lnk k sl true).expect) ∧
    ((s.chip.lnk k sl true).asked = true ∨ (if (s.chip.lnk k sl true).nakRun ≠ 0 ∧
      (s.chip.lnk k sl true).lastNak = (s.chip.lnk k sl true).expect then (s.chip.lnk k sl true).nakRun + 1 else 1) < s.chip.get (A.plane k)
      R.PLANE_REPLAY_max_naks) := ⟨st fun c => c.setLnk 1 2 true { expect := 7, flight := [{ seq := 8, dst := 3 }] }, 1, 2,
      { seq := 8, dst := 3 }, [], by decide +kernel⟩

theorem wit_FabricCarriesCells_7 : ∃ (s : State) (k sl : Nat) (x : Cell) (l : List Cell), 
    (s.runs .core = true) ∧
    (s.chip.sliceEnabled sl = true ∧ sl < 8 ∧ s.chip.planeRuns k = true) ∧
    ((s.chip.lnk k sl true).flight = x :: l) ∧
    (s.chip.get (A.plane k) R.PLANE_REPLAY_max_naks ≤ (if (s.chip.lnk k sl true).nakRun ≠ 0 ∧
      (s.chip.lnk k sl true).lastNak = (s.chip.lnk k sl true).expect then (s.chip.lnk k sl true).nakRun + 1 else 1)) :=
      ⟨st fun c => (c.setLnk 1 2 true { expect := 7, flight := [{ seq := 7, dst := 3 }], nakRun := 2, lastNak := 7 }).put (A.plane 1)
      R.PLANE_REPLAY_max_naks 3, 1, 2, { seq := 7, dst := 3 }, [], by decide +kernel⟩

theorem wit_FabricCarriesCells_8 : ∃ (s : State) (k sl : Nat) (damaged : Bool), 
    (s.runs .core = true) ∧
    ((s.chip.sliceEnabled sl = false ∨ 8 ≤ sl ∨ s.chip.planeRuns k = false) ∨
      (s.chip.lnk k sl true).flight = []) := ⟨st id, 1, 2, true, by decide +kernel⟩

theorem wit_FabricCarriesCells_9 : ∃ (s : State) (k sl : Nat) (x : Cell) (l m : List Cell), 
    (s.runs .core = true) ∧
    (s.chip.sliceEnabled sl = true ∧ sl < 8 ∧ s.chip.planeRuns k = true) ∧
    (s.chip.linkRoom k sl false = true) ∧
    (((s.chip.pl k).loop.look sl = x :: l ∧ m = (s.chip.pl k).outs.look sl) ∨ ((s.chip.pl k).loop.look sl = [] ∧ l = [] ∧
      (s.chip.pl k).outs.look sl = x :: m)) := ⟨st fun c => c.setPl 1 { outs := [(2, [{ src := 3 }])], used := [(26, 4)] }, 1, 2,
      { src := 3 }, [], [], by decide +kernel⟩

theorem wit_FabricCarriesCells_10 : ∃ (s : State) (k sl : Nat) (x : Cell) (l m : List Cell), 
    (s.runs .core = true) ∧
    (s.chip.sliceEnabled sl = true ∧ sl < 8 ∧ s.chip.planeRuns k = true) ∧
    (s.chip.linkRoom k sl false = true) ∧
    (((s.chip.pl k).loop.look sl = x :: l ∧ m = (s.chip.pl k).outs.look sl) ∨ ((s.chip.pl k).loop.look sl = [] ∧ l = [] ∧
      (s.chip.pl k).outs.look sl = x :: m)) ∧
    (x.barrier = true ∨ s.chip.cellsAhead k sl x ≠ []) ∧
    (((s.chip.pl k).errors.filter fun t => !(s.chip.passedUs t 1000)).length < 4) :=
      ⟨st fun c => c.setPl 1 { outs := [(2, [{ src := 3, barrier := true }])], used := [(26, 4)] }, 1, 2, { src := 3, barrier := true }, [],
      [], by decide +kernel⟩

theorem wit_FabricCarriesCells_11 : ∃ (s : State) (k sl : Nat) (x : Cell) (m : List Cell), 
    (s.runs .core = true) ∧
    (s.chip.sliceEnabled sl = true ∧ sl < 8 ∧ s.chip.planeRuns k = true) ∧
    (s.chip.linkRoom k sl false = true) ∧
    ((s.chip.pl k).loop.look sl = [] ∧ (s.chip.pl k).outs.look sl = x :: m) ∧
    (x.barrier = false ∧ x.first = false ∧ x.last = false ∧ s.chip.cellsAhead k sl x = [] ∧ s.chip.openArrival sl x.src k x.tag = none) ∧
    (((s.chip.pl k).errors.filter fun t => !(s.chip.passedUs t 1000)).length < 4) :=
      ⟨st fun c => c.setPl 1 { outs := [(2, [{ src := 3 }])], used := [(26, 4)] }, 1, 2, { src := 3 }, [], by decide +kernel⟩

theorem wit_FabricCarriesCells_12 : ∃ (s : State) (k sl : Nat) (poisoned : Bool), 
    (s.runs .core = true) ∧
    ((s.chip.sliceEnabled sl = false ∨ 8 ≤ sl ∨ s.chip.planeRuns k = false) ∨ s.chip.linkRoom k sl false = false ∨
      ((s.chip.pl k).loop.look sl = [] ∧ (s.chip.pl k).outs.look sl = [])) := ⟨st id, 1, 2, false, by decide +kernel⟩

theorem wit_FabricCarriesCells_13 : ∃ (s : State) (sl k a i p : Nat) (x : Cell) (l : List Cell) (v : Arrival), 
    (s.runs .core = true) ∧
    (s.chip.sliceEnabled sl = true ∧ sl < 8 ∧ s.chip.planeRuns k = true) ∧
    ((s.chip.lnk k sl false).flight = x :: l ∧ x.seq = (s.chip.lnk k sl false).expect ∧ x.barrier = false) ∧
    (x.first = false ∧ x.last = false ∧ x.lost = false) ∧
    (s.chip.house.sleep.look sl = 0 ∧ s.chip.inReset (U.slice sl) = false ∧ s.chip.newEpoch sl x = false) ∧
    ((s.chip.streams.look x.stream).isSome = true ∧ s.chip.openArrival sl x.src k x.tag = some a ∧ v = s.chip.arr a ∧
      p = s.chip.lowestFree (sl / 4)) ∧
    (v.dead = false ∧ 0 < v.reserved ∧ v.copies.length ≤ 1 ∧ s.chip.reqOf (sl / 4) v.lodger = some i) ∧
    ((s.chip.grp (U.halfBlk (sl / 4) 0)).poison = [] ∧ s.chip.lowestFree (sl / 4) < halfCells ∧
      s.chip.injected (s.chip.arr a).lodger 2 = 0) ∧
    ((s.chip.arrivalPorts a).all (fun q => s.chip.get (A.port q) R.GATE_CTRL_enable == 0) = true) :=
      ⟨st fun c => { (((c.setLnk 1 0 false { expect := 7, flight := [{ seq := 7, len := 256, src := 2, stream := 10, tag := 10, index := 1 }] }).put (A.half 0) R.INNK_REQ_ID_present 1).put (A.half 0) R.INNK_REQ_ID_unit_id 0x8000) with frames := [(9, some (looking .judged 0 []))], streams := [(10, some { frame := 9, mask := 1, openAt := 1 })], arrivals := [(11, some { src := 2, plane := 1, tag := 10, stream := 10, frame := 9, reserved := 4, lodger := 0x8000, places := [.die 0], copies := [12] })], copies := [(12, some { arrival := 11 })] },
      0, 1, 11, 0, 0, { seq := 7, len := 256, src := 2, stream := 10, tag := 10, index := 1 }, [],
      { src := 2, plane := 1, tag := 10, stream := 10, frame := 9, reserved := 4, lodger := 0x8000, places := [.die 0], copies := [12] },
      by decide +kernel⟩

theorem wit_FabricCarriesCells_14 : ∃ (s : State) (sl k : Nat) (x : Cell) (l : List Cell), 
    (s.runs .core = true) ∧
    (s.chip.sliceEnabled sl = true ∧ sl < 8 ∧ s.chip.planeRuns k = true) ∧
    ((s.chip.lnk k sl false).flight = x :: l ∧ x.seq = (s.chip.lnk k sl false).expect ∧ x.barrier = false) ∧
    (s.chip.house.sleep.look sl ≠ 0 ∧ s.chip.inReset (U.slice sl) = false) :=
      ⟨st fun c => { (c.setLnk 1 0 false { expect := 7, flight := [{ seq := 7, len := 256, src := 2, stream := 10, tag := 10, index := 1 }] }) with house := { c.house with sleep := [(0, 2)] } },
      0, 1, { seq := 7, len := 256, src := 2, stream := 10, tag := 10, index := 1 }, [], by decide +kernel⟩

theorem wit_FabricCarriesCells_15 : ∃ (s : State) (sl k : Nat) (x : Cell) (l : List Cell), 
    (s.runs .core = true) ∧
    (s.chip.sliceEnabled sl = true ∧ sl < 8 ∧ s.chip.planeRuns k = true) ∧
    ((s.chip.lnk k sl false).flight = x :: l ∧ x.seq = (s.chip.lnk k sl false).expect ∧ x.barrier = false) ∧
    (s.chip.house.sleep.look sl = 0 ∧ s.chip.inReset (U.slice sl) = false ∧ s.chip.newEpoch sl x = true ∧
      x.src < 8) := ⟨st fun c =>
      { (c.setLnk 1 0 false { expect := 7, flight := [{ seq := 7, src := 2, first := true, epoch := 1 }] }).put (A.slice 2) R.FAB_STATUS_epoch 1 with awaited := [(2, [(3, 0)])] },
      0, 1, { seq := 7, src := 2, first := true, epoch := 1 }, [], by decide +kernel⟩

theorem wit_FabricCarriesCells_16 : ∃ (s : State) (sl k : Nat) (x : Cell) (l : List Cell), 
    (s.runs .core = true) ∧
    (s.chip.sliceEnabled sl = true ∧ sl < 8 ∧ s.chip.planeRuns k = true) ∧
    ((s.chip.lnk k sl false).flight = x :: l ∧ x.seq = (s.chip.lnk k sl false).expect ∧ x.barrier = false) ∧
    (x.first = false ∧ x.last = false) ∧
    ((s.chip.inReset (U.slice sl) = true ∧ (s.chip.house.sleep.look sl = 0 ∨ s.chip.wakeFull sl = false)) ∨
      (s.chip.inReset (U.slice sl) = false ∧ s.chip.house.sleep.look sl = 0 ∧ s.chip.newEpoch sl x = false ∧
      s.chip.streams.look x.stream = none)) := ⟨st fun c => c.setLnk 1 0 false
      { expect := 7, flight := [{ seq := 7, len := 256, src := 2, stream := 10, tag := 10, index := 1 }] }, 0, 1,
      { seq := 7, len := 256, src := 2, stream := 10, tag := 10, index := 1 }, [], by decide +kernel⟩

theorem wit_FabricCarriesCells_17 : ∃ (s : State) (sl k : Nat) (x : Cell) (l : List Cell), 
    (s.runs .core = true) ∧
    (s.chip.sliceEnabled sl = true ∧ sl < 8 ∧ s.chip.planeRuns k = true) ∧
    ((s.chip.lnk k sl false).flight = x :: l) ∧
    ((if (s.chip.lnk k sl false).nakRun ≠ 0 ∧ (s.chip.lnk k sl false).lastNak =
      (s.chip.lnk k sl false).expect then (s.chip.lnk k sl false).nakRun + 1 else 1) < s.chip.get (A.plane k) R.PLANE_REPLAY_max_naks) :=
      ⟨st fun c => c.setLnk 1 2 false { expect := 7, flight := [{ seq := 7, dst := 3 }] }, 2, 1, { seq := 7, dst := 3 }, [],
      by decide +kernel⟩

theorem wit_FabricCarriesCells_18 : ∃ (s : State) (sl k : Nat) (damaged : Bool), 
    (s.runs .core = true) ∧
    ((s.chip.sliceEnabled sl = false ∨ 8 ≤ sl ∨ s.chip.planeRuns k = false) ∨
      (s.chip.lnk k sl false).flight = []) := ⟨st id, 1, 2, true, by decide +kernel⟩

theorem wit_FabricCarriesCells_19 : ∃ (s : State) (k sl n : Nat) (up : Bool) (a m : List Nat) (b r : List Cell) (x : Cell), 
    (s.runs .core = true) ∧
    (s.chip.sliceEnabled sl = true ∧ sl < 8 ∧ s.chip.planeRuns k = true) ∧
    ((s.chip.lnk k sl up).acks = a ++ n :: m ∧ n ∉ a) ∧
    ((s.chip.lnk k sl up).replay = b ++ x :: r ∧ b.all (fun y => y.seq != n) = true ∧
      x.seq = n) := ⟨st fun c => c.setLnk 1 2 true { acks := [6, 7, 8], replay := [{ seq := 6 }, { seq := 7 }, { seq := 8 }] }, 1, 2, 7,
      true, [6], [8], [{ seq := 6 }], [{ seq := 8 }], { seq := 7 }, by decide +kernel⟩

theorem wit_FabricCarriesCells_20 : ∃ (s : State) (k sl n : Nat) (up : Bool), 
    (s.runs .core = true) ∧
    ((s.chip.sliceEnabled sl = false ∨ 8 ≤ sl ∨ s.chip.planeRuns k = false) ∨
      n ∉ (s.chip.lnk k sl up).acks) := ⟨st id, 1, 2, 7, true, by decide +kernel⟩

theorem wit_FabricCarriesCells_21 : ∃ (s : State) (k sl n : Nat) (up : Bool) (a m : List Nat) (b r : List Cell) (x : Cell), 
    (s.runs .core = true) ∧
    (s.chip.sliceEnabled sl = true ∧ sl < 8 ∧ s.chip.planeRuns k = true) ∧
    ((s.chip.lnk k sl up).naks = a ++ n :: m ∧ n ∉ a) ∧
    ((s.chip.lnk k sl up).replay = b ++ x :: r ∧ b.all (fun y => y.seq != n) = true ∧
      x.seq = n) := ⟨st fun c => c.setLnk 1 2 true { naks := [7], replay := [{ seq := 6 }, { seq := 7 }, { seq := 8 }] }, 1, 2, 7, true, [],
      [], [{ seq := 6 }], [{ seq := 8 }], { seq := 7 }, by decide +kernel⟩

theorem wit_FabricCarriesCells_22 : ∃ (s : State) (k sl n : Nat) (up : Bool), 
    (s.runs .core = true) ∧
    ((s.chip.sliceEnabled sl = false ∨ 8 ≤ sl ∨ s.chip.planeRuns k = false) ∨
      n ∉ (s.chip.lnk k sl up).naks) := ⟨st id, 1, 2, 7, false, by decide +kernel⟩

theorem wit_FabricCarriesCells_23 : ∃ (s : State) (k sl : Nat) (up : Bool), 
    (s.runs .core = true) ∧
    (s.chip.sliceEnabled sl = true ∧ sl < 8 ∧ s.chip.planeRuns k = true) ∧
    (s.chip.get (A.plane k) R.PLANE_REPLAY_crc_alarm ≠ 0 ∧ s.chip.get (A.plane k) R.PLANE_REPLAY_crc_alarm < (s.chip.lnk k sl up).badCells)
      := ⟨st fun c => (c.setLnk 1 2 true { badCells := 9 }).put (A.plane 1) R.PLANE_REPLAY_crc_alarm 8, 1, 2, true, by decide +kernel⟩

theorem wit_FabricCarriesCells_24 : ∃ (s : State) (k sl : Nat) (up : Bool), 
    (s.runs .core = true) ∧
    (s.chip.sliceEnabled sl = true ∧ sl < 8 ∧ s.chip.planeRuns k = true) ∧
    (s.chip.get (A.plane k) R.PLANE_REPLAY_crc_alarm = 0 ∨ (s.chip.lnk k sl up).badCells ≤ s.chip.get (A.plane k) R.PLANE_REPLAY_crc_alarm)
      := ⟨st fun c => c.setLnk 1 2 true { badCells := 9, alarmed := true }, 1, 2, true, by decide +kernel⟩

theorem wit_FabricCarriesCells_25 : ∃ (s : State) (k sl : Nat) (up : Bool), 
    (s.runs .core = true) ∧
    (s.chip.sliceEnabled sl = false ∨ 8 ≤ sl ∨ s.chip.planeRuns k = false) := ⟨st id, 7, 2, true, by decide +kernel⟩

theorem wit_FabricCarriesCells_26 : ∃ (s : State) (p id n : Nat) (l : List Nat) (v : Copy), 
    (s.runs .core = true) ∧
    (p < 128 ∧ s.chip.alive (U.slice (p / 16)) = true ∧ (s.chip.sch (p / 16)).coach.look p = id :: l) ∧
    (s.chip.copies.look id = some v ∧ v.port = p ∧ v.slice = p / 16) ∧
    (s.chip.copyReady id ((s.chip.arr v.arrival).places.length + (s.chip.arr v.arrival).reserved) = true ∧
      s.chip.queueSeen p v.named v.cls = some n) ∧
    ((s.chip.grp (Chip.schedGroup (p / 16))).poison = [] ∧ s.chip.get (A.port p) R.GATE_CTRL_enable = 0) :=
      ⟨sched (fun c => { c with scheds := [(0, { coach := [(0, [12])] })] }), 0, 12, 19, [],
      { arrival := 11, sub := 2, named := 2, cls := 3, mcast := true }, by decide +kernel⟩

theorem wit_FabricCarriesCells_27 : ∃ (s : State) (p : Nat), 
    (s.runs .core = true) ∧
    (128 ≤ p ∨ s.chip.alive (U.slice (p / 16)) = false ∨ (s.chip.sch (p / 16)).coach.look p = [] ∨
      ((s.chip.sch (p / 16)).coach.look p).all (fun id => !(s.chip.copyReady id ((s.chip.arr (s.chip.cpy id).arrival).places.length +
      (s.chip.arr (s.chip.cpy id).arrival).reserved))) = true) := ⟨st id, 0, by decide +kernel⟩

theorem wit_FabricCarriesCells_28 : ∃ (s : State) (p id : Nat) (l : List Nat) (v : Copy), 
    (s.runs .core = true) ∧
    (p < 128 ∧ s.chip.alive (U.slice (p / 16)) = true ∧ (s.chip.sch (p / 16)).coach.look p = id :: l) ∧
    (s.chip.copies.look id = some v ∧ v.port = p ∧ v.slice = p / 16) ∧
    (id ∉ l) ∧
    (v.coachAt + (s.chip.get (A.slice (p / 16)) R.COACH_CTRL_max_wait_us * 1000) < s.chip.now) :=
      ⟨sched (fun c => { c with scheds := [(0, { coach := [(0, [12])] })], now := 100000000 }), 0, 12, [],
      { arrival := 11, sub := 2, named := 2, cls := 3, mcast := true }, by decide +kernel⟩

theorem wit_FabricCarriesCells_29 : ∃ (s : State) (p : Nat), 
    (s.runs .core = true) ∧
    (128 ≤ p ∨ s.chip.alive (U.slice (p / 16)) = false ∨ (s.chip.sch (p / 16)).coach.look p = [] ∨
      ((s.chip.sch (p / 16)).coach.look p).all (fun id => decide (s.chip.now ≤ (s.chip.cpy id).coachAt + (s.chip.get (A.slice (p / 16))
      R.COACH_CTRL_max_wait_us * 1000))) = true) := ⟨sched (fun c => { c with scheds := [(0, { coach := [(0, [12])] })] }), 0,
      by decide +kernel⟩

theorem wit_PlanesFailDrainAndReturn_1 : ∃ (s : State) (k sl : Nat) (up : Bool), 
    (s.runs .core = true) ∧
    (k < 4 ∧ sl < 8 ∧ s.chip.sliceEnabled sl = true ∧ s.chip.linkUp k sl = true) ∧
    (s.chip.planeState k = 0) ∧
    (s.chip.begunOn k = [] ∧ (List.range 64).all (fun i => !((s.chip.awaited.look i).any fun w => w.1 == k)) = true) :=
      ⟨st fun c => c.put (A.plane 1) R.PLANE_STATUS_links_up 255, 1, 2, true, by decide +kernel⟩

theorem wit_PlanesFailDrainAndReturn_2 : ∃ (s : State) (k sl : Nat) (up : Bool), 
    (s.runs .core = true) ∧
    (k < 4 ∧ sl < 8 ∧ s.chip.sliceEnabled sl = true ∧ s.chip.linkUp k sl = true) ∧
    (s.chip.planeState k = 1 ∨ s.chip.planeState k = 3) ∧
    (s.chip.begunOn k = [] ∧ (List.range 64).all (fun i => !((s.chip.awaited.look i).any fun w => w.1 == k)) = true) :=
      ⟨st fun c => (c.put (A.plane 1) R.PLANE_STATUS_links_up 255).put (A.plane 1) R.PLANE_STATUS_state 3, 1, 2, true, by decide +kernel⟩

theorem wit_PlanesFailDrainAndReturn_3 : ∃ (s : State) (k sl : Nat) (up : Bool), 
    (s.runs .core = true) ∧
    (k < 4 ∧ sl < 8 ∧ s.chip.sliceEnabled sl = true ∧ s.chip.linkUp k sl = true) ∧
    (s.chip.planeState k = 2) := ⟨st fun c => (c.put (A.plane 1) R.PLANE_STATUS_links_up 255).put (A.plane 1) R.PLANE_STATUS_state 2, 1, 2,
      true, by decide +kernel⟩

theorem wit_PlanesFailDrainAndReturn_4 : ∃ (s : State) (k sl : Nat) (up : Bool), 
    (s.runs .core = true) ∧
    (4 ≤ k ∨ s.chip.sliceEnabled sl = false ∨ s.chip.linkUp k sl = false) := ⟨st id, 9, 2, true, by decide +kernel⟩

theorem wit_PlanesFailDrainAndReturn_5 : ∃ (s : State) (k : Nat), 
    (s.runs .core = true) ∧
    (k < 4 ∧ s.chip.image.applied = true ∧ s.chip.inReset (planeUnit k) = false) ∧
    (s.chip.planeState k ≠ 2) ∧
    (s.chip.begunOn k = [] ∧ (List.range 64).all (fun i => !((s.chip.awaited.look i).any fun w => w.1 == k)) = true) :=
      ⟨st fun c => c.put (A.plane 1) R.PLANE_STATUS_links_up 255, 1, by decide +kernel⟩

theorem wit_PlanesFailDrainAndReturn_6 : ∃ (s : State) (k : Nat), 
    (s.runs .core = true) ∧
    ((4 ≤ k ∨ s.chip.image.applied = false ∨ s.chip.inReset (planeUnit k) = true) ∨
      s.chip.planeState k = 2) := ⟨st fun c => c.put (A.plane 1) R.PLANE_STATUS_state 2, 1, by decide +kernel⟩

theorem wit_PlanesFailDrainAndReturn_7 : ∃ (s : State) (src : Source) (k : Nat), 
    (k < 4 ∧ s.serves src (A.plane k + R.PLANE_CMD) true = true) ∧
    (s.chip.repinRuns = false ∧ s.chip.planeState k = 0 ∧ 2 ≤ s.chip.planesUp.length) := ⟨st id, .pf, 2, by decide +kernel⟩

theorem wit_PlanesFailDrainAndReturn_8 : ∃ (s : State) (src : Source) (k : Nat), 
    (k < 4 ∧ s.serves src (A.plane k + R.PLANE_CMD) true = true) ∧
    (s.chip.repinRuns = true ∨ s.chip.planeState k ≠ 0 ∨ s.chip.planesUp.length ≤ 1) := ⟨st fun c => c.each [0, 1,
      3] fun c k => c.put (A.plane k) R.PLANE_STATUS_state 3, .pf, 2, by decide +kernel⟩

theorem wit_PlanesFailDrainAndReturn_9 : ∃ (s : State) (src : Source) (k : Nat), 
    (k < 4 ∧ s.serves src (A.plane k + R.PLANE_CMD) true = true) ∧
    (s.chip.repinRuns = false ∧ ((s.chip.planeState k = 3 ∨ (s.chip.planeState k = 2 ∧ (s.chip.pl k).wasReset = true)) ∧
      s.chip.inReset (planeUnit k) = false ∧ s.chip.enabledSlices.all (fun x => s.chip.linkUp k x) = true)) :=
      ⟨st fun c => (c.put (A.plane 1) R.PLANE_STATUS_links_up 255).put (A.plane 1) R.PLANE_STATUS_state 3, .pf, 1, by decide +kernel⟩

theorem wit_PlanesFailDrainAndReturn_10 : ∃ (s : State) (src : Source) (k : Nat), 
    (k < 4 ∧ s.serves src (A.plane k + R.PLANE_CMD) true = true) ∧
    (s.chip.repinRuns = true ∨ ¬ ((s.chip.planeState k = 3 ∨ (s.chip.planeState k = 2 ∧ (s.chip.pl k).wasReset = true)) ∧
      s.chip.inReset (planeUnit k) = false ∧ s.chip.enabledSlices.all (fun x => s.chip.linkUp k x) = true)) := ⟨st id, .pf, 1,
      by decide +kernel⟩

theorem wit_PlanesFailDrainAndReturn_11 : ∃ (s : State) (k : Nat), 
    (s.runs .core = true) ∧
    (k < 4 ∧ s.chip.planeState k = 1) ∧
    (s.chip.begunOn k = []) ∧
    ((s.chip.planeCells k = 0 ∧ s.chip.begunOn k = [] ∧ (List.range 8).all (fun x => (s.chip.barriersDue.look (x * 4 + k)).isEmpty) =
      true) ∨ s.chip.passedUs (s.chip.pl k).drainAt ((s.chip.enabledSlices.map s.chip.drainUs).foldl Nat.max 0 + 5) = true) :=
      ⟨st fun c => c.put (A.plane 1) R.PLANE_STATUS_state 1, 1, by decide +kernel⟩

theorem wit_PlanesFailDrainAndReturn_12 : ∃ (s : State) (k : Nat), 
    (s.runs .core = true) ∧
    (4 ≤ k ∨ s.chip.planeState k ≠ 1 ∨ (¬ (s.chip.planeCells k = 0 ∧ s.chip.begunOn k = [] ∧
      (List.range 8).all (fun x => (s.chip.barriersDue.look (x * 4 + k)).isEmpty) = true) ∧
      s.chip.passedUs (s.chip.pl k).drainAt ((s.chip.enabledSlices.map s.chip.drainUs).foldl Nat.max 0 + 5) = false)) := ⟨st id, 1,
      by decide +kernel⟩

theorem wit_PlanesFailDrainAndReturn_13 : ∃ (s : State) (k sl : Nat), 
    (s.runs .core = true) ∧
    (k < 4 ∧ sl < 8 ∧ s.chip.sliceEnabled sl = true ∧ s.chip.inReset (planeUnit k) = false) := ⟨st id, 1, 3, by decide +kernel⟩

theorem wit_PlanesFailDrainAndReturn_14 : ∃ (s : State) (k sl : Nat), 
    (s.runs .core = true) ∧
    (4 ≤ k ∨ 8 ≤ sl ∨ s.chip.sliceEnabled sl = false ∨ s.chip.inReset (planeUnit k) = true) := ⟨st id, 9, 3, by decide +kernel⟩

theorem wit_PlanesFailDrainAndReturn_15 : ∃ (s : State) (sl src k : Nat) (x : Cell) (l : List Cell), 
    (s.runs .core = true) ∧
    (s.chip.sliceEnabled sl = true ∧ sl < 8 ∧ s.chip.planeRuns k = true) ∧
    (src < 8 ∧ (s.chip.lnk k sl false).flight = x :: l ∧ x.barrier = true ∧ x.src = src ∧ x.seq = (s.chip.lnk k sl false).expect) ∧
    (s.chip.house.sleep.look sl = 0) ∧
    ((s.chip.awaited.look (sl * 8 + src)).filter (fun w => w.1 != k) ≠ [] ∨
      (s.chip.awaited.look (sl * 8 + src)) = []) := ⟨st fun c =>
      { c.setLnk 1 2 false { expect := 7, flight := [{ seq := 7, barrier := true, src := 3 }] } with awaited := [(19, [(1, 0), (2, 0)])] },
      2, 3, 1, { seq := 7, barrier := true, src := 3 }, [], by decide +kernel⟩

theorem wit_PlanesFailDrainAndReturn_16 : ∃ (s : State) (sl src k : Nat) (x : Cell) (l : List Cell), 
    (s.runs .core = true) ∧
    (s.chip.sliceEnabled sl = true ∧ sl < 8 ∧ s.chip.planeRuns k = true) ∧
    (src < 8 ∧ (s.chip.lnk k sl false).flight = x :: l ∧ x.barrier = true ∧ x.src = src ∧ x.seq = (s.chip.lnk k sl false).expect) ∧
    (s.chip.house.sleep.look sl = 0) ∧
    ((s.chip.awaited.look (sl * 8 + src)) ≠ [] ∧ (s.chip.awaited.look (sl * 8 + src)).filter (fun w => w.1 != k) = [] ∧
      s.chip.heldCells.look (sl * 8 + src) = []) := ⟨st fun c =>
      { c.setLnk 1 2 false { expect := 7, flight := [{ seq := 7, barrier := true, src := 3 }] } with awaited := [(19, [(1, 0)])] }, 2, 3, 1,
      { seq := 7, barrier := true, src := 3 }, [], by decide +kernel⟩

theorem wit_PlanesFailDrainAndReturn_17 : ∃ (s : State) (sl src k : Nat) (x : Cell) (l : List Cell), 
    (s.runs .core = true) ∧
    (s.chip.sliceEnabled sl = true ∧ sl < 8 ∧ s.chip.planeRuns k = true) ∧
    (src < 8 ∧ (s.chip.lnk k sl false).flight = x :: l ∧ x.barrier = true ∧ x.src = src ∧ x.seq = (s.chip.lnk k sl false).expect) ∧
    (s.chip.house.sleep.look sl ≠ 0) := ⟨st fun c =>
      { c.setLnk 1 2 false { expect := 7, flight := [{ seq := 7, barrier := true, src := 3 }] } with house := { c.house with sleep := [(2, 2)] } },
      2, 3, 1, { seq := 7, barrier := true, src := 3 }, [], by decide +kernel⟩

theorem wit_PlanesFailDrainAndReturn_18 : ∃ (s : State) (sl src k : Nat), 
    (s.runs .core = true) ∧
    ((s.chip.sliceEnabled sl = false ∨ 8 ≤ sl ∨ s.chip.planeRuns k = false) ∨
      (s.chip.lnk k sl false).flight.head?.all (fun x => !x.barrier || x.src != src || x.seq != (s.chip.lnk k sl false).expect) = true) :=
      ⟨st id, 2, 3, 1, by decide +kernel⟩

theorem wit_PlanesFailDrainAndReturn_19 : ∃ (s : State) (sl src t0 : Nat), 
    (s.runs .core = true) ∧
    (sl < 8 ∧ src < 8 ∧ s.chip.heldSince.look (sl * 8 + src) = some t0) ∧
    (s.chip.passedUs t0 (s.chip.drainUs sl) = true) := ⟨st fun c =>
      { c with awaited := [(19, [(1, 0)])], heldSince := [(19, some 0)], now := 5000000 }, 2, 3, 0, by decide +kernel⟩

theorem wit_PlanesFailDrainAndReturn_20 : ∃ (s : State) (sl src : Nat), 
    (s.runs .core = true) ∧
    ((8 ≤ sl ∨ 8 ≤ src) ∨ (s.chip.heldSince.look (sl * 8 + src)).all (fun t0 => !(s.chip.passedUs t0 (s.chip.drainUs sl))) = true) :=
      ⟨st id, 2, 3, by decide +kernel⟩

theorem wit_InnkeeperServesCells_1 : ∃ (s : State) (h req i : Nat), 
    (s.runs .core = true) ∧
    (s.chip.innkUp h = true) ∧
    (s.chip.injected req 2 = 0) ∧
    (s.chip.reqOf h req = some i) ∧
    (s.chip.canAlloc h i 1 = true) ∧
    ((s.chip.grp (U.halfBlk h 0)).poison = []) := ⟨innk id, 0, 0x8000, 0, by decide +kernel⟩

theorem wit_InnkeeperServesCells_2 : ∃ (s : State) (h req i : Nat) (listError : Bool), 
    (s.runs .core = true) ∧
    (s.chip.innkUp h = true) ∧
    (s.chip.injected req 2 = 0) ∧
    (s.chip.reqOf h req = some i) ∧
    (s.chip.used h i + 1 ≤ s.chip.cap h i ∧ s.chip.unmet h i + 2 ≤ s.chip.freeCells h) ∧
    ((listError = true ∧ (s.chip.grp (U.halfBlk h 0)).poison = []) ∨ (listError = false ∧
      (s.chip.grp (U.halfBlk h 0)).poison = [Chip.listWord (s.chip.lowestFree h)])) := ⟨innk id, 0, 0x8000, 0, true, by decide +kernel⟩

theorem wit_InnkeeperServesCells_3 : ∃ (s : State) (h req : Nat) (listError : Bool), 
    (s.runs .core = true) ∧
    (s.chip.innkUp h = false ∨ (s.chip.injected req 2 = 0 ∧ (s.chip.reqOf h req).all (fun i => !(s.chip.canAlloc h i 1)) = true)) :=
      ⟨innk (fun c => c.put (A.half 0) R.INNK_REQ_QUOTA_quota_cells 0), 0, 0x8000, false, by decide +kernel⟩

theorem wit_InnkeeperServesCells_4 : ∃ (s : State) (h req : Nat) (listError : Bool) (j : Injection), 
    (s.runs .core = true) ∧
    (s.chip.innkUp h = true) ∧
    (s.chip.ledger.inj = some j ∧ j.unit = req ∧ j.cls = 2 ∧ j.mask ≠ 0) :=
      ⟨innk (fun c => { c with ledger := { c.ledger with inj := some { unit := 0x8000, cls := 2, mask := 1, addr := 0, count := 1, react := false } } }),
      0, 0x8000, false, { unit := 0x8000, cls := 2, mask := 1, addr := 0, count := 1, react := false }, by decide +kernel⟩

theorem wit_InnkeeperServesCells_5 : ∃ (s : State) (h req addr n : Nat) (j : Injection), 
    (s.runs .core = true) ∧
    (s.chip.innkUp h = true) ∧
    (s.chip.ledger.inj = some j ∧ j.unit = req ∧ j.cls = 2 ∧ j.mask ≠ 0) :=
      ⟨innk (fun c => { c with ledger := { c.ledger with inj := some { unit := 0x8000, cls := 2, mask := 1, addr := 0, count := 1, react := false } } }),
      0, 0x8000, 0, 1, { unit := 0x8000, cls := 2, mask := 1, addr := 0, count := 1, react := false }, by decide +kernel⟩

theorem wit_InnkeeperServesCells_6 : ∃ (s : State) (h req addr next : Nat) (j : Injection), 
    (s.runs .core = true) ∧
    (s.chip.innkUp h = true) ∧
    (s.chip.ledger.inj = some j ∧ j.unit = req ∧ j.cls = 2 ∧ j.mask ≠ 0) :=
      ⟨innk (fun c => { c with ledger := { c.ledger with inj := some { unit := 0x8000, cls := 2, mask := 1, addr := 0, count := 1, react := false } } }),
      0, 0x8000, 0, 0x8001, { unit := 0x8000, cls := 2, mask := 1, addr := 0, count := 1, react := false }, by decide +kernel⟩

theorem wit_InnkeeperServesCells_7 : ∃ (s : State) (h req addr : Nat) (j : Injection), 
    (s.runs .core = true) ∧
    (s.chip.innkUp h = true) ∧
    (s.chip.ledger.inj = some j ∧ j.unit = req ∧ j.cls = 2 ∧ j.mask ≠ 0) :=
      ⟨innk (fun c => { c with ledger := { c.ledger with inj := some { unit := 0x8000, cls := 2, mask := 1, addr := 0, count := 1, react := false } } }),
      0, 0x8000, 0, { unit := 0x8000, cls := 2, mask := 1, addr := 0, count := 1, react := false }, by decide +kernel⟩

theorem wit_InnkeeperServesCells_8 : ∃ (s : State) (h req addr n : Nat), 
    (s.runs .core = true) ∧
    (s.chip.innkUp h = true) ∧
    (s.chip.injected req 2 = 0) ∧
    (s.chip.cellCheck h req addr = 0) := ⟨innk id, 0, 0x8000, 0, 3, by decide +kernel⟩

theorem wit_InnkeeperServesCells_9 : ∃ (s : State) (h req addr n : Nat), 
    (s.runs .core = true) ∧
    (s.chip.innkUp h = false) := ⟨innk id, 2, 0x8000, 0, 3, by decide +kernel⟩

theorem wit_InnkeeperServesCells_10 : ∃ (s : State) (h req addr next i j : Nat), 
    (s.runs .core = true) ∧
    (s.chip.innkUp h = true) ∧
    (s.chip.injected req 2 = 0) ∧
    (s.chip.cellCheck h req addr = 0) ∧
    (s.chip.reqOf h req = some i) ∧
    (s.chip.reqOf h next = some j) ∧
    (s.chip.used h j + 1 < 2 ^ 19) := ⟨innk id, 0, 0x8000, 0, 0x8001, 0, 1, by decide +kernel⟩

theorem wit_InnkeeperServesCells_11 : ∃ (s : State) (h req addr next : Nat), 
    (s.runs .core = true) ∧
    (s.chip.innkUp h = true) ∧
    (s.chip.injected req 2 = 0) ∧
    (s.chip.cellCheck h req addr = 0) ∧
    (s.chip.reqOf h req = none ∨ s.chip.reqOf h next = none) := ⟨innk id, 0, 0x8000, 0, 0x8007, by decide +kernel⟩

theorem wit_InnkeeperServesCells_12 : ∃ (s : State) (h req addr next : Nat), 
    (s.runs .core = true) ∧
    (s.chip.innkUp h = false) := ⟨innk id, 2, 0x8000, 0, 0x8001, by decide +kernel⟩

theorem wit_InnkeeperServesCells_13 : ∃ (s : State) (h req addr : Nat), 
    (s.runs .core = true) ∧
    (s.chip.innkUp h = true) ∧
    (s.chip.injected req 2 = 0) ∧
    (s.chip.cellCheck h req addr = 0) ∧
    ((s.chip.cellRec h (addr / 256)).count = 1) := ⟨innk id, 0, 0x8000, 0, by decide +kernel⟩

theorem wit_InnkeeperServesCells_14 : ∃ (s : State) (h req addr : Nat), 
    (s.runs .core = true) ∧
    (s.chip.innkUp h = true) ∧
    (s.chip.injected req 2 = 0) ∧
    (s.chip.cellCheck h req addr = 0) ∧
    ((s.chip.cellRec h (addr / 256)).count ≠ 1) := ⟨innk (fun c => c.setCellRec 0 0 { count := 2, lodger := 0x8000 }), 0, 0x8000, 0,
      by decide +kernel⟩

theorem wit_InnkeeperServesCells_15 : ∃ (s : State) (h req addr : Nat), 
    (s.runs .core = true) ∧
    (s.chip.innkUp h = false) := ⟨innk id, 2, 0x8000, 0, by decide +kernel⟩

theorem wit_InnkeeperServesCells_16 : ∃ (s : State) (h req addr k n : Nat), 
    (s.runs .core = true) ∧
    (s.chip.innkUp h = true) ∧
    (s.chip.injected req 2 = 0) ∧
    (s.chip.cellCheck h req addr = k ∧ k ≠ 0 ∧ addr < 2 ^ 28 ∧ req < 65536) ∧
    ((s.chip.grp (U.halfBlk h 0)).poison = [] ∧ (s.chip.grp (U.halfBlk h 0)).soft = []) := ⟨innk id, 0, 0x8000, 0x300, 2, 1,
      by decide +kernel⟩

theorem wit_InnkeeperServesCells_17 : ∃ (s : State) (h req addr k next : Nat), 
    (s.runs .core = true) ∧
    (s.chip.innkUp h = true) ∧
    (s.chip.injected req 2 = 0) ∧
    (s.chip.cellCheck h req addr = k ∧ k ≠ 0 ∧ addr < 2 ^ 28 ∧ req < 65536) ∧
    ((s.chip.grp (U.halfBlk h 0)).poison = [] ∧ (s.chip.grp (U.halfBlk h 0)).soft = []) := ⟨innk id, 0, 0x8000, 0x301, 1, 0x8001,
      by decide +kernel⟩

theorem wit_InnkeeperServesCells_18 : ∃ (s : State) (h req addr k : Nat), 
    (s.runs .core = true) ∧
    (s.chip.innkUp h = true) ∧
    (s.chip.injected req 2 = 0) ∧
    (s.chip.cellCheck h req addr = k ∧ k ≠ 0 ∧ addr < 2 ^ 28 ∧ req < 65536) ∧
    ((s.chip.grp (U.halfBlk h 0)).poison = [] ∧ (s.chip.grp (U.halfBlk h 0)).soft = []) := ⟨innk id, 0, 0x8001, 0, 3, by decide +kernel⟩

theorem wit_InnkeeperServesCells_19 : ∃ (s : State) (src : Source) (h p : Nat), 
    (h < 2 ∧ s.mayGo src (cellWin h) = true) ∧
    ((s.chip.winIn src (cellWin h)).index = p ∧ p < halfCells) := ⟨innk id, .pf, 0, 0, by decide +kernel⟩

theorem wit_InnkeeperServesCells_20 : ∃ (s : State) (src : Source) (h : Nat), 
    (h < 2 ∧ s.mayGo src (cellWin h) = true) ∧
    (halfCells ≤ (s.chip.winIn src (cellWin h)).index) := ⟨innk (fun c => c.setReg (cellWin 0) 393216), .pf, 0, by decide +kernel⟩

theorem wit_InnkeeperServesCells_21 : ∃ (s : State) (src : Source) (h p : Nat), 
    (h < 2 ∧ s.mayGo src (cellWin h) = true) ∧
    ((s.chip.winIn src (cellWin h)).index = p ∧ p < halfCells) ∧
    ((s.chip.cellRec h p).count ≠ 0) := ⟨innk id, .pf, 0, 0, by decide +kernel⟩

theorem wit_InnkeeperServesCells_22 : ∃ (s : State) (src : Source) (h p : Nat), 
    (h < 2 ∧ s.mayGo src (cellWin h) = true) ∧
    ((s.chip.winIn src (cellWin h)).index = p) ∧
    (halfCells ≤ p ∨ (s.chip.cellRec h p).count = 0) := ⟨innk (fun c => c.setReg (cellWin 0) 5), .pf, 0, 5, by decide +kernel⟩

theorem wit_InnkeeperServesCells_23 : ∃ (s : State) (h req : Nat), 
    (s.runs .core = true) ∧
    (s.chip.innkUp h = true) ∧
    ((s.chip.reqOf h req).isSome = true) ∧
    (s.chip.inReset req = false) := ⟨innk id, 0, 0x8000, by decide +kernel⟩

theorem wit_InnkeeperServesCells_24 : ∃ (s : State) (h req : Nat), 
    (s.runs .core = true) ∧
    (s.chip.innkUp h = false ∨ s.chip.reqOf h req = none ∨ s.chip.inReset req = true) := ⟨innk id, 0, 0x8007, by decide +kernel⟩

theorem wit_InnkeeperSpillsAndRecovers_1 : ∃ (s : State) (h q i b : Nat) (l : List (Nat × Nat)), 
    (s.runs .core = true) ∧
    (s.chip.spillOk h q = true) ∧
    (8 ≤ (s.chip.spillable (q / 16384) (q % 16384)).length ∧ l = (s.chip.spillable (q / 16384) (q % 16384)).take 8) ∧
    (s.chip.reqOf h (U.slice (q / 16384)) = some i) ∧
    (((s.chip.innk h).bundles.filter fun b => b.2.any fun v => v.req ==
      i).length < s.chip.get (Chip.reqBase h i) R.INNK_REQ_SPILL_CAP_spill_cap ∧
      (s.chip.innk h).bundles.length < s.chip.get (A.half h) R.INNK_SPILL_region_bundles) ∧
    (s.chip.freeBundle h = some b) ∧
    ((s.chip.grp (U.halfBlk h 8)).poison = [] ∧ (s.chip.grp (U.halfBlk h 8)).soft = []) := ⟨spill 9 id, 0, 19, 0, 0,
      (List.range 8).map fun i => (11, i), by decide +kernel⟩

theorem wit_InnkeeperSpillsAndRecovers_2 : ∃ (s : State) (h q i : Nat), 
    (s.runs .core = true) ∧
    (s.chip.spillOk h q = true) ∧
    (8 ≤ (s.chip.spillable (q / 16384) (q % 16384)).length) ∧
    (s.chip.reqOf h (U.slice (q / 16384)) = some i) ∧
    (s.chip.get (Chip.reqBase h i) R.INNK_REQ_SPILL_CAP_spill_cap ≤ ((s.chip.innk h).bundles.filter fun b => b.2.any fun v => v.req ==
      i).length ∨ s.chip.get (A.half h) R.INNK_SPILL_region_bundles ≤ (s.chip.innk h).bundles.length ∨
      s.chip.freeBundle h = none) := ⟨spill 8 (fun c => c.put (A.half 0) R.INNK_SPILL_region_bundles 0), 0, 19, 0, by decide +kernel⟩

theorem wit_InnkeeperSpillsAndRecovers_3 : ∃ (s : State) (h q : Nat), 
    (s.runs .core = true) ∧
    (s.chip.spillOk h q = false ∨ (s.chip.spillable (q / 16384) (q % 16384)).length < 8 ∨
      s.chip.reqOf h (U.slice (q / 16384)) = none) := ⟨spill 7 id, 0, 19, by decide +kernel⟩

theorem wit_InnkeeperSpillsAndRecovers_4 : ∃ (s : State) (h q i b : Nat) (l : List (Nat × Nat)), 
    (s.runs .core = true) ∧
    (s.chip.spillOk h q = true) ∧
    ((s.chip.spillable (q / 16384) (q % 16384)).length < 8 ∧ l = (s.chip.spillable (q / 16384) (q % 16384)) ∧ l ≠ []) ∧
    (s.chip.passedUs ((s.chip.innk h).spillable.look q) 1 = true) ∧
    (s.chip.reqOf h (U.slice (q / 16384)) = some i) ∧
    (((s.chip.innk h).bundles.filter fun b => b.2.any fun v => v.req ==
      i).length < s.chip.get (Chip.reqBase h i) R.INNK_REQ_SPILL_CAP_spill_cap ∧
      (s.chip.innk h).bundles.length < s.chip.get (A.half h) R.INNK_SPILL_region_bundles) ∧
    (s.chip.freeBundle h = some b) ∧
    ((s.chip.grp (U.halfBlk h 8)).poison = [] ∧ (s.chip.grp (U.halfBlk h 8)).soft = []) := ⟨spill 3 (fun c => { c with now := 5000 }), 0,
      19, 0, 0, (List.range 3).map fun i => (11, i), by decide +kernel⟩

theorem wit_InnkeeperSpillsAndRecovers_5 : ∃ (s : State) (h q i : Nat), 
    (s.runs .core = true) ∧
    (s.chip.spillOk h q = true) ∧
    ((s.chip.spillable (q / 16384) (q % 16384)).length < 8 ∧ (s.chip.spillable (q / 16384) (q % 16384)) ≠ []) ∧
    (s.chip.passedUs ((s.chip.innk h).spillable.look q) 1 = true) ∧
    (s.chip.reqOf h (U.slice (q / 16384)) = some i) ∧
    (s.chip.get (Chip.reqBase h i) R.INNK_REQ_SPILL_CAP_spill_cap ≤ ((s.chip.innk h).bundles.filter fun b => b.2.any fun v => v.req ==
      i).length ∨ s.chip.get (A.half h) R.INNK_SPILL_region_bundles ≤ (s.chip.innk h).bundles.length ∨
      s.chip.freeBundle h = none) := ⟨spill 3 (fun c => { c.put (A.half 0) R.INNK_SPILL_region_bundles 0 with now := 5000 }), 0, 19, 0,
      by decide +kernel⟩

theorem wit_InnkeeperSpillsAndRecovers_6 : ∃ (s : State) (h q i b aid pos p : Nat), 
    (s.runs .core = true) ∧
    (s.chip.spillOk h q = true) ∧
    ((s.chip.spillable (q / 16384) (q % 16384)).length < 8) ∧
    (s.chip.passedUs ((s.chip.innk h).spillable.look q) 1 = true) ∧
    (s.chip.reqOf h (U.slice (q / 16384)) = some i) ∧
    (((s.chip.innk h).bundles.filter fun b => b.2.any fun v => v.req ==
      i).length < s.chip.get (Chip.reqBase h i) R.INNK_REQ_SPILL_CAP_spill_cap ∧
      (s.chip.innk h).bundles.length < s.chip.get (A.half h) R.INNK_SPILL_region_bundles) ∧
    (s.chip.freeBundle h = some b) ∧
    ((aid, pos) ∈ (s.chip.spillable (q / 16384) (q % 16384)) ∧ (s.chip.arr aid).places[pos]? = some (.die p) ∧
      s.chip.anyPoison (U.halfBlk h 8) (32 * p) 32 = true) :=
      ⟨spill 3 (fun c => { (c.setGrp (U.halfBlk 0 8) { poison := [33] }) with now := 5000 }), 0, 19, 0, 0, 11, 1, 1, by decide +kernel⟩

theorem wit_InnkeeperSpillsAndRecovers_7 : ∃ (s : State) (h q : Nat), 
    (s.runs .core = true) ∧
    (s.chip.spillOk h q = false ∨ (s.chip.spillable (q / 16384) (q % 16384)) = [] ∨ 8 ≤ (s.chip.spillable (q / 16384) (q % 16384)).length ∨
      s.chip.passedUs ((s.chip.innk h).spillable.look q) 1 = false ∨
      s.chip.reqOf h (U.slice (q / 16384)) = none) := ⟨spill 3 id, 0, 19, by decide +kernel⟩

theorem wit_InnkeeperSpillsAndRecovers_8 : ∃ (s : State) (h b : Nat) (v : Bundle), 
    (s.runs .core = true) ∧
    (s.chip.innkUp h = true) ∧
    ((s.chip.innk h).bundles.look b = some v ∧ v.written = false) ∧
    (v.cells.Nodup ∧ (v.cells.map fun x => (s.chip.arr x.1).places[x.2]?).Nodup ∧
      (v.cells.all fun x => match (s.chip.arr x.1).places[x.2]? with | some (.die p) => decide (p < halfCells) && (s.chip.cellRec h p).count
      == 1 && (s.chip.cellRec h p).lodger == (s.chip.arr x.1).lodger | _ => false) = true) :=
      ⟨spill 2 (fun c => c.setInnk 0 { c.innk 0 with bundles := [(4, some { req := 0, queue := 19, cells := [(11, 0), (11, 1)] })] }), 0, 4,
      { req := 0, queue := 19, cells := [(11, 0), (11, 1)] }, by decide +kernel⟩

theorem wit_InnkeeperSpillsAndRecovers_9 : ∃ (s : State) (h b : Nat), 
    (s.runs .core = true) ∧
    (s.chip.innkUp h = false ∨ ((s.chip.innk h).bundles.look b).all (fun v => v.written) = true) := ⟨spill 2 id, 0, 4, by decide +kernel⟩

theorem wit_InnkeeperSpillsAndRecovers_10 : ∃ (s : State) (h q b : Nat) (v : Bundle), 
    (s.runs .core = true) ∧
    (s.chip.innkUp h = true ∧ s.chip.stackReady h = true ∧ q / 16384 / 4 = h ∧ s.chip.alive (U.slice (q / 16384)) = true ∧
      (s.chip.queueDie (q / 16384) (q % 16384) < QueueRec.fetchMark (s.chip.queueRec (q / 16384) (q % 16384)) * 8 ∨
      (s.chip.innk h).nightHold = true)) ∧
    (s.chip.oldestBundle (q / 16384) (q % 16384) = some b) ∧
    ((s.chip.innk h).bundles.look b = some v ∧ v.req < 16) ∧
    (s.chip.canAlloc h v.req v.cells.length = true) := ⟨spill 2 (fun c =>
      { c.setInnk 0 { c.innk 0 with cells := [], nightHold := true, bundles := [(4, some { req := 0, queue := 19, cells := [(11, 0), (11, 1)], written := true })] } with arrivals := [(11, some { frame := 9, places := [.bundle 4, .bundle 4], bytesHeld := 300, closed := true, lodger := 0x8000, copies := [12] })] }),
      0, 19, 4, { req := 0, queue := 19, cells := [(11, 0), (11, 1)], written := true }, by decide +kernel⟩

theorem wit_InnkeeperSpillsAndRecovers_11 : ∃ (s : State) (h q : Nat), 
    (s.runs .core = true) ∧
    (¬(s.chip.innkUp h = true ∧ s.chip.stackReady h = true ∧ q / 16384 / 4 = h ∧ s.chip.alive (U.slice (q / 16384)) = true ∧
      (s.chip.queueDie (q / 16384) (q % 16384) < QueueRec.fetchMark (s.chip.queueRec (q / 16384) (q % 16384)) * 8 ∨
      (s.chip.innk h).nightHold = true)) ∨ s.chip.oldestBundle (q / 16384) (q % 16384) = none ∨
      (s.chip.oldestBundle (q / 16384) (q % 16384)).any (fun b => ((s.chip.innk h).bundles.look b).any fun v => !(s.chip.canAlloc h v.req
      v.cells.length)) = true) := ⟨spill 2 id, 0, 19, by decide +kernel⟩

theorem wit_InnkeeperSpillsAndRecovers_12 : ∃ (s : State) (h b : Nat) (v : Bundle), 
    (s.runs .core = true) ∧
    (s.chip.innkUp h = true) ∧
    ((s.chip.innk h).bundles.look b = some v ∧ v.fetching = true) ∧
    (v.cells.Nodup ∧ v.cells.all (fun x => (s.chip.arrivals.look x.1).any fun a => decide (x.2 < a.places.length)) = true) ∧
    ((s.chip.grp (U.halfBlk h 0)).poison = [] ∧ (s.chip.innk h).cells.length + (s.chip.innk h).lost.length + v.cells.length < halfCells) :=
      ⟨spill 2 (fun c => { c.setInnk 0 { c.innk 0 with cells := [], bundles := [(4, some { req := 0, queue := 19, cells := [(11, 0), (11, 1)], written := true, fetching := true })] } with arrivals := [(11, some { frame := 9, places := [.bundle 4, .bundle 4], bytesHeld := 300, closed := true, lodger := 0x8000, copies := [12] })] }),
      0, 4, { req := 0, queue := 19, cells := [(11, 0), (11, 1)], written := true, fetching := true }, by decide +kernel⟩

theorem wit_InnkeeperSpillsAndRecovers_13 : ∃ (s : State) (h b : Nat) (v : Bundle), 
    (s.runs .core = true) ∧
    (s.chip.innkUp h = true) ∧
    ((s.chip.innk h).bundles.look b = some v ∧ v.fetching = true) :=
      ⟨spill 2 (fun c => { c.setInnk 0 { c.innk 0 with cells := [], bundles := [(4, some { req := 0, queue := 19, cells := [(11, 0), (11, 1)], written := true, fetching := true })] } with arrivals := [(11, some { frame := 9, places := [.bundle 4, .bundle 4], bytesHeld := 300, closed := true, lodger := 0x8000, copies := [12] })] }),
      0, 4, { req := 0, queue := 19, cells := [(11, 0), (11, 1)], written := true, fetching := true }, by decide +kernel⟩

theorem wit_InnkeeperSpillsAndRecovers_14 : ∃ (s : State) (h b : Nat) (poisoned : Bool), 
    (s.runs .core = true) ∧
    (s.chip.innkUp h = false ∨ ((s.chip.innk h).bundles.look b).all (fun v => !v.fetching) = true) := ⟨spill 2 id, 0, 4, true,
      by decide +kernel⟩

theorem wit_InnkeeperSpillsAndRecovers_15 : ∃ (s : State) (h req i : Nat), 
    (s.runs .core = true) ∧
    (s.chip.innkUp h = true) ∧
    (s.chip.reqOf h req = some i) ∧
    ((s.chip.innk h).inRecovery.contains i = true ∧ (s.chip.innk h).recover.look i = none) :=
      ⟨innk (fun c => c.setInnk 0 { c.innk 0 with inRecovery := [0] }), 0, 0x8000, 0, by decide +kernel⟩

theorem wit_InnkeeperSpillsAndRecovers_16 : ∃ (s : State) (h req : Nat), 
    (s.runs .core = true) ∧
    (s.chip.innkUp h = false ∨ (s.chip.reqOf h req).all (fun i => !((s.chip.innk h).inRecovery.contains i) || ((s.chip.innk h).recover.look
      i).isSome) = true) := ⟨innk id, 0, 0x8000, by decide +kernel⟩

theorem wit_InnkeeperSpillsAndRecovers_17 : ∃ (s : State) (h req i t0 : Nat), 
    (s.runs .core = true) ∧
    (s.chip.innkUp h = true) ∧
    (s.chip.reqOf h req = some i) ∧
    (req ≠ U.half h ∧ req ≠ U.halfBlk h 0) ∧
    ((s.chip.innk h).inRecovery.contains i = true ∧ (s.chip.innk h).recover.look i = some t0) ∧
    (s.chip.passedUs t0 (s.chip.get (A.half h) R.INNK_MODE_recover_us) = true) :=
      ⟨innk (fun c => { (c.setInnk 0 { c.innk 0 with inRecovery := [0], recover := [(0, some 5)] }) with now := 100000000 }), 0, 0x8000, 0,
      5, by decide +kernel⟩

theorem wit_InnkeeperSpillsAndRecovers_18 : ∃ (s : State) (h req t0 : Nat), 
    (s.runs .core = true) ∧
    (s.chip.innkUp h = true) ∧
    (req = U.half h ∨ req = U.halfBlk h 0) ∧
    ((s.chip.innk h).halfRecover = true ∧ (s.chip.innk h).halfReleased = some t0) ∧
    (s.chip.passedUs t0 (s.chip.get (A.half h) R.INNK_MODE_recover_us) = true) :=
      ⟨innk (fun c => { (c.setInnk 0 { c.innk 0 with halfRecover := true, halfReleased := some 5 }) with now := 100000000 }), 0, U.half 0,
      5, by decide +kernel⟩

theorem wit_InnkeeperSpillsAndRecovers_19 : ∃ (s : State) (h req : Nat), 
    (s.runs .core = true) ∧
    (s.chip.innkUp h = false ∨ ((req = U.half h ∨ req = U.halfBlk h 0) ∧ ((s.chip.innk h).halfRecover = false ∨
      s.chip.recovered h (s.chip.innk h).halfReleased = false)) ∨ (req ≠ U.half h ∧ req ≠ U.halfBlk h 0 ∧
      (s.chip.reqOf h req).all (fun i => !((s.chip.innk h).inRecovery.contains i) || !(s.chip.recovered h ((s.chip.innk h).recover.look i)))
      = true)) := ⟨innk (fun c => c.setInnk 0 { c.innk 0 with inRecovery := [0], recover := [(0, some 0)] }), 0, 0x8001, by decide +kernel⟩

theorem wit_InnkeeperSpillsAndRecovers_20 : ∃ (s : State) (h : Nat), 
    (s.runs .core = true) ∧
    (s.chip.innkUp h = true) ∧
    ((s.chip.innk h).rebuilt = false) := ⟨innk (fun c => c.setInnk 0 { c.innk 0 with rebuilt := false, lost := [3] }), 0, by decide +kernel⟩

theorem wit_InnkeeperSpillsAndRecovers_21 : ∃ (s : State) (h : Nat), 
    (s.runs .core = true) ∧
    (s.chip.innkUp h = false ∨ (s.chip.innk h).rebuilt = true) := ⟨innk id, 0, by decide +kernel⟩

theorem wit_SchedulerDecidesAndSends_1 : ∃ (s : State) (p h t0 n id : Nat) (bs : List Byte) (v : Copy) (a : Arrival), 
    (s.runs .core = true) ∧
    (s.chip.decisionReady p = true ∧ (s.chip.grp (Chip.schedGroup (p / 16))).poison = [] ∧
      (s.chip.portCopies p).all (fun x => decide ((s.chip.cpy x).mode ≠ .undecided)) = true ∧
      s.chip.applies.look (s.chip.schedBase (p / 16)) = none) ∧
    (s.chip.on (A.port p) R.GATE_CTRL_enable = false) ∧
    ((s.chip.schedSync p).choose p = some (h, t0, n) ∧ (s.chip.queueCopies (p / 16) n).head? = some id ∧ s.chip.copies.look id = some v ∧
      s.chip.arrivals.look v.arrival = some a ∧ v.slice = (p / 16) ∧ v.queue = n) ∧
    (a.slice = (p / 16) ∧ (s.chip.grp (U.halfBlk (p / 64) 8)).poison = [] ∧ (s.chip.grp (U.halfBlk (p / 64) 8)).soft = []) ∧
    (a.closed = true ∧ s.chip.scriptPoison (p / 16) v.script = false) ∧
    (editFront a.wb (s.chip.copyOps v) (s.chip.scriptData (p / 16) v.script) (s.chip.heldBody a) (s.chip.copyETag v) = .ok bs ∧
      ptpAt bs = none) ∧
    (bs.length + 4 ≤ s.chip.maxFrame p) := ⟨sched (fun c =>
      { c with scheds := [(0, { copies := [(19, [12])] })], copies := [(12, some { arrival := 11, sub := 2, named := 2, cls := 3, mode := .stored })] }),
      0, 1, 2, 19, 12, List.replicate 60 0, { arrival := 11, sub := 2, named := 2, cls := 3, mode := .stored },
      { frame := 9, places := [.die 0], bytesHeld := 64, closed := true, lodger := 0x8000, copies := [12] }, by decide +kernel⟩

theorem wit_SchedulerDecidesAndSends_2 : ∃ (s : State) (p h t0 n id : Nat) (v : Copy) (a : Arrival), 
    (s.runs .core = true) ∧
    (s.chip.decisionReady p = true ∧ (s.chip.grp (Chip.schedGroup (p / 16))).poison = [] ∧
      (s.chip.portCopies p).all (fun x => decide ((s.chip.cpy x).mode ≠ .undecided)) = true ∧
      s.chip.applies.look (s.chip.schedBase (p / 16)) = none) ∧
    (s.chip.on (A.port p) R.GATE_CTRL_enable = false) ∧
    ((s.chip.schedSync p).choose p = some (h, t0, n) ∧ (s.chip.queueCopies (p / 16) n).head? = some id ∧ s.chip.copies.look id = some v ∧
      s.chip.arrivals.look v.arrival = some a ∧ v.slice = (p / 16) ∧ v.queue = n) ∧
    (a.slice = (p / 16) ∧ (s.chip.grp (U.halfBlk (p / 64) 8)).poison = [] ∧ (s.chip.grp (U.halfBlk (p / 64) 8)).soft = []) ∧
    (s.chip.scriptPoison (p / 16) v.script = false) ∧
    (editFront a.wb (s.chip.copyOps v) (s.chip.scriptData (p / 16) v.script) (s.chip.heldBody a) (s.chip.copyETag v) = .err) :=
      ⟨sched (fun c => { c with scheds := [(0, { copies := [(19, [12])] })], copies := [(12, some { arrival := 11, sub := 2, named := 2, cls := 3, mode := .stored, script := 1 })], objects := [(0, { scripts := [(4, BitVec.ofNat 256 (2 ^ 28 + 255 * 2 ^ 20 + 127 * 2 ^ 13))] })] }),
      0, 1, 2, 19, 12, { arrival := 11, sub := 2, named := 2, cls := 3, mode := .stored, script := 1 },
      { frame := 9, places := [.die 0], bytesHeld := 64, closed := true, lodger := 0x8000, copies := [12] }, by decide +kernel⟩

theorem wit_SchedulerDecidesAndSends_3 : ∃ (s : State) (p h t0 n id : Nat) (bs : List Byte) (v : Copy) (a : Arrival), 
    (s.runs .core = true) ∧
    (s.chip.decisionReady p = true ∧ (s.chip.grp (Chip.schedGroup (p / 16))).poison = [] ∧
      (s.chip.portCopies p).all (fun x => decide ((s.chip.cpy x).mode ≠ .undecided)) = true ∧
      s.chip.applies.look (s.chip.schedBase (p / 16)) = none) ∧
    (s.chip.on (A.port p) R.GATE_CTRL_enable = false) ∧
    ((s.chip.schedSync p).choose p = some (h, t0, n) ∧ (s.chip.queueCopies (p / 16) n).head? = some id ∧ s.chip.copies.look id = some v ∧
      s.chip.arrivals.look v.arrival = some a ∧ v.slice = (p / 16) ∧ v.queue = n) ∧
    (a.slice = (p / 16) ∧ (s.chip.grp (U.halfBlk (p / 64) 8)).poison = [] ∧ (s.chip.grp (U.halfBlk (p / 64) 8)).soft = []) ∧
    (s.chip.scriptPoison (p / 16) v.script = false) ∧
    (editFront a.wb (s.chip.copyOps v) (s.chip.scriptData (p / 16) v.script) (s.chip.heldBody a) (s.chip.copyETag v) = .ok bs ∧
      s.chip.maxFrame p < bs.length + 4) := ⟨sched (fun c =>
      { (c.put (A.port 0) R.PORT_FRAME_max_frame 63) with scheds := [(0, { copies := [(19, [12])] })], copies := [(12, some { arrival := 11, sub := 2, named := 2, cls := 3, mode := .stored })] }),
      0, 1, 2, 19, 12, List.replicate 60 0, { arrival := 11, sub := 2, named := 2, cls := 3, mode := .stored },
      { frame := 9, places := [.die 0], bytesHeld := 64, closed := true, lodger := 0x8000, copies := [12] }, by decide +kernel⟩

theorem wit_SchedulerDecidesAndSends_4 : ∃ (s : State) (p : Nat), 
    (s.runs .core = true) ∧
    (s.chip.decisionReady p = true ∧ (s.chip.grp (Chip.schedGroup (p / 16))).poison = [] ∧
      (s.chip.portCopies p).all (fun x => decide ((s.chip.cpy x).mode ≠ .undecided)) = true ∧
      s.chip.applies.look (s.chip.schedBase (p / 16)) = none) ∧
    (s.chip.on (A.port p) R.GATE_CTRL_enable = false) ∧
    ((s.chip.schedSync p).choose p = none) := ⟨sched id, 0, by decide +kernel⟩

theorem wit_SchedulerDecidesAndSends_5 : ∃ (s : State) (p : Nat), 
    (s.runs .core = true) ∧
    (s.chip.decisionReady p = false) := ⟨sched id, 3, by decide +kernel⟩

theorem wit_SchedulerDecidesAndSends_6 : ∃ (s : State) (sl n : Nat), 
    (s.runs .core = true) ∧
    (sl < 8 ∧ s.chip.alive (U.slice sl) = true ∧ n < 16384) ∧
    (s.chip.on (A.port (16 * sl + s.chip.queueBase sl n)) R.GATE_CTRL_enable = false) ∧
    (n ∈ (s.chip.eligSets (16 * sl + s.chip.queueBase sl n)).1) ∧
    (((s.chip.sch sl).queue.look n).elig = false) := ⟨sched (fun c =>
      { c with scheds := [(0, { copies := [(19, [12])], top := [(2, { v := 9 })] })] }), 0, 19, by decide +kernel⟩

theorem wit_SchedulerDecidesAndSends_7 : ∃ (s : State) (sl node : Nat), 
    (s.runs .core = true) ∧
    (sl < 8 ∧ (List.range 16).all (fun q => !(s.chip.on (A.port (16 * sl + q)) R.GATE_CTRL_enable)) = true) :=
      ⟨sched (fun c => { c with scheds := [(0, { copies := [(19, [12])], top := [(2, { v := 9 })] })] }), 0, 16385, by decide +kernel⟩

theorem wit_SchedulerDecidesAndSends_8 : ∃ (s : State) (sl node : Nat), 
    (s.runs .core = true) ∧
    (8 ≤ sl ∨ s.chip.alive (U.slice sl) = false) := ⟨sched id, 9, 0, by decide +kernel⟩

theorem wit_SchedulerDecidesAndSends_9 : ∃ (s : State) (p : Nat) (x : Tx) (a : Arrival) (v : Copy), 
    (s.runs .core = true) ∧
    (p < 128) ∧
    ((s.chip.prt p).tx = some x ∧ s.chip.copies.look x.copy = some v ∧ s.chip.arrivals.look v.arrival = some a) ∧
    ((s.chip.grp (U.halfBlk (a.slice / 4) 8)).poison = []) ∧
    (x.cut = false ∧ a.closed = true ∧ a.bad = false) ∧
    ((x.front ++ (s.chip.heldBody a).drop x.used).length + 4 ≤ x.maxFrame) :=
      ⟨sched (fun c => { c with ports := [(0, { tx := some { copy := 12, front := List.replicate 60 0, used := 60, maxFrame := 1518 } })] }),
      0, { copy := 12, front := List.replicate 60 0, used := 60, maxFrame := 1518 },
      { frame := 9, places := [.die 0], bytesHeld := 64, closed := true, lodger := 0x8000, copies := [12] },
      { arrival := 11, sub := 2, named := 2, cls := 3, mcast := true }, by decide +kernel⟩

theorem wit_SchedulerDecidesAndSends_10 : ∃ (s : State) (p : Nat) (x : Tx) (a : Arrival) (v : Copy), 
    (s.runs .core = true) ∧
    (p < 128) ∧
    ((s.chip.prt p).tx = some x ∧ s.chip.copies.look x.copy = some v ∧ s.chip.arrivals.look v.arrival = some a) ∧
    ((s.chip.grp (U.halfBlk (a.slice / 4) 8)).poison = []) ∧
    (a.closed = true ∧ a.dead = false) ∧
    (a.bad = true ∨ x.maxFrame < (x.front ++ (s.chip.heldBody a).drop x.used).length + 4) ∧
    (4 ≤ x.maxFrame) := ⟨sched (fun c =>
      { c with ports := [(0, { tx := some { copy := 12, front := List.replicate 60 0, used := 60, maxFrame := 63 } })] }), 0,
      { copy := 12, front := List.replicate 60 0, used := 60, maxFrame := 63 },
      { frame := 9, places := [.die 0], bytesHeld := 64, closed := true, lodger := 0x8000, copies := [12] },
      { arrival := 11, sub := 2, named := 2, cls := 3, mcast := true }, by decide +kernel⟩

theorem wit_SchedulerDecidesAndSends_11 : ∃ (s : State) (p : Nat) (x : Tx) (a : Arrival) (v : Copy), 
    (s.runs .core = true) ∧
    (p < 128) ∧
    ((s.chip.prt p).tx = some x ∧ s.chip.copies.look x.copy = some v ∧ s.chip.arrivals.look v.arrival = some a) ∧
    ((s.chip.grp (U.halfBlk (a.slice / 4) 8)).poison = []) ∧
    (x.cut = true ∧ a.dead = true) ∧
    ((x.front ++ (s.chip.heldBody a).drop x.used).length + 4 ≤ x.maxFrame) :=
      ⟨sched (fun c => { c with arrivals := [(11, some { frame := 9, places := [.die 0], bytesHeld := 64, lodger := 0x8000, copies := [12], dead := true })], ports := [(0, { tx := some { copy := 12, cut := true, front := List.replicate 60 0, used := 60, maxFrame := 1518 } })] }),
      0, { copy := 12, cut := true, front := List.replicate 60 0, used := 60, maxFrame := 1518 },
      { frame := 9, places := [.die 0], bytesHeld := 64, lodger := 0x8000, copies := [12], dead := true },
      { arrival := 11, sub := 2, named := 2, cls := 3, mcast := true }, by decide +kernel⟩

theorem wit_SchedulerDecidesAndSends_12 : ∃ (s : State) (p : Nat), 
    (s.runs .core = true) ∧
    ((s.chip.prt p).tx.all (fun x => !((s.chip.arr (s.chip.cpy x.copy).arrival).closed || (s.chip.arr (s.chip.cpy x.copy).arrival).dead)) =
      true) := ⟨sched id, 0, by decide +kernel⟩

theorem wit_SchedulerDecidesAndSends_13 : ∃ (s : State) (p : Nat) (x : Tx) (a : Arrival) (v : Copy), 
    (s.runs .core = true) ∧
    (p < 128) ∧
    ((s.chip.prt p).tx = some x ∧ s.chip.copies.look x.copy = some v ∧ s.chip.arrivals.look v.arrival = some a) ∧
    ((s.chip.grp (U.halfBlk (a.slice / 4) 8)).poison = []) ∧
    (x.cut = true ∧ (a.closed = false ∨ a.dead = true)) ∧
    ((x.front ++ (s.chip.heldBody a).drop x.used).length + 4 ≤ x.maxFrame) :=
      ⟨sched (fun c => { c with arrivals := [(11, some { frame := 9, places := [.die 0], bytesHeld := 64, lodger := 0x8000, copies := [12] })], ports := [(0, { tx := some { copy := 12, cut := true, front := List.replicate 60 0, used := 60, maxFrame := 1518 } })] }),
      0, { copy := 12, cut := true, front := List.replicate 60 0, used := 60, maxFrame := 1518 },
      { frame := 9, places := [.die 0], bytesHeld := 64, lodger := 0x8000, copies := [12] },
      { arrival := 11, sub := 2, named := 2, cls := 3, mcast := true }, by decide +kernel⟩

theorem wit_SchedulerDecidesAndSends_14 : ∃ (s : State) (p : Nat), 
    (s.runs .core = true) ∧
    ((s.chip.prt p).tx.all (fun x => !x.cut || ((s.chip.arr (s.chip.cpy x.copy).arrival).closed && !((s.chip.arr (s.chip.cpy
      x.copy).arrival).dead))) = true) := ⟨sched id, 0, by decide +kernel⟩

theorem wit_SchedulerDecidesAndSends_15 : ∃ (s : State) (src : Source) (base sl : Nat) (l : Level), 
    (s.mayGo src base = true) ∧
    (schedWindow base = some (sl, l)) ∧
    ((s.chip.winIn src base).index < l.count) := ⟨sched (fun c => c.setReg 0x08810000 1), .pf, 0x08810000, 0, .heart, by decide +kernel⟩

theorem wit_SchedulerDecidesAndSends_16 : ∃ (s : State) (src : Source) (base sl : Nat) (l : Level), 
    (s.mayGo src base = true) ∧
    (schedWindow base = some (sl, l)) ∧
    (l.count ≤ (s.chip.winIn src base).index) := ⟨sched (fun c => c.setReg 0x08810000 2048), .pf, 0x08810000, 0, .heart, by decide +kernel⟩

theorem wit_SchedulerDecidesAndSends_17 : ∃ (s : State) (src : Source) (base sl : Nat) (l : Level), 
    (s.mayGo src base = true) ∧
    (schedWindow base = some (sl, l)) ∧
    ((s.chip.winIn src base).index < l.count) := ⟨sched (fun c => (c.setReg 0x08810080 1).setWinData 0x08810080 77), .pf, 0x08810080, 0,
      .queue, by decide +kernel⟩

theorem wit_SchedulerDecidesAndSends_18 : ∃ (s : State) (src : Source) (base sl : Nat) (l : Level), 
    (s.mayGo src base = true) ∧
    (schedWindow base = some (sl, l)) ∧
    (l.count ≤ (s.chip.winIn src base).index) := ⟨sched (fun c => c.setReg 0x08810080 16384), .pf, 0x08810080, 0, .queue, by decide +kernel⟩

theorem wit_SchedulerDecidesAndSends_19 : ∃ (s : State) (src : Source) (sl : Nat), 
    (sl < 8) ∧
    (s.mayGo src (A.slice sl + 0x8100C0) = true) ∧
    ((s.chip.winIn src (A.slice sl + 0x8100C0)).index < 16384) :=
      ⟨sched (fun c => { c.setReg 0x088100C0 19 with scheds := [(0, { copies := [(19, [12])] })] }), .pf, 0, by decide +kernel⟩

theorem wit_SchedulerDecidesAndSends_20 : ∃ (s : State) (src : Source) (sl : Nat), 
    (sl < 8) ∧
    (s.mayGo src (A.slice sl + 0x8100C0) = true) ∧
    (16384 ≤ (s.chip.winIn src (A.slice sl + 0x8100C0)).index) := ⟨sched (fun c => c.setReg 0x088100C0 16384), .pf, 0, by decide +kernel⟩

theorem wit_HbmServesRequests_1 : ∃ (s : State) (m pc req addr beats : Nat) (write : Bool) (data : List Byte), 
    (s.runs .core = true) ∧
    (hbmFits s.chip m req addr beats = true ∧ s.chip.hbmThere m = true ∧ pc < 32) ∧
    (((s.chip.hpc m pc).holder.toList ++ (s.chip.hpc m pc).suspended ++ (s.chip.hpc m pc).waiting).any (fun r => r.req == req) = false) ∧
    (req ≠ 4 ∨ (2 ^ 21 ≤ addr ∧ ¬((pc ∈ (s.chip.hb m).unmapped ∧ (Chip.shareGranule addr).isSome = true) ∨
      ((s.chip.remap m pc addr).2.2.isSome = true ∧ s.chip.hbmRetired m (s.chip.remap m pc addr).1 = true)))) ∧
    (¬(s.chip.hbmUp m = true ∧ s.chip.get (A.hbm m) R.HBM_CTRL_sr_wake = 1 ∧ (req = 4 ∨ req = 1)) ∨ (s.chip.hbmState m ≠ 3 ∧
      s.chip.hbmState m ≠ 4)) := ⟨hbm id, 0, 3, 4, 0x200000, 32, false, [], by decide +kernel⟩

theorem wit_HbmServesRequests_2 : ∃ (s : State) (m pc req addr beats : Nat) (write : Bool) (data : List Byte), 
    (s.runs .core = true) ∧
    (hbmFits s.chip m req addr beats = true ∧ s.chip.hbmThere m = true ∧ pc < 32) ∧
    (((s.chip.hpc m pc).holder.toList ++ (s.chip.hpc m pc).suspended ++ (s.chip.hpc m pc).waiting).any (fun r => r.req == req) = false) ∧
    (req ≠ 4 ∨ (2 ^ 21 ≤ addr ∧ ¬((pc ∈ (s.chip.hb m).unmapped ∧ (Chip.shareGranule addr).isSome = true) ∨
      ((s.chip.remap m pc addr).2.2.isSome = true ∧ s.chip.hbmRetired m (s.chip.remap m pc addr).1 = true)))) ∧
    (s.chip.hbmUp m = true ∧ s.chip.get (A.hbm m) R.HBM_CTRL_sr_wake = 1 ∧ (req = 4 ∨ req = 1)) ∧
    (s.chip.hbmState m = 3 ∨ s.chip.hbmState m = 4) := ⟨hbm (fun c => (c.put (A.hbm 0) R.HBM_STATUS_state 4).put (A.hbm 0)
      R.HBM_CTRL_sr_wake 1), 0, 3, 4, 0x200000, 2, true, List.replicate 128 5, by decide +kernel⟩

theorem wit_HbmServesRequests_3 : ∃ (s : State) (m pc addr beats : Nat) (write : Bool) (data : List Byte), 
    (s.runs .core = true) ∧
    (hbmFits s.chip m 4 addr beats = true ∧ pc < 32 ∧ addr < 2 ^ 21) := ⟨hbm id, 0, 3, 0x40, 2, false, [], by decide +kernel⟩

theorem wit_HbmServesRequests_4 : ∃ (s : State) (m pc addr beats req : Nat) (write : Bool) (data : List Byte), 
    (s.runs .core = true) ∧
    (req = 4) ∧
    (hbmFits s.chip m req addr beats = true ∧ s.chip.hbmThere m = true ∧ pc < 32) ∧
    (((s.chip.hpc m pc).holder.toList ++ (s.chip.hpc m pc).suspended ++ (s.chip.hpc m pc).waiting).any (fun r => r.req == req) = false) ∧
    (2 ^ 21 ≤ addr ∧ ((pc ∈ (s.chip.hb m).unmapped ∧ (Chip.shareGranule addr).isSome = true) ∨ ((s.chip.remap m pc addr).2.2.isSome = true ∧
      s.chip.hbmRetired m (s.chip.remap m pc addr).1 = true))) := ⟨hbm (fun c => c.setHb 0 { unmapped := [3] }), 0, 3, 0x200000, 2, 4,
      false, [], by decide +kernel⟩

theorem wit_HbmServesRequests_5 : ∃ (s : State) (m pc req addr beats : Nat) (write : Bool) (data : List Byte), 
    (s.runs .core = true) ∧
    (req ≠ 4 ∨ 2 ^ 21 ≤ addr) ∧
    (32 ≤ pc ∨ s.chip.hbmThere m = false ∨ hbmFits s.chip m req addr beats = false ∨
      ((s.chip.hpc m pc).holder.toList ++ (s.chip.hpc m pc).suspended ++ (s.chip.hpc m pc).waiting).any (fun r => r.req == req) = true) :=
      ⟨hbm (fun c => c.setHpc 0 3 { waiting := [{ req := 4 }] }), 0, 3, 4, 0x200000, 2, false, [], by decide +kernel⟩

theorem wit_HbmServesRequests_6 : ∃ (s : State) (m pc : Nat) (r : HbmReq), 
    (s.runs .core = true) ∧
    (s.chip.hbmUp m = true ∧ pc < 32 ∧ s.chip.inReset (pcUnit m pc) = false ∧ (s.chip.hpc m pc).emergency = none) ∧
    ((s.chip.hpc m pc).waiting.any (fun x => x.req == 1 && s.chip.pcGrants m pc x && !(s.chip.throttled m pc 1)) = false) ∧
    ((s.chip.hpc m pc).holder = none ∧ (s.chip.hpc m pc).suspended = []) ∧
    (r ∈ (s.chip.hpc m pc).waiting ∧ s.chip.pcGrants m pc r = true ∧ s.chip.throttled m pc r.req = false ∧
      (s.chip.hpc m pc).waiting.all (fun x => x == r || !(s.chip.pcGrants m pc x) || s.chip.throttled m pc x.req || s.chip.beats m r x) =
      true) ∧
    ((accesses r.addr r.beats).Nodup ∧ ∀ k ∈ accesses r.addr r.beats,
      (s.chip.hpc m pc).acts.look k + 1 ≠ s.chip.get (A.hbm m) R.HBM_ROWGUARD_rh_acts) :=
      ⟨hbm (fun c => c.setHpc 0 3 { waiting := [{ req := 4, addr := 0x400, beats := 4 }, { req := 5, addr := 0xF800, beats := 32 }] }), 0,
      3, { req := 5, addr := 0xF800, beats := 32 }, by decide +kernel⟩

theorem wit_HbmServesRequests_7 : ∃ (s : State) (m pc k : Nat) (r : HbmReq), 
    (s.runs .core = true) ∧
    (s.chip.hbmUp m = true ∧ pc < 32 ∧ s.chip.inReset (pcUnit m pc) = false ∧ (s.chip.hpc m pc).emergency = none) ∧
    ((s.chip.hpc m pc).waiting.any (fun x => x.req == 1 && s.chip.pcGrants m pc x && !(s.chip.throttled m pc 1)) = false) ∧
    ((s.chip.hpc m pc).holder = none ∧ (s.chip.hpc m pc).suspended = []) ∧
    (r ∈ (s.chip.hpc m pc).waiting ∧ s.chip.pcGrants m pc r = true ∧ s.chip.throttled m pc r.req = false ∧
      (s.chip.hpc m pc).waiting.all (fun x => x == r || !(s.chip.pcGrants m pc x) || s.chip.throttled m pc x.req || s.chip.beats m r x) =
      true) ∧
    (r.req < 6) ∧
    (accesses r.addr r.beats = [k]) ∧
    ((s.chip.hpc m pc).acts.look k + 1 = s.chip.get (A.hbm m) R.HBM_ROWGUARD_rh_acts) ∧
    (2 ≤ k % 16384 ∧ k % 16384 + 2 < 16384) := ⟨hbm (fun c => (c.put (A.hbm 0) R.HBM_ROWGUARD_rh_acts 256).setHpc 0 3
      { waiting := [{ req := 4, addr := 0x50400, beats := 4 }], acts := [(16394, 255)] }), 0, 3, 16394,
      { req := 4, addr := 0x50400, beats := 4 }, by decide +kernel⟩

theorem wit_HbmServesRequests_8 : ∃ (s : State) (m pc : Nat) (r h : HbmReq), 
    (s.runs .core = true) ∧
    (s.chip.hbmUp m = true ∧ pc < 32 ∧ s.chip.inReset (pcUnit m pc) = false ∧ (s.chip.hpc m pc).emergency = none) ∧
    ((s.chip.hpc m pc).waiting.find? (fun x => x.req == 1 && s.chip.pcGrants m pc x && !(s.chip.throttled m pc 1)) = some r) ∧
    ((s.chip.hpc m pc).holder = some h ∧ h.req ≠ 1 ∧ (h.compat = false ∨ h.req = 6)) ∧
    ((accesses r.addr r.beats).Nodup ∧ ∀ k ∈ accesses r.addr r.beats,
      (s.chip.hpc m pc).acts.look k + 1 ≠ s.chip.get (A.hbm m) R.HBM_ROWGUARD_rh_acts) :=
      ⟨hbm (fun c => c.setHpc 0 3
      { waiting := [{ req := 1, addr := 0x400, beats := 4 }], holder := some { req := 5, addr := 0xF800, beats := 32 } }), 0, 3,
      { req := 1, addr := 0x400, beats := 4 }, { req := 5, addr := 0xF800, beats := 32 }, by decide +kernel⟩

theorem wit_HbmServesRequests_9 : ∃ (s : State) (m pc : Nat) (r h : HbmReq), 
    (s.runs .core = true) ∧
    (s.chip.hbmUp m = true ∧ pc < 32 ∧ s.chip.inReset (pcUnit m pc) = false ∧ (s.chip.hpc m pc).emergency = none) ∧
    ((s.chip.hpc m pc).waiting.any (fun x => x.req == 1 && s.chip.pcGrants m pc x && !(s.chip.throttled m pc 1)) = false) ∧
    ((s.chip.hpc m pc).holder = some h ∧ h.compat = true ∧ h.write = false ∧ h.req ≠ 1 ∧ h.req ≠ 6) ∧
    (r ∈ (s.chip.hpc m pc).waiting ∧ s.chip.pcGrants m pc r = true ∧ s.chip.throttled m pc r.req = false ∧
      (s.chip.hpc m pc).waiting.all (fun x => x == r || !(s.chip.pcGrants m pc x) || s.chip.throttled m pc x.req || s.chip.beats m r x) =
      true) ∧
    (r.req < 6 ∧ s.chip.hbmPrio m h.req < s.chip.hbmPrio m r.req) ∧
    ((accesses r.addr r.beats).Nodup ∧ ∀ k ∈ accesses r.addr r.beats,
      (s.chip.hpc m pc).acts.look k + 1 ≠ s.chip.get (A.hbm m) R.HBM_ROWGUARD_rh_acts) :=
      ⟨hbm (fun c => (c.put (A.hbm 0 + 4 * 3) R.HBM_PRIO_priority 14).setHpc 0 3
      { waiting := [{ req := 5, addr := 0xF800, beats := 32 }], holder := some { req := 4, addr := 0x400, beats := 4, compat := true } }),
      0, 3, { req := 5, addr := 0xF800, beats := 32 }, { req := 4, addr := 0x400, beats := 4, compat := true }, by decide +kernel⟩

theorem wit_HbmServesRequests_10 : ∃ (s : State) (m pc : Nat) (r : HbmReq) (l : List HbmReq), 
    (s.runs .core = true) ∧
    (s.chip.hbmUp m = true ∧ pc < 32 ∧ s.chip.inReset (pcUnit m pc) = false ∧ (s.chip.hpc m pc).emergency = none) ∧
    ((s.chip.hpc m pc).waiting.any (fun x => x.req == 1 && s.chip.pcGrants m pc x && !(s.chip.throttled m pc 1)) = false) ∧
    ((s.chip.hpc m pc).holder = none ∧ (s.chip.hpc m pc).suspended = r :: l) :=
      ⟨hbm (fun c => c.setHpc 0 3 { suspended := [{ req := 5 }] }), 0, 3, { req := 5 }, [], by decide +kernel⟩

theorem wit_HbmServesRequests_11 : ∃ (s : State) (m pc : Nat), 
    (s.runs .core = true) ∧
    ((32 ≤ pc ∨ s.chip.hbmUp m = false ∨ s.chip.inReset (pcUnit m pc) = true ∨ (s.chip.hpc m pc).emergency ≠ none) ∨
      ((s.chip.hpc m pc).waiting.any (fun x => x.req == 1 && s.chip.pcGrants m pc x && !(s.chip.throttled m pc 1)) = false ∧
      ((s.chip.hpc m pc).holder.any (fun h => !h.compat || h.req == 1 || h.req == 6) = true ∨ ((s.chip.hpc m pc).suspended = [] ∧
      (s.chip.hpc m pc).waiting.all (fun x => !(s.chip.pcGrants m pc x) || s.chip.throttled m pc x.req) = true)))) := ⟨hbm id, 0, 3,
      by decide +kernel⟩

theorem wit_HbmServesRequests_12 : ∃ (s : State) (m pc : Nat) (errors : List (Nat × Bool)) (r : HbmReq), 
    (s.runs .core = true) ∧
    (s.chip.hbmUp m = true ∧ pc < 32 ∧ (s.chip.hpc m pc).holder = some r ∧ r.write = true ∧ r.req ≠ 6) ∧
    (¬(s.chip.hbmCopying m = true ∧ r.req = 4 ∧ s.chip.get (A.hbm m) R.HBM_RELOC_channel = pc)) ∧
    (s.chip.ledger.inj = none) := ⟨hbm (fun c => c.setHpc 0 3
      { holder := some { req := 4, addr := 0x400, write := true, beats := 1, data := List.replicate 64 9 } }), 0, 3, [],
      { req := 4, addr := 0x400, write := true, beats := 1, data := List.replicate 64 9 }, by decide +kernel⟩

theorem wit_HbmServesRequests_13 : ∃ (s : State) (m pc k : Nat) (errors : List (Nat × Bool)) (r : HbmReq), 
    (s.runs .core = true) ∧
    (s.chip.hbmUp m = true ∧ pc < 32 ∧ (s.chip.hpc m pc).holder = some r ∧ r.write = true ∧ r.req ≠ 6) ∧
    ((s.chip.hbmCopying m = true ∧ r.req = 4 ∧ s.chip.get (A.hbm m) R.HBM_RELOC_channel = pc) ∧ Chip.shareGranule r.addr = some k ∧
      r.addr % 2048 + r.data.length ≤ 2048) ∧
    (s.chip.ledger.inj = none) := ⟨hbm (fun c => ((c.put (A.hbm 0) R.HBM_RELOC_copying 1).put (A.hbm 0) R.HBM_RELOC_channel 3).setHpc 0 3
      { holder := some { req := 4, addr := 0x200040, write := true, beats := 1, data := [8, 9] } }), 0, 3, 0, [],
      { req := 4, addr := 0x200040, write := true, beats := 1, data := [8, 9] }, by decide +kernel⟩

theorem wit_HbmServesRequests_14 : ∃ (s : State) (m pc : Nat) (r : HbmReq), 
    (s.runs .core = true) ∧
    (s.chip.hbmUp m = true ∧ pc < 32 ∧ (s.chip.hpc m pc).holder = some r ∧ r.write = false ∧ r.req ≠ 6) ∧
    ((Chip.wordsOf r.addr (64 * r.beats)).all (fun w => (s.chip.hb m).planted.look (stackOffset pc w) == 0) = true ∧
      s.chip.hbmLost m pc r.addr = false) := ⟨hbm (fun c => c.setHb 0
      { pcs := [(3, { holder := some { req := 4, addr := 0, beats := 1 } })], mem := (List.range 64).map fun i => (3 * 2048 + i, some 7) }),
      0, 3, { req := 4, addr := 0, beats := 1 }, by decide +kernel⟩

theorem wit_HbmServesRequests_15 : ∃ (s : State) (m pc k : Nat) (r : HbmReq), 
    (s.runs .core = true) ∧
    (s.chip.hbmUp m = true ∧ pc < 32 ∧ (s.chip.hpc m pc).holder = some r ∧ r.write = false ∧ r.req ≠ 6) ∧
    ((Chip.wordsOf r.addr (64 * r.beats)).all (fun w => (s.chip.hb m).planted.look (stackOffset pc w) == 0) = true ∧
      s.chip.hbmLost m pc r.addr = false) ∧
    (k < 8 * r.beats ∧ r.addr % 8 = 0) := ⟨hbm (fun c => c.setHpc 0 3 { holder := some { req := 4, addr := 0x200000, beats := 1 } }), 0, 3,
      7, { req := 4, addr := 0x200000, beats := 1 }, by decide +kernel⟩

theorem wit_HbmServesRequests_16 : ∃ (s : State) (m pc k : Nat) (r : HbmReq), 
    (s.runs .core = true) ∧
    (s.chip.hbmUp m = true ∧ pc < 32 ∧ (s.chip.hpc m pc).holder = some r ∧ r.write = false ∧ r.req ≠ 6) ∧
    ((Chip.wordsOf r.addr (64 * r.beats)).all (fun w => (s.chip.hb m).planted.look (stackOffset pc w) == 0) = true ∧
      s.chip.hbmLost m pc r.addr = false) ∧
    (k < 8 * r.beats ∧ r.addr % 8 = 0) ∧
    (s.chip.get (A.hbm m) R.HBM_LIMITS_unc_limit = 0 ∨ ((s.chip.hpc m pc).errors.filter fun t => !(s.chip.passedUs t 1000000)).length + 1 ≤
      s.chip.get (A.hbm m) R.HBM_LIMITS_unc_limit) := ⟨hbm (fun c => (c.put (A.hbm 0) R.HBM_LIMITS_unc_limit 0).setHpc 0 3
      { holder := some { req := 4, addr := 0x200000, beats := 1 } }), 0, 3, 7, { req := 4, addr := 0x200000, beats := 1 },
      by decide +kernel⟩

theorem wit_HbmServesRequests_17 : ∃ (s : State) (m pc k : Nat) (r : HbmReq), 
    (s.runs .core = true) ∧
    (s.chip.hbmUp m = true ∧ pc < 32 ∧ (s.chip.hpc m pc).holder = some r ∧ r.write = false ∧ r.req ≠ 6) ∧
    ((Chip.wordsOf r.addr (64 * r.beats)).all (fun w => (s.chip.hb m).planted.look (stackOffset pc w) == 0) = true ∧
      s.chip.hbmLost m pc r.addr = false) ∧
    (k < 8 * r.beats ∧ r.addr % 8 = 0) ∧
    (s.chip.get (A.hbm m) R.HBM_LIMITS_unc_limit ≠ 0 ∧ s.chip.get (A.hbm m) R.HBM_LIMITS_unc_limit ≤ ((s.chip.hpc m pc).errors.filter fun t
      => !(s.chip.passedUs t 1000000)).length ∧ s.chip.hbmRetired m pc = false) :=
      ⟨hbm (fun c => (c.put (A.hbm 1) R.HBM_LIMITS_unc_limit 1).setHpc 1 3
      { holder := some { req := 2, addr := 0x200000, beats := 1 }, errors := [0] }), 1, 3, 7, { req := 2, addr := 0x200000, beats := 1 },
      by decide +kernel⟩

theorem wit_HbmServesRequests_18 : ∃ (s : State) (m pc : Nat) (errors : List (Nat × Bool)), 
    (s.runs .core = true) ∧
    (32 ≤ pc ∨ s.chip.hbmUp m = false ∨ (s.chip.hpc m pc).holder.all (fun r => r.req == 6) = true) := ⟨hbm id, 0, 3, [(0, true)],
      by decide +kernel⟩

theorem wit_HbmServesRequests_19 : ∃ (s : State) (m temp : Nat), 
    (s.runs .core = true) ∧
    (s.chip.hbmUp m = true) ∧
    (s.chip.hbmState m ≠ 4 ∧ temp < 256) := ⟨hbm id, 1, 85, by decide +kernel⟩

theorem wit_HbmServesRequests_20 : ∃ (s : State) (m temp : Nat), 
    (s.runs .core = true) ∧
    (s.chip.hbmUp m = false ∨ s.chip.hbmState m = 4) := ⟨hbm (fun c => c.put (A.hbm 0) R.HBM_STATUS_state 4), 0, 85, by decide +kernel⟩

theorem wit_HbmStarveRule_1 : ∃ (s : State) (m pc req : Nat) (r : HbmReq), 
    (s.runs .core = true) ∧
    (s.chip.hbmUp m = true) ∧
    (pc < 32) ∧
    ((s.chip.hpc m pc).waiting.find? (fun r => r.req == req) = some r) ∧
    (r.starved = false) ∧
    (s.chip.get (A.hbm m) R.HBM_LIMITS_starve_us ≠ 0) ∧
    (r.since + s.chip.get (A.hbm m) R.HBM_LIMITS_starve_us * 1000 < s.chip.now) :=
      ⟨hbm (fun c => { c.setHpc 0 3 { waiting := [{ req := 5, beats := 32 }] } with now := 100001 }), 0, 3, 5, { req := 5, beats := 32 },
      by decide +kernel⟩

theorem wit_HbmStarveRule_2 : ∃ (s : State) (m pc req : Nat), 
    (s.runs .core = true) ∧
    (32 ≤ pc ∨ s.chip.hbmUp m = false ∨ ((s.chip.hpc m pc).waiting.find? (fun r => r.req ==
      req)).all (fun r => r.starved || s.chip.get (A.hbm m) R.HBM_LIMITS_starve_us ==
      0 || decide (s.chip.now ≤ r.since + s.chip.get (A.hbm m) R.HBM_LIMITS_starve_us * 1000)) = true) :=
      ⟨hbm (fun c => { c.setHpc 0 3 { waiting := [{ req := 5, beats := 32, starved := true }] } with now := 100001 }), 0, 3, 5,
      by decide +kernel⟩

theorem wit_HbmRefreshesAndGuardsRows_1 : ∃ (s : State) (m : Nat), 
    (s.runs .core = true) ∧
    (s.chip.hbmRuns m = true) ∧
    ((s.chip.hb m).owedAt + s.chip.refreshPeriod m ≤ s.chip.now) := ⟨hbm (fun c => { c with now := 3900 }), 1, by decide +kernel⟩

theorem wit_HbmRefreshesAndGuardsRows_2 : ∃ (s : State) (m : Nat), 
    (s.runs .core = true) ∧
    (s.chip.hbmRuns m = false ∨ s.chip.now < (s.chip.hb m).owedAt + s.chip.refreshPeriod m) := ⟨hbm (fun c => { c with now := 3899 }), 1,
      by decide +kernel⟩

theorem wit_HbmRefreshesAndGuardsRows_3 : ∃ (s : State) (m pc bank : Nat), 
    (s.runs .core = true) ∧
    (s.chip.hbmRuns m = true ∧ pc < 32 ∧ bank < 32) ∧
    ((s.chip.hpc m pc).emergency = none ∧ s.chip.bankBusy m pc bank = false) ∧
    ((∀ v ∈ (s.chip.hpc m pc).victims, v.1 / 16384 ≠ bank)) ∧
    ((s.chip.hpc m pc).holder ≠ none ∨ (s.chip.hpc m pc).suspended = []) := ⟨hbm (fun c => c.setHpc 0 3 { owed := [(7, 4)] }), 0, 3, 7,
      by decide +kernel⟩

theorem wit_HbmRefreshesAndGuardsRows_4 : ∃ (s : State) (m pc bank : Nat) (v : Nat × Nat) (l : List (Nat × Nat)), 
    (s.runs .core = true) ∧
    (s.chip.hbmRuns m = true ∧ pc < 32 ∧ bank < 32) ∧
    ((s.chip.hpc m pc).emergency = none ∧ s.chip.bankBusy m pc bank = false) ∧
    ((s.chip.hpc m pc).victims = v :: l ∧ v.1 / 16384 = bank ∧ v ∉ l) ∧
    ((s.chip.hpc m pc).holder ≠ none ∨ (s.chip.hpc m pc).suspended = []) :=
      ⟨hbm (fun c => c.setHpc 0 3 { owed := [(1, 4)], victims := [(16394, 5), (3, 3)] }), 0, 3, 1, (16394, 5), [(3, 3)], by decide +kernel⟩

theorem wit_HbmRefreshesAndGuardsRows_5 : ∃ (s : State) (m pc bank : Nat), 
    (s.runs .core = true) ∧
    (s.chip.hbmRuns m = true ∧ pc < 32 ∧ bank < 32) ∧
    ((s.chip.hpc m pc).emergency = some bank ∧ (∀ v ∈ (s.chip.hpc m pc).victims, v.1 / 16384 ≠ bank)) :=
      ⟨hbm (fun c => c.setHpc 0 3 { owed := [(1, 1)], emergency := some 1, suspended := [{ req := 4 }] }), 0, 3, 1, by decide +kernel⟩

theorem wit_HbmRefreshesAndGuardsRows_6 : ∃ (s : State) (m pc bank : Nat), 
    (s.runs .core = true) ∧
    ((s.chip.hbmRuns m = false ∨ 32 ≤ pc ∨ 32 ≤ bank) ∨ ((s.chip.hpc m pc).emergency ≠ some bank ∧ ((s.chip.hpc m pc).emergency ≠ none ∨
      s.chip.bankBusy m pc bank = true))) := ⟨hbm (fun c => c.setHpc 0 3 { owed := [(1, 1)], emergency := some 2 }), 0, 3, 1,
      by decide +kernel⟩

theorem wit_HbmRefreshesAndGuardsRows_7 : ∃ (s : State) (m pc bank : Nat) (r : HbmReq), 
    (s.runs .core = true) ∧
    (s.chip.hbmRuns m = true ∧ pc < 32 ∧ bank < 32) ∧
    ((s.chip.hpc m pc).emergency = none ∧ ((s.chip.hpc m pc).owed.look bank = 8 ∨
      (s.chip.hpc m pc).victims.any (fun v => v.1 / 16384 == bank && decide (v.2 + 3900 < s.chip.now)) = true)) ∧
    ((s.chip.hpc m pc).holder = some r ∧ (r.compat = false ∨ r.req = 1 ∨
      r.req = 6)) := ⟨hbm (fun c => c.setHpc 0 3 { owed := [(1, 8)], holder := some { req := 4 } }), 0, 3, 1, { req := 4 },
      by decide +kernel⟩

theorem wit_HbmRefreshesAndGuardsRows_8 : ∃ (s : State) (m pc bank : Nat) (r : HbmReq), 
    (s.runs .core = true) ∧
    (s.chip.hbmRuns m = true ∧ pc < 32 ∧ bank < 32) ∧
    ((s.chip.hpc m pc).emergency = none ∧ ((s.chip.hpc m pc).owed.look bank = 8 ∨
      (s.chip.hpc m pc).victims.any (fun v => v.1 / 16384 == bank && decide (v.2 + 3900 < s.chip.now)) = true)) ∧
    ((s.chip.hpc m pc).holder = some r ∧ r.compat = true ∧ r.write = false ∧ r.req ≠ 1 ∧
      r.req ≠ 6) := ⟨hbm (fun c => c.setHpc 0 3 { owed := [(1, 8)], holder := some { req := 4, compat := true } }), 0, 3, 1,
      { req := 4, compat := true }, by decide +kernel⟩

theorem wit_HbmRefreshesAndGuardsRows_9 : ∃ (s : State) (m pc bank : Nat), 
    (s.runs .core = true) ∧
    (s.chip.hbmRuns m = true ∧ pc < 32 ∧ bank < 32) ∧
    ((s.chip.hpc m pc).emergency = none ∧ ((s.chip.hpc m pc).owed.look bank = 8 ∨
      (s.chip.hpc m pc).victims.any (fun v => v.1 / 16384 == bank && decide (v.2 + 3900 < s.chip.now)) = true)) ∧
    ((s.chip.hpc m pc).holder = none) := ⟨hbm (fun c => c.setHpc 0 3 { owed := [(1, 8)] }), 0, 3, 1, by decide +kernel⟩

theorem wit_HbmRefreshesAndGuardsRows_10 : ∃ (s : State) (m pc bank : Nat), 
    (s.runs .core = true) ∧
    ((s.chip.hbmRuns m = false ∨ 32 ≤ pc ∨ 32 ≤ bank) ∨ (s.chip.hpc m pc).emergency ≠ none ∨ ¬((s.chip.hpc m pc).owed.look bank = 8 ∨
      (s.chip.hpc m pc).victims.any (fun v => v.1 / 16384 == bank && decide (v.2 + 3900 < s.chip.now)) = true)) := ⟨hbm id, 0, 3, 1,
      by decide +kernel⟩

theorem wit_HbmRefreshesAndGuardsRows_11 : ∃ (s : State) (m pc req : Nat), 
    (s.runs .core = true) ∧
    (s.chip.hbmUp m = true) ∧
    (pc < 32) ∧
    ((s.chip.hpc m pc).throttle.look req ≠ 0 ∧ (s.chip.hpc m pc).throttle.look req ≤ s.chip.now) :=
      ⟨hbm (fun c => { c.setHpc 0 3 { throttle := [(4, 50)] } with now := 60 }), 0, 3, 4, by decide +kernel⟩

theorem wit_HbmRefreshesAndGuardsRows_12 : ∃ (s : State) (m pc req : Nat), 
    (s.runs .core = true) ∧
    (s.chip.hbmUp m = false ∨ 32 ≤ pc ∨ (s.chip.hpc m pc).throttle.look req = 0 ∨
      s.chip.now < (s.chip.hpc m pc).throttle.look req) := ⟨hbm (fun c => { c.setHpc 0 3 { throttle := [(4, 61)] } with now := 60 }), 0, 3,
      4, by decide +kernel⟩

theorem wit_HbmRefreshesAndGuardsRows_13 : ∃ (s : State) (m : Nat), 
    (s.runs .core = true) ∧
    (s.chip.hbmUp m = true) := ⟨hbm id, 0, by decide +kernel⟩

theorem wit_HbmRefreshesAndGuardsRows_14 : ∃ (s : State) (m : Nat), 
    (s.runs .core = true) ∧
    (s.chip.hbmUp m = false) := ⟨hbm id, 2, by decide +kernel⟩

theorem wit_HbmTrainsSleepsAndRetires_1 : ∃ (s : State) (src : Source) (m : Nat) (data : Word), 
    (s.serves src (A.hbm m + R.HBM_TRAIN) true = true) ∧
    (s.chip.hbmUp m = true) ∧
    (bit data 31 = true ∧ s.chip.hbmState m = 2 ∧ (bits data 5 5 = 1 ∨
      s.chip.hbmRetired m (bits data 4 0) = false)) := ⟨hbm id, .pf, 1, 0x80000007, by decide +kernel⟩

theorem wit_HbmTrainsSleepsAndRetires_2 : ∃ (s : State) (src : Source) (m : Nat) (data : Word), 
    (s.serves src (A.hbm m + R.HBM_TRAIN) true = true) ∧
    (s.chip.hbmUp m = true) ∧
    (bit data 31 = true ∧ (s.chip.hbmState m ≠ 2 ∨ (bits data 5 5 = 0 ∧
      s.chip.hbmRetired m (bits data 4 0) = true))) := ⟨hbm (fun c => c.put (A.hbm 1) R.HBM_STATUS_state 4), .pf, 1, 0x80000007,
      by decide +kernel⟩

theorem wit_HbmTrainsSleepsAndRetires_3 : ∃ (s : State) (src : Source) (m : Nat) (data : Word), 
    (s.serves src (A.hbm m + R.HBM_TRAIN) true = true) ∧
    (bit data 31 = false ∨ s.chip.hbmUp m = false) := ⟨hbm id, .pf, 1, 0x27, by decide +kernel⟩

theorem wit_HbmTrainsSleepsAndRetires_4 : ∃ (s : State) (m pc : Nat) (r : HbmReq), 
    (s.runs .core = true) ∧
    (s.chip.hbmUp m = true ∧ pc < 32 ∧ (s.chip.hpc m pc).stepHeld = true ∧ (s.chip.hpc m pc).holder = some r ∧ r.req = 6) ∧
    ((s.chip.hpc m pc).step < 5 ∧ s.chip.freqDeferred m = false) :=
      ⟨hbm (fun c => c.setHpc 0 3 { step := 4, stepHeld := true, holder := some { req := 6 } }), 0, 3, { req := 6 }, by decide +kernel⟩

theorem wit_HbmTrainsSleepsAndRetires_5 : ∃ (s : State) (m pc : Nat) (r : HbmReq), 
    (s.runs .core = true) ∧
    (s.chip.hbmUp m = true ∧ pc < 32 ∧ (s.chip.hpc m pc).stepHeld = true ∧ (s.chip.hpc m pc).holder = some r ∧ r.req = 6) ∧
    (s.chip.freqDeferred m = true) := ⟨hbm (fun c => (c.put (A.hbm 0) R.HBM_FREQ_state 1).setHpc 0 3
      { step := 4, stepHeld := true, holder := some { req := 6 } }), 0, 3, { req := 6 }, by decide +kernel⟩

theorem wit_HbmTrainsSleepsAndRetires_6 : ∃ (s : State) (m pc : Nat) (r : HbmReq), 
    (s.runs .core = true) ∧
    (s.chip.hbmUp m = true ∧ pc < 32 ∧ (s.chip.hpc m pc).stepHeld = true ∧ (s.chip.hpc m pc).holder = some r ∧ r.req = 6) ∧
    ((s.chip.hpc m pc).step = 5 ∧ s.chip.freqDeferred m = false) ∧
    ((s.chip.hb m).serving = true ∧ (s.chip.hb m).failed = false ∧ s.chip.hbmPcs m ≠ [] ∧ ∀ q < 32, q ≠ pc →
      (s.chip.hpc m q).step = 0) := ⟨hbm (fun c => c.setHb 0
      { serving := true, pcs := [(3, { step := 5, stepHeld := true, holder := some { req := 6 } })] }), 0, 3, { req := 6 },
      by decide +kernel⟩

theorem wit_HbmTrainsSleepsAndRetires_7 : ∃ (s : State) (m pc : Nat) (r : HbmReq), 
    (s.runs .core = true) ∧
    (s.chip.hbmUp m = true ∧ pc < 32 ∧ (s.chip.hpc m pc).stepHeld = true ∧ (s.chip.hpc m pc).holder = some r ∧ r.req = 6) ∧
    (s.chip.hbmRetired m pc = false) := ⟨hbm (fun c => c.setHb 1
      { serving := true, pcs := [(3, { step := 5, stepHeld := true, holder := some { req := 6 } })] }), 1, 3, { req := 6 },
      by decide +kernel⟩

theorem wit_HbmTrainsSleepsAndRetires_8 : ∃ (s : State) (m pc : Nat) (pass : Bool), 
    (s.runs .core = true) ∧
    (s.chip.hbmUp m = false ∨ 32 ≤ pc ∨ (s.chip.hpc m pc).stepHeld = false ∨
      (s.chip.hpc m pc).holder.all (fun r => r.req != 6) = true) := ⟨hbm id, 0, 3, true, by decide +kernel⟩

theorem wit_HbmTrainsSleepsAndRetires_9 : ∃ (s : State) (src : Source) (m : Nat) (data : Word), 
    (s.serves src (A.hbm m + R.HBM_FREQ) true = true) ∧
    (s.chip.hbmUp m = true) ∧
    (bit data 31 = true ∧ bits data 1 0 ≠ 3 ∧ s.chip.hbmState m ∉ [3, 4, 5, 6]) ∧
    (s.chip.stepRuns m = false ∧ s.chip.hbmCopying m = false ∧
      s.chip.trainingOn m = false) := ⟨hbm id, .pf, 1, 0x80000002, by decide +kernel⟩

theorem wit_HbmTrainsSleepsAndRetires_10 : ∃ (s : State) (src : Source) (m : Nat) (data : Word), 
    (s.serves src (A.hbm m + R.HBM_FREQ) true = true) ∧
    (s.chip.hbmUp m = true) ∧
    (bit data 31 = true ∧ bits data 1 0 ≠ 3 ∧ s.chip.hbmState m ∉ [3, 4, 5, 6]) ∧
    (s.chip.stepRuns m = false ∧ s.chip.hbmCopying m = false ∧
      s.chip.trainingOn m = true) := ⟨hbm (fun c => (c.put (A.hbm 1) R.HBM_STATUS_state 1).setHb 1
      { serving := true, pcs := [(3, { step := 4 })] }), .pf, 1, 0x80000002, by decide +kernel⟩

theorem wit_HbmTrainsSleepsAndRetires_11 : ∃ (s : State) (src : Source) (m : Nat) (data : Word), 
    (s.serves src (A.hbm m + R.HBM_FREQ) true = true) ∧
    (s.chip.hbmUp m = true) ∧
    (bit data 31 = true ∧ bits data 1 0 ≠ 3 ∧ s.chip.hbmState m ∉ [3, 4, 5, 6]) ∧
    (s.chip.stepRuns m = true ∨ s.chip.hbmCopying m = true) := ⟨hbm (fun c => c.put (A.hbm 0) R.HBM_RELOC_copying 1), .pf, 0, 0x80000002,
      by decide +kernel⟩

theorem wit_HbmTrainsSleepsAndRetires_12 : ∃ (s : State) (src : Source) (m : Nat) (data : Word), 
    (s.serves src (A.hbm m + R.HBM_FREQ) true = true) ∧
    (s.chip.hbmUp m = true) ∧
    (bit data 31 = true ∧ (bits data 1 0 = 3 ∨ s.chip.hbmState m ∈ [3, 4, 5, 6])) := ⟨hbm id, .pf, 0, 0x80000003, by decide +kernel⟩

theorem wit_HbmTrainsSleepsAndRetires_13 : ∃ (s : State) (src : Source) (m : Nat) (data : Word), 
    (s.serves src (A.hbm m + R.HBM_FREQ) true = true) ∧
    (bit data 31 = false ∨ s.chip.hbmUp m = false) := ⟨hbm id, .pf, 0, 2, by decide +kernel⟩

theorem wit_HbmTrainsSleepsAndRetires_14 : ∃ (s : State) (m : Nat), 
    (s.runs .core = true) ∧
    (s.chip.hbmUp m = true) ∧
    (s.chip.get (A.hbm m) R.HBM_FREQ_state = 1 ∧ s.chip.stepRuns m = false ∧
      s.chip.hbmCopying m = false) := ⟨hbm (fun c => c.put (A.hbm 0) R.HBM_FREQ_state 1), 0, by decide +kernel⟩

theorem wit_HbmTrainsSleepsAndRetires_15 : ∃ (s : State) (m : Nat), 
    (s.runs .core = true) ∧
    (s.chip.hbmUp m = false ∨ s.chip.get (A.hbm m) R.HBM_FREQ_state ≠ 1 ∨ ¬(s.chip.stepRuns m = false ∧
      s.chip.hbmCopying m = false)) := ⟨hbm id, 0, by decide +kernel⟩

theorem wit_HbmTrainsSleepsAndRetires_16 : ∃ (s : State) (m : Nat), 
    (s.runs .core = true) ∧
    (s.chip.hbmUp m = true) ∧
    (s.chip.hbmState m = 6 ∧ s.chip.hbmPcs m ≠ [] ∧ (s.chip.hb m).freqPoint < 4) ∧
    (∀ pc < 32, (s.chip.hpc m pc).holder = none) := ⟨hbm (fun c => (c.put (A.hbm 0) R.HBM_STATUS_state 6).setHb 0 { freqPoint := 2 }), 0,
      by decide +kernel⟩

theorem wit_HbmTrainsSleepsAndRetires_17 : ∃ (s : State) (m : Nat), 
    (s.runs .core = true) ∧
    (s.chip.hbmUp m = false ∨ s.chip.hbmState m ≠ 6 ∨ ¬(∀ pc < 32, (s.chip.hpc m pc).holder = none)) := ⟨hbm id, 0, by decide +kernel⟩

theorem wit_HbmTrainsSleepsAndRetires_18 : ∃ (s : State) (src : Source) (m : Nat), 
    (s.serves src (A.hbm m + R.HBM_PWR) true = true) ∧
    (s.chip.hbmUp m = true) ∧
    ((s.chip.innk m).bundles = [] ∧ s.chip.trainingOn m = false ∧ s.chip.hbmCopying m = false ∧
      s.chip.hbmState m = 2) := ⟨hbm id, .pf, 0, by decide +kernel⟩

theorem wit_HbmTrainsSleepsAndRetires_19 : ∃ (s : State) (src : Source) (m : Nat), 
    (s.serves src (A.hbm m + R.HBM_PWR) true = true) ∧
    (s.chip.hbmUp m = true) ∧
    (¬((s.chip.innk m).bundles = [] ∧ s.chip.trainingOn m = false ∧ s.chip.hbmCopying m = false ∧
      s.chip.hbmState m = 2)) := ⟨hbm (fun c => c.setInnk 0 { bundles := [(4, some {})] }), .pf, 0, by decide +kernel⟩

theorem wit_HbmTrainsSleepsAndRetires_20 : ∃ (s : State) (src : Source) (m : Nat), 
    (s.serves src (A.hbm m + R.HBM_PWR) true = true) ∧
    (s.chip.hbmUp m = true) ∧
    (s.chip.hbmState m ≠ 0 ∧ s.chip.hbmState m ≠ 7) := ⟨hbm (fun c => c.put (A.hbm 0) R.HBM_STATUS_state 4), .pf, 0, by decide +kernel⟩

theorem wit_HbmTrainsSleepsAndRetires_21 : ∃ (s : State) (src : Source) (m : Nat), 
    (s.serves src (A.hbm m + R.HBM_PWR) true = true) ∧
    (s.chip.hbmUp m = true) ∧
    (s.chip.hbmState m = 0 ∨ s.chip.hbmState m = 7) := ⟨hbm (fun c => c.put (A.hbm 0) R.HBM_STATUS_state 7), .pf, 0, by decide +kernel⟩

theorem wit_HbmTrainsSleepsAndRetires_22 : ∃ (s : State) (src : Source) (m : Nat), 
    (s.serves src (A.hbm m + R.HBM_PWR) true = true) ∧
    (s.chip.hbmUp m = false) := ⟨hbm (fun c => { c with rst := { c.rst with held := [hbmUnit 0] } }), .pf, 0, by decide +kernel⟩

theorem wit_HbmTrainsSleepsAndRetires_23 : ∃ (s : State) (src : Source) (m : Nat), 
    (s.serves src (A.hbm m + R.HBM_PWR) true = true) ∧
    (s.chip.hbmUp m = false) := ⟨hbm (fun c => { c with rst := { c.rst with held := [hbmUnit 0] } }), .pf, 0, by decide +kernel⟩

theorem wit_HbmTrainsSleepsAndRetires_24 : ∃ (s : State) (m : Nat), 
    (s.runs .core = true) ∧
    (s.chip.hbmUp m = true) ∧
    (s.chip.hbmState m = 3) ∧
    (∀ pc < 32, (s.chip.hpc m pc).holder = none) := ⟨hbm (fun c => c.put (A.hbm 0) R.HBM_STATUS_state 3), 0, by decide +kernel⟩

theorem wit_HbmTrainsSleepsAndRetires_25 : ∃ (s : State) (m : Nat), 
    (s.runs .core = true) ∧
    (s.chip.hbmUp m = false ∨ s.chip.hbmState m ≠ 3 ∨ ¬(∀ pc < 32, (s.chip.hpc m pc).holder = none)) := ⟨hbm id, 0, by decide +kernel⟩

theorem wit_HbmTrainsSleepsAndRetires_26 : ∃ (s : State) (m : Nat), 
    (s.runs .core = true) ∧
    (s.chip.hbmUp m = true) ∧
    (s.chip.hbmState m = 5 ∧ s.chip.hbmPcs m ≠ []) := ⟨hbm (fun c => c.put (A.hbm 0) R.HBM_STATUS_state 5), 0, by decide +kernel⟩

theorem wit_HbmTrainsSleepsAndRetires_27 : ∃ (s : State) (m : Nat), 
    (s.runs .core = true) ∧
    (s.chip.hbmUp m = false ∨ s.chip.hbmState m ≠ 5) := ⟨hbm id, 0, by decide +kernel⟩

theorem wit_HbmTrainsSleepsAndRetires_28 : ∃ (s : State) (m : Nat), 
    (s.runs .core = true) ∧
    (s.chip.hbmUp m = true) ∧
    ((s.chip.hb m).wokenByRequest = true ∧ (s.chip.hb m).exitWritten = false) ∧
    (s.chip.get (A.hbm m) R.HBM_CTRL_sr_idle_us ≠ 0 ∧ s.chip.passedUs (s.chip.hb m).lastGrant (s.chip.get (A.hbm m) R.HBM_CTRL_sr_idle_us) =
      true) ∧
    ((s.chip.innk m).bundles = [] ∧ s.chip.trainingOn m = false ∧ s.chip.hbmCopying m = false ∧
      s.chip.hbmState m = 2) := ⟨hbm (fun c => { c.setHb 0 { wokenByRequest := true } with now := 1000000 }), 0, by decide +kernel⟩

theorem wit_HbmTrainsSleepsAndRetires_29 : ∃ (s : State) (m : Nat), 
    (s.runs .core = true) ∧
    (s.chip.hbmUp m = false ∨ (s.chip.hb m).wokenByRequest = false ∨ (s.chip.hb m).exitWritten = true ∨
      s.chip.get (A.hbm m) R.HBM_CTRL_sr_idle_us = 0 ∨ s.chip.passedUs (s.chip.hb m).lastGrant (s.chip.get (A.hbm m) R.HBM_CTRL_sr_idle_us)
      = false ∨ ¬((s.chip.innk m).bundles = [] ∧ s.chip.trainingOn m = false ∧ s.chip.hbmCopying m = false ∧
      s.chip.hbmState m = 2)) := ⟨hbm id, 0, by decide +kernel⟩

theorem wit_HbmTrainsSleepsAndRetires_30 : ∃ (s : State) (src : Source) (m pc : Nat), 
    (s.serves src (A.hbm m + R.HBM_RETIRE) true = true) ∧
    (s.chip.hbmUp m = true) ∧
    (pc < 32) ∧
    (¬(s.chip.hbmRetired m pc = true ∨ s.chip.hbmState m ∉ [1, 2] ∨ s.chip.hbmCopying m = true ∨ (m = 0 ∧
      s.chip.get (A.hbm m) R.HBM_RELOC_used = 1 ∧ s.chip.get (A.hbm m) R.HBM_RETIRE_force = 0)) ∧ (m = 0 →
      s.chip.get (A.hbm m) R.HBM_RELOC_used = 0)) ∧
    (s.chip.trainingOn m = false ∧ (s.chip.hpc m pc).step = 0 ∧ (s.chip.hpc m pc).waiting = [] ∧
      (s.chip.innk m).bundles = []) := ⟨hbm id, .pf, 1, 9, by decide +kernel⟩

theorem wit_HbmTrainsSleepsAndRetires_31 : ∃ (s : State) (src : Source) (pc m : Nat), 
    (m = 0) ∧
    (s.serves src (A.hbm m + R.HBM_RETIRE) true = true) ∧
    (s.chip.hbmUp m = true) ∧
    (pc < 32) ∧
    (¬(s.chip.hbmRetired m pc = true ∨ s.chip.hbmState m ∉ [1, 2] ∨ s.chip.hbmCopying m = true ∨ (m = 0 ∧
      s.chip.get (A.hbm m) R.HBM_RELOC_used = 1 ∧ s.chip.get (A.hbm m) R.HBM_RETIRE_force = 0)) ∧
      s.chip.get (A.hbm m) R.HBM_RELOC_used = 1) ∧
    (s.chip.trainingOn m = false ∧ (s.chip.hpc m pc).step = 0 ∧ (s.chip.hpc m pc).waiting = [] ∧
      (s.chip.innk m).bundles = []) := ⟨hbm (fun c => (c.put (A.hbm 0) R.HBM_RELOC_used 1).put (A.hbm 0) R.HBM_RETIRE_force 1), .pf, 9, 0,
      by decide +kernel⟩

theorem wit_HbmTrainsSleepsAndRetires_32 : ∃ (s : State) (src : Source) (m pc : Nat), 
    (s.serves src (A.hbm m + R.HBM_RETIRE) true = true) ∧
    (s.chip.hbmUp m = true) ∧
    (pc < 32) ∧
    (s.chip.hbmRetired m pc = true ∨ s.chip.hbmState m ∉ [1, 2] ∨ s.chip.hbmCopying m = true ∨ (m = 0 ∧
      s.chip.get (A.hbm m) R.HBM_RELOC_used = 1 ∧ s.chip.get (A.hbm m) R.HBM_RETIRE_force = 0)) :=
      ⟨hbm (fun c => c.put (A.hbm 0) R.HBM_RELOC_used 1), .pf, 0, 9, by decide +kernel⟩

theorem wit_HbmTrainsSleepsAndRetires_33 : ∃ (s : State) (src : Source) (m pc : Nat), 
    (s.serves src (A.hbm m + R.HBM_RETIRE) true = true) ∧
    (s.chip.hbmUp m = false ∨ 32 ≤ pc) := ⟨hbm id, .pf, 0, 32, by decide +kernel⟩

theorem wit_HbmTrainsSleepsAndRetires_34 : ∃ (s : State) (src : Source) (m pc : Nat), 
    (s.serves src (A.hbm m + R.HBM_RETIRE) true = true) ∧
    (m < 2 ∧ pc < 32) := ⟨hbm id, .pf, 0, 9, by decide +kernel⟩

theorem wit_HbmTrainsSleepsAndRetires_35 : ∃ (s : State) (m a k : Nat) (b : Byte), 
    (s.runs .core = true) ∧
    (s.chip.hbmUp m = true ∧ s.chip.hbmCopying m = true ∧ ((s.chip.hpc m (s.chip.get (A.hbm m) R.HBM_RELOC_channel)).holder.toList ++
      (s.chip.hpc m (s.chip.get (A.hbm m) R.HBM_RELOC_channel)).suspended).all (fun r => r.req != 4) = true) ∧
    ((s.chip.hpc m (s.chip.get (A.hbm m) R.HBM_RELOC_channel)).waiting = []) ∧
    (Tbl.wf (fun _ => none) (s.chip.hb m).mem = true) ∧
    (Chip.shareGranule a = some k) ∧
    ((s.chip.hb m).mem.look (stackOffset (s.chip.get (A.hbm m) R.HBM_RELOC_channel) a) = some b) :=
      ⟨hbm (fun c => ((c.put (A.hbm 0) R.HBM_RELOC_copying 1).put (A.hbm 0) R.HBM_RELOC_channel 5).setHb 0
      { mem := [(stackOffset 5 (1056 * 2048 + 17), some 44)] }), 0, 1056 * 2048 + 17, 32, 44, by decide +kernel⟩

theorem wit_HbmTrainsSleepsAndRetires_36 : ∃ (s : State) (m : Nat), 
    (s.runs .core = true) ∧
    (¬(s.chip.hbmUp m = true ∧ s.chip.hbmCopying m = true ∧ ((s.chip.hpc m (s.chip.get (A.hbm m) R.HBM_RELOC_channel)).holder.toList ++
      (s.chip.hpc m (s.chip.get (A.hbm m) R.HBM_RELOC_channel)).suspended).all (fun r => r.req != 4) = true)) := ⟨hbm id, 0,
      by decide +kernel⟩

theorem wit_HbmTrainsSleepsAndRetires_37 : ∃ (s : State) (m : Nat), 
    (s.runs .core = true) ∧
    (s.chip.hbmUp m = true) ∧
    (s.chip.hbmState m ≠ 0 ∧ s.chip.hbmState m ≠ 7) := ⟨hbm id, 0, by decide +kernel⟩

theorem wit_HbmTrainsSleepsAndRetires_38 : ∃ (s : State) (m : Nat), 
    (s.runs .core = true) ∧
    (s.chip.hbmUp m = false ∨ s.chip.hbmState m = 0 ∨ s.chip.hbmState m = 7) := ⟨hbm (fun c => c.put (A.hbm 0) R.HBM_STATUS_state 7), 0,
      by decide +kernel⟩

theorem wit_SlicesSleepAndWake_1 : ∃ (s : State) (sl : Nat), 
    (s.runs .core = true) ∧
    (sl < 8) ∧
    ((s.chip.sleepers sl).Nodup ∧ (s.chip.sleepers sl).all (· < 8) = true) ∧
    ((s.chip.sleepers sl).all s.chip.maySleep = true) := ⟨st (fun c => (c.put 0 R.SLEEP_CTRL_enable 1).put 0 R.SLEEP_MASK_allow 0xFF), 3,
      by decide +kernel⟩

theorem wit_SlicesSleepAndWake_2 : ∃ (s : State) (sl : Nat), 
    (s.runs .core = true) ∧
    (8 ≤ sl ∨ (s.chip.sleepers sl).all s.chip.maySleep = false) := ⟨st id, 0, by decide +kernel⟩

theorem wit_SlicesSleepAndWake_3 : ∃ (s : State) (sl : Nat), 
    (s.runs .core = true) ∧
    (sl < 8 ∧ s.chip.house.sleep.look sl = 1 ∧ s.chip.causeOf sl = false) :=
      ⟨st (fun c => { c with house := { c.house with sleep := [(3, 1)] } }), 3, by decide +kernel⟩

theorem wit_SlicesSleepAndWake_4 : ∃ (s : State) (sl : Nat), 
    (s.runs .core = true) ∧
    (8 ≤ sl ∨ s.chip.house.sleep.look sl ≠ 1 ∨ s.chip.causeOf sl = true) :=
      ⟨st (fun c => { c with house := { c.house with sleep := [(3, 1)], cause := 8 } }), 3, by decide +kernel⟩

theorem wit_SlicesSleepAndWake_5 : ∃ (s : State) (sl : Nat), 
    (s.runs .core = true) ∧
    (sl < 8) ∧
    ((s.chip.sleepers sl).Nodup ∧ (s.chip.sleepers sl).all (· < 8) = true) ∧
    ((s.chip.sleepers sl).any s.chip.causeOf = true) := ⟨st (fun c =>
      { c.put 0 R.SLEEP_STATE_asleep 8 with house := { c.house with sleep := [(3, 2)], cause := 8 } }), 3, by decide +kernel⟩

theorem wit_SlicesSleepAndWake_6 : ∃ (s : State) (sl : Nat), 
    (s.runs .core = true) ∧
    (8 ≤ sl ∨ (s.chip.sleepers sl).any s.chip.causeOf = false) := ⟨st (fun c => { c with house := { c.house with sleep := [(3, 2)] } }), 3,
      by decide +kernel⟩

theorem wit_SlicesSleepAndWake_7 : ∃ (s : State) (src : Source) (mask : Nat), 
    (s.serves src R.WAKE_CMD true = true) ∧
    (mask < 256) := ⟨st (fun c => { c with house := { c.house with sleep := [(3, 2)] } }), .pf, 0x18, by decide +kernel⟩

theorem wit_SlicesSleepAndWake_8 : ∃ (s : State) (sl : Nat), 
    (s.runs .core = true) ∧
    (sl < 8 ∧ s.chip.house.sleep.look sl = 3) := ⟨st (fun c => { c with house := { c.house with sleep := [(3, 3)] } }), 3,
      by decide +kernel⟩

theorem wit_SlicesSleepAndWake_9 : ∃ (s : State) (sl : Nat), 
    (s.runs .core = true) ∧
    (8 ≤ sl ∨ s.chip.house.sleep.look sl ≠ 3) := ⟨st (fun c => { c with house := { c.house with sleep := [(3, 4)] } }), 3,
      by decide +kernel⟩

theorem wit_SlicesSleepAndWake_10 : ∃ (s : State) (sl : Nat), 
    (s.runs .core = true) ∧
    (sl < 8 ∧ (s.chip.house.sleep.look sl = 3 ∨ s.chip.house.sleep.look sl = 4)) ∧
    (s.chip.house.wakeStore.look sl = []) ∧
    ((List.range 16).all (fun q => !(s.chip.on (A.port (16 * sl + q)) R.GATE_CTRL_enable)) = true) :=
      ⟨st (fun c => { (c.put 0 R.SLEEP_STATE_asleep 8).put 0 R.SLEEP_STATE_waking 8 with house := { c.house with sleep := [(3, 3)] } }), 3,
      by decide +kernel⟩

theorem wit_SlicesSleepAndWake_11 : ∃ (s : State) (sl : Nat), 
    (s.runs .core = true) ∧
    (sl < 8 ∧ (s.chip.house.sleep.look sl = 3 ∨ s.chip.house.sleep.look sl = 4)) ∧
    ((s.chip.house.wakeStore.look sl).all (fun w => match w with | .frame _ => true | _ => false) = true) ∧
    ((List.range 16).all (fun q => !(s.chip.on (A.port (16 * sl + q)) R.GATE_CTRL_enable)) = true) :=
      ⟨st (fun c => { c with house := { c.house with sleep := [(3, 3)], wakeStore := [(3, [.frame 9])] }, frames := [(9, some { looking .judged 0 [] with slice := 3 })] }),
      3, by decide +kernel⟩

theorem wit_SlicesSleepAndWake_12 : ∃ (s : State) (sl : Nat), 
    (s.runs .core = true) ∧
    (sl < 8 ∧ (s.chip.house.sleep.look sl = 3 ∨ s.chip.house.sleep.look sl = 4)) :=
      ⟨st (fun c => { c with house := { c.house with sleep := [(3, 3)], wakeStore := [(3, [.cell 1 { first := true, last := true, stream := 4 }])] } }),
      3, by decide +kernel⟩

theorem wit_SlicesSleepAndWake_13 : ∃ (s : State) (sl : Nat), 
    (s.runs .core = true) ∧
    (8 ≤ sl ∨ (s.chip.house.sleep.look sl ≠ 3 ∧ s.chip.house.sleep.look sl ≠ 4)) :=
      ⟨st (fun c => { c with house := { c.house with sleep := [(3, 2)] } }), 3, by decide +kernel⟩

theorem wit_SlicesSleepAndWake_14 : ∃ (s : State) (sl : Nat), 
    (s.runs .core = true) ∧
    (sl < 8 ∧ s.chip.house.sleep.look sl = 4 ∧ s.chip.sliceEnabled sl = true) :=
      ⟨st (fun c => { c with house := { c.house with sleep := [(3, 4)], wakeStore := [(3, [.frame 9])] }, frames := [(9, some { looking .judged 0 [] with slice := 3 })] }),
      3, by decide +kernel⟩

theorem wit_SlicesSleepAndWake_15 : ∃ (s : State) (sl : Nat), 
    (s.runs .core = true) ∧
    (8 ≤ sl ∨ s.chip.house.sleep.look sl ≠ 4) := ⟨st (fun c => { c with house := { c.house with sleep := [(3, 3)] } }), 3,
      by decide +kernel⟩

theorem wit_NightWindowAndVoltage_1 : ∃ (s : State), 
    (s.runs .core = true) ∧
    (s.chip.nightDue = true) ∧
    (s.chip.get 0 R.NIGHT_CTRL_hbm_sleep = 0) := ⟨st (fun c => ((c.put 0 R.NIGHT_CTRL_enable 1).put 0 R.NIGHT_CTRL_hbm_sleep 0).put 0
      R.NIGHT_CTRL_end_min 60), by decide +kernel⟩

theorem wit_NightWindowAndVoltage_2 : ∃ (s : State), 
    (s.runs .core = true) ∧
    (s.chip.nightDue = true) ∧
    (s.chip.get 0 R.NIGHT_CTRL_hbm_sleep = 1) := ⟨st (fun c => ((c.put 0 R.NIGHT_CTRL_enable 1).put 0 R.NIGHT_CTRL_hbm_sleep 1).put 0
      R.NIGHT_CTRL_end_min 60), by decide +kernel⟩

theorem wit_NightWindowAndVoltage_3 : ∃ (s : State), 
    (s.runs .core = true) ∧
    (s.chip.nightDue = false) := ⟨st id, by decide +kernel⟩

theorem wit_NightWindowAndVoltage_4 : ∃ (s : State) (m : Nat), 
    (s.runs .core = true) ∧
    (m < 2 ∧ s.chip.house.nightHeld.look m = true ∧ s.chip.house.nightOp.look m = none ∧ (s.chip.innk m).bundles = [] ∧
      s.chip.hbmUp m = true) ∧
    (s.chip.trainingOn m = false ∧ s.chip.hbmCopying m = false ∧
      s.chip.hbmState m = 2) := ⟨hbm (fun c => { c with house := { c.house with nightHeld := [(1, true)] } }), 1, by decide +kernel⟩

theorem wit_NightWindowAndVoltage_5 : ∃ (s : State) (m : Nat), 
    (s.runs .core = true) ∧
    (m < 2 ∧ s.chip.house.nightHeld.look m = true ∧ s.chip.house.nightOp.look m = none ∧ (s.chip.innk m).bundles = [] ∧
      s.chip.hbmUp m = true) ∧
    (¬(s.chip.trainingOn m = false ∧ s.chip.hbmCopying m = false ∧
      s.chip.hbmState m = 2)) := ⟨hbm (fun c =>
      { c.put (A.hbm 1) R.HBM_STATUS_state 6 with house := { c.house with nightHeld := [(1, true)] } }), 1, by decide +kernel⟩

theorem wit_NightWindowAndVoltage_6 : ∃ (s : State) (m : Nat), 
    (s.runs .core = true) ∧
    (¬(m < 2 ∧ s.chip.house.nightHeld.look m = true ∧ s.chip.house.nightOp.look m = none ∧ (s.chip.innk m).bundles = [] ∧
      s.chip.hbmUp m = true)) := ⟨hbm id, 1, by decide +kernel⟩

theorem wit_NightWindowAndVoltage_7 : ∃ (s : State) (m : Nat), 
    (s.runs .core = true) ∧
    (m < 2 ∧ s.chip.house.nightHeld.look m = true ∧ (s.chip.house.nightOp.look m).any (fun at_ => s.chip.passedUs at_ 1000) = true ∧
      s.chip.get (A.hbm m) R.HBM_PWR_result ≠ 0 ∧ s.chip.hbmUp m = true) ∧
    ((s.chip.innk m).bundles = [] ∧ s.chip.trainingOn m = false ∧ s.chip.hbmCopying m = false ∧
      s.chip.hbmState m = 2) := ⟨hbm (fun c =>
      { c.put (A.hbm 1) R.HBM_PWR_result 2 with now := 2000000, house := { c.house with nightHeld := [(1, true)], nightOp := [(1, some 1000000)] } }),
      1, by decide +kernel⟩

theorem wit_NightWindowAndVoltage_8 : ∃ (s : State) (m : Nat), 
    (s.runs .core = true) ∧
    (m < 2 ∧ s.chip.house.nightHeld.look m = true ∧ (s.chip.house.nightOp.look m).any (fun at_ => s.chip.passedUs at_ 1000) = true ∧
      s.chip.get (A.hbm m) R.HBM_PWR_result ≠ 0 ∧ s.chip.hbmUp m = true) ∧
    ((s.chip.innk m).bundles ≠ [] ∨ ¬(s.chip.trainingOn m = false ∧ s.chip.hbmCopying m = false ∧
      s.chip.hbmState m = 2)) := ⟨hbm (fun c =>
      { (c.put (A.hbm 1) R.HBM_PWR_result 2).put (A.hbm 1) R.HBM_STATUS_state 6 with now := 2000000, house := { c.house with nightHeld := [(1, true)], nightOp := [(1, some 1000000)] } }),
      1, by decide +kernel⟩

theorem wit_NightWindowAndVoltage_9 : ∃ (s : State) (m : Nat), 
    (s.runs .core = true) ∧
    (¬(m < 2 ∧ s.chip.house.nightHeld.look m = true ∧ (s.chip.house.nightOp.look m).any (fun at_ => s.chip.passedUs at_ 1000) = true ∧
      s.chip.get (A.hbm m) R.HBM_PWR_result ≠ 0 ∧ s.chip.hbmUp m = true)) := ⟨hbm id, 1, by decide +kernel⟩

theorem wit_NightWindowAndVoltage_10 : ∃ (s : State), 
    (s.runs .core = true) ∧
    (s.chip.get 0 R.HK_STATUS_night = 1) ∧
    (s.chip.nightDue = false) := ⟨hbm (fun c =>
      { (c.put (A.hbm 1) R.HBM_STATUS_state 4).put 0 R.HK_STATUS_night 1 with house := { c.house with nightHeld := [(1, true)] } }),
      by decide +kernel⟩

theorem wit_NightWindowAndVoltage_11 : ∃ (s : State), 
    (s.runs .core = true) ∧
    (s.chip.get 0 R.HK_STATUS_night = 0 ∨ s.chip.nightDue = true) := ⟨hbm id, by decide +kernel⟩

theorem wit_NightWindowAndVoltage_12 : ∃ (s : State) (v : Nat), 
    (s.runs .aon = true) ∧
    (s.chip.avsTarget = some v) ∧
    (s.chip.get 0 R.AVS_CTRL_enable = 1 ∧ s.chip.get 0 R.AVS_STATUS_stuck = 0 ∧ s.chip.house.avsWait = none ∧
      s.chip.house.unsteered = false) ∧
    (s.chip.get 0 R.AVS_STATUS_set_mv + 5 ≤ v ∧ s.chip.passedUs s.chip.house.avsLast 100 = true) :=
      ⟨st (fun c => { (c.put 0 R.AVS_CTRL_enable 1).put 0 R.AVS_STATUS_set_mv 750 with now := 200000, house := { c.house with plan := [800, 800, 800, 800, 800] } }),
      800, by decide +kernel⟩

theorem wit_NightWindowAndVoltage_13 : ∃ (s : State) (v : Nat), 
    (s.runs .aon = true) ∧
    (s.chip.avsTarget = some v) ∧
    (s.chip.get 0 R.AVS_CTRL_enable = 1 ∧ s.chip.get 0 R.AVS_STATUS_stuck = 0 ∧ s.chip.house.avsWait = none ∧
      s.chip.house.unsteered = false) ∧
    (v + 5 ≤ s.chip.get 0 R.AVS_STATUS_set_mv ∧ s.chip.passedUs s.chip.house.avsLast 1000 = true ∧ s.chip.get 0 R.SAG_STATUS_nv_low = 0 ∧
      s.chip.get 0 R.SAG_STATUS_core_low = 0) := ⟨st (fun c =>
      { (c.put 0 R.AVS_CTRL_enable 1).put 0 R.AVS_STATUS_set_mv 850 with now := 2000000, house := { c.house with plan := [800, 800, 800, 800, 800] } }),
      800, by decide +kernel⟩

theorem wit_NightWindowAndVoltage_14 : ∃ (s : State), 
    (s.runs .aon = true) ∧
    (¬(s.chip.get 0 R.AVS_CTRL_enable = 1 ∧ s.chip.get 0 R.AVS_STATUS_stuck = 0 ∧ s.chip.house.avsWait = none ∧
      s.chip.house.unsteered = false) ∨ s.chip.avsTarget.all (fun v => decide (¬(s.chip.get 0 R.AVS_STATUS_set_mv + 5 ≤ v ∧
      s.chip.passedUs s.chip.house.avsLast 100 = true) ∧ ¬(v + 5 ≤ s.chip.get 0 R.AVS_STATUS_set_mv ∧
      s.chip.passedUs s.chip.house.avsLast 1000 = true ∧ s.chip.get 0 R.SAG_STATUS_nv_low = 0 ∧
      s.chip.get 0 R.SAG_STATUS_core_low = 0))) = true) := ⟨st id, by decide +kernel⟩

theorem wit_NightWindowAndVoltage_15 : ∃ (s : State) (readback old tries at_ : Nat), 
    (s.runs .aon = true) ∧
    (s.chip.house.avsWait = some (old, tries, at_) ∧ s.chip.passedUs at_ 200 = true) ∧
    (readback < 4096 ∧ readback ≤ s.chip.get 0 R.AVS_STATUS_set_mv + 10 ∧
      s.chip.get 0 R.AVS_STATUS_set_mv ≤ readback + 10) := ⟨st (fun c =>
      { c.put 0 R.AVS_STATUS_set_mv 755 with now := 200000, house := { c.house with avsWait := some (750, 0, 0) } }), 745, 750, 0, 0,
      by decide +kernel⟩

theorem wit_NightWindowAndVoltage_16 : ∃ (s : State) (a : PmbusAnswer) (old tries at_ code : Nat), 
    (s.runs .aon = true) ∧
    (s.chip.house.avsWait = some (old, tries, at_)) ∧
    ((match a with | .failed k => k = code | .vout mv => mv < 4096 ∧ s.chip.passedUs at_ 200 = true ∧
      ¬(mv ≤ s.chip.get 0 R.AVS_STATUS_set_mv + 10 ∧ s.chip.get 0 R.AVS_STATUS_set_mv ≤ mv + 10) ∧ code = 0x21)) ∧
    (tries < 3) := ⟨st (fun c =>
      { c.put 0 R.AVS_STATUS_set_mv 755 with now := 200000, house := { c.house with avsWait := some (750, 2, 0) } }), .vout 744, 750, 2, 0,
      0x21, by decide +kernel⟩

theorem wit_NightWindowAndVoltage_17 : ∃ (s : State) (a : PmbusAnswer) (old tries at_ code : Nat), 
    (s.runs .aon = true) ∧
    (s.chip.house.avsWait = some (old, tries, at_)) ∧
    ((match a with | .failed k => k = code | .vout mv => mv < 4096 ∧ s.chip.passedUs at_ 200 = true ∧
      ¬(mv ≤ s.chip.get 0 R.AVS_STATUS_set_mv + 10 ∧ s.chip.get 0 R.AVS_STATUS_set_mv ≤ mv + 10) ∧ code = 0x21)) ∧
    (3 ≤ tries ∧ old < 4096) := ⟨st (fun c =>
      { c.put 0 R.AVS_STATUS_set_mv 755 with now := 200000, house := { c.house with avsWait := some (750, 3, 0) } }), .failed 0x88, 750, 3,
      0, 0x88, by decide +kernel⟩

theorem wit_NightWindowAndVoltage_18 : ∃ (s : State) (a : PmbusAnswer), 
    (s.runs .aon = true) ∧
    (s.chip.house.avsWait.all (fun w => (match a with | .vout _ => true | .failed _ => false) && !(s.chip.passedUs w.2.2 200)) = true) :=
      ⟨st id, .failed 0x79, by decide +kernel⟩

theorem wit_AgeingAndTemperature_1 : ∃ (s : State) (values : List Nat), 
    (s.runs .aon = true) := ⟨st id, List.replicate 760 700, by decide +kernel⟩

theorem wit_AgeingAndTemperature_2 : ∃ (s : State) (values : List Nat) (i : Nat), 
    (s.runs .aon = true) ∧
    (i < 96 ∧ 8 * i + 8 ≤ values.length) ∧
    (((mkReading ((values.drop (8 * i)).take 8))).slackCeil < (s.chip.get 0 R.HK_AGE_CTRL_slack_warn_ps : Int) ∧
      (s.chip.house.monitors.look i).all (fun o => decide ((s.chip.get 0 R.HK_AGE_CTRL_slack_warn_ps : Int) ≤ o.slackCeil)) = true) :=
      ⟨st (fun c => c.put 0 R.HK_AGE_CTRL_slack_warn_ps 20), List.replicate 768 7, 95, by decide +kernel⟩

theorem wit_AgeingAndTemperature_3 : ∃ (s : State), 
    (s.runs .aon = true) ∧
    (s.chip.image.applied = true ∧ s.chip.house.monitors ≠ []) ∧
    (s.chip.house.replanAt = none) := ⟨st (fun c =>
      { c with house := { c.house with monitors := [(3, some { loss := 1, slack := 5, slackCeil := 60, vmin := [700, 701, 702, 703, 704] })] } }),
      by decide +kernel⟩

theorem wit_AgeingAndTemperature_4 : ∃ (s : State) (at_ : Nat), 
    (s.runs .aon = true) ∧
    (s.chip.image.applied = true ∧ s.chip.house.monitors ≠ []) ∧
    (s.chip.house.replanAt = some at_ ∧ at_ + s.chip.get 0 R.HK_AGE_CTRL_replan_days * dayNs ≤ s.chip.now) :=
      ⟨st (fun c => { c with now := 300 * dayNs, house := { c.house with replanAt := some 0, monitors := [(3, some { loss := 1, slack := 5, slackCeil := 60, vmin := [700, 701, 702, 703, 704] })] } }),
      0, by decide +kernel⟩

theorem wit_AgeingAndTemperature_5 : ∃ (s : State), 
    (s.runs .aon = true) ∧
    (s.chip.image.applied = false ∨ s.chip.house.monitors = [] ∨
      s.chip.house.replanAt.any (fun at_ => decide (s.chip.now < at_ + s.chip.get 0 R.HK_AGE_CTRL_replan_days * dayNs)) = true) := ⟨st id,
      by decide +kernel⟩

theorem wit_AgeingAndTemperature_6 : ∃ (s : State) (item row unit at_ : Nat) (deferred : Bool), 
    (s.runs .aon = true) ∧
    (s.chip.house.items[item]? = some (row, unit, deferred) ∧ s.chip.house.replanAt = some at_) ∧
    (s.chip.itemReady row unit = true ∧ (deferred = false ∨ s.chip.get 0 R.HK_STATUS_night = 1)) ∧
    (row ≠ 4 ∧ 1 < s.chip.house.items.length) := ⟨st (fun c =>
      { c with house := { c.house with replanAt := some 0, sleep := [(2, 2)], items := [(1, 2, false), (1, 3, false)] } }), 0, 1, 2, 0,
      false, by decide +kernel⟩

theorem wit_AgeingAndTemperature_7 : ∃ (s : State) (item row unit at_ : Nat) (deferred : Bool), 
    (s.runs .aon = true) ∧
    (s.chip.house.items[item]? = some (row, unit, deferred) ∧ s.chip.house.replanAt = some at_) ∧
    (s.chip.itemReady row unit = true ∧ (deferred = false ∨ s.chip.get 0 R.HK_STATUS_night = 1)) ∧
    (row ≠ 4 ∧ s.chip.house.items.length = 1) := ⟨st (fun c =>
      { c with house := { c.house with replanAt := some 0, items := [(3, 0, false)] } }), 0, 3, 0, 0, false, by decide +kernel⟩

theorem wit_AgeingAndTemperature_8 : ∃ (s : State) (item row unit at_ : Nat) (deferred : Bool), 
    (s.runs .aon = true) ∧
    (s.chip.house.items[item]? = some (row, unit, deferred) ∧ s.chip.house.replanAt = some at_) ∧
    (s.chip.itemReady row unit = true ∧ (deferred = false ∨ s.chip.get 0 R.HK_STATUS_night = 1)) ∧
    (row = 4) := ⟨hbm (fun c => { c.put 0 R.HK_STATUS_night 1 with house := { c.house with replanAt := some 0, items := [(4, 1, true)] } }),
      0, 4, 1, 0, true, by decide +kernel⟩

theorem wit_AgeingAndTemperature_9 : ∃ (s : State) (item row unit at_ n : Nat) (deferred : Bool), 
    (s.runs .aon = true) ∧
    (s.chip.house.items[item]? = some (row, unit, deferred) ∧ s.chip.house.replanAt = some at_ ∧ deferred = false) ∧
    (s.chip.itemReady row unit = false ∧ at_ + dayNs ≤ s.chip.now) ∧
    (n = s.chip.house.deferRuns.look (row * 256 + unit) + 1) :=
      ⟨st (fun c => { c with now := dayNs, house := { c.house with replanAt := some 0, items := [(1, 2, false)] } }), 0, 1, 2, 0, 1, false,
      by decide +kernel⟩

theorem wit_AgeingAndTemperature_10 : ∃ (s : State) (item : Nat), 
    (s.runs .aon = true) ∧
    (s.chip.house.replanAt = none ∨ s.chip.house.items[item]? = none ∨
      (∃ row unit at_ deferred, (s.chip.house.items[item]? = some (row, unit, deferred) ∧ s.chip.house.replanAt = some at_) ∧
      ¬(s.chip.itemReady row unit = true ∧ (deferred = false ∨ s.chip.get 0 R.HK_STATUS_night = 1)) ∧ (deferred = true ∨
      s.chip.now < at_ + dayNs))) := ⟨st id, 0, by decide +kernel, .inl rfl⟩

theorem wit_AgeingAndTemperature_11 : ∃ (s : State) (temps : List Nat), 
    (s.runs .aon = true) ∧
    (temps ≠ [] ∧ temps.length ≤ 64) := ⟨st (fun c =>
      { (c.put 0 R.THERM_CTRL_warn_c 100).put 0 R.THERM_CTRL_trip_c 115 with house := { c.house with warned := true } }), [40, 115, 250],
      by decide +kernel⟩

theorem wit_AgeingAndTemperature_12 : ∃ (s : State), 
    (s.runs .aon = true) := ⟨st id, by decide +kernel⟩

theorem wit_SagAndKeepsakeStore_1 : ∃ (s : State) (rail : Nat), 
    (s.runs .aon = true) ∧
    (rail < 2 ∧ s.chip.get 0 (if rail = 0 then R.SAG_STATUS_nv_low else R.SAG_STATUS_core_low) = 0) :=
      ⟨st (fun c => { c with house := { c.house with queue := [.boot 1, .line 0x20000 5] } }), 1, by decide +kernel⟩

theorem wit_SagAndKeepsakeStore_2 : ∃ (s : State) (rail : Nat), 
    (s.runs .aon = true) ∧
    (2 ≤ rail ∨ s.chip.get 0 (if rail = 0 then R.SAG_STATUS_nv_low else R.SAG_STATUS_core_low) = 1) :=
      ⟨st (fun c => c.put 0 R.SAG_STATUS_nv_low 1), 0, by decide +kernel⟩

theorem wit_SagAndKeepsakeStore_3 : ∃ (s : State), 
    (s.runs .aon = true) ∧
    (s.chip.get 0 R.SAG_STATUS_stopped = 1) := ⟨st (fun c => (c.put 0 R.SAG_STATUS_stopped 1).put 0 R.SAG_STATUS_nv_low 1),
      by decide +kernel⟩

theorem wit_SagAndKeepsakeStore_4 : ∃ (s : State), 
    (s.runs .aon = true) ∧
    (s.chip.get 0 R.SAG_STATUS_stopped = 0) := ⟨st id, by decide +kernel⟩

theorem wit_SagAndKeepsakeStore_5 : ∃ (s : State) (src : Source), 
    (s.mayGo src keepWin = true) ∧
    ((s.chip.winIn src keepWin).index < 0x100000) := ⟨st (fun c => c.put keepWin R.WIN_ADDR_index 0x20000), .pf, by decide +kernel⟩

theorem wit_SagAndKeepsakeStore_6 : ∃ (s : State) (src : Source), 
    (s.mayGo src keepWin = true) ∧
    (0x100000 ≤ (s.chip.winIn src keepWin).index) := ⟨st (fun c => c.put keepWin R.WIN_ADDR_index 0x100000), .pf, by decide +kernel⟩

theorem wit_SagAndKeepsakeStore_7 : ∃ (s : State) (src : Source), 
    (s.mayGo src keepWin = true) ∧
    (0x20000 ≤ (s.chip.winIn src keepWin).index ∧ (s.chip.winIn src keepWin).index < 0x100000) ∧
    (s.chip.get 0 R.SAG_STATUS_stopped = 0) := ⟨st (fun c => c.put keepWin R.WIN_ADDR_index 0x20000), .pf, by decide +kernel⟩

theorem wit_SagAndKeepsakeStore_8 : ∃ (s : State) (src : Source), 
    (s.mayGo src keepWin = true) ∧
    ((s.chip.winIn src keepWin).index < 0x20000 ∨ 0x100000 ≤ (s.chip.winIn src keepWin).index ∨
      s.chip.get 0 R.SAG_STATUS_stopped = 1) := ⟨st (fun c => c.put keepWin R.WIN_ADDR_index 0x1FFFF), .pf, by decide +kernel⟩

theorem wit_SagAndKeepsakeStore_9 : ∃ (s : State) (h w : Nat) (e : Entry) (r : HkRec) (q : List HkRec), 
    (s.runs .aon = true) ∧
    (s.chip.house.queue = r :: q ∧ s.chip.get 0 R.SAG_STATUS_stopped = 0) ∧
    (r = .line h e ∧ w = h / 2) := ⟨st (fun c => { c with house := { c.house with queue := [.line 0x20000 0x1234] } }), 0x20000, 0x10000,
      0x1234, .line 0x20000 0x1234, [], by decide +kernel⟩

theorem wit_SagAndKeepsakeStore_10 : ∃ (s : State) (w : Nat) (r : HkRec) (q : List HkRec), 
    (s.runs .aon = true) ∧
    (s.chip.house.queue = r :: q ∧ s.chip.get 0 R.SAG_STATUS_stopped = 0) ∧
    ((fun r => match r with | .line _ _ => true | _ => false) r = false ∧
      w = (s.nv.store r).2) := ⟨st (fun c => { c with house := { c.house with queue := [.retire 1 9] } }), 0x4000, .retire 1 9, [],
      by decide +kernel⟩

theorem wit_SagAndKeepsakeStore_11 : ∃ (s : State), 
    (s.runs .aon = true) ∧
    (s.chip.house.queue = [] ∨ s.chip.get 0 R.SAG_STATUS_stopped = 1) := ⟨st id, by decide +kernel⟩

theorem wit_EndpointAndInterrupts_1 : ∃ (s : State) (src : Source) (addr size : Nat) (write : Bool), 
    (s.runs .core = true) ∧
    ((match src with | .core _ => false | _ => true) = true) ∧
    (¬(size = 4 ∧ addr % 4 = 0) ∧ ¬(size = 8 ∧ addr % 8 = 0)) := ⟨st id, .pf, 6, 4, false, by decide +kernel⟩

theorem wit_EndpointAndInterrupts_2 : ∃ (s : State) (src : Source) (addr size : Nat) (write : Bool), 
    (s.runs .core = true) ∧
    ((match src with | .core _ => true | _ => false) = true ∨ (size = 4 ∧ addr % 4 = 0) ∨ (size = 8 ∧
      addr % 8 = 0)) := ⟨st id, .pf, 16, 8, false, by decide +kernel⟩

theorem wit_EndpointAndInterrupts_3 : ∃ (s : State) (n addr : Nat) (write : Bool), 
    (s.runs .core = true) ∧
    (1 ≤ n ∧ n ≤ 15) ∧
    (s.chip.allowed (.vf n) addr write = false) := ⟨st id, 15, 0x200, true, by decide +kernel⟩

theorem wit_EndpointAndInterrupts_4 : ∃ (s : State) (n addr : Nat) (write : Bool), 
    (s.runs .core = true) ∧
    (s.chip.allowed (.vf n) addr write = true) := ⟨st id, 3, 0, false, by decide +kernel⟩

theorem wit_EndpointAndInterrupts_5 : ∃ (s : State), 
    (s.runs .core = true) ∧
    (s.chip.power.pcieUp = true) := ⟨st id, by decide +kernel⟩

theorem wit_EndpointAndInterrupts_6 : ∃ (s : State), 
    (s.runs .core = true) ∧
    (s.chip.power.pcieUp = false) := ⟨st (fun c => { c with power := { c.power with pcieUp := false } }), by decide +kernel⟩

theorem wit_EndpointAndInterrupts_7 : ∃ (s : State), 
    (s.runs .core = true) ∧
    (s.chip.power.pcieUp = false ∧ s.chip.power.perstHigh = true) := ⟨st (fun c => { c with power := { c.power with pcieUp := false } }),
      by decide +kernel⟩

theorem wit_EndpointAndInterrupts_8 : ∃ (s : State), 
    (s.runs .core = true) ∧
    (s.chip.power.pcieUp = true ∨ s.chip.power.perstHigh = false) := ⟨st id, by decide +kernel⟩

theorem wit_EndpointAndInterrupts_9 : ∃ (s : State) (n : Nat), 
    (s.runs .core = true) ∧
    (1 ≤ n ∧ n ≤ 15) := ⟨st (fun c => ((c.setLatch 9 { owner := 0xD020, fn := 3 }).setLatch 10 { owner := 0xD020, fn := 4 }).setReg (A.ring
      7 + R.RING_CFG) 0x83000000), 3, by decide +kernel⟩

theorem wit_EndpointAndInterrupts_10 : ∃ (s : State) (n : Nat), 
    (s.runs .core = true) ∧
    (n = 0 ∨ 15 < n) := ⟨st id, 16, by decide +kernel⟩

theorem wit_EndpointAndInterrupts_11 : ∃ (s : State) (g : Nat), 
    (s.runs .aon = true) ∧
    (g < 16 ∧ g ≠ 9 ∧ g ≠ 15) := ⟨st (fun c => (((c.put 0 R.ACCORD_EVENT_committed 1).put 0 R.ACCORD_EVENT_EN_committed 1).put 8
      R.IRQ_ROUTE_pf_en 1).put 8 R.IRQ_ROUTE_core_en 1), 2, by decide +kernel⟩

theorem wit_EndpointAndInterrupts_12 : ∃ (s : State) (g : Nat), 
    (s.runs .aon = true) ∧
    (g = 9) := ⟨st (fun c => ((c.setReg (A.tb 2 + R.TB_EVENT) 1).setReg (A.tb 2 + R.TB_EVENT_EN) 1).put (A.tb 2) R.TB_ACCESS_owner 3), 9,
      by decide +kernel⟩

theorem wit_EndpointAndInterrupts_13 : ∃ (s : State) (g : Nat), 
    (s.runs .aon = true) ∧
    (g = 15) := ⟨st (fun c => (c.put (A.mbox 1) R.MBX_STATUS_done 1).put (A.mbox 1) R.MBX_STATUS_irq_en 1), 15, by decide +kernel⟩

theorem wit_EndpointAndInterrupts_14 : ∃ (s : State) (g : Nat), 
    (s.runs .aon = true) ∧
    (16 ≤ g) := ⟨st (fun c => { c with host := { c.host with irqSeen := 4 } }), 16, by decide +kernel⟩

theorem wit_EndpointAndInterrupts_15 : ∃ (s : State) (src : Source) (data : Word), 
    (s.serves src R.IRQ_REARM true = true) := ⟨st (fun c =>
      { (((c.put 0 R.ACCORD_EVENT_committed 1).put 0 R.ACCORD_EVENT_EN_committed 1).put 8 R.IRQ_ROUTE_pf_en 1).put 8 R.IRQ_ROUTE_core_en 1 with host := { c.host with irqSeen := 4 } }),
      .pf, 0xFFFF, by decide +kernel⟩

theorem wit_EndpointAndInterrupts_16 : ∃ (s : State), 
    (s.chip.power.vddAon = true) ∧
    (s.chip.power.sysRstHigh = true) := ⟨st id, by decide +kernel⟩

theorem wit_EndpointAndInterrupts_17 : ∃ (s : State) (j : Nat), 
    (j < 4) := ⟨st id, 0, by decide +kernel⟩

theorem wit_EndpointAndInterrupts_18 : ∃ (s : State), 
    (s.chip.power.vddAon = false ∨ s.chip.power.sysRstHigh = false) :=
      ⟨st (fun c => { c with power := { c.power with sysRstHigh := false } }), by decide +kernel⟩

theorem wit_EndpointAndInterrupts_19 : ∃ (s : State) (j : Nat), 
    (4 ≤ j) := ⟨st id, 4, by decide +kernel⟩

theorem wit_EndpointAndInterrupts_20 : ∃ (s : State) (j : Nat), 
    (4 ≤ j) := ⟨st id, 4, by decide +kernel⟩

theorem wit_EndpointAndInterrupts_21 : ∃ (s : State) (j : Nat), 
    (j < 4) := ⟨st id, 1, by decide +kernel⟩

theorem wit_EndpointAndInterrupts_22 : ∃ (s : State), 
    (s.chip.ready .core = true) := ⟨st (fun c => (c.setLatch 9 { owner := 0xD020, fn := 3 }).setReg (A.ring 7 + R.RING_CFG) 0x83000000),
      by decide +kernel⟩

theorem wit_EndpointAndInterrupts_23 : ∃ (s : State), 
    (s.chip.ready .core = false) := ⟨st (fun c => { c with power := { c.power with sysPll := false } }), by decide +kernel⟩

theorem wit_EndpointAndInterrupts_25 : ∃ (s : State) (pin : Nat) (level : Bool), 
    (s.runs .core = true) ∧
    (pin < 32) ∧
    (s.chip.host.gpioDir.getLsbD pin = false) ∧
    (s.chip.host.gpioLevel.getLsbD pin ≠ level) := ⟨st id, 3, true, by decide +kernel⟩

theorem wit_EndpointAndInterrupts_26 : ∃ (s : State) (pin : Nat) (level : Bool), 
    (s.runs .core = true) ∧
    (32 ≤ pin ∨ s.chip.host.gpioDir.getLsbD pin = true ∨ s.chip.host.gpioLevel.getLsbD pin = level) := ⟨st id, 3, false, by decide +kernel⟩

theorem wit_RingsTurn_1 : ∃ (s : State) (src : Source) (r : Nat), 
    (s.serves src (A.ring r + R.RING_CFG) true = true) ∧
    (r < 4096) ∧
    (s.chip.get (A.ring r) R.RING_CFG_enable = 0) := ⟨st (fun c => c.put (A.ring 7) R.RING_STATUS_halted 1), .pf, 7, by decide +kernel⟩

theorem wit_RingsTurn_2 : ∃ (s : State) (src : Source) (r : Nat), 
    (s.serves src (A.ring r + R.RING_CFG) true = true) ∧
    (r < 4096) ∧
    (s.chip.get (A.ring r) R.RING_CFG_enable = 1) ∧
    ((s.chip.ring r).desc = none) := ⟨st (fun c => c.put (A.ring 7) R.RING_CFG_enable 1), .pf, 7, by decide +kernel⟩

theorem wit_RingsTurn_3 : ∃ (s : State) (src : Source) (r : Nat) (d : Descriptor), 
    (s.serves src (A.ring r + R.RING_CFG) true = true) ∧
    (r < 4096) ∧
    (s.chip.get (A.ring r) R.RING_CFG_enable = 1 ∧ s.chip.get (A.ring r) R.RING_CFG_kind ≠ 2) ∧
    ((s.chip.ring r).desc = some d) := ⟨st (fun c => ((c.put (A.ring 7) R.RING_CFG_enable 1).put (A.ring 7) R.RING_CFG_kind 1).setRing 7
      { desc := some 5 }), .pf, 7, 5, by decide +kernel⟩

theorem wit_RingsTurn_4 : ∃ (s : State) (src : Source) (r : Nat) (enable : Bool), 
    (s.serves src (A.ring r + R.RING_CFG) true = true) ∧
    (4096 ≤ r ∨ s.chip.get (A.ring r) R.RING_CFG_enable = (if enable then 1 else 0)) := ⟨st id, .pf, 7, false, by decide +kernel⟩

theorem wit_RingsTurn_5 : ∃ (s : State) (src : Source) (r pi : Nat), 
    (s.serves src (A.ring r + R.RING_PI) true = true) ∧
    (r < 4096) ∧
    (pi < 2 ^ 17 ∧ s.chip.get (A.ring r) R.RING_CFG_kind ≠ 2) := ⟨st id, .pf, 7, 131071, by decide +kernel⟩

theorem wit_RingsTurn_6 : ∃ (s : State) (src : Source) (r pi : Nat), 
    (s.serves src (A.ring r + R.RING_PI) true = true) ∧
    (4096 ≤ r ∨ s.chip.get (A.ring r) R.RING_CFG_kind = 2) := ⟨st (fun c => c.put (A.ring 7) R.RING_CFG_kind 2), .pf, 7, 3,
      by decide +kernel⟩

theorem wit_RingsTurn_7 : ∃ (s : State) (src : Source) (r ci : Nat), 
    (s.serves src (A.ring r + R.RING_CI) true = true) ∧
    (r < 4096) ∧
    (ci < 2 ^ 17 ∧ s.chip.get (A.ring r) R.RING_CFG_kind = 2) := ⟨st (fun c => c.put (A.ring 7) R.RING_CFG_kind 2), .pf, 7, 131071,
      by decide +kernel⟩

theorem wit_RingsTurn_8 : ∃ (s : State) (src : Source) (r ci : Nat), 
    (s.serves src (A.ring r + R.RING_CI) true = true) ∧
    (4096 ≤ r ∨ s.chip.get (A.ring r) R.RING_CFG_kind ≠ 2) := ⟨st id, .pf, 7, 3, by decide +kernel⟩

theorem wit_RingsTurn_9 : ∃ (s : State) (r : Nat), 
    (s.runs .core = true) ∧
    (r < 4096) ∧
    (((s.chip.ring r).unsignalled ≠ 0 ∧ s.chip.get (A.ring r) R.RING_IRQ_mod_us ≠ 0 ∧
      s.chip.passedUs (s.chip.ring r).since (s.chip.get (A.ring r) R.RING_IRQ_mod_us) = true)) :=
      ⟨st (fun c => { (((c.put (A.ring 7) R.RING_IRQ_mod_us 2).put (A.ring 7) R.RING_IRQ_enable 1).setRing 7 { unsignalled := 1, since := 5 }) with now := 2005 }),
      7, by decide +kernel⟩

theorem wit_RingsTurn_10 : ∃ (s : State) (r : Nat), 
    (s.runs .core = true) ∧
    (4096 ≤ r ∨ ¬ ((s.chip.ring r).unsignalled ≠ 0 ∧ s.chip.get (A.ring r) R.RING_IRQ_mod_us ≠ 0 ∧
      s.chip.passedUs (s.chip.ring r).since (s.chip.get (A.ring r) R.RING_IRQ_mod_us) = true)) := ⟨st id, 7, by decide +kernel⟩

theorem wit_RingsTurn_11 : ∃ (s : State) (r : Nat) (d : Descriptor), 
    (s.runs .core = true) ∧
    (r < 4096) ∧
    ((s.chip.ringOn r 1 = true ∧ s.chip.ringHalted r = false ∧ s.chip.hostUp = true ∧ (s.chip.ringUsed r) ≠ 0 ∧
      (s.chip.ring r).desc = none ∧ s.chip.inReset 0xD028 = false)) ∧
    (Inj.own d = true) ∧
    (¬ (Inj.len d < 60 ∨ 10236 < Inj.len d) ∧ ¬ ((s.chip.macOf r = none) ∧ (s.chip.noPort (Inj.port d) = true ∨
      s.chip.portAllowed r (Inj.port d) = false)) ∧ Inj.reserved d = false) :=
      ⟨st (fun c => ((c.put (A.ring 5) R.RING_CFG_enable 1).put (A.ring 5) R.RING_CFG_kind 1).put (A.ring 5) R.RING_PI_pi 1), 5,
      BitVec.ofNat 256 (2 ^ 127 + 86 * 2 ^ 64), by decide +kernel⟩

theorem wit_RingsTurn_12 : ∃ (s : State) (r n : Nat) (d : Descriptor), 
    (s.runs .core = true) ∧
    (r < 4096) ∧
    ((s.chip.ringOn r 1 = true ∧ s.chip.ringHalted r = false ∧ s.chip.hostUp = true ∧ (s.chip.ringUsed r) ≠ 0 ∧
      (s.chip.ring r).desc = none ∧ s.chip.inReset 0xD028 = false)) ∧
    (Inj.own d = true) ∧
    ((n = 1 ∧ (Inj.len d < 60 ∨ 10236 < Inj.len d)) ∨ (n = 2 ∧ ¬ (Inj.len d < 60 ∨ 10236 < Inj.len d) ∧ ((s.chip.macOf r = none) ∧
      (s.chip.noPort (Inj.port d) = true ∨ s.chip.portAllowed r (Inj.port d) = false))) ∨ (n = 6 ∧ ¬ (Inj.len d < 60 ∨ 10236 < Inj.len d) ∧
      ¬ ((s.chip.macOf r = none) ∧ (s.chip.noPort (Inj.port d) = true ∨ s.chip.portAllowed r (Inj.port d) = false)) ∧
      Inj.reserved d = true)) := ⟨st (fun c => ((c.put (A.ring 5) R.RING_CFG_enable 1).put (A.ring 5) R.RING_CFG_kind 1).put (A.ring 5)
      R.RING_PI_pi 1), 5, 1, BitVec.ofNat 256 (2 ^ 127 + 59 * 2 ^ 64), by decide +kernel⟩

theorem wit_RingsTurn_13 : ∃ (s : State) (r : Nat), 
    (s.runs .core = true) ∧
    (r < 4096) ∧
    ((s.chip.ringOn r 1 = true ∧ s.chip.ringHalted r = false ∧ s.chip.hostUp = true ∧ (s.chip.ringUsed r) ≠ 0 ∧
      (s.chip.ring r).desc = none ∧ s.chip.inReset 0xD028 = false)) :=
      ⟨st (fun c => ((c.put (A.ring 5) R.RING_CFG_enable 1).put (A.ring 5) R.RING_CFG_kind 1).put (A.ring 5) R.RING_PI_pi 1), 5,
      by decide +kernel⟩

theorem wit_RingsTurn_14 : ∃ (s : State) (r : Nat) (d : Option Descriptor), 
    (s.runs .core = true) ∧
    (4096 ≤ r ∨ ¬ (s.chip.ringOn r 1 = true ∧ s.chip.ringHalted r = false ∧ s.chip.hostUp = true ∧ (s.chip.ringUsed r) ≠ 0 ∧
      (s.chip.ring r).desc = none ∧ s.chip.inReset 0xD028 = false) ∨
      d.any (fun x => !(Inj.own x)) = true) := ⟨st (fun c => ((c.put (A.ring 5) R.RING_CFG_enable 1).put (A.ring 5) R.RING_CFG_kind 1).put
      (A.ring 5) R.RING_PI_pi 1), 5, some 0, by decide +kernel⟩

theorem wit_RingsTurn_15 : ∃ (s : State) (r : Nat) (d : Descriptor) (bs : List Byte), 
    (s.runs .core = true) ∧
    (r < 4096) ∧
    ((s.chip.ring r).desc = some d ∧ (s.chip.ring r).read = none ∧ s.chip.inReset 0xD028 = false) ∧
    (bs.length = Inj.len d ∧ (s.chip.macOf r = none)) ∧
    (s.chip.get (A.ring r) R.RING_CFG_kind ≠ 2 ∧ Inj.port d < 128 ∧ s.chip.alive (U.slice (Inj.port d / 16)) = true) ∧
    (Inj.mode d = true ∧ s.chip.isbOver (Inj.port d / 16) (bs.length + 4) = false) :=
      ⟨st (fun c => { c with nextId := 10 }.setRing 5 { desc := some (BitVec.ofNat 256 (2 ^ 127 + 2 ^ 95 + 60 * 2 ^ 64)) }), 5,
      BitVec.ofNat 256 (2 ^ 127 + 2 ^ 95 + 60 * 2 ^ 64), List.replicate 60 1, by decide +kernel⟩

theorem wit_RingsTurn_16 : ∃ (s : State) (r : Nat) (d : Descriptor) (bs : List Byte), 
    (s.runs .core = true) ∧
    (r < 4096) ∧
    ((s.chip.ring r).desc = some d ∧ (s.chip.ring r).read = none ∧ s.chip.inReset 0xD028 = false) ∧
    (bs.length = Inj.len d ∧ (s.chip.macOf r = none)) ∧
    (s.chip.get (A.ring r) R.RING_CFG_kind ≠ 2 ∧ Inj.port d < 128 ∧ s.chip.alive (U.slice (Inj.port d / 16)) = true) ∧
    (Inj.mode d = false ∧ s.chip.isbOver (Inj.port d / 16) (bs.length + 4) = false ∧
      s.chip.reqOf ((Inj.port d / 16) / 4) 0xD028 = none) := ⟨st (fun c => { c with nextId := 10 }.setRing 5
      { desc := some (BitVec.ofNat 256 (2 ^ 127 + 3 * 2 ^ 117 + 2 * 2 ^ 106 + 60 * 2 ^ 64)) }), 5,
      BitVec.ofNat 256 (2 ^ 127 + 3 * 2 ^ 117 + 2 * 2 ^ 106 + 60 * 2 ^ 64), List.replicate 60 1, by decide +kernel⟩

theorem wit_RingsTurn_17 : ∃ (s : State) (r i : Nat) (d : Descriptor) (bs : List Byte), 
    (s.runs .core = true) ∧
    (r < 4096) ∧
    ((s.chip.ring r).desc = some d ∧ (s.chip.ring r).read = none ∧ s.chip.inReset 0xD028 = false) ∧
    (bs.length = Inj.len d ∧ (s.chip.macOf r = none)) ∧
    (s.chip.get (A.ring r) R.RING_CFG_kind ≠ 2 ∧ Inj.port d < 128 ∧ s.chip.alive (U.slice (Inj.port d / 16)) = true) ∧
    (Inj.mode d = false ∧ s.chip.reqOf ((Inj.port d / 16) / 4) 0xD028 = some i) :=
      ⟨innk (fun c => { (c.put (A.half 0 + 0x20) R.INNK_REQ_ID_present 1).put (A.half 0 + 0x20) R.INNK_REQ_ID_unit_id 0xD028 |>.put (A.half 0 + 0x20) R.INNK_REQ_MIN_min_cells 100 |>.put (A.half 0 + 0x20) R.INNK_REQ_QUOTA_quota_cells 1000 with nextId := 20 }.setRing
      5 { desc := some (BitVec.ofNat 256 (2 ^ 127 + 3 * 2 ^ 117 + 2 * 2 ^ 106 + 60 * 2 ^ 64)) }), 5, 2,
      BitVec.ofNat 256 (2 ^ 127 + 3 * 2 ^ 117 + 2 * 2 ^ 106 + 60 * 2 ^ 64), List.replicate 60 1, by decide +kernel⟩

theorem wit_RingsTurn_18 : ∃ (s : State) (r : Nat) (d : Descriptor) (bs : List Byte), 
    (s.runs .core = true) ∧
    (r < 4096) ∧
    ((s.chip.ring r).desc = some d ∧ (s.chip.ring r).read = none ∧ s.chip.inReset 0xD028 = false) ∧
    (bs.length = Inj.len d ∧ (s.chip.macOf r = none)) ∧
    (s.chip.get (A.ring r) R.RING_CFG_kind ≠ 2 ∧ Inj.port d < 128 ∧ s.chip.alive (U.slice (Inj.port d / 16)) = true) ∧
    (s.chip.isbOver (Inj.port d / 16) (bs.length + 4) = true) ∧
    (Inj.mode d = true ∨ s.chip.reqOf ((Inj.port d / 16) / 4) 0xD028 = none) :=
      ⟨st (fun c => { c with frames := (List.range 256).map fun i => (i, some { bytes := List.replicate 1024 0 }) }.setRing 5
      { desc := some (BitVec.ofNat 256 (2 ^ 127 + 2 ^ 95 + 60 * 2 ^ 64)) }), 5, BitVec.ofNat 256 (2 ^ 127 + 2 ^ 95 + 60 * 2 ^ 64),
      List.replicate 60 1, by decide +kernel⟩

theorem wit_RingsTurn_19 : ∃ (s : State) (r : Nat) (d : Descriptor) (bs : List Byte), 
    (s.runs .core = true) ∧
    (r < 4096) ∧
    ((s.chip.ring r).desc = some d ∧ (s.chip.ring r).read = none ∧ s.chip.inReset 0xD028 = false) ∧
    (bs.length = Inj.len d ∧ (s.chip.macOf r = none)) ∧
    (s.chip.get (A.ring r) R.RING_CFG_kind ≠ 2 ∧ s.chip.alive (U.slice (Inj.port d / 16)) = false) :=
      ⟨st (fun c => { c with rst := { c.rst with held := [U.slice 0] } }.setRing 5
      { desc := some (BitVec.ofNat 256 (2 ^ 127 + 2 ^ 95 + 60 * 2 ^ 64)) }), 5, BitVec.ofNat 256 (2 ^ 127 + 2 ^ 95 + 60 * 2 ^ 64),
      List.replicate 60 1, by decide +kernel⟩

theorem wit_RingsTurn_20 : ∃ (s : State) (r : Nat) (d : Descriptor) (bs : Option (List Byte)), 
    (s.runs .core = true) ∧
    (r < 4096) ∧
    ((s.chip.ring r).desc = some d ∧ (s.chip.ring r).read = none ∧ s.chip.inReset 0xD028 = false) ∧
    (s.chip.get (A.ring r) R.RING_CFG_kind ≠ 2 ∧ bs.all (fun l => l.length != Inj.len d) = true) :=
      ⟨st (fun c => c.setRing 5 { desc := some (BitVec.ofNat 256 (2 ^ 127 + 2 ^ 95 + 60 * 2 ^ 64)) }), 5,
      BitVec.ofNat 256 (2 ^ 127 + 2 ^ 95 + 60 * 2 ^ 64), none, by decide +kernel⟩

theorem wit_RingsTurn_21 : ∃ (s : State) (r mac : Nat) (d : Descriptor) (bs : List Byte), 
    (s.runs .core = true) ∧
    (r < 4096) ∧
    ((s.chip.ring r).desc = some d ∧ (s.chip.ring r).read = none ∧ s.chip.inReset 0xD028 = false) ∧
    (bs.length = Inj.len d ∧ s.chip.macOf r = some mac) := ⟨st (fun c => ((c.put (A.mgmt 1) R.MGMT_CTRL_enable 1).put (A.mgmt 1)
      R.MGMT_CTRL_tx_ring 5).setRing 5 { desc := some (BitVec.ofNat 256 (2 ^ 127 + 2 ^ 95 + 60 * 2 ^ 64)) }), 5, 1,
      BitVec.ofNat 256 (2 ^ 127 + 2 ^ 95 + 60 * 2 ^ 64), List.replicate 60 1, by decide +kernel⟩

theorem wit_RingsTurn_22 : ∃ (s : State) (r : Nat) (bs : Option (List Byte)), 
    (s.runs .core = true) ∧
    (4096 ≤ r ∨ (s.chip.ring r).desc = none ∨ (s.chip.ring r).read ≠ none ∨
      s.chip.inReset 0xD028 = true) := ⟨st id, 5, none, by decide +kernel⟩

theorem wit_PuntsAndEventRecords_1 : ∃ (s : State) (q r cause : Nat) (p : Punt) (l : List Punt) (descs : List Descriptor) (f : Frame), 
    (s.runs .core = true) ∧
    (s.chip.host.punts.look q = p :: l ∧ s.chip.frames.look p.frame = some f ∧ f.whole = true ∧ f.stage = .judged ∧
      s.chip.inReset 0xD028 = false ∧ p.ring % 4096 = r) ∧
    ((cause = 1 ∧ s.chip.ringOn r 0 = false) ∨
      (cause = 2 ∧ s.chip.ringOn r 0 = true ∧ s.chip.ringHalted r = true) ∨
      (cause = 3 ∧ s.chip.ringOn r 0 = true ∧ s.chip.ringHalted r = false ∧ s.chip.hostUp = false) ∨
      (cause = 4 ∧ (s.chip.ringOn r 0 = true ∧ s.chip.ringHalted r = false ∧ s.chip.hostUp = true) ∧ ((s.chip.ringUsed r) = 0 ∨
        ((s.chip.ringUsed r) ≤ descs.length ∧ ((Chip.puntRoom (descs.take (s.chip.ringUsed r)) < ((toLE 64 f.wb.toNat ++ (if p.trunc =
        0 then f.bytes else f.bytes.take (256 * p.trunc)))).length) ∨
        ((descs.take (s.chip.ringUsed r))).any (fun d => !(bit d 127)) = true)))) ∨ (cause = 5 ∧ (s.chip.ringOn r 0 = true ∧
        s.chip.ringHalted r = false ∧ s.chip.hostUp = true) ∧ ¬ ((s.chip.ringUsed r) = 0 ∨ ((s.chip.ringUsed r) ≤ descs.length ∧
        ((Chip.puntRoom (descs.take (s.chip.ringUsed r)) < ((toLE 64 f.wb.toNat ++ (if p.trunc =
        0 then f.bytes else f.bytes.take (256 * p.trunc)))).length) ∨
        ((descs.take (s.chip.ringUsed r))).any (fun d => !(bit d 127)) = true))) ∧ (s.chip.get (A.ring r) R.RING_RATE_rate ≠ 0 ∧
        s.chip.puntBucket r < ((f.bytes.length * 80000 : Nat) : Int)))) :=
        ⟨st (fun c => { ((((c.put (A.ring 5) R.RING_CFG_enable 1).put (A.ring 5) R.RING_PI_pi 2).setReg (Chip.inflightReg 0) 3)) with frames := [(9, some { looking .judged 0 [] with slot := some 0 })], host := { c.host with punts := [(0, [{ frame := 9, ring := 5, source := 1, reason := 2 }])] } }),
        0, 5, 4, { frame := 9, ring := 5, source := 1, reason := 2 }, [], [BitVec.ofNat 256 (2 ^ 127 + 256 * 2 ^ 64), 0],
        { looking .judged 0 [] with slot := some 0 }, by decide +kernel⟩

theorem wit_PuntsAndEventRecords_2 : ∃ (s : State) (q r cause : Nat) (p : Punt) (l : List Punt) (descs : List Descriptor) (f : Frame), 
    (s.runs .core = true) ∧
    (s.chip.host.punts.look q = p :: l ∧ s.chip.frames.look p.frame = some f ∧ f.whole = true ∧ f.stage = .judged ∧
      s.chip.inReset 0xD028 = false ∧ p.ring % 4096 = r) ∧
    (cause = 2 ∧ (s.chip.ringOn r 0 = true ∧ s.chip.ringHalted r = false ∧ s.chip.hostUp = true) ∧ ¬ ((s.chip.ringUsed r) = 0 ∨
      ((s.chip.ringUsed r) ≤ descs.length ∧ ((Chip.puntRoom (descs.take (s.chip.ringUsed r)) < ((toLE 64 f.wb.toNat ++ (if p.trunc =
      0 then f.bytes else f.bytes.take (256 * p.trunc)))).length) ∨
      ((descs.take (s.chip.ringUsed r))).any (fun d => !(bit d 127)) = true))) ∧ ¬ (s.chip.get (A.ring r) R.RING_RATE_rate ≠ 0 ∧
      s.chip.puntBucket r < ((f.bytes.length * 80000 : Nat) : Int)) ∧
      ((Chip.puntRoom (descs.take (s.chip.ringUsed r)) < ((toLE 64 f.wb.toNat ++ (if p.trunc =
      0 then f.bytes else f.bytes.take (256 * p.trunc)))).length) ∨
      ((descs.take (s.chip.ringUsed r))).any (fun d => !(bit d 127)) = true)) :=
      ⟨st (fun c => { ((((c.put (A.ring 5) R.RING_CFG_enable 1).put (A.ring 5) R.RING_PI_pi 2).setReg (Chip.inflightReg 0) 3)) with frames := [(9, some { looking .judged 0 [] with slot := some 0 })], host := { c.host with punts := [(0, [{ frame := 9, ring := 5, source := 1, reason := 2 }])] } }),
      0, 5, 2, { frame := 9, ring := 5, source := 1, reason := 2 }, [], [], { looking .judged 0 [] with slot := some 0 }, by decide +kernel⟩

theorem wit_PuntsAndEventRecords_3 : ∃ (s : State) (q r : Nat) (p : Punt) (l : List Punt) (d : Descriptor) (f : Frame), 
    (s.runs .core = true) ∧
    (s.chip.host.punts.look q = p :: l ∧ s.chip.frames.look p.frame = some f ∧ f.whole = true ∧ f.stage = .judged ∧
      s.chip.inReset 0xD028 = false ∧ p.ring % 4096 = r) ∧
    ((s.chip.ringOn r 0 = true ∧ s.chip.ringHalted r = false ∧ s.chip.hostUp = true) ∧ (s.chip.ringUsed r) ≠ 0 ∧
      ¬ (s.chip.get (A.ring r) R.RING_RATE_rate ≠ 0 ∧ s.chip.puntBucket r < ((f.bytes.length * 80000 : Nat) : Int))) ∧
    (Chip.puntDesc d = 0 ∧ bit d 127 = true ∧ ((toLE 64 f.wb.toNat ++ (if p.trunc =
      0 then f.bytes else f.bytes.take (256 * p.trunc)))).length ≤ bits d 79 64) :=
      ⟨st (fun c => { ((((c.put (A.ring 5) R.RING_CFG_enable 1).put (A.ring 5) R.RING_PI_pi 2).setReg (Chip.inflightReg 0) 3)) with frames := [(9, some { looking .judged 0 [] with slot := some 0 })], host := { c.host with punts := [(0, [{ frame := 9, ring := 5, source := 1, reason := 2 }])] } }),
      0, 5, { frame := 9, ring := 5, source := 1, reason := 2 }, [], BitVec.ofNat 256 (2 ^ 127 + 256 * 2 ^ 64 + 0x1000),
      { looking .judged 0 [] with slot := some 0 }, by decide +kernel⟩

theorem wit_PuntsAndEventRecords_4 : ∃ (s : State) (q r n : Nat) (p : Punt) (l : List Punt) (d e : Descriptor) (f : Frame), 
    (s.runs .core = true) ∧
    (s.chip.host.punts.look q = p :: l ∧ s.chip.frames.look p.frame = some f ∧ f.whole = true ∧ f.stage = .judged ∧
      s.chip.inReset 0xD028 = false ∧ p.ring % 4096 = r) ∧
    ((s.chip.get (A.ring r) R.RING_WB_LO_wb = 0 ∧ s.chip.get (A.ring r) R.RING_WB_HI_wb = 0) ∧ s.chip.get (A.ring r) R.RING_IRQ_mod_us ≠ 0 ∧
      s.chip.get (A.ring r) R.RING_IRQ_mod_count = 0) ∧
    ((s.chip.ringOn r 0 = true ∧ s.chip.ringHalted r = false ∧ s.chip.hostUp = true) ∧ 2 ≤ (s.chip.ringUsed r) ∧
      ¬ (s.chip.get (A.ring r) R.RING_RATE_rate ≠ 0 ∧ s.chip.puntBucket r < ((f.bytes.length * 80000 : Nat) : Int))) ∧
    (Chip.puntDesc d = 0 ∧ Chip.puntDesc e = 0 ∧ bit d 127 = true ∧ bit e 127 = true) ∧
    (n = bits d 79 64 ∧ n < ((toLE 64 f.wb.toNat ++ (if p.trunc = 0 then f.bytes else f.bytes.take (256 * p.trunc)))).length ∧
      ((toLE 64 f.wb.toNat ++ (if p.trunc = 0 then f.bytes else f.bytes.take (256 * p.trunc)))).length ≤ n + bits e 79 64) :=
      ⟨st (fun c => { (c.put (A.ring 5) R.RING_CFG_enable 1).put (A.ring 5) R.RING_PI_pi 2 |>.put (A.ring 5) R.RING_IRQ_mod_us 1 with frames := [(9, some { looking .judged 0 [] with slot := none, bytes := List.replicate 300 7 })], host := { c.host with punts := [(0, [{ frame := 9, ring := 5, source := 1, reason := 2 }])] } }),
      0, 5, 256, { frame := 9, ring := 5, source := 1, reason := 2 }, [], BitVec.ofNat 256 (2 ^ 127 + 256 * 2 ^ 64 + 0x1000),
      BitVec.ofNat 256 (2 ^ 127 + 256 * 2 ^ 64 + 0x2000), { looking .judged 0 [] with slot := none, bytes := List.replicate 300 7 },
      by decide +kernel⟩

theorem wit_PuntsAndEventRecords_5 : ∃ (s : State) (q r : Nat) (p : Punt) (l : List Punt) (d e : Descriptor) (f : Frame), 
    (s.runs .core = true) ∧
    (s.chip.host.punts.look q = p :: l ∧ s.chip.frames.look p.frame = some f ∧ f.whole = true ∧ f.stage = .judged ∧
      s.chip.inReset 0xD028 = false ∧ p.ring % 4096 = r) ∧
    ((s.chip.get (A.ring r) R.RING_WB_LO_wb = 0 ∧ s.chip.get (A.ring r) R.RING_WB_HI_wb = 0) ∧ s.chip.get (A.ring r) R.RING_IRQ_mod_us ≠ 0 ∧
      s.chip.get (A.ring r) R.RING_IRQ_mod_count = 0) ∧
    ((s.chip.ringOn r 0 = true ∧ s.chip.ringHalted r = false ∧ s.chip.hostUp = true) ∧ 2 ≤ (s.chip.ringUsed r) ∧
      ¬ (s.chip.get (A.ring r) R.RING_RATE_rate ≠ 0 ∧ s.chip.puntBucket r < ((f.bytes.length * 80000 : Nat) : Int))) ∧
    (Chip.puntDesc d ≠ 0 ∧ Chip.puntDesc e = 0 ∧ bit d 127 = true ∧ bit e 127 = true) ∧
    (((toLE 64 f.wb.toNat ++ (if p.trunc = 0 then f.bytes else f.bytes.take (256 * p.trunc)))).length ≤ bits e 79 64) :=
      ⟨st (fun c => ({ ((((c.put (A.ring 5) R.RING_CFG_enable 1).put (A.ring 5) R.RING_PI_pi 2).setReg (Chip.inflightReg 0) 3)) with frames := [(9, some { looking .judged 0 [] with slot := some 0 })], host := { c.host with punts := [(0, [{ frame := 9, ring := 5, source := 1, reason := 2 }])] } }).put
      (A.ring 5) R.RING_IRQ_mod_us 1), 0, 5, { frame := 9, ring := 5, source := 1, reason := 2 }, [],
      BitVec.ofNat 256 (2 ^ 127 + 100 * 2 ^ 64), BitVec.ofNat 256 (2 ^ 127 + 256 * 2 ^ 64 + 0x2000),
      { looking .judged 0 [] with slot := some 0 }, by decide +kernel⟩

theorem wit_PuntsAndEventRecords_6 : ∃ (s : State) (q : Nat) (descs : List Descriptor), 
    (s.runs .core = true) ∧
    (s.chip.inReset 0xD028 = true ∨ (s.chip.host.punts.look q).head?.all (fun p => !(s.chip.fr p.frame).whole) = true) := ⟨st id, 0, [],
      by decide +kernel⟩

theorem wit_PuntsAndEventRecords_7 : ∃ (s : State) (f r ecc : Nat) (e : Entry) (l : List Entry), 
    (s.runs .core = true) ∧
    (r < 4096) ∧
    (s.chip.eventRing f = r ∧ s.chip.eventRoom r = true) ∧
    (f < 25 ∧ (s.chip.fifos.look f).draining = e :: l ∧ (s.chip.fifos.look f).hurt = []) ∧
    (ecc < 2) := ⟨st (fun c =>
      { ((c.put (A.ring 5) R.RING_CFG_enable 1).put (A.ring 5) R.RING_CFG_kind 2).put (A.slice 0) R.LEARN_CTRL_learn_ring 5 with fifos := [(0, { draining := [77] })] }),
      0, 5, 1, 77, [], by decide +kernel⟩

theorem wit_PuntsAndEventRecords_8 : ∃ (s : State) (f r : Nat) (e : Entry) (l : List Entry), 
    (s.runs .core = true) ∧
    (r < 4096) ∧
    (s.chip.eventRing f = r ∧ s.chip.eventRoom r = true) ∧
    (f < 25 ∧ (s.chip.fifos.look f).draining = e :: l ∧ (s.chip.fifos.look f).hurt = []) :=
      ⟨st (fun c => { ((c.put (A.ring 5) R.RING_CFG_enable 1).put (A.ring 5) R.RING_CFG_kind 2).put (A.slice 0) R.LEARN_CTRL_learn_ring 5 with fifos := [(0, { draining := [77] })] }),
      0, 5, 77, [], by decide +kernel⟩

theorem wit_PuntsAndEventRecords_9 : ∃ (s : State) (f r ecc : Nat) (e : Entry) (l : List Entry), 
    (s.runs .core = true) ∧
    (r < 4096) ∧
    (s.chip.eventRing f = r ∧ s.chip.eventRoom r = true) ∧
    (f = 25 ∧ s.chip.sweep.buffer = e :: l) ∧
    (l ≠ [] ∨ s.chip.sweep.running = none) := ⟨st (fun c =>
      { ((c.put (A.ring 5) R.RING_CFG_enable 1).put (A.ring 5) R.RING_CFG_kind 2).put 0 R.SWEEP_RING_ring 5 with sweep := { buffer := [77], running := none } }),
      25, 5, 0, 77, [], by decide +kernel⟩

theorem wit_PuntsAndEventRecords_10 : ∃ (s : State) (f ecc : Nat), 
    (s.runs .core = true) ∧
    (25 < f ∨ s.chip.eventRoom (s.chip.eventRing f) = false ∨ (f < 25 ∧ (s.chip.fifos.look f).draining = []) ∨ (f = 25 ∧
      (s.chip.sweep.buffer = [] ∨ (s.chip.sweep.buffer.length = 1 ∧ s.chip.sweep.running ≠ none)))) := ⟨st id, 0, 0, by decide +kernel⟩

theorem wit_CoresAndManagementMacs_1 : ∃ (s : State) (src : Source) (core : Nat), 
    (s.serves src R.CC_CTRL true = true) ∧
    (core < 4 ∧ s.chip.get 0 R.CC_STATUS_fw_state = 2) ∧
    (s.chip.coreRuns core = false ∧ s.chip.inReset (0xD010 + core) = false) := ⟨st (fun c => c.put 0 R.CC_STATUS_fw_state 2), .pf, 2,
      by decide +kernel⟩

theorem wit_CoresAndManagementMacs_2 : ∃ (s : State) (src : Source) (core : Nat), 
    (s.serves src R.CC_CTRL true = true) ∧
    (core < 4 ∧ s.chip.get 0 R.CC_STATUS_fw_state = 2) ∧
    (s.chip.coreRuns core = true ∨ s.chip.inReset (0xD010 + core) = true) :=
      ⟨st (fun c => (c.put 0 R.CC_STATUS_fw_state 2).put 0 R.CC_STATUS_running 15), .pf, 2, by decide +kernel⟩

theorem wit_CoresAndManagementMacs_3 : ∃ (s : State) (src : Source) (core : Nat), 
    (s.serves src R.CC_CTRL true = true) ∧
    (core < 4 ∧ s.chip.get 0 R.CC_STATUS_fw_state = 2) ∧
    (s.chip.coreRuns core = true) := ⟨st (fun c => ((c.put 0 R.CC_STATUS_fw_state 2).put 0 R.CC_STATUS_running 15).setLatch 9
      { owner := 0xD012, fn := 16 }), .pf, 2, by decide +kernel⟩

theorem wit_CoresAndManagementMacs_4 : ∃ (s : State) (src : Source) (core : Nat), 
    (s.serves src R.CC_CTRL true = true) ∧
    (core < 4 ∧ s.chip.get 0 R.CC_STATUS_fw_state = 2) ∧
    (s.chip.coreRuns core = false) := ⟨st (fun c => (c.put 0 R.CC_STATUS_fw_state 2).put 0 R.CC_CTRL_release 15), .pf, 2, by decide +kernel⟩

theorem wit_CoresAndManagementMacs_5 : ∃ (s : State) (src : Source) (core : Nat), 
    (s.serves src R.CC_CTRL true = true) ∧
    (4 ≤ core ∨ s.chip.get 0 R.CC_STATUS_fw_state ≠ 2) := ⟨st id, .pf, 2, by decide +kernel⟩

theorem wit_CoresAndManagementMacs_6 : ∃ (s : State) (src : Source) (core : Nat), 
    (s.serves src R.CC_CTRL true = true) ∧
    (4 ≤ core ∨ s.chip.get 0 R.CC_STATUS_fw_state ≠ 2) := ⟨st id, .pf, 2, by decide +kernel⟩

theorem wit_CoresAndManagementMacs_7 : ∃ (s : State) (core addr : Nat) (write : Bool), 
    (s.runs .core = true) ∧
    (core < 4) ∧
    (¬ (addr < 0x80000000 ∨ (0x000100000000 ≤ addr ∧ addr < 0x000120000000) ∨ (0x000200000000 ≤ addr ∧ addr < 0x000202000000) ∨
      (0x010000000000 ≤ addr ∧ addr < 0x020000000000)) ∨ (write = true ∧ 0x000200000000 ≤ addr ∧ addr < 0x000202000000 ∧
      (addr < 0x000200400000 ∨ s.chip.get 0 R.SAG_STATUS_stopped = 1))) := ⟨st id, 1, 0x2003FFFFF, true, by decide +kernel⟩

theorem wit_CoresAndManagementMacs_8 : ∃ (s : State) (core addr : Nat) (write : Bool), 
    (s.runs .core = true) ∧
    (4 ≤ core ∨ ((addr < 0x80000000 ∨ (0x000100000000 ≤ addr ∧ addr < 0x000120000000) ∨ (0x000200000000 ≤ addr ∧ addr < 0x000202000000) ∨
      (0x010000000000 ≤ addr ∧ addr < 0x020000000000)) ∧ ¬ (write = true ∧ 0x000200000000 ≤ addr ∧ addr < 0x000202000000 ∧
      (addr < 0x000200400000 ∨ s.chip.get 0 R.SAG_STATUS_stopped = 1)))) := ⟨st id, 1, 0x200400000, true, by decide +kernel⟩

theorem wit_CoresAndManagementMacs_9 : ∃ (s : State) (src : Source) (core : Nat), 
    (s.serves src (R.CC_WDOG + 4 * core) true = true) ∧
    (core < 4) := ⟨st id, .pf, 1, by decide +kernel⟩

theorem wit_CoresAndManagementMacs_10 : ∃ (s : State) (src : Source) (core : Nat), 
    (s.serves src (R.CC_WDOG + 4 * core) true = true) ∧
    (4 ≤ core) := ⟨st id, .pf, 4, by decide +kernel⟩

theorem wit_CoresAndManagementMacs_11 : ∃ (s : State) (core : Nat), 
    (s.runs .core = true) ∧
    ((core < 4 ∧ s.chip.get (4 * core) R.CC_WDOG_enable = 1 ∧ s.chip.coreRuns core = true ∧
      s.chip.passedUs (s.chip.host.kicked.look core) (s.chip.get (4 * core) R.CC_WDOG_timeout_ms * 1000) = true)) :=
      ⟨st (fun c => { (((c.put 0 R.CC_STATUS_running 1).put 0 R.CC_WDOG_enable 1).put 0 R.CC_WDOG_timeout_ms 1) with now := 1000000 }), 0,
      by decide +kernel⟩

theorem wit_CoresAndManagementMacs_12 : ∃ (s : State) (core : Nat), 
    (s.runs .core = true) ∧
    (¬ (core < 4 ∧ s.chip.get (4 * core) R.CC_WDOG_enable = 1 ∧ s.chip.coreRuns core = true ∧
      s.chip.passedUs (s.chip.host.kicked.look core) (s.chip.get (4 * core) R.CC_WDOG_timeout_ms * 1000) = true)) := ⟨st id, 0,
      by decide +kernel⟩

theorem wit_CoresAndManagementMacs_13 : ∃ (s : State) (mac : Nat) (bytes : List Byte), 
    (s.runs .core = true) ∧
    ((mac < 2 ∧ s.chip.get (A.mgmt mac) R.MGMT_CTRL_enable = 1 ∧
      s.chip.inReset (0x4080 + mac) = false)) := ⟨st (fun c => c.put (A.mgmt 1) R.MGMT_CTRL_enable 1), 1, [1, 2], by decide +kernel⟩

theorem wit_CoresAndManagementMacs_14 : ∃ (s : State) (mac : Nat) (bytes : List Byte), 
    (s.runs .core = true) ∧
    ((mac < 2 ∧ s.chip.get (A.mgmt mac) R.MGMT_CTRL_enable = 1 ∧
      s.chip.inReset (0x4080 + mac) = false)) := ⟨st (fun c => c.put (A.mgmt 1) R.MGMT_CTRL_enable 1), 1, List.replicate 64 9,
      by decide +kernel⟩

theorem wit_CoresAndManagementMacs_15 : ∃ (s : State) (mac : Nat) (bytes : List Byte) (good : Bool), 
    (s.runs .core = true) ∧
    (¬ (mac < 2 ∧ s.chip.get (A.mgmt mac) R.MGMT_CTRL_enable = 1 ∧
      s.chip.inReset (0x4080 + mac) = false)) := ⟨st id, 1, [], true, by decide +kernel⟩

theorem wit_CoresAndManagementMacs_16 : ∃ (s : State) (mac r : Nat) (d : Descriptor) (bs : List Byte), 
    (s.runs .core = true) ∧
    ((mac < 2 ∧ s.chip.get (A.mgmt mac) R.MGMT_CTRL_enable = 1 ∧ s.chip.inReset (0x4080 + mac) = false) ∧
      s.chip.get (A.mgmt mac) R.MGMT_CTRL_tx_ring = r) ∧
    (s.chip.get (A.ring r) R.RING_CFG_kind = 1 ∧ (s.chip.ring r).desc = some d ∧
      (s.chip.ring r).read = some bs) := ⟨st (fun c => ((c.put (A.mgmt 1) R.MGMT_CTRL_enable 1).put (A.mgmt 1) R.MGMT_CTRL_tx_ring 5).put
      (A.ring 5) R.RING_CFG_kind 1 |>.setRing 5 { desc := some 3, read := some [1, 2] }), 1, 5, 3, [1, 2], by decide +kernel⟩

theorem wit_CoresAndManagementMacs_17 : ∃ (s : State) (mac : Nat), 
    (s.runs .core = true) ∧
    (¬ (mac < 2 ∧ s.chip.get (A.mgmt mac) R.MGMT_CTRL_enable = 1 ∧ s.chip.inReset (0x4080 + mac) = false) ∨
      (s.chip.ring (s.chip.get (A.mgmt mac) R.MGMT_CTRL_tx_ring)).desc = none ∨
      (s.chip.ring (s.chip.get (A.mgmt mac) R.MGMT_CTRL_tx_ring)).read = none) := ⟨st id, 1, by decide +kernel⟩

theorem wit_SweepEngineReadsCounters_1 : ∃ (s : State) (src : Source) (l : Nat), 
    (s.serves src R.SWEEP_CMD true = true) ∧
    (l < 16 ∧ s.chip.get (8 * l) R.SWEEP_LIST_enable = 1 ∧ s.chip.get (8 * l) R.SWEEP_LIST_item_count ≠ 0) ∧
    (s.chip.sweep.running ≠ some l ∧ l ∉ s.chip.sweep.waiting) ∧
    (s.chip.listSize l ≤ 8192) := ⟨st (fun c => ((c.put 24 R.SWEEP_LIST_enable 1).put 24 R.SWEEP_LIST_item_count 1)), .pf, 3,
      by decide +kernel⟩

theorem wit_SweepEngineReadsCounters_2 : ∃ (s : State) (src : Source) (l : Nat), 
    (s.serves src R.SWEEP_CMD true = true) ∧
    (l < 16 ∧ s.chip.get (8 * l) R.SWEEP_LIST_enable = 1 ∧ s.chip.get (8 * l) R.SWEEP_LIST_item_count ≠ 0) ∧
    (s.chip.sweep.running ≠ some l ∧ l ∉ s.chip.sweep.waiting) ∧
    (8192 < s.chip.listSize l) := ⟨st (fun c => (((c.put 24 R.SWEEP_LIST_enable 1).put 24 R.SWEEP_LIST_item_count 1)).put 0
      R.SWEEP_ITEM_RUN_count 8193), .pf, 3, by decide +kernel⟩

theorem wit_SweepEngineReadsCounters_3 : ∃ (s : State) (src : Source) (l : Nat), 
    (s.serves src R.SWEEP_CMD true = true) ∧
    (l < 16 ∧ s.chip.get (8 * l) R.SWEEP_LIST_enable = 1 ∧ s.chip.get (8 * l) R.SWEEP_LIST_item_count ≠ 0) ∧
    (s.chip.sweep.running = some l ∨ l ∈ s.chip.sweep.waiting) :=
      ⟨st (fun c => { ((c.put 24 R.SWEEP_LIST_enable 1).put 24 R.SWEEP_LIST_item_count 1) with sweep := { waiting := [3] } }), .pf, 3,
      by decide +kernel⟩

theorem wit_SweepEngineReadsCounters_4 : ∃ (s : State) (src : Source) (l : Nat), 
    (s.serves src R.SWEEP_CMD true = true) ∧
    (l < 16 ∧ (s.chip.get (8 * l) R.SWEEP_LIST_enable = 0 ∨ s.chip.get (8 * l) R.SWEEP_LIST_item_count = 0)) := ⟨st id, .pf, 15,
      by decide +kernel⟩

theorem wit_SweepEngineReadsCounters_5 : ∃ (s : State) (l : Nat), 
    (s.runs .core = true) ∧
    (s.chip.get (8 * l) R.SWEEP_PERIOD_period_us ≠ 0 ∧ s.chip.passedUs (s.chip.sweep.period.look l) (s.chip.get (8 * l)
      R.SWEEP_PERIOD_period_us) = true) ∧
    (l < 16 ∧ s.chip.get (8 * l) R.SWEEP_LIST_enable = 1 ∧ s.chip.get (8 * l) R.SWEEP_LIST_item_count ≠ 0) ∧
    (s.chip.sweep.running ≠ some l ∧ l ∉ s.chip.sweep.waiting) ∧
    (s.chip.listSize l ≤ 8192) := ⟨st (fun c =>
      { (((c.put 24 R.SWEEP_LIST_enable 1).put 24 R.SWEEP_LIST_item_count 1)).put 24 R.SWEEP_PERIOD_period_us 100 with now := 100000 }), 3,
      by decide +kernel⟩

theorem wit_SweepEngineReadsCounters_6 : ∃ (s : State) (l : Nat), 
    (s.runs .core = true) ∧
    (s.chip.get (8 * l) R.SWEEP_PERIOD_period_us ≠ 0 ∧ s.chip.passedUs (s.chip.sweep.period.look l) (s.chip.get (8 * l)
      R.SWEEP_PERIOD_period_us) = true) ∧
    (l < 16 ∧ s.chip.get (8 * l) R.SWEEP_LIST_enable = 1 ∧ s.chip.get (8 * l) R.SWEEP_LIST_item_count ≠ 0) ∧
    (s.chip.sweep.running ≠ some l ∧ l ∉ s.chip.sweep.waiting) ∧
    (8192 < s.chip.listSize l) := ⟨st (fun c =>
      { ((((c.put 24 R.SWEEP_LIST_enable 1).put 24 R.SWEEP_LIST_item_count 1)).put 24 R.SWEEP_PERIOD_period_us 100).put 0 R.SWEEP_ITEM_RUN_count 8193 with now := 100000 }),
      3, by decide +kernel⟩

theorem wit_SweepEngineReadsCounters_7 : ∃ (s : State) (l : Nat), 
    (s.runs .core = true) ∧
    (s.chip.get (8 * l) R.SWEEP_PERIOD_period_us ≠ 0 ∧ s.chip.passedUs (s.chip.sweep.period.look l) (s.chip.get (8 * l)
      R.SWEEP_PERIOD_period_us) = true) ∧
    (l < 16 ∧ s.chip.get (8 * l) R.SWEEP_LIST_enable = 1 ∧ s.chip.get (8 * l) R.SWEEP_LIST_item_count ≠ 0) ∧
    (s.chip.sweep.running = some l ∨ l ∈ s.chip.sweep.waiting) :=
      ⟨st (fun c => { (((c.put 24 R.SWEEP_LIST_enable 1).put 24 R.SWEEP_LIST_item_count 1)).put 24 R.SWEEP_PERIOD_period_us 100 with now := 100000, sweep := { running := some 3 } }),
      3, by decide +kernel⟩

theorem wit_SweepEngineReadsCounters_8 : ∃ (s : State) (l : Nat), 
    (s.runs .core = true) ∧
    (16 ≤ l ∨ ¬ (s.chip.get (8 * l) R.SWEEP_PERIOD_period_us ≠ 0 ∧
      s.chip.passedUs (s.chip.sweep.period.look l) (s.chip.get (8 * l) R.SWEEP_PERIOD_period_us) = true)) := ⟨st id, 3, by decide +kernel⟩

theorem wit_SweepEngineReadsCounters_9 : ∃ (s : State) (l : Nat), 
    (s.runs .core = true) ∧
    (s.chip.sweep.second < (s.chip.tb 0).sec) ∧
    (∀ k, k < 16 → (s.chip.on (8 * k) R.SWEEP_LIST_on_second = true ↔ k = l)) ∧
    (l < 16 ∧ s.chip.get (8 * l) R.SWEEP_LIST_enable = 1 ∧ s.chip.get (8 * l) R.SWEEP_LIST_item_count ≠ 0) ∧
    (s.chip.sweep.running ≠ some l ∧ l ∉ s.chip.sweep.waiting) ∧
    (s.chip.listSize l ≤ 8192) := ⟨st (fun c => ((((c.put 24 R.SWEEP_LIST_enable 1).put 24 R.SWEEP_LIST_item_count 1)).put 24
      R.SWEEP_LIST_on_second 1).setTb 0 { sec := 5 }), 3, by decide +kernel⟩

theorem wit_SweepEngineReadsCounters_10 : ∃ (s : State), 
    (s.runs .core = true) ∧
    (s.chip.sweep.second < (s.chip.tb 0).sec) := ⟨st (fun c => (((((c.put 24 R.SWEEP_LIST_enable 1).put 24 R.SWEEP_LIST_item_count 1)).put
      24 R.SWEEP_LIST_on_second 1).put 32 R.SWEEP_LIST_on_second 1).setTb 0 { sec := 5 }), by decide +kernel⟩

theorem wit_SweepEngineReadsCounters_11 : ∃ (s : State), 
    (s.runs .core = true) ∧
    ((s.chip.tb 0).sec ≤ s.chip.sweep.second) := ⟨st (fun c => c.setTb 0 { sec := 0 }), by decide +kernel⟩

theorem wit_SweepEngineReadsCounters_12 : ∃ (s : State) (l : Nat) (w : List Nat), 
    (s.runs .core = true) ∧
    (s.chip.sweep.running = none ∧ s.chip.sweep.waiting = l :: w) ∧
    (l < 16) ∧
    (s.chip.sweep.buffer.length + s.chip.listSize l ≤ 8192) :=
      ⟨st (fun c => { (((c.put 24 R.SWEEP_LIST_enable 1).put 24 R.SWEEP_LIST_item_count 1)).put 0 R.SWEEP_ITEM_RUN_count 2 with sweep := { waiting := [3] } }),
      3, [], by decide +kernel⟩

theorem wit_SweepEngineReadsCounters_13 : ∃ (s : State) (l : Nat) (w : List Nat), 
    (s.runs .core = true) ∧
    (s.chip.sweep.running = none ∧ s.chip.sweep.waiting = l :: w) ∧
    (8192 < s.chip.sweep.buffer.length + s.chip.listSize l) :=
      ⟨st (fun c => { (((c.put 24 R.SWEEP_LIST_enable 1).put 24 R.SWEEP_LIST_item_count 1)).put 0 R.SWEEP_ITEM_RUN_count 8192 with sweep := { waiting := [3], buffer := [0] } }),
      3, [], by decide +kernel⟩

theorem wit_SweepEngineReadsCounters_14 : ∃ (s : State), 
    (s.runs .core = true) ∧
    (s.chip.sweep.running ≠ none ∨ s.chip.sweep.waiting = []) := ⟨st id, by decide +kernel⟩

theorem wit_SweepEngineReadsCounters_15 : ∃ (s : State) (l : Nat) (e : Entry) (b : List Entry), 
    (s.runs .core = true) ∧
    (s.chip.sweep.running = some l) ∧
    (s.chip.sweep.buffer = b ++ [e]) := ⟨st (fun c =>
      { c.put 0 R.SWEEP_STATUS_busy 1 with sweep := { running := some 3, buffer := [4, 5] } }), 3, 5, [4], by decide +kernel⟩

theorem wit_SweepEngineReadsCounters_16 : ∃ (s : State), 
    (s.runs .core = true) ∧
    (s.chip.sweep.running ≠ none) ∧
    (s.chip.sweep.buffer = []) := ⟨st (fun c => { c.put 0 R.SWEEP_STATUS_busy 1 with sweep := { running := some 3 } }), by decide +kernel⟩

theorem wit_SweepEngineReadsCounters_17 : ∃ (s : State), 
    (s.runs .core = true) ∧
    (s.chip.sweep.running = none) := ⟨st id, by decide +kernel⟩

end Sys2Proof.Tests
end

section
/-! SUPPORT. Block resets of the ledger on a device whose suites overlap: what a start of a reset does to an otherwise idle device, and the
state that refutes the statement on REACTION_BLOCK_RESET. -/

namespace Sys2Proof.Machine

open Sys2Proof

/-! ### Loops that change nothing -/

/-- A loop whose every turn leaves the device as it is leaves it as it is. -/
theorem Chip.each_eq_self {α : Type} {c : Chip} {l : List α} {f : Chip → α → Chip} (h : ∀ a ∈ l, f c a = c) : c.each l f = c := by
  induction l with
  | nil => rfl
  | cons x l ih =>
    rw [Chip.each_cons, h x List.mem_cons_self]
    exact ih fun a ha => h a (List.mem_cons_of_mem x ha)

theorem Chip.each_range_eq_self {c : Chip} {n : Nat} {f : Chip → Nat → Chip} (h : ∀ i < n, f c i = c) : c.each (List.range n) f = c :=
  Chip.each_eq_self fun i hi => h i (List.mem_range.mp hi)

/-- A step on a condition, where it leaves the device as it is. -/
theorem Chip.when_eq_self {c : Chip} {b : Bool} {f : Chip → Chip} (h : b = true → f c = c) : c.when b f = c := by
  cases b
  · rfl
  · exact h rfl

/-- Where no window is busy and no apply is pending, no window or domain is there for a reset to end. -/
theorem Chip.resetWindows_eq_self {c : Chip} (hw : c.busyWins = []) (ha : c.applies = []) : c.resetWindows = c := by
  simp only [Chip.resetWindows, hw, List.filter_nil, Chip.each_nil, ha, List.filterMap_nil]

/-! ### The start of a reset -/

/-- The reset controller once a reset of `u` has started (R25, R26). -/
def Chip.rstStarted (c : Chip) (u kind : Nat) : ResetCtl :=
  let inner := c.rst.running.filter fun r => c.inside r.unit u
  { c.rst with
    running := c.rst.running.filter (fun r => !(c.inside r.unit u)) ++ [⟨u, kind⟩]
    held := (c.rst.held.filter fun v => !(inner.any fun r => r.kind == 2 && r.unit == v)) ++
      (inner.filter fun r => r.kind == 1).map RunReset.unit
    merged := (c.rst.merged.map fun x => if c.inside x.1 u then (u, x.2) else x) ++
      (inner.filter fun r => r.kind != 1 && r.unit != u).map fun r => (u, r.unit) }

/-- While software has no request accepted, the start of a reset updates the controller and ends what the units in reset did. -/
theorem Chip.resetStart_of_last_none {c : Chip} (h : c.rst.last = none) (u kind : Nat) :
    c.resetStart u kind = (c.resetLines (c.resetBegin { c with rst := c.rstStarted u kind })).syncRstHeld := by
  have hwas : ((c.rst.running.filter fun r => c.inside r.unit u).any fun r => r.kind == 1 && c.rst.last == some r) = false := by simp [h]
  simp only [Chip.resetStart, Chip.rstStarted, hwas, Chip.when_false]

/-- One request of the ledger: a reset of `u` starts where no reason of Table 1-9 stands against it. -/
def Chip.askReset (c : Chip) (u : Nat) : Chip := if c.resetReason u 0 false = 0 then c.resetStart u 0 else c

theorem Chip.ledgerReset_eq (c : Chip) (t : Nat) :
    c.ledgerReset t = (c.askReset (c.suiteUnit t)).each (c.splitSuites (c.suiteUnit t)) Chip.askReset := rfl

/-! ### A device whose suites overlap -/

/-- An idle device with slices 1, 2 and 3 in two suites each. R14 does not allow such an image, but no
hypothesis of the statement excludes it. -/
def overlapChip (r : ResetCtl) : Chip :=
  { power := { released := true, sysPll := true }
    image := { applied := true
               suites := [[U.slice 2, U.slice 3], [U.slice 1, U.slice 2], [U.slice 0, U.slice 1, U.slice 3]] }
    rst := r }

/-- That device after the first `i` of the resets of slices 2, 1 and 0: each takes the one before over, as the slice before is a member of
the suite that it names. -/
def overlapAt (i : Nat) : Chip :=
  overlapChip (match i with
    | 0 => {}
    | 1 => { running := [⟨U.slice 2, 0⟩] }
    | 2 => { running := [⟨U.slice 1, 0⟩], merged := [(U.slice 1, U.slice 2)] }
    | _ => { running := [⟨U.slice 0, 0⟩], merged := [(U.slice 0, U.slice 2), (U.slice 0, U.slice 1)] })

/-- No window is busy, whatever the reset controller does. -/
theorem busyWins_overlapChip (r : ResetCtl) : (overlapChip r).busyWins = [] := by
  have h : (overlapChip {}).busyWins = [] := by decide +kernel
  exact h

/-- No latchkey is held. -/
theorem orphanWhere_overlapChip (r : ResetCtl) (p : Latch → Bool) : (overlapChip r).orphanWhere p = overlapChip r :=
  Chip.each_eq_self fun _ _ => rfl

/-! The device is idle, so each effect on a unit that falls into reset leaves it as it is. -/

theorem resetSlice_overlapAt : ∀ i < 3, ∀ s < 8,
    (overlapAt (i + 1)).when (Chip.fell (overlapAt i) (overlapAt (i + 1)) (U.slice s)) (fun c => c.resetSlice s) = overlapAt (i + 1) := by
  decide +kernel

theorem resetPorter_overlapAt : ∀ i < 3, ∀ s < 8, ∀ n < 34,
    (overlapAt (i + 1)).when (Chip.fell (overlapAt i) (overlapAt (i + 1)) (porterUnit s n)) (fun c => c.resetPorter s n) =
      overlapAt (i + 1) := by
  decide +kernel

theorem resetEm_overlapAt : ∀ i < 3, ∀ s < 8, (overlapAt (i + 1)).resetEm s = overlapAt (i + 1) := by decide +kernel

theorem resetTcam_overlapAt : ∀ i < 3, ∀ s < 8, (overlapAt (i + 1)).resetTcam s = overlapAt (i + 1) := by decide +kernel

theorem resetSched_overlapAt : ∀ i < 3, ∀ s < 8,
    (overlapAt (i + 1)).when (Chip.fell (overlapAt i) (overlapAt (i + 1)) (U.sliceBlk s 0x70)) (fun c => c.resetSched s) =
      overlapAt (i + 1) := by
  decide +kernel

theorem resetHeld_overlapAt : ∀ i < 3, ∀ s < 8, (overlapAt (i + 1)).resetHeld s = overlapAt (i + 1) := by decide +kernel

theorem resetFifo_overlapAt : ∀ i < 3, ∀ f < 24,
    (overlapAt (i + 1)).when (Chip.fell (overlapAt i) (overlapAt (i + 1)) (fifoUnit f)) (fun c => c.resetFifo f) = overlapAt (i + 1) := by
  decide +kernel

/-! No unit outside the slices falls. -/

theorem not_fell_half_overlapAt : ∀ i < 3, ∀ h < 2,
    Chip.fell (overlapAt i) (overlapAt (i + 1)) (U.halfBlk h 0) = false ∧
    Chip.fell (overlapAt i) (overlapAt (i + 1)) (hbmUnit h) = false ∧
    Chip.fell (overlapAt i) (overlapAt (i + 1)) (phyUnit h) = false ∧
    ∀ pc < 32, Chip.fell (overlapAt i) (overlapAt (i + 1)) (pcUnit h pc) = false := by
  decide +kernel

theorem not_fell_device_overlapAt : ∀ i < 3,
    (∀ k < 4, Chip.fell (overlapAt i) (overlapAt (i + 1)) (planeUnit k) = false) ∧
    (∀ k < 4, Chip.fell (overlapAt i) (overlapAt (i + 1)) (0xD010 + k) = false) ∧
    Chip.fell (overlapAt i) (overlapAt (i + 1)) 0xD020 = false ∧
    Chip.fell (overlapAt i) (overlapAt (i + 1)) 0xD028 = false ∧
    Chip.fell (overlapAt i) (overlapAt (i + 1)) 0xD060 = false := by
  decide +kernel

theorem resetBegin_overlapAt (i : Nat) (hi : i < 3) : Chip.resetBegin (overlapAt i) (overlapAt (i + 1)) = overlapAt (i + 1) := by
  obtain ⟨hplane, hcore, hendpoint, hdma, hsweep⟩ := not_fell_device_overlapAt i hi
  have hw : (overlapAt (i + 1)).resetWindows = overlapAt (i + 1) := Chip.resetWindows_eq_self (busyWins_overlapChip _) rfl
  simp only [Chip.resetBegin]
  rw [hw, Chip.each_range_eq_self (c := overlapAt (i + 1)) ?slices, Chip.each_range_eq_self (c := overlapAt (i + 1)) ?blocks,
    Chip.each_range_eq_self (c := overlapAt (i + 1)) ?fifos, Chip.each_range_eq_self (c := overlapAt (i + 1)) ?halves,
    Chip.each_range_eq_self (c := overlapAt (i + 1)) ?planes, Chip.each_range_eq_self (c := overlapAt (i + 1)) ?cores]
  · simp only [hendpoint, hdma, hsweep, Chip.when_false]
    exact orphanWhere_overlapChip _ _
  case slices => exact resetSlice_overlapAt i hi
  case blocks =>
    intro s hs
    rw [Chip.each_range_eq_self (resetPorter_overlapAt i hi s hs), Chip.when_eq_self (c := overlapAt (i + 1)) ?em,
      Chip.when_eq_self (c := overlapAt (i + 1)) ?tcam, resetSched_overlapAt i hi s hs,
      Chip.when_eq_self (c := overlapAt (i + 1)) ?held, Chip.when_eq_self (c := overlapAt (i + 1)) ?waiting]
    case em => exact fun _ => resetEm_overlapAt i hi s hs
    case tcam => exact fun _ => resetTcam_overlapAt i hi s hs
    case held => exact fun _ => resetHeld_overlapAt i hi s hs
    case waiting => exact fun _ => rfl
  case fifos => exact resetFifo_overlapAt i hi
  case halves =>
    intro h hh
    obtain ⟨hinnk, hhbm, hphy, hpc⟩ := not_fell_half_overlapAt i hi h hh
    simp only [hinnk, hhbm, hphy, Bool.or_self, Chip.when_false]
    refine Chip.each_range_eq_self fun pc hlt => ?_
    rw [hpc pc hlt, Bool.false_and, Chip.when_false]
  case planes => exact fun k hk => by rw [hplane k hk, Chip.when_false]
  case cores => exact fun k hk => by rw [hcore k hk, Chip.when_false]

theorem resetStart_overlapAt (i : Nat) (hi : i < 3) : (overlapAt i).resetStart (U.slice (2 - i)) 0 = overlapAt (i + 1) := by
  have hlast : (overlapAt i).rst.last = none := by revert i; decide
  have hnew : { overlapAt i with rst := (overlapAt i).rstStarted (U.slice (2 - i)) 0 } = overlapAt (i + 1) := by
    revert i; decide +kernel
  have hlines : Chip.resetLines (overlapAt i) (overlapAt (i + 1)) = overlapAt (i + 1) := by revert i; decide +kernel
  have hheld : (overlapAt (i + 1)).syncRstHeld = overlapAt (i + 1) := by revert i; decide +kernel
  rw [Chip.resetStart_of_last_none hlast, hnew, resetBegin_overlapAt i hi, hlines, hheld]

theorem askReset_overlapAt (i u : Nat) (hi : i < 3) (hu : u = U.slice (2 - i)) : (overlapAt i).askReset u = overlapAt (i + 1) := by
  have hreason : (overlapAt i).resetReason (U.slice (2 - i)) 0 false = 0 := by
    clear hu
    revert i
    decide +kernel
  rw [Chip.askReset, hu, if_pos hreason, resetStart_overlapAt i hi]

/-- The ledger's reset of slice 2 starts that of the slice, then those of the suites of slices 1 and 0, which it splits (R21). -/
theorem ledgerReset_overlapAt : (overlapAt 0).ledgerReset (U.slice 2) = overlapAt 3 := by
  have hunit : (overlapAt 0).suiteUnit (U.slice 2) = U.slice 2 := by decide
  have hsplit : (overlapAt 0).splitSuites (U.slice 2) = [U.slice 1, U.slice 0] := by decide
  rw [Chip.ledgerReset_eq, hunit, hsplit, askReset_overlapAt 0 _ (by decide) rfl, Chip.each_cons, askReset_overlapAt 1 _ (by decide) rfl,
    Chip.each_cons, askReset_overlapAt 2 _ (by decide) rfl, Chip.each_nil]

/-- That device with a block reset of slice 2 due. -/
def overlapState : State := { State.reset with chip := { overlapAt 0 with ledger := { blocks := [U.slice 2] } } }

theorem exec_overlapState : exec .reactionBlockReset overlapState = .next { overlapState with chip := overlapAt 3 } := by
  have hruns : overlapState.runs .core = true := by decide
  rw [exec_reactionBlockReset, execReactionBlockReset, State.run_of_runs hruns]
  exact congrArg (fun c => Host.Outcome.next { overlapState with chip := c }) ledgerReset_overlapAt

/-- Refutes O23, by clause 11: the reset of slice 2, which the ledger's reaction asks for, is taken over by that of slice 1, and that by the
reset of slice 0, whose suite does not hold slice 2: the last reset running does not cover the target. It takes an image with a slice in two
suites, which R14 does not allow and no hypothesis of the clause excludes. -/
theorem not_unitResetsRun : ¬ Obligations.UnitResetsRun := by
  rintro ⟨-, -, -, -, -, -, -, -, -, -, hblock⟩
  obtain ⟨t, hexec, -, hreset, -⟩ := hblock overlapState (U.slice 2) [] (by decide) rfl (by decide +kernel)
  obtain rfl := Host.Outcome.next.inj (hexec.symm.trans exec_overlapState)
  have hnot : (overlapAt 3).inReset (overlapState.chip.suiteUnit (U.slice 2)) = false := by decide
  exact Bool.false_ne_true (hnot.symm.trans hreset)

end Sys2Proof.Machine

end

section
/-! SUPPORT. Staged registers and APPLY (spec/02_configuration_image.md R45 to R51): what a step on the device keeps, the fields of
APPLY_STATUS, a go that is refused or accepted, the effect of an apply in a domain of one member, its withdrawal, and revert. -/

namespace Sys2Proof.Machine

open Sys2Proof

/-! ### Updates of one part -/

section
variable (c : Chip)

def Chip.setSince (b : Nat) (v : Bool) : Chip := { c with since := c.since.set b v }
def Chip.setStaged (t : Tbl (Option Word)) : Chip := { c with staged := t }
def Chip.setApply (b : Nat) (o : Option Apply) : Chip := { c with applies := c.applies.set b o }

@[simp] theorem Chip.reg_setSince (b : Nat) (v : Bool) (a : Nat) : (c.setSince b v).reg a = c.reg a := rfl
@[simp] theorem Chip.reg_setStaged (t : Tbl (Option Word)) (a : Nat) : (c.setStaged t).reg a = c.reg a := rfl
@[simp] theorem Chip.reg_setApply (b : Nat) (o : Option Apply) (a : Nat) : (c.setApply b o).reg a = c.reg a := rfl
@[simp] theorem Chip.setSince_applies (b : Nat) (v : Bool) : (c.setSince b v).applies = c.applies := rfl
@[simp] theorem Chip.setStaged_applies (t : Tbl (Option Word)) : (c.setStaged t).applies = c.applies := rfl
@[simp] theorem Chip.setApply_applies (b : Nat) (o : Option Apply) : (c.setApply b o).applies = c.applies.set b o := rfl
@[simp] theorem Chip.setStaged_staged (t : Tbl (Option Word)) : (c.setStaged t).staged = t := rfl
@[simp] theorem Chip.statusPut_applies (b z hi lo v : Nat) : (c.statusPut b z hi lo v).applies = c.applies := rfl
@[simp] theorem Chip.applyRefuse_applies (b z r : Nat) : (c.applyRefuse b z r).applies = c.applies := by
  rw [Chip.applyRefuse, Chip.statusPut_applies, Chip.statusPut_applies, Chip.statusPut_applies]

end

/-! ### What a step keeps -/

/-- An update of a part that is left out shows in nothing that is left. -/
theorem Chip.rest_update {f : Chip → Chip} {p : Part} {ps : List Part} (hp : p ∈ ps) (hout : ∀ c, (f c).drop p = c.drop p)
    (hcomm : ∀ c q, q ≠ p → (f c).drop q = f (c.drop q)) (hbare : ∀ c, (f c).bare = f c.bare) (c : Chip) : (f c).rest ps = c.rest ps := by
  have hfold : ∀ d, ps.foldl Chip.drop (f d) = ps.foldl Chip.drop d := by
    induction ps with
    | nil => cases hp
    | cons q ps ih =>
      intro d
      by_cases hq : q = p
      · rw [List.foldl_cons, List.foldl_cons, hq, hout]
      · rw [List.foldl_cons, List.foldl_cons, hcomm d q hq]
        exact ih ((List.mem_cons.mp hp).resolve_left (Ne.symm hq)) _
  rw [Chip.rest, hbare, hfold, Chip.rest]

/-- What is left holds every part that is not left out. -/
theorem Chip.rest_field {β : Type} {g : Chip → β} {p : Part} {ps : List Part} (hp : p ∉ ps) (hg : ∀ c q, q ≠ p → g (c.drop q) = g c)
    (c : Chip) : g (c.rest ps) = g c.bare := by
  unfold Chip.rest
  generalize c.bare = d
  induction ps generalizing d with
  | nil => rfl
  | cons q ps ih =>
    rw [List.mem_cons, not_or] at hp
    exact (ih hp.2 _).trans (hg d q (Ne.symm hp.1))

/-- The step from `c` to `d` changes nothing but the registers `l`, the parts `ps`, what is sent out and read data. -/
def Chip.Keeps (c d : Chip) (l : List Nat) (ps : List Part) : Prop := (∀ a, a ∉ l → d.reg a = c.reg a) ∧ d.rest ps = c.rest ps

section
variable {c d e : Chip} {l : List Nat} {ps : List Part}

theorem Chip.Keeps.refl (c : Chip) : c.Keeps c l ps := ⟨fun _ _ => rfl, rfl⟩

theorem Chip.Keeps.trans (h : c.Keeps d l ps) (h' : d.Keeps e l ps) : c.Keeps e l ps :=
  ⟨fun a ha => (h'.1 a ha).trans (h.1 a ha), h'.2.trans h.2⟩

/-- An update of a listed part. -/
theorem Chip.Keeps.update (h : c.Keeps d l ps) {f : Chip → Chip} {p : Part} (hp : p ∈ ps) (hregs : (f d).regs = d.regs)
    (hout : ∀ c, (f c).drop p = c.drop p) (hcomm : ∀ c q, q ≠ p → (f c).drop q = f (c.drop q)) (hbare : ∀ c, (f c).bare = f c.bare) :
    c.Keeps (f d) l ps :=
  h.trans ⟨fun a _ => Chip.reg_of_regs hregs a, Chip.rest_update hp hout hcomm hbare d⟩

theorem Chip.Keeps.setSince (h : c.Keeps d l ps) (hp : .since ∈ ps) (b : Nat) (v : Bool) : c.Keeps (d.setSince b v) l ps :=
  h.update (f := (·.setSince b v)) hp rfl (fun _ => rfl) (fun _ q _ => by cases q <;> trivial) fun _ => rfl

theorem Chip.Keeps.setStaged (h : c.Keeps d l ps) (hp : .staged ∈ ps) (t : Tbl (Option Word)) : c.Keeps (d.setStaged t) l ps :=
  h.update (f := (·.setStaged t)) hp rfl (fun _ => rfl) (fun _ q _ => by cases q <;> trivial) fun _ => rfl

theorem Chip.Keeps.setApply (h : c.Keeps d l ps) (hp : .applies ∈ ps) (b : Nat) (o : Option Apply) : c.Keeps (d.setApply b o) l ps :=
  h.update (f := (·.setApply b o)) hp rfl (fun _ => rfl) (fun _ q _ => by cases q <;> trivial) fun _ => rfl

theorem Chip.Keeps.setRecs (h : c.Keeps d l ps) (hp : .records ∈ ps) (s : Nat) (r : Records) : c.Keeps (d.setRecs s r) l ps :=
  h.update (f := (·.setRecs s r)) hp rfl (fun _ => rfl) (fun _ q _ => by cases q <;> trivial) fun _ => rfl

theorem Chip.Keeps.setTb (h : c.Keeps d l ps) (hp : .tbs ∈ ps) (t : Nat) (v : Tb) : c.Keeps (d.setTb t v) l ps :=
  h.update (f := (·.setTb t v)) hp rfl (fun _ => rfl) (fun _ q _ => by cases q <;> trivial) fun _ => rfl

/-- The value is given, as what a report writes in the ledger depends on the image too. -/
theorem Chip.Keeps.setLedger (h : c.Keeps d l ps) (hp : .ledger ∈ ps) (v : Ledger) : c.Keeps { d with ledger := v } l ps :=
  h.update (f := fun d => { d with ledger := v }) hp rfl (fun _ => rfl) (fun _ q _ => by cases q <;> trivial) fun _ => rfl

theorem Chip.Keeps.endCond (h : c.Keeps d l ps) (hp : .ledger ∈ ps) (u k : Nat) : c.Keeps (d.endCond u k) l ps := h.setLedger hp _

/-- Parts that are not listed stay. -/
theorem Chip.Keeps.field {β : Type} {g : Chip → β} {p : Part} (h : c.Keeps d l ps) (hp : p ∉ ps)
    (hg : ∀ c q, q ≠ p → g (c.drop q) = g c) (hbare : ∀ c, g c.bare = g c) : g d = g c := by
  rw [← hbare d, ← hbare c, ← Chip.rest_field hp hg, ← Chip.rest_field hp hg, h.2]

theorem Chip.Keeps.now (h : c.Keeps d l ps) (hp : .now ∉ ps) : d.now = c.now :=
  h.field (g := Chip.now) hp (fun _ q _ => by cases q <;> trivial) fun _ => rfl

theorem Chip.Keeps.image (h : c.Keeps d l ps) (hp : .image ∉ ps) : d.image = c.image :=
  h.field (g := Chip.image) hp (fun _ q _ => by cases q <;> trivial) fun _ => rfl

theorem Chip.Keeps.house (h : c.Keeps d l ps) (hp : .house ∉ ps) : d.house = c.house :=
  h.field (g := Chip.house) hp (fun _ q _ => by cases q <;> trivial) fun _ => rfl

theorem Chip.Keeps.staged (h : c.Keeps d l ps) (hp : .staged ∉ ps) : d.staged = c.staged :=
  h.field (g := Chip.staged) hp (fun _ q _ => by cases q <;> trivial) fun _ => rfl

theorem Chip.Keeps.applies (h : c.Keeps d l ps) (hp : .applies ∉ ps) : d.applies = c.applies :=
  h.field (g := Chip.applies) hp (fun _ q _ => by cases q <;> trivial) fun _ => rfl

theorem Chip.Keeps.setReg (h : c.Keeps d l ps) {a : Nat} (ha : a ∈ l) (v : Word) : c.Keeps (d.setReg a v) l ps :=
  h.trans ⟨fun _ hb => Chip.reg_setReg_ne d _ _ _ (ne_of_mem_of_not_mem ha hb).symm, by rw [Chip.rest, Chip.bare_setReg, Chip.rest]⟩

theorem Chip.Keeps.put (h : c.Keeps d l ps) {b : Nat} {f : Fld} (ha : b + f.off ∈ l) (n : Nat) : c.Keeps (d.put b f n) l ps :=
  h.setReg ha _

theorem Chip.Keeps.statusPut (h : c.Keeps d l ps) {b z : Nat} (ha : b + z - 4 ∈ l) (hi lo v : Nat) :
    c.Keeps (d.statusPut b z hi lo v) l ps := h.put ha v

theorem Chip.Keeps.applyRefuse (h : c.Keeps d l ps) {b z : Nat} (ha : b + z - 4 ∈ l) (r : Nat) : c.Keeps (d.applyRefuse b z r) l ps :=
  ((h.statusPut ha ..).statusPut ha ..).statusPut ha ..

theorem Chip.Keeps.when (h : c.Keeps d l ps) {b : Bool} {f : Chip → Chip} (hf : b = true → c.Keeps (f d) l ps) : c.Keeps (d.when b f) l ps := by
  cases b
  · exact h
  · exact hf rfl

theorem Chip.Keeps.each {α : Type} (h : c.Keeps d l ps) (xs : List α) {f : Chip → α → Chip} (hf : ∀ (c : Chip) x, c.Keeps (f c x) l ps) :
    c.Keeps (d.each xs f) l ps := by
  induction xs generalizing d with
  | nil => exact h
  | cons x xs ih => exact ih (h.trans (hf d x))

/-- What a command keeps, from the step on the device after the outputs of the command before are taken away. -/
theorem Chip.Keeps.onlyParts {s : State} (h : s.chip.quiet.Keeps d l ps) : OnlyParts s { s with chip := d } l ps :=
  ⟨⟨h.1, h.2, rfl⟩, rfl, rfl⟩

theorem Chip.Keeps.onlyRegs {s : State} (h : s.chip.quiet.Keeps d l []) : OnlyRegs s { s with chip := d } l :=
  ⟨h.1, h.2, rfl, rfl, rfl⟩

end

/-- Snapshots of scheduler records. -/
def Chip.setSnaps (c : Chip) (l : List Nat) (snap : List (Level × Nat × Entry)) : Chip :=
  c.each l fun c m => c.setRecs m { c.recs m with snap }

theorem Chip.Keeps.setSnaps {c d : Chip} {l : List Nat} {ps : List Part} (h : c.Keeps d l ps) (hp : .records ∈ ps) (ms : List Nat)
    (snap : List (Level × Nat × Entry)) : c.Keeps (d.setSnaps ms snap) l ps :=
  h.each ms fun c _ => (Chip.Keeps.refl c).setRecs hp ..

/-! ### Domains (spec/02_configuration_image.md R45) -/

/-- Windows of domains start and end at multiples of 0x100. -/
theorem domainOf_aligned {a b z : Nat} (h : domainOf a = some (b, z)) : b % 0x100 = 0 ∧ z % 0x100 = 0 ∧ 0x100 ≤ z := by
  unfold domainOf at h
  simp only [Bool.and_eq_true, decide_eq_true_eq] at h
  split_ifs at h <;> simp only [Option.some.injEq, Prod.mk.injEq] at h <;> omega

theorem domainOf_plane {k : Nat} (hk : k < 4) : domainOf (A.plane k) = some (A.plane k, 0x100000) := by
  revert k; decide

theorem domainOf_hbm {m : Nat} (hm : m < 2) : domainOf (A.hbm m) = some (A.hbm m, 0x400000) := by
  revert m; decide

/-- Outside the slices and halves a register stands once. -/
theorem Chip.copiesOf_device (c : Chip) {a : Nat} (h : 0x14000000 ≤ a) : c.copiesOf a = [a] := by
  unfold Chip.copiesOf
  rw [if_neg (by simp; omega), if_neg (by simp; omega)]

theorem Chip.domainFirst_device (c : Chip) {b z : Nat} (h : 0x14000000 ≤ b) (hd : domainOf b = some (b, z)) :
    c.domainFirst b = some (b, z) := by
  rw [Chip.domainFirst, hd, Option.map_some, c.copiesOf_device h]; rfl

theorem schedDomain_device {b : Nat} (h : 0x14000000 ≤ b) : schedDomain b = none := by
  unfold schedDomain
  rw [if_neg (by simp; omega)]

theorem Chip.portAt_device {b : Nat} (h : 0x14000000 ≤ b) : Chip.portAt b = none := by
  unfold Chip.portAt
  rw [if_neg (by simp; omega)]

theorem Chip.porterAt_device {b : Nat} (h : 0x14000000 ≤ b) : Chip.porterAt b = none := by
  unfold Chip.porterAt
  rw [if_neg (by simp; omega)]

/-- The owner of a time base's window may write it; the other windows are not guarded. -/
theorem Chip.tbGuard_of_owner {c : Chip} {src : Source} {a : Nat}
    (h : a < 0x40000 ∨ 0x40800 ≤ a ∨ c.tbMayWrite src ((a - 0x40000) / 0x100) = true) (f : Chip → Chip) : c.tbGuard src a f = f c := by
  unfold Chip.tbGuard
  split
  · next hw =>
    simp only [Bool.and_eq_true, decide_eq_true_eq] at hw
    obtain h | h | h := h
    · omega
    · omega
    · exact if_pos h
  · rfl

/-- The bus serves a write of `src` to the APPLY register of the domain at `b`, whose window `src` may write (R325, R432). -/
structure State.MayApply (s : State) (src : Source) (b z : Nat) : Prop where
  served : s.serves src (b + z - 8) true = true
  domain : domainOf (b + z - 8) = some (b, z)
  owner : b + z - 8 < 0x40000 ∨ 0x40800 ≤ b + z - 8 ∨ s.chip.tbMayWrite src ((b + z - 8 - 0x40000) / 0x100) = true

/-- A write of APPLY by a source that may write the window acts on its domain. -/
theorem State.bus_apply {s : State} {src : Source} {b z : Nat} (hm : s.MayApply src b z) (f : Chip → Nat → Nat → Chip) :
    (s.bus src (b + z - 8) true fun c =>
      match domainOf (b + z - 8) with
      | some (base, size) => if b + z - 8 = base + size - 8 then c.tbGuard src (b + z - 8) fun c => f c base size else c
      | none => c) = .next { s with chip := f s.chip.quiet b z } := by
  rw [State.bus_of_serves hm.served, hm.domain]
  dsimp only
  rw [if_pos rfl, Chip.tbGuard_of_owner (c := s.chip.quiet) hm.owner]

theorem exec_applyGo_served {s : State} {src : Source} {b z : Nat} (hm : s.MayApply src b z) (tag : Nat) :
    exec (.applyGo src (b + z - 8) tag) s = .next { s with chip := s.chip.quiet.applyGo b z tag } :=
  State.bus_apply hm fun c base size => c.applyGo base size tag

theorem exec_applyRevert_served {s : State} {src : Source} {b z : Nat} (hm : s.MayApply src b z) :
    exec (.applyRevert src (b + z - 8)) s = .next { s with chip := s.chip.quiet.applyRevert b z } :=
  State.bus_apply hm Chip.applyRevert

/-! ### APPLY_STATUS (Table 2-8) -/

/-- A field is its upper part, then its lower part. -/
theorem bits_split {w : Nat} (v : BitVec w) {hi mid lo : Nat} (h : lo ≤ mid) (h' : mid ≤ hi) :
    bits v hi lo = bits v hi (mid + 1) * 2 ^ (mid + 1 - lo) + bits v mid lo := by
  have hw : hi + 1 - lo = (mid + 1 - lo) + (hi + 1 - (mid + 1)) := by omega
  have hs : mid + 1 = lo + (mid + 1 - lo) := by omega
  unfold bits
  conv_rhs => enter [1, 1, 1]; rw [hs, Nat.shiftRight_add, Nat.shiftRight_eq_div_pow (v.toNat >>> lo)]
  rw [hw, Nat.pow_add, Nat.mod_mul, Nat.add_comm, Nat.mul_comm]

section
variable (c : Chip) (b z : Nat)

theorem Chip.reg_statusPut_same (hi lo v : Nat) : (c.statusPut b z hi lo v).reg (b + z - 4) = putBits (c.reg (b + z - 4)) hi lo v :=
  (Chip.reg_put ..).trans (if_pos rfl)

theorem Chip.status_statusPut_same {hi lo : Nat} (v : Nat) (h : lo ≤ hi ∧ hi < 64) :
    bits ((c.statusPut b z hi lo v).reg (b + z - 4)) hi lo = v % 2 ^ (hi + 1 - lo) := by
  rw [Chip.reg_statusPut_same, bits_putBits_same _ _ _ _ h.1 h.2]

/-- The same, where the offset of APPLY_STATUS is written out. -/
theorem Chip.status_statusPut_end {hi lo o : Nat} (v : Nat) (ho : o + 4 = z) (h : lo ≤ hi ∧ hi < 64) :
    bits ((c.statusPut b z hi lo v).reg (b + o)) hi lo = v % 2 ^ (hi + 1 - lo) := by
  rw [← Chip.status_statusPut_same c b z v h, ← ho, ← Nat.add_assoc, Nat.add_sub_cancel]

theorem Chip.status_statusPut_other {hi lo hi' lo' : Nat} (v : Nat) (h : lo ≤ hi ∧ hi' < 64 ∧ (hi' < lo ∨ hi < lo')) :
    bits ((c.statusPut b z hi lo v).reg (b + z - 4)) hi' lo' = bits (c.reg (b + z - 4)) hi' lo' := by
  rw [Chip.reg_statusPut_same, bits_putBits_other _ _ _ _ _ _ h.1 h.2.1 h.2.2]

/-- What a refusal shows: apply_err, err_irq and its reason, while pending and the tag stay. -/
theorem Chip.status_applyRefuse (r : Nat) :
    bits ((c.applyRefuse b z r).reg (b + z - 4)) 30 30 = 1 ∧ bits ((c.applyRefuse b z r).reg (b + z - 4)) 28 28 = 1 ∧
    bits ((c.applyRefuse b z r).reg (b + z - 4)) 23 16 = r % 256 ∧
    bits ((c.applyRefuse b z r).reg (b + z - 4)) 31 31 = bits (c.reg (b + z - 4)) 31 31 ∧
    bits ((c.applyRefuse b z r).reg (b + z - 4)) 15 0 = bits (c.reg (b + z - 4)) 15 0 := by
  simp [Chip.applyRefuse, Chip.status_statusPut_same, Chip.status_statusPut_other]

end

/-! ### A go (R47, R48, R50) -/

/-- The reason that refuses a go of the domain at `b`, if one does. -/
def Chip.goRefusal (c : Chip) (b : Nat) : Option Nat :=
  if c.applyPending b then some 7 else if (c.copiesOf b).any c.domainHeld then some 6 else (c.applyReasons b).min?

theorem Chip.goRefusal_quiet (c : Chip) (b : Nat) : c.quiet.goRefusal b = c.goRefusal b := rfl

/-- A go shows its tag in APPLY and in APPLY_STATUS. -/
def Chip.goTagged (c : Chip) (b z tag : Nat) : Chip := (c.put (b + z - 8) ⟨0, 15, 0⟩ tag).statusPut b z 15 0 tag

/-- An accepted go clears apply_err and reason and sets pending. -/
def Chip.goShown (c : Chip) (b z tag : Nat) : Chip :=
  (((c.goTagged b z tag).statusPut b z 30 30 0).statusPut b z 23 16 0).statusPut b z 31 31 1

/-- A go with a new AVS_CTRL clears AVS_STATUS.stuck. -/
def Chip.goVolt (c : Chip) (b : Nat) : Chip :=
  c.when (b == 0x7000 && (c.staged.look R.AVS_CTRL).isSome) fun c => c.put 0 R.AVS_STATUS_stuck 0

/-- What an accepted go does at once beside the apply: AVS_STATUS.stuck clears, and a time base is steered. -/
def Chip.goSide (c : Chip) (b : Nat) : Chip :=
  (c.goVolt b).when (0x40000 ≤ b && b < 0x40800) fun c => c.tbSteered ((b - 0x40000) / 0x100)

/-- Every member of a scheduler domain takes the snapshot of its staged records. -/
def Chip.goRecords (c : Chip) (b : Nat) : Chip :=
  match schedDomain b with
  | some s => (c.setRecs s { c.recs s with written := [] }).setSnaps (c.sliceMates s) (c.recs s).allStaged
  | none => c

/-- The apply is pending in every member. -/
def Chip.goPending (c : Chip) (b z : Nat) : Chip :=
  (c.setSince b false).setApply b (some { snap := c.stagedAll b z, left := c.copiesOf b, since := c.now })

/-- The member's domain lies in a sleeping slice. -/
def Chip.memberAsleep (c : Chip) (x : Nat) : Bool := (U.sliceOf (domainUnit x)).any fun k => c.house.sleep.look k == 2

theorem Chip.applyGo_of_refused {c : Chip} {b r : Nat} (h : c.goRefusal b = some r) (z tag : Nat) :
    c.applyGo b z tag = (c.goTagged b z tag).applyRefuse b z r := by
  unfold Chip.goRefusal at h
  simp only [Chip.applyGo, h]
  rfl

theorem Chip.applyGo_of_accepted {c : Chip} {b : Nat} (h : c.goRefusal b = none) (z tag : Nat) :
    c.applyGo b z tag = ((((c.goShown b z tag).goSide b).goRecords b).goPending b z).each
      (((((c.goShown b z tag).goSide b).goRecords b).copiesOf b).filter (((c.goShown b z tag).goSide b).goRecords b).memberAsleep)
      fun c x => c.takeEffect b z x := by
  unfold Chip.goRefusal at h
  simp only [Chip.applyGo, h]
  rfl

section
variable {c d : Chip} {b z : Nat} {l : List Nat} {ps : List Part}

theorem Chip.Keeps.goTagged (h : c.Keeps d l ps) (ha : b + z - 8 ∈ l) (hs : b + z - 4 ∈ l) (tag : Nat) : c.Keeps (d.goTagged b z tag) l ps :=
  Chip.Keeps.statusPut (h.put ha tag) hs ..

theorem Chip.Keeps.goShown (h : c.Keeps d l ps) (ha : b + z - 8 ∈ l) (hs : b + z - 4 ∈ l) (tag : Nat) : c.Keeps (d.goShown b z tag) l ps :=
  (((h.goTagged ha hs tag).statusPut hs ..).statusPut hs ..).statusPut hs ..

theorem Chip.Keeps.tbSteered (h : c.Keeps d l ps) {t : Nat} (ha : A.tb t + R.TB_STATUS ∈ l) (ht : .tbs ∈ ps) (hl : .ledger ∈ ps) :
    c.Keeps (d.tbSteered t) l ps :=
  (h.setTb ht ..).when fun _ => ((h.setTb ht ..).put (f := R.TB_STATUS_holdover) ha 0).endCond hl ..

/-- The registers beside APPLY and APPLY_STATUS that a go can change. -/
theorem Chip.Keeps.goSide (h : c.Keeps d l ps) (hb : b % 0x100 = 0) (hs : b + R.TB_STATUS ∈ l) (hv : R.AVS_STATUS ∈ l) (ht : .tbs ∈ ps)
    (hl : .ledger ∈ ps) : c.Keeps (d.goSide b) l ps := by
  have hzero : 0 + R.AVS_STATUS_stuck.off ∈ l := (Nat.zero_add _).symm ▸ hv
  have hvolt : c.Keeps (d.goVolt b) l ps := h.when fun _ => h.put hzero 0
  unfold Chip.goSide
  refine hvolt.when fun hw => hvolt.tbSteered ?_ ht hl
  have hbase : A.tb ((b - 0x40000) / 0x100) = b := by
    simp only [Bool.and_eq_true, decide_eq_true_eq] at hw
    unfold A.tb
    omega
  rw [hbase]
  exact hs

theorem Chip.Keeps.goRecords (h : c.Keeps d l ps) (hp : .records ∈ ps) : c.Keeps (d.goRecords b) l ps := by
  unfold Chip.goRecords
  split
  · exact (h.setRecs hp ..).setSnaps hp ..
  · exact h

end

/-- The device on which an accepted go then makes the apply pending. -/
def Chip.goReady (c : Chip) (b z tag : Nat) : Chip := ((c.goShown b z tag).goSide b).goRecords b

theorem Chip.keeps_goReady (c : Chip) {b : Nat} (hb : b % 0x100 = 0) (z tag : Nat) {ps : List Part} (hr : .records ∈ ps) (ht : .tbs ∈ ps)
    (hl : .ledger ∈ ps) : c.Keeps (c.goReady b z tag) [b + z - 8, b + z - 4, b + R.TB_STATUS, R.AVS_STATUS] ps :=
  (((Chip.Keeps.refl c).goShown (by simp) (by simp) tag).goSide hb (by simp) (by simp) ht hl).goRecords hr

/-- pending is set, apply_err and reason are clear, the tag is shown. -/
theorem Chip.status_goShown (c : Chip) (b z : Nat) {tag : Nat} (ht : tag < 65536) :
    bits ((c.goShown b z tag).reg (b + z - 4)) 31 30 = 2 ∧ bits ((c.goShown b z tag).reg (b + z - 4)) 23 0 = tag := by
  rw [bits_split _ (mid := 30) (by decide) (by decide), bits_split _ (hi := 23) (mid := 15) (by decide) (by decide)]
  simpa [Chip.goShown, Chip.goTagged, Chip.status_statusPut_same, Chip.status_statusPut_other] using ht

theorem Chip.reg_goReady_status (c : Chip) {a b z : Nat} (hd : domainOf a = some (b, z)) (tag : Nat) :
    (c.goReady b z tag).reg (b + z - 4) = (c.goShown b z tag).reg (b + z - 4) := by
  obtain ⟨hb, hz, hle⟩ := domainOf_aligned hd
  have hside : (c.goShown b z tag).Keeps (c.goReady b z tag) [b + R.TB_STATUS, R.AVS_STATUS] [.records, .tbs, .ledger] :=
    ((Chip.Keeps.refl _).goSide hb (by simp) (by simp) (by simp) (by simp)).goRecords (by simp)
  refine hside.1 _ ?_
  simp only [R.TB_STATUS, R.AVS_STATUS, List.mem_cons, List.not_mem_nil, or_false]
  omega

/-- What an accepted go does where no member's slice sleeps. -/
theorem Chip.applyGo_awake {c : Chip} {b z tag : Nat} (hb : b % 0x100 = 0) (h : c.goRefusal b = none) (hw : (c.copiesOf b).any c.memberAsleep = false) :
    c.applyGo b z tag =
      ((c.goReady b z tag).setSince b false).setApply b (some { snap := c.stagedAll b z, left := c.copiesOf b, since := c.now }) := by
  have hkeeps := c.keeps_goReady hb z tag (ps := [.records, .tbs, .ledger]) (by simp) (by simp) (by simp)
  have hcopies : (c.goReady b z tag).copiesOf b = c.copiesOf b := by
    simp only [Chip.copiesOf, Chip.members, Chip.suiteOf, hkeeps.image (by decide)]
  have hasleep : ((c.goReady b z tag).copiesOf b).filter (c.goReady b z tag).memberAsleep = [] := by
    rw [hcopies, List.filter_eq_nil_iff]
    simpa only [Chip.memberAsleep, hkeeps.house (by decide), List.any_eq_false] using hw
  have hstaged : (c.goReady b z tag).stagedAll b z = c.stagedAll b z := by
    rw [Chip.stagedAll, hkeeps.staged (by decide), Chip.stagedAll]
  rw [Chip.applyGo_of_accepted h, ← Chip.goReady, hasleep, Chip.each_nil, Chip.goPending, hcopies, hstaged, hkeeps.now (by decide)]

/-! ### The effect of an apply in a domain outside the slices and halves (R47) -/

section
variable {c : Chip} {b : Nat} (h : 0x14000000 ≤ b)
include h

theorem Chip.markOlder_device : c.markOlder b = c := by
  rw [Chip.markOlder, Chip.portAt_device h, Chip.porterAt_device h]

theorem Chip.actsOlder_device : c.actsOlder b = false := by
  rw [Chip.actsOlder, Chip.portAt_device h, Chip.porterAt_device h]

/-- The snapshot's values become live in the registers that it lists. -/
theorem Chip.takeRegs_single {x : Nat} {r : RegRow} (v : Word) (hx : b ≤ x) (hr : regRow x = some r) :
    c.takeRegs b b [(x, v)] = c.setReg x ((c.reg x &&& ~~~(BitVec.ofNat 64 r.sg)) ||| (v &&& BitVec.ofNat 64 r.sg)) := by
  simp only [Chip.takeRegs, schedDomain_device h, Chip.each_cons, Chip.each_nil, Nat.sub_add_cancel hx, hr]

theorem Chip.takeRegs_nil : c.takeRegs b b [] = c := by
  simp only [Chip.takeRegs, schedDomain_device h, Chip.each_nil]

/-- The only member's snapshot becomes live, and the apply ends. -/
theorem Chip.takeEffect_device {z : Nat} {a : Apply} (ha : c.applies.look b = some a) (hl : a.left = [b]) (ht : a.taken = []) :
    c.takeEffect b z b =
      (((c.afterTake (c.takeRegs b b a.snap) b).statusPut b z 31 31 0).setApply b none).setStaged
        (a.snap.foldl (fun st x => if st.look x.1 = some x.2 then st.set x.1 none else st) (c.afterTake (c.takeRegs b b a.snap) b).staged) := by
  have hin : (!(a.left.contains b)) = false := by simp [hl]
  have hnot : a.taken.contains b = false := by simp [ht]
  have hlast : (a.left.filter (· != b)).isEmpty = true := by simp [hl]
  simp only [Chip.takeEffect, ha, hin, hnot, Chip.markOlder_device h, Chip.actsOlder_device h, Chip.memberTaken, hlast, schedDomain_device h,
    if_true, Bool.false_eq_true, if_false, Chip.setStaged, Chip.setApply, Chip.statusPut_applies]

/-- The command acts where the member stands at its boundary. -/
theorem does_applyTakeEffect_device {s : State} {z : Nat} {a : Apply} {P : State → Prop} (hr : s.runs .core = true)
    (hd : domainOf b = some (b, z)) (ha : s.chip.applies.look b = some a) (hb : s.chip.quiet.atBoundary b = true)
    (hp : P { s with chip := s.chip.quiet.takeEffect b z b }) : Does (.applyTakeEffect b) s P := by
  have hpending : (s.chip.quiet.applies.look b).isNone = false := by simp [ha]
  refine Does.of_run (exec_applyTakeEffect s b) hr ?_
  simpa only [hd, Chip.domainFirst_device _ h hd, schedDomain_device h, hpending, hb, Bool.true_or, if_true, Bool.false_eq_true, if_false]
    using hp

end

theorem Chip.atBoundary_plane (c : Chip) {k : Nat} (hk : k < 4) : c.atBoundary (A.plane k) = true := by
  unfold Chip.atBoundary A.plane
  rw [if_neg (by simp; omega), if_pos (by simp; omega)]

theorem Chip.afterTake_plane (c d : Chip) {k : Nat} (hk : k < 4) : c.afterTake d (A.plane k) = d := by
  unfold Chip.afterTake A.plane
  rw [if_neg (by omega), if_neg (by omega), if_neg (by omega), if_pos (by omega)]

theorem Chip.afterTake_hbm (c d : Chip) {m : Nat} :
    c.afterTake d (A.hbm m) = d.put (A.hbm m) R.HBM_STATUS_compat (d.get (A.hbm m) R.HBM_CTRL_compat) := by
  unfold Chip.afterTake A.hbm
  rw [if_neg (by omega), if_neg (by omega), if_neg (by omega), if_neg (by omega)]

/-! ### Withdrawal (R49) -/

/-- The members of a scheduler domain drop the snapshot of their staged records. -/
def Chip.dropSnaps (c : Chip) (b : Nat) : Chip :=
  match schedDomain b with
  | some s => c.setSnaps (c.sliceMates s) []
  | none => c

theorem Chip.keeps_dropSnaps (c : Chip) (b : Nat) {l : List Nat} {ps : List Part} (hp : .records ∈ ps) : c.Keeps (c.dropSnaps b) l ps := by
  unfold Chip.dropSnaps
  split
  · exact (Chip.Keeps.refl c).setSnaps hp ..
  · exact Chip.Keeps.refl c

/-- A withdrawn apply is pending no more, and its domain shows why. -/
theorem Chip.applyWithdraw_pending {c : Chip} {b z : Nat} {d : Apply} (hd : domainOf b = some (b, z)) (ha : c.applies.look b = some d) (r : Nat) :
    c.applyWithdraw b r = (((c.dropSnaps b).setApply b none).statusPut b z 31 31 0).applyRefuse b z r := by
  simp only [Chip.applyWithdraw, hd, ha]
  rfl

/-! ### Revert (R45, R48) -/

/-- The staged copy without the registers of the domain at `b`. -/
def Chip.unstaged (c : Chip) (b z : Nat) : Tbl (Option Word) := c.staged.filter fun p => !(decide (b ≤ p.1) && decide (p.1 < b + z))

theorem Tbl.find_filter_key {α : Type} (t : Tbl α) (q : Nat → Bool) (k : Nat) :
    Tbl.find (t.filter fun x => q x.1) k = if q k then Tbl.find t k else none := by
  induction t with
  | nil => simp [Tbl.find]
  | cons x t ih =>
    by_cases hk : x.1 = k
    · subst hk
      by_cases hq : q x.1 <;> simp [hq, Tbl.find, ih]
    · by_cases hq : q x.1 <;> simp [hq, hk, Tbl.find, ih]

theorem Chip.look_unstaged (c : Chip) (b z x : Nat) : (c.unstaged b z).look x = if b ≤ x ∧ x < b + z then none else c.staged.look x := by
  unfold Chip.unstaged Tbl.look
  rw [Tbl.find_filter_key c.staged fun k => !(decide (b ≤ k) && decide (k < b + z))]
  by_cases hx : b ≤ x ∧ x < b + z
  · rw [if_neg (by simpa using hx), if_pos hx]
    rfl
  · rw [if_pos (by simpa [imp_iff_not_or] using hx), if_neg hx]

theorem Chip.staged_applyRevert (c : Chip) (b z : Nat) : (c.applyRevert b z).staged =
    (((c.applies.look b).map Apply.snap).getD []).foldl (fun t x => t.set x.1 (some (c.reg x.1))) (c.unstaged b z) := by
  unfold Chip.applyRevert
  split <;> rfl

theorem Chip.applies_applyRevert (c : Chip) (b z : Nat) : (c.applyRevert b z).applies = c.applies := by
  unfold Chip.applyRevert
  split <;> rfl

theorem Chip.keeps_applyRevert (c : Chip) (b z : Nat) : c.Keeps (c.applyRevert b z) [] [.since, .staged, .records] := by
  have hparts := fun t => ((Chip.Keeps.refl c).setSince (l := []) (ps := [.since, .staged, .records]) (by simp) b (c.applyPending b)).setStaged
    (by simp) t
  unfold Chip.applyRevert
  split
  · exact (hparts _).setRecs (by simp) ..
  · exact hparts _

/-! ### The statement, clause by clause -/

theorem applyGo_accepted {s : State} {src : Source} {b z tag : Nat} (hm : s.MayApply src b z) (ht : tag < 65536)
    (hfree : s.chip.applies.look b = none) (hheld : (s.chip.copiesOf b).any s.chip.domainHeld = false) (hchecks : s.chip.applyReasons b = [])
    (hawake : (s.chip.copiesOf b).any s.chip.memberAsleep = false) :
    Does (.applyGo src (b + z - 8) tag) s fun t =>
      (t.chip.applies.look b = some { snap := s.chip.stagedAll b z, left := s.chip.copiesOf b, since := s.chip.now }) ∧
      (∀ x, x ≠ b → t.chip.applies.look x = s.chip.applies.look x) ∧
      bits (t.chip.reg (b + z - 4)) 31 30 = 2 ∧ bits (t.chip.reg (b + z - 4)) 23 0 = tag ∧
      OnlyParts s t [b + z - 8, b + z - 4, b + R.TB_STATUS, R.AVS_STATUS] [.applies, .since, .records, .tbs, .ledger] := by
  obtain ⟨hb, -, -⟩ := domainOf_aligned hm.domain
  have hgo : s.chip.quiet.goRefusal b = none := by
    rw [Chip.goRefusal_quiet]
    simp [Chip.goRefusal, Chip.applyPending, hfree, hheld, hchecks]
  refine ⟨_, exec_applyGo_served hm tag, ?_⟩
  rw [Chip.applyGo_awake hb hgo hawake]
  have hstatus := s.chip.quiet.status_goShown b z ht
  rw [← Chip.reg_goReady_status _ hm.domain] at hstatus
  obtain ⟨hpending, htag⟩ := hstatus
  have happlies : (s.chip.quiet.goReady b z tag).applies = s.chip.applies :=
    (s.chip.quiet.keeps_goReady hb z tag (ps := [.records, .tbs, .ledger]) (by simp) (by simp) (by simp)).applies (by decide)
  refine ⟨?_, fun x hx => ?_, hpending, htag, Chip.Keeps.onlyParts ?_⟩
  · rw [Chip.setApply_applies, Tbl.look_set, if_pos rfl]
    rfl
  · rw [Chip.setApply_applies, Tbl.look_set, if_neg hx, Chip.setSince_applies, happlies]
  · exact ((s.chip.quiet.keeps_goReady hb z tag (by simp) (by simp) (by simp)).setSince (by simp) ..).setApply (by simp) ..

theorem applyGo_refused {s : State} {src : Source} {b z tag r : Nat} (hm : s.MayApply src b z) (ht : tag < 65536)
    (hgo : s.chip.goRefusal b = some r) :
    Does (.applyGo src (b + z - 8) tag) s fun t =>
      bits (t.chip.reg (b + z - 4)) 30 30 = 1 ∧ bits (t.chip.reg (b + z - 4)) 28 28 = 1 ∧ bits (t.chip.reg (b + z - 4)) 23 16 = r % 256 ∧
      bits (t.chip.reg (b + z - 4)) 15 0 = tag ∧ OnlyRegs s t [b + z - 8, b + z - 4] := by
  refine ⟨_, exec_applyGo_served hm tag, ?_⟩
  rw [Chip.applyGo_of_refused (c := s.chip.quiet) hgo]
  obtain ⟨herr, hirq, hreason, -, htag⟩ := (s.chip.quiet.goTagged b z tag).status_applyRefuse b z r
  refine ⟨herr, hirq, hreason, htag.trans ?_, ?_⟩
  · rw [Chip.goTagged, Chip.status_statusPut_same _ _ _ _ (by decide)]
    exact Nat.mod_eq_of_lt ht
  · exact (((Chip.Keeps.refl _).goTagged (by simp) (by simp) tag).applyRefuse (by simp) r).onlyRegs

theorem applyTakeEffect_plane {s : State} {k x since : Nat} {v : Word} {r : RegRow} (hr : s.runs .core = true) (hk : k < 4)
    (ha : s.chip.applies.look (A.plane k) = some { snap := [(x, v)], left := [A.plane k], since }) (hx : A.plane k ≤ x)
    (hx' : x < A.plane k + 0xFFFF8) (hrow : regRow x = some r) :
    Does (.applyTakeEffect (A.plane k)) s fun t =>
      t.chip.reg x = (s.chip.reg x &&& ~~~(BitVec.ofNat 64 r.sg)) ||| (v &&& BitVec.ofNat 64 r.sg) ∧
        t.chip.applies.look (A.plane k) = none ∧
      bits (t.chip.reg (A.plane k + 0xFFFFC)) 31 31 = 0 ∧ (s.chip.staged.look x = some v → t.chip.staged.look x = none) ∧
      OnlyParts s t [x, A.plane k + 0xFFFFC] [.applies, .staged] := by
  have hdev : 0x14000000 ≤ A.plane k := Nat.le_add_right ..
  refine does_applyTakeEffect_device hdev hr (domainOf_plane hk) ha (Chip.atBoundary_plane _ hk) ?_
  rw [Chip.takeEffect_device (c := s.chip.quiet) hdev ha rfl rfl, Chip.afterTake_plane _ _ hk, Chip.takeRegs_single hdev v hx hrow]
  refine ⟨?_, ?_, ?_, fun hv => ?_, Chip.Keeps.onlyParts ?_⟩
  · rw [Chip.reg_setStaged, Chip.reg_setApply, Chip.statusPut, Chip.reg_put_ne _ _ _ _ _ (by dsimp only; omega), Chip.reg_setReg, if_pos rfl,
      Chip.reg_quiet]
  · rw [Chip.setStaged_applies, Chip.setApply_applies, Tbl.look_set, if_pos rfl]
  · rw [Chip.reg_setStaged, Chip.reg_setApply]
    exact Chip.status_statusPut_end _ _ _ 0 (by decide) (by decide)
  · simp [hv]
  · exact ((((Chip.Keeps.refl _).setReg (by simp) _).statusPut (by simp) ..).setApply (by simp) ..).setStaged (by simp) _

theorem applyTakeEffect_hbm {s : State} {m : Nat} {d : Apply} (hr : s.runs .core = true) (hm : m < 2)
    (ha : s.chip.applies.look (A.hbm m) = some d) (hd : d.left = [A.hbm m] ∧ d.taken = [] ∧ d.snap = [])
    (hb : s.chip.quiet.atBoundary (A.hbm m) = true) :
    Does (.applyTakeEffect (A.hbm m)) s fun t =>
      t.chip.applies.look (A.hbm m) = none ∧ bits (t.chip.reg (A.hbm m + 0x3FFFFC)) 31 31 = 0 ∧
      t.chip.get (A.hbm m) R.HBM_STATUS_compat = s.chip.get (A.hbm m) R.HBM_CTRL_compat ∧
      OnlyParts s t [A.hbm m + 0x3FFFFC, A.hbm m + R.HBM_STATUS] [.applies, .staged] := by
  obtain ⟨hleft, htaken, hsnap⟩ := hd
  have hdev : 0x14000000 ≤ A.hbm m := le_trans (by decide) (Nat.le_add_right 0x15000000 _)
  refine does_applyTakeEffect_device hdev hr (domainOf_hbm hm) ha hb ?_
  rw [Chip.takeEffect_device (c := s.chip.quiet) hdev ha hleft htaken, hsnap, Chip.takeRegs_nil hdev, Chip.afterTake_hbm]
  refine ⟨?_, ?_, ?_, Chip.Keeps.onlyParts ?_⟩
  · rw [Chip.setStaged_applies, Chip.setApply_applies, Tbl.look_set, if_pos rfl]
  · rw [Chip.reg_setStaged, Chip.reg_setApply]
    exact Chip.status_statusPut_end _ _ _ 0 (by decide) (by decide)
  · rw [Chip.get, Chip.reg_setStaged, Chip.reg_setApply, ← Chip.get, Chip.statusPut,
      Chip.get_put_reg _ _ _ _ _ _ (by dsimp only [R.HBM_STATUS_compat]; omega), Chip.get_put_same _ _ _ _ (by decide), Chip.get_quiet]
    exact Nat.mod_eq_of_lt (bits_lt _ 31 31)
  · exact ((((Chip.Keeps.refl _).put (List.mem_cons_of_mem _ (List.mem_singleton.mpr rfl)) _).statusPut (by simp) ..).setApply
      (by simp) ..).setStaged (by simp) _

theorem applyTimeout_due {s : State} {a base z : Nat} {d : Apply} (hr : s.runs .core = true) (hfirst : s.chip.domainFirst a = some (base, z))
    (hd : domainOf base = some (base, z)) (ha : s.chip.applies.look base = some d) (hdue : s.chip.passedUs d.since 10000 = true) :
    Does (.applyTimeout a) s fun t =>
      t.chip.applies.look base = none ∧ (∀ x, x ≠ base → t.chip.applies.look x = s.chip.applies.look x) ∧
      bits (t.chip.reg (base + z - 4)) 31 31 = 0 ∧ bits (t.chip.reg (base + z - 4)) 30 30 = 1 ∧
      bits (t.chip.reg (base + z - 4)) 28 28 = 1 ∧ bits (t.chip.reg (base + z - 4)) 23 16 = 8 ∧
      OnlyParts s t [base + z - 4] [.applies, .records] := by
  have hfirst' : s.chip.quiet.domainFirst a = some (base, z) := hfirst
  have hdue' : s.chip.quiet.passedUs d.since 10000 = true := hdue
  refine Does.of_run (exec_applyTimeout s a) hr ?_
  simp only [hfirst', Chip.quiet_applies, ha, hdue', if_true]
  rw [Chip.applyWithdraw_pending hd (c := s.chip.quiet) ha]
  obtain ⟨herr, hirq, hreason, hpending, -⟩ :=
    Chip.status_applyRefuse (((s.chip.quiet.dropSnaps base).setApply base none).statusPut base z 31 31 0) base z 8
  have happlies : (s.chip.quiet.dropSnaps base).applies = s.chip.applies :=
    (s.chip.quiet.keeps_dropSnaps base (l := []) (ps := [.records]) (by simp)).applies (by decide)
  refine ⟨?_, fun x hx => ?_, hpending.trans ?_, herr, hirq, hreason, Chip.Keeps.onlyParts ?_⟩
  · rw [Chip.applyRefuse_applies, Chip.statusPut_applies, Chip.setApply_applies, Tbl.look_set, if_pos rfl]
  · rw [Chip.applyRefuse_applies, Chip.statusPut_applies, Chip.setApply_applies, Tbl.look_set, if_neg hx, happlies]
  · exact Chip.status_statusPut_same _ _ _ _ (by decide)
  · exact (((Chip.keeps_dropSnaps _ _ (by simp)).setApply (by simp) ..).statusPut (by simp) ..).applyRefuse (by simp) 8

theorem Chip.passedUs_eq_false {c : Chip} {t us ns : Nat} (hn : us * 1000 = ns) (h : c.now < t + ns) : c.passedUs t us = false := by
  subst hn
  exact decide_eq_false (Nat.not_le.mpr h)

theorem applyTimeout_early {s : State} {a base z : Nat} (hr : s.runs .core = true) (hfirst : s.chip.domainFirst a = some (base, z))
    (hearly : ((s.chip.applies.look base).all fun d => decide (s.chip.now < d.since + 10000000)) = true) :
    Does (.applyTimeout a) s fun t => OnlyRegs s t [] := by
  have hfirst' : s.chip.quiet.domainFirst a = some (base, z) := hfirst
  refine Does.of_run (exec_applyTimeout s a) hr ?_
  simp only [hfirst', Chip.quiet_applies]
  cases ha : s.chip.applies.look base with
  | none => exact (Chip.Keeps.refl _).onlyRegs
  | some d =>
    rw [ha, Option.all_some] at hearly
    have hnot : s.chip.quiet.passedUs d.since 10000 = false := Chip.passedUs_eq_false (by decide) (of_decide_eq_true hearly)
    simp only [hnot, Bool.false_eq_true, if_false]
    exact (Chip.Keeps.refl _).onlyRegs

theorem applyRevert_free {s : State} {src : Source} {b z : Nat} (hm : s.MayApply src b z)
    (hfree : s.chip.applies.look b = none) :
    Does (.applyRevert src (b + z - 8)) s fun t =>
      (∀ x, b ≤ x → x < b + z → t.chip.staged.look x = none) ∧ (∀ x, (x < b ∨ b + z ≤ x) → t.chip.staged.look x = s.chip.staged.look x) ∧
      OnlyParts s t [] [.since, .staged, .records] := by
  have hstaged : (s.chip.quiet.applyRevert b z).staged = s.chip.quiet.unstaged b z := by
    simp [Chip.staged_applyRevert, hfree]
  refine ⟨_, exec_applyRevert_served hm, fun x hx hx' => ?_, fun x hx => ?_, (Chip.keeps_applyRevert _ b z).onlyParts⟩
  · rw [hstaged, Chip.look_unstaged, if_pos ⟨hx, hx'⟩]
  · rw [hstaged, Chip.look_unstaged, if_neg (by omega), Chip.quiet_staged]

theorem applyRevert_pending {s : State} {src : Source} {b z x : Nat} {v : Word} {d : Apply} (hm : s.MayApply src b z)
    (ha : s.chip.applies.look b = some d) (hsnap : d.snap = [(x, v)]) :
    Does (.applyRevert src (b + z - 8)) s fun t =>
      t.chip.staged.look x = some (s.chip.reg x) ∧ (∀ y, y ≠ x → b ≤ y → y < b + z → t.chip.staged.look y = none) ∧
      t.chip.applies.look b = some d ∧ OnlyParts s t [] [.since, .staged, .records] := by
  have hstaged : (s.chip.quiet.applyRevert b z).staged = (s.chip.quiet.unstaged b z).set x (some (s.chip.reg x)) := by
    simp [Chip.staged_applyRevert, ha, hsnap]
  refine ⟨_, exec_applyRevert_served hm, ?_, fun y hy hb hz => ?_, ?_, (Chip.keeps_applyRevert _ b z).onlyParts⟩
  · rw [hstaged, Tbl.look_set, if_pos rfl]
  · rw [hstaged, Tbl.look_set, if_neg hy, Chip.look_unstaged, if_pos ⟨hb, hz⟩]
  · rw [Chip.applies_applyRevert, Chip.quiet_applies, ha]

/-- Settles O22: each clause is the lemma above of its command. -/
theorem stagedRegistersApply : Obligations.StagedRegistersApply :=
  ⟨fun _ _ _ _ _ hs hd ho ht hfree hheld hchecks hawake => applyGo_accepted ⟨hs, hd, ho⟩ ht hfree hheld hchecks hawake,
    fun _ _ _ _ _ _ hs hd ho ht hgo => applyGo_refused ⟨hs, hd, ho⟩ ht hgo,
    fun _ _ _ _ _ _ hr hk ha hx hx' hrow => applyTakeEffect_plane hr hk ha hx hx' hrow,
    fun _ _ _ hr hm ha hd hb => applyTakeEffect_hbm hr hm ha hd hb,
    fun _ _ _ _ _ hr hfirst hd ha hdue => applyTimeout_due hr hfirst hd ha hdue,
    fun _ _ _ _ hr hfirst hearly => applyTimeout_early hr hfirst hearly,
    fun _ _ _ _ hs hd ho hfree => applyRevert_free ⟨hs, hd, ho⟩ hfree,
    fun _ _ _ _ _ _ _ hs hd ho ha hsnap => applyRevert_pending ⟨hs, hd, ho⟩ ha hsnap⟩

end Sys2Proof.Machine

end

section
/-! SUPPORT. What outlasts a loss of power (spec/03_boot_and_strongroom.md R55, R70): which commands write the keepsake store and the fuses,
and how the fuses change. -/

namespace Sys2Proof.Machine

open Sys2Proof

/-! ### Commands and what lasts -/

section
variable {s t : State} {P : Nv × Fuses → Nv × Fuses → Prop} {f : Nv → Fuses → Chip → Chip × Nv × Fuses}

/-- A reflexive relation that the meaning of a command keeps holds between what lasts before and after it. -/
theorem State.runNv_rel {n : Need} (hrefl : ∀ x, P x x) (hf : ∀ nv fu c, P (nv, fu) (f nv fu c).2) (h : s.runNv n f = .next t) :
    P (s.nv, s.fuses) (t.nv, t.fuses) := by
  unfold State.runNv at h
  split_ifs at h <;> cases h
  · exact hf ..
  · exact hrefl _

theorem State.busNv_rel {src : Source} {a : Nat} {w : Bool} (hrefl : ∀ x, P x x) (hf : ∀ nv fu c, P (nv, fu) (f nv fu c).2)
    (h : s.busNv src a w f = .next t) : P (s.nv, s.fuses) (t.nv, t.fuses) := by
  refine State.runNv_rel hrefl (fun nv fu c => ?_) h
  split_ifs
  · exact hf ..
  all_goals exact hrefl _

/-- Both are as before. -/
def LastingKept (x y : Nv × Fuses) : Prop := y.1 = x.1 ∧ y.2 = x.2

theorem LastingKept.refl (x : Nv × Fuses) : LastingKept x x := ⟨rfl, rfl⟩

theorem State.run_lastingKept {n : Need} {f : Chip → Chip} (h : s.run n f = .next t) : LastingKept (s.nv, s.fuses) (t.nv, t.fuses) :=
  ⟨(State.run_frame h).1, (State.run_frame h).2.1⟩

theorem State.bus_lastingKept {src : Source} {a : Nat} {w : Bool} {f : Chip → Chip} (h : s.bus src a w f = .next t) :
    LastingKept (s.nv, s.fuses) (t.nv, t.fuses) := State.run_lastingKept h

theorem State.winGo_lastingKept {src : Source} {base op : Nat} {f : WinIn → Chip → Chip × WinRes} (h : s.winGo src base op f = .next t) :
    LastingKept (s.nv, s.fuses) (t.nv, t.fuses) := State.bus_lastingKept h

theorem State.mail_lastingKept {ch op len seq : Nat} {verdict : Option TokenCheck} {blown : Nat} {pass : Bool}
    (h : s.mail ch op len seq verdict blown pass = .next t) : LastingKept (s.nv, s.fuses) (t.nv, t.fuses) := State.run_lastingKept h

theorem State.runNv_lastingKept {n : Need} (hf : ∀ nv fu c, (f nv fu c).2 = (nv, fu)) (h : s.runNv n f = .next t) :
    LastingKept (s.nv, s.fuses) (t.nv, t.fuses) :=
  State.runNv_rel LastingKept.refl (fun nv fu c => by rw [hf]; exact .refl _) h

theorem State.busNv_lastingKept {src : Source} {a : Nat} {w : Bool} (hf : ∀ nv fu c, (f nv fu c).2 = (nv, fu))
    (h : s.busNv src a w f = .next t) : LastingKept (s.nv, s.fuses) (t.nv, t.fuses) :=
  State.busNv_rel LastingKept.refl (fun nv fu c => by rw [hf]; exact .refl _) h

end

/-- The command may write the keepsake store or the fuses. -/
def writesLasting : Instr → Bool
  | .journalWrite | .keepsakeLineWrite | .fillComplete _ | .mailboxComplete _ | .powerLoss | .pinChipReset | .reactionChipReset
  | .softwareChipReset _ _ => true
  | .registerWrite _ addr _ data => resetKey addr data
  | _ => false

theorem registerWrite_lastingKept {src : Source} {addr size : Nat} {data : Word} {s t : State} (hkey : resetKey addr data = false)
    (h : execRegisterWrite src addr size data s = .next t) : LastingKept (s.nv, s.fuses) (t.nv, t.fuses) := by
  refine State.busNv_lastingKept (fun nv fu c => ?_) h
  rw [hkey]
  split <;> rfl

theorem sweepStart_lastingKept {s t : State} (h : execSweepStart s = .next t) : LastingKept (s.nv, s.fuses) (t.nv, t.fuses) := by
  refine State.runNv_lastingKept (fun nv fu c => ?_) h
  split <;> rfl

/-- Every other command leaves both, by the way it runs: on the bus, through an indirect window, at the mailbox, or on the device. -/
theorem exec_lastingKept {c : Instr} {s t : State} (hc : writesLasting c = false) (h : exec c s = .next t) :
    LastingKept (s.nv, s.fuses) (t.nv, t.fuses) := by
  cases c with
  | journalWrite | keepsakeLineWrite | fillComplete | mailboxComplete | powerLoss | pinChipReset | reactionChipReset | softwareChipReset =>
    exact Bool.noConfusion hc
  | registerWrite => exact registerWrite_lastingKept hc h
  | sweepStart => exact sweepStart_lastingKept h
  | rcFieldRead | keepsakeRead | keepsakeWrite =>
    dsimp only [exec] at h
    exact State.busNv_lastingKept (fun _ _ _ => rfl) h
  | stack0TrainingComplete | slotCheckComplete | imageHandover | imageApplyComplete | fullTrainingComplete | controlFirmwareCheck | powerOn
  | internalRelease | systemPllLock =>
    dsimp only [exec] at h
    exact State.runNv_lastingKept (fun _ _ _ => rfl) h
  | errnRelease | injectionArm | injectionDisarm | latchkeyTake | latchkeyRelease | latchkeySuspectClear | latchkeyBreak | accordOpen
  | accordCommit | accordWithdraw | accordDiscard | accordDrainWrite | accordRetiredRead | memFill | memRemap | memRemapClear | fifoFlush
  | tbNowRead | tbPpsRead | tbRefSelect | emInsert | tcamWriteIfSeq | planeRetire | planeRestore | laneTxEqWrite | laneTestWrite
  | porterRetire | storeCheck | gclWrite | gateSwapArm | gateSwapCancel | hbmTrain | hbmFreq | selfRefreshEnter | selfRefreshExit
  | hbmRetire | hbmRetireClear | wakeCmd | irqRearm | ringEnable | ringPiWrite | ringCiWrite | coreRelease | coreHold | watchdogKick
  | sweepTrigger | applyGo | applyRevert | unitResetRelease | unitResetHold | unitReleaseHeld | suiteQuery =>
    dsimp only [exec] at h
    exact State.bus_lastingKept h
  | emRead | emSearch | emSearchPending | emWriteIfSeq | emLearn | emUnlearn | emFlushPort | emHoldFirst | bdRead | bdWrite | lpmRead
  | lpmSearch | lpmSearchPending | lpmInsert | lpmWriteIfSeq | filterRead | filterWrite | setRange | clearRange | readPart | loadPart
  | tcamSearch | objectRead | objectWrite | resetBuckets | groupHeadRead | groupHeadWriteIfSeq | schedRecordRead | schedRecordWrite
  | queueStatusRead | cellRead | reclaim =>
    dsimp only [exec] at h
    exact State.winGo_lastingKept h
  | getInfo | getRandom | getBootReport | enrolCustomerKey | revokeCustomerKey | advanceEpoch | debugChallenge | debugResponse
  | setBootSlot | bootFromHost | selfTest | attest =>
    dsimp only [exec] at h
    exact State.mail_lastingKept h
  | _ =>
    dsimp only [exec] at h
    exact State.run_lastingKept h

/-! ### The commands that write one of the two -/

theorem journalWrite_fuses {s t : State} (h : execJournalWrite s = .next t) : t.fuses = s.fuses :=
  State.runNv_rel (P := fun x y => y.2 = x.2) (fun _ => rfl) (fun nv fu c => by dsimp only; split <;> [rfl; split <;> rfl]) h

theorem keepsakeLineWrite_fuses {s t : State} (h : execKeepsakeLineWrite s = .next t) : t.fuses = s.fuses :=
  State.runNv_rel (P := fun x y => y.2 = x.2) (fun _ => rfl) (fun nv fu c => by dsimp only; split <;> [rfl; split <;> rfl]) h

theorem fillComplete_fuses {u : Nat} {s t : State} (h : execFillComplete u s = .next t) : t.fuses = s.fuses :=
  State.runNv_rel (P := fun x y => y.2 = x.2) (fun _ => rfl) (fun nv fu c => by dsimp only; split <;> [rfl; split <;> rfl]) h

theorem powerLoss_nv {s t : State} (h : execPowerLoss s = .next t) : t.nv = s.nv :=
  State.runNv_rel (P := fun x y => y.1 = x.1) (fun _ => rfl) (fun _ _ _ => rfl) h

section
variable (c : Chip) (nv : Nv) (fu : Fuses) (m : MailCmd)

theorem Chip.enrol_nv : (c.enrol nv fu m).nv = nv := by
  unfold Chip.enrol
  dsimp only
  split_ifs <;> rfl

theorem Chip.revoke_nv : (c.revoke nv fu m).nv = nv := by
  unfold Chip.revoke
  split_ifs <;> rfl

theorem Chip.advance_nv : (c.advance nv fu m).nv = nv := by
  unfold Chip.advance
  dsimp only
  split_ifs <;> rfl

theorem Chip.debugResponse_lasting : (c.debugResponse nv fu m).nv = nv ∧ (c.debugResponse nv fu m).fuses = fu := by
  unfold Chip.debugResponse
  dsimp only
  split_ifs <;> exact ⟨rfl, rfl⟩

theorem Chip.hostChunk_lasting : (c.hostChunk nv fu m).nv = nv ∧ (c.hostChunk nv fu m).fuses = fu := by
  unfold Chip.hostChunk
  dsimp only
  split_ifs <;> exact ⟨rfl, rfl⟩

/-- No mailbox command writes the keepsake store, and only the three fuse commands write the fuses. -/
theorem Chip.mailServe_lasting : (c.mailServe nv fu m).nv = nv ∧
    ((c.mailServe nv fu m).fuses = fu ∨ c.mailServe nv fu m = c.enrol nv fu m ∨ c.mailServe nv fu m = c.revoke nv fu m ∨
      c.mailServe nv fu m = c.advance nv fu m) := by
  unfold Chip.mailServe
  dsimp only
  split
  case h_4 => exact ⟨Chip.enrol_nv .., .inr (.inl rfl)⟩
  case h_5 => exact ⟨Chip.revoke_nv .., .inr (.inr (.inl rfl))⟩
  case h_6 => exact ⟨Chip.advance_nv .., .inr (.inr (.inr rfl))⟩
  case h_8 => exact ⟨(Chip.debugResponse_lasting ..).1, .inl (Chip.debugResponse_lasting ..).2⟩
  case h_10 => exact ⟨(Chip.hostChunk_lasting ..).1, .inl (Chip.hostChunk_lasting ..).2⟩
  case h_2 | h_7 | h_9 | h_11 => split_ifs <;> exact ⟨rfl, .inl rfl⟩
  all_goals exact ⟨rfl, .inl rfl⟩

theorem Chip.mailAnswer_nv (ch : Nat) : (c.mailAnswer nv fu ch).2.1 = nv := by
  unfold Chip.mailAnswer
  split_ifs
  · split
    · rfl
    · dsimp only
      split
      · rfl
      · exact (Chip.mailServe_lasting ..).1
  · rfl

end

theorem mailboxComplete_nv {ch : Nat} {s t : State} (h : execMailboxComplete ch s = .next t) : t.nv = s.nv :=
  State.runNv_rel (P := fun x y => y.1 = x.1) (fun _ => rfl) (fun _ _ _ => Chip.mailAnswer_nv ..) h

/-- Settles O7: nine commands write the one or the other, and each is one of those that the statement names. -/
theorem onlyTheseWriteWhatLasts : Obligations.OnlyTheseWriteWhatLasts := by
  intro c s t h
  cases hc : writesLasting c with
  | false =>
    obtain ⟨hnv, hfuses⟩ := exec_lastingKept hc h
    exact ⟨.inl hnv, .inl hfuses⟩
  | true =>
    cases c with
    | journalWrite => exact ⟨.inr (.inl rfl), .inl (journalWrite_fuses h)⟩
    | keepsakeLineWrite => exact ⟨.inr (.inr (.inl rfl)), .inl (keepsakeLineWrite_fuses h)⟩
    | fillComplete u => exact ⟨.inr (.inr (.inr (.inl ⟨u, rfl⟩))), .inl (fillComplete_fuses h)⟩
    | mailboxComplete ch => exact ⟨.inl (mailboxComplete_nv h), .inr (.inr (.inr ⟨ch, rfl⟩))⟩
    | powerLoss => exact ⟨.inl (powerLoss_nv h), .inr (.inr (.inl rfl))⟩
    | pinChipReset => exact ⟨.inr (.inr (.inr (.inr (.inl rfl)))), .inr (.inl (.inl rfl))⟩
    | reactionChipReset => exact ⟨.inr (.inr (.inr (.inr (.inr (.inl rfl))))), .inr (.inl (.inr (.inl rfl)))⟩
    | softwareChipReset src key =>
      have hreset : IsChipReset (.softwareChipReset src key) := .inr (.inr (.inl ⟨src, key, rfl⟩))
      exact ⟨.inr (.inr (.inr (.inr hreset))), .inr (.inl hreset)⟩
    | registerWrite src addr size data =>
      have hreset : IsChipReset (.registerWrite src addr size data) := .inr (.inr (.inr ⟨src, addr, size, data, rfl, hc⟩))
      exact ⟨.inr (.inr (.inr (.inr hreset))), .inr (.inl hreset)⟩
    | _ => cases hc

/-! ### How the fuses change (R70, R74) -/

/-- The fuses go from `a` to `b` as blowing bits of them may take them. -/
structure FusesRise (a b : Fuses) : Prop where
  vendorHash : b.vendorHash = a.vendorHash
  vendorRevoked : b.vendorRevoked = a.vendorRevoked
  debug : b.debug = a.debug
  imageKey : b.imageKey = a.imageKey
  seed : b.seed = a.seed
  uniqueId : b.uniqueId = a.uniqueId
  grade : b.grade = a.grade
  customerRevoked : BitsRise a.customerRevoked b.customerRevoked
  enrolled : BitsRise a.enrolled b.enrolled
  partly : BitsRise a.partly b.partly
  rollback : a.rollback ≤ b.rollback
  hash : ∀ i, i < 4 → a.enrolled.getLsbD i = true → b.customerHash.getD i 0 = a.customerHash.getD i 0
  spoilt : ∀ i, i < 4 → a.partly.getLsbD i = true → b.enrolled.getLsbD i = a.enrolled.getLsbD i

theorem BitsRise.refl {w : Nat} (a : BitVec w) : BitsRise a a := fun _ h => h

theorem BitsRise.or {w : Nat} (a b : BitVec w) : BitsRise a (a ||| b) := fun i h => by simp [h]

theorem getLsbD_pow_of_ne {i k : Nat} (h : i ≠ k) : (BitVec.ofNat 4 (2 ^ k)).getLsbD i = false := by
  rw [BitVec.getLsbD_ofNat, Nat.testBit_two_pow_of_ne (Ne.symm h), Bool.and_false]

theorem getD_setAt_of_ne {α : Type} (l : List α) {i k : Nat} (h : i ≠ k) (v d : α) : (setAt l k v).getD i d = l.getD i d := by
  induction l generalizing i k with
  | nil => rfl
  | cons x l ih =>
    cases k with
    | zero =>
      obtain ⟨j, rfl⟩ := Nat.exists_eq_succ_of_ne_zero h
      rfl
    | succ k =>
      cases i with
      | zero => rfl
      | succ i => exact ih (by simpa using h)

section
variable {fu : Fuses}

theorem FusesRise.refl (fu : Fuses) : FusesRise fu fu :=
  ⟨rfl, rfl, rfl, rfl, rfl, rfl, rfl, .refl _, .refl _, .refl _, le_rfl, fun _ _ _ => rfl, fun _ _ _ => rfl⟩

theorem FusesRise.rollback_add (fu : Fuses) (n : Nat) : FusesRise fu { fu with rollback := fu.rollback + n } :=
  { FusesRise.refl fu with rollback := Nat.le_add_right .. }

theorem FusesRise.revoke (fu : Fuses) (k : Nat) :
    FusesRise fu { fu with customerRevoked := fu.customerRevoked ||| BitVec.ofNat 4 (2 ^ k) } :=
  { FusesRise.refl fu with customerRevoked := .or _ _ }

/-- The bits of a slot that is not enrolled are blown in part. -/
theorem FusesRise.partlyBlown {k : Nat} (hk : fu.enrolled.getLsbD k = false) (x : Nat) (b : Bool) : FusesRise fu (partlyBlown fu k x b) := by
  unfold Machine.partlyBlown
  split_ifs
  · refine { FusesRise.refl fu with partly := .or _ _, hash := fun i _ hi => getD_setAt_of_ne _ ?_ _ _ }
    rintro rfl
    exact Bool.false_ne_true (hk.symm.trans hi)
  · exact .refl fu

/-- A slot that is neither enrolled nor partly blown is enrolled. -/
theorem FusesRise.enrol {k : Nat} (hk : fu.enrolled.getLsbD k = false) (hp : fu.partly.getLsbD k = false) (x : Nat) :
    FusesRise fu { fu with customerHash := setAt fu.customerHash k x, enrolled := fu.enrolled ||| BitVec.ofNat 4 (2 ^ k) } := by
  refine { FusesRise.refl fu with enrolled := .or _ _, hash := fun i _ hi => getD_setAt_of_ne _ ?_ _ _, spoilt := fun i _ hi => ?_ }
  · rintro rfl
    exact Bool.false_ne_true (hk.symm.trans hi)
  · have hne : i ≠ k := by
      rintro rfl
      exact Bool.false_ne_true (hp.symm.trans hi)
    rw [BitVec.getLsbD_or, getLsbD_pow_of_ne hne, Bool.or_false]

theorem enrolStatus_eq_zero {m : MailCmd} (h : enrolStatus fu m = 0) : fu.enrolled.getLsbD m.arg = false ∧ fu.partly.getLsbD m.arg = false := by
  unfold enrolStatus at h
  split_ifs at h with _ hslot
  simpa [bit] using hslot

variable (c : Chip) (nv : Nv) (m : MailCmd)

theorem Chip.enrol_fusesRise : FusesRise fu (c.enrol nv fu m).fuses := by
  unfold Chip.enrol
  dsimp only
  split_ifs with hstatus
  · exact .refl fu
  all_goals obtain ⟨henrolled, hpartly⟩ := enrolStatus_eq_zero (by simpa using hstatus)
  · exact .enrol henrolled hpartly _
  all_goals exact .partlyBlown henrolled ..

theorem Chip.revoke_fusesRise : FusesRise fu (c.revoke nv fu m).fuses := by
  unfold Chip.revoke
  split_ifs
  · exact .refl fu
  · exact .refl fu
  · exact .revoke ..

theorem Chip.advance_fusesRise : FusesRise fu (c.advance nv fu m).fuses := by
  unfold Chip.advance
  dsimp only
  split_ifs <;> exact .rollback_add ..

theorem Chip.mailServe_fusesRise : FusesRise fu (c.mailServe nv fu m).fuses := by
  obtain h | h | h | h := (Chip.mailServe_lasting c nv fu m).2 <;> rw [h]
  · exact .refl fu
  · exact Chip.enrol_fusesRise ..
  · exact Chip.revoke_fusesRise ..
  · exact Chip.advance_fusesRise ..

theorem Chip.mailAnswer_fusesRise (ch : Nat) : FusesRise fu (c.mailAnswer nv fu ch).2.2 := by
  unfold Chip.mailAnswer
  split_ifs
  · split
    · exact .refl fu
    · dsimp only
      split
      · exact .refl fu
      · exact Chip.mailServe_fusesRise ..
  · exact .refl fu

/-- A fuse command that is cut off has blown some of its bits. -/
theorem Chip.cutFuses_fusesRise : FusesRise fu (c.cutFuses fu).2 := by
  unfold Chip.cutFuses
  split
  · exact .refl fu
  · dsimp only
    split
    · exact .refl fu
    · split
      · split_ifs with hstatus
        · exact .partlyBlown (enrolStatus_eq_zero hstatus).1 ..
        · exact .refl fu
      · split_ifs
        · exact .revoke ..
        · exact .refl fu
      · exact .rollback_add ..
      · exact .refl fu

theorem Chip.chipReset_fusesRise (pin : Bool) (cause : Nat) : FusesRise fu (c.chipReset nv fu pin cause).2.2 := Chip.cutFuses_fusesRise _

end

theorem powerLoss_fusesRise {s t : State} (h : execPowerLoss s = .next t) : FusesRise s.fuses t.fuses :=
  State.runNv_rel (P := fun x y => FusesRise x.2 y.2) (fun _ => .refl _) (fun _ _ _ => Chip.cutFuses_fusesRise _) h

theorem mailboxComplete_fusesRise {ch : Nat} {s t : State} (h : execMailboxComplete ch s = .next t) : FusesRise s.fuses t.fuses :=
  State.runNv_rel (P := fun x y => FusesRise x.2 y.2) (fun _ => .refl _) (fun _ _ _ => Chip.mailAnswer_fusesRise ..) h

theorem pinChipReset_fusesRise {s t : State} (h : execPinChipReset s = .next t) : FusesRise s.fuses t.fuses := by
  refine State.runNv_rel (P := fun x y => FusesRise x.2 y.2) (fun _ => .refl _) (fun nv fu c => ?_) h
  split
  · exact Chip.chipReset_fusesRise _ _ true (if c.power.halted then 4 else 1)
  · exact .refl _

theorem reactionChipReset_fusesRise {s t : State} (h : execReactionChipReset s = .next t) : FusesRise s.fuses t.fuses := by
  refine State.runNv_rel (P := fun x y => FusesRise x.2 y.2) (fun _ => .refl _) (fun _ _ _ => ?_) h
  split_ifs
  · exact Chip.chipReset_fusesRise ..
  · exact .refl _

theorem softwareChipReset_fusesRise {src : Source} {key : Nat} {s t : State} (h : execSoftwareChipReset src key s = .next t) :
    FusesRise s.fuses t.fuses := by
  refine State.busNv_rel (P := fun x y => FusesRise x.2 y.2) (fun _ => .refl _) (fun _ _ _ => ?_) h
  split_ifs
  · exact Chip.chipReset_fusesRise ..
  · exact .refl _

theorem registerWrite_fusesRise {src : Source} {addr size : Nat} {data : Word} {s t : State}
    (h : execRegisterWrite src addr size data s = .next t) : FusesRise s.fuses t.fuses := by
  refine State.busNv_rel (P := fun x y => FusesRise x.2 y.2) (fun _ => .refl _) (fun _ _ _ => ?_) h
  split_ifs
  · exact .refl _
  · exact Chip.chipReset_fusesRise ..
  · exact .refl _

theorem isChipReset_fusesRise {c : Instr} (hc : IsChipReset c) {s t : State} (h : exec c s = .next t) : FusesRise s.fuses t.fuses := by
  obtain rfl | rfl | ⟨src, key, rfl⟩ | ⟨src, addr, size, data, rfl, -⟩ := hc
  · exact pinChipReset_fusesRise h
  · exact reactionChipReset_fusesRise h
  · exact softwareChipReset_fusesRise h
  · exact registerWrite_fusesRise h

theorem exec_fusesRise {c : Instr} {s t : State} (h : exec c s = .next t) : FusesRise s.fuses t.fuses := by
  obtain hkept | hreset | rfl | ⟨ch, rfl⟩ := (onlyTheseWriteWhatLasts c s t h).2
  · rw [hkept]
    exact .refl _
  · exact isChipReset_fusesRise hreset h
  · exact powerLoss_fusesRise h
  · exact mailboxComplete_fusesRise h

/-- Settles O6: a fuse command blows bits of a slot that is neither enrolled nor spoilt, revokes a slot or raises the count; a chip reset
or a loss of power blows some of the bits that it would have blown. -/
theorem fusesOnlyRise : Obligations.FusesOnlyRise := by
  intro s t h
  have hrise : FusesRise s.fuses t.fuses := by
    unfold step at h
    split at h
    · cases h
      exact .refl _
    next _ rest _ => exact exec_fusesRise (s := { s with pending := rest }) h
  obtain ⟨h1, h2, h3, h4, h5, h6, h7, h8, h9, h10, h11, h12, h13⟩ := hrise
  exact ⟨h1, h2, h3, h4, h5, h6, h7, h8, h9, h10, h11, h12, h13⟩

end Sys2Proof.Machine
end

section
/-! SUPPORT. The machine right after power-on reset (spec/03_boot_and_strongroom.md R53, spec/01_architecture.md R24). -/

namespace Sys2Proof.Machine

open Sys2Proof

/-- The register tables of the regions; the reserved regions have none. -/
def regTables : List (List RegRow) :=
  [[], RegTable.globalRows, RegTable.sliceRows, RegTable.halfRows, RegTable.planeRows, RegTable.hbmRows, RegTable.mboxRows, RegTable.groupRows]

theorem regRegion_mem_regTables (a : Nat) : (regRegion a).1 ∈ regTables := by
  unfold regRegion
  split_ifs <;> simp [regTables]

/-- Every counter starts at 0. -/
theorem rst_of_counter : ∀ l ∈ regTables, ∀ r ∈ l, r.counter = true → r.rst = 0 := by
  decide +kernel

theorem regReset_of_counter {a : Nat} {r : RegRow} (h : regRow a = some r) (hc : r.counter = true) : regReset a = 0 := by
  have hrst : r.rst = 0 := rst_of_counter _ (regRegion_mem_regTables a) r (List.mem_of_find?_eq_some h) hc
  rw [regReset, h, Option.map_some, Option.getD_some, hrst]
  rfl

theorem reset_nv_ok : State.reset.nv.ok := ⟨rfl, rfl, rfl, by decide, fun _ => Nat.succ_pos _, fun _ => Nat.succ_pos _⟩

/-- Settles O4: nothing is listed in the tables of the state, so every register reads its reset value and every table its default. -/
theorem resetState : Obligations.ResetState := by
  refine ⟨fun _ => rfl, fun a r h hc => regReset_of_counter h hc, fun k => ⟨rfl, rfl⟩, ?prio, ?starve, ?wake, ?image, rfl, rfl, rfl, rfl, rfl,
    rfl, reset_nv_ok⟩
  case prio | starve | wake | image => decide

end Sys2Proof.Machine
end

section
/-! SUPPORT. The strongroom (spec/03_boot_and_strongroom.md R67 to R69): its state, BOOT_STATUS and IMAGE_STATUS, and its halts. -/

namespace Sys2Proof.Machine

open Sys2Proof

theorem zero_add_mem {a : Nat} {l : List Nat} (h : a ∈ l) : 0 + a ∈ l := (Nat.zero_add a).symm ▸ h

theorem ne_zero_add {a b : Nat} (h : a ≠ b) : a ≠ 0 + b := (Nat.zero_add b).symm ▸ h

/-! ### The strongroom's updates -/

section
variable (c : Chip)

@[simp] theorem Chip.setRoom_room (r : Strongroom) : (c.setRoom r).room = r := rfl
@[simp] theorem Chip.setRoom_ledger (r : Strongroom) : (c.setRoom r).ledger = c.ledger := rfl
@[simp] theorem Chip.setRoom_image (r : Strongroom) : (c.setRoom r).image = c.image := rfl
@[simp] theorem Chip.reg_setRoom (r : Strongroom) (a : Nat) : (c.setRoom r).reg a = c.reg a := rfl
@[simp] theorem Chip.get_setRoom (r : Strongroom) (b : Nat) (f : Fld) : (c.setRoom r).get b f = c.get b f := rfl
@[simp] theorem Chip.setStage_room (n : Nat) : (c.setStage n).room = c.room := Chip.put_room ..
@[simp] theorem Chip.setStage_ledger (n : Nat) : (c.setStage n).ledger = c.ledger := Chip.put_ledger ..
@[simp] theorem Chip.setStage_image (n : Nat) : (c.setStage n).image = c.image := Chip.put_image ..
@[simp] theorem Chip.imageState_room (st re se : Nat) : (c.imageState st re se).room = c.room := by
  rw [Chip.imageState, Chip.put_room, Chip.put_room, Chip.put_room]
@[simp] theorem Chip.imageState_ledger (st re se : Nat) : (c.imageState st re se).ledger = c.ledger := by
  rw [Chip.imageState, Chip.put_ledger, Chip.put_ledger, Chip.put_ledger]
@[simp] theorem Chip.imageState_image (st re se : Nat) : (c.imageState st re se).image = c.image := by
  rw [Chip.imageState, Chip.put_image, Chip.put_image, Chip.put_image]

/-- BOOT_STATUS.stage shows the stage that was set. -/
theorem Chip.stage_setStage {n : Nat} (h : n < 16) : (c.setStage n).get 0 R.BOOT_STATUS_stage = n :=
  (Chip.get_put_same c 0 R.BOOT_STATUS_stage n (by decide)).trans (Nat.mod_eq_of_lt h)

/-- A field of BOOT_STATUS below the stage, and any field of another register, stays as the stage is set. -/
theorem Chip.get_setStage (n : Nat) {b : Nat} {f : Fld} (h : b + f.off ≠ R.BOOT_STATUS ∨ f.hi < 28) : (c.setStage n).get b f = c.get b f := by
  obtain h | h := h
  · exact Chip.get_put_reg _ _ _ _ _ _ h
  · exact Chip.get_put_field _ _ _ _ _ _ ⟨by decide, by omega, .inl h⟩

theorem Chip.reg_imageState (st re se : Nat) {a : Nat} (h : a ≠ R.IMAGE_STATUS) : (c.imageState st re se).reg a = c.reg a := by
  rw [Chip.imageState, Chip.reg_put_ne _ _ _ _ _ (ne_zero_add h), Chip.reg_put_ne _ _ _ _ _ (ne_zero_add h),
    Chip.reg_put_ne _ _ _ _ _ (ne_zero_add h)]

theorem Chip.get_imageState (st re se : Nat) {b : Nat} {f : Fld} (h : b + f.off ≠ R.IMAGE_STATUS) :
    (c.imageState st re se).get b f = c.get b f := by
  rw [Chip.get, Chip.reg_imageState _ _ _ _ h, Chip.get]

/-- What IMAGE_STATUS shows. -/
theorem Chip.imageState_shown {st re se : Nat} (hst : st < 8) (hre : re < 256) (hse : se < 256) :
    (c.imageState st re se).get 0 R.IMAGE_STATUS_state = st ∧ (c.imageState st re se).get 0 R.IMAGE_STATUS_reason = re ∧
      (c.imageState st re se).get 0 R.IMAGE_STATUS_section = se := by
  simp (disch := decide) only [Chip.imageState, Chip.get_put_same, Chip.get_put_field]
  exact ⟨Nat.mod_eq_of_lt hst, Nat.mod_eq_of_lt hre, Nat.mod_eq_of_lt hse⟩

end

section
variable {c d : Chip} {l : List Nat} {ps : List Part}

theorem Chip.Keeps.setRoom (h : c.Keeps d l ps) (hp : .room ∈ ps) (r : Strongroom) : c.Keeps (d.setRoom r) l ps :=
  h.update (f := (·.setRoom r)) hp rfl (fun _ => rfl) (fun _ q _ => by cases q <;> trivial) fun _ => rfl

theorem Chip.Keeps.report (h : c.Keeps d l ps) (hp : .ledger ∈ ps) (u k v : Nat) (x : Nat := 0) (i : Bool := false) :
    c.Keeps (d.report u k v x i) l ps := h.setLedger hp _

/-- A field of a global register. -/
theorem Chip.Keeps.putGlobal (h : c.Keeps d l ps) {f : Fld} {a : Nat} (hf : f.off = a) (ha : a ∈ l) (n : Nat) : c.Keeps (d.put 0 f n) l ps :=
  h.put (zero_add_mem (hf ▸ ha)) n

theorem Chip.Keeps.setStage (h : c.Keeps d l ps) (ha : R.BOOT_STATUS ∈ l) (n : Nat) : c.Keeps (d.setStage n) l ps :=
  h.putGlobal rfl ha n

theorem Chip.Keeps.imageState (h : c.Keeps d l ps) (ha : R.IMAGE_STATUS ∈ l) (st re se : Nat) : c.Keeps (d.imageState st re se) l ps :=
  ((h.putGlobal rfl ha st).putGlobal rfl ha re).putGlobal rfl ha se

end

/-! ### Halts (R68) -/

/-- The strongroom halts: before E0 the image reads failed. -/
theorem Chip.roomHalt_of_running {c : Chip} (h : c.room.halted = false) (kind : Nat) :
    c.roomHalt kind = (((c.setRoom { c.room with halted := true, nonce := none }).report roomUnit kind 5).setStage 0xF).when (!c.room.e0)
      fun c => c.imageState 4 0x14 headerSection := by
  simp only [Chip.roomHalt, h, Bool.false_eq_true, if_false, Chip.setStage_room, Chip.report_room, Chip.setRoom_room]

theorem Chip.roomHalt_of_halted {c : Chip} (h : c.room.halted = true) (kind : Nat) : c.roomHalt kind = c := by
  rw [Chip.roomHalt, if_pos h]

section
variable {c : Chip} (h : c.room.halted = false) (kind : Nat)
include h

theorem Chip.roomHalt_room : (c.roomHalt kind).room = { c.room with halted := true, nonce := none } := by
  rw [Chip.roomHalt_of_running h]
  cases c.room.e0
  · rw [Bool.not_false, Chip.when_true, Chip.imageState_room, Chip.setStage_room, Chip.report_room, Chip.setRoom_room]
  · rw [Bool.not_true, Chip.when_false, Chip.setStage_room, Chip.report_room, Chip.setRoom_room]

theorem Chip.roomHalt_ledger : (c.roomHalt kind).ledger = c.sent [c.msgOf roomUnit kind 5] := by
  rw [Chip.roomHalt_of_running h]
  cases c.room.e0
  · rw [Bool.not_false, Chip.when_true, Chip.imageState_ledger, Chip.setStage_ledger, Chip.report_ledger]
    rfl
  · rw [Bool.not_true, Chip.when_false, Chip.setStage_ledger, Chip.report_ledger]
    rfl

theorem Chip.roomHalt_stage : (c.roomHalt kind).get 0 R.BOOT_STATUS_stage = 15 := by
  rw [Chip.roomHalt_of_running h]
  cases c.room.e0
  · rw [Bool.not_false, Chip.when_true, Chip.get_imageState _ _ _ _ (by decide), Chip.stage_setStage _ (by decide)]
  · rw [Bool.not_true, Chip.when_false, Chip.stage_setStage _ (by decide)]

/-- After E0 the halt leaves IMAGE_STATUS. -/
theorem Chip.roomHalt_image_kept (he : c.room.e0 = true) : (c.roomHalt kind).reg R.IMAGE_STATUS = c.reg R.IMAGE_STATUS := by
  rw [Chip.roomHalt_of_running h, he, Bool.not_true, Chip.when_false]
  exact Chip.reg_put_ne _ _ _ _ _ (by decide)

/-- Before E0 the image reads failed with reason 0x14. -/
theorem Chip.roomHalt_image_failed (he : c.room.e0 = false) :
    (c.roomHalt kind).get 0 R.IMAGE_STATUS_state = 4 ∧ (c.roomHalt kind).get 0 R.IMAGE_STATUS_reason = 0x14 := by
  rw [Chip.roomHalt_of_running h, he, Bool.not_false, Chip.when_true]
  obtain ⟨hstate, hreason, -⟩ := Chip.imageState_shown (((c.setRoom { c.room with halted := true, nonce := none }).report roomUnit kind
    5).setStage 0xF) (st := 4) (re := 0x14) (se := headerSection) (by decide) (by decide) (by decide)
  exact ⟨hstate, hreason⟩

end

theorem Chip.Keeps.roomHalt {c d : Chip} {l : List Nat} {ps : List Part} (h : c.Keeps d l ps) (hb : R.BOOT_STATUS ∈ l) (hi : R.IMAGE_STATUS ∈ l)
    (hr : .room ∈ ps) (hl : .ledger ∈ ps) (kind : Nat) : c.Keeps (d.roomHalt kind) l ps := by
  cases hh : d.room.halted with
  | true => rwa [Chip.roomHalt_of_halted hh]
  | false =>
    have hset := ((h.setRoom hr { d.room with halted := true, nonce := none }).report hl roomUnit kind 5).setStage hb 0xF
    rw [Chip.roomHalt_of_running hh]
    exact hset.when fun _ => hset.imageState hi ..

/-! ### The statement, clause by clause -/

/-- An event that halts the strongroom of a released device. -/
theorem does_roomHalt {i : Instr} {s : State} {kind : Nat}
    (he : exec i s = s.run .aon fun c => if c.power.released then c.roomHalt kind else c) (hr : s.runs .aon = true)
    (hrel : s.chip.power.released = true) (hrun : s.chip.room.halted = false) :
    Does i s fun t =>
      t.chip.room = { s.chip.room with halted := true, nonce := none } ∧ t.chip.get 0 R.BOOT_STATUS_stage = 15 ∧
      (s.chip.room.e0 = true → t.chip.reg R.IMAGE_STATUS = s.chip.reg R.IMAGE_STATUS) ∧
      (s.chip.room.e0 = false → t.chip.get 0 R.IMAGE_STATUS_state = 4 ∧ t.chip.get 0 R.IMAGE_STATUS_reason = 0x14) ∧
      t.chip.ledger = s.chip.sent [s.chip.msgOf roomUnit kind 5] ∧ OnlyParts s t [R.BOOT_STATUS, R.IMAGE_STATUS] [.room, .ledger] := by
  have hrun' : s.chip.quiet.room.halted = false := hrun
  refine Does.of_run he hr ?_
  simp only [Chip.quiet_power, hrel, if_true]
  exact ⟨Chip.roomHalt_room hrun' kind, Chip.roomHalt_stage hrun' kind, Chip.roomHalt_image_kept hrun' kind,
    Chip.roomHalt_image_failed hrun' kind, Chip.roomHalt_ledger hrun' kind,
    ((Chip.Keeps.refl _).roomHalt (by simp) (by simp) (by simp) (by simp) kind).onlyParts⟩

/-- A strongroom that has halted, or of a device not released, takes no notice of it. -/
theorem does_roomHalt_idle {i : Instr} {s : State} {kind : Nat}
    (he : exec i s = s.run .aon fun c => if c.power.released then c.roomHalt kind else c) (hr : s.runs .aon = true)
    (hidle : s.chip.power.released = false ∨ s.chip.room.halted = true) : Does i s fun t => OnlyRegs s t [] := by
  refine Does.of_run he hr ?_
  obtain hrel | hhalt := hidle
  · simp only [Chip.quiet_power, hrel, Bool.false_eq_true, if_false]
    exact (Chip.Keeps.refl _).onlyRegs
  · rw [Chip.roomHalt_of_halted (c := s.chip.quiet) hhalt, ite_self]
    exact (Chip.Keeps.refl _).onlyRegs

theorem trngHealth_fails {s : State} (hr : s.runs .aon = true) (hrel : s.chip.power.released = true) (hrun : s.chip.room.halted = false)
    (hgood : s.chip.room.trngBad = false) :
    Does .trngHealth s fun t =>
      t.chip.room = { s.chip.room with trngBad := true } ∧ t.chip.ledger = s.chip.sent [s.chip.msgOf roomUnit K.trngHealth 2] ∧
        OnlyParts s t [] [.room, .ledger] := by
  refine Does.of_run (exec_trngHealth s) hr ?_
  simp only [Chip.quiet_power, Chip.quiet_room, hrel, hrun, hgood, Bool.not_false, Bool.and_true, if_true]
  exact ⟨rfl, rfl, (((Chip.Keeps.refl _).setRoom (by simp) _).report (by simp) ..).onlyParts⟩

theorem trngHealth_idle {s : State} (hr : s.runs .aon = true)
    (hidle : s.chip.power.released = false ∨ s.chip.room.halted = true ∨ s.chip.room.trngBad = true) :
    Does .trngHealth s fun t => OnlyRegs s t [] := by
  have hno : (s.chip.quiet.power.released && !s.chip.quiet.room.halted && !s.chip.quiet.room.trngBad) = false := by
    obtain h | h | h := hidle <;> simp [h]
  refine Does.of_run (exec_trngHealth s) hr ?_
  simp only [hno, Bool.false_eq_true, if_false]
  exact (Chip.Keeps.refl _).onlyRegs

theorem trngHealthRecover_recovers {s : State} (hr : s.runs .aon = true) :
    Does .trngHealthRecover s fun t => t.chip.room = { s.chip.room with trngBad := false } ∧ OnlyParts s t [] [.room] :=
  Does.of_run (exec_trngHealthRecover s) hr ⟨rfl, ((Chip.Keeps.refl _).setRoom (by simp) _).onlyParts⟩

/-- Settles O26: each clause is the lemma above of its event. -/
theorem strongroomHalts : Obligations.StrongroomHalts :=
  ⟨fun s hr hrel hrun => does_roomHalt (exec_strongroomTamper s) hr hrel hrun,
    fun s hr hrel hrun => does_roomHalt (exec_strongroomSelftest s) hr hrel hrun,
    fun _ hr hrel hrun hgood => trngHealth_fails hr hrel hrun hgood,
    fun _ hr => trngHealthRecover_recovers hr,
    fun s hr hidle => does_roomHalt_idle (exec_strongroomTamper s) hr hidle,
    fun s hr hidle => does_roomHalt_idle (exec_strongroomSelftest s) hr hidle,
    fun _ hr hidle => trngHealth_idle hr hidle⟩

end Sys2Proof.Machine
end

section
/-! SUPPORT. Mailbox commands (spec/03_boot_and_strongroom.md R72, R73): what a write of one does. -/

namespace Sys2Proof.Machine

open Sys2Proof

/-- A field of another register of the same block. -/
theorem Chip.get_put_off (c : Chip) (b : Nat) (f f' : Fld) (n : Nat) (h : f'.off ≠ f.off) : (c.put b f n).get b f' = c.get b f' :=
  Chip.get_put_reg _ _ _ _ _ _ fun he => h (Nat.add_left_cancel he)

/-! ### A go -/

/-- The command that a go leaves in the order: its request stands in the data area. -/
def Chip.mailCmd (c : Chip) (ch op len seq : Nat) (verdict : Option TokenCheck) (blown : Nat) (pass : Bool) : MailCmd :=
  { op, seq, len, req := c.room.data.bytes (ch * 0x400) (Nat.min len 1024), verdict, blown, pass,
    excluded := fuseOps.contains op && c.programming (1 - ch) }

/-- The strongroom with a command at the end of its order. -/
def Strongroom.take (r : Strongroom) (ch : Nat) (m : MailCmd) : Strongroom := { r with order := r.order ++ [ch], cmds := r.cmds.set ch (some m) }

/-- The channel's registers as a go leaves them. -/
def Chip.mailShown (c : Chip) (b op len seq : Nat) : Chip :=
  (((c.put b R.MBX_CMD_req_len len).put b R.MBX_CMD_seq seq).put b R.MBX_CMD_opcode op).put b R.MBX_STATUS_busy 1

section
variable (c : Chip)

/-- A device in whose strongroom a command has joined the order. -/
def Chip.taken (ch op len seq : Nat) (v : Option TokenCheck) (n : Nat) (b : Bool) : Chip :=
  c.setRoom (c.room.take ch (c.mailCmd ch op len seq v n b))

/-- The command depends on the strongroom alone. -/
theorem Chip.mailCmd_of_room {c d : Chip} (h : d.room = c.room) : d.mailCmd = c.mailCmd := by
  funext ch op len seq v n b
  rw [Chip.mailCmd, Chip.mailCmd, Chip.programming, Chip.programming, h]

@[simp] theorem Chip.mailShown_room (b op len seq : Nat) : (c.mailShown b op len seq).room = c.room := by
  rw [Chip.mailShown, Chip.put_room, Chip.put_room, Chip.put_room, Chip.put_room]

/-- What the channel's registers show after a go. -/
theorem Chip.get_mailShown (b : Nat) {op len seq : Nat} (hop : op < 256) (hlen : len < 4096) (hseq : seq < 256) :
    (c.mailShown b op len seq).get b R.MBX_CMD_req_len = len ∧ (c.mailShown b op len seq).get b R.MBX_CMD_seq = seq ∧
      (c.mailShown b op len seq).get b R.MBX_STATUS_busy = 1 ∧ (c.mailShown b op len seq).get b R.MBX_CMD_opcode = op := by
  simp (disch := decide) only [Chip.mailShown, Chip.get_put_off, Chip.get_put_same, Chip.get_put_field]
  exact ⟨Nat.mod_eq_of_lt hlen, Nat.mod_eq_of_lt hseq, rfl, Nat.mod_eq_of_lt hop⟩

/-- A free channel takes the command. -/
theorem Chip.mailGo_free {ch op len seq : Nat} (hch : ch < 2) (hfree : c.get (A.mbox ch) R.MBX_STATUS_busy = 0) (hlen : len < 4096)
    (hseq : seq < 256) (v : Option TokenCheck) (n : Nat) (b : Bool) :
    c.mailGo ch op len seq v n b =
      (c.mailShown (A.mbox ch) op len seq).setRoom (c.room.take ch (c.mailCmd ch op len seq v n b)) := by
  have hnot : ¬(decide (2 ≤ ch) || c.on (A.mbox ch) R.MBX_STATUS_busy) = true := by simp [Chip.on, hfree, hch]
  have hroom := c.mailShown_room (A.mbox ch) op len seq
  rw [Chip.mailGo]
  dsimp only
  rw [if_neg hnot, Nat.mod_eq_of_lt hlen, Nat.mod_eq_of_lt hseq, ← Chip.mailCmd_of_room hroom, ← hroom]
  change _ = (c.mailShown (A.mbox ch) op len seq).taken ch op len seq v n b
  -- The registers are the same on both sides: they need not be evaluated.
  rw [Chip.mailShown]
  generalize (((c.put (A.mbox ch) R.MBX_CMD_req_len len).put (A.mbox ch) R.MBX_CMD_seq seq).put (A.mbox ch) R.MBX_CMD_opcode op).put
    (A.mbox ch) R.MBX_STATUS_busy 1 = d
  rfl

/-- A busy channel, or one that does not exist, ignores it. -/
theorem Chip.mailGo_ignored {ch : Nat} (h : 2 ≤ ch ∨ c.get (A.mbox ch) R.MBX_STATUS_busy = 1) (op len seq : Nat) (v : Option TokenCheck)
    (n : Nat) (b : Bool) : c.mailGo ch op len seq v n b = c := by
  have hignored : (decide (2 ≤ ch) || c.on (A.mbox ch) R.MBX_STATUS_busy) = true := by
    obtain h | h := h <;> simp [Chip.on, h]
  rw [Chip.mailGo]
  exact if_pos hignored

theorem Chip.Keeps.mailShown {c d : Chip} {l : List Nat} {ps : List Part} (h : c.Keeps d l ps) {b : Nat} (hc : b + R.MBX_CMD ∈ l)
    (hs : b + R.MBX_STATUS ∈ l) (op len seq : Nat) : c.Keeps (d.mailShown b op len seq) l ps :=
  (((h.put (f := R.MBX_CMD_req_len) hc len).put (f := R.MBX_CMD_seq) hc seq).put (f := R.MBX_CMD_opcode) hc op).put
    (f := R.MBX_STATUS_busy) hs 1

end

/-! ### The statement, clause by clause -/

/-- What a mailbox command of a free channel does, its opcode and free values given. -/
theorem does_mail {i : Instr} {s : State} {ch op len seq : Nat} {v : Option TokenCheck} {n : Nat} {b : Bool}
    (he : exec i s = s.mail ch op len seq v n b) (hop : op < 256) (hr : s.runs .core = true)
    (h : ch < 2 ∧ s.chip.get (A.mbox ch) R.MBX_STATUS_busy = 0 ∧ len < 4096 ∧ seq < 256) :
    Does i s fun t =>
      t.chip.get (A.mbox ch) R.MBX_CMD_req_len = len ∧ t.chip.get (A.mbox ch) R.MBX_CMD_seq = seq ∧
        t.chip.get (A.mbox ch) R.MBX_STATUS_busy = 1 ∧ t.chip.get (A.mbox ch) R.MBX_CMD_opcode = op ∧
      t.chip.room = s.chip.room.take ch (s.chip.mailCmd ch op len seq v n b) ∧
        OnlyParts s t [A.mbox ch + R.MBX_CMD, A.mbox ch + R.MBX_STATUS] [.room] := by
  obtain ⟨hch, hfree, hlen, hseq⟩ := h
  refine Does.of_run (f := fun c => c.mailGo ch op len seq v n b) he hr ?_
  have hgo := Chip.mailGo_free s.chip.quiet hch ((Chip.get_quiet ..).trans hfree) hlen hseq v n b (op := op)
  rw [Chip.quiet_room, Chip.mailCmd_of_room s.chip.quiet_room] at hgo
  dsimp only
  rw [hgo]
  generalize A.mbox ch = p
  generalize s.chip.room.take ch (s.chip.mailCmd ch op len seq v n b) = r
  obtain ⟨hl, hs, hb, ho⟩ := Chip.get_mailShown s.chip.quiet p hop hlen hseq
  rw [Chip.get_setRoom, Chip.get_setRoom, Chip.get_setRoom, Chip.get_setRoom, Chip.setRoom_room]
  exact ⟨hl, hs, hb, ho, rfl, (((Chip.Keeps.refl _).mailShown (.head _) (.tail _ (.head _)) ..).setRoom (.head _) _).onlyParts⟩

theorem does_mail_ignored {i : Instr} {s : State} {ch op len seq : Nat} {v : Option TokenCheck} {n : Nat} {b : Bool}
    (he : exec i s = s.mail ch op len seq v n b) (hr : s.runs .core = true) (h : 2 ≤ ch ∨ s.chip.get (A.mbox ch) R.MBX_STATUS_busy = 1) :
    Does i s fun t => OnlyRegs s t [] := by
  refine Does.of_run he hr ?_
  rw [Chip.mailGo_ignored s.chip.quiet ((Chip.get_quiet ..).symm ▸ h)]
  exact (Chip.Keeps.refl _).onlyRegs

/-- Each command is a go of its channel. -/
theorem mail_of_mem {s : State} {ch len seq n : Nat} {v : TokenCheck} {b : Bool} {x : Instr}
    (h : x ∈ ([.getInfo ch len seq, .getRandom ch len seq, .getBootReport ch len seq, .enrolCustomerKey ch len seq v n,
      .revokeCustomerKey ch len seq v n, .advanceEpoch ch len seq n, .debugChallenge ch len seq, .debugResponse ch len seq v,
      .setBootSlot ch len seq, .bootFromHost ch len seq, .selfTest ch len seq b, .attest ch len seq] : List Instr)) :
    ∃ op v n b, exec x s = s.mail ch op len seq v n b := by
  simp only [List.mem_cons, List.not_mem_nil, or_false] at h
  obtain rfl | rfl | rfl | rfl | rfl | rfl | rfl | rfl | rfl | rfl | rfl | rfl := h <;> exact ⟨_, _, _, _, rfl⟩

/-- Settles O27: a command of a free channel is taken, one of another channel is ignored. -/
theorem mailboxCommandsArePosted : Obligations.MailboxCommandsArePosted :=
  ⟨fun s ch len seq => does_mail (exec_getInfo s ch len seq) (by decide),
    fun s ch len seq => does_mail (exec_getRandom s ch len seq) (by decide),
    fun s ch len seq => does_mail (exec_getBootReport s ch len seq) (by decide),
    fun s ch len seq v n => does_mail (exec_enrolCustomerKey s ch len seq v n) (by decide),
    fun s ch len seq v n => does_mail (exec_revokeCustomerKey s ch len seq v n) (by decide),
    fun s ch len seq n => does_mail (exec_advanceEpoch s ch len seq n) (by decide),
    fun s ch len seq => does_mail (exec_debugChallenge s ch len seq) (by decide),
    fun s ch len seq v => does_mail (exec_debugResponse s ch len seq v) (by decide),
    fun s ch len seq => does_mail (exec_setBootSlot s ch len seq) (by decide),
    fun s ch len seq => does_mail (exec_bootFromHost s ch len seq) (by decide),
    fun s ch len seq b => does_mail (exec_selfTest s ch len seq b) (by decide),
    fun s ch len seq => does_mail (exec_attest s ch len seq) (by decide),
    fun _ _ _ _ _ _ _ hr h _ hx =>
      have ⟨_, _, _, _, he⟩ := mail_of_mem hx
      does_mail_ignored he hr h⟩

/-! ### Answers -/

/-- SET_BOOT_SLOT of slot 0. -/
def bootSlotCmd : MailCmd :=
  { op := 9, seq := 0, len := 1, req := [0], verdict := none, blown := 0, pass := true, excluded := false }

/-- SET_BOOT_SLOT stands first in the order of channel 0 while the housekeeper's queue for the keepsake store is full. -/
def fullQueueState : State :=
  { State.reset with
    chip :=
      { power := { sysRstHigh := true, released := true, sysPll := true }
        room := { e0 := true, order := [0], cmds := [(0, some bootSlotCmd)] }
        house := { queue := List.replicate 16 (.boot 0) } } }

/-- Refutes O28, by clause 12: the queue holds 16 records, and a 17th is lost, so SET_BOOT_SLOT completes with status 0 and its slot does not
join the queue. No hypothesis of the clause leaves room in the queue. -/
theorem not_mailboxCommandsAnswer : ¬ Obligations.MailboxCommandsAnswer := by
  rintro ⟨-, -, -, -, -, -, -, -, -, -, -, hslot, -⟩
  have hruns : fullQueueState.runs .core = true := by decide +kernel
  obtain ⟨t, hexec, -, -, -, -, -, hqueue, -⟩ := hslot fullQueueState 0 bootSlotCmd hruns (by decide) rfl (by decide) (by decide)
  obtain rfl := Host.Outcome.next.inj (hexec.symm.trans ((exec_mailboxComplete fullQueueState 0).trans (State.runNv_of_runs hruns _)))
  have hlen : (fullQueueState.chip.quiet.mailAnswer fullQueueState.nv fullQueueState.fuses 0).1.house.queue.length = 16 := by decide +kernel
  exact absurd (hlen.symm.trans (congrArg List.length hqueue)) (by decide)

end Sys2Proof.Machine
end

section
/-! SUPPORT. Chip resets (spec/03_boot_and_strongroom.md R53 to R55): a device whose register table lists a counter twice. -/

namespace Sys2Proof.Machine

open Sys2Proof

/-- A counter that a chip reset keeps. -/
def twiceListed : Nat := A.plane 0 + 0xA00

/-- A powered device whose register table lists a counter twice: it reads 0, and 5 once the first entry is gone. -/
def twiceListedState : State := { State.reset with chip := { power := { sysRstHigh := true }, regs := [(twiceListed, 0), (twiceListed, 5)] } }

/-- Refutes O24, by clause 3: the clause asks no canonical form of the register table, and a chip reset drops the entries that stand at their
reset value. Of a counter listed twice, first with its reset value 0, the entry behind then shows: it reads 0 before PIN_CHIP_RESET and 5
after. `Chip.setReg` leaves one entry of its address, so the clause lacks the hypothesis that the table is canonical. -/
theorem not_chipResetsAndPower : ¬ Obligations.ChipResetsAndPower := by
  rintro ⟨-, -, hpin, -⟩
  have hruns : twiceListedState.runs .always = true := by decide +kernel
  obtain ⟨t, hexec, -, -, -, -, -, -, -, -, -, -, -, -, -, hcounters, -⟩ := hpin twiceListedState rfl rfl
  obtain rfl := Host.Outcome.next.inj (hexec.symm.trans ((exec_pinChipReset twiceListedState).trans (State.runNv_of_runs hruns _)))
  have hkept := hcounters rfl twiceListed (by decide +kernel) (by decide) (by decide)
  revert hkept
  decide +kernel

end Sys2Proof.Machine
end

section
/-! SUPPORT. The training of an HBM stack after a reset (spec/16_hbm_controller.md R355, R357): a device whose spill bundle names a requester
that does not exist. -/

namespace Sys2Proof.Machine

open Sys2Proof

/-- The requester number whose INNK_REQ_USED would stand at the address of stack 0's counter of trainings. -/
def strayRequester : Nat := (A.hbm 0 + C.trainings - (A.half 0 + R.INNK_REQ_USED)) / 4

/-- A device whose stack 0 trains after a reset (HBM_STATUS.state is 1), with 5 trainings counted. The one cell of a frame lies in bundle 0,
which is written and being fetched. -/
def strayBundleState : State :=
  { State.reset with
    chip :=
      { power := { sysRstHigh := true, released := true, sysPll := true }
        image := { applied := true }
        regs := [(A.hbm 0 + R.HBM_STATUS, 0x20000000), (A.hbm 0 + C.trainings, 5)]
        arrivals := [(1, some { places := [.bundle 0], copies := [7] })]
        copies := [(7, some { arrival := 1 })]
        innkeepers := [(0, { bundles := [(0, some { req := strayRequester, cells := [(1, 0)], written := true, fetching := true })] })] } }

/-- Refutes O25, by clause 15: pseudo-channel 0 fails, and the innkeeper drops the frame whose cell lies in one of its bundles. The cell counts
for the bundle's requester, whose used figure falls by 1; no hypothesis of the clause keeps the requester's number below 16, and here its
INNK_REQ_USED stands at the address of the counter of trainings, which so reads 5 after the training as before it. -/
theorem not_startUpAdvances : ¬ Obligations.StartUpAdvances := by
  rintro ⟨-, -, -, -, -, -, -, -, -, -, -, -, -, -, hretires, -⟩
  have hruns : strayBundleState.runs .core = true := by decide +kernel
  obtain ⟨t, hexec, -, -, htrainings, -⟩ := hretires strayBundleState 0 0 hruns (by decide) (by decide +kernel) (by decide +kernel)
    (by decide +kernel) (by decide) (by decide +kernel)
  have hrun := (exec_fullTrainingComplete strayBundleState 0 [0]).trans (State.runNv_of_runs hruns _)
  obtain rfl := Host.Outcome.next.inj (hexec.symm.trans hrun)
  revert htrainings
  decide +kernel

end Sys2Proof.Machine
end

section
/-! SUPPORT. Lanes (spec/04_ports_and_lanes.md R76 to R80): the loop over a suite's members, the addresses of lanes and of their counters,
and what each command writes. -/

namespace Sys2Proof.Machine

open Sys2Proof

/-! ### Loops -/

/-- Each turn of a loop makes `P` hold of its element, and no other turn breaks it; `Inv` holds throughout. -/
theorem Chip.each_forall {α : Type} {Inv : Chip → Prop} {P : Chip → α → Prop} {f : Chip → α → Chip} (l : List α)
    (hinv : ∀ c x, Inv c → Inv (f c x)) (hset : ∀ c, ∀ x ∈ l, Inv c → P (f c x) x) (hkeep : ∀ c x y, Inv c → P c y → P (f c x) y)
    {c : Chip} (h : Inv c) : ∀ x ∈ l, P (c.each l f) x := by
  have hlater : ∀ (l : List α) {c : Chip} {y : α}, Inv c → P c y → P (c.each l f) y := by
    intro l
    induction l with
    | nil => exact fun _ hp => hp
    | cons x l ih => exact fun hi hp => ih (hinv _ x hi) (hkeep _ x _ hi hp)
  induction l generalizing c with
  | nil => exact fun x hx => absurd hx List.not_mem_nil
  | cons y l ih =>
    intro x hx
    obtain rfl | hx := List.mem_cons.mp hx
    · exact hlater l (hinv _ _ h) (hset c _ List.mem_cons_self h)
    · exact ih (fun c x hx => hset c x (List.mem_cons_of_mem _ hx)) (hinv _ y h) x hx

theorem Chip.Keeps.each_mem {α : Type} {c d : Chip} {l : List Nat} {ps : List Part} (h : c.Keeps d l ps) (xs : List α) {f : Chip → α → Chip}
    (hf : ∀ (c : Chip), ∀ x ∈ xs, c.Keeps (f c x) l ps) : c.Keeps (d.each xs f) l ps := by
  induction xs generalizing d with
  | nil => exact h
  | cons x xs ih => exact ih (h.trans (hf d x List.mem_cons_self)) fun c y hy => hf c y (List.mem_cons_of_mem _ hy)

/-! ### Updates of one port's state and of a lane's alarm -/

def Chip.setFecAlarm (c : Chip) (q : Nat) (b : Bool) : Chip := { c with fecAlarm := c.fecAlarm.set q b }

section
variable (c : Chip)

@[simp] theorem Chip.reg_updPrt (p : Nat) (f : Port → Port) (a : Nat) : (c.updPrt p f).reg a = c.reg a := rfl
@[simp] theorem Chip.get_updPrt (p : Nat) (f : Port → Port) (b : Nat) (g : Fld) : (c.updPrt p f).get b g = c.get b g := rfl
@[simp] theorem Chip.prt_cnt (a n p : Nat) : (c.cnt a n).prt p = c.prt p := rfl
@[simp] theorem Chip.prt_quiet (p : Nat) : c.quiet.prt p = c.prt p := rfl
@[simp] theorem Chip.prt_updPrt (p : Nat) (f : Port → Port) (q : Nat) : (c.updPrt p f).prt q = if q = p then f (c.prt p) else c.prt q :=
  Tbl.look_set ..
@[simp] theorem Chip.reg_setFecAlarm (q : Nat) (b : Bool) (a : Nat) : (c.setFecAlarm q b).reg a = c.reg a := rfl
@[simp] theorem Chip.setFecAlarm_fecAlarm (q : Nat) (b : Bool) : (c.setFecAlarm q b).fecAlarm = c.fecAlarm.set q b := rfl
@[simp] theorem Chip.setFecAlarm_image (q : Nat) (b : Bool) : (c.setFecAlarm q b).image = c.image := rfl
@[simp] theorem Chip.setFecAlarm_ledger (q : Nat) (b : Bool) : (c.setFecAlarm q b).ledger = c.ledger := rfl

end

section
variable {c d : Chip} {l : List Nat} {ps : List Part}

/-- A field of a register that is not listed stays. -/
theorem Chip.Keeps.get (h : c.Keeps d l ps) {b : Nat} {f : Fld} (hb : b + f.off ∉ l) : d.get b f = c.get b f := by
  rw [Chip.get, h.1 _ hb, Chip.get]

theorem Chip.Keeps.cnt (h : c.Keeps d l ps) {a : Nat} (ha : a ∈ l) (n : Nat) : c.Keeps (d.cnt a n) l ps := h.setReg ha _

theorem Chip.Keeps.setPorts (h : c.Keeps d l ps) (hp : .ports ∈ ps) (v : Tbl Port) : c.Keeps { d with ports := v } l ps :=
  h.update (f := fun d => { d with ports := v }) hp rfl (fun _ => rfl) (fun _ q _ => by cases q <;> trivial) fun _ => rfl

theorem Chip.Keeps.setFecAlarms (h : c.Keeps d l ps) (hp : .fecAlarm ∈ ps) (v : Tbl Bool) : c.Keeps { d with fecAlarm := v } l ps :=
  h.update (f := fun d => { d with fecAlarm := v }) hp rfl (fun _ => rfl) (fun _ q _ => by cases q <;> trivial) fun _ => rfl

theorem Chip.Keeps.updPrt (h : c.Keeps d l ps) (hp : .ports ∈ ps) (p : Nat) (f : Port → Port) : c.Keeps (d.updPrt p f) l ps :=
  h.setPorts hp _

theorem Chip.Keeps.setFecAlarm (h : c.Keeps d l ps) (hp : .fecAlarm ∈ ps) (q : Nat) (b : Bool) : c.Keeps (d.setFecAlarm q b) l ps :=
  h.setFecAlarms hp _

end

/-! ### Addresses -/

/-- The block of a lane starts at a multiple of its size, so registers of lanes with different offsets never share an address. -/
theorem A.lane_mod (q : Nat) : A.lane q % 0x400 = 0 := by
  unfold A.lane A.slice
  omega

/-- In every slice the lanes lie beyond the ports. -/
theorem A.lane_add_ne_port_add (q p : Nat) {o o' : Nat} (h : o < 0x400) (h' : o' < 0x4000) : A.lane q + o ≠ A.port p + o' := by
  unfold A.lane A.port A.slice
  omega

@[simp] theorem Chip.laneCnt_quiet (c : Chip) (q : Nat) : c.quiet.laneCnt q = c.laneCnt q := rfl

theorem Chip.laneCnt_mod (c : Chip) (q : Nat) : c.laneCnt q % 0x400 = 0 := A.lane_mod _

/-- A register of a lane is no counter of a lane. -/
theorem Chip.lane_add_ne_laneCnt_add (c : Chip) (q q' : Nat) {o o' : Nat} (h : o < 0x400) (h' : o' < 0x400) (hne : o ≠ o') :
    A.lane q + o ≠ c.laneCnt q' + o' := by
  have h1 := A.lane_mod q
  have h2 := c.laneCnt_mod q'
  omega

/-! ### Transmit taps (R77) -/

/-- The taps of the lane at `b` are written. -/
def Chip.putTaps (c : Chip) (b : Nat) (data : Word) : Chip :=
  (((c.put b R.LANE_TX_EQ_pre2 (bits data 29 24)).put b R.LANE_TX_EQ_pre1 (bits data 21 16)).put b R.LANE_TX_EQ_main (bits data 13 8)).put b
    R.LANE_TX_EQ_post1 (bits data 5 0)

/-- The lane at `b` shows the taps. -/
def Chip.ShowsTaps (c : Chip) (b : Nat) (data : Word) : Prop :=
  c.get b R.LANE_TX_EQ_pre2 = bits data 29 24 ∧ c.get b R.LANE_TX_EQ_pre1 = bits data 21 16 ∧
    c.get b R.LANE_TX_EQ_main = bits data 13 8 ∧ c.get b R.LANE_TX_EQ_post1 = bits data 5 0

theorem Chip.laneTaps_of_le (c : Chip) {q : Nat} {data : Word} (hq : q < 128)
    (h : bits data 29 24 + bits data 21 16 + bits data 13 8 + bits data 5 0 ≤ 63) :
    c.laneTaps q data = c.each (c.members (U.lane q)) fun c u => c.putTaps (A.lane (U.index u)) data :=
  if_pos (by simp [hq, h])

theorem Chip.laneTaps_of_gt (c : Chip) (q : Nat) {data : Word}
    (h : 63 < bits data 29 24 + bits data 21 16 + bits data 13 8 + bits data 5 0) : c.laneTaps q data = c :=
  if_neg (by simp; omega)

theorem Chip.showsTaps_putTaps (c : Chip) (b : Nat) (data : Word) : (c.putTaps b data).ShowsTaps b data := by
  have h1 := bits_lt data 29 24
  have h2 := bits_lt data 21 16
  have h3 := bits_lt data 13 8
  have h4 := bits_lt data 5 0
  unfold Chip.ShowsTaps Chip.putTaps
  simp (disch := decide) only [Chip.get_put_same, Chip.get_put_field]
  exact ⟨Nat.mod_eq_of_lt h1, Nat.mod_eq_of_lt h2, Nat.mod_eq_of_lt h3, Nat.mod_eq_of_lt h4⟩

theorem Chip.Keeps.putTaps {c d : Chip} {l : List Nat} {ps : List Part} (h : c.Keeps d l ps) {b : Nat} (hb : b + R.LANE_TX_EQ ∈ l)
    (data : Word) : c.Keeps (d.putTaps b data) l ps :=
  (((h.put (f := R.LANE_TX_EQ_pre2) hb _).put (f := R.LANE_TX_EQ_pre1) hb _).put (f := R.LANE_TX_EQ_main) hb _).put
    (f := R.LANE_TX_EQ_post1) hb _

theorem Chip.ShowsTaps.putTaps {c : Chip} {b : Nat} {data : Word} (h : c.ShowsTaps b data) (b' : Nat) :
    (c.putTaps b' data).ShowsTaps b data := by
  by_cases hb : b' = b
  · exact hb ▸ c.showsTaps_putTaps b' data
  · have hget : ∀ f : Fld, f.off = R.LANE_TX_EQ → (c.putTaps b' data).get b f = c.get b f := fun f hf =>
      Chip.Keeps.get (Chip.Keeps.putTaps (l := [b' + R.LANE_TX_EQ]) (ps := []) (.refl c) (.head _) data) (by simpa [hf] using Ne.symm hb)
    obtain ⟨hpre2, hpre1, hmain, hpost1⟩ := h
    exact ⟨(hget _ rfl).trans hpre2, (hget _ rfl).trans hpre1, (hget _ rfl).trans hmain, (hget _ rfl).trans hpost1⟩

theorem does_laneTxEqWrite {s : State} {src : Source} {q : Nat} {data : Word} (hs : s.serves src (A.lane q + R.LANE_TX_EQ) true = true)
    (hq : q < 128) (h : bits data 29 24 + bits data 21 16 + bits data 13 8 + bits data 5 0 ≤ 63) :
    Does (.laneTxEqWrite src q data) s fun t =>
      (∀ u, u ∈ s.chip.members (U.lane q) → t.chip.ShowsTaps (A.lane (U.index u)) data) ∧
        OnlyRegs s t ((s.chip.members (U.lane q)).map fun u => A.lane (U.index u) + R.LANE_TX_EQ) := by
  refine Does.of_bus (exec_laneTxEqWrite s src q data) hs ?_
  rw [Chip.laneTaps_of_le _ hq h]
  constructor
  · exact Chip.each_forall (Inv := fun _ => True) (P := fun c u => c.ShowsTaps (A.lane (U.index u)) data) _ (fun _ _ h => h)
      (fun c _ _ _ => c.showsTaps_putTaps _ data) (fun _ _ _ _ hp => hp.putTaps _) trivial
  · refine Chip.Keeps.onlyRegs (Chip.Keeps.each_mem (.refl _) _ fun c u hu => Chip.Keeps.putTaps (.refl c) ?_ data)
    exact List.mem_map.mpr ⟨u, hu, rfl⟩

theorem laneTxEqWrite_ignored {s : State} {src : Source} {q : Nat} {data : Word} (hs : s.serves src (A.lane q + R.LANE_TX_EQ) true = true)
    (h : 63 < bits data 29 24 + bits data 21 16 + bits data 13 8 + bits data 5 0) :
    Does (.laneTxEqWrite src q data) s fun t => OnlyRegs s t [] := by
  refine Does.of_bus (exec_laneTxEqWrite s src q data) hs ?_
  rw [Chip.laneTaps_of_gt _ q h]
  exact (Chip.Keeps.refl _).onlyRegs

/-! ### Test patterns (R78) -/

/-- The port that serves a lane is disabled. -/
def Chip.laneOff (c : Chip) (q : Nat) : Bool := (c.portOfLane q).any fun r => !(c.on (A.port r.first) R.PORT_CTRL_enable)

/-- A pattern is set in a lane where it is off or the port is disabled. -/
def Chip.setPattern (c : Chip) (prbs q : Nat) : Chip :=
  if prbs % 4 = 0 || c.laneOff q then c.put (A.lane q) R.LANE_TEST_prbs prbs else c

theorem Chip.lanePattern_eq (c : Chip) {q : Nat} (hq : q < 128) (prbs : Nat) :
    c.lanePattern q prbs = c.each (c.members (U.lane q)) fun c u => c.setPattern prbs (U.index u) := by
  rw [Chip.lanePattern, if_neg (Nat.not_le.mpr hq)]
  congr 1
  funext c u
  unfold Chip.setPattern Chip.laneOff
  cases c.portOfLane (U.index u) <;> rfl

/-- A pattern changes no port's enable. -/
theorem Chip.laneOff_setPattern (c : Chip) (prbs q q' : Nat) : (c.setPattern prbs q).laneOff q' = c.laneOff q' := by
  unfold Chip.setPattern
  split_ifs
  · have hget : ∀ p, (c.put (A.lane q) R.LANE_TEST_prbs prbs).get (A.port p) R.PORT_CTRL_enable = c.get (A.port p) R.PORT_CTRL_enable :=
      fun p => Chip.get_put_reg _ _ _ _ _ _ (A.lane_add_ne_port_add q p (by decide) (by decide)).symm
    simp only [Chip.laneOff, Chip.on, hget]
    rfl
  · rfl

theorem Chip.Keeps.setPattern {c d : Chip} {l : List Nat} {ps : List Part} (h : c.Keeps d l ps) {q : Nat} (hq : A.lane q + R.LANE_TEST ∈ l)
    (prbs : Nat) : c.Keeps (d.setPattern prbs q) l ps := by
  unfold Chip.setPattern
  split_ifs
  · exact h.put (f := R.LANE_TEST_prbs) hq _
  · exact h

/-- A lane that shows the pattern goes on to show it. -/
theorem Chip.prbs_setPattern {c : Chip} {prbs q : Nat} (hp : prbs < 4) (q' : Nat) (h : c.get (A.lane q) R.LANE_TEST_prbs = prbs) :
    (c.setPattern prbs q').get (A.lane q) R.LANE_TEST_prbs = prbs := by
  unfold Chip.setPattern
  split_ifs
  · by_cases ha : A.lane q = A.lane q'
    · rw [ha, Chip.get_put_same _ _ _ _ (by decide)]
      exact Nat.mod_eq_of_lt hp
    · rwa [Chip.get_put_reg _ _ _ _ _ _ fun he => ha (Nat.add_right_cancel he)]
  · exact h

theorem Chip.prbs_setPattern_same {c : Chip} {prbs q : Nat} (hp : prbs < 4) (h : prbs = 0 ∨ c.laneOff q = true) :
    (c.setPattern prbs q).get (A.lane q) R.LANE_TEST_prbs = prbs := by
  have hmay : (decide (prbs % 4 = 0) || c.laneOff q) = true := by
    obtain h | h := h <;> simp [h]
  rw [Chip.setPattern, if_pos hmay, Chip.get_put_same _ _ _ _ (by decide)]
  exact Nat.mod_eq_of_lt hp

theorem does_laneTestWrite {s : State} {src : Source} {q prbs : Nat} (hs : s.serves src (A.lane q + R.LANE_TEST) true = true) (hq : q < 128)
    (hp : prbs < 4) (h : prbs = 0 ∨ ((s.chip.members (U.lane q)).all fun u => s.chip.laneOff (U.index u)) = true) :
    Does (.laneTestWrite src q prbs) s fun t =>
      (∀ u, u ∈ s.chip.members (U.lane q) → t.chip.get (A.lane (U.index u)) R.LANE_TEST_prbs = prbs) ∧
        OnlyRegs s t ((s.chip.members (U.lane q)).map fun u => A.lane (U.index u) + R.LANE_TEST) := by
  refine Does.of_bus (exec_laneTestWrite s src q prbs) hs ?_
  rw [Chip.lanePattern_eq _ hq]
  constructor
  · refine Chip.each_forall (Inv := fun c => ∀ x, c.laneOff x = s.chip.laneOff x)
      (P := fun c u => c.get (A.lane (U.index u)) R.LANE_TEST_prbs = prbs) _ (fun c u hc x => ?_) (fun c u hu hc => ?_)
      (fun c u v _ hv => Chip.prbs_setPattern hp _ hv) fun _ => rfl
    · exact (c.laneOff_setPattern ..).trans (hc x)
    · refine Chip.prbs_setPattern_same hp (h.imp_right fun hall => ?_)
      exact (hc _).trans (List.all_eq_true.mp hall u hu)
  · refine Chip.Keeps.onlyRegs (Chip.Keeps.each_mem (.refl _) _ fun c u hu => Chip.Keeps.setPattern (.refl c) ?_ prbs)
    exact List.mem_map.mpr ⟨u, hu, rfl⟩

/-- An enabled port, or none, is not disabled. -/
theorem Chip.laneOff_of_all {c : Chip} {q : Nat} (h : ((c.portOfLane q).all fun r => c.on (A.port r.first) R.PORT_CTRL_enable) = true) :
    c.laneOff q = false := by
  unfold Chip.laneOff
  cases hr : c.portOfLane q with
  | none => rfl
  | some r => simpa [hr] using h

theorem laneTestWrite_ignored {s : State} {src : Source} {q prbs : Nat} (hs : s.serves src (A.lane q + R.LANE_TEST) true = true)
    (hq : q < 128) (hp : prbs % 4 ≠ 0)
    (h : ((s.chip.members (U.lane q)).all fun u => (s.chip.portOfLane (U.index u)).all fun r =>
      s.chip.on (A.port r.first) R.PORT_CTRL_enable) = true) :
    Does (.laneTestWrite src q prbs) s fun t => OnlyRegs s t [] := by
  refine Does.of_bus (exec_laneTestWrite s src q prbs) hs ?_
  rw [Chip.lanePattern_eq _ hq, Chip.each_eq_self fun u hu => ?_]
  · exact (Chip.Keeps.refl _).onlyRegs
  · have hoff : s.chip.quiet.laneOff (U.index u) = false := Chip.laneOff_of_all (c := s.chip.quiet) (List.all_eq_true.mp h u hu)
    rw [Chip.setPattern, hoff, if_neg (by simpa using hp)]

/-! ### Signal, locks and adaptation (R76) -/

theorem Chip.Keeps.pcsSet {c d : Chip} {l : List Nat} {ps : List Part} (h : c.Keeps d l ps) {p : Nat} (ha : A.port p + R.PORT_STATUS ∈ l)
    (hp : .ports ∈ ps) (aligned lf rf : Bool) : c.Keeps (d.pcsSet p aligned lf rf) l ps :=
  (((h.put (f := R.PORT_STATUS_rx_aligned) ha _).put (f := R.PORT_STATUS_local_fault) ha _).put (f := R.PORT_STATUS_remote_fault) ha
    _).updPrt hp ..

theorem Chip.rx_aligned_pcsSet (c : Chip) (p : Nat) (aligned lf rf : Bool) :
    (c.pcsSet p aligned lf rf).get (A.port p) R.PORT_STATUS_rx_aligned = b2n (aligned && c.lanesLocked p) := by
  have hbit : b2n (aligned && c.lanesLocked p) < 2 := by cases aligned && c.lanesLocked p <;> decide
  rw [Chip.pcsSet, Chip.get_updPrt]
  simp (disch := decide) only [Chip.get_put_field, Chip.get_put_same]
  exact Nat.mod_eq_of_lt hbit

/-- LANE_STATUS shows signal and clock recovery. -/
def Chip.putSignal (c : Chip) (b : Nat) (present : Bool) : Chip :=
  (c.put b R.LANE_STATUS_signal_detect (b2n present)).put b R.LANE_STATUS_cdr_lock (b2n present)

/-- LANE_STATUS shows the receiver adapted and the lane locked, or not. -/
def Chip.putLocks (c : Chip) (b : Nat) (n : Nat) : Chip :=
  ((c.put b R.LANE_STATUS_adapt_done n).put b R.LANE_STATUS_block_lock n).put b R.LANE_STATUS_fec_lock n

theorem Chip.putSignal_image (c : Chip) (b : Nat) (present : Bool) : (c.putSignal b present).image = c.image := by
  rw [Chip.putSignal, Chip.put_image, Chip.put_image]

theorem Chip.putLocks_image (c : Chip) (b n : Nat) : (c.putLocks b n).image = c.image := by
  rw [Chip.putLocks, Chip.put_image, Chip.put_image, Chip.put_image]

theorem Chip.laneSignal_present (c : Chip) (q : Nat) : c.laneSignal q true = c.putSignal (A.lane q) true := rfl

/-- LANE_STATUS of a lane without signal. -/
def Chip.unlockLane (c : Chip) (q : Nat) : Chip := (c.putSignal (A.lane q) false).putLocks (A.lane q) 0

/-- A lost signal also ends the port's alignment; its faults stay. -/
theorem Chip.laneSignal_lost {c : Chip} {q : Nat} {r : PortRec} (h : c.portOfLane q = some r) :
    c.laneSignal q false = (c.unlockLane q).pcsSet r.first false ((c.unlockLane q).on (A.port r.first) R.PORT_STATUS_local_fault)
      ((c.unlockLane q).on (A.port r.first) R.PORT_STATUS_remote_fault) := by
  have hport : (c.unlockLane q).portOfLane q = some r := by
    rwa [Chip.portOfLane, Chip.unlockLane, Chip.putLocks_image, Chip.putSignal_image]
  rw [Chip.laneSignal]
  simp only [Bool.false_eq_true, if_false]
  rw [← Chip.putSignal, ← Chip.putLocks, ← Chip.unlockLane, hport]

section
variable (c : Chip) (b : Nat)

theorem Chip.get_putSignal (present : Bool) :
    (c.putSignal b present).get b R.LANE_STATUS_signal_detect = b2n present ∧
      (c.putSignal b present).get b R.LANE_STATUS_cdr_lock = b2n present := by
  unfold Chip.putSignal
  simp (disch := decide) only [Chip.get_put_field, Chip.get_put_same]
  cases present <;> decide

theorem Chip.get_putLocks {n : Nat} (h : n < 2) :
    (c.putLocks b n).get b R.LANE_STATUS_adapt_done = n ∧ (c.putLocks b n).get b R.LANE_STATUS_block_lock = n ∧
      (c.putLocks b n).get b R.LANE_STATUS_fec_lock = n := by
  unfold Chip.putLocks
  simp (disch := decide) only [Chip.get_put_field, Chip.get_put_same]
  exact ⟨Nat.mod_eq_of_lt h, Nat.mod_eq_of_lt h, Nat.mod_eq_of_lt h⟩

theorem Chip.signal_putLocks (n : Nat) :
    (c.putLocks b n).get b R.LANE_STATUS_signal_detect = c.get b R.LANE_STATUS_signal_detect ∧
      (c.putLocks b n).get b R.LANE_STATUS_cdr_lock = c.get b R.LANE_STATUS_cdr_lock := by
  unfold Chip.putLocks
  simp (disch := decide) only [Chip.get_put_field, and_self]

end

section
variable {c d : Chip} {l : List Nat} {ps : List Part} (h : c.Keeps d l ps) {b : Nat} (hb : b + R.LANE_STATUS ∈ l)
include h hb

theorem Chip.Keeps.putSignal (present : Bool) : c.Keeps (d.putSignal b present) l ps :=
  (h.put (f := R.LANE_STATUS_signal_detect) hb _).put (f := R.LANE_STATUS_cdr_lock) hb _

theorem Chip.Keeps.putLocks (n : Nat) : c.Keeps (d.putLocks b n) l ps :=
  ((h.put (f := R.LANE_STATUS_adapt_done) hb _).put (f := R.LANE_STATUS_block_lock) hb _).put (f := R.LANE_STATUS_fec_lock) hb _

end

theorem laneSignalChange_present {s : State} {q : Nat} (hr : s.runs .core = true) (hq : s.chip.laneRuns q = true) :
    Does (.laneSignalChange q true) s fun t =>
      t.chip.get (A.lane q) R.LANE_STATUS_signal_detect = 1 ∧ t.chip.get (A.lane q) R.LANE_STATUS_cdr_lock = 1 ∧
        OnlyRegs s t [A.lane q + R.LANE_STATUS] := by
  have hrun : s.chip.quiet.laneRuns q = true := hq
  refine Does.of_run (exec_laneSignalChange s q true) hr ?_
  rw [if_pos hrun, Chip.laneSignal_present]
  obtain ⟨hsignal, hcdr⟩ := s.chip.quiet.get_putSignal (A.lane q) true
  exact ⟨hsignal, hcdr, (Chip.Keeps.putSignal (.refl _) (.head _) true).onlyRegs⟩

/-- A lane without signal shows no lock. -/
theorem Chip.get_unlockLane (c : Chip) (q : Nat) :
    (c.unlockLane q).get (A.lane q) R.LANE_STATUS_signal_detect = 0 ∧ (c.unlockLane q).get (A.lane q) R.LANE_STATUS_cdr_lock = 0 ∧
      (c.unlockLane q).get (A.lane q) R.LANE_STATUS_adapt_done = 0 ∧ (c.unlockLane q).get (A.lane q) R.LANE_STATUS_block_lock = 0 ∧
      (c.unlockLane q).get (A.lane q) R.LANE_STATUS_fec_lock = 0 := by
  obtain ⟨hsignal, hcdr⟩ := c.get_putSignal (A.lane q) false
  obtain ⟨hsignal', hcdr'⟩ := (c.putSignal (A.lane q) false).signal_putLocks (A.lane q) 0
  exact ⟨hsignal'.trans hsignal, hcdr'.trans hcdr, (c.putSignal (A.lane q) false).get_putLocks (A.lane q) (n := 0) (by decide)⟩

theorem laneSignalChange_lost {s : State} {q : Nat} {r : PortRec} (hr : s.runs .core = true) (hq : s.chip.laneRuns q = true)
    (hport : s.chip.portOfLane q = some r) :
    Does (.laneSignalChange q false) s fun t =>
      t.chip.get (A.lane q) R.LANE_STATUS_signal_detect = 0 ∧ t.chip.get (A.lane q) R.LANE_STATUS_cdr_lock = 0 ∧
      t.chip.get (A.lane q) R.LANE_STATUS_adapt_done = 0 ∧ t.chip.get (A.lane q) R.LANE_STATUS_block_lock = 0 ∧
      t.chip.get (A.lane q) R.LANE_STATUS_fec_lock = 0 ∧ t.chip.get (A.port r.first) R.PORT_STATUS_rx_aligned = 0 ∧
      OnlyParts s t [A.lane q + R.LANE_STATUS, A.port r.first + R.PORT_STATUS] [.ports] := by
  have hrun : s.chip.quiet.laneRuns q = true := hq
  refine Does.of_run (exec_laneSignalChange s q false) hr ?_
  rw [if_pos hrun, Chip.laneSignal_lost (c := s.chip.quiet) hport]
  obtain ⟨hsignal, hcdr, hadapt, hblock, hfec⟩ := s.chip.quiet.get_unlockLane q
  generalize (s.chip.quiet.unlockLane q).on (A.port r.first) R.PORT_STATUS_local_fault = lf
  generalize (s.chip.quiet.unlockLane q).on (A.port r.first) R.PORT_STATUS_remote_fault = rf
  have hlane : ∀ f : Fld, f.off = R.LANE_STATUS →
      ((s.chip.quiet.unlockLane q).pcsSet r.first false lf rf).get (A.lane q) f = (s.chip.quiet.unlockLane q).get (A.lane q) f := by
    intro f hf
    have hne : A.lane q + f.off ≠ A.port r.first + R.PORT_STATUS := A.lane_add_ne_port_add q r.first (hf ▸ by decide) (by decide)
    exact Chip.Keeps.get (Chip.Keeps.pcsSet (l := [A.port r.first + R.PORT_STATUS]) (ps := [.ports]) (.refl _) (.head _) (.head _) false lf rf)
      (by simpa using hne)
  refine ⟨(hlane _ rfl).trans hsignal, (hlane _ rfl).trans hcdr, (hlane _ rfl).trans hadapt, (hlane _ rfl).trans hblock,
    (hlane _ rfl).trans hfec, Chip.rx_aligned_pcsSet .., Chip.Keeps.onlyParts ?_⟩
  exact Chip.Keeps.pcsSet (Chip.Keeps.putLocks (Chip.Keeps.putSignal (.refl _) (.head _) _) (.head _) _) (.tail _ (.head _)) (.head _) ..

theorem laneAdaptComplete_locks {s : State} {q : Nat} (hr : s.runs .core = true) (hq : s.chip.laneRuns q = true)
    (hsignal : s.chip.get (A.lane q) R.LANE_STATUS_signal_detect = 1) :
    Does (.laneAdaptComplete q) s fun t =>
      t.chip.get (A.lane q) R.LANE_STATUS_adapt_done = 1 ∧ t.chip.get (A.lane q) R.LANE_STATUS_block_lock = 1 ∧
        t.chip.get (A.lane q) R.LANE_STATUS_fec_lock = 1 ∧ OnlyRegs s t [A.lane q + R.LANE_STATUS] := by
  have hmay : (s.chip.quiet.laneRuns q && s.chip.quiet.on (A.lane q) R.LANE_STATUS_signal_detect) = true := by
    rw [Bool.and_eq_true]
    exact ⟨hq, by rw [Chip.on, Chip.get_quiet, hsignal]; rfl⟩
  refine Does.of_run (exec_laneAdaptComplete s q) hr ?_
  rw [if_pos hmay, ← Chip.putLocks]
  obtain ⟨hadapt, hblock, hfec⟩ := s.chip.quiet.get_putLocks (A.lane q) (n := 1) (by decide)
  exact ⟨hadapt, hblock, hfec, (Chip.Keeps.putLocks (.refl _) (.head _) 1).onlyRegs⟩

theorem laneAdaptComplete_ignored {s : State} {q : Nat} (hr : s.runs .core = true)
    (h : s.chip.get (A.lane q) R.LANE_STATUS_signal_detect = 0 ∨ s.chip.laneRuns q = false) :
    Does (.laneAdaptComplete q) s fun t => OnlyRegs s t [] := by
  have hnot : (s.chip.quiet.laneRuns q && s.chip.quiet.on (A.lane q) R.LANE_STATUS_signal_detect) = false := by
    rw [Bool.and_eq_false_iff]
    exact h.symm.imp_right fun h => by rw [Chip.on, Chip.get_quiet, h]; rfl
  refine Does.of_run (exec_laneAdaptComplete s q) hr ?_
  rw [hnot, if_neg Bool.false_ne_true]
  exact (Chip.Keeps.refl _).onlyRegs

/-! ### Forward error correction (R79, R80) -/

theorem fecUncorrectableCodeword_counted {s : State} {q : Nat} {r : PortRec} (hr : s.runs .core = true) (hq : s.chip.laneRuns q = true)
    (hport : s.chip.portOfLane q = some r) (hfec : r.fec ≠ 0) :
    Does (.fecUncorrectableCodeword q) s fun t =>
      t.chip.reg (s.chip.laneCnt q + C.fec_uncorrected_cw) = s.chip.reg (s.chip.laneCnt q + C.fec_uncorrected_cw) + 1 ∧
      (t.chip.prt r.first).rx = (s.chip.prt r.first).rx.map (fun x => { x with marked := true }) ∧
      (∀ p, p ≠ r.first → t.chip.prt p = s.chip.prt p) ∧ OnlyParts s t [s.chip.laneCnt q + C.fec_uncorrected_cw] [.ports] := by
  have hfound : (if s.chip.quiet.laneRuns q then s.chip.quiet.portOfLane q else none) = some r := (if_pos hq).trans hport
  refine Does.of_run (exec_fecUncorrectableCodeword s q) hr ?_
  simp only [hfound, if_neg hfec, Chip.laneCnt_quiet]
  refine ⟨(Chip.reg_updPrt ..).trans (Chip.reg_cnt_same ..), ?_, fun p hp => ?_,
    (Chip.Keeps.updPrt (Chip.Keeps.cnt (.refl _) (.head _) _) (.head _) ..).onlyParts⟩
  · rw [Chip.prt_updPrt, if_pos rfl, Chip.prt_cnt, Chip.prt_quiet]
  · rw [Chip.prt_updPrt, if_neg hp, Chip.prt_cnt, Chip.prt_quiet]

theorem Chip.laneCnt_of_image {c d : Chip} (h : d.image = c.image) (q : Nat) : d.laneCnt q = c.laneCnt q := by
  unfold Chip.laneCnt Chip.suiteUnit Chip.suiteOf
  rw [h]

/-- What a window counts: symbols, codewords, and wrong bits while a pattern runs (R78). -/
def Chip.countWindow (c : Chip) (q : Nat) (w : FecWindow) : Chip :=
  let c := (c.cnt (c.laneCnt q + C.fec_symbol_err) w.symbols).cnt (c.laneCnt q + C.fec_corrected_cw) w.words
  c.when (c.on (A.lane q) R.LANE_TEST_prbs) fun c => c.cnt (c.laneCnt q + C.prbs_err) w.errors

/-- `n` corrected symbols are over a lane's threshold. -/
def Chip.overThreshold (c : Chip) (q n : Nat) : Bool :=
  c.get (A.lane q) R.LANE_FEC_DEGRADE_symbols_per_ms != 0 && decide (c.get (A.lane q) R.LANE_FEC_DEGRADE_symbols_per_ms < n)

/-- What a window reports, from whether the one before and this one are over the threshold. -/
def Chip.tellDegrade (c : Chip) (q : Nat) (was bad : Bool) : Chip :=
  if bad && !was then c.report (U.lane q) K.fecDegrade 2 else if was && !bad then c.endCond (U.lane q) K.fecDegrade else c

/-- A window's symbols are held against the threshold. -/
def Chip.judgeWindow (c : Chip) (q n : Nat) : Chip :=
  (c.setFecAlarm q (c.overThreshold q n)).tellDegrade q (c.fecAlarm.look q) (c.overThreshold q n)

theorem execFecDegradeWindow_eq (q : Nat) (w : FecWindow) (s : State) :
    execFecDegradeWindow q w s = s.run .core fun c => if c.laneRuns q then (c.countWindow q w).judgeWindow q w.symbols else c := rfl

section
variable (c : Chip) (q : Nat) (w : FecWindow)

theorem Chip.Keeps.countWindow {d : Chip} {l : List Nat} {ps : List Part} (h : c.Keeps d l ps) (hs : d.laneCnt q + C.fec_symbol_err ∈ l)
    (hc : d.laneCnt q + C.fec_corrected_cw ∈ l) (hp : d.laneCnt q + C.prbs_err ∈ l) : c.Keeps (d.countWindow q w) l ps :=
  ((h.cnt hs _).cnt hc _).when fun _ => ((h.cnt hs _).cnt hc _).cnt hp _

/-- A window counts in the lane's counters alone. -/
theorem Chip.keeps_countWindow {ps : List Part} :
    c.Keeps (c.countWindow q w) [c.laneCnt q + C.fec_symbol_err, c.laneCnt q + C.fec_corrected_cw, c.laneCnt q + C.prbs_err] ps :=
  (Chip.Keeps.refl c).countWindow _ _ _ (.head _) (.tail _ (.head _)) (.tail _ (.tail _ (.head _)))

theorem Chip.get_countWindow_lane {f : Fld} (h : f.off < 0x100) : (c.countWindow q w).get (A.lane q) f = c.get (A.lane q) f := by
  have hne : ∀ o, 0x100 ≤ o → o < 0x400 → A.lane q + f.off ≠ c.laneCnt q + o := fun o hlo hhi =>
    c.lane_add_ne_laneCnt_add q q (by omega) hhi (by omega)
  refine (c.keeps_countWindow q w (ps := [])).get ?_
  simpa using ⟨hne _ (by decide) (by decide), hne _ (by decide) (by decide), hne _ (by decide) (by decide)⟩

theorem Chip.overThreshold_countWindow (n : Nat) : (c.countWindow q w).overThreshold q n = c.overThreshold q n := by
  unfold Chip.overThreshold
  rw [Chip.get_countWindow_lane _ _ _ (by decide)]

/-- Wrong bits are counted by the pattern that stands before the window: the counters lie apart from its register. -/
theorem Chip.countWindow_eq :
    c.countWindow q w = ((c.cnt (c.laneCnt q + C.fec_symbol_err) w.symbols).cnt (c.laneCnt q + C.fec_corrected_cw) w.words).when
      (c.on (A.lane q) R.LANE_TEST_prbs) fun d => d.cnt (c.laneCnt q + C.prbs_err) w.errors := by
  have hne : ∀ o, o < 0x400 → R.LANE_TEST ≠ o → A.lane q + R.LANE_TEST_prbs.off ≠ c.laneCnt q + o := fun o ho h =>
    c.lane_add_ne_laneCnt_add q q (by decide) ho h
  have hon : ((c.cnt (c.laneCnt q + C.fec_symbol_err) w.symbols).cnt (c.laneCnt q + C.fec_corrected_cw) w.words).on (A.lane q)
      R.LANE_TEST_prbs = c.on (A.lane q) R.LANE_TEST_prbs := by
    rw [Chip.on, Chip.get_cnt _ _ _ _ _ (hne _ (by decide) (by decide)), Chip.get_cnt _ _ _ _ _ (hne _ (by decide) (by decide)), Chip.on]
  have hbase : ((c.cnt (c.laneCnt q + C.fec_symbol_err) w.symbols).cnt (c.laneCnt q + C.fec_corrected_cw) w.words).laneCnt q = c.laneCnt q :=
    Chip.laneCnt_of_image (by rw [Chip.cnt_image, Chip.cnt_image]) q
  unfold Chip.countWindow
  dsimp only
  rw [hon]
  cases c.on (A.lane q) R.LANE_TEST_prbs
  · rw [Chip.when_false, Chip.when_false]
  · rw [Chip.when_true, Chip.when_true, hbase]

/-- The three counters stand apart. -/
theorem Chip.counters_countWindow :
    (c.countWindow q w).reg (c.laneCnt q + C.fec_symbol_err) = c.reg (c.laneCnt q + C.fec_symbol_err) + BitVec.ofNat 64 w.symbols ∧
    (c.countWindow q w).reg (c.laneCnt q + C.fec_corrected_cw) = c.reg (c.laneCnt q + C.fec_corrected_cw) + BitVec.ofNat 64 w.words ∧
    (c.countWindow q w).reg (c.laneCnt q + C.prbs_err) =
      c.reg (c.laneCnt q + C.prbs_err) + (if c.get (A.lane q) R.LANE_TEST_prbs = 0 then 0 else BitVec.ofNat 64 w.errors) := by
  rw [Chip.countWindow_eq, Chip.on]
  by_cases h : c.get (A.lane q) R.LANE_TEST_prbs = 0
  · rw [h, bne_self_eq_false, Chip.when_false]
    simp [Chip.reg_cnt, C.fec_symbol_err, C.fec_corrected_cw, C.prbs_err]
  · rw [bne_iff_ne.mpr h, Chip.when_true, if_neg h]
    simp [Chip.reg_cnt, C.fec_symbol_err, C.fec_corrected_cw, C.prbs_err]

theorem Chip.countWindow_fecAlarm : (c.countWindow q w).fecAlarm = c.fecAlarm := by
  rw [Chip.countWindow_eq]
  cases c.on (A.lane q) R.LANE_TEST_prbs <;> rfl

theorem Chip.countWindow_ledger : (c.countWindow q w).ledger = c.ledger := by
  rw [Chip.countWindow_eq]
  cases c.on (A.lane q) R.LANE_TEST_prbs <;> rfl

theorem Chip.countWindow_image : (c.countWindow q w).image = c.image := by
  rw [Chip.countWindow_eq]
  cases c.on (A.lane q) R.LANE_TEST_prbs <;> rfl

end

/-! The end of a window, from what the one before and this one are. -/

section
variable (c : Chip) (q : Nat)

theorem Chip.reg_tellDegrade (was bad : Bool) (a : Nat) : (c.tellDegrade q was bad).reg a = c.reg a := by
  cases was <;> cases bad <;> rfl

theorem Chip.tellDegrade_fecAlarm (was bad : Bool) : (c.tellDegrade q was bad).fecAlarm = c.fecAlarm := by
  cases was <;> cases bad <;> rfl

/-- What is reported depends on the ledger and on the suites alone. -/
theorem Chip.tellDegrade_ledger {c d : Chip} (hl : d.ledger = c.ledger) (hi : d.image = c.image) (was bad : Bool) :
    (d.tellDegrade q was bad).ledger = (c.tellDegrade q was bad).ledger := by
  cases was <;> cases bad <;> simp [Chip.tellDegrade, Chip.suiteUnit, Chip.suitePos, Chip.suiteOf, hl, hi]

theorem Chip.Keeps.tellDegrade {d : Chip} {l : List Nat} {ps : List Part} (h : c.Keeps d l ps) (was bad : Bool)
    (hl : was ≠ bad → .ledger ∈ ps) : c.Keeps (d.tellDegrade q was bad) l ps := by
  cases was <;> cases bad
  · exact h
  · exact h.report (hl (by decide)) ..
  · exact h.endCond (hl (by decide)) ..
  · exact h

end

section
variable (c : Chip) (q n : Nat)

theorem Chip.reg_judgeWindow (a : Nat) : (c.judgeWindow q n).reg a = c.reg a :=
  (Chip.reg_tellDegrade ..).trans (Chip.reg_setFecAlarm ..)

theorem Chip.alarm_judgeWindow : (c.judgeWindow q n).fecAlarm.look q = c.overThreshold q n := by
  rw [Chip.judgeWindow, Chip.tellDegrade_fecAlarm, Chip.setFecAlarm_fecAlarm, Tbl.look_set, if_pos rfl]

theorem Chip.judgeWindow_ledger :
    (c.judgeWindow q n).ledger = (c.tellDegrade q (c.fecAlarm.look q) (c.overThreshold q n)).ledger :=
  Chip.tellDegrade_ledger q (Chip.setFecAlarm_ledger ..) (Chip.setFecAlarm_image ..) ..

theorem Chip.Keeps.judgeWindow {d : Chip} {l : List Nat} {ps : List Part} (h : c.Keeps d l ps) (ha : .fecAlarm ∈ ps)
    (hl : d.fecAlarm.look q ≠ d.overThreshold q n → .ledger ∈ ps) : c.Keeps (d.judgeWindow q n) l ps :=
  Chip.Keeps.tellDegrade _ _ (h.setFecAlarm ha ..) _ _ hl

end

/-- What every window of a lane that runs does, whatever it reports. -/
theorem does_fecDegradeWindow {s : State} {q n w e : Nat} {was bad : Bool} (hr : s.runs .core = true) (hq : s.chip.laneRuns q = true)
    (hwas : s.chip.fecAlarm.look q = was) (hbad : s.chip.overThreshold q n = bad) {ps : List Part} (ha : .fecAlarm ∈ ps)
    (hl : was ≠ bad → .ledger ∈ ps) :
    Does (.fecDegradeWindow q { symbols := n, words := w, errors := e }) s fun t =>
      t.chip.reg (s.chip.laneCnt q + C.fec_symbol_err) = s.chip.reg (s.chip.laneCnt q + C.fec_symbol_err) + BitVec.ofNat 64 n ∧
        t.chip.reg (s.chip.laneCnt q + C.fec_corrected_cw) = s.chip.reg (s.chip.laneCnt q + C.fec_corrected_cw) + BitVec.ofNat 64 w ∧
        t.chip.reg (s.chip.laneCnt q + C.prbs_err) = s.chip.reg (s.chip.laneCnt q + C.prbs_err) + (if s.chip.get (A.lane q) R.LANE_TEST_prbs
        = 0 then 0 else BitVec.ofNat 64 e) ∧ t.chip.fecAlarm.look q = bad ∧
        t.chip.ledger = (s.chip.tellDegrade q was bad).ledger ∧
        OnlyParts s t [s.chip.laneCnt q + C.fec_symbol_err, s.chip.laneCnt q + C.fec_corrected_cw, s.chip.laneCnt q + C.prbs_err] ps := by
  have hrun : s.chip.quiet.laneRuns q = true := hq
  refine Does.of_run ((exec_fecDegradeWindow s q _).trans (execFecDegradeWindow_eq ..)) hr ?_
  rw [if_pos hrun]
  obtain ⟨hsymbols, hwords, herrors⟩ := s.chip.quiet.counters_countWindow q { symbols := n, words := w, errors := e }
  have hkeeps := s.chip.quiet.keeps_countWindow q { symbols := n, words := w, errors := e } (ps := ps)
  have hbad' := (s.chip.quiet.overThreshold_countWindow q { symbols := n, words := w, errors := e } n).trans hbad
  have hwas' := (congrArg (·.look q) (s.chip.quiet.countWindow_fecAlarm q { symbols := n, words := w, errors := e })).trans hwas
  have hledger := s.chip.quiet.countWindow_ledger q { symbols := n, words := w, errors := e }
  have himage := s.chip.quiet.countWindow_image q { symbols := n, words := w, errors := e }
  generalize s.chip.quiet.countWindow q { symbols := n, words := w, errors := e } = d at *
  refine ⟨(d.reg_judgeWindow ..).trans hsymbols, (d.reg_judgeWindow ..).trans hwords, (d.reg_judgeWindow ..).trans herrors,
    (d.alarm_judgeWindow ..).trans hbad', (d.judgeWindow_ledger ..).trans ?_, ?_⟩
  · rw [hwas', hbad']
    exact Chip.tellDegrade_ledger q (hledger.trans s.chip.quiet_ledger) (himage.trans s.chip.quiet_image) was bad
  · refine Chip.Keeps.onlyParts (Chip.Keeps.judgeWindow _ _ _ hkeeps ha ?_)
    rwa [hwas', hbad']

theorem Chip.overThreshold_of_lt {c : Chip} {q n : Nat} (h : c.get (A.lane q) R.LANE_FEC_DEGRADE_symbols_per_ms ≠ 0 ∧
    c.get (A.lane q) R.LANE_FEC_DEGRADE_symbols_per_ms < n) : c.overThreshold q n = true := by
  simpa [Chip.overThreshold] using h

theorem Chip.overThreshold_of_le {c : Chip} {q n : Nat} (h : c.get (A.lane q) R.LANE_FEC_DEGRADE_symbols_per_ms = 0 ∨
    n ≤ c.get (A.lane q) R.LANE_FEC_DEGRADE_symbols_per_ms) : c.overThreshold q n = false := by
  simpa [Chip.overThreshold, or_iff_not_imp_left] using h

/-- A window that is as the one before, over the threshold or not. -/
theorem Chip.overThreshold_eq_alarm {c : Chip} {q n : Nat}
    (h : (c.fecAlarm.look q = true ∧ c.get (A.lane q) R.LANE_FEC_DEGRADE_symbols_per_ms ≠ 0 ∧
        c.get (A.lane q) R.LANE_FEC_DEGRADE_symbols_per_ms < n) ∨
      (c.fecAlarm.look q = false ∧ (c.get (A.lane q) R.LANE_FEC_DEGRADE_symbols_per_ms = 0 ∨
        n ≤ c.get (A.lane q) R.LANE_FEC_DEGRADE_symbols_per_ms))) : c.overThreshold q n = c.fecAlarm.look q := by
  obtain ⟨hwas, hover⟩ | ⟨hwas, hunder⟩ := h
  · exact (Chip.overThreshold_of_lt hover).trans hwas.symm
  · exact (Chip.overThreshold_of_le hunder).trans hwas.symm

/-- Settles O29: each clause is the lemma above of its command; a window's report follows from the alarm before it and its symbols. -/
theorem lanesFollowTheirSignals : Obligations.LanesFollowTheirSignals :=
  ⟨fun _ _ _ _ hs hq h => does_laneTxEqWrite hs hq h,
    fun _ _ _ _ hs hq hp h => does_laneTestWrite hs hq hp h,
    fun _ _ hr hq => laneSignalChange_present hr hq,
    fun _ _ _ hr hq hport => laneSignalChange_lost hr hq hport,
    fun _ _ hr hq hsignal => laneAdaptComplete_locks hr hq hsignal,
    fun _ _ _ hr hq hport hfec => fecUncorrectableCodeword_counted hr hq hport hfec,
    fun _ _ _ _ hs h => laneTxEqWrite_ignored hs h,
    fun _ _ _ _ hs hq hp h => laneTestWrite_ignored hs hq hp h,
    fun _ _ hr h => laneAdaptComplete_ignored hr h,
    fun _ _ _ _ _ hr hq hwas hover =>
      does_fecDegradeWindow hr hq hwas (Chip.overThreshold_of_lt hover) (.head _) fun _ => .tail _ (.head _),
    fun _ _ _ _ _ hr hq hwas hunder =>
      does_fecDegradeWindow hr hq hwas (Chip.overThreshold_of_le hunder) (.head _) fun _ => .tail _ (.head _),
    fun _ _ _ _ _ hr hq h =>
      have ⟨t, he, hsymbols, hwords, herrors, halarm, _, honly⟩ :=
        does_fecDegradeWindow hr hq rfl (Chip.overThreshold_eq_alarm h) (ps := [.fecAlarm]) (.head _) (absurd rfl)
      ⟨t, he, hsymbols, hwords, herrors, halarm, honly⟩⟩

end Sys2Proof.Machine
end

section
/-! SUPPORT. Events of a port (spec/04_ports_and_lanes.md R82, R100) whose gates drop a frame (spec/14_time_gates.md R309): a device whose
spill bundle names a requester that does not exist, and whose suite names a port that does not exist. -/

namespace Sys2Proof.Machine

open Sys2Proof

/-- The requester number whose INNK_REQ_USED would stand at the address of the PORT_EVENT of a port 512. -/
def strayEventRequester : Nat := (A.port 512 + R.PORT_EVENT - (A.half 0 + R.INNK_REQ_USED)) / 4

/-- Port 0 is enabled, has long been good, and its class 0 has long been paused. It is the second member of a suite whose first is a port
512, under which its PORT_EVENT stands. Its gates never open, so the one frame in its queue fits no window; the frame's cell lies in bundle
0, which is written and being fetched. -/
def strayEventState : State :=
  { State.reset with
    chip :=
      { now := 10 ^ 9
        power := { sysRstHigh := true, released := true, sysPll := true }
        image := { applied := true, ports := [{ first := 0, lanes := 1, type := 2, fec := 0, lpi := true }], suites := [[U.port 512, U.port 0]] }
        regs := [(A.port 0 + R.PORT_CTRL, 1), (A.port 0 + R.PORT_STATUS, 0x10000), (A.port 0 + R.PORT_PFC_STORM, 0x10000),
          (A.port 0 + R.GATE_CTRL, 0x80000000), (A.port 0 + R.GCL_COUNT, 1), (A.port 0 + R.GCL_CYCLE, 1), (A.port 0 + R.GCL_GATES, 0)]
        ports := [(0, { goodSince := some 0 })]
        arrivals := [(1, some { places := [.bundle 0], bytesHeld := 64, closed := true, copies := [7] })]
        copies := [(7, some { arrival := 1 })]
        scheds := [(0, { copies := [(0, [7])] })]
        innkeepers := [(0, { bundles := [(0, some { req := strayEventRequester, cells := [(1, 0)], written := true, fetching := true })] })] } }

theorem runs_strayEventState : strayEventState.runs .core = true := by decide +kernel

/-- Refutes O30, by clause 6: LINK_UP sets PORT_EVENT.link_up, and its gates then drop the frame at the head of the queue, which fits no
window. The frame's cell counts for its bundle's requester, whose used figure falls by 1. No hypothesis of the clause keeps the requester's
number below 16 and the suite's first member a port of the device, and here the figure stands at the address of PORT_EVENT, whose value
falls from 2 to 1: link_up is lost. -/
theorem not_linksGoDownAndUp : ¬ Obligations.LinksGoDownAndUp := by
  rintro ⟨-, -, -, -, -, hup, -⟩
  obtain ⟨t, hexec, -, -, -, -, hevent, -⟩ := hup strayEventState 0 0 runs_strayEventState (by decide +kernel) (by decide +kernel)
    (by decide +kernel) rfl (by decide +kernel) rfl
  obtain rfl := Host.Outcome.next.inj (hexec.symm.trans ((exec_linkUp strayEventState 0).trans (State.run_of_runs runs_strayEventState _)))
  revert hevent
  decide +kernel

/-- Refutes O32, by clause 13, on the same device: PFC_STORM_DETECT sets PORT_EVENT.pfc_storm, and the frame that the gates drop takes the
register from 8 to 7. -/
theorem not_pauseAndLowPowerIdle : ¬ Obligations.PauseAndLowPowerIdle := by
  rintro ⟨-, -, -, -, -, -, -, -, -, -, -, -, hstorm, -⟩
  obtain ⟨t, hexec, -, -, hevent, -⟩ := hstorm strayEventState 0 0 runs_strayEventState (by decide +kernel) (by decide) (by decide +kernel)
    (by decide +kernel) (by decide +kernel) (by decide)
  obtain rfl := Host.Outcome.next.inj
    (hexec.symm.trans ((exec_pfcStormDetect strayEventState 0 0).trans (State.run_of_runs runs_strayEventState _)))
  revert hevent
  decide +kernel

end Sys2Proof.Machine
end

section
/-! SUPPORT. The end of a frame on the line (spec/04_ports_and_lanes.md R92) that a thread still holds: a device whose frame names a porter
that does not exist. -/

namespace Sys2Proof.Machine

open Sys2Proof

/-- The porter number whose PORTER_STATUS in slice 0 would stand at the address of rx_frames of port 16. -/
def strayRuntPorter : Nat := (A.port 16 + C.rx_frames - (A.porter 0 0 + R.PORTER_STATUS)) / 0x1000

/-- Port 16 has received three bytes of a frame, and 2^24 frames before it. The frame stands in thread 0 of a porter of slice 0 that does
not exist. -/
def strayRuntState : State :=
  { State.reset with
    chip :=
      { power := { sysRstHigh := true, released := true, sysPll := true }
        image := { applied := true, ports := [{ first := 16, lanes := 1, type := 2, fec := 0, lpi := false }] }
        regs := [(A.port 16 + C.rx_frames, 2 ^ 24)]
        ports := [(16, { rx := some { id := 7, len := 3 } })]
        frames := [(7, some { port := 16, home := 16, bytes := [1, 2, 3], stage := .thread strayRuntPorter 0 })] } }

theorem runs_strayRuntState : strayRuntState.runs .core = true := by decide +kernel

/-- Refutes O31, by clause 9: the frame ends as a runt of 4 bytes, and leaves the thread that it names. No hypothesis of the clause keeps
the thread's porter below 34, and here its PORTER_STATUS stands at the address of the port's rx_frames: PORTER_STATUS.busy follows the
threads, which takes the counter from 2^24 to 0. -/
theorem not_framesArrive : ¬ Obligations.FramesArrive := by
  rintro ⟨-, -, -, -, -, -, -, -, hrunt, -⟩
  obtain ⟨t, hexec, -, -, -, hkept, -⟩ := hrunt strayRuntState 16 [9] true { id := 7, len := 3 } runs_strayRuntState rfl (by decide) (by decide)
  obtain rfl := Host.Outcome.next.inj
    (hexec.symm.trans ((exec_rxFrameEnd strayRuntState 16 [9] true).trans (State.run_of_runs runs_strayRuntState _)))
  have hsame := hkept (by decide +kernel)
  revert hsame
  decide +kernel

end Sys2Proof.Machine
end

section
/-! SUPPORT. Porters and the frames in their threads (spec/05_porters.md R104 to R127): what each update of a thread, a frame or a release
queue leaves, the addresses of porters, and what the end of a frame leaves. -/

namespace Sys2Proof.Machine

open Sys2Proof

/-! ### Loops -/

/-- A loop leaves what each of its turns leaves. -/
theorem Chip.each_same {α β : Type} {g : Chip → β} {f : Chip → α → Chip} (h : ∀ c x, g (f c x) = g c) (c : Chip) (l : List α) :
    g (c.each l f) = g c := by
  induction l generalizing c with
  | nil => rfl
  | cons x l ih => exact (ih _).trans (h c x)

/-! ### Updates of threads, frames and release queues -/

section
variable (c : Chip)

@[simp] theorem Chip.reg_setFr (id : Nat) (f : Frame) (a : Nat) : (c.setFr id f).reg a = c.reg a := rfl
@[simp] theorem Chip.porter_setFr (id : Nat) (f : Frame) (s n : Nat) : (c.setFr id f).porter s n = c.porter s n := rfl
@[simp] theorem Chip.prt_setFr (id : Nat) (f : Frame) (p : Nat) : (c.setFr id f).prt p = c.prt p := rfl
@[simp] theorem Chip.setFr_ledger (id : Nat) (f : Frame) : (c.setFr id f).ledger = c.ledger := rfl
@[simp] theorem Chip.setFr_now (id : Nat) (f : Frame) : (c.setFr id f).now = c.now := rfl
@[simp] theorem Chip.setFr_frames (id : Nat) (f : Frame) : (c.setFr id f).frames = c.frames.set id (some f) := rfl

@[simp] theorem Chip.updPrt_frames (p : Nat) (f : Port → Port) : (c.updPrt p f).frames = c.frames := rfl
@[simp] theorem Chip.updPrt_now (p : Nat) (f : Port → Port) : (c.updPrt p f).now = c.now := rfl

@[simp] theorem Chip.reg_setPorter (s n : Nat) (p : Porter) (a : Nat) : (c.setPorter s n p).reg a = c.reg a := rfl
@[simp] theorem Chip.get_setPorter (s n : Nat) (p : Porter) (b : Nat) (g : Fld) : (c.setPorter s n p).get b g = c.get b g := rfl
@[simp] theorem Chip.front_setPorter (s n : Nat) (p : Porter) (s' : Nat) : (c.setPorter s n p).front s' = c.front s' := rfl
@[simp] theorem Chip.setPorter_frames (s n : Nat) (p : Porter) : (c.setPorter s n p).frames = c.frames := rfl
@[simp] theorem Chip.setPorter_ledger (s n : Nat) (p : Porter) : (c.setPorter s n p).ledger = c.ledger := rfl
@[simp] theorem Chip.setPorter_store (s n : Nat) (p : Porter) : (c.setPorter s n p).store = c.store := rfl
@[simp] theorem Chip.setThread_store (s n th : Nat) (v : Thread) : (c.setThread s n th v).store = c.store := rfl
@[simp] theorem Chip.setPorter_now (s n : Nat) (p : Porter) : (c.setPorter s n p).now = c.now := rfl
@[simp] theorem Chip.porter_setPorter (s n : Nat) (p : Porter) : (c.setPorter s n p).porter s n = p :=
  (Tbl.look_set ..).trans (if_pos rfl)

@[simp] theorem Chip.reg_setThread (s n th : Nat) (v : Thread) (a : Nat) : (c.setThread s n th v).reg a = c.reg a := rfl
@[simp] theorem Chip.prt_setThread (s n th : Nat) (v : Thread) (p : Nat) : (c.setThread s n th v).prt p = c.prt p := rfl
@[simp] theorem Chip.setThread_frames (s n th : Nat) (v : Thread) : (c.setThread s n th v).frames = c.frames := rfl
@[simp] theorem Chip.setThread_ledger (s n th : Nat) (v : Thread) : (c.setThread s n th v).ledger = c.ledger := rfl
@[simp] theorem Chip.setThread_now (s n th : Nat) (v : Thread) : (c.setThread s n th v).now = c.now := rfl
@[simp] theorem Chip.porter_setThread (s n th : Nat) (v : Thread) :
    (c.setThread s n th v).porter s n = { c.porter s n with threads := (c.porter s n).threads.set th v } := Chip.porter_setPorter ..

@[simp] theorem Chip.threadOf_setThread (s n th : Nat) (v : Thread) : (c.setThread s n th v).threadOf s n th = v := by
  rw [Chip.threadOf, Chip.porter_setThread, Tbl.look_set, if_pos rfl]

@[simp] theorem Chip.get_setFront (s : Nat) (f : Front) (b : Nat) (g : Fld) : (c.setFront s f).get b g = c.get b g := rfl
@[simp] theorem Chip.role_setFront (s : Nat) (f : Front) (s' n : Nat) : (c.setFront s f).role s' n = c.role s' n := rfl
@[simp] theorem Chip.porter_setFront (s : Nat) (f : Front) (s' n : Nat) : (c.setFront s f).porter s' n = c.porter s' n := rfl
@[simp] theorem Chip.prt_setFront (s : Nat) (f : Front) (p : Nat) : (c.setFront s f).prt p = c.prt p := rfl
@[simp] theorem Chip.setFront_frames (s : Nat) (f : Front) : (c.setFront s f).frames = c.frames := rfl
@[simp] theorem Chip.setFront_ledger (s : Nat) (f : Front) : (c.setFront s f).ledger = c.ledger := rfl
@[simp] theorem Chip.front_setFront (s : Nat) (f : Front) : (c.setFront s f).front s = f := (Tbl.look_set ..).trans (if_pos rfl)

@[simp] theorem Chip.porter_put (b : Nat) (g : Fld) (v s n : Nat) : (c.put b g v).porter s n = c.porter s n := rfl
@[simp] theorem Chip.prt_put (b : Nat) (g : Fld) (v p : Nat) : (c.put b g v).prt p = c.prt p := rfl
@[simp] theorem Chip.front_put (b : Nat) (g : Fld) (v s : Nat) : (c.put b g v).front s = c.front s := rfl
@[simp] theorem Chip.front_cnt (a k s : Nat) : (c.cnt a k).front s = c.front s := rfl
@[simp] theorem Chip.porter_report (u k v x : Nat) (i : Bool) (s n : Nat) : (c.report u k v x i).porter s n = c.porter s n := rfl
@[simp] theorem Chip.front_report (u k v x : Nat) (i : Bool) (s : Nat) : (c.report u k v x i).front s = c.front s := rfl
@[simp] theorem Chip.porter_quiet (s n : Nat) : c.quiet.porter s n = c.porter s n := rfl
@[simp] theorem Chip.front_quiet (s : Nat) : c.quiet.front s = c.front s := rfl
@[simp] theorem Chip.threadOf_quiet (s n th : Nat) : c.quiet.threadOf s n th = c.threadOf s n th := rfl
@[simp] theorem Chip.threadBusy_quiet (s n : Nat) : c.quiet.threadBusy s n = c.threadBusy s n := rfl
@[simp] theorem Chip.role_quiet (s n : Nat) : c.quiet.role s n = c.role s n := rfl

@[simp] theorem Chip.syncBusy_frames (s n : Nat) : (c.syncBusy s n).frames = c.frames := Chip.put_frames ..
@[simp] theorem Chip.syncBusy_applies (s n : Nat) : (c.syncBusy s n).applies = c.applies := Chip.put_applies ..
@[simp] theorem Chip.prt_syncBusy (s n p : Nat) : (c.syncBusy s n).prt p = c.prt p := Chip.prt_put ..
@[simp] theorem Chip.front_syncBusy (s n s' : Nat) : (c.syncBusy s n).front s' = c.front s' := Chip.front_put ..
@[simp] theorem Chip.porter_syncBusy (s n s' n' : Nat) : (c.syncBusy s n).porter s' n' = c.porter s' n' := Chip.porter_put ..
@[simp] theorem Chip.threadOf_syncBusy (s n s' n' th : Nat) : (c.syncBusy s n).threadOf s' n' th = c.threadOf s' n' th := by
  rw [Chip.threadOf, Chip.porter_syncBusy, Chip.threadOf]

theorem Chip.fr_of_look {c : Chip} {id : Nat} {f : Frame} (h : c.frames.look id = some f) : c.fr id = f := by
  rw [Chip.fr, h, Option.getD_some]

@[simp] theorem Chip.look_setFr (id : Nat) (f : Frame) : (c.setFr id f).frames.look id = some f := by
  rw [Chip.setFr_frames, Tbl.look_set, if_pos rfl]

theorem Chip.updFr_of_look {c : Chip} {id : Nat} {f : Frame} (h : c.frames.look id = some f) (g : Frame → Frame) :
    c.updFr id g = c.setFr id (g f) := by
  rw [Chip.updFr, h]

end

section
variable {c d : Chip} {l : List Nat} {ps : List Part}

theorem Chip.Keeps.setFrames (h : c.Keeps d l ps) (hp : .frames ∈ ps) (v : Tbl (Option Frame)) : c.Keeps { d with frames := v } l ps :=
  h.update (f := fun d => { d with frames := v }) hp rfl (fun _ => rfl) (fun _ q _ => by cases q <;> trivial) fun _ => rfl

theorem Chip.Keeps.setPorters (h : c.Keeps d l ps) (hp : .porters ∈ ps) (v : Tbl Porter) : c.Keeps { d with porters := v } l ps :=
  h.update (f := fun d => { d with porters := v }) hp rfl (fun _ => rfl) (fun _ q _ => by cases q <;> trivial) fun _ => rfl

theorem Chip.Keeps.setFronts (h : c.Keeps d l ps) (hp : .fronts ∈ ps) (v : Tbl Front) : c.Keeps { d with fronts := v } l ps :=
  h.update (f := fun d => { d with fronts := v }) hp rfl (fun _ => rfl) (fun _ q _ => by cases q <;> trivial) fun _ => rfl

theorem Chip.Keeps.setHouse (h : c.Keeps d l ps) (hp : .house ∈ ps) (v : House) : c.Keeps { d with house := v } l ps :=
  h.update (f := fun d => { d with house := v }) hp rfl (fun _ => rfl) (fun _ q _ => by cases q <;> trivial) fun _ => rfl

theorem Chip.Keeps.setFr (h : c.Keeps d l ps) (hp : .frames ∈ ps) (id : Nat) (f : Frame) : c.Keeps (d.setFr id f) l ps := h.setFrames hp _

theorem Chip.Keeps.setPorter (h : c.Keeps d l ps) (hp : .porters ∈ ps) (s n : Nat) (p : Porter) : c.Keeps (d.setPorter s n p) l ps :=
  h.setPorters hp _

theorem Chip.Keeps.setThread (h : c.Keeps d l ps) (hp : .porters ∈ ps) (s n th : Nat) (v : Thread) : c.Keeps (d.setThread s n th v) l ps :=
  h.setPorter hp ..

theorem Chip.Keeps.setFront (h : c.Keeps d l ps) (hp : .fronts ∈ ps) (s : Nat) (f : Front) : c.Keeps (d.setFront s f) l ps :=
  h.setFronts hp _

theorem Chip.Keeps.wakeCause (h : c.Keeps d l ps) (hp : .house ∈ ps) (s : Nat) : c.Keeps (d.wakeCause s) l ps := by
  unfold Chip.wakeCause
  split
  · exact h.setHouse hp _
  · exact h

theorem Chip.Keeps.syncBusy (h : c.Keeps d l ps) {s n : Nat} (ha : A.porter s n + R.PORTER_STATUS ∈ l) : c.Keeps (d.syncBusy s n) l ps :=
  h.put (f := R.PORTER_STATUS_busy) ha _

theorem Chip.Keeps.syncPorters (h : c.Keeps d l ps) {s : Nat} (ha : A.slice s + R.PORTER_SUMMARY ∈ l) : c.Keeps (d.syncPorters s) l ps :=
  ((h.put (f := R.PORTER_SUMMARY_active_count) ha _).put (f := R.PORTER_SUMMARY_spares_free) ha _).put
    (f := R.PORTER_SUMMARY_failed_count) ha _

end

/-! ### Addresses -/

/-- The window of a porter starts at a multiple of its size. -/
theorem A.porter_mod (s n : Nat) : A.porter s n % 0x1000 = 0 := by
  unfold A.porter A.slice
  omega

theorem A.slice_mod (s : Nat) : A.slice s % 0x1000 = 0 := by
  unfold A.slice
  omega

theorem A.port_mod (p : Nat) : A.port p % 0x1000 = 0 := by
  unfold A.port A.slice
  omega

theorem A.le_slice (s : Nat) : 0x01000000 ≤ A.slice s := by
  unfold A.slice
  omega

theorem A.le_porter (s n : Nat) : 0x01000000 ≤ A.porter s n := by
  unfold A.porter A.slice
  omega

theorem A.porter_inj {s n m : Nat} (h : A.porter s n = A.porter s m) : n = m := by
  unfold A.porter at h
  omega

/-- In-flight counts are registers of the global window. -/
theorem Chip.inflightReg_lt (i : Nat) : Chip.inflightReg i < 0x4000 := by
  unfold Chip.inflightReg R.ACCORD_INFLIGHT
  omega

/-! ### The end of a frame -/

/-- The port's lists without a frame. -/
def Port.without (id : Nat) (q : Port) : Port := { q with wait := q.wait.filter (· != id), parsing := q.parsing.filter (· != id) }

/-- A frame leaves the place where it stands. -/
def Chip.leaveStage (c : Chip) (id : Nat) (f : Frame) : Chip :=
  match f.stage with
  | .thread n t => c.clearThread f.slice n t
  | .release => c.setFront f.slice { c.front f.slice with release := (c.front f.slice).release.filter (· != id) }
  | .wakeStore => { c with house := { c.house with wakeStore := c.house.wakeStore.upd f.slice fun l => l.filter (· != WakeItem.frame id) } }
  | .lookups => c.setLpm (f.slice / 4) { c.lpmTab (f.slice / 4) with held := (c.lpmTab (f.slice / 4)).held.filter fun x => x.frame != id }
  | _ => c

/-- A frame is there no more. -/
def Chip.dropFr (c : Chip) (id : Nat) : Chip := { c with frames := c.frames.set id none }

theorem Chip.forget_of_none {c : Chip} {id : Nat} (h : c.frames.look id = none) : c.forget id = c := by rw [Chip.forget, h]

theorem Chip.forget_of_some {c : Chip} {id : Nat} {f : Frame} (h : c.frames.look id = some f) :
    c.forget id = ((c.updPrt f.home (Port.without id)).leaveStage id f).dropFr id := by
  rw [Chip.forget, h]
  dsimp only
  rw [Chip.leaveStage, Chip.dropFr]
  rfl

section
variable (c : Chip)

/-- Only fields of PORTER_STATUS below role follow the threads. -/
theorem Chip.role_syncBusy (s n s' n' : Nat) : (c.syncBusy s n).role s' n' = c.role s' n' := Chip.get_put_field _ _ _ _ _ _ (by decide)

theorem Chip.role_clearThread (s n th s' n' : Nat) : (c.clearThread s n th).role s' n' = c.role s' n' :=
  (Chip.role_syncBusy ..).trans rfl

@[simp] theorem Chip.clearThread_frames (s n th : Nat) : (c.clearThread s n th).frames = c.frames := Chip.syncBusy_frames ..
@[simp] theorem Chip.clearThread_applies (s n th : Nat) : (c.clearThread s n th).applies = c.applies := Chip.syncBusy_applies ..
@[simp] theorem Chip.front_clearThread (s n th s' : Nat) : (c.clearThread s n th).front s' = c.front s' := Chip.front_syncBusy ..

theorem Chip.leaveStage_frames (id : Nat) (f : Frame) : (c.leaveStage id f).frames = c.frames := by
  unfold Chip.leaveStage
  split
  · exact Chip.clearThread_frames ..
  all_goals rfl

theorem Chip.leaveStage_applies (id : Nat) (f : Frame) : (c.leaveStage id f).applies = c.applies := by
  unfold Chip.leaveStage
  split
  · exact Chip.clearThread_applies ..
  all_goals rfl

theorem Chip.role_leaveStage (id : Nat) (f : Frame) (s n : Nat) : (c.leaveStage id f).role s n = c.role s n := by
  unfold Chip.leaveStage
  split
  · exact Chip.role_clearThread ..
  all_goals rfl

theorem Chip.failovers_setFront_release (s s' : Nat) (l : List Nat) :
    ((c.setFront s { c.front s with release := l }).front s').failovers = (c.front s').failovers := by
  by_cases h : s' = s
  · rw [h, Chip.front_setFront]
  · exact congrArg Front.failovers ((Tbl.look_set ..).trans (if_neg h))

theorem Chip.failovers_leaveStage (id : Nat) (f : Frame) (s : Nat) : ((c.leaveStage id f).front s).failovers = (c.front s).failovers := by
  unfold Chip.leaveStage
  split
  · rw [Chip.front_clearThread]
  · exact Chip.failovers_setFront_release ..
  all_goals rfl

/-- What a forgotten frame leaves, from what its way out leaves. -/
theorem Chip.forget_same {β : Type} {g : Chip → β} (hport : ∀ c p f, g (Chip.updPrt c p f) = g c)
    (hstage : ∀ c id f, g (Chip.leaveStage c id f) = g c) (hdrop : ∀ c id, g (Chip.dropFr c id) = g c) (id : Nat) : g (c.forget id) = g c := by
  cases h : c.frames.look id with
  | none => rw [Chip.forget_of_none h]
  | some f => rw [Chip.forget_of_some h, hdrop, hstage, hport]

/-- What an in-flight count leaves. -/
theorem Chip.unstamp_same {β : Type} {g : Chip → β} (hreport : ∀ c i, g (Chip.report c U.device K.accordUnderflow 4 i) = g c)
    (hcount : ∀ c i v, g (Chip.setReg c (Chip.inflightReg i) v) = g c) (slot : Option Nat) : g (c.unstamp slot) = g c := by
  cases slot with
  | none => rfl
  | some i =>
    rw [Chip.unstamp, Chip.inflightDown]
    split
    · exact hreport ..
    · exact hcount ..

theorem Chip.role_setReg_inflight (i : Nat) (v : Word) (s n : Nat) : (c.setReg (Chip.inflightReg i) v).role s n = c.role s n := by
  refine Chip.get_setReg _ _ _ _ _ ?_
  have := Chip.inflightReg_lt i
  have := A.le_porter s n
  omega

theorem Chip.role_endFrame (id s n : Nat) : (c.endFrame id).role s n = c.role s n :=
  (Chip.forget_same (g := (·.role s n)) _ (fun _ _ _ => rfl) (fun _ _ _ => Chip.role_leaveStage ..) (fun _ _ => rfl) id).trans
    (Chip.unstamp_same (g := (·.role s n)) _ (fun _ _ => rfl) (fun _ _ _ => Chip.role_setReg_inflight ..) _)

theorem Chip.failovers_endFrame (id s : Nat) : ((c.endFrame id).front s).failovers = (c.front s).failovers :=
  (Chip.forget_same (g := fun c => (c.front s).failovers) _ (fun _ _ _ => rfl) (fun _ _ _ => Chip.failovers_leaveStage ..) (fun _ _ => rfl)
    id).trans (Chip.unstamp_same (g := fun c => (c.front s).failovers) _ (fun _ _ => rfl) (fun _ _ _ => rfl) _)

theorem Chip.endFrame_applies (id : Nat) : (c.endFrame id).applies = c.applies :=
  (Chip.forget_same (g := Chip.applies) _ (fun _ _ _ => rfl) (fun _ _ _ => Chip.leaveStage_applies ..) (fun _ _ => rfl) id).trans
    (Chip.unstamp_same (g := Chip.applies) _ (fun _ _ => rfl) (fun _ _ _ => rfl) _)

/-- The frame is there no more; every other one stays. -/
theorem Chip.endFrame_frames (id i : Nat) : (c.endFrame id).frames.look i = if i = id then none else c.frames.look i := by
  have hframes : (c.unstamp (c.fr id).slot).frames = c.frames := Chip.unstamp_same (g := Chip.frames) _ (fun _ _ => rfl) (fun _ _ _ => rfl) _
  rw [Chip.endFrame]
  cases h : c.frames.look id with
  | none =>
    rw [Chip.forget_of_none (by rw [hframes, h]), hframes]
    split
    · next hi => rw [hi, h]
    · rfl
  | some f =>
    rw [Chip.forget_of_some (f := f) (by rw [hframes, h]), Chip.dropFr, Tbl.look_set, Chip.leaveStage_frames, Chip.updPrt_frames, hframes]

end

/-! ### What may change beside a porter -/

/-- From `c` to `d` the applied image stays, messages are only added to those on their way to the ledger, and of the registers beyond the
global window only those change whose offset in their 4 KiB is listed. -/
structure Chip.Within (c d : Chip) (l : List Nat) : Prop where
  reg : ∀ a, 0x01000000 ≤ a → a % 0x1000 ∉ l → d.reg a = c.reg a
  sent : c.ledger.transit <+: d.ledger.transit
  image : d.image = c.image

section
variable {c d e : Chip} {l : List Nat}

theorem Chip.Within.refl (c : Chip) : c.Within c l := ⟨fun _ _ _ => rfl, List.prefix_rfl, rfl⟩

theorem Chip.Within.trans (h : c.Within d l) (h' : d.Within e l) : c.Within e l :=
  ⟨fun a ha hl => (h'.reg a ha hl).trans (h.reg a ha hl), h.sent.trans h'.sent, h'.image.trans h.image⟩

theorem Chip.Within.mono (h : c.Within d l) {l' : List Nat} (hl : l ⊆ l') : c.Within d l' :=
  ⟨fun a ha hal => h.reg a ha fun hm => hal (hl hm), h.sent, h.image⟩

/-- An update of something else. -/
theorem Chip.Within.same (h : c.Within d l) (hregs : e.regs = d.regs) (hledger : e.ledger = d.ledger) (himage : e.image = d.image) :
    c.Within e l :=
  h.trans ⟨fun a _ _ => Chip.reg_of_regs hregs a, by rw [hledger], himage⟩

theorem Chip.Within.setReg (h : c.Within d l) {a : Nat} (ha : a < 0x01000000 ∨ a % 0x1000 ∈ l) (v : Word) : c.Within (d.setReg a v) l := by
  refine h.trans ⟨fun b hb hl => Chip.reg_setReg_ne _ _ _ _ ?_, List.prefix_rfl, rfl⟩
  rintro rfl
  exact ha.elim (Nat.not_lt.mpr hb) hl

theorem Chip.Within.put (h : c.Within d l) {b : Nat} {f : Fld} (ha : b + f.off < 0x01000000 ∨ (b + f.off) % 0x1000 ∈ l) (n : Nat) :
    c.Within (d.put b f n) l := h.setReg ha _

theorem Chip.Within.cnt (h : c.Within d l) {a : Nat} (ha : a < 0x01000000 ∨ a % 0x1000 ∈ l) (n : Nat) : c.Within (d.cnt a n) l :=
  h.setReg ha _

theorem Chip.Within.report (h : c.Within d l) (u k v x : Nat) (i : Bool) : c.Within (d.report u k v x i) l :=
  h.trans ⟨fun _ _ _ => rfl, List.prefix_append .., rfl⟩

theorem Chip.Within.when (h : c.Within d l) {b : Bool} {f : Chip → Chip} (hf : c.Within (f d) l) : c.Within (d.when b f) l := by
  cases b
  · exact h
  · exact hf

theorem Chip.Within.each {α : Type} (h : c.Within d l) (xs : List α) {f : Chip → α → Chip} (hf : ∀ (c : Chip) x, c.Within (f c x) l) :
    c.Within (d.each xs f) l := by
  induction xs generalizing d with
  | nil => exact h
  | cons x xs ih => exact ih (h.trans (hf d x))

/-- A register in a porter's window. -/
theorem A.porter_add_mod (s n : Nat) {o : Nat} (h : o < 0x1000) : (A.porter s n + o) % 0x1000 = o := by
  have := A.porter_mod s n
  omega

theorem Chip.Within.regPorter (h : c.Within d l) (s n : Nat) {o : Nat} (ho : o < 0x1000) (hl : o ∉ l) :
    d.reg (A.porter s n + o) = c.reg (A.porter s n + o) :=
  h.reg _ (Nat.le_add_right_of_le (A.le_porter s n)) (by rwa [A.porter_add_mod s n ho])

theorem Chip.Within.unstamp (h : c.Within d l) (slot : Option Nat) : c.Within (d.unstamp slot) l := by
  cases slot with
  | none => exact h
  | some i =>
    rw [Chip.unstamp, Chip.inflightDown]
    split
    · exact h.report ..
    · exact h.setReg (.inl ((Chip.inflightReg_lt i).trans (by decide))) _

theorem Chip.Within.syncBusy (h : c.Within d l) (hl : 0 ∈ l) (s n : Nat) : c.Within (d.syncBusy s n) l :=
  h.put (f := R.PORTER_STATUS_busy) (.inr ((A.porter_mod s n).symm ▸ hl)) _

theorem Chip.Within.setPorter (h : c.Within d l) (s n : Nat) (p : Porter) : c.Within (d.setPorter s n p) l := h.same rfl rfl rfl

theorem Chip.Within.setFr (h : c.Within d l) (id : Nat) (f : Frame) : c.Within (d.setFr id f) l := h.same rfl rfl rfl

theorem Chip.Within.setFront (h : c.Within d l) (s : Nat) (f : Front) : c.Within (d.setFront s f) l := h.same rfl rfl rfl

theorem Chip.Within.clearThread (h : c.Within d l) (hl : 0 ∈ l) (s n t : Nat) : c.Within (d.clearThread s n t) l :=
  (h.setPorter s n _).syncBusy hl s n

theorem Chip.Within.leaveStage (h : c.Within d l) (hl : 0 ∈ l) (id : Nat) (f : Frame) : c.Within (d.leaveStage id f) l := by
  unfold Chip.leaveStage
  split
  · exact h.clearThread hl ..
  all_goals exact h.same rfl rfl rfl

theorem Chip.Within.forget (h : c.Within d l) (hl : 0 ∈ l) (id : Nat) : c.Within (d.forget id) l := by
  cases hf : d.frames.look id with
  | none => rwa [Chip.forget_of_none hf]
  | some f =>
    rw [Chip.forget_of_some hf]
    have hport : c.Within (d.updPrt f.home (Port.without id)) l := h.same rfl rfl rfl
    exact (hport.leaveStage hl id f).same rfl rfl rfl

theorem Chip.Within.endFrame (h : c.Within d l) (hl : 0 ∈ l) (id : Nat) : c.Within (d.endFrame id) l := (h.unstamp _).forget hl id

end

end Sys2Proof.Machine
end

section
/-! SUPPORT. A porter fails or is retired, and a spare is looked for (spec/05_porters.md R123 to R125). -/

namespace Sys2Proof.Machine

open Sys2Proof

/-! ### Messages -/

theorem Chip.report_sent (c : Chip) (u k v x : Nat) : (c.report u k v x).ledger = c.sent [c.msgOf u k v x] := rfl

theorem Chip.mem_report (c : Chip) (u k v x : Nat) : c.msgOf u k v x ∈ (c.report u k v x).ledger.transit :=
  List.mem_append_right _ (List.mem_singleton_self _)

/-- Messages are those of the units of the applied image. -/
theorem Chip.msgOf_of_image {c d : Chip} (h : d.image = c.image) (u k v x : Nat) : d.msgOf u k v x = c.msgOf u k v x := by
  unfold Chip.msgOf Chip.suiteUnit Chip.suitePos Chip.suiteOf
  rw [h]

/-! ### PORTER_SUMMARY and the search for a spare -/

section
variable (c : Chip) (s : Nat)

@[simp] theorem Chip.syncPorters_frames : (c.syncPorters s).frames = c.frames := by
  rw [Chip.syncPorters, Chip.put_frames, Chip.put_frames, Chip.put_frames]
@[simp] theorem Chip.syncPorters_ledger : (c.syncPorters s).ledger = c.ledger := by
  rw [Chip.syncPorters, Chip.put_ledger, Chip.put_ledger, Chip.put_ledger]
@[simp] theorem Chip.syncPorters_applies : (c.syncPorters s).applies = c.applies := by
  rw [Chip.syncPorters, Chip.put_applies, Chip.put_applies, Chip.put_applies]
@[simp] theorem Chip.porter_syncPorters (s' n : Nat) : (c.syncPorters s).porter s' n = c.porter s' n := by
  rw [Chip.syncPorters, Chip.porter_put, Chip.porter_put, Chip.porter_put]
@[simp] theorem Chip.front_syncPorters (s' : Nat) : (c.syncPorters s).front s' = c.front s' := by
  rw [Chip.syncPorters, Chip.front_put, Chip.front_put, Chip.front_put]

theorem Chip.keeps_syncPorters {ps : List Part} : c.Keeps (c.syncPorters s) [A.slice s + R.PORTER_SUMMARY] ps :=
  (Chip.Keeps.refl c).syncPorters (.head _)

/-- A slice's own registers are none of a porter's. -/
theorem A.slice_add_ne_porter (s' n : Nat) {o o' : Nat} (ho' : o' < 0x1000) (h : o % 0x1000 ≠ o') : A.slice s + o ≠ A.porter s' n + o' := by
  have := A.slice_mod s
  have := A.porter_mod s' n
  omega

theorem Chip.role_syncPorters (s' n : Nat) : (c.syncPorters s).role s' n = c.role s' n :=
  (Chip.keeps_syncPorters c s (ps := [])).get
    (List.mem_singleton.not.mpr (A.slice_add_ne_porter s s' n (o := R.PORTER_SUMMARY) (by decide) (by decide)).symm)

/-- Fields of PORTER_SUMMARY that are no count of porters, and fields of other registers, stay. -/
theorem Chip.get_syncPorters {b : Nat} {f : Fld} (hf : f.hi < 8 ∨ 29 < f.lo ∧ f.hi < 64) : (c.syncPorters s).get b f = c.get b f := by
  rw [Chip.syncPorters, Chip.get_put_field _ _ _ _ _ _ (show _ from ⟨by decide, by omega, by simp only [R.PORTER_SUMMARY_failed_count]; omega⟩),
    Chip.get_put_field _ _ _ _ _ _ (show _ from ⟨by decide, by omega, by simp only [R.PORTER_SUMMARY_spares_free]; omega⟩),
    Chip.get_put_field _ _ _ _ _ _ (show _ from ⟨by decide, by omega, by simp only [R.PORTER_SUMMARY_active_count]; omega⟩)]

theorem Chip.Within.syncPorters {c d : Chip} {l : List Nat} (h : c.Within d l) (hl : 0x100 ∈ l) (s : Nat) : c.Within (d.syncPorters s) l := by
  have ha : (A.slice s + R.PORTER_SUMMARY) % 0x1000 = 0x100 := by
    have := A.slice_mod s
    simp only [R.PORTER_SUMMARY]
    omega
  exact ((h.put (f := R.PORTER_SUMMARY_active_count) (.inr (ha ▸ hl)) _).put (f := R.PORTER_SUMMARY_spares_free) (.inr (ha ▸ hl)) _).put
    (f := R.PORTER_SUMMARY_failed_count) (.inr (ha ▸ hl)) _

/-- The spare that a failover takes (R125). -/
def Chip.spareOf : Option Nat := (List.range 34).find? fun n => c.freeSpare s n

theorem Chip.seekSpare_some {c : Chip} {s m : Nat} (h : c.spareOf s = some m) (failed : Nat) :
    c.seekSpare s failed = (c.setFront s { c.front s with failovers := (c.front s).failovers ++ [(failed, m, false)] }).syncPorters s := by
  rw [Chip.spareOf] at h
  rw [Chip.seekSpare, h]

theorem Chip.seekSpare_none {c : Chip} {s : Nat} (h : c.spareOf s = none) (failed : Nat) :
    c.seekSpare s failed = (c.report (U.slice s) K.porterNoSpare 3).syncPorters s := by
  rw [Chip.spareOf] at h
  rw [Chip.seekSpare, h]

/-- Without a free spare none is found. -/
theorem Chip.spareOf_none_iff : c.spareOf s = none ↔ ((List.range 34).any fun m => c.freeSpare s m) = false := by
  rw [Chip.spareOf, List.find?_eq_none, List.any_eq_false]

section
variable (failed : Nat)

/-- What the search for a spare leaves, from what its three steps leave. -/
theorem Chip.seekSpare_same {β : Type} {g : Chip → β} (hfront : ∀ c f, g (Chip.setFront c s f) = g c)
    (hreport : ∀ c, g (Chip.report c (U.slice s) K.porterNoSpare 3) = g c) (hsync : ∀ c, g (Chip.syncPorters c s) = g c) :
    g (c.seekSpare s failed) = g c := by
  cases h : c.spareOf s with
  | some m => rw [Chip.seekSpare_some h, hsync, hfront]
  | none => rw [Chip.seekSpare_none h, hsync, hreport]

theorem Chip.seekSpare_frames : (c.seekSpare s failed).frames = c.frames :=
  c.seekSpare_same s failed (fun _ _ => rfl) (fun _ => rfl) fun _ => Chip.syncPorters_frames ..

theorem Chip.seekSpare_applies : (c.seekSpare s failed).applies = c.applies :=
  c.seekSpare_same s failed (fun _ _ => rfl) (fun _ => rfl) fun _ => Chip.syncPorters_applies ..

theorem Chip.porter_seekSpare (s' n : Nat) : (c.seekSpare s failed).porter s' n = c.porter s' n :=
  c.seekSpare_same s failed (g := (·.porter s' n)) (fun _ _ => rfl) (fun _ => rfl) fun _ => Chip.porter_syncPorters ..

theorem Chip.role_seekSpare (s' n : Nat) : (c.seekSpare s failed).role s' n = c.role s' n :=
  c.seekSpare_same s failed (g := (·.role s' n)) (fun _ _ => rfl) (fun _ => rfl) fun _ => Chip.role_syncPorters ..

theorem Chip.get_seekSpare {b : Nat} {f : Fld} (hf : f.hi < 8 ∨ 29 < f.lo ∧ f.hi < 64) : (c.seekSpare s failed).get b f = c.get b f :=
  c.seekSpare_same s failed (g := (·.get b f)) (fun _ _ => rfl) (fun _ => rfl) fun _ => Chip.get_syncPorters _ _ hf

theorem Chip.Within.seekSpare {c d : Chip} {l : List Nat} (h : c.Within d l) (hl : 0x100 ∈ l) (s failed : Nat) :
    c.Within (d.seekSpare s failed) l := by
  cases hs : d.spareOf s with
  | some m =>
    rw [Chip.seekSpare_some hs]
    exact (h.setFront s _).syncPorters hl s
  | none =>
    rw [Chip.seekSpare_none hs]
    exact (h.report ..).syncPorters hl s

theorem Chip.Keeps.seekSpare {c d : Chip} {l : List Nat} {ps : List Part} (h : c.Keeps d l ps) {s : Nat}
    (ha : A.slice s + R.PORTER_SUMMARY ∈ l) (hf : .fronts ∈ ps) (hl : .ledger ∈ ps) (failed : Nat) : c.Keeps (d.seekSpare s failed) l ps := by
  cases hs : d.spareOf s with
  | some m =>
    rw [Chip.seekSpare_some hs]
    exact (h.setFront hf ..).syncPorters ha
  | none =>
    rw [Chip.seekSpare_none hs]
    exact (h.report hl ..).syncPorters ha

end

end

/-! ### The withdrawal of a porter's apply (R50) -/

/-- The APPLY_STATUS of a domain shows why its apply ended. -/
def Chip.showReason (c : Chip) (a r : Nat) : Chip :=
  (((c.put a R.APPLY_STATUS_pending 0).put a R.APPLY_STATUS_apply_err 1).put a R.APPLY_STATUS_err_irq 1).put a R.APPLY_STATUS_reason r

theorem Chip.withdrawApply_none {c : Chip} {b : Nat} (h : c.applies.look b = none) (a r : Nat) : c.withdrawApply b a r = c := by
  rw [Chip.withdrawApply, h]

theorem Chip.withdrawApply_some {c : Chip} {b : Nat} {d : Apply} (h : c.applies.look b = some d) (a r : Nat) :
    c.withdrawApply b a r = (c.setApply b none).showReason (a + 4) r := by
  rw [Chip.withdrawApply, h]
  rfl

section
variable (c : Chip) (b a r : Nat)

@[simp] theorem Chip.showReason_frames : (c.showReason a r).frames = c.frames := by
  rw [Chip.showReason, Chip.put_frames, Chip.put_frames, Chip.put_frames, Chip.put_frames]
@[simp] theorem Chip.showReason_applies : (c.showReason a r).applies = c.applies := by
  rw [Chip.showReason, Chip.put_applies, Chip.put_applies, Chip.put_applies, Chip.put_applies]
@[simp] theorem Chip.porter_showReason (s n : Nat) : (c.showReason a r).porter s n = c.porter s n := by
  rw [Chip.showReason, Chip.porter_put, Chip.porter_put, Chip.porter_put, Chip.porter_put]
@[simp] theorem Chip.front_showReason (s : Nat) : (c.showReason a r).front s = c.front s := by
  rw [Chip.showReason, Chip.front_put, Chip.front_put, Chip.front_put, Chip.front_put]

/-- What a withdrawal leaves, from what its two steps leave. -/
theorem Chip.withdrawApply_same {β : Type} {g : Chip → β} (hset : ∀ c, g (Chip.setApply c b none) = g c)
    (hshow : ∀ c, g (Chip.showReason c (a + 4) r) = g c) : g (c.withdrawApply b a r) = g c := by
  cases h : c.applies.look b with
  | none => rw [Chip.withdrawApply_none h]
  | some d => rw [Chip.withdrawApply_some h, hshow, hset]

theorem Chip.withdrawApply_frames : (c.withdrawApply b a r).frames = c.frames :=
  c.withdrawApply_same b a r (fun _ => rfl) fun _ => Chip.showReason_frames ..

theorem Chip.porter_withdrawApply (s n : Nat) : (c.withdrawApply b a r).porter s n = c.porter s n :=
  c.withdrawApply_same b a r (g := (·.porter s n)) (fun _ => rfl) fun _ => Chip.porter_showReason ..

theorem Chip.front_withdrawApply (s : Nat) : (c.withdrawApply b a r).front s = c.front s :=
  c.withdrawApply_same b a r (g := (·.front s)) (fun _ => rfl) fun _ => Chip.front_showReason ..

theorem Chip.keeps_showReason {ps : List Part} : c.Keeps (c.showReason a r) [a] ps :=
  ((((Chip.Keeps.refl c).put (f := R.APPLY_STATUS_pending) (.head _) _).put (f := R.APPLY_STATUS_apply_err) (.head _) _).put
    (f := R.APPLY_STATUS_err_irq) (.head _) _).put (f := R.APPLY_STATUS_reason) (.head _) _

theorem Chip.reason_showReason {r : Nat} (h : r < 256) : (c.showReason a r).get a R.APPLY_STATUS_reason = r :=
  (Chip.get_put_same _ _ _ _ (by decide)).trans (Nat.mod_eq_of_lt h)

theorem Chip.role_showReason (s' n' s n : Nat) : (c.showReason (A.porter s' n' + 0xFFC) r).role s n = c.role s n := by
  refine (c.keeps_showReason _ r (ps := [])).get (List.mem_singleton.not.mpr fun h => ?_)
  have := A.porter_mod s n
  have := A.porter_mod s' n'
  simp only [R.PORTER_STATUS_role] at h
  omega

theorem Chip.Within.showReason {c d : Chip} {l : List Nat} (h : c.Within d l) {a : Nat} (ha : a % 0x1000 ∈ l) (r : Nat) :
    c.Within (d.showReason a r) l :=
  (((h.put (f := R.APPLY_STATUS_pending) (.inr ha) _).put (f := R.APPLY_STATUS_apply_err) (.inr ha) _).put
    (f := R.APPLY_STATUS_err_irq) (.inr ha) _).put (f := R.APPLY_STATUS_reason) (.inr ha) _

theorem Chip.Within.withdrawApply {c d : Chip} {l : List Nat} (h : c.Within d l) (hl : 0xFFC ∈ l) (s n r : Nat) :
    c.Within (d.withdrawApply (A.porter s n) (A.porter s n + 0xFF8) r) l := by
  cases hd : d.applies.look (A.porter s n) with
  | none => rwa [Chip.withdrawApply_none hd]
  | some v =>
    rw [Chip.withdrawApply_some hd]
    have hset : c.Within (d.setApply (A.porter s n) none) l := h.same rfl rfl rfl
    exact hset.showReason (by rwa [Nat.add_assoc, A.porter_add_mod s n (by decide)]) r

end

/-! ### The frames of a porter's threads -/

/-- The frames in a porter's threads. -/
def Chip.threadFrames (c : Chip) (s n : Nat) : List Nat := (List.range 4).filterMap fun th => (c.threadOf s n th).frame

theorem Chip.threadFrames_of_porter {c d : Chip} {s n : Nat} (h : d.porter s n = c.porter s n) : d.threadFrames s n = c.threadFrames s n := by
  unfold Chip.threadFrames Chip.threadOf
  rw [h]

/-- One of them is dropped and counted. -/
def Chip.dropCounted (c : Chip) (a id : Nat) : Chip := (c.cnt a 1).endFrame id

theorem Chip.dropThreads_eq (c : Chip) (s n k : Nat) :
    c.dropThreads s n k = ((c.each (c.threadFrames s n) fun c id => c.dropCounted (A.porter s n + k) id).setPorter s n {}).syncBusy s n := rfl

section
variable (c : Chip) (a : Nat) (ids : List Nat)

theorem Chip.Within.dropCounted {c d : Chip} {l : List Nat} (h : c.Within d l) (hl : 0 ∈ l) {a : Nat} (ha : a % 0x1000 ∈ l) (id : Nat) :
    c.Within (d.dropCounted a id) l := (h.cnt (.inr ha) 1).endFrame hl id

/-- Each frame counts once. -/
theorem Chip.reg_each_dropCounted (ha : 0x01000000 ≤ a) (hm : a % 0x1000 ≠ 0) :
    (c.each ids fun c id => c.dropCounted a id).reg a = c.reg a + BitVec.ofNat 64 ids.length := by
  induction ids generalizing c with
  | nil => simp
  | cons id ids ih =>
    have hend : (c.dropCounted a id).reg a = c.reg a + BitVec.ofNat 64 1 := by
      have hwithin : (c.cnt a 1).Within (c.dropCounted a id) [0] := (Chip.Within.refl _).endFrame (.head _) id
      rw [hwithin.reg a ha (by simpa using hm), Chip.reg_cnt_same]
    rw [Chip.each_cons, ih, hend, List.length_cons, BitVec.add_assoc, ← BitVec.ofNat_add, Nat.add_comm 1]

/-- A frame that is gone stays gone, and those that are dropped are gone. -/
theorem Chip.frames_each_dropCounted {i : Nat} (h : c.frames.look i = none ∨ i ∈ ids) :
    (c.each ids fun c id => c.dropCounted a id).frames.look i = none := by
  induction ids generalizing c with
  | nil => exact h.resolve_right List.not_mem_nil
  | cons id ids ih =>
    rw [Chip.each_cons]
    refine ih (c.dropCounted a id) ?_
    rw [Chip.dropCounted, Chip.endFrame_frames, Chip.cnt_frames]
    obtain h | h := h
    · exact .inl (by rw [h, ite_self])
    · exact (List.mem_cons.mp h).imp_left fun hi => if_pos hi

end

section
variable (c : Chip) (s n : Nat)

/-- A dropped frame leaves every porter's role: counters stand apart from PORTER_STATUS. -/
theorem Chip.role_dropCounted {a : Nat} (ha : a % 0x1000 ≠ 0) (id s' n' : Nat) : (c.dropCounted a id).role s' n' = c.role s' n' := by
  rw [Chip.dropCounted, Chip.role_endFrame]
  refine Chip.get_cnt _ _ _ _ _ ?_
  rintro rfl
  exact ha (A.porter_mod s' n')

theorem Chip.failovers_dropCounted (a id s' : Nat) : ((c.dropCounted a id).front s').failovers = (c.front s').failovers := by
  rw [Chip.dropCounted, Chip.failovers_endFrame, Chip.front_cnt]

theorem Chip.dropCounted_applies (a id : Nat) : (c.dropCounted a id).applies = c.applies := by
  rw [Chip.dropCounted, Chip.endFrame_applies, Chip.cnt_applies]

theorem Chip.role_dropThreads {k : Nat} (hk : 0 < k ∧ k < 0x1000) (s' n' : Nat) : (c.dropThreads s n k).role s' n' = c.role s' n' := by
  have ha : (A.porter s n + k) % 0x1000 ≠ 0 := by
    rw [A.porter_add_mod s n hk.2]
    exact hk.1.ne'
  rw [Chip.dropThreads_eq, Chip.role_syncBusy]
  exact Chip.each_same (g := (·.role s' n')) (fun _ _ => Chip.role_dropCounted _ ha ..) _ _

theorem Chip.failovers_dropThreads (k s' : Nat) : ((c.dropThreads s n k).front s').failovers = (c.front s').failovers := by
  rw [Chip.dropThreads_eq, Chip.front_syncBusy]
  exact Chip.each_same (g := fun c => (c.front s').failovers) (fun _ _ => Chip.failovers_dropCounted ..) _ _

theorem Chip.dropThreads_applies (k : Nat) : (c.dropThreads s n k).applies = c.applies := by
  rw [Chip.dropThreads_eq, Chip.syncBusy_applies]
  exact Chip.each_same (g := Chip.applies) (fun _ _ => Chip.dropCounted_applies ..) _ _

theorem Chip.dropThreads_frames (k : Nat) {i : Nat} (h : c.frames.look i = none ∨ i ∈ c.threadFrames s n) :
    (c.dropThreads s n k).frames.look i = none := by
  rw [Chip.dropThreads_eq, Chip.syncBusy_frames, Chip.setPorter_frames]
  exact Chip.frames_each_dropCounted _ _ _ h

theorem Chip.porter_dropThreads (k : Nat) : (c.dropThreads s n k).porter s n = {} := by
  rw [Chip.dropThreads_eq, Chip.porter_syncBusy, Chip.porter_setPorter]

theorem Chip.reg_dropThreads {k : Nat} (hk : 0 < k ∧ k < 0x1000) : (c.dropThreads s n k).reg (A.porter s n + k) =
    c.reg (A.porter s n + k) + BitVec.ofNat 64 (c.threadFrames s n).length := by
  have ha : (A.porter s n + k) % 0x1000 ≠ 0 := by
    rw [A.porter_add_mod s n hk.2]
    exact hk.1.ne'
  have hne : A.porter s n + k ≠ A.porter s n + R.PORTER_STATUS := Nat.add_left_cancel_iff.not.mpr hk.1.ne'
  rw [Chip.dropThreads_eq, Chip.syncBusy, Chip.reg_put_ne _ _ _ _ _ hne, Chip.reg_setPorter,
    Chip.reg_each_dropCounted _ _ _ (Nat.le_add_right_of_le (A.le_porter s n)) ha]

theorem Chip.Within.dropThreads {c d : Chip} {l : List Nat} (h : c.Within d l) (hl : 0 ∈ l) {k : Nat} (hk : k < 0x1000) (hkl : k ∈ l)
    (s n : Nat) : c.Within (d.dropThreads s n k) l := by
  rw [Chip.dropThreads_eq]
  exact ((h.each _ fun c id => (Chip.Within.refl c).dropCounted hl (by rwa [A.porter_add_mod s n hk]) id).setPorter s n _).syncBusy hl s n

end

/-! ### Failure and retirement (R123) -/

/-- The role that a porter's failure of a cause leaves it (Table 5-11). -/
def failedRole (cause : Nat) : Nat := if cause = 3 then 3 else 2

/-- The porter's role shows that it failed, and PORTER_FAIL is sent. -/
def Chip.markFailed (c : Chip) (s n cause : Nat) : Chip :=
  (c.put (A.porter s n) R.PORTER_STATUS_role (failedRole cause)).report (porterUnit s n) K.porterFail 2 cause

section
variable (c : Chip) (s n cause : Nat)

@[simp] theorem Chip.markFailed_frames : (c.markFailed s n cause).frames = c.frames := by
  rw [Chip.markFailed, Chip.report_frames, Chip.put_frames]
@[simp] theorem Chip.markFailed_applies : (c.markFailed s n cause).applies = c.applies := by
  rw [Chip.markFailed, Chip.report_applies, Chip.put_applies]
@[simp] theorem Chip.front_markFailed (s' : Nat) : (c.markFailed s n cause).front s' = c.front s' := by
  rw [Chip.markFailed, Chip.front_report, Chip.front_put]
@[simp] theorem Chip.porter_markFailed (s' n' : Nat) : (c.markFailed s n cause).porter s' n' = c.porter s' n' := by
  rw [Chip.markFailed, Chip.porter_report, Chip.porter_put]

theorem Chip.reg_markFailed {a : Nat} (h : a ≠ A.porter s n + R.PORTER_STATUS) : (c.markFailed s n cause).reg a = c.reg a := by
  rw [Chip.markFailed, Chip.reg_report]
  exact Chip.reg_put_ne _ _ _ _ _ h

theorem Chip.role_markFailed : (c.markFailed s n cause).role s n = failedRole cause := by
  rw [Chip.role, Chip.markFailed, Chip.get_report, Chip.get_put_same _ _ _ _ (by decide)]
  refine Nat.mod_eq_of_lt ?_
  unfold failedRole
  split <;> decide

theorem Chip.role_markFailed_other {m : Nat} (h : m ≠ n) : (c.markFailed s n cause).role s m = c.role s m := by
  rw [Chip.role, Chip.markFailed, Chip.get_report]
  exact Chip.get_put_reg _ _ _ _ _ _ fun ha => h (A.porter_inj ha)

theorem Chip.sent_markFailed : c.msgOf (porterUnit s n) K.porterFail 2 cause ∈ (c.markFailed s n cause).ledger.transit := by
  rw [← Chip.msgOf_of_image (Chip.put_image c (A.porter s n) R.PORTER_STATUS_role (failedRole cause))]
  exact Chip.mem_report ..

theorem Chip.Within.markFailed {c d : Chip} {l : List Nat} (h : c.Within d l) (hl : 0 ∈ l) (s n cause : Nat) :
    c.Within (d.markFailed s n cause) l :=
  (h.put (f := R.PORTER_STATUS_role) (.inr ((A.porter_mod s n).symm ▸ hl)) _).report ..

end

theorem Chip.Keeps.markFailed {c d : Chip} {l : List Nat} {ps : List Part} (h : c.Keeps d l ps) {s n : Nat}
    (ha : A.porter s n + R.PORTER_STATUS ∈ l) (hl : .ledger ∈ ps) (cause : Nat) : c.Keeps (d.markFailed s n cause) l ps := by
  have hput : c.Keeps (d.put (A.porter s n) R.PORTER_STATUS_role (failedRole cause)) l ps := h.put ha _
  exact hput.report hl _ _ _ _ _

/-- A porter that fails, before a spare is looked for. -/
def Chip.porterDown (c : Chip) (s n cause : Nat) : Chip :=
  ((c.markFailed s n cause).dropThreads s n C.porter_fail_discard).withdrawApply (A.porter s n) (A.porter s n + 0xFF8) 6

theorem Chip.failPorter_eq (c : Chip) (s n cause : Nat) : c.failPorter s n cause = (c.porterDown s n cause).seekSpare s n := by
  rw [Chip.failPorter, Chip.porterDown, Chip.markFailed, failedRole]

/-- Offsets of the registers that a porter's failure changes in their 4 KiB: PORTER_STATUS, PORTER_SUMMARY, porter_fail_discard and
APPLY_STATUS. -/
def failOffsets : List Nat := [0, 0x100, 0x830, 0xFFC]

theorem Chip.Within.porterDown {c d : Chip} {l : List Nat} (h : c.Within d l) (h0 : 0 ∈ l) (hd : 0x830 ∈ l) (ha : 0xFFC ∈ l) (s n cause : Nat) :
    c.Within (d.porterDown s n cause) l :=
  ((h.markFailed h0 s n cause).dropThreads h0 (by decide) hd s n).withdrawApply ha s n 6

theorem Chip.Within.failPorter {c d : Chip} {l : List Nat} (h : c.Within d l) (hl : ∀ o ∈ failOffsets, o ∈ l) (s n cause : Nat) :
    c.Within (d.failPorter s n cause) l := by
  rw [Chip.failPorter_eq]
  exact (h.porterDown (hl 0 (by decide)) (hl 0x830 (by decide)) (hl 0xFFC (by decide)) s n cause).seekSpare (hl 0x100 (by decide)) s n

section
variable (c : Chip) (s n cause : Nat)

theorem Chip.role_porterDown_eq (s' n' : Nat) : (c.porterDown s n cause).role s' n' = (c.markFailed s n cause).role s' n' :=
  (Chip.withdrawApply_same (g := (·.role s' n')) _ _ _ _ (fun _ => rfl) fun _ => Chip.role_showReason ..).trans
    (Chip.role_dropThreads _ _ _ (by decide) ..)

theorem Chip.role_porterDown : (c.porterDown s n cause).role s n = failedRole cause := by
  rw [Chip.role_porterDown_eq, Chip.role_markFailed]

theorem Chip.role_porterDown_other {m : Nat} (h : m ≠ n) : (c.porterDown s n cause).role s m = c.role s m := by
  rw [Chip.role_porterDown_eq, Chip.role_markFailed_other _ _ _ _ h]

theorem Chip.failovers_porterDown (s' : Nat) : ((c.porterDown s n cause).front s').failovers = (c.front s').failovers := by
  rw [Chip.porterDown, Chip.front_withdrawApply, Chip.failovers_dropThreads, Chip.front_markFailed]

/-- The failure of an active porter leaves the spares as they are. -/
theorem Chip.spareOf_porterDown (h : c.role s n = 0) : (c.porterDown s n cause).spareOf s = c.spareOf s := by
  have hfree : ∀ m, (c.porterDown s n cause).freeSpare s m = c.freeSpare s m := fun m => by
    rw [Chip.freeSpare, Chip.failovers_porterDown, Chip.freeSpare]
    by_cases hm : m = n
    · have hrole : (failedRole cause == 1) = false := by
        unfold failedRole
        split <;> rfl
      rw [hm, Chip.role_porterDown, h, hrole]
      rfl
    · rw [Chip.role_porterDown_other _ _ _ _ hm]
  rw [Chip.spareOf, Chip.spareOf]
  exact congrArg (List.find? · _) (funext hfree)

theorem Chip.frames_failPorter {i : Nat} (h : c.frames.look i = none ∨ i ∈ c.threadFrames s n) :
    (c.failPorter s n cause).frames.look i = none := by
  rw [Chip.failPorter_eq, Chip.seekSpare_frames, Chip.porterDown, Chip.withdrawApply_frames]
  refine Chip.dropThreads_frames _ _ _ _ ?_
  rwa [Chip.markFailed_frames, Chip.threadFrames_of_porter (Chip.porter_markFailed ..)]

theorem Chip.role_failPorter : (c.failPorter s n cause).role s n = failedRole cause := by
  rw [Chip.failPorter_eq, Chip.role_seekSpare, Chip.role_porterDown]

theorem Chip.porter_failPorter : (c.failPorter s n cause).porter s n = {} := by
  rw [Chip.failPorter_eq, Chip.porter_seekSpare, Chip.porterDown, Chip.porter_withdrawApply, Chip.porter_dropThreads]

theorem Chip.discards_failPorter : (c.failPorter s n cause).reg (A.porter s n + C.porter_fail_discard) =
    c.reg (A.porter s n + C.porter_fail_discard) + BitVec.ofNat 64 (c.threadFrames s n).length := by
  have hlater : ∀ d : Chip, d.Within ((d.withdrawApply (A.porter s n) (A.porter s n + 0xFF8) 6).seekSpare s n) [0xFFC, 0x100] := fun d =>
    ((Chip.Within.refl d).withdrawApply (.head _) s n 6).seekSpare (.tail _ (.head _)) s n
  have hne : A.porter s n + C.porter_fail_discard ≠ A.porter s n + R.PORTER_STATUS := Nat.add_left_cancel_iff.not.mpr (by decide)
  rw [Chip.failPorter_eq, Chip.porterDown, (hlater _).regPorter s n (by decide) (by decide), Chip.reg_dropThreads _ _ _ (by decide),
    Chip.reg_markFailed _ _ _ _ hne, Chip.threadFrames_of_porter (Chip.porter_markFailed ..)]

/-- A pending apply of the porter's window ends with reason 6. -/
theorem Chip.applies_failPorter (h : c.applies.look (A.porter s n) ≠ none) :
    (c.failPorter s n cause).applies.look (A.porter s n) = none ∧
      (c.failPorter s n cause).get (A.porter s n + 0xFFC) R.APPLY_STATUS_reason = 6 := by
  obtain ⟨d, hd⟩ := Option.ne_none_iff_exists'.mp h
  have hdrop : ((c.markFailed s n cause).dropThreads s n C.porter_fail_discard).applies.look (A.porter s n) = some d := by
    rw [Chip.dropThreads_applies, Chip.markFailed_applies, hd]
  have hsync : ∀ e : Chip, (e.seekSpare s n).get (A.porter s n + 0xFFC) R.APPLY_STATUS_reason =
      e.get (A.porter s n + 0xFFC) R.APPLY_STATUS_reason := fun e => by
      have hreg := ((Chip.Within.refl e).seekSpare (l := [0x100]) (.head _) s n).regPorter s n (o := 0xFFC) (by decide) (by decide)
      exact congrArg (bits · 23 16) hreg
  rw [Chip.failPorter_eq, Chip.porterDown, Chip.withdrawApply_some hdrop]
  constructor
  · rw [Chip.seekSpare_applies, Chip.showReason_applies, Chip.setApply_applies, Tbl.look_set, if_pos rfl]
  · rw [hsync]
    exact Chip.reason_showReason _ _ (by decide)

/-- A free spare is assigned. -/
theorem Chip.failovers_failPorter (h : c.role s n = 0) {m : Nat} (hm : c.spareOf s = some m) :
    ((c.failPorter s n cause).front s).failovers = (c.front s).failovers ++ [(n, m, false)] := by
  rw [Chip.failPorter_eq, Chip.seekSpare_some ((c.spareOf_porterDown s n cause h).trans hm), Chip.front_syncPorters, Chip.front_setFront,
    Chip.failovers_porterDown]

/-- PORTER_FAIL is sent. -/
theorem Chip.sent_failPorter : c.msgOf (porterUnit s n) K.porterFail 2 cause ∈ (c.failPorter s n cause).ledger.transit := by
  have hlater : ∀ d : Chip, d.Within (((d.dropThreads s n C.porter_fail_discard).withdrawApply (A.porter s n) (A.porter s n + 0xFF8)
      6).seekSpare s n) failOffsets := fun d =>
    (((Chip.Within.refl d).dropThreads (by decide) (by decide) (by decide) s n).withdrawApply (by decide) s n 6).seekSpare (by decide) s n
  rw [Chip.failPorter_eq, Chip.porterDown]
  exact (hlater _).sent.subset (Chip.sent_markFailed ..)

/-- Without a free spare PORTER_NO_SPARE is sent. -/
theorem Chip.noSpare_failPorter (h : c.role s n = 0) (hm : c.spareOf s = none) :
    c.msgOf (U.slice s) K.porterNoSpare 3 ∈ (c.failPorter s n cause).ledger.transit := by
  have himage : (c.porterDown s n cause).image = c.image :=
    ((Chip.Within.refl c).porterDown (l := failOffsets) (by decide) (by decide) (by decide) s n cause).image
  rw [Chip.failPorter_eq, Chip.seekSpare_none ((c.spareOf_porterDown s n cause h).trans hm), Chip.syncPorters_ledger,
    ← Chip.msgOf_of_image himage]
  exact Chip.mem_report ..

/-- The result of a retirement stands in PORTER_SUMMARY. -/
theorem Chip.get_failPorter_summary {f : Fld} (ho : f.off = R.PORTER_SUMMARY) (hf : f.hi < 8 ∨ 29 < f.lo ∧ f.hi < 64) :
    (c.failPorter s n cause).get (A.slice s) f = c.get (A.slice s) f := by
  have hdown : c.Within (c.porterDown s n cause) [0, 0x830, 0xFFC] :=
    (Chip.Within.refl c).porterDown (.head _) (.tail _ (.head _)) (.tail _ (.tail _ (.head _))) s n cause
  rw [Chip.failPorter_eq, Chip.get_seekSpare _ _ _ hf, Chip.get, hdown.reg _ (Nat.le_add_right_of_le (A.le_slice s)) ?_, Chip.get]
  have := A.slice_mod s
  rw [ho]
  simp only [R.PORTER_SUMMARY, List.mem_cons, List.not_mem_nil, or_false]
  omega

/-- What the failure of an active porter leaves, from `c` to `d`. -/
structure Chip.Fails (c d : Chip) (s n cause : Nat) : Prop where
  role : d.role s n = failedRole cause
  porter : d.porter s n = {}
  frames : ∀ i ∈ c.threadFrames s n, d.frames.look i = none
  discards : d.reg (A.porter s n + C.porter_fail_discard) =
    c.reg (A.porter s n + C.porter_fail_discard) + BitVec.ofNat 64 (c.threadFrames s n).length
  applies : c.applies.look (A.porter s n) ≠ none →
    d.applies.look (A.porter s n) = none ∧ d.get (A.porter s n + 0xFFC) R.APPLY_STATUS_reason = 6
  failovers : ∀ m, c.spareOf s = some m → (d.front s).failovers = (c.front s).failovers ++ [(n, m, false)]
  sent : c.msgOf (porterUnit s n) K.porterFail 2 cause ∈ d.ledger.transit
  noSpare : c.spareOf s = none → c.msgOf (U.slice s) K.porterNoSpare 3 ∈ d.ledger.transit

theorem Chip.fails_failPorter (h : c.role s n = 0) : c.Fails (c.failPorter s n cause) s n cause where
  role := c.role_failPorter s n cause
  porter := c.porter_failPorter s n cause
  frames := fun _ hi => c.frames_failPorter s n cause (.inr hi)
  discards := c.discards_failPorter s n cause
  applies := c.applies_failPorter s n cause
  failovers := fun _ hm => c.failovers_failPorter s n cause h hm
  sent := c.sent_failPorter s n cause
  noSpare := c.noSpare_failPorter s n cause h

end

end Sys2Proof.Machine
end

section
/-! SUPPORT. Stall, retirement and failed spares (spec/05_porters.md R123 to R126). -/

namespace Sys2Proof.Machine

open Sys2Proof

/-! ### PORTER_STALL (R123) -/

theorem Chip.role_of_takes {c : Chip} {s n : Nat} (h : c.takes s n = true) : c.role s n = 0 := by
  rw [Chip.takes, Bool.and_eq_true, Bool.and_eq_true, beq_iff_eq] at h
  exact h.1.2

theorem porterStall_fails {s : State} {sl n : Nat} (hr : s.runs .core = true) (hrun : s.chip.portersRun sl = true)
    (htakes : s.chip.takes sl n = true) (hbusy : s.chip.threadBusy sl n = true) (hlate : (s.chip.porter sl n).lastRetire + 1000 ≤ s.chip.now) :
    Does (.porterStall sl n) s fun t => t = { s with chip := s.chip.quiet.failPorter sl n 2 } := by
  have hcond : (s.chip.quiet.portersRun sl && s.chip.quiet.takes sl n && s.chip.quiet.threadBusy sl n &&
      s.chip.quiet.passedUs (s.chip.quiet.porter sl n).lastRetire 1) = true := by
    have hrun' : s.chip.quiet.portersRun sl = true := hrun
    have htakes' : s.chip.quiet.takes sl n = true := htakes
    have hlate' : s.chip.quiet.passedUs (s.chip.quiet.porter sl n).lastRetire 1 = true := decide_eq_true hlate
    rw [hrun', htakes', hlate', Chip.threadBusy_quiet, hbusy]
    rfl
  refine Does.of_run (exec_porterStall s sl n) hr ?_
  rw [if_pos hcond]

theorem porterStall_ignored {s : State} {sl n : Nat} (hr : s.runs .core = true)
    (h : s.chip.threadBusy sl n = false ∨ s.chip.now < (s.chip.porter sl n).lastRetire + 1000 ∨ s.chip.role sl n ≠ 0) :
    Does (.porterStall sl n) s fun t => OnlyRegs s t [] := by
  have hcond : ¬ (s.chip.quiet.portersRun sl && s.chip.quiet.takes sl n && s.chip.quiet.threadBusy sl n &&
      s.chip.quiet.passedUs (s.chip.quiet.porter sl n).lastRetire 1) = true := by
    simp only [Bool.and_eq_true]
    rintro ⟨⟨⟨-, htakes⟩, hbusy⟩, hlate⟩
    obtain h | h | h := h
    · exact Bool.false_ne_true (h.symm.trans hbusy)
    · exact Nat.not_le.mpr h (of_decide_eq_true hlate)
    · exact h (Chip.role_of_takes htakes)
  refine Does.of_run (exec_porterStall s sl n) hr ?_
  rw [if_neg hcond]
  exact (Chip.Keeps.refl _).onlyRegs

/-! ### PORTER_RETIRE (R123) -/

theorem Chip.role_put_slice (c : Chip) {f : Fld} (h : f.off % 0x1000 ≠ 0) (sl v s m : Nat) :
    (c.put (A.slice sl) f v).role s m = c.role s m :=
  Chip.get_put_reg _ _ _ _ _ _ (A.slice_add_ne_porter sl s m (o' := 0) (by decide) h).symm

theorem Chip.freeSpare_put_slice (c : Chip) {f : Fld} (h : f.off % 0x1000 ≠ 0) (sl v s m : Nat) :
    (c.put (A.slice sl) f v).freeSpare s m = c.freeSpare s m := by
  rw [Chip.freeSpare, Chip.role_put_slice c h, Chip.front_put, Chip.freeSpare]

/-- The registers show which retirement was asked for, and its result. -/
def Chip.retireShown (c : Chip) (sl n r : Nat) : Chip :=
  ((c.put (A.slice sl) R.PORTER_RETIRE_index n).put (A.slice sl) R.PORTER_SUMMARY_last_index n).put (A.slice sl) R.PORTER_SUMMARY_last_retire r

section
variable (c : Chip) (sl n r : Nat)

theorem Chip.keeps_retireShown : c.Keeps (c.retireShown sl n r) [A.slice sl + R.PORTER_RETIRE, A.slice sl + R.PORTER_SUMMARY] [] :=
  (((Chip.Keeps.refl c).put (f := R.PORTER_RETIRE_index) (.head _) _).put (f := R.PORTER_SUMMARY_last_index) (.tail _ (.head _)) _).put
    (f := R.PORTER_SUMMARY_last_retire) (.tail _ (.head _)) _

theorem Chip.result_retireShown (h : r < 4) : (c.retireShown sl n r).get (A.slice sl) R.PORTER_SUMMARY_last_retire = r :=
  (Chip.get_put_same _ _ _ _ (by decide)).trans (Nat.mod_eq_of_lt h)

theorem Chip.index_retireShown (h : n < 64) : (c.retireShown sl n r).get (A.slice sl) R.PORTER_SUMMARY_last_index = n := by
  rw [Chip.retireShown, Chip.get_put_field _ _ _ _ _ _ (by decide), Chip.get_put_same _ _ _ _ (by decide)]
  exact Nat.mod_eq_of_lt h

theorem Chip.retireShown_applies : (c.retireShown sl n r).applies = c.applies := by
  rw [Chip.retireShown, Chip.put_applies, Chip.put_applies, Chip.put_applies]
theorem Chip.retireShown_image : (c.retireShown sl n r).image = c.image := by
  rw [Chip.retireShown, Chip.put_image, Chip.put_image, Chip.put_image]
theorem Chip.porter_retireShown (s m : Nat) : (c.retireShown sl n r).porter s m = c.porter s m := by
  rw [Chip.retireShown, Chip.porter_put, Chip.porter_put, Chip.porter_put]
theorem Chip.front_retireShown (s : Nat) : (c.retireShown sl n r).front s = c.front s := by
  rw [Chip.retireShown, Chip.front_put, Chip.front_put, Chip.front_put]

/-- No register of a porter's window is one of these. -/
theorem Chip.reg_retireShown (s m : Nat) {o : Nat} (ho : o < 0x1000) (h : o ≠ 0x100 ∧ o ≠ 0x104) :
    (c.retireShown sl n r).reg (A.porter s m + o) = c.reg (A.porter s m + o) := by
  refine (c.keeps_retireShown sl n r).1 _ ?_
  simp only [List.mem_cons, List.not_mem_nil, or_false, not_or]
  exact ⟨(A.slice_add_ne_porter sl s m (o := R.PORTER_RETIRE) ho h.2.symm).symm,
    (A.slice_add_ne_porter sl s m (o := R.PORTER_SUMMARY) ho h.1.symm).symm⟩

theorem Chip.role_retireShown (s m : Nat) : (c.retireShown sl n r).role s m = c.role s m := by
  simp (disch := decide) only [Chip.retireShown, Chip.role_put_slice]

theorem Chip.freeSpare_retireShown (s m : Nat) : (c.retireShown sl n r).freeSpare s m = c.freeSpare s m := by
  simp (disch := decide) only [Chip.retireShown, Chip.freeSpare_put_slice]

theorem Chip.spareOf_retireShown (s : Nat) : (c.retireShown sl n r).spareOf s = c.spareOf s :=
  congrArg (List.find? · (List.range 34)) (funext fun m => c.freeSpare_retireShown sl n r s m)

end

/-- A retirement that is shown leaves what a failure leaves. -/
theorem Chip.fails_retireShown {c : Chip} {sl n : Nat} (h : c.role sl n = 0) (r cause : Nat) :
    c.Fails ((c.retireShown sl n r).failPorter sl n cause) sl n cause := by
  have hrole : (c.retireShown sl n r).role sl n = 0 := by rw [Chip.role_retireShown, h]
  obtain ⟨d, hd⟩ : ∃ d, c.retireShown sl n r = d := ⟨_, rfl⟩
  have hframes : d.threadFrames sl n = c.threadFrames sl n := Chip.threadFrames_of_porter (hd ▸ c.porter_retireShown sl n r sl n)
  have himage : d.image = c.image := hd ▸ c.retireShown_image sl n r
  have hcount : d.reg (A.porter sl n + C.porter_fail_discard) = c.reg (A.porter sl n + C.porter_fail_discard) :=
    hd ▸ c.reg_retireShown sl n r sl n (by decide) (by decide)
  have happlies : d.applies = c.applies := hd ▸ c.retireShown_applies sl n r
  have hspare : d.spareOf sl = c.spareOf sl := hd ▸ c.spareOf_retireShown sl n r sl
  have hfront : d.front sl = c.front sl := hd ▸ c.front_retireShown sl n r sl
  rw [hd] at hrole ⊢
  obtain ⟨hrole', hporter, hgone, hdiscards, hwithdrawn, hassigned, hsent, hnone⟩ := d.fails_failPorter sl n cause hrole
  rw [hframes] at hgone hdiscards
  rw [happlies] at hwithdrawn
  rw [hspare] at hassigned hnone
  rw [hcount] at hdiscards
  rw [hfront] at hassigned
  rw [Chip.msgOf_of_image himage] at hsent hnone
  exact ⟨hrole', hporter, hgone, hdiscards, hwithdrawn, hassigned, hsent, hnone⟩

/-- What a go of PORTER_RETIRE does, by the three results that it shows. -/
theorem Chip.porterRetireGo_eq (c : Chip) {sl n : Nat} (hn : n < 64) : c.porterRetireGo sl n =
    if 34 ≤ n ∨ c.role sl n ≠ 0 then c.retireShown sl n 3
    else if ((List.range 34).any fun m => c.freeSpare sl m) = false then c.retireShown sl n 2
    else (c.retireShown sl n 1).failPorter sl n 3 := by
  simp (disch := decide) only [Chip.porterRetireGo, Nat.mod_eq_of_lt hn, Chip.role_put_slice, Chip.freeSpare_put_slice, Bool.or_eq_true,
    decide_eq_true_eq, bne_iff_ne, Bool.not_eq_true', Chip.retireShown]

theorem porterRetire_fails {s : State} {src : Source} {sl n : Nat} (hs : s.serves src (A.slice sl + R.PORTER_RETIRE) true = true) (hn : n < 34)
    (hrole : s.chip.role sl n = 0) (hspare : ((List.range 34).any fun m => s.chip.freeSpare sl m) = true) :
    Does (.porterRetire src sl n) s fun t => t = { s with chip := (s.chip.quiet.retireShown sl n 1).failPorter sl n 3 } := by
  have hactive : ¬ (34 ≤ n ∨ s.chip.quiet.role sl n ≠ 0) := not_or.mpr ⟨Nat.not_le.mpr hn, not_not.mpr hrole⟩
  have hfree : ¬ ((List.range 34).any fun m => s.chip.quiet.freeSpare sl m) = false :=
    fun hno => Bool.false_ne_true (hno.symm.trans hspare)
  refine Does.of_bus (exec_porterRetire s src sl n) hs ?_
  rw [Chip.porterRetireGo_eq _ (hn.trans (by decide)), if_neg hactive, if_neg hfree]

theorem porterRetire_refused {s : State} {src : Source} {sl n : Nat} (hs : s.serves src (A.slice sl + R.PORTER_RETIRE) true = true) (hn : n < 64)
    (h : 34 ≤ n ∨ s.chip.role sl n ≠ 0 ∨ ((List.range 34).any fun m => s.chip.freeSpare sl m) = false) :
    Does (.porterRetire src sl n) s fun t =>
      t.chip.get (A.slice sl) R.PORTER_SUMMARY_last_retire = (if 34 ≤ n ∨ s.chip.role sl n ≠ 0 then 3 else 2) ∧
        t.chip.get (A.slice sl) R.PORTER_SUMMARY_last_index = n ∧
        OnlyRegs s t [A.slice sl + R.PORTER_RETIRE, A.slice sl + R.PORTER_SUMMARY] := by
  have hgo : s.chip.quiet.porterRetireGo sl n = s.chip.quiet.retireShown sl n (if 34 ≤ n ∨ s.chip.role sl n ≠ 0 then 3 else 2) := by
    rw [Chip.porterRetireGo_eq _ hn, Chip.role_quiet]
    split
    · rfl
    · next hactive => exact if_pos ((h.resolve_left (hactive ∘ .inl)).resolve_left (hactive ∘ .inr))
  have hresult : (if 34 ≤ n ∨ s.chip.role sl n ≠ 0 then 3 else 2) < 4 := by
    split <;> decide
  refine Does.of_bus (exec_porterRetire s src sl n) hs ?_
  rw [hgo]
  exact ⟨Chip.result_retireShown _ _ _ _ hresult, Chip.index_retireShown _ _ _ _ hn, (Chip.keeps_retireShown ..).onlyRegs⟩

/-! ### The check of a spare's store (R125, R126) -/

/-- A porter that a reset returned is a spare again. -/
def Chip.returnSpare (c : Chip) (sl n : Nat) : Chip :=
  ((c.put (A.porter sl n) R.PORTER_STATUS_role 1).put (A.porter sl n) R.PORTER_STATUS_partner 0).syncPorters sl

section
variable (c : Chip) (sl n : Nat)

theorem Chip.role_returnSpare : (c.returnSpare sl n).role sl n = 1 := by
  rw [Chip.returnSpare, Chip.role_syncPorters, Chip.role, Chip.get_put_field _ _ _ _ _ _ (by decide), Chip.get_put_same _ _ _ _ (by decide)]
  rfl

/-- PORTER_SUMMARY follows without a change of any porter's own register. -/
theorem Chip.get_porter_syncPorters (s m : Nat) {f : Fld} (ho : f.off < 0x1000 ∧ f.off ≠ 0x100) :
    (c.syncPorters sl).get (A.porter s m) f = c.get (A.porter s m) f :=
  (Chip.keeps_syncPorters c sl (ps := [])).get
    (List.mem_singleton.not.mpr (A.slice_add_ne_porter sl s m (o := R.PORTER_SUMMARY) ho.1 ho.2.symm).symm)

theorem Chip.partner_returnSpare : (c.returnSpare sl n).get (A.porter sl n) R.PORTER_STATUS_partner = 0 := by
  rw [Chip.returnSpare, Chip.get_porter_syncPorters _ _ _ _ (by decide), Chip.get_put_same _ _ _ _ (by decide)]
  rfl

theorem Chip.front_returnSpare (s : Nat) : (c.returnSpare sl n).front s = c.front s := by
  rw [Chip.returnSpare, Chip.front_syncPorters, Chip.front_put, Chip.front_put]

theorem Chip.Keeps.returnSpare {c d : Chip} {l : List Nat} {ps : List Part} (h : c.Keeps d l ps) {sl n : Nat}
    (ha : A.porter sl n + R.PORTER_STATUS ∈ l) (hs : A.slice sl + R.PORTER_SUMMARY ∈ l) : c.Keeps (d.returnSpare sl n) l ps :=
  ((h.put (f := R.PORTER_STATUS_role) ha _).put (f := R.PORTER_STATUS_partner) ha _).syncPorters hs

/-- The porters that a spare was to replace. -/
def Chip.replacedBy (c : Chip) (sl n : Nat) : List (Nat × Nat × Bool) := (c.front sl).failovers.filter fun x => x.2.1 == n

/-- A failed spare leaves the failovers. -/
def Chip.spareGone (c : Chip) (sl n : Nat) : Chip :=
  ((c.markFailed sl n 4).setFront sl { (c.markFailed sl n 4).front sl with
    failovers := ((c.markFailed sl n 4).front sl).failovers.filter fun x => x.2.1 != n }).syncPorters sl

theorem Chip.failSpare_eq : c.failSpare sl n = (c.spareGone sl n).each (c.replacedBy sl n) fun c x => c.seekSpare sl x.1 := by
  simp only [Chip.failSpare, Chip.replacedBy, Chip.spareGone, Chip.markFailed, failedRole]
  rfl

theorem Chip.role_failSpare : (c.failSpare sl n).role sl n = 2 := by
  rw [Chip.failSpare_eq, Chip.each_same (g := (·.role sl n)) fun _ _ => Chip.role_seekSpare .., Chip.spareGone, Chip.role_syncPorters,
    Chip.role_setFront, Chip.role_markFailed]
  rfl

theorem Chip.Within.spareGone {c d : Chip} {l : List Nat} (h : c.Within d l) (h0 : 0 ∈ l) (hl : 0x100 ∈ l) (sl n : Nat) :
    c.Within (d.spareGone sl n) l :=
  ((h.markFailed h0 sl n 4).setFront sl _).syncPorters hl sl

theorem Chip.Within.failSpare {c d : Chip} {l : List Nat} (h : c.Within d l) (h0 : 0 ∈ l) (hl : 0x100 ∈ l) (sl n : Nat) :
    c.Within (d.failSpare sl n) l := by
  rw [Chip.failSpare_eq]
  exact (h.spareGone h0 hl sl n).each _ fun c x => (Chip.Within.refl c).seekSpare hl sl x.1

theorem Chip.sent_failSpare : c.msgOf (porterUnit sl n) K.porterFail 2 4 ∈ (c.failSpare sl n).ledger.transit := by
  have hlater : (c.spareGone sl n).Within (c.failSpare sl n) [0x100] := by
    rw [Chip.failSpare_eq]
    exact (Chip.Within.refl _).each _ fun c x => (Chip.Within.refl c).seekSpare (.head _) sl x.1
  refine hlater.sent.subset ?_
  rw [Chip.spareGone, Chip.syncPorters_ledger, Chip.setFront_ledger]
  exact Chip.sent_markFailed ..

theorem Chip.keeps_failSpare : c.Keeps (c.failSpare sl n) [A.porter sl n + R.PORTER_STATUS, A.slice sl + R.PORTER_SUMMARY] [.fronts, .ledger] := by
  have hfailed := (Chip.Keeps.refl c).markFailed (l := [A.porter sl n + R.PORTER_STATUS, A.slice sl + R.PORTER_SUMMARY])
    (ps := [.fronts, .ledger]) (.head _) (by decide) 4
  rw [Chip.failSpare_eq]
  exact ((hfailed.setFront (by decide) ..).syncPorters (.tail _ (.head _))).each _ fun c x =>
    (Chip.Keeps.refl c).seekSpare (.tail _ (.head _)) (by decide) (by decide) x.1

end

end Sys2Proof.Machine
end

section
/-! SUPPORT. The results of store checks and the takeover of a failed porter (spec/05_porters.md R123 to R126, spec/06_microword_reference.md
R146). -/

namespace Sys2Proof.Machine

open Sys2Proof

/-! ### SPARE_STORE_CHECK_COMPLETE (R125, R126) -/

/-- The check of a store comes to the CRC that it should have. -/
def Chip.checkPasses (c : Chip) (sl : Nat) (upsets : List (Nat × Entry)) : Bool := c.checkCrc upsets == c.get (A.slice sl) R.STORE_CRC_crc

/-- A porter that a reset returned waits for its check no more. -/
def Chip.leaveRecheck (c : Chip) (sl n : Nat) : Chip :=
  c.setFront sl { c.front sl with recheck := (c.front sl).recheck.filter (· != n) }

def Chip.rechecked (c : Chip) (sl n : Nat) (ok : Bool) : Chip :=
  if ok = true then (c.leaveRecheck sl n).returnSpare sl n else c.leaveRecheck sl n

/-- The spare of a failover is ready. -/
def Chip.readySpare (c : Chip) (sl n : Nat) : Chip :=
  c.setFront sl { c.front sl with failovers := (c.front sl).failovers.map fun x => if x.2.1 = n then (x.1, n, true) else x }

def Chip.spareChecked (c : Chip) (sl n : Nat) (ok : Bool) : Chip := if ok = true then c.readySpare sl n else c.failSpare sl n

theorem Chip.there_of_alive {c : Chip} {sl : Nat} (h : sl < 8) (halive : c.alive (U.slice sl) = true) :
    (!(decide (sl < 8) && c.alive (U.slice sl))) = false := by
  rw [halive, decide_eq_true h]
  rfl

section
variable {s : State} {sl n : Nat} {upsets : List (Nat × Entry)}

theorem recheck_does (hr : s.runs .core = true) (hup : sl < 8 ∧ n < 34 ∧ s.chip.alive (U.slice sl) = true)
    (hn : n ∈ (s.chip.front sl).recheck) :
    Does (.spareStoreCheckComplete sl n upsets) s fun t => t = { s with chip := s.chip.quiet.rechecked sl n (s.chip.checkPasses sl upsets) } := by
  obtain ⟨hsl, -, halive⟩ := hup
  have hthere : _ = false := Chip.there_of_alive (c := s.chip.quiet) hsl halive
  have hn' : (s.chip.quiet.front sl).recheck.contains n = true := List.contains_iff_mem.mpr hn
  refine Does.of_run (exec_spareStoreCheckComplete s sl n upsets) hr ?_
  simp only [hthere, hn', Bool.false_eq_true, if_false, if_true]
  rfl

theorem spareCheck_does (hr : s.runs .core = true) (hup : sl < 8 ∧ n < 34 ∧ s.chip.alive (U.slice sl) = true)
    (hn : n ∉ (s.chip.front sl).recheck) (hfail : ((s.chip.front sl).failovers.any fun x => x.2.1 == n && !x.2.2) = true) :
    Does (.spareStoreCheckComplete sl n upsets) s fun t => t = { s with chip := s.chip.quiet.spareChecked sl n (s.chip.checkPasses sl upsets) } := by
  obtain ⟨hsl, -, halive⟩ := hup
  have hthere : _ = false := Chip.there_of_alive (c := s.chip.quiet) hsl halive
  have hn' : ¬ (s.chip.quiet.front sl).recheck.contains n = true := fun h => hn (List.contains_iff_mem.mp h)
  have hfail' : ((s.chip.quiet.front sl).failovers.any fun x => x.2.1 == n && !x.2.2) = true := hfail
  refine Does.of_run (exec_spareStoreCheckComplete s sl n upsets) hr ?_
  simp only [hthere, Bool.false_eq_true, if_false]
  rw [if_neg hn', if_pos hfail']
  rfl

theorem recheck_completes (hr : s.runs .core = true) (hup : sl < 8 ∧ n < 34 ∧ s.chip.alive (U.slice sl) = true)
    (hn : n ∈ (s.chip.front sl).recheck) :
    Does (.spareStoreCheckComplete sl n upsets) s fun t =>
      (s.chip.checkCrc upsets = s.chip.get (A.slice sl) R.STORE_CRC_crc → t.chip.role sl n = 1 ∧
        t.chip.get (A.porter sl n) R.PORTER_STATUS_partner = 0) ∧
      (s.chip.checkCrc upsets ≠ s.chip.get (A.slice sl) R.STORE_CRC_crc →
        t.chip.reg (A.porter sl n + R.PORTER_STATUS) = s.chip.reg (A.porter sl n + R.PORTER_STATUS)) ∧
      t.chip.front sl = { s.chip.front sl with recheck := (s.chip.front sl).recheck.filter (· != n) } ∧
      OnlyParts s t [A.porter sl n + R.PORTER_STATUS, A.slice sl + R.PORTER_SUMMARY] [.fronts] := by
  obtain ⟨_, hexec, rfl⟩ := recheck_does (upsets := upsets) hr hup hn
  have hleft : s.chip.quiet.Keeps (s.chip.quiet.leaveRecheck sl n) [A.porter sl n + R.PORTER_STATUS, A.slice sl + R.PORTER_SUMMARY] [.fronts] :=
    (Chip.Keeps.refl _).setFront (.head _) _ _
  have hfront : (s.chip.quiet.leaveRecheck sl n).front sl = _ := Chip.front_setFront ..
  refine ⟨_, hexec, ?_⟩
  by_cases hok : s.chip.checkPasses sl upsets = true
  · rw [Chip.rechecked, if_pos hok]
    refine ⟨fun _ => ⟨Chip.role_returnSpare .., Chip.partner_returnSpare ..⟩, fun h => (h (beq_iff_eq.mp hok)).elim, ?_, ?_⟩
    · exact (Chip.front_returnSpare ..).trans hfront
    · exact (hleft.returnSpare (.head _) (.tail _ (.head _))).onlyParts
  · rw [Chip.rechecked, if_neg hok]
    exact ⟨fun h => (hok (beq_iff_eq.mpr h)).elim, fun _ => rfl, hfront, hleft.onlyParts⟩

theorem spareCheck_completes (hr : s.runs .core = true) (hup : sl < 8 ∧ n < 34 ∧ s.chip.alive (U.slice sl) = true)
    (hn : n ∉ (s.chip.front sl).recheck) (hfail : ((s.chip.front sl).failovers.any fun x => x.2.1 == n && !x.2.2) = true) :
    Does (.spareStoreCheckComplete sl n upsets) s fun t =>
      (s.chip.checkCrc upsets = s.chip.get (A.slice sl) R.STORE_CRC_crc →
        t.chip.front sl = { s.chip.front sl with failovers := (s.chip.front sl).failovers.map fun x => if x.2.1 = n then (x.1, n, true) else x }
        ∧ OnlyParts s t [] [.fronts]) ∧
      (s.chip.checkCrc upsets ≠ s.chip.get (A.slice sl) R.STORE_CRC_crc → t.chip.role sl n = 2 ∧
        s.chip.msgOf (porterUnit sl n) K.porterFail 2 4 ∈ t.chip.ledger.transit ∧
        OnlyParts s t [A.porter sl n + R.PORTER_STATUS, A.slice sl + R.PORTER_SUMMARY] [.fronts, .ledger]) := by
  obtain ⟨_, hexec, rfl⟩ := spareCheck_does (upsets := upsets) hr hup hn hfail
  refine ⟨_, hexec, ?_⟩
  by_cases hok : s.chip.checkPasses sl upsets = true
  · rw [Chip.spareChecked, if_pos hok]
    refine ⟨fun _ => ⟨Chip.front_setFront .., ?_⟩, fun h => (h (beq_iff_eq.mp hok)).elim⟩
    exact ((Chip.Keeps.refl _).setFront (.head _) _ _).onlyParts
  · rw [Chip.spareChecked, if_neg hok]
    exact ⟨fun h => (hok (beq_iff_eq.mpr h)).elim,
      fun _ => ⟨Chip.role_failSpare .., Chip.sent_failSpare .., (Chip.keeps_failSpare ..).onlyParts⟩⟩

end

/-! ### SPARE_TAKEOVER (R123, R124) -/

/-- One of the failed porter's settings becomes the spare's live and staged setting. -/
def Chip.takeSetting (c : Chip) (sl n m o : Nat) : Chip :=
  (c.setReg (A.porter sl n + o) (c.reg (A.porter sl m + o))).setStaged (c.staged.clear (A.porter sl n + o))

/-- Roles and partners after a takeover. -/
def Chip.pairUp (c : Chip) (sl n m : Nat) : Chip :=
  ((c.put (A.porter sl n) R.PORTER_STATUS_role 0).put (A.porter sl n) R.PORTER_STATUS_partner (porterUnit sl m)).put (A.porter sl m)
    R.PORTER_STATUS_partner (porterUnit sl n)

/-- The spare starts with free threads, nothing staged and its failover done. -/
def Chip.startSpare (c : Chip) (sl n : Nat) (f : Front) : Chip :=
  ((((c.setSince (A.porter sl n) false).setFront sl { f with failovers := f.failovers.filter fun y => y.2.1 != n }).setPorter sl n
    {}).syncBusy sl n).syncPorters sl

def Chip.takeOver (c : Chip) (sl n m : Nat) : Chip :=
  (((c.takeSetting sl n m R.PORTER_PARSE).takeSetting sl n m R.PORTER_CHECK).pairUp sl n m).startSpare sl n (c.front sl)

theorem spareTakeover_does {s : State} {sl n m : Nat} (hr : s.runs .core = true)
    (hup : sl < 8 ∧ n < 34 ∧ m < 34 ∧ n ≠ m ∧ s.chip.alive (U.slice sl) = true)
    (hready : (s.chip.front sl).failovers.find? (fun x => x.2.1 == n && x.2.2) = some (m, n, true)) :
    Does (.spareTakeover sl n) s fun t => t = { s with chip := s.chip.quiet.takeOver sl n m } := by
  obtain ⟨hsl, -, -, -, halive⟩ := hup
  have hthere : _ = false := Chip.there_of_alive (c := s.chip.quiet) hsl halive
  have hready' : (s.chip.quiet.front sl).failovers.find? (fun x => x.2.1 == n && x.2.2) = some (m, n, true) := hready
  refine Does.of_run (exec_spareTakeover s sl n) hr ?_
  simp only [hthere, hready', Bool.false_eq_true, if_false]
  rfl

section
variable (c : Chip) (sl n m : Nat)

theorem Chip.reg_takeSetting (o a : Nat) :
    (c.takeSetting sl n m o).reg a = if a = A.porter sl n + o then c.reg (A.porter sl m + o) else c.reg a := Chip.reg_setReg ..

theorem Chip.Keeps.takeSetting {c d : Chip} {l : List Nat} {ps : List Part} (h : c.Keeps d l ps) (hp : .staged ∈ ps) {sl n o : Nat}
    (ha : A.porter sl n + o ∈ l) (m : Nat) : c.Keeps (d.takeSetting sl n m o) l ps := (h.setReg ha _).setStaged hp _

/-- A setting of another porter, or another one, stays. -/
theorem Chip.reg_takeSetting_other {o q p : Nat} (ho : o < 0x1000 ∧ p < 0x1000) (h : q ≠ n ∨ p ≠ o) :
    (c.takeSetting sl n m o).reg (A.porter sl q + p) = c.reg (A.porter sl q + p) := by
  rw [Chip.reg_takeSetting, if_neg]
  unfold A.porter
  omega

theorem Chip.Keeps.pairUp {c d : Chip} {l : List Nat} {ps : List Part} (h : c.Keeps d l ps) {sl n m : Nat}
    (hn : A.porter sl n + R.PORTER_STATUS ∈ l) (hm : A.porter sl m + R.PORTER_STATUS ∈ l) : c.Keeps (d.pairUp sl n m) l ps :=
  ((h.put (f := R.PORTER_STATUS_role) hn _).put (f := R.PORTER_STATUS_partner) hn _).put (f := R.PORTER_STATUS_partner) hm _

theorem Chip.keeps_pairUp : c.Keeps (c.pairUp sl n m) [A.porter sl n + R.PORTER_STATUS, A.porter sl m + R.PORTER_STATUS] [] :=
  (Chip.Keeps.refl c).pairUp (.head _) (.tail _ (.head _))

theorem Chip.role_pairUp : (c.pairUp sl n m).role sl n = 0 := by
  rw [Chip.role, Chip.pairUp, Chip.get_put_field _ _ _ _ _ _ (by decide), Chip.get_put_field _ _ _ _ _ _ (by decide),
    Chip.get_put_same _ _ _ _ (by decide)]
  rfl

/-- A porter's unit ID fits the field that names a partner. -/
theorem porterUnit_mod {sl n : Nat} (hs : sl < 8) (hn : n < 34) : porterUnit sl n % 2 ^ 16 = porterUnit sl n := by
  refine Nat.mod_eq_of_lt ?_
  unfold porterUnit U.sliceBlk
  omega

theorem Chip.partner_pairUp_failed {c : Chip} {sl n : Nat} (m : Nat) (hs : sl < 8) (hn : n < 34) :
    (c.pairUp sl n m).get (A.porter sl m) R.PORTER_STATUS_partner = porterUnit sl n :=
  (Chip.get_put_same _ _ _ _ (by decide)).trans (porterUnit_mod hs hn)

theorem Chip.partner_pairUp_spare {c : Chip} {sl n m : Nat} (hs : sl < 8) (hm : m < 34) (hne : n ≠ m) :
    (c.pairUp sl n m).get (A.porter sl n) R.PORTER_STATUS_partner = porterUnit sl m := by
  have hreg : A.porter sl n + R.PORTER_STATUS_partner.off ≠ A.porter sl m + R.PORTER_STATUS_partner.off := fun h =>
    hne (A.porter_inj (Nat.add_right_cancel h))
  rw [Chip.pairUp, Chip.get_put_reg _ _ _ _ _ _ hreg, Chip.get_put_same _ _ _ _ (by decide)]
  exact porterUnit_mod hs hm

variable (f : Front)

theorem Chip.Keeps.startSpare {c d : Chip} {l : List Nat} {ps : List Part} (h : c.Keeps d l ps) {sl n : Nat} (f : Front)
    (ha : A.porter sl n + R.PORTER_STATUS ∈ l) (hs : A.slice sl + R.PORTER_SUMMARY ∈ l) (hp : [.since, .fronts, .porters] ⊆ ps) :
    c.Keeps (d.startSpare sl n f) l ps := by
  have hsince : c.Keeps (d.setSince (A.porter sl n) false) l ps := h.setSince (hp (.head _)) _ _
  have hfront : .fronts ∈ ps := hp (.tail _ (.head _))
  have hporter : .porters ∈ ps := hp (.tail _ (.tail _ (.head _)))
  exact (((hsince.setFront hfront _ _).setPorter hporter _ _ _).syncBusy ha).syncPorters hs

theorem Chip.keeps_startSpare : c.Keeps (c.startSpare sl n f) [A.porter sl n + R.PORTER_STATUS, A.slice sl + R.PORTER_SUMMARY]
    [.since, .fronts, .porters] := (Chip.Keeps.refl c).startSpare f (.head _) (.tail _ (.head _)) (List.Subset.refl _)

/-- Only busy follows the threads. -/
theorem Chip.get_startSpare (s q : Nat) {g : Fld} (ho : g.off < 0x1000 ∧ g.off ≠ 0x100) (hg : g.hi < 64 ∧ (g.hi < 24 ∨ 27 < g.lo)) :
    (c.startSpare sl n f).get (A.porter s q) g = c.get (A.porter s q) g := by
  rw [Chip.startSpare, Chip.get_porter_syncPorters _ _ _ _ ho, Chip.syncBusy, Chip.get_put_field _ _ _ _ _ _ ⟨by decide, hg⟩, Chip.get_setPorter,
    Chip.get_setFront]
  rfl

theorem Chip.porter_startSpare : (c.startSpare sl n f).porter sl n = {} := by
  rw [Chip.startSpare, Chip.porter_syncPorters, Chip.porter_syncBusy, Chip.porter_setPorter]

theorem Chip.front_startSpare : (c.startSpare sl n f).front sl = { f with failovers := f.failovers.filter fun y => y.2.1 != n } := by
  rw [Chip.startSpare, Chip.front_syncPorters, Chip.front_syncBusy, Chip.front_setPorter, Chip.front_setFront]

/-- Settings are those that were taken. -/
theorem Chip.setting_startSpare {o : Nat} (ho : 0 < o ∧ o < 0x100) :
    ((c.pairUp sl n m).startSpare sl n f).reg (A.porter sl n + o) = c.reg (A.porter sl n + o) := by
  rw [((c.pairUp sl n m).keeps_startSpare sl n f).1, (c.keeps_pairUp sl n m).1]
  all_goals
    simp only [R.PORTER_STATUS, R.PORTER_SUMMARY, A.porter, List.mem_cons, List.not_mem_nil, or_false]
    omega

end

section
variable {s : State} {sl n m : Nat}

theorem spareTakeover_takes (hr : s.runs .core = true) (hup : sl < 8 ∧ n < 34 ∧ m < 34 ∧ n ≠ m ∧ s.chip.alive (U.slice sl) = true)
    (hready : (s.chip.front sl).failovers.find? (fun x => x.2.1 == n && x.2.2) = some (m, n, true)) :
    Does (.spareTakeover sl n) s fun t =>
      t.chip.role sl n = 0 ∧ t.chip.get (A.porter sl n) R.PORTER_STATUS_partner = porterUnit sl m ∧
        t.chip.get (A.porter sl m) R.PORTER_STATUS_partner = porterUnit sl n ∧
      t.chip.reg (A.porter sl n + R.PORTER_PARSE) = s.chip.reg (A.porter sl m + R.PORTER_PARSE) ∧
      t.chip.reg (A.porter sl n + R.PORTER_CHECK) = s.chip.reg (A.porter sl m + R.PORTER_CHECK) ∧ t.chip.porter sl n = {} ∧
      t.chip.staged.look (A.porter sl n + R.PORTER_PARSE) = none ∧ t.chip.staged.look (A.porter sl n + R.PORTER_CHECK) = none ∧
      t.chip.front sl = { s.chip.front sl with failovers := (s.chip.front sl).failovers.filter fun y => y.2.1 != n } ∧
      OnlyParts s t [A.porter sl n + R.PORTER_PARSE, A.porter sl n + R.PORTER_CHECK, A.porter sl n + R.PORTER_STATUS,
        A.porter sl m + R.PORTER_STATUS, A.slice sl + R.PORTER_SUMMARY] [.staged, .since, .fronts, .porters] := by
  obtain ⟨_, hexec, rfl⟩ := spareTakeover_does hr hup hready
  obtain ⟨hsl, hn, hm, hne, -⟩ := hup
  have hstaged : (s.chip.quiet.takeOver sl n m).staged =
      (s.chip.staged.clear (A.porter sl n + R.PORTER_PARSE)).clear (A.porter sl n + R.PORTER_CHECK) :=
    ((Chip.keeps_startSpare _ sl n _).staged (by decide)).trans ((Chip.keeps_pairUp _ sl n m).staged (by decide))
  refine ⟨_, hexec, ?_, ?_, ?_, ?_, ?_, ?_, ?_, ?_, ?_, Chip.Keeps.onlyParts ?_⟩
  · exact (Chip.get_startSpare _ _ _ _ _ _ (by decide) (by decide)).trans (Chip.role_pairUp ..)
  · exact (Chip.get_startSpare _ _ _ _ _ _ (by decide) (by decide)).trans (Chip.partner_pairUp_spare hsl hm hne)
  · exact (Chip.get_startSpare _ _ _ _ _ _ (by decide) (by decide)).trans (Chip.partner_pairUp_failed m hsl hn)
  · rw [Chip.takeOver, Chip.setting_startSpare _ _ _ _ _ (by decide), Chip.reg_takeSetting_other _ _ _ _ (by decide) (.inr (by decide)),
      Chip.reg_takeSetting, if_pos rfl, Chip.reg_quiet]
  · rw [Chip.takeOver, Chip.setting_startSpare _ _ _ _ _ (by decide), Chip.reg_takeSetting, if_pos rfl,
      Chip.reg_takeSetting_other _ _ _ _ (by decide) (.inr (by decide)), Chip.reg_quiet]
  · exact Chip.porter_startSpare ..
  · rw [hstaged, Tbl.look_clear, Tbl.look_clear, if_pos rfl, if_neg (by simp [R.PORTER_PARSE, R.PORTER_CHECK])]
    rfl
  · rw [hstaged, Tbl.look_clear, if_pos rfl]
    rfl
  · exact Chip.front_startSpare ..
  · rw [Chip.takeOver]
    refine Chip.Keeps.startSpare (Chip.Keeps.pairUp ?_ ?_ ?_) _ ?_ ?_ (List.subset_cons_self ..)
    · exact ((Chip.Keeps.refl _).takeSetting (.head _) (.head _) m).takeSetting (.head _) (.tail _ (.head _)) m
    all_goals simp only [List.mem_cons, true_or, or_true]

theorem spareTakeover_ignored (hr : s.runs .core = true) (h : ((s.chip.front sl).failovers.any fun x => x.2.1 == n && x.2.2) = false) :
    Does (.spareTakeover sl n) s fun t => OnlyRegs s t [] := by
  have hnone : (s.chip.quiet.front sl).failovers.find? (fun x => x.2.1 == n && x.2.2) = none :=
    List.find?_eq_none.mpr (List.any_eq_false.mp h)
  refine Does.of_run (exec_spareTakeover s sl n) hr ?_
  simp only [hnone]
  exact (Chip.Keeps.refl _).onlyRegs

end

end Sys2Proof.Machine
end

section
/-! SUPPORT. Store checks of porters (spec/06_microword_reference.md R144, R146), and the obligation on failure and checks. -/

namespace Sys2Proof.Machine

open Sys2Proof

/-! ### STORE_CHECK (R146) -/

section
variable (c : Chip) (sl n : Nat)

@[simp] theorem Chip.reg_wakeCause (a : Nat) : (c.wakeCause sl).reg a = c.reg a := by
  unfold Chip.wakeCause
  split <;> rfl

@[simp] theorem Chip.get_wakeCause (b : Nat) (f : Fld) : (c.wakeCause sl).get b f = c.get b f := by
  rw [Chip.get, Chip.reg_wakeCause, Chip.get]

@[simp] theorem Chip.front_wakeCause (s : Nat) : (c.wakeCause sl).front s = c.front s := by
  unfold Chip.wakeCause
  split <;> rfl

/-- A check is asked for: its porter is shown, and the slice wakes. -/
def Chip.checkNamed (c : Chip) (sl n : Nat) : Chip := (c.put (A.slice sl) R.STORE_CHECK_index n).wakeCause sl

/-- A check starts. -/
def Chip.checkStarts (c : Chip) (sl n : Nat) : Chip :=
  (((c.checkNamed sl n).put (A.slice sl) R.STORE_CHECK_busy 1).put (A.slice sl) R.STORE_CHECK_result 0).setFront sl
    { c.front sl with checking := n }

/-- What a go of STORE_CHECK does while no check runs. -/
theorem Chip.storeCheckGo_free {c : Chip} {sl n : Nat} (hidle : c.get (A.slice sl) R.STORE_CHECK_busy = 0) (hn : n < 64) :
    c.storeCheckGo sl n = if 34 ≤ n then (c.checkNamed sl n).put (A.slice sl) R.STORE_CHECK_result 3 else c.checkStarts sl n := by
  have hfree : c.on (A.slice sl) R.STORE_CHECK_busy = false := bne_eq_false_iff_eq.mpr hidle
  simp only [Chip.storeCheckGo, Nat.mod_eq_of_lt hn, hfree, Bool.false_eq_true, if_false, Chip.checkStarts, Chip.checkNamed, Chip.front_wakeCause,
    Chip.front_put]

theorem Chip.storeCheckGo_busy {c : Chip} {sl : Nat} (hbusy : c.get (A.slice sl) R.STORE_CHECK_busy = 1) (n : Nat) :
    c.storeCheckGo sl n = c := by
  have hon : c.on (A.slice sl) R.STORE_CHECK_busy = true := bne_iff_ne.mpr (by rw [hbusy]; decide)
  rw [Chip.storeCheckGo, hon]
  rfl

theorem Chip.Keeps.checkNamed {c d : Chip} {l : List Nat} {ps : List Part} (h : c.Keeps d l ps) {sl : Nat} (ha : A.slice sl + R.STORE_CHECK ∈ l)
    (hp : .house ∈ ps) (n : Nat) : c.Keeps (d.checkNamed sl n) l ps := (h.put (f := R.STORE_CHECK_index) ha _).wakeCause hp sl

theorem Chip.shows_checkStarts (hn : n < 64) : (c.checkStarts sl n).get (A.slice sl) R.STORE_CHECK_busy = 1 ∧
    (c.checkStarts sl n).get (A.slice sl) R.STORE_CHECK_index = n ∧ (c.checkStarts sl n).get (A.slice sl) R.STORE_CHECK_result = 0 := by
  rw [Chip.checkStarts, Chip.get_setFront, Chip.get_setFront, Chip.get_setFront]
  refine ⟨?_, ?_, ?_⟩
  all_goals simp (disch := decide) only [Chip.checkNamed, Chip.get_put_field, Chip.get_put_same, Chip.get_wakeCause]
  · rfl
  · exact Nat.mod_eq_of_lt hn
  · rfl

end

theorem storeCheck_starts {s : State} {src : Source} {sl n : Nat} (hs : s.serves src (A.slice sl + R.STORE_CHECK) true = true) (hn : n < 34)
    (hidle : s.chip.get (A.slice sl) R.STORE_CHECK_busy = 0) :
    Does (.storeCheck src sl n) s fun t =>
      t.chip.get (A.slice sl) R.STORE_CHECK_busy = 1 ∧ t.chip.get (A.slice sl) R.STORE_CHECK_index = n ∧
        t.chip.get (A.slice sl) R.STORE_CHECK_result = 0 ∧
        t.chip.front sl = { s.chip.front sl with checking := n } ∧ OnlyParts s t [A.slice sl + R.STORE_CHECK] [.fronts, .house] := by
  have hn' : n < 64 := hn.trans (by decide)
  obtain ⟨hbusy, hindex, hresult⟩ := s.chip.quiet.shows_checkStarts sl n hn'
  refine Does.of_bus (exec_storeCheck s src sl n) hs ?_
  rw [Chip.storeCheckGo_free (c := s.chip.quiet) hidle hn', if_neg (Nat.not_le.mpr hn)]
  refine ⟨hbusy, hindex, hresult, Chip.front_setFront .., Chip.Keeps.onlyParts ?_⟩
  exact ((((Chip.Keeps.refl _).checkNamed (.head _) (.tail _ (.head _)) n).put (f := R.STORE_CHECK_busy) (.head _) _).put
    (f := R.STORE_CHECK_result) (.head _) _).setFront (.head _) _ _

theorem storeCheck_refused {s : State} {src : Source} {sl n : Nat} (hs : s.serves src (A.slice sl + R.STORE_CHECK) true = true)
    (hn : 34 ≤ n ∧ n < 64) (hidle : s.chip.get (A.slice sl) R.STORE_CHECK_busy = 0) :
    Does (.storeCheck src sl n) s fun t =>
      t.chip.get (A.slice sl) R.STORE_CHECK_result = 3 ∧ t.chip.get (A.slice sl) R.STORE_CHECK_busy = 0 ∧
        OnlyParts s t [A.slice sl + R.STORE_CHECK] [.house] := by
  refine Does.of_bus (exec_storeCheck s src sl n) hs ?_
  rw [Chip.storeCheckGo_free (c := s.chip.quiet) hidle hn.2, if_pos hn.1]
  refine ⟨Chip.get_put_same _ _ _ _ (by decide), ?_, Chip.Keeps.onlyParts ?_⟩
  · simp (disch := decide) only [Chip.checkNamed, Chip.get_put_field, Chip.get_wakeCause]
    exact hidle
  · exact ((Chip.Keeps.refl _).checkNamed (.head _) (.head _) n).put (f := R.STORE_CHECK_result) (.head _) _

theorem storeCheck_ignored {s : State} {src : Source} {sl n : Nat} (hs : s.serves src (A.slice sl + R.STORE_CHECK) true = true)
    (hbusy : s.chip.get (A.slice sl) R.STORE_CHECK_busy = 1) : Does (.storeCheck src sl n) s fun t => OnlyRegs s t [] := by
  refine Does.of_bus (exec_storeCheck s src sl n) hs ?_
  rw [Chip.storeCheckGo_busy (c := s.chip.quiet) hbusy]
  exact (Chip.Keeps.refl _).onlyRegs

/-! ### STORE_CHECK_COMPLETE (R146) -/

/-- The CRC and the result of a check. -/
def Chip.checkShown (c : Chip) (sl crc result : Nat) : Chip :=
  ((c.put (A.slice sl) R.STORE_CRC_LAST_crc crc).put (A.slice sl) R.STORE_CHECK_busy 0).put (A.slice sl) R.STORE_CHECK_result result

/-- A mismatch is reported, and makes a spare fail. -/
def Chip.mismatch (c : Chip) (sl n : Nat) : Chip :=
  if (c.report (porterUnit sl n) K.storeMismatch 3).role sl n = 1 then (c.report (porterUnit sl n) K.storeMismatch 3).failSpare sl n
  else c.report (porterUnit sl n) K.storeMismatch 3

/-- A check ends. -/
def Chip.checkEnds (c : Chip) (sl : Nat) (upsets : List (Nat × Entry)) : Chip :=
  if c.checkPasses sl upsets = true then c.checkShown sl (c.checkCrc upsets) 1
  else (c.checkShown sl (c.checkCrc upsets) 2).mismatch sl (c.front sl).checking

section
variable (c : Chip) (sl n : Nat)

theorem Chip.shows_checkShown (crc : Nat) {r : Nat} (hr : r < 4) :
    (c.checkShown sl crc r).get (A.slice sl) R.STORE_CHECK_busy = 0 ∧
      (c.checkShown sl crc r).get (A.slice sl) R.STORE_CRC_LAST_crc = crc % 2 ^ 32 ∧
      (c.checkShown sl crc r).get (A.slice sl) R.STORE_CHECK_result = r := by
  refine ⟨?_, ?_, ?_⟩
  all_goals simp (disch := decide) only [Chip.checkShown, Chip.get_put_field, Chip.get_put_same, Chip.get_put_off]
  · rfl
  · rfl
  · exact Nat.mod_eq_of_lt hr

theorem Chip.keeps_checkShown (crc r : Nat) : c.Keeps (c.checkShown sl crc r) [A.slice sl + R.STORE_CHECK, A.slice sl + R.STORE_CRC_LAST] [] :=
  (((Chip.Keeps.refl c).put (f := R.STORE_CRC_LAST_crc) (.tail _ (.head _)) _).put (f := R.STORE_CHECK_busy) (.head _) _).put
    (f := R.STORE_CHECK_result) (.head _) _

/-- A mismatch leaves the registers of the check. -/
theorem Chip.within_mismatch : (c.report (porterUnit sl n) K.storeMismatch 3).Within (c.mismatch sl n) [0, 0x100] := by
  rw [Chip.mismatch]
  split
  · exact (Chip.Within.refl _).failSpare (.head _) (.tail _ (.head _)) sl n
  · exact Chip.Within.refl _

theorem Chip.get_mismatch {f : Fld} (h : f.off % 0x1000 ≠ 0 ∧ f.off % 0x1000 ≠ 0x100) :
    (c.mismatch sl n).get (A.slice sl) f = c.get (A.slice sl) f := by
  refine congrArg (bits · f.hi f.lo) ((c.within_mismatch sl n).reg _ (Nat.le_add_right_of_le (A.le_slice sl)) ?_)
  have := A.slice_mod sl
  simp only [List.mem_cons, List.not_mem_nil, or_false]
  omega

theorem Chip.sent_mismatch : c.msgOf (porterUnit sl n) K.storeMismatch 3 ∈ (c.mismatch sl n).ledger.transit :=
  (c.within_mismatch sl n).sent.subset (Chip.mem_report ..)

end

section
variable {s : State} {sl : Nat} {upsets : List (Nat × Entry)}

theorem storeCheckComplete_does (hr : s.runs .core = true) (hsl : sl < 8) (hrun : s.chip.sliceEnabled sl = true ∧ s.chip.asleep sl = false)
    (hbusy : s.chip.get (A.slice sl) R.STORE_CHECK_busy = 1) :
    Does (.storeCheckComplete sl upsets) s fun t => t = { s with chip := s.chip.quiet.checkEnds sl upsets } := by
  have hcond : (decide (sl < 8) && s.chip.quiet.sliceEnabled sl && !(s.chip.quiet.asleep sl) &&
      s.chip.quiet.on (A.slice sl) R.STORE_CHECK_busy) = true := by
    have henabled : s.chip.quiet.sliceEnabled sl = true := hrun.1
    have hawake : s.chip.quiet.asleep sl = false := hrun.2
    have hon : s.chip.quiet.on (A.slice sl) R.STORE_CHECK_busy = true := bne_iff_ne.mpr (by rw [Chip.get_quiet, hbusy]; decide)
    rw [henabled, hawake, hon, decide_eq_true hsl]
    rfl
  refine Does.of_run (exec_storeCheckComplete s sl upsets) hr ?_
  rw [if_pos hcond]
  rw [Chip.checkEnds, Chip.checkPasses]
  cases hok : s.chip.quiet.checkCrc upsets == s.chip.quiet.get (A.slice sl) R.STORE_CRC_crc with
  | false =>
    simp only [hok, Bool.false_eq_true, if_false, Chip.checkShown, Chip.mismatch]
    rfl
  | true => simp only [hok, if_true, Chip.checkShown]

theorem storeCheckComplete_shows (hr : s.runs .core = true) (hsl : sl < 8) (hrun : s.chip.sliceEnabled sl = true ∧ s.chip.asleep sl = false)
    (hbusy : s.chip.get (A.slice sl) R.STORE_CHECK_busy = 1) :
    Does (.storeCheckComplete sl upsets) s fun t =>
      t.chip.get (A.slice sl) R.STORE_CHECK_busy = 0 ∧ t.chip.get (A.slice sl) R.STORE_CRC_LAST_crc = s.chip.checkCrc upsets % 2 ^ 32 ∧
      t.chip.get (A.slice sl) R.STORE_CHECK_result = (if s.chip.checkCrc upsets = s.chip.get (A.slice sl) R.STORE_CRC_crc then 1 else 2) ∧
      (s.chip.checkCrc upsets ≠ s.chip.get (A.slice sl) R.STORE_CRC_crc →
        s.chip.msgOf (porterUnit sl (s.chip.front sl).checking) K.storeMismatch 3 ∈ t.chip.ledger.transit) ∧
      (s.chip.checkCrc upsets = s.chip.get (A.slice sl) R.STORE_CRC_crc →
        OnlyRegs s t [A.slice sl + R.STORE_CHECK, A.slice sl + R.STORE_CRC_LAST]) ∧ t.nv = s.nv ∧ t.fuses = s.fuses ∧
        t.pending = s.pending := by
  obtain ⟨_, hexec, rfl⟩ := storeCheckComplete_does (upsets := upsets) hr hsl hrun hbusy
  refine ⟨_, hexec, ?_⟩
  rw [Chip.checkEnds]
  by_cases hok : s.chip.checkCrc upsets = s.chip.get (A.slice sl) R.STORE_CRC_crc
  · obtain ⟨hbusy', hcrc, hresult⟩ := s.chip.quiet.shows_checkShown sl (s.chip.quiet.checkCrc upsets) (r := 1) (by decide)
    have hpass : s.chip.quiet.checkPasses sl upsets = true := beq_iff_eq.mpr hok
    rw [if_pos hpass, if_pos hok]
    exact ⟨hbusy', hcrc, hresult, fun h => (h hok).elim, fun _ => (Chip.keeps_checkShown ..).onlyRegs, rfl, rfl, rfl⟩
  · obtain ⟨hbusy', hcrc, hresult⟩ := s.chip.quiet.shows_checkShown sl (s.chip.quiet.checkCrc upsets) (r := 2) (by decide)
    have hfails : ¬ s.chip.quiet.checkPasses sl upsets = true := fun h => hok (beq_iff_eq.mp h)
    have himage : (s.chip.quiet.checkShown sl (s.chip.quiet.checkCrc upsets) 2).image = s.chip.image :=
      (Chip.keeps_checkShown ..).image (by decide)
    rw [if_neg hfails, if_neg hok, Chip.get_mismatch _ _ _ (by decide), Chip.get_mismatch _ _ _ (by decide), Chip.get_mismatch _ _ _ (by decide),
      ← Chip.msgOf_of_image himage]
    exact ⟨hbusy', hcrc, hresult, fun _ => Chip.sent_mismatch .., fun h => (hok h).elim, rfl, rfl, rfl⟩

theorem storeCheckComplete_ignored (hr : s.runs .core = true) (hidle : s.chip.get (A.slice sl) R.STORE_CHECK_busy = 0) :
    Does (.storeCheckComplete sl upsets) s fun t => OnlyRegs s t [] := by
  have hcond : ¬ (decide (sl < 8) && s.chip.quiet.sliceEnabled sl && !(s.chip.quiet.asleep sl) &&
      s.chip.quiet.on (A.slice sl) R.STORE_CHECK_busy) = true := by
    have hoff : s.chip.quiet.on (A.slice sl) R.STORE_CHECK_busy = false := bne_eq_false_iff_eq.mpr hidle
    rw [hoff, Bool.and_false]
    exact Bool.false_ne_true
  refine Does.of_run (exec_storeCheckComplete s sl upsets) hr ?_
  rw [if_neg hcond]
  exact (Chip.Keeps.refl _).onlyRegs

end

/-! ### The obligation -/

/-- Settles O34, clause by clause: what a failure leaves, what each check and the takeover leave. -/
theorem portersFailAndAreChecked : Obligations.PortersFailAndAreChecked := by
  unfold Obligations.PortersFailAndAreChecked
  refine ⟨?_, fun _ _ _ => porterStall_ignored, ?_, fun _ _ _ _ => porterRetire_refused, fun _ _ _ _ => recheck_completes,
    fun _ _ _ _ => spareCheck_completes, fun _ _ _ _ => spareTakeover_takes, fun _ _ _ => spareTakeover_ignored,
    fun _ _ _ _ hs _ => storeCheck_starts hs, fun _ _ _ _ => storeCheck_refused, fun _ _ _ _ => storeCheck_ignored,
    fun _ _ _ => storeCheckComplete_shows, fun _ _ _ => storeCheckComplete_ignored⟩
  · intro s sl n hr hrun htakes hbusy hlate
    obtain ⟨_, hexec, rfl⟩ := porterStall_fails hr hrun htakes hbusy hlate
    have hfails := s.chip.quiet.fails_failPorter sl n 2 (Chip.role_of_takes htakes)
    exact ⟨_, hexec, hfails.role, hfails.porter, hfails.frames, hfails.discards, hfails.applies, hfails.failovers, hfails.sent,
      fun hno => hfails.noSpare ((s.chip.quiet.spareOf_none_iff sl).mpr hno), rfl, rfl, rfl⟩
  · intro s src sl n hs _ hn hrole hspare
    obtain ⟨_, hexec, rfl⟩ := porterRetire_fails hs hn hrole hspare
    have hfails := Chip.fails_retireShown (c := s.chip.quiet) hrole 1 3
    have hkept : ∀ {f : Fld}, f.off = R.PORTER_SUMMARY → (f.hi < 8 ∨ 29 < f.lo ∧ f.hi < 64) → _ :=
      Chip.get_failPorter_summary (s.chip.quiet.retireShown sl n 1) sl n 3
    exact ⟨_, hexec, hfails.role, hfails.porter, hfails.frames, hfails.discards, hfails.applies, hfails.failovers,
      (hkept rfl (by decide)).trans (Chip.result_retireShown _ _ _ _ (by decide)),
      (hkept rfl (by decide)).trans (Chip.index_retireShown _ _ _ _ (hn.trans (by decide))), hfails.sent, rfl, rfl, rfl⟩

end Sys2Proof.Machine
end

section
/-! SUPPORT. The issue of a microword (spec/05_porters.md R107, R120 to R123, R127, spec/06_microword_reference.md R131): what the word's
slots, its outcome and the thread's end change. -/

namespace Sys2Proof.Machine

open Sys2Proof

/-! ### Waybills -/

theorem Wb.get_put_same (w : BitVec 512) (n v : Nat) {hi lo : Nat} (h : lo ≤ hi ∧ 32 * n + hi < 512) :
    Wb.get (Wb.put w n hi lo v) n hi lo = v % 2 ^ (hi + 1 - lo) := by
  rw [Wb.get, Wb.put, bits_putBits_same _ _ _ _ (by omega) h.2]
  congr 2
  omega

theorem Wb.get_put_other (w : BitVec 512) (n v : Nat) {hi lo n' hi' lo' : Nat}
    (h : lo ≤ hi ∧ 32 * n' + hi' < 512 ∧ (32 * n' + hi' < 32 * n + lo ∨ 32 * n + hi < 32 * n' + lo')) :
    Wb.get (Wb.put w n hi lo v) n' hi' lo' = Wb.get w n' hi' lo' :=
  bits_putBits_other _ _ _ _ _ _ (by omega) h.2.1 h.2.2

theorem eq_fail_of_ite {p : Prop} [Decidable p] {k r : Nat} {x : MwOut} (h : (if p then .fail k else x) = .fail r) : k = r ∨ x = .fail r := by
  split at h
  · exact .inl (MwOut.fail.inj h)
  · exact .inr h

/-- A word fails with one of three reasons (Table 6-5). -/
theorem reason_of_runWord {w : Entry} {t : Thread} {win : List Byte} {lim : Nat} {wb : BitVec 512} {limit r : Nat}
    (h : runWord w t win lim wb limit = .fail r) : 1 ≤ r ∧ r ≤ 3 := by
  rw [runWord] at h
  obtain rfl | h := eq_fail_of_ite h
  · decide
  obtain rfl | h := eq_fail_of_ite h
  · decide
  obtain rfl | h := eq_fail_of_ite h
  · decide
  obtain rfl | h := eq_fail_of_ite h
  · decide
  cases h

/-! ### Slots (R127) -/

section
variable (c : Chip) (s n : Nat)

theorem A.counter_inj {o o' : Nat} (h : o ≠ o') : A.porter s n + o ≠ A.porter s n + o' := Nat.add_left_cancel_iff.not.mpr h

theorem Chip.slotTotal_chargeWord {k : Nat} (h : k ≠ C.slot_total) (cycles : Nat) :
    (c.chargeWord s n k cycles).reg (A.porter s n + C.slot_total) = c.reg (A.porter s n + C.slot_total) + BitVec.ofNat 64 cycles := by
  rw [Chip.chargeWord, Chip.reg_setPorter, Chip.chargeSlots, Chip.reg_cnt_ne _ _ _ _ (A.counter_inj s n h.symm), Chip.reg_cnt_same]

theorem Chip.slots_chargeWord {k : Nat} (h : k ≠ C.slot_total) (cycles : Nat) :
    (c.chargeWord s n k cycles).reg (A.porter s n + k) = c.reg (A.porter s n + k) + BitVec.ofNat 64 cycles := by
  rw [Chip.chargeWord, Chip.reg_setPorter, Chip.chargeSlots, Chip.reg_cnt_same, Chip.reg_cnt_ne _ _ _ _ (A.counter_inj s n h)]

theorem Chip.Within.chargeWord {c d : Chip} {l : List Nat} (h : c.Within d l) {k : Nat} (hk : k < 0x1000 ∧ k ∈ l) (hl : C.slot_total ∈ l)
    (s n cycles : Nat) : c.Within (d.chargeWord s n k cycles) l :=
  ((h.cnt (.inr (by rwa [A.porter_add_mod s n (by decide)])) cycles).cnt (.inr (by rw [A.porter_add_mod s n hk.1]; exact hk.2)) cycles).setPorter
    s n _

theorem Chip.Keeps.chargeWord {c d : Chip} {l : List Nat} {ps : List Part} (h : c.Keeps d l ps) {s n k : Nat}
    (ht : A.porter s n + C.slot_total ∈ l) (hk : A.porter s n + k ∈ l) (hp : .porters ∈ ps) (cycles : Nat) :
    c.Keeps (d.chargeWord s n k cycles) l ps := ((h.cnt ht cycles).cnt hk cycles).setPorter hp s n _

@[simp] theorem Chip.chargeWord_frames (k cycles : Nat) : (c.chargeWord s n k cycles).frames = c.frames := by
  rw [Chip.chargeWord, Chip.setPorter_frames, Chip.chargeSlots, Chip.cnt_frames, Chip.cnt_frames]
@[simp] theorem Chip.chargeWord_ledger (k cycles : Nat) : (c.chargeWord s n k cycles).ledger = c.ledger := by
  rw [Chip.chargeWord, Chip.setPorter_ledger, Chip.chargeSlots, Chip.cnt_ledger, Chip.cnt_ledger]
@[simp] theorem Chip.chargeWord_now (k cycles : Nat) : (c.chargeWord s n k cycles).now = c.now := by
  rw [Chip.chargeWord, Chip.setPorter_now, Chip.chargeSlots, Chip.cnt_now, Chip.cnt_now]
@[simp] theorem Chip.chargeWord_store (k cycles : Nat) : (c.chargeWord s n k cycles).store = c.store := by
  rw [Chip.chargeWord, Chip.setPorter_store, Chip.chargeSlots, Chip.cnt_store, Chip.cnt_store]
theorem Chip.porter_chargeWord (k cycles : Nat) :
    (c.chargeWord s n k cycles).porter s n = { c.porter s n with ahead := (c.porter s n).ahead + cycles } := Chip.porter_setPorter ..

end

/-! ### The end of a thread -/

/-- A frame as its thread leaves it (R120, R121). -/
def Chip.endedFrame (c : Chip) (f : Frame) (t : Thread) (wb : BitVec 512) (reason slots : Nat) : Frame :=
  { f with
    wb :=
      if reason = 0 then Wb.put (Wb.put wb 3 31 0 (flowHash t (Wb.get wb 5 25 25 == 1))) 6 23 16 (Nat.min 255 slots)
      else Wb.put (Wb.put (Wb.put (Wb.put wb 3 31 0 (flowHash t (Wb.get wb 5 25 25 == 1))) 6 23 16 (Nat.min 255 slots)) 5 20 18 reason) 6 31 24 0
    keys := if reason = 0 then leftKeys t (Wb.get wb 5 25 25 == 1) else []
    dflt := c.reg (A.port f.home + R.PORT_DEFAULT) }

section
variable (c : Chip) (s n th id : Nat) (f : Frame) (t : Thread) (wb : BitVec 512) (reason slots : Nat)

theorem Chip.endThread_eq : c.endThread s n th id t wb reason slots =
    ((c.setFr id (c.endedFrame (c.fr id) t wb reason slots)).cnt (A.porter s n + C.frames_parsed) 1).setThread s n th { t with ended := true } :=
  rfl

theorem Chip.hash_endedFrame : Wb.hash (c.endedFrame f t wb 0 slots).wb = flowHash t (Wb.get wb 5 25 25 == 1) % 2 ^ 32 :=
  (Wb.get_put_other _ _ _ (by decide)).trans (Wb.get_put_same _ _ _ (by decide))

theorem Chip.failReason_endedFrame {r : Nat} (h : 1 ≤ r ∧ r ≤ 3) : Wb.failReason (c.endedFrame f t wb r slots).wb = r := by
  rw [Chip.endedFrame, if_neg (by omega), Wb.failReason, Wb.get_put_other _ _ _ (by decide), Wb.get_put_same _ _ _ (by decide)]
  exact Nat.mod_eq_of_lt (by omega)

theorem Chip.keyValid_endedFrame {r : Nat} (h : 1 ≤ r) : Wb.keyValid (c.endedFrame f t wb r slots).wb = 0 := by
  rw [Chip.endedFrame, if_neg (by omega), Wb.keyValid, Wb.get_put_same _ _ _ (by decide)]
  rfl

theorem Chip.keys_endedFrame_of_fail {r : Nat} (h : 1 ≤ r) : (c.endedFrame f t wb r slots).keys = [] := if_neg (by omega)

/-- A chip after the end of a thread, with the frame that is left. -/
theorem Chip.endThread_frame {c : Chip} {id : Nat} {f : Frame} (hf : c.frames.look id = some f) :
    (c.endThread s n th id t wb reason slots).frames.look id = some (c.endedFrame f t wb reason slots) := by
  rw [Chip.endThread_eq, Chip.fr_of_look hf, Chip.setThread_frames, Chip.cnt_frames, Chip.look_setFr]

theorem Chip.threadOf_endThread : (c.endThread s n th id t wb reason slots).threadOf s n th = { t with ended := true } := by
  rw [Chip.endThread_eq, Chip.threadOf_setThread]

theorem Chip.parsed_endThread : (c.endThread s n th id t wb reason slots).reg (A.porter s n + C.frames_parsed) =
    c.reg (A.porter s n + C.frames_parsed) + 1 := by
  rw [Chip.endThread_eq, Chip.reg_setThread, Chip.reg_cnt_same, Chip.reg_setFr]
  rfl

theorem Chip.Within.endThread {c d : Chip} {l : List Nat} (h : c.Within d l) (hl : C.frames_parsed ∈ l) (s n th id : Nat) (t : Thread)
    (wb : BitVec 512) (reason slots : Nat) : c.Within (d.endThread s n th id t wb reason slots) l := by
  rw [Chip.endThread_eq]
  exact ((h.setFr id _).cnt (.inr (by rwa [A.porter_add_mod s n (by decide)])) 1).setPorter s n _

theorem Chip.Keeps.endThread {c d : Chip} {l : List Nat} {ps : List Part} (h : c.Keeps d l ps) {s n : Nat} (ha : A.porter s n + C.frames_parsed ∈ l)
    (hp : .porters ∈ ps) (hf : .frames ∈ ps) (th id : Nat) (t : Thread) (wb : BitVec 512) (reason slots : Nat) :
    c.Keeps (d.endThread s n th id t wb reason slots) l ps := by
  rw [Chip.endThread_eq]
  exact ((h.setFr hf id _).cnt ha 1).setThread hp s n th _

@[simp] theorem Chip.endThread_ledger : (c.endThread s n th id t wb reason slots).ledger = c.ledger := by
  rw [Chip.endThread_eq, Chip.setThread_ledger, Chip.cnt_ledger, Chip.setFr_ledger]

end

/-! ### A word's outcomes, after its slots are charged -/

/-- The parse fails. -/
def Chip.failRest (c : Chip) (s n th id : Nat) (t : Thread) (f : Frame) (r slots : Nat) : Chip :=
  let c := (c.passTurn s n th false).cnt (A.porter s n + C.parse_fail + 8 * (r - 1)) 1
  (if r = 1 then c.report (porterUnit s n) K.porterIllegal 0 t.pc else c).endThread s n th id t f.wb r slots

/-- The thread goes on. -/
def Chip.nextRest (c : Chip) (s n th id : Nat) (f : Frame) (t : Thread) (wb : BitVec 512) (taken : Bool) : Chip :=
  let c := c.passTurn s n th taken
  ((c.setPorter s n { c.porter s n with lastRetire := c.now }).setFr id { f with wb }).setThread s n th t

/-- The thread ends; a waybill that is not valid, or is made so by an injection, drops the frame. -/
def Chip.lastRest (c : Chip) (s n th id : Nat) (t : Thread) (wb : BitVec 512) (check : Word) : Chip :=
  let inj := c.injected (porterUnit s n) 2 != 0
  let c := (c.endThread s n th id t wb 0 (t.retired + t.waste)).when inj fun c => c.injectStep (porterUnit s n) 2
  if inj || !(waybillOk wb) then c.waybillFail s n id check inj else c

/-- What the next word of a thread comes to. -/
def Chip.ranWord (c : Chip) (s n th : Nat) (f : Frame) : MwOut :=
  runWord (c.store.look (c.threadOf s n th).pc) (c.threadOf s n th) (c.headerWindow f).1 (c.headerWindow f).2 f.wb
    (R.PORTER_PARSE_loop_limit.of (c.threadOf s n th).parse)

/-- The cycles of the next word of a thread. -/
def Chip.wordCycles (c : Chip) (s n th : Nat) : Nat := Mw.cyc (c.store.look (c.threadOf s n th).pc)

/-- A word in its turn, after the wasted cycle of a branch. -/
def Chip.takeTurn (c : Chip) (s n th id : Nat) (f : Frame) : Chip :=
  match c.ranWord s n th f with
  | .fail r =>
    (c.chargeWord s n C.slot_wasted (c.wordCycles s n th)).failRest s n th id (c.threadOf s n th) f r
      ((c.threadOf s n th).retired + (c.threadOf s n th).waste + c.wordCycles s n th)
  | .next t wb ended taken =>
    if ended then
      ((c.chargeWord s n C.slot_retired (c.wordCycles s n th)).nextRest s n th id f t wb taken).lastRest s n th id t wb (c.threadOf s n th).check
    else (c.chargeWord s n C.slot_retired (c.wordCycles s n th)).nextRest s n th id f t wb taken

theorem Chip.redirect_frames (c : Chip) (s n th : Nat) : (c.redirect s n th).frames = c.frames := by
  unfold Chip.redirect
  split
  · rw [Chip.setThread_frames, Chip.chargeWord_frames]
  · rfl

/-- The definition is opened as a whole: its equation theorem would evaluate the word. -/
theorem Chip.issue_eq {c : Chip} {id : Nat} {f : Frame} (hf : c.frames.look id = some f) (s n th : Nat) :
    c.issue s n th id = (c.redirect s n th).takeTurn s n th id f := by
  have hfr : (c.redirect s n th).fr id = f := Chip.fr_of_look (by rw [Chip.redirect_frames, hf])
  subst hfr
  delta Chip.issue Chip.takeTurn Chip.ranWord Chip.failRest Chip.nextRest Chip.lastRest Chip.wordCycles
  dsimp only
  cases runWord _ _ _ _ _ _ with
  | fail r => rfl
  | next t wb ended taken => cases ended <;> rfl

end Sys2Proof.Machine
end

section
/-! SUPPORT. A microword in its turn (spec/05_porters.md R107, R120 to R123, R127) by its outcomes. -/

namespace Sys2Proof.Machine

open Sys2Proof

/-! ### The three outcomes -/

section
variable {c : Chip} {s n th : Nat} {f : Frame}

theorem Chip.takeTurn_fail {r : Nat} (h : c.ranWord s n th f = .fail r) (id : Nat) : c.takeTurn s n th id f =
    (c.chargeWord s n C.slot_wasted (c.wordCycles s n th)).failRest s n th id (c.threadOf s n th) f r
      ((c.threadOf s n th).retired + (c.threadOf s n th).waste + c.wordCycles s n th) := by
  delta Chip.takeTurn
  rw [h]

theorem Chip.takeTurn_next {t : Thread} {wb : BitVec 512} {taken : Bool} (h : c.ranWord s n th f = .next t wb false taken) (id : Nat) :
    c.takeTurn s n th id f = (c.chargeWord s n C.slot_retired (c.wordCycles s n th)).nextRest s n th id f t wb taken := by
  delta Chip.takeTurn
  rw [h]
  rfl

theorem Chip.takeTurn_last {t : Thread} {wb : BitVec 512} {taken : Bool} (h : c.ranWord s n th f = .next t wb true taken) (id : Nat) :
    c.takeTurn s n th id f = ((c.chargeWord s n C.slot_retired (c.wordCycles s n th)).nextRest s n th id f t wb taken).lastRest s n th id t wb
      (c.threadOf s n th).check := by
  delta Chip.takeTurn
  rw [h]
  rfl

end

/-! ### A word that fails -/

/-- The turn passes, and the failure is counted and, of an illegal word, reported. -/
def Chip.failCounted (c : Chip) (s n th pc r : Nat) : Chip :=
  if r = 1 then
    ((c.passTurn s n th false).cnt (A.porter s n + C.parse_fail + 8 * (r - 1)) 1).report (porterUnit s n) K.porterIllegal 0 pc
  else (c.passTurn s n th false).cnt (A.porter s n + C.parse_fail + 8 * (r - 1)) 1

theorem Chip.failRest_eq (c : Chip) (s n th id : Nat) (t : Thread) (f : Frame) (r slots : Nat) :
    c.failRest s n th id t f r slots = (c.failCounted s n th t.pc r).endThread s n th id t f.wb r slots := rfl

section
variable (c : Chip) (s n th pc : Nat) {r : Nat}

theorem Chip.failCounted_frames : (c.failCounted s n th pc r).frames = c.frames := by
  unfold Chip.failCounted
  split
  · rw [Chip.report_frames, Chip.cnt_frames, Chip.passTurn, Chip.setPorter_frames]
  · rw [Chip.cnt_frames, Chip.passTurn, Chip.setPorter_frames]

theorem Chip.failCounted_ledger : (c.failCounted s n th pc r).ledger =
    if r = 1 then c.sent [c.msgOf (porterUnit s n) K.porterIllegal 0 pc] else c.ledger := by
  have hledger : ((c.passTurn s n th false).cnt (A.porter s n + C.parse_fail + 8 * (r - 1)) 1).ledger = c.ledger := by
    rw [Chip.cnt_ledger, Chip.passTurn, Chip.setPorter_ledger]
  have himage : ((c.passTurn s n th false).cnt (A.porter s n + C.parse_fail + 8 * (r - 1)) 1).image = c.image := Chip.cnt_image ..
  unfold Chip.failCounted
  split
  · rw [Chip.report_sent, Chip.sent, hledger, Chip.msgOf_of_image himage, Chip.sent]
  · exact hledger

theorem Chip.counts_failCounted : (c.failCounted s n th pc r).reg (A.porter s n + C.parse_fail + 8 * (r - 1)) =
    c.reg (A.porter s n + C.parse_fail + 8 * (r - 1)) + 1 := by
  have hcnt : ((c.passTurn s n th false).cnt (A.porter s n + C.parse_fail + 8 * (r - 1)) 1).reg (A.porter s n + C.parse_fail + 8 * (r - 1)) =
      c.reg (A.porter s n + C.parse_fail + 8 * (r - 1)) + 1 := by
    rw [Chip.reg_cnt_same, Chip.passTurn, Chip.reg_setPorter]
    rfl
  unfold Chip.failCounted
  split
  · rw [Chip.reg_report, hcnt]
  · exact hcnt

/-- Offsets of the parse failure counters. -/
def parseFails : List Nat := [0x818, 0x820, 0x828]

theorem parseFail_mod (hr : 1 ≤ r ∧ r ≤ 3) : (A.porter s n + C.parse_fail + 8 * (r - 1)) % 0x1000 = 0x818 + 8 * (r - 1) := by
  have := A.porter_mod s n
  simp only [C.parse_fail]
  omega

theorem parseFail_mem (hr : 1 ≤ r ∧ r ≤ 3) : (A.porter s n + C.parse_fail + 8 * (r - 1)) % 0x1000 ∈ parseFails := by
  rw [parseFail_mod s n hr]
  simp only [parseFails, List.mem_cons, List.not_mem_nil, or_false]
  omega

theorem Chip.Within.failCounted {c d : Chip} {l : List Nat} (h : c.Within d l) (hr : 1 ≤ r ∧ r ≤ 3) (hl : parseFails ⊆ l) (s n th pc : Nat) :
    c.Within (d.failCounted s n th pc r) l := by
  have hturn : c.Within (d.passTurn s n th false) l := h.setPorter s n _
  have hcnt := hturn.cnt (.inr (hl (parseFail_mem s n hr))) 1
  unfold Chip.failCounted
  split
  · exact hcnt.report ..
  · exact hcnt

theorem Chip.Keeps.failCounted {c d : Chip} {l : List Nat} {ps : List Part} (h : c.Keeps d l ps) {s n : Nat}
    (ha : A.porter s n + C.parse_fail + 8 * (r - 1) ∈ l) (hp : .porters ∈ ps) (hl : .ledger ∈ ps) (th pc : Nat) :
    c.Keeps (d.failCounted s n th pc r) l ps := by
  have hturn : c.Keeps (d.passTurn s n th false) l ps := h.setPorter hp s n _
  have hcnt := hturn.cnt ha 1
  unfold Chip.failCounted
  split
  · exact hcnt.report hl _ _ _ _ _
  · exact hcnt

end

/-! ### A word after which the thread goes on -/

section
variable (c : Chip) (s n th id : Nat) (f : Frame) (t : Thread) (wb : BitVec 512) (taken : Bool)

theorem Chip.porter_nextRest : (c.nextRest s n th id f t wb taken).porter s n =
    { c.porter s n with
      turn := (th + 1) % 4, branched := if taken then some th else none, lastRetire := c.now, threads := (c.porter s n).threads.set th t } := by
  rw [Chip.nextRest, Chip.porter_setThread, Chip.porter_setFr, Chip.porter_setPorter, Chip.passTurn, Chip.porter_setPorter, Chip.setPorter_now]

theorem Chip.nextRest_frame : (c.nextRest s n th id f t wb taken).frames.look id = some { f with wb } := by
  rw [Chip.nextRest, Chip.setThread_frames, Chip.look_setFr]

theorem Chip.nextRest_ledger : (c.nextRest s n th id f t wb taken).ledger = c.ledger := by
  rw [Chip.nextRest, Chip.setThread_ledger, Chip.setFr_ledger, Chip.setPorter_ledger, Chip.passTurn, Chip.setPorter_ledger]

theorem Chip.reg_nextRest (a : Nat) : (c.nextRest s n th id f t wb taken).reg a = c.reg a := by
  rw [Chip.nextRest, Chip.reg_setThread, Chip.reg_setFr, Chip.reg_setPorter, Chip.passTurn, Chip.reg_setPorter]

theorem Chip.Within.nextRest {c d : Chip} {l : List Nat} (h : c.Within d l) (s n th id : Nat) (f : Frame) (t : Thread) (wb : BitVec 512)
    (taken : Bool) : c.Within (d.nextRest s n th id f t wb taken) l := by
  have hturn : c.Within (d.passTurn s n th taken) l := h.setPorter s n _
  exact (((hturn.setPorter s n _).setFr id _)).setPorter s n _

theorem Chip.Keeps.nextRest {c d : Chip} {l : List Nat} {ps : List Part} (h : c.Keeps d l ps) (hp : .porters ∈ ps) (hf : .frames ∈ ps)
    (s n th id : Nat) (f : Frame) (t : Thread) (wb : BitVec 512) (taken : Bool) : c.Keeps (d.nextRest s n th id f t wb taken) l ps :=
  have hturn : c.Keeps (d.passTurn s n th taken) l ps := h.setPorter hp s n _
  ((hturn.setPorter hp s n _).setFr hf id _).setThread hp s n th t

end

/-! ### A waybill that is not valid (R122) -/

theorem Chip.Within.reportInj {c d : Chip} {l : List Nat} (h : c.Within d l) (u k v x : Nat) (inj : Bool) :
    c.Within (d.reportInj u k v x inj) l := h.trans ⟨fun _ _ _ => rfl, List.prefix_append .., rfl⟩

@[simp] theorem Chip.reg_reportInj (c : Chip) (u k v x : Nat) (inj : Bool) (a : Nat) : (c.reportInj u k v x inj).reg a = c.reg a := rfl

theorem Chip.Within.setInj {c d : Chip} {l : List Nat} (h : c.Within d l) (o : Option Injection) :
    c.Within { d with ledger := { d.ledger with inj := o } } l := h.trans ⟨fun _ _ _ => rfl, List.prefix_rfl, rfl⟩

theorem Chip.Within.injectStep {c d : Chip} {l : List Nat} (h : c.Within d l) (u cls : Nat) : c.Within (d.injectStep u cls) l := by
  unfold Chip.injectStep
  split
  · split
    · split
      · exact h.setInj _
      · exact ((h.setInj none).put (f := R.LEDGER_INJ_CTRL_arm) (.inl (by decide)) 0).cnt (.inl (by decide)) 1
    · exact h
  · exact h

/-- When the porter's waybills of the window failed, this one with them. -/
def Chip.failTimes (c : Chip) (s n : Nat) (check : Word) : List Nat :=
  (c.porter s n).fails.filter (fun t => decide (c.now < t + R.PORTER_CHECK_window_us.of check * 1000)) ++ [c.now]

/-- The failed check is counted and reported. -/
def Chip.invalidCounted (c : Chip) (s n : Nat) (inj : Bool) : Chip :=
  (c.cnt (A.porter s n + C.waybill_invalid) 1).reportInj (porterUnit s n) K.waybillInvalid 3 0 inj

/-- The frame of a waybill that failed is dropped. -/
def Chip.waybillDrop (c : Chip) (s n id : Nat) (fails : List Nat) : Chip :=
  (c.endFrame id).setPorter s n { (c.endFrame id).porter s n with fails }

theorem Chip.waybillFail_eq (c : Chip) (s n id : Nat) (check : Word) (inj : Bool) : c.waybillFail s n id check inj =
    if R.PORTER_CHECK_fail_limit.of check ≤ (c.failTimes s n check).length then
      ((c.invalidCounted s n inj).waybillDrop s n id (c.failTimes s n check)).failPorter s n 1
    else (c.invalidCounted s n inj).waybillDrop s n id (c.failTimes s n check) := rfl

section
variable (c : Chip) (s n id : Nat) (check : Word) (inj : Bool)

theorem Chip.Within.waybillDrop {c d : Chip} {l : List Nat} (h : c.Within d l) (hl : 0 ∈ l) (s n id : Nat) (fails : List Nat) :
    c.Within (d.waybillDrop s n id fails) l := (h.endFrame hl id).setPorter s n _

/-- What follows the count and the report leaves both. -/
theorem Chip.within_waybillFail : (c.invalidCounted s n inj).Within (c.waybillFail s n id check inj) failOffsets := by
  have hdrop := (Chip.Within.refl (c.invalidCounted s n inj)).waybillDrop (l := failOffsets) (.head _) s n id (c.failTimes s n check)
  rw [Chip.waybillFail_eq]
  split
  · exact hdrop.failPorter (fun _ ho => ho) s n 1
  · exact hdrop

theorem Chip.waybillFail_frame : (c.waybillFail s n id check inj).frames.look id = none := by
  have hdrop : ∀ d : Chip, ∀ l, (d.waybillDrop s n id l).frames.look id = none := fun d l => by
    rw [Chip.waybillDrop, Chip.setPorter_frames, Chip.endFrame_frames, if_pos rfl]
  rw [Chip.waybillFail_eq]
  split
  · exact Chip.frames_failPorter _ _ _ _ (.inl (hdrop ..))
  · exact hdrop ..

theorem Chip.invalid_waybillFail : (c.waybillFail s n id check inj).reg (A.porter s n + C.waybill_invalid) =
    c.reg (A.porter s n + C.waybill_invalid) + 1 := by
  rw [(c.within_waybillFail s n id check inj).regPorter s n (by decide) (by decide), Chip.invalidCounted, Chip.reg_reportInj, Chip.reg_cnt_same]
  rfl

theorem Chip.reported_waybillFail :
    ((c.waybillFail s n id check inj).ledger.transit.any fun m => m.kind == K.waybillInvalid && m.sev == 3) = true :=
  List.any_eq_true.mpr ⟨_, (c.within_waybillFail s n id check inj).sent.subset (List.mem_append_right _ (List.mem_singleton_self _)), rfl⟩

end

/-! ### A word after which the thread ends -/

/-- Offsets in 4 KiB of the registers that a word may change beside those of its slots: PORTER_STATUS, PORTER_SUMMARY, the porter's
counters of frames and APPLY_STATUS. -/
def turnOffsets : List Nat := [0, 0x100, 0x800, 0x808, 0x818, 0x820, 0x828, 0x830, 0xFFC]

section
variable (c : Chip) (s n th id : Nat) (t : Thread) (wb : BitVec 512) (check : Word)

theorem Chip.lastRest_valid (hok : waybillOk wb = true) (hinj : c.injected (porterUnit s n) 2 = 0) :
    c.lastRest s n th id t wb check = c.endThread s n th id t wb 0 (t.retired + t.waste) := by
  have hnone : (c.injected (porterUnit s n) 2 != 0) = false := bne_eq_false_iff_eq.mpr hinj
  rw [Chip.lastRest]
  simp only [hnone, hok, Chip.when_false, Bool.not_true, Bool.or_false, Bool.false_eq_true, if_false]

/-- The thread's end, and the injection that it uses up. -/
def Chip.endInjected (c : Chip) (s n th id : Nat) (t : Thread) (wb : BitVec 512) (inj : Bool) : Chip :=
  (c.endThread s n th id t wb 0 (t.retired + t.waste)).when inj fun c => c.injectStep (porterUnit s n) 2

theorem Chip.Within.endInjected {c d : Chip} {l : List Nat} (h : c.Within d l) (hl : C.frames_parsed ∈ l) (s n th id : Nat) (t : Thread)
    (wb : BitVec 512) (inj : Bool) : c.Within (d.endInjected s n th id t wb inj) l := by
  have hend := h.endThread hl s n th id t wb 0 (t.retired + t.waste)
  exact hend.when (hend.injectStep ..)

theorem Chip.lastRest_invalid (hbad : waybillOk wb = false) : ∃ inj,
    c.lastRest s n th id t wb check = (c.endInjected s n th id t wb inj).waybillFail s n id check inj := by
  refine ⟨c.injected (porterUnit s n) 2 != 0, ?_⟩
  rw [Chip.lastRest, hbad, Bool.not_false, Bool.or_true]
  rfl

theorem Chip.Within.waybillFail {c d : Chip} {l : List Nat} (h : c.Within d l) (hl : turnOffsets ⊆ l) (s n id : Nat) (check : Word) (inj : Bool) :
    c.Within (d.waybillFail s n id check inj) l := by
  have hoff : (A.porter s n + C.waybill_invalid) % 0x1000 ∈ l := by
    rw [A.porter_add_mod s n (by decide)]
    exact hl (by decide)
  have hfail : failOffsets ⊆ l := fun o ho => hl ((by decide : ∀ o ∈ failOffsets, o ∈ turnOffsets) o ho)
  exact ((h.cnt (.inr hoff) 1).reportInj (porterUnit s n) K.waybillInvalid 3 0 inj).trans ((d.within_waybillFail s n id check inj).mono hfail)

theorem Chip.Within.lastRest {c d : Chip} {l : List Nat} (h : c.Within d l) (hl : turnOffsets ⊆ l) (s n th id : Nat) (t : Thread)
    (wb : BitVec 512) (check : Word) : c.Within (d.lastRest s n th id t wb check) l := by
  have hend : ∀ inj, c.Within (d.endInjected s n th id t wb inj) l := h.endInjected (hl (by decide)) s n th id t wb
  rw [Chip.lastRest]
  split
  · exact (hend _).waybillFail hl s n id check _
  · exact hend _

end

end Sys2Proof.Machine
end

section
/-! SUPPORT. Dispatch, the issue of a microword, release and the way to the pipes (spec/05_porters.md R105 to R108, R120 to R123, R127). -/

namespace Sys2Proof.Machine

open Sys2Proof

/-! ### Dispatch (R105, R106) -/

/-- A frame as its thread takes it: stamped, and with porter, thread and dispatch_seq in its waybill. -/
def Frame.inThread (f : Frame) (k n th seq : Nat) : Frame :=
  { f with slot := some k, stage := .thread n th, wb := Wb.put (Wb.put (Wb.put (Wb.put f.wb 0 23 22 k) 6 15 10 n) 6 9 8 th) 6 7 0 seq }

/-- A port whose oldest waiting frame is dispatched. -/
def Port.parses (id : Nat) (q : Port) : Port :=
  { q with wait := q.wait.filter (· != id), parsing := q.parsing ++ [id], seq := (q.seq + 1) % 256 }

/-- A thread that starts on a frame at the live parse entry. -/
def Chip.startThread (c : Chip) (s n id : Nat) : Thread :=
  { frame := some id, pc := c.get (A.porter s n) R.PORTER_PARSE_entry, parse := c.reg (A.porter s n + R.PORTER_PARSE)
    check := c.reg (A.porter s n + R.PORTER_CHECK) }

/-- A porter without a ready thread has retired nothing from now on. -/
def Chip.wakePorter (c : Chip) (s n : Nat) (idle : Bool) : Chip :=
  c.when idle fun c => c.setPorter s n { c.porter s n with lastRetire := c.now }

/-- A frame without a stamp counts in flight in slot `k`. -/
def Chip.stampNew (c : Chip) (new : Bool) (k : Nat) : Chip := c.when new fun c => c.inflightUp k 1

section
variable (c : Chip)

@[simp] theorem Chip.stampNew_now (new : Bool) (k : Nat) : (c.stampNew new k).now = c.now := by cases new <;> rfl
@[simp] theorem Chip.prt_stampNew (new : Bool) (k p : Nat) : (c.stampNew new k).prt p = c.prt p := by cases new <;> rfl
@[simp] theorem Chip.wakePorter_frames (s n : Nat) (idle : Bool) : (c.wakePorter s n idle).frames = c.frames := by
  cases idle <;> rfl
@[simp] theorem Chip.prt_wakePorter (s n : Nat) (idle : Bool) (p : Nat) : (c.wakePorter s n idle).prt p = c.prt p := by
  cases idle <;> rfl
@[simp] theorem Chip.reg_wakePorter (s n : Nat) (idle : Bool) (a : Nat) : (c.wakePorter s n idle).reg a = c.reg a := by
  cases idle <;> rfl

@[simp] theorem Chip.threadOf_wakePorter (s n th : Nat) (idle : Bool) : (c.wakePorter s n idle).threadOf s n th = c.threadOf s n th := by
  cases idle
  · rfl
  · rw [Chip.wakePorter, Chip.when_true, Chip.threadOf, Chip.porter_setPorter, Chip.threadOf]

theorem Chip.lastRetire_wakePorter (s n : Nat) : ((c.wakePorter s n true).porter s n).lastRetire = c.now := by
  rw [Chip.wakePorter, Chip.when_true, Chip.porter_setPorter]

theorem Chip.reg_stampNew (new : Bool) (k : Nat) {a : Nat} (h : 0x4000 ≤ a) : (c.stampNew new k).reg a = c.reg a := by
  cases new
  · rfl
  · exact c.reg_setReg_ne _ _ _ (Nat.ne_of_gt ((Chip.inflightReg_lt k).trans_le h))

/-- The registers that a thread starts from stand beyond the global window. -/
theorem Chip.startThread_stampNew (new : Bool) (k s n id : Nat) : (c.stampNew new k).startThread s n id = c.startThread s n id := by
  have hreg : ∀ o, (c.stampNew new k).reg (A.porter s n + o) = c.reg (A.porter s n + o) := fun o =>
    c.reg_stampNew new k (Nat.le_add_right_of_le (le_trans (by decide) (A.le_porter s n)))
  unfold Chip.startThread Chip.get
  rw [hreg, hreg, hreg]

theorem Chip.giveThread_eq {c : Chip} {id : Nat} {f : Frame} (hf : c.frames.look id = some f) {k : Nat} (hk : f.slot.getD c.newestSlot = k)
    (s n th : Nat) : c.giveThread s n th id =
      (((((c.stampNew f.slot.isNone k).setFr id (f.inThread k n th (c.prt f.home).seq)).updPrt f.home (Port.parses id)).setThread s n th
        (c.startThread s n id)).wakePorter s n (!c.threadBusy s n)).syncBusy s n := by
  rw [← Chip.startThread_stampNew c f.slot.isNone k]
  simp only [Chip.giveThread, Chip.fr_of_look hf, hk]
  rfl

end

/-- What every dispatch does, of a frame with a stamp and of one without. -/
theorem does_dispatch {s : State} {sl n th id k : Nat} {f : Frame} (hr : s.runs .core = true) (hrun : s.chip.portersRun sl = true)
    (hnext : th < 4 ∧ (s.chip.threadOf sl n th).frame = none ∧ s.chip.dispatchTo sl = some n ∧ s.chip.dispatchable sl id = true ∧
      s.chip.frames.look id = some f) (hk : f.slot.getD s.chip.newestSlot = k) {l : List Nat}
    (hl : f.slot = none → Chip.inflightReg k ∈ l) (hl' : A.porter sl n + R.PORTER_STATUS ∈ l) :
    Does (.dispatch sl n th id) s fun t =>
      t.chip.frames.look id = some (f.inThread k n th (s.chip.prt f.home).seq) ∧
        t.chip.prt f.home = (s.chip.prt f.home).parses id ∧
        t.chip.threadOf sl n th = s.chip.startThread sl n id ∧
        (s.chip.threadBusy sl n = false → (t.chip.porter sl n).lastRetire = s.chip.now) ∧
        t.chip.reg (Chip.inflightReg k) = (s.chip.stampNew f.slot.isNone k).reg (Chip.inflightReg k) ∧
        OnlyParts s t l [.frames, .ports, .porters] := by
  obtain ⟨hth, hfree, hto, hmay, hf⟩ := hnext
  have hcond : (s.chip.quiet.portersRun sl && s.chip.quiet.dispatchTo sl == some n && decide (th < 4) &&
      (s.chip.quiet.threadOf sl n th).frame.isNone && s.chip.quiet.dispatchable sl id) = true := by
    have hto' : s.chip.quiet.dispatchTo sl = some n := hto
    have hrun' : s.chip.quiet.portersRun sl = true := hrun
    have hmay' : s.chip.quiet.dispatchable sl id = true := hmay
    simp [hto', hrun', hmay', hth, hfree]
  refine Does.of_run (exec_dispatch s sl n th id) hr ?_
  rw [if_pos hcond, Chip.giveThread_eq (c := s.chip.quiet) hf hk]
  have hne : Chip.inflightReg k ≠ A.porter sl n + R.PORTER_STATUS := by
    have := Chip.inflightReg_lt k
    have := A.le_porter sl n
    omega
  refine ⟨?_, ?_, ?_, fun hbusy => ?_, ?_, Chip.Keeps.onlyParts ?_⟩
  · rw [Chip.syncBusy_frames, Chip.wakePorter_frames, Chip.setThread_frames, Chip.updPrt_frames, Chip.look_setFr]
    rfl
  · rw [Chip.prt_syncBusy, Chip.prt_wakePorter, Chip.prt_setThread, Chip.prt_updPrt, if_pos rfl, Chip.prt_setFr, Chip.prt_stampNew]
    rfl
  · rw [Chip.threadOf_syncBusy, Chip.threadOf_wakePorter, Chip.threadOf_setThread]
    rfl
  · rw [Chip.porter_syncBusy, Chip.threadBusy_quiet, hbusy, Bool.not_false, Chip.lastRetire_wakePorter, Chip.setThread_now,
      Chip.updPrt_now, Chip.setFr_now, Chip.stampNew_now, Chip.quiet_now]
  · rw [Chip.syncBusy, Chip.reg_put_ne _ _ _ _ _ hne, Chip.reg_wakePorter, Chip.reg_setThread, Chip.reg_updPrt, Chip.reg_setFr]
    cases f.slot.isNone <;> rfl
  · have hmem : .frames ∈ [Part.frames, .ports, .porters] ∧ .ports ∈ [Part.frames, .ports, .porters] ∧
        .porters ∈ [Part.frames, .ports, .porters] := by decide
    obtain ⟨hframes, hports, hporters⟩ := hmem
    have hstamp : s.chip.quiet.Keeps (s.chip.quiet.stampNew f.slot.isNone k) l [.frames, .ports, .porters] :=
      (Chip.Keeps.refl _).when fun h => (Chip.Keeps.refl _).setReg (hl (Option.isNone_iff_eq_none.mp h)) _
    have hthread := ((hstamp.setFr hframes id (f.inThread k n th (s.chip.prt f.home).seq)).updPrt hports f.home (Port.parses id)).setThread
      hporters sl n th (s.chip.quiet.startThread sl n id)
    exact (hthread.when fun _ => hthread.setPorter hporters ..).syncBusy hl'

theorem dispatch_new {s : State} {sl n th id k : Nat} {f : Frame} (hr : s.runs .core = true) (hrun : s.chip.portersRun sl = true)
    (hnext : th < 4 ∧ (s.chip.threadOf sl n th).frame = none ∧ s.chip.dispatchTo sl = some n ∧ s.chip.dispatchable sl id = true ∧
      s.chip.frames.look id = some f) (hslot : f.slot = none ∧ k = s.chip.newestSlot) :
    Does (.dispatch sl n th id) s fun t =>
      t.chip.frames.look id = some (f.inThread k n th (s.chip.prt f.home).seq) ∧
        t.chip.prt f.home = (s.chip.prt f.home).parses id ∧
        t.chip.threadOf sl n th = s.chip.startThread sl n id ∧
        (s.chip.threadBusy sl n = false → (t.chip.porter sl n).lastRetire = s.chip.now) ∧
        t.chip.reg (Chip.inflightReg k) = BitVec.ofNat 64 (s.chip.inflight k + 1) ∧
        OnlyParts s t [Chip.inflightReg k, A.porter sl n + R.PORTER_STATUS] [.frames, .ports, .porters] := by
  obtain ⟨hnone, hk⟩ := hslot
  obtain ⟨t, hexec, hframe, hport, hthread, hlast, hcount, honly⟩ := does_dispatch hr hrun hnext (k := k) (by rw [hnone, hk, Option.getD_none])
    (fun _ => .head _) (.tail _ (.head _))
  refine ⟨t, hexec, hframe, hport, hthread, hlast, hcount.trans ?_, honly⟩
  rw [hnone, Option.isNone_none, Chip.stampNew, Chip.when_true, Chip.inflightUp, Chip.reg_setReg, if_pos rfl]

theorem dispatch_stamped {s : State} {sl n th id k : Nat} {f : Frame} (hr : s.runs .core = true) (hrun : s.chip.portersRun sl = true)
    (hnext : th < 4 ∧ (s.chip.threadOf sl n th).frame = none ∧ s.chip.dispatchTo sl = some n ∧ s.chip.dispatchable sl id = true ∧
      s.chip.frames.look id = some f) (hslot : f.slot = some k) :
    Does (.dispatch sl n th id) s fun t =>
      t.chip.frames.look id = some
        { f with stage := .thread n th, wb := Wb.put (Wb.put (Wb.put (Wb.put f.wb 0 23 22 k) 6 15 10 n) 6 9 8 th) 6 7 0 (s.chip.prt f.home).seq } ∧
        t.chip.prt f.home = (s.chip.prt f.home).parses id ∧
        t.chip.threadOf sl n th = s.chip.startThread sl n id ∧
        (s.chip.threadBusy sl n = false → (t.chip.porter sl n).lastRetire = s.chip.now) ∧
        OnlyParts s t [A.porter sl n + R.PORTER_STATUS] [.frames, .ports, .porters] := by
  obtain ⟨t, hexec, hframe, hport, hthread, hlast, -, honly⟩ := does_dispatch hr hrun hnext (k := k) (by rw [hslot, Option.getD_some])
    (by simp [hslot]) (.head _)
  exact ⟨t, hexec, hframe.trans (by rw [Frame.inThread, ← hslot]), hport, hthread, hlast, honly⟩

theorem dispatch_ignored {s : State} {sl n th id : Nat} (hr : s.runs .core = true)
    (h : s.chip.dispatchTo sl ≠ some n ∨ s.chip.dispatchable sl id = false ∨ (s.chip.threadOf sl n th).frame.isSome = true) :
    Does (.dispatch sl n th id) s fun t => OnlyRegs s t [] := by
  have hcond : ¬ (s.chip.quiet.portersRun sl && s.chip.quiet.dispatchTo sl == some n && decide (th < 4) &&
      (s.chip.quiet.threadOf sl n th).frame.isNone && s.chip.quiet.dispatchable sl id) = true := by
    simp only [Bool.and_eq_true, beq_iff_eq, decide_eq_true_eq, Option.isNone_iff_eq_none]
    rintro ⟨⟨⟨⟨-, hto⟩, -⟩, hfree⟩, hmay⟩
    obtain h | h | h := h
    · exact h hto
    · exact Bool.false_ne_true (h.symm.trans hmay)
    · exact Bool.false_ne_true ((congrArg Option.isSome hfree).symm.trans h)
  refine Does.of_run (exec_dispatch s sl n th id) hr ?_
  rw [if_neg hcond]
  exact (Chip.Keeps.refl _).onlyRegs

/-! ### Release (R108) -/

theorem threadRelease_moves {s : State} {sl n th id : Nat} {f : Frame} (hr : s.runs .core = true) (hrun : s.chip.portersRun sl = true)
    (hdone : th < 4 ∧ (s.chip.threadOf sl n th).frame = some id ∧ (s.chip.threadOf sl n th).ended = true)
    (hroom : (s.chip.front sl).release.length < 256) (hf : s.chip.frames.look id = some f) :
    Does (.threadRelease sl n th) s fun t =>
      t.chip.threadOf sl n th = {} ∧ t.chip.frames.look id = some { f with stage := .release } ∧
        t.chip.front sl = { s.chip.front sl with release := (s.chip.front sl).release ++ [id] } ∧
        OnlyParts s t [A.porter sl n + R.PORTER_STATUS] [.frames, .porters, .fronts] := by
  obtain ⟨hth, hframe, hended⟩ := hdone
  have hrun' : s.chip.quiet.portersRun sl = true := hrun
  have hlook : (s.chip.quiet.clearThread sl n th).frames.look id = some f := by rwa [Chip.clearThread_frames]
  refine Does.of_run (exec_threadRelease s sl n th) hr ?_
  simp only [Chip.threadOf_quiet, Chip.front_quiet, hframe, hrun', hth, hended, hroom, decide_true, Bool.and_true, if_true,
    Chip.updFr_of_look hlook]
  refine ⟨?_, ?_, ?_, Chip.Keeps.onlyParts ?_⟩
  · have hporter : ∀ f, ((s.chip.quiet.clearThread sl n th).setFr id f).porter sl n =
        { s.chip.porter sl n with threads := (s.chip.porter sl n).threads.set th {} } := fun _ => by
      rw [Chip.porter_setFr, Chip.clearThread, Chip.porter_syncBusy, Chip.porter_setPorter, Chip.porter_quiet]
    rw [Chip.threadOf, Chip.porter_setFront, hporter, Tbl.look_set, if_pos rfl]
  · rw [Chip.setFront_frames, Chip.look_setFr]
  · rw [Chip.front_setFront]
  · exact (Chip.Keeps.setFr (((Chip.Keeps.refl _).setPorter (by decide) ..).syncBusy (.head _)) (by decide) id _).setFront (by decide) ..

theorem threadRelease_ignored {s : State} {sl n th : Nat} (hr : s.runs .core = true)
    (h : (s.chip.threadOf sl n th).frame = none ∨ (s.chip.threadOf sl n th).ended = false ∨ 256 ≤ (s.chip.front sl).release.length) :
    Does (.threadRelease sl n th) s fun t => OnlyRegs s t [] := by
  refine Does.of_run (exec_threadRelease s sl n th) hr ?_
  cases hframe : (s.chip.quiet.threadOf sl n th).frame with
  | none =>
    simp only [hframe]
    exact (Chip.Keeps.refl _).onlyRegs
  | some id =>
    have hcond : ¬ (s.chip.quiet.portersRun sl && decide (th < 4) && (s.chip.quiet.threadOf sl n th).ended &&
        decide ((s.chip.quiet.front sl).release.length < 256)) = true := by
      simp only [Bool.and_eq_true, decide_eq_true_eq]
      rintro ⟨⟨-, hended⟩, hroom⟩
      obtain h | h | h := h
      · exact Option.some_ne_none id (hframe.symm.trans h)
      · exact Bool.false_ne_true (h.symm.trans hended)
      · exact Nat.not_lt.mpr h hroom
    simp only [hframe, if_neg hcond]
    exact (Chip.Keeps.refl _).onlyRegs

theorem releaseToPipes_moves {s : State} {sl id : Nat} {f : Frame} (hr : s.runs .core = true) (hrun : s.chip.portersRun sl = true)
    (hnext : (s.chip.front sl).release.find? (fun id => (s.chip.prt (s.chip.fr id).home).parsing.head? == some id) = some id)
    (hf : s.chip.frames.look id = some f) :
    Does (.releaseToPipes sl) s fun t =>
      t.chip.frames.look id = some { f with stage := .pipes } ∧
        t.chip.front sl = { s.chip.front sl with release := (s.chip.front sl).release.filter (· != id) } ∧
        t.chip.prt f.home = { s.chip.prt f.home with parsing := (s.chip.prt f.home).parsing.filter (· != id) } ∧
        OnlyParts s t [] [.frames, .ports, .fronts] := by
  have hrun' : s.chip.quiet.portersRun sl = true := hrun
  have hnext' : (s.chip.quiet.front sl).release.find?
      (fun id => (s.chip.quiet.prt (s.chip.quiet.fr id).home).parsing.head? == some id) = some id := hnext
  refine Does.of_run (exec_releaseToPipes s sl) hr ?_
  simp only [hrun', if_true, hnext']
  have hfr : ∀ v, (s.chip.quiet.setFront sl v).fr id = f := fun _ => Chip.fr_of_look hf
  have hlook : ∀ v g, ((s.chip.quiet.setFront sl v).updPrt f.home g).frames.look id = some f := fun _ _ => hf
  rw [hfr, Chip.updFr_of_look (hlook ..)]
  refine ⟨Chip.look_setFr .., ?_, ?_, Chip.Keeps.onlyParts ?_⟩
  · exact Chip.front_setFront ..
  · rw [Chip.prt_setFr, Chip.prt_updPrt, if_pos rfl, Chip.prt_setFront, Chip.prt_quiet]
  · exact (((Chip.Keeps.refl _).setFront (by decide) ..).updPrt (by decide) ..).setFr (by decide) ..

end Sys2Proof.Machine
end

section
/-! SUPPORT. The outcomes of MICROWORD as a whole, the clauses on it (spec/05_porters.md R107, R127), and the obligation on parsing. -/

namespace Sys2Proof.Machine

open Sys2Proof

/-- Every word takes its slots, whatever comes of it. -/
theorem Chip.slotTotal_takeTurn (c : Chip) (s n th id : Nat) (f : Frame) : (c.takeTurn s n th id f).reg (A.porter s n + C.slot_total) =
    c.reg (A.porter s n + C.slot_total) + BitVec.ofNat 64 (c.wordCycles s n th) := by
  cases h : c.ranWord s n th f with
  | fail r =>
    have hrest := ((Chip.Within.refl (c.chargeWord s n C.slot_wasted (c.wordCycles s n th))).failCounted (l := turnOffsets)
      (reason_of_runWord h) (by decide) s n th (c.threadOf s n th).pc).endThread (by decide) s n th id (c.threadOf s n th) f.wb r
      ((c.threadOf s n th).retired + (c.threadOf s n th).waste + c.wordCycles s n th)
    rw [Chip.takeTurn_fail h, Chip.failRest_eq, hrest.regPorter s n (by decide) (by decide), Chip.slotTotal_chargeWord _ _ _ (by decide)]
  | next t wb ended taken =>
    have hnext := (Chip.Within.refl (c.chargeWord s n C.slot_retired (c.wordCycles s n th))).nextRest (l := turnOffsets) s n th id f t wb taken
    cases ended with
    | false => rw [Chip.takeTurn_next h, hnext.regPorter s n (by decide) (by decide), Chip.slotTotal_chargeWord _ _ _ (by decide)]
    | true =>
      rw [Chip.takeTurn_last h, (hnext.lastRest (List.Subset.refl _) s n th id t wb (c.threadOf s n th).check).regPorter s n (by decide) (by decide),
        Chip.slotTotal_chargeWord _ _ _ (by decide)]

/-! ### A word that fails, as a whole -/

/-- A word that fails with reason `r` ends its thread. -/
def Chip.failWord (c : Chip) (s n th id : Nat) (f : Frame) (r : Nat) : Chip :=
  ((c.chargeWord s n C.slot_wasted (c.wordCycles s n th)).failCounted s n th (c.threadOf s n th).pc r).endThread s n th id (c.threadOf s n th) f.wb r
    ((c.threadOf s n th).retired + (c.threadOf s n th).waste + c.wordCycles s n th)

section
variable {c : Chip} {s n th id r : Nat} {f : Frame}

theorem Chip.takeTurn_failWord (h : c.ranWord s n th f = .fail r) (id : Nat) : c.takeTurn s n th id f = c.failWord s n th id f r := by
  rw [Chip.takeTurn_fail h, Chip.failRest_eq, Chip.failWord]

theorem Chip.threadOf_failWord : (c.failWord s n th id f r).threadOf s n th = { c.threadOf s n th with ended := true } :=
  Chip.threadOf_endThread ..

/-- The frame is the one that a thread with that failure leaves. -/
theorem Chip.fr_failWord (hf : c.frames.look id = some f) (hr : 1 ≤ r ∧ r ≤ 3) : ((c.failWord s n th id f r).fr id).keys = [] ∧
    Wb.failReason ((c.failWord s n th id f r).fr id).wb = r ∧ Wb.keyValid ((c.failWord s n th id f r).fr id).wb = 0 := by
  have hf' : ((c.chargeWord s n C.slot_wasted (c.wordCycles s n th)).failCounted s n th (c.threadOf s n th).pc r).frames.look id = some f := by
    rw [Chip.failCounted_frames, Chip.chargeWord_frames, hf]
  rw [Chip.failWord, Chip.fr_of_look (Chip.endThread_frame _ _ _ _ _ _ _ hf')]
  exact ⟨Chip.keys_endedFrame_of_fail _ _ _ _ _ hr.1, Chip.failReason_endedFrame _ _ _ _ _ hr, Chip.keyValid_endedFrame _ _ _ _ _ hr.1⟩

variable (c s n th id f)

theorem Chip.within_charged (k : Nat) : c.Within (c.chargeWord s n C.slot_wasted k) [C.slot_total, C.slot_wasted] :=
  (Chip.Within.refl c).chargeWord (by decide) (by decide) s n k

theorem Chip.failures_failWord (hr : 1 ≤ r ∧ r ≤ 3) : (c.failWord s n th id f r).reg (A.porter s n + C.parse_fail + 8 * (r - 1)) =
    c.reg (A.porter s n + C.parse_fail + 8 * (r - 1)) + 1 := by
  have hle : 0x01000000 ≤ A.porter s n + C.parse_fail + 8 * (r - 1) := Nat.le_add_right_of_le (Nat.le_add_right_of_le (A.le_porter s n))
  have hmod := parseFail_mod s n hr
  have hend := fun d : Chip => (Chip.Within.refl d).endThread (l := [C.frames_parsed]) (.head _) s n th id (c.threadOf s n th) f.wb r
  rw [Chip.failWord, (hend ..).reg _ hle, Chip.counts_failCounted, (c.within_charged s n _).reg _ hle]
  all_goals
    rw [hmod]
    simp only [C.slot_total, C.slot_wasted, C.frames_parsed, List.mem_cons, List.not_mem_nil, or_false]
    omega

theorem Chip.parsed_failWord (hr : 1 ≤ r ∧ r ≤ 3) : (c.failWord s n th id f r).reg (A.porter s n + C.frames_parsed) =
    c.reg (A.porter s n + C.frames_parsed) + 1 := by
  have hcount := fun d : Chip => (Chip.Within.refl d).failCounted hr (List.Subset.refl _) s n th (c.threadOf s n th).pc
  rw [Chip.failWord, Chip.parsed_endThread, (hcount _).regPorter s n (by decide) (by decide),
    (c.within_charged s n _).regPorter s n (by decide) (by decide)]

theorem Chip.wasted_failWord (hr : 1 ≤ r ∧ r ≤ 3) : (c.failWord s n th id f r).reg (A.porter s n + C.slot_wasted) =
    c.reg (A.porter s n + C.slot_wasted) + BitVec.ofNat 64 (c.wordCycles s n th) := by
  have hrest := fun d : Chip => ((Chip.Within.refl d).failCounted (l := turnOffsets) hr (by decide) s n th (c.threadOf s n th).pc).endThread
    (by decide) s n th id (c.threadOf s n th) f.wb r
  rw [Chip.failWord, (hrest ..).regPorter s n (by decide) (by decide), Chip.slots_chargeWord _ _ _ (by decide)]

theorem Chip.failWord_ledger : (c.failWord s n th id f r).ledger =
    if r = 1 then c.sent [c.msgOf (porterUnit s n) K.porterIllegal 0 (c.threadOf s n th).pc] else c.ledger := by
  rw [Chip.failWord, Chip.endThread_ledger, Chip.failCounted_ledger, Chip.sent, Chip.chargeWord_ledger,
    Chip.msgOf_of_image (c.within_charged s n _).image, Chip.sent]

theorem Chip.keeps_failWord : c.Keeps (c.failWord s n th id f r) [A.porter s n + C.slot_total, A.porter s n + C.slot_wasted,
    A.porter s n + C.parse_fail + 8 * (r - 1), A.porter s n + C.frames_parsed] [.frames, .porters, .ledger] :=
  (((Chip.Keeps.refl c).chargeWord (.head _) (.tail _ (.head _)) (.tail _ (.head _)) _).failCounted (.tail _ (.tail _ (.head _))) (by decide)
    (by decide) th _).endThread (.tail _ (.tail _ (.tail _ (.head _)))) (by decide) (by decide) th id _ _ _ _

end

/-! ### A word with which the thread ends, as a whole -/

/-- The word ends its thread with a valid waybill. -/
def Chip.lastWord (c : Chip) (s n th id : Nat) (f : Frame) (t : Thread) (wb : BitVec 512) (taken : Bool) : Chip :=
  ((c.chargeWord s n C.slot_retired (c.wordCycles s n th)).nextRest s n th id f t wb taken).endThread s n th id t wb 0 (t.retired + t.waste)

section
variable {c : Chip} {s n th : Nat} {f : Frame} {t : Thread} {wb : BitVec 512} {taken : Bool}

theorem Chip.injected_of_ledger {c d : Chip} (h : d.ledger = c.ledger) (u cls : Nat) : d.injected u cls = c.injected u cls := by
  rw [Chip.injected, h, Chip.injected]

theorem Chip.takeTurn_lastWord (h : c.ranWord s n th f = .next t wb true taken) (hok : waybillOk wb = true)
    (hinj : c.injected (porterUnit s n) 2 = 0) (id : Nat) : c.takeTurn s n th id f = c.lastWord s n th id f t wb taken := by
  have hledger : ((c.chargeWord s n C.slot_retired (c.wordCycles s n th)).nextRest s n th id f t wb taken).ledger = c.ledger := by
    rw [Chip.nextRest_ledger, Chip.chargeWord_ledger]
  rw [Chip.takeTurn_last h, Chip.lastRest_valid _ _ _ _ _ _ _ _ hok ((Chip.injected_of_ledger hledger _ _).trans hinj), Chip.lastWord]

/-- A valid waybill's frame leaves with its keys, hash and default action. -/
theorem Chip.fr_lastWord (c : Chip) (s n th id : Nat) (f : Frame) (t : Thread) (wb : BitVec 512) (taken : Bool) :
    ((c.lastWord s n th id f t wb taken).fr id).keys = leftKeys t (Wb.get wb 5 25 25 == 1) ∧
      Wb.hash ((c.lastWord s n th id f t wb taken).fr id).wb = flowHash t (Wb.get wb 5 25 25 == 1) % 2 ^ 32 ∧
      ((c.lastWord s n th id f t wb taken).fr id).dflt = c.reg (A.port f.home + R.PORT_DEFAULT) := by
  have hport : (c.chargeWord s n C.slot_retired (c.wordCycles s n th)).reg (A.port f.home + R.PORT_DEFAULT) =
      c.reg (A.port f.home + R.PORT_DEFAULT) := by
    have hcharge := (Chip.Within.refl c).chargeWord (k := C.slot_retired) (l := [C.slot_total, C.slot_retired]) (by decide) (by decide) s n
      (c.wordCycles s n th)
    refine hcharge.reg _ (Nat.le_add_right_of_le ?_) ?_
    · unfold A.port
      have := A.le_slice (f.home / 16)
      omega
    · have := A.port_mod f.home
      simp only [R.PORT_DEFAULT, C.slot_total, C.slot_retired, List.mem_cons, List.not_mem_nil, or_false]
      omega
  rw [Chip.lastWord, Chip.fr_of_look (Chip.endThread_frame _ _ _ _ _ _ _ (Chip.nextRest_frame ..))]
  exact ⟨rfl, Chip.hash_endedFrame .., (Chip.reg_nextRest ..).trans hport⟩

end

section
variable (c : Chip) (s n th id : Nat) (f : Frame) (t : Thread) (wb : BitVec 512) (taken : Bool)

theorem Chip.parsed_lastWord : (c.lastWord s n th id f t wb taken).reg (A.porter s n + C.frames_parsed) =
    c.reg (A.porter s n + C.frames_parsed) + 1 := by
  have hcharge := (Chip.Within.refl c).chargeWord (k := C.slot_retired) (l := [C.slot_total, C.slot_retired]) (by decide) (by decide) s n
  rw [Chip.lastWord, Chip.parsed_endThread, Chip.reg_nextRest, (hcharge _).regPorter s n (by decide) (by decide)]

theorem Chip.retired_lastWord : (c.lastWord s n th id f t wb taken).reg (A.porter s n + C.slot_retired) =
    c.reg (A.porter s n + C.slot_retired) + BitVec.ofNat 64 (c.wordCycles s n th) := by
  have hend := fun d : Chip => (Chip.Within.refl d).endThread (l := [C.frames_parsed]) (.head _) s n th id t wb 0
  rw [Chip.lastWord, (hend ..).regPorter s n (by decide) (by decide), Chip.reg_nextRest, Chip.slots_chargeWord _ _ _ (by decide)]

theorem Chip.keeps_lastWord : c.Keeps (c.lastWord s n th id f t wb taken)
    [A.porter s n + C.slot_total, A.porter s n + C.slot_retired, A.porter s n + C.frames_parsed] [.frames, .porters] :=
  (((Chip.Keeps.refl c).chargeWord (.head _) (.tail _ (.head _)) (by decide) _).nextRest (by decide) (by decide) s n th id f t wb taken).endThread
    (.tail _ (.tail _ (.head _))) (by decide) (by decide) th id _ _ _ _

end

/-! ### MICROWORD -/

theorem Chip.redirect_of_ready {c : Chip} {s n th : Nat} (h : (c.porter s n).branched ≠ some th) : c.redirect s n th = c := if_neg h

section
variable {c : Chip} {s n th : Nat}

theorem Chip.redirect_of_branched (h : (c.porter s n).branched = some th) : c.redirect s n th =
    (c.chargeWord s n C.slot_wasted 1).setThread s n th { c.threadOf s n th with waste := (c.threadOf s n th).waste + 1 } := if_pos h

theorem Chip.slotTotal_redirect (h : (c.porter s n).branched = some th) :
    (c.redirect s n th).reg (A.porter s n + C.slot_total) = c.reg (A.porter s n + C.slot_total) + 1 := by
  rw [Chip.redirect_of_branched h, Chip.reg_setThread, Chip.slotTotal_chargeWord _ _ _ (by decide)]
  rfl

/-- The thread's next word is the same after the wasted cycle. -/
theorem Chip.wordCycles_redirect (h : (c.porter s n).branched = some th) : (c.redirect s n th).wordCycles s n th = c.wordCycles s n th := by
  have hstore : (c.redirect s n th).store = c.store := by
    rw [Chip.redirect_of_branched h, Chip.setThread_store, Chip.chargeWord_store]
  rw [Chip.wordCycles, hstore, Chip.redirect_of_branched h, Chip.threadOf_setThread, Chip.wordCycles]

end

section
variable {s : State} {sl n th id : Nat} {f : Frame}

/-- What MICROWORD of the thread whose turn it is comes to. -/
theorem microword_does (hr : s.runs .core = true) (hrun : s.chip.portersRun sl = true)
    (hturn : s.chip.takes sl n = true ∧ s.chip.nextThread sl n = some th ∧ (s.chip.threadOf sl n th).frame = some id ∧
      s.chip.frames.look id = some f) :
    Does (.microword sl n th) s fun t => t = { s with chip := (s.chip.quiet.redirect sl n th).takeTurn sl n th id f } := by
  obtain ⟨htakes, hnext, hframe, hf⟩ := hturn
  have hcond : (s.chip.quiet.portersRun sl && s.chip.quiet.takes sl n && s.chip.quiet.nextThread sl n == some th) = true := by
    have hrun' : s.chip.quiet.portersRun sl = true := hrun
    have htakes' : s.chip.quiet.takes sl n = true := htakes
    have hnext' : s.chip.quiet.nextThread sl n = some th := hnext
    rw [hrun', htakes', hnext', beq_self_eq_true]
    rfl
  have hframe' : (s.chip.quiet.threadOf sl n th).frame = some id := hframe
  refine Does.of_run (exec_microword s sl n th) hr ?_
  rw [hframe']
  dsimp only
  rw [if_pos hcond, Chip.issue_eq (c := s.chip.quiet) hf]

theorem microword_ignored (hr : s.runs .core = true) (h : s.chip.nextThread sl n ≠ some th ∨ (s.chip.threadOf sl n th).frame = none) :
    Does (.microword sl n th) s fun t => OnlyRegs s t [] := by
  refine Does.of_run (exec_microword s sl n th) hr ?_
  cases hframe : (s.chip.quiet.threadOf sl n th).frame with
  | none => exact (Chip.Keeps.refl _).onlyRegs
  | some id =>
    have hcond : ¬ (s.chip.quiet.portersRun sl && s.chip.quiet.takes sl n && s.chip.quiet.nextThread sl n == some th) = true := by
      simp only [Bool.and_eq_true, beq_iff_eq]
      rintro ⟨-, hnext⟩
      exact h.elim (· hnext) fun hnone => Option.some_ne_none id (hframe.symm.trans hnone)
    dsimp only
    rw [if_neg hcond]
    exact (Chip.Keeps.refl _).onlyRegs

variable (hr : s.runs .core = true) (hrun : s.chip.portersRun sl = true)
  (hturn : s.chip.takes sl n = true ∧ s.chip.nextThread sl n = some th ∧ (s.chip.threadOf sl n th).frame = some id ∧
    s.chip.frames.look id = some f)
include hr hrun hturn

theorem microword_wasteFirst (hbranch : (s.chip.porter sl n).branched = some th) :
    Does (.microword sl n th) s fun t =>
      t.chip.reg (A.porter sl n + C.slot_total) = s.chip.reg (A.porter sl n + C.slot_total) + BitVec.ofNat 64 (s.chip.wordCycles sl n th) + 1 ∧
        t.nv = s.nv ∧ t.fuses = s.fuses ∧ t.pending = s.pending := by
  obtain ⟨_, hexec, rfl⟩ := microword_does hr hrun hturn
  have hbranch' : (s.chip.quiet.porter sl n).branched = some th := hbranch
  refine ⟨_, hexec, ?_, rfl, rfl, rfl⟩
  rw [Chip.slotTotal_takeTurn, Chip.wordCycles_redirect hbranch', Chip.slotTotal_redirect hbranch', add_right_comm]
  rfl

variable (hready : (s.chip.porter sl n).branched ≠ some th)
include hready

theorem microword_ready : Does (.microword sl n th) s fun t => t = { s with chip := s.chip.quiet.takeTurn sl n th id f } := by
  rw [← Chip.redirect_of_ready (c := s.chip.quiet) hready]
  exact microword_does hr hrun hturn

theorem microword_goesOn {w : BitVec 512} {v : Thread} {taken : Bool} (h : s.chip.ranWord sl n th f = .next v w false taken) :
    Does (.microword sl n th) s fun t =>
      t.chip.porter sl n =
          { s.chip.porter sl n with
            ahead := (s.chip.porter sl n).ahead + s.chip.wordCycles sl n th, turn := (th + 1) % 4, branched := if taken then some th else none
            lastRetire := s.chip.now, threads := (s.chip.porter sl n).threads.set th v } ∧
        t.chip.frames.look id = some { f with wb := w } ∧
        t.chip.reg (A.porter sl n + C.slot_retired) = s.chip.reg (A.porter sl n + C.slot_retired) + BitVec.ofNat 64 (s.chip.wordCycles sl n th) ∧
        t.chip.reg (A.porter sl n + C.slot_total) = s.chip.reg (A.porter sl n + C.slot_total) + BitVec.ofNat 64 (s.chip.wordCycles sl n th) ∧
        OnlyParts s t [A.porter sl n + C.slot_total, A.porter sl n + C.slot_retired] [.frames, .porters] := by
  obtain ⟨_, hexec, rfl⟩ := microword_ready hr hrun hturn hready
  have hnext := Chip.takeTurn_next (c := s.chip.quiet) h id
  refine ⟨_, hexec, ?_, ?_, ?_, Chip.slotTotal_takeTurn .., Chip.Keeps.onlyParts ?_⟩
  · rw [hnext, Chip.porter_nextRest, Chip.porter_chargeWord, Chip.chargeWord_now, Chip.porter_quiet, Chip.quiet_now]
    rfl
  · rw [hnext, Chip.nextRest_frame]
  · rw [hnext, Chip.reg_nextRest, Chip.slots_chargeWord _ _ _ (by decide)]
    rfl
  · rw [hnext]
    exact ((Chip.Keeps.refl _).chargeWord (.head _) (.tail _ (.head _)) (by decide) _).nextRest (by decide) (by decide) ..

theorem microword_fails {r : Nat} (h : s.chip.ranWord sl n th f = .fail r) :
    Does (.microword sl n th) s fun t =>
      t.chip.threadOf sl n th = { s.chip.threadOf sl n th with ended := true } ∧
      t.chip.reg (A.porter sl n + C.parse_fail + 8 * (r - 1)) = s.chip.reg (A.porter sl n + C.parse_fail + 8 * (r - 1)) + 1 ∧
      t.chip.reg (A.porter sl n + C.frames_parsed) = s.chip.reg (A.porter sl n + C.frames_parsed) + 1 ∧
      t.chip.reg (A.porter sl n + C.slot_wasted) = s.chip.reg (A.porter sl n + C.slot_wasted) + BitVec.ofNat 64 (s.chip.wordCycles sl n th) ∧
      t.chip.reg (A.porter sl n + C.slot_total) = s.chip.reg (A.porter sl n + C.slot_total) + BitVec.ofNat 64 (s.chip.wordCycles sl n th) ∧
      (t.chip.fr id).keys = [] ∧ Wb.failReason (t.chip.fr id).wb = r ∧ Wb.keyValid (t.chip.fr id).wb = 0 ∧
      t.chip.ledger = (if r = 1 then s.chip.sent [s.chip.msgOf (porterUnit sl n) K.porterIllegal 0 (s.chip.threadOf sl n th).pc] else
        s.chip.ledger) ∧
      OnlyParts s t [A.porter sl n + C.slot_total, A.porter sl n + C.slot_wasted, A.porter sl n + C.parse_fail + 8 * (r - 1),
        A.porter sl n + C.frames_parsed] [.frames, .porters, .ledger] := by
  obtain ⟨_, hexec, rfl⟩ := microword_ready hr hrun hturn hready
  have hreason := reason_of_runWord h
  have htotal := s.chip.quiet.slotTotal_takeTurn sl n th id f
  have hframe := Chip.fr_failWord (c := s.chip.quiet) (s := sl) (n := n) (th := th) hturn.2.2.2 hreason
  rw [Chip.takeTurn_failWord (c := s.chip.quiet) h] at hexec htotal
  exact ⟨_, hexec, Chip.threadOf_failWord, Chip.failures_failWord _ _ _ _ _ _ hreason, Chip.parsed_failWord _ _ _ _ _ _ hreason,
    Chip.wasted_failWord _ _ _ _ _ _ hreason, htotal, hframe.1, hframe.2.1, hframe.2.2, Chip.failWord_ledger .., (Chip.keeps_failWord ..).onlyParts⟩

theorem microword_ends {w : BitVec 512} {v : Thread} {taken : Bool} (h : s.chip.ranWord sl n th f = .next v w true taken)
    (hok : waybillOk w = true) (hinj : s.chip.injected (porterUnit sl n) 2 = 0) :
    Does (.microword sl n th) s fun t =>
      t.chip.threadOf sl n th = { v with ended := true } ∧ (t.chip.fr id).keys = leftKeys v (Wb.get w 5 25 25 == 1) ∧
      Wb.hash (t.chip.fr id).wb = flowHash v (Wb.get w 5 25 25 == 1) % 2 ^ 32 ∧
      (t.chip.fr id).dflt = s.chip.reg (A.port f.home + R.PORT_DEFAULT) ∧
      t.chip.reg (A.porter sl n + C.frames_parsed) = s.chip.reg (A.porter sl n + C.frames_parsed) + 1 ∧
      t.chip.reg (A.porter sl n + C.slot_retired) = s.chip.reg (A.porter sl n + C.slot_retired) + BitVec.ofNat 64 (s.chip.wordCycles sl n th) ∧
      t.chip.reg (A.porter sl n + C.slot_total) = s.chip.reg (A.porter sl n + C.slot_total) + BitVec.ofNat 64 (s.chip.wordCycles sl n th) ∧
      OnlyParts s t [A.porter sl n + C.slot_total, A.porter sl n + C.slot_retired, A.porter sl n + C.frames_parsed] [.frames, .porters] := by
  obtain ⟨_, hexec, rfl⟩ := microword_ready hr hrun hturn hready
  obtain ⟨hkeys, hhash, hdflt⟩ := s.chip.quiet.fr_lastWord sl n th id f v w taken
  have htotal := s.chip.quiet.slotTotal_takeTurn sl n th id f
  rw [Chip.takeTurn_lastWord (c := s.chip.quiet) h hok hinj] at hexec htotal
  exact ⟨_, hexec, Chip.threadOf_endThread .., hkeys, hhash, hdflt, Chip.parsed_lastWord .., Chip.retired_lastWord .., htotal,
    (Chip.keeps_lastWord ..).onlyParts⟩

theorem microword_dropped {w : BitVec 512} {v : Thread} {taken : Bool} (h : s.chip.ranWord sl n th f = .next v w true taken)
    (hbad : waybillOk w = false) :
    Does (.microword sl n th) s fun t =>
      t.chip.frames.look id = none ∧ t.chip.reg (A.porter sl n + C.waybill_invalid) = s.chip.reg (A.porter sl n + C.waybill_invalid) + 1 ∧
        (t.chip.ledger.transit.any fun m => m.kind == K.waybillInvalid && m.sev == 3) = true ∧ t.nv = s.nv ∧ t.fuses = s.fuses ∧
        t.pending = s.pending := by
  obtain ⟨_, hexec, rfl⟩ := microword_ready hr hrun hturn hready
  rw [Chip.takeTurn_last (c := s.chip.quiet) h] at hexec
  obtain ⟨inj, hinj⟩ := Chip.lastRest_invalid _ sl n th id v w (s.chip.quiet.threadOf sl n th).check hbad
  rw [hinj] at hexec
  have hcharge := (Chip.Within.refl s.chip.quiet).chargeWord (k := C.slot_retired) (l := [C.slot_total, C.slot_retired, C.frames_parsed])
    (by decide) (by decide) sl n (s.chip.quiet.wordCycles sl n th)
  have hbefore := (hcharge.nextRest sl n th id f v w taken).endInjected (by decide) sl n th id v w inj
  refine ⟨_, hexec, Chip.waybillFail_frame .., ?_, Chip.reported_waybillFail .., rfl, rfl, rfl⟩
  rw [Chip.invalid_waybillFail, hbefore.regPorter sl n (by decide) (by decide), Chip.reg_quiet]

end

/-- Settles O33, clause by clause: dispatch, the word in its turn by its three outcomes, release and the way to the pipes. -/
theorem portersParseFrames : Obligations.PortersParseFrames := by
  unfold Obligations.PortersParseFrames
  exact ⟨fun _ _ _ _ _ _ _ => dispatch_new, fun _ _ _ _ _ _ _ => dispatch_stamped, fun _ _ _ _ _ => dispatch_ignored,
    fun _ _ _ _ _ _ _ _ _ hr hrun hturn hready h => microword_goesOn hr hrun hturn hready h, fun _ _ _ _ _ _ => microword_wasteFirst,
    fun _ _ _ _ _ _ _ hr hrun hturn hready h _ => microword_fails hr hrun hturn hready h,
    fun _ _ _ _ _ _ _ _ _ hr hrun hturn hready h => microword_ends hr hrun hturn hready h,
    fun _ _ _ _ _ _ _ _ _ hr hrun hturn hready h => microword_dropped hr hrun hturn hready h, fun _ _ _ _ => microword_ignored,
    fun _ _ _ _ _ _ => threadRelease_moves, fun _ _ _ _ => threadRelease_ignored, fun _ _ _ _ => releaseToPipes_moves⟩

end Sys2Proof.Machine
end

section
/-! SUPPORT. The four operations of ACCORD_CMD (spec/07_accords.md R158, R161, R162, R164): each writes ACCORD_CMD, and then either shows
the result that refuses it or moves the accord engine. -/

namespace Sys2Proof.Machine

open Sys2Proof

theorem Does.mono {i : Instr} {s : State} {P Q : State → Prop} (h : Does i s P) (hPQ : ∀ t, P t → Q t) : Does i s Q :=
  h.imp fun t ht => ⟨ht.1, hPQ t ht.2⟩

theorem Chip.Keeps.mono {c d : Chip} {l l' : List Nat} {ps : List Part} (h : c.Keeps d l ps) (hl : l ⊆ l') : c.Keeps d l' ps :=
  ⟨fun a ha => h.1 a fun hm => ha (hl hm), h.2⟩

theorem Chip.Keeps.ledger {c d : Chip} {l : List Nat} {ps : List Part} (h : c.Keeps d l ps) (hp : .ledger ∉ ps) : d.ledger = c.ledger :=
  h.field (g := Chip.ledger) hp (fun _ q _ => by cases q <;> trivial) fun _ => rfl

theorem Chip.Keeps.accord {c d : Chip} {l : List Nat} {ps : List Part} (h : c.Keeps d l ps) (hp : .accord ∉ ps) : d.accord = c.accord :=
  h.field (g := Chip.accord) hp (fun _ q _ => by cases q <;> trivial) fun _ => rfl

/-! ### Slots -/

section
variable {c : Chip}

theorem Chip.slotLive_eq_false {i : Nat} (h : c.get (4 * i) R.ACCORD_SLOT_live = 0) : c.slotLive i = false := by
  have hbit := bits_testBit (c.reg (Chip.slotReg i)) 31 31 0
  rw [Chip.slotReg, Nat.add_comm, show bits (c.reg (4 * i + R.ACCORD_SLOT)) 31 31 = 0 from h] at hbit
  rw [Chip.slotLive, bit, Chip.slotReg, Nat.add_comm]
  simpa using hbit.symm

theorem Chip.freeSlot_isSome {i : Nat} (hi : i < 4) (h : c.get (4 * i) R.ACCORD_SLOT_live = 0) : c.freeSlot.isSome = true :=
  List.find?_isSome.mpr ⟨i, List.mem_range.mpr hi, by rw [Chip.slotLive_eq_false h]; rfl⟩

theorem Chip.freeSlot_eq_none (h : c.liveSlots = [0, 1, 2, 3]) : c.freeSlot = none := by
  refine List.find?_eq_none.mpr fun i hi => ?_
  have hlive : i ∈ c.liveSlots := by rw [h]; exact hi
  rw [(List.mem_filter.mp hlive).2]
  decide

end

/-! ### What a write of ACCORD_CMD leaves -/

/-- What the accord engine judges an operation by is the same on both devices. -/
structure Chip.SameEngine (c d : Chip) : Prop where
  image : d.image = c.image
  state : d.accordState = c.accordState
  suspect : d.on 0 R.ACCORD_STATUS_suspect = c.on 0 R.ACCORD_STATUS_suspect
  newest : d.newest = c.newest
  latch : d.latch = c.latch
  holdsBound : d.holdsBound = c.holdsBound
  freeSlot : d.freeSlot = c.freeSlot

theorem Chip.Keeps.sameEngine {c d : Chip} (h : c.Keeps d [R.ACCORD_CMD] []) : c.SameEngine d := by
  have hget : ∀ {f : Fld}, 0 + f.off ∉ [R.ACCORD_CMD] → d.get 0 f = c.get 0 f := h.get
  have hlatch : d.latch = c.latch := by
    funext k
    rw [Chip.latch, h.ledger (by simp), Chip.latch]
  have hlive : d.slotLive = c.slotLive := by
    funext i
    rw [Chip.slotLive, h.1 _ (by simp [Chip.slotReg, R.ACCORD_SLOT, R.ACCORD_CMD]; omega), Chip.slotLive]
  refine ⟨h.image (by simp), hget (by decide), ?_, hget (by decide), hlatch, ?_, ?_⟩
  · rw [Chip.on, hget (by decide), Chip.on]
  · funext src
    rw [Chip.holdsBound, Chip.on, hget (by decide), hget (by decide), hlatch, Chip.holdsBound, Chip.on]
  · rw [Chip.freeSlot, hlive, Chip.freeSlot]

section
variable (c : Chip)

/-- ACCORD_CMD as an operation other than an open writes it. -/
def Chip.opWritten (op : Nat) : Chip := c.put 0 R.ACCORD_CMD_op op

/-- ACCORD_CMD as an open writes it. -/
def Chip.openWritten (data : Word) : Chip := (c.put 0 R.ACCORD_CMD_latchkey (bits data 5 0)).put 0 R.ACCORD_CMD_op 1

theorem Chip.keeps_opWritten (op : Nat) : c.Keeps (c.opWritten op) [R.ACCORD_CMD] [] :=
  (Chip.Keeps.refl c).putGlobal rfl (.head _) op

theorem Chip.keeps_openWritten (data : Word) : c.Keeps (c.openWritten data) [R.ACCORD_CMD] [] := by
  rw [Chip.openWritten]
  have hkey : c.Keeps (c.put 0 R.ACCORD_CMD_latchkey (bits data 5 0)) [R.ACCORD_CMD] [] := (Chip.Keeps.refl c).putGlobal rfl (.head _) _
  exact hkey.putGlobal rfl (.head _) 1

/-! ### Why an operation is refused (Table 7-8), and 0 where it is not -/

def Chip.openRefusal (src : Source) (data : Word) : Nat :=
  if !c.image.applied then 4 else if c.accordState ≠ 0 then 2 else if c.get 0 R.ACCORD_STATUS_suspect = 1 then 6
  else if (c.latch (bits data 5 0)).owner ≠ srcUnit src ∨ (c.latch (bits data 5 0)).fn ≠ srcFn src then 3 else 0

def Chip.commitRefusal (src : Source) : Nat :=
  if !c.image.applied then 4 else if c.accordState = 0 ∨ c.accordState = 4 then 5 else if c.accordState = 2 ∨ c.accordState = 3 then 4
  else if !c.holdsBound src then 3 else 0

def Chip.discardRefusal (src : Source) : Nat :=
  if !c.image.applied ∨ ¬(c.accordState = 1 ∨ c.accordState = 3) then 4 else if !c.holdsBound src then 3 else 0

def Chip.withdrawRefusal (src : Source) : Nat :=
  if !c.image.applied ∨ c.accordState ≠ 3 then 4 else if !c.holdsBound src then 3 else 0

/-! ### Where an operation takes the engine -/

/-- The accord after `n` is pending, bound to latchkey `k`. -/
def Chip.accordOpened (n k : Nat) : Chip :=
  ((((c.put 0 R.ACCORD_STATUS_state 1).put 0 R.ACCORD_STATUS_pending (nextAccord n)).put 0 R.ACCORD_LOG_bound 1).put 0
    R.ACCORD_LOG_latchkey k).accordResult 0

/-- A commit found a free slot. -/
def Chip.commitBegins : Chip := (c.put 0 R.ACCORD_STATUS_state 2).accordResult 0

/-- A commit waits for a free slot. -/
def Chip.commitStalls : Chip :=
  (((c.put 0 R.ACCORD_STATUS_state 3).put 0 R.ACCORD_STATUS_commit_stalled 1).cnt C.stalls 1).accordResult 0

/-- A discard begins. -/
def Chip.discardBegins : Chip := ((c.put 0 R.ACCORD_STATUS_state 4).put 0 R.ACCORD_STATUS_commit_stalled 0).accordResult 9

/-- A stalled commit is withdrawn. -/
def Chip.commitWithdrawn : Chip := ((c.put 0 R.ACCORD_STATUS_state 1).put 0 R.ACCORD_STATUS_commit_stalled 0).accordResult 0

theorem Chip.on_suspect : c.on 0 R.ACCORD_STATUS_suspect = true ↔ c.get 0 R.ACCORD_STATUS_suspect = 1 := by
  have hlt : c.get 0 R.ACCORD_STATUS_suspect < 2 := bits_lt ..
  rw [Chip.on, bne_iff_ne]
  omega

theorem srcUnit_ne_zero (src : Source) : srcUnit src ≠ 0 := by
  cases src <;> simp [srcUnit]

/-- A latchkey is held by another writer, or by nobody. -/
theorem Latch.not_heldBy_or_free (l : Latch) (src : Source) :
    (!l.heldBy src || l.owner == 0) = true ↔ l.owner ≠ srcUnit src ∨ l.fn ≠ srcFn src := by
  have hunit := srcUnit_ne_zero src
  by_cases howner : l.owner = srcUnit src <;> simp [Latch.heldBy, howner, hunit]

/-! ### The operations -/

theorem Chip.openAccord_eq (src : Source) (data : Word) : c.openAccord src data =
    if c.openRefusal src data = 0 then (c.openWritten data).accordOpened c.newest (bits data 5 0)
    else (c.openWritten data).accordResult (c.openRefusal src data) := by
  obtain ⟨himage, hstate, hsuspect, hnewest, hlatch, -, -⟩ := (c.keeps_openWritten data).sameEngine
  rw [Chip.openWritten] at *
  simp only [Chip.openAccord, Chip.openRefusal, Chip.accordOpened, ← Chip.on_suspect, ← Latch.not_heldBy_or_free]
  generalize (c.put 0 R.ACCORD_CMD_latchkey (bits data 5 0)).put 0 R.ACCORD_CMD_op 1 = d at *
  rw [Chip.accordUp, himage, hstate, hsuspect, hnewest, hlatch]
  split_ifs <;> simp_all

theorem Chip.commitAccord_eq (src : Source) : c.commitAccord src =
    if c.commitRefusal src = 0 then
      if c.freeSlot.isSome then (c.opWritten 2).commitBegins else (c.opWritten 2).commitStalls
    else (c.opWritten 2).accordResult (c.commitRefusal src) := by
  obtain ⟨himage, hstate, -, -, -, hholds, hfree⟩ := (c.keeps_opWritten 2).sameEngine
  rw [Chip.opWritten] at *
  rw [Chip.commitAccord, Chip.commitRefusal, Chip.commitBegins, Chip.commitStalls]
  generalize c.put 0 R.ACCORD_CMD_op 2 = d at *
  rw [Chip.accordUp, himage, hstate, hholds, hfree]
  split_ifs <;> simp_all

theorem Chip.dropAccord_eq (src : Source) : c.dropAccord src =
    if c.discardRefusal src = 0 then (c.opWritten 3).discardBegins else (c.opWritten 3).accordResult (c.discardRefusal src) := by
  obtain ⟨himage, hstate, -, -, -, hholds, -⟩ := (c.keeps_opWritten 3).sameEngine
  rw [Chip.opWritten] at *
  rw [Chip.dropAccord, Chip.discardRefusal, Chip.discardBegins]
  generalize c.put 0 R.ACCORD_CMD_op 3 = d at *
  rw [Chip.accordUp, Chip.discardAccord, himage, hstate, hholds]
  split_ifs <;> simp_all

theorem Chip.withdrawAccord_eq (src : Source) : c.withdrawAccord src =
    if c.withdrawRefusal src = 0 then (c.opWritten 4).commitWithdrawn else (c.opWritten 4).accordResult (c.withdrawRefusal src) := by
  obtain ⟨himage, hstate, -, -, -, hholds, -⟩ := (c.keeps_opWritten 4).sameEngine
  rw [Chip.opWritten] at *
  rw [Chip.withdrawAccord, Chip.withdrawRefusal, Chip.commitWithdrawn]
  generalize c.put 0 R.ACCORD_CMD_op 4 = d at *
  rw [Chip.accordUp, himage, hstate, hholds]
  split_ifs <;> simp_all

/-! ### What an operation shows -/

/-- An accord number. -/
theorem nextAccord_lt {n : Nat} (h : n < 65536) : nextAccord n < 65536 := by
  unfold nextAccord
  split_ifs <;> omega

theorem Chip.shown_accordOpened {n k : Nat} (hn : n < 65536) (hk : k < 64) :
    (c.accordOpened n k).get 0 R.ACCORD_STATUS_state = 1 ∧ (c.accordOpened n k).get 0 R.ACCORD_STATUS_result = 0 ∧
      (c.accordOpened n k).get 0 R.ACCORD_STATUS_pending = nextAccord n ∧ (c.accordOpened n k).get 0 R.ACCORD_LOG_bound = 1 ∧
      (c.accordOpened n k).get 0 R.ACCORD_LOG_latchkey = k := by
  simp (disch := decide) only [Chip.accordOpened, Chip.accordResult, Chip.get_put_off, Chip.get_put_same, Chip.get_put_field]
  exact ⟨rfl, rfl, Nat.mod_eq_of_lt (nextAccord_lt hn), rfl, Nat.mod_eq_of_lt hk⟩

theorem Chip.shown_commitBegins :
    c.commitBegins.get 0 R.ACCORD_STATUS_state = 2 ∧ c.commitBegins.get 0 R.ACCORD_STATUS_result = 0 := by
  simp (disch := decide) only [Chip.commitBegins, Chip.accordResult, Chip.get_put_same, Chip.get_put_field]
  decide

theorem Chip.shown_commitStalls :
    c.commitStalls.get 0 R.ACCORD_STATUS_state = 3 ∧ c.commitStalls.get 0 R.ACCORD_STATUS_result = 0 ∧
      c.commitStalls.get 0 R.ACCORD_STATUS_commit_stalled = 1 ∧ c.commitStalls.reg C.stalls = c.reg C.stalls + 1 := by
  simp (disch := decide) only [Chip.commitStalls, Chip.accordResult, Chip.get_put_same, Chip.get_put_field, Chip.get_cnt, Chip.reg_put_ne,
    Chip.reg_cnt_same]
  exact ⟨rfl, rfl, rfl, rfl⟩

theorem Chip.shown_discardBegins :
    c.discardBegins.get 0 R.ACCORD_STATUS_state = 4 ∧ c.discardBegins.get 0 R.ACCORD_STATUS_result = 9 ∧
      c.discardBegins.get 0 R.ACCORD_STATUS_commit_stalled = 0 := by
  simp (disch := decide) only [Chip.discardBegins, Chip.accordResult, Chip.get_put_same, Chip.get_put_field]
  decide

theorem Chip.shown_commitWithdrawn :
    c.commitWithdrawn.get 0 R.ACCORD_STATUS_state = 1 ∧ c.commitWithdrawn.get 0 R.ACCORD_STATUS_commit_stalled = 0 ∧
      c.commitWithdrawn.get 0 R.ACCORD_STATUS_result = 0 := by
  simp (disch := decide) only [Chip.commitWithdrawn, Chip.accordResult, Chip.get_put_same, Chip.get_put_field]
  decide

theorem Chip.shown_accordResult {r : Nat} (hr : r < 256) :
    (c.accordResult r).get 0 R.ACCORD_STATUS_result = r ∧
      (c.accordResult r).get 0 R.ACCORD_STATUS_state = c.get 0 R.ACCORD_STATUS_state ∧
      (c.accordResult r).get 0 R.ACCORD_STATUS_pending = c.get 0 R.ACCORD_STATUS_pending := by
  simp (disch := decide) only [Chip.accordResult, Chip.get_put_same, Chip.get_put_field]
  exact ⟨Nat.mod_eq_of_lt hr, trivial, trivial⟩

end

section
variable {c d : Chip} {l : List Nat} {ps : List Part} (h : c.Keeps d l ps) (hs : R.ACCORD_STATUS ∈ l)
include h hs

theorem Chip.Keeps.accordResult (r : Nat) : c.Keeps (d.accordResult r) l ps := h.putGlobal rfl hs r

theorem Chip.Keeps.accordOpened (hl : R.ACCORD_LOG ∈ l) (n k : Nat) : c.Keeps (d.accordOpened n k) l ps :=
  ((((h.putGlobal rfl hs 1).putGlobal rfl hs (nextAccord n)).putGlobal rfl hl 1).putGlobal rfl hl k).accordResult hs 0

theorem Chip.Keeps.commitBegins : c.Keeps d.commitBegins l ps := (h.putGlobal rfl hs 2).accordResult hs 0

theorem Chip.Keeps.commitStalls (hc : C.stalls ∈ l) : c.Keeps d.commitStalls l ps :=
  (((h.putGlobal rfl hs 3).putGlobal rfl hs 1).cnt hc 1).accordResult hs 0

theorem Chip.Keeps.discardBegins : c.Keeps d.discardBegins l ps := ((h.putGlobal rfl hs 4).putGlobal rfl hs 0).accordResult hs 9

theorem Chip.Keeps.commitWithdrawn : c.Keeps d.commitWithdrawn l ps := ((h.putGlobal rfl hs 1).putGlobal rfl hs 0).accordResult hs 0

end

/-! ### The statement, clause by clause -/

/-- An operation that takes the device to `d`. -/
theorem Does.of_bus_eq {i : Instr} {s : State} {src : Source} {a : Nat} {w : Bool} {f : Chip → Chip} {d : Chip} {P : State → Prop}
    (he : exec i s = s.bus src a w f) (hs : s.serves src a w = true) (hf : f s.chip.quiet = d) (hP : P { s with chip := d }) : Does i s P :=
  Does.of_bus he hs (hf ▸ hP)

/-- The operation that led from `s` to `t` was refused with result `r`: it left all but that result and ACCORD_CMD. -/
def AccordRefused (s : State) (r : Nat) (t : State) : Prop :=
  t.chip.get 0 R.ACCORD_STATUS_result = r ∧ t.chip.get 0 R.ACCORD_STATUS_state = s.chip.get 0 R.ACCORD_STATUS_state ∧
    t.chip.get 0 R.ACCORD_STATUS_pending = s.chip.get 0 R.ACCORD_STATUS_pending ∧ OnlyRegs s t [R.ACCORD_CMD, R.ACCORD_STATUS]

theorem does_accordRefused {i : Instr} {s : State} {src : Source} {f : Chip → Chip} {d : Chip} {r : Nat}
    (he : exec i s = s.bus src R.ACCORD_CMD true f) (hs : s.serves src R.ACCORD_CMD true = true) (hf : f s.chip.quiet = d.accordResult r)
    (hd : s.chip.quiet.Keeps d [R.ACCORD_CMD] []) (hr : r < 256) :
    Does i s (AccordRefused s r) := by
  obtain ⟨hresult, hstate, hpending⟩ := d.shown_accordResult hr
  exact Does.of_bus_eq he hs hf ⟨hresult, hstate.trans (hd.get (by decide)), hpending.trans (hd.get (by decide)),
    ((hd.mono (by simp)).accordResult (.tail _ (.head _)) r).onlyRegs⟩

section
variable {s : State} {src : Source} (hs : s.serves src R.ACCORD_CMD true = true)
include hs

theorem accordOpen_opens {data : Word} (h : s.chip.openRefusal src data = 0) :
    Does (.accordOpen src data) s fun t =>
      t.chip.get 0 R.ACCORD_STATUS_state = 1 ∧ t.chip.get 0 R.ACCORD_STATUS_result = 0 ∧
      t.chip.get 0 R.ACCORD_STATUS_pending = nextAccord (s.chip.get 0 R.ACCORD_NEWEST_number) ∧
      t.chip.get 0 R.ACCORD_LOG_bound = 1 ∧ t.chip.get 0 R.ACCORD_LOG_latchkey = bits data 5 0 ∧
      OnlyRegs s t [R.ACCORD_CMD, R.ACCORD_STATUS, R.ACCORD_LOG] := by
  refine Does.of_bus_eq (exec_accordOpen s src data) hs ((Chip.openAccord_eq ..).trans (if_pos h)) ?_
  have hkeeps := s.chip.quiet.keeps_openWritten data
  obtain ⟨hstate, hresult, hpending, hbound, hkey⟩ := (s.chip.quiet.openWritten data).shown_accordOpened (n := s.chip.newest)
    (bits_lt ..) (bits_lt data 5 0)
  exact ⟨hstate, hresult, hpending, hbound, hkey,
    ((hkeeps.mono (by simp)).accordOpened (.tail _ (.head _)) (.tail _ (.tail _ (.head _))) _ _).onlyRegs⟩

theorem accordOpen_refused {data : Word} (h : s.chip.openRefusal src data ≠ 0) :
    Does (.accordOpen src data) s (AccordRefused s (s.chip.openRefusal src data)) := by
  refine does_accordRefused (exec_accordOpen s src data) hs ((Chip.openAccord_eq ..).trans (if_neg h)) (Chip.keeps_openWritten ..) ?_
  unfold Chip.openRefusal
  split_ifs <;> decide

theorem accordCommit_begins {i : Nat} (h : s.chip.commitRefusal src = 0) (hi : i < 4) (hfree : s.chip.get (4 * i) R.ACCORD_SLOT_live = 0) :
    Does (.accordCommit src) s fun t =>
      t.chip.get 0 R.ACCORD_STATUS_state = 2 ∧ t.chip.get 0 R.ACCORD_STATUS_result = 0 ∧
      OnlyRegs s t [R.ACCORD_CMD, R.ACCORD_STATUS] := by
  have hsome : s.chip.quiet.freeSlot.isSome = true := Chip.freeSlot_isSome hi hfree
  refine Does.of_bus_eq (exec_accordCommit s src) hs ((Chip.commitAccord_eq ..).trans ((if_pos h).trans (if_pos hsome))) ?_
  have hkeeps := s.chip.quiet.keeps_opWritten 2
  obtain ⟨hstate, hresult⟩ := (s.chip.quiet.opWritten 2).shown_commitBegins
  exact ⟨hstate, hresult, ((hkeeps.mono (by simp)).commitBegins (.tail _ (.head _))).onlyRegs⟩

theorem accordCommit_stalls (h : s.chip.commitRefusal src = 0) (hlive : s.chip.liveSlots = [0, 1, 2, 3]) :
    Does (.accordCommit src) s fun t =>
      t.chip.get 0 R.ACCORD_STATUS_state = 3 ∧ t.chip.get 0 R.ACCORD_STATUS_result = 0 ∧ t.chip.get 0 R.ACCORD_STATUS_commit_stalled = 1 ∧
      t.chip.reg C.stalls = s.chip.reg C.stalls + 1 ∧ OnlyRegs s t [R.ACCORD_CMD, R.ACCORD_STATUS, C.stalls] := by
  have hnone : ¬ s.chip.quiet.freeSlot.isSome = true := by
    rw [Chip.freeSlot_eq_none (c := s.chip.quiet) hlive]
    decide
  refine Does.of_bus_eq (exec_accordCommit s src) hs ((Chip.commitAccord_eq ..).trans ((if_pos h).trans (if_neg hnone))) ?_
  have hkeeps := s.chip.quiet.keeps_opWritten 2
  obtain ⟨hstate, hresult, hstalled, hstalls⟩ := (s.chip.quiet.opWritten 2).shown_commitStalls
  rw [hkeeps.1 C.stalls (by decide), Chip.reg_quiet] at hstalls
  exact ⟨hstate, hresult, hstalled, hstalls,
    ((hkeeps.mono (by simp)).commitStalls (.tail _ (.head _)) (.tail _ (.tail _ (.head _)))).onlyRegs⟩

theorem accordCommit_refused {r : Nat} (h : s.chip.commitRefusal src = r) (hr : r ≠ 0) :
    Does (.accordCommit src) s (AccordRefused s r) := by
  subst h
  refine does_accordRefused (exec_accordCommit s src) hs ((Chip.commitAccord_eq ..).trans (if_neg hr)) (Chip.keeps_opWritten ..) ?_
  unfold Chip.commitRefusal
  split_ifs <;> decide

theorem accordDiscard_begins (h : s.chip.discardRefusal src = 0) :
    Does (.accordDiscard src) s fun t =>
      t.chip.get 0 R.ACCORD_STATUS_state = 4 ∧ t.chip.get 0 R.ACCORD_STATUS_result = 9 ∧ t.chip.get 0 R.ACCORD_STATUS_commit_stalled = 0 ∧
      OnlyRegs s t [R.ACCORD_CMD, R.ACCORD_STATUS] := by
  refine Does.of_bus_eq (exec_accordDiscard s src) hs ((Chip.dropAccord_eq ..).trans (if_pos h)) ?_
  have hkeeps := s.chip.quiet.keeps_opWritten 3
  obtain ⟨hstate, hresult, hstalled⟩ := (s.chip.quiet.opWritten 3).shown_discardBegins
  exact ⟨hstate, hresult, hstalled, ((hkeeps.mono (by simp)).discardBegins (.tail _ (.head _))).onlyRegs⟩

theorem accordDiscard_refused {r : Nat} (h : s.chip.discardRefusal src = r) (hr : r ≠ 0) :
    Does (.accordDiscard src) s (AccordRefused s r) := by
  subst h
  refine does_accordRefused (exec_accordDiscard s src) hs ((Chip.dropAccord_eq ..).trans (if_neg hr)) (Chip.keeps_opWritten ..) ?_
  unfold Chip.discardRefusal
  split_ifs <;> decide

theorem accordWithdraw_reopens (h : s.chip.withdrawRefusal src = 0) :
    Does (.accordWithdraw src) s fun t =>
      t.chip.get 0 R.ACCORD_STATUS_state = 1 ∧ t.chip.get 0 R.ACCORD_STATUS_commit_stalled = 0 ∧ t.chip.get 0 R.ACCORD_STATUS_result = 0 ∧
      t.chip.accord.log = s.chip.accord.log ∧ OnlyRegs s t [R.ACCORD_CMD, R.ACCORD_STATUS] := by
  refine Does.of_bus_eq (exec_accordWithdraw s src) hs ((Chip.withdrawAccord_eq ..).trans (if_pos h)) ?_
  have hkeeps : s.chip.quiet.Keeps _ [R.ACCORD_CMD, R.ACCORD_STATUS] [] :=
    ((s.chip.quiet.keeps_opWritten 4).mono (by simp)).commitWithdrawn (.tail _ (.head _))
  obtain ⟨hstate, hstalled, hresult⟩ := (s.chip.quiet.opWritten 4).shown_commitWithdrawn
  exact ⟨hstate, hstalled, hresult, congrArg Accord.log (hkeeps.accord (by simp)), hkeeps.onlyRegs⟩

theorem accordWithdraw_refused {r : Nat} (h : s.chip.withdrawRefusal src = r) (hr : r ≠ 0) :
    Does (.accordWithdraw src) s (AccordRefused s r) := by
  subst h
  refine does_accordRefused (exec_accordWithdraw s src) hs ((Chip.withdrawAccord_eq ..).trans (if_neg hr)) (Chip.keeps_opWritten ..) ?_
  unfold Chip.withdrawRefusal
  split_ifs <;> decide

end

/-! ### The refusals that the statement names -/

section
variable {c : Chip} {src : Source} (hup : c.image.applied = true)
include hup

theorem Chip.openRefusal_eq_zero {data : Word} (hstate : c.get 0 R.ACCORD_STATUS_state = 0) (hsuspect : c.get 0 R.ACCORD_STATUS_suspect = 0)
    (howner : (c.latch (bits data 5 0)).owner = srcUnit src) (hfn : (c.latch (bits data 5 0)).fn = srcFn src) :
    c.openRefusal src data = 0 := by
  simp [Chip.openRefusal, Chip.accordState, hup, hstate, hsuspect, howner, hfn]

theorem Chip.commitRefusal_of_open (hstate : c.get 0 R.ACCORD_STATUS_state = 1) (hholds : c.holdsBound src = true) :
    c.commitRefusal src = 0 := by
  simp [Chip.commitRefusal, Chip.accordState, hup, hstate, hholds]

theorem Chip.commitRefusal_of_closed_or_foreign (h : c.get 0 R.ACCORD_STATUS_state ≠ 1 ∨ c.holdsBound src = false)
    (hlt : c.get 0 R.ACCORD_STATUS_state < 5) :
    c.commitRefusal src = if c.get 0 R.ACCORD_STATUS_state = 1 then 3 else if c.get 0 R.ACCORD_STATUS_state = 2 ∨
      c.get 0 R.ACCORD_STATUS_state = 3 then 4 else 5 := by
  rw [Chip.commitRefusal, Chip.accordState, hup]
  generalize c.get 0 R.ACCORD_STATUS_state = n at *
  obtain rfl | rfl | rfl | rfl | rfl : n = 0 ∨ n = 1 ∨ n = 2 ∨ n = 3 ∨ n = 4 := by omega
  case inr.inl => simp [h.resolve_left (· rfl)]
  all_goals rfl

theorem Chip.discardRefusal_of_open_or_stalled (hstate : c.get 0 R.ACCORD_STATUS_state = 1 ∨ c.get 0 R.ACCORD_STATUS_state = 3) :
    c.discardRefusal src = if c.holdsBound src then 0 else 3 := by
  cases hholds : c.holdsBound src <;> simp [Chip.discardRefusal, Chip.accordState, hup, hstate, hholds]

theorem Chip.withdrawRefusal_of_stalled (hstate : c.get 0 R.ACCORD_STATUS_state = 3) :
    c.withdrawRefusal src = if c.holdsBound src then 0 else 3 := by
  cases hholds : c.holdsBound src <;> simp [Chip.withdrawRefusal, Chip.accordState, hup, hstate, hholds]

end

theorem Chip.withdrawRefusal_of_not_stalled {c : Chip} (src : Source) (hstate : c.get 0 R.ACCORD_STATUS_state ≠ 3) :
    c.withdrawRefusal src = 4 := if_pos (.inr hstate)

/-- Settles O8, clause by clause: the engine's state, the writer and the latchkey give the refusal (0 for none), which says what the
operation does. -/
theorem accordOpenAndCommit : Obligations.AccordOpenAndCommit := by
  refine ⟨?opens, ?openRefused, ?commits, ?stalls, ?commitRefused, ?discards, ?discardRefused, ?withdraws, ?notStalled, ?withdrawRefused⟩
  case opens => exact fun s src data hs hup hstate hsuspect howner hfn =>
    accordOpen_opens hs (Chip.openRefusal_eq_zero hup hstate hsuspect howner hfn)
  case openRefused =>
    intro s src data r hs hr hne
    obtain rfl : r = s.chip.openRefusal src data := hr
    exact accordOpen_refused hs hne
  case commits => exact fun s src i hs hup hstate hholds hi hfree =>
    accordCommit_begins hs (Chip.commitRefusal_of_open hup hstate hholds) hi hfree
  case stalls => exact fun s src hs hup hstate hholds hlive =>
    accordCommit_stalls hs (Chip.commitRefusal_of_open hup hstate hholds) hlive
  case commitRefused =>
    intro s src hs hup h hlt
    refine (accordCommit_refused hs (Chip.commitRefusal_of_closed_or_foreign hup h hlt) ?_).mono fun t ⟨hresult, hkept, _, hregs⟩ =>
      ⟨hresult, hkept, hregs⟩
    split_ifs <;> decide
  case discards =>
    intro s src hs hup hstate hholds
    exact accordDiscard_begins hs ((Chip.discardRefusal_of_open_or_stalled hup hstate).trans (if_pos hholds))
  case discardRefused =>
    intro s src hs hup hstate hholds
    have hr : s.chip.discardRefusal src = 3 := by
      rw [Chip.discardRefusal_of_open_or_stalled hup hstate, hholds, if_neg Bool.false_ne_true]
    exact (accordDiscard_refused hs hr (by decide)).mono fun t ⟨hresult, hkept, _, hregs⟩ => ⟨hresult, hkept, hregs⟩
  case withdraws =>
    intro s src hs hup hstate hholds
    exact accordWithdraw_reopens hs ((Chip.withdrawRefusal_of_stalled hup hstate).trans (if_pos hholds))
  case notStalled =>
    intro s src hs hstate
    exact (accordWithdraw_refused hs (Chip.withdrawRefusal_of_not_stalled src hstate) (by decide)).mono
      fun t ⟨hresult, hkept, _, hregs⟩ => ⟨hresult, hkept, hregs⟩
  case withdrawRefused =>
    intro s src hs hup hstate hholds
    have hr : s.chip.withdrawRefusal src = 3 := by
      rw [Chip.withdrawRefusal_of_stalled hup hstate, hholds, if_neg Bool.false_ne_true]
    exact (accordWithdraw_refused hs hr (by decide)).mono fun t ⟨hresult, hkept, _, hregs⟩ => ⟨hresult, hkept.trans hstate, hregs⟩

end Sys2Proof.Machine
end

section
/-! SUPPORT. The end of a discard (spec/07_accords.md R164) that restores an entry of a slice that does not exist. -/

namespace Sys2Proof.Machine

open Sys2Proof

/-- A slice number that no device has. Its unit ID is that of a block unit, in no suite, but its index is that of slice 1. -/
def straySlice : Nat := 0x1001

/-- Slices 0 and 1 make a suite. The accord engine is discarding, and the one record of its log names an exact-match entry of the slice
that does not exist. -/
def strayLogState : State :=
  { State.reset with
    chip :=
      { power := { sysRstHigh := true, released := true, sysPll := true }
        image := { applied := true, suites := [[U.slice 0, U.slice 1]] }
        regs := [(R.ACCORD_STATUS, 0x80000000)]
        accord := { log := [{ place := .em straySlice 0, valid := true, vfrom := 5, vuntil := 9 }] } } }

/-- Refutes O9, by clause 3: the discard makes an entry of slice 1 valid again and counts it in EM_OCC of slice 1, the home of the slice that
the record names. The clause lists the registers of the homes of that slice's mates: the one mate is slice 1, whose home is slice 0. No
hypothesis of the clause keeps the slice of a logged place below 8. -/
theorem not_accordTakesEffectAndEnds : ¬ Obligations.AccordTakesEffectAndEnds := by
  rintro ⟨-, -, hdiscard, -⟩
  have hruns : strayLogState.runs .core = true := by decide +kernel
  obtain ⟨t, hexec, -, -, -, -, -, -, ⟨hkept, -⟩, -⟩ := hdiscard strayLogState hruns (by decide +kernel) (by decide +kernel)
  obtain rfl := Host.Outcome.next.inj (hexec.symm.trans ((exec_discardComplete strayLogState).trans (State.run_of_runs hruns _)))
  have hsame := hkept (A.slice 1 + R.EM_OCC) (by decide +kernel)
  revert hsame
  decide +kernel

end Sys2Proof.Machine
end

section
/-! SUPPORT. The repair of a TCAM row (spec/09_lpm_and_tcam.md R218) whose bank is held in reset, and a learn request
(spec/08_exact_match.md R189) whose destination does not fit the 20 bits of Table 8-10. -/

namespace Sys2Proof.Machine

open Sys2Proof

/-- Row 0 of slice 0's TCAM waits for its repair while its bank, bank 0, is held in reset. -/
def heldBankState : State :=
  { State.reset with
    chip :=
      { power := { sysRstHigh := true, released := true, sysPll := true }
        image := { applied := true }
        rst := { held := [U.sliceBlk 0 0x50] }
        tcam := [(0, { repairs := [0] })] } }

/-- Refutes O38, by clause 20: TCAM_ROW_REWRITE leaves a row whose bank is in reset where it is, in the list of rows due. The clause asks that
the slice is out of reset, but not the bank of the row. -/
theorem not_lookupsOfAFrame : ¬ Obligations.LookupsOfAFrame := by
  rintro ⟨-, -, -, -, -, -, -, -, -, -, -, -, -, -, -, -, -, -, -, hrewrite⟩
  have hruns : heldBankState.runs .core = true := by decide +kernel
  obtain ⟨t, hexec, -, hrepairs, -⟩ := hrewrite heldBankState 0 0 [] hruns (by decide +kernel) (by decide +kernel)
  obtain rfl := Host.Outcome.next.inj (hexec.symm.trans ((exec_tcamRowRewrite heldBankState 0).trans (State.run_of_runs hruns _)))
  revert hrepairs
  decide +kernel

/-- Slice 0 has one granule of exact-match buckets, and its learning engine a request for key 0 with a destination of 25 bits. -/
def farDestState : State :=
  { State.reset with
    chip :=
      { power := { sysRstHigh := true, released := true, sysPll := true }
        image := { applied := true, splits := [(0, { em := 1, lpm := 0, ovf := 0 })] }
        em := [(0, { queue := [{ key := 0, dest := 2 ^ 24 }] })] } }

/-- Refutes O37, by clause 3: bit 24 of the destination carries out of the learned entry's 64-bit result into its key, so the engine looks
for a place in the buckets of key 1, and the bucket place that is free for key 0 stays empty. No hypothesis of the clause bounds the
request's destination. -/
theorem not_learningAndAgeing : ¬ Obligations.LearningAndAgeing := by
  rintro ⟨-, -, hinsert, -⟩
  have hruns : farDestState.runs .core = true := by decide +kernel
  have hspot : farDestState.chip.emSpot 0 0 = some 2296 := by decide +kernel
  obtain ⟨t, hexec, hplaced, -⟩ := hinsert farDestState 0 2296 { key := 0, dest := 2 ^ 24 } [] hruns (by decide) (by decide +kernel)
    (by decide +kernel) (by decide +kernel) (by decide +kernel) hspot
  obtain rfl := Host.Outcome.next.inj (hexec.symm.trans ((exec_learnInsert farDestState 0).trans (State.run_of_runs hruns _)))
  obtain ⟨hentry, -⟩ := hplaced 0 (by decide +kernel)
  revert hentry
  decide +kernel

end Sys2Proof.Machine
end

section
/-! SUPPORT. Indirect windows (spec/20_host_interface.md Table 20-6, R436): what a go leaves to its operation, and what every operation that
has its result at once leaves in the window. -/

namespace Sys2Proof.Machine

open Sys2Proof

/-! ### More updates of one part -/

section
variable {c d : Chip} {l : List Nat} {ps : List Part} (h : c.Keeps d l ps)
include h

theorem Chip.Keeps.setMem (hp : .mem ∈ ps) (v : Tbl MemGroup) : c.Keeps { d with mem := v } l ps :=
  h.update (f := fun d => { d with mem := v }) hp rfl (fun _ => rfl) (fun _ q _ => by cases q <;> trivial) fun _ => rfl

theorem Chip.Keeps.setFresh (hp : .fresh ∈ ps) (v : Nat) : c.Keeps { d with fresh := v } l ps :=
  h.update (f := fun d => { d with fresh := v }) hp rfl (fun _ => rfl) (fun _ q _ => by cases q <;> trivial) fun _ => rfl

theorem Chip.Keeps.setEms (hp : .em ∈ ps) (v : Tbl EmTable) : c.Keeps { d with em := v } l ps :=
  h.update (f := fun d => { d with em := v }) hp rfl (fun _ => rfl) (fun _ q _ => by cases q <;> trivial) fun _ => rfl

theorem Chip.Keeps.setAccord (hp : .accord ∈ ps) (v : Accord) : c.Keeps { d with accord := v } l ps :=
  h.update (f := fun d => { d with accord := v }) hp rfl (fun _ => rfl) (fun _ q _ => by cases q <;> trivial) fun _ => rfl

theorem Chip.Keeps.setFifos (hp : .fifos ∈ ps) (v : Tbl Fifo) : c.Keeps { d with fifos := v } l ps :=
  h.update (f := fun d => { d with fifos := v }) hp rfl (fun _ => rfl) (fun _ q _ => by cases q <;> trivial) fun _ => rfl

theorem Chip.Keeps.setWins (hp : .wins ∈ ps) (v : Tbl (Option WinRes)) : c.Keeps { d with wins := v } l ps :=
  h.update (f := fun d => { d with wins := v }) hp rfl (fun _ => rfl) (fun _ q _ => by cases q <;> trivial) fun _ => rfl

theorem Chip.Keeps.em (hp : .em ∉ ps) : d.em = c.em :=
  h.field (g := Chip.em) hp (fun _ q _ => by cases q <;> trivial) fun _ => rfl

theorem Chip.Keeps.mem (hp : .mem ∉ ps) : d.mem = c.mem :=
  h.field (g := Chip.mem) hp (fun _ q _ => by cases q <;> trivial) fun _ => rfl

theorem Chip.Keeps.tcam (hp : .tcam ∉ ps) : d.tcam = c.tcam :=
  h.field (g := Chip.tcam) hp (fun _ q _ => by cases q <;> trivial) fun _ => rfl

theorem Chip.Keeps.fresh (hp : .fresh ∉ ps) : d.fresh = c.fresh :=
  h.field (g := Chip.fresh) hp (fun _ q _ => by cases q <;> trivial) fun _ => rfl

theorem Chip.Keeps.tbs (hp : .tbs ∉ ps) : d.tbs = c.tbs :=
  h.field (g := Chip.tbs) hp (fun _ q _ => by cases q <;> trivial) fun _ => rfl

theorem Chip.Keeps.emTab (hp : .em ∉ ps) (m : Nat) : d.emTab m = c.emTab m := by rw [Chip.emTab, h.em hp, Chip.emTab]

theorem Chip.Keeps.setEm (hp : .em ∈ ps) (s : Nat) (t : EmTable) : c.Keeps (d.setEm s t) l ps := h.setEms hp _

theorem Chip.Keeps.freeEntry (hp : .fresh ∈ ps) : c.Keeps d.freeEntry.2 l ps := h.setFresh hp _

theorem Chip.Keeps.winWake (hp : .house ∈ ps) (base : Nat) : c.Keeps (d.winWake base) l ps := by
  unfold Chip.winWake
  split
  · exact h.wakeCause hp _
  · exact h

end

/-! ### A go -/

/-- The device as a go of `op` in the window at `base` leaves it to its operation: CMD.op is written, a sleeping slice is woken. -/
def State.goChip (s : State) (base op : Nat) : Chip := (s.chip.quiet.put (base + 4) R.WIN_CMD_op op).winWake base

/-- A field is written as the result of a window's command is put down. Stated for any field, so that no check of a lemma runs through the
register table. -/
def Chip.putWin (c : Chip) (a : Nat) (f : Fld) (n base : Nat) (r : Option WinRes) : Chip := { c.put a f n with wins := c.wins.set base r }

/-- The window shows that a command is in hand, and holds its result where it has one. -/
def Chip.winHeld (c : Chip) (base : Nat) (r : Option WinRes) : Chip := c.putWin (base + 8) R.WIN_STATUS_busy 1 base r

section
variable (c : Chip)

theorem Chip.putWin_wins (a : Nat) (f : Fld) (n base : Nat) (r : Option WinRes) : (c.putWin a f n base r).wins = c.wins.set base r := rfl
theorem Chip.putWin_em (a : Nat) (f : Fld) (n base : Nat) (r : Option WinRes) : (c.putWin a f n base r).em = c.em := rfl
theorem Chip.putWin_accord (a : Nat) (f : Fld) (n base : Nat) (r : Option WinRes) : (c.putWin a f n base r).accord = c.accord := rfl
theorem Chip.reg_putWin (a : Nat) (f : Fld) (n base : Nat) (r : Option WinRes) (x : Nat) : (c.putWin a f n base r).reg x = (c.put a f n).reg x := rfl

variable (base : Nat) (r : Option WinRes)

@[simp] theorem Chip.winHeld_em : (c.winHeld base r).em = c.em := by rw [Chip.winHeld, Chip.putWin_em]
@[simp] theorem Chip.winHeld_accord : (c.winHeld base r).accord = c.accord := by rw [Chip.winHeld, Chip.putWin_accord]
@[simp] theorem Chip.emTab_winHeld (m : Nat) : (c.winHeld base r).emTab m = c.emTab m := by rw [Chip.emTab, Chip.winHeld_em, Chip.emTab]

theorem Chip.look_winHeld : (c.winHeld base r).wins.look base = r := by rw [Chip.winHeld, Chip.putWin_wins, Tbl.look_set, if_pos rfl]

/-- The status register is the one that changes. -/
theorem Chip.reg_winHeld {a : Nat} (h : a ≠ base + 8) : (c.winHeld base r).reg a = c.reg a := by
  rw [Chip.winHeld, Chip.reg_putWin, Chip.reg_put_ne _ _ _ _ _ h]

theorem Chip.get_winHeld {b : Nat} {f : Fld} (h : b + f.off ≠ base + 8) : (c.winHeld base r).get b f = c.get b f := by
  rw [Chip.get, Chip.reg_winHeld c base r h, Chip.get]

theorem Chip.busy_winHeld : (c.winHeld base r).get (base + 8) R.WIN_STATUS_busy = 1 := by
  rw [Chip.get, Chip.winHeld, Chip.reg_putWin]
  exact Chip.get_put_same c (base + 8) R.WIN_STATUS_busy 1 (by decide)

end

section
variable {s : State} {base op : Nat}

theorem State.keeps_goChip {l : List Nat} {ps : List Part} (hb : base + 4 ∈ l) (hh : .house ∈ ps) : s.chip.Keeps (s.goChip base op) l ps :=
  Chip.Keeps.winWake (Chip.Keeps.put (f := R.WIN_CMD_op) (.refl s.chip.quiet) hb op) hh base

/-- The snapshot that a go takes holds nothing of CMD.op. -/
theorem Chip.winIn_put_op (c : Chip) (src : Source) : (c.put (base + 4) R.WIN_CMD_op op).winIn src base = c.winIn src base := by
  have hcmd : ∀ f : Fld, f.hi < 27 → (c.put (base + 4) R.WIN_CMD_op op).get (base + 4) f = c.get (base + 4) f := fun f hf =>
    Chip.get_put_field _ _ _ _ _ _ ⟨by decide, by omega, .inl hf⟩
  have hindex : (c.put (base + 4) R.WIN_CMD_op op).get base R.WIN_ADDR_index = c.get base R.WIN_ADDR_index :=
    Chip.get_put_reg _ _ _ _ _ _ (show base ≠ base + 4 by omega)
  have hseq : (c.put (base + 4) R.WIN_CMD_op op).get (base + 8) R.WIN_STATUS_seq = c.get (base + 8) R.WIN_STATUS_seq :=
    Chip.get_put_reg _ _ _ _ _ _ (show base + 8 ≠ base + 4 by omega)
  have hreg : ∀ k, (c.put (base + 4) R.WIN_CMD_op op).reg (base + 0x10 + 4 * k) = c.reg (base + 0x10 + 4 * k) := fun k =>
    Chip.reg_put_ne _ _ _ _ _ (by simp only [R.WIN_CMD_op]; omega)
  have hdata : (c.put (base + 4) R.WIN_CMD_op op).winData base = c.winData base := by simp only [Chip.winData, hreg]
  rw [Chip.winIn, hindex, hcmd _ (by decide), hcmd _ (by decide), hcmd _ (by decide), hcmd _ (by decide), hseq, hdata, Chip.winIn]

/-- A go that may go ahead carries its operation out. -/
theorem State.winLater_of_mayGo {src : Source} (hm : s.mayGo src base = true) (f : WinIn → Chip → Chip × Option WinRes) :
    s.chip.quiet.winLater src base op f =
      (f (s.chip.winIn src base) (s.goChip base op)).1.winHeld base (f (s.chip.winIn src base) (s.goChip base op)).2 := by
  simp only [State.mayGo, Bool.and_eq_true, Bool.not_eq_true'] at hm
  obtain ⟨⟨-, hbusy⟩, hreset⟩ := hm
  unfold Chip.winLater
  rw [if_neg (show ¬ s.chip.quiet.winBusy base = true from ne_true_of_eq_false hbusy)]
  dsimp only
  rw [if_neg (show ¬ (s.chip.quiet.put (base + 4) R.WIN_CMD_op op).inReset (winOwner base) = true from ne_true_of_eq_false hreset),
    Chip.winIn_put_op]
  rfl

/-- What a window command does, from what its operation does on the device as its go leaves it. -/
theorem does_winLater {i : Instr} {src : Source} {f : WinIn → Chip → Chip × Option WinRes} {w : WinIn} {d : Chip} {r : Option WinRes}
    {P : State → Prop} (he : exec i s = s.bus src (base + 4) true fun c => c.winLater src base op f) (hm : s.mayGo src base = true)
    (hw : s.chip.winIn src base = w) (hf : f w (s.goChip base op) = (d, r)) (hp : P { s with chip := d.winHeld base r }) : Does i s P := by
  have hserves : s.serves src (base + 4) true = true := by
    simp only [State.mayGo, Bool.and_eq_true] at hm
    exact hm.1.1
  refine Does.of_bus he hserves ?_
  rwa [State.winLater_of_mayGo hm, hw, hf]

theorem does_winGo {i : Instr} {src : Source} {f : WinIn → Chip → Chip × WinRes} {w : WinIn} {d : Chip} {r : WinRes} {P : State → Prop}
    (he : exec i s = s.winGo src base op f) (hm : s.mayGo src base = true)
    (hw : s.chip.winIn src base = w) (hf : f w (s.goChip base op) = (d, r)) (hp : P { s with chip := d.winHeld base (some r) }) : Does i s P :=
  does_winLater (f := fun w c => ((f w c).1, some (f w c).2)) he hm hw (by rw [hf]) hp

/-- The window of an operation that has its result at once. -/
theorem winDone_of_keeps {d : Chip} {l : List Nat} {ps : List Part} (h : (s.goChip base op).Keeps d l ps) (hb : base + 4 ∉ l) (hop : op < 16)
    (r : WinRes) : WinDone { s with chip := d.winHeld base (some r) } base op r := by
  refine ⟨Chip.look_winHeld .., Chip.busy_winHeld .., ?_⟩
  have hwoken : (s.goChip base op).get (base + 4) R.WIN_CMD_op = (s.chip.quiet.put (base + 4) R.WIN_CMD_op op).get (base + 4) R.WIN_CMD_op :=
    Chip.Keeps.get (l := []) (ps := [.house]) (Chip.Keeps.winWake (.refl _) (.head _) base) List.not_mem_nil
  rw [Chip.get_winHeld _ _ _ (by simp only [R.WIN_CMD_op]; omega), h.get (b := base + 4) (f := R.WIN_CMD_op) hb, hwoken,
    Chip.get_put_same _ _ _ _ (by decide)]
  exact Nat.mod_eq_of_lt hop

/-- What a window command keeps, from what its operation keeps. -/
theorem Chip.Keeps.onlyParts_winHeld {d : Chip} {l : List Nat} {ps : List Part} (h : s.chip.Keeps d l ps) (hs : base + 8 ∈ l) (hw : .wins ∈ ps)
    (r : Option WinRes) : OnlyParts s { s with chip := d.winHeld base r } l ps := by
  have hput : s.chip.quiet.Keeps (d.put (base + 8) R.WIN_STATUS_busy 1) l ps := Chip.Keeps.put (f := R.WIN_STATUS_busy) h hs 1
  exact (hput.setWins hw (d.wins.set base r)).onlyParts

/-- A window command whose operation answers at once and changes nothing. -/
theorem does_winAnswer {i : Instr} {src : Source} {f : WinIn → Chip → Chip × Option WinRes} {w : WinIn} {r : WinRes}
    (he : exec i s = s.bus src (base + 4) true fun c => c.winLater src base op f) (hm : s.mayGo src base = true)
    (hw : s.chip.winIn src base = w) (hop : op < 16) (hf : f w (s.goChip base op) = (s.goChip base op, some r)) :
    Does i s fun t => WinDone t base op r ∧ OnlyParts s t [base + 4, base + 8] [.wins, .house] :=
  does_winLater he hm hw hf ⟨winDone_of_keeps (l := []) (ps := []) (.refl _) List.not_mem_nil hop r,
    (State.keeps_goChip (.head _) (.tail _ (.head _))).onlyParts_winHeld (.tail _ (.head _)) (.head _) _⟩

theorem does_goAnswer {i : Instr} {src : Source} {f : WinIn → Chip → Chip × WinRes} {w : WinIn} {r : WinRes}
    (he : exec i s = s.winGo src base op f) (hm : s.mayGo src base = true) (hw : s.chip.winIn src base = w) (hop : op < 16)
    (hf : f w (s.goChip base op) = (s.goChip base op, r)) :
    Does i s fun t => WinDone t base op r ∧ OnlyParts s t [base + 4, base + 8] [.wins, .house] :=
  does_winAnswer (f := fun w c => ((f w c).1, some (f w c).2)) he hm hw hop (by rw [hf])

end

end Sys2Proof.Machine
end

section
/-! SUPPORT. What the exact-match functions look at (spec/08_exact_match.md R169 to R182): the structure of the image, the entries of one
slice and the accords. Two devices that agree in these give the same answers. -/

namespace Sys2Proof.Machine

open Sys2Proof

/-! ### The structure of the image -/

section
variable {c d : Chip} (h : d.image = c.image)
include h

theorem Chip.suiteUnit_of_image (u : Nat) : d.suiteUnit u = c.suiteUnit u := by
  rw [Chip.suiteUnit, Chip.suiteOf, h, Chip.suiteUnit, Chip.suiteOf]

theorem Chip.sliceMates_of_image (s : Nat) : d.sliceMates s = c.sliceMates s := by
  rw [Chip.sliceMates, Chip.members, Chip.suiteOf, h, Chip.sliceMates, Chip.members, Chip.suiteOf]

theorem Chip.emHome_of_image (s : Nat) : d.emHome s = c.emHome s := by rw [Chip.emHome, Chip.suiteUnit_of_image h, Chip.emHome]

theorem Chip.sliceCnt_of_image (s : Nat) : d.sliceCnt s = c.sliceCnt s := by rw [Chip.sliceCnt, Chip.suiteUnit_of_image h, Chip.sliceCnt]

theorem Chip.emRegs_of_image (s : Nat) : d.emRegs s = c.emRegs s := by rw [Chip.emRegs, Chip.emHome_of_image h, Chip.emRegs]

theorem Chip.fifoRegs_of_image (f : Nat) : d.fifoRegs f = c.fifoRegs f := by
  rw [Chip.fifoRegs, Chip.fifoTop, Chip.suiteUnit_of_image h, Chip.fifoRegs, Chip.fifoTop]

theorem Chip.emGranules_of_image (s : Nat) : d.emGranules s = c.emGranules s := by rw [Chip.emGranules, h, Chip.emGranules]

theorem Chip.emIndexOk_of_image (s i : Nat) : d.emIndexOk s i = c.emIndexOk s i := by
  rw [Chip.emIndexOk, Chip.emOvfSize, Chip.emBuckets, Chip.emGranules, h, Chip.emIndexOk, Chip.emOvfSize, Chip.emBuckets, Chip.emGranules]

theorem Chip.emWord_of_image (s i : Nat) : d.emWord s i = c.emWord s i := by
  rw [Chip.emWord, Chip.emBuckets, Chip.emGranules, h, Chip.emWord, Chip.emBuckets, Chip.emGranules]

theorem Chip.emBucket_of_image (s bank : Nat) (wide : Bool) (key : Nat) : d.emBucket s bank wide key = c.emBucket s bank wide key := by
  rw [Chip.emBucket, Chip.emBuckets, Chip.emGranules, h, Chip.emBucket, Chip.emBuckets, Chip.emGranules]

end

/-! ### The entries of a slice -/

/-- On both devices the image's structure, and the entries and sequence numbers of slice `s`, are the same. -/
structure Chip.SameEm (c d : Chip) (s : Nat) : Prop where
  image : d.image = c.image
  entries : (d.emTab s).entries = (c.emTab s).entries
  seqs : (d.emTab s).seqs = (c.emTab s).seqs

section
variable {c d : Chip} {s : Nat} (h : c.SameEm d s)
include h

theorem Chip.SameEm.emAt (i : Nat) : d.emAt s i = c.emAt s i := by rw [Chip.emAt, h.entries, Chip.emAt]

theorem Chip.SameEm.emSeq (i : Nat) : d.emSeq s i = c.emSeq s i := by rw [Chip.emSeq, h.seqs, Chip.emSeq]

theorem Chip.SameEm.emKeyIs (wide : Bool) (key i : Nat) : d.emKeyIs s wide key i = c.emKeyIs s wide key i := by
  simp only [Chip.emKeyIs, Chip.emKeyAt, h.emAt]

theorem Chip.SameEm.emPlaces (wide : Bool) (key : Nat) : d.emPlaces s wide key = c.emPlaces s wide key := by
  simp only [Chip.emPlaces, h.entries, Chip.emGranules_of_image h.image, Chip.emBucket_of_image h.image]

theorem Chip.SameEm.emHolding (wide : Bool) (key accord : Nat) : d.emHolding s wide key accord = c.emHolding s wide key accord := by
  simp only [Chip.emHolding, h.emPlaces, h.emKeyIs, h.emAt]

theorem Chip.SameEm.emMatches (wide : Bool) (key accord : Nat) : d.emMatches s wide key accord = c.emMatches s wide key accord := by
  simp only [Chip.emMatches, Chip.emGranules_of_image h.image, h.emHolding]

theorem Chip.SameEm.emLearned (key : Nat) : d.emLearned s key = c.emLearned s key := by
  simp only [Chip.emLearned, h.emPlaces, h.emKeyIs, h.emAt]

theorem Chip.SameEm.emVersioned (wide : Bool) (key accord : Nat) : d.emVersioned s wide key accord = c.emVersioned s wide key accord := by
  simp only [Chip.emVersioned, h.emPlaces, h.emKeyIs, h.emAt]

theorem Chip.SameEm.emWhole (i : Nat) : d.emWhole s i = c.emWhole s i := by simp only [Chip.emWhole, h.emAt]

theorem Chip.SameEm.emReturn (hm : d.mem = c.mem) (i : Nat) : d.emReturn s i = c.emReturn s i := by
  simp only [Chip.emReturn, h.emAt, h.emSeq, Chip.poisoned, Chip.grp, hm, Chip.emWord_of_image h.image]

end

/-! ### The accords -/

/-- On both devices the accord engine shows the same accords, the same state and the same bound latchkey. -/
structure Chip.SameAccords (c d : Chip) : Prop where
  live : d.liveAccords = c.liveAccords
  pending : d.pendingAccord = c.pendingAccord
  newest : d.newest = c.newest
  state : d.accordState = c.accordState
  bound : d.on 0 R.ACCORD_LOG_bound = c.on 0 R.ACCORD_LOG_bound
  latchkey : d.get 0 R.ACCORD_LOG_latchkey = c.get 0 R.ACCORD_LOG_latchkey

/-- The accords show in registers below 0x4000. -/
theorem Chip.Keeps.sameAccords {c d : Chip} {l : List Nat} {ps : List Part} (h : c.Keeps d l ps) (hl : ∀ a ∈ l, 0x4000 ≤ a) : c.SameAccords d := by
  have hreg : ∀ a, a < 0x4000 → d.reg a = c.reg a := fun a ha => h.1 a fun hm => Nat.not_lt.mpr (hl a hm) ha
  have hslot : ∀ i ∈ List.range 4, d.reg (Chip.slotReg i) = c.reg (Chip.slotReg i) := fun i hi =>
    hreg _ (by rw [Chip.slotReg, R.ACCORD_SLOT]; have := List.mem_range.mp hi; omega)
  have hget : ∀ f : Fld, f.off < 0x4000 → d.get 0 f = c.get 0 f := fun f hf => by rw [Chip.get, hreg _ (by omega), Chip.get]
  have hlive : d.liveSlots = c.liveSlots := List.filter_congr fun i hi => by rw [Chip.slotLive, hslot i hi, Chip.slotLive]
  refine ⟨?_, hget _ (by decide), hget _ (by decide), hget _ (by decide), by rw [Chip.on, hget _ (by decide), Chip.on], hget _ (by decide)⟩
  rw [Chip.liveAccords, hlive, Chip.liveAccords]
  exact List.map_congr_left fun i hi => by rw [Chip.slotNumber, hslot i (List.mem_filter.mp hi).1, Chip.slotNumber]

section
variable {c d : Chip} {s : Nat} (h : c.SameEm d s) (ha : c.SameAccords d)
include h ha

theorem Chip.SameEm.emFree (i : Nat) : d.emFree s i = c.emFree s i := by
  simp only [Chip.emFree, Chip.deadValidity, h.emAt, ha.live, ha.pending]

theorem Chip.SameEm.emFreeIn (b : Nat) : d.emFreeIn s b = c.emFreeIn s b := by simp only [Chip.emFreeIn, h.emFree ha]

theorem Chip.SameEm.emTwo (wide : Bool) (key : Nat) : d.emTwo s wide key = c.emTwo s wide key := by
  simp only [Chip.emTwo, h.emFreeIn ha, Chip.emBucket_of_image h.image]

theorem Chip.SameEm.emSpot (key : Nat) : d.emSpot s key = c.emSpot s key := by
  simp only [Chip.emSpot, Chip.emGranules_of_image h.image, h.emTwo ha, h.emFreeIn ha]

theorem Chip.SameEm.emPairSpot (key : Nat) : d.emPairSpot s key = c.emPairSpot s key := by
  simp only [Chip.emPairSpot, Chip.emPairIn, Chip.emGranules_of_image h.image, h.emTwo ha, h.emFree ha]

theorem Chip.SameEm.emOvfSpot (wide : Bool) : d.emOvfSpot s wide = c.emOvfSpot s wide := by
  simp only [Chip.emOvfSpot, Chip.emOvfSize, h.image, h.emFree ha]

theorem Chip.SameEm.emPlan (rot fuel depth b : Nat) (path : List Nat) :
    d.emPlan s rot fuel depth b path = c.emPlan s rot fuel depth b path := by
  induction fuel generalizing depth b path with
  | zero => rfl
  | succ fuel ih =>
    simp only [Chip.emPlan, Chip.emMovable, Chip.emAlt, h.emAt, h.emFreeIn ha, Chip.emBucket_of_image h.image, ih]

theorem Chip.SameEm.emMoveChain (rot key : Nat) : d.emMoveChain s rot key = c.emMoveChain s rot key := by
  simp only [Chip.emMoveChain, Chip.emGranules_of_image h.image, Chip.emBucket_of_image h.image, h.emPlan ha]

end

/-- A step that leaves the tables and the image leaves all that the exact-match functions look at. -/
theorem Chip.Keeps.sameEm {c d : Chip} {l : List Nat} {ps : List Part} (h : c.Keeps d l ps) (hi : .image ∉ ps) (he : .em ∉ ps) (s : Nat) :
    c.SameEm d s := ⟨h.image hi, by rw [h.emTab he], by rw [h.emTab he]⟩

@[simp] theorem Chip.emTab_setEm (c : Chip) (s m : Nat) (t : EmTable) : (c.setEm s t).emTab m = if m = s then t else c.emTab m := by
  rw [Chip.emTab, Chip.setEm, Tbl.look_set, Chip.emTab]

/-- An engine's state beside the entries changes. -/
theorem Chip.SameEm.setEm {c d : Chip} {s : Nat} (h : c.SameEm d s) {t : EmTable} (ht : t.entries = (d.emTab s).entries)
    (hs : t.seqs = (d.emTab s).seqs) : c.SameEm (d.setEm s t) s :=
  ⟨h.image, by rw [Chip.emTab_setEm, if_pos rfl, ht, h.entries], by rw [Chip.emTab_setEm, if_pos rfl, hs, h.seqs]⟩

end Sys2Proof.Machine
end

section
/-! SUPPORT. A reader of a memory group (spec/17_memory_protection.md R368, R375): what meeting its errors changes. -/

namespace Sys2Proof.Machine

open Sys2Proof

theorem Chip.Keeps.ite {c d e : Chip} {l : List Nat} {ps : List Part} {p : Prop} [Decidable p] (hd : c.Keeps d l ps) (he : c.Keeps e l ps) :
    c.Keeps (if p then d else e) l ps := by
  split
  · exact hd
  · exact he

section
variable {c d : Chip} {l : List Nat} {ps : List Part} (h : c.Keeps d l ps) (hl : .ledger ∈ ps)
include h hl

theorem Chip.Keeps.reportPoison (groups : List Nat) (u k v x : Nat) : c.Keeps (d.reportPoison groups u k v x) l ps := by
  unfold Chip.reportPoison
  dsimp only
  split
  · exact h.report hl u k v x
  · exact h.setLedger hl _

variable (hm : .mem ∈ ps) {u : Nat} (hr : errRegs u ⊆ l)
include hm hr

theorem Chip.Keeps.logCorrected (word byte bitpos : Nat) : c.Keeps (d.logCorrected u word byte bitpos) l ps := by
  have hset : ∀ g, c.Keeps (d.setGrp u g) l ps := fun g => h.setMem hm _
  unfold Chip.logCorrected
  dsimp only
  split
  · split
    · exact ((hset _).reportPoison hl ..).put (f := R.MEM_EVENT_hard_cell) (hr (.head _)) 1
    · exact hset _
  · split
    · exact hset _
    · split
      · exact hset _
      · exact h.cnt (hr (by simp [errRegs])) 1

theorem Chip.Keeps.corrected (word byte bitpos : Nat) : c.Keeps (d.corrected u word byte bitpos) l ps := by
  have hlog := (h.cnt (hr (by simp [errRegs] : A.group u + C.ce_bytes ∈ errRegs u)) 1).logCorrected hl hm hr word byte bitpos
  exact .ite (((hlog.setMem hm _).reportPoison hl ..).put (f := R.MEM_EVENT_corrected) (hr (.head _)) 1) hlog

theorem Chip.Keeps.seeWords (w n : Nat) : c.Keeps (d.seeWords u w n) l ps :=
  h.each _ fun e _ => (Chip.Keeps.refl e).corrected hl hm hr ..

omit hm in
theorem Chip.Keeps.memUncorrectable (word sev : Nat) : c.Keeps (d.memUncorrectable u word sev) l ps :=
  ((h.reportPoison hl ..).put (f := R.MEM_EVENT_uncorrectable) (hr (.head _)) 1).cnt (hr (by simp [errRegs])) 1

theorem Chip.Keeps.readPoison (w n : Nat) : c.Keeps (d.readPoison u w n) l ps := by
  have hsee := h.seeWords hl hm hr w n
  unfold Chip.readPoison
  dsimp only
  split
  · exact hsee.memUncorrectable hl hr ..
  · exact hsee

end

end Sys2Proof.Machine
end

section
/-! SUPPORT. The operations that read in the exact-match and bridge domain windows (spec/08_exact_match.md R179, R180, R193). -/

namespace Sys2Proof.Machine

open Sys2Proof

/-- A pair's search or insert uses its held first half up. -/
def Chip.dropHold (c : Chip) (sl : Nat) (wide : Bool) : Chip := c.when wide fun c => c.setEm sl { c.emTab sl with hold := none }

section
variable {c d : Chip} {sl : Nat}

theorem Chip.SameEm.dropHold (h : c.SameEm d sl) (wide : Bool) : c.SameEm (d.dropHold sl wide) sl := by
  cases wide
  · exact h
  · exact h.setEm rfl rfl

theorem Chip.Keeps.dropHold {l : List Nat} {ps : List Part} (h : c.Keeps d l ps) (hp : .em ∈ ps) (sl : Nat) (wide : Bool) :
    c.Keeps (d.dropHold sl wide) l ps := h.when fun _ => h.setEm hp ..

theorem Chip.dropHold_em (c : Chip) (sl : Nat) (wide : Bool) :
    (c.dropHold sl wide).em = if wide then c.em.set sl { (c.emTab sl) with hold := none } else c.em := by
  cases wide <;> rfl

/-- What a search under an accord answers. -/
def Chip.searchAnswer (c : Chip) (sl : Nat) (wide : Bool) (key accord : Nat) : WinRes :=
  match (c.emMatches sl wide key accord).head? with
  | some i => { c.emReturn sl i with index := some i }
  | none => { code := 1 }

theorem Chip.SameEm.searchAnswer (h : c.SameEm d sl) (hm : d.mem = c.mem) (wide : Bool) (key accord : Nat) :
    d.searchAnswer sl wide key accord = c.searchAnswer sl wide key accord := by
  rw [Chip.searchAnswer, h.emMatches, show d.emReturn sl = c.emReturn sl from funext (h.emReturn hm), Chip.searchAnswer]

theorem Chip.searchAnswer_of_head {wide : Bool} {key accord i : Nat} (h : (c.emMatches sl wide key accord).head? = some i) :
    c.searchAnswer sl wide key accord = { c.emReturn sl i with index := some i } := by rw [Chip.searchAnswer, h]

theorem Chip.searchAnswer_of_nil {wide : Bool} {key accord : Nat} (h : c.emMatches sl wide key accord = []) :
    c.searchAnswer sl wide key accord = { code := 1 } := by rw [Chip.searchAnswer, h, List.head?_nil]

/-- A search uses the held first half of a pair up, and answers. -/
theorem Chip.emSearch_of_key {w : WinIn} {wide : Bool} {key : Nat} (h : w.emKey (c.emTab sl) = some (wide, key)) (accord : Nat) :
    c.emSearch sl accord w = (c.dropHold sl wide, c.searchAnswer sl wide key accord) := by
  have hsame : c.SameEm (c.dropHold sl wide) sl := Chip.SameEm.dropHold ⟨rfl, rfl, rfl⟩ wide
  have hmem : (c.dropHold sl wide).mem = c.mem := by cases wide <;> rfl
  rw [← hsame.searchAnswer hmem, Chip.emSearch, h, Chip.searchAnswer]
  show (match ((c.dropHold sl wide).emMatches sl wide key accord).head? with
    | some i => (c.dropHold sl wide, { (c.dropHold sl wide).emReturn sl i with index := some i })
    | none => (c.dropHold sl wide, { code := 1 })) = _
  split <;> rfl

end

/-- A loop over the members of a suite, each turn of which changes that member's table alone. -/
theorem Chip.emTab_each {F : Chip → Nat → Chip} {G : EmTable → EmTable}
    (hF : ∀ c m k, (F c m).emTab k = if k = m then G (c.emTab m) else c.emTab k) {l : List Nat} (hl : l.Nodup) (c : Chip) (k : Nat) :
    (c.each l F).emTab k = if k ∈ l then G (c.emTab k) else c.emTab k := by
  induction l generalizing c with
  | nil => simp
  | cons m l ih =>
    obtain ⟨hm, hl⟩ := List.nodup_cons.mp hl
    rw [Chip.each_cons, ih hl, hF]
    by_cases hk : k = m
    · subst hk
      simp [hm]
    · simp [hk]

/-- The table with another record of a bridge domain. -/
def EmTable.withDomain (t : EmTable) (i v : Nat) : EmTable := { t with bd := t.bd.set i (BitVec.ofNat 256 v) }

theorem Chip.emTab_bdSet {c : Chip} {sl : Nat} (hn : (c.sliceMates sl).Nodup) (i v m : Nat) :
    (c.bdSet sl i v).emTab m = if m ∈ c.sliceMates sl then (c.emTab m).withDomain i v else c.emTab m :=
  Chip.emTab_each (G := (·.withDomain i v)) (fun _ _ _ => Chip.emTab_setEm ..) hn c m

/-- The windows of a slice and the registers of the memory groups do not meet. -/
theorem emWin_not_mem_errRegs (sl u : Nat) {o : Nat} (ho : o < 0x5000) : emWin sl + o ∉ errRegs u := by
  simp only [errRegs, emWin, A.slice, A.group, R.MEM_EVENT, C.ce_bytes, C.ue_reads, C.log_lost, List.mem_cons, List.not_mem_nil, or_false]
  omega

/-- A go at a window of a slice leaves the accords. -/
theorem State.goChip_sameAccords (s : State) (sl op : Nat) : s.chip.SameAccords (s.goChip (emWin sl) op) :=
  Chip.Keeps.sameAccords (State.keeps_goChip (l := [emWin sl + 4]) (ps := [.house]) (.head _) (.head _)) fun a ha => by
    rw [List.mem_singleton.mp ha, emWin, A.slice]
    omega

section
variable {s : State} {src : Source} {sl : Nat} {w : WinIn} (hm : s.mayGo src (emWin sl) = true) (hw : s.chip.winIn src (emWin sl) = w)
include hm hw

theorem emRead_place (hi : s.chip.emIndexOk sl w.index = true) : Does (.emRead src sl) s fun t =>
    WinDone t (emWin sl) 1 (s.chip.emReturn sl w.index) ∧ t.chip.em = s.chip.em ∧
      OnlyParts s t ([emWin sl + 4, emWin sl + 8] ++ errRegs (Chip.emGroup sl w.index)) [.wins, .house, .mem, .ledger] := by
  have hgo : s.chip.Keeps (s.goChip (emWin sl) 1) [emWin sl + 4] [.house] := State.keeps_goChip (.head _) (.head _)
  have himage := hgo.image (by simp)
  have hop : Chip.emReadOp sl w (s.goChip (emWin sl) 1) =
      ((s.goChip (emWin sl) 1).readPoison (Chip.emGroup sl w.index) (s.chip.emWord sl w.index) 4, s.chip.emReturn sl w.index) := by
    rw [Chip.emReadOp, Chip.emIndexOk_of_image himage, hi, if_pos rfl, Chip.emWord_of_image himage,
      (hgo.sameEm (by simp) (by simp) sl).emReturn (hgo.mem (by simp))]
  have hread := (Chip.Keeps.refl (s.goChip (emWin sl) 1)).readPoison (l := errRegs (Chip.emGroup sl w.index)) (ps := [.mem, .ledger])
    (by simp) (by simp) (List.Subset.refl _) (s.chip.emWord sl w.index) 4
  refine does_winGo (exec_emRead ..) hm hw hop ⟨winDone_of_keeps hread ?_ (by decide) _, ?_, ?_⟩
  · exact emWin_not_mem_errRegs sl _ (by decide)
  · rw [Chip.winHeld_em, hread.em (by simp), hgo.em (by simp)]
  · exact (((State.keeps_goChip (by simp) (by simp)).readPoison (by simp) (by simp) (List.subset_append_right ..) _ _).onlyParts_winHeld
      (by simp) (by simp) _)

theorem emRead_elsewhere (hi : s.chip.emIndexOk sl w.index = false) : Does (.emRead src sl) s fun t =>
    WinDone t (emWin sl) 1 { code := 6 } ∧ OnlyParts s t [emWin sl + 4, emWin sl + 8] [.wins, .house] := by
  have hgo : s.chip.Keeps (s.goChip (emWin sl) 1) [emWin sl + 4] [.house] := State.keeps_goChip (.head _) (.head _)
  refine does_goAnswer (exec_emRead ..) hm hw (by decide) ?_
  rw [Chip.emReadOp, Chip.emIndexOk_of_image (hgo.image (by simp)), hi, if_neg Bool.false_ne_true]

/-- Either search, once its accord is known. -/
theorem does_emSearch {i : Instr} {op accord : Nat} {f : WinIn → Chip → Chip × WinRes} {wide : Bool} {key : Nat}
    (he : exec i s = s.winGo src (emWin sl) op f) (hop : op < 16)
    (hf : f w (s.goChip (emWin sl) op) = (s.goChip (emWin sl) op).emSearch sl accord w)
    (hk : w.emKey (s.chip.emTab sl) = some (wide, key)) : Does i s fun t =>
      WinDone t (emWin sl) op (s.chip.searchAnswer sl wide key accord) ∧
      t.chip.em = (if wide then s.chip.em.set sl { (s.chip.emTab sl) with hold := none } else s.chip.em) ∧
      OnlyParts s t [emWin sl + 4, emWin sl + 8] [.wins, .house, .em] := by
  have hgo : s.chip.Keeps (s.goChip (emWin sl) op) [emWin sl + 4] [.house] := State.keeps_goChip (.head _) (.head _)
  have hop' : f w (s.goChip (emWin sl) op) = ((s.goChip (emWin sl) op).dropHold sl wide, s.chip.searchAnswer sl wide key accord) := by
    rw [hf, Chip.emSearch_of_key (by rw [hgo.emTab (by simp), hk]), (hgo.sameEm (by simp) (by simp) sl).searchAnswer (hgo.mem (by simp))]
  refine does_winGo he hm hw hop' ⟨winDone_of_keeps (l := []) (ps := [.em]) ((Chip.Keeps.refl _).dropHold (by simp) sl wide)
    List.not_mem_nil hop _, ?_, ?_⟩
  · rw [Chip.winHeld_em, Chip.dropHold_em, hgo.em (by simp), hgo.emTab (by simp)]
  · exact ((State.keeps_goChip (by simp) (by simp)).dropHold (by simp) sl wide).onlyParts_winHeld (by simp) (by simp) _

theorem emSearch_answers {wide : Bool} {key : Nat} (hk : w.emKey (s.chip.emTab sl) = some (wide, key)) : Does (.emSearch src sl) s fun t =>
    WinDone t (emWin sl) 2 (s.chip.searchAnswer sl wide key s.chip.newest) ∧
    t.chip.em = (if wide then s.chip.em.set sl { (s.chip.emTab sl) with hold := none } else s.chip.em) ∧
    OnlyParts s t [emWin sl + 4, emWin sl + 8] [.wins, .house, .em] := by
  refine does_emSearch hm hw (exec_emSearch ..) (by decide) ?_ hk
  rw [Chip.emSearchOp, (State.goChip_sameAccords ..).newest]

theorem emSearchPending_answers {wide : Bool} {key : Nat} (ha : s.chip.get 0 R.ACCORD_STATUS_state ≠ 0)
    (hk : w.emKey (s.chip.emTab sl) = some (wide, key)) : Does (.emSearchPending src sl) s fun t =>
    WinDone t (emWin sl) 3 (s.chip.searchAnswer sl wide key s.chip.pendingAccord) ∧
    t.chip.em = (if wide then s.chip.em.set sl { (s.chip.emTab sl) with hold := none } else s.chip.em) ∧
    OnlyParts s t [emWin sl + 4, emWin sl + 8] [.wins, .house, .em] := by
  refine does_emSearch hm hw (exec_emSearchPending ..) (by decide) ?_ hk
  rw [Chip.emSearchPendingOp, (State.goChip_sameAccords ..).state, if_neg (show ¬ s.chip.accordState = 0 from ha),
    (State.goChip_sameAccords ..).pending]

theorem emSearchPending_closed (ha : s.chip.get 0 R.ACCORD_STATUS_state = 0) : Does (.emSearchPending src sl) s fun t =>
    WinDone t (emWin sl) 3 { code := 4 } ∧ OnlyParts s t [emWin sl + 4, emWin sl + 8] [.wins, .house] := by
  refine does_goAnswer (exec_emSearchPending ..) hm hw (by decide) ?_
  rw [Chip.emSearchPendingOp, (State.goChip_sameAccords ..).state, if_pos (show s.chip.accordState = 0 from ha)]

/-- Without a held first half a pair has no key. -/
theorem emSearch_noHold (hp : w.state / 32 % 4 = 2) (hh : (s.chip.emTab sl).hold = none) : Does (.emSearch src sl) s fun t =>
    WinDone t (emWin sl) 2 { code := 6 } ∧ OnlyParts s t [emWin sl + 4, emWin sl + 8] [.wins, .house] := by
  have hgo : s.chip.Keeps (s.goChip (emWin sl) 2) [emWin sl + 4] [.house] := State.keeps_goChip (.head _) (.head _)
  have hkey : w.emKey ((s.goChip (emWin sl) 2).emTab sl) = none := by rw [hgo.emTab (by simp), WinIn.emKey, if_pos hp, hh, Option.map_none]
  refine does_goAnswer (exec_emSearch ..) hm hw (by decide) ?_
  rw [Chip.emSearchOp, Chip.emSearch, hkey]

theorem emHoldFirst_holds : Does (.emHoldFirst src sl) s fun t => WinDone t (emWin sl) 9 { code := 0 } ∧
    t.chip.em = s.chip.em.set sl { (s.chip.emTab sl) with hold := some w.data } ∧
    OnlyParts s t [emWin sl + 4, emWin sl + 8] [.wins, .house, .em] := by
  have hgo : s.chip.Keeps (s.goChip (emWin sl) 9) [emWin sl + 4] [.house] := State.keeps_goChip (.head _) (.head _)
  refine does_winGo (exec_emHoldFirst ..) hm hw rfl ⟨winDone_of_keeps (l := []) (ps := [.em]) ((Chip.Keeps.refl _).setEm (by simp) ..)
    List.not_mem_nil (by decide) _, ?_, ((State.keeps_goChip (by simp) (by simp)).setEm (by simp) ..).onlyParts_winHeld (by simp) (by simp) _⟩
  rw [Chip.winHeld_em, Chip.setEm, hgo.em (by simp), hgo.emTab (by simp)]

end

section
variable {s : State} {src : Source} {sl : Nat} {w : WinIn} (hm : s.mayGo src (bdWin sl) = true) (hw : s.chip.winIn src (bdWin sl) = w)
include hm hw

theorem bdRead_answers : Does (.bdRead src sl) s fun t =>
    WinDone t (bdWin sl) 1 (if w.index < 4096 then { code := 0, data := some ((s.chip.emTab sl).bd.look w.index) } else { code := 6 }) ∧
    OnlyParts s t [bdWin sl + 4, bdWin sl + 8] [.wins, .house] := by
  have hgo : s.chip.Keeps (s.goChip (bdWin sl) 1) [bdWin sl + 4] [.house] := State.keeps_goChip (.head _) (.head _)
  refine does_goAnswer (exec_bdRead ..) hm hw (by decide) ?_
  rw [Chip.bdReadOp, hgo.emTab (by simp)]
  split <;> rfl

theorem bdWrite_refused (h : 4096 ≤ w.index ∨ bits w.data 29 28 = 3 ∨ bits w.data 27 16 ≠ 0) : Does (.bdWrite src sl) s fun t =>
    WinDone t (bdWin sl) 2 { code := 6 } ∧ OnlyParts s t [bdWin sl + 4, bdWin sl + 8] [.wins, .house] :=
  does_goAnswer (exec_bdWrite ..) hm hw (by decide) (if_pos (by simpa [or_assoc] using h))

theorem bdWrite_stores (hn : (s.chip.sliceMates sl).Nodup) (hi : w.index < 4096) (hres : bits w.data 29 28 ≠ 3 ∧ bits w.data 27 16 = 0) :
    Does (.bdWrite src sl) s fun t => WinDone t (bdWin sl) 2 { code := 0 } ∧
      (∀ m ∈ s.chip.sliceMates sl, t.chip.emTab m =
        { s.chip.emTab m with bd := (s.chip.emTab m).bd.set w.index (BitVec.ofNat 256 (bits w.data 31 0)) }) ∧
      (∀ m, m ∉ s.chip.sliceMates sl → t.chip.emTab m = s.chip.emTab m) ∧
      OnlyParts s t [bdWin sl + 4, bdWin sl + 8] [.wins, .house, .em] := by
  have hgo : s.chip.Keeps (s.goChip (bdWin sl) 2) [bdWin sl + 4] [.house] := State.keeps_goChip (.head _) (.head _)
  have hop : Chip.bdWriteOp sl w (s.goChip (bdWin sl) 2) = ((s.goChip (bdWin sl) 2).bdSet sl w.index (bits w.data 31 0), { code := 0 }) :=
    if_neg (by simpa using ⟨⟨hi, hres.1⟩, hres.2⟩)
  have hset : ∀ {c d : Chip} {l : List Nat} {ps : List Part}, c.Keeps d l ps → .em ∈ ps →
      c.Keeps (d.bdSet sl w.index (bits w.data 31 0)) l ps := fun h hp => h.each _ fun e _ => (Chip.Keeps.refl e).setEm hp ..
  have htab : ∀ m, ((s.goChip (bdWin sl) 2).bdSet sl w.index (bits w.data 31 0)).emTab m =
      if m ∈ s.chip.sliceMates sl then (s.chip.emTab m).withDomain w.index (bits w.data 31 0) else s.chip.emTab m := fun m => by
    have himage := Chip.sliceMates_of_image (hgo.image (by simp)) sl
    rw [Chip.emTab_bdSet (himage ▸ hn), himage, hgo.emTab (by simp)]
  refine does_winGo (exec_bdWrite ..) hm hw hop ⟨winDone_of_keeps (hset (.refl _) (List.mem_singleton.mpr rfl)) List.not_mem_nil (by decide) _,
    fun m hmem => ?_, fun m hmem => ?_, (hset (State.keeps_goChip (by simp) (by simp)) (by simp)).onlyParts_winHeld (by simp) (by simp) _⟩
  · rw [Chip.emTab_winHeld, htab, if_pos hmem, EmTable.withDomain]
  · rw [Chip.emTab_winHeld, htab, if_neg hmem]

end

/-- Settles O35: each clause is what the operation of its window answers on the device as its go leaves it. -/
theorem exactMatchWindowReads : Obligations.ExactMatchWindowReads := by
  refine ⟨fun s src sl _ hm => emRead_place hm rfl, fun s src sl _ hm => emRead_elsewhere hm rfl, fun s src sl key i wide _ hm hk hi => ?_,
    fun s src sl key wide _ hm hk hi => ?_, fun s src sl _ hm h => emSearch_noHold hm rfl h.1 h.2, fun s src sl key i wide _ hm ha hk hi => ?_,
    fun s src sl key wide _ hm ha hk hi => ?_, fun s src sl _ hm => emSearchPending_closed hm rfl, fun s src sl _ hm => emHoldFirst_holds hm rfl,
    fun s src sl _ hm => bdRead_answers hm rfl, fun s src sl _ hm hmates => bdWrite_stores hm rfl hmates.1,
    fun s src sl _ hm => bdWrite_refused hm rfl⟩
  · rw [← Chip.searchAnswer_of_head hi]
    exact emSearch_answers hm rfl hk
  · rw [← Chip.searchAnswer_of_nil hi]
    exact emSearch_answers hm rfl hk
  · rw [← Chip.searchAnswer_of_head hi]
    exact emSearchPending_answers hm rfl ha hk
  · rw [← Chip.searchAnswer_of_nil hi]
    exact emSearchPending_answers hm rfl ha hk

end Sys2Proof.Machine
end

section
/-! SUPPORT. Writes of exact-match entries (spec/08_exact_match.md R173, R180, spec/01_architecture.md R476): what a write of entries makes of a
table, and that it reaches every member's copy. -/

namespace Sys2Proof.Machine

open Sys2Proof

/-! ### A table after a write -/

/-- The table with entries written whole, and one step of the sequence number of each bucket or overflow position written. -/
def EmTable.written (t : EmTable) (ws : List (Nat × EmEntry)) : EmTable :=
  { t with entries := ws.foldl (fun es w => es.set w.1 w.2) t.entries
           seqs := (ws.map fun w => emSeqKey w.1).dedup.foldl (fun q k => q.set k ((q.look k + 1) % 65536)) t.seqs }

/-- The index of an entry, and of its other half, in one member's table. -/
def EmTable.whole (t : EmTable) (i : Nat) : List Nat :=
  if (t.entries.look i).pair = 1 then [i, i + 1] else if (t.entries.look i).pair = 2 then [i, i - 1] else [i]

theorem EmTable.mem_whole (t : EmTable) (i : Nat) : i ∈ t.whole i := by
  unfold EmTable.whole
  split
  · exact .head _
  · split <;> exact .head _

/-- Keys stepped once each. -/
theorem look_stepped (ks : List Nat) (hn : ks.Nodup) (q : Tbl Nat) (k : Nat) :
    (ks.foldl (fun q k => q.set k ((q.look k + 1) % 65536)) q).look k = if k ∈ ks then (q.look k + 1) % 65536 else q.look k := by
  induction ks generalizing q with
  | nil => simp
  | cons j ks ih =>
    obtain ⟨hj, hn⟩ := List.nodup_cons.mp hn
    rw [List.foldl_cons, ih hn, Tbl.look_set]
    by_cases hk : k = j
    · subst hk
      simp [hj]
    · simp [hk]

/-- Entries that a function gives, written at a list of places. -/
theorem look_foldl_set (is : List Nat) (g : Nat → EmEntry) (es : Tbl EmEntry) (j : Nat) :
    ((is.map fun i => (i, g i)).foldl (fun es w => es.set w.1 w.2) es).look j = if j ∈ is then g j else es.look j := by
  induction is generalizing es with
  | nil => simp
  | cons i is ih =>
    rw [List.map_cons, List.foldl_cons, ih, Tbl.look_set]
    by_cases hj : j = i
    · subst hj
      simp
    · simp [hj]

section
variable (t : EmTable)

theorem EmTable.seqs_written (ws : List (Nat × EmEntry)) (k : Nat) : (t.written ws).seqs.look k =
    if k ∈ ws.map fun w => emSeqKey w.1 then (t.seqs.look k + 1) % 65536 else t.seqs.look k := by
  rw [EmTable.written, look_stepped _ (List.nodup_dedup _)]
  simp only [List.mem_dedup]

/-- The sequence number of a place that is written steps once. -/
theorem EmTable.seqs_written_of_mem {ws : List (Nat × EmEntry)} {i : Nat} (hi : i ∈ ws.map Prod.fst) :
    (t.written ws).seqs.look (emSeqKey i) = (t.seqs.look (emSeqKey i) + 1) % 65536 := by
  obtain ⟨w, hw, rfl⟩ := List.mem_map.mp hi
  rw [EmTable.seqs_written, if_pos (List.mem_map_of_mem hw)]

theorem EmTable.entries_written (is : List Nat) (g : Nat → EmEntry) (j : Nat) :
    (t.written (is.map fun i => (i, g i))).entries.look j = if j ∈ is then g j else t.entries.look j := look_foldl_set is g _ j

/-- One entry is written. -/
theorem EmTable.written_single (i : Nat) (e : EmEntry) : t.written [(i, e)] =
    { t with entries := t.entries.set i e, seqs := t.seqs.set (emSeqKey i) ((t.seqs.look (emSeqKey i) + 1) % 65536) } := rfl

/-- Both halves of a pair are written, in one bucket. -/
theorem EmTable.written_pair {i j : Nat} (h : emSeqKey j = emSeqKey i) (e e' : EmEntry) : t.written [(i, e), (j, e')] =
    { t with entries := (t.entries.set i e).set j e', seqs := t.seqs.set (emSeqKey i) ((t.seqs.look (emSeqKey i) + 1) % 65536) } := by
  simp [EmTable.written, h]

end

/-! ### What a write changes beside the tables -/

/-- The parts of the device that a write of entries changes. -/
def emParts : List Part := [.em, .mem, .fresh, .ledger]

section
variable {c d : Chip} {l : List Nat} {ps : List Part} (h : c.Keeps d l ps)
include h

theorem Chip.Keeps.injectStep (hi : injRegs ⊆ l) (hl : .ledger ∈ ps) (u cls : Nat) : c.Keeps (d.injectStep u cls) l ps := by
  unfold Chip.injectStep
  split
  · refine .ite (.ite (h.setLedger hl _) ?_) h
    exact ((h.setLedger hl _).putGlobal (f := R.LEDGER_INJ_CTRL_arm) rfl (hi (.head _)) 0).cnt (hi (.tail _ (.head _))) 1
  · exact h

theorem Chip.Keeps.coverWord (hi : injRegs ⊆ l) (hm : .mem ∈ ps) (hf : .fresh ∈ ps) (hl : .ledger ∈ ps) (u word : Nat) :
    c.Keeps (d.coverWord u word) l ps := by
  unfold Chip.coverWord
  dsimp only
  exact .ite (((h.setFresh hf _).setMem hm _).injectStep hi hl u 0) (.ite (h.setMem hm _) h)

variable (hi : injRegs ⊆ l) (hp : emParts ⊆ ps)
include hi hp

theorem Chip.Keeps.emStore (m : Nat) (ws : List (Nat × EmEntry)) : c.Keeps (d.emStore m ws) l ps :=
  (h.setEm (hp (by simp [emParts])) m _).each ws fun e _ => (Chip.Keeps.refl e).each _ fun e _ =>
    (Chip.Keeps.refl e).coverWord hi (hp (by simp [emParts])) (hp (by simp [emParts])) (hp (by simp [emParts])) ..

end

/-- The registers that follow a slice's table. -/
theorem Chip.Keeps.syncEm {c d : Chip} {l : List Nat} {ps : List Part} (h : c.Keeps d l ps) {s : Nat} (hs : d.emRegs s ⊆ l) :
    c.Keeps (d.syncEm s) l ps := by
  have hused := h.put (f := R.EM_OCC_used) (hs (.head _)) ((d.emTab (d.emHome s)).entries.filter fun p => !(emOvf p.1) && p.2.valid).length
  have hovf := hused.put (f := R.EM_OVF_used) (hs (.tail _ (.head _))) ((d.emTab (d.emHome s)).entries.filter fun p => emOvf p.1 && p.2.valid).length
  exact hovf.when fun _ => hovf.put (f := R.EM_EVENT_ovf_high) (hs (.tail _ (.tail _ (.head _)))) 1

section
variable {c d : Chip} {l : List Nat} {ps : List Part} (h : c.Keeps d l ps) {s : Nat} (hs : d.emRegs s ⊆ l) (hi : injRegs ⊆ l)
  (hp : emParts ⊆ ps)
include h hs hi hp

theorem Chip.Keeps.emStoreAll (f : Chip → Nat → List (Nat × EmEntry)) : c.Keeps (d.emStoreAll s f) l ps := by
  have himage : (d.each (d.sliceMates s) fun c m => c.emStore m (f c m)).image = d.image :=
    Chip.Keeps.image (l := injRegs) (ps := emParts) (Chip.Keeps.each (.refl d) _ fun e m =>
      (Chip.Keeps.refl e).emStore (List.Subset.refl _) (List.Subset.refl _) m _) (by simp [emParts])
  refine Chip.Keeps.syncEm (h.each _ fun e m => (Chip.Keeps.refl e).emStore hi hp m _) ?_
  rwa [Chip.emRegs_of_image himage]

theorem Chip.Keeps.emRemove (i : Nat) : c.Keeps (d.emRemove s i) l ps := h.emStoreAll hs hi hp _

end

section
variable (c : Chip) (s : Nat)

@[simp] theorem Chip.image_emStoreAll (f : Chip → Nat → List (Nat × EmEntry)) : (c.emStoreAll s f).image = c.image :=
  Chip.Keeps.image (l := c.emRegs s ++ injRegs) (ps := emParts) (Chip.Keeps.emStoreAll (.refl c) (List.subset_append_left ..)
    (List.subset_append_right ..) (List.Subset.refl _) f) (by simp [emParts])

@[simp] theorem Chip.image_emRemove (i : Nat) : (c.emRemove s i).image = c.image := Chip.image_emStoreAll ..

/-! ### The tables after a write -/

theorem Chip.emTab_emStore (m : Nat) (ws : List (Nat × EmEntry)) (k : Nat) :
    (c.emStore m ws).emTab k = if k = m then (c.emTab m).written ws else c.emTab k := by
  have hcover : (c.setEm m ((c.emTab m).written ws)).Keeps (c.emStore m ws) injRegs [.mem, .fresh, .ledger] :=
    Chip.Keeps.each (.refl _) ws fun e _ => (Chip.Keeps.refl e).each _ fun e _ =>
      (Chip.Keeps.refl e).coverWord (List.Subset.refl _) (by simp) (by simp) (by simp) ..
  rw [hcover.emTab (by simp), Chip.emTab_setEm]

variable {c s}

/-- A write of entries that a member's own table gives reaches every member's copy. -/
theorem Chip.emTab_emStoreAll (hn : (c.sliceMates s).Nodup) (φ : EmTable → List (Nat × EmEntry)) (k : Nat) :
    (c.emStoreAll s fun c m => φ (c.emTab m)).emTab k =
      if k ∈ c.sliceMates s then (c.emTab k).written (φ (c.emTab k)) else c.emTab k := by
  have hsync : ∀ d : Chip, (d.syncEm s).emTab k = d.emTab k := fun d =>
    Chip.Keeps.emTab (l := d.emRegs s) (ps := []) (Chip.Keeps.syncEm (.refl d) (List.Subset.refl _)) List.not_mem_nil k
  rw [Chip.emStoreAll, hsync]
  exact Chip.emTab_each (G := fun t => t.written (φ t)) (fun c m k => Chip.emTab_emStore c m _ k) hn c k

/-- An entry and its other half are freed. -/
def EmTable.removed (t : EmTable) (i : Nat) : EmTable :=
  t.written ((t.whole i).map fun j => (j, { t.entries.look j with state := putBits (t.entries.look j).state 7 7 0 }))

theorem Chip.emTab_emRemove (hn : (c.sliceMates s).Nodup) (i k : Nat) :
    (c.emRemove s i).emTab k = if k ∈ c.sliceMates s then (c.emTab k).removed i else c.emTab k :=
  Chip.emTab_emStoreAll hn (fun t => (t.whole i).map fun j => (j, { t.entries.look j with state := putBits (t.entries.look j).state 7 7 0 })) k

end

/-- A state whose valid bit is cleared. -/
theorem bit_putBits_valid (v : BitVec 8) : bit (putBits v 7 7 0) 7 = false := by
  revert v
  decide

/-- A freed entry is not valid, and its sequence number has stepped. -/
theorem EmTable.removed_spec (t : EmTable) (i : Nat) : ((t.removed i).entries.look i).valid = false ∧
    (t.removed i).seqs.look (emSeqKey i) = (t.seqs.look (emSeqKey i) + 1) % 65536 := by
  refine ⟨?_, EmTable.seqs_written_of_mem _ ?_⟩
  · rw [EmTable.removed, EmTable.entries_written, if_pos (t.mem_whole i)]
    exact bit_putBits_valid _
  · simpa using t.mem_whole i

end Sys2Proof.Machine
end

section
/-! SUPPORT. Inserts of the exact-match window (spec/08_exact_match.md R179 to R184): how the accord engine judges them, and where they land. -/

namespace Sys2Proof.Machine

open Sys2Proof

/-! ### Addresses of a slice's table -/

/-- The registers that writes of entries, their log and their learn records change, beside counters of the table. -/
def Chip.engineRegs (c : Chip) (sl : Nat) : List Nat :=
  c.emRegs sl ++ injRegs ++ c.fifoRegs (c.emHome sl) ++ [R.ACCORD_LOG, R.ACCORD_STATUS]

/-- A served window belongs to the first member of its suite. -/
theorem State.emHome_of_mayGo {s : State} {src : Source} {sl : Nat} (hs : sl < 8) (hm : s.mayGo src (emWin sl) = true) : s.chip.emHome sl = sl := by
  simp only [State.mayGo, State.serves, Bool.and_eq_true] at hm
  obtain ⟨⟨⟨-, hv⟩, -⟩, -⟩ := hm
  have hslice : (emWin sl + 4 - 0x08000000) / 0x01000000 = sl := by simp only [emWin, A.slice]; omega
  have hoff : (emWin sl + 4) % 0x01000000 = 0x440004 := by simp only [emWin, A.slice]; omega
  have hlow : 0x08000000 ≤ emWin sl + 4 ∧ emWin sl + 4 < 0x10000000 := by simp only [emWin, A.slice]; omega
  have hfirst : s.chip.firstOf (U.slice sl) = true := by
    unfold Chip.visible at hv
    rw [if_neg (by omega), if_neg (by simp; omega)] at hv
    split at hv
    · exact absurd hv Bool.false_ne_true
    · rw [if_pos (by simp; omega), hslice, hoff] at hv
      exact (Bool.and_eq_true_iff.mp hv).2
  rw [Chip.emHome, eq_of_beq hfirst, U.index, U.slice]
  omega

theorem Chip.sliceCnt_of_home {c : Chip} {sl : Nat} (hh : c.emHome sl = sl) : c.sliceCnt sl = A.slice sl := congrArg A.slice hh

theorem Chip.not_mem_engineRegs {c : Chip} {sl o : Nat} (hs : sl < 8) (hh : c.emHome sl = sl) (ho : o = 0x440004 ∨ 0x440800 ≤ o) :
    A.slice sl + o ∉ c.engineRegs sl := by
  have htop : c.fifoTop sl = A.slice sl + 0x440140 := by
    have hhome : U.index (c.suiteUnit (U.slice sl)) = sl := hh
    rw [Chip.fifoTop, if_pos (by omega), Nat.mod_eq_of_lt hs, hhome, show sl / 8 * 8 + sl = sl by omega, fifoBase, if_pos hs]
  have hbase : fifoBase sl = A.slice sl + 0x440140 := by rw [fifoBase, if_pos hs]
  simp only [Chip.engineRegs, Chip.emRegs, Chip.fifoRegs, injRegs, hh, htop, hbase, A.slice, R.EM_OCC, R.EM_OVF, R.EM_EVENT, R.LEDGER_INJ_CTRL,
    C.injections, R.ACCORD_LOG, R.ACCORD_STATUS, List.mem_append, List.mem_cons, List.not_mem_nil, or_false]
  omega

theorem Chip.emWin_not_mem_engineRegs {c : Chip} {sl : Nat} (hs : sl < 8) (hh : c.emHome sl = sl) : emWin sl + 4 ∉ c.engineRegs sl := by
  rw [emWin, Nat.add_assoc]
  exact Chip.not_mem_engineRegs hs hh (.inl rfl)

/-! ### The log -/

/-- What is counted between two steps that leave the counter. -/
theorem Chip.Keeps.counted {c d e : Chip} {l l' : List Nat} {ps ps' : List Part} {a n : Nat} (h : c.Keeps d l ps) (h' : (d.cnt a n).Keeps e l' ps')
    (ha : a ∉ l) (ha' : a ∉ l') : e.reg a = c.reg a + BitVec.ofNat 64 n := by
  rw [h'.1 a ha', Chip.reg_cnt_same, h.1 a ha]

section
variable {c d : Chip} {l : List Nat} {ps : List Part} (h : c.Keeps d l ps) (hl : [R.ACCORD_LOG, R.ACCORD_STATUS] ⊆ l) (ha : .accord ∈ ps)
include h hl ha

theorem Chip.Keeps.logWrite (p : SettlePlace) (old : Validity) : c.Keeps (d.logWrite p old) l ps :=
  Chip.Keeps.putGlobal (((h.setAccord ha _).putGlobal rfl (hl (.head _)) _)) rfl (hl (.tail _ (.head _))) _

end

section
variable (c : Chip) (p : SettlePlace) (old : Validity)

@[simp] theorem Chip.accord_logWrite : (c.logWrite p old).accord =
    { c.accord with log := { place := p, valid := old.valid, vfrom := old.vfrom, vuntil := old.vuntil } :: c.accord.log } := by
  rw [Chip.logWrite, Chip.syncLog, Chip.put_accord, Chip.put_accord]

@[simp] theorem Chip.image_logWrite : (c.logWrite p old).image = c.image := by rw [Chip.logWrite, Chip.syncLog, Chip.put_image, Chip.put_image]

@[simp] theorem Chip.em_logWrite : (c.logWrite p old).em = c.em := by rw [Chip.logWrite, Chip.syncLog, Chip.put_em, Chip.put_em]

@[simp] theorem Chip.emTab_logWrite (k : Nat) : (c.logWrite p old).emTab k = c.emTab k := by rw [Chip.emTab, Chip.em_logWrite, Chip.emTab]

@[simp] theorem Chip.emTab_cnt (a n k : Nat) : (c.cnt a n).emTab k = c.emTab k := rfl

end

/-! ### An insert lands -/

/-- The device after an insert lands (R160). -/
def Chip.landed (c : Chip) (sl i : Nat) (ws : List (Nat × EmEntry)) : Chip :=
  ((c.emWriteMany sl ws).cnt (c.sliceCnt sl + C.inserts) 1).logWrite (.em sl i) (c.emAt sl i).validity

theorem Chip.emLand_eq (c : Chip) (sl i : Nat) (ws : List (Nat × EmEntry)) :
    c.emLand sl i ws = (c.landed sl i ws, some { code := 0, index := some i }) := rfl

/-- The registers that an insert which lands changes, beside those of its window. -/
def Chip.landRegs (c : Chip) (sl : Nat) : List Nat := c.emRegs sl ++ injRegs ++ [R.ACCORD_LOG, R.ACCORD_STATUS] ++ [c.sliceCnt sl + C.inserts]

/-- The parts that it changes. -/
def landParts : List Part := emParts ++ [.accord]

/-- The log's record of an entry as it stands (R160). -/
def Chip.logRec (c : Chip) (sl i : Nat) : LogRec :=
  { place := .em sl i, valid := (c.emAt sl i).valid, vfrom := (c.emAt sl i).vfrom, vuntil := (c.emAt sl i).vuntil }

theorem Chip.SameEm.logRec {c d : Chip} {sl : Nat} (h : c.SameEm d sl) (i : Nat) : d.logRec sl i = c.logRec sl i := by
  rw [Chip.logRec, h.emAt, Chip.logRec]

section
variable {c d : Chip} {sl : Nat}

theorem Chip.landRegs_of_image (h : d.image = c.image) (sl : Nat) : d.landRegs sl = c.landRegs sl := by
  rw [Chip.landRegs, Chip.emRegs_of_image h, Chip.sliceCnt_of_image h, Chip.landRegs]

theorem Chip.Keeps.landed {l : List Nat} {ps : List Part} (h : c.Keeps d l ps) (hl : d.landRegs sl ⊆ l) (hp : landParts ⊆ ps) (i : Nat)
    (ws : List (Nat × EmEntry)) : c.Keeps (d.landed sl i ws) l ps := by
  obtain ⟨hl, hcnt⟩ := List.append_subset.mp hl
  obtain ⟨hl, hlog⟩ := List.append_subset.mp hl
  obtain ⟨hem, hinj⟩ := List.append_subset.mp hl
  obtain ⟨hp, ha⟩ := List.append_subset.mp hp
  exact ((h.emStoreAll hem hinj hp _).cnt (hcnt (.head _)) 1).logWrite hlog (ha (.head _)) ..

theorem Chip.emTab_landed (hn : (c.sliceMates sl).Nodup) (i : Nat) (ws : List (Nat × EmEntry)) (k : Nat) :
    (c.landed sl i ws).emTab k = if k ∈ c.sliceMates sl then (c.emTab k).written ws else c.emTab k := by
  rw [Chip.landed, Chip.emTab_logWrite, Chip.emTab_cnt, Chip.emWriteMany]
  exact Chip.emTab_emStoreAll hn (fun _ => ws) k

/-- The device after a write of entries, before what its operation does beside. -/
theorem Chip.keeps_emStoreAll (c : Chip) (sl : Nat) (f : Chip → Nat → List (Nat × EmEntry)) :
    c.Keeps (c.emStoreAll sl f) (c.emRegs sl ++ injRegs) emParts :=
  Chip.Keeps.emStoreAll (.refl c) (List.subset_append_left ..) (List.subset_append_right ..) (List.Subset.refl _) f

theorem Chip.accord_landed (i : Nat) (ws : List (Nat × EmEntry)) : (c.landed sl i ws).accord =
    { c.accord with log := c.logRec sl i :: c.accord.log } := by
  rw [Chip.landed, Chip.accord_logWrite, Chip.cnt_accord, Chip.emWriteMany, (c.keeps_emStoreAll sl _).accord (by simp [emParts]), EmEntry.validity,
    Chip.logRec]

/-- A counter of the table is no register of the engine. -/
theorem Chip.cnt_not_mem_engineRegs {o : Nat} (hs : sl < 8) (hh : c.emHome sl = sl) (ho : 0x440800 ≤ o) :
    c.sliceCnt sl + o ∉ c.engineRegs sl := by
  rw [Chip.sliceCnt_of_home hh]
  exact Chip.not_mem_engineRegs hs hh (.inr ho)

theorem Chip.emRegs_subset_engineRegs (c : Chip) (sl : Nat) : c.emRegs sl ++ injRegs ⊆ c.engineRegs sl := by
  rw [Chip.engineRegs, List.append_assoc]
  exact List.subset_append_left ..

theorem Chip.counted_landed (hs : sl < 8) (hh : c.emHome sl = sl) (i : Nat) (ws : List (Nat × EmEntry)) :
    (c.landed sl i ws).reg (c.sliceCnt sl + C.inserts) = c.reg (c.sliceCnt sl + C.inserts) + 1 := by
  have hnot := Chip.cnt_not_mem_engineRegs (o := C.inserts) hs hh (by decide)
  exact ((c.keeps_emStoreAll sl _).mono (c.emRegs_subset_engineRegs sl)).counted (l' := c.engineRegs sl) (ps' := [.accord])
    ((Chip.Keeps.refl _).logWrite (List.subset_append_right ..) (.head _) ..) hnot hnot

theorem Chip.landRegs_subset (c : Chip) (sl : Nat) : c.landRegs sl ⊆ c.engineRegs sl ++ [c.sliceCnt sl + C.inserts] := by
  intro a ha
  simp only [Chip.landRegs, Chip.engineRegs, List.mem_append] at ha ⊢
  tauto

end

end Sys2Proof.Machine
end

section
/-! SUPPORT. What an EM_INSERT does, case by case (spec/07_accords.md R159, R160, spec/08_exact_match.md R179 to R182). -/

namespace Sys2Proof.Machine

open Sys2Proof

/-! ### The judgement -/

section
variable {c : Chip} {src : Source} {new : Validity}

/-- A new entry of the pending accord is accepted from the holder of the bound latchkey, and logged. -/
theorem Chip.judge_insert (ho : c.accordState = 1) (hb : c.holdsBound src = true) (hu : c.logUsed < 65536) (hv : new.valid = true)
    (hf : new.vfrom = c.pendingAccord) (hz : new.vuntil = 0) : c.judge src ⟨false, 0, 0⟩ new false = .accept true := by
  simp [Chip.judge, ho, hb, hv, hf, hz, accordLogCap, Nat.not_le.mpr hu]

theorem Chip.judge_unbound (h : c.accordState ≠ 1 ∨ c.holdsBound src = false) (hv : new.valid = true) :
    c.judge src ⟨false, 0, 0⟩ new false = .refuse 1 := by
  have hclosed : (!decide (c.accordState = 1) || !c.holdsBound src) = true := by simpa using h
  rw [Chip.judge, if_neg (by simp [hv]), if_pos hclosed]

end

/-- A go at a window of a slice leaves the judgement of its writes. -/
theorem State.judge_goChip (s : State) (sl op : Nat) (src : Source) (old new : Validity) (same : Bool) :
    (s.goChip (emWin sl) op).judge src old new same = s.chip.judge src old new same := by
  have hgo : s.chip.Keeps (s.goChip (emWin sl) op) [emWin sl + 4] [.house] := State.keeps_goChip (.head _) (.head _)
  have ha := s.goChip_sameAccords sl op
  have hbound : (s.goChip (emWin sl) op).holdsBound src = s.chip.holdsBound src := by
    rw [Chip.holdsBound, ha.bound, ha.latchkey, Chip.latch, hgo.ledger (by simp), Chip.holdsBound, Chip.latch]
  have hused : (s.goChip (emWin sl) op).logUsed = s.chip.logUsed := by
    rw [Chip.logUsed, hgo.accord (by simp), hgo.tcam (by simp), hgo.em (by simp), Chip.logUsed]
  simp only [Chip.judge, ha.pending, ha.live, ha.newest, ha.state, hbound, hused]

/-! ### The operation -/

/-- What an accepted insert does, the held first half of its pair used up. -/
def Chip.insertPlaced (c : Chip) (sl : Nat) (wide : Bool) (key : Nat) (first : Entry) (w : WinIn) : Chip × Option WinRes :=
  if !(c.emHolding sl wide key c.pendingAccord).isEmpty then (c, some { code := 2 })
  else if wide then
    match (c.emPairSpot sl key).orElse fun _ => c.emOvfSpot sl true with
    | some i =>
      c.emLand sl i [(i, { body := putBits first 31 0 (bits w.data 31 0), state := 0xA0 }),
        (i + 1, { body := putBits w.data 95 32 0, state := 0xC0 })]
    | none => c.emFull sl
  else c.emPlanInsert sl 0 { body := w.data, state := 0x80 }

section
variable {c : Chip} {sl : Nat} {w : WinIn} {wide : Bool} {key : Nat}

/-- Pair states 1 and 3 are bad, and 2 without a held first half. -/
theorem Chip.emInsertOp_badPair (h : w.state / 32 % 4 = 1 ∨ w.state / 32 % 4 = 3 ∨ (w.state / 32 % 4 = 2 ∧ (c.emTab sl).hold = none)) :
    Chip.emInsertOp sl w c = (c, some { code := 6 }) := by
  rw [Chip.emInsertOp, WinIn.emKey]
  obtain h | h | ⟨h, hhold⟩ := h
  · rw [if_neg (by omega)]
    simp [h]
  · rw [if_neg (by omega)]
    simp [h]
  · rw [if_pos h, hhold, Option.map_none]

theorem Chip.emInsertOp_accepted {lg : Bool} (hk : w.emKey (c.emTab sl) = some (wide, key)) (hs : w.state / 32 % 2 = 0)
    (hj : c.judge w.src ⟨false, 0, 0⟩ ⟨true, bits w.data 31 16, bits w.data 15 0⟩ false = .accept lg) :
    Chip.emInsertOp sl w c = (c.dropHold sl wide).insertPlaced sl wide key ((c.emTab sl).hold.getD 0) w := by
  have hpair : (decide (w.state / 32 % 4 = 1) || decide (w.state / 32 % 4 = 3)) = false := by simp; omega
  simp only [Chip.emInsertOp, hk, hpair, Bool.false_eq_true, if_false, hj]
  rfl

theorem Chip.emInsertOp_refused {r : Nat} (hk : w.emKey (c.emTab sl) = some (wide, key)) (hs : w.state / 32 % 2 = 0)
    (hj : c.judge w.src ⟨false, 0, 0⟩ ⟨true, bits w.data 31 16, bits w.data 15 0⟩ false = .refuse r) :
    Chip.emInsertOp sl w c = (c.refuseWrite r (emWin sl) w.index, some { code := 5 }) := by
  have hpair : (decide (w.state / 32 % 4 = 1) || decide (w.state / 32 % 4 = 3)) = false := by simp; omega
  simp only [Chip.emInsertOp, hk, hpair, Bool.false_eq_true, if_false, hj]

theorem Chip.insertPlaced_held {first : Entry} (h : c.emHolding sl wide key c.pendingAccord ≠ []) :
    c.insertPlaced sl wide key first w = (c, some { code := 2 }) := by
  rw [Chip.insertPlaced, if_pos (by simpa using h)]

theorem Chip.insertPlaced_single {first : Entry} (h : c.emHolding sl false key c.pendingAccord = []) :
    c.insertPlaced sl false key first w = c.emPlanInsert sl 0 { body := w.data, state := 0x80 } := by
  rw [Chip.insertPlaced, if_neg (by simp [h]), if_neg Bool.false_ne_true]

theorem Chip.insertPlaced_pair {first : Entry} {i : Nat} (h : c.emHolding sl true key c.pendingAccord = []) (hi : c.emPairSpot sl key = some i) :
    c.insertPlaced sl true key first w = c.emLand sl i [(i, { body := putBits first 31 0 (bits w.data 31 0), state := 0xA0 }),
      (i + 1, { body := putBits w.data 95 32 0, state := 0xC0 })] := by
  rw [Chip.insertPlaced, if_neg (by simp [h]), if_pos rfl, hi, Option.orElse_some]

/-! ### The plan of a single entry -/

/-- The table of a slice whose plans have moved on. -/
def EmTable.turned (t : EmTable) : EmTable := { t with rot := t.rot + 1 }

theorem Chip.emPlanInsert_lands {e : EmEntry} {b i : Nat} (h : c.emSpot sl e.key = some i) : c.emPlanInsert sl b e = c.emLand sl i [(i, e)] := by
  rw [Chip.emPlanInsert, h]

/-- The device whose plans have moved on shows the same entries. -/
theorem Chip.sameEm_turned (c : Chip) (sl : Nat) : c.SameEm (c.setEm sl (c.emTab sl).turned) sl := Chip.SameEm.setEm ⟨rfl, rfl, rfl⟩ rfl rfl

theorem Chip.sameAccords_turned (c : Chip) (sl : Nat) : c.SameAccords (c.setEm sl (c.emTab sl).turned) :=
  Chip.Keeps.sameAccords (l := []) (ps := [.em]) ((Chip.Keeps.refl c).setEm (by simp) ..) (by simp)

/-- An insert without a free place, planned on the device whose plans have moved on from `rot`. -/
def Chip.planMoves (d : Chip) (sl rot b : Nat) (e : EmEntry) : Chip × Option WinRes :=
  match d.emMoveChain sl rot e.key with
  | some (f, path) => (d.setEm sl { d.emTab sl with job := some ⟨e, path, f, path.map (d.emSeq sl), b⟩ }, none)
  | none =>
    match d.emOvfSpot sl false with
    | some i => d.emLand sl i [(i, e)]
    | none => d.emFull sl

theorem Chip.emPlanInsert_moves {e : EmEntry} {b : Nat} (h : c.emSpot sl e.key = none) :
    c.emPlanInsert sl b e = (c.setEm sl (c.emTab sl).turned).planMoves sl (c.emTab sl).rot b e := by
  rw [Chip.emPlanInsert, h]
  rfl

theorem Chip.emPlanInsert_waits {e : EmEntry} {b x : Nat} {path : List Nat} (h : c.emSpot sl e.key = none)
    (hm : c.emMoveChain sl (c.emTab sl).rot e.key = some (x, path)) :
    c.emPlanInsert sl b e = ((c.setEm sl (c.emTab sl).turned).setEm sl
      { (c.emTab sl).turned with job := some ⟨e, path, x, path.map (c.emSeq sl), b⟩ }, none) := by
  have hsame := c.sameEm_turned sl
  have hseq : (c.setEm sl (c.emTab sl).turned).emSeq sl = c.emSeq sl := funext hsame.emSeq
  rw [Chip.emPlanInsert_moves h, Chip.planMoves, hsame.emMoveChain (c.sameAccords_turned sl), hm, hseq, Chip.emTab_setEm, if_pos rfl]

theorem Chip.emPlanInsert_full {e : EmEntry} {b : Nat} (h : c.emSpot sl e.key = none) (hm : c.emMoveChain sl (c.emTab sl).rot e.key = none)
    (ho : c.emOvfSpot sl false = none) : c.emPlanInsert sl b e = (c.setEm sl (c.emTab sl).turned).emFull sl := by
  have hsame := c.sameEm_turned sl
  have ha := c.sameAccords_turned sl
  rw [Chip.emPlanInsert_moves h, Chip.planMoves, hsame.emMoveChain ha, hm, hsame.emOvfSpot ha, ho]

end

end Sys2Proof.Machine
end

section
/-! SUPPORT. EM_INSERT carried out in its window (spec/08_exact_match.md R179 to R182, spec/20_host_interface.md R436). -/

namespace Sys2Proof.Machine

open Sys2Proof

/-! ### A refused write -/

/-- The registers in which the accord engine shows a refused write. -/
def refusalRegs : List Nat := [R.ACCORD_REFUSAL, R.ACCORD_REFUSAL_INDEX, R.ACCORD_EVENT, C.refused_writes]

theorem Chip.Keeps.refuseWrite {c d : Chip} {l : List Nat} {ps : List Part} (h : c.Keeps d l ps) (hl : refusalRegs ⊆ l) (r win i : Nat) :
    c.Keeps (d.refuseWrite r win i) l ps :=
  ((((h.putGlobal (a := R.ACCORD_REFUSAL) rfl (hl (by simp [refusalRegs])) _).putGlobal (a := R.ACCORD_REFUSAL) rfl (hl (by simp [refusalRegs])) _)
    |>.putGlobal (a := R.ACCORD_REFUSAL_INDEX) rfl (hl (by simp [refusalRegs])) _).putGlobal (a := R.ACCORD_EVENT) rfl
    (hl (by simp [refusalRegs])) _).cnt (hl (by simp [refusalRegs])) 1

section
variable (c : Chip) (win i : Nat)

theorem Chip.rule_refuseWrite {r : Nat} (hr : r < 8) : (c.refuseWrite r win i).get 0 R.ACCORD_REFUSAL_rule = r := by
  rw [Chip.refuseWrite, Chip.get_cnt _ _ _ _ _ (by decide), Chip.get_put_reg _ _ _ _ _ _ (by decide), Chip.get_put_reg _ _ _ _ _ _ (by decide),
    Chip.get_put_field _ _ _ _ _ _ (by decide), Chip.get_put_same _ _ _ _ (by decide)]
  exact Nat.mod_eq_of_lt hr

theorem Chip.refused_refuseWrite (r : Nat) : (c.refuseWrite r win i).get 0 R.ACCORD_EVENT_refused = 1 := by
  rw [Chip.refuseWrite, Chip.get_cnt _ _ _ _ _ (by decide), Chip.get_put_same _ _ _ _ (by decide)]
  rfl

theorem Chip.counted_refuseWrite (r : Nat) : (c.refuseWrite r win i).reg C.refused_writes = c.reg C.refused_writes + 1 := by
  rw [Chip.refuseWrite, Chip.reg_cnt_same, Chip.reg_put_ne _ _ _ _ _ (by decide), Chip.reg_put_ne _ _ _ _ _ (by decide),
    Chip.reg_put_ne _ _ _ _ _ (by decide), Chip.reg_put_ne _ _ _ _ _ (by decide)]
  rfl

end

/-- A window of a slice does not meet the registers of the device. -/
theorem emWin_add_ne {a : Nat} (sl o : Nat) (ha : a < 0x08000000) : a ≠ emWin sl + o := by
  simp only [emWin, A.slice]
  omega

section
variable {s : State} {src : Source} {sl : Nat} {w : WinIn} (hm : s.mayGo src (emWin sl) = true) (hw : s.chip.winIn src (emWin sl) = w)
include hm hw

/-- A write in the window that the accord engine refuses. -/
theorem does_refused {i : Instr} {op r : Nat} {f : WinIn → Chip → Chip × Option WinRes}
    (he : exec i s = s.bus src (emWin sl + 4) true fun c => c.winLater src (emWin sl) op f) (hop : op < 16) (hr : r < 8)
    (hf : f w (s.goChip (emWin sl) op) = ((s.goChip (emWin sl) op).refuseWrite r (emWin sl) w.index, some { code := 5 })) : Does i s fun t =>
      WinDone t (emWin sl) op { code := 5 } ∧ t.chip.get 0 R.ACCORD_REFUSAL_rule = r ∧ t.chip.get 0 R.ACCORD_EVENT_refused = 1 ∧
      t.chip.reg C.refused_writes = s.chip.reg C.refused_writes + 1 ∧
      OnlyParts s t ([emWin sl + 4, emWin sl + 8] ++ refusalRegs) [.wins, .house] := by
  have hgo : s.chip.Keeps (s.goChip (emWin sl) op) [emWin sl + 4] [.house] := State.keeps_goChip (.head _) (.head _)
  refine does_winLater he hm hw hf ⟨winDone_of_keeps (l := refusalRegs) (ps := []) (Chip.Keeps.refuseWrite (.refl _) (List.Subset.refl _) ..)
    ?_ hop _, ?_, ?_, ?_, ?_⟩
  · simp only [refusalRegs, List.mem_cons, List.not_mem_nil, or_false, not_or]
    exact ⟨(emWin_add_ne _ _ (by decide)).symm, (emWin_add_ne _ _ (by decide)).symm, (emWin_add_ne _ _ (by decide)).symm,
      (emWin_add_ne _ _ (by decide)).symm⟩
  · rw [Chip.get_winHeld _ _ _ (emWin_add_ne _ _ (by decide)), Chip.rule_refuseWrite _ _ _ hr]
  · rw [Chip.get_winHeld _ _ _ (emWin_add_ne _ _ (by decide)), Chip.refused_refuseWrite]
  · rw [Chip.reg_winHeld _ _ _ (emWin_add_ne _ _ (by decide)), Chip.counted_refuseWrite,
      hgo.1 _ (by rw [List.mem_singleton]; exact emWin_add_ne _ _ (by decide))]
  · exact ((State.keeps_goChip (by simp) (by simp)).refuseWrite (List.subset_append_right ..) _ _ _).onlyParts_winHeld (by simp) (by simp) _

/-- The same, of an operation that has its result at once. -/
theorem does_goRefused {i : Instr} {op r : Nat} {f : WinIn → Chip → Chip × WinRes} (he : exec i s = s.winGo src (emWin sl) op f) (hop : op < 16)
    (hr : r < 8) (hf : f w (s.goChip (emWin sl) op) = ((s.goChip (emWin sl) op).refuseWrite r (emWin sl) w.index, { code := 5 })) :
    Does i s fun t => WinDone t (emWin sl) op { code := 5 } ∧ t.chip.get 0 R.ACCORD_REFUSAL_rule = r ∧ t.chip.get 0 R.ACCORD_EVENT_refused = 1 ∧
      t.chip.reg C.refused_writes = s.chip.reg C.refused_writes + 1 ∧
      OnlyParts s t ([emWin sl + 4, emWin sl + 8] ++ refusalRegs) [.wins, .house] :=
  does_refused (f := fun w c => ((f w c).1, some (f w c).2)) hm hw he hop hr (by rw [hf])

end

/-! ### An insert -/

@[simp] theorem Chip.emTab_dropHold (c : Chip) (sl : Nat) (wide : Bool) (m : Nat) : (c.dropHold sl wide).emTab m =
    if wide = true ∧ m = sl then { c.emTab sl with hold := none } else c.emTab m := by
  cases wide
  · simp [Chip.dropHold]
  · simp [Chip.dropHold]

section
variable {s : State} {sl op o : Nat}

/-- The window of an operation of the table that has its result at once. -/
theorem winDone_of_engine (hs : sl < 8) (hh : s.chip.emHome sl = sl) {d : Chip} {ps : List Part}
    (h : (s.goChip (emWin sl) op).Keeps d (s.chip.engineRegs sl ++ [s.chip.sliceCnt sl + o]) ps) (ho : 0x440800 ≤ o) (hop : op < 16) (r : WinRes) :
    WinDone { s with chip := d.winHeld (emWin sl) (some r) } (emWin sl) op r := by
  refine winDone_of_keeps h ?_ hop r
  rw [List.mem_append, List.mem_singleton, not_or, Chip.sliceCnt_of_home hh]
  exact ⟨Chip.emWin_not_mem_engineRegs hs hh, by rw [emWin]; omega⟩

/-- The count of an operation of the table, its window apart. -/
theorem reg_winHeld_cnt (hh : s.chip.emHome sl = sl) (ho : 0x440800 ≤ o) (d : Chip) (r : Option WinRes) :
    (d.winHeld (emWin sl) r).reg (s.chip.sliceCnt sl + o) = d.reg (s.chip.sliceCnt sl + o) := by
  refine Chip.reg_winHeld _ _ _ ?_
  rw [Chip.sliceCnt_of_home hh, emWin]
  omega

theorem reg_goChip_cnt (hh : s.chip.emHome sl = sl) (ho : 0x440800 ≤ o) :
    (s.goChip (emWin sl) op).reg (s.chip.sliceCnt sl + o) = s.chip.reg (s.chip.sliceCnt sl + o) := by
  have hgo : s.chip.Keeps (s.goChip (emWin sl) op) [emWin sl + 4] [.house] := State.keeps_goChip (.head _) (.head _)
  refine hgo.1 _ ?_
  rw [List.mem_singleton, Chip.sliceCnt_of_home hh, emWin]
  omega

end

section
variable {s : State} {src : Source} {sl : Nat} {w : WinIn} (hs : sl < 8) (hm : s.mayGo src (emWin sl) = true)
  (hw : s.chip.winIn src (emWin sl) = w)
include hs hm hw

/-- An insert that lands. -/
theorem does_landed (hn : (s.chip.sliceMates sl).Nodup) {wide : Bool} {i : Nat} {ws : List (Nat × EmEntry)}
    (hop : Chip.emInsertOp sl w (s.goChip (emWin sl) 4) = ((s.goChip (emWin sl) 4).dropHold sl wide).emLand sl i ws) :
    Does (.emInsert src sl) s fun t => WinDone t (emWin sl) 4 { code := 0, index := some i } ∧
      (∀ m, t.chip.emTab m =
        if m ∈ s.chip.sliceMates sl then ((s.chip.dropHold sl wide).emTab m).written ws else (s.chip.dropHold sl wide).emTab m) ∧
      t.chip.accord = { s.chip.accord with log := s.chip.logRec sl i :: s.chip.accord.log } ∧
      t.chip.reg (s.chip.sliceCnt sl + C.inserts) = s.chip.reg (s.chip.sliceCnt sl + C.inserts) + 1 ∧
      OnlyParts s t ([emWin sl + 4, emWin sl + 8] ++ s.chip.landRegs sl) ([.wins, .house] ++ landParts) := by
  have hgo : s.chip.Keeps (s.goChip (emWin sl) 4) [emWin sl + 4] [.house] := State.keeps_goChip (.head _) (.head _)
  have hhome := State.emHome_of_mayGo hs hm
  have hfrom : (s.goChip (emWin sl) 4).Keeps ((s.goChip (emWin sl) 4).dropHold sl wide) [] [.em] := (Chip.Keeps.refl _).dropHold (.head _) sl wide
  have himage : ((s.goChip (emWin sl) 4).dropHold sl wide).image = s.chip.image := (hfrom.image (by simp)).trans (hgo.image (by simp))
  have hsame : s.chip.SameEm ((s.goChip (emWin sl) 4).dropHold sl wide) sl := (hgo.sameEm (by simp) (by simp) sl).dropHold wide
  have hregs := Chip.landRegs_of_image himage sl
  have hcnt := Chip.sliceCnt_of_image himage sl
  refine does_winLater (exec_emInsert ..) hm hw (hop.trans (Chip.emLand_eq ..))
    ⟨winDone_of_engine (o := C.inserts) (ps := landParts) hs hhome ?_ (by simp [C.inserts]) (by decide) _, fun m => ?_, ?_, ?_, ?_⟩
  · exact ((Chip.Keeps.refl _).dropHold (by simp [landParts, emParts]) sl wide).landed
      (by rw [hregs]; exact s.chip.landRegs_subset sl) (List.Subset.refl _) ..
  · rw [Chip.emTab_winHeld, Chip.emTab_landed (by rwa [Chip.sliceMates_of_image himage]), Chip.sliceMates_of_image himage]
    simp only [Chip.emTab_dropHold, hgo.emTab (show Part.em ∉ [.house] by simp)]
  · rw [Chip.winHeld_accord, Chip.accord_landed, hfrom.accord (by simp), hgo.accord (by simp), hsame.logRec]
  · rw [reg_winHeld_cnt hhome (by simp [C.inserts]), ← hcnt, Chip.counted_landed hs ((Chip.emHome_of_image himage sl).trans hhome), hcnt,
      hfrom.1 _ List.not_mem_nil, reg_goChip_cnt hhome (by simp [C.inserts])]
  · exact (((State.keeps_goChip (by simp) (by simp)).dropHold (by simp [landParts, emParts]) sl wide).landed
      (by rw [hregs]; exact List.subset_append_right ..) (List.subset_append_right ..) ..).onlyParts_winHeld (by simp) (by simp) _

end

end Sys2Proof.Machine
end

section
/-! SUPPORT. The outcomes of an EM_INSERT (spec/08_exact_match.md R179 to R182). -/

namespace Sys2Proof.Machine

open Sys2Proof

theorem Chip.dropHold_false (c : Chip) (sl : Nat) : c.dropHold sl false = c := rfl

/-! ### A full table -/

/-- The registers in which an insert without a place is counted. -/
def Chip.fullRegs (c : Chip) (sl : Nat) : List Nat := [c.sliceCnt sl + C.insert_fail, A.slice sl + R.EM_EVENT]

/-- The device after an insert found no place. -/
def Chip.tableFull (c : Chip) (sl : Nat) : Chip := (c.cnt (c.sliceCnt sl + C.insert_fail) 1).put (A.slice sl) R.EM_EVENT_insert_fail 1

theorem Chip.emFull_eq (c : Chip) (sl : Nat) : c.emFull sl = (c.tableFull sl, some { code := 3 }) := rfl

section
variable {c d : Chip} {sl : Nat}

theorem Chip.fullRegs_of_image (h : d.image = c.image) (sl : Nat) : d.fullRegs sl = c.fullRegs sl := by
  rw [Chip.fullRegs, Chip.sliceCnt_of_image h, Chip.fullRegs]

theorem Chip.Keeps.tableFull {l : List Nat} {ps : List Part} (h : c.Keeps d l ps) (hl : d.fullRegs sl ⊆ l) : c.Keeps (d.tableFull sl) l ps :=
  (h.cnt (hl (.head _)) 1).put (f := R.EM_EVENT_insert_fail) (hl (.tail _ (.head _))) 1

theorem Chip.emTab_tableFull (k : Nat) : (c.tableFull sl).emTab k = c.emTab k :=
  Chip.Keeps.emTab (ps := []) (Chip.Keeps.tableFull (.refl c) (List.Subset.refl _)) List.not_mem_nil k

theorem Chip.counted_tableFull (hh : c.emHome sl = sl) :
    (c.tableFull sl).reg (c.sliceCnt sl + C.insert_fail) = c.reg (c.sliceCnt sl + C.insert_fail) + 1 := by
  refine Chip.Keeps.counted (l := []) (ps := []) (l' := [A.slice sl + R.EM_EVENT]) (ps' := []) (.refl c)
    (Chip.Keeps.put (f := R.EM_EVENT_insert_fail) (.refl _) (.head _) 1) List.not_mem_nil ?_
  rw [List.mem_singleton, Chip.sliceCnt_of_home hh, C.insert_fail, R.EM_EVENT]
  omega

theorem Chip.event_tableFull : (c.tableFull sl).get (A.slice sl) R.EM_EVENT_insert_fail = 1 :=
  Chip.get_put_same _ (A.slice sl) R.EM_EVENT_insert_fail 1 (by decide)

end

/-! ### What the operation sees on the device as its go leaves it -/

section
variable (s : State) (sl op : Nat) (wide : Bool)

theorem State.keeps_goDropped : s.chip.Keeps ((s.goChip (emWin sl) op).dropHold sl wide) [emWin sl + 4] [.house, .em] :=
  (State.keeps_goChip (.head _) (.head _)).dropHold (by simp) sl wide

theorem State.sameEm_goDropped : s.chip.SameEm ((s.goChip (emWin sl) op).dropHold sl wide) sl :=
  Chip.SameEm.dropHold (Chip.Keeps.sameEm (l := [emWin sl + 4]) (ps := [.house]) (State.keeps_goChip (.head _) (.head _)) (by simp) (by simp) sl) wide

theorem State.sameAccords_goDropped : s.chip.SameAccords ((s.goChip (emWin sl) op).dropHold sl wide) :=
  (s.keeps_goDropped sl op wide).sameAccords fun a ha => by
    rw [List.mem_singleton.mp ha, emWin, A.slice]
    omega

end

section
variable {s : State} {src : Source} {sl : Nat} {w : WinIn} (hw : s.chip.winIn src (emWin sl) = w)

theorem State.emInsertOp_refused {r : Nat} {wide : Bool} {key : Nat} (hk : w.emKey (s.chip.emTab sl) = some (wide, key)) (hp : w.state / 32 % 2 = 0)
    (hj : s.chip.judge w.src ⟨false, 0, 0⟩ ⟨true, bits w.data 31 16, bits w.data 15 0⟩ false = .refuse r) :
    Chip.emInsertOp sl w (s.goChip (emWin sl) 4) = ((s.goChip (emWin sl) 4).refuseWrite r (emWin sl) w.index, some { code := 5 }) := by
  have hgo : s.chip.Keeps (s.goChip (emWin sl) 4) [emWin sl + 4] [.house] := State.keeps_goChip (.head _) (.head _)
  exact Chip.emInsertOp_refused (by rw [hgo.emTab (by simp), hk]) hp (by rw [State.judge_goChip, hj])

variable (ha : s.chip.get 0 R.ACCORD_STATUS_state = 1 ∧ s.chip.holdsBound src = true ∧ s.chip.logUsed < 65536)
  (hv : bits w.data 31 16 = s.chip.pendingAccord ∧ bits w.data 15 0 = 0)
include hw ha hv

/-- An insert under the accord in hand is accepted. -/
theorem State.emInsertOp_goChip {wide : Bool} {key : Nat} (hk : w.emKey (s.chip.emTab sl) = some (wide, key)) (hp : w.state / 32 % 2 = 0) :
    Chip.emInsertOp sl w (s.goChip (emWin sl) 4) =
      ((s.goChip (emWin sl) 4).dropHold sl wide).insertPlaced sl wide key ((s.chip.emTab sl).hold.getD 0) w := by
  have hgo : s.chip.Keeps (s.goChip (emWin sl) 4) [emWin sl + 4] [.house] := State.keeps_goChip (.head _) (.head _)
  have hsrc : w.src = src := hw ▸ rfl
  obtain ⟨hopen, hbound, hused⟩ := ha
  have htab := hgo.emTab (by simp) sl
  rw [Chip.emInsertOp_accepted (by rw [htab, hk]) hp (by rw [State.judge_goChip, hsrc, Chip.judge_insert hopen hbound hused rfl hv.1 hv.2]), htab]

theorem State.emInsertOp_held {wide : Bool} {key : Nat} (hk : w.emKey (s.chip.emTab sl) = some (wide, key)) (hp : w.state / 32 % 2 = 0)
    (hh : s.chip.emHolding sl wide key s.chip.pendingAccord ≠ []) :
    Chip.emInsertOp sl w (s.goChip (emWin sl) 4) = ((s.goChip (emWin sl) 4).dropHold sl wide, some { code := 2 }) := by
  rw [State.emInsertOp_goChip hw ha hv hk hp, Chip.insertPlaced_held]
  rwa [(s.sameEm_goDropped sl 4 wide).emHolding, (s.sameAccords_goDropped sl 4 wide).pending]

theorem State.emInsertOp_single (hp : w.state / 32 % 4 = 0) (hh : s.chip.emHolding sl false (bits w.data 255 96) s.chip.pendingAccord = []) :
    Chip.emInsertOp sl w (s.goChip (emWin sl) 4) = (s.goChip (emWin sl) 4).emPlanInsert sl 0 { body := w.data, state := 0x80 } := by
  have hk : w.emKey (s.chip.emTab sl) = some (false, bits w.data 255 96) := by rw [WinIn.emKey, if_neg (by omega)]
  rw [State.emInsertOp_goChip hw ha hv hk (by omega), Chip.insertPlaced_single, Chip.dropHold_false]
  · rwa [(s.sameEm_goDropped sl 4 false).emHolding, (s.sameAccords_goDropped sl 4 false).pending]

theorem State.emInsertOp_pair {h : Entry} {key i : Nat} (hp : w.state / 32 % 4 = 2) (hhold : (s.chip.emTab sl).hold = some h)
    (hkey : key = bits h 255 96 * 2 ^ 160 + bits w.data 255 96) (hh : s.chip.emHolding sl true key s.chip.pendingAccord = [])
    (hi : s.chip.emPairSpot sl key = some i) : Chip.emInsertOp sl w (s.goChip (emWin sl) 4) =
      ((s.goChip (emWin sl) 4).dropHold sl true).emLand sl i [(i, { body := putBits h 31 0 (bits w.data 31 0), state := 0xA0 }),
        (i + 1, { body := putBits w.data 95 32 0, state := 0xC0 })] := by
  have hsame := s.sameEm_goDropped sl 4 true
  have hacc := s.sameAccords_goDropped sl 4 true
  have hk : w.emKey (s.chip.emTab sl) = some (true, key) := by rw [WinIn.emKey, if_pos hp, hhold, Option.map_some, hkey]
  rw [State.emInsertOp_goChip hw ha hv hk (by omega), Chip.insertPlaced_pair (i := i), hhold, Option.getD_some]
  · rwa [hsame.emHolding, hacc.pending]
  · rwa [hsame.emPairSpot hacc]

end

/-! ### The clauses -/

section
variable {s : State} {src : Source} {sl : Nat} {w : WinIn} (hs : sl < 8) (hm : s.mayGo src (emWin sl) = true)
  (hw : s.chip.winIn src (emWin sl) = w)
include hm hw

theorem emInsert_badPair (h : w.state / 32 % 4 = 1 ∨ w.state / 32 % 4 = 3 ∨ (w.state / 32 % 4 = 2 ∧ (s.chip.emTab sl).hold = none)) :
    Does (.emInsert src sl) s fun t => WinDone t (emWin sl) 4 { code := 6 } ∧ OnlyParts s t [emWin sl + 4, emWin sl + 8] [.wins, .house] := by
  have hgo : s.chip.Keeps (s.goChip (emWin sl) 4) [emWin sl + 4] [.house] := State.keeps_goChip (.head _) (.head _)
  exact does_winAnswer (exec_emInsert ..) hm hw (by decide) (Chip.emInsertOp_badPair (by rwa [hgo.emTab (by simp)]))

theorem emInsert_unbound (hp : w.state / 32 % 4 = 0) (hj : s.chip.get 0 R.ACCORD_STATUS_state ≠ 1 ∨ s.chip.holdsBound src = false) :
    Does (.emInsert src sl) s fun t => WinDone t (emWin sl) 4 { code := 5 } ∧ t.chip.get 0 R.ACCORD_REFUSAL_rule = 1 ∧
      t.chip.get 0 R.ACCORD_EVENT_refused = 1 ∧ t.chip.reg C.refused_writes = s.chip.reg C.refused_writes + 1 ∧
      OnlyParts s t ([emWin sl + 4, emWin sl + 8] ++ refusalRegs) [.wins, .house] := by
  have hk : w.emKey (s.chip.emTab sl) = some (false, bits w.data 255 96) := by rw [WinIn.emKey, if_neg (by omega)]
  have hsrc : w.src = src := hw ▸ rfl
  exact does_refused hm hw (exec_emInsert ..) (by decide) (by decide)
    (State.emInsertOp_refused hk (by omega) (by rw [hsrc, Chip.judge_unbound hj rfl]))

variable (ha : s.chip.get 0 R.ACCORD_STATUS_state = 1 ∧ s.chip.holdsBound src = true ∧ s.chip.logUsed < 65536)
  (hv : bits w.data 31 16 = s.chip.pendingAccord ∧ bits w.data 15 0 = 0)
include ha hv

theorem emInsert_held {wide : Bool} {key : Nat} (hp : w.state / 32 % 2 = 0) (hk : w.emKey (s.chip.emTab sl) = some (wide, key))
    (hh : s.chip.emHolding sl wide key s.chip.pendingAccord ≠ []) : Does (.emInsert src sl) s fun t => WinDone t (emWin sl) 4 { code := 2 } ∧
      t.chip.em = (if wide then s.chip.em.set sl { (s.chip.emTab sl) with hold := none } else s.chip.em) ∧
      OnlyParts s t [emWin sl + 4, emWin sl + 8] [.wins, .house, .em] := by
  have hgo : s.chip.Keeps (s.goChip (emWin sl) 4) [emWin sl + 4] [.house] := State.keeps_goChip (.head _) (.head _)
  refine does_winLater (exec_emInsert ..) hm hw (State.emInsertOp_held hw ha hv hk hp hh)
    ⟨winDone_of_keeps (l := []) (ps := [.em]) ((Chip.Keeps.refl _).dropHold (by simp) sl wide) List.not_mem_nil (by decide) _, ?_, ?_⟩
  · rw [Chip.winHeld_em, Chip.dropHold_em, hgo.em (by simp), hgo.emTab (by simp)]
  · exact ((State.keeps_goChip (by simp) (by simp)).dropHold (by simp) sl wide).onlyParts_winHeld (by simp) (by simp) _

section
variable (hp : w.state / 32 % 4 = 0) (hh : s.chip.emHolding sl false (bits w.data 255 96) s.chip.pendingAccord = [])
include hp hh

include hs in
theorem emInsert_lands (hn : (s.chip.sliceMates sl).Nodup) {i : Nat} {e : EmEntry} (he : e = { body := w.data, state := 0x80 })
    (hi : s.chip.emSpot sl (bits w.data 255 96) = some i) : Does (.emInsert src sl) s fun t =>
      WinDone t (emWin sl) 4 { code := 0, index := some i } ∧
      (∀ m ∈ s.chip.sliceMates sl, t.chip.emTab m = (s.chip.emTab m).written [(i, e)]) ∧
      (∀ m, m ∉ s.chip.sliceMates sl → t.chip.emTab m = s.chip.emTab m) ∧
      t.chip.accord = { s.chip.accord with log := s.chip.logRec sl i :: s.chip.accord.log } ∧
      t.chip.reg (s.chip.sliceCnt sl + C.inserts) = s.chip.reg (s.chip.sliceCnt sl + C.inserts) + 1 ∧
      OnlyParts s t ([emWin sl + 4, emWin sl + 8] ++ s.chip.landRegs sl) ([.wins, .house] ++ landParts) := by
  have hgo : s.chip.Keeps (s.goChip (emWin sl) 4) [emWin sl + 4] [.house] := State.keeps_goChip (.head _) (.head _)
  have hspot := ((hgo.sameEm (by simp) (by simp) sl).emSpot (s.goChip_sameAccords sl 4) (bits w.data 255 96)).trans hi
  have hop : Chip.emInsertOp sl w (s.goChip (emWin sl) 4) = ((s.goChip (emWin sl) 4).dropHold sl false).emLand sl i [(i, e)] := by
    rw [State.emInsertOp_single hw ha hv hp hh, he, Chip.dropHold_false, Chip.emPlanInsert_lands (i := i)]
    exact hspot
  refine (does_landed hs hm hw hn hop).mono fun t ⟨hdone, htab, hlog, hcnt, honly⟩ =>
    ⟨hdone, fun m hmem => ?_, fun m hmem => ?_, hlog, hcnt, honly⟩
  · rw [htab, if_pos hmem, Chip.emTab_dropHold, if_neg (by simp)]
  · rw [htab, if_neg hmem, Chip.emTab_dropHold, if_neg (by simp)]

section
variable (hi : s.chip.emSpot sl (bits w.data 255 96) = none)
include hi

theorem emInsert_waits {x : Nat} {path : List Nat}
    (hc : s.chip.emMoveChain sl (s.chip.emTab sl).rot (bits w.data 255 96) = some (x, path)) : Does (.emInsert src sl) s fun t =>
      t.chip.get (emWin sl + 8) R.WIN_STATUS_busy = 1 ∧ t.chip.wins.look (emWin sl) = none ∧
      t.chip.emTab sl = { (s.chip.emTab sl).turned with
        job := some { entry := { body := w.data, state := 0x80 }, path := path, target := x, seqs := path.map (s.chip.emSeq sl) } } ∧
      (∀ m, m ≠ sl → t.chip.emTab m = s.chip.emTab m) ∧ OnlyParts s t [emWin sl + 4, emWin sl + 8] [.wins, .house, .em] := by
  have hgo : s.chip.Keeps (s.goChip (emWin sl) 4) [emWin sl + 4] [.house] := State.keeps_goChip (.head _) (.head _)
  have hsame := hgo.sameEm (by simp) (by simp) sl
  have hacc := s.goChip_sameAccords sl 4
  have hop := (State.emInsertOp_single hw ha hv hp hh).trans (Chip.emPlanInsert_waits (x := x) (path := path)
    ((hsame.emSpot hacc _).trans hi) (by rw [hsame.emMoveChain hacc, hgo.emTab (by simp)]; exact hc))
  refine does_winLater (exec_emInsert ..) hm hw hop ⟨Chip.busy_winHeld .., Chip.look_winHeld .., ?_, fun m hne => ?_, ?_⟩
  · rw [Chip.emTab_winHeld, Chip.emTab_setEm, if_pos rfl, hgo.emTab (by simp), show (s.goChip (emWin sl) 4).emSeq sl = s.chip.emSeq sl from
      funext hsame.emSeq]
  · rw [Chip.emTab_winHeld, Chip.emTab_setEm, if_neg hne, Chip.emTab_setEm, if_neg hne, hgo.emTab (by simp)]
  · exact (((State.keeps_goChip (by simp) (by simp)).setEm (by simp) ..).setEm (by simp) ..).onlyParts_winHeld (by simp) (by simp) _

include hs in
theorem emInsert_full (hc : s.chip.emMoveChain sl (s.chip.emTab sl).rot (bits w.data 255 96) = none) (ho : s.chip.emOvfSpot sl false = none) :
    Does (.emInsert src sl) s fun t => WinDone t (emWin sl) 4 { code := 3 } ∧
      t.chip.reg (s.chip.sliceCnt sl + C.insert_fail) = s.chip.reg (s.chip.sliceCnt sl + C.insert_fail) + 1 ∧
      t.chip.get (A.slice sl) R.EM_EVENT_insert_fail = 1 ∧ t.chip.emTab sl = (s.chip.emTab sl).turned ∧
      OnlyParts s t ([emWin sl + 4, emWin sl + 8] ++ [s.chip.sliceCnt sl + C.insert_fail, A.slice sl + R.EM_EVENT]) [.wins, .house, .em] := by
  have hgo : s.chip.Keeps (s.goChip (emWin sl) 4) [emWin sl + 4] [.house] := State.keeps_goChip (.head _) (.head _)
  have hhome := State.emHome_of_mayGo hs hm
  have hsame := hgo.sameEm (by simp) (by simp) sl
  have hacc := s.goChip_sameAccords sl 4
  have hop := (State.emInsertOp_single hw ha hv hp hh).trans (Chip.emPlanInsert_full ((hsame.emSpot hacc _).trans hi)
    (by rw [hsame.emMoveChain hacc, hgo.emTab (by simp)]; exact hc) ((hsame.emOvfSpot hacc _).trans ho))
  rw [Chip.emFull_eq] at hop
  have hturn : (s.goChip (emWin sl) 4).Keeps ((s.goChip (emWin sl) 4).setEm sl ((s.goChip (emWin sl) 4).emTab sl).turned) [] [.em] :=
    (Chip.Keeps.refl _).setEm (.head _) ..
  have himage := (hturn.image (by simp)).trans (hgo.image (by simp))
  have hcnt := Chip.sliceCnt_of_image himage sl
  have hregs := Chip.fullRegs_of_image himage sl
  refine does_winLater (exec_emInsert ..) hm hw hop ⟨winDone_of_keeps (l := s.chip.fullRegs sl) (ps := [.em])
    (((Chip.Keeps.refl _).setEm (.head _) ..).tableFull (by rw [hregs]; exact List.Subset.refl _)) ?_ (by decide) _, ?_, ?_, ?_, ?_⟩
  · simp only [Chip.fullRegs, Chip.sliceCnt_of_home hhome, List.mem_cons, List.not_mem_nil, or_false, emWin, C.insert_fail, R.EM_EVENT]
    omega
  · rw [reg_winHeld_cnt hhome (by simp [C.insert_fail]), ← hcnt, Chip.counted_tableFull ((Chip.emHome_of_image himage sl).trans hhome), hcnt,
      hturn.1 _ List.not_mem_nil, reg_goChip_cnt hhome (by simp [C.insert_fail])]
  · rw [Chip.get_winHeld, Chip.event_tableFull]
    simp only [emWin, R.EM_EVENT_insert_fail]
    omega
  · rw [Chip.emTab_winHeld, Chip.emTab_tableFull, Chip.emTab_setEm, if_pos rfl, hgo.emTab (by simp)]
  · exact (((State.keeps_goChip (by simp) (by simp)).setEm (by simp) ..).tableFull
      (by rw [hregs]; exact List.subset_append_right ..)).onlyParts_winHeld (by simp) (by simp) _

end

end

include hs in
theorem emInsert_pairLands (hn : (s.chip.sliceMates sl).Nodup) (hmem : sl ∈ s.chip.sliceMates sl) {h : Entry} {key i : Nat} {e e' : EmEntry}
    (hp : w.state / 32 % 4 = 2) (hhold : (s.chip.emTab sl).hold = some h) (hkey : key = bits h 255 96 * 2 ^ 160 + bits w.data 255 96)
    (he : e = { body := putBits h 31 0 (bits w.data 31 0), state := 0xA0 }) (he' : e' = { body := putBits w.data 95 32 0, state := 0xC0 })
    (hh : s.chip.emHolding sl true key s.chip.pendingAccord = []) (hi : s.chip.emPairSpot sl key = some i) (hq : emSeqKey (i + 1) = emSeqKey i) :
    Does (.emInsert src sl) s fun t => WinDone t (emWin sl) 4 { code := 0, index := some i } ∧
      (∀ m ∈ s.chip.sliceMates sl, m ≠ sl → t.chip.emTab m = (s.chip.emTab m).written [(i, e), (i + 1, e')]) ∧
      t.chip.emAt sl i = e ∧ t.chip.emAt sl (i + 1) = e' ∧ (t.chip.emTab sl).hold = none ∧
      (∀ m, m ∉ s.chip.sliceMates sl → t.chip.emTab m = s.chip.emTab m) ∧
      t.chip.reg (s.chip.sliceCnt sl + C.inserts) = s.chip.reg (s.chip.sliceCnt sl + C.inserts) + 1 ∧
      OnlyParts s t ([emWin sl + 4, emWin sl + 8] ++ s.chip.landRegs sl) ([.wins, .house] ++ landParts) := by
  have hop := State.emInsertOp_pair hw ha hv hp hhold hkey hh hi
  rw [← he, ← he'] at hop
  refine (does_landed hs hm hw hn hop).mono fun t ⟨hdone, htab, _, hcnt, honly⟩ =>
    ⟨hdone, fun m hm' hne => ?_, ?_, ?_, ?_, fun m hm' => ?_, hcnt, honly⟩
  · rw [htab, if_pos hm', Chip.emTab_dropHold, if_neg (by simp [hne])]
  · rw [Chip.emAt, htab, if_pos hmem, EmTable.written_pair _ hq]
    simp
  · rw [Chip.emAt, htab, if_pos hmem, EmTable.written_pair _ hq]
    simp
  · rw [htab, if_pos hmem, Chip.emTab_dropHold, if_pos ⟨rfl, rfl⟩, EmTable.written_pair _ hq]
  · rw [htab, if_neg hm', Chip.emTab_dropHold, if_neg]
    rintro ⟨-, rfl⟩
    exact hm' hmem

end

end Sys2Proof.Machine
end

section
/-! SUPPORT. EM_WRITE_IF_SEQ (spec/08_exact_match.md R180, R477, spec/07_accords.md R159, R160). -/

namespace Sys2Proof.Machine

open Sys2Proof

/-- The body that a write gives an entry: a second half keeps no result. -/
def WinIn.bodyFor (w : WinIn) (e : EmEntry) : Entry := if e.pair = 2 then putBits w.data 95 32 0 else w.data

/-- The validity that a write gives. -/
def WinIn.validity (w : WinIn) : Validity := ⟨w.state / 128 % 2 = 1, bits w.data 31 16, bits w.data 15 0⟩

/-- How the accord engine judges a write of the entry that the window names. -/
def Chip.judgeEm (c : Chip) (src : Source) (sl : Nat) (w : WinIn) : Verdict :=
  c.judge src (c.emAt sl w.index).validity w.validity (bits (c.emAt sl w.index).body 255 32 == bits (w.bodyFor (c.emAt sl w.index)) 255 32)

/-- The entries of a table that a write of its entry at `i` rewrites: that one, and of its other half the validity. -/
def EmTable.rewrites (t : EmTable) (i : Nat) (data : Entry) (v : Bool) : List (Nat × EmEntry) :=
  (t.whole i).map fun j => (j, { body := if j = i then data else putBits (t.entries.look j).body 31 0 (bits data 31 0),
                                 state := putBits (t.entries.look j).state 7 7 (b2n v) })

/-- The registers that an accepted write changes, beside those of its window. -/
def Chip.rewriteRegs (c : Chip) (sl : Nat) : List Nat := c.emRegs sl ++ injRegs ++ [R.ACCORD_LOG, R.ACCORD_STATUS]

theorem Chip.rewriteRegs_subset (c : Chip) (sl : Nat) : c.rewriteRegs sl ⊆ c.engineRegs sl := by
  intro a ha
  simp only [Chip.rewriteRegs, Chip.engineRegs, List.mem_append] at ha ⊢
  tauto

theorem Chip.rewriteRegs_of_image {c d : Chip} (h : d.image = c.image) (sl : Nat) : d.rewriteRegs sl = c.rewriteRegs sl := by
  rw [Chip.rewriteRegs, Chip.emRegs_of_image h, Chip.rewriteRegs]

/-- The device after an accepted write. -/
def Chip.emRewritten (c : Chip) (sl : Nat) (w : WinIn) (lg : Bool) : Chip :=
  (c.when lg fun c => c.logWrite (.em sl w.index) (c.emAt sl w.index).validity).emStoreAll sl fun d m =>
    (d.emTab m).rewrites w.index (w.bodyFor (c.emAt sl w.index)) w.validity.valid

section
variable {c : Chip} {sl : Nat} {w : WinIn} (hi : c.emIndexOk sl w.index = true) (hq : w.seq = c.emSeq sl w.index)
  (hv : (c.emAt sl w.index).valid = true ∧ (c.emAt sl w.index).learned = false)
include hi hq hv

theorem Chip.emWriteOp_accepted {lg : Bool} (hj : c.judgeEm w.src sl w = .accept lg) :
    Chip.emWriteOp sl w c = (c.emRewritten sl w lg, { code := 0 }) := by
  simp only [Chip.judgeEm, WinIn.validity, WinIn.bodyFor] at hj
  cases lg <;>
    simp only [Chip.emWriteOp, hi, ← hq, hv.1, hv.2, hj, Bool.not_true, Bool.false_eq_true, if_false, bne_self_eq_false, Bool.and_false] <;> rfl

theorem Chip.emWriteOp_refused {r : Nat} (hj : c.judgeEm w.src sl w = .refuse r) :
    Chip.emWriteOp sl w c = (c.refuseWrite r (emWin sl) w.index, { code := 5 }) := by
  simp only [Chip.judgeEm, WinIn.validity, WinIn.bodyFor] at hj
  simp only [Chip.emWriteOp, hi, ← hq, hv.1, hv.2, hj, Bool.not_true, Bool.false_eq_true, if_false, bne_self_eq_false, Bool.and_false]

end

/-- A write that is not judged, and its code. -/
theorem Chip.emWriteOp_answers {c : Chip} {sl : Nat} {w : WinIn}
    (h : c.emIndexOk sl w.index = false ∨ w.seq ≠ c.emSeq sl w.index ∨ (w.state / 128 % 2 = 1 ∧ (c.emAt sl w.index).valid = false) ∨
      ((c.emAt sl w.index).valid = true ∧ (c.emAt sl w.index).learned = true)) :
    Chip.emWriteOp sl w c = (c, { code := if c.emIndexOk sl w.index = false then 6 else if w.seq ≠ c.emSeq sl w.index then 4 else
      if (c.emAt sl w.index).valid = false then 6 else 8 }) := by
  by_cases hi : c.emIndexOk sl w.index = false
  · simp only [Chip.emWriteOp, hi, Bool.not_false, if_true]
  · rw [Bool.not_eq_false] at hi
    by_cases hq : w.seq = c.emSeq sl w.index
    · cases hv : (c.emAt sl w.index).valid
      · have hset : w.state / 128 % 2 = 1 := by simpa [hi, hq, hv] using h
        simp [Chip.emWriteOp, hi, ← hq, hv, hset]
      · have hlearned : (c.emAt sl w.index).learned = true := by simpa [hi, hq, hv] using h
        simp [Chip.emWriteOp, hi, ← hq, hv, hlearned]
    · simp [Chip.emWriteOp, hi, hq]

/-! ### The device after the write -/

section
variable {c d : Chip} {sl : Nat} {w : WinIn} {lg : Bool}

theorem Chip.Keeps.emRewritten {l : List Nat} {ps : List Part} (h : c.Keeps d l ps) (hl : d.rewriteRegs sl ⊆ l)
    (hp : landParts ⊆ ps) : c.Keeps (d.emRewritten sl w lg) l ps := by
  obtain ⟨hl, hlog⟩ := List.append_subset.mp hl
  obtain ⟨hem, hinj⟩ := List.append_subset.mp hl
  obtain ⟨hp, ha⟩ := List.append_subset.mp hp
  have himage : (d.when lg fun c => c.logWrite (.em sl w.index) (c.emAt sl w.index).validity).image = d.image := by cases lg <;> simp
  have hwhen : c.Keeps (d.when lg fun c => c.logWrite (.em sl w.index) (c.emAt sl w.index).validity) l ps :=
    h.when fun _ => h.logWrite hlog (ha (.head _)) ..
  unfold Chip.emRewritten
  exact hwhen.emStoreAll (by rwa [Chip.emRegs_of_image himage]) hinj hp _

theorem Chip.emTab_emRewritten (hn : (c.sliceMates sl).Nodup) (k : Nat) : (c.emRewritten sl w lg).emTab k =
    if k ∈ c.sliceMates sl then
      (c.emTab k).written ((c.emTab k).rewrites w.index (w.bodyFor (c.emAt sl w.index)) w.validity.valid)
    else c.emTab k := by
  have himage : (c.when lg fun c => c.logWrite (.em sl w.index) (c.emAt sl w.index).validity).image = c.image := by cases lg <;> simp
  have htab : (c.when lg fun c => c.logWrite (.em sl w.index) (c.emAt sl w.index).validity).emTab k = c.emTab k := by cases lg <;> simp
  have hmates := Chip.sliceMates_of_image himage sl
  rw [Chip.emRewritten, Chip.emTab_emStoreAll (by rwa [hmates]) fun t => t.rewrites w.index (w.bodyFor (c.emAt sl w.index)) w.validity.valid,
    hmates, htab]

theorem Chip.log_emRewritten : (c.emRewritten sl w lg).accord.log = if lg then
    c.logRec sl w.index :: c.accord.log else c.accord.log := by
  rw [Chip.emRewritten, (Chip.keeps_emStoreAll _ sl _).accord (by simp [emParts])]
  cases lg
  · rfl
  · rw [Chip.when_true, Chip.accord_logWrite]
    rfl

end

/-- What a write makes of the entry that it names, and what it leaves. -/
theorem EmTable.rewritten_spec (t : EmTable) (i : Nat) (data : Entry) (v : Bool) :
    ((t.written (t.rewrites i data v)).entries.look i).body = data ∧
    ((t.written (t.rewrites i data v)).entries.look i).state = putBits (t.entries.look i).state 7 7 (b2n v) ∧
    (t.written (t.rewrites i data v)).seqs.look (emSeqKey i) = (t.seqs.look (emSeqKey i) + 1) % 65536 ∧
    ∀ j ∉ t.whole i, (t.written (t.rewrites i data v)).entries.look j = t.entries.look j := by
  refine ⟨?_, ?_, EmTable.seqs_written_of_mem _ (by simpa [EmTable.rewrites] using t.mem_whole i), fun j hj => ?_⟩
  · rw [EmTable.rewrites, EmTable.entries_written, if_pos (t.mem_whole i), if_pos rfl]
  · rw [EmTable.rewrites, EmTable.entries_written, if_pos (t.mem_whole i)]
  · rw [EmTable.rewrites, EmTable.entries_written, if_neg hj]

/-! ### The clauses -/

section
variable {s : State} {src : Source} {sl : Nat} {w : WinIn} (hs : sl < 8) (hm : s.mayGo src (emWin sl) = true)
  (hw : s.chip.winIn src (emWin sl) = w)
include hm hw

theorem emWrite_answers (h : s.chip.emIndexOk sl w.index = false ∨ w.seq ≠ s.chip.emSeq sl w.index ∨
      (w.state / 128 % 2 = 1 ∧ (s.chip.emAt sl w.index).valid = false) ∨
      ((s.chip.emAt sl w.index).valid = true ∧ (s.chip.emAt sl w.index).learned = true)) : Does (.emWriteIfSeq src sl) s fun t =>
      WinDone t (emWin sl) 5 { code := if s.chip.emIndexOk sl w.index = false then 6 else if w.seq ≠ s.chip.emSeq sl w.index then 4 else
        if (s.chip.emAt sl w.index).valid = false then 6 else 8 } ∧
      OnlyParts s t [emWin sl + 4, emWin sl + 8] [.wins, .house] := by
  have hgo : s.chip.Keeps (s.goChip (emWin sl) 5) [emWin sl + 4] [.house] := State.keeps_goChip (.head _) (.head _)
  have hsame := hgo.sameEm (by simp) (by simp) sl
  have hindex := Chip.emIndexOk_of_image (hgo.image (by simp)) sl w.index
  refine does_goAnswer (exec_emWriteIfSeq ..) hm hw (by decide) ?_
  rw [Chip.emWriteOp_answers (by rwa [hindex, hsame.emSeq, hsame.emAt]), hindex, hsame.emSeq, hsame.emAt]

section
variable (hi : s.chip.emIndexOk sl w.index = true) (hq : w.seq = s.chip.emSeq sl w.index)
  (hv : (s.chip.emAt sl w.index).valid = true ∧ (s.chip.emAt sl w.index).learned = false)
include hi hq hv

omit hm in
/-- The write, as its go leaves the device. -/
theorem State.emWriteOp_goChip {d : Chip → Chip} {r : WinRes}
    (h : ∀ c : Chip, c.emIndexOk sl w.index = true → w.seq = c.emSeq sl w.index →
      ((c.emAt sl w.index).valid = true ∧ (c.emAt sl w.index).learned = false) → c.judgeEm w.src sl w = s.chip.judgeEm src sl w →
      Chip.emWriteOp sl w c = (d c, r)) :
    Chip.emWriteOp sl w (s.goChip (emWin sl) 5) = (d (s.goChip (emWin sl) 5), r) := by
  have hgo : s.chip.Keeps (s.goChip (emWin sl) 5) [emWin sl + 4] [.house] := State.keeps_goChip (.head _) (.head _)
  have hsame := hgo.sameEm (by simp) (by simp) sl
  have hsrc : w.src = src := hw ▸ rfl
  refine h _ (by rwa [Chip.emIndexOk_of_image (hgo.image (by simp))]) (by rw [hsame.emSeq, hq]) (by rwa [hsame.emAt]) ?_
  rw [Chip.judgeEm, State.judge_goChip, hsame.emAt, hsrc, Chip.judgeEm]

theorem emWrite_refused {r : Nat} (hj : s.chip.judgeEm src sl w = .refuse r) (hr : 1 ≤ r ∧ r ≤ 4) : Does (.emWriteIfSeq src sl) s fun t =>
      WinDone t (emWin sl) 5 { code := 5 } ∧ t.chip.get 0 R.ACCORD_REFUSAL_rule = r ∧ t.chip.get 0 R.ACCORD_EVENT_refused = 1 ∧
      t.chip.reg C.refused_writes = s.chip.reg C.refused_writes + 1 ∧
      OnlyParts s t ([emWin sl + 4, emWin sl + 8] ++ refusalRegs) [.wins, .house] := by
  have hop := State.emWriteOp_goChip (d := fun c => c.refuseWrite r (emWin sl) w.index) hw hi hq hv fun c hi hq hv hsame =>
    Chip.emWriteOp_refused hi hq hv (hsame.trans hj)
  exact does_goRefused hm hw (exec_emWriteIfSeq ..) (by decide) (by omega) hop

include hs in
theorem emWrite_accepted (hn : (s.chip.sliceMates sl).Nodup) {lg : Bool} (hj : s.chip.judgeEm src sl w = .accept lg) :
    Does (.emWriteIfSeq src sl) s fun t => WinDone t (emWin sl) 5 { code := 0 } ∧
      (∀ m ∈ s.chip.sliceMates sl, t.chip.emTab m =
        (s.chip.emTab m).written ((s.chip.emTab m).rewrites w.index (w.bodyFor (s.chip.emAt sl w.index)) w.validity.valid)) ∧
      (∀ m, m ∉ s.chip.sliceMates sl → t.chip.emTab m = s.chip.emTab m) ∧
      t.chip.accord.log = (if lg then s.chip.logRec sl w.index :: s.chip.accord.log else s.chip.accord.log) ∧
      OnlyParts s t ([emWin sl + 4, emWin sl + 8] ++ s.chip.rewriteRegs sl) ([.wins, .house] ++ landParts) := by
  have hgo : s.chip.Keeps (s.goChip (emWin sl) 5) [emWin sl + 4] [.house] := State.keeps_goChip (.head _) (.head _)
  have hhome := State.emHome_of_mayGo hs hm
  have himage := hgo.image (by simp)
  have hsame := hgo.sameEm (by simp) (by simp) sl
  have hregs := Chip.rewriteRegs_of_image himage sl
  have hmates := Chip.sliceMates_of_image himage sl
  have hop := State.emWriteOp_goChip (d := fun c => c.emRewritten sl w lg) hw hi hq hv fun c hi hq hv hsame =>
    Chip.emWriteOp_accepted hi hq hv (hsame.trans hj)
  have htab : ∀ m, ((s.goChip (emWin sl) 5).emRewritten sl w lg).emTab m = if m ∈ s.chip.sliceMates sl then
      (s.chip.emTab m).written ((s.chip.emTab m).rewrites w.index (w.bodyFor (s.chip.emAt sl w.index)) w.validity.valid) else s.chip.emTab m :=
    fun m => by rw [Chip.emTab_emRewritten (by rwa [hmates]), hmates, hgo.emTab (by simp), hsame.emAt]
  refine does_winGo (exec_emWriteIfSeq ..) hm hw hop ⟨winDone_of_keeps (ps := landParts) ((Chip.Keeps.refl _).emRewritten
    (by rw [hregs]; exact List.Subset.refl _) (List.Subset.refl _))
    (fun h => Chip.emWin_not_mem_engineRegs hs hhome (s.chip.rewriteRegs_subset sl h)) (by decide) _,
    fun m hmem => ?_, fun m hmem => ?_, ?_, ?_⟩
  · rw [Chip.emTab_winHeld, htab, if_pos hmem]
  · rw [Chip.emTab_winHeld, htab, if_neg hmem]
  · rw [Chip.winHeld_accord, Chip.log_emRewritten, hsame.logRec, hgo.accord (by simp)]
  · exact (Chip.Keeps.emRewritten (State.keeps_goChip (by simp) (by simp)) (by rw [hregs]; exact List.subset_append_right ..)
      (List.subset_append_right ..)).onlyParts_winHeld (by simp) (by simp) _

end

end

end Sys2Proof.Machine
end

section
/-! SUPPORT. Learned entries (spec/08_exact_match.md R189 to R191, R195, spec/17_memory_protection.md R382): the learn record, and what learning,
moving and removing an entry make of the tables. -/

namespace Sys2Proof.Machine

open Sys2Proof

/-! ### An item put into a FIFO -/

section
variable {c d : Chip} {l : List Nat} {ps : List Part} (h : c.Keeps d l ps)
include h

theorem Chip.Keeps.syncFifo {f : Nat} (hb : fifoBase f + 4 ∈ l) : c.Keeps (d.syncFifo f) l ps :=
  ((h.put (f := ⟨4, 31, 31⟩) hb _).put (f := ⟨4, 28, 28⟩) hb _).put (f := ⟨4, 12, 0⟩) hb _

variable (hi : injRegs ⊆ l) (hf : .fifos ∈ ps) (hl : .ledger ∈ ps)
include hi hf hl

theorem Chip.Keeps.hurtItem (f n : Nat) : c.Keeps (d.hurtItem f n) l ps := by
  unfold Chip.hurtItem
  exact .ite h ((h.setFifos hf _).injectStep hi hl ..)

omit hi in
theorem Chip.Keeps.pushFifo {f : Nat} (hr : d.fifoRegs f ⊆ l) (item : Entry) : c.Keeps (d.pushFifo f item).1 l ps := by
  obtain ⟨hr, hi⟩ := List.append_subset.mp hr
  unfold Chip.pushFifo
  dsimp only
  split
  · exact ((h.setFifos hf _).hurtItem hi hf hl ..).syncFifo (hr (.head _))
  · split
    · exact ((h.setFifos hf _).hurtItem hi hf hl ..).syncFifo (hr (.head _))
    · have hlost : c.Keeps ((d.cnt (d.fifoTop f + 0x50) 1).put (d.fifoTop f) ⟨4, 30, 30⟩ 1) l ps :=
        (h.cnt (hr (.tail _ (.tail _ (.head _)))) 1).put (hr (.tail _ (.head _))) 1
      rw [apply_ite Prod.fst]
      exact .ite ((hlost.setFifos hf _).report hl _ _ _) hlost

end

theorem Chip.image_pushFifo (c : Chip) (f : Nat) (item : Entry) : (c.pushFifo f item).1.image = c.image :=
  Chip.Keeps.image (ps := [.fifos, .ledger]) (Chip.Keeps.pushFifo (.refl c) (by simp) (by simp) (List.Subset.refl _) item) (by simp)

/-- The registers that a learn record changes. -/
def Chip.recordRegs (c : Chip) (s : Nat) : List Nat := c.emRegs s ++ injRegs ++ c.fifoRegs (c.emHome s)

section
variable {c d : Chip} {l : List Nat} {ps : List Part} {s : Nat}

theorem Chip.recordRegs_of_image (h : d.image = c.image) (s : Nat) : d.recordRegs s = c.recordRegs s := by
  rw [Chip.recordRegs, Chip.emRegs_of_image h, Chip.fifoRegs_of_image h, Chip.emHome_of_image h, Chip.recordRegs]

theorem Chip.recordRegs_subset (c : Chip) (s : Nat) : c.recordRegs s ⊆ c.engineRegs s := List.subset_append_left ..

theorem Chip.Keeps.learnRecord (h : c.Keeps d l ps) (hr : d.recordRegs s ⊆ l) (hf : .fifos ∈ ps) (hl : .ledger ∈ ps)
    (event index key result old : Nat) : c.Keeps (d.learnRecord s event index key result old) l ps := by
  obtain ⟨hem, hfifo⟩ := List.append_subset.mp hr
  unfold Chip.learnRecord
  have hpush := fun item => h.pushFifo hf hl hfifo item
  refine (hpush _).when fun _ => (hpush _).put (f := R.EM_EVENT_learn_overrun) ?_ 1
  rw [Chip.emHome_of_image (Chip.image_pushFifo ..)]
  exact hem (List.mem_append_left _ (.tail _ (.tail _ (.head _))))

@[simp] theorem Chip.emTab_learnRecord (c : Chip) (s event index key result old k : Nat) :
    (c.learnRecord s event index key result old).emTab k = c.emTab k :=
  Chip.Keeps.emTab (ps := [.fifos, .ledger]) (Chip.Keeps.learnRecord (.refl c) (List.Subset.refl _) (by simp) (by simp) ..) (by simp) k

end

/-! ### Entries learned, moved and removed -/

/-- The parts that a write of entries with its learn record changes. -/
def recordParts : List Part := emParts ++ [.fifos]

/-- The device after a write of learned entries, counted and with its record. -/
def Chip.recorded (c : Chip) (s : Nat) (f : Chip → Nat → List (Nat × EmEntry)) (o event index key result old : Nat) : Chip :=
  ((c.emStoreAll s f).cnt (c.sliceCnt s + o) 1).learnRecord s event index key result old

/-- The key of a learned entry. -/
theorem learnedEntry_key {key result : Nat} (hk : key < 2 ^ 160) (hr : result < 2 ^ 64) (stat : Bool) : (learnedEntry key result stat).key = key := by
  have hmod : (key * 2 ^ 96 + result * 2 ^ 32) % 2 ^ 256 = key * 2 ^ 96 + result * 2 ^ 32 := Nat.mod_eq_of_lt (by omega)
  rw [EmEntry.key, learnedEntry, bits, BitVec.toNat_ofNat, hmod, Nat.shiftRight_eq_div_pow]
  omega

section
variable {c d : Chip} {l : List Nat} {ps : List Part} {s : Nat}

theorem Chip.learnResult_lt (c : Chip) (s : Nat) {dest : Nat} (hd : dest < 2 ^ 20) : c.learnResult s dest < 2 ^ 64 := by
  have htemplate : c.get (A.slice (c.emHome s)) R.LEARN_TEMPLATE_template < 2 ^ 32 := bits_lt ..
  unfold Chip.learnResult
  omega

theorem Chip.doMove_eq (c : Chip) (s i dest : Nat) : c.doMove s i dest =
    c.recorded s (fun e m => [(i, { e.emAt m i with body := putBits (e.emAt m i).body 95 32 (c.learnResult s dest) })]) C.learn_moves 2 i
      (c.emAt s i).key (c.learnResult s dest) (nbits (c.emAt s i).result 59 40) := rfl

/-- A key is learned where a place is free. -/
theorem Chip.doLearn_eq {i key dest : Nat} (hi : c.emSpot s key = some i) (hk : key < 2 ^ 160) (hd : dest < 2 ^ 20) (stat : Bool) :
    c.doLearn s key dest stat = (c.recorded s (fun _ _ => [(i, learnedEntry key (c.learnResult s dest) stat)]) C.learns 1 i key
      (c.learnResult s dest) 0, some i) := by
  have hkey := learnedEntry_key hk (c.learnResult_lt s hd) stat
  have hspot : c.emPlaceSingle s (learnedEntry key (c.learnResult s dest) stat).key = (c, some i) := by rw [hkey, Chip.emPlaceSingle, hi]
  have hinsert : c.emInsert s (learnedEntry key (c.learnResult s dest) stat) =
      (c.emWriteMany s [(i, learnedEntry key (c.learnResult s dest) stat)], some i) := by rw [Chip.emInsert, hspot]
  have hcnt : (c.emWriteMany s [(i, learnedEntry key (c.learnResult s dest) stat)]).sliceCnt s = c.sliceCnt s :=
    Chip.sliceCnt_of_image (c.image_emStoreAll s _) s
  rw [Chip.doLearn, hinsert, Chip.recorded, ← hcnt]
  rfl

theorem Chip.Keeps.recorded (h : c.Keeps d l ps) (hr : d.recordRegs s ⊆ l) (hp : recordParts ⊆ ps) {o : Nat} (hc : d.sliceCnt s + o ∈ l)
    (f : Chip → Nat → List (Nat × EmEntry)) (event index key result old : Nat) : c.Keeps (d.recorded s f o event index key result old) l ps := by
  have himage : ((d.emStoreAll s f).cnt (d.sliceCnt s + o) 1).image = d.image := d.image_emStoreAll s f
  obtain ⟨hem, -⟩ := List.append_subset.mp hr
  obtain ⟨hem, hinj⟩ := List.append_subset.mp hem
  obtain ⟨hp, hf⟩ := List.append_subset.mp hp
  exact ((h.emStoreAll hem hinj hp f).cnt hc 1).learnRecord (by rwa [Chip.recordRegs_of_image himage]) (hf (.head _)) (hp (by simp [emParts])) ..

theorem Chip.emTab_recorded (hn : (c.sliceMates s).Nodup) (φ : EmTable → List (Nat × EmEntry)) (o event index key result old k : Nat) :
    (c.recorded s (fun e m => φ (e.emTab m)) o event index key result old).emTab k =
      if k ∈ c.sliceMates s then (c.emTab k).written (φ (c.emTab k)) else c.emTab k := by
  rw [Chip.recorded, Chip.emTab_learnRecord, Chip.emTab_cnt, Chip.emTab_emStoreAll hn φ]

theorem Chip.counted_recorded (hs : s < 8) (hh : c.emHome s = s) {o : Nat} (ho : 0x440800 ≤ o) (f : Chip → Nat → List (Nat × EmEntry))
    (event index key result old : Nat) :
    (c.recorded s f o event index key result old).reg (c.sliceCnt s + o) = c.reg (c.sliceCnt s + o) + 1 := by
  have hnot := Chip.cnt_not_mem_engineRegs hs hh ho
  have himage : ((c.emStoreAll s f).cnt (c.sliceCnt s + o) 1).image = c.image := c.image_emStoreAll s f
  exact ((c.keeps_emStoreAll s f).mono (c.emRegs_subset_engineRegs s)).counted (l' := c.engineRegs s) (ps' := [.fifos, .ledger])
    ((Chip.Keeps.refl _).learnRecord (by rw [Chip.recordRegs_of_image himage]; exact c.recordRegs_subset s) (.head _) (.tail _ (.head _)) ..)
    hnot hnot

theorem Chip.Keeps.unlearn (h : c.Keeps d l ps) (hr : d.recordRegs s ⊆ l) (hp : recordParts ⊆ ps) (i event : Nat) :
    c.Keeps (d.unlearn s i event) l ps := by
  obtain ⟨hem, -⟩ := List.append_subset.mp hr
  obtain ⟨hem, hinj⟩ := List.append_subset.mp hem
  obtain ⟨hp, hf⟩ := List.append_subset.mp hp
  exact (h.emRemove hem hinj hp i).learnRecord (by rwa [Chip.recordRegs_of_image (d.image_emRemove s i)]) (hf (.head _)) (hp (by simp [emParts])) ..

theorem Chip.emTab_unlearn (hn : (c.sliceMates s).Nodup) (i event k : Nat) :
    (c.unlearn s i event).emTab k = if k ∈ c.sliceMates s then (c.emTab k).removed i else c.emTab k := by
  rw [Chip.unlearn, Chip.emTab_learnRecord, Chip.emTab_emRemove hn]

end

end Sys2Proof.Machine
end

section
/-! SUPPORT. EM_LEARN and EM_UNLEARN (spec/08_exact_match.md R187 to R191). -/

namespace Sys2Proof.Machine

open Sys2Proof

/-! ### The operations -/

section
variable {c : Chip} {sl : Nat} {w : WinIn}

theorem Chip.emLearnOp_unfit (h : c.learnOpOk sl (bits w.data 255 96) = false) : Chip.emLearnOp sl w c = c.freeCode := by
  simp only [Chip.emLearnOp, h, Bool.not_false, if_true]

section
variable (h : c.learnOpOk sl (bits w.data 255 96) = true)
include h

theorem Chip.emLearnOp_versioned (hv : (c.emVersioned sl false (bits w.data 255 96) c.newest).isSome = true) :
    Chip.emLearnOp sl w c = (c, { code := 8 }) := by
  simp only [Chip.emLearnOp, h, hv, Bool.not_true, Bool.false_eq_true, if_false, if_true]

variable (hv : c.emVersioned sl false (bits w.data 255 96) c.newest = none)
include hv

theorem Chip.emLearnOp_stays {i : Nat} (hi : c.emLearned sl (bits w.data 255 96) = some i)
    (hstay : nbits (c.emAt sl i).result 59 40 = bits w.data 91 72 ∨ (c.emAt sl i).static_ = true) :
    Chip.emLearnOp sl w c = (c, { code := 2 }) := by
  simp only [Chip.emLearnOp, h, hv, hi, Bool.not_true, Bool.false_eq_true, if_false, Option.isSome_none]
  obtain hsame | hstatic := hstay
  · rw [if_pos hsame]
  · rw [hstatic, Bool.true_or, if_pos rfl, ite_self]

theorem Chip.emLearnOp_moves {i : Nat} (hi : c.emLearned sl (bits w.data 255 96) = some i)
    (hne : nbits (c.emAt sl i).result 59 40 ≠ bits w.data 91 72) (hst : (c.emAt sl i).static_ = false)
    (hon : c.get (A.slice (c.emHome sl)) R.LEARN_CTRL_move_enable = 1) :
    Chip.emLearnOp sl w c = (c.doMove sl i (bits w.data 91 72), { code := 0, index := some i }) := by
  have hmove : c.on (A.slice (c.emHome sl)) R.LEARN_CTRL_move_enable = true := by rw [Chip.on, hon]; rfl
  simp only [Chip.emLearnOp, h, hv, hi, hne, hst, hmove, Bool.not_true, Bool.or_self, Bool.false_eq_true, if_false, Option.isSome_none]

theorem Chip.emLearnOp_learns {i : Nat} (hn : c.emLearned sl (bits w.data 255 96) = none) (hi : c.emSpot sl (bits w.data 255 96) = some i) :
    Chip.emLearnOp sl w c = (c.recorded sl (fun _ _ => [(i, learnedEntry (bits w.data 255 96) (c.learnResult sl (bits w.data 91 72))
      (w.state / 8 % 2 = 1))]) C.learns 1 i (bits w.data 255 96) (c.learnResult sl (bits w.data 91 72)) 0, { code := 0, index := some i }) := by
  have hlearn := Chip.doLearn_eq hi (bits_lt w.data 255 96) (bits_lt w.data 91 72) (w.state / 8 % 2 = 1)
  simp only [Chip.emLearnOp, h, hv, hn, hlearn, Bool.not_true, Bool.false_eq_true, if_false, Option.isSome_none, Option.isSome_some, if_true]

end

end

/-! ### On the device as its go leaves it -/

section
variable (s : State) (sl op : Nat)

/-- The settings of a slice's table stand in no register of its window. -/
theorem State.get_goChip (x : Nat) {f : Fld} (hf : 0x440100 ≤ f.off ∧ f.off < 0x440200) :
    (s.goChip (emWin sl) op).get (A.slice x) f = s.chip.get (A.slice x) f := by
  have hgo : s.chip.Keeps (s.goChip (emWin sl) op) [emWin sl + 4] [.house] := State.keeps_goChip (.head _) (.head _)
  refine hgo.get ?_
  rw [List.mem_singleton, emWin, A.slice, A.slice]
  omega

theorem State.learnResult_goChip (dest : Nat) : (s.goChip (emWin sl) op).learnResult sl dest = s.chip.learnResult sl dest := by
  have hgo : s.chip.Keeps (s.goChip (emWin sl) op) [emWin sl + 4] [.house] := State.keeps_goChip (.head _) (.head _)
  rw [Chip.learnResult, Chip.emHome_of_image (hgo.image (by simp)), s.get_goChip _ _ _ (by decide), Chip.learnResult]

theorem State.learnOpOk_goChip (key : Nat) : (s.goChip (emWin sl) op).learnOpOk sl key = s.chip.learnOpOk sl key := by
  have hgo : s.chip.Keeps (s.goChip (emWin sl) op) [emWin sl + 4] [.house] := State.keeps_goChip (.head _) (.head _)
  rw [Chip.learnOpOk, Chip.on, s.get_goChip _ _ _ (by decide), s.get_goChip _ _ _ (by decide), hgo.emTab (by simp),
    Chip.emGranules_of_image (hgo.image (by simp)), Chip.learnOpOk, Chip.on]

end

/-! ### The clauses -/

/-- The learned entry of a table with another result. -/
def EmTable.moved (t : EmTable) (i result : Nat) : EmEntry := { t.entries.look i with body := putBits (t.entries.look i).body 95 32 result }

section
variable {s : State} {src : Source} {sl : Nat} {w : WinIn} (hs : sl < 8) (hm : s.mayGo src (emWin sl) = true)
  (hw : s.chip.winIn src (emWin sl) = w)
include hm hw

theorem emLearn_unfit (h : s.chip.learnOpOk sl (bits w.data 255 96) = false) : Does (.emLearn src sl) s fun t =>
    t.chip.em = s.chip.em ∧ OnlyParts s t [emWin sl + 4, emWin sl + 8] [.wins, .house, .fresh] := by
  have hgo : s.chip.Keeps (s.goChip (emWin sl) 6) [emWin sl + 4] [.house] := State.keeps_goChip (.head _) (.head _)
  have hop := Chip.emLearnOp_unfit (c := s.goChip (emWin sl) 6) (sl := sl) (w := w) (by rwa [State.learnOpOk_goChip])
  rw [Chip.freeCode] at hop
  have hfree : (s.goChip (emWin sl) 6).Keeps (s.goChip (emWin sl) 6).freeEntry.2 [] [.fresh] := (Chip.Keeps.refl _).freeEntry (.head _)
  refine does_winGo (exec_emLearn ..) hm hw hop ⟨?_, ?_⟩
  · rw [Chip.winHeld_em, hfree.em (by simp), hgo.em (by simp)]
  · exact ((State.keeps_goChip (by simp) (by simp)).freeEntry (by simp)).onlyParts_winHeld (by simp) (by simp) _

theorem emLearn_answers (h : s.chip.learnOpOk sl (bits w.data 255 96) = true)
    (hv : (s.chip.emVersioned sl false (bits w.data 255 96) s.chip.newest).isSome = true ∨
      (s.chip.emLearned sl (bits w.data 255 96)).any (fun i => nbits (s.chip.emAt sl i).result 59 40 == bits w.data 91 72 ||
        (s.chip.emAt sl i).static_) = true) : Does (.emLearn src sl) s fun t =>
    WinDone t (emWin sl) 6 { code := if (s.chip.emVersioned sl false (bits w.data 255 96) s.chip.newest).isSome then 8 else 2 } ∧
    OnlyParts s t [emWin sl + 4, emWin sl + 8] [.wins, .house] := by
  have hgo : s.chip.Keeps (s.goChip (emWin sl) 6) [emWin sl + 4] [.house] := State.keeps_goChip (.head _) (.head _)
  have hsame := hgo.sameEm (by simp) (by simp) sl
  have hnew := (s.goChip_sameAccords sl 6).newest
  have hok : (s.goChip (emWin sl) 6).learnOpOk sl (bits w.data 255 96) = true := by rwa [State.learnOpOk_goChip]
  refine does_goAnswer (exec_emLearn ..) hm hw (by decide) ?_
  cases hver : s.chip.emVersioned sl false (bits w.data 255 96) s.chip.newest with
  | some j => exact Chip.emLearnOp_versioned hok (by rw [hsame.emVersioned, hnew, hver]; rfl)
  | none =>
    have hany : (s.chip.emLearned sl (bits w.data 255 96)).any (fun i => nbits (s.chip.emAt sl i).result 59 40 == bits w.data 91 72 ||
        (s.chip.emAt sl i).static_) = true := by simpa [hver] using hv
    cases hlearned : s.chip.emLearned sl (bits w.data 255 96) with
    | none => simp [hlearned] at hany
    | some i =>
      refine Chip.emLearnOp_stays hok (by rw [hsame.emVersioned, hnew, hver]) (i := i) (by rw [hsame.emLearned, hlearned]) ?_
      rw [hsame.emAt]
      simpa [hlearned] using hany

include hs in
/-- A learn that writes. -/
theorem does_recorded (hn : (s.chip.sliceMates sl).Nodup) {i o event index key result old : Nat} (ho : 0x440800 ≤ o)
    (φ : EmTable → List (Nat × EmEntry)) (hop : Chip.emLearnOp sl w (s.goChip (emWin sl) 6) =
      ((s.goChip (emWin sl) 6).recorded sl (fun e m => φ (e.emTab m)) o event index key result old, { code := 0, index := some i })) :
    Does (.emLearn src sl) s fun t => WinDone t (emWin sl) 6 { code := 0, index := some i } ∧
      (∀ m ∈ s.chip.sliceMates sl, t.chip.emTab m = (s.chip.emTab m).written (φ (s.chip.emTab m))) ∧
      (∀ m, m ∉ s.chip.sliceMates sl → t.chip.emTab m = s.chip.emTab m) ∧
      t.chip.reg (s.chip.sliceCnt sl + o) = s.chip.reg (s.chip.sliceCnt sl + o) + 1 ∧
      OnlyParts s t ([emWin sl + 4, emWin sl + 8] ++ s.chip.recordRegs sl ++ [s.chip.sliceCnt sl + o]) ([.wins, .house] ++ recordParts) := by
  have hgo : s.chip.Keeps (s.goChip (emWin sl) 6) [emWin sl + 4] [.house] := State.keeps_goChip (.head _) (.head _)
  have hhome := State.emHome_of_mayGo hs hm
  have himage := hgo.image (by simp)
  have hregs := Chip.recordRegs_of_image himage sl
  have hcnt := Chip.sliceCnt_of_image himage sl
  have hmates := Chip.sliceMates_of_image himage sl
  have htab : ∀ m, ((s.goChip (emWin sl) 6).recorded sl (fun e m => φ (e.emTab m)) o event index key result old).emTab m =
      if m ∈ s.chip.sliceMates sl then (s.chip.emTab m).written (φ (s.chip.emTab m)) else s.chip.emTab m := fun m => by
    rw [Chip.emTab_recorded (by rwa [hmates]) φ, hmates, hgo.emTab (by simp)]
  have hkeep : ∀ {c : Chip} {l : List Nat} {ps : List Part}, c.Keeps (s.goChip (emWin sl) 6) l ps → s.chip.recordRegs sl ⊆ l →
      recordParts ⊆ ps → s.chip.sliceCnt sl + o ∈ l →
      c.Keeps ((s.goChip (emWin sl) 6).recorded sl (fun e m => φ (e.emTab m)) o event index key result old) l ps :=
    fun h hl hp hc => h.recorded (by rwa [hregs]) hp (by rwa [hcnt]) ..
  refine does_winGo (exec_emLearn ..) hm hw hop ⟨winDone_of_engine (ps := recordParts) hs hhome (hkeep (.refl _) (fun a ha =>
    List.mem_append_left _ (s.chip.recordRegs_subset sl ha)) (List.Subset.refl _) (List.mem_append_right _ (.head _))) ho (by decide) _,
    fun m hmem => ?_, fun m hmem => ?_, ?_, ?_⟩
  · rw [Chip.emTab_winHeld, htab, if_pos hmem]
  · rw [Chip.emTab_winHeld, htab, if_neg hmem]
  · rw [reg_winHeld_cnt hhome ho, ← hcnt, Chip.counted_recorded hs ((Chip.emHome_of_image himage sl).trans hhome) ho, hcnt,
      reg_goChip_cnt hhome ho]
  · exact (hkeep (State.keeps_goChip (by simp) (by simp)) (fun a ha => by simp [ha]) (List.subset_append_right ..)
      (by simp)).onlyParts_winHeld (by simp) (by simp) _

section
variable (hn : (s.chip.sliceMates sl).Nodup) (h : s.chip.learnOpOk sl (bits w.data 255 96) = true)
  (hv : s.chip.emVersioned sl false (bits w.data 255 96) s.chip.newest = none)
include hs hn h hv

theorem emLearn_learns {i : Nat} {e : EmEntry} (hl : s.chip.emLearned sl (bits w.data 255 96) = none)
    (hi : s.chip.emSpot sl (bits w.data 255 96) = some i)
    (he : e = learnedEntry (bits w.data 255 96) (s.chip.learnResult sl (bits w.data 91 72)) (w.state / 8 % 2 = 1)) :
    Does (.emLearn src sl) s fun t => WinDone t (emWin sl) 6 { code := 0, index := some i } ∧
      (∀ m ∈ s.chip.sliceMates sl, t.chip.emTab m = (s.chip.emTab m).written [(i, e)]) ∧
      (∀ m, m ∉ s.chip.sliceMates sl → t.chip.emTab m = s.chip.emTab m) ∧
      t.chip.reg (s.chip.sliceCnt sl + C.learns) = s.chip.reg (s.chip.sliceCnt sl + C.learns) + 1 ∧
      OnlyParts s t ([emWin sl + 4, emWin sl + 8] ++ s.chip.recordRegs sl ++ [s.chip.sliceCnt sl + C.learns]) ([.wins, .house] ++ recordParts) := by
  have hgo : s.chip.Keeps (s.goChip (emWin sl) 6) [emWin sl + 4] [.house] := State.keeps_goChip (.head _) (.head _)
  have hsame := hgo.sameEm (by simp) (by simp) sl
  have hacc := s.goChip_sameAccords sl 6
  have hop := Chip.emLearnOp_learns (c := s.goChip (emWin sl) 6) (sl := sl) (w := w) (i := i) (by rwa [State.learnOpOk_goChip])
    (by rw [hsame.emVersioned, hacc.newest, hv]) (by rw [hsame.emLearned, hl]) (by rw [hsame.emSpot hacc, hi])
  rw [State.learnResult_goChip, ← he] at hop
  exact does_recorded hs hm hw hn (by simp [C.learns]) (fun _ => [(i, e)]) hop

theorem emLearn_moves {i : Nat} (hl : s.chip.emLearned sl (bits w.data 255 96) = some i)
    (hne : nbits (s.chip.emAt sl i).result 59 40 ≠ bits w.data 91 72) (hst : (s.chip.emAt sl i).static_ = false)
    (hon : s.chip.get (A.slice (s.chip.emHome sl)) R.LEARN_CTRL_move_enable = 1) :
    Does (.emLearn src sl) s fun t => WinDone t (emWin sl) 6 { code := 0, index := some i } ∧
      (∀ m ∈ s.chip.sliceMates sl, t.chip.emTab m =
        (s.chip.emTab m).written [(i, (s.chip.emTab m).moved i (s.chip.learnResult sl (bits w.data 91 72)))]) ∧
      (∀ m, m ∉ s.chip.sliceMates sl → t.chip.emTab m = s.chip.emTab m) ∧
      t.chip.reg (s.chip.sliceCnt sl + C.learn_moves) = s.chip.reg (s.chip.sliceCnt sl + C.learn_moves) + 1 ∧
      OnlyParts s t ([emWin sl + 4, emWin sl + 8] ++ s.chip.recordRegs sl ++ [s.chip.sliceCnt sl + C.learn_moves])
        ([.wins, .house] ++ recordParts) := by
  have hgo : s.chip.Keeps (s.goChip (emWin sl) 6) [emWin sl + 4] [.house] := State.keeps_goChip (.head _) (.head _)
  have hsame := hgo.sameEm (by simp) (by simp) sl
  have hacc := s.goChip_sameAccords sl 6
  have hop := Chip.emLearnOp_moves (c := s.goChip (emWin sl) 6) (sl := sl) (w := w) (i := i) (by rwa [State.learnOpOk_goChip])
    (by rw [hsame.emVersioned, hacc.newest, hv]) (by rw [hsame.emLearned, hl]) (by rwa [hsame.emAt]) (by rwa [hsame.emAt])
    (by rwa [Chip.emHome_of_image (hgo.image (by simp)), State.get_goChip _ _ _ _ (by decide)])
  rw [Chip.doMove_eq, State.learnResult_goChip] at hop
  exact does_recorded hs hm hw hn (by simp [C.learn_moves]) (fun t => [(i, t.moved i (s.chip.learnResult sl (bits w.data 91 72)))]) hop

end

theorem emUnlearn_misses (h : s.chip.emLearned sl (bits w.data 255 96) = none) : Does (.emUnlearn src sl) s fun t =>
    WinDone t (emWin sl) 7 { code := 1 } ∧ OnlyParts s t [emWin sl + 4, emWin sl + 8] [.wins, .house] := by
  have hgo : s.chip.Keeps (s.goChip (emWin sl) 7) [emWin sl + 4] [.house] := State.keeps_goChip (.head _) (.head _)
  refine does_goAnswer (exec_emUnlearn ..) hm hw (by decide) ?_
  rw [Chip.emUnlearnOp, (hgo.sameEm (by simp) (by simp) sl).emLearned, h]

include hs in
theorem emUnlearn_frees (hn : (s.chip.sliceMates sl).Nodup) {i : Nat} (h : s.chip.emLearned sl (bits w.data 255 96) = some i) :
    Does (.emUnlearn src sl) s fun t => WinDone t (emWin sl) 7 { code := 0 } ∧
      (∀ m ∈ s.chip.sliceMates sl, t.chip.emTab m = (s.chip.emTab m).removed i) ∧
      (∀ m, m ∉ s.chip.sliceMates sl → t.chip.emTab m = s.chip.emTab m) ∧
      OnlyParts s t ([emWin sl + 4, emWin sl + 8] ++ s.chip.recordRegs sl) ([.wins, .house] ++ recordParts) := by
  have hgo : s.chip.Keeps (s.goChip (emWin sl) 7) [emWin sl + 4] [.house] := State.keeps_goChip (.head _) (.head _)
  have hhome := State.emHome_of_mayGo hs hm
  have himage := hgo.image (by simp)
  have hregs := Chip.recordRegs_of_image himage sl
  have hmates := Chip.sliceMates_of_image himage sl
  have htab : ∀ m, ((s.goChip (emWin sl) 7).unlearn sl i 6).emTab m =
      if m ∈ s.chip.sliceMates sl then (s.chip.emTab m).removed i else s.chip.emTab m := fun m => by
    rw [Chip.emTab_unlearn (by rwa [hmates]), hmates, hgo.emTab (by simp)]
  have hop : Chip.emUnlearnOp sl w (s.goChip (emWin sl) 7) = ((s.goChip (emWin sl) 7).unlearn sl i 6, { code := 0 }) := by
    rw [Chip.emUnlearnOp, (hgo.sameEm (by simp) (by simp) sl).emLearned, h]
  have hdone : (s.goChip (emWin sl) 7).Keeps ((s.goChip (emWin sl) 7).unlearn sl i 6) (s.chip.recordRegs sl) recordParts :=
    (Chip.Keeps.refl _).unlearn (by rw [hregs]; exact List.Subset.refl _) (List.Subset.refl _) ..
  refine does_winGo (exec_emUnlearn ..) hm hw hop ⟨winDone_of_keeps hdone (fun ha => Chip.emWin_not_mem_engineRegs hs hhome
    (s.chip.recordRegs_subset sl ha)) (by decide) _, fun m hmem => ?_, fun m hmem => ?_, ?_⟩
  · rw [Chip.emTab_winHeld, htab, if_pos hmem]
  · rw [Chip.emTab_winHeld, htab, if_neg hmem]
  · exact (Chip.Keeps.unlearn (State.keeps_goChip (by simp) (by simp)) (by rw [hregs]; exact List.subset_append_right ..)
      (List.subset_append_right ..) _ _).onlyParts_winHeld (by simp) (by simp) _

end

end Sys2Proof.Machine
end

section
/-! SUPPORT. EM_FLUSH_PORT and OVERFLOW_RETURN (spec/08_exact_match.md R183, R185, R195). -/

namespace Sys2Proof.Machine

open Sys2Proof

/-! ### A flush -/

/-- A flush removes a learned entry with that result, of its port. -/
def WinIn.flushes (w : WinIn) (result : Nat) : Bool :=
  bit w.data 31 || (nbits result 50 40 == bits w.data 18 8 && (nbits result 59 58 == 1 || bits w.data 18 8 == 0))

section
variable {c : Chip} {sl : Nat} {w : WinIn}

theorem Chip.emFlushOp_eq : Chip.emFlushOp sl w c =
    (c.flushWhere sl fun r => nbits r 57 51 == bits w.data 6 0 && w.flushes r, { code := 0 }) := by
  unfold Chip.emFlushOp WinIn.flushes
  cases bit w.data 31
  · simp only [Bool.false_eq_true, if_false, Bool.false_or, Bool.and_assoc]
  · simp only [if_true, Bool.true_or, Bool.and_true, Chip.flushPortAll]

/-- No learned entry is of the port. -/
theorem Chip.flushWhere_none {p : Nat → Bool} (h : ∀ x ∈ (c.emTab sl).entries, (x.2.valid && x.2.learned && p x.2.result) = false) :
    c.flushWhere sl p = c := by
  have hgone : (c.emTab sl).entries.filter (fun x => x.2.valid && x.2.learned && p x.2.result) = [] :=
    List.filter_eq_nil_iff.mpr fun x hx => by simp [h x hx]
  rw [Chip.flushWhere, hgone, List.map_nil, Chip.each_nil]

/-- The one entry of a table is of the port. -/
theorem Chip.flushWhere_one {p : Nat → Bool} {i : Nat} {e : EmEntry} (h : (c.emTab sl).entries = [(i, e)])
    (hp : (e.valid && e.learned && p e.result) = true) :
    c.flushWhere sl p = (c.unlearn sl i 4).cnt (c.sliceCnt sl + C.flushed) 1 := by
  have hgone : (c.emTab sl).entries.filter (fun x => x.2.valid && x.2.learned && p x.2.result) = [(i, e)] := by
    rw [h]
    exact List.filter_eq_self.mpr (by simpa using hp)
  rw [Chip.flushWhere, hgone, List.map_cons, List.map_nil, Chip.each_cons, Chip.each_nil]

end

section
variable {s : State} {src : Source} {sl : Nat} {w : WinIn} (hs : sl < 8) (hm : s.mayGo src (emWin sl) = true)
  (hw : s.chip.winIn src (emWin sl) = w)
include hm hw

/-- A flush that finds no entry changes the window alone. -/
theorem emFlush_none (h : ∀ x ∈ (s.chip.emTab sl).entries,
      (x.2.valid && x.2.learned && (nbits x.2.result 57 51 == bits w.data 6 0 && w.flushes x.2.result)) = false) {l : List Nat} {ps : List Part}
    (hb : emWin sl + 4 ∈ l) (hb' : emWin sl + 8 ∈ l) (hwins : .wins ∈ ps) (hhouse : .house ∈ ps) : Does (.emFlushPort src sl) s fun t =>
      WinDone t (emWin sl) 8 { code := 0 } ∧ t.chip.em = s.chip.em ∧ OnlyParts s t l ps := by
  have hgo : s.chip.Keeps (s.goChip (emWin sl) 8) [emWin sl + 4] [.house] := State.keeps_goChip (.head _) (.head _)
  have hop : Chip.emFlushOp sl w (s.goChip (emWin sl) 8) = (s.goChip (emWin sl) 8, { code := 0 }) := by
    rw [Chip.emFlushOp_eq, Chip.flushWhere_none]
    rwa [hgo.emTab (by simp)]
  refine does_winGo (exec_emFlushPort ..) hm hw hop
    ⟨winDone_of_keeps (l := []) (ps := []) (.refl _) List.not_mem_nil (by decide) _, ?_,
      (State.keeps_goChip hb hhouse).onlyParts_winHeld hb' hwins _⟩
  rw [Chip.winHeld_em, hgo.em (by simp)]

include hs in
/-- A flush of the one entry of a table. -/
theorem emFlush_one (hn : (s.chip.sliceMates sl).Nodup) {i : Nat} {e : EmEntry} (he : (s.chip.emTab sl).entries = [(i, e)])
    (hp : (e.valid && e.learned && (nbits e.result 57 51 == bits w.data 6 0 && w.flushes e.result)) = true) :
    Does (.emFlushPort src sl) s fun t => WinDone t (emWin sl) 8 { code := 0 } ∧
      (∀ m ∈ s.chip.sliceMates sl, t.chip.emTab m = (s.chip.emTab m).removed i) ∧
      (∀ m, m ∉ s.chip.sliceMates sl → t.chip.emTab m = s.chip.emTab m) ∧
      t.chip.reg (s.chip.sliceCnt sl + C.flushed) = s.chip.reg (s.chip.sliceCnt sl + C.flushed) + 1 ∧
      OnlyParts s t ([emWin sl + 4, emWin sl + 8] ++ s.chip.recordRegs sl ++ [s.chip.sliceCnt sl + C.flushed]) ([.wins, .house] ++ recordParts) := by
  have hgo : s.chip.Keeps (s.goChip (emWin sl) 8) [emWin sl + 4] [.house] := State.keeps_goChip (.head _) (.head _)
  have hhome := State.emHome_of_mayGo hs hm
  have himage := hgo.image (by simp)
  have hregs := Chip.recordRegs_of_image himage sl
  have hmates := Chip.sliceMates_of_image himage sl
  have hop : Chip.emFlushOp sl w (s.goChip (emWin sl) 8) =
      (((s.goChip (emWin sl) 8).unlearn sl i 4).cnt (s.chip.sliceCnt sl + C.flushed) 1, { code := 0 }) := by
    rw [Chip.emFlushOp_eq, Chip.flushWhere_one (by rw [hgo.emTab (by simp), he]) hp, Chip.sliceCnt_of_image himage]
  have htab : ∀ m, ((s.goChip (emWin sl) 8).unlearn sl i 4).emTab m =
      if m ∈ s.chip.sliceMates sl then (s.chip.emTab m).removed i else s.chip.emTab m := fun m => by
    rw [Chip.emTab_unlearn (by rwa [hmates]), hmates, hgo.emTab (by simp)]
  have hfreed : (s.goChip (emWin sl) 8).Keeps ((s.goChip (emWin sl) 8).unlearn sl i 4) (s.chip.engineRegs sl) recordParts :=
    (Chip.Keeps.refl _).unlearn (by rw [hregs]; exact s.chip.recordRegs_subset sl) (List.Subset.refl _) ..
  refine does_winGo (exec_emFlushPort ..) hm hw hop ⟨winDone_of_engine hs hhome
    ((hfreed.mono (List.subset_append_left ..)).cnt (List.mem_append_right _ (.head _)) 1) (by simp [C.flushed]) (by decide) _,
    fun m hmem => ?_, fun m hmem => ?_, ?_, ?_⟩
  · rw [Chip.emTab_winHeld, Chip.emTab_cnt, htab, if_pos hmem]
  · rw [Chip.emTab_winHeld, Chip.emTab_cnt, htab, if_neg hmem]
  · rw [reg_winHeld_cnt hhome (by simp [C.flushed]), Chip.reg_cnt_same,
      hfreed.1 _ (Chip.cnt_not_mem_engineRegs hs hhome (by simp [C.flushed])), reg_goChip_cnt hhome (by simp [C.flushed])]
    rfl
  · exact ((Chip.Keeps.unlearn (State.keeps_goChip (by simp) (by simp)) (by rw [hregs]; exact fun a ha => by simp [ha])
      (List.subset_append_right ..) _ _).cnt (by simp) 1).onlyParts_winHeld (by simp) (by simp) _

end

/-! ### A return from the overflow store -/

/-- The table after an entry moved: it is copied, then cleared. -/
def EmTable.carried (t : EmTable) (e f : Nat) : EmTable :=
  (t.written [(f, t.entries.look e)]).written [(e, { (t.written [(f, t.entries.look e)]).entries.look e with
    state := putBits ((t.written [(f, t.entries.look e)]).entries.look e).state 7 7 0 })]

section
variable {c d : Chip} {sl : Nat}

theorem Chip.Keeps.emMove {l : List Nat} {ps : List Part} (h : c.Keeps d l ps) (hl : d.emRegs sl ++ injRegs ⊆ l) (hp : landParts ⊆ ps)
    (e f : Nat) : c.Keeps (d.emMove sl e f) l ps := by
  obtain ⟨hem, hinj⟩ := List.append_subset.mp hl
  obtain ⟨hp, ha⟩ := List.append_subset.mp hp
  unfold Chip.emMove
  exact ((h.emStoreAll hem hinj hp _).emStoreAll (by rwa [Chip.emRegs_of_image (d.image_emStoreAll sl _)]) hinj hp _).setAccord (ha (.head _)) _

theorem Chip.emTab_emMove (hn : (c.sliceMates sl).Nodup) (e f k : Nat) :
    (c.emMove sl e f).emTab k = if k ∈ c.sliceMates sl then (c.emTab k).carried e f else c.emTab k := by
  have hmates := Chip.sliceMates_of_image (c.image_emStoreAll sl fun d m => [(f, (d.emTab m).entries.look e)]) sl
  have hcopy := Chip.emTab_emStoreAll hn (fun t => [(f, t.entries.look e)]) k
  have hclear := Chip.emTab_emStoreAll (c := c.emStoreAll sl fun d m => [(f, (d.emTab m).entries.look e)]) (by rwa [hmates])
    (fun t => [(e, { t.entries.look e with state := putBits (t.entries.look e).state 7 7 0 })]) k
  rw [hmates, hcopy] at hclear
  refine hclear.trans ?_
  split <;> rfl

end

/-- An entry that moves to a bucket's place leaves its overflow position free. -/
theorem EmTable.carried_spec (t : EmTable) {e f : Nat} (he : emOvf e = true) (hf : f < 0x40000) :
    (t.carried e f).entries.look f = t.entries.look e ∧ ((t.carried e f).entries.look e).valid = false ∧
    (t.carried e f).seqs.look (emSeqKey e) = (t.seqs.look (emSeqKey e) + 1) % 65536 ∧
    (t.carried e f).seqs.look (emSeqKey f) = (t.seqs.look (emSeqKey f) + 1) % 65536 := by
  have hge : 0x40000 ≤ e := of_decide_eq_true he
  have hne : f ≠ e := by omega
  have hkeys : emSeqKey f ≠ emSeqKey e := by
    rw [emSeqKey, emSeqKey, he, if_pos rfl, if_neg (by simpa [emOvf] using hf)]
    omega
  unfold EmTable.carried
  simp only [EmTable.written_single, Tbl.look_set, hne, hne.symm, hkeys, hkeys.symm, if_true, if_false]
  exact ⟨trivial, bit_putBits_valid _, trivial, trivial⟩

section
variable {s : State} {sl i : Nat} (hr : s.runs .core = true)
include hr

theorem overflowReturn_stays (h : emOvf i = false ∨ (s.chip.emAt sl i).valid = false) :
    Does (.overflowReturn sl i) s fun t => OnlyRegs s t [] := by
  refine Does.of_run (exec_overflowReturn ..) hr ?_
  rw [if_neg]
  · exact Chip.Keeps.onlyRegs (.refl _)
  · rw [Bool.and_eq_true, Bool.and_eq_true]
    rintro ⟨⟨-, ho⟩, hv⟩
    obtain h | h := h
    · exact Bool.false_ne_true (h.symm.trans ho)
    · exact Bool.false_ne_true (h.symm.trans hv)

theorem overflowReturn_moves (hs : sl < 8) (he : s.chip.emEngine sl = true) (hn : (s.chip.sliceMates sl).Nodup)
    (hi : emOvf i = true ∧ (s.chip.emAt sl i).valid = true ∧ (s.chip.emAt sl i).pair = 0) {f : Nat}
    (hf : s.chip.emSpot sl (s.chip.emAt sl i).key = some f) : Does (.overflowReturn sl i) s fun t =>
      (∀ m ∈ s.chip.sliceMates sl, t.chip.emTab m = (s.chip.emTab m).carried i f) ∧
      (∀ m, m ∉ s.chip.sliceMates sl → t.chip.emTab m = s.chip.emTab m) ∧
      t.chip.reg (s.chip.sliceCnt sl + C.ovf_returns) = s.chip.reg (s.chip.sliceCnt sl + C.ovf_returns) + 1 ∧
      OnlyParts s t (s.chip.emRegs sl ++ injRegs ++ [s.chip.sliceCnt sl + C.ovf_returns]) landParts := by
  have hhome : s.chip.emHome sl = sl := by
    simp only [Chip.emEngine, Bool.and_eq_true] at he
    obtain ⟨⟨⟨⟨hfirst, -⟩, -⟩, -⟩, -⟩ := he
    rw [Chip.emHome, eq_of_beq hfirst, U.index, U.slice]
    omega
  obtain ⟨hovf, hvalid, hpair⟩ := hi
  have hcond : (s.chip.quiet.emEngine sl && emOvf i && (s.chip.quiet.emAt sl i).valid) = true := by
    rw [Bool.and_eq_true, Bool.and_eq_true]
    exact ⟨⟨he, hovf⟩, hvalid⟩
  have hpair : (s.chip.quiet.emAt sl i).pair = 0 := hpair
  have hspot : s.chip.quiet.emSpot sl (s.chip.quiet.emAt sl i).key = some f := hf
  have hexec : exec (.overflowReturn sl i) s = .next { s with chip := (s.chip.quiet.emMove sl i f).cnt (s.chip.sliceCnt sl + C.ovf_returns) 1 } := by
    rw [exec_overflowReturn, execOverflowReturn, State.run_of_runs hr]
    dsimp only
    rw [if_pos hcond, if_pos hpair, hspot]
    rfl
  have hmove : s.chip.quiet.Keeps (s.chip.quiet.emMove sl i f) (s.chip.emRegs sl ++ injRegs) landParts :=
    (Chip.Keeps.refl _).emMove (List.Subset.refl _) (List.Subset.refl _) i f
  have htab : ∀ m, (s.chip.quiet.emMove sl i f).emTab m =
      if m ∈ s.chip.sliceMates sl then (s.chip.emTab m).carried i f else s.chip.emTab m := Chip.emTab_emMove (c := s.chip.quiet) hn i f
  refine ⟨_, hexec, fun m hm => (htab m).trans (if_pos hm), fun m hm => (htab m).trans (if_neg hm), ?_, ?_⟩
  · refine Chip.Keeps.counted (c := s.chip.quiet) (l' := []) (ps' := []) hmove (.refl _) (fun ha => ?_) List.not_mem_nil
    exact Chip.cnt_not_mem_engineRegs hs hhome (by simp [C.ovf_returns]) (s.chip.emRegs_subset_engineRegs sl ha)
  · exact ((hmove.mono (List.subset_append_left ..)).cnt (List.mem_append_right _ (.head _)) 1).onlyParts

end

end Sys2Proof.Machine
end

section
/-! SUPPORT. The writes of the exact-match window and the return from the overflow store (spec/08_exact_match.md R179 to R195), clause by
clause. -/

namespace Sys2Proof.Machine

open Sys2Proof

section
variable (c : Chip) (sl : Nat) (l : List Nat)

theorem Chip.append_landRegs : l ++ c.landRegs sl =
    l ++ c.emRegs sl ++ injRegs ++ [R.ACCORD_LOG, R.ACCORD_STATUS] ++ [c.sliceCnt sl + C.inserts] := by
  simp only [Chip.landRegs, List.append_assoc]

theorem Chip.append_rewriteRegs : l ++ c.rewriteRegs sl = l ++ c.emRegs sl ++ injRegs ++ [R.ACCORD_LOG, R.ACCORD_STATUS] := by
  simp only [Chip.rewriteRegs, List.append_assoc]

theorem Chip.append_recordRegs : l ++ c.recordRegs sl = l ++ c.emRegs sl ++ injRegs ++ c.fifoRegs (c.emHome sl) := by
  simp only [Chip.recordRegs, List.append_assoc]

end

/-- A valid bit as it is written. -/
theorem b2n_mod_two (n : Nat) : b2n (decide (n % 2 = 1)) = n % 2 := by
  obtain h | h := Nat.mod_two_eq_zero_or_one n <;> simp [h, b2n]

/-- The result of the entry at `i` is rewritten, and its sequence number steps. -/
theorem EmTable.moved_spec (t : EmTable) (i r : Nat) : (t.written [(i, t.moved i r)]).entries.look i =
      { t.entries.look i with body := putBits (t.entries.look i).body 95 32 r } ∧
    (t.written [(i, t.moved i r)]).seqs.look (emSeqKey i) = (t.seqs.look (emSeqKey i) + 1) % 65536 := by
  simp [EmTable.written_single, EmTable.moved]

/-- Settles O36: each clause is an outcome of its operation on the device as its go leaves it. -/
theorem exactMatchWindowWrites : Obligations.ExactMatchWindowWrites := by
  refine ⟨fun s src sl key i e hs hm hmates ha hv hw hh hi => ?_, fun s src sl key i h e e' hs hm hmates ha hv hw he hh hi hq => ?_,
    fun s src sl x path _ hm ha hv hp hh hi hc => emInsert_waits hm rfl ha hv hp hh hi hc,
    fun s src sl hs hm ha hv hp hh ⟨hi, hc, ho⟩ => emInsert_full hs hm rfl ha hv hp hh hi hc ho,
    fun s src sl key wide _ hm ha hv ⟨hp, hk⟩ hh => emInsert_held hm rfl ha hv hp hk hh, fun s src sl _ hm hp hj => emInsert_unbound hm rfl hp hj,
    fun s src sl _ hm h => emInsert_badPair hm rfl h, fun s src sl i lg hs hm hmates hi hq hv hw hj => ?_,
    fun s src sl r _ hm hi hq hv hj hr => emWrite_refused hm rfl hi hq hv hj hr, fun s src sl _ hm h => emWrite_answers hm rfl h,
    fun s src sl i e hs hm hmates h hv hi he => ?_, fun s src sl i hs hm hmates h hv hmv => ?_, fun s src sl _ hm h hv => emLearn_answers hm rfl h hv,
    fun s src sl _ hm h => emLearn_unfit hm rfl h, fun s src sl i hs hm hmates h => ?_, fun s src sl _ hm h => emUnlearn_misses hm rfl h,
    fun s src sl _ hm h => ?_, fun s src sl i e hs hm hmates he hp => ?_,
    fun s sl i f hr hs he hmates hi hf hlow => ?_, fun s sl i hr h => overflowReturn_stays hr h⟩
  · obtain ⟨hp, hkey, he⟩ := hw
    subst hkey
    rw [← Chip.append_landRegs]
    exact emInsert_lands hs hm rfl ha hv hp hh hmates.1 he hi
  · obtain ⟨hp, hhold, hkey⟩ := hw
    obtain ⟨he, he'⟩ := he
    rw [← Chip.append_landRegs]
    exact (emInsert_pairLands hs hm rfl ha hv hmates.1 hmates.2 hp hhold hkey he he' hh hi hq).mono fun t ⟨hdone, htab, hrest⟩ =>
      ⟨hdone, fun m hmem hne => by rw [htab m hmem hne, EmTable.written_pair _ hq], hrest⟩
  · subst hw
    rw [← Chip.append_rewriteRegs]
    refine (emWrite_accepted hs hm rfl hi hq hv hmates.1 hj).mono fun t ⟨hdone, htab, hother, hlog, honly⟩ =>
      ⟨hdone, fun m hmem => ?_, fun m hmem j hj => ?_, hother, hlog.trans (by rw [Chip.logRec, hv.1]), honly⟩
    · obtain ⟨hbody, hstate, hseq, -⟩ := (s.chip.emTab m).rewritten_spec (s.chip.winIn src (emWin sl)).index
        ((s.chip.winIn src (emWin sl)).bodyFor (s.chip.emAt sl (s.chip.winIn src (emWin sl)).index)) (s.chip.winIn src (emWin sl)).validity.valid
      rw [Chip.emAt, Chip.emSeq, htab m hmem]
      exact ⟨hbody, hstate.trans (congrArg _ (b2n_mod_two _)), hseq⟩
    · obtain ⟨-, -, -, hrest⟩ := (s.chip.emTab m).rewritten_spec (s.chip.winIn src (emWin sl)).index
        ((s.chip.winIn src (emWin sl)).bodyFor (s.chip.emAt sl (s.chip.winIn src (emWin sl)).index)) (s.chip.winIn src (emWin sl)).validity.valid
      rw [Chip.emAt, htab m hmem]
      exact hrest j hj
  · rw [← Chip.append_recordRegs]
    exact emLearn_learns hs hm rfl hmates.1 h hv.1 hv.2 hi he
  · obtain ⟨hne, hst, hon⟩ := hmv
    rw [← Chip.append_recordRegs]
    refine (emLearn_moves hs hm rfl hmates.1 h hv.1 hv.2 hne hst hon).mono fun t ⟨hdone, htab, hother, hcnt, honly⟩ =>
      ⟨hdone, fun m hmem => ?_, hother, hcnt, honly⟩
    rw [Chip.emAt, Chip.emSeq, htab m hmem]
    exact (s.chip.emTab m).moved_spec i _
  · rw [← Chip.append_recordRegs]
    refine (emUnlearn_frees hs hm rfl hmates.1 h).mono fun t ⟨hdone, htab, hother, honly⟩ => ⟨hdone, fun m hmem => ?_, hother, honly⟩
    rw [Chip.emAt, Chip.emSeq, htab m hmem]
    exact (s.chip.emTab m).removed_spec i
  · refine (emFlush_none hm rfl (fun x hx => ?_) (.head _) (.tail _ (.head _)) (.head _) (.tail _ (.head _))).mono fun t ⟨hdone, _, honly⟩ =>
      ⟨hdone, honly⟩
    have hnone := List.all_eq_true.mp h x hx
    rw [Bool.not_eq_true', Bool.and_eq_false_iff] at hnone
    obtain hnone | hnone := hnone <;> simp [hnone]
  · obtain ⟨hvalid, hlearned, hport⟩ := hp
    change Does _ _ fun t => _ ∧ ((s.chip.winIn src (emWin sl)).flushes e.result = true → _) ∧
      ((s.chip.winIn src (emWin sl)).flushes e.result = false → _) ∧ _
    rw [← Chip.append_recordRegs]
    cases hflush : (s.chip.winIn src (emWin sl)).flushes e.result
    · have hnone : ∀ x ∈ (s.chip.emTab sl).entries, (x.2.valid && x.2.learned &&
          (nbits x.2.result 57 51 == bits (s.chip.winIn src (emWin sl)).data 6 0 && (s.chip.winIn src (emWin sl)).flushes x.2.result)) = false := by
        simp [he, hflush]
      exact (emFlush_none hm rfl hnone (by simp) (by simp) (by simp) (by simp)).mono fun t ⟨hdone, hem, honly⟩ =>
        ⟨hdone, fun h => absurd h (by decide), fun _ => hem, fun m _ => by rw [Chip.emTab, hem, Chip.emTab], honly⟩
    · have hone : (e.valid && e.learned && (nbits e.result 57 51 == bits (s.chip.winIn src (emWin sl)).data 6 0 &&
          (s.chip.winIn src (emWin sl)).flushes e.result)) = true := by simp [hvalid, hlearned, hport, hflush]
      refine (emFlush_one hs hm rfl hmates.1 he hone).mono fun t ⟨hdone, htab, hother, hcnt, honly⟩ =>
        ⟨hdone, fun _ => ⟨fun m hmem => ?_, hcnt⟩, fun h => absurd h (by decide), hother, honly⟩
      rw [Chip.emAt, Chip.emSeq, htab m hmem]
      exact (s.chip.emTab m).removed_spec i
  · refine (overflowReturn_moves hr hs he hmates.1 hi hf).mono fun t ⟨htab, hother, hcnt, honly⟩ => ⟨fun m hmem => ?_, hother, hcnt, honly⟩
    obtain ⟨hto, hfrom, hseq, hseq'⟩ := (s.chip.emTab m).carried_spec hi.1 hlow
    simp only [Chip.emAt, Chip.emSeq, htab m hmem]
    exact ⟨hto, hfrom, hseq, hseq'⟩

end Sys2Proof.Machine
end

section
/-! SUPPORT. Indirect windows of any unit (spec/20_host_interface.md Table 20-6, R436): what a go leaves of the accords, of the LPM copies and of
the TCAMs, and a write that the accord engine refuses (spec/07_accords.md R159). -/

namespace Sys2Proof.Machine

open Sys2Proof

/-! ### LPM copies and TCAMs as parts of the device -/

section
variable {c d : Chip} {l : List Nat} {ps : List Part} (h : c.Keeps d l ps)
include h

theorem Chip.Keeps.setLpms (hp : .lpm ∈ ps) (v : Tbl LpmCopy) : c.Keeps { d with lpm := v } l ps :=
  h.update (f := fun d => { d with lpm := v }) hp rfl (fun _ => rfl) (fun _ q _ => by cases q <;> trivial) fun _ => rfl

theorem Chip.Keeps.setTcams (hp : .tcam ∈ ps) (v : Tbl Tcam) : c.Keeps { d with tcam := v } l ps :=
  h.update (f := fun d => { d with tcam := v }) hp rfl (fun _ => rfl) (fun _ q _ => by cases q <;> trivial) fun _ => rfl

theorem Chip.Keeps.lpm (hp : .lpm ∉ ps) : d.lpm = c.lpm :=
  h.field (g := Chip.lpm) hp (fun _ q _ => by cases q <;> trivial) fun _ => rfl

theorem Chip.Keeps.setLpm (hp : .lpm ∈ ps) (m : Nat) (t : LpmCopy) : c.Keeps (d.setLpm m t) l ps := h.setLpms hp _

theorem Chip.Keeps.setTcam (hp : .tcam ∈ ps) (m : Nat) (t : Tcam) : c.Keeps (d.setTcam m t) l ps := h.setTcams hp _

theorem Chip.Keeps.lpmTab (hp : .lpm ∉ ps) (m : Nat) : d.lpmTab m = c.lpmTab m := by rw [Chip.lpmTab, h.lpm hp, Chip.lpmTab]

theorem Chip.Keeps.tcamTab (hp : .tcam ∉ ps) (m : Nat) : d.tcamTab m = c.tcamTab m := by rw [Chip.tcamTab, h.tcam hp, Chip.tcamTab]

/-- Words are covered one by one. -/
theorem Chip.Keeps.coverEach {α : Type} (hi : injRegs ⊆ l) (hm : .mem ∈ ps) (hf : .fresh ∈ ps) (hl : .ledger ∈ ps) (xs : List α)
    (u w : Chip → α → Nat) : c.Keeps (d.each xs fun c x => c.coverWord (u c x) (w c x)) l ps :=
  h.each xs fun e _ => (Chip.Keeps.refl e).coverWord hi hm hf hl ..

end

section
variable (c : Chip)

@[simp] theorem Chip.lpmTab_setLpm (h m : Nat) (t : LpmCopy) : (c.setLpm h t).lpmTab m = if m = h then t else c.lpmTab m := by
  rw [Chip.lpmTab, Chip.setLpm, Tbl.look_set, Chip.lpmTab]

@[simp] theorem Chip.tcamTab_setTcam (s m : Nat) (t : Tcam) : (c.setTcam s t).tcamTab m = if m = s then t else c.tcamTab m := by
  rw [Chip.tcamTab, Chip.setTcam, Tbl.look_set, Chip.tcamTab]

theorem Chip.putWin_lpm (a : Nat) (f : Fld) (n base : Nat) (r : Option WinRes) : (c.putWin a f n base r).lpm = c.lpm := rfl
theorem Chip.putWin_tcam (a : Nat) (f : Fld) (n base : Nat) (r : Option WinRes) : (c.putWin a f n base r).tcam = c.tcam := rfl

variable (base : Nat) (r : Option WinRes)

@[simp] theorem Chip.winHeld_lpm : (c.winHeld base r).lpm = c.lpm := by rw [Chip.winHeld, Chip.putWin_lpm]
@[simp] theorem Chip.winHeld_tcam : (c.winHeld base r).tcam = c.tcam := by rw [Chip.winHeld, Chip.putWin_tcam]
@[simp] theorem Chip.lpmTab_winHeld (m : Nat) : (c.winHeld base r).lpmTab m = c.lpmTab m := by rw [Chip.lpmTab, Chip.winHeld_lpm, Chip.lpmTab]
@[simp] theorem Chip.tcamTab_winHeld (m : Nat) : (c.winHeld base r).tcamTab m = c.tcamTab m := by
  rw [Chip.tcamTab, Chip.winHeld_tcam, Chip.tcamTab]

end

/-- A loop over the members of a suite, each turn of which changes that member's table alone. -/
theorem Chip.tab_each {τ : Type} {tab : Chip → Nat → τ} {F : Chip → Nat → Chip} {G : τ → τ}
    (hF : ∀ c m k, tab (F c m) k = if k = m then G (tab c m) else tab c k) {l : List Nat} (hl : l.Nodup) (c : Chip) (k : Nat) :
    tab (c.each l F) k = if k ∈ l then G (tab c k) else tab c k := by
  induction l generalizing c with
  | nil => simp
  | cons m l ih =>
    obtain ⟨hm, hl⟩ := List.nodup_cons.mp hl
    rw [Chip.each_cons, ih hl, hF]
    by_cases hk : k = m
    · subst hk
      simp [hm]
    · simp [hk]

theorem Chip.halfMates_of_image {c d : Chip} (h : d.image = c.image) (m : Nat) : d.halfMates m = c.halfMates m := by
  rw [Chip.halfMates, Chip.members, Chip.suiteOf, h, Chip.halfMates, Chip.members, Chip.suiteOf]

/-! ### A go and the accords -/

section
variable {s : State} {base op : Nat}

/-- The registers of the accords stand below every window. -/
theorem State.sameAccords_goChip (hb : 0x08000000 ≤ base) : s.chip.SameAccords (s.goChip base op) :=
  Chip.Keeps.sameAccords (State.keeps_goChip (l := [base + 4]) (ps := [.house]) (.head _) (.head _)) fun a ha => by
    rw [List.mem_singleton.mp ha]
    omega

/-- A go leaves the judgement of its write. -/
theorem State.judge_go (hb : 0x08000000 ≤ base) (src : Source) (old new : Validity) (same : Bool) :
    (s.goChip base op).judge src old new same = s.chip.judge src old new same := by
  have hgo : s.chip.Keeps (s.goChip base op) [base + 4] [.house] := State.keeps_goChip (.head _) (.head _)
  have ha := State.sameAccords_goChip (s := s) (op := op) hb
  have hbound : (s.goChip base op).holdsBound src = s.chip.holdsBound src := by
    rw [Chip.holdsBound, ha.bound, ha.latchkey, Chip.latch, hgo.ledger (by simp), Chip.holdsBound, Chip.latch]
  have hused : (s.goChip base op).logUsed = s.chip.logUsed := by
    rw [Chip.logUsed, hgo.accord (by simp), hgo.tcam (by simp), hgo.em (by simp), Chip.logUsed]
  simp only [Chip.judge, ha.pending, ha.live, ha.newest, ha.state, hbound, hused]

theorem State.image_goChip : (s.goChip base op).image = s.chip.image :=
  Chip.Keeps.image (l := [base + 4]) (ps := [.house]) (State.keeps_goChip (.head _) (.head _)) (by simp)

theorem State.lpm_goChip : (s.goChip base op).lpm = s.chip.lpm :=
  Chip.Keeps.lpm (l := [base + 4]) (ps := [.house]) (State.keeps_goChip (.head _) (.head _)) (by simp)

theorem State.tcam_goChip : (s.goChip base op).tcam = s.chip.tcam :=
  Chip.Keeps.tcam (l := [base + 4]) (ps := [.house]) (State.keeps_goChip (.head _) (.head _)) (by simp)

theorem State.mem_goChip : (s.goChip base op).mem = s.chip.mem :=
  Chip.Keeps.mem (l := [base + 4]) (ps := [.house]) (State.keeps_goChip (.head _) (.head _)) (by simp)

theorem State.accord_goChip : (s.goChip base op).accord = s.chip.accord :=
  Chip.Keeps.accord (l := [base + 4]) (ps := [.house]) (State.keeps_goChip (.head _) (.head _)) (by simp)

theorem State.lpmTab_goChip (m : Nat) : (s.goChip base op).lpmTab m = s.chip.lpmTab m := by rw [Chip.lpmTab, State.lpm_goChip, Chip.lpmTab]

theorem State.tcamTab_goChip (m : Nat) : (s.goChip base op).tcamTab m = s.chip.tcamTab m := by
  rw [Chip.tcamTab, State.tcam_goChip, Chip.tcamTab]

theorem State.poisoned_goChip (u w : Nat) : (s.goChip base op).poisoned u w = s.chip.poisoned u w := by
  rw [Chip.poisoned, Chip.grp, State.mem_goChip, Chip.poisoned, Chip.grp]

/-- CMD.op stands while the command is in hand, whether its result is there or not. -/
theorem op_winHeld_of_keeps {d : Chip} {l : List Nat} {ps : List Part} (h : (s.goChip base op).Keeps d l ps) (hb : base + 4 ∉ l) (hop : op < 16)
    (r : Option WinRes) : (d.winHeld base r).get (base + 4) R.WIN_CMD_op = op := by
  have hne : base + 4 + R.WIN_CMD_op.off ≠ base + 8 := by simp [R.WIN_CMD_op]
  obtain ⟨-, -, hshown⟩ := winDone_of_keeps h hb hop { code := 0 }
  rw [Chip.get_winHeld d base _ hne] at hshown ⊢
  exact hshown

variable {i : Instr} {src : Source} {w : WinIn} (hb : 0x08000000 ≤ base) (hm : s.mayGo src base = true) (hw : s.chip.winIn src base = w)
include hb hm hw

/-- A write in any window that the accord engine refuses (R159). -/
theorem does_writeRefused {r : Nat} {f : WinIn → Chip → Chip × Option WinRes}
    (he : exec i s = s.bus src (base + 4) true fun c => c.winLater src base op f) (hop : op < 16) (hr : r < 8)
    (hf : f w (s.goChip base op) = ((s.goChip base op).refuseWrite r base w.index, some { code := 5 })) : Does i s fun t =>
      WinDone t base op { code := 5 } ∧ t.chip.get 0 R.ACCORD_REFUSAL_rule = r ∧ t.chip.get 0 R.ACCORD_EVENT_refused = 1 ∧
      t.chip.reg C.refused_writes = s.chip.reg C.refused_writes + 1 ∧
      OnlyParts s t ([base + 4, base + 8] ++ refusalRegs) [.wins, .house] := by
  have hlow : ∀ {a : Nat}, a < 0x08000000 → ∀ o, a ≠ base + o := fun ha o => by omega
  have hgo : s.chip.Keeps (s.goChip base op) [base + 4] [.house] := State.keeps_goChip (.head _) (.head _)
  refine does_winLater he hm hw hf ⟨winDone_of_keeps (l := refusalRegs) (ps := []) (Chip.Keeps.refuseWrite (.refl _) (List.Subset.refl _) ..)
    ?_ hop _, ?_, ?_, ?_, ?_⟩
  · simp only [refusalRegs, List.mem_cons, List.not_mem_nil, or_false, not_or]
    exact ⟨(hlow (by decide) _).symm, (hlow (by decide) _).symm, (hlow (by decide) _).symm, (hlow (by decide) _).symm⟩
  · rw [Chip.get_winHeld _ _ _ (hlow (by decide) _), Chip.rule_refuseWrite _ _ _ hr]
  · rw [Chip.get_winHeld _ _ _ (hlow (by decide) _), Chip.refused_refuseWrite]
  · rw [Chip.reg_winHeld _ _ _ (hlow (by decide) _), Chip.counted_refuseWrite,
      hgo.1 _ (by rw [List.mem_singleton]; exact hlow (by decide) _)]
  · exact ((State.keeps_goChip (by simp) (by simp)).refuseWrite (List.subset_append_right ..) _ _ _).onlyParts_winHeld (by simp) (by simp) _

/-- The same, of an operation that has its result at once. -/
theorem does_goWriteRefused {r : Nat} {f : WinIn → Chip → Chip × WinRes} (he : exec i s = s.winGo src base op f) (hop : op < 16) (hr : r < 8)
    (hf : f w (s.goChip base op) = ((s.goChip base op).refuseWrite r base w.index, { code := 5 })) : Does i s fun t =>
      WinDone t base op { code := 5 } ∧ t.chip.get 0 R.ACCORD_REFUSAL_rule = r ∧ t.chip.get 0 R.ACCORD_EVENT_refused = 1 ∧
      t.chip.reg C.refused_writes = s.chip.reg C.refused_writes + 1 ∧
      OnlyParts s t ([base + 4, base + 8] ++ refusalRegs) [.wins, .house] :=
  does_writeRefused (f := fun w c => ((f w c).1, some (f w c).2)) hb hm hw he hop hr (by rw [hf])

end

/-- The registers of a window of a slice or a half are none of a memory group. -/
theorem add_four_not_mem_errRegs {base : Nat} (hb : base < 0x20000000) (u : Nat) : base + 4 ∉ errRegs u := by
  simp only [errRegs, A.group, R.MEM_EVENT, C.ce_bytes, C.ue_reads, C.log_lost, List.mem_cons, List.not_mem_nil, or_false]
  omega

/-- Nor of a planted error's or of the log's. -/
theorem add_four_not_mem_logRegs {base : Nat} (hb : 0x08000000 ≤ base) : base + 4 ∉ [R.ACCORD_LOG, R.ACCORD_STATUS] ++ injRegs := by
  simp only [injRegs, R.ACCORD_LOG, R.ACCORD_STATUS, R.LEDGER_INJ_CTRL, C.injections, List.mem_append, List.mem_cons, List.not_mem_nil, or_false]
  omega

section
variable {s : State} {i : Instr} {src : Source} {base op : Nat} {w : WinIn} (hb : base < 0x20000000) (hm : s.mayGo src base = true)
  (hw : s.chip.winIn src base = w)
include hb hm hw

/-- A read in a window, which meets the errors of the words that it reads (spec/17_memory_protection.md R368, R375). -/
theorem does_readPoison {f : WinIn → Chip → Chip × WinRes} {u v n : Nat} {r : WinRes} (he : exec i s = s.winGo src base op f) (hop : op < 16)
    (hf : f w (s.goChip base op) = ((s.goChip base op).readPoison u v n, r)) : Does i s fun t =>
      WinDone t base op r ∧ OnlyParts s t ([base + 4, base + 8] ++ errRegs u) ([.wins, .house] ++ [.mem, .ledger]) := by
  have hread : (s.goChip base op).Keeps ((s.goChip base op).readPoison u v n) (errRegs u) [.mem, .ledger] :=
    (Chip.Keeps.refl _).readPoison (by simp) (by simp) (List.Subset.refl _) v n
  refine does_winGo he hm hw hf ⟨winDone_of_keeps hread (add_four_not_mem_errRegs hb u) hop _, ?_⟩
  exact ((State.keeps_goChip (by simp) (by simp)).readPoison (by simp) (by simp) (List.subset_append_right ..) v n).onlyParts_winHeld
    (by simp) (by simp) _

end

end Sys2Proof.Machine
end

section
/-! SUPPORT. What the LPM functions look at (spec/09_lpm_and_tcam.md R198 to R208): the structure of the image, the copies, and the registers of
the lengths. Two devices that agree in these give the same answers, and a go in a window of a half leaves them. -/

namespace Sys2Proof.Machine

open Sys2Proof

/-- On both devices the image's structure, the LPM copies, the settings of the lengths and the number of lines are the same. A window gives a
length of eight bits. -/
structure Chip.SameLpm (c d : Chip) : Prop where
  image : d.image = c.image
  lpm : d.lpm = c.lpm
  setting : ∀ h v6 n (f : Fld), n < 256 → f.off = R.LPM_LEN_V4 → d.get (c.lenBase h v6 n) f = c.get (c.lenBase h v6 n) f
  lines : ∀ h, d.get (A.half (c.lpmHome h)) R.LPM_CONFIG_lines = c.get (A.half (c.lpmHome h)) R.LPM_CONFIG_lines

section
variable {c d : Chip}

theorem Chip.lpmHome_of_image (hi : d.image = c.image) (h : Nat) : d.lpmHome h = c.lpmHome h := by
  rw [Chip.lpmHome, Chip.suiteUnit_of_image hi, Chip.lpmHome]

theorem Chip.lenBase_of_image (hi : d.image = c.image) (h : Nat) (v6 : Bool) (n : Nat) : d.lenBase h v6 n = c.lenBase h v6 n := by
  rw [Chip.lenBase, Chip.lpmHome_of_image hi, Chip.lenBase]

theorem Chip.lpmWord_go_of_image (hi : d.image = c.image) (h : Nat) (l : List Nat) (g : Nat) : Chip.lpmWord.go d h l g = Chip.lpmWord.go c h l g := by
  induction l generalizing g with
  | nil => rfl
  | cons s l ih => simp only [Chip.lpmWord.go, hi, ih]

theorem Chip.lpmWord_of_image (hi : d.image = c.image) (h i : Nat) : d.lpmWord h i = c.lpmWord h i := by
  simp only [Chip.lpmWord, Chip.lpmWord_go_of_image hi, hi]

variable (hs : c.SameLpm d) (h : Nat)
include hs

theorem Chip.SameLpm.lpmTab : d.lpmTab h = c.lpmTab h := by rw [Chip.lpmTab, hs.lpm, Chip.lpmTab]

theorem Chip.SameLpm.lpmSlotAt (i : Nat) : d.lpmSlotAt h i = c.lpmSlotAt h i := by rw [Chip.lpmSlotAt, hs.lpmTab, Chip.lpmSlotAt]

theorem Chip.SameLpm.lpmAt (i : Nat) : d.lpmAt h i = c.lpmAt h i := by rw [Chip.lpmAt, hs.lpmSlotAt, hs.lpmSlotAt, Chip.lpmAt]

theorem Chip.SameLpm.lpmSeq (i : Nat) : d.lpmSeq h i = c.lpmSeq h i := by rw [Chip.lpmSeq, hs.lpmTab, Chip.lpmSeq]

theorem Chip.SameLpm.lpmWords (i : Nat) : d.lpmWords h i = c.lpmWords h i := by rw [Chip.lpmWords, hs.lpmSlotAt, Chip.lpmWords]

theorem Chip.SameLpm.lpmWas (i : Nat) : d.lpmWas h i = c.lpmWas h i := by simp only [Chip.lpmWas, hs.lpmSlotAt, hs.lpmAt]

theorem Chip.SameLpm.lpmIndexOk (i : Nat) : d.lpmIndexOk h i = c.lpmIndexOk h i := by
  rw [Chip.lpmIndexOk, Chip.lpmLines, Chip.lpmHome_of_image hs.image, hs.lines, Chip.lpmIndexOk, Chip.lpmLines]

theorem Chip.SameLpm.lpmReturn (hm : d.mem = c.mem) (i : Nat) : d.lpmReturn h i = c.lpmReturn h i := by
  simp only [Chip.lpmReturn, hs.lpmSlotAt, hs.lpmSeq, hs.lpmWords, Chip.poisoned, Chip.grp, hm, Chip.lpmWord_of_image hs.image]

section
variable {n : Nat} (hn : n < 256) (v6 : Bool)
include hn

theorem Chip.SameLpm.lenEnabled : d.lenEnabled h v6 n = c.lenEnabled h v6 n := by
  rw [Chip.lenEnabled, Chip.on, Chip.lenBase_of_image hs.image, hs.setting _ _ _ _ hn rfl, Chip.lenEnabled, Chip.on]

variable (ctx pfx : Nat)

theorem Chip.SameLpm.lpmLine (b : Nat) : d.lpmLine h b v6 n ctx pfx = c.lpmLine h b v6 n ctx pfx := by
  simp only [Chip.lpmLine, Chip.lenBase_of_image hs.image, hs.setting _ _ _ R.LPM_LEN_V4_log2_lines hn rfl,
    hs.setting _ _ _ R.LPM_LEN_V4_base_line hn rfl]

theorem Chip.SameLpm.lpmMatches (accord : Nat) : d.lpmMatches h v6 n ctx pfx accord = c.lpmMatches h v6 n ctx pfx accord := by
  simp only [Chip.lpmMatches, Chip.lpmPlaces, Chip.lpmKeyIs, hs.lpmLine h hn, hs.lpmSlotAt, hs.lpmAt]

end

section
variable (ha : c.SameAccords d)
include ha

theorem Chip.SameLpm.lpmFree (i : Nat) : d.lpmFree h i = c.lpmFree h i := by
  simp only [Chip.lpmFree, Chip.deadValidity, hs.lpmSlotAt, hs.lpmAt, ha.live, ha.pending]

theorem Chip.SameLpm.lpmRoom (l : Nat) : d.lpmRoom h l = c.lpmRoom h l := by simp only [Chip.lpmRoom, hs.lpmFree h ha]

theorem Chip.SameLpm.lpmFreeIn (l : Nat) (v6 : Bool) : d.lpmFreeIn h l v6 = c.lpmFreeIn h l v6 := by
  simp only [Chip.lpmFreeIn, hs.lpmFree h ha]

theorem Chip.SameLpm.lpmSpot {e : LpmEntry} (hn : e.length < 256) : d.lpmSpot h e = c.lpmSpot h e := by
  simp only [Chip.lpmSpot, hs.lpmLine h hn, hs.lpmRoom h ha, hs.lpmFreeIn h ha]

end

end

/-! ### On the device as a go leaves it -/

/-- A field of eight bits holds the length. -/
theorem lpmEntry_length_lt (a b : LpmSlot) : (lpmEntry a b).length < 256 := by
  unfold lpmEntry
  split <;> exact bits_lt ..

theorem WinIn.lpmEntry_length_lt (w : WinIn) : w.lpmEntry.length < 256 := Sys2Proof.Machine.lpmEntry_length_lt ..

theorem lpmWin_bounds {h : Nat} (hh : h < 2) : 0x08000000 ≤ lpmWin h ∧ lpmWin h < 0x20000000 := by
  simp only [lpmWin, A.half]
  omega

theorem filterWin_bounds {h : Nat} (hh : h < 2) (v6 : Bool) : 0x08000000 ≤ filterWin h v6 ∧ filterWin h v6 < 0x20000000 := by
  simp only [filterWin, A.half]
  split <;> omega

theorem State.sameLpm_goChip (s : State) (h op : Nat) : s.chip.SameLpm (s.goChip (lpmWin h) op) := by
  have hgo : s.chip.Keeps (s.goChip (lpmWin h) op) [lpmWin h + 4] [.house] := State.keeps_goChip (.head _) (.head _)
  refine ⟨State.image_goChip, State.lpm_goChip, fun m v6 n f hn hf => hgo.get ?_, fun m => hgo.get ?_⟩
  · simp only [Chip.lenBase, hf, lpmWin, A.half, R.LPM_LEN_V4, R.LPM_LEN_V6, List.mem_singleton]
    split <;> omega
  · simp only [lpmWin, A.half, R.LPM_CONFIG_lines, List.mem_singleton]
    omega

end Sys2Proof.Machine
end

section
/-! SUPPORT. The operations that read in the LPM entry window (spec/09_lpm_and_tcam.md R199, R200, R208). -/

namespace Sys2Proof.Machine

open Sys2Proof

section
variable {c : Chip} {h accord : Nat} {w : WinIn}

theorem Chip.lpmSearch_finds {i : Nat} (hok : lenOk w.lpmEntry.v6 w.lpmEntry.length = true)
    (hon : c.lenEnabled h w.lpmEntry.v6 w.lpmEntry.length = true)
    (hi : (c.lpmMatches h w.lpmEntry.v6 w.lpmEntry.length w.lpmEntry.ctx w.lpmEntry.prefix_ accord).head? = some i) :
    c.lpmSearch h accord w = (c, { c.lpmReturn h i with index := some i }) := by
  simp only [Chip.lpmSearch, hok, hon, hi, Bool.not_true, Bool.or_self, Bool.false_eq_true, if_false]

theorem Chip.lpmSearch_misses (hmiss : lenOk w.lpmEntry.v6 w.lpmEntry.length = false ∨
      c.lenEnabled h w.lpmEntry.v6 w.lpmEntry.length = false ∨
      c.lpmMatches h w.lpmEntry.v6 w.lpmEntry.length w.lpmEntry.ctx w.lpmEntry.prefix_ accord = []) :
    c.lpmSearch h accord w = (c, { code := 1 }) := by
  obtain hlen | hlen | hnone := hmiss
  · simp only [Chip.lpmSearch, hlen, Bool.not_false, Bool.true_or, if_true]
  · simp only [Chip.lpmSearch, hlen, Bool.not_false, Bool.or_true, if_true]
  · simp only [Chip.lpmSearch, hnone, List.head?_nil, ite_self]

end

section
variable {s : State} {src : Source} {h : Nat} {w : WinIn} (hm : s.mayGo src (lpmWin h) = true) (hw : s.chip.winIn src (lpmWin h) = w)
include hm hw

theorem lpmRead_slot (hh : h < 2) (hi : s.chip.lpmIndexOk h w.index = true) : Does (.lpmRead src h) s fun t =>
    WinDone t (lpmWin h) 1 (s.chip.lpmReturn h w.index) ∧
      OnlyParts s t ([lpmWin h + 4, lpmWin h + 8] ++ errRegs (s.chip.lpmWord h w.index).1) ([.wins, .house] ++ [.mem, .ledger]) := by
  have hsame := s.sameLpm_goChip h 1
  refine does_readPoison (v := (s.chip.lpmWord h w.index).2) (n := s.chip.lpmWords h w.index) (lpmWin_bounds hh).2 hm hw (exec_lpmRead ..)
    (by decide) ?_
  rw [Chip.lpmReadOp, hsame.lpmIndexOk, if_pos hi, Chip.lpmWord_of_image hsame.image, hsame.lpmWords, hsame.lpmReturn h State.mem_goChip]

theorem lpmRead_elsewhere (hi : s.chip.lpmIndexOk h w.index = false) : Does (.lpmRead src h) s fun t =>
    WinDone t (lpmWin h) 1 { code := 6 } ∧ OnlyParts s t [lpmWin h + 4, lpmWin h + 8] [.wins, .house] := by
  refine does_goAnswer (exec_lpmRead ..) hm hw (by decide) ?_
  rw [Chip.lpmReadOp, (s.sameLpm_goChip h 1).lpmIndexOk, hi, if_neg Bool.false_ne_true]

omit hm hw in
/-- A search on the device as its go leaves it finds what stands there before. -/
theorem State.lpmSearch_goChip {op accord i : Nat} (hok : lenOk w.lpmEntry.v6 w.lpmEntry.length = true)
    (hon : s.chip.lenEnabled h w.lpmEntry.v6 w.lpmEntry.length = true)
    (hi : (s.chip.lpmMatches h w.lpmEntry.v6 w.lpmEntry.length w.lpmEntry.ctx w.lpmEntry.prefix_ accord).head? = some i) :
    (s.goChip (lpmWin h) op).lpmSearch h accord w = (s.goChip (lpmWin h) op, { s.chip.lpmReturn h i with index := some i }) := by
  have hsame := s.sameLpm_goChip h op
  have hn := w.lpmEntry_length_lt
  rw [Chip.lpmSearch_finds hok (by rwa [hsame.lenEnabled h hn]) (by rwa [hsame.lpmMatches h hn]), hsame.lpmReturn h State.mem_goChip]

omit hm hw in
theorem State.lpmSearch_goChip_misses {op accord : Nat} (hmiss : lenOk w.lpmEntry.v6 w.lpmEntry.length = false ∨
      s.chip.lenEnabled h w.lpmEntry.v6 w.lpmEntry.length = false ∨
      s.chip.lpmMatches h w.lpmEntry.v6 w.lpmEntry.length w.lpmEntry.ctx w.lpmEntry.prefix_ accord = []) :
    (s.goChip (lpmWin h) op).lpmSearch h accord w = (s.goChip (lpmWin h) op, { code := 1 }) := by
  have hsame := s.sameLpm_goChip h op
  have hn := w.lpmEntry_length_lt
  exact Chip.lpmSearch_misses (by rwa [hsame.lenEnabled h hn, hsame.lpmMatches h hn])

section
variable (hh : h < 2)
include hh

theorem lpmSearch_finds {i : Nat} (hok : lenOk w.lpmEntry.v6 w.lpmEntry.length = true)
    (hon : s.chip.lenEnabled h w.lpmEntry.v6 w.lpmEntry.length = true)
    (hi : (s.chip.lpmMatches h w.lpmEntry.v6 w.lpmEntry.length w.lpmEntry.ctx w.lpmEntry.prefix_ s.chip.newest).head? = some i) :
    Does (.lpmSearch src h) s fun t => WinDone t (lpmWin h) 2 { s.chip.lpmReturn h i with index := some i } ∧
      OnlyParts s t [lpmWin h + 4, lpmWin h + 8] [.wins, .house] := by
  refine does_goAnswer (exec_lpmSearch ..) hm hw (by decide) ?_
  rw [Chip.lpmSearchOp, (State.sameAccords_goChip (lpmWin_bounds hh).1).newest, State.lpmSearch_goChip hok hon hi]

theorem lpmSearch_misses (hmiss : lenOk w.lpmEntry.v6 w.lpmEntry.length = false ∨
      s.chip.lenEnabled h w.lpmEntry.v6 w.lpmEntry.length = false ∨
      s.chip.lpmMatches h w.lpmEntry.v6 w.lpmEntry.length w.lpmEntry.ctx w.lpmEntry.prefix_ s.chip.newest = []) :
    Does (.lpmSearch src h) s fun t => WinDone t (lpmWin h) 2 { code := 1 } ∧ OnlyParts s t [lpmWin h + 4, lpmWin h + 8] [.wins, .house] := by
  refine does_goAnswer (exec_lpmSearch ..) hm hw (by decide) ?_
  rw [Chip.lpmSearchOp, (State.sameAccords_goChip (lpmWin_bounds hh).1).newest, State.lpmSearch_goChip_misses hmiss]

theorem lpmSearchPending_finds {i : Nat} (ha : s.chip.get 0 R.ACCORD_STATUS_state ≠ 0) (hok : lenOk w.lpmEntry.v6 w.lpmEntry.length = true)
    (hon : s.chip.lenEnabled h w.lpmEntry.v6 w.lpmEntry.length = true)
    (hi : (s.chip.lpmMatches h w.lpmEntry.v6 w.lpmEntry.length w.lpmEntry.ctx w.lpmEntry.prefix_ s.chip.pendingAccord).head? = some i) :
    Does (.lpmSearchPending src h) s fun t => WinDone t (lpmWin h) 3 { s.chip.lpmReturn h i with index := some i } ∧
      OnlyParts s t [lpmWin h + 4, lpmWin h + 8] [.wins, .house] := by
  have hacc := State.sameAccords_goChip (s := s) (op := 3) (lpmWin_bounds hh).1
  refine does_goAnswer (exec_lpmSearchPending ..) hm hw (by decide) ?_
  rw [Chip.lpmSearchPendingOp, hacc.state, if_neg (show ¬ s.chip.accordState = 0 from ha), hacc.pending, State.lpmSearch_goChip hok hon hi]

theorem lpmSearchPending_misses (hmiss : s.chip.get 0 R.ACCORD_STATUS_state = 0 ∨ lenOk w.lpmEntry.v6 w.lpmEntry.length = false ∨
      s.chip.lenEnabled h w.lpmEntry.v6 w.lpmEntry.length = false ∨
      s.chip.lpmMatches h w.lpmEntry.v6 w.lpmEntry.length w.lpmEntry.ctx w.lpmEntry.prefix_ s.chip.pendingAccord = []) :
    Does (.lpmSearchPending src h) s fun t =>
      WinDone t (lpmWin h) 3 { code := if s.chip.get 0 R.ACCORD_STATUS_state = 0 then 4 else 1 } ∧
      OnlyParts s t [lpmWin h + 4, lpmWin h + 8] [.wins, .house] := by
  have hacc := State.sameAccords_goChip (s := s) (op := 3) (lpmWin_bounds hh).1
  refine does_goAnswer (exec_lpmSearchPending ..) hm hw (by decide) ?_
  by_cases ha : s.chip.get 0 R.ACCORD_STATUS_state = 0
  · rw [Chip.lpmSearchPendingOp, hacc.state, if_pos (show s.chip.accordState = 0 from ha), if_pos ha]
  · rw [Chip.lpmSearchPendingOp, hacc.state, if_neg (show ¬ s.chip.accordState = 0 from ha), if_neg ha, hacc.pending,
      State.lpmSearch_goChip_misses (hmiss.resolve_left ha)]

end

end

end Sys2Proof.Machine
end

section
/-! SUPPORT. Writes of LPM slots (spec/09_lpm_and_tcam.md R199, R208, spec/01_architecture.md R476): what a write makes of a copy, that it
reaches every member's copy, and its record in the accord's log (spec/07_accords.md R160). -/

namespace Sys2Proof.Machine

open Sys2Proof

/-! ### A copy after a write -/

/-- The copy with slots written whole, and one step of the sequence number of each line written. -/
def LpmCopy.written (t : LpmCopy) (ws : List (Nat × LpmSlot)) : LpmCopy :=
  { t with slots := ws.foldl (fun m w => m.set w.1 w.2) t.slots
           seqs := (ws.map fun w => w.1 / 8).dedup.foldl (fun q k => q.set k ((q.look k + 1) % 65536)) t.seqs }

section
variable (t : LpmCopy)

theorem LpmCopy.written_single (i : Nat) (e : LpmSlot) : t.written [(i, e)] =
    { t with slots := t.slots.set i e, seqs := t.seqs.set (i / 8) ((t.seqs.look (i / 8) + 1) % 65536) } := rfl

/-- Both slots of an IPv6 entry are written, in one line. -/
theorem LpmCopy.written_pair {i : Nat} (hi : i % 2 = 0) (e e' : LpmSlot) : t.written [(i, e), (i + 1, e')] =
    { t with slots := (t.slots.set i e).set (i + 1) e', seqs := t.seqs.set (i / 8) ((t.seqs.look (i / 8) + 1) % 65536) } := by
  have hline : (i + 1) / 8 = i / 8 := by omega
  simp [LpmCopy.written, hline]

end

/-! ### The device after a write -/

section
variable {c d : Chip} {l : List Nat} {ps : List Part} (h : c.Keeps d l ps) (hi : injRegs ⊆ l)
  (hp : [.lpm, .mem, .fresh, .ledger] ⊆ ps)
include h hi hp

theorem Chip.Keeps.lpmStore (m : Nat) (ws : List (Nat × LpmSlot)) : c.Keeps (d.lpmStore m ws) l ps :=
  (h.setLpm (hp (by simp)) m _).each ws fun e _ =>
    (Chip.Keeps.refl e).coverEach hi (hp (by simp)) (hp (by simp)) (hp (by simp)) [0, 1] _ _

theorem Chip.Keeps.lpmWrite (m : Nat) (ws : List (Nat × LpmSlot)) : c.Keeps (d.lpmWrite m ws) l ps :=
  h.each _ fun e _ => (Chip.Keeps.refl e).lpmStore hi hp ..

end

section
variable (c : Chip) (h : Nat) (ws : List (Nat × LpmSlot))

theorem Chip.lpmTab_lpmStore (k : Nat) : (c.lpmStore h ws).lpmTab k = if k = h then (c.lpmTab h).written ws else c.lpmTab k := by
  have hcover : (c.setLpm h ((c.lpmTab h).written ws)).Keeps (c.lpmStore h ws) injRegs [.mem, .fresh, .ledger] :=
    Chip.Keeps.each (.refl _) ws fun e _ =>
      (Chip.Keeps.refl e).coverEach (List.Subset.refl _) (by simp) (by simp) (by simp) [0, 1] _ _
  rw [hcover.lpmTab (by simp), Chip.lpmTab_setLpm]

variable {c h}

theorem Chip.lpmTab_lpmWrite (hn : (c.halfMates h).Nodup) (k : Nat) :
    (c.lpmWrite h ws).lpmTab k = if k ∈ c.halfMates h then (c.lpmTab k).written ws else c.lpmTab k :=
  Chip.tab_each (tab := Chip.lpmTab) (G := (·.written ws)) (fun c m k => Chip.lpmTab_lpmStore c m ws k) hn c k

end

/-! ### The log -/

/-- The log's record of a place whose entry stood with this validity (R160). -/
def Validity.logged (v : Validity) (p : SettlePlace) : LogRec := { place := p, valid := v.valid, vfrom := v.vfrom, vuntil := v.vuntil }

section
variable (c : Chip) (p : SettlePlace) (old : Validity)

@[simp] theorem Chip.lpmTab_logWrite (k : Nat) : (c.logWrite p old).lpmTab k = c.lpmTab k := by
  rw [Chip.lpmTab, Chip.logWrite, Chip.syncLog, Chip.put_lpm, Chip.put_lpm, Chip.lpmTab]

theorem Chip.log_logWrite : (c.logWrite p old).accord.log = old.logged p :: c.accord.log := by
  rw [Chip.accord_logWrite, Validity.logged]

end

/-- From the device `c` slots were written in every member's copy, and the log reads `log`. -/
structure Chip.LpmWritten (c d : Chip) (h : Nat) (ws : List (Nat × LpmSlot)) (log : List LogRec) : Prop where
  tab : ∀ m, d.lpmTab m = if m ∈ c.halfMates h then (c.lpmTab m).written ws else c.lpmTab m
  log : d.accord.log = log
  keeps : ∀ {b : Chip} {l : List Nat} {ps : List Part}, b.Keeps c l ps → [R.ACCORD_LOG, R.ACCORD_STATUS] ++ injRegs ⊆ l →
    [.lpm, .accord, .mem, .fresh, .ledger] ⊆ ps → b.Keeps d l ps

section
variable {c : Chip} {h : Nat} (hn : (c.halfMates h).Nodup) (ws : List (Nat × LpmSlot)) (p : SettlePlace) (old : Validity)
include hn

/-- A write of slots that the log records after it. -/
theorem Chip.lpmWritten_logWrite : c.LpmWritten ((c.lpmWrite h ws).logWrite p old) h ws (old.logged p :: c.accord.log) := by
  refine ⟨fun m => ?_, ?_, fun hb hl hp => ?_⟩
  · rw [Chip.lpmTab_logWrite, Chip.lpmTab_lpmWrite ws hn]
  · have hwrite : c.Keeps (c.lpmWrite h ws) injRegs [.lpm, .mem, .fresh, .ledger] :=
      (Chip.Keeps.refl c).lpmWrite (List.Subset.refl _) (List.Subset.refl _) h ws
    rw [Chip.log_logWrite, hwrite.accord (by simp)]
  · obtain ⟨hlog, hinj⟩ := List.append_subset.mp hl
    exact (hb.lpmWrite hinj (fun q hq => hp (by simp at hq ⊢; tauto)) h ws).logWrite hlog (hp (by simp)) p old

/-- A write of slots that the log records before it, where it does. -/
theorem Chip.lpmWritten_when (lg : Bool) : c.LpmWritten ((c.when lg fun c => c.logWrite p old).lpmWrite h ws) h ws
    (if lg then old.logged p :: c.accord.log else c.accord.log) := by
  have himage : (c.when lg fun c => c.logWrite p old).image = c.image := by cases lg <;> simp
  have htab : ∀ m, (c.when lg fun c => c.logWrite p old).lpmTab m = c.lpmTab m := fun m => by cases lg <;> simp
  have hmates := Chip.halfMates_of_image himage h
  refine ⟨fun m => ?_, ?_, fun hb hl hp => ?_⟩
  · rw [Chip.lpmTab_lpmWrite ws (by rwa [hmates]), hmates, htab]
  · rw [Chip.Keeps.accord (ps := [.lpm, .mem, .fresh, .ledger]) (Chip.Keeps.lpmWrite (.refl _) (List.Subset.refl _) (List.Subset.refl _) h ws)
      (by simp)]
    cases lg
    · rfl
    · exact Chip.log_logWrite ..
  · obtain ⟨hlog, hinj⟩ := List.append_subset.mp hl
    have hlogged := hb.when (b := lg) (f := fun c => c.logWrite p old) fun _ => hb.logWrite hlog (hp (by simp)) p old
    exact hlogged.lpmWrite hinj (fun q hq => hp (by simp at hq ⊢; tauto)) h ws

end

section
variable {s : State} {src : Source} {h : Nat} {w : WinIn} (hh : h < 2) (hm : s.mayGo src (lpmWin h) = true)
  (hw : s.chip.winIn src (lpmWin h) = w)
include hh hm hw

/-- An operation of the LPM entry window that writes slots. -/
theorem does_lpmWritten {i : Instr} {op : Nat} {f : WinIn → Chip → Chip × WinRes} {d : Chip} {r : WinRes} {ws : List (Nat × LpmSlot)}
    {log : List LogRec} (he : exec i s = s.winGo src (lpmWin h) op f) (hop : op < 16) (hf : f w (s.goChip (lpmWin h) op) = (d, r))
    (hd : (s.goChip (lpmWin h) op).LpmWritten d h ws log) : Does i s fun t => WinDone t (lpmWin h) op r ∧
      (∀ m, t.chip.lpmTab m = if m ∈ s.chip.halfMates h then (s.chip.lpmTab m).written ws else s.chip.lpmTab m) ∧
      t.chip.accord.log = log ∧
      OnlyParts s t ([lpmWin h + 4, lpmWin h + 8] ++ [R.ACCORD_LOG, R.ACCORD_STATUS] ++ injRegs)
        ([.wins, .house, .lpm, .accord] ++ [.mem, .fresh, .ledger]) := by
  refine does_winGo he hm hw hf ⟨winDone_of_keeps (hd.keeps (.refl _) (List.Subset.refl _) (List.Subset.refl _))
    (add_four_not_mem_logRegs (lpmWin_bounds hh).1) hop _, fun m => ?_, ?_, ?_⟩
  · rw [Chip.lpmTab_winHeld, hd.tab, Chip.halfMates_of_image State.image_goChip, State.lpmTab_goChip]
  · rw [Chip.winHeld_accord, hd.log]
  · exact (hd.keeps (State.keeps_goChip (by simp) (by simp)) (by rw [List.append_assoc]; exact List.subset_append_right ..)
      (by simp)).onlyParts_winHeld (by simp) (by simp) _

end

end Sys2Proof.Machine
end

section
/-! SUPPORT. LPM_INSERT (spec/09_lpm_and_tcam.md R207, R208, spec/07_accords.md R159). -/

namespace Sys2Proof.Machine

open Sys2Proof

/-! ### The operation -/

/-- A slot as an insert writes it: valid. -/
def LpmSlot.inserted (e : LpmSlot) : LpmSlot := { e with state := putBits e.state 7 7 1 }

/-- An insert changes no other bit of the state. -/
theorem LpmSlot.v6_inserted (e : LpmSlot) : e.inserted.v6 = e.v6 := by
  have hbit : ∀ v : BitVec 8, bit (putBits v 7 7 1) 6 = bit v 6 := by decide
  exact hbit e.state

theorem WinIn.v6_lpmEntry (w : WinIn) : w.lpmEntry.v6 = w.lpmSlots.1.v6 := by
  rw [WinIn.lpmEntry, Sys2Proof.Machine.lpmEntry]
  split
  next hv => exact hv.symm
  next hv => exact (Bool.eq_false_of_not_eq_true hv).symm

section
variable {c : Chip} {h i : Nat} {a b : LpmSlot}

theorem Chip.lpmPlace_pair (ha : a.v6 = true) : c.lpmPlace h i a b = c.lpmWrite h [(i, a), (i + 1, b)] := by rw [Chip.lpmPlace, if_pos ha]

theorem Chip.lpmPlace_single (ha : a.v6 = false) (hold : (c.lpmSlotAt h i).valid = false ∨ (c.lpmSlotAt h i).v6 = false) :
    c.lpmPlace h i a b = c.lpmWrite h [(i, a)] := by
  have hfree : ¬ ((c.lpmSlotAt h i).valid && (c.lpmSlotAt h i).v6) = true := by
    rw [Bool.and_eq_true, not_and_or, Bool.not_eq_true, Bool.not_eq_true]
    exact hold
  rw [Chip.lpmPlace, if_neg (by rw [ha]; exact Bool.false_ne_true)]
  exact if_neg hfree

end

/-- How the accord engine judges an insert: a new, valid entry. -/
def Chip.judgeInsert (c : Chip) (src : Source) (w : WinIn) : Verdict :=
  c.judge src ⟨false, 0, 0⟩ { w.lpmEntry.validity with valid := true } false

section
variable {c : Chip} {h : Nat} {w : WinIn}

theorem Chip.lpmInsertOp_unfit (hbad : w.lpmEntry.ok = false ∨ c.lenEnabled h w.lpmEntry.v6 w.lpmEntry.length = false) :
    Chip.lpmInsertOp h w c = (c, { code := 6 }) := by
  obtain hbad | hbad := hbad
  · simp only [Chip.lpmInsertOp, hbad, Bool.not_false, Bool.true_or, if_true]
  · simp only [Chip.lpmInsertOp, hbad, Bool.not_false, Bool.or_true, if_true]

section
variable (hok : w.lpmEntry.ok = true ∧ c.lenEnabled h w.lpmEntry.v6 w.lpmEntry.length = true)
include hok

theorem Chip.lpmInsertOp_refused {r : Nat} (hj : c.judgeInsert w.src w = .refuse r) :
    Chip.lpmInsertOp h w c = (c.refuseWrite r (lpmWin h) w.index, { code := 5 }) := by
  rw [Chip.judgeInsert] at hj
  simp only [Chip.lpmInsertOp, hok.1, hok.2, hj, Bool.not_true, Bool.or_self, Bool.false_eq_true, if_false]

variable {lg : Bool} (hj : c.judgeInsert w.src w = .accept lg)
include hj

theorem Chip.lpmInsertOp_held (hm : c.lpmMatches h w.lpmEntry.v6 w.lpmEntry.length w.lpmEntry.ctx w.lpmEntry.prefix_ c.pendingAccord ≠ []) :
    Chip.lpmInsertOp h w c = (c, { code := 2 }) := by
  have hheld : (!(c.lpmMatches h w.lpmEntry.v6 w.lpmEntry.length w.lpmEntry.ctx w.lpmEntry.prefix_ c.pendingAccord).isEmpty) = true := by
    simpa using hm
  rw [Chip.judgeInsert] at hj
  simp only [Chip.lpmInsertOp, hok.1, hok.2, hj, hheld, Bool.not_true, Bool.or_self, Bool.false_eq_true, if_false, if_true]

variable (hm : c.lpmMatches h w.lpmEntry.v6 w.lpmEntry.length w.lpmEntry.ctx w.lpmEntry.prefix_ c.pendingAccord = [])
include hm

theorem Chip.lpmInsertOp_full (hi : c.lpmSpot h w.lpmEntry = none) : Chip.lpmInsertOp h w c = (c, { code := 3 }) := by
  rw [Chip.judgeInsert] at hj
  simp only [Chip.lpmInsertOp, hok.1, hok.2, hj, hm, hi, Bool.not_true, Bool.or_self, Bool.false_eq_true, if_false, List.isEmpty_nil]

theorem Chip.lpmInsertOp_places {i : Nat} (hi : c.lpmSpot h w.lpmEntry = some i) : Chip.lpmInsertOp h w c =
    ((c.lpmPlace h i w.lpmSlots.1.inserted w.lpmSlots.2.inserted).logWrite (.lpm h i) (c.lpmWas h i), { code := 0, index := some i }) := by
  rw [Chip.judgeInsert] at hj
  simp only [Chip.lpmInsertOp, hok.1, hok.2, hj, hm, hi, Bool.not_true, Bool.or_self, Bool.false_eq_true, if_false, List.isEmpty_nil]
  rfl

end

end

/-! ### The outcomes -/

section
variable {s : State} {src : Source} {h : Nat} {w : WinIn} (hh : h < 2) (hm : s.mayGo src (lpmWin h) = true)
  (hw : s.chip.winIn src (lpmWin h) = w)
include hm hw

theorem lpmInsert_unfit (hbad : w.lpmEntry.ok = false ∨ s.chip.lenEnabled h w.lpmEntry.v6 w.lpmEntry.length = false) :
    Does (.lpmInsert src h) s fun t => WinDone t (lpmWin h) 4 { code := 6 } ∧ OnlyParts s t [lpmWin h + 4, lpmWin h + 8] [.wins, .house] :=
  does_goAnswer (exec_lpmInsert ..) hm hw (by decide)
    (Chip.lpmInsertOp_unfit (by rwa [(s.sameLpm_goChip h 4).lenEnabled h w.lpmEntry_length_lt]))

variable (hok : w.lpmEntry.ok = true ∧ s.chip.lenEnabled h w.lpmEntry.v6 w.lpmEntry.length = true)
include hh hok

omit hm hw in
/-- The go leaves the length enabled and the judgement. -/
theorem State.lpmInsert_checks : (w.lpmEntry.ok = true ∧ (s.goChip (lpmWin h) 4).lenEnabled h w.lpmEntry.v6 w.lpmEntry.length = true) ∧
    (s.goChip (lpmWin h) 4).judgeInsert src w = s.chip.judgeInsert src w :=
  ⟨⟨hok.1, by rw [(s.sameLpm_goChip h 4).lenEnabled h w.lpmEntry_length_lt, hok.2]⟩, State.judge_go (lpmWin_bounds hh).1 ..⟩

theorem lpmInsert_refused {r : Nat} (hj : s.chip.judgeInsert src w = .refuse r) (hr : r < 8) : Does (.lpmInsert src h) s fun t =>
    WinDone t (lpmWin h) 4 { code := 5 } ∧ t.chip.get 0 R.ACCORD_REFUSAL_rule = r ∧ t.chip.get 0 R.ACCORD_EVENT_refused = 1 ∧
      t.chip.reg C.refused_writes = s.chip.reg C.refused_writes + 1 ∧
      OnlyParts s t ([lpmWin h + 4, lpmWin h + 8] ++ refusalRegs) [.wins, .house] := by
  obtain ⟨hfit, hjudge⟩ := State.lpmInsert_checks (src := src) hh hok
  have hsrc : w.src = src := hw ▸ rfl
  exact does_goWriteRefused (lpmWin_bounds hh).1 hm hw (exec_lpmInsert ..) (by decide) hr
    (Chip.lpmInsertOp_refused hfit (by rw [hsrc, hjudge, hj]))

variable {lg : Bool} (hj : s.chip.judgeInsert src w = .accept lg)
include hj

theorem lpmInsert_answers
    (hfull : s.chip.lpmMatches h w.lpmEntry.v6 w.lpmEntry.length w.lpmEntry.ctx w.lpmEntry.prefix_ s.chip.pendingAccord ≠ [] ∨
      s.chip.lpmSpot h w.lpmEntry = none) : Does (.lpmInsert src h) s fun t =>
      WinDone t (lpmWin h) 4
        { code := if s.chip.lpmMatches h w.lpmEntry.v6 w.lpmEntry.length w.lpmEntry.ctx w.lpmEntry.prefix_ s.chip.pendingAccord = [] then 3
            else 2 } ∧
      OnlyParts s t [lpmWin h + 4, lpmWin h + 8] [.wins, .house] := by
  obtain ⟨hfit, hjudge⟩ := State.lpmInsert_checks (src := src) hh hok
  have hsrc : w.src = src := hw ▸ rfl
  have hsame := s.sameLpm_goChip h 4
  have hacc := State.sameAccords_goChip (s := s) (op := 4) (lpmWin_bounds hh).1
  have hn := w.lpmEntry_length_lt
  rw [← hsrc] at hjudge hj
  refine does_goAnswer (exec_lpmInsert ..) hm hw (by decide) ?_
  by_cases hnone : s.chip.lpmMatches h w.lpmEntry.v6 w.lpmEntry.length w.lpmEntry.ctx w.lpmEntry.prefix_ s.chip.pendingAccord = []
  · rw [if_pos hnone]
    exact Chip.lpmInsertOp_full hfit (hjudge.trans hj) (by rw [hsame.lpmMatches h hn, hacc.pending, hnone])
      (by rw [hsame.lpmSpot h hacc hn, hfull.resolve_left (not_not_intro hnone)])
  · rw [if_neg hnone]
    exact Chip.lpmInsertOp_held hfit (hjudge.trans hj) (by rwa [hsame.lpmMatches h hn, hacc.pending])

variable (hn : (s.chip.halfMates h).Nodup) {i : Nat} (hnone : s.chip.lpmMatches h w.lpmEntry.v6 w.lpmEntry.length w.lpmEntry.ctx w.lpmEntry.prefix_
  s.chip.pendingAccord = []) (hi : s.chip.lpmSpot h w.lpmEntry = some i)
include hn hnone hi

/-- An insert that has a place writes there, and logs what stood there. -/
theorem lpmInsert_places {ws : List (Nat × LpmSlot)} (hws : (s.goChip (lpmWin h) 4).lpmPlace h i w.lpmSlots.1.inserted w.lpmSlots.2.inserted =
      (s.goChip (lpmWin h) 4).lpmWrite h ws) : Does (.lpmInsert src h) s fun t => WinDone t (lpmWin h) 4 { code := 0, index := some i } ∧
      (∀ m, t.chip.lpmTab m = if m ∈ s.chip.halfMates h then (s.chip.lpmTab m).written ws else s.chip.lpmTab m) ∧
      t.chip.accord.log = (s.chip.lpmWas h i).logged (.lpm h i) :: s.chip.accord.log ∧
      OnlyParts s t ([lpmWin h + 4, lpmWin h + 8] ++ [R.ACCORD_LOG, R.ACCORD_STATUS] ++ injRegs)
        ([.wins, .house, .lpm, .accord] ++ [.mem, .fresh, .ledger]) := by
  obtain ⟨hfit, hjudge⟩ := State.lpmInsert_checks (src := src) hh hok
  have hsrc : w.src = src := hw ▸ rfl
  have hsame := s.sameLpm_goChip h 4
  have hacc := State.sameAccords_goChip (s := s) (op := 4) (lpmWin_bounds hh).1
  have hlen := w.lpmEntry_length_lt
  rw [← hsrc] at hjudge hj
  have hop := Chip.lpmInsertOp_places hfit (hjudge.trans hj) (by rw [hsame.lpmMatches h hlen, hacc.pending, hnone])
    (by rw [hsame.lpmSpot h hacc hlen, hi])
  rw [hws, hsame.lpmWas] at hop
  have hwritten := Chip.lpmWritten_logWrite (c := s.goChip (lpmWin h) 4) (by rwa [Chip.halfMates_of_image State.image_goChip]) ws (.lpm h i)
    (s.chip.lpmWas h i)
  rw [State.accord_goChip] at hwritten
  exact does_lpmWritten hh hm hw (exec_lpmInsert ..) (by decide) hop hwritten

end

end Sys2Proof.Machine
end

section
/-! SUPPORT. LPM_WRITE_IF_SEQ (spec/09_lpm_and_tcam.md R208, spec/07_accords.md R159, R160). -/

namespace Sys2Proof.Machine

open Sys2Proof

/-- The entry's home lines hold the place that the window names. -/
def Chip.lpmAtHome (c : Chip) (h : Nat) (w : WinIn) : Bool :=
  [0, 1].any fun b => w.index / 8 * 8 == Chip.lpmIndex b (c.lpmLine h b w.lpmEntry.v6 w.lpmEntry.length w.lpmEntry.ctx w.lpmEntry.prefix_)

/-- The write is not judged: it names no place, comes with another sequence number, or does not fit the entry that stands there (R208). -/
def Chip.lpmUnfit (c : Chip) (h : Nat) (w : WinIn) : Prop :=
  c.lpmIndexOk h w.index = false ∨ w.seq ≠ c.lpmSeq h w.index ∨ (w.state / 128 % 2 = 1 ∧ (c.lpmSlotAt h w.index).valid = false) ∨
  ((c.lpmSlotAt h w.index).valid = true ∧ ((c.lpmSlotAt h w.index).second = true ∨ (c.lpmSlotAt h w.index).v6 ≠ w.lpmEntry.v6)) ∨
  (w.lpmEntry.v6 = true ∧ w.index % 2 = 1) ∨ w.lpmEntry.cut = false ∨
  (w.state / 128 % 2 = 1 ∧ (w.lpmEntry.ok = false ∨ c.lenEnabled h w.lpmEntry.v6 w.lpmEntry.length = false ∨ c.lpmAtHome h w = false))

/-- The validity of the slot that a write rewrites. -/
def Chip.lpmStood (c : Chip) (h i : Nat) : Validity := { (c.lpmAt h i).validity with valid := (c.lpmSlotAt h i).valid }

/-- How the accord engine judges a write of the entry that the window names. -/
def Chip.judgeLpm (c : Chip) (src : Source) (h : Nat) (w : WinIn) : Verdict :=
  c.judge src (c.lpmStood h w.index) ⟨w.state / 128 % 2 = 1, w.lpmEntry.validity.vfrom, w.lpmEntry.validity.vuntil⟩
    ((c.lpmAt h w.index).ctx == w.lpmEntry.ctx && (c.lpmAt h w.index).prefix_ == w.lpmEntry.prefix_ &&
      (c.lpmAt h w.index).length == w.lpmEntry.length && (c.lpmAt h w.index).result == w.lpmEntry.result)

/-- The slots that the write gives. -/
def WinIn.lpmRewrites (w : WinIn) : List (Nat × LpmSlot) :=
  if w.lpmEntry.v6 then [(w.index, w.lpmSlots.1), (w.index + 1, w.lpmSlots.2)] else [(w.index, w.lpmSlots.1)]

/-! ### The operation -/

section
variable {c : Chip} {h : Nat} {w : WinIn}

theorem Chip.lpmWriteOp_unfit (hbad : c.lpmUnfit h w) : Chip.lpmWriteOp h w c =
    (c, { code := if c.lpmIndexOk h w.index = true ∧ w.seq ≠ c.lpmSeq h w.index then 4 else 6 }) := by
  by_cases hi : c.lpmIndexOk h w.index = true
  · by_cases hq : w.seq = c.lpmSeq h w.index
    · rw [if_neg (fun hcode => hcode.2 hq)]
      obtain hi' | hq' | ⟨hset, hfree⟩ | ⟨hvalid, hform⟩ | ⟨hv6, hodd⟩ | hcut | ⟨hset, hnew⟩ := hbad
      · exact absurd (hi.symm.trans hi') (by decide)
      · exact absurd hq hq'
      · simp [Chip.lpmWriteOp, hi, hq, hset, hfree]
      · have hother : ((c.lpmSlotAt h w.index).second || (c.lpmSlotAt h w.index).v6 != w.lpmEntry.v6) = true := by simpa using hform
        simp only [Chip.lpmWriteOp, hi, hq, hvalid, hother, Bool.and_self, if_true, ite_self, Bool.not_true, bne_self_eq_false,
          Bool.false_eq_true, if_false]
      · simp [Chip.lpmWriteOp, hi, hq, hv6, hodd]
      · simp [Chip.lpmWriteOp, hi, hq, hcut]
      · have hbad : (!w.lpmEntry.ok || !(c.lenEnabled h w.lpmEntry.v6 w.lpmEntry.length) || !(c.lpmAtHome h w)) = true := by
          simpa [or_assoc] using hnew
        rw [Chip.lpmAtHome] at hbad
        simp only [Chip.lpmWriteOp, hi, hq, hset, hbad, decide_true, Bool.true_and, if_true, ite_self, Bool.not_true, bne_self_eq_false,
          Bool.false_eq_true, if_false]
    · simp [Chip.lpmWriteOp, hi, hq]
  · simp [Chip.lpmWriteOp, hi]

/-- What a write that fits is checked for, in the operation's order. -/
theorem Chip.lpmWriteOp_checks (hfit : ¬ c.lpmUnfit h w) :
    (!c.lpmIndexOk h w.index) = false ∧ (w.seq != c.lpmSeq h w.index) = false ∧
    (decide (w.state / 128 % 2 = 1) && !(c.lpmSlotAt h w.index).valid) = false ∧
    ((c.lpmSlotAt h w.index).valid && ((c.lpmSlotAt h w.index).second || (c.lpmSlotAt h w.index).v6 != w.lpmEntry.v6)) = false ∧
    (w.lpmEntry.v6 && w.index % 2 == 1) = false ∧ (!w.lpmEntry.cut) = false ∧
    (decide (w.state / 128 % 2 = 1) && (!w.lpmEntry.ok || !(c.lenEnabled h w.lpmEntry.v6 w.lpmEntry.length) || !(c.lpmAtHome h w))) = false := by
  simp only [Chip.lpmUnfit, not_or] at hfit
  obtain ⟨hi, hq, hfree, hform, hodd, hcut, hnew⟩ := hfit
  refine ⟨by simpa using hi, by simpa using hq, ?_, ?_, ?_, by simpa using hcut, ?_⟩ <;> rw [Bool.eq_false_iff]
  · exact fun hx => hfree (by simpa using hx)
  · exact fun hx => hform (by simpa using hx)
  · exact fun hx => hodd (by simpa using hx)
  · exact fun hx => hnew (by simpa [or_assoc] using hx)

theorem Chip.lpmWriteOp_refused (hfit : ¬ c.lpmUnfit h w) {r : Nat} (hj : c.judgeLpm w.src h w = .refuse r) :
    Chip.lpmWriteOp h w c = (c.refuseWrite r (lpmWin h) w.index, { code := 5 }) := by
  obtain ⟨hi, hq, hfree, hform, hodd, hcut, hnew⟩ := Chip.lpmWriteOp_checks hfit
  rw [Chip.lpmAtHome] at hnew
  rw [Chip.judgeLpm, Chip.lpmStood] at hj
  simp only [Chip.lpmWriteOp, hi, hq, hfree, hform, hodd, hcut, hnew, hj, Bool.false_eq_true, if_false]

theorem Chip.lpmWriteOp_accepted (hfit : ¬ c.lpmUnfit h w) {lg : Bool} (hj : c.judgeLpm w.src h w = .accept lg) : Chip.lpmWriteOp h w c =
    ((c.when lg fun d => d.logWrite (.lpm h w.index) (c.lpmStood h w.index)).lpmWrite h w.lpmRewrites, { code := 0 }) := by
  obtain ⟨hi, hq, hfree, hform, hodd, hcut, hnew⟩ := Chip.lpmWriteOp_checks hfit
  rw [Chip.lpmAtHome] at hnew
  rw [Chip.judgeLpm, Chip.lpmStood] at hj
  simp only [Chip.lpmWriteOp, hi, hq, hfree, hform, hodd, hcut, hnew, hj, Bool.false_eq_true, if_false, WinIn.lpmRewrites, Chip.lpmStood]
  split <;> rfl

end

/-! ### What the go leaves of it -/

section
variable {c d : Chip} (hs : c.SameLpm d) (h : Nat) (w : WinIn)
include hs

theorem Chip.SameLpm.lpmUnfit : d.lpmUnfit h w = c.lpmUnfit h w := by
  simp only [Chip.lpmUnfit, Chip.lpmAtHome, hs.lpmIndexOk, hs.lpmSeq, hs.lpmSlotAt, hs.lenEnabled h w.lpmEntry_length_lt,
    hs.lpmLine h w.lpmEntry_length_lt]

theorem Chip.SameLpm.lpmStood (i : Nat) : d.lpmStood h i = c.lpmStood h i := by rw [Chip.lpmStood, hs.lpmAt, hs.lpmSlotAt, Chip.lpmStood]

end

theorem State.judgeLpm_goChip {s : State} {h : Nat} (hh : h < 2) (op : Nat) (src : Source) (w : WinIn) :
    (s.goChip (lpmWin h) op).judgeLpm src h w = s.chip.judgeLpm src h w := by
  have hsame := s.sameLpm_goChip h op
  rw [Chip.judgeLpm, State.judge_go (lpmWin_bounds hh).1, hsame.lpmStood, hsame.lpmAt, Chip.judgeLpm]

/-- The slots that a write gives, the sequence number that it steps, and the slots that it leaves. -/
theorem LpmCopy.written_lpmRewrites (t : LpmCopy) {w : WinIn} (hw : w.lpmEntry.v6 = false ∨ w.index % 2 = 0) :
    (t.written w.lpmRewrites).slots.look w.index = w.lpmSlots.1 ∧
    (w.lpmEntry.v6 = true → (t.written w.lpmRewrites).slots.look (w.index + 1) = w.lpmSlots.2) ∧
    (t.written w.lpmRewrites).seqs.look (w.index / 8) = (t.seqs.look (w.index / 8) + 1) % 65536 ∧
    ∀ j, j ≠ w.index → (w.lpmEntry.v6 = false ∨ j ≠ w.index + 1) → (t.written w.lpmRewrites).slots.look j = t.slots.look j := by
  rw [WinIn.lpmRewrites]
  cases hv6 : w.lpmEntry.v6
  · rw [if_neg Bool.false_ne_true, LpmCopy.written_single]
    refine ⟨by simp, fun hv => absurd hv Bool.false_ne_true, by simp, fun j hj _ => by simp [hj]⟩
  · have heven : w.index % 2 = 0 := hw.resolve_left (by simp [hv6])
    rw [if_pos rfl, LpmCopy.written_pair _ heven]
    refine ⟨by simp, fun _ => by simp, by simp, fun j hj hj' => ?_⟩
    have hodd : j ≠ w.index + 1 := hj'.resolve_left (by simp)
    simp [hj, hodd]

/-! ### The outcomes -/

section
variable {s : State} {src : Source} {h : Nat} {w : WinIn} (hm : s.mayGo src (lpmWin h) = true) (hw : s.chip.winIn src (lpmWin h) = w)
include hm hw

theorem lpmWrite_unfit (hbad : s.chip.lpmUnfit h w) : Does (.lpmWriteIfSeq src h) s fun t =>
    WinDone t (lpmWin h) 5 { code := if s.chip.lpmIndexOk h w.index = true ∧ w.seq ≠ s.chip.lpmSeq h w.index then 4 else 6 } ∧
      OnlyParts s t [lpmWin h + 4, lpmWin h + 8] [.wins, .house] := by
  have hsame := s.sameLpm_goChip h 5
  refine does_goAnswer (exec_lpmWriteIfSeq ..) hm hw (by decide) ?_
  rw [Chip.lpmWriteOp_unfit (by rwa [hsame.lpmUnfit]), hsame.lpmIndexOk, hsame.lpmSeq]

variable (hh : h < 2) (hfit : ¬ s.chip.lpmUnfit h w)
include hh hfit

theorem lpmWrite_refused {r : Nat} (hj : s.chip.judgeLpm src h w = .refuse r) (hr : r < 8) : Does (.lpmWriteIfSeq src h) s fun t =>
    WinDone t (lpmWin h) 5 { code := 5 } ∧ t.chip.get 0 R.ACCORD_REFUSAL_rule = r ∧ t.chip.get 0 R.ACCORD_EVENT_refused = 1 ∧
      t.chip.reg C.refused_writes = s.chip.reg C.refused_writes + 1 ∧
      OnlyParts s t ([lpmWin h + 4, lpmWin h + 8] ++ refusalRegs) [.wins, .house] := by
  have hsrc : w.src = src := hw ▸ rfl
  exact does_goWriteRefused (lpmWin_bounds hh).1 hm hw (exec_lpmWriteIfSeq ..) (by decide) hr
    (Chip.lpmWriteOp_refused (by rwa [(s.sameLpm_goChip h 5).lpmUnfit]) (by rw [hsrc, State.judgeLpm_goChip hh, hj]))

theorem lpmWrite_accepted (hn : (s.chip.halfMates h).Nodup) {lg : Bool} (hj : s.chip.judgeLpm src h w = .accept lg) :
    Does (.lpmWriteIfSeq src h) s fun t => WinDone t (lpmWin h) 5 { code := 0 } ∧
      (∀ m, t.chip.lpmTab m = if m ∈ s.chip.halfMates h then (s.chip.lpmTab m).written w.lpmRewrites else s.chip.lpmTab m) ∧
      t.chip.accord.log = (if lg then (s.chip.lpmStood h w.index).logged (.lpm h w.index) :: s.chip.accord.log else s.chip.accord.log) ∧
      OnlyParts s t ([lpmWin h + 4, lpmWin h + 8] ++ [R.ACCORD_LOG, R.ACCORD_STATUS] ++ injRegs)
        ([.wins, .house, .lpm, .accord] ++ [.mem, .fresh, .ledger]) := by
  have hsrc : w.src = src := hw ▸ rfl
  have hsame := s.sameLpm_goChip h 5
  have hop := Chip.lpmWriteOp_accepted (c := s.goChip (lpmWin h) 5) (by rwa [hsame.lpmUnfit])
    (by rw [hsrc, State.judgeLpm_goChip hh, hj])
  rw [hsame.lpmStood] at hop
  have hwritten := Chip.lpmWritten_when (c := s.goChip (lpmWin h) 5) (by rwa [Chip.halfMates_of_image State.image_goChip]) w.lpmRewrites
    (.lpm h w.index) (s.chip.lpmStood h w.index) lg
  rw [State.accord_goChip] at hwritten
  exact does_lpmWritten hh hm hw (exec_lpmWriteIfSeq ..) (by decide) hop hwritten

end

end Sys2Proof.Machine
end

section
/-! SUPPORT. The filter windows (spec/09_lpm_and_tcam.md R209, spec/01_architecture.md R476): an entry written, and a bit of each entry of a
range set or cleared, in every member's copy. -/

namespace Sys2Proof.Machine

open Sys2Proof

/-! ### One bit of an entry -/

/-- A bit that is 0 is added. -/
theorem testBit_add_two_pow {b e : Nat} (he : e.testBit b = false) (k : Nat) : (e + 2 ^ b).testBit k = (decide (k = b) || e.testBit k) := by
  have hlow : e % 2 ^ b < 2 ^ b := Nat.mod_lt _ (Nat.two_pow_pos b)
  have hsplit : e = 2 ^ b * (e / 2 ^ b) + e % 2 ^ b := (Nat.div_add_mod e (2 ^ b)).symm
  have hsum : e + 2 ^ b = 2 ^ b * (e / 2 ^ b + 1) + e % 2 ^ b := by rw [Nat.mul_add, Nat.mul_one]; omega
  have heven : e / 2 ^ b % 2 = 0 := by
    rw [Nat.testBit_eq_decide_div_mod_eq, decide_eq_false_iff_not] at he
    omega
  rw [hsum]
  conv_rhs => rw [hsplit]
  rw [Nat.testBit_two_pow_mul_add _ hlow, Nat.testBit_two_pow_mul_add _ hlow]
  by_cases hk : k < b
  · simp [hk, hk.ne]
  · rw [if_neg hk, if_neg hk]
    obtain ⟨j, rfl⟩ := Nat.exists_eq_add_of_le (Nat.le_of_not_lt hk)
    rw [Nat.add_sub_cancel_left]
    cases j with
    | zero =>
      have hodd : (e / 2 ^ b + 1) % 2 = 1 := by omega
      simp [Nat.testBit_zero, hodd]
    | succ j =>
      have hhalf : (e / 2 ^ b + 1) / 2 = e / 2 ^ b / 2 := by omega
      simp [Nat.testBit_succ, hhalf]

/-- A bit that is 1 is taken away. -/
theorem testBit_sub_two_pow {b e : Nat} (he : e.testBit b = true) (k : Nat) :
    (e - 2 ^ b).testBit k = if k = b then false else e.testBit k := by
  have hle : 2 ^ b ≤ e := Nat.ge_two_pow_of_testBit he
  have hdiv : e / 2 ^ b = (e - 2 ^ b) / 2 ^ b + 1 := Nat.div_eq_sub_div (Nat.two_pow_pos b) hle
  have hclear : (e - 2 ^ b).testBit b = false := by
    rw [Nat.testBit_eq_decide_div_mod_eq, decide_eq_true_eq] at he
    rw [Nat.testBit_eq_decide_div_mod_eq, decide_eq_false_iff_not]
    omega
  have hadd := testBit_add_two_pow hclear k
  rw [Nat.sub_add_cancel hle] at hadd
  split
  next hk => rw [hk, hclear]
  next hk => rw [hadd, decide_eq_false hk, Bool.false_or]

/-- An entry with bit `b` set, or cleared. -/
def bitWritten (set : Bool) (b e : Nat) : Nat := if set then e ||| 2 ^ b else if e.testBit b then e - 2 ^ b else e

theorem testBit_bitWritten_false (b e k : Nat) : (bitWritten false b e).testBit k = if k = b then false else e.testBit k := by
  rw [bitWritten, if_neg Bool.false_ne_true]
  split
  next he => exact testBit_sub_two_pow he k
  next he =>
    split
    next hk => rw [hk, Bool.eq_false_of_not_eq_true he]
    next => rfl

theorem bitWritten_lt (set : Bool) {b e n : Nat} (hb : b < n) (he : e < 2 ^ n) : bitWritten set b e < 2 ^ n := by
  unfold bitWritten
  split
  · exact Nat.or_lt_two_pow he (Nat.pow_lt_pow_right (by decide) hb)
  · split
    · exact (Nat.sub_le ..).trans_lt he
    · exact he

/-! ### The filters of a copy -/

/-- An entry of a copy's filter. -/
def LpmCopy.filter (t : LpmCopy) (v6 : Bool) (i : Nat) : Nat := if v6 then (t.filter6.look i).toNat else (t.filter4.look i).toNat

/-- The copy with another filter entry. -/
def LpmCopy.withFilter (t : LpmCopy) (v6 : Bool) (i v : Nat) : LpmCopy :=
  if v6 then { t with filter6 := t.filter6.set i (BitVec.ofNat 128 v) } else { t with filter4 := t.filter4.set i (BitVec.ofNat 32 v) }

/-- The copy with one bit of a filter entry set or cleared; an entry that has it so is not written. -/
def LpmCopy.withBit (t : LpmCopy) (v6 set : Bool) (b i : Nat) : LpmCopy :=
  if (t.filter v6 i / 2 ^ b % 2 == 1) = set then t else t.withFilter v6 i (if set then t.filter v6 i + 2 ^ b else t.filter v6 i - 2 ^ b)

/-- The copy with that bit of `n` entries set or cleared. -/
def LpmCopy.withBits (t : LpmCopy) (v6 set : Bool) (b first n : Nat) : LpmCopy :=
  (List.range n).foldl (fun t j => t.withBit v6 set b (first + j)) t

theorem Chip.filterEntry_eq (c : Chip) (m : Nat) (v6 : Bool) (i : Nat) : c.filterEntry m v6 i = (c.lpmTab m).filter v6 i := rfl

section
variable (t : LpmCopy) (v6 : Bool)

theorem LpmCopy.filter_lt (i : Nat) : t.filter v6 i < 2 ^ famBits v6 := by
  cases v6
  · exact BitVec.isLt _
  · exact BitVec.isLt _

theorem LpmCopy.filter_withFilter {v : Nat} (hv : v < 2 ^ famBits v6) (i j : Nat) :
    (t.withFilter v6 i v).filter v6 j = if j = i then v else t.filter v6 j := by
  cases v6
  · have hread : (BitVec.ofNat 32 v).toNat = v := Nat.mod_eq_of_lt hv
    simp only [LpmCopy.filter, LpmCopy.withFilter, Bool.false_eq_true, if_false, Tbl.look_set]
    rw [apply_ite BitVec.toNat, hread]
  · have hread : (BitVec.ofNat 128 v).toNat = v := Nat.mod_eq_of_lt hv
    simp only [LpmCopy.filter, LpmCopy.withFilter, if_true, Tbl.look_set]
    rw [apply_ite BitVec.toNat, hread]

/-- The other family's filter and the slots stay. -/
theorem LpmCopy.withFilter_frame (i v : Nat) : (∀ j, (t.withFilter v6 i v).filter (!v6) j = t.filter (!v6) j) ∧
    (t.withFilter v6 i v).slots = t.slots := by
  cases v6 <;> exact ⟨fun _ => rfl, rfl⟩

/-- The bit is written as it should read. -/
theorem LpmCopy.withBit_eq (set : Bool) (b i : Nat) : t.withBit v6 set b i = t ∧ bitWritten set b (t.filter v6 i) = t.filter v6 i ∨
    t.withBit v6 set b i = t.withFilter v6 i (bitWritten set b (t.filter v6 i)) := by
  have hbit : (t.filter v6 i / 2 ^ b % 2 == 1) = (t.filter v6 i).testBit b := (Nat.testBit_eq_decide_div_mod_eq ..).symm
  rw [LpmCopy.withBit, hbit]
  cases hb : (t.filter v6 i).testBit b <;> cases set
  · exact .inl ⟨rfl, by simp [bitWritten, hb]⟩
  · refine .inr ?_
    have hor : t.filter v6 i + 2 ^ b = t.filter v6 i ||| 2 ^ b := Nat.eq_of_testBit_eq fun k => by
      rw [testBit_add_two_pow hb, Nat.testBit_or, Nat.testBit_two_pow, Bool.or_comm, decide_eq_decide.mpr (eq_comm (a := b))]
    simp [bitWritten, hor]
  · exact .inr (by simp [bitWritten, hb])
  · refine .inl ⟨rfl, Nat.eq_of_testBit_eq fun k => ?_⟩
    rw [bitWritten, if_pos rfl, Nat.testBit_or, Nat.testBit_two_pow]
    by_cases hk : b = k
    · rw [← hk, hb, Bool.true_or]
    · rw [decide_eq_false hk, Bool.or_false]

theorem LpmCopy.filter_withBit (set : Bool) {b : Nat} (hb : b < famBits v6) (i j : Nat) :
    (t.withBit v6 set b i).filter v6 j = if j = i then bitWritten set b (t.filter v6 j) else t.filter v6 j := by
  obtain ⟨hsame, hread⟩ | hwritten := t.withBit_eq v6 set b i
  · rw [hsame]
    split
    next hj => rw [hj, hread]
    next => rfl
  · rw [hwritten, LpmCopy.filter_withFilter _ _ (bitWritten_lt set hb (t.filter_lt v6 i))]
    split
    next hj => rw [hj]
    next => rfl

theorem LpmCopy.withBit_frame (set : Bool) (b i : Nat) : (∀ j, (t.withBit v6 set b i).filter (!v6) j = t.filter (!v6) j) ∧
    (t.withBit v6 set b i).slots = t.slots := by
  obtain ⟨hsame, -⟩ | hwritten := t.withBit_eq v6 set b i
  · rw [hsame]
    exact ⟨fun _ => rfl, rfl⟩
  · rw [hwritten]
    exact t.withFilter_frame v6 i _

theorem LpmCopy.withBits_succ (set : Bool) (b first n : Nat) :
    t.withBits v6 set b first (n + 1) = (t.withBits v6 set b first n).withBit v6 set b (first + n) := by
  rw [LpmCopy.withBits, List.range_succ, List.foldl_append, List.foldl_cons, List.foldl_nil, LpmCopy.withBits]

/-- The range's entries have the bit written, the others stay. -/
theorem LpmCopy.filter_withBits (set : Bool) {b : Nat} (hb : b < famBits v6) (first n j : Nat) :
    (t.withBits v6 set b first n).filter v6 j = if first ≤ j ∧ j < first + n then bitWritten set b (t.filter v6 j) else t.filter v6 j := by
  induction n with
  | zero =>
    rw [if_neg (by omega)]
    rfl
  | succ n ih =>
    rw [LpmCopy.withBits_succ, LpmCopy.filter_withBit _ _ _ hb, ih]
    by_cases hj : j = first + n
    · rw [if_pos hj, if_neg (by omega), if_pos (by omega)]
    · rw [if_neg hj]
      exact if_congr (by omega) rfl rfl

theorem LpmCopy.withBits_frame (set : Bool) (b first n : Nat) :
    (∀ j, (t.withBits v6 set b first n).filter (!v6) j = t.filter (!v6) j) ∧ (t.withBits v6 set b first n).slots = t.slots := by
  induction n with
  | zero => exact ⟨fun _ => rfl, rfl⟩
  | succ n ih =>
    obtain ⟨hother, hslots⟩ := (t.withBits v6 set b first n).withBit_frame v6 set b (first + n)
    rw [LpmCopy.withBits_succ]
    exact ⟨fun j => (hother j).trans (ih.1 j), hslots.trans ih.2⟩

end

/-- The bit of a range lies in an entry. -/
theorem rangeOk_bit {v6 : Bool} {first b n : Nat} (h : rangeOk v6 first b n = true) : b < famBits v6 := by
  cases v6 <;> simp [rangeOk, famBits] at h ⊢ <;> omega

/-! ### The device after a write -/

section
variable {c d : Chip} {l : List Nat} {ps : List Part} (h : c.Keeps d l ps) (hi : injRegs ⊆ l)
  (hp : [.lpm, .mem, .fresh, .ledger] ⊆ ps)
include h hi hp

theorem Chip.Keeps.filterStore (m : Nat) (v6 : Bool) (i v : Nat) : c.Keeps (d.filterStore m v6 i v) l ps := by
  have hset : ∀ t, c.Keeps (d.setLpm m t) l ps := fun t => h.setLpm (hp (by simp)) m t
  unfold Chip.filterStore
  dsimp only
  refine .ite (((hset _).coverWord hi ?_ ?_ ?_ ..).coverWord hi ?_ ?_ ?_ ..) ((hset _).coverWord hi ?_ ?_ ?_ ..) <;> exact hp (by simp)

theorem Chip.Keeps.setFilter (m : Nat) (v6 : Bool) (i v : Nat) : c.Keeps (d.setFilter m v6 i v) l ps :=
  h.each _ fun e _ => (Chip.Keeps.refl e).filterStore hi hp ..

end

theorem Chip.lpmTab_filterStore (c : Chip) (m : Nat) (v6 : Bool) (i v k : Nat) :
    (c.filterStore m v6 i v).lpmTab k = if k = m then (c.lpmTab m).withFilter v6 i v else c.lpmTab k := by
  have hcover : ∀ (d : Chip) (u x : Nat), (d.coverWord u x).lpmTab k = d.lpmTab k := fun d u x =>
    Chip.Keeps.lpmTab (l := injRegs) (ps := [.mem, .fresh, .ledger])
      (Chip.Keeps.coverWord (.refl d) (List.Subset.refl _) (by simp) (by simp) (by simp) u x) (by simp) k
  cases v6
  · exact (hcover ..).trans (Chip.lpmTab_setLpm ..)
  · exact ((hcover ..).trans (hcover ..)).trans (Chip.lpmTab_setLpm ..)

/-- A turn of a range operation: one bit of one entry in one member's copy. -/
def Chip.bitStore (c : Chip) (m : Nat) (v6 set : Bool) (b i : Nat) : Chip :=
  if set then (if c.filterEntry m v6 i / 2 ^ b % 2 == 1 then c else c.filterStore m v6 i (c.filterEntry m v6 i + 2 ^ b))
  else (if c.filterEntry m v6 i / 2 ^ b % 2 == 1 then c.filterStore m v6 i (c.filterEntry m v6 i - 2 ^ b) else c)

/-- A range operation in one member's copy. -/
def Chip.rangeStore (c : Chip) (v6 set : Bool) (b first n m : Nat) : Chip :=
  c.each (List.range n) fun c j => c.bitStore m v6 set b (first + j)

theorem Chip.rangeOp_accepted {c : Chip} {h : Nat} {v6 set : Bool} {w : WinIn}
    (hok : rangeOk v6 (bits w.data 31 16) (bits w.data 6 0) (bits w.data 63 32) = true) : c.rangeOp h v6 set w =
    (c.each (c.halfMates h) fun c m => c.rangeStore v6 set (bits w.data 6 0) (bits w.data 31 16) (bits w.data 63 32) m, { code := 0 }) := by
  rw [Chip.rangeOp]
  exact if_pos hok

theorem Chip.rangeOp_refused {c : Chip} {h : Nat} {v6 set : Bool} {w : WinIn}
    (hbad : rangeOk v6 (bits w.data 31 16) (bits w.data 6 0) (bits w.data 63 32) = false) : c.rangeOp h v6 set w = (c, { code := 6 }) := by
  rw [Chip.rangeOp]
  exact if_neg (by rw [hbad]; exact Bool.false_ne_true)

theorem Chip.Keeps.rangeStore {c d : Chip} {l : List Nat} {ps : List Part} (h : c.Keeps d l ps) (hi : injRegs ⊆ l)
    (hp : [.lpm, .mem, .fresh, .ledger] ⊆ ps) (v6 set : Bool) (b first n m : Nat) : c.Keeps (d.rangeStore v6 set b first n m) l ps :=
  h.each _ fun e j => by
    have hstore := fun v => (Chip.Keeps.refl e).filterStore hi hp m v6 (first + j) v
    exact .ite (.ite (.refl e) (hstore _)) (.ite (hstore _) (.refl e))

theorem Chip.lpmTab_bitStore (c : Chip) (m : Nat) (v6 set : Bool) (b i k : Nat) :
    (c.bitStore m v6 set b i).lpmTab k = if k = m then (c.lpmTab m).withBit v6 set b i else c.lpmTab k := by
  have hsame : c.lpmTab k = if k = m then c.lpmTab m else c.lpmTab k := by
    split
    next hk => rw [hk]
    next => rfl
  rw [Chip.bitStore, LpmCopy.withBit, Chip.filterEntry_eq]
  cases hb : (c.lpmTab m).filter v6 i / 2 ^ b % 2 == 1 <;> cases set <;> simp [Chip.lpmTab_filterStore, ← hsame]

theorem Chip.rangeStore_succ (c : Chip) (v6 set : Bool) (b first n m : Nat) :
    c.rangeStore v6 set b first (n + 1) m = (c.rangeStore v6 set b first n m).bitStore m v6 set b (first + n) := by
  rw [Chip.rangeStore, Chip.each, List.range_succ, List.foldl_append, List.foldl_cons, List.foldl_nil, Chip.rangeStore, Chip.each]

theorem Chip.lpmTab_rangeStore (c : Chip) (v6 set : Bool) (b first n m k : Nat) :
    (c.rangeStore v6 set b first n m).lpmTab k = if k = m then (c.lpmTab m).withBits v6 set b first n else c.lpmTab k := by
  induction n generalizing k with
  | zero =>
    split
    next hk => rw [hk]; rfl
    next => rfl
  | succ n ih =>
    rw [Chip.rangeStore_succ, Chip.lpmTab_bitStore, ih m, if_pos rfl, ← LpmCopy.withBits_succ, ih k]
    split <;> rfl

/-! ### The operations -/

section
variable {s : State} {src : Source} {h : Nat} {v6 : Bool} {w : WinIn} (hm : s.mayGo src (filterWin h v6) = true)
  (hw : s.chip.winIn src (filterWin h v6) = w)
include hm hw

theorem filterRead_entry (hh : h < 2) (hi : w.index < 65536) : Does (.filterRead src h v6) s fun t =>
    WinDone t (filterWin h v6) 1
      { code := 0, data := some (BitVec.ofNat 256 (s.chip.filterEntry h v6 w.index)), poison := s.chip.filterPoisoned h v6 w.index } ∧
    OnlyParts s t ([filterWin h v6 + 4, filterWin h v6 + 8] ++ errRegs (U.halfBlk h 0x10)) ([.wins, .house] ++ [.mem, .ledger]) := by
  refine does_readPoison (v := (filterWords v6 w.index).1) (n := (filterWords v6 w.index).2) (filterWin_bounds hh v6).2 hm hw
    (exec_filterRead ..) (by decide) ?_
  rw [Chip.filterReadOp, if_neg (Nat.not_le.mpr hi), Chip.filterEntry_eq, State.lpmTab_goChip, ← Chip.filterEntry_eq, Chip.filterPoisoned,
    State.poisoned_goChip, State.poisoned_goChip, State.poisoned_goChip, ← Chip.filterPoisoned]

theorem filterRead_elsewhere (hi : 65536 ≤ w.index) : Does (.filterRead src h v6) s fun t =>
    WinDone t (filterWin h v6) 1 { code := 6 } ∧ OnlyParts s t [filterWin h v6 + 4, filterWin h v6 + 8] [.wins, .house] :=
  does_goAnswer (exec_filterRead ..) hm hw (by decide) (if_pos hi)

theorem filterWrite_refused (hbad : 65536 ≤ w.index ∨ (v6 = true ∧ bits w.data 23 0 ≠ 0)) : Does (.filterWrite src h v6) s fun t =>
    WinDone t (filterWin h v6) 2 { code := 6 } ∧ OnlyParts s t [filterWin h v6 + 4, filterWin h v6 + 8] [.wins, .house] :=
  does_goAnswer (exec_filterWrite ..) hm hw (by decide) (if_pos (by simpa using hbad))

theorem setRange_refused (hbad : rangeOk v6 (bits w.data 31 16) (bits w.data 6 0) (bits w.data 63 32) = false) :
    Does (.setRange src h v6) s fun t =>
      WinDone t (filterWin h v6) 3 { code := 6 } ∧ OnlyParts s t [filterWin h v6 + 4, filterWin h v6 + 8] [.wins, .house] :=
  does_goAnswer (exec_setRange ..) hm hw (by decide) (Chip.rangeOp_refused hbad)

theorem clearRange_refused (hbad : rangeOk v6 (bits w.data 31 16) (bits w.data 6 0) (bits w.data 63 32) = false) :
    Does (.clearRange src h v6) s fun t =>
      WinDone t (filterWin h v6) 4 { code := 6 } ∧ OnlyParts s t [filterWin h v6 + 4, filterWin h v6 + 8] [.wins, .house] :=
  does_goAnswer (exec_clearRange ..) hm hw (by decide) (Chip.rangeOp_refused hbad)

variable (hh : h < 2) (hn : (s.chip.halfMates h).Nodup)
include hh hn

/-- An operation that changes the window's filter in every member's copy alike: `g` says what becomes of the entry at an index. -/
theorem does_filterWritten {i : Instr} {op : Nat} {f : WinIn → Chip → Chip × WinRes} {F : Chip → Nat → Chip} {r : WinRes}
    (G : LpmCopy → LpmCopy) (g : Nat → Nat → Nat) (he : exec i s = s.winGo src (filterWin h v6) op f) (hop : op < 16)
    (hf : ∀ c : Chip, f w c = (c.each (c.halfMates h) F, r))
    (hG : ∀ c m k, (F c m).lpmTab k = if k = m then G (c.lpmTab m) else c.lpmTab k)
    (hF : ∀ (c : Chip) m {l : List Nat} {ps : List Part}, injRegs ⊆ l → [.lpm, .mem, .fresh, .ledger] ⊆ ps → c.Keeps (F c m) l ps)
    (hg : ∀ t j, (G t).filter v6 j = g j (t.filter v6 j))
    (hframe : ∀ t, (∀ j, (G t).filter (!v6) j = t.filter (!v6) j) ∧ (G t).slots = t.slots) :
    Does i s fun t => WinDone t (filterWin h v6) op r ∧
      (∀ m ∈ s.chip.halfMates h, (∀ j, t.chip.filterEntry m v6 j = g j (s.chip.filterEntry m v6 j)) ∧
        ∀ j, t.chip.filterEntry m (!v6) j = s.chip.filterEntry m (!v6) j) ∧
      (∀ m, m ∉ s.chip.halfMates h → t.chip.lpmTab m = s.chip.lpmTab m) ∧ (∀ m, (t.chip.lpmTab m).slots = (s.chip.lpmTab m).slots) ∧
      OnlyParts s t ([filterWin h v6 + 4, filterWin h v6 + 8] ++ injRegs) ([.wins, .house, .lpm] ++ [.mem, .fresh, .ledger]) := by
  have hmates : (s.goChip (filterWin h v6) op).halfMates h = s.chip.halfMates h := Chip.halfMates_of_image State.image_goChip h
  have htab : ∀ m, ((((s.goChip (filterWin h v6) op).each ((s.goChip (filterWin h v6) op).halfMates h) F).winHeld (filterWin h v6)
      (some r)).lpmTab m) = if m ∈ s.chip.halfMates h then G (s.chip.lpmTab m) else s.chip.lpmTab m := fun m => by
    rw [Chip.lpmTab_winHeld, Chip.tab_each hG (by rwa [hmates]), hmates, State.lpmTab_goChip]
  refine does_winGo he hm hw (hf _) ⟨winDone_of_keeps (l := injRegs) (ps := [.lpm, .mem, .fresh, .ledger]) (Chip.Keeps.each (.refl _) _
    fun c m => hF c m (List.Subset.refl _) (List.Subset.refl _)) (fun hx => ?_) hop _, fun m hmem => ⟨fun j => ?_, fun j => ?_⟩,
    fun m hmem => ?_, fun m => ?_, ?_⟩
  · exact add_four_not_mem_logRegs (filterWin_bounds hh v6).1 (List.mem_append_right _ hx)
  · rw [Chip.filterEntry_eq, htab, if_pos hmem, hg, Chip.filterEntry_eq]
  · rw [Chip.filterEntry_eq, htab, if_pos hmem, (hframe _).1, Chip.filterEntry_eq]
  · rw [htab, if_neg hmem]
  · rw [htab, apply_ite LpmCopy.slots, (hframe _).2, ite_self]
  · exact (Chip.Keeps.each (State.keeps_goChip (by simp) (by simp)) _ fun c m =>
      hF c m (List.subset_append_right ..) (by simp)).onlyParts_winHeld (by simp) (by simp) _

theorem filterWrite_written (hi : w.index < 65536) (hres : v6 = false ∨ bits w.data 23 0 = 0) : Does (.filterWrite src h v6) s fun t =>
    WinDone t (filterWin h v6) 2 { code := 0 } ∧
      (∀ m ∈ s.chip.halfMates h, (∀ j, t.chip.filterEntry m v6 j =
          if j = w.index then (if v6 then bits w.data 127 0 else bits w.data 31 0) else s.chip.filterEntry m v6 j) ∧
        ∀ j, t.chip.filterEntry m (!v6) j = s.chip.filterEntry m (!v6) j) ∧
      (∀ m, m ∉ s.chip.halfMates h → t.chip.lpmTab m = s.chip.lpmTab m) ∧ (∀ m, (t.chip.lpmTab m).slots = (s.chip.lpmTab m).slots) ∧
      OnlyParts s t ([filterWin h v6 + 4, filterWin h v6 + 8] ++ injRegs) ([.wins, .house, .lpm] ++ [.mem, .fresh, .ledger]) := by
  have hok : ¬ (decide (65536 ≤ w.index) || v6 && bits w.data 23 0 != 0) = true := by
    rw [decide_eq_false (Nat.not_le.mpr hi)]
    obtain hres | hres := hres <;> simp [hres]
  have hfits : (if v6 then bits w.data 127 0 else bits w.data 31 0) < 2 ^ famBits v6 := by
    cases v6
    · exact bits_lt w.data 31 0
    · exact bits_lt w.data 127 0
  exact does_filterWritten hm hw hh hn (fun t => t.withFilter v6 w.index (if v6 then bits w.data 127 0 else bits w.data 31 0))
    (fun j e => if j = w.index then (if v6 then bits w.data 127 0 else bits w.data 31 0) else e) (exec_filterWrite ..) (by decide)
    (fun _ => if_neg hok) (fun _ _ _ => Chip.lpmTab_filterStore ..) (fun c _ _ _ hi hp => (Chip.Keeps.refl c).filterStore hi hp ..)
    (fun t j => t.filter_withFilter v6 hfits w.index j) fun t => t.withFilter_frame v6 w.index _

/-- A range operation that is accepted. -/
theorem does_rangeWritten {first b n : Nat} (hr : first = bits w.data 31 16 ∧ b = bits w.data 6 0 ∧ n = bits w.data 63 32)
    (hok : rangeOk v6 first b n = true) {i : Instr} {op : Nat} {f : WinIn → Chip → Chip × WinRes} (set : Bool)
    (he : exec i s = s.winGo src (filterWin h v6) op f) (hop : op < 16) (hf : ∀ c : Chip, f w c = c.rangeOp h v6 set w) :
    Does i s fun t => WinDone t (filterWin h v6) op { code := 0 } ∧
      (∀ m ∈ s.chip.halfMates h, (∀ j, t.chip.filterEntry m v6 j =
          if first ≤ j ∧ j < first + n then bitWritten set b (s.chip.filterEntry m v6 j) else s.chip.filterEntry m v6 j) ∧
        ∀ j, t.chip.filterEntry m (!v6) j = s.chip.filterEntry m (!v6) j) ∧
      (∀ m, m ∉ s.chip.halfMates h → t.chip.lpmTab m = s.chip.lpmTab m) ∧ (∀ m, (t.chip.lpmTab m).slots = (s.chip.lpmTab m).slots) ∧
      OnlyParts s t ([filterWin h v6 + 4, filterWin h v6 + 8] ++ injRegs) ([.wins, .house, .lpm] ++ [.mem, .fresh, .ledger]) := by
  obtain ⟨rfl, rfl, rfl⟩ := hr
  exact does_filterWritten hm hw hh hn (fun t => t.withBits v6 set (bits w.data 6 0) (bits w.data 31 16) (bits w.data 63 32))
    (fun j e => if bits w.data 31 16 ≤ j ∧ j < bits w.data 31 16 + bits w.data 63 32 then bitWritten set (bits w.data 6 0) e else e) he hop
    (fun c => (hf c).trans (Chip.rangeOp_accepted hok)) (fun _ _ _ => Chip.lpmTab_rangeStore ..)
    (fun c _ _ _ hi hp => (Chip.Keeps.refl c).rangeStore hi hp ..) (fun t j => t.filter_withBits v6 set (rangeOk_bit hok) _ _ j)
    fun t => t.withBits_frame ..

end

end Sys2Proof.Machine
end

section
/-! SUPPORT. The operations of the LPM entry and filter windows (spec/09_lpm_and_tcam.md R199 to R209), clause by clause. -/

namespace Sys2Proof.Machine

open Sys2Proof

/-- An IPv6 entry as an insert writes it, and the slots that it leaves. -/
theorem LpmCopy.written_inserted (t : LpmCopy) {i : Nat} (hi : i % 2 = 0) (a b : LpmSlot) :
    (t.written [(i, a), (i + 1, b)]).slots.look i = a ∧ (t.written [(i, a), (i + 1, b)]).slots.look (i + 1) = b ∧
    (t.written [(i, a), (i + 1, b)]).seqs.look (i / 8) = (t.seqs.look (i / 8) + 1) % 65536 ∧
    ∀ j, j ≠ i → j ≠ i + 1 → (t.written [(i, a), (i + 1, b)]).slots.look j = t.slots.look j := by
  rw [LpmCopy.written_pair _ hi]
  refine ⟨by simp, by simp, by simp, fun j hj hj' => by simp [hj, hj']⟩

/-- A write whose place, form and new entry are as they should be is judged. -/
theorem Chip.lpmFits {c : Chip} {h : Nat} {w : WinIn} (hplace : c.lpmIndexOk h w.index = true ∧ w.seq = c.lpmSeq h w.index)
    (hform : ((c.lpmSlotAt h w.index).valid = false ∨ ((c.lpmSlotAt h w.index).second = false ∧ (c.lpmSlotAt h w.index).v6 = w.lpmEntry.v6)) ∧
      (w.lpmEntry.v6 = false ∨ w.index % 2 = 0) ∧ w.lpmEntry.cut = true)
    (hset : w.state / 128 % 2 = 0 ∨ ((c.lpmSlotAt h w.index).valid = true ∧ w.lpmEntry.ok = true ∧
      c.lenEnabled h w.lpmEntry.v6 w.lpmEntry.length = true ∧ c.lpmAtHome h w = true)) : ¬ c.lpmUnfit h w := by
  obtain ⟨hi, hq⟩ := hplace
  obtain ⟨hold, heven, hcut⟩ := hform
  rintro (hi' | hq' | ⟨hv, hfree⟩ | ⟨hvalid, hother⟩ | ⟨hv6, hodd⟩ | hcut' | ⟨hv, hnew⟩)
  · exact absurd (hi.symm.trans hi') (by decide)
  · exact hq' hq
  · obtain hclear | ⟨hvalid, -⟩ := hset
    · omega
    · exact absurd (hvalid.symm.trans hfree) (by decide)
  · obtain hfree | ⟨hfirst, hsame⟩ := hold
    · exact absurd (hvalid.symm.trans hfree) (by decide)
    · obtain hsecond | hne := hother
      · exact absurd (hsecond.symm.trans hfirst) (by decide)
      · exact hne hsame
  · obtain hv4 | heven := heven
    · exact absurd (hv6.symm.trans hv4) (by decide)
    · omega
  · exact absurd (hcut.symm.trans hcut') (by decide)
  · obtain hclear | ⟨-, hok, hon, hhome⟩ := hset
    · omega
    · simp [hok, hon, hhome] at hnew

/-- Settles O40: each clause is what the operation of its window answers, or makes of the copies, on the device as its go leaves it. -/
theorem lpmWindowOperations : Obligations.LpmWindowOperations := by
  refine ⟨fun s src h ⟨hh, hm⟩ hi => lpmRead_slot hm rfl hh hi, fun s src h ⟨_, hm⟩ hi => lpmRead_elsewhere hm rfl hi,
    fun s src h i ⟨hh, hm⟩ hok hi => lpmSearch_finds hm rfl hh hok.1 hok.2 hi, fun s src h ⟨hh, hm⟩ hmiss => lpmSearch_misses hm rfl hh hmiss,
    fun s src h i ⟨hh, hm⟩ ha hok hi => lpmSearchPending_finds hm rfl hh ha hok.1 hok.2 hi,
    fun s src h ⟨hh, hm⟩ hmiss => lpmSearchPending_misses hm rfl hh hmiss,
    fun s src h i lg ⟨hh, hm⟩ hmates hok hj hnone hi hold => ?_, fun s src h i lg ⟨hh, hm⟩ hmates hok hj hnone hi heven => ?_,
    fun s src h ⟨_, hm⟩ hbad => lpmInsert_unfit hm rfl hbad, fun s src h r ⟨hh, hm⟩ hok hj => lpmInsert_refused hh hm rfl hok hj.1 hj.2,
    fun s src h lg ⟨hh, hm⟩ hok hj hfull => lpmInsert_answers hh hm rfl hok hj hfull,
    fun s src h lg ⟨hh, hm⟩ hmates hplace hform hset hj => ?_,
    fun s src h r ⟨hh, hm⟩ hplace hform hset hj => lpmWrite_refused hm rfl hh (Chip.lpmFits hplace hform hset) hj.1 hj.2,
    fun s src h ⟨_, hm⟩ hbad => lpmWrite_unfit hm rfl hbad,
    fun s src h v6 ⟨hh, hm⟩ hi => filterRead_entry hm rfl hh hi, fun s src h v6 ⟨_, hm⟩ hi => filterRead_elsewhere hm rfl hi,
    fun s src h v6 ⟨hh, hm⟩ hmates hi hres => filterWrite_written hm rfl hh hmates.1 hi hres,
    fun s src h v6 ⟨_, hm⟩ hbad => filterWrite_refused hm rfl hbad,
    fun s src h first b n v6 ⟨hh, hm⟩ hmates hw hok =>
      does_rangeWritten hm rfl hh hmates.1 hw hok true (exec_setRange ..) (by decide) fun _ => rfl,
    fun s src h first b n v6 ⟨hh, hm⟩ hmates hw hok => ?_,
    fun s src h v6 ⟨_, hm⟩ hbad => setRange_refused hm rfl hbad, fun s src h v6 ⟨_, hm⟩ hbad => clearRange_refused hm rfl hbad⟩
  · obtain ⟨hv4, hj⟩ := hj
    have hplace := Chip.lpmPlace_single (c := s.goChip (lpmWin h) 4) (h := h) (i := i)
      (b := (s.chip.winIn src (lpmWin h)).lpmSlots.2.inserted) (by rw [LpmSlot.v6_inserted, ← WinIn.v6_lpmEntry, hv4])
      (by rwa [(s.sameLpm_goChip h 4).lpmSlotAt])
    refine (lpmInsert_places hh hm rfl hok hj hmates.1 hnone hi hplace).mono fun t ⟨hdone, htab, hlog, honly⟩ =>
      ⟨hdone, fun m hmem => ?_, fun m hmem => ?_, hlog, honly⟩
    · rw [htab, if_pos hmem, LpmCopy.written_single]
      rfl
    · rw [htab, if_neg hmem]
  · obtain ⟨hv6, hj⟩ := hj
    have hplace := Chip.lpmPlace_pair (c := s.goChip (lpmWin h) 4) (h := h) (i := i)
      (b := (s.chip.winIn src (lpmWin h)).lpmSlots.2.inserted) ((LpmSlot.v6_inserted _).trans ((WinIn.v6_lpmEntry _).symm.trans hv6))
    refine (lpmInsert_places hh hm rfl hok hj hmates.1 hnone hi hplace).mono fun t ⟨hdone, htab, hlog, honly⟩ =>
      ⟨hdone, fun m hmem => ?_, fun m hmem => ?_, hlog, honly⟩
    · simp only [Chip.lpmSlotAt, Chip.lpmSeq, htab, if_pos hmem]
      exact (s.chip.lpmTab m).written_inserted heven _ _
    · rw [htab, if_neg hmem]
  · refine (lpmWrite_accepted hm rfl hh (Chip.lpmFits hplace hform hset) hmates.1 hj).mono fun t ⟨hdone, htab, hlog, honly⟩ =>
      ⟨hdone, fun m hmem => ?_, fun m hmem => ?_, hlog, honly⟩
    · simp only [Chip.lpmSlotAt, Chip.lpmSeq, htab, if_pos hmem]
      exact (s.chip.lpmTab m).written_lpmRewrites hform.2.1
    · rw [htab, if_neg hmem]
  · refine (does_rangeWritten hm rfl hh hmates.1 hw hok false (exec_clearRange ..) (by decide) fun _ => rfl).mono
      fun t ⟨hdone, hentry, hrest⟩ => ⟨hdone, fun m hmem => ⟨fun j => ?_, fun j k hk => ?_, (hentry m hmem).2⟩, hrest⟩
    · rw [(hentry m hmem).1, apply_ite (Nat.testBit · b), testBit_bitWritten_false, if_pos rfl]
    · rw [(hentry m hmem).1, apply_ite (Nat.testBit · k), testBit_bitWritten_false, if_neg hk, ite_self]

end Sys2Proof.Machine
end

section
/-! SUPPORT. The TCAM window (spec/09_lpm_and_tcam.md R214, R215, spec/07_accords.md R159): parts read and held, searches, and writes that wait
for a slot. -/

namespace Sys2Proof.Machine

open Sys2Proof

theorem tcamWin_bounds {sl : Nat} (hs : sl < 8) : 0x08000000 ≤ tcamWin sl ∧ tcamWin sl < 0x20000000 := by
  simp only [tcamWin, A.slice]
  omega

section
variable {c d : Chip} (hi : d.image = c.image)
include hi

theorem Chip.tcamTables_of_image (sl : Nat) : d.tcamTables sl = c.tcamTables sl := by
  rw [Chip.tcamTables, hi, Chip.emHome_of_image hi, Chip.tcamTables]

theorem Chip.tcamFormOk_of_image (sl i state : Nat) : d.tcamFormOk sl i state = c.tcamFormOk sl i state := by
  rw [Chip.tcamFormOk, Chip.tcamTableAt, Chip.tcamTables_of_image hi, Chip.tcamFormOk, Chip.tcamTableAt]

end

/-! ### The operations -/

/-- The key that TCAM_SEARCH looks for in a half: held parts 0 and 1 of it (R215). -/
def Tcam.heldKey (t : Tcam) (half : Nat) : Key :=
  BitVec.ofNat 320 ((t.parts.look (3 * half)).getD 0).toNat + BitVec.ofNat 320 (bits ((t.parts.look (3 * half + 1)).getD 0) 63 0 * 2 ^ 256)

/-- The second half of a pair as it is written: it has the first's priority, result and validity (Table 9-11). -/
def Tcam.heldSecond (t : Tcam) (state : Nat) : TcamEntry :=
  { t.heldEntry 1 (state / 128 * 128 + 64) with
    prio := (t.heldEntry 0 state).prio, result := (t.heldEntry 0 state).result, vfrom := (t.heldEntry 0 state).vfrom,
    vuntil := (t.heldEntry 0 state).vuntil }

/-- How the accord engine judges a write of the held parts at an index. -/
def Chip.judgeTcam (c : Chip) (src : Source) (sl i state : Nat) : Verdict :=
  c.judge src ((c.tcamTab sl).copies.look i).validity ((c.tcamTab sl).heldEntry 0 state).validity
    ((c.tcamTab sl).sameBut i ((c.tcamTab sl).heldEntry 0 state) ((c.tcamTab sl).heldSecond state))

/-- The TCAM with one more write that waits for a slot. -/
def Tcam.waiting (t : Tcam) (i state seq : Nat) (logged : Bool) : Tcam :=
  { t with writes := t.writes ++
      [{ index := i, state := state, seq := seq, first := t.heldEntry 0 state, second := t.heldSecond state, logged := logged }] }

section
variable {c : Chip} {sl i : Nat} {w : WinIn}

theorem Chip.readPartOp_part (hi : tcamOfWin w.index = some i) (hp : w.part ≠ 3) : Chip.readPartOp sl w c =
    (c.readPoison (U.sliceBlk sl (tcamWord i).1) ((tcamWord i).2 + 4 * w.part) 4,
      { code := 0, data := some (((c.tcamTab sl).copies.look i).part w.part), state := some ((c.tcamTab sl).copies.look i).state.toNat,
        seq := some ((c.tcamTab sl).seqs.look i), poison := c.tcamCopyPoisoned sl i }) := by
  simp only [Chip.readPartOp, hi, if_neg hp]

theorem Chip.readPartOp_elsewhere (h : tcamOfWin w.index = none ∨ w.part = 3) : Chip.readPartOp sl w c = (c, { code := 6 }) := by
  rw [Chip.readPartOp]
  split
  next hi => exact if_pos (h.resolve_left (by simp [hi]))
  next => rfl

section
variable (hi : tcamOfWin w.index = some i) (hf : c.tcamFormOk sl i w.state = true) (hq : w.seq = (c.tcamTab sl).seqs.look i)
include hi hf hq

theorem Chip.tcamWriteOp_accepted {lg : Bool} (hj : c.judgeTcam w.src sl i w.state = .accept lg) :
    Chip.tcamWriteOp sl w c = (c.setTcam sl ((c.tcamTab sl).waiting i w.state w.seq lg), none) := by
  rw [Chip.judgeTcam, Tcam.heldSecond] at hj
  simp only [Chip.tcamWriteOp, hi, hf, ← hq, hj, Bool.not_true, Bool.false_eq_true, if_false, bne_self_eq_false]
  rfl

theorem Chip.tcamWriteOp_refused {r : Nat} (hj : c.judgeTcam w.src sl i w.state = .refuse r) :
    Chip.tcamWriteOp sl w c = (c.refuseWrite r (tcamWin sl) w.index, some { code := 5 }) := by
  rw [Chip.judgeTcam, Tcam.heldSecond] at hj
  simp only [Chip.tcamWriteOp, hi, hf, ← hq, hj, Bool.not_true, Bool.false_eq_true, if_false, bne_self_eq_false]

end

/-- A write that is not judged, and its code. -/
theorem Chip.tcamWriteOp_unfit (h : (tcamOfWin w.index).any (fun i => c.tcamFormOk sl i w.state && w.seq == (c.tcamTab sl).seqs.look i) = false) :
    Chip.tcamWriteOp sl w c = (c, some { code := if (tcamOfWin w.index).any (fun i => c.tcamFormOk sl i w.state) then 4 else 6 }) := by
  rw [Chip.tcamWriteOp]
  cases hi : tcamOfWin w.index with
  | none => rfl
  | some i =>
    rw [hi, Option.any_some] at h
    dsimp only
    rw [Option.any_some]
    cases hf : c.tcamFormOk sl i w.state
    · rfl
    · rw [hf, Bool.true_and] at h
      rw [bne, h]
      rfl

theorem Chip.tcamSearchOp_absent (h : (c.tcamTables sl).all (fun x => x.id != w.table) = true) : Chip.tcamSearchOp sl w c = (c, { code := 6 }) := by
  have hnone : (c.tcamTables sl).find? (fun x => x.id == w.table) = none := by simpa using h
  simp only [Chip.tcamSearchOp, hnone]

section
variable {x : TcamTab} (hx : (c.tcamTables sl).find? (fun x => x.id == w.table) = some x)
include hx

theorem Chip.tcamSearchOp_finds {e : TcamEntry}
    (he : tcamBest (c.tcamHits sl x ((c.tcamTab sl).heldKey 0) ((c.tcamTab sl).heldKey 1) c.newest []) = some (i, e)) :
    Chip.tcamSearchOp sl w c = (c, { code := 0, index := some (tcamToWin i), seq := some ((c.tcamTab sl).seqs.look i) }) := by
  rw [Tcam.heldKey, Tcam.heldKey] at he
  simp only [Chip.tcamSearchOp, hx, he]

theorem Chip.tcamSearchOp_misses
    (he : tcamBest (c.tcamHits sl x ((c.tcamTab sl).heldKey 0) ((c.tcamTab sl).heldKey 1) c.newest []) = none) :
    Chip.tcamSearchOp sl w c = (c, { code := 1 }) := by
  rw [Tcam.heldKey, Tcam.heldKey] at he
  simp only [Chip.tcamSearchOp, hx, he]

end

end

/-! ### The outcomes -/

section
variable {s : State} {src : Source} {sl : Nat} {w : WinIn} (hm : s.mayGo src (tcamWin sl) = true) (hw : s.chip.winIn src (tcamWin sl) = w)
include hm hw

theorem readPart_part (hs : sl < 8) {i : Nat} (hi : tcamOfWin w.index = some i) (hp : w.part ≠ 3) : Does (.readPart src sl) s fun t =>
    WinDone t (tcamWin sl) 1
      { code := 0, data := some (((s.chip.tcamTab sl).copies.look i).part w.part), state := some ((s.chip.tcamTab sl).copies.look i).state.toNat,
        seq := some ((s.chip.tcamTab sl).seqs.look i), poison := s.chip.tcamCopyPoisoned sl i } ∧
    OnlyParts s t ([tcamWin sl + 4, tcamWin sl + 8] ++ errRegs (U.sliceBlk sl (tcamWord i).1)) ([.wins, .house] ++ [.mem, .ledger]) := by
  have hpoison : (s.goChip (tcamWin sl) 1).tcamCopyPoisoned sl i = s.chip.tcamCopyPoisoned sl i := by
    simp only [Chip.tcamCopyPoisoned, State.poisoned_goChip]
  refine does_readPoison (v := (tcamWord i).2 + 4 * w.part) (n := 4) (tcamWin_bounds hs).2 hm hw (exec_readPart ..) (by decide) ?_
  rw [Chip.readPartOp_part hi hp, State.tcamTab_goChip, hpoison]

theorem readPart_elsewhere (h : tcamOfWin w.index = none ∨ w.part = 3) : Does (.readPart src sl) s fun t =>
    WinDone t (tcamWin sl) 1 { code := 6 } ∧ OnlyParts s t [tcamWin sl + 4, tcamWin sl + 8] [.wins, .house] :=
  does_goAnswer (exec_readPart ..) hm hw (by decide) (Chip.readPartOp_elsewhere h)

theorem loadPart_elsewhere (hp : w.part = 3) : Does (.loadPart src sl) s fun t =>
    WinDone t (tcamWin sl) 2 { code := 6 } ∧ OnlyParts s t [tcamWin sl + 4, tcamWin sl + 8] [.wins, .house] :=
  does_goAnswer (exec_loadPart ..) hm hw (by decide) (if_pos hp)

theorem loadPart_held (hp : w.part ≠ 3) : Does (.loadPart src sl) s fun t => WinDone t (tcamWin sl) 2 { code := 0 } ∧
    t.chip.tcam = s.chip.tcam.set sl
      { (s.chip.tcamTab sl) with parts := (s.chip.tcamTab sl).parts.set (3 * w.half + w.part) (some w.data) } ∧
    OnlyParts s t [tcamWin sl + 4, tcamWin sl + 8] [.wins, .house, .tcam] := by
  refine does_winGo (exec_loadPart ..) hm hw (if_neg hp) ⟨winDone_of_keeps (l := []) (ps := [.tcam]) ((Chip.Keeps.refl _).setTcam (by simp) ..)
    List.not_mem_nil (by decide) _, ?_, ((State.keeps_goChip (by simp) (by simp)).setTcam (by simp) ..).onlyParts_winHeld (by simp) (by simp) _⟩
  rw [Chip.winHeld_tcam, Chip.setTcam, State.tcam_goChip, State.tcamTab_goChip]

section
variable (hs : sl < 8)
include hs

omit hm hw in
theorem State.judgeTcam_goChip (i state : Nat) : (s.goChip (tcamWin sl) 3).judgeTcam src sl i state = s.chip.judgeTcam src sl i state := by
  rw [Chip.judgeTcam, State.judge_go (tcamWin_bounds hs).1, State.tcamTab_goChip, Chip.judgeTcam]

variable {i : Nat} (hi : tcamOfWin w.index = some i) (hf : s.chip.tcamFormOk sl i w.state = true) (hq : w.seq = (s.chip.tcamTab sl).seqs.look i)
include hi hf hq

theorem tcamWrite_waits {lg : Bool} (hj : s.chip.judgeTcam src sl i w.state = .accept lg) : Does (.tcamWriteIfSeq src sl) s fun t =>
    t.chip.wins.look (tcamWin sl) = none ∧ t.chip.get (tcamWin sl + 8) R.WIN_STATUS_busy = 1 ∧ t.chip.get (tcamWin sl + 4) R.WIN_CMD_op = 3 ∧
    t.chip.tcam = s.chip.tcam.set sl ((s.chip.tcamTab sl).waiting i w.state w.seq lg) ∧
    OnlyParts s t [tcamWin sl + 4, tcamWin sl + 8] [.wins, .house, .tcam] := by
  have hsrc : w.src = src := hw ▸ rfl
  have hop := Chip.tcamWriteOp_accepted (c := s.goChip (tcamWin sl) 3) hi (by rwa [Chip.tcamFormOk_of_image State.image_goChip])
    (by rwa [State.tcamTab_goChip]) (by rw [hsrc, State.judgeTcam_goChip hs, hj])
  refine does_winLater (exec_tcamWriteIfSeq ..) hm hw hop ⟨Chip.look_winHeld .., Chip.busy_winHeld .., op_winHeld_of_keeps (l := []) (ps := [.tcam])
    ((Chip.Keeps.refl _).setTcam (by simp) ..) List.not_mem_nil (by decide) _, ?_,
    ((State.keeps_goChip (by simp) (by simp)).setTcam (by simp) ..).onlyParts_winHeld (by simp) (by simp) _⟩
  · rw [Chip.winHeld_tcam, Chip.setTcam, State.tcam_goChip, State.tcamTab_goChip]

theorem tcamWrite_refused {r : Nat} (hj : s.chip.judgeTcam src sl i w.state = .refuse r) (hr : r < 8) : Does (.tcamWriteIfSeq src sl) s fun t =>
    WinDone t (tcamWin sl) 3 { code := 5 } ∧ t.chip.get 0 R.ACCORD_REFUSAL_rule = r ∧ t.chip.get 0 R.ACCORD_EVENT_refused = 1 ∧
      t.chip.reg C.refused_writes = s.chip.reg C.refused_writes + 1 ∧
      OnlyParts s t ([tcamWin sl + 4, tcamWin sl + 8] ++ refusalRegs) [.wins, .house] := by
  have hsrc : w.src = src := hw ▸ rfl
  exact does_writeRefused (tcamWin_bounds hs).1 hm hw (exec_tcamWriteIfSeq ..) (by decide) hr
    (Chip.tcamWriteOp_refused hi (by rwa [Chip.tcamFormOk_of_image State.image_goChip]) (by rwa [State.tcamTab_goChip])
      (by rw [hsrc, State.judgeTcam_goChip hs, hj]))

end

theorem tcamWrite_unfit
    (h : (tcamOfWin w.index).any (fun i => s.chip.tcamFormOk sl i w.state && w.seq == (s.chip.tcamTab sl).seqs.look i) = false) :
    Does (.tcamWriteIfSeq src sl) s fun t =>
      WinDone t (tcamWin sl) 3 { code := if (tcamOfWin w.index).any (fun i => s.chip.tcamFormOk sl i w.state) then 4 else 6 } ∧
      OnlyParts s t [tcamWin sl + 4, tcamWin sl + 8] [.wins, .house] := by
  have hform : (s.goChip (tcamWin sl) 3).tcamFormOk sl = s.chip.tcamFormOk sl :=
    funext fun i => funext fun state => Chip.tcamFormOk_of_image State.image_goChip sl i state
  refine does_winAnswer (exec_tcamWriteIfSeq ..) hm hw (by decide) ?_
  rw [Chip.tcamWriteOp_unfit (by rwa [hform, State.tcamTab_goChip]), hform]

theorem tcamSearch_absent (h : (s.chip.tcamTables sl).all (fun x => x.id != w.table) = true) : Does (.tcamSearch src sl) s fun t =>
    WinDone t (tcamWin sl) 4 { code := 6 } ∧ OnlyParts s t [tcamWin sl + 4, tcamWin sl + 8] [.wins, .house] :=
  does_goAnswer (exec_tcamSearch ..) hm hw (by decide) (Chip.tcamSearchOp_absent (by rwa [Chip.tcamTables_of_image State.image_goChip]))

section
variable (hs : sl < 8)
include hs

omit hm hw in
/-- The go leaves what a search finds. -/
theorem State.tcamHits_goChip (x : TcamTab) : (s.goChip (tcamWin sl) 4).tcamHits sl x (((s.goChip (tcamWin sl) 4).tcamTab sl).heldKey 0)
    (((s.goChip (tcamWin sl) 4).tcamTab sl).heldKey 1) (s.goChip (tcamWin sl) 4).newest [] =
      s.chip.tcamHits sl x ((s.chip.tcamTab sl).heldKey 0) ((s.chip.tcamTab sl).heldKey 1) s.chip.newest [] := by
  rw [(State.sameAccords_goChip (tcamWin_bounds hs).1).newest, State.tcamTab_goChip, Chip.tcamHits, State.tcamTab_goChip, Chip.tcamHits]

variable {x : TcamTab} (hx : (s.chip.tcamTables sl).find? (fun x => x.id == w.table) = some x)
include hx

theorem tcamSearch_finds {i : Nat} {e : TcamEntry}
    (he : tcamBest (s.chip.tcamHits sl x ((s.chip.tcamTab sl).heldKey 0) ((s.chip.tcamTab sl).heldKey 1) s.chip.newest []) = some (i, e)) :
    Does (.tcamSearch src sl) s fun t =>
      WinDone t (tcamWin sl) 4 { code := 0, index := some (tcamToWin i), seq := some ((s.chip.tcamTab sl).seqs.look i) } ∧
      OnlyParts s t [tcamWin sl + 4, tcamWin sl + 8] [.wins, .house] := by
  refine does_goAnswer (exec_tcamSearch ..) hm hw (by decide) ?_
  rw [Chip.tcamSearchOp_finds (by rwa [Chip.tcamTables_of_image State.image_goChip]) (by rwa [State.tcamHits_goChip hs]), State.tcamTab_goChip]

theorem tcamSearch_misses
    (he : tcamBest (s.chip.tcamHits sl x ((s.chip.tcamTab sl).heldKey 0) ((s.chip.tcamTab sl).heldKey 1) s.chip.newest []) = none) :
    Does (.tcamSearch src sl) s fun t => WinDone t (tcamWin sl) 4 { code := 1 } ∧ OnlyParts s t [tcamWin sl + 4, tcamWin sl + 8] [.wins, .house] :=
  does_goAnswer (exec_tcamSearch ..) hm hw (by decide)
    (Chip.tcamSearchOp_misses (by rwa [Chip.tcamTables_of_image State.image_goChip]) (by rwa [State.tcamHits_goChip hs]))

end

end

end Sys2Proof.Machine
end

section
/-! SUPPORT. TCAM_WRITE_SLOT (spec/09_lpm_and_tcam.md R216, R219, spec/01_architecture.md R476): the oldest waiting write lands in row and stored
copy, in every member's copy. -/

namespace Sys2Proof.Machine

open Sys2Proof

/-! ### A TCAM after a write -/

/-- The TCAM with entries written in rows and stored copies alike, their sequence numbers stepped, and their exclusions and repairs lifted. -/
def Tcam.written (t : Tcam) (ws : List (Nat × TcamEntry)) : Tcam :=
  { t with
    rows := ws.foldl (fun m w => m.set w.1 w.2) t.rows
    copies := ws.foldl (fun m w => m.set w.1 w.2) t.copies
    seqs := ws.foldl (fun q w => q.set w.1 ((q.look w.1 + 1) % 65536)) t.seqs
    excluded := t.excluded.filter fun i => !(ws.any fun w => w.1 == i)
    repairs := t.repairs.filter fun i => !(ws.any fun w => w.1 == i) }

/-- The entries that a write gives: one, or both halves of a pair. -/
def TcamWrite.entries (w : TcamWrite) : List (Nat × TcamEntry) :=
  if w.first.pair = 1 then [(w.index, w.first), (w.index + 1, w.second)] else [(w.index, w.first)]

/-- Entries written at a write's places read as it gives them. -/
theorem TcamWrite.look_entries (w : TcamWrite) (m : Tbl TcamEntry) :
    (w.entries.foldl (fun m w => m.set w.1 w.2) m).look w.index = w.first ∧
    (w.first.pair = 1 → (w.entries.foldl (fun m w => m.set w.1 w.2) m).look (w.index + 1) = w.second) ∧
    ∀ j, j ≠ w.index → (w.first.pair ≠ 1 ∨ j ≠ w.index + 1) → (w.entries.foldl (fun m w => m.set w.1 w.2) m).look j = m.look j := by
  rw [TcamWrite.entries]
  by_cases hp : w.first.pair = 1
  · rw [if_pos hp]
    refine ⟨by simp, fun _ => by simp, fun j hj hj' => ?_⟩
    have hmate : j ≠ w.index + 1 := hj'.resolve_left (not_not_intro hp)
    simp [hj, hmate]
  · rw [if_neg hp]
    exact ⟨by simp, fun h => absurd h hp, fun j hj _ => by simp [hj]⟩

/-- Rows and stored copies have a write's entries, every other keeps what it had, the sequence number of the write's index steps once, and
its exclusion is lifted. -/
theorem Tcam.written_entries (t : Tcam) (w : TcamWrite) :
    (t.written w.entries).rows.look w.index = w.first ∧ (t.written w.entries).copies.look w.index = w.first ∧
    (w.first.pair = 1 → (t.written w.entries).rows.look (w.index + 1) = w.second ∧
      (t.written w.entries).copies.look (w.index + 1) = w.second) ∧
    (∀ j, j ≠ w.index → (w.first.pair ≠ 1 ∨ j ≠ w.index + 1) → (t.written w.entries).rows.look j = t.rows.look j ∧
      (t.written w.entries).copies.look j = t.copies.look j) ∧
    (t.written w.entries).seqs.look w.index = (t.seqs.look w.index + 1) % 65536 ∧ w.index ∉ (t.written w.entries).excluded := by
  obtain ⟨hrow, hrowMate, hrows⟩ := w.look_entries t.rows
  obtain ⟨hcopy, hcopyMate, hcopies⟩ := w.look_entries t.copies
  refine ⟨hrow, hcopy, fun hp => ⟨hrowMate hp, hcopyMate hp⟩, fun j hj hj' => ⟨hrows j hj hj', hcopies j hj hj'⟩, ?_⟩
  rw [Tcam.written, TcamWrite.entries]
  by_cases hp : w.first.pair = 1
  · rw [if_pos hp]
    exact ⟨by simp, by simp⟩
  · rw [if_neg hp]
    exact ⟨by simp, by simp⟩

/-! ### The device after a write -/

section
variable {c d : Chip} {l : List Nat} {ps : List Part} (h : c.Keeps d l ps) (hi : injRegs ⊆ l)
  (hp : [.tcam, .mem, .fresh, .ledger] ⊆ ps)
include h hi hp

theorem Chip.Keeps.tcamPut (m : Nat) (ws : List (Nat × TcamEntry)) : c.Keeps (d.tcamPut m ws) l ps :=
  (h.setTcam (hp (by simp)) m _).each ws fun e _ =>
    (Chip.Keeps.refl e).coverEach hi (hp (by simp)) (hp (by simp)) (hp (by simp)) (List.range 12) _ _

theorem Chip.Keeps.tcamStore (m : Nat) (ws : List (Nat × TcamEntry)) : c.Keeps (d.tcamStore m ws) l ps :=
  h.each _ fun e _ => (Chip.Keeps.refl e).tcamPut hi hp ..

end

section
variable (c : Chip) (sl : Nat) (ws : List (Nat × TcamEntry))

theorem Chip.tcamTab_tcamPut (k : Nat) : (c.tcamPut sl ws).tcamTab k = if k = sl then (c.tcamTab sl).written ws else c.tcamTab k := by
  have hcover : (c.setTcam sl ((c.tcamTab sl).written ws)).Keeps (c.tcamPut sl ws) injRegs [.mem, .fresh, .ledger] :=
    Chip.Keeps.each (.refl _) ws fun e _ =>
      (Chip.Keeps.refl e).coverEach (List.Subset.refl _) (by simp) (by simp) (by simp) (List.range 12) _ _
  rw [hcover.tcamTab (by simp), Chip.tcamTab_setTcam]

variable {c sl}

theorem Chip.tcamTab_tcamStore (hn : (c.sliceMates sl).Nodup) (k : Nat) :
    (c.tcamStore sl ws).tcamTab k = if k ∈ c.sliceMates sl then (c.tcamTab k).written ws else c.tcamTab k :=
  Chip.tab_each (tab := Chip.tcamTab) (G := (·.written ws)) (fun c m k => Chip.tcamTab_tcamPut c m ws k) hn c k

end

/-! ### The slot -/

/-- The oldest waiting write has left the queue. -/
def Chip.slotTaken (c : Chip) (sl : Nat) (rest : List TcamWrite) : Chip := c.setTcam sl { c.tcamTab sl with writes := rest }

/-- The waiting write's command has its result. -/
def Chip.slotDone (c : Chip) (sl : Nat) (r : WinRes) : Chip := { c with wins := c.wins.set (tcamWin sl) (some r) }

/-- The write has left the queue, and the log has recorded the entry as it stood, where R159 asked for it. -/
def Chip.slotLogged (c : Chip) (sl : Nat) (w : TcamWrite) (rest : List TcamWrite) : Chip :=
  (c.slotTaken sl rest).when w.logged fun d =>
    d.logWrite (.tcam sl (w.index / 5120) (w.index % 5120)) ((c.tcamTab sl).copies.look w.index).validity

/-- The write has landed and is counted. -/
def Chip.slotLanded (c : Chip) (sl : Nat) (w : TcamWrite) (rest : List TcamWrite) : Chip :=
  (((c.slotLogged sl w rest).tcamStore sl w.entries).cnt ((c.slotLogged sl w rest).sliceCnt sl + C.tcam_write_slots) 1).slotDone sl { code := 0 }

section
variable {s : State} {sl : Nat} {w : TcamWrite} {rest : List TcamWrite} (hr : s.runs .core = true)
include hr

theorem tcamWriteSlot_idle (h : s.chip.alive (U.slice sl) = false ∨ (s.chip.tcamTab sl).writes = []) :
    Does (.tcamWriteSlot sl) s fun t => OnlyRegs s t [] := by
  have hexec : exec (.tcamWriteSlot sl) s = .next { s with chip := s.chip.quiet } := by
    rw [exec_tcamWriteSlot, execTcamWriteSlot, State.run_of_runs hr]
    dsimp only
    obtain hdead | hnone := h
    · have hdead' : s.chip.quiet.alive (U.slice sl) = false := hdead
      rw [hdead', Bool.not_false, if_pos rfl]
    · have hnone' : (s.chip.quiet.tcamTab sl).writes = [] := hnone
      rw [hnone', ite_self]
  exact ⟨_, hexec, Chip.Keeps.onlyRegs (.refl _)⟩

variable (ha : s.chip.alive (U.slice sl) = true) (hl : (s.chip.tcamTab sl).writes = w :: rest)
  (hb : s.chip.blockUp sl (0x50 + w.index / 5120) = true)
include ha hl hb

theorem exec_tcamWriteSlot_stale (hq : w.seq ≠ (s.chip.tcamTab sl).seqs.look w.index) :
    exec (.tcamWriteSlot sl) s = .next { s with chip := (s.chip.quiet.slotTaken sl rest).slotDone sl { code := 4 } } := by
  have ha' : s.chip.quiet.alive (U.slice sl) = true := ha
  have hl' : (s.chip.quiet.tcamTab sl).writes = w :: rest := hl
  have hb' : s.chip.quiet.blockUp sl (0x50 + w.index / 5120) = true := hb
  have hq' : (w.seq != (s.chip.quiet.tcamTab sl).seqs.look w.index) = true := bne_iff_ne.mpr hq
  rw [exec_tcamWriteSlot, execTcamWriteSlot, State.run_of_runs hr]
  simp only [ha', hl', hb', hq', Bool.not_true, Bool.false_eq_true, if_false, if_true]
  rfl

theorem exec_tcamWriteSlot_lands (hq : w.seq = (s.chip.tcamTab sl).seqs.look w.index) :
    exec (.tcamWriteSlot sl) s = .next { s with chip := s.chip.quiet.slotLanded sl w rest } := by
  have ha' : s.chip.quiet.alive (U.slice sl) = true := ha
  have hl' : (s.chip.quiet.tcamTab sl).writes = w :: rest := hl
  have hb' : s.chip.quiet.blockUp sl (0x50 + w.index / 5120) = true := hb
  have hq' : (w.seq != (s.chip.quiet.tcamTab sl).seqs.look w.index) = false := bne_eq_false_iff_eq.mpr hq
  rw [exec_tcamWriteSlot, execTcamWriteSlot, State.run_of_runs hr]
  simp only [ha', hl', hb', hq', Bool.not_true, Bool.false_eq_true, if_false]
  rfl

/-- A write whose entry has changed since it was accepted. -/
theorem tcamWriteSlot_stale (hq : w.seq ≠ (s.chip.tcamTab sl).seqs.look w.index) : Does (.tcamWriteSlot sl) s fun t =>
    t.chip.wins.look (tcamWin sl) = some { code := 4 } ∧ t.chip.tcam = s.chip.tcam.set sl { s.chip.tcamTab sl with writes := rest } ∧
      OnlyParts s t [] [.wins, .tcam] := by
  refine ⟨_, exec_tcamWriteSlot_stale hr ha hl hb hq, by simp [Chip.slotDone], rfl, ?_⟩
  exact (((Chip.Keeps.refl _).setTcam (by simp) ..).setWins (by simp) _).onlyParts

end

/-! ### What the slot leaves -/

section
variable (c : Chip) (sl : Nat) (w : TcamWrite) (rest : List TcamWrite)

/-- The registers and parts that a landing write changes beside its counter and its window. -/
theorem Chip.Keeps.slotLogged {b : Chip} {l : List Nat} {ps : List Part} (h : b.Keeps c l ps) (hl : [R.ACCORD_LOG, R.ACCORD_STATUS] ⊆ l)
    (ht : .tcam ∈ ps) (ha : .accord ∈ ps) : b.Keeps (c.slotLogged sl w rest) l ps := by
  have htaken : b.Keeps (c.slotTaken sl rest) l ps := h.setTcam ht ..
  exact htaken.when fun _ => htaken.logWrite hl ha ..

theorem Chip.image_slotLogged : (c.slotLogged sl w rest).image = c.image :=
  Chip.Keeps.image (Chip.Keeps.slotLogged c sl w rest (ps := [.tcam, .accord]) (.refl c) (List.Subset.refl _) (by simp) (by simp)) (by simp)

/-- Only the queue of the slice's writes changes before the write lands. -/
theorem Chip.tcamTab_slotLogged (k : Nat) : (c.slotLogged sl w rest).tcamTab k =
    if k = sl then { c.tcamTab sl with writes := rest } else c.tcamTab k := by
  have hlogged : (c.slotTaken sl rest).Keeps (c.slotLogged sl w rest) [R.ACCORD_LOG, R.ACCORD_STATUS] [.accord] :=
    Chip.Keeps.when (.refl _) fun _ => (Chip.Keeps.refl _).logWrite (List.Subset.refl _) (by simp) ..
  rw [hlogged.tcamTab (by simp), Chip.slotTaken, Chip.tcamTab_setTcam]

theorem Chip.log_slotLogged : (c.slotLogged sl w rest).accord.log = if w.logged then
    ((c.tcamTab sl).copies.look w.index).validity.logged (.tcam sl (w.index / 5120) (w.index % 5120)) :: c.accord.log else c.accord.log := by
  rw [Chip.slotLogged]
  cases w.logged
  · rfl
  · exact Chip.log_logWrite ..

/-- The registers of the log and of a planted error. -/
def slotRegs : List Nat := [R.ACCORD_LOG, R.ACCORD_STATUS] ++ injRegs

/-- The parts that a landing write changes beside its window. -/
def slotParts : List Part := [.tcam, .accord] ++ [.mem, .fresh, .ledger]

theorem Chip.Keeps.slotStored {b : Chip} {l : List Nat} {ps : List Part} (h : b.Keeps c l ps) (hl : slotRegs ⊆ l) (hp : slotParts ⊆ ps) :
    b.Keeps ((c.slotLogged sl w rest).tcamStore sl w.entries) l ps := by
  obtain ⟨hlog, hinj⟩ := List.append_subset.mp hl
  refine Chip.Keeps.tcamStore (Chip.Keeps.slotLogged c sl w rest h hlog (hp (by simp [slotParts])) (hp (by simp [slotParts]))) hinj
    (fun q hq => hp ?_) ..
  simp [slotParts] at hq ⊢
  tauto

variable {c sl}

theorem Chip.tcamTab_slotLanded (hn : (c.sliceMates sl).Nodup) (k : Nat) : (c.slotLanded sl w rest).tcamTab k =
    if k ∈ c.sliceMates sl then (if k = sl then { c.tcamTab sl with writes := rest } else c.tcamTab k).written w.entries
    else if k = sl then { c.tcamTab sl with writes := rest } else c.tcamTab k := by
  have hmates := Chip.sliceMates_of_image (c.image_slotLogged sl w rest) sl
  refine (Chip.tcamTab_tcamStore (c := c.slotLogged sl w rest) w.entries (by rwa [hmates]) k).trans ?_
  rw [hmates, Chip.tcamTab_slotLogged]

theorem Chip.log_slotLanded : (c.slotLanded sl w rest).accord.log = if w.logged then
    ((c.tcamTab sl).copies.look w.index).validity.logged (.tcam sl (w.index / 5120) (w.index % 5120)) :: c.accord.log else c.accord.log := by
  have hstored : (c.slotLogged sl w rest).Keeps ((c.slotLogged sl w rest).tcamStore sl w.entries) injRegs [.tcam, .mem, .fresh, .ledger] :=
    Chip.Keeps.tcamStore (.refl _) (List.Subset.refl _) (List.Subset.refl _) ..
  rw [← Chip.log_slotLogged, ← hstored.accord (by simp)]
  rfl

/-- A counter of a slice is no register of the log. -/
theorem Chip.sliceCnt_not_mem_slotRegs (c : Chip) (sl o : Nat) : c.sliceCnt sl + o ∉ slotRegs := by
  simp only [slotRegs, injRegs, Chip.sliceCnt, A.slice, R.ACCORD_LOG, R.ACCORD_STATUS, R.LEDGER_INJ_CTRL, C.injections, List.mem_append,
    List.mem_cons, List.not_mem_nil, or_false]
  omega

theorem Chip.counted_slotLanded : (c.slotLanded sl w rest).reg (c.sliceCnt sl + C.tcam_write_slots) =
    c.reg (c.sliceCnt sl + C.tcam_write_slots) + 1 := by
  have hstored := Chip.Keeps.slotStored c sl w rest (.refl c) (List.Subset.refl slotRegs) (List.Subset.refl slotParts)
  have hcnt := Chip.sliceCnt_of_image (c.image_slotLogged sl w rest) sl
  rw [Chip.slotLanded, hcnt]
  exact hstored.counted (l' := []) (ps' := [.wins]) ((Chip.Keeps.refl _).setWins (by simp) _) (c.sliceCnt_not_mem_slotRegs sl _)
    List.not_mem_nil

theorem Chip.Keeps.slotLanded {b : Chip} {l : List Nat} {ps : List Part} (h : b.Keeps c l ps) (hl : slotRegs ⊆ l) (hp : slotParts ⊆ ps)
    (hw : .wins ∈ ps) (hc : c.sliceCnt sl + C.tcam_write_slots ∈ l) : b.Keeps (c.slotLanded sl w rest) l ps := by
  have hcnt := Chip.sliceCnt_of_image (c.image_slotLogged sl w rest) sl
  exact ((Chip.Keeps.slotStored c sl w rest h hl hp).cnt (by rwa [hcnt]) 1).setWins hw _

end

section
variable {s : State} {sl : Nat} {w : TcamWrite} {rest : List TcamWrite} (hr : s.runs .core = true)
  (ha : s.chip.alive (U.slice sl) = true) (hl : (s.chip.tcamTab sl).writes = w :: rest) (hb : s.chip.blockUp sl (0x50 + w.index / 5120) = true)
include hr ha hl hb

/-- A write that lands. -/
theorem tcamWriteSlot_lands (hn : (s.chip.sliceMates sl).Nodup) (hmem : sl ∈ s.chip.sliceMates sl)
    (hq : w.seq = (s.chip.tcamTab sl).seqs.look w.index) : Does (.tcamWriteSlot sl) s fun t =>
      t.chip.wins.look (tcamWin sl) = some { code := 0 } ∧ (t.chip.tcamTab sl).writes = rest ∧
      (∀ m ∈ s.chip.sliceMates sl,
        (t.chip.tcamTab m).rows.look w.index = w.first ∧ (t.chip.tcamTab m).copies.look w.index = w.first ∧
        (w.first.pair = 1 → (t.chip.tcamTab m).rows.look (w.index + 1) = w.second ∧
          (t.chip.tcamTab m).copies.look (w.index + 1) = w.second) ∧
        (∀ j, j ≠ w.index → (w.first.pair ≠ 1 ∨ j ≠ w.index + 1) → (t.chip.tcamTab m).rows.look j = (s.chip.tcamTab m).rows.look j ∧
          (t.chip.tcamTab m).copies.look j = (s.chip.tcamTab m).copies.look j) ∧
        (t.chip.tcamTab m).seqs.look w.index = ((s.chip.tcamTab m).seqs.look w.index + 1) % 65536 ∧ w.index ∉ (t.chip.tcamTab m).excluded) ∧
      (∀ m, m ∉ s.chip.sliceMates sl → t.chip.tcamTab m = s.chip.tcamTab m) ∧
      t.chip.reg (s.chip.sliceCnt sl + C.tcam_write_slots) = s.chip.reg (s.chip.sliceCnt sl + C.tcam_write_slots) + 1 ∧
      t.chip.accord.log = (if w.logged then
        ((s.chip.tcamTab sl).copies.look w.index).validity.logged (.tcam sl (w.index / 5120) (w.index % 5120)) :: s.chip.accord.log
        else s.chip.accord.log) ∧
      OnlyParts s t ([s.chip.sliceCnt sl + C.tcam_write_slots] ++ slotRegs) ([.wins] ++ slotParts) := by
  have htab : ∀ m, (s.chip.quiet.slotLanded sl w rest).tcamTab m = if m ∈ s.chip.sliceMates sl then
      (if m = sl then { s.chip.tcamTab sl with writes := rest } else s.chip.tcamTab m).written w.entries
      else if m = sl then { s.chip.tcamTab sl with writes := rest } else s.chip.tcamTab m :=
    Chip.tcamTab_slotLanded (c := s.chip.quiet) w rest hn
  refine ⟨_, exec_tcamWriteSlot_lands hr ha hl hb hq, by simp [Chip.slotLanded, Chip.slotDone], ?_, fun m hm => ?_, fun m hm => ?_,
    Chip.counted_slotLanded (c := s.chip.quiet) w rest, Chip.log_slotLanded (c := s.chip.quiet) w rest, ?_⟩
  · rw [htab, if_pos hmem, if_pos rfl]
    rfl
  · rw [htab, if_pos hm]
    by_cases hsl : m = sl
    · subst hsl
      rw [if_pos rfl]
      exact Tcam.written_entries { s.chip.tcamTab m with writes := rest } w
    · rw [if_neg hsl]
      exact Tcam.written_entries (s.chip.tcamTab m) w
  · have hne : m ≠ sl := fun hm' => hm (hm' ▸ hmem)
    rw [htab, if_neg hm, if_neg hne]
  · exact (Chip.Keeps.slotLanded w rest (.refl _) (List.subset_append_right ..) (List.subset_append_right ..) (by simp) (.head _)).onlyParts

end

end Sys2Proof.Machine
end

section
/-! SUPPORT. TCAM_SCRUB_READ (spec/09_lpm_and_tcam.md R220): a row is read and compared with its stored copy. -/

namespace Sys2Proof.Machine

open Sys2Proof

/-! ### The read -/

/-- The scrubber reads the entry now: its slice runs and is awake, the scrub is on, a table has the entry, and the read is due. -/
def Chip.scrubs (c : Chip) (sl bank entry : Nat) : Bool :=
  bank < 4 && entry < 5120 && c.alive (U.slice sl) && c.blockUp sl (0x50 + bank) && c.house.sleep.look sl == 0 &&
    c.on (A.slice (c.emHome sl)) R.TCAM_SCRUB_enable && (c.tcamTableAt sl (tcamPhys bank entry)).isSome && c.tcamScrubDue sl (tcamPhys bank entry)

section
variable {c : Chip} {sl bank entry : Nat}

theorem Chip.scrubs_iff : c.scrubs sl bank entry = true ↔ bank < 4 ∧ entry < 5120 ∧ c.alive (U.slice sl) = true ∧
    c.blockUp sl (0x50 + bank) = true ∧ c.house.sleep.look sl = 0 ∧ c.get (A.slice (c.emHome sl)) R.TCAM_SCRUB_enable = 1 ∧
    (c.tcamTableAt sl (tcamPhys bank entry)).isSome = true ∧ c.tcamScrubDue sl (tcamPhys bank entry) = true := by
  have hlt : c.get (A.slice (c.emHome sl)) R.TCAM_SCRUB_enable < 2 := bits_lt ..
  have hon : c.on (A.slice (c.emHome sl)) R.TCAM_SCRUB_enable = true ↔ c.get (A.slice (c.emHome sl)) R.TCAM_SCRUB_enable = 1 := by
    rw [Chip.on, bne_iff_ne]
    omega
  simp only [Chip.scrubs, Bool.and_eq_true, decide_eq_true_eq, beq_iff_eq, hon, and_assoc]

theorem Chip.scrubs_eq_false (h : 4 ≤ bank ∨ 5120 ≤ entry ∨ c.alive (U.slice sl) = false ∨ c.blockUp sl (0x50 + bank) = false ∨
    c.house.sleep.look sl ≠ 0 ∨ c.get (A.slice (c.emHome sl)) R.TCAM_SCRUB_enable = 0 ∨
    (c.tcamTableAt sl (tcamPhys bank entry)).isSome = false ∨ c.tcamScrubDue sl (tcamPhys bank entry) = false) :
    c.scrubs sl bank entry = false := by
  rw [← Bool.not_eq_true, Chip.scrubs_iff]
  rintro ⟨hbank, hentry, halive, hup, hawake, hon, htable, hdue⟩
  simp only [halive, hup, hawake, hon, htable, hdue, Bool.true_eq_false, ne_eq, not_true_eq_false, one_ne_zero, or_false] at h
  omega

end

/-- A row that has been read is due again only after the interval. -/
def Tcam.rowRead (t : Tcam) (i now : Nat) : Tcam := { t with scrubbed := t.scrubbed.set i (some now) }

/-- The row as its stored copy has it. -/
def Tcam.rowRestored (t : Tcam) (i : Nat) : Tcam := { t with rows := t.rows.set i (t.copies.look i) }

section
variable (c : Chip) (sl i : Nat) (x : Key)

/-- The row's cells have changed by the upset, and the read is counted. -/
def Chip.upsetCounted : Chip := (c.tcamUpset sl i x).cnt (c.sliceCnt sl + C.tcam_scrub_rows) 1

/-- What the scrubber has after its read. -/
def Chip.scrubTab : Tcam := ((c.upsetCounted sl i x).tcamTab sl).rowRead i (c.upsetCounted sl i x).now

def Chip.scrubbedRow : Chip := (c.upsetCounted sl i x).setTcam sl (c.scrubTab sl i x)

/-- The row is restored from its stored copy, counted and reported. -/
def Chip.scrubRepair (bank : Nat) : Chip :=
  ((((c.scrubbedRow sl i x).setTcam sl ((c.scrubTab sl i x).rowRestored i)).cnt ((c.scrubbedRow sl i x).sliceCnt sl + C.tcam_row_repair) 1).report
    (U.sliceBlk sl (0x50 + bank)) K.tcamRowMismatch 1 i).put (A.slice ((c.scrubbedRow sl i x).emHome sl)) R.TCAM_EVENT_row_mismatch 1

/-- What the scrubber makes of a row that it reads: one that agrees with its stored copy stays. -/
def Chip.scrubRead (bank : Nat) : Chip :=
  if (c.scrubTab sl i x).rows.look i == (c.scrubTab sl i x).copies.look i then c.scrubbedRow sl i x else c.scrubRepair sl i x bank

/-! ### What the read leaves -/

theorem Chip.tcamUpset_zero : c.tcamUpset sl i 0 = c := if_pos rfl

/-- An upset leaves the stored copies. -/
theorem Chip.copies_tcamUpset : ((c.tcamUpset sl i x).tcamTab sl).copies = (c.tcamTab sl).copies := by
  rw [Chip.tcamUpset]
  split
  · rfl
  · rw [Chip.tcamTab_setTcam, if_pos rfl]

/-- The outputs of the command before make no difference to an upset. -/
theorem Chip.tcamTab_tcamUpset_quiet : (c.quiet.tcamUpset sl i x).tcamTab sl = (c.tcamUpset sl i x).tcamTab sl := by
  rw [Chip.tcamUpset, Chip.tcamUpset]
  split
  · rfl
  · rw [Chip.tcamTab_setTcam, Chip.tcamTab_setTcam]
    rfl

section
variable {b : Chip} {l : List Nat} {ps : List Part} {c} (h : b.Keeps c l ps) (hp : .tcam ∈ ps)
include h hp

theorem Chip.Keeps.tcamUpset : b.Keeps (c.tcamUpset sl i x) l ps := by
  rw [Chip.tcamUpset]
  split
  · exact h
  · exact h.setTcam hp ..

theorem Chip.Keeps.scrubbedRow (hl : c.sliceCnt sl + C.tcam_scrub_rows ∈ l) : b.Keeps (c.scrubbedRow sl i x) l ps :=
  ((Chip.Keeps.tcamUpset sl i x h hp).cnt hl 1).setTcam hp ..

end

theorem Chip.keeps_tcamUpset : c.Keeps (c.tcamUpset sl i x) [] [.tcam] := Chip.Keeps.tcamUpset sl i x (.refl c) (.head _)

theorem Chip.keeps_scrubbedRow : c.Keeps (c.scrubbedRow sl i x) [c.sliceCnt sl + C.tcam_scrub_rows] [.tcam] :=
  Chip.Keeps.scrubbedRow sl i x (.refl c) (.head _) (.head _)

theorem Chip.scrubTab_rows : (c.scrubTab sl i x).rows = ((c.tcamUpset sl i x).tcamTab sl).rows := rfl

theorem Chip.scrubTab_copies : (c.scrubTab sl i x).copies = (c.tcamTab sl).copies := c.copies_tcamUpset sl i x

theorem Chip.scrubTab_scrubbed : (c.scrubTab sl i x).scrubbed.look i = some c.now := by
  have hnow : (c.tcamUpset sl i x).now = c.now := (c.keeps_tcamUpset sl i x).now (by simp)
  rw [Chip.scrubTab, Tcam.rowRead, Tbl.look_set, if_pos rfl]
  exact congrArg some hnow

theorem Chip.counted_scrubbedRow : (c.scrubbedRow sl i x).reg (c.sliceCnt sl + C.tcam_scrub_rows) = c.reg (c.sliceCnt sl + C.tcam_scrub_rows) + 1 :=
  (c.keeps_tcamUpset sl i x).counted (l' := []) (ps' := [.tcam]) ((Chip.Keeps.refl _).setTcam (by simp) ..) List.not_mem_nil List.not_mem_nil

variable (bank : Nat)

/-- The repair beside what the read did. -/
theorem Chip.scrubRepair_eq : c.scrubRepair sl i x bank = ((((c.scrubbedRow sl i x).setTcam sl ((c.scrubTab sl i x).rowRestored i)).cnt
    (c.sliceCnt sl + C.tcam_row_repair) 1).report (U.sliceBlk sl (0x50 + bank)) K.tcamRowMismatch 1 i).put (A.slice (c.emHome sl))
    R.TCAM_EVENT_row_mismatch 1 := by
  have himage := (c.keeps_scrubbedRow sl i x).image (by simp)
  rw [Chip.scrubRepair, Chip.sliceCnt_of_image himage, Chip.emHome_of_image himage]

theorem Chip.tcamTab_scrubRepair : (c.scrubRepair sl i x bank).tcamTab sl = (c.scrubTab sl i x).rowRestored i := by
  rw [Chip.scrubRepair, Chip.tcamTab, Chip.put_tcam, Chip.report_tcam, Chip.cnt_tcam, ← Chip.tcamTab, Chip.tcamTab_setTcam, if_pos rfl]

theorem Chip.keeps_scrubRepair : c.Keeps (c.scrubRepair sl i x bank)
    [c.sliceCnt sl + C.tcam_scrub_rows, c.sliceCnt sl + C.tcam_row_repair, A.slice (c.emHome sl) + R.TCAM_EVENT] [.tcam, .ledger] := by
  have hread : c.Keeps (c.scrubbedRow sl i x) [c.sliceCnt sl + C.tcam_scrub_rows, c.sliceCnt sl + C.tcam_row_repair,
    A.slice (c.emHome sl) + R.TCAM_EVENT] [.tcam, .ledger] := Chip.Keeps.scrubbedRow sl i x (.refl c) (.head _) (.head _)
  have hevent : A.slice (c.emHome sl) + R.TCAM_EVENT_row_mismatch.off ∈ [c.sliceCnt sl + C.tcam_scrub_rows,
    c.sliceCnt sl + C.tcam_row_repair, A.slice (c.emHome sl) + R.TCAM_EVENT] := by simp [R.TCAM_EVENT_row_mismatch, R.TCAM_EVENT]
  rw [Chip.scrubRepair_eq]
  exact (((hread.setTcam (by simp) ..).cnt (by simp) 1).report (by simp) _ _ _ i).put hevent 1

/-- Both counters step once. -/
theorem Chip.counted_scrubRepair :
    (c.scrubRepair sl i x bank).reg (c.sliceCnt sl + C.tcam_scrub_rows) = c.reg (c.sliceCnt sl + C.tcam_scrub_rows) + 1 ∧
    (c.scrubRepair sl i x bank).reg (c.sliceCnt sl + C.tcam_row_repair) = c.reg (c.sliceCnt sl + C.tcam_row_repair) + 1 := by
  have hevent : ∀ a, a ≠ A.slice (c.emHome sl) + R.TCAM_EVENT_row_mismatch.off → (c.scrubRepair sl i x bank).reg a =
      ((c.scrubbedRow sl i x).cnt (c.sliceCnt sl + C.tcam_row_repair) 1).reg a := fun a ha => by
    rw [Chip.scrubRepair_eq, Chip.reg_put_ne _ _ _ _ _ ha, Chip.reg_report]
    rfl
  have hother : c.sliceCnt sl + C.tcam_row_repair ∉ [c.sliceCnt sl + C.tcam_scrub_rows] := by
    simp [C.tcam_row_repair, C.tcam_scrub_rows]
  have hoff : ∀ o, o ≠ R.TCAM_EVENT_row_mismatch.off → c.sliceCnt sl + o ≠ A.slice (c.emHome sl) + R.TCAM_EVENT_row_mismatch.off :=
    fun o ho h => ho (Nat.add_left_cancel h)
  rw [hevent _ (hoff _ (by decide)), hevent _ (hoff _ (by decide))]
  refine ⟨?_, ?_⟩
  · rw [Chip.reg_cnt_ne _ _ _ _ fun h => hother (by simp [h]), Chip.counted_scrubbedRow]
  · rw [Chip.reg_cnt_same, (c.keeps_scrubbedRow sl i x).1 _ hother]
    rfl

theorem Chip.event_scrubRepair : (c.scrubRepair sl i x bank).get (A.slice (c.emHome sl)) R.TCAM_EVENT_row_mismatch = 1 := by
  rw [Chip.scrubRepair_eq, Chip.get_put_same _ _ _ _ (by decide)]
  rfl

theorem Chip.ledger_scrubRepair :
    (c.scrubRepair sl i x bank).ledger = c.sent [c.msgOf (U.sliceBlk sl (0x50 + bank)) K.tcamRowMismatch 1 i] := by
  have hrestored : c.Keeps (((c.scrubbedRow sl i x).setTcam sl ((c.scrubTab sl i x).rowRestored i)).cnt (c.sliceCnt sl + C.tcam_row_repair) 1)
      [c.sliceCnt sl + C.tcam_scrub_rows, c.sliceCnt sl + C.tcam_row_repair] [.tcam] :=
    ((Chip.Keeps.scrubbedRow sl i x (.refl c) (by simp) (by simp)).setTcam (by simp) ..).cnt (by simp) 1
  rw [Chip.scrubRepair_eq, Chip.put_ledger, Chip.report_sent, Chip.sent, hrestored.ledger (by simp),
    Chip.msgOf_of_image (hrestored.image (by simp)), Chip.sent]

end

/-! ### The outcomes -/

theorem exec_tcamScrubRead_eq (s : State) (sl bank entry : Nat) (x : Key) : exec (.tcamScrubRead sl bank entry x) s = s.run .core fun c =>
    if c.scrubs sl bank entry then c.scrubRead sl (tcamPhys bank entry) x bank else c := rfl

section
variable {s : State} {sl bank entry : Nat} {x : Key} (hr : s.runs .core = true)
include hr

/-- A row that the scrubber does not read. -/
theorem tcamScrubRead_idle (h : s.chip.scrubs sl bank entry = false) : Does (.tcamScrubRead sl bank entry x) s fun t => OnlyRegs s t [] := by
  have hidle : ¬ s.chip.quiet.scrubs sl bank entry = true := fun hs => Bool.false_ne_true (h.symm.trans hs)
  refine Does.of_run (exec_tcamScrubRead_eq ..) hr ?_
  rw [if_neg hidle]
  exact Chip.Keeps.onlyRegs (.refl _)

variable (h : s.chip.scrubs sl bank entry = true)
include h

theorem exec_tcamScrubRead_due :
    exec (.tcamScrubRead sl bank entry x) s = .next { s with chip := s.chip.quiet.scrubRead sl (tcamPhys bank entry) x bank } := by
  have hdue : s.chip.quiet.scrubs sl bank entry = true := h
  rw [exec_tcamScrubRead_eq, State.run_of_runs hr, if_pos hdue]

variable {i : Nat} (hi : tcamPhys bank entry = i)
include hi

/-- A row that agrees with its stored copy is only counted. -/
theorem tcamScrubRead_agrees (he : (s.chip.tcamTab sl).rows.look i = (s.chip.tcamTab sl).copies.look i) :
    Does (.tcamScrubRead sl bank entry 0) s fun t =>
      t.chip.tcam = s.chip.tcam.set sl ((s.chip.tcamTab sl).rowRead i s.chip.now) ∧
      t.chip.reg (s.chip.sliceCnt sl + C.tcam_scrub_rows) = s.chip.reg (s.chip.sliceCnt sl + C.tcam_scrub_rows) + 1 ∧
      OnlyParts s t [s.chip.sliceCnt sl + C.tcam_scrub_rows] [.tcam] := by
  subst hi
  have htab : s.chip.quiet.scrubTab sl (tcamPhys bank entry) 0 = (s.chip.tcamTab sl).rowRead (tcamPhys bank entry) s.chip.now := by
    rw [Chip.scrubTab, Chip.upsetCounted, Chip.tcamUpset_zero]
    rfl
  have hread : s.chip.quiet.scrubRead sl (tcamPhys bank entry) 0 bank = s.chip.quiet.scrubbedRow sl (tcamPhys bank entry) 0 := by
    rw [Chip.scrubRead, htab]
    exact if_pos (beq_iff_eq.mpr he)
  refine ⟨_, exec_tcamScrubRead_due hr h, ?_⟩
  rw [hread]
  refine ⟨?_, s.chip.quiet.counted_scrubbedRow .., (s.chip.quiet.keeps_scrubbedRow ..).onlyParts⟩
  rw [Chip.scrubbedRow, htab, Chip.upsetCounted, Chip.tcamUpset_zero]
  rfl

/-- A row that differs from its stored copy is restored and reported. -/
theorem tcamScrubRead_differs
    (he : ((s.chip.tcamUpset sl i x).tcamTab sl).rows.look i ≠ (s.chip.tcamTab sl).copies.look i) :
    Does (.tcamScrubRead sl bank entry x) s fun t =>
      (t.chip.tcamTab sl).rows.look i = (s.chip.tcamTab sl).copies.look i ∧ (t.chip.tcamTab sl).copies = (s.chip.tcamTab sl).copies ∧
      (t.chip.tcamTab sl).scrubbed.look i = some s.chip.now ∧
      t.chip.reg (s.chip.sliceCnt sl + C.tcam_scrub_rows) = s.chip.reg (s.chip.sliceCnt sl + C.tcam_scrub_rows) + 1 ∧
      t.chip.reg (s.chip.sliceCnt sl + C.tcam_row_repair) = s.chip.reg (s.chip.sliceCnt sl + C.tcam_row_repair) + 1 ∧
      t.chip.get (A.slice (s.chip.emHome sl)) R.TCAM_EVENT_row_mismatch = 1 ∧
      t.chip.ledger = s.chip.sent [s.chip.msgOf (U.sliceBlk sl (0x50 + bank)) K.tcamRowMismatch 1 i] ∧
      OnlyParts s t [s.chip.sliceCnt sl + C.tcam_scrub_rows, s.chip.sliceCnt sl + C.tcam_row_repair,
        A.slice (s.chip.emHome sl) + R.TCAM_EVENT] [.tcam, .ledger] := by
  subst hi
  have hcopies := s.chip.quiet.scrubTab_copies sl (tcamPhys bank entry) x
  have hread : s.chip.quiet.scrubRead sl (tcamPhys bank entry) x bank = s.chip.quiet.scrubRepair sl (tcamPhys bank entry) x bank := by
    rw [Chip.scrubRead, Chip.scrubTab_rows, Chip.tcamTab_tcamUpset_quiet, hcopies]
    exact if_neg fun heq => he (eq_of_beq heq)
  obtain ⟨hrows, hrepairs⟩ := s.chip.quiet.counted_scrubRepair sl (tcamPhys bank entry) x bank
  refine ⟨_, exec_tcamScrubRead_due hr h, ?_⟩
  dsimp only
  rw [hread, Chip.tcamTab_scrubRepair, Chip.ledger_scrubRepair]
  refine ⟨?_, hcopies, s.chip.quiet.scrubTab_scrubbed .., hrows, hrepairs, s.chip.quiet.event_scrubRepair .., rfl,
    (s.chip.quiet.keeps_scrubRepair ..).onlyParts⟩
  rw [Tcam.rowRestored, Tbl.look_set, if_pos rfl, hcopies]
  rfl

end

end Sys2Proof.Machine
end

section
/-! SUPPORT. The operations of the TCAM window, the write slot and the scrub read (spec/09_lpm_and_tcam.md R214 to R220), clause by clause. -/

namespace Sys2Proof.Machine

open Sys2Proof

/-- Settles O41: each clause is what the operation of the window, the write slot or the scrub read answers or makes of the copies. -/
theorem tcamWindowOperations : Obligations.TcamWindowOperations := by
  refine ⟨fun s src sl i ⟨hs, hm⟩ ⟨hi, hp⟩ => readPart_part hm rfl hs hi hp, fun s src sl ⟨_, hm⟩ h => readPart_elsewhere hm rfl h,
    fun s src sl ⟨_, hm⟩ hp => loadPart_held hm rfl hp, fun s src sl ⟨_, hm⟩ hp => loadPart_elsewhere hm rfl hp,
    fun s src sl i x y lg ⟨hs, hm⟩ ⟨hi, hf, hq⟩ hxy hj => ?_, fun s src sl i r x y ⟨hs, hm⟩ ⟨hi, hf, hq⟩ hxy ⟨hj, hr⟩ => ?_,
    fun s src sl ⟨_, hm⟩ h => tcamWrite_unfit hm rfl h,
    fun s sl w rest hr ⟨ha, hl, hb⟩ ⟨hn, hmem⟩ hq => tcamWriteSlot_lands hr ha hl hb hn hmem hq,
    fun s sl w rest hr ⟨ha, hl, hb⟩ hq => tcamWriteSlot_stale hr ha hl hb hq, fun s sl hr h => tcamWriteSlot_idle hr h,
    fun s src sl ⟨_, hm⟩ h => tcamSearch_absent hm rfl h,
    fun s src sl i e x ka kb ⟨hs, hm⟩ hx hkeys he => ?_, fun s src sl x ka kb ⟨hs, hm⟩ hx hkeys he => ?_,
    fun s sl bank entry x hr h he => tcamScrubRead_differs hr (Chip.scrubs_iff.mpr h) rfl he,
    fun s sl bank entry hr h he => tcamScrubRead_agrees hr (Chip.scrubs_iff.mpr h) rfl he,
    fun s sl bank entry x hr h => tcamScrubRead_idle hr (Chip.scrubs_eq_false h)⟩
  · obtain ⟨rfl, rfl⟩ := hxy
    exact tcamWrite_waits hm rfl hs hi hf hq hj
  · obtain ⟨rfl, rfl⟩ := hxy
    exact tcamWrite_refused hm rfl hs hi hf hq hj hr
  · obtain ⟨rfl, rfl⟩ := hkeys
    exact tcamSearch_finds hm rfl hs hx he
  · obtain ⟨rfl, rfl⟩ := hkeys
    exact tcamSearch_misses hm rfl hs hx he

end Sys2Proof.Machine
end

section
/-! SUPPORT. A visit of the settler (spec/07_accords.md R166) to an exact-match entry of a slice that does not exist. -/

namespace Sys2Proof.Machine

open Sys2Proof

/-- Slices 0 and 1 make a suite and accord 5 is the oldest. The table of the slice that does not exist has granules, and a valid entry that
begins with accord 5. -/
def strayVisitState : State :=
  { State.reset with
    chip :=
      { power := { sysRstHigh := true, released := true, sysPll := true }
        image := { applied := true, suites := [[U.slice 0, U.slice 1]], splits := [(straySlice, { em := 1, lpm := 0, ovf := 0 })] }
        regs := [(R.ACCORD_OLDEST, 5)]
        em := [(straySlice, { entries := [(0, { body := 5 * 2 ^ 16, state := 0x80 })] })] } }

/-- Refutes O42, by clause 17: the settler writes the validity fields at the same index of slice 1, the one mate of the slice that the place names.
That makes an entry of slice 1 valid, which is counted in EM_OCC of slice 1, the home of the named slice. The clause lists the registers of
the homes of the mates, and the home of slice 1 is slice 0. No hypothesis of the clause keeps the slice of a place below 8. -/
theorem not_objectsGroupHeadsAndSettler : ¬ Obligations.ObjectsGroupHeadsAndSettler := by
  rintro ⟨-, -, -, -, -, -, -, -, -, -, -, -, -, -, -, -, hvisit, -⟩
  have hruns : strayVisitState.runs .core = true := by decide +kernel
  obtain ⟨t, hexec, -, -, -, ⟨hkept, -⟩, -⟩ := hvisit strayVisitState (.em straySlice 0) hruns (by decide +kernel) (by decide +kernel)
    (by decide +kernel)
  obtain rfl := Host.Outcome.next.inj (hexec.symm.trans ((exec_settlerVisit strayVisitState _).trans (State.run_of_runs hruns _)))
  have hsame := hkept (A.slice 1 + R.EM_OCC) (by decide +kernel)
  revert hsame
  decide +kernel

end Sys2Proof.Machine
end

section
/-! SUPPORT. Verdicts (spec/10_actions_and_editing.md R224, spec/07_accords.md R152): what a verdict without a mirror session writes, and what
it starts to carry the frame on. -/

namespace Sys2Proof.Machine

open Sys2Proof

/-! ### Streams, punts and the staging buffer -/

section
variable {c d : Chip} {l : List Nat} {ps : List Part} (h : c.Keeps d l ps)
include h

theorem Chip.Keeps.setNextId (hp : .nextId ∈ ps) (v : Nat) : c.Keeps { d with nextId := v } l ps :=
  h.update (f := fun d => { d with nextId := v }) hp rfl (fun _ => rfl) (fun _ q _ => by cases q <;> trivial) fun _ => rfl

theorem Chip.Keeps.setStreams (hp : .streams ∈ ps) (v : Tbl (Option Stream)) : c.Keeps { d with streams := v } l ps :=
  h.update (f := fun d => { d with streams := v }) hp rfl (fun _ => rfl) (fun _ q _ => by cases q <;> trivial) fun _ => rfl

theorem Chip.Keeps.setHost (hp : .host ∈ ps) (v : HostSide) : c.Keeps { d with host := v } l ps :=
  h.update (f := fun d => { d with host := v }) hp rfl (fun _ => rfl) (fun _ q _ => by cases q <;> trivial) fun _ => rfl

theorem Chip.Keeps.frames (hp : .frames ∉ ps) : d.frames = c.frames :=
  h.field (g := Chip.frames) hp (fun _ q _ => by cases q <;> trivial) fun _ => rfl

theorem Chip.Keeps.nextId (hp : .nextId ∉ ps) : d.nextId = c.nextId :=
  h.field (g := Chip.nextId) hp (fun _ q _ => by cases q <;> trivial) fun _ => rfl

theorem Chip.Keeps.host (hp : .host ∉ ps) : d.host = c.host :=
  h.field (g := Chip.host) hp (fun _ q _ => by cases q <;> trivial) fun _ => rfl

theorem Chip.Keeps.openStream (hn : .nextId ∈ ps) (hs : .streams ∈ ps) (id : Nat) (wb : BitVec 512) (mirror mcast : Bool)
    (mask trunc : Nat) : c.Keeps (d.openStream id wb mirror mcast mask trunc) l ps := (h.setNextId hn _).setStreams hs _

theorem Chip.Keeps.updFr (hf : .frames ∈ ps) (id : Nat) (g : Frame → Frame) : c.Keeps (d.updFr id g) l ps := by
  unfold Chip.updFr
  split
  · exact h.setFr hf id _
  · exact h

theorem Chip.Keeps.unstage (hf : .frames ∈ ps) (id : Nat) : c.Keeps (d.unstage id) l ps := .ite h (h.updFr hf id _)

/-- The planes that are up show in their status registers. -/
theorem Chip.Keeps.pinPlane (hl : ∀ k < 4, A.plane k + R.PLANE_STATUS ∉ l) (i : Nat) : d.pinPlane i = c.pinPlane i := by
  have hup : d.planesUp = c.planesUp := List.filter_congr fun k hk => by
    rw [Chip.planeState, h.get (f := R.PLANE_STATUS_state) (hl k (List.mem_range.mp hk)), Chip.planeState]
  rw [Chip.pinPlane, hup, Chip.pinPlane]

end

section
variable (c : Chip) (id : Nat)

/-- What leaving the staging buffer leaves, from what an update of a frame leaves. -/
theorem Chip.unstage_same {β : Type} {g : Chip → β} (hg : ∀ c f, g (Chip.setFr c id f) = g c) : g (c.unstage id) = g c := by
  rw [Chip.unstage, apply_ite g, Chip.updFr]
  split
  · rfl
  · split
    · exact hg ..
    · rfl

theorem Chip.reg_unstage (a : Nat) : (c.unstage id).reg a = c.reg a := Chip.unstage_same (g := (·.reg a)) _ _ fun _ _ => rfl

/-- A frame that leaves the staging buffer is otherwise what it was. -/
theorem Chip.fr_unstage {c : Chip} {id : Nat} {f : Frame} (h : c.frames.look id = some f) :
    ∃ b, (c.unstage id).fr id = { f with staged := b } := by
  unfold Chip.unstage
  dsimp only
  split
  · exact ⟨f.staged, Chip.fr_of_look h⟩
  · exact ⟨false, by rw [Chip.updFr_of_look h, Chip.fr, Chip.look_setFr, Option.getD_some]⟩

theorem Chip.fr_setFr (f : Frame) (i : Nat) : (c.setFr id f).fr i = if i = id then f else c.fr i := by
  rw [Chip.fr, Chip.setFr_frames, Tbl.look_set]
  split
  · rfl
  · rfl

theorem Chip.look_setStrm (v : Stream) : (c.setStrm id v).streams.look id = some v := by
  change (c.streams.set id (some v)).look id = some v
  rw [Tbl.look_set, if_pos rfl]

theorem Chip.strm_openStream (wb : BitVec 512) (mirror mcast : Bool) (mask trunc : Nat) :
    (c.openStream id wb mirror mcast mask trunc).strm c.nextId =
      { frame := id, slice := (c.fr id).slice, wb, mirror, mcast, mask, trunc, plane := c.pinPlane (Wb.hash wb % 256), left := mask,
        openAt := mask } := by
  rw [Chip.strm, Chip.openStream]
  exact congrArg (fun o : Option Stream => o.getD default) (Chip.look_setStrm ..)

/-- A slice's backlog of punts follows the punts that wait and the lengths of the frames. -/
theorem Chip.puntBacklog_congr {c d : Chip} (hhost : d.host = c.host) (hlen : ∀ i, (d.fr i).bytes.length = (c.fr i).bytes.length) (s : Nat) :
    d.puntBacklog s = c.puntBacklog s := by simp only [Chip.puntBacklog, hhost, hlen]

/-- A punt waits for the DMA engine. -/
def Chip.addPunt (c : Chip) (s : Nat) (p : Punt) : Chip := { c with host := { c.host with punts := c.host.punts.upd s fun l => l ++ [p] } }

theorem Chip.reg_addPunt (s : Nat) (p : Punt) (a : Nat) : (c.addPunt s p).reg a = c.reg a := rfl

theorem Chip.punts_addPunt (s : Nat) (p : Punt) : (c.addPunt s p).host.punts.look s = c.host.punts.look s ++ [p] := by
  change (c.host.punts.upd s fun l => l ++ [p]).look s = _
  rw [Tbl.look_upd, if_pos rfl]

theorem Chip.openPunt_of_room {c : Chip} {id s : Nat} (hs : (c.fr id).slice = s) (hroom : c.puntBacklog s + (c.fr id).bytes.length ≤ 65536)
    (ring source reason trunc : Nat) :
    c.openPunt id ring source reason trunc = c.addPunt s { frame := id, ring, source, reason, trunc } := by
  subst hs
  refine if_neg ?_
  simp only [Bool.and_eq_true, decide_eq_true_eq]
  omega

end

/-! ### Verdicts without a mirror session -/

/-- A frame with its verdict. -/
def Frame.judged (f : Frame) (wb : BitVec 512) : Frame := { f with wb, stage := .judged }

/-- A frame with its verdict, which one stream or one punt carries on. -/
def Frame.carried (f : Frame) (wb : BitVec 512) : Frame := { f.judged wb with holders := 1 }

/-- The verdict of a frame that something carries on, counted in the slice under `k` too, before that begins. -/
def Chip.carryOn (c : Chip) (s id k : Nat) (f : Frame) (wb : BitVec 512) : Chip :=
  ((((c.cnt (c.sliceCnt s + C.verdicts) 1).setFr id (f.judged wb)).cnt (c.sliceCnt s + k) 1).stampCopies f.slot 0).setFr id (f.carried wb)

theorem Chip.stampCopies_frames (c : Chip) (slot : Option Nat) (n : Nat) : (c.stampCopies slot n).frames = c.frames := by cases slot <;> rfl

/-- A unicast verdict's stream begins, and the frame leaves the staging buffer if nothing of it is left to send. -/
def Chip.streamOn (c : Chip) (s id : Nat) (f : Frame) (wb : BitVec 512) (mask : Nat) : Chip :=
  ((c.carryOn s id C.unicast f wb).openStream id wb false false mask 0).unstage id

/-- A punt begins, and the frame leaves the staging buffer if nothing holds it there. -/
def Chip.puntOn (c : Chip) (s id : Nat) (f : Frame) (wb : BitVec 512) (ring source reason : Nat) : Chip :=
  ((c.carryOn s id C.punts f wb).openPunt id ring source reason 0).unstage id

/-- Nothing carries the frame on, and it ends with its verdict. -/
def Chip.dropOn (c : Chip) (s id : Nat) (f : Frame) (wb : BitVec 512) : Chip :=
  ((c.cnt (c.sliceCnt s + C.verdicts) 1).setFr id (f.judged wb)).endFrame id

/-- What carries a judged frame on is counted in the frame as it stands. -/
theorem Chip.carryOn_eq (c : Chip) (s id k : Nat) (f : Frame) (wb : BitVec 512) :
    ((((c.cnt (c.sliceCnt s + C.verdicts) 1).setFr id (f.judged wb)).cnt (c.sliceCnt s + k) 1).stampCopies f.slot 0).updFr id
      (fun f => { f with holders := 1 }) = c.carryOn s id k f wb :=
  Chip.updFr_of_look (by rw [Chip.stampCopies_frames, Chip.cnt_frames, Chip.look_setFr]) _

section
variable {c : Chip} {id : Nat} {f : Frame} (hf : c.frames.look id = some f) (s : Nat)
include hf

theorem Chip.giveVerdict_unicast (p sub k : Nat) (x : Option Nat) (off : Bool) (cls : Nat) (ct : Bool) :
    c.giveVerdict s id { way := .unicast p sub k x off, cls, ctOk := ct } =
      c.streamOn s id f (Chip.verdictWords f.wb (.unicast p sub k x off) 0 cls ct none) (2 ^ (p / 16)) := by
  rw [Chip.streamOn, ← Chip.carryOn_eq]
  obtain rfl := Chip.fr_of_look hf
  rfl

theorem Chip.giveVerdict_punt (ring source reason : Nat) (x : Option Nat) (cls : Nat) (ct always : Bool) :
    c.giveVerdict s id { way := .punt ring source reason x, cls, ctOk := ct, always } =
      c.puntOn s id f (Chip.verdictWords f.wb (.punt ring source reason x) 0 cls ct none) ring source reason := by
  rw [Chip.puntOn, ← Chip.carryOn_eq]
  obtain rfl := Chip.fr_of_look hf
  rfl

/-- The default action drops without a reason of Table 10-7 and without a report. -/
theorem Chip.giveVerdict_drop (cls : Nat) (ct always : Bool) :
    c.giveVerdict s id { way := .drop 0 none, cls, ctOk := ct, always } =
      c.dropOn s id f (Chip.verdictWords f.wb (.drop 0 none) 0 cls ct none) := by
  obtain rfl := Chip.fr_of_look hf
  rfl

end

section
variable (c : Chip) (s id : Nat) {k : Nat} (f : Frame) (wb : BitVec 512)

theorem Chip.look_carryOn (k : Nat) : (c.carryOn s id k f wb).frames.look id = some (f.carried wb) := Chip.look_setFr ..

theorem Chip.fr_carryOn (k i : Nat) : (c.carryOn s id k f wb).fr i = if i = id then f.carried wb else c.fr i := by
  rw [Chip.carryOn, Chip.fr_setFr]
  split
  · rfl
  · next hi => rw [Chip.fr, Chip.stampCopies_frames, Chip.cnt_frames, ← Chip.fr, Chip.fr_setFr, if_neg hi]; rfl

/-- The counters of a slice stand beyond the in-flight counts. -/
theorem Chip.sliceCnt_add_ne_inflightReg (o i : Nat) : c.sliceCnt s + o ≠ Chip.inflightReg i := by
  have := A.le_slice (U.index (c.suiteUnit (U.slice s)))
  have := Chip.inflightReg_lt i
  unfold Chip.sliceCnt
  omega

variable {f} (hslot : f.slot = some 0)
include hslot

theorem Chip.Keeps.carryOn {d : Chip} {l : List Nat} {ps : List Part} (h : d.Keeps c l ps) (hp : .frames ∈ ps)
    (hl : [c.sliceCnt s + C.verdicts, c.sliceCnt s + k, Chip.inflightReg 0] ⊆ l) : d.Keeps (c.carryOn s id k f wb) l ps := by
  simp only [List.cons_subset, List.nil_subset, and_true] at hl
  obtain ⟨hverdicts, hk, hslot0⟩ := hl
  rw [Chip.carryOn, hslot]
  exact ((((h.cnt hverdicts 1).setFr hp id _).cnt hk 1).setReg hslot0 _).setFr hp id _

theorem Chip.keeps_carryOn : c.Keeps (c.carryOn s id k f wb) [c.sliceCnt s + C.verdicts, c.sliceCnt s + k, Chip.inflightReg 0] [.frames] :=
  Chip.Keeps.carryOn c s id wb hslot (Chip.Keeps.refl c) (by decide) (List.Subset.refl _)

theorem Chip.verdicts_carryOn (hk : k ≠ C.verdicts) :
    (c.carryOn s id k f wb).reg (c.sliceCnt s + C.verdicts) = c.reg (c.sliceCnt s + C.verdicts) + 1 := by
  rw [Chip.carryOn, hslot, Chip.reg_setFr, Chip.stampCopies, Chip.inflightUp,
    Chip.reg_setReg_ne _ _ _ _ (Chip.sliceCnt_add_ne_inflightReg c s _ 0), Chip.reg_cnt_ne _ _ _ _ (by omega), Chip.reg_setFr, Chip.reg_cnt_same]
  rfl

theorem Chip.counted_carryOn (hk : k ≠ C.verdicts) : (c.carryOn s id k f wb).reg (c.sliceCnt s + k) = c.reg (c.sliceCnt s + k) + 1 := by
  rw [Chip.carryOn, hslot, Chip.reg_setFr, Chip.stampCopies, Chip.inflightUp,
    Chip.reg_setReg_ne _ _ _ _ (Chip.sliceCnt_add_ne_inflightReg c s _ 0), Chip.reg_cnt_same, Chip.reg_setFr, Chip.reg_cnt_ne _ _ _ _ (by omega)]
  rfl

end

/-! ### A stream -/

section
variable (c : Chip) (s id : Nat) (f : Frame) (wb : BitVec 512) (mask : Nat)

theorem Chip.fr_streamOn : ∃ b, (c.streamOn s id f wb mask).fr id = { f.carried wb with staged := b } :=
  Chip.fr_unstage (c := (c.carryOn s id C.unicast f wb).openStream id wb false false mask 0) (c.look_carryOn ..)

theorem Chip.reg_streamOn (a : Nat) : (c.streamOn s id f wb mask).reg a = (c.carryOn s id C.unicast f wb).reg a := Chip.reg_unstage ..

variable {f} (hslot : f.slot = some 0)
include hslot

theorem Chip.Keeps.streamOn {d : Chip} {l : List Nat} {ps : List Part} (h : d.Keeps c l ps) (hp : [.frames, .streams, .nextId] ⊆ ps)
    (hl : [c.sliceCnt s + C.verdicts, c.sliceCnt s + C.unicast, Chip.inflightReg 0] ⊆ l) : d.Keeps (c.streamOn s id f wb mask) l ps := by
  simp only [List.cons_subset, List.nil_subset, and_true] at hp
  obtain ⟨hframes, hstreams, hnext⟩ := hp
  exact ((Chip.Keeps.carryOn c s id wb hslot h hframes hl).openStream hnext hstreams ..).unstage hframes id

theorem Chip.nextId_streamOn : (c.streamOn s id f wb mask).nextId = c.nextId + 1 := by
  rw [Chip.streamOn, Chip.unstage_same (g := Chip.nextId) _ _ fun _ _ => rfl,
    ← (c.keeps_carryOn s id wb hslot (k := C.unicast)).nextId (by decide)]
  rfl

/-- The plane is the one that the pin table gives before anything of the verdict is written. -/
theorem Chip.strm_streamOn
    (hpin : ∀ k < 4, A.plane k + R.PLANE_STATUS ∉ [c.sliceCnt s + C.verdicts, c.sliceCnt s + C.unicast, Chip.inflightReg 0]) :
    (c.streamOn s id f wb mask).strm c.nextId =
      { frame := id, slice := f.slice, wb, mask, plane := c.pinPlane (Wb.hash wb % 256), left := mask, openAt := mask } := by
  have hcarry := c.keeps_carryOn s id wb hslot (k := C.unicast)
  have hfr : (c.carryOn s id C.unicast f wb).fr id = f.carried wb := Chip.fr_of_look (c.look_carryOn ..)
  rw [Chip.streamOn, Chip.unstage_same (g := (·.strm c.nextId)) _ _ fun _ _ => rfl, ← hcarry.nextId (by decide), ← hcarry.pinPlane hpin,
    Chip.strm_openStream, hfr]
  rfl

end

/-! ### A punt -/

section
variable {c : Chip} {s id : Nat} {f : Frame} (wb : BitVec 512) (ring source reason : Nat) (hs : f.slice = s) (hf : c.frames.look id = some f)
  (hslot : f.slot = some 0) (hroom : c.puntBacklog s + f.bytes.length ≤ 65536)
include hs hf hslot hroom

theorem Chip.puntOn_eq : c.puntOn s id f wb ring source reason =
    ((c.carryOn s id C.punts f wb).addPunt s { frame := id, ring, source, reason }).unstage id := by
  have hfr := c.fr_carryOn s id f wb C.punts
  have hid : (c.carryOn s id C.punts f wb).fr id = f.carried wb := (hfr id).trans (if_pos rfl)
  have hbacklog : (c.carryOn s id C.punts f wb).puntBacklog s = c.puntBacklog s := by
    refine Chip.puntBacklog_congr ((c.keeps_carryOn s id wb hslot).host (by decide)) (fun i => ?_) s
    rw [hfr]
    split
    · next hi => rw [hi, Chip.fr_of_look hf]; rfl
    · rfl
  rw [Chip.puntOn, Chip.openPunt_of_room (s := s) (by rw [hid]; exact hs) (by rw [hbacklog, hid]; exact hroom)]

theorem Chip.fr_puntOn : ∃ b, (c.puntOn s id f wb ring source reason).fr id = { f.carried wb with staged := b } := by
  rw [Chip.puntOn_eq wb ring source reason hs hf hslot hroom]
  exact Chip.fr_unstage (c.look_carryOn ..)

theorem Chip.reg_puntOn (a : Nat) : (c.puntOn s id f wb ring source reason).reg a = (c.carryOn s id C.punts f wb).reg a := by
  rw [Chip.puntOn_eq wb ring source reason hs hf hslot hroom, Chip.reg_unstage, Chip.reg_addPunt]

theorem Chip.punts_puntOn : (c.puntOn s id f wb ring source reason).host.punts.look s =
    c.host.punts.look s ++ [{ frame := id, ring, source, reason }] := by
  rw [Chip.puntOn_eq wb ring source reason hs hf hslot hroom, Chip.unstage_same (g := (·.host.punts.look s)) _ _ fun _ _ => rfl,
    Chip.punts_addPunt, (c.keeps_carryOn s id wb hslot).host (by decide)]

theorem Chip.Keeps.puntOn {d : Chip} {l : List Nat} {ps : List Part} (h : d.Keeps c l ps) (hp : [.frames, .host] ⊆ ps)
    (hl : [c.sliceCnt s + C.verdicts, c.sliceCnt s + C.punts, Chip.inflightReg 0] ⊆ l) :
    d.Keeps (c.puntOn s id f wb ring source reason) l ps := by
  simp only [List.cons_subset, List.nil_subset, and_true] at hp
  rw [Chip.puntOn_eq wb ring source reason hs hf hslot hroom]
  exact ((Chip.Keeps.carryOn c s id wb hslot h hp.1 hl).setHost hp.2 _).unstage hp.1 id

end

/-! ### The end of a frame that nothing carries on -/

section
variable {c : Chip} {id : Nat} {f : Frame}

theorem Chip.endFrame_judged {i : Nat} (hf : c.frames.look id = some f) (hstage : f.stage = .judged) (hslot : f.slot = some i)
    (hi : c.inflight i ≠ 0) :
    c.endFrame id = ((c.setReg (Chip.inflightReg i) (BitVec.ofNat 64 (c.inflight i - 1))).updPrt f.home (Port.without id)).dropFr id := by
  rw [Chip.endFrame, Chip.fr_of_look hf, hslot, Chip.unstamp, Chip.inflightDown, if_neg hi,
    Chip.forget_of_some (c := c.setReg (Chip.inflightReg i) (BitVec.ofNat 64 (c.inflight i - 1))) hf, Chip.leaveStage, hstage]

theorem Chip.reg_dropFr (c : Chip) (id a : Nat) : (c.dropFr id).reg a = c.reg a := rfl

/-- An in-flight count after one frame less. -/
theorem Chip.inflight_setReg (c : Chip) (i n : Nat) (h : n < 2 ^ 32) : (c.setReg (Chip.inflightReg i) (BitVec.ofNat 64 n)).inflight i = n := by
  rw [Chip.inflight, Chip.reg_setReg, if_pos rfl, bits, BitVec.toNat_ofNat, Nat.shiftRight_zero]
  omega

end

section
variable (c : Chip) (s id : Nat) {f : Frame} (wb : BitVec 512) (hslot : f.slot = some 0) (hpos : 0 < c.inflight 0)
include hslot hpos

theorem Chip.dropOn_eq : c.dropOn s id f wb =
    ((((c.cnt (c.sliceCnt s + C.verdicts) 1).setFr id (f.judged wb)).setReg (Chip.inflightReg 0)
      (BitVec.ofNat 64 (c.inflight 0 - 1))).updPrt f.home (Port.without id)).dropFr id := by
  have hsame : ((c.cnt (c.sliceCnt s + C.verdicts) 1).setFr id (f.judged wb)).inflight 0 = c.inflight 0 := by
    rw [Chip.inflight, Chip.reg_setFr, Chip.reg_cnt_ne _ _ _ _ (c.sliceCnt_add_ne_inflightReg s C.verdicts 0).symm, Chip.inflight]
  rw [Chip.dropOn, Chip.endFrame_judged (f := f.judged wb) (Chip.look_setFr ..) rfl hslot (by omega), hsame]
  rfl

theorem Chip.inflight_dropOn : (c.dropOn s id f wb).inflight 0 = c.inflight 0 - 1 := by
  have hlt : c.inflight 0 < 2 ^ 32 := bits_lt ..
  rw [Chip.dropOn_eq c s id wb hslot hpos]
  rw [Chip.inflight, Chip.reg_dropFr, Chip.reg_updPrt, ← Chip.inflight, Chip.inflight_setReg _ 0 _ (by omega)]

theorem Chip.verdicts_dropOn : (c.dropOn s id f wb).reg (c.sliceCnt s + C.verdicts) = c.reg (c.sliceCnt s + C.verdicts) + 1 := by
  rw [Chip.dropOn_eq c s id wb hslot hpos]
  rw [Chip.reg_dropFr, Chip.reg_updPrt, Chip.reg_setReg_ne _ _ _ _ (Chip.sliceCnt_add_ne_inflightReg c s _ 0), Chip.reg_setFr, Chip.reg_cnt_same]
  rfl

theorem Chip.Keeps.dropOn {d : Chip} {l : List Nat} {ps : List Part} (h : d.Keeps c l ps) (hp : [.frames, .ports] ⊆ ps)
    (hl : [c.sliceCnt s + C.verdicts, Chip.inflightReg 0] ⊆ l) : d.Keeps (c.dropOn s id f wb) l ps := by
  simp only [List.cons_subset, List.nil_subset, and_true] at hp hl
  rw [Chip.dropOn_eq c s id wb hslot hpos]
  exact ((((h.cnt hl.1 1).setFr hp.1 id _).setReg hl.2 _).updPrt hp.2 _ _).setFrames hp.1 _

end

end Sys2Proof.Machine
end

section
/-! SUPPORT. What the resolver decides of a frame that one result forwards, or that a default action takes
(spec/10_actions_and_editing.md R224 to R228, spec/04_ports_and_lanes.md R101, R103). -/

namespace Sys2Proof.Machine

open Sys2Proof

/-! ### The resolver's readers (spec/17_memory_protection.md R375) -/

/-- Registers that a slice has at the start of a 64 KiB stand apart from those of a memory group. -/
theorem A.slice_add_not_mem_errRegs (n u : Nat) {o : Nat} (ho : o % 0x10000 < 0x5000) : A.slice n + o ∉ errRegs u := by
  simp only [errRegs, A.slice, A.group, R.MEM_EVENT, C.ce_bytes, C.ue_reads, C.log_lost, List.mem_cons, List.not_mem_nil, or_false]
  omega

section
variable {c d : Chip} {l : List Nat} {ps : List Part} (h : c.Keeps d l ps)
include h

theorem Chip.Keeps.seeWay (hl : .ledger ∈ ps) (hm : .mem ∈ ps) {f : Frame} (hr : errRegs (U.sliceBlk f.slice 0x58) ⊆ l)
    (r : Option Result) : c.Keeps (d.seeWay f r) l ps := by
  cases r with
  | none => exact h
  | some r =>
    refine .ite h ?_
    unfold Chip.seeResult
    dsimp only
    split
    · exact h.seeWords hl hm hr ..
    · have hgroup := h.seeWords hl hm hr (65536 + 17 * (r.index / 16)) 17
      exact hgroup.when fun _ => hgroup.seeWords hl hm hr ..
    · exact h

theorem Chip.Keeps.profile (hi : .image ∉ ps) (f : Frame) : d.profile f = c.profile f := by
  rw [Chip.profile, Chip.emHome_of_image (h.image hi), Chip.profile]

theorem Chip.Keeps.ctAllowed (hi : .image ∉ ps) {f : Frame} (hl : c.profile f + R.RES_PROFILE ∉ l) (w : Way) :
    d.ctAllowed f w = c.ctAllowed f w := by
  have hoff : d.on (d.profile f) R.RES_PROFILE_ct_off = c.on (c.profile f) R.RES_PROFILE_ct_off := by
    rw [Chip.on, h.profile hi, h.get (f := R.RES_PROFILE_ct_off) hl, Chip.on]
  unfold Chip.ctAllowed
  rw [hoff]

end

/-- The profile of a frame stands apart from the registers of a memory group. -/
theorem Chip.profile_not_mem_errRegs (c : Chip) (f : Frame) (u : Nat) : c.profile f + R.RES_PROFILE ∉ errRegs u := by
  have htag : Wb.classTag f.wb < 65536 := bits_lt ..
  rw [Chip.profile, Nat.add_assoc]
  refine A.slice_add_not_mem_errRegs _ _ ?_
  unfold R.RES_PROFILE
  omega

/-! ### What it decides -/

/-- A frame with the subscriber slot and the E-CID that R101 finds of it. -/
def Frame.extended (f : Frame) (x : Nat × Option Nat × Nat) : Frame := { f with extSub := x.2.1, ecid := x.2.2 }

section
variable {c : Chip} {f : Frame}

/-- The first forwarding source forwards, and no result drops, polices or mirrors. -/
theorem Chip.resolve_unicast {r : Result} {p sub k : Nat} {off : Bool} (hacl : c.sourceHit f (c.get (c.profile f) R.RES_PROFILE_acl) = none)
    (hqos : c.sourceHit f (c.get (c.profile f) R.RES_PROFILE_qos) = none)
    (hfwd : c.forwardOf f (c.get (c.profile f) R.RES_PROFILE_fwd_first) = some (some r, 0, .unicast p sub k none off))
    (hr : r.meter = none ∧ r.cls = none ∧ Chip.mirrorOf [some r] = none) :
    c.resolve f = (c.seeWay f (some r),
      { way := .unicast p sub k none off
        cls := (c.seeWay f (some r)).get ((c.seeWay f (some r)).profile f) R.RES_PROFILE_default_class
        ctOk := (c.seeWay f (some r)).ctAllowed f (.unicast p sub k none off) }) := by
  obtain ⟨hmeter, hcls, hmirror⟩ := hr
  have hset : ∀ {α : Type} (g : Result → Option α), Chip.firstSet [none, none, some r] g = (g r).or none := fun g => by
    cases hg : g r <;> simp [Chip.firstSet, hg]
  have hmir : Chip.mirrorOf [none, none, some r] = none := hmirror
  simp [Chip.resolve, hacl, hqos, hfwd, Chip.finishWay, hset, hmeter, hcls, hmir]

theorem Chip.resolveDefault_punt (h : bits f.dflt 31 30 = 1) (r : Nat) :
    c.resolveDefault f r = (c.defaultCount f r,
      { way := .punt (bits f.dflt 11 0) 1 r none, cls := (c.defaultCount f r).get ((c.defaultCount f r).profile f) R.RES_PROFILE_default_class
        ctOk := (c.defaultCount f r).ctAllowed f (.punt (bits f.dflt 11 0) 1 r none), always := true }) := by
  simp [Chip.resolveDefault, Chip.defaultWay, h]

theorem Chip.resolveDefault_drop (h : bits f.dflt 31 30 = 0) (r : Nat) :
    c.resolveDefault f r = (c.defaultCount f r,
      { way := .drop 0 none, cls := (c.defaultCount f r).get ((c.defaultCount f r).profile f) R.RES_PROFILE_default_class
        ctOk := (c.defaultCount f r).ctAllowed f (.drop 0 none), always := true }) := by
  simp [Chip.resolveDefault, Chip.defaultWay, h]

/-- The reason of a frame's default action: of its parse failure, or else of R101 (R103); 0 for none. -/
def Chip.defaultReason (c : Chip) (f : Frame) : Nat := if Wb.failReason f.wb != 0 then Wb.failReason f.wb else (c.extJudge f).1

/-- What the resolver makes of a frame that it has marked with what R101 finds. -/
def Chip.judgeAs (c : Chip) (s id : Nat) (f : Frame) (reason : Nat) : Chip :=
  let r := if reason = 0 then c.resolve f else c.resolveDefault f reason
  r.1.giveVerdict s id r.2

theorem Chip.judgeFrame_eq {id : Nat} (hf : c.frames.look id = some f) (s : Nat) :
    c.judgeFrame s id = (c.setFr id (f.extended (c.extJudge f))).judgeAs s id (f.extended (c.extJudge f)) (c.defaultReason f) := by
  have hfr : ∀ g, (c.setFr id g).fr id = g := fun _ => Chip.fr_of_look (Chip.look_setFr ..)
  simp only [Chip.judgeFrame, Chip.fr_of_look hf, Chip.updFr_of_look hf, hfr]
  rfl

end

end Sys2Proof.Machine
end

section
/-! SUPPORT. ACTION_RESOLUTION (spec/10_actions_and_editing.md R224 to R228) of frames that are forwarded, punted or dropped. -/

namespace Sys2Proof.Machine

open Sys2Proof

/-! ### Verdicts in a waybill (Table 10-6) -/

/-- A field within a field. -/
theorem bits_sub {w : Nat} (v : BitVec w) {hi lo hi' lo' : Nat} (h : lo ≤ lo' ∧ hi' ≤ hi) :
    bits v hi' lo' = bits v hi lo / 2 ^ (lo' - lo) % 2 ^ (hi' + 1 - lo') := by
  refine Nat.eq_of_testBit_eq fun i => ?_
  rw [bits_testBit, Nat.testBit_mod_two_pow, Nat.testBit_div_two_pow, bits_testBit]
  by_cases hi2 : i < hi' + 1 - lo'
  · have hin : lo' - lo + i < hi + 1 - lo ∧ lo + (lo' - lo + i) = lo' + i := by omega
    simp [hi2, hin, Nat.add_comm i]
  · simp [hi2]

/-- A field of a word of the waybill that is written whole. -/
theorem Wb.get_put_word (wb : BitVec 512) {n hi lo : Nat} (v : Nat) (hn : n < 16) (h : lo ≤ hi ∧ hi ≤ 31) :
    Wb.get (Wb.put wb n 31 0 v) n hi lo = v % 2 ^ 32 / 2 ^ lo % 2 ^ (hi + 1 - lo) := by
  have hword := Wb.get_put_same wb n v (hi := 31) (lo := 0) (by omega)
  rw [Wb.get] at hword ⊢
  rw [bits_sub _ (hi := 32 * n + 31) (lo := 32 * n + 0) (by omega), hword, show 32 * n + lo - (32 * n + 0) = lo by omega,
    show 32 * n + hi + 1 - (32 * n + lo) = hi + 1 - lo by omega]

section
variable (wb : BitVec 512) {ring source reason cls : Nat} {x : Option Nat} {ct : Bool}

theorem Wb.action_verdictWords_punt (hcls : cls < 8) : Wb.action (Chip.verdictWords wb (.punt ring source reason x) 0 cls ct none) = 3 := by
  have hct : b2n ct ≤ 1 := by cases ct <;> decide
  rw [Wb.action, Chip.verdictWords, Wb.get_put_other _ _ _ (by decide), Wb.get_put_word _ _ (by decide) (by decide)]
  simp only [Option.isSome_none, Option.getD_none, b2n, Bool.false_eq_true, if_false] at hct ⊢
  omega

theorem Wb.ring_verdictWords_punt (hring : ring < 4096) : Wb.ring (Chip.verdictWords wb (.punt ring source reason x) 0 cls ct none) = ring := by
  rw [Wb.ring, Chip.verdictWords, Wb.get_put_word _ _ (by decide) (by decide)]
  omega

end

/-! ### When the resolver forms a verdict -/

/-- The resolver forms the verdict of a frame whose lookups are all complete, in the order of its flow, while it and the policers are out of
reset. -/
def Chip.judges (c : Chip) (sl id : Nat) : Bool :=
  c.portersRun sl && c.frameAt sl id .lookups && !(c.fr id).lpmHeld && (c.fr id).searches.isEmpty && c.flowTurn id [.pipes, .lookups] &&
    c.blockUp sl 0x58 && c.blockUp sl 0x68

theorem Chip.judges_iff (c : Chip) (sl id : Nat) : c.judges sl id = true ↔
    c.portersRun sl = true ∧ c.frameAt sl id .lookups = true ∧ (c.fr id).lpmHeld = false ∧ (c.fr id).searches = [] ∧
      c.flowTurn id [.pipes, .lookups] = true ∧ c.blockUp sl 0x58 = true ∧ c.blockUp sl 0x68 = true := by
  simp only [Chip.judges, Bool.and_eq_true, Bool.not_eq_true', List.isEmpty_iff, and_assoc]

/-- A frame whose turn at the resolver has come. -/
structure State.Resolves (s : State) (sl id : Nat) (f : Frame) : Prop where
  runs : s.runs .core = true
  judges : s.chip.judges sl id = true
  look : s.chip.frames.look id = some f
  slice : f.slice = sl

theorem State.Resolves.intro {s : State} {sl id : Nat} {f : Frame} (hr : s.runs .core = true)
    (hrun : s.chip.portersRun sl = true ∧ s.chip.flowTurn id [.pipes, .lookups] = true ∧ s.chip.blockUp sl 0x58 = true ∧
      s.chip.blockUp sl 0x68 = true)
    (hf : s.chip.frames.look id = some f ∧ f.slice = sl ∧ f.stage = .lookups) (hdone : f.lpmHeld = false ∧ f.searches = []) :
    s.Resolves sl id f := by
  obtain ⟨hporters, hturn, hresolver, hpolicers⟩ := hrun
  obtain ⟨hlook, hslice, hstage⟩ := hf
  have hat : s.chip.frameAt sl id .lookups = true := by simp [Chip.frameAt, hlook, hslice, hstage]
  exact ⟨hr, (s.chip.judges_iff sl id).mpr ⟨hporters, hat, by rw [Chip.fr_of_look hlook, hdone.1], by rw [Chip.fr_of_look hlook, hdone.2],
    hturn, hresolver, hpolicers⟩, hlook, hslice⟩

/-- What a frame comes to whose turn has come. -/
theorem State.Resolves.does {s : State} {sl id : Nat} {f : Frame} (h : s.Resolves sl id f) {x : Nat × Option Nat × Nat} {r : Nat}
    (hx : s.chip.extJudge f = x) (hr : s.chip.defaultReason f = r) {P : State → Prop}
    (hp : P { s with chip := (s.chip.quiet.setFr id (f.extended x)).judgeAs sl id (f.extended x) r }) : Does (.actionResolution sl id) s P := by
  refine Does.of_run (exec_actionResolution s sl id) h.runs ?_
  have hjudges : s.chip.quiet.judges sl id = true := h.judges
  rw [Chip.judges] at hjudges
  subst hx hr
  rw [if_pos hjudges, Chip.judgeFrame_eq (c := s.chip.quiet) h.look]
  exact hp

theorem actionResolution_waits {s : State} {sl id : Nat} (hr : s.runs .core = true)
    (h : s.chip.portersRun sl = false ∨ s.chip.frameAt sl id .lookups = false ∨ (s.chip.fr id).lpmHeld = true ∨
      (s.chip.fr id).searches ≠ [] ∨ s.chip.flowTurn id [.pipes, .lookups] = false ∨ s.chip.blockUp sl 0x58 = false ∨ s.chip.blockUp sl 0x68 = false) :
    Does (.actionResolution sl id) s fun t => OnlyRegs s t [] := by
  have hjudges : ¬ s.chip.quiet.judges sl id = true := fun hj => by
    obtain ⟨hporters, hat, hheld, hsearches, hturn, hresolver, hpolicers⟩ := (s.chip.judges_iff sl id).mp hj
    simp [hporters, hat, hheld, hsearches, hturn, hresolver, hpolicers] at h
  rw [Chip.judges] at hjudges
  refine Does.of_run (exec_actionResolution s sl id) hr ?_
  rw [if_neg hjudges]
  exact (Chip.Keeps.refl _).onlyRegs

/-! ### A frame that one result forwards to a port -/

/-- The planes' status registers stand apart from what a verdict and its readers change. -/
theorem plane_status_not_mem {k : Nat} (hk : k < 4) (n i : Nat) :
    A.plane k + R.PLANE_STATUS ∉ [A.slice n + C.verdicts, A.slice n + C.unicast, Chip.inflightReg i] := by
  have := Chip.inflightReg_lt i
  simp only [List.mem_cons, List.not_mem_nil, or_false, A.plane, A.slice, R.PLANE_STATUS, C.verdicts, C.unicast]
  omega

theorem plane_status_not_mem_errRegs (k u : Nat) : A.plane k + R.PLANE_STATUS ∉ errRegs u := by
  simp only [errRegs, A.plane, A.group, R.PLANE_STATUS, R.MEM_EVENT, C.ce_bytes, C.ue_reads, C.log_lost, List.mem_cons,
    List.not_mem_nil, or_false]
  omega

theorem actionResolution_unicast {s : State} {sl id p sub k : Nat} {f : Frame} {r : Result} {off : Bool} (h : s.Resolves sl id f)
    (hf : f.slot = some 0 ∧ f.extSub = none ∧ f.ecid = 0) (hfail : Wb.failReason f.wb = 0) (hx : s.chip.extJudge f = (0, none, 0))
    (hacl : s.chip.sourceHit f (s.chip.get (s.chip.profile f) R.RES_PROFILE_acl) = none)
    (hqos : s.chip.sourceHit f (s.chip.get (s.chip.profile f) R.RES_PROFILE_qos) = none)
    (hfwd : s.chip.forwardOf f (s.chip.get (s.chip.profile f) R.RES_PROFILE_fwd_first) = some (some r, 0, .unicast p sub k none off))
    (hr : r.meter = none ∧ r.cls = none ∧ Chip.mirrorOf [some r] = none) :
    Does (.actionResolution sl id) s fun t =>
      (t.chip.fr id).wb = Chip.verdictWords f.wb (.unicast p sub k none off) 0 (s.chip.get (s.chip.profile f) R.RES_PROFILE_default_class)
        (s.chip.ctAllowed f (.unicast p sub k none off)) none ∧
      (t.chip.fr id).stage = .judged ∧ (t.chip.fr id).holders = 1 ∧ t.chip.nextId = s.chip.nextId + 1 ∧
      t.chip.strm s.chip.nextId =
        { frame := id, slice := sl, wb := (t.chip.fr id).wb, mask := 2 ^ (p / 16), plane := s.chip.pinPlane (Wb.hash (t.chip.fr id).wb % 256),
          left := 2 ^ (p / 16), openAt := 2 ^ (p / 16) } ∧
      t.chip.reg (s.chip.sliceCnt sl + C.verdicts) = s.chip.reg (s.chip.sliceCnt sl + C.verdicts) + 1 ∧
        t.chip.reg (s.chip.sliceCnt sl + C.unicast) = s.chip.reg (s.chip.sliceCnt sl + C.unicast) + 1 ∧
      OnlyParts s t ([s.chip.sliceCnt sl + C.verdicts, s.chip.sliceCnt sl + C.unicast,
        Chip.inflightReg 0] ++ (errRegs (U.sliceBlk sl 0x58) ++ errRegs (U.sliceBlk sl 0x60) ++ errRegs (U.sliceBlk sl 0x68))) [.frames,
        .streams, .nextId, .mem, .ledger] := by
  obtain ⟨hslot, hsub, hecid⟩ := hf
  have hsame : f.extended (0, none, 0) = f := by rw [Frame.extended, ← hsub, ← hecid]
  have hreason : s.chip.defaultReason f = 0 := by rw [Chip.defaultReason, hfail, hx]; rfl
  refine h.does hx hreason ?_
  rw [hsame, Chip.judgeAs, if_pos rfl, Chip.resolve_unicast (c := s.chip.quiet.setFr id f) hacl hqos hfwd hr]
  dsimp only
  obtain rfl := h.slice
  have hsee : (s.chip.quiet.setFr id f).Keeps ((s.chip.quiet.setFr id f).seeWay f (some r)) (errRegs (U.sliceBlk f.slice 0x58))
      [.mem, .ledger] :=
    (Chip.Keeps.refl _).seeWay (by decide) (by decide) (List.Subset.refl _) _
  have hall : s.chip.quiet.Keeps ((s.chip.quiet.setFr id f).seeWay f (some r)) ([s.chip.sliceCnt f.slice + C.verdicts,
      s.chip.sliceCnt f.slice + C.unicast, Chip.inflightReg 0] ++ (errRegs (U.sliceBlk f.slice 0x58) ++ errRegs (U.sliceBlk f.slice 0x60) ++
      errRegs (U.sliceBlk f.slice 0x68))) [.frames, .streams, .nextId, .mem, .ledger] :=
    ((Chip.Keeps.refl _).setFr (by decide) id f).seeWay (by decide) (by decide) (fun a ha => by simp [ha]) _
  rw [hsee.profile (by decide), hsee.get (f := R.RES_PROFILE_default_class) (Chip.profile_not_mem_errRegs _ f _),
    hsee.ctAllowed (by decide) (Chip.profile_not_mem_errRegs _ f _)]
  generalize (s.chip.quiet.setFr id f).seeWay f (some r) = c at hsee hall ⊢
  have hlook : c.frames.look id = some f := by rw [hsee.frames (by decide), Chip.look_setFr]
  have hcnt : c.sliceCnt f.slice = s.chip.sliceCnt f.slice := Chip.sliceCnt_of_image (hsee.image (by decide)) _
  have hkept : ∀ o, o % 0x10000 < 0x5000 → c.reg (s.chip.sliceCnt f.slice + o) = s.chip.reg (s.chip.sliceCnt f.slice + o) := fun o ho =>
    hsee.1 _ (A.slice_add_not_mem_errRegs _ _ ho)
  have hnext : c.nextId = s.chip.nextId := hsee.nextId (by decide)
  rw [Chip.giveVerdict_unicast hlook]
  generalize hwb : Chip.verdictWords f.wb _ 0 _ _ none = wb
  obtain ⟨b, hfr⟩ := c.fr_streamOn f.slice id f wb (2 ^ (p / 16))
  rw [hfr]
  refine ⟨hwb.symm, rfl, rfl, ?_, ?_, ?_, ?_, Chip.Keeps.onlyParts ?_⟩
  · rw [Chip.nextId_streamOn _ _ _ _ _ hslot, hnext]
  · rw [← hnext, Chip.strm_streamOn _ _ _ _ _ hslot fun _ hk => plane_status_not_mem hk _ _,
      hsee.pinPlane fun k _ => plane_status_not_mem_errRegs k _]
    rfl
  · rw [Chip.reg_streamOn, ← hcnt, Chip.verdicts_carryOn _ _ _ _ hslot (by decide), hcnt, hkept _ (by decide)]
  · rw [Chip.reg_streamOn, ← hcnt, Chip.counted_carryOn _ _ _ _ hslot (by decide), hcnt, hkept _ (by decide)]
  · exact Chip.Keeps.streamOn _ _ _ _ _ hslot hall (by decide) (by simp [hcnt])

/-! ### A frame that its default action punts or drops (R103) -/

/-- The counter of a default action stands apart from those of a slice and from the in-flight counts. -/
theorem Chip.defaultAction_not_mem (c : Chip) (p s i : Nat) {r : Nat} (hr : r ≤ 5) :
    c.portCnt p + C.default_action + 8 * r ∉ [c.sliceCnt s + C.verdicts, c.sliceCnt s + C.punts, Chip.inflightReg i] := by
  have := Chip.inflightReg_lt i
  simp only [List.mem_cons, List.not_mem_nil, or_false, Chip.portCnt, Chip.sliceCnt, A.port, A.slice, C.default_action, C.verdicts, C.punts]
  omega

/-- A frame, marked with what R101 finds, comes to its default action. -/
def Chip.toDefault (c : Chip) (id : Nat) (f : Frame) (r : Nat) : Chip := (c.setFr id f).defaultCount f r

section
variable (c : Chip) (id : Nat) (f : Frame) (r : Nat)

theorem Chip.look_toDefault : (c.toDefault id f r).frames.look id = some f := Chip.look_setFr ..

theorem Chip.reg_toDefault : (c.toDefault id f r).reg (c.portCnt f.home + C.default_action + 8 * r) =
    c.reg (c.portCnt f.home + C.default_action + 8 * r) + 1 := Chip.reg_cnt_same ..

variable {r} in
theorem Chip.reg_toDefault_ne {a : Nat} (ha : c.portCnt f.home + C.default_action + 8 * r ≠ a) : (c.toDefault id f r).reg a = c.reg a :=
  Chip.reg_cnt_ne _ _ _ _ ha.symm

theorem Chip.Keeps.toDefault {d : Chip} {l : List Nat} {ps : List Part} (h : d.Keeps c l ps) (hp : .frames ∈ ps)
    (hl : c.portCnt f.home + C.default_action + 8 * r ∈ l) : d.Keeps (c.toDefault id f r) l ps := (h.setFr hp id f).cnt hl 1

theorem Chip.puntBacklog_toDefault {c : Chip} {id : Nat} {f g : Frame} (hg : c.frames.look id = some g) (hb : f.bytes = g.bytes) (r s : Nat) :
    (c.toDefault id f r).puntBacklog s = c.puntBacklog s := by
  refine Chip.puntBacklog_congr (c := c) (d := c.toDefault id f r) rfl (fun i => ?_) s
  change ((c.setFr id f).fr i).bytes.length = _
  rw [Chip.fr_setFr]
  split
  · next hi => rw [hi, Chip.fr_of_look hg, hb]
  · rfl

variable {r} (hr : r ≠ 0) (s : Nat)
include hr

theorem Chip.judgeAs_punt (h : bits f.dflt 31 30 = 1) : ∃ cls < 8, ∃ ct, (c.setFr id f).judgeAs s id f r =
    (c.toDefault id f r).puntOn s id f (Chip.verdictWords f.wb (.punt (bits f.dflt 11 0) 1 r none) 0 cls ct none) (bits f.dflt 11 0) 1 r := by
  rw [Chip.judgeAs, if_neg hr, Chip.resolveDefault_punt h, ← Chip.toDefault]
  exact ⟨_, bits_lt .., _, Chip.giveVerdict_punt (c.look_toDefault id f r) ..⟩

theorem Chip.judgeAs_drop (h : bits f.dflt 31 30 = 0) : ∃ wb, (c.setFr id f).judgeAs s id f r =
    (c.toDefault id f r).dropOn s id f wb := by
  rw [Chip.judgeAs, if_neg hr, Chip.resolveDefault_drop h, ← Chip.toDefault]
  exact ⟨_, Chip.giveVerdict_drop (c.look_toDefault id f r) ..⟩

end

section
variable {s : State} {sl id r : Nat} {f : Frame} (h : s.Resolves sl id f) (hr : Wb.failReason f.wb = r ∧ 1 ≤ r ∧ r ≤ 5)
include h hr

/-- A frame whose parse failed comes to its default action. -/
theorem State.Resolves.does_default {P : State → Prop}
    (hp : ∀ f', f' = f.extended (s.chip.extJudge f) → P { s with chip := (s.chip.quiet.setFr id f').judgeAs sl id f' r }) :
    Does (.actionResolution sl id) s P := by
  obtain ⟨hfail, hr1, -⟩ := hr
  have hreason : s.chip.defaultReason f = r := by rw [Chip.defaultReason, hfail, if_pos (bne_iff_ne.mpr (by omega))]
  exact h.does rfl hreason (hp _ rfl)

theorem actionResolution_punts (hslot : f.slot = some 0) (hdflt : bits f.dflt 31 30 = 1)
    (hroom : s.chip.puntBacklog sl + f.bytes.length ≤ 65536) :
    Does (.actionResolution sl id) s fun t =>
      Wb.action (t.chip.fr id).wb = 3 ∧ Wb.ring (t.chip.fr id).wb = bits f.dflt 11 0 ∧ (t.chip.fr id).stage = .judged ∧
      t.chip.host.punts.look sl = s.chip.host.punts.look sl ++ [{ frame := id, ring := bits f.dflt 11 0, source := 1, reason := r }] ∧
      t.chip.reg (s.chip.portCnt f.home + C.default_action + 8 * r) = s.chip.reg (s.chip.portCnt f.home + C.default_action + 8 * r) + 1 ∧
      t.chip.reg (s.chip.sliceCnt sl + C.punts) = s.chip.reg (s.chip.sliceCnt sl + C.punts) + 1 ∧
      OnlyParts s t [(s.chip.portCnt f.home + C.default_action + 8 * r), s.chip.sliceCnt sl + C.verdicts, s.chip.sliceCnt sl + C.punts,
        Chip.inflightReg 0] [.frames, .host] := by
  refine h.does_default hr fun f' hf' => ?_
  obtain ⟨hslot', hdflt', hslice, hhome, hbytes⟩ : f'.slot = some 0 ∧ f'.dflt = f.dflt ∧ f'.slice = sl ∧ f'.home = f.home ∧
      f'.bytes = f.bytes := by
    rw [hf']
    exact ⟨hslot, rfl, h.slice, rfl, rfl⟩
  obtain ⟨cls, hcls, ct, heq⟩ := s.chip.quiet.judgeAs_punt id f' (r := r) (by omega) sl (hdflt' ▸ hdflt)
  rw [heq, hdflt']
  have hact := Wb.action_verdictWords_punt f'.wb (ring := bits f.dflt 11 0) (source := 1) (reason := r) (x := none) (ct := ct) hcls
  have hring := Wb.ring_verdictWords_punt f'.wb (ring := bits f.dflt 11 0) (source := 1) (reason := r) (cls := cls) (x := none) (ct := ct)
    (bits_lt ..)
  generalize Chip.verdictWords f'.wb _ 0 cls ct none = wb at hact hring ⊢
  have hlook := s.chip.quiet.look_toDefault id f' r
  have hroom' : (s.chip.quiet.toDefault id f' r).puntBacklog sl + f'.bytes.length ≤ 65536 := by
    rw [Chip.puntBacklog_toDefault (c := s.chip.quiet) h.look hbytes, hbytes]
    exact hroom
  obtain ⟨b, hfr⟩ := Chip.fr_puntOn wb (bits f.dflt 11 0) 1 r hslice hlook hslot' hroom'
  have hreg := Chip.reg_puntOn wb (bits f.dflt 11 0) 1 r hslice hlook hslot' hroom'
  have hnot := s.chip.defaultAction_not_mem f'.home sl 0 hr.2.2
  rw [hfr, ← hhome]
  refine ⟨hact, hring, rfl, Chip.punts_puntOn wb _ _ _ hslice hlook hslot' hroom', ?_, ?_, Chip.Keeps.onlyParts ?_⟩
  · exact (hreg _).trans (((Chip.keeps_carryOn (s.chip.quiet.toDefault id f' r) _ _ _ hslot').1 _ hnot).trans (Chip.reg_toDefault ..))
  · have hne : s.chip.portCnt f'.home + C.default_action + 8 * r ≠ s.chip.sliceCnt sl + C.punts := fun heq => hnot (heq ▸ .tail _ (.head _))
    exact (hreg _).trans ((Chip.counted_carryOn (s.chip.quiet.toDefault id f' r) sl id wb hslot' (by decide)).trans
      (congrArg (· + 1) (Chip.reg_toDefault_ne _ _ _ hne)))
  · exact Chip.Keeps.puntOn wb _ _ _ hslice hlook hslot' hroom' ((Chip.Keeps.refl _).toDefault _ id f' r (by decide) (.head _)) (by decide)
      (List.subset_cons_self ..)

theorem actionResolution_drops (hslot : f.slot = some 0 ∧ 0 < s.chip.inflight 0) (hdflt : bits f.dflt 31 30 = 0) :
    Does (.actionResolution sl id) s fun t =>
      t.chip.frames.look id = none ∧ t.chip.inflight 0 = s.chip.inflight 0 - 1 ∧
      t.chip.reg (s.chip.portCnt f.home + C.default_action + 8 * r) = s.chip.reg (s.chip.portCnt f.home + C.default_action + 8 * r) + 1 ∧
      t.chip.reg (s.chip.sliceCnt sl + C.verdicts) = s.chip.reg (s.chip.sliceCnt sl + C.verdicts) + 1 ∧
      OnlyParts s t [(s.chip.portCnt f.home + C.default_action + 8 * r), s.chip.sliceCnt sl + C.verdicts, Chip.inflightReg 0] [.frames,
        .ports, .lpm] := by
  obtain ⟨hslot0, hpos⟩ := hslot
  refine h.does_default hr fun f' hf' => ?_
  obtain ⟨hslot', hdflt', hhome⟩ : f'.slot = some 0 ∧ f'.dflt = f.dflt ∧ f'.home = f.home := by
    rw [hf']
    exact ⟨hslot0, rfl, rfl⟩
  obtain ⟨wb, heq⟩ := s.chip.quiet.judgeAs_drop id f' (r := r) (by omega) sl (hdflt' ▸ hdflt)
  have hnot := s.chip.defaultAction_not_mem f'.home sl 0 hr.2.2
  simp only [List.mem_cons, List.not_mem_nil, or_false, not_or] at hnot
  obtain ⟨hverdicts, -, hinflight⟩ := hnot
  have hsame : (s.chip.quiet.toDefault id f' r).inflight 0 = s.chip.inflight 0 := by
    rw [Chip.inflight, Chip.reg_toDefault_ne s.chip.quiet _ _ hinflight, Chip.reg_quiet, Chip.inflight]
  have hpos' : 0 < (s.chip.quiet.toDefault id f' r).inflight 0 := by rwa [hsame]
  have hdrop := Chip.Keeps.dropOn (s.chip.quiet.toDefault id f' r) sl id wb hslot' hpos' (Chip.Keeps.refl _) (ps := [.frames, .ports])
    (List.Subset.refl _) (List.Subset.refl _)
  rw [heq, ← hhome]
  refine ⟨(Chip.endFrame_frames ..).trans (if_pos rfl), ?_, ?_, ?_, Chip.Keeps.onlyParts ?_⟩
  · exact (Chip.inflight_dropOn _ _ _ _ hslot' hpos').trans (by rw [hsame])
  · refine (hdrop.1 _ ?_).trans (Chip.reg_toDefault ..)
    simp only [List.mem_cons, List.not_mem_nil, or_false, not_or]
    exact ⟨hverdicts, hinflight⟩
  · exact (Chip.verdicts_dropOn (s.chip.quiet.toDefault id f' r) _ _ _ hslot' hpos').trans
      (congrArg (· + 1) (Chip.reg_toDefault_ne _ _ _ hverdicts))
  · exact Chip.Keeps.dropOn _ _ _ _ hslot' hpos' ((Chip.Keeps.refl _).toDefault _ id f' r (by decide) (.head _)) (by decide)
      (List.subset_cons_self ..)

end

/-- Settles O39: each clause is what ACTION_RESOLUTION makes of a frame that a result forwards, that its default action punts or
drops, or that waits. -/
theorem resolverGivesTheVerdict : Obligations.ResolverGivesTheVerdict := by
  refine ⟨fun s sl id p sub k f r off hr hrun hf hdone hslot hfail hx hacl hqos hfwd hres => ?_,
    fun s sl id r f hr hrun hf hdone hslot hfail hdflt hroom => ?_, fun s sl id r f hr hrun hf hdone hslot hfail hdflt => ?_,
    fun s sl id hr h => actionResolution_waits hr h⟩
  · exact actionResolution_unicast (.intro hr hrun hf hdone) hslot hfail hx hacl hqos hfwd hres
  · exact actionResolution_punts (.intro hr hrun hf hdone) hfail hslot hdflt hroom
  · exact actionResolution_drops (.intro hr hrun hf hdone) hfail hslot hdflt

end Sys2Proof.Machine
end
